-- ==== Sys2Proof/Word.lean ====
section
/-! DEFINITION. The word types of the PX-1696 (R11): registers are 32 bits wide, points 64 bits, and both are kept as the
natural number they spell; a field that the manual treats as a pattern of bits is masked where it is written. -/

namespace Sys2Proof

/-- A byte of flash or of host memory. -/
abbrev Byte := BitVec 8

/-- Bits [lo + w - 1 : lo] of a word. -/
def bitsOf (x lo w : Nat) : Nat := x / 2 ^ lo % 2 ^ w

/-- A Boolean as the one-bit field that shows it. -/
def bit (b : Bool) : Nat := if b then 1 else 0

/-- Two's complement of an integer in `w` bits. -/
def wrapInt (w : Nat) (x : Int) : Nat := (x % (2 ^ w : Nat)).toNat

/-- The signed reading of a field of `w` bits. -/
def signedOf (w x : Nat) : Int :=
  if 2 * (x % 2 ^ w) < 2 ^ w then (x % 2 ^ w : Nat) else (x % 2 ^ w : Nat) - (2 ^ w : Nat)

end Sys2Proof
end

