-- ==== Sys2Proof/Tables.lean ====
section
/-! DEFINITION. The data that commands carry and State holds beside registers: points, events and the contents of the
configuration bit-stream (Table 14.3), of a checkpoint and of the frames on the links. The manual gives no byte layout for
the bit-stream's sections, so a load carries their decoded contents (notes/assumptions/12.md). -/

namespace Sys2Proof

/-- One stored 64-bit word with its poison flag (R58, R60). -/
structure Pt where
  v : Nat
  bad : Bool
deriving DecidableEq, Repr

/-- The name of a point: a cell point (R47, Table 1.8) or a station point (R52). -/
inductive PointKey where
  | cell (c p : Nat)
  | station (a : Nat)
deriving DecidableEq, Repr

/-- The image that holds a stored word (R21, R503, R504); `single` for a word that exists in one copy. -/
inductive ImageRole where
  | working | published | pinned | single
deriving DecidableEq, Repr

/-- A word that a command reads with wrong bits (R58): its memory and word address (Table 1.13), the role of the image that holds it,
and how many bits are wrong. -/
structure BadWord where
  memory : Fin 3
  word : Nat
  image : ImageRole
  bits : Nat
deriving DecidableEq, Repr

/-- Event record (Table 1.3). -/
structure Event where
  code : Nat
  inst : Nat
  flags : Nat
  epoch : Nat
  time : Nat
  data : Nat
deriving DecidableEq, Repr

/-! ### The critical image (Table 12.2) and the messages of the peer ring

The manual gives the image no byte layout, so a checkpoint carries its decoded contents beside its bytes
(notes/assumptions/12.md). -/

/-- Arm engine: state, saf_hold, n_prev, dir, carrier grid (origin time, origin reload, reload count, period), reload index, prescaler
counts. -/
structure ArmImage where
  arm : Nat
  state : Nat
  hold : Bool
  nPrev : Int
  dirNeg : Bool
  grid : Option (Nat × Nat × Nat × Nat)
  reload : Option Nat
  counts : List (Nat × Nat)
deriving DecidableEq, Repr

/-- Cell: commanded switch bits and bypass variant. -/
structure CellImage where
  cell : Nat
  bits : Nat
  variant : Nat
deriving DecidableEq, Repr

/-- SST unit: state and tag. -/
structure UnitImage where
  unit : Nat
  state : Nat
  tag : Nat
deriving DecidableEq, Repr

/-- Ramp engine: position, rate, direction, state, target, tag, and the parameters in effect (the ten of R300, then v_start, v_stop,
v_c, dec1 and dec2 of the motion). -/
structure RampImage where
  ramp : Nat
  x : Nat
  v : Nat
  neg : Bool
  state : Nat
  target : Nat
  tag : Nat
  pars : List Nat
deriving DecidableEq, Repr

/-- Reference generator with retain = 1 (R312). -/
structure GenImage where
  gen : Nat
  base : Nat
  at_ : Nat
  f : Nat
  mode : Nat
  prev : Option (Nat × Nat)
deriving DecidableEq, Repr

/-- Drive channel: mode, set in effect and pending set as (period, N, duty, phase), grid origin. -/
structure DrvImage where
  channel : Nat
  mode : Nat
  on : Option (Nat × Nat × Nat × Nat)
  pending : Option (Nat × Nat × Nat × Nat)
  origin : Nat
deriving DecidableEq, Repr

/-- The critical image of one seam. `sigmas` gives the previous shift of each isolation entry, `regs` every ST field in effect,
`sizes` the words of each retained store (R433). DESIGN CHOICE (notes/assumptions/12.md). -/
structure CritImage where
  epoch : Nat
  seam : Nat
  len : Nat
  inc : Nat
  grid : Nat
  claim : Nat
  digest : Nat
  seq : Nat
  arms : List ArmImage
  cells : List CellImage
  units : List UnitImage
  sigmas : List (Nat × Int)
  ramps : List RampImage
  gens : List GenImage
  drive : List DrvImage
  regs : List (Nat × Nat)
  sizes : List (Nat × Nat)
  stores : List (Nat × Pt)
  zdelay : List (Nat × Pt)
  cmp : List (Nat × Bool)
  points : List (Nat × Pt)
deriving DecidableEq, Repr

/-- A mirrored write (R389), a word of the header numbered in the order of Table 12.2 (0 k, 1 S(k), 2 EPO_LEN, 3 I, 4 Z, 5 claim, 6 digest,
7 sequence) among them, and the two records that R390 waits for: the last job of a graph has ended, an arm's decision of
epoch h - 1 is made. -/
inductive MirrorWrite where
  | head (word value : Nat)
  | arm (x : ArmImage)
  | cell (x : CellImage)
  | unit (x : UnitImage)
  | sigma (cell : Nat) (v : Int)
  | ramp (x : RampImage)
  | gen (x : GenImage)
  | drive (x : DrvImage)
  | reg (key value : Nat)
  | store (word : Nat) (p : Pt)
  | zdelay (op : Nat) (p : Pt)
  | cmp (op : Nat) (b : Bool)
  | point (a : Nat) (p : Pt)
  | graphEnded (graph : Nat)
  | armDecided (arm : Nat)
deriving DecidableEq, Repr

/-- The binding record (R380): slot and retired flag of every cell, position count of every partner. -/
structure BindRecord where
  cells : List (Nat × Option Nat × Bool)
  lanes : List (Nat × Nat)
deriving DecidableEq, Repr

/-- A ring message as a port receives it (Table 12.4), with the EOF payloads of its frames (R196). Port 0 is East, 1 West. -/
structure RingMsg where
  port : Fin 2
  eofs : List Nat
  dst : Fin 8
  src : Fin 8
  type : Fin 8
  broadcast : Bool
  role : Fin 4
  term : Nat
  seq : Nat
deriving DecidableEq, Repr

/-- What leaves the device on its pins and links (notes/assumptions/4.md). `line` is one 66-bit block on a lane (R216): its sync header,
its payload, and the payload as scrambled (R217), bit 63 first; `bypass` is a ring signal that the passive bypass joins to the other
port's transmit pins (R397, R461). A frame of the ring is its blocks from SOF to EOF; `checkpoint`, `binding` and `mirror` say beside
them what the blocks hold. -/
inductive Wire where
  | msix (vector : Nat)
  | ethernet (port : Nat) (bytes : List Byte)
  | ppsOut (level : Bool)
  | jtag (code : Nat)
  | line (lane header payload word : Nat)
  | heartbeat (symbol : Nat)
  | ring (payloads : List Nat)
  | forward (port src seq : Nat)
  | bypass (port : Nat) (m : RingMsg)
  | checkpoint (payloads : List Nat) (segment : Nat) (image : CritImage)
  | binding (payloads : List Nat) (record : BindRecord)
  | mirror (payloads : List Nat) (run : Nat) (writes : List MirrorWrite)
  | driveEdge (channel : Nat) (hi lo : Bool) (time : Nat)
  | tripOut (pin : Nat) (level : Bool)
  | sout (output : Nat) (pinA pinB : Bool)
  | stp (output : Nat) (level : Bool)
deriving DecidableEq, Repr

/-- One ASDU of a sampled-value frame (R335 to R337): each value with its quality word. -/
structure SvAsdu where
  smpCnt : Nat
  synch : Nat
  vals : List (Nat × Nat)
deriving DecidableEq, Repr

/-- A sampled-value frame as the ingest reads it (IEC 61850-9-2), with its arrival station time. -/
structure SvFrame where
  dst : Nat
  appid : Nat
  svId : List Nat
  confRev : Nat
  simulate : Bool
  arrival : Nat
  asdus : List SvAsdu
deriving DecidableEq, Repr

end Sys2Proof
end

