-- ==== Sys2Proof/BitStream.lean ====
section
/-! DEFINITION. The decoded contents of a configuration bit-stream (Table 14.3): one structure per table of the owning chapter.
The manual gives the sections no byte layout, so a load carries their contents decoded (notes/assumptions/12.md). Values
that a table gives in SI units stand in the unit of the register or command that carries them. -/

namespace Sys2Proof.Machine

/-- Profile table (Table 14.4). -/
structure Profile where
  sst : Bool
  epoch : Nat
  lead : Nat
  warmLanes : Nat
  coldStart : Nat
  revert : Nat
  listenMs : Nat
  ckptPeriod : Nat
  psPeriod : Nat
  mdPeriod : Nat
  retPeriod : Nat
  coreMode : List Nat
  fabTick : Nat
  rampDiv : Nat
deriving DecidableEq, Repr

/-- Cell table entry (R70, R208, R242): type, C (binary32 F), arm, lane or base lane, slot or serial, temperature limit of
extended point 37 (binary32). An isolation entry of an SST unit has no arm and names its front entry. -/
structure CellEntry where
  cell : Nat
  fb : Bool
  cap : Nat
  arm : Option Nat
  front : Option Nat
  lane : Nat
  slot : Option Nat
  serial : Option Nat
  tempLimit : Option Nat
deriving DecidableEq, Repr

/-- Arm table entry (R70, R120, R136, R146, R205): voltages binary32; dead times in picoseconds (steps of 10 ns), except the margin
(binary32 ns); min_pulse in edge units; `refGraph` writes the reference points; `cap` is absent where the table gives none. -/
structure ArmEntry where
  arm : Nat
  vnom : Nat
  lo : Nat
  hi : Nat
  band : Nat
  cap : Option Nat
  need : Nat
  refPoint : Nat
  outPoint : Nat
  refGraph : Nat
  missLimit : Nat
  faultExcl : Nat
  reactMask : Nat
  minPulse : Nat
  adaptive : Bool
  dtFixed : Nat
  dtMargin : Nat
  dtMin : Nat
  dtMax : Nat
  wdAction : Nat
  wdTimeout : Nat
  carrierGain : Nat
  carrierDmax : Nat
deriving DecidableEq, Repr

/-- How a group of lanes is bonded (R223). -/
inductive Bond where
  | none | redundant | bandwidth
deriving DecidableEq, Repr

/-- Lane table entry (R215, R223), by base lane: p_l, m, guard and longest delay in edge units, preset, bonding. -/
structure LaneEntry where
  lane : Nat
  positions : Nat
  detail : Nat
  guard : Nat
  dmax : Nat
  preset : Nat
  bond : Bond
  width : Nat
deriving DecidableEq, Repr

/-- Unit table entry (Table 7.1); `shiftGraph` is the graph that writes the shift points (R74). -/
structure UnitEntry where
  unit : Nat
  strings : Nat
  isoPeriod : Nat
  isoReloadN : Nat
  isoPhase : List Nat
  lvHi : List Nat
  lvLo : List Nat
  pointBase : Nat
  shiftPoint : Nat
  shiftGraph : Nat
  gain : Nat
  tmax : Nat
  slew : Nat
  minV : Nat
  followBlock : Bool
deriving DecidableEq, Repr

/-- Per-lane equalisation override of the EQ section (R233): preset, override, tx_pre, tx_post, rx_ctle. -/
structure EqEntry where
  lane : Nat
  preset : Nat
  override : Nat
  txPre : Nat
  txPost : Nat
  rxCtle : Nat
deriving DecidableEq, Repr

/-- Drive table entry (R157, R161, R162, R165): source and the points it reads, holder (1 fabric graph, 2 SST unit), dead times in
picoseconds (steps of 1.25 ns), margin in femtoseconds, shortest pulse in edge units. -/
structure DriveEntry where
  channel : Nat
  src : Bool
  holder : Nat
  holderNum : Nat
  setPoint : Nat
  statePoint : Nat
  graph : Nat
  adaptive : Bool
  dead : Nat
  dtMargin : Nat
  dtMin : Nat
  dtMax : Nat
  minPulse : Nat
  refreshEn : Bool
  refreshN : Nat
  refreshWidth : Nat
deriving DecidableEq, Repr

/-! ### Control fabric (Tables 8.1, 8.3, 8.7) -/

inductive LogicFn where
  | and | or | xor | not
deriving DecidableEq, Repr

/-- An operation of Table 8.3 with what the bit-stream gives it. A store is named by its number and the first word used: an
integrator, a filter state or a table. `snkPoint` marks the points written as tagged binary32. -/
inductive OpKind where
  | srcConst (word : Nat)
  | srcPoint (points : List PointKey)
  | srcStream
  | srcQueue
  | snkPoint (points : List (Nat × Bool))
  | snkQueue (queue : Nat)
  | zdelay (init : Nat)
  | add (n : Nat) | sub (n : Nat) | mul (n : Nat) | fma (n : Nat)
  | div | sqrt
  | abs (n : Nat) | neg (n : Nat) | min (n : Nat) | max (n : Nat) | clamp (n : Nat)
  | sincos
  | dot (n : Nat)
  | matvec (rows cols store at_ : Nat)
  | clarke | park
  | pi (kp ki store at_ : Nat)
  | biquad (sections store at_ : Nat)
  | fir (taps store at_ : Nat)
  | integ (k store at_ : Nat)
  | rateLimit (store at_ : Nat)
  | lookup (entries x0 dx store at_ : Nat)
  | cmp (init : Bool)
  | logic (fn : LogicFn) (n : Nat)
  | select
  | cvt (n width frac : Nat) (toFixed : Bool)
  | pack (fields : List (Nat × Nat))
  | unpack (fields : List (Nat × Nat))
  | delay (ticks : Nat)
  | observe (observer count : Nat)
  | alarm (condition : Nat)
  | event (user : Nat)
  | release (graph : Nat)
deriving DecidableEq, Repr

structure OpEntry where
  num : Nat
  kind : OpKind
deriving DecidableEq, Repr

/-- An edge (R263): one output of one operation to one input of another of the same graph. -/
structure EdgeEntry where
  src : Nat
  out : Nat
  dst : Nat
  inp : Nat
deriving DecidableEq, Repr

/-- Release trigger (Table 8.1). -/
inductive Trigger where
  | seam (interval offset : Nat)
  | timer (period : Nat)
  | carrier (arm kind : Nat)
  | drive (channel : Nat) (reload : Bool)
  | stream (stream : Nat)
  | queue (queue : Nat)
  | reaction
  | graph (graph : Nat)
  | host
deriving DecidableEq, Repr

/-- A graph (R259). -/
structure GraphEntry where
  graph : Nat
  rt : Bool
  trigger : Trigger
  deadline : Nat
  engines : List Nat
  enabled : Bool
  flow : Option Nat
  alternate : Option Nat
  ops : List OpEntry
  edges : List EdgeEntry
deriving DecidableEq, Repr

/-- A store (R263, R264): its words at bit-stream start, whether it is retained, and whether a live replacement carries it. -/
structure StoreEntry where
  store : Nat
  init : List Nat
  retained : Bool
  carried : Bool
deriving DecidableEq, Repr

/-- Action of the reaction matrix (Table 8.7). -/
inductive Action where
  | tripOut (pin : Nat)
  | prioBlock (laneSet : Nat)
  | drvBlock (channels : List Nat)
  | armBlock (arms : List Nat)
  | retire
  | safReq (request : Nat)
  | drTrigger
  | release (graph : Nat)
  | event
deriving DecidableEq, Repr

/-- A condition of the reaction section (R285). -/
structure CondEntry where
  cond : Nat
  q : Nat
  edge : Bool
  actions : List Action
deriving DecidableEq, Repr

/-- The fabric graph section and the reaction section. `queues` and `streams` give depths, `carriedOps` the operations whose
ZDELAY or CMP state a live replacement carries (R279). -/
structure Fabric where
  graphs : List GraphEntry
  queues : List (Nat × Nat)
  streams : List (Nat × Nat)
  stores : List StoreEntry
  carriedOps : List Nat
deriving DecidableEq, Repr

/-- The reaction section: conditions, and for each TRIP_OUT pin that it sets whether the pin is latched (R287). -/
structure Reaction where
  conds : List CondEntry
  modes : List (Nat × Bool)
deriving DecidableEq, Repr

/-! ### Orders (chapter on orders, ramps and reference generators) -/

/-- Ramp table entry (R299): initial words of its 16 points and the follow source. -/
structure RampEntry where
  ramp : Nat
  follow : Option Nat
  init : List Nat
deriving DecidableEq, Repr

/-- Generator table entry (R307 to R312): times in edge units, phases in theta units, frequency words Q16.32. -/
structure GenEntry where
  gen : Nat
  mode : Nat
  table : Nat
  la : Nat
  retain : Bool
  ampRamp : Option Nat
  freqPoint : Option Nat
  track : Option Nat
  jumpLimit : Nat
  fMin : Nat
  fMax : Nat
  hold : Nat
  thetaInit : Nat
  init : List Nat
deriving DecidableEq, Repr

/-- Order input entry (R296): ORD_IN_CFG, gain and offset, and whether the resource map gives its pin to another holder. -/
structure InputEntry where
  input : Nat
  mode : Nat
  filt : Nat
  gate : Nat
  src : Nat
  gain : Nat
  offset : Nat
deriving DecidableEq, Repr

/-- The orders section; `shapes` holds the four shape tables. -/
structure Orders where
  ramps : List RampEntry
  gens : List GenEntry
  inputs : List InputEntry
  shapes : List (List Nat)
deriving DecidableEq, Repr

/-! ### Measurement -/

/-- A sequence entry (R322, R323), in the units of ADC_SEQ_ENTRY; `rounds` is r. -/
structure SeqEntry where
  input : Nat
  gain : Nat
  rounds : Nat
  lead : Bool
  trigger : Nat
  pin : Nat
  offset : Nat
deriving DecidableEq, Repr

/-- A converter core's table (R322, R339). -/
structure CoreEntry where
  core : Nat
  regular : List SeqEntry
  injected : List SeqEntry
  trig : Nat
  offset : Nat
  param : Nat
  held : Option Nat
deriving DecidableEq, Repr

/-- A subscription (R335): scale and stream of each channel, timeout in sample periods. -/
structure SvEntry where
  sub : Nat
  ports : Nat
  dst : Nat
  appid : Nat
  svId : List Nat
  confRev : Nat
  asdus : Nat
  rate : Nat
  channels : List (Nat × Option Nat)
  timeout : Nat
  simulate : Bool
  enabled : Bool
  held : Option Nat
deriving DecidableEq, Repr

/-- The measurement section; `inputs` gives gain and offset by input, `signals` the fabric signal point that requests it (R323). -/
structure Meas where
  enable : Bool
  inputs : List (Nat × Nat × Nat)
  signals : List (Nat × Nat)
  cores : List CoreEntry
  subs : List SvEntry
deriving DecidableEq, Repr

/-! ### Ring, safety section, resource map -/

/-- The ring table (R393). -/
structure RingEntry where
  address : Nat
  partner : Nat
  units : Nat
deriving DecidableEq, Repr

/-- An input pair of the safety section (R409 to R413), in the units of SAF_PAIR_CFG; `kind` 0 controlled stop, 1 safe block. -/
structure PairEntry where
  pair : Nat
  mode : Nat
  stpA : Nat
  stpB : Nat
  kind : Nat
  filter : Nat
  disc : Nat
  targets : Nat
deriving DecidableEq, Repr

/-- A privileged channel (R414, R415): limit and tolerance binary32, t_resp in 10 microseconds, gain and offset of each reading. -/
structure PchEntry where
  chan : Nat
  func : Nat
  inA : Nat
  inB : Nat
  vchan : Nat
  dirNeg : Bool
  kind : Nat
  targets : Nat
  limit : Nat
  tol : Nat
  resp : Nat
  gainA : Nat
  offA : Nat
  gainB : Nat
  offB : Nat
deriving DecidableEq, Repr

/-- A stop target (R407): its lanes, t_ramp and t_m in ms, its monitoring channel. -/
structure TgtEntry where
  target : Nat
  lanes : List Nat
  ramp : Nat
  margin : Nat
  mon : Option Nat
deriving DecidableEq, Repr

/-- A safety output (R421). -/
structure SoutEntry where
  out : Nat
  targets : Nat
  standbyOn : Bool
deriving DecidableEq, Repr

/-- The safety section (R405); `reqs` gives targets and kind of each SAF_REQ, `base` the point base of the stop factors (R417). -/
structure Safety where
  digest : Nat
  pairs : List PairEntry
  pchs : List PchEntry
  targets : List TgtEntry
  reqs : List (Nat × Nat × Nat)
  souts : List SoutEntry
  tpWidth : Nat
  tpPeriod : Nat
  expiry : Nat
  degWindow : Nat
  base : Nat
deriving DecidableEq, Repr

/-- Who holds a resource (R431). -/
inductive Holder where
  | graph (g : Nat)
  | unit (u : Nat)
  | safety (c : Nat)
  | host
deriving DecidableEq, Repr

/-- An entry of the resource map: kind in the order of R431 (0 drive channel, 1 ORD_IN pin, 2 TRIP_OUT pin, 3 converter core,
4 subscription, 5 stream, 6 queue, 7 store, 8 observer, 9 host-writable station point), number, holder. -/
structure ResEntry where
  kind : Nat
  num : Nat
  holder : Holder
deriving DecidableEq, Repr

/-- The sections in effect. `groups` are the FABRIC instances (R430) of which `fabric` is the union; `retained` are the station
points marked retained (Table 12.2). DESIGN CHOICE (notes/assumptions/12.md). -/
structure BitStream where
  profile : Profile
  cells : List CellEntry
  arms : List ArmEntry
  units : List UnitEntry
  lanes : List LaneEntry
  eq : List EqEntry
  laneSets : List (Nat × List Nat)
  drive : List DriveEntry
  fabric : Fabric
  reaction : Reaction
  orders : Orders
  meas : Meas
  groups : List (Nat × Fabric)
  ring : Option RingEntry
  safety : Option Safety
  resources : List ResEntry
  retained : List Nat
deriving DecidableEq, Repr

/-- A replaceable section of a package (R440): a FABRIC instance (none removes it), a SHAPE instance, the REACTION section. -/
inductive LrPart where
  | fabric (inst : Nat) (f : Option Fabric)
  | shape (num : Nat) (words : List Nat)
  | reaction (r : Reaction) (laneSets : List (Nat × List Nat))
deriving DecidableEq, Repr

/-- Table 14.4's defaults. -/
def Profile.default : Profile := ⟨false, 800, 2, 1, 0, 1, 100, 50, 10, 50, 10, [1, 1, 1, 1], 40, 0⟩

/-- No bit-stream. -/
def BitStream.empty : BitStream :=
  ⟨Profile.default, [], [], [], [], [], [], [], ⟨[], [], [], [], []⟩, ⟨[], []⟩, ⟨[], [], [], []⟩, ⟨false, [], [], [], []⟩,
   [], none, none, [], []⟩

/-- Command of a cell for one target epoch, as decided (Table 5.4). Edge times are in edge units; a CARRIER holds q, the
reload index, period, phase and the countdown when its reload falls in the target epoch (R192). -/
inductive CellCmd where
  | nop
  | hold
  | set (bits edge : Nat)
  | pair (bits1 edge1 bits2 edge2 : Nat)
  | carrier (q : Int) (reload period phase : Nat) (cd : Option Nat)
  | block (edge : Nat)
  | retire (edge : Nat)
  | test (bits edge duration : Nat)
deriving DecidableEq, Repr

end Sys2Proof.Machine
end

