-- ==== Sys2Proof/Syntax.lean ====
section
/-! DEFINITION. The commands of the block, whole: one constructor per row of spec/opcode_table.json. The table gives no row
an operand, so the operands are what the command's sender supplies (notes/assumptions/11.md): a host access its address
and data, a unit its number, a link the frame it carried, a measurement its value. -/

namespace Sys2Proof

/-- A host write that may be staged (R29): a register, or a run of points with its BAR0 address, its length in bytes and
whether every byte enable is set. -/
inductive StagedWrite where
  | register (addr value : Nat)
  | points (addr len : Nat) (allEnabled : Bool) (vals : List Nat)
deriving DecidableEq, Repr

/-- The register of the event ring's descriptor that is written (R483). -/
inductive RingRegister where
  | baseLo | baseHi | size
deriving DecidableEq, Repr

/-- What an Ethernet port reports about its link (R367, Table 11.4); `headers`: invalid sync headers that its PCS has met (R369). -/
inductive EthLink where
  | lockLost | remoteFault | up | headers (n : Nat)
deriving DecidableEq, Repr

/-- The cause of a link loss (Table 16.4). -/
inductive LinkCause where
  | linkDown | hotReset | linkDisable | flr
deriving DecidableEq, Repr

/-- What triggers a regular sequence (R322): the end of the previous run, a seam, a delivered carrier instant (ZERO, PERIOD, CMP0, CMP1),
the period start of a drive channel, ADC_CORE_CTRL.reg_go. -/
inductive RegSource where
  | continuous
  | seam
  | carrier (arm : Fin 12) (kind : Fin 4)
  | drive (channel : Fin 24)
  | host
deriving DecidableEq, Repr

/-- What triggers an injected entry (R323): a seam, a rising edge of TRIP_IN[pin], the commit of a job, ADC_INJ_SW. -/
inductive InjSource where
  | seam
  | tripIn (pin : Fin 8)
  | fabric
  | host
deriving DecidableEq, Repr

/-- The commands: one constructor per row of spec/opcode_table.json. PRESUMED (notes/assumptions/11.md). -/
inductive Instr where
  /-- SEAM (R37). At each epoch boundary the device commits due fences, publishes P(k) and begins epoch k. `errs`: words that
  it reads with wrong bits (R58). -/
  | seam (errs : List BadWord)
  /-- FENCE_NAMED (R34). A fence command in mode 0 is checked against Table 1.1 and, if accepted, closes the open generation for the named
  target epoch. -/
  | fenceNamed
  /-- FENCE_NEXT (R36). A fence command in mode 1 is checked and, if accepted, takes as its target the first seam that meets the commit lead
  and ordering conditions. -/
  | fenceNext
  /-- STAGED_WRITE (R29). A host write to an ST field or a host-writable station point enters the staging area, or is discarded. -/
  | stagedWrite (w : StagedWrite)
  /-- STAGE_DISCARD (R32). Writing EPO_CTRL.stage_discard discards the open generation and clears overflow. -/
  | stageDiscard
  /-- STAT_RESET (R50). Writing EPO_CTRL.stat_reset clears the statistics points of every cell at the next seam. -/
  | statReset
  /-- PIN (R25). Writing EPO_PIN_CTRL.pin pins the currently published image; if a pin already holds, the write is refused, and a combined
  pin and release moves the pin. -/
  | pin (release : Bool)
  /-- PIN_RELEASE (R27). Writing EPO_PIN_CTRL.release releases the pin. -/
  | pinRelease
  /-- PIN_EXPIRED (R27). After hold + 1 seams, the pin is released at the seam and event 0x014 is raised. -/
  | pinExpired
  /-- POINT_WINDOW_READ (R477). A host read of a point window is served from the published or pinned image. -/
  | pointWindowRead (req addr len : Nat) (errs : List (Nat × Nat)) (copy : Fin 3)
  /-- BENCH_LOADED (R54). A non-resident bench finishes paging into a frame, and the waiting accesses complete. `errs`: (offset, wrong bits)
  of the words that the memory die delivers with errors. -/
  | benchLoaded (bench : Fin 192) (errs : List (Nat × Nat))
  /-- EXTENDED_POINT_WRITE (R51). A host write to a writable extended point takes effect directly, outside any fence. -/
  | extendedPointWrite (addr len : Nat) (allEnabled : Bool) (vals : List Nat)
  /-- RING_WRITE (R43). When the host ring has a free slot, the device writes the next buffered record and advances EPO_EVQ_HEAD. `persist`:
  the record's condition is still present; `errs`: words of it that are read with wrong bits (R58). -/
  | ringWrite (persist : Bool) (errs : List BadWord)
  /-- EVQ_TAIL_WRITE (R483). A host write of EPO_EVQ_TAIL is accepted only if the new tail lies between the old tail and the head. -/
  | evqTailWrite (value : Nat)
  /-- EVQ_CONFIG_WRITE (R483). A write of the ring base or size resets head and tail, and is discarded while ev_enable is 1. -/
  | evqConfigWrite (which : RingRegister) (value : Nat)
  /-- ROLLUP_FOLD (R56). Every 8 µs, the roll-up folds one bench of accumulators into its extended points. `errs`: (offset, wrong bits) of
  the words of the bench that it reads with errors. -/
  | rollupFold (errs : List (Nat × Nat))
  /-- SCRUB (R59). The scrubber reads and corrects the words of each memory within its configured period. -/
  | scrub (memory : Fin 3) (word : Nat) (image : ImageRole) (errors : Nat)
  /-- ECC_CORRECTED (R62). At a second boundary, the corrected-error count of that second is compared with the threshold and event 0x020 is
  raised if it is reached. -/
  | eccCorrected
  /-- UE_ADDR_READ (R68). A read of EPO_UE_ADDR returns the latched address and resets both fields to 'none latched'. -/
  | ueAddrRead (req : Nat)
  /-- RC_READ (R14). A read of an RC field returns its value and clears it, without losing a concurrent increment. -/
  | rcRead (req addr len increments : Nat)
  /-- REGISTER_WRITE (R12). A host write to a register field with no behaviour of its own acts according to the field's access code; an
  illegal access is refused. -/
  | registerWrite (addr len byteEnables value setByHardware : Nat)
  /-- DR_ARM (R64). An arm command starts the disturbance recorder filling its buffer, or is refused. -/
  | drArm
  /-- DR_TRIGGER (R65). A recorder trigger starts the post-trigger count and raises event 0x030; later triggers only count. -/
  | drTrigger
  /-- DR_DMA_START (R66). Writing dma_start begins copying a frozen record to host memory. -/
  | drDmaStart
  /-- DR_TRANSFERRED (R66). The record copy completes and event 0x031 is raised. `errs`: (offset, wrong bits) of the words of the buffer
  that it reads with errors. -/
  | drTransferred (errs : List (Nat × Nat))
  /-- ARM_DECISION (R74). At the reference graph deadline, the arm engine takes v0 and v1 and decides the steps for target epoch k + lead.
  `errs`: words that it reads with wrong bits (R58). -/
  | armDecision (arm : Fin 12) (errs : List BadWord)
  /-- RETIRE_GO (R100). Writing ARM_RETIRE.go queues a host retirement, or refuses it with event 0x108. -/
  | retireGo (arm : Fin 12) (value : Nat)
  /-- CARRIER_INSTANT (R91). A reference-carrier ZERO, PERIOD, CMP0 or CMP1 instant is delivered through its prescaler as a release and an
  event. -/
  | carrierInstant (arm : Fin 12) (kind : Fin 4)
  /-- DOWNLINK_FRAME (R178). Once the builder holds the commands for a target epoch, the lane sends the downlink frame. `tb`: station time
  of the first bit of the BEACON; `inserted`, `idle`: blocks that the lane sent in between (PRIO words, IDLE rows); `extra`: commands of the
  TEST and PAIR sources. -/
  | downlinkFrame (lane : Fin 96) (tb inserted idle : Nat) (extra : List (Nat × Machine.CellCmd))
  /-- UPLINK_FRAME (R188). A received uplink frame is validated and its reports enter the working image, or the frame is discarded. `rows`:
  the (sync header, payload) blocks by member. -/
  | uplinkFrame (lane : Fin 96) (rows : List (List (Nat × Nat))) (te tz : Nat)
  /-- IDENT_REQUEST (R208). Writing LANE_CTRL.ident requests identity blocks for the next 16 frames. -/
  | identRequest (lane : Fin 96)
  /-- LOCK_GAINED (R218). A receiver that sees 64 valid headers and then a valid ALIGN gains block lock, and event 0x201 is raised. `valid`:
  valid headers seen in a row; `align`: the ALIGN payload after them. -/
  | lockGained (lane : Fin 96) (valid align : Nat)
  /-- LOCK_LOST (R218). Sixteen invalid headers within 64 blocks lose lock, the loss is counted, and event 0x200 is raised. -/
  | lockLost (lane : Fin 96) (headers : Nat)
  /-- RELOCK (R218). Writing LANE_CTRL.relock forces a loss of lock with cause 1. -/
  | relock (lane : Fin 96)
  /-- RX_DISABLE (R218). Clearing rx_en on a locked lane stops the receiver and loses lock with cause 1. -/
  | rxDisable (lane : Fin 96)
  /-- ALIGN_SEND (R226). At each marker, the transmitter forms its active set and sends the ALIGN row. -/
  | alignSend (lane : Fin 96)
  /-- ALIGN_RECEIVED (R222). A received ALIGN block is checked for BIP-8, deskew and masks, and updates the group state. `between`: the
  payloads received on the lane since the last ALIGN; `skew`: blocks between the earliest and the latest member. -/
  | alignReceived (lane : Fin 96) (payload : Nat) (between : List Nat) (skew : Nat)
  /-- EQ_WRITE (R234). A LANE_EQ write applies new equalisation values, or is discarded if out of range. -/
  | eqWrite (lane : Fin 96) (value : Nat)
  /-- EYE_SCAN_START (R236). Writing LANE_EYE_CTRL.start begins an eye scan. -/
  | eyeScanStart (lane : Fin 96) (value : Nat)
  /-- EYE_DONE (R236). An eye scan ends with its error count, and event 0x209 is raised. -/
  | eyeDone (lane : Fin 96) (errors : Nat)
  /-- SST_SHIFT_DECISION (R248). At the shift graph deadline, the device computes each isolation entry's shift for the next reload. -/
  | sstShiftDecision (unit : Fin 4)
  /-- DRV_COMMIT (R155). A DRV_SET commit write checks the shadow set and makes it pending as ACCEPTED or DEFERRED, or refuses it. -/
  | drvCommit (channel : Fin 24) (phase : Nat)
  /-- DRV_RELOAD (R155). At a drive channel reload, the pending set is applied. -/
  | drvReload (channel : Fin 24)
  /-- DRV_PERIOD_START (R158). A carrier period of a drive channel begins, places its edges, applies refresh and delivers triggers. -/
  | drvPeriodStart (channel : Fin 24) (fltLow : Bool)
  /-- DRV_MODE_WRITE (R157). A write of DRV_CTRL.mode changes the channel mode at the next reload or seam, or is refused. -/
  | drvModeWrite (channel : Fin 24) (mode : Fin 4)
  /-- DRV_STATIC_WRITE (R163). A write of the static state in mode 3 takes effect at the next seam, or is refused by the interlock. -/
  | drvStaticWrite (channel : Fin 24) (hi lo : Bool)
  /-- DRV_TIMED_STATE (R162). In mode 2, at the graph deadline, the channel reads its station point and schedules the requested state. -/
  | drvTimedState (channel : Fin 24)
  /-- DRV_TIMED_EDGE (R162). The scheduled mode-2 state is applied at S(k + lead) + τ, with dead time and the drop check. -/
  | drvTimedEdge (channel : Fin 24) (fltLow : Bool)
  /-- DRV_CALIBRATE (R166). Every 2 µs, the calibrator measures one output line and installs its new tap table. -/
  | drvCalibrate (taps : Nat)
  /-- NODE_DELAY_MEASURE (R168). A DRV_NODE transition after a turn-off gives a node-delay measurement for adaptive dead time. -/
  | nodeDelayMeasure (channel : Fin 24) (rising : Bool) (delay : Nat)
  /-- GATE_FAULT (R169). DRV_FLT_N held low for 40 ns sets flt, and event 0xA02 is raised. -/
  | gateFault (channel : Fin 24)
  /-- GATE_FAULT_REPEAT (R169). Every 1 ms while DRV_FLT_N stays low, event 0xA02 is repeated with PERSIST. -/
  | gateFaultRepeat (channel : Fin 24)
  /-- BOOTSTRAP_UV (R170). DRV_BSUV_N held low for 40 ns sets bsuv, and event 0xA03 is raised. -/
  | bootstrapUv (channel : Fin 24)
  /-- HOST_RELEASE (R510). Writing FAB_GRAPH_CTRL.release releases a HOST-trigger graph, or is counted as a dropped release. -/
  | hostRelease
  /-- FAB_TICK (R272). At a tick boundary, due TIMER releases and DELAY items leave the delay lists. -/
  | fabTick
  /-- OP_DISPATCH (R269). A ready operation is dispatched to an engine slot, taking its inputs and reserving its outputs. -/
  | opDispatch
  /-- OP_COMPLETE (R268). An operation ends its service cycles, making its successors ready. `errs`: (index, wrong bits) of the words that
  it reads with errors; `copy`: the physical copy read. -/
  | opComplete (engine : Fin 64) (errs : List (Nat × Nat)) (copy : Fin 3)
  /-- JOB_COMMIT (R277). In the cycle after its last operation ends, a job commits all its point, store, queue and release effects together.
  -/
  | jobCommit (graph : Fin 128)
  /-- QUEUE_SPACE_RELEASE (R274). A release waiting for queue space proceeds once every named queue has a free entry. -/
  | queueSpaceRelease (graph : Fin 128)
  /-- DEADLINE_MISS (R277). At its deadline, an uncommitted job is cancelled, commits nothing, and raises event 0x300. -/
  | deadlineMiss (graph : Fin 128)
  /-- CONDITION_QUALIFIED (R285). A reaction condition that stays true for q + 1 cycles qualifies and carries out its wired actions.
  `conds`: all that qualify in one core cycle (R286). -/
  | conditionQualified (conds : List (Fin 1024))
  /-- CONDITION_UNQUALIFIED (R287). When a condition stops being qualified, a following TRIP_OUT deasserts and level actions stop. -/
  | conditionUnqualified (cond : Fin 1024)
  /-- TRIP_OUT_CLEAR (R287). Writing 1 to FAB_TRIP_OUT.latched clears a latched pin, or the clear is refused with event 0x30C. -/
  | tripOutClear (pin : Fin 8)
  /-- PRIO_BLOCK_CLEAR (R287). Writing 1 to FAB_PRIO_STAT.blocked clears a lane set's block, or the clear is refused. -/
  | prioBlockClear (set : Fin 16)
  /-- HOST_CONDITION (R290). A write of FAB_HOST_COND makes a host condition true for one cycle. -/
  | hostCondition (number : Fin 8)
  /-- RAMP_TICK (R303). At each ramp tick, every ramp engine advances its position and rate. -/
  | rampTick
  /-- RAMP_HALT_REQUEST (R302). Writing ORD_RAMP_HALT requests a HALT of an engine at the next seam, outside any fence. -/
  | rampHaltRequest (engines : Nat)
  /-- ORD_IN_EDGE (R297). A filtered edge on ORD_IN is accepted and time-stamped, clearing any loss. -/
  | ordInEdge (input : Fin 8) (rising : Bool)
  /-- INPUT_LOSS (R297). With no rising edge for 16 × G, the input enters loss and event 0xB20 is raised. -/
  | inputLoss (input : Fin 8)
  /-- ORD_IN_CFG_WRITE (R315). An ORD_IN_CFG write takes effect at the next seam, or is refused. -/
  | ordInCfgWrite (input : Fin 8) (value : Nat)
  /-- GEN_HOLDOVER (R311). With no new sample within t_hold, the generator enters holdover and event 0xB11 is raised. -/
  | genHoldover (generator : Fin 16)
  /-- TABLE_DATA_WRITE (R309). An ORD_TBL_DATA access writes a shadow table entry and advances the index. -/
  | tableDataWrite (write : Bool) (req value : Nat)
  /-- REG_TRIGGER (R322). A regular-sequence trigger starts a run, or is ignored as an overrun. `source`: what triggers it. -/
  | regTrigger (core : Fin 4) (source : RegSource)
  /-- INJ_REQUEST (R323). An injected trigger queues a request for its entry, or the request is dropped and spoiled. `source`: what triggers
  it. -/
  | injRequest (core : Fin 4) (entry : Fin 4) (source : InjSource)
  /-- INJ_SERVICE (R324). At a round boundary, the core starts serving the oldest injected request. -/
  | injService (core : Fin 4)
  /-- ADC_SAMPLE (R318). A core forms a sample from its rounds and writes it to its points and stream. -/
  | adcSample (core : Fin 4) (codes : List Nat)
  /-- CONVERSION_COMPARE (R328). Each conversion updates the input's window comparator conditions. In mode 2 the conversion is formed from
  the 16 modulator `bits`, oldest first (R332). -/
  | conversionCompare (input : Fin 32) (code : Nat) (bits : List Bool)
  /-- DS_SAMPLE (R331). In delta-sigma mode, the decimator delivers a 24-bit output sample. -/
  | dsSample (core : Fin 4) (bits : List Bool)
  /-- CAL_VALID (R319). Background correction of a core becomes valid, and event 0x404 is raised. -/
  | calValid (core : Fin 4) (offsetRes gainRes skewRes : Nat)
  /-- SYSCAL_STEP (R334). Writing ADC_SYSCAL_CTRL.start begins a calibration step, or is refused. -/
  | syscalStep
  /-- SYSCAL_DONE (R334). A calibration step completes its averaging, and the gain and offset are computed. -/
  | syscalDone
  /-- SV_FRAME (R336). A sampled-value frame is matched and its ASDUs update the subscription points and streams. -/
  | svFrame (port : Fin 2) (frame : SvFrame)
  /-- SV_TIMEOUT (R337). With no ASDU within t_sv, the subscription is marked timed out and event 0x410 is raised. -/
  | svTimeout (sub : Fin 16)
  /-- RATE_WRITE (R346). A TIM_INC_HI write applies the new increment and re-bases the offset. -/
  | rateWrite (value : Nat)
  /-- REF_FALLBACK (R454). REFCLK absent for 160 ns switches the always-on clock to the internal oscillator, and event 0x509 is raised. -/
  | refFallback
  /-- REF_RESTORED (R454). After REFCLK has been present for 1 ms, the always-on clock returns to it. -/
  | refRestored
  /-- DELAY_ACCEPT (R356). Writing LANE_DELAY.accept in HELD adopts the measured round trip and resumes TRACKING. -/
  | delayAccept (lane : Fin 96)
  /-- LANE_REACQUIRE (R354). Writing TIM_LANE_CTRL.reacquire returns the lane's delay tracker to ACQUIRING. -/
  | laneReacquire
  /-- ETH_RX_FRAME (R359). A received Ethernet frame is stamped, filtered and written to the receive ring, or dropped. -/
  | ethRxFrame (port : Fin 2) (bytes : List (BitVec 8)) (fcsOk : Bool) (phi : Fin 32) (buffer : Nat)
  /-- ETH_TX_FRAME (R359). A posted transmit descriptor's frame is sent, stamped and written back. -/
  | ethTxFrame (port : Fin 2) (bytes : List (BitVec 8)) (stampRequested : Bool) (phi : Fin 32) (dmaError : Fin 4)
  /-- MPD_ACCEPT (R360). Writing ETH_MPD_CTRL.accept adopts the last m and ends HELD. -/
  | mpdAccept (port : Fin 2)
  /-- ETH_LINK_CHANGE (R369). An Ethernet port losing or regaining link raises event 0x510 or 0x511. -/
  | ethLinkChange (port : Fin 2) (change : EthLink)
  /-- PPS_IN_EDGE (R361). A PPS_IN edge of the selected polarity is stamped and its error against the second boundary recorded.
  `rising`: the edge's polarity; `phi`: the phase of its sample. -/
  | ppsInEdge (rising : Bool) (phi : Fin 32)
  /-- PPS_IN_MISSING (R361). No PPS_IN edge within 1.1 s is counted, and event 0x504 is raised. -/
  | ppsInMissing
  /-- PPS_OUT_PULSE (R362). At each second boundary, PPS_OUT rises unless it is gated or still high. -/
  | ppsOutPulse
  /-- PPS_OUT_END (R362). After its width, the PPS_OUT pulse ends. -/
  | ppsOutEnd
  /-- QUAL_FREE_RUN (R364). TIM_QUAL_CMD FREE_RUN sets the time quality, or is refused while SUSPECT. -/
  | qualFreeRun
  /-- QUAL_LOCKED (R364). TIM_QUAL_CMD LOCKED sets the time quality, or is refused while SUSPECT. -/
  | qualLocked
  /-- QUAL_HOLDOVER (R364). TIM_QUAL_CMD HOLDOVER sets the time quality, or is refused while SUSPECT. -/
  | qualHoldover
  /-- QUAL_CLEAR (R364). TIM_QUAL_CMD CLEAR moves SUSPECT to HOLDOVER unless a port is HELD. -/
  | qualClear
  /-- HOLDOVER_WATCH (R364). A LOCKED quality without a correction for the watch time becomes HOLDOVER. -/
  | holdoverWatch
  /-- TIM_SNAP (R366). Writing TIM_SNAP_CTRL.snap latches the counter and station time from one cycle. -/
  | timSnap
  /-- ALARM_ARM (R366). Writing TIM_ALARM_CTRL.arm arms the time alarm. -/
  | alarmArm
  /-- ALARM (R366). When station time reaches the alarm, event 0x508 is raised and a HOST release is delivered. -/
  | alarm
  /-- HEARTBEAT_SEND (R374). Every 1 µs of station time, the unit sends a heartbeat symbol on HB_TX. -/
  | heartbeatSend
  /-- HEARTBEAT_SYMBOL (R376). A valid partner line symbol refreshes the line path and updates the partner's state. -/
  | heartbeatSymbol (symbol : BitVec 32)
  /-- HB_PATH_LOST (R376). A heartbeat path without a valid symbol or message for hb_timeout is lost, and event 0x601 is raised. -/
  | hbPathLost (path : Fin 2)
  /-- LISTEN_END (R372). At the end of LISTEN, the unit becomes ACTIVE, STANDBY or NO_IMAGE. -/
  | listenEnd
  /-- RING_HEARTBEAT (R375). A received ring HEARTBEAT refreshes the ring path and the partner's state. -/
  | ringHeartbeat (m : RingMsg) (code rank : Fin 16) (claim : BitVec 32) (epoch ckptSeq : Nat)
  /-- CKPT_SEGMENT (R379). A received checkpoint segment fills a slot; the slot is validated once all 16 segments have arrived. -/
  | ckptSegment (m : RingMsg) (seq : Nat) (segment : Fin 16) (bytes : List (BitVec 8)) (crc : BitVec 64) (image : CritImage)
  /-- SLOW_BENCH (R380). A received slow-checkpoint bench is stored in the retention store. -/
  | slowBench (m : RingMsg) (bench : Fin 80) (sweep : Nat) (words : List Pt)
  /-- BIND_SEGMENT (R380). A received binding record segment is stored. -/
  | bindSegment (m : RingMsg) (record : BindRecord)
  /-- MIRROR_RUN (R389). A received mirror run is applied to the incoming unit's image. -/
  | mirrorRun (m : RingMsg) (run : Nat) (writes : List MirrorWrite)
  /-- HANDOVER_REQUEST (R389). On a HANDOVER REQUEST, the active starts a checkpoint and begins mirroring. -/
  | handoverRequest (m : RingMsg)
  /-- HANDOVER_READY (R389). On READY, the active sends GRANT naming h at its next seam. -/
  | handoverReady (m : RingMsg)
  /-- HANDOVER_GRANT (R390). On GRANT, the incoming unit prepares to become ACTIVE at S(h). -/
  | handoverGrant (m : RingMsg) (h : Nat)
  /-- HANDOVER_ABORT (R392). On ABORT before S(h − 1), the handover ends and both units raise event 0x60B. -/
  | handoverAbort (m : RingMsg) (reason : Fin 16)
  /-- SLOW_CHECKPOINT_SEND (R380). Every 12.5 ms, the active sends one bench of the slow checkpoint. `errs`: words that are read with wrong
  bits (R58). -/
  | slowCheckpointSend (errs : List BadWord)
  /-- TAKEOVER_WAKE_DONE (R383). The waking standby's domains reach ON, and the restore of the newest slot begins. -/
  | takeoverWakeDone
  /-- TAKEOVER_RESTORE_DONE (R383). The restore completes; the binding record is loaded and the new claim taken. `errs`:
  words of the retention store that are read with wrong bits (R58). -/
  | takeoverRestoreDone (errs : List BadWord)
  /-- REVERT_REQUESTED (R388). A rank-2 standby that has been healthy for holdoff seconds sends a HANDOVER REQUEST. -/
  | revertRequested
  /-- RED_CMD_STANDBY (R387). RED_CMD STANDBY moves a DEMOTED unit to STANDBY. -/
  | redCmdStandby
  /-- RED_CMD_ACTIVATE (R386). RED_CMD ACTIVATE makes a NO_IMAGE unit take over from the initial state. -/
  | redCmdActivate
  /-- RED_CMD_HANDOVER (R388). RED_CMD HANDOVER on the active unit sends a handover request on the standby's behalf. -/
  | redCmdHandover
  /-- RED_CMD_ABORT (R392). RED_CMD ABORT ends a handover in progress. -/
  | redCmdAbort
  /-- RING_PORT (R393). A ring port's group going up or down raises event 0x60C. -/
  | ringPort (port : Fin 2) (up : Bool) (seen : Fin 8)
  /-- PAIR_DEMAND (R410). A safety input channel at its demand level for t_f makes its pair demand. -/
  | pairDemand (pair : Fin 8) (channel : Fin 2)
  /-- PAIR_DISCREPANCY (R410). Channels of a pair that differ for t_disc set the discrepancy flag, and event 0x702 is raised. -/
  | pairDiscrepancy (pair : Fin 8) (a b : Bool)
  /-- TEST_PULSE (R411). Once per test period, an STP output drives its test pulse and is read back. -/
  | testPulse (stp : Fin 4) (agrees : Bool)
  /-- TEST_FAILED (R413). At the end of a pulse, a channel that did not go low fails its test, and degraded mode starts. -/
  | testFailed (pair : Fin 8) (channel : Fin 2)
  /-- LIMIT_VIOLATION (R414). A privileged channel violation that persists for t_resp acts on its targets as a stop or a block. -/
  | limitViolation (channel : Fin 4)
  /-- MEAS_DISCREPANCY (R415). Privileged readings that differ for t_resp, or a stale reading, start degraded mode. -/
  | measDiscrepancy (channel : Fin 4) (staleA staleB : Bool)
  /-- ENVELOPE_VIOLATION (R417). A monitored value above its envelope for t_resp turns the stop into a safe block. -/
  | envelopeViolation (target : Fin 16)
  /-- STOP_TIMEOUT (R417). At t_r + t_ramp + t_m, the SAF domain applies the safe block. -/
  | stopTimeout (target : Fin 16)
  /-- SAF_UNLOCK (R419). Writing 0x5AFE to SAF_UNLOCK opens RELEASE and CLEAR for 1 ms. -/
  | safUnlock (key : Nat)
  /-- UNLOCK_EXPIRED (R419). An unused unlock closes after 1 ms. -/
  | unlockExpired
  /-- SAF_CMD_STOP (R416). SAF_CMD STOP requests a controlled stop of the targets in the mask. -/
  | safCmdStop (targets : Nat)
  /-- SAF_CMD_BLOCK (R416). SAF_CMD BLOCK requests a safe block of the targets in the mask. -/
  | safCmdBlock (targets : Nat)
  /-- SAF_CMD_RELEASE (R419). SAF_CMD RELEASE releases each eligible target in the mask, or refuses. -/
  | safCmdRelease (targets : Nat)
  /-- SAF_CMD_CLEAR (R424). SAF_CMD CLEAR ends degraded mode if no cause remains, or is refused. -/
  | safCmdClear (targets : Nat)
  /-- SAF_CMD_TEST_NOW (R413). SAF_CMD TEST_NOW starts one staggered pulse on every STP output. -/
  | safCmdTestNow
  /-- SOUT_TEST (R422). Once per test period, each pin of an on SOUT output is switched low for 200 µs and read back. -/
  | soutTest (output : Fin 4) (agrees : Bool)
  /-- SOUT_READBACK (R422). A SOUT pin that disagrees with its command for 50 µs sets its readback bit and starts degraded mode. -/
  | soutReadback (output : Fin 4) (channel : Fin 2)
  /-- EXPIRED (R424). When the degraded window runs out, the state becomes EXPIRED and the expiry action is carried out. -/
  | expired
  /-- SAF_CLOCK_WINDOW (R403). At the end of each 10 µs window, the SAF domain checks the core cycle count for a clock fault. -/
  | safClockWindow (count : Nat)
  /-- SELF_CHECK (R402). Once per millisecond, each SAF channel runs its self-check; an internal discrepancy starts degraded mode or expiry.
  -/
  | selfCheck (a b agree : Bool)
  /-- LOAD (R437). CFG_CMD LOAD starts a complete load from the selected image, or is refused. -/
  | load
  /-- LOAD_COMPLETE (R438). A complete load finishes its checks, and the bit-stream either starts or the load fails. -/
  | loadComplete (a b : Machine.BitStream)
  /-- VERIFY (R439). CFG_CMD VERIFY starts checking an image without loading it. -/
  | verify
  /-- VERIFY_COMPLETE (R439). A verify finishes and reports as a load would, with bit 63 set. -/
  | verifyComplete (a b : Machine.BitStream)
  /-- LR_STAGE (R441). CFG_CMD LR_STAGE starts reading and checking a replacement package, or is refused. -/
  | lrStage
  /-- LR_STAGE_COMPLETE (R441). Package checking ends with the package STAGED or FAILED. -/
  | lrStageComplete (parts : List Machine.LrPart)
  /-- LR_ARM (R442). CFG_CMD LR_ARM arms a staged package for a target epoch, or is refused. -/
  | lrArm
  /-- LR_CANCEL (R442). CFG_CMD LR_CANCEL returns an armed package to STAGED if it arrives before S(target − 1). -/
  | lrCancel
  /-- LR_DISCARD (R442). CFG_CMD LR_DISCARD drops a staged or failed package. -/
  | lrDiscard
  /-- KEY_PROGRAM (R434). Writing CFG_KEY_CTRL.program programs a key slot, or is refused. -/
  | keyProgram (slot : Fin 8)
  /-- KEY_REVOKE (R434). Writing CFG_KEY_CTRL.revoke revokes a key slot, or is refused. -/
  | keyRevoke (slot : Fin 8)
  /-- KEY_DATA_WRITE (R434). A CFG_KEY_DATA write enters the next hash word. -/
  | keyDataWrite (value : Nat)
  /-- FLASH_READ_PAGE (R436). CFG_FLASH_CMD read page loads a flash page into the page buffer. -/
  | flashReadPage
  /-- FLASH_PROGRAM_PAGE (R436). CFG_FLASH_CMD program page writes the page buffer to flash, or is refused. -/
  | flashProgramPage
  /-- FLASH_ERASE_SECTOR (R436). CFG_FLASH_CMD erase erases a 4 KiB sector, or is refused. -/
  | flashEraseSector
  /-- FLASH_COMMAND_DONE (R436). A flash command completes with DONE or DEVICE_ERROR. -/
  | flashCommandDone (ok : Bool)
  /-- FLASH_DATA_ACCESS (R446). A CFG_FLASH_DATA access moves a page buffer word and advances CFG_FLASH_ADDR by 4. -/
  | flashDataAccess (write : Bool) (req value : Nat)
  /-- DOMAIN_REQUEST (R450). A PWR_DOM_REQ write requests RETAIN or ON for a domain, or is refused. -/
  | domainRequest (value : Nat)
  /-- DOMAIN_WAKE_DONE (R453). A waking domain reaches ON. -/
  | domainWakeDone (domain : Fin 12)
  /-- DOMAIN_FAULT (R452). A domain that does not reach ON within 100 µs returns to its previous state, and event 0x902 is raised. -/
  | domainFault (domain : Fin 12)
  /-- PLL_UNLOCK (R455). A PLL that loses lock sets pll_unlock, and event 0x903 is raised. -/
  | pllUnlock (pll : Fin 26)
  /-- TEMP_HIGH (R457). The die temperature rising above the high limit raises event 0x906. -/
  | tempHigh (tj : Nat)
  /-- TEMP_NORMAL (R457). The die temperature falling below the low limit raises event 0x907. -/
  | tempNormal (tj : Nat)
  /-- RET_REFRESH (R456). The AON domain refreshes the retention rows once per refresh period, and reports a late refresh. -/
  | retRefresh (tj : Nat) (late : Bool)
  /-- POWER_ON_RESET (R458). Once every supply has been in range for 2 ms, the power-on reset releases AON. -/
  | powerOnReset
  /-- BROWNOUT (R460). VDD_CORE below its range for 1 µs resets the device with cause BROWNOUT. -/
  | brownout
  /-- RST_N_ASSERT (R462). A recognised low on RST_N turns off every domain except AON and RET. -/
  | rstNAssert
  /-- RESET_HOLD_200MS (R463). After RST_N has been held low for 200 ms, the heartbeat code changes to HELD_IN_RESET. -/
  | resetHold200ms
  /-- RESET_RELEASED (R465). At reset release, the device latches the cause, samples ROLE_SEL and runs the boot sequence. -/
  | resetReleased (straps : Fin 4)
  /-- PWR_CMD_RESET (R464). PWR_CMD RESET with the key has the effect of an RST_N pulse, with cause SOFTWARE. -/
  | pwrCmdReset (key : BitVec 8)
  /-- PWR_CMD_DORMANT (R466). PWR_CMD DORMANT with the key turns off every domain except AON and RET, or is refused. -/
  | pwrCmdDormant (key : BitVec 8)
  /-- DORMANT_WAKE (R467). An enabled wake source ends DORMANT, and the device boots with cause DORMANT_WAKE. -/
  | dormantWake (source : Fin 3)
  /-- RET_OFF (R448). A PWR_RET_CTRL.off write turns RET off for a single unit, or is refused. -/
  | retOff (off : Bool)
  /-- LINK_DOWN (R472). FLR, hot reset, link disable or link down resets only the host interface and stops device-initiated transfers. -/
  | linkDown (cause : LinkCause)
  /-- LINK_UP (R472). The PCIe link returning raises event 0x001. -/
  | linkUp (speed : Fin 5) (width : Fin 5)
  /-- MASTER_OFF (R473). A change of Bus Master Enable holds or resumes device requests. -/
  | masterOff (off : Bool)
  /-- POWER_STATE (R473). A change between D0 and D3hot changes how memory requests are answered. -/
  | powerState (d3 : Bool)
  /-- VECTOR0_TIMEOUT (R482). When the oldest unsignalled record has waited GLB_EVQ_MOD.time, vector 0 is sent. -/
  | vector0Timeout
  /-- MSIX_UNMASK (R479). Unmasking a vector with its pending bit set sends the message. -/
  | msixUnmask (vector : Fin 64)
  /-- IRQ_TEST (R480). A GLB_IRQ_TEST write sends the named vector's message, subject to enable and mask. -/
  | irqTest (vector : Fin 64)
  /-- PAIR_DEMAND_END (R410). When both channels of a demanding pair have shown no demand together for t_f, the pair ends its demand, so
  that its targets can be released. -/
  | pairDemandEnd (pair : Fin 8)
  /-- SUPPLY_OUT_OF_RANGE (R460). A supply other than a VDD_CORE brownout leaves its range: its dropped bit is set, and for VDD_AON the
  power-on reset acts and the time base restarts from 0. -/
  | supplyOutOfRange (supply : Fin 8)
  /-- CHECKPOINT_SENT (R378). The active unit finishes sending the 16 segments of a checkpoint, counts it and clears tx_busy, so that a
  checkpoint held back can start at the next seam. -/
  | checkpointSent
  /-- LATCHING_READ (R19). A host read of a LO register of a LO/HI pair returns the low word and latches the high word for that requester's
  next read of HI. -/
  | latchingRead (req addr len : Nat)
  /-- JTAG_INSTRUCTION (R497). An instruction scanned into the JTAG instruction register takes effect, or a pin-driving instruction is
  replaced by BYPASS and captures 0x3D while a bit-stream runs. -/
  | jtagInstruction (code : BitVec 8)
  /-- JTAG_PORT_RESET (R496). TRST_N low, or five TCK cycles with TMS high, resets the JTAG port to BYPASS without touching any other
  function. -/
  | jtagPortReset
deriving DecidableEq, Repr

end Sys2Proof
end

