-- ==== Sys2Proof/Config.lean ====
section
/-! DEFINITION. What one implementation or one station fixes, and the free values: opaque constants of which nothing can be
proved, one for each result that the manual leaves open. -/

namespace Sys2Proof

/-- Host's largest write payload in bytes (R30, Table 16.1: 128 or 256). DESIGN CHOICE (notes/assumptions/13.md). -/
def Config.maxPayload : Nat := 256

/-- Host's largest read request in bytes (R477), PCI Express's largest. DESIGN CHOICE (notes/assumptions/13.md). -/
def Config.maxReadRequest : Nat := 4096

/-- Size of the flash part in bytes (R446: an address beyond the flash). DESIGN CHOICE (notes/assumptions/5.md). -/
def Config.flashBytes : Nat := 0x4000000

/-- A fresh value for each number drawn (notes/assumptions/2.md): results the manual does not state. -/
opaque Config.freeValue : Nat → Nat

/-- Whether a fabric operation whose roundings Table 8.3 does not name computes a x b + c with one rounding or with two (R266,
notes/assumptions/14.md). -/
opaque Config.fusedMulAdd : Bool

/-- The tap of an edge-unit position in the table of a line that measured a number of taps per core cycle (R166; the manual gives no
formula, notes/assumptions/115.md). -/
opaque Config.tapOf (taps : Nat) (position : Nat) : Nat

/-- What a word of the on-die tables holds (Table 1.13 gives the range 1,200,128 to 1,572,863 no inner layout): a kind (0 a roll-up
accumulator, 1 a store word, 2 a stored item of a ZDELAY, 3 a shape table entry, 4 an item word of a queue, 5 of a stream, 6 a register
of the cell, arm and lane tables, else nothing that State holds) and its number (notes/assumptions/106.md). -/
opaque Config.innerWord : Nat → Nat × Nat

/-- The word address of a kind and number of `innerWord` (notes/assumptions/106.md). -/
opaque Config.innerAddr (kind number : Nat) : Nat

/-- The register, as BAR0 address and unit, that a word of other retained state holds (Table 1.13 gives the range 425,984 to 524,287 of
the retention store no inner layout; notes/assumptions/106.md). -/
opaque Config.retainedReg : Nat → Option (Nat × Nat)

/-- The bytes of one of the 16 segments of a critical image (R378; Table 12.2 gives sizes and no layout, notes/assumptions/12.md). -/
opaque Config.imageBytes (image : CritImage) (segment : Nat) : List Byte

/-- How a poisoned word travels in a data block of the slow checkpoint (R60, R380; the manual gives no code, notes/assumptions/106.md). -/
opaque Config.poisonBlock : Nat → Nat

/-- The blocks of a binding record segment (R380, Table 12.6; the manual gives no layout, notes/assumptions/12.md). -/
opaque Config.bindWords : BindRecord → List Nat

/-- The address and word blocks of a mirror run (R389, Table 12.6; the manual gives no layout, notes/assumptions/12.md). -/
opaque Config.mirrorWords (run : Nat) (writes : List MirrorWrite) : List Nat

end Sys2Proof
end

