-- ==== Sys2Proof/Machine/Sparse.lean ====
section
/-! DEFINITION. Sparse tables: a list of (key, value) pairs in one canonical form, keys strictly rising and no entry equal
to what an unlisted key reads as. Every addressed store of the model is one: registers, points, flash, host memory and
the arrays of like units. -/

namespace Sys2Proof.Machine

/-- What a key reads as; `d` where nothing is listed. -/
def tabGet {α : Type} (d : α) : List (Nat × α) → Nat → α
  | [], _ => d
  | (j, v) :: t, k => if k = j then v else if k < j then d else tabGet d t k

/-- Write a key; writing the default removes the entry. -/
def tabSet {α : Type} [DecidableEq α] (d : α) : List (Nat × α) → Nat → α → List (Nat × α)
  | [], k, v => if v = d then [] else [(k, v)]
  | (j, w) :: t, k, v =>
    if k = j then (if v = d then t else (k, v) :: t)
    else if k < j then (if v = d then (j, w) :: t else (k, v) :: (j, w) :: t)
    else (j, w) :: tabSet d t k v

/-- Every listed key exceeds `b`, the keys rise strictly, and no entry is the default. -/
def tabWfFrom {α : Type} [DecidableEq α] (d : α) : Nat → List (Nat × α) → Bool
  | _, [] => true
  | b, (j, v) :: t => decide (b ≤ j) && decide (v ≠ d) && tabWfFrom d (j + 1) t

/-- The canonical form. -/
def tabWf {α : Type} [DecidableEq α] (d : α) (t : List (Nat × α)) : Bool := tabWfFrom d 0 t

/-- Change one key's value. -/
def tabMod {α : Type} [DecidableEq α] (d : α) (t : List (Nat × α)) (k : Nat) (f : α → α) : List (Nat × α) :=
  tabSet d t k (f (tabGet d t k))

/-- Write consecutive keys. -/
def tabSetList {α : Type} [DecidableEq α] (d : α) : List (Nat × α) → Nat → List α → List (Nat × α)
  | t, _, [] => t
  | t, k, v :: vs => tabSetList d (tabSet d t k v) (k + 1) vs

/-- Read `n` consecutive keys. -/
def tabGetList {α : Type} (d : α) (t : List (Nat × α)) (k : Nat) : Nat → List α
  | 0 => []
  | n + 1 => tabGet d t k :: tabGetList d t (k + 1) n

/-- Drop every key that `p` picks. -/
def tabDrop {α : Type} (p : Nat → Bool) (t : List (Nat × α)) : List (Nat × α) := t.filter (fun e => !p e.1)

/-- Every entry of a table changed alike. -/
def tabMap {α : Type} [DecidableEq α] (dflt : α) (f : α → α) (t : List (Nat × α)) : List (Nat × α) :=
  t.foldl (fun u x => tabSet dflt u x.1 (f x.2)) []

end Sys2Proof.Machine
end

