-- ==== Sys2Proof/Register.lean ====
section
/-! DEFINITION. What a row of a register map of spec/ says: access codes (Table 0.2, R12) and register fields. -/

namespace Sys2Proof.Machine

/-- Access codes of Table 0.2. -/
inductive Access where
  | rw | ro | st | w1c | w1s | rc | wo | sc
deriving DecidableEq, Repr

/-- How a host address names one of several like instances: a single register, a stride, or the register that selects
the unit (FAB_GRAPH_SEL, FAB_FLOW_SEL, FAB_STREAM_SEL, FAB_RX_SEL, FAB_OBS_SEL, TIM_LANE_SEL, ADC_SEQ_SEL, ADC_SV_SEL,
EPO_BENCH_SEL). -/
inductive Picker where
  | one | stride | graph | flow | stream | cond | observer | timLane | seqEntry | sub | bench
deriving DecidableEq, Repr

/-- One field of a register map. `own` marks a field whose write has a row of its own in the opcode table, which
REGISTER_WRITE therefore leaves alone (notes/assumptions/10.md). DESIGN CHOICE (notes/assumptions/1.md). -/
structure Field where
  addr : Nat
  lo : Nat
  width : Nat
  acc : Access
  reset : Nat
  min : Nat
  max : Nat
  sel : Picker
  stride : Nat
  count : Nat
  own : Bool
deriving DecidableEq, Repr

end Sys2Proof.Machine
end

