-- ==== Sys2Proof/Machine/RegMap.lean ====
section
/-! DEFINITION. The register maps of spec/ (Tables 1.11, 2.10, 4.8, 6.8, 8.11, 9.7, 10.10, 11.5, 11.6, 12.9, 13.7, 14.9, 15.8, 16.5 and
their neighbours): every field of the 2,520 registers, with its address, bit range, access code (Table 0.2), reset
value and stated range. A field reset by a table of the bit-stream has 0 here (notes/assumptions/1.md). -/

namespace Sys2Proof.Machine


namespace Reg.GLB_ID
def device : Field := ⟨0x0, 0, 16, .ro, 5782, 0, 65535, .one, 0, 1, false⟩
def vendor : Field := ⟨0x0, 16, 16, .ro, 7738, 0, 65535, .one, 0, 1, false⟩
end Reg.GLB_ID

namespace Reg.GLB_REV
def stepping : Field := ⟨0x4, 0, 4, .ro, 11, 0, 15, .one, 0, 1, false⟩
def ana_rev : Field := ⟨0x4, 8, 4, .ro, 3, 0, 15, .one, 0, 1, false⟩
def mem_rev : Field := ⟨0x4, 12, 4, .ro, 2, 0, 15, .one, 0, 1, false⟩
end Reg.GLB_REV

namespace Reg.GLB_SERIAL_LO
def serial_lo : Field := ⟨0x8, 0, 32, .ro, 0, 0, 4294967295, .one, 0, 1, false⟩
end Reg.GLB_SERIAL_LO

namespace Reg.GLB_SERIAL_HI
def serial_hi : Field := ⟨0xC, 0, 32, .ro, 0, 0, 4294967295, .one, 0, 1, false⟩
end Reg.GLB_SERIAL_HI

namespace Reg.GLB_CAPS
def lanes : Field := ⟨0x10, 0, 8, .ro, 96, 0, 255, .one, 0, 1, false⟩
def arms : Field := ⟨0x10, 8, 4, .ro, 12, 0, 15, .one, 0, 1, false⟩
def engines : Field := ⟨0x10, 12, 7, .ro, 64, 0, 127, .one, 0, 1, false⟩
def cores : Field := ⟨0x10, 19, 3, .ro, 4, 0, 7, .one, 0, 1, false⟩
def drive : Field := ⟨0x10, 22, 5, .ro, 24, 0, 31, .one, 0, 1, false⟩
end Reg.GLB_CAPS

namespace Reg.GLB_STAT
def running : Field := ⟨0x14, 0, 1, .ro, 0, 0, 1, .one, 0, 1, false⟩
def personality : Field := ⟨0x14, 1, 1, .ro, 0, 0, 1, .one, 0, 1, false⟩
def role : Field := ⟨0x14, 4, 4, .ro, 0, 0, 15, .one, 0, 1, false⟩
def master_off : Field := ⟨0x14, 8, 1, .ro, 1, 0, 1, .one, 0, 1, false⟩
def d3 : Field := ⟨0x14, 9, 1, .ro, 0, 0, 1, .one, 0, 1, false⟩
end Reg.GLB_STAT

namespace Reg.GLB_CTRL
def acc_ev : Field := ⟨0x18, 0, 1, .rw, 1, 0, 1, .one, 0, 1, false⟩
def dma_ev : Field := ⟨0x18, 1, 1, .rw, 1, 0, 1, .one, 0, 1, false⟩
end Reg.GLB_CTRL

namespace Reg.GLB_SEAM_DIV
def div : Field := ⟨0x1C, 0, 16, .rw, 999, 0, 65535, .one, 0, 1, false⟩
end Reg.GLB_SEAM_DIV

namespace Reg.GLB_EVQ_MOD
def count : Field := ⟨0x20, 0, 8, .rw, 16, 1, 255, .one, 0, 1, false⟩
def time : Field := ⟨0x20, 8, 16, .rw, 50, 1, 65535, .one, 0, 1, false⟩
end Reg.GLB_EVQ_MOD

namespace Reg.GLB_IRQ_EN0
def en : Field := ⟨0x24, 0, 32, .rw, 0, 0, 4294967295, .one, 0, 1, false⟩
end Reg.GLB_IRQ_EN0

namespace Reg.GLB_IRQ_EN1
def en : Field := ⟨0x28, 0, 32, .rw, 0, 0, 4294967295, .one, 0, 1, false⟩
end Reg.GLB_IRQ_EN1

namespace Reg.GLB_IRQ_STAT0
def cause : Field := ⟨0x2C, 0, 32, .w1c, 0, 0, 4294967295, .one, 0, 1, false⟩
end Reg.GLB_IRQ_STAT0

namespace Reg.GLB_IRQ_STAT1
def cause : Field := ⟨0x30, 0, 32, .w1c, 0, 0, 4294967295, .one, 0, 1, false⟩
end Reg.GLB_IRQ_STAT1

namespace Reg.GLB_IRQ_TEST
def vector : Field := ⟨0x34, 0, 6, .wo, 0, 0, 63, .one, 0, 1, true⟩
end Reg.GLB_IRQ_TEST

namespace Reg.GLB_ACC_ERR_CNT
def count : Field := ⟨0x38, 0, 32, .rc, 0, 0, 4294967295, .one, 0, 1, false⟩
end Reg.GLB_ACC_ERR_CNT

namespace Reg.GLB_ACC_ERR_ADDR
def addr : Field := ⟨0x3C, 0, 25, .ro, 0, 0, 33554431, .one, 0, 1, false⟩
def write : Field := ⟨0x3C, 31, 1, .ro, 0, 0, 1, .one, 0, 1, false⟩
end Reg.GLB_ACC_ERR_ADDR

namespace Reg.GLB_LINK_STAT
def speed : Field := ⟨0x40, 0, 4, .ro, 0, 0, 15, .one, 0, 1, false⟩
def width : Field := ⟨0x40, 4, 5, .ro, 0, 0, 31, .one, 0, 1, false⟩
def dstate : Field := ⟨0x40, 10, 2, .ro, 0, 0, 3, .one, 0, 1, false⟩
end Reg.GLB_LINK_STAT

namespace Reg.GLB_LINK_CNT
def downs : Field := ⟨0x44, 0, 16, .rc, 0, 0, 65535, .one, 0, 1, false⟩
def flr : Field := ⟨0x44, 16, 16, .rc, 0, 0, 65535, .one, 0, 1, false⟩
end Reg.GLB_LINK_CNT

namespace Reg.GLB_DMA_STAT
def pending : Field := ⟨0x48, 0, 8, .ro, 0, 0, 255, .one, 0, 1, false⟩
def held : Field := ⟨0x48, 8, 1, .ro, 0, 0, 1, .one, 0, 1, false⟩
end Reg.GLB_DMA_STAT

namespace Reg.GLB_DMA_ERR
def count : Field := ⟨0x4C, 0, 16, .rc, 0, 0, 65535, .one, 0, 1, false⟩
def last : Field := ⟨0x4C, 16, 8, .ro, 0, 0, 255, .one, 0, 1, false⟩
end Reg.GLB_DMA_ERR

namespace Reg.GLB_CPL_TIME
def max : Field := ⟨0x50, 0, 16, .rc, 0, 0, 65535, .one, 0, 1, false⟩
end Reg.GLB_CPL_TIME

namespace Reg.GLB_MAP_INFO
def registers : Field := ⟨0x54, 0, 12, .ro, 2520, 0, 4095, .one, 0, 1, false⟩
def bar_log : Field := ⟨0x54, 16, 4, .ro, 5, 0, 15, .one, 0, 1, false⟩
end Reg.GLB_MAP_INFO

namespace Reg.GLB_SCRATCH0
def data : Field := ⟨0x58, 0, 32, .rw, 0, 0, 4294967295, .one, 0, 1, false⟩
end Reg.GLB_SCRATCH0

namespace Reg.GLB_SCRATCH1
def data : Field := ⟨0x5C, 0, 32, .rw, 0, 0, 4294967295, .one, 0, 1, false⟩
end Reg.GLB_SCRATCH1
def regsGlb0 : List Field :=
  [Reg.GLB_ID.device, Reg.GLB_ID.vendor, Reg.GLB_REV.stepping, Reg.GLB_REV.ana_rev,
   Reg.GLB_REV.mem_rev, Reg.GLB_SERIAL_LO.serial_lo, Reg.GLB_SERIAL_HI.serial_hi, Reg.GLB_CAPS.lanes,
   Reg.GLB_CAPS.arms, Reg.GLB_CAPS.engines, Reg.GLB_CAPS.cores, Reg.GLB_CAPS.drive,
   Reg.GLB_STAT.running, Reg.GLB_STAT.personality, Reg.GLB_STAT.role, Reg.GLB_STAT.master_off,
   Reg.GLB_STAT.d3, Reg.GLB_CTRL.acc_ev, Reg.GLB_CTRL.dma_ev, Reg.GLB_SEAM_DIV.div,
   Reg.GLB_EVQ_MOD.count, Reg.GLB_EVQ_MOD.time, Reg.GLB_IRQ_EN0.en, Reg.GLB_IRQ_EN1.en]
def regsGlb1 : List Field :=
  [Reg.GLB_IRQ_STAT0.cause, Reg.GLB_IRQ_STAT1.cause, Reg.GLB_IRQ_TEST.vector, Reg.GLB_ACC_ERR_CNT.count,
   Reg.GLB_ACC_ERR_ADDR.addr, Reg.GLB_ACC_ERR_ADDR.write, Reg.GLB_LINK_STAT.speed, Reg.GLB_LINK_STAT.width,
   Reg.GLB_LINK_STAT.dstate, Reg.GLB_LINK_CNT.downs, Reg.GLB_LINK_CNT.flr, Reg.GLB_DMA_STAT.pending,
   Reg.GLB_DMA_STAT.held, Reg.GLB_DMA_ERR.count, Reg.GLB_DMA_ERR.last, Reg.GLB_CPL_TIME.max,
   Reg.GLB_MAP_INFO.registers, Reg.GLB_MAP_INFO.bar_log, Reg.GLB_SCRATCH0.data, Reg.GLB_SCRATCH1.data]
/-- Every field of the GLB register map. -/
def regsGlb : List Field := regsGlb0 ++ regsGlb1


namespace Reg.PWR_CTRL
def temp_ev : Field := ⟨0x1000, 0, 1, .rw, 1, 0, 1, .one, 0, 1, false⟩
def dom_ev : Field := ⟨0x1000, 1, 1, .rw, 1, 0, 1, .one, 0, 1, false⟩
end Reg.PWR_CTRL

namespace Reg.PWR_STAT
def state : Field := ⟨0x1004, 0, 3, .ro, 0, 0, 7, .one, 0, 1, false⟩
def core_pll : Field := ⟨0x1004, 3, 1, .ro, 0, 0, 1, .one, 0, 1, false⟩
def link_pll : Field := ⟨0x1004, 4, 1, .ro, 0, 0, 1, .one, 0, 1, false⟩
def mem_sr : Field := ⟨0x1004, 5, 1, .ro, 0, 0, 1, .one, 0, 1, false⟩
end Reg.PWR_STAT

namespace Reg.PWR_CMD
def cmd : Field := ⟨0x1008, 0, 3, .wo, 0, 0, 7, .one, 0, 1, true⟩
def key : Field := ⟨0x1008, 8, 8, .wo, 0, 0, 255, .one, 0, 1, true⟩
end Reg.PWR_CMD

namespace Reg.PWR_CMD_STAT
def status : Field := ⟨0x100C, 0, 3, .ro, 0, 0, 7, .one, 0, 1, false⟩
end Reg.PWR_CMD_STAT

namespace Reg.PWR_DOM_REQ
def fab_w : Field := ⟨0x1010, 0, 1, .rw, 1, 0, 1, .one, 0, 1, true⟩
def fab_e : Field := ⟨0x1010, 1, 1, .rw, 1, 0, 1, .one, 0, 1, true⟩
def lq : Field := ⟨0x1010, 2, 4, .rw, 15, 0, 15, .one, 0, 1, true⟩
def ana : Field := ⟨0x1010, 6, 1, .rw, 1, 0, 1, .one, 0, 1, true⟩
end Reg.PWR_DOM_REQ

namespace Reg.PWR_DOM_STAT
def state : Field := ⟨0x1014, 0, 24, .ro, 0, 0, 16777215, .one, 0, 1, false⟩
def refuse : Field := ⟨0x1014, 24, 4, .ro, 0, 0, 15, .one, 0, 1, false⟩
end Reg.PWR_DOM_STAT

namespace Reg.PWR_DOM_ERR
def fault : Field := ⟨0x1018, 0, 12, .w1c, 0, 0, 4095, .one, 0, 1, false⟩
end Reg.PWR_DOM_ERR

namespace Reg.PWR_RESET_CAUSE
def por : Field := ⟨0x101C, 0, 1, .w1c, 1, 0, 1, .one, 0, 1, false⟩
def rst_n : Field := ⟨0x101C, 1, 1, .w1c, 0, 0, 1, .one, 0, 1, false⟩
def brownout : Field := ⟨0x101C, 2, 1, .w1c, 0, 0, 1, .one, 0, 1, false⟩
def software : Field := ⟨0x101C, 3, 1, .w1c, 0, 0, 1, .one, 0, 1, false⟩
def dormant_wake : Field := ⟨0x101C, 4, 1, .w1c, 0, 0, 1, .one, 0, 1, false⟩
end Reg.PWR_RESET_CAUSE

namespace Reg.PWR_RESET_CNT
def rst_n : Field := ⟨0x1020, 0, 16, .rc, 0, 0, 65535, .one, 0, 1, false⟩
def brownouts : Field := ⟨0x1020, 16, 16, .rc, 0, 0, 65535, .one, 0, 1, false⟩
end Reg.PWR_RESET_CNT

namespace Reg.PWR_RST_HOLD
def ms : Field := ⟨0x1024, 0, 32, .ro, 0, 0, 4294967295, .one, 0, 1, false⟩
end Reg.PWR_RST_HOLD

namespace Reg.PWR_CLK_STAT
def ref_present : Field := ⟨0x1028, 0, 1, .ro, 0, 0, 1, .one, 0, 1, false⟩
def fallback : Field := ⟨0x1028, 1, 1, .ro, 0, 0, 1, .one, 0, 1, false⟩
def pll_unlock : Field := ⟨0x1028, 2, 1, .w1c, 0, 0, 1, .one, 0, 1, false⟩
def unlock_cnt : Field := ⟨0x1028, 16, 16, .rc, 0, 0, 65535, .one, 0, 1, false⟩
end Reg.PWR_CLK_STAT

namespace Reg.PWR_PLL_TIME
def core_lock : Field := ⟨0x102C, 0, 16, .ro, 0, 0, 65535, .one, 0, 1, false⟩
def link_lock : Field := ⟨0x102C, 16, 16, .ro, 0, 0, 65535, .one, 0, 1, false⟩
end Reg.PWR_PLL_TIME

namespace Reg.PWR_WAKE_CFG
def timer_en : Field := ⟨0x1030, 0, 1, .rw, 0, 0, 1, .one, 0, 1, false⟩
def hb_loss : Field := ⟨0x1030, 1, 1, .rw, 1, 0, 1, .one, 0, 1, false⟩
def hb_state : Field := ⟨0x1030, 2, 1, .rw, 1, 0, 1, .one, 0, 1, false⟩
end Reg.PWR_WAKE_CFG

namespace Reg.PWR_WAKE_TIMER
def s : Field := ⟨0x1034, 0, 32, .rw, 0, 0, 4294967295, .one, 0, 1, false⟩
end Reg.PWR_WAKE_TIMER

namespace Reg.PWR_WAKE_STAT
def source : Field := ⟨0x1038, 0, 3, .ro, 0, 0, 7, .one, 0, 1, false⟩
def dormant_cnt : Field := ⟨0x1038, 16, 16, .rc, 0, 0, 65535, .one, 0, 1, false⟩
end Reg.PWR_WAKE_STAT

namespace Reg.PWR_WAKE_TIME
def domain : Field := ⟨0x103C, 0, 16, .ro, 0, 0, 65535, .one, 0, 1, false⟩
def lanes : Field := ⟨0x103C, 16, 16, .ro, 0, 0, 65535, .one, 0, 1, false⟩
end Reg.PWR_WAKE_TIME

namespace Reg.PWR_RET_CTRL
def off : Field := ⟨0x1040, 0, 1, .rw, 0, 0, 1, .one, 0, 1, true⟩
end Reg.PWR_RET_CTRL

namespace Reg.PWR_RET_STAT
def period : Field := ⟨0x1044, 0, 2, .ro, 0, 0, 3, .one, 0, 1, false⟩
def late : Field := ⟨0x1044, 2, 1, .w1c, 0, 0, 1, .one, 0, 1, false⟩
end Reg.PWR_RET_STAT

namespace Reg.PWR_REFRESH_CNT
def sweeps : Field := ⟨0x1048, 0, 32, .rc, 0, 0, 4294967295, .one, 0, 1, false⟩
end Reg.PWR_REFRESH_CNT

namespace Reg.PWR_TEMP
def tj : Field := ⟨0x104C, 0, 16, .ro, 0, 0, 65535, .one, 0, 1, false⟩
def max : Field := ⟨0x104C, 16, 16, .rc, 0, 0, 65535, .one, 0, 1, false⟩
end Reg.PWR_TEMP

namespace Reg.PWR_TEMP_LIMIT
def high : Field := ⟨0x1050, 0, 16, .rw, 1680, 0, 65535, .one, 0, 1, false⟩
def low : Field := ⟨0x1050, 16, 16, .rw, 1600, 0, 65535, .one, 0, 1, false⟩
end Reg.PWR_TEMP_LIMIT

namespace Reg.PWR_SUPPLY_STAT
def in_range : Field := ⟨0x1054, 0, 8, .ro, 0, 0, 255, .one, 0, 1, false⟩
def dropped : Field := ⟨0x1054, 8, 8, .w1c, 0, 0, 255, .one, 0, 1, false⟩
end Reg.PWR_SUPPLY_STAT

namespace Reg.PWR_DOM_CNT
def on_cnt : Field := ⟨0x1058, 0, 16, .rc, 0, 0, 65535, .stride, 4, 12, false⟩
def refused : Field := ⟨0x1058, 16, 16, .rc, 0, 0, 65535, .stride, 4, 12, false⟩
end Reg.PWR_DOM_CNT

namespace Reg.PWR_EST
def power : Field := ⟨0x1088, 0, 16, .ro, 0, 0, 65535, .one, 0, 1, false⟩
end Reg.PWR_EST

namespace Reg.PWR_BOOT_STAT
def step : Field := ⟨0x108C, 0, 3, .ro, 0, 0, 7, .one, 0, 1, false⟩
end Reg.PWR_BOOT_STAT

namespace Reg.PWR_BOOT_TIME
def us : Field := ⟨0x1090, 0, 32, .ro, 0, 0, 4294967295, .one, 0, 1, false⟩
end Reg.PWR_BOOT_TIME

namespace Reg.PWR_SCRATCH
def data : Field := ⟨0x1094, 0, 32, .rw, 0, 0, 4294967295, .stride, 4, 3, false⟩
end Reg.PWR_SCRATCH
def regsPwr0 : List Field :=
  [Reg.PWR_CTRL.temp_ev, Reg.PWR_CTRL.dom_ev, Reg.PWR_STAT.state, Reg.PWR_STAT.core_pll,
   Reg.PWR_STAT.link_pll, Reg.PWR_STAT.mem_sr, Reg.PWR_CMD.cmd, Reg.PWR_CMD.key,
   Reg.PWR_CMD_STAT.status, Reg.PWR_DOM_REQ.fab_w, Reg.PWR_DOM_REQ.fab_e, Reg.PWR_DOM_REQ.lq,
   Reg.PWR_DOM_REQ.ana, Reg.PWR_DOM_STAT.state, Reg.PWR_DOM_STAT.refuse, Reg.PWR_DOM_ERR.fault,
   Reg.PWR_RESET_CAUSE.por, Reg.PWR_RESET_CAUSE.rst_n, Reg.PWR_RESET_CAUSE.brownout, Reg.PWR_RESET_CAUSE.software,
   Reg.PWR_RESET_CAUSE.dormant_wake, Reg.PWR_RESET_CNT.rst_n, Reg.PWR_RESET_CNT.brownouts, Reg.PWR_RST_HOLD.ms]
def regsPwr1 : List Field :=
  [Reg.PWR_CLK_STAT.ref_present, Reg.PWR_CLK_STAT.fallback, Reg.PWR_CLK_STAT.pll_unlock, Reg.PWR_CLK_STAT.unlock_cnt,
   Reg.PWR_PLL_TIME.core_lock, Reg.PWR_PLL_TIME.link_lock, Reg.PWR_WAKE_CFG.timer_en, Reg.PWR_WAKE_CFG.hb_loss,
   Reg.PWR_WAKE_CFG.hb_state, Reg.PWR_WAKE_TIMER.s, Reg.PWR_WAKE_STAT.source, Reg.PWR_WAKE_STAT.dormant_cnt,
   Reg.PWR_WAKE_TIME.domain, Reg.PWR_WAKE_TIME.lanes, Reg.PWR_RET_CTRL.off, Reg.PWR_RET_STAT.period,
   Reg.PWR_RET_STAT.late, Reg.PWR_REFRESH_CNT.sweeps, Reg.PWR_TEMP.tj, Reg.PWR_TEMP.max,
   Reg.PWR_TEMP_LIMIT.high, Reg.PWR_TEMP_LIMIT.low, Reg.PWR_SUPPLY_STAT.in_range, Reg.PWR_SUPPLY_STAT.dropped]
def regsPwr2 : List Field :=
  [Reg.PWR_DOM_CNT.on_cnt, Reg.PWR_DOM_CNT.refused, Reg.PWR_EST.power, Reg.PWR_BOOT_STAT.step,
   Reg.PWR_BOOT_TIME.us, Reg.PWR_SCRATCH.data]
/-- Every field of the PWR register map. -/
def regsPwr : List Field := regsPwr0 ++ regsPwr1 ++ regsPwr2


namespace Reg.CFG_CTRL
def load_src : Field := ⟨0x2000, 0, 2, .rw, 0, 0, 2, .one, 0, 1, false⟩
def flash_wp : Field := ⟨0x2000, 4, 1, .rw, 1, 0, 1, .one, 0, 1, false⟩
end Reg.CFG_CTRL

namespace Reg.CFG_CMD
def cmd : Field := ⟨0x2004, 0, 3, .wo, 0, 0, 7, .one, 0, 1, true⟩
end Reg.CFG_CMD

namespace Reg.CFG_STAT
def state : Field := ⟨0x2008, 0, 3, .ro, 0, 0, 7, .one, 0, 1, false⟩
def image : Field := ⟨0x2008, 3, 1, .ro, 0, 0, 1, .one, 0, 1, false⟩
def fallback : Field := ⟨0x2008, 4, 1, .ro, 0, 0, 1, .one, 0, 1, false⟩
def personality : Field := ⟨0x2008, 5, 1, .ro, 0, 0, 1, .one, 0, 1, false⟩
def cmd_status : Field := ⟨0x2008, 8, 3, .ro, 0, 0, 7, .one, 0, 1, false⟩
def reason : Field := ⟨0x2008, 12, 4, .ro, 0, 0, 15, .one, 0, 1, false⟩
end Reg.CFG_STAT

namespace Reg.CFG_ERR_CODE
def code : Field := ⟨0x200C, 0, 8, .ro, 0, 0, 255, .one, 0, 1, false⟩
def type : Field := ⟨0x200C, 8, 8, .ro, 0, 0, 255, .one, 0, 1, false⟩
def inst : Field := ⟨0x200C, 16, 8, .ro, 0, 0, 255, .one, 0, 1, false⟩
def failures : Field := ⟨0x200C, 24, 8, .rc, 0, 0, 255, .one, 0, 1, false⟩
end Reg.CFG_ERR_CODE

namespace Reg.CFG_ERR_ITEM
def item : Field := ⟨0x2010, 0, 32, .ro, 0, 0, 4294967295, .one, 0, 1, false⟩
end Reg.CFG_ERR_ITEM

namespace Reg.CFG_ERR_RES
def resource : Field := ⟨0x2014, 0, 16, .ro, 0, 0, 65535, .one, 0, 1, false⟩
def kind : Field := ⟨0x2014, 16, 4, .ro, 0, 0, 15, .one, 0, 1, false⟩
end Reg.CFG_ERR_RES

namespace Reg.CFG_ERR_HOLD
def first : Field := ⟨0x2018, 0, 16, .ro, 0, 0, 65535, .one, 0, 1, false⟩
def second : Field := ⟨0x2018, 16, 16, .ro, 0, 0, 65535, .one, 0, 1, false⟩
end Reg.CFG_ERR_HOLD

namespace Reg.CFG_ERR_OFFSET
def offset : Field := ⟨0x201C, 0, 32, .ro, 0, 0, 4294967295, .one, 0, 1, false⟩
end Reg.CFG_ERR_OFFSET

namespace Reg.CFG_DIGEST
def digest : Field := ⟨0x2020, 0, 32, .ro, 0, 0, 4294967295, .one, 0, 1, false⟩
end Reg.CFG_DIGEST

namespace Reg.CFG_BASE_DIGEST
def digest : Field := ⟨0x2024, 0, 32, .ro, 0, 0, 4294967295, .one, 0, 1, false⟩
end Reg.CFG_BASE_DIGEST

namespace Reg.CFG_PREV_DIGEST
def digest : Field := ⟨0x2028, 0, 32, .ro, 0, 0, 4294967295, .one, 0, 1, false⟩
end Reg.CFG_PREV_DIGEST

namespace Reg.CFG_PRED
def digest : Field := ⟨0x202C, 0, 32, .ro, 0, 0, 4294967295, .stride, 4, 4, false⟩
end Reg.CFG_PRED

namespace Reg.CFG_BUILD
def build : Field := ⟨0x203C, 0, 32, .ro, 0, 0, 4294967295, .one, 0, 1, false⟩
end Reg.CFG_BUILD

namespace Reg.CFG_VERSION
def format : Field := ⟨0x2040, 0, 16, .ro, 0, 0, 65535, .one, 0, 1, false⟩
def stepping : Field := ⟨0x2040, 16, 8, .ro, 0, 0, 255, .one, 0, 1, false⟩
def key_slot : Field := ⟨0x2040, 24, 3, .ro, 0, 0, 7, .one, 0, 1, false⟩
def safety_slot : Field := ⟨0x2040, 28, 3, .ro, 0, 0, 7, .one, 0, 1, false⟩
end Reg.CFG_VERSION

namespace Reg.CFG_SIZE
def bytes : Field := ⟨0x2044, 0, 32, .ro, 0, 0, 4294967295, .one, 0, 1, false⟩
end Reg.CFG_SIZE

namespace Reg.CFG_SECTIONS
def sections : Field := ⟨0x2048, 0, 9, .ro, 0, 0, 511, .one, 0, 1, false⟩
def replaced : Field := ⟨0x2048, 16, 16, .ro, 0, 0, 65535, .one, 0, 1, false⟩
end Reg.CFG_SECTIONS

namespace Reg.CFG_KEY_STAT
def main_prog : Field := ⟨0x204C, 0, 4, .ro, 0, 0, 15, .one, 0, 1, false⟩
def main_rev : Field := ⟨0x204C, 4, 4, .ro, 0, 0, 15, .one, 0, 1, false⟩
def saf_prog : Field := ⟨0x204C, 8, 2, .ro, 0, 0, 3, .one, 0, 1, false⟩
def saf_rev : Field := ⟨0x204C, 10, 2, .ro, 0, 0, 3, .one, 0, 1, false⟩
end Reg.CFG_KEY_STAT

namespace Reg.CFG_KEY_CTRL
def slot : Field := ⟨0x2050, 0, 3, .rw, 0, 0, 5, .one, 0, 1, false⟩
def program : Field := ⟨0x2050, 4, 1, .wo, 0, 0, 1, .one, 0, 1, true⟩
def revoke : Field := ⟨0x2050, 5, 1, .wo, 0, 0, 1, .one, 0, 1, true⟩
def status : Field := ⟨0x2050, 8, 3, .ro, 0, 0, 7, .one, 0, 1, false⟩
def index : Field := ⟨0x2050, 16, 4, .ro, 0, 0, 15, .one, 0, 1, false⟩
end Reg.CFG_KEY_CTRL

namespace Reg.CFG_KEY_DATA
def word : Field := ⟨0x2054, 0, 32, .wo, 0, 0, 4294967295, .one, 0, 1, true⟩
end Reg.CFG_KEY_DATA

namespace Reg.CFG_FLASH_ADDR
def addr : Field := ⟨0x2058, 0, 32, .rw, 0, 0, 4294967295, .one, 0, 1, false⟩
end Reg.CFG_FLASH_ADDR

namespace Reg.CFG_FLASH_DATA
def data : Field := ⟨0x205C, 0, 32, .rw, 0, 0, 4294967295, .one, 0, 1, true⟩
end Reg.CFG_FLASH_DATA

namespace Reg.CFG_FLASH_CMD
def cmd : Field := ⟨0x2060, 0, 3, .wo, 0, 0, 7, .one, 0, 1, true⟩
def busy : Field := ⟨0x2060, 3, 1, .ro, 0, 0, 1, .one, 0, 1, false⟩
def status : Field := ⟨0x2060, 4, 3, .ro, 0, 0, 7, .one, 0, 1, false⟩
end Reg.CFG_FLASH_CMD

namespace Reg.CFG_BOOT_A
def base : Field := ⟨0x2064, 0, 32, .ro, 0, 0, 4294967295, .one, 0, 1, false⟩
end Reg.CFG_BOOT_A

namespace Reg.CFG_BOOT_B
def base : Field := ⟨0x2068, 0, 32, .ro, 0, 0, 4294967295, .one, 0, 1, false⟩
end Reg.CFG_BOOT_B

namespace Reg.CFG_BOOT_GEN
def gen_a : Field := ⟨0x206C, 0, 16, .ro, 0, 0, 65535, .one, 0, 1, false⟩
def gen_b : Field := ⟨0x206C, 16, 16, .ro, 0, 0, 65535, .one, 0, 1, false⟩
end Reg.CFG_BOOT_GEN

namespace Reg.CFG_LR_ADDR
def addr : Field := ⟨0x2070, 0, 32, .rw, 0, 0, 4294967295, .one, 0, 1, false⟩
end Reg.CFG_LR_ADDR

namespace Reg.CFG_LR_STAT
def state : Field := ⟨0x2074, 0, 3, .ro, 0, 0, 7, .one, 0, 1, false⟩
def code : Field := ⟨0x2074, 8, 8, .ro, 0, 0, 255, .one, 0, 1, false⟩
def sections : Field := ⟨0x2074, 16, 8, .ro, 0, 0, 255, .one, 0, 1, false⟩
end Reg.CFG_LR_STAT

namespace Reg.CFG_LR_TGT_LO
def target_lo : Field := ⟨0x2078, 0, 32, .rw, 0, 0, 4294967295, .one, 0, 1, false⟩
end Reg.CFG_LR_TGT_LO

namespace Reg.CFG_LR_TGT_HI
def target_hi : Field := ⟨0x207C, 0, 32, .rw, 0, 0, 4294967295, .one, 0, 1, false⟩
end Reg.CFG_LR_TGT_HI
def regsCfg0 : List Field :=
  [Reg.CFG_CTRL.load_src, Reg.CFG_CTRL.flash_wp, Reg.CFG_CMD.cmd, Reg.CFG_STAT.state,
   Reg.CFG_STAT.image, Reg.CFG_STAT.fallback, Reg.CFG_STAT.personality, Reg.CFG_STAT.cmd_status,
   Reg.CFG_STAT.reason, Reg.CFG_ERR_CODE.code, Reg.CFG_ERR_CODE.type, Reg.CFG_ERR_CODE.inst,
   Reg.CFG_ERR_CODE.failures, Reg.CFG_ERR_ITEM.item, Reg.CFG_ERR_RES.resource, Reg.CFG_ERR_RES.kind,
   Reg.CFG_ERR_HOLD.first, Reg.CFG_ERR_HOLD.second, Reg.CFG_ERR_OFFSET.offset, Reg.CFG_DIGEST.digest,
   Reg.CFG_BASE_DIGEST.digest, Reg.CFG_PREV_DIGEST.digest, Reg.CFG_PRED.digest, Reg.CFG_BUILD.build]
def regsCfg1 : List Field :=
  [Reg.CFG_VERSION.format, Reg.CFG_VERSION.stepping, Reg.CFG_VERSION.key_slot, Reg.CFG_VERSION.safety_slot,
   Reg.CFG_SIZE.bytes, Reg.CFG_SECTIONS.sections, Reg.CFG_SECTIONS.replaced, Reg.CFG_KEY_STAT.main_prog,
   Reg.CFG_KEY_STAT.main_rev, Reg.CFG_KEY_STAT.saf_prog, Reg.CFG_KEY_STAT.saf_rev, Reg.CFG_KEY_CTRL.slot,
   Reg.CFG_KEY_CTRL.program, Reg.CFG_KEY_CTRL.revoke, Reg.CFG_KEY_CTRL.status, Reg.CFG_KEY_CTRL.index,
   Reg.CFG_KEY_DATA.word, Reg.CFG_FLASH_ADDR.addr, Reg.CFG_FLASH_DATA.data, Reg.CFG_FLASH_CMD.cmd,
   Reg.CFG_FLASH_CMD.busy, Reg.CFG_FLASH_CMD.status, Reg.CFG_BOOT_A.base, Reg.CFG_BOOT_B.base]
def regsCfg2 : List Field :=
  [Reg.CFG_BOOT_GEN.gen_a, Reg.CFG_BOOT_GEN.gen_b, Reg.CFG_LR_ADDR.addr, Reg.CFG_LR_STAT.state,
   Reg.CFG_LR_STAT.code, Reg.CFG_LR_STAT.sections, Reg.CFG_LR_TGT_LO.target_lo, Reg.CFG_LR_TGT_HI.target_hi]
/-- Every field of the CFG register map. -/
def regsCfg : List Field := regsCfg0 ++ regsCfg1 ++ regsCfg2


namespace Reg.EPO_CTRL
def stage_discard : Field := ⟨0x3000, 0, 1, .sc, 0, 0, 1, .one, 0, 1, true⟩
def stat_reset : Field := ⟨0x3000, 1, 1, .sc, 0, 0, 1, .one, 0, 1, true⟩
def ev_enable : Field := ⟨0x3000, 2, 1, .rw, 0, 0, 1, .one, 0, 1, false⟩
def rollup_enable : Field := ⟨0x3000, 3, 1, .rw, 1, 0, 1, .one, 0, 1, false⟩
end Reg.EPO_CTRL

namespace Reg.EPO_STAT
def fences_pending : Field := ⟨0x3004, 0, 3, .ro, 0, 0, 7, .one, 0, 1, false⟩
def pin_active : Field := ⟨0x3004, 3, 1, .ro, 0, 0, 1, .one, 0, 1, false⟩
def dr_armed : Field := ⟨0x3004, 4, 1, .ro, 0, 0, 1, .one, 0, 1, false⟩
def dr_frozen : Field := ⟨0x3004, 5, 1, .ro, 0, 0, 1, .one, 0, 1, false⟩
def dr_dma_busy : Field := ⟨0x3004, 6, 1, .ro, 0, 0, 1, .one, 0, 1, false⟩
end Reg.EPO_STAT

namespace Reg.EPO_LEN
def cycles : Field := ⟨0x3008, 0, 16, .st, 800, 400, 40000, .one, 0, 1, false⟩
end Reg.EPO_LEN

namespace Reg.EPO_EPOCH_LO
def epoch_lo : Field := ⟨0x300C, 0, 32, .ro, 0, 0, 4294967295, .one, 0, 1, false⟩
end Reg.EPO_EPOCH_LO

namespace Reg.EPO_EPOCH_HI
def epoch_hi : Field := ⟨0x3010, 0, 32, .ro, 0, 0, 4294967295, .one, 0, 1, false⟩
end Reg.EPO_EPOCH_HI

namespace Reg.EPO_PIN_CTRL
def pin : Field := ⟨0x3014, 0, 1, .sc, 0, 0, 1, .one, 0, 1, true⟩
def release : Field := ⟨0x3014, 1, 1, .wo, 0, 0, 1, .one, 0, 1, true⟩
def route : Field := ⟨0x3014, 2, 1, .rw, 1, 0, 1, .one, 0, 1, false⟩
def hold : Field := ⟨0x3014, 8, 6, .rw, 63, 0, 63, .one, 0, 1, false⟩
end Reg.EPO_PIN_CTRL

namespace Reg.EPO_PIN_STAT
def expired : Field := ⟨0x3018, 0, 1, .w1c, 0, 0, 1, .one, 0, 1, false⟩
def refused : Field := ⟨0x3018, 1, 1, .w1c, 0, 0, 1, .one, 0, 1, false⟩
def remaining : Field := ⟨0x3018, 16, 7, .ro, 0, 0, 127, .one, 0, 1, false⟩
end Reg.EPO_PIN_STAT

namespace Reg.EPO_PIN_EPOCH_LO
def pin_epoch_lo : Field := ⟨0x301C, 0, 32, .ro, 0, 0, 4294967295, .one, 0, 1, false⟩
end Reg.EPO_PIN_EPOCH_LO

namespace Reg.EPO_PIN_EPOCH_HI
def pin_epoch_hi : Field := ⟨0x3020, 0, 32, .ro, 0, 0, 4294967295, .one, 0, 1, false⟩
end Reg.EPO_PIN_EPOCH_HI

namespace Reg.EPO_FENCE_TGT_LO
def target_lo : Field := ⟨0x3024, 0, 32, .rw, 0, 0, 4294967295, .one, 0, 1, false⟩
end Reg.EPO_FENCE_TGT_LO

namespace Reg.EPO_FENCE_TGT_HI
def target_hi : Field := ⟨0x3028, 0, 32, .rw, 0, 0, 4294967295, .one, 0, 1, false⟩
end Reg.EPO_FENCE_TGT_HI

namespace Reg.EPO_FENCE_CMD
def issue : Field := ⟨0x302C, 0, 1, .wo, 0, 0, 1, .one, 0, 1, true⟩
def mode : Field := ⟨0x302C, 1, 1, .wo, 0, 0, 1, .one, 0, 1, true⟩
end Reg.EPO_FENCE_CMD

namespace Reg.EPO_FENCE_STAT
def status : Field := ⟨0x3030, 0, 3, .ro, 0, 0, 7, .one, 0, 1, false⟩
def last_id : Field := ⟨0x3030, 8, 8, .ro, 255, 0, 255, .one, 0, 1, false⟩
def done_id : Field := ⟨0x3030, 16, 8, .ro, 255, 0, 255, .one, 0, 1, false⟩
def refused_cnt : Field := ⟨0x3030, 24, 8, .rc, 0, 0, 255, .one, 0, 1, false⟩
end Reg.EPO_FENCE_STAT

namespace Reg.EPO_FENCE_DONE_LO
def done_lo : Field := ⟨0x3034, 0, 32, .ro, 0, 0, 4294967295, .one, 0, 1, false⟩
end Reg.EPO_FENCE_DONE_LO

namespace Reg.EPO_FENCE_DONE_HI
def done_hi : Field := ⟨0x3038, 0, 32, .ro, 0, 0, 4294967295, .one, 0, 1, false⟩
end Reg.EPO_FENCE_DONE_HI

namespace Reg.EPO_STAGE_STAT
def used : Field := ⟨0x303C, 0, 14, .ro, 0, 0, 16383, .one, 0, 1, false⟩
def overflow : Field := ⟨0x303C, 16, 1, .ro, 0, 0, 1, .one, 0, 1, false⟩
end Reg.EPO_STAGE_STAT

namespace Reg.EPO_WR_REJECT_CNT
def count : Field := ⟨0x3040, 0, 32, .rc, 0, 0, 4294967295, .one, 0, 1, false⟩
end Reg.EPO_WR_REJECT_CNT

namespace Reg.EPO_EVQ_BASE_LO
def base_lo : Field := ⟨0x3044, 12, 20, .rw, 0, 0, 1048575, .one, 0, 1, true⟩
end Reg.EPO_EVQ_BASE_LO

namespace Reg.EPO_EVQ_BASE_HI
def base_hi : Field := ⟨0x3048, 0, 32, .rw, 0, 0, 4294967295, .one, 0, 1, true⟩
end Reg.EPO_EVQ_BASE_HI

namespace Reg.EPO_EVQ_SIZE
def log2_entries : Field := ⟨0x304C, 0, 5, .rw, 10, 6, 16, .one, 0, 1, true⟩
end Reg.EPO_EVQ_SIZE

namespace Reg.EPO_EVQ_HEAD
def head : Field := ⟨0x3050, 0, 16, .ro, 0, 0, 65535, .one, 0, 1, false⟩
end Reg.EPO_EVQ_HEAD

namespace Reg.EPO_EVQ_TAIL
def tail : Field := ⟨0x3054, 0, 16, .rw, 0, 0, 65535, .one, 0, 1, true⟩
end Reg.EPO_EVQ_TAIL

namespace Reg.EPO_EV_MASK
def range_en : Field := ⟨0x3058, 0, 12, .rw, 4095, 0, 4095, .one, 0, 1, false⟩
end Reg.EPO_EV_MASK

namespace Reg.EPO_EV_LOST
def count : Field := ⟨0x305C, 0, 32, .rc, 0, 0, 4294967295, .one, 0, 1, false⟩
end Reg.EPO_EV_LOST

namespace Reg.EPO_ECC_CTRL
def ps_period : Field := ⟨0x3060, 0, 8, .rw, 10, 0, 255, .one, 0, 1, false⟩
def md_period : Field := ⟨0x3060, 8, 8, .rw, 50, 0, 255, .one, 0, 1, false⟩
def ret_period : Field := ⟨0x3060, 16, 8, .rw, 10, 0, 255, .one, 0, 1, false⟩
def ce_event_thr : Field := ⟨0x3060, 24, 8, .rw, 16, 0, 255, .one, 0, 1, false⟩
end Reg.EPO_ECC_CTRL

namespace Reg.EPO_CE_CNT
def count : Field := ⟨0x3064, 0, 32, .rc, 0, 0, 4294967295, .one, 0, 1, false⟩
end Reg.EPO_CE_CNT

namespace Reg.EPO_UE_CNT
def count : Field := ⟨0x3068, 0, 32, .rc, 0, 0, 4294967295, .one, 0, 1, false⟩
end Reg.EPO_UE_CNT

namespace Reg.EPO_UE_ADDR
def memory : Field := ⟨0x306C, 28, 4, .rc, 15, 0, 15, .one, 0, 1, false⟩
def word : Field := ⟨0x306C, 0, 28, .rc, 268435455, 0, 268435455, .one, 0, 1, false⟩
end Reg.EPO_UE_ADDR

namespace Reg.EPO_BENCH_SEL
def bench : Field := ⟨0x3070, 0, 8, .rw, 0, 0, 191, .one, 0, 1, false⟩
end Reg.EPO_BENCH_SEL

namespace Reg.EPO_BENCH_INFO
def resident : Field := ⟨0x3074, 0, 1, .ro, 0, 0, 1, .bench, 0, 1, false⟩
def dirty : Field := ⟨0x3074, 1, 1, .ro, 0, 0, 1, .bench, 0, 1, false⟩
def frame : Field := ⟨0x3074, 2, 6, .ro, 0, 0, 63, .bench, 0, 1, false⟩
def fold_epoch : Field := ⟨0x3074, 8, 24, .ro, 0, 0, 16777215, .bench, 0, 1, false⟩
end Reg.EPO_BENCH_INFO

namespace Reg.EPO_DR_CTRL
def arm : Field := ⟨0x3078, 0, 1, .sc, 0, 0, 1, .one, 0, 1, true⟩
def trigger : Field := ⟨0x3078, 1, 1, .wo, 0, 0, 1, .one, 0, 1, true⟩
def dma_start : Field := ⟨0x3078, 2, 1, .sc, 0, 0, 1, .one, 0, 1, true⟩
def channels : Field := ⟨0x3078, 8, 7, .rw, 1, 1, 64, .one, 0, 1, false⟩
def decimation : Field := ⟨0x3078, 16, 8, .rw, 0, 0, 255, .one, 0, 1, false⟩
end Reg.EPO_DR_CTRL

namespace Reg.EPO_DR_LEN
def pre : Field := ⟨0x307C, 0, 16, .rw, 0, 0, 65535, .one, 0, 1, false⟩
def post : Field := ⟨0x307C, 16, 16, .rw, 0, 0, 65535, .one, 0, 1, false⟩
end Reg.EPO_DR_LEN

namespace Reg.EPO_DR_CHAN
def index : Field := ⟨0x3080, 26, 6, .rw, 0, 0, 63, .one, 0, 1, true⟩
def is_cell : Field := ⟨0x3080, 25, 1, .rw, 0, 0, 1, .one, 0, 1, false⟩
def address : Field := ⟨0x3080, 0, 20, .rw, 0, 0, 1048575, .one, 0, 1, false⟩
end Reg.EPO_DR_CHAN

namespace Reg.EPO_DR_STAT
def short : Field := ⟨0x3084, 0, 1, .w1c, 0, 0, 1, .one, 0, 1, false⟩
def arm_refused : Field := ⟨0x3084, 1, 1, .w1c, 0, 0, 1, .one, 0, 1, false⟩
def extra_triggers : Field := ⟨0x3084, 8, 8, .ro, 0, 0, 255, .one, 0, 1, false⟩
end Reg.EPO_DR_STAT

namespace Reg.EPO_DR_DMA_LO
def addr_lo : Field := ⟨0x3088, 6, 26, .rw, 0, 0, 67108863, .one, 0, 1, false⟩
end Reg.EPO_DR_DMA_LO

namespace Reg.EPO_DR_DMA_HI
def addr_hi : Field := ⟨0x308C, 0, 32, .rw, 0, 0, 4294967295, .one, 0, 1, false⟩
end Reg.EPO_DR_DMA_HI
def regsEpo0 : List Field :=
  [Reg.EPO_CTRL.stage_discard, Reg.EPO_CTRL.stat_reset, Reg.EPO_CTRL.ev_enable, Reg.EPO_CTRL.rollup_enable,
   Reg.EPO_STAT.fences_pending, Reg.EPO_STAT.pin_active, Reg.EPO_STAT.dr_armed, Reg.EPO_STAT.dr_frozen,
   Reg.EPO_STAT.dr_dma_busy, Reg.EPO_LEN.cycles, Reg.EPO_EPOCH_LO.epoch_lo, Reg.EPO_EPOCH_HI.epoch_hi,
   Reg.EPO_PIN_CTRL.pin, Reg.EPO_PIN_CTRL.release, Reg.EPO_PIN_CTRL.route, Reg.EPO_PIN_CTRL.hold,
   Reg.EPO_PIN_STAT.expired, Reg.EPO_PIN_STAT.refused, Reg.EPO_PIN_STAT.remaining, Reg.EPO_PIN_EPOCH_LO.pin_epoch_lo,
   Reg.EPO_PIN_EPOCH_HI.pin_epoch_hi, Reg.EPO_FENCE_TGT_LO.target_lo, Reg.EPO_FENCE_TGT_HI.target_hi, Reg.EPO_FENCE_CMD.issue]
def regsEpo1 : List Field :=
  [Reg.EPO_FENCE_CMD.mode, Reg.EPO_FENCE_STAT.status, Reg.EPO_FENCE_STAT.last_id, Reg.EPO_FENCE_STAT.done_id,
   Reg.EPO_FENCE_STAT.refused_cnt, Reg.EPO_FENCE_DONE_LO.done_lo, Reg.EPO_FENCE_DONE_HI.done_hi, Reg.EPO_STAGE_STAT.used,
   Reg.EPO_STAGE_STAT.overflow, Reg.EPO_WR_REJECT_CNT.count, Reg.EPO_EVQ_BASE_LO.base_lo, Reg.EPO_EVQ_BASE_HI.base_hi,
   Reg.EPO_EVQ_SIZE.log2_entries, Reg.EPO_EVQ_HEAD.head, Reg.EPO_EVQ_TAIL.tail, Reg.EPO_EV_MASK.range_en,
   Reg.EPO_EV_LOST.count, Reg.EPO_ECC_CTRL.ps_period, Reg.EPO_ECC_CTRL.md_period, Reg.EPO_ECC_CTRL.ret_period,
   Reg.EPO_ECC_CTRL.ce_event_thr, Reg.EPO_CE_CNT.count, Reg.EPO_UE_CNT.count, Reg.EPO_UE_ADDR.memory]
def regsEpo2 : List Field :=
  [Reg.EPO_UE_ADDR.word, Reg.EPO_BENCH_SEL.bench, Reg.EPO_BENCH_INFO.resident, Reg.EPO_BENCH_INFO.dirty,
   Reg.EPO_BENCH_INFO.frame, Reg.EPO_BENCH_INFO.fold_epoch, Reg.EPO_DR_CTRL.arm, Reg.EPO_DR_CTRL.trigger,
   Reg.EPO_DR_CTRL.dma_start, Reg.EPO_DR_CTRL.channels, Reg.EPO_DR_CTRL.decimation, Reg.EPO_DR_LEN.pre,
   Reg.EPO_DR_LEN.post, Reg.EPO_DR_CHAN.index, Reg.EPO_DR_CHAN.is_cell, Reg.EPO_DR_CHAN.address,
   Reg.EPO_DR_STAT.short, Reg.EPO_DR_STAT.arm_refused, Reg.EPO_DR_STAT.extra_triggers, Reg.EPO_DR_DMA_LO.addr_lo,
   Reg.EPO_DR_DMA_HI.addr_hi]
/-- Every field of the EPO register map. -/
def regsEpo : List Field := regsEpo0 ++ regsEpo1 ++ regsEpo2


namespace Reg.TIM_CTRL
def pps_out_en : Field := ⟨0x4000, 0, 1, .rw, 0, 0, 1, .one, 0, 1, false⟩
def pps_out_gate : Field := ⟨0x4000, 1, 1, .rw, 0, 0, 1, .one, 0, 1, false⟩
def pps_in_en : Field := ⟨0x4000, 2, 1, .rw, 0, 0, 1, .one, 0, 1, false⟩
def pps_in_edge : Field := ⟨0x4000, 3, 1, .rw, 0, 0, 1, .one, 0, 1, false⟩
end Reg.TIM_CTRL

namespace Reg.TIM_STAT
def quality : Field := ⟨0x4004, 0, 3, .ro, 0, 0, 7, .one, 0, 1, false⟩
def ref_lost : Field := ⟨0x4004, 3, 1, .ro, 0, 0, 1, .one, 0, 1, false⟩
def ptp_held : Field := ⟨0x4004, 4, 2, .ro, 0, 0, 3, .one, 0, 1, false⟩
def cmd_status : Field := ⟨0x4004, 8, 3, .ro, 0, 0, 7, .one, 0, 1, false⟩
end Reg.TIM_STAT

namespace Reg.TIM_COUNT_LO
def count_lo : Field := ⟨0x4008, 0, 32, .ro, 0, 0, 4294967295, .one, 0, 1, false⟩
end Reg.TIM_COUNT_LO

namespace Reg.TIM_COUNT_HI
def count_hi : Field := ⟨0x400C, 0, 32, .ro, 0, 0, 4294967295, .one, 0, 1, false⟩
end Reg.TIM_COUNT_HI

namespace Reg.TIM_NOW_LO
def now_lo : Field := ⟨0x4010, 0, 32, .ro, 0, 0, 4294967295, .one, 0, 1, false⟩
end Reg.TIM_NOW_LO

namespace Reg.TIM_NOW_HI
def now_hi : Field := ⟨0x4014, 0, 32, .ro, 0, 0, 4294967295, .one, 0, 1, false⟩
end Reg.TIM_NOW_HI

namespace Reg.TIM_INC_LO
def frac_lo : Field := ⟨0x4018, 0, 32, .rw, 0, 0, 4294967295, .one, 0, 1, false⟩
end Reg.TIM_INC_LO

namespace Reg.TIM_INC_HI
def frac_hi : Field := ⟨0x401C, 0, 16, .rw, 0, 0, 65535, .one, 0, 1, true⟩
def int : Field := ⟨0x401C, 16, 16, .rw, 32, 0, 65535, .one, 0, 1, true⟩
end Reg.TIM_INC_HI

namespace Reg.TIM_OFF_LO
def off_lo : Field := ⟨0x4020, 0, 32, .ro, 0, 0, 4294967295, .one, 0, 1, false⟩
end Reg.TIM_OFF_LO

namespace Reg.TIM_OFF_HI
def off_hi : Field := ⟨0x4024, 0, 32, .ro, 0, 0, 4294967295, .one, 0, 1, false⟩
end Reg.TIM_OFF_HI

namespace Reg.TIM_OFF_FRAC_LO
def frac_lo : Field := ⟨0x4028, 0, 32, .ro, 0, 0, 4294967295, .one, 0, 1, false⟩
end Reg.TIM_OFF_FRAC_LO

namespace Reg.TIM_OFF_FRAC_HI
def frac_hi : Field := ⟨0x402C, 0, 16, .ro, 0, 0, 65535, .one, 0, 1, false⟩
end Reg.TIM_OFF_FRAC_HI

namespace Reg.TIM_STEP_LO
def step_lo : Field := ⟨0x4030, 0, 32, .st, 0, 0, 4294967295, .one, 0, 1, false⟩
end Reg.TIM_STEP_LO

namespace Reg.TIM_STEP_HI
def step_hi : Field := ⟨0x4034, 0, 32, .st, 0, 0, 4294967295, .one, 0, 1, false⟩
end Reg.TIM_STEP_HI

namespace Reg.TIM_SEAM_LO
def seam_lo : Field := ⟨0x4038, 0, 32, .ro, 0, 0, 4294967295, .one, 0, 1, false⟩
end Reg.TIM_SEAM_LO

namespace Reg.TIM_SEAM_HI
def seam_hi : Field := ⟨0x403C, 0, 32, .ro, 0, 0, 4294967295, .one, 0, 1, false⟩
end Reg.TIM_SEAM_HI

namespace Reg.TIM_ERA_LO
def era_lo : Field := ⟨0x4040, 0, 32, .rw, 0, 0, 4294967295, .one, 0, 1, false⟩
end Reg.TIM_ERA_LO

namespace Reg.TIM_ERA_HI
def era_hi : Field := ⟨0x4044, 0, 16, .rw, 0, 0, 65535, .one, 0, 1, false⟩
end Reg.TIM_ERA_HI

namespace Reg.TIM_QUAL_CMD
def cmd : Field := ⟨0x4048, 0, 3, .wo, 0, 0, 7, .one, 0, 1, true⟩
end Reg.TIM_QUAL_CMD

namespace Reg.TIM_QUAL_WATCH
def ms : Field := ⟨0x404C, 0, 16, .rw, 0, 0, 65535, .one, 0, 1, false⟩
end Reg.TIM_QUAL_WATCH

namespace Reg.TIM_STEP_LIMIT
def lane : Field := ⟨0x4050, 0, 16, .rw, 64, 0, 65535, .one, 0, 1, false⟩
def ptp : Field := ⟨0x4050, 16, 16, .rw, 1280, 0, 65535, .one, 0, 1, false⟩
end Reg.TIM_STEP_LIMIT

namespace Reg.TIM_STEP_CNT
def n : Field := ⟨0x4054, 0, 4, .rw, 8, 1, 15, .one, 0, 1, false⟩
end Reg.TIM_STEP_CNT

namespace Reg.TIM_PPS_CTRL
def width : Field := ⟨0x4058, 0, 8, .rw, 100, 1, 255, .one, 0, 1, false⟩
end Reg.TIM_PPS_CTRL

namespace Reg.TIM_PPS_ADJ
def out : Field := ⟨0x405C, 0, 16, .rw, 0, 0, 65535, .one, 0, 1, false⟩
def inp : Field := ⟨0x405C, 16, 16, .rw, 0, 0, 65535, .one, 0, 1, false⟩
end Reg.TIM_PPS_ADJ

namespace Reg.TIM_PPS_IN_LO
def stamp_lo : Field := ⟨0x4060, 0, 32, .ro, 0, 0, 4294967295, .one, 0, 1, false⟩
end Reg.TIM_PPS_IN_LO

namespace Reg.TIM_PPS_IN_HI
def stamp_hi : Field := ⟨0x4064, 0, 32, .ro, 0, 0, 4294967295, .one, 0, 1, false⟩
end Reg.TIM_PPS_IN_HI

namespace Reg.TIM_PPS_IN_ERR
def err : Field := ⟨0x4068, 0, 32, .ro, 0, 0, 4294967295, .one, 0, 1, false⟩
end Reg.TIM_PPS_IN_ERR

namespace Reg.TIM_PPS_CNT
def edges : Field := ⟨0x406C, 0, 12, .rc, 0, 0, 4095, .one, 0, 1, false⟩
def missing : Field := ⟨0x406C, 12, 12, .rc, 0, 0, 4095, .one, 0, 1, false⟩
def skipped : Field := ⟨0x406C, 24, 8, .rc, 0, 0, 255, .one, 0, 1, false⟩
end Reg.TIM_PPS_CNT

namespace Reg.TIM_LANE_SEL
def lane : Field := ⟨0x4070, 0, 7, .rw, 0, 0, 95, .one, 0, 1, false⟩
end Reg.TIM_LANE_SEL

namespace Reg.TIM_LANE_STAT
def state : Field := ⟨0x4074, 0, 2, .ro, 0, 0, 3, .timLane, 0, 1, false⟩
def run : Field := ⟨0x4074, 4, 4, .ro, 0, 0, 15, .timLane, 0, 1, false⟩
def rejects : Field := ⟨0x4074, 16, 16, .rc, 0, 0, 65535, .timLane, 0, 1, false⟩
end Reg.TIM_LANE_STAT

namespace Reg.TIM_LANE_ACC
def rt_acc : Field := ⟨0x4078, 0, 24, .ro, 0, 0, 16777215, .timLane, 0, 1, false⟩
end Reg.TIM_LANE_ACC

namespace Reg.TIM_LANE_REJ
def rt_cand : Field := ⟨0x407C, 0, 24, .ro, 0, 0, 16777215, .timLane, 0, 1, false⟩
def taken : Field := ⟨0x407C, 24, 5, .ro, 0, 0, 31, .timLane, 0, 1, false⟩
end Reg.TIM_LANE_REJ

namespace Reg.TIM_HELD_MAP0
def held : Field := ⟨0x4080, 0, 32, .ro, 0, 0, 4294967295, .one, 0, 1, false⟩
end Reg.TIM_HELD_MAP0

namespace Reg.TIM_HELD_MAP1
def held : Field := ⟨0x4084, 0, 32, .ro, 0, 0, 4294967295, .one, 0, 1, false⟩
end Reg.TIM_HELD_MAP1

namespace Reg.TIM_HELD_MAP2
def held : Field := ⟨0x4088, 0, 32, .ro, 0, 0, 4294967295, .one, 0, 1, false⟩
end Reg.TIM_HELD_MAP2

namespace Reg.TIM_SNAP_CTRL
def snap : Field := ⟨0x408C, 0, 1, .sc, 0, 0, 1, .one, 0, 1, true⟩
end Reg.TIM_SNAP_CTRL

namespace Reg.TIM_SNAP_CNT_LO
def c_lo : Field := ⟨0x4090, 0, 32, .ro, 0, 0, 4294967295, .one, 0, 1, false⟩
end Reg.TIM_SNAP_CNT_LO

namespace Reg.TIM_SNAP_CNT_HI
def c_hi : Field := ⟨0x4094, 0, 32, .ro, 0, 0, 4294967295, .one, 0, 1, false⟩
end Reg.TIM_SNAP_CNT_HI

namespace Reg.TIM_SNAP_TIME_LO
def t_lo : Field := ⟨0x4098, 0, 32, .ro, 0, 0, 4294967295, .one, 0, 1, false⟩
end Reg.TIM_SNAP_TIME_LO

namespace Reg.TIM_SNAP_TIME_HI
def t_hi : Field := ⟨0x409C, 0, 32, .ro, 0, 0, 4294967295, .one, 0, 1, false⟩
end Reg.TIM_SNAP_TIME_HI

namespace Reg.TIM_ALARM_LO
def at_lo : Field := ⟨0x40A0, 0, 32, .rw, 0, 0, 4294967295, .one, 0, 1, false⟩
end Reg.TIM_ALARM_LO

namespace Reg.TIM_ALARM_HI
def at_hi : Field := ⟨0x40A4, 0, 32, .rw, 0, 0, 4294967295, .one, 0, 1, false⟩
end Reg.TIM_ALARM_HI

namespace Reg.TIM_ALARM_CTRL
def arm : Field := ⟨0x40A8, 0, 1, .sc, 0, 0, 1, .one, 0, 1, true⟩
def graph : Field := ⟨0x40A8, 8, 7, .rw, 0, 0, 127, .one, 0, 1, false⟩
def rel_en : Field := ⟨0x40A8, 15, 1, .rw, 0, 0, 1, .one, 0, 1, false⟩
end Reg.TIM_ALARM_CTRL

namespace Reg.TIM_SUSPECT
def port : Field := ⟨0x40AC, 0, 2, .w1c, 0, 0, 3, .one, 0, 1, false⟩
end Reg.TIM_SUSPECT

namespace Reg.TIM_CORR_CNT
def rate_writes : Field := ⟨0x40B0, 0, 16, .rc, 0, 0, 65535, .one, 0, 1, false⟩
def steps : Field := ⟨0x40B0, 16, 16, .rc, 0, 0, 65535, .one, 0, 1, false⟩
end Reg.TIM_CORR_CNT

namespace Reg.TIM_HOLD_INFO
def ms : Field := ⟨0x40B4, 0, 32, .ro, 0, 0, 4294967295, .one, 0, 1, false⟩
end Reg.TIM_HOLD_INFO

namespace Reg.TIM_STEP_STAT
def last_lo : Field := ⟨0x40B8, 0, 32, .ro, 0, 0, 4294967295, .one, 0, 1, false⟩
end Reg.TIM_STEP_STAT

namespace Reg.TIM_LANE_CTRL
def reacquire : Field := ⟨0x40BC, 0, 1, .sc, 0, 0, 1, .one, 0, 1, true⟩
end Reg.TIM_LANE_CTRL
def regsTim0 : List Field :=
  [Reg.TIM_CTRL.pps_out_en, Reg.TIM_CTRL.pps_out_gate, Reg.TIM_CTRL.pps_in_en, Reg.TIM_CTRL.pps_in_edge,
   Reg.TIM_STAT.quality, Reg.TIM_STAT.ref_lost, Reg.TIM_STAT.ptp_held, Reg.TIM_STAT.cmd_status,
   Reg.TIM_COUNT_LO.count_lo, Reg.TIM_COUNT_HI.count_hi, Reg.TIM_NOW_LO.now_lo, Reg.TIM_NOW_HI.now_hi,
   Reg.TIM_INC_LO.frac_lo, Reg.TIM_INC_HI.frac_hi, Reg.TIM_INC_HI.int, Reg.TIM_OFF_LO.off_lo,
   Reg.TIM_OFF_HI.off_hi, Reg.TIM_OFF_FRAC_LO.frac_lo, Reg.TIM_OFF_FRAC_HI.frac_hi, Reg.TIM_STEP_LO.step_lo,
   Reg.TIM_STEP_HI.step_hi, Reg.TIM_SEAM_LO.seam_lo, Reg.TIM_SEAM_HI.seam_hi, Reg.TIM_ERA_LO.era_lo]
def regsTim1 : List Field :=
  [Reg.TIM_ERA_HI.era_hi, Reg.TIM_QUAL_CMD.cmd, Reg.TIM_QUAL_WATCH.ms, Reg.TIM_STEP_LIMIT.lane,
   Reg.TIM_STEP_LIMIT.ptp, Reg.TIM_STEP_CNT.n, Reg.TIM_PPS_CTRL.width, Reg.TIM_PPS_ADJ.out,
   Reg.TIM_PPS_ADJ.inp, Reg.TIM_PPS_IN_LO.stamp_lo, Reg.TIM_PPS_IN_HI.stamp_hi, Reg.TIM_PPS_IN_ERR.err,
   Reg.TIM_PPS_CNT.edges, Reg.TIM_PPS_CNT.missing, Reg.TIM_PPS_CNT.skipped, Reg.TIM_LANE_SEL.lane,
   Reg.TIM_LANE_STAT.state, Reg.TIM_LANE_STAT.run, Reg.TIM_LANE_STAT.rejects, Reg.TIM_LANE_ACC.rt_acc,
   Reg.TIM_LANE_REJ.rt_cand, Reg.TIM_LANE_REJ.taken, Reg.TIM_HELD_MAP0.held, Reg.TIM_HELD_MAP1.held]
def regsTim2 : List Field :=
  [Reg.TIM_HELD_MAP2.held, Reg.TIM_SNAP_CTRL.snap, Reg.TIM_SNAP_CNT_LO.c_lo, Reg.TIM_SNAP_CNT_HI.c_hi,
   Reg.TIM_SNAP_TIME_LO.t_lo, Reg.TIM_SNAP_TIME_HI.t_hi, Reg.TIM_ALARM_LO.at_lo, Reg.TIM_ALARM_HI.at_hi,
   Reg.TIM_ALARM_CTRL.arm, Reg.TIM_ALARM_CTRL.graph, Reg.TIM_ALARM_CTRL.rel_en, Reg.TIM_SUSPECT.port,
   Reg.TIM_CORR_CNT.rate_writes, Reg.TIM_CORR_CNT.steps, Reg.TIM_HOLD_INFO.ms, Reg.TIM_STEP_STAT.last_lo,
   Reg.TIM_LANE_CTRL.reacquire]
/-- Every field of the TIM register map. -/
def regsTim : List Field := regsTim0 ++ regsTim1 ++ regsTim2


namespace Reg.RED_CTRL
def warm_lanes : Field := ⟨0x5000, 0, 1, .rw, 0, 0, 1, .one, 0, 1, false⟩
def cold_start_permit : Field := ⟨0x5000, 1, 1, .rw, 0, 0, 1, .one, 0, 1, false⟩
def revert_en : Field := ⟨0x5000, 2, 1, .rw, 0, 0, 1, .one, 0, 1, false⟩
def slow_en : Field := ⟨0x5000, 3, 1, .rw, 1, 0, 1, .one, 0, 1, false⟩
def hb_timeout : Field := ⟨0x5000, 8, 8, .rw, 16, 8, 255, .one, 0, 1, false⟩
def listen_ms : Field := ⟨0x5000, 16, 16, .rw, 0, 1, 65535, .one, 0, 1, false⟩
end Reg.RED_CTRL

namespace Reg.RED_STAT
def role : Field := ⟨0x5004, 0, 4, .ro, 0, 0, 15, .one, 0, 1, false⟩
def strap : Field := ⟨0x5004, 4, 2, .ro, 0, 0, 3, .one, 0, 1, false⟩
def line_ok : Field := ⟨0x5004, 6, 1, .ro, 0, 0, 1, .one, 0, 1, false⟩
def ring_ok : Field := ⟨0x5004, 7, 1, .ro, 0, 0, 1, .one, 0, 1, false⟩
def partner_code : Field := ⟨0x5004, 8, 4, .ro, 0, 0, 15, .one, 0, 1, false⟩
def image_ok : Field := ⟨0x5004, 12, 1, .ro, 0, 0, 1, .one, 0, 1, false⟩
def healthy : Field := ⟨0x5004, 13, 1, .ro, 0, 0, 1, .one, 0, 1, false⟩
def handover : Field := ⟨0x5004, 14, 1, .ro, 0, 0, 1, .one, 0, 1, false⟩
def cmd_status : Field := ⟨0x5004, 16, 3, .ro, 0, 0, 7, .one, 0, 1, false⟩
end Reg.RED_STAT

namespace Reg.RED_CMD
def cmd : Field := ⟨0x5008, 0, 3, .wo, 0, 0, 7, .one, 0, 1, true⟩
end Reg.RED_CMD

namespace Reg.RED_CLAIM
def claim : Field := ⟨0x500C, 0, 32, .ro, 0, 0, 4294967295, .one, 0, 1, false⟩
end Reg.RED_CLAIM

namespace Reg.RED_PEER_CLAIM
def claim : Field := ⟨0x5010, 0, 32, .ro, 0, 0, 4294967295, .one, 0, 1, false⟩
end Reg.RED_PEER_CLAIM

namespace Reg.RED_TERM_SEEN
def term : Field := ⟨0x5014, 0, 28, .ro, 0, 0, 268435455, .one, 0, 1, false⟩
end Reg.RED_TERM_SEEN

namespace Reg.RED_HB_CNT
def line_bad : Field := ⟨0x5018, 0, 16, .rc, 0, 0, 65535, .one, 0, 1, false⟩
def ring_bad : Field := ⟨0x5018, 16, 16, .rc, 0, 0, 65535, .one, 0, 1, false⟩
end Reg.RED_HB_CNT

namespace Reg.RED_HB_LOST
def line_losses : Field := ⟨0x501C, 0, 16, .rc, 0, 0, 65535, .one, 0, 1, false⟩
def ring_losses : Field := ⟨0x501C, 16, 16, .rc, 0, 0, 65535, .one, 0, 1, false⟩
end Reg.RED_HB_LOST

namespace Reg.RED_CKPT_CFG
def period : Field := ⟨0x5020, 0, 16, .rw, 0, 1, 65535, .one, 0, 1, false⟩
def early_en : Field := ⟨0x5020, 16, 1, .rw, 1, 0, 1, .one, 0, 1, false⟩
end Reg.RED_CKPT_CFG

namespace Reg.RED_CKPT_STAT
def slot0_valid : Field := ⟨0x5024, 0, 1, .ro, 0, 0, 1, .one, 0, 1, false⟩
def slot1_valid : Field := ⟨0x5024, 1, 1, .ro, 0, 0, 1, .one, 0, 1, false⟩
def newest : Field := ⟨0x5024, 2, 1, .ro, 0, 0, 1, .one, 0, 1, false⟩
def rx_busy : Field := ⟨0x5024, 3, 1, .ro, 0, 0, 1, .one, 0, 1, false⟩
def tx_busy : Field := ⟨0x5024, 4, 1, .ro, 0, 0, 1, .one, 0, 1, false⟩
def last_err : Field := ⟨0x5024, 5, 3, .ro, 0, 0, 7, .one, 0, 1, false⟩
end Reg.RED_CKPT_STAT

namespace Reg.RED_SLOT0_SEQ
def seq : Field := ⟨0x5028, 0, 32, .ro, 0, 0, 4294967295, .one, 0, 1, false⟩
end Reg.RED_SLOT0_SEQ

namespace Reg.RED_SLOT0_EPOCH_LO
def epoch_lo : Field := ⟨0x502C, 0, 32, .ro, 0, 0, 4294967295, .one, 0, 1, false⟩
end Reg.RED_SLOT0_EPOCH_LO

namespace Reg.RED_SLOT0_EPOCH_HI
def epoch_hi : Field := ⟨0x5030, 0, 32, .ro, 0, 0, 4294967295, .one, 0, 1, false⟩
end Reg.RED_SLOT0_EPOCH_HI

namespace Reg.RED_SLOT1_SEQ
def seq : Field := ⟨0x5034, 0, 32, .ro, 0, 0, 4294967295, .one, 0, 1, false⟩
end Reg.RED_SLOT1_SEQ

namespace Reg.RED_SLOT1_EPOCH_LO
def epoch_lo : Field := ⟨0x5038, 0, 32, .ro, 0, 0, 4294967295, .one, 0, 1, false⟩
end Reg.RED_SLOT1_EPOCH_LO

namespace Reg.RED_SLOT1_EPOCH_HI
def epoch_hi : Field := ⟨0x503C, 0, 32, .ro, 0, 0, 4294967295, .one, 0, 1, false⟩
end Reg.RED_SLOT1_EPOCH_HI

namespace Reg.RED_CKPT_CNT
def complete : Field := ⟨0x5040, 0, 16, .rc, 0, 0, 65535, .one, 0, 1, false⟩
def invalid : Field := ⟨0x5040, 16, 16, .rc, 0, 0, 65535, .one, 0, 1, false⟩
end Reg.RED_CKPT_CNT

namespace Reg.RED_CKPT_SIZE
def bytes : Field := ⟨0x5044, 0, 17, .ro, 0, 0, 131071, .one, 0, 1, false⟩
end Reg.RED_CKPT_SIZE

namespace Reg.RED_REVERT_CFG
def holdoff : Field := ⟨0x5048, 0, 16, .rw, 10, 1, 65535, .one, 0, 1, false⟩
end Reg.RED_REVERT_CFG

namespace Reg.RED_REVERT_STAT
def healthy_s : Field := ⟨0x504C, 0, 16, .ro, 0, 0, 65535, .one, 0, 1, false⟩
def last_abort : Field := ⟨0x504C, 16, 4, .ro, 0, 0, 15, .one, 0, 1, false⟩
end Reg.RED_REVERT_STAT

namespace Reg.RED_HANDOVER_LO
def h_lo : Field := ⟨0x5050, 0, 32, .ro, 0, 0, 4294967295, .one, 0, 1, false⟩
end Reg.RED_HANDOVER_LO

namespace Reg.RED_HANDOVER_HI
def h_hi : Field := ⟨0x5054, 0, 32, .ro, 0, 0, 4294967295, .one, 0, 1, false⟩
end Reg.RED_HANDOVER_HI

namespace Reg.RED_TAKEOVER_LO
def epoch_lo : Field := ⟨0x5058, 0, 32, .ro, 0, 0, 4294967295, .one, 0, 1, false⟩
end Reg.RED_TAKEOVER_LO

namespace Reg.RED_TAKEOVER_HI
def epoch_hi : Field := ⟨0x505C, 0, 32, .ro, 0, 0, 4294967295, .one, 0, 1, false⟩
end Reg.RED_TAKEOVER_HI

namespace Reg.RED_GAP
def ns : Field := ⟨0x5060, 0, 32, .ro, 0, 0, 4294967295, .one, 0, 1, false⟩
end Reg.RED_GAP

namespace Reg.RED_STALE_MSG
def count : Field := ⟨0x5064, 0, 32, .rc, 0, 0, 4294967295, .one, 0, 1, false⟩
end Reg.RED_STALE_MSG

namespace Reg.RED_DEMOTE_LANE
def lane : Field := ⟨0x5068, 0, 7, .ro, 0, 0, 127, .one, 0, 1, false⟩
def via_hb : Field := ⟨0x5068, 8, 1, .ro, 0, 0, 1, .one, 0, 1, false⟩
end Reg.RED_DEMOTE_LANE

namespace Reg.RED_DEMOTE_H
def h : Field := ⟨0x506C, 0, 32, .ro, 0, 0, 4294967295, .one, 0, 1, false⟩
end Reg.RED_DEMOTE_H

namespace Reg.RED_RING_CFG
def address : Field := ⟨0x5070, 0, 3, .ro, 0, 0, 7, .one, 0, 1, false⟩
def partner : Field := ⟨0x5070, 4, 3, .ro, 0, 0, 7, .one, 0, 1, false⟩
def units : Field := ⟨0x5070, 8, 3, .ro, 0, 0, 7, .one, 0, 1, false⟩
end Reg.RED_RING_CFG

namespace Reg.RED_RING_STAT
def east_up : Field := ⟨0x5074, 0, 1, .ro, 0, 0, 1, .one, 0, 1, false⟩
def west_up : Field := ⟨0x5074, 1, 1, .ro, 0, 0, 1, .one, 0, 1, false⟩
def east_addr : Field := ⟨0x5074, 4, 3, .ro, 0, 0, 7, .one, 0, 1, false⟩
def west_addr : Field := ⟨0x5074, 8, 3, .ro, 0, 0, 7, .one, 0, 1, false⟩
def east_bypassed : Field := ⟨0x5074, 12, 2, .ro, 0, 0, 3, .one, 0, 1, false⟩
def west_bypassed : Field := ⟨0x5074, 14, 2, .ro, 0, 0, 3, .one, 0, 1, false⟩
end Reg.RED_RING_STAT

namespace Reg.RED_RING_ERR_E
def crc : Field := ⟨0x5078, 0, 16, .rc, 0, 0, 65535, .one, 0, 1, false⟩
def lock_losses : Field := ⟨0x5078, 16, 16, .rc, 0, 0, 65535, .one, 0, 1, false⟩
end Reg.RED_RING_ERR_E

namespace Reg.RED_RING_ERR_W
def crc : Field := ⟨0x507C, 0, 16, .rc, 0, 0, 65535, .one, 0, 1, false⟩
def lock_losses : Field := ⟨0x507C, 16, 16, .rc, 0, 0, 65535, .one, 0, 1, false⟩
end Reg.RED_RING_ERR_W

namespace Reg.RED_MIRROR_STAT
def words : Field := ⟨0x5080, 0, 16, .ro, 0, 0, 65535, .one, 0, 1, false⟩
def active : Field := ⟨0x5080, 16, 1, .ro, 0, 0, 1, .one, 0, 1, false⟩
def gap : Field := ⟨0x5080, 17, 1, .w1c, 0, 0, 1, .one, 0, 1, false⟩
def waited : Field := ⟨0x5080, 18, 1, .w1c, 0, 0, 1, .one, 0, 1, false⟩
end Reg.RED_MIRROR_STAT

namespace Reg.RED_DIGEST
def digest : Field := ⟨0x5084, 0, 32, .ro, 0, 0, 4294967295, .one, 0, 1, false⟩
end Reg.RED_DIGEST

namespace Reg.RED_PEER_DIGEST
def digest : Field := ⟨0x5088, 0, 32, .ro, 0, 0, 4294967295, .one, 0, 1, false⟩
end Reg.RED_PEER_DIGEST

namespace Reg.RED_SLOW_STAT
def benches : Field := ⟨0x508C, 0, 7, .ro, 0, 0, 127, .one, 0, 1, false⟩
def sweeps : Field := ⟨0x508C, 16, 16, .rc, 0, 0, 65535, .one, 0, 1, false⟩
end Reg.RED_SLOW_STAT

namespace Reg.RED_ROLE_CNT
def takeovers : Field := ⟨0x5090, 0, 16, .rc, 0, 0, 65535, .one, 0, 1, false⟩
def handovers : Field := ⟨0x5090, 16, 16, .rc, 0, 0, 65535, .one, 0, 1, false⟩
end Reg.RED_ROLE_CNT

namespace Reg.RED_PEER_HB
def code : Field := ⟨0x5094, 0, 4, .ro, 0, 0, 15, .one, 0, 1, false⟩
def rank : Field := ⟨0x5094, 4, 4, .ro, 0, 0, 15, .one, 0, 1, false⟩
def term : Field := ⟨0x5094, 8, 16, .ro, 0, 0, 65535, .one, 0, 1, false⟩
end Reg.RED_PEER_HB

namespace Reg.RED_FLAGS
def demoted : Field := ⟨0x5098, 0, 1, .w1c, 0, 0, 1, .one, 0, 1, false⟩
def no_image : Field := ⟨0x5098, 1, 1, .w1c, 0, 0, 1, .one, 0, 1, false⟩
def digest : Field := ⟨0x5098, 2, 1, .w1c, 0, 0, 1, .one, 0, 1, false⟩
def strap : Field := ⟨0x5098, 3, 1, .w1c, 0, 0, 1, .one, 0, 1, false⟩
def partner_reset : Field := ⟨0x5098, 4, 1, .w1c, 0, 0, 1, .one, 0, 1, false⟩
def stale : Field := ⟨0x5098, 5, 1, .w1c, 0, 0, 1, .one, 0, 1, false⟩
end Reg.RED_FLAGS

namespace Reg.RED_WAKE_TIME
def wake : Field := ⟨0x509C, 0, 16, .ro, 0, 0, 65535, .one, 0, 1, false⟩
def restore : Field := ⟨0x509C, 16, 16, .ro, 0, 0, 65535, .one, 0, 1, false⟩
end Reg.RED_WAKE_TIME
def regsRed0 : List Field :=
  [Reg.RED_CTRL.warm_lanes, Reg.RED_CTRL.cold_start_permit, Reg.RED_CTRL.revert_en, Reg.RED_CTRL.slow_en,
   Reg.RED_CTRL.hb_timeout, Reg.RED_CTRL.listen_ms, Reg.RED_STAT.role, Reg.RED_STAT.strap,
   Reg.RED_STAT.line_ok, Reg.RED_STAT.ring_ok, Reg.RED_STAT.partner_code, Reg.RED_STAT.image_ok,
   Reg.RED_STAT.healthy, Reg.RED_STAT.handover, Reg.RED_STAT.cmd_status, Reg.RED_CMD.cmd,
   Reg.RED_CLAIM.claim, Reg.RED_PEER_CLAIM.claim, Reg.RED_TERM_SEEN.term, Reg.RED_HB_CNT.line_bad,
   Reg.RED_HB_CNT.ring_bad, Reg.RED_HB_LOST.line_losses, Reg.RED_HB_LOST.ring_losses, Reg.RED_CKPT_CFG.period]
def regsRed1 : List Field :=
  [Reg.RED_CKPT_CFG.early_en, Reg.RED_CKPT_STAT.slot0_valid, Reg.RED_CKPT_STAT.slot1_valid, Reg.RED_CKPT_STAT.newest,
   Reg.RED_CKPT_STAT.rx_busy, Reg.RED_CKPT_STAT.tx_busy, Reg.RED_CKPT_STAT.last_err, Reg.RED_SLOT0_SEQ.seq,
   Reg.RED_SLOT0_EPOCH_LO.epoch_lo, Reg.RED_SLOT0_EPOCH_HI.epoch_hi, Reg.RED_SLOT1_SEQ.seq, Reg.RED_SLOT1_EPOCH_LO.epoch_lo,
   Reg.RED_SLOT1_EPOCH_HI.epoch_hi, Reg.RED_CKPT_CNT.complete, Reg.RED_CKPT_CNT.invalid, Reg.RED_CKPT_SIZE.bytes,
   Reg.RED_REVERT_CFG.holdoff, Reg.RED_REVERT_STAT.healthy_s, Reg.RED_REVERT_STAT.last_abort, Reg.RED_HANDOVER_LO.h_lo,
   Reg.RED_HANDOVER_HI.h_hi, Reg.RED_TAKEOVER_LO.epoch_lo, Reg.RED_TAKEOVER_HI.epoch_hi, Reg.RED_GAP.ns]
def regsRed2 : List Field :=
  [Reg.RED_STALE_MSG.count, Reg.RED_DEMOTE_LANE.lane, Reg.RED_DEMOTE_LANE.via_hb, Reg.RED_DEMOTE_H.h,
   Reg.RED_RING_CFG.address, Reg.RED_RING_CFG.partner, Reg.RED_RING_CFG.units, Reg.RED_RING_STAT.east_up,
   Reg.RED_RING_STAT.west_up, Reg.RED_RING_STAT.east_addr, Reg.RED_RING_STAT.west_addr, Reg.RED_RING_STAT.east_bypassed,
   Reg.RED_RING_STAT.west_bypassed, Reg.RED_RING_ERR_E.crc, Reg.RED_RING_ERR_E.lock_losses, Reg.RED_RING_ERR_W.crc,
   Reg.RED_RING_ERR_W.lock_losses, Reg.RED_MIRROR_STAT.words, Reg.RED_MIRROR_STAT.active, Reg.RED_MIRROR_STAT.gap,
   Reg.RED_MIRROR_STAT.waited, Reg.RED_DIGEST.digest, Reg.RED_PEER_DIGEST.digest, Reg.RED_SLOW_STAT.benches]
def regsRed3 : List Field :=
  [Reg.RED_SLOW_STAT.sweeps, Reg.RED_ROLE_CNT.takeovers, Reg.RED_ROLE_CNT.handovers, Reg.RED_PEER_HB.code,
   Reg.RED_PEER_HB.rank, Reg.RED_PEER_HB.term, Reg.RED_FLAGS.demoted, Reg.RED_FLAGS.no_image,
   Reg.RED_FLAGS.digest, Reg.RED_FLAGS.strap, Reg.RED_FLAGS.partner_reset, Reg.RED_FLAGS.stale,
   Reg.RED_WAKE_TIME.wake, Reg.RED_WAKE_TIME.restore]
/-- Every field of the RED register map. -/
def regsRed : List Field := regsRed0 ++ regsRed1 ++ regsRed2 ++ regsRed3


namespace Reg.SAF_STAT
def state : Field := ⟨0x6000, 0, 3, .ro, 4, 0, 7, .one, 0, 1, false⟩
def clk_ok : Field := ⟨0x6000, 3, 1, .ro, 0, 0, 1, .one, 0, 1, false⟩
def chan_a_ok : Field := ⟨0x6000, 4, 1, .ro, 0, 0, 1, .one, 0, 1, false⟩
def chan_b_ok : Field := ⟨0x6000, 5, 1, .ro, 0, 0, 1, .one, 0, 1, false⟩
end Reg.SAF_STAT

namespace Reg.SAF_CFG_DIGEST
def digest : Field := ⟨0x6004, 0, 32, .ro, 0, 0, 4294967295, .one, 0, 1, false⟩
end Reg.SAF_CFG_DIGEST

namespace Reg.SAF_CFG_INFO
def pairs : Field := ⟨0x6008, 0, 8, .ro, 0, 0, 255, .one, 0, 1, false⟩
def pchs : Field := ⟨0x6008, 8, 4, .ro, 0, 0, 15, .one, 0, 1, false⟩
def souts : Field := ⟨0x6008, 12, 4, .ro, 0, 0, 15, .one, 0, 1, false⟩
def expiry_action : Field := ⟨0x6008, 16, 2, .ro, 0, 0, 3, .one, 0, 1, false⟩
def deg_window : Field := ⟨0x6008, 20, 10, .ro, 0, 0, 1023, .one, 0, 1, false⟩
end Reg.SAF_CFG_INFO

namespace Reg.SAF_TP_CFG
def width : Field := ⟨0x600C, 0, 16, .ro, 250, 0, 65535, .one, 0, 1, false⟩
def period : Field := ⟨0x600C, 16, 16, .ro, 100, 0, 65535, .one, 0, 1, false⟩
end Reg.SAF_TP_CFG

namespace Reg.SAF_DEG_STAT
def remaining : Field := ⟨0x6010, 0, 10, .ro, 0, 0, 1023, .one, 0, 1, false⟩
def cause : Field := ⟨0x6010, 12, 4, .ro, 0, 0, 15, .one, 0, 1, false⟩
end Reg.SAF_DEG_STAT

namespace Reg.SAF_FAULT
def test_fail : Field := ⟨0x6014, 0, 8, .w1c, 0, 0, 255, .one, 0, 1, false⟩
def pair_disc : Field := ⟨0x6014, 8, 8, .w1c, 0, 0, 255, .one, 0, 1, false⟩
def meas_disc : Field := ⟨0x6014, 16, 4, .w1c, 0, 0, 15, .one, 0, 1, false⟩
def internal : Field := ⟨0x6014, 20, 1, .w1c, 0, 0, 1, .one, 0, 1, false⟩
def clock : Field := ⟨0x6014, 21, 1, .w1c, 0, 0, 1, .one, 0, 1, false⟩
def readback : Field := ⟨0x6014, 22, 1, .w1c, 0, 0, 1, .one, 0, 1, false⟩
end Reg.SAF_FAULT

namespace Reg.SAF_DEMAND
def pair : Field := ⟨0x6018, 0, 8, .ro, 0, 0, 255, .one, 0, 1, false⟩
def req : Field := ⟨0x6018, 8, 8, .ro, 0, 0, 255, .one, 0, 1, false⟩
def pch : Field := ⟨0x6018, 16, 4, .ro, 0, 0, 15, .one, 0, 1, false⟩
end Reg.SAF_DEMAND

namespace Reg.SAF_STOP_STAT
def stopping : Field := ⟨0x601C, 0, 16, .ro, 0, 0, 65535, .one, 0, 1, false⟩
def blocked : Field := ⟨0x601C, 16, 16, .ro, 65535, 0, 65535, .one, 0, 1, false⟩
end Reg.SAF_STOP_STAT

namespace Reg.SAF_HOLD
def saf_hold : Field := ⟨0x6020, 0, 16, .ro, 65535, 0, 65535, .one, 0, 1, false⟩
end Reg.SAF_HOLD

namespace Reg.SAF_UNLOCK
def key : Field := ⟨0x6024, 0, 16, .wo, 0, 0, 65535, .one, 0, 1, true⟩
end Reg.SAF_UNLOCK

namespace Reg.SAF_CMD
def targets : Field := ⟨0x6028, 0, 16, .wo, 0, 0, 65535, .one, 0, 1, true⟩
def cmd : Field := ⟨0x6028, 16, 3, .wo, 0, 0, 7, .one, 0, 1, true⟩
end Reg.SAF_CMD

namespace Reg.SAF_CMD_STAT
def status : Field := ⟨0x602C, 0, 3, .ro, 0, 0, 7, .one, 0, 1, false⟩
def refused : Field := ⟨0x602C, 16, 16, .ro, 0, 0, 65535, .one, 0, 1, false⟩
end Reg.SAF_CMD_STAT

namespace Reg.SAF_CLK_MON
def count : Field := ⟨0x6030, 0, 16, .ro, 0, 0, 65535, .one, 0, 1, false⟩
end Reg.SAF_CLK_MON

namespace Reg.SAF_STP_STAT
def pulsing : Field := ⟨0x6034, 0, 4, .ro, 0, 0, 15, .one, 0, 1, false⟩
def fault : Field := ⟨0x6034, 4, 4, .w1c, 0, 0, 15, .one, 0, 1, false⟩
end Reg.SAF_STP_STAT

namespace Reg.SAF_CNT
def demands : Field := ⟨0x6038, 0, 16, .rc, 0, 0, 65535, .one, 0, 1, false⟩
def tests_failed : Field := ⟨0x6038, 16, 16, .rc, 0, 0, 65535, .one, 0, 1, false⟩
end Reg.SAF_CNT

namespace Reg.SAF_SOUT_STAT
def on : Field := ⟨0x603C, 0, 4, .ro, 0, 0, 15, .one, 0, 1, false⟩
def readback : Field := ⟨0x603C, 8, 4, .w1c, 0, 0, 15, .one, 0, 1, false⟩
def standby_on : Field := ⟨0x603C, 12, 4, .ro, 0, 0, 15, .one, 0, 1, false⟩
end Reg.SAF_SOUT_STAT

namespace Reg.SAF_PAIR_CFG
def mode : Field := ⟨0x6100, 0, 2, .ro, 0, 0, 3, .stride, 8, 8, false⟩
def stp_a : Field := ⟨0x6100, 2, 2, .ro, 0, 0, 3, .stride, 8, 8, false⟩
def stp_b : Field := ⟨0x6100, 4, 2, .ro, 0, 0, 3, .stride, 8, 8, false⟩
def kind : Field := ⟨0x6100, 6, 1, .ro, 0, 0, 1, .stride, 8, 8, false⟩
def filter : Field := ⟨0x6100, 8, 10, .ro, 0, 0, 1023, .stride, 8, 8, false⟩
def disc : Field := ⟨0x6100, 18, 8, .ro, 0, 0, 255, .stride, 8, 8, false⟩
end Reg.SAF_PAIR_CFG

namespace Reg.SAF_PAIR_STAT
def targets : Field := ⟨0x6104, 0, 16, .ro, 0, 0, 65535, .stride, 8, 8, false⟩
def ch_a : Field := ⟨0x6104, 16, 1, .ro, 0, 0, 1, .stride, 8, 8, false⟩
def ch_b : Field := ⟨0x6104, 17, 1, .ro, 0, 0, 1, .stride, 8, 8, false⟩
def demand : Field := ⟨0x6104, 18, 1, .ro, 0, 0, 1, .stride, 8, 8, false⟩
def single : Field := ⟨0x6104, 19, 1, .ro, 0, 0, 1, .stride, 8, 8, false⟩
def test_fail : Field := ⟨0x6104, 20, 2, .ro, 0, 0, 3, .stride, 8, 8, false⟩
def disc : Field := ⟨0x6104, 22, 1, .w1c, 0, 0, 1, .stride, 8, 8, false⟩
def demanded : Field := ⟨0x6104, 23, 1, .w1c, 0, 0, 1, .stride, 8, 8, false⟩
end Reg.SAF_PAIR_STAT

namespace Reg.SAF_TGT
def state : Field := ⟨0x6200, 0, 3, .ro, 0, 0, 7, .stride, 4, 16, false⟩
def monitored : Field := ⟨0x6200, 3, 1, .ro, 0, 0, 1, .stride, 4, 16, false⟩
def channel : Field := ⟨0x6200, 4, 2, .ro, 0, 0, 3, .stride, 4, 16, false⟩
def ramp : Field := ⟨0x6200, 6, 14, .ro, 0, 0, 16383, .stride, 4, 16, false⟩
def margin : Field := ⟨0x6200, 20, 12, .ro, 0, 0, 4095, .stride, 4, 16, false⟩
end Reg.SAF_TGT

namespace Reg.SAF_PCH_CFG
def func : Field := ⟨0x6300, 0, 2, .ro, 0, 0, 3, .stride, 16, 4, false⟩
def in_a : Field := ⟨0x6300, 2, 5, .ro, 0, 0, 31, .stride, 16, 4, false⟩
def in_b : Field := ⟨0x6300, 7, 5, .ro, 0, 0, 31, .stride, 16, 4, false⟩
def vchan : Field := ⟨0x6300, 12, 2, .ro, 0, 0, 3, .stride, 16, 4, false⟩
def dir : Field := ⟨0x6300, 14, 1, .ro, 0, 0, 1, .stride, 16, 4, false⟩
def kind : Field := ⟨0x6300, 15, 1, .ro, 0, 0, 1, .stride, 16, 4, false⟩
def targets : Field := ⟨0x6300, 16, 16, .ro, 0, 0, 65535, .stride, 16, 4, false⟩
end Reg.SAF_PCH_CFG

namespace Reg.SAF_PCH_LIMIT
def limit : Field := ⟨0x6304, 0, 32, .ro, 0, 0, 4294967295, .stride, 16, 4, false⟩
end Reg.SAF_PCH_LIMIT

namespace Reg.SAF_PCH_VAL
def x : Field := ⟨0x6308, 0, 32, .ro, 0, 0, 4294967295, .stride, 16, 4, false⟩
end Reg.SAF_PCH_VAL

namespace Reg.SAF_PCH_STAT
def violation : Field := ⟨0x630C, 0, 1, .ro, 0, 0, 1, .stride, 16, 4, false⟩
def disc : Field := ⟨0x630C, 1, 1, .w1c, 0, 0, 1, .stride, 16, 4, false⟩
def stale_a : Field := ⟨0x630C, 2, 1, .ro, 0, 0, 1, .stride, 16, 4, false⟩
def stale_b : Field := ⟨0x630C, 3, 1, .ro, 0, 0, 1, .stride, 16, 4, false⟩
def t_resp : Field := ⟨0x630C, 8, 8, .ro, 0, 0, 255, .stride, 16, 4, false⟩
def violations : Field := ⟨0x630C, 16, 16, .rc, 0, 0, 65535, .stride, 16, 4, false⟩
end Reg.SAF_PCH_STAT
def regsSaf0 : List Field :=
  [Reg.SAF_STAT.state, Reg.SAF_STAT.clk_ok, Reg.SAF_STAT.chan_a_ok, Reg.SAF_STAT.chan_b_ok,
   Reg.SAF_CFG_DIGEST.digest, Reg.SAF_CFG_INFO.pairs, Reg.SAF_CFG_INFO.pchs, Reg.SAF_CFG_INFO.souts,
   Reg.SAF_CFG_INFO.expiry_action, Reg.SAF_CFG_INFO.deg_window, Reg.SAF_TP_CFG.width, Reg.SAF_TP_CFG.period,
   Reg.SAF_DEG_STAT.remaining, Reg.SAF_DEG_STAT.cause, Reg.SAF_FAULT.test_fail, Reg.SAF_FAULT.pair_disc,
   Reg.SAF_FAULT.meas_disc, Reg.SAF_FAULT.internal, Reg.SAF_FAULT.clock, Reg.SAF_FAULT.readback,
   Reg.SAF_DEMAND.pair, Reg.SAF_DEMAND.req, Reg.SAF_DEMAND.pch, Reg.SAF_STOP_STAT.stopping]
def regsSaf1 : List Field :=
  [Reg.SAF_STOP_STAT.blocked, Reg.SAF_HOLD.saf_hold, Reg.SAF_UNLOCK.key, Reg.SAF_CMD.targets,
   Reg.SAF_CMD.cmd, Reg.SAF_CMD_STAT.status, Reg.SAF_CMD_STAT.refused, Reg.SAF_CLK_MON.count,
   Reg.SAF_STP_STAT.pulsing, Reg.SAF_STP_STAT.fault, Reg.SAF_CNT.demands, Reg.SAF_CNT.tests_failed,
   Reg.SAF_SOUT_STAT.on, Reg.SAF_SOUT_STAT.readback, Reg.SAF_SOUT_STAT.standby_on, Reg.SAF_PAIR_CFG.mode,
   Reg.SAF_PAIR_CFG.stp_a, Reg.SAF_PAIR_CFG.stp_b, Reg.SAF_PAIR_CFG.kind, Reg.SAF_PAIR_CFG.filter,
   Reg.SAF_PAIR_CFG.disc, Reg.SAF_PAIR_STAT.targets, Reg.SAF_PAIR_STAT.ch_a, Reg.SAF_PAIR_STAT.ch_b]
def regsSaf2 : List Field :=
  [Reg.SAF_PAIR_STAT.demand, Reg.SAF_PAIR_STAT.single, Reg.SAF_PAIR_STAT.test_fail, Reg.SAF_PAIR_STAT.disc,
   Reg.SAF_PAIR_STAT.demanded, Reg.SAF_TGT.state, Reg.SAF_TGT.monitored, Reg.SAF_TGT.channel,
   Reg.SAF_TGT.ramp, Reg.SAF_TGT.margin, Reg.SAF_PCH_CFG.func, Reg.SAF_PCH_CFG.in_a,
   Reg.SAF_PCH_CFG.in_b, Reg.SAF_PCH_CFG.vchan, Reg.SAF_PCH_CFG.dir, Reg.SAF_PCH_CFG.kind,
   Reg.SAF_PCH_CFG.targets, Reg.SAF_PCH_LIMIT.limit, Reg.SAF_PCH_VAL.x, Reg.SAF_PCH_STAT.violation,
   Reg.SAF_PCH_STAT.disc, Reg.SAF_PCH_STAT.stale_a, Reg.SAF_PCH_STAT.stale_b, Reg.SAF_PCH_STAT.t_resp]
def regsSaf3 : List Field :=
  [Reg.SAF_PCH_STAT.violations]
/-- Every field of the SAF register map. -/
def regsSaf : List Field := regsSaf0 ++ regsSaf1 ++ regsSaf2 ++ regsSaf3


namespace Reg.ADC_CTRL
def enable : Field := ⟨0x7000, 0, 1, .rw, 0, 0, 1, .one, 0, 1, false⟩
def bg_cal : Field := ⟨0x7000, 1, 1, .rw, 1, 0, 1, .one, 0, 1, false⟩
def stream_en : Field := ⟨0x7000, 2, 1, .rw, 1, 0, 1, .one, 0, 1, false⟩
def clip_ev : Field := ⟨0x7000, 3, 1, .rw, 1, 0, 1, .one, 0, 1, false⟩
end Reg.ADC_CTRL

namespace Reg.ADC_STAT
def cal_valid : Field := ⟨0x7004, 0, 4, .ro, 0, 0, 15, .one, 0, 1, false⟩
def ds : Field := ⟨0x7004, 4, 4, .ro, 0, 0, 15, .one, 0, 1, false⟩
def running : Field := ⟨0x7004, 8, 4, .ro, 0, 0, 15, .one, 0, 1, false⟩
end Reg.ADC_STAT

namespace Reg.ADC_SPOIL
def count : Field := ⟨0x7008, 0, 32, .rc, 0, 0, 4294967295, .one, 0, 1, false⟩
end Reg.ADC_SPOIL

namespace Reg.ADC_INJ_SW
def request : Field := ⟨0x700C, 0, 16, .wo, 0, 0, 65535, .one, 0, 1, true⟩
end Reg.ADC_INJ_SW

namespace Reg.ADC_CLIP
def clip : Field := ⟨0x7010, 0, 32, .w1c, 0, 0, 4294967295, .one, 0, 1, false⟩
end Reg.ADC_CLIP

namespace Reg.ADC_SETTLE_CNT
def count : Field := ⟨0x7014, 0, 32, .rc, 0, 0, 4294967295, .one, 0, 1, false⟩
end Reg.ADC_SETTLE_CNT

namespace Reg.ADC_SYSCAL_CTRL
def input : Field := ⟨0x7018, 0, 5, .rw, 0, 0, 31, .one, 0, 1, false⟩
def step : Field := ⟨0x7018, 5, 1, .rw, 0, 0, 1, .one, 0, 1, false⟩
def start : Field := ⟨0x7018, 6, 1, .sc, 0, 0, 1, .one, 0, 1, true⟩
def avg : Field := ⟨0x7018, 8, 4, .rw, 8, 0, 12, .one, 0, 1, false⟩
end Reg.ADC_SYSCAL_CTRL

namespace Reg.ADC_SYSCAL_REF
def x_fs : Field := ⟨0x701C, 0, 32, .rw, 0, 0, 4294967295, .one, 0, 1, false⟩
end Reg.ADC_SYSCAL_REF

namespace Reg.ADC_SYSCAL_STAT
def zero_done : Field := ⟨0x7020, 0, 1, .ro, 0, 0, 1, .one, 0, 1, false⟩
def full_done : Field := ⟨0x7020, 1, 1, .ro, 0, 0, 1, .one, 0, 1, false⟩
def status : Field := ⟨0x7020, 2, 3, .ro, 0, 0, 7, .one, 0, 1, false⟩
def taken : Field := ⟨0x7020, 16, 16, .ro, 0, 0, 65535, .one, 0, 1, false⟩
end Reg.ADC_SYSCAL_STAT

namespace Reg.ADC_SYSCAL_GAIN
def g : Field := ⟨0x7024, 0, 32, .ro, 0, 0, 4294967295, .one, 0, 1, false⟩
end Reg.ADC_SYSCAL_GAIN

namespace Reg.ADC_SYSCAL_OFFSET
def o : Field := ⟨0x7028, 0, 32, .ro, 0, 0, 4294967295, .one, 0, 1, false⟩
end Reg.ADC_SYSCAL_OFFSET

namespace Reg.ADC_SEQ_SEL
def core : Field := ⟨0x702C, 0, 2, .rw, 0, 0, 3, .one, 0, 1, false⟩
def inj : Field := ⟨0x702C, 2, 1, .rw, 0, 0, 1, .one, 0, 1, false⟩
def entry : Field := ⟨0x702C, 3, 4, .rw, 0, 0, 15, .one, 0, 1, false⟩
end Reg.ADC_SEQ_SEL

namespace Reg.ADC_SEQ_ENTRY
def input : Field := ⟨0x7030, 0, 3, .rw, 0, 0, 7, .seqEntry, 0, 1, false⟩
def gain : Field := ⟨0x7030, 3, 2, .rw, 0, 0, 3, .seqEntry, 0, 1, false⟩
def rounds : Field := ⟨0x7030, 5, 4, .rw, 0, 0, 15, .seqEntry, 0, 1, false⟩
def lead : Field := ⟨0x7030, 9, 1, .rw, 0, 0, 1, .seqEntry, 0, 1, false⟩
def trigger : Field := ⟨0x7030, 10, 3, .rw, 0, 0, 4, .seqEntry, 0, 1, false⟩
def pin : Field := ⟨0x7030, 13, 3, .rw, 0, 0, 7, .seqEntry, 0, 1, false⟩
def offset : Field := ⟨0x7030, 16, 16, .rw, 0, 0, 39999, .seqEntry, 0, 1, false⟩
end Reg.ADC_SEQ_ENTRY

namespace Reg.ADC_SV_SEL
def sub : Field := ⟨0x7034, 0, 4, .rw, 0, 0, 15, .one, 0, 1, false⟩
end Reg.ADC_SV_SEL

namespace Reg.ADC_SV_STAT
def valid : Field := ⟨0x7038, 0, 1, .ro, 0, 0, 1, .sub, 0, 1, false⟩
def timeout : Field := ⟨0x7038, 1, 1, .ro, 0, 0, 1, .sub, 0, 1, false⟩
def confrev_err : Field := ⟨0x7038, 2, 1, .w1c, 0, 0, 1, .sub, 0, 1, false⟩
def gap : Field := ⟨0x7038, 3, 1, .w1c, 0, 0, 1, .sub, 0, 1, false⟩
def synch : Field := ⟨0x7038, 5, 2, .ro, 0, 0, 3, .sub, 0, 1, false⟩
def smpcnt : Field := ⟨0x7038, 16, 16, .ro, 0, 0, 65535, .sub, 0, 1, false⟩
end Reg.ADC_SV_STAT

namespace Reg.ADC_SV_CNT
def dropped : Field := ⟨0x703C, 0, 16, .rc, 0, 0, 65535, .sub, 0, 1, false⟩
def missing : Field := ⟨0x703C, 16, 16, .rc, 0, 0, 65535, .sub, 0, 1, false⟩
end Reg.ADC_SV_CNT

namespace Reg.ADC_CORE_CTRL
def mode : Field := ⟨0x7100, 0, 2, .rw, 0, 0, 2, .stride, 32, 4, false⟩
def reg_len : Field := ⟨0x7100, 2, 4, .rw, 0, 0, 15, .stride, 32, 4, false⟩
def inj_len : Field := ⟨0x7100, 6, 3, .rw, 0, 0, 4, .stride, 32, 4, false⟩
def reg_trig : Field := ⟨0x7100, 9, 3, .rw, 0, 0, 5, .stride, 32, 4, false⟩
def reg_go : Field := ⟨0x7100, 12, 1, .sc, 0, 0, 1, .stride, 32, 4, true⟩
def held : Field := ⟨0x7100, 13, 1, .ro, 0, 0, 1, .stride, 32, 4, false⟩
end Reg.ADC_CORE_CTRL

namespace Reg.ADC_CORE_TRIG
def offset : Field := ⟨0x7104, 0, 16, .rw, 0, 0, 65535, .stride, 32, 4, false⟩
def param : Field := ⟨0x7104, 16, 8, .rw, 0, 0, 255, .stride, 32, 4, false⟩
end Reg.ADC_CORE_TRIG

namespace Reg.ADC_DS_CFG
def half_osr : Field := ⟨0x7108, 0, 10, .rw, 25, 25, 400, .stride, 32, 4, false⟩
def fir_en : Field := ⟨0x7108, 16, 1, .rw, 1, 0, 1, .stride, 32, 4, false⟩
end Reg.ADC_DS_CFG

namespace Reg.ADC_CORE_STAT
def cal_valid : Field := ⟨0x710C, 0, 1, .ro, 0, 0, 1, .stride, 32, 4, false⟩
def running : Field := ⟨0x710C, 1, 1, .ro, 0, 0, 1, .stride, 32, 4, false⟩
def inj_queue : Field := ⟨0x710C, 2, 3, .ro, 0, 0, 7, .stride, 32, 4, false⟩
def inj_busy : Field := ⟨0x710C, 5, 1, .ro, 0, 0, 1, .stride, 32, 4, false⟩
def entry : Field := ⟨0x710C, 6, 4, .ro, 0, 0, 15, .stride, 32, 4, false⟩
def stalled : Field := ⟨0x710C, 10, 1, .ro, 0, 0, 1, .stride, 32, 4, false⟩
def mode_status : Field := ⟨0x710C, 12, 3, .ro, 0, 0, 7, .stride, 32, 4, false⟩
end Reg.ADC_CORE_STAT

namespace Reg.ADC_CAL_INFO
def offset_res : Field := ⟨0x7110, 0, 8, .ro, 0, 0, 255, .stride, 32, 4, false⟩
def gain_res : Field := ⟨0x7110, 8, 8, .ro, 0, 0, 255, .stride, 32, 4, false⟩
def skew_res : Field := ⟨0x7110, 16, 8, .ro, 0, 0, 255, .stride, 32, 4, false⟩
end Reg.ADC_CAL_INFO

namespace Reg.ADC_CORE_CNT
def overruns : Field := ⟨0x7114, 0, 16, .rc, 0, 0, 65535, .stride, 32, 4, false⟩
def stream_drop : Field := ⟨0x7114, 16, 16, .rc, 0, 0, 65535, .stride, 32, 4, false⟩
end Reg.ADC_CORE_CNT

namespace Reg.ADC_SPOIL_CORE
def spoiled : Field := ⟨0x7118, 0, 16, .rc, 0, 0, 65535, .stride, 32, 4, false⟩
def served : Field := ⟨0x7118, 16, 16, .rc, 0, 0, 65535, .stride, 32, 4, false⟩
end Reg.ADC_SPOIL_CORE

namespace Reg.ADC_INJ_DELAY
def max : Field := ⟨0x711C, 0, 10, .rc, 0, 0, 1023, .stride, 32, 4, false⟩
def last : Field := ⟨0x711C, 16, 10, .ro, 0, 0, 1023, .stride, 32, 4, false⟩
end Reg.ADC_INJ_DELAY

namespace Reg.ADC_WIN
def lower : Field := ⟨0x7200, 0, 16, .rw, 32768, 0, 65535, .stride, 4, 32, false⟩
def upper : Field := ⟨0x7200, 16, 16, .rw, 32767, 0, 65535, .stride, 4, 32, false⟩
end Reg.ADC_WIN

namespace Reg.ADC_SV_MAP
def appid : Field := ⟨0x7300, 0, 16, .ro, 0, 0, 65535, .stride, 4, 16, false⟩
def ports : Field := ⟨0x7300, 16, 2, .ro, 0, 0, 3, .stride, 4, 16, false⟩
def enable : Field := ⟨0x7300, 18, 1, .rw, 0, 0, 1, .stride, 4, 16, false⟩
def channels : Field := ⟨0x7300, 19, 5, .ro, 0, 0, 31, .stride, 4, 16, false⟩
def state : Field := ⟨0x7300, 24, 3, .ro, 0, 0, 7, .stride, 4, 16, false⟩
def sim_accept : Field := ⟨0x7300, 27, 1, .ro, 0, 0, 1, .stride, 4, 16, false⟩
end Reg.ADC_SV_MAP
def regsAdc0 : List Field :=
  [Reg.ADC_CTRL.enable, Reg.ADC_CTRL.bg_cal, Reg.ADC_CTRL.stream_en, Reg.ADC_CTRL.clip_ev,
   Reg.ADC_STAT.cal_valid, Reg.ADC_STAT.ds, Reg.ADC_STAT.running, Reg.ADC_SPOIL.count,
   Reg.ADC_INJ_SW.request, Reg.ADC_CLIP.clip, Reg.ADC_SETTLE_CNT.count, Reg.ADC_SYSCAL_CTRL.input,
   Reg.ADC_SYSCAL_CTRL.step, Reg.ADC_SYSCAL_CTRL.start, Reg.ADC_SYSCAL_CTRL.avg, Reg.ADC_SYSCAL_REF.x_fs,
   Reg.ADC_SYSCAL_STAT.zero_done, Reg.ADC_SYSCAL_STAT.full_done, Reg.ADC_SYSCAL_STAT.status, Reg.ADC_SYSCAL_STAT.taken,
   Reg.ADC_SYSCAL_GAIN.g, Reg.ADC_SYSCAL_OFFSET.o, Reg.ADC_SEQ_SEL.core, Reg.ADC_SEQ_SEL.inj]
def regsAdc1 : List Field :=
  [Reg.ADC_SEQ_SEL.entry, Reg.ADC_SEQ_ENTRY.input, Reg.ADC_SEQ_ENTRY.gain, Reg.ADC_SEQ_ENTRY.rounds,
   Reg.ADC_SEQ_ENTRY.lead, Reg.ADC_SEQ_ENTRY.trigger, Reg.ADC_SEQ_ENTRY.pin, Reg.ADC_SEQ_ENTRY.offset,
   Reg.ADC_SV_SEL.sub, Reg.ADC_SV_STAT.valid, Reg.ADC_SV_STAT.timeout, Reg.ADC_SV_STAT.confrev_err,
   Reg.ADC_SV_STAT.gap, Reg.ADC_SV_STAT.synch, Reg.ADC_SV_STAT.smpcnt, Reg.ADC_SV_CNT.dropped,
   Reg.ADC_SV_CNT.missing, Reg.ADC_CORE_CTRL.mode, Reg.ADC_CORE_CTRL.reg_len, Reg.ADC_CORE_CTRL.inj_len,
   Reg.ADC_CORE_CTRL.reg_trig, Reg.ADC_CORE_CTRL.reg_go, Reg.ADC_CORE_CTRL.held, Reg.ADC_CORE_TRIG.offset]
def regsAdc2 : List Field :=
  [Reg.ADC_CORE_TRIG.param, Reg.ADC_DS_CFG.half_osr, Reg.ADC_DS_CFG.fir_en, Reg.ADC_CORE_STAT.cal_valid,
   Reg.ADC_CORE_STAT.running, Reg.ADC_CORE_STAT.inj_queue, Reg.ADC_CORE_STAT.inj_busy, Reg.ADC_CORE_STAT.entry,
   Reg.ADC_CORE_STAT.stalled, Reg.ADC_CORE_STAT.mode_status, Reg.ADC_CAL_INFO.offset_res, Reg.ADC_CAL_INFO.gain_res,
   Reg.ADC_CAL_INFO.skew_res, Reg.ADC_CORE_CNT.overruns, Reg.ADC_CORE_CNT.stream_drop, Reg.ADC_SPOIL_CORE.spoiled,
   Reg.ADC_SPOIL_CORE.served, Reg.ADC_INJ_DELAY.max, Reg.ADC_INJ_DELAY.last, Reg.ADC_WIN.lower,
   Reg.ADC_WIN.upper, Reg.ADC_SV_MAP.appid, Reg.ADC_SV_MAP.ports, Reg.ADC_SV_MAP.enable]
def regsAdc3 : List Field :=
  [Reg.ADC_SV_MAP.channels, Reg.ADC_SV_MAP.state, Reg.ADC_SV_MAP.sim_accept]
/-- Every field of the ADC register map. -/
def regsAdc : List Field := regsAdc0 ++ regsAdc1 ++ regsAdc2 ++ regsAdc3


namespace Reg.ORD_CTRL
def enable : Field := ⟨0x8000, 0, 1, .rw, 1, 0, 1, .one, 0, 1, false⟩
def ramp_div : Field := ⟨0x8000, 8, 12, .st, 0, 0, 4095, .one, 0, 1, false⟩
end Reg.ORD_CTRL

namespace Reg.ORD_STAT
def ramps : Field := ⟨0x8004, 0, 6, .ro, 0, 0, 63, .one, 0, 1, false⟩
def gens : Field := ⟨0x8004, 8, 5, .ro, 0, 0, 31, .one, 0, 1, false⟩
def inputs : Field := ⟨0x8004, 16, 4, .ro, 0, 0, 15, .one, 0, 1, false⟩
end Reg.ORD_STAT

namespace Reg.ORD_RAMP_RUN
def run : Field := ⟨0x8008, 0, 32, .ro, 0, 0, 4294967295, .one, 0, 1, false⟩
end Reg.ORD_RAMP_RUN

namespace Reg.ORD_RAMP_DONE
def done : Field := ⟨0x800C, 0, 32, .w1c, 0, 0, 4294967295, .one, 0, 1, false⟩
end Reg.ORD_RAMP_DONE

namespace Reg.ORD_RAMP_DEFER
def deferred : Field := ⟨0x8010, 0, 32, .ro, 0, 0, 4294967295, .one, 0, 1, false⟩
end Reg.ORD_RAMP_DEFER

namespace Reg.ORD_RAMP_REFUSED
def refused : Field := ⟨0x8014, 0, 32, .w1c, 0, 0, 4294967295, .one, 0, 1, false⟩
end Reg.ORD_RAMP_REFUSED

namespace Reg.ORD_PARAM_INVALID
def invalid : Field := ⟨0x8018, 0, 32, .w1c, 0, 0, 4294967295, .one, 0, 1, false⟩
end Reg.ORD_PARAM_INVALID

namespace Reg.ORD_RAMP_HALT
def halt : Field := ⟨0x801C, 0, 32, .wo, 0, 0, 4294967295, .one, 0, 1, true⟩
end Reg.ORD_RAMP_HALT

namespace Reg.ORD_REFUSE_CNT
def count : Field := ⟨0x8020, 0, 32, .rc, 0, 0, 4294967295, .one, 0, 1, false⟩
end Reg.ORD_REFUSE_CNT

namespace Reg.ORD_GEN_JUMP
def jump : Field := ⟨0x8024, 0, 16, .w1c, 0, 0, 65535, .one, 0, 1, false⟩
end Reg.ORD_GEN_JUMP

namespace Reg.ORD_GEN_HOLD
def holdover : Field := ⟨0x8028, 0, 16, .ro, 0, 0, 65535, .one, 0, 1, false⟩
def clamped : Field := ⟨0x8028, 16, 16, .w1c, 0, 0, 65535, .one, 0, 1, false⟩
end Reg.ORD_GEN_HOLD

namespace Reg.ORD_IN_LOSS
def loss : Field := ⟨0x802C, 0, 8, .ro, 0, 0, 255, .one, 0, 1, false⟩
def lost : Field := ⟨0x802C, 8, 8, .w1c, 0, 0, 255, .one, 0, 1, false⟩
end Reg.ORD_IN_LOSS

namespace Reg.ORD_TBL_SEL
def table : Field := ⟨0x8030, 0, 2, .rw, 0, 0, 3, .one, 0, 1, false⟩
end Reg.ORD_TBL_SEL

namespace Reg.ORD_TBL_ADDR
def index : Field := ⟨0x8034, 0, 11, .rw, 0, 0, 1535, .one, 0, 1, false⟩
def auto_inc : Field := ⟨0x8034, 16, 1, .rw, 1, 0, 1, .one, 0, 1, false⟩
end Reg.ORD_TBL_ADDR

namespace Reg.ORD_TBL_DATA
def data : Field := ⟨0x8038, 0, 32, .rw, 0, 0, 4294967295, .one, 0, 1, true⟩
end Reg.ORD_TBL_DATA

namespace Reg.ORD_TBL_CTRL
def swap : Field := ⟨0x803C, 0, 4, .st, 0, 0, 15, .one, 0, 1, false⟩
def bank : Field := ⟨0x803C, 8, 4, .ro, 0, 0, 15, .one, 0, 1, false⟩
end Reg.ORD_TBL_CTRL

namespace Reg.ORD_IN_CFG
def mode : Field := ⟨0x8100, 0, 3, .rw, 0, 0, 7, .stride, 16, 8, true⟩
def filt : Field := ⟨0x8100, 4, 8, .rw, 0, 0, 255, .stride, 16, 8, true⟩
def gate : Field := ⟨0x8100, 12, 8, .rw, 0, 1, 255, .stride, 16, 8, true⟩
def src_point : Field := ⟨0x8100, 20, 12, .rw, 0, 0, 4095, .stride, 16, 8, true⟩
end Reg.ORD_IN_CFG

namespace Reg.ORD_IN_RAW
def raw : Field := ⟨0x8104, 0, 32, .ro, 0, 0, 4294967295, .stride, 16, 8, false⟩
end Reg.ORD_IN_RAW

namespace Reg.ORD_IN_STAT
def loss : Field := ⟨0x8108, 0, 1, .ro, 0, 0, 1, .stride, 16, 8, false⟩
def poison : Field := ⟨0x8108, 1, 1, .w1c, 0, 0, 1, .stride, 16, 8, false⟩
def status : Field := ⟨0x8108, 4, 3, .ro, 0, 0, 7, .stride, 16, 8, false⟩
end Reg.ORD_IN_STAT

namespace Reg.ORD_IN_EDGES
def edges : Field := ⟨0x810C, 0, 32, .rc, 0, 0, 4294967295, .stride, 16, 8, false⟩
end Reg.ORD_IN_EDGES

namespace Reg.ORD_GEN_CTRL
def mode : Field := ⟨0x8200, 0, 2, .st, 0, 0, 2, .stride, 8, 16, false⟩
def table : Field := ⟨0x8200, 2, 2, .ro, 0, 0, 3, .stride, 8, 16, false⟩
def la : Field := ⟨0x8200, 4, 2, .ro, 0, 0, 3, .stride, 8, 16, false⟩
def retain : Field := ⟨0x8200, 6, 1, .ro, 0, 0, 1, .stride, 8, 16, false⟩
def amp_ramp_en : Field := ⟨0x8200, 7, 1, .ro, 0, 0, 1, .stride, 8, 16, false⟩
def amp_ramp : Field := ⟨0x8200, 8, 5, .ro, 0, 0, 31, .stride, 8, 16, false⟩
end Reg.ORD_GEN_CTRL

namespace Reg.ORD_GEN_STAT
def holdover : Field := ⟨0x8204, 0, 1, .ro, 0, 0, 1, .stride, 8, 16, false⟩
def jump : Field := ⟨0x8204, 1, 1, .w1c, 0, 0, 1, .stride, 8, 16, false⟩
def jump_cnt : Field := ⟨0x8204, 8, 8, .rc, 0, 0, 255, .stride, 8, 16, false⟩
end Reg.ORD_GEN_STAT
def regsOrd0 : List Field :=
  [Reg.ORD_CTRL.enable, Reg.ORD_CTRL.ramp_div, Reg.ORD_STAT.ramps, Reg.ORD_STAT.gens,
   Reg.ORD_STAT.inputs, Reg.ORD_RAMP_RUN.run, Reg.ORD_RAMP_DONE.done, Reg.ORD_RAMP_DEFER.deferred,
   Reg.ORD_RAMP_REFUSED.refused, Reg.ORD_PARAM_INVALID.invalid, Reg.ORD_RAMP_HALT.halt, Reg.ORD_REFUSE_CNT.count,
   Reg.ORD_GEN_JUMP.jump, Reg.ORD_GEN_HOLD.holdover, Reg.ORD_GEN_HOLD.clamped, Reg.ORD_IN_LOSS.loss,
   Reg.ORD_IN_LOSS.lost, Reg.ORD_TBL_SEL.table, Reg.ORD_TBL_ADDR.index, Reg.ORD_TBL_ADDR.auto_inc,
   Reg.ORD_TBL_DATA.data, Reg.ORD_TBL_CTRL.swap, Reg.ORD_TBL_CTRL.bank, Reg.ORD_IN_CFG.mode]
def regsOrd1 : List Field :=
  [Reg.ORD_IN_CFG.filt, Reg.ORD_IN_CFG.gate, Reg.ORD_IN_CFG.src_point, Reg.ORD_IN_RAW.raw,
   Reg.ORD_IN_STAT.loss, Reg.ORD_IN_STAT.poison, Reg.ORD_IN_STAT.status, Reg.ORD_IN_EDGES.edges,
   Reg.ORD_GEN_CTRL.mode, Reg.ORD_GEN_CTRL.table, Reg.ORD_GEN_CTRL.la, Reg.ORD_GEN_CTRL.retain,
   Reg.ORD_GEN_CTRL.amp_ramp_en, Reg.ORD_GEN_CTRL.amp_ramp, Reg.ORD_GEN_STAT.holdover, Reg.ORD_GEN_STAT.jump,
   Reg.ORD_GEN_STAT.jump_cnt]
/-- Every field of the ORD register map. -/
def regsOrd : List Field := regsOrd0 ++ regsOrd1


namespace Reg.DRV_CTRL
def mode : Field := ⟨0x9000, 0, 2, .rw, 0, 0, 3, .stride, 32, 24, true⟩
def src : Field := ⟨0x9000, 2, 1, .ro, 0, 0, 1, .stride, 32, 24, false⟩
def dt_adapt : Field := ⟨0x9000, 3, 1, .rw, 0, 0, 1, .stride, 32, 24, false⟩
def refresh_en : Field := ⟨0x9000, 4, 1, .rw, 0, 0, 1, .stride, 32, 24, false⟩
def static_hi : Field := ⟨0x9000, 5, 1, .rw, 0, 0, 1, .stride, 32, 24, true⟩
def static_lo : Field := ⟨0x9000, 6, 1, .rw, 0, 0, 1, .stride, 32, 24, true⟩
def rel_ev : Field := ⟨0x9000, 7, 1, .rw, 0, 0, 1, .stride, 32, 24, false⟩
def dead : Field := ⟨0x9000, 8, 8, .rw, 0, 0, 255, .stride, 32, 24, false⟩
def refresh_n : Field := ⟨0x9000, 16, 4, .rw, 0, 0, 15, .stride, 32, 24, false⟩
def refresh_width : Field := ⟨0x9000, 20, 8, .rw, 0, 0, 255, .stride, 32, 24, false⟩
def run : Field := ⟨0x9000, 28, 1, .ro, 0, 0, 1, .stride, 32, 24, false⟩
def flt : Field := ⟨0x9000, 29, 1, .ro, 0, 0, 1, .stride, 32, 24, false⟩
def bsuv : Field := ⟨0x9000, 30, 1, .w1c, 0, 0, 1, .stride, 32, 24, false⟩
def cal_valid : Field := ⟨0x9000, 31, 1, .ro, 0, 0, 1, .stride, 32, 24, false⟩
end Reg.DRV_CTRL

namespace Reg.DRV_PERIOD
def period : Field := ⟨0x9004, 0, 24, .rw, 0, 0, 16777215, .stride, 32, 24, false⟩
def reload_n : Field := ⟨0x9004, 24, 8, .rw, 1, 0, 255, .stride, 32, 24, false⟩
end Reg.DRV_PERIOD

namespace Reg.DRV_DUTY
def duty : Field := ⟨0x9008, 0, 24, .rw, 0, 0, 16777215, .stride, 32, 24, false⟩
def dead_applied : Field := ⟨0x9008, 24, 8, .ro, 0, 0, 255, .stride, 32, 24, false⟩
end Reg.DRV_DUTY

namespace Reg.DRV_SET
def phase : Field := ⟨0x900C, 0, 24, .rw, 0, 0, 16777215, .stride, 32, 24, false⟩
def commit : Field := ⟨0x900C, 24, 1, .wo, 0, 0, 1, .stride, 32, 24, true⟩
def pending : Field := ⟨0x900C, 25, 1, .ro, 0, 0, 1, .stride, 32, 24, false⟩
def status : Field := ⟨0x900C, 26, 3, .ro, 0, 0, 7, .stride, 32, 24, false⟩
def holder : Field := ⟨0x900C, 29, 2, .ro, 0, 0, 3, .stride, 32, 24, false⟩
end Reg.DRV_SET

namespace Reg.DRV_INTERLOCK_CNT
def count : Field := ⟨0x9010, 0, 32, .rc, 0, 0, 4294967295, .stride, 32, 24, false⟩
end Reg.DRV_INTERLOCK_CNT

namespace Reg.DRV_DROPPED_PULSES
def count : Field := ⟨0x9014, 0, 32, .rc, 0, 0, 4294967295, .stride, 32, 24, false⟩
end Reg.DRV_DROPPED_PULSES
def regsDrv0 : List Field :=
  [Reg.DRV_CTRL.mode, Reg.DRV_CTRL.src, Reg.DRV_CTRL.dt_adapt, Reg.DRV_CTRL.refresh_en,
   Reg.DRV_CTRL.static_hi, Reg.DRV_CTRL.static_lo, Reg.DRV_CTRL.rel_ev, Reg.DRV_CTRL.dead,
   Reg.DRV_CTRL.refresh_n, Reg.DRV_CTRL.refresh_width, Reg.DRV_CTRL.run, Reg.DRV_CTRL.flt,
   Reg.DRV_CTRL.bsuv, Reg.DRV_CTRL.cal_valid, Reg.DRV_PERIOD.period, Reg.DRV_PERIOD.reload_n,
   Reg.DRV_DUTY.duty, Reg.DRV_DUTY.dead_applied, Reg.DRV_SET.phase, Reg.DRV_SET.commit,
   Reg.DRV_SET.pending, Reg.DRV_SET.status, Reg.DRV_SET.holder, Reg.DRV_INTERLOCK_CNT.count]
def regsDrv1 : List Field :=
  [Reg.DRV_DROPPED_PULSES.count]
/-- Every field of the DRV register map. -/
def regsDrv : List Field := regsDrv0 ++ regsDrv1


namespace Reg.ETH_CTRL
def enable : Field := ⟨0xA000, 0, 1, .rw, 0, 0, 1, .stride, 2048, 2, false⟩
def rate : Field := ⟨0xA000, 1, 1, .rw, 1, 0, 1, .stride, 2048, 2, false⟩
def rx_en : Field := ⟨0xA000, 2, 1, .rw, 0, 0, 1, .stride, 2048, 2, false⟩
def tx_en : Field := ⟨0xA000, 3, 1, .rw, 0, 0, 1, .stride, 2048, 2, false⟩
def promisc : Field := ⟨0xA000, 4, 1, .rw, 0, 0, 1, .stride, 2048, 2, false⟩
def ptp_en : Field := ⟨0xA000, 5, 1, .rw, 0, 0, 1, .stride, 2048, 2, false⟩
def mech : Field := ⟨0xA000, 6, 1, .rw, 1, 0, 1, .stride, 2048, 2, false⟩
def transport : Field := ⟨0xA000, 7, 1, .rw, 0, 0, 1, .stride, 2048, 2, false⟩
end Reg.ETH_CTRL

namespace Reg.ETH_STAT
def link : Field := ⟨0xA004, 0, 1, .ro, 0, 0, 1, .stride, 2048, 2, false⟩
def local_fault : Field := ⟨0xA004, 1, 1, .ro, 0, 0, 1, .stride, 2048, 2, false⟩
def remote_fault : Field := ⟨0xA004, 2, 1, .ro, 0, 0, 1, .stride, 2048, 2, false⟩
def mpd_valid : Field := ⟨0xA004, 3, 1, .ro, 0, 0, 1, .stride, 2048, 2, false⟩
def held : Field := ⟨0xA004, 4, 1, .ro, 0, 0, 1, .stride, 2048, 2, false⟩
end Reg.ETH_STAT

namespace Reg.ETH_MAC_LO
def mac_lo : Field := ⟨0xA008, 0, 32, .rw, 0, 0, 4294967295, .stride, 2048, 2, false⟩
end Reg.ETH_MAC_LO

namespace Reg.ETH_MAC_HI
def mac_hi : Field := ⟨0xA00C, 0, 16, .rw, 0, 0, 65535, .stride, 2048, 2, false⟩
end Reg.ETH_MAC_HI

namespace Reg.ETH_RXR_BASE_LO
def base_lo : Field := ⟨0xA010, 12, 20, .rw, 0, 0, 1048575, .stride, 2048, 2, false⟩
end Reg.ETH_RXR_BASE_LO

namespace Reg.ETH_RXR_BASE_HI
def base_hi : Field := ⟨0xA014, 0, 32, .rw, 0, 0, 4294967295, .stride, 2048, 2, false⟩
end Reg.ETH_RXR_BASE_HI

namespace Reg.ETH_RXR_SIZE
def log2 : Field := ⟨0xA018, 0, 4, .rw, 8, 4, 12, .stride, 2048, 2, false⟩
end Reg.ETH_RXR_SIZE

namespace Reg.ETH_RXR_HEAD
def head : Field := ⟨0xA01C, 0, 12, .ro, 0, 0, 4095, .stride, 2048, 2, false⟩
end Reg.ETH_RXR_HEAD

namespace Reg.ETH_RXR_TAIL
def tail : Field := ⟨0xA020, 0, 12, .rw, 0, 0, 4095, .stride, 2048, 2, false⟩
end Reg.ETH_RXR_TAIL

namespace Reg.ETH_TXR_BASE_LO
def base_lo : Field := ⟨0xA024, 12, 20, .rw, 0, 0, 1048575, .stride, 2048, 2, false⟩
end Reg.ETH_TXR_BASE_LO

namespace Reg.ETH_TXR_BASE_HI
def base_hi : Field := ⟨0xA028, 0, 32, .rw, 0, 0, 4294967295, .stride, 2048, 2, false⟩
end Reg.ETH_TXR_BASE_HI

namespace Reg.ETH_TXR_SIZE
def log2 : Field := ⟨0xA02C, 0, 4, .rw, 8, 4, 12, .stride, 2048, 2, false⟩
end Reg.ETH_TXR_SIZE

namespace Reg.ETH_TXR_HEAD
def head : Field := ⟨0xA030, 0, 12, .ro, 0, 0, 4095, .stride, 2048, 2, false⟩
end Reg.ETH_TXR_HEAD

namespace Reg.ETH_TXR_TAIL
def tail : Field := ⟨0xA034, 0, 12, .rw, 0, 0, 4095, .stride, 2048, 2, false⟩
end Reg.ETH_TXR_TAIL

namespace Reg.ETH_LAT
def tx : Field := ⟨0xA038, 0, 16, .rw, 0, 0, 65535, .stride, 2048, 2, false⟩
def rx : Field := ⟨0xA038, 16, 16, .rw, 0, 0, 65535, .stride, 2048, 2, false⟩
end Reg.ETH_LAT

namespace Reg.ETH_PTP_CFG
def domain : Field := ⟨0xA03C, 0, 8, .rw, 0, 0, 255, .stride, 2048, 2, false⟩
def peer_port : Field := ⟨0xA03C, 16, 16, .rw, 0, 0, 65535, .stride, 2048, 2, false⟩
end Reg.ETH_PTP_CFG

namespace Reg.ETH_PTP_PEER_LO
def id_lo : Field := ⟨0xA040, 0, 32, .rw, 0, 0, 4294967295, .stride, 2048, 2, false⟩
end Reg.ETH_PTP_PEER_LO

namespace Reg.ETH_PTP_PEER_HI
def id_hi : Field := ⟨0xA044, 0, 32, .rw, 0, 0, 4294967295, .stride, 2048, 2, false⟩
end Reg.ETH_PTP_PEER_HI

namespace Reg.ETH_MPD_MEAS
def m : Field := ⟨0xA048, 0, 32, .ro, 0, 0, 4294967295, .stride, 2048, 2, false⟩
end Reg.ETH_MPD_MEAS

namespace Reg.ETH_MPD_ACC
def m_acc : Field := ⟨0xA04C, 0, 32, .ro, 0, 0, 4294967295, .stride, 2048, 2, false⟩
end Reg.ETH_MPD_ACC

namespace Reg.ETH_MPD_STAT
def seq : Field := ⟨0xA050, 0, 16, .ro, 0, 0, 65535, .stride, 2048, 2, false⟩
def rejects : Field := ⟨0xA050, 16, 8, .rc, 0, 0, 255, .stride, 2048, 2, false⟩
def run : Field := ⟨0xA050, 24, 4, .ro, 0, 0, 15, .stride, 2048, 2, false⟩
end Reg.ETH_MPD_STAT

namespace Reg.ETH_MPD_CTRL
def asym : Field := ⟨0xA054, 0, 16, .rw, 0, 0, 65535, .stride, 2048, 2, false⟩
def accept : Field := ⟨0xA054, 16, 1, .wo, 0, 0, 1, .stride, 2048, 2, true⟩
end Reg.ETH_MPD_CTRL

namespace Reg.ETH_RX_CNT
def frames : Field := ⟨0xA058, 0, 32, .rc, 0, 0, 4294967295, .stride, 2048, 2, false⟩
end Reg.ETH_RX_CNT

namespace Reg.ETH_RX_DROP
def ring : Field := ⟨0xA05C, 0, 16, .rc, 0, 0, 65535, .stride, 2048, 2, false⟩
def fcs : Field := ⟨0xA05C, 16, 16, .rc, 0, 0, 65535, .stride, 2048, 2, false⟩
end Reg.ETH_RX_DROP

namespace Reg.ETH_TX_CNT
def frames : Field := ⟨0xA060, 0, 32, .rc, 0, 0, 4294967295, .stride, 2048, 2, false⟩
end Reg.ETH_TX_CNT

namespace Reg.ETH_TS_CNT
def rx_event : Field := ⟨0xA064, 0, 16, .rc, 0, 0, 65535, .stride, 2048, 2, false⟩
def tx_stamped : Field := ⟨0xA064, 16, 16, .rc, 0, 0, 65535, .stride, 2048, 2, false⟩
end Reg.ETH_TS_CNT

namespace Reg.ETH_MCAST_LO
def mc_lo : Field := ⟨0xA068, 0, 32, .rw, 0, 0, 4294967295, .stride, 2048, 2, false⟩
end Reg.ETH_MCAST_LO

namespace Reg.ETH_MCAST_HI
def mc_hi : Field := ⟨0xA06C, 0, 16, .rw, 0, 0, 65535, .stride, 2048, 2, false⟩
def mc_en : Field := ⟨0xA06C, 16, 1, .rw, 0, 0, 1, .stride, 2048, 2, false⟩
end Reg.ETH_MCAST_HI

namespace Reg.ETH_PCS_CNT
def hdr_err : Field := ⟨0xA070, 0, 16, .rc, 0, 0, 65535, .stride, 2048, 2, false⟩
def lock_losses : Field := ⟨0xA070, 16, 16, .rc, 0, 0, 65535, .stride, 2048, 2, false⟩
end Reg.ETH_PCS_CNT

namespace Reg.ETH_IRQ_CTRL
def rx_coalesce : Field := ⟨0xA074, 0, 8, .rw, 1, 1, 255, .stride, 2048, 2, false⟩
def tx_wb_sig : Field := ⟨0xA074, 8, 1, .rw, 1, 0, 1, .stride, 2048, 2, false⟩
end Reg.ETH_IRQ_CTRL
def regsEth0 : List Field :=
  [Reg.ETH_CTRL.enable, Reg.ETH_CTRL.rate, Reg.ETH_CTRL.rx_en, Reg.ETH_CTRL.tx_en,
   Reg.ETH_CTRL.promisc, Reg.ETH_CTRL.ptp_en, Reg.ETH_CTRL.mech, Reg.ETH_CTRL.transport,
   Reg.ETH_STAT.link, Reg.ETH_STAT.local_fault, Reg.ETH_STAT.remote_fault, Reg.ETH_STAT.mpd_valid,
   Reg.ETH_STAT.held, Reg.ETH_MAC_LO.mac_lo, Reg.ETH_MAC_HI.mac_hi, Reg.ETH_RXR_BASE_LO.base_lo,
   Reg.ETH_RXR_BASE_HI.base_hi, Reg.ETH_RXR_SIZE.log2, Reg.ETH_RXR_HEAD.head, Reg.ETH_RXR_TAIL.tail,
   Reg.ETH_TXR_BASE_LO.base_lo, Reg.ETH_TXR_BASE_HI.base_hi, Reg.ETH_TXR_SIZE.log2, Reg.ETH_TXR_HEAD.head]
def regsEth1 : List Field :=
  [Reg.ETH_TXR_TAIL.tail, Reg.ETH_LAT.tx, Reg.ETH_LAT.rx, Reg.ETH_PTP_CFG.domain,
   Reg.ETH_PTP_CFG.peer_port, Reg.ETH_PTP_PEER_LO.id_lo, Reg.ETH_PTP_PEER_HI.id_hi, Reg.ETH_MPD_MEAS.m,
   Reg.ETH_MPD_ACC.m_acc, Reg.ETH_MPD_STAT.seq, Reg.ETH_MPD_STAT.rejects, Reg.ETH_MPD_STAT.run,
   Reg.ETH_MPD_CTRL.asym, Reg.ETH_MPD_CTRL.accept, Reg.ETH_RX_CNT.frames, Reg.ETH_RX_DROP.ring,
   Reg.ETH_RX_DROP.fcs, Reg.ETH_TX_CNT.frames, Reg.ETH_TS_CNT.rx_event, Reg.ETH_TS_CNT.tx_stamped,
   Reg.ETH_MCAST_LO.mc_lo, Reg.ETH_MCAST_HI.mc_hi, Reg.ETH_MCAST_HI.mc_en, Reg.ETH_PCS_CNT.hdr_err]
def regsEth2 : List Field :=
  [Reg.ETH_PCS_CNT.lock_losses, Reg.ETH_IRQ_CTRL.rx_coalesce, Reg.ETH_IRQ_CTRL.tx_wb_sig]
/-- Every field of the ETH register map. -/
def regsEth : List Field := regsEth0 ++ regsEth1 ++ regsEth2


namespace Reg.ARM_CTRL
def mode : Field := ⟨0x10000, 0, 2, .st, 0, 0, 2, .stride, 1024, 12, false⟩
def interp : Field := ⟨0x10000, 2, 1, .st, 1, 0, 1, .stride, 1024, 12, false⟩
def norm : Field := ⟨0x10000, 3, 1, .st, 0, 0, 1, .stride, 1024, 12, false⟩
def fb_bypass : Field := ⟨0x10000, 4, 2, .st, 2, 0, 2, .stride, 1024, 12, false⟩
end Reg.ARM_CTRL

namespace Reg.ARM_CMD
def deblock : Field := ⟨0x10004, 0, 1, .st, 0, 0, 1, .stride, 1024, 12, false⟩
def block : Field := ⟨0x10004, 1, 1, .st, 0, 0, 1, .stride, 1024, 12, false⟩
end Reg.ARM_CMD

namespace Reg.ARM_STAT
def state : Field := ⟨0x10008, 0, 3, .ro, 7, 0, 7, .stride, 1024, 12, false⟩
def saf_hold : Field := ⟨0x10008, 3, 1, .ro, 0, 0, 1, .stride, 1024, 12, false⟩
def ref_stale : Field := ⟨0x10008, 4, 1, .w1c, 0, 0, 1, .stride, 1024, 12, false⟩
def ref_poison : Field := ⟨0x10008, 5, 1, .w1c, 0, 0, 1, .stride, 1024, 12, false⟩
def sat : Field := ⟨0x10008, 6, 1, .w1c, 0, 0, 1, .stride, 1024, 12, false⟩
def step_merge : Field := ⟨0x10008, 7, 1, .w1c, 0, 0, 1, .stride, 1024, 12, false⟩
def mismatch : Field := ⟨0x10008, 8, 1, .w1c, 0, 0, 1, .stride, 1024, 12, false⟩
def sum_poison : Field := ⟨0x10008, 9, 1, .w1c, 0, 0, 1, .stride, 1024, 12, false⟩
def level_short : Field := ⟨0x10008, 10, 1, .ro, 0, 0, 1, .stride, 1024, 12, false⟩
def spares_out : Field := ⟨0x10008, 11, 1, .ro, 0, 0, 1, .stride, 1024, 12, false⟩
def refuse_reason : Field := ⟨0x10008, 12, 4, .ro, 0, 0, 15, .stride, 1024, 12, false⟩
def lead : Field := ⟨0x10008, 16, 2, .ro, 0, 0, 3, .stride, 1024, 12, false⟩
end Reg.ARM_STAT

namespace Reg.ARM_REF_PT
def ref_point : Field := ⟨0x1000C, 0, 16, .ro, 0, 0, 65535, .stride, 1024, 12, false⟩
def out_point : Field := ⟨0x1000C, 16, 16, .ro, 0, 0, 65535, .stride, 1024, 12, false⟩
end Reg.ARM_REF_PT

namespace Reg.ARM_VNOM
def vnom : Field := ⟨0x10010, 0, 32, .st, 0, 0, 4294967295, .stride, 1024, 12, false⟩
end Reg.ARM_VNOM

namespace Reg.ARM_SCREEN_LO
def lo : Field := ⟨0x10014, 0, 32, .st, 0, 0, 4294967295, .stride, 1024, 12, false⟩
end Reg.ARM_SCREEN_LO

namespace Reg.ARM_SCREEN_HI
def hi : Field := ⟨0x10018, 0, 32, .st, 0, 0, 4294967295, .stride, 1024, 12, false⟩
end Reg.ARM_SCREEN_HI

namespace Reg.ARM_BAND
def band : Field := ⟨0x1001C, 0, 12, .st, 0, 0, 4095, .stride, 1024, 12, false⟩
def cap : Field := ⟨0x1001C, 16, 7, .st, 0, 1, 64, .stride, 1024, 12, false⟩
end Reg.ARM_BAND

namespace Reg.ARM_LEVEL_CFG
def max_steps : Field := ⟨0x10020, 0, 4, .st, 4, 1, 8, .stride, 1024, 12, false⟩
def swap_edge : Field := ⟨0x10020, 8, 24, .st, 0, 0, 16777215, .stride, 1024, 12, false⟩
end Reg.ARM_LEVEL_CFG

namespace Reg.ARM_CELLS
def configured : Field := ⟨0x10024, 0, 12, .ro, 0, 0, 4095, .stride, 1024, 12, false⟩
def fb_configured : Field := ⟨0x10024, 16, 12, .ro, 0, 0, 4095, .stride, 1024, 12, false⟩
end Reg.ARM_CELLS

namespace Reg.ARM_AVAIL
def available : Field := ⟨0x10028, 0, 12, .ro, 0, 0, 4095, .stride, 1024, 12, false⟩
def fb_available : Field := ⟨0x10028, 16, 12, .ro, 0, 0, 4095, .stride, 1024, 12, false⟩
end Reg.ARM_AVAIL

namespace Reg.ARM_SPARE
def need : Field := ⟨0x1002C, 0, 12, .st, 0, 0, 4095, .stride, 1024, 12, false⟩
def spares : Field := ⟨0x1002C, 16, 12, .ro, 0, 0, 4095, .stride, 1024, 12, false⟩
end Reg.ARM_SPARE

namespace Reg.ARM_RETIRE
def cell : Field := ⟨0x10030, 0, 14, .rw, 0, 0, 16383, .stride, 1024, 12, false⟩
def reason : Field := ⟨0x10030, 16, 8, .rw, 0, 0, 255, .stride, 1024, 12, false⟩
def go : Field := ⟨0x10030, 24, 1, .sc, 0, 0, 1, .stride, 1024, 12, true⟩
def status : Field := ⟨0x10030, 25, 3, .ro, 0, 0, 7, .stride, 1024, 12, false⟩
end Reg.ARM_RETIRE

namespace Reg.ARM_LEVEL
def level_cmd : Field := ⟨0x10034, 0, 13, .ro, 0, 0, 8191, .stride, 1024, 12, false⟩
def level_applied : Field := ⟨0x10034, 16, 13, .ro, 0, 0, 8191, .stride, 1024, 12, false⟩
end Reg.ARM_LEVEL

namespace Reg.ARM_ENERGY
def energy : Field := ⟨0x10038, 0, 32, .ro, 0, 0, 4294967295, .stride, 1024, 12, false⟩
end Reg.ARM_ENERGY

namespace Reg.ARM_VAVAIL
def vavail : Field := ⟨0x1003C, 0, 32, .ro, 0, 0, 4294967295, .stride, 1024, 12, false⟩
end Reg.ARM_VAVAIL

namespace Reg.ARM_VAVAIL_NEG
def vavail_neg : Field := ⟨0x10040, 0, 32, .ro, 0, 0, 4294967295, .stride, 1024, 12, false⟩
end Reg.ARM_VAVAIL_NEG

namespace Reg.ARM_CAR_CFG
def reload_n : Field := ⟨0x10044, 0, 8, .st, 1, 1, 255, .stride, 1024, 12, false⟩
def reload_idx : Field := ⟨0x10044, 16, 16, .ro, 0, 0, 65535, .stride, 1024, 12, false⟩
end Reg.ARM_CAR_CFG

namespace Reg.ARM_CAR_PERIOD
def period : Field := ⟨0x10048, 0, 24, .st, 0, 0, 16777215, .stride, 1024, 12, false⟩
end Reg.ARM_CAR_PERIOD

namespace Reg.ARM_INT_CFG
def prescale : Field := ⟨0x1004C, 0, 8, .st, 0, 0, 255, .stride, 1024, 12, false⟩
def zero_en : Field := ⟨0x1004C, 8, 1, .st, 0, 0, 1, .stride, 1024, 12, false⟩
def period_en : Field := ⟨0x1004C, 9, 1, .st, 0, 0, 1, .stride, 1024, 12, false⟩
def cmp0_en : Field := ⟨0x1004C, 10, 1, .st, 0, 0, 1, .stride, 1024, 12, false⟩
def cmp1_en : Field := ⟨0x1004C, 11, 1, .st, 0, 0, 1, .stride, 1024, 12, false⟩
def cmp0_down : Field := ⟨0x1004C, 12, 1, .st, 0, 0, 1, .stride, 1024, 12, false⟩
def cmp1_down : Field := ⟨0x1004C, 13, 1, .st, 0, 0, 1, .stride, 1024, 12, false⟩
def ring_en : Field := ⟨0x1004C, 14, 1, .st, 0, 0, 1, .stride, 1024, 12, false⟩
def zero_count : Field := ⟨0x1004C, 24, 8, .ro, 0, 0, 255, .stride, 1024, 12, false⟩
end Reg.ARM_INT_CFG

namespace Reg.ARM_INT_CMP0
def value : Field := ⟨0x10050, 0, 23, .st, 0, 0, 8388607, .stride, 1024, 12, false⟩
end Reg.ARM_INT_CMP0

namespace Reg.ARM_INT_CMP1
def value : Field := ⟨0x10054, 0, 23, .st, 0, 0, 8388607, .stride, 1024, 12, false⟩
end Reg.ARM_INT_CMP1

namespace Reg.ARM_INTERLOCK_CNT
def count : Field := ⟨0x10058, 0, 32, .rc, 0, 0, 4294967295, .stride, 1024, 12, false⟩
end Reg.ARM_INTERLOCK_CNT

namespace Reg.ARM_DROPPED_PULSES
def count : Field := ⟨0x1005C, 0, 32, .rc, 0, 0, 4294967295, .stride, 1024, 12, false⟩
end Reg.ARM_DROPPED_PULSES
def regsArm0 : List Field :=
  [Reg.ARM_CTRL.mode, Reg.ARM_CTRL.interp, Reg.ARM_CTRL.norm, Reg.ARM_CTRL.fb_bypass,
   Reg.ARM_CMD.deblock, Reg.ARM_CMD.block, Reg.ARM_STAT.state, Reg.ARM_STAT.saf_hold,
   Reg.ARM_STAT.ref_stale, Reg.ARM_STAT.ref_poison, Reg.ARM_STAT.sat, Reg.ARM_STAT.step_merge,
   Reg.ARM_STAT.mismatch, Reg.ARM_STAT.sum_poison, Reg.ARM_STAT.level_short, Reg.ARM_STAT.spares_out,
   Reg.ARM_STAT.refuse_reason, Reg.ARM_STAT.lead, Reg.ARM_REF_PT.ref_point, Reg.ARM_REF_PT.out_point,
   Reg.ARM_VNOM.vnom, Reg.ARM_SCREEN_LO.lo, Reg.ARM_SCREEN_HI.hi, Reg.ARM_BAND.band]
def regsArm1 : List Field :=
  [Reg.ARM_BAND.cap, Reg.ARM_LEVEL_CFG.max_steps, Reg.ARM_LEVEL_CFG.swap_edge, Reg.ARM_CELLS.configured,
   Reg.ARM_CELLS.fb_configured, Reg.ARM_AVAIL.available, Reg.ARM_AVAIL.fb_available, Reg.ARM_SPARE.need,
   Reg.ARM_SPARE.spares, Reg.ARM_RETIRE.cell, Reg.ARM_RETIRE.reason, Reg.ARM_RETIRE.go,
   Reg.ARM_RETIRE.status, Reg.ARM_LEVEL.level_cmd, Reg.ARM_LEVEL.level_applied, Reg.ARM_ENERGY.energy,
   Reg.ARM_VAVAIL.vavail, Reg.ARM_VAVAIL_NEG.vavail_neg, Reg.ARM_CAR_CFG.reload_n, Reg.ARM_CAR_CFG.reload_idx,
   Reg.ARM_CAR_PERIOD.period, Reg.ARM_INT_CFG.prescale, Reg.ARM_INT_CFG.zero_en, Reg.ARM_INT_CFG.period_en]
def regsArm2 : List Field :=
  [Reg.ARM_INT_CFG.cmp0_en, Reg.ARM_INT_CFG.cmp1_en, Reg.ARM_INT_CFG.cmp0_down, Reg.ARM_INT_CFG.cmp1_down,
   Reg.ARM_INT_CFG.ring_en, Reg.ARM_INT_CFG.zero_count, Reg.ARM_INT_CMP0.value, Reg.ARM_INT_CMP1.value,
   Reg.ARM_INTERLOCK_CNT.count, Reg.ARM_DROPPED_PULSES.count]
/-- Every field of the ARM register map. -/
def regsArm : List Field := regsArm0 ++ regsArm1 ++ regsArm2


namespace Reg.LANE_CTRL
def tx_en : Field := ⟨0x20000, 0, 1, .rw, 0, 0, 1, .stride, 256, 96, false⟩
def rx_en : Field := ⟨0x20000, 1, 1, .rw, 0, 0, 1, .stride, 256, 96, false⟩
def ident : Field := ⟨0x20000, 2, 1, .sc, 0, 0, 1, .stride, 256, 96, true⟩
def relock : Field := ⟨0x20000, 3, 1, .sc, 0, 0, 1, .stride, 256, 96, true⟩
def bip_ev : Field := ⟨0x20000, 4, 1, .rw, 1, 0, 1, .stride, 256, 96, false⟩
def eye_ev : Field := ⟨0x20000, 5, 1, .rw, 0, 0, 1, .stride, 256, 96, false⟩
end Reg.LANE_CTRL

namespace Reg.LANE_STAT
def lock : Field := ⟨0x20004, 0, 1, .ro, 0, 0, 1, .stride, 256, 96, false⟩
def up : Field := ⟨0x20004, 1, 1, .ro, 0, 0, 1, .stride, 256, 96, false⟩
def deskewed : Field := ⟨0x20004, 2, 1, .ro, 0, 0, 1, .stride, 256, 96, false⟩
def degraded : Field := ⟨0x20004, 3, 1, .ro, 0, 0, 1, .stride, 256, 96, false⟩
def tx_mask : Field := ⟨0x20004, 4, 4, .ro, 0, 0, 15, .stride, 256, 96, false⟩
def rx_mask : Field := ⟨0x20004, 8, 4, .ro, 0, 0, 15, .stride, 256, 96, false⟩
def far_rx : Field := ⟨0x20004, 12, 4, .ro, 0, 0, 15, .stride, 256, 96, false⟩
def far_tx : Field := ⟨0x20004, 16, 4, .ro, 0, 0, 15, .stride, 256, 96, false⟩
def state : Field := ⟨0x20004, 24, 3, .ro, 0, 0, 7, .stride, 256, 96, false⟩
end Reg.LANE_STAT

namespace Reg.LANE_CFG
def positions : Field := ⟨0x20008, 0, 9, .ro, 0, 0, 511, .stride, 256, 96, false⟩
def detail : Field := ⟨0x20008, 9, 4, .ro, 0, 0, 15, .stride, 256, 96, false⟩
def bond : Field := ⟨0x20008, 16, 2, .ro, 0, 0, 3, .stride, 256, 96, false⟩
def width : Field := ⟨0x20008, 18, 2, .ro, 0, 0, 3, .stride, 256, 96, false⟩
def member : Field := ⟨0x20008, 20, 2, .ro, 0, 0, 3, .stride, 256, 96, false⟩
def base : Field := ⟨0x20008, 24, 7, .ro, 0, 0, 127, .stride, 256, 96, false⟩
end Reg.LANE_CFG

namespace Reg.LANE_GUARD
def guard : Field := ⟨0x2000C, 0, 16, .ro, 0, 0, 65535, .stride, 256, 96, false⟩
end Reg.LANE_GUARD

namespace Reg.LANE_DMAX
def dmax : Field := ⟨0x20010, 0, 24, .ro, 0, 0, 16777215, .stride, 256, 96, false⟩
end Reg.LANE_DMAX

namespace Reg.LANE_EQ
def preset : Field := ⟨0x20014, 0, 4, .rw, 0, 0, 15, .stride, 256, 96, true⟩
def override : Field := ⟨0x20014, 4, 1, .rw, 0, 0, 1, .stride, 256, 96, true⟩
def tx_pre : Field := ⟨0x20014, 8, 4, .rw, 0, 0, 15, .stride, 256, 96, true⟩
def tx_post : Field := ⟨0x20014, 16, 5, .rw, 0, 0, 31, .stride, 256, 96, true⟩
def rx_ctle : Field := ⟨0x20014, 24, 4, .rw, 0, 0, 15, .stride, 256, 96, true⟩
end Reg.LANE_EQ

namespace Reg.LANE_DELAY
def h : Field := ⟨0x20018, 0, 24, .ro, 0, 0, 16777215, .stride, 256, 96, false⟩
def held : Field := ⟨0x20018, 24, 1, .ro, 0, 0, 1, .stride, 256, 96, false⟩
def overLimit : Field := ⟨0x20018, 25, 1, .ro, 0, 0, 1, .stride, 256, 96, false⟩
def accept : Field := ⟨0x20018, 26, 1, .wo, 0, 0, 1, .stride, 256, 96, true⟩
end Reg.LANE_DELAY

namespace Reg.LANE_RTT
def rt : Field := ⟨0x2001C, 0, 24, .ro, 0, 0, 16777215, .stride, 256, 96, false⟩
def valid : Field := ⟨0x2001C, 31, 1, .ro, 0, 0, 1, .stride, 256, 96, false⟩
end Reg.LANE_RTT

namespace Reg.LANE_CORR
def asym : Field := ⟨0x20020, 0, 16, .rw, 0, 0, 65535, .stride, 256, 96, false⟩
end Reg.LANE_CORR

namespace Reg.LANE_ERR_CNT
def hdr_err : Field := ⟨0x20024, 0, 16, .rc, 0, 0, 65535, .stride, 256, 96, false⟩
def bip_err : Field := ⟨0x20024, 16, 16, .rc, 0, 0, 65535, .stride, 256, 96, false⟩
end Reg.LANE_ERR_CNT

namespace Reg.LANE_LOCK_CNT
def lock_losses : Field := ⟨0x20028, 0, 16, .rc, 0, 0, 65535, .stride, 256, 96, false⟩
def restripes : Field := ⟨0x20028, 16, 16, .rc, 0, 0, 65535, .stride, 256, 96, false⟩
end Reg.LANE_LOCK_CNT

namespace Reg.LANE_FRAME_CNT
def up_discard : Field := ⟨0x2002C, 0, 16, .rc, 0, 0, 65535, .stride, 256, 96, false⟩
def overruns : Field := ⟨0x2002C, 16, 16, .rc, 0, 0, 65535, .stride, 256, 96, false⟩
end Reg.LANE_FRAME_CNT

namespace Reg.LANE_EYE_CTRL
def start : Field := ⟨0x20030, 0, 1, .sc, 0, 0, 1, .stride, 256, 96, true⟩
def v : Field := ⟨0x20030, 8, 6, .rw, 0, 0, 63, .stride, 256, 96, false⟩
def ph : Field := ⟨0x20030, 16, 8, .rw, 0, 0, 255, .stride, 256, 96, false⟩
def dwell : Field := ⟨0x20030, 24, 6, .rw, 30, 20, 40, .stride, 256, 96, false⟩
end Reg.LANE_EYE_CTRL

namespace Reg.LANE_EYE_STAT
def errors : Field := ⟨0x20034, 0, 31, .ro, 0, 0, 2147483647, .stride, 256, 96, false⟩
def invalid : Field := ⟨0x20034, 31, 1, .ro, 0, 0, 1, .stride, 256, 96, false⟩
end Reg.LANE_EYE_STAT
def regsLane0 : List Field :=
  [Reg.LANE_CTRL.tx_en, Reg.LANE_CTRL.rx_en, Reg.LANE_CTRL.ident, Reg.LANE_CTRL.relock,
   Reg.LANE_CTRL.bip_ev, Reg.LANE_CTRL.eye_ev, Reg.LANE_STAT.lock, Reg.LANE_STAT.up,
   Reg.LANE_STAT.deskewed, Reg.LANE_STAT.degraded, Reg.LANE_STAT.tx_mask, Reg.LANE_STAT.rx_mask,
   Reg.LANE_STAT.far_rx, Reg.LANE_STAT.far_tx, Reg.LANE_STAT.state, Reg.LANE_CFG.positions,
   Reg.LANE_CFG.detail, Reg.LANE_CFG.bond, Reg.LANE_CFG.width, Reg.LANE_CFG.member,
   Reg.LANE_CFG.base, Reg.LANE_GUARD.guard, Reg.LANE_DMAX.dmax, Reg.LANE_EQ.preset]
def regsLane1 : List Field :=
  [Reg.LANE_EQ.override, Reg.LANE_EQ.tx_pre, Reg.LANE_EQ.tx_post, Reg.LANE_EQ.rx_ctle,
   Reg.LANE_DELAY.h, Reg.LANE_DELAY.held, Reg.LANE_DELAY.overLimit, Reg.LANE_DELAY.accept,
   Reg.LANE_RTT.rt, Reg.LANE_RTT.valid, Reg.LANE_CORR.asym, Reg.LANE_ERR_CNT.hdr_err,
   Reg.LANE_ERR_CNT.bip_err, Reg.LANE_LOCK_CNT.lock_losses, Reg.LANE_LOCK_CNT.restripes, Reg.LANE_FRAME_CNT.up_discard,
   Reg.LANE_FRAME_CNT.overruns, Reg.LANE_EYE_CTRL.start, Reg.LANE_EYE_CTRL.v, Reg.LANE_EYE_CTRL.ph,
   Reg.LANE_EYE_CTRL.dwell, Reg.LANE_EYE_STAT.errors, Reg.LANE_EYE_STAT.invalid]
/-- Every field of the LANE register map. -/
def regsLane : List Field := regsLane0 ++ regsLane1


namespace Reg.FAB_CTRL
def running : Field := ⟨0x30000, 0, 1, .ro, 0, 0, 1, .one, 0, 1, false⟩
def user_ev : Field := ⟨0x30000, 1, 1, .rw, 1, 0, 1, .one, 0, 1, false⟩
def stall_ev : Field := ⟨0x30000, 2, 1, .rw, 0, 0, 1, .one, 0, 1, false⟩
end Reg.FAB_CTRL

namespace Reg.FAB_STAT
def graphs : Field := ⟨0x30004, 0, 8, .ro, 0, 0, 255, .one, 0, 1, false⟩
def flows : Field := ⟨0x30004, 8, 9, .ro, 0, 0, 511, .one, 0, 1, false⟩
def observers : Field := ⟨0x30004, 17, 7, .ro, 0, 0, 127, .one, 0, 1, false⟩
def miss_any : Field := ⟨0x30004, 24, 1, .ro, 0, 0, 1, .one, 0, 1, false⟩
def plaus_any : Field := ⟨0x30004, 25, 1, .ro, 0, 0, 1, .one, 0, 1, false⟩
end Reg.FAB_STAT

namespace Reg.FAB_TICK
def cycles : Field := ⟨0x30008, 0, 16, .st, 40, 4, 4000, .one, 0, 1, false⟩
end Reg.FAB_TICK

namespace Reg.FAB_GRAPH_SEL
def graph : Field := ⟨0x3000C, 0, 7, .rw, 0, 0, 127, .one, 0, 1, false⟩
end Reg.FAB_GRAPH_SEL

namespace Reg.FAB_GRAPH_CTRL
def enable : Field := ⟨0x30010, 0, 1, .st, 0, 0, 1, .graph, 0, 1, false⟩
def release : Field := ⟨0x30010, 1, 1, .wo, 0, 0, 1, .graph, 0, 1, true⟩
def rt : Field := ⟨0x30010, 2, 1, .ro, 0, 0, 1, .graph, 0, 1, false⟩
def trigger : Field := ⟨0x30010, 3, 4, .ro, 0, 0, 15, .graph, 0, 1, false⟩
def deadline : Field := ⟨0x30010, 16, 16, .ro, 0, 0, 65535, .graph, 0, 1, false⟩
end Reg.FAB_GRAPH_CTRL

namespace Reg.FAB_GRAPH_STAT
def state : Field := ⟨0x30014, 0, 3, .ro, 0, 0, 7, .graph, 0, 1, false⟩
def deadline_miss : Field := ⟨0x30014, 3, 1, .w1c, 0, 0, 1, .graph, 0, 1, false⟩
def overrun : Field := ⟨0x30014, 4, 1, .w1c, 0, 0, 1, .graph, 0, 1, false⟩
def poison_out : Field := ⟨0x30014, 5, 1, .w1c, 0, 0, 1, .graph, 0, 1, false⟩
def refused : Field := ⟨0x30014, 6, 1, .w1c, 0, 0, 1, .graph, 0, 1, false⟩
def ops : Field := ⟨0x30014, 16, 12, .ro, 0, 0, 4095, .graph, 0, 1, false⟩
end Reg.FAB_GRAPH_STAT

namespace Reg.FAB_GRAPH_MISS_CNT
def misses : Field := ⟨0x30018, 0, 16, .rc, 0, 0, 65535, .graph, 0, 1, false⟩
def overruns : Field := ⟨0x30018, 16, 16, .rc, 0, 0, 65535, .graph, 0, 1, false⟩
end Reg.FAB_GRAPH_MISS_CNT

namespace Reg.FAB_GRAPH_TIME
def last : Field := ⟨0x3001C, 0, 16, .ro, 0, 0, 65535, .graph, 0, 1, false⟩
def max : Field := ⟨0x3001C, 16, 16, .rc, 0, 0, 65535, .graph, 0, 1, false⟩
end Reg.FAB_GRAPH_TIME

namespace Reg.FAB_FLOW_SEL
def flow : Field := ⟨0x30020, 0, 8, .rw, 0, 0, 255, .one, 0, 1, false⟩
end Reg.FAB_FLOW_SEL

namespace Reg.FAB_FLOW_STAT
def busy : Field := ⟨0x30024, 0, 1, .ro, 0, 0, 1, .flow, 0, 1, false⟩
def queued : Field := ⟨0x30024, 1, 5, .ro, 0, 0, 31, .flow, 0, 1, false⟩
def members : Field := ⟨0x30024, 8, 8, .ro, 0, 0, 255, .flow, 0, 1, false⟩
def waits : Field := ⟨0x30024, 16, 16, .rc, 0, 0, 65535, .flow, 0, 1, false⟩
end Reg.FAB_FLOW_STAT

namespace Reg.FAB_STREAM_SEL
def stream : Field := ⟨0x30028, 0, 6, .rw, 0, 0, 63, .one, 0, 1, false⟩
end Reg.FAB_STREAM_SEL

namespace Reg.FAB_STREAM_STAT
def level : Field := ⟨0x3002C, 0, 5, .ro, 0, 0, 31, .stream, 0, 1, false⟩
def depth : Field := ⟨0x3002C, 5, 5, .ro, 0, 0, 31, .stream, 0, 1, false⟩
def stalled : Field := ⟨0x3002C, 10, 1, .ro, 0, 0, 1, .stream, 0, 1, false⟩
def stall_cnt : Field := ⟨0x3002C, 16, 16, .rc, 0, 0, 65535, .stream, 0, 1, false⟩
end Reg.FAB_STREAM_STAT

namespace Reg.FAB_MISS_MAP
def miss : Field := ⟨0x30030, 0, 32, .w1c, 0, 0, 4294967295, .stride, 4, 4, false⟩
end Reg.FAB_MISS_MAP

namespace Reg.FAB_ARB_CLASS0
def cls : Field := ⟨0x30040, 0, 32, .rw, 0, 0, 4294967295, .one, 0, 1, false⟩
end Reg.FAB_ARB_CLASS0

namespace Reg.FAB_ARB_CLASS1
def cls : Field := ⟨0x30044, 0, 16, .rw, 26362, 0, 65535, .one, 0, 1, false⟩
end Reg.FAB_ARB_CLASS1

namespace Reg.FAB_ARB_DEAD_CNT
def count : Field := ⟨0x30048, 0, 32, .rc, 0, 0, 4294967295, .one, 0, 1, false⟩
end Reg.FAB_ARB_DEAD_CNT

namespace Reg.FAB_ARB_WAIT
def class0 : Field := ⟨0x3004C, 0, 8, .rc, 0, 0, 255, .one, 0, 1, false⟩
def class1 : Field := ⟨0x3004C, 8, 8, .rc, 0, 0, 255, .one, 0, 1, false⟩
def class2 : Field := ⟨0x3004C, 16, 8, .rc, 0, 0, 255, .one, 0, 1, false⟩
def class3 : Field := ⟨0x3004C, 24, 8, .rc, 0, 0, 255, .one, 0, 1, false⟩
end Reg.FAB_ARB_WAIT

namespace Reg.FAB_RX_SEL
def condition : Field := ⟨0x30050, 0, 10, .rw, 0, 0, 1023, .one, 0, 1, false⟩
end Reg.FAB_RX_SEL

namespace Reg.FAB_RX_COND
def qualified : Field := ⟨0x30054, 0, 1, .ro, 0, 0, 1, .cond, 0, 1, false⟩
def fired : Field := ⟨0x30054, 1, 1, .w1c, 0, 0, 1, .cond, 0, 1, false⟩
def edge : Field := ⟨0x30054, 2, 1, .ro, 0, 0, 1, .cond, 0, 1, false⟩
def qualifier : Field := ⟨0x30054, 8, 8, .ro, 0, 0, 255, .cond, 0, 1, false⟩
def count : Field := ⟨0x30054, 16, 16, .rc, 0, 0, 65535, .cond, 0, 1, false⟩
end Reg.FAB_RX_COND

namespace Reg.FAB_RX_ACT
def actions : Field := ⟨0x30058, 0, 9, .ro, 0, 0, 511, .cond, 0, 1, false⟩
def data : Field := ⟨0x30058, 16, 14, .ro, 0, 0, 16383, .cond, 0, 1, false⟩
end Reg.FAB_RX_ACT

namespace Reg.FAB_TRIP_OUT
def state : Field := ⟨0x3005C, 0, 8, .ro, 0, 0, 255, .one, 0, 1, false⟩
def latched : Field := ⟨0x3005C, 8, 8, .w1c, 0, 0, 255, .one, 0, 1, true⟩
def latch_mode : Field := ⟨0x3005C, 16, 8, .ro, 0, 0, 255, .one, 0, 1, false⟩
end Reg.FAB_TRIP_OUT

namespace Reg.FAB_PRIO_STAT
def blocked : Field := ⟨0x30060, 0, 16, .w1c, 0, 0, 65535, .one, 0, 1, true⟩
def qualified : Field := ⟨0x30060, 16, 16, .ro, 0, 0, 65535, .one, 0, 1, false⟩
end Reg.FAB_PRIO_STAT

namespace Reg.FAB_HOST_COND
def cond : Field := ⟨0x30064, 0, 3, .wo, 0, 0, 7, .one, 0, 1, true⟩
def assert : Field := ⟨0x30064, 8, 1, .wo, 0, 0, 1, .one, 0, 1, true⟩
end Reg.FAB_HOST_COND

namespace Reg.FAB_OBS_SEL
def observer : Field := ⟨0x30068, 0, 6, .rw, 0, 0, 63, .one, 0, 1, false⟩
end Reg.FAB_OBS_SEL

namespace Reg.FAB_OBS_STAT
def active : Field := ⟨0x3006C, 0, 1, .ro, 0, 0, 1, .observer, 0, 1, false⟩
def fired : Field := ⟨0x3006C, 1, 1, .w1c, 0, 0, 1, .observer, 0, 1, false⟩
def run : Field := ⟨0x3006C, 8, 8, .ro, 0, 0, 255, .observer, 0, 1, false⟩
def activations : Field := ⟨0x3006C, 16, 16, .rc, 0, 0, 65535, .observer, 0, 1, false⟩
end Reg.FAB_OBS_STAT

namespace Reg.FAB_RES_STAT
def resource : Field := ⟨0x30070, 0, 16, .ro, 0, 0, 65535, .one, 0, 1, false⟩
def kind : Field := ⟨0x30070, 16, 4, .ro, 0, 0, 15, .one, 0, 1, false⟩
def holder : Field := ⟨0x30070, 20, 7, .ro, 0, 0, 127, .one, 0, 1, false⟩
def valid : Field := ⟨0x30070, 31, 1, .w1c, 0, 0, 1, .one, 0, 1, false⟩
end Reg.FAB_RES_STAT

namespace Reg.FAB_UTIL
def busy : Field := ⟨0x30074, 0, 16, .ro, 0, 0, 65535, .one, 0, 1, false⟩
def engine : Field := ⟨0x30074, 16, 6, .ro, 0, 0, 63, .one, 0, 1, false⟩
end Reg.FAB_UTIL

namespace Reg.FAB_POISON_CNT
def count : Field := ⟨0x30078, 0, 32, .rc, 0, 0, 4294967295, .one, 0, 1, false⟩
end Reg.FAB_POISON_CNT

namespace Reg.FAB_SCHED_STAT
def ready_max : Field := ⟨0x3007C, 0, 12, .rc, 0, 0, 4095, .one, 0, 1, false⟩
def delay_max : Field := ⟨0x3007C, 16, 12, .rc, 0, 0, 4095, .one, 0, 1, false⟩
end Reg.FAB_SCHED_STAT

namespace Reg.FAB_ENG_CTRL
def arb_class : Field := ⟨0x30400, 0, 2, .rw, 1, 0, 3, .stride, 64, 64, false⟩
def park : Field := ⟨0x30400, 4, 1, .rw, 0, 0, 1, .stride, 64, 64, false⟩
end Reg.FAB_ENG_CTRL

namespace Reg.FAB_ENG_STAT
def busy : Field := ⟨0x30404, 0, 1, .ro, 0, 0, 1, .stride, 64, 64, false⟩
def slot_full : Field := ⟨0x30404, 1, 1, .ro, 0, 0, 1, .stride, 64, 64, false⟩
def parked : Field := ⟨0x30404, 2, 1, .ro, 0, 0, 1, .stride, 64, 64, false⟩
def domain_off : Field := ⟨0x30404, 3, 1, .ro, 0, 0, 1, .stride, 64, 64, false⟩
def graph : Field := ⟨0x30404, 4, 7, .ro, 0, 0, 127, .stride, 64, 64, false⟩
def op : Field := ⟨0x30404, 16, 12, .ro, 0, 0, 4095, .stride, 64, 64, false⟩
end Reg.FAB_ENG_STAT

namespace Reg.FAB_ENG_CNT
def busy : Field := ⟨0x30408, 0, 16, .ro, 0, 0, 65535, .stride, 64, 64, false⟩
def started : Field := ⟨0x30408, 16, 16, .ro, 0, 0, 65535, .stride, 64, 64, false⟩
end Reg.FAB_ENG_CNT
def regsFab0 : List Field :=
  [Reg.FAB_CTRL.running, Reg.FAB_CTRL.user_ev, Reg.FAB_CTRL.stall_ev, Reg.FAB_STAT.graphs,
   Reg.FAB_STAT.flows, Reg.FAB_STAT.observers, Reg.FAB_STAT.miss_any, Reg.FAB_STAT.plaus_any,
   Reg.FAB_TICK.cycles, Reg.FAB_GRAPH_SEL.graph, Reg.FAB_GRAPH_CTRL.enable, Reg.FAB_GRAPH_CTRL.release,
   Reg.FAB_GRAPH_CTRL.rt, Reg.FAB_GRAPH_CTRL.trigger, Reg.FAB_GRAPH_CTRL.deadline, Reg.FAB_GRAPH_STAT.state,
   Reg.FAB_GRAPH_STAT.deadline_miss, Reg.FAB_GRAPH_STAT.overrun, Reg.FAB_GRAPH_STAT.poison_out, Reg.FAB_GRAPH_STAT.refused,
   Reg.FAB_GRAPH_STAT.ops, Reg.FAB_GRAPH_MISS_CNT.misses, Reg.FAB_GRAPH_MISS_CNT.overruns, Reg.FAB_GRAPH_TIME.last]
def regsFab1 : List Field :=
  [Reg.FAB_GRAPH_TIME.max, Reg.FAB_FLOW_SEL.flow, Reg.FAB_FLOW_STAT.busy, Reg.FAB_FLOW_STAT.queued,
   Reg.FAB_FLOW_STAT.members, Reg.FAB_FLOW_STAT.waits, Reg.FAB_STREAM_SEL.stream, Reg.FAB_STREAM_STAT.level,
   Reg.FAB_STREAM_STAT.depth, Reg.FAB_STREAM_STAT.stalled, Reg.FAB_STREAM_STAT.stall_cnt, Reg.FAB_MISS_MAP.miss,
   Reg.FAB_ARB_CLASS0.cls, Reg.FAB_ARB_CLASS1.cls, Reg.FAB_ARB_DEAD_CNT.count, Reg.FAB_ARB_WAIT.class0,
   Reg.FAB_ARB_WAIT.class1, Reg.FAB_ARB_WAIT.class2, Reg.FAB_ARB_WAIT.class3, Reg.FAB_RX_SEL.condition,
   Reg.FAB_RX_COND.qualified, Reg.FAB_RX_COND.fired, Reg.FAB_RX_COND.edge, Reg.FAB_RX_COND.qualifier]
def regsFab2 : List Field :=
  [Reg.FAB_RX_COND.count, Reg.FAB_RX_ACT.actions, Reg.FAB_RX_ACT.data, Reg.FAB_TRIP_OUT.state,
   Reg.FAB_TRIP_OUT.latched, Reg.FAB_TRIP_OUT.latch_mode, Reg.FAB_PRIO_STAT.blocked, Reg.FAB_PRIO_STAT.qualified,
   Reg.FAB_HOST_COND.cond, Reg.FAB_HOST_COND.assert, Reg.FAB_OBS_SEL.observer, Reg.FAB_OBS_STAT.active,
   Reg.FAB_OBS_STAT.fired, Reg.FAB_OBS_STAT.run, Reg.FAB_OBS_STAT.activations, Reg.FAB_RES_STAT.resource,
   Reg.FAB_RES_STAT.kind, Reg.FAB_RES_STAT.holder, Reg.FAB_RES_STAT.valid, Reg.FAB_UTIL.busy,
   Reg.FAB_UTIL.engine, Reg.FAB_POISON_CNT.count, Reg.FAB_SCHED_STAT.ready_max, Reg.FAB_SCHED_STAT.delay_max]
def regsFab3 : List Field :=
  [Reg.FAB_ENG_CTRL.arb_class, Reg.FAB_ENG_CTRL.park, Reg.FAB_ENG_STAT.busy, Reg.FAB_ENG_STAT.slot_full,
   Reg.FAB_ENG_STAT.parked, Reg.FAB_ENG_STAT.domain_off, Reg.FAB_ENG_STAT.graph, Reg.FAB_ENG_STAT.op,
   Reg.FAB_ENG_CNT.busy, Reg.FAB_ENG_CNT.started]
/-- Every field of the FAB register map. -/
def regsFab : List Field := regsFab0 ++ regsFab1 ++ regsFab2 ++ regsFab3


end Sys2Proof.Machine
end

