-- ==== Sys2Proof/Machine/State.lean ====
section
/-! DEFINITION. The state of the block: every register field (in `regs`), every image, queue, counter and mode that the
prose of spec/ gives the device, the queue of waiting commands and the log of what left the pins and links. Values are
natural numbers below 2^width. INVENTORY.md lists every piece with its rule and reset value. -/

namespace Sys2Proof.Machine

/-! ### Time and clocks (Time; Power, clocks and reset) -/

/-- The time base: C (R344), I in Q16.48 and O in Q64.48 (R345), the grid origin Z (R348), the counter at the last rate
write or step (R364, TIM_HOLD_INFO), the level of PPS_OUT (R362) and whether a PPS_IN edge is missing (R361). -/
structure Clk where
  count : Nat
  inc : Nat
  off : Nat
  grid : Nat
  lastCorr : Nat
  ppsOut : Bool
  ppsMissing : Bool
  lockedAt : Nat
  armedAt : Nat
  ppsAt : Option Nat
  ppsLast : Option Nat
  ppsEnd : Nat
deriving DecidableEq, Repr

/-! ### Epochs, images and the point space -/

/-- One entry of the staging area (R29): a register write with the instance it named, or one point; `bad` once a word of it is
poisoned (R60). -/
inductive Entry where
  | reg (addr inst value : Nat)
  | point (a v : Nat)
  | bad (e : Entry)
deriving DecidableEq, Repr

/-- An outstanding fence (R36). -/
structure Fence where
  id : Nat
  target : Nat
  entries : List Entry
deriving DecidableEq, Repr

/-- A pin that holds (R25): its image number and the seams left before it expires. -/
structure Pin where
  number : Nat
  left : Nat
deriving DecidableEq, Repr

/-- A bench in an on-die frame (R54). -/
structure Frame where
  frame : Nat
  bench : Nat
  dirty : Bool
deriving DecidableEq, Repr

/-- A host read that waits for benches to be paged in (R54, R477), with the words that it has taken, point by point. -/
structure BenchWait where
  req : Nat
  addr : Nat
  len : Nat
  got : List (Option Pt)
deriving DecidableEq, Repr

/-- Accumulator of one extended point between two folds (R56): reports counted, the range of their values (binary32),
the sum of absolute energy changes (binary64), the last value of a point that keeps the last report's, and its poison (R60). -/
structure Acc where
  count : Nat
  range : Option (Nat × Nat)
  energy : Nat
  last : Option Nat
  bad : Bool
deriving DecidableEq, Repr

/-- Samples of a quantity (R49), in units of 2^-149: their number, their exact sum, and the samples themselves, newest first,
from which the mean absolute deviation is formed. -/
structure Mean where
  n : Nat
  sum : Int
  vals : List Int
deriving DecidableEq, Repr

/-- State of the epoch engine: running epoch k, whether S(0) has been reached, S(k), the open generation (R32), the
outstanding fences (R36), the pin (R25), a requested statistics reset (R50), frames 0 to 46 least recently used first and
frame 47 (R54), waiting reads, roll-up position, accumulators, means and fold epochs (R56), corrected words of the running
second (R62), extended points whose word on the memory die went bad while their bench stands in a frame, registers that hold a
poisoned word as (address, unit) (R60, R61), and the host's writes of extended points in the latest core cycle that had one (R57). -/
structure Epo where
  k : Nat
  begun : Bool
  seam : Nat
  opened : List Entry
  fences : List Fence
  pin : Option Pin
  statReset : Bool
  frames : List Frame
  rollFrame : Option Frame
  waits : List BenchWait
  rollNext : Nat
  accs : List (Nat × Acc)
  means : List (Nat × Mean)
  folds : List (Nat × Nat)
  ceSecond : Nat
  dieBad : List Nat
  badRegs : List (Nat × Nat)
  extCycle : Nat
  extWrites : List (Nat × Nat)
deriving DecidableEq, Repr

/-- The stored points: three images of live cell points and station points (R21), the extended points (R47). -/
structure Pts where
  work : List (Nat × Pt)
  pub : List (Nat × Pt)
  pin : List (Nat × Pt)
  ext : List (Nat × Pt)
deriving DecidableEq, Repr

/-- The on-die event buffer (R44): records waiting, records dropped since the last loss record, and the moderation of
vector 0 (R482): records written since its last message, and the cycle of the oldest of them; the fence markers in the buffer whose
vector has fired at their generation, as (epoch, data) (R480). -/
structure Evq where
  buf : List Event
  dropped : Nat
  written : Nat
  oldest : Nat
  told : List (Nat × Nat)
deriving DecidableEq, Repr

/-- One sample of the disturbance recorder (R63). -/
structure DrSample where
  epoch : Nat
  time : Nat
  vals : List Pt
deriving DecidableEq, Repr

/-- The disturbance recorder (R63 to R66): channels, seams until the next sample, samples before and after the trigger,
the trigger's epoch and time, samples still to record; the number of channels and the decimation that the record was armed with, and
whether it is short. -/
structure Dr where
  chans : List (Nat × Nat)
  skip : Nat
  pre : List DrSample
  post : List DrSample
  trig : Option (Nat × Nat)
  left : Nat
  n : Nat
  dec : Nat
  short : Bool
deriving DecidableEq, Repr

/-! ### Host interface -/

/-- One entry of the MSI-X table (R479). -/
structure Msix where
  addr : Nat
  data : Nat
  masked : Bool
deriving DecidableEq, Repr

/-- How a host read completed (R61, R476). -/
inductive Completion where
  | ok | unsupported | poisoned
deriving DecidableEq, Repr

/-- The last host read that completed. -/
structure ReadDone where
  req : Nat
  addr : Nat
  status : Completion
  data : List Nat
deriving DecidableEq, Repr

/-- The PCIe side: MSI-X table and pending bits (R479), host memory as the device's own transfers leave it (R471), the
LO/HI latches per requester (R19), the last completed read, and requests that wait for Bus Master Enable (R473). -/
structure HostIf where
  msix : List (Nat × Msix)
  pba : List (Nat × Bool)
  mem : List Host.Cell
  latch : List (Nat × Option Nat)
  rdata : Option ReadDone
deriving DecidableEq, Repr

/-- One Ethernet port's delay measurement (R360): the message pair being matched and its four times. -/
structure PtpMatch where
  seq : Nat
  t1 : Option Nat
  t2 : Option Nat
  t3 : Option Nat
  t4 : Option Nat
  corr : Int
deriving DecidableEq, Repr

/-- Ethernet port state beside its registers: Sync timing and delay timing in progress (R360), whether an m has been
accepted since ptp_en or a peer change, an open ring-full
episode (R359), records since the last receive signal (ETH_IRQ_CTRL). -/
structure Eth where
  sync : PtpMatch
  delay : PtpMatch
  seen : Bool
  ringFull : Bool
  rxSince : Nat
deriving DecidableEq, Repr

/-! ### The reaction matrix (R285, R507) -/

/-- One reaction condition: its source's level, its data, whether it is qualified, and what waits for it to qualify: the data
of each one-cycle occurrence, or of each cell that began to meet the condition at the last seam. -/
structure Cond where
  level : Bool
  data : Nat
  qualified : Bool
  waiting : List Nat
deriving DecidableEq, Repr

/-! ### Arms, cells, lanes and units -/

/-- A grid of reloads (R84, R88): reload r falls at t0 + (r - r0) x n x p. -/
structure Grid where
  t0 : Nat
  r0 : Nat
  n : Nat
  p : Nat
deriving DecidableEq, Repr

/-- An arm engine: mode in effect (R98), level of the last decision (R80), direction (R124), carrier grid and those that follow it, in
time order, a period of 0 ending the carrier (R84, R88), cells in phase order and the order from a later reload on (R86), last reload
sent, prescaler counts (R91), the cell whose host retirement awaits RETIRE (R100), the target epoch at which DEBLOCKING or BLOCKING ends
with the block's cause and whether OFF follows (R94, R95, R98), the epoch whose decision deblocks, the first target epoch of CARRIER
sets (R84), the target epoch at which a change to nearest-level sets every cell (R89), a block asked for by a reaction path, queued
retirements as (cell, reason, by the host), with the core cycle of the latest and how many at the end of the queue a reaction path made
in it (R100), the window in effect (R112), the last duty (R75, R85). -/
structure ArmRt where
  mode : Nat
  nPrev : Int
  dirNeg : Bool
  grid : Option Grid
  nextGrids : List Grid
  phases : List Nat
  nextPhases : Option (Nat × List Nat)
  lastReload : Option Nat
  counts : List (Nat × Nat)
  goal : Option Nat
  cause : Nat
  offAfter : Bool
  deblockEpoch : Option Nat
  carrierFrom : Option Nat
  setAll : Option Nat
  blockReq : Bool
  queue : List (Nat × Nat × Bool)
  queueCycle : Nat
  queueNew : Nat
  hostCell : Option Nat
  lo : Nat
  hi : Nat
  duty : Nat
  blockAt : Option Nat
deriving DecidableEq, Repr

/-- The device's record of a cell: contribution and switch bits that its arm commanded, commanded bits by target epoch (R108), bits as
the builder encoded them (R508), last bypass variant (R72; 0 none, 1 upper, 2 lower), retirement (R99), exclusion and its held
conditions (R120), whether its removal or RETIRE is still to be commanded, commands decided by target epoch, bound slot and serial clash
(R208, R209), next sequence (R200), last edge (R151), dead time last used and last sent (R147, R148), whether DEADTIME goes with the
next SET, owed DEADTIME and WATCHDOG with their ages in frames (R182), whether WATCHDOG has been owed since the last claim (R205),
carrier running and the sets sent as (T, P, phase, q) (R194), the station time at which a TEST that it was sent ends (R185), its last clean
voltage (R123), shift of its isolation stage for
the latest reload and for the one before (R248), target epochs of its last drops and interlocks (R108), epoch of its last valid report
(R48), the epoch at whose seam it retired (R99, R101), whether its temperature has been reported. -/
structure CellRt where
  contrib : Int
  bits : Nat
  hist : List (Nat × Nat)
  built : Nat
  variant : Nat
  retired : Bool
  excluded : Bool
  cond1 : Bool
  cond2 : Bool
  removeNow : Bool
  retireNow : Bool
  cmds : List (Nat × CellCmd)
  slot : Option Nat
  seq : Nat
  lastEdge : Option Nat
  deadUsed : Option Nat
  deadSent : Option Nat
  deadWithSet : Bool
  oweDead : Option Nat
  oweWatch : Option Nat
  watchDone : Bool
  carrier : Bool
  sets : List (Nat × Nat × Nat × Int)
  testUntil : Option Nat
  lastV : Option Nat
  sigma : Int
  sigmaOld : Int
  drops : List Nat
  reported : Option Nat
  retiredAt : Nat
  tempSeen : Bool
deriving DecidableEq, Repr

/-- The device's record of a lane or group: frames left with ident set (R208), whether its cells have been bound, and checked in this run of
identity blocks, t_b of the last 16 frames by tag (R207), round trips held for ACQUIRING, TRACKING or HELD (R354, R355), marker count and
the lane field of the last ALIGN received (R221), whether an ALIGN has arrived since lock (R222), deskew of its members, transmit
equalisation waiting for a marker (R234), the time at which 0x206 was last raised and the BIP errors of the last second as (time, errors)
(R222), an H above the lane's claim already seen (R199) in how many frames running, the last H, the safety block bit (R405), the scrambler's
register (R217), the parity of the payloads sent since the last marker (R222) and the rows since then (R221), count, width and tx_mask of
the last ALIGN received on the member (R228), and whether an eye scan was begun without lock (R236); cycle of the last safety block (R201),
next stripe position (R224), whether an ALIGN, valid or not, has arrived since lock, and how many with an invalid CRC since the last valid
one (R222). -/
structure LaneRt where
  ident : Nat
  bound : Bool
  checked : Bool
  sent : List (Nat × Nat)
  trips : List Nat
  marker : Nat
  farLane : Nat
  aligned : Bool
  eqTx : Nat × Nat
  eqRx : Nat
  eqPending : Option (Nat × Nat)
  bipSecond : Option Nat
  bipLog : List (Nat × Nat)
  higher : Nat
  lastH : Nat
  safBlock : Bool
  scrambler : Nat
  bip : Nat
  since : Nat
  farCount : Nat
  farWidth : Nat
  farMask : Nat
  eyeBad : Bool
  safAt : Option Nat
  stripe : Nat
  marked : Bool
  skipped : Nat
deriving DecidableEq, Repr

/-- A unit of the SST personality: state, last tag and refusal (Table 7.2, R253), the epoch at whose seam the low-voltage bridges
stop, shift clamped in the running epoch, reload of the last decision, the reload after the last one for which 0x125 was
raised, whether a reaction path blocked a low-voltage channel since the last BLOCK (R254), whether BLOCK is to end in
BLOCKED, whether the stop is the safety domain's (R255), whether a string was blocked from outside (R256). -/
structure UnitRt where
  state : Nat
  tag : Nat
  refusal : Nat
  lvStop : Option Nat
  clamped : Bool
  reload : Nat
  slewAt : Nat
  lvBlocked : Bool
  toBlocked : Bool
  safety : Bool
  follow : Bool
deriving DecidableEq, Repr

/-! ### Local drive channels -/

/-- A set of a drive channel (R155). -/
structure DrvSet where
  period : Nat
  n : Nat
  duty : Nat
  phase : Nat
deriving DecidableEq, Repr

/-- The fields of DRV_CTRL in effect (R175). -/
structure DrvCtl where
  adaptive : Bool
  refreshEn : Bool
  dead : Nat
  refreshN : Nat
  refreshWidth : Nat
  relEv : Bool
deriving DecidableEq, Repr

/-- A mode-2 state taken from the channel's point (R162): S(target) + tau, or the station time itself once S(target) is reached. -/
structure TimedCmd where
  target : Nat
  tau : Nat
  at_ : Option Nat
  hi : Bool
  lo : Bool
deriving DecidableEq, Repr

/-- A scheduled edge of the pins: from station time `t` they are at these levels. `dead` is the dead time of a turn-on (R168), `low`
the level of DRV_FLT_N at the edge where a command told it (R169). -/
structure PinEdge where
  t : Nat
  hi : Bool
  lo : Bool
  dead : Option Nat
  low : Option Bool
deriving DecidableEq, Repr

/-- A drive channel: mode in effect, a mode or static state written and not yet in effect, fields in effect, set in effect, pending set with
the first reload that may apply it, a set committed in or after the reload cycle of a set that is still to be applied (R155), set last taken
from points (R161), pin levels and scheduled edges, start of the next period with its length and whether it is the first, index of the next
reload, periods until it, time of the last one, periods since a refresh (R171), last commanded edge (R151), node delays measured since the
mode took effect (R168), mode-2 states to come, DRV_FLT_N low and edges commanded meanwhile, the edge after whose core cycle the fault latch
sets again (R169), per line the taps of its valid table, those of a new table that waits, and whether it is in a failure episode (R167). -/
structure DrvRt where
  mode : Nat
  nextMode : Option Nat
  static : Bool
  ctl : DrvCtl
  on : Option DrvSet
  pending : Option (DrvSet × Nat)
  later : Option (DrvSet × Nat)
  taken : Option DrvSet
  badSet : Option DrvSet
  hi : Bool
  lo : Bool
  edges : List PinEdge
  next : Nat
  len : Nat
  reload : Nat
  left : Nat
  lastReload : Option Nat
  starved : Nat
  lastEdge : Option Nat
  rise : Option Nat
  fall : Option Nat
  timed : List TimedCmd
  flt : Bool
  fltEdges : Nat
  again : Option Nat
  tables : Option Nat × Option Nat
  fresh : Option Nat × Option Nat
  failing : Bool × Bool
deriving DecidableEq, Repr

/-! ### Control fabric -/

/-- An effect that a job's commit carries out (R277). -/
inductive Effect where
  | point (a : Nat) (p : Pt) (tag : Bool)
  | queue (q : Nat) (p : Pt)
  | store (a : Nat) (p : Pt)
  | zdelay (op : Nat) (p : Pt)
  | cmp (op : Nat) (b : Bool)
  | alarm (cond : Nat) (b : Bool) (data : Nat)
  | event (user data : Nat) (bad : Bool)
  | release (graph : Nat)
  | observe (observer count r : Nat) (outside : Bool)
deriving DecidableEq, Repr

/-- A job (R261): the definition it was released under (R279), its number, release cycle, absolute deadline cycle, items on its
edges with the cycle from which they are present, operations dispatched and ended, effects that wait for its commit, and
stream and queue items taken. -/
structure Job where
  g : GraphEntry
  id : Nat
  released : Nat
  deadline : Option Nat
  items : List (Nat × Nat × Pt × Nat)
  begun : List Nat
  ended : List Nat
  effs : List Effect
  taken : Nat
deriving DecidableEq, Repr

/-- A release that waits (R273, R274): the graph's definition at its release (R279), release cycle and absolute deadline cycle, and
whether it has waited for its flow. -/
structure Waiting where
  g : GraphEntry
  released : Nat
  deadline : Option Nat
  waited : Bool
deriving DecidableEq, Repr

/-- An operation on an engine (R269): its job, inputs taken at dispatch, first service cycle, and what SRC_POINT read when it
started (R265). -/
structure Run where
  graph : Nat
  id : Nat
  op : OpEntry
  ins : List Pt
  start : Nat
  got : Option (List Pt)
deriving DecidableEq, Repr

/-- An engine: operation in service, prefetch slot, busy cycles and operations started in the running epoch. -/
structure Engine where
  run : Option Run
  slot : Option Run
  busy : Nat
  started : Nat
deriving DecidableEq, Repr

/-- An item of a stream or a queue: its words and the cycle in which it entered. -/
structure Item where
  vals : List Pt
  entered : Nat
deriving DecidableEq, Repr

/-- A stream buffer: items, whether it is in a back-pressure episode, whether this epoch has been counted. -/
structure StreamRt where
  items : List Item
  stalled : Bool
  counted : Bool
deriving DecidableEq, Repr

structure QueueRt where
  items : List Item
  reserved : Nat
deriving DecidableEq, Repr

/-- A flow: the graph whose job is active, and its release queue. -/
structure FlowRt where
  active : Option Nat
  queue : List Waiting
deriving DecidableEq, Repr

/-- An observer (R280): active, run of outside samples, run of samples that are not outside. -/
structure ObsRt where
  active : Bool
  outside : Nat
  inside : Nat
deriving DecidableEq, Repr

/-- An entry of the delay lists (R272): a TIMER release, or a DELAY item of a job. -/
inductive Delayed where
  | timer (graph : Nat)
  | item (graph id op : Nat) (p : Pt)
deriving DecidableEq, Repr

/-- A graph's enable in effect, its state, its flags of the running epoch (Table 8.2 [7:3]) and an open episode of R271. -/
structure GraphRt where
  enabled : Bool
  state : Nat
  flags : Nat
  cycles : Nat
  unavailable : Bool
deriving DecidableEq, Repr

/-- The control fabric: graphs, jobs, releases waiting for queue space, engines, streams, queues, flows, observers, store words
(R264), ZDELAY values and CMP states by operation, delay list by wake cycle, the next tick boundary, the cycle of S(k), the
next job number, the dispatches of the present cycle (R269), and the actions that reaction conditions have carried out in a cycle, each
with its condition (R286); and the STREAM or QUEUE graphs whose items release them again, with the cycle in which their job ended
(R261). -/
structure Fab where
  graphs : List (Nat × GraphRt)
  jobs : List Job
  space : List Waiting
  engines : List (Nat × Engine)
  streams : List (Nat × StreamRt)
  queues : List (Nat × QueueRt)
  flows : List (Nat × FlowRt)
  obs : List (Nat × ObsRt)
  stores : List (Nat × Pt)
  zdelay : List (Nat × Pt)
  cmp : List (Nat × Bool)
  delays : List (Nat × Delayed)
  nextTick : Nat
  seamCycle : Nat
  nextId : Nat
  dispatched : Nat × List Nat
  acted : Nat × List (Action × Nat)
  again : List (Nat × Nat)
deriving DecidableEq, Repr

/-! ### Orders -/

/-- A ramp engine's parameter set (R300), binary32. -/
structure RampPar where
  vmax : Nat
  vstart : Nat
  vstop : Nat
  vc : Nat
  acc1 : Nat
  acc2 : Nat
  dec1 : Nat
  dec2 : Nat
  lo : Nat
  hi : Nat
deriving DecidableEq, Repr

/-- A ramp engine (R299 to R304): position and rate (binary64), direction, state, target in effect (binary32), committed valid
set, rates of this motion, decelerations in effect, deferral, last status and tag, refusals, follow target clamped. -/
structure RampRt where
  x : Nat
  v : Nat
  neg : Bool
  state : Nat
  target : Nat
  par : RampPar
  vstart : Nat
  vstop : Nat
  vc : Nat
  dec1 : Nat
  dec2 : Nat
  deferred : Bool
  status : Nat
  tag : Nat
  refusals : Nat
  clamped : Bool
deriving DecidableEq, Repr

/-- A reference generator (R306 to R311): mode, base phase and its time, frequency word, previous sample, whether the next sample
sets the phase, holdover with the epoch in which it began, clamp, last tag and refusal, station time from which t_hold runs (R311). -/
structure GenRt where
  mode : Nat
  base : Nat
  at_ : Nat
  f : Nat
  prev : Option (Nat × Nat)
  resync : Bool
  holdover : Option Nat
  clamped : Bool
  tag : Nat
  refusal : Nat
  since : Nat
deriving DecidableEq, Repr

/-- An order input (R296 to R298): configuration in effect, whether a write waits for the seam, restart flag, rising edges since the
mode took effect, cycles of the latest rising edges (newest first), the falling edge since the last of them, the last two complete
periods as (end, high, period), newest first, station time of the last edge, the epoch in which loss began, an open poison episode, the
value last formed, and the cycle of the last rising edge or of the start (R297). -/
structure InputRt where
  mode : Nat
  filt : Nat
  gate : Nat
  src : Nat
  written : Bool
  restart : Bool
  count : Nat
  rises : List Nat
  fall : Option Nat
  duty : List (Nat × Nat × Nat)
  lastTime : Nat
  loss : Option Nat
  poison : Bool
  value : Nat
  since : Nat
deriving DecidableEq, Repr

/-- The ORD block: engines, generators, inputs, both banks of the shape tables, HALT requests waiting, epoch of the last tick. -/
structure Ord where
  ramps : List (Nat × RampRt)
  gens : List (Nat × GenRt)
  inputs : List (Nat × InputRt)
  tables : List (Nat × Pt)
  halt : Nat
  lastTick : Option Nat
deriving DecidableEq, Repr

/-! ### Measurement -/

/-- A sample whose rounds are over and that is not formed yet (R318): sequence entry with its number, whether it is injected and a
lead round's, whether it holds a settling conversion, added delay, core cycle of its first sampling instant, rounds. -/
structure Forming where
  entry : SeqEntry
  num : Nat
  injected : Bool
  lead : Bool
  settle : Bool
  delay : Nat
  first : Nat
  rounds : Nat
deriving DecidableEq, Repr

/-- The decimator (R330 to R332): OSR and FIR in effect, modulator bits and decimated values, newest first, settling samples left. -/
structure DsRt where
  osr : Nat
  fir : Bool
  bits : List Bool
  ys : List Int
  settle : Nat
deriving DecidableEq, Repr

/-- A converter core (R318 to R333): mode in effect, entries of the run in progress with the one in service, whether its lead round
is done, rounds of it done (samples in mode 2); injected queue as (entry, request cycle), the injected entry in service and its
delay; input and gain converted last; core cycle of the coming round boundary, whether a round is in progress, first sampling
instant of its sample and whether that holds a settling conversion; samples being formed, oldest first; the decimator, newest
modulator bits of the comparators' path, and the output sample that a mode change leaves to finish (R333); trigger offset and
parameter in effect (R343); the injected entries whose fabric signal a commit has changed (R323); drops of the epoch; an open overrun
episode. -/
structure CoreRt where
  mode : Nat
  entries : List SeqEntry
  running : Bool
  pos : Nat
  lead : Bool
  taken : Nat
  queue : List (Nat × Nat)
  busy : Option (Nat × SeqEntry)
  delay : Nat
  last : Option (Nat × Nat)
  next : Nat
  round : Bool
  first : Nat
  settling : Bool
  forming : List Forming
  ds : DsRt
  fast : List Bool
  tail : Option (Nat × SeqEntry × DsRt)
  offset : Nat
  param : Nat
  changed : List Nat
  drops : Nat
  overrun : Bool
deriving DecidableEq, Repr

/-- An analogue input: comparator states, a clipped conversion in the epoch, an open clip episode, samples and range of the
epoch. -/
structure AinRt where
  above : Bool
  below : Bool
  clip : Bool
  clipOpen : Bool
  n : Nat
  range : Option (Nat × Nat)
deriving DecidableEq, Repr

/-- A system-calibration step (R334): input, step, samples wanted and taken, their binary64 sum, full scale, and the results
held. -/
structure SysCal where
  active : Bool
  input : Nat
  step : Nat
  want : Nat
  n : Nat
  sum : Nat
  gain : Nat
  v0 : Option Nat
  v1 : Option Nat
deriving DecidableEq, Repr

/-- A subscription (R335 to R337): last accepted smpCnt and its time, timeout, a gap in the epoch and in the episode, duplicates
discarded, and the cycle from which t_sv runs. -/
structure SvRt where
  last : Option Nat
  time : Nat
  timeout : Bool
  gapEpoch : Bool
  gapOpen : Bool
  dups : Nat
  since : Nat
deriving DecidableEq, Repr

/-- The ADC block; `dropping` lists streams, and `overflow` ports, in an open episode; `held` has the frames in the buffers of R338, as
(port, number that their requests at the arbiter bear). -/
structure Adc where
  cores : List (Nat × CoreRt)
  ains : List (Nat × AinRt)
  subs : List (Nat × SvRt)
  cal : SysCal
  dropping : List Nat
  overflow : List Nat
  held : List (Nat × Nat)
deriving DecidableEq, Repr

/-! ### Redundancy -/

/-- A checkpoint slot of the retention store with its CRC-64 (R379); `bad` once a word of it is poisoned (R60, R383). -/
structure Slot where
  valid : Bool
  seq : Nat
  image : CritImage
  crc : Nat
  bad : Bool
deriving DecidableEq, Repr

/-- A checkpoint being received: slot, image sequence, segments that have arrived with their bytes. -/
structure CkptRx where
  slot : Nat
  seq : Nat
  parts : List (Nat × List Byte)
deriving DecidableEq, Repr

/-- Part of a unit in a handover (R388 to R392). -/
inductive Hand where
  | none | incoming | outgoing
deriving DecidableEq, Repr

/-- A graph release or an arm decision that waits for its mirror (R390). -/
inductive Held where
  | release (graph cycle : Nat)
  | decision (arm : Nat)
deriving DecidableEq, Repr

/-- The redundancy controller: times of the last symbol and message from the partner (R376), consecutive symbols per path with a code other
than ACTIVE, RECEIVING and LISTEN, whether the code before them was ACTIVE, codes heard in LISTEN; both slots and the checkpoint being
received (R379); binding record and slow benches held, by extended point (R380); checkpoint being sent, its sequence, seams since the last
start, whether one is due or an early one is, and what calls for an early one as it stood at the last seam (R378); next slow bench and
sweep; own message sequence and (source, sequence) pairs accepted (R394); handover: part, seam h, READY sent or heard, whether mirroring,
next run to send and to receive, writes that wait for the checkpoint, the image held, whether term T + 1 has been seen, releases and
decisions to hold, those held, those whose mirror has arrived (R389 to R392); take-over: cycle of the declaration, cycle of the restore's
start, image restored, whether the restore is done, whether it is a cold start (R383, R386); whether the seam since DEMOTED is still to come
(R387), since when healthy (R388), an uncorrectable error seen, epoch of this unit's request, cycle of S(h); epoch of the last change of
role (R398), time of the last code ACTIVE (R385), words mirrored in the running epoch (R389), lanes up at the last seam of a handover
(R392). -/
structure Red where
  lineAt : Option Nat
  ringAt : Option Nat
  lineOther : Nat
  ringOther : Nat
  wasActive : Bool
  heard : List Nat
  slot0 : Slot
  slot1 : Slot
  rx : Option CkptRx
  bind : BindRecord
  slow : List (Nat × Pt)
  tx : Option CritImage
  txSeq : Nat
  since : Nat
  due : Bool
  early : Bool
  sig : List Nat
  slowNext : Nat
  sweep : Nat
  msgSeq : Nat
  seen : List (Nat × Nat)
  hand : Hand
  h : Option Nat
  ready : Bool
  mirroring : Bool
  runOut : Nat
  runIn : Nat
  buffer : List MirrorWrite
  image : Option CritImage
  termSeen : Bool
  holdGraphs : List Nat
  holdArms : List Nat
  held : List Held
  arrived : List MirrorWrite
  declared : Nat
  restoring : Nat
  restored : Option CritImage
  restoreDone : Bool
  cold : Bool
  demoteNow : Bool
  healthyAt : Option Nat
  ue : Bool
  asked : Nat
  hCycle : Nat
  roleEpoch : Nat
  activeAt : Option Nat
  mirrorCount : Nat
  upLanes : List Nat
deriving DecidableEq, Repr

/-! ### Safety -/

/-- A safety input channel (R410 to R413): demands, failed its test, tests passed in a row since. -/
structure ChanRt where
  demand : Bool
  fail : Bool
  passed : Nat
deriving DecidableEq, Repr

structure PairRt where
  a : ChanRt
  b : ChanRt
  disc : Bool
deriving DecidableEq, Repr

/-- A privileged channel (R414, R415): both readings, each stale or not, a discrepancy in effect. -/
structure PchRt where
  xa : Nat
  xb : Nat
  staleA : Bool
  staleB : Bool
  disc : Bool
deriving DecidableEq, Repr

/-- The SAF domain: pairs, privileged channels, target, t_r and source of each stop in progress (R417), time at which the unlock opened
(R419), targets held by an expiry action, outputs that it switched off (Table 13.1), output pins that disagree (R422), clock windows out
of range in a row (R403), start of the degraded window (R423), STP outputs that disagree (R411); an internal discrepancy that no self-check
has disproved since (R424), cycle from which each STP output was low last (R411). -/
structure Saf where
  pairs : List (Nat × PairRt)
  pchs : List (Nat × PchRt)
  stopAt : List (Nat × Nat × Nat)
  unlock : Option Nat
  expiryHold : Nat
  outputsOff : Bool
  soutBad : List Nat
  clkBad : Nat
  degAt : Nat
  stpBad : List Nat
  internal : Bool
  pulses : List (Nat × Nat)
deriving DecidableEq, Repr

/-! ### Configuration -/

/-- A key slot (R432): the hash of its public key once programmed. -/
structure KeySlot where
  hash : Option Nat
  revoked : Bool
deriving DecidableEq, Repr

/-- A flash command in progress (R436): code and address. -/
structure FlashOp where
  cmd : Nat
  addr : Nat
deriving DecidableEq, Repr

/-- A replacement package that is staged or armed (R441): its replaceable sections decoded, its extent in flash, its directory hashes by
type and instance, the target epoch that it is armed for (R442); `bad` once a word of it in the retention store is poisoned (R60). -/
structure Staged where
  parts : List LrPart
  base : Nat
  length : Nat
  hashes : List (Nat × Nat × List Byte)
  target : Nat
  bad : Bool
deriving DecidableEq, Repr

/-- The configuration block: flash contents and page buffer, key slots and hash words entered, flash command in progress, whether a
load or a verify is in progress, the images that it tries with their bases, as they stood when it began (R437), extent of the running
image (length 0 while no bit-stream runs), package, directory hashes of the sections in effect by type and instance (R433). -/
structure Cfg where
  flash : List (Nat × Nat)
  page : List (Nat × Nat)
  keys : List (Nat × KeySlot)
  words : List Nat
  op : Option FlashOp
  loading : Bool
  verifying : Bool
  order : List (Nat × Nat)
  extent : Nat × Nat
  staged : Option Staged
  hashes : List (Nat × Nat × List Byte)
deriving DecidableEq, Repr

/-! ### Power -/

/-- What the AON domain keeps beside its registers: reset asserted, held for 200 ms, DORMANT, rank and term of the heartbeats sent
meanwhile (R374, R462 to R467), causes latched at the next release, cycles of the last assertion and of the last release, cycle
from which each domain wakes with the state it left, cycle of the wake of each quadrant whose lanes are not all up, the power-on reset
holds the device (R458). -/
structure Pwr where
  inReset : Bool
  held200 : Bool
  dormant : Bool
  hbRank : Nat
  hbTerm : Nat
  causes : Nat
  assertedAt : Nat
  releasedAt : Nat
  waking : List (Nat × Nat × Nat)
  quadFrom : List (Nat × Nat)
  por : Bool
deriving DecidableEq, Repr

/-! ### The whole -/

/-- JTAG port (R496, R497): the instruction in effect and what the register captures at the next scan. -/
structure Jtag where
  ir : Nat
  capture : Nat
deriving DecidableEq, Repr

/-- A request at the point-bank arbiter (R281): requester (Table 8.5), bank, transfers of its burst, the first cycle in which it is
present, the job whose end withdraws it (R283) or the sampled-value frame that it belongs to (R338). -/
structure ArbReq where
  who : Nat
  bank : Nat
  len : Nat
  since : Nat
  job : Option Nat
deriving DecidableEq, Repr

/-- A bank: the winner of the last arbitration whose burst has not begun and the class of its grant (R282), the cycle from which the bank is
free, and the requester granted last in each class (R281). -/
structure Bank where
  winner : Option ArbReq
  cls : Nat
  until_ : Nat
  turn : List Nat
deriving DecidableEq, Repr

/-- The point-bank arbiter: the cycle that it comes to next, requests present, banks. -/
structure Arb where
  at_ : Nat
  reqs : List ArbReq
  banks : List (Nat × Bank)
deriving DecidableEq, Repr

/-- The machine. DESIGN CHOICE (notes/assumptions/4.md). -/
structure State where
  pending : List Instr
  wire : List Wire
  free : Nat
  serial : Nat
  regs : List (Nat × Nat)
  clk : Clk
  epo : Epo
  pts : Pts
  evq : Evq
  dr : Dr
  host : HostIf
  eth : List (Nat × Eth)
  conds : List (Nat × Cond)
  jtag : Jtag
  arms : List (Nat × ArmRt)
  cells : List (Nat × CellRt)
  lanes : List (Nat × LaneRt)
  units : List (Nat × UnitRt)
  drv : List (Nat × DrvRt)
  cal : Nat
  fab : Fab
  ord : Ord
  adc : Adc
  red : Red
  saf : Saf
  cfg : Cfg
  pwr : Pwr
  bs : BitStream
  arb : Arb
deriving DecidableEq, Repr

/-- Why a step stops with a fault: no meaning of this block does; the manual gives every command an outcome. -/
inductive Fault where
  /-- Raised by no meaning. Safe: it is never answered. -/
  | none
deriving DecidableEq, Repr

/-- Why a step is refused. -/
inductive Refusal where
  /-- Answered by an arm of Dispatch.lean for a command without a meaning. Safe: nothing is claimed of it. -/
  | notModelled (mnemonic : String)
  /-- Answered for a term that no sender can form (WellFormed.lean). Safe: it stands for no command. -/
  | illFormed
deriving DecidableEq, Repr

/-! ### Reset -/

def Pt.clear : Pt := ⟨0, false⟩
def Msix.reset : Msix := ⟨0, 0, true⟩
def Acc.clear : Acc := ⟨0, none, 0, none, false⟩
def Mean.clear : Mean := ⟨0, 0, []⟩
def Cond.clear : Cond := ⟨false, 0, false, []⟩
def PtpMatch.clear : PtpMatch := ⟨0, none, none, none, none, 0⟩
def Eth.reset : Eth := ⟨PtpMatch.clear, PtpMatch.clear, false, false, 0⟩

def ArmRt.clear : ArmRt :=
  ⟨0, 0, false, none, [], [], none, none, [], none, 0, false, none, none, none, false, [], 0, 0, none, 0, 0, 0, none⟩
def CellRt.clear : CellRt :=
  ⟨0, 0, [], 0, 0, false, false, false, false, false, false, [], none, 0, none, none, none, true, none, none, false, false,
   [], none, none, 0, 0, [], none, 0, false⟩
def LaneRt.clear : LaneRt := ⟨0, false, false, [], [], 0, 0xFF, false, (0, 0), 0, none, none, [], 0, 0, true, 0, 0, 0, 0, 0, 0, false, none, 0, false, 0⟩
def UnitRt.clear : UnitRt := ⟨0, 0, 0, none, false, 0, 0, false, false, false, false⟩

/-- The time base at AON power-up (R344, R345, R348): I is 32.0. -/
def Clk.reset : Clk := ⟨0, 0x0020000000000000, 0, 0, 0, false, false, 0, 0, none, none, 0⟩

/-- No bit-stream has started. -/
def Epo.reset : Epo :=
  ⟨0, false, 0, [], [], none, false, [], none, [], 0, [], [], [], 0, [], [], 0, []⟩

def DrvCtl.clear : DrvCtl := ⟨false, false, 0, 0, 0, false⟩
def DrvRt.clear : DrvRt :=
  ⟨0, none, false, DrvCtl.clear, none, none, none, none, none, false, false, [], 0, 0, 0, 0, none, 0, none, none, none, [], false, 0, none,
   (none, none), (none, none), (false, false)⟩
def Engine.idle : Engine := ⟨none, none, 0, 0⟩
def StreamRt.empty : StreamRt := ⟨[], false, false⟩
def QueueRt.empty : QueueRt := ⟨[], 0⟩
def FlowRt.idle : FlowRt := ⟨none, []⟩
def ObsRt.clear : ObsRt := ⟨false, 0, 0⟩
def GraphRt.clear : GraphRt := ⟨false, 0, 0, 0, false⟩
def Fab.reset : Fab := ⟨[], [], [], [], [], [], [], [], [], [], [], [], 0, 0, 0, (0, []), (0, []), []⟩

/-- No burst is under way; the first round starts with requester 0. DESIGN CHOICE (notes/assumptions/117.md). -/
def Bank.idle : Bank := ⟨none, 0, 0, [87, 87, 87, 87]⟩
def Arb.reset : Arb := ⟨0, [], []⟩

def RampPar.clear : RampPar := ⟨0, 0, 0, 0, 0, 0, 0, 0, 0, 0⟩
def RampRt.clear : RampRt := ⟨0, 0, false, 0, 0, RampPar.clear, 0, 0, 0, 0, 0, false, 0, 0, 0, false⟩
def GenRt.clear : GenRt := ⟨0, 0, 0, 0, none, true, none, false, 0, 0, 0⟩
def InputRt.clear : InputRt := ⟨0, 0, 0, 0, false, false, 0, [], none, [], 0, none, false, 0, 0⟩
def Ord.reset : Ord := ⟨[], [], [], [], 0, none⟩

def DsRt.clear : DsRt := ⟨50, true, [], [], 0⟩
def CoreRt.clear : CoreRt :=
  ⟨0, [], false, 0, false, 0, [], none, 0, none, 0, false, 0, false, [], DsRt.clear, [], none, 0, 0, [], 0, false⟩
def AinRt.clear : AinRt := ⟨false, false, false, false, 0, none⟩
def SvRt.clear : SvRt := ⟨none, 0, false, false, false, 0, 0⟩
def Adc.reset : Adc := ⟨[], [], [], ⟨false, 0, 0, 0, 0, 0, 0, none, none⟩, [], [], []⟩

def CritImage.empty : CritImage := ⟨0, 0, 0, 0, 0, 0, 0, 0, [], [], [], [], [], [], [], [], [], [], [], [], []⟩
def Slot.empty : Slot := ⟨false, 0, CritImage.empty, 0, false⟩
def Red.reset : Red :=
  { lineAt := none, ringAt := none, lineOther := 0, ringOther := 0, wasActive := false, heard := []
    slot0 := Slot.empty, slot1 := Slot.empty, rx := none, bind := ⟨[], []⟩, slow := []
    tx := none, txSeq := 0, since := 0, due := false, early := false, sig := [], slowNext := 0, sweep := 0
    msgSeq := 0, seen := [], hand := .none, h := none, ready := false, mirroring := false, runOut := 0, runIn := 0
    buffer := [], image := none, termSeen := false, holdGraphs := [], holdArms := [], held := [], arrived := []
    declared := 0, restoring := 0, restored := none, restoreDone := false, cold := false, demoteNow := false
    healthyAt := none, ue := false, asked := 0, hCycle := 0, roleEpoch := 0, activeAt := none, mirrorCount := 0
    upLanes := [] }
def ChanRt.clear : ChanRt := ⟨false, false, 0⟩
def PairRt.clear : PairRt := ⟨ChanRt.clear, ChanRt.clear, false⟩
def PchRt.clear : PchRt := ⟨0, 0, false, false, false⟩
def Saf.reset : Saf := ⟨[], [], [], none, 0, false, [], 0, 0, [], false, []⟩
def KeySlot.blank : KeySlot := ⟨none, false⟩
def Cfg.reset : Cfg := ⟨[], [], [], [], none, false, false, [], (0, 0), none, []⟩
def Pwr.reset : Pwr := ⟨true, false, false, 1, 0, 1, 0, 0, [], [], false⟩

/-- The machine right after the power-on reset: every register field at its reset value (`regs` lists only what differs
from it), every store empty, no bit-stream running. DESIGN CHOICE (notes/assumptions/1.md). DESIGN CHOICE (notes/assumptions/3.md).
DEDUCED (notes/assumptions/130.md). -/
def State.reset : State where
  pending := []
  wire := []
  free := 0
  serial := 1
  regs := [((Reg.PWR_DOM_STAT.state.addr * 32 + Reg.PWR_DOM_STAT.state.lo) * 8192, 10)]
  clk := Clk.reset
  epo := Epo.reset
  pts := ⟨[], [], [], []⟩
  evq := ⟨[], 0, 0, 0, []⟩
  dr := ⟨[], 0, [], [], none, 0, 0, 0, false⟩
  host := ⟨[], [], [], [], none⟩
  eth := []
  conds := []
  jtag := ⟨0xFF, 0x01⟩
  arms := []
  cells := []
  lanes := []
  units := []
  drv := []
  cal := 0
  fab := Fab.reset
  ord := Ord.reset
  adc := Adc.reset
  red := Red.reset
  saf := Saf.reset
  cfg := Cfg.reset
  pwr := Pwr.reset
  bs := BitStream.empty
  arb := Arb.reset

end Sys2Proof.Machine
end

