-- ==== Sys2Proof/Machine/Ops.lean ====
section
/-! DEFINITION. The named operations every meaning is built from: registers, points in their three images, events and
their interrupt vectors, station time and the seam grid. -/

namespace Sys2Proof.Machine

/-! ### Registers -/

/-- Where the register store holds instance `i` of a field. -/
def regKey (f : Field) (i : Nat) : Nat := (f.addr * 32 + f.lo) * 8192 + i

/-- The value of a field. The store holds the difference from the reset value, so that nothing listed is the reset. -/
def State.rd (s : State) (f : Field) (i : Nat) : Nat := tabGet 0 s.regs (regKey f i) ^^^ f.reset

/-- Give a field a value, cut to its width. -/
def State.wr (s : State) (f : Field) (i v : Nat) : State :=
  { s with regs := tabSet 0 s.regs (regKey f i) ((v % 2 ^ f.width) ^^^ f.reset) }

/-- Whether a one-bit field is set. -/
def State.flag (s : State) (f : Field) (i : Nat) : Bool := s.rd f i != 0

/-- Add to a counter that saturates (R7). -/
def State.add (s : State) (f : Field) (i n : Nat) : State := s.wr f i (min (s.rd f i + n) (2 ^ f.width - 1))

/-- Count one (R7). -/
def State.count (s : State) (f : Field) (i : Nat) : State := s.add f i 1

/-- Set or clear one bit of a field. -/
def State.setBit (s : State) (f : Field) (i b : Nat) (v : Bool) : State :=
  let x := s.rd f i
  let low := if x / 2 ^ b % 2 = 1 then x - 2 ^ b else x
  s.wr f i (if v then low + 2 ^ b else low)

def State.bitAt (s : State) (f : Field) (i b : Nat) : Bool := s.rd f i / 2 ^ b % 2 == 1

/-- A 64-bit value that a pair of fields holds. -/
def State.rdPair (s : State) (lo hi : Field) (i : Nat) : Nat := s.rd lo i + 2 ^ lo.width * s.rd hi i

def State.wrPair (s : State) (lo hi : Field) (i v : Nat) : State :=
  (s.wr lo i v).wr hi i (v / 2 ^ lo.width)

/-- The fields of the block that an address of BAR0 lies in (Table 16.2). -/
def blockFields (a : Nat) : List Field :=
  if a < 0x800 then regsGlb
  else if a < 0x2000 then regsPwr
  else if a < 0x3000 then regsCfg
  else if a < 0x4000 then regsEpo
  else if a < 0x5000 then regsTim
  else if a < 0x6000 then regsRed
  else if a < 0x7000 then regsSaf
  else if a < 0x8000 then regsAdc
  else if a < 0x9000 then regsOrd
  else if a < 0xA000 then regsDrv
  else if a < 0x10000 then regsEth
  else if a < 0x20000 then regsArm
  else if a < 0x30000 then regsLane
  else regsFab

/-- Whether a field stands in the register at an address (R475). -/
def Field.at_ (f : Field) (a : Nat) : Bool :=
  if f.sel = .stride then
    decide (f.addr ≤ a) && decide ((a - f.addr) % f.stride = 0) && decide ((a - f.addr) / f.stride < f.count)
  else a == f.addr

/-- The fields of the register at an address; none for a reserved address. -/
def fieldsAt (a : Nat) : List Field := (blockFields a).filter (·.at_ a)

/-- The unit that an access to a field at an address means. -/
def State.instOf (s : State) (f : Field) (a : Nat) : Nat :=
  match f.sel with
  | .one => 0
  | .stride => (a - f.addr) / f.stride
  | .graph => s.rd Reg.FAB_GRAPH_SEL.graph 0
  | .flow => s.rd Reg.FAB_FLOW_SEL.flow 0
  | .stream => s.rd Reg.FAB_STREAM_SEL.stream 0
  | .cond => s.rd Reg.FAB_RX_SEL.condition 0
  | .observer => s.rd Reg.FAB_OBS_SEL.observer 0
  | .timLane => s.rd Reg.TIM_LANE_SEL.lane 0
  | .seqEntry => s.rd Reg.ADC_SEQ_SEL.core 0 * 32 + s.rd Reg.ADC_SEQ_SEL.inj 0 * 16 + s.rd Reg.ADC_SEQ_SEL.entry 0
  | .sub => s.rd Reg.ADC_SV_SEL.sub 0
  | .bench => s.rd Reg.EPO_BENCH_SEL.bench 0

/-! ### Station time (R345) -/

/-- T(C). -/
def Clk.time (c : Clk) : Nat := (c.off + c.count * c.inc) / 2 ^ 48 % 2 ^ 64

def State.now (s : State) : Nat := s.clk.time

/-- `a` is not after `b`, as 64-bit serial numbers. -/
def notAfter (a b : Nat) : Bool := decide ((b + 2 ^ 64 - a % 2 ^ 64) % 2 ^ 64 < 2 ^ 63)

/-- Edge units from `a` to `b` as 64-bit serial numbers; 0 when `b` lies before `a`. -/
def timeSince (a b : Nat) : Nat := if notAfter a b then (b + 2 ^ 64 - a % 2 ^ 64) % 2 ^ 64 else 0

/-- An edge at `t` follows the one at `e1` in less than `gap`, or lies before it. -/
def tooSoon (e1 t gap : Nat) : Bool := !notAfter e1 t || decide (timeSince e1 t < gap)

/-- `t` has been reached: station times are compared as 64-bit serial numbers. -/
def Clk.reached (c : Clk) (t : Nat) : Bool := decide ((c.time + 2 ^ 64 - t % 2 ^ 64) % 2 ^ 64 < 2 ^ 63)

/-- Core cycles from now to the first cycle with T(C) ≥ t; 0 when it has been reached. -/
def Clk.cyclesTo (c : Clk) (t : Nat) : Nat :=
  if c.reached t then 0
  else ((t * 2 ^ 48 + 2 ^ 113 - (c.off + c.count * c.inc) % 2 ^ 112) % 2 ^ 112 + c.inc - 1) / c.inc

/-- Core cycles since the first cycle with T(C) ≥ t; 0 when it has not been reached. -/
def Clk.cyclesSince (c : Clk) (t : Nat) : Nat :=
  if c.reached t then (((c.off + c.count * c.inc) % 2 ^ 112 + 2 ^ 113 - t * 2 ^ 48) % 2 ^ 112) / c.inc else 0

/-- The epoch in which a condition detected now lies (R40). -/
def State.epoch (s : State) : Nat := s.epo.k

/-- Epoch length in effect, in edge units (R351). -/
def State.epochUnits (s : State) : Nat := s.rd Reg.EPO_LEN.cycles 0 * 32

/-- The EPO_LEN value that an entry carries. -/
def Entry.len : Entry → Option Nat
  | .reg a _ v => if a = Reg.EPO_LEN.cycles.addr then some (bitsOf v 0 16) else none
  | .point _ _ => none
  | .bad e => e.len

/-- The EPO_LEN value that a fence would commit, if it carries one; the last write stands (R15). -/
def lenOf : List Entry → Option Nat
  | [] => none
  | e :: es =>
    match lenOf es with
    | some v => some v
    | none => e.len

/-- Walk the seam grid from S(cur) = t through the lengths that outstanding fences commit. -/
def seamWalk (j : Nat) : List Fence → Nat → Nat → Nat → Nat × Nat
  | [], cur, t, len => (t + (j - cur) * (len * 32), len)
  | f :: fs, cur, t, len =>
    if f.target ≤ j ∧ cur ≤ f.target then
      seamWalk j fs f.target (t + (f.target - cur) * (len * 32)) ((lenOf f.entries).getD len)
    else (t + (j - cur) * (len * 32), len)

/-- The first epoch whose seam has not fallen yet. -/
def State.nextEpoch (s : State) : Nat := if s.epo.begun then s.epo.k + 1 else 0

/-- S(j) for a seam to come, counted on from S(k) without the cut to 64 bits, and the length in effect just before it. -/
def State.seamUncut (s : State) (j : Nat) : Nat × Nat :=
  seamWalk j s.epo.fences s.epo.k s.epo.seam (s.rd Reg.EPO_LEN.cycles 0)

/-- S(j) for a seam to come (R351), and the length in effect just before it. -/
def State.seamAt (s : State) (j : Nat) : Nat × Nat := ((s.seamUncut j).1 % 2 ^ 64, (s.seamUncut j).2)

/-! ### Points -/

/-- Where an image holds a live cell point (R47) or a station point. -/
def livePos (c p : Nat) : Nat := 65536 + c * 16 + p

/-- Where the extended points are held (R53). -/
def extPos (c p : Nat) : Nat := c * 64 + p

def State.pub (s : State) (a : Nat) : Pt := tabGet Pt.clear s.pts.pub a
def State.work (s : State) (a : Nat) : Pt := tabGet Pt.clear s.pts.work a
def State.ext (s : State) (a : Nat) : Pt := tabGet Pt.clear s.pts.ext a

/-- Write a word of the working image in full. -/
def State.setWork (s : State) (a : Nat) (p : Pt) : State :=
  { s with pts := { s.pts with work := tabSet Pt.clear s.pts.work a p } }

/-- Write a word of the published image in full (only at a seam, R37). -/
def State.setPub (s : State) (a : Nat) (p : Pt) : State :=
  { s with pts := { s.pts with pub := tabSet Pt.clear s.pts.pub a p } }

def State.setExt (s : State) (a : Nat) (p : Pt) : State :=
  { s with pts := { s.pts with ext := tabSet Pt.clear s.pts.ext a p } }

/-- The published value of a point (R42); an extended point has one copy. -/
def State.readPoint (s : State) : PointKey → Pt
  | .station a => s.pub a
  | .cell c p => if p < 16 then s.pub (livePos c p) else s.ext (extPos c p)

/-- A 64-bit word with a binary32 and the epoch tag (R46). -/
def tagged (bits epoch : Nat) : Nat := bits % 2 ^ 32 + 2 ^ 32 * (epoch % 2 ^ 32)

/-- Write a station point of the working image with a word. -/
def State.setPoint (s : State) (a v : Nat) : State := s.setWork a ⟨v % 2 ^ 64, false⟩

/-- Write a station point of the working image with a binary32 and its epoch tag. -/
def State.setFloat (s : State) (a bits : Nat) : State := s.setPoint a (tagged bits s.epoch)

/-- Write a live cell point of the working image. -/
def State.setLive (s : State) (c p v : Nat) : State := s.setWork (livePos c p) ⟨v % 2 ^ 64, false⟩

/-! ### Interrupt vectors (R480) and events (R40 to R45) -/

/-- Put a message on the link; a masked vector, or one that may not be sent now, becomes pending (R479).
DEDUCED (notes/assumptions/24.md). -/
def State.sendVector (s : State) (v : Nat) : State :=
  if (tabGet Msix.reset s.host.msix v).masked || s.flag Reg.GLB_STAT.master_off 0 || s.flag Reg.GLB_STAT.d3 0 then
    { s with host := { s.host with pba := tabSet false s.host.pba v true } }
  else { s with wire := s.wire ++ [.msix v] }

def State.vectorEnabled (s : State) (v : Nat) : Bool :=
  if v < 32 then s.bitAt Reg.GLB_IRQ_EN0.en 0 v else s.bitAt Reg.GLB_IRQ_EN1.en 0 (v - 32)

/-- A cause: latched in GLB_IRQ_STAT whatever the enable, sent only when enabled (R480). -/
def State.signal (s : State) (v : Nat) : State :=
  let s := if v < 32 then s.setBit Reg.GLB_IRQ_STAT0.cause 0 v true else s.setBit Reg.GLB_IRQ_STAT1.cause 0 (v - 32) true
  if s.vectorEnabled v then s.sendVector v else s

def severity3 : List Nat :=
  [0x021, 0x10C, 0x307, 0x308, 0x603, 0x605, 0x607, 0x610, 0x611, 0x700, 0x704, 0x709, 0x70A, 0x902, 0x905, 0xA00, 0xA02]

def severity2 : List Nat :=
  [0x000, 0x003, 0x012, 0x015, 0x103, 0x104, 0x109, 0x10A, 0x10B, 0x115, 0x11A, 0x122, 0x123, 0x127, 0x200, 0x202, 0x205,
   0x208, 0x241, 0x245, 0x246, 0x247, 0x248, 0x249, 0x24C, 0x300, 0x302, 0x30A, 0x30B, 0x403, 0x410, 0x412, 0x414, 0x501,
   0x502, 0x509, 0x510, 0x606, 0x60E, 0x60F, 0x701, 0x702, 0x703, 0x705, 0x707, 0x708, 0x801, 0x802, 0x809, 0x903, 0x906,
   0x90A, 0xA03, 0xA04, 0xA06, 0xA09, 0xB10, 0xB20, 0xB22]

def severity1 : List Nat :=
  [0x002, 0x004, 0x011, 0x013, 0x014, 0x020, 0x101, 0x102, 0x105, 0x106, 0x107, 0x108, 0x10D, 0x10E, 0x116, 0x117, 0x118,
   0x11B, 0x121, 0x124, 0x125, 0x126, 0x204, 0x206, 0x242, 0x243, 0x244, 0x24A, 0x24B, 0x301, 0x304, 0x305, 0x30C, 0x400,
   0x401, 0x402, 0x405, 0x407, 0x408, 0x413, 0x500, 0x504, 0x506, 0x512, 0x513, 0x600, 0x601, 0x604, 0x608, 0x60B, 0x60C,
   0x60D, 0x706, 0x70B, 0x804, 0x807, 0x808, 0x901, 0x904, 0xA01, 0xA05, 0xB01, 0xB03, 0xB04, 0xB11, 0xB13, 0xB14]

/-- Severity of an event code (Table 1.12, R505). -/
def severity (code : Nat) : Nat :=
  if severity3.contains code then 3 else if severity2.contains code then 2 else if severity1.contains code then 1 else 0

/-- Table 1.4: bit 0 MARKER, 1 LOSS, 2 POISON, 3 PERSIST, 4 SAF, [7:5] severity. -/
def eventFlags (code extra : Nat) : Nat :=
  severity code * 32 + (if 0x700 ≤ code ∧ code ≤ 0x7FF then 16 else 0) + extra

/-- The vectors that an event's cause fires by itself (Table 16.3), whatever ev_enable and the mask (R480). -/
def eventVector (code : Nat) : Option Nat :=
  if code = 0x030 ∨ code = 0x031 then some 4
  else if 0x800 ≤ code ∧ code ≤ 0x806 then some 5
  else if code = 0x508 then some 10
  else if code = 0x600 then some 11
  else if 0x700 ≤ code ∧ code ≤ 0x70B then some 12
  else none

/-- Put a record in the on-die buffer, or drop it and count (R44). DEDUCED (notes/assumptions/30.md). -/
def State.queueEvent (s : State) (e : Event) : State :=
  if s.evq.buf.length < 1024 then { s with evq := { s.evq with buf := s.evq.buf ++ [e] } }
  else { s.count Reg.EPO_EV_LOST.count 0 with evq := { s.evq with dropped := s.evq.dropped + 1 } }

/-- Raise an event with the epoch and station time given: fire its vector, queue its record unless the mask disables its code range
(R45; markers are queued whatever the mask). -/
def State.raiseIn (s : State) (code inst extra epoch time data : Nat) : State :=
  let s := match eventVector code with
    | some v => s.signal v
    | none => s
  let s := if code = 0x010 ∧ ¬ s.flag Reg.EPO_CTRL.ev_enable 0 then s.signal 2 else s
  if code = 0x010 ∨ s.bitAt Reg.EPO_EV_MASK.range_en 0 (code / 256) then
    s.queueEvent ⟨code, inst, eventFlags code extra, epoch, time, data % 2 ^ 64⟩
  else s

/-- Raise an event of the running epoch with the station time given. -/
def State.raiseAt (s : State) (code inst extra time data : Nat) : State := s.raiseIn code inst extra s.epoch time data

/-- Raise an event detected in this core cycle (R40). DEDUCED (notes/assumptions/30.md). -/
def State.raise (s : State) (code inst data : Nat) : State := s.raiseAt code inst 0 s.now data

/-- Set the level of a reaction condition's source (R507). -/
def State.setCond (s : State) (n : Nat) (level : Bool) : State :=
  { s with conds := tabMod Cond.clear s.conds n (fun c => { c with level := level }) }

/-- Set the level and the data of a condition's source. -/
def State.setCondData (s : State) (n : Nat) (level : Bool) (data : Nat) : State :=
  { s with conds := tabMod Cond.clear s.conds n (fun c => { c with level := level, data := data }) }

/-- One occurrence of a condition that is true for one core cycle (R507). DESIGN CHOICE (notes/assumptions/32.md). -/
def State.pulseCond (s : State) (n data : Nat) : State :=
  { s with conds := tabMod Cond.clear s.conds n (fun c => { c with waiting := c.waiting ++ [data] }) }

/-- A fresh free value. DESIGN CHOICE (notes/assumptions/2.md). -/
def State.draw (s : State) (w : Nat) : Nat × State :=
  (Config.freeValue s.free % 2 ^ w, { s with free := s.free + 1 })

/-- A discarded write (R30): counted, and reported with the BAR0 address. -/
def State.rejectWrite (s : State) (addr : Nat) : State :=
  (s.count Reg.EPO_WR_REJECT_CNT.count 0).raise 0x013 0 addr

/-- A refused access (R476): counted, its address latched, reported while acc_ev is 1. -/
def State.accessError (s : State) (addr : Nat) (write : Bool) : State :=
  let s := ((s.count Reg.GLB_ACC_ERR_CNT.count 0).wr Reg.GLB_ACC_ERR_ADDR.addr 0 addr).wr
    Reg.GLB_ACC_ERR_ADDR.write 0 (bit write)
  if s.flag Reg.GLB_CTRL.acc_ev 0 then s.raise 0x002 0 (addr % 2 ^ 25 + 2 ^ 31 * bit write) else s

/-- A bit-stream runs. It goes on running while another is being loaded (R438), so CFG_STAT.state does not say it. -/
def State.running (s : State) : Bool := s.cfg.extent.2 != 0

/-- The function is in D3hot (R473). -/
def State.inD3Hot (s : State) : Bool := s.flag Reg.GLB_STAT.d3 0

/-- No host access reaches the registers: in D3hot a memory request completes with Unsupported Request (R473), and in reset and
in DORMANT the link has no power (R462, R466). DEDUCED (notes/assumptions/90.md). -/
def State.deaf (s : State) : Bool := s.inD3Hot || s.pwr.inReset || s.pwr.dormant

/-- A host access has its effect where it reaches the registers. DEDUCED (notes/assumptions/90.md). -/
def byHost (f : State → Host.Outcome State Fault Refusal) (s : State) : Host.Outcome State Fault Refusal :=
  if s.deaf then .next s else f s

/-- Fields of a list at their reset values. -/
def State.clearFields (s : State) (l : List Field) : State :=
  let ks := l.map (fun f => f.addr * 32 + f.lo)
  { s with regs := tabDrop (fun k => ks.contains (k / 8192)) s.regs }

/-- The role of the unit (R371), and the roles in which it sleeps (Table 15.3): STANDBY and NO_IMAGE. -/
def State.role (s : State) : Nat := s.rd Reg.RED_STAT.role 0
def sleepsIn (role : Nat) : Bool := role == 1 || role == 6

/-- A host read: without the link nothing happens, in D3hot it completes with Unsupported Request (R473). -/
def byReader (req addr : Nat) (f : State → Host.Outcome State Fault Refusal) (s : State) : Host.Outcome State Fault Refusal :=
  if s.pwr.inReset || s.pwr.dormant then .next s
  else if s.inD3Hot then .next { s with host := { s.host with rdata := some ⟨req, addr, .unsupported, []⟩ } }
  else f s

/-- Count over a range: `f` applied for 0, 1, … n - 1. -/
def State.forEach (n : Nat) (f : Nat → State → State) (s : State) : State :=
  (List.range n).foldl (fun s i => f i s) s

/-- Bytes of a word, least significant first (R11). -/
def bytesLE (n x : Nat) : List Byte := (List.range n).map (fun i => BitVec.ofNat 8 (x / 256 ^ i))

/-- A word from bytes, least significant first (R11). -/
def wordLE : List Byte → Nat
  | [] => 0
  | b :: bs => b.toNat + 256 * wordLE bs

/-- Write bytes of host memory (a device request, R471). -/
def State.hostStore (s : State) (addr : Nat) (bs : List Byte) : State :=
  { s with host := { s.host with mem := tabSetList 0 s.host.mem addr bs } }

def State.hostLoad (s : State) (addr n : Nat) : List Byte := tabGetList 0 s.host.mem addr n

end Sys2Proof.Machine
end

