-- ==== Sys2Proof/Machine/Arb.lean ====
section
/-! DEFINITION. The point-bank arbiter (R281 to R283, Table 8.5): 32 banks by the low 5 bits of a word address, four classes, one
round-robin position per bank and class. Commands present requests; the core cycles that pass arbitrate them. Which words an agent
moves in one burst, and when it presents them, is the model's choice (notes/assumptions/117.md). -/

namespace Sys2Proof.Machine

/-- Class of a requester (Table 8.5). -/
def State.arbClass (s : State) (who : Nat) : Nat :=
  if who < 64 then s.rd Reg.FAB_ENG_CTRL.arb_class who
  else if who < 80 then s.rd Reg.FAB_ARB_CLASS0.cls 0 / 4 ^ (who - 64) % 4
  else s.rd Reg.FAB_ARB_CLASS1.cls 0 / 4 ^ (who - 80) % 4

/-- The bank of a point: low 5 bits of its word address (Table 1.13). -/
def keyBank : PointKey → Nat
  | .station a => a % 32
  | .cell c p => if p < 16 then (c * 16 + p) % 32 else c % 32

/-- Bursts of `n` transfers on one bank, 1 to 8 words each. -/
def bursts (n : Nat) : List Nat := List.replicate (n / 8) 8 ++ (if n % 8 = 0 then [] else [n % 8])

/-- An agent presents requests for words of the banks listed. DESIGN CHOICE (notes/assumptions/117.md). -/
def State.ask (s : State) (who : Nat) (job : Option Nat) (since : Nat) (banks : List Nat) : State :=
  let new := (List.range 32).flatMap (fun b => (bursts (banks.count b)).map (fun n => (⟨who, b, n, since, job⟩ : ArbReq)))
  { s with arb := { s.arb with reqs := s.arb.reqs ++ new } }

/-- Points that an agent reads or writes from this cycle on. -/
def State.askPoints (s : State) (who : Nat) (ps : List PointKey) : State := s.ask who none s.clk.count (ps.map keyBank)

/-- All 4,096 words of a bench frame. -/
def State.askBench (s : State) (who : Nat) : State :=
  let new := (List.range 32).flatMap (fun b => List.replicate 16 (⟨who, b, 8, s.clk.count, none⟩ : ArbReq))
  { s with arb := { s.arb with reqs := s.arb.reqs ++ new } }

/-- The requests of a cancelled job are withdrawn (R283). -/
def State.withdraw (s : State) (job : Nat) : State :=
  { s with arb := { s.arb with reqs := s.arb.reqs.filter (fun r => r.job != some job) } }

/-- How far a requester stands after the last one granted, in round-robin order over the 88 requesters. -/
def arbDistance (last who : Nat) : Nat := (who + 87 - last % 88) % 88

/-- The winner among the requests of a bank (R281): lowest class, then the first after the class's position. -/
def State.arbWinner (s : State) (b : Bank) (l : List ArbReq) : Option ArbReq :=
  let better (x y : ArbReq) : Bool :=
    let cx := s.arbClass x.who
    let cy := s.arbClass y.who
    decide (cx < cy) || (cx == cy && decide (arbDistance (b.turn.getD cx 87) x.who < arbDistance (b.turn.getD cy 87) y.who))
  l.foldl (fun w r => match w with
    | none => some r
    | some x => if better r x then some r else some x) none

/-- FAB_ARB_WAIT: the longest wait of a class, saturating. -/
def State.arbWaited (s : State) (cls n : Nat) : State :=
  let f := match cls with
    | 0 => Reg.FAB_ARB_WAIT.class0
    | 1 => Reg.FAB_ARB_WAIT.class1
    | 2 => Reg.FAB_ARB_WAIT.class2
    | _ => Reg.FAB_ARB_WAIT.class3
  s.wr f 0 (max (s.rd f 0) (min n 255))

def State.bank (s : State) (b : Nat) : Bank := tabGet Bank.idle s.arb.banks b
def State.setBank (s : State) (b : Nat) (x : Bank) : State := { s with arb := { s.arb with banks := tabSet Bank.idle s.arb.banks b x } }

/-- The winner chosen in the cycle before `n` begins its burst in `n`, or the cycle is dead because it withdrew (R283). -/
def State.arbBegin (s : State) (b n : Nat) : State :=
  let x := s.bank b
  match x.winner with
  | none => s
  | some w =>
    if s.arb.reqs.contains w then
      let s := { s with arb := { s.arb with reqs := s.arb.reqs.erase w } }
      (s.setBank b { x with winner := none, until_ := n + w.len, turn := x.turn.set x.cls w.who }).arbWaited x.cls (n - w.since)
    else (s.setBank b { x with winner := none }).count Reg.FAB_ARB_DEAD_CNT.count 0

/-- A bank that is free after cycle `n` chooses among the requests present in it (R281); the grant keeps the class that it was given in
(R282). -/
def State.arbChoose (s : State) (b n : Nat) : State :=
  let x := s.bank b
  if n + 1 < x.until_ then s
  else match s.arbWinner x (s.arb.reqs.filter (fun r => r.bank == b && decide (r.since ≤ n))) with
    | some w => s.setBank b { x with winner := some w, cls := s.arbClass w.who }
    | none => s

/-- Core cycle `n` of every bank. -/
def State.arbCycle (s : State) (n : Nat) : State :=
  (List.range 32).foldl (fun s b => (s.arbBegin b n).arbChoose b n) s

/-- The first cycle that the arbiter has not worked. -/
def State.arbAt (s : State) (n : Nat) : State := { s with arb := { s.arb with at_ := n } }

/-- The next cycle in which the arbiter has something to do: a winner begins its burst, or a request is present; none while it is
idle. -/
def State.arbNext (s : State) : Option Nat :=
  if s.arb.banks.any (fun x => x.2.winner.isSome) then some s.arb.at_
  else ((s.arb.reqs.map (·.since)).min?).map (fun t => max t s.arb.at_)

/-- Cycles up to and without cycle `n`, without those in which nothing is to do. -/
def State.arbRun (s : State) (n : Nat) : Nat → State
  | 0 => s.arbAt n
  | fuel + 1 =>
    match s.arbNext with
    | none => s.arbAt n
    | some m => if n ≤ m then s.arbAt n else ((s.arbCycle m).arbAt (m + 1)).arbRun n fuel

/-- The arbiter has worked up to the present core cycle; the bound is the number of cycles that its requests can take. -/
def State.arbitrate (s : State) : State :=
  s.arbRun s.clk.count ((s.arb.reqs.map (·.len)).sum + 2 * s.arb.reqs.length + 16)

end Sys2Proof.Machine
end

