-- ==== Sys2Proof/Machine/Capacity.lean ====
section
/-! DEFINITION. What a lane can carry (R81, R82, R187, R225, R231), the reload condition of an isolation stage (R244), and the
lookups in the tables of the bit-stream. Durations are compared exactly: 2.56 ns is 32,768 / 1,000 edge units. -/

namespace Sys2Proof.Machine

/-- Lead in epochs (Table 14.4). -/
def State.lead (s : State) : Nat := s.bs.profile.lead

def BitStream.armEntry (b : BitStream) (a : Nat) : Option ArmEntry := b.arms.find? (fun e => e.arm == a)
def BitStream.cellEntry (b : BitStream) (c : Nat) : Option CellEntry := b.cells.find? (fun e => e.cell == c)
def BitStream.laneEntry (b : BitStream) (l : Nat) : Option LaneEntry := b.lanes.find? (fun e => e.lane == l)
def BitStream.unitEntry (b : BitStream) (u : Nat) : Option UnitEntry := b.units.find? (fun e => e.unit == u)

/-- Put an entry in its place by cell index. -/
def insertCell (e : CellEntry) : List CellEntry → List CellEntry
  | [] => [e]
  | x :: l => if e.cell < x.cell then e :: x :: l else x :: insertCell e l

/-- The cells of an arm by ascending cell index (R86, R103, R115, R136), whatever the order of the cell table. -/
def BitStream.armCells (b : BitStream) (a : Nat) : List CellEntry :=
  (b.cells.filter (fun e => e.arm == some a)).foldr insertCell []

/-- The cells of a lane or group. -/
def BitStream.laneCells (b : BitStream) (l : Nat) : List CellEntry := b.cells.filter (fun e => e.lane == l)

/-- Arms of a unit, with their string numbers (R241). -/
def UnitEntry.arms (e : UnitEntry) : List (Nat × Nat) := (List.range e.strings).map (fun i => (i, 3 * e.unit + i))

/-- The isolation entry of a front entry (R241). -/
def BitStream.isoOf (b : BitStream) (c : Nat) : Option CellEntry := b.cells.find? (fun e => e.front == some c)

/-- The entry of the group that a lane is a member of (R223). -/
def BitStream.groupOf (b : BitStream) (l : Nat) : Option LaneEntry :=
  b.lanes.find? (fun e => decide (e.lane ≤ l) && decide (l < e.lane + e.width))

/-- w' of R225. -/
def LaneEntry.stripes (e : LaneEntry) : Nat :=
  match e.bond with
  | .none => 1
  | .redundant => e.width - 1
  | .bandwidth => e.width

def ceilDiv (a b : Nat) : Nat := (a + b - 1) / b

/-- rows_down and rows_up (R225). -/
def rowsDown (w c : Nat) : Nat := 6 + ceilDiv (2 * c + 2) w
def rowsUp (w p m : Nat) : Nat := 3 + ceilDiv (p + ceilDiv p m + 1) w

/-- t_up in edge units, rounded up (R187). -/
def LaneEntry.uplinkUnits (e : LaneEntry) : Nat := ceilDiv (rowsUp e.stripes e.positions e.detail * 32768) 1000

/-- R81 for c cells with the reference deadline in core cycles after the seam. -/
def frameFits (e : LaneEntry) (lead units deadline c : Nat) : Bool :=
  decide (1000 * (deadline * 32 + 96 * 32 + e.dmax + 256) + rowsDown e.stripes c * 32768 ≤ 1000 * lead * units)

/-- R187's check. -/
def reportFits (e : LaneEntry) (units : Nat) : Bool :=
  decide (1000 * (e.dmax + e.guard) + rowsUp e.stripes e.positions e.detail * 32768 ≤ 1000 * units)

/-- The block limit (R231). -/
def blocksFit (e : LaneEntry) (units c : Nat) : Bool :=
  decide (2 * c + 2 ≤ (units * 1000 / 32768 - 6) * e.stripes)

/-- D of R260 in core cycles at an epoch length. -/
def GraphEntry.cycles (e : GraphEntry) (epochCycles : Nat) : Nat :=
  match e.trigger with
  | .seam .. => ceilDiv (e.deadline * epochCycles) 65536
  | _ => e.deadline

def BitStream.graphEntry (b : BitStream) (g : Nat) : Option GraphEntry := b.fabric.graphs.find? (fun e => e.graph == g)

/-- Deadline of a graph in core cycles after the seam at an epoch length (R260). -/
def BitStream.graphDeadline (b : BitStream) (g cycles : Nat) : Nat := ((b.graphEntry g).map (·.cycles cycles)).getD 0

/-- d_ref of a lane: the latest reference deadline of the arms it serves (R81). -/
def BitStream.laneDeadline (b : BitStream) (l cycles : Nat) : Nat :=
  ((b.laneCells l).filterMap (fun e => e.arm.bind b.armEntry)).foldl
    (fun d a => max d (b.graphDeadline a.refGraph cycles)) 0

/-- A lane carries its cells at an epoch length (R231). -/
def BitStream.laneFits (b : BitStream) (e : LaneEntry) (cycles : Nat) : Bool :=
  let c := (b.laneCells e.lane).length
  decide (c ≤ 256) && blocksFit e (cycles * 32) c && reportFits e (cycles * 32)
    && frameFits e b.profile.lead (cycles * 32) (b.laneDeadline e.lane cycles) c

/-- R244: N_d x P_d >= (lead + 1) x epoch. -/
def BitStream.isolationFits (b : BitStream) (u : UnitEntry) (cycles : Nat) : Bool :=
  decide ((b.profile.lead + 1) * (cycles * 32) ≤ u.isoReloadN * u.isoPeriod)

/-- An epoch length breaks lane capacity or the isolation reload condition (R20). -/
def State.lengthViolates (s : State) (cycles : Nat) : Bool :=
  s.bs.lanes.any (fun e => !s.bs.laneFits e cycles) || s.bs.units.any (fun u => !s.bs.isolationFits u cycles)

def State.cellArm (s : State) (c : Nat) : Option Nat := (s.bs.cellEntry c).bind (·.arm)
def State.configuredCells (s : State) : List Nat := s.bs.cells.map (·.cell)

end Sys2Proof.Machine
end

