-- ==== Sys2Proof/Machine/Float.lean ====
section
/-! DEFINITION. IEEE 754 binary32 and binary64 arithmetic on bit patterns, rounded to nearest with ties to even. A finite
number is held exactly as an integer count of the format's smallest subnormal, so every operation is computed exactly and
rounded once. A NaN result is the quiet NaN with zero payload (R266). -/

namespace Sys2Proof.Machine

/-- A binary format: exponent bits and stored fraction bits. -/
structure Fmt where
  eb : Nat
  mb : Nat
deriving DecidableEq, Repr

/-- binary32 -/
def f32 : Fmt := ⟨8, 23⟩
/-- binary64 -/
def f64 : Fmt := ⟨11, 52⟩

def Fmt.bias (f : Fmt) : Nat := 2 ^ (f.eb - 1) - 1
/-- The reciprocal of the smallest subnormal. -/
def Fmt.unit (f : Fmt) : Nat := 2 ^ (f.bias + f.mb - 1)
def Fmt.signBit (f : Fmt) : Nat := 2 ^ (f.eb + f.mb)
def Fmt.inf (f : Fmt) : Nat := (2 ^ f.eb - 1) * 2 ^ f.mb
def Fmt.qnan (f : Fmt) : Nat := f.inf + 2 ^ (f.mb - 1)

def fNeg (f : Fmt) (x : Nat) : Bool := x / f.signBit % 2 == 1
def fMag (f : Fmt) (x : Nat) : Nat := x % f.signBit
def fIsNaN (f : Fmt) (x : Nat) : Bool := fMag f x > f.inf
def fIsInf (f : Fmt) (x : Nat) : Bool := fMag f x == f.inf
def fFinite (f : Fmt) (x : Nat) : Bool := fMag f x < f.inf
def fIsZero (f : Fmt) (x : Nat) : Bool := fMag f x == 0
def fWithSign (f : Fmt) (neg : Bool) (mag : Nat) : Nat := if neg then f.signBit + mag else mag

/-- A finite number as an integer count of units 1 / f.unit. -/
def fVal (f : Fmt) (x : Nat) : Int :=
  let m := fMag f x
  let e := m / 2 ^ f.mb
  let a : Nat := if e = 0 then m else (2 ^ f.mb + m % 2 ^ f.mb) * 2 ^ (e - 1)
  if fNeg f x then -(a : Int) else a

/-- Quotient rounded to nearest, ties to even. -/
def divRne (n d : Nat) : Nat :=
  let q := n / d
  let r := n % d
  if 2 * r > d || (2 * r == d && q % 2 == 1) then q + 1 else q

/-- Signed quotient rounded to nearest, ties to even. -/
def divRneInt (n : Int) (d : Nat) : Int :=
  if n < 0 then -(divRne n.natAbs d : Int) else (divRne n.natAbs d : Int)

/-- The magnitude of the number nearest n / d; infinity on overflow. -/
def fRoundMag (f : Fmt) (n d : Nat) : Nat :=
  if n = 0 ∨ d = 0 then 0 else
  -- work in units: n * unit / d
  let n := n * f.unit
  let l := Nat.log2 n - Nat.log2 d
  -- floor(log2(n/d)) is l or l - 1; below the normal range the quantum is one unit
  let e := if n < d * 2 ^ l then l - 1 else l
  let q := e - f.mb
  let m := divRne n (d * 2 ^ q)
  let r := q * 2 ^ f.mb + m
  if r ≥ f.inf then f.inf else r

/-- The number nearest n / d, with the sign of a zero given by `negZero`. -/
def fOfRat (f : Fmt) (negZero : Bool) (n : Int) (d : Nat) : Nat :=
  let m := fRoundMag f n.natAbs d
  fWithSign f (if n = 0 then negZero else n < 0) m

def fOfInt (f : Fmt) (n : Int) : Nat := fOfRat f false n 1

def fNegate (f : Fmt) (x : Nat) : Nat :=
  if fIsNaN f x then f.qnan else fWithSign f (!fNeg f x) (fMag f x)

def fAbs (f : Fmt) (x : Nat) : Nat := if fIsNaN f x then f.qnan else fMag f x

def fAdd (f : Fmt) (a b : Nat) : Nat :=
  if fIsNaN f a || fIsNaN f b then f.qnan
  else if fIsInf f a then (if fIsInf f b && fNeg f a != fNeg f b then f.qnan else a)
  else if fIsInf f b then b
  else fOfRat f (fNeg f a && fNeg f b) (fVal f a + fVal f b) f.unit

def fSub (f : Fmt) (a b : Nat) : Nat := fAdd f a (fNegate f b)

def fMul (f : Fmt) (a b : Nat) : Nat :=
  let sg := fNeg f a != fNeg f b
  if fIsNaN f a || fIsNaN f b then f.qnan
  else if fIsInf f a || fIsInf f b then (if fIsZero f a || fIsZero f b then f.qnan else fWithSign f sg f.inf)
  else fOfRat f sg (fVal f a * fVal f b) (f.unit * f.unit)

def fDiv (f : Fmt) (a b : Nat) : Nat :=
  let sg := fNeg f a != fNeg f b
  if fIsNaN f a || fIsNaN f b then f.qnan
  else if fIsInf f a then (if fIsInf f b then f.qnan else fWithSign f sg f.inf)
  else if fIsInf f b then fWithSign f sg 0
  else if fIsZero f b then (if fIsZero f a then f.qnan else fWithSign f sg f.inf)
  else fWithSign f sg (fRoundMag f (fVal f a).natAbs (fVal f b).natAbs)

/-- a * b + c with one rounding. -/
def fFma (f : Fmt) (a b c : Nat) : Nat :=
  let sg := fNeg f a != fNeg f b
  if fIsNaN f a || fIsNaN f b || fIsNaN f c then f.qnan
  else if fIsInf f a || fIsInf f b then
    (if fIsZero f a || fIsZero f b then f.qnan
     else if fIsInf f c && fNeg f c != sg then f.qnan
     else fWithSign f sg f.inf)
  else if fIsInf f c then c
  else fOfRat f (sg && fNeg f c) (fVal f a * fVal f b + fVal f c * f.unit) (f.unit * f.unit)

/-- Integer square root, one bit at a time from bit `k - 1` down. -/
def isqrtFrom (n : Nat) : Nat → Nat → Nat
  | 0, r => r
  | k + 1, r => let t := r + 2 ^ k; if t * t ≤ n then isqrtFrom n k t else isqrtFrom n k r

def isqrt (n : Nat) : Nat := isqrtFrom n (Nat.log2 n / 2 + 1) 0

/-- Square root, correctly rounded. -/
def fSqrt (f : Fmt) (a : Nat) : Nat :=
  if fIsNaN f a then f.qnan
  else if fIsZero f a then a
  else if fNeg f a then f.qnan
  else if fIsInf f a then a
  else
    let n := (fVal f a).natAbs * f.unit * 4 ^ 64
    let r := isqrt n
    fRoundMag f (2 * r + (if r * r = n then 0 else 1)) (2 * f.unit * 2 ^ 64)

/-- An order key for numbers that are not NaN; infinities lie beyond every finite number. -/
def fOrd (f : Fmt) (x : Nat) : Int := if fNeg f x then -(fMag f x : Int) else fMag f x

def fLt (f : Fmt) (a b : Nat) : Bool := !fIsNaN f a && !fIsNaN f b && decide (fOrd f a < fOrd f b)
def fLe (f : Fmt) (a b : Nat) : Bool := !fIsNaN f a && !fIsNaN f b && decide (fOrd f a ≤ fOrd f b)

/-- Floor of a finite number. -/
def fFloor (f : Fmt) (x : Nat) : Int := Int.fdiv (fVal f x) f.unit

/-- A finite number times an integer factor, rounded to the nearest integer, ties to even. -/
def fScaleRne (f : Fmt) (x : Nat) (k : Nat) : Int := divRneInt (fVal f x * k) f.unit

/-- binary64 to binary32 and back. -/
def f64To32 (x : Nat) : Nat :=
  if fIsNaN f64 x then f32.qnan
  else if fIsInf f64 x then fWithSign f32 (fNeg f64 x) f32.inf
  else fOfRat f32 (fNeg f64 x) (fVal f64 x) f64.unit

def f32To64 (x : Nat) : Nat :=
  if fIsNaN f32 x then f64.qnan
  else if fIsInf f32 x then fWithSign f64 (fNeg f32 x) f64.inf
  else fOfRat f64 (fNeg f32 x) (fVal f32 x) f32.unit

end Sys2Proof.Machine
end

