-- ==== Sys2Proof/Machine/Epo.lean ====
section
/-! DEFINITION. Epochs, images and the point space: fences, the pin, benches and the roll-up, memory protection, the event
ring and the disturbance recorder (R17 to R69, R503 to R506). The seam itself is in Seam.lean. -/

namespace Sys2Proof.Machine

/-! ### Staging and fences -/

/-- Staging entries in use: the open generation and those of outstanding fences (R29). -/
def State.stagedCount (s : State) : Nat :=
  s.epo.opened.length + (s.epo.fences.map (fun f => f.entries.length)).sum

/-- Append to the open generation, or discard and overflow (R32): all entries of one request or none. -/
def State.stage (s : State) (addr : Nat) (es : List Entry) : State :=
  if s.stagedCount + es.length ≤ 8192 then { s with epo := { s.epo with opened := s.epo.opened ++ es } }
  else (s.wr Reg.EPO_STAGE_STAT.overflow 0 1).raise 0x012 0 addr

/-- Discard the open generation and clear overflow (R32). -/
def State.discardOpen (s : State) : State :=
  { s.wr Reg.EPO_STAGE_STAT.overflow 0 0 with epo := { s.epo with opened := [] } }

/-- Commit lead of a fence of n entries (R33). -/
def commitLead (n : Nat) : Nat := 64 + (n + 3) / 4

/-- now > S(target - lead) + 128 core cycles (R20). A seam before S(k) lies more than 128 cycles back (R17). -/
def State.shortTooLate (s : State) (target : Nat) : Bool :=
  let j := target - s.lead
  if target < s.lead then s.epo.begun
  else if j < s.nextEpoch then (if j + 1 = s.nextEpoch then s.clk.cyclesSince s.epo.seam > 128 else true) else false

/-- The open generation carries an EPO_LEN shorter than the length in effect just before S(target), which the fences outstanding for
earlier seams, and for the same target, have then set (R20). DESIGN CHOICE (notes/assumptions/107.md). -/
def State.shortens (s : State) (target : Nat) : Bool :=
  match lenOf s.epo.opened with
  | some v => v < (s.seamAt target).2
  | none => false

/-- S(target) - now ≥ L(n) (R33, Table 1.1). A seam 2^62 edge units or more after S(k) lies beyond every lead. -/
def State.leadMet (s : State) (target : Nat) : Bool :=
  decide (2 ^ 62 ≤ (s.seamUncut target).1 - s.epo.seam)
    || decide (commitLead s.epo.opened.length ≤ s.clk.cyclesTo (s.seamAt target).1)

/-- A named or chosen target meets the commit lead and the condition of R20. Before S(0) a fence may name target 0, though
EPO_EPOCH already reads 0. DEDUCED (notes/assumptions/22.md). DESIGN CHOICE (notes/assumptions/107.md). -/
def State.targetMeets (s : State) (target : Nat) : Bool :=
  s.running && decide (s.nextEpoch ≤ target) && s.leadMet target && !(s.shortens target && s.shortTooLate target)

/-- The highest target of the outstanding fences. -/
def State.lastTarget (s : State) : Nat := (s.epo.fences.map (fun f => f.target)).foldl max 0

/-- The staged EPO_LEN violates lane capacity or the isolation reload condition (R20). -/
def State.capacityBroken (s : State) : Bool :=
  match lenOf s.epo.opened with
  | some v => s.lengthViolates v
  | none => false

/-- Table 1.1, in order. DEDUCED (notes/assumptions/22.md). -/
def State.fenceStatus (s : State) (named : Bool) (target : Nat) : Nat :=
  if named && !s.targetMeets target then 1
  else if s.epo.fences.length ≥ 4 then 2
  else if named && target < s.lastTarget then 3
  else if named && target > s.epo.k + 2 ^ 24 then 4
  else if s.flag Reg.EPO_STAGE_STAT.overflow 0 then 5
  else if s.capacityBroken then 6
  else 0

/-- The first seam at or after `j` that a fence in mode 1 can meet (R36, R20). -/
def State.firstTarget (s : State) : Nat → Nat → Option Nat
  | 0, _ => none
  | n + 1, j => if s.targetMeets j then some j else s.firstTarget n (j + 1)

/-- Record a refusal (R35). -/
def State.refuseFence (s : State) (status : Nat) : State :=
  let s := if status = 5 then s.discardOpen else s
  ((s.wr Reg.EPO_FENCE_STAT.status 0 status).count Reg.EPO_FENCE_STAT.refused_cnt 0).raise 0x011 0 status

/-- Close the open generation for its target (R36). -/
def State.acceptFence (s : State) (target : Nat) : State :=
  let id := (s.rd Reg.EPO_FENCE_STAT.last_id 0 + 1) % 256
  let s := { s with epo := { s.epo with
    fences := s.epo.fences ++ [(⟨id, target, s.epo.opened⟩ : Fence)], opened := [] } }
  (s.wr Reg.EPO_FENCE_STAT.status 0 0).wr Reg.EPO_FENCE_STAT.last_id 0 id

/-- FENCE_NAMED (R34): the target is EPO_FENCE_TGT. -/
def State.fenceNamed (s : State) : State :=
  let target := s.rdPair Reg.EPO_FENCE_TGT_LO.target_lo Reg.EPO_FENCE_TGT_HI.target_hi 0
  let st := s.fenceStatus true target
  if st = 0 then s.acceptFence target else s.refuseFence st

/-- FENCE_NEXT (R36): the target is the first seam that meets the lead. At the shortest epoch the longest lead is six
epochs, so sixteen candidates hold it. -/
def State.fenceNext (s : State) : State :=
  let st := s.fenceStatus false 0
  if st ≠ 0 then s.refuseFence st
  else match s.firstTarget 16 (max s.nextEpoch s.lastTarget) with
    | some j => s.acceptFence j
    | none => s.refuseFence 1

def execFenceNamed (s : State) : Host.Outcome State Fault Refusal := byHost (fun s => .next s.fenceNamed) s
def execFenceNext (s : State) : Host.Outcome State Fault Refusal := byHost (fun s => .next s.fenceNext) s
def execStageDiscard (s : State) : Host.Outcome State Fault Refusal := byHost (fun s => .next s.discardOpen) s

/-- STAT_RESET (R50): carried out at the next seam. -/
def execStatReset (s : State) : Host.Outcome State Fault Refusal := byHost (fun s =>
  .next { s with epo := { s.epo with statReset := true } }) s

/-- The statistics reset at seam S(k) (R50): points 16 to 21 and 40 to 59 of every cell are cleared, point 39 takes k. Every one of
these points is written in full (R506), where its bench stands in a frame in that frame, which is dirty then. -/
def State.statResetAt (s : State) (k : Nat) : State :=
  let cleared (j : Nat) : Bool := (16 ≤ j % 64 && j % 64 ≤ 21) || (40 ≤ j % 64 && j % 64 ≤ 59)
  let soil (f : Frame) : Frame := { f with dirty := f.dirty || cleared (16 + f.bench / 4) || f.bench / 4 == 23 }
  let s := { s with
    pts := { s.pts with ext := tabDrop cleared s.pts.ext }
    epo := { s.epo with
      statReset := false
      frames := s.epo.frames.map soil
      rollFrame := s.epo.rollFrame.map soil
      dieBad := s.epo.dieBad.filter (fun j => !(cleared j || j % 64 == 39))
      accs := tabDrop cleared s.epo.accs
      means := tabDrop cleared s.epo.means } }
  State.forEach 16384 (fun c s => s.setExt (extPos c 39) ⟨k % 2 ^ 64, false⟩) s

/-! ### The pinned image -/

/-- Release the pin (R27): reads are served from the published image. -/
def State.releasePin (s : State) : State :=
  { s with epo := { s.epo with pin := none }, pts := { s.pts with pin := [] } }

/-- Pin the image published now (R25); a change of hold while the pin holds does not move its end (R27).
DESIGN CHOICE (notes/assumptions/107.md). -/
def State.takePin (s : State) : State :=
  let s := { s with
    epo := { s.epo with pin := some ⟨s.epo.k, s.rd Reg.EPO_PIN_CTRL.hold 0 + 1⟩ }
    pts := { s.pts with pin := s.pts.pub } }
  s.wrPair Reg.EPO_PIN_EPOCH_LO.pin_epoch_lo Reg.EPO_PIN_EPOCH_HI.pin_epoch_hi 0 s.epo.k

/-- PIN (R25, R28): with `release` the pin moves; without it a pin that holds refuses the write. -/
def execPin (release : Bool) (s : State) : Host.Outcome State Fault Refusal := byHost (fun s =>
  .next (if s.epo.pin.isSome && !release then s.wr Reg.EPO_PIN_STAT.refused 0 1 else s.takePin)) s

def execPinRelease (s : State) : Host.Outcome State Fault Refusal := byHost (fun s => .next s.releasePin) s

/-- PIN_EXPIRED (R27): once hold + 1 seams have passed. -/
def execPinExpired (s : State) : Host.Outcome State Fault Refusal :=
  .next (match s.epo.pin with
    | some p =>
      if p.left = 0 then (s.releasePin.wr Reg.EPO_PIN_STAT.expired 0 1).raise 0x014 0 p.number else s
    | none => s)

/-! ### Memory protection (R58 to R62, R503, R504) -/

/-- A corrected word (R58, R62). -/
def State.corrected (s : State) : State :=
  { s.count Reg.EPO_CE_CNT.count 0 with epo := { s.epo with ceSecond := s.epo.ceSecond + 1 } }

/-- An uncorrectable word at a word address (R60); its poison is set by the caller. -/
def State.uncorrectable (s : State) (memory word : Nat) : State :=
  let s := s.count Reg.EPO_UE_CNT.count 0
  let s := if s.rd Reg.EPO_UE_ADDR.memory 0 = 0xF then
      (s.wr Reg.EPO_UE_ADDR.memory 0 memory).wr Reg.EPO_UE_ADDR.word 0 word
    else s
  let s := (s.raise 0x021 0 (memory * 2 ^ 28 + word)).pulseCond 242 0
  { s with red := { s.red with ue := true } }

def State.poisonWork (s : State) (a : Nat) : State := s.setWork a ⟨(s.work a).v, true⟩
def State.poisonPub (s : State) (a : Nat) : State := s.setPub a ⟨(s.pub a).v, true⟩
def State.poisonExt (s : State) (a : Nat) : State := s.setExt a ⟨(s.ext a).v, true⟩
def State.poisonPin (s : State) (a : Nat) : State :=
  { s with pts := { s.pts with pin := tabSet Pt.clear s.pts.pin a ⟨(tabGet Pt.clear s.pts.pin a).v, true⟩ } }

/-- Whether a register holds a poisoned word (R60, R61); a write in full makes it whole. -/
def State.markReg (s : State) (a i : Nat) (bad : Bool) : State :=
  let rest := s.epo.badRegs.filter (· != (a, i))
  { s with epo := { s.epo with badRegs := if bad then (a, i) :: rest else rest } }

/-- Poison one stored copy (R504). -/
def State.poisonImage (s : State) (image : ImageRole) (a : Nat) : State :=
  match image with
  | .working => s.poisonWork a
  | .published => s.poisonPub a
  | .pinned => s.poisonPin a
  | .single => s

/-- The frame that holds a bench, if any (R54). -/
def State.frameOf (s : State) (b : Nat) : Option Frame :=
  match s.epo.frames.find? (fun f => f.bench == b) with
  | some f => some f
  | none => match s.epo.rollFrame with
    | some f => if f.bench = b then some f else none
    | none => none

/-- The cell and extended point at an offset of a bench (R53). -/
def benchPoint (b off : Nat) : Nat := extPos (b % 4 * 4096 + off) (16 + b / 4)

/-- A staged entry with a poisoned word. -/
def Entry.spoil : Entry → Entry
  | .bad e => .bad e
  | .reg a i v => .bad (.reg a i v)
  | .point a v => .bad (.point a v)

/-- Poison entry `i` of the fences' entries, in issue order. -/
def spoilFences : List Fence → Nat → List Fence
  | [], _ => []
  | f :: fs, i =>
    if i < f.entries.length then { f with entries := f.entries.modify i Entry.spoil } :: fs
    else f :: spoilFences fs (i - f.entries.length)

/-- Poison entry `i` of the staging area: the entries of the outstanding fences in issue order, then those of the open
generation. DESIGN CHOICE (notes/assumptions/106.md). -/
def State.poisonStaged (s : State) (i : Nat) : State :=
  let n := (s.epo.fences.map (fun f => f.entries.length)).sum
  { s with epo := { s.epo with
    fences := spoilFences s.epo.fences i
    opened := if n ≤ i then s.epo.opened.modify (i - n) Entry.spoil else s.epo.opened } }

/-- A buffered event record, oldest first, with a poisoned word carries flag POISON (Table 1.4).
DESIGN CHOICE (notes/assumptions/106.md). -/
def State.poisonEvent (s : State) (i : Nat) : State :=
  { s with evq := { s.evq with buf := s.evq.buf.modify i (fun e =>
    if e.flags / 4 % 2 = 0 then { e with flags := e.flags + 4 } else e) } }

/-- Poison a word of the recorder's samples, oldest first; a sample's epoch and time carry no poison of their own.
DESIGN CHOICE (notes/assumptions/106.md). -/
def State.poisonSample (s : State) (w : Nat) : State :=
  let spoil (x : DrSample) : DrSample :=
    { x with vals := if w % (2 + s.dr.n) < 2 then x.vals else x.vals.modify (w % (2 + s.dr.n) - 2) (fun p => { p with bad := true }) }
  let i := w / (2 + s.dr.n)
  { s with dr := { s.dr with
    pre := s.dr.pre.modify i spoil
    post := if s.dr.pre.length ≤ i then s.dr.post.modify (i - s.dr.pre.length) spoil else s.dr.post } }

/-- Poison a word of a buffer's items: word `w % 8` of item `w / 8`, oldest first. -/
def spoilItems (l : List Item) (w : Nat) : List Item :=
  l.modify (w / 8) (fun x => { x with vals := x.vals.modify (w % 8) (fun p => { p with bad := true }) })

/-- Poison what an inner word of the on-die tables holds. DESIGN CHOICE (notes/assumptions/106.md). -/
def State.poisonInner (s : State) (word : Nat) : State :=
  let spoil (p : Pt) : Pt := { p with bad := true }
  match Config.innerWord word with
  | (0, a) => { s with epo := { s.epo with accs := tabMod Acc.clear s.epo.accs a (fun x => { x with bad := true }) } }
  | (1, a) => { s with fab := { s.fab with stores := tabMod Pt.clear s.fab.stores a spoil } }
  | (2, a) => { s with fab := { s.fab with zdelay := tabMod Pt.clear s.fab.zdelay a spoil } }
  | (3, a) => { s with ord := { s.ord with tables := tabMod Pt.clear s.ord.tables a spoil } }
  | (4, a) => { s with fab := { s.fab with queues := tabMod QueueRt.empty s.fab.queues (a / 2 ^ 16) (fun q =>
      { q with items := spoilItems q.items (a % 2 ^ 16) }) } }
  | (5, a) => { s with fab := { s.fab with streams := tabMod StreamRt.empty s.fab.streams (a / 2 ^ 16) (fun q =>
      { q with items := spoilItems q.items (a % 2 ^ 16) }) } }
  | (6, a) => s.markReg (a / 2 ^ 13) (a % 2 ^ 13) true
  | _ => s

/-- Poison a word of the point store (Table 1.13). A word of a clean frame leaves the frame clean, and its poison stays when the bench
leaves the frame although the die's copy is whole. DESIGN CHOICE (notes/assumptions/121.md). -/
def State.poisonStore (s : State) (word : Nat) (image : ImageRole) : State :=
  if word < 786432 then s.poisonImage image (65536 + word % 262144)
  else if word < 983040 then s.poisonImage image ((word - 786432) % 65536)
  else if word < 1179648 then
    let fr := (word - 983040) / 4096
    match (s.epo.frames ++ s.epo.rollFrame.toList).find? (fun f => f.frame == fr) with
    | some f => s.poisonExt (benchPoint f.bench (word % 4096))
    | none => s
  else if word < 1196032 then s.poisonStaged ((word - 1179648) / 2)
  else if word < 1200128 then s.poisonEvent ((word - 1196032) / 4)
  else s.poisonInner word

/-- Extended point and first cell of a bench of the slow set (R380). -/
def slowBench (b : Nat) : Nat × Nat :=
  let p := b / 4
  (if p < 17 then 22 + p else 60 + (p - 17), b % 4 * 4096)

/-- Poison a word of the retention store (Table 1.13). Word n of the binding record is taken to hold cell n, which counts as unbound
then; a word of the staged package makes the package bad. DESIGN CHOICE (notes/assumptions/106.md). -/
def State.poisonRetained (s : State) (word : Nat) : State :=
  if word < 8192 then { s with red := { s.red with slot0 := { s.red.slot0 with bad := true } } }
  else if word < 16384 then { s with red := { s.red with slot1 := { s.red.slot1 with bad := true } } }
  else if word < 32768 then
    let cells := s.red.bind.cells.map (fun x => if x.1 = word - 16384 then (x.1, none, x.2.2) else x)
    { s with red := { s.red with bind := { s.red.bind with cells := cells } } }
  else if 32768 ≤ word ∧ word < 360448 then
    let x := slowBench ((word - 32768) / 4096)
    let slow := tabMod Pt.clear s.red.slow (extPos (x.2 + (word - 32768) % 4096) x.1) (fun p => { p with bad := true })
    { s with red := { s.red with slow := slow } }
  else if 360448 ≤ word ∧ word < 425984 then
    { s with cfg := { s.cfg with staged := s.cfg.staged.map (fun p => { p with bad := true }) } }
  else if 425984 ≤ word ∧ word < 524288 then
    match Config.retainedReg word with
    | some x => s.markReg x.1 x.2 true
    | none => s
  else s

/-- Poison a word of the memory die (Table 1.13): a bench's word, which shows once no frame holds the bench, or a word of the
recorder's buffer, which begins with the four words of the header. -/
def State.poisonDie (s : State) (word : Nat) : State :=
  if word < 786432 then
    let a := benchPoint (word / 4096) (word % 4096)
    if (s.frameOf (word / 4096)).isSome then { s with epo := { s.epo with dieBad := a :: s.epo.dieBad } } else s.poisonExt a
  else if 1048580 ≤ word ∧ word < 5242880 then s.poisonSample (word - 1048580)
  else s

/-- Poison the word at a word address of Table 1.13 (R60). -/
def State.poisonWord (s : State) (memory word : Nat) (image : ImageRole) : State :=
  if memory = 0 then s.poisonStore word image
  else if memory = 1 then s.poisonRetained word
  else s.poisonDie word

/-- More than two wrong bits poison the word (R60). -/
def State.spoilWord (s : State) (memory word : Nat) (image : ImageRole) (errors : Nat) : State :=
  if errors ≤ 2 then s else s.poisonWord memory word image

/-- A word with wrong bits is counted and reported (R58, R60, R62). -/
def State.reportWord (s : State) (memory word errors : Nat) : State :=
  if errors = 0 then s else if errors ≤ 2 then s.corrected else s.uncorrectable memory word

/-- What reading a word with `errors` wrong bits does (R58, R60): the code detects three wrong bits, and any larger number is
taken as detected too. DESIGN CHOICE (notes/assumptions/108.md). -/
def State.readWord (s : State) (memory word : Nat) (image : ImageRole) (errors : Nat) : State :=
  (s.spoilWord memory word image errors).reportWord memory word errors

/-- The words of `errs` that a command reads (R58). -/
def State.readWords (s : State) (reads : BadWord → Bool) (errs : List BadWord) : State :=
  errs.foldl (fun (s : State) x => if reads x then s.readWord x.memory.val x.word x.image x.bits else s) s

/-- A word of the point store that holds a live cell point or a station point (Table 1.13). -/
def wordInImage (x : BadWord) (role : ImageRole) : Bool := x.memory == 0 && decide (x.word < 983040) && x.image == role

/-- Whether a memory's scrubber runs (R59). -/
def State.scrubbing (s : State) (memory : Nat) : Bool :=
  if memory = 0 then s.rd Reg.EPO_ECC_CTRL.ps_period 0 != 0
  else if memory = 1 then s.rd Reg.EPO_ECC_CTRL.ret_period 0 != 0
  else s.rd Reg.EPO_ECC_CTRL.md_period 0 != 0

/-- SCRUB (R59): the scrubber reads one word. -/
def execScrub (memory : Fin 3) (word : Nat) (image : ImageRole) (errors : Nat) (s : State) :
    Host.Outcome State Fault Refusal :=
  .next (if !s.scrubbing memory then s
    else if memory = 0 then (s.ask 83 none s.clk.count [word % 32]).readWord memory word image errors
    else s.readWord memory word image errors)

/-- ECC_CORRECTED (R62): a second boundary. -/
def execEccCorrected (s : State) : Host.Outcome State Fault Refusal :=
  let n := s.epo.ceSecond
  let thr := s.rd Reg.EPO_ECC_CTRL.ce_event_thr 0
  let s := { s with epo := { s.epo with ceSecond := 0 } }
  .next (if thr ≠ 0 ∧ thr ≤ n then s.raise 0x020 0 n else s)

/-! ### Benches and paging (R53 to R57) -/

/-- The lowest frame of 0 to 46 that holds nothing. -/
def freeFrame (fs : List Frame) : Option Nat :=
  (List.range 47).find? (fun i => !(fs.any (fun f => f.frame == i)))

/-- An extended point lies in a bench (R53). -/
def inBench (b a : Nat) : Bool := (a % 64 - 16) * 4 + a / 64 / 4096 == b

/-- A bench leaves its frame (R54). A dirty one is written back, so its words on the die are whole again and the points do not
change; of a clean one the die's words remain, with those that went bad there meanwhile (R60). -/
def State.evictBench (s : State) (f : Frame) : State :=
  let bad := s.epo.dieBad.filter (inBench f.bench)
  let s := { s with epo := { s.epo with dieBad := s.epo.dieBad.filter (fun a => !inBench f.bench a) } }
  if f.dirty then s else bad.foldl (fun (s : State) a => s.poisonExt a) s

/-- Bring a bench into a frame, least recently used out first (R54), or make it the most recently used. -/
def State.touchBench (s : State) (b : Nat) (dirty : Bool) : State :=
  match s.epo.frames.find? (fun f => f.bench == b) with
  | some f =>
    { s with epo := { s.epo with
      frames := (s.epo.frames.filter (fun g => g.bench != b)) ++ [⟨f.frame, b, f.dirty || dirty⟩] } }
  | none =>
    if (s.frameOf b).isSome then
      { s with epo := { s.epo with rollFrame := s.epo.rollFrame.map (fun f => ⟨f.frame, f.bench, f.dirty || dirty⟩) } }
    else match freeFrame s.epo.frames, s.epo.frames with
      | some i, fs => { s with epo := { s.epo with frames := fs ++ [⟨i, b, dirty⟩] } }
      | none, f :: fs =>
        let s := s.evictBench f
        { s with epo := { s.epo with frames := fs ++ [⟨f.frame, b, dirty⟩] } }
      | none, [] => s

/-- The bench of an extended point (R53). -/
def benchOf (c p : Nat) : Nat := (p - 16) * 4 + c / 4096

/-- The live or extended cell point, or station point, at a BAR0 address of a point window (Table 16.2). -/
def pointAt (addr : Nat) : Option PointKey :=
  if 0x100000 ≤ addr ∧ addr < 0x180000 then some (.station ((addr - 0x100000) / 8))
  else if 0x800000 ≤ addr ∧ addr < 0x1000000 then
    some (.cell ((addr - 0x800000) / 512) ((addr - 0x800000) / 8 % 64))
  else none

/-- The points that a run of `n` words covers; none unless all lie in a point window. -/
def pointRun (addr : Nat) : Nat → Option (List PointKey)
  | 0 => some []
  | n + 1 =>
    match pointAt addr, pointRun (addr + 8) n with
    | some p, some ps => some (p :: ps)
    | _, _ => none

/-- Whether an access to a point must wait for its bench. -/
def State.benchMissing (s : State) : PointKey → Option Nat
  | .station _ => none
  | .cell c p => if p < 16 then none
    else if (s.frameOf (benchOf c p)).isSome then none else some (benchOf c p)

/-- A point as the host reads it: from the pinned image while it is routed there (R26), else from the published image;
point 15 and 63 of a cell read 0 (Tables 1.7, 1.8). -/
def State.hostPoint (s : State) : PointKey → Pt
  | .station a => if s.epo.pin.isSome && s.flag Reg.EPO_PIN_CTRL.route 0 then tabGet Pt.clear s.pts.pin a else s.pub a
  | .cell c p =>
    if p = 15 ∨ p = 63 then Pt.clear
    else if p < 16 then
      (if s.epo.pin.isSome && s.flag Reg.EPO_PIN_CTRL.route 0 then tabGet Pt.clear s.pts.pin (livePos c p)
       else s.pub (livePos c p))
    else s.ext (extPos c p)

/-- Complete a host read of points; a poisoned one sets the EP bit (R61). -/
def State.completeRead (s : State) (req addr : Nat) (vs : List Pt) : State :=
  { s with host := { s.host with rdata := some ⟨req, addr,
    if vs.any (fun p => p.bad) then .poisoned else .ok, vs.map (fun p => p.v)⟩ } }

/-- The memory and word address that a read of a point reads (Table 1.13): a live cell point or a station point in a physical
copy, an extended point in its frame, or on the memory die while its bench stands in none. DEDUCED (notes/assumptions/29.md). -/
def State.wordOf (s : State) (copy : Nat) : PointKey → Nat × Nat
  | .station a => (0, 786432 + copy * 65536 + a)
  | .cell c p =>
    if p < 16 then (0, copy * 262144 + c * 16 + p)
    else match s.frameOf (benchOf c p) with
      | some f => (0, 983040 + f.frame * 4096 + c % 4096)
      | none => (2, benchOf c p * 4096 + c % 4096)

/-- The image a host read of live and station points is served from. DEDUCED (notes/assumptions/29.md). -/
def State.readRole (s : State) : PointKey → ImageRole
  | .cell _ p => if 16 ≤ p then .single
    else if s.epo.pin.isSome && s.flag Reg.EPO_PIN_CTRL.route 0 then .pinned else .published
  | .station _ => if s.epo.pin.isSome && s.flag Reg.EPO_PIN_CTRL.route 0 then .pinned else .published

/-- Errors that this read finds in the words it covers, as (index, wrong bits). -/
def State.readErrors (s : State) (copy : Nat) (ps : List PointKey) : List (Nat × Nat) → State
  | [] => s
  | (i, n) :: es =>
    match ps[i]? with
    | some p => (s.readWord (s.wordOf copy p).1 (s.wordOf copy p).2 (s.readRole p) n).readErrors copy ps es
    | none => s.readErrors copy ps es

/-- A read that is refused (R476, R477). -/
def State.refuseRead (s : State) (req addr : Nat) : State :=
  let s := s.accessError addr false
  { s with host := { s.host with rdata := some ⟨req, addr, .unsupported, []⟩ } }

/-- The words of a read so far: what it has taken, and each point that no missing bench keeps from it (R54).
DESIGN CHOICE (notes/assumptions/121.md). -/
def State.takeRead (s : State) (ps : List PointKey) (got : List (Option Pt)) : List (Option Pt) :=
  (ps.zip got).map (fun (p, g) => match g with
    | some v => some v
    | none => if (s.benchMissing p).isSome then none else some (s.hostPoint p))

/-- The benches in frames that an access uses become the most recently used (R54). -/
def State.touchPoints (s : State) (ps : List PointKey) : State :=
  ps.foldl (fun (s : State) p => match p with
    | .cell c q => if 16 ≤ q && (s.frameOf (benchOf c q)).isSome then s.touchBench (benchOf c q) false else s
    | .station _ => s) s

/-- A read goes on: it completes once it has every word. -/
def State.serveRead (s : State) (w : BenchWait) : State :=
  if w.got.all (·.isSome) then s.completeRead w.req w.addr (w.got.map (·.getD Pt.clear))
  else { s with epo := { s.epo with waits := s.epo.waits ++ [w] } }

/-- POINT_WINDOW_READ (R24, R26, R54, R477). `errs` are the words this read finds with wrong bits and `copy` the physical
copy it was served from, which the device does not report (R503). -/
def State.windowRead (s : State) (req addr len : Nat) (errs : List (Nat × Nat)) (copy : Nat) : State :=
  if addr % 8 ≠ 0 ∨ len % 8 ≠ 0 ∨ len = 0 ∨ Config.maxReadRequest < len then s.refuseRead req addr
  else match pointRun addr (len / 8) with
    | none => s.refuseRead req addr
    | some ps =>
      let s := ((s.readErrors copy ps errs).askPoints 80 ps).touchPoints ps
      s.serveRead ⟨req, addr, len, s.takeRead ps (List.replicate ps.length none)⟩

def execPointWindowRead (req addr len : Nat) (errs : List (Nat × Nat)) (copy : Fin 3) (s : State) :
    Host.Outcome State Fault Refusal :=
  byReader req addr (fun s => .next (s.windowRead req addr len errs copy)) s

/-- Every waiting read takes the words that it now can, and completes once it has them all (R54): a read of more benches than there are
frames takes them one after another. -/
def State.serveWaits (s : State) : List BenchWait → State
  | [] => s
  | w :: ws =>
    match pointRun w.addr (w.len / 8) with
    | some ps => (s.serveRead { w with got := s.takeRead ps w.got }).serveWaits ws
    | none => s.serveWaits ws

/-- Wrong bits that the device's own reads of the words from `base` on find, as (offset, wrong bits); every read corrects or
detects (R58). -/
def State.meetErrors (s : State) (memory base size : Nat) (errs : List (Nat × Nat)) : State :=
  errs.foldl (fun (s : State) x => if x.1 < size then s.readWord memory (base + x.1) .single x.2 else s) s

/-- BENCH_LOADED (R54): `errs` are the words of the bench that the memory die delivers with wrong bits (R58). -/
def execBenchLoaded (bench : Fin 192) (errs : List (Nat × Nat)) (s : State) : Host.Outcome State Fault Refusal :=
  let s := ((s.meetErrors 2 (bench.val * 4096) 4096 errs).touchBench bench false).askBench 84
  let ws := s.epo.waits
  .next (State.serveWaits { s with epo := { s.epo with waits := [] } } ws)

/-- Extended points that the host may write (Table 1.8). -/
def extWritable (p : Nat) : Bool := (22 ≤ p && p ≤ 38) || (60 ≤ p && p ≤ 62)

/-- A host write of an extended point is remembered for the rest of its core cycle (R57). -/
def State.noteWrite (s : State) (a v : Nat) : State :=
  { s with epo := { s.epo with
    extCycle := s.clk.count
    extWrites := (if s.epo.extCycle = s.clk.count then s.epo.extWrites else []) ++ [(a, v)] } }

/-- Write extended points directly (R51); later reports add to the value written (R57), and the word is whole again
(R506). DEDUCED (notes/assumptions/23.md). -/
def State.writeExt (s : State) : List (PointKey × Nat) → State
  | [] => s
  | (.cell c p, v) :: r =>
    (((s.touchBench (benchOf c p) true).setExt (extPos c p) ⟨v % 2 ^ 64, false⟩).noteWrite (extPos c p) (v % 2 ^ 64)).writeExt r
  | (.station _, _) :: r => s.writeExt r

/-- The host writes of this core cycle to a bench stand after its fold (R57). -/
def State.rewriteExt (s : State) (b : Nat) : State :=
  if s.epo.extCycle = s.clk.count then
    s.epo.extWrites.foldl (fun (s : State) x => if inBench b x.1 then s.setExt x.1 ⟨x.2, false⟩ else s) s
  else s

/-- A point write covers a whole number of points, aligned, with every byte enable set (R30). -/
def pointWriteShaped (addr len : Nat) (allEnabled : Bool) : Bool :=
  allEnabled && addr % 8 == 0 && len % 8 == 0 && decide (8 ≤ len) && decide (len ≤ Config.maxPayload)

/-- EXTENDED_POINT_WRITE (R51): discarded as a whole when any one of its points may not be written (R30).
DEDUCED (notes/assumptions/23.md). -/
def State.extWrite (s : State) (addr len : Nat) (allEnabled : Bool) (vals : List Nat) : State :=
  if !pointWriteShaped addr len allEnabled then s.rejectWrite addr
  else match pointRun addr (len / 8) with
    | none => s.rejectWrite addr
    | some ps =>
      if ps.all (fun p => match p with | .cell _ q => extWritable q | .station _ => false) then
        (s.askPoints 80 ps).writeExt (ps.zip vals)
      else s.rejectWrite addr

def execExtendedPointWrite (addr len : Nat) (allEnabled : Bool) (vals : List Nat) (s : State) :
    Host.Outcome State Fault Refusal := byHost (fun s =>
  .next (s.extWrite addr len allEnabled vals)) s

/-! ### The roll-up (R49, R56, R506) -/

/-- Counting points (R49). -/
def isCounting (p : Nat) : Bool := (22 ≤ p && p ≤ 34) || p == 37

/-- One bin of a pair-of-bins word, saturating (R49). -/
def bumpBin (v bin : Nat) : Nat :=
  let lo := v % 2 ^ 32
  let hi := v / 2 ^ 32 % 2 ^ 32
  if bin % 2 = 0 then min (lo + 1) (2 ^ 32 - 1) + 2 ^ 32 * hi else lo + 2 ^ 32 * min (hi + 1) (2 ^ 32 - 1)

def clampInt (lo hi x : Int) : Int := if x < lo then lo else if hi < x then hi else x

/-- floor(n / d) clamped to a bin number; a window that is not open has no bins, and bin 0 stands for it. -/
def binOf (n d : Int) (top : Nat) : Nat := if d ≤ 0 then 0 else (clampInt 0 top (Int.fdiv n d)).toNat

/-- The histogram bin of a sample (Table 1.8). A cell of no arm, which an isolation entry is, takes the voltage window of
arm 0. DESIGN CHOICE (notes/assumptions/109.md). -/
def State.histBin (s : State) (c p : Nat) : Option Nat :=
  let arm := (s.cellArm c).getD 0
  if p < 48 then
    let v := s.work (livePos c 0)
    let lo := s.rd Reg.ARM_SCREEN_LO.lo arm
    let hi := s.rd Reg.ARM_SCREEN_HI.hi arm
    if v.bad || !fFinite f32 v.v || !fFinite f32 lo || !fFinite f32 hi then none
    else some (binOf (16 * (fVal f32 (v.v % 2 ^ 32) - fVal f32 lo)) (fVal f32 hi - fVal f32 lo) 15)
  else if p < 56 then
    let v := s.work (livePos c 4)
    if v.bad || !fFinite f32 (v.v % 2 ^ 32) then none
    else some (binOf (fVal f32 (v.v % 2 ^ 32) + 40 * f32.unit) (10 * f32.unit) 15)
  else
    let v := s.work (livePos c 3)
    if v.bad || !fFinite f32 (v.v % 2 ^ 32) then none
    else some (binOf (fVal f32 (v.v % 2 ^ 32)) (40 * f32.unit) 7)

/-- Mean and mean absolute deviation of the samples (Table 1.8), each rounded once. DEDUCED (notes/assumptions/109.md). -/
def Mean.word (m : Mean) : Nat :=
  let mean := fOfRat f32 false m.sum (m.n * f32.unit)
  let dev : Int := (m.vals.map (fun (x : Int) => ((m.n * x - m.sum).natAbs : Int))).foldl (· + ·) 0
  mean + 2 ^ 32 * fOfRat f32 false dev (m.n * m.n * f32.unit)

/-- Fold one cell's accumulator of extended point p. A sample whose live source is poisoned or not finite is left out and the point
stays as it was; a poisoned accumulator poisons its point. DESIGN CHOICE (notes/assumptions/109.md). -/
def State.foldPoint (s : State) (c p : Nat) : State :=
  let a := extPos c p
  let old := s.ext a
  let acc := tabGet Acc.clear s.epo.accs a
  let s := { s with epo := { s.epo with accs := tabSet Acc.clear s.epo.accs a Acc.clear } }
  if acc.bad then s.poisonExt a
  else if isCounting p then
    (if old.bad ∨ acc.count = 0 then s else s.setExt a ⟨min (old.v + acc.count) (2 ^ 64 - 1), false⟩)
  else if p = 36 then
    (if old.bad ∨ acc.energy = 0 then s else s.setExt a ⟨fAdd f64 old.v acc.energy, false⟩)
  else if p = 35 then
    (match acc.last with
      | some v => s.setExt a ⟨v, false⟩
      | none => s)
  else if p = 16 ∨ p = 18 ∨ p = 20 then
    match acc.range with
    | none => s
    | some (lo, hi) =>
      if old.bad then s
      else
        let seen := (tabGet Mean.clear s.epo.means a).n
        let lo' := if seen = 0 then lo else if fLt f32 lo (old.v % 2 ^ 32) then lo else old.v % 2 ^ 32
        let hi' := if seen = 0 then hi else if fLt f32 (old.v / 2 ^ 32) hi then hi else old.v / 2 ^ 32
        let s := { s with epo := { s.epo with means := tabSet Mean.clear s.epo.means a ⟨1, 0, []⟩ } }
        s.setExt a ⟨lo' + 2 ^ 32 * hi', false⟩
  else if p = 17 ∨ p = 19 ∨ p = 21 then
    let q := if p = 17 then 0 else if p = 19 then 4 else 3
    let v := s.work (livePos c q)
    if v.bad || !fFinite f32 (v.v % 2 ^ 32) then s
    else
      let m := tabGet Mean.clear s.epo.means a
      let x := fVal f32 (v.v % 2 ^ 32)
      let m' : Mean := ⟨m.n + 1, m.sum + x, x :: m.vals⟩
      let s := { s with epo := { s.epo with means := tabSet Mean.clear s.epo.means a m' } }
      s.setExt a ⟨m'.word, false⟩
  else if 40 ≤ p ∧ p < 60 then
    match s.histBin c p with
    | some b =>
      let first := if p < 48 then 40 else if p < 56 then 48 else 56
      if b / 2 = p - first then (if old.bad then s else s.setExt a ⟨bumpBin old.v b, false⟩) else s
    | none => s
  else s

/-- Put a bench in frame 47 unless it is resident, and mark it dirty (R54, R56). A fold in one of the frames 0 to 46 counts as a use for
their replacement. DESIGN CHOICE (notes/assumptions/121.md). -/
def State.rollBench (s : State) (b : Nat) : State :=
  if s.epo.frames.any (fun f => f.bench == b) then s.touchBench b true
  else
    let s := match s.epo.rollFrame with
      | some f => if f.bench = b then s else s.evictBench f
      | none => s
    { s with epo := { s.epo with rollFrame := some ⟨47, b, true⟩ } }

/-- The frame of a bench, or the memory die's place where none holds it, as (memory, first word) (Table 1.13). -/
def State.benchWords (s : State) (b : Nat) : Nat × Nat :=
  match s.frameOf b with
  | some f => (0, 983040 + f.frame * 4096)
  | none => (2, b * 4096)

/-- ROLLUP_FOLD (R56): one bench, in ascending order. Only cells of the cell table have anything to fold. `errs` are the words of
the bench that the roll-up reads with wrong bits (R58); a host write of the same core cycle stands (R57). -/
def State.rollup (s : State) (errs : List (Nat × Nat)) : State :=
  let b := s.epo.rollNext
  let s := (s.meetErrors (s.benchWords b).1 (s.benchWords b).2 4096 errs).rollBench b
  let s := (s.configuredCells.filter (fun c => c / 4096 == b % 4)).foldl (fun s c => s.foldPoint c (16 + b / 4)) s
  let s := s.rewriteExt b
  { s with epo := { s.epo with
    folds := tabSet 0 s.epo.folds b (s.epoch % 2 ^ 24)
    rollNext := (b + 1) % 192 } }

def execRollupFold (errs : List (Nat × Nat)) (s : State) : Host.Outcome State Fault Refusal :=
  .next (if s.flag Reg.EPO_CTRL.rollup_enable 0 then (s.rollup errs).askBench 82 else s)

/-! ### The event ring (R43, R44, R481 to R483) -/

/-- Entries of the host ring. -/
def State.ringSize (s : State) : Nat := 2 ^ s.rd Reg.EPO_EVQ_SIZE.log2_entries 0

/-- The 32 bytes of an event record (Table 1.3). -/
def eventBytes (e : Event) : List Byte :=
  bytesLE 2 e.code ++ bytesLE 2 e.inst ++ bytesLE 4 (e.flags % 256) ++ bytesLE 8 e.epoch ++ bytesLE 8 e.time
    ++ bytesLE 8 e.data

/-- Restart the moderation of vector 0 and send a ring vector (R482). -/
def State.ringVector (s : State) (v : Nat) : State :=
  { s.signal v with evq := { s.evq with written := 0 } }

/-- Count a record for vector 0 and send it when its count is reached (R482). -/
def State.moderate (s : State) : State :=
  let s := { s with evq := { s.evq with
    written := s.evq.written + 1, oldest := if s.evq.written = 0 then s.clk.count else s.evq.oldest } }
  if s.rd Reg.GLB_EVQ_MOD.count 0 ≤ s.evq.written then s.ringVector 0 else s

/-- Write one record at the head and advance it; then signal the vector of Table 16.3 that it belongs to, unless it is a marker whose vector
has fired (R480). -/
def State.writeRecord (s : State) (e : Event) : State :=
  let head := s.rd Reg.EPO_EVQ_HEAD.head 0
  let base := s.rd Reg.EPO_EVQ_BASE_LO.base_lo 0 * 4096 + s.rd Reg.EPO_EVQ_BASE_HI.base_hi 0 * 2 ^ 32
  let s := s.hostStore (base + head * 32) (eventBytes e)
  let s := s.wr Reg.EPO_EVQ_HEAD.head 0 ((head + 1) % s.ringSize)
  if e.code = 0x010 then
    if s.evq.told.contains (e.epoch, e.data) then { s with evq := { s.evq with told := s.evq.told.erase (e.epoch, e.data) } }
    else s.ringVector 2
  else if severity e.code = 3 ∨ e.flags / 16 % 2 = 1 ∨ e.flags / 2 % 2 = 1 then s.ringVector 1
  else s.moderate

/-- The host ring takes a record now: it is enabled, the device may issue requests (R473) and it is not full (R43). -/
def State.ringOpen (s : State) : Bool :=
  s.flag Reg.EPO_CTRL.ev_enable 0 && !s.flag Reg.GLB_STAT.master_off 0 && !s.inD3Hot
    && (s.rd Reg.EPO_EVQ_HEAD.head 0 + 1) % s.ringSize != s.rd Reg.EPO_EVQ_TAIL.tail 0

/-- The loss record (R44): its data is the number dropped since the last one. DEDUCED (notes/assumptions/19.md). -/
def State.lossRecord (s : State) : Event := ⟨0x015, 0, eventFlags 0x015 2, s.epoch, s.now, s.evq.dropped⟩

/-- The next buffered record goes to the ring. `errs` are the words of the event buffer that it reads with wrong bits
(R58), and the record is the buffer's oldest. When records have been dropped, a place has become free,
and the loss record joins the buffer behind the records that were waiting, ahead of any later one (R44). `persist`: the
condition of the record is still present (Table 1.4). DEDUCED (notes/assumptions/19.md). -/
def State.ringWrite (s : State) (persist : Bool) (errs : List BadWord) : State :=
  if !s.ringOpen || s.evq.buf.isEmpty then s
    else
      let s := s.readWords (fun x => x.memory == 0 && decide (1196032 ≤ x.word) && decide (x.word < 1196036)) errs
      match s.evq.buf with
      | [] => s
      | e :: r =>
        let e := if persist ∧ e.flags / 8 % 2 = 0 then { e with flags := e.flags + 8 } else e
        let loss := if s.evq.dropped = 0 then [] else [s.lossRecord]
        State.writeRecord { s with evq := { s.evq with buf := r ++ loss, dropped := 0 } } e

/-- RING_WRITE (R43). DEDUCED (notes/assumptions/19.md). -/
def execRingWrite (persist : Bool) (errs : List BadWord) (s : State) : Host.Outcome State Fault Refusal := .next (s.ringWrite persist errs)

/-- EVQ_TAIL_WRITE (R483): accepted from the present tail up to and including the head. -/
def execEvqTailWrite (value : Nat) (s : State) : Host.Outcome State Fault Refusal := byHost (fun s =>
  let n := s.ringSize
  let tail := s.rd Reg.EPO_EVQ_TAIL.tail 0
  let head := s.rd Reg.EPO_EVQ_HEAD.head 0
  let v := value % 2 ^ 16
  .next (if v < n ∧ (v + n - tail) % n ≤ (head + n - tail) % n then s.wr Reg.EPO_EVQ_TAIL.tail 0 v
    else s.rejectWrite Reg.EPO_EVQ_TAIL.tail.addr)) s

/-- The field and BAR0 address of a ring descriptor register. -/
def RingField : RingRegister → Field
  | .baseLo => Reg.EPO_EVQ_BASE_LO.base_lo
  | .baseHi => Reg.EPO_EVQ_BASE_HI.base_hi
  | .size => Reg.EPO_EVQ_SIZE.log2_entries

/-- EVQ_CONFIG_WRITE (R483): discarded while ev_enable is 1 or out of range, else head and tail return to 0. -/
def execEvqConfigWrite (which : RingRegister) (value : Nat) (s : State) : Host.Outcome State Fault Refusal := byHost (fun s =>
  let f := RingField which
  let v := bitsOf value f.lo f.width
  .next (if s.flag Reg.EPO_CTRL.ev_enable 0 ∨ v < f.min ∨ f.max < v then s.rejectWrite f.addr
    else ((s.wr f 0 v).wr Reg.EPO_EVQ_HEAD.head 0 0).wr Reg.EPO_EVQ_TAIL.tail 0 0)) s

/-! ### The disturbance recorder (R63 to R66) -/

/-- The recorder is copying (R66). -/
def State.drBusy (s : State) : Bool := s.flag Reg.EPO_DR_CTRL.dma_start 0
def State.drArmed (s : State) : Bool := s.flag Reg.EPO_DR_CTRL.arm 0
def State.drFrozen (s : State) : Bool := s.flag Reg.EPO_STAT.dr_frozen 0

/-- Samples the buffer holds with n channels (R64). -/
def drDepth (n : Nat) : Nat := (33554432 - 32) / ((2 + n) * 8)

/-- DR_ARM (R64). -/
def execDrArm (s : State) : Host.Outcome State Fault Refusal := byHost (fun s =>
  let n := s.rd Reg.EPO_DR_CTRL.channels 0
  .next (if s.drBusy ∨ drDepth n < s.rd Reg.EPO_DR_LEN.pre 0 + s.rd Reg.EPO_DR_LEN.post 0 then
      s.wr Reg.EPO_DR_STAT.arm_refused 0 1
    else
      let s := { s with dr := { s.dr with
        skip := 0, pre := [], post := [], trig := none, left := 0, n := n, dec := s.rd Reg.EPO_DR_CTRL.decimation 0, short := false } }
      ((((s.wr Reg.EPO_DR_CTRL.arm 0 1).wr Reg.EPO_STAT.dr_armed 0 1).wr Reg.EPO_STAT.dr_frozen 0 0).wr
        Reg.EPO_DR_STAT.extra_triggers 0 0))) s

/-- Freeze the record (R65). -/
def State.drFreeze (s : State) : State :=
  ((s.wr Reg.EPO_DR_CTRL.arm 0 0).wr Reg.EPO_STAT.dr_armed 0 0).wr Reg.EPO_STAT.dr_frozen 0 1

/-- A trigger from the host or from the reaction matrix (R65): the first starts the post count, later ones only count. -/
def State.drTrigger (s : State) : State :=
  if s.dr.trig.isSome then s.count Reg.EPO_DR_STAT.extra_triggers 0
  else if !s.drArmed then s
  else
    let short := decide (s.dr.pre.length < s.rd Reg.EPO_DR_LEN.pre 0)
    let s := if short then s.wr Reg.EPO_DR_STAT.short 0 1 else s
    let s := { s with dr := { s.dr with
      trig := some (s.epoch, s.now), left := s.rd Reg.EPO_DR_LEN.post 0, short := short } }
    let s := if s.rd Reg.EPO_DR_LEN.post 0 = 0 then s.drFreeze else s
    s.raise 0x030 0 s.epoch

def execDrTrigger (s : State) : Host.Outcome State Fault Refusal := byHost (fun s => .next s.drTrigger) s

/-- The point of a channel, none where it names none (R63). -/
def State.drKey (s : State) (i : Nat) : Option PointKey :=
  let x := tabGet 0 s.dr.chans i
  let a := x % 2 ^ 20
  if x / 2 ^ 25 % 2 = 1 then (if a % 64 < 16 then some (.cell (a / 64) (a % 64)) else none) else some (.station (a % 65536))

/-- The published value of a channel (R63). -/
def State.drChannel (s : State) (i : Nat) : Pt :=
  match s.drKey i with
  | some (.cell c p) => s.pub (livePos c p)
  | some (.station a) => s.pub a
  | none => Pt.clear

/-- Seams until the next sample. -/
def State.drSkip (s : State) (n : Nat) : State := { s with dr := { s.dr with skip := n } }

/-- The sample of a seam (R63, R65): at the first seam after the arm command and at every (decimation + 1)-th from there; before
the trigger the last `pre` samples are kept. DESIGN CHOICE (notes/assumptions/110.md). -/
def State.drSample (s : State) : State :=
  if !s.drArmed then s
  else if s.dr.skip ≠ 0 then s.drSkip (s.dr.skip - 1)
  else
    let n := s.rd Reg.EPO_DR_CTRL.channels 0
    let x : DrSample := ⟨s.epo.k, s.epo.seam, (List.range n).map s.drChannel⟩
    let s := (s.drSkip (s.rd Reg.EPO_DR_CTRL.decimation 0)).askPoints 81 ((List.range n).filterMap s.drKey)
    match s.dr.trig with
    | none =>
      let keep := s.rd Reg.EPO_DR_LEN.pre 0
      let pre := s.dr.pre ++ [x]
      { s with dr := { s.dr with pre := pre.drop (pre.length - keep) } }
    | some _ =>
      let s := { s with dr := { s.dr with post := s.dr.post ++ [x], left := s.dr.left - 1 } }
      if s.dr.left = 0 then s.drFreeze else s

/-- DR_DMA_START (R66): only a frozen record can be copied; without one the write does nothing and is not reported.
DESIGN CHOICE (notes/assumptions/121.md). -/
def execDrDmaStart (s : State) : Host.Outcome State Fault Refusal := byHost (fun s =>
  .next (if s.drFrozen then (s.wr Reg.EPO_DR_CTRL.dma_start 0 1).wr Reg.EPO_STAT.dr_dma_busy 0 1 else s)) s

/-- The bytes of a frozen record: the header of R66, then the samples, oldest first. DEDUCED (notes/assumptions/28.md). -/
def State.drBytes (s : State) : List Byte :=
  let t := s.dr.trig.getD (0, 0)
  let w1 := s.dr.pre.length % 2 ^ 16 + s.dr.post.length % 2 ^ 16 * 2 ^ 16 + s.dr.n * 2 ^ 32
    + s.dr.dec * 2 ^ 40 + bit s.dr.short * 2 ^ 48
  bytesLE 8 t.1 ++ bytesLE 8 w1 ++ bytesLE 8 t.2 ++ bytesLE 8 0
    ++ (s.dr.pre ++ s.dr.post).flatMap (fun x =>
      bytesLE 8 x.epoch ++ bytesLE 8 x.time ++ x.vals.flatMap (fun p => bytesLE 8 p.v))

/-- DR_TRANSFERRED (R66): the copy is in host memory, at the address that EPO_DR_DMA holds when it ends. A copy waits while the
device may issue no request (R473). `errs` are the words of the buffer that it read with wrong bits (R58).
DESIGN CHOICE (notes/assumptions/110.md). -/
def execDrTransferred (errs : List (Nat × Nat)) (s : State) : Host.Outcome State Fault Refusal :=
  .next (if s.drBusy ∧ s.drFrozen ∧ ¬ s.flag Reg.GLB_STAT.master_off 0 ∧ ¬ s.inD3Hot then
      let bs := s.drBytes
      let s := s.meetErrors 2 1048576 4194304 errs
      let s := s.hostStore (s.rd Reg.EPO_DR_DMA_LO.addr_lo 0 * 64 + s.rd Reg.EPO_DR_DMA_HI.addr_hi 0 * 2 ^ 32) bs
      ((s.wr Reg.EPO_DR_CTRL.dma_start 0 0).wr Reg.EPO_STAT.dr_dma_busy 0 0).raise 0x031 0 bs.length
    else s)

end Sys2Proof.Machine
end

