-- ==== Sys2Proof/Machine/Screen.lean ====
section
/-! DEFINITION. The screen's arithmetic: bucket and key (R113 to R116), levels and steps of an arm reference (R77, R78), the
selection of R130, and the duty offsets of R136. Pure functions; Arm.lean feeds them from the state. -/

namespace Sys2Proof.Machine

/-- s = fl(4096 / fl(hi - lo)) (R113). -/
def screenScale (lo hi : Nat) : Nat := fDiv f32 (fOfInt f32 4096) (fSub f32 hi lo)

/-- The unclamped bucket of a voltage (R113); a voltage with no finite product has bucket 0. -/
def rawBucket (lo hi v : Nat) : Int :=
  let x := fMul f32 (fSub f32 v lo) (screenScale lo hi)
  if fFinite f32 x then fFloor f32 x else if fNeg f32 x ∨ fIsNaN f32 x then -1 else 4096

def clampBucket (b : Int) : Nat := if b < 0 then 0 else if 4095 < b then 4095 else b.toNat

/-- ri = (p - rho) mod n (R115). -/
def rotatedIndex (p k n : Nat) : Nat := (p + n - k % n) % n

/-- The key as point 9 holds it (R116). -/
def keyOf (bucket ri : Nat) : Nat := bucket * 65536 + ri

/-! ### Levels and steps (R77, R78) -/

/-- w(m) = fl((m + 0.5) x u). -/
def levelBound (u : Nat) (m : Int) : Nat :=
  fOfRat f32 false ((2 * m + 1) * fVal f32 u) (2 * f32.unit)

/-- Walk to the integer n with w(n - 1) <= v < w(n). -/
def levelWalk (u v : Nat) : Nat → Int → Int
  | 0, n => n
  | f + 1, n =>
    if fLt f32 v (levelBound u (n - 1)) then levelWalk u v f (n - 1)
    else if fLe f32 (levelBound u n) v then levelWalk u v f (n + 1)
    else n

/-- The level of a finite voltage (R77); the exact quotient is off by rounding only. -/
def levelOf (u v : Nat) : Int :=
  levelWalk u v 512 (Int.fdiv (2 * fVal f32 v + fVal f32 u) (2 * fVal f32 u))

def clampLevel (lo hi x : Int) : Int := if x < lo then lo else if hi < x then hi else x

/-- A step: edge time and level after it. -/
abbrev ArmStep := Nat × Int

/-- Append a step, or move the last one when it falls at the same instant (R78). -/
def addStep (steps : List ArmStep) (tau : Nat) (m : Int) : List ArmStep :=
  match steps.getLast? with
  | some l => if l.1 = tau then steps.dropLast ++ [(tau, m)] else steps ++ [(tau, m)]
  | none => [(tau, m)]

/-- The crossings of R78 from level m to level n1. Where the quotient is not finite, its edge time is 0 for a NaN or a negative one and the
last of the epoch for a positive one. DESIGN CHOICE (notes/assumptions/124.md). -/
def crossings (u v0 v1 e : Nat) (n1 : Int) : Nat → Int → List ArmStep → List ArmStep
  | 0, _, steps => steps
  | f + 1, m, steps =>
    if m = n1 then steps
    else
      let up : Bool := m < n1
      let b := if up then levelBound u m else levelBound u (m - 1)
      let m' := if up then m + 1 else m - 1
      let r := fDiv f32 (fSub f32 b v0) (fSub f32 v1 v0)
      let x := fMul f32 r (fOfInt f32 e)
      let tau := if fFinite f32 x then clampLevel 0 ((e : Int) - 1) (fFloor f32 x)
        else if fNeg f32 x ∨ fIsNaN f32 x then 0 else (e : Int) - 1
      crossings u v0 v1 e n1 f m' (addStep steps tau.toNat m')

/-- The steps of a target epoch before merging (R78). -/
def armSteps (u v0 v1 e : Nat) (interp : Bool) (nPrev lo hi : Int) : List ArmStep :=
  let n0 := clampLevel lo hi (levelOf u v0)
  let steps : List ArmStep := if n0 = nPrev then [] else [(0, n0)]
  if interp then crossings u v0 v1 e (clampLevel lo hi (levelOf u v1)) 8192 n0 steps else steps

/-- The excess over max_steps merged into the last step (R78). -/
def mergeSteps (maxSteps : Nat) (steps : List ArmStep) : List ArmStep :=
  if steps.length ≤ maxSteps then steps
  else steps.take (maxSteps - 1) ++ steps.getLast?.toList

/-! ### Selection (R126 to R134) -/

/-- An available cell in the selection: its key, type, start state and later state, whether it may still change, and the
command chosen for it. -/
structure SelCell where
  cell : Nat
  key : Nat
  fb : Bool
  s : Int
  changed : Bool
  cmd : Option (Int × Nat)
deriving DecidableEq, Repr

def SelCell.bucket (c : SelCell) : Nat := c.key / 65536

/-- The arm's settings and conditions for one selection. -/
structure SelCfg where
  band : Nat
  cap : Nat
  dir : Int
  dirOk : Bool
  deblock : Bool
  swap : Nat
deriving DecidableEq, Repr

/-- Cells in ascending key order, and the changes used. -/
structure Sel where
  cells : List SelCell
  used : Nat
deriving DecidableEq, Repr

/-- The preference order for sign sigma (R126). -/
def Sel.order (x : Sel) (g : SelCfg) (sigma : Int) : List SelCell :=
  let l := x.cells.filter (fun c => sigma == 1 || c.fb)
  if 0 < sigma * g.dir then l else l.reverse

def Sel.countOf (x : Sel) (q : Int) : Nat := (x.cells.filter (fun c => c.s == q)).length
def Sel.level (x : Sel) : Int := (x.cells.map (fun c => c.s)).foldl (· + ·) 0

/-- Give a cell a state at an edge time (`change` of R130). -/
def Sel.change (x : Sel) (g : SelCfg) (cell : Nat) (st : Int) (tau : Nat) : Sel :=
  { cells := x.cells.map (fun c => if c.cell = cell then { c with s := st, changed := true, cmd := some (st, tau) } else c)
    used := if g.deblock then x.used else x.used + 1 }

/-- Change the first eligible cell of an order. The number is 0 when it was changed, 1 when the cap is reached and 2 when
no eligible cell remains (Table 3.5). -/
def Sel.pick (x : Sel) (g : SelCfg) (ord : List SelCell) (from_ st : Int) (tau : Nat) : Sel × Nat :=
  match ord.find? (fun c => c.s == from_ && !c.changed) with
  | none => (x, 2)
  | some c => if g.deblock || x.used < g.cap then (x.change g c.cell st tau, 0) else (x, 1)

def Sel.insertBest (x : Sel) (g : SelCfg) (sigma : Int) (tau : Nat) : Sel × Nat :=
  x.pick g (x.order g sigma) 0 sigma tau

def Sel.removeWorst (x : Sel) (g : SelCfg) (sigma : Int) (tau : Nat) : Sel × Nat :=
  x.pick g (x.order g sigma).reverse sigma 0 tau

/-- Repeat an act while a condition holds; each act changes one more cell. -/
def Sel.loop (go : Sel → Bool) (act : Sel → Sel × Nat) : Nat → Sel → Sel × Nat
  | 0, x => (x, 0)
  | n + 1, x =>
    if go x then
      match act x with
      | (y, 0) => Sel.loop go act n y
      | (y, w) => (y, w)
    else (x, 0)

/-- move_to of R130: the sign of the target, removals of the other sign, insertions, removals. -/
def Sel.moveTo (x : Sel) (g : SelCfg) (target : Int) (tau : Nat) : Sel × Nat :=
  let sigma := target.sign
  let n := x.cells.length + 1
  let clear (q : Int) (x : Sel) : Sel × Nat :=
    if q = sigma then (x, 0) else x.loop (fun y => 0 < y.countOf q) (fun y => y.removeWorst g q tau) n
  match clear 1 x with
  | (x, 0) =>
    match clear (-1) x with
    | (x, 0) =>
      if sigma = 0 then (x, 0)
      else match x.loop (fun y => y.countOf sigma < target.natAbs) (fun y => y.insertBest g sigma tau) n with
        | (x, 0) => x.loop (fun y => target.natAbs < y.countOf sigma) (fun y => y.removeWorst g sigma tau) n
        | r => r
    | r => r
  | r => r

/-- A step that could not be completed (R133): its index, the cause and the shortfall. -/
structure Short where
  index : Nat
  cause : Nat
  missing : Nat
deriving DecidableEq, Repr

/-- Stages 2 and 3: the moves in order, stopping at the first that cannot be completed. -/
def Sel.moves (x : Sel) (g : SelCfg) : Nat → List ArmStep → Sel × Option Short
  | _, [] => (x, none)
  | i, st :: rest =>
    match x.moveTo g st.2 st.1 with
    | (y, 0) => y.moves g (i + 1) rest
    | (y, w) => (y, some ⟨i, w, (st.2 - y.level).natAbs⟩)

/-- Exchange pairs of stage 4. -/
def Sel.exchange (x : Sel) (g : SelCfg) (sigma : Int) : List (SelCell × SelCell) → Sel
  | [] => x
  | (o, c) :: r => ((x.change g o.cell 0 g.swap).change g c.cell sigma g.swap).exchange g sigma r

/-- Stage 4 (R130, R131). -/
def Sel.exchanges (x : Sel) (g : SelCfg) : Sel :=
  let level := x.level
  if g.deblock || !g.dirOk || level = 0 || g.cap < x.used + 2 then x
  else
    let sigma := level.sign
    let m := level.natAbs
    let ranked := x.order g sigma
    let th := match ranked[m - 1]? with | some c => c.bucket | none => 0
    let asc : Bool := 0 < sigma * g.dir
    let beyond (c : SelCell) : Bool := if asc then th + g.band < c.bucket else c.bucket + g.band < th
    let out := ranked.reverse.filter (fun c => c.s == sigma && !c.changed && beyond c)
    let cand := (ranked.take m).filter (fun c => c.s == 0 && !c.changed)
    let n := min (min out.length cand.length) ((g.cap - x.used) / 2)
    x.exchange g sigma ((out.zip cand).take n)

/-- The selection of one target epoch (R130). -/
def selectCells (cells : List SelCell) (g : SelCfg) (steps : List ArmStep) (nPrev : Int) : Sel × Option Short :=
  let x : Sel := ⟨cells, 0⟩
  let moves := match steps with
    | (0, l) :: rest => (0, l) :: rest
    | _ => (0, nPrev) :: steps
  match x.moves g 0 moves with
  | (y, none) => (y.exchanges g, none)
  | r => r

/-- Insert into a list ordered by key. -/
def insertByKey (c : SelCell) : List SelCell → List SelCell
  | [] => [c]
  | d :: r => if c.key ≤ d.key then c :: d :: r else d :: insertByKey c r

def sortByKey (l : List SelCell) : List SelCell := l.foldr insertByKey []

/-! ### Duty offsets (R136) -/

/-- Sum in binary64, in order. -/
def sum64 (l : List Nat) : Nat := l.foldl (fun a x => fAdd f64 a (f32To64 x)) 0

/-- One clamp of a finite binary32 to a range. -/
def fClamp (f : Fmt) (lo hi x : Nat) : Nat := if fLt f x lo then lo else if fLt f hi x then hi else x

/-- A cell's input to the offsets: (cell, cap_v, bucket, frozen). -/
abbrev OffsetIn := Nat × Nat × Nat × Bool

/-- delta of every available cell, in the order given (ascending cell index). -/
def dutyOffsets (cells : List OffsetIn) (vavail lo hi gain dmax band : Nat) (sg : Int) : List (Nat × Nat) :=
  let n := cells.length
  let vbar := fDiv f32 vavail (fOfInt f32 n)
  let bbar := clampBucket (rawBucket lo hi vbar)
  let x (c : OffsetIn) : Nat :=
    if c.2.2.2 || (if c.2.2.1 < bbar then bbar - c.2.2.1 else c.2.2.1 - bbar) ≤ band then 0
    else fMul f32 (fMul f32 gain (fSub f32 vbar c.2.1)) (fOfInt f32 sg)
  let xs := cells.map (fun c => (c.1, x c))
  let sum := sum64 (xs.map (·.2))
  let mean := if fFinite f64 sum then fOfRat f32 (fNeg f64 sum) (fVal f64 sum) (n * f64.unit) else f64To32 sum
  xs.map (fun c => (c.1, fClamp f32 (fNegate f32 dmax) dmax (fSub f32 c.2 mean)))

end Sys2Proof.Machine
end

