-- ==== Sys2Proof/Machine/Arm.lean ====
section
/-! DEFINITION. The arm engines (R70 to R111) and what the screen keeps of its cells (R112 to R125): states, deblocking and
blocking, retirement, exclusion, arm sums, carriers, and what a seam does to an arm. The decision is in Decision.lean. -/

namespace Sys2Proof.Machine

/-! ### Access -/

def State.arm (s : State) (a : Nat) : ArmRt := tabGet ArmRt.clear s.arms a
def State.modArm (s : State) (a : Nat) (f : ArmRt → ArmRt) : State :=
  { s with arms := tabMod ArmRt.clear s.arms a f }
def State.cell (s : State) (c : Nat) : CellRt := tabGet CellRt.clear s.cells c
def State.modCell (s : State) (c : Nat) (f : CellRt → CellRt) : State :=
  { s with cells := tabMod CellRt.clear s.cells c f }
def State.lane (s : State) (l : Nat) : LaneRt := tabGet LaneRt.clear s.lanes l
def State.modLane (s : State) (l : Nat) (f : LaneRt → LaneRt) : State :=
  { s with lanes := tabMod LaneRt.clear s.lanes l f }
def State.unit (s : State) (u : Nat) : UnitRt := tabGet UnitRt.clear s.units u
def State.modUnit (s : State) (u : Nat) (f : UnitRt → UnitRt) : State :=
  { s with units := tabMod UnitRt.clear s.units u f }

def State.armState (s : State) (a : Nat) : Nat := s.rd Reg.ARM_STAT.state a
def State.armCells (s : State) (a : Nat) : List CellEntry := s.bs.armCells a

/-- Write a point of both the published image and the working image: what the device publishes at a seam. -/
def State.setBoth (s : State) (a v : Nat) : State := (s.setPub a ⟨v % 2 ^ 64, false⟩).setWork a ⟨v % 2 ^ 64, false⟩

/-- Change a point's value in both images and leave its poison. -/
def State.modBoth (s : State) (a : Nat) (f : Nat → Nat) : State :=
  let p := s.pub a
  let q := s.work a
  (s.setPub a ⟨f p.v % 2 ^ 64, p.bad⟩).setWork a ⟨f q.v % 2 ^ 64, q.bad⟩

/-- Add to the accumulator of an extended point (R56). -/
def State.bump (s : State) (c p : Nat) : State :=
  { s with epo := { s.epo with accs := tabMod Acc.clear s.epo.accs (extPos c p) (fun a => { a with count := a.count + 1 }) } }

/-! ### States of a cell (Table 2.1) -/

/-- Contribution of switch bits S4..S1. -/
def contribOf (fb : Bool) (bits : Nat) : Int :=
  if fb then (if bits = 9 then 1 else if bits = 6 then -1 else 0) else if bits = 1 then 1 else 0

/-- Switch bits of an insertion of a sign. -/
def insertBits (fb : Bool) (sg : Int) : Nat := if sg < 0 then 6 else if fb then 9 else 1

def CellRt.available (c : CellRt) : Bool := !c.retired && !c.excluded

/-- Available cells of an arm (R73), ascending. -/
def State.availCells (s : State) (a : Nat) : List CellEntry :=
  (s.armCells a).filter (fun e => (s.cell e.cell).available)

/-- Range of levels (R73). -/
def State.levelRange (s : State) (a : Nat) : Int × Int :=
  let l := s.availCells a
  (-((l.filter (·.fb)).length : Int), (l.length : Int))

/-- The bypass variant that a cell enters (R72): a bypassed cell keeps its own. -/
def State.bypassOf (s : State) (a : Nat) (e : CellEntry) : Nat :=
  let r := s.cell e.cell
  if !e.fb then 2
  else if r.bits = 5 ∨ r.bits = 10 then r.bits
  else
    let m := s.rd Reg.ARM_CTRL.fb_bypass a
    if m = 0 then 5 else if m = 1 then 10 else if r.variant = 1 then 10 else 5

/-- Command a SET for a target epoch and record the state it commands (R72, R80). -/
def State.cmdSet (s : State) (c t bits edge : Nat) (contrib : Int) : State :=
  s.modCell c (fun r => { r with
    bits := bits, contrib := contrib
    variant := if bits = 5 then 1 else if bits = 10 then 2 else r.variant
    hist := ((t, bits) :: r.hist).take 4
    cmds := ((t, CellCmd.set bits edge) :: r.cmds.filter (fun x => x.1 != t)).take 4 })

/-- Command that leaves the bits as they are. -/
def State.cmdKeep (s : State) (c t : Nat) (cmd : CellCmd) : State :=
  s.modCell c (fun r => { r with
    hist := ((t, r.bits) :: r.hist).take 4
    cmds := ((t, cmd) :: r.cmds.filter (fun x => x.1 != t)).take 4 })

/-- Command after which every switch is off (BLOCK, RETIRE). -/
def State.cmdOff (s : State) (c t : Nat) (cmd : CellCmd) : State :=
  s.modCell c (fun r => { r with
    bits := 0, contrib := 0
    hist := ((t, 0) :: r.hist).take 4
    cmds := ((t, cmd) :: r.cmds.filter (fun x => x.1 != t)).take 4 })

/-- Command with no state to compare with a report (NOP, CARRIER). -/
def State.cmdPlain (s : State) (c t : Nat) (cmd : CellCmd) : State :=
  s.modCell c (fun r => { r with cmds := ((t, cmd) :: r.cmds.filter (fun x => x.1 != t)).take 4 })

/-! ### Reference and norm voltage (R76) -/

/-- u of R76. -/
def State.normVoltage (s : State) (a : Nat) : Nat :=
  if s.flag Reg.ARM_CTRL.norm a then
    fDiv f32 (s.rd Reg.ARM_VAVAIL.vavail a) (fOfInt f32 (s.rd Reg.ARM_AVAIL.available a))
  else s.rd Reg.ARM_VNOM.vnom a

def positiveFinite (x : Nat) : Bool := fFinite f32 x && !fNeg f32 x && !fIsZero f32 x

/-! ### The carrier grid (R84, R88) -/

/-- The first reload at or after a station time. -/
def Grid.reloadFrom (g : Grid) (t : Nat) : Nat := g.r0 + ceilDiv (timeSince g.t0 t) (g.n * g.p)

/-- T(r). -/
def Grid.time (g : Grid) (r : Nat) : Nat := (g.t0 + (r - g.r0) * (g.n * g.p)) % 2 ^ 64

/-- The last grid that has begun at a station time, from the grid in effect and those that follow it. -/
def gridFrom (t : Nat) : Option Grid → List Grid → Option Grid
  | g, [] => g
  | g, h :: hs => if notAfter h.t0 t then gridFrom t (some h) hs else g

/-- The grid that governs a station time; a period of 0 is no carrier. -/
def ArmRt.gridAt (r : ArmRt) (t : Nat) : Option Grid :=
  match gridFrom t r.grid r.nextGrids with
  | some g => if g.p = 0 then none else some g
  | none => none

/-- The first reload at or after a station time along the grids. -/
def reloadFrom (t : Nat) : Option Grid → List Grid → Option (Nat × Grid)
  | none, [] => none
  | some g, [] => if g.p = 0 then none else some (g.reloadFrom t, g)
  | none, h :: hs => reloadFrom t (some h) hs
  | some g, h :: hs =>
    if g.p = 0 then reloadFrom t (some h) hs
    else if notAfter h.t0 (g.time (g.reloadFrom t)) then reloadFrom t (some h) hs
    else some (g.reloadFrom t, g)

/-- r_t and the grid of its values. -/
def ArmRt.reloadAt (r : ArmRt) (t : Nat) : Option (Nat × Grid) := reloadFrom t r.grid r.nextGrids

/-- A period or reload count committed at S(k) (R88): the grid in effect at S(k + lead) gives the reload from which the new one counts
on; a period of 0 ends the carrier there. Without a carrier at that seam the reference carrier starts, at S(k) where none runs at
all (R90). DESIGN CHOICE (notes/assumptions/111.md). -/
def State.rebaseCarrier (s : State) (a : Nat) : State :=
  let p := s.rd Reg.ARM_CAR_PERIOD.period a
  let n := s.rd Reg.ARM_CAR_CFG.reload_n a
  let at_ := (s.seamAt (s.epo.k + s.lead)).1
  s.modArm a (fun r =>
    let before := r.nextGrids.filter (fun h => notAfter h.t0 at_)
    match r.gridAt at_ with
    | some g =>
      let x := g.reloadFrom at_
      { r with nextGrids := before ++ [⟨g.time x, x, n, p⟩] }
    | none =>
      if p = 0 then r
      else if r.grid.isNone ∧ before.isEmpty then { r with grid := some ⟨s.epo.seam, 0, n, p⟩, nextGrids := [] }
      else { r with nextGrids := before ++ [⟨at_, 0, n, p⟩] })

/-- The grid that has begun by S(k) is the grid (R88). -/
def State.advanceGrid (s : State) (a : Nat) : State :=
  s.modArm a (fun r => { r with
    grid := match gridFrom s.epo.seam r.grid r.nextGrids with
      | some g => if g.p = 0 then none else some g
      | none => none
    nextGrids := r.nextGrids.dropWhile (fun h => notAfter h.t0 s.epo.seam) })

/-- The carrier origin of R84, set at S(c); up to it the reference carrier goes on (R90). -/
def State.startCarrier (s : State) (a : Nat) : State :=
  let t := s.epo.k + s.lead + 1
  let p := s.rd Reg.ARM_CAR_PERIOD.period a
  let n := s.rd Reg.ARM_CAR_CFG.reload_n a
  s.modArm a (fun r => { r with
    nextGrids := r.nextGrids.filter (fun h => !notAfter (s.seamAt t).1 h.t0) ++ [⟨(s.seamAt t).1, 0, n, p⟩]
    carrierFrom := some t, lastReload := none, phases := [], nextPhases := none })

/-! ### States, deblocking and blocking (R92 to R98) -/

/-- Begin a block at S(k) with a cause (R95). DEDUCED (notes/assumptions/34.md). -/
def State.armBlock (s : State) (a cause : Nat) : State :=
  let st := s.armState a
  if st = 0 ∨ st = 7 ∨ st = 3 then s
  else (s.wr Reg.ARM_STAT.state a 3).modArm a (fun r => { r with
    goal := some (s.epo.k + s.lead), cause := cause, deblockEpoch := none })

/-- The arm is BLOCKED in this cycle: priority block (cause 2) or safety block word (cause 3) (R96, R97). -/
def State.armBlockNow (s : State) (a cause : Nat) : State :=
  let st := s.armState a
  if st = 0 ∨ st = 7 then s
  else
    let off := (s.arm a).offAfter
    let s := if s.bs.profile.sst then s.modUnit (a / 3) (fun r => { r with follow := true }) else s
    let s := s.modArm a (fun r => { r with
      goal := none, deblockEpoch := none, offAfter := false, nPrev := 0, cause := cause })
    (s.wr Reg.ARM_STAT.state a (if off then 7 else 0)).raise 0x101 a cause

/-- A controlled stop that the safety domain requests (R97). -/
def State.armStop (s : State) (a : Nat) : State :=
  let st := s.armState a
  let s := (s.wr Reg.ARM_STAT.saf_hold a 1).raise 0x10E a s.epoch
  if st = 1 ∨ st = 2 then s.wr Reg.ARM_STAT.state a 4 else s

/-- Hold without a stop: a safe block of an arm (R97). -/
def State.armHold (s : State) (a : Nat) : State :=
  if s.flag Reg.ARM_STAT.saf_hold a then s
  else if s.armState a = 0 ∨ s.armState a = 3 ∨ s.armState a = 7 then
    (s.wr Reg.ARM_STAT.saf_hold a 1).raise 0x10E a s.epoch
  else s.wr Reg.ARM_STAT.saf_hold a 1

/-- The station point 0x2000 + g shows graph g running: neither DISABLED nor UNAVAILABLE. -/
def State.graphRuns (s : State) (g : Nat) : Bool :=
  let st := (s.work (0x2000 + g)).v % 8
  st == 1 || st == 2 || st == 3

/-- DEADLINE_MISS of graph g in the running epoch (Table 8.2). -/
def State.graphMissed (s : State) (g : Nat) : Bool := (s.work (0x2000 + g)).v / 32 % 2 == 1

/-- Whether the lane or group that carries a cell is up. -/
def State.laneUp (s : State) (l : Nat) : Bool := s.flag Reg.LANE_STAT.up l

/-- Table 2.3: the code of the first condition that holds, 0 for none. -/
def State.deblockRefusal (s : State) (a : Nat) (block : Bool) : Nat :=
  let rp := s.rd Reg.ARM_REF_PT.ref_point a
  let g := ((s.bs.armEntry a).map (·.refGraph)).getD 0
  let m := s.rd Reg.ARM_CTRL.mode a
  if s.armState a ≠ 0 then 1
  else if s.flag Reg.ARM_STAT.saf_hold a then 2
  else if s.rd Reg.ARM_AVAIL.available a < s.rd Reg.ARM_SPARE.need a then 3
  else if m = 0 ∨ (m = 2 ∧ s.rd Reg.ARM_CAR_PERIOD.period a = 0) then 4
  else if (s.pub rp).bad || (s.pub (rp + 1)).bad || !s.graphRuns g then 5
  else if (s.armCells a).any (fun e => !s.laneUp e.lane) then 6
  else if (s.availCells a).any (fun e => (s.pub (livePos e.cell 5)).v / 1024 % 2 == 1) then 7
  else if block then 8
  else 0

/-- Deblock at S(k) (R94). DEDUCED (notes/assumptions/36.md). -/
def State.armDeblock (s : State) (a : Nat) : State :=
  let k := s.epo.k
  let s := s.wr Reg.ARM_STAT.state a 1
  let s := s.modArm a (fun r => { r with
    goal := some (k + s.lead), deblockEpoch := some k, nPrev := 0, offAfter := false, setAll := none, carrierFrom := none })
  if (s.arm a).mode = 2 then s.startCarrier a else s

/-- A deblock request at S(k) (R93). -/
def State.deblockRequest (s : State) (a : Nat) (block : Bool) : State :=
  let why := s.deblockRefusal a block
  if why = 0 then s.armDeblock a else (s.wr Reg.ARM_STAT.refuse_reason a why).raise 0x102 a why

/-- The end of DEBLOCKING and of BLOCKING (R94, R95). -/
def State.armGoal (s : State) (a : Nat) : State :=
  let r := s.arm a
  if r.goal = some s.epo.k then
    let s := s.modArm a (fun r => { r with goal := none })
    if s.armState a = 1 then (s.wr Reg.ARM_STAT.state a 2).raise 0x100 a s.epo.k
    else if s.armState a = 3 then
      let s := (s.wr Reg.ARM_STAT.state a 0).raise 0x101 a r.cause
      if r.offAfter then (s.wr Reg.ARM_STAT.state a 7).modArm a (fun r => { r with offAfter := false }) else s
    else s
  else s

/-- State of a power domain, in the order of Table 15.1 (R447, Table 15.2). -/
def State.domain (s : State) (d : Nat) : Nat := s.rd Reg.PWR_DOM_STAT.state 0 / 4 ^ d % 4

/-- The power domain of an arm engine is ON: FAB_W for arms 0 to 5, FAB_E for 6 to 11. -/
def State.armPowered (s : State) (a : Nat) : Bool := s.domain (if a < 6 then 4 else 5) == 2

/-- An arm that the personality uses: in the SST personality, a string of a configured unit (R241). -/
def State.armUsed (s : State) (a : Nat) : Bool :=
  !s.bs.profile.sst || s.bs.units.any (fun e => e.arms.any (fun x => x.2 == a))

/-- A committed mode (R89, R98). A mode other than 0 committed while the arm is still BLOCKING after a mode of 0 cancels the OFF that
was to follow; an arm that no unit uses stays OFF (R241). DESIGN CHOICE (notes/assumptions/112.md). -/
def State.armMode (s : State) (a : Nat) : State :=
  let m := s.rd Reg.ARM_CTRL.mode a
  let old := (s.arm a).mode
  let st := s.armState a
  let k := s.epo.k
  let s := s.modArm a (fun r => { r with mode := m })
  if m = 0 then
    if st = 0 then s.wr Reg.ARM_STAT.state a 7
    else if st = 7 then s
    else (s.armBlock a 0).modArm a (fun r => { r with offAfter := true })
  else if st = 7 then (if s.armPowered a && s.armUsed a then s.wr Reg.ARM_STAT.state a 0 else s)
  else if old = m ∨ st = 0 ∨ st = 3 then s.modArm a (fun r => { r with offAfter := false })
  else if m = 2 then s.startCarrier a
  else s.modArm a (fun r => { r with setAll := some (k + s.lead), carrierFrom := none })

/-! ### Retirement (R99 to R101) -/

/-- One more retirement in the queue: a host request goes before the reaction-path requests of its own core cycle (R100). -/
def ArmRt.enqueue (r : ArmRt) (now c reason : Nat) (host : Bool) : ArmRt :=
  let new := if r.queueCycle = now then r.queueNew else 0
  if host then
    { r with queueCycle := now, queueNew := new
             queue := r.queue.take (r.queue.length - new) ++ (c, reason, true) :: r.queue.drop (r.queue.length - new) }
  else { r with queueCycle := now, queueNew := new + 1, queue := r.queue ++ [(c, reason, false)] }

/-- Queue a retirement for a seam to come (R100). -/
def State.queueRetire (s : State) (a c reason : Nat) (host : Bool) : State :=
  if !host ∧ ((s.arm a).queue.any (fun x => x.1 == c) ∨ (s.cell c).retired) then s
  else s.modArm a (fun r => r.enqueue s.clk.count c reason host)

/-- A refused retirement: 2 NOT_IN_ARM, 3 ALREADY_RETIRED, 4 BUSY (R100). DEDUCED (notes/assumptions/94.md). -/
def State.retireRefused (s : State) (a c status : Nat) : State :=
  (s.wr Reg.ARM_RETIRE.status a status).raise 0x108 a (c + 2 ^ 16 * status)

/-- RETIRE_GO (R99, R100): a write of ARM_RETIRE with 1 in go. DEDUCED (notes/assumptions/94.md). -/
def execRetireGo (arm : Fin 12) (value : Nat) (s : State) : Host.Outcome State Fault Refusal := byHost (fun s =>
  let a : Nat := arm
  let c := value % 2 ^ 14
  if s.flag Reg.ARM_RETIRE.go a then .next (s.retireRefused a c 4)
  else
    let s := (s.wr Reg.ARM_RETIRE.cell a c).wr Reg.ARM_RETIRE.reason a (value / 2 ^ 16)
    .next (if s.cellArm c ≠ some a then s.retireRefused a c 2
      else if (s.cell c).retired then s.retireRefused a c 3
      else (s.wr Reg.ARM_RETIRE.go a 1).queueRetire a c (s.rd Reg.ARM_RETIRE.reason a) true)) s

/-- A reaction path's retirement of the cell in its data (R100). -/
def State.retireByReaction (s : State) (cond c : Nat) : State :=
  match s.cellArm c with
  | some a => s.queueRetire a c (0x8000 + cond) false
  | none => s.raise 0x108 0xFFFF (c % 2 ^ 14 + 2 ^ 16 * 2)

/-- Carry out one retirement at S(k): the cell leaves the screen, RETIRE is owed, point 38 records why (R99). -/
def State.retireCell (s : State) (a c reason : Nat) : State :=
  if (s.cell c).retired then s
  else
    let s := s.modCell c (fun r => { r with retired := true, retireNow := true, retiredAt := s.epo.k })
    let s := s.setExt (extPos c 38) ⟨reason % 2 ^ 16 + 2 ^ 16 * (s.epo.k % 2 ^ 48), false⟩
    s.raise 0x107 a (c % 2 ^ 14 + 2 ^ 16 * reason)

/-- The host's retirement of a cell is done: RETIRE has been handed to the lane (R100). -/
def State.hostRetired (s : State) (a : Nat) : State :=
  ((s.modArm a (fun r => { r with hostCell := none })).wr Reg.ARM_RETIRE.go a 0).wr Reg.ARM_RETIRE.status a 1

/-- One queued retirement: its cell leaves, or has left by an earlier request. -/
def State.retireOne (s : State) (a : Nat) (x : Nat × Nat × Bool) : State :=
  let before := (s.cell x.1).retired
  let s := (s.retireCell a x.1 x.2.1)
  if !x.2.2 then s
  else if before && !(s.cell x.1).retireNow then s.hostRetired a
  else s.modArm a (fun r => { r with hostCell := some x.1 })

/-- Up to 64 retirements of an arm at a seam, in order of request (R100). -/
def State.armRetire (s : State) (a : Nat) : State :=
  let q := (s.arm a).queue
  (q.take 64).foldl (fun s x => s.retireOne a x) (s.modArm a (fun r => { r with queue := q.drop 64 }))

/-! ### The screen at a seam (R112 to R123) -/

/-- A window that is valid (R112): both finite and hi - lo >= 1 V. -/
def windowValid (lo hi : Nat) : Bool :=
  fFinite f32 lo && fFinite f32 hi && decide ((f32.unit : Int) ≤ fVal f32 hi - fVal f32 lo)

/-- A window that one fence committed (R112). -/
def State.takeWindow (s : State) (a lo hi : Nat) : State :=
  if windowValid lo hi then s.modArm a (fun r => { r with lo := lo, hi := hi })
  else s.raise 0x11B a (lo + 2 ^ 32 * hi)

/-- The window that the registers hold. -/
def State.armWindow (s : State) (a : Nat) : State :=
  s.takeWindow a (s.rd Reg.ARM_SCREEN_LO.lo a) (s.rd Reg.ARM_SCREEN_HI.hi a)

/-- Point 5 with one flag bit set or cleared. -/
def withBit (v b : Nat) (on : Bool) : Nat :=
  let low := if v / 2 ^ b % 2 = 1 then v - 2 ^ b else v
  if on then low + 2 ^ b else low

/-- A live point that the arm engine and the screen take from the cell is poisoned in P(k): voltage, applied state, node delay, fault,
report epoch or energy. DESIGN CHOICE (notes/assumptions/114.md). -/
def State.poisonedInput (s : State) (c : Nat) : Bool := [0, 1, 3, 6, 7, 12].any (fun p => (s.pub (livePos c p)).bad)

/-- The flags of R48, R355 and Table 1.7 bit 12 in P(k), and bit 8 of a cell retired at S(k) in the image of the running epoch (R99). A
missing report counts in extended point 27 (Table 1.8). DEDUCED (notes/assumptions/63.md). -/
def State.cellFlags (s : State) (e : CellEntry) : State :=
  let r := s.cell e.cell
  let missing := r.reported ≠ some (s.epo.k - 1)
  let held := s.flag Reg.LANE_DELAY.held e.lane
  let s := if missing then s.bump e.cell 27 else s
  let poisoned := s.poisonedInput e.cell
  let s := s.modBoth (livePos e.cell 5) (fun v => withBit (withBit (withBit v 10 missing) 11 held) 12 poisoned)
  let w := s.work (livePos e.cell 5)
  if r.retired then s.setWork (livePos e.cell 5) ⟨withBit w.v 8 true, w.bad⟩ else s

/-- Conditions 1 and 2 of Table 3.2 for one entry; a poisoned point keeps its condition. -/
def State.exclusion (s : State) (m : ArmEntry) (c : Nat) : Bool × Bool :=
  let r := s.cell c
  let p7 := s.pub (livePos c 7)
  let p6 := s.pub (livePos c 6)
  let c1 := if p7.bad then r.cond1 else decide (m.missLimit ≠ 0) && decide (p7.v + m.missLimit ≤ s.epo.k - 1)
  let c2 := if p6.bad then r.cond2
    else decide (p6.v % 16 ≠ 0) && (m.faultExcl / 2 ^ (p6.v % 16) % 2 == 1)
  (c1, c2)

/-- Exclusion and readmission of a cell at S(k) (R120 to R122, R245). DEDUCED (notes/assumptions/45.md). Where both conditions hold, event
0x118 carries reason 1. DESIGN CHOICE (notes/assumptions/128.md). -/
def State.cellExclusion (s : State) (a : Nat) (m : ArmEntry) (e : CellEntry) : State :=
  let c := e.cell
  let own := s.exclusion m c
  let iso := match s.bs.isoOf c with
    | some i => s.exclusion m i.cell
    | none => (false, false)
  let s := match s.bs.isoOf c with
    | some i => s.modCell i.cell (fun r => { r with cond1 := iso.1, cond2 := iso.2 })
    | none => s
  let r := s.cell c
  let out := !r.retired && (own.1 || own.2 || iso.1 || iso.2)
  let why := if own.1 ∨ iso.1 then 1 else 2
  let s := s.modCell c (fun r => { r with
    cond1 := own.1, cond2 := own.2, excluded := out, removeNow := r.removeNow || (out && !r.excluded) })
  let s := s.modBoth (livePos c 5) (fun v => withBit v 9 (out || r.retired))
  if r.retired then s
  else if out && !r.excluded then
    let s := s.raise 0x118 a (c + 2 ^ 16 * why)
    if own.1 || own.2 then s else s.raise 0x126 (a / 3) (c + 2 ^ 16 * why)
  else if !out && r.excluded then
    let b := (s.pub (livePos c 1)).v % 16
    (s.modCell c (fun r => { r with bits := b, contrib := contribOf e.fb b, removeNow := false })).raise 0x119 a c
  else s

/-- Key and rotation position of a cell in P(k) (R113 to R117, R123); whether its bucket was clamped. A frozen cell has the bucket of its
last clean voltage under the window in effect (R118), and 0 where it has had none; its bucket does not count as clamped.
DESIGN CHOICE (notes/assumptions/128.md). -/
def State.cellKey (s : State) (a p n : Nat) (e : CellEntry) : State × Bool :=
  let v := s.pub (livePos e.cell 0)
  let last := if v.bad then (s.cell e.cell).lastV else some (v.v % 2 ^ 32)
  let raw := (last.map (rawBucket (s.arm a).lo (s.arm a).hi)).getD 0
  let b := clampBucket raw
  let s := s.modCell e.cell (fun r => { r with lastV := last })
  let s := s.setBoth (livePos e.cell 9) (keyOf b (rotatedIndex p s.epo.k n))
  (s.setBoth (livePos e.cell 14) p, !v.bad && (decide (raw < 0) || decide (4095 < raw)))

/-- Keys of an arm's cells, and the clamped cells among the available ones (R114). -/
def State.armKeys (s : State) (a n : Nat) : Nat → List CellEntry → Nat → State × Nat
  | _, [], k => (s, k)
  | p, e :: es, k =>
    let r := s.cellKey a p n e
    r.1.armKeys a n (p + 1) es (if r.2 && (r.1.cell e.cell).available then k + 1 else k)

/-! ### Applied states and sums (R103 to R108) -/

/-- R108 for one cell: the applied state is adopted. -/
def State.cellApplied (s : State) (a : Nat) (e : CellEntry) : State :=
  let c := e.cell
  let r := s.cell c
  let p1 := s.pub (livePos c 1)
  let app := p1.v % 16
  match r.hist.find? (fun x => x.1 + 1 == s.epo.k) with
  | none => s
  | some x =>
    if p1.bad ∨ r.reported ≠ some (s.epo.k - 1) ∨ x.2 = app then s
    else
      let s := s.modCell c (fun r => { r with bits := app, contrib := contribOf e.fb app })
      if r.drops.contains (s.epo.k - 1) then s
      else (s.wr Reg.ARM_STAT.mismatch a 1).raise 0x10B a (c + 2 ^ 16 * app + 2 ^ 20 * x.2)

/-- Binary64 sums in ascending order: energy, voltage, voltage of full-bridge cells; a poisoned value is left out. -/
def State.sumCells (s : State) : List CellEntry → Nat × Nat × Nat → Nat × Nat × Nat
  | [], r => r
  | e :: es, (en, va, vn) =>
    let v := s.pub (livePos e.cell 0)
    let w := s.pub (livePos e.cell 12)
    let add (x : Nat) (p : Pt) : Nat := if p.bad then x else fAdd f64 x (f32To64 (p.v % 2 ^ 32))
    s.sumCells es (add en w, add va v, if e.fb then add vn v else vn)

/-- Sum of the applied contributions in P(k); a retired cell contributes 0 from its RETIRE edge on (R101). -/
def State.levelApplied (s : State) (a : Nat) : Int :=
  (s.armCells a).foldl (fun x e =>
    let p := s.pub (livePos e.cell 1)
    let r := s.cell e.cell
    if p.bad ∨ (r.retired ∧ r.retiredAt + s.lead < s.epo.k) then x else x + contribOf e.fb (p.v % 16)) 0

/-- Spares and shortage (R102). -/
def State.armSpares (s : State) (a : Nat) : State :=
  let l := s.availCells a
  let n := l.length
  let need := s.rd Reg.ARM_SPARE.need a
  let out := n ≤ need
  let short := n < need
  let wasOut := s.flag Reg.ARM_STAT.spares_out a
  let wasShort := s.flag Reg.ARM_STAT.level_short a
  let s := (s.wr Reg.ARM_AVAIL.available a n).wr Reg.ARM_AVAIL.fb_available a (l.filter (·.fb)).length
  let s := ((s.wr Reg.ARM_SPARE.spares a (n - need)).wr Reg.ARM_STAT.spares_out a (bit out)).wr
    Reg.ARM_STAT.level_short a (bit short)
  let s := if out && !wasOut then s.raise 0x109 a n else s
  if short && !wasShort then s.raise 0x10A a n else s

/-- A station point with a binary32 and the tag of epoch k, in both images. -/
def State.setBothFloat (s : State) (pt bits : Nat) : State := s.setBoth pt (tagged bits s.epo.k)

/-- Arm sums, levels and output points (R103 to R105). -/
def State.armSums (s : State) (a : Nat) : State :=
  let l := s.availCells a
  let s := l.foldl (fun s e =>
    if (s.pub (livePos e.cell 0)).bad || (s.pub (livePos e.cell 12)).bad then
      (s.wr Reg.ARM_STAT.sum_poison a 1).raise 0x115 a e.cell
    else s) s
  let x := s.sumCells l (0, 0, 0)
  let app := s.levelApplied a
  let s := ((s.wr Reg.ARM_ENERGY.energy a (f64To32 x.1)).wr Reg.ARM_VAVAIL.vavail a (f64To32 x.2.1)).wr
    Reg.ARM_VAVAIL_NEG.vavail_neg a (f64To32 x.2.2)
  let s := (s.wr Reg.ARM_LEVEL.level_cmd a (wrapInt 13 (s.arm a).nPrev)).wr Reg.ARM_LEVEL.level_applied a (wrapInt 13 app)
  let s := s.armSpares a
  let o := s.rd Reg.ARM_REF_PT.out_point a
  let s := ((s.setBothFloat o (f64To32 x.1)).setBothFloat (o + 1) (f64To32 x.2.1)).setBothFloat (o + 2) (f64To32 x.2.2)
  ((s.setBothFloat (o + 3) (fOfInt f32 app)).setBothFloat (o + 4) (fOfInt f32 (s.arm a).nPrev)).setBothFloat (o + 5)
    (s.normVoltage a)

/-! ### The seam of an arm -/

/-- Whether a register was committed at this seam; `cm` holds the addresses of the registers that fences wrote. -/
def committed (cm : List (Nat × Nat)) (f : Field) (i : Nat) : Bool := cm.any (fun x => x.1 == f.addr + i * f.stride)

/-- What the seam's commits do to an arm's window, carrier and prescalers (R88, R91, R112); `ws` has the pair that each fence left
in an arm's window registers, as (arm, lo, hi). -/
def State.armCommits (s : State) (cm : List (Nat × Nat)) (ws : List (Nat × Nat × Nat)) (a : Nat) : State :=
  let s := ws.foldl (fun (s : State) x => if x.1 = a then s.takeWindow a x.2.1 x.2.2 else s) s
  let s := if committed cm Reg.ARM_CAR_PERIOD.period a ∨ committed cm Reg.ARM_CAR_CFG.reload_n a then s.rebaseCarrier a else s
  if committed cm Reg.ARM_INT_CFG.prescale a then
    (s.modArm a (fun r => { r with counts := [] })).wr Reg.ARM_INT_CFG.zero_count a 0
  else s

/-- The requests of ARM_CMD and of a reaction path at S(k) (R92, R95); of two block requests the reaction path's gives the cause.
DESIGN CHOICE (notes/assumptions/33.md). -/
def State.armRequests (s : State) (cm : List (Nat × Nat)) (a : Nat) : State :=
  let now := committed cm Reg.ARM_CMD.block a
  let block := now && s.flag Reg.ARM_CMD.block a
  let deblock := now && s.flag Reg.ARM_CMD.deblock a
  let path := (s.arm a).blockReq
  let s := s.modArm a (fun r => { r with blockReq := false })
  let s' := if path then s.armBlock a 1 else if block then s.armBlock a 0 else s
  let block := block || path
  let s' := if block then s'.modArm a (fun r => { r with blockAt := some s.epo.k }) else s'
  if !deblock then s'
  else if block then (s'.wr Reg.ARM_STAT.refuse_reason a 8).raise 0x102 a 8
  else s'.deblockRequest a false

/-- What seam S(k) does to an arm, once P(k) is formed and the fences have committed. -/
def State.armSeam (s : State) (cm : List (Nat × Nat)) (ws : List (Nat × Nat × Nat)) (a : Nat) : State :=
  match s.bs.armEntry a with
  | none => s
  | some m =>
    let s := (s.advanceGrid a).armGoal a
    let s := s.armCommits cm ws a
    let s := s.armRetire a
    let l := s.armCells a
    let s := l.foldl (fun s e => s.cellFlags e) s
    let s := l.foldl (fun s e => s.cellApplied a e) s
    let s := l.foldl (fun s e => s.cellExclusion a m e) s
    let r := s.armKeys a l.length 0 l 0
    let s := if r.2 = 0 then r.1 else r.1.raise 0x117 a r.2
    let s := s.armSums a
    let s := if committed cm Reg.ARM_CTRL.mode a ∨ (s.armState a = 7 ∧ s.rd Reg.ARM_CTRL.mode a ≠ 0) then s.armMode a else s
    s.armRequests cm a

end Sys2Proof.Machine
end

