-- ==== Sys2Proof/Machine/Crc.lean ====
section
/-! DEFINITION. The cyclic redundancy codes of the device: CRC-32C (R196), CRC-8 with polynomial 0x2F (R195) and the Ethernet
frame check sequence, each as a fold over bits. -/

namespace Sys2Proof.Machine

/-- One byte into a reflected CRC register of any width. -/
def crcByteRefl (poly : Nat) : Nat → Nat → Nat
  | 0, r => r
  | n + 1, r => crcByteRefl poly n (if r % 2 = 1 then (r / 2) ^^^ poly else r / 2)

/-- Reflected 32-bit CRC over bytes, first byte first, with all-ones preset and final inversion. -/
def crc32Refl (poly : Nat) (bs : List Byte) : Nat :=
  (bs.foldl (fun r b => crcByteRefl poly 8 (r ^^^ b.toNat)) 0xFFFFFFFF) ^^^ 0xFFFFFFFF

/-- CRC-32C (Castagnoli). -/
def crc32c (bs : List Byte) : Nat := crc32Refl 0x82F63B78 bs

/-- Ethernet FCS. -/
def crc32Eth (bs : List Byte) : Nat := crc32Refl 0xEDB88320 bs

/-- One byte into an unreflected 8-bit register. -/
def crcByte8 : Nat → Nat → Nat
  | 0, r => r
  | n + 1, r => crcByte8 n (if r ≥ 128 then (r * 2 % 256) ^^^ 0x2F else r * 2)

/-- CRC-8 of R195. -/
def crc8 (bs : List Nat) : Nat := (bs.foldl (fun r b => crcByte8 8 (r ^^^ (b % 256))) 0xFF) ^^^ 0xFF

/-- One byte into an unreflected 64-bit register. -/
def crcByte64 : Nat → Nat → Nat
  | 0, r => r
  | n + 1, r => crcByte64 n (if 2 ^ 63 ≤ r then (r * 2 % 2 ^ 64) ^^^ 0x42F0E1EBA9EA3693 else r * 2)

/-- CRC-64/ECMA-182 of R379. -/
def crc64 (bs : List Byte) : Nat := bs.foldl (fun r b => crcByte64 8 (r ^^^ (b.toNat * 2 ^ 56))) 0

end Sys2Proof.Machine
end

