-- ==== Sys2Proof/Machine/Line.lean ====
section
/-! DEFINITION. What crosses the LTX pins: 66-bit blocks (R216), the scrambler (R217), the parity of a lane (R222), rows of a lane or
group (R224), the active set and the alignment markers (R221, R226). -/

namespace Sys2Proof.Machine

/-- The n bytes of a payload from bit 63 down. -/
def bytesBE (n x : Nat) : List Nat := (List.range n).map (fun i => x / 256 ^ (7 - i) % 256)

/-- A control block's payload (R177). -/
def controlBlock (type content : Nat) : Nat := type * 2 ^ 56 + content % 2 ^ 56

/-- CRC-32C over whole payloads (R196). -/
def framesCrc (ps : List Nat) : Nat := crc32c ((ps.flatMap (bytesBE 8)).map (BitVec.ofNat 8))

/-- EOF over the blocks before it. -/
def eofPayload (ps : List Nat) : Nat := controlBlock 0x8E (ps.length % 2 ^ 16 * 2 ^ 40 + framesCrc ps)

/-- Members of the group or unbonded lane with base lane `e.lane` (R223). -/
def LaneEntry.members (e : LaneEntry) : List Nat := (List.range e.width).map (e.lane + ·)

def popCount4 (m : Nat) : Nat := m % 2 + m / 2 % 2 + m / 4 % 2 + m / 8 % 2

/-! ### The scrambler and the parity -/

/-- x^58 + x^39 + 1 over one payload, its bit 63 first (R217). Bit i of the register is the bit sent i + 1 bits earlier; a sent bit is
the payload bit plus the bits sent 39 and 58 bits before it, so 39 and then 25 bits are formed at once. The word as sent, and the
register after it. -/
def scramble (reg payload : Nat) : Nat × Nat :=
  let a := (payload / 2 ^ 25 % 2 ^ 39) ^^^ (reg % 2 ^ 39) ^^^ (reg / 2 ^ 19 % 2 ^ 39)
  let reg := (reg * 2 ^ 39 + a) % 2 ^ 58
  let b := (payload % 2 ^ 25) ^^^ (reg / 2 ^ 14 % 2 ^ 25) ^^^ (reg / 2 ^ 33 % 2 ^ 25)
  (a * 2 ^ 25 + b, (reg * 2 ^ 25 + b) % 2 ^ 58)

/-- The even parities of a payload's bits j, j + 8, up to j + 56 (R222). -/
def bip8 (payload : Nat) : Nat := (bytesBE 8 payload).foldl (· ^^^ ·) 0

/-- Sync header: 01 of a data block, 10 of a control block, its left bit sent first (R216). -/
def syncHeader (control : Bool) : Nat := if control then 2 else 1

/-- One block leaves on a lane: the header as it is, the payload scrambled. -/
def State.sendBlock (s : State) (l : Nat) (control : Bool) (payload : Nat) : State :=
  let x := scramble (s.lane l).scrambler payload
  let s := s.modLane l (fun r => { r with scrambler := x.2, bip := r.bip ^^^ bip8 payload })
  { s with wire := s.wire ++ [Wire.line l (syncHeader control) payload x.1] }

/-! ### Rows (R224) -/

/-- A quad of four lanes carries a used lane; one that carries none is powered down (R215). -/
def BitStream.quadNeeded (b : BitStream) (quad : Nat) : Bool := b.lanes.any (fun e => e.members.any (fun l => l / 4 == quad))

/-- A lane is powered: its quadrant's domain is ON (domains 6 to 9 are LQ0 to LQ3, R214, Table 15.1) and its quad is needed. -/
def State.lanePowered (s : State) (l : Nat) : Bool := s.domain (6 + l / 24) == 2 && s.bs.quadNeeded (l / 4)

/-- A lane's transmitter runs: it is enabled, and the lane has power (R214, R215). -/
def State.txRuns (s : State) (l : Nat) : Bool := s.flag Reg.LANE_CTRL.tx_en l && s.lanePowered l

/-- A transmitter of the lane or group runs. -/
def State.transmits (s : State) (e : LaneEntry) : Bool := e.members.any s.txRuns


/-- IDLE (Table 5.1). -/
def idlePayload : Nat := controlBlock 0xB2 0

/-- One row: the blocks given by member, IDLE on every other member whose transmitter runs (R215). -/
def State.sendRow (s : State) (e : LaneEntry) (row : List (Nat × Bool × Nat)) : State :=
  let s := e.members.foldl (fun (s : State) l =>
    if !s.txRuns l then s
    else match row.find? (fun x => x.1 == l) with
      | some x => s.sendBlock l x.2.1 x.2.2
      | none => s.sendBlock l true idlePayload) s
  s.modLane e.lane (fun r => { r with since := r.since + 1 })

/-- A: the members of the current tx_mask, ascending; an unbonded lane has one (R224). -/
def State.activeMembers (s : State) (e : LaneEntry) : List Nat :=
  if e.bond = .none then [e.lane]
  else e.members.filter (fun l => s.rd Reg.LANE_STAT.tx_mask e.lane / 2 ^ (l - e.lane) % 2 == 1)

/-- The reference member: the lowest of A, the base lane where A is empty. -/
def State.referenceMember (s : State) (e : LaneEntry) : Nat := (s.activeMembers e).headD e.lane

/-! ### Markers (R221, R226) -/

/-- The device's receive set: members with lock and deskew (R226). -/
def State.receiveSet (s : State) (e : LaneEntry) : Nat :=
  (e.members.map (fun l => bit (s.flag Reg.LANE_STAT.lock l && s.flag Reg.LANE_STAT.deskewed l) * 2 ^ (l - e.lane))).sum

/-- A redundant group that is up with one member missing, from the loss of the member on (R227, Table 6.4). -/
def State.showDegraded (s : State) (e : LaneEntry) : State :=
  let up := s.flag Reg.LANE_STAT.up e.lane
  let short (m : Nat) : Bool := popCount4 m + 1 == e.width
  let d := decide (e.bond = .redundant) && up
    && (short (s.rd Reg.LANE_STAT.tx_mask e.lane) || short (s.rd Reg.LANE_STAT.far_tx e.lane) || short (s.receiveSet e))
  s.wr Reg.LANE_STAT.degraded e.lane (bit d)

/-- A change of the active set in either direction (R227). DEDUCED (notes/assumptions/44.md). -/
def State.restriped (s : State) (e : LaneEntry) : State :=
  if e.bond = .redundant then
    (s.count Reg.LANE_LOCK_CNT.restripes e.lane).raise 0x204 e.lane
      (s.rd Reg.LANE_STAT.tx_mask e.lane + 16 * s.rd Reg.LANE_STAT.far_tx e.lane)
  else s

/-- The ALIGN payload of Table 6.1. -/
def alignPayload (count lane width member tx rx bip : Nat) : Nat :=
  let x := controlBlock 0xD4 (count % 2 ^ 16 * 2 ^ 40 + lane % 256 * 2 ^ 32 + width % 16 * 2 ^ 28 + member % 16 * 2 ^ 24
    + tx % 16 * 2 ^ 20 + rx % 16 * 2 ^ 16 + bip % 256 * 2 ^ 8)
  x + crc8 (bytesBE 7 x)

/-- A received ALIGN has its type and a valid CRC (R222). -/
def alignValid (payload : Nat) : Bool := payload / 2 ^ 56 == 0xD4 && payload % 256 == crc8 (bytesBE 7 payload)

/-- The active set that a transmitter forms at a marker (R226). -/
def State.activeSet (s : State) (e : LaneEntry) : Nat :=
  if e.bond = .none then 1
  else (e.members.map (fun l => bit (s.txRuns l
    && s.rd Reg.LANE_STAT.far_rx e.lane / 2 ^ (l - e.lane) % 2 == 1) * 2 ^ (l - e.lane))).sum

/-- Transmit equalisation written since the last marker takes effect (R234). -/
def State.applyEq (s : State) (l : Nat) : State :=
  s.modLane l (fun r => match r.eqPending with
    | some x => { r with eqTx := x, eqPending := none }
    | none => r)

/-- The ALIGN block of one member; the parity begins again behind it. -/
def State.sendAlign (s : State) (e : LaneEntry) (n a rx l : Nat) : State :=
  if s.txRuns l then
    let s := s.applyEq l
    (s.sendBlock l true (alignPayload n l e.width (l - e.lane) a rx (s.lane l).bip)).modLane l (fun r => { r with bip := 0 })
  else s

/-- The marker row of a lane or group: A is formed anew and announced; an unbonded lane sends both masks at 0x1 (R221, R226). -/
def State.markerRow (s : State) (e : LaneEntry) : State :=
  let old := s.rd Reg.LANE_STAT.tx_mask e.lane
  let a := s.activeSet e
  let s := s.wr Reg.LANE_STAT.tx_mask e.lane a
  let s := if a = old then s else (s.restriped e).showDegraded e
  let n := (s.lane e.lane).marker
  let rx := if e.bond = .none then 1 else s.receiveSet e
  let s := e.members.foldl (fun (s : State) l => s.sendAlign e n a rx l) s
  s.modLane e.lane (fun r => { r with marker := (n + 1) % 2 ^ 16, since := 0 })

/-- Every 4,096th block is an ALIGN block, inside a frame too (R221). -/
def State.markerDue (s : State) (e : LaneEntry) : State := if 4095 ≤ (s.lane e.lane).since then s.markerRow e else s

/-- Rows of IDLE. -/
def State.sendIdle (s : State) (e : LaneEntry) : Nat → State
  | 0 => s
  | n + 1 => ((s.markerDue e).sendRow e []).sendIdle e n

/-- A control block on the reference member, in a row of its own. -/
def State.sendReference (s : State) (e : LaneEntry) (payload : Nat) : State :=
  let s := s.markerDue e
  s.sendRow e [(s.referenceMember e, true, payload)]

/-- Blocks one per member of A, in member order, row by row; `n` rows at most. -/
def State.sendStriped (s : State) (e : LaneEntry) : Nat → List (Bool × Nat) → State
  | 0, _ => s
  | n + 1, bs =>
    if bs.isEmpty then s
    else
      let s := s.markerDue e
      let a := s.activeMembers e
      let w := max a.length 1
      (s.sendRow e (a.zip (bs.take w))).sendStriped e n (bs.drop w)

/-- A downlink frame (R224): SOF, BEACON and ECHO on the reference member, the rest striped; the next stripe position follows its last
block. -/
def State.sendRows (s : State) (e : LaneEntry) (ref : List Nat) (rest : List (Bool × Nat)) : State :=
  let s := (ref.foldl (fun (s : State) p => s.sendReference e p) s).sendStriped e rest.length rest
  s.modLane e.lane (fun r => { r with stripe := rest.length % max (s.activeMembers e).length 1 })

/-- A control block in the next stripe position (R224), in a row whose other positions carry IDLE. DESIGN CHOICE
(notes/assumptions/113.md). -/
def State.sendNext (s : State) (e : LaneEntry) (payload : Nat) : State :=
  let s := s.markerDue e
  let a := s.activeMembers e
  let i := (s.lane e.lane).stripe % max a.length 1
  (s.sendRow e [(a.getD i e.lane, true, payload)]).modLane e.lane (fun r => { r with stripe := (i + 1) % max a.length 1 })

end Sys2Proof.Machine
end

