-- ==== Sys2Proof/Machine/Image.lean ====
section
/-! DEFINITION. The critical image: taking it (R377, Table 12.2), mirroring what changes in it (R389), applying a mirrored write, and
the frames of the peer ring (R394, R395). -/

namespace Sys2Proof.Machine

/-! ### Taking the image -/

def Grid.parts (g : Grid) : Nat × Nat × Nat × Nat := (g.t0, g.r0, g.n, g.p)
def DrvSet.parts (x : DrvSet) : Nat × Nat × Nat × Nat := (x.period, x.n, x.duty, x.phase)
def drvSetOf (x : Nat × Nat × Nat × Nat) : DrvSet := ⟨x.1, x.2.1, x.2.2.1, x.2.2.2⟩
def gridOf (x : Nat × Nat × Nat × Nat) : Grid := ⟨x.1, x.2.1, x.2.2.1, x.2.2.2⟩

def State.armImage (s : State) (a : Nat) : ArmImage :=
  let r := s.arm a
  { arm := a, state := s.armState a, hold := s.flag Reg.ARM_STAT.saf_hold a, nPrev := r.nPrev, dirNeg := r.dirNeg
    grid := r.grid.map Grid.parts, reload := r.lastReload, counts := r.counts }

def State.cellImage (s : State) (c : Nat) : CellImage := ⟨c, (s.cell c).bits, (s.cell c).variant⟩
def State.unitImage (s : State) (u : Nat) : UnitImage := ⟨u, (s.unit u).state, (s.unit u).tag⟩

def RampRt.words (r : RampRt) : List Nat :=
  let p := r.par
  [p.vmax, p.vstart, p.vstop, p.vc, p.acc1, p.acc2, p.dec1, p.dec2, p.lo, p.hi, r.vstart, r.vstop, r.vc, r.dec1, r.dec2]

def State.rampImage (s : State) (n : Nat) : RampImage :=
  let r := tabGet RampRt.clear s.ord.ramps n
  ⟨n, r.x, r.v, r.neg, r.state, r.target, r.tag, r.words⟩

def State.genImage (s : State) (n : Nat) : GenImage :=
  let g := tabGet GenRt.clear s.ord.gens n
  ⟨n, g.base, g.at_, g.f, g.mode, g.prev⟩

def State.drvImage (s : State) (ch : Nat) : DrvImage :=
  let r := tabGet DrvRt.clear s.drv ch
  ⟨ch, r.mode, r.on.map DrvSet.parts, r.pending.map (fun x => x.1.parts), r.next⟩

/-- Every register field of access ST. -/
def stFields : List Field :=
  (regsEpo ++ regsTim ++ regsAdc ++ regsOrd ++ regsDrv ++ regsArm ++ regsLane ++ regsFab).filter (fun f => f.acc == .st)

def stKeys : List Nat := stFields.map (fun f => f.addr * 32 + f.lo)

/-- Station points that Tables 9.2, 9.4, 9.7 and 10.3 give to the host (R295, R320). -/
def fixedHostPoint (a : Nat) : Bool :=
  (decide (a < 0x100) && (a % 8 == 5 || a % 8 == 6))
    || (decide (0x1000 ≤ a) && decide (a < 0x1200) && (decide (a % 16 < 10) || a % 16 == 14))
    || (decide (0x1200 ≤ a) && decide (a < 0x1300) && decide (a % 16 < 4))
    || (decide (0x1300 ≤ a) && decide (a < 0x1340) && (a % 8 == 3 || a % 8 == 4))

/-- The host-writable station points: those of the tables, the units' command points (Table 7.2), those of the resource map (R431). -/
def BitStream.hostPoints (b : BitStream) : List Nat :=
  (List.range 0x1340).filter fixedHostPoint ++ b.units.map (·.pointBase) ++ b.resources.filterMap (fun r => if r.kind = 9 ∧ r.holder = .host then some r.num else none)

/-- Station points of the image. -/
def BitStream.imagePoints (b : BitStream) : List Nat := b.retained ++ b.hostPoints

/-- Whether a store word is retained. -/
def BitStream.retains (b : BitStream) (word : Nat) : Bool :=
  b.fabric.stores.any (fun e => e.retained && e.store == word / 4096)

/-- The image as it stands (R377). -/
def State.critImage (s : State) : CritImage :=
  { epoch := s.epo.k, seam := s.epo.seam, len := s.rd Reg.EPO_LEN.cycles 0, inc := s.clk.inc, grid := s.clk.grid
    claim := s.rd Reg.RED_CLAIM.claim 0, digest := s.rd Reg.CFG_DIGEST.digest 0, seq := s.red.txSeq
    arms := s.bs.arms.map (fun m => s.armImage m.arm)
    cells := s.bs.cells.map (fun e => s.cellImage e.cell)
    units := s.bs.units.map (fun e => s.unitImage e.unit)
    sigmas := (s.bs.cells.filter (·.front.isSome)).map (fun e => (e.cell, (s.cell e.cell).sigma))
    ramps := s.bs.orders.ramps.map (fun e => s.rampImage e.ramp)
    gens := (s.bs.orders.gens.filter (·.retain)).map (fun e => s.genImage e.gen)
    drive := (List.range 24).map s.drvImage
    regs := s.regs.filter (fun x => stKeys.contains (x.1 / 8192))
    sizes := (s.bs.fabric.stores.filter (·.retained)).map (fun e => (e.store, e.init.length))
    stores := s.fab.stores.filter (fun x => s.bs.retains x.1)
    zdelay := s.fab.zdelay
    cmp := s.fab.cmp
    points := s.bs.imagePoints.map (fun a => (a, s.work a)) }

/-! ### Mirrored writes (R389) -/

/-- Station points that the graphs write. -/
def BitStream.graphPoints (b : BitStream) : List Nat :=
  b.fabric.graphs.flatMap (fun e => e.ops.flatMap (fun o => match o.kind with
    | .snkPoint l => l.map (·.1)
    | _ => []))

/-- Keys of two tables whose values differ, with the new value. -/
def tabDiff {α : Type} [DecidableEq α] (d : α) (old new : List (Nat × α)) : List (Nat × α) :=
  (((old ++ new).map (·.1)).eraseDups.filter (fun k => tabGet d old k != tabGet d new k)).map (fun k => (k, tabGet d new k))

/-- Elements of the new list that the old one does not hold. -/
def listDiff {α : Type} [DecidableEq α] (old new : List α) : List α := new.filter (fun x => !old.contains x)

/-- The words of the header, in the order of Table 12.2. -/
def headerWords (i : CritImage) : List Nat := [i.epoch, i.seam, i.len, i.inc, i.grid, i.claim, i.digest, i.seq]

/-- What a command changed in the image and in the graphs' station points, part by part (Table 12.2's order).
DEDUCED (notes/assumptions/66.md). -/
def mirrorWrites (old new : State) : List MirrorWrite :=
  let a := old.critImage
  let b := new.critImage
  ((List.range 8).filter (fun n => (headerWords a).getD n 0 != (headerWords b).getD n 0)).map (fun n => .head n ((headerWords b).getD n 0))
    ++ (listDiff a.arms b.arms).map .arm ++ (listDiff a.cells b.cells).map .cell ++ (listDiff a.units b.units).map .unit
    ++ (listDiff a.sigmas b.sigmas).map (fun x => .sigma x.1 x.2) ++ (listDiff a.ramps b.ramps).map .ramp
    ++ (listDiff a.gens b.gens).map .gen ++ (listDiff a.drive b.drive).map .drive
    ++ (tabDiff 0 a.regs b.regs).map (fun x => .reg x.1 x.2) ++ (tabDiff Pt.clear a.stores b.stores).map (fun x => .store x.1 x.2)
    ++ (tabDiff Pt.clear a.zdelay b.zdelay).map (fun x => .zdelay x.1 x.2) ++ (tabDiff false a.cmp b.cmp).map (fun x => .cmp x.1 x.2)
    ++ ((new.bs.imagePoints ++ new.bs.graphPoints).filter (fun p => old.work p != new.work p)).map (fun p => .point p (new.work p))

/-! ### Ring frames (R394, R395) -/

/-- SOF content of a message of this unit (Table 12.4). -/
def State.ringSof (s : State) (type role : Nat) (broadcast : Bool) : Nat :=
  0x17 * 2 ^ 56 + s.rd Reg.RED_RING_CFG.partner 0 * 2 ^ 53 + s.rd Reg.RED_RING_CFG.address 0 * 2 ^ 50 + type * 2 ^ 47
    + bit broadcast * 2 ^ 46 + role * 2 ^ 44 + s.rd Reg.RED_CLAIM.claim 0 % 2 ^ 28 * 2 ^ 16 + s.red.msgSeq

/-- The blocks of a message of this unit to its partner, SOF to EOF (R395, R196). -/
def State.ringFrame (s : State) (type role : Nat) (words : List Nat) : List Nat :=
  let ps := s.ringSof type role false :: words
  ps ++ [eofPayload ps]

/-- The message sequence moves on. -/
def State.nextMsg (s : State) : State := { s with red := { s.red with msgSeq := (s.red.msgSeq + 1) % 2 ^ 16 } }

/-- A pair member has a partner on the ring (R370, R393). DEDUCED (notes/assumptions/65.md). -/
def State.paired (s : State) : Bool := s.rd Reg.RED_STAT.strap 0 == 1 || s.rd Reg.RED_STAT.strap 0 == 2

/-- Put a mirror message on the ring; its words count in the running epoch. -/
def State.sendMirror (s : State) (ws : List MirrorWrite) : State :=
  if ws.isEmpty then s
  else
    let r := s.red.runOut
    { s with
      wire := s.wire ++ [Wire.mirror (s.ringFrame 4 2 (Config.mirrorWords r ws)) r ws]
      red := { s.red with runOut := (r + 1) % 2 ^ 16, mirrorCount := s.red.mirrorCount + ws.length } }.nextMsg

/-- This unit mirrors what it does: until S(h) everything, from then on only its last jobs (R389, R390). -/
def State.mirrorsNow (s : State) : Bool := s.red.mirroring && s.red.h.all (fun h => decide (s.epo.k < h))

/-- After a command: the writes that it made to the image go out in commit order (R389). DEDUCED (notes/assumptions/66.md). -/
def State.mirrored (s old : State) : State :=
  if s.mirrorsNow && old.red.mirroring then s.sendMirror (mirrorWrites old s) else s

/-- The same with the state before the command named first. -/
def State.mirrorOf (old s : State) : State := s.mirrored old

/-- After the end of a job released in cycle `c`: its writes, and the record that R390 waits for. -/
def State.mirrorJob (old s : State) (g c : Nat) : State :=
  if s.red.mirroring && old.red.mirroring && (s.mirrorsNow || decide (c < s.red.hCycle)) then
    s.sendMirror (mirrorWrites old s ++ [.graphEnded g])
  else s

/-- A record for R390, sent while this unit mirrors. -/
def State.mirrorNote (s : State) (w : MirrorWrite) : State := if s.red.mirroring then s.sendMirror [w] else s

/-- One part of an image replaced by the element with the same key. -/
def replaceBy {α : Type} (key : α → Nat) (l : List α) (x : α) : List α := l.map (fun y => if key y = key x then x else y)

/-- Apply a mirrored write to the image held (R389); a write of a point outside the image is kept beside it. -/
def CritImage.apply (i : CritImage) : MirrorWrite → CritImage
  | .head 0 v => { i with epoch := v }
  | .head 1 v => { i with seam := v }
  | .head 2 v => { i with len := v }
  | .head 3 v => { i with inc := v }
  | .head 4 v => { i with grid := v }
  | .head 5 v => { i with claim := v }
  | .head 6 v => { i with digest := v }
  | .head 7 v => { i with seq := v }
  | .head _ _ => i
  | .arm x => { i with arms := replaceBy ArmImage.arm i.arms x }
  | .cell x => { i with cells := replaceBy CellImage.cell i.cells x }
  | .unit x => { i with units := replaceBy UnitImage.unit i.units x }
  | .sigma c v => { i with sigmas := i.sigmas.map (fun y => if y.1 = c then (c, v) else y) }
  | .ramp x => { i with ramps := replaceBy RampImage.ramp i.ramps x }
  | .gen x => { i with gens := replaceBy GenImage.gen i.gens x }
  | .drive x => { i with drive := replaceBy DrvImage.channel i.drive x }
  | .reg k v => { i with regs := tabSet 0 i.regs k v }
  | .store w p => { i with stores := tabSet Pt.clear i.stores w p }
  | .zdelay o p => { i with zdelay := tabSet Pt.clear i.zdelay o p }
  | .cmp o b => { i with cmp := tabSet false i.cmp o b }
  | .point a p => { i with points := (a, p) :: i.points.filter (fun y => y.1 != a) }
  | .graphEnded _ => i
  | .armDecided _ => i

end Sys2Proof.Machine
end

