-- ==== Sys2Proof/Machine/Decision.lean ====
section
/-! DEFINITION. The decision of an arm engine for target epoch k + lead (R74 to R89, R119 to R138): reference, steps and
selection in nearest-level mode; duties, phases and reloads in carrier mode; the commands of every cell of the arm. -/

namespace Sys2Proof.Machine

/-- Length of epoch j in edge units. -/
def State.unitsOf (s : State) (j : Nat) : Nat := ((s.seamAt (j + 1)).1 + 2 ^ 64 - (s.seamAt j).1) % 2 ^ 64

/-! ### Inputs (R74 to R77, R124, R125) -/

/-- v0, v1 and u; none when the decision holds the commanded level (R75, R76). The engine takes both values in every mode (R74), so
either's poison counts. DEDUCED (notes/assumptions/35.md). -/
def State.reference (s : State) (a : Nat) (m : ArmEntry) : State × Option (Nat × Nat × Nat) :=
  let rp := s.rd Reg.ARM_REF_PT.ref_point a
  let p0 := s.work rp
  let p1 := s.work (rp + 1)
  let s := if s.graphMissed m.refGraph then (s.wr Reg.ARM_STAT.ref_stale a 1).raise 0x103 a s.epo.k else s
  if p0.bad || p1.bad then ((s.wr Reg.ARM_STAT.ref_poison a 1).raise 0x104 a (bit p0.bad + 2 * bit p1.bad), none)
  else
    let u := s.normVoltage a
    if positiveFinite u then (s, some (p0.v % 2 ^ 32, p1.v % 2 ^ 32, u))
    else ((s.wr Reg.ARM_STAT.ref_poison a 1).raise 0x104 a 0, none)

/-- The direction: whether it is valid and the sign of the input, 0 for a zero (R124, R125, R136). -/
def State.direction (s : State) (a : Nat) : State × Bool × Int :=
  let p := s.work (s.rd Reg.ARM_REF_PT.ref_point a + 2)
  let x := p.v % 2 ^ 32
  if p.bad then (s.raise 0x11A a 1, false, 0)
  else if !fFinite f32 x then (s.raise 0x11A a 2, false, 0)
  else if fIsZero f32 x then (s, true, 0)
  else (s.modArm a (fun r => { r with dirNeg := fNeg f32 x }), true, if fNeg f32 x then -1 else 1)

def ArmRt.dir (r : ArmRt) : Int := if r.dirNeg then -1 else 1

/-- The level of a reference: a voltage that is not finite has no stated level, so it is a free value. -/
def State.levelIn (s : State) (u v : Nat) : Int × State :=
  if fFinite f32 v then (levelOf u v, s)
  else let d := s.draw 13; (signedOf 13 d.1, d.2)

/-- A level outside the range is clamped and reported (R77). -/
def State.clampReport (s : State) (a : Nat) (lo hi n : Int) : State :=
  if n < lo ∨ hi < n then (s.wr Reg.ARM_STAT.sat a 1).raise 0x105 a (wrapInt 32 n) else s

/-- The steps of R78 after merging. -/
def State.stepsFor (s : State) (a v0 v1 u e : Nat) : State × List ArmStep :=
  let r := s.levelRange a
  let interp := s.flag Reg.ARM_CTRL.interp a
  let n0 := s.levelIn u v0
  let s := n0.2.clampReport a r.1 r.2 n0.1
  let n1 := if interp then s.levelIn u v1 else (n0.1, s)
  let s := if interp then n1.2.clampReport a r.1 r.2 n1.1 else n1.2
  let nPrev := (s.arm a).nPrev
  let c0 := clampLevel r.1 r.2 n0.1
  let c1 := clampLevel r.1 r.2 n1.1
  let first : List ArmStep := if c0 = nPrev then [] else [(0, c0)]
  let all : State × List ArmStep :=
    if !interp then (s, first)
    else if fFinite f32 v0 && fFinite f32 v1 then (s, crossings u v0 v1 e c1 8192 c0 first)
    else let d := s.draw 16; (d.2, if c1 = c0 then first else addStep first (d.1 % e) c1)
  let max := s.rd Reg.ARM_LEVEL_CFG.max_steps a
  let steps := mergeSteps max all.2
  if max < all.2.length then ((all.1.wr Reg.ARM_STAT.step_merge a 1).raise 0x106 a all.2.length, steps)
  else (all.1, steps)

/-! ### Nearest-level mode -/

/-- The available cells of an arm as the selection takes them, in key order (R116, R123, R127). -/
def State.selCells (s : State) (a : Nat) (deblock : Bool) : List SelCell :=
  sortByKey ((s.availCells a).map (fun e =>
    ⟨e.cell, (s.pub (livePos e.cell 9)).v % 2 ^ 28, e.fb, if deblock then 0 else (s.cell e.cell).contrib,
     (s.pub (livePos e.cell 0)).bad, none⟩))

/-- Command what the selection chose; in a deblock every other available cell bypasses at edge 0 (R79, R80, R134). -/
def State.commandCells (s : State) (a t : Nat) (deblock : Bool) (sel : List SelCell) : List CellEntry → State
  | [] => s
  | e :: es =>
    let cmd := (sel.find? (fun x => x.cell == e.cell)).bind (·.cmd)
    let s := match cmd with
      | some (st, tau) =>
        s.cmdSet e.cell t (if st = 0 then s.bypassOf a e else insertBits e.fb st) tau st
      | none => if deblock then s.cmdSet e.cell t (s.bypassOf a e) 0 0 else s.cmdKeep e.cell t .hold
    s.commandCells a t deblock sel es

/-- The decision in nearest-level mode. In a deblock every available cell owes a DEADTIME with its first SET (R148). -/
def State.decideLevel (s : State) (a t : Nat) (m : ArmEntry) : State :=
  let deblock : Bool := (s.arm a).deblockEpoch == some s.epo.k
  let e := s.unitsOf t
  let i := s.reference a m
  let d := i.1.direction a
  let s := d.1
  let p : State × List ArmStep := match i.2 with
    | some v => s.stepsFor a v.1 v.2.1 v.2.2 e
    | none => (s, [])
  let s := p.1
  let swap := s.rd Reg.ARM_LEVEL_CFG.swap_edge a
  let g : SelCfg := ⟨s.rd Reg.ARM_BAND.band a, s.rd Reg.ARM_BAND.cap a, (s.arm a).dir, d.2.1 && i.2.isSome, deblock,
    if swap ≥ e then e - 1 else swap⟩
  let r := selectCells (s.selCells a deblock) g p.2 (s.arm a).nPrev
  let s := s.modArm a (fun x => { x with nPrev := r.1.level })
  let s := if deblock then
      (s.availCells a).foldl (fun (s : State) e => s.modCell e.cell (fun x => { x with deadWithSet := true })) s
    else s
  let s := match r.2 with
    | some w => s.raise 0x116 a (w.index % 16 + 16 * w.cause + 2 ^ 16 * w.missing)
    | none => s
  s.commandCells a t deblock r.1.cells (s.availCells a)

/-! ### Carrier mode -/

/-- Duty limits of an arm (R85). -/
def dutyLow (fb : Bool) : Nat := if fb then fNegate f32 (fOfInt f32 1) else 0

/-- The common duty (R85), clamped; a quotient that is not a number is a free duty. -/
def State.commonDuty (s : State) (a v0 u : Nat) (fb : Bool) : Nat × State :=
  let n := fOfInt f32 (s.rd Reg.ARM_AVAIL.available a)
  let v := if s.flag Reg.ARM_CTRL.norm a then s.rd Reg.ARM_VAVAIL.vavail a else fMul f32 n u
  let d := fDiv f32 v0 v
  let one := fOfInt f32 1
  if fIsNaN f32 d then
    let x := s.draw 14
    (fOfRat f32 false x.1 16384, x.2)
  else if fLt f32 d (dutyLow fb) then (dutyLow fb, s.wr Reg.ARM_STAT.sat a 1)
  else if fLt f32 one d then (one, s.wr Reg.ARM_STAT.sat a 1)
  else (d, s)

/-- q of R192: to nearest, ties to even, limited. -/
def dutyCode (d : Nat) : Int := clampLevel (-16384) 16383 (fScaleRne f32 d 16384)

/-- Phase of the j-th of n cells (R86). -/
def phaseOf (fb : Bool) (p j n : Nat) : Nat := if fb then j * p / (2 * n) else j * p / n

/-- The cells in phase order that hold for reload r (R86), with a change of the available set reported. -/
def State.respread (s : State) (a r : Nat) : State :=
  let now := (s.availCells a).map (·.cell)
  let x := s.arm a
  let s := match x.nextPhases with
    | some (q, l) => if q ≤ r then s.modArm a (fun x => { x with phases := l, nextPhases := none }) else s
    | none => s
  let x := s.arm a
  let latest := (x.nextPhases.map (·.2)).getD x.phases
  if latest = now then s
  else if x.lastReload = none then s.modArm a (fun x => { x with phases := now, nextPhases := none })
  else
    let q := match x.lastReload with
      | some l => if l < r then r else l + 1
      | none => r
    let s := s.raise 0x114 a (now.length + 2 ^ 16 * (q % 2 ^ 32))
    if q ≤ r then s.modArm a (fun x => { x with phases := now, nextPhases := none })
    else s.modArm a (fun x => { x with nextPhases := some (q, now) })

/-- The offsets of R136, by cell. -/
def State.offsets (s : State) (a : Nat) (m : ArmEntry) (ok : Bool) (sg : Int) : List (Nat × Nat) :=
  let l := s.availCells a
  if !ok then l.map (fun e => (e.cell, 0))
  else
    let x : List OffsetIn := l.map (fun e =>
      let p := s.pub (livePos e.cell 0)
      (e.cell, p.v % 2 ^ 32, (s.pub (livePos e.cell 9)).v / 2 ^ 16 % 4096, p.bad))
    dutyOffsets x (s.rd Reg.ARM_VAVAIL.vavail a) (s.arm a).lo (s.arm a).hi m.carrierGain m.carrierDmax
      (s.rd Reg.ARM_BAND.band a) sg

/-- The phase of a cell for the reload being sent (R86): its place in the order that holds, or, for a cell that became available after
the set for that reload had begun to be sent, its place in the order to come. DESIGN CHOICE (notes/assumptions/111.md). -/
def ArmRt.phaseFor (r : ArmRt) (fb : Bool) (p c : Nat) : Nat :=
  match r.phases.findIdx? (· == c) with
  | some j => phaseOf fb p j r.phases.length
  | none =>
    let l := (r.nextPhases.map (·.2)).getD []
    phaseOf fb p ((l.findIdx? (· == c)).getD 0) l.length

/-- A CARRIER command for a target epoch: the bits follow the carrier (R508), so the cell stands in no bypass (R72). -/
def State.cmdCarrier (s : State) (c t : Nat) (cmd : CellCmd) : State :=
  (s.cmdPlain c t cmd).modCell c (fun r => { r with bits := 0, contrib := 0 })

/-- The CARRIER command of every available cell (R85 to R87, R192). -/
def State.sendSets (s : State) (a t : Nat) (d : Nat) (offs : List (Nat × Nat)) (r : Nat) (g : Grid) :
    List CellEntry → State
  | [] => s
  | e :: es =>
    let delta := ((offs.find? (fun x => x.1 == e.cell)).map (·.2)).getD 0
    let one := fOfInt f32 1
    let x := fAdd f32 d delta
    let y := fClamp f32 (dutyLow e.fb) one x
    let s := if x = y then s else s.wr Reg.ARM_STAT.sat a 1
    let st := (s.seamAt t).1
    let tr := g.time r
    let cd : Option Nat := if notAfter (s.seamAt (t + 1)).1 tr then none else some (timeSince st tr)
    let s := s.cmdCarrier e.cell t (.carrier (dutyCode y) r g.p ((s.arm a).phaseFor e.fb g.p e.cell) cd)
    s.sendSets a t d offs r g es

/-- The decision in carrier mode (R84 to R87, R136). -/
def State.decideCarrier (s : State) (a t : Nat) (m : ArmEntry) : State :=
  let l := s.availCells a
  match (s.arm a).carrierFrom, (s.arm a).reloadAt (s.seamAt t).1 with
  | some f, some (r, g) =>
    if t < f then
      l.foldl (fun s e => (s.cmdKeep e.cell t .hold).modCell e.cell (fun x => { x with oweDead := some 0 })) s
    else
      let i := s.reference a m
      let dr := i.1.direction a
      let fb := l.any (·.fb)
      let q : Nat × State := match i.2 with
        | some v => dr.1.commonDuty a v.1 v.2.2 fb
        | none => ((dr.1.arm a).duty, dr.1)
      let s := q.2.respread a r
      let s := (s.modArm a (fun x => { x with duty := q.1, lastReload := some r })).wr Reg.ARM_CAR_CFG.reload_idx a r
      s.sendSets a t q.1 (s.offsets a m dr.2.1 dr.2.2) r g l
  | _, _ => l.foldl (fun s e => s.cmdKeep e.cell t .hold) s

/-- The switch bits that a carrier gives at a station time (R194), from the last set whose reload has come. -/
def carrierBits (fb : Bool) (sets : List (Nat × Nat × Nat × Int)) (t : Nat) : Nat :=
  match sets.find? (fun x => notAfter x.1 t) with
  | none => 0
  | some (t0, p, ph, q) =>
    let pos := (timeSince t0 t + p - ph % p) % p
    let upper (n : Int) : Bool :=
      let x := (n * p / 65536).toNat
      decide (pos < x) || decide (p ≤ pos + x)
    if fb then
      let a := upper (16384 + q)
      let b := upper (16384 - q)
      (if a then 1 else 2) + (if b then 4 else 8)
    else if upper (2 * q) then 1 else 2

/-- A change to nearest-level mode: SET at edge 0 to the state that the carrier gave at that seam (R89), or to bypass where no set
has been applied by then. DESIGN CHOICE (notes/assumptions/111.md). -/
def State.leaveCarrier (s : State) (a t : Nat) : State :=
  let st := (s.seamAt t).1
  let s := (s.availCells a).foldl (fun s e =>
    let b := carrierBits e.fb (s.cell e.cell).sets st
    let b := if b = 0 then s.bypassOf a e else b
    s.cmdSet e.cell t b 0 (contribOf e.fb b)) s
  s.modArm a (fun x => { x with
    setAll := none
    nPrev := (s.availCells a).foldl (fun n e => n + (s.cell e.cell).contrib) 0 })

/-! ### The decision (R74) -/

/-- The removal of a cell that became excluded, and RETIRE (R99, R121, R138); its isolation entry blocks with it (R245). A removed cell
keeps its bypass (HOLD) for as long as it is excluded. With `act` false, every cell is to get BLOCK (R95, R96) and the bypass waits.
DEDUCED (notes/assumptions/45.md). -/
def State.commandRemovals (s : State) (a t : Nat) (act : Bool) : List CellEntry → State
  | [] => s
  | e :: es =>
    let c := e.cell
    let r := s.cell c
    let iso (s : State) : State := match s.bs.isoOf c with
      | some i => s.cmdOff i.cell t (.block 0)
      | none => s
    let s :=
      if r.retired then
        (if r.retireNow then
          let s := iso ((s.cmdOff c t (.retire 0)).modCell c (fun r => { r with retireNow := false }))
          if (s.arm a).hostCell = some c then s.hostRetired a else s
         else (s.cmdPlain c t .nop).modCell c (fun r => { r with bits := 0, contrib := 0 }))
      else if !act then s
      else if r.removeNow then
        iso ((s.cmdSet c t (s.bypassOf a e) 0 0).modCell c (fun r => { r with removeNow := false }))
      else if r.excluded then s.cmdKeep c t .hold
      else s
    s.commandRemovals a t act es

/-- The decision for target epoch `t` may command a bypass: not where R95 gives that epoch's BLOCK to every cell, not in an arm that a
priority block stopped (R96), and not without power. -/
def State.removalsAct (s : State) (a t : Nat) : Bool :=
  let st := s.armState a
  !(st == 3 && (s.arm a).goal == some t) && !(st == 0 && (s.arm a).cause == 2) && s.armPowered a

/-- The cells of an arm that a decision commands as a whole: all but excluded ones where these keep their bypass. -/
def State.commanded (s : State) (a : Nat) (act : Bool) : List CellEntry :=
  (s.armCells a).filter (fun e => !(act && (s.cell e.cell).excluded))

/-- ARM_DECISION: at the deadline of the reference graph in epoch k, for target epoch k + lead. A BLOCKED arm commands BLOCK for every
target epoch. DEDUCED (notes/assumptions/34.md). In an arm that is BLOCKED, BLOCKING or OFF, on leaving carrier mode and before the
carrier's origin no reference is taken, so the direction input is not sampled and event 0x11A is not raised. DESIGN CHOICE
(notes/assumptions/128.md). -/
def State.armDecide (s : State) (a : Nat) : State :=
  match s.bs.armEntry a with
  | none => s
  | some m =>
    let t := s.epo.k + s.lead
    let st := s.armState a
    let l := s.armCells a
    let act := s.removalsAct a t
    if st = 7 then ((s.commanded a act).foldl (fun s e => s.cmdPlain e.cell t .nop) s).commandRemovals a t act l
    else if st = 0 ∨ st = 3 then
      let s := ((s.commanded a act).foldl (fun s e => s.cmdOff e.cell t (.block 0)) s).modArm a (fun r => { r with nPrev := 0 })
      s.commandRemovals a t act l
    else
      let s := if (s.arm a).setAll = some t then s.leaveCarrier a t
        else if (s.arm a).mode = 2 ∧ (s.arm a).setAll = none then s.decideCarrier a t m
        else s.decideLevel a t m
      s.commandRemovals a t true l

/-- ARM_DECISION (R74). The first decision after a handover waits for the mirror of the outgoing arm's last one (R390). `errs` are words of
P(k) and of the working image that it reads with wrong bits (R58). -/
def execArmDecision (arm : Fin 12) (errs : List BadWord) (s : State) : Host.Outcome State Fault Refusal :=
  .next (if s.red.holdArms.contains arm then { s with red := { s.red with held := s.red.held ++ [.decision arm] } }
    else
      let s := s.readWords (fun x => wordInImage x .published || wordInImage x .working) errs
      s.mirrorOf ((s.askPoints (64 + arm) ((s.armCells arm).map (fun e => .cell e.cell 0))).armDecide arm))

/-! ### Carrier instants (R90, R91) -/

/-- The last instant of a kind at or before a station time: 0 ZERO, 1 PERIOD, 2 CMP0, 3 CMP1. -/
def State.instantOf (s : State) (a kind now : Nat) : Option (Nat × Grid) :=
  match (s.arm a).gridAt now with
  | none => none
  | some g =>
    let cmp := if kind = 2 then s.rd Reg.ARM_INT_CMP0.value a else s.rd Reg.ARM_INT_CMP1.value a
    let down := if kind = 2 then s.flag Reg.ARM_INT_CFG.cmp0_down a else s.flag Reg.ARM_INT_CFG.cmp1_down a
    let off := if kind = 0 then 0 else if kind = 1 then g.p / 2 else if down then (g.p - cmp) % g.p else cmp
    if (2 ≤ kind ∧ g.p / 2 < cmp) ∨ !notAfter (g.t0 + off) now ∨ g.p = 0 then none
    else some ((g.t0 + off + timeSince (g.t0 + off) now / g.p * g.p) % 2 ^ 64, g)

def State.instantEnabled (s : State) (a kind : Nat) : Bool :=
  if kind = 0 then s.flag Reg.ARM_INT_CFG.zero_en a else if kind = 1 then s.flag Reg.ARM_INT_CFG.period_en a
  else if kind = 2 then s.flag Reg.ARM_INT_CFG.cmp0_en a else s.flag Reg.ARM_INT_CFG.cmp1_en a

/-- An instant through its prescaler (R91): whether it is delivered, with its event. -/
def State.carrierInstant (s : State) (a kind : Nat) : State × Bool :=
  match s.instantOf a kind s.now with
  | none => (s, false)
  | some (t, g) =>
    if !s.instantEnabled a kind then (s, false)
    else
      let n := tabGet 0 (s.arm a).counts kind
      let due := s.rd Reg.ARM_INT_CFG.prescale a ≤ n
      let n' := if due then 0 else n + 1
      let s := s.modArm a (fun r => { r with counts := tabSet 0 r.counts kind n' })
      let s := if kind = 0 then s.wr Reg.ARM_INT_CFG.zero_count a n' else s
      if due then
        let r := g.r0 + timeSince g.t0 t / (g.n * g.p)
        let k := if s.epo.begun ∧ !notAfter s.epo.seam t then s.epo.k - 1 else s.epo.k
        (if s.flag Reg.ARM_INT_CFG.ring_en a then s.raiseIn (0x110 + kind) a 0 k t r else s, true)
      else (s, false)

end Sys2Proof.Machine
end

