-- ==== Sys2Proof/Machine/Drv.lean ====
section
/-! DEFINITION. Local drive channels (R155 to R174): sets and their checks, modes, scheduled edges with dead time and the drop
rule, blocking, node delays, gate faults and the delay-line calibrator. Reloads and periods are in DrvCarrier.lean. -/

namespace Sys2Proof.Machine

def State.drvRt (s : State) (ch : Nat) : DrvRt := tabGet DrvRt.clear s.drv ch
def State.modDrv (s : State) (ch : Nat) (f : DrvRt → DrvRt) : State :=
  { s with drv := tabMod DrvRt.clear s.drv ch f }

/-- A channel that the drive table does not list: a host channel without a holder. -/
def DriveEntry.unlisted (ch : Nat) : DriveEntry := ⟨ch, false, 0, 0, 0, 0, 0, false, 0, 0, 0, 0, 0, false, 0, 0⟩

def BitStream.driveEntry (b : BitStream) (ch : Nat) : DriveEntry :=
  (b.drive.find? (fun e => e.channel == ch)).getD (DriveEntry.unlisted ch)

def State.driveEntry (s : State) (ch : Nat) : DriveEntry := s.bs.driveEntry ch

/-- The fields of DRV_CTRL as written. -/
def State.drvWritten (s : State) (ch : Nat) : DrvCtl :=
  ⟨s.flag Reg.DRV_CTRL.dt_adapt ch, s.flag Reg.DRV_CTRL.refresh_en ch, s.rd Reg.DRV_CTRL.dead ch,
   s.rd Reg.DRV_CTRL.refresh_n ch, s.rd Reg.DRV_CTRL.refresh_width ch, s.flag Reg.DRV_CTRL.rel_ev ch⟩

/-- The written fields come into effect (R175); node delays count from the adaptive mode's start (R168). -/
def State.drvTakeCtl (s : State) (ch : Nat) : State :=
  let c := s.drvWritten ch
  s.modDrv ch (fun r => if c.adaptive && !r.ctl.adaptive then { r with ctl := c, rise := none, fall := none } else { r with ctl := c })

/-! ### Sets (R155, R156) -/

/-- The refresh width W in edge units: 40 ns is 512. -/
def DrvCtl.width (c : DrvCtl) : Nat := c.refreshWidth * 512

/-- A dead time of the drive table in steps of 1.25 ns. -/
def driveSteps (ps : Nat) : Nat := ps / 1250

/-- t_dead of R156 in edge units: 1.25 ns is 16. -/
def checkDead (e : DriveEntry) (c : DrvCtl) : Nat := (if c.adaptive then driveSteps e.dtMax else c.dead) * 16

/-- R156. DEDUCED (notes/assumptions/55.md). DEDUCED (notes/assumptions/131.md). -/
def drvSetOk (e : DriveEntry) (c : DrvCtl) (x : DrvSet) : Bool :=
  decide (1280 ≤ x.period) && decide (x.period ≤ 16777215) && decide (x.n ≠ 0) && decide (x.duty ≤ x.period)
    && decide (x.phase < x.period) && decide (2 * (checkDead e c + e.minPulse) ≤ x.period)
    && (!c.refreshEn || decide (e.minPulse ≤ c.width))

/-- The kind of holder: an entry with src = 1 takes its sets from a fabric graph (R161, R165). -/
def DriveEntry.kind (e : DriveEntry) : Nat := if e.src && e.holder == 0 then 1 else e.holder

/-- A refused set, mode or static write: status and event 0xA05 (Table 4.5). -/
def State.drvRefuse (s : State) (ch status : Nat) : State :=
  let e := s.driveEntry ch
  (s.wr Reg.DRV_SET.status ch status).raise 0xA05 ch (status + 16 * e.kind + 65536 * e.holderNum)

/-- A holder other than the host has the channel (R165). -/
def State.drvHeld (s : State) (ch : Nat) : Bool := (s.driveEntry ch).kind != 0

/-- Whether this core cycle is the one that contains a station time. -/
def State.cycleHas (s : State) (t : Nat) : Bool :=
  notAfter s.now t && !notAfter ({ s.clk with count := s.clk.count + 1 } : Clk).time t

/-- The first reload that may apply a set committed in this cycle, and whether it is deferred (R155). A set committed once the cycle of a
reload has begun waits for the reload after it. -/
def State.drvApplyAt (s : State) (ch : Nat) : Nat × Bool :=
  let r := s.drvRt ch
  match r.mode, r.on with
  | 1, some x =>
    let t := r.next + r.left * x.period
    if s.cycleHas t then (r.reload + 1, true)
    else if notAfter t s.now then (r.reload + 1, false)
    else match r.lastReload with
      | some t => (r.reload, s.cycleHas t)
      | none => (r.reload, false)
  | _, _ => (0, false)

/-- A set takes the place of the pending one, unless that is still to be applied at an earlier reload. -/
def DrvRt.pend (d : DrvRt) (x : DrvSet) (at_ : Nat) : DrvRt :=
  if d.reload < at_ ∧ d.pending.any (fun y => decide (y.2 ≤ d.reload)) then { d with later := some (x, at_) }
  else { d with pending := some (x, at_), later := none }

/-- The set that waited behind the pending one is the pending set. -/
def DrvRt.promote (d : DrvRt) : DrvRt :=
  match d.later with
  | some y => { d with pending := some y, later := none }
  | none => d

/-- A checked set becomes pending (R155). -/
def State.drvPend (s : State) (ch : Nat) (x : DrvSet) : State :=
  let r := s.drvApplyAt ch
  let s := (s.modDrv ch (fun d => d.pend x r.1)).wr Reg.DRV_SET.pending ch 1
  if r.2 then (s.wr Reg.DRV_SET.status ch 2).raise 0xA07 ch r.1 else s.wr Reg.DRV_SET.status ch 1

/-- The shadow fields. -/
def State.drvShadow (s : State) (ch : Nat) : DrvSet :=
  ⟨s.rd Reg.DRV_PERIOD.period ch, s.rd Reg.DRV_PERIOD.reload_n ch, s.rd Reg.DRV_DUTY.duty ch, s.rd Reg.DRV_SET.phase ch⟩

/-! ### Pins -/

/-- Whether DRV_FLT_N is low at an edge; in a gate fault an unknown level is free. -/
def State.faultLow (s : State) (flt : Bool) (low : Option Bool) : Bool × State :=
  match flt, low with
  | true, none => ((s.draw 1).1 == 1, (s.draw 1).2)
  | _, _ => (low == some true, s)

/-- The pins of a channel change. -/
def State.emitEdge (s : State) (ch : Nat) (e : PinEdge) : State := { s with wire := s.wire ++ [.driveEdge ch e.hi e.lo e.t] }

/-- An edge reaches the pins. A turn-on shows its dead time (R168). In a gate fault the edge is counted, and it clears the latch, which
sets again in the next core cycle where DRV_FLT_N is low (R169). DESIGN CHOICE (notes/assumptions/115.md). -/
def State.pinEdge (s : State) (ch : Nat) (e : PinEdge) : State :=
  let r := s.drvRt ch
  let d := s.faultLow r.flt e.low
  let s := (d.2.modDrv ch (fun r => { r with
    hi := e.hi, lo := e.lo, flt := r.flt && d.1, fltEdges := if r.flt then r.fltEdges + 1 else r.fltEdges
    again := if r.flt && d.1 then some e.t else none })).emitEdge ch e
  let s := match e.dead with
    | some n => s.wr Reg.DRV_DUTY.dead_applied ch (n / 16)
    | none => s
  if r.flt then (s.wr Reg.DRV_CTRL.flt ch 0).setCond (72 + ch) false else s

/-- The fault latch that an edge cleared sets again, once the edge's core cycle is over (R169). -/
def State.drvLatch (s : State) (ch : Nat) : State :=
  match (s.drvRt ch).again with
  | some t =>
    if notAfter t s.now && !s.cycleHas t then
      ((s.modDrv ch (fun r => { r with again := none })).wr Reg.DRV_CTRL.flt ch 1).setCond (72 + ch) true
    else s
  | none => s

/-- Edges whose time has come reach the pins. -/
def State.drvFlush (s : State) (ch t : Nat) : State :=
  let due := (s.drvRt ch).edges.filter (fun e => notAfter e.t t)
  (due.foldl (fun s e => s.pinEdge ch e)
    (s.modDrv ch (fun r => { r with edges := r.edges.filter (fun e => !notAfter e.t t) }))).drvLatch ch

/-- Every channel's edges up to now are at the pins, as a read of the registers finds them. -/
def State.drvCatchUp (s : State) : State := (List.range 24).foldl (fun (s : State) ch => s.drvFlush ch s.now) s

/-- Schedule edges. -/
def State.drvSchedule (s : State) (ch : Nat) (es : List PinEdge) : State :=
  if es.isEmpty then s
  else s.modDrv ch (fun r => { r with edges := r.edges ++ es, lastEdge := es.getLast?.map (·.t) })

/-- Both switches off at an instant, with no edge left to come. -/
def State.drvLow (s : State) (ch t : Nat) : State :=
  let s := (s.drvFlush ch t).modDrv ch (fun r => { r with edges := [], timed := [] })
  if (s.drvRt ch).hi || (s.drvRt ch).lo then
    (s.pinEdge ch ⟨t, false, false, none, none⟩).modDrv ch (fun r => { r with lastEdge := some t })
  else s

/-- The state in effect: where the scheduled edges lead, else the levels of the pins. -/
def DrvRt.effect (r : DrvRt) : Bool × Bool :=
  match r.edges.getLast? with
  | some e => (e.hi, e.lo)
  | none => (r.hi, r.lo)

/-- Dead time before a turn-on in edge units (R168): `up` for the upper switch, whose turn-on follows a rising node. -/
def State.drvDead (s : State) (ch : Nat) (up : Bool) : Nat :=
  let r := s.drvRt ch
  let e := s.driveEntry ch
  if !r.ctl.adaptive then r.ctl.dead * 16
  else match (if up then r.rise else r.fall) with
    | none => driveSteps e.dtMax * 16
    | some d => min (max (ceilDiv (d * 78125 + e.dtMargin) 1250000) (driveSteps e.dtMin)) (driveSteps e.dtMax) * 16

/-- A dropped pulse (R174). -/
def State.drvDrop (s : State) (ch switch t : Nat) : State :=
  (s.count Reg.DRV_DROPPED_PULSES.count ch).raise 0xA01 ch (switch + 2 ^ 32 * (t % 2 ^ 32))

/-- Apply a state at a station time outside carrier mode (R151, R162): dead time before a turn-on whose partner turns off. `low` is the
level of DRV_FLT_N at its edges where the command tells it. -/
def State.drvApply (s : State) (ch t : Nat) (hi lo : Bool) (low : Option Bool) : State :=
  let s := s.drvFlush ch t
  let r := s.drvRt ch
  let now := r.effect
  if now = (hi, lo) then s
  else
    let dead := s.drvDead ch (!lo)
    let gap := dead + (s.driveEntry ch).minPulse
    let early := match r.lastEdge with
      | some e1 => tooSoon e1 t gap
      | none => false
    if early then s.drvDrop ch (if now.1 = hi then 1 else 0) t
    else
      let on := if (hi && !now.1) || (lo && !now.2) then some dead else none
      let swaps := (hi && now.2) || (lo && now.1)
      (s.drvSchedule ch
        (if swaps then [⟨t, false, false, none, low⟩, ⟨t + dead, hi, lo, on, low⟩] else [⟨t, hi, lo, on, low⟩])).modDrv ch
          (fun r => { r with lastEdge := some t })

/-! ### Modes (R157, R159) -/

/-- G(0) (R159): the first instant at least 1 us after a seam on the grid of period P and phase phi. -/
def drvOrigin (seam z : Nat) (x : DrvSet) : Nat :=
  let base := seam + 12800
  let m := ((base : Int) - z - x.phase) % (x.period : Int)
  base + ((x.period : Int) - m).toNat % x.period

/-- The state of DRV_CTRL.static is applied (R163). -/
def State.drvStatic (s : State) (ch t : Nat) : State :=
  (s.modDrv ch (fun r => { r with static := false })).drvApply ch t (s.flag Reg.DRV_CTRL.static_hi ch)
    (s.flag Reg.DRV_CTRL.static_lo ch) none

/-- A mode takes effect at station time `t`; `seam` is the seam that precedes it. -/
def State.drvTakeMode (s : State) (ch m t seam : Nat) : State :=
  let old := (s.drvRt ch).mode
  let s := s.modDrv ch DrvRt.promote
  if m = 1 ∧ (s.drvRt ch).pending.isNone then
    ((s.modDrv ch (fun r => { r with nextMode := none })).wr Reg.DRV_CTRL.mode ch old).drvRefuse ch 3
  else
    let s := (s.drvTakeCtl ch).modDrv ch (fun r => { r with
      mode := m, nextMode := none, rise := none, fall := none, on := none, timed := [] })
    let s := s.wr Reg.DRV_CTRL.run ch (bit (m != 0))
    if m = 0 then s.drvLow ch t
    else if m = 1 then
      match (s.drvRt ch).pending with
      | some (x, _) => s.modDrv ch (fun r => { r with
          on := some x, pending := some (x, 0), next := drvOrigin seam s.clk.grid x, len := x.period
          reload := 0, left := 0, lastReload := none, starved := 0 })
      | none => s
    else if m = 3 then s.drvStatic ch t
    else s

/-- A request for both switches is refused, counted and reported (R163). -/
def State.drvInterlock (s : State) (ch data : Nat) : State := (s.count Reg.DRV_INTERLOCK_CNT.count ch).raise 0xA00 ch data

/-- DRV_STATIC_WRITE (R163, R165): a host write that changes the static state; one that asks for both switches is discarded and
reported in every mode (R5, R6). -/
def execDrvStaticWrite (channel : Fin 24) (hi lo : Bool) (s : State) : Host.Outcome State Fault Refusal := byHost (fun s =>
  let ch : Nat := channel
  .next (if s.drvHeld ch then s.drvRefuse ch 4
    else if hi && lo then s.drvInterlock ch (3 + 16)
    else ((s.wr Reg.DRV_CTRL.static_hi ch (bit hi)).wr Reg.DRV_CTRL.static_lo ch (bit lo)).modDrv ch
      (fun r => { r with static := true }))) s

/-- Block of a channel by a reaction path (R164): off, mode 0, no pending set, event 0xA06. -/
def State.drvBlock (s : State) (ch cond : Nat) : State :=
  let s := (s.drvLow ch s.now).modDrv ch (fun r => { r with
    mode := 0, nextMode := none, pending := none, later := none, on := none })
  (((s.wr Reg.DRV_CTRL.mode ch 0).wr Reg.DRV_CTRL.run ch 0).wr Reg.DRV_SET.pending ch 0).raise 0xA06 ch cond

/-- Off, and no mode waits to take effect. -/
def State.drvIdle (s : State) (ch : Nat) : Bool := (s.drvRt ch).mode == 0 && s.rd Reg.DRV_CTRL.mode ch == 0

/-! ### Timed state (R162, R163) -/

/-- DRV_TIMED_STATE (R162): at the deadline of the graph that writes it, the channel reads its point from the working image. -/
def execDrvTimedState (channel : Fin 24) (s : State) : Host.Outcome State Fault Refusal :=
  let ch : Nat := channel
  let p := s.work (s.driveEntry ch).statePoint
  .next (s.mirrorOf (if (s.drvRt ch).mode ≠ 2 then s
    else if p.bad then s.raise 0xA09 ch s.epoch
    else if p.v % 4 = 3 then s.drvInterlock ch 3
    else s.modDrv ch (fun r => { r with timed := r.timed ++
      [⟨s.epoch + s.lead, bitsOf p.v 8 24, none, p.v % 2 == 1, p.v / 2 % 2 == 1⟩] })))

/-- The station time of a mode-2 state. -/
def State.timedAt (s : State) (x : TimedCmd) : Nat := x.at_.getD ((s.seamAt x.target).1 + x.tau)

/-- DRV_TIMED_EDGE (R162): the oldest state to come is applied; `fltLow` is the level of DRV_FLT_N at its edges. -/
def execDrvTimedEdge (channel : Fin 24) (fltLow : Bool) (s : State) : Host.Outcome State Fault Refusal :=
  let ch : Nat := channel
  .next (match (s.drvRt ch).mode, (s.drvRt ch).timed with
    | 2, x :: xs => (s.modDrv ch (fun r => { r with timed := xs })).drvApply ch (s.timedAt x) x.hi x.lo (some fltLow)
    | _, _ => s)

/-! ### Delay line, node delay, gate driver flags (R166 to R170) -/

/-- The table of a line (R166): from the 32 edge-unit positions of a core cycle to taps. -/
def tapTable (taps : Nat) : List Nat := (List.range 32).map (Config.tapOf taps)

/-- New tables take effect in a core cycle in which the channel places no edge (R166). -/
def State.drvInstall (s : State) (ch : Nat) : State :=
  let r := s.drvRt ch
  if r.fresh = (none, none) || r.edges.any (fun e => s.cycleHas e.t) || r.lastEdge.any s.cycleHas then s
  else s.modDrv ch (fun r => { r with fresh := (none, none), tables := (r.fresh.1 <|> r.tables.1, r.fresh.2 <|> r.tables.2) })

/-- DRV_CALIBRATE (R166, R167): the calibrator measures its next line; 24 channels with an upper and a lower line each. -/
def execDrvCalibrate (taps : Nat) (s : State) : Host.Outcome State Fault Refusal :=
  let ch := s.cal / 2
  let low := s.cal % 2 == 1
  let ok := decide (33 ≤ taps ∧ taps ≤ 64)
  let s := { s with cal := (s.cal + 1) % 48 }
  let r := s.drvRt ch
  let failed := if low then r.failing.2 else r.failing.1
  let s := s.modDrv ch (fun r => { r with
    failing := if low then (r.failing.1, !ok) else (!ok, r.failing.2)
    fresh := if !ok then r.fresh else if low then (r.fresh.1, some taps) else (some taps, r.fresh.2) })
  .next (if ok then
      let s := s.drvInstall ch
      let r := s.drvRt ch
      s.wr Reg.DRV_CTRL.cal_valid ch (bit ((r.fresh.1 <|> r.tables.1).isSome && (r.fresh.2 <|> r.tables.2).isSome
        && !r.failing.1 && !r.failing.2))
    else
      let s := s.wr Reg.DRV_CTRL.cal_valid ch 0
      if failed then s else s.raise 0xA04 ch (bit low + 256 * (taps % 256)))

/-- NODE_DELAY_MEASURE (R168): a transition of DRV_NODE after a turn-off edge, up to dt_max. DEDUCED (notes/assumptions/42.md). -/
def execNodeDelayMeasure (channel : Fin 24) (rising : Bool) (delay : Nat) (s : State) : Host.Outcome State Fault Refusal :=
  let ch : Nat := channel
  .next (if !(s.drvRt ch).ctl.adaptive || decide (driveSteps (s.driveEntry ch).dtMax * 16 < delay) then s
    else s.modDrv ch (fun r => if rising then { r with rise := some delay } else { r with fall := some delay }))

/-- GATE_FAULT (R169): DRV_FLT_N low for 40 ns; the edges commanded since are counted from here. -/
def execGateFault (channel : Fin 24) (s : State) : Host.Outcome State Fault Refusal :=
  let ch : Nat := channel
  let s := (s.drvFlush ch s.now).modDrv ch (fun r => { r with flt := true, fltEdges := 0, again := none })
  .next (((s.wr Reg.DRV_CTRL.flt ch 1).setCond (72 + ch) true).raise 0xA02 ch 0)

/-- GATE_FAULT_REPEAT (R169): 1 ms more with the pin low; flag PERSIST. -/
def execGateFaultRepeat (channel : Fin 24) (s : State) : Host.Outcome State Fault Refusal :=
  let ch : Nat := channel
  let s := s.drvFlush ch s.now
  .next (if (s.drvRt ch).flt then s.raiseAt 0xA02 ch 8 s.now (s.drvRt ch).fltEdges else s)

/-- BOOTSTRAP_UV (R170). -/
def execBootstrapUv (channel : Fin 24) (s : State) : Host.Outcome State Fault Refusal :=
  let ch : Nat := channel
  .next (((s.wr Reg.DRV_CTRL.bsuv ch 1).setCond (96 + ch) true).raise 0xA03 ch s.now)

/-! ### At a seam -/

/-- The set that two station points hold (R161). -/
def State.drvPointSet (s : State) (p : Nat) : Option DrvSet :=
  let a := s.pub p
  let b := s.pub (p + 1)
  if a.bad || b.bad then none else some ⟨bitsOf a.v 0 24, bitsOf a.v 24 8, bitsOf b.v 0 24, bitsOf b.v 24 24⟩

/-- R161: a changed set in P(k) is checked and becomes pending, or is refused once. A poisoned point leaves the set taken. -/
def State.drvSource (s : State) (ch : Nat) : State :=
  let e := s.driveEntry ch
  if !e.src then s
  else match s.drvPointSet e.setPoint with
    | none => s
    | some x =>
      let r := s.drvRt ch
      if r.taken = some x then s.modDrv ch (fun r => { r with badSet := none })
      else if r.badSet = some x then s
      else if drvSetOk e (s.drvWritten ch) x then
        let s := s.modDrv ch (fun r => { r with taken := some x, badSet := none })
        let s := ((s.wr Reg.DRV_PERIOD.period ch x.period).wr Reg.DRV_PERIOD.reload_n ch x.n).wr Reg.DRV_DUTY.duty ch x.duty
        (s.wr Reg.DRV_SET.phase ch x.phase).drvPend ch x
      else (s.modDrv ch (fun r => { r with badSet := some x })).drvRefuse ch 3

/-- S(k) fixes the station time of the states whose target epoch is k. -/
def State.drvFix (s : State) (ch : Nat) : State :=
  s.modDrv ch (fun r => { r with timed := r.timed.map (fun x =>
    if x.target = s.epo.k ∧ x.at_.isNone then { x with at_ := some (s.epo.seam + x.tau) } else x) })

/-- What seam S(k) does to a channel. -/
def State.drvSeam (s : State) (ch : Nat) : State :=
  let s := ((s.drvFlush ch s.epo.seam).drvFix ch).drvSource ch
  if (s.drvRt ch).mode = 1 then s
  else
    let s := s.drvTakeCtl ch
    let s := match (s.drvRt ch).nextMode with
      | some m => if m = (s.drvRt ch).mode then s.modDrv ch (fun r => { r with nextMode := none })
        else s.drvTakeMode ch m s.epo.seam s.epo.seam
      | none => s
    if (s.drvRt ch).mode = 3 ∧ (s.drvRt ch).static then s.drvStatic ch s.epo.seam else s

end Sys2Proof.Machine
end

