-- ==== Sys2Proof/Machine/Cond.lean ====
section
/-! DEFINITION. Sources of the reaction matrix that carry data (R507, R512): while a level-mode condition is qualified, each
change of its data makes one RETIRE request and raises one event. What a qualification does is in Reaction.lean. -/

namespace Sys2Proof.Machine

def State.cond (s : State) (n : Nat) : Cond := tabGet Cond.clear s.conds n
def State.modCond (s : State) (n : Nat) (f : Cond → Cond) : State :=
  { s with conds := tabMod Cond.clear s.conds n f }

def BitStream.condEntry (b : BitStream) (n : Nat) : Option CondEntry := b.reaction.conds.find? (fun e => e.cond == n)

/-- The actions wired to a condition. -/
def State.actions (s : State) (n : Nat) : List Action := ((s.bs.condEntry n).map (·.actions)).getD []

/-- The RETIRE and EVENT entries of a condition act on its data (Table 8.12); the cell index of RETIRE is the data's low 14 bits. -/
def State.condData (s : State) (n data : Nat) : State :=
  (s.actions n).foldl (fun s a =>
    match a with
    | .retire => s.retireByReaction n (data % 2 ^ 14)
    | .event => s.raise 0x306 n (data % 2 ^ 14)
    | .tripOut _ | .prioBlock _ | .drvBlock _ | .armBlock _ | .safReq _ | .drTrigger | .release _ => s) s

/-- A condition whose source is true gets new data: it acts if the condition is qualified in level mode. -/
def State.condChange (s : State) (n data : Nat) : State :=
  let c := s.cond n
  let s := s.modCond n (fun c => { c with level := true, data := data })
  match s.bs.condEntry n with
  | some e => if c.qualified && !e.edge && decide (c.data ≠ data) then s.condData n data else s
  | none => s

/-- The cells that begin to meet a cell condition at a seam, presented one per core cycle in ascending index (R507). -/
def State.condCells (s : State) (n : Nat) (level : Bool) (begun : List Nat) : State :=
  if (s.cond n).qualified then (begun.foldl (fun s c => s.condChange n c) s).setCond n level
  else
    let s := s.modCond n (fun c => { c with level := level, waiting := begun })
    match begun.getLast? with
    | some c => s.modCond n (fun x => { x with data := c })
    | none => s

end Sys2Proof.Machine
end

