-- ==== Sys2Proof/Machine/FabOps.lean ====
section
/-! DEFINITION. The operation set of the control fabric (Table 8.3, R266, R267, R509): shapes, service cycles and results. Items are
64-bit words with a poison bit; a binary32 value stands in [31:0], a boolean reads 1 or 0. -/

namespace Sys2Proof.Machine

/-- Number of outputs of an operation. -/
def OpKind.outputs : OpKind → Nat
  | .srcConst _ | .srcQueue | .zdelay _ | .div | .sqrt | .dot _ | .pi .. | .biquad .. | .fir .. | .integ .. | .rateLimit ..
  | .lookup .. | .cmp _ | .logic .. | .select | .pack _ | .delay _ | .observe .. => 1
  | .srcPoint l => l.length
  | .srcStream | .sincos | .clarke | .park => 2
  | .snkPoint _ | .snkQueue _ | .alarm _ | .event _ | .release _ => 0
  | .add n | .sub n | .mul n | .fma n | .abs n | .neg n | .min n | .max n | .clamp n | .cvt n _ _ _ => n
  | .matvec r _ _ _ => r
  | .unpack l => l.length

/-- Number of inputs. -/
def OpKind.inputs : OpKind → Nat
  | .srcConst _ | .srcPoint _ | .srcStream | .srcQueue => 0
  | .snkPoint l => l.length
  | .snkQueue _ | .zdelay _ | .sqrt | .sincos | .biquad .. | .fir .. | .lookup .. | .unpack _ | .delay _ | .release _ => 1
  | .add n | .sub n | .mul n | .min n | .max n | .dot n => 2 * n
  | .fma n | .clamp n => 3 * n
  | .abs n | .neg n | .cvt n _ _ _ => n
  | .div | .rateLimit .. | .alarm _ | .event _ => 2
  | .matvec _ c _ _ => c
  | .clarke | .pi .. | .integ .. | .cmp _ | .select | .observe .. => 3
  | .park => 4
  | .logic fn n => if fn = .not then 1 else n
  | .pack l => l.length

/-- Service cycles (Table 8.3). -/
def OpKind.cycles : OpKind → Nat
  | .srcConst _ | .srcStream | .srcQueue | .snkQueue _ | .logic .. | .select | .delay _ | .alarm _ | .event _ | .release _ => 1
  | .srcPoint l => 1 + l.length
  | .snkPoint l => 1 + l.length
  | .zdelay _ | .cmp _ => 2
  | .add n | .sub n | .mul n | .fma n | .abs n | .neg n | .min n | .max n | .clamp n | .cvt n _ _ _ | .dot n => n
  | .div | .sqrt => 8
  | .sincos => 12
  | .matvec r c _ _ => r * c
  | .clarke | .pi .. | .lookup .. | .observe .. => 4
  | .park => 6
  | .biquad n _ _ => 5 * n
  | .fir t _ _ => t
  | .integ .. | .rateLimit .. => 3
  | .pack l => l.length
  | .unpack l => l.length

/-! ### Arithmetic -/

/-- a x b + c where Table 8.3 names no rounding: the fused form or one rounding for each operation, which Config leaves open.
DESIGN CHOICE (notes/assumptions/14.md). -/
def mulAdd (a b c : Nat) : Nat := if Config.fusedMulAdd then fFma f32 a b c else fAdd f32 (fMul f32 a b) c

/-- IEEE 754 minimum and maximum: a NaN gives NaN, -0 is less than +0. -/
def fMinimum (a b : Nat) : Nat :=
  if fIsNaN f32 a || fIsNaN f32 b then f32.qnan
  else if fOrd f32 a = fOrd f32 b then (if fNeg f32 a then a else b)
  else if fOrd f32 a < fOrd f32 b then a else b

def fMaximum (a b : Nat) : Nat :=
  if fIsNaN f32 a || fIsNaN f32 b then f32.qnan
  else if fOrd f32 a = fOrd f32 b then (if fNeg f32 a then b else a)
  else if fOrd f32 a < fOrd f32 b then b else a

def fClip (x lo hi : Nat) : Nat := fMinimum (fMaximum x lo) hi

/-- 2 pi in units of 2^-160. -/
def twoPi : Nat := 9182885614096437842769610399486622256908310048836

/-- Alternating Taylor series in units of 2^-160: `t` is the term of degree `d`. -/
def taylor (r2 : Nat) : Nat → Nat → Nat → Int
  | 0, _, _ => 0
  | n + 1, d, t => (t : Int) - taylor r2 n (d + 2) (t * r2 / 2 ^ 160 / ((d + 1) * (d + 2)))

/-- sin or cos of an angle in [0, 2 pi), in units of 2^-160. -/
def sinUnits (r : Nat) : Int := taylor (r * r / 2 ^ 160) 40 1 r
def cosUnits (r : Nat) : Int := taylor (r * r / 2 ^ 160) 40 0 (2 ^ 160)

/-- A result with absolute error at most 2^-22 (Table 8.3): the free value if it lies within the bound, else the nearest
binary32. -/
def nearValue (exact : Int) (free : Nat) : Nat :=
  if fFinite f32 free ∧ (fVal f32 free * 2 ^ 11 - exact).natAbs ≤ 2 ^ 138 then free
  else fOfRat f32 false exact (2 ^ 160)

/-- SINCOS of a binary32 angle with two free values; beyond |x| = 2^16 the manual states no result. -/
def sincosOf (x f1 f2 : Nat) : Nat × Nat :=
  if !fFinite f32 x then (f32.qnan, f32.qnan)
  else if (fVal f32 x).natAbs > 2 ^ 16 * f32.unit then (f1, f2)
  else
    let r := ((fVal f32 x * 2 ^ 11) % (twoPi : Int)).toNat
    (nearValue (sinUnits r) f1, nearValue (cosUnits r) f2)

/-- A binary32 as a signed fixed-point number of `w` bits with `q` fraction bits, saturating; NaN gives 0. -/
def toFixed (w q x : Nat) : Nat :=
  let top : Int := 2 ^ (w - 1) - 1
  let bot : Int := -(2 ^ (w - 1))
  if fIsNaN f32 x then 0
  else if fIsInf f32 x then wrapInt w (if fNeg f32 x then bot else top)
  else
    let r := divRneInt (fVal f32 x * (2 ^ q : Nat)) f32.unit
    wrapInt w (if r < bot then bot else if top < r then top else r)

def fromFixed (w q x : Nat) : Nat := fOfRat f32 false (signedOf w x) (2 ^ q)

/-- Place items in the fields of a word, least significant bit and width of each. -/
def packFields : List (Nat × Nat) → List Nat → Nat
  | (lo, w) :: fs, x :: xs => bitsOf x 0 w * 2 ^ lo ||| packFields fs xs
  | _, _ => 0

/-- Sum of products in element order. DEDUCED (notes/assumptions/48.md). -/
def dotFma : List (Nat × Nat) → Nat → Nat
  | [], acc => acc
  | (a, b) :: l, acc => dotFma l (fFma f32 a b acc)

def firSum : List (Nat × Nat) → Nat → Nat
  | [], acc => acc
  | (a, b) :: l, acc => firSum l (mulAdd a b acc)

/-- One direct-form II transposed section: output and the two new states. -/
def biquadStep (c : List Nat) (x : Nat) : Nat × Nat × Nat :=
  let g (i : Nat) : Nat := c.getD i 0
  let y := mulAdd (g 0) x (g 5)
  (y, mulAdd (fNegate f32 (g 3)) y (mulAdd (g 1) x (g 6)), mulAdd (fNegate f32 (g 4)) y (fMul f32 (g 2) x))

/-- A cascade over 7 words a section (b0 b1 b2 a1 a2 s1 s2): output and, by section, the new states. -/
def biquadRun (words : List Nat) : Nat → Nat → Nat → Nat × List (Nat × Nat)
  | 0, _, x => (x, [])
  | n + 1, i, x =>
    let r := biquadStep ((words.drop (7 * i)).take 7) x
    let rest := biquadRun words n (i + 1) r.1
    (rest.1, (7 * i + 5, r.2.1) :: (7 * i + 6, r.2.2) :: rest.2)

/-- PI (Table 8.3): output and the new integral. -/
def piStep (kp ki i e lo hi : Nat) : Nat × Nat :=
  let u := mulAdd kp e i
  let d := fMul f32 ki e
  let back := (fLt f32 hi u && fLt f32 d 0) || (fLt f32 u lo && fLt f32 0 d)
  let clamped := fLt f32 hi u || fLt f32 u lo
  (fClip u lo hi, if !clamped || back then mulAdd ki e i else i)

/-- RATE_LIMIT: y moves toward x by at most the step. -/
def rateStep (y x step : Nat) : Nat :=
  let d := fSub f32 x y
  if fLe f32 (fAbs f32 d) step then x else if fNeg f32 d then fSub f32 y step else fAdd f32 y step

/-- LOOKUP: linear interpolation over entries at x0, x0 + dx, ...; clamped at the ends. -/
def lookupOf (tbl : List Nat) (x0 dx x : Nat) : Nat :=
  let t := fDiv f32 (fSub f32 x x0) dx
  let n := tbl.length
  if fLe f32 t 0 then tbl.getD 0 0
  else if fLe f32 (fOfInt f32 (n - 1 : Nat)) t then tbl.getD (n - 1) 0
  else
    let i := (fFloor f32 t).toNat
    let a := tbl.getD i 0
    mulAdd (fSub f32 t (fOfInt f32 i)) (fSub f32 (tbl.getD (i + 1) 0) a) a

def zip3 (x : List Nat) (n : Nat) (f : Nat → Nat → Nat → Nat) : List Nat :=
  (List.range n).map (fun i => f (x.getD i 0) (x.getD (n + i) 0) (x.getD (2 * n + i) 0))

def boolWord (b : Bool) : Nat := bit b
def isTrue (x : Nat) : Bool := x != 0

def logicOf (fn : LogicFn) (x : List Nat) : Bool :=
  match fn with
  | .and => x.all isTrue
  | .or => x.any isTrue
  | .xor => (x.filter isTrue).length % 2 == 1
  | .not => !isTrue (x.getD 0 0)

/-- The store words an operation uses: first word and count. -/
def OpKind.words : OpKind → Option (Nat × Nat)
  | .matvec r c st a => some (st * 4096 + a, r * c)
  | .pi _ _ st a | .integ _ st a | .rateLimit st a => some (st * 4096 + a, 1)
  | .biquad n st a => some (st * 4096 + a, 7 * n)
  | .fir t st a => some (st * 4096 + a, 2 * t)
  | .lookup n _ _ st a => some (st * 4096 + a, n)
  | _ => none

/-- Operations that take whole 64-bit words; the others take the binary32 in [31:0]. -/
def OpKind.whole : OpKind → Bool
  | .logic .. | .select | .pack _ | .unpack _ | .delay _ => true
  | .cvt _ _ _ to_ => !to_
  | _ => false

/-- Results of the operations that neither reach outside the job nor hold state of their own: outputs and store words written,
by offset from the first word used. `x` holds the input words, `w` the store words, `f1` and `f2` free values. -/
def pureOp (k : OpKind) (x w : List Nat) (f1 f2 : Nat) : List Nat × List (Nat × Nat) :=
  let g (i : Nat) : Nat := x.getD i 0
  let one (n : Nat) (f : Nat → Nat) : List Nat × List (Nat × Nat) := ((List.range n).map (fun i => f (g i)), [])
  let two (n : Nat) (f : Nat → Nat → Nat) : List Nat × List (Nat × Nat) :=
    ((List.range n).map (fun i => f (g i) (g (n + i))), [])
  match k with
  | .srcConst c => ([c], [])
  | .add n => two n (fAdd f32)
  | .sub n => two n (fSub f32)
  | .mul n => two n (fMul f32)
  | .fma n => (zip3 x n (fFma f32), [])
  | .div => ([fDiv f32 (g 0) (g 1)], [])
  | .sqrt => ([fSqrt f32 (g 0)], [])
  | .abs n => one n (fAbs f32)
  | .neg n => one n (fNegate f32)
  | .min n => two n fMinimum
  | .max n => two n fMaximum
  | .clamp n => (zip3 x n fClip, [])
  | .sincos => let r := sincosOf (g 0) f1 f2; ([r.1, r.2], [])
  | .dot n => ([dotFma ((List.range n).map (fun i => (g i, g (n + i)))) 0], [])
  | .matvec r c _ _ =>
    ((List.range r).map (fun i => dotFma ((List.range c).map (fun j => (w.getD (i * c + j) 0, g j))) 0), [])
  | .clarke =>
    let t := fFma f32 (fOfInt f32 2) (g 0) (fNegate f32 (g 1))
    ([fDiv f32 (fSub f32 t (g 2)) (fOfInt f32 3), fMul f32 (fSub f32 (g 1) (g 2)) 0x3F13CD3A], [])
  | .park =>
    ([fFma f32 (g 0) (g 2) (fMul f32 (g 1) (g 3)), fFma f32 (g 1) (g 2) (fNegate f32 (fMul f32 (g 0) (g 3)))], [])
  | .pi kp ki _ _ => let r := piStep kp ki (w.getD 0 0) (g 0) (g 1) (g 2); ([r.1], [(0, r.2)])
  | .biquad n _ _ => let r := biquadRun w n 0 (g 0); ([r.1], r.2)
  | .fir t _ _ =>
    let h := (g 0 :: (w.drop t)).take t
    ([firSum ((w.take t).zip h) 0], (List.range t).map (fun i => (t + i, h.getD i 0)))
  | .integ k _ _ => let y := fClip (mulAdd k (g 0) (w.getD 0 0)) (g 1) (g 2); ([y], [(0, y)])
  | .rateLimit _ _ =>
    let y := if fIsNaN f32 (g 0) || fIsNaN f32 (g 1) then f1 else rateStep (w.getD 0 0) (g 0) (g 1)
    ([y], [(0, y)])
  | .lookup _ x0 dx _ _ =>
    ([if fIsNaN f32 (fDiv f32 (fSub f32 (g 0) x0) dx) then f1 else lookupOf w x0 dx (g 0)], [])
  | .logic fn _ => ([boolWord (logicOf fn x)], [])
  | .select => ([if isTrue (g 0) then g 1 else g 2], [])
  | .cvt n wd q to_ => one n (fun v => if to_ then toFixed wd q v else fromFixed wd q v)
  | .pack l => ([packFields l x], [])
  | .unpack l => (l.map (fun f => bitsOf (g 0) f.1 f.2), [])
  | .delay _ => ([g 0], [])
  | .srcPoint _ | .srcStream | .srcQueue | .snkPoint _ | .snkQueue _ | .zdelay _ | .cmp _ | .observe .. | .alarm _
  | .event _ | .release _ => ([], [])

end Sys2Proof.Machine
end

