-- ==== Sys2Proof/Machine/Fabric.lean ====
section
/-! DEFINITION. The control fabric (R258 to R284, R293, R507 to R511): releases, dispatch, operations, commits, misses, flows,
queues, streams and delay lists. The reaction matrix is in Reaction.lean. -/

namespace Sys2Proof.Machine

/-! ### Access -/

def State.graph (s : State) (g : Nat) : GraphRt := tabGet GraphRt.clear s.fab.graphs g
def State.modFab (s : State) (f : Fab → Fab) : State := { s with fab := f s.fab }
def State.modGraph (s : State) (g : Nat) (f : GraphRt → GraphRt) : State :=
  s.modFab (fun x => { x with graphs := tabMod GraphRt.clear x.graphs g f })
def State.engine (s : State) (e : Nat) : Engine := tabGet Engine.idle s.fab.engines e
def State.modEngine (s : State) (e : Nat) (f : Engine → Engine) : State :=
  s.modFab (fun x => { x with engines := tabMod Engine.idle x.engines e f })
def State.queue (s : State) (q : Nat) : QueueRt := tabGet QueueRt.empty s.fab.queues q
def State.modQueue (s : State) (q : Nat) (f : QueueRt → QueueRt) : State :=
  s.modFab (fun x => { x with queues := tabMod QueueRt.empty x.queues q f })
def State.flow (s : State) (f : Nat) : FlowRt := tabGet FlowRt.idle s.fab.flows f
def State.modFlow (s : State) (f : Nat) (g : FlowRt → FlowRt) : State :=
  s.modFab (fun x => { x with flows := tabMod FlowRt.idle x.flows f g })
def State.job (s : State) (g : Nat) : Option Job := s.fab.jobs.find? (fun j => j.g.graph == g)
def State.modJob (s : State) (g : Nat) (f : Job → Job) : State :=
  s.modFab (fun x => { x with jobs := x.jobs.map (fun j => if j.g.graph = g then f j else j) })

/-- The present core cycle. -/
def State.cycle (s : State) : Nat := s.clk.count

/-- Trigger numbers in the order of Table 8.1. -/
def Trigger.code : Trigger → Nat
  | .seam .. => 0 | .timer _ => 1 | .carrier .. => 2 | .drive .. => 3 | .stream _ => 4 | .queue _ => 5 | .reaction => 6
  | .graph _ => 7 | .host => 8

/-- An engine is powered and not parked (R269, R271); engines 0 to 31 lie in FAB_W (notes/assumptions/15.md). -/
def State.engineUsable (s : State) (e : Nat) : Bool :=
  (s.domain (if e < 32 then 4 else 5) == 2) && !s.flag Reg.FAB_ENG_CTRL.park e

def State.graphUsable (s : State) (e : GraphEntry) : Bool := e.engines.any s.engineUsable

/-! ### Status points (R262) -/

/-- A graph's state and flags reach its register and its status point in the working image. DEDUCED (notes/assumptions/47.md). -/
def State.showGraph (s : State) (g : Nat) : State :=
  let r := s.graph g
  (s.wr Reg.FAB_GRAPH_STAT.state g r.state).setWork (0x2000 + g)
    ⟨r.state + 8 * r.flags + 2 ^ 16 * r.cycles + 2 ^ 32 * (s.epoch % 2 ^ 32), false⟩

/-- Change a graph's state, and set flags of the running epoch: 1 released, 2 committed, 4 missed, 8 dropped, 16 poisoned. -/
def State.markGraph (s : State) (g state flags : Nat) : State :=
  (s.modGraph g (fun r => { r with state := if r.enabled then state else 0, flags := r.flags ||| flags })).showGraph g

/-- The state of a graph without a job (R271). -/
def State.restState (s : State) (e : GraphEntry) : Nat := if s.graphUsable e then 1 else 4

/-- R271: no engine of the set is usable; the event is raised once per episode. -/
def State.unavailable (s : State) (g : Nat) : State :=
  let old := (s.graph g).unavailable
  let s := (s.modGraph g (fun r => { r with unavailable := true })).markGraph g 4 0
  if old then s else s.raise 0x30B g 0

def Waiting.graph (w : Waiting) : Nat := w.g.graph

/-- Every release that waits. -/
def State.waiting (s : State) : List Waiting := s.fab.space ++ s.fab.flows.flatMap (fun f => f.2.queue)

/-- Releases that no longer wait. -/
def State.dropWaiting (s : State) (p : Waiting → Bool) : State :=
  s.modFab (fun x => { x with
    space := x.space.filter (fun w => !p w)
    flows := tabMap FlowRt.idle (fun f => { f with queue := f.queue.filter (fun w => !p w) }) x.flows })

/-! ### Converter cores that wait for a graph (R322, R323) -/

def State.modAdc (s : State) (f : Adc → Adc) : State := { s with adc := f s.adc }
def State.core (s : State) (c : Nat) : CoreRt := tabGet CoreRt.clear s.adc.cores c
def State.modCore (s : State) (c : Nat) (f : CoreRt → CoreRt) : State :=
  s.modAdc (fun a => { a with cores := tabMod CoreRt.clear a.cores c f })

/-- The cores convert: ADC_CTRL.enable, and ANA is ON. -/
def State.adcRuns (s : State) : Bool := s.flag Reg.ADC_CTRL.enable 0 && s.domain 10 == 2

/-- A core converts: in a sleeping unit only one whose inputs a privileged channel in use names (R451). -/
def State.coreRuns (s : State) (c : Nat) : Bool :=
  s.adcRuns && (!s.running || !sleepsIn s.role
    || s.bs.safety.any (fun x => x.pchs.any (fun e => e.func != 0 && (e.inA / 8 == c || e.inB / 8 == c))))

/-- Entry `i` of a core's list as ADC_SEQ_ENTRY holds it. -/
def State.seqEntry (s : State) (c : Nat) (inj : Bool) (i : Nat) : SeqEntry :=
  let k := c * 32 + (if inj then 16 else 0) + i
  ⟨s.rd Reg.ADC_SEQ_ENTRY.input k, s.rd Reg.ADC_SEQ_ENTRY.gain k, s.rd Reg.ADC_SEQ_ENTRY.rounds k + 1,
   s.flag Reg.ADC_SEQ_ENTRY.lead k, s.rd Reg.ADC_SEQ_ENTRY.trigger k, s.rd Reg.ADC_SEQ_ENTRY.pin k,
   s.rd Reg.ADC_SEQ_ENTRY.offset k⟩

/-- A commit has changed the byte of a fabric signal point: the active entries that wait for it may place a request (R323). -/
def State.signalChange (s : State) (a old new : Nat) : State :=
  if old % 256 = new % 256 then s
  else (s.bs.meas.signals.filter (fun p => p.2 == a)).foldl (fun s p =>
    let c := p.1 / 8
    let l := (List.range (s.rd Reg.ADC_CORE_CTRL.inj_len c)).filter (fun e =>
      (s.seqEntry c true e).trigger == 3 && (s.seqEntry c true e).input == p.1 % 8 && !(s.core c).changed.contains e)
    if !s.coreRuns c || (s.core c).mode != 1 then s else s.modCore c (fun r => { r with changed := r.changed ++ l })) s

/-! ### Releases (R261, R273, R274, R510) -/

/-- The queues that a job reserves entries of, one for each SNK_QUEUE. -/
def GraphEntry.sinks (e : GraphEntry) : List Nat :=
  e.ops.filterMap (fun o => match o.kind with | .snkQueue q => some q | _ => none)

def BitStream.queueDepth (b : BitStream) (q : Nat) : Nat := ((b.fabric.queues.find? (fun x => x.1 == q)).map (·.2)).getD 0
def BitStream.streamDepth (b : BitStream) (n : Nat) : Nat := ((b.fabric.streams.find? (fun x => x.1 == n)).map (·.2)).getD 0

/-- Every queue that the graph appends to has room for what it reserves (R274). -/
def State.hasSpace (s : State) (e : GraphEntry) : Bool :=
  e.sinks.all (fun q => decide ((s.queue q).items.length + (s.queue q).reserved + (e.sinks.filter (· == q)).length
    ≤ s.bs.queueDepth q))

/-- A dropped release (R261). -/
def State.dropRelease (s : State) (g trigger : Nat) : State :=
  let s := (s.wr Reg.FAB_GRAPH_STAT.overrun g 1).count Reg.FAB_GRAPH_MISS_CNT.overruns g
  (s.markGraph g (s.graph g).state 8).raise 0x301 g trigger

/-- A job begins (R261, R274): queue entries are reserved, its flow is busy. -/
def State.activate (s : State) (w : Waiting) : State :=
  let e := w.g
  let s := e.sinks.foldl (fun s q => s.modQueue q (fun x => { x with reserved := x.reserved + 1 })) s
  let s := match e.flow with
    | some f => (s.modFlow f (fun x => { x with active := some e.graph })).wr Reg.FAB_FLOW_STAT.busy f 1
    | none => s
  let j : Job := ⟨e, s.fab.nextId, w.released, w.deadline, [], [], [], [], 0⟩
  (s.modFab (fun x => { x with jobs := x.jobs ++ [j], nextId := x.nextId + 1 })).markGraph e.graph 3 1

def State.showFlow (s : State) (f : Nat) : State := s.wr Reg.FAB_FLOW_STAT.queued f (s.flow f).queue.length

/-- A flow's releases in the order of their release (R273). -/
def insertWaiting (w : Waiting) : List Waiting → List Waiting
  | [] => [w]
  | x :: xs => if w.released < x.released then w :: x :: xs else x :: insertWaiting w xs

/-- The item that released a STREAM or QUEUE graph stays in its buffer, and no release of such a graph is dropped (R261). -/
def Trigger.stays : Trigger → Bool
  | .stream _ | .queue _ => true
  | _ => false

/-- A release waits for its flow (R273), which counts it once; with 16 waiting it is dropped. -/
def State.waitFlow (s : State) (f : Nat) (w : Waiting) : State :=
  let g := w.graph
  if (s.flow f).queue.length < 16 then
    let s := (s.modFlow f (fun x => { x with queue := insertWaiting { w with waited := true } x.queue })).showFlow f
    (if w.waited then s else s.count Reg.FAB_FLOW_STAT.waits f).markGraph g 2 0
  else
    let s := s.markGraph g (s.restState w.g) 0
    if w.g.trigger.stays then s else s.dropRelease g w.g.trigger.code

/-- A release starts its job, or waits for its flow (R273) or for queue space (R274). -/
def State.tryStart (s : State) (w : Waiting) : State :=
  match w.g.flow.filter (fun f => (s.flow f).active.isSome) with
  | some f => s.waitFlow f w
  | none =>
    if s.hasSpace w.g then s.activate w
    else (s.modFab (fun x => { x with space := x.space ++ [w] })).markGraph w.graph 2 0

/-- The next releases of a free flow (R273): the first whose graph has an engine (R271) becomes active; one without queue space goes to
wait for that and leaves the flow free (R274). -/
def State.serveQueue (s : State) (f : Nat) : List Waiting → State
  | [] => s
  | w :: ws =>
    if !s.graphUsable w.g then s.serveQueue f ws
    else
      let s := (s.modFlow f (fun x => { x with queue := x.queue.erase w })).showFlow f
      if s.hasSpace w.g then s.activate w
      else ((s.modFab (fun x => { x with space := x.space ++ [w] })).markGraph w.graph 2 0).serveQueue f ws

/-- The graph has a job, or a release that waits. -/
def State.graphBusy (s : State) (g : Nat) : Bool := (s.job g).isSome || s.waiting.any (fun w => w.graph == g)

/-- A release from the graph's own trigger, in cycle `c` (R261). -/
def State.releaseGraph (s : State) (g c : Nat) : State :=
  match s.bs.graphEntry g with
  | none => s
  | some e =>
    if !(s.graph g).enabled then s
    else if s.red.holdGraphs.contains g then
      { s.wr Reg.RED_MIRROR_STAT.waited 0 1 with red := { s.red with held := s.red.held ++ [.release g c] } }
    else if !s.graphUsable e then s.unavailable g
    else if s.graphBusy g then (if e.trigger.stays then s else s.dropRelease g e.trigger.code)
    else
      let d := if e.rt then some (c + e.cycles (s.rd Reg.EPO_LEN.cycles 0)) else none
      s.tryStart ⟨e, c, d, false⟩

/-! ### Items in a buffer (Table 8.1, R260, R261) -/

/-- The oldest item in the buffer that triggers the graph. -/
def State.oldestItem (s : State) (e : GraphEntry) : Option Item :=
  match e.trigger with
  | .stream n => (tabGet StreamRt.empty s.fab.streams n).items.head?
  | .queue q => (s.queue q).items.head?
  | .seam .. | .timer _ | .carrier .. | .drive .. | .reaction | .graph _ | .host => none

/-- An idle graph whose stream or queue holds an item is released by it, as though in the cycle in which it entered (R260); not in the
cycle in which its job ended. -/
def State.releaseByItem (s : State) (e : GraphEntry) : State :=
  match s.oldestItem e with
  | some i => if s.graphBusy e.graph || s.fab.again.any (fun x => x.2 == e.graph) then s else s.releaseGraph e.graph i.entered
  | none => s

/-- The items left release the graph again in the cycle after this one. -/
def State.releaseAgain (s : State) (e : GraphEntry) : State :=
  if (s.oldestItem e).isNone then s else s.modFab (fun x => { x with again := x.again.filter (fun y => y.2 != e.graph) ++ [(s.cycle, e.graph)] })

/-- A later core cycle has come: graphs whose job ended before it are released by the items that remain. -/
def State.lateReleases (s : State) : State :=
  let due := s.fab.again.filter (fun x => x.1 != s.cycle)
  let s := s.modFab (fun x => { x with again := x.again.filter (fun y => y.1 == s.cycle) })
  due.foldl (fun s x => match s.bs.graphEntry x.2 with
    | some e => s.releaseByItem e
    | none => s) s

/-- An instant of the fabric cannot lie before its cycle: the counter moves on to it (notes/assumptions/8.md). -/
def State.reachCycle (s : State) (c : Nat) : State :=
  if s.clk.count < c then { s with clk := { s.clk with count := c % 2 ^ 64 } }.lateReleases else s

/-- A station time that the manual names for an act: the counter moves on to the first cycle that reaches it (R345). -/
def State.reachTime (s : State) (t : Nat) : State := s.reachCycle (s.clk.count + s.clk.cyclesTo t)

/-- Engines went on or off (R271): every enabled graph without an engine is UNAVAILABLE; one that has an engine again shows what it
does, the flow that it waits for is served, and an item that its buffer kept releases it (R261). -/
def State.refreshGraphs (s : State) : State :=
  s.bs.fabric.graphs.foldl (fun s e =>
    let g := e.graph
    let r := s.graph g
    if !r.enabled then s
    else if !s.graphUsable e then (if r.state = 4 then s else s.unavailable g)
    else if r.state = 4 then
      let st := if (s.job g).isSome then 3 else if s.waiting.any (fun w => w.graph == g) then 2 else 1
      let s := (s.modGraph g (fun r => { r with unavailable := false })).markGraph g st 0
      let s := match e.flow with
        | some f => if (s.flow f).active.isSome then s else s.serveQueue f (s.flow f).queue
        | none => s
      s.releaseByItem e
    else s) s

/-- Release the graphs whose trigger is the one given. -/
def State.trigger (s : State) (t : Trigger) : State :=
  (s.bs.fabric.graphs.filter (fun e => e.trigger == t)).foldl (fun s e => s.releaseGraph e.graph s.cycle) s

/-- A HOST release (R510, R366). -/
def State.hostRelease (s : State) (g : Nat) : State :=
  match s.bs.graphEntry g with
  | none => s
  | some e =>
    if !(s.graph g).enabled then s
    else if e.trigger = .host then s.releaseGraph g s.cycle
    else (s.count Reg.FAB_GRAPH_MISS_CNT.overruns g).raise 0x301 g (8 + 16)

/-- The oldest item of a stream or queue releases its reader. -/
def State.serveItems (s : State) (t : Trigger) : State :=
  (s.bs.fabric.graphs.filter (fun e => e.trigger == t)).foldl (fun s e => s.releaseByItem e) s

/-- HOST_RELEASE (R510): FAB_GRAPH_CTRL.release of the selected graph. -/
def execHostRelease (s : State) : Host.Outcome State Fault Refusal := byHost (fun s =>
  .next (s.hostRelease (s.rd Reg.FAB_GRAPH_SEL.graph 0))) s

/-- CARRIER_INSTANT (R91): kinds ZERO, PERIOD, CMP0, CMP1. -/
def execCarrierInstant (arm : Fin 12) (kind : Fin 4) (s : State) : Host.Outcome State Fault Refusal :=
  let r := s.carrierInstant arm kind
  .next (s.mirrorOf (if r.2 then r.1.trigger (.carrier arm kind) else r.1))

/-- ALARM (R366): the first core cycle that reaches TIM_ALARM; the one after arming, when that time had passed. -/
def execAlarm (s : State) : Host.Outcome State Fault Refusal :=
  .next (if !s.flag Reg.TIM_ALARM_CTRL.arm 0 then s
    else
      let s := (s.reachTime (s.rdPair Reg.TIM_ALARM_LO.at_lo Reg.TIM_ALARM_HI.at_hi 0)).reachCycle (s.clk.armedAt + 1)
      let s := (s.wr Reg.TIM_ALARM_CTRL.arm 0 0).raise 0x508 0
        (s.rdPair Reg.TIM_ALARM_LO.at_lo Reg.TIM_ALARM_HI.at_hi 0)
      if s.flag Reg.TIM_ALARM_CTRL.rel_en 0 then s.hostRelease (s.rd Reg.TIM_ALARM_CTRL.graph 0) else s)

/-! ### Streams (R275) -/

def State.stream (s : State) (n : Nat) : StreamRt := tabGet StreamRt.empty s.fab.streams n
def State.modStream (s : State) (n : Nat) (f : StreamRt → StreamRt) : State :=
  s.modFab (fun x => { x with streams := tabMod StreamRt.empty x.streams n f })

def State.streamFull (s : State) (n : Nat) : Bool := decide (s.bs.streamDepth n ≤ (s.stream n).items.length)

/-- Level and back-pressure of a stream, which its converter core shows too (Table 10.10): an epoch with back-pressure is counted once, an
episode reported once. -/
def State.showStream (s : State) (n : Nat) : State :=
  let full := s.streamFull n
  let r := s.stream n
  let s := (s.wr Reg.FAB_STREAM_STAT.level n r.items.length).wr Reg.FAB_STREAM_STAT.stalled n (bit full)
  let s := if full && !r.counted then s.count Reg.FAB_STREAM_STAT.stall_cnt n else s
  let s := if full && !r.stalled && s.flag Reg.FAB_CTRL.stall_ev 0 then s.raise 0x305 n s.epoch else s
  let s := if n < 32 then s.wr Reg.ADC_CORE_STAT.stalled (n / 8)
      (bit ((List.range 8).any (fun i => s.flag Reg.FAB_STREAM_STAT.stalled (n / 8 * 8 + i)))) else s
  s.modStream n (fun r => { r with stalled := full, counted := r.counted || full })

/-- An item enters a stream that has room, and releases its graph. -/
def State.streamPush (s : State) (n : Nat) (vals : List Pt) : State :=
  let s := (s.modStream n (fun r => { r with items := r.items ++ [⟨vals, s.cycle⟩] })).showStream n
  s.serveItems (.stream n)

/-! ### Dispatch (R268 to R270) -/

/-- An operation of an active job is ready in the present cycle (R268). -/
def Job.ready (j : Job) (c : Nat) (o : OpEntry) : Bool :=
  !j.begun.contains o.num && (match j.deadline with | some d => decide (c < d) | none => true)
    && (match o.kind with
        | .zdelay _ => true
        | _ => (j.g.edges.filter (fun e => e.dst == o.num)).all (fun e =>
            j.items.any (fun i => i.1 == o.num && i.2.1 == e.inp && decide (i.2.2.2 ≤ c))))

def Job.readyOps (j : Job) (c : Nat) : List OpEntry := j.g.ops.filter (fun o => j.ready c o)

/-- Order of R269. -/
def keyBefore (a b : Nat × Nat × Nat) : Bool :=
  decide (a.1 < b.1) || (a.1 == b.1 && (decide (a.2.1 < b.2.1) || (a.2.1 == b.2.1 && decide (a.2.2 ≤ b.2.2))))

def insertReady (x : (Nat × Nat × Nat) × Job × OpEntry) :
    List ((Nat × Nat × Nat) × Job × OpEntry) → List ((Nat × Nat × Nat) × Job × OpEntry)
  | [] => [x]
  | y :: ys => if keyBefore x.1 y.1 then x :: y :: ys else y :: insertReady x ys

/-- The ready operations of one class, in the order of R269. -/
def State.readyList (s : State) (rt : Bool) : List ((Nat × Nat × Nat) × Job × OpEntry) :=
  ((s.fab.jobs.filter (fun j => j.g.rt == rt)).flatMap (fun j => (j.readyOps s.cycle).map (fun o =>
    ((if rt then j.deadline.getD 0 else j.released, j.g.graph, o.num), j, o)))).foldr insertReady []

/-- The cycle in which the slot of an engine would start its operation. -/
def State.slotStart (s : State) (e : Nat) : Nat :=
  match (s.engine e).run with
  | none => s.cycle + 1
  | some r => max (s.cycle + 1) (r.start + r.op.kind.cycles)

/-- The engine for a real-time operation: earliest start, lowest number on a tie. -/
def State.bestEngine (s : State) (es : List Nat) : Option Nat :=
  (es.filter (fun e => s.engineUsable e && (s.engine e).slot.isNone)).foldl (fun b e =>
    match b with
    | none => some e
    | some x => if s.slotStart e < s.slotStart x ∨ (s.slotStart e = s.slotStart x ∧ e < x) then some e else b) none

/-- The engine for a background operation: the lowest-numbered idle one. -/
def State.idleEngine (s : State) (es : List Nat) : Option Nat :=
  (es.filter (fun e => s.engineUsable e && (s.engine e).run.isNone && (s.engine e).slot.isNone)).min?

/-- The choice of the scheduler in this cycle: an operation and its engine. -/
def State.choice (s : State) : Option (Job × OpEntry × Nat) :=
  match (s.readyList true).findSome? (fun x => (s.bestEngine x.2.1.g.engines).map (fun e => (x.2.1, x.2.2, e))) with
  | some c => some c
  | none => (s.readyList false).findSome? (fun x => (s.idleEngine x.2.1.g.engines).map (fun e => (x.2.1, x.2.2, e)))

/-- The inputs of an operation, in operand order. -/
def Job.inputsOf (j : Job) (o : OpEntry) : List Pt :=
  (List.range o.kind.inputs).map (fun i =>
    ((j.items.find? (fun x => x.1 == o.num && x.2.1 == i)).map (·.2.2.1)).getD Pt.clear)

/-- Take the oldest item of the triggering stream or queue. -/
def State.takeItem (s : State) (j : Job) (k : OpKind) : State × List Pt :=
  match k, j.g.trigger with
  | .srcStream, .stream n =>
    ((s.modStream n (fun r => { r with items := r.items.drop 1 })).showStream n,
     (((s.stream n).items.head?).map (·.vals)).getD [])
  | .srcQueue, .queue q =>
    (s.modQueue q (fun r => { r with items := r.items.drop 1 }), (((s.queue q).items.head?).map (·.vals)).getD [])
  | _, _ => (s, [])

def OpKind.takes : OpKind → Bool
  | .srcStream | .srcQueue => true
  | _ => false

/-- An operation in service presents its point reads or writes to the arbiter (R281). -/
def State.askRun (s : State) (e : Nat) (r : Run) : State :=
  match r.op.kind with
  | .srcPoint l => s.ask e (some r.id) r.start (l.map keyBank)
  | .snkPoint l => s.ask e (some r.id) r.start (l.map (fun x => keyBank (.station x.1)))
  | _ => s

/-- Dispatch one operation (R269). -/
def State.dispatch (s : State) (j : Job) (o : OpEntry) (e : Nat) : State :=
  let r := s.takeItem j o.kind
  let s := r.1
  let z := match o.kind with | .zdelay _ => true | _ => false
  let run : Run := ⟨j.g.graph, j.id, o, if o.kind.takes then r.2 else j.inputsOf o, s.cycle + 1, none⟩
  let s := s.modJob j.g.graph (fun x => { x with
    begun := x.begun ++ [o.num], taken := x.taken + (if o.kind.takes then 1 else 0)
    items := if z then x.items else x.items.filter (fun i => i.1 != o.num) })
  let s := if (s.engine e).run.isNone then
      (s.modEngine e (fun x => { x with run := some run, started := x.started + 1 })).askRun e run
    else s.modEngine e (fun x => { x with slot := some run })
  s.modFab (fun x => { x with
    dispatched := (s.cycle, (if x.dispatched.1 = s.cycle then x.dispatched.2 else []) ++ [e]) })

/-- Longest ready list (FAB_SCHED_STAT). -/
def State.noteReady (s : State) : State :=
  let n := (s.readyList true).length + (s.readyList false).length
  if s.rd Reg.FAB_SCHED_STAT.ready_max 0 < n then s.wr Reg.FAB_SCHED_STAT.ready_max 0 (min n 4095) else s

/-- OP_DISPATCH (R269): the scheduler dispatches its next choice, up to four in a core cycle. -/
def execOpDispatch (s : State) : Host.Outcome State Fault Refusal :=
  let s := s.noteReady
  .next (if s.fab.dispatched.1 = s.cycle ∧ 4 ≤ s.fab.dispatched.2.length then s
    else match s.choice with
      | some (j, o, e) => s.dispatch j o e
      | none => s)

/-! ### Operations (R265, R267) -/

/-- Cell points that an operation reads. -/
def OpKind.reads : OpKind → List PointKey
  | .srcPoint l => l
  | _ => []

/-- What SRC_POINT reads when it starts: P(k) of the epoch in which it starts. -/
def State.readPoints (s : State) (o : OpEntry) : List Pt := o.kind.reads.map s.readPoint

/-- Before the seam that falls in cycle `c` publishes, operations that started earlier have read their points. -/
def State.catchPoints (s : State) (c : Nat) : State :=
  let fix (x : Engine) : Engine := match x.run with
    | some r => if r.start < c ∧ r.got.isNone then { x with run := some { r with got := some (s.readPoints r.op) } } else x
    | none => x
  s.fab.engines.foldl (fun s x => s.modEngine x.1 fix) s

/-- An extended point (R53). -/
def keyExtended : PointKey → Bool
  | .cell _ p => decide (16 ≤ p)
  | .station _ => false

/-- A read of points by an operation at its end: those of an image as they were at its start, extended points now (R55); words whose
errors cannot be corrected arrive poisoned (R61). -/
def State.takePoints (s : State) (r : Run) (errs : List (Nat × Nat)) : List Pt :=
  let ps := r.op.kind.reads
  let got := r.got.getD (s.readPoints r.op)
  (ps.zip (List.range ps.length)).map (fun (p, i) =>
    let v := if keyExtended p then s.readPoint p else got.getD i Pt.clear
    { v with bad := v.bad || errs.any (fun x => x.1 == i && decide (3 ≤ x.2)) })

/-- A word with wrong bits among those that an operation reads beside points (R58): word `i` of its store words, where what cannot be
corrected stays poisoned (R60), or of the item that it takes. -/
def State.storeError (s : State) (k : OpKind) (i errors : Nat) : State :=
  match k.words with
  | some (a, n) =>
    if n ≤ i then s
    else
      let s := if errors ≤ 2 then s
        else s.modFab (fun x => { x with stores := tabMod Pt.clear x.stores (a + i) (fun p => { p with bad := true }) })
      s.reportWord 0 (Config.innerAddr 1 (a + i)) errors
  | none => if k.takes && decide (i < 2) then s.reportWord 0 (Config.innerAddr (if k == .srcQueue then 4 else 5) i) errors else s

/-- Errors that an operation's reads meet (R58), in the image of its start while that is the published one; a word of an image that a seam
has superseded is counted and latched, and no stored copy is poisoned. DESIGN CHOICE (notes/assumptions/125.md). -/
def State.fabricErrors (s : State) (copy : Nat) (r : Run) (errs : List (Nat × Nat)) : State :=
  errs.foldl (fun (s : State) x => match r.op.kind.reads[x.1]? with
    | some p => s.readWord (s.wordOf copy p).1 (s.wordOf copy p).2 (if keyExtended p || r.got.isSome then .single else .published) x.2
    | none => s.storeError r.op.kind (x.1 - r.op.kind.reads.length) x.2) s

/-- The item of a SRC_STREAM or SRC_QUEUE with the poison of words whose errors cannot be corrected (R60, R61). -/
def Run.spoiled (r : Run) (errs : List (Nat × Nat)) : Run :=
  if r.op.kind.takes then
    { r with ins := (r.ins.zip (List.range r.ins.length)).map (fun (p, i) =>
        { p with bad := p.bad || errs.any (fun x => x.1 == i && decide (3 ≤ x.2)) }) }
  else r

/-- The benches that an operation reads come to the front of the replacement order (R54). -/
def State.fabricTouch (s : State) (r : Run) : State :=
  r.op.kind.reads.foldl (fun (s : State) p => match p with
    | .cell c q => if 16 ≤ q then s.touchBench (benchOf c q) false else s
    | .station _ => s) s

/-- A store word as the job sees it (R265). -/
def State.storeWord (s : State) (j : Job) (a : Nat) : Pt :=
  (j.effs.reverse.findSome? (fun e => match e with | .store b p => if b = a then some p else none | _ => none)).getD
    (tabGet Pt.clear s.fab.stores a)

/-- The observer as the job sees it after a sample (R280). -/
def ObsRt.sample (o : ObsRt) (k : Nat) (outside : Bool) : ObsRt :=
  let r : ObsRt := if outside then { o with outside := min (o.outside + 1) 255, inside := 0 }
    else { o with inside := min (o.inside + 1) 255, outside := 0 }
  if !r.active && decide (k ≤ r.outside) then { r with active := true }
  else if r.active && decide (k ≤ r.inside) then { r with active := false } else r

/-- Outputs and effects of an operation that ends, for the job it belongs to. DEDUCED (notes/assumptions/48.md). -/
def State.evalOp (s : State) (j : Job) (r : Run) (errs : List (Nat × Nat)) : State × List Pt × List Effect :=
  let bad := r.ins.any (·.bad)
  let x := r.ins.map (·.v)
  let b0 := r.ins.getD 0 Pt.clear
  let b1 := r.ins.getD 1 Pt.clear
  let clean (l : List Nat) : List Pt := l.map (fun v => ⟨v % 2 ^ 64, false⟩)
  match r.op.kind with
  | .srcPoint _ => (s, s.takePoints r errs, [])
  | .srcStream => (s, r.ins, [])
  | .srcQueue => (s, r.ins, [])
  | .snkPoint l => (s, [], (l.zip r.ins).map (fun (a, p) => Effect.point a.1 p a.2))
  | .snkQueue q => (s, [], [.queue q b0])
  | .zdelay _ => (s, [tabGet Pt.clear s.fab.zdelay r.op.num], [])
  | .cmp _ =>
    let old := tabGet false s.fab.cmp r.op.num
    let g (n : Nat) : Nat := x.getD n 0 % 2 ^ 32
    let v := if fLt f32 (fAdd f32 (g 1) (g 2)) (g 0) then true
      else if fLt f32 (g 0) (fSub f32 (g 1) (g 2)) then false else old
    if bad then (s, [⟨0, true⟩], []) else (s, clean [boolWord v], [.cmp r.op.num v])
  | .observe n k =>
    let d := fSub f32 (x.getD 0 0) (x.getD 1 0)
    let out := fIsNaN f32 d || fLt f32 (x.getD 2 0) (fAbs f32 d)
    let o := (tabGet ObsRt.clear s.fab.obs n).sample k out
    if bad then (s, [⟨0, true⟩], []) else (s, clean [boolWord (!o.active)], [.observe n k (d % 2 ^ 32) out])
  | .alarm c => if b0.bad then (s, [], []) else (s, [], [.alarm (256 + c) (isTrue b0.v) (b1.v % 2 ^ 14)])
  | .event u => if b0.bad || !isTrue b0.v then (s, [], []) else (s, [], [.event u b1.v b1.bad])
  | .release g => if b0.bad || !isTrue b0.v then (s, [], []) else (s, [], [.release g])
  | k =>
    let f1 := s.draw 32
    let f2 := f1.2.draw 32
    let s := f2.2
    let w := match k.words with
      | some (a, n) => (List.range n).map (fun i => s.storeWord j (a + i))
      | none => []
    if bad || w.any (·.bad) then (s, List.replicate k.outputs ⟨0, true⟩, [])
    else
      let y := pureOp k (if k.whole then x else x.map (· % 2 ^ 32)) (w.map (·.v % 2 ^ 32)) f1.1 f2.1
      let base := (k.words.getD (0, 0)).1
      (s, clean y.1, y.2.map (fun u => Effect.store (base + u.1) ⟨u.2, false⟩))

/-- Items of an operation's outputs on its edges, present from the present cycle on. -/
def Job.deliver (j : Job) (op : Nat) (outs : List Pt) (c : Nat) : Job :=
  { j with
    ended := if j.ended.contains op then j.ended else j.ended ++ [op]
    items := j.items ++ (j.g.edges.filter (fun e => e.src == op)).filterMap (fun e =>
      (outs[e.out]?).map (fun p => (e.dst, e.inp, p, c))) }

/-- Index of the tick boundary at or before a cycle, and the cycle of a later one (R272): boundaries restart at every seam.
DEDUCED (notes/assumptions/105.md). -/
def State.ticksAhead (s : State) (n : Nat) : Nat :=
  let len := s.rd Reg.EPO_LEN.cycles 0
  let t := s.rd Reg.FAB_TICK.cycles 0
  let per := ceilDiv len t
  let j := min ((s.cycle - s.fab.seamCycle) / t) (per - 1) + n
  s.fab.seamCycle + j / per * len + j % per * t

/-- Enter the delay lists. -/
def State.delay (s : State) (wake : Nat) (d : Delayed) : State :=
  let s := s.modFab (fun x => { x with delays := x.delays ++ [(wake, d)] })
  let n := s.fab.delays.length
  if s.rd Reg.FAB_SCHED_STAT.delay_max 0 < n then s.wr Reg.FAB_SCHED_STAT.delay_max 0 (min n 4095) else s

/-- The engine's slot starts in the cycle after its operation in service has ended; busy cycles since the seam are counted. -/
def State.nextOnEngine (s : State) (e : Nat) : State :=
  let s := s.modEngine e (fun x =>
    let busy := x.busy + (match x.run with | some r => s.cycle - max r.start s.fab.seamCycle | none => 0)
    match x.slot with
    | some r => { run := some { r with start := s.cycle }, slot := none, busy := busy, started := x.started + 1 }
    | none => { x with run := none, busy := busy })
  match (s.engine e).run with
  | some r => s.askRun e r
  | none => s

/-- OP_COMPLETE (R268): the operation in service on an engine ends its service cycles; the present cycle is the one after them. An operation
of a cancelled job delivers nothing (R277). A background operation stays in service until the benches that it reads stand in frames (R55).
`errs` are the words that it reads with wrong bits, as (index, wrong bits): its points, then its store words, or the words of its item;
`copy` is the physical copy of its points. -/
def execOpComplete (engine : Fin 64) (errs : List (Nat × Nat)) (copy : Fin 3) (s : State) : Host.Outcome State Fault Refusal :=
  .next (match (s.engine engine).run with
    | none => s
    | some run =>
      let r := run.spoiled errs
      let s := (s.reachCycle (r.start + r.op.kind.cycles))
      if r.op.kind.reads.any (fun p => (s.benchMissing p).isSome) then s
      else
      let s := (s.fabricErrors copy r errs).fabricTouch r
      let s := match s.job r.graph with
        | some j =>
          if j.id ≠ r.id then s
          else
            let v := s.evalOp j r errs
            let s := v.1
            match r.op.kind with
            | .delay n => s.delay (s.ticksAhead n) (.item r.graph r.id r.op.num (v.2.1.getD 0 Pt.clear))
            | _ => s.modJob r.graph (fun j => { j.deliver r.op.num v.2.1 s.cycle with effs := j.effs ++ v.2.2 })
        | none => s
      s.nextOnEngine engine)

/-- FAB_TICK (R272): the next tick boundary; entries due leave the delay lists in order of entry. A boundary that would lie at
or beyond the next seam comes with that seam. -/
def execFabTick (s : State) : Host.Outcome State Fault Refusal :=
  let c := s.fab.nextTick
  .next (if s.fab.seamCycle + s.rd Reg.EPO_LEN.cycles 0 ≤ c then s
    else
      let s := s.reachCycle c
      let due := s.fab.delays.filter (fun d => decide (d.1 ≤ c))
      let s := s.modFab (fun x => { x with
        delays := x.delays.filter (fun d => decide (c < d.1)), nextTick := c + s.rd Reg.FAB_TICK.cycles 0 })
      due.foldl (fun s d => match d.2 with
        | .timer g =>
          (match (s.bs.graphEntry g).map (·.trigger) with
           | some (Trigger.timer p) => (s.releaseGraph g c).delay (s.ticksAhead p) (.timer g)
           | _ => s)
        | .item g id op p =>
          (match s.job g with
           | some j => if j.id = id then s.modJob g (fun j => j.deliver op [p] c) else s
           | none => s)) s)

/-! ### The end of a job (R273, R277) -/

/-- A flow whose job has ended is served; members that found its queue full are released by their items (R261, R273). -/
def State.serveFlow (s : State) (f : Nat) : State :=
  let s := (s.modFlow f (fun x => { x with active := none })).wr Reg.FAB_FLOW_STAT.busy f 0
  let s := s.serveQueue f (s.flow f).queue
  (s.bs.fabric.graphs.filter (fun e => e.flow == some f)).foldl (fun s e => s.releaseByItem e) s

/-- A job has ended: its flow is served, and a stream or queue that still holds an item releases its graph in the cycle after (R261). -/
def State.endJob (s : State) (j : Job) : State :=
  let s := s.modFab (fun x => { x with jobs := x.jobs.filter (fun y => y.id != j.id) })
  let s := match s.bs.graphEntry j.g.graph with
    | some e => s.releaseAgain e
    | none => s
  match j.g.flow with
  | some f => s.serveFlow f
  | none => s

/-- The requests, queue reservations and waiting items of a job that ends without a commit (R274, R277, R283). -/
def State.cancelJob (s : State) (j : Job) : State :=
  let s := s.arbitrate.withdraw j.id
  let s := j.g.sinks.foldl (fun s q => s.modQueue q (fun x => { x with reserved := x.reserved - 1 })) s
  s.modFab (fun x => { x with delays := x.delays.filter (fun y => match y.2 with
    | .item _ id _ _ => id != j.id
    | .timer _ => true) })

/-- A commit of an observer's sample (R280). -/
def State.commitSample (s : State) (n k r : Nat) (outside : Bool) : State :=
  let old := tabGet ObsRt.clear s.fab.obs n
  let new := old.sample k outside
  let s := s.modFab (fun x => { x with obs := tabSet ObsRt.clear x.obs n new })
  let s := (s.wr Reg.FAB_OBS_STAT.active n (bit new.active)).wr Reg.FAB_OBS_STAT.run n new.outside
  let s := s.setCond (512 + n) new.active
  if new.active && !old.active then
    ((s.wr Reg.FAB_OBS_STAT.fired n 1).count Reg.FAB_OBS_STAT.activations n).raise 0x302 n (r + 2 ^ 32 * k)
  else if !new.active && old.active then s.raise 0x303 n 0 else s

/-- One effect of a commit; releases and queue readers come after all the others. An EVENT fires its user vector whatever
user_ev is (Table 16.3). DEDUCED (notes/assumptions/50.md). -/
def State.commitEffect (s : State) (g : Nat) : Effect → State
  | .point a p tag => (s.signalChange a (s.work a).v p.v).setWork a ⟨if tag then tagged p.v s.epoch else p.v, p.bad⟩
  | .queue q p => s.modQueue q (fun x => { x with items := x.items ++ [⟨[p], s.cycle⟩], reserved := x.reserved - 1 })
  | .store a p => s.modFab (fun x => { x with stores := tabSet Pt.clear x.stores a p })
  | .zdelay _ _ => s
  | .cmp op b => s.modFab (fun x => { x with cmp := tabSet false x.cmp op b })
  | .alarm c b d => if b then s.condChange c d else s.setCond c false
  | .event u d bad =>
    let s := if u < 48 then s.signal (16 + u) else s
    if s.flag Reg.FAB_CTRL.user_ev 0 then s.raiseAt (0x380 + u) g (if bad then 4 else 0) s.now d else s
  | .observe n k r o => s.commitSample n k r o
  | .release _ => s

/-- ZDELAY stores its input item with its poison at commit (R267). -/
def State.commitZdelay (s : State) (j : Job) : State :=
  (j.g.ops.filter (fun o => match o.kind with | .zdelay _ => true | _ => false)).foldl (fun s o =>
    match j.items.find? (fun i => i.1 == o.num && i.2.1 == 0) with
    | some i => s.modFab (fun x => { x with zdelay := tabSet Pt.clear x.zdelay o.num i.2.2.1 })
    | none => s) s

/-- The first station point that a job writes poisoned. -/
def firstPoisoned : List Effect → Option Nat
  | [] => none
  | .point a p _ :: es => if p.bad then some a else firstPoisoned es
  | _ :: es => firstPoisoned es

/-- The releases and queue appends of a job reach the graphs they name (R277, R510). -/
def State.commitReleases (s : State) (g : Nat) : List Effect → State
  | [] => s
  | .release t :: es =>
    ((match (s.bs.graphEntry t).map (·.trigger) with
      | some (Trigger.graph src) => if src = g then s.releaseGraph t s.cycle else s
      | _ => s) : State).commitReleases g es
  | .queue q _ :: es => (s.serveItems (.queue q)).commitReleases g es
  | _ :: es => s.commitReleases g es

/-- Whether every operation of a job has ended. -/
def Job.done (j : Job) : Bool := j.g.ops.all (fun o => j.ended.contains o.num)

/-- R277: all effects of a job take effect together. -/
def State.commitJob (s : State) (j : Job) : State :=
  let g := j.g.graph
  let cycles := min (s.cycle - j.released) 65535
  let s := (j.effs.foldl (fun s e => s.commitEffect g e) s).commitZdelay j
  let s := match firstPoisoned j.effs with
    | some a => (((s.wr Reg.FAB_GRAPH_STAT.poison_out g 1).count Reg.FAB_POISON_CNT.count 0).markGraph g 3 16).raise 0x30A g a
    | none => s
  let s := (s.wr Reg.FAB_GRAPH_TIME.last g cycles).wr Reg.FAB_GRAPH_TIME.max g (max (s.rd Reg.FAB_GRAPH_TIME.max g) cycles)
  let s := (s.modGraph g (fun r => { r with cycles := cycles })).markGraph g (s.restState j.g) 2
  (s.commitReleases g j.effs).endJob j

/-- JOB_COMMIT (R277): the cycle after the job's last operation ended, before its deadline. -/
def execJobCommit (graph : Fin 128) (s : State) : Host.Outcome State Fault Refusal :=
  .next (match s.job graph with
    | some j =>
      if j.done && (match j.deadline with | some d => decide (s.cycle < d) | none => true) then
        s.mirrorJob (s.commitJob j) j.g.graph j.released
      else s
    | none => s)

/-- What a miss records (R277, R507): operations not completed, the first of them, items lost. DEDUCED (notes/assumptions/49.md). -/
def State.recordMiss (s : State) (e : GraphEntry) (open_ : List Nat) (lost : Nat) : State :=
  let g := e.graph
  let s := ((s.wr Reg.FAB_GRAPH_STAT.deadline_miss g 1).count Reg.FAB_GRAPH_MISS_CNT.misses g).setBit
    Reg.FAB_MISS_MAP.miss (g / 32) (g % 32) true
  ((s.markGraph g (s.restState e) 4).pulseCond (584 + g) 0).raise 0x300 g
    (open_.length + 2 ^ 16 * (open_.min?.getD 0) + 2 ^ 32 * lost)

/-- Releases that wait for their mirror keep their absolute deadline (R390). -/
def State.heldReleases (s : State) : List Waiting :=
  s.red.held.filterMap (fun x => match x with
    | .release g c => (s.bs.graphEntry g).map (fun e =>
        ⟨e, c, if e.rt then some (c + e.cycles (s.rd Reg.EPO_LEN.cycles 0)) else none, false⟩)
    | .decision _ => none)

/-- DEADLINE_MISS (R277): the deadline cycle comes and the job, or a release that waits, has not committed. -/
def execDeadlineMiss (graph : Fin 128) (s : State) : Host.Outcome State Fault Refusal :=
  let g : Nat := graph
  let waits := s.waiting ++ s.heldReleases
  .next (match s.job g with
    | some j =>
      (match j.deadline with
       | none => s
       | some d =>
         let old := s
         let s := (s.reachCycle d).cancelJob j
         old.mirrorJob ((s.recordMiss j.g ((j.g.ops.filter (fun o => !j.ended.contains o.num)).map (·.num)) j.taken).endJob j)
           j.g.graph j.released)
    | none =>
      (match waits.find? (fun w => w.graph == g) with
       | some w =>
         (match w.deadline with
          | none => s
          | some d =>
            let s := (s.reachCycle d).dropWaiting (fun y => y.graph == g)
            let s := { s with red := { s.red with held := s.red.held.filter (fun y => match y with
              | .release h _ => h != g
              | .decision _ => true) } }
            let s := match w.g.flow with
              | some f => s.showFlow f
              | none => s
            (s.recordMiss w.g (w.g.ops.map (·.num)) 0).releaseAgain w.g)
       | none => s))

/-- QUEUE_SPACE_RELEASE (R274): a release that waits for queue space proceeds once every queue has a free entry. -/
def execQueueSpaceRelease (graph : Fin 128) (s : State) : Host.Outcome State Fault Refusal :=
  let g : Nat := graph
  .next (match s.fab.space.find? (fun w => w.graph == g) with
    | some w =>
      if s.hasSpace w.g && s.graphUsable w.g then
        (s.modFab (fun x => { x with space := x.space.filter (fun y => y.graph != g) })).tryStart w
      else s
    | none => s)

/-! ### Enables (R284) and the seam -/

/-- Resources that a graph claims: kind and number (FAB_RES_STAT). -/
def BitStream.claims (b : BitStream) (e : GraphEntry) : List (Nat × Nat) :=
  (b.drive.filter (fun d => d.kind == 1 && d.holderNum == e.graph)).map (fun d => (0, d.channel))
    ++ (match e.trigger with | .stream n => [(2, n)] | .queue q => [(3, q)] | _ => [])
    ++ e.ops.flatMap (fun o => match o.kind with
        | .snkQueue q => [(3, q)]
        | .observe n _ => [(5, n)]
        | .snkPoint l => l.map (fun a => (6, a.1))
        | k => match k.words with | some (a, _) => [(4, a / 4096)] | none => [])

/-- A claim of a graph that an enabled graph of its alternate set holds, with the holder. -/
def State.heldClaim (s : State) (e : GraphEntry) : Option (Nat × Nat × Nat) :=
  let rivals := s.bs.fabric.graphs.filter (fun x =>
    x.graph != e.graph && e.alternate.isSome && x.alternate == e.alternate && (s.graph x.graph).enabled)
  (s.bs.claims e).findSome? (fun c =>
    (rivals.find? (fun x => (s.bs.claims x).contains c)).map (fun x => (c.1, c.2, x.graph)))

/-- The alarm conditions of a graph become false (R511). -/
def State.clearAlarms (s : State) (e : GraphEntry) : State :=
  e.ops.foldl (fun s o => match o.kind with | .alarm c => s.setCond (256 + c) false | _ => s) s

/-- A disable takes effect: no release from this seam on; one that waits is discarded and counted as dropped.
DEDUCED (notes/assumptions/47.md). -/
def State.disableGraph (s : State) (e : GraphEntry) : State :=
  let g := e.graph
  let waits := s.waiting.any (fun w => w.graph == g)
  let s := s.dropWaiting (fun y => y.graph == g)
  let s := match e.flow with
    | some f => s.showFlow f
    | none => s
  let s := if waits then s.dropRelease g e.trigger.code else s
  ((s.modGraph g (fun r => { r with enabled := false, unavailable := false })).markGraph g 0 0).clearAlarms e

/-- An enable takes effect, or is refused because a resource is held. -/
def State.enableGraph (s : State) (e : GraphEntry) : State :=
  let g := e.graph
  match s.heldClaim e with
  | some (kind, res, holder) =>
    let s := (s.wr Reg.FAB_GRAPH_CTRL.enable g 0).wr Reg.FAB_GRAPH_STAT.refused g 1
    let s := ((s.wr Reg.FAB_RES_STAT.resource 0 res).wr Reg.FAB_RES_STAT.kind 0 kind).wr Reg.FAB_RES_STAT.holder 0 holder
    (s.wr Reg.FAB_RES_STAT.valid 0 1).raise 0x304 g (res % 65536 + 2 ^ 16 * kind + 2 ^ 20 * holder)
  | none =>
    let s := s.modGraph g (fun r => { r with enabled := true })
    if s.graphUsable e then (s.markGraph g (if (s.job g).isSome then 3 else 1) 0).releaseByItem e else s.unavailable g

/-- Committed enables of a seam, disables first. -/
def State.fabEnables (s : State) (graphs : List Nat) : State :=
  let l := s.bs.fabric.graphs.filter (fun e => graphs.contains e.graph)
  let s := (l.filter (fun e => !s.flag Reg.FAB_GRAPH_CTRL.enable e.graph && (s.graph e.graph).enabled)).foldl
    (fun s e => s.disableGraph e) s
  (l.filter (fun e => s.flag Reg.FAB_GRAPH_CTRL.enable e.graph && !(s.graph e.graph).enabled)).foldl
    (fun s e => s.enableGraph e) s

/-- Busy cycles and starts of the epoch that ends at cycle `c` reach FAB_ENG_CNT and FAB_UTIL; an operation dispatched that starts later
counts in the next epoch. -/
def State.engineCounts (s : State) (c : Nat) : State :=
  let s := (List.range 64).foldl (fun s i =>
    let x := s.engine i
    let busy := x.busy + (match x.run with | some r => c - max r.start s.fab.seamCycle | none => 0)
    let later := match x.run with | some r => bit (decide (c ≤ r.start)) | none => 0
    ((s.wr Reg.FAB_ENG_CNT.busy i (min busy 65535)).wr Reg.FAB_ENG_CNT.started i (min (x.started - later) 65535)).modEngine i
      (fun y => { y with busy := 0, started := later })) s
  let top := (List.range 64).foldl (fun b e =>
    if s.rd Reg.FAB_ENG_CNT.busy b < s.rd Reg.FAB_ENG_CNT.busy e then e else b) 0
  (s.wr Reg.FAB_UTIL.busy 0 (s.rd Reg.FAB_ENG_CNT.busy top)).wr Reg.FAB_UTIL.engine 0 top

/-- Flags of a new epoch (R262) and the streams' epoch counts. -/
def State.fabEpoch (s : State) : State :=
  let s := s.bs.fabric.graphs.foldl (fun s e =>
    (s.modGraph e.graph (fun r => { r with flags := 0 })).showGraph e.graph) s
  s.fab.streams.foldl (fun s x => (s.modStream x.1 (fun r => { r with counted := false })).showStream x.1) s

/-- The next release of a TIMER graph waits in the delay lists. -/
def State.timed (s : State) (g : Nat) : Bool := s.fab.delays.any (fun d => d.2 == .timer g)

/-- SEAM releases of epoch k (Table 8.1); TIMER graphs begin at the first seam that finds them. -/
def State.fabReleases (s : State) : State :=
  s.bs.fabric.graphs.foldl (fun s e => match e.trigger with
    | .seam d o => if s.epo.k % d = o then s.releaseGraph e.graph s.cycle else s
    | .timer p => if s.timed e.graph then s else s.delay (s.ticksAhead p) (.timer e.graph)
    | _ => s) s

/-! ### Bit-stream start and live replacement (R279) -/

/-- Words of the stores at bit-stream start. -/
def storeInit (es : List StoreEntry) : List (Nat × Pt) :=
  es.foldl (fun t e => (List.range e.init.length).foldl (fun t i =>
    tabSet Pt.clear t (e.store * 4096 + i) ⟨e.init.getD i 0, false⟩) t) []

/-- Initial ZDELAY values and CMP states of the operations not listed in `keep`, put over what is held for those listed. -/
def Fab.initOps (f : Fab) (gs : List GraphEntry) (keep : List Nat) : Fab :=
  let held : Fab := { f with
    zdelay := tabDrop (fun n => !keep.contains n) f.zdelay, cmp := tabDrop (fun n => !keep.contains n) f.cmp }
  ((gs.flatMap (·.ops)).filter (fun o => !keep.contains o.num)).foldl (fun f o =>
    match o.kind with
    | .zdelay v => { f with zdelay := tabSet Pt.clear f.zdelay o.num ⟨v, false⟩ }
    | .cmp b => { f with cmp := tabSet false f.cmp o.num b }
    | _ => f) held

/-- Fields that show the graph table; what the table does not name reads as at reset (R292). -/
def graphFields : List Field :=
  [Reg.FAB_GRAPH_CTRL.rt, Reg.FAB_GRAPH_CTRL.trigger, Reg.FAB_GRAPH_CTRL.deadline, Reg.FAB_GRAPH_STAT.ops, Reg.FAB_FLOW_STAT.members,
   Reg.FAB_STREAM_STAT.depth]

/-- The register fields that show the graph table. -/
def State.showTables (s : State) : State :=
  let s := s.clearFields graphFields
  let f := s.bs.fabric
  let flows := (f.graphs.filterMap (·.flow)).eraseDups
  let obs := f.graphs.flatMap (fun e => e.ops.filterMap (fun o => match o.kind with | .observe n _ => some n | _ => none))
  let s := ((s.wr Reg.FAB_STAT.graphs 0 f.graphs.length).wr Reg.FAB_STAT.flows 0 flows.length).wr
    Reg.FAB_STAT.observers 0 obs.length
  let s := f.graphs.foldl (fun s e =>
    let s := (s.wr Reg.FAB_GRAPH_CTRL.rt e.graph (bit e.rt)).wr Reg.FAB_GRAPH_CTRL.trigger e.graph e.trigger.code
    (s.wr Reg.FAB_GRAPH_CTRL.deadline e.graph e.deadline).wr Reg.FAB_GRAPH_STAT.ops e.graph e.ops.length) s
  let s := flows.foldl (fun s x =>
    s.wr Reg.FAB_FLOW_STAT.members x (f.graphs.filter (fun e => e.flow == some x)).length) s
  f.streams.foldl (fun s x => s.wr Reg.FAB_STREAM_STAT.depth x.1 x.2) s

/-- The fabric when the bit-stream starts. -/
def State.fabStart (s : State) : State :=
  let s := { s with fab := { Fab.reset with stores := storeInit s.bs.fabric.stores, seamCycle := s.cycle, nextTick := s.cycle } }
  let s := s.modFab (fun x => x.initOps s.bs.fabric.graphs [])
  let s := (s.showTables).wr Reg.FAB_CTRL.running 0 (bit (s.domain 4 == 2 || s.domain 5 == 2))
  (s.bs.fabric.graphs.foldl (fun s e =>
    let s := (s.wr Reg.FAB_GRAPH_CTRL.enable e.graph (bit e.enabled)).modGraph e.graph
      (fun r => { r with enabled := e.enabled, state := bit e.enabled })
    s.showGraph e.graph) s).refreshGraphs

/-- A graph that a replacement removes is DISABLED, without the flags of the epoch that ends; a release of it that waits goes on under
its old definition (R279). -/
def State.removeGraph (s : State) (e : GraphEntry) : State :=
  (((s.modGraph e.graph (fun r => { r with enabled := false, unavailable := false, flags := 0 })).markGraph e.graph 0 0).clearAlarms e).wr
    Reg.FAB_GRAPH_CTRL.enable e.graph 0

/-- A replaced fabric section at its seam (R279): `old` is the section it replaces. Graphs added are IDLE if enabled, graphs
removed are DISABLED; stores, ZDELAY values and CMP states that are not carried take their initial values. A graph without an engine is
UNAVAILABLE (R271); an item in the buffer of a new trigger releases its graph in the next cycle (Table 8.1). -/
def State.fabReplace (s : State) (old : Fabric) : State :=
  let new := s.bs.fabric
  let gone := old.graphs.filter (fun e => !new.graphs.any (fun x => x.graph == e.graph))
  let s := gone.foldl (fun s e => s.removeGraph e) s
  let same (g : Nat) : Bool := new.graphs.any (fun e => e.graph == g && old.graphs.any (fun x => x.graph == g && x.trigger == e.trigger))
  let s := s.modFab (fun x => { x with delays := x.delays.filter (fun d => match d.2 with
    | .timer g => same g
    | .item .. => true) })
  let carriedStores := (new.stores.filter (·.carried)).map (·.store)
  let s := s.modFab (fun x => { x with
    stores := (x.stores.filter (fun w => carriedStores.contains (w.1 / 4096))).foldl (fun t w => tabSet Pt.clear t w.1 w.2)
      (storeInit (new.stores.filter (fun e => !e.carried))) })
  let s := s.modFab (fun x => x.initOps new.graphs
    (new.carriedOps.filter (fun n => old.graphs.any (fun e => e.ops.any (fun o => o.num == n)))))
  let added := new.graphs.filter (fun e => !old.graphs.any (fun x => x.graph == e.graph))
  let s := s.showTables
  let s := added.foldl (fun s e =>
    ((s.wr Reg.FAB_GRAPH_CTRL.enable e.graph (bit e.enabled)).modGraph e.graph
      (fun r => { r with enabled := e.enabled })).markGraph e.graph 1 0) s
  new.graphs.foldl (fun s e => if same e.graph then s else s.releaseAgain e) s.refreshGraphs

end Sys2Proof.Machine
end

