-- ==== Sys2Proof/Machine/DrvCarrier.lean ====
section
/-! DEFINITION. Carrier mode of the local drive channels: reloads (R155, R157, R160), periods with their edges, the drop rule and
the bootstrap refresh (R158, R171), and the triggers both deliver (R172). -/

namespace Sys2Proof.Machine

/-- The shift of a reload that changes the phase (R160), as an integer floor. -/
def phaseShift (p : Nat) (new old : Int) : Int := (new - old + (p : Int) / 2) % (p : Int) - (p : Int) / 2

/-- Apply the pending set if reload `r` may (R155); the period that starts lasts P' + shift (R160). -/
def State.drvApplySet (s : State) (ch r : Nat) : State :=
  let d := s.drvRt ch
  match d.pending, d.on with
  | some (x, at_), some y =>
    if r < at_ then s.modDrv ch (fun d => { d with left := y.n, len := y.period })
    else
      let len := ((x.period : Int) + phaseShift x.period x.phase y.phase).toNat
      let s := s.modDrv ch (fun d => ({ d with on := some x, pending := none, left := x.n, len := len }).promote)
      s.wr Reg.DRV_SET.pending ch (bit (s.drvRt ch).pending.isSome)
  | none, some y => s.modDrv ch (fun d => { d with left := y.n, len := y.period })
  | _, none => s

/-- DRV_RELOAD (R155, R157, R172): reload r falls at the start of the next period; a mode written in mode 1 takes effect. -/
def execDrvReload (channel : Fin 24) (s : State) : Host.Outcome State Fault Refusal :=
  let ch : Nat := channel
  let d := s.drvRt ch
  .next (s.mirrorOf (if d.mode ≠ 1 ∨ d.left ≠ 0 then s
    else
      match d.nextMode with
      | some 0 | some 2 | some 3 => s.drvTakeMode ch (d.nextMode.getD 0) d.next s.epo.seam
      | _ =>
        let s := ((s.drvTakeCtl ch).drvApplySet ch d.reload).modDrv ch (fun x => { x with
          nextMode := none, reload := d.reload + 1, lastReload := some d.next })
        let s := if (s.drvRt ch).ctl.relEv then s.raiseAt 0xA10 ch 0 d.next d.reload else s
        s.trigger (.drive ch true)))

/-- The duty of the next period, limited when a refresh is due (R171). -/
def refreshDuty (c : DrvCtl) (starved duty p dead : Nat) : Nat :=
  if c.refreshEn ∧ c.refreshN ≤ starved then min duty (p - c.width - dead) else duty

/-- The edges of a period that starts at `g` and lasts `p` with duty `w` (R158); `up` and `down` say which pulses are driven. A
level that the pins already have makes no edge. -/
def periodEdges (g p w deadUp deadDown : Nat) (hi lo up down low : Bool) : List PinEdge :=
  let off (t : Nat) : PinEdge := ⟨t, false, false, none, some low⟩
  let upper (t : Nat) : PinEdge := ⟨t, true, false, some deadUp, some low⟩
  let lower (t : Nat) : PinEdge := ⟨t, false, true, some deadDown, some low⟩
  let first : List PinEdge :=
    if up then (if hi then [] else (if lo then [off g] else []) ++ [upper (g + deadUp)])
    else (if lo then [] else (if hi then [off g] else []) ++ [lower (g + deadDown)])
  let second : List PinEdge := if up && down then [off (g + w), lower (g + w + deadDown)] else []
  if p = 0 then [] else first ++ second

/-- DRV_PERIOD_START (R158, R168, R171, R172); `fltLow` is the level of DRV_FLT_N at the period's edges. -/
def execDrvPeriodStart (channel : Fin 24) (fltLow : Bool) (s : State) : Host.Outcome State Fault Refusal :=
  let ch : Nat := channel
  let d := s.drvRt ch
  .next (s.mirrorOf (match d.mode, d.on with
    | 1, some x =>
      let s := s.drvFlush ch d.next
      let d := s.drvRt ch
      let dUp := s.drvDead ch true
      let dDown := s.drvDead ch false
      let minP := (s.driveEntry ch).minPulse
      let w := refreshDuty d.ctl d.starved x.duty d.len dDown
      let up := decide (dUp + minP ≤ w)
      let down := decide (dDown + minP ≤ d.len - w)
      let s := if up then s else s.drvDrop ch 0 d.next
      let s := if down then s else s.drvDrop ch 1 (d.next + w)
      let s := s.drvSchedule ch (periodEdges d.next d.len w dUp dDown d.effect.1 d.effect.2 up down fltLow)
      let onTime := if !up then d.len else if down then d.len - w - dDown else 0
      let s := s.modDrv ch (fun d => { d with
        starved := if d.ctl.width ≤ onTime then 0 else d.starved + 1
        next := d.next + d.len, len := x.period, left := d.left - 1 })
      let s := s.drvFlush ch s.now
      s.trigger (.drive ch false)
    | _, _ => s))

end Sys2Proof.Machine
end

