-- ==== Sys2Proof/Machine/Ord.lean ====
section
/-! DEFINITION. Orders, ramps and reference generators (R295 to R315). A seam's commits reach it as the station points that its fences
wrote, in order, with their values, and the registers, with their instances. -/

namespace Sys2Proof.Machine

def State.modOrd (s : State) (f : Ord → Ord) : State := { s with ord := f s.ord }
def State.ramp (s : State) (r : Nat) : RampRt := tabGet RampRt.clear s.ord.ramps r
def State.modRamp (s : State) (r : Nat) (f : RampRt → RampRt) : State :=
  s.modOrd (fun o => { o with ramps := tabMod RampRt.clear o.ramps r f })
def State.gen (s : State) (g : Nat) : GenRt := tabGet GenRt.clear s.ord.gens g
def State.modGen (s : State) (g : Nat) (f : GenRt → GenRt) : State :=
  s.modOrd (fun o => { o with gens := tabMod GenRt.clear o.gens g f })
def State.input (s : State) (i : Nat) : InputRt := tabGet InputRt.clear s.ord.inputs i
def State.modInput (s : State) (i : Nat) (f : InputRt → InputRt) : State :=
  s.modOrd (fun o => { o with inputs := tabMod InputRt.clear o.inputs i f })

def rampPoint (r off : Nat) : Nat := 0x1000 + 16 * r + off
def genPoint (g off : Nat) : Nat := 0x1200 + 16 * g + off
def inputPoint (i off : Nat) : Nat := 0x1300 + 8 * i + off

/-- A word of both images with poison. -/
def State.setBothPt (s : State) (a : Nat) (p : Pt) : State := (s.setPub a p).setWork a p

/-- The block runs: ORD_CTRL.enable, and its power domain is ON. -/
def State.ordRuns (s : State) : Bool := s.flag Reg.ORD_CTRL.enable 0 && s.domain 4 == 2

/-- binary32 at a published station point. -/
def State.pubFloat (s : State) (a : Nat) : Nat := (s.pub a).v % 2 ^ 32

/-! ### Ramp engines: parameters (R300, R304) -/

/-- The committed set of an engine. -/
def State.rampSet (s : State) (r : Nat) : RampPar :=
  let p (i : Nat) : Nat := s.pubFloat (rampPoint r i)
  let l := (s.pub (rampPoint r 14)).v
  ⟨p 2, p 3, p 4, p 5, p 6, p 7, p 8, p 9, l % 2 ^ 32, l / 2 ^ 32 % 2 ^ 32⟩

def above0 (x : Nat) : Bool := fFinite f32 x && fLt f32 0 x

/-- The first point offset that makes a set invalid (R300), none for a valid set. -/
def RampPar.invalid (p : RampPar) : Option Nat :=
  let fin := fFinite f32
  if !fin p.vmax || fLt f32 p.vmax p.vc then some 2
  else if !above0 p.vstart || fLt f32 p.vc p.vstart then some 3
  else if !above0 p.vstop || fLt f32 p.vc p.vstop then some 4
  else if !fin p.vc then some 5
  else if !above0 p.acc1 then some 6
  else if !above0 p.acc2 then some 7
  else if !above0 p.dec1 then some 8
  else if !above0 p.dec2 then some 9
  else if !fin p.lo || !fin p.hi || fLt f32 p.hi p.lo then some 14
  else none

def two64 : Nat := fOfInt f64 2

/-- v² - w² over twice a deceleration, in binary64. -/
def brakeLeg (v w dec : Nat) : Nat := fDiv f64 (fSub f64 (fMul f64 v v) (fMul f64 w w)) (fMul f64 two64 dec)

/-- brake(v) of R303. -/
def brakeOf (v vstop vc dec1 dec2 : Nat) : Nat :=
  if fLe f64 v vstop then 0
  else if fLe f64 v vc then brakeLeg v vstop dec1
  else fAdd f64 (brakeLeg v vc dec2) (brakeLeg vc vstop dec1)

/-- An engine in motion. -/
def RampRt.moving (r : RampRt) : Bool := 1 ≤ r.state && r.state ≤ 4

/-- A sign applied to a binary64 number. -/
def signed64 (neg : Bool) (x : Nat) : Nat := if neg then fNegate f64 x else x

/-- r = s x (tgt - x). -/
def RampRt.remaining (r : RampRt) (tgt : Nat) : Nat := signed64 r.neg (fSub f64 (f32To64 tgt) r.x)

/-- The deferral register bit and the engine's flag. -/
def State.rampDefer (s : State) (r : Nat) (v : Bool) : State :=
  (s.modRamp r (fun x => { x with deferred := v })).setBit Reg.ORD_RAMP_DEFER.deferred 0 r v

/-- The target: target_applied, or the follow input's value in P(k) clamped to the limits. -/
def State.rampTarget (s : State) (e : RampEntry) : Nat × Bool :=
  let x := s.ramp e.ramp
  match e.follow with
  | none => (x.target, false)
  | some i =>
    let v := s.pub (inputPoint i 0)
    let st := (s.pub (inputPoint i 2)).v % 4
    if v.bad ∨ st ≠ 0 ∨ fIsNaN f32 v.v then (x.target, x.clamped)
    else
      let t := v.v % 2 ^ 32
      if fLt f32 t x.par.lo then (x.par.lo, true) else if fLt f32 x.par.hi t then (x.par.hi, true) else (t, false)

/-- A committed parameter set (R300, R304), with a deceleration among its words (`decs`); the remaining distance is to the target that
P(c) gives. -/
def State.rampCommit (s : State) (e : RampEntry) (decs : Bool) : State :=
  let r := e.ramp
  let p := s.rampSet r
  match p.invalid with
  | some off => (s.setBit Reg.ORD_PARAM_INVALID.invalid 0 r true).raise 0xB04 r off
  | none =>
    let x := s.ramp r
    let changed := decs ∨ p.dec1 ≠ x.par.dec1 ∨ p.dec2 ≠ x.par.dec2
    let s := s.modRamp r (fun x => { x with par := p })
    let take := s.modRamp r (fun x => { x with dec1 := p.dec1, dec2 := p.dec2 })
    if !changed then s
    else if !x.moving then take
    else if !(fLt f32 p.dec1 x.dec1) && !(fLt f32 p.dec2 x.dec2) then take.rampDefer r false
    else if fLe f64 (brakeOf x.v (f32To64 x.vstop) (f32To64 x.vc) (f32To64 p.dec1) (f32To64 p.dec2)) (x.remaining (s.rampTarget e).1)
      then take.rampDefer r false
    else (s.rampDefer r true).raise 0xB03 r (f64To32 x.v)

/-- An engine comes to rest: a deferred pair takes effect (R304). -/
def State.rampRest (s : State) (r : Nat) : State :=
  let s := s.setBit Reg.ORD_RAMP_RUN.run 0 r false
  (s.modRamp r (fun x => { x with dec1 := x.par.dec1, dec2 := x.par.dec2 })).rampDefer r false

/-- Motion starts in the direction of a target (R300, R301): the rates of this motion are fixed. -/
def State.rampStart (s : State) (r tgt : Nat) : State :=
  (s.modRamp r (fun x => { x with
    neg := fLt f64 (f32To64 tgt) x.x, v := f32To64 x.par.vstart, state := 1
    vstart := x.par.vstart, vstop := x.par.vstop, vc := x.par.vc })).setBit Reg.ORD_RAMP_RUN.run 0 r true

/-! ### Ramp points and requests (R301, R302) -/

/-- Points +10 to +13 with their epoch tags (R46, Table 9.4). -/
def State.rampShown (s : State) (e : RampEntry) : List (Nat × Nat) :=
  let x := s.ramp e.ramp
  [(10, f64To32 x.x), (11, f64To32 (signed64 x.neg x.v)),
   (12, x.state + 8 * bit x.deferred + 16 * x.status + 128 * bit e.follow.isSome + 256 * bit x.clamped + 2 ^ 16 * x.tag + 2 ^ 24 * x.refusals),
   (13, x.target)].map (fun w => (rampPoint e.ramp w.1, tagged w.2 s.epoch))

/-- The points of an engine in the working image. -/
def State.showRamp (s : State) (e : RampEntry) : State :=
  (s.rampShown e).foldl (fun (s : State) w => s.setPoint w.1 w.2) s

/-- The points and register bits of an engine that goes on with the state of an image, in P(j) too (R305). -/
def State.showResumed (s : State) (e : RampEntry) : State :=
  let x := s.ramp e.ramp
  let s := (s.rampShown e).foldl (fun (s : State) w => s.setBoth w.1 w.2) s
  (s.setBit Reg.ORD_RAMP_RUN.run 0 e.ramp x.moving).setBit Reg.ORD_RAMP_DEFER.deferred 0 e.ramp x.deferred

def State.refuseRamp (s : State) (r status tag : Nat) : State :=
  let s := s.modRamp r (fun x => { x with status := status, refusals := min (x.refusals + 1) 255 })
  ((s.count Reg.ORD_REFUSE_CNT.count 0).setBit Reg.ORD_RAMP_REFUSED.refused 0 r true).raise 0xB01 r (status + 256 * tag)

/-- HALT: only an engine that accelerates, cruises or decelerates. -/
def State.rampHalt (s : State) (r : Nat) : State :=
  let st := (s.ramp r).state
  if 1 ≤ st ∧ st ≤ 3 then s.modRamp r (fun x => { x with state := 4 }) else s

/-- A target outside the limits; a NaN lies outside. -/
def RampPar.outside (p : RampPar) (t : Nat) : Bool := !(fLe f32 p.lo t && fLe f32 t p.hi)

/-- A request (Table 9.6). -/
def State.rampRequest (s : State) (e : RampEntry) (word : Nat) (haltToo : Bool) : State :=
  let r := e.ramp
  let cmd := word % 8
  let tag := word / 256 % 256
  let x := s.ramp r
  if tag = x.tag then s
  else
    let s := s.modRamp r (fun x => { x with tag := tag })
    let t := s.pubFloat (rampPoint r 1)
    let ok (s : State) : State := s.modRamp r (fun x => { x with status := 1 })
    if cmd = 0 ∨ 3 < cmd then s
    else if haltToo then s.refuseRamp r 5 tag
    else if cmd = 2 then ok (s.rampHalt r)
    else if x.moving then s.refuseRamp r 2 tag
    else if cmd = 1 ∧ e.follow.isSome then
      (if (s.rampSet r).invalid.isSome then s.refuseRamp r 4 tag else ok (s.modRamp r (fun x => { x with state := 0 })))
    else if x.par.outside t then s.refuseRamp r 3 tag
    else if (s.rampSet r).invalid.isSome then s.refuseRamp r 4 tag
    else if cmd = 3 then
      ok (s.modRamp r (fun x => { x with x := f32To64 t, target := t, v := 0, state := 0 }))
    else
      let s := ok (s.modRamp r (fun x => { x with target := t }))
      if fOrd f64 (f32To64 t) = fOrd f64 x.x then s.modRamp r (fun x => { x with state := 0 }) else s.rampStart r t

/-- RAMP_HALT_REQUEST (R302): a write of ORD_RAMP_HALT, carried out at the next seam. -/
def execRampHaltRequest (engines : Nat) (s : State) : Host.Outcome State Fault Refusal := byHost (fun s =>
  .next (s.modOrd (fun o => { o with halt := o.halt ||| engines % 2 ^ 32 }))) s

/-- What seam S(c) does to an engine: parameters, then HALT or a request. -/
def State.rampSeam (s : State) (pw : List (Nat × Nat)) (e : RampEntry) : State :=
  let r := e.ramp
  let wrote (off : Nat) : Bool := pw.any (fun w => w.1 == rampPoint r off)
  let s := if [2, 3, 4, 5, 6, 7, 8, 9, 14].any wrote then s.rampCommit e (wrote 8 || wrote 9) else s
  let halt := s.ord.halt / 2 ^ r % 2 == 1
  let s := if halt then s.rampHalt r else s
  let s := if wrote 0 then s.rampRequest e (s.pub (rampPoint r 0)).v halt else s
  s.showRamp e

/-! ### The tick (R299, R303) -/

/-- dt in binary64: (ramp_div + 1) x EPO_LEN.cycles x 2.5 ns, in seconds. -/
def State.rampStep (s : State) : Nat :=
  fOfRat f64 false ((s.rd Reg.ORD_CTRL.ramp_div 0 + 1) * s.rd Reg.EPO_LEN.cycles 0 : Nat) 400000000

/-- The rate and state that a tick gives (R303). -/
def RampRt.accelerate (x : RampRt) (dt rem : Nat) : RampRt :=
  let vstop := f32To64 x.vstop
  let vc := f32To64 x.vc
  let vmax := f32To64 x.par.vmax
  let d1 := f32To64 x.dec1
  let d2 := f32To64 x.dec2
  let acc := if fLe f64 vc x.v then f32To64 x.par.acc2 else f32To64 x.par.acc1
  let dec := if fLt f64 vc x.v then d2 else d1
  let slower (floor : Nat) : Nat :=
    let y := fSub f64 x.v (fMul f64 dec dt)
    if fLt f64 y floor then floor else y
  if x.state = 4 ∨ fLe f64 rem (fAdd f64 (brakeOf x.v vstop vc d1 d2) (fMul f64 x.v dt)) then
    { x with v := slower vstop, state := if x.state = 4 then 4 else 3 }
  else if fLt f64 vmax x.v then { x with v := slower vmax }
  else if x.state = 3 then x
  else if fLt f64 x.v vmax then
    let y := fAdd f64 x.v (fMul f64 acc dt)
    { x with v := if fLt f64 vmax y then vmax else y, state := 1 }
  else { x with state := 2 }

/-- One engine at a tick (R303). -/
def State.rampTick (s : State) (dt : Nat) (e : RampEntry) : State :=
  let r := e.ramp
  let t := s.rampTarget e
  let s := s.modRamp r (fun x => { x with target := t.1, clamped := t.2 })
  let tgt := f32To64 t.1
  let s := if (s.ramp r).state = 0 ∧ e.follow.isSome ∧ fOrd f64 tgt ≠ fOrd f64 (s.ramp r).x then s.rampStart r t.1 else s
  let x := s.ramp r
  let s := if x.state = 0 ∨ x.state = 5 then s
    else
      let rem := x.remaining t.1
      let y := x.accelerate dt rem
      let xn := fAdd f64 y.x (fMul f64 (signed64 y.neg y.v) dt)
      if fLt f64 0 rem ∧ fLe f64 (signed64 y.neg (fSub f64 tgt xn)) 0 then
        let s := s.modRamp r (fun _ => { y with x := tgt, v := 0, state := 0 })
        ((s.rampRest r).setBit Reg.ORD_RAMP_DONE.done 0 r true).raise 0xB00 r t.1
      else if fOrd f64 y.v = fOrd f64 (f32To64 y.vstop) ∧ (y.state = 4 ∨ fLe f64 rem 0) then
        let held := y.state = 4
        let s := (s.modRamp r (fun _ => { y with x := xn, v := 0, state := if held then 5 else 0 })).rampRest r
        if held then s.raise 0xB02 r (f64To32 xn) else s
      else s.modRamp r (fun _ => { y with x := xn })
  s.showRamp e

/-- RAMP_TICK (R299, R303): the ramp tick of the running epoch; one at every (ramp_div + 1)-th seam. -/
def execRampTick (s : State) : Host.Outcome State Fault Refusal :=
  .next (s.mirrorOf (if !s.ordRuns || decide (s.epo.k % (s.rd Reg.ORD_CTRL.ramp_div 0 + 1) ≠ 0) || s.ord.lastTick == some s.epo.k then s
    else s.bs.orders.ramps.foldl (fun s e => s.rampTick s.rampStep e)
      (s.modOrd (fun o => { o with lastTick := some s.epo.k }))))

/-! ### Order inputs (R296 to R298, R315) -/

/-- A holder as events and load errors name it. -/
def Holder.number : Holder → Nat
  | .graph g => g
  | .unit u => 0x100 + u
  | .safety c => 0x200 + c
  | .host => 0xFFFF

/-- A resource that the map gives to a holder other than the host (R431). DEDUCED (notes/assumptions/54.md). -/
def State.heldBy (s : State) (kind n : Nat) : Option Holder :=
  (s.bs.resources.find? (fun r => r.kind == kind && r.num == n && r.holder != .host)).map (·.holder)

/-- ORD_IN_CFG_WRITE (R298, R315). -/
def execOrdInCfgWrite (input : Fin 8) (value : Nat) (s : State) : Host.Outcome State Fault Refusal := byHost (fun s =>
  let i : Nat := input
  let mode := bitsOf value 0 3
  .next (if 4 < mode ∨ bitsOf value 12 8 = 0 then s.wr Reg.ORD_IN_STAT.status i 3
    else if 2 ≤ mode ∧ (s.heldBy 1 i).isSome then s.wr Reg.ORD_IN_STAT.status i 2
    else
      let s := (s.wr Reg.ORD_IN_CFG.mode i mode).wr Reg.ORD_IN_CFG.filt i (bitsOf value 4 8)
      let s := (s.wr Reg.ORD_IN_CFG.gate i (bitsOf value 12 8)).wr Reg.ORD_IN_CFG.src_point i (bitsOf value 20 12)
      (s.wr Reg.ORD_IN_STAT.status i 1).modInput i (fun x => { x with written := true }))) s

/-- Rising edges of the gate, with at least the last three ever accepted: the newest may fall on the next seam. -/
def keepRises (gateCycles now : Nat) (l : List Nat) : List Nat :=
  l.take 3 ++ (l.drop 3).filter (fun c => decide (now ≤ c + gateCycles))

/-- ORD_IN_EDGE (R297): an edge that has passed the filter in this core cycle; inputs run with ORD_CTRL.enable at 1 (Table 9.9). -/
def execOrdInEdge (input : Fin 8) (rising : Bool) (s : State) : Host.Outcome State Fault Refusal :=
  let i : Nat := input
  let x := s.input i
  let c := s.cycle - x.filt
  let t := ({ s.clk with count := c } : Clk).time
  .next (if !s.ordRuns ∨ x.mode < 2 ∨ 4 < x.mode then s
    else
      let s := match x.loss with
        | some k =>
          let s := (s.wr Reg.ORD_IN_STAT.loss i 0).setBit Reg.ORD_IN_LOSS.loss 0 i false
          (s.modInput i (fun x => { x with loss := none })).raise 0xB21 i (s.epoch - k)
        | none => s
      let s := s.modInput i (fun x => { x with lastTime := t })
      if rising then
        let duty := match x.rises.head?, x.fall with
          | some a, some b => if a ≤ b then (c, b - a, c - a) :: x.duty.take 1 else x.duty
          | _, _ => x.duty
        (s.count Reg.ORD_IN_EDGES.edges i).modInput i (fun x => { x with
          since := c, count := (x.count + 1) % 2 ^ 64, rises := keepRises (x.gate * 4000) c (c :: x.rises), duty := duty, fall := none })
      else s.modInput i (fun x => { x with fall := some c }))

/-- INPUT_LOSS (R297): 16 x G has passed since the last rising edge, or since the input started. -/
def execInputLoss (input : Fin 8) (s : State) : Host.Outcome State Fault Refusal :=
  let i : Nat := input
  let x := s.input i
  .next (if !s.ordRuns ∨ x.mode < 2 ∨ 4 < x.mode ∨ x.loss.isSome then s
    else
      let s := s.reachCycle (x.since + 16 * x.gate * 4000)
      let s := (s.wr Reg.ORD_IN_STAT.loss i 1).setBit Reg.ORD_IN_LOSS.loss 0 i true
      ((s.setBit Reg.ORD_IN_LOSS.lost 0 i true).modInput i (fun x => { x with loss := some s.epoch })).raise 0xB20 i x.lastTime)

/-- n - 1 and the span of mode 3 at a seam in cycle `c` (R297); none before two edges. -/
def InputRt.frequency (x : InputRt) (c : Nat) : Option (Nat × Nat) :=
  let inGate := x.rises.filter (fun r => decide (r < c) && decide (c ≤ r + x.gate * 4000))
  let l := if inGate.length < 2 then (x.rises.filter (fun r => decide (r < c))).take 2 else inGate
  match l.head?, l.getLast? with
  | some b, some a => if l.length < 2 then none else some (l.length - 1, b - a)
  | _, _ => none

/-- What the source shows for P(k), from the edges stamped before cycle `c` of S(k): binary32 raw value and the word of point +1; none
when there is no value yet. -/
def State.inputRaw (s : State) (x : InputRt) (c : Nat) : Option (Nat × Nat) :=
  let count : Nat := (x.count + 2 ^ 64 - (x.rises.filter (fun r => decide (c ≤ r))).length) % 2 ^ 64
  if x.mode = 1 then some ((s.pub x.src).v % 2 ^ 32, tagged (s.pub x.src).v s.epo.k)
  else if x.mode = 2 then some (fOfInt f32 count, count)
  else if x.mode = 3 then (x.frequency c).map (fun r => (fOfRat f32 false (r.1 * 400000000 : Nat) r.2, r.1 + 2 ^ 32 * r.2))
  else if x.mode = 4 then (x.duty.find? (fun d => decide (d.1 < c))).map (fun d => (fOfRat f32 false d.2.1 d.2.2, d.2.1 + 2 ^ 32 * d.2.2))
  else none

/-- An input at S(k) (R296, R298); its points belong to P(k). -/
def State.inputSeam (s : State) (i : Nat) : State :=
  let x := s.input i
  let s := if !x.written then s
    else s.modInput i (fun _ => { InputRt.clear with
      mode := s.rd Reg.ORD_IN_CFG.mode i, filt := s.rd Reg.ORD_IN_CFG.filt i, gate := s.rd Reg.ORD_IN_CFG.gate i
      src := s.rd Reg.ORD_IN_CFG.src_point i, restart := true, value := x.value, since := s.cycle })
  let s := if x.written then (s.wr Reg.ORD_IN_STAT.loss i 0).setBit Reg.ORD_IN_LOSS.loss 0 i false else s
  let x := s.input i
  let bad := decide (x.mode = 1) && (s.pub x.src).bad
  let s := if bad && !x.poison then (s.wr Reg.ORD_IN_STAT.poison i 1).raise 0xB22 i x.src else s
  let s := s.modInput i (fun y => { y with poison := bad })
  if x.mode = 0 then s
  else
    let raw := if bad then none else s.inputRaw x s.cycle
    let gain := s.pubFloat (inputPoint i 3)
    let off := s.pubFloat (inputPoint i 4)
    let value := if x.loss.isSome then 0 else match raw with
      | some r => mulAdd gain r.1 off
      | none => x.value
    let s := match raw with
      | some r => (s.setBoth (inputPoint i 1) r.2).wr Reg.ORD_IN_RAW.raw i r.2
      | none => s
    let s := s.setBothFloat (inputPoint i 0) value
    let s := s.setBoth (inputPoint i 2) (tagged (bit x.loss.isSome + 2 * bit bad + 4 * bit x.restart) s.epo.k)
    s.modInput i (fun y => { y with value := value, restart := if raw.isSome then false else y.restart })

/-! ### Reference generators (R306 to R312) -/

/-- Edge units from station time `a` to `b`, negative where `b` lies before `a` (R345). -/
def timeDiff (a b : Nat) : Int := signedOf 64 ((b + 2 ^ 64 - a % 2 ^ 64) % 2 ^ 64)

/-- One turn M. -/
def turn : Nat := 3221225472

/-- Θ(T) (R306), also for a time before T_b; station times differ as 64-bit serial numbers. -/
def GenRt.bigTheta (x : GenRt) (t : Nat) : Nat :=
  (((x.base : Int) + x.f * timeDiff x.at_ t) % ((turn * 2 ^ 32 : Nat) : Int)).toNat

def GenRt.theta (x : GenRt) (t : Nat) : Nat := x.bigTheta t / 2 ^ 32

/-- New terms from station time `t` on; θ is continuous. -/
def GenRt.rebase (x : GenRt) (t f : Nat) : GenRt := { x with base := x.bigTheta t, at_ := t, f := f }

/-- F of a frequency in hertz (R307): exact, to nearest, ties to even. -/
def freqWord (hz : Nat) : Nat := divRne ((fVal f32 hz).natAbs * turn * 2 ^ 32) (f32.unit * 12800000000)

/-- The source of F in mode 1: the new word, or an unusable value. -/
def State.genSource (s : State) (e : GenEntry) : Option Nat :=
  match e.freqPoint with
  | none =>
    let v := s.pub (genPoint e.gen 1)
    if v.bad then none else some (v.v % 2 ^ 48)
  | some p =>
    let v := s.pub p
    let h := v.v % 2 ^ 32
    if v.bad || !fFinite f32 h || (fNeg f32 h && !fIsZero f32 h) then none else some (freqWord h % 2 ^ 48)

/-- Mode 1 at S(k): F from its source (R307); the manual gives no number to the source in the event's data. -/
def State.genFree (s : State) (e : GenEntry) : State :=
  match s.genSource e with
  | some f => if f = (s.gen e.gen).f then s else s.modGen e.gen (fun x => x.rebase s.epo.seam f)
  | none =>
    let d := s.draw 2
    d.2.raise 0xB14 e.gen d.1

/-- eps of R310, wrapped to (-M/2, M/2]. -/
def wrapPhase (d : Int) : Int :=
  let r := d % (turn : Int)
  if turn / 2 < r then r - turn else r

/-- The frequency that a new sample gives (R310). -/
def State.genAdvance (s : State) (e : GenEntry) (th t pth pt : Nat) : State :=
  let g := e.gen
  let dlt : Int := timeDiff pt t
  if dlt ≤ 0 ∨ (e.hold : Int) < dlt then s
  else
    let x := s.gen g
    let d := ((th : Int) - pth) % (turn : Int)
    let eps := wrapPhase ((th : Int) - x.theta t)
    if (e.jumpLimit : Int) < eps.natAbs then
      let s := s.setBit Reg.ORD_GEN_JUMP.jump 0 g true
      ((s.wr Reg.ORD_GEN_STAT.jump g 1).count Reg.ORD_GEN_STAT.jump_cnt g).raise 0xB10 g (wrapInt 32 eps)
    else
      let f := divRneInt ((d + eps) * 2 ^ 32) dlt.toNat
      let out := f < e.fMin ∨ (e.fMax : Int) < f
      let fc : Nat := if f < e.fMin then e.fMin else if (e.fMax : Int) < f then e.fMax else f.toNat
      let s := s.modGen g (fun x => { x.rebase s.epo.seam fc with clamped := out })
      if out then (s.setBit Reg.ORD_GEN_HOLD.clamped 0 g true).raise 0xB13 g (wrapInt 48 f) else s

/-- Mode 2 at S(k): a new sample (R310, R311). -/
def State.genTrack (s : State) (e : GenEntry) : State :=
  match e.track with
  | none => s
  | some p =>
    let g := e.gen
    let a := s.pub p
    let b := s.pub (p + 1)
    let x := s.gen g
    let th := a.v % 2 ^ 32 % turn
    let t := b.v
    if a.bad ∨ b.bad ∨ x.prev.map (·.2) = some t ∨ (x.prev.isNone ∧ t = 0) then s
    else
      let s := match x.holdover with
        | some k =>
          let s := (s.setBit Reg.ORD_GEN_HOLD.holdover 0 g false).wr Reg.ORD_GEN_STAT.holdover g 0
          (s.modGen g (fun x => { x with holdover := none })).raise 0xB12 g (s.epoch - k)
        | none => s
      let s := if x.resync then
          s.modGen g (fun x => { ({ x with base := th * 2 ^ 32, at_ := t }).rebase s.epo.seam x.f with resync := false })
        else match x.prev with
          | some (pth, pt) => s.genAdvance e th t pth pt
          | none => s
      s.modGen g (fun x => { x with prev := some (th, t), since := s.epo.seam })

/-- GEN_HOLDOVER (R311): t_hold has passed since the last new sample, or since mode 2 began. -/
def execGenHoldover (generator : Fin 16) (s : State) : Host.Outcome State Fault Refusal :=
  let g : Nat := generator
  let x := s.gen g
  .next (match s.bs.orders.gens.find? (fun e => e.gen == g) with
    | none => s
    | some e =>
    if !s.ordRuns ∨ x.mode ≠ 2 ∨ x.holdover.isSome then s
    else
      let s := s.reachTime ((x.since + e.hold) % 2 ^ 64)
      let s := (s.setBit Reg.ORD_GEN_HOLD.holdover 0 g true).wr Reg.ORD_GEN_STAT.holdover g 1
      (s.modGen g (fun x => { x with holdover := some s.epoch })).raise 0xB11 g ((x.prev.map (·.2)).getD 0))

/-- A request on point +3 (R307, R311). -/
def State.genRequest (s : State) (e : GenEntry) (word : Nat) : State :=
  let g := e.gen
  let cmd := word % 4
  let tag := word / 256 % 256
  let x := s.gen g
  if tag = x.tag then s
  else
    let s := s.modGen g (fun x => { x with tag := tag, refusal := 0 })
    if cmd = 1 ∧ x.mode = 1 then
      let th := (s.pub (genPoint g 2)).v % 2 ^ 32 % turn
      s.modGen g (fun x => { x with base := th * 2 ^ 32, at_ := s.epo.seam })
    else if cmd = 2 ∧ x.mode = 2 then s.modGen g (fun x => { x with resync := true })
    else if cmd = 1 ∨ cmd = 2 then (s.modGen g (fun x => { x with refusal := 1 })).raise 0xB14 g (cmd + 256 * tag)
    else s

/-- Where an entry of a shape table is kept. -/
def shapePos (bank table n : Nat) : Nat := (bank * 4 + table) * 1536 + n

/-- An entry of the active bank. -/
def State.shape (s : State) (table n : Nat) : Pt :=
  tabGet Pt.clear s.ord.tables (shapePos (s.rd Reg.ORD_TBL_CTRL.bank 0 / 2 ^ table % 2) table n)

/-- A waveform value (R308): interpolated shape times amplitude; poison of any part poisons it. -/
def State.waveform (s : State) (table theta off : Nat) (amp : Pt) : Pt :=
  let th := (theta + off * 2 ^ 21) % turn
  let n := th / 2 ^ 21
  let fr := fOfRat f32 false (th % 2 ^ 21 : Nat) (2 ^ 21)
  let a := s.shape table n
  let b := s.shape table ((n + 1) % 1536)
  let y := fMul f32 amp.v (fAdd f32 a.v (fMul f32 fr (fSub f32 b.v a.v)))
  ⟨y, a.bad || b.bad || amp.bad⟩

/-- Amplitude in effect at S(k). -/
def State.genAmp (s : State) (e : GenEntry) : Pt :=
  let p := match e.ampRamp with
    | some r => s.pub (rampPoint r 10)
    | none => s.pub (genPoint e.gen 0)
  ⟨p.v % 2 ^ 32, p.bad⟩

/-- The points of P(k) (Table 9.7). -/
def State.genOutputs (s : State) (e : GenEntry) : State :=
  let g := e.gen
  let x := s.gen g
  let t0 := (s.seamAt (s.epo.k + e.la)).1
  let t0 := if e.la = 0 then s.epo.seam else t0
  let t1 := (s.seamAt (s.epo.k + e.la + 1)).1
  let amp := s.genAmp e
  let put (s : State) (off t o : Nat) : State :=
    let y := s.waveform e.table (x.theta t) o amp
    s.setBothPt (genPoint g off) ⟨tagged y.v s.epo.k, y.bad⟩
  let s := (s.setBoth (genPoint g 4) (tagged (x.theta t0) s.epo.k)).setBoth (genPoint g 5) x.f
  let s := put (put s 6 t0 0) 7 t1 0
  let s := put (put s 8 t0 1024) 9 t1 1024
  put (put s 10 t0 512) 11 t1 512

/-- Point +12; its bit [3] is ORD_GEN_STAT.jump (Table 9.9). -/
def State.showGen (s : State) (e : GenEntry) : State :=
  let x := s.gen e.gen
  s.setBoth (genPoint e.gen 12) (tagged (x.mode + 4 * bit x.holdover.isSome + 8 * s.rd Reg.ORD_GEN_STAT.jump e.gen + 16 * bit x.clamped
    + 256 * x.tag + 2 ^ 16 * x.refusal) s.epo.k)

/-- A mode committed to ORD_GEN_CTRL: the first new sample of mode 2 sets the phase (R311). -/
def State.genMode (s : State) (e : GenEntry) : State :=
  let g := e.gen
  let m := s.rd Reg.ORD_GEN_CTRL.mode g
  if m = (s.gen g).mode then s
  else
    let s := (s.setBit Reg.ORD_GEN_HOLD.holdover 0 g false).wr Reg.ORD_GEN_STAT.holdover g 0
    s.modGen g (fun x => { x with mode := m, prev := none, resync := true, holdover := none, clamped := false, since := s.epo.seam })

/-- A generator at S(k) (R307 to R311). -/
def State.genSeam (s : State) (pw : List (Nat × Nat)) (e : GenEntry) : State :=
  let g := e.gen
  let s := s.genMode e
  let s := if pw.any (fun w => w.1 == genPoint g 3) then s.genRequest e (s.pub (genPoint g 3)).v else s
  let m := (s.gen g).mode
  let s := if m = 1 then s.genFree e else if m = 2 then s.genTrack e else s
  (if m = 0 then s else s.genOutputs e).showGen e

/-! ### Shape tables (R309) -/

/-- Swaps committed at S(k). -/
def State.tableSwaps (s : State) : State :=
  let w := s.rd Reg.ORD_TBL_CTRL.swap 0
  (List.range 4).foldl (fun s n =>
    if w / 2 ^ n % 2 = 1 then
      (s.setBit Reg.ORD_TBL_CTRL.bank 0 n (!s.bitAt Reg.ORD_TBL_CTRL.bank 0 n)).raise 0xB15 n s.epo.k
    else s) s

/-- A staged or armed package replaces shape table n (R443). -/
def State.shapeStaged (s : State) (n : Nat) : Bool :=
  (s.cfg.staged.map (fun p => p.parts.any (fun x => match x with
    | .shape m _ => m == n
    | .fabric .. => false
    | .reaction .. => false))).getD false

/-- An access to ORD_TBL_DATA (R309): the shadow entry at the index, which then advances. DEDUCED (notes/assumptions/52.md). -/
def State.tableAccess (s : State) (write : Bool) (req value : Nat) : State :=
  let n := s.rd Reg.ORD_TBL_SEL.table 0
  let i := s.rd Reg.ORD_TBL_ADDR.index 0
  let pos := shapePos (1 - s.rd Reg.ORD_TBL_CTRL.bank 0 / 2 ^ n % 2) n i
  if write && s.shapeStaged n then s.rejectWrite Reg.ORD_TBL_DATA.data.addr
  else
    let s := if write then s.modOrd (fun o => { o with tables := tabSet Pt.clear o.tables pos ⟨value % 2 ^ 32, false⟩ })
      else
        let p := tabGet Pt.clear s.ord.tables pos
        let done : ReadDone := ⟨req, Reg.ORD_TBL_DATA.data.addr, if p.bad then .poisoned else .ok, [p.v]⟩
        { s with host := { s.host with rdata := some done } }
    if s.flag Reg.ORD_TBL_ADDR.auto_inc 0 then s.wr Reg.ORD_TBL_ADDR.index 0 ((i + 1) % 1536) else s

/-- TABLE_DATA_WRITE (R309, R443). -/
def execTableDataWrite (write : Bool) (req value : Nat) (s : State) : Host.Outcome State Fault Refusal :=
  if write then byHost (fun s => .next (s.tableAccess true req value)) s
  else byReader req Reg.ORD_TBL_DATA.data.addr (fun s => .next (s.tableAccess false req value)) s

/-! ### The seam and the start -/

/-- What S(k) does to the block. -/
def State.ordSeam (s : State) (pw : List (Nat × Nat)) : State :=
  let s := s.tableSwaps
  if !s.ordRuns then s
  else
    let s := State.forEach 8 (fun i s => s.inputSeam i) s
    let s := s.bs.orders.ramps.foldl (fun s e => s.rampSeam pw e) s
    let s := s.modOrd (fun o => { o with halt := 0 })
    let s := s.askPoints 87 (s.bs.orders.ramps.flatMap (fun e => (List.range 4).map (fun i => .station (rampPoint e.ramp (10 + i))))
      ++ s.bs.orders.gens.flatMap (fun e => (List.range 9).map (fun i => .station (genPoint e.gen (4 + i)))))
    s.bs.orders.gens.foldl (fun s e => s.genSeam pw e) s

/-- Both banks hold the shape section. -/
def shapeInit (shapes : List (List Nat)) : List (Nat × Pt) :=
  (List.range 2).foldl (fun t b => (List.range shapes.length).foldl (fun t n =>
    ((List.range (shapes.getD n []).length).foldl (fun t i =>
      tabSet Pt.clear t (shapePos b n i) ⟨(shapes.getD n []).getD i 0, false⟩) t)) t) []

/-- An engine at rest at the position of its table, with the set that its points hold. -/
def State.restRamp (s : State) (e : RampEntry) : State :=
  let p := s.rampSet e.ramp
  s.modRamp e.ramp (fun _ => { RampRt.clear with
    x := f32To64 (e.init.getD 10 0 % 2 ^ 32), target := e.init.getD 13 0 % 2 ^ 32, par := p, vstart := p.vstart, vstop := p.vstop
    vc := p.vc, dec1 := p.dec1, dec2 := p.dec2, tag := (s.pub (rampPoint e.ramp 0)).v / 256 % 256 })

/-- A generator in a mode from station time `t` on, with the initial phase of its table (R312). -/
def State.startGen (s : State) (e : GenEntry) (mode t : Nat) : State :=
  s.modGen e.gen (fun _ => { GenRt.clear with
    mode := mode, base := e.thetaInit * 2 ^ 32, at_ := t, since := t, f := e.init.getD 1 0 % 2 ^ 48, tag := (s.pub (genPoint e.gen 3)).v / 256 % 256 })

/-- The block when the bit-stream starts. -/
def State.ordStart (s : State) : State :=
  let o := s.bs.orders
  let s := s.modOrd (fun _ => { Ord.reset with tables := shapeInit o.shapes })
  let s := (s.wr Reg.ORD_CTRL.ramp_div 0 s.bs.profile.rampDiv).wr Reg.ORD_STAT.ramps 0 o.ramps.length
  let s := (s.wr Reg.ORD_STAT.gens 0 o.gens.length).wr Reg.ORD_STAT.inputs 0 o.inputs.length
  let s := o.inputs.foldl (fun s e =>
    let i := e.input
    let s := (s.wr Reg.ORD_IN_CFG.mode i e.mode).wr Reg.ORD_IN_CFG.filt i e.filt
    let s := (s.wr Reg.ORD_IN_CFG.gate i e.gate).wr Reg.ORD_IN_CFG.src_point i e.src
    let s := (s.setBoth (inputPoint i 3) e.gain).setBoth (inputPoint i 4) e.offset
    s.modInput i (fun _ => { InputRt.clear with
      mode := e.mode, filt := e.filt, gate := e.gate, src := e.src, restart := true })) s
  let s := o.ramps.foldl (fun s e =>
    let s := (List.range 15).foldl (fun s i => s.setBoth (rampPoint e.ramp i) (e.init.getD i 0)) s
    s.restRamp e) s
  o.gens.foldl (fun s e =>
    let g := e.gen
    let s := (s.wr Reg.ORD_GEN_CTRL.mode g e.mode).wr Reg.ORD_GEN_CTRL.table g e.table
    let s := (s.wr Reg.ORD_GEN_CTRL.la g e.la).wr Reg.ORD_GEN_CTRL.retain g (bit e.retain)
    let s := (s.wr Reg.ORD_GEN_CTRL.amp_ramp_en g (bit e.ampRamp.isSome)).wr Reg.ORD_GEN_CTRL.amp_ramp g (e.ampRamp.getD 0)
    let s := (List.range 4).foldl (fun s i => s.setBoth (genPoint g i) (e.init.getD i 0)) s
    s.startGen e e.mode s.now) s

end Sys2Proof.Machine
end

