-- ==== Sys2Proof/Machine/Builder.lean ====
section
/-! DEFINITION. The downlink: blocks of the Salkimen link (R177, R195, R196), dead time and the interlock and drop rules (R106,
R146 to R152), placement of configuration commands (R181, R182), sequences (R200) and the frame (R178, R142, R187). -/

namespace Sys2Proof.Machine

/-! ### Blocks and checks -/

/-- CRC-8 of a command or report block (R195). -/
def blockCrc (payload lane epoch : Nat) : Nat := crc8 (bytesBE 7 payload ++ [lane, epoch])

/-- CRC-8 of a CARRIER's two blocks (R195). -/
def carrierCrc (b1 b2 lane epoch : Nat) : Nat := crc8 (bytesBE 7 b1 ++ bytesBE 8 b2 ++ [lane, epoch])

/-- A PRIO payload (Table 5.2, R195). -/
def prioPayload (safety block : Bool) (claim : Nat) (fixed : Bool) (lane : Nat) : Nat :=
  let x := controlBlock 0x71 (bit safety * 2 ^ 49 + bit block * 2 ^ 48 + claim * 2 ^ 16 + bit fixed * 2 ^ 8)
  x + crc8 (bytesBE 7 x ++ [lane])

/-! ### Local units (R353) -/

/-- x_loc = round_even(x x 32 / I). -/
def Clk.toLocal (c : Clk) (x : Int) : Int := divRneInt (x * 32 * 2 ^ 48) c.inc

def State.loc (s : State) (x : Nat) : Nat := (s.clk.toLocal x).toNat

/-! ### Lane words -/

/-- The accepted one-way delay of a lane or group (R354). -/
def State.laneDelay (s : State) (e : LaneEntry) : Nat :=
  if s.rd Reg.TIM_LANE_STAT.state e.lane = 0 then e.dmax
  else (Int.fdiv (s.rd Reg.TIM_LANE_ACC.rt_acc e.lane + signedOf 16 (s.rd Reg.LANE_CORR.asym e.lane)) 2).toNat

/-- The fabric's priority path blocks a lane (R201, R289). -/
def State.fabricBlocks (s : State) (l : Nat) : Bool :=
  s.bs.laneSets.any (fun x => s.bitAt Reg.FAB_PRIO_STAT.blocked 0 x.1 && x.2.contains l)

/-- What frames the unit sends: 2 commands under its claim (in DEMOTED until its next seam), 1 shadow frames, 0 none (Table
12.1, R380, R387). -/
def State.frameKind (s : State) : Nat :=
  let r := s.rd Reg.RED_STAT.role 0
  if r = 3 ∨ (r = 5 ∧ s.red.demoteNow) then 2
  else if r = 4 ∨ r = 5 then 1
  else if r = 1 ∧ s.flag Reg.RED_CTRL.warm_lanes 0 then 1
  else 0

/-- The claim on the lanes: 0 in shadow frames. -/
def State.laneClaim (s : State) : Nat := if s.frameKind = 2 then s.rd Reg.RED_CLAIM.claim 0 else 0

/-- Whether the word in effect blocks a lane, and whether its origin is safety (R201). -/
def State.prioWord (s : State) (l : Nat) : Bool × Bool :=
  if s.frameKind = 2 then (s.fabricBlocks l || (s.lane l).safBlock, (s.lane l).safBlock) else (true, false)

/-- A priority block reached the cells of a lane: their next SET brings DEADTIME (R148), carriers have ended (R201). -/
def State.laneBlocked (s : State) (l : Nat) : State :=
  (s.bs.laneCells l).foldl (fun s e => s.modCell e.cell (fun r => { r with deadWithSet := true, carrier := false })) s

/-- Insert a PRIO block on a lane or group (R201, R220), in the next stripe position. -/
def State.insertPrio (s : State) (l : Nat) (safety block : Bool) : State :=
  let s := match s.bs.laneEntry l with
    | some e => s.sendNext e (prioPayload safety block s.laneClaim false l)
    | none => s
  if block then s.laneBlocked l else s

/-! ### Dead time (R146, R147) -/

/-- The arm whose table governs a cell: its own, or its front entry's (R182). -/
def State.governing (s : State) (e : CellEntry) : Option ArmEntry :=
  (match e.arm with
   | some a => some a
   | none => e.front.bind s.cellArm).bind s.bs.armEntry

/-- A dead time of the arm table in units of 10 ns. -/
def cellSteps (ps : Nat) : Nat := ps / 10000

/-- Dead time of a cell in units of 10 ns. -/
def State.deadTime (s : State) (m : ArmEntry) (c : Nat) : Nat :=
  if !m.adaptive then cellSteps m.dtFixed
  else
    let p3 := s.pub (livePos c 3)
    let p5 := s.pub (livePos c 5)
    let x := p3.v % 2 ^ 32
    let v := fVal f32 x
    if p3.bad || p5.bad || !fFinite f32 x || decide (v < 0) || decide ((4095 * 5 * f32.unit : Int) < v * 64)
        || (p5.v / 1024 % 2 == 1) || (p5.v / 2048 % 2 == 1) then
      ((s.cell c).deadUsed).getD (cellSteps m.dtMax)
    else
      let n := (v + fVal f32 m.dtMargin).toNat
      let d := ceilDiv n (10 * f32.unit)
      min (max d (cellSteps m.dtMin)) (cellSteps m.dtMax)

/-! ### Interlock and drop (R106, R150 to R152) -/

/-- The countdown's value for a reload beyond the epoch (R192). -/
def noCountdown : Nat := 0x1FFFFF

/-- Bits that no cell takes: both switches of a leg, or S3 or S4 of a half-bridge (R106). -/
def illegalBits (fb : Bool) (b : Nat) : Bool := b % 4 == 3 || b / 4 % 4 == 3 || (!fb && decide (4 ≤ b % 16))

/-- The bits a command asks for that must pass the interlock. -/
def CellCmd.refused (fb : Bool) : CellCmd → Option Nat
  | .set b _ => if illegalBits fb b then some b else none
  | .pair b _ c _ => if illegalBits fb b then some b else if illegalBits fb c then some c else none
  | .test b _ _ => if illegalBits fb b then some b else none
  | _ => none

/-- Whether the drop rule removes a command; `gap` is t_dead + min_pulse in edge units (R150, R151).
DEDUCED (notes/assumptions/39.md). -/
def CellCmd.drops (last : Option Nat) (st gap : Nat) : CellCmd → Bool
  | .set _ e => match last with | some e1 => tooSoon e1 (st + e) gap | none => false
  | .pair _ e1 _ e2 => decide (e2 < e1 + gap) || (match last with | some l => tooSoon l (st + e1) gap | none => false)
  | _ => false

/-- Commands that the builder sends: every edge within the target epoch of `units` edge units (R140, R141), TEST only to a cell that
is blocked and no negative duty to a half-bridge (R185). -/
def CellCmd.sendable (fb blocked : Bool) (units : Nat) : CellCmd → Bool
  | .set _ e => decide (e < units)
  | .block e => decide (e < units)
  | .retire e => decide (e < units)
  | .pair _ e1 _ e2 => decide (e1 < units) && decide (e2 < units)
  | .test _ e _ => blocked && decide (e < units)
  | .carrier q _ _ _ _ => fb || decide (0 ≤ q)
  | .nop => true
  | .hold => true

/-- Opcode and edge of point 2 (R508). -/
def CellCmd.shown : CellCmd → Nat × Nat
  | .nop => (0, 0)
  | .hold => (4, 0)
  | .set _ e => (1, e)
  | .pair _ _ _ e => (2, e)
  | .carrier _ _ _ _ cd => (3, cd.getD noCountdown)
  | .block e => (5, e)
  | .retire e => (8, e)
  | .test _ e _ => (6, e)

/-- The cell is blocked at a station time: every switch off, no carrier, and the state of no TEST lasts until then (R185). -/
def CellRt.blocked (r : CellRt) (t : Nat) : Bool :=
  r.built == 0 && !r.carrier && (match r.testUntil with | some x => notAfter x t | none => true)

/-- The interlock first, then what may be sent at all, then the drop rule; each puts HOLD in the command's place.
DEDUCED (notes/assumptions/104.md). -/
def State.checkCommand (s : State) (m : ArmEntry) (e : CellEntry) (t st units : Nat) (cmd : CellCmd) : State × CellCmd :=
  let c := e.cell
  match cmd.refused e.fb with
  | some b =>
    let s := ((s.count Reg.ARM_INTERLOCK_CNT.count m.arm).raise 0x10C m.arm (c + 2 ^ 16 * b)).bump c 32
    (s.modCell c (fun r => { r with drops := (t :: r.drops).take 8 }), .hold)
  | none =>
    if !cmd.sendable e.fb ((s.cell c).blocked (st + cmd.shown.2)) units then (s, .hold)
    else if cmd.drops (s.cell c).lastEdge st (s.deadTime m c * 128 + m.minPulse) then
      let s := ((s.count Reg.ARM_DROPPED_PULSES.count m.arm).raise 0x10D m.arm c).bump c 33
      (s.modCell c (fun r => { r with drops := (t :: r.drops).take 8 }), .hold)
    else (s, cmd)

/-! ### Encoding (Tables 5.3 to 5.5, 5.12, R200) -/

/-- The sequence of a cell's next command; NOP takes none. -/
def State.nextSeq (s : State) (c : Nat) : Nat × State :=
  ((s.cell c).seq, s.modCell c (fun r => { r with seq := (r.seq + 1) % 256 }))

/-- A one-block command (Table 5.3). -/
def commandBlock (lane epoch slot op bits edge dead seq : Nat) : Nat :=
  let x := slot * 2 ^ 56 + op * 2 ^ 52 + bits % 16 * 2 ^ 48 + edge % 2 ^ 24 * 2 ^ 24 + dead % 256 * 2 ^ 16 + seq * 2 ^ 8
  x + blockCrc x lane epoch

/-- The blocks of a CARRIER (Table 5.12). -/
def carrierBlocks (lane epoch slot seq : Nat) (q : Int) (reload period phase cd : Nat) : List Nat :=
  let b1 := slot * 2 ^ 56 + 3 * 2 ^ 52 + cd / 2 ^ 16 * 2 ^ 47 + wrapInt 15 q * 2 ^ 32 + reload % 2 ^ 16 * 2 ^ 16 + seq * 2 ^ 8
  let b2 := period % 2 ^ 24 * 2 ^ 40 + phase % 2 ^ 24 * 2 ^ 16 + cd % 2 ^ 16
  [b1 + carrierCrc b1 b2 lane epoch, b2]

/-- Encode a command other than a configuration command. -/
def State.encode (s : State) (lane t slot c dead : Nat) (cmd : CellCmd) : State × List Nat :=
  let ep := t % 256
  let one (op bits edge d : Nat) : State × List Nat :=
    let q := s.nextSeq c
    (q.2, [commandBlock lane ep slot op bits edge d q.1])
  match cmd with
  | .nop => (s, [commandBlock lane ep slot 0 0 0 0 0])
  | .hold => one 4 0 0 0
  | .set b e => one 1 b (s.loc e) dead
  | .block e => one 5 0 (s.loc e) 0
  | .retire e => one 8 0 (s.loc e) 0
  | .test b e d => one 6 b (s.loc e) d
  | .pair b1 e1 b2 e2 =>
    let q := s.nextSeq c
    (q.2, [commandBlock lane ep slot 2 b1 (s.loc e1) dead q.1, commandBlock lane ep slot 2 b2 (s.loc e2) dead q.1])
  | .carrier d r p ph cd =>
    let q := s.nextSeq c
    (q.2, carrierBlocks lane ep slot q.1 d r (s.loc p) (s.loc ph) (match cd with | some x => s.loc x | none => noCountdown))

/-- Send an owed DEADTIME (R148). -/
def State.sendDead (s : State) (m : ArmEntry) (lane t slot c : Nat) : State × List Nat :=
  let d := s.deadTime m c
  let q := s.nextSeq c
  (q.2.modCell c (fun r => { r with oweDead := none, deadSent := some d }),
   [commandBlock lane (t % 256) slot 7 0 (s.loc m.minPulse) d q.1])

/-- Send an owed WATCHDOG (R205). -/
def State.sendWatch (s : State) (m : ArmEntry) (lane t slot c : Nat) : State × List Nat :=
  let q := s.nextSeq c
  (q.2.modCell c (fun r => { r with oweWatch := none }),
   [commandBlock lane (t % 256) slot 9 m.wdAction m.wdTimeout 0 q.1])

def CellRt.owes (r : CellRt) : Bool := r.oweDead.isSome || r.oweWatch.isSome
def CellRt.overdue (r : CellRt) : Bool := decide (16 ≤ r.oweDead.getD 0) || decide (16 ≤ r.oweWatch.getD 0)

/-- The first owed configuration command: DEADTIME before WATCHDOG. -/
def State.sendFirst (s : State) (m : ArmEntry) (lane t slot c : Nat) : State × List Nat :=
  if (s.cell c).oweDead.isSome then s.sendDead m lane t slot c else s.sendWatch m lane t slot c

/-- Owed configuration commands in place of a two-block command (R182). -/
def State.sendOwed (s : State) (m : ArmEntry) (lane t slot c : Nat) : State × List Nat :=
  let a := s.sendFirst m lane t slot c
  let b := if (a.1.cell c).owes then a.1.sendFirst m lane t slot c else a.1.encode lane t slot c 0 .nop
  (b.1, a.2 ++ b.2)

/-- Whether the command gives way to owed configuration commands (R182). -/
def CellCmd.yields (r : CellRt) : CellCmd → Bool
  | .pair _ _ _ _ => r.overdue
  | .carrier _ _ _ _ cd => r.owes && (!r.carrier || cd.isNone || r.overdue)
  | _ => false

/-- The two blocks of an allotment (R181, R182), and the command that went out, if one did. -/
def State.place (s : State) (m : ArmEntry) (lane t slot c dead : Nat) (cmd : CellCmd) :
    State × List Nat × Option CellCmd :=
  let r := s.cell c
  if cmd.yields r then
    let x := s.sendOwed m lane t slot c
    (x.1, x.2, none)
  else
    match cmd with
    | .pair _ _ _ _ => let x := s.encode lane t slot c dead cmd; (x.1, x.2, some cmd)
    | .carrier _ _ _ _ _ => let x := s.encode lane t slot c dead cmd; (x.1, x.2, some cmd)
    | _ =>
      if r.owes then
        let x := s.sendFirst m lane t slot c
        let y := x.1.encode lane t slot c dead cmd
        (y.1, x.2 ++ y.2, some cmd)
      else
        let y := s.encode lane t slot c dead cmd
        let z := y.1.encode lane t slot c 0 .nop
        (z.1, y.2 ++ z.2, some cmd)

/-! ### What the builder records -/

/-- What a command that has passed its checks calls for before it is placed: DEADTIME and WATCHDOG owed (R148, R182, R205); no carrier
starts on the default dead time, a changed dead time is owed in carrier mode whatever the command, and a retired cell owes nothing. DEDUCED
(notes/assumptions/36.md). -/
def State.owe (s : State) (m : ArmEntry) (c : Nat) (cmd : CellCmd) : State :=
  let d := s.deadTime m c
  let inCarrier := (s.arm m.arm).mode == 2 && s.armState m.arm == 2
  s.modCell c (fun r =>
    match cmd with
    | .nop => if r.retired then { r with oweDead := none, oweWatch := none } else r
    | .retire _ => { r with oweDead := none, oweWatch := none, deadWithSet := false, watchDone := true }
    | _ =>
      let sets := match cmd with | .set _ _ => true | .pair _ _ _ _ => true | _ => false
      let car := match cmd with | .carrier _ _ _ _ _ => true | _ => false
      let r := if sets && r.deadWithSet then { r with oweDead := some 0, deadWithSet := false } else r
      let r := if r.oweDead.isNone && ((car && r.deadSent.isNone) || ((car || inCarrier) && m.adaptive && r.deadSent != some d)) then
        { r with oweDead := some 0 } else r
      if r.watchDone then r else { r with oweWatch := some 0, watchDone := true })

/-- The record of a command that went out: state, last edge, dead time, carrier, and points 2 and 10 (R508, Table 1.7). -/
def State.recordCommand (s : State) (c t st dead : Nat) (cmd : Option CellCmd) : State :=
  let x := cmd.getD .nop
  let edge := st + x.shown.2
  let s := s.modCell c (fun r =>
    match x with
    | .set b _ => { r with built := b, lastEdge := some edge, deadUsed := some dead, carrier := false }
    | .pair _ _ b _ => { r with built := b, lastEdge := some edge, deadUsed := some dead, carrier := false }
    | .block _ => { r with built := 0, lastEdge := some edge, carrier := false, deadWithSet := true }
    | .retire _ => { r with built := 0, lastEdge := some edge, carrier := false }
    | .test _ _ d => { r with built := 0, lastEdge := some edge, testUntil := some (edge + d * 12800) }
    | .carrier q _ p ph cd =>
      (match cd with
       | some d => { r with built := 0, carrier := true, sets := ((st + d, p, ph, q) :: r.sets).take 2 }
       | none => { r with built := 0 })
    | _ => r)
  let s := s.setLive c 2 ((s.cell c).built + 16 * x.shown.1 + 2 ^ 8 * (x.shown.2 % 2 ^ 24) + 2 ^ 32 * (t % 2 ^ 32))
  match x with
  | .set _ _ => s.setLive c 10 (tagged (fOfInt f32 (10 * dead)) s.epoch)
  | .pair _ _ _ _ => s.setLive c 10 (tagged (fOfInt f32 (10 * dead)) s.epoch)
  | _ => s

/-- One more frame for what stays owed (R182). -/
def CellRt.age (r : CellRt) : CellRt := { r with oweDead := r.oweDead.map (· + 1), oweWatch := r.oweWatch.map (· + 1) }

/-- The cell has reported that its permanent bypass is closed (fault group 7, Table 5.11). -/
def State.bypassClosed (s : State) (c : Nat) : Bool := (s.pub (livePos c 6)).v % 16 == 7

/-- The allotment of one bound cell: a cell whose permanent bypass is closed gets no command (R185). -/
def State.allot (s : State) (e : CellEntry) (lane t st units slot : Nat) (cmd : CellCmd) : State × List Nat :=
  match s.governing e with
  | none => (s, (s.encode lane t slot e.cell 0 .nop).2 ++ (s.encode lane t slot e.cell 0 .nop).2)
  | some m =>
    let c := e.cell
    let dead := s.deadTime m c
    if s.bypassClosed c then
      (s.recordCommand c t st dead none, (s.encode lane t slot c 0 .nop).2 ++ (s.encode lane t slot c 0 .nop).2)
    else
      let x := s.checkCommand m e t st units cmd
      let y := (x.1.owe m c x.2).place m lane t slot c dead x.2
      ((y.1.recordCommand c t st dead y.2.2).modCell c CellRt.age, y.2.1)

/-- Bound cells of a lane in ascending slot order. -/
def State.boundCells (s : State) (l : Nat) : List (Nat × CellEntry) :=
  let ins (x : Nat × CellEntry) (ys : List (Nat × CellEntry)) : List (Nat × CellEntry) :=
    ys.takeWhile (fun y => y.1 < x.1) ++ x :: ys.dropWhile (fun y => y.1 < x.1)
  ((s.bs.laneCells l).filterMap (fun e => (s.cell e.cell).slot.map (fun p => (p, e)))).foldr ins []

/-- The command of a cell for a target epoch: another source's (R106), or the one decided, or NOP. A retired cell receives its RETIRE
and then NOP, and nothing else (R99). DEDUCED (notes/assumptions/104.md). -/
def State.commandOf (s : State) (extra : List (Nat × CellCmd)) (c t : Nat) : CellCmd :=
  let decided := (((s.cell c).cmds.find? (fun x => x.1 == t)).map (·.2)).getD .nop
  match extra.find? (fun x => x.1 == c) with
  | some x => if (s.cell c).retired then decided else x.2
  | none => decided

/-- The command blocks of a frame. -/
def State.allotments (s : State) (extra : List (Nat × CellCmd)) (lane t st units : Nat) :
    List (Nat × CellEntry) → List Nat → State × List Nat
  | [], out => (s, out)
  | (slot, e) :: r, out =>
    let x := s.allot e lane t st units slot (s.commandOf extra e.cell t)
    x.1.allotments extra lane t st units r (out ++ x.2)

/-- h_l is checked against d_l: once per episode (R232). -/
def State.checkDelay (s : State) (e : LaneEntry) : State :=
  let h := s.laneDelay e
  let late := e.dmax < h
  let was := s.flag Reg.LANE_DELAY.overLimit e.lane
  let s := (s.wr Reg.LANE_DELAY.h e.lane h).wr Reg.LANE_DELAY.overLimit e.lane (bit late)
  if late && !was then s.raise 0x208 e.lane h else s

/-- The frame for target k + lead, `idle` rows of IDLE after the last row; its BEACON crosses the pins of the reference member at `tb`
(R229), and `inserted` PRIO blocks fell in it. DEDUCED (notes/assumptions/104.md). -/
def State.sendFrame (s : State) (e : LaneEntry) (tb inserted idle : Nat) (extra : List (Nat × CellCmd)) : State :=
  let l := e.lane
  let s := s.checkDelay e
  let t := s.epo.k + s.lead
  let st := (s.seamAt t).1
  let units := ((s.seamAt (t + 1)).1 + 2 ^ 64 - st) % 2 ^ 64
  let h := s.laneDelay e
  let claim := s.laneClaim
  let arrive := wrapInt 24 (s.clk.toLocal ((st : Int) - (tb + h)))
  let report := s.loc (units - e.guard - h - e.uplinkUnits)
  let ident := decide (0 < (s.lane l).ident)
  let w := s.prioWord l
  let head := [controlBlock 0x17 (t % 2 ^ 24 * 2 ^ 32 + claim),
    controlBlock 0x2B (arrive * 2 ^ 32 + st % 2 ^ 32),
    controlBlock 0x4D (report % 2 ^ 24 * 2 ^ 32 + (e.detail - 1) * 2 ^ 28 + bit ident * 2 ^ 27 + l),
    prioPayload w.2 w.1 claim true l]
  let cells := s.boundCells l
  let body := if s.frameKind = 2 then s.allotments extra l t st units cells []
    else (s, cells.flatMap (fun x => [commandBlock l (t % 256) x.1 0 0 0 0 0, commandBlock l (t % 256) x.1 0 0 0 0 0]))
  let s := if w.1 then body.1.laneBlocked l else body.1
  let ps := head ++ body.2
  let rest := (true, head.getD 3 0) :: (body.2.map (fun p => (false, p)) ++ [(true, eofPayload ps)])
  let s := (s.sendIdle e idle).sendRows e (head.take 3) rest
  let s := s.modLane l (fun r => { r with
    ident := r.ident - 1, sent := ((t % 2 ^ 16, tb) :: r.sent.filter (fun x => x.1 != t % 2 ^ 16)).take 16 })
  if 3 ≤ inserted then
    (s.count Reg.LANE_FRAME_CNT.overruns l).raise 0x24A l ((inserted - 2) % 256 + 2 ^ 16 * (t % 2 ^ 32))
  else s

/-- DOWNLINK_FRAME (R178). A lane or group that is not up, or none of whose transmitters runs, sends none, and the commands built for that
target are discarded (R220). `extra` holds commands of other sources than the arm engine (R106). -/
def execDownlinkFrame (lane : Fin 96) (tb inserted idle : Nat) (extra : List (Nat × CellCmd)) (s : State) :
    Host.Outcome State Fault Refusal :=
  .next (match s.bs.laneEntry lane with
    | some e => if s.laneUp lane && s.transmits e && s.frameKind != 0 then s.sendFrame e tb inserted idle extra
      else s
    | none => s)

end Sys2Proof.Machine
end

