-- ==== Sys2Proof/Machine/Uplink.lean ====
section
/-! DEFINITION. The uplink: round trips and their tracker (R207, R354 to R356), the checks of a report frame (R188), the live and
extended points that a report feeds (R189, R61, R506, Table 1.8), discovery and binding (R208, R209). -/

namespace Sys2Proof.Machine

/-! ### Round trips -/

/-- Mean to nearest, ties to even (R354).. -/
def meanRne (l : List Nat) : Nat := if l.length = 0 then 0 else divRne l.sum l.length

def spread (l : List Nat) : Nat := l.foldl max 0 - l.foldl min (l.headD 0)

/-- The last 16 values. -/
def last16 (l : List Nat) : List Nat := l.drop (l.length - 16)

/-- One lane's bit of TIM_HELD_MAP0 to 2. -/
def State.setHeldMap (s : State) (l : Nat) (v : Bool) : State :=
  if l < 32 then s.setBit Reg.TIM_HELD_MAP0.held 0 l v
  else if l < 64 then s.setBit Reg.TIM_HELD_MAP1.held 0 (l - 32) v
  else s.setBit Reg.TIM_HELD_MAP2.held 0 (l - 64) v

/-- The lane enters HELD (R355). -/
def State.laneHold (s : State) (l rt : Nat) : State :=
  let s := ((s.wr Reg.TIM_LANE_STAT.state l 2).wr Reg.LANE_DELAY.held l 1).setHeldMap l true
  let s := (s.wr Reg.TIM_LANE_REJ.rt_cand l 0).wr Reg.TIM_LANE_REJ.taken l 0
  (s.modLane l (fun r => { r with trips := [] })).raise 0x502 l (rt % 2 ^ 24)

/-- A measured round trip in the lane's tracker (R354, R355). DEDUCED (notes/assumptions/43.md). -/
def State.trackTrip (s : State) (l rt : Nat) : State :=
  let st := s.rd Reg.TIM_LANE_STAT.state l
  let lim := s.rd Reg.TIM_STEP_LIMIT.lane 0
  let trips := last16 ((s.lane l).trips ++ [rt])
  if st = 0 then
    let s := s.modLane l (fun r => { r with trips := trips })
    if trips.length = 16 ∧ spread trips ≤ lim then
      let m := meanRne trips
      (((s.wr Reg.TIM_LANE_ACC.rt_acc l m).wr Reg.TIM_LANE_STAT.state l 1).wr Reg.TIM_LANE_STAT.run l 0).raise 0x50A l m
    else s
  else if st = 1 then
    let acc := s.rd Reg.TIM_LANE_ACC.rt_acc l
    if (rt - acc) + (acc - rt) ≤ lim then
      ((s.modLane l (fun r => { r with trips := trips })).wr Reg.TIM_LANE_ACC.rt_acc l (meanRne trips)).wr
        Reg.TIM_LANE_STAT.run l 0
    else
      let n := s.rd Reg.TIM_LANE_STAT.run l + 1
      let s := (s.count Reg.TIM_LANE_STAT.rejects l).wr Reg.TIM_LANE_STAT.run l n
      if s.rd Reg.TIM_STEP_CNT.n 0 ≤ n then s.laneHold l rt else s
  else
    let s := s.modLane l (fun r => { r with trips := trips })
    (s.wr Reg.TIM_LANE_REJ.rt_cand l (meanRne trips)).wr Reg.TIM_LANE_REJ.taken l trips.length

/-- DELAY_ACCEPT (R356): a write of LANE_DELAY.accept. -/
def execDelayAccept (lane : Fin 96) (s : State) : Host.Outcome State Fault Refusal := byHost (fun s =>
  let l : Nat := lane
  .next (if s.rd Reg.TIM_LANE_STAT.state l ≠ 2 ∨ s.rd Reg.TIM_LANE_REJ.taken l = 0 then s
    else
      let v := s.rd Reg.TIM_LANE_REJ.rt_cand l
      let s := (s.wr Reg.TIM_LANE_ACC.rt_acc l v).wr Reg.TIM_LANE_STAT.state l 1
      let s := ((s.wr Reg.LANE_DELAY.held l 0).setHeldMap l false).wr Reg.TIM_LANE_STAT.run l 0
      let s := s.raise 0x503 l (v + 2 ^ 32 * s.rd Reg.LANE_CORR.asym l)
      match s.bs.laneEntry l with
      | some e => s.checkDelay e
      | none => s)) s

/-- LANE_REACQUIRE (R354): a write of TIM_LANE_CTRL.reacquire for the lane in TIM_LANE_SEL. -/
def execLaneReacquire (s : State) : Host.Outcome State Fault Refusal := byHost (fun s =>
  let l := s.rd Reg.TIM_LANE_SEL.lane 0
  let s := ((s.wr Reg.TIM_LANE_STAT.state l 0).wr Reg.TIM_LANE_STAT.run l 0).modLane l (fun r => { r with trips := [] })
  let s := (s.wr Reg.LANE_DELAY.held l 0).setHeldMap l false
  .next (match s.bs.laneEntry l with
    | some e => s.checkDelay e
    | none => s)) s

/-- An uplink ECHO whose first bit crossed the pins at `te` (R207, R353). DEDUCED (notes/assumptions/43.md). -/
def State.echo (s : State) (e : LaneEntry) (payload te : Nat) : State :=
  let l := e.lane
  let tag := payload / 2 ^ 40 % 2 ^ 16
  let q := payload / 2 ^ 16 % 2 ^ 24
  match (s.lane l).sent.find? (fun x => x.1 == tag) with
  | none => s.raise 0x24B l (tag + 2 ^ 16 * bit (q == 0xFFFFFF))
  | some x =>
    if q = 0xFFFFFF then s.raise 0x24B l (tag + 2 ^ 16)
    else
      let rt := wrapInt 24 ((te : Int) - x.2 - (divRne (q * s.clk.inc) (32 * 2 ^ 48) : Nat))
      let s := (s.wr Reg.LANE_RTT.rt l rt).wr Reg.LANE_RTT.valid l 1
      (s.trackTrip l rt).checkDelay e

/-! ### A report's points -/

/-- Statistics of a range point (R56, R49). -/
def State.bumpRange (s : State) (c p v : Nat) : State :=
  { s with epo := { s.epo with accs := tabMod Acc.clear s.epo.accs (extPos c p) (fun a =>
    { a with range := match a.range with
      | none => some (v, v)
      | some (lo, hi) => some (if fLt f32 v lo then v else lo, if fLt f32 hi v then v else hi) }) } }

def State.bumpBy (s : State) (c p n : Nat) : State :=
  { s with epo := { s.epo with accs := tabMod Acc.clear s.epo.accs (extPos c p) (fun a => { a with count := a.count + n }) } }

/-- The absolute change of a cell's energy (extended point 36). -/
def State.bumpEnergy (s : State) (c old new : Nat) : State :=
  { s with epo := { s.epo with accs := tabMod Acc.clear s.epo.accs (extPos c 36) (fun a =>
    { a with energy := fAdd f64 a.energy (fAbs f64 (fSub f64 (f32To64 new) (f32To64 old))) }) } }

def State.keepLast (s : State) (c p v : Nat) : State :=
  { s with epo := { s.epo with accs := tabMod Acc.clear s.epo.accs (extPos c p) (fun a => { a with last := some v }) } }

/-- cell_energy: 0.5 x C x cap_v^2, rounded once. DEDUCED (notes/assumptions/42.md). -/
def cellEnergy (cap v : Nat) : Nat :=
  if fFinite f32 cap then fOfRat f32 false (fVal f32 cap * (fVal f32 v) ^ 2) (2 * f32.unit ^ 3) else fMul f32 cap (fMul f32 v v)

/-- Statistics that every valid report feeds (R49, Table 1.8). -/
def State.reportStats (s : State) (e : CellEntry) (before applied group volt delay : Nat) : State :=
  let c := e.cell
  let was := contribOf e.fb before
  let is := contribOf e.fb applied
  let s := if is ≠ 0 ∧ was = 0 then s.bump c 22 else s
  let s := if is ≠ 0 then s.bump c 24 else if applied = 0 then s.bump c 26 else s.bump c 25
  let s := if group ≠ 0 then s.bump c 34 else s
  (s.bumpRange c 16 volt).bumpRange c 20 delay

/-- Statistics of the temperature in effect (Table 1.8: range, hot epochs), once one has been reported. -/
def State.tempStats (s : State) (e : CellEntry) : State :=
  let p := s.work (livePos e.cell 4)
  if p.bad || !(s.cell e.cell).tempSeen then s
  else
    let v := p.v % 2 ^ 32
    let s := s.bumpRange e.cell 18 v
    match e.tempLimit with
    | some lim => if fLt f32 lim v then s.bump e.cell 37 else s
    | none => s

/-- The type 1 block of a cell for epoch t (R189, R61). An insertion is counted against the switch bits of point 1 that stood before, also
where those were poisoned. DESIGN CHOICE (notes/assumptions/123.md). -/
def State.report1 (s : State) (e : CellEntry) (t b : Nat) : State :=
  let c := e.cell
  let applied := b / 2 ^ 48 % 16
  let status := b / 2 ^ 12 % 256
  let group := b / 2 ^ 8 % 16
  let volt := fOfRat f32 false (b / 2 ^ 32 % 2 ^ 16 : Nat) 20
  let delay := fOfRat f32 false (b / 2 ^ 20 % 2 ^ 12 * 5 : Nat) 64
  let before := (s.work (livePos c 1)).v % 16
  let p12 := s.work (livePos c 12)
  let energy := cellEnergy e.cap volt
  let s := if p12.bad then s else s.bumpEnergy c (p12.v % 2 ^ 32) energy
  let s := ((s.setLive c 0 (tagged volt t)).setLive c 1 (tagged applied t)).setLive c 3 (tagged delay t)
  let r := s.cell c
  let held := s.flag Reg.LANE_DELAY.held e.lane
  let s := s.setLive c 5 (status + 2 ^ 8 * bit r.retired + 2 ^ 9 * bit (r.excluded || r.retired) + 2 ^ 11 * bit held
    + 2 ^ 13 * (status / 32 % 2))
  let p6 := s.work (livePos c 6)
  let old := p6.v % 16
  let detail := if p6.bad then 0 else p6.v / 2 ^ 16 % 2 ^ 16
  let s := s.setLive c 6 (group + 2 ^ 16 * detail + 2 ^ 32 * (t % 2 ^ 32))
  let s := (s.setLive c 7 t).setLive c 12 (tagged energy t)
  let s := s.modCell c (fun r => { r with reported := some t })
  let s := s.reportStats e before applied group volt delay
  if group ≠ 0 ∧ (p6.bad ∨ old = 0) then s.raise 0x24C e.lane (c + 2 ^ 16 * group + 2 ^ 20 * (detail % 2 ^ 12)) else s

/-- The type 2 block of a cell (R189). Point 8 is extended from the count that it held, also from under a poison, and that step is added to
the extended count of switchings. DESIGN CHOICE (notes/assumptions/123.md). -/
def State.report2 (s : State) (e : CellEntry) (t b : Nat) : State :=
  let c := e.cell
  let temp := fOfInt f32 (signedOf 8 (b / 2 ^ 44 % 256))
  let low := b / 2 ^ 28 % 2 ^ 16
  let p8 := s.work (livePos c 8)
  let step := (low + 2 ^ 16 - p8.v % 2 ^ 16) % 2 ^ 16
  let detail := b / 2 ^ 8 % 2 ^ 12
  let p6 := s.work (livePos c 6)
  let s := ((s.setLive c 4 (tagged temp t)).setLive c 8 (min (p8.v + step) (2 ^ 64 - 1))).setLive c 11 (b / 2 ^ 20 % 256)
  let s := s.modCell c (fun r => { r with tempSeen := true })
  let s := s.setLive c 6 (p6.v % 2 ^ 16 + 2 ^ 16 * detail + 2 ^ 32 * (t % 2 ^ 32))
  s.bumpBy c 23 step

/-- What the status flags and the fault group of a report bring about (R152, R185, R200, R205).
DEDUCED (notes/assumptions/37.md). DEDUCED (notes/assumptions/39.md). -/
def State.reportFlags (s : State) (e : CellEntry) (t b : Nat) : State :=
  let c := e.cell
  let status := b / 2 ^ 12 % 256
  let group := b / 2 ^ 8 % 16
  let a := ((s.governing e).map (·.arm)).getD 0
  let s := if status / 8 % 2 = 1 then (s.bump c 31).raise 0x243 e.lane c else s
  let s := if status / 16 % 2 = 1 then
      (((s.count Reg.ARM_DROPPED_PULSES.count a).raise 0x10D a c).bump c 33).modCell c (fun r => { r with drops := (t :: r.drops).take 8 })
    else s
  let s := if status / 64 % 2 = 1 then
      (s.bump c 30).raise 0x244 e.lane (c + 2 ^ 16 * ((s.work (livePos c 11)).v % 256))
    else s
  let s := if group = 8 then (s.modCell c (fun r => { r with deadWithSet := true, carrier := false })).raise 0x245 e.lane c else s
  if group ≠ 0 then
    let p6 := s.work (livePos c 6)
    s.keepLast c 35 ((p6.v % 16 + p6.v / 2 ^ 16 % 2 ^ 12 * 16) % 2 ^ 16 + 2 ^ 16 * (t % 2 ^ 48))
  else s

/-! ### Frames -/

/-- The reports of one position: its type 1 block and the block that followed it, if any. -/
structure Report where
  slot : Nat
  first : Nat
  second : Option Nat
deriving DecidableEq, Repr

/-- The data blocks of a frame as reports, by position from `p` (R186); none when they are out of form. -/
def parseReports : Nat → List Nat → Option (List Report)
  | _, [] => some []
  | p, b :: bs =>
    if b / 2 ^ 56 = p ∧ b / 2 ^ 52 % 16 = 1 then
      match bs with
      | c :: cs =>
        if c / 2 ^ 56 = p ∧ (c / 2 ^ 52 % 16 = 2 ∨ c / 2 ^ 52 % 16 = 3) then
          (parseReports (p + 1) cs).map (⟨p, b, some c⟩ :: ·)
        else (parseReports (p + 1) (c :: cs)).map (⟨p, b, none⟩ :: ·)
      | [] => some [⟨p, b, none⟩]
    else none

/-- Every block is where R186 puts it: type 2 when (t mod m) = (p mod m), or type 3 at every position. -/
def reportsDue (t m : Nat) (rs : List Report) : Bool :=
  let isIdent (r : Report) : Bool := match r.second with | some b => b / 2 ^ 52 % 16 == 3 | none => false
  rs.all isIdent || rs.all (fun r => match r.second with
    | some b => b / 2 ^ 52 % 16 == 2 && t % m == r.slot % m
    | none => t % m != r.slot % m)

/-- An ALIGN block. -/
def isAlign (x : Nat × Nat) : Bool := x.1 == 2 && x.2 / 2 ^ 56 == 0xD4

/-- The blocks of a frame in order, from the rows received and the tx_mask of the last marker (R224): of each row the members in the
mask, ascending. ALIGN blocks stand between (R186), and a marker row gives the mask from there on; in a group IDLE fills positions that
the frame does not use. -/
def readRows (e : LaneEntry) : Nat → List (List (Nat × Nat)) → List (Nat × Nat)
  | _, [] => []
  | mask, row :: rows =>
    match row.find? (fun x => isAlign x && alignValid x.2) with
    | some x => readRows e (x.2 / 2 ^ 20 % 16) rows
    | none =>
      let read := ((List.range row.length).zip row).filter (fun x =>
        (e.bond == .none || mask / 2 ^ x.1 % 2 == 1) && !isAlign x.2
          && !(e.bond != .none && x.2.1 == 2 && x.2.2 / 2 ^ 56 == 0xB2))
      read.map (·.2) ++ readRows e mask rows

/-- SOF, ECHO, reports and EOF of a frame, given its blocks as (sync header, payload). DEDUCED (notes/assumptions/38.md). -/
def splitFrame (bs : List (Nat × Nat)) : Option (Nat × Nat × List Nat × Nat) :=
  match bs with
  | (2, a) :: (2, b) :: r =>
    match r.getLast? with
    | some (2, z) =>
      let mid := r.dropLast
      if a / 2 ^ 56 = 0x17 ∧ b / 2 ^ 56 = 0x4D ∧ z / 2 ^ 56 = 0x8E ∧ mid.all (fun x => x.1 == 1) then
        some (a, b, mid.map (·.2), z)
      else none
    | _ => none
  | _ => none

/-- The cell bound to a position. -/
def State.cellAt (s : State) (l p : Nat) : Option CellEntry :=
  (s.bs.laneCells l).find? (fun e => (s.cell e.cell).slot == some p)

def reportCrcOk (lane t b : Nat) : Bool := b % 256 == blockCrc b lane (t % 256)

/-- A discarded frame (R188): 1 CRC, 2 SOF epoch, 3 late, 4 format. -/
def State.discardFrame (s : State) (l cause t : Nat) : State :=
  (s.count Reg.LANE_FRAME_CNT.up_discard l).raise 0x242 l (cause + 2 ^ 16 * (t % 2 ^ 16))

/-- The position that each block of a frame belongs to (R186), when the frame has as many blocks as its epoch or ident asks for. -/
def blockOwners (positions m t n : Nat) : Option (List Nat) :=
  let due := (List.range positions).flatMap (fun p => if t % m = p % m then [p, p] else [p])
  let ident := (List.range positions).flatMap (fun p => [p, p])
  if due.length = n then some due else if ident.length = n then some ident else none

/-- Positions with a block that failed its CRC-8, each once: by the block's place in the frame, by its slot field where the number of
blocks is not the frame's. DEDUCED (notes/assumptions/38.md). -/
def badSlots (lane epoch positions m t : Nat) (mid : List Nat) : List Nat :=
  let owner : List Nat := (blockOwners positions m t mid.length).getD (mid.map (· / 2 ^ 56))
  (((owner.zip mid).filter (fun x => !reportCrcOk lane epoch x.2)).map (·.1)).eraseDups

/-- A slot whose own block failed its CRC-8: live point 13 and extended point 28 (R188). -/
def State.countBadBlock (s : State) (l p : Nat) : State :=
  match s.cellAt l p with
  | none => s
  | some e =>
    let w := s.work (livePos e.cell 13)
    let s := if w.bad then s else s.setLive e.cell 13 (min (w.v + 1) (2 ^ 64 - 1))
    s.bump e.cell 28

/-- Take the reports of a frame (R188, R189). -/
def State.takeReports (s : State) (l t : Nat) : List Report → State
  | [] => s
  | r :: rs =>
    let s := match s.cellAt l r.slot with
      | none => s
      | some e =>
        let s := match r.second with
          | some b => if b / 2 ^ 52 % 16 = 2 then s.report2 e t b else s
          | none => s
        ((s.report1 e t r.first).tempStats e).reportFlags e t r.first
    s.takeReports l t rs

/-! ### Discovery (R208, R209) -/

def identSerial (b : Nat) : Nat := b / 2 ^ 8 % 2 ^ 40
def identKind (b : Nat) : Nat := b / 2 ^ 48 % 16

/-- Positions that report a serial. -/
def serialAt (ids : List (Nat × Nat)) (n : Nat) : List Nat := (ids.filter (fun x => identSerial x.2 == n)).map (·.1)

/-- The serial that a cell's position has to report: its own, or its front entry's with bit 39 set (R243). -/
def State.expectedSerial (s : State) (ids : List (Nat × Nat)) (e : CellEntry) : Option Nat :=
  match e.front with
  | none => e.serial
  | some c =>
    match (s.cell c).slot with
    | none => none
    | some p => (ids.find? (fun x => x.1 == p)).map (fun x => identSerial x.2 % 2 ^ 39 + 2 ^ 39)

/-- Check the kind and serial at a bound position (R209). DEDUCED (notes/assumptions/41.md). -/
def State.checkIdentity (s : State) (ids : List (Nat × Nat)) (e : CellEntry) (p : Nat) : State :=
  match ids.find? (fun x => x.1 == p) with
  | none => s
  | some x =>
    let wrong := match s.expectedSerial ids e with
      | some n => identSerial x.2 != n
      | none => false
    if wrong || identKind x.2 != (if e.fb then 2 else 1) then
      s.raise 0x246 e.lane (e.cell + 2 ^ 16 * p + 2 ^ 24 * identKind x.2)
    else s

/-- A serial found at no position, or at two (R209). -/
def State.reportSerial (s : State) (ids : List (Nat × Nat)) (e : CellEntry) : State :=
  match e.serial with
  | none => s
  | some n => match serialAt ids n with
    | [] => s.raise 0x247 e.lane e.cell
    | p :: q :: _ => s.raise 0x248 e.lane (e.cell + 2 ^ 16 * p + 2 ^ 24 * q)
    | [_] => s

/-- First discovery: bind one cell, then check it (R208). DEDUCED (notes/assumptions/41.md). -/
def State.bindCell (s : State) (ids : List (Nat × Nat)) (e : CellEntry) : State :=
  let place : Option Nat := match e.front, e.slot, e.serial with
    | some c, _, _ => (s.cell c).slot.map (· + 1)
    | none, some p, _ => some p
    | none, none, some n => (match serialAt ids n with | [p] => some p | _ => none)
    | none, none, none => none
  match place with
  | some p => (s.modCell e.cell (fun r => { r with slot := some p })).checkIdentity ids e p
  | none => if e.front.isSome then s else s.reportSerial ids e

/-- A bound cell at a rediscovery (R209): what its position reports, and where a by-serial cell's serial is found. -/
def State.recheckCell (s : State) (ids : List (Nat × Nat)) (c : CellEntry) : State :=
  let s := match (s.cell c.cell).slot with
    | some p => s.checkIdentity ids c p
    | none => s
  if c.slot.isNone && c.front.isNone then s.reportSerial ids c else s

/-- Identity blocks of a frame: binding at the first discovery, fronts before their isolation entries (R243), checks at a rediscovery
(R208, R209). -/
def State.identities (s : State) (e : LaneEntry) (rs : List Report) : State :=
  let l := e.lane
  let ids := rs.filterMap (fun r => match r.second with
    | some b => if b / 2 ^ 52 % 16 = 3 then some (r.slot, b) else none
    | none => none)
  if ids.isEmpty || (s.lane l).checked then s
  else
    let s := if rs.length = e.positions then s else s.raise 0x249 l (rs.length % 2 ^ 9 + 2 ^ 16 * e.positions)
    let cells := s.bs.laneCells l
    let s := if (s.lane l).bound then cells.foldl (fun s c => s.recheckCell ids c) s
      else (cells.filter (·.front.isNone) ++ cells.filter (·.front.isSome)).foldl (fun s c => s.bindCell ids c) s
    s.modLane l (fun r => { r with bound := true, checked := true })

/-! ### UPLINK_FRAME -/

/-- H above the claim that the lane sends (R199); how often running, for R387. -/
def State.claimSeen (s : State) (l h : Nat) : State :=
  let own := s.laneClaim
  let higher := own % 2 ^ 28 < h % 2 ^ 28 || (own % 2 ^ 28 == h % 2 ^ 28 && decide (own / 2 ^ 28 < h / 2 ^ 28))
  let s := s.modLane l (fun r => { r with higher := if higher then r.higher + 1 else 0, lastH := h })
  let s := if s.rd Reg.RED_TERM_SEEN.term 0 < h % 2 ^ 28 then s.wr Reg.RED_TERM_SEEN.term 0 (h % 2 ^ 28) else s
  let s := if s.red.hand = .outgoing ∧ h % 2 ^ 28 = own % 2 ^ 28 + 1 then { s with red := { s.red with termSeen := true } } else s
  if higher then s.raise 0x241 l h else s

/-- The epoch of a SOF: the running epoch or the one before it. -/
def State.sofEpoch (s : State) (sof : Nat) : Option Nat :=
  let low := sof / 2 ^ 32 % 2 ^ 24
  if low = s.epo.k % 2 ^ 24 then some s.epo.k
  else if 0 < s.epo.k ∧ low = (s.epo.k - 1) % 2 ^ 24 then some (s.epo.k - 1)
  else none

/-- Blocks with an invalid sync header are counted on their member (Table 6.8). -/
def State.countHeaders (s : State) (e : LaneEntry) (rows : List (List (Nat × Nat))) : State :=
  e.members.foldl (fun (s : State) l =>
    let n := (rows.filter (fun row => match row[l - e.lane]? with
      | some x => x.1 % 3 == 0
      | none => false)).length
    if n = 0 then s else s.add Reg.LANE_ERR_CNT.hdr_err l n) s

/-- A received uplink frame (R188): its rows, the station times of the first bit of its ECHO on the reference member and of its last
bit. A lane that is not up receives none (R220). DEDUCED (notes/assumptions/38.md). -/
def State.uplink (s : State) (e : LaneEntry) (rows : List (List (Nat × Nat))) (te tz : Nat) : State :=
  let l := e.lane
  let s := s.countHeaders e rows
  let bs := readRows e (s.rd Reg.LANE_STAT.far_tx l) rows
  let sofLow := (bs.headD (2, 0)).2 / 2 ^ 32 % 2 ^ 24
  match splitFrame bs with
  | none => s.discardFrame l 4 sofLow
  | some (sof, ech, mid, eof) =>
    let ps := sof :: ech :: mid
    let crcOk := eof / 2 ^ 40 % 2 ^ 16 == ps.length && eof % 2 ^ 32 == framesCrc ps
    let s := if crcOk then (s.claimSeen l (sof % 2 ^ 32)).echo e ech te else s
    let t := (s.sofEpoch sof).getD sofLow
    let bad := badSlots l sofLow e.positions e.detail t mid
    if !crcOk || !bad.isEmpty then (bad.foldl (fun s p => s.countBadBlock l p) s).discardFrame l 1 t
    else
      match parseReports 0 mid, s.sofEpoch sof with
      | none, _ => s.discardFrame l 4 sofLow
      | some rs, none =>
        if rs.length ≠ e.positions ∧ !rs.any (fun r => r.second.isSome) then s.discardFrame l 4 sofLow
        else s.discardFrame l 2 sofLow
      | some rs, some t =>
        if !reportsDue t e.detail rs then s.discardFrame l 4 sofLow
        else if t < s.epo.k ∨ (s.seamAt (t + 1)).1 ≤ tz + e.guard then
          (rs.foldl (fun s r => match s.cellAt l r.slot with
            | some c => s.bump c.cell 29
            | none => s) s).discardFrame l 3 t
        else (s.identities e rs).takeReports l t rs

end Sys2Proof.Machine
end

