-- ==== Sys2Proof/Machine/Lane.lean ====
section
/-! DEFINITION. Cell lanes: block lock and lane state (R218 to R220), alignment markers and bonded groups (R221 to R229),
equalisation (R233, R234) and the eye scan (R235, R236). -/

namespace Sys2Proof.Machine

/-- LANE_STAT.state of a used lane (Table 6.8). -/
def State.laneStateCode (s : State) (l : Nat) : Nat :=
  if !s.flag Reg.LANE_CTRL.rx_en l || !s.lanePowered l then 1
  else if !s.flag Reg.LANE_STAT.lock l then 2
  else if s.flag Reg.LANE_STAT.up l then 4 else 3

def State.showLane (s : State) (l : Nat) : State := s.wr Reg.LANE_STAT.state l (s.laneStateCode l)

/-- Every member is up or not with its group (R219); reaction conditions 120 + l follow (Table 8.6). -/
def State.setLaneUp (s : State) (e : LaneEntry) (up : Bool) : State :=
  e.members.foldl (fun s l => ((s.wr Reg.LANE_STAT.up l (bit up)).showLane l).setCond (120 + l) (!up)) s

/-- Whether a group or lane is up (R219, R227). -/
def State.groupUp (s : State) (e : LaneEntry) : Bool :=
  if e.bond = .none then s.flag Reg.LANE_STAT.lock e.lane
  else decide (e.stripes ≤ popCount4 (s.receiveSet e)) && decide (e.stripes ≤ popCount4 (s.rd Reg.LANE_STAT.far_rx e.lane))

/-- Re-evaluate a lane or group after a change of lock, deskew or masks (R219, R227). -/
def State.refreshGroup (s : State) (e : LaneEntry) : State :=
  let was := s.flag Reg.LANE_STAT.up e.lane
  let rx := s.receiveSet e
  let s := s.wr Reg.LANE_STAT.rx_mask e.lane rx
  let up := s.groupUp e
  let s := (s.setLaneUp e up).showDegraded e
  if e.bond = .none ∨ up = was then s
  else s.raise (if up then 0x203 else 0x202) e.lane (rx + 16 * s.rd Reg.LANE_STAT.far_rx e.lane)

/-! ### Lock (R218) -/

/-- Identity blocks are asked for in the next 16 frames (R208). -/
def State.startIdent (s : State) (l : Nat) : State := s.modLane l (fun r => { r with ident := 16, checked := false })

/-- IDENT_REQUEST (R208): a write of LANE_CTRL.ident. -/
def execIdentRequest (lane : Fin 96) (s : State) : Host.Outcome State Fault Refusal := byHost (fun s =>
  .next (match s.bs.laneEntry lane with
    | some _ => s.startIdent lane
    | none => s)) s

/-- LOCK_GAINED: a hunting receiver of a used lane gains block lock. -/
def State.gainLock (s : State) (l : Nat) : State :=
  match s.bs.groupOf l with
  | none => s
  | some e =>
    if s.flag Reg.LANE_STAT.lock l || !s.flag Reg.LANE_CTRL.rx_en l || !s.lanePowered l then s
    else
      let s := (s.wr Reg.LANE_STAT.lock l 1).raise 0x201 l s.epo.k
      let s := s.wr Reg.LANE_STAT.deskewed l (bit (decide (e.bond = .none)))
      let s := s.modLane l (fun r => { r with aligned := false, marked := false, skipped := 0 })
      (s.startIdent e.lane).refreshGroup e

/-- PWR_WAKE_TIME.lanes (R453): microseconds from the wake of a quadrant until its used lanes are all up. -/
def State.quadTimed (s : State) (q : Nat) : State :=
  match s.pwr.quadFrom.find? (fun x => x.1 == q) with
  | none => s
  | some x =>
    if s.bs.lanes.any (fun e => e.lane / 24 == q && !s.laneUp e.lane) then s
    else { s.wr Reg.PWR_WAKE_TIME.lanes 0 (min ((s.clk.count - x.2) / 400) 65535) with
      pwr := { s.pwr with quadFrom := s.pwr.quadFrom.filter (fun y => y.1 != q) } }

/-- LOCK_GAINED (R218): `valid` consecutive blocks with valid headers have been seen, 64 or more, and then the ALIGN block `align`,
valid, with no lock loss in between. -/
def execLockGained (lane : Fin 96) (valid align : Nat) (s : State) : Host.Outcome State Fault Refusal :=
  .next (if 64 ≤ valid ∧ alignValid align then (s.gainLock lane).quadTimed (lane / 24) else s)

/-- The end of an eye scan (R236). -/
def State.endEye (s : State) (l errors : Nat) (invalid : Bool) : State :=
  let n := min errors (2 ^ 31 - 1)
  let s := ((s.wr Reg.LANE_EYE_CTRL.start l 0).wr Reg.LANE_EYE_STAT.errors l n).wr Reg.LANE_EYE_STAT.invalid l (bit invalid)
  if s.flag Reg.LANE_CTRL.eye_ev l then s.raise 0x209 l (n + 2 ^ 31 * bit invalid) else s

/-- A loss of lock with a cause (R218); a running eye scan ends invalid (R236), with a count the manual does not state. -/
def State.loseLock (s : State) (l cause : Nat) : State :=
  match s.bs.groupOf l with
  | none => s
  | some e =>
    if !s.flag Reg.LANE_STAT.lock l then s
    else
      let s := (s.wr Reg.LANE_STAT.lock l 0).wr Reg.LANE_STAT.deskewed l 0
      let s := (s.count Reg.LANE_LOCK_CNT.lock_losses l).raise 0x200 l cause
      let s := if s.flag Reg.LANE_EYE_CTRL.start l then
          let d := s.draw 31
          d.2.endEye l d.1 true
        else s
      s.refreshGroup e

/-- rx_en cleared (R218): the receiver stops, and a locked one loses lock. DEDUCED (notes/assumptions/96.md). -/
def State.disableRx (s : State) (l : Nat) : State := ((s.wr Reg.LANE_CTRL.rx_en l 0).loseLock l 1).showLane l

/-! ### Alignment markers (R221, R222, R226) -/

/-- ALIGN_SEND (R221, R226): the 4,096th block since the last marker, after IDLE in the rows that nothing has filled.
DESIGN CHOICE (notes/assumptions/113.md). -/
def execAlignSend (lane : Fin 96) (s : State) : Host.Outcome State Fault Refusal :=
  .next (match s.bs.laneEntry lane with
    | none => s
    | some e => (s.sendIdle e (4095 - (s.lane e.lane).since)).markerRow e)

/-- BIP errors of an ALIGN (R222): counted, and reported at most once per second of station time with the errors of the last second
(Table 6.7). -/
def State.bipErrors (s : State) (l n : Nat) : State :=
  let recent (x : Nat × Nat) : Bool := decide ((s.now + 2 ^ 64 - x.1) % 2 ^ 64 < 12800000000)
  let s := (s.add Reg.LANE_ERR_CNT.bip_err l n).modLane l (fun r => { r with
    bipLog := if n = 0 then r.bipLog.filter recent else (s.now, n) :: r.bipLog.filter recent })
  let due := match (s.lane l).bipSecond with
    | none => true
    | some t => decide (12800000000 ≤ (s.now + 2 ^ 64 - t) % 2 ^ 64)
  if n = 0 ∨ !s.flag Reg.LANE_CTRL.bip_ev l ∨ !due then s
  else
    (s.modLane l (fun r => { r with bipSecond := some s.now })).raise 0x206 l ((s.lane l).bipLog.map (·.2)).sum

/-- Bits that differ between two parities (R222). -/
def differing (x y : Nat) : Nat := ((List.range 8).map (fun i => (x ^^^ y) / 2 ^ i % 2)).sum

/-- An ALIGN's count, width and tx_mask agree with those of another locked member, whose row with the same count may still be on its
way, and of whose rows before it those with an invalid CRC are not known (R222, R228). -/
def LaneRt.agrees (r : LaneRt) (count width mask : Nat) : Bool :=
  let ahead := (count + 2 ^ 16 - r.farCount % 2 ^ 16) % 2 ^ 16
  decide (ahead ≤ r.skipped + 1) && (ahead != 0 || r.farMask == mask) && r.farWidth == width

/-- The BIP check of a received ALIGN against the parity of the payloads before it, whether or not its CRC is valid; the first one after
lock is not checked (R222). -/
def State.checkBip (s : State) (l payload : Nat) (between : List Nat) : State :=
  let s := if (s.lane l).marked then s.bipErrors l (differing (payload / 2 ^ 8 % 256) ((between.map bip8).foldl (· ^^^ ·) 0)) else s
  s.modLane l (fun r => { r with marked := true })

/-- A valid ALIGN (R222, R226 to R228) and the skew in blocks between the earliest and the latest member.
DEDUCED (notes/assumptions/44.md). -/
def State.receiveAlign (s : State) (e : LaneEntry) (l payload skew : Nat) : State :=
  let count := payload / 2 ^ 40 % 2 ^ 16
  let width := payload / 2 ^ 28 % 16
  let tx := payload / 2 ^ 20 % 16
  let others := e.members.filter (fun m => m != l && s.flag Reg.LANE_STAT.lock m && (s.lane m).aligned)
  let ok := others.all (fun m => (s.lane m).agrees count width tx) && decide (skew ≤ 16) && width == e.width
  let s := s.modLane l (fun r => { r with
    aligned := true, farLane := payload / 2 ^ 32 % 256, farCount := count, farWidth := width, farMask := tx
    skipped := 0 })
  let old := s.rd Reg.LANE_STAT.far_tx e.lane
  let masks (s : State) : State := (s.wr Reg.LANE_STAT.far_rx e.lane (payload / 2 ^ 16)).wr Reg.LANE_STAT.far_tx e.lane tx
  if e.bond = .none then (masks s).refreshGroup e
  else
    let s := s.wr Reg.LANE_STAT.deskewed l (bit ok)
    let s := masks (if ok then s else s.raise 0x205 e.lane ((l - e.lane) + 2 ^ 8 * min skew 255))
    (if tx = old then s else s.restriped e).refreshGroup e

/-! ### Equalisation and eye scan -/

/-- Table 6.5: tx_pre, tx_post, rx_ctle of a preset. -/
def eqPreset (n : Nat) : Nat × Nat × Nat :=
  ([0, 0, 0, 1, 1, 2, 2, 2, 3, 3, 4, 4, 5, 5, 6, 6].getD n 0, [0, 2, 4, 4, 6, 6, 8, 10, 10, 12, 12, 14, 14, 16, 16, 18].getD n 0,
   n)

/-- The equalisation that the registers ask for (R233). -/
def State.eqAsked (s : State) (l : Nat) : Nat × Nat × Nat :=
  if s.flag Reg.LANE_EQ.override l then
    (s.rd Reg.LANE_EQ.tx_pre l, s.rd Reg.LANE_EQ.tx_post l, s.rd Reg.LANE_EQ.rx_ctle l)
  else eqPreset (s.rd Reg.LANE_EQ.preset l)

/-- EQ_WRITE (R234): a write of LANE_EQ. -/
def State.writeEq (s : State) (l v : Nat) : State :=
  if 40 < bitsOf v 8 4 + bitsOf v 16 5 then s.rejectWrite (Reg.LANE_EQ.preset.addr + 0x100 * l)
  else
    let s := ((s.wr Reg.LANE_EQ.preset l v).wr Reg.LANE_EQ.override l (v / 2 ^ 4)).wr Reg.LANE_EQ.tx_pre l (v / 2 ^ 8)
    let s := (s.wr Reg.LANE_EQ.tx_post l (v / 2 ^ 16)).wr Reg.LANE_EQ.rx_ctle l (v / 2 ^ 24)
    let q := s.eqAsked l
    s.modLane l (fun r => { r with eqPending := some (q.1, q.2.1), eqRx := q.2.2 })

def execEqWrite (lane : Fin 96) (value : Nat) (s : State) : Host.Outcome State Fault Refusal :=
  byHost (fun s => .next (s.writeEq lane value)) s

/-- Whether the fields of a LANE_EYE_CTRL write are in range (R240, Table 6.8). -/
def eyeInRange (v : Nat) : Bool :=
  bitsOf v 8 6 != 32 && decide (-64 ≤ signedOf 8 (v / 2 ^ 16)) && decide (signedOf 8 (v / 2 ^ 16) ≤ 64)
    && decide (20 ≤ bitsOf v 24 6) && decide (bitsOf v 24 6 ≤ 40)

/-- EYE_SCAN_START (R236): a write of LANE_EYE_CTRL with start at 1; while a scan runs it is discarded and reported (R5). An unused
lane has no receiver to scan (R215). DEDUCED (notes/assumptions/95.md). -/
def State.startEye (s : State) (l value : Nat) : State :=
  if s.flag Reg.LANE_EYE_CTRL.start l then s.rejectWrite (Reg.LANE_EYE_CTRL.start.addr + 0x100 * l)
  else if (s.bs.groupOf l).isNone then s
  else if !eyeInRange value then s.rejectWrite (Reg.LANE_EYE_CTRL.start.addr + 0x100 * l)
  else
    let s := ((((s.wr Reg.LANE_EYE_CTRL.v l (value / 2 ^ 8)).wr Reg.LANE_EYE_CTRL.ph l (value / 2 ^ 16)).wr
      Reg.LANE_EYE_CTRL.dwell l (value / 2 ^ 24)).wr Reg.LANE_EYE_CTRL.start l 1).wr Reg.LANE_EYE_STAT.invalid l 0
    s.modLane l (fun r => { r with eyeBad := !s.flag Reg.LANE_STAT.lock l })

def execEyeScanStart (lane : Fin 96) (value : Nat) (s : State) : Host.Outcome State Fault Refusal := byHost (fun s =>
  .next (s.startEye lane value)) s

/-- EYE_DONE (R236): the comparison has found `errors` differing bits; a scan without lock, at its start or now, is invalid. -/
def execEyeDone (lane : Fin 96) (errors : Nat) (s : State) : Host.Outcome State Fault Refusal :=
  .next (if s.flag Reg.LANE_EYE_CTRL.start lane then s.endEye lane errors ((s.lane lane).eyeBad || !s.flag Reg.LANE_STAT.lock lane) else s)

/-- At the start of every epoch a lane that is not up carries one inserted PRIO with the word in effect (R220). -/
def State.laneSeam (s : State) : State :=
  s.bs.lanes.foldl (fun s e =>
    if s.laneUp e.lane || !s.transmits e then s
    else let w := s.prioWord e.lane; s.insertPrio e.lane w.2 w.1) s

end Sys2Proof.Machine
end

