-- ==== Sys2Proof/Machine/Sst.lean ====
section
/-! DEFINITION. The SST personality (R241 to R257): shifts of the isolation stages, the unit's states and requests, and its low-voltage
bridges. String s of unit u is arm 3u + s. -/

namespace Sys2Proof.Machine

/-- The isolation entries of a string whose front entry satisfies `p`, ascending. -/
def State.isoCells (s : State) (a : Nat) (p : CellEntry → Bool) : List (CellEntry × CellEntry) :=
  ((s.armCells a).filter p).filterMap (fun f => (s.bs.isoOf f.cell).map (fun i => (f, i)))

/-- The reloads of the isolation stage (R247): T(r) = Z + r x N_d x P_d, in station time (R345). -/
def State.isoGrid (s : State) (e : UnitEntry) : Grid := ⟨s.clk.grid, 0, e.isoReloadN, e.isoPeriod⟩

/-- The first isolation reload at or after a station time (R248); no station time lies before Z (R348). -/
def State.isoReload (s : State) (e : UnitEntry) (t : Nat) : Nat :=
  ceilDiv ((t + 2 ^ 64 - s.clk.grid % 2 ^ 64) % 2 ^ 64) (e.isoReloadN * e.isoPeriod)

/-! ### Unit points (Table 7.2) -/

def State.showUnit (s : State) (e : UnitEntry) : State :=
  let r := s.unit e.unit
  s.setPoint (e.pointBase + 1)
    (tagged (r.state + 2 ^ 4 * r.refusal + 2 ^ 8 * bit r.clamped + 2 ^ 16 * r.tag) s.epoch)

/-- Channels running: bit 2s leg A, bit 2s + 1 leg B. -/
def State.lvRunning (s : State) (e : UnitEntry) : Nat :=
  e.arms.foldl (fun x i =>
    x + 4 ^ i.1 * (s.rd Reg.DRV_CTRL.run (e.lvHi.getD i.1 0) + 2 * s.rd Reg.DRV_CTRL.run (e.lvLo.getD i.1 0))) 0

def State.showLv (s : State) (e : UnitEntry) : State := s.setPoint (e.pointBase + 6) (s.lvRunning e)

/-- A change of state, reported once (R253). -/
def State.unitState (s : State) (e : UnitEntry) (st : Nat) : State :=
  if (s.unit e.unit).state = st then s
  else
    let s := (s.modUnit e.unit (fun r => { r with state := st })).showUnit e
    s.raise 0x120 e.unit (st + 256 * (s.unit e.unit).tag)

/-! ### Shift and trim (R248, R249) -/

/-- The binary32 nearest sum / n with a binary64 sum. -/
def meanOf (sum n : Nat) : Nat := if fFinite f64 sum then fOfRat f32 (fNeg f64 sum) (fVal f64 sum) (n * f64.unit) else f64To32 sum

/-- x[c] of R248 for one available cell. -/
def State.trimOf (s : State) (e : UnitEntry) (a vbar : Nat) (c : Nat) : Nat :=
  let r := s.arm a
  let p := s.pub (livePos c 0)
  let b := (s.pub (livePos c 9)).v / 2 ^ 16 % 4096
  let bbar := clampBucket (rawBucket r.lo r.hi vbar)
  if p.bad || decide (max b bbar - min b bbar ≤ s.rd Reg.ARM_BAND.band a) then 0
  else fMul f32 e.gain (fSub f32 (p.v % 2 ^ 32) vbar)

def clampInteger (lo hi x : Int) : Int := if x < lo then lo else if hi < x then hi else x

/-- The quarter-period limit of R248, binary32 0.25. -/
def quarter : Nat := 0x3E800000

/-- Target shift of a cell: clamped fraction, whether it was clamped, and the target in edge units; a fraction that is not a
number gives a free target. -/
def State.shiftTarget (s : State) (e : UnitEntry) (d x mean : Nat) : Int × Bool × State :=
  let trim := fClamp f32 (fNegate f32 e.tmax) e.tmax (fSub f32 x mean)
  let y := fAdd f32 d trim
  if fIsNaN f32 y then
    let v := s.draw 25
    (signedOf 25 v.1, false, v.2)
  else
    let f := fClamp f32 (fNegate f32 quarter) quarter y
    (fScaleRne f32 (fMul f32 f (fOfInt f32 e.isoPeriod)) 1, fLt f32 quarter y || fLt f32 y (fNegate f32 quarter), s)

/-- What a string's decision adds up: clamped strings, strings whose shift was not used, infinite or NaN, cells limited. -/
structure ShiftNote where
  clamped : Nat
  bad : Nat
  inf : Bool
  limited : Nat
deriving DecidableEq, Repr

/-- A new reload: the shift sent last becomes that of the reload before; 0 for a carrier that is not running (R248). -/
def State.shiftRoll (s : State) (c : Nat) (fresh : Bool) : State :=
  s.modCell c (fun r => if !r.carrier then { r with sigma := 0, sigmaOld := 0 }
    else if fresh then { r with sigmaOld := r.sigma } else r)

/-- The shifts of a string's available isolation entries. -/
def State.shiftCells (s : State) (e : UnitEntry) (i d mean : Nat) (xs : List (CellEntry × Nat)) (n : ShiftNote) :
    State × ShiftNote :=
  xs.foldl (fun (s, n) (c, x) =>
    let old := (s.cell c.cell).sigmaOld
    let t := s.shiftTarget e d x mean
    let step := clampInteger (-(e.slew : Int)) e.slew (t.1 - old)
    (t.2.2.modCell c.cell (fun r => { r with sigma := old + step }),
     { n with
       clamped := if t.2.1 then n.clamped ||| 2 ^ i else n.clamped
       limited := if step = t.1 - old then n.limited else n.limited + 1 })) (s, n)

/-- The decision of one string (R248): shifts of its entries for reload r, and the mean it applies; its values come from P(k). -/
def State.shiftString (s : State) (e : UnitEntry) (fresh : Bool) (n : ShiftNote) (i a : Nat) : State × ShiftNote :=
  let l := s.isoCells a (fun f => (s.cell f.cell).available)
  let s := l.foldl (fun s x => s.shiftRoll x.2.cell fresh) s
  let p := s.pub (e.shiftPoint + i)
  let d := p.v % 2 ^ 32
  let num := s.rd Reg.ARM_AVAIL.available a
  let vbar := fDiv f32 (s.rd Reg.ARM_VAVAIL.vavail a) (fOfInt f32 num)
  let xs := l.map (fun x => (x.2, s.trimOf e a vbar x.1.cell))
  let mean := meanOf (sum64 (xs.map (·.2))) (max num 1)
  let r := if p.bad || !fFinite f32 d then
      (l.foldl (fun s x => s.modCell x.2.cell (fun r => { r with sigma := r.sigmaOld })) s,
       { n with bad := n.bad ||| 2 ^ i, inf := n.inf || (!p.bad && !fFinite f32 d) })
    else s.shiftCells e i d mean xs n
  let s := r.1
  let total := l.foldl (fun x y => x + (s.cell y.2.cell).sigma) (0 : Int)
  let m : Nat × State := if l.isEmpty then s.draw 32 else (fOfRat f32 false total (l.length * e.isoPeriod), s)
  (m.2.setFloat (e.pointBase + 2 + i) m.1, r.2)

/-- The CARRIER sets of the isolation entries (R247, R250), or BLOCK, for a target epoch. -/
def State.isoCommands (s : State) (e : UnitEntry) (t r i a : Nat) : State :=
  let u := s.unit e.unit
  let g := s.isoGrid e
  let p := e.isoPeriod
  let st := (s.seamAt t).1
  let tr := g.time r
  let cd : Option Nat := if notAfter (s.seamAt (t + 1)).1 tr then none else some (timeSince st tr)
  (s.isoCells a (fun _ => true)).foldl (fun s x =>
    let c := x.2.cell
    if u.state = 0 then s.cmdPlain c t .nop
    else if u.state = 1 ∨ u.toBlocked ∨ !(s.cell x.1.cell).available then
      (s.cmdOff c t (.block 0)).modCell c (fun r => { r with sigma := 0, sigmaOld := 0, carrier := false })
    else
      let phase := (((e.isoPhase.getD i 0 : Int) - (s.cell c).sigma) % (p : Int)).toNat
      s.cmdPlain c t (.carrier 8192 r p phase cd)) s

/-- SST_SHIFT_DECISION (R248): at the deadline of the shift graph in epoch k, for target epoch k + lead. -/
def execSstShiftDecision (unit : Fin 4) (s : State) : Host.Outcome State Fault Refusal :=
  .next (s.mirrorOf (match s.bs.unitEntry unit with
    | none => s
    | some e =>
      let u := e.unit
      let t := s.epo.k + s.lead
      let r := s.isoReload e (s.seamAt t).1
      let fresh := (s.unit u).reload ≠ r
      let runs := decide (2 ≤ (s.unit u).state)
      let s := if !runs then s
        else
          let s := if s.graphMissed e.shiftGraph then s.raise 0x122 u s.epoch else s
          let x := e.arms.foldl (fun (s, n) (i, a) => s.shiftString e fresh n i a) (s, (⟨0, 0, false, 0⟩ : ShiftNote))
          let n := x.2
          let s := x.1.modUnit u (fun y => { y with clamped := n.clamped != 0, reload := r })
          let s := if n.bad = 0 then s else s.raise 0x123 u (n.bad + 16 * bit n.inf)
          let s := if n.clamped = 0 then s else s.raise 0x124 u n.clamped
          let s := if n.limited = 0 ∨ (s.unit u).slewAt = r + 1 then s
            else (s.modUnit u (fun y => { y with slewAt := r + 1 })).raise 0x125 u
              (n.limited % 128 + 2 ^ 16 * (r % 2 ^ 32))
          ((s.setPoint (e.pointBase + 5) r).showUnit e).showLv e
      e.arms.foldl (fun s (i, a) => s.isoCommands e t r i a) s))

/-! ### Low-voltage bridges (R246, R251) -/

def UnitEntry.channels (e : UnitEntry) : List Nat := e.lvHi.take e.strings ++ e.lvLo.take e.strings

/-- The set of a leg (R246). -/
def legSet (e : UnitEntry) (i : Nat) (up : Bool) : DrvSet :=
  let p := e.isoPeriod
  let c := e.isoPhase.getD i 0
  ⟨p, 1, p / 2, (if up then c + p - p / 4 else c + p / 4) % p⟩

/-- Start a channel: its set and mode 1 in one core cycle. -/
def State.lvStart (s : State) (ch : Nat) (x : DrvSet) : State :=
  let s := (s.drvPend ch x).wr Reg.DRV_CTRL.mode ch 1
  s.modDrv ch (fun r => { r with nextMode := some 1 })

def State.lvStartAll (s : State) (e : UnitEntry) : State :=
  e.arms.foldl (fun s i => (s.lvStart (e.lvHi.getD i.1 0) (legSet e i.1 true)).lvStart (e.lvLo.getD i.1 0) (legSet e i.1 false)) s

/-- Stop the bridges by the action of R164; the manual names no condition number for its event here. -/
def State.lvStopAll (s : State) (e : UnitEntry) : State :=
  e.channels.foldl (fun s ch =>
    let d := s.draw 16
    d.2.drvBlock ch d.1) s

/-- A reaction path has blocked a channel (R164): a unit's keeps the mark until its next BLOCK (R254), and that of a running unit is
reported (R251). -/
def State.blockChannel (s : State) (ch cond : Nat) : State :=
  let was := s.flag Reg.DRV_CTRL.run ch
  let s := s.drvBlock ch cond
  match s.bs.units.find? (fun e => e.channels.contains ch) with
  | some e =>
    let s := s.modUnit e.unit (fun r => { r with lvBlocked := true })
    if was && decide (3 ≤ (s.unit e.unit).state) then (s.raise 0x127 e.unit ch).showLv e else s
  | none => s

/-! ### Requests (R253, R254) -/

/-- Every string of the unit is in an arm state. -/
def State.stringsAre (s : State) (e : UnitEntry) (st : Nat) : Bool := e.arms.all (fun i => s.armState i.2 == st)

/-- The lanes of a unit's front and isolation entries. -/
def State.unitLanes (s : State) (e : UnitEntry) : List Nat :=
  e.arms.flatMap (fun i => (s.armCells i.2).map (·.lane) ++ (s.isoCells i.2 (fun _ => true)).map (·.2.lane))

/-- A valid report in the last epoch with READY. -/
def State.entryReady (s : State) (c : Nat) : Bool :=
  ((s.cell c).reported == some (s.epo.k - 1)) && ((s.pub (livePos c 5)).v % 2 == 1)

/-- Table 7.4 for ISOLATE (1) and RUN (2); reasons 2, 3 and 6 concern only these two (notes/assumptions/16.md). -/
def State.unitRefusal (s : State) (e : UnitEntry) (cmd : Nat) : Nat :=
  let st := (s.unit e.unit).state
  let arms := e.arms.map (·.2)
  if (cmd = 1 ∧ st ≠ 1) ∨ (cmd = 2 ∧ st ≠ 2) ∨ (cmd = 3 ∧ st ≠ 3 ∧ st ≠ 4) ∨ (cmd = 4 ∧ st = 0) ∨ 4 < cmd then 1
  else if 3 ≤ cmd then 0
  else if arms.any (fun a => s.flag Reg.ARM_STAT.saf_hold a) then 2
  else if arms.any (fun a => decide (s.rd Reg.ARM_AVAIL.available a < s.rd Reg.ARM_SPARE.need a)) then 3
  else if cmd = 1 ∧ arms.any (fun a => fLt f32
      (fDiv f32 (s.rd Reg.ARM_VAVAIL.vavail a) (fOfInt f32 (s.rd Reg.ARM_AVAIL.available a))) e.minV) then 4
  else if cmd = 1 ∧ arms.any (fun a =>
      (s.isoCells a (fun f => (s.cell f.cell).available)).any (fun x => !s.entryReady x.2.cell)) then 5
  else if (s.unitLanes e).any (fun l => !s.laneUp l) then 6
  else if cmd = 2 ∧ ((s.unit e.unit).lvBlocked ∨ e.channels.any (fun ch => !s.flag Reg.DRV_CTRL.cal_valid ch)) then 7
  else if cmd = 2 ∧ arms.any (fun a => s.deblockRefusal a ((s.arm a).blockAt == some s.epo.k) != 0) then 9
  else 0

/-- Block every string of a unit, and stop its bridges at S(c + lead) (R254); a stop that is already under way keeps its seam. -/
def State.unitBlockStrings (s : State) (e : UnitEntry) : State :=
  (e.arms.foldl (fun s i => s.armBlock i.2 0) s).modUnit e.unit (fun r => { r with
    lvStop := r.lvStop <|> some (s.epo.k + s.lead) })

/-- Every isolation entry of the unit owes a DEADTIME (R182). -/
def State.unitOwe (s : State) (e : UnitEntry) : State :=
  e.arms.foldl (fun s i => (s.isoCells i.2 (fun _ => true)).foldl (fun s x =>
    s.modCell x.2.cell (fun r => { r with oweDead := some 0 })) s) s

/-- The end of STOPPING (R254): BLOCKED or ISOLATING once every string is BLOCKED. -/
def State.unitEnd (s : State) (e : UnitEntry) (toBlocked : Bool) : State :=
  (s.modUnit e.unit (fun r => { r with toBlocked := false, safety := false })).unitState e (if toBlocked then 1 else 2)

/-- Strings blocked (R254): the unit goes on to its goal at once, or through STOPPING. The command ends a stop of the safety domain; a
BLOCK under way stays the goal after a STOP. DEDUCED (notes/assumptions/16.md). -/
def State.unitHalt (s : State) (e : UnitEntry) (block : Bool) : State :=
  let s := s.unitBlockStrings e
  let goal := block || (s.unit e.unit).toBlocked
  if s.stringsAre e 0 then s.unitEnd e goal
  else (s.modUnit e.unit (fun r => { r with toBlocked := goal, safety := false })).unitState e 4

/-! ### Stops of the safety domain (R255) -/

/-- The safety domain requests a controlled stop of a unit whose carriers run: STOPPING. DEDUCED (notes/assumptions/16.md). -/
def State.unitStop (s : State) (u : Nat) : State :=
  match s.bs.unitEntry u with
  | some e => if 2 ≤ (s.unit u).state then (s.modUnit u (fun r => { r with safety := true })).unitState e 4 else s
  | none => s

/-- Whether the safety block word is in effect on a string: a target that acts on it is BLOCKED. -/
def State.wordOn (s : State) (a : Nat) : Bool :=
  match s.bs.safety with
  | some x => x.targets.any (fun t => s.rd Reg.SAF_TGT.state t.target == 3 && (t.target == a || t.target == 12 + a / 3))
  | none => false

/-- BLOCKED once the safety block word has taken effect on every string, by the unit's target or by the strings' own. -/
def State.unitStopped (s : State) (u : Nat) : State :=
  match s.bs.unitEntry u with
  | some e =>
    if (s.unit u).state = 4 ∧ (s.unit u).safety ∧ e.arms.all (fun i => s.wordOn i.2) ∧ s.stringsAre e 0 then s.unitEnd e true
    else s
  | none => s

/-! ### Requests at a seam -/

def State.refuseUnit (s : State) (e : UnitEntry) (cmd tag why : Nat) : State :=
  (s.modUnit e.unit (fun r => { r with refusal := why })).raise 0x121 e.unit (why + 2 ^ 8 * cmd + 2 ^ 16 * tag)

/-- A request at S(c) (R254): a word of the command point whose tag is new. DEDUCED (notes/assumptions/16.md). -/
def State.unitAct (s : State) (e : UnitEntry) (word : Nat) : State :=
  let u := e.unit
  let cmd := word % 8
  let tag := word / 256 % 256
  let s := s.modUnit u (fun r => { r with tag := tag })
  let why := s.unitRefusal e cmd
  if cmd = 0 then s
  else if why ≠ 0 then s.refuseUnit e cmd tag why
  else if cmd = 1 then (s.unitOwe e).unitState e 2
  else if cmd = 2 then ((e.arms.foldl (fun s i => s.armDeblock i.2) s).lvStartAll e).unitState e 3
  else if cmd = 3 then s.unitHalt e false
  else (s.modUnit u (fun r => { r with lvBlocked := false })).unitHalt e true

/-- The words of a seam that are requests (R253): each has a tag other than the one handled before it. -/
def unitWords (tag : Nat) : List Nat → List Nat
  | [] => []
  | w :: ws => if w / 256 % 256 = tag then unitWords tag ws else w :: unitWords (w / 256 % 256) ws

/-- The words committed to the command point at this seam, in order: a BLOCK among the requests is carried out and the others are
refused with reason 8; without one, the last word stands. DEDUCED (notes/assumptions/16.md). -/
def State.unitRequests (s : State) (e : UnitEntry) (words : List Nat) : State :=
  let l := unitWords (s.unit e.unit).tag words
  match l.find? (fun w => w % 8 == 4) with
  | some b =>
    let s := (l.filter (fun w => w % 8 != 4 && w % 8 != 0)).foldl (fun s w => s.refuseUnit e (w % 8) (w / 256 % 256) 8)
      (s.unitAct e b)
    s.modUnit e.unit (fun r => { r with tag := (l.getLast?.getD b) / 256 % 256 })
  | none =>
    match words.getLast? with
    | some w => if w / 256 % 256 = (s.unit e.unit).tag then s else s.unitAct e w
    | none => s

/-- States that follow the strings (R253, R254) and priority blocks (R256). -/
def State.unitFollow (s : State) (e : UnitEntry) : State :=
  let r := s.unit e.unit
  let blocked := s.stringsAre e 0
  let s := if r.state = 0 ∧ e.arms.all (fun i => s.armState i.2 != 7) then s.unitState e 1 else s
  let s := if r.lvStop = some s.epo.k then (s.lvStopAll e).modUnit e.unit (fun r => { r with lvStop := none }) else s
  let s := if r.follow && e.followBlock && decide (r.state ≠ 0) then
      ((s.lvStopAll e).modUnit e.unit (fun r => { r with toBlocked := true })).unitState e 1
    else s
  let s := s.modUnit e.unit (fun r => { r with follow := false })
  let r := s.unit e.unit
  if r.state ≠ 4 then s.modUnit e.unit (fun r => { r with toBlocked := false, safety := false })
  else if r.safety then s.unitStopped e.unit
  else if blocked then s.unitEnd e r.toBlocked
  else s

/-- What seam S(c) does to a unit, after its strings; `words` were committed to its command point. -/
def State.unitSeam (s : State) (e : UnitEntry) (words : List Nat) : State :=
  let s := e.arms.foldl (fun s i => (s.isoCells i.2 (fun _ => true)).foldl (fun s x => s.cellFlags x.2) s) s
  let s := s.modUnit e.unit (fun r => { r with clamped := false })
  (((s.unitFollow e).unitRequests e words).showUnit e).showLv e

end Sys2Proof.Machine
end

