-- ==== Sys2Proof/Machine/Saf.lean ====
section
/-! DEFINITION. The safety domain (R401 to R428): stop targets, demands of input pairs and privileged channels, controlled stop and
safe block, release, safety outputs, degraded mode and expiry. What its own 50 MHz clock times (filters, test pulses,
t_resp, windows) arrives with the command. -/

namespace Sys2Proof.Machine

def State.modSaf (s : State) (f : Saf → Saf) : State := { s with saf := f s.saf }
def State.pair (s : State) (p : Nat) : PairRt := tabGet PairRt.clear s.saf.pairs p
def State.modPair (s : State) (p : Nat) (f : PairRt → PairRt) : State :=
  s.modSaf (fun a => { a with pairs := tabMod PairRt.clear a.pairs p f })
def State.pch (s : State) (n : Nat) : PchRt := tabGet PchRt.clear s.saf.pchs n
def State.modPch (s : State) (n : Nat) (f : PchRt → PchRt) : State :=
  s.modSaf (fun a => { a with pchs := tabMod PchRt.clear a.pchs n f })

def Safety.pairOf (x : Safety) (p : Nat) : Option PairEntry := x.pairs.find? (fun e => e.pair == p && e.mode != 0)
def Safety.pchOf (x : Safety) (n : Nat) : Option PchEntry := x.pchs.find? (fun e => e.chan == n && e.func != 0)
def Safety.target (x : Safety) (t : Nat) : Option TgtEntry := x.targets.find? (fun e => e.target == t)
def Safety.req (x : Safety) (r : Nat) : Option (Nat × Nat) := (x.reqs.find? (fun e => e.1 == r)).map (·.2)
def Safety.used (x : Safety) : List Nat := x.targets.map (·.target)

/-- Target state (SAF_TGT.state): 0 UNUSED, 1 FREE, 2 STOPPING, 3 BLOCKED. -/
def State.target (s : State) (t : Nat) : Nat := s.rd Reg.SAF_TGT.state t

/-- Arms on which a target acts (R407). -/
def State.targetArms (s : State) (t : Nat) : List Nat :=
  if t < 12 then [t] else ((s.bs.unitEntry (t - 12)).map (fun u => u.arms.map (·.2))).getD []

/-- Numbers below 16 of the bits set in a mask, ascending. -/
def maskBits (m : Nat) : List Nat := (List.range 16).filter (fun i => m / 2 ^ i % 2 == 1)

/-- The mask of a list of bit numbers. -/
def bitsMask (l : List Nat) : Nat := l.eraseDups.foldl (fun m i => m + 2 ^ i) 0

/-! ### Outputs (R421) -/

/-- Whether an output's conditions hold. -/
def State.soutWanted (s : State) (e : SoutEntry) : Bool :=
  (s.rd Reg.RED_STAT.role 0 == 3 || e.standbyOn) && (maskBits e.targets).all (fun t => s.target t < 2) && !s.saf.outputsOff

/-- Switch the outputs as R421 says. -/
def State.soutUpdate (s : State) : State :=
  (List.range 4).foldl (fun s n =>
    let on := match s.bs.safety with
      | some x => (match x.souts.find? (fun e => e.out == n) with
        | some e => s.soutWanted e
        | none => false)
      | none => false
    if on = s.bitAt Reg.SAF_SOUT_STAT.on 0 n then s
    else { s.setBit Reg.SAF_SOUT_STAT.on 0 n on with wire := s.wire ++ [Wire.sout n on on] }) s

/-! ### Target states -/

/-- A target's state with its registers and event 0x706; `src` is the event's source. -/
def State.setTarget (s : State) (t st src : Nat) : State :=
  let s := s.wr Reg.SAF_TGT.state t st
  let s := (s.setBit Reg.SAF_STOP_STAT.stopping 0 t (st == 2)).setBit Reg.SAF_STOP_STAT.blocked 0 t (st == 3)
  let s := s.setBit Reg.SAF_HOLD.saf_hold 0 t (decide (2 ≤ st))
  (s.raise 0x706 t (st + 16 * src)).soutUpdate

/-- A lane belongs to a target that is held: BLOCKED, or STOPPING too with `stopping` (R417, R418). -/
def State.laneHeld (s : State) (l : Nat) (stopping : Bool) : Bool :=
  match s.bs.safety with
  | some x => x.targets.any (fun e => e.lanes.contains l && (s.target e.target == 3 || (stopping && s.target e.target == 2)))
  | none => true

/-- A lane that is not up sends an inserted PRIO at every change of its word (R220). -/
def State.prioChanged (s : State) (l : Nat) (was : Bool × Bool) : State :=
  let w := s.prioWord l
  if w = was ∨ s.frameKind ≠ 2 then s
  else if (w.1 && !was.1) || !s.laneUp l then s.insertPrio l w.2 w.1
  else s

/-- The safety block bit of a target's lanes, and the PRIO with safety origin (R418). Only an ACTIVE unit sends it (R404). -/
def State.blockLanes (s : State) (e : TgtEntry) : State :=
  e.lanes.foldl (fun s l =>
    let s := s.modLane l (fun r => { r with safBlock := true, safAt := some s.cycle })
    if s.frameKind = 2 then s.insertPrio l true true else s) s

/-- The safe block of a target (R416, R418). -/
def State.safeBlock (s : State) (t src : Nat) : State :=
  match s.bs.safety.bind (·.target t) with
  | none => s
  | some e =>
    if s.target t ≠ 1 ∧ s.target t ≠ 2 then s
    else
      let s := s.modSaf (fun a => { a with stopAt := a.stopAt.filter (fun x => x.1 != t) })
      let s := (s.targetArms t).foldl (fun s a => s.armHold a) s
      let s := s.blockLanes e
      let s := (s.targetArms t).foldl (fun s a =>
        let st := s.armState a
        if st = 1 ∨ st = 2 ∨ st = 4 then s.armBlockNow a 3 else s) s
      let s := s.setTarget t 3 src
      s.unitStopped (if t < 12 then t / 3 else t - 12)

/-- A controlled stop of a FREE target (R417); one of a unit target is the unit's own (R407, R255). -/
def State.safeStop (s : State) (t src : Nat) : State :=
  match s.bs.safety.bind (·.target t) with
  | none => s
  | some _ =>
    if s.target t ≠ 1 then s
    else
      let s := s.modSaf (fun a => { a with stopAt := (t, s.now, src) :: a.stopAt.filter (fun x => x.1 != t) })
      let s := ((s.targetArms t).foldl (fun s a => s.armStop a) s).setTarget t 2 src
      if t < 12 then s else s.unitStop (t - 12)

/-- A request on a set of targets (R416): kind 0 controlled stop, 1 safe block. -/
def State.safRequest (s : State) (mask kind src : Nat) : State :=
  (maskBits mask).foldl (fun s t => if kind = 0 then s.safeStop t src else s.safeBlock t src) s

/-! ### Demands (R416, R419) -/

/-- Whether any source has a demand in effect for a target. -/
def State.targetDemand (s : State) (t : Nat) : Bool :=
  match s.bs.safety with
  | none => false
  | some x =>
    x.pairs.any (fun e => s.bitAt Reg.SAF_DEMAND.pair 0 e.pair && e.targets / 2 ^ t % 2 == 1)
    || x.reqs.any (fun e => s.bitAt Reg.SAF_DEMAND.req 0 e.1 && e.2.1 / 2 ^ t % 2 == 1)
    || x.pchs.any (fun e => s.bitAt Reg.SAF_DEMAND.pch 0 e.chan && e.targets / 2 ^ t % 2 == 1)

/-- SAF_REQ r is asserted or deasserted by the reaction matrix (R416, R512). -/
def State.safReq (s : State) (r : Nat) (on : Bool) : State :=
  let was := s.bitAt Reg.SAF_DEMAND.req 0 r
  let s := s.setBit Reg.SAF_DEMAND.req 0 r on
  if !on || was then s
  else match s.bs.safety.bind (·.req r) with
    | some x => s.safRequest x.1 x.2 1
    | none => s

/-! ### Degraded mode and expiry (R423 to R425) -/

/-- The expiry action (Table 13.1). -/
def State.expire (s : State) : State :=
  match s.bs.safety with
  | none => s
  | some x =>
    if s.rd Reg.SAF_STAT.state 0 = 2 then s
    else
      let s := (s.wr Reg.SAF_STAT.state 0 2).wr Reg.SAF_DEG_STAT.remaining 0 0
      let s := s.raise 0x709 0 x.expiry
      if x.expiry = 0 then s
      else
        let s := s.modSaf (fun a => { a with expiryHold := bitsMask x.used, outputsOff := decide (x.expiry = 3) })
        (s.safRequest (bitsMask x.used) (if x.expiry = 1 then 0 else 1) 4).soutUpdate

/-- Degraded mode starts; a later cause does not restart the window (R423). -/
def State.degrade (s : State) (cause : Nat) : State :=
  match s.bs.safety with
  | none => s
  | some x =>
    if s.rd Reg.SAF_STAT.state 0 ≠ 0 then s
    else
      let s := (s.wr Reg.SAF_STAT.state 0 1).modSaf (fun a => { a with degAt := s.now })
      ((s.wr Reg.SAF_DEG_STAT.remaining 0 x.degWindow).wr Reg.SAF_DEG_STAT.cause 0 cause).raise 0x708 0 cause

/-- Whether a cause of degraded mode remains (R424). -/
def State.causeRemains (s : State) : Bool :=
  s.saf.pairs.any (fun p => p.2.a.fail || p.2.b.fail) || s.saf.pchs.any (fun p => p.2.disc || p.2.staleA || p.2.staleB)
  || !s.saf.soutBad.isEmpty || !s.flag Reg.SAF_STAT.chan_a_ok 0 || !s.flag Reg.SAF_STAT.chan_b_ok 0
  || !s.flag Reg.SAF_STAT.clk_ok 0 || s.saf.internal

/-- EXPIRED (R424): the degraded window runs out. -/
def execExpired (s : State) : Host.Outcome State Fault Refusal :=
  .next (s.mirrorOf (if s.rd Reg.SAF_STAT.state 0 = 1 then s.expire else s))

/-! ### Input pairs (R409 to R413) -/

def PairRt.chan (p : PairRt) (c : Nat) : ChanRt := if c = 0 then p.a else p.b
def PairRt.setChan (p : PairRt) (c : Nat) (x : ChanRt) : PairRt := if c = 0 then { p with a := x } else { p with b := x }

/-- A pair demands when a trusted channel does, or when neither channel is trusted (R410, R413). -/
def PairRt.demands (p : PairRt) : Bool := (p.a.fail && p.b.fail) || (!p.a.fail && p.a.demand) || (!p.b.fail && p.b.demand)

/-- Re-evaluate a pair's demand; a new one is reported and acts on the pair's targets. -/
def State.pairUpdate (s : State) (e : PairEntry) : State :=
  let p := e.pair
  let r := s.pair p
  let was := s.bitAt Reg.SAF_DEMAND.pair 0 p
  let d := r.demands
  let s := (s.setBit Reg.SAF_DEMAND.pair 0 p d).wr Reg.SAF_PAIR_STAT.demand p (bit d)
  let s := s.wr Reg.SAF_PAIR_STAT.single p (bit (r.a.fail || r.b.fail))
  let s := s.wr Reg.SAF_PAIR_STAT.test_fail p (bit r.a.fail + 2 * bit r.b.fail)
  if d && !was then
    let s := (s.wr Reg.SAF_PAIR_STAT.demanded p 1).count Reg.SAF_CNT.demands 0
    let s := s.raise 0x700 p (bit r.a.demand + 2 * bit r.b.demand + 2 ^ 16 * (e.targets % 2 ^ 16))
    s.safRequest e.targets e.kind 0
  else s

/-- The filtered pin level of a channel that demands or does not (R409). -/
def State.showLevel (s : State) (e : PairEntry) (c : Nat) (demand : Bool) : State :=
  let high := if e.mode = 2 ∧ c = 1 then demand else !demand
  if c = 0 then s.wr Reg.SAF_PAIR_STAT.ch_a e.pair (bit high) else s.wr Reg.SAF_PAIR_STAT.ch_b e.pair (bit high)

/-- PAIR_DEMAND (R410, R412): a channel has held its demand level for t_f outside its masked intervals. -/
def execPairDemand (pair : Fin 8) (channel : Fin 2) (s : State) : Host.Outcome State Fault Refusal :=
  .next (s.mirrorOf (match s.bs.safety.bind (·.pairOf pair) with
    | none => s
    | some e =>
      let s := s.showLevel e channel true
      (s.modPair pair (fun r => r.setChan channel { r.chan channel with demand := true })).pairUpdate e))

/-- PAIR_DEMAND_END (R410): both channels have shown no demand together for t_f. -/
def execPairDemandEnd (pair : Fin 8) (s : State) : Host.Outcome State Fault Refusal :=
  .next (match s.bs.safety.bind (·.pairOf pair) with
    | none => s
    | some e =>
      let s := (s.showLevel e 0 false).showLevel e 1 false
      (s.modPair pair (fun r =>
        { r with a := { r.a with demand := false }, b := { r.b with demand := false }, disc := false })).pairUpdate e)

/-- PAIR_DISCREPANCY (R410): the channels of an equivalent or antivalent pair have differed for t_disc. -/
def execPairDiscrepancy (pair : Fin 8) (a b : Bool) (s : State) : Host.Outcome State Fault Refusal :=
  .next (s.mirrorOf (match s.bs.safety.bind (·.pairOf pair) with
    | none => s
    | some e =>
      if e.mode = 3 then s
      else
        let s := (s.modPair pair (fun r => { r with disc := true })).wr Reg.SAF_PAIR_STAT.disc pair 1
        (s.setBit Reg.SAF_FAULT.pair_disc 0 pair true).raise 0x702 pair (bit a + 2 * bit b)))

/-- The STP output that feeds a channel; channel b of an antivalent pair is not test-pulsed (R409). -/
def PairEntry.stp (e : PairEntry) (c : Nat) : Option Nat :=
  if c = 0 then some e.stpA else if e.mode = 2 then none else some e.stpB

/-- A channel fails its test (R413, R425). DEDUCED (notes/assumptions/57.md). -/
def State.failTest (s : State) (e : PairEntry) (c n : Nat) : State :=
  let p := e.pair
  let s := s.modPair p (fun r => r.setChan c { r.chan c with fail := true, passed := 0 })
  let s := (s.setBit Reg.SAF_FAULT.test_fail 0 p true).count Reg.SAF_CNT.tests_failed 0
  let s := (s.raise 0x701 p (c + 16 * n)).degrade 1
  let s := s.pairUpdate e
  if (s.pair p).a.fail && (s.pair p).b.fail then s.expire else s

/-- The channels that an STP output feeds. -/
def State.fedBy (s : State) (n : Nat) : List (PairEntry × Nat) :=
  match s.bs.safety with
  | none => []
  | some x => (x.pairs.filter (fun e => e.mode != 0)).flatMap (fun e =>
      ([0, 1].filter (fun c => e.stp c == some n)).map (fun c => (e, c)))

/-- An STP output is low for t_tp from a cycle on: SAF_STP_STAT.pulsing. -/
def State.pulseFrom (s : State) (n c : Nat) : State :=
  s.modSaf (fun a => { a with pulses := (n, c) :: a.pulses.filter (fun x => x.1 != n) })

/-- An output in a pulse. -/
def State.pulsing (s : State) (n : Nat) : Bool :=
  s.saf.pulses.any (fun x => x.1 == n && decide ((s.cycle + 2 ^ 64 - x.2) % 2 ^ 64 < s.rd Reg.SAF_TP_CFG.width 0 * 400))

/-- One pulse of an STP output with its readback (R411). A channel that TEST_FAILED does not name has passed. -/
def State.testPulse (s : State) (n : Nat) (agrees : Bool) : State :=
  let s := { s with wire := s.wire ++ [Wire.stp n false, Wire.stp n true] }.pulseFrom n s.cycle
  if agrees then
    (s.fedBy n).foldl (fun s x => s.modPair x.1.pair (fun r =>
      r.setChan x.2 { r.chan x.2 with passed := (r.chan x.2).passed + 1 }))
      (s.modSaf (fun a => { a with stpBad := a.stpBad.filter (· != n) }))
  else
    let s := (s.modSaf (fun a => { a with stpBad := n :: a.stpBad.filter (· != n) })).setBit Reg.SAF_STP_STAT.fault 0 n true
    (s.fedBy n).foldl (fun s x => s.failTest x.1 x.2 n) (s.raise 0x703 n 0)

/-- TEST_PULSE (R411). DEDUCED (notes/assumptions/57.md). -/
def execTestPulse (stp : Fin 4) (agrees : Bool) (s : State) : Host.Outcome State Fault Refusal :=
  .next (s.mirrorOf (if s.bs.safety.isNone then s else s.testPulse stp agrees))

/-- TEST_FAILED (R413): the channel has not been low for t_tp / 2 by the end of the pulse. -/
def execTestFailed (pair : Fin 8) (channel : Fin 2) (s : State) : Host.Outcome State Fault Refusal :=
  .next (s.mirrorOf (match s.bs.safety.bind (·.pairOf pair) with
    | none => s
    | some e => match e.stp channel with
      | some n => s.failTest e channel n
      | none => s))

/-! ### Privileged channels (R414, R415) -/

/-- The reading that a channel's evaluation takes: the more pessimistic, or the one that is not stale. -/
def PchRt.pick (r : PchRt) (worse : Nat → Nat → Bool) : Nat :=
  if r.staleA && !r.staleB then r.xb
  else if r.staleB && !r.staleA then r.xa
  else if worse r.xb r.xa then r.xb else r.xa

/-- d x x x v in squared units (R414). -/
def powerOf (e : PchEntry) (x v : Nat) : Int := (if e.dirNeg then -1 else 1) * (fVal f32 x * fVal f32 v)

/-- The evaluated value x (R414). -/
def State.pchValue (s : State) (e : PchEntry) : Nat :=
  let v := s.rd Reg.SAF_PCH_VAL.x e.vchan
  (s.pch e.chan).pick (fun a b =>
    if e.func = 1 then decide ((fVal f32 b).natAbs < (fVal f32 a).natAbs)
    else if e.func = 2 then decide (fVal f32 b < fVal f32 a)
    else decide (powerOf e a v < powerOf e b v))

/-- Whether the value breaks the limit. -/
def State.pchExceeds (s : State) (e : PchEntry) (x : Nat) : Bool :=
  if e.func = 1 then decide (fVal f32 e.limit < ((fVal f32 x).natAbs : Int))
  else if e.func = 2 then decide (fVal f32 e.limit < fVal f32 x)
  else decide (powerOf e x (s.rd Reg.SAF_PCH_VAL.x e.vchan) < -(fVal f32 e.limit * f32.unit))

/-- Both readings are stale: the limit cannot be shown to hold (R415). -/
def PchRt.blind (r : PchRt) : Bool := r.staleA && r.staleB

/-- A violation in effect or not, with SAF_DEMAND. DEDUCED (notes/assumptions/58.md). -/
def State.setViolation (s : State) (n : Nat) (v : Bool) : State :=
  (s.wr Reg.SAF_PCH_STAT.violation n (bit v)).setBit Reg.SAF_DEMAND.pch 0 n v

/-- A violation acts on the channel's targets (R414). -/
def State.violate (s : State) (e : PchEntry) : State :=
  let s := (s.setViolation e.chan true).count Reg.SAF_PCH_STAT.violations e.chan
  (s.raise 0x704 e.chan (s.rd Reg.SAF_PCH_VAL.x e.chan)).safRequest e.targets e.kind 2

/-- The readings differ by more than the tolerance (R415). -/
def PchEntry.apart (e : PchEntry) (r : PchRt) : Bool :=
  decide (fVal f32 e.tol < ((fVal f32 r.xa - fVal f32 r.xb).natAbs : Int))

/-- A channel is evaluated again: the value that it shows, and the end of a violation that no longer holds. -/
def State.pchEvaluate (s : State) (e : PchEntry) : State :=
  let s := s.wr Reg.SAF_PCH_VAL.x e.chan (s.pchValue e)
  if s.flag Reg.SAF_PCH_STAT.violation e.chan && !(s.pch e.chan).blind && !s.pchExceeds e (s.rd Reg.SAF_PCH_VAL.x e.chan) then
    s.setViolation e.chan false
  else s

/-- A fresh reading of an AIN input for every privileged channel that names it; `v` is the binary64 sample before the host's
gain and offset. A violation or a discrepancy that the values no longer show ends; a channel whose voltage channel has a fresh reading is
evaluated too (R414). DEDUCED (notes/assumptions/58.md). -/
def State.pchSample (s : State) (input v : Nat) : State :=
  match s.bs.safety with
  | none => s
  | some x =>
    let used := x.pchs.filter (fun e => e.func != 0)
    let fed (e : PchEntry) : Bool := e.inA == input || e.inB == input
    let s := (used.filter fed).foldl (fun s e =>
      let scale (g o : Nat) : Nat := f64To32 (fAdd f64 (fMul f64 (f32To64 g) v) (f32To64 o))
        let s := if e.inA = input then s.modPch e.chan (fun r => { r with xa := scale e.gainA e.offA, staleA := false }) else s
        let s := if e.inB = input then s.modPch e.chan (fun r => { r with xb := scale e.gainB e.offB, staleB := false }) else s
        let r := s.pch e.chan
        let s := (s.wr Reg.SAF_PCH_STAT.stale_a e.chan (bit r.staleA)).wr Reg.SAF_PCH_STAT.stale_b e.chan (bit r.staleB)
        let s := if e.apart r then s else s.modPch e.chan (fun r => { r with disc := false })
        s.pchEvaluate e) s
    (used.filter (fun e => e.func == 3 && !fed e && used.any (fun v => v.chan == e.vchan && fed v))).foldl
      (fun s e => s.pchEvaluate e) s

/-- LIMIT_VIOLATION (R414): the channel's limit has been broken for t_resp. -/
def execLimitViolation (channel : Fin 4) (s : State) : Host.Outcome State Fault Refusal :=
  .next (s.mirrorOf (match s.bs.safety.bind (·.pchOf channel) with
    | none => s
    | some e =>
      if s.flag Reg.SAF_PCH_STAT.violation channel || !s.pchExceeds e (s.rd Reg.SAF_PCH_VAL.x channel) then s
      else s.violate e))

/-- MEAS_DISCREPANCY (R415, R425): the readings have differed by more than the tolerance for t_resp, or one has not been refreshed
for 2 x t_resp. -/
def execMeasDiscrepancy (channel : Fin 4) (staleA staleB : Bool) (s : State) : Host.Outcome State Fault Refusal :=
  .next (s.mirrorOf (match s.bs.safety.bind (·.pchOf channel) with
    | none => s
    | some e =>
      let n : Nat := channel
      let s := s.modPch n (fun r => { r with staleA := r.staleA || staleA, staleB := r.staleB || staleB })
      let r := s.pch n
      let apart := e.apart r
      if !apart && !r.staleA && !r.staleB then s
      else
        let s := (s.modPch n (fun r => { r with disc := apart })).wr Reg.SAF_PCH_STAT.disc n 1
        let s := (s.wr Reg.SAF_PCH_STAT.stale_a n (bit r.staleA)).wr Reg.SAF_PCH_STAT.stale_b n (bit r.staleB)
        let s := (s.wr Reg.SAF_PCH_VAL.x n (s.pchValue e)).setBit Reg.SAF_FAULT.meas_disc 0 n true
        let s := (s.raise 0x705 n (bit r.staleA + 2 * bit r.staleB + 4 * bit apart)).degrade 2
        if r.blind then
          (if s.flag Reg.SAF_PCH_STAT.violation n then s else s.violate e).expire
        else s))

/-! ### Stop in progress (R417) -/

/-- lambda at the present station time, binary32. -/
def State.stopFactor (s : State) (e : TgtEntry) (t0 : Nat) : Nat :=
  let gone := (s.now + 2 ^ 64 - t0) % 2 ^ 64
  let ramp := e.ramp * 12800000
  fOfRat f32 false ((ramp : Int) - min gone ramp) ramp

/-- The stop factor of each stopping target, once per seam. DEDUCED (notes/assumptions/60.md). -/
def State.safSeam (s : State) : State :=
  match s.bs.safety with
  | none => s
  | some x => s.saf.stopAt.foldl (fun s y =>
      match x.target y.1 with
      | some e => s.setBothFloat (x.base + y.1) (s.stopFactor e y.2.1)
      | none => s) s

/-- The source of a stop in progress. -/
def State.stopSource (s : State) (t : Nat) : Nat := ((s.saf.stopAt.find? (fun x => x.1 == t)).map (·.2.2)).getD 0

/-- STOP_TIMEOUT (R417): t_r + t_ramp + t_m is reached. -/
def execStopTimeout (target : Fin 16) (s : State) : Host.Outcome State Fault Refusal :=
  .next (s.mirrorOf (if s.target target = 2 then s.safeBlock target (s.stopSource target) else s))

/-- The monitored value lies above its envelope: |x| > l x lambda(t) + tol, in exact arithmetic (R417).
DEDUCED (notes/assumptions/60.md). -/
def State.aboveEnvelope (s : State) (e : TgtEntry) (c : PchEntry) : Bool :=
  match s.saf.stopAt.find? (fun x => x.1 == e.target) with
  | some y =>
    let ramp := max (e.ramp * 12800000) 1
    let gone := min ((s.now + 2 ^ 64 - y.2.1) % 2 ^ 64) ramp
    let x : Int := (fVal f32 (s.rd Reg.SAF_PCH_VAL.x c.chan)).natAbs
    decide (fVal f32 c.limit * (ramp - gone) < (x - fVal f32 c.tol) * ramp)
  | none => false

/-- ENVELOPE_VIOLATION (R417): the monitored value has been above its envelope for t_resp. -/
def execEnvelopeViolation (target : Fin 16) (s : State) : Host.Outcome State Fault Refusal :=
  .next (s.mirrorOf (match s.bs.safety.bind (·.target target) with
    | some e =>
      if s.target target = 2 ∧ (e.mon.bind (fun n => s.bs.safety.bind (·.pchOf n))).any (s.aboveEnvelope e) then
        s.safeBlock target (s.stopSource target)
      else s
    | none => s))

/-! ### Host commands (R416, R419, R424, R428) -/

/-- SAF_UNLOCK (R419): a write of the key register. -/
def execSafUnlock (key : Nat) (s : State) : Host.Outcome State Fault Refusal := byHost (fun s =>
  .next (if key % 65536 = 0x5AFE then s.modSaf (fun a => { a with unlock := some s.now }) else s)) s

/-- UNLOCK_EXPIRED (R419). -/
def execUnlockExpired (s : State) : Host.Outcome State Fault Refusal := .next (s.modSaf (fun a => { a with unlock := none }))

/-- A command's status, with event 0x70B when it or part of it is refused. -/
def State.safStatus (s : State) (status refused : Nat) : State :=
  let s := (s.wr Reg.SAF_CMD_STAT.status 0 status).wr Reg.SAF_CMD_STAT.refused 0 refused
  if status = 1 then s else s.raise 0x70B 0 (status + 2 ^ 16 * (refused % 2 ^ 16))

/-- A command closes the unlock, whatever its outcome (R428). -/
def State.lockAgain (s : State) : State := s.modSaf (fun a => { a with unlock := none })

def execSafCmdStop (targets : Nat) (s : State) : Host.Outcome State Fault Refusal := byHost (fun s =>
  .next (s.mirrorOf ((s.lockAgain.safRequest targets 0 3).safStatus 1 0))) s

def execSafCmdBlock (targets : Nat) (s : State) : Host.Outcome State Fault Refusal := byHost (fun s =>
  .next (s.mirrorOf ((s.lockAgain.safRequest targets 1 3).safStatus 1 0))) s

/-- Why a target is not released: 0 it is (R419). DEDUCED (notes/assumptions/59.md). -/
def State.releaseRefusal (s : State) (t : Nat) : Nat :=
  if s.target t ≠ 3 then 4
  else if s.targetDemand t then 3
  else if s.saf.expiryHold / 2 ^ t % 2 = 1 then 5
  else 0

/-- A failed channel of a pair that names the target is trusted again when it has passed two tests in a row (R413). -/
def State.trustAgain (s : State) (t : Nat) : State :=
  match s.bs.safety with
  | none => s
  | some x => (x.pairs.filter (fun e => e.mode != 0 && e.targets / 2 ^ t % 2 == 1)).foldl (fun s e =>
      let again (c : ChanRt) : ChanRt := if c.fail && decide (2 ≤ c.passed) then { c with fail := false } else c
      (s.modPair e.pair (fun r => { r with a := again r.a, b := again r.b })).pairUpdate e) s

/-- Release one target: its arms stay BLOCKED (R419). -/
def State.safRelease (s : State) (t : Nat) : State :=
  let words := ((s.bs.safety.bind (·.target t)).map (fun e => e.lanes.map (fun l => (l, s.prioWord l)))).getD []
  let s := (s.setTarget t 1 3).trustAgain t
  let s := (s.targetArms t).foldl (fun s a =>
    if (List.range 16).any (fun u => decide (2 ≤ s.target u) && (s.targetArms u).contains a) then s
    else s.wr Reg.ARM_STAT.saf_hold a 0) s
  words.foldl (fun s x => (s.modLane x.1 (fun r => { r with safBlock := r.safBlock && s.laneHeld x.1 true })).prioChanged x.1 x.2) s

/-- SAF_CMD RELEASE (R419, R428). -/
def execSafCmdRelease (targets : Nat) (s : State) : Host.Outcome State Fault Refusal := byHost (fun s =>
  .next (s.mirrorOf (if s.saf.unlock.isNone then s.safStatus 2 targets
    else
      let s := s.lockAgain
      let bad := (maskBits targets).filter (fun t => s.releaseRefusal t != 0)
      let first := (bad.head?.map s.releaseRefusal).getD 1
      let s := ((maskBits targets).filter (fun t => s.releaseRefusal t == 0)).foldl (fun s t => s.safRelease t) s
      s.safStatus first (bitsMask bad)))) s

/-- SAF_CMD CLEAR (R424, R428). DEDUCED (notes/assumptions/59.md). -/
def execSafCmdClear (targets : Nat) (s : State) : Host.Outcome State Fault Refusal := byHost (fun s =>
  .next (if s.saf.unlock.isNone then s.safStatus 2 targets
    else
      let s := s.lockAgain
      if s.causeRemains then s.safStatus 5 targets
      else
        let s := if s.rd Reg.SAF_STAT.state 0 = 4 then s else s.wr Reg.SAF_STAT.state 0 0
        let s := (s.wr Reg.SAF_DEG_STAT.remaining 0 0).wr Reg.SAF_DEG_STAT.cause 0 0
        ((s.modSaf (fun a => { a with expiryHold := 0, outputsOff := false })).soutUpdate).safStatus 1 0)) s

/-- SAF_CMD TEST_NOW (R413): one pulse on every STP output, in the order in which they are staggered. -/
def execSafCmdTestNow (s : State) : Host.Outcome State Fault Refusal := byHost (fun s =>
  .next (if s.bs.safety.isNone then s.lockAgain.safStatus 1 0
    else ((List.range 4).foldl (fun s n => (s.testPulse n true).pulseFrom n (s.cycle + n * s.rd Reg.SAF_TP_CFG.period 0 * 100000)) s.lockAgain).safStatus
      1 0)) s

/-! ### Output tests and self-supervision (R402, R403, R422) -/

/-- SOUT_TEST (R422): A and then B of an output that is on go low for 200 microseconds; `agrees` says that both pins followed. -/
def execSoutTest (output : Fin 4) (agrees : Bool) (s : State) : Host.Outcome State Fault Refusal :=
  .next (if !s.bitAt Reg.SAF_SOUT_STAT.on 0 output then s
    else
      let n : Nat := output
      let s := { s with wire := s.wire ++ [Wire.sout n false true, Wire.sout n true true, Wire.sout n true false, Wire.sout n true true] }
      if agrees then s.modSaf (fun a => { a with soutBad := a.soutBad.filter (· != n) }) else s)

/-- SOUT_READBACK (R422): a pin has disagreed with its command for 50 microseconds. -/
def execSoutReadback (output : Fin 4) (channel : Fin 2) (s : State) : Host.Outcome State Fault Refusal :=
  .next (if s.bs.safety.isNone then s
    else
      let n : Nat := output
      let s := (s.setBit Reg.SAF_SOUT_STAT.readback 0 n true).wr Reg.SAF_FAULT.readback 0 1
      let s := s.modSaf (fun a => { a with soutBad := n :: a.soutBad.filter (· != n) })
      (s.raise 0x707 n channel).degrade 3)

/-- SAF_CLOCK_WINDOW (R403, R425): core cycles counted in a window of 10 microseconds. -/
def execSafClockWindow (count : Nat) (s : State) : Host.Outcome State Fault Refusal :=
  let s := s.wr Reg.SAF_CLK_MON.count 0 (min count 65535)
  .next (s.mirrorOf (if 3700 ≤ count ∧ count ≤ 4300 then (s.modSaf (fun a => { a with clkBad := 0 })).wr Reg.SAF_STAT.clk_ok 0 1
    else
      let old := s.saf.clkBad
      let n := if count = 0 then 2 else old + 1
      let s := s.modSaf (fun a => { a with clkBad := n })
      if 2 ≤ n ∧ old < 2 then
        (((s.wr Reg.SAF_STAT.clk_ok 0 0).wr Reg.SAF_FAULT.clock 0 1).raise 0x70A 0 count).expire
      else s))

/-- SELF_CHECK (R402, R423, R425): results of both channels, and whether they agree. -/
def execSelfCheck (a b agree : Bool) (s : State) : Host.Outcome State Fault Refusal :=
  let s := (s.wr Reg.SAF_STAT.chan_a_ok 0 (bit a)).wr Reg.SAF_STAT.chan_b_ok 0 (bit b)
  .next (s.mirrorOf (if a && b && agree then s.modSaf (fun x => { x with internal := false })
    else
      let s := (s.wr Reg.SAF_FAULT.internal 0 1).modSaf (fun x => { x with internal := true })
      if !a && !b then s.expire else s.degrade 4))

/-! ### Bit-stream start (R405, R408) and take-over (R420) -/

/-- Fields that show the safety section, and the state of its pairs and channels. -/
def safetyFields : List Field :=
  (regsSaf0 ++ regsSaf1 ++ regsSaf2).filter (fun f => f.acc == .ro && decide (0x6100 ≤ f.addr) && f != Reg.SAF_TGT.state
    && f != Reg.SAF_PCH_STAT.violation && f != Reg.SAF_PCH_VAL.x && f != Reg.SAF_PCH_STAT.stale_a && f != Reg.SAF_PCH_STAT.stale_b)

/-- The register fields that show the safety section; those of a pair, target or channel that it does not name read 0. -/
def State.showSafety (s : State) (x : Safety) : State :=
  let s := s.clearFields safetyFields
  let s := (s.wr Reg.SAF_CFG_DIGEST.digest 0 x.digest).wr Reg.SAF_CFG_INFO.pairs 0
    (bitsMask ((x.pairs.filter (fun e => e.mode != 0)).map (·.pair)))
  let s := (s.wr Reg.SAF_CFG_INFO.pchs 0 (bitsMask ((x.pchs.filter (fun e => e.func != 0)).map (·.chan)))).wr
    Reg.SAF_CFG_INFO.souts 0 (bitsMask (x.souts.map (·.out)))
  let s := (s.wr Reg.SAF_CFG_INFO.expiry_action 0 x.expiry).wr Reg.SAF_CFG_INFO.deg_window 0 x.degWindow
  let s := (s.wr Reg.SAF_TP_CFG.width 0 x.tpWidth).wr Reg.SAF_TP_CFG.period 0 x.tpPeriod
  let s := s.wr Reg.SAF_SOUT_STAT.standby_on 0 (bitsMask ((x.souts.filter (·.standbyOn)).map (·.out)))
  let s := x.pairs.foldl (fun s e =>
    let p := e.pair
    let s := ((s.wr Reg.SAF_PAIR_CFG.mode p e.mode).wr Reg.SAF_PAIR_CFG.stp_a p e.stpA).wr Reg.SAF_PAIR_CFG.stp_b p e.stpB
    let s := ((s.wr Reg.SAF_PAIR_CFG.kind p e.kind).wr Reg.SAF_PAIR_CFG.filter p e.filter).wr Reg.SAF_PAIR_CFG.disc p e.disc
    s.wr Reg.SAF_PAIR_STAT.targets p e.targets) s
  let s := x.pchs.foldl (fun s e =>
    let n := e.chan
    let s := ((s.wr Reg.SAF_PCH_CFG.func n e.func).wr Reg.SAF_PCH_CFG.in_a n e.inA).wr Reg.SAF_PCH_CFG.in_b n e.inB
    let s := ((s.wr Reg.SAF_PCH_CFG.vchan n e.vchan).wr Reg.SAF_PCH_CFG.dir n (bit e.dirNeg)).wr Reg.SAF_PCH_CFG.kind n e.kind
    ((s.wr Reg.SAF_PCH_CFG.targets n e.targets).wr Reg.SAF_PCH_LIMIT.limit n e.limit).wr Reg.SAF_PCH_STAT.t_resp n e.resp) s
  x.targets.foldl (fun s e =>
    let t := e.target
    let s := (s.wr Reg.SAF_TGT.monitored t (bit e.mon.isSome)).wr Reg.SAF_TGT.channel t (e.mon.getD 0)
    (s.wr Reg.SAF_TGT.ramp t e.ramp).wr Reg.SAF_TGT.margin t e.margin) s

/-- A target at bit-stream start: BLOCKED and held when it has a demand, else FREE (R408). -/
def State.targetStart (s : State) (e : TgtEntry) : State :=
  let t := e.target
  if s.targetDemand t then
    let s := (s.targetArms t).foldl (fun s a => s.wr Reg.ARM_STAT.saf_hold a 1) s
    s.setTarget t 3 0
  else s.setTarget t 1 0

/-- Lanes carry the safety block bit of the targets that are BLOCKED, and keep it for one that is STOPPING (R418). -/
def State.laneBits (s : State) : State :=
  s.bs.lanes.foldl (fun s e => s.modLane e.lane (fun r => { r with
    safBlock := s.laneHeld e.lane false || (r.safBlock && s.laneHeld e.lane true) })) s

/-- A privileged channel at the start: one in use keeps its readings, and its violation where the new limit is broken too. -/
def State.pchStart (s : State) (e : PchEntry) : State :=
  let r := s.pch e.chan
  let v := s.flag Reg.SAF_PCH_STAT.violation e.chan && (r.blind || s.pchExceeds e (s.pchValue e))
  ((s.wr Reg.SAF_PCH_VAL.x e.chan (s.pchValue e)).setViolation e.chan v)

/-- The safety section takes effect (R405, R408): the STP outputs go high (Table 15.4). Demands of input pairs and violations of privileged
channels that it uses carry on. -/
def State.safStart (s : State) (x : Safety) : State :=
  let keep := s.saf.pairs.filter (fun p => (x.pairOf p.1).isSome)
  let used := x.pchs.filter (fun e => e.func != 0)
  let readings := s.saf.pchs.filter (fun p => used.any (fun e => e.chan == p.1))
  let s := { s with wire := s.wire ++ (List.range 4).map (fun n => Wire.stp n true) }
  let s := s.modSaf (fun a => { Saf.reset with pairs := keep, pchs := readings, clkBad := a.clkBad, internal := a.internal })
  let s := s.wr Reg.SAF_STAT.state 0 0
  let s := (List.range 16).foldl (fun s t => if x.used.contains t then s
    else ((s.wr Reg.SAF_TGT.state t 0).setBit Reg.SAF_STOP_STAT.blocked 0 t false).setBit Reg.SAF_HOLD.saf_hold 0 t false) s
  let s := State.forEach 4 (fun n s => if used.any (fun e => e.chan == n) then s
    else ((((s.setViolation n false).wr Reg.SAF_PCH_VAL.x n 0).wr Reg.SAF_PCH_STAT.stale_a n 0).wr Reg.SAF_PCH_STAT.stale_b n 0)) s
  let s := used.foldl (fun s e => s.pchStart e) s
  let s := s.wr Reg.SAF_DEMAND.pair 0 (bitsMask ((keep.filter (fun p => p.2.demands)).map (·.1)))
  let s := s.showSafety x
  let s := keep.foldl (fun (s : State) p =>
    ((s.wr Reg.SAF_PAIR_STAT.demand p.1 (bit p.2.demands)).wr Reg.SAF_PAIR_STAT.single p.1 (bit (p.2.a.fail || p.2.b.fail))).wr
      Reg.SAF_PAIR_STAT.test_fail p.1 (bit p.2.a.fail + 2 * bit p.2.b.fail)) s
  let s := (x.pairs.filter (fun e => e.mode != 0)).foldl (fun s e =>
    (s.showLevel e 0 (s.pair e.pair).a.demand).showLevel e 1 (s.pair e.pair).b.demand) s
  ((x.targets.foldl (fun s e => s.targetStart e) s).laneBits).soutUpdate

/-- The arms of a target that is BLOCKED are held, and those that act are blocked (R418). -/
def State.blockArms (s : State) (t : Nat) : State :=
  let s := (s.targetArms t).foldl (fun s a => s.armHold a) s
  let s := (s.targetArms t).foldl (fun s a =>
    let st := s.armState a
    if st = 1 ∨ st = 2 ∨ st = 4 then s.armBlockNow a 3 else s) s
  s.unitStopped (if t < 12 then t / 3 else t - 12)

/-- After a take-over every target whose arms carry saf_hold in the image is BLOCKED; what this unit's own SAF domain has recognised acts
on the arms as the image gives them (R420). -/
def State.safTakeover (s : State) : State :=
  match s.bs.safety with
  | none => s
  | some x =>
    let held := x.targets.filter (fun e => (s.targetArms e.target).any (fun a => s.flag Reg.ARM_STAT.saf_hold a))
    (x.targets.foldl (fun s e =>
      let t := e.target
      if s.target t = 3 then s.blockArms t
      else if held.contains e then (s.blockArms t).setTarget t 3 0
      else if s.target t = 2 then (s.targetArms t).foldl (fun s a => s.armStop a) s
      else s) s).laneBits

end Sys2Proof.Machine
end

