-- ==== Sys2Proof/Machine/Adc.lean ====
section
/-! DEFINITION. Measurement (R316 to R343): converter cores, their rounds and sequences, samples, comparators, the delta-sigma path, system
calibration and sampled values. Conversions and modulator bits come from the analogue die with the command. -/

namespace Sys2Proof.Machine

def State.ain (s : State) (i : Nat) : AinRt := tabGet AinRt.clear s.adc.ains i
def State.modAin (s : State) (i : Nat) (f : AinRt → AinRt) : State :=
  s.modAdc (fun a => { a with ains := tabMod AinRt.clear a.ains i f })
def State.sub (s : State) (n : Nat) : SvRt := tabGet SvRt.clear s.adc.subs n
def State.modSub (s : State) (n : Nat) (f : SvRt → SvRt) : State :=
  s.modAdc (fun a => { a with subs := tabMod SvRt.clear a.subs n f })

/-! ### Sequences (R322) -/

/-- The registers that show a core. -/
def State.showCore (s : State) (c : Nat) : State :=
  let r := s.core c
  let s := (s.wr Reg.ADC_CORE_STAT.running c (bit r.running)).setBit Reg.ADC_STAT.running 0 c r.running
  let s := (s.wr Reg.ADC_CORE_STAT.inj_queue c r.queue.length).wr Reg.ADC_CORE_STAT.inj_busy c (bit r.busy.isSome)
  s.wr Reg.ADC_CORE_STAT.entry c (match r.busy with | some b => b.1 | none => r.pos)

/-- A run starts: entries, trigger parameters, OSR and FIR are taken from the registers (R322, R343). -/
def State.startRun (s : State) (c : Nat) : State :=
  let n := s.rd Reg.ADC_CORE_CTRL.reg_len c + 1
  let osr := 2 * s.rd Reg.ADC_DS_CFG.half_osr c
  let fir := s.flag Reg.ADC_DS_CFG.fir_en c
  s.modCore c (fun r => { r with
    entries := (List.range n).map (fun i => s.seqEntry c false i), running := true, pos := 0, lead := false, taken := 0
    offset := s.rd Reg.ADC_CORE_TRIG.offset c, param := s.rd Reg.ADC_CORE_TRIG.param c
    ds := { r.ds with
      settle := if r.ds.osr = osr ∧ r.ds.fir = fir then r.ds.settle else 5 + (if fir then 2 else 0), osr := osr, fir := fir } })

/-- The next entry of a run, or its end; a continuous run starts again. -/
def State.nextEntry (s : State) (c : Nat) : State :=
  let r := s.core c
  if r.pos + 1 < r.entries.length then s.modCore c (fun r => { r with pos := r.pos + 1, lead := false, taken := 0 })
  else if s.rd Reg.ADC_CORE_CTRL.reg_trig c = 1 then s.startRun c
  else s.modCore c (fun r => { r with running := false, pos := 0, lead := false, taken := 0 })

/-! ### Rounds (R318, R324, R325) -/

/-- A change of input or gain before a sample (R325). -/
def settles (last : Option (Nat × Nat)) (x : Nat × Nat) : Bool := last != some x

/-- The entry in service: its number, the entry, whether it is injected. -/
def CoreRt.current (r : CoreRt) : Option (Nat × SeqEntry × Bool) :=
  match r.busy with
  | some (n, x) => some (n, x, true)
  | none => if r.running then (r.entries[r.pos]?).map (fun x => (r.pos, x, false)) else none

/-- The core has neither a round in progress nor work that waits for one. -/
def CoreRt.idle (r : CoreRt) : Bool := !r.round && r.queue.isEmpty && r.current.isNone

/-- The conversions of `n` rounds of the entry in service are a sample that is being formed. -/
def CoreRt.form (r : CoreRt) (x : Nat × SeqEntry × Bool) (lead : Bool) (n : Nat) : List Forming :=
  r.forming ++ [⟨x.2.1, x.1, x.2.2, lead, lead || r.settling, if x.2.2 then r.delay else 0, r.first, n⟩]

/-- The round in progress ends at the boundary: a lead round and the last round of an entry give a sample; an injected entry is then
served, a regular one gives way to the next. -/
def State.roundEnd (s : State) (c : Nat) : State :=
  let r := s.core c
  match r.round, r.current with
  | true, some x =>
    if x.2.1.lead && !r.lead then s.modCore c (fun r => { r with forming := r.form x true 1, lead := true, taken := 0 })
    else if r.taken + 1 < x.2.1.rounds then s.modCore c (fun r => { r with taken := r.taken + 1 })
    else
      let s := s.modCore c (fun r => { r with forming := r.form x false x.2.1.rounds, lead := false, taken := 0 })
      if x.2.2 then (s.count Reg.ADC_SPOIL_CORE.served c).modCore c (fun r => { r with busy := none }) else s.nextEntry c
  | _, _ => s

/-- With no injected entry in service the oldest request is served from boundary `b` on; a regular entry that it interrupts will
restart from its first round (R324). DESIGN CHOICE (notes/assumptions/120.md). -/
def State.serveInjected (s : State) (c b : Nat) : State :=
  let r := s.core c
  match r.busy, r.queue with
  | none, (e, at_) :: q =>
    let d := min (b - at_) 1023
    let s := s.modCore c (fun r => { r with queue := q, busy := some (e, s.seqEntry c true e), delay := d, lead := false, taken := 0 })
    (s.wr Reg.ADC_INJ_DELAY.last c d).wr Reg.ADC_INJ_DELAY.max c (max (s.rd Reg.ADC_INJ_DELAY.max c) d)
  | _, _ => s

/-- A round of the entry in service begins at boundary `b`; a change of input or gain makes its first conversions settling ones. -/
def CoreRt.begin (r : CoreRt) (b : Nat) : CoreRt :=
  match r.current with
  | none => { r with round := false }
  | some (_, x, _) =>
    let change := settles r.last (x.input, x.gain)
    { r with
      round := true, next := b + 16, last := some (x.input, x.gain), first := if r.taken = 0 then b else r.first
      settling := change || (r.taken != 0 && r.settling) }

/-- The round boundary of a core. -/
def State.boundary (s : State) (c : Nat) : State :=
  let b := (s.core c).next
  (((s.roundEnd c).serveInjected c b).modCore c (fun r => r.begin b)).showCore c

/-- The round boundaries of a core before cycle `now`. -/
def State.rounds (s : State) (c now : Nat) : Nat → State
  | 0 => s
  | fuel + 1 => if (s.core c).idle || now ≤ (s.core c).next then s else (s.boundary c).rounds c now fuel

/-- A core's rounds up to cycle `now`; one that does not convert loses its round, and begins again when it converts. -/
def State.coreAdvance (s : State) (c now : Nat) : State :=
  let r := s.core c
  if r.mode ≠ 1 || r.idle then s
  else if s.coreRuns c then s.rounds c now ((now - r.next) / 16 + 1)
  else s.modCore c (fun r => { r with round := false, lead := false, taken := 0, next := now })

/-- The rounds of every core up to cycle `now`. -/
def State.adcAdvance (s : State) (now : Nat) : State := State.forEach 4 (fun c s => s.coreAdvance c now) s

/-- Work arrives at a core that has none: its next round begins in this cycle. -/
def CoreRt.awake (r : CoreRt) (now : Nat) : CoreRt := if r.idle then { r with next := now } else r

/-! ### Triggers (R322, R323) -/

/-- The trigger is the one that ADC_CORE_CTRL.reg_trig selects, with the parameters in effect (R343); the seams counted are those
whose epoch number is a multiple of the interval. DESIGN CHOICE (notes/assumptions/120.md). -/
def State.regFires (s : State) (c : Nat) (source : RegSource) : Bool :=
  let t := s.rd Reg.ADC_CORE_CTRL.reg_trig c
  let r := s.core c
  match source with
  | .continuous => t == 1 && !r.running
  | .seam => t == 2 && s.epo.begun && s.epo.k % (r.param + 1) == 0 && s.cycle == s.fab.seamCycle + r.offset
  | .carrier arm kind => t == 3 && r.param == 4 * arm + kind
  | .drive ch => t == 4 && r.param == ch
  | .host => t == 5

/-- A trigger that fires: a run starts, or an overrun is counted. -/
def State.regTrigger (s : State) (c : Nat) (source : RegSource) : State :=
  let s := s.coreAdvance c s.cycle
  let r := s.core c
  if !s.coreRuns c || r.mode == 0 || !s.regFires c source then s
  else if r.running then
    let s := s.count Reg.ADC_CORE_CNT.overruns c
    if r.overrun then s else (s.modCore c (fun r => { r with overrun := true })).raise 0x401 c s.epoch
  else (((s.modCore c (fun r => r.awake s.cycle)).startRun c).modCore c (fun r => { r with overrun := false })).showCore c

/-- A host write of a core that the map gives to another holder is refused (R339). -/
def State.coreHeld (s : State) (c : Nat) : Option State :=
  (s.heldBy 3 c).map (fun h => (s.wr Reg.ADC_CORE_STAT.mode_status c 2).raise 0x408 c h.number)

/-- REG_TRIGGER (R322). -/
def execRegTrigger (core : Fin 4) (source : RegSource) (s : State) : Host.Outcome State Fault Refusal :=
  match source with
  | .host =>
    byHost (fun s =>
      match s.coreHeld core with
      | some t => .next t
      | none => .next (s.regTrigger core source)) s
  | .continuous | .seam | .carrier _ _ | .drive _ => .next (s.regTrigger core source)

/-- The trigger is the entry's own. -/
def State.injFires (s : State) (c e : Nat) (source : InjSource) : Bool :=
  let x := s.seqEntry c true e
  match source with
  | .seam => x.trigger == 1 && s.epo.begun && decide (x.offset < s.rd Reg.EPO_LEN.cycles 0) && s.cycle == s.fab.seamCycle + x.offset
  | .tripIn p => x.trigger == 2 && x.pin == p
  | .fabric => x.trigger == 3 && (s.core c).changed.contains e
  | .host => x.trigger == 4

/-- The queue with a request of cycle `now`: requests of one cycle stand in entry order. -/
def queueRequest (q : List (Nat × Nat)) (e now : Nat) : List (Nat × Nat) :=
  q.filter (fun x => x.2 != now || decide (x.1 ≤ e)) ++ (e, now) :: q.filter (fun x => x.2 == now && decide (e < x.1))

/-- A request of an injected entry; in delta-sigma mode it is inactive (R330). -/
def State.injRequest (s : State) (c e : Nat) (source : InjSource) : State :=
  let s := s.coreAdvance c s.cycle
  let r := s.core c
  if !s.coreRuns c || r.mode != 1 || decide (s.rd Reg.ADC_CORE_CTRL.inj_len c ≤ e) || !s.injFires c e source then s
  else
    let s := s.modCore c (fun r => { r with changed := r.changed.filter (· != e) })
    if r.queue.length < 4 then
      (s.modCore c (fun r => { r.awake s.cycle with queue := queueRequest r.queue e s.cycle })).showCore c
    else
      ((s.count Reg.ADC_SPOIL.count 0).count Reg.ADC_SPOIL_CORE.spoiled c).modCore c (fun r => { r with drops := r.drops + 1 })

/-- INJ_REQUEST (R323). -/
def execInjRequest (core : Fin 4) (entry : Fin 4) (source : InjSource) (s : State) : Host.Outcome State Fault Refusal :=
  match source with
  | .host => byHost (fun s => .next (s.injRequest core entry source)) s
  | .seam | .tripIn _ | .fabric => .next (s.injRequest core entry source)

/-- INJ_SERVICE (R324): at a round boundary in this cycle the oldest request is served, unless an injected entry goes on. -/
def execInjService (core : Fin 4) (s : State) : Host.Outcome State Fault Refusal :=
  let c : Nat := core
  let s := s.coreAdvance c s.cycle
  let r := s.core c
  .next (if !s.coreRuns c || r.mode != 1 || r.queue.isEmpty || r.next != s.cycle then s else s.boundary c)

/-! ### Sample values (R316, R317) -/

/-- Volts of a mean of codes, binary64, rounded once: FS is 2 / 2^gain volts for a full code of `top`. -/
def codeVolts (sum : Int) (n gain top : Nat) : Nat := fOfRat f64 false (sum * 2) (n * top * 2 ^ gain)

/-- fl(g x v + o), v binary64, rounded once. -/
def scaleSample (g o v : Nat) : Nat :=
  fOfRat f32 (fNeg f32 g != fNeg f64 v && fNeg f32 o) (fVal f32 g * fVal f64 v + fVal f32 o * f64.unit) (f32.unit * f64.unit)

def inPoint (i off : Nat) : Nat := 8 * i + off

/-- Value of a sample of input i; poisoned when gain or offset is poisoned or not finite. -/
def State.sampleValue (s : State) (i v : Nat) : Pt :=
  let g := s.pub (inPoint i 5)
  let o := s.pub (inPoint i 6)
  ⟨scaleSample (g.v % 2 ^ 32) (o.v % 2 ^ 32) v,
   g.bad || o.bad || !fFinite f32 (g.v % 2 ^ 32) || !fFinite f32 (o.v % 2 ^ 32)⟩

/-- Point +7 of an input. -/
def State.showInput (s : State) (i : Nat) : State :=
  let r := s.ain i
  let uncal := !s.flag Reg.ADC_CORE_STAT.cal_valid (i / 8)
  s.setPoint (inPoint i 7) (tagged (bit r.above + 2 * bit r.below + 4 * bit r.clip + 8 * bit uncal + 256 * min r.n 255) s.epoch)

/-- An item for a stream that may be full (R321, R327): dropped and reported once per episode. -/
def State.streamItem (s : State) (core : Option Nat) (n : Nat) (word : Pt) (time : Nat) : State :=
  if !s.flag Reg.ADC_CTRL.stream_en 0 ∨ s.bs.streamDepth n = 0 then s
  else if s.streamFull n then
    let s := match core with
      | some c => s.count Reg.ADC_CORE_CNT.stream_drop c
      | none => s
    if s.adc.dropping.contains n then s
    else (s.modAdc (fun a => { a with dropping := n :: a.dropping })).raise 0x405 n s.epoch
  else
    (s.modAdc (fun a => { a with dropping := a.dropping.filter (· != n) })).streamPush n [word, ⟨time, false⟩]

/-- A clipped conversion (R326). -/
def State.clipped (s : State) (i : Nat) : State :=
  let open_ := (s.ain i).clipOpen
  let s := (s.setBit Reg.ADC_CLIP.clip 0 i true).modAin i (fun r => { r with clip := true, clipOpen := true })
  if !open_ && s.flag Reg.ADC_CTRL.clip_ev 0 then s.raise 0x402 i s.epoch else s

/-- Range of the epoch's values. -/
def widen (r : Option (Nat × Nat)) (x : Nat) : Nat × Nat :=
  match r with
  | none => (x, x)
  | some (a, b) => (if fLt f32 x a then x else a, if fLt f32 b x then x else b)

/-- What a recorded sample is: its core, input, sequence entry, flags of Table 10.4 beside UNCAL and the comparators, and the
delay of an injected one. -/
structure SampleInfo where
  core : Nat
  input : Nat
  entry : Nat
  flags : Nat
  injected : Bool
  delay : Nat
deriving DecidableEq, Repr

/-- A step of the system calibration takes a clean regular sample, or ends on a clipped one (R334). -/
def State.calSample (s : State) (m : SampleInfo) (v gain : Nat) : State :=
  let c := s.adc.cal
  if !c.active || c.input != m.input || m.injected then s
  else if m.flags / 2 % 2 = 1 then
    ((s.modAdc (fun a => { a with cal := { c with active := false } })).wr Reg.ADC_SYSCAL_STAT.status 0 2).raise 0x407 m.input 2
  else if m.flags % 2 = 1 ∨ c.want ≤ c.n then s
  else
    (s.modAdc (fun a => { a with cal := { c with n := c.n + 1, sum := fAdd f64 c.sum v, gain := gain } })).wr
      Reg.ADC_SYSCAL_STAT.taken 0 (c.n + 1)

/-- Record a sample in its points and its stream (R318, R320, R321). -/
def State.recordSample (s : State) (m : SampleInfo) (v gain time : Nat) : State :=
  let i := m.input
  let r := s.ain i
  let uncal := !s.flag Reg.ADC_CORE_STAT.cal_valid m.core
  let flags := m.flags + 4 * bit uncal + 32 * bit r.above + 64 * bit r.below
  let s := s.askPoints 85 ([0, 1, 4, 7].map (fun o => .station (inPoint i o)))
  let y := s.sampleValue i v
  let word : Pt := ⟨y.v + 2 ^ 32 * flags + 2 ^ 40 * m.delay + 2 ^ 50 * i + 2 ^ 55 * bit m.injected + 2 ^ 56 * m.entry, y.bad⟩
  let s := if m.flags % 2 = 1 then s.count Reg.ADC_SETTLE_CNT.count 0 else s
  let s := if m.flags / 2 % 2 = 1 then s.clipped i else s
  let base := if m.injected then 2 else 0
  let s := (s.setWork (inPoint i base) word).setPoint (inPoint i (base + 1)) time
  let s := s.modAin i (fun r => { r with n := r.n + 1, range := some (widen r.range y.v) })
  let w := widen r.range y.v
  let s := (s.setWork (inPoint i 4) ⟨w.1 + 2 ^ 32 * w.2, y.bad⟩).showInput i
  let s := if m.injected || m.flags / 8 % 2 = 1 then s else s.pchSample i v
  (s.calSample m v gain).streamItem (some m.core) i word time

/-! ### Interleaved mode (R318, R324, R325) -/

/-- Whether a clipped code is among the conversions (R326). -/
def anyClip (codes : List Nat) : Bool := codes.any (fun x => x % 65536 == 0x7FFF || x % 65536 == 0x8000)

/-- A sample of rounds: its conversions stand 2 cycles apart, its time is the mean of their instants. -/
def State.interleaved (s : State) (c : Nat) (x : Forming) (codes : List Nat) : State :=
  let n := codes.length
  let time := ({ s.clk with count := x.first + (n - 1) } : Clk).time
  let v := codeVolts (codes.foldl (fun x y => x + signedOf 16 y) 0) n x.entry.gain 32768
  s.recordSample ⟨c, 8 * c + x.entry.input, x.num, bit x.settle + 2 * bit (anyClip codes) + 16 * bit x.lead, x.injected, x.delay⟩ v
    x.entry.gain time

/-- Core cycle in which a sample is formed: 19 cycles after its last sampling instant (R318). -/
def Forming.due (x : Forming) : Nat := x.first + 16 * x.rounds + 17

/-- ADC_SAMPLE (R318): the oldest sample whose rounds are over is formed from its conversions. -/
def execAdcSample (core : Fin 4) (codes : List Nat) (s : State) : Host.Outcome State Fault Refusal :=
  let c : Nat := core
  let s := s.coreAdvance c s.cycle
  .next (match (s.core c).forming with
    | [] => s
    | x :: l =>
      if !s.coreRuns core || decide (s.cycle < x.due) || decide (codes.length < 8 * x.rounds) then s
      else (s.modCore c (fun r => { r with forming := l })).interleaved c x (codes.take (8 * x.rounds)))

/-! ### Delta-sigma mode (R330 to R332) -/

/-- Sums of `n` consecutive elements. -/
def slidingSums (n : Nat) (l : List Int) : List Int :=
  let p := l.foldl (fun (acc : List Int) x => ((acc.headD 0) + x) :: acc) [0]
  let q := p.reverse
  (q.drop n).zipWith (· - ·) q

/-- Sinc5 over the newest 5 (OSR - 1) + 1 bits; none while the window holds earlier ones. -/
def sinc5 (osr : Nat) (bits : List Bool) : Option Int :=
  let w := (bits.take (5 * (osr - 1) + 1)).map (fun b => if b then (1 : Int) else -1)
  if w.length < 5 * (osr - 1) + 1 ∨ osr = 0 then none
  else (slidingSums osr (slidingSums osr (slidingSums osr (slidingSums osr (slidingSums osr w))))).head?

def limit24 (x : Int) : Int := clampInteger (-8388608) 8388607 x

/-- y(m): a constant +1 gives 2^23, rounded and limited. -/
def decimate (osr : Nat) (x : Int) : Int := limit24 (divRneInt (x * 2 ^ 23) (osr ^ 5))

/-- The droop-correcting FIR. -/
def droop (a b c : Int) : Int := limit24 (divRneInt (-1173 * a + 6442 * b - 1173 * c) 4096)

/-- The output sample, the decimator and the state it leaves; the window before the mode began is not stated, so such a sample is free.
DEDUCED (notes/assumptions/53.md). -/
def State.dsOutput (s : State) (d : DsRt) (bits : List Bool) : (Int × DsRt) × State :=
  let l := (bits.reverse ++ d.bits).take 4000
  let y : Int × State := match sinc5 d.osr l with
    | some x => (decimate d.osr x, s)
    | none => let z := s.draw 24; (signedOf 24 z.1, z.2)
  let ys := (y.1 :: d.ys).take 3
  let d := { d with bits := l, ys := ys }
  match d.fir, ys with
  | false, _ => ((y.1, d), y.2)
  | true, a :: b :: e :: _ => ((droop a b e, d), y.2)
  | true, _ => let z := y.2.draw 24; ((signedOf 24 z.1, d), z.2)

/-- Group delay in core cycles (R330). -/
def dsDelay (osr : Nat) (fir : Bool) : Nat := 50 * (osr - 1) + (if fir then 20 * osr else 0)

/-- Settling samples left before the next output sample of an entry (R332). -/
def CoreRt.unsettled (r : CoreRt) (x : SeqEntry) : Nat :=
  if settles r.last (x.input, x.gain) then 5 + (if r.ds.fir then 2 else 0) else r.ds.settle

/-- Record an output sample. -/
def State.dsRecord (s : State) (c n : Nat) (x : SeqEntry) (d : DsRt) (y : Int) : State :=
  let clip := y == 8388607 || y == -8388608
  let time := ({ s.clk with count := s.clk.count - dsDelay d.osr d.fir } : Clk).time
  s.recordSample ⟨c, 8 * c + x.input, n, bit (d.settle != 0) + 2 * bit clip + 8, false, 0⟩ (codeVolts y 1 x.gain 8388608) x.gain time

/-- DS_SAMPLE (R330 to R332): the OSR modulator bits of one output sample, oldest first; one that was in progress when the mode
changed comes first (R333). -/
def execDsSample (core : Fin 4) (bits : List Bool) (s : State) : Host.Outcome State Fault Refusal :=
  let c : Nat := core
  let r := s.core c
  .next (if !s.coreRuns c then s
    else match r.tail with
      | some (n, x, d) =>
        if bits.length < d.osr then s
        else
          let o := s.dsOutput d (bits.take d.osr)
          (o.2.modCore c (fun r => { r with tail := none })).dsRecord c n x d o.1.1
      | none =>
        if r.mode != 2 || decide (bits.length < r.ds.osr) then s
        else
          let o := s.dsOutput r.ds (bits.take r.ds.osr)
          let s := o.2.modCore c (fun r => { r with ds := o.1.2 })
          match r.running, r.entries[r.pos]? with
          | true, some x =>
            let left := r.unsettled x
            let s := s.modCore c (fun r => { r with
              last := some (x.input, x.gain), ds := { r.ds with settle := left - 1 }, taken := r.taken + 1 })
            let s := s.dsRecord c r.pos x { r.ds with settle := left } o.1.1
            if r.taken + 1 < x.rounds then s else (s.nextEntry c).showCore c
          | _, _ => s)

/-! ### Comparators (R328, R332) -/

/-- An input's code against ADC_WIN. -/
def State.compare (s : State) (i : Nat) (x : Int) : State :=
  let up := signedOf 16 (s.rd Reg.ADC_WIN.upper i) < x
  let lo := x < signedOf 16 (s.rd Reg.ADC_WIN.lower i)
  let s := s.modAin i (fun r => { r with above := up, below := lo })
  ((s.setCond (8 + 2 * i) up).setCond (9 + 2 * i) lo).showInput i

/-- Sinc3 decimated by 16 over the newest 46 bits, as a 24-bit code's 16 most significant bits (R332); none while the window holds
earlier ones. -/
def sinc3 (bits : List Bool) : Option Int :=
  let w := bits.map (fun b => if b then (1 : Int) else -1)
  if w.length < 46 then none
  else (slidingSums 16 (slidingSums 16 (slidingSums 16 w))).head?.map (fun x => Int.fdiv (limit24 (x * 2 ^ 11)) 256)

/-- CONVERSION_COMPARE (R328): a conversion of an input against ADC_WIN. In mode 2 it is the fast path's of the input that the core
converts (R332). DEDUCED (notes/assumptions/53.md). -/
def execConversionCompare (input : Fin 32) (code : Nat) (bits : List Bool) (s : State) : Host.Outcome State Fault Refusal :=
  let i : Nat := input
  let r := s.core (i / 8)
  .next (if !s.coreRuns (i / 8) || r.mode == 0 then s
    else if r.mode == 1 then s.compare i (signedOf 16 code)
    else if decide (bits.length < 16) || !r.current.any (fun x => x.2.1.input == i % 8) then s
    else
      let l := ((bits.take 16).reverse ++ r.fast).take 46
      let s := s.modCore (i / 8) (fun r => { r with fast := l })
      match sinc3 l with
      | some x => s.compare i x
      | none => let z := s.draw 16; z.2.compare i (signedOf 16 z.1))

/-! ### Calibration (R319, R334) -/

/-- CAL_VALID (R319): the corrector has new corrections and residuals; with bg_cal at 0 they stay frozen. It works from step 2 of a boot
on (Table 15.5), whatever the core's mode. -/
def execCalValid (core : Fin 4) (offsetRes gainRes skewRes : Nat) (s : State) : Host.Outcome State Fault Refusal :=
  let c : Nat := core
  .next (if s.domain 10 ≠ 2 || !s.flag Reg.ADC_CTRL.bg_cal 0 then s
    else
      let was := s.flag Reg.ADC_CORE_STAT.cal_valid c
      let s := (s.wr Reg.ADC_CAL_INFO.offset_res c offsetRes).wr Reg.ADC_CAL_INFO.gain_res c gainRes
      let s := (s.wr Reg.ADC_CAL_INFO.skew_res c skewRes).wr Reg.ADC_CORE_STAT.cal_valid c 1
      let s := s.setBit Reg.ADC_STAT.cal_valid 0 c true
      if was then s else s.raise 0x404 c 0)

/-- cal_valid of a core falls (event 0x403). -/
def State.calLost (s : State) (c : Nat) : State :=
  if s.flag Reg.ADC_CORE_STAT.cal_valid c then
    ((s.wr Reg.ADC_CORE_STAT.cal_valid c 0).setBit Reg.ADC_STAT.cal_valid 0 c false).raise 0x403 c 0
  else s

def State.refuseCal (s : State) (i status : Nat) : State :=
  (s.wr Reg.ADC_SYSCAL_STAT.status 0 status).raise 0x407 i status

/-- SYSCAL_STEP (R334): ADC_SYSCAL_CTRL.start. -/
def execSyscalStep (s : State) : Host.Outcome State Fault Refusal := byHost (fun s =>
  let i := s.rd Reg.ADC_SYSCAL_CTRL.input 0
  let r := s.core (i / 8)
  .next (if s.adc.cal.active then s.refuseCal i 5
    else if !(r.running && r.entries.any (fun e => e.input == i % 8)) then s.refuseCal i 4
    else
      let step := s.rd Reg.ADC_SYSCAL_CTRL.step 0
      let s := s.modAdc (fun a => { a with cal := { a.cal with
        active := true, input := i, step := step, want := 2 ^ s.rd Reg.ADC_SYSCAL_CTRL.avg 0, n := 0, sum := 0
        v0 := if step = 0 then none else a.cal.v0, v1 := none } })
      let s := (s.wr Reg.ADC_SYSCAL_STAT.taken 0 0).wr Reg.ADC_SYSCAL_STAT.full_done 0 0
      if step = 0 then s.wr Reg.ADC_SYSCAL_STAT.zero_done 0 0 else s)) s

/-- Gain and offset from v0 and v1 (R334), each rounded once. -/
def calResult (xfs v0 v1 : Nat) : Nat × Nat :=
  let d := fVal f64 v1 - fVal f64 v0
  let g := if fFinite f32 xfs then
      fOfRat f32 (fNeg f32 xfs != decide (d < 0)) (fVal f32 xfs * f64.unit * (if d < 0 then -1 else 1)) (d.natAbs * f32.unit)
    else if fIsNaN f32 xfs then f32.qnan else fWithSign f32 (fNeg f32 xfs != decide (d < 0)) f32.inf
  (g, if fFinite f32 g then fOfRat f32 (fNeg f32 g == fNeg f64 v0) (-(fVal f32 g * fVal f64 v0)) (f32.unit * f64.unit)
    else f32.qnan)

/-- |v1 - v0| < 0.01 x FS. -/
def spanLow (v0 v1 gain : Nat) : Bool :=
  decide ((fVal f64 v1 - fVal f64 v0).natAbs * 100 * 2 ^ gain < 2 * f64.unit)

/-- SYSCAL_DONE (R334): the step has all its samples. -/
def execSyscalDone (s : State) : Host.Outcome State Fault Refusal :=
  let c := s.adc.cal
  .next (if !c.active || decide (c.n < c.want) then s
    else
      let v := fDiv f64 c.sum (fOfInt f64 c.n)
      if c.step = 0 then
        ((s.modAdc (fun a => { a with cal := { c with active := false, v0 := some v } })).wr
          Reg.ADC_SYSCAL_STAT.zero_done 0 1).wr Reg.ADC_SYSCAL_STAT.status 0 1
      else
        let s := (s.modAdc (fun a => { a with cal := { c with active := false, v1 := some v } })).wr
          Reg.ADC_SYSCAL_STAT.full_done 0 1
        match c.v0 with
        | none => s.wr Reg.ADC_SYSCAL_STAT.status 0 1
        | some v0 =>
          if spanLow v0 v c.gain then s.refuseCal c.input 3
          else
            let r := calResult (s.rd Reg.ADC_SYSCAL_REF.x_fs 0) v0 v
            let s := ((s.wr Reg.ADC_SYSCAL_GAIN.g 0 r.1).wr Reg.ADC_SYSCAL_OFFSET.o 0 r.2).wr Reg.ADC_SYSCAL_STAT.status 0 1
            s.raise 0x406 c.input (r.1 + 2 ^ 32 * r.2))

/-! ### Sampled values (R335 to R338) -/

def svPoint (n off : Nat) : Nat := 0x100 + 0x40 * n + off

/-- The sample time of R337, in edge units rounded down (R10), and whether it is the arrival time. -/
def State.svTime (s : State) (e : SvEntry) (a : SvAsdu) (arrival : Nat) : Nat × Bool :=
  if a.synch = 2 ∧ s.rd Reg.TIM_STAT.quality 0 ≠ 4 then
    let off := a.smpCnt * 12800000000 / e.rate
    let base := Int.fdiv ((arrival : Int) - off) 12800000000 * 12800000000
    (wrapInt 64 (base + off), false)
  else (arrival, true)

/-- Point +0 of a subscription. -/
def State.showSub (s : State) (e : SvEntry) (synch : Nat) : State :=
  let r := s.sub e.sub
  s.setPoint (svPoint e.sub 0) (tagged (r.last.getD 0 + 2 ^ 16 * bit (r.last.isSome && !r.timeout) + 2 ^ 17 * (synch % 4)
    + 2 ^ 19 * bit r.timeout + 2 ^ 20 * bit r.gapEpoch + 2 ^ 24 * e.channels.length) s.epoch)

/-- Flags of Table 10.4 for a quality word: validity in [1:0] (0 good, 3 questionable), test in [11]. -/
def svFlags (q : Nat) (simulated arrival : Bool) : Nat :=
  bit (q % 4 != 0) + 2 * bit (q % 4 == 3) + 4 * (q / 2048 % 2) + 8 * bit simulated + 16 * bit arrival + 128

/-- Channels of an ASDU: points, and items of the streams assigned. -/
def State.svChannels (s : State) (e : SvEntry) (a : SvAsdu) (simulated : Bool) (time : Nat × Bool) : Nat →
    List (Nat × Option Nat) → List (Nat × Nat) → State
  | i, (scale, stream) :: cs, (raw, q) :: vs =>
    let y := fOfRat f32 false (signedOf 32 raw * fVal f32 scale) f32.unit
    let s := s.setPoint (svPoint e.sub (4 + i)) (y + 2 ^ 32 * (q % 2 ^ 32))
    let s := match stream with
      | some n => s.streamItem none n ⟨y + 2 ^ 32 * svFlags q simulated time.2 + 2 ^ 40 * (a.smpCnt % 65536), false⟩ time.1
      | none => s
    s.svChannels e a simulated time (i + 1) cs vs
  | _, _, _ => s

/-- One ASDU (R337): a duplicate is discarded; a gap is counted and reported once per episode; a timeout ends. -/
def State.svAsdu (s : State) (e : SvEntry) (f : SvFrame) (tag : Nat) (a : SvAsdu) : State :=
  let n := e.sub
  let r := s.sub n
  let cnt := a.smpCnt % 65536
  if r.last = some cnt then s.modSub n (fun r => { r with dups := r.dups + 1 })
  else
    let expected := ((r.last.getD 0) + 1) % e.rate
    let missed := if r.last.isSome then (cnt + e.rate - expected) % e.rate else 0
    let s := if r.timeout then
        ((s.modSub n (fun r => { r with timeout := false })).wr Reg.ADC_SV_STAT.timeout n 0).raise 0x411 n missed
      else s
    let s := if missed = 0 then s.modSub n (fun r => { r with gapOpen := false })
      else
        let s := (s.add Reg.ADC_SV_CNT.missing n missed).wr Reg.ADC_SV_STAT.gap n 1
        let s := s.modSub n (fun r => { r with gapEpoch := true, gapOpen := true })
        if r.gapOpen then s else s.raise 0x413 n (expected + 2 ^ 16 * cnt)
    let t := s.svTime e a f.arrival
    let s := s.modSub n (fun r => { r with last := some cnt, time := t.1, since := s.cycle })
    let s := (s.wr Reg.ADC_SV_STAT.valid n 1).wr Reg.ADC_SV_STAT.synch n (a.synch % 4)
    let s := (s.wr Reg.ADC_SV_STAT.smpcnt n cnt).wr Reg.ADC_SV_MAP.state n 2
    let s := ((s.showSub e a.synch).setPoint (svPoint n 1) t.1).setPoint (svPoint n 2) f.arrival
    let s := s.ask 85 (some tag) s.cycle ((List.range (e.channels.length + 4)).map (fun o => keyBank (.station (svPoint n o))))
    s.svChannels e a f.simulate t 0 e.channels a.vals

/-- A subscription takes a frame (R335). -/
def SvEntry.takes (e : SvEntry) (port : Nat) (f : SvFrame) : Bool :=
  (e.ports / 2 ^ port % 2 == 1) && e.dst == f.dst && e.appid == f.appid && e.svId == f.svId

/-- A frame whose requests the arbiter has served leaves its port's buffer (R338). -/
def State.svServed (s : State) : State :=
  let s := s.arbitrate
  s.modAdc (fun a => { a with held := a.held.filter (fun x => s.arb.reqs.any (fun r => r.who == 85 && r.job == some x.2)) })

/-- A frame takes a place in its port's buffer and writes its points (R336, R338); its number names its requests at the arbiter.
DESIGN CHOICE (notes/assumptions/117.md). -/
def State.svIngest (s : State) (p : Nat) (e : SvEntry) (f : SvFrame) : State :=
  let tag := s.fab.nextId
  let s := s.modFab (fun x => { x with nextId := x.nextId + 1 })
  let s := s.modAdc (fun a => { a with held := a.held ++ [(p, tag)] })
  (f.asdus.take e.asdus).foldl (fun s a => s.svAsdu e f tag a) s

/-- SV_FRAME (R335 to R338): a port's buffer holds 64 frames. DEDUCED (notes/assumptions/53.md). -/
def execSvFrame (port : Fin 2) (frame : SvFrame) (s : State) : Host.Outcome State Fault Refusal :=
  let p : Nat := port
  .next (match s.bs.meas.subs.find? (fun e => s.flag Reg.ADC_SV_MAP.enable e.sub && e.takes p frame) with
    | none => s
    | some e =>
      if !s.flag Reg.ADC_CTRL.enable 0 then s
      else
      let s := s.svServed
      if 64 ≤ (s.adc.held.filter (fun x => x.1 == p)).length then
        let s := s.count Reg.ADC_SV_CNT.dropped e.sub
        if s.adc.overflow.contains p then s
        else (s.modAdc (fun a => { a with overflow := p :: a.overflow })).raise 0x414 p 1
      else
        let s := s.modAdc (fun a => { a with overflow := a.overflow.filter (· != p) })
        if frame.confRev ≠ e.confRev then (s.wr Reg.ADC_SV_STAT.confrev_err e.sub 1).raise 0x412 e.sub (frame.confRev % 2 ^ 32)
        else if frame.simulate && !e.simulate then s
        else s.svIngest p e frame)

/-- SV_TIMEOUT (R337): t_sv sample periods have passed since the last ASDU, or since the subscription began. -/
def execSvTimeout (sub : Fin 16) (s : State) : Host.Outcome State Fault Refusal :=
  let n : Nat := sub
  .next (match s.bs.meas.subs.find? (fun e => e.sub == n) with
    | none => s
    | some e =>
      if (s.sub n).timeout || !s.flag Reg.ADC_SV_MAP.enable n then s
      else
        let s := s.reachCycle ((s.sub n).since + e.timeout * 400000000 / max e.rate 1)
        let s := (s.modSub n (fun r => { r with timeout := true })).wr Reg.ADC_SV_STAT.timeout n 1
        let s := ((s.wr Reg.ADC_SV_STAT.valid n 0).wr Reg.ADC_SV_MAP.state n 3).raise 0x410 n (s.sub n).time
        s.showSub e (s.rd Reg.ADC_SV_STAT.synch n))

/-! ### The seam and the start -/

/-- What a core in a mode change leaves to finish: the round in progress is a sample with the rounds before it, an output sample is
recorded at its end (R333). DEDUCED (notes/assumptions/120.md). -/
def CoreRt.leave (r : CoreRt) : List Forming × Option (Nat × SeqEntry × DsRt) :=
  match r.current with
  | none => (r.forming, r.tail)
  | some x =>
    let lead := x.2.1.lead && !r.lead
    (if r.mode = 1 ∧ r.round then r.form x lead (if lead then 1 else r.taken + 1) else r.forming,
     if r.mode = 2 then some (x.1, x.2.1, { r.ds with settle := r.unsettled x.2.1 }) else r.tail)

/-- A mode written takes effect (R333): queued requests are spoiled, the new mode starts with its first entry. -/
def State.coreMode (s : State) (c : Nat) : State :=
  let m := s.rd Reg.ADC_CORE_CTRL.mode c
  let r := s.core c
  if m = r.mode then s
  else
    let x := r.leave
    let s := (s.add Reg.ADC_SPOIL_CORE.spoiled c r.queue.length).modCore c (fun r => { CoreRt.clear with
      mode := m, ds := { DsRt.clear with osr := r.ds.osr, fir := r.ds.fir }, next := if r.round then r.next else s.cycle
      forming := x.1, tail := x.2, offset := s.rd Reg.ADC_CORE_TRIG.offset c, param := s.rd Reg.ADC_CORE_TRIG.param c
      drops := r.drops })
    let s := (s.calLost c).setBit Reg.ADC_STAT.ds 0 c (m == 2)
    let s := if m ≠ 0 ∧ s.rd Reg.ADC_CORE_CTRL.reg_trig c = 1 then s.startRun c else s
    s.showCore c

/-- A core at the seam that ends an epoch: its drops are reported (R323), a mode takes effect. -/
def State.coreSeam (s : State) (c : Nat) : State :=
  let d := (s.core c).drops
  let s := if d = 0 then s else (s.modCore c (fun r => { r with drops := 0 })).raise 0x400 c d
  s.coreMode c

/-- The epoch's counts of an input start again (R320); an epoch without a clipped conversion ends the episode (R326). -/
def State.inputEpoch (s : State) (i : Nat) : State :=
  let r := s.ain i
  (s.modAin i (fun r => { r with clipOpen := r.clip, clip := false, n := 0, range := none })).setPoint (inPoint i 7)
    (tagged (bit r.above + 2 * bit r.below + 8 * bit (!s.flag Reg.ADC_CORE_STAT.cal_valid (i / 8))) s.epo.k)

/-- An input that the section lists or that has been converted. -/
def State.inputShown (s : State) (i : Nat) : Bool := s.bs.meas.inputs.any (fun e => e.1 == i) || s.ain i != AinRt.clear

def State.adcSeam (s : State) : State :=
  let s := (List.range 4).foldl (fun s c => s.coreSeam c) s
  let s := State.forEach 32 (fun i s => if s.inputShown i then s.inputEpoch i else s) s
  s.bs.meas.subs.foldl (fun s e =>
    (s.modSub e.sub (fun r => { r with gapEpoch := false })).showSub e (s.rd Reg.ADC_SV_STAT.synch e.sub)) s

/-- An entry of a sequence table. -/
def State.loadSeq (s : State) (c : Nat) (inj : Bool) (i : Nat) (e : SeqEntry) : State :=
  let k := c * 32 + (if inj then 16 else 0) + i
  let s := (s.wr Reg.ADC_SEQ_ENTRY.input k e.input).wr Reg.ADC_SEQ_ENTRY.gain k e.gain
  let s := (s.wr Reg.ADC_SEQ_ENTRY.rounds k (e.rounds - 1)).wr Reg.ADC_SEQ_ENTRY.lead k (bit e.lead)
  let s := (s.wr Reg.ADC_SEQ_ENTRY.trigger k e.trigger).wr Reg.ADC_SEQ_ENTRY.pin k e.pin
  s.wr Reg.ADC_SEQ_ENTRY.offset k e.offset

def State.loadSeqs (s : State) (c : Nat) (inj : Bool) : Nat → List SeqEntry → State
  | _, [] => s
  | i, e :: es => (s.loadSeq c inj i e).loadSeqs c inj (i + 1) es

/-- The block when the bit-stream starts. -/
def State.adcStart (s : State) : State :=
  let m := s.bs.meas
  let s := (s.modAdc (fun _ => Adc.reset)).wr Reg.ADC_CTRL.enable 0 (bit m.enable)
  let s := m.inputs.foldl (fun s e => (s.setBoth (inPoint e.1 5) e.2.1).setBoth (inPoint e.1 6) e.2.2) s
  let s := m.cores.foldl (fun s e =>
    let c := e.core
    let s := (s.loadSeqs c false 0 e.regular).loadSeqs c true 0 e.injected
    let s := s.wr Reg.ADC_CORE_CTRL.reg_len c (e.regular.length - 1)
    let s := (s.wr Reg.ADC_CORE_CTRL.inj_len c e.injected.length).wr Reg.ADC_CORE_CTRL.reg_trig c e.trig
    let s := (s.wr Reg.ADC_CORE_CTRL.held c (bit e.held.isSome)).wr Reg.ADC_CORE_TRIG.offset c e.offset
    s.wr Reg.ADC_CORE_TRIG.param c e.param) s
  let s := (List.range 4).foldl (fun (s : State) c =>
    (s.wr Reg.ADC_CORE_CTRL.mode c (s.bs.profile.coreMode.getD c 1)).coreMode c) s
  m.subs.foldl (fun s e =>
    let n := e.sub
    let s := (s.wr Reg.ADC_SV_MAP.appid n e.appid).wr Reg.ADC_SV_MAP.ports n e.ports
    let s := (s.wr Reg.ADC_SV_MAP.enable n (bit e.enabled)).wr Reg.ADC_SV_MAP.channels n (e.channels.length - 1)
    let s := s.modSub n (fun r => { r with since := s.cycle })
    (s.wr Reg.ADC_SV_MAP.state n (bit e.enabled)).wr Reg.ADC_SV_MAP.sim_accept n (bit e.simulate)) s

/-- ADC_SV_MAP.enable has been written (Table 10.10): a subscription that begins waits for its first ASDU.
DEDUCED (notes/assumptions/53.md). -/
def State.svEnable (s : State) (n : Nat) (was : Bool) : State :=
  if !s.flag Reg.ADC_SV_MAP.enable n then s.wr Reg.ADC_SV_MAP.state n 0
  else if was then s
  else (s.wr Reg.ADC_SV_MAP.state n 1).modSub n (fun r => { SvRt.clear with dups := r.dups, since := s.cycle })

end Sys2Proof.Machine
end

