-- ==== Sys2Proof/Machine/Time.lean ====
section
/-! DEFINITION. Time: rate writes, the reference clock, PPS, time quality, snapshots and the alarm's arming (R344 to R350,
R361 to R366), and the Ethernet ports with their delay measurement (R357 to R360, R369). Lane delays are in Lane.lean,
steps and seams in Seam.lean, the alarm's release in Fabric.lean. -/

namespace Sys2Proof.Machine

/-- A second of station time in edge units (R349). -/
def secondUnits : Nat := 12800000000

/-! ### The time base -/

/-- RATE_WRITE (R346): a write of TIM_INC_HI. I' is 32 x (1 +- 200 ppm); T does not step. -/
def execRateWrite (value : Nat) (s : State) : Host.Outcome State Fault Refusal := byHost (fun s =>
  let v := value % 2 ^ 32
  let i' := v * 2 ^ 32 + s.rd Reg.TIM_INC_LO.frac_lo 0
  .next (s.mirrorOf (if i' * 10000 < 319936 * 2 ^ 48 ∨ 320064 * 2 ^ 48 < i' * 10000 then
      (s.wr Reg.TIM_INC_LO.frac_lo 0 s.clk.inc).rejectWrite Reg.TIM_INC_HI.frac_hi.addr
    else
      let c := s.clk
      let off := (c.off + c.count * c.inc + 2 ^ 112 * (c.count * i' / 2 ^ 112 + 1) - c.count * i') % 2 ^ 112
      let s := { s with clk := { c with inc := i', off := off, lastCorr := c.count } }
      ((s.wr Reg.TIM_INC_HI.frac_hi 0 v).wr Reg.TIM_INC_HI.int 0 (v / 2 ^ 16)).count Reg.TIM_CORR_CNT.rate_writes 0))) s

/-- REF_FALLBACK (R344, R454): once per episode. -/
def execRefFallback (s : State) : Host.Outcome State Fault Refusal :=
  .next (if s.flag Reg.TIM_STAT.ref_lost 0 then s
    else (((s.wr Reg.TIM_STAT.ref_lost 0 1).wr Reg.PWR_CLK_STAT.ref_present 0 0).wr Reg.PWR_CLK_STAT.fallback 0 1).raise
      0x509 0 s.clk.count)

/-- REF_RESTORED (R454). -/
def execRefRestored (s : State) : Host.Outcome State Fault Refusal :=
  .next (((s.wr Reg.TIM_STAT.ref_lost 0 0).wr Reg.PWR_CLK_STAT.ref_present 0 1).wr Reg.PWR_CLK_STAT.fallback 0 0)

/-- Sub-cycle stamp (R350): T(C) plus floor(phi x I / 32). -/
def State.stamp (s : State) (phi : Nat) : Nat := (s.now + phi * s.clk.inc / 2 ^ 53) % 2 ^ 64

/-- Add a signed correction to a station time. -/
def timePlus (t : Nat) (d : Int) : Nat := wrapInt 64 (t + d)

/-! ### Quality (R364) -/

/-- Change the quality: event 0x500 and condition 240 (time quality SUSPECT, Table 8.6); the holdover watch starts with LOCKED. -/
def State.setQuality (s : State) (q : Nat) : State :=
  let old := s.rd Reg.TIM_STAT.quality 0
  if q = old then s
  else
    let s := if q = 2 then { s with clk := { s.clk with lockedAt := s.clk.count } } else s
    ((s.wr Reg.TIM_STAT.quality 0 q).setCond 240 (q == 4)).raise 0x500 0 (q + 16 * old)

/-- A host command 1 to 3: refused while the quality is SUSPECT. -/
def State.qualityCommand (s : State) (q : Nat) : State :=
  if s.rd Reg.TIM_STAT.quality 0 = 4 then s.wr Reg.TIM_STAT.cmd_status 0 2
  else (s.wr Reg.TIM_STAT.cmd_status 0 1).setQuality q

def execQualFreeRun (s : State) : Host.Outcome State Fault Refusal := byHost (fun s => .next (s.qualityCommand 1)) s
def execQualLocked (s : State) : Host.Outcome State Fault Refusal := byHost (fun s => .next (s.qualityCommand 2)) s
def execQualHoldover (s : State) : Host.Outcome State Fault Refusal := byHost (fun s => .next (s.qualityCommand 3)) s

/-- QUAL_CLEAR: only from SUSPECT, and while no port is HELD. DEDUCED (notes/assumptions/102.md). -/
def execQualClear (s : State) : Host.Outcome State Fault Refusal := byHost (fun s =>
  .next (if s.rd Reg.TIM_STAT.quality 0 = 4 ∧ s.rd Reg.TIM_STAT.ptp_held 0 = 0 then
      (s.wr Reg.TIM_STAT.cmd_status 0 1).setQuality 3
    else s.wr Reg.TIM_STAT.cmd_status 0 2)) s

/-- HOLDOVER_WATCH: TIM_QUAL_WATCH.ms have passed while LOCKED without a rate write or a step. DEDUCED (notes/assumptions/102.md). -/
def execHoldoverWatch (s : State) : Host.Outcome State Fault Refusal :=
  .next (if s.rd Reg.TIM_STAT.quality 0 = 2 ∧ s.rd Reg.TIM_QUAL_WATCH.ms 0 ≠ 0 then
      (s.reachCycle (max s.clk.lastCorr s.clk.lockedAt + s.rd Reg.TIM_QUAL_WATCH.ms 0 * 400000)).setQuality 3
    else s)

/-! ### PPS (R361 to R363) -/

/-- The signed distance of a station time from the nearest second boundary. -/
def secondError (t : Nat) : Int :=
  let r := t % secondUnits
  if 2 * r < secondUnits then r else (r : Int) - secondUnits

/-- PPS_IN_EDGE (R361): an edge of the selected polarity. -/
def execPpsInEdge (rising : Bool) (phi : Fin 32) (s : State) : Host.Outcome State Fault Refusal :=
  .next (if !s.flag Reg.TIM_CTRL.pps_in_en 0 || s.flag Reg.TIM_CTRL.pps_in_edge 0 == rising then s
    else
      let t := timePlus (s.stamp phi) (signedOf 16 (s.rd Reg.TIM_PPS_ADJ.inp 0))
      let s := s.wrPair Reg.TIM_PPS_IN_LO.stamp_lo Reg.TIM_PPS_IN_HI.stamp_hi 0 t
      let s := (s.wr Reg.TIM_PPS_IN_ERR.err 0 (wrapInt 32 (secondError t))).count Reg.TIM_PPS_CNT.edges 0
      let missing := s.clk.ppsMissing
      let s := { s with clk := { s.clk with ppsMissing := false, ppsAt := some s.clk.count } }
      if missing then s.raise 0x505 0 (s.rd Reg.TIM_PPS_CNT.missing 0)
      else s)

/-- PPS_IN_MISSING (R361): 1.1 s have passed since an edge that none has followed. DEDUCED (notes/assumptions/102.md). -/
def execPpsInMissing (s : State) : Host.Outcome State Fault Refusal :=
  .next (match s.clk.ppsAt with
    | none => s
    | some c =>
    if !s.flag Reg.TIM_CTRL.pps_in_en 0 || s.clk.ppsMissing then s
    else
      let s := s.reachCycle (c + 440000000)
      let s := { s.count Reg.TIM_PPS_CNT.missing 0 with clk := { s.clk with ppsMissing := true } }
      s.raise 0x504 0 (s.rdPair Reg.TIM_PPS_IN_LO.stamp_lo Reg.TIM_PPS_IN_HI.stamp_hi 0))

def State.setPpsOut (s : State) (level : Bool) : State :=
  { s with clk := { s.clk with ppsOut := level }, wire := s.wire ++ [.ppsOut level] }

/-- The next instant of PPS_OUT: a second boundary plus TIM_PPS_ADJ.out that this core cycle is the first to reach, unless it has been
taken, else the one that follows. -/
def State.ppsBoundary (s : State) : Nat :=
  let adj := signedOf 16 (s.rd Reg.TIM_PPS_ADJ.out 0)
  let b := timePlus s.now (-(((s.now : Int) - adj) % (secondUnits : Int)))
  if !notAfter b ({ s.clk with count := s.clk.count - 1 } : Clk).time && s.clk.ppsLast != some b then b
  else timePlus b secondUnits

/-- The boundary at `b` has come. -/
def State.ppsTake (s : State) (b : Nat) : State := { s with clk := { s.clk with ppsLast := some b } }

/-- PPS_OUT goes high for TIM_PPS_CTRL.width milliseconds of core cycles (R362). -/
def State.ppsStart (s : State) : State :=
  State.setPpsOut { s with clk := { s.clk with ppsEnd := s.clk.count + s.rd Reg.TIM_PPS_CTRL.width 0 * 400000 } } true

/-- PPS_OUT_PULSE (R362, R363): the next second boundary plus TIM_PPS_ADJ.out; a boundary while the output is high produces no
edge and is counted. -/
def execPpsOutPulse (s : State) : Host.Outcome State Fault Refusal :=
  .next (if !s.flag Reg.TIM_CTRL.pps_out_en 0 then s
    else
      let b := s.ppsBoundary
      let s := (s.reachTime b).ppsTake b
      if s.clk.ppsOut then s.count Reg.TIM_PPS_CNT.skipped 0
      else if s.flag Reg.TIM_CTRL.pps_out_gate 0 ∧ s.rd Reg.TIM_STAT.quality 0 ≠ 2 then s
      else s.ppsStart)

/-- PPS_OUT_END (R362): the width that TIM_PPS_CTRL had when the pulse rose has passed, whatever the time base did meanwhile (R363). -/
def execPpsOutEnd (s : State) : Host.Outcome State Fault Refusal :=
  .next (if s.clk.ppsOut then (s.reachCycle s.clk.ppsEnd).setPpsOut false else s)

/-! ### Snapshot and alarm (R366) -/

def execTimSnap (s : State) : Host.Outcome State Fault Refusal := byHost (fun s =>
  .next ((s.wrPair Reg.TIM_SNAP_CNT_LO.c_lo Reg.TIM_SNAP_CNT_HI.c_hi 0 s.clk.count).wrPair
    Reg.TIM_SNAP_TIME_LO.t_lo Reg.TIM_SNAP_TIME_HI.t_hi 0 s.now)) s

def execAlarmArm (s : State) : Host.Outcome State Fault Refusal :=
  byHost (fun s => .next { s.wr Reg.TIM_ALARM_CTRL.arm 0 1 with clk := { s.clk with armedAt := s.clk.count } }) s

/-! ### Ethernet ports (R357 to R360) -/

def State.port (s : State) (p : Nat) : Eth := tabGet Eth.reset s.eth p
def State.setPort (s : State) (p : Nat) (e : Eth) : State := { s with eth := tabSet Eth.reset s.eth p e }

/-- A completed measurement m of a port (R360). DEDUCED (notes/assumptions/27.md). -/
def State.ptpMeasure (s : State) (p : Nat) (m : Int) (seq : Nat) : State :=
  let s := (s.wr Reg.ETH_MPD_MEAS.m p (wrapInt 32 m)).wr Reg.ETH_MPD_STAT.seq p seq
  let acc := signedOf 32 (s.rd Reg.ETH_MPD_ACC.m_acc p)
  let take (s : State) : State :=
    (s.wr Reg.ETH_MPD_ACC.m_acc p (wrapInt 32 m)).wr Reg.ETH_STAT.mpd_valid p 1
  if !(s.port p).seen then
    (take (s.setPort p { s.port p with seen := true })).wr Reg.ETH_MPD_STAT.run p 0
  else if (m - acc).natAbs ≤ s.rd Reg.TIM_STEP_LIMIT.ptp 0 then
    (if s.flag Reg.ETH_STAT.held p then s else (take s).wr Reg.ETH_MPD_STAT.run p 0)
  else
    let s := (s.count Reg.ETH_MPD_STAT.rejects p).count Reg.ETH_MPD_STAT.run p
    if !s.flag Reg.ETH_STAT.held p ∧ s.rd Reg.TIM_STEP_CNT.n 0 ≤ s.rd Reg.ETH_MPD_STAT.run p then
      let s := (s.wr Reg.ETH_STAT.held p 1).setBit Reg.TIM_STAT.ptp_held 0 p true
      (((s.setBit Reg.TIM_SUSPECT.port 0 p true).setQuality 4)).raise 0x501 p (wrapInt 32 m)
    else s

/-- Form m once a port's times are all known (R360). DEDUCED (notes/assumptions/27.md). -/
def State.ptpTry (s : State) (p : Nat) : State :=
  let e := s.port p
  if s.flag Reg.ETH_CTRL.mech p then
    match e.delay.t1, e.delay.t2, e.delay.t3, e.delay.t4 with
    | some t1, some t2, some t3, some t4 =>
      let m := Int.fdiv (((t4 : Int) - t1) - ((t3 : Int) - t2) - e.delay.corr) 2
      (s.setPort p { e with delay := PtpMatch.clear }).ptpMeasure p m e.delay.seq
    | _, _, _, _ => s
  else
    match e.sync.t1, e.sync.t2, e.delay.t3, e.delay.t4 with
    | some t1, some t2, some t3, some t4 =>
      let m := Int.fdiv (((t2 : Int) - t1) + ((t4 : Int) - t3) - (e.sync.corr + e.delay.corr)) 2
      (s.setPort p { e with delay := PtpMatch.clear }).ptpMeasure p m e.delay.seq
    | _, _, _, _ => s

/-- A big-endian number from frame bytes. -/
def beNat (bs : List Byte) (off n : Nat) : Nat := ((bs.drop off).take n).foldl (fun a b => a * 256 + b.toNat) 0

/-- A PTP timestamp (48-bit seconds, 32-bit ns) as station time, through TIM_ERA (R349); durations are rounded down to
edge units (R10). PRESUMED (notes/assumptions/26.md). -/
def State.ptpTime (s : State) (bs : List Byte) (off : Nat) : Nat :=
  let era : Nat := s.rd Reg.TIM_ERA_LO.era_lo 0 + 2 ^ 32 * s.rd Reg.TIM_ERA_HI.era_hi 0
  wrapInt 64 (((beNat bs off 6 : Int) - era) * secondUnits + ((beNat bs (off + 6) 4 * 64 / 5 : Nat) : Int))

/-- The PTP message in a frame under the port's transport (R357), after an optional 802.1Q tag. PRESUMED (notes/assumptions/26.md). -/
def ptpPayload (udp : Bool) (bs : List Byte) : Option (List Byte) :=
  let tag := if beNat bs 12 2 = 0x8100 then 4 else 0
  let ty := beNat bs (12 + tag) 2
  let rest := bs.drop (14 + tag)
  if udp then
    let ihl := beNat rest 0 1 % 16 * 4
    if ty = 0x0800 ∧ beNat rest 9 1 = 17 ∧ (beNat rest (ihl + 2) 2 = 319 ∨ beNat rest (ihl + 2) 2 = 320) then
      some (rest.drop (ihl + 8))
    else none
  else if ty = 0x88F7 then some rest else none

def ptpType (m : List Byte) : Nat := beNat m 0 1 % 16
/-- Event messages are types 0 to 3. -/
def ptpIsEvent (m : List Byte) : Bool := ptpType m < 4
def ptpSeq (m : List Byte) : Nat := beNat m 30 2
/-- correctionField, 2^-16 ns, in edge units. -/
def ptpCorr (m : List Byte) : Int := Int.fdiv (signedOf 64 (beNat m 8 8) * 64) (5 * 65536)
def ptpTwoStep (m : List Byte) : Bool := beNat m 6 1 / 2 % 2 == 1

/-- The message comes from the configured peer in the configured domain. -/
def State.ptpFromPeer (s : State) (p : Nat) (m : List Byte) : Bool :=
  beNat m 4 1 == s.rd Reg.ETH_PTP_CFG.domain p
    && beNat m 20 4 == s.rd Reg.ETH_PTP_PEER_HI.id_hi p
    && beNat m 24 4 == s.rd Reg.ETH_PTP_PEER_LO.id_lo p
    && beNat m 28 2 == s.rd Reg.ETH_PTP_CFG.peer_port p

/-- A received message of the peer, stamped `t` (R360). -/
def State.ptpReceive (s : State) (p : Nat) (m : List Byte) (t : Nat) : State :=
  if !s.flag Reg.ETH_CTRL.ptp_en p || !s.ptpFromPeer p m then s
  else
    let e := s.port p
    let ts := s.ptpTime m 34
    let e' : Eth :=
      if ptpType m = 0 then
        { e with sync := ⟨ptpSeq m, if ptpTwoStep m then none else some ts, some t, none, none, ptpCorr m⟩ }
      else if ptpType m = 8 ∧ ptpSeq m = e.sync.seq then
        { e with sync := { e.sync with t1 := some ts, corr := e.sync.corr + ptpCorr m } }
      else if ptpType m = 9 ∧ ptpSeq m = e.delay.seq ∧ e.delay.t3.isSome then
        { e with delay := { e.delay with t4 := some ts, corr := e.delay.corr + ptpCorr m } }
      else if ptpType m = 3 ∧ ptpSeq m = e.delay.seq ∧ e.delay.t1.isSome then
        { e with delay := { e.delay with
          t2 := some ts, t3 := if ptpTwoStep m then none else some ts, t4 := some t, corr := e.delay.corr + ptpCorr m } }
      else if ptpType m = 0xA ∧ ptpSeq m = e.delay.seq ∧ e.delay.t1.isSome then
        { e with delay := { e.delay with t3 := some ts, corr := e.delay.corr + ptpCorr m } }
      else e
    (s.setPort p e').ptpTry p

/-- A transmitted message of the host's, stamped `t` (R360). -/
def State.ptpTransmit (s : State) (p : Nat) (m : List Byte) (t : Nat) : State :=
  if !s.flag Reg.ETH_CTRL.ptp_en p then s
  else
    let e := s.port p
    if ptpType m = 1 then s.setPort p { e with delay := ⟨ptpSeq m, none, none, some t, none, 0⟩ }
    else if ptpType m = 2 then s.setPort p { e with delay := ⟨ptpSeq m, some t, none, none, none, 0⟩ }
    else s

/-- The first element of a BER sequence: tag, contents, rest. PRESUMED (notes/assumptions/126.md). -/
def berElement (bs : List Byte) : Option (Nat × List Byte × List Byte) :=
  match bs with
  | t :: l :: rest =>
    let k := if l.toNat < 128 then 0 else l.toNat - 128
    let n := if k = 0 then l.toNat else beNat rest 0 k
    some (t.toNat, (rest.drop k).take n, rest.drop (k + n))
  | _ => none

/-- The contents of the first element with a tag, among the first few of a sequence. -/
def berFind (tag : Nat) : Nat → List Byte → Option (List Byte)
  | 0, _ => none
  | n + 1, bs => match berElement bs with
    | some (t, v, rest) => if t = tag then some v else berFind tag n rest
    | none => none

/-- APPID and svID of a sampled-value frame (IEC 61850-9-2), after an optional 802.1Q tag. PRESUMED (notes/assumptions/126.md). -/
def svName (bs : List Byte) : Option (Nat × List Nat) :=
  let tag := if beNat bs 12 2 = 0x8100 then 4 else 0
  if beNat bs (12 + tag) 2 ≠ 0x88BA then none
  else match (((berFind 0x60 1 (bs.drop (22 + tag))).bind (berFind 0xA2 4)).bind (berFind 0x30 1)).bind (berFind 0x80 1) with
    | some id => some (beNat bs (14 + tag) 2, id.map (·.toNat))
    | none => none

/-- The sampled-value ingest consumes the frame: it matches a subscription (R335). -/
def State.svConsumes (s : State) (p : Nat) (bs : List Byte) : Bool :=
  match svName bs with
  | some (appid, id) => s.flag Reg.ADC_CTRL.enable 0 && s.bs.meas.subs.any (fun e => s.flag Reg.ADC_SV_MAP.enable e.sub
      && e.ports / 2 ^ p % 2 == 1 && e.dst == beNat bs 0 6 && e.appid == appid && e.svId == id)
  | none => false

/-- The receive filter (R359): never a frame that the sampled-value ingest consumes. -/
def State.ethPasses (s : State) (p : Nat) (bs : List Byte) : Bool :=
  let d := beNat bs 0 6
  !s.svConsumes p bs && (s.flag Reg.ETH_CTRL.promisc p || d == 0xFFFFFFFFFFFF || d == 0x011B19000000 || d == 0x0180C200000E
    || d == s.rd Reg.ETH_MAC_HI.mac_hi p * 2 ^ 32 + s.rd Reg.ETH_MAC_LO.mac_lo p
    || (s.flag Reg.ETH_MCAST_HI.mc_en p
        && d == s.rd Reg.ETH_MCAST_HI.mc_hi p * 2 ^ 32 + s.rd Reg.ETH_MCAST_LO.mc_lo p))

/-- The device may issue requests (R473). -/
def State.mayRequest (s : State) : Bool := !s.flag Reg.GLB_STAT.master_off 0 && !s.inD3Hot

/-- Store a received frame: the buffer, then the descriptor of Table 11.2, then the head (R43, R359). -/
def State.ethStore (s : State) (p : Nat) (bs : List Byte) (t buffer flags : Nat) : State :=
  let head := s.rd Reg.ETH_RXR_HEAD.head p
  let base := s.rd Reg.ETH_RXR_BASE_LO.base_lo p * 4096 + s.rd Reg.ETH_RXR_BASE_HI.base_hi p * 2 ^ 32
  let s := s.hostStore buffer bs
  let s := s.hostStore (base + head * 16) (bytesLE 8 t ++ bytesLE 2 bs.length ++ bytesLE 1 flags ++ bytesLE 5 0)
  let s := (s.wr Reg.ETH_RXR_HEAD.head p ((head + 1) % 2 ^ s.rd Reg.ETH_RXR_SIZE.log2 p)).count Reg.ETH_RX_CNT.frames p
  let e := s.port p
  if s.rd Reg.ETH_IRQ_CTRL.rx_coalesce p ≤ e.rxSince + 1 then
    (s.setPort p { e with rxSince := 0, ringFull := false }).signal (6 + 2 * p)
  else s.setPort p { e with rxSince := e.rxSince + 1, ringFull := false }

/-- ETH_RX_FRAME (R358 to R360). `bytes` is the frame without FCS, `buffer` the address its descriptor names. -/
def State.ethReceive (s : State) (p : Nat) (bs : List Byte) (fcsOk : Bool) (phi buffer : Nat) : State :=
  if !s.flag Reg.ETH_CTRL.enable p then s
  else if !fcsOk then s.count Reg.ETH_RX_DROP.fcs p
  else
    let t := timePlus (s.stamp phi) (signedOf 16 (s.rd Reg.ETH_LAT.rx p))
    let msg := ptpPayload (s.flag Reg.ETH_CTRL.transport p) bs
    let isEvent := match msg with | some m => ptpIsEvent m | none => false
    let inDomain := match msg with | some m => beNat m 4 1 == s.rd Reg.ETH_PTP_CFG.domain p | none => false
    let s := if isEvent then s.count Reg.ETH_TS_CNT.rx_event p else s
    let s := match msg with | some m => s.ptpReceive p m t | none => s
    if !s.flag Reg.ETH_CTRL.rx_en p || !s.ethPasses p bs then s
    else if !s.mayRequest then s.count Reg.ETH_RX_DROP.ring p
    else if s.rd Reg.ETH_RXR_HEAD.head p = s.rd Reg.ETH_RXR_TAIL.tail p then
      let s := s.count Reg.ETH_RX_DROP.ring p
      let e := s.port p
      if e.ringFull then s
      else (s.setPort p { e with ringFull := true }).raise 0x512 p (s.rd Reg.ETH_RX_DROP.ring p)
    else s.ethStore p bs t buffer
      (1 + 2 * bit isEvent + 4 * bit (beNat bs 12 2 == 0x8100) + 8 * bit (isEvent && inDomain))

def execEthRxFrame (port : Fin 2) (bytes : List (BitVec 8)) (fcsOk : Bool) (phi : Fin 32) (buffer : Nat) (s : State) :
    Host.Outcome State Fault Refusal :=
  .next (s.ethReceive port bytes fcsOk phi buffer)

/-- A read completion in error (Table 16.4): counted, and reported while dma_ev is 1. -/
def State.dmaError (s : State) (kind requester : Nat) : State :=
  let s := (s.count Reg.GLB_DMA_ERR.count 0).wr Reg.GLB_DMA_ERR.last 0 requester
  if s.flag Reg.GLB_CTRL.dma_ev 0 then s.raise 0x003 0 (kind + 256 * requester) else s

/-- Write back a transmit descriptor (Table 11.1) and advance the head. -/
def State.ethWriteBack (s : State) (p stamp len flags : Nat) : State :=
  let head := s.rd Reg.ETH_TXR_HEAD.head p
  let base := s.rd Reg.ETH_TXR_BASE_LO.base_lo p * 4096 + s.rd Reg.ETH_TXR_BASE_HI.base_hi p * 2 ^ 32
  let s := s.hostStore (base + head * 16) (bytesLE 8 stamp ++ bytesLE 2 len ++ bytesLE 1 flags ++ bytesLE 5 0)
  let s := s.wr Reg.ETH_TXR_HEAD.head p ((head + 1) % 2 ^ s.rd Reg.ETH_TXR_SIZE.log2 p)
  if s.flag Reg.ETH_IRQ_CTRL.tx_wb_sig p then s.signal (7 + 2 * p) else s

/-- ETH_TX_FRAME (R358, R359): the frame of the posted descriptor at the head; short frames are padded and the FCS is
appended. A descriptor whose reads end in error sends nothing. -/
def State.ethSend (s : State) (p : Nat) (bs : List Byte) (tsReq : Bool) (phi dmaErr : Nat) : State :=
  if !s.flag Reg.ETH_CTRL.enable p || !s.flag Reg.ETH_CTRL.tx_en p || !s.mayRequest
      || s.rd Reg.ETH_TXR_HEAD.head p == s.rd Reg.ETH_TXR_TAIL.tail p then s
  else if dmaErr ≠ 0 then s.dmaError dmaErr (2 + p)
  else if bs.length < 14 ∨ 1514 < bs.length then
    (s.ethWriteBack p 0 bs.length (1 + 4)).raise 0x513 p (s.rd Reg.ETH_TXR_HEAD.head p)
  else
    let t := timePlus (s.stamp phi) (signedOf 16 (s.rd Reg.ETH_LAT.tx p))
    let padded := bs ++ List.replicate (60 - bs.length) (0 : Byte)
    let s := { s with wire := s.wire ++ [Wire.ethernet p (padded ++ bytesLE 4 (crc32Eth padded))] }
    let s := s.count Reg.ETH_TX_CNT.frames p
    let s := if tsReq then s.count Reg.ETH_TS_CNT.tx_stamped p else s
    let s := match ptpPayload (s.flag Reg.ETH_CTRL.transport p) bs with
      | some m => if tsReq then s.ptpTransmit p m t else s
      | none => s
    s.ethWriteBack p (if tsReq then t else 0) bs.length (1 + 2 * bit tsReq)

def execEthTxFrame (port : Fin 2) (bytes : List (BitVec 8)) (stampRequested : Bool) (phi : Fin 32) (dmaError : Fin 4)
    (s : State) : Host.Outcome State Fault Refusal :=
  .next (s.ethSend port bytes stampRequested phi dmaError)

/-- MPD_ACCEPT (R360). -/
def execMpdAccept (port : Fin 2) (s : State) : Host.Outcome State Fault Refusal := byHost (fun s =>
  let m := s.rd Reg.ETH_MPD_MEAS.m port
  let s := (s.wr Reg.ETH_MPD_ACC.m_acc port m).wr Reg.ETH_STAT.mpd_valid port 1
  let s := ((s.wr Reg.ETH_STAT.held port 0).wr Reg.ETH_MPD_STAT.run port 0).setBit Reg.TIM_STAT.ptp_held 0 port false
  .next (s.raise 0x507 port m)) s

/-- A port loses block lock (Table 11.4, R369). -/
def State.ethUnlock (s : State) (p : Nat) : State :=
  (((s.wr Reg.ETH_STAT.link p 0).wr Reg.ETH_STAT.local_fault p 1).count Reg.ETH_PCS_CNT.lock_losses p).raise 0x510 p 1

/-- The port's PCS starts again (R369): a link that was up is lost. DEDUCED (notes/assumptions/126.md). -/
def State.pcsRestart (s : State) (p : Nat) : State := if s.flag Reg.ETH_STAT.link p then s.ethUnlock p else s

/-- ETH_LINK_CHANGE (Table 11.4), or invalid sync headers that the port's PCS has counted. DESIGN CHOICE (notes/assumptions/126.md). -/
def execEthLinkChange (port : Fin 2) (change : EthLink) (s : State) : Host.Outcome State Fault Refusal :=
  .next (match change with
    | .lockLost => s.ethUnlock port
    | .headers n => s.add Reg.ETH_PCS_CNT.hdr_err port n
    | .remoteFault => ((s.wr Reg.ETH_STAT.link port 0).wr Reg.ETH_STAT.remote_fault port 1).raise 0x510 port 2
    | .up =>
      (((s.wr Reg.ETH_STAT.link port 1).wr Reg.ETH_STAT.local_fault port 0).wr Reg.ETH_STAT.remote_fault port 0).raise
        0x511 port s.epoch)

end Sys2Proof.Machine
end

