-- ==== Sys2Proof/Machine/HostLink.lean ====
section
/-! DEFINITION. The host interface: link events, power state, interrupt vectors (R471 to R482) and the JTAG port (R496,
R497). Register accesses are in Access.lean. -/

namespace Sys2Proof.Machine

/-- Reset one register field. -/
def State.rst (s : State) (f : Field) (i : Nat) : State := s.wr f i f.reset

/-- Send every pending message whose vector may be sent now (R473, R479). DEDUCED (notes/assumptions/24.md). -/
def State.flushVectors (s : State) : State :=
  State.forEach 64 (fun v s =>
    if tabGet false s.host.pba v && !(tabGet Msix.reset s.host.msix v).masked && s.mayRequest then
      State.sendVector { s with host := { s.host with pba := tabSet false s.host.pba v false } } v
    else s) s

/-- What every kind of link reset clears (R472). -/
def State.hostReset (s : State) : State :=
  let s := { s with host := { s.host with msix := [], pba := [], latch := [], rdata := none } }
  let s := [Reg.GLB_CTRL.acc_ev, Reg.GLB_CTRL.dma_ev, Reg.GLB_EVQ_MOD.count, Reg.GLB_EVQ_MOD.time, Reg.GLB_IRQ_EN0.en,
    Reg.GLB_IRQ_EN1.en, Reg.GLB_IRQ_STAT0.cause, Reg.GLB_IRQ_STAT1.cause, Reg.EPO_CTRL.ev_enable,
    Reg.EPO_DR_CTRL.dma_start, Reg.EPO_STAT.dr_dma_busy, Reg.GLB_STAT.master_off, Reg.GLB_STAT.d3,
    Reg.GLB_LINK_STAT.dstate].foldl (fun s f => s.rst f 0) s
  (((s.rst Reg.ETH_CTRL.rx_en 0).rst Reg.ETH_CTRL.rx_en 1).rst Reg.ETH_CTRL.tx_en 0).rst Reg.ETH_CTRL.tx_en 1

/-- Number of a link-loss cause (Table 16.4). -/
def linkCauseCode : LinkCause → Nat
  | .linkDown => 1 | .hotReset => 2 | .linkDisable => 3 | .flr => 4

/-- LINK_DOWN (R472): resets only the host interface; each occurrence is counted. -/
def execLinkDown (cause : LinkCause) (s : State) : Host.Outcome State Fault Refusal :=
  let s := s.hostReset
  let s := if cause = .flr then
      ((s.count Reg.GLB_LINK_CNT.flr 0).rst Reg.GLB_SCRATCH0.data 0).rst Reg.GLB_SCRATCH1.data 0
    else ((s.count Reg.GLB_LINK_CNT.downs 0).wr Reg.GLB_LINK_STAT.speed 0 0).wr Reg.GLB_LINK_STAT.width 0 0
  .next (s.raise 0x000 0 (linkCauseCode cause))

/-- LINK_UP (R472). -/
def execLinkUp (speed width : Fin 5) (s : State) : Host.Outcome State Fault Refusal :=
  .next (((s.wr Reg.GLB_LINK_STAT.speed 0 speed).wr Reg.GLB_LINK_STAT.width 0 width).raise 0x001 0 (speed + 16 * width))

/-- MASTER_OFF (R473): Bus Master Enable was written. DESIGN CHOICE (notes/assumptions/132.md). -/
def execMasterOff (off : Bool) (s : State) : Host.Outcome State Fault Refusal :=
  let s := (s.wr Reg.GLB_STAT.master_off 0 (bit off)).raise 0x004 0 (bit off)
  .next (if off then s else s.flushVectors)

/-- POWER_STATE (R473). DESIGN CHOICE (notes/assumptions/132.md). -/
def execPowerState (d3 : Bool) (s : State) : Host.Outcome State Fault Refusal :=
  let d := if d3 then 3 else 0
  let s := ((s.wr Reg.GLB_STAT.d3 0 (bit d3)).wr Reg.GLB_LINK_STAT.dstate 0 d).raise 0x005 0 d
  .next (if d3 then s else s.flushVectors)

/-- VECTOR0_TIMEOUT (R482): the oldest unsignalled record has waited GLB_EVQ_MOD.time. -/
def execVector0Timeout (s : State) : Host.Outcome State Fault Refusal :=
  .next (if s.evq.written = 0 then s
    else (s.reachCycle (s.evq.oldest + s.rd Reg.GLB_EVQ_MOD.time 0 * 400)).ringVector 0)

/-- A vector is unmasked: a pending message is sent (R479). -/
def State.unmask (s : State) (v : Nat) : State :=
  let s := { s with host := { s.host with
    msix := tabMod Msix.reset s.host.msix v (fun e => { e with masked := false }) } }
  if tabGet false s.host.pba v then
    State.sendVector { s with host := { s.host with pba := tabSet false s.host.pba v false } } v
  else s

/-- MSIX_UNMASK (R479). -/
def execMsixUnmask (vector : Fin 64) (s : State) : Host.Outcome State Fault Refusal :=
  byHost (fun s => .next (s.unmask vector)) s

/-- IRQ_TEST (R480): subject to enable and mask; vectors 13 to 15 are never sent (Table 16.3). -/
def execIrqTest (vector : Fin 64) (s : State) : Host.Outcome State Fault Refusal := byHost (fun s =>
  .next (if s.vectorEnabled vector ∧ ¬ (13 ≤ vector.val ∧ vector.val ≤ 15) then s.sendVector vector else s)) s

/-! ### JTAG -/

/-- Instructions that drive pins (Table 17.9). -/
def jtagDrives (code : Nat) : Bool := code == 0 || code == 3 || code == 4 || code == 5 || code == 6

/-- The instruction a code stands for; reserved codes act as BYPASS. -/
def jtagMeaning (code : Nat) : Nat := if code ≤ 6 then code else 0xFF

/-- JTAG_INSTRUCTION (R497): the scan shifts out what the register captured; a pin-driving instruction is replaced by
BYPASS while a bit-stream runs, and 0x3D is captured at the next scan. -/
def execJtagInstruction (code : BitVec 8) (s : State) : Host.Outcome State Fault Refusal :=
  let s := { s with wire := s.wire ++ [Wire.jtag s.jtag.capture] }
  .next (if s.running ∧ jtagDrives code.toNat then { s with jtag := ⟨0xFF, 0x3D⟩ }
    else { s with jtag := ⟨jtagMeaning code.toNat, 0x01⟩ })

/-- JTAG_PORT_RESET (R496): the port alone. -/
def execJtagPortReset (s : State) : Host.Outcome State Fault Refusal := .next { s with jtag := ⟨0xFF, 0x01⟩ }

end Sys2Proof.Machine
end

