-- ==== Sys2Proof/Machine/Ecdsa.lean ====
section
/-! DEFINITION. Verification of an ECDSA signature with curve P-384 and SHA-384, as FIPS 186-5 defines it (R432). -/

namespace Sys2Proof.Machine

/-! ### The curve: y^2 = x^3 - 3x + b over the field of p elements, with base point G of order n -/

def p384 : Nat := 2 ^ 384 - 2 ^ 128 - 2 ^ 96 + 2 ^ 32 - 1
def p384b : Nat := 0xB3312FA7E23EE7E4988E056BE3F82D19181D9C6EFE8141120314088F5013875AC656398D8A2ED19D2A85C8EDD3EC2AEF
def p384n : Nat := 0xFFFFFFFFFFFFFFFFFFFFFFFFFFFFFFFFFFFFFFFFFFFFFFFFC7634D81F4372DDF581A0DB248B0A77AECEC196ACCC52973
def p384x : Nat := 0xAA87CA22BE8B05378EB1C71EF320AD746E1D3B628BA79B9859F741E082542A385502F25DBF55296C3A545E3872760AB7
def p384y : Nat := 0x3617DE4A96262C6F5D9E98BF9292DC29F8F41DBD289A147CE9DA3113B5F0B8C00A60B1CE1D7E819D7A431D7C90EA0E5F

/-- x^e mod m, by `fuel` bits of the exponent. -/
def powMod (m : Nat) : Nat → Nat → Nat → Nat
  | 0, _, _ => 1 % m
  | fuel + 1, x, e =>
    let y := powMod m fuel (x * x % m) (e / 2)
    if e % 2 = 1 then x * y % m else y

/-- The inverse modulo a prime. -/
def invMod (m x : Nat) : Nat := powMod m 384 (x % m) (m - 2)

/-- A point of the curve; none is the point at infinity. -/
abbrev CurvePoint := Option (Nat × Nat)

def onCurve (x y : Nat) : Bool :=
  decide (x < p384) && decide (y < p384) && (y * y % p384 == (x * x * x + (p384 - 3) * x + p384b) % p384)

def pointAdd : CurvePoint → CurvePoint → CurvePoint
  | none, b => b
  | a, none => a
  | some (x1, y1), some (x2, y2) =>
    if x1 = x2 ∧ (y1 + y2) % p384 = 0 then none
    else
      let l := if x1 = x2 then (3 * x1 * x1 + (p384 - 3)) * invMod p384 (2 * y1) % p384
        else (y2 + p384 - y1) * invMod p384 (x2 + p384 - x1) % p384
      let x3 := (l * l + 2 * p384 - x1 - x2) % p384
      some (x3, (l * (x1 + p384 - x3) + p384 - y1) % p384)

/-- k times a point, by `fuel` bits of k. DEDUCED (notes/assumptions/40.md). -/
def pointMul : Nat → Nat → CurvePoint → CurvePoint
  | 0, _, _ => none
  | fuel + 1, k, a =>
    let r := pointMul fuel (k / 2) (pointAdd a a)
    if k % 2 = 1 then pointAdd a r else r

/-- The signature (r, s) of a message under the public key (x, y). DEDUCED (notes/assumptions/40.md). -/
def ecdsaVerify (x y r s : Nat) (message : List Byte) : Bool :=
  if !onCurve x y || r == 0 || s == 0 || decide (p384n ≤ r) || decide (p384n ≤ s) then false
  else
    let e := natBE (sha384 message)
    let w := invMod p384n s
    match pointAdd (pointMul 384 (e * w % p384n) (some (p384x, p384y))) (pointMul 384 (r * w % p384n) (some (x, y))) with
    | none => false
    | some v => v.1 % p384n == r

end Sys2Proof.Machine
end

