-- ==== Sys2Proof/Machine/Reaction.lean ====
section
/-! DEFINITION. The reaction matrix (R285 to R290, R507, R512, Tables 8.6, 8.7, 8.12): qualification of a condition, its wired actions,
latched pins and lane sets. The qualifier's q + 1 cycles are counted by the matrix, whose verdict the command brings. -/

namespace Sys2Proof.Machine

/-- Conditions whose source is a pin of the device: TRIP_IN, DRV_FLT_N, DRV_BSUV_N (Table 8.6). DEDUCED (notes/assumptions/61.md). -/
def pinCondition (n : Nat) : Bool := decide (n < 8) || (decide (72 ≤ n) && decide (n < 120))

/-- Sources that are true for one core cycle (R507): an uncorrectable error, a host condition, a missed deadline.
DESIGN CHOICE (notes/assumptions/32.md). -/
def oneCycle (n : Nat) : Bool := n == 242 || (decide (576 ≤ n) && decide (n < 712))

/-- Conditions without a source (Table 8.6). -/
def reservedCondition (n : Nat) : Bool := (decide (243 ≤ n) && decide (n < 256)) || decide (712 ≤ n)

/-- The matrix acts: a bit-stream runs, in a role that keeps the fabric ON (Table 15.3). DEDUCED (notes/assumptions/62.md). -/
def State.reacts (s : State) : Bool :=
  s.running && s.rd Reg.RED_STAT.role 0 != 1 && s.rd Reg.RED_STAT.role 0 != 6

/-- The lowest qualified condition with an action that satisfies `p`. -/
def State.wired (s : State) (p : Action → Bool) : Option Nat :=
  ((s.bs.reaction.conds.filter (fun e => e.actions.any p && (s.cond e.cond).qualified)).map (·.cond)).foldl
    (fun m c => match m with
      | none => some c
      | some x => some (min x c)) none

/-! ### Actions (Table 8.7) -/

/-- TRIP_OUT: assert a pin; a standby holds it deasserted (R381). DEDUCED (notes/assumptions/61.md). -/
def State.tripSet (s : State) (pin cond : Nat) : State :=
  if sleepsIn s.role then s
  else
    let old := s.bitAt Reg.FAB_TRIP_OUT.state 0 pin
    let s := if s.bitAt Reg.FAB_TRIP_OUT.latch_mode 0 pin then s.setBit Reg.FAB_TRIP_OUT.latched 0 pin true else s
    if old then s
    else
      let s := s.setBit Reg.FAB_TRIP_OUT.state 0 pin true
      { s with wire := s.wire ++ [Wire.tripOut pin true] }.raise 0x307 pin cond

/-- Deassert a pin. -/
def State.tripClear (s : State) (pin : Nat) : State :=
  if !s.bitAt Reg.FAB_TRIP_OUT.state 0 pin then s
  else
    let s := s.setBit Reg.FAB_TRIP_OUT.state 0 pin false
    { s with wire := s.wire ++ [Wire.tripOut pin false] }

/-- Lanes of a lane set. -/
def BitStream.setLanes (b : BitStream) (n : Nat) : List Nat := ((b.laneSets.find? (fun x => x.1 == n)).map (·.2)).getD []

/-- PRIO_BLOCK: block the lanes of a set (R201, R96). On a lane that the safety path blocks in this very slot the fabric's PRIO follows
in the next one. DESIGN CHOICE (notes/assumptions/116.md). -/
def State.prioSet (s : State) (n cond : Nat) : State :=
  if s.bitAt Reg.FAB_PRIO_STAT.blocked 0 n then s
  else
    let lanes := s.bs.setLanes n
    let open_ := lanes.filter (fun l => !(s.prioWord l).1 || (!s.fabricBlocks l && (s.lane l).safAt == some s.cycle))
    let s := (s.setBit Reg.FAB_PRIO_STAT.blocked 0 n true).raise 0x308 n cond
    let s := open_.foldl (fun s l => s.insertPrio l false true) s
    (List.range 12).foldl (fun s a =>
      if (s.armCells a).any (fun e => lanes.contains e.lane) then s.armBlockNow a 2 else s) s

/-- One action at qualification; RETIRE and EVENT act on the data (`condData`). -/
def State.act (s : State) (cond : Nat) : Action → State
  | .tripOut p => s.tripSet p cond
  | .prioBlock n => s.prioSet n cond
  | .drvBlock l => l.foldl (fun s ch => s.blockChannel ch cond) s
  | .armBlock l => l.foldl (fun s a => s.modArm a (fun r => { r with blockReq := true })) s
  | .retire => s
  | .safReq r => s.safReq r true
  | .drTrigger => s.drTrigger
  | .release g => s.releaseGraph g s.cycle
  | .event => s

/-- An action that several conditions ask for in one cycle is carried out once (R286); one that holds a pin or a request holds it. DESIGN
CHOICE (notes/assumptions/116.md). -/
def State.actOnce (s : State) (cond : Nat) (a : Action) : State :=
  let done := if s.fab.acted.1 = s.cycle then s.fab.acted.2 else []
  let holds : Bool := match a with
    | .tripOut _ | .safReq _ => true
    | _ => false
  if !holds && done.any (fun x => x.1 == a && x.2 != cond) then s
  else (s.modFab (fun f => { f with acted := (s.cycle, (a, cond) :: done) })).act cond a

/-- Actions with one target each. -/
def Action.single : Action → List Action
  | .drvBlock l => l.map (fun ch => .drvBlock [ch])
  | .armBlock l => l.map (fun a => .armBlock [a])
  | a => [a]

/-! ### Blocks that go on (Table 8.12) -/

/-- The lowest qualified level-mode condition that blocks a channel. -/
def State.blocker (s : State) (ch : Nat) : Option Nat :=
  if !s.reacts then none
  else ((s.bs.reaction.conds.filter (fun e => !e.edge && (s.cond e.cond).qualified && e.actions.any (fun a => match a with
      | .drvBlock l => l.contains ch
      | _ => false))).map (·.cond)).min?

/-- A block that goes on acts again on a channel whose mode was written meanwhile; on one in mode 0 it only keeps the pending set away.
DEDUCED (notes/assumptions/115.md). -/
def State.reblock (s : State) (ch cond : Nat) : State :=
  if !s.drvIdle ch then s.blockChannel ch cond
  else if (s.drvRt ch).pending.isNone then s
  else (s.modDrv ch (fun r => { r with pending := none })).wr Reg.DRV_SET.pending ch 0

/-- DRV_BLOCK of a level-mode condition acts in every cycle while qualified (R512). -/
def State.keepBlocked (s : State) (ch : Nat) : State :=
  match s.blocker ch with
  | some c => s.reblock ch c
  | none => s

/-- DRV_COMMIT (R155, R156, R165): a write of DRV_SET with commit = 1 and the phase it carries. -/
def execDrvCommit (channel : Fin 24) (phase : Nat) (s : State) : Host.Outcome State Fault Refusal := byHost (fun s =>
  let ch : Nat := channel
  .next (s.mirrorOf (if s.drvHeld ch then s.drvRefuse ch 4
    else
      let s := s.wr Reg.DRV_SET.phase ch phase
      if drvSetOk (s.driveEntry ch) (s.drvWritten ch) (s.drvShadow ch) then (s.drvPend ch (s.drvShadow ch)).keepBlocked ch
      else s.drvRefuse ch 3))) s

/-- DRV_MODE_WRITE (R157, R159, R165, R167): a host write that changes DRV_CTRL.mode. -/
def execDrvModeWrite (channel : Fin 24) (mode : Fin 4) (s : State) : Host.Outcome State Fault Refusal := byHost (fun s =>
  let ch : Nat := channel
  let m : Nat := mode
  let r := s.drvRt ch
  .next (s.mirrorOf (if s.drvHeld ch then s.drvRefuse ch 4
    else if m ≠ 0 ∧ ¬ (r.tables.1.isSome ∧ r.tables.2.isSome) then s.drvRefuse ch 5
    else ((s.wr Reg.DRV_CTRL.mode ch m).modDrv ch (fun r => { r with nextMode := some m })).keepBlocked ch))) s

/-- FAB_PRIO_STAT.qualified: a wired condition of the set is qualified. -/
def State.showPrio (s : State) : State :=
  (List.range 16).foldl (fun s n =>
    s.setBit Reg.FAB_PRIO_STAT.qualified 0 n (s.wired (fun a => a == .prioBlock n)).isSome) s

/-- Actions in the order in which they are carried out: what the safety domain sends goes first in a block slot (R201). -/
def safetyFirst (l : List Action) : List Action :=
  let saf (a : Action) : Bool := match a with | .safReq _ => true | _ => false
  (l.filter saf ++ l.filter (fun a => !saf a)).flatMap Action.single

/-- A condition becomes qualified with data (R285, R289). DEDUCED (notes/assumptions/62.md). -/
def State.fire (s : State) (n : Nat) (data : List Nat) : State :=
  let s := (s.wr Reg.FAB_RX_COND.fired n 1).count Reg.FAB_RX_COND.count n
  let s := s.wr Reg.FAB_RX_ACT.data n (data.headD 0)
  let s := (safetyFirst (s.actions n)).foldl (fun s a => s.actOnce n a) s
  data.foldl (fun s d => s.condData n d) s

/-- What follows the end of a qualification: pins that are not latched and requests that no other qualified condition holds (R287, R443,
R512). -/
def State.release (s : State) : Action → State
  | .tripOut p =>
    if s.bitAt Reg.FAB_TRIP_OUT.latched 0 p || (s.wired (fun a => a == .tripOut p)).isSome then s else s.tripClear p
  | .safReq r => if (s.wired (fun a => a == .safReq r)).isSome then s else s.safReq r false
  | .prioBlock _ | .drvBlock _ | .armBlock _ | .retire | .drTrigger | .release _ | .event => s

/-- The end of a qualification. -/
def State.releaseAll (s : State) (n : Nat) : State := (s.actions n).foldl (fun s a => s.release a) s

/-- A condition qualifies (R285): the source has been true for q + 1 cycles. A one-cycle source acts once for each occurrence, and
never when q is above 0 (R507); cells that began to meet a condition are its data in turn. -/
def State.qualify (s : State) (n : Nat) : State :=
  let c := s.cond n
  let e := (s.bs.condEntry n).getD ⟨n, 0, false, []⟩
  if !s.reacts || reservedCondition n then s
  else if oneCycle n then
    let s := s.modCond n (fun c => { c with waiting := [] })
    if e.q = 0 then (c.waiting.foldl (fun s d => s.fire n [d]) s).releaseAll n else s
  else if c.qualified || !(c.level || pinCondition n) then s
  else
    let l := c.waiting.drop e.q
    let data := if l.isEmpty then [c.data] else if e.edge then l.take 1 else l
    let s := s.modCond n (fun c => { c with level := true, qualified := true, waiting := [] })
    ((s.wr Reg.FAB_RX_COND.qualified n 1).fire n data).showPrio

/-- A condition acts when it qualifies now. -/
def State.willFire (s : State) (n : Nat) : Bool :=
  s.reacts && !reservedCondition n && (if oneCycle n then ((s.bs.condEntry n).getD ⟨n, 0, false, []⟩).q == 0 && !(s.cond n).waiting.isEmpty
    else !(s.cond n).qualified && ((s.cond n).level || pinCondition n))

/-- Conditions that qualify in one cycle, in ascending order; of several, what the safety domain sends goes first in a block slot
(R201). DESIGN CHOICE (notes/assumptions/116.md). -/
def State.qualifyAll (s : State) (l : List Nat) : State :=
  let s := if l.length ≤ 1 then s
    else (l.filter s.willFire).foldl (fun (s : State) n => (s.actions n).foldl (fun (s : State) a => match a with
      | .safReq r => s.safReq r true
      | _ => s) s) s
  l.foldl (fun (s : State) n => s.qualify n) s

/-- CONDITION_QUALIFIED (R285): the sources of `conds` have been true for q + 1 cycles each. -/
def execConditionQualified (conds : List (Fin 1024)) (s : State) : Host.Outcome State Fault Refusal :=
  .next ((s.qualifyAll (conds.map (·.val))).mirrored s)

/-- CONDITION_UNQUALIFIED (R287): the source is no longer true. -/
def execConditionUnqualified (cond : Fin 1024) (s : State) : Host.Outcome State Fault Refusal :=
  let n : Nat := cond
  .next (if !(s.cond n).qualified || ((s.cond n).level && !pinCondition n) then s
    else
      let s := s.modCond n (fun c => { c with level := if pinCondition n then false else c.level, qualified := false })
      ((s.wr Reg.FAB_RX_COND.qualified n 0).releaseAll n).showPrio)

/-- TRIP_OUT_CLEAR (R287): 1 written to a bit of FAB_TRIP_OUT.latched. -/
def execTripOutClear (pin : Fin 8) (s : State) : Host.Outcome State Fault Refusal := byHost (fun s =>
  let p : Nat := pin
  .next (if !s.bitAt Reg.FAB_TRIP_OUT.latched 0 p then s
    else match s.wired (fun a => a == .tripOut p) with
      | some c => s.raise 0x30C p c
      | none => (s.setBit Reg.FAB_TRIP_OUT.latched 0 p false).tripClear p)) s

/-- PRIO_BLOCK_CLEAR (R287): 1 written to a bit of FAB_PRIO_STAT.blocked. -/
def execPrioBlockClear (set : Fin 16) (s : State) : Host.Outcome State Fault Refusal := byHost (fun s =>
  let n : Nat := set
  .next (if !s.bitAt Reg.FAB_PRIO_STAT.blocked 0 n then s
    else match s.wired (fun a => a == .prioBlock n) with
      | some c => s.raise 0x30C n (c + 2 ^ 10)
      | none =>
        let words := (s.bs.setLanes n).map (fun l => (l, s.prioWord l))
        let s := (s.setBit Reg.FAB_PRIO_STAT.blocked 0 n false).raise 0x309 n 0
        words.foldl (fun s x => s.prioChanged x.1 x.2) s)) s

/-- HOST_CONDITION (R290): FAB_HOST_COND written with assert at 1. -/
def execHostCondition (number : Fin 8) (s : State) : Host.Outcome State Fault Refusal := byHost (fun s =>
  .next (s.pulseCond (576 + number) 0)) s

/-- Level-mode actions that act again at each seam while qualified (Table 8.12), in ascending order of condition. -/
def State.reactSeam (s : State) : State :=
  if !s.reacts then s
  else
    let on := s.bs.reaction.conds.filter (fun e => !e.edge && (s.cond e.cond).qualified)
    let s := (on.mergeSort (fun x y => decide (x.cond ≤ y.cond))).foldl (fun s e => (e.actions.flatMap Action.single).foldl (fun s a =>
      match a with
      | .armBlock _ | .release _ => s.actOnce e.cond a
      | .drvBlock _ | .tripOut _ | .prioBlock _ | .retire | .safReq _ | .drTrigger | .event => s) s) s
    (List.range 24).foldl (fun s ch => s.keepBlocked ch) s

/-- Bits of FAB_RX_ACT.actions in the order of Table 8.7. -/
def Action.number : Action → Nat
  | .tripOut _ => 0 | .prioBlock _ => 1 | .drvBlock _ => 2 | .armBlock _ => 3 | .retire => 4 | .safReq _ => 5 | .drTrigger => 6
  | .release _ => 7 | .event => 8

/-- The register fields that show the reaction section in place of `old`; pins and lane sets stay as they are (R443). -/
def State.showReaction (s : State) (old : List CondEntry) : State :=
  let s := s.wr Reg.FAB_TRIP_OUT.latch_mode 0 (bitsMask ((s.bs.reaction.modes.filter (·.2)).map (·.1)))
  let s := old.foldl (fun s e =>
    ((s.wr Reg.FAB_RX_COND.edge e.cond 0).wr Reg.FAB_RX_COND.qualifier e.cond 0).wr Reg.FAB_RX_ACT.actions e.cond 0) s
  s.bs.reaction.conds.foldl (fun s e =>
    let s := (s.wr Reg.FAB_RX_COND.edge e.cond (bit e.edge)).wr Reg.FAB_RX_COND.qualifier e.cond e.q
    s.wr Reg.FAB_RX_ACT.actions e.cond (bitsMask (e.actions.map Action.number))) s

/-- New wiring acts from the seam (R443): level-mode conditions that are qualified assert what they now reach, and what no qualified
condition reaches any more is taken back (R287, R512). -/
def State.rewire (s : State) (old : List CondEntry) : State :=
  let s := s.showReaction old
  let s := s.bs.reaction.conds.foldl (fun s e =>
    if e.edge || !(s.cond e.cond).qualified || !s.reacts then s
    else (safetyFirst e.actions).foldl (fun s a => match a with
      | .tripOut _ | .prioBlock _ | .safReq _ => s.act e.cond a
      | .drvBlock _ | .armBlock _ | .retire | .drTrigger | .release _ | .event => s) s) s
  (old.foldl (fun s e => e.actions.foldl (fun s a => s.release a) s) s).showPrio

/-- Levels that hold when the matrix starts (Table 8.6): gate driver pins, lanes that are not up, the time quality. -/
def State.startLevels (s : State) : State :=
  let s := (List.range 24).foldl (fun s ch =>
    (s.setCond (72 + ch) (s.flag Reg.DRV_CTRL.flt ch)).setCond (96 + ch) (s.flag Reg.DRV_CTRL.bsuv ch)) s
  let s := (List.range 96).foldl (fun s l => s.setCond (120 + l) (!s.laneUp l)) s
  s.setCond 240 (s.rd Reg.TIM_STAT.quality 0 == 4)

/-- The reaction matrix when the bit-stream starts: pins follow it from then on (Table 15.4). -/
def State.reactStart (s : State) : State :=
  let s := { s with conds := [] }
  let s := ((s.wr Reg.FAB_TRIP_OUT.latched 0 0).wr Reg.FAB_PRIO_STAT.blocked 0 0).wr Reg.SAF_DEMAND.req 0 0
  let s := { s.wr Reg.FAB_TRIP_OUT.state 0 0 with
    wire := s.wire ++ (List.range 8).map (fun p => Wire.tripOut p false) }
  (s.showReaction []).startLevels

end Sys2Proof.Machine
end

