-- ==== Sys2Proof/Machine/Roles.lean ====
section
/-! DEFINITION. Power domains (R447 to R453, Tables 15.1 to 15.3), the role of the unit (R371) and its claim (R373). -/

namespace Sys2Proof.Machine

def State.modRed (s : State) (f : Red → Red) : State := { s with red := f s.red }
def State.modPwr (s : State) (f : Pwr → Pwr) : State := { s with pwr := f s.pwr }
def State.modEpo (s : State) (f : Epo → Epo) : State := { s with epo := f s.epo }

/-! ### Points of the role -/

/-- Point 0x1900 (Table 12.7). -/
def State.redWord (s : State) : Nat :=
  s.role + 16 * s.rd Reg.RED_STAT.partner_code 0 + 2 ^ 8 * s.rd Reg.RED_STAT.line_ok 0 + 2 ^ 9 * s.rd Reg.RED_STAT.ring_ok 0
    + 2 ^ 10 * s.rd Reg.RED_STAT.image_ok 0 + 2 ^ 11 * s.rd Reg.RED_STAT.handover 0 + 2 ^ 32 * (s.epo.k % 2 ^ 32)

/-- The points that a change of role writes (R371, Table 12.7), once the point store has power. -/
def State.rolePoints (s : State) : State :=
  if s.domain 3 = 2 then (s.setPoint 0x1900 s.redWord).setPoint 0x1903 s.red.roleEpoch else s

/-! ### Domains -/

/-- A domain changes state: PWR_DOM_STAT, event 0x900, the count of transitions to ON. -/
def State.setDomain (s : State) (d v : Nat) : State :=
  let old := s.domain d
  if old = v then s
  else
    let x := s.rd Reg.PWR_DOM_STAT.state 0
    let s := s.wr Reg.PWR_DOM_STAT.state 0 (x - old * 4 ^ d + v * 4 ^ d)
    let s := if v = 2 then s.count Reg.PWR_DOM_CNT.on_cnt d else s
    let s := if d = 3 then s.wr Reg.PWR_STAT.mem_sr 0 (bit (v == 1)) else s
    if s.flag Reg.PWR_CTRL.dom_ev 0 then s.raise 0x900 d (v + 16 * old) else s

/-- Arms whose engine lies in a fabric domain. -/
def domainArms (d : Nat) : List Nat := if d = 4 then List.range 6 else if d = 5 then (List.range 6).map (· + 6) else []

/-- Engines of a fabric domain (notes/assumptions/15.md). -/
def domainEngines (d : Nat) : List Nat := if d = 4 then List.range 32 else if d = 5 then (List.range 32).map (· + 32) else []

/-- The recorder is disarmed; a frozen record stays (R438). -/
def State.disarmDr (s : State) : State :=
  if s.drFrozen then s
  else { (s.wr Reg.EPO_DR_CTRL.arm 0 0).wr Reg.EPO_STAT.dr_armed 0 0 with
    dr := { s.dr with skip := 0, pre := [], post := [], trig := none, left := 0 } }

/-- The point store loses its images, statistics in progress, staging, the pin and a recording in progress (R447, R384). The memory
die keeps its benches and a frozen record (R449). DEDUCED (notes/assumptions/64.md). -/
def State.losePoints (s : State) : State :=
  let s := { s with pts := { s.pts with work := [], pub := [], pin := [] } }
  let s := s.epo.dieBad.foldl (fun (s : State) a => s.poisonExt a) s
  let s := s.modEpo (fun e => { e with
    opened := [], fences := [], pin := none, frames := [], rollFrame := none, waits := [], accs := [], means := [], dieBad := [] })
  s.disarmDr

/-- Buffers, stores, queues and operation states of the fabric, lost once neither fabric domain is ON.
DEDUCED (notes/assumptions/51.md). -/
def State.loseStores (s : State) : State :=
  s.modFab (fun f => { f with
    jobs := [], space := [], again := [], streams := [], queues := [], flows := [], obs := [], stores := [], zdelay := [], cmp := [], delays := [] })

/-- A store that an operation works on (Table 8.4). -/
def OpKind.store : OpKind → Option Nat
  | .matvec _ _ s _ | .pi _ _ s _ | .biquad _ s _ | .fir _ s _ | .integ _ s _ | .rateLimit s _ | .lookup _ _ _ s _ => some s
  | _ => none

/-- A half of the fabric sleeps: the graphs whose engine sets lie wholly in domains that are not ON lose their operation states and
stores. Their real-time jobs miss their deadlines (R271); a background job, which has none, ends there.
DEDUCED (notes/assumptions/51.md). -/
def State.loseHalf (s : State) : State :=
  let on (e : Nat) : Bool := s.domain (if e < 32 then 4 else 5) == 2
  let dead := s.bs.fabric.graphs.filter (fun g => !g.engines.any on)
  let ops := dead.flatMap (·.ops)
  let stores := ops.filterMap (·.kind.store)
  let nums := ops.map (·.num)
  let s := (s.fab.jobs.filter (fun j => j.deadline.isNone && !j.g.engines.any on)).foldl (fun s j => (s.cancelJob j).endJob j) s
  s.modFab (fun f => { f with
    stores := tabDrop (fun w => stores.contains (w / 4096)) f.stores
    zdelay := tabDrop (fun o => nums.contains o) f.zdelay
    cmp := tabDrop (fun o => nums.contains o) f.cmp })

/-- The converter cores stop, with their points and comparator states held (R450, R328). -/
def State.stopCores (s : State) : State :=
  let s := { s with adc := { s.adc with cores := tabMap CoreRt.clear (fun r => { r with
    running := false, pos := 0, lead := false, taken := 0, queue := [], busy := none, round := false, settling := false, forming := []
    ds := DsRt.clear, fast := [], tail := none }) s.adc.cores } }
  let s := s.wr Reg.ADC_STAT.running 0 0
  State.forEach 4 (fun c s => (((s.wr Reg.ADC_CORE_STAT.running c 0).wr Reg.ADC_CORE_STAT.inj_queue c 0).wr
    Reg.ADC_CORE_STAT.inj_busy c 0).wr Reg.ADC_CORE_STAT.entry c 0) s

/-- The counts that FAB_ENG_CNT and FAB_UTIL show of engines without power, and FAB_CTRL.running while no half of the fabric is ON. -/
def State.clearEngines (s : State) (d : Nat) : State :=
  let s := (domainEngines d).foldl (fun (s : State) e => (s.wr Reg.FAB_ENG_CNT.busy e 0).wr Reg.FAB_ENG_CNT.started e 0) s
  if s.domain 4 ≠ 2 ∧ s.domain 5 ≠ 2 then
    ((s.wr Reg.FAB_UTIL.busy 0 0).wr Reg.FAB_UTIL.engine 0 0).wr Reg.FAB_CTRL.running 0 0
  else s

/-- A lane without power has no lock. -/
def State.disableLock (s : State) (l : Nat) : State := (s.loseLock l 1).showLane l

/-- FAB_W loses the operation of the ORD block: no engine moves, no generator is in holdover, no input in loss (Table 9.9).
DEDUCED (notes/assumptions/119.md). -/
def State.loseOrders (s : State) : State :=
  let s := { s with ord := { s.ord with ramps := [], gens := [], inputs := [], halt := 0 } }
  let s := ((s.wr Reg.ORD_RAMP_RUN.run 0 0).wr Reg.ORD_RAMP_DEFER.deferred 0 0).wr Reg.ORD_GEN_HOLD.holdover 0 0
  let s := State.forEach 16 (fun g s => s.wr Reg.ORD_GEN_STAT.holdover g 0) (s.wr Reg.ORD_IN_LOSS.loss 0 0)
  State.forEach 8 (fun i s => s.wr Reg.ORD_IN_STAT.loss i 0) s

/-- FAB_W is ON again: its configuration memories kept the ORD tables and ORD_IN_CFG, from which the block starts anew: engines at rest
with the committed sets, generators as at a start, inputs restarted (R296). DEDUCED (notes/assumptions/119.md). -/
def State.wakeOrders (s : State) : State :=
  let s := s.bs.orders.ramps.foldl (fun (s : State) e => s.restRamp e) s
  let s := s.bs.orders.gens.foldl (fun (s : State) e => s.startGen e (s.rd Reg.ORD_GEN_CTRL.mode e.gen) s.now) s
  State.forEach 8 (fun i s => if s.rd Reg.ORD_IN_CFG.mode i = 0 then s else s.modInput i (fun x => { x with written := true })) s

/-- What a domain holds outside its configuration memories is lost (R447). Its arms read OFF, its lanes lose lock (R450). The reference
carriers of its arms are gone until a period is committed again (R90). DESIGN CHOICE (notes/assumptions/127.md). -/
def State.loseContents (s : State) (d : Nat) : State :=
  let s := (domainArms d).foldl (fun (s : State) a =>
    let s := s.modArm a (fun r => { ArmRt.clear with mode := r.mode, lo := r.lo, hi := r.hi })
    let s := (s.armCells a).foldl (fun (s : State) e => s.modCell e.cell (fun r => { r with
      contrib := 0, bits := 0, hist := [], cmds := [], sets := [], carrier := false })) s
    if s.armState a = 7 then s else s.wr Reg.ARM_STAT.state a 7) s
  let s := if (domainEngines d).isEmpty then s
    else (s.modFab (fun f => { f with engines := tabDrop (fun e => (domainEngines d).contains e) f.engines })).clearEngines d
  let s := if d = 4 then s.loseOrders else s
  let s := if d = 4 ∨ d = 5 then (if s.domain 4 ≠ 2 ∧ s.domain 5 ≠ 2 then s.loseStores else s.loseHalf) else s
  let s := if d = 10 then s.stopCores else s
  let s := if d = 3 then s.losePoints else s
  let s := if 6 ≤ d ∧ d < 10 then
      (s.bs.lanes.flatMap (·.members)).foldl (fun s l => if l / 24 + 6 = d then s.disableLock l else s) s
    else s
  s.refreshGraphs

/-- The domain goes to RETAIN or OFF. -/
def State.sleepDomain (s : State) (d v : Nat) : State :=
  if s.domain d = v then s
  else ((s.setDomain d v).loseContents d).modPwr (fun p => { p with
    waking := p.waking.filter (fun x => x.1 != d), quadFrom := p.quadFrom.filter (fun x => x.1 + 6 != d) })

/-- The domain begins to wake (R453). -/
def State.wakeDomain (s : State) (d : Nat) : State :=
  let old := s.domain d
  if old = 2 ∨ old = 3 then s
  else (s.setDomain d 3).modPwr (fun p => { p with
    waking := (d, s.cycle, old) :: p.waking.filter (fun x => x.1 != d)
    quadFrom := if 6 ≤ d ∧ d < 10 then (d - 6, s.cycle) :: p.quadFrom.filter (fun x => x.1 != d - 6) else p.quadFrom })

/-- The domain is ON: its lanes hunt, its graphs are available again, the ORD block starts anew; an arm with a mode other than 0 leaves
OFF at the next seam (R98). -/
def State.domainReady (s : State) (d : Nat) : State :=
  let s := s.setDomain d 2
  let s := if d = 4 then s.wakeOrders else s
  let s := if (d = 4 ∨ d = 5) ∧ s.running then s.wr Reg.FAB_CTRL.running 0 1 else s
  let s := if d = 3 then s.rolePoints else s
  let s := if 6 ≤ d ∧ d < 10 then
      (s.bs.lanes.flatMap (·.members)).foldl (fun s l => if l / 24 + 6 = d then s.showLane l else s) s
    else s
  s.refreshGraphs

/-- A waking domain reaches ON; the wake is timed in 10 ns (R453). -/
def State.wakeDone (s : State) (d : Nat) : State :=
  match s.pwr.waking.find? (fun x => x.1 == d) with
  | none => s
  | some x =>
    let s := s.modPwr (fun p => { p with waking := p.waking.filter (fun y => y.1 != d) })
    let s := if x.2.2 = 1 then s.wr Reg.PWR_WAKE_TIME.domain 0 (min ((s.cycle - x.2.1) / 4) 65535) else s
    (s.wr Reg.PWR_STAT.core_pll 0 1).domainReady d

/-- A quadrant carries a used lane. -/
def State.quadUsed (s : State) (q : Nat) : Bool := s.bs.lanes.any (fun e => e.members.any (fun l => l / 24 == q))

/-- The bit of PWR_DOM_REQ for a domain. -/
def State.domainAsked (s : State) (d : Nat) : Bool :=
  if d = 4 then s.flag Reg.PWR_DOM_REQ.fab_w 0
  else if d = 5 then s.flag Reg.PWR_DOM_REQ.fab_e 0
  else if 6 ≤ d ∧ d < 10 then s.bitAt Reg.PWR_DOM_REQ.lq 0 (d - 6)
  else if d = 10 then s.flag Reg.PWR_DOM_REQ.ana 0
  else true

/-- Table 15.3: the state of a domain in a role, while a bit-stream runs. -/
def State.roleDomain (s : State) (role d : Nat) : Nat :=
  if d = 3 then (if sleepsIn role then 1 else 2)
  else if d = 4 ∨ d = 5 then (if sleepsIn role ∨ !s.domainAsked d then 1 else 2)
  else if 6 ≤ d ∧ d < 10 then
    (if !s.quadUsed (d - 6) then 1
     else if sleepsIn role then (if s.flag Reg.RED_CTRL.warm_lanes 0 then 2 else 1)
     else if s.domainAsked d then 2 else 1)
  else if d = 10 then
    (if sleepsIn role then (if s.bs.safety.any (fun x => x.pchs.any (fun e => e.func != 0)) then 2 else 1)
     else if s.domainAsked d then 2 else 1)
  else 2

/-- Bring the domains to what the role asks (R449); one that must go ON wakes. -/
def State.applyDomains (s : State) (role : Nat) : State :=
  let s := [3, 4, 5, 6, 7, 8, 9, 10].foldl (fun s d =>
    if s.roleDomain role d = 2 then s.wakeDomain d else s.sleepDomain d 1) s
  let cold := sleepsIn role && !s.flag Reg.RED_CTRL.warm_lanes 0
  let s := if cold then s.wr Reg.PWR_STAT.core_pll 0 0 else if s.pwr.waking.isEmpty then s.wr Reg.PWR_STAT.core_pll 0 1 else s
  s.wr Reg.PWR_STAT.state 0
    (if role = 2 then 4 else if sleepsIn role then (if s.flag Reg.RED_CTRL.warm_lanes 0 then 2 else 3) else 1)

/-- Every bit of PWR_DOM_REQ is set (R452). -/
def State.askAll (s : State) : State :=
  (((s.wr Reg.PWR_DOM_REQ.fab_w 0 1).wr Reg.PWR_DOM_REQ.fab_e 0 1).wr Reg.PWR_DOM_REQ.lq 0 15).wr Reg.PWR_DOM_REQ.ana 0 1

/-! ### Roles (R370, R371) -/

/-- The rank: 2 with ROLE_SEL at 10, else 1. DEDUCED (notes/assumptions/65.md). -/
def State.rank (s : State) : Nat := if s.rd Reg.RED_STAT.strap 0 = 2 then 2 else 1

/-- A drive channel whose output a standby holds deasserted: low, with nothing in effect that could raise it (R381). -/
def State.drvQuiet (s : State) (ch : Nat) : State :=
  (((s.drvLow ch s.now).modDrv ch (fun r => { r with
    mode := 0, nextMode := none, pending := none, later := none, on := none, static := false })).wr Reg.DRV_CTRL.run ch 0).wr
    Reg.DRV_SET.pending ch 0

/-- Outputs of a unit that goes to sleep: drive outputs and TRIP_OUT deasserted (R381). -/
def State.quietOutputs (s : State) : State :=
  let s := (List.range 24).foldl (fun s ch => s.drvQuiet ch) s
  (List.range 8).foldl (fun s p => s.tripClear p) s

/-- The pins of qualified conditions follow them again (R287). -/
def State.wakePins (s : State) : State :=
  State.forEach 8 (fun p s => match s.wired (fun a => a == .tripOut p) with
    | some c => s.tripSet p c
    | none => s) s

/-- A change of role (R371): event 0x600, points 0x1900 and 0x1903, power domains, outputs. -/
def State.setRole (s : State) (r : Nat) : State :=
  let old := s.role
  if old = r then s
  else
    let s := (s.wr Reg.RED_STAT.role 0 r).raise 0x600 0 (r + 16 * old)
    let s := if r = 2 ∨ r = 4 then s.askAll else s
    let s := if sleepsIn r then s.quietOutputs else if sleepsIn old then s.wakePins else s
    let s := s.applyDomains r
    ((s.modRed (fun x => { x with roleEpoch := s.epo.k })).rolePoints).soutUpdate

/-! ### Claims (R373) -/

/-- Keep the highest term seen. -/
def State.seeTerm (s : State) (t : Nat) : State :=
  if s.rd Reg.RED_TERM_SEEN.term 0 < t then s.wr Reg.RED_TERM_SEEN.term 0 t else s

/-- No lane has shown an H above the claim that is taken now (R387). -/
def State.forgetHigher (s : State) : State :=
  s.bs.lanes.foldl (fun (s : State) e => s.modLane e.lane (fun r => { r with higher := 0 })) s

/-- Take a claim with a term one above the highest seen; the cells' sequences restart (R200), WATCHDOG is owed again (R205).
None when the terms are exhausted: event 0x611. -/
def State.takeClaim (s : State) : Option State :=
  let t := s.rd Reg.RED_TERM_SEEN.term 0
  if t = 0xFFFFFFF then none
  else
    let s := (s.wr Reg.RED_CLAIM.claim 0 (s.rank * 2 ^ 28 + (t + 1))).wr Reg.RED_TERM_SEEN.term 0 (t + 1)
    some (((s.bs.cells.foldl (fun s e => s.modCell e.cell (fun r => { r with
      seq := 0, watchDone := false, deadWithSet := true, deadSent := none })) s).modRed
      (fun r => { r with early := true })).forgetHigher)

/-- Become ACTIVE in the running or coming epoch `j` (R372, R384, R390). -/
def State.becomeActive (s : State) (j : Nat) : State :=
  ((s.setRole 3).wrPair Reg.RED_TAKEOVER_LO.epoch_lo Reg.RED_TAKEOVER_HI.epoch_hi 0 j).modRed
    (fun r => { r with since := 0, due := true })

end Sys2Proof.Machine
end

