-- ==== Sys2Proof/Machine/Start.lean ====
section
/-! DEFINITION. The initial state of a bit-stream (R438, R351, R372) and the return from a critical image (R383, R384). -/

namespace Sys2Proof.Machine

/-! ### Fields that show the run of a bit-stream -/

/-- Results of calibration, of fault pins and of an eye scan: they outlast a bit-stream. DEDUCED (notes/assumptions/67.md). -/
def lastingFields : List Field :=
  [Reg.DRV_CTRL.cal_valid, Reg.DRV_CTRL.flt, Reg.ADC_STAT.cal_valid, Reg.ADC_CORE_STAT.cal_valid, Reg.ADC_CAL_INFO.offset_res,
   Reg.ADC_CAL_INFO.gain_res, Reg.ADC_CAL_INFO.skew_res, Reg.ADC_SYSCAL_STAT.zero_done, Reg.ADC_SYSCAL_STAT.full_done,
   Reg.ADC_SYSCAL_STAT.status, Reg.ADC_SYSCAL_STAT.taken, Reg.ADC_SYSCAL_GAIN.g, Reg.ADC_SYSCAL_OFFSET.o,
   Reg.LANE_EYE_STAT.errors, Reg.LANE_EYE_STAT.invalid]

/-- Read-only fields of the blocks that a bit-stream runs. DEDUCED (notes/assumptions/67.md). -/
def runFields : List Field :=
  (regsArm ++ regsLane ++ regsDrv ++ regsFab ++ regsOrd ++ regsAdc).filter (fun f => f.acc == .ro && !lastingFields.contains f)
    ++ regsTim.filter (fun f => f.acc == .ro && decide (0x4074 ≤ f.addr) && decide (f.addr ≤ 0x4088))

/-- Fields that the host may write and whose reset value the tables give: those of a unit that they do not name take their reset value
(R438, Tables 4.8, 6.8, 8.11, 9.10, 10.9). -/
def tableFields : List Field :=
  [Reg.LANE_CTRL.tx_en, Reg.LANE_CTRL.rx_en, Reg.LANE_EQ.preset, Reg.LANE_EQ.override, Reg.LANE_EQ.tx_pre, Reg.LANE_EQ.tx_post,
   Reg.LANE_EQ.rx_ctle, Reg.FAB_GRAPH_CTRL.enable, Reg.ORD_CTRL.ramp_div, Reg.ORD_IN_CFG.mode, Reg.ORD_IN_CFG.filt, Reg.ORD_IN_CFG.gate,
   Reg.ORD_IN_CFG.src_point, Reg.ORD_GEN_CTRL.mode, Reg.ADC_CTRL.enable, Reg.ADC_SEQ_ENTRY.input, Reg.ADC_SEQ_ENTRY.gain,
   Reg.ADC_SEQ_ENTRY.rounds, Reg.ADC_SEQ_ENTRY.lead, Reg.ADC_SEQ_ENTRY.trigger, Reg.ADC_SEQ_ENTRY.pin, Reg.ADC_SEQ_ENTRY.offset,
   Reg.ADC_CORE_CTRL.mode, Reg.ADC_CORE_CTRL.reg_len, Reg.ADC_CORE_CTRL.inj_len, Reg.ADC_CORE_CTRL.reg_trig, Reg.ADC_CORE_TRIG.offset,
   Reg.ADC_CORE_TRIG.param, Reg.ADC_SV_MAP.enable, Reg.ARM_VNOM.vnom, Reg.ARM_SCREEN_LO.lo, Reg.ARM_SCREEN_HI.hi, Reg.ARM_BAND.band,
   Reg.ARM_BAND.cap, Reg.ARM_SPARE.need]

/-! ### Values of the tables -/

/-- The fields that show the arm table (Table 2.10). -/
def State.armTable (s : State) (m : ArmEntry) : State :=
  let a := m.arm
  let cells := s.armCells a
  let n := cells.length
  let fb := (cells.filter (·.fb)).length
  let s := ((s.wr Reg.ARM_STAT.lead a s.lead).wr Reg.ARM_REF_PT.ref_point a m.refPoint).wr Reg.ARM_REF_PT.out_point a m.outPoint
  let s := ((s.wr Reg.ARM_VNOM.vnom a m.vnom).wr Reg.ARM_SCREEN_LO.lo a m.lo).wr Reg.ARM_SCREEN_HI.hi a m.hi
  let s := (s.wr Reg.ARM_BAND.band a m.band).wr Reg.ARM_BAND.cap a (m.cap.getD 64)
  let s := (s.wr Reg.ARM_CELLS.configured a n).wr Reg.ARM_CELLS.fb_configured a fb
  let s := (s.wr Reg.ARM_AVAIL.available a n).wr Reg.ARM_AVAIL.fb_available a fb
  (s.wr Reg.ARM_SPARE.need a m.need).wr Reg.ARM_SPARE.spares a (n - m.need)

/-- An arm begins BLOCKED, or OFF with mode 0 or without power (R92, R98). It has no reference carrier until a period is committed, also
where ARM_CAR_PERIOD keeps one (R90).
DEDUCED (notes/assumptions/45.md). DEDUCED (notes/assumptions/68.md). DESIGN CHOICE (notes/assumptions/127.md). -/
def State.armStart (s : State) (m : ArmEntry) : State :=
  let a := m.arm
  let mode := s.rd Reg.ARM_CTRL.mode a
  let s := (s.armTable m).modArm a (fun _ => { ArmRt.clear with mode := mode })
  (s.armWindow a).wr Reg.ARM_STAT.state a (if mode = 0 ∨ !s.armPowered a ∨ !s.armUsed a then 7 else 0)

/-- The fields that show the lane table (Table 6.8): group fields stand in the base lane; a used lane transmits and receives. -/
def State.laneTable (s : State) (e : LaneEntry) : State :=
  let b := e.lane
  let s := ((s.wr Reg.LANE_CFG.positions b e.positions).wr Reg.LANE_CFG.detail b (e.detail - 1)).wr Reg.LANE_GUARD.guard b e.guard
  let s := s.wr Reg.LANE_DMAX.dmax b e.dmax
  e.members.foldl (fun (s : State) l =>
    let s := (s.wr Reg.LANE_CTRL.tx_en l 1).wr Reg.LANE_CTRL.rx_en l 1
    let s := s.wr Reg.LANE_CFG.bond l (match e.bond with | .none => 0 | .redundant => 1 | .bandwidth => 2)
    let s := (s.wr Reg.LANE_CFG.width l (Nat.log2 e.width)).wr Reg.LANE_CFG.member l (l - b)
    let s := (s.wr Reg.LANE_CFG.base l b).wr Reg.LANE_EQ.preset l e.preset
    let s := match s.bs.eq.find? (fun x => x.lane == l) with
      | some x =>
        let s := ((s.wr Reg.LANE_EQ.preset l x.preset).wr Reg.LANE_EQ.override l x.override).wr Reg.LANE_EQ.tx_pre l x.txPre
        (s.wr Reg.LANE_EQ.tx_post l x.txPost).wr Reg.LANE_EQ.rx_ctle l x.rxCtle
      | none => s
    let q := s.eqAsked l
    (s.modLane l (fun r => { r with eqTx := (q.1, q.2.1), eqRx := q.2.2 })).showLane l) s

/-- A drive channel begins off and low, with the values of its entry (Tables 4.8, 15.4). DEDUCED (notes/assumptions/56.md). -/
def State.drvStart (s : State) (ch : Nat) : State :=
  let e := s.driveEntry ch
  let r := s.drvRt ch
  let s := s.drvLow ch s.now
  let s := ((s.wr Reg.DRV_CTRL.mode ch 0).wr Reg.DRV_CTRL.src ch (bit e.src)).wr Reg.DRV_CTRL.dt_adapt ch (bit e.adaptive)
  let s := ((s.wr Reg.DRV_CTRL.refresh_en ch (bit e.refreshEn)).wr Reg.DRV_CTRL.dead ch (driveSteps e.dead)).wr Reg.DRV_CTRL.refresh_n ch e.refreshN
  let s := (s.wr Reg.DRV_CTRL.refresh_width ch e.refreshWidth).wr Reg.DRV_SET.holder ch e.kind
  (s.modDrv ch (fun _ => { DrvRt.clear with
    flt := r.flt, fltEdges := r.fltEdges, again := r.again, tables := r.tables, fresh := r.fresh, failing := r.failing })).drvTakeCtl ch

/-- A unit begins BLOCKED when all its strings have a mode, else OFF. -/
def State.unitStart (s : State) (e : UnitEntry) : State :=
  let st := if e.arms.all (fun i => s.rd Reg.ARM_CTRL.mode i.2 != 0) then 1 else 0
  (s.modUnit e.unit (fun _ => { UnitRt.clear with state := st })).showUnit e

/-- The fields of RED, EPO and CFG that show the profile and the ring table. -/
def State.profileTable (s : State) : State :=
  let p := s.bs.profile
  let s := (s.wr Reg.EPO_LEN.cycles 0 p.epoch).wr Reg.FAB_TICK.cycles 0 p.fabTick
  let s := ((s.wr Reg.RED_CTRL.warm_lanes 0 p.warmLanes).wr Reg.RED_CTRL.cold_start_permit 0 p.coldStart).wr
    Reg.RED_CTRL.revert_en 0 p.revert
  let s := (s.wr Reg.RED_CTRL.listen_ms 0 p.listenMs).wr Reg.RED_CKPT_CFG.period 0 p.ckptPeriod
  let s := ((s.wr Reg.EPO_ECC_CTRL.ps_period 0 p.psPeriod).wr Reg.EPO_ECC_CTRL.md_period 0 p.mdPeriod).wr
    Reg.EPO_ECC_CTRL.ret_period 0 p.retPeriod
  let s := match s.bs.ring with
    | some r => ((s.wr Reg.RED_RING_CFG.address 0 r.address).wr Reg.RED_RING_CFG.partner 0 r.partner).wr
        Reg.RED_RING_CFG.units 0 (r.units - 1)
    | none => ((s.wr Reg.RED_RING_CFG.address 0 0).wr Reg.RED_RING_CFG.partner 0 0).wr Reg.RED_RING_CFG.units 0 0
  s.wr Reg.CFG_STAT.personality 0 (bit p.sst)

/-- S(0): the first multiple of e that lies at least 100 microseconds from now (R351). -/
def State.firstSeam (s : State) : Nat :=
  let e := s.epochUnits
  ceilDiv (s.now + 1280000) e * e % 2 ^ 64

/-! ### The initial state -/

/-- Points, cells, arms, lanes, units, channels, fabric, orders and converters at the values the tables give. -/
def State.initial (s : State) : State :=
  let s := s.clearFields (runFields ++ tableFields)
  let s := { s with
    pts := { s.pts with work := [], pub := [], pin := [] }
    arms := [], cells := [], lanes := [], units := [] }
  let s := (s.modEpo (fun e => { e with
    opened := [], fences := [], pin := none, statReset := false, waits := [], accs := [], means := [] })).disarmDr
  let s := s.bs.arms.foldl (fun (s : State) m => s.armStart m) s
  let s := s.bs.lanes.foldl (fun (s : State) e => s.laneTable e) s
  let s := (List.range 24).foldl (fun (s : State) ch => s.drvStart ch) s
  let s := s.bs.units.foldl (fun (s : State) e => s.unitStart e) s
  ((s.fabStart).ordStart).adcStart

/-- The loaded bit-stream begins (R438): its tables, its initial state, S(0) and epoch 0. -/
def State.begin (s : State) : State :=
  let s := s.profileTable.initial
  let s := { s with epo := { s.epo with k := 0, begun := false, seam := s.firstSeam } }
  let s := s.reactStart
  match s.bs.safety with
  | some x => s.safStart x
  | none => s

/-- A start without an image (R372, R386): the initial state with the epoch count going on; the safety domain keeps what it
holds, and its arms their saf_hold. DEDUCED (notes/assumptions/68.md). -/
def State.coldStart (s : State) : State :=
  let bits := (List.range 96).filter (fun l => (s.lane l).safBlock)
  let s := s.initial.reactStart
  let s := bits.foldl (fun (s : State) l => s.modLane l (fun r => { r with safBlock := true })) s
  match s.bs.safety with
  | none => s
  | some x =>
    (x.targets.foldl (fun (s : State) e =>
      if s.target e.target = 3 then (s.targetArms e.target).foldl (fun (s : State) a => s.wr Reg.ARM_STAT.saf_hold a 1) s
      else s) s).laneBits

/-! ### Return from an image (R383, R384) -/

/-- Z of an image, and I where this unit has no time of its own (R346, R384). -/
def State.adoptHead (s : State) (i : CritImage) : State :=
  let q := s.rd Reg.TIM_STAT.quality 0
  let s := if q = 0 ∨ q = 1 then
      let c := s.clk
      let off := (c.off + c.count * c.inc + 2 ^ 112 * (c.count * i.inc / 2 ^ 112 + 1) - c.count * i.inc) % 2 ^ 112
      (({ s with clk := { c with inc := i.inc, off := off } }.wr Reg.TIM_INC_LO.frac_lo 0 i.inc).wr Reg.TIM_INC_HI.frac_hi 0
        (i.inc / 2 ^ 32)).wr Reg.TIM_INC_HI.int 0 (i.inc / 2 ^ 48)
    else s
  { s with clk := { s.clk with grid := i.grid } }

/-- The epoch grid of an image (R384): the running epoch and its seam by the image's grid, beside Z and I. -/
def State.adoptGrid (s : State) (i : CritImage) : State :=
  let s := s.adoptHead i
  let e := i.len * 32
  let d := signedOf 64 ((s.now + 2 ^ 64 - i.seam) % 2 ^ 64)
  let m := Int.fdiv d (max e 1)
  { s.wr Reg.EPO_LEN.cycles 0 i.len with
    epo := { s.epo with k := ((i.epoch : Int) + m).toNat, begun := true, seam := wrapInt 64 (i.seam + m * e) } }

/-- Station points and staged registers of an image, stores and operation states; under another digest, only what a live
replacement would carry (R279, R433). -/
def State.restoreStores (s : State) (i : CritImage) : State :=
  let s := s.clearFields stFields
  let s := { s with regs := i.regs.foldl (fun t x => tabSet 0 t x.1 x.2) s.regs }
  let s := i.points.foldl (fun (s : State) x => s.setWork x.1 x.2) s
  let f := s.bs.fabric
  let same := i.digest = s.rd Reg.CFG_DIGEST.digest 0
  let stores := i.stores.filter (fun x => f.stores.any (fun e =>
    e.store == x.1 / 4096 && (same || e.carried) && i.sizes.contains (e.store, e.init.length)))
  let ops := if same then (f.graphs.flatMap (·.ops)).map (·.num) else f.carriedOps
  s.modFab (fun x =>
    let y : Fab := { x with
      stores := stores.foldl (fun t w => tabSet Pt.clear t w.1 w.2) (storeInit f.stores)
      zdelay := i.zdelay.foldl (fun t w => tabSet Pt.clear t w.1 w.2) []
      cmp := i.cmp.foldl (fun t w => tabSet false t w.1 w.2) [] }
    y.initOps f.graphs ops)

/-- The binding record (R380, R383): slots and retirements. -/
def State.loadBinding (s : State) : State :=
  let s := s.red.bind.cells.foldl (fun (s : State) x => s.modCell x.1 (fun r => { r with slot := x.2.1, retired := x.2.2 })) s
  s.bs.lanes.foldl (fun (s : State) e =>
    if s.red.bind.lanes.any (fun x => x.1 == e.lane) then s.modLane e.lane (fun r => { r with bound := true }) else s) s

/-- The 80 benches of the slow checkpoint come from the retention store (R383). -/
def State.loadSlow (s : State) : State :=
  let slow := tabDrop (fun j => extWritable (j % 64)) s.pts.ext
  { s with pts := { s.pts with ext := s.red.slow.foldl (fun t x => tabSet Pt.clear t x.1 x.2) slow } }

/-- An arm engine as a critical image gives it: the last valid window is this unit's own (R112), and the phases of the first reload sent
are those of the cells then available, without a change of the set (R86). -/
def ArmRt.fromImage (r : ArmRt) (x : ArmImage) (mode : Nat) (nPrev : Int) (goal : Option Nat) : ArmRt :=
  { ArmRt.clear with
    mode := mode, nPrev := nPrev, dirNeg := x.dirNeg, grid := x.grid.map gridOf, counts := x.counts, goal := goal
    carrierFrom := if mode = 2 then some 0 else none, offAfter := decide (mode = 0), lo := r.lo, hi := r.hi }

/-- An arm goes on (R384): RUNNING and DEBLOCKING run, BLOCKING ends at the first target epoch, other states stay. -/
def State.resumeArm (s : State) (x : ArmImage) (j : Nat) : State :=
  let a := x.arm
  let st := if x.state = 1 then 2 else x.state
  let s := (s.wr Reg.ARM_STAT.state a st).wr Reg.ARM_STAT.saf_hold a (bit x.hold)
  let s := s.modArm a (fun r => r.fromImage x (s.rd Reg.ARM_CTRL.mode a) (s.levelApplied a)
    (if st = 3 then some (j + s.lead) else none))
  s.armWindow a

/-- A cell goes on: its state as applied in P(j), E1 at S(j + lead). -/
def State.resumeCell (s : State) (x : CellImage) (j : Nat) : State :=
  match s.bs.cellEntry x.cell with
  | none => s
  | some e =>
    let app := (s.pub (livePos x.cell 1)).v % 16
    s.modCell x.cell (fun r => { r with
      bits := app, contrib := contribOf e.fb app, variant := x.variant, lastEdge := some (s.seamAt (j + s.lead)).1 })

/-- The parameter set from the words of an image. -/
def parOf (l : List Nat) : RampPar :=
  ⟨l.getD 0 0, l.getD 1 0, l.getD 2 0, l.getD 3 0, l.getD 4 0, l.getD 5 0, l.getD 6 0, l.getD 7 0, l.getD 8 0, l.getD 9 0⟩

/-- The engine of an image; a motion whose pair is not the committed one defers it (R304). -/
def rampOf (x : RampImage) : RampRt :=
  let r := { RampRt.clear with
    x := x.x, v := x.v, neg := x.neg, state := x.state, target := x.target, tag := x.tag, par := parOf x.pars
    vstart := x.pars.getD 10 0, vstop := x.pars.getD 11 0, vc := x.pars.getD 12 0, dec1 := x.pars.getD 13 0
    dec2 := x.pars.getD 14 0 }
  { r with deferred := r.moving && (r.par.dec1 != r.dec1 || r.par.dec2 != r.dec2) }

/-- An engine goes on with its motion; its points and its register bits show it from P(j) on (R305). -/
def State.resumeRamp (s : State) (x : RampImage) : State :=
  match s.bs.orders.ramps.find? (fun e => e.ramp == x.ramp) with
  | some e => (s.modRamp x.ramp (fun _ => rampOf x)).showResumed e
  | none => s

/-- A generator goes on with its phase, or starts at this seam with retain at 0 (R312); it is in no holdover. -/
def State.resumeGen (s : State) (e : GenEntry) (l : List GenImage) : State :=
  let s := (s.setBit Reg.ORD_GEN_HOLD.holdover 0 e.gen false).wr Reg.ORD_GEN_STAT.holdover e.gen 0
  match l.find? (fun x => x.gen == e.gen), e.retain with
  | some x, true => s.modGen e.gen (fun _ => { GenRt.clear with
      mode := x.mode, base := x.base, at_ := x.at_, f := x.f, prev := x.prev, resync := x.prev.isNone, since := s.epo.seam })
  | _, _ => s.startGen e (s.rd Reg.ORD_GEN_CTRL.mode e.gen) s.epo.seam

/-- A drive channel restarts under R159: its mode takes effect at this seam with the pending set, or the set that was in effect. -/
def State.resumeDrive (s : State) (x : DrvImage) : State :=
  let r := s.drvRt x.channel
  let s := s.wr Reg.DRV_CTRL.mode x.channel x.mode
  s.modDrv x.channel (fun _ => { DrvRt.clear with
    nextMode := some x.mode, pending := (x.pending.orElse (fun _ => x.on)).map (fun y => (drvSetOf y, 0))
    flt := r.flt, fltEdges := r.fltEdges, again := r.again, tables := r.tables, fresh := r.fresh, failing := r.failing
    ctl := s.drvWritten x.channel })

/-- Graphs begin again with the enables in effect; TIMER graphs count from this seam. -/
def State.resumeGraph (s : State) (e : GraphEntry) : State :=
  let on := s.flag Reg.FAB_GRAPH_CTRL.enable e.graph
  let s := s.modGraph e.graph (fun _ => { GraphRt.clear with enabled := on })
  let s := s.markGraph e.graph (if on then s.restState e else 0) 0
  match e.trigger, on with
  | .timer p, true => s.delay (s.ticksAhead p) (.timer e.graph)
  | _, _ => s

/-- What a restored image makes of this unit at S(j), once P(j) is published (R384, R420). -/
def State.resume (s : State) (i : CritImage) (j : Nat) : State :=
  let s := i.arms.foldl (fun (s : State) x => s.resumeArm x j) s
  let s := i.cells.foldl (fun (s : State) x => s.resumeCell x j) s
  let s := i.sigmas.foldl (fun (s : State) x => s.modCell x.1 (fun r => { r with sigma := x.2, sigmaOld := x.2 })) s
  let s := i.units.foldl (fun (s : State) x => s.modUnit x.unit (fun _ => { UnitRt.clear with state := x.state, tag := x.tag })) s
  let s := s.bs.units.foldl (fun (s : State) e => s.showUnit e) s
  let s := i.ramps.foldl (fun (s : State) x => s.resumeRamp x) s
  let s := s.bs.orders.gens.foldl (fun (s : State) e => s.resumeGen e i.gens) s
  let s := i.drive.foldl (fun (s : State) x => s.resumeDrive x) s
  let s := s.bs.fabric.graphs.foldl (fun (s : State) e => s.resumeGraph e) s
  (s.statResetAt j).safTakeover

end Sys2Proof.Machine
end

