-- ==== Sys2Proof/Machine/Red.lean ====
section
/-! DEFINITION. The redundant pair: heartbeats and paths (R374 to R376), messages of the peer ring (R394 to R397), checkpoints
(R378 to R380), take-over (R383 to R386), demotion (R387) and handover (R388 to R392). -/

namespace Sys2Proof.Machine

/-! ### Slots (R379) -/

def State.slot (s : State) (n : Nat) : Slot := if n = 0 then s.red.slot0 else s.red.slot1

/-- Replace a slot; RED_CKPT_STAT and RED_SLOTn show it. -/
def State.setSlot (s : State) (n : Nat) (x : Slot) : State :=
  let s := s.modRed (fun r => if n = 0 then { r with slot0 := x } else { r with slot1 := x })
  let s := if n = 0 then
      ((s.wr Reg.RED_CKPT_STAT.slot0_valid 0 (bit x.valid)).wr Reg.RED_SLOT0_SEQ.seq 0 x.seq).wrPair
        Reg.RED_SLOT0_EPOCH_LO.epoch_lo Reg.RED_SLOT0_EPOCH_HI.epoch_hi 0 x.image.epoch
    else
      ((s.wr Reg.RED_CKPT_STAT.slot1_valid 0 (bit x.valid)).wr Reg.RED_SLOT1_SEQ.seq 0 x.seq).wrPair
        Reg.RED_SLOT1_EPOCH_LO.epoch_lo Reg.RED_SLOT1_EPOCH_HI.epoch_hi 0 x.image.epoch
  let a := s.red.slot0
  let b := s.red.slot1
  let newest : Nat := if a.valid && b.valid then bit (decide (0 < (b.seq + 2 ^ 32 - a.seq) % 2 ^ 32) && decide ((b.seq + 2 ^ 32 - a.seq) % 2 ^ 32 < 2 ^ 31))
    else bit b.valid
  (s.wr Reg.RED_CKPT_STAT.newest 0 newest).wr Reg.RED_STAT.image_ok 0 (bit (a.valid || b.valid))

/-- The slot with the newest valid image, if one is valid. -/
def State.newestSlot (s : State) : Option Nat :=
  if s.red.slot0.valid || s.red.slot1.valid then some (s.rd Reg.RED_CKPT_STAT.newest 0) else none

/-- A slot left invalid, with its cause (Table 12.8). -/
def State.slotInvalid (s : State) (n cause : Nat) : State :=
  ((s.count Reg.RED_CKPT_CNT.invalid 0).wr Reg.RED_CKPT_STAT.last_err 0 cause).raise 0x606 0 (n + 2 * cause)

/-- A digest that counts as the unit's own (R433). -/
def State.ownDigest (s : State) (d : Nat) : Bool :=
  d == s.rd Reg.CFG_DIGEST.digest 0
    || (d != 0 && (d == s.rd Reg.CFG_PREV_DIGEST.digest 0 || (List.range 4).any (fun i => s.rd Reg.CFG_PRED.digest i == d)))

/-! ### Roles that follow an event -/

/-- Claims are ordered by term, then by rank (R198). -/
def claimBelow (a b : Nat) : Bool :=
  decide (a % 2 ^ 28 < b % 2 ^ 28) || (a % 2 ^ 28 == b % 2 ^ 28 && decide (a / 2 ^ 28 < b / 2 ^ 28))

/-- NO_IMAGE (R372, R386). -/
def State.noImage (s : State) : State := ((s.setRole 6).wr Reg.RED_FLAGS.no_image 0 1).raise 0x605 0 0

/-- DEMOTED (R387): the lane and its H, or a claim heard on a heartbeat path. Condition 241 is true while the role lasts. -/
def State.demote (s : State) (lane h : Nat) (viaHb : Bool) : State :=
  let s := ((s.setRole 5).raise 0x607 lane h).wr Reg.RED_DEMOTE_LANE.lane 0 lane
  let s := ((s.wr Reg.RED_DEMOTE_LANE.via_hb 0 (bit viaHb)).wr Reg.RED_DEMOTE_H.h 0 h).wr Reg.RED_FLAGS.demoted 0 1
  (s.setCond 241 true).modRed (fun r => { r with demoteNow := true })

/-- INVALID_STRAP, by the pins or by a partner of equal rank (R370). DEDUCED (notes/assumptions/70.md). -/
def State.strapInvalid (s : State) (equal : Bool) : State :=
  if s.role = 15 then s
  else ((s.setRole 15).wr Reg.RED_FLAGS.strap 0 1).raise 0x610 0 (s.rd Reg.RED_STAT.strap 0 + 4 * bit equal)

/-- TAKING_OVER (R383, R386): fast clocks start, every domain wakes. -/
def State.takeOver (s : State) (cold : Bool) : State :=
  (s.modRed (fun r => { r with declared := s.cycle, restoring := 0, restored := none, restoreDone := false, cold := cold })).setRole 2

/-- The partner has failed (R376, R386). -/
def State.partnerFailed (s : State) : State :=
  let s := s.raise 0x603 0 (s.rd Reg.RED_STAT.partner_code 0)
  if s.newestSlot.isSome then s.takeOver false
  else if s.flag Reg.RED_CTRL.cold_start_permit 0 then s.takeOver true
  else s.noImage

/-- A STANDBY or NO_IMAGE unit that hears its partner on no path declares it failed, where the last code heard was ACTIVE (R376). -/
def State.settle (s : State) : State :=
  if (s.role = 1 ∨ s.role = 6) ∧ !s.flag Reg.RED_STAT.line_ok 0 ∧ !s.flag Reg.RED_STAT.ring_ok 0 ∧ s.rd Reg.RED_STAT.partner_code 0 = 3 then
    s.partnerFailed
  else s

/-- A standby has not been healthy without interruption, or its holdoff starts again (R388, R392). -/
def State.healthDrop (s : State) : State :=
  (s.wr Reg.RED_REVERT_STAT.healthy_s 0 0).modRed (fun r => { r with healthyAt := none })

/-! ### Handover: ending it (R391, R392) -/

/-- A message of this unit to its partner on both ports. -/
def State.sendPartner (s : State) (type role : Nat) (words : List Nat) : State :=
  { s with wire := s.wire ++ [Wire.ring (s.ringFrame type role words)] }.nextMsg

/-- No handover any more: mirroring stops, what waited goes on without a mirror. -/
def State.clearHand (s : State) : State :=
  ((s.wr Reg.RED_STAT.handover 0 0).wr Reg.RED_MIRROR_STAT.active 0 0).modRed (fun r => { r with
    hand := .none, h := none, ready := false, mirroring := false, image := none, buffer := [], termSeen := false
    arrived := [] })

/-- The handover ends without effect (R392): reason in event 0x60B; the incoming unit returns to STANDBY. -/
def State.abortHand (s : State) (reason : Nat) (tell : Bool) : State :=
  let incoming := s.red.hand == .incoming
  let s := if tell then s.sendPartner 5 0 [4 * 2 ^ 60 + reason * 2 ^ 56] else s
  let s := ((s.clearHand).wr Reg.RED_REVERT_STAT.last_abort 0 reason).raise 0x60B 0 reason
  let s := s.healthDrop
  if incoming && s.role == 4 then (s.setRole 1).settle else s

/-- S(h - 1) has not come: an ABORT may still end the handover (R392). -/
def State.mayAbort (s : State) : Bool := s.red.h.all (fun h => decide (s.epo.k + 1 < h))

/-- A release or a decision that no longer waits (R390). -/
def State.runHeld (s : State) : Held → State
  | .release g c => s.releaseGraph g c
  | .decision a => s.armDecide a

/-- The mirror of a graph's last job, or of an arm's last decision, is here: what waited for it goes on. -/
def State.freeHeld (s : State) (w : MirrorWrite) : State :=
  let mine : Held → Bool := fun x => match w, x with
    | .graphEnded g, .release h _ => g == h
    | .armDecided a, .decision b => a == b
    | _, _ => false
  let go := s.red.held.filter mine
  let s := s.modRed (fun r => { r with
    held := r.held.filter (fun x => !mine x)
    holdGraphs := match w with | .graphEnded g => r.holdGraphs.filter (· != g) | _ => r.holdGraphs
    holdArms := match w with | .armDecided a => r.holdArms.filter (· != a) | _ => r.holdArms })
  go.foldl (fun (s : State) x => s.runHeld x) s

/-- Nothing waits for a mirror any more (both paths to the partner are lost). -/
def State.freeAll (s : State) : State :=
  let go := s.red.held
  let s := go.foldl (fun (s : State) x => s.runHeld x) (s.modRed (fun r => { r with held := [], holdGraphs := [], holdArms := [] }))
  if s.red.hand = .incoming ∧ s.role = 3 then s.clearHand else s

/-! ### Paths (R374 to R376) -/

/-- The code a symbol carries: 8 in DORMANT, 7 while held in reset, else the role. -/
def State.heartbeatCode (s : State) : Nat := if s.pwr.dormant then 8 else if s.pwr.inReset then 7 else s.role

/-- A symbol of R374. -/
def heartbeat (code rank term : Nat) : Nat :=
  let b := code % 16 * 2 ^ 20 + rank % 16 * 2 ^ 16 + term % 2 ^ 16
  b * 256 + crc8 [b / 2 ^ 16, b / 2 ^ 8, b]

/-- HEARTBEAT_SEND (R374): none for the first 200 ms of a reset. -/
def execHeartbeatSend (s : State) : Host.Outcome State Fault Refusal :=
  .next (if s.pwr.inReset && !s.pwr.held200 && !s.pwr.dormant then s
    else
      let own := !s.pwr.inReset && !s.pwr.dormant
      let rank := if own then s.rank else s.pwr.hbRank
      let term := if own then s.rd Reg.RED_CLAIM.claim 0 % 2 ^ 28 else s.pwr.hbTerm
      { s with wire := s.wire ++ [Wire.heartbeat (heartbeat s.heartbeatCode rank term)] })

/-- The full term whose low half a symbol carries: the nearest to the highest term seen. DEDUCED (notes/assumptions/69.md). -/
def State.fullTerm (s : State) (low : Nat) : Nat :=
  let seen := s.rd Reg.RED_TERM_SEEN.term 0
  ((seen : Int) + signedOf 16 ((low + 2 ^ 16 - seen % 2 ^ 16) % 2 ^ 16)).toNat % 2 ^ 28

/-- A path is good (R376). -/
def State.pathGood (s : State) (ring : Bool) : State :=
  let f := if ring then Reg.RED_STAT.ring_ok else Reg.RED_STAT.line_ok
  let s := s.modRed (fun r => if ring then { r with ringAt := some s.now } else { r with lineAt := some s.now })
  if s.flag f 0 then s else (s.wr f 0 1).raise 0x602 0 (bit ring)

/-- The partner's code, rank and claim heard on a path (R376, R387, R391). DEDUCED (notes/assumptions/70.md). -/
def State.heard (s : State) (ring : Bool) (code claim : Nat) : State :=
  let s := s.pathGood ring
  let before := s.rd Reg.RED_STAT.partner_code 0
  let s := ((s.wr Reg.RED_STAT.partner_code 0 code).wr Reg.RED_PEER_CLAIM.claim 0 claim).seeTerm (claim % 2 ^ 28)
  let plain := code == 3 || code == 4 || code == 0 || code == 8
  let s := s.modRed (fun r => { r with
    activeAt := if code = 3 then some s.now else r.activeAt
    heard := if s.role = 0 then code :: r.heard.filter (· != code) else r.heard
    wasActive := if code = 3 then true else if plain then false else r.wasActive
    lineOther := if plain then 0 else if ring then r.lineOther else r.lineOther + 1
    ringOther := if plain then 0 else if ring then r.ringOther + 1 else r.ringOther })
  let s := if s.role = 3 ∧ code = 7 ∧ before ≠ 7 then (s.wr Reg.RED_FLAGS.partner_reset 0 1).raise 0x60F 0 0 else s
  let own := s.rd Reg.RED_CLAIM.claim 0
  let s := if s.red.hand = .outgoing ∧ code = 3 ∧ claim % 2 ^ 28 = own % 2 ^ 28 + 1 then
      s.modRed (fun r => { r with termSeen := true })
    else s
  if s.role = 3 ∧ s.red.hand = .none ∧ code = 3 ∧ claimBelow own claim then s.demote 0 claim true
  else if (s.role = 1 ∨ s.role = 6) ∧ s.red.wasActive ∧ 4 ≤ s.red.lineOther ∧ 4 ≤ s.red.ringOther then
    (s.modRed (fun r => { r with wasActive := false })).partnerFailed
  else s

/-- HEARTBEAT_SYMBOL (R370, R374, R376). -/
def execHeartbeatSymbol (symbol : BitVec 32) (s : State) : Host.Outcome State Fault Refusal :=
  let v := symbol.toNat
  let b := v / 256
  .next (if s.pwr.inReset || s.pwr.dormant then s
    else if v % 256 ≠ crc8 [b / 2 ^ 16, b / 2 ^ 8, b] then s.count Reg.RED_HB_CNT.line_bad 0
    else
      let code := v / 2 ^ 28
      let rank := v / 2 ^ 24 % 16
      let low := v / 2 ^ 8 % 2 ^ 16
      let s := ((s.wr Reg.RED_PEER_HB.code 0 code).wr Reg.RED_PEER_HB.rank 0 rank).wr Reg.RED_PEER_HB.term 0 low
      if !s.paired then s
      else if rank = s.rank then s.strapInvalid true
      else if rank + s.rank ≠ 3 then s
      else s.heard false code (rank * 2 ^ 28 + s.fullTerm low))

/-- The outgoing unit takes over from its own state (R391): a new claim, no wake and no restore. Without a term left it stays in its
role (R373). -/
def State.takeBack (s : State) : State :=
  match s.takeClaim with
  | some t => ((t.clearHand.freeAll).setRole 2).modRed (fun r => { r with restored := none, restoreDone := true, cold := false })
  | none => s.freeAll.raise 0x611 0 0

/-- HB_PATH_LOST (R376): no valid symbol or message for hb_timeout. -/
def execHbPathLost (path : Fin 2) (s : State) : Host.Outcome State Fault Refusal :=
  let ring := path == 1
  let f := if ring then Reg.RED_STAT.ring_ok else Reg.RED_STAT.line_ok
  .next (if !s.flag f 0 then s
    else
      let s := (s.wr f 0 0).count (if ring then Reg.RED_HB_LOST.ring_losses else Reg.RED_HB_LOST.line_losses) 0
      let s := (s.raise 0x601 0 (bit ring)).healthDrop
      if s.flag Reg.RED_STAT.line_ok 0 || s.flag Reg.RED_STAT.ring_ok 0 then s
      else if (s.role = 1 ∨ s.role = 6) ∧ s.rd Reg.RED_STAT.partner_code 0 = 3 then s.settle
      else if s.red.hand = .outgoing ∧ s.red.termSeen then s.takeBack
      else s.freeAll)

/-- LISTEN_END (R372). -/
def execListenEnd (s : State) : Host.Outcome State Fault Refusal :=
  .next (if s.role ≠ 0 ∨ !s.running ∨ !s.paired then s
    else if s.red.heard.contains 3 then (s.setRole 1).settle
    else if s.red.heard.contains 0 ∧ s.rank = 1 then (s.setRole 1).settle
    else if s.rank = 2 ∨ s.flag Reg.RED_CTRL.cold_start_permit 0 then
      match s.coldStart.takeClaim with
      | some t => t.becomeActive s.epo.k
      | none => s.raise 0x611 0 0
    else s.noImage)

/-! ### Messages of the ring (R394 to R396) -/

/-- A message discarded as stale: 0 role, 1 term, 2 type. -/
def State.stale (s : State) (m : RingMsg) (cause : Nat) : State :=
  ((s.count Reg.RED_STALE_MSG.count 0).wr Reg.RED_FLAGS.stale 0 1).raise 0x608 0 (m.type + 16 * m.role + 64 * cause)

/-- A mirror that a handover still needs passes R396 in the unit that has become ACTIVE (R390). DEDUCED (notes/assumptions/71.md). -/
def State.mirrorPasses (s : State) (m : RingMsg) : Bool := m.type == 4 && s.red.hand == .incoming && decide (s.role = 3)

/-- The passive bypass of the ring pins is closed: in reset (R397), in DORMANT and whenever LINK is not ON (R461). -/
def State.ringBypassed (s : State) : Bool := s.pwr.inReset || s.pwr.dormant || s.domain 2 != 2

/-- SOF content of a received message (Table 12.4). -/
def msgSof (m : RingMsg) : Nat :=
  0x17 * 2 ^ 56 + m.dst * 2 ^ 53 + m.src * 2 ^ 50 + m.type * 2 ^ 47 + bit m.broadcast * 2 ^ 46 + m.role * 2 ^ 44
    + m.term % 2 ^ 28 * 2 ^ 16 + m.seq % 2 ^ 16

/-- The EOF payloads that the frames of a message carry where nothing is wrong: one each, their sequences rising. -/
def msgSealed (m : RingMsg) (frames : List (List Nat)) : List Nat :=
  frames.mapIdx (fun i ws => eofPayload (msgSof { m with seq := (m.seq + i) % 2 ^ 16 } :: ws))

/-- Frames of a message whose EOF is not the one that their blocks give (R196, R395). -/
def msgBad (m : RingMsg) (frames : List (List Nat)) : Nat :=
  if m.eofs = msgSealed m frames then 0
  else max 1 (((msgSealed m frames).zip m.eofs).filter (fun x => x.1 != x.2)).length

/-- Receive a message of the frames given: forward it, and say whether this unit accepts it; a closed bypass joins the signal itself,
whatever it carries, to the other port. Its term counts whether or not it is accepted (R373). DEDUCED (notes/assumptions/71.md). -/
def State.receive (s : State) (m : RingMsg) (frames : List (List Nat)) : State × Bool :=
  if s.ringBypassed then ({ s with wire := s.wire ++ [Wire.bypass (1 - m.port.val) m] }, false)
  else if msgBad m frames ≠ 0 then
    (s.add (if m.port = 0 then Reg.RED_RING_ERR_E.crc else Reg.RED_RING_ERR_W.crc) 0 (msgBad m frames), false)
  else
    let s := s.seeTerm m.term
    let me := s.rd Reg.RED_RING_CFG.address 0
    let src : Nat := m.src
    if src = me then (s, false)
    else
      let s := { s with wire := s.wire ++ [Wire.forward (1 - m.port.val) src m.seq] }
      if !m.broadcast && m.dst.val != me then (s, false)
      else if s.red.seen.contains (src, m.seq) then (s, false)
      else
        let s := s.modRed (fun r => { r with
          seen := (src, m.seq) :: r.seen.filter (fun x => x.1 != src || decide ((m.seq + 2 ^ 16 - x.2) % 2 ^ 16 < 2 ^ 15)) })
        if 6 ≤ m.type.val then (s.stale m 2, false)
        else if s.mirrorPasses m then (s, true)
        else if m.role = 1 ∧ s.role ≠ 3 then (s.stale m 0, false)
        else if m.role = 2 ∧ s.role ≠ 1 ∧ s.role ≠ 4 ∧ s.role ≠ 6 then (s.stale m 0, false)
        else if m.type.val ≠ 0 ∧ m.term < s.rd Reg.RED_TERM_SEEN.term 0 then (s.stale m 1, false)
        else (s, true)

/-- A row of Table 12.6 carries its own type, or a reserved one. -/
def msgFits (m : RingMsg) (type : Nat) : Bool :=
  (m.type.val == type || decide (6 ≤ m.type.val)) && decide (m.term < 2 ^ 28) && decide (m.seq < 2 ^ 16)

/-- A message of one type, with the blocks of its frames after the SOF: what it does once accepted. -/
def State.onMessage (s : State) (m : RingMsg) (type : Nat) (frames : List (List Nat)) (f : State → State) :
    Host.Outcome State Fault Refusal :=
  if msgFits m type then
    let r := s.receive m frames
    .next (if r.2 then f r.1 else r.1)
  else .refused .illFormed

/-- The first block of a HEARTBEAT message (Table 12.6). -/
def heartbeatWord (code rank claim : Nat) : Nat := code * 2 ^ 60 + rank * 2 ^ 56 + claim

/-- RING_HEARTBEAT (R375, R376). -/
def execRingHeartbeat (m : RingMsg) (code rank : Fin 16) (claim : BitVec 32) (epoch ckptSeq : Nat) (s : State) :
    Host.Outcome State Fault Refusal :=
  s.onMessage m 0 [[heartbeatWord code rank claim.toNat, epoch, ckptSeq]] (fun s =>
    if !s.paired || m.src.val != s.rd Reg.RED_RING_CFG.partner 0 then s
    else if rank.val = s.rank then s.strapInvalid true
    else if rank.val + s.rank ≠ 3 then s
    else s.heard true code claim.toNat)

/-! ### Checkpoints (R378 to R380) -/

/-- The incoming unit has its image: the mirror that waited is applied, the epoch grid is the image's (R389).
DEDUCED (notes/assumptions/75.md). -/
def State.imageComplete (s : State) (i : CritImage) : State :=
  if s.red.hand = .incoming ∧ s.role = 4 ∧ s.red.image.isNone ∧ s.red.asked < i.epoch then
    let j := s.red.buffer.foldl CritImage.apply i
    (s.adoptGrid j).modRed (fun r => { r with image := some j, buffer := [] })
  else s

/-- The lanes of the tables that are up. -/
def State.lanesUpNow (s : State) : List Nat := (s.bs.lanes.map (·.lane)).filter s.laneUp

/-- Every lane of the tables is up. -/
def State.lanesUp (s : State) : Bool := s.bs.lanes.all (fun e => s.laneUp e.lane)

/-- READY (R389): a complete image, a gapless mirror and every lane up. -/
def State.tryReady (s : State) : State :=
  if s.red.hand = .incoming ∧ s.role = 4 ∧ !s.red.ready ∧ s.red.image.isSome ∧ s.lanesUp then
    (s.sendPartner 5 0 [2 * 2 ^ 60]).modRed (fun r => { r with ready := true })
  else s

/-- The checks once all 16 segments are here (R379). -/
def State.validateSlot (s : State) (x : CkptRx) (crc : Nat) (i : CritImage) : State :=
  let bytes := ((List.range 16).map (fun n => (((x.parts.find? (fun p => p.1 == n)).map (·.2)).getD []))).flatten
  let s := (s.wr Reg.RED_CKPT_STAT.rx_busy 0 0).modRed (fun r => { r with rx := none })
  if crc64 bytes ≠ crc then s.slotInvalid x.slot 1
  else
    let s := s.wr Reg.RED_PEER_DIGEST.digest 0 i.digest
    if !s.ownDigest i.digest then ((s.slotInvalid x.slot 3).wr Reg.RED_FLAGS.digest 0 1).raise 0x60E 0 i.digest
    else
      let s := ((s.setSlot x.slot ⟨true, x.seq, i, crc, false⟩).count Reg.RED_CKPT_CNT.complete 0).seeTerm (i.claim % 2 ^ 28)
      let s := if s.role = 6 then (s.setRole 1).settle else s
      (s.imageComplete i).tryReady

/-- Bytes as data blocks, the first in bits 63 to 56. DESIGN CHOICE (notes/assumptions/12.md). -/
def wordsOfBytes (bs : List Byte) : List Nat :=
  (List.range (ceilDiv bs.length 8)).map (fun i => (List.range 8).foldl (fun v j => v * 256 + (bs.getD (8 * i + j) 0).toNat) 0)

/-- The blocks after the SOF of a checkpoint segment (Table 12.6). -/
def ckptFrame (seq segment : Nat) (bytes : List Byte) : List Nat := (seq % 2 ^ 32 * 2 ^ 32 + segment * 256 + 16) :: wordsOfBytes bytes

/-- CKPT_SEGMENT (R379): `image` is what the bytes of the 16 segments say (notes/assumptions/12.md). -/
def execCkptSegment (m : RingMsg) (seq : Nat) (segment : Fin 16) (bytes : List (BitVec 8)) (crc : BitVec 64) (image : CritImage)
    (s : State) : Host.Outcome State Fault Refusal :=
  s.onMessage m 1 [ckptFrame seq segment bytes] (fun s =>
    if !s.paired || !(s.role == 1 || s.role == 4 || s.role == 6) then s
    else
      let x : CkptRx × State := match s.red.rx with
        | some x =>
          if x.seq = seq then (x, s)
          else
            let s := s.slotInvalid x.slot 2
            (⟨x.slot, seq, []⟩, s)
        | none =>
          let n := match s.newestSlot with
            | some n => 1 - n
            | none => 0
          (⟨n, seq, []⟩, (s.setSlot n { s.slot n with valid := false, bad := false }).wr Reg.RED_CKPT_STAT.rx_busy 0 1)
      let y : CkptRx := { x.1 with parts := (segment.val, bytes) :: x.1.parts.filter (fun p => p.1 != segment.val) }
      if y.parts.length < 16 then x.2.modRed (fun r => { r with rx := some y })
      else x.2.validateSlot y crc.toNat image)

/-- The blocks after the SOF of each of the 8 frames of a slow bench (Table 12.6); a poisoned word travels as a check pattern (R60). -/
def slowFrames (bench sweep : Nat) (words : List Pt) : List (List Nat) :=
  (List.range 8).map (fun i => (bench + 2 ^ 16 * (sweep % 2 ^ 16)) ::
    ((words.drop (512 * i)).take 512).map (fun p => if p.bad then Config.poisonBlock p.v else p.v))

/-- SLOW_BENCH (R380). -/
def execSlowBench (m : RingMsg) (bench : Fin 80) (sweep : Nat) (words : List Pt) (s : State) :
    Host.Outcome State Fault Refusal :=
  s.onMessage m 2 (slowFrames bench sweep words) (fun s =>
    let (p, c0) := slowBench bench
    let new := (List.range 4096).foldl (fun t i => tabSet Pt.clear t (extPos (c0 + i) p) ⟨(words.getD i Pt.clear).v % 2 ^ 64, (words.getD i Pt.clear).bad⟩) s.red.slow
    let n := if sweep = s.red.sweep then min (s.rd Reg.RED_SLOW_STAT.benches 0 + 1) 80 else 1
    let s := (s.modRed (fun r => { r with slow := new, sweep := sweep })).wr Reg.RED_SLOW_STAT.benches 0 n
    if n = 80 then s.count Reg.RED_SLOW_STAT.sweeps 0 else s)

/-- BIND_SEGMENT (R380): the cells and partners of the segment replace what the record held of them. -/
def execBindSegment (m : RingMsg) (record : BindRecord) (s : State) : Host.Outcome State Fault Refusal :=
  s.onMessage m 3 [Config.bindWords record] (fun s => s.modRed (fun r => { r with bind :=
    ⟨record.cells ++ r.bind.cells.filter (fun x => !record.cells.any (fun y => y.1 == x.1)),
     record.lanes ++ r.bind.lanes.filter (fun x => !record.lanes.any (fun y => y.1 == x.1))⟩ }))

/-- Words of a bench of the slow set where they stand: in its frame, or on the memory die (R54, R58). -/
def State.slowReads (s : State) (b : Nat) (x : BadWord) : Bool :=
  let w := s.wordOf 0 (.cell (slowBench b).2 (slowBench b).1)
  x.memory.val == w.1 && decide (w.2 ≤ x.word) && decide (x.word < w.2 + 4096)

/-- SLOW_CHECKPOINT_SEND (R380): one bench, in 8 frames of 512 words; `errs` are words of it that this read finds with wrong bits (R58).
DEDUCED (notes/assumptions/73.md). -/
def execSlowCheckpointSend (errs : List BadWord) (s : State) : Host.Outcome State Fault Refusal :=
  .next (if s.role ≠ 3 ∨ !s.paired ∨ !s.flag Reg.RED_CTRL.slow_en 0 then s
    else
      let b := s.red.slowNext
      let s := s.readWords (s.slowReads b) errs
      let words := (List.range 4096).map (fun j => s.ext (extPos ((slowBench b).2 + j) (slowBench b).1))
      let s := (slowFrames b s.red.sweep words).foldl (fun (s : State) ws => s.sendPartner 2 2 ws) s
      s.modRed (fun r => { r with slowNext := (b + 1) % 80, sweep := if b = 79 then (r.sweep + 1) % 2 ^ 16 else r.sweep }))

/-- What calls for an early checkpoint (R378), beside a fence that commits an ST field. -/
def State.earlySig (s : State) : List Nat :=
  s.rd Reg.EPO_LEN.cycles 0 :: s.rd Reg.RED_CLAIM.claim 0 :: (s.bs.arms.map (fun m => s.armState m.arm)
    ++ s.bs.units.map (fun e => (s.unit e.unit).state) ++ s.bs.cells.map (fun e => bit (s.cell e.cell).retired))

/-- Start a checkpoint of the image as it stands: 16 segments (R378). -/
def State.sendCheckpoint (s : State) : State :=
  let s := s.modRed (fun r => { r with txSeq := (r.txSeq + 1) % 2 ^ 32, since := 0, due := false, early := false })
  let i := s.critImage
  let s := s.askPoints 86 (i.points.map (fun x => .station x.1))
  let s := (List.range 16).foldl (fun (s : State) n =>
    { s with wire := s.wire ++ [Wire.checkpoint (s.ringFrame 1 2 (ckptFrame i.seq n (Config.imageBytes i n))) n i] }.nextMsg) s
  (s.wr Reg.RED_CKPT_STAT.tx_busy 0 1).modRed (fun r => { r with tx := some i })

/-- CHECKPOINT_SENT (R378). -/
def execCheckpointSent (s : State) : Host.Outcome State Fault Refusal :=
  .next (if s.red.tx.isNone then s
    else ((s.count Reg.RED_CKPT_CNT.complete 0).wr Reg.RED_CKPT_STAT.tx_busy 0 0).modRed (fun r => { r with tx := none }))

/-- The binding record as it stands (R380). DEDUCED (notes/assumptions/73.md). -/
def State.bindRecord (s : State) : BindRecord :=
  ⟨s.bs.cells.map (fun e => (e.cell, (s.cell e.cell).slot, (s.cell e.cell).retired)),
   (s.bs.lanes.filter (fun e => (s.lane e.lane).bound)).map (fun e => (e.lane, e.positions))⟩

/-! ### Take-over (R383 to R386) -/

/-- TAKEOVER_WAKE_DONE: the domains that wake are ON, and the restore begins. -/
def execTakeoverWakeDone (s : State) : Host.Outcome State Fault Refusal :=
  .next (if s.role ≠ 2 ∨ s.red.restoreDone ∨ s.red.restoring ≠ 0 then s
    else
      let s := s.pwr.waking.foldl (fun (s : State) x => s.wakeDone x.1) s
      (s.wr Reg.RED_WAKE_TIME.wake 0 (min ((s.cycle - s.red.declared) / 4) 65535)).modRed
        (fun r => { r with restoring := max s.cycle 1 }))

/-- The claim after a restore: none once the terms are exhausted (R373). -/
def State.restoreEnd (s : State) (i : Option CritImage) : State :=
  match s.takeClaim with
  | some t => t.modRed (fun r => { r with restored := i, restoreDone := true })
  | none => s.raise 0x611 0 0

/-- The initial state in place of an image. -/
def State.restoreCold (s : State) : State := (s.coldStart.loadBinding).restoreEnd none

/-- A slot is restored; the image sequence goes on from its own. DEDUCED (notes/assumptions/75.md). -/
def State.restoreSlot (s : State) (n : Nat) : State :=
  let i := (s.slot n).image
  (((((s.adoptGrid i).restoreStores i).loadBinding).loadSlow).modRed (fun r => { r with txSeq := i.seq })).restoreEnd (some i)

/-- Words of slot `n` of the retention store, and of the binding record (Table 1.13). -/
def slotReads (n : Nat) (x : BadWord) : Bool := x.memory == 1 && decide (8192 * n ≤ x.word) && decide (x.word < 8192 * (n + 1))
def bindReads (x : BadWord) : Bool := x.memory == 1 && decide (16384 ≤ x.word) && decide (x.word < 32768)

/-- A slot is read again; one with an uncorrectable word, met now or earlier (R60), is left invalid. -/
def State.rereadSlot (s : State) (n : Nat) (errs : List BadWord) : State :=
  let s := s.readWords (slotReads n) errs
  if (s.slot n).bad then (s.setSlot n { s.slot n with valid := false }).slotInvalid n 4 else s

/-- No image can be restored (R386). -/
def State.restoreNone (s : State) : State := if s.flag Reg.RED_CTRL.cold_start_permit 0 then s.restoreCold else s.noImage

/-- TAKEOVER_RESTORE_DONE (R383): the newest slot is restored, or the other one where the newest shows an uncorrectable word. `errs` are
words of the retention store that the restore reads with wrong bits (R58). -/
def execTakeoverRestoreDone (errs : List BadWord) (s : State) : Host.Outcome State Fault Refusal :=
  .next (if s.role ≠ 2 ∨ s.red.restoreDone ∨ s.red.restoring = 0 then s
    else
      let s := s.wr Reg.RED_WAKE_TIME.restore 0 (min ((s.cycle - s.red.restoring) / 4) 65535)
      let s := s.readWords bindReads errs
      if s.red.cold then s.restoreCold
      else match s.newestSlot with
        | none => s.restoreCold
        | some n =>
          let s := s.rereadSlot n errs
          if (s.slot n).valid then s.restoreSlot n
          else
            let s := if (s.slot (1 - n)).valid then s.rereadSlot (1 - n) errs else s
            if (s.slot (1 - n)).valid then s.restoreSlot (1 - n) else s.restoreNone)

/-- The gap (R385) in ns: from the end of the last target epoch that the failed unit commanded, taken as the one before the target of the
epoch in which it was last heard ACTIVE, to the start of the first target epoch of this unit, which decides from S(j) on. A unit that has
heard no ACTIVE partner has no gap to measure: the value is free. DEDUCED (notes/assumptions/2.md). -/
def State.gap (s : State) : Nat × State :=
  match s.red.activeAt with
  | some t => (min (ceilDiv ((s.epo.seam + 2 ^ 64 - t) % 2 ^ 64) (max s.epochUnits 1) * s.epochUnits * 5 / 64) (2 ^ 32 - 1), s)
  | none => s.draw 32

/-- The first seam S(j) after the restore (R383): ACTIVE, event 0x604. -/
def State.takeoverSeam (s : State) : State :=
  if s.role ≠ 2 ∨ !s.red.restoreDone then s
  else
    let j := s.epo.k
    let s := match s.red.restored with
      | some i => s.resume i j
      | none => s
    let s := (s.becomeActive j).count Reg.RED_ROLE_CNT.takeovers 0
    let image := ((s.red.restored.map (·.epoch)).getD 0) % 2 ^ 32
    let g := s.gap
    let s := (g.2.wr Reg.RED_GAP.ns 0 g.1).raise 0x604 0 (g.1 + 2 ^ 32 * image)
    s.modRed (fun r => { r with restored := none, restoreDone := false, restoring := 0 })

/-! ### Handover (R388 to R392) -/

/-- The revert conditions of R388. -/
def State.healthyNow (s : State) : Bool :=
  s.flag Reg.RED_STAT.line_ok 0 && s.flag Reg.RED_STAT.ring_ok 0 && s.flag Reg.RED_RING_STAT.east_up 0
    && s.flag Reg.RED_RING_STAT.west_up 0 && !s.red.ue && s.ownDigest (s.rd Reg.RED_PEER_DIGEST.digest 0)
    && (match s.newestSlot with
        | some n => decide (s.epo.k ≤ (s.slot n).image.epoch + 2 * s.rd Reg.RED_CKPT_CFG.period 0)
        | none => false)

/-- RECEIVING: the part of the incoming unit begins. -/
def State.beginIncoming (s : State) : State :=
  ((s.setRole 4).wr Reg.RED_STAT.handover 0 1).modRed (fun r => { r with
    hand := .incoming, h := none, ready := false, asked := s.epo.k, runIn := 0, buffer := [], image := none, arrived := []
    upLanes := s.lanesUpNow })

/-- The part of the outgoing unit begins: a checkpoint at its next seam, and the mirror from then on. -/
def State.beginOutgoing (s : State) : State :=
  (s.wr Reg.RED_STAT.handover 0 1).modRed (fun r => { r with
    hand := .outgoing, h := none, ready := false, mirroring := false, runOut := 0, termSeen := false, due := true })

/-- The standby has been healthy for the holdoff without interruption (R388). -/
def State.heldOff (s : State) : Bool :=
  s.healthyNow && s.red.healthyAt.any (fun t => decide (s.rd Reg.RED_REVERT_CFG.holdoff 0 * 12800000000 ≤ (s.now + 2 ^ 64 - t) % 2 ^ 64))

/-- REVERT_REQUESTED (R388). -/
def execRevertRequested (s : State) : Host.Outcome State Fault Refusal :=
  .next (if s.role ≠ 1 ∨ !s.paired ∨ s.rank ≠ 2 ∨ !s.flag Reg.RED_CTRL.revert_en 0 ∨ !s.heldOff then s
    else ((s.sendPartner 5 0 [1 * 2 ^ 60]).raise 0x609 0 (s.rd Reg.RED_REVERT_CFG.holdoff 0)).beginIncoming)

/-- The blocks after the SOF of a HANDOVER message (Table 12.6). -/
def handoverFrame (code reason : Nat) : List Nat := [code * 2 ^ 60 + reason * 2 ^ 56]

/-- HANDOVER_REQUEST (R388, R389): an ACTIVE unit begins to give, a STANDBY unit asked by the host of its partner to receive. -/
def execHandoverRequest (m : RingMsg) (s : State) : Host.Outcome State Fault Refusal :=
  s.onMessage m 5 [handoverFrame 1 0] (fun s =>
    if !s.paired || s.red.hand != .none then s
    else if s.role = 3 then s.beginOutgoing
    else if s.role = 1 then s.beginIncoming
    else s)

/-- HANDOVER_READY (R389): GRANT follows at the next seam. -/
def execHandoverReady (m : RingMsg) (s : State) : Host.Outcome State Fault Refusal :=
  s.onMessage m 5 [handoverFrame 2 0] (fun s => if s.red.hand = .outgoing then s.modRed (fun r => { r with ready := true }) else s)

/-- HANDOVER_GRANT (R389, R390, R392): a seam that is not ahead by more than one ends the handover.
DEDUCED (notes/assumptions/72.md). -/
def execHandoverGrant (m : RingMsg) (h : Nat) (s : State) : Host.Outcome State Fault Refusal :=
  s.onMessage m 5 [handoverFrame 3 0 ++ [h]] (fun s =>
    if s.red.hand ≠ .incoming ∨ s.role ≠ 4 then s
    else if h ≤ s.epo.k + 1 then s.abortHand 1 true
    else (s.wrPair Reg.RED_HANDOVER_LO.h_lo Reg.RED_HANDOVER_HI.h_hi 0 h).modRed (fun r => { r with h := some h }))

/-- S(h - 1) of the last handover that named a seam has come. -/
def State.pastGrant (s : State) : Bool := decide (s.rdPair Reg.RED_HANDOVER_LO.h_lo Reg.RED_HANDOVER_HI.h_hi 0 ≤ s.epo.k + 1)

/-- HANDOVER_ABORT (R392): from S(h - 1) on it is stale; which of R396's causes the event names is free. Before, where this unit has ended
the handover itself, it has nothing left to end. -/
def execHandoverAbort (m : RingMsg) (reason : Fin 16) (s : State) : Host.Outcome State Fault Refusal :=
  s.onMessage m 5 [handoverFrame 4 reason] (fun s =>
    if s.red.hand ≠ .none ∧ s.mayAbort then s.abortHand 5 false
    else if s.red.hand = .none ∧ !s.pastGrant then s
    else
      let d := s.draw 2
      d.2.stale m d.1)

/-- A drive channel goes on with the set in effect and its grid (R390). -/
def State.adoptDrive (s : State) (x : DrvImage) : State :=
  let r := s.drvRt x.channel
  let s := (s.wr Reg.DRV_CTRL.mode x.channel x.mode).wr Reg.DRV_CTRL.run x.channel (bit (x.mode != 0))
  let p := ((x.on.map (·.1)).getD 1)
  let late := (s.now + 2 ^ 64 - x.origin) % 2 ^ 64
  let next := if late < 2 ^ 63 then x.origin + ceilDiv late (max p 1) * p else x.origin
  s.modDrv x.channel (fun _ => { DrvRt.clear with
    mode := x.mode, on := x.on.map drvSetOf, pending := x.pending.map (fun y => (drvSetOf y, 0)), next := next % 2 ^ 64, len := p
    flt := r.flt, fltEdges := r.fltEdges, tables := r.tables, fresh := r.fresh, failing := r.failing, ctl := s.drvWritten x.channel })

/-- A mirrored write once this unit is ACTIVE (R390): the last jobs of the outgoing unit. -/
def State.applyMirror (s : State) (w : MirrorWrite) : State :=
  match w with
  | .point a p => s.setWork a p
  | .store a p => s.modFab (fun f => { f with stores := tabSet Pt.clear f.stores a p })
  | .zdelay o p => s.modFab (fun f => { f with zdelay := tabSet Pt.clear f.zdelay o p })
  | .cmp o b => s.modFab (fun f => { f with cmp := tabSet false f.cmp o b })
  | .graphEnded _ => s.freeHeld w
  | .armDecided _ => s.freeHeld w
  | .arm x => s.modArm x.arm (fun r => { r with nPrev := x.nPrev, dirNeg := x.dirNeg, lastReload := x.reload })
  | .head _ _ => s
  | .cell x => match s.bs.cellEntry x.cell with
    | some e => s.modCell x.cell (fun r => { r with bits := x.bits, contrib := contribOf e.fb x.bits, variant := x.variant })
    | none => s
  | .sigma c v => s.modCell c (fun r => { r with sigma := v })
  | .unit x =>
    let s := s.modUnit x.unit (fun r => { r with state := x.state, tag := x.tag })
    (s.bs.units.filter (fun e => e.unit == x.unit)).foldl (fun (s : State) e => s.showUnit e) s
  | .ramp x => s.resumeRamp x
  | .gen x => s.modGen x.gen (fun g => { g with mode := x.mode, base := x.base, at_ := x.at_, f := x.f, prev := x.prev })
  | .drive x => s.adoptDrive x
  | .reg k v => { s with regs := tabSet 0 s.regs k v }

/-- A change of I, Z or EPO_LEN in the header reaches the incoming unit's own grid with its run (R384, R389). -/
def State.followHead (s : State) (i : CritImage) (ws : List MirrorWrite) : State :=
  let has (n : Nat) : Bool := ws.any (fun w => match w with | .head m _ => m == n | _ => false)
  let s := if has 3 || has 4 then s.adoptHead i else s
  if has 2 then s.wr Reg.EPO_LEN.cycles 0 i.len else s

/-- MIRROR_RUN (R389, R390, R392). -/
def execMirrorRun (m : RingMsg) (run : Nat) (writes : List MirrorWrite) (s : State) : Host.Outcome State Fault Refusal :=
  s.onMessage m 4 [Config.mirrorWords run writes] (fun s =>
    if s.red.hand ≠ .incoming then s
    else if run ≠ s.red.runIn then
      let s := s.wr Reg.RED_MIRROR_STAT.gap 0 1
      if s.role = 4 ∧ s.mayAbort then s.abortHand 2 true else s
    else
      let s := s.modRed (fun r => { r with runIn := (r.runIn + 1) % 2 ^ 16 })
      if s.role = 3 then
        let s := writes.foldl (fun (s : State) w => s.applyMirror w) s
        if s.red.holdGraphs.isEmpty && s.red.holdArms.isEmpty then s.clearHand else s
      else match s.red.image with
        | some i =>
          let j := writes.foldl CritImage.apply i
          ((s.modRed (fun r => { r with image := some j })).followHead j writes).tryReady
        | none => s.modRed (fun r => { r with buffer := r.buffer ++ writes }))

/-- The current image becomes this unit's state at S(h); the rules of resumption do not apply (R390). -/
def State.adoptImage (s : State) (i : CritImage) : State :=
  let s := i.arms.foldl (fun (s : State) x =>
    let a := x.arm
    let s := (s.wr Reg.ARM_STAT.state a x.state).wr Reg.ARM_STAT.saf_hold a (bit x.hold)
    (s.modArm a (fun r => r.fromImage x (s.rd Reg.ARM_CTRL.mode a) x.nPrev
      (if x.state = 1 ∨ x.state = 3 then some (s.epo.k + s.lead) else none))).armWindow a) s
  let s := i.cells.foldl (fun (s : State) x => s.applyMirror (.cell x)) s
  let s := i.sigmas.foldl (fun (s : State) x => s.modCell x.1 (fun r => { r with sigma := x.2, sigmaOld := x.2 })) s
  let s := i.units.foldl (fun (s : State) x => s.modUnit x.unit (fun _ => { UnitRt.clear with state := x.state, tag := x.tag })) s
  let s := i.ramps.foldl (fun (s : State) x => s.resumeRamp x) s
  let s := s.bs.orders.gens.foldl (fun (s : State) e => s.resumeGen e i.gens) s
  let s := i.drive.foldl (fun (s : State) x => s.adoptDrive x) s
  let s := s.bs.fabric.graphs.foldl (fun (s : State) e => s.resumeGraph e) s
  s.safTakeover

/-- Before S(h) is published: the incoming unit takes the image's points, stores and registers (R390). -/
def State.handoverBefore (s : State) : State :=
  match s.red.hand, s.red.h, s.red.image with
  | .incoming, some h, some i =>
    if h = s.epo.k ∧ s.role = 4 ∧ s.rd Reg.RED_TERM_SEEN.term 0 ≠ 0xFFFFFFF then (s.restoreStores i).loadBinding else s
  | _, _, _ => s

/-- S(h) at the incoming unit: ACTIVE with term T + 1 (R390); without a term left it stays in its role (R373). -/
def State.handoverIncoming (s : State) : State :=
  match s.red.hand, s.red.h, s.red.image with
  | .incoming, some h, some i =>
    if h ≠ s.epo.k ∨ s.role ≠ 4 then s
    else
      match (s.adoptImage i).takeClaim with
      | none => s.clearHand.raise 0x611 0 0
      | some t =>
        ((t.becomeActive h).count Reg.RED_ROLE_CNT.handovers 0).modRed (fun r => { r with
          txSeq := i.seq
          image := none, holdGraphs := s.bs.fabric.graphs.map (·.graph), holdArms := s.bs.arms.map (·.arm), held := [] })
  | _, _, _ => s

/-- Every used lane that is up shows H with the incoming unit's term (R391). -/
def State.lanesFollow (s : State) : Bool :=
  let t := s.rd Reg.RED_CLAIM.claim 0 % 2 ^ 28 + 1
  s.bs.lanes.all (fun e => !s.laneUp e.lane || (s.lane e.lane).lastH % 2 ^ 28 == t)

/-- A heartbeat path that is good shows the partner ACTIVE with term T + 1 (R391). -/
def State.partnerTook (s : State) : Bool :=
  (s.flag Reg.RED_STAT.line_ok 0 || s.flag Reg.RED_STAT.ring_ok 0) && s.rd Reg.RED_STAT.partner_code 0 == 3
    && s.rd Reg.RED_PEER_CLAIM.claim 0 % 2 ^ 28 == s.rd Reg.RED_CLAIM.claim 0 % 2 ^ 28 + 1

/-- The outgoing unit at a seam (R389, R391). DEDUCED (notes/assumptions/72.md). -/
def State.handoverOutgoing (s : State) : State :=
  if s.red.hand ≠ .outgoing then s
  else
    let k := s.epo.k
    match s.red.h with
    | none =>
      if !s.red.ready then s
      else
        let h := k + max 4 (ceilDiv 51200 s.epochUnits)
        ((s.sendPartner 5 0 [3 * 2 ^ 60, h]).wrPair Reg.RED_HANDOVER_LO.h_lo Reg.RED_HANDOVER_HI.h_hi 0 h).modRed
          (fun r => { r with h := some h })
    | some h =>
      let s := if k ≠ h then s
        else
          let n := (s.newestSlot).getD 0
          let i := s.critImage
          let crc := crc64 ((List.range 16).flatMap (Config.imageBytes i))
          let s := (s.setSlot n ⟨true, s.red.txSeq, i, crc, false⟩).modRed (fun r => { r with hCycle := s.cycle })
          let idle := (s.bs.fabric.graphs.filter (fun e => (s.job e.graph).isNone)).map (fun e => MirrorWrite.graphEnded e.graph)
          s.sendMirror (idle ++ s.bs.arms.map (fun m => MirrorWrite.armDecided m.arm))
      if k < h then s
      else if s.partnerTook && s.lanesFollow then
        (((s.clearHand.setRole 1).settle).count Reg.RED_ROLE_CNT.handovers 0).raise 0x60A 0 h
      else if h + 64 ≤ k ∧ s.rd Reg.RED_STAT.partner_code 0 ≠ 3 then
        ((s.clearHand).wr Reg.RED_REVERT_STAT.last_abort 0 6).raise 0x60B 0 6
      else s

/-- The incoming unit at a seam: READY, or ABORT for a lane that has gone down since the seam before (R389, R392). -/
def State.handoverWait (s : State) : State :=
  if s.red.hand ≠ .incoming ∨ s.role ≠ 4 then s
  else if s.mayAbort && s.red.upLanes.any (fun l => !s.laneUp l) then s.abortHand 3 true
  else (s.modRed (fun r => { r with upLanes := s.lanesUpNow })).tryReady

/-! ### Commands of the host (RED_CMD) -/

def State.redStatus (s : State) (accepted : Bool) : State := s.wr Reg.RED_STAT.cmd_status 0 (if accepted then 1 else 2)

/-- RED_CMD_STANDBY (R387). -/
def execRedCmdStandby (s : State) : Host.Outcome State Fault Refusal := byHost (fun s =>
  .next (if s.role ≠ 5 then s.redStatus false
    else ((((s.modRed (fun r => { r with demoteNow := false })).setCond 241 false).setRole 1).settle).redStatus true)) s

/-- RED_CMD_ACTIVATE (R386). -/
def execRedCmdActivate (s : State) : Host.Outcome State Fault Refusal := byHost (fun s =>
  .next (if s.role ≠ 6 then s.redStatus false else (s.takeOver true).redStatus true)) s

/-- RED_CMD_HANDOVER (R388). -/
def execRedCmdHandover (s : State) : Host.Outcome State Fault Refusal := byHost (fun s =>
  .next (if s.role ≠ 3 ∨ !s.paired ∨ s.red.hand ≠ .none then s.redStatus false
    else ((s.sendPartner 5 0 [1 * 2 ^ 60]).beginOutgoing).redStatus true)) s

/-- RED_CMD_ABORT (R392). -/
def execRedCmdAbort (s : State) : Host.Outcome State Fault Refusal := byHost (fun s =>
  .next (if s.red.hand = .none ∨ !s.mayAbort then s.redStatus false else (s.abortHand 4 true).redStatus true)) s

/-! ### Ports and lanes -/

/-- Units between this one and the address seen at a port (R397). PRESUMED (notes/assumptions/74.md). -/
def State.bypassedAt (s : State) (east : Bool) (seen : Nat) : Nat :=
  let me := s.rd Reg.RED_RING_CFG.address 0
  let n := if me ≤ s.rd Reg.RED_RING_CFG.units 0 ∧ seen ≤ s.rd Reg.RED_RING_CFG.units 0 then s.rd Reg.RED_RING_CFG.units 0 + 1 else 8
  min ((if east then seen + 8 * n - me - 1 else me + 8 * n - seen - 1) % n) 3

/-- RING_PORT (R393, R397): a port's group goes up or down; `seen` is the ring address in its ALIGN blocks. -/
def execRingPort (port : Fin 2) (up : Bool) (seen : Fin 8) (s : State) : Host.Outcome State Fault Refusal :=
  let east := port == 0
  let fUp := if east then Reg.RED_RING_STAT.east_up else Reg.RED_RING_STAT.west_up
  .next (
    let s := if s.flag fUp 0 = up then s
      else
        let s := (s.wr fUp 0 (bit up)).raise 0x60C 0 (port.val + 2 * bit up)
        if up then s else (s.count (if east then Reg.RED_RING_ERR_E.lock_losses else Reg.RED_RING_ERR_W.lock_losses) 0).healthDrop
    if !up then s
    else
      let s := s.wr (if east then Reg.RED_RING_STAT.east_addr else Reg.RED_RING_STAT.west_addr) 0 seen
      let f := if east then Reg.RED_RING_STAT.east_bypassed else Reg.RED_RING_STAT.west_bypassed
      let n := s.bypassedAt east seen
      if s.rd f 0 = n then s
      else
        let s := s.wr f 0 n
        s.raise 0x60D 0 (s.rd Reg.RED_RING_STAT.east_bypassed 0 + 4 * s.rd Reg.RED_RING_STAT.west_bypassed 0))

/-- UPLINK_FRAME (R188, R387): the frame, and what its H means for the role. A lane that is not up receives none (R220). -/
def execUplinkFrame (lane : Fin 96) (rows : List (List (Nat × Nat))) (te tz : Nat) (s : State) : Host.Outcome State Fault Refusal :=
  .next (match s.bs.laneEntry lane with
    | none => s
    | some e =>
      if !s.laneUp lane then s
      else
      let before := (s.lane lane).higher
      let s := (s.uplink e rows te tz).askPoints (76 + lane / 24) ((s.boundCells lane).map (fun x => .cell x.2.cell 0))
      if s.role = 3 ∧ s.paired ∧ s.red.hand = .none ∧ 2 ≤ (s.lane lane).higher ∧ before < (s.lane lane).higher then s.demote lane (s.lane lane).lastH false
      else s)

/-- A used lane of the incoming unit has gone down since `old`: it sends ABORT (R392). -/
def State.laneDown (s old : State) : State :=
  if s.red.hand = .incoming ∧ s.role = 4 ∧ s.mayAbort ∧ s.bs.lanes.any (fun e => old.laneUp e.lane && !s.laneUp e.lane) then
    s.abortHand 3 true
  else s

/-- LOCK_LOST (R218): the receiver of a used lane has met `headers` invalid headers within 64 consecutive blocks; with 16 or more it
loses lock. The incoming unit of a handover then gives it up (R392). -/
def execLockLost (lane : Fin 96) (headers : Nat) (s : State) : Host.Outcome State Fault Refusal :=
  .next (
    let t := if (s.bs.groupOf lane).isSome then s.add Reg.LANE_ERR_CNT.hdr_err lane headers else s
    (if 16 ≤ headers then t.loseLock lane 0 else t).laneDown s)

/-- RELOCK (R218): a write of LANE_CTRL.relock. -/
def execRelock (lane : Fin 96) (s : State) : Host.Outcome State Fault Refusal :=
  byHost (fun s => .next ((s.loseLock lane 1).laneDown s)) s

/-- RX_DISABLE (R218): LANE_CTRL.rx_en takes 0. -/
def execRxDisable (lane : Fin 96) (s : State) : Host.Outcome State Fault Refusal := byHost (fun s =>
  .next ((match s.bs.groupOf lane with
    | some _ => s.disableRx lane
    | none => s.wr Reg.LANE_CTRL.rx_en lane 0).laneDown s)) s

/-- ALIGN_RECEIVED (R222): `between` are the payloads received on the lane since the ALIGN before it. One with an invalid CRC is ignored
for lock, deskew and masks. -/
def execAlignReceived (lane : Fin 96) (payload : Nat) (between : List Nat) (skew : Nat) (s : State) :
    Host.Outcome State Fault Refusal :=
  .next (match s.bs.groupOf lane with
    | some e =>
      if !s.flag Reg.LANE_STAT.lock lane || payload / 2 ^ 56 != 0xD4 then s
      else
        let t := s.checkBip lane payload between
        let t := if alignValid payload then (t.receiveAlign e lane payload skew).quadTimed (e.lane / 24)
          else t.modLane lane (fun r => { r with skipped := r.skipped + 1 })
        t.laneDown s
    | none => s)

/-! ### A seam (R375, R378, R380, R388) -/

/-- The sequence of the newest checkpoint that the unit sent or holds (R375), in 32-bit serial arithmetic. -/
def State.newestSeq (s : State) : Nat :=
  match s.newestSlot with
  | none => s.red.txSeq
  | some n =>
    let d := ((s.slot n).seq + 2 ^ 32 - s.red.txSeq) % 2 ^ 32
    if d < 2 ^ 31 then (s.slot n).seq else s.red.txSeq

/-- The ring heartbeat of a seam, and the message missed since the last one. -/
def State.ringSeam (s : State) (last : Nat) : State :=
  if !s.paired then s
  else
    let s := match s.red.ringAt with
      | some t => if (t + 2 ^ 64 - last) % 2 ^ 64 < 2 ^ 63 then s else s.count Reg.RED_HB_CNT.ring_bad 0
      | none => s.count Reg.RED_HB_CNT.ring_bad 0
    s.sendPartner 0 0 [heartbeatWord s.role s.rank (s.rd Reg.RED_CLAIM.claim 0), s.epo.k, s.newestSeq]

/-- Health of a standby (R388). -/
def State.healthSeam (s : State) : State :=
  let ok := s.healthyNow && decide (s.role = 1)
  let s := s.wr Reg.RED_STAT.healthy 0 (bit ok)
  if !ok then (s.wr Reg.RED_REVERT_STAT.healthy_s 0 0).modRed (fun r => { r with healthyAt := none })
  else
    let t := s.red.healthyAt.getD s.now
    (s.wr Reg.RED_REVERT_STAT.healthy_s 0 (min ((s.now + 2 ^ 64 - t) % 2 ^ 64 / 12800000000) 65535)).modRed
      (fun r => { r with healthyAt := some t })

/-- Checkpoints of the ACTIVE unit (R378), the binding record (R380), and the start of a mirror (R389). -/
def State.checkpointSeam (s : State) : State :=
  if s.role ≠ 3 ∨ !s.paired then s
  else
    let s := s.modRed (fun r => { r with since := r.since + 1 })
    let due := s.red.due || decide (s.rd Reg.RED_CKPT_CFG.period 0 ≤ s.red.since)
      || (s.red.early && s.flag Reg.RED_CKPT_CFG.early_en 0)
    let s := if due && s.red.tx.isNone then s.sendCheckpoint else s.modRed (fun r => { r with due := due, early := false })
    let b := s.bindRecord
    let s := if b = s.red.bind then s
      else { s.modRed (fun r => { r with bind := b }) with wire := s.wire ++ [Wire.binding (s.ringFrame 3 2 (Config.bindWords b)) b] }.nextMsg
    if s.red.hand = .outgoing ∧ !s.red.mirroring ∧ s.red.h.isNone ∧ !s.red.due then
      (s.wr Reg.RED_MIRROR_STAT.active 0 1).modRed (fun r => { r with mirroring := true })
    else s

end Sys2Proof.Machine
end

