-- ==== Sys2Proof/Machine/CfgFile.lean ====
section
/-! DEFINITION. Files in flash: the boot record (R435), header and directory of a bit-stream or package (R429, Tables 14.1, 14.2),
the checks of Table 14.5 that need only them (codes 0x01 to 0x07), digests (R433) and the extents of R436. -/

namespace Sys2Proof.Machine

/-- Flash bytes; a byte that nothing has written reads 0xFF (notes/assumptions/6.md). -/
def State.flashBytes (s : State) (a n : Nat) : List Byte := (tabGetList 0xFF s.cfg.flash a n).map (BitVec.ofNat 8)

/-- A little-endian field of `n` bytes (R11). PRESUMED (notes/assumptions/6.md). -/
def State.flashWord (s : State) (a n : Nat) : Nat := wordLE (s.flashBytes a n)

/-! ### Boot record (R435) -/

structure BootRecord where
  copy : Nat
  seq : Nat
  baseA : Nat
  baseB : Nat
  genA : Nat
  genB : Nat
deriving DecidableEq, Repr

/-- ASCII PXBR, PXBS and PXLR as little-endian words. -/
def magicBoot : Nat := 0x52425850
def magicStream : Nat := 0x53425850
def magicPackage : Nat := 0x524C5850

/-- A valid copy of the record at 0x0000_0000 (0) or 0x0000_1000 (1). -/
def State.bootCopy (s : State) (n : Nat) : Option BootRecord :=
  let a := n * 0x1000
  if s.flashWord a 4 = magicBoot ∧ s.flashWord (a + 60) 4 = crc32c (s.flashBytes a 60) then
    some ⟨n, s.flashWord (a + 4) 4, s.flashWord (a + 8) 4, s.flashWord (a + 12) 4, s.flashWord (a + 16) 4,
      s.flashWord (a + 20) 4⟩
  else none

/-- The copy in use: the valid one with the higher sequence in 32-bit serial arithmetic. DEDUCED (notes/assumptions/76.md). -/
def State.bootRecord (s : State) : Option BootRecord :=
  match s.bootCopy 0, s.bootCopy 1 with
  | some a, some b =>
    if 0 < (b.seq + 2 ^ 32 - a.seq) % 2 ^ 32 ∧ (b.seq + 2 ^ 32 - a.seq) % 2 ^ 32 < 2 ^ 31 then some b else some a
  | some a, none => some a
  | none, b => b

/-- The registers that show the record in use. -/
def State.showBoot (s : State) : State :=
  let r := s.bootRecord.getD ⟨0, 0, 0, 0, 0, 0⟩
  let s := (s.wr Reg.CFG_BOOT_A.base 0 r.baseA).wr Reg.CFG_BOOT_B.base 0 r.baseB
  (s.wr Reg.CFG_BOOT_GEN.gen_a 0 r.genA).wr Reg.CFG_BOOT_GEN.gen_b 0 r.genB

/-! ### Directory -/

structure DirEntry where
  type : Nat
  inst : Nat
  flags : Nat
  offset : Nat
  length : Nat
  hash : List Byte
deriving DecidableEq, Repr

/-- Entry `i` of the directory of the file at `base`. -/
def State.dirEntry (s : State) (base i : Nat) : DirEntry :=
  let a := base + 256 + 64 * i
  ⟨s.flashWord a 2, s.flashWord (a + 2) 2, s.flashWord (a + 4) 4, s.flashWord (a + 8) 4, s.flashWord (a + 12) 4,
   s.flashBytes (a + 16) 48⟩

def State.directory (s : State) (base : Nat) : List DirEntry := (List.range (s.flashWord (base + 12) 2)).map (s.dirEntry base)

/-- An error of Tables 14.5 and 14.6: code, section, item, conflicting resource and claimants, byte offset of the failing field
(none: the manual does not lay it out, notes/assumptions/12.md). -/
structure LoadError where
  code : Nat
  type : Nat
  inst : Nat
  item : Nat
  kind : Nat
  res : Nat
  first : Nat
  second : Nat
  offset : Option Nat
deriving DecidableEq, Repr

/-- An error of a field in the header or the directory. -/
def LoadError.field (code item offset : Nat) : LoadError := ⟨code, 0, 0, item, 0, 0, 0, 0, some offset⟩

/-- An error inside a section. -/
def LoadError.inside (code type item : Nat) : LoadError := ⟨code, type, 0, item, 0, 0, 0, 0, none⟩

/-- The first check that fails. -/
def firstError : List (Bool × LoadError) → Option LoadError
  | [] => none
  | (bad, e) :: l => if bad then some e else firstError l

/-- The first error of a list of checks. -/
def anyError : List (Option LoadError) → Option LoadError
  | [] => none
  | some e :: _ => some e
  | none :: l => anyError l

/-- Types and instances of Table 14.3. DEDUCED (notes/assumptions/81.md). -/
def sectionKnown (type inst : Nat) : Bool :=
  if type = 0x0B then decide (inst < 4) else if type = 0x0C then decide (inst < 16)
  else decide (1 ≤ type) && decide (type ≤ 0x10) && inst == 0

/-- Types that a package may hold (R440). -/
def replaceable (type : Nat) : Bool := type == 0x0B || type == 0x0C || type == 0x0D

/-! ### Codes 0x01 to 0x07 -/

/-- FORMAT of the header (R429). -/
def State.headerError (s : State) (base : Nat) (package : Bool) : Option LoadError :=
  let w (o n : Nat) : Nat := s.flashWord (base + o) n
  let n := w 12 2
  let len := w 8 4
  let at_ (o : Nat) : LoadError := LoadError.field 1 o o
  firstError [
    (w 0 4 != (if package then magicPackage else magicStream), at_ 0),
    (w 4 2 != 3, at_ 4),
    (decide (len < 256 + 64 * n) || decide ((if package then 0x80000 else 0x1000000) < len)
      || decide (Config.flashBytes < base + len), at_ 8),
    (n == 0 || decide (256 < n), at_ 12),
    (package && w 15 1 != 0xFF, at_ 15),
    (!package && w 16 4 != 0, at_ 16),
    (w 20 12 != 0, at_ 20)]

/-- FORMAT of one directory entry: its flags, offset, length and alignment. -/
def dirError (n len : Nat) (i : Nat) (e : DirEntry) : Option LoadError :=
  let a := 256 + 64 * i
  let at_ (o : Nat) : LoadError := ⟨1, e.type, e.inst, a + o, 0, 0, 0, 0, some (a + o)⟩
  firstError [
    (!sectionKnown e.type e.inst, at_ 0),
    (decide (1 < e.flags), at_ 4),
    (e.offset % 64 != 0 || decide (e.offset < 256 + 64 * n), at_ 8),
    (decide (len < e.offset + e.length), at_ 12)]

def State.formatError (s : State) (base : Nat) (package : Bool) : Option LoadError :=
  match s.headerError base package with
  | some e => some e
  | none =>
    let d := s.directory base
    anyError ((d.zip (List.range d.length)).map (fun x => dirError d.length (s.flashWord (base + 8) 4) x.2 x.1))

/-- A slot may sign with a public key of 96 bytes (R432). DEDUCED (notes/assumptions/80.md). -/
def State.keyAccepts (s : State) (slot : Nat) (key : List Byte) : Bool :=
  let k := tabGet KeySlot.blank s.cfg.keys slot
  !k.revoked && k.hash == some (wordLE (sha384 key))

/-- A key of 96 bytes and a signature of 96 bytes over a message (R432): X then Y, r then s. DEDUCED (notes/assumptions/80.md). -/
def signedBy (key sig message : List Byte) : Bool :=
  ecdsaVerify (wordLE (key.take 48)) (wordLE (key.drop 48)) (wordLE (sig.take 48)) (wordLE (sig.drop 48)) message

/-- Codes 0x02 to 0x05: stepping, key, main signature, section hashes. -/
def State.authError (s : State) (base : Nat) : Option LoadError :=
  let d := s.directory base
  let slot := s.flashWord (base + 14) 1
  let key := s.flashBytes (base + 64) 96
  let step := s.flashWord (base + 6) 1
  if step ≠ 0x0B then some (LoadError.field 2 step 6)
  else if decide (3 < slot) || !s.keyAccepts slot key then some (LoadError.field 3 slot 14)
  else if !signedBy key (s.flashBytes (base + 160) 96) (s.flashBytes base 160 ++ s.flashBytes (base + 256) (64 * d.length)) then
    some (LoadError.field 4 0 160)
  else firstError ((d.zip (List.range d.length)).map (fun x =>
      (sha384 (s.flashBytes (base + x.1.offset) x.1.length) != x.1.hash,
       ⟨5, x.1.type, x.1.inst, x.2, 0, 0, 0, 0, some (256 + 64 * x.2 + 16)⟩)))

/-- Code 0x06: the safety section's own key and signature over what precedes them. -/
def State.safetyError (s : State) (base : Nat) : Option LoadError :=
  match (s.directory base).find? (fun e => e.type == 0x0F) with
  | none => none
  | some e =>
    let slot := s.flashWord (base + 15) 1
    let stop := base + e.offset + e.length
    let key := s.flashBytes (stop - 192) 96
    firstError [
      ((slot != 4 && slot != 5) || decide (e.length < 192) || !s.keyAccepts slot key,
        ⟨6, 0x0F, 0, slot, 0, 0, 0, 0, some 15⟩),
      (!signedBy key (s.flashBytes (stop - 96) 96) (s.flashBytes (base + e.offset) (e.length - 192)),
        ⟨6, 0x0F, 0, slot, 0, 0, 0, 0, some (e.offset + e.length - 96)⟩)]

/-- The first entry that repeats the type and instance of an earlier one. -/
def duplicateError (d : List DirEntry) : Option LoadError :=
  firstError ((d.zip (List.range d.length)).map (fun x =>
    ((d.take x.2).any (fun y => y.type == x.1.type && y.inst == x.1.inst),
     ⟨7, x.1.type, x.1.inst, x.1.type + 2 ^ 16 * x.1.inst, 0, 0, 0, 0, some (256 + 64 * x.2)⟩)))

/-- Code 0x07: a section that the personality or the straps require is missing, one is there twice, or an SST section in an MMC
bit-stream (R430, R2). -/
def State.sectionsError (s : State) (base : Nat) : Option LoadError :=
  let d := s.directory base
  let sst := s.flashWord (base + 7) 1 == 1
  let need := [1, 2, 3, 4] ++ (if sst then [5] else []) ++ [6, 0x0C] ++ (if s.paired then [0x0E] else []) ++ [0x0F]
  let missing := firstError (need.map (fun t => (!d.any (fun e => e.type == t), ⟨7, t, 0, t, 0, 0, 0, 0, none⟩)))
  let extra := firstError ((d.zip (List.range d.length)).map (fun x =>
    (x.1.type == 5 && !sst, ⟨7, 5, x.1.inst, 5 + 2 ^ 16 * x.1.inst, 0, 0, 0, 0, some (256 + 64 * x.2)⟩)))
  anyError [missing, duplicateError d, extra]

/-- The checks of a complete bit-stream that need only the flash. -/
def State.fileError (s : State) (base : Nat) : Option LoadError :=
  s.formatError base false <|> s.authError base <|> s.safetyError base <|> s.sectionsError base

/-! ### Digests (R433) -/

/-- Directory hashes by type and instance. -/
def State.fileHashes (s : State) (base : Nat) : List (Nat × Nat × List Byte) :=
  (s.directory base).map (fun e => (e.type, e.inst, e.hash))

/-- Insert by type, then by instance; a hash of the same section is replaced. -/
def insertHash (x : Nat × Nat × List Byte) : List (Nat × Nat × List Byte) → List (Nat × Nat × List Byte)
  | [] => [x]
  | y :: l =>
    if y.1 = x.1 ∧ y.2.1 = x.2.1 then x :: l
    else if x.1 < y.1 ∨ (x.1 = y.1 ∧ x.2.1 < y.2.1) then x :: y :: l
    else y :: insertHash x l

def sortHashes (l : List (Nat × Nat × List Byte)) : List (Nat × Nat × List Byte) := l.foldl (fun t x => insertHash x t) []

/-- The composite digest of the sections in effect. -/
def compositeDigest (l : List (Nat × Nat × List Byte)) : Nat := wordLE ((sha384 ((sortHashes l).flatMap (·.2.2))).take 4)

/-- The file has a section of a type and instance. -/
def State.hasSection (s : State) (base type inst : Nat) : Bool := (s.directory base).any (fun e => e.type == type && e.inst == inst)

/-- The safety digest: the first four bytes of the section's hash. DEDUCED (notes/assumptions/79.md). -/
def State.safetyDigest (s : State) (base : Nat) : Nat :=
  match (s.directory base).find? (fun e => e.type == 0x0F) with
  | some e => wordLE (e.hash.take 4)
  | none => 0

/-! ### What flash commands may not touch (R436) -/

def overlaps (a n b m : Nat) : Bool := decide (a < b + m) && decide (b < a + n)

/-- A run of flash bytes touches the running image, a staged or armed package, or the boot record in use. -/
def State.flashInUse (s : State) (a n : Nat) : Bool :=
  overlaps a n s.cfg.extent.1 s.cfg.extent.2
    || (match s.cfg.staged with
        | some p => (s.rd Reg.CFG_LR_STAT.state 0 == 2 || s.rd Reg.CFG_LR_STAT.state 0 == 3) && overlaps a n p.base p.length
        | none => false)
    || (match s.bootRecord with
        | some r => overlaps a n (r.copy * 0x1000) 64
        | none => false)

end Sys2Proof.Machine
end

