-- ==== Sys2Proof/Machine/LoadRange.lean ====
section
/-! DEFINITION. The checks of Table 14.5 on the values of the tables: RANGE (0x08) and LIMIT (0x09, R258). An item is the index of the
entry in its table. -/

namespace Sys2Proof.Machine

/-- The first entry of a table that breaks a condition. -/
def entryError {α : Type} (code type : Nat) (l : List α) (ok : α → Bool) : Option LoadError :=
  firstError ((l.zip (List.range l.length)).map (fun x => (!ok x.1, LoadError.inside code type x.2)))

/-- The same with the item taken from the entry. -/
def itemError {α : Type} (code type : Nat) (l : List α) (item : α → Nat) (ok : α → Bool) : Option LoadError :=
  firstError (l.map (fun x => (!ok x, LoadError.inside code type (item x))))

/-- The stated range of a register field. -/
def Field.takes (f : Field) (v : Nat) : Bool := decide (f.min ≤ v) && decide (v ≤ f.max)

def within (lo v hi : Nat) : Bool := decide (lo ≤ v) && decide (v ≤ hi)

/-- A finite binary32 in a closed range. -/
def floatIn (lo v hi : Nat) : Bool := decide (v < 2 ^ 32) && fLe f32 lo v && fLe f32 v hi

def unsetOr (p : Nat → Bool) : Option Nat → Bool
  | none => true
  | some v => p v

/-! ### Station tables -/

/-- Table 14.4; the header's personality must be the profile's (Table 14.1). -/
def Profile.ok (p : Profile) (header : Nat) : Bool :=
  bit p.sst == header && within 400 p.epoch 40000 && within 1 p.lead 2 && decide (p.warmLanes ≤ 1) && decide (p.coldStart ≤ 1)
    && decide (p.revert ≤ 1) && within 1 p.listenMs 65535 && within 1 p.ckptPeriod 65535
    && Reg.EPO_ECC_CTRL.ps_period.takes p.psPeriod && Reg.EPO_ECC_CTRL.md_period.takes p.mdPeriod
    && Reg.EPO_ECC_CTRL.ret_period.takes p.retPeriod && p.coreMode.length == 4 && p.coreMode.all (fun m => decide (m ≤ 2))
    && within 4 p.fabTick 4000 && decide (p.rampDiv ≤ 4095)

def CellEntry.ok (e : CellEntry) : Bool :=
  decide (e.cell < 16384) && fFinite f32 e.cap && unsetOr (fun a => decide (a < 12)) e.arm && decide (e.lane < 96)
    && unsetOr (fun p => decide (p < 256)) e.slot && unsetOr (fun n => decide (n < 2 ^ 40)) e.serial

/-- A dead time within a range in steps of its table (Table 4.2), in picoseconds. -/
def onStep (step lo n hi : Nat) : Bool := within lo n hi && n % step == 0

/-- R112, R120, R149 (Table 4.2), Table 5.13. DEDUCED (notes/assumptions/100.md). -/
def ArmEntry.ok (e : ArmEntry) : Bool :=
  decide (e.arm < 12) && fFinite f32 e.vnom && fLt f32 0 e.vnom && floatIn 0 e.lo 0x454CCC00 && floatIn 0 e.hi 0x454CCC00 && windowValid e.lo e.hi
    && Reg.ARM_BAND.band.takes e.band && unsetOr Reg.ARM_BAND.cap.takes e.cap && Reg.ARM_SPARE.need.takes e.need
    && decide (e.refPoint < 65536) && decide (e.outPoint < 65531) && decide (e.refGraph < 128)
    && decide (e.missLimit ≤ 255) && decide (e.faultExcl < 65536) && decide (e.reactMask < 65536)
    && decide (e.minPulse ≤ 1280000) && onStep 10000 10000 e.dtFixed 2550000 && floatIn 0 e.dtMargin 0x43FA0000
    && onStep 10000 10000 e.dtMin 2550000 && onStep 10000 10000 e.dtMax 2550000 && decide (e.dtMin ≤ e.dtMax)
    && decide (e.wdAction ≤ 3) && floatIn 0 e.carrierGain 0x7F7FFFFF && floatIn 0 e.carrierDmax 0x3F000000

/-- Table 7.1. -/
def UnitEntry.ok (e : UnitEntry) : Bool :=
  decide (e.unit < 4) && within 1 e.strings 3 && within 1280 e.isoPeriod 16777214 && e.isoPeriod % 2 == 0
    && within 1 e.isoReloadN 255 && decide (e.strings ≤ e.isoPhase.length) && e.isoPhase.all (fun x => decide (x < e.isoPeriod))
    && decide (e.strings ≤ e.lvHi.length) && decide (e.strings ≤ e.lvLo.length) && (e.lvHi ++ e.lvLo).all (fun x => decide (x < 24))
    && within 0x2100 e.pointBase 0xFFF0 && within 0x2100 e.shiftPoint 0xFFFD && floatIn 0 e.gain 0x7F7FFFFF
    && floatIn 0 e.tmax 0x3D4CCCCD && within 1 e.slew (e.isoPeriod / 8) && fFinite f32 e.minV && decide (e.minV < 2 ^ 32)

/-- R215. -/
def LaneEntry.ok (e : LaneEntry) : Bool :=
  decide (e.lane < 96) && within 1 e.positions 256 && within 1 e.detail 16 && within 256 e.guard 12800
    && Reg.LANE_DMAX.dmax.takes e.dmax && Reg.LANE_EQ.preset.takes e.preset

/-- R233, R234. -/
def EqEntry.ok (e : EqEntry) : Bool :=
  decide (e.lane < 96) && Reg.LANE_EQ.preset.takes e.preset && decide (e.override ≤ 1) && Reg.LANE_EQ.tx_pre.takes e.txPre
    && Reg.LANE_EQ.tx_post.takes e.txPost && Reg.LANE_EQ.rx_ctle.takes e.rxCtle && decide (e.txPre + e.txPost ≤ 40)

/-- R149 (Table 4.2) and DRV_CTRL. DEDUCED (notes/assumptions/100.md). -/
def DriveEntry.ok (e : DriveEntry) : Bool :=
  decide (e.channel < 24) && decide (e.holder ≤ 2) && decide (e.setPoint < 65535) && decide (e.statePoint < 65536)
    && onStep 1250 0 e.dead 318750 && decide (e.dtMargin ≤ 100000000) && onStep 1250 0 e.dtMin 318750
    && onStep 1250 0 e.dtMax 318750 && decide (e.dtMin ≤ e.dtMax)
    && within 64 e.minPulse 1280000 && Reg.DRV_CTRL.refresh_n.takes e.refreshN
    && Reg.DRV_CTRL.refresh_width.takes e.refreshWidth

/-- R322, R323. -/
def SeqEntry.ok (e : SeqEntry) : Bool :=
  Reg.ADC_SEQ_ENTRY.input.takes e.input && Reg.ADC_SEQ_ENTRY.gain.takes e.gain && within 1 e.rounds 16
    && Reg.ADC_SEQ_ENTRY.trigger.takes e.trigger && Reg.ADC_SEQ_ENTRY.pin.takes e.pin && Reg.ADC_SEQ_ENTRY.offset.takes e.offset

def CoreEntry.ok (e : CoreEntry) : Bool :=
  decide (e.core < 4) && within 1 e.regular.length 16 && decide (e.injected.length ≤ 4) && e.regular.all SeqEntry.ok
    && e.injected.all SeqEntry.ok && Reg.ADC_CORE_CTRL.reg_trig.takes e.trig && Reg.ADC_CORE_TRIG.offset.takes e.offset
    && Reg.ADC_CORE_TRIG.param.takes e.param

/-- R335; streams 32 to 47 carry sampled values (R321). -/
def SvEntry.ok (e : SvEntry) : Bool :=
  decide (e.sub < 16) && within 1 e.ports 3 && decide (e.dst < 2 ^ 48) && decide (e.appid < 65536) && within 1 e.asdus 8
    && within 4000 e.rate 96000 && within 1 e.channels.length 24 && within 1 e.timeout 255
    && e.channels.all (fun c => unsetOr (fun n => decide (32 ≤ n) && decide (n < 48)) c.2)

def RampEntry.ok (e : RampEntry) : Bool := decide (e.ramp < 32) && unsetOr (fun i => decide (i < 8)) e.follow

def GenEntry.ok (e : GenEntry) : Bool :=
  decide (e.gen < 16) && decide (e.mode ≤ 2) && decide (e.table < 4) && decide (e.la ≤ 3)
    && unsetOr (fun r => decide (r < 32)) e.ampRamp && decide (e.fMin ≤ e.fMax) && decide (e.fMax < 2 ^ 48)
    && decide (e.thetaInit < 3221225472)

def InputEntry.ok (e : InputEntry) : Bool :=
  decide (e.input < 8) && Reg.ORD_IN_CFG.mode.takes e.mode && Reg.ORD_IN_CFG.filt.takes e.filt
    && Reg.ORD_IN_CFG.gate.takes e.gate && Reg.ORD_IN_CFG.src_point.takes e.src

/-- R393. -/
def RingEntry.ok (e : RingEntry) : Bool :=
  within 1 e.units 8 && decide (e.address < 8) && decide (e.partner < 8) && e.address != e.partner

/-- Table 13.6's fields. -/
def Safety.ok (x : Safety) : Bool :=
  x.pairs.all (fun e => decide (e.pair < 8) && decide (e.mode ≤ 3) && decide (e.stpA < 4) && decide (e.stpB < 4)
      && decide (e.kind ≤ 1) && within 2 e.filter 1000 && within 1 e.disc 255 && decide (e.targets < 65536))
    && x.pchs.all (fun e => decide (e.chan < 4) && decide (e.func ≤ 3) && decide (e.inA < 32) && decide (e.inB < 32)
      && decide (e.vchan < 4) && decide (e.kind ≤ 1) && decide (e.targets < 65536) && within 1 e.resp 255)
    && x.targets.all (fun e => decide (e.target < 16) && within 1 e.ramp 16383 && decide (e.margin ≤ 4095)
      && unsetOr (fun c => decide (c < 4)) e.mon)
    && x.reqs.all (fun e => decide (e.1 < 8) && decide (e.2.1 < 65536) && decide (e.2.2 ≤ 1))
    && x.souts.all (fun e => decide (e.out < 4) && decide (e.targets < 65536))
    && within 50 x.tpWidth 1000 && within 10 x.tpPeriod 1000 && decide (x.expiry ≤ 3) && within 1 x.degWindow 600
    && within 0x2100 x.base 0xFFF0

/-! ### Control fabric -/

/-- Operand counts of Table 8.3. -/
def OpKind.ok : OpKind → Bool
  | .srcPoint l => within 1 l.length 8
  | .snkPoint l => within 1 l.length 8
  | .add n | .sub n | .mul n | .fma n | .abs n | .neg n | .min n | .max n | .clamp n | .logic _ n => within 1 n 8
  | .dot n => within 1 n 16
  | .matvec r c _ _ => within 1 r 8 && within 1 c 8
  | .biquad n _ _ => within 1 n 4
  | .fir n _ _ => within 1 n 64
  | .lookup n _ _ _ _ => within 2 n 1024
  | .cvt n w f _ => within 1 n 8 && within 1 w 64 && decide (f ≤ w)
  | .pack l => within 1 l.length 4 && l.all (fun x => decide (x.1 + x.2 ≤ 64))
  | .unpack l => within 1 l.length 4 && l.all (fun x => decide (x.1 + x.2 ≤ 64))
  | .delay n => within 1 n 65535
  | .observe n k => decide (n < 64) && within 1 k 255
  | .alarm c => decide (c < 256)
  | .event u => decide (u < 128)
  | .release g => decide (g < 128)
  | .snkQueue q => decide (q < 8192)
  | .srcConst _ | .srcStream | .srcQueue | .zdelay _ | .div | .sqrt | .sincos | .clarke | .park | .pi .. | .integ .. | .rateLimit ..
  | .cmp _ | .select => true

/-- Table 8.1; CARRIER and DRIVE only for real-time graphs. -/
def Trigger.ok (rt : Bool) : Trigger → Bool
  | .seam d o => within 1 d 256 && decide (o < d)
  | .timer p => within 1 p 65535
  | .carrier a k => rt && decide (a < 12) && decide (k < 4)
  | .drive c _ => rt && decide (c < 24)
  | .stream n => decide (n < 64)
  | .queue q => decide (q < 8192)
  | .reaction | .host => true
  | .graph g => decide (g < 128)

/-- Every input of every operation has exactly one edge, and every edge joins an output to an input (R263). -/
def GraphEntry.edgesOk (e : GraphEntry) : Bool :=
  e.edges.all (fun x => e.ops.any (fun o => o.num == x.src && decide (x.out < o.kind.outputs))
      && e.ops.any (fun o => o.num == x.dst && decide (x.inp < o.kind.inputs)))
    && e.ops.all (fun o => (List.range o.kind.inputs).all (fun i =>
      (e.edges.filter (fun x => x.dst == o.num && x.inp == i)).length == 1))

/-- A graph's attributes (R259, R260). -/
def GraphEntry.ok (e : GraphEntry) : Bool :=
  decide (e.graph < 128) && e.trigger.ok e.rt && e.engines.all (fun n => decide (n < 64))
    && (!e.rt || (match e.trigger with | .seam .. => decide (e.deadline < 65536) | _ => within 8 e.deadline 65535))
    && unsetOr (fun f => decide (f < 256)) e.flow && e.ops.all (fun o => o.kind.ok && decide (o.num < 4096))
    && ((e.ops.map (·.num)).eraseDups.length == e.ops.length) && e.edgesOk

/-- Queues of 1 to 16 items, streams of 1 to 16, stores of 1 to 4,096 words with enough of them for each operation. -/
def Fabric.buffersOk (f : Fabric) : Bool :=
  f.queues.all (fun q => within 1 q.2 16) && f.streams.all (fun x => decide (x.1 < 64) && within 1 x.2 16)
    && f.stores.all (fun e => within 1 e.init.length 4096)
    && f.graphs.all (fun e => e.ops.all (fun o => match o.kind.words with
      | some (a, n) => f.stores.any (fun x => x.store == a / 4096 && decide (a % 4096 + n ≤ x.init.length))
      | none => true))

def Fabric.ok (f : Fabric) : Bool := f.graphs.all GraphEntry.ok && f.buffersOk

/-- R285 and Table 8.7. -/
def Action.ok : Action → Bool
  | .tripOut p => decide (p < 8)
  | .prioBlock n => decide (n < 16)
  | .drvBlock l => l.all (fun c => decide (c < 24))
  | .armBlock l => l.all (fun a => decide (a < 12))
  | .safReq r => decide (r < 8)
  | .release g => decide (g < 128)
  | .retire | .drTrigger | .event => true

def CondEntry.ok (e : CondEntry) : Bool :=
  decide (e.cond < 1024) && decide (e.q ≤ 255) && decide (e.actions.length ≤ 4) && e.actions.all Action.ok

def shapesOk (l : List (List Nat)) : Bool := l.all (fun t => t.length == 1536 && t.all (fun v => decide (v < 2 ^ 32)))

/-- Resources of each kind in the order of R431, and the numbers of holders (Table 14.5's last paragraph: twelve safety channels).
DEDUCED (notes/assumptions/100.md). -/
def ResEntry.ok (e : ResEntry) : Bool :=
  decide (e.num < [24, 8, 8, 4, 16, 64, 8192, 65536, 64, 65536].getD e.kind 0)
    && (match e.holder with
      | .graph g => decide (g < 128)
      | .unit u => decide (u < 4)
      | .safety c => decide (c < 12)
      | .host => true)

/-- The groups of a bit-stream that fail, by FABRIC instance. DEDUCED (notes/assumptions/100.md). -/
def groupError (groups : List (Nat × Fabric)) : Option LoadError :=
  firstError (groups.map (fun g => (!g.2.ok, ⟨8, 0x0C, g.1, 0, 0, 0, 0, 0, none⟩)))

/-- Code 0x08. -/
def BitStream.rangeError (b : BitStream) (header : Nat) : Option LoadError :=
  anyError [
    entryError 8 1 [b.profile] (fun p => p.ok header),
    entryError 8 2 b.resources ResEntry.ok,
    entryError 8 3 b.cells CellEntry.ok, entryError 8 4 b.arms ArmEntry.ok, entryError 8 5 b.units UnitEntry.ok,
    entryError 8 6 b.lanes LaneEntry.ok, entryError 8 7 b.eq EqEntry.ok, entryError 8 8 b.drive DriveEntry.ok,
    entryError 8 9 b.meas.inputs (fun e => decide (e.1 < 32)),
    entryError 8 9 b.meas.signals (fun e => decide (e.1 < 32) && decide (e.2 < 65536)), entryError 8 9 b.meas.cores CoreEntry.ok,
    entryError 8 9 b.meas.subs SvEntry.ok, entryError 8 0x0A b.orders.ramps RampEntry.ok,
    entryError 8 0x0A b.orders.gens GenEntry.ok, entryError 8 0x0A b.orders.inputs InputEntry.ok,
    entryError 8 0x0B b.orders.shapes (fun t => t.isEmpty || shapesOk [t]), groupError b.groups,
    entryError 8 0x0D b.reaction.conds CondEntry.ok,
    entryError 8 0x0D b.laneSets (fun e => decide (e.1 < 16) && e.2.all (fun l => decide (l < 96))),
    entryError 8 0x0E b.ring.toList RingEntry.ok, entryError 8 0x0F b.safety.toList Safety.ok]

/-- Counts of R258 in its order, with their limits. -/
def Fabric.counts (f : Fabric) : List (Nat × Nat) :=
  let ops := f.graphs.flatMap (·.ops)
  [(f.graphs.length, 128), (ops.length, 4096), ((f.graphs.flatMap (·.edges)).length + f.queues.length, 8192),
   ((f.graphs.filterMap (·.flow)).eraseDups.length, 256),
   ((ops.filter (fun o => match o.kind with | .observe .. => true | _ => false)).length, 64), (f.streams.length, 64),
   ((f.stores.map (·.init.length)).foldl (· + ·) 0, 65536)]

/-- Code 0x09. -/
def BitStream.limitError (b : BitStream) : Option LoadError :=
  let c := b.fabric.counts
  anyError [
    firstError ((c.zip (List.range c.length)).map (fun x => (decide (x.1.2 < x.1.1), LoadError.inside 9 0x0C x.2))),
    firstError (b.fabric.graphs.map (fun e => (e.ops.isEmpty, LoadError.inside 9 0x0C 7)))]

end Sys2Proof.Machine
end

