-- ==== Sys2Proof/Machine/LoadCheck.lean ====
section
/-! DEFINITION. The checks of Table 14.5 between the tables: codes 0x0A to 0x16. -/

namespace Sys2Proof.Machine

/-- Whether a list repeats an element. DEDUCED (notes/assumptions/81.md). -/
def repeats (l : List Nat) : Bool := l.eraseDups.length != l.length

/-- Index of an entry beside it. -/
def indexed {α : Type} (l : List α) : List (α × Nat) := l.zip (List.range l.length)

/-! ### TABLE (R70, R208, R223, R241 to R244) -/

/-- R223: lanes of a group stand together in one quad; the members of two groups are distinct. -/
def LaneEntry.shapeOk (e : LaneEntry) : Bool :=
  match e.bond with
  | .none => e.width == 1
  | .redundant | .bandwidth => (e.width == 2 || e.width == 4) && e.lane % e.width == 0

/-- A cell of the table against the others: its lane and arm exist, its place is its own, a by-slot place lies below p_l. -/
def BitStream.cellOk (b : BitStream) (e : CellEntry) (before : List CellEntry) : Bool :=
  (match b.laneEntry e.lane with
    | none => false
    | some l => unsetOr (fun p => decide (p < l.positions)) e.slot)
    && unsetOr (fun a => (b.armEntry a).isSome) e.arm && (e.slot.isSome || e.serial.isSome)
    && !before.any (fun x => x.cell == e.cell
      || (x.lane == e.lane && e.slot.isSome && x.slot == e.slot)
      || (e.serial.isSome && x.serial == e.serial))
    && (match e.front with
      | none => e.arm.isSome
      | some f => e.arm.isNone && b.profile.sst && (match b.cellEntry f with
        | none => false
        | some x => x.front.isNone && x.arm.isSome && x.lane == e.lane
            && (x.slot.isNone || e.slot == x.slot.map (· + 1))
            && (x.serial.isNone || e.serial.isNone || e.serial == x.serial.map (· + 2 ^ 39))))

/-- R241: strings of full bridges; R242: at most 96 cells, each with its isolation entry; R244: the reload condition, the channels'
dead time and shortest pulse, the shift points' graph. -/
def BitStream.unitOk (b : BitStream) (u : UnitEntry) : Bool :=
  let strings := (List.range u.strings).map (fun i => 3 * u.unit + i)
  let cells := strings.flatMap b.armCells
  strings.all (fun a => (b.armEntry a).isSome) && cells.all (·.fb) && decide (cells.length ≤ 96)
    && cells.all (fun c => (b.isoOf c.cell).isSome) && b.isolationFits u b.profile.epoch
    && (u.lvHi.take u.strings ++ u.lvLo.take u.strings).all (fun ch =>
      let d := b.driveEntry ch
      d.holder == 2 && d.holderNum == u.unit
        && drvSetOk d ⟨d.adaptive, d.refreshEn, driveSteps d.dead, d.refreshN, d.refreshWidth, false⟩ ⟨u.isoPeriod, 1, u.isoPeriod / 2, 0⟩)
    && (List.range u.strings).all (fun i => b.fabric.graphs.any (fun g => g.graph == u.shiftGraph
      && g.ops.any (fun o => match o.kind with
        | .snkPoint l => l.any (fun x => x.1 == u.shiftPoint + i)
        | _ => false)))

/-- Points that a graph's SNK_POINT operations name. -/
def GraphEntry.writes (e : GraphEntry) : List Nat :=
  e.ops.flatMap (fun o => match o.kind with | .snkPoint l => l.map (·.1) | _ => [])

/-- R161: one graph writes both points of a set. -/
def BitStream.setWritten (b : BitStream) (d : DriveEntry) : Bool :=
  !d.src || b.fabric.graphs.any (fun g => g.writes.contains d.setPoint && g.writes.contains (d.setPoint + 1))

/-- Code 0x0A. DESIGN CHOICE (notes/assumptions/115.md). -/
def BitStream.tableError (b : BitStream) : Option LoadError :=
  anyError [
    firstError ((indexed b.lanes).map (fun x =>
      (!x.1.shapeOk || repeats ((b.lanes.take (x.2 + 1)).flatMap (·.members)), LoadError.inside 0x0A 6 x.2))),
    firstError ((indexed b.arms).map (fun x =>
      ((b.arms.take x.2).any (fun y => y.arm == x.1.arm) || decide (2048 < (b.armCells x.1.arm).length)
        || (b.armCells x.1.arm).isEmpty, LoadError.inside 0x0A 4 x.2))),
    firstError ((indexed b.cells).map (fun x => (!b.cellOk x.1 (b.cells.take x.2), LoadError.inside 0x0A 3 x.2))),
    firstError ((indexed b.units).map (fun x =>
      ((b.units.take x.2).any (fun y => y.unit == x.1.unit)
        || (b.units.take x.2).any (fun y => (y.lvHi ++ y.lvLo).any (fun c => (x.1.lvHi ++ x.1.lvLo).contains c))
        || repeats (x.1.lvHi.take x.1.strings ++ x.1.lvLo.take x.1.strings) || !b.unitOk x.1, LoadError.inside 0x0A 5 x.2))),
    firstError ((indexed b.drive).map (fun x => (!b.setWritten x.1, LoadError.inside 0x0A 8 x.2))),
    firstError ((indexed b.fabric.graphs).map (fun x =>
      ((b.fabric.graphs.take x.2).any (fun y => y.graph == x.1.graph), LoadError.inside 0x0A 0x0C x.1.graph))),
    firstError ((indexed b.fabric.stores).map (fun x =>
      ((b.fabric.stores.take x.2).any (fun y => y.store == x.1.store), LoadError.inside 0x0A 0x0C x.1.store))),
    firstError ((indexed b.cells).map (fun x =>
      (b.profile.sst && decide (768 < x.2 + 1), LoadError.inside 0x0A 3 x.2)))]

/-! ### RESOURCE_CONFLICT (R8, R284, R431) -/

/-- A claim of a resource: kind in the order of R431, number, whether as the writer of a queue, holder as CFG_ERR_HOLD gives it, and
its alternate set. -/
structure Claim where
  kind : Nat
  num : Nat
  writes : Bool
  holder : Nat
  alternate : Option Nat
deriving DecidableEq, Repr

/-- Claims that a graph makes through its trigger, its operations and the drive table, and of the station points that it writes where the
map lists them for a holder other than the host (a host-writable point that a graph writes fails under code 0x0D).
DESIGN CHOICE (notes/assumptions/129.md). -/
def BitStream.graphClaims (b : BitStream) (e : GraphEntry) : List Claim :=
  let c (k n : Nat) (w : Bool) : Claim := ⟨k, n, w, e.graph, e.alternate⟩
  (b.drive.filter (fun d => d.kind == 1 && d.holderNum == e.graph)).map (fun d => c 0 d.channel false)
    ++ (match e.trigger with | .stream n => [c 5 n false] | .queue q => [c 6 q false] | _ => [])
    ++ (e.ops.flatMap (fun o => match o.kind with
        | .snkQueue q => [c 6 q true]
        | .observe n _ => [c 8 n false]
        | k => match k.words with | some (a, _) => [c 7 (a / 4096) false] | none => [])).eraseDups
    ++ ((e.ops.flatMap (fun o => match o.kind with | .snkPoint l => l.map (·.1) | _ => [])).filter (fun p =>
        b.resources.any (fun r => r.kind == 9 && r.num == p && r.holder != .host))).map (fun p => c 9 p true)

/-- Claims of the units and of the held cores and subscriptions; the TRIP_OUT pins that the reaction matrix drives are the host's, to
whom the map's silence gives them. DESIGN CHOICE (notes/assumptions/129.md). -/
def BitStream.otherClaims (b : BitStream) : List Claim :=
  (b.drive.filter (fun d => d.holder == 2)).map (fun d => ⟨0, d.channel, false, 0x100 + d.holderNum, none⟩)
    ++ (b.meas.cores.filterMap (fun e => e.held.map (fun h => ⟨3, e.core, false, h, none⟩)))
    ++ (b.meas.subs.filterMap (fun e => e.held.map (fun h => ⟨4, e.sub, false, h, none⟩)))
    ++ ((b.reaction.conds.flatMap (fun e => e.actions.filterMap (fun a => match a with | .tripOut p => some p | _ => none))).eraseDups).map
        (fun p => ⟨2, p, false, 0xFFFF, none⟩)

/-- Two claims that one resource cannot bear: stores are left to R264, points to R31, graphs of one alternate set may share (R284). -/
def Claim.clash (x y : Claim) : Bool :=
  x.kind == y.kind && x.num == y.num && x.writes == y.writes && x.kind != 7 && x.kind != 9 && x.holder != y.holder
    && !(x.alternate.isSome && x.alternate == y.alternate)

/-- The resource of an error with its claimants. -/
def conflict (c : Claim) (first second : Nat) : LoadError := ⟨0x0B, 2, 0, c.num, c.kind, c.num, first, second, none⟩

/-- Code 0x0B: two claims of one resource, one listed twice, or a claim by another than the holder that the map gives; what the map does
not list belongs to the host. -/
def BitStream.resourceError (b : BitStream) : Option LoadError :=
  let cs := b.fabric.graphs.flatMap b.graphClaims ++ b.otherClaims
  let pairs := (indexed cs).map (fun x =>
    match (cs.take x.2).find? (fun y => y.clash x.1) with
    | some y => some (conflict x.1 y.holder x.1.holder)
    | none => none)
  let twice := (indexed b.resources).map (fun x =>
    match (b.resources.take x.2).find? (fun y => y.kind == x.1.kind && y.num == x.1.num) with
    | some y => some (conflict ⟨x.1.kind, x.1.num, false, 0, none⟩ y.holder.number x.1.holder.number)
    | none => none)
  let foreign := cs.map (fun x =>
    let h := match b.resources.find? (fun y => y.kind == x.kind && y.num == x.num) with
      | some y => y.holder.number
      | none => 0xFFFF
    let users := cs.filter (fun y => y.kind == x.kind && y.num == x.num)
    if users.any (fun y => y.holder == h) then none else some (conflict x h x.holder))
  anyError (pairs ++ twice ++ foreign)

/-! ### ALTERNATE, WRITER, EXTENDED_READ -/

/-- Code 0x0C (R284). -/
def BitStream.alternateError (b : BitStream) : Option LoadError :=
  let on := b.fabric.graphs.filter (·.enabled)
  firstError ((indexed on).map (fun x =>
    (x.1.alternate.isSome && (on.take x.2).any (fun y => y.alternate == x.1.alternate),
     LoadError.inside 0x0C 0x0C (x.1.alternate.getD 0))))

/-- Points that the device writes in the fabric's range, and the first of each: unit points (Table 7.2), arm output points (R105),
stop factors (R417). -/
def BitStream.devicePoints (b : BitStream) : List Nat :=
  b.units.flatMap (fun u => (List.range 8).map (u.pointBase + ·)) ++ b.arms.flatMap (fun m => (List.range 6).map (m.outPoint + ·))
    ++ (match b.safety with | some x => x.targets.map (fun t => x.base + t.target) | none => [])

/-- Code 0x0D (R31, R105, R252, R262, R265, R417). A point with bit 31 set stands for a cell point. What the device writes for arms, units
and stop targets lies neither below 0x2100 nor on one another's points nor on a point that the map lists as host-writable. -/
def BitStream.writerError (b : BitStream) : Option LoadError :=
  let gs := b.fabric.graphs
  let bad (p : Nat) : LoadError := LoadError.inside 0x0D 0x0C p
  let mapped := b.resources.filterMap (fun r => if r.kind = 9 then some r.num else none)
  let placed := (indexed b.devicePoints).map (fun x =>
    (decide (x.1 < 0x2100) || decide (65536 ≤ x.1) || (b.devicePoints.take x.2).contains x.1 || mapped.contains x.1, bad x.1))
  let graph := (indexed gs).flatMap (fun x => x.1.writes.map (fun p =>
    (decide (2 ^ 31 ≤ p) || decide (p < 0x2100) || decide (65536 ≤ p) || b.hostPoints.contains p || b.devicePoints.contains p
      || (gs.take x.2).any (fun y => y.writes.contains p && !(y.alternate.isSome && y.alternate == x.1.alternate)), bad p)))
  firstError (placed ++ graph)

/-- Graph and operation as Table 14.5 packs them. -/
def opItem (g o : Nat) : Nat := g + 2 ^ 16 * o

/-- Code 0x0E (R55). -/
def BitStream.extendedError (b : BitStream) : Option LoadError :=
  firstError ((b.fabric.graphs.filter (·.rt)).flatMap (fun e => e.ops.map (fun o =>
    (match o.kind with
      | .srcPoint l => l.any (fun p => match p with | .cell _ q => decide (16 ≤ q) | .station _ => false)
      | _ => false, LoadError.inside 0x0E 0x0C (opItem e.graph o.num)))))

/-! ### STORE_SCOPE and CYCLE -/

/-- Operations reached from `from_` along edges, in at most `n` steps; a path does not enter a ZDELAY when `cut` is true. -/
def GraphEntry.reach (e : GraphEntry) (cut : Bool) : Nat → List Nat → List Nat
  | 0, l => l
  | n + 1, l =>
    let next := (e.edges.filter (fun x => l.contains x.src && !(cut && e.ops.any (fun o =>
      o.num == x.dst && (match o.kind with | .zdelay _ => true | _ => false))))).map (·.dst)
    let new := (next.filter (fun x => !l.contains x)).eraseDups
    if new.isEmpty then l else e.reach cut n (l ++ new)

/-- A path of edges leads from one operation to another. -/
def GraphEntry.path (e : GraphEntry) (a b : Nat) : Bool :=
  (e.reach false e.ops.length ((e.edges.filter (fun x => x.src == a)).map (·.dst))).contains b

/-- Operations of a graph that name a store. -/
def GraphEntry.users (e : GraphEntry) (st : Nat) : List Nat :=
  (e.ops.filter (fun o => match o.kind.words with | some (a, _) => a / 4096 == st | none => false)).map (·.num)

/-- Code 0x0F (R264). -/
def BitStream.storeError (b : BitStream) : Option LoadError :=
  let gs := b.fabric.graphs
  firstError (b.fabric.stores.map (fun st =>
    let users := gs.filter (fun e => !(e.users st.store).isEmpty)
    let oneFlow := match users with
      | [] | [_] => true
      | e :: l => e.flow.isSome && l.all (fun x => x.flow == e.flow)
    let ordered := users.all (fun e =>
      let l := e.users st.store
      l.all (fun x => l.all (fun y => x == y || e.path x y || e.path y x)))
    (!(oneFlow && ordered), LoadError.inside 0x0F 0x0C st.store)))

/-- An operation lies on a cycle of its graph once every ZDELAY is a source. -/
def GraphEntry.onCycle (e : GraphEntry) (o : OpEntry) : Bool :=
  let start := (e.edges.filter (fun x => x.src == o.num && !e.ops.any (fun y =>
    y.num == x.dst && (match y.kind with | .zdelay _ => true | _ => false)))).map (·.dst)
  (e.reach true e.ops.length start).contains o.num

/-- Graphs that a graph's queues lead to. -/
def Fabric.queueNext (f : Fabric) (l : List Nat) : List Nat :=
  (f.graphs.filter (fun r => match r.trigger with
    | .queue q => f.graphs.any (fun w => l.contains w.graph && w.sinks.contains q)
    | _ => false)).map (·.graph)

def Fabric.queueReach (f : Fabric) : Nat → List Nat → List Nat
  | 0, l => l
  | n + 1, l =>
    let new := ((f.queueNext l).filter (fun x => !l.contains x)).eraseDups
    if new.isEmpty then l else f.queueReach n (l ++ new)

/-- Code 0x10 (R276). -/
def BitStream.cycleError (b : BitStream) : Option LoadError :=
  let f := b.fabric
  anyError [
    firstError (f.graphs.flatMap (fun e => e.ops.map (fun o =>
      (e.onCycle o, LoadError.inside 0x10 0x0C (opItem e.graph o.num))))),
    firstError (f.graphs.map (fun e => match e.trigger with
      | .queue q => ((f.queueReach f.graphs.length (f.queueNext [e.graph])).contains e.graph, LoadError.inside 0x10 0x0C q)
      | _ => (false, LoadError.inside 0x10 0x0C 0)))]

/-! ### DEADLINE (R74, R118, R260, R261, R278) -/

/-- Longest path from an operation in service cycles, one more for each edge; no path takes the input edge of a ZDELAY. -/
def GraphEntry.pathFrom (e : GraphEntry) : Nat → OpEntry → Nat
  | 0, o => o.kind.cycles
  | n + 1, o => o.kind.cycles + (e.edges.filter (·.src == o.num)).foldl (fun m x =>
      match e.ops.find? (fun y => y.num == x.dst) with
      | some y => match y.kind with
        | .zdelay _ => m
        | _ => max m (1 + e.pathFrom n y)
      | none => m) 0

/-- C_g and W_g. -/
def GraphEntry.critical (e : GraphEntry) : Nat := e.ops.foldl (fun m o => max m (e.pathFrom e.ops.length o)) 0
def GraphEntry.work (e : GraphEntry) : Nat := (e.ops.map (·.kind.cycles)).foldl (· + ·) 0

/-- The graph is released at seam S(k). -/
def GraphEntry.atSeam (e : GraphEntry) (k : Nat) : Bool :=
  match e.trigger with
  | .seam d o => k % d == o
  | _ => false

/-- R278: at no seam at which a SEAM graph is released does the work of the SEAM graphs that are released there, meet its engine set and
have no later deadline exceed its deadline times their engines. -/
def Fabric.seamLoad (f : Fabric) (cycles : Nat) (e : GraphEntry) (d o : Nat) : Bool :=
  let rivals := f.graphs.filter (fun x => x.rt && x.engines.any (e.engines.contains ·) && decide (x.cycles cycles ≤ e.cycles cycles))
  let period := rivals.foldl (fun n x => match x.trigger with | .seam d' _ => Nat.lcm n d' | _ => n) d
  (List.range (period / d)).all (fun n =>
    let l := rivals.filter (fun x => x.atSeam (o + d * n))
    decide ((l.map (·.work)).foldl (· + ·) 0 ≤ e.cycles cycles * (l.flatMap (·.engines)).eraseDups.length))

/-- Fewest core cycles that `n` consecutive ticks of `t` cycles take in epochs of `e`, whose last tick is short (R272). -/
def shortestTicks (e t n : Nat) : Nat :=
  let per := ceilDiv e t
  n / per * e + (if n % per = 0 then 0 else (n % per - 1) * t + (e - (per - 1) * t))

/-- Shortest interval between releases in core cycles, where the bit-stream sets one (R261): it sets the period of a unit's low-voltage
bridges; those of the other channels and of the reference carriers are 0 until the host writes them.
DEDUCED (notes/assumptions/118.md). -/
def BitStream.interval (b : BitStream) (e : GraphEntry) : Option Nat :=
  match e.trigger with
  | .seam d _ => some (d * b.profile.epoch)
  | .timer p => some (shortestTicks b.profile.epoch b.profile.fabTick p)
  | .drive ch _ => (b.units.find? (fun u => (u.lvHi.take u.strings ++ u.lvLo.take u.strings).contains ch)).map (fun u => u.isoPeriod / 32)
  | .carrier .. | .stream _ | .queue _ | .reaction | .graph _ | .host => none

/-- Graphs that an arm, a drive channel's mode-2 point or a unit reads at their deadline (R74, R162). A channel whose entry names a state
point that no graph can write (below 0x2100, R31) has no mode-2 point. DEDUCED (notes/assumptions/118.md). -/
def BitStream.readGraphs (b : BitStream) : List Nat :=
  b.arms.map (·.refGraph) ++ b.units.map (·.shiftGraph)
    ++ (b.drive.filter (fun d => decide (0x2100 ≤ d.statePoint))).map (·.graph)

/-- A real-time SEAM graph of interval 1. -/
def BitStream.seamGraph (b : BitStream) (g : Nat) : Bool :=
  match b.graphEntry g with
  | some e => e.rt && e.trigger == .seam 1 0
  | none => false

/-- Code 0x11. -/
def BitStream.deadlineError (b : BitStream) : Option LoadError :=
  let cyc := b.profile.epoch
  let bad (g : Nat) : LoadError := LoadError.inside 0x11 0x0C g
  anyError [
    firstError (b.fabric.graphs.map (fun e =>
      (e.rt && (decide (e.cycles cyc < e.critical)
        || (match b.interval e with | some n => decide (n < e.cycles cyc) | none => false)
        || (match e.trigger with | .seam d o => !b.fabric.seamLoad cyc e d o | _ => false)), bad e.graph))),
    firstError (b.readGraphs.map (fun g => (!b.seamGraph g, bad g))),
    firstError (b.arms.map (fun m => (decide (b.graphDeadline m.refGraph 400 < 128), bad m.refGraph)))]

/-! ### LANE_TIMING, IMAGE_SIZE, RATE -/

/-- Code 0x12 (R81, R187, R225). -/
def BitStream.laneError (b : BitStream) : Option LoadError :=
  itemError 0x12 6 b.lanes (·.lane) (fun e => b.laneFits e b.profile.epoch)

/-- Operations that hold a ZDELAY value, and a CMP state. -/
def Fabric.zdelays (f : Fabric) : Nat :=
  ((f.graphs.flatMap (·.ops)).filter (fun o => match o.kind with | .zdelay _ => true | _ => false)).length

def Fabric.cmps (f : Fabric) : Nat :=
  ((f.graphs.flatMap (·.ops)).filter (fun o => match o.kind with | .cmp _ => true | _ => false)).length

/-- Bytes of the critical image (Table 12.2): its fixed parts, then 4 for a store word, 8 for a ZDELAY value, 1 for a CMP state, 8 for
a point (notes/assumptions/17.md). -/
def BitStream.imageBytes (b : BitStream) : Nat :=
  19520 + 4 * ((b.fabric.stores.filter (·.retained)).map (·.init.length)).foldl (· + ·) 0 + 8 * b.fabric.zdelays
    + b.fabric.cmps + 8 * b.imagePoints.length

/-- Code 0x13. -/
def BitStream.imageError (b : BitStream) : Option LoadError :=
  firstError [(decide (65536 < b.imageBytes), LoadError.inside 0x13 1 b.imageBytes)]

/-- Words that a commit of a graph mirrors. -/
def BitStream.graphWords (b : BitStream) (e : GraphEntry) : Nat :=
  e.writes.length + (e.ops.map (fun o => match o.kind with
    | .zdelay _ | .cmp _ => 1
    | k => match k.words with
      | some (a, n) => if b.retains a then n else 0
      | none => 0)).foldl (· + ·) 0

/-- Words mirrored in one shortest epoch of 400 cycles: the commits of SEAM and TIMER graphs (notes/assumptions/17.md). -/
def BitStream.mirrorWords (b : BitStream) : Nat :=
  (b.fabric.graphs.map (fun e => b.graphWords e * (match e.trigger with
    | .seam .. => 1
    | .timer p => ceilDiv 400 (max (p * b.profile.fabTick) 1)
    | .carrier .. | .drive .. | .stream _ | .queue _ | .reaction | .graph _ | .host => 0))).foldl (· + ·) 0

/-- Code 0x14 (R378, R389): 781 blocks of 8 bytes, and 192 words, in a microsecond; the shortest epoch is 1 microsecond. -/
def BitStream.rateError (b : BitStream) : Option LoadError :=
  firstError [
    (decide (781 * b.profile.ckptPeriod < ceilDiv b.imageBytes 8), LoadError.inside 0x14 1 0),
    (decide (192 < b.mirrorWords), LoadError.inside 0x14 1 1)]

/-! ### REACTION, SAFETY_WIRING -/

/-- Conditions with cell data (R285). -/
def cellData (c : Nat) : Bool := within 216 c 239 || within 256 c 511

/-- A graph's trigger takes a release of the kind (R510). -/
def BitStream.takesReaction (b : BitStream) (g : Nat) : Bool := (b.graphEntry g).any (fun e => e.trigger == .reaction)

/-- Code 0x15 (R285, R287, R510). -/
def BitStream.reactionError (b : BitStream) : Option LoadError :=
  let bad (n : Nat) : LoadError := LoadError.inside 0x15 0x0D n
  anyError [
    firstError (b.reaction.conds.map (fun e => (reservedCondition e.cond || (e.actions.contains .retire && !cellData e.cond)
      || e.actions.any (fun a => match a with | .release g => !b.takesReaction g | _ => false), bad e.cond))),
    firstError (b.reaction.modes.map (fun x => (b.reaction.modes.contains (x.1, !x.2), bad x.1))),
    firstError (b.fabric.graphs.flatMap (fun e => e.ops.map (fun o => match o.kind with
      | .release g => (!(b.graphEntry g).any (fun x => x.trigger == .graph e.graph),
          LoadError.inside 0x15 0x0C (opItem e.graph o.num))
      | _ => (false, bad 0))))]

/-- The arm, string or unit of a stop target is configured (R407). -/
def BitStream.targetOk (b : BitStream) (t : Nat) : Bool :=
  if t < 12 then (b.armEntry t).isSome && (!b.profile.sst || b.units.any (fun u => u.unit == t / 3 && decide (t % 3 < u.strings)))
  else (b.unitEntry (t - 12)).isSome

/-- Code 0x16 (R411, R414, R407). -/
def BitStream.wiringError (b : BitStream) : Option LoadError :=
  match b.safety with
  | none => none
  | some x => anyError [
      itemError 0x16 0x0F (x.pairs.filter (fun e => e.mode == 1 || e.mode == 3)) (·.pair) (fun e => e.stpA != e.stpB),
      itemError 0x16 0x0F (x.pchs.filter (fun e => e.func != 0)) (·.chan) (fun e => e.inA / 8 != e.inB / 8),
      itemError 0x16 0x0F x.targets (·.target) (fun e => b.targetOk e.target)]

/-! ### All of them -/

/-- Codes 0x09 to 0x15, which a package's composite must pass as well (R441). -/
def BitStream.compositeError (b : BitStream) : Option LoadError :=
  anyError [b.limitError, b.tableError, b.resourceError, b.alternateError, b.writerError, b.extendedError, b.storeError,
    b.cycleError, b.deadlineError, b.laneError, b.imageError, b.rateError, b.reactionError]

/-- Codes 0x08 to 0x16. -/
def BitStream.contentError (b : BitStream) (header : Nat) : Option LoadError :=
  anyError [b.rangeError header, b.compositeError, b.wiringError]

end Sys2Proof.Machine
end

