-- ==== Sys2Proof/Machine/Cfg.lean ====
section
/-! DEFINITION. The configuration block: complete loads and verifies (R437 to R439), live replacement (R440 to R444), key slots (R434)
and flash commands (R436). The contents of the sections come decoded with the command that ends a check
(notes/assumptions/12.md). -/

namespace Sys2Proof.Machine

def State.modCfg (s : State) (f : Cfg → Cfg) : State := { s with cfg := f s.cfg }

/-! ### Errors and answers -/

/-- Record an error (R437): CFG_ERR_*, one more failure. A place inside a section has no stated offset. -/
def State.recordError (s : State) (e : LoadError) : State :=
  let s := ((s.wr Reg.CFG_ERR_CODE.code 0 e.code).wr Reg.CFG_ERR_CODE.type 0 e.type).wr Reg.CFG_ERR_CODE.inst 0 e.inst
  let s := (s.count Reg.CFG_ERR_CODE.failures 0).wr Reg.CFG_ERR_ITEM.item 0 e.item
  let s := if e.code ≠ 0x0B then s
    else
      let s := (s.wr Reg.CFG_ERR_RES.resource 0 e.res).wr Reg.CFG_ERR_RES.kind 0 e.kind
      (s.wr Reg.CFG_ERR_HOLD.first 0 e.first).wr Reg.CFG_ERR_HOLD.second 0 e.second
  match e.offset with
  | some o => s.wr Reg.CFG_ERR_OFFSET.offset 0 o
  | none =>
    let d := s.draw 32
    d.2.wr Reg.CFG_ERR_OFFSET.offset 0 d.1

/-- Answer to CFG_CMD: 0 for accepted, else the reason of the refusal. -/
def State.cfgAnswer (s : State) (reason : Nat) : State :=
  (s.wr Reg.CFG_STAT.cmd_status 0 (if reason = 0 then 1 else 2)).wr Reg.CFG_STAT.reason 0 reason

/-- A load, a verify, a staging or a flash command is in progress. -/
def State.cfgBusy (s : State) : Bool :=
  s.cfg.loading || s.cfg.verifying || s.rd Reg.CFG_LR_STAT.state 0 == 1 || s.cfg.op.isSome

/-! ### Which image (R437) -/

/-- Images to try, with their bases: image 0 is A, 1 is B. None without a valid boot record. DEDUCED (notes/assumptions/76.md). -/
def State.loadOrder (s : State) : List (Nat × Nat) :=
  match s.bootRecord, s.rd Reg.CFG_CTRL.load_src 0 with
  | none, _ => []
  | some r, 1 => [(0, r.baseA)]
  | some r, 2 => [(1, r.baseB)]
  | some r, _ => if r.genA < r.genB then [(1, r.baseB), (0, r.baseA)] else [(0, r.baseA), (1, r.baseB)]

/-- The groups as one fabric (R430). -/
def mergeGroups (gs : List (Nat × Fabric)) : Fabric :=
  gs.foldl (fun f g => ⟨f.graphs ++ g.2.graphs, f.queues ++ g.2.queues, f.streams ++ g.2.streams, f.stores ++ g.2.stores,
    f.carriedOps ++ g.2.carriedOps⟩) ⟨[], [], [], [], []⟩

/-- The holder that the resource map gives a resource, none for the host (R431). -/
def BitStream.holderOf (b : BitStream) (kind n : Nat) : Option Nat :=
  (b.resources.find? (fun r => r.kind == kind && r.num == n && r.holder != .host)).map (·.holder.number)

/-- Converter cores and subscriptions with the holders that the map gives them (R339). -/
def BitStream.heldMeas (b : BitStream) : Meas :=
  { b.meas with
    cores := b.meas.cores.map (fun e => { e with held := b.holderOf 3 e.core })
    subs := b.meas.subs.map (fun e => { e with held := b.holderOf 4 e.sub }) }

/-- The table of a SHAPE section that the directory lists: a section without entries keeps a length that the load check finds
wrong. -/
def listedShape (t : List Nat) : List Nat := if t.isEmpty then [0] else t

/-- The sections of the file at `base`, decoded, with what the directory gives: of a section that the directory does not list the
bit-stream has nothing (R430). -/
def State.contents (s : State) (base : Nat) (b : BitStream) : BitStream :=
  let has (t : Nat) : Bool := s.hasSection base t 0
  let groups := b.groups.filter (fun g => s.hasSection base 0x0C g.1)
  let orders := if has 0x0A then b.orders else BitStream.empty.orders
  { b with
    units := if has 5 then b.units else []
    eq := if has 7 then b.eq else []
    drive := if has 8 then b.drive else []
    meas := if has 9 then b.heldMeas else BitStream.empty.meas
    orders := { orders with
      shapes := (List.range 4).map (fun n => if s.hasSection base 0x0B n then listedShape (b.orders.shapes.getD n []) else []) }
    groups := groups, fabric := mergeGroups groups
    reaction := if has 0x0D then b.reaction else BitStream.empty.reaction
    laneSets := if has 0x0D then b.laneSets else []
    ring := if has 0x0E then b.ring else none
    safety := if has 0x0F then b.safety.map (fun x => { x with digest := s.safetyDigest base }) else none }

/-- The check of a complete bit-stream (Table 14.5). -/
def State.streamError (s : State) (base : Nat) (b : BitStream) : Option LoadError :=
  match s.fileError base with
  | some e => some e
  | none => (s.contents base b).contentError (s.flashWord (base + 7) 1)

/-- The file carries another safety section than the one in effect, and a target is neither BLOCKED nor UNUSED (R405).
DEDUCED (notes/assumptions/79.md). -/
def State.safetyHeld (s : State) (base : Nat) : Bool :=
  (s.formatError base false).isNone && s.hasSection base 0x0F 0 && s.safetyDigest base != s.rd Reg.SAF_CFG_DIGEST.digest 0
    && (match s.bs.safety with
        | some x => x.targets.any (fun t => s.target t.target != 0 && s.target t.target != 3)
        | none => false)

/-- Arms and units that are neither BLOCKED nor OFF. -/
def State.armsRunning (s : State) : Bool :=
  s.bs.arms.any (fun m => s.armState m.arm != 0 && s.armState m.arm != 7) || s.bs.units.any (fun u => decide (1 < (s.unit u.unit).state))

/-- LOAD (R437, R439). -/
def execLoad (s : State) : Host.Outcome State Fault Refusal := byHost (fun s =>
  .next (
    if s.armsRunning then s.cfgAnswer 1
    else if s.loadOrder.head?.any (fun x => s.safetyHeld x.2) then s.cfgAnswer 2
    else if s.cfgBusy then s.cfgAnswer 3
    else if s.rd Reg.CFG_LR_STAT.state 0 = 3 then s.cfgAnswer 4
    else ((s.cfgAnswer 0).showBoot.wr Reg.CFG_STAT.state 0 1).modCfg (fun c => { c with loading := true, order := s.loadOrder }))) s

/-- VERIFY (R439). DEDUCED (notes/assumptions/77.md). -/
def execVerify (s : State) : Host.Outcome State Fault Refusal := byHost (fun s =>
  .next (if s.cfgBusy then s.cfgAnswer 3 else ((s.cfgAnswer 0).showBoot).modCfg
      (fun c => { c with verifying := true, order := s.loadOrder }))) s

/-- Event 0x801. DEDUCED (notes/assumptions/78.md). -/
def State.loadFailed (s : State) (e : LoadError) (verify : Bool) : State :=
  (s.recordError e).raise 0x801 0 (e.code + 2 ^ 8 * (e.type % 2 ^ 16) + 2 ^ 24 * (e.inst % 2 ^ 16) + 2 ^ 63 * bit verify)

/-- No valid boot record: no image can be found. -/
def noRecord : LoadError := LoadError.field 1 0 0

/-- VERIFY_COMPLETE: `a` and `b` are the decoded contents of images A and B. DEDUCED (notes/assumptions/77.md). -/
def execVerifyComplete (a b : BitStream) (s : State) : Host.Outcome State Fault Refusal :=
  .next (if !s.cfg.verifying then s
    else
      let l := s.cfg.order
      let s := s.modCfg (fun c => { c with verifying := false, order := [] })
      match l.head? with
      | none => s.loadFailed noRecord true
      | some (i, base) =>
        match s.streamError base (if i = 0 then a else b) with
        | some e => s.loadFailed e true
        | none => s.raise 0x800 0 (compositeDigest (s.fileHashes base) + 2 ^ 32 * i + 2 ^ 63))

/-! ### The start of a bit-stream (R438) -/

/-- CFG fields that show the file. -/
def State.showFile (s : State) (base : Nat) : State :=
  let d := compositeDigest s.cfg.hashes
  let s := ((s.wr Reg.CFG_DIGEST.digest 0 d).wr Reg.CFG_BASE_DIGEST.digest 0 d).wr Reg.CFG_PREV_DIGEST.digest 0 0
  let s := (List.range 4).foldl (fun (s : State) n => s.wr Reg.CFG_PRED.digest n (s.flashWord (base + 32 + 4 * n) 4)) s
  let s := (s.wr Reg.CFG_BUILD.build 0 (s.flashWord (base + 48) 4)).wr Reg.CFG_VERSION.format 0 (s.flashWord (base + 4) 2)
  let s := (s.wr Reg.CFG_VERSION.stepping 0 (s.flashWord (base + 6) 1)).wr Reg.CFG_VERSION.key_slot 0 (s.flashWord (base + 14) 1)
  let s := (s.wr Reg.CFG_VERSION.safety_slot 0 (s.flashWord (base + 15) 1)).wr Reg.CFG_SIZE.bytes 0 (s.flashWord (base + 8) 4)
  let s := (s.wr Reg.CFG_SECTIONS.sections 0 s.cfg.hashes.length).wr Reg.CFG_SECTIONS.replaced 0 0
  let s := ((s.wr Reg.CFG_LR_STAT.state 0 0).wr Reg.CFG_LR_STAT.code 0 0).wr Reg.CFG_LR_STAT.sections 0 0
  (s.wr Reg.RED_DIGEST.digest 0 d).wr Reg.RED_CKPT_SIZE.bytes 0 s.bs.imageBytes

/-- The redundancy controller when a bit-stream starts: nothing in progress, the binding record empty, slots of another digest invalid. -/
def State.redStart (s : State) : State :=
  let s := s.modRed (fun r => { Red.reset with
    lineAt := r.lineAt, ringAt := r.ringAt, lineOther := r.lineOther, ringOther := r.ringOther, wasActive := r.wasActive
    slot0 := r.slot0, slot1 := r.slot1, slow := r.slow, sweep := r.sweep, txSeq := r.txSeq, msgSeq := r.msgSeq, seen := r.seen })
  let s := ((s.wr Reg.RED_STAT.handover 0 0).wr Reg.RED_MIRROR_STAT.active 0 0).wr Reg.RED_CKPT_STAT.rx_busy 0 0
  let s := (s.wr Reg.RED_CKPT_STAT.tx_busy 0 0).setCond 241 false
  [0, 1].foldl (fun (s : State) n =>
    let x := s.slot n
    if x.valid && !s.ownDigest x.image.digest then s.setSlot n { x with valid := false } else s) s

/-- The role follows R372; domains follow the role (Table 15.3). -/
def State.startRole (s : State) : State :=
  let strap := s.rd Reg.RED_STAT.strap 0
  let s := if strap = 0 then (match s.takeClaim with
      | some t => t.becomeActive s.epo.k
      | none => s.raise 0x611 0 0)
    else if strap = 3 then s.strapInvalid false
    else s.setRole 0
  s.applyDomains s.role

/-- A checked bit-stream starts; the previous one stops. -/
def State.startImage (s : State) (image base : Nat) (b : BitStream) (fallback : Bool) : State :=
  let boot := s.rd Reg.PWR_BOOT_STAT.step 0 != 6
  let s := { s with bs := b }.modCfg (fun c => { c with
    extent := (base, s.flashWord (base + 8) 4), staged := none, hashes := sortHashes (s.fileHashes base) })
  let s := ((s.wr Reg.CFG_STAT.state 0 3).wr Reg.CFG_STAT.image 0 image).wr Reg.CFG_STAT.fallback 0 (bit fallback)
  let s := ((s.showFile base).begin).redStart
  let s := if boot then
      (s.wr Reg.PWR_BOOT_TIME.us 0 ((s.cycle - s.pwr.releasedAt) / 400)).wr Reg.PWR_BOOT_STAT.step 0 6
    else s
  (s.startRole).raise 0x800 0 (s.rd Reg.CFG_DIGEST.digest 0 + 2 ^ 32 * image)

/-- Try the images in order. DEDUCED (notes/assumptions/78.md). -/
def State.tryImages (s : State) (a b : BitStream) (fallback : Bool) : List (Nat × Nat) → State × Bool
  | [] => (s, false)
  | (i, base) :: l =>
    let c := if i = 0 then a else b
    match s.streamError base c with
    | none =>
      if s.safetyHeld base then (s.cfgAnswer 2, false)
      else (s.startImage i base (s.contents base c) fallback, true)
    | some e =>
      let s := s.loadFailed e false
      let s := if l.isEmpty then s else s.raise 0x802 0 (i + 2 ^ 8 * e.code)
      s.tryImages a b true l

/-- LOAD_COMPLETE (R437, R438, R465): the decoded contents of images A and B come with the command. Without a bit-stream to run, only
AON, RET, LINK, PNT and SAF stay ON. -/
def execLoadComplete (a b : BitStream) (s : State) : Host.Outcome State Fault Refusal :=
  .next (if !s.cfg.loading then s
    else
      let l := s.cfg.order
      let s := s.modCfg (fun c => { c with loading := false, order := [] })
      let s := if l.isEmpty then s.loadFailed noRecord false else s
      let r := s.tryImages a b false l
      if r.2 then r.1
      else if s.running then (r.1.wr Reg.CFG_STAT.state 0 3).wr Reg.CFG_STAT.fallback 0 0
      else
        let s := (r.1.wr Reg.CFG_STAT.state 0 4).wr Reg.PWR_BOOT_STAT.step 0 7
        [4, 5, 6, 7, 8, 9, 10].foldl (fun (s : State) d => s.sleepDomain d 0) s)

/-! ### Live replacement (R440 to R444) -/

/-- A package's section put in effect. A fabric group of length 0 goes. -/
def BitStream.replace (b : BitStream) : LrPart → BitStream
  | .fabric n f =>
    let rest := b.groups.filter (fun g => g.1 != n)
    { b with groups := match f with | some x => rest ++ [(n, x)] | none => rest }
  | .shape n words =>
    let l := (List.range 4).map (fun i => if i = n then words else b.orders.shapes.getD i [])
    { b with orders := { b.orders with shapes := l } }
  | .reaction r sets => { b with reaction := r, laneSets := sets }

/-- The decoded contents of a section of a package, as the command gives them; a FABRIC section of length 0 has none. -/
def partOf (parts : List LrPart) (e : DirEntry) : Option LrPart :=
  if e.type = 0x0C ∧ e.length = 0 then some (.fabric e.inst none)
  else parts.find? (fun p => match p with
    | .fabric n (some _) => e.type == 0x0C && e.inst == n
    | .fabric _ none => false
    | .shape n _ => e.type == 0x0B && e.inst == n
    | .reaction .. => e.type == 0x0D && e.inst == 0)

/-- The sections that the directory of the package lists, decoded (R440). -/
def State.packageParts (s : State) (base : Nat) (parts : List LrPart) : List LrPart := (s.directory base).filterMap (partOf parts)

/-- A listed section without contents fails as one whose fields are out of range. -/
def State.partMissing (s : State) (base : Nat) (parts : List LrPart) : Option LoadError :=
  firstError ((s.directory base).map (fun e => ((partOf parts e).isNone, ⟨8, e.type, e.inst, 0, 0, 0, 0, 0, none⟩)))

/-- Groups that a package names. -/
def touched (parts : List LrPart) : List Nat :=
  parts.filterMap (fun p => match p with | .fabric n _ => some n | .shape .. => none | .reaction .. => none)

/-- The composite: groups that the package leaves alone keep all they hold; a carried store of another size begins anew (R433). -/
def BitStream.composite (b : BitStream) (parts : List LrPart) : BitStream :=
  let c := parts.foldl BitStream.replace b
  let mark (g : Nat × Fabric) : Nat × Fabric :=
    if (touched parts).contains g.1 then
      (g.1, { g.2 with stores := g.2.stores.map (fun e => { e with
        carried := e.carried && b.fabric.stores.any (fun x => x.store == e.store && x.init.length == e.init.length) }) })
    else (g.1, { g.2 with
      stores := g.2.stores.map (fun e => { e with carried := true })
      carriedOps := (g.2.graphs.flatMap (·.ops)).map (·.num) })
  { c with fabric := mergeGroups (c.groups.map mark) }

/-- Values of a package's sections (code 0x08). -/
def partError : LrPart → Option LoadError
  | .fabric n f => firstError (f.toList.map (fun x => (!x.ok, ⟨8, 0x0C, n, 0, 0, 0, 0, 0, none⟩)))
  | .shape n w => firstError [(!shapesOk [w], ⟨8, 0x0B, n, 0, 0, 0, 0, 0, none⟩)]
  | .reaction r sets => anyError [entryError 8 0x0D r.conds CondEntry.ok,
      entryError 8 0x0D sets (fun e => decide (e.1 < 16) && e.2.all (fun l => decide (l < 96)))]

/-- Code 0x22: what a package carries exists in the definitions in effect. DEDUCED (notes/assumptions/82.md). -/
def BitStream.carryError (b : BitStream) : LrPart → Option LoadError
  | .fabric n (some f) => firstError (
      f.stores.map (fun e => (e.carried && !b.fabric.stores.any (fun x => x.store == e.store), ⟨0x22, 0x0C, n, e.store, 0, 0, 0, 0, none⟩))
        ++ f.carriedOps.map (fun o => (!b.fabric.graphs.any (fun g => g.ops.any (fun x => x.num == o)), ⟨0x22, 0x0C, n, o, 0, 0, 0, 0, none⟩)))
  | .fabric _ none => none
  | .shape .. => none
  | .reaction .. => none

/-- The check of a package (R441, Table 14.6); the header's personality must be the profile's (Table 14.1). -/
def State.packageError (s : State) (base : Nat) (parts : List LrPart) : Option LoadError :=
  let d := s.directory base
  match s.formatError base true <|> s.authError base <|> duplicateError d with
  | some e => some e
  | none =>
    match firstError [(s.flashWord (base + 16) 4 != s.rd Reg.CFG_DIGEST.digest 0, LoadError.field 0x20 0 16)] with
    | some e => some e
    | none =>
      match firstError ((indexed d).map (fun x => (!replaceable x.1.type,
          ⟨0x21, x.1.type, x.1.inst, x.2, 0, 0, 0, 0, some (256 + 64 * x.2)⟩))) with
      | some e => some e
      | none => anyError ([firstError [(s.flashWord (base + 7) 1 != bit s.bs.profile.sst, LoadError.field 8 0 7)], s.partMissing base parts]
          ++ parts.map partError ++ parts.map s.bs.carryError ++ [(s.bs.composite parts).compositeError])

/-- LR_STAGE (R441). -/
def execLrStage (s : State) : Host.Outcome State Fault Refusal := byHost (fun s =>
  .next (if s.cfgBusy ∨ s.rd Reg.CFG_LR_STAT.state 0 = 2 ∨ s.rd Reg.CFG_LR_STAT.state 0 = 3 then (s.cfgAnswer 3).raise 0x804 0 3
    else
      let base := s.rd Reg.CFG_LR_ADDR.addr 0
      (((s.cfgAnswer 0).wr Reg.CFG_LR_STAT.state 0 1).wr Reg.CFG_LR_STAT.code 0 0).modCfg
        (fun c => { c with staged := some ⟨[], base, 0, [], 0, false⟩ }))) s

/-- LR_STAGE_COMPLETE (R441): `parts` are the decoded sections of the package. -/
def execLrStageComplete (parts : List LrPart) (s : State) : Host.Outcome State Fault Refusal :=
  .next (match s.cfg.staged, s.rd Reg.CFG_LR_STAT.state 0 with
    | some p, 1 =>
      let parts := s.packageParts p.base parts
      match s.packageError p.base parts with
      | some e => (((s.recordError e).wr Reg.CFG_LR_STAT.state 0 5).wr Reg.CFG_LR_STAT.code 0 e.code).raise 0x804 0 e.code
      | none =>
        let s := s.modCfg (fun c => { c with
          staged := some ⟨parts, p.base, s.flashWord (p.base + 8) 4, s.fileHashes p.base, 0, p.bad⟩ })
        let s := (s.wr Reg.CFG_LR_STAT.state 0 2).wr Reg.CFG_LR_STAT.sections 0 (s.flashWord (p.base + 12) 2)
        s.raise 0x803 0 (s.flashWord (p.base + 16) 4)
    | _, _ => s)

/-- Target epoch of CFG_LR_TGT. -/
def State.lrTarget (s : State) : Nat := s.rdPair Reg.CFG_LR_TGT_LO.target_lo Reg.CFG_LR_TGT_HI.target_hi 0

/-- The epoch that the package is armed for. -/
def State.armedFor (s : State) : Nat := (s.cfg.staged.map (·.target)).getD 0

/-- LR_ARM (R442): the target is the one that the registers hold then. -/
def execLrArm (s : State) : Host.Outcome State Fault Refusal := byHost (fun s =>
  let refuse (r : Nat) : State := (s.cfgAnswer r).raise 0x804 0 r
  .next (if s.rd Reg.CFG_LR_STAT.state 0 ≠ 2 then refuse 8
    else if s.lrTarget < s.epo.k + 2 then refuse 5
    else if s.epo.k + 2 ^ 24 < s.lrTarget then refuse 6
    else if s.flag Reg.RED_STAT.handover 0 then refuse 7
    else ((s.cfgAnswer 0).wr Reg.CFG_LR_STAT.state 0 3).modCfg
      (fun c => { c with staged := c.staged.map (fun p => { p with target := s.lrTarget }) }))) s

/-- LR_CANCEL (R442): in time when it is recorded before S(target - 1). -/
def execLrCancel (s : State) : Host.Outcome State Fault Refusal := byHost (fun s =>
  let refuse (r : Nat) : State := (s.cfgAnswer r).raise 0x804 0 r
  .next (if s.rd Reg.CFG_LR_STAT.state 0 ≠ 3 then refuse 8
    else if s.armedFor ≤ s.epo.k + 1 then refuse 5
    else ((s.cfgAnswer 0).wr Reg.CFG_LR_STAT.state 0 2).raise 0x806 0 0)) s

/-- LR_DISCARD (R442). -/
def execLrDiscard (s : State) : Host.Outcome State Fault Refusal := byHost (fun s =>
  let st := s.rd Reg.CFG_LR_STAT.state 0
  .next (if st = 2 ∨ st = 5 then
      (((s.cfgAnswer 0).wr Reg.CFG_LR_STAT.state 0 0).modCfg (fun c => { c with staged := none })).raise 0x806 0 1
    else (s.cfgAnswer 8).raise 0x804 0 8)) s

/-- A replaced shape table is written into the shadow bank and swapped in (R309, R443). -/
def State.swapShape (s : State) (n : Nat) (words : List Nat) : State :=
  let bank := bit (!s.bitAt Reg.ORD_TBL_CTRL.bank 0 n)
  let s := (List.range words.length).foldl (fun (s : State) i =>
    s.modOrd (fun o => { o with tables := tabSet Pt.clear o.tables (shapePos bank n i) ⟨words.getD i 0, false⟩ })) s
  (s.wr Reg.ORD_TBL_CTRL.bank 0 (s.rd Reg.ORD_TBL_CTRL.bank 0 ^^^ 2 ^ n)).raise 0xB15 n s.epo.k

/-- Hashes of the sections in effect once a package is applied. -/
def newHashes (s : State) (p : Staged) : List (Nat × Nat × List Byte) :=
  let gone := p.parts.filterMap (fun x => match x with | .fabric n none => some n | .fabric _ (some _) => none | .shape .. => none | .reaction .. => none)
  (p.hashes.foldl (fun t x => insertHash x t) s.cfg.hashes).filter (fun x => !(x.1 == 0x0C && gone.contains x.2.1))

/-- The package takes effect at the first seam at or after S(target) (R443, R444). Without power for the fabric only the definitions
change. DEDUCED (notes/assumptions/82.md). A package with a poisoned word fails there: a section no longer has its hash.
DESIGN CHOICE (notes/assumptions/122.md). -/
def State.packageSeam (s : State) : State :=
  match s.cfg.staged with
  | none => s
  | some p =>
    if s.rd Reg.CFG_LR_STAT.state 0 ≠ 3 ∨ s.epo.k < p.target then s
    else if p.bad then ((s.wr Reg.CFG_LR_STAT.state 0 5).wr Reg.CFG_LR_STAT.code 0 5).raise 0x804 0 5
    else
      let old := s.bs
      let s := { s with bs := old.composite p.parts }
      let s := if s.domain 3 = 2 then s.fabReplace old.fabric else s.showTables
      let s := p.parts.foldl (fun (s : State) x => match x with
        | .shape n w => s.swapShape n w
        | .reaction .. => s.rewire old.reaction.conds
        | .fabric .. => s) s
      let h := newHashes s p
      let d := compositeDigest h
      let s := (s.wr Reg.CFG_PREV_DIGEST.digest 0 (s.rd Reg.CFG_DIGEST.digest 0)).wr Reg.CFG_DIGEST.digest 0 d
      let s := (s.wr Reg.RED_DIGEST.digest 0 d).wr Reg.RED_CKPT_SIZE.bytes 0 s.bs.imageBytes
      let s := (s.wr Reg.CFG_SECTIONS.sections 0 h.length).count Reg.CFG_SECTIONS.replaced 0
      let s := (s.wr Reg.CFG_LR_STAT.state 0 4).modCfg (fun c => { c with staged := none, hashes := h })
      s.raise 0x805 0 (d + 2 ^ 32 * (s.epo.k % 2 ^ 32))

/-! ### Key slots (R434) -/

def State.keySlot (s : State) (n : Nat) : KeySlot := tabGet KeySlot.blank s.cfg.keys n
def State.setKey (s : State) (n : Nat) (k : KeySlot) : State := s.modCfg (fun c => { c with keys := tabSet KeySlot.blank c.keys n k })

/-- KEY_DATA_WRITE: the next of the 12 hash words. DEDUCED (notes/assumptions/84.md). -/
def execKeyDataWrite (value : Nat) (s : State) : Host.Outcome State Fault Refusal := byHost (fun s =>
  .next (if 12 ≤ s.cfg.words.length then s
    else (s.modCfg (fun c => { c with words := c.words ++ [value % 2 ^ 32] })).wr Reg.CFG_KEY_CTRL.index 0 (s.cfg.words.length + 1))) s

/-- The slot that a write of CFG_KEY_CTRL names; 6 and 7 are out of range (R30). -/
def State.onSlot (s : State) (slot : Fin 8) (f : State → State) : State :=
  if 5 < slot.val then s.rejectWrite Reg.CFG_KEY_CTRL.slot.addr else f (s.wr Reg.CFG_KEY_CTRL.slot 0 slot)

/-- KEY_PROGRAM. DEDUCED (notes/assumptions/84.md). -/
def execKeyProgram (slot : Fin 8) (s : State) : Host.Outcome State Fault Refusal := byHost (fun s =>
  .next (s.onSlot slot (fun s =>
    if (s.keySlot slot).hash.isSome then s.wr Reg.CFG_KEY_CTRL.status 0 2
    else if s.cfg.words.length < 12 then s.wr Reg.CFG_KEY_CTRL.status 0 3
    else
      let h := wordLE (s.cfg.words.flatMap (bytesLE 4))
      let s := (s.setKey slot { s.keySlot slot with hash := some h }).modCfg (fun c => { c with words := [] })
      ((s.wr Reg.CFG_KEY_CTRL.index 0 0).wr Reg.CFG_KEY_CTRL.status 0 1).raise 0x807 0 slot.val))) s

/-- KEY_REVOKE: another programmed slot of the same use must remain. -/
def execKeyRevoke (slot : Fin 8) (s : State) : Host.Outcome State Fault Refusal := byHost (fun s =>
  .next (s.onSlot slot (fun s =>
    let peers := if slot.val < 4 then [0, 1, 2, 3] else [4, 5]
    if peers.any (fun n => n != slot.val && (s.keySlot n).hash.isSome && !(s.keySlot n).revoked) then
      let was := (s.keySlot slot).revoked
      let s := (s.setKey slot { s.keySlot slot with revoked := true }).wr Reg.CFG_KEY_CTRL.status 0 1
      if was then s else s.raise 0x807 0 (slot.val + 8)
    else s.wr Reg.CFG_KEY_CTRL.status 0 4))) s

/-! ### Flash (R436, R446) -/

/-- A command that ends at once with a status. -/
def State.flashEnds (s : State) (status : Nat) : State := s.wr Reg.CFG_FLASH_CMD.status 0 status

/-- Begin a flash command on `n` bytes at CFG_FLASH_ADDR; `changes` for a program or an erase. One given while another runs is discarded
as a refused write (R5).
DESIGN CHOICE (notes/assumptions/5.md). DEDUCED (notes/assumptions/83.md). -/
def State.flashCommand (s : State) (cmd n : Nat) (changes : Bool) : State :=
  let a := s.rd Reg.CFG_FLASH_ADDR.addr 0
  let refuse (status : Nat) : State := (s.flashEnds status).raise 0x808 0 (status + 2 ^ 32 * a)
  if s.cfg.op.isSome then s.rejectWrite Reg.CFG_FLASH_CMD.busy.addr
  else if a % n ≠ 0 ∨ Config.flashBytes ≤ a then s.flashEnds 4
  else if changes && s.flashInUse a n then refuse 2
  else if changes && s.flag Reg.CFG_CTRL.flash_wp 0 then refuse 3
  else ((s.flashEnds 0).wr Reg.CFG_FLASH_CMD.busy 0 1).modCfg (fun c => { c with op := some ⟨cmd, a⟩ })

def execFlashReadPage (s : State) : Host.Outcome State Fault Refusal :=
  byHost (fun s => .next (s.flashCommand 1 256 false)) s
def execFlashProgramPage (s : State) : Host.Outcome State Fault Refusal :=
  byHost (fun s => .next (s.flashCommand 2 256 true)) s
def execFlashEraseSector (s : State) : Host.Outcome State Fault Refusal :=
  byHost (fun s => .next (s.flashCommand 3 4096 true)) s

/-- Bytes of the page buffer; a byte not written since power-up reads 0. -/
def State.pageBytes (s : State) : List Nat := tabGetList 0 s.cfg.page 0 256

/-- What a command does to flash or page buffer. DEDUCED (notes/assumptions/83.md). -/
def State.flashEffect (s : State) (o : FlashOp) : State :=
  if o.cmd = 1 then s.modCfg (fun c => { c with page := tabSetList 0 c.page 0 (tabGetList 0xFF c.flash o.addr 256) })
  else if o.cmd = 2 then s.modCfg (fun c => { c with flash := tabSetList 0xFF c.flash o.addr s.pageBytes })
  else s.modCfg (fun c => { c with flash := tabDrop (fun a => decide (o.addr ≤ a) && decide (a < o.addr + 4096)) c.flash })

/-- FLASH_COMMAND_DONE (R436): the part reports whether it succeeded. -/
def execFlashCommandDone (ok : Bool) (s : State) : Host.Outcome State Fault Refusal :=
  .next (match s.cfg.op with
    | none => s
    | some o =>
      let s := (s.modCfg (fun c => { c with op := none })).wr Reg.CFG_FLASH_CMD.busy 0 0
      if ok then ((s.flashEffect o).flashEnds 1).showBoot else (s.flashEnds 5).raise 0x809 0 (2 ^ 32 * o.addr))

/-- An access to CFG_FLASH_DATA (R446): the word of the page buffer at CFG_FLASH_ADDR, which advances by 4. -/
def State.flashAccess (s : State) (write : Bool) (req value : Nat) : State :=
  let a := s.rd Reg.CFG_FLASH_ADDR.addr 0
  let i := a % 256 / 4 * 4
  let s := if write then s.modCfg (fun c => { c with page := tabSetList 0 c.page i ((bytesLE 4 value).map (·.toNat)) })
    else
      let w := wordLE ((tabGetList 0 s.cfg.page i 4).map (BitVec.ofNat 8))
      { s with host := { s.host with rdata := some ⟨req, Reg.CFG_FLASH_DATA.data.addr, .ok, [w]⟩ } }
  s.wr Reg.CFG_FLASH_ADDR.addr 0 (a + 4)

/-- FLASH_DATA_ACCESS (R446). -/
def execFlashDataAccess (write : Bool) (req value : Nat) (s : State) : Host.Outcome State Fault Refusal :=
  if write then byHost (fun s => .next (s.flashAccess true req value)) s
  else byReader req Reg.CFG_FLASH_DATA.data.addr (fun s => .next (s.flashAccess false req value)) s

end Sys2Proof.Machine
end

