-- ==== Sys2Proof/Machine/Pwr.lean ====
section
/-! DEFINITION. Power, clocks and reset (R447 to R470): requests for domains, wakes and faults, reset and its release, DORMANT, the
retention store, temperature and supplies. Measured values (temperature, supply, source of a wake, straps) come with the
command. -/

namespace Sys2Proof.Machine

/-! ### Domain requests (R450) -/

/-- Set a domain's bit of PWR_DOM_REQ. -/
def State.setRequest (s : State) (d : Nat) (on : Bool) : State :=
  if d = 4 then s.wr Reg.PWR_DOM_REQ.fab_w 0 (bit on)
  else if d = 5 then s.wr Reg.PWR_DOM_REQ.fab_e 0 (bit on)
  else if d = 10 then s.wr Reg.PWR_DOM_REQ.ana 0 (bit on)
  else s.setBit Reg.PWR_DOM_REQ.lq 0 (d - 6) on

/-- An arm that is neither BLOCKED nor OFF. -/
def State.armActs (s : State) (a : Nat) : Bool := (s.bs.armEntry a).isSome && s.armState a != 0 && s.armState a != 7

/-- A used lane of a quadrant carries cells of an arm or a unit that is neither BLOCKED nor OFF. -/
def State.quadInUse (s : State) (q : Nat) : Bool :=
  s.bs.lanes.any (fun e => e.members.any (fun l => l / 24 == q) && (s.bs.laneCells e.lane).any (fun c =>
    match c.arm.orElse (fun _ => c.front.bind s.cellArm) with
    | some a => s.armActs a || (s.bs.profile.sst && s.bs.units.any (fun u => u.unit == a / 3) && decide (1 < (s.unit (a / 3)).state))
    | none => false))

/-- Cause of a refusal (event 0x901), 0 for none. -/
def State.retainRefusal (s : State) (d : Nat) : Nat :=
  if d = 4 ∨ d = 5 then
    (if (domainArms d).any s.armActs then 1
     else if d = 4 ∧ s.bs.orders.ramps.any (fun e => (s.ramp e.ramp).state != 0 && (s.ramp e.ramp).state != 5) then 2 else 0)
  else if 6 ≤ d ∧ d < 10 then (if s.quadInUse (d - 6) then 3 else 0)
  else if s.bs.safety.any (fun x => x.pchs.any (fun e => e.func != 0)) then 4
  else 0

/-- One bit of a write of PWR_DOM_REQ; outside the roles that keep the fabric ON the bit is only kept.
DEDUCED (notes/assumptions/87.md). -/
def State.request (s : State) (d : Nat) (on : Bool) : State :=
  if !s.running || sleepsIn s.role then s.setRequest d on
  else if on then
    let s := s.setRequest d true
    if s.roleDomain s.role d = 2 then s.wakeDomain d else s
  else if !s.domainAsked d then s
  else if s.retainRefusal d = 0 then (s.setRequest d false).sleepDomain d 1
  else
    let s := (s.wr Reg.PWR_DOM_STAT.refuse 0 d).count Reg.PWR_DOM_CNT.refused d
    s.raise 0x901 d (s.retainRefusal d)

/-- DOMAIN_REQUEST: a write of PWR_DOM_REQ. -/
def execDomainRequest (value : Nat) (s : State) : Host.Outcome State Fault Refusal := byHost (fun s =>
  .next (s.mirrorOf ([4, 5, 6, 7, 8, 9, 10].foldl (fun (s : State) d => s.request d (value / 2 ^ (d - 4) % 2 == 1)) s))) s

/-- DOMAIN_WAKE_DONE (R453). -/
def execDomainWakeDone (domain : Fin 12) (s : State) : Host.Outcome State Fault Refusal :=
  .next (s.mirrorOf (if s.domain domain = 3 then s.wakeDone domain else s))

/-- DOMAIN_FAULT (R452): back to the previous state; in a take-over the unit returns to STANDBY. -/
def execDomainFault (domain : Fin 12) (s : State) : Host.Outcome State Fault Refusal :=
  let d : Nat := domain
  .next (match s.pwr.waking.find? (fun x => x.1 == d) with
    | none => s
    | some x =>
      let s := s.modPwr (fun p => { p with waking := p.waking.filter (fun y => y.1 != d), quadFrom := p.quadFrom.filter (fun y => y.1 + 6 != d) })
      let s := (((s.setDomain d x.2.2).setBit Reg.PWR_DOM_ERR.fault 0 d true).raise 0x902 d 2)
      if s.role = 2 then
        (s.modRed (fun r => { r with restoring := 0, restored := none, restoreDone := false })).setRole 1
      else s)

/-- PLL_UNLOCK (R455): 0 core, 1 link, 2 + quad. The core PLL runs as Table 15.3 says, whichever of its domains are ON. -/
def execPllUnlock (pll : Fin 26) (s : State) : Host.Outcome State Fault Refusal :=
  let n : Nat := pll
  let on : Bool := if n = 0 then s.flag Reg.PWR_STAT.core_pll 0 else s.domain (if n = 1 then 2 else 6 + (n - 2) / 6) == 2
  .next (if !on then s
    else ((s.wr Reg.PWR_CLK_STAT.pll_unlock 0 1).count Reg.PWR_CLK_STAT.unlock_cnt 0).raise 0x903 n s.clk.count)

/-! ### Temperature and the retention store (R456, R457) -/

/-- Refresh period by temperature in 1/16 °C, with 5 °C of hysteresis on the way down. -/
def refreshPeriod (old : Nat) (t : Int) : Nat :=
  if 1680 < t then 2
  else if old = 2 ∧ 1600 < t then 2
  else if 1360 < t then 1
  else if old ≠ 0 ∧ 1280 < t then 1
  else 0

/-- A die temperature measured. DEDUCED (notes/assumptions/88.md). -/
def State.temperature (s : State) (tj : Nat) : State :=
  let t := signedOf 16 tj
  let s := s.wr Reg.PWR_TEMP.tj 0 tj
  let s := if signedOf 16 (s.rd Reg.PWR_TEMP.max 0) < t then s.wr Reg.PWR_TEMP.max 0 tj else s
  s.wr Reg.PWR_RET_STAT.period 0 (refreshPeriod (s.rd Reg.PWR_RET_STAT.period 0) t)

def execTempHigh (tj : Nat) (s : State) : Host.Outcome State Fault Refusal :=
  let s := s.temperature tj
  .next (if s.flag Reg.PWR_CTRL.temp_ev 0 && decide (signedOf 16 (s.rd Reg.PWR_TEMP_LIMIT.high 0) < signedOf 16 tj) then
      s.raise 0x906 0 (tj % 2 ^ 16)
    else s)

def execTempNormal (tj : Nat) (s : State) : Host.Outcome State Fault Refusal :=
  let s := s.temperature tj
  .next (if s.flag Reg.PWR_CTRL.temp_ev 0 && decide (signedOf 16 tj < signedOf 16 (s.rd Reg.PWR_TEMP_LIMIT.low 0)) then
      s.raise 0x907 0 (tj % 2 ^ 16)
    else s)

/-- RET_REFRESH: one sweep at the temperature measured; `late` when a row's refresh fell more than half a period late.
DEDUCED (notes/assumptions/88.md). -/
def execRetRefresh (tj : Nat) (late : Bool) (s : State) : Host.Outcome State Fault Refusal :=
  .next (if s.flag Reg.PWR_RET_CTRL.off 0 then s
    else
      let p := s.rd Reg.PWR_RET_STAT.period 0
      let s := (s.count Reg.PWR_REFRESH_CNT.sweeps 0).temperature tj
      if late then (s.wr Reg.PWR_RET_STAT.late 0 1).raise 0x90A 0 p else s)

/-- Slots, binding record, slow benches and the staged package of the retention store are lost. -/
def State.loseRetention (s : State) : State :=
  let s := ((s.setSlot 0 Slot.empty).setSlot 1 Slot.empty).modCfg (fun c => { c with staged := none })
  let s := if s.rd Reg.CFG_LR_STAT.state 0 = 2 ∨ s.rd Reg.CFG_LR_STAT.state 0 = 3 then
      (s.wr Reg.CFG_LR_STAT.state 0 0).wr Reg.CFG_LR_STAT.sections 0 0 else s
  (s.wr Reg.RED_CKPT_STAT.rx_busy 0 0).modRed (fun r => { r with rx := none, bind := ⟨[], []⟩, slow := [] })

/-- RET_OFF (R448): a write of PWR_RET_CTRL; only a single unit may turn RET off. DEDUCED (notes/assumptions/87.md). -/
def execRetOff (off : Bool) (s : State) : Host.Outcome State Fault Refusal := byHost (fun s =>
  .next (if s.rd Reg.RED_STAT.strap 0 ≠ 0 then s.rejectWrite Reg.PWR_RET_CTRL.off.addr
    else if off then ((s.wr Reg.PWR_RET_CTRL.off 0 1).setDomain 1 0).loseRetention
    else (s.wr Reg.PWR_RET_CTRL.off 0 0).setDomain 1 2)) s

/-! ### Reset (R458 to R465) -/

/-- Fields that a reset leaves: those of the always-on domain (Tables 15.8, 11.6), the time base's terms, and what shows the state of
supplies, clocks and die. DEDUCED (notes/assumptions/86.md). -/
def alwaysOn : List Field :=
  [Reg.PWR_RESET_CAUSE.por, Reg.PWR_RESET_CAUSE.rst_n, Reg.PWR_RESET_CAUSE.brownout, Reg.PWR_RESET_CAUSE.software,
   Reg.PWR_RESET_CAUSE.dormant_wake, Reg.PWR_RESET_CNT.rst_n, Reg.PWR_RESET_CNT.brownouts, Reg.PWR_RST_HOLD.ms,
   Reg.PWR_WAKE_CFG.timer_en, Reg.PWR_WAKE_CFG.hb_loss, Reg.PWR_WAKE_CFG.hb_state, Reg.PWR_WAKE_TIMER.s,
   Reg.PWR_WAKE_STAT.source, Reg.PWR_WAKE_STAT.dormant_cnt, Reg.PWR_SCRATCH.data, Reg.TIM_ERA_LO.era_lo, Reg.TIM_ERA_HI.era_hi,
   Reg.TIM_INC_LO.frac_lo, Reg.TIM_INC_HI.frac_hi, Reg.TIM_INC_HI.int, Reg.PWR_SUPPLY_STAT.in_range,
   Reg.PWR_CLK_STAT.ref_present, Reg.PWR_CLK_STAT.fallback, Reg.TIM_STAT.ref_lost, Reg.PWR_TEMP.tj, Reg.PWR_RET_STAT.period]

def alwaysOnKeys : List Nat := alwaysOn.map (fun f => f.addr * 32 + f.lo)

/-- Output levels while no bit-stream runs (Table 15.4). -/
def State.resetPins (s : State) : List Wire :=
  (if s.clk.ppsOut then [Wire.ppsOut false] else [])
    ++ ((List.range 8).filter (fun p => !s.bitAt Reg.FAB_TRIP_OUT.state 0 p || !s.running)).map (fun p => Wire.tripOut p true)
    ++ ((List.range 24).filter (fun c => (s.drvRt c).hi || (s.drvRt c).lo)).map (fun c => Wire.driveEdge c false false s.now)
    ++ ((List.range 4).filter (fun n => s.bitAt Reg.SAF_SOUT_STAT.on 0 n)).map (fun n => Wire.sout n false false)
    ++ (if s.bs.safety.isSome then (List.range 4).map (fun n => Wire.stp n false) else [])

/-- Every domain but AON and RET goes OFF and every register outside the always-on domain takes its reset value; the time base, the
retained benches, flash, fuses and the world outside stay. -/
def State.powerDown (s : State) (p : Pwr) (red : Red) : State :=
  let clk : Clk := { s.clk with ppsOut := false, ppsMissing := false, ppsAt := none }
  let t : State := { State.reset with
    pending := s.pending, wire := s.wire ++ s.resetPins, free := s.free, serial := s.serial
    regs := s.regs.filter (fun x => alwaysOnKeys.contains (x.1 / 8192))
    clk := clk, jtag := s.jtag, pwr := p, red := red
    host := { State.reset.host with mem := s.host.mem }
    cfg := { Cfg.reset with flash := s.cfg.flash, keys := s.cfg.keys } }
  t.wr Reg.PWR_DOM_STAT.state 0 10

/-- The retention store through a reset: slots and binding record are invalid (R462). DEDUCED (notes/assumptions/89.md). -/
def Red.kept (r : Red) : Red := { Red.reset with slow := r.slow, sweep := r.sweep }

/-- RST_N, or what acts like it, is asserted: `cause` is its bit of PWR_RESET_CAUSE. The rank and term of the heartbeats that follow
are those from before (R374). -/
def State.assertReset (s : State) (cause : Nat) : State :=
  let p : Pwr := { Pwr.reset with
    hbRank := if s.pwr.dormant then s.pwr.hbRank else s.rank
    hbTerm := if s.pwr.dormant then s.pwr.hbTerm else s.rd Reg.RED_CLAIM.claim 0 % 2 ^ 28
    causes := if s.pwr.dormant then cause + 16 else cause
    assertedAt := s.cycle }
  (s.powerDown p s.red.kept).wr Reg.PWR_RST_HOLD.ms 0 0

/-- RST_N_ASSERT (R462); it also ends DORMANT (R467). -/
def execRstNAssert (s : State) : Host.Outcome State Fault Refusal :=
  .next (if s.pwr.inReset then s else (s.assertReset 2).count Reg.PWR_RESET_CNT.rst_n 0)

/-- BROWNOUT (R460). -/
def execBrownout (s : State) : Host.Outcome State Fault Refusal :=
  let s := (s.count Reg.PWR_RESET_CNT.brownouts 0).setBit Reg.PWR_SUPPLY_STAT.in_range 0 0 false
  .next ((if s.pwr.inReset then s.modPwr (fun p => { p with causes := if p.causes / 4 % 2 = 1 then p.causes else p.causes + 4 })
    else s.assertReset 4).setBit Reg.PWR_SUPPLY_STAT.dropped 0 0 true)

/-- RESET_HOLD_200MS (R463). -/
def execResetHold200ms (s : State) : Host.Outcome State Fault Refusal :=
  .next (if s.pwr.inReset then s.modPwr (fun p => { p with held200 := true }) else s)

/-- PWR_CMD_RESET (R464): the release that ends the pulse is RESET_RELEASED. -/
def execPwrCmdReset (key : BitVec 8) (s : State) : Host.Outcome State Fault Refusal := byHost (fun s =>
  .next (if key.toNat = 0xA5 then s.assertReset 8 else s.wr Reg.PWR_CMD_STAT.status 0 2)) s

/-- A state that nothing has run in, with the device's fuses, flash and the world outside. -/
def State.powerOn (s : State) : State :=
  ({ State.reset with
    pending := s.pending, wire := s.wire ++ s.resetPins, free := s.free, serial := s.serial
    host := { State.reset.host with mem := s.host.mem }
    cfg := { Cfg.reset with flash := s.cfg.flash, keys := s.cfg.keys } }).wr Reg.PWR_DOM_STAT.state 0 10

/-- POWER_ON_RESET (R458): AON starts, as though RST_N were low. -/
def execPowerOnReset (s : State) : Host.Outcome State Fault Refusal :=
  .next (s.powerOn.wr Reg.PWR_SUPPLY_STAT.in_range 0 255)

/-- SUPPLY_OUT_OF_RANGE (R460): in the order of R458; VDD_AON brings the power-on reset, which holds the device until POWER_ON_RESET, when
every supply has been in range (R458). -/
def execSupplyOutOfRange (supply : Fin 8) (s : State) : Host.Outcome State Fault Refusal :=
  let n : Nat := supply
  let range := s.rd Reg.PWR_SUPPLY_STAT.in_range 0
  let dropped := s.rd Reg.PWR_SUPPLY_STAT.dropped 0
  let s := if n = 1 then s.powerOn.modPwr (fun p => { p with por := true }) else s
  .next (((s.wr Reg.PWR_SUPPLY_STAT.in_range 0 range).wr Reg.PWR_SUPPLY_STAT.dropped 0 dropped).setBit
    Reg.PWR_SUPPLY_STAT.in_range 0 n false |>.setBit Reg.PWR_SUPPLY_STAT.dropped 0 n true)

/-- Latch the causes of a release in PWR_RESET_CAUSE. -/
def State.latchCauses (s : State) (c : Nat) : State :=
  let one (s : State) (f : Field) (b : Nat) : State := if c / 2 ^ b % 2 = 1 then s.wr f 0 1 else s
  one (one (one (one (one s Reg.PWR_RESET_CAUSE.por 0) Reg.PWR_RESET_CAUSE.rst_n 1) Reg.PWR_RESET_CAUSE.brownout 2)
    Reg.PWR_RESET_CAUSE.software 3) Reg.PWR_RESET_CAUSE.dormant_wake 4

def State.causeBits (s : State) : Nat :=
  s.rd Reg.PWR_RESET_CAUSE.por 0 + 2 * s.rd Reg.PWR_RESET_CAUSE.rst_n 0 + 4 * s.rd Reg.PWR_RESET_CAUSE.brownout 0
    + 8 * s.rd Reg.PWR_RESET_CAUSE.software 0 + 16 * s.rd Reg.PWR_RESET_CAUSE.dormant_wake 0

/-- Steps 1 to 4 of the boot sequence and the start of the load (Table 15.5). The PLLs' lock times are measured values that the manual
does not state. DEDUCED (notes/assumptions/85.md). -/
def State.boot (s : State) (causes : Nat) : State :=
  let s := s.latchCauses causes
  let a := s.draw 16
  let b := a.2.draw 16
  let s := (b.2.wr Reg.PWR_PLL_TIME.core_lock 0 a.1).wr Reg.PWR_PLL_TIME.link_lock 0 b.1
  let s := (s.wr Reg.PWR_STAT.core_pll 0 1).wr Reg.PWR_STAT.link_pll 0 1
  let s := s.wr Reg.PWR_CLK_STAT.ref_present 0 (bit (!s.flag Reg.PWR_CLK_STAT.fallback 0))
  let s := [2, 3, 11, 4, 5, 10].foldl (fun (s : State) d => s.setDomain d 2) s
  let s := if causes / 4 % 2 = 1 then s.raise 0x905 0 0 else s
  let s := s.raise 0x904 0 (s.causeBits + 2 ^ 32 * s.rd Reg.PWR_RST_HOLD.ms 0)
  let s := if causes / 16 % 2 = 1 then s.raise 0x908 0 (s.rd Reg.PWR_WAKE_STAT.source 0) else s
  let s := if s.rd Reg.RED_STAT.strap 0 = 3 then
      ((((s.wr Reg.RED_STAT.role 0 15).wr Reg.RED_FLAGS.strap 0 1).raise 0x600 0 15).rolePoints).raise 0x610 0 3
    else s
  ((s.showBoot.wr Reg.PWR_BOOT_STAT.step 0 4).wr Reg.CFG_STAT.state 0 1).modCfg (fun c => { c with loading := true, order := s.loadOrder })

/-- RESET_RELEASED (R465): RST_N is sampled high, with the levels of ROLE_SEL. DEDUCED (notes/assumptions/85.md). -/
def execResetReleased (straps : Fin 4) (s : State) : Host.Outcome State Fault Refusal :=
  .next (if !s.pwr.inReset || s.pwr.por then s
    else
      let s := s.wr Reg.PWR_SUPPLY_STAT.in_range 0 255
      let causes := s.pwr.causes
      let s := s.wr Reg.PWR_RST_HOLD.ms 0 (min ((s.cycle - s.pwr.assertedAt) / 400000) (2 ^ 32 - 1))
      let s := if causes / 16 % 2 = 1 then s.wr Reg.PWR_WAKE_STAT.source 0 4 else s
      let s := (s.modPwr (fun p => { p with inReset := false, held200 := false, causes := 0, releasedAt := s.cycle })).wr
        Reg.RED_STAT.strap 0 straps
      s.boot causes)

/-! ### DORMANT (R466, R467) -/

/-- Domains 3 to 11 go OFF, each with its event 0x900, and 0x909 follows; LINK is still ON, so that the ring takes what waits for it
(R466, R468). DEDUCED (notes/assumptions/19.md). -/
def State.goDormant (s : State) : State :=
  let s := [3, 4, 5, 6, 7, 8, 9, 10, 11].foldl (fun (s : State) d => s.setDomain d 0) s
  let s := s.raise 0x909 0 0
  State.forEach s.evq.buf.length (fun _ s => s.ringWrite false []) s

/-- PWR_CMD_DORMANT. -/
def execPwrCmdDormant (key : BitVec 8) (s : State) : Host.Outcome State Fault Refusal := byHost (fun s =>
  .next (if key.toNat ≠ 0xA5 then s.wr Reg.PWR_CMD_STAT.status 0 2
    else if s.running && !sleepsIn s.role then s.wr Reg.PWR_CMD_STAT.status 0 3
    else
      let s := ((s.wr Reg.PWR_CMD_STAT.status 0 1).count Reg.PWR_WAKE_STAT.dormant_cnt 0).goDormant
      let strap := s.rd Reg.RED_STAT.strap 0
      let p : Pwr := { Pwr.reset with
        inReset := false, dormant := true, hbRank := s.rank, hbTerm := s.rd Reg.RED_CLAIM.claim 0 % 2 ^ 28, causes := 0 }
      let red : Red := { s.red.kept with bind := s.red.bind }
      (s.powerDown p red).wr Reg.RED_STAT.strap 0 strap)) s

/-- DORMANT_WAKE: 0 timer, 1 loss of the heartbeat, 2 the partner's state; the source must be enabled. -/
def execDormantWake (source : Fin 3) (s : State) : Host.Outcome State Fault Refusal :=
  let on := if source = 0 then s.flag Reg.PWR_WAKE_CFG.timer_en 0
    else if source = 1 then s.flag Reg.PWR_WAKE_CFG.hb_loss 0 else s.flag Reg.PWR_WAKE_CFG.hb_state 0
  .next (if !s.pwr.dormant || !on then s
    else
      let s := s.wr Reg.PWR_WAKE_STAT.source 0 (source.val + 1)
      (s.modPwr (fun p => { p with dormant := false, releasedAt := s.cycle })).boot 16)

end Sys2Proof.Machine
end

