-- ==== Sys2Proof/Machine/View.lean ====
section
/-! DEFINITION. What a register field reads as (R12, R475): fields that show state held elsewhere, and fields whose value the
manual leaves to the part's timing or its sensors. Every other field reads as the register store holds it. -/

namespace Sys2Proof.Machine

/-- One word of a value that a pair of registers shows. -/
def half (hi : Bool) (x : Nat) : Nat := if hi then x / 2 ^ 32 % 2 ^ 32 else x % 2 ^ 32

/-- Device requests wait under R473: records for an enabled ring, or a record copy. -/
def State.requestsHeld (s : State) : Bool :=
  !s.mayRequest && ((s.flag Reg.EPO_CTRL.ev_enable 0 && !s.evq.buf.isEmpty) || s.drBusy)

/-- GLB fields (Table 16.5). DEDUCED (notes/assumptions/97.md). -/
def State.viewGlb (s : State) (f : Field) : Option Nat :=
  if f = Reg.GLB_SERIAL_LO.serial_lo then some (half false s.serial)
  else if f = Reg.GLB_SERIAL_HI.serial_hi then some (half true s.serial)
  else if f = Reg.GLB_STAT.running then some (bit (s.rd Reg.CFG_STAT.state 0 == 3))
  else if f = Reg.GLB_STAT.personality then some (s.rd Reg.CFG_STAT.personality 0)
  else if f = Reg.GLB_STAT.role then some (s.rd Reg.RED_STAT.role 0)
  else if f = Reg.GLB_DMA_STAT.held then some (bit s.requestsHeld)
  else none

/-- EPO fields (Table 1.11); `i` is the bench of EPO_BENCH_INFO. -/
def State.viewEpo (s : State) (f : Field) (i : Nat) : Option Nat :=
  if f = Reg.EPO_CTRL.stat_reset then some (bit s.epo.statReset)
  else if f = Reg.EPO_STAT.fences_pending then some s.epo.fences.length
  else if f = Reg.EPO_STAT.pin_active then some (bit s.epo.pin.isSome)
  else if f = Reg.EPO_EPOCH_LO.epoch_lo then some (half false s.epo.k)
  else if f = Reg.EPO_EPOCH_HI.epoch_hi then some (half true s.epo.k)
  else if f = Reg.EPO_PIN_CTRL.pin then some (bit s.epo.pin.isSome)
  else if f = Reg.EPO_PIN_STAT.remaining then some ((s.epo.pin.map (·.left)).getD 0)
  else if f = Reg.EPO_STAGE_STAT.used then some s.stagedCount
  else if f = Reg.EPO_BENCH_INFO.resident then some (bit (s.frameOf i).isSome)
  else if f = Reg.EPO_BENCH_INFO.dirty then some (bit (((s.frameOf i).map (·.dirty)).getD false))
  else if f = Reg.EPO_BENCH_INFO.frame then some (((s.frameOf i).map (·.frame)).getD 0)
  else if f = Reg.EPO_BENCH_INFO.fold_epoch then some (tabGet 0 s.epo.folds i)
  else none

/-- TIM fields (Table 11.5). -/
def State.viewTim (s : State) (f : Field) : Option Nat :=
  if f = Reg.TIM_COUNT_LO.count_lo then some (half false s.clk.count)
  else if f = Reg.TIM_COUNT_HI.count_hi then some (half true s.clk.count)
  else if f = Reg.TIM_NOW_LO.now_lo then some (half false s.now)
  else if f = Reg.TIM_NOW_HI.now_hi then some (half true s.now)
  else if f = Reg.TIM_OFF_LO.off_lo then some (half false (s.clk.off / 2 ^ 48))
  else if f = Reg.TIM_OFF_HI.off_hi then some (half true (s.clk.off / 2 ^ 48))
  else if f = Reg.TIM_OFF_FRAC_LO.frac_lo then some (half false s.clk.off)
  else if f = Reg.TIM_OFF_FRAC_HI.frac_hi then some (s.clk.off / 2 ^ 32 % 2 ^ 16)
  else if f = Reg.TIM_SEAM_LO.seam_lo then some (half false s.epo.seam)
  else if f = Reg.TIM_SEAM_HI.seam_hi then some (half true s.epo.seam)
  else if f = Reg.TIM_HOLD_INFO.ms then some (min ((s.clk.count - s.clk.lastCorr) / 400000) (2 ^ 32 - 1))
  else none

/-- A bit per key slot of a range. -/
def State.slotBits (s : State) (from_ n : Nat) (p : KeySlot → Bool) : Nat :=
  ((List.range n).map (fun i => bit (p (s.keySlot (from_ + i))) * 2 ^ i)).sum

/-- CFG_KEY_STAT (Table 14.9), SAF_DEG_STAT and SAF_STP_STAT (Table 13.4). -/
def State.viewCfg (s : State) (f : Field) : Option Nat :=
  if f = Reg.CFG_KEY_STAT.main_prog then some (s.slotBits 0 4 (·.hash.isSome))
  else if f = Reg.CFG_KEY_STAT.main_rev then some (s.slotBits 0 4 (·.revoked))
  else if f = Reg.CFG_KEY_STAT.saf_prog then some (s.slotBits 4 2 (·.hash.isSome))
  else if f = Reg.CFG_KEY_STAT.saf_rev then some (s.slotBits 4 2 (·.revoked))
  else if f = Reg.SAF_STP_STAT.pulsing then some (((List.range 4).map (fun n => bit (s.pulsing n) * 2 ^ n)).sum)
  else if f = Reg.SAF_DEG_STAT.remaining then
    some (if s.rd Reg.SAF_STAT.state 0 = 1 then
      s.rd Reg.SAF_CFG_INFO.deg_window 0 - (s.now + 2 ^ 64 - s.saf.degAt) % 2 ^ 64 / secondUnits else 0)
  else none

/-- FAB fields (Table 8.11, R294); `i` is the engine of FAB_ENG_STAT. -/
def State.viewFab (s : State) (f : Field) (i : Nat) : Option Nat :=
  let e := tabGet Engine.idle s.fab.engines i
  if f = Reg.FAB_STAT.miss_any then some (bit ((List.range 4).any (fun m => s.rd Reg.FAB_MISS_MAP.miss m != 0)))
  else if f = Reg.FAB_STAT.plaus_any then some (bit (s.fab.obs.any (fun o => o.2.active)))
  else if f = Reg.FAB_ENG_STAT.busy then some (bit e.run.isSome)
  else if f = Reg.FAB_ENG_STAT.slot_full then some (bit e.slot.isSome)
  else if f = Reg.FAB_ENG_STAT.parked then some (bit (s.flag Reg.FAB_ENG_CTRL.park i && e.run.isNone && e.slot.isNone))
  else if f = Reg.FAB_ENG_STAT.domain_off then some (bit (s.domain (if i < 32 then 4 else 5) != 2))
  else if f = Reg.FAB_ENG_STAT.graph then some ((e.run.map (·.graph)).getD 0)
  else if f = Reg.FAB_ENG_STAT.op then some ((e.run.map (·.op.num)).getD 0)
  else none

/-- What a field shows where that is held elsewhere; `i` is its unit.
DEDUCED (notes/assumptions/60.md). DEDUCED (notes/assumptions/97.md). -/
def State.view (s : State) (f : Field) (i : Nat) : Option Nat :=
  if f.addr < 0x1000 then s.viewGlb f
  else if f.addr < 0x2000 then none
  else if f.addr < 0x3000 then s.viewCfg f
  else if f.addr < 0x4000 then s.viewEpo f i
  else if f.addr < 0x5000 then s.viewTim f
  else if f.addr < 0x7000 then s.viewCfg f
  else if f.addr < 0x30000 then (if f = Reg.LANE_CTRL.ident then some (bit ((s.lane i).ident != 0))
    else if f = Reg.LANE_CORR.asym ∧ (s.bs.groupOf i).isSome ∧ (s.bs.laneEntry i).isNone then some 0
    else if f = Reg.ADC_SYSCAL_CTRL.start then some (bit s.adc.cal.active)
    else if f = Reg.ADC_CORE_CTRL.reg_go then some (bit ((s.core i).running && s.rd Reg.ADC_CORE_CTRL.reg_trig i == 5))
    else none)
  else s.viewFab f i

/-- Fields that the part's timing or line code raises between two reads: what has come since the last one is free, on top of what
that read left (R14, notes/assumptions/2.md). DEDUCED (notes/assumptions/103.md). -/
def openFields : List Field := [Reg.GLB_CPL_TIME.max]

/-- What a field reads as (Table 0.2): a WO field reads 0, an ST field the value in effect; the power estimate is free. -/
def State.fieldRead (s : State) (f : Field) (i : Nat) : Nat × State :=
  if f.acc = .wo then (0, s)
  else if f = Reg.PWR_EST.power then s.draw f.width
  else if openFields.contains f then
    let d := s.draw f.width
    (max (s.rd f i) d.1, d.2)
  else (((s.view f i).getD (s.rd f i)) % 2 ^ f.width, s)

end Sys2Proof.Machine
end

