-- ==== Sys2Proof/Machine/Access.lean ====
section
/-! DEFINITION. Host accesses to the registers (R12 to R16, R29, R30, R475 to R479): reads with their side effects, the write of
a register in its two halves (R478), staged point writes, and the MSI-X structures. -/

namespace Sys2Proof.Machine

/-! ### Reads -/

/-- The registers whose read latches the register above (R19 and the maps' "latches HI"). -/
def latchingLo : List Nat :=
  [0x8, 0x300C, 0x301C, 0x3024, 0x3034, 0x3044, 0x3088, 0x4008, 0x4010, 0x4038, 0x4060, 0x502C, 0x5038, 0x5050, 0x5058]

/-- Where the latch of a HI register is held for a requester. DESIGN CHOICE (notes/assumptions/7.md). -/
def latchKey (req hi : Nat) : Nat := req * 2 ^ 25 + hi

/-- The word that the fields of a register make, reading each. -/
def State.fieldsRead (s : State) (a : Nat) : List Field → Nat × State
  | [] => (0, s)
  | f :: fs =>
    let r := s.fieldRead f (s.instOf f a)
    let t := r.2.fieldsRead a fs
    (r.1 * 2 ^ f.lo + t.1, t.2)

/-- The word of a register; a reserved address reads 0 (R16, R475). DESIGN CHOICE (notes/assumptions/7.md). -/
def State.wordAt (s : State) (a : Nat) : Nat × State := s.fieldsRead a (fieldsAt a)

/-- What a read does to a field: RC is cleared, but a count that arrives in the same cycle stays (R14, R68).
DEDUCED (notes/assumptions/91.md). -/
def State.afterRead (s : State) (a inc : Nat) (f : Field) : State :=
  if f.acc = .rc then s.wr f (s.instOf f a) (f.reset + inc / 2 ^ f.lo % 2) else s

/-- Complete a read; a poisoned register's sets the EP bit (R61). -/
def State.answerReg (s : State) (req addr : Nat) (bad : Bool) (w : Nat) : State :=
  { s with host := { s.host with rdata := some ⟨req, addr, if bad then .poisoned else .ok, [w]⟩ } }

/-- The register at an address holds a poisoned word, for the unit that an access means. -/
def State.regBad (s : State) (a : Nat) : Bool :=
  match (fieldsAt a).head? with
  | some f => s.epo.badRegs.contains (a, s.instOf f a)
  | none => false

/-- Complete a read of words that no error concerns. -/
def State.answer (s : State) (req addr : Nat) (l : List Nat) : State :=
  { s with host := { s.host with rdata := some ⟨req, addr, .ok, l⟩ } }

/-- Read a register (R14, R19, R68). `inc` has the lowest bit of an RC field set when a count arrives in the cycle of the read. -/
def State.readRegister (s : State) (req a inc : Nat) : State :=
  match tabGet none s.host.latch (latchKey req a) with
  | some w => { s.answer req a [w] with host := { (s.answer req a [w]).host with
      latch := tabSet none s.host.latch (latchKey req a) none } }
  | none =>
    let r := s.wordAt a
    let bad := s.regBad a
    let s := (fieldsAt a).foldl (fun (s : State) f => s.afterRead a inc f) r.2
    let s := s.answerReg req a bad r.1
    if latchingLo.contains a then
      let h := s.wordAt (a + 4)
      { h.2 with host := { h.2.host with latch := tabSet none h.2.host.latch (latchKey req (a + 4)) (some h.1) } }
    else s

/-- A 4-byte word of the MSI-X table or of the PBA (R479). -/
def State.msixWord (s : State) (a : Nat) : Nat :=
  if a < 0xC00 then
    let e := tabGet Msix.reset s.host.msix ((a - 0x800) / 16)
    if a % 16 = 0 then half false e.addr
    else if a % 16 = 4 then half true e.addr
    else if a % 16 = 8 then e.data
    else bit e.masked
  else ((List.range 32).map (fun i => bit (tabGet false s.host.pba (8 * (a - 0xC00) + i)) * 2 ^ i)).sum

/-- The MSI-X table and the PBA. -/
def inMsix (a : Nat) : Bool := decide (0x800 ≤ a) && decide (a < 0xC08)

/-- A point window (Table 16.2). -/
def inWindow (a : Nat) : Bool := (pointAt a).isSome

/-- An access of register space has a shape that R476 takes. -/
def accessShaped (a len : Nat) : Bool :=
  if inMsix a then (len == 4 || len == 8) && a % len == 0 && inMsix (a + len - 4) else len == 4 && a % 4 == 0

/-- The FAB block: the arbiter has worked the cycles up to an access, so that its waits show and a class change comes after them (R281,
R282). -/
def inFabric (a : Nat) : Bool := decide (0x30000 ≤ a) && decide (a < 0x40000)

/-- A host read outside the rows that name one (R475 to R477). DEDUCED (notes/assumptions/92.md). -/
def State.hostRead (s : State) (req addr len inc : Nat) : State :=
  let a := addr % 2 ^ 25
  let s := if 0x9000 ≤ a ∧ a < 0xA000 then s.drvCatchUp else if inFabric a then s.arbitrate else s
  if inWindow a then s.windowRead req a len [] 0
  else if 0x100000 ≤ a then s.answer req a [0]
  else if !accessShaped a len then s.refuseRead req a
  else if inMsix a then s.answer req a ((List.range (len / 4)).map (fun i => s.msixWord (a + 4 * i)))
  else if a = Reg.CFG_FLASH_DATA.data.addr then s.flashAccess false req 0
  else s.readRegister req a inc

/-- RC_READ (R14): a read of any register; `increments` marks the RC fields that count in the same cycle.
DEDUCED (notes/assumptions/91.md). -/
def execRcRead (req addr len increments : Nat) (s : State) : Host.Outcome State Fault Refusal :=
  byReader req addr (fun s => .next (s.hostRead req addr len increments)) s

/-- LATCHING_READ (R19). -/
def execLatchingRead (req addr len : Nat) (s : State) : Host.Outcome State Fault Refusal :=
  byReader req addr (fun s => .next (s.hostRead req addr len 0)) s

/-- UE_ADDR_READ (R68). -/
def execUeAddrRead (req : Nat) (s : State) : Host.Outcome State Fault Refusal :=
  byReader req Reg.EPO_UE_ADDR.word.addr (fun s => .next (s.hostRead req Reg.EPO_UE_ADDR.word.addr 4 0)) s

/-! ### The staged half of a register write (R29, R30, R478) -/

/-- Ranges that the prose gives to a field beside the map's (R83, R112, R240, R315). A compare value of ARM_INT_CMP0 and ARM_INT_CMP1 may
exceed half of the period, which may change after it: it then never matches (R90). DESIGN CHOICE (notes/assumptions/124.md). -/
def State.fieldTakes (s : State) (f : Field) (i v : Nat) : Bool :=
  decide (f.min ≤ v) && decide (v ≤ f.max) &&
  (if f = Reg.ARM_CTRL.mode then
      v != 2 || (s.armCells i).all (·.fb) || (s.armCells i).all (fun e => !e.fb)
    else if f = Reg.ORD_GEN_CTRL.mode then
      v != 2 || s.bs.orders.gens.any (fun e => e.gen == i && e.track.isSome)
    else if f = Reg.ARM_SCREEN_LO.lo ∨ f = Reg.ARM_SCREEN_HI.hi then
      fLe f32 0 v && fLe f32 v (fOfRat f32 false 13107 4)
    else if f = Reg.ARM_VNOM.vnom then fLt f32 0 v
    else if f = Reg.ARM_CAR_PERIOD.period then
      v == 0 || (decide (1280 ≤ v) && decide (v ≤ 16777214) && v % 2 == 0)
    else if f = Reg.LANE_EYE_CTRL.v then v != 32
    else if f = Reg.LANE_EYE_CTRL.ph then decide (-64 ≤ signedOf 8 v) && decide (signedOf 8 v ≤ 64)
    else true)

/-- The value that a register write carries for a field. -/
def Field.of (f : Field) (value : Nat) : Nat := bitsOf value f.lo f.width

/-- The ST fields of a write enter one entry, unless one lies outside its range. -/
def State.stageRegister (s : State) (a value : Nat) : State :=
  let l := (fieldsAt a).filter (fun f => f.acc == .st)
  match l.head? with
  | none => s
  | some f =>
    let i := s.instOf f a
    if l.all (fun f => s.fieldTakes f i (f.of value)) then s.stage a [.reg a i (value % 2 ^ 32)] else s.rejectWrite a

/-! ### The half that acts at once -/

/-- A refused write of a converter core's registers (R333, R339); mode 3 lies outside the field's range (R30, R342). DEDUCED
(notes/assumptions/54.md). -/
def State.adcRefused (s : State) (a i value : Nat) : Option State :=
  let core := if 0x7100 ≤ a ∧ a < 0x7180 then some i else if a = 0x7030 then some (i / 32) else none
  match core with
  | some c =>
    (match s.coreHeld c with
     | some t => some t
     | none =>
       if a = 0x7100 + 0x20 * c ∧ (2 < bitsOf value 0 2 ∨ (bitsOf value 0 2 = 2 ∧ s.rd Reg.ADC_CORE_CTRL.inj_len c ≠ 0)) then
         let s := s.wr Reg.ADC_CORE_STAT.mode_status c 3
         some (if bitsOf value 0 2 = 3 then s.rejectWrite a else s)
       else none)
  | none =>
    if 0x7300 ≤ a ∧ a < 0x7340 then (s.heldBy 4 i).map (fun h => s.raise 0x408 i (h.number + 2 ^ 16)) else none

/-- A refused write of a drive channel's shadow fields or of DRV_CTRL (R165, R175). DEDUCED (notes/assumptions/55.md). -/
def State.drvWriteRefused (s : State) (a ch value : Nat) : Option State :=
  let off := (a - 0x9000) % 32
  if off = 4 ∨ off = 8 ∨ off = 12 then (if s.drvHeld ch then some (s.drvRefuse ch 4) else none)
  else if off = 0 then
    (match (s.drvRt ch).on with
     | some x =>
       let c : DrvCtl := ⟨bitsOf value 3 1 == 1, bitsOf value 4 1 == 1, bitsOf value 8 8, bitsOf value 16 4, bitsOf value 20 8,
         bitsOf value 7 1 == 1⟩
       if drvSetOk (s.driveEntry ch) c x then none else some (s.wr Reg.DRV_SET.status ch 3)
     | none => none)
  else none

/-- A channel of the recorder names a live cell point or a station point (R63). DEDUCED (notes/assumptions/93.md). -/
def drChannelOk (value : Nat) : Bool :=
  if value / 2 ^ 25 % 2 = 1 then decide (value % 64 < 16) else decide (value % 2 ^ 20 < 65536)

/-- A write that a register's own rule turns away (R63, R69, R100, R165, R175, R236, R333, R339), as the state that it leaves.
DEDUCED (notes/assumptions/21.md). DEDUCED (notes/assumptions/93.md). -/
def State.writeRefused (s : State) (a i value : Nat) : Option State :=
  if a = 0x3078 ∨ a = 0x307C ∨ a = 0x3080 then
    (if s.drArmed || s.drBusy || (a == 0x3080 && !drChannelOk value) then some (s.rejectWrite a) else none)
  else if 0x7000 ≤ a ∧ a < 0x8000 then s.adcRefused a i value
  else if 0x9000 ≤ a ∧ a < 0xA000 then s.drvWriteRefused a i value
  else if a = 0x10030 + 0x400 * i then
    (if s.flag Reg.ARM_RETIRE.go i then
       some (s.retireRefused i (value % 2 ^ 14) 4) else none)
  else if a = 0x20030 + 0x100 * i ∧ 0x20000 ≤ a then (if s.flag Reg.LANE_EYE_CTRL.start i then some (s.rejectWrite a) else none)
  else none

/-- The codes that a command register takes: address, lowest bit, greatest code; 0 commands nothing. -/
def commandCodes : List (Nat × Nat × Nat) :=
  [(0x1008, 0, 2), (0x2004, 0, 6), (0x2060, 0, 3), (0x4048, 0, 4), (0x5008, 0, 4), (0x6028, 16, 5)]

/-- A write of a command register with a code outside its range is discarded (R30); PWR_CMD tests its key first (R464). -/
def State.codeRefused (s : State) (a value : Nat) : Option State :=
  match commandCodes.find? (fun x => x.1 == a) with
  | none => none
  | some x =>
    let c := bitsOf value x.2.1 3
    if a = 0x1008 ∧ bitsOf value 8 8 ≠ 0xA5 then some (s.wr Reg.PWR_CMD_STAT.status 0 2)
    else if c = 0 ∨ x.2.2 < c then some (s.rejectWrite a)
    else none

/-- Fields that a write changes at once and that have no row of their own. -/
def writableField (f : Field) : Bool := !f.own && (f.acc == .rw || f.acc == .w1c || f.acc == .w1s)

/-- One field of a write (Table 0.2); a W1C bit that the hardware sets in the same cycle stays set (R13). -/
def State.writeField (s : State) (f : Field) (i value hw : Nat) : State :=
  let v := f.of value
  match f.acc with
  | .rw => s.wr f i v
  | .w1c => s.wr f i ((s.rd f i &&& (2 ^ f.width - 1 - v)) ||| f.of hw)
  | .w1s => s.wr f i (s.rd f i ||| v)
  | .ro | .st | .rc | .wo | .sc => s

/-- A graph's DEADLINE_MISS and its bit of FAB_MISS_MAP are cleared together (Table 8.11). -/
def State.missCleared (s : State) (a i value : Nat) : State :=
  if a = 0x30014 then
    (if value / 2 ^ 3 % 2 = 1 then s.setBit Reg.FAB_MISS_MAP.miss (i / 32) (i % 32) (s.flag Reg.FAB_GRAPH_STAT.deadline_miss i)
     else s)
  else State.forEach 32 (fun b s =>
    if value / 2 ^ b % 2 = 1 then
      s.wr Reg.FAB_GRAPH_STAT.deadline_miss (32 * i + b) (bit (s.bitAt Reg.FAB_MISS_MAP.miss i b))
    else s) s

/-- What follows a write beside the fields themselves; `old` is the state before it.
DESIGN CHOICE (notes/assumptions/10.md). DEDUCED (notes/assumptions/96.md). -/
def State.writeFollows (old s : State) (a i value : Nat) : State :=
  if a = 0x3080 then
    let n := value / 2 ^ 26 % 64
    { s.wr Reg.EPO_DR_CHAN.index 0 n with dr := { s.dr with
      chans := tabSet 0 s.dr.chans n (value % 2 ^ 20 + value / 2 ^ 25 % 2 * 2 ^ 25) } }
  else if a = 0x7100 + 0x20 * i ∧ i < 4 then s.wr Reg.ADC_CORE_STAT.mode_status i 1
  else if a = 0x7300 + 4 * i ∧ i < 16 then s.svEnable i (old.flag Reg.ADC_SV_MAP.enable i)
  else if 0xA000 ≤ a ∧ a < 0x10000 then
    let off := (a - 0xA000) % 0x800
    let s := if off = 0 ∧ (s.flag Reg.ETH_CTRL.enable i ≠ old.flag Reg.ETH_CTRL.enable i
        ∨ s.flag Reg.ETH_CTRL.rate i ≠ old.flag Reg.ETH_CTRL.rate i) then s.pcsRestart i else s
    if (off = 0 ∧ s.flag Reg.ETH_CTRL.ptp_en i ∧ ¬ old.flag Reg.ETH_CTRL.ptp_en i) ∨ off = 0x3C ∨ off = 0x40 ∨ off = 0x44 then
      s.setPort i { s.port i with seen := false }
    else s
  else if a = 0x20000 + 0x100 * i ∧ 0x20000 ≤ a then
    (if (s.bs.groupOf i).isNone then s
     else if old.flag Reg.LANE_CTRL.rx_en i ∧ ¬ s.flag Reg.LANE_CTRL.rx_en i then (s.disableRx i).laneDown old else s.showLane i)
  else if a = 0x30014 ∨ (0x30030 ≤ a ∧ a < 0x30040) then s.missCleared a i value
  else if 0x30400 ≤ a then s.refreshGraphs
  else if a = 0x5000 then
    (if s.running ∧ sleepsIn s.role ∧ s.flag Reg.RED_CTRL.warm_lanes 0 ≠ old.flag Reg.RED_CTRL.warm_lanes 0 then s.applyDomains s.role
     else s)
  else s

/-- The fields of a register that act at once: all of them, or none where one lies outside its range (R30, R478).
DEDUCED (notes/assumptions/21.md). -/
def State.writeAtOnce (s : State) (a value hw : Nat) : State :=
  let l := (fieldsAt a).filter writableField
  match l.head? with
  | none => s
  | some f =>
    let i := s.instOf f a
    match s.writeRefused a i value with
    | some t => t
    | none =>
      if !l.all (fun f => s.fieldTakes f i (f.of value)) then s.rejectWrite a
      else s.writeFollows (l.foldl (fun (s : State) f => s.writeField f i value hw) (s.markReg a i false)) a i value

/-! ### Writes -/

/-- A 4-byte word of the MSI-X table (R479); the PBA is read-only, and an entry of it above 63 does not exist. -/
def State.msixStore (s : State) (a w : Nat) : State :=
  if 0xC00 ≤ a then s
  else
    let n := (a - 0x800) / 16
    let put (f : Msix → Msix) : State :=
      { s with host := { s.host with msix := tabMod Msix.reset s.host.msix n f } }
    if a % 16 = 0 then put (fun e => { e with addr := e.addr / 2 ^ 32 * 2 ^ 32 + w })
    else if a % 16 = 4 then put (fun e => { e with addr := e.addr % 2 ^ 32 + w * 2 ^ 32 })
    else if a % 16 = 8 then put (fun e => { e with data := w })
    else if w % 2 = 1 then put (fun e => { e with masked := true })
    else s.unmask n

/-- A host write of register space (R12, R475, R476, R478). DEDUCED (notes/assumptions/92.md). -/
def State.hostWrite (s : State) (addr len be value hw : Nat) : State :=
  let a := addr % 2 ^ 25
  if inWindow a then s.rejectWrite a
  else if 0x100000 ≤ a ∨ !accessShaped a len ∨ be ≠ 2 ^ len - 1 then s.accessError a true
  else if inMsix a then
    (List.range (len / 4)).foldl (fun (s : State) i => s.msixStore (a + 4 * i) (value / 2 ^ (32 * i) % 2 ^ 32)) s
  else if (fieldsAt a).isEmpty then s.accessError a true
  else if a = Reg.CFG_FLASH_DATA.data.addr then s.flashAccess true 0 value
  else
    match s.codeRefused a value with
    | some t => t
    | none =>
      let s := if 0x7000 ≤ a ∧ a < 0x8000 then s.adcAdvance s.cycle else if 0x9000 ≤ a ∧ a < 0xA000 then s.drvCatchUp
        else if inFabric a then s.arbitrate else s
      (s.writeAtOnce a value hw).stageRegister a value

/-- REGISTER_WRITE (R12, R13, R30, R478): `setByHardware` has the W1C bits that the hardware sets in the same cycle.
DESIGN CHOICE (notes/assumptions/10.md). -/
def execRegisterWrite (addr len byteEnables value setByHardware : Nat) (s : State) : Host.Outcome State Fault Refusal := byHost (fun s =>
  .next (s.mirrorOf (s.hostWrite addr len byteEnables value setByHardware))) s

/-- A point write into the staging area (R29 to R32): all of its points or none. -/
def State.stagePoints (s : State) (addr len : Nat) (allEnabled : Bool) (vals : List Nat) : State :=
  if !pointWriteShaped addr len allEnabled then s.rejectWrite addr
  else match pointRun addr (len / 8) with
    | none => s.rejectWrite addr
    | some ps =>
      let host := s.bs.hostPoints
      if ps.all (fun p => match p with | .station a => host.contains a | .cell _ _ => false) then
        s.stage addr ((ps.zip vals).filterMap (fun x => match x.1 with
          | .station a => some (Entry.point a (x.2 % 2 ^ 64))
          | .cell _ _ => none))
      else s.rejectWrite addr

/-- STAGED_WRITE (R29, R30, R32, R478). -/
def execStagedWrite (w : StagedWrite) (s : State) : Host.Outcome State Fault Refusal := byHost (fun s =>
  .next (match w with
    | .register addr value => s.mirrorOf (s.hostWrite addr 4 15 value 0)
    | .points addr len allEnabled vals => s.stagePoints addr len allEnabled vals)) s

end Sys2Proof.Machine
end

