-- ==== Sys2Proof/Machine/Seam.lean ====
section
/-! DEFINITION. The seam (R37): the epoch that ends, the commits, P(k), and the epoch that begins. The blocks' own parts stand in
their files; this one gives their order (notes/assumptions/20.md). -/

namespace Sys2Proof.Machine

/-! ### Commits -/

/-- Command fields that were committed at the last seam read 0 from this one on (R92, R309, R347).
DESIGN CHOICE (notes/assumptions/18.md). -/
def State.clearCommands (s : State) : State :=
  let s := (List.range 12).foldl (fun (s : State) a => (s.wr Reg.ARM_CMD.block a 0).wr Reg.ARM_CMD.deblock a 0) s
  ((s.wr Reg.TIM_STEP_LO.step_lo 0 0).wr Reg.TIM_STEP_HI.step_hi 0 0).wr Reg.ORD_TBL_CTRL.swap 0 0

/-- What fences have committed at a seam: registers as (address, unit), points as (point, value), in write order, and the pair that
each fence left in the window registers of an arm that it wrote, as (arm, lo, hi) (R112). -/
structure Commits where
  regs : List (Nat × Nat)
  points : List (Nat × Nat)
  windows : List (Nat × Nat × Nat)
deriving DecidableEq, Repr

/-- What a poisoned entry wrote carries its poison (R61). DESIGN CHOICE (notes/assumptions/106.md). -/
def State.spoilCommit (s : State) : Entry → State
  | .point a _ => (s.poisonPub a).poisonWork a
  | .reg a i _ => s.markReg a i true
  | .bad e => s.spoilCommit e

/-- One entry is written to P(k) and to the working image of epoch k (R37). -/
def State.commitEntry (x : State × Commits) : Entry → State × Commits
  | .point a v => (x.1.setBoth a v, { x.2 with points := x.2.points ++ [(a, v)] })
  | .reg a i v =>
    (((fieldsAt a).filter (fun f => f.acc == .st)).foldl (fun (s : State) f => s.wr f i (f.of v)) (x.1.markReg a i false),
     { x.2 with regs := x.2.regs ++ [(a, i)] })
  | .bad e => ((State.commitEntry x e).1.spoilCommit e, (State.commitEntry x e).2)

/-- The pairs that a fence's entries, committed at `s`, left in the arms' window registers (R112). -/
def State.fenceWindows (s : State) (regs : List (Nat × Nat)) : List (Nat × Nat × Nat) :=
  ((List.range 12).filter (fun a => committed regs Reg.ARM_SCREEN_LO.lo a || committed regs Reg.ARM_SCREEN_HI.hi a)).map
    (fun a => (a, s.rd Reg.ARM_SCREEN_LO.lo a, s.rd Reg.ARM_SCREEN_HI.hi a))

/-- One fence: its entries, then fence_done. -/
def State.commitFence (x : State × Commits) (f : Fence) : State × Commits :=
  let y := f.entries.foldl State.commitEntry x
  let y := (y.1, { y.2 with windows := y.2.windows ++ y.1.fenceWindows (y.2.regs.drop x.2.regs.length) })
  ((y.1.wrPair Reg.EPO_FENCE_DONE_LO.done_lo Reg.EPO_FENCE_DONE_HI.done_hi 0 y.1.epo.k).wr
    Reg.EPO_FENCE_STAT.done_id 0 f.id, y.2)

/-- The fences due at S(k), in issue order. -/
def State.dueFences (s : State) : List Fence := s.epo.fences.filter (fun f => decide (f.target ≤ s.epo.k))

/-- Every due fence leaves the list. DEDUCED (notes/assumptions/101.md). -/
def State.dropDue (s : State) : State :=
  { s with epo := { s.epo with fences := s.epo.fences.filter (fun f => !decide (f.target ≤ s.epo.k)) } }

/-! ### A time step (R347, R348) -/

def PinEdge.shift (d : Int) (e : PinEdge) : PinEdge := { e with t := timePlus e.t d }
def Grid.shift (d : Int) (g : Grid) : Grid := { g with t0 := timePlus g.t0 d }

/-- The station times that an arm, a cell, a lane, a drive channel and a generator hold. -/
def ArmRt.shift (d : Int) (r : ArmRt) : ArmRt :=
  { r with grid := r.grid.map (Grid.shift d), nextGrids := r.nextGrids.map (Grid.shift d) }
def CellRt.shift (d : Int) (r : CellRt) : CellRt :=
  { r with lastEdge := r.lastEdge.map (timePlus · d), sets := r.sets.map (fun x => (timePlus x.1 d, x.2))
           testUntil := r.testUntil.map (timePlus · d) }
def LaneRt.shift (d : Int) (r : LaneRt) : LaneRt := { r with sent := r.sent.map (fun x => (x.1, timePlus x.2 d)) }
def DrvRt.shift (d : Int) (r : DrvRt) : DrvRt :=
  { r with
    edges := r.edges.map (PinEdge.shift d), next := timePlus r.next d, lastReload := r.lastReload.map (timePlus · d)
    lastEdge := r.lastEdge.map (timePlus · d), again := r.again.map (timePlus · d), timed := r.timed.map (fun x => { x with at_ := x.at_.map (timePlus · d) }) }
def GenRt.shift (d : Int) (r : GenRt) : GenRt := { r with at_ := timePlus r.at_ d, since := timePlus r.since d }

/-- What the SAF domain and the redundancy controller hold as intervals of their own clocks: no output moves at a step.
DEDUCED (notes/assumptions/98.md). -/
def State.shiftClocks (s : State) (d : Int) : State :=
  { s with
    saf := { s.saf with
      stopAt := s.saf.stopAt.map (fun x => (x.1, timePlus x.2.1 d, x.2.2))
      unlock := s.saf.unlock.map (timePlus · d), degAt := timePlus s.saf.degAt d }
    red := { s.red with
      lineAt := s.red.lineAt.map (timePlus · d), ringAt := s.red.ringAt.map (timePlus · d)
      healthyAt := s.red.healthyAt.map (timePlus · d) } }

/-- A step by `d` edge units at S(c): the offset and every station time held as a reference move together; event 0x506.
DEDUCED (notes/assumptions/98.md). -/
def State.stepTime (s : State) (d : Int) : State :=
  let s := { s with
    clk := { s.clk with
      off := wrapInt 112 (s.clk.off + d * (2 ^ 48 : Nat)), grid := timePlus s.clk.grid d, lastCorr := s.clk.count }
    epo := { s.epo with seam := timePlus s.epo.seam d }
    arms := tabMap ArmRt.clear (ArmRt.shift d) s.arms
    cells := tabMap CellRt.clear (CellRt.shift d) s.cells
    lanes := tabMap LaneRt.clear (LaneRt.shift d) s.lanes
    drv := tabMap DrvRt.clear (DrvRt.shift d) s.drv
    ord := { s.ord with gens := tabMap GenRt.clear (GenRt.shift d) s.ord.gens } }
  let s := s.shiftClocks d
  let s := if s.flag Reg.TIM_ALARM_CTRL.arm 0 then
      s.wrPair Reg.TIM_ALARM_LO.at_lo Reg.TIM_ALARM_HI.at_hi 0 (timePlus (s.rdPair Reg.TIM_ALARM_LO.at_lo Reg.TIM_ALARM_HI.at_hi 0) d)
    else s
  (s.wr Reg.TIM_STEP_STAT.last_lo 0 (wrapInt 32 d)).count Reg.TIM_CORR_CNT.steps 0

/-- The step committed at this seam, if any. -/
def State.committedStep (s : State) (cm : Commits) : Option Int :=
  let d := signedOf 64 (s.rdPair Reg.TIM_STEP_LO.step_lo Reg.TIM_STEP_HI.step_hi 0)
  if (cm.regs.any (fun x => x.1 == 0x4030 || x.1 == 0x4034)) && d != 0 then some d else none

/-! ### Points of time and redundancy -/

/-- Master-to-slave delay of an Ethernet port in ns, binary32 (R360). -/
def State.portDelay (s : State) (p : Nat) : Nat :=
  fOfRat f32 false ((signedOf 32 (s.rd Reg.ETH_MPD_ACC.m_acc p) + signedOf 16 (s.rd Reg.ETH_MPD_CTRL.asym p)) * 5) 64

/-- Number of lanes HELD. -/
def State.lanesHeld (s : State) : Nat := ((List.range 96).filter (fun l => s.flag Reg.LANE_DELAY.held l)).length

/-- The station time of S(k) as the commits leave it: stepped, where they carry a time step (R347). -/
def State.steppedSeam (s : State) : Nat :=
  let x := s.dueFences.foldl State.commitFence (s, ⟨[], [], []⟩)
  match x.1.committedStep x.2 with
  | some d => timePlus s.epo.seam d
  | none => s.epo.seam

/-- The marker of a committed fence (R39): epoch k, the time of S(k), its identifier and number of entries. Its vector fires now while
ev_enable is 0, and then not again at its ring write (R480). -/
def State.fenceMarker (s : State) (t : Nat) (f : Fence) : State :=
  let data := f.id + f.entries.length * 2 ^ 16
  let fires := !s.flag Reg.EPO_CTRL.ev_enable 0 && decide (s.evq.buf.length < 1024)
  let s := s.raiseIn 0x010 0 1 s.epo.k t data
  { s with evq := { s.evq with told := if fires then s.evq.told ++ [(s.epo.k, data % 2 ^ 64)] else s.evq.told } }

/-- Points 0x1800 to 0x1806 (Table 11.3). DEDUCED (notes/assumptions/99.md). -/
def State.timePoints (s : State) : State :=
  let w := s.rd Reg.TIM_STAT.quality 0 + 8 * s.rd Reg.TIM_STAT.ref_lost 0 + 16 * s.rd Reg.TIM_STAT.ptp_held 0 + 256 * s.lanesHeld
  let s := ((s.setBoth 0x1800 s.epo.seam).setBoth 0x1801 s.clk.inc).setBoth 0x1802 (tagged w s.epo.k)
  let s := s.setBoth 0x1803 (s.rdPair Reg.TIM_PPS_IN_LO.stamp_lo Reg.TIM_PPS_IN_HI.stamp_hi 0)
  ((s.setBothFloat 0x1804 (s.portDelay 0)).setBothFloat 0x1805 (s.portDelay 1)).setBoth 0x1806 s.clk.grid

/-- Points 0x1900 to 0x1903 (Table 12.7). DEDUCED (notes/assumptions/99.md). -/
def State.redPoints (s : State) : State :=
  let newest := ((s.newestSlot).map (fun n => (s.slot n).image.epoch)).getD 0
  (((s.setBoth 0x1900 s.redWord).setBoth 0x1901 (s.rd Reg.RED_CLAIM.claim 0 + 2 ^ 32 * s.rd Reg.RED_PEER_CLAIM.claim 0)).setBoth
    0x1902 newest).setBoth 0x1903 s.red.roleEpoch

/-! ### Cell conditions (R507) -/

/-- A cell reports a fault group in its arm's reaction mask. A poisoned word keeps the group it had. -/
def State.reactingFault (s : State) (m : ArmEntry) (c : Nat) : Bool :=
  let g := (s.pub (livePos c 6)).v % 16
  !(s.cell c).retired && g != 0 && m.reactMask / 2 ^ g % 2 == 1

/-- Conditions 216 + a and 228 + a from P(k); `old` is the state before the seam. DEDUCED (notes/assumptions/37.md). -/
def State.cellConds (s old : State) (m : ArmEntry) : State :=
  let l := (s.armCells m.arm).map (·.cell)
  let f := l.filter (s.reactingFault m)
  let s := s.condCells (216 + m.arm) (!f.isEmpty) (f.filter (fun c => !old.reactingFault m c))
  let x := l.filter (fun c => (s.cell c).excluded)
  s.condCells (228 + m.arm) (!x.isEmpty) (x.filter (fun c => !(old.cell c).excluded))

/-! ### The seam -/

/-- The seam to come: the epoch that it begins and its station time (R351). -/
def State.comingSeam (s : State) : Nat × Nat :=
  (s.nextEpoch, if s.epo.begun then (s.seamAt s.nextEpoch).1 else s.epo.seam)

/-- Core time reaches the seam, and the next epoch has begun. DESIGN CHOICE (notes/assumptions/20.md). -/
def State.enterEpoch (s : State) (k t : Nat) : State :=
  { s with
    clk := { s.clk with count := (s.clk.count + s.clk.cyclesTo t) % 2 ^ 64 }
    epo := { s.epo with k := k, begun := true, seam := t } }

/-- P(k) is the working image of the epoch that ends (R37), and the working image of epoch k takes every word of it at the seam, so an
error met in P(k) later never reaches it (R504). DESIGN CHOICE (notes/assumptions/108.md). -/
def State.publish (s : State) : State := { s with pts := { s.pts with pub := s.pts.work } }

/-- P(k) is formed, and the markers of the fences due at S(k) go before every other event of the seam (R39), with the time of S(k) as a
step committed there leaves it (R347). -/
def State.publishSeam (s : State) : State :=
  let t := s.clearCommands.steppedSeam
  s.dueFences.foldl (fun (s : State) f => s.fenceMarker t f) s.clearCommands.publish

/-- Words that the seam reads (R58): those of the entries that it commits, two each, in issue order from the start of the staging area,
and the words of the image that becomes P(k), which the working image of epoch k takes over and the recorder samples.
DESIGN CHOICE (notes/assumptions/122.md). -/
def State.seamReads (s : State) (x : BadWord) : Bool :=
  wordInImage x .working || (x.memory == 0 && decide (1179648 ≤ x.word)
    && decide (x.word < 1179648 + 2 * (s.dueFences.map (fun f => f.entries.length)).sum))

/-- P(k) is formed from words of which some have wrong bits: what cannot be corrected is poisoned in it, and reported behind the
markers (R39, R60). -/
def State.publishRead (s : State) (errs : List BadWord) : State :=
  let s := (errs.foldl (fun (s : State) x => s.spoilWord x.memory.val x.word x.image x.bits) s).publishSeam
  errs.foldl (fun (s : State) x => s.reportWord x.memory.val x.word x.bits) s

/-- The due fences commit to P(k) and the working image; a committed time step follows (R37, R347). -/
def State.commitSeam (s : State) : State × Commits :=
  let x := s.dueFences.foldl State.commitFence (s, ⟨[], [], []⟩)
  match x.1.committedStep x.2 with
  | some d =>
    let s := (x.1.stepTime d).dropDue
    (s.raiseAt 0x506 0 0 s.epo.seam (wrapInt 64 d), x.2)
  | none => (x.1.dropDue, x.2)

/-- One seam fewer until the pin expires (R27); PIN_EXPIRED releases it. -/
def State.pinSeam (s : State) : State :=
  { s with epo := { s.epo with pin := s.epo.pin.map (fun p => { p with left := p.left - 1 }) } }

/-- The blocks of a unit whose point store is powered. -/
def State.blocksSeam (s old : State) (cm : Commits) : State :=
  let s := if s.epo.statReset then s.statResetAt s.epo.k else s
  let s := s.pinSeam
  let s := s.bs.arms.foldl (fun (s : State) m => s.armSeam cm.regs cm.windows m.arm) s
  let s := s.bs.units.foldl (fun (s : State) e =>
    s.unitSeam e ((cm.points.filter (fun x => x.1 == e.pointBase)).map (·.2))) s
  let s := (List.range 24).foldl (fun (s : State) ch => s.drvSeam ch) s
  let s := s.bs.arms.foldl (fun (s : State) m => s.cellConds old m) s
  let s := (((s.ordSeam cm.points).adcSeam).reactSeam).safSeam
  let s := s.laneSeam
  let s := (s.timePoints).redPoints
  s.drSample

/-- The fabric's seam: the counts of the epoch that ends, the flags of the new one, committed enables; its releases follow. -/
def State.fabricSeam (s : State) (cm : Commits) : State :=
  let s := s.fabEpoch
  s.fabEnables ((cm.regs.filter (fun x => x.1 == 0x30010)).map (·.2))

/-- The seam of a unit whose point store sleeps: warm lanes send their PRIO (R220), nothing has run in the fabric. -/
def State.sleepSeam (s : State) : State := s.laneSeam

/-- Every seam of a running bit-stream: P(k) is formed, an armed package takes effect (R443), fences commit. Without power for the point
store only the epoch count, packages, redundancy and heartbeats go on, and a due fence is dropped. The ring carries its
heartbeat first, then the mirror, HANDOVER, checkpoint and binding messages (R394). DESIGN CHOICE (notes/assumptions/20.md). -/
def State.seamStep (s : State) (errs : List BadWord) : State :=
  let before := s
  let sig := s.earlySig
  let s := s.modRed (fun r => { r with
    early := r.early || (!r.sig.isEmpty && r.sig != sig), sig := sig, demoteNow := false })
  let s := (s.wr Reg.RED_MIRROR_STAT.words 0 (min s.red.mirrorCount 65535)).modRed (fun r => { r with mirrorCount := 0 })
  let last := s.epo.seam
  let x := s.comingSeam
  let c := (s.clk.count + s.clk.cyclesTo x.2) % 2 ^ 64
  let awake := s.domain 3 == 2
  let s := (if awake then (s.catchPoints c).engineCounts c else s).adcAdvance c
  let s := ((s.enterEpoch x.1 x.2).modFab (fun f => { f with seamCycle := c, nextTick := c })).lateReleases
  let s := if awake then s.handoverBefore else s
  let old := s
  let s := (if awake then s.publishRead (errs.filter s.seamReads) else s).packageSeam
  let s :=
    if awake then
      let r := s.commitSeam
      let s := ((r.1.takeoverSeam).handoverIncoming).fabricSeam r.2
      let t := before.mirrorOf ((s.blocksSeam old r.2).ringSeam last)
      let s := t.handoverOutgoing.fabReleases.handoverWait.checkpointSeam
      t.mirrorOf (if r.2.regs.isEmpty then s else s.modRed (fun r => { r with early := true }))
    else s.dropDue.sleepSeam.ringSeam last
  let s := s.healthSeam
  if s.epo.k % (s.rd Reg.GLB_SEAM_DIV.div 0 + 1) = 0 then s.signal 3 else s

/-- SEAM (R37). `errs` are words that it reads with wrong bits (R58). -/
def execSeam (errs : List BadWord) (s : State) : Host.Outcome State Fault Refusal :=
  .next (if s.running then s.seamStep errs else s)

end Sys2Proof.Machine
end

