-- ==== Sys2Proof/Machine/Dispatch.lean ====
section
/-! DEFINITION. The meaning of every command: one arm per constructor of Instr, each one direct call of its meaning. -/

namespace Sys2Proof.Machine

/-- The effect of one command on everything but the queue of waiting commands. -/
def exec (i : Instr) (s : State) : Host.Outcome State Fault Refusal :=
  match i with
  | .seam errs => Sys2Proof.Machine.execSeam errs s
  | .fenceNamed => Sys2Proof.Machine.execFenceNamed s
  | .fenceNext => Sys2Proof.Machine.execFenceNext s
  | .stagedWrite w => Sys2Proof.Machine.execStagedWrite w s
  | .stageDiscard => Sys2Proof.Machine.execStageDiscard s
  | .statReset => Sys2Proof.Machine.execStatReset s
  | .pin release => Sys2Proof.Machine.execPin release s
  | .pinRelease => Sys2Proof.Machine.execPinRelease s
  | .pinExpired => Sys2Proof.Machine.execPinExpired s
  | .pointWindowRead req addr len errs copy => Sys2Proof.Machine.execPointWindowRead req addr len errs copy s
  | .benchLoaded bench errs => Sys2Proof.Machine.execBenchLoaded bench errs s
  | .extendedPointWrite addr len allEnabled vals => Sys2Proof.Machine.execExtendedPointWrite addr len allEnabled vals s
  | .ringWrite persist errs => Sys2Proof.Machine.execRingWrite persist errs s
  | .evqTailWrite value => Sys2Proof.Machine.execEvqTailWrite value s
  | .evqConfigWrite which value => Sys2Proof.Machine.execEvqConfigWrite which value s
  | .rollupFold errs => Sys2Proof.Machine.execRollupFold errs s
  | .scrub memory word image errors => Sys2Proof.Machine.execScrub memory word image errors s
  | .eccCorrected => Sys2Proof.Machine.execEccCorrected s
  | .ueAddrRead req => Sys2Proof.Machine.execUeAddrRead req s
  | .rcRead req addr len increments => Sys2Proof.Machine.execRcRead req addr len increments s
  | .registerWrite addr len byteEnables value setByHardware => Sys2Proof.Machine.execRegisterWrite addr len byteEnables value setByHardware s
  | .drArm => Sys2Proof.Machine.execDrArm s
  | .drTrigger => Sys2Proof.Machine.execDrTrigger s
  | .drDmaStart => Sys2Proof.Machine.execDrDmaStart s
  | .drTransferred errs => Sys2Proof.Machine.execDrTransferred errs s
  | .armDecision arm errs => Sys2Proof.Machine.execArmDecision arm errs s
  | .retireGo arm value => Sys2Proof.Machine.execRetireGo arm value s
  | .carrierInstant arm kind => Sys2Proof.Machine.execCarrierInstant arm kind s
  | .downlinkFrame lane tb inserted idle extra => Sys2Proof.Machine.execDownlinkFrame lane tb inserted idle extra s
  | .uplinkFrame lane rows te tz => Sys2Proof.Machine.execUplinkFrame lane rows te tz s
  | .identRequest lane => Sys2Proof.Machine.execIdentRequest lane s
  | .lockGained lane valid align => Sys2Proof.Machine.execLockGained lane valid align s
  | .lockLost lane headers => Sys2Proof.Machine.execLockLost lane headers s
  | .relock lane => Sys2Proof.Machine.execRelock lane s
  | .rxDisable lane => Sys2Proof.Machine.execRxDisable lane s
  | .alignSend lane => Sys2Proof.Machine.execAlignSend lane s
  | .alignReceived lane payload between skew => Sys2Proof.Machine.execAlignReceived lane payload between skew s
  | .eqWrite lane value => Sys2Proof.Machine.execEqWrite lane value s
  | .eyeScanStart lane value => Sys2Proof.Machine.execEyeScanStart lane value s
  | .eyeDone lane errors => Sys2Proof.Machine.execEyeDone lane errors s
  | .sstShiftDecision unit => Sys2Proof.Machine.execSstShiftDecision unit s
  | .drvCommit channel phase => Sys2Proof.Machine.execDrvCommit channel phase s
  | .drvReload channel => Sys2Proof.Machine.execDrvReload channel s
  | .drvPeriodStart channel fltLow => Sys2Proof.Machine.execDrvPeriodStart channel fltLow s
  | .drvModeWrite channel mode => Sys2Proof.Machine.execDrvModeWrite channel mode s
  | .drvStaticWrite channel hi lo => Sys2Proof.Machine.execDrvStaticWrite channel hi lo s
  | .drvTimedState channel => Sys2Proof.Machine.execDrvTimedState channel s
  | .drvTimedEdge channel fltLow => Sys2Proof.Machine.execDrvTimedEdge channel fltLow s
  | .drvCalibrate taps => Sys2Proof.Machine.execDrvCalibrate taps s
  | .nodeDelayMeasure channel rising delay => Sys2Proof.Machine.execNodeDelayMeasure channel rising delay s
  | .gateFault channel => Sys2Proof.Machine.execGateFault channel s
  | .gateFaultRepeat channel => Sys2Proof.Machine.execGateFaultRepeat channel s
  | .bootstrapUv channel => Sys2Proof.Machine.execBootstrapUv channel s
  | .hostRelease => Sys2Proof.Machine.execHostRelease s
  | .fabTick => Sys2Proof.Machine.execFabTick s
  | .opDispatch => Sys2Proof.Machine.execOpDispatch s
  | .opComplete engine errs copy => Sys2Proof.Machine.execOpComplete engine errs copy s
  | .jobCommit graph => Sys2Proof.Machine.execJobCommit graph s
  | .queueSpaceRelease graph => Sys2Proof.Machine.execQueueSpaceRelease graph s
  | .deadlineMiss graph => Sys2Proof.Machine.execDeadlineMiss graph s
  | .conditionQualified conds => Sys2Proof.Machine.execConditionQualified conds s
  | .conditionUnqualified cond => Sys2Proof.Machine.execConditionUnqualified cond s
  | .tripOutClear pin => Sys2Proof.Machine.execTripOutClear pin s
  | .prioBlockClear set => Sys2Proof.Machine.execPrioBlockClear set s
  | .hostCondition number => Sys2Proof.Machine.execHostCondition number s
  | .rampTick => Sys2Proof.Machine.execRampTick s
  | .rampHaltRequest engines => Sys2Proof.Machine.execRampHaltRequest engines s
  | .ordInEdge input rising => Sys2Proof.Machine.execOrdInEdge input rising s
  | .inputLoss input => Sys2Proof.Machine.execInputLoss input s
  | .ordInCfgWrite input value => Sys2Proof.Machine.execOrdInCfgWrite input value s
  | .genHoldover generator => Sys2Proof.Machine.execGenHoldover generator s
  | .tableDataWrite write req value => Sys2Proof.Machine.execTableDataWrite write req value s
  | .regTrigger core source => Sys2Proof.Machine.execRegTrigger core source s
  | .injRequest core entry source => Sys2Proof.Machine.execInjRequest core entry source s
  | .injService core => Sys2Proof.Machine.execInjService core s
  | .adcSample core codes => Sys2Proof.Machine.execAdcSample core codes s
  | .conversionCompare input code bits => Sys2Proof.Machine.execConversionCompare input code bits s
  | .dsSample core bits => Sys2Proof.Machine.execDsSample core bits s
  | .calValid core offsetRes gainRes skewRes => Sys2Proof.Machine.execCalValid core offsetRes gainRes skewRes s
  | .syscalStep => Sys2Proof.Machine.execSyscalStep s
  | .syscalDone => Sys2Proof.Machine.execSyscalDone s
  | .svFrame port frame => Sys2Proof.Machine.execSvFrame port frame s
  | .svTimeout sub => Sys2Proof.Machine.execSvTimeout sub s
  | .rateWrite value => Sys2Proof.Machine.execRateWrite value s
  | .refFallback => Sys2Proof.Machine.execRefFallback s
  | .refRestored => Sys2Proof.Machine.execRefRestored s
  | .delayAccept lane => Sys2Proof.Machine.execDelayAccept lane s
  | .laneReacquire => Sys2Proof.Machine.execLaneReacquire s
  | .ethRxFrame port bytes fcsOk phi buffer => Sys2Proof.Machine.execEthRxFrame port bytes fcsOk phi buffer s
  | .ethTxFrame port bytes stampRequested phi dmaError => Sys2Proof.Machine.execEthTxFrame port bytes stampRequested phi dmaError s
  | .mpdAccept port => Sys2Proof.Machine.execMpdAccept port s
  | .ethLinkChange port change => Sys2Proof.Machine.execEthLinkChange port change s
  | .ppsInEdge rising phi => Sys2Proof.Machine.execPpsInEdge rising phi s
  | .ppsInMissing => Sys2Proof.Machine.execPpsInMissing s
  | .ppsOutPulse => Sys2Proof.Machine.execPpsOutPulse s
  | .ppsOutEnd => Sys2Proof.Machine.execPpsOutEnd s
  | .qualFreeRun => Sys2Proof.Machine.execQualFreeRun s
  | .qualLocked => Sys2Proof.Machine.execQualLocked s
  | .qualHoldover => Sys2Proof.Machine.execQualHoldover s
  | .qualClear => Sys2Proof.Machine.execQualClear s
  | .holdoverWatch => Sys2Proof.Machine.execHoldoverWatch s
  | .timSnap => Sys2Proof.Machine.execTimSnap s
  | .alarmArm => Sys2Proof.Machine.execAlarmArm s
  | .alarm => Sys2Proof.Machine.execAlarm s
  | .heartbeatSend => Sys2Proof.Machine.execHeartbeatSend s
  | .heartbeatSymbol symbol => Sys2Proof.Machine.execHeartbeatSymbol symbol s
  | .hbPathLost path => Sys2Proof.Machine.execHbPathLost path s
  | .listenEnd => Sys2Proof.Machine.execListenEnd s
  | .ringHeartbeat m code rank claim epoch ckptSeq => Sys2Proof.Machine.execRingHeartbeat m code rank claim epoch ckptSeq s
  | .ckptSegment m seq segment bytes crc image => Sys2Proof.Machine.execCkptSegment m seq segment bytes crc image s
  | .slowBench m bench sweep words => Sys2Proof.Machine.execSlowBench m bench sweep words s
  | .bindSegment m record => Sys2Proof.Machine.execBindSegment m record s
  | .mirrorRun m run writes => Sys2Proof.Machine.execMirrorRun m run writes s
  | .handoverRequest m => Sys2Proof.Machine.execHandoverRequest m s
  | .handoverReady m => Sys2Proof.Machine.execHandoverReady m s
  | .handoverGrant m h => Sys2Proof.Machine.execHandoverGrant m h s
  | .handoverAbort m reason => Sys2Proof.Machine.execHandoverAbort m reason s
  | .slowCheckpointSend errs => Sys2Proof.Machine.execSlowCheckpointSend errs s
  | .takeoverWakeDone => Sys2Proof.Machine.execTakeoverWakeDone s
  | .takeoverRestoreDone errs => Sys2Proof.Machine.execTakeoverRestoreDone errs s
  | .revertRequested => Sys2Proof.Machine.execRevertRequested s
  | .redCmdStandby => Sys2Proof.Machine.execRedCmdStandby s
  | .redCmdActivate => Sys2Proof.Machine.execRedCmdActivate s
  | .redCmdHandover => Sys2Proof.Machine.execRedCmdHandover s
  | .redCmdAbort => Sys2Proof.Machine.execRedCmdAbort s
  | .ringPort port up seen => Sys2Proof.Machine.execRingPort port up seen s
  | .pairDemand pair channel => Sys2Proof.Machine.execPairDemand pair channel s
  | .pairDiscrepancy pair a b => Sys2Proof.Machine.execPairDiscrepancy pair a b s
  | .testPulse stp agrees => Sys2Proof.Machine.execTestPulse stp agrees s
  | .testFailed pair channel => Sys2Proof.Machine.execTestFailed pair channel s
  | .limitViolation channel => Sys2Proof.Machine.execLimitViolation channel s
  | .measDiscrepancy channel staleA staleB => Sys2Proof.Machine.execMeasDiscrepancy channel staleA staleB s
  | .envelopeViolation target => Sys2Proof.Machine.execEnvelopeViolation target s
  | .stopTimeout target => Sys2Proof.Machine.execStopTimeout target s
  | .safUnlock key => Sys2Proof.Machine.execSafUnlock key s
  | .unlockExpired => Sys2Proof.Machine.execUnlockExpired s
  | .safCmdStop targets => Sys2Proof.Machine.execSafCmdStop targets s
  | .safCmdBlock targets => Sys2Proof.Machine.execSafCmdBlock targets s
  | .safCmdRelease targets => Sys2Proof.Machine.execSafCmdRelease targets s
  | .safCmdClear targets => Sys2Proof.Machine.execSafCmdClear targets s
  | .safCmdTestNow => Sys2Proof.Machine.execSafCmdTestNow s
  | .soutTest output agrees => Sys2Proof.Machine.execSoutTest output agrees s
  | .soutReadback output channel => Sys2Proof.Machine.execSoutReadback output channel s
  | .expired => Sys2Proof.Machine.execExpired s
  | .safClockWindow count => Sys2Proof.Machine.execSafClockWindow count s
  | .selfCheck a b agree => Sys2Proof.Machine.execSelfCheck a b agree s
  | .load => Sys2Proof.Machine.execLoad s
  | .loadComplete a b => Sys2Proof.Machine.execLoadComplete a b s
  | .verify => Sys2Proof.Machine.execVerify s
  | .verifyComplete a b => Sys2Proof.Machine.execVerifyComplete a b s
  | .lrStage => Sys2Proof.Machine.execLrStage s
  | .lrStageComplete parts => Sys2Proof.Machine.execLrStageComplete parts s
  | .lrArm => Sys2Proof.Machine.execLrArm s
  | .lrCancel => Sys2Proof.Machine.execLrCancel s
  | .lrDiscard => Sys2Proof.Machine.execLrDiscard s
  | .keyProgram slot => Sys2Proof.Machine.execKeyProgram slot s
  | .keyRevoke slot => Sys2Proof.Machine.execKeyRevoke slot s
  | .keyDataWrite value => Sys2Proof.Machine.execKeyDataWrite value s
  | .flashReadPage => Sys2Proof.Machine.execFlashReadPage s
  | .flashProgramPage => Sys2Proof.Machine.execFlashProgramPage s
  | .flashEraseSector => Sys2Proof.Machine.execFlashEraseSector s
  | .flashCommandDone ok => Sys2Proof.Machine.execFlashCommandDone ok s
  | .flashDataAccess write req value => Sys2Proof.Machine.execFlashDataAccess write req value s
  | .domainRequest value => Sys2Proof.Machine.execDomainRequest value s
  | .domainWakeDone domain => Sys2Proof.Machine.execDomainWakeDone domain s
  | .domainFault domain => Sys2Proof.Machine.execDomainFault domain s
  | .pllUnlock pll => Sys2Proof.Machine.execPllUnlock pll s
  | .tempHigh tj => Sys2Proof.Machine.execTempHigh tj s
  | .tempNormal tj => Sys2Proof.Machine.execTempNormal tj s
  | .retRefresh tj late => Sys2Proof.Machine.execRetRefresh tj late s
  | .powerOnReset => Sys2Proof.Machine.execPowerOnReset s
  | .brownout => Sys2Proof.Machine.execBrownout s
  | .rstNAssert => Sys2Proof.Machine.execRstNAssert s
  | .resetHold200ms => Sys2Proof.Machine.execResetHold200ms s
  | .resetReleased straps => Sys2Proof.Machine.execResetReleased straps s
  | .pwrCmdReset key => Sys2Proof.Machine.execPwrCmdReset key s
  | .pwrCmdDormant key => Sys2Proof.Machine.execPwrCmdDormant key s
  | .dormantWake source => Sys2Proof.Machine.execDormantWake source s
  | .retOff off => Sys2Proof.Machine.execRetOff off s
  | .linkDown cause => Sys2Proof.Machine.execLinkDown cause s
  | .linkUp speed width => Sys2Proof.Machine.execLinkUp speed width s
  | .masterOff off => Sys2Proof.Machine.execMasterOff off s
  | .powerState d3 => Sys2Proof.Machine.execPowerState d3 s
  | .vector0Timeout => Sys2Proof.Machine.execVector0Timeout s
  | .msixUnmask vector => Sys2Proof.Machine.execMsixUnmask vector s
  | .irqTest vector => Sys2Proof.Machine.execIrqTest vector s
  | .pairDemandEnd pair => Sys2Proof.Machine.execPairDemandEnd pair s
  | .supplyOutOfRange supply => Sys2Proof.Machine.execSupplyOutOfRange supply s
  | .checkpointSent => Sys2Proof.Machine.execCheckpointSent s
  | .latchingRead req addr len => Sys2Proof.Machine.execLatchingRead req addr len s
  | .jtagInstruction code => Sys2Proof.Machine.execJtagInstruction code s
  | .jtagPortReset => Sys2Proof.Machine.execJtagPortReset s

end Sys2Proof.Machine
end

