-- ==== Sys2Proof/Machine/Tick.lean ====
section
/-! DEFINITION. What passes when no command waits: one core cycle (R344, notes/assumptions/8.md). -/

namespace Sys2Proof.Machine

/-- C advances by 1 (R344); the arbiter works up to the new cycle (R281), items left after a job release their graphs (R261), edges whose
time has come reach the drive pins (R162, R169), tap tables that wait may be installed (R166), and converter cores reach their round
boundaries (R318). DESIGN CHOICE (notes/assumptions/8.md). DEDUCED (notes/assumptions/103.md). -/
def State.tick (s : State) : State :=
  let s := { s with clk := { s.clk with count := (s.clk.count + 1) % 2 ^ 64 } }
  (s.drv.foldl (fun (s : State) x => (s.drvFlush x.1 s.now).drvInstall x.1) s.arbitrate.lateReleases).adcAdvance s.cycle

end Sys2Proof.Machine
end

