-- ==== Sys2Proof/Safety.lean ====
section
/-! DEFINITION. What holds of the block in every state that a run reaches: the limits the manual sets on the staging area, the
outstanding fences and the event buffer, and the form in which the model keeps its addressed stores. -/

namespace Sys2Proof

open Sys2Proof.Machine

/-- The three images and the extended points are in canonical form (Sparse.lean). -/
abbrev Safety.PointsOk (p : Pts) : Prop :=
  tabWf Pt.clear p.work = true ∧ tabWf Pt.clear p.pub = true ∧ tabWf Pt.clear p.pin = true ∧ tabWf Pt.clear p.ext = true

/-- At most 8,192 staging entries are in use (R29, R32) and at most 4 fences are outstanding (R35, R36). -/
abbrev Safety.StagingOk (e : Epo) : Prop :=
  e.opened.length + (e.fences.map (fun f => f.entries.length)).sum ≤ 8192 ∧ e.fences.length ≤ 4

/-- The tables of the fabric are in canonical form. -/
abbrev Safety.FabricOk (f : Fab) : Prop :=
  tabWf GraphRt.clear f.graphs = true ∧ tabWf Engine.idle f.engines = true ∧ tabWf StreamRt.empty f.streams = true ∧
    tabWf QueueRt.empty f.queues = true ∧ tabWf FlowRt.idle f.flows = true

/-- The tables of the ORD block are in canonical form. -/
abbrev Safety.OrdersOk (o : Ord) : Prop :=
  tabWf RampRt.clear o.ramps = true ∧ tabWf GenRt.clear o.gens = true ∧ tabWf InputRt.clear o.inputs = true

/-- The tables of the ADC block are in canonical form. -/
abbrev Safety.MeasureOk (a : Adc) : Prop :=
  tabWf CoreRt.clear a.cores = true ∧ tabWf AinRt.clear a.ains = true ∧ tabWf SvRt.clear a.subs = true

/-- The tables of the SAF domain are in canonical form. -/
abbrev Safety.SafetyOk (a : Saf) : Prop := tabWf PairRt.clear a.pairs = true ∧ tabWf PchRt.clear a.pchs = true

/-- The MSI-X table and its pending bits are in canonical form. -/
abbrev Safety.VectorsOk (h : HostIf) : Prop := tabWf Msix.reset h.msix = true ∧ tabWf false h.pba = true

/-- A state that a run may reach: registers, points, host memory, the arbiter's banks and the tables of like units in canonical form, the
staging area within its limits, and at most 1,024 records in the on-die event buffer (R44). -/
structure Safety.Sound (s : State) : Prop where
  regs : tabWf 0 s.regs = true
  points : Safety.PointsOk s.pts
  memory : tabWf 0 s.host.mem = true
  staging : Safety.StagingOk s.epo
  events : s.evq.buf.length ≤ 1024
  arms : tabWf ArmRt.clear s.arms = true
  cells : tabWf CellRt.clear s.cells = true
  lanes : tabWf LaneRt.clear s.lanes = true
  units : tabWf UnitRt.clear s.units = true
  drv : tabWf DrvRt.clear s.drv = true
  eth : tabWf Eth.reset s.eth = true
  conds : tabWf Cond.clear s.conds = true
  fabric : Safety.FabricOk s.fab
  orders : Safety.OrdersOk s.ord
  measure : Safety.MeasureOk s.adc
  safety : Safety.SafetyOk s.saf
  keys : tabWf KeySlot.blank s.cfg.keys = true
  vectors : Safety.VectorsOk s.host
  arbiter : tabWf Bank.idle s.arb.banks = true

/-- The core cycle that comes brings nothing that was set before: no graph waits for the items left after its job (R261), no edge is on its
way to the drive pins and no fault latch is to set again (R162, R169). -/
abbrev Safety.NothingDue (s : State) : Prop :=
  s.fab.again = [] ∧ ∀ ch, (s.drvRt ch).edges = [] ∧ (s.drvRt ch).again = none

/-! ### Frames: what a command leaves unchanged -/

/-- The parts of the machine: the fields of State. -/
inductive Safety.Part where
  | pending
  | wire
  | free
  | serial
  | regs
  | clk
  | epo
  | pts
  | evq
  | dr
  | host
  | eth
  | conds
  | jtag
  | arms
  | cells
  | lanes
  | units
  | drv
  | cal
  | fab
  | ord
  | adc
  | red
  | saf
  | cfg
  | pwr
  | bs
  | arb
deriving DecidableEq, Repr

/-- A part is the same in both states. -/
def Safety.Part.same : Safety.Part → State → State → Prop
  | .pending, s, t => t.pending = s.pending
  | .wire, s, t => t.wire = s.wire
  | .free, s, t => t.free = s.free
  | .serial, s, t => t.serial = s.serial
  | .regs, s, t => t.regs = s.regs
  | .clk, s, t => t.clk = s.clk
  | .epo, s, t => t.epo = s.epo
  | .pts, s, t => t.pts = s.pts
  | .evq, s, t => t.evq = s.evq
  | .dr, s, t => t.dr = s.dr
  | .host, s, t => t.host = s.host
  | .eth, s, t => t.eth = s.eth
  | .conds, s, t => t.conds = s.conds
  | .jtag, s, t => t.jtag = s.jtag
  | .arms, s, t => t.arms = s.arms
  | .cells, s, t => t.cells = s.cells
  | .lanes, s, t => t.lanes = s.lanes
  | .units, s, t => t.units = s.units
  | .drv, s, t => t.drv = s.drv
  | .cal, s, t => t.cal = s.cal
  | .fab, s, t => t.fab = s.fab
  | .ord, s, t => t.ord = s.ord
  | .adc, s, t => t.adc = s.adc
  | .red, s, t => t.red = s.red
  | .saf, s, t => t.saf = s.saf
  | .cfg, s, t => t.cfg = s.cfg
  | .pwr, s, t => t.pwr = s.pwr
  | .bs, s, t => t.bs = s.bs
  | .arb, s, t => t.arb = s.arb

/-- Every part but those listed is unchanged. -/
def Safety.Only (l : List Safety.Part) (s t : State) : Prop := ∀ p : Safety.Part, p ∉ l → p.same s t

/-- Every register field but those listed, each with its unit, reads as before. -/
def Safety.RegsBut (l : List (Field × Nat)) (s t : State) : Prop :=
  ∀ f i, regKey f i ∉ l.map (fun p => regKey p.1 p.2) → t.rd f i = s.rd f i

/-! ### Events (R40 to R45) -/

/-- The registers that raising an event may change: the interrupt causes and the count of lost records (R44, R480). -/
def Safety.eventRegs : List (Field × Nat) :=
  [(Reg.GLB_IRQ_STAT0.cause, 0), (Reg.GLB_IRQ_STAT1.cause, 0), (Reg.EPO_EV_LOST.count, 0)]

/-- The parts that raising an event may change. -/
def Safety.eventParts : List Safety.Part := [.regs, .evq, .host, .wire]

/-- What the mirror of a command changes while this unit mirrors (R389): the message on the ring, its sequence and the count of words. -/
def Safety.mirrorParts : List Safety.Part := [.wire, .red]

/-- One event is raised on the way from `s` to `t`: the record of the running epoch joins the on-die buffer while the mask enables its
code range and a place is free (R44, R45); without a place it is counted as dropped. -/
def Safety.Reports (s t : State) (code inst data : Nat) : Prop :=
  t.evq =
    if s.bitAt Reg.EPO_EV_MASK.range_en 0 (code / 256) then
      if s.evq.buf.length < 1024 then
        { s.evq with buf := s.evq.buf ++ [⟨code, inst, eventFlags code 0, s.epo.k, s.now, data % 2 ^ 64⟩] }
      else { s.evq with dropped := s.evq.dropped + 1 }
    else s.evq

/-- The blocks among what has left the device, as (lane, sync header, payload) (R216). -/
def Safety.blocks (w : List Wire) : List (Nat × Nat × Nat) :=
  w.filterMap (fun x => match x with
    | .line l h p _ => some (l, h, p)
    | _ => none)

/-- IDLE and ALIGN blocks, which may stand between the blocks of a frame (R178, R221). -/
def Safety.between (b : Nat × Nat × Nat) : Bool := b.2.1 == 2 && (b.2.2 / 2 ^ 56 == 0xB2 || b.2.2 / 2 ^ 56 == 0xD4)

/-- The commands that are a write by the host. -/
def Safety.hostWrite : Instr → Bool
  | .fenceNamed | .fenceNext | .stagedWrite _ | .stageDiscard | .statReset | .pin _ | .pinRelease
  | .extendedPointWrite _ _ _ _ | .evqTailWrite _ | .evqConfigWrite _ _ | .registerWrite _ _ _ _ _ | .drArm | .drTrigger
  | .drDmaStart | .retireGo _ _ | .identRequest _ | .relock _ | .rxDisable _ | .eqWrite _ _ | .eyeScanStart _ _
  | .drvCommit _ _ | .drvModeWrite _ _ | .drvStaticWrite _ _ _ | .hostRelease | .tripOutClear _ | .prioBlockClear _
  | .hostCondition _ | .rampHaltRequest _ | .ordInCfgWrite _ _ | .syscalStep | .rateWrite _ | .delayAccept _ | .laneReacquire
  | .mpdAccept _ | .qualFreeRun | .qualLocked | .qualHoldover | .qualClear | .timSnap | .alarmArm | .redCmdStandby
  | .redCmdActivate | .redCmdHandover | .redCmdAbort | .safUnlock _ | .safCmdStop _ | .safCmdBlock _ | .safCmdRelease _
  | .safCmdClear _ | .safCmdTestNow | .load | .verify | .lrStage | .lrArm | .lrCancel | .lrDiscard | .keyProgram _
  | .keyRevoke _ | .keyDataWrite _ | .flashReadPage | .flashProgramPage | .flashEraseSector | .domainRequest _
  | .pwrCmdReset _ | .pwrCmdDormant _ | .retOff _ | .msixUnmask _ | .irqTest _ => true
  | .tableDataWrite write _ _ | .flashDataAccess write _ _ => write
  | .regTrigger _ source => source == .host
  | .injRequest _ _ source => source == .host
  | .seam _ | .pinExpired | .pointWindowRead _ _ _ _ _ | .benchLoaded _ _ | .ringWrite _ _ | .rollupFold _ | .scrub _ _ _ _
  | .eccCorrected | .ueAddrRead _ | .rcRead _ _ _ _ | .drTransferred _ | .armDecision _ _ | .carrierInstant _ _
  | .downlinkFrame _ _ _ _ _ | .uplinkFrame _ _ _ _ | .lockGained _ _ _ | .lockLost _ _ | .alignSend _ | .alignReceived _ _ _ _
  | .eyeDone _ _ | .sstShiftDecision _ | .drvReload _ | .drvPeriodStart _ _ | .drvTimedState _ | .drvTimedEdge _ _
  | .drvCalibrate _ | .nodeDelayMeasure _ _ _ | .gateFault _ | .gateFaultRepeat _ | .bootstrapUv _ | .fabTick | .opDispatch
  | .opComplete _ _ _ | .jobCommit _ | .queueSpaceRelease _ | .deadlineMiss _ | .conditionQualified _ | .conditionUnqualified _
  | .rampTick | .ordInEdge _ _ | .inputLoss _ | .genHoldover _ | .injService _
  | .adcSample _ _ | .conversionCompare _ _ _ | .dsSample _ _ | .calValid _ _ _ _ | .syscalDone | .svFrame _ _ | .svTimeout _
  | .refFallback | .refRestored | .ethRxFrame _ _ _ _ _ | .ethTxFrame _ _ _ _ _ | .ethLinkChange _ _ | .ppsInEdge _ _
  | .ppsInMissing | .ppsOutPulse | .ppsOutEnd | .holdoverWatch | .alarm | .heartbeatSend | .heartbeatSymbol _ | .hbPathLost _
  | .listenEnd | .ringHeartbeat _ _ _ _ _ _ | .ckptSegment _ _ _ _ _ _ | .slowBench _ _ _ _ | .bindSegment _ _
  | .mirrorRun _ _ _ | .handoverRequest _ | .handoverReady _ | .handoverGrant _ _ | .handoverAbort _ _ | .slowCheckpointSend _
  | .takeoverWakeDone | .takeoverRestoreDone _ | .revertRequested | .ringPort _ _ _ | .pairDemand _ _
  | .pairDiscrepancy _ _ _ | .testPulse _ _ | .testFailed _ _ | .limitViolation _ | .measDiscrepancy _ _ _
  | .envelopeViolation _ | .stopTimeout _ | .unlockExpired | .soutTest _ _ | .soutReadback _ _ | .expired | .safClockWindow _
  | .selfCheck _ _ _ | .loadComplete _ _ | .verifyComplete _ _ | .lrStageComplete _ | .flashCommandDone _ | .domainWakeDone _
  | .domainFault _ | .pllUnlock _ | .tempHigh _ | .tempNormal _ | .retRefresh _ _ | .powerOnReset | .brownout | .rstNAssert
  | .resetHold200ms | .resetReleased _ | .dormantWake _ | .linkDown _ | .linkUp _ _ | .masterOff _ | .powerState _
  | .vector0Timeout | .pairDemandEnd _ | .supplyOutOfRange _ | .checkpointSent | .latchingRead _ _ _ | .jtagInstruction _
  | .jtagPortReset => false

/-- A message of a type that this unit accepts (R394 to R396): each of its frames whole, from another unit, addressed here, not seen before,
for this role, and with no outdated term. -/
abbrev Safety.RingOk (m : RingMsg) (type : Nat) (frames : List (List Nat)) (s : State) : Prop :=
  m.type.val = type ∧ m.term < 2 ^ 28 ∧ m.seq < 2 ^ 16 ∧ m.eofs = msgSealed m frames ∧ s.ringBypassed = false
    ∧ m.src.val ≠ s.rd Reg.RED_RING_CFG.address 0 ∧ (m.broadcast = true ∨ m.dst.val = s.rd Reg.RED_RING_CFG.address 0)
    ∧ s.red.seen.contains (m.src.val, m.seq) = false ∧ (m.role = 1 → s.role = 3) ∧ (m.role = 2 → s.role = 1 ∨ s.role = 4 ∨ s.role = 6)
    ∧ (type = 0 ∨ s.rd Reg.RED_TERM_SEEN.term 0 ≤ m.term)

/-- The pairs of source and sequence kept once a message is received (R394). -/
def Safety.seenAfter (s : State) (m : RingMsg) : List (Nat × Nat) :=
  (m.src.val, m.seq) :: s.red.seen.filter (fun x => x.1 != m.src.val || decide ((m.seq + 2 ^ 16 - x.2) % 2 ^ 16 < 2 ^ 15))

/-- A received message has been forwarded through the other port, and its term is at most the highest term seen. -/
abbrev Safety.Heard (s : State) (m : RingMsg) (t : State) : Prop :=
  (s.wire ++ [.forward (1 - m.port.val) m.src.val m.seq]) <+: t.wire
    ∧ t.rd Reg.RED_TERM_SEEN.term 0 = max (s.rd Reg.RED_TERM_SEEN.term 0) m.term

/-- The host reaches the registers: neither reset nor DORMANT nor D3hot holds (R462, R466, R473). -/
abbrev Safety.HostUp (s : State) : Prop := s.deaf = false

end Sys2Proof
end

