-- ==== Sys2Proof/WellFormed.lean ====
section
/-! DEFINITION. Which terms a sender can form: a host access within BAR0 with data of its width, a ring message whose type is that of
its row. A term that is not well formed stands for no command; the ring rows refuse it by name (`Refusal.illFormed`). -/

namespace Sys2Proof

open Sys2Proof.Machine

/-- A staged write that a host can issue. -/
def StagedWrite.wellFormed : StagedWrite → Bool
  | .register addr value => decide (addr < 2 ^ 25) && decide (value < 2 ^ 32)
  | .points addr len _ vals => decide (addr < 2 ^ 25) && decide (len ≤ 4096) && vals.all (fun v => decide (v < 2 ^ 64))

/-- A command that its sender can form. PRESUMED (notes/assumptions/11.md). -/
def Instr.wellFormed : Instr → Bool
  | .stagedWrite w => w.wellFormed
  | .pointWindowRead req addr len _ _ => decide (req < 2 ^ 16) && decide (addr < 2 ^ 25) && decide (len ≤ 4096)
  | .extendedPointWrite addr len _ vals => decide (addr < 2 ^ 25) && decide (len ≤ 4096) && vals.all (fun v => decide (v < 2 ^ 64))
  | .evqTailWrite value => decide (value < 2 ^ 32)
  | .evqConfigWrite _ value => decide (value < 2 ^ 32)
  | .ueAddrRead req => decide (req < 2 ^ 16)
  | .rcRead req addr len _ => decide (req < 2 ^ 16) && decide (addr < 2 ^ 25) && decide (len ≤ 4096)
  | .registerWrite addr len _ value _ => decide (addr < 2 ^ 25) && decide (len ≤ 4096) && decide (value < 2 ^ 64)
  | .retireGo _ value => decide (value < 2 ^ 32)
  | .eqWrite _ value => decide (value < 2 ^ 32)
  | .eyeScanStart _ value => decide (value < 2 ^ 32)
  | .rampHaltRequest engines => decide (engines < 2 ^ 32)
  | .ordInCfgWrite _ value => decide (value < 2 ^ 32)
  | .tableDataWrite _ req value => decide (req < 2 ^ 16) && decide (value < 2 ^ 32)
  | .rateWrite value => decide (value < 2 ^ 32)
  | .ringHeartbeat m _ _ _ _ _ => msgFits m 0
  | .ckptSegment m _ _ _ _ _ => msgFits m 1
  | .slowBench m _ _ _ => msgFits m 2
  | .bindSegment m _ => msgFits m 3
  | .mirrorRun m _ _ => msgFits m 4
  | .handoverRequest m => msgFits m 5
  | .handoverReady m => msgFits m 5
  | .handoverGrant m _ => msgFits m 5
  | .handoverAbort m _ => msgFits m 5
  | .safUnlock key => decide (key < 2 ^ 32)
  | .safCmdStop targets => decide (targets < 2 ^ 16)
  | .safCmdBlock targets => decide (targets < 2 ^ 16)
  | .safCmdRelease targets => decide (targets < 2 ^ 16)
  | .safCmdClear targets => decide (targets < 2 ^ 16)
  | .keyDataWrite value => decide (value < 2 ^ 32)
  | .flashDataAccess _ req value => decide (req < 2 ^ 16) && decide (value < 2 ^ 32)
  | .domainRequest value => decide (value < 2 ^ 32)
  | .latchingRead req addr len => decide (req < 2 ^ 16) && decide (addr < 2 ^ 25) && decide (len ≤ 4096)
  | .seam _ | .fenceNamed | .fenceNext | .stageDiscard | .statReset | .pin _ | .pinRelease | .pinExpired | .benchLoaded _ _
  | .ringWrite _ _ | .rollupFold _ | .scrub _ _ _ _ | .eccCorrected | .drArm | .drTrigger | .drDmaStart | .drTransferred _
  | .armDecision _ _ | .carrierInstant _ _ | .downlinkFrame _ _ _ _ _ | .uplinkFrame _ _ _ _ | .identRequest _ | .lockGained _ _ _
  | .lockLost _ _ | .relock _ | .rxDisable _ | .alignSend _ | .alignReceived _ _ _ _ | .eyeDone _ _ | .sstShiftDecision _
  | .drvCommit _ _ | .drvReload _ | .drvPeriodStart _ _ | .drvModeWrite _ _ | .drvStaticWrite _ _ _ | .drvTimedState _
  | .drvTimedEdge _ _ | .drvCalibrate _ | .nodeDelayMeasure _ _ _ | .gateFault _ | .gateFaultRepeat _ | .bootstrapUv _
  | .hostRelease | .fabTick | .opDispatch | .opComplete _ _ _ | .jobCommit _ | .queueSpaceRelease _ | .deadlineMiss _
  | .conditionQualified _ | .conditionUnqualified _ | .tripOutClear _ | .prioBlockClear _ | .hostCondition _ | .rampTick
  | .ordInEdge _ _ | .inputLoss _ | .genHoldover _ | .regTrigger _ _ | .injRequest _ _ _ | .injService _ | .adcSample _ _
  | .conversionCompare _ _ _ | .dsSample _ _ | .calValid _ _ _ _ | .syscalStep | .syscalDone | .svFrame _ _ | .svTimeout _
  | .refFallback | .refRestored | .delayAccept _ | .laneReacquire | .ethRxFrame _ _ _ _ _ | .ethTxFrame _ _ _ _ _
  | .mpdAccept _ | .ethLinkChange _ _ | .ppsInEdge _ _ | .ppsInMissing | .ppsOutPulse | .ppsOutEnd | .qualFreeRun | .qualLocked
  | .qualHoldover | .qualClear | .holdoverWatch | .timSnap | .alarmArm | .alarm | .heartbeatSend | .heartbeatSymbol _
  | .hbPathLost _ | .listenEnd | .slowCheckpointSend _ | .takeoverWakeDone | .takeoverRestoreDone _ | .revertRequested
  | .redCmdStandby | .redCmdActivate | .redCmdHandover | .redCmdAbort | .ringPort _ _ _ | .pairDemand _ _
  | .pairDiscrepancy _ _ _ | .testPulse _ _ | .testFailed _ _ | .limitViolation _ | .measDiscrepancy _ _ _
  | .envelopeViolation _ | .stopTimeout _ | .unlockExpired | .safCmdTestNow | .soutTest _ _ | .soutReadback _ _ | .expired
  | .safClockWindow _ | .selfCheck _ _ _ | .load | .loadComplete _ _ | .verify | .verifyComplete _ _ | .lrStage
  | .lrStageComplete _ | .lrArm | .lrCancel | .lrDiscard | .keyProgram _ | .keyRevoke _ | .flashReadPage | .flashProgramPage
  | .flashEraseSector | .flashCommandDone _ | .domainWakeDone _ | .domainFault _ | .pllUnlock _ | .tempHigh _ | .tempNormal _
  | .retRefresh _ _ | .powerOnReset | .brownout | .rstNAssert | .resetHold200ms | .resetReleased _ | .pwrCmdReset _
  | .pwrCmdDormant _ | .dormantWake _ | .retOff _ | .linkDown _ | .linkUp _ _ | .masterOff _ | .powerState _
  | .vector0Timeout | .msixUnmask _ | .irqTest _ | .pairDemandEnd _ | .supplyOutOfRange _ | .checkpointSent
  | .jtagInstruction _ | .jtagPortReset => true

end Sys2Proof
end

