-- ==== Sys2Proof/Certificates/Slice0/Obligations.lean ====
section
/-! DEFINITION. The statements for the provers. -/

section Statements

open Sys2Proof Sys2Proof.Machine Sys2Proof.Safety

/-! ### The machine as a whole -/

/-- A step carries out the command at the front of the queue, with the queue's rest. -/
def Obligations.StepRunsFront : Prop :=
  ∀ (c : Instr) (rest : List Instr) (s : State), step { s with pending := c :: rest } = exec c { s with pending := rest }

/-- The model's own choice (notes/assumptions/8.md): with no command waiting one core cycle passes; C advances by one modulo 2^64 (R344),
and graphs are released by the items left after a job (R261), edges whose time has come reach the drive pins (R162, R169). Where there are
none, only the arbiter, tap tables that wait, and converter cores in mode 1 move on besides; where there is no such thing either, C alone
changes. In that cycle a free bank chooses the request of the lowest class, and within a class the first after the one granted last (R281);
the winner's burst begins in the next one, which advances the position of the class it was granted in and records the wait (R282); a winner
that is gone costs one dead cycle, which is counted, and no position (R283). Where the manual is silent it rests on the model's own choices
in notes/assumptions/117.md, 120.md. -/
def Obligations.IdleStepCounts : Prop :=
  (∀ s : State, s.pending = [] →
    ∃ t, step s = .next t ∧ t.clk.count = (s.clk.count + 1) % 2 ^ 64 ∧ t.clk.inc = s.clk.inc ∧ t.clk.off = s.clk.off
      ∧ t.clk.grid = s.clk.grid ∧ Only [.wire, .free, .regs, .clk, .pts, .evq, .host, .conds, .drv, .fab, .adc, .red, .arb] s t
      ∧ (NothingDue s → Only [.regs, .clk, .drv, .adc, .arb] s t)
      ∧ (NothingDue s → s.arb.reqs = [] → (∀ x ∈ s.arb.banks, x.2.winner = none) → (∀ ch, (s.drvRt ch).fresh = (none, none)) →
          (∀ c, (s.core c).mode ≠ 1) → Only [.clk, .arb] s t ∧ t.arb.reqs = [] ∧ t.arb.banks = s.arb.banks))
  ∧ (∀ (s : State) (r q : ArbReq) (x : Bank), s.pending = [] → s.arb.at_ = s.clk.count → s.clk.count + 1 < 2 ^ 64 → r.bank < 32 →
      r.since ≤ s.clk.count → q.bank = r.bank → NothingDue s →
      let c := s.arbClass r.who
      let wait := match x.cls with
        | 0 => Reg.FAB_ARB_WAIT.class0
        | 1 => Reg.FAB_ARB_WAIT.class1
        | 2 => Reg.FAB_ARB_WAIT.class2
        | _ => Reg.FAB_ARB_WAIT.class3
      (s.arb.reqs = [r] → s.arb.banks = [] →
        ∃ t, step s = .next t ∧ t.arb.reqs = [r] ∧ t.bank r.bank = { Bank.idle with winner := some r, cls := c }
          ∧ (∀ b, b ≠ r.bank → t.bank b = Bank.idle))
      ∧ (s.arb.reqs = [r, q] ∨ s.arb.reqs = [q, r] → s.arb.banks = [(r.bank, x)] → x.winner = none → x.until_ ≤ s.clk.count + 1 →
          c < s.arbClass q.who ∨ c = s.arbClass q.who ∧ arbDistance (x.turn.getD c 87) r.who < arbDistance (x.turn.getD c 87) q.who →
        ∃ t, step s = .next t ∧ t.arb.reqs = s.arb.reqs ∧ t.bank r.bank = { x with winner := some r, cls := c })
      ∧ (s.arb.reqs = [r] → s.arb.banks = [(r.bank, x)] → x.winner = some r →
        ∃ t, step s = .next t ∧ t.arb.reqs = [] ∧ t.bank r.bank = { x with winner := none, until_ := s.clk.count + r.len, turn := x.turn.set x.cls r.who }
          ∧ t.rd wait 0 = max (s.rd wait 0) (min (s.clk.count - r.since) 255) % 2 ^ wait.width
          ∧ t.rd Reg.FAB_ARB_DEAD_CNT.count 0 = s.rd Reg.FAB_ARB_DEAD_CNT.count 0)
      ∧ (s.arb.reqs = [] → s.arb.banks = [(r.bank, x)] → x.winner = some r →
        ∃ t, step s = .next t ∧ t.arb.reqs = [] ∧ t.bank r.bank = { x with winner := none }
          ∧ t.rd Reg.FAB_ARB_DEAD_CNT.count 0
              = min (s.rd Reg.FAB_ARB_DEAD_CNT.count 0 + 1) (2 ^ Reg.FAB_ARB_DEAD_CNT.count.width - 1)
          ∧ t.rd wait 0 = s.rd wait 0))

/-- Reset leaves a sound state: canonical stores, an empty staging area, no fence, no event. -/
def Obligations.ResetIsSound : Prop := Sound State.reset

/-- Every step keeps the machine sound: the stores stay canonical, the staging area never holds more than 8,192 entries (R29, R32),
never more than four fences are outstanding (R36), and the on-die event buffer never holds more than 1,024 records (R44). -/
def Obligations.StepKeepsSound : Prop :=
  ∀ s t : State, Sound s → step s = .next t → Sound t

/-- Every command that a sender can form completes. It leaves the queue and the serial number alone, and it takes back nothing that has
left the pins and links.
Where the manual is silent it rests on the model's own choices in notes/assumptions/4.md, 11.md. -/
def Obligations.EveryCommandCompletes : Prop :=
  ∀ (c : Instr) (s : State), c.wellFormed = true →
    ∃ t, exec c s = .next t ∧ t.pending = s.pending ∧ t.serial = s.serial ∧ s.wire <+: t.wire

/-- Key slots are one-way fuses (R432, R434): whatever step runs, a programmed slot keeps its hash, a revoked slot stays revoked, and only
KEY_PROGRAM and KEY_REVOKE change a slot at all. -/
def Obligations.KeySlotsAreFuses : Prop :=
  ∀ (s t : State), Sound s → step s = .next t →
    (∀ n, ((s.keySlot n).hash.isSome = true → (t.keySlot n).hash = (s.keySlot n).hash)
      ∧ ((s.keySlot n).revoked = true → (t.keySlot n).revoked = true))
    ∧ ((∀ n, s.pending.head? ≠ some (.keyProgram n) ∧ s.pending.head? ≠ some (.keyRevoke n)) → t.cfg.keys = s.cfg.keys)

/-- Flash contents change only when a flash command completes (R436). -/
def Obligations.FlashChangesAtDone : Prop :=
  ∀ (s t : State), step s = .next t → (∀ b, s.pending.head? ≠ some (.flashCommandDone b)) → t.cfg.flash = s.cfg.flash

/-- What a host writes while the link has no power or the function is in D3hot has no effect (R462, R466, R473): every command that is a
host write leaves the state as it is.
Where the manual is silent it rests on the model's own choices in notes/assumptions/90.md. -/
def Obligations.DeafHostWritesDoNothing : Prop :=
  ∀ (c : Instr) (s : State), s.deaf = true → hostWrite c = true → exec c s = .next s

/-! ### Coherent state: seams, fences, images and points (R17 to R69) -/

/-- SEAM: while no bit-stream runs there is no seam. While one runs, and no handover or take-over is under way at this seam, the next epoch
begins: k takes the next number, whatever words the seam reads with wrong bits. Without power for the point store the seam grid goes on:
S(k) falls where R351 puts it, and a fence that is due leaves the list; where no package takes effect and no graph waits for an item,
points, arms, drive channels and the SAF domain stay as they are, and cells and lanes too unless a lane that is not up carries its PRIO
(R220). Where the manual is silent it rests on the model's own choices in notes/assumptions/20.md, 101.md. -/
def Obligations.SeamBeginsNextEpoch : Prop :=
  ∀ (s : State) (errs : List BadWord), Sound s →
    (s.running = false → exec (.seam errs) s = .next s)
    ∧ (s.running = true → s.domain 3 = 2 → s.red.hand = .none → s.red.restoreDone = false →
        ∃ t, exec (.seam errs) s = .next t ∧ t.epo.k = s.nextEpoch ∧ t.epo.begun = true ∧ t.pending = s.pending ∧ s.wire <+: t.wire
          ∧ t.cfg.keys = s.cfg.keys ∧ t.cfg.flash = s.cfg.flash ∧ t.eth = s.eth ∧ t.jtag = s.jtag ∧ t.cal = s.cal)
    ∧ (s.running = true → s.domain 3 ≠ 2 →
        ∃ t, exec (.seam errs) s = .next t ∧ t.epo.k = s.nextEpoch ∧ t.epo.begun = true
          ∧ t.epo.seam = (if s.epo.begun then (s.seamAt s.nextEpoch).1 else s.epo.seam)
          ∧ t.epo.fences = s.epo.fences.filter (fun f => decide (s.nextEpoch < f.target)) ∧ t.epo.opened = s.epo.opened
          ∧ ((∀ p, s.cfg.staged = some p → s.rd Reg.CFG_LR_STAT.state 0 ≠ 3 ∨ s.nextEpoch < p.target) → s.fab.again = [] →
              t.pts = s.pts ∧ t.arms = s.arms ∧ t.drv = s.drv ∧ t.saf = s.saf
              ∧ ((∀ e ∈ s.bs.lanes, s.laneUp e.lane = true ∨ s.transmits e = false) → t.cells = s.cells ∧ t.lanes = s.lanes)))

/-- The commits of a seam (R37, R39): the published image of epoch k is the working image of the epoch that ends, with what the due fences
carry written to both. Without a due fence the images are equal and no marker is raised; a due fence that carries one point writes it to
both images and changes no other point, shows k and its identifier in EPO_FENCE_DONE and done_id, leaves the list, and queues its marker
with k, the time of S(k), its identifier and its number of entries, before anything else that the seam raises. A due fence that carries a
time step queues its marker with the stepped time (R347).
Where the manual is silent it rests on the model's own choices in notes/assumptions/20.md, 108.md. -/
def Obligations.SeamCommitsFence : Prop :=
  ∀ s : State, Sound s →
    (s.dueFences = [] → let t := s.publishSeam.commitSeam.1
      t.pts.pub = s.pts.work ∧ t.pts.work = s.pts.work ∧ t.evq = s.evq)
    ∧ (∀ f a v, s.dueFences = [f] → f.entries = [.point a v] →
        let t := s.publishSeam.commitSeam.1
        s.publishSeam.pts.pub = s.pts.work ∧ s.publishSeam.evq = t.evq ∧
        t.pub a = ⟨v % 2 ^ 64, false⟩ ∧ t.work a = ⟨v % 2 ^ 64, false⟩ ∧ (∀ b, b ≠ a → t.pub b = s.work b ∧ t.work b = s.work b)
          ∧ t.rd Reg.EPO_FENCE_DONE_LO.done_lo 0 = s.epo.k % 2 ^ 32 ∧ t.rd Reg.EPO_FENCE_DONE_HI.done_hi 0 = s.epo.k / 2 ^ 32 % 2 ^ 32
          ∧ t.rd Reg.EPO_FENCE_STAT.done_id 0 = f.id % 256
          ∧ t.epo.fences = s.epo.fences.filter (fun g => decide (s.epo.k < g.target))
          ∧ (s.evq.buf.length < 1024 → t.evq.buf = s.evq.buf ++
              [⟨0x010, 0, eventFlags 0x010 1, s.epo.k, s.epo.seam, (f.id + 2 ^ 16) % 2 ^ 64⟩]))
    ∧ (∀ f v, s.dueFences = [f] → f.entries = [.reg 0x4030 0 v] → v % 2 ^ 32 ≠ 0 → s.evq.buf.length < 1024 →
        s.publishSeam.evq.buf = s.evq.buf ++
          [⟨0x010, 0, eventFlags 0x010 1, s.epo.k, (s.epo.seam + v % 2 ^ 32) % 2 ^ 64, (f.id + 2 ^ 16) % 2 ^ 64⟩])

/-- FENCE_NAMED is accepted when none of the conditions of Table 1.1 holds (R34): the open generation becomes the fence for the named
target, under the next identifier modulo 256 (R36), and a new generation opens. FENCE_NEXT takes as its target the first seam that meets the
commit lead and no earlier than any outstanding target (R36). Where the manual is silent it rests on the model's own choices in
notes/assumptions/22.md, 107.md. -/
def Obligations.FencesClose : Prop :=
  (∀ s : State, Sound s → HostUp s →
      let target := s.rdPair Reg.EPO_FENCE_TGT_LO.target_lo Reg.EPO_FENCE_TGT_HI.target_hi 0
      let id := (s.rd Reg.EPO_FENCE_STAT.last_id 0 + 1) % 256
      s.targetMeets target = true → s.epo.fences.length < 4 → s.lastTarget ≤ target → target ≤ s.epo.k + 2 ^ 24 →
      s.rd Reg.EPO_STAGE_STAT.overflow 0 = 0 → s.capacityBroken = false →
      ∃ t, exec .fenceNamed s = .next t
        ∧ t.epo.fences = s.epo.fences ++ [⟨id, target, s.epo.opened⟩] ∧ t.epo.opened = [] ∧ t.epo.k = s.epo.k ∧ t.epo.pin = s.epo.pin
        ∧ t.rd Reg.EPO_FENCE_STAT.status 0 = 0 ∧ t.rd Reg.EPO_FENCE_STAT.last_id 0 = id
        ∧ Only [.regs, .epo] s t ∧ RegsBut [(Reg.EPO_FENCE_STAT.status, 0), (Reg.EPO_FENCE_STAT.last_id, 0)] s t)
  ∧ (∀ (s : State) (j : Nat), Sound s → HostUp s →
      let first := max s.nextEpoch s.lastTarget
      let id := (s.rd Reg.EPO_FENCE_STAT.last_id 0 + 1) % 256
      first ≤ j → j < first + 16 → s.targetMeets j = true → (∀ i, first ≤ i → i < j → s.targetMeets i = false) →
      s.epo.fences.length < 4 → s.rd Reg.EPO_STAGE_STAT.overflow 0 = 0 → s.capacityBroken = false →
      ∃ t, exec .fenceNext s = .next t
        ∧ t.epo.fences = s.epo.fences ++ [⟨id, j, s.epo.opened⟩] ∧ t.epo.opened = [] ∧ t.epo.k = s.epo.k ∧ t.epo.pin = s.epo.pin
        ∧ t.rd Reg.EPO_FENCE_STAT.status 0 = 0 ∧ t.rd Reg.EPO_FENCE_STAT.last_id 0 = id
        ∧ Only [.regs, .epo] s t ∧ RegsBut [(Reg.EPO_FENCE_STAT.status, 0), (Reg.EPO_FENCE_STAT.last_id, 0)] s t)

/-- A refused fence shows its status, is counted, and raises event 0x011 with the status (R35). Every status but OVERFLOW leaves the open
generation and its entries; OVERFLOW discards it and clears overflow (R32). No fence is added. -/
def Obligations.FenceRefusalKeepsGeneration : Prop :=
  ∀ s : State, Sound s → HostUp s →
    let target := s.rdPair Reg.EPO_FENCE_TGT_LO.target_lo Reg.EPO_FENCE_TGT_HI.target_hi 0
    let refused (c : Instr) (st : Nat) : Prop := st ≠ 0 →
      ∃ t, exec c s = .next t
        ∧ t.epo.fences = s.epo.fences ∧ t.epo.opened = (if st = 5 then [] else s.epo.opened)
        ∧ t.rd Reg.EPO_FENCE_STAT.status 0 = st
        ∧ t.rd Reg.EPO_STAGE_STAT.overflow 0 = (if st = 5 then 0 else s.rd Reg.EPO_STAGE_STAT.overflow 0)
        ∧ t.rd Reg.EPO_FENCE_STAT.refused_cnt 0
            = min (s.rd Reg.EPO_FENCE_STAT.refused_cnt 0 + 1) (2 ^ Reg.EPO_FENCE_STAT.refused_cnt.width - 1)
        ∧ Reports s t 0x011 0 st
        ∧ Only [.regs, .epo, .evq, .host, .wire] s t
        ∧ RegsBut ([(Reg.EPO_FENCE_STAT.status, 0), (Reg.EPO_FENCE_STAT.refused_cnt, 0), (Reg.EPO_STAGE_STAT.overflow, 0)] ++ eventRegs) s t
    refused .fenceNamed (s.fenceStatus true target) ∧ refused .fenceNext (s.fenceStatus false 0)

/-- STAGED_WRITE of points that the bit-stream declares host-writable: one staging entry per point, in ascending address order, at the end
of the open generation (R29, R30, R32); nothing is published yet. STAGE_DISCARD discards the open generation and clears overflow (R32);
STAT_RESET waits for the next seam (R50). Where the manual is silent it rests on the model's own choices in notes/assumptions/13.md. -/
def Obligations.StagingArea : Prop :=
  (∀ (s : State) (a n : Nat) (vals : List Nat), HostUp s →
      a + n ≤ 0x10000 → 1 ≤ n → 8 * n ≤ Config.maxPayload → vals.length = n →
      (∀ i, i < n → s.bs.hostPoints.contains (a + i) = true) → s.stagedCount + n ≤ 8192 →
      ∃ t, exec (.stagedWrite (.points (0x100000 + 8 * a) (8 * n) true vals)) s = .next t
        ∧ t.epo.opened = s.epo.opened ++ vals.zipIdx.map (fun x => .point (a + x.2) (x.1 % 2 ^ 64))
        ∧ t.epo.fences = s.epo.fences ∧ t.epo.k = s.epo.k ∧ t.epo.pin = s.epo.pin ∧ Only [.epo] s t)
  ∧ (∀ s : State, Sound s → HostUp s →
      (∃ t, exec .stageDiscard s = .next t ∧ t.epo.opened = [] ∧ t.epo.fences = s.epo.fences ∧ t.epo.k = s.epo.k
          ∧ t.rd Reg.EPO_STAGE_STAT.overflow 0 = 0
          ∧ Only [.regs, .epo] s t ∧ RegsBut [(Reg.EPO_STAGE_STAT.overflow, 0)] s t)
      ∧ (∃ t, exec .statReset s = .next t ∧ t.epo.statReset = true ∧ t.epo.opened = s.epo.opened ∧ t.epo.fences = s.epo.fences
          ∧ Only [.epo] s t))

/-- PIN pins the image published at that moment under the running epoch's number, for hold + 1 seams (R25, R27); with release it moves a pin
that holds (R28); without it a pin that holds is unchanged and EPO_PIN_STAT.refused is set (R28). A pin ends with PIN_RELEASE or when its
count of seams has run out (R27): reads are served from the published image again; the expiry sets EPO_PIN_STAT.expired and raises event
0x014. A pin with seams left is not touched by PIN_EXPIRED.
Where the manual is silent it rests on the model's own choices in notes/assumptions/107.md. -/
def Obligations.PinLifecycle : Prop :=
  (∀ (s : State) (release : Bool), Sound s → HostUp s →
      (s.epo.pin = none ∨ release = true →
        ∃ t, exec (.pin release) s = .next t ∧ t.pts.pin = s.pts.pub ∧ t.pts.pub = s.pts.pub ∧ t.pts.work = s.pts.work
          ∧ t.epo.pin = some ⟨s.epo.k, s.rd Reg.EPO_PIN_CTRL.hold 0 + 1⟩ ∧ t.epo.fences = s.epo.fences ∧ t.epo.opened = s.epo.opened
          ∧ t.rd Reg.EPO_PIN_EPOCH_LO.pin_epoch_lo 0 = s.epo.k % 2 ^ 32
          ∧ t.rd Reg.EPO_PIN_EPOCH_HI.pin_epoch_hi 0 = s.epo.k / 2 ^ 32 % 2 ^ 32
          ∧ Only [.regs, .epo, .pts] s t
          ∧ RegsBut [(Reg.EPO_PIN_EPOCH_LO.pin_epoch_lo, 0), (Reg.EPO_PIN_EPOCH_HI.pin_epoch_hi, 0)] s t)
      ∧ (s.epo.pin ≠ none → release = false →
        ∃ t, exec (.pin release) s = .next t ∧ t.rd Reg.EPO_PIN_STAT.refused 0 = 1 ∧ Only [.regs] s t
          ∧ RegsBut [(Reg.EPO_PIN_STAT.refused, 0)] s t))
  ∧ (∀ s : State, Sound s →
      (HostUp s → ∃ t, exec .pinRelease s = .next t ∧ t.epo.pin = none ∧ t.pts.pub = s.pts.pub ∧ t.pts.work = s.pts.work
          ∧ Only [.epo, .pts] s t)
      ∧ (∀ p, s.epo.pin = some p → p.left = 0 →
          ∃ t, exec .pinExpired s = .next t ∧ t.epo.pin = none ∧ t.pts.pub = s.pts.pub ∧ t.pts.work = s.pts.work
            ∧ t.rd Reg.EPO_PIN_STAT.expired 0 = 1 ∧ Reports s t 0x014 0 p.number
            ∧ Only ([.epo, .pts] ++ eventParts) s t ∧ RegsBut ([(Reg.EPO_PIN_STAT.expired, 0)] ++ eventRegs) s t)
      ∧ (∀ p, s.epo.pin = some p → p.left ≠ 0 → exec .pinExpired s = .next s))

/-- POINT_WINDOW_READ of one station point answers the value of the image that serves the host: the pinned image while a pin holds with
route at 1, else the published one (R24, R26); a poisoned point sets the EP bit (R61). Nothing but the answer changes. LATCHING_READ of
EPO_EPOCH_LO answers the low word of k and latches the high word for its requester (R19): whatever the epoch is by then, the requester's
next read of EPO_EPOCH_HI answers the latched word and frees the latch. RC_READ of a counter answers its value and clears it; a count in the
same cycle is not lost: the counter then holds 1 (R14). UE_ADDR_READ answers the latched address and puts both fields back to their reset
values, 'none latched' (R68). Where the manual is silent it rests on the model's own choices in notes/assumptions/7.md, 91.md. -/
def Obligations.HostReads : Prop :=
  (∀ (s : State) (req a : Nat) (copy : Fin 3), HostUp s → a < 0x10000 →
      let p := if s.epo.pin.isSome && s.flag Reg.EPO_PIN_CTRL.route 0 then tabGet Pt.clear s.pts.pin a else s.pub a
      ∃ t, exec (.pointWindowRead req (0x100000 + 8 * a) 8 [] copy) s = .next t
        ∧ t.host.rdata = some ⟨req, 0x100000 + 8 * a, if p.bad then .poisoned else .ok, [p.v]⟩
        ∧ t.host.mem = s.host.mem ∧ t.host.msix = s.host.msix ∧ t.host.pba = s.host.pba ∧ t.host.latch = s.host.latch
        ∧ Only [.host, .arb] s t)
  ∧ (∀ (s : State) (req : Nat), HostUp s →
      (tabGet none s.host.latch (latchKey req 0x300C) = none →
        ∃ t, exec (.latchingRead req 0x300C 4) s = .next t ∧ t.host.rdata = some ⟨req, 0x300C, if s.regBad 0x300C then .poisoned else .ok, [s.epo.k % 2 ^ 32]⟩
          ∧ t.host.latch = tabSet none s.host.latch (latchKey req 0x3010) (some (s.epo.k / 2 ^ 32 % 2 ^ 32))
          ∧ t.host.mem = s.host.mem ∧ t.host.msix = s.host.msix ∧ t.host.pba = s.host.pba ∧ Only [.host] s t)
      ∧ (∀ w, tabGet none s.host.latch (latchKey req 0x3010) = some w →
        ∃ t, exec (.rcRead req 0x3010 4 0) s = .next t ∧ t.host.rdata = some ⟨req, 0x3010, .ok, [w]⟩
          ∧ t.host.latch = tabSet none s.host.latch (latchKey req 0x3010) none
          ∧ t.host.mem = s.host.mem ∧ t.host.msix = s.host.msix ∧ t.host.pba = s.host.pba ∧ Only [.host] s t))
  ∧ (∀ (s : State) (req inc : Nat), Sound s → HostUp s →
      ∀ f ∈ [Reg.EPO_WR_REJECT_CNT.count, Reg.EPO_EV_LOST.count, Reg.EPO_CE_CNT.count, Reg.EPO_UE_CNT.count],
        tabGet none s.host.latch (latchKey req f.addr) = none →
        ∃ t, exec (.rcRead req f.addr 4 inc) s = .next t ∧ t.host.rdata = some ⟨req, f.addr, if s.regBad f.addr then .poisoned else .ok, [s.rd f 0 % 2 ^ 32]⟩
          ∧ t.rd f 0 = inc % 2 ∧ t.host.latch = s.host.latch ∧ t.host.mem = s.host.mem
          ∧ Only [.regs, .host] s t ∧ RegsBut [(f, 0)] s t)
  ∧ (∀ (s : State) (req : Nat), Sound s → HostUp s → tabGet none s.host.latch (latchKey req 0x306C) = none →
      ∃ t, exec (.ueAddrRead req) s = .next t
        ∧ t.host.rdata = some ⟨req, 0x306C, if s.regBad 0x306C then .poisoned else .ok,
            [s.rd Reg.EPO_UE_ADDR.word 0 % 2 ^ 28 + s.rd Reg.EPO_UE_ADDR.memory 0 % 2 ^ 4 * 2 ^ 28]⟩
        ∧ t.rd Reg.EPO_UE_ADDR.memory 0 = 0xF ∧ t.rd Reg.EPO_UE_ADDR.word 0 = 0xFFFFFFF ∧ t.host.latch = s.host.latch
        ∧ Only [.regs, .host] s t ∧ RegsBut [(Reg.EPO_UE_ADDR.memory, 0), (Reg.EPO_UE_ADDR.word, 0)] s t)

/-- REGISTER_WRITE: an RW field takes the value at once; a W1C bit is cleared unless the hardware sets it in the same cycle (R13); a word
that was poisoned is whole again (R61); a value outside the range of an ST field is discarded, counted and reported with event 0x013 (R30);
a write of register space that is not one aligned word with every byte enable is discarded, counted, and its address is latched; while
acc_ev is 1 event 0x002 reports it (R476). EXTENDED_POINT_WRITE of writable points of one cell acts directly (R51): each point holds its
value and is whole again. Where their benches are resident or frames are free, every other extended point and every image is as before; a
bench that must make room (R54) takes no value from any point. A point that may not be written is discarded, counted and reported (R30).
Where the manual is silent it rests on the model's own choices in notes/assumptions/10.md, 21.md, 23.md, 92.md, 117.md. -/
def Obligations.HostWritesAct : Prop :=
  (∀ (s : State) (v hw : Nat), Sound s → HostUp s →
      let whole (t : State) (a : Nat) : Prop := t.epo = { s.epo with badRegs := s.epo.badRegs.filter (fun x => x != (a, 0)) }
      (∀ f ∈ [Reg.GLB_SEAM_DIV.div, Reg.GLB_IRQ_EN0.en, Reg.GLB_IRQ_EN1.en, Reg.GLB_SCRATCH0.data, Reg.PWR_WAKE_TIMER.s,
            Reg.CFG_FLASH_ADDR.addr, Reg.CFG_LR_ADDR.addr, Reg.EPO_FENCE_TGT_LO.target_lo, Reg.EPO_FENCE_TGT_HI.target_hi,
            Reg.EPO_EV_MASK.range_en, Reg.TIM_ALARM_LO.at_lo, Reg.TIM_ALARM_HI.at_hi, Reg.TIM_ERA_HI.era_hi, Reg.TIM_QUAL_WATCH.ms],
          ∃ t, exec (.registerWrite f.addr 4 15 v hw) s = .next t ∧ t.rd f 0 = v % 2 ^ f.width ∧ whole t f.addr
            ∧ Only ([.regs, .epo] ++ mirrorParts) s t ∧ RegsBut [(f, 0)] s t)
      ∧ (∃ t, exec (.registerWrite 0x3018 4 15 v hw) s = .next t
          ∧ t.rd Reg.EPO_PIN_STAT.expired 0 = ((s.rd Reg.EPO_PIN_STAT.expired 0 &&& (1 - v % 2)) ||| hw % 2) % 2
          ∧ t.rd Reg.EPO_PIN_STAT.refused 0 = ((s.rd Reg.EPO_PIN_STAT.refused 0 &&& (1 - v / 2 % 2)) ||| hw / 2 % 2) % 2
          ∧ whole t 0x3018 ∧ Only ([.regs, .epo] ++ mirrorParts) s t
          ∧ RegsBut [(Reg.EPO_PIN_STAT.expired, 0), (Reg.EPO_PIN_STAT.refused, 0)] s t)
      ∧ (v % 2 ^ 16 < 400 ∨ 40000 < v % 2 ^ 16 → ∃ t, exec (.registerWrite 0x3008 4 15 v hw) s = .next t ∧ t.epo = s.epo
          ∧ t.rd Reg.EPO_WR_REJECT_CNT.count 0 = min (s.rd Reg.EPO_WR_REJECT_CNT.count 0 + 1) (2 ^ 32 - 1)
          ∧ Reports s t 0x013 0 0x3008 ∧ Only (eventParts ++ mirrorParts) s t
          ∧ RegsBut ((Reg.EPO_WR_REJECT_CNT.count, 0) :: eventRegs) s t)
      ∧ (∀ addr len be, addr < 0x100000 → addr < 0x800 ∨ 0xC08 ≤ addr → len ≠ 4 ∨ addr % 4 ≠ 0 ∨ be ≠ 15 →
          ∃ t, exec (.registerWrite addr len be v hw) s = .next t ∧ t.epo = s.epo
            ∧ t.rd Reg.GLB_ACC_ERR_CNT.count 0 = min (s.rd Reg.GLB_ACC_ERR_CNT.count 0 + 1) (2 ^ Reg.GLB_ACC_ERR_CNT.count.width - 1)
            ∧ t.rd Reg.GLB_ACC_ERR_ADDR.addr 0 = addr % 2 ^ Reg.GLB_ACC_ERR_ADDR.addr.width ∧ t.rd Reg.GLB_ACC_ERR_ADDR.write 0 = 1
            ∧ (s.flag Reg.GLB_CTRL.acc_ev 0 = true → Reports s t 0x002 0 (addr + 2 ^ 31))
            ∧ (s.flag Reg.GLB_CTRL.acc_ev 0 = false → t.evq = s.evq) ∧ Only (eventParts ++ mirrorParts) s t
            ∧ RegsBut ([(Reg.GLB_ACC_ERR_CNT.count, 0), (Reg.GLB_ACC_ERR_ADDR.addr, 0), (Reg.GLB_ACC_ERR_ADDR.write, 0)]
                ++ eventRegs) s t))
  ∧ (∀ (s : State) (c p v : Nat), Sound s → HostUp s → c < 16384 → 16 ≤ p → p < 64 →
      let addr := 0x800000 + 512 * c + 8 * p
      (∀ vals : List Nat, vals ≠ [] → vals.length ≤ 32 → p + vals.length ≤ 64 → (∀ i, i < vals.length → extWritable (p + i) = true) →
        ∃ t, exec (.extendedPointWrite addr (8 * vals.length) true vals) s = .next t
          ∧ (∀ i, i < vals.length → t.ext (extPos c (p + i)) = ⟨vals.getD i 0 % 2 ^ 64, false⟩)
          ∧ (∀ a, t.ext a ≠ s.ext a → (t.ext a).v = (s.ext a).v ∨ ∃ i, i < vals.length ∧ a = extPos c (p + i))
          ∧ t.pts.work = s.pts.work ∧ t.pts.pub = s.pts.pub ∧ t.pts.pin = s.pts.pin ∧ t.epo.opened = s.epo.opened
          ∧ t.epo.fences = s.epo.fences ∧ Only [.epo, .pts, .arb] s t
          ∧ (s.epo.frames.length + vals.length ≤ 47 ∨ (∀ i, i < vals.length → (s.frameOf (benchOf c (p + i))).isSome = true) →
              (∀ a, (∀ i, i < vals.length → a ≠ extPos c (p + i)) → t.ext a = s.ext a)
              ∧ ∀ i, i < vals.length → (t.frameOf (benchOf c (p + i))).isSome = true))
      ∧ (extWritable p = false →
        ∃ t, exec (.extendedPointWrite addr 8 true [v]) s = .next t
          ∧ t.rd Reg.EPO_WR_REJECT_CNT.count 0 = min (s.rd Reg.EPO_WR_REJECT_CNT.count 0 + 1) (2 ^ 32 - 1)
          ∧ Reports s t 0x013 0 addr ∧ Only eventParts s t ∧ RegsBut ([(Reg.EPO_WR_REJECT_CNT.count, 0)] ++ eventRegs) s t))

/-- BENCH_LOADED brings a bench into a frame, and a read that waited for it alone completes (R54). ROLLUP_FOLD folds one bench in ascending
order and shows the fold epoch (R56); it touches extended points only, and with rollup_enable at 0 nothing happens. Both take their words
through the arbiter (R281). Where the manual is silent it rests on the model's own choices in notes/assumptions/29.md, 109.md, 121.md. -/
def Obligations.BenchFrames : Prop :=
  (∀ (s : State) (c p req : Nat) (b : Fin 192), c < 16384 → 16 ≤ p → p < 63 → b.val = benchOf c p →
      s.epo.waits = [⟨req, 0x800000 + 512 * c + 8 * p, 8, [none]⟩] →
      ∃ t, exec (.benchLoaded b []) s = .next t ∧ (t.frameOf b.val).isSome = true ∧ t.epo.waits = []
        ∧ t.host.rdata = some ⟨req, 0x800000 + 512 * c + 8 * p, if (s.ext (extPos c p)).bad then .poisoned else .ok,
            [(s.ext (extPos c p)).v]⟩
        ∧ Only [.epo, .pts, .host, .arb] s t)
  ∧ (∀ s : State,
      (s.flag Reg.EPO_CTRL.rollup_enable 0 = false → exec (.rollupFold []) s = .next s)
      ∧ (s.flag Reg.EPO_CTRL.rollup_enable 0 = true →
          ∃ t, exec (.rollupFold []) s = .next t ∧ t.epo.rollNext = (s.epo.rollNext + 1) % 192
            ∧ t.epo.folds = tabSet 0 s.epo.folds s.epo.rollNext (s.epo.k % 2 ^ 24) ∧ (t.frameOf s.epo.rollNext).isSome = true
            ∧ t.epo.k = s.epo.k ∧ t.epo.fences = s.epo.fences ∧ t.epo.opened = s.epo.opened
            ∧ t.pts.work = s.pts.work ∧ t.pts.pub = s.pts.pub ∧ t.pts.pin = s.pts.pin ∧ Only [.free, .epo, .pts, .arb] s t))

/-- RING_WRITE: while the ring is enabled, may be written and is not full, and no word of the record is found with wrong bits, the oldest
buffered record goes to host memory at the head, which advances by one modulo the ring size (R43); records that were dropped are announced
by one loss record with their number, behind the records that were waiting (R44). The 32 bytes at the head are all of host memory that
changes. Otherwise nothing happens. EVQ_TAIL_WRITE is accepted from the present tail up to and including the head, and otherwise discarded
under R30; EVQ_CONFIG_WRITE takes the value and sets head and tail to 0, and is discarded while ev_enable is 1 or outside the field's range
(R483). Where the manual is silent it rests on the model's own choices in notes/assumptions/19.md, 122.md. -/
def Obligations.EventRing : Prop :=
  (∀ (s : State) (persist : Bool) (errs : List BadWord), Sound s →
      (s.ringOpen = false ∨ s.evq.buf = [] → exec (.ringWrite persist errs) s = .next s)
      ∧ (∀ e rest, s.ringOpen = true → s.evq.buf = e :: rest →
          (∀ x ∈ errs, x.memory ≠ 0 ∨ x.word < 1196032 ∨ 1196036 ≤ x.word) →
          let a := s.rd Reg.EPO_EVQ_BASE_LO.base_lo 0 * 4096 + s.rd Reg.EPO_EVQ_BASE_HI.base_hi 0 * 2 ^ 32
            + s.rd Reg.EPO_EVQ_HEAD.head 0 * 32
          let r : Event := { e with flags := if persist ∧ e.flags / 8 % 2 = 0 then e.flags + 8 else e.flags }
          ∃ t, exec (.ringWrite persist errs) s = .next t
            ∧ t.rd Reg.EPO_EVQ_HEAD.head 0 = (s.rd Reg.EPO_EVQ_HEAD.head 0 + 1) % s.ringSize % 2 ^ 16
            ∧ t.hostLoad a 32 = eventBytes r ∧ (∀ b, b < a ∨ a + 32 ≤ b → tabGet 0 t.host.mem b = tabGet 0 s.host.mem b)
            ∧ t.evq.buf = rest ++ (if s.evq.dropped = 0 then []
                else [⟨0x015, 0, eventFlags 0x015 2, s.epo.k, s.now, s.evq.dropped⟩])
            ∧ t.evq.dropped = 0 ∧ Only eventParts s t ∧ RegsBut ((Reg.EPO_EVQ_HEAD.head, 0) :: eventRegs) s t))
  ∧ (∀ (s : State) (value : Nat), Sound s → HostUp s →
      let n := s.ringSize
      let tail := s.rd Reg.EPO_EVQ_TAIL.tail 0
      let head := s.rd Reg.EPO_EVQ_HEAD.head 0
      let discarded (t : State) (addr : Nat) : Prop :=
        t.rd Reg.EPO_WR_REJECT_CNT.count 0 = min (s.rd Reg.EPO_WR_REJECT_CNT.count 0 + 1) (2 ^ 32 - 1) ∧ Reports s t 0x013 0 addr
          ∧ Only eventParts s t ∧ RegsBut ([(Reg.EPO_WR_REJECT_CNT.count, 0)] ++ eventRegs) s t
      (value < n → value < 2 ^ 16 → (value + n - tail) % n ≤ (head + n - tail) % n →
        ∃ t, exec (.evqTailWrite value) s = .next t ∧ t.rd Reg.EPO_EVQ_TAIL.tail 0 = value ∧ Only [.regs] s t
          ∧ RegsBut [(Reg.EPO_EVQ_TAIL.tail, 0)] s t)
      ∧ (value < n → value < 2 ^ 16 → (head + n - tail) % n < (value + n - tail) % n →
        ∃ t, exec (.evqTailWrite value) s = .next t ∧ discarded t 0x3054)
      ∧ (n ≤ value → value < 2 ^ 16 → ∃ t, exec (.evqTailWrite value) s = .next t ∧ discarded t 0x3054)
      ∧ (∀ which, s.flag Reg.EPO_CTRL.ev_enable 0 = false →
          let f := RingField which
          let v := bitsOf value f.lo f.width
          f.min ≤ v → v ≤ f.max →
          ∃ t, exec (.evqConfigWrite which value) s = .next t ∧ t.rd f 0 = v ∧ t.rd Reg.EPO_EVQ_HEAD.head 0 = 0
            ∧ t.rd Reg.EPO_EVQ_TAIL.tail 0 = 0 ∧ Only [.regs] s t
            ∧ RegsBut [(f, 0), (Reg.EPO_EVQ_HEAD.head, 0), (Reg.EPO_EVQ_TAIL.tail, 0)] s t)
      ∧ (∀ which, s.flag Reg.EPO_CTRL.ev_enable 0 = true →
          ∃ t, exec (.evqConfigWrite which value) s = .next t ∧ discarded t (RingField which).addr))

/-- SCRUB of a word: two wrong bits or fewer are corrected and counted; more are uncorrectable (R58, R60): counted, the address latched when
none is, event 0x021 raised, and a published station point reads as poisoned, its value kept. A memory whose period is 0 is not scrubbed.
ECC_CORRECTED reports a second that reached a non-zero threshold and opens the next (R62).
Where the manual is silent it rests on the model's own choices in notes/assumptions/29.md, 106.md, 108.md. -/
def Obligations.ScrubCorrectsOrPoisons : Prop :=
  ∀ (s : State) (a n : Nat), Sound s → a < 0x10000 →
    (s.rd Reg.EPO_ECC_CTRL.ps_period 0 = 0 → exec (.scrub 0 (786432 + a) .published n) s = .next s)
    ∧ (s.rd Reg.EPO_ECC_CTRL.ps_period 0 ≠ 0 → 1 ≤ n → n ≤ 2 →
        ∃ t, exec (.scrub 0 (786432 + a) .published n) s = .next t ∧ t.pts = s.pts ∧ t.epo.ceSecond = s.epo.ceSecond + 1
          ∧ t.rd Reg.EPO_CE_CNT.count 0 = min (s.rd Reg.EPO_CE_CNT.count 0 + 1) (2 ^ 32 - 1)
          ∧ Only [.regs, .epo, .arb] s t ∧ RegsBut [(Reg.EPO_CE_CNT.count, 0)] s t)
    ∧ (s.rd Reg.EPO_ECC_CTRL.ps_period 0 ≠ 0 → 2 < n →
        ∃ t, exec (.scrub 0 (786432 + a) .published n) s = .next t ∧ t.pub a = ⟨(s.pub a).v, true⟩
          ∧ (∀ b, b ≠ a → t.pub b = s.pub b) ∧ t.pts.work = s.pts.work ∧ t.pts.pin = s.pts.pin ∧ t.pts.ext = s.pts.ext
          ∧ t.rd Reg.EPO_UE_CNT.count 0 = min (s.rd Reg.EPO_UE_CNT.count 0 + 1) (2 ^ 32 - 1)
          ∧ (s.rd Reg.EPO_UE_ADDR.memory 0 = 0xF →
              t.rd Reg.EPO_UE_ADDR.memory 0 = 0 ∧ t.rd Reg.EPO_UE_ADDR.word 0 = 786432 + a)
          ∧ (s.rd Reg.EPO_UE_ADDR.memory 0 ≠ 0xF →
              t.rd Reg.EPO_UE_ADDR.memory 0 = s.rd Reg.EPO_UE_ADDR.memory 0 ∧ t.rd Reg.EPO_UE_ADDR.word 0 = s.rd Reg.EPO_UE_ADDR.word 0)
          ∧ Reports s t 0x021 0 (786432 + a) ∧ Only ([.pts, .conds, .red, .arb] ++ eventParts) s t
          ∧ RegsBut ([(Reg.EPO_UE_CNT.count, 0), (Reg.EPO_UE_ADDR.memory, 0), (Reg.EPO_UE_ADDR.word, 0)] ++ eventRegs) s t)
    ∧ (let thr := s.rd Reg.EPO_ECC_CTRL.ce_event_thr 0
       ∃ t, exec .eccCorrected s = .next t ∧ t.epo.ceSecond = 0
        ∧ (if thr ≠ 0 ∧ thr ≤ s.epo.ceSecond then Reports s t 0x020 0 s.epo.ceSecond else t.evq = s.evq)
        ∧ t.epo.k = s.epo.k ∧ t.epo.fences = s.epo.fences ∧ Only ([.epo] ++ eventParts) s t ∧ RegsBut eventRegs s t)

/-- The disturbance recorder: DR_ARM empties and arms it unless the record would not fit or a copy is under way (R64); the first DR_TRIGGER
starts the post-trigger count and raises event 0x030, later ones only count (R65); DR_DMA_START starts the copy of a frozen record, and
DR_TRANSFERRED ends it with the record in host memory at its 64-byte-aligned address and event 0x031 (R66). Where the manual is silent it
rests on the model's own choices in notes/assumptions/28.md, 110.md, 121.md. -/
def Obligations.RecorderCycle : Prop :=
  ∀ s : State, Sound s →
    (HostUp s → s.drBusy = false →
      s.rd Reg.EPO_DR_LEN.pre 0 + s.rd Reg.EPO_DR_LEN.post 0 ≤ (33554432 - 32) / ((2 + s.rd Reg.EPO_DR_CTRL.channels 0) * 8) →
      ∃ t, exec .drArm s = .next t ∧ t.rd Reg.EPO_DR_CTRL.arm 0 = 1 ∧ t.rd Reg.EPO_STAT.dr_armed 0 = 1
        ∧ t.rd Reg.EPO_STAT.dr_frozen 0 = 0 ∧ t.rd Reg.EPO_DR_STAT.extra_triggers 0 = 0
        ∧ t.dr.pre = [] ∧ t.dr.post = [] ∧ t.dr.trig = none ∧ Only [.regs, .dr] s t
        ∧ RegsBut [(Reg.EPO_DR_CTRL.arm, 0), (Reg.EPO_STAT.dr_armed, 0), (Reg.EPO_STAT.dr_frozen, 0), (Reg.EPO_DR_STAT.extra_triggers, 0)] s t)
    ∧ (HostUp s → s.drBusy = true →
      ∃ t, exec .drArm s = .next t ∧ t.rd Reg.EPO_DR_STAT.arm_refused 0 = 1 ∧ Only [.regs] s t
        ∧ RegsBut [(Reg.EPO_DR_STAT.arm_refused, 0)] s t)
    ∧ (HostUp s → s.drArmed = true → s.dr.trig = none → s.rd Reg.EPO_DR_LEN.post 0 ≠ 0 →
      ∃ t, exec .drTrigger s = .next t ∧ t.dr.trig = some (s.epo.k, s.now) ∧ t.dr.left = s.rd Reg.EPO_DR_LEN.post 0
        ∧ t.dr.pre = s.dr.pre ∧ t.drArmed = true
        ∧ (s.dr.pre.length < s.rd Reg.EPO_DR_LEN.pre 0 → t.rd Reg.EPO_DR_STAT.short 0 = 1) ∧ Reports s t 0x030 0 s.epo.k
        ∧ Only ([.dr] ++ eventParts) s t ∧ RegsBut ([(Reg.EPO_DR_STAT.short, 0)] ++ eventRegs) s t)
    ∧ (HostUp s → s.dr.trig ≠ none →
      ∃ t, exec .drTrigger s = .next t
        ∧ t.rd Reg.EPO_DR_STAT.extra_triggers 0
            = min (s.rd Reg.EPO_DR_STAT.extra_triggers 0 + 1) (2 ^ Reg.EPO_DR_STAT.extra_triggers.width - 1)
        ∧ Only [.regs] s t ∧ RegsBut [(Reg.EPO_DR_STAT.extra_triggers, 0)] s t)
    ∧ (HostUp s → s.drFrozen = true →
      ∃ t, exec .drDmaStart s = .next t ∧ t.rd Reg.EPO_DR_CTRL.dma_start 0 = 1 ∧ t.rd Reg.EPO_STAT.dr_dma_busy 0 = 1 ∧ Only [.regs] s t
        ∧ RegsBut [(Reg.EPO_DR_CTRL.dma_start, 0), (Reg.EPO_STAT.dr_dma_busy, 0)] s t)
    ∧ (s.drBusy = true → s.drFrozen = true → s.flag Reg.GLB_STAT.master_off 0 = false → s.inD3Hot = false →
      let a := s.rd Reg.EPO_DR_DMA_LO.addr_lo 0 * 64 + s.rd Reg.EPO_DR_DMA_HI.addr_hi 0 * 2 ^ 32
      ∃ t, exec (.drTransferred []) s = .next t ∧ t.hostLoad a s.drBytes.length = s.drBytes
        ∧ (∀ b, b < a ∨ a + s.drBytes.length ≤ b → tabGet 0 t.host.mem b = tabGet 0 s.host.mem b)
        ∧ t.drBusy = false ∧ t.rd Reg.EPO_STAT.dr_dma_busy 0 = 0 ∧ Reports s t 0x031 0 s.drBytes.length ∧ t.dr = s.dr
        ∧ Only eventParts s t ∧ RegsBut ([(Reg.EPO_DR_CTRL.dma_start, 0), (Reg.EPO_STAT.dr_dma_busy, 0)] ++ eventRegs) s t)

/-! ### Arms and the screen (R70 to R138) -/

/-- ARM_DECISION (R74): every cell of the arm has its command for target epoch k + lead, whatever the arm's state and mode. An arm that is
BLOCKED or BLOCKING blocks every cell that is not retired (R95), whatever words the decision reads with wrong bits. A decision that waits
for its mirror is held (R390). Where the manual is silent it rests on the model's own choices in notes/assumptions/20.md, 34.md, 111.md,
112.md, 128.md. -/
def Obligations.DecisionCommandsEveryCell : Prop :=
  ∀ (s : State) (arm : Fin 12) (m : ArmEntry) (errs : List BadWord), Sound s →
    (s.red.holdArms.contains arm.val = false → s.bs.armEntry arm = some m →
      ∃ t, exec (.armDecision arm errs) s = .next t
        ∧ (∀ e ∈ s.armCells arm, ((t.cell e.cell).cmds.head?).map (·.1) = some (s.epo.k + s.lead))
        ∧ (s.armState arm = 0 ∨ s.armState arm = 3 → ∀ e ∈ s.armCells arm, (s.cell e.cell).retired = false →
            (t.cell e.cell).cmds.head? = some (s.epo.k + s.lead, .block 0) ∧ (t.cell e.cell).bits = 0 ∧ (t.cell e.cell).contrib = 0)
        ∧ (errs = [] → Only ([.free, .arms, .cells, .red, .arb] ++ eventParts) s t
          ∧ RegsBut ([(Reg.ARM_STAT.ref_stale, arm.val), (Reg.ARM_STAT.ref_poison, arm.val), (Reg.ARM_STAT.sat, arm.val),
              (Reg.ARM_STAT.step_merge, arm.val), (Reg.ARM_CAR_CFG.reload_idx, arm.val), (Reg.ARM_RETIRE.go, arm.val),
              (Reg.ARM_RETIRE.status, arm.val)] ++ eventRegs) s t))
    ∧ (s.red.holdArms.contains arm.val = true →
      ∃ t, exec (.armDecision arm errs) s = .next t ∧ t.red.held = s.red.held ++ [.decision arm] ∧ t.red.image = s.red.image
        ∧ t.red.hand = s.red.hand ∧ Only [.red] s t)

/-- RETIRE_GO (R99, R100): a retirement of a cell of this arm that is not retired is queued for a seam to come and go reads 1; a cell of
another arm (status 2), a retired cell (status 3) and a second request while go is 1 (status 4) are refused with event 0x108. A host request
goes before the requests that reaction paths made in the same core cycle.
Where the manual is silent it rests on the model's own choices in notes/assumptions/94.md. -/
def Obligations.RetireGoQueues : Prop :=
  ∀ (s : State) (arm : Fin 12) (value : Nat), Sound s → HostUp s →
    let c := value % 2 ^ 14
    let named (t : State) : Prop := t.rd Reg.ARM_RETIRE.cell arm = c ∧ t.rd Reg.ARM_RETIRE.reason arm = value / 2 ^ 16 % 2 ^ 8
    let refused (t : State) (st : Nat) : Prop :=
      t.rd Reg.ARM_RETIRE.status arm = st ∧ t.arms = s.arms ∧ Reports s t 0x108 arm (c + 2 ^ 16 * st) ∧ Only eventParts s t
    let frame (t : State) : Prop := RegsBut ([(Reg.ARM_RETIRE.cell, arm.val), (Reg.ARM_RETIRE.reason, arm.val),
      (Reg.ARM_RETIRE.status, arm.val)] ++ eventRegs) s t
    (s.flag Reg.ARM_RETIRE.go arm = false → s.cellArm c = some arm.val → (s.cell c).retired = false →
      ∃ t, exec (.retireGo arm value) s = .next t ∧ named t ∧ t.rd Reg.ARM_RETIRE.go arm = 1
        ∧ (let q := (s.arm arm).queue
           let n := q.length - (if (s.arm arm).queueCycle = s.clk.count then (s.arm arm).queueNew else 0)
           (t.arm arm).queue = q.take n ++ (c, value / 2 ^ 16 % 2 ^ 8, true) :: q.drop n)
        ∧ t.cells = s.cells
        ∧ Only [.regs, .arms] s t
        ∧ RegsBut [(Reg.ARM_RETIRE.cell, arm.val), (Reg.ARM_RETIRE.reason, arm.val), (Reg.ARM_RETIRE.go, arm.val)] s t)
    ∧ (s.flag Reg.ARM_RETIRE.go arm = false → s.cellArm c ≠ some arm.val →
      ∃ t, exec (.retireGo arm value) s = .next t ∧ named t ∧ refused t 2 ∧ frame t)
    ∧ (s.flag Reg.ARM_RETIRE.go arm = false → s.cellArm c = some arm.val → (s.cell c).retired = true →
      ∃ t, exec (.retireGo arm value) s = .next t ∧ named t ∧ refused t 3 ∧ frame t)
    ∧ (s.flag Reg.ARM_RETIRE.go arm = true → ∃ t, exec (.retireGo arm value) s = .next t ∧ refused t 4 ∧ frame t)

/-- CARRIER_INSTANT (R90, R91): an enabled instant below the prescaler only counts. One that the prescaler lets through starts the count
again and, with ring_en at 1, raises event 0x110 + kind with the instant's own station time and the index of its reload. An instant
that is not enabled does nothing of its own. -/
def Obligations.CarrierInstantPrescaled : Prop :=
  ∀ (s : State) (arm : Fin 12) (kind : Fin 4) (t0 : Nat) (g : Grid), Sound s → s.instantOf arm kind s.now = some (t0, g) →
    (∀ e ∈ s.bs.fabric.graphs, e.trigger ≠ .carrier arm kind) →
    let n := tabGet 0 (s.arm arm).counts kind.val
    let counted (t : State) (m : Nat) : Prop := (t.arm arm).counts = tabSet 0 (s.arm arm).counts kind.val m
      ∧ (kind.val = 0 → t.rd Reg.ARM_INT_CFG.zero_count arm = m % 2 ^ Reg.ARM_INT_CFG.zero_count.width)
      ∧ (t.arm arm).nPrev = (s.arm arm).nPrev ∧ (t.arm arm).grid = (s.arm arm).grid ∧ (∀ b, b ≠ arm.val → t.arm b = s.arm b)
      ∧ RegsBut ((Reg.ARM_INT_CFG.zero_count, arm.val) :: eventRegs) s t
    (s.instantEnabled arm kind = true → n < s.rd Reg.ARM_INT_CFG.prescale arm →
      ∃ t, exec (.carrierInstant arm kind) s = .next t ∧ counted t (n + 1) ∧ t.evq = s.evq ∧ Only ([.regs, .arms] ++ mirrorParts) s t)
    ∧ (s.instantEnabled arm kind = true → s.rd Reg.ARM_INT_CFG.prescale arm ≤ n →
      ∃ t, exec (.carrierInstant arm kind) s = .next t ∧ counted t 0
        ∧ (s.flag Reg.ARM_INT_CFG.ring_en arm = false → t.evq = s.evq)
        ∧ (s.flag Reg.ARM_INT_CFG.ring_en arm = true → s.bitAt Reg.EPO_EV_MASK.range_en 0 1 = true → s.evq.buf.length < 1024 →
            t.evq.buf = s.evq.buf ++ [⟨0x110 + kind.val, arm, eventFlags (0x110 + kind.val) 0,
              if s.epo.begun ∧ t0 < s.epo.seam then s.epo.k - 1 else s.epo.k, t0, (g.r0 + (t0 - g.t0) / (g.n * g.p)) % 2 ^ 64⟩])
        ∧ Only ([.arms] ++ eventParts ++ mirrorParts) s t)
    ∧ (s.instantEnabled arm kind = false →
      ∃ t, exec (.carrierInstant arm kind) s = .next t ∧ t.arms = s.arms ∧ Only mirrorParts s t)


/-! ### Drive channels (R155 to R174) -/

/-- DRV_COMMIT (R155, R156, R165): a set that passes R156 on a channel of the host that is not in carrier mode becomes pending with status
1; a set that does not pass is refused with status 3, any set of a channel that the host does not hold with status 4, and event 0xA05 says
so. While a qualified level-mode condition blocks the channel, no set stays pending (R164, R512). Where the manual is silent it rests on the
model's own choices in notes/assumptions/55.md, 115.md. -/
def Obligations.DriveSetBecomesPending : Prop :=
  ∀ (s : State) (ch : Fin 24) (phase : Nat), Sound s → HostUp s →
    let e := s.driveEntry ch
    let x : DrvSet := { s.drvShadow ch with phase := phase % 2 ^ 24 }
    let refused (t : State) (st : Nat) : Prop := t.rd Reg.DRV_SET.status ch = st ∧ t.drv = s.drv
      ∧ Reports s t 0xA05 ch (st + 16 * e.holder + 65536 * e.holderNum) ∧ Only (eventParts ++ mirrorParts) s t
      ∧ RegsBut ([(Reg.DRV_SET.phase, ch.val), (Reg.DRV_SET.status, ch.val)] ++ eventRegs) s t
    (s.drvHeld ch = false → drvSetOk e (s.drvWritten ch) x = true → (∃ c, s.blocker ch = some c) →
      ∃ t, exec (.drvCommit ch phase) s = .next t ∧ (t.drvRt ch).pending = none ∧ t.rd Reg.DRV_SET.pending ch = 0
        ∧ (∀ c, c ≠ ch.val → t.drvRt c = s.drvRt c))
    ∧ (s.drvHeld ch = false → drvSetOk e (s.drvWritten ch) x = true → (s.drvRt ch).mode ≠ 1 → s.blocker ch = none →
      ∃ t, exec (.drvCommit ch phase) s = .next t ∧ (t.drvRt ch).pending = some (x, 0) ∧ (t.drvRt ch).mode = (s.drvRt ch).mode
        ∧ (t.drvRt ch).on = (s.drvRt ch).on ∧ t.rd Reg.DRV_SET.pending ch = 1 ∧ t.rd Reg.DRV_SET.status ch = 1
        ∧ t.rd Reg.DRV_SET.phase ch = phase % 2 ^ 24 ∧ (∀ c, c ≠ ch.val → t.drvRt c = s.drvRt c) ∧ Only ([.regs, .drv] ++ mirrorParts) s t
        ∧ RegsBut [(Reg.DRV_SET.phase, ch.val), (Reg.DRV_SET.status, ch.val), (Reg.DRV_SET.pending, ch.val)] s t)
    ∧ (s.drvHeld ch = false → drvSetOk e (s.drvWritten ch) x = false →
      ∃ t, exec (.drvCommit ch phase) s = .next t ∧ refused t 3 ∧ t.rd Reg.DRV_SET.phase ch = phase % 2 ^ 24)
    ∧ (s.drvHeld ch = true → ∃ t, exec (.drvCommit ch phase) s = .next t ∧ refused t 4
        ∧ t.rd Reg.DRV_SET.phase ch = s.rd Reg.DRV_SET.phase ch)

/-- DRV_RELOAD in carrier mode (R155, R160): at a reload that the pending set may use, the set comes into effect for its n periods and
pending reads 0; without a pending set the one in effect goes on; the reload index advances and the reload's time is the start of the
next period. DRV_PERIOD_START (R158) moves that start on by the length of the period and takes one period off the reload's count. No
other channel changes. -/
def Obligations.DriveReloadAndPeriod : Prop :=
  ∀ (s : State) (ch : Fin 24) (fltLow : Bool) (y : DrvSet), Sound s → (s.drvRt ch).mode = 1 → (s.drvRt ch).on = some y →
    let d := s.drvRt ch
    let others (t : State) : Prop := ∀ c, c ≠ ch.val → t.drvRt c = s.drvRt c
    (∀ x at_, d.left = 0 → d.nextMode = none → d.pending = some (x, at_) → at_ ≤ d.reload →
      ∃ t, exec (.drvReload ch) s = .next t ∧ (t.drvRt ch).on = some x ∧ (t.drvRt ch).pending = none ∧ (t.drvRt ch).left = x.n
        ∧ (t.drvRt ch).len = ((x.period : Int) + phaseShift x.period x.phase y.phase).toNat
        ∧ (t.drvRt ch).reload = d.reload + 1 ∧ (t.drvRt ch).lastReload = some d.next ∧ (t.drvRt ch).mode = 1
        ∧ t.rd Reg.DRV_SET.pending ch = 0 ∧ others t ∧ Only ([.pts, .drv, .fab, .red] ++ eventParts) s t)
    ∧ (d.left = 0 → d.nextMode = none → d.pending = none →
      ∃ t, exec (.drvReload ch) s = .next t ∧ (t.drvRt ch).on = some y ∧ (t.drvRt ch).left = y.n ∧ (t.drvRt ch).len = y.period
        ∧ (t.drvRt ch).reload = d.reload + 1 ∧ (t.drvRt ch).lastReload = some d.next ∧ others t
        ∧ Only ([.pts, .drv, .fab, .red] ++ eventParts) s t)
    ∧ (∃ t, exec (.drvPeriodStart ch fltLow) s = .next t ∧ (t.drvRt ch).next = d.next + d.len ∧ (t.drvRt ch).len = y.period
        ∧ (t.drvRt ch).left = d.left - 1 ∧ (t.drvRt ch).on = some y ∧ (t.drvRt ch).pending = d.pending ∧ (t.drvRt ch).mode = 1
        ∧ others t ∧ Only ([.free, .pts, .conds, .drv, .fab, .red] ++ eventParts) s t)

/-- DRV_MODE_WRITE (R157, R165, R167): on a channel of the host whose delay tables are valid, or for mode 0, the mode is shown and
waits to take effect; without valid tables it is refused with status 5, on a held channel with status 4. A mode written while a qualified
level-mode condition blocks the channel leaves it in mode 0 (R512). DRV_STATIC_WRITE (R163): the two static bits are stored; asking for both
switches is not stored but counted as an interlock with event 0xA00, in every mode (R5, R6).
Where the manual is silent it rests on the model's own choices in notes/assumptions/56.md, 115.md. -/
def Obligations.DriveModeAndStatic : Prop :=
  ∀ (s : State) (ch : Fin 24) (mode : Fin 4) (hi lo : Bool), Sound s → HostUp s →
    let e := s.driveEntry ch
    let tables := (s.drvRt ch).tables
    let refused (t : State) (st : Nat) : Prop := t.rd Reg.DRV_SET.status ch = st ∧ t.drv = s.drv
      ∧ Reports s t 0xA05 ch (st + 16 * e.holder + 65536 * e.holderNum) ∧ Only (eventParts ++ mirrorParts) s t
      ∧ RegsBut ((Reg.DRV_SET.status, ch.val) :: eventRegs) s t
    (s.drvHeld ch = false → tables.1.isSome = true → tables.2.isSome = true → mode ≠ 0 → (∃ c, s.blocker ch = some c) →
      ∃ t, exec (.drvModeWrite ch mode) s = .next t ∧ (t.drvRt ch).mode = 0 ∧ (t.drvRt ch).nextMode = none ∧ t.rd Reg.DRV_CTRL.mode ch = 0
        ∧ (∀ c, c ≠ ch.val → t.drvRt c = s.drvRt c))
    ∧ (s.drvHeld ch = false → mode = 0 ∨ (tables.1.isSome = true ∧ tables.2.isSome = true) → s.blocker ch = none →
      ∃ t, exec (.drvModeWrite ch mode) s = .next t ∧ t.rd Reg.DRV_CTRL.mode ch = mode ∧ (t.drvRt ch).nextMode = some mode.val
        ∧ (t.drvRt ch).mode = (s.drvRt ch).mode ∧ (t.drvRt ch).on = (s.drvRt ch).on ∧ (∀ c, c ≠ ch.val → t.drvRt c = s.drvRt c)
        ∧ Only ([.regs, .drv] ++ mirrorParts) s t ∧ RegsBut [(Reg.DRV_CTRL.mode, ch.val)] s t)
    ∧ (s.drvHeld ch = false → mode ≠ 0 → tables.1 = none ∨ tables.2 = none →
      ∃ t, exec (.drvModeWrite ch mode) s = .next t ∧ refused t 5)
    ∧ (s.drvHeld ch = true → (∃ t, exec (.drvModeWrite ch mode) s = .next t ∧ refused t 4)
        ∧ ∃ t, exec (.drvStaticWrite ch hi lo) s = .next t ∧ refused t 4)
    ∧ (s.drvHeld ch = false → (hi && lo) = false →
      ∃ t, exec (.drvStaticWrite ch hi lo) s = .next t ∧ t.rd Reg.DRV_CTRL.static_hi ch = bit hi ∧ t.rd Reg.DRV_CTRL.static_lo ch = bit lo
        ∧ (t.drvRt ch).static = true ∧ (t.drvRt ch).hi = (s.drvRt ch).hi ∧ (t.drvRt ch).lo = (s.drvRt ch).lo
        ∧ (∀ c, c ≠ ch.val → t.drvRt c = s.drvRt c)
        ∧ Only [.regs, .drv] s t ∧ RegsBut [(Reg.DRV_CTRL.static_hi, ch.val), (Reg.DRV_CTRL.static_lo, ch.val)] s t)
    ∧ (s.drvHeld ch = false → hi = true → lo = true →
      ∃ t, exec (.drvStaticWrite ch hi lo) s = .next t ∧ t.drv = s.drv
        ∧ t.rd Reg.DRV_INTERLOCK_CNT.count ch
            = min (s.rd Reg.DRV_INTERLOCK_CNT.count ch + 1) (2 ^ Reg.DRV_INTERLOCK_CNT.count.width - 1)
        ∧ Reports s t 0xA00 ch 19 ∧ Only eventParts s t
        ∧ RegsBut ((Reg.DRV_INTERLOCK_CNT.count, ch.val) :: eventRegs) s t)

/-- DRV_TIMED_STATE in mode 2 (R162): the state in the channel's point, in the working image, waits for target epoch k + lead; both switches
asked for is an interlock, a poisoned point keeps the state and raises 0xA09. DRV_TIMED_EDGE applies the oldest waiting state; a swap of
the switches turns both off first and the new one on after the dead time (R168).
Where the manual is silent it rests on the model's own choices in notes/assumptions/115.md. -/
def Obligations.DriveTimedStates : Prop :=
  ∀ (s : State) (ch : Fin 24) (fltLow : Bool), Sound s → (s.drvRt ch).mode = 2 →
    let p := s.work (s.driveEntry ch).statePoint
    let d := s.drvRt ch
    (p.bad = false → p.v % 4 ≠ 3 →
      ∃ t, exec (.drvTimedState ch) s = .next t ∧ (t.drvRt ch).timed = d.timed ++
          [⟨s.epo.k + s.lead, p.v / 2 ^ 8 % 2 ^ 24, none, decide (p.v % 2 = 1), decide (p.v / 2 % 2 = 1)⟩]
        ∧ (t.drvRt ch).hi = d.hi ∧ (t.drvRt ch).lo = d.lo ∧ (∀ c, c ≠ ch.val → t.drvRt c = s.drvRt c)
        ∧ Only ([.drv] ++ mirrorParts) s t)
    ∧ (p.bad = false → p.v % 4 = 3 →
      ∃ t, exec (.drvTimedState ch) s = .next t ∧ t.drv = s.drv
        ∧ t.rd Reg.DRV_INTERLOCK_CNT.count ch
            = min (s.rd Reg.DRV_INTERLOCK_CNT.count ch + 1) (2 ^ Reg.DRV_INTERLOCK_CNT.count.width - 1)
        ∧ Reports s t 0xA00 ch 3 ∧ Only (eventParts ++ mirrorParts) s t
        ∧ RegsBut ((Reg.DRV_INTERLOCK_CNT.count, ch.val) :: eventRegs) s t)
    ∧ (p.bad = true →
      ∃ t, exec (.drvTimedState ch) s = .next t ∧ t.drv = s.drv ∧ Reports s t 0xA09 ch s.epo.k ∧ Only (eventParts ++ mirrorParts) s t
        ∧ RegsBut eventRegs s t)
    ∧ (∀ x xs, d.timed = x :: xs → d.edges = [] → ¬ (d.hi = x.hi ∧ d.lo = x.lo) →
        (∀ e1, d.lastEdge = some e1 →
          s.drvDead ch (!x.lo) + (s.driveEntry ch).minPulse ≤ (s.timedAt x + 2 ^ 64 - e1) % 2 ^ 64) →
      let on := if (x.hi && !d.hi) || (x.lo && !d.lo) then some (s.drvDead ch (!x.lo)) else none
      ∃ t, exec (.drvTimedEdge ch fltLow) s = .next t ∧ (t.drvRt ch).timed = xs
        ∧ (t.drvRt ch).edges = (if (x.hi && d.lo) || (x.lo && d.hi) then
            [⟨s.timedAt x, false, false, none, some fltLow⟩, ⟨s.timedAt x + s.drvDead ch (!x.lo), x.hi, x.lo, on, some fltLow⟩]
          else [⟨s.timedAt x, x.hi, x.lo, on, some fltLow⟩])
        ∧ (t.drvRt ch).lastEdge = some (s.timedAt x) ∧ (∀ c, c ≠ ch.val → t.drvRt c = s.drvRt c)
        ∧ Only ([.conds, .drv] ++ eventParts) s t)

/-- DRV_CALIBRATE (R166, R167): a line of 33 to 64 taps gets a new table, which is installed in a core cycle that has no edge of the
channel; any other is a failure reported once per episode; cal_valid says that both lines have a table and none fails, and the calibrator
goes on to the next of the 48 lines. NODE_DELAY_MEASURE (R168) keeps a delay up to dt_max while the dead time adapts. GATE_FAULT (R169) and
BOOTSTRAP_UV (R170) set their latches, their reaction conditions and their events; GATE_FAULT_REPEAT reports again with the edges commanded
since. Where the manual is silent it rests on the model's own choices in notes/assumptions/115.md. -/
def Obligations.DriveSupervision : Prop :=
  ∀ (s : State) (ch : Fin 24), Sound s →
    let noneDue : Prop := ∀ e ∈ (s.drvRt ch).edges, notAfter e.t s.now = false
    (∀ taps, s.cal % 2 = 0 → 33 ≤ taps → taps ≤ 64 →
      let r := s.drvRt (s.cal / 2)
      let other := r.fresh.2 <|> r.tables.2
      ∃ t, exec (.drvCalibrate taps) s = .next t ∧ t.cal = (s.cal + 1) % 48
        ∧ (if r.edges.any (fun e => s.cycleHas e.t) || r.lastEdge.any s.cycleHas then
            (t.drvRt (s.cal / 2)).tables = r.tables ∧ (t.drvRt (s.cal / 2)).fresh = (some taps, r.fresh.2)
          else (t.drvRt (s.cal / 2)).tables = (some taps, other) ∧ (t.drvRt (s.cal / 2)).fresh = (none, none))
        ∧ (t.drvRt (s.cal / 2)).failing = (false, r.failing.2)
        ∧ t.rd Reg.DRV_CTRL.cal_valid (s.cal / 2) = bit (other.isSome && !r.failing.2)
        ∧ Only [.regs, .drv, .cal] s t ∧ RegsBut [(Reg.DRV_CTRL.cal_valid, s.cal / 2)] s t)
    ∧ (∀ taps, s.cal % 2 = 0 → taps < 33 ∨ 64 < taps → (s.drvRt (s.cal / 2)).failing.1 = false →
      ∃ t, exec (.drvCalibrate taps) s = .next t ∧ t.cal = (s.cal + 1) % 48 ∧ t.rd Reg.DRV_CTRL.cal_valid (s.cal / 2) = 0
        ∧ (t.drvRt (s.cal / 2)).tables = (s.drvRt (s.cal / 2)).tables ∧ (t.drvRt (s.cal / 2)).failing.1 = true
        ∧ Reports s t 0xA04 (s.cal / 2) (256 * (taps % 256)) ∧ Only ([.drv, .cal] ++ eventParts) s t
        ∧ RegsBut ((Reg.DRV_CTRL.cal_valid, s.cal / 2) :: eventRegs) s t)
    ∧ (∀ rising delay, (s.drvRt ch).ctl.adaptive = true → delay ≤ driveSteps (s.driveEntry ch).dtMax * 16 →
      ∃ t, exec (.nodeDelayMeasure ch rising delay) s = .next t
        ∧ (t.drvRt ch).rise = (if rising then some delay else (s.drvRt ch).rise)
        ∧ (t.drvRt ch).fall = (if rising then (s.drvRt ch).fall else some delay) ∧ (t.drvRt ch).mode = (s.drvRt ch).mode
        ∧ (∀ c, c ≠ ch.val → t.drvRt c = s.drvRt c) ∧ Only [.drv] s t)
    ∧ (∃ t, exec (.gateFault ch) s = .next t ∧ (t.drvRt ch).flt = true ∧ (t.drvRt ch).fltEdges = 0 ∧ t.rd Reg.DRV_CTRL.flt ch = 1
        ∧ (t.cond (72 + ch)).level = true ∧ (∀ n, n ≠ 72 + ch.val → t.cond n = s.cond n)
        ∧ (∀ c, c ≠ ch.val → t.drvRt c = s.drvRt c) ∧ Only ([.free, .conds, .drv] ++ eventParts) s t
        ∧ (noneDue → Reports s t 0xA02 ch 0 ∧ t.free = s.free ∧ RegsBut ((Reg.DRV_CTRL.flt, ch.val) :: eventRegs) s t))
    ∧ ((s.drvRt ch).flt = true → noneDue → s.bitAt Reg.EPO_EV_MASK.range_en 0 10 = true → s.evq.buf.length < 1024 →
      ∃ t, exec (.gateFaultRepeat ch) s = .next t
        ∧ t.evq.buf = s.evq.buf ++ [⟨0xA02, ch, eventFlags 0xA02 8, s.epo.k, s.now, (s.drvRt ch).fltEdges % 2 ^ 64⟩]
        ∧ Only eventParts s t ∧ RegsBut eventRegs s t)
    ∧ (∃ t, exec (.bootstrapUv ch) s = .next t ∧ t.rd Reg.DRV_CTRL.bsuv ch = 1 ∧ (t.cond (96 + ch)).level = true
        ∧ (∀ n, n ≠ 96 + ch.val → t.cond n = s.cond n) ∧ Reports s t 0xA03 ch s.now ∧ Only ([.conds] ++ eventParts) s t
        ∧ RegsBut ((Reg.DRV_CTRL.bsuv, ch.val) :: eventRegs) s t)


/-! ### The Salkimen link, lanes and the SST personality (R175 to R257) -/

/-- DOWNLINK_FRAME (R178): on a lane that is up, with its transmitter on, one frame leaves: SOF with the target epoch k + lead and the
claim, three more head blocks, two blocks for every bound cell and an EOF over all of them, in this order, control blocks under header 10
and data blocks under header 01 (R216), striped over the active members of a group whose active set does not change (R224), with nothing but
IDLE and ALIGN blocks besides; its tag and time are kept for the ECHO (R207) and one frame with ident is used up (R208). A lane that is not
up, or none of whose transmitters is enabled and powered (R214, R215), sends none (R220). Where the manual is silent it rests on the model's
own choices in notes/assumptions/104.md, 113.md. -/
def Obligations.DownlinkFrameLeaves : Prop :=
  ∀ (s : State) (lane : Fin 96) (tb inserted idle : Nat) (extra : List (Nat × CellCmd)), Sound s →
    (∀ e, s.bs.laneEntry lane = some e → s.laneUp lane = true → s.transmits e = true → s.frameKind ≠ 0 →
      (e.bond = .none ∧ e.width = 1) ∨ (e.bond ≠ .none ∧ s.activeMembers e ≠ [] ∧ s.activeSet e = s.rd Reg.LANE_STAT.tx_mask lane) →
      ∃ t ps, exec (.downlinkFrame lane tb inserted idle extra) s = .next t ∧ s.wire <+: t.wire
        ∧ (((blocks t.wire).drop (blocks s.wire).length).filter (fun b => !between b)).map (·.2) =
            (ps.take 4).map (2, ·) ++ (ps.drop 4).map (1, ·) ++ [(2, eofPayload ps)]
        ∧ ps.length = 4 + 2 * (s.boundCells lane).length
        ∧ ps.head? = some (controlBlock 0x17 ((s.epo.k + s.lead) % 2 ^ 24 * 2 ^ 32 + s.laneClaim))
        ∧ (t.lane lane).sent.head? = some ((s.epo.k + s.lead) % 2 ^ 16, tb) ∧ (t.lane lane).ident = (s.lane lane).ident - 1
        ∧ (∀ l, l ∉ e.members → t.lane l = s.lane l) ∧ t.pts.pub = s.pts.pub ∧ t.epo.k = s.epo.k
        ∧ Only ([.epo, .pts, .cells, .lanes] ++ eventParts) s t
        ∧ RegsBut ([(Reg.LANE_DELAY.h, lane.val), (Reg.LANE_DELAY.overLimit, lane.val), (Reg.LANE_FRAME_CNT.overruns, lane.val),
            (Reg.LANE_STAT.tx_mask, lane.val), (Reg.LANE_STAT.degraded, lane.val)]
            ++ s.bs.arms.flatMap (fun m => [(Reg.ARM_INTERLOCK_CNT.count, m.arm), (Reg.ARM_DROPPED_PULSES.count, m.arm)])
            ++ eventRegs) s t)
    ∧ (s.bs.laneEntry lane = none ∨ s.laneUp lane = false ∨ (∀ e, s.bs.laneEntry lane = some e → s.transmits e = false)
          ∨ s.frameKind = 0 →
      exec (.downlinkFrame lane tb inserted idle extra) s = .next s)

/-- UPLINK_FRAME (R188, R189): a frame that is not SOF, ECHO, reports and EOF is discarded with cause 4 of event 0x242 and counted. A valid
frame of the running epoch, in time, with one report of one cell, puts the cell's voltage, applied state and report epoch in its live points
of the working image; no other cell's points and no published point change. The frame's blocks are those of its rows on the members of the
tx_mask last received, ALIGN blocks left out (R224). A lane that is not up receives none (R220). Where the manual is silent it rests on the
model's own choices in notes/assumptions/38.md, 39.md, 43.md, 123.md. -/
def Obligations.UplinkFrameReports : Prop :=
  ∀ (s : State) (lane : Fin 96) (e : LaneEntry) (rows : List (List (Nat × Nat))) (te tz : Nat), Sound s → s.bs.laneEntry lane = some e →
    let bs := readRows e (s.rd Reg.LANE_STAT.far_tx lane) rows
    (s.laneUp lane = false → exec (.uplinkFrame lane rows te tz) s = .next s)
    ∧ (s.laneUp lane = true → splitFrame bs = none →
      ∃ t, exec (.uplinkFrame lane rows te tz) s = .next t
        ∧ t.rd Reg.LANE_FRAME_CNT.up_discard lane = min (s.rd Reg.LANE_FRAME_CNT.up_discard lane + 1) 65535
        ∧ Reports s t 0x242 lane (4 + 2 ^ 16 * ((bs.headD (2, 0)).2 / 2 ^ 32 % 2 ^ 24 % 2 ^ 16)) ∧ Only (.arb :: eventParts) s t
        ∧ RegsBut ((Reg.LANE_FRAME_CNT.up_discard, lane.val) :: e.members.map (fun m => (Reg.LANE_ERR_CNT.hdr_err, m)) ++ eventRegs) s t)
    ∧ (∀ sof ech b eof c, s.laneUp lane = true → splitFrame bs = some (sof, ech, [b], eof) → eof / 2 ^ 40 % 2 ^ 16 = 3 →
        eof % 2 ^ 32 = framesCrc [sof, ech, b] → sof % 2 ^ 32 = s.laneClaim → sof / 2 ^ 32 % 2 ^ 24 = s.epo.k % 2 ^ 24 →
        b / 2 ^ 56 = 0 → b / 2 ^ 52 % 16 = 1 → b % 256 = blockCrc b lane (s.epo.k % 2 ^ 24 % 256) → s.epo.k % e.detail ≠ 0 % e.detail →
        tz + e.guard < (s.seamAt (s.epo.k + 1)).1 → s.cellAt lane 0 = some c →
      ∃ t, exec (.uplinkFrame lane rows te tz) s = .next t
        ∧ t.work (livePos c.cell 0) = ⟨tagged (fOfRat f32 false (b / 2 ^ 32 % 2 ^ 16 : Nat) 20) s.epo.k % 2 ^ 64, false⟩
        ∧ t.work (livePos c.cell 1) = ⟨tagged (b / 2 ^ 48 % 16) s.epo.k % 2 ^ 64, false⟩
        ∧ t.work (livePos c.cell 7) = ⟨s.epo.k % 2 ^ 64, false⟩ ∧ (t.cell c.cell).reported = some s.epo.k
        ∧ (∀ a, (∀ p, p < 16 → a ≠ livePos c.cell p) → t.work a = s.work a)
        ∧ t.pts.pub = s.pts.pub ∧ t.pts.pin = s.pts.pin ∧ t.pts.ext = s.pts.ext ∧ t.epo.k = s.epo.k
        ∧ Only ([.epo, .pts, .cells, .lanes, .arb] ++ eventParts) s t)

/-- LOCK_GAINED (R218, R219): after 64 valid headers and a valid ALIGN lock reads 1 with event 0x201, identity blocks are asked for, and an
unbonded lane is up; with less nothing happens. LOCK_LOST with 16 invalid headers or more, RELOCK and RX_DISABLE (R218): lock and deskewed
read 0, the loss is counted, and an unbonded lane is down with event 0x200 and the cause; fewer headers are only counted; RX_DISABLE
also stops the receiver. IDENT_REQUEST asks for identity blocks in the next 16 frames (R208). -/
def Obligations.LaneLock : Prop :=
  ∀ (s : State) (lane : Fin 96) (e : LaneEntry), Sound s → s.bs.groupOf lane = some e →
    let l : Nat := lane
    let single : Prop := e.bond = .none ∧ e.width = 1
    let group : List (Field × Nat) := [(Reg.LANE_STAT.lock, l), (Reg.LANE_STAT.deskewed, l), (Reg.LANE_STAT.rx_mask, e.lane),
      (Reg.LANE_STAT.degraded, e.lane)] ++ e.members.flatMap (fun m => [(Reg.LANE_STAT.up, m), (Reg.LANE_STAT.state, m)]) ++ eventRegs
    let eye : List (Field × Nat) := [(Reg.LANE_LOCK_CNT.lock_losses, l), (Reg.LANE_EYE_CTRL.start, l), (Reg.LANE_EYE_STAT.errors, l),
      (Reg.LANE_EYE_STAT.invalid, l)]
    let lost (t : State) (cause : Nat) : Prop := t.rd Reg.LANE_STAT.lock l = 0 ∧ t.rd Reg.LANE_STAT.deskewed l = 0
      ∧ t.rd Reg.LANE_LOCK_CNT.lock_losses l = min (s.rd Reg.LANE_LOCK_CNT.lock_losses l + 1) 65535
      ∧ (single → s.flag Reg.LANE_EYE_CTRL.start l = false → t.rd Reg.LANE_STAT.up l = 0 ∧ Reports s t 0x200 l cause)
    (∀ valid align, valid < 64 ∨ alignValid align = false → exec (.lockGained lane valid align) s = .next s)
    ∧ (∀ valid align, 64 ≤ valid → alignValid align = true →
        s.flag Reg.LANE_STAT.lock l = false → s.flag Reg.LANE_CTRL.rx_en l = true → s.lanePowered l = true →
      ∃ t, exec (.lockGained lane valid align) s = .next t ∧ t.rd Reg.LANE_STAT.lock l = 1 ∧ (t.lane e.lane).ident = 16
        ∧ (t.lane e.lane).checked = false ∧ (single → t.rd Reg.LANE_STAT.up l = 1 ∧ Reports s t 0x201 l s.epo.k)
        ∧ Only ([.conds, .lanes, .pwr] ++ eventParts) s t ∧ RegsBut ((Reg.PWR_WAKE_TIME.lanes, 0) :: group) s t)
    ∧ (∀ headers, headers < 16 → s.red.hand ≠ .incoming →
      ∃ t, exec (.lockLost lane headers) s = .next t
        ∧ t.rd Reg.LANE_ERR_CNT.hdr_err l = min (s.rd Reg.LANE_ERR_CNT.hdr_err l + headers) 65535
        ∧ Only [.regs] s t ∧ RegsBut [(Reg.LANE_ERR_CNT.hdr_err, l)] s t)
    ∧ (∀ headers, 16 ≤ headers → s.flag Reg.LANE_STAT.lock l = true → s.red.hand ≠ .incoming →
      ∃ t, exec (.lockLost lane headers) s = .next t ∧ lost t 0
        ∧ t.rd Reg.LANE_ERR_CNT.hdr_err l = min (s.rd Reg.LANE_ERR_CNT.hdr_err l + headers) 65535
        ∧ Only ([.free, .conds] ++ eventParts) s t ∧ RegsBut ((Reg.LANE_ERR_CNT.hdr_err, l) :: eye ++ group) s t)
    ∧ (HostUp s → s.flag Reg.LANE_STAT.lock l = true → s.red.hand ≠ .incoming →
      ∃ t, exec (.relock lane) s = .next t ∧ lost t 1 ∧ Only ([.free, .conds] ++ eventParts) s t ∧ RegsBut (eye ++ group) s t)
    ∧ (HostUp s → s.flag Reg.LANE_STAT.lock l = true → s.red.hand ≠ .incoming →
      ∃ t, exec (.rxDisable lane) s = .next t ∧ lost t 1 ∧ t.rd Reg.LANE_CTRL.rx_en l = 0 ∧ t.rd Reg.LANE_STAT.state l = 1
        ∧ Only ([.free, .conds] ++ eventParts) s t ∧ RegsBut ((Reg.LANE_CTRL.rx_en, l) :: (Reg.LANE_STAT.state, l) :: eye ++ group) s t)
    ∧ (HostUp s → (s.bs.laneEntry lane).isSome = true →
      ∃ t, exec (.identRequest lane) s = .next t ∧ (t.lane l).ident = 16 ∧ (t.lane l).checked = false
        ∧ (t.lane l).bound = (s.lane l).bound ∧ (∀ m, m ≠ l → t.lane m = s.lane m) ∧ Only [.lanes] s t)

/-- ALIGN_SEND (R221, R222, R226): after IDLE in the rows left to the 4,096th, each member whose transmitter runs sends one marker with the
lane's count, its width, the active set and the parity of the payloads since the last marker, and the count advances modulo 2^16; an
unbonded lane sends both masks at 0x1. Every payload is scrambled: a sent bit is the payload bit plus the bits sent 39 and 58 bits before it
(R217). ALIGN_RECEIVED (R222) on a locked lane: the bits of its parity that differ from the parity of the payloads since the marker before
it are counted, whether or not its CRC is valid; a valid one makes the lane aligned and shows the far lane, and on a bonded group says
whether the member is deskewed: count and mask as on the other aligned members, or a count ahead of theirs by one more than the markers that
an invalid CRC kept from them, the width, skew 16 at most (R228). An invalid one is ignored for lock, deskew and masks. Where the manual is
silent it rests on the model's own choices in notes/assumptions/44.md, 113.md. -/
def Obligations.AlignmentMarkers : Prop :=
  ∀ (s : State) (lane : Fin 96) (e : LaneEntry), Sound s →
    (s.bs.laneEntry lane = some e →
      let n := 4095 - (s.lane lane).since
      let on := e.members.filter (fun l => s.txRuns l)
      ∃ t, exec (.alignSend lane) s = .next t ∧ (t.lane lane).marker = ((s.lane lane).marker + 1) % 2 ^ 16 ∧ (t.lane lane).since = 0
        ∧ blocks t.wire = blocks s.wire ++ (List.replicate n (on.map (fun l => (l, 2, idlePayload)))).flatten ++ on.map (fun l =>
            (l, 2, alignPayload (s.lane lane).marker l e.width (l - lane) (s.activeSet e)
              (if e.bond = .none then 1 else s.receiveSet e)
              ((s.lane l).bip ^^^ if n % 2 = 1 then bip8 idlePayload else 0)))
        ∧ (∀ l ∈ on, (t.lane l).bip = 0) ∧ (∀ l, l ∉ e.members → t.lane l = s.lane l)
        ∧ t.rd Reg.LANE_STAT.tx_mask lane = s.activeSet e % 16 ∧ Only ([.lanes] ++ eventParts) s t
        ∧ RegsBut ([(Reg.LANE_STAT.tx_mask, lane.val), (Reg.LANE_STAT.degraded, lane.val), (Reg.LANE_LOCK_CNT.restripes, lane.val)]
            ++ eventRegs) s t)
    ∧ (∀ reg p i, reg < 2 ^ 58 → i < 64 →
        let w := (scramble reg p).1
        w.testBit (63 - i) = ((p.testBit (63 - i) ^^ if 39 ≤ i then w.testBit (63 - (i - 39)) else reg.testBit (38 - i))
          ^^ if 58 ≤ i then w.testBit (63 - (i - 58)) else reg.testBit (57 - i))
        ∧ (scramble reg p).2 = w % 2 ^ 58)
    ∧ (∀ (control : Bool) payload, (s.sendBlock lane control payload).wire =
        s.wire ++ [.line lane (if control then 2 else 1) payload (scramble (s.lane lane).scrambler payload).1]
        ∧ ((s.sendBlock lane control payload).lane lane).scrambler = (scramble (s.lane lane).scrambler payload).2)
    ∧ (∀ payload between skew, s.bs.groupOf lane = some e → s.flag Reg.LANE_STAT.lock lane = true → payload / 2 ^ 56 = 0xD4 →
        s.red.hand ≠ .incoming →
      let parity := (between.map bip8).foldl (· ^^^ ·) 0
      let errors := if (s.lane lane).marked then
          min (s.rd Reg.LANE_ERR_CNT.bip_err lane + differing (payload / 2 ^ 8 % 256) parity) 65535
        else s.rd Reg.LANE_ERR_CNT.bip_err lane
      let others := e.members.filter (fun m => m != lane.val && s.flag Reg.LANE_STAT.lock m && (s.lane m).aligned)
      let count := payload / 2 ^ 40 % 2 ^ 16
      (alignValid payload = true → ∃ t, exec (.alignReceived lane payload between skew) s = .next t ∧ (t.lane lane).aligned = true
        ∧ (t.lane lane).farLane = payload / 2 ^ 32 % 256 ∧ (t.lane lane).farCount = count ∧ (t.lane lane).marked = true
        ∧ t.rd Reg.LANE_ERR_CNT.bip_err lane = errors
        ∧ t.rd Reg.LANE_STAT.far_tx e.lane = payload / 2 ^ 20 % 16 ∧ t.rd Reg.LANE_STAT.far_rx e.lane = payload / 2 ^ 16 % 16
        ∧ (e.bond ≠ .none → t.rd Reg.LANE_STAT.deskewed lane = bit (others.all (fun m =>
              let ahead := (count + 2 ^ 16 - (s.lane m).farCount % 2 ^ 16) % 2 ^ 16
              decide (ahead ≤ (s.lane m).skipped + 1) && (ahead != 0 || (s.lane m).farMask == payload / 2 ^ 20 % 16)
              && (s.lane m).farWidth == payload / 2 ^ 28 % 16)
            && decide (skew ≤ 16) && decide (payload / 2 ^ 28 % 16 = e.width)))
        ∧ (∀ l, l ≠ lane.val → t.lane l = s.lane l) ∧ Only ([.conds, .lanes, .pwr] ++ eventParts) s t)
      ∧ (alignValid payload = false → ∃ t, exec (.alignReceived lane payload between skew) s = .next t
        ∧ (t.lane lane).aligned = (s.lane lane).aligned ∧ (t.lane lane).farCount = (s.lane lane).farCount
        ∧ (t.lane lane).farMask = (s.lane lane).farMask ∧ (t.lane lane).skipped = (s.lane lane).skipped + 1
        ∧ (t.lane lane).marked = true ∧ t.rd Reg.LANE_ERR_CNT.bip_err lane = errors
        ∧ (∀ l, l ≠ lane.val → t.lane l = s.lane l) ∧ Only ([.lanes] ++ eventParts) s t
        ∧ RegsBut ((Reg.LANE_ERR_CNT.bip_err, lane.val) :: eventRegs) s t))
    ∧ (∀ payload between skew, s.flag Reg.LANE_STAT.lock lane = false ∨ payload / 2 ^ 56 ≠ 0xD4 →
      exec (.alignReceived lane payload between skew) s = .next s)

/-- EQ_WRITE (R233, R234): an allowed write is stored, its receive side acts at once and its transmit side waits for the next marker; a
write with tx_pre + tx_post above 40 is discarded (R30). EYE_SCAN_START (R236) on a used lane starts a scan with the point and the dwell
it names; while one runs the write is discarded and reported (R5). EYE_DONE ends it with the count of errors, invalid without lock at its
start or its end.
Where the manual is silent it rests on the model's own choices in notes/assumptions/2.md, 95.md. -/
def Obligations.EqualisationAndEyeScan : Prop :=
  ∀ (s : State) (lane : Fin 96) (v : Nat), Sound s →
    let l : Nat := lane
    let discarded (t : State) (addr : Nat) : Prop :=
      t.rd Reg.EPO_WR_REJECT_CNT.count 0 = min (s.rd Reg.EPO_WR_REJECT_CNT.count 0 + 1) (2 ^ 32 - 1) ∧ Reports s t 0x013 0 addr
        ∧ Only eventParts s t ∧ RegsBut ([(Reg.EPO_WR_REJECT_CNT.count, 0)] ++ eventRegs) s t
    (HostUp s → v / 2 ^ 8 % 2 ^ 4 + v / 2 ^ 16 % 2 ^ 5 ≤ 40 →
      ∃ t, exec (.eqWrite lane v) s = .next t ∧ t.rd Reg.LANE_EQ.preset l = v % 2 ^ 4 ∧ t.rd Reg.LANE_EQ.override l = v / 2 ^ 4 % 2
        ∧ t.rd Reg.LANE_EQ.tx_pre l = v / 2 ^ 8 % 2 ^ 4 ∧ t.rd Reg.LANE_EQ.tx_post l = v / 2 ^ 16 % 2 ^ 5
        ∧ t.rd Reg.LANE_EQ.rx_ctle l = v / 2 ^ 24 % 2 ^ 4
        ∧ (t.lane l).eqPending = some (if v / 2 ^ 4 % 2 = 1 then (v / 2 ^ 8 % 2 ^ 4, v / 2 ^ 16 % 2 ^ 5)
            else ((eqPreset (v % 2 ^ 4)).1, (eqPreset (v % 2 ^ 4)).2.1))
        ∧ (t.lane l).eqRx = (if v / 2 ^ 4 % 2 = 1 then v / 2 ^ 24 % 2 ^ 4 else v % 2 ^ 4) ∧ (t.lane l).eqTx = (s.lane l).eqTx
        ∧ (∀ m, m ≠ l → t.lane m = s.lane m) ∧ Only [.regs, .lanes] s t
        ∧ RegsBut [(Reg.LANE_EQ.preset, l), (Reg.LANE_EQ.override, l), (Reg.LANE_EQ.tx_pre, l), (Reg.LANE_EQ.tx_post, l),
            (Reg.LANE_EQ.rx_ctle, l)] s t)
    ∧ (HostUp s → 40 < v / 2 ^ 8 % 2 ^ 4 + v / 2 ^ 16 % 2 ^ 5 →
      ∃ t, exec (.eqWrite lane v) s = .next t ∧ discarded t (0x20014 + 256 * l))
    ∧ (HostUp s → s.flag Reg.LANE_EYE_CTRL.start l = false → (s.bs.groupOf l).isSome = true → eyeInRange v = true →
      ∃ t, exec (.eyeScanStart lane v) s = .next t ∧ t.rd Reg.LANE_EYE_CTRL.start l = 1 ∧ t.rd Reg.LANE_EYE_CTRL.v l = v / 2 ^ 8 % 2 ^ 6
        ∧ t.rd Reg.LANE_EYE_CTRL.ph l = v / 2 ^ 16 % 2 ^ 8 ∧ t.rd Reg.LANE_EYE_CTRL.dwell l = v / 2 ^ 24 % 2 ^ 6
        ∧ t.rd Reg.LANE_EYE_STAT.invalid l = 0 ∧ (t.lane l).eyeBad = !s.flag Reg.LANE_STAT.lock l
        ∧ (∀ m, m ≠ l → t.lane m = s.lane m) ∧ Only [.regs, .lanes] s t
        ∧ RegsBut [(Reg.LANE_EYE_CTRL.start, l), (Reg.LANE_EYE_CTRL.v, l), (Reg.LANE_EYE_CTRL.ph, l), (Reg.LANE_EYE_CTRL.dwell, l),
            (Reg.LANE_EYE_STAT.invalid, l)] s t)
    ∧ (HostUp s → s.flag Reg.LANE_EYE_CTRL.start l = false → (s.bs.groupOf l).isSome = true → eyeInRange v = false →
      ∃ t, exec (.eyeScanStart lane v) s = .next t ∧ discarded t (0x20030 + 256 * l))
    ∧ (HostUp s → s.flag Reg.LANE_EYE_CTRL.start l = false → (s.bs.groupOf l).isSome = false →
      exec (.eyeScanStart lane v) s = .next s)
    ∧ (HostUp s → s.flag Reg.LANE_EYE_CTRL.start l = true →
      ∃ t, exec (.eyeScanStart lane v) s = .next t ∧ discarded t (0x20030 + 256 * l))
    ∧ (∀ errors, s.flag Reg.LANE_EYE_CTRL.start l = true →
      ∃ t, exec (.eyeDone lane errors) s = .next t ∧ t.rd Reg.LANE_EYE_CTRL.start l = 0
        ∧ t.rd Reg.LANE_EYE_STAT.errors l = min errors (2 ^ 31 - 1)
        ∧ t.rd Reg.LANE_EYE_STAT.invalid l = bit ((s.lane l).eyeBad || !s.flag Reg.LANE_STAT.lock l)
        ∧ (s.flag Reg.LANE_CTRL.eye_ev l = false → t.evq = s.evq)
        ∧ (s.flag Reg.LANE_CTRL.eye_ev l = true →
            Reports s t 0x209 l (min errors (2 ^ 31 - 1) + 2 ^ 31 * bit ((s.lane l).eyeBad || !s.flag Reg.LANE_STAT.lock l)))
        ∧ Only eventParts s t
        ∧ RegsBut ([(Reg.LANE_EYE_CTRL.start, l), (Reg.LANE_EYE_STAT.errors, l), (Reg.LANE_EYE_STAT.invalid, l)] ++ eventRegs) s t)

/-- SST_SHIFT_DECISION (R248): every isolation entry of the unit's strings has its command for target epoch k + lead; in a BLOCKED unit it
is BLOCK with no shift; in a running unit the decision's reload is the first of the isolation grid, counted from Z, at or after that
epoch's seam.
Where the manual is silent it rests on the model's own choices in notes/assumptions/2.md, 16.md. -/
def Obligations.ShiftDecisionCommands : Prop :=
  ∀ (s : State) (unit : Fin 4) (e : UnitEntry), Sound s → s.bs.unitEntry unit = some e →
    ∃ t, exec (.sstShiftDecision unit) s = .next t
      ∧ (∀ x ∈ e.arms, ∀ y ∈ s.isoCells x.2 (fun _ => true),
          ((t.cell y.2.cell).cmds.head?).map (·.1) = some (s.epo.k + s.lead))
      ∧ ((s.unit unit).state = 1 → ∀ x ∈ e.arms, ∀ y ∈ s.isoCells x.2 (fun _ => true),
          (t.cell y.2.cell).cmds.head? = some (s.epo.k + s.lead, .block 0) ∧ (t.cell y.2.cell).sigma = 0)
      ∧ (2 ≤ (s.unit unit).state → (t.unit unit).reload = s.isoReload e (s.seamAt (s.epo.k + s.lead)).1)
      ∧ (t.unit unit).state = (s.unit unit).state ∧ t.pts.pub = s.pts.pub ∧ t.pts.ext = s.pts.ext
      ∧ Only ([.free, .pts, .cells, .units, .red] ++ eventParts) s t ∧ RegsBut eventRegs s t


/-! ### The control fabric and the reaction matrix (R258 to R290, R507 to R512) -/

/-- HOST_RELEASE (R261, R510) of an enabled idle graph with the HOST trigger, a usable engine and room in its queues starts one job, RUNNING
in register and status point. A graph that still has a job drops the release: counted, overrun set, event 0x301. A graph with another
trigger is not released; event 0x301 says so. -/
def Obligations.HostReleaseStartsJob : Prop :=
  ∀ (s : State) (e : GraphEntry), Sound s → HostUp s →
    let g := s.rd Reg.FAB_GRAPH_SEL.graph 0
    s.bs.graphEntry g = some e → (s.graph g).enabled = true →
    (e.trigger = .host → s.red.holdGraphs.contains g = false → s.graphUsable e = true → s.graphBusy g = false → e.flow = none →
        s.hasSpace e = true →
      ∃ t, exec .hostRelease s = .next t
        ∧ t.fab.jobs = s.fab.jobs ++ [⟨e, s.fab.nextId, s.clk.count,
            if e.rt then some (s.clk.count + e.cycles (s.rd Reg.EPO_LEN.cycles 0)) else none, [], [], [], [], 0⟩]
        ∧ t.fab.nextId = s.fab.nextId + 1 ∧ (t.graph g).state = 3 ∧ t.rd Reg.FAB_GRAPH_STAT.state g = 3
        ∧ (∀ n, n ≠ g → t.graph n = s.graph n) ∧ (∀ a, a ≠ 0x2000 + g → t.work a = s.work a) ∧ t.pts.pub = s.pts.pub
        ∧ t.fab.stores = s.fab.stores ∧ t.fab.engines = s.fab.engines
        ∧ Only [.regs, .pts, .fab] s t ∧ RegsBut [(Reg.FAB_GRAPH_STAT.state, g)] s t)
    ∧ (e.trigger = .host → s.red.holdGraphs.contains g = false → s.graphUsable e = true → s.graphBusy g = true →
      ∃ t, exec .hostRelease s = .next t ∧ t.fab.jobs = s.fab.jobs ∧ t.rd Reg.FAB_GRAPH_STAT.overrun g = 1
        ∧ t.rd Reg.FAB_GRAPH_MISS_CNT.overruns g
            = min (s.rd Reg.FAB_GRAPH_MISS_CNT.overruns g + 1) (2 ^ Reg.FAB_GRAPH_MISS_CNT.overruns.width - 1)
        ∧ Reports s t 0x301 g 8 ∧ Only ([.pts, .fab] ++ eventParts) s t
        ∧ RegsBut ([(Reg.FAB_GRAPH_STAT.overrun, g), (Reg.FAB_GRAPH_MISS_CNT.overruns, g), (Reg.FAB_GRAPH_STAT.state, g)]
            ++ eventRegs) s t)
    ∧ (e.trigger ≠ .host →
      ∃ t, exec .hostRelease s = .next t ∧ t.fab = s.fab
        ∧ t.rd Reg.FAB_GRAPH_MISS_CNT.overruns g
            = min (s.rd Reg.FAB_GRAPH_MISS_CNT.overruns g + 1) (2 ^ Reg.FAB_GRAPH_MISS_CNT.overruns.width - 1)
        ∧ Reports s t 0x301 g 24 ∧ Only eventParts s t ∧ RegsBut ((Reg.FAB_GRAPH_MISS_CNT.overruns, g) :: eventRegs) s t)

/-- OP_DISPATCH (R269): the scheduler's choice goes to its engine and starts in the next cycle if the engine is idle, and waits in its
slot otherwise; a fifth dispatch of a cycle waits. OP_COMPLETE (R268): an operation other than DELAY is recorded as ended in its job and
the engine takes the operation in its slot, or none; one that reads a bench in no frame stays in service (R55). FAB_TICK (R272): the
boundary moves on by one tick, and of the delay lists only what is due leaves.
Where the manual is silent it rests on the model's own choices in notes/assumptions/20.md, 105.md. -/
def Obligations.SchedulerRunsOperations : Prop :=
  ∀ s : State, Sound s →
    (∀ j o n, s.choice = some (j, o, n) → ¬ (s.fab.dispatched.1 = s.clk.count ∧ 4 ≤ s.fab.dispatched.2.length) →
      ∃ t, exec .opDispatch s = .next t
        ∧ (∃ r : Run, r.graph = j.g.graph ∧ r.id = j.id ∧ r.op = o ∧ r.start = s.clk.count + 1
            ∧ ((s.engine n).run = none → (t.engine n).run = some r ∧ (t.engine n).slot = (s.engine n).slot)
            ∧ ((s.engine n).run ≠ none → (t.engine n).slot = some r ∧ (t.engine n).run = (s.engine n).run))
        ∧ (∀ m, m ≠ n → t.engine m = s.engine m) ∧ t.fab.stores = s.fab.stores ∧ t.fab.graphs = s.fab.graphs
        ∧ Only ([.fab, .arb] ++ eventParts) s t
        ∧ RegsBut ((Reg.FAB_SCHED_STAT.ready_max, 0) :: (match j.g.trigger with
            | .stream q => [(Reg.FAB_STREAM_STAT.level, q), (Reg.FAB_STREAM_STAT.stalled, q), (Reg.FAB_STREAM_STAT.stall_cnt, q)]
            | _ => []) ++ eventRegs) s t)
    ∧ (s.fab.dispatched.1 = s.clk.count → 4 ≤ s.fab.dispatched.2.length →
      ∃ t, exec .opDispatch s = .next t ∧ Only [.regs] s t ∧ RegsBut [(Reg.FAB_SCHED_STAT.ready_max, 0)] s t)
    ∧ (∀ (n : Fin 64) r errs copy, (s.engine n).run = some r → s.fab.again = [] →
        r.op.kind.reads.any (fun p => (s.benchMissing p).isSome) = true →
      ∃ t, exec (.opComplete n errs copy) s = .next t ∧ t.fab = s.fab ∧ Only [.clk] s t)
    ∧ (∀ (n : Fin 64) r j copy, (s.engine n).run = some r → s.fab.again = [] → s.job r.graph = some j → j.id = r.id →
        (∀ x, r.op.kind ≠ .delay x) →
        r.op.kind.reads.any (fun p => (s.benchMissing p).isSome) = false →
      ∃ t, exec (.opComplete n [] copy) s = .next t
        ∧ (∃ j', t.job r.graph = some j' ∧ r.op.num ∈ j'.ended ∧ j'.id = j.id ∧ j'.g = j.g ∧ j'.begun = j.begun)
        ∧ ((s.engine n).slot = none → (t.engine n).run = none)
        ∧ (∀ q, (s.engine n).slot = some q → (t.engine n).run = some { q with start := t.clk.count } ∧ (t.engine n).slot = none)
        ∧ (∀ m, m ≠ n.val → t.engine m = s.engine m) ∧ t.fab.stores = s.fab.stores ∧ t.fab.graphs = s.fab.graphs
        ∧ t.epo.k = s.epo.k ∧ t.epo.fences = s.epo.fences ∧ t.epo.opened = s.epo.opened ∧ Only [.free, .clk, .epo, .fab, .arb] s t)
    ∧ (s.fab.nextTick < s.fab.seamCycle + s.rd Reg.EPO_LEN.cycles 0 → s.fab.again = [] → (∀ d ∈ s.fab.delays, s.fab.nextTick < d.1) →
      ∃ t, exec .fabTick s = .next t
        ∧ t.fab = { s.fab with nextTick := s.fab.nextTick + s.rd Reg.FAB_TICK.cycles 0 }
        ∧ t.clk.count = (if s.clk.count < s.fab.nextTick then s.fab.nextTick % 2 ^ 64 else s.clk.count)
        ∧ t.clk.inc = s.clk.inc ∧ t.clk.off = s.clk.off ∧ Only [.clk, .fab] s t)
    ∧ (∀ w g id op p j, s.fab.nextTick < s.fab.seamCycle + s.rd Reg.EPO_LEN.cycles 0 → s.fab.delays = [(w, .item g id op p)] →
        s.fab.again = [] → w ≤ s.fab.nextTick → s.job g = some j → j.id = id →
      ∃ t, exec .fabTick s = .next t ∧ t.job g = some (j.deliver op [p] s.fab.nextTick) ∧ t.fab.delays = []
        ∧ t.fab.nextTick = s.fab.nextTick + s.rd Reg.FAB_TICK.cycles 0 ∧ t.fab.stores = s.fab.stores ∧ Only [.clk, .fab] s t)

/-- JOB_COMMIT (R277): a job whose operations have all ended before its deadline commits its points, leaves the list and shows COMMITTED.
DEADLINE_MISS (R277): the job is cancelled without any of its points being written, its requests that the arbiter has not granted by then
are withdrawn (R283), the miss is counted, latched, mapped, its reaction condition occurs once (R507) and event 0x300 names its open
operations. QUEUE_SPACE_RELEASE (R274): a waiting release starts its job once its queues have room.
Where the manual is silent it rests on the model's own choices in notes/assumptions/49.md, 50.md, 117.md. -/
def Obligations.JobsCommitOrMiss : Prop :=
  ∀ (s : State) (g : Fin 128), Sound s →
    (∀ j a p, s.job g = some j → j.done = true → (∀ d, j.deadline = some d → s.clk.count < d) → j.effs = [.point a p false] →
        p.bad = false → j.g.flow = none → j.g.trigger = .host → a ≠ 0x2000 + g.val →
      ∃ t, exec (.jobCommit g) s = .next t ∧ t.work a = p ∧ t.fab.jobs = s.fab.jobs.filter (fun y => y.id != j.id)
        ∧ (∀ b, b ≠ a → b ≠ 0x2000 + g.val → t.work b = s.work b) ∧ t.pts.pub = s.pts.pub
        ∧ (t.graph g).cycles = min (s.clk.count - j.released) 65535
        ∧ t.rd Reg.FAB_GRAPH_TIME.last g = min (s.clk.count - j.released) 65535 % 2 ^ Reg.FAB_GRAPH_TIME.last.width
        ∧ t.fab.stores = s.fab.stores ∧ t.fab.engines = s.fab.engines
        ∧ Only ([.regs, .pts, .fab] ++ mirrorParts) s t
        ∧ RegsBut [(Reg.FAB_GRAPH_TIME.last, g.val), (Reg.FAB_GRAPH_TIME.max, g.val), (Reg.FAB_GRAPH_STAT.state, g.val)] s t)
    ∧ (∀ j d, s.job g = some j → j.deadline = some d → j.g.flow = none → j.g.trigger = .host → s.fab.again = [] →
      ∃ t, exec (.deadlineMiss g) s = .next t ∧ t.fab.jobs = s.fab.jobs.filter (fun y => y.id != j.id)
        ∧ (∀ b, b ≠ 0x2000 + g.val → t.work b = s.work b) ∧ t.fab.stores = s.fab.stores ∧ t.pts.pub = s.pts.pub
        ∧ t.rd Reg.FAB_GRAPH_STAT.deadline_miss g = 1
        ∧ t.rd Reg.FAB_GRAPH_MISS_CNT.misses g
            = min (s.rd Reg.FAB_GRAPH_MISS_CNT.misses g + 1) (2 ^ Reg.FAB_GRAPH_MISS_CNT.misses.width - 1)
        ∧ t.bitAt Reg.FAB_MISS_MAP.miss (g / 32) (g % 32) = true
        ∧ (t.cond (584 + g)).waiting = (s.cond (584 + g)).waiting ++ [0]
        ∧ Reports (s.reachCycle d) t 0x300 g (((j.g.ops.filter (fun o => !j.ended.contains o.num)).map (·.num)).length
            + 2 ^ 16 * (((j.g.ops.filter (fun o => !j.ended.contains o.num)).map (·.num)).min?.getD 0) + 2 ^ 32 * j.taken)
        ∧ t.arb.reqs = (s.reachCycle d).arbitrate.arb.reqs.filter (fun r => r.job != some j.id)
        ∧ Only ([.clk, .pts, .conds, .fab, .red, .arb] ++ eventParts) s t
        ∧ RegsBut ([(Reg.FAB_GRAPH_STAT.deadline_miss, g.val), (Reg.FAB_GRAPH_MISS_CNT.misses, g.val),
            (Reg.FAB_MISS_MAP.miss, g.val / 32), (Reg.FAB_GRAPH_STAT.state, g.val), (Reg.FAB_ARB_WAIT.class0, 0),
            (Reg.FAB_ARB_WAIT.class1, 0), (Reg.FAB_ARB_WAIT.class2, 0), (Reg.FAB_ARB_WAIT.class3, 0),
            (Reg.FAB_ARB_DEAD_CNT.count, 0)] ++ eventRegs) s t)
    ∧ (∀ w, s.fab.space.find? (fun w => w.graph == g.val) = some w → s.hasSpace w.g = true → s.graphUsable w.g = true → w.g.flow = none →
      ∃ t, exec (.queueSpaceRelease g) s = .next t
        ∧ t.fab.jobs = s.fab.jobs ++ [⟨w.g, s.fab.nextId, w.released, w.deadline, [], [], [], [], 0⟩]
        ∧ t.fab.space = s.fab.space.filter (fun y => y.graph != g.val) ∧ t.fab.stores = s.fab.stores
        ∧ (∀ b, b ≠ 0x2000 + g.val → t.work b = s.work b) ∧ t.pts.pub = s.pts.pub
        ∧ Only [.regs, .pts, .fab] s t ∧ RegsBut [(Reg.FAB_GRAPH_STAT.state, g.val)] s t)

/-- CONDITION_QUALIFIED (R285): a level source that is true becomes qualified once: fired, counted, and its wired TRIP_OUT pin asserts with
event 0x307; where another condition has asserted it in this core cycle, it is carried out once (R286). Of several sources that qualify in
one cycle each does, and no other condition changes. CONDITION_UNQUALIFIED (R287): qualified reads 0 and a following pin that nothing else
holds deasserts. TRIP_OUT_CLEAR and PRIO_BLOCK_CLEAR (R287) clear what no qualified condition holds, and are refused with event 0x30C
otherwise. HOST_CONDITION (R290) is one occurrence of its source. Where the manual is silent it rests on the model's own choices in
notes/assumptions/32.md, 61.md, 62.md, 116.md. -/
def Obligations.ReactionMatrixActs : Prop :=
  ∀ (s : State) (n : Fin 1024) (pin : Fin 8), Sound s →
    (s.reacts = true → reservedCondition n = false → oneCycle n = false → (s.cond n).qualified = false → (s.cond n).level = true →
        s.actions n = [.tripOut pin] → s.bitAt Reg.FAB_TRIP_OUT.state 0 pin = false →
        (∀ x ∈ s.fab.acted.2, s.fab.acted.1 = s.clk.count → x.1 = .tripOut pin → x.2 = n.val) →
      ∃ t, exec (.conditionQualified [n]) s = .next t ∧ (t.cond n).qualified = true ∧ (t.cond n).waiting = []
        ∧ t.rd Reg.FAB_RX_COND.qualified n = 1 ∧ t.rd Reg.FAB_RX_COND.fired n = 1
        ∧ t.rd Reg.FAB_RX_COND.count n = min (s.rd Reg.FAB_RX_COND.count n + 1) (2 ^ Reg.FAB_RX_COND.count.width - 1)
        ∧ t.bitAt Reg.FAB_TRIP_OUT.state 0 pin = true ∧ Reports s t 0x307 pin n ∧ (∀ m, m ≠ n.val → t.cond m = s.cond m)
        ∧ t.fab.graphs = s.fab.graphs ∧ t.fab.jobs = s.fab.jobs ∧ t.fab.stores = s.fab.stores
        ∧ Only ([.conds, .fab, .red] ++ eventParts) s t
        ∧ RegsBut ([(Reg.FAB_RX_COND.qualified, n.val), (Reg.FAB_RX_COND.fired, n.val), (Reg.FAB_RX_COND.count, n.val),
            (Reg.FAB_RX_ACT.data, n.val), (Reg.FAB_TRIP_OUT.state, 0), (Reg.FAB_TRIP_OUT.latched, 0), (Reg.FAB_PRIO_STAT.qualified, 0)]
            ++ eventRegs) s t)
    ∧ (∀ m, s.reacts = true → reservedCondition n = false → oneCycle n = false → (s.cond n).qualified = false → (s.cond n).level = true →
        s.actions n = [.tripOut pin] → s.fab.acted.1 = s.clk.count → (.tripOut pin.val, m) ∈ s.fab.acted.2 → m ≠ n.val →
        s.bitAt Reg.FAB_TRIP_OUT.state 0 pin = true →
      ∃ t, exec (.conditionQualified [n]) s = .next t ∧ (t.cond n).qualified = true ∧ t.evq = s.evq
        ∧ t.fab = { s.fab with acted := t.fab.acted } ∧ t.bitAt Reg.FAB_TRIP_OUT.state 0 pin = true
        ∧ Only ([.regs, .conds, .fab] ++ mirrorParts) s t)
    ∧ (∀ conds : List (Fin 1024), s.reacts = true → conds.Nodup →
        (∀ c ∈ conds, reservedCondition c = false ∧ oneCycle c = false ∧ (s.cond c).qualified = false ∧ (s.cond c).level = true
          ∧ s.actions c = []) →
      ∃ t, exec (.conditionQualified conds) s = .next t
        ∧ (∀ c ∈ conds, (t.cond c).qualified = true ∧ t.rd Reg.FAB_RX_COND.qualified c = 1 ∧ t.rd Reg.FAB_RX_COND.fired c = 1)
        ∧ (∀ m : Fin 1024, m ∉ conds → t.cond m = s.cond m) ∧ t.fab.graphs = s.fab.graphs ∧ t.fab.jobs = s.fab.jobs
        ∧ Only ([.conds, .fab, .red] ++ eventParts) s t)
    ∧ ((s.cond n).qualified = true → (s.cond n).level = false → s.actions n = [.tripOut pin] →
        s.bitAt Reg.FAB_TRIP_OUT.latched 0 pin = false → (∀ e ∈ s.bs.reaction.conds, e.cond ≠ n.val → (s.cond e.cond).qualified = false) →
      ∃ t, exec (.conditionUnqualified n) s = .next t ∧ (t.cond n).qualified = false ∧ t.rd Reg.FAB_RX_COND.qualified n = 0
        ∧ t.bitAt Reg.FAB_TRIP_OUT.state 0 pin = false ∧ (∀ m, m ≠ n.val → t.cond m = s.cond m)
        ∧ Only [.wire, .regs, .conds] s t
        ∧ RegsBut [(Reg.FAB_RX_COND.qualified, n.val), (Reg.FAB_TRIP_OUT.state, 0), (Reg.FAB_PRIO_STAT.qualified, 0)] s t)
    ∧ (HostUp s → s.bitAt Reg.FAB_TRIP_OUT.latched 0 pin = true → s.wired (fun a => a == .tripOut pin) = none →
      ∃ t, exec (.tripOutClear pin) s = .next t ∧ t.bitAt Reg.FAB_TRIP_OUT.latched 0 pin = false
        ∧ t.bitAt Reg.FAB_TRIP_OUT.state 0 pin = false ∧ Only [.wire, .regs] s t
        ∧ RegsBut [(Reg.FAB_TRIP_OUT.latched, 0), (Reg.FAB_TRIP_OUT.state, 0)] s t)
    ∧ (∀ c, HostUp s → s.bitAt Reg.FAB_TRIP_OUT.latched 0 pin = true → s.wired (fun a => a == .tripOut pin) = some c →
      ∃ t, exec (.tripOutClear pin) s = .next t ∧ Reports s t 0x30C pin c ∧ Only eventParts s t ∧ RegsBut eventRegs s t)
    ∧ (∀ m : Fin 16, HostUp s → s.bitAt Reg.FAB_PRIO_STAT.blocked 0 m = true → s.wired (fun a => a == .prioBlock m) = none →
      ∃ t, exec (.prioBlockClear m) s = .next t ∧ t.bitAt Reg.FAB_PRIO_STAT.blocked 0 m = false ∧ Reports s t 0x309 m 0
        ∧ Only ([.cells, .lanes] ++ eventParts) s t ∧ RegsBut ((Reg.FAB_PRIO_STAT.blocked, 0) :: eventRegs) s t)
    ∧ (∀ h : Fin 8, HostUp s → ∃ t, exec (.hostCondition h) s = .next t
        ∧ (t.cond (576 + h)).waiting = (s.cond (576 + h)).waiting ++ [0] ∧ (∀ m, m ≠ 576 + h.val → t.cond m = s.cond m)
        ∧ Only [.conds] s t)


/-! ### Orders, ramps and generators (R295 to R315) -/

/-- RAMP_TICK (R299, R303) with one ramp engine that follows no input: an engine at rest stays where it is; an engine in motion that does
not yet arrive moves by the rate that the tick gives times the length of the tick; one that reaches its target stops there at rate 0 with
event 0xB00 and its bit of ORD_RAMP_DONE. Position and target reach points +10 and +13 of the working image with the epoch's tag (R46).
RAMP_HALT_REQUEST (R302) is kept for the next seam. -/
def Obligations.RampTickMoves : Prop :=
  ∀ (s : State) (e : RampEntry), Sound s →
    let r := e.ramp
    let x := s.ramp r
    let dt := s.rampStep
    let rem := x.remaining x.target
    let y := ({ x with clamped := false } : RampRt).accelerate dt rem
    let xn := fAdd f64 x.x (fMul f64 (signed64 x.neg y.v) dt)
    let arrives : Prop := fLt f64 0 rem = true ∧ fLe f64 (signed64 x.neg (fSub f64 (f32To64 x.target) xn)) 0 = true
    let shown (t : State) : Prop := t.work (rampPoint r 10) = ⟨tagged (f64To32 (t.ramp r).x) s.epo.k % 2 ^ 64, false⟩
      ∧ t.work (rampPoint r 13) = ⟨tagged (t.ramp r).target s.epo.k % 2 ^ 64, false⟩
      ∧ t.ord.lastTick = some s.epo.k ∧ (∀ n, n ≠ r → t.ramp n = s.ramp n) ∧ t.ord.gens = s.ord.gens ∧ t.ord.inputs = s.ord.inputs
      ∧ t.ord.tables = s.ord.tables ∧ t.pts.pub = s.pts.pub ∧ (∀ a, a < rampPoint r 10 ∨ rampPoint r 13 < a → t.work a = s.work a)
      ∧ Only ([.pts, .ord] ++ eventParts ++ mirrorParts) s t
      ∧ RegsBut ([(Reg.ORD_RAMP_RUN.run, 0), (Reg.ORD_RAMP_DEFER.deferred, 0), (Reg.ORD_RAMP_DONE.done, 0)] ++ eventRegs) s t
    let due : Prop := s.bs.orders.ramps = [e] ∧ e.follow = none ∧ r < 32 ∧ s.ordRuns = true
      ∧ s.epo.k % (s.rd Reg.ORD_CTRL.ramp_div 0 + 1) = 0 ∧ s.ord.lastTick ≠ some s.epo.k
    (due → x.state = 0 ∨ x.state = 5 →
      ∃ t, exec .rampTick s = .next t ∧ shown t ∧ (t.ramp r).x = x.x ∧ (t.ramp r).v = x.v ∧ (t.ramp r).state = x.state)
    ∧ (due → x.state ≠ 0 → x.state ≠ 5 → ¬ arrives → ¬ (fOrd f64 y.v = fOrd f64 (f32To64 y.vstop) ∧ (y.state = 4 ∨ fLe f64 rem 0 = true)) →
      ∃ t, exec .rampTick s = .next t ∧ shown t ∧ (t.ramp r).x = xn ∧ (t.ramp r).v = y.v ∧ (t.ramp r).state = y.state)
    ∧ (due → x.state ≠ 0 → x.state ≠ 5 → arrives →
      ∃ t, exec .rampTick s = .next t ∧ shown t ∧ (t.ramp r).x = f32To64 x.target ∧ (t.ramp r).v = 0 ∧ (t.ramp r).state = 0
        ∧ t.bitAt Reg.ORD_RAMP_DONE.done 0 r = true ∧ t.bitAt Reg.ORD_RAMP_RUN.run 0 r = false ∧ Reports s t 0xB00 r x.target)
    ∧ (s.ordRuns = false ∨ s.ord.lastTick = some s.epo.k →
      ∃ t, exec .rampTick s = .next t ∧ t.ord = s.ord ∧ Only mirrorParts s t)
    ∧ (∀ engines, HostUp s → ∃ t, exec (.rampHaltRequest engines) s = .next t ∧ t.ord = { s.ord with halt := s.ord.halt ||| engines % 2 ^ 32 }
        ∧ Only [.ord] s t)

/-- ORD_IN_CFG_WRITE (R298, R315): an allowed configuration is stored with status 1 and waits for the seam; a mode above 4 or a gate of 0 is
refused with status 3, a pin mode on a pin that the resource map gives to another holder with status 2. ORD_IN_EDGE (R297) in a pin mode,
while the block runs: a rising edge is counted and kept with
the cycle in which it passed the filter, a falling edge is kept. INPUT_LOSS (R297) starts a loss, at 16 gate times after the last rising
edge, with event 0xB20 and the latest edge.
Where the manual is silent it rests on the model's own choices in notes/assumptions/8.md. -/
def Obligations.OrderInputEdges : Prop :=
  ∀ (s : State) (i : Fin 8), Sound s →
    let x := s.input i
    let c := s.clk.count - x.filt
    let others (t : State) : Prop := (∀ n, n ≠ i.val → t.input n = s.input n) ∧ t.ord.ramps = s.ord.ramps ∧ t.ord.gens = s.ord.gens
    (∀ v, HostUp s → v % 2 ^ 3 ≤ 4 → v / 2 ^ 12 % 2 ^ 8 ≠ 0 →
        (v % 2 ^ 3 < 2 ∨ s.heldBy 1 i = none) →
      ∃ t, exec (.ordInCfgWrite i v) s = .next t ∧ t.rd Reg.ORD_IN_CFG.mode i = v % 2 ^ 3 ∧ t.rd Reg.ORD_IN_CFG.filt i = v / 2 ^ 4 % 2 ^ 8
        ∧ t.rd Reg.ORD_IN_CFG.gate i = v / 2 ^ 12 % 2 ^ 8 ∧ t.rd Reg.ORD_IN_CFG.src_point i = v / 2 ^ 20 % 2 ^ 12
        ∧ t.rd Reg.ORD_IN_STAT.status i = 1 ∧ t.input i = { x with written := true } ∧ others t ∧ Only [.regs, .ord] s t
        ∧ RegsBut [(Reg.ORD_IN_CFG.mode, i.val), (Reg.ORD_IN_CFG.filt, i.val), (Reg.ORD_IN_CFG.gate, i.val),
            (Reg.ORD_IN_CFG.src_point, i.val), (Reg.ORD_IN_STAT.status, i.val)] s t)
    ∧ (∀ v, HostUp s → 4 < v % 2 ^ 3 ∨ v / 2 ^ 12 % 2 ^ 8 = 0 →
      ∃ t, exec (.ordInCfgWrite i v) s = .next t ∧ t.rd Reg.ORD_IN_STAT.status i = 3 ∧ Only [.regs] s t
        ∧ RegsBut [(Reg.ORD_IN_STAT.status, i.val)] s t)
    ∧ (∀ v, HostUp s → 2 ≤ v % 2 ^ 3 → v % 2 ^ 3 ≤ 4 → v / 2 ^ 12 % 2 ^ 8 ≠ 0 →
        (s.heldBy 1 i).isSome = true →
      ∃ t, exec (.ordInCfgWrite i v) s = .next t ∧ t.rd Reg.ORD_IN_STAT.status i = 2 ∧ Only [.regs] s t
        ∧ RegsBut [(Reg.ORD_IN_STAT.status, i.val)] s t)
    ∧ (s.ordRuns = true → 2 ≤ x.mode → x.mode ≤ 4 → x.loss = none →
      ∃ t, exec (.ordInEdge i true) s = .next t ∧ (t.input i).count = (x.count + 1) % 2 ^ 64 ∧ (t.input i).rises.head? = some c
        ∧ (t.input i).fall = none ∧ (t.input i).mode = x.mode
        ∧ t.rd Reg.ORD_IN_EDGES.edges i = min (s.rd Reg.ORD_IN_EDGES.edges i + 1) (2 ^ 32 - 1) ∧ others t
        ∧ Only [.regs, .ord] s t ∧ RegsBut [(Reg.ORD_IN_EDGES.edges, i.val)] s t)
    ∧ (s.ordRuns = true → 2 ≤ x.mode → x.mode ≤ 4 → x.loss = none →
      ∃ t, exec (.ordInEdge i false) s = .next t ∧ (t.input i).fall = some c ∧ (t.input i).count = x.count ∧ (t.input i).rises = x.rises
        ∧ others t ∧ Only [.ord] s t)
    ∧ (∀ k rising, s.ordRuns = true → 2 ≤ x.mode → x.mode ≤ 4 → x.loss = some k →
      ∃ t, exec (.ordInEdge i rising) s = .next t ∧ (t.input i).loss = none ∧ t.rd Reg.ORD_IN_STAT.loss i = 0
        ∧ t.bitAt Reg.ORD_IN_LOSS.loss 0 i = false ∧ Reports s t 0xB21 i (s.epo.k - k) ∧ others t ∧ Only ([.ord] ++ eventParts) s t
        ∧ RegsBut ([(Reg.ORD_IN_STAT.loss, i.val), (Reg.ORD_IN_LOSS.loss, 0), (Reg.ORD_IN_EDGES.edges, i.val)] ++ eventRegs) s t)
    ∧ (s.ordRuns = false ∨ x.mode < 2 → (∀ rising, exec (.ordInEdge i rising) s = .next s) ∧ exec (.inputLoss i) s = .next s)
    ∧ (s.ordRuns = true → 2 ≤ x.mode → x.mode ≤ 4 → x.loss = none →
      let u := s.reachCycle (x.since + 16 * x.gate * 4000)
      (s.fab.again = [] → u = { s with clk := { s.clk with count := if s.clk.count < x.since + 16 * x.gate * 4000 then
          (x.since + 16 * x.gate * 4000) % 2 ^ 64 else s.clk.count } })
      ∧ ∃ t, exec (.inputLoss i) s = .next t ∧ t.input i = { x with loss := some s.epo.k } ∧ t.rd Reg.ORD_IN_STAT.loss i = 1
        ∧ t.bitAt Reg.ORD_IN_LOSS.loss 0 i = true ∧ t.bitAt Reg.ORD_IN_LOSS.lost 0 i = true ∧ Reports u t 0xB20 i x.lastTime ∧ others t
        ∧ Only ([.ord] ++ eventParts) u t
        ∧ RegsBut ([(Reg.ORD_IN_STAT.loss, i.val), (Reg.ORD_IN_LOSS.loss, 0), (Reg.ORD_IN_LOSS.lost, 0)] ++ eventRegs) u t)

/-- GEN_HOLDOVER (R311): a tracking generator without a new sample for t_hold is in holdover, with event 0xB11 and the time of its last
sample; its phase terms do not change. C has then reached the instant at which it falls (R345): it stays where it is past it.
TABLE_DATA_WRITE (R309): a write goes to the shadow bank of the selected table at the index, a read answers that entry, and the index
advances modulo 1,536 while auto_inc is 1; a table that a staged package replaces takes no write (R443). Where the manual is silent it rests
on the model's own choices in notes/assumptions/2.md, 8.md, 52.md. -/
def Obligations.GeneratorsAndShapeTables : Prop :=
  ∀ (s : State) (g : Fin 16) (req value : Nat), Sound s →
    let n := s.rd Reg.ORD_TBL_SEL.table 0
    let i := s.rd Reg.ORD_TBL_ADDR.index 0
    let pos := shapePos (1 - s.rd Reg.ORD_TBL_CTRL.bank 0 / 2 ^ n % 2) n i
    let moved (t : State) : Prop := t.rd Reg.ORD_TBL_ADDR.index 0
        = (if s.flag Reg.ORD_TBL_ADDR.auto_inc 0 then (i + 1) % 1536 else i) ∧ RegsBut [(Reg.ORD_TBL_ADDR.index, 0)] s t
    (∀ e, s.bs.orders.gens.find? (fun e => e.gen == g.val) = some e → s.ordRuns = true → (s.gen g).mode = 2 → (s.gen g).holdover = none →
      let due := ((s.gen g).since + e.hold) % 2 ^ 64
      let u := s.reachTime due
      (s.clk.reached due = true → u = s) ∧ (s.fab.again = [] → Only [.clk] s u) ∧
      ∃ t, exec (.genHoldover g) s = .next t ∧ t.gen g = { s.gen g with holdover := some s.epo.k }
        ∧ t.bitAt Reg.ORD_GEN_HOLD.holdover 0 g = true ∧ t.rd Reg.ORD_GEN_STAT.holdover g = 1
        ∧ Reports u t 0xB11 g (((s.gen g).prev.map (·.2)).getD 0) ∧ (∀ m, m ≠ g.val → t.gen m = s.gen m) ∧ t.ord.ramps = s.ord.ramps
        ∧ Only ([.ord] ++ eventParts) u t
        ∧ RegsBut ([(Reg.ORD_GEN_HOLD.holdover, 0), (Reg.ORD_GEN_STAT.holdover, g.val)] ++ eventRegs) u t)
    ∧ (HostUp s → s.shapeStaged n = false →
      ∃ t, exec (.tableDataWrite true req value) s = .next t
        ∧ t.ord = { s.ord with tables := tabSet Pt.clear s.ord.tables pos ⟨value % 2 ^ 32, false⟩ } ∧ moved t ∧ Only [.regs, .ord] s t)
    ∧ (HostUp s →
      ∃ t, exec (.tableDataWrite false req value) s = .next t
        ∧ t.host.rdata = some ⟨req, 0x8038, if (tabGet Pt.clear s.ord.tables pos).bad then .poisoned else .ok,
            [(tabGet Pt.clear s.ord.tables pos).v]⟩ ∧ t.ord = s.ord ∧ t.host.mem = s.host.mem
        ∧ t.host.latch = s.host.latch ∧ moved t ∧ Only [.regs, .host] s t)
    ∧ (HostUp s → s.shapeStaged n = true →
      ∃ t, exec (.tableDataWrite true req value) s = .next t ∧ t.ord = s.ord
        ∧ t.rd Reg.EPO_WR_REJECT_CNT.count 0 = min (s.rd Reg.EPO_WR_REJECT_CNT.count 0 + 1) (2 ^ 32 - 1)
        ∧ Reports s t 0x013 0 0x8038 ∧ Only eventParts s t ∧ RegsBut ([(Reg.EPO_WR_REJECT_CNT.count, 0)] ++ eventRegs) s t)


/-! ### Measurement (R316 to R343) -/

/-- REG_TRIGGER (R322): the trigger that ADC_CORE_CTRL.reg_trig selects starts the regular list of an idle core from the registers; on one
that runs it counts an overrun, reported once per episode with event 0x401; any other trigger does nothing. INJ_REQUEST (R323): the entry's
own trigger joins a queue of four; a fifth is dropped and counted. INJ_SERVICE (R324): at a round boundary the oldest request is served with
its delay shown. CONVERSION_COMPARE (R328): the comparators' states and their reaction conditions follow the code, in mode 2 the sinc3 of
the modulator's bits (R332). `u` has the rounds of the core up to this cycle (R318).
Where the manual is silent it rests on the model's own choices in notes/assumptions/53.md, 54.md, 120.md. -/
def Obligations.ConversionSequences : Prop :=
  ∀ (s : State) (c : Fin 4), Sound s →
    let u := s.coreAdvance c s.clk.count
    let r := u.core c
    let others (t : State) : Prop := (∀ n, n ≠ c.val → t.core n = s.core n) ∧ t.adc.ains = s.adc.ains ∧ t.adc.subs = s.adc.subs
      ∧ t.adc.cal = s.adc.cal
    let shown : List (Field × Nat) := [(Reg.ADC_CORE_STAT.running, c.val), (Reg.ADC_STAT.running, 0), (Reg.ADC_CORE_STAT.inj_queue, c.val),
      (Reg.ADC_CORE_STAT.inj_busy, c.val), (Reg.ADC_CORE_STAT.entry, c.val)]
    (others u ∧ Only [.regs, .adc] s u
      ∧ RegsBut ([(Reg.ADC_SPOIL_CORE.served, c.val), (Reg.ADC_INJ_DELAY.last, c.val), (Reg.ADC_INJ_DELAY.max, c.val)] ++ shown) s u)
    ∧ (∀ source, source ≠ .host ∨ HostUp s ∧ s.heldBy 3 c = none → s.coreRuns c = true → r.mode ≠ 0 → u.regFires c source = true →
        r.running = false →
      ∃ t, exec (.regTrigger c source) s = .next t ∧ (t.core c).running = true ∧ (t.core c).pos = 0 ∧ (t.core c).taken = 0
        ∧ (t.core c).entries = (List.range (s.rd Reg.ADC_CORE_CTRL.reg_len c + 1)).map (fun i => s.seqEntry c false i)
        ∧ (t.core c).queue = r.queue ∧ (t.core c).overrun = false ∧ t.rd Reg.ADC_CORE_STAT.running c = 1
        ∧ t.bitAt Reg.ADC_STAT.running 0 c = true ∧ others t ∧ Only [.regs, .adc] u t ∧ RegsBut shown u t)
    ∧ (∀ source, source ≠ .host ∨ HostUp s ∧ s.heldBy 3 c = none → s.coreRuns c = true → r.mode ≠ 0 → u.regFires c source = true →
        r.running = true →
      ∃ t, exec (.regTrigger c source) s = .next t ∧ t.core c = { r with overrun := true }
        ∧ t.rd Reg.ADC_CORE_CNT.overruns c = min (s.rd Reg.ADC_CORE_CNT.overruns c + 1) 65535
        ∧ (r.overrun = false → Reports s t 0x401 c s.epo.k) ∧ (r.overrun = true → t.evq = s.evq) ∧ others t
        ∧ Only ([.adc] ++ eventParts) u t ∧ RegsBut ((Reg.ADC_CORE_CNT.overruns, c.val) :: eventRegs) u t)
    ∧ (∀ source, source ≠ .host ∨ HostUp s ∧ s.heldBy 3 c = none → s.coreRuns c = false ∨ r.mode = 0 ∨ u.regFires c source = false →
      exec (.regTrigger c source) s = .next u)
    ∧ (∀ (e : Fin 4) source, source ≠ .host ∨ HostUp s → s.coreRuns c = true → r.mode = 1 →
        e.val < s.rd Reg.ADC_CORE_CTRL.inj_len c → u.injFires c e source = true → r.queue.length < 4 →
      ∃ t, exec (.injRequest c e source) s = .next t ∧ (t.core c).queue = queueRequest r.queue e s.clk.count
        ∧ (t.core c).running = r.running ∧ (t.core c).pos = r.pos ∧ (t.core c).busy = r.busy ∧ (t.core c).forming = r.forming
        ∧ t.rd Reg.ADC_CORE_STAT.inj_queue c = r.queue.length + 1 ∧ others t ∧ Only [.regs, .adc] u t ∧ RegsBut shown u t)
    ∧ (∀ (e : Fin 4) source, source ≠ .host ∨ HostUp s → s.coreRuns c = true → r.mode = 1 →
        e.val < s.rd Reg.ADC_CORE_CTRL.inj_len c → u.injFires c e source = true → 4 ≤ r.queue.length →
      ∃ t, exec (.injRequest c e source) s = .next t ∧ (t.core c).queue = r.queue ∧ (t.core c).drops = r.drops + 1
        ∧ t.rd Reg.ADC_SPOIL.count 0 = min (s.rd Reg.ADC_SPOIL.count 0 + 1) (2 ^ 32 - 1)
        ∧ t.rd Reg.ADC_SPOIL_CORE.spoiled c = min (s.rd Reg.ADC_SPOIL_CORE.spoiled c + 1) 65535 ∧ others t
        ∧ Only [.regs, .adc] u t ∧ RegsBut [(Reg.ADC_SPOIL.count, 0), (Reg.ADC_SPOIL_CORE.spoiled, c.val)] u t)
    ∧ (∀ e at_ q, s.coreRuns c = true → r.mode = 1 → r.next = s.clk.count → r.queue = (e, at_) :: q → r.busy = none →
      ∃ t, exec (.injService c) s = .next t ∧ (t.core c).queue = q ∧ (t.core c).busy = some (e, s.seqEntry c true e)
        ∧ (t.core c).delay = min (s.clk.count - at_) 1023 ∧ (t.core c).lead = false ∧ (t.core c).round = true
        ∧ t.rd Reg.ADC_INJ_DELAY.last c = min (s.clk.count - at_) 1023 ∧ t.rd Reg.ADC_CORE_STAT.inj_busy c = 1 ∧ others t
        ∧ Only [.regs, .adc] u t ∧ RegsBut ([(Reg.ADC_INJ_DELAY.last, c.val), (Reg.ADC_INJ_DELAY.max, c.val)] ++ shown) u t)
    ∧ (∀ (i : Fin 32) (code : Nat) (bits : List Bool) (x : Int), s.coreRuns (i / 8) = true →
        let w := s.core (i / 8)
        let l := ((bits.take 16).reverse ++ w.fast).take 46
        (w.mode = 1 ∧ x = signedOf 16 code)
          ∨ (w.mode = 2 ∧ 16 ≤ bits.length ∧ w.current.any (fun y => y.2.1.input == i.val % 8) = true ∧ sinc3 l = some x) →
      let up := decide (signedOf 16 (s.rd Reg.ADC_WIN.upper i) < x)
      let low := decide (x < signedOf 16 (s.rd Reg.ADC_WIN.lower i))
      ∃ t, exec (.conversionCompare i code bits) s = .next t ∧ t.ain i = { s.ain i with above := up, below := low }
        ∧ (t.cond (8 + 2 * i)).level = up ∧ (t.cond (9 + 2 * i)).level = low
        ∧ (∀ n, n ≠ 8 + 2 * i.val → n ≠ 9 + 2 * i.val → t.cond n = s.cond n) ∧ (∀ n, n ≠ i.val → t.ain n = s.ain n)
        ∧ t.core (i / 8) = (if w.mode = 1 then w else { w with fast := l }) ∧ (∀ n, n ≠ i.val / 8 → t.core n = s.core n)
        ∧ t.adc.subs = s.adc.subs ∧ (∀ a, a ≠ inPoint i 7 → t.work a = s.work a) ∧ t.pts.pub = s.pts.pub
        ∧ Only [.pts, .conds, .adc] s t)

/-- ADC_SAMPLE (R316 to R318, R324): the oldest sample whose rounds are over is formed from its conversions, 19 cycles after the last of
them: value and time, the mean of their instants, reach points +0 and +1 of its input in the working image, +2 and +3 where it is injected,
and it is counted. DS_SAMPLE (R330, R331): OSR modulator bits form one output sample with its time a group delay earlier. Where the manual
is silent it rests on the model's own choices in notes/assumptions/2.md, 53.md, 120.md. -/
def Obligations.SamplesReachPoints : Prop :=
  ∀ (s : State) (c : Fin 4), Sound s → s.coreRuns c = true →
    let u := s.coreAdvance c s.clk.count
    (∀ (x : Forming) (l : List Forming) (codes : List Nat), (u.core c).forming = x :: l → x.due ≤ s.clk.count → x.entry.input < 8 →
        codes.length = 8 * x.rounds →
      let i := 8 * c.val + x.entry.input
      let base := if x.injected then 2 else 0
      let v := codeVolts (codes.foldl (fun z y => z + signedOf 16 y) 0) codes.length x.entry.gain 32768
      ∃ t, exec (.adcSample c codes) s = .next t
        ∧ (t.work (inPoint i base)).v % 2 ^ 32 = (s.sampleValue i v).v % 2 ^ 32
        ∧ (t.work (inPoint i base)).bad = (s.sampleValue i v).bad
        ∧ t.work (inPoint i (base + 1)) = ⟨({ s.clk with count := x.first + (8 * x.rounds - 1) } : Clk).time % 2 ^ 64, false⟩
        ∧ (t.ain i).n = (s.ain i).n + 1 ∧ t.core c = { u.core c with forming := l }
        ∧ (∀ n, n ≠ c.val → t.core n = s.core n) ∧ (∀ n, n ≠ i → t.ain n = s.ain n) ∧ t.adc.subs = s.adc.subs ∧ t.pts.pub = s.pts.pub
        ∧ Only ([.pts, .fab, .adc, .red, .saf, .arb] ++ eventParts) s t)
    ∧ (∀ (x : SeqEntry) (bits : List Bool),
        let r := s.core c
        let i := 8 * c.val + x.input
        x.input < 8 → r.mode = 2 → r.tail = none → r.running = true → r.entries[r.pos]? = some x → r.ds.osr ≤ bits.length →
        r.taken + 1 < x.rounds →
      ∃ t, exec (.dsSample c bits) s = .next t ∧ (t.core c).taken = r.taken + 1 ∧ (t.core c).pos = r.pos
        ∧ (t.core c).ds.bits = ((bits.take r.ds.osr).reverse ++ r.ds.bits).take 4000
        ∧ t.work (inPoint i 1) = ⟨({ s.clk with count := s.clk.count - dsDelay r.ds.osr r.ds.fir } : Clk).time % 2 ^ 64, false⟩
        ∧ (t.ain i).n = (s.ain i).n + 1 ∧ (∀ n, n ≠ c.val → t.core n = s.core n) ∧ t.pts.pub = s.pts.pub
        ∧ Only ([.free, .pts, .fab, .adc, .red, .saf, .arb] ++ eventParts) s t)

/-- CAL_VALID (R319): with the domain ON and bg_cal at 1, whatever the core's mode, the residuals are shown and cal_valid rises with event
0x404. SYSCAL_STEP (R334) starts a step on an input that its core samples, and is refused with 5 while one runs and with 4 for an input that
is not sampled. SYSCAL_DONE (R334): the zero step keeps its mean; the full-scale step gives gain and offset with event 0x406, or is refused
with 3 for a span that is too small. SV_FRAME (R335 to R338): a frame of a subscription with the wrong revision is refused with event 0x412;
a new sample counter is taken with its time, and the frame stands in its port's buffer; with 64 frames there the frame is dropped and
counted, with event 0x414 once per episode. `v` has the frames whose words the arbiter has served taken out of the buffers. SV_TIMEOUT
(R337) makes the subscription stale with event 0x410, once t_sv sample periods have passed. Where the manual is silent it rests on the
model's own choices in notes/assumptions/8.md, 53.md, 117.md, 126.md. -/
def Obligations.CalibrationAndSampledValues : Prop :=
  ∀ s : State, Sound s →
    (∀ (c : Fin 4) (o g k : Nat), s.domain 10 = 2 → s.flag Reg.ADC_CTRL.bg_cal 0 = true →
      ∃ t, exec (.calValid c o g k) s = .next t ∧ t.rd Reg.ADC_CAL_INFO.offset_res c = o % 2 ^ 8
        ∧ t.rd Reg.ADC_CAL_INFO.gain_res c = g % 2 ^ 8 ∧ t.rd Reg.ADC_CAL_INFO.skew_res c = k % 2 ^ 8
        ∧ t.rd Reg.ADC_CORE_STAT.cal_valid c = 1 ∧ t.bitAt Reg.ADC_STAT.cal_valid 0 c = true
        ∧ (s.flag Reg.ADC_CORE_STAT.cal_valid c = false → Reports s t 0x404 c 0)
        ∧ (s.flag Reg.ADC_CORE_STAT.cal_valid c = true → t.evq = s.evq) ∧ Only eventParts s t
        ∧ RegsBut ([(Reg.ADC_CAL_INFO.offset_res, c.val), (Reg.ADC_CAL_INFO.gain_res, c.val), (Reg.ADC_CAL_INFO.skew_res, c.val),
            (Reg.ADC_CORE_STAT.cal_valid, c.val), (Reg.ADC_STAT.cal_valid, 0)] ++ eventRegs) s t)
    ∧ (HostUp s →
      let i := s.rd Reg.ADC_SYSCAL_CTRL.input 0
      let sampled := (s.core (i / 8)).running && (s.core (i / 8)).entries.any (fun e => e.input == i % 8)
      let refused (t : State) (st : Nat) : Prop := t.rd Reg.ADC_SYSCAL_STAT.status 0 = st ∧ Reports s t 0x407 i st ∧ Only eventParts s t
        ∧ RegsBut ((Reg.ADC_SYSCAL_STAT.status, 0) :: eventRegs) s t
      (s.adc.cal.active = true → ∃ t, exec .syscalStep s = .next t ∧ refused t 5)
      ∧ (s.adc.cal.active = false → sampled = false → ∃ t, exec .syscalStep s = .next t ∧ refused t 4)
      ∧ (s.adc.cal.active = false → sampled = true →
          ∃ t, exec .syscalStep s = .next t ∧ t.adc.cal.active = true ∧ t.adc.cal.input = i
            ∧ t.adc.cal.step = s.rd Reg.ADC_SYSCAL_CTRL.step 0 ∧ t.adc.cal.want = 2 ^ s.rd Reg.ADC_SYSCAL_CTRL.avg 0
            ∧ t.adc.cal.n = 0 ∧ t.adc.cal.v1 = none ∧ t.rd Reg.ADC_SYSCAL_STAT.taken 0 = 0 ∧ t.rd Reg.ADC_SYSCAL_STAT.full_done 0 = 0
            ∧ t.adc.cores = s.adc.cores ∧ t.adc.ains = s.adc.ains ∧ t.adc.subs = s.adc.subs ∧ Only [.regs, .adc] s t
            ∧ RegsBut [(Reg.ADC_SYSCAL_STAT.taken, 0), (Reg.ADC_SYSCAL_STAT.full_done, 0), (Reg.ADC_SYSCAL_STAT.zero_done, 0)] s t))
    ∧ (let c := s.adc.cal
       let v := fDiv f64 c.sum (fOfInt f64 c.n)
       c.active = true → c.want ≤ c.n →
      (c.step = 0 → ∃ t, exec .syscalDone s = .next t ∧ t.adc = { s.adc with cal := { c with active := false, v0 := some v } }
          ∧ t.rd Reg.ADC_SYSCAL_STAT.zero_done 0 = 1 ∧ t.rd Reg.ADC_SYSCAL_STAT.status 0 = 1 ∧ Only [.regs, .adc] s t
          ∧ RegsBut [(Reg.ADC_SYSCAL_STAT.zero_done, 0), (Reg.ADC_SYSCAL_STAT.status, 0)] s t)
      ∧ (∀ v0, c.step ≠ 0 → c.v0 = some v0 → spanLow v0 v c.gain = false →
          let r := calResult (s.rd Reg.ADC_SYSCAL_REF.x_fs 0) v0 v
          ∃ t, exec .syscalDone s = .next t ∧ t.rd Reg.ADC_SYSCAL_GAIN.g 0 = r.1 % 2 ^ 32 ∧ t.rd Reg.ADC_SYSCAL_OFFSET.o 0 = r.2 % 2 ^ 32
            ∧ t.rd Reg.ADC_SYSCAL_STAT.full_done 0 = 1 ∧ t.rd Reg.ADC_SYSCAL_STAT.status 0 = 1 ∧ t.adc.cal.active = false
            ∧ Reports s t 0x406 c.input (r.1 + 2 ^ 32 * r.2) ∧ Only ([.adc] ++ eventParts) s t
            ∧ RegsBut ([(Reg.ADC_SYSCAL_GAIN.g, 0), (Reg.ADC_SYSCAL_OFFSET.o, 0), (Reg.ADC_SYSCAL_STAT.full_done, 0),
                (Reg.ADC_SYSCAL_STAT.status, 0)] ++ eventRegs) s t)
      ∧ (∀ v0, c.step ≠ 0 → c.v0 = some v0 → spanLow v0 v c.gain = true →
          ∃ t, exec .syscalDone s = .next t ∧ t.rd Reg.ADC_SYSCAL_STAT.status 0 = 3 ∧ t.adc.cal.active = false
            ∧ Reports s t 0x407 c.input 3 ∧ Only ([.adc] ++ eventParts) s t
            ∧ RegsBut ([(Reg.ADC_SYSCAL_STAT.full_done, 0), (Reg.ADC_SYSCAL_STAT.status, 0)] ++ eventRegs) s t))
    ∧ (∀ (p : Fin 2) (f : SvFrame) (e : SvEntry), s.flag Reg.ADC_CTRL.enable 0 = true →
        s.bs.meas.subs.find? (fun e => s.flag Reg.ADC_SV_MAP.enable e.sub && e.takes p f) = some e →
      let v := s.svServed
      let full := decide (64 ≤ (v.adc.held.filter (fun x => x.1 == p.val)).length)
      (Only [.regs, .adc, .arb] s v ∧ v.adc.subs = s.adc.subs ∧ v.adc.cores = s.adc.cores ∧ v.adc.ains = s.adc.ains
        ∧ ∀ x ∈ v.adc.held, x ∈ s.adc.held)
      ∧ (full = true →
        ∃ t, exec (.svFrame p f) s = .next t ∧ t.adc.held = v.adc.held ∧ t.adc.subs = s.adc.subs ∧ t.adc.overflow.contains p.val = true
          ∧ t.rd Reg.ADC_SV_CNT.dropped e.sub
              = min (s.rd Reg.ADC_SV_CNT.dropped e.sub + 1) (2 ^ Reg.ADC_SV_CNT.dropped.width - 1)
          ∧ (s.adc.overflow.contains p.val = false → Reports s t 0x414 p 1) ∧ (s.adc.overflow.contains p.val = true → t.evq = s.evq)
          ∧ Only ([.adc] ++ eventParts) v t ∧ RegsBut ((Reg.ADC_SV_CNT.dropped, e.sub) :: eventRegs) v t)
      ∧ (full = false → f.confRev ≠ e.confRev →
        ∃ t, exec (.svFrame p f) s = .next t ∧ t.rd Reg.ADC_SV_STAT.confrev_err e.sub = 1 ∧ t.adc.subs = s.adc.subs
          ∧ t.adc.held = v.adc.held ∧ Reports s t 0x412 e.sub (f.confRev % 2 ^ 32) ∧ Only ([.adc] ++ eventParts) v t
          ∧ RegsBut ((Reg.ADC_SV_STAT.confrev_err, e.sub) :: eventRegs) v t)
      ∧ (∀ a, full = false → f.confRev = e.confRev → f.simulate = false → f.asdus = [a] → 1 ≤ e.asdus →
          (s.sub e.sub).last ≠ some (a.smpCnt % 65536) →
        ∃ t, exec (.svFrame p f) s = .next t ∧ t.adc.held = v.adc.held ++ [(p.val, s.fab.nextId)] ∧ (t.sub e.sub).last = some (a.smpCnt % 65536)
          ∧ (t.sub e.sub).time = (s.svTime e a f.arrival).1 ∧ (t.sub e.sub).timeout = false
          ∧ t.rd Reg.ADC_SV_STAT.valid e.sub = 1 ∧ t.rd Reg.ADC_SV_STAT.smpcnt e.sub = a.smpCnt % 65536
          ∧ (∀ n, n ≠ e.sub → t.sub n = s.sub n) ∧ t.adc.cores = s.adc.cores ∧ t.adc.ains = s.adc.ains ∧ t.pts.pub = s.pts.pub
          ∧ Only ([.pts, .fab, .adc, .red, .arb] ++ eventParts) s t))
    ∧ (∀ (n : Fin 16) (e : SvEntry), s.bs.meas.subs.find? (fun e => e.sub == n.val) = some e → (s.sub n).timeout = false →
        s.flag Reg.ADC_SV_MAP.enable n = true →
      let due := (s.sub n).since + e.timeout * 400000000 / max e.rate 1
      let u := s.reachCycle due
      (due ≤ s.clk.count → u = s) ∧ (s.fab.again = [] → Only [.clk] s u) ∧
      ∃ t, exec (.svTimeout n) s = .next t ∧ t.sub n = { s.sub n with timeout := true } ∧ t.rd Reg.ADC_SV_STAT.timeout n = 1
        ∧ t.rd Reg.ADC_SV_STAT.valid n = 0 ∧ t.rd Reg.ADC_SV_MAP.state n = 3 ∧ Reports u t 0x410 n (s.sub n).time
        ∧ (∀ m, m ≠ n.val → t.sub m = s.sub m) ∧ t.adc.cores = s.adc.cores ∧ (∀ a, a ≠ svPoint n 0 → t.work a = u.work a)
        ∧ t.pts.pub = s.pts.pub ∧ Only ([.pts, .adc] ++ eventParts) u t
        ∧ RegsBut ([(Reg.ADC_SV_STAT.timeout, n.val), (Reg.ADC_SV_STAT.valid, n.val), (Reg.ADC_SV_MAP.state, n.val)] ++ eventRegs) u t)


/-! ### Time, PPS and the Ethernet ports (R344 to R366) -/

/-- RATE_WRITE (R346): an increment within 32 x (1 +- 200 ppm) takes effect at once, the offset is re-based so that T(C) stays, and the
write is counted; one outside is discarded as R30 says. REF_FALLBACK and REF_RESTORED (R344, R454) show the reference, a loss once per
episode with event 0x509. TIM_SNAP (R366) latches C and T of one cycle; ALARM_ARM arms; ALARM stands at the first cycle that reaches
TIM_ALARM and comes after the arming, raises event 0x508 and disarms, and an alarm that is not armed does nothing. Where the manual is
silent it rests on the model's own choices in notes/assumptions/8.md, 98.md. -/
def Obligations.StationTimeBase : Prop :=
  ∀ s : State, Sound s →
    let lo := s.rd Reg.TIM_INC_LO.frac_lo 0
    let at_ := s.rd Reg.TIM_ALARM_LO.at_lo 0 + 2 ^ 32 * s.rd Reg.TIM_ALARM_HI.at_hi 0
    let due := (s.reachTime at_).reachCycle (s.clk.armedAt + 1)
    (s.fab.again = [] → Only [.clk] s due)
    ∧ (∀ v, HostUp s → let i' := v % 2 ^ 32 * 2 ^ 32 + lo
        319936 * 2 ^ 48 ≤ i' * 10000 → i' * 10000 ≤ 320064 * 2 ^ 48 →
      ∃ t, exec (.rateWrite v) s = .next t ∧ t.clk.inc = i' ∧ t.now = s.now ∧ t.clk.count = s.clk.count ∧ t.clk.grid = s.clk.grid
        ∧ t.clk.off < 2 ^ 112 ∧ t.rd Reg.TIM_INC_HI.frac_hi 0 = v % 2 ^ 16 ∧ t.rd Reg.TIM_INC_HI.int 0 = v / 2 ^ 16 % 2 ^ 16
        ∧ t.rd Reg.TIM_CORR_CNT.rate_writes 0 = min (s.rd Reg.TIM_CORR_CNT.rate_writes 0 + 1) 65535 ∧ Only ([.regs, .clk] ++ mirrorParts) s t
        ∧ RegsBut [(Reg.TIM_INC_HI.frac_hi, 0), (Reg.TIM_INC_HI.int, 0), (Reg.TIM_CORR_CNT.rate_writes, 0)] s t)
    ∧ (∀ v, HostUp s → let i' := v % 2 ^ 32 * 2 ^ 32 + lo
        i' * 10000 < 319936 * 2 ^ 48 ∨ 320064 * 2 ^ 48 < i' * 10000 →
      ∃ t, exec (.rateWrite v) s = .next t ∧ t.clk = s.clk ∧ t.rd Reg.TIM_INC_LO.frac_lo 0 = s.clk.inc % 2 ^ 32
        ∧ t.rd Reg.EPO_WR_REJECT_CNT.count 0 = min (s.rd Reg.EPO_WR_REJECT_CNT.count 0 + 1) (2 ^ 32 - 1)
        ∧ Reports s t 0x013 0 0x401C ∧ Only (eventParts ++ mirrorParts) s t
        ∧ RegsBut ([(Reg.TIM_INC_LO.frac_lo, 0), (Reg.EPO_WR_REJECT_CNT.count, 0)] ++ eventRegs) s t)
    ∧ (s.flag Reg.TIM_STAT.ref_lost 0 = false →
      ∃ t, exec .refFallback s = .next t ∧ t.rd Reg.TIM_STAT.ref_lost 0 = 1 ∧ t.rd Reg.PWR_CLK_STAT.ref_present 0 = 0
        ∧ t.rd Reg.PWR_CLK_STAT.fallback 0 = 1 ∧ Reports s t 0x509 0 s.clk.count ∧ Only eventParts s t
        ∧ RegsBut ([(Reg.TIM_STAT.ref_lost, 0), (Reg.PWR_CLK_STAT.ref_present, 0), (Reg.PWR_CLK_STAT.fallback, 0)] ++ eventRegs) s t)
    ∧ (s.flag Reg.TIM_STAT.ref_lost 0 = true → exec .refFallback s = .next s)
    ∧ (∃ t, exec .refRestored s = .next t ∧ t.rd Reg.TIM_STAT.ref_lost 0 = 0 ∧ t.rd Reg.PWR_CLK_STAT.ref_present 0 = 1
        ∧ t.rd Reg.PWR_CLK_STAT.fallback 0 = 0 ∧ Only [.regs] s t
        ∧ RegsBut [(Reg.TIM_STAT.ref_lost, 0), (Reg.PWR_CLK_STAT.ref_present, 0), (Reg.PWR_CLK_STAT.fallback, 0)] s t)
    ∧ (HostUp s →
      ∃ t, exec .timSnap s = .next t ∧ t.rd Reg.TIM_SNAP_CNT_LO.c_lo 0 = s.clk.count % 2 ^ 32
        ∧ t.rd Reg.TIM_SNAP_CNT_HI.c_hi 0 = s.clk.count / 2 ^ 32 % 2 ^ 32 ∧ t.rd Reg.TIM_SNAP_TIME_LO.t_lo 0 = s.now % 2 ^ 32
        ∧ t.rd Reg.TIM_SNAP_TIME_HI.t_hi 0 = s.now / 2 ^ 32 % 2 ^ 32 ∧ Only [.regs] s t
        ∧ RegsBut [(Reg.TIM_SNAP_CNT_LO.c_lo, 0), (Reg.TIM_SNAP_CNT_HI.c_hi, 0), (Reg.TIM_SNAP_TIME_LO.t_lo, 0),
            (Reg.TIM_SNAP_TIME_HI.t_hi, 0)] s t)
    ∧ (HostUp s →
      ∃ t, exec .alarmArm s = .next t ∧ t.rd Reg.TIM_ALARM_CTRL.arm 0 = 1 ∧ t.clk = { s.clk with armedAt := s.clk.count }
        ∧ Only [.regs, .clk] s t
        ∧ RegsBut [(Reg.TIM_ALARM_CTRL.arm, 0)] s t)
    ∧ (s.flag Reg.TIM_ALARM_CTRL.arm 0 = true → s.flag Reg.TIM_ALARM_CTRL.rel_en 0 = false →
      ∃ t, exec .alarm s = .next t ∧ t.rd Reg.TIM_ALARM_CTRL.arm 0 = 0 ∧ Reports due t 0x508 0 at_ ∧ Only eventParts due t
        ∧ RegsBut ((Reg.TIM_ALARM_CTRL.arm, 0) :: eventRegs) due t)
    ∧ (∀ e, s.flag Reg.TIM_ALARM_CTRL.arm 0 = true → s.flag Reg.TIM_ALARM_CTRL.rel_en 0 = true →
        let g := s.rd Reg.TIM_ALARM_CTRL.graph 0
        s.fab.again = [] → s.bs.graphEntry g = some e → (s.graph g).enabled = true → e.trigger = .host →
        s.red.holdGraphs.contains g = false → s.graphUsable e = true → s.graphBusy g = false → e.flow = none → s.hasSpace e = true →
      ∃ t, exec .alarm s = .next t ∧ t.rd Reg.TIM_ALARM_CTRL.arm 0 = 0 ∧ Reports due t 0x508 0 at_
        ∧ t.fab.jobs.length = s.fab.jobs.length + 1 ∧ (t.graph g).state = 3 ∧ (∀ n, n ≠ g → t.graph n = s.graph n)
        ∧ t.pts.pub = s.pts.pub ∧ Only ([.pts, .fab] ++ eventParts) due t
        ∧ RegsBut ((Reg.TIM_ALARM_CTRL.arm, 0) :: (Reg.FAB_GRAPH_STAT.state, g) :: eventRegs) s t)
    ∧ (s.flag Reg.TIM_ALARM_CTRL.arm 0 = false → exec .alarm s = .next s)

/-- Time quality (R364): outside SUSPECT the commands 1, 2 and 3 set FREE_RUN, LOCKED and HOLDOVER; in SUSPECT they are refused. CLEAR sets
HOLDOVER from SUSPECT while no port is HELD and is refused otherwise. HOLDOVER_WATCH takes LOCKED to HOLDOVER, unless its period is 0, once
that period has passed since the last correction and since LOCKED began. Every change raises event 0x500 with the new and the old quality
and sets condition 240 to whether it is SUSPECT. PPS (R361 to R363). With pps_in_en an edge of the polarity that TIM_CTRL.pps_in_edge
selects is stamped with T(C) plus floor(phi x I / 32) plus TIM_PPS_ADJ.in, its distance from the nearest second boundary is kept, and it
is counted; after a missing edge it raises event 0x505; an edge of the other polarity does nothing. Once an edge has come, 1.1 s
(440,000,000 cycles) without another are counted as missing, once, with event 0x504. With pps_out_en the next second boundary plus
TIM_PPS_ADJ.out raises PPS_OUT for TIM_PPS_CTRL.width milliseconds, unless the output is still high, which is counted, or the gate asks
for LOCKED; the width's end lowers it.
Where the manual is silent it rests on the model's own choices in notes/assumptions/8.md, 102.md. -/
def Obligations.TimeQualityAndPps : Prop :=
  (∀ s : State, Sound s →
      let q := s.rd Reg.TIM_STAT.quality 0
      let becomes (s t : State) (n : Nat) : Prop := t.rd Reg.TIM_STAT.quality 0 = n
        ∧ (q ≠ n → (tabGet Cond.clear t.conds 240).level = false ∧ Reports s t 0x500 0 (n + 16 * q))
        ∧ (q = n → t.evq = s.evq ∧ t.conds = s.conds) ∧ (∀ c, c ≠ 240 → tabGet Cond.clear t.conds c = tabGet Cond.clear s.conds c)
        ∧ t.clk = { s.clk with lockedAt := if n = 2 ∧ q ≠ 2 then s.clk.count else s.clk.lockedAt }
        ∧ Only ([.conds, .clk] ++ eventParts) s t
      let status := [(Reg.TIM_STAT.quality, 0), (Reg.TIM_STAT.cmd_status, 0)] ++ eventRegs
      let accepted (c : Instr) (n : Nat) : Prop := ∃ t, exec c s = .next t ∧ becomes s t n ∧ t.rd Reg.TIM_STAT.cmd_status 0 = 1
        ∧ RegsBut status s t
      let refused (c : Instr) : Prop := ∃ t, exec c s = .next t ∧ t.rd Reg.TIM_STAT.cmd_status 0 = 2 ∧ Only [.regs] s t
        ∧ RegsBut [(Reg.TIM_STAT.cmd_status, 0)] s t
      (HostUp s → q ≠ 4 → accepted .qualFreeRun 1 ∧ accepted .qualLocked 2 ∧ accepted .qualHoldover 3 ∧ refused .qualClear)
      ∧ (HostUp s → q = 4 → refused .qualFreeRun ∧ refused .qualLocked ∧ refused .qualHoldover)
      ∧ (HostUp s → q = 4 → s.rd Reg.TIM_STAT.ptp_held 0 = 0 → accepted .qualClear 3)
      ∧ (HostUp s → s.rd Reg.TIM_STAT.ptp_held 0 ≠ 0 → refused .qualClear)
      ∧ (q = 2 → s.rd Reg.TIM_QUAL_WATCH.ms 0 ≠ 0 →
        let since := max s.clk.lastCorr s.clk.lockedAt + s.rd Reg.TIM_QUAL_WATCH.ms 0 * 400000
        let due := s.reachCycle since
        (since ≤ s.clk.count → due = s) ∧ (s.fab.again = [] → Only [.clk] s due) ∧
        ∃ t, exec .holdoverWatch s = .next t ∧ becomes due t 3 ∧ RegsBut ((Reg.TIM_STAT.quality, 0) :: eventRegs) due t)
      ∧ (q ≠ 2 ∨ s.rd Reg.TIM_QUAL_WATCH.ms 0 = 0 → exec .holdoverWatch s = .next s))
  ∧ (∀ (s : State) (rising : Bool) (phi : Fin 32), Sound s →
      let adj : Int := signedOf 16 (s.rd Reg.TIM_PPS_ADJ.inp 0)
      let stamp := ((((s.now + phi * s.clk.inc / 2 ^ 53 : Nat) : Int) + adj).emod (2 ^ 64)).toNat
      let r := stamp % 12800000000
      let err : Int := if 2 * r < 12800000000 then (r : Int) else (r : Int) - 12800000000
      let seen (t : State) : Prop := t.rd Reg.TIM_PPS_IN_LO.stamp_lo 0 = stamp % 2 ^ 32 ∧ t.rd Reg.TIM_PPS_IN_HI.stamp_hi 0 = stamp / 2 ^ 32
        ∧ (t.rd Reg.TIM_PPS_IN_ERR.err 0 : Int) = err.emod (2 ^ 32)
        ∧ t.rd Reg.TIM_PPS_CNT.edges 0 = min (s.rd Reg.TIM_PPS_CNT.edges 0 + 1) 4095
        ∧ RegsBut ([(Reg.TIM_PPS_IN_LO.stamp_lo, 0), (Reg.TIM_PPS_IN_HI.stamp_hi, 0), (Reg.TIM_PPS_IN_ERR.err, 0),
            (Reg.TIM_PPS_CNT.edges, 0)] ++ eventRegs) s t
      let edge : Prop := s.flag Reg.TIM_CTRL.pps_in_en 0 = true ∧ rising = !s.flag Reg.TIM_CTRL.pps_in_edge 0
      let since := { s.clk with ppsMissing := false, ppsAt := some s.clk.count }
      let boundary := s.ppsBoundary
      let out := (s.reachTime boundary).ppsTake boundary
      (edge → s.clk.ppsMissing = false →
        ∃ t, exec (.ppsInEdge rising phi) s = .next t ∧ seen t ∧ t.clk = since ∧ t.evq = s.evq ∧ Only [.regs, .clk] s t)
      ∧ (edge → s.clk.ppsMissing = true →
        ∃ t, exec (.ppsInEdge rising phi) s = .next t ∧ seen t ∧ t.clk = since
          ∧ Reports s t 0x505 0 (s.rd Reg.TIM_PPS_CNT.missing 0) ∧ Only (.clk :: eventParts) s t)
      ∧ (¬ edge → exec (.ppsInEdge rising phi) s = .next s)
      ∧ (∀ c, s.flag Reg.TIM_CTRL.pps_in_en 0 = true → s.clk.ppsAt = some c → s.clk.ppsMissing = false →
        let due := s.reachCycle (c + 440000000)
        (c + 440000000 ≤ s.clk.count → due = s) ∧ (s.fab.again = [] → Only [.clk] s due) ∧
        ∃ t, exec .ppsInMissing s = .next t ∧ t.clk = { due.clk with ppsMissing := true }
          ∧ t.rd Reg.TIM_PPS_CNT.missing 0 = min (s.rd Reg.TIM_PPS_CNT.missing 0 + 1) 4095
          ∧ Reports due t 0x504 0 (s.rd Reg.TIM_PPS_IN_LO.stamp_lo 0 + 2 ^ 32 * s.rd Reg.TIM_PPS_IN_HI.stamp_hi 0)
          ∧ Only (.clk :: eventParts) due t ∧ RegsBut ((Reg.TIM_PPS_CNT.missing, 0) :: eventRegs) due t)
      ∧ (s.flag Reg.TIM_CTRL.pps_in_en 0 = false ∨ s.clk.ppsAt = none ∨ s.clk.ppsMissing = true →
          exec .ppsInMissing s = .next s)
      ∧ (12800000000 ≤ s.now → s.now + 25600000000 < 2 ^ 64 →
          ((boundary : Int) - signedOf 16 (s.rd Reg.TIM_PPS_ADJ.out 0)) % 12800000000 = 0)
      ∧ (s.fab.again = [] → Only [.clk] s out)
      ∧ (s.flag Reg.TIM_CTRL.pps_out_en 0 = true → s.clk.ppsOut = false →
          (s.flag Reg.TIM_CTRL.pps_out_gate 0 = true → s.rd Reg.TIM_STAT.quality 0 = 2) →
        ∃ t, exec .ppsOutPulse s = .next t ∧ t.wire = out.wire ++ [.ppsOut true] ∧ Only [.clk, .wire] out t
          ∧ t.clk = { out.clk with ppsOut := true, ppsEnd := out.clk.count + s.rd Reg.TIM_PPS_CTRL.width 0 * 400000 })
      ∧ (s.flag Reg.TIM_CTRL.pps_out_en 0 = true → s.clk.ppsOut = false → s.flag Reg.TIM_CTRL.pps_out_gate 0 = true →
          s.rd Reg.TIM_STAT.quality 0 ≠ 2 → exec .ppsOutPulse s = .next out)
      ∧ (s.flag Reg.TIM_CTRL.pps_out_en 0 = true → s.clk.ppsOut = true →
        ∃ t, exec .ppsOutPulse s = .next t ∧ t.rd Reg.TIM_PPS_CNT.skipped 0 = min (s.rd Reg.TIM_PPS_CNT.skipped 0 + 1) 255
          ∧ Only [.regs] out t ∧ RegsBut [(Reg.TIM_PPS_CNT.skipped, 0)] out t)
      ∧ (s.flag Reg.TIM_CTRL.pps_out_en 0 = false → exec .ppsOutPulse s = .next s)
      ∧ (s.clk.ppsOut = true → let due := s.reachCycle s.clk.ppsEnd
        ∃ t, exec .ppsOutEnd s = .next t ∧ t.clk = { due.clk with ppsOut := false } ∧ t.wire = due.wire ++ [.ppsOut false]
          ∧ Only [.clk, .wire] due t)
      ∧ (s.clk.ppsOut = false → exec .ppsOutEnd s = .next s))

/-- Ethernet frames (R358, R359). A received frame with a bad FCS is counted and dropped. A good one that carries no PTP message, passes the
filter and finds a free descriptor is written to its buffer with the descriptor of Table 11.2, and the head moves on. A transmitted frame of
14 to 1,514 bytes that carries no PTP message leaves padded to 60 bytes with its FCS, its descriptor is written back (Table 11.1), and the
head moves on. ETH_LINK_CHANGE (Table 11.4) shows the link with event 0x510 or 0x511; invalid sync headers are counted (R369).
Where the manual is silent it rests on the model's own choices in notes/assumptions/26.md, 126.md. -/
def Obligations.EthernetFrames : Prop :=
  ∀ (s : State) (port : Fin 2) (bytes : List (BitVec 8)) (phi : Fin 32), Sound s →
    let p : Nat := port
    let up (f : Field) : Nat := min (s.rd f p + 1) (2 ^ f.width - 1)
    let stamp (adj : Nat) : Nat := ((((s.stamp phi : Nat) : Int) + signedOf 16 adj).emod (2 ^ 64)).toNat
    let rhead := s.rd Reg.ETH_RXR_HEAD.head p
    let rdesc := s.rd Reg.ETH_RXR_BASE_LO.base_lo p * 4096 + s.rd Reg.ETH_RXR_BASE_HI.base_hi p * 2 ^ 32 + rhead * 16
    let thead := s.rd Reg.ETH_TXR_HEAD.head p
    let tdesc := s.rd Reg.ETH_TXR_BASE_LO.base_lo p * 4096 + s.rd Reg.ETH_TXR_BASE_HI.base_hi p * 2 ^ 32 + thead * 16
    let padded := bytes ++ List.replicate (60 - bytes.length) 0
    let plain : Prop := ptpPayload (s.flag Reg.ETH_CTRL.transport p) bytes = none
    let causes := [(Reg.GLB_IRQ_STAT0.cause, 0)]
    let link : List (Field × Nat) := [(Reg.ETH_STAT.link, p), (Reg.ETH_STAT.local_fault, p), (Reg.ETH_STAT.remote_fault, p)]
    (∀ buffer, s.flag Reg.ETH_CTRL.enable p = true →
      ∃ t, exec (.ethRxFrame port bytes false phi buffer) s = .next t ∧ t.rd Reg.ETH_RX_DROP.fcs p = up Reg.ETH_RX_DROP.fcs
        ∧ Only [.regs] s t ∧ RegsBut [(Reg.ETH_RX_DROP.fcs, p)] s t)
    ∧ (∀ buffer, s.flag Reg.ETH_CTRL.enable p = true → s.flag Reg.ETH_CTRL.rx_en p = true → plain → s.ethPasses p bytes = true →
        s.mayRequest = true → rhead ≠ s.rd Reg.ETH_RXR_TAIL.tail p →
      ∃ t, exec (.ethRxFrame port bytes true phi buffer) s = .next t
        ∧ t.host.mem = tabSetList 0 (tabSetList 0 s.host.mem buffer bytes) rdesc
            (bytesLE 8 (stamp (s.rd Reg.ETH_LAT.rx p)) ++ bytesLE 2 bytes.length
              ++ bytesLE 1 (1 + 4 * bit (beNat bytes 12 2 == 0x8100)) ++ bytesLE 5 0)
        ∧ t.rd Reg.ETH_RXR_HEAD.head p = (rhead + 1) % 2 ^ s.rd Reg.ETH_RXR_SIZE.log2 p % 2 ^ 12
        ∧ t.rd Reg.ETH_RX_CNT.frames p = up Reg.ETH_RX_CNT.frames ∧ (t.port p).sync = (s.port p).sync
        ∧ (t.port p).delay = (s.port p).delay ∧ (∀ n, n ≠ p → t.port n = s.port n) ∧ t.evq = s.evq
        ∧ Only [.regs, .eth, .host, .wire] s t
        ∧ RegsBut ([(Reg.ETH_RXR_HEAD.head, p), (Reg.ETH_RX_CNT.frames, p)] ++ causes) s t)
    ∧ (∀ stampRequested, s.flag Reg.ETH_CTRL.enable p = true → s.flag Reg.ETH_CTRL.tx_en p = true → plain → s.mayRequest = true →
        thead ≠ s.rd Reg.ETH_TXR_TAIL.tail p → 14 ≤ bytes.length → bytes.length ≤ 1514 →
      ∃ t, exec (.ethTxFrame port bytes stampRequested phi 0) s = .next t
        ∧ (s.wire ++ [.ethernet p (padded ++ bytesLE 4 (crc32Eth padded))]) <+: t.wire
        ∧ t.host.mem = tabSetList 0 s.host.mem tdesc
            (bytesLE 8 (if stampRequested then stamp (s.rd Reg.ETH_LAT.tx p) else 0) ++ bytesLE 2 bytes.length
              ++ bytesLE 1 (1 + 2 * bit stampRequested) ++ bytesLE 5 0)
        ∧ t.rd Reg.ETH_TXR_HEAD.head p = (thead + 1) % 2 ^ s.rd Reg.ETH_TXR_SIZE.log2 p % 2 ^ 12
        ∧ t.rd Reg.ETH_TX_CNT.frames p = up Reg.ETH_TX_CNT.frames ∧ Only [.regs, .host, .wire] s t
        ∧ RegsBut ([(Reg.ETH_TXR_HEAD.head, p), (Reg.ETH_TX_CNT.frames, p), (Reg.ETH_TS_CNT.tx_stamped, p)] ++ causes) s t)
    ∧ (∀ stampRequested err, s.flag Reg.ETH_CTRL.enable p = false ∨ s.flag Reg.ETH_CTRL.tx_en p = false ∨ s.mayRequest = false
        ∨ thead = s.rd Reg.ETH_TXR_TAIL.tail p → exec (.ethTxFrame port bytes stampRequested phi err) s = .next s)
    ∧ (∃ t, exec (.ethLinkChange port .lockLost) s = .next t ∧ t.rd Reg.ETH_STAT.link p = 0 ∧ t.rd Reg.ETH_STAT.local_fault p = 1
        ∧ t.rd Reg.ETH_PCS_CNT.lock_losses p = up Reg.ETH_PCS_CNT.lock_losses ∧ Reports s t 0x510 p 1 ∧ Only eventParts s t
        ∧ RegsBut ((Reg.ETH_PCS_CNT.lock_losses, p) :: link ++ eventRegs) s t)
    ∧ (∀ n, ∃ t, exec (.ethLinkChange port (.headers n)) s = .next t
        ∧ t.rd Reg.ETH_PCS_CNT.hdr_err p = min (s.rd Reg.ETH_PCS_CNT.hdr_err p + n) (2 ^ Reg.ETH_PCS_CNT.hdr_err.width - 1)
        ∧ Only [.regs] s t ∧ RegsBut [(Reg.ETH_PCS_CNT.hdr_err, p)] s t)
    ∧ (∃ t, exec (.ethLinkChange port .remoteFault) s = .next t ∧ t.rd Reg.ETH_STAT.link p = 0 ∧ t.rd Reg.ETH_STAT.remote_fault p = 1
        ∧ Reports s t 0x510 p 2 ∧ Only eventParts s t ∧ RegsBut (link ++ eventRegs) s t)
    ∧ (∃ t, exec (.ethLinkChange port .up) s = .next t ∧ t.rd Reg.ETH_STAT.link p = 1 ∧ t.rd Reg.ETH_STAT.local_fault p = 0
        ∧ t.rd Reg.ETH_STAT.remote_fault p = 0 ∧ Reports s t 0x511 p s.epo.k ∧ Only eventParts s t ∧ RegsBut (link ++ eventRegs) s t)

/-- The commands that end a held delay, and a measured delay. DELAY_ACCEPT (R356) in HELD, once a round trip was measured: it takes the
value that TIM_LANE_REJ shows as rt_acc, enters TRACKING, clears the flags of R355, raises event 0x503, and the delay is floor((rt_acc +
asym) / 2) (R354); in another state, or without a round trip, it changes nothing. LANE_REACQUIRE (R354): the selected lane is ACQUIRING
again and uses d_l. MPD_ACCEPT (R360) takes the last m and ends HELD with event 0x507. Each of the three completes in every state in which
the host reaches the device. The first m of a port is taken (R360): a one-step Pdelay_Resp that answers the request sent at t1 gives m =
((t4 - t1) - (t3 - t2) - c) / 2 with t2 = t3. Where the manual is silent it rests on the model's own choices in notes/assumptions/27.md,
43.md. -/
def Obligations.MeasuredDelays : Prop :=
  ∀ s : State, Sound s →
    (∀ lane : Fin 96, let l : Nat := lane
        let v := s.rd Reg.TIM_LANE_REJ.rt_cand l
        let asym := s.rd Reg.LANE_CORR.asym l
        let h := (Int.fdiv ((v % 2 ^ 24 : Nat) + signedOf 16 asym) 2).toNat
        let map : List (Field × Nat) := [(Reg.TIM_LANE_STAT.state, l), (Reg.TIM_LANE_STAT.run, l), (Reg.LANE_DELAY.held, l),
          (Reg.TIM_HELD_MAP0.held, 0), (Reg.TIM_HELD_MAP1.held, 0), (Reg.TIM_HELD_MAP2.held, 0), (Reg.LANE_DELAY.h, l),
          (Reg.LANE_DELAY.overLimit, l)] ++ eventRegs
        (HostUp s → s.rd Reg.TIM_LANE_STAT.state l = 2 → s.rd Reg.TIM_LANE_REJ.taken l ≠ 0 →
          ∃ t, exec (.delayAccept lane) s = .next t ∧ t.rd Reg.TIM_LANE_ACC.rt_acc l = v % 2 ^ 24 ∧ t.rd Reg.TIM_LANE_STAT.state l = 1
            ∧ t.rd Reg.TIM_LANE_STAT.run l = 0 ∧ t.rd Reg.LANE_DELAY.held l = 0
            ∧ (s.bs.laneEntry l = none → Reports s t 0x503 l (v + 2 ^ 32 * asym))
            ∧ (∀ e, s.bs.laneEntry l = some e → t.rd Reg.LANE_DELAY.h l = h % 2 ^ 24
                ∧ (h ≤ e.dmax ∨ s.flag Reg.LANE_DELAY.overLimit l = true → Reports s t 0x503 l (v + 2 ^ 32 * asym)))
            ∧ Only eventParts s t ∧ RegsBut ((Reg.TIM_LANE_ACC.rt_acc, l) :: map) s t)
        ∧ (s.rd Reg.TIM_LANE_STAT.state l ≠ 2 ∨ s.rd Reg.TIM_LANE_REJ.taken l = 0 → exec (.delayAccept lane) s = .next s)
        ∧ (HostUp s → s.rd Reg.TIM_LANE_SEL.lane 0 = l →
          ∃ t, exec .laneReacquire s = .next t ∧ t.rd Reg.TIM_LANE_STAT.state l = 0 ∧ t.rd Reg.TIM_LANE_STAT.run l = 0
            ∧ t.rd Reg.LANE_DELAY.held l = 0 ∧ (∀ e, s.bs.laneEntry l = some e → t.rd Reg.LANE_DELAY.h l = e.dmax % 2 ^ 24)
            ∧ t.lane l = { s.lane l with trips := [] } ∧ (∀ n, n ≠ l → t.lane n = s.lane n)
            ∧ Only (.lanes :: eventParts) s t ∧ RegsBut map s t))
    ∧ (∀ port : Fin 2, HostUp s → let m := s.rd Reg.ETH_MPD_MEAS.m port
      ∃ t, exec (.mpdAccept port) s = .next t ∧ t.rd Reg.ETH_MPD_ACC.m_acc port = m % 2 ^ 32 ∧ t.rd Reg.ETH_STAT.mpd_valid port = 1
        ∧ t.rd Reg.ETH_STAT.held port = 0 ∧ t.rd Reg.ETH_MPD_STAT.run port = 0 ∧ t.bitAt Reg.TIM_STAT.ptp_held 0 port = false
        ∧ Reports s t 0x507 port m ∧ Only eventParts s t
        ∧ RegsBut ([(Reg.ETH_MPD_ACC.m_acc, port.val), (Reg.ETH_STAT.mpd_valid, port.val), (Reg.ETH_STAT.held, port.val),
            (Reg.ETH_MPD_STAT.run, port.val), (Reg.TIM_STAT.ptp_held, 0)] ++ eventRegs) s t)
    ∧ (∀ (port : Fin 2) (bytes : List (BitVec 8)) (phi : Fin 32) (buffer : Nat) (msg : List (BitVec 8)) (t1 : Nat), let p : Nat := port
        let d := (s.port p).delay
        let t4 := timePlus (s.stamp phi) (signedOf 16 (s.rd Reg.ETH_LAT.rx p))
        let m := Int.fdiv ((t4 : Int) - t1 - (d.corr + ptpCorr msg)) 2
        s.flag Reg.ETH_CTRL.enable p = true → s.flag Reg.ETH_CTRL.rx_en p = false → s.flag Reg.ETH_CTRL.ptp_en p = true →
        s.flag Reg.ETH_CTRL.mech p = true → ptpPayload (s.flag Reg.ETH_CTRL.transport p) bytes = some msg →
        s.ptpFromPeer p msg = true → ptpType msg = 3 → ptpTwoStep msg = false → ptpSeq msg = d.seq → d.t1 = some t1 →
        (s.port p).seen = false →
      ∃ t, exec (.ethRxFrame port bytes true phi buffer) s = .next t ∧ t.rd Reg.ETH_MPD_MEAS.m p = (m.emod (2 ^ 32)).toNat
        ∧ t.rd Reg.ETH_MPD_ACC.m_acc p = (m.emod (2 ^ 32)).toNat ∧ t.rd Reg.ETH_MPD_STAT.run p = 0
        ∧ t.rd Reg.ETH_STAT.mpd_valid p = 1 ∧ t.rd Reg.ETH_MPD_STAT.seq p = ptpSeq msg % 2 ^ 16 ∧ (t.port p).seen = true
        ∧ (t.port p).delay = PtpMatch.clear ∧ (t.port p).sync = (s.port p).sync ∧ (∀ n, n ≠ p → t.port n = s.port n)
        ∧ Only [.regs, .eth] s t
        ∧ RegsBut [(Reg.ETH_MPD_MEAS.m, p), (Reg.ETH_MPD_ACC.m_acc, p), (Reg.ETH_MPD_STAT.run, p), (Reg.ETH_MPD_STAT.seq, p),
            (Reg.ETH_STAT.mpd_valid, p), (Reg.ETH_TS_CNT.rx_event, p)] s t)


/-! ### Redundancy (R370 to R397) -/

/-- HEARTBEAT_SEND (R374): the symbol carries code, rank, the low half of the term and their CRC-8: the unit's own role, rank and claim
outside reset and DORMANT, in them code 7 or 8 with what was sent last; for the first 200 ms of a reset there is none. HEARTBEAT_SYMBOL and
RING_HEARTBEAT (R375, R376): a bad CRC is counted; a unit without a partner shows the symbol and does no more; a STANDBY that hears an
ACTIVE partner of the other rank shows its code and claim and the path is good, with event 0x602 when it was lost; an ACTIVE unit that
begins to hear code 7 raises event 0x60F. HB_PATH_LOST (R376): the loss of one path is counted with event 0x601 and starts the holdoff of
R388 again, and nothing else follows. RING_PORT (R393): a port that goes down is counted with event 0x60C, one that goes up shows the
address seen there. In reset, in DORMANT and while LINK is not ON the closed bypass passes a ring message on to the other port (R397, R461).
Where the manual is silent it rests on the model's own choices in notes/assumptions/69.md, 70.md, 71.md, 74.md. -/
def Obligations.HeartbeatPaths : Prop :=
  ∀ (s : State) (sym : BitVec 32), Sound s →
    let own : Bool := !s.pwr.inReset && !s.pwr.dormant
    let sends := if s.pwr.dormant then 8 else if s.pwr.inReset then 7 else s.role
    let body := sends % 16 * 2 ^ 20 + (if own then s.rank else s.pwr.hbRank) % 16 * 2 ^ 16
      + (if own then s.rd Reg.RED_CLAIM.claim 0 % 2 ^ 28 else s.pwr.hbTerm) % 2 ^ 16
    let b := sym.toNat / 2 ^ 8
    let good : Prop := sym.toNat % 2 ^ 8 = crc8 [b / 2 ^ 16, b / 2 ^ 8, b]
    let code := sym.toNat / 2 ^ 28
    let rank := sym.toNat / 2 ^ 24 % 16
    let full := s.fullTerm (sym.toNat / 2 ^ 8 % 2 ^ 16)
    let seen := max (s.rd Reg.RED_TERM_SEEN.term 0)
    let shown (t : State) (code claim : Nat) (f : Field) (ring : Nat) : Prop := t.rd Reg.RED_STAT.partner_code 0 = code
      ∧ t.rd Reg.RED_PEER_CLAIM.claim 0 = claim ∧ t.rd f 0 ≠ 0 ∧ (s.flag f 0 = false → Reports s t 0x602 0 ring)
      ∧ (s.flag f 0 = true → t.evq = s.evq)
    let heard : List (Field × Nat) := [(Reg.RED_STAT.partner_code, 0), (Reg.RED_PEER_CLAIM.claim, 0), (Reg.RED_TERM_SEEN.term, 0)] ++ eventRegs
    let symbol : List (Field × Nat) := [(Reg.RED_PEER_HB.code, 0), (Reg.RED_PEER_HB.rank, 0), (Reg.RED_PEER_HB.term, 0)]
    let rest : Red := { s.red with healthyAt := none }
    (s.pwr.inReset = false ∨ s.pwr.dormant = true ∨ s.pwr.held200 = true →
      ∃ t, exec .heartbeatSend s = .next t
        ∧ t.wire = s.wire ++ [.heartbeat (body * 256 + crc8 [body / 2 ^ 16, body / 2 ^ 8, body])] ∧ Only [.wire] s t)
    ∧ (s.pwr.inReset = true → s.pwr.dormant = false → s.pwr.held200 = false → exec .heartbeatSend s = .next s)
    ∧ (s.pwr.inReset = false → s.pwr.dormant = false → ¬ good →
      ∃ t, exec (.heartbeatSymbol sym) s = .next t ∧ t.rd Reg.RED_HB_CNT.line_bad 0 = min (s.rd Reg.RED_HB_CNT.line_bad 0 + 1) 65535
        ∧ Only [.regs] s t ∧ RegsBut [(Reg.RED_HB_CNT.line_bad, 0)] s t)
    ∧ (s.pwr.inReset = false → s.pwr.dormant = false → good → s.paired = false →
      ∃ t, exec (.heartbeatSymbol sym) s = .next t ∧ t.rd Reg.RED_PEER_HB.code 0 = code ∧ t.rd Reg.RED_PEER_HB.rank 0 = rank
        ∧ t.rd Reg.RED_PEER_HB.term 0 = sym.toNat / 2 ^ 8 % 2 ^ 16 ∧ Only [.regs] s t ∧ RegsBut symbol s t)
    ∧ (s.pwr.inReset = false → s.pwr.dormant = false → good → s.paired = true → rank + s.rank = 3 →
        (s.role = 1 → code = 3 →
          ∃ t, exec (.heartbeatSymbol sym) s = .next t ∧ shown t code (rank * 2 ^ 28 + full) Reg.RED_STAT.line_ok 0
            ∧ t.rd Reg.RED_TERM_SEEN.term 0 = seen full
            ∧ t.red = { s.red with lineAt := some s.now, activeAt := some s.now, wasActive := true, lineOther := 0, ringOther := 0
                                   termSeen := t.red.termSeen }
            ∧ (s.red.hand ≠ .outgoing → t.red.termSeen = s.red.termSeen)
            ∧ Only (.red :: eventParts) s t ∧ RegsBut ((Reg.RED_STAT.line_ok, 0) :: symbol ++ heard) s t)
        ∧ (s.role = 3 → code = 7 → s.rd Reg.RED_STAT.partner_code 0 ≠ 7 → s.flag Reg.RED_STAT.line_ok 0 = true →
          ∃ t, exec (.heartbeatSymbol sym) s = .next t ∧ t.rd Reg.RED_STAT.partner_code 0 = 7 ∧ t.rd Reg.RED_FLAGS.partner_reset 0 = 1
            ∧ Reports s t 0x60F 0 0 ∧ t.red = { s.red with lineAt := some s.now, lineOther := s.red.lineOther + 1 }
            ∧ Only (.red :: eventParts) s t
            ∧ RegsBut ((Reg.RED_FLAGS.partner_reset, 0) :: symbol ++ heard) s t))
    ∧ (∀ (m : RingMsg) (rk : Fin 16) (claim : BitVec 32) (epoch ckptSeq : Nat), RingOk m 0 [[3 * 2 ^ 60 + rk.val * 2 ^ 56 + claim.toNat, epoch, ckptSeq]] s →
        s.paired = true → m.src.val = s.rd Reg.RED_RING_CFG.partner 0 → rk.val + s.rank = 3 → s.role = 1 →
      ∃ t, exec (.ringHeartbeat m 3 rk claim epoch ckptSeq) s = .next t ∧ shown t 3 claim.toNat Reg.RED_STAT.ring_ok 1
        ∧ t.red = { s.red with seen := seenAfter s m, ringAt := some s.now, activeAt := some s.now, wasActive := true
                               lineOther := 0, ringOther := 0, termSeen := t.red.termSeen }
        ∧ (s.red.hand ≠ .outgoing → t.red.termSeen = s.red.termSeen)
        ∧ (s.wire ++ [.forward (1 - m.port.val) m.src.val m.seq]) <+: t.wire ∧ Only (.red :: eventParts) s t
        ∧ RegsBut ((Reg.RED_STAT.ring_ok, 0) :: heard) s t)
    ∧ (∀ (m : RingMsg) (code rk : Fin 16) (claim : BitVec 32) (epoch ckptSeq : Nat),
        s.pwr.inReset = true ∨ s.pwr.dormant = true ∨ s.domain 2 ≠ 2 → m.type = 0 → m.term < 2 ^ 28 → m.seq < 2 ^ 16 →
      ∃ t, exec (.ringHeartbeat m code rk claim epoch ckptSeq) s = .next t ∧ t.wire = s.wire ++ [.bypass (1 - m.port.val) m]
        ∧ Only [.wire] s t)
    ∧ (∀ path : Fin 2, let own := if path = 1 then Reg.RED_STAT.ring_ok else Reg.RED_STAT.line_ok
        let other := if path = 1 then Reg.RED_STAT.line_ok else Reg.RED_STAT.ring_ok
        let losses := if path = 1 then Reg.RED_HB_LOST.ring_losses else Reg.RED_HB_LOST.line_losses
        (s.flag own 0 = true → s.flag other 0 = true →
          ∃ t, exec (.hbPathLost path) s = .next t ∧ t.rd own 0 = 0 ∧ t.rd losses 0 = min (s.rd losses 0 + 1) 65535
            ∧ Reports s t 0x601 0 path ∧ t.red = rest ∧ Only (.red :: eventParts) s t
            ∧ RegsBut ([(own, 0), (losses, 0), (Reg.RED_REVERT_STAT.healthy_s, 0)] ++ eventRegs) s t)
        ∧ (s.flag own 0 = false → exec (.hbPathLost path) s = .next s))
    ∧ (∀ (port : Fin 2) (at_ : Fin 8), let up := if port = 0 then Reg.RED_RING_STAT.east_up else Reg.RED_RING_STAT.west_up
        let losses := if port = 0 then Reg.RED_RING_ERR_E.lock_losses else Reg.RED_RING_ERR_W.lock_losses
        s.flag up 0 = true →
          ∃ t, exec (.ringPort port false at_) s = .next t ∧ t.rd up 0 = 0 ∧ t.rd losses 0 = min (s.rd losses 0 + 1) 65535
            ∧ Reports s t 0x60C 0 port ∧ t.red = rest ∧ Only (.red :: eventParts) s t
            ∧ RegsBut ([(up, 0), (losses, 0), (Reg.RED_REVERT_STAT.healthy_s, 0)] ++ eventRegs) s t)
    ∧ (∀ (port : Fin 2) (at_ : Fin 8), let up := if port = 0 then Reg.RED_RING_STAT.east_up else Reg.RED_RING_STAT.west_up
        let seen := if port = 0 then Reg.RED_RING_STAT.east_addr else Reg.RED_RING_STAT.west_addr
        let bypassed := if port = 0 then Reg.RED_RING_STAT.east_bypassed else Reg.RED_RING_STAT.west_bypassed
        ∃ t, exec (.ringPort port true at_) s = .next t ∧ t.flag up 0 = true ∧ t.rd seen 0 = at_ ∧ Only eventParts s t
          ∧ RegsBut ([(up, 0), (seen, 0), (bypassed, 0)] ++ eventRegs) s t)

/-- The messages of a handover (R388 to R392), each accepted by R396. A request makes the ACTIVE unit outgoing, READY is kept for GRANT,
GRANT with a seam ahead is kept, ABORT before S(h - 1) ends the handover with event 0x60B, and a gapless mirror run joins the image, or
waits for it. RED_CMD_HANDOVER and RED_CMD_ABORT send the request and the ABORT; where they do not apply they are refused with status 2. A
message for the ACTIVE role that reaches another unit is stale: counted, with event 0x608. Where the manual is silent it rests on the
model's own choices in notes/assumptions/12.md, 71.md, 72.md. -/
def Obligations.HandoverMessages : Prop :=
  ∀ (s : State) (m : RingMsg), Sound s →
    let none_ : Red := { s.red with hand := .none, h := none, ready := false, mirroring := false, image := none, buffer := [],
                                    termSeen := false, arrived := [], healthyAt := none }
    let out : Red := { s.red with hand := .outgoing, h := none, ready := false, mirroring := false, runOut := 0, termSeen := false, due := true }
    let term : List (Field × Nat) := [(Reg.RED_TERM_SEEN.term, 0)]
    let ended : List (Field × Nat) := [(Reg.RED_STAT.handover, 0), (Reg.RED_MIRROR_STAT.active, 0), (Reg.RED_REVERT_STAT.last_abort, 0),
      (Reg.RED_REVERT_STAT.healthy_s, 0)] ++ eventRegs
    let quiet (t : State) : Prop := t.rd Reg.RED_STAT.handover 0 = 0 ∧ t.rd Reg.RED_MIRROR_STAT.active 0 = 0
      ∧ t.rd Reg.RED_REVERT_STAT.healthy_s 0 = 0
    let sent (words : List Nat) : Wire :=
      let ps := s.ringSof 5 0 false :: words
      .ring (ps ++ [eofPayload ps])
    let counted := (s.red.msgSeq + 1) % 2 ^ 16
    (RingOk m 5 [[1 * 2 ^ 60]] s → s.paired = true → s.red.hand = .none → s.role = 3 →
      ∃ t, exec (.handoverRequest m) s = .next t ∧ t.red = { out with seen := seenAfter s m } ∧ t.rd Reg.RED_STAT.handover 0 = 1
        ∧ Heard s m t ∧ Only [.wire, .regs, .red] s t ∧ RegsBut ((Reg.RED_STAT.handover, 0) :: term) s t)
    ∧ (RingOk m 5 [[2 * 2 ^ 60]] s → s.red.hand = .outgoing →
      ∃ t, exec (.handoverReady m) s = .next t ∧ t.red = { s.red with seen := seenAfter s m, ready := true } ∧ Heard s m t
        ∧ Only [.wire, .regs, .red] s t ∧ RegsBut term s t)
    ∧ (∀ h, RingOk m 5 [[3 * 2 ^ 60, h]] s → s.red.hand = .incoming → s.role = 4 → s.epo.k + 1 < h →
      ∃ t, exec (.handoverGrant m h) s = .next t ∧ t.red = { s.red with seen := seenAfter s m, h := some h }
        ∧ t.rd Reg.RED_HANDOVER_LO.h_lo 0 = h % 2 ^ 32 ∧ t.rd Reg.RED_HANDOVER_HI.h_hi 0 = h / 2 ^ 32 % 2 ^ 32 ∧ Heard s m t
        ∧ Only [.wire, .regs, .red] s t ∧ RegsBut ([(Reg.RED_HANDOVER_LO.h_lo, 0), (Reg.RED_HANDOVER_HI.h_hi, 0)] ++ term) s t)
    ∧ (∀ reason : Fin 16, RingOk m 5 [[4 * 2 ^ 60 + reason.val * 2 ^ 56]] s → s.red.hand = .outgoing →
        (∀ h, s.red.h = some h → s.epo.k + 1 < h) →
      ∃ t, exec (.handoverAbort m reason) s = .next t ∧ t.red = { none_ with seen := seenAfter s m } ∧ quiet t
        ∧ t.rd Reg.RED_REVERT_STAT.last_abort 0 = 5 ∧ Reports s t 0x60B 0 5 ∧ Heard s m t ∧ Only (.red :: eventParts) s t
        ∧ RegsBut (ended ++ term) s t)
    ∧ (∀ ws, RingOk m 4 [Config.mirrorWords s.red.runIn ws] s → s.red.hand = .incoming → s.role ≠ 3 → s.red.image = none →
      ∃ t, exec (.mirrorRun m s.red.runIn ws) s = .next t ∧ Heard s m t
        ∧ t.red = { s.red with seen := seenAfter s m, runIn := (s.red.runIn + 1) % 2 ^ 16, buffer := s.red.buffer ++ ws }
        ∧ Only [.wire, .regs, .red] s t ∧ RegsBut term s t)
    ∧ (∀ ws i, RingOk m 4 [Config.mirrorWords s.red.runIn ws] s → s.red.hand = .incoming → s.role ≠ 3 → s.red.image = some i →
        s.red.ready = true → (∀ n v, .head n v ∈ ws → n < 2 ∨ 4 < n) →
      ∃ t, exec (.mirrorRun m s.red.runIn ws) s = .next t ∧ Heard s m t
        ∧ t.red = { s.red with seen := seenAfter s m, runIn := (s.red.runIn + 1) % 2 ^ 16, image := some (ws.foldl CritImage.apply i) }
        ∧ Only [.wire, .regs, .red] s t ∧ RegsBut term s t)
    ∧ (HostUp s → s.role = 3 → s.paired = true → s.red.hand = .none →
      ∃ t, exec .redCmdHandover s = .next t ∧ t.red = { out with msgSeq := counted } ∧ t.wire = s.wire ++ [sent [1 * 2 ^ 60]]
        ∧ t.rd Reg.RED_STAT.handover 0 = 1 ∧ t.rd Reg.RED_STAT.cmd_status 0 = 1 ∧ Only [.wire, .regs, .red] s t
        ∧ RegsBut [(Reg.RED_STAT.handover, 0), (Reg.RED_STAT.cmd_status, 0)] s t)
    ∧ (HostUp s → s.red.hand = .outgoing → (∀ h, s.red.h = some h → s.epo.k + 1 < h) →
      ∃ t, exec .redCmdAbort s = .next t ∧ t.red = { none_ with msgSeq := counted }
        ∧ (s.wire ++ [sent [4 * 2 ^ 60 + 4 * 2 ^ 56]]) <+: t.wire ∧ quiet t ∧ t.rd Reg.RED_REVERT_STAT.last_abort 0 = 4
        ∧ t.rd Reg.RED_STAT.cmd_status 0 = 1 ∧ Reports s t 0x60B 0 4 ∧ Only (.red :: eventParts) s t
        ∧ RegsBut ((Reg.RED_STAT.cmd_status, 0) :: ended) s t)
    ∧ (∀ c, HostUp s → (c = .redCmdHandover ∧ (s.role ≠ 3 ∨ s.paired = false ∨ s.red.hand ≠ .none))
          ∨ (c = .redCmdAbort ∧ (s.red.hand = .none ∨ ∃ h, s.red.h = some h ∧ h ≤ s.epo.k + 1)) →
      ∃ t, exec c s = .next t ∧ t.rd Reg.RED_STAT.cmd_status 0 = 2 ∧ Only [.regs] s t ∧ RegsBut [(Reg.RED_STAT.cmd_status, 0)] s t)
    ∧ (m.type = 5 → m.term < 2 ^ 28 → m.seq < 2 ^ 16 → m.eofs = msgSealed m [[1 * 2 ^ 60]] → s.ringBypassed = false →
        m.src.val ≠ s.rd Reg.RED_RING_CFG.address 0 → m.broadcast = true ∨ m.dst.val = s.rd Reg.RED_RING_CFG.address 0 →
        s.red.seen.contains (m.src.val, m.seq) = false → m.role = 1 → s.role ≠ 3 →
      ∃ t, exec (.handoverRequest m) s = .next t ∧ t.red = { s.red with seen := seenAfter s m } ∧ Reports s t 0x608 0 (5 + 16 * 1)
        ∧ t.rd Reg.RED_STALE_MSG.count 0 = min (s.rd Reg.RED_STALE_MSG.count 0 + 1) (2 ^ 32 - 1) ∧ t.rd Reg.RED_FLAGS.stale 0 = 1
        ∧ Only (.red :: eventParts) s t ∧ RegsBut ([(Reg.RED_STALE_MSG.count, 0), (Reg.RED_FLAGS.stale, 0)] ++ term ++ eventRegs) s t)

/-- Transfers to the standby (R378 to R380). The first segment of a checkpoint makes the slot that is not the newest invalid, the further
ones are gathered, and the last one makes the slot valid if the CRC matches and the digest is the unit's own; a CRC that does not match
leaves it invalid with event 0x606. SLOW_BENCH and BIND_SEGMENT store what they carry. SLOW_CHECKPOINT_SEND sends the next bench in eight
messages, CHECKPOINT_SENT ends a transmission. TAKEOVER_WAKE_DONE begins the restore and times the wake. Where the manual is silent it rests
on the model's own choices in notes/assumptions/12.md, 73.md, 106.md, 122.md. -/
def Obligations.CheckpointTransfers : Prop :=
  ∀ (s : State) (m : RingMsg), Sound s →
    let term : List (Field × Nat) := [(Reg.RED_TERM_SEEN.term, 0)]
    let slots : List (Field × Nat) := [(Reg.RED_CKPT_STAT.slot0_valid, 0), (Reg.RED_CKPT_STAT.slot1_valid, 0), (Reg.RED_SLOT0_SEQ.seq, 0),
      (Reg.RED_SLOT1_SEQ.seq, 0), (Reg.RED_SLOT0_EPOCH_LO.epoch_lo, 0), (Reg.RED_SLOT0_EPOCH_HI.epoch_hi, 0),
      (Reg.RED_SLOT1_EPOCH_LO.epoch_lo, 0), (Reg.RED_SLOT1_EPOCH_HI.epoch_hi, 0), (Reg.RED_CKPT_STAT.newest, 0), (Reg.RED_STAT.image_ok, 0)]
    let parts (x : CkptRx) (n : Fin 16) (bytes : List (BitVec 8)) : List (Nat × List (BitVec 8)) :=
      (n.val, bytes) :: x.parts.filter (fun p => p.1 != n.val)
    let joined (ps : List (Nat × List (BitVec 8))) : List (BitVec 8) :=
      ((List.range 16).map (fun n => (((ps.find? (fun p => p.1 == n)).map (·.2)).getD []))).flatten
    (∀ x (n : Fin 16) bytes crc image, RingOk m 1 [ckptFrame x.seq n bytes] s → s.paired = true → (s.role = 1 ∨ s.role = 4 ∨ s.role = 6) → s.red.rx = some x →
        (parts x n bytes).length < 16 →
      ∃ t, exec (.ckptSegment m x.seq n bytes crc image) s = .next t ∧ Heard s m t
        ∧ t.red = { s.red with seen := seenAfter s m, rx := some { x with parts := parts x n bytes } } ∧ Only [.wire, .regs, .red] s t
        ∧ RegsBut term s t)
    ∧ (∀ seq (n : Fin 16) bytes crc image, RingOk m 1 [ckptFrame seq n bytes] s → s.paired = true → (s.role = 1 ∨ s.role = 4 ∨ s.role = 6) → s.red.rx = none →
        let k := match s.newestSlot with
          | some n => 1 - n
          | none => 0
      ∃ t, exec (.ckptSegment m seq n bytes crc image) s = .next t ∧ Heard s m t ∧ t.red.rx = some ⟨k, seq, [(n.val, bytes)]⟩
        ∧ t.slot k = { s.slot k with valid := false, bad := false } ∧ t.slot (1 - k) = s.slot (1 - k) ∧ t.rd Reg.RED_CKPT_STAT.rx_busy 0 = 1
        ∧ t.red.seen = seenAfter s m ∧ t.red.bind = s.red.bind ∧ t.red.slow = s.red.slow ∧ Only [.wire, .regs, .red] s t
        ∧ RegsBut ((Reg.RED_CKPT_STAT.rx_busy, 0) :: slots ++ term) s t)
    ∧ (∀ x (n : Fin 16) bytes (crc : BitVec 64) image, RingOk m 1 [ckptFrame x.seq n bytes] s → s.paired = true → s.role = 1 → s.red.rx = some x → x.slot < 2 →
        (parts x n bytes).length = 16 →
        (crc64 (joined (parts x n bytes)) = crc.toNat → s.ownDigest image.digest = true →
          ∃ t, exec (.ckptSegment m x.seq n bytes crc image) s = .next t ∧ t.slot x.slot = ⟨true, x.seq, image, crc.toNat, false⟩
            ∧ t.slot (1 - x.slot) = s.slot (1 - x.slot) ∧ t.red.rx = none ∧ t.rd Reg.RED_CKPT_STAT.rx_busy 0 = 0
            ∧ t.rd Reg.RED_STAT.image_ok 0 = 1 ∧ t.rd Reg.RED_PEER_DIGEST.digest 0 = image.digest % 2 ^ 32
            ∧ t.rd Reg.RED_CKPT_CNT.complete 0 = min (s.rd Reg.RED_CKPT_CNT.complete 0 + 1) 65535 ∧ t.evq = s.evq
            ∧ Only [.wire, .regs, .red] s t
            ∧ RegsBut ([(Reg.RED_CKPT_STAT.rx_busy, 0), (Reg.RED_PEER_DIGEST.digest, 0), (Reg.RED_CKPT_CNT.complete, 0)] ++ slots ++ term) s t)
        ∧ (crc64 (joined (parts x n bytes)) ≠ crc.toNat →
          ∃ t, exec (.ckptSegment m x.seq n bytes crc image) s = .next t ∧ t.red = { s.red with seen := seenAfter s m, rx := none }
            ∧ t.rd Reg.RED_CKPT_STAT.last_err 0 = 1 ∧ t.rd Reg.RED_CKPT_CNT.invalid 0 = min (s.rd Reg.RED_CKPT_CNT.invalid 0 + 1) 65535
            ∧ Reports s t 0x606 0 (x.slot + 2 * 1) ∧ Only (.red :: eventParts) s t
            ∧ RegsBut ([(Reg.RED_CKPT_STAT.rx_busy, 0), (Reg.RED_CKPT_STAT.last_err, 0), (Reg.RED_CKPT_CNT.invalid, 0)] ++ term
                ++ eventRegs) s t))
    ∧ (∀ (bench : Fin 80) sweep (words : List Pt), RingOk m 2 (slowFrames bench sweep words) s →
        let p := if bench.val / 4 < 17 then 22 + bench.val / 4 else 60 + (bench.val / 4 - 17)
        let c := bench.val % 4 * 4096
        let n := if sweep = s.red.sweep then min (s.rd Reg.RED_SLOW_STAT.benches 0 + 1) 80 else 1
      ∃ t, exec (.slowBench m bench sweep words) s = .next t ∧ Heard s m t
        ∧ t.red = { s.red with
            seen := seenAfter s m, sweep := sweep
            slow := (List.range 4096).foldl (fun x i => tabSet Pt.clear x (extPos (c + i) p)
              ⟨(words.getD i Pt.clear).v % 2 ^ 64, (words.getD i Pt.clear).bad⟩) s.red.slow }
        ∧ t.rd Reg.RED_SLOW_STAT.benches 0 = n
        ∧ t.rd Reg.RED_SLOW_STAT.sweeps 0
            = (if n = 80 then min (s.rd Reg.RED_SLOW_STAT.sweeps 0 + 1) 65535 else s.rd Reg.RED_SLOW_STAT.sweeps 0)
        ∧ Only [.wire, .regs, .red] s t ∧ RegsBut ([(Reg.RED_SLOW_STAT.benches, 0), (Reg.RED_SLOW_STAT.sweeps, 0)] ++ term) s t)
    ∧ (∀ rec_ : BindRecord, RingOk m 3 [Config.bindWords rec_] s →
      ∃ t, exec (.bindSegment m rec_) s = .next t ∧ Heard s m t ∧ t.red = { s.red with seen := seenAfter s m, bind := t.red.bind }
        ∧ rec_.cells <+: t.red.bind.cells ∧ rec_.lanes <+: t.red.bind.lanes
        ∧ (∀ x, x ∈ s.red.bind.cells → (∀ y ∈ rec_.cells, y.1 ≠ x.1) → x ∈ t.red.bind.cells)
        ∧ (∀ x, x ∈ s.red.bind.lanes → (∀ y ∈ rec_.lanes, y.1 ≠ x.1) → x ∈ t.red.bind.lanes)
        ∧ Only [.wire, .regs, .red] s t ∧ RegsBut term s t)
    ∧ (s.role = 3 → s.paired = true → s.flag Reg.RED_CTRL.slow_en 0 = true →
      ∃ t, exec (.slowCheckpointSend []) s = .next t ∧ s.wire <+: t.wire ∧ t.wire.length = s.wire.length + 8
        ∧ t.red = { s.red with
            msgSeq := (s.red.msgSeq + 8) % 2 ^ 16, slowNext := (s.red.slowNext + 1) % 80
            sweep := if s.red.slowNext = 79 then (s.red.sweep + 1) % 2 ^ 16 else s.red.sweep }
        ∧ Only [.wire, .red] s t)
    ∧ (∀ errs, s.role = 3 → s.paired = true → s.flag Reg.RED_CTRL.slow_en 0 = true →
      ∃ t, exec (.slowCheckpointSend errs) s = .next t ∧ s.wire <+: t.wire ∧ s.wire.length + 8 ≤ t.wire.length
        ∧ t.red.slowNext = (s.red.slowNext + 1) % 80)
    ∧ (∀ errs, s.role ≠ 3 ∨ s.paired = false ∨ s.flag Reg.RED_CTRL.slow_en 0 = false → exec (.slowCheckpointSend errs) s = .next s)
    ∧ (s.red.tx ≠ none →
      ∃ t, exec .checkpointSent s = .next t ∧ t.red = { s.red with tx := none } ∧ t.rd Reg.RED_CKPT_STAT.tx_busy 0 = 0
        ∧ t.rd Reg.RED_CKPT_CNT.complete 0 = min (s.rd Reg.RED_CKPT_CNT.complete 0 + 1) 65535 ∧ Only [.regs, .red] s t
        ∧ RegsBut [(Reg.RED_CKPT_STAT.tx_busy, 0), (Reg.RED_CKPT_CNT.complete, 0)] s t)
    ∧ (s.red.tx = none → exec .checkpointSent s = .next s)
    ∧ (s.role = 2 → s.red.restoreDone = false → s.red.restoring = 0 →
      ∃ t, exec .takeoverWakeDone s = .next t ∧ t.red.restoring = max s.cycle 1
        ∧ t.rd Reg.RED_WAKE_TIME.wake 0 = min ((s.cycle - s.red.declared) / 4) 65535 ∧ t.rd Reg.RED_STAT.role 0 = 2
        ∧ Only ([.pts, .fab, .ord, .red, .pwr] ++ eventParts) s t)

/-- Changes of role (R371, R372, R383 to R388). LISTEN ends in STANDBY when an ACTIVE partner was heard, in ACTIVE with a claim one above
the highest term seen when none was and this unit may start cold, else in NO_IMAGE. A STANDBY with a valid image whose partner has failed on
both paths takes over; RED_CMD_STANDBY ends DEMOTED, RED_CMD_ACTIVATE takes over from NO_IMAGE, and in another role both are refused with
status 2. A restored image leaves the unit TAKING_OVER with a claim one above the highest term seen; with no usable slot and no permit it is
NO_IMAGE. REVERT_REQUESTED sends the request and RECEIVING begins once the standby has been healthy for the holdoff; before, it does
nothing. Every change of role is kept with the epoch in which it came (R398). Where the manual is silent it rests on the model's own choices
in notes/assumptions/2.md, 65.md, 75.md, 99.md. -/
def Obligations.RoleChanges : Prop :=
  ∀ s : State, Sound s →
    let most : List Part := [.free, .epo, .pts, .dr, .conds, .arms, .cells, .drv, .fab, .ord, .adc, .red, .pwr, .arb] ++ eventParts
    let becomes (t : State) (r : Nat) : Prop := t.rd Reg.RED_STAT.role 0 = r ∧ t.red.roleEpoch = s.epo.k ∧ Only most s t
    let hears : Prop := s.flag Reg.RED_STAT.line_ok 0 = true ∨ s.flag Reg.RED_STAT.ring_ok 0 = true ∨ s.rd Reg.RED_STAT.partner_code 0 ≠ 3
    let begun (t : State) (cold : Bool) : Prop := t.red.declared = s.cycle ∧ t.red.restoring = 0 ∧ t.red.restored = none
      ∧ t.red.restoreDone = false ∧ t.red.cold = cold
    let alone : Prop := s.role = 0 ∧ s.running = true ∧ s.paired = true ∧ s.red.heard.contains 3 = false
      ∧ (s.red.heard.contains 0 = false ∨ s.rank = 2)
    let permitted : Prop := s.rank = 2 ∨ s.flag Reg.RED_CTRL.cold_start_permit 0 = true
    (s.role = 0 → s.running = true → s.paired = true → s.red.heard.contains 3 = true → hears →
      ∃ t, exec .listenEnd s = .next t ∧ becomes t 1)
    ∧ (alone → ¬ permitted → ∃ t, exec .listenEnd s = .next t ∧ becomes t 6 ∧ t.rd Reg.RED_FLAGS.no_image 0 = 1)
    ∧ (alone → permitted → s.rd Reg.RED_TERM_SEEN.term 0 ≠ 0xFFFFFFF →
      ∃ t, exec .listenEnd s = .next t ∧ t.rd Reg.RED_STAT.role 0 = 3
        ∧ t.rd Reg.RED_CLAIM.claim 0 = s.rank * 2 ^ 28 + (s.rd Reg.RED_TERM_SEEN.term 0 + 1)
        ∧ t.rd Reg.RED_TERM_SEEN.term 0 = s.rd Reg.RED_TERM_SEEN.term 0 + 1)
    ∧ (s.role ≠ 0 ∨ s.running = false ∨ s.paired = false → exec .listenEnd s = .next s)
    ∧ (∀ path : Fin 2, s.role = 1 → s.rd Reg.RED_STAT.partner_code 0 = 3 → s.newestSlot ≠ none →
        s.flag (if path = 1 then Reg.RED_STAT.ring_ok else Reg.RED_STAT.line_ok) 0 = true →
        s.flag (if path = 1 then Reg.RED_STAT.line_ok else Reg.RED_STAT.ring_ok) 0 = false →
      ∃ t, exec (.hbPathLost path) s = .next t ∧ becomes t 2 ∧ begun t false)
    ∧ (HostUp s → s.role = 5 → hears →
      ∃ t, exec .redCmdStandby s = .next t ∧ becomes t 1 ∧ t.rd Reg.RED_STAT.cmd_status 0 = 1 ∧ t.red.demoteNow = false
        ∧ (tabGet Cond.clear t.conds 241).level = false)
    ∧ (HostUp s → s.role = 6 →
      ∃ t, exec .redCmdActivate s = .next t ∧ becomes t 2 ∧ t.rd Reg.RED_STAT.cmd_status 0 = 1 ∧ begun t true)
    ∧ (∀ c, HostUp s → (c = .redCmdStandby ∧ s.role ≠ 5) ∨ (c = .redCmdActivate ∧ s.role ≠ 6) →
      ∃ t, exec c s = .next t ∧ t.rd Reg.RED_STAT.cmd_status 0 = 2 ∧ Only [.regs] s t ∧ RegsBut [(Reg.RED_STAT.cmd_status, 0)] s t)
    ∧ (s.role = 2 → s.red.restoreDone = false → s.red.restoring ≠ 0 → s.red.cold = false →
        (∀ n, s.newestSlot = some n → (s.slot n).valid = true → (s.slot n).bad = false → s.rd Reg.RED_TERM_SEEN.term 0 ≠ 0xFFFFFFF →
            (∀ x ∈ (s.slot n).image.regs, ∀ f ∈ [Reg.RED_TERM_SEEN.term, Reg.RED_STAT.role, Reg.RED_STAT.strap], x.1 ≠ regKey f 0) →
          ∃ t, exec (.takeoverRestoreDone []) s = .next t ∧ t.rd Reg.RED_STAT.role 0 = 2 ∧ t.red.restoreDone = true
            ∧ t.red.restored = some (s.slot n).image ∧ t.red.txSeq = (s.slot n).image.seq
            ∧ t.rd Reg.RED_CLAIM.claim 0 = s.rank * 2 ^ 28 + (s.rd Reg.RED_TERM_SEEN.term 0 + 1)
            ∧ t.rd Reg.RED_TERM_SEEN.term 0 = s.rd Reg.RED_TERM_SEEN.term 0 + 1
            ∧ Only ([.clk, .epo, .pts, .cells, .lanes, .fab, .red] ++ eventParts) s t)
        ∧ (∀ n, s.newestSlot = some n → n < 2 → (s.slot n).bad = true → (s.slot (1 - n)).valid = false →
            s.flag Reg.RED_CTRL.cold_start_permit 0 = false →
          ∃ t, exec (.takeoverRestoreDone []) s = .next t ∧ becomes t 6 ∧ t.rd Reg.RED_FLAGS.no_image 0 = 1 ∧ (t.slot n).valid = false
            ∧ t.rd Reg.RED_CKPT_STAT.last_err 0 = 4))
    ∧ (∀ errs, s.role ≠ 2 ∨ s.red.restoreDone = true ∨ s.red.restoring = 0 → exec (.takeoverRestoreDone errs) s = .next s)
    ∧ (s.role = 1 → s.paired = true → s.rank = 2 → s.flag Reg.RED_CTRL.revert_en 0 = true → s.healthyNow = true →
        (∃ since, s.red.healthyAt = some since ∧ s.rd Reg.RED_REVERT_CFG.holdoff 0 * 12800000000 ≤ (s.now + 2 ^ 64 - since) % 2 ^ 64) →
      ∃ t, exec .revertRequested s = .next t ∧ becomes t 4 ∧ t.red.hand = .incoming ∧ t.red.asked = s.epo.k
        ∧ t.rd Reg.RED_STAT.handover 0 = 1
        ∧ (let ps := [s.ringSof 5 0 false, 1 * 2 ^ 60]; (s.wire ++ [.ring (ps ++ [eofPayload ps])]) <+: t.wire))
    ∧ (s.red.healthyAt = none → exec .revertRequested s = .next s)


/-! ### The safety domain (R401 to R428) -/

/-- Requests on stop targets (R416 to R419, R428). A controlled stop takes each FREE target of the mask to STOPPING, a safe block takes each
FREE or STOPPING one to BLOCKED; a BLOCKED target stays, and no other target changes. Both close the unlock and answer status 1. A stop that
times out, or whose monitored value lies above l x lambda(t) + tol, is BLOCKED; below, the envelope does nothing. RELEASE without unlock is
refused with status 2, of a target that is not BLOCKED with status 4; a BLOCKED target without demand, expiry hold or failed channel becomes
FREE. The key 0x5AFE opens the unlock. Where the manual is silent it rests on the model's own choices in notes/assumptions/59.md, 60.md. -/
def Obligations.StopTargets : Prop :=
  ∀ s : State, Sound s →
    let declared (n : Nat) : Prop := ∃ x e, s.bs.safety = some x ∧ x.targets.find? (fun e => e.target == n) = some e
    let asked (mask n : Nat) : Prop := n < 16 ∧ mask / 2 ^ n % 2 = 1
    let acts : List Part := [.pts, .arms, .cells, .lanes, .units, .red, .saf] ++ eventParts
    let kept (t : State) (p : Nat → Prop) : Prop := ∀ n, n < 16 → ¬ p n → t.target n = s.target n
    let answers (t : State) (status refused : Nat) : Prop := t.rd Reg.SAF_CMD_STAT.status 0 = status
      ∧ t.rd Reg.SAF_CMD_STAT.refused 0 = refused % 2 ^ 16 ∧ t.saf.unlock = none
    let reply : List (Field × Nat) := [(Reg.SAF_CMD_STAT.status, 0), (Reg.SAF_CMD_STAT.refused, 0)] ++ eventRegs
    let stop (n : Nat) : Prop := s.target n = 2 ∧ declared n
    (∀ mask, HostUp s →
      ∃ t, exec (.safCmdStop mask) s = .next t ∧ answers t 1 0
        ∧ (∀ n, asked mask n → declared n → s.target n = 1 → t.target n = 2 ∧ (n, s.now, 3) ∈ t.saf.stopAt)
        ∧ kept t (fun n => asked mask n ∧ s.target n = 1) ∧ Only acts s t)
    ∧ (∀ mask, HostUp s →
      ∃ t, exec (.safCmdBlock mask) s = .next t ∧ answers t 1 0
        ∧ (∀ n, asked mask n → declared n → s.target n = 1 ∨ s.target n = 2 → t.target n = 3)
        ∧ kept t (fun n => asked mask n ∧ (s.target n = 1 ∨ s.target n = 2)) ∧ Only acts s t)
    ∧ (∀ n : Fin 16, stop n →
      ∃ t, exec (.stopTimeout n) s = .next t ∧ t.target n = 3 ∧ kept t (fun m => m = n.val) ∧ (∀ x ∈ t.saf.stopAt, x.1 ≠ n.val)
        ∧ Only acts s t)
    ∧ (∀ n : Fin 16, s.target n ≠ 2 → ∃ t, exec (.stopTimeout n) s = .next t ∧ Only mirrorParts s t)
    ∧ (∀ (n : Fin 16) x e m c since src, s.bs.safety = some x → x.targets.find? (fun e => e.target == n.val) = some e → e.mon = some m →
        x.pchs.find? (fun c => c.chan == m && c.func != 0) = some c → s.target n = 2 → e.target = n.val →
        s.saf.stopAt.find? (fun y => y.1 == n.val) = some (n.val, since, src) →
        let ramp := max (e.ramp * 12800000) 1
        let left := ramp - min ((s.now + 2 ^ 64 - since) % 2 ^ 64) ramp
        let above := fVal f32 c.limit * left < (((fVal f32 (s.rd Reg.SAF_PCH_VAL.x c.chan)).natAbs : Int) - fVal f32 c.tol) * ramp
        (above → ∃ t, exec (.envelopeViolation n) s = .next t ∧ t.target n = 3 ∧ kept t (fun m => m = n.val) ∧ Only acts s t)
        ∧ (¬ above → ∃ t, exec (.envelopeViolation n) s = .next t ∧ Only mirrorParts s t))
    ∧ (∀ mask, HostUp s → s.saf.unlock = none →
      ∃ t, exec (.safCmdRelease mask) s = .next t ∧ answers t 2 mask ∧ t.saf = s.saf ∧ Reports s t 0x70B 0 (2 + 2 ^ 16 * (mask % 2 ^ 16))
        ∧ Only (eventParts ++ mirrorParts) s t ∧ RegsBut reply s t)
    ∧ (∀ (n : Fin 16), HostUp s → s.saf.unlock ≠ none → s.target n ≠ 3 →
      ∃ t, exec (.safCmdRelease (2 ^ n.val)) s = .next t ∧ answers t 4 (2 ^ n.val) ∧ t.saf = { s.saf with unlock := none }
        ∧ Reports s t 0x70B 0 (4 + 2 ^ 16 * 2 ^ n.val) ∧ Only (.saf :: eventParts ++ mirrorParts) s t ∧ RegsBut reply s t)
    ∧ (∀ (n : Fin 16) x, HostUp s → s.saf.unlock ≠ none → s.bs.safety = some x → s.target n = 3 → s.targetDemand n = false →
        s.saf.expiryHold / 2 ^ n.val % 2 = 0 →
        (∀ e ∈ x.pairs, e.mode ≠ 0 → e.targets / 2 ^ n.val % 2 = 1 →
          (s.pair e.pair).demands = false ∧ (s.pair e.pair).a.fail = false ∧ (s.pair e.pair).b.fail = false) →
      ∃ t, exec (.safCmdRelease (2 ^ n.val)) s = .next t ∧ answers t 1 0 ∧ t.target n = 1 ∧ kept t (fun m => m = n.val)
        ∧ t.saf.expiryHold = s.saf.expiryHold ∧ Only acts s t)
    ∧ (∀ key, HostUp s → key % 65536 = 0x5AFE →
      ∃ t, exec (.safUnlock key) s = .next t ∧ t.saf = { s.saf with unlock := some s.now } ∧ Only [.saf] s t)
    ∧ (∀ key, key % 65536 ≠ 0x5AFE → exec (.safUnlock key) s = .next s)
    ∧ (∃ t, exec .unlockExpired s = .next t ∧ t.saf = { s.saf with unlock := none } ∧ Only [.saf] s t)

/-- Input pairs and privileged channels (R409 to R415). A trusted channel at its demand level makes its pair demand; without demand on both
channels, neither failed, the demand ends. Channels that differ for t_disc set the discrepancy with event 0x702. A channel that fails its
test is not trusted any more and starts degraded mode. A broken limit is a violation; two readings apart, or one stale, are a discrepancy
and degraded mode with cause 2. Where the manual is silent it rests on the model's own choices in notes/assumptions/57.md, 58.md. -/
def Obligations.SafetyInputs : Prop :=
  ∀ (s : State) (x : Machine.Safety), Sound s → s.bs.safety = some x →
    let acts : List Part := [.pts, .arms, .cells, .lanes, .units, .red, .saf] ++ eventParts
    let other (t : State) (p : Nat) : Prop := ∀ n, n ≠ p → t.pair n = s.pair n
    let degraded (t : State) (cause : Nat) : Prop := s.rd Reg.SAF_STAT.state 0 = 0 →
      t.rd Reg.SAF_STAT.state 0 = 1 ∧ t.rd Reg.SAF_DEG_STAT.cause 0 = cause ∧ t.rd Reg.SAF_DEG_STAT.remaining 0 = x.degWindow % 2 ^ 10
        ∧ t.saf.degAt = s.now
    let window : List (Field × Nat) := [(Reg.SAF_STAT.state, 0), (Reg.SAF_DEG_STAT.cause, 0), (Reg.SAF_DEG_STAT.remaining, 0)]
    let pairRegs (p : Nat) : List (Field × Nat) := [(Reg.SAF_DEMAND.pair, 0), (Reg.SAF_PAIR_STAT.demand, p), (Reg.SAF_PAIR_STAT.single, p),
      (Reg.SAF_PAIR_STAT.test_fail, p), (Reg.SAF_PAIR_STAT.ch_a, p), (Reg.SAF_PAIR_STAT.ch_b, p)]
    (∀ (p : Fin 8) (c : Fin 2) e, x.pairs.find? (fun e => e.pair == p.val && e.mode != 0) = some e → let r := s.pair p
      (r.chan c).fail = false → s.bitAt Reg.SAF_DEMAND.pair 0 p = false →
        ∃ t, exec (.pairDemand p c) s = .next t ∧ t.bitAt Reg.SAF_DEMAND.pair 0 p = true ∧ t.rd Reg.SAF_PAIR_STAT.demand p = 1
          ∧ t.rd Reg.SAF_PAIR_STAT.demanded p = 1 ∧ t.rd Reg.SAF_CNT.demands 0 = min (s.rd Reg.SAF_CNT.demands 0 + 1) 65535
          ∧ t.pair p = r.setChan c { r.chan c with demand := true } ∧ other t p ∧ t.saf.pchs = s.saf.pchs
          ∧ (∀ n, n < 16 → e.targets / 2 ^ n % 2 = 0 → t.target n = s.target n) ∧ Only acts s t)
    ∧ (∀ (p : Fin 8) e, x.pairs.find? (fun e => e.pair == p.val && e.mode != 0) = some e → let r := s.pair p
        e.pair = p.val → (r.a.fail = false ∨ r.b.fail = false) →
      ∃ t, exec (.pairDemandEnd p) s = .next t ∧ t.bitAt Reg.SAF_DEMAND.pair 0 p = false ∧ t.rd Reg.SAF_PAIR_STAT.demand p = 0
        ∧ t.pair p = { r with a := { r.a with demand := false }, b := { r.b with demand := false }, disc := false } ∧ other t p
        ∧ t.saf.pchs = s.saf.pchs ∧ t.saf.unlock = s.saf.unlock ∧ Only [.regs, .saf] s t ∧ RegsBut (pairRegs p) s t)
    ∧ (∀ (p : Fin 8) (a b : Bool) e, x.pairs.find? (fun e => e.pair == p.val && e.mode != 0) = some e → e.mode ≠ 3 →
      ∃ t, exec (.pairDiscrepancy p a b) s = .next t ∧ t.pair p = { s.pair p with disc := true } ∧ t.rd Reg.SAF_PAIR_STAT.disc p = 1
        ∧ t.bitAt Reg.SAF_FAULT.pair_disc 0 p = true ∧ Reports s t 0x702 p (bit a + 2 * bit b) ∧ other t p
        ∧ Only (.saf :: eventParts ++ mirrorParts) s t
        ∧ RegsBut ([(Reg.SAF_PAIR_STAT.disc, p.val), (Reg.SAF_FAULT.pair_disc, 0)] ++ eventRegs) s t)
    ∧ (∀ (p : Fin 8) (c : Fin 2) e n, x.pairs.find? (fun e => e.pair == p.val && e.mode != 0) = some e → e.pair = p.val →
        (if c.val = 0 then some e.stpA else if e.mode = 2 then none else some e.stpB) = some n → let r := s.pair p
        (r.chan (1 - c.val)).fail = false → (r.chan (1 - c.val)).demand = false →
      ∃ t, exec (.testFailed p c) s = .next t ∧ t.pair p = r.setChan c { r.chan c with fail := true, passed := 0 } ∧ other t p
        ∧ t.bitAt Reg.SAF_FAULT.test_fail 0 p = true ∧ t.rd Reg.SAF_CNT.tests_failed 0 = min (s.rd Reg.SAF_CNT.tests_failed 0 + 1) 65535
        ∧ t.rd Reg.SAF_PAIR_STAT.single p = 1 ∧ t.bitAt Reg.SAF_DEMAND.pair 0 p = false ∧ degraded t 1
        ∧ (s.rd Reg.SAF_STAT.state 0 ≠ 0 → Reports s t 0x701 p (c + 16 * n)) ∧ Only (.saf :: eventParts ++ mirrorParts) s t
        ∧ RegsBut ([(Reg.SAF_FAULT.test_fail, 0), (Reg.SAF_CNT.tests_failed, 0)] ++ window ++ pairRegs p ++ eventRegs) s t)
    ∧ (∀ (n : Fin 4) e, x.pchs.find? (fun e => e.chan == n.val && e.func != 0) = some e → e.chan = n.val →
        s.flag Reg.SAF_PCH_STAT.violation n = false → s.pchExceeds e (s.rd Reg.SAF_PCH_VAL.x n) = true →
      ∃ t, exec (.limitViolation n) s = .next t ∧ t.rd Reg.SAF_PCH_STAT.violation n = 1 ∧ t.bitAt Reg.SAF_DEMAND.pch 0 n = true
        ∧ t.rd Reg.SAF_PCH_STAT.violations n = min (s.rd Reg.SAF_PCH_STAT.violations n + 1) (2 ^ Reg.SAF_PCH_STAT.violations.width - 1)
        ∧ t.saf.pairs = s.saf.pairs ∧ t.saf.pchs = s.saf.pchs
        ∧ (∀ m, m < 16 → e.targets / 2 ^ m % 2 = 0 → t.target m = s.target m) ∧ Only acts s t)
    ∧ (∀ (n : Fin 4) e, x.pchs.find? (fun e => e.chan == n.val && e.func != 0) = some e → s.pchExceeds e (s.rd Reg.SAF_PCH_VAL.x n) = false →
      ∃ t, exec (.limitViolation n) s = .next t ∧ Only mirrorParts s t)
    ∧ (∀ (n : Fin 4) (sa sb : Bool) e, x.pchs.find? (fun e => e.chan == n.val && e.func != 0) = some e → e.chan = n.val →
        let r := { s.pch n with staleA := (s.pch n).staleA || sa, staleB := (s.pch n).staleB || sb }
        (e.apart r = true ∨ r.staleA = true ∨ r.staleB = true) → (r.staleA = false ∨ r.staleB = false) →
      ∃ t, exec (.measDiscrepancy n sa sb) s = .next t ∧ t.pch n = { r with disc := e.apart r } ∧ t.rd Reg.SAF_PCH_STAT.disc n = 1
        ∧ t.rd Reg.SAF_PCH_STAT.stale_a n = bit r.staleA ∧ t.rd Reg.SAF_PCH_STAT.stale_b n = bit r.staleB
        ∧ t.bitAt Reg.SAF_FAULT.meas_disc 0 n = true ∧ degraded t 2
        ∧ (s.rd Reg.SAF_STAT.state 0 ≠ 0 → Reports s t 0x705 n (bit r.staleA + 2 * bit r.staleB + 4 * bit (e.apart r)))
        ∧ (∀ m, m ≠ n.val → t.pch m = s.pch m) ∧ t.saf.pairs = s.saf.pairs ∧ Only (.saf :: eventParts ++ mirrorParts) s t
        ∧ RegsBut ([(Reg.SAF_PCH_STAT.disc, n.val), (Reg.SAF_PCH_STAT.stale_a, n.val), (Reg.SAF_PCH_STAT.stale_b, n.val),
            (Reg.SAF_PCH_VAL.x, n.val), (Reg.SAF_FAULT.meas_disc, 0)] ++ window ++ eventRegs) s t)

/-- Self-supervision (R402, R403, R411, R422 to R425, R428). Test pulses leave on their pins; a readback that disagrees sets the STP fault
with event 0x703. An output that is on is pulsed low, A before B. A pin that disagrees, and a channel that fails its self-check, start
degraded mode. Two clock windows out of range, both channels failed, or the end of the window are expiry, which without an action is only
reported. CLEAR ends degraded mode while no cause remains; an internal discrepancy is one until a self-check passes on both channels and
they agree. Where the manual is silent it rests on the model's own choices in notes/assumptions/57.md, 58.md. -/
def Obligations.SafetySupervision : Prop :=
  ∀ (s : State) (x : Machine.Safety), Sound s → s.bs.safety = some x →
    let state := s.rd Reg.SAF_STAT.state 0
    let degraded (t : State) (cause : Nat) : Prop := state = 0 → t.rd Reg.SAF_STAT.state 0 = 1 ∧ t.rd Reg.SAF_DEG_STAT.cause 0 = cause
      ∧ t.rd Reg.SAF_DEG_STAT.remaining 0 = x.degWindow % 2 ^ 10 ∧ t.saf.degAt = s.now
    let window : List (Field × Nat) := [(Reg.SAF_STAT.state, 0), (Reg.SAF_DEG_STAT.cause, 0), (Reg.SAF_DEG_STAT.remaining, 0)]
    let acts : List Part := [.pts, .arms, .cells, .lanes, .units, .red, .saf] ++ eventParts
    let answers (t : State) (status refused : Nat) : Prop := t.rd Reg.SAF_CMD_STAT.status 0 = status
      ∧ t.rd Reg.SAF_CMD_STAT.refused 0 = refused % 2 ^ 16 ∧ t.saf.unlock = none
    let reply : List (Field × Nat) := [(Reg.SAF_CMD_STAT.status, 0), (Reg.SAF_CMD_STAT.refused, 0)]
    (∀ n : Fin 4,
      ∃ t, exec (.testPulse n true) s = .next t ∧ (s.wire ++ [.stp n false, .stp n true]) <+: t.wire ∧ n.val ∉ t.saf.stpBad
        ∧ t.saf.pulses = (n.val, s.cycle) :: s.saf.pulses.filter (fun y => y.1 != n.val)
        ∧ (∀ p, (t.pair p).a.fail = (s.pair p).a.fail ∧ (t.pair p).b.fail = (s.pair p).b.fail ∧ (t.pair p).a.demand = (s.pair p).a.demand
            ∧ (t.pair p).b.demand = (s.pair p).b.demand ∧ (s.pair p).a.passed ≤ (t.pair p).a.passed)
        ∧ (∀ e, x.pairs = [e] → e.mode ≠ 0 → e.stpA = n.val → (t.pair e.pair).a.passed = (s.pair e.pair).a.passed + 1)
        ∧ t.saf.pchs = s.saf.pchs ∧ Only (.saf :: mirrorParts) s t)
    ∧ (∀ n : Fin 4, s.fedBy n = [] →
      ∃ t, exec (.testPulse n false) s = .next t ∧ t.saf = { s.saf with
            stpBad := n.val :: s.saf.stpBad.filter (· != n.val), pulses := (n.val, s.cycle) :: s.saf.pulses.filter (fun y => y.1 != n.val) }
        ∧ t.bitAt Reg.SAF_STP_STAT.fault 0 n = true ∧ Reports s t 0x703 n 0 ∧ Only (.saf :: eventParts ++ mirrorParts) s t
        ∧ RegsBut ((Reg.SAF_STP_STAT.fault, 0) :: eventRegs) s t)
    ∧ (HostUp s →
      ∃ t, exec .safCmdTestNow s = .next t ∧ answers t 1 0 ∧ t.saf.pchs = s.saf.pchs
        ∧ t.wire = s.wire ++ [.stp 0 false, .stp 0 true, .stp 1 false, .stp 1 true, .stp 2 false, .stp 2 true, .stp 3 false, .stp 3 true]
        ∧ Only [.wire, .regs, .saf] s t ∧ RegsBut reply s t)
    ∧ (∀ n : Fin 4, s.bitAt Reg.SAF_SOUT_STAT.on 0 n = true →
      ∃ t, exec (.soutTest n true) s = .next t ∧ t.saf = { s.saf with soutBad := s.saf.soutBad.filter (· != n.val) }
        ∧ t.wire = s.wire ++ [.sout n false true, .sout n true true, .sout n true false, .sout n true true] ∧ Only [.wire, .saf] s t)
    ∧ (∀ (n : Fin 4) agrees, s.bitAt Reg.SAF_SOUT_STAT.on 0 n = false → exec (.soutTest n agrees) s = .next s)
    ∧ (∀ (n : Fin 4) (c : Fin 2),
      ∃ t, exec (.soutReadback n c) s = .next t ∧ t.bitAt Reg.SAF_SOUT_STAT.readback 0 n = true ∧ t.rd Reg.SAF_FAULT.readback 0 = 1
        ∧ t.saf.soutBad = n.val :: s.saf.soutBad.filter (· != n.val) ∧ degraded t 3 ∧ (state ≠ 0 → Reports s t 0x707 n c)
        ∧ t.saf.pairs = s.saf.pairs ∧ t.saf.pchs = s.saf.pchs ∧ Only (.saf :: eventParts) s t
        ∧ RegsBut ([(Reg.SAF_SOUT_STAT.readback, 0), (Reg.SAF_FAULT.readback, 0)] ++ window ++ eventRegs) s t)
    ∧ (state = 1 → x.expiry = 0 →
      ∃ t, exec .expired s = .next t ∧ t.rd Reg.SAF_STAT.state 0 = 2 ∧ t.rd Reg.SAF_DEG_STAT.remaining 0 = 0 ∧ Reports s t 0x709 0 0
        ∧ t.saf = s.saf ∧ Only (eventParts ++ mirrorParts) s t ∧ RegsBut (window ++ eventRegs) s t)
    ∧ (state = 1 → x.expiry = 1 ∨ x.expiry = 2 ∨ x.expiry = 3 → (∀ e ∈ x.targets, e.target < 16) →
      ∃ t, exec .expired s = .next t ∧ t.rd Reg.SAF_STAT.state 0 = 2 ∧ t.saf.outputsOff = decide (x.expiry = 3)
        ∧ (∀ e ∈ x.targets, s.target e.target = 1 → t.target e.target = if x.expiry = 1 then 2 else 3) ∧ Only acts s t)
    ∧ (state ≠ 1 → ∃ t, exec .expired s = .next t ∧ Only mirrorParts s t)
    ∧ (∀ count, 3700 ≤ count → count ≤ 4300 →
      ∃ t, exec (.safClockWindow count) s = .next t ∧ t.rd Reg.SAF_CLK_MON.count 0 = count ∧ t.rd Reg.SAF_STAT.clk_ok 0 = 1
        ∧ t.saf = { s.saf with clkBad := 0 } ∧ Only ([.regs, .saf] ++ mirrorParts) s t
        ∧ RegsBut [(Reg.SAF_CLK_MON.count, 0), (Reg.SAF_STAT.clk_ok, 0)] s t)
    ∧ (∀ count, count < 3700 ∨ 4300 < count → s.saf.clkBad = 1 → state ≠ 2 → x.expiry = 0 →
      ∃ t, exec (.safClockWindow count) s = .next t ∧ t.rd Reg.SAF_STAT.clk_ok 0 = 0 ∧ t.rd Reg.SAF_FAULT.clock 0 = 1
        ∧ t.rd Reg.SAF_STAT.state 0 = 2 ∧ t.saf = { s.saf with clkBad := 2 } ∧ Only (.saf :: eventParts ++ mirrorParts) s t
        ∧ RegsBut ([(Reg.SAF_CLK_MON.count, 0), (Reg.SAF_STAT.clk_ok, 0), (Reg.SAF_FAULT.clock, 0)] ++ window ++ eventRegs) s t)
    ∧ (∃ t, exec (.selfCheck true true true) s = .next t ∧ t.rd Reg.SAF_STAT.chan_a_ok 0 = 1 ∧ t.rd Reg.SAF_STAT.chan_b_ok 0 = 1
        ∧ t.saf = { s.saf with internal := false } ∧ Only ([.regs, .saf] ++ mirrorParts) s t
        ∧ RegsBut [(Reg.SAF_STAT.chan_a_ok, 0), (Reg.SAF_STAT.chan_b_ok, 0)] s t)
    ∧ (∀ a b agree, (a && b && agree) = false → (a || b) = true →
      ∃ t, exec (.selfCheck a b agree) s = .next t ∧ t.rd Reg.SAF_FAULT.internal 0 = 1 ∧ t.rd Reg.SAF_STAT.chan_a_ok 0 = bit a
        ∧ t.rd Reg.SAF_STAT.chan_b_ok 0 = bit b ∧ t.saf.internal = true ∧ degraded t 4 ∧ Only (.saf :: eventParts ++ mirrorParts) s t
        ∧ RegsBut ([(Reg.SAF_STAT.chan_a_ok, 0), (Reg.SAF_STAT.chan_b_ok, 0), (Reg.SAF_FAULT.internal, 0)] ++ window ++ eventRegs) s t)
    ∧ (∀ mask, HostUp s → s.saf.unlock ≠ none → s.causeRemains = false →
      ∃ t, exec (.safCmdClear mask) s = .next t ∧ answers t 1 0 ∧ (state ≠ 4 → t.rd Reg.SAF_STAT.state 0 = 0)
        ∧ t.rd Reg.SAF_DEG_STAT.remaining 0 = 0 ∧ t.rd Reg.SAF_DEG_STAT.cause 0 = 0
        ∧ t.saf = { s.saf with unlock := none, expiryHold := 0, outputsOff := false } ∧ t.evq = s.evq ∧ Only [.wire, .regs, .saf] s t
        ∧ RegsBut ((Reg.SAF_SOUT_STAT.on, 0) :: reply ++ window) s t)
    ∧ (∀ mask, HostUp s → s.saf.unlock ≠ none → s.causeRemains = true →
      ∃ t, exec (.safCmdClear mask) s = .next t ∧ answers t 5 mask ∧ Reports s t 0x70B 0 (5 + 2 ^ 16 * (mask % 2 ^ 16))
        ∧ t.saf = { s.saf with unlock := none } ∧ Only (.saf :: eventParts) s t ∧ RegsBut (reply ++ eventRegs) s t)


/-! ### The bit-stream and its flash (R429 to R446) -/

/-- Loads, verifies and live replacement (R437 to R442). LOAD is refused with its reason while an arm runs, else it starts when nothing else
is in progress; a failed check of the only image to try records the error with event 0x801 and a running bit-stream goes on; a passed one
starts the checked contents. The images to try are those that stand when the command is given. VERIFY checks without starting. A package is
staged, checked for the sections that its directory lists, armed for a target at least two and at most 2^24 epochs ahead, which it keeps,
cancelled until one epoch before it, and discarded; each refusal raises event 0x804 with its reason. Where the manual is silent it rests on
the model's own choices in notes/assumptions/12.md, 76.md, 77.md, 78.md, 79.md, 81.md, 82.md, 122.md, 129.md. -/
def Obligations.LoadsAndPackages : Prop :=
  ∀ (s : State) (a b : BitStream) (parts : List LrPart), Sound s →
    let lr := s.rd Reg.CFG_LR_STAT.state 0
    let target := s.rd Reg.CFG_LR_TGT_LO.target_lo 0 + 2 ^ 32 * s.rd Reg.CFG_LR_TGT_HI.target_hi 0
    let k := s.epo.k
    let armed := (s.cfg.staged.map (·.target)).getD 0
    let answer : List (Field × Nat) := [(Reg.CFG_STAT.cmd_status, 0), (Reg.CFG_STAT.reason, 0)]
    let boot : List (Field × Nat) := [(Reg.CFG_BOOT_A.base, 0), (Reg.CFG_BOOT_B.base, 0), (Reg.CFG_BOOT_GEN.gen_a, 0), (Reg.CFG_BOOT_GEN.gen_b, 0)]
    let error : List (Field × Nat) := [(Reg.CFG_ERR_CODE.code, 0), (Reg.CFG_ERR_CODE.type, 0), (Reg.CFG_ERR_CODE.inst, 0),
      (Reg.CFG_ERR_CODE.failures, 0), (Reg.CFG_ERR_ITEM.item, 0), (Reg.CFG_ERR_RES.resource, 0), (Reg.CFG_ERR_RES.kind, 0),
      (Reg.CFG_ERR_HOLD.first, 0), (Reg.CFG_ERR_HOLD.second, 0), (Reg.CFG_ERR_OFFSET.offset, 0)]
    let accepted (t : State) : Prop := t.rd Reg.CFG_STAT.cmd_status 0 = 1 ∧ t.rd Reg.CFG_STAT.reason 0 = 0
    let refused (t : State) (reason : Nat) : Prop := t.rd Reg.CFG_STAT.cmd_status 0 = 2 ∧ t.rd Reg.CFG_STAT.reason 0 = reason
    let refuses (c : Instr) (reason : Nat) : Prop := ∃ t, exec c s = .next t ∧ refused t reason ∧ Reports s t 0x804 0 reason
      ∧ t.cfg = s.cfg ∧ Only eventParts s t ∧ RegsBut (answer ++ eventRegs) s t
    let recorded (t : State) (e : LoadError) : Prop := t.rd Reg.CFG_ERR_CODE.code 0 = e.code % 2 ^ 8
      ∧ t.rd Reg.CFG_ERR_CODE.type 0 = e.type % 2 ^ 8 ∧ t.rd Reg.CFG_ERR_CODE.inst 0 = e.inst % 2 ^ 8
      ∧ t.rd Reg.CFG_ERR_ITEM.item 0 = e.item % 2 ^ 32 ∧ t.rd Reg.CFG_ERR_CODE.failures 0 = min (s.rd Reg.CFG_ERR_CODE.failures 0 + 1) 255
    let data (e : LoadError) (verify : Nat) : Nat := e.code + 2 ^ 8 * (e.type % 2 ^ 16) + 2 ^ 24 * (e.inst % 2 ^ 16) + 2 ^ 63 * verify
    (HostUp s → s.armsRunning = true →
      ∃ t, exec .load s = .next t ∧ refused t 1 ∧ Only [.regs] s t ∧ RegsBut answer s t)
    ∧ (HostUp s → s.armsRunning = false → (∀ x, s.loadOrder.head? = some x → s.safetyHeld x.2 = false) → s.cfgBusy = false → lr ≠ 3 →
      ∃ t, exec .load s = .next t ∧ accepted t ∧ t.rd Reg.CFG_STAT.state 0 = 1 ∧ t.cfg = { s.cfg with loading := true, order := s.loadOrder }
        ∧ Only [.regs, .cfg] s t ∧ RegsBut ((Reg.CFG_STAT.state, 0) :: answer ++ boot) s t)
    ∧ (∀ i base e, s.cfg.loading = true → s.running = true → s.cfg.order = [(i, base)] →
        s.streamError base (if i = 0 then a else b) = some e →
      ∃ t, exec (.loadComplete a b) s = .next t ∧ t.bs = s.bs ∧ t.cfg = { s.cfg with loading := false, order := [] } ∧ t.rd Reg.CFG_STAT.state 0 = 3
        ∧ recorded t e ∧ Reports s t 0x801 0 (data e 0) ∧ Only ([.free, .cfg] ++ eventParts) s t
        ∧ RegsBut ([(Reg.CFG_STAT.state, 0), (Reg.CFG_STAT.fallback, 0)] ++ error ++ eventRegs) s t)
    ∧ (∀ i base, s.cfg.loading = true → s.cfg.order = [(i, base)] → s.streamError base (if i = 0 then a else b) = none →
        s.safetyHeld base = false →
      ∃ t, exec (.loadComplete a b) s = .next t ∧ t.bs = s.contents base (if i = 0 then a else b) ∧ t.cfg.loading = false
        ∧ t.cfg.staged = none ∧ t.cfg.extent = (base, s.flashWord (base + 8) 4) ∧ t.cfg.flash = s.cfg.flash ∧ t.cfg.keys = s.cfg.keys
        ∧ t.rd Reg.CFG_STAT.state 0 = 3 ∧ t.rd Reg.CFG_STAT.image 0 = i % 2 ∧ t.rd Reg.CFG_STAT.fallback 0 = 0)
    ∧ (s.cfg.loading = false → exec (.loadComplete a b) s = .next s)
    ∧ (HostUp s → s.cfgBusy = false →
      ∃ t, exec .verify s = .next t ∧ accepted t ∧ t.cfg = { s.cfg with verifying := true, order := s.loadOrder } ∧ Only [.regs, .cfg] s t
        ∧ RegsBut (answer ++ boot) s t)
    ∧ (HostUp s → s.cfgBusy = true → ∃ t, exec .verify s = .next t ∧ refused t 3 ∧ Only [.regs] s t ∧ RegsBut answer s t)
    ∧ (∀ i base, s.cfg.verifying = true → s.cfg.order.head? = some (i, base) →
        (∀ e, s.streamError base (if i = 0 then a else b) = some e →
          ∃ t, exec (.verifyComplete a b) s = .next t ∧ t.cfg = { s.cfg with verifying := false, order := [] } ∧ recorded t e
            ∧ Reports s t 0x801 0 (data e 1) ∧ Only ([.free, .cfg] ++ eventParts) s t ∧ RegsBut (error ++ eventRegs) s t)
        ∧ (s.streamError base (if i = 0 then a else b) = none →
          ∃ t, exec (.verifyComplete a b) s = .next t ∧ t.cfg = { s.cfg with verifying := false, order := [] }
            ∧ Reports s t 0x800 0 (compositeDigest (s.fileHashes base) + 2 ^ 32 * i + 2 ^ 63) ∧ Only (.cfg :: eventParts) s t
            ∧ RegsBut eventRegs s t))
    ∧ (s.cfg.verifying = false → exec (.verifyComplete a b) s = .next s)
    ∧ (HostUp s → s.cfgBusy = false → lr ≠ 2 → lr ≠ 3 →
      ∃ t, exec .lrStage s = .next t ∧ accepted t ∧ t.rd Reg.CFG_LR_STAT.state 0 = 1 ∧ t.rd Reg.CFG_LR_STAT.code 0 = 0
        ∧ t.cfg = { s.cfg with staged := some ⟨[], s.rd Reg.CFG_LR_ADDR.addr 0, 0, [], 0, false⟩ } ∧ Only [.regs, .cfg] s t
        ∧ RegsBut ([(Reg.CFG_LR_STAT.state, 0), (Reg.CFG_LR_STAT.code, 0)] ++ answer) s t)
    ∧ (HostUp s → s.cfgBusy = true ∨ lr = 2 ∨ lr = 3 → refuses .lrStage 3)
    ∧ (∀ p, s.cfg.staged = some p → lr = 1 → let listed := s.packageParts p.base parts
        (∀ e, s.packageError p.base listed = some e →
          ∃ t, exec (.lrStageComplete parts) s = .next t ∧ t.rd Reg.CFG_LR_STAT.state 0 = 5 ∧ t.rd Reg.CFG_LR_STAT.code 0 = e.code % 2 ^ 8
            ∧ recorded t e ∧ Reports s t 0x804 0 e.code ∧ t.cfg = s.cfg ∧ Only (.free :: eventParts) s t
            ∧ RegsBut ([(Reg.CFG_LR_STAT.state, 0), (Reg.CFG_LR_STAT.code, 0)] ++ error ++ eventRegs) s t)
        ∧ (s.packageError p.base listed = none →
          ∃ t, exec (.lrStageComplete parts) s = .next t ∧ t.rd Reg.CFG_LR_STAT.state 0 = 2
            ∧ t.rd Reg.CFG_LR_STAT.sections 0 = s.flashWord (p.base + 12) 2 % 2 ^ 8
            ∧ t.cfg = { s.cfg with staged := some ⟨listed, p.base, s.flashWord (p.base + 8) 4, s.fileHashes p.base, 0, p.bad⟩ }
            ∧ Reports s t 0x803 0 (s.flashWord (p.base + 16) 4) ∧ Only (.cfg :: eventParts) s t
            ∧ RegsBut ([(Reg.CFG_LR_STAT.state, 0), (Reg.CFG_LR_STAT.sections, 0)] ++ eventRegs) s t))
    ∧ (HostUp s → lr = 2 → k + 2 ≤ target → target ≤ k + 2 ^ 24 → s.flag Reg.RED_STAT.handover 0 = false →
      ∃ t, exec .lrArm s = .next t ∧ accepted t ∧ t.rd Reg.CFG_LR_STAT.state 0 = 3
        ∧ t.cfg = { s.cfg with staged := s.cfg.staged.map (fun p => { p with target := target }) } ∧ Only [.regs, .cfg] s t
        ∧ RegsBut ((Reg.CFG_LR_STAT.state, 0) :: answer) s t)
    ∧ (HostUp s → (lr ≠ 2 → refuses .lrArm 8) ∧ (lr = 2 → target < k + 2 → refuses .lrArm 5)
        ∧ (lr = 2 → k + 2 ^ 24 < target → refuses .lrArm 6)
        ∧ (lr = 2 → k + 2 ≤ target → target ≤ k + 2 ^ 24 → s.flag Reg.RED_STAT.handover 0 = true → refuses .lrArm 7))
    ∧ (HostUp s → lr = 3 → k + 1 < armed →
      ∃ t, exec .lrCancel s = .next t ∧ accepted t ∧ t.rd Reg.CFG_LR_STAT.state 0 = 2 ∧ Reports s t 0x806 0 0 ∧ Only eventParts s t
        ∧ RegsBut ((Reg.CFG_LR_STAT.state, 0) :: answer ++ eventRegs) s t)
    ∧ (HostUp s → (lr ≠ 3 → refuses .lrCancel 8) ∧ (lr = 3 → armed ≤ k + 1 → refuses .lrCancel 5))
    ∧ (HostUp s → lr = 2 ∨ lr = 5 →
      ∃ t, exec .lrDiscard s = .next t ∧ accepted t ∧ t.rd Reg.CFG_LR_STAT.state 0 = 0 ∧ t.cfg = { s.cfg with staged := none }
        ∧ Reports s t 0x806 0 1 ∧ Only (.cfg :: eventParts) s t ∧ RegsBut ((Reg.CFG_LR_STAT.state, 0) :: answer ++ eventRegs) s t)
    ∧ (HostUp s → lr ≠ 2 → lr ≠ 5 → refuses .lrDiscard 8)

/-- Key slots and flash (R434, R436, R446). Twelve words are entered, then an unused slot takes their 384-bit hash with event 0x807; a
programmed slot is refused with status 2, too few words with 3. A slot is revoked while another usable one of its use remains, else
refused with 4. A flash command starts at an aligned address; a program or erase in a protected place or under flash_wp is refused with
event 0x808. Its completion changes page buffer or contents, and a failure neither. An access to the page buffer advances the address by
4.
Where the manual is silent it rests on the model's own choices in notes/assumptions/5.md, 6.md, 83.md, 84.md. -/
def Obligations.KeysAndFlash : Prop :=
  ∀ s : State, Sound s →
    let at_ := s.rd Reg.CFG_FLASH_ADDR.addr 0
    let i := at_ % 256 / 4 * 4
    let ctrl : List (Field × Nat) := [(Reg.CFG_KEY_CTRL.slot, 0), (Reg.CFG_KEY_CTRL.status, 0), (Reg.CFG_KEY_CTRL.index, 0)] ++ eventRegs
    let boot : List (Field × Nat) := [(Reg.CFG_BOOT_A.base, 0), (Reg.CFG_BOOT_B.base, 0), (Reg.CFG_BOOT_GEN.gen_a, 0), (Reg.CFG_BOOT_GEN.gen_b, 0)]
    let other (t : State) (n : Nat) : Prop := (∀ m, m ≠ n → t.keySlot m = s.keySlot m) ∧ t.cfg.flash = s.cfg.flash ∧ t.cfg.page = s.cfg.page
    let starts (c : Instr) (code n : Nat) (changes : Bool) : Prop :=
      (HostUp s → s.cfg.op = none → at_ % n = 0 → at_ < Config.flashBytes →
        (changes = true → s.flashInUse at_ n = false ∧ s.flag Reg.CFG_CTRL.flash_wp 0 = false) →
        ∃ t, exec c s = .next t ∧ t.cfg = { s.cfg with op := some ⟨code, at_⟩ } ∧ t.rd Reg.CFG_FLASH_CMD.busy 0 = 1
          ∧ t.rd Reg.CFG_FLASH_CMD.status 0 = 0 ∧ Only [.regs, .cfg] s t
          ∧ RegsBut [(Reg.CFG_FLASH_CMD.busy, 0), (Reg.CFG_FLASH_CMD.status, 0)] s t)
      ∧ (HostUp s → s.cfg.op = none → at_ % n ≠ 0 ∨ Config.flashBytes ≤ at_ →
        ∃ t, exec c s = .next t ∧ t.rd Reg.CFG_FLASH_CMD.status 0 = 4 ∧ Only [.regs] s t ∧ RegsBut [(Reg.CFG_FLASH_CMD.status, 0)] s t)
    let refusedAt (c : Instr) (n : Nat) : Prop :=
      HostUp s → s.cfg.op = none → at_ % n = 0 → at_ < Config.flashBytes →
        s.flashInUse at_ n = true ∨ s.flag Reg.CFG_CTRL.flash_wp 0 = true → let status := if s.flashInUse at_ n then 2 else 3
        ∃ t, exec c s = .next t ∧ t.rd Reg.CFG_FLASH_CMD.status 0 = status ∧ Reports s t 0x808 0 (status + 2 ^ 32 * at_)
          ∧ Only eventParts s t ∧ RegsBut ((Reg.CFG_FLASH_CMD.status, 0) :: eventRegs) s t
    let ended (t : State) (status : Nat) : Prop := t.rd Reg.CFG_FLASH_CMD.busy 0 = 0 ∧ t.rd Reg.CFG_FLASH_CMD.status 0 = status
      ∧ t.cfg.keys = s.cfg.keys ∧ RegsBut ([(Reg.CFG_FLASH_CMD.busy, 0), (Reg.CFG_FLASH_CMD.status, 0)] ++ boot ++ eventRegs) s t
    (∀ v, HostUp s → s.cfg.words.length < 12 →
      ∃ t, exec (.keyDataWrite v) s = .next t ∧ t.cfg = { s.cfg with words := s.cfg.words ++ [v % 2 ^ 32] }
        ∧ t.rd Reg.CFG_KEY_CTRL.index 0 = s.cfg.words.length + 1 ∧ Only [.regs, .cfg] s t ∧ RegsBut [(Reg.CFG_KEY_CTRL.index, 0)] s t)
    ∧ (∀ n : Fin 8, HostUp s → n.val ≤ 5 →
        ((s.keySlot n).hash = none → s.cfg.words.length = 12 →
          ∃ t, exec (.keyProgram n) s = .next t ∧ t.keySlot n = { s.keySlot n with hash := some (wordLE (s.cfg.words.flatMap (bytesLE 4))) }
            ∧ other t n ∧ t.cfg.words = [] ∧ t.rd Reg.CFG_KEY_CTRL.status 0 = 1 ∧ t.rd Reg.CFG_KEY_CTRL.index 0 = 0 ∧ Reports s t 0x807 0 n
            ∧ Only (.cfg :: eventParts) s t ∧ RegsBut ctrl s t)
        ∧ (∀ h, (s.keySlot n).hash = some h →
          ∃ t, exec (.keyProgram n) s = .next t ∧ t.rd Reg.CFG_KEY_CTRL.status 0 = 2 ∧ Only [.regs] s t ∧ RegsBut ctrl s t)
        ∧ ((s.keySlot n).hash = none → s.cfg.words.length < 12 →
          ∃ t, exec (.keyProgram n) s = .next t ∧ t.rd Reg.CFG_KEY_CTRL.status 0 = 3 ∧ Only [.regs] s t ∧ RegsBut ctrl s t)
        ∧ (∀ m h, m ≠ n.val → (if n.val < 4 then m < 4 else m = 4 ∨ m = 5) → s.keySlot m = ⟨some h, false⟩ → (s.keySlot n).revoked = false →
          ∃ t, exec (.keyRevoke n) s = .next t ∧ t.keySlot n = { s.keySlot n with revoked := true } ∧ other t n
            ∧ t.rd Reg.CFG_KEY_CTRL.status 0 = 1 ∧ Reports s t 0x807 0 (n.val + 8) ∧ Only (.cfg :: eventParts) s t ∧ RegsBut ctrl s t)
        ∧ ((∀ m h, m ≠ n.val → (if n.val < 4 then m < 4 else m = 4 ∨ m = 5) → s.keySlot m ≠ ⟨some h, false⟩) →
          ∃ t, exec (.keyRevoke n) s = .next t ∧ t.rd Reg.CFG_KEY_CTRL.status 0 = 4 ∧ Only [.regs] s t ∧ RegsBut ctrl s t))
    ∧ (∀ n : Fin 8, HostUp s → 5 < n.val → ∀ c, c = .keyProgram n ∨ c = .keyRevoke n →
      ∃ t, exec c s = .next t ∧ Reports s t 0x013 0 0x2050 ∧ t.cfg = s.cfg ∧ Only eventParts s t
        ∧ RegsBut ((Reg.EPO_WR_REJECT_CNT.count, 0) :: eventRegs) s t)
    ∧ starts .flashReadPage 1 256 false ∧ starts .flashProgramPage 2 256 true ∧ refusedAt .flashProgramPage 256
    ∧ starts .flashEraseSector 3 4096 true ∧ refusedAt .flashEraseSector 4096
    ∧ (∀ o, s.cfg.op = some o →
        (o.cmd = 1 → ∃ t, exec (.flashCommandDone true) s = .next t ∧ ended t 1 ∧ t.cfg.op = none ∧ t.cfg.flash = s.cfg.flash
          ∧ t.cfg.page = tabSetList 0 s.cfg.page 0 (tabGetList 0xFF s.cfg.flash o.addr 256) ∧ Only [.regs, .cfg] s t)
        ∧ (o.cmd = 2 → ∃ t, exec (.flashCommandDone true) s = .next t ∧ ended t 1 ∧ t.cfg.op = none ∧ t.cfg.page = s.cfg.page
          ∧ t.cfg.flash = tabSetList 0xFF s.cfg.flash o.addr (tabGetList 0 s.cfg.page 0 256) ∧ Only [.regs, .cfg] s t)
        ∧ (o.cmd = 3 → ∃ t, exec (.flashCommandDone true) s = .next t ∧ ended t 1 ∧ t.cfg.op = none ∧ t.cfg.page = s.cfg.page
          ∧ t.cfg.flash = tabDrop (fun a => decide (o.addr ≤ a) && decide (a < o.addr + 4096)) s.cfg.flash ∧ Only [.regs, .cfg] s t)
        ∧ (∃ t, exec (.flashCommandDone false) s = .next t ∧ ended t 5 ∧ t.cfg = { s.cfg with op := none }
          ∧ Reports s t 0x809 0 (2 ^ 32 * o.addr) ∧ Only (.cfg :: eventParts) s t))
    ∧ (s.cfg.op = none → ∀ ok, exec (.flashCommandDone ok) s = .next s)
    ∧ (∀ req v, HostUp s →
      ∃ t, exec (.flashDataAccess true req v) s = .next t
        ∧ t.cfg = { s.cfg with page := tabSetList 0 s.cfg.page i ((bytesLE 4 v).map (·.toNat)) }
        ∧ t.rd Reg.CFG_FLASH_ADDR.addr 0 = (at_ + 4) % 2 ^ 32 ∧ Only [.regs, .cfg] s t ∧ RegsBut [(Reg.CFG_FLASH_ADDR.addr, 0)] s t)
    ∧ (∀ req v, HostUp s →
      ∃ t, exec (.flashDataAccess false req v) s = .next t
        ∧ t.host = { s.host with rdata := some ⟨req, 0x205C, .ok, [wordLE ((tabGetList 0 s.cfg.page i 4).map (BitVec.ofNat 8))]⟩ }
        ∧ t.rd Reg.CFG_FLASH_ADDR.addr 0 = (at_ + 4) % 2 ^ 32 ∧ Only [.regs, .host] s t ∧ RegsBut [(Reg.CFG_FLASH_ADDR.addr, 0)] s t)


/-! ### Power, clocks and reset (R447 to R470) -/

/-- Domains, clocks, temperature and retention. PWR_DOM_REQ (R450): in STANDBY and NO_IMAGE its bits are only kept; in another role a
domain in use is not put into RETAIN, with event 0x901 and the cause. A wake that ends makes its domain ON (R453); one that fails returns
it to its previous state with event 0x902 (R452). PLL_UNLOCK (R455) counts with event 0x903. A temperature sets PWR_TEMP and the refresh
period (R456, R457). RET may be turned off in a single unit only, and its slots and the staged package are lost (R448).
Where the manual is silent it rests on the model's own choices in notes/assumptions/87.md, 88.md, 119.md. -/
def Obligations.DomainsAndRetention : Prop :=
  ∀ s : State, Sound s →
    let doms : List (Field × Nat) := [(Reg.PWR_DOM_REQ.fab_w, 0), (Reg.PWR_DOM_REQ.fab_e, 0), (Reg.PWR_DOM_REQ.lq, 0), (Reg.PWR_DOM_REQ.ana, 0)]
    let kept (t : State) (d : Nat) : Prop := ∀ n, n < 12 → n ≠ d → t.domain n = s.domain n
    let up (f : Field) (i : Nat) : Nat := min (s.rd f i + 1) (2 ^ f.width - 1)
    let temp : List (Field × Nat) := [(Reg.PWR_TEMP.tj, 0), (Reg.PWR_TEMP.max, 0), (Reg.PWR_RET_STAT.period, 0)]
    let shown (t : State) (tj : Nat) : Prop := t.rd Reg.PWR_TEMP.tj 0 = tj % 2 ^ 16
      ∧ t.rd Reg.PWR_RET_STAT.period 0 = refreshPeriod (s.rd Reg.PWR_RET_STAT.period 0) (signedOf 16 tj)
      ∧ (signedOf 16 (s.rd Reg.PWR_TEMP.max 0) < signedOf 16 tj → t.rd Reg.PWR_TEMP.max 0 = tj % 2 ^ 16)
      ∧ (signedOf 16 tj ≤ signedOf 16 (s.rd Reg.PWR_TEMP.max 0) → t.rd Reg.PWR_TEMP.max 0 = s.rd Reg.PWR_TEMP.max 0)
    (∀ v, HostUp s → s.role = 1 ∨ s.role = 6 →
      ∃ t, exec (.domainRequest v) s = .next t ∧ (∀ d, 4 ≤ d → d ≤ 10 → t.domainAsked d = (v / 2 ^ (d - 4) % 2 == 1)) ∧ Only (.regs :: mirrorParts) s t
        ∧ RegsBut doms s t)
    ∧ (∀ v, HostUp s → s.running = true → s.role = 3 → (∀ d, 4 ≤ d → d ≤ 10 → s.domainAsked d = true ∧ (d = 4 ∨ s.domain d = 2 ∨ s.domain d = 3)) →
        v % 2 ^ 7 = 0x7E →
        (∃ a, a < 6 ∧ s.armActs a = true) →
      ∃ t, exec (.domainRequest v) s = .next t ∧ t.rd Reg.PWR_DOM_STAT.refuse 0 = 4 ∧ t.rd Reg.PWR_DOM_CNT.refused 4 = up Reg.PWR_DOM_CNT.refused 4
        ∧ Reports s t 0x901 4 1 ∧ t.domainAsked 4 = true ∧ Only (eventParts ++ mirrorParts) s t
        ∧ RegsBut ([(Reg.PWR_DOM_STAT.refuse, 0), (Reg.PWR_DOM_CNT.refused, 4)] ++ eventRegs) s t)
    ∧ (∀ v, HostUp s → s.running = true → s.role = 3 → (∀ d, 4 ≤ d → d ≤ 9 → s.domainAsked d = true ∧ (s.domain d = 2 ∨ s.domain d = 3)) →
        s.domain 10 = 1 → v % 2 ^ 7 = 0x7F →
      ∃ t, exec (.domainRequest v) s = .next t ∧ t.domainAsked 10 = true ∧ t.domain 10 = 3 ∧ kept t 10
        ∧ (10, s.cycle, 1) ∈ t.pwr.waking ∧ Only (.pwr :: eventParts ++ mirrorParts) s t
        ∧ RegsBut ([(Reg.PWR_DOM_REQ.ana, 0), (Reg.PWR_DOM_STAT.state, 0)] ++ eventRegs) s t)
    ∧ (∀ (d : Fin 12) at_ old, s.domain d = 3 → s.pwr.waking.find? (fun x => x.1 == d.val) = some (d.val, at_, old) →
      ∃ t, exec (.domainWakeDone d) s = .next t ∧ t.domain d = 2 ∧ kept t d ∧ (∀ x ∈ t.pwr.waking, x.1 ≠ d.val)
        ∧ t.rd Reg.PWR_DOM_CNT.on_cnt d = up Reg.PWR_DOM_CNT.on_cnt d ∧ t.rd Reg.PWR_STAT.core_pll 0 = 1
        ∧ Only ([.pts, .fab, .ord, .pwr] ++ eventParts ++ mirrorParts) s t)
    ∧ (∀ d : Fin 12, s.domain d ≠ 3 → ∃ t, exec (.domainWakeDone d) s = .next t ∧ Only mirrorParts s t)
    ∧ (∀ (d : Fin 12) at_ old, s.role ≠ 2 → s.pwr.waking.find? (fun x => x.1 == d.val) = some (d.val, at_, old) → old < 4 → old ≠ 2 →
      ∃ t, exec (.domainFault d) s = .next t ∧ t.domain d = old ∧ kept t d ∧ t.bitAt Reg.PWR_DOM_ERR.fault 0 d = true
        ∧ (s.domain d = old ∨ s.flag Reg.PWR_CTRL.dom_ev 0 = false → Reports s t 0x902 d 2) ∧ (∀ x ∈ t.pwr.waking, x.1 ≠ d.val)
        ∧ Only (.pwr :: eventParts) s t
        ∧ RegsBut ([(Reg.PWR_DOM_STAT.state, 0), (Reg.PWR_DOM_ERR.fault, 0), (Reg.PWR_STAT.mem_sr, 0)] ++ eventRegs) s t)
    ∧ (∀ pll : Fin 26, (if pll.val = 0 then s.flag Reg.PWR_STAT.core_pll 0 = true else s.domain (if pll.val = 1 then 2 else 6 + (pll.val - 2) / 6) = 2) →
      ∃ t, exec (.pllUnlock pll) s = .next t ∧ t.rd Reg.PWR_CLK_STAT.pll_unlock 0 = 1
        ∧ t.rd Reg.PWR_CLK_STAT.unlock_cnt 0 = up Reg.PWR_CLK_STAT.unlock_cnt 0 ∧ Reports s t 0x903 pll s.clk.count ∧ Only eventParts s t
        ∧ RegsBut ([(Reg.PWR_CLK_STAT.pll_unlock, 0), (Reg.PWR_CLK_STAT.unlock_cnt, 0)] ++ eventRegs) s t)
    ∧ (∀ tj, s.flag Reg.PWR_CTRL.temp_ev 0 = true → signedOf 16 (s.rd Reg.PWR_TEMP_LIMIT.high 0) < signedOf 16 tj →
      ∃ t, exec (.tempHigh tj) s = .next t ∧ shown t tj ∧ Reports s t 0x906 0 (tj % 2 ^ 16) ∧ Only eventParts s t ∧ RegsBut (temp ++ eventRegs) s t)
    ∧ (∀ tj, s.flag Reg.PWR_CTRL.temp_ev 0 = true → signedOf 16 tj < signedOf 16 (s.rd Reg.PWR_TEMP_LIMIT.low 0) →
      ∃ t, exec (.tempNormal tj) s = .next t ∧ shown t tj ∧ Reports s t 0x907 0 (tj % 2 ^ 16) ∧ Only eventParts s t ∧ RegsBut (temp ++ eventRegs) s t)
    ∧ (∀ tj c, s.flag Reg.PWR_CTRL.temp_ev 0 = false → c = .tempHigh tj ∨ c = .tempNormal tj →
      ∃ t, exec c s = .next t ∧ shown t tj ∧ Only [.regs] s t ∧ RegsBut temp s t)
    ∧ (∀ tj, s.flag Reg.PWR_RET_CTRL.off 0 = false →
      (∃ t, exec (.retRefresh tj false) s = .next t ∧ shown t tj ∧ t.rd Reg.PWR_REFRESH_CNT.sweeps 0 = up Reg.PWR_REFRESH_CNT.sweeps 0
        ∧ Only [.regs] s t ∧ RegsBut ((Reg.PWR_REFRESH_CNT.sweeps, 0) :: temp) s t)
      ∧ (∃ t, exec (.retRefresh tj true) s = .next t ∧ shown t tj ∧ t.rd Reg.PWR_REFRESH_CNT.sweeps 0 = up Reg.PWR_REFRESH_CNT.sweeps 0
        ∧ t.rd Reg.PWR_RET_STAT.late 0 = 1 ∧ Reports s t 0x90A 0 (s.rd Reg.PWR_RET_STAT.period 0) ∧ Only eventParts s t
        ∧ RegsBut ([(Reg.PWR_REFRESH_CNT.sweeps, 0), (Reg.PWR_RET_STAT.late, 0)] ++ temp ++ eventRegs) s t))
    ∧ (HostUp s → s.rd Reg.RED_STAT.strap 0 = 0 →
      ∃ t, exec (.retOff true) s = .next t ∧ t.rd Reg.PWR_RET_CTRL.off 0 = 1 ∧ t.domain 1 = 0 ∧ kept t 1 ∧ t.slot 0 = Slot.empty
        ∧ t.slot 1 = Slot.empty ∧ t.red.rx = none ∧ t.red.slow = [] ∧ t.red.bind = ⟨[], []⟩ ∧ t.cfg = { s.cfg with staged := none } ∧ Only ([.red, .cfg] ++ eventParts) s t)
    ∧ (∀ off, HostUp s → s.rd Reg.RED_STAT.strap 0 ≠ 0 →
      ∃ t, exec (.retOff off) s = .next t ∧ Reports s t 0x013 0 0x1040 ∧ Only eventParts s t
        ∧ RegsBut ((Reg.EPO_WR_REJECT_CNT.count, 0) :: eventRegs) s t)

/-- Reset and DORMANT (R458 to R467). An assertion holds the unit in reset: every register outside the always-on domain takes its reset
value, images, stores and staging are empty, no bit-stream runs, while the time base, flash and key slots stay; RST_N and brownouts are
counted. The release samples the straps, latches the causes and begins the load. PWR_CMD takes its key only, and DORMANT no unit that acts.
A supply that leaves its range is shown, and VDD_AON resets the unit, which the power-on reset then holds until POWER_ON_RESET. Where the
manual is silent it rests on the model's own choices in notes/assumptions/2.md, 19.md, 85.md, 86.md. -/
def Obligations.ResetAndDormant : Prop :=
  ∀ s : State, Sound s →
    let z := State.reset
    let up (f : Field) : Nat := min (s.rd f 0 + 1) (2 ^ f.width - 1)
    let cleared (t : State) (p : Pwr) : Prop := t.pwr = p ∧ t.epo = z.epo ∧ t.pts = z.pts ∧ t.evq = z.evq ∧ t.bs = z.bs ∧ t.arms = z.arms
      ∧ t.cells = z.cells ∧ t.lanes = z.lanes ∧ t.fab = z.fab ∧ t.ord = z.ord ∧ t.adc = z.adc ∧ t.saf = z.saf ∧ t.drv = z.drv
      ∧ t.cfg = { z.cfg with flash := s.cfg.flash, keys := s.cfg.keys } ∧ t.host = { z.host with mem := t.host.mem }
      ∧ t.serial = s.serial ∧ t.pending = s.pending
      ∧ (∀ f i, i < 8192 → alwaysOnKeys.contains (f.addr * 32 + f.lo) = false → regKey f i ≠ regKey Reg.PWR_DOM_STAT.state 0 →
          regKey f i ≠ regKey Reg.PWR_SUPPLY_STAT.dropped 0 → regKey f i ≠ regKey Reg.RED_STAT.strap 0 → t.rd f i = f.reset)
    let ticks (t : State) : Prop := t.clk = { s.clk with ppsOut := false, ppsMissing := false, ppsAt := none } ∧ t.host.mem = s.host.mem
      ∧ t.red = { z.red with slow := s.red.slow, sweep := s.red.sweep }
    let held (causes : Nat) : Pwr := { z.pwr with hbRank := s.rank, hbTerm := s.rd Reg.RED_CLAIM.claim 0 % 2 ^ 28, causes := causes, assertedAt := s.cycle }
    let begun (t : State) : Prop := t.cfg = { s.cfg with loading := true, order := s.loadOrder } ∧ t.rd Reg.CFG_STAT.state 0 = 1 ∧ t.rd Reg.PWR_BOOT_STAT.step 0 = 4
      ∧ (∀ d, d ∈ [2, 3, 4, 5, 10, 11] → t.domain d = 2) ∧ Only ([.free, .cfg, .pwr] ++ eventParts) s t
    (s.pwr.inReset = false → s.pwr.dormant = false →
      ∃ t, exec .rstNAssert s = .next t ∧ cleared t (held 2) ∧ ticks t ∧ t.rd Reg.PWR_RESET_CNT.rst_n 0 = up Reg.PWR_RESET_CNT.rst_n)
    ∧ (s.pwr.inReset = true → exec .rstNAssert s = .next s)
    ∧ (s.pwr.inReset = false → s.pwr.dormant = false →
      ∃ t, exec .brownout s = .next t ∧ cleared t (held 4) ∧ ticks t ∧ t.rd Reg.PWR_RESET_CNT.brownouts 0 = up Reg.PWR_RESET_CNT.brownouts
        ∧ t.bitAt Reg.PWR_SUPPLY_STAT.in_range 0 0 = false ∧ t.bitAt Reg.PWR_SUPPLY_STAT.dropped 0 0 = true)
    ∧ (HostUp s → ∃ t, exec (.pwrCmdReset 0xA5) s = .next t ∧ cleared t (held 8) ∧ ticks t)
    ∧ (∀ key, HostUp s → key ≠ 0xA5 → ∀ c, c = .pwrCmdReset key ∨ c = .pwrCmdDormant key →
      ∃ t, exec c s = .next t ∧ t.rd Reg.PWR_CMD_STAT.status 0 = 2 ∧ Only [.regs] s t ∧ RegsBut [(Reg.PWR_CMD_STAT.status, 0)] s t)
    ∧ (∃ t, exec .powerOnReset s = .next t ∧ cleared t z.pwr ∧ t.clk = z.clk ∧ t.red = z.red ∧ t.host.mem = s.host.mem
        ∧ t.rd Reg.PWR_SUPPLY_STAT.in_range 0 = 255 ∧ t.rd Reg.PWR_RESET_CNT.rst_n 0 = 0)
    ∧ (∀ n : Fin 8, n ≠ 1 →
      ∃ t, exec (.supplyOutOfRange n) s = .next t ∧ t.bitAt Reg.PWR_SUPPLY_STAT.in_range 0 n = false
        ∧ t.bitAt Reg.PWR_SUPPLY_STAT.dropped 0 n = true ∧ Only [.regs] s t
        ∧ RegsBut [(Reg.PWR_SUPPLY_STAT.in_range, 0), (Reg.PWR_SUPPLY_STAT.dropped, 0)] s t)
    ∧ (∃ t, exec (.supplyOutOfRange 1) s = .next t ∧ cleared t { z.pwr with por := true } ∧ t.clk = z.clk ∧ t.red = z.red ∧ t.host.mem = s.host.mem
        ∧ t.bitAt Reg.PWR_SUPPLY_STAT.in_range 0 1 = false ∧ t.bitAt Reg.PWR_SUPPLY_STAT.dropped 0 1 = true)
    ∧ (s.pwr.inReset = true →
      ∃ t, exec .resetHold200ms s = .next t ∧ t.pwr = { s.pwr with held200 := true } ∧ Only [.pwr] s t)
    ∧ (∀ straps : Fin 4, s.pwr.inReset = true → s.pwr.por = false → straps ≠ 3 →
      ∃ t, exec (.resetReleased straps) s = .next t ∧ begun t ∧ t.rd Reg.RED_STAT.strap 0 = straps ∧ t.rd Reg.PWR_SUPPLY_STAT.in_range 0 = 255
        ∧ t.pwr = { s.pwr with inReset := false, held200 := false, causes := 0, releasedAt := s.cycle }
        ∧ (s.pwr.causes / 2 % 2 = 1 → t.rd Reg.PWR_RESET_CAUSE.rst_n 0 = 1)
        ∧ (s.pwr.causes / 4 % 2 = 1 → t.rd Reg.PWR_RESET_CAUSE.brownout 0 = 1)
        ∧ (s.pwr.causes / 8 % 2 = 1 → t.rd Reg.PWR_RESET_CAUSE.software 0 = 1))
    ∧ (∀ straps, s.pwr.inReset = false ∨ s.pwr.por = true → exec (.resetReleased straps) s = .next s)
    ∧ (HostUp s → s.running = true → s.role ≠ 1 → s.role ≠ 6 →
      ∃ t, exec (.pwrCmdDormant 0xA5) s = .next t ∧ t.rd Reg.PWR_CMD_STAT.status 0 = 3 ∧ Only [.regs] s t
        ∧ RegsBut [(Reg.PWR_CMD_STAT.status, 0)] s t)
    ∧ (HostUp s → s.running = false ∨ s.role = 1 ∨ s.role = 6 →
      ∃ t, exec (.pwrCmdDormant 0xA5) s = .next t
        ∧ cleared t { z.pwr with inReset := false, dormant := true, hbRank := s.rank, hbTerm := s.rd Reg.RED_CLAIM.claim 0 % 2 ^ 28, causes := 0 }
        ∧ t.rd Reg.RED_STAT.strap 0 = s.rd Reg.RED_STAT.strap 0 % 2 ^ Reg.RED_STAT.strap.width
        ∧ t.rd Reg.PWR_WAKE_STAT.dormant_cnt 0 = up Reg.PWR_WAKE_STAT.dormant_cnt
        ∧ t.red = { z.red with slow := s.red.slow, sweep := s.red.sweep, bind := s.red.bind })
    ∧ (∀ w : Fin 3, let on := if w = 0 then Reg.PWR_WAKE_CFG.timer_en else if w = 1 then Reg.PWR_WAKE_CFG.hb_loss else Reg.PWR_WAKE_CFG.hb_state
        (s.pwr.dormant = true → s.flag on 0 = true → s.rd Reg.RED_STAT.strap 0 ≠ 3 →
          ∃ t, exec (.dormantWake w) s = .next t ∧ begun t ∧ t.rd Reg.PWR_WAKE_STAT.source 0 = w.val + 1
            ∧ t.rd Reg.PWR_RESET_CAUSE.dormant_wake 0 = 1 ∧ t.pwr = { s.pwr with dormant := false, releasedAt := s.cycle })
        ∧ (s.pwr.dormant = false ∨ s.flag on 0 = false → exec (.dormantWake w) s = .next s))


/-! ### The host interface and JTAG (R471 to R482, R496, R497) -/

/-- The link, the vectors and the JTAG port. LINK_DOWN (R472) resets the host interface alone, counts its cause and raises event 0x000;
LINK_UP shows speed and width with event 0x001. MASTER_OFF and POWER_STATE (R473) show their state; with requests allowed again no unmasked
vector is still pending. VECTOR0_TIMEOUT (R482), GLB_EVQ_MOD.time after the oldest record, MSIX_UNMASK (R479) and IRQ_TEST (R480) send a
vector that may be sent and leave it pending otherwise. JTAG_INSTRUCTION (R497) shifts out what was captured; a code that drives pins gives
BYPASS while a bit-stream runs. Where the manual is silent it rests on the model's own choices in notes/assumptions/24.md, 132.md. -/
def Obligations.LinkAndVectors : Prop :=
  ∀ s : State, Sound s →
    let up (f : Field) : Nat := min (s.rd f 0 + 1) (2 ^ f.width - 1)
    let pend (t : State) (v : Nat) : Bool := tabGet false t.host.pba v
    let masked (t : State) (v : Nat) : Bool := (tabGet Msix.reset t.host.msix v).masked
    let free : Prop := s.mayRequest = true
    let sent (t : State) (v : Nat) : Prop := (masked s v = false → free → t.wire = s.wire ++ [.msix v])
      ∧ (masked s v = true ∨ ¬ free → t.wire = s.wire ∧ pend t v = true)
    let cleared : List Field := [Reg.GLB_CTRL.acc_ev, Reg.GLB_CTRL.dma_ev, Reg.GLB_EVQ_MOD.count, Reg.GLB_EVQ_MOD.time, Reg.GLB_IRQ_EN0.en,
      Reg.GLB_IRQ_EN1.en, Reg.EPO_CTRL.ev_enable, Reg.EPO_DR_CTRL.dma_start, Reg.EPO_STAT.dr_dma_busy, Reg.GLB_STAT.master_off,
      Reg.GLB_STAT.d3, Reg.GLB_LINK_STAT.dstate]
    let link : List (Field × Nat) := [(Reg.ETH_CTRL.rx_en, 0), (Reg.ETH_CTRL.rx_en, 1), (Reg.ETH_CTRL.tx_en, 0), (Reg.ETH_CTRL.tx_en, 1),
      (Reg.GLB_LINK_CNT.downs, 0), (Reg.GLB_LINK_STAT.speed, 0), (Reg.GLB_LINK_STAT.width, 0)] ++ cleared.map (fun f => (f, 0)) ++ eventRegs
    let restored (t : State) : Prop := (∀ f ∈ cleared, t.rd f 0 = f.reset) ∧ (∀ p, p < 2 → t.rd Reg.ETH_CTRL.rx_en p = 0 ∧ t.rd Reg.ETH_CTRL.tx_en p = 0)
      ∧ t.host.msix = [] ∧ t.host.pba = [] ∧ t.host.latch = [] ∧ t.host.mem = s.host.mem ∧ Only [.regs, .evq, .host] s t
    (∀ (cause : LinkCause) (n : Nat), (cause = .linkDown ∧ n = 1) ∨ (cause = .hotReset ∧ n = 2) ∨ (cause = .linkDisable ∧ n = 3) →
      ∃ t, exec (.linkDown cause) s = .next t ∧ restored t ∧ t.rd Reg.GLB_LINK_CNT.downs 0 = up Reg.GLB_LINK_CNT.downs
        ∧ t.rd Reg.GLB_LINK_STAT.speed 0 = 0 ∧ t.rd Reg.GLB_LINK_STAT.width 0 = 0 ∧ Reports s t 0x000 0 n ∧ RegsBut link s t)
    ∧ (∃ t, exec (.linkDown .flr) s = .next t ∧ restored t ∧ t.rd Reg.GLB_LINK_CNT.flr 0 = up Reg.GLB_LINK_CNT.flr
        ∧ t.rd Reg.GLB_SCRATCH0.data 0 = 0 ∧ t.rd Reg.GLB_SCRATCH1.data 0 = 0 ∧ Reports s t 0x000 0 4
        ∧ RegsBut ([(Reg.GLB_LINK_CNT.flr, 0), (Reg.GLB_SCRATCH0.data, 0), (Reg.GLB_SCRATCH1.data, 0)] ++ link) s t)
    ∧ (∀ speed width : Fin 5,
      ∃ t, exec (.linkUp speed width) s = .next t ∧ t.rd Reg.GLB_LINK_STAT.speed 0 = speed ∧ t.rd Reg.GLB_LINK_STAT.width 0 = width
        ∧ Reports s t 0x001 0 (speed + 16 * width) ∧ Only eventParts s t
        ∧ RegsBut ([(Reg.GLB_LINK_STAT.speed, 0), (Reg.GLB_LINK_STAT.width, 0)] ++ eventRegs) s t)
    ∧ (∀ off : Bool,
      ∃ t, exec (.masterOff off) s = .next t ∧ t.rd Reg.GLB_STAT.master_off 0 = bit off ∧ Reports s t 0x004 0 (bit off)
        ∧ (off = false → s.flag Reg.GLB_STAT.d3 0 = false → ∀ v, v < 64 → masked s v = false → pend t v = false)
        ∧ t.host.msix = s.host.msix ∧ t.host.mem = s.host.mem ∧ Only eventParts s t ∧ RegsBut ((Reg.GLB_STAT.master_off, 0) :: eventRegs) s t)
    ∧ (∀ d3 : Bool,
      ∃ t, exec (.powerState d3) s = .next t ∧ t.rd Reg.GLB_STAT.d3 0 = bit d3 ∧ t.rd Reg.GLB_LINK_STAT.dstate 0 = 3 * bit d3
        ∧ Reports s t 0x005 0 (3 * bit d3)
        ∧ (d3 = false → s.flag Reg.GLB_STAT.master_off 0 = false → ∀ v, v < 64 → masked s v = false → pend t v = false)
        ∧ t.host.msix = s.host.msix ∧ t.host.mem = s.host.mem ∧ Only eventParts s t
        ∧ RegsBut ([(Reg.GLB_STAT.d3, 0), (Reg.GLB_LINK_STAT.dstate, 0)] ++ eventRegs) s t)
    ∧ (s.evq.written ≠ 0 → s.fab.again = [] →
      ∃ t, exec .vector0Timeout s = .next t ∧ t.clk = (s.reachCycle (s.evq.oldest + s.rd Reg.GLB_EVQ_MOD.time 0 * 400)).clk
        ∧ t.evq = { s.evq with written := 0 } ∧ t.bitAt Reg.GLB_IRQ_STAT0.cause 0 0 = true
        ∧ (s.bitAt Reg.GLB_IRQ_EN0.en 0 0 = true → sent t 0) ∧ (s.bitAt Reg.GLB_IRQ_EN0.en 0 0 = false → t.wire = s.wire)
        ∧ Only (.clk :: eventParts) s t ∧ RegsBut [(Reg.GLB_IRQ_STAT0.cause, 0)] s t)
    ∧ (s.evq.written = 0 → exec .vector0Timeout s = .next s)
    ∧ (∀ v : Fin 64, HostUp s →
      ∃ t, exec (.msixUnmask v) s = .next t ∧ tabGet Msix.reset t.host.msix v = { tabGet Msix.reset s.host.msix v with masked := false }
        ∧ (∀ n, n ≠ v.val → tabGet Msix.reset t.host.msix n = tabGet Msix.reset s.host.msix n ∧ pend t n = pend s n)
        ∧ (pend s v = true → free → t.wire = s.wire ++ [.msix v] ∧ pend t v = false)
        ∧ (pend s v = false ∨ ¬ free → t.wire = s.wire ∧ pend t v = pend s v) ∧ t.host.mem = s.host.mem ∧ Only [.wire, .host] s t)
    ∧ (∀ v : Fin 64, HostUp s → s.vectorEnabled v = true → ¬ (13 ≤ v.val ∧ v.val ≤ 15) →
      ∃ t, exec (.irqTest v) s = .next t ∧ sent t v ∧ (∀ n, n ≠ v.val → pend t n = pend s n) ∧ t.host.msix = s.host.msix
        ∧ t.host.mem = s.host.mem ∧ Only [.wire, .host] s t)
    ∧ (∀ v : Fin 64, s.vectorEnabled v = false ∨ (13 ≤ v.val ∧ v.val ≤ 15) → exec (.irqTest v) s = .next s)
    ∧ (∀ code : BitVec 8, let drives : Prop := code.toNat ∈ [0, 3, 4, 5, 6]
        (s.running = true → drives →
          ∃ t, exec (.jtagInstruction code) s = .next t ∧ t.jtag = ⟨0xFF, 0x3D⟩ ∧ t.wire = s.wire ++ [.jtag s.jtag.capture]
            ∧ Only [.wire, .jtag] s t)
        ∧ (s.running = false ∨ ¬ drives →
          ∃ t, exec (.jtagInstruction code) s = .next t ∧ t.jtag = ⟨if code.toNat ≤ 6 then code.toNat else 0xFF, 0x01⟩
            ∧ t.wire = s.wire ++ [.jtag s.jtag.capture] ∧ Only [.wire, .jtag] s t))
    ∧ (∃ t, exec .jtagPortReset s = .next t ∧ t.jtag = ⟨0xFF, 0x01⟩ ∧ Only [.jtag] s t)

end Statements
end

