-- ==== Sys2Proof/Laws/Sparse.lean ====
section
/-! SUPPORT. What the sparse tables do: a read after a write, and that every write and deletion keeps the canonical form. -/

set_option Elab.async false

namespace Sys2Proof.Machine

variable {α : Type} [DecidableEq α] {d : α}

@[simp] theorem tabGet_nil {α : Type} (d : α) (k : Nat) : tabGet d [] k = d := rfl

/-- Below the first key nothing is listed. -/
theorem tabGet_below {t : List (Nat × α)} {b k : Nat} (h : tabWfFrom d b t = true) (hk : k < b) : tabGet d t k = d := by
  induction t generalizing b with
  | nil => rfl
  | cons e t ih =>
    obtain ⟨j, v⟩ := e
    simp only [tabWfFrom, Bool.and_eq_true, decide_eq_true_eq] at h
    have h1 : ¬ k = j := by omega
    have h2 : k < j := by omega
    simp [tabGet, h1, h2]

theorem tabWfFrom_mono {t : List (Nat × α)} {a b : Nat} (h : tabWfFrom d b t = true) (hab : a ≤ b) :
    tabWfFrom d a t = true := by
  cases t with
  | nil => rfl
  | cons e t =>
    obtain ⟨j, v⟩ := e
    simp only [tabWfFrom, Bool.and_eq_true, decide_eq_true_eq] at h ⊢
    exact ⟨⟨by omega, h.1.2⟩, h.2⟩

/-- A write keeps the canonical form. -/
theorem tabWfFrom_tabSet {t : List (Nat × α)} {b k : Nat} {v : α} (h : tabWfFrom d b t = true) (hk : b ≤ k) :
    tabWfFrom d b (tabSet d t k v) = true := by
  induction t generalizing b with
  | nil =>
    by_cases hv : v = d <;> simp [tabSet, tabWfFrom, hv, hk]
  | cons e t ih =>
    obtain ⟨j, w⟩ := e
    simp only [tabWfFrom, Bool.and_eq_true, decide_eq_true_eq] at h
    obtain ⟨⟨hb, hw⟩, ht⟩ := h
    simp only [tabSet]
    split
    · subst k
      split
      · exact tabWfFrom_mono ht (by omega)
      · rename_i hv
        simp [tabWfFrom, hb, hv, ht]
    · split
      · rename_i hlt
        split
        · simp [tabWfFrom, hb, hw, ht]
        · rename_i hv
          simp only [tabWfFrom, Bool.and_eq_true, decide_eq_true_eq]
          exact ⟨⟨hk, hv⟩, ⟨by omega, hw⟩, ht⟩
      · simp only [tabWfFrom, Bool.and_eq_true, decide_eq_true_eq]
        exact ⟨⟨hb, hw⟩, ih ht (by omega)⟩

theorem tabWf_nil : tabWf d ([] : List (Nat × α)) = true := rfl

theorem tabWf_tabSet {t : List (Nat × α)} {k : Nat} {v : α} (h : tabWf d t = true) : tabWf d (tabSet d t k v) = true :=
  tabWfFrom_tabSet h (Nat.zero_le k)

theorem tabWf_tabMod {t : List (Nat × α)} {k : Nat} {f : α → α} (h : tabWf d t = true) : tabWf d (tabMod d t k f) = true :=
  tabWf_tabSet h

theorem tabWf_tabSetList {t : List (Nat × α)} {k : Nat} {vs : List α} (h : tabWf d t = true) :
    tabWf d (tabSetList d t k vs) = true := by
  induction vs generalizing t k with
  | nil => exact h
  | cons v vs ih => exact ih (tabWf_tabSet h)

theorem tabWfFrom_filter {p : Nat × α → Bool} {t : List (Nat × α)} {b : Nat} (h : tabWfFrom d b t = true) :
    tabWfFrom d b (t.filter p) = true := by
  induction t generalizing b with
  | nil => rfl
  | cons e t ih =>
    obtain ⟨j, v⟩ := e
    simp only [tabWfFrom, Bool.and_eq_true, decide_eq_true_eq] at h
    by_cases hp : p (j, v) = true
    · simp [hp, tabWfFrom, h.1.1, h.1.2, ih h.2]
    · simp only [List.filter_cons, hp]
      exact tabWfFrom_mono (ih h.2) (by omega)

theorem tabWf_filter {p : Nat × α → Bool} {t : List (Nat × α)} (h : tabWf d t = true) : tabWf d (t.filter p) = true :=
  tabWfFrom_filter h

theorem tabWf_tabDrop {p : Nat → Bool} {t : List (Nat × α)} (h : tabWf d t = true) : tabWf d (tabDrop p t) = true :=
  tabWfFrom_filter h

/-- Writes one after the other keep the canonical form. -/
theorem tabWf_foldl {β : Type} {l : List β} {k : β → Nat} {v : β → α} {t : List (Nat × α)} (h : tabWf d t = true) :
    tabWf d (l.foldl (fun t x => tabSet d t (k x) (v x)) t) = true := by
  induction l generalizing t with
  | nil => exact h
  | cons x l ih => exact ih (tabWf_tabSet h)

theorem tabWf_tabMap {f : α → α} {t : List (Nat × α)} : tabWf d (tabMap d f t) = true := by
  unfold tabMap
  exact tabWf_foldl tabWf_nil

/-- What is written is read back. -/
theorem tabGet_tabSet_self {t : List (Nat × α)} {b k : Nat} {v : α} (h : tabWfFrom d b t = true) :
    tabGet d (tabSet d t k v) k = v := by
  induction t generalizing b with
  | nil => by_cases hv : v = d <;> simp [tabSet, tabGet, hv]
  | cons e t ih =>
    obtain ⟨j, w⟩ := e
    simp only [tabWfFrom, Bool.and_eq_true, decide_eq_true_eq] at h
    simp only [tabSet]
    split
    · subst k
      split
      · rename_i hv; subst v
        exact tabGet_below h.2 (by omega)
      · simp [tabGet]
    · rename_i hne
      split
      · rename_i hlt
        split
        · rename_i hv; subst v
          simp [tabGet, hne, hlt]
        · simp [tabGet]
      · rename_i hge
        simp only [tabGet, hne, hge, if_false]
        exact ih h.2

/-- Other keys read as before. -/
theorem tabGet_tabSet_ne {t : List (Nat × α)} {b k k' : Nat} {v : α} (h : tabWfFrom d b t = true) (hk : k' ≠ k) :
    tabGet d (tabSet d t k v) k' = tabGet d t k' := by
  induction t generalizing b with
  | nil =>
    by_cases hv : v = d
    · simp [tabSet, hv]
    · simp only [tabSet, hv, if_false, tabGet, hk]; split <;> rfl
  | cons e t ih =>
    obtain ⟨j, w⟩ := e
    simp only [tabWfFrom, Bool.and_eq_true, decide_eq_true_eq] at h
    obtain ⟨⟨_, _⟩, ht⟩ := h
    simp only [tabSet]
    split
    · subst k
      split
      · simp only [tabGet, hk, if_false]
        split
        · rename_i hlt
          exact tabGet_below ht (by omega)
        · rfl
      · simp [tabGet, hk]
    · rename_i hne
      split
      · rename_i hlt
        split
        · rfl
        · simp only [tabGet, hk, if_false]
          split
          · rename_i h1
            have h2 : ¬ k' = j := by omega
            have h3 : k' < j := by omega
            simp [h2, h3]
          · rfl
      · simp only [tabGet]
        split
        · rfl
        · split
          · rfl
          · exact ih ht

theorem tabGet_tabSet {t : List (Nat × α)} {k k' : Nat} {v : α} (h : tabWf d t = true) :
    tabGet d (tabSet d t k v) k' = if k' = k then v else tabGet d t k' := by
  split
  · subst k'; exact tabGet_tabSet_self h
  · rename_i hk; exact tabGet_tabSet_ne h hk

/-- Two tables in canonical form that read alike are the same list. -/
theorem tab_ext {t u : List (Nat × α)} {b : Nat} (ht : tabWfFrom d b t = true) (hu : tabWfFrom d b u = true)
    (h : ∀ k, tabGet d t k = tabGet d u k) : t = u := by
  induction t generalizing b u with
  | nil =>
    cases u with
    | nil => rfl
    | cons e u =>
      obtain ⟨j, v⟩ := e
      simp only [tabWfFrom, Bool.and_eq_true, decide_eq_true_eq] at hu
      exact absurd (by simpa [tabGet] using (h j).symm) hu.1.2
  | cons e t ih =>
    obtain ⟨j, v⟩ := e
    simp only [tabWfFrom, Bool.and_eq_true, decide_eq_true_eq] at ht
    cases u with
    | nil => exact absurd (by simpa [tabGet] using h j) ht.1.2
    | cons e u =>
      obtain ⟨i, w⟩ := e
      simp only [tabWfFrom, Bool.and_eq_true, decide_eq_true_eq] at hu
      have hj := h j
      have hi := h i
      simp only [tabGet, if_true] at hj hi
      rcases Nat.lt_trichotomy j i with hlt | heq | hgt
      · have : ¬ j = i := by omega
        simp only [this, hlt, if_true, if_false] at hj
        exact absurd hj ht.1.2
      · subst i
        have hvw : v = w := by simpa [tabGet] using h j
        subst hvw
        have : t = u := by
          apply ih ht.2 hu.2
          intro k
          have hk := h k
          simp only [tabGet] at hk
          by_cases h1 : k = j
          · subst k
            rw [tabGet_below ht.2 (by omega), tabGet_below hu.2 (by omega)]
          · by_cases h2 : k < j
            · rw [tabGet_below ht.2 (by omega), tabGet_below hu.2 (by omega)]
            · simpa [h1, h2] using hk
        rw [this]
      · have : ¬ i = j := by omega
        simp only [this, hgt, if_true, if_false] at hi
        exact absurd hi.symm hu.1.2

end Sys2Proof.Machine
end

