-- ==== Sys2Proof/Laws/Keeps.lean ====
section
/-! SUPPORT. What one operation keeps of the machine: the relation `Keeps M s t` says that `t` has the queue and the fuses of
`s`, that what left the pins and links in `s` had also left in `t`, that free values are only drawn, that a sound state stays
sound, and that every component whose bit in `M` is clear is unchanged. One lemma per operation follows in the other files. -/

set_option Elab.async false

namespace Sys2Proof.Machine

/-- A component is unchanged unless its bit is set. -/
abbrev KeptAt (M i : Nat) (p : Prop) : Prop := M.testBit i = true ∨ p

/-- `t` comes from `s` by changing components of `M` only. Bit numbers are the positions of the fields of State. -/
structure Keeps (M : Nat) (s t : State) : Prop where
  pending : t.pending = s.pending
  serial : t.serial = s.serial
  wire : s.wire <+: t.wire
  free : s.free ≤ t.free
  sound : Safety.Sound s → Safety.Sound t
  regs : KeptAt M 4 (t.regs = s.regs)
  clk : KeptAt M 5 (t.clk = s.clk)
  epo : KeptAt M 6 (t.epo = s.epo)
  pts : KeptAt M 7 (t.pts = s.pts)
  evq : KeptAt M 8 (t.evq = s.evq)
  dr : KeptAt M 9 (t.dr = s.dr)
  host : KeptAt M 10 (t.host = s.host)
  eth : KeptAt M 11 (t.eth = s.eth)
  conds : KeptAt M 12 (t.conds = s.conds)
  jtag : KeptAt M 13 (t.jtag = s.jtag)
  arms : KeptAt M 14 (t.arms = s.arms)
  cells : KeptAt M 15 (t.cells = s.cells)
  lanes : KeptAt M 16 (t.lanes = s.lanes)
  units : KeptAt M 17 (t.units = s.units)
  drv : KeptAt M 18 (t.drv = s.drv)
  cal : KeptAt M 19 (t.cal = s.cal)
  fab : KeptAt M 20 (t.fab = s.fab)
  ord : KeptAt M 21 (t.ord = s.ord)
  adc : KeptAt M 22 (t.adc = s.adc)
  red : KeptAt M 23 (t.red = s.red)
  saf : KeptAt M 24 (t.saf = s.saf)
  cfg : KeptAt M 25 (t.cfg = s.cfg)
  pwr : KeptAt M 26 (t.pwr = s.pwr)
  bs : KeptAt M 27 (t.bs = s.bs)
  sent : KeptAt M 1 (t.wire = s.wire)
  drawn : KeptAt M 2 (t.free = s.free)
  epoch : KeptAt M 28 (t.epo.k = s.epo.k ∧ t.epo.begun = s.epo.begun)
  keys : KeptAt M 29 (t.cfg.keys = s.cfg.keys)
  flash : KeptAt M 30 (t.cfg.flash = s.cfg.flash)
  published : KeptAt M 31 (t.pts.pub = s.pts.pub)
  pinned : KeptAt M 32 (t.pts.pin = s.pts.pin)
  arb : KeptAt M 33 (t.arb = s.arb)

theorem KeptAt.refl {M i : Nat} {α : Type} (a : α) : KeptAt M i (a = a) := .inr rfl

theorem KeptAt.trans {M i : Nat} {α : Type} {a b c : α} (h : KeptAt M i (b = a)) (h' : KeptAt M i (c = b)) :
    KeptAt M i (c = a) := by
  rcases h with h | h
  · exact .inl h
  · rcases h' with h' | h'
    · exact .inl h'
    · exact .inr (h'.trans h)

theorem KeptAt.both {M i : Nat} {p q r : Prop} (h : KeptAt M i p) (h' : KeptAt M i q) (f : p → q → r) : KeptAt M i r := by
  rcases h with h | h
  · exact .inl h
  · exact h'.imp id (f h)

theorem KeptAt.mono {m M i : Nat} {p : Prop} (hm : m ||| M = M) (h : KeptAt m i p) : KeptAt M i p := by
  rcases h with h | h
  · exact .inl (by rw [← hm, Nat.testBit_or, h, Bool.true_or])
  · exact .inr h

/-- A clear bit says that the component is unchanged. -/
theorem KeptAt.get {M i : Nat} {p : Prop} (h : KeptAt M i p) (hi : M.testBit i = false) : p := by
  rcases h with h | h
  · simp [hi] at h
  · exact h

theorem Keeps.refl {M : Nat} (s : State) : Keeps M s s :=
  ⟨rfl, rfl, List.prefix_refl _, Nat.le_refl _, id, .inr rfl, .inr rfl, .inr rfl, .inr rfl, .inr rfl, .inr rfl, .inr rfl, .inr rfl, .inr rfl, .inr rfl, .inr rfl, .inr rfl, .inr rfl, .inr rfl, .inr rfl, .inr rfl, .inr rfl, .inr rfl, .inr rfl, .inr rfl, .inr rfl, .inr rfl, .inr rfl, .inr rfl, .inr rfl, .inr rfl, .inr ⟨rfl, rfl⟩, .inr rfl, .inr rfl, .inr rfl, .inr rfl, .inr rfl⟩

theorem Keeps.trans {M : Nat} {s t u : State} (h : Keeps M s t) (h' : Keeps M t u) : Keeps M s u :=
  ⟨h'.pending.trans h.pending, h'.serial.trans h.serial, h.wire.trans h'.wire, Nat.le_trans h.free h'.free,
    fun x => h'.sound (h.sound x), h.regs.trans h'.regs, h.clk.trans h'.clk, h.epo.trans h'.epo, h.pts.trans h'.pts, h.evq.trans h'.evq, h.dr.trans h'.dr, h.host.trans h'.host, h.eth.trans h'.eth, h.conds.trans h'.conds, h.jtag.trans h'.jtag, h.arms.trans h'.arms, h.cells.trans h'.cells, h.lanes.trans h'.lanes, h.units.trans h'.units, h.drv.trans h'.drv, h.cal.trans h'.cal, h.fab.trans h'.fab, h.ord.trans h'.ord, h.adc.trans h'.adc, h.red.trans h'.red, h.saf.trans h'.saf, h.cfg.trans h'.cfg, h.pwr.trans h'.pwr, h.bs.trans h'.bs, h.sent.trans h'.sent, h.drawn.trans h'.drawn, .both h.epoch h'.epoch (fun a b => ⟨b.1.trans a.1, b.2.trans a.2⟩), h.keys.trans h'.keys, h.flash.trans h'.flash, h.published.trans h'.published, h.pinned.trans h'.pinned, h.arb.trans h'.arb⟩

theorem Keeps.mono {m M : Nat} {s t : State} (hm : m ||| M = M) (h : Keeps m s t) : Keeps M s t :=
  ⟨h.pending, h.serial, h.wire, h.free, h.sound, h.regs.mono hm, h.clk.mono hm, h.epo.mono hm, h.pts.mono hm, h.evq.mono hm, h.dr.mono hm, h.host.mono hm, h.eth.mono hm, h.conds.mono hm, h.jtag.mono hm, h.arms.mono hm, h.cells.mono hm, h.lanes.mono hm, h.units.mono hm, h.drv.mono hm, h.cal.mono hm, h.fab.mono hm, h.ord.mono hm, h.adc.mono hm, h.red.mono hm, h.saf.mono hm, h.cfg.mono hm, h.pwr.mono hm, h.bs.mono hm, h.sent.mono hm, h.drawn.mono hm, h.epoch.mono hm, h.keys.mono hm, h.flash.mono hm, h.published.mono hm, h.pinned.mono hm, h.arb.mono hm⟩

/-- One operation more. -/
theorem Keeps.next {m M : Nat} {r s t : State} (hm : m ||| M = M) (h : Keeps M r s) (h' : Keeps m s t) : Keeps M r t :=
  h.trans (h'.mono hm)

theorem Keeps.ite {M : Nat} {s t u : State} {c : Prop} [Decidable c] (ht : Keeps M s t) (hu : Keeps M s u) :
    Keeps M s (if c then t else u) := by
  split <;> assumption

theorem Keeps.ite_fst {M : Nat} {γ : Type} {s : State} {t u : State × γ} {c : Prop} [Decidable c] (ht : Keeps M s t.1)
    (hu : Keeps M s u.1) : Keeps M s (if c then t else u).1 := by
  split <;> assumption

theorem Keeps.ite_snd {M : Nat} {γ : Type} {s : State} {t u : γ × State} {c : Prop} [Decidable c] (ht : Keeps M s t.2)
    (hu : Keeps M s u.2) : Keeps M s (if c then t else u).2 := by
  split <;> assumption

theorem Keeps.foldl {M : Nat} {β : Type} {r s : State} {l : List β} {f : State → β → State} (h : Keeps M r s)
    (hf : ∀ t x, Keeps M r t → Keeps M r (f t x)) : Keeps M r (l.foldl f s) := by
  induction l generalizing s with
  | nil => exact h
  | cons x l ih => exact ih (hf s x h)

theorem Keeps.foldl_fst {M : Nat} {β γ : Type} {r : State} {s : State × γ} {l : List β} {f : State × γ → β → State × γ}
    (h : Keeps M r s.1) (hf : ∀ t x, Keeps M r t.1 → Keeps M r (f t x).1) : Keeps M r (l.foldl f s).1 := by
  induction l generalizing s with
  | nil => exact h
  | cons x l ih => exact ih (hf s x h)

theorem Keeps.foldl_snd {M : Nat} {β γ : Type} {r : State} {s : γ × State} {l : List β} {f : γ × State → β → γ × State}
    (h : Keeps M r s.2) (hf : ∀ t x, Keeps M r t.2 → Keeps M r (f t x).2) : Keeps M r (l.foldl f s).2 := by
  induction l generalizing s with
  | nil => exact h
  | cons x l ih => exact ih (hf s x h)

theorem Keeps.forEach {M : Nat} {r s : State} {n : Nat} {f : Nat → State → State} (h : Keeps M r s)
    (hf : ∀ i t, Keeps M r t → Keeps M r (f i t)) : Keeps M r (State.forEach n f s) :=
  Keeps.foldl h (fun t i ht => hf i t ht)

/-- The same of an operation that may answer no state. -/
def KeepsP (M : Nat) (s : State) (o : Option State) : Prop := ∀ t, o = some t → Keeps M s t

theorem KeepsP.some {M : Nat} {s t : State} (h : Keeps M s t) : KeepsP M s (some t) := by
  intro u hu; cases hu; exact h

theorem KeepsP.none {M : Nat} {s : State} : KeepsP M s none := by
  intro u hu; cases hu

theorem KeepsP.ite {M : Nat} {s : State} {a b : Option State} {c : Prop} [Decidable c] (ha : KeepsP M s a) (hb : KeepsP M s b) :
    KeepsP M s (if c then a else b) := by
  split <;> assumption

/-- The same of a meaning: of the next state, where it answers one. -/
def KeepsO (M : Nat) (s : State) (o : Host.Outcome State Fault Refusal) : Prop := ∀ t, o = .next t → Keeps M s t

theorem KeepsO.next {M : Nat} {s t : State} (h : Keeps M s t) : KeepsO M s (.next t) := by
  intro u hu; cases hu; exact h

theorem KeepsO.refused {M : Nat} {s : State} {r : Refusal} : KeepsO M s (.refused r) := by
  intro u hu; cases hu

theorem KeepsO.ite {M : Nat} {s : State} {a b : Host.Outcome State Fault Refusal} {c : Prop} [Decidable c]
    (ha : KeepsO M s a) (hb : KeepsO M s b) : KeepsO M s (if c then a else b) := by
  split <;> assumption

theorem KeepsO.mono {m M : Nat} {s : State} {o : Host.Outcome State Fault Refusal} (hm : m ||| M = M) (h : KeepsO m s o) :
    KeepsO M s o := fun t ht => (h t ht).mono hm

theorem KeepsO.byHost {M : Nat} {s : State} {f : State → Host.Outcome State Fault Refusal} (h : KeepsO M s (f s)) :
    KeepsO M s (byHost f s) := by
  unfold Machine.byHost
  exact .ite (.next (.refl s)) h

theorem KeepsO.byReader {M req addr : Nat} {s : State} {f : State → Host.Outcome State Fault Refusal} (hm : 0x400 ||| M = M)
    (h : KeepsO M s (f s)) : KeepsO M s (byReader req addr f s) := by
  unfold Machine.byReader
  refine .ite (.next (.refl s)) (.ite (.next (.mono hm ?_)) h)
  exact ⟨rfl, rfl, List.prefix_refl _, Nat.le_refl _, fun h => ⟨h.regs, h.points, h.memory, h.staging, h.events, h.arms, h.cells, h.lanes, h.units,
    h.drv, h.eth, h.conds, h.fabric, h.orders, h.measure, h.safety, h.keys, h.vectors, h.arbiter⟩, .inr rfl, .inr rfl, .inr rfl, .inr rfl, .inr rfl, .inr rfl, .inl rfl, .inr rfl, .inr rfl, .inr rfl, .inr rfl, .inr rfl, .inr rfl, .inr rfl, .inr rfl, .inr rfl, .inr rfl, .inr rfl, .inr rfl, .inr rfl, .inr rfl, .inr rfl, .inr rfl, .inr rfl, .inr rfl, .inr rfl, .inr ⟨rfl, rfl⟩, .inr rfl, .inr rfl, .inr rfl, .inr rfl, .inr rfl⟩

/-- A record update: the fields it does not name come from `t`. -/
theorem Keeps.upd {M : Nat} {r t : State} {pending' wire' free' serial' regs' clk' epo' pts' evq' dr' host' eth' conds' jtag' arms'
    cells' lanes' units' drv' cal' fab' ord' adc' red' saf' cfg' pwr' bs' arb'} (h : Keeps M r t)
    (hpending : pending' = t.pending := by rfl) (hserial : serial' = t.serial := by rfl)
    (hwire : t.wire <+: wire' := by first | exact List.prefix_refl _ | exact List.prefix_append _ _)
    (hfree : t.free ≤ free' := by first | exact Nat.le_refl _ | exact Nat.le_succ _)
    (hRegs : tabWf 0 t.regs = true → tabWf 0 regs' = true := by
      first
        | exact (fun h => h)
        | exact (fun h => tabWf_tabSet h)
        | exact (fun h => tabWf_tabDrop h)
        | exact (fun h => tabWf_filter h))
    (hPoints : Safety.PointsOk t.pts → Safety.PointsOk pts' := by
      first
        | exact (fun h => h)
        | exact (fun h => ⟨tabWf_tabSet (h.1), h.2⟩)
        | exact (fun h => ⟨tabWf_tabMod (h.1), h.2⟩)
        | exact (fun h => ⟨h.1, tabWf_tabSet (h.2.1), h.2.2⟩)
        | exact (fun h => ⟨h.1, tabWf_tabMod (h.2.1), h.2.2⟩)
        | exact (fun h => ⟨h.1, h.2.1, tabWf_tabSet (h.2.2.1), h.2.2.2⟩)
        | exact (fun h => ⟨h.1, h.2.1, tabWf_tabMod (h.2.2.1), h.2.2.2⟩)
        | exact (fun h => ⟨h.1, h.2.1, h.2.2.1, tabWf_tabSet (h.2.2.2)⟩)
        | exact (fun h => ⟨h.1, h.2.1, h.2.2.1, tabWf_tabMod (h.2.2.2)⟩)
        | exact (fun _ => ⟨rfl, rfl, rfl, rfl⟩))
    (hMemory : tabWf 0 t.host.mem = true → tabWf 0 host'.mem = true := by
      first
        | exact (fun h => h)
        | exact (fun h => tabWf_tabSetList h))
    (hStaging : Safety.StagingOk t.epo → Safety.StagingOk epo' := by
      first
        | exact (fun h => h))
    (hEvents : t.evq.buf.length ≤ 1024 → evq'.buf.length ≤ 1024 := by
      first
        | exact (fun h => h))
    (hArms : tabWf ArmRt.clear t.arms = true → tabWf ArmRt.clear arms' = true := by
      first
        | exact (fun h => h)
        | exact (fun h => tabWf_tabSet h)
        | exact (fun h => tabWf_tabMod h)
        | exact (fun _ => tabWf_tabMap)
        | exact (fun _ => rfl))
    (hCells : tabWf CellRt.clear t.cells = true → tabWf CellRt.clear cells' = true := by
      first
        | exact (fun h => h)
        | exact (fun h => tabWf_tabSet h)
        | exact (fun h => tabWf_tabMod h)
        | exact (fun _ => tabWf_tabMap)
        | exact (fun _ => rfl))
    (hLanes : tabWf LaneRt.clear t.lanes = true → tabWf LaneRt.clear lanes' = true := by
      first
        | exact (fun h => h)
        | exact (fun h => tabWf_tabSet h)
        | exact (fun h => tabWf_tabMod h)
        | exact (fun _ => tabWf_tabMap)
        | exact (fun _ => rfl))
    (hUnits : tabWf UnitRt.clear t.units = true → tabWf UnitRt.clear units' = true := by
      first
        | exact (fun h => h)
        | exact (fun h => tabWf_tabSet h)
        | exact (fun h => tabWf_tabMod h)
        | exact (fun _ => tabWf_tabMap)
        | exact (fun _ => rfl))
    (hDrv : tabWf DrvRt.clear t.drv = true → tabWf DrvRt.clear drv' = true := by
      first
        | exact (fun h => h)
        | exact (fun h => tabWf_tabSet h)
        | exact (fun h => tabWf_tabMod h)
        | exact (fun _ => tabWf_tabMap)
        | exact (fun _ => rfl))
    (hEth : tabWf Eth.reset t.eth = true → tabWf Eth.reset eth' = true := by
      first
        | exact (fun h => h)
        | exact (fun h => tabWf_tabSet h)
        | exact (fun h => tabWf_tabMod h)
        | exact (fun _ => tabWf_tabMap)
        | exact (fun _ => rfl))
    (hConds : tabWf Cond.clear t.conds = true → tabWf Cond.clear conds' = true := by
      first
        | exact (fun h => h)
        | exact (fun h => tabWf_tabSet h)
        | exact (fun h => tabWf_tabMod h)
        | exact (fun _ => tabWf_tabMap)
        | exact (fun _ => rfl))
    (hFabric : Safety.FabricOk t.fab → Safety.FabricOk fab' := by
      first
        | exact (fun h => h)
        | exact (fun h => ⟨tabWf_tabSet (h.1), h.2⟩)
        | exact (fun h => ⟨tabWf_tabMod (h.1), h.2⟩)
        | exact (fun h => ⟨h.1, tabWf_tabSet (h.2.1), h.2.2⟩)
        | exact (fun h => ⟨h.1, tabWf_tabMod (h.2.1), h.2.2⟩)
        | exact (fun h => ⟨h.1, h.2.1, tabWf_tabSet (h.2.2.1), h.2.2.2⟩)
        | exact (fun h => ⟨h.1, h.2.1, tabWf_tabMod (h.2.2.1), h.2.2.2⟩)
        | exact (fun h => ⟨h.1, h.2.1, h.2.2.1, tabWf_tabSet (h.2.2.2.1), h.2.2.2.2⟩)
        | exact (fun h => ⟨h.1, h.2.1, h.2.2.1, tabWf_tabMod (h.2.2.2.1), h.2.2.2.2⟩)
        | exact (fun h => ⟨h.1, h.2.1, h.2.2.1, h.2.2.2.1, tabWf_tabSet (h.2.2.2.2)⟩)
        | exact (fun h => ⟨h.1, h.2.1, h.2.2.1, h.2.2.2.1, tabWf_tabMod (h.2.2.2.2)⟩)
        | exact (fun h => ⟨h.1, h.2.1, h.2.2.1, h.2.2.2.1, tabWf_tabMap⟩)
        | exact (fun _ => ⟨rfl, rfl, rfl, rfl, rfl⟩))
    (hOrders : Safety.OrdersOk t.ord → Safety.OrdersOk ord' := by
      first
        | exact (fun h => h)
        | exact (fun h => ⟨tabWf_tabSet (h.1), h.2⟩)
        | exact (fun h => ⟨tabWf_tabMod (h.1), h.2⟩)
        | exact (fun h => ⟨h.1, tabWf_tabSet (h.2.1), h.2.2⟩)
        | exact (fun h => ⟨h.1, tabWf_tabMod (h.2.1), h.2.2⟩)
        | exact (fun h => ⟨h.1, h.2.1, tabWf_tabSet (h.2.2)⟩)
        | exact (fun h => ⟨h.1, h.2.1, tabWf_tabMod (h.2.2)⟩)
        | exact (fun h => ⟨h.1, tabWf_tabMap, h.2.2⟩)
        | exact (fun _ => ⟨rfl, rfl, rfl⟩))
    (hMeasure : Safety.MeasureOk t.adc → Safety.MeasureOk adc' := by
      first
        | exact (fun h => h)
        | exact (fun h => ⟨tabWf_tabSet (h.1), h.2⟩)
        | exact (fun h => ⟨tabWf_tabMod (h.1), h.2⟩)
        | exact (fun h => ⟨h.1, tabWf_tabSet (h.2.1), h.2.2⟩)
        | exact (fun h => ⟨h.1, tabWf_tabMod (h.2.1), h.2.2⟩)
        | exact (fun h => ⟨h.1, h.2.1, tabWf_tabSet (h.2.2)⟩)
        | exact (fun h => ⟨h.1, h.2.1, tabWf_tabMod (h.2.2)⟩)
        | exact (fun h => ⟨h.1, tabWf_tabMap, h.2.2⟩)
        | exact (fun h => ⟨tabWf_tabMap, h.2⟩)
        | exact (fun _ => ⟨rfl, rfl, rfl⟩))
    (hSafe : Safety.SafetyOk t.saf → Safety.SafetyOk saf' := by
      first
        | exact (fun h => h)
        | exact (fun h => ⟨tabWf_tabSet (h.1), h.2⟩)
        | exact (fun h => ⟨tabWf_tabMod (h.1), h.2⟩)
        | exact (fun h => ⟨h.1, tabWf_tabSet (h.2)⟩)
        | exact (fun h => ⟨h.1, tabWf_tabMod (h.2)⟩)
        | exact (fun _ => ⟨rfl, rfl⟩))
    (hKeyTab : tabWf KeySlot.blank t.cfg.keys = true → tabWf KeySlot.blank cfg'.keys = true := by
      first
        | exact (fun h => h)
        | exact (fun h => tabWf_tabSet h)
        | exact (fun h => tabWf_tabMod h)
        | exact (fun _ => tabWf_tabMap)
        | exact (fun _ => rfl))
    (hVectors : Safety.VectorsOk t.host → Safety.VectorsOk host' := by
      first
        | exact (fun h => h)
        | exact (fun h => ⟨tabWf_tabSet (h.1), h.2⟩)
        | exact (fun h => ⟨tabWf_tabMod (h.1), h.2⟩)
        | exact (fun h => ⟨h.1, tabWf_tabSet (h.2)⟩)
        | exact (fun h => ⟨h.1, tabWf_tabMod (h.2)⟩)
        | exact (fun _ => ⟨rfl, rfl⟩)
        | exact (fun h => ⟨rfl, rfl⟩))
    (hArbiter : tabWf Bank.idle t.arb.banks = true → tabWf Bank.idle arb'.banks = true := by
      first
        | exact (fun h => h)
        | exact (fun h => tabWf_tabSet h))
    (hregs : KeptAt M 4 (regs' = t.regs) := by first | exact Or.inr rfl | exact Or.inl (by decide))
    (hclk : KeptAt M 5 (clk' = t.clk) := by first | exact Or.inr rfl | exact Or.inl (by decide))
    (hepo : KeptAt M 6 (epo' = t.epo) := by first | exact Or.inr rfl | exact Or.inl (by decide))
    (hpts : KeptAt M 7 (pts' = t.pts) := by first | exact Or.inr rfl | exact Or.inl (by decide))
    (hevq : KeptAt M 8 (evq' = t.evq) := by first | exact Or.inr rfl | exact Or.inl (by decide))
    (hdr : KeptAt M 9 (dr' = t.dr) := by first | exact Or.inr rfl | exact Or.inl (by decide))
    (hhost : KeptAt M 10 (host' = t.host) := by first | exact Or.inr rfl | exact Or.inl (by decide))
    (heth : KeptAt M 11 (eth' = t.eth) := by first | exact Or.inr rfl | exact Or.inl (by decide))
    (hconds : KeptAt M 12 (conds' = t.conds) := by first | exact Or.inr rfl | exact Or.inl (by decide))
    (hjtag : KeptAt M 13 (jtag' = t.jtag) := by first | exact Or.inr rfl | exact Or.inl (by decide))
    (harms : KeptAt M 14 (arms' = t.arms) := by first | exact Or.inr rfl | exact Or.inl (by decide))
    (hcells : KeptAt M 15 (cells' = t.cells) := by first | exact Or.inr rfl | exact Or.inl (by decide))
    (hlanes : KeptAt M 16 (lanes' = t.lanes) := by first | exact Or.inr rfl | exact Or.inl (by decide))
    (hunits : KeptAt M 17 (units' = t.units) := by first | exact Or.inr rfl | exact Or.inl (by decide))
    (hdrv : KeptAt M 18 (drv' = t.drv) := by first | exact Or.inr rfl | exact Or.inl (by decide))
    (hcal : KeptAt M 19 (cal' = t.cal) := by first | exact Or.inr rfl | exact Or.inl (by decide))
    (hfab : KeptAt M 20 (fab' = t.fab) := by first | exact Or.inr rfl | exact Or.inl (by decide))
    (hord : KeptAt M 21 (ord' = t.ord) := by first | exact Or.inr rfl | exact Or.inl (by decide))
    (hadc : KeptAt M 22 (adc' = t.adc) := by first | exact Or.inr rfl | exact Or.inl (by decide))
    (hred : KeptAt M 23 (red' = t.red) := by first | exact Or.inr rfl | exact Or.inl (by decide))
    (hsaf : KeptAt M 24 (saf' = t.saf) := by first | exact Or.inr rfl | exact Or.inl (by decide))
    (hcfg : KeptAt M 25 (cfg' = t.cfg) := by first | exact Or.inr rfl | exact Or.inl (by decide))
    (hpwr : KeptAt M 26 (pwr' = t.pwr) := by first | exact Or.inr rfl | exact Or.inl (by decide))
    (hbs : KeptAt M 27 (bs' = t.bs) := by first | exact Or.inr rfl | exact Or.inl (by decide))
    (hsent : KeptAt M 1 (wire' = t.wire) := by first | exact Or.inr rfl | exact Or.inl (by decide))
    (hdrawn : KeptAt M 2 (free' = t.free) := by first | exact Or.inr rfl | exact Or.inl (by decide))
    (hepoch : KeptAt M 28 (epo'.k = t.epo.k ∧ epo'.begun = t.epo.begun) := by first | exact Or.inr ⟨rfl, rfl⟩ | exact Or.inl (by decide))
    (hkeys : KeptAt M 29 (cfg'.keys = t.cfg.keys) := by first | exact Or.inr rfl | exact Or.inl (by decide))
    (hflash : KeptAt M 30 (cfg'.flash = t.cfg.flash) := by first | exact Or.inr rfl | exact Or.inl (by decide))
    (hpublished : KeptAt M 31 (pts'.pub = t.pts.pub) := by first | exact Or.inr rfl | exact Or.inl (by decide))
    (hpinned : KeptAt M 32 (pts'.pin = t.pts.pin) := by first | exact Or.inr rfl | exact Or.inl (by decide))
    (harb : KeptAt M 33 (arb' = t.arb) := by first | exact Or.inr rfl | exact Or.inl (by decide))
    : Keeps M r (State.mk pending' wire' free' serial' regs' clk' epo' pts' evq' dr' host' eth' conds' jtag' arms' cells' lanes' units' drv' cal' fab' ord' adc' red' saf' cfg' pwr' bs' arb') :=
  h.trans ⟨hpending, hserial, hwire, hfree,
    fun hs => ⟨hRegs hs.regs, hPoints hs.points, hMemory hs.memory, hStaging hs.staging, hEvents hs.events, hArms hs.arms, hCells hs.cells, hLanes hs.lanes,
      hUnits hs.units, hDrv hs.drv, hEth hs.eth, hConds hs.conds, hFabric hs.fabric, hOrders hs.orders, hMeasure hs.measure, hSafe hs.safety,
      hKeyTab hs.keys, hVectors hs.vectors, hArbiter hs.arbiter⟩, hregs, hclk, hepo, hpts, hevq, hdr, hhost, heth, hconds, hjtag, harms, hcells, hlanes, hunits, hdrv, hcal, hfab, hord, hadc, hred, hsaf, hcfg, hpwr, hbs, hsent, hdrawn, hepoch, hkeys, hflash, hpublished, hpinned, harb⟩

end Sys2Proof.Machine
end

