-- ==== Sys2Proof/Laws/KeepsOps.lean ====
section
/-! SUPPORT. What each operation of Machine/Ops.lean keeps (Laws/Keeps.lean). -/

set_option Elab.async false

namespace Sys2Proof.Machine

theorem State.wr_keeps {M : Nat} {r : State} {a0 a1 a2 a3} (hm : 0x10 ||| M = M) (h : Keeps M r a0) :
    Keeps M r (State.wr a0 a1 a2 a3) := by
  refine h.next hm ?_
  clear h
  have h := Keeps.refl (M := 0x10) a0
  unfold State.wr
  repeat' first
    | with_reducible first
        | assumption | dsimp only
  all_goals with_reducible refine Keeps.upd ?_
  all_goals (repeat' first
    | with_reducible first
        | assumption | dsimp only)

theorem State.add_keeps {M : Nat} {r : State} {a0 a1 a2 a3} (hm : 0x10 ||| M = M) (h : Keeps M r a0) :
    Keeps M r (State.add a0 a1 a2 a3) := by
  refine h.next hm ?_
  clear h
  have h := Keeps.refl (M := 0x10) a0
  unfold State.add
  repeat' first
    | with_reducible first
        | assumption | refine State.wr_keeps (by decide) ?_ | dsimp only

theorem State.count_keeps {M : Nat} {r : State} {a0 a1 a2} (hm : 0x10 ||| M = M) (h : Keeps M r a0) :
    Keeps M r (State.count a0 a1 a2) := by
  refine h.next hm ?_
  clear h
  have h := Keeps.refl (M := 0x10) a0
  unfold State.count
  repeat' first
    | with_reducible first
        | assumption | refine State.add_keeps (by decide) ?_ | dsimp only

theorem State.queueEvent_keeps {M : Nat} {r : State} {a0 a1} (hm : 0x110 ||| M = M) (h : Keeps M r a0) :
    Keeps M r (State.queueEvent a0 a1) := by
  refine h.next hm ?_
  unfold State.queueEvent
  split
  · rename_i hlt
    exact Keeps.upd (.refl a0) (hEvents := fun _ => by simp only [List.length_append, List.length_cons, List.length_nil]; omega)
  · exact Keeps.upd (State.count_keeps (by decide) (.refl a0))

theorem State.sendVector_keeps {M : Nat} {r : State} {a0 a1} (hm : 0x402 ||| M = M) (h : Keeps M r a0) :
    Keeps M r (State.sendVector a0 a1) := by
  refine h.next hm ?_
  clear h
  have h := Keeps.refl (M := 0x402) a0
  unfold State.sendVector
  repeat' first
    | with_reducible first
        | assumption | refine Keeps.ite ?_ ?_ | dsimp only
    | split
  all_goals with_reducible refine Keeps.upd ?_
  all_goals (repeat' first
    | with_reducible first
        | assumption | refine Keeps.ite ?_ ?_ | dsimp only
    | split)

theorem State.setBit_keeps {M : Nat} {r : State} {a0 a1 a2 a3 a4} (hm : 0x10 ||| M = M) (h : Keeps M r a0) :
    Keeps M r (State.setBit a0 a1 a2 a3 a4) := by
  refine h.next hm ?_
  clear h
  have h := Keeps.refl (M := 0x10) a0
  unfold State.setBit
  repeat' first
    | with_reducible first
        | assumption | refine Keeps.ite ?_ ?_ | refine State.wr_keeps (by decide) ?_ | dsimp only
    | split

theorem State.signal_keeps {M : Nat} {r : State} {a0 a1} (hm : 0x412 ||| M = M) (h : Keeps M r a0) :
    Keeps M r (State.signal a0 a1) := by
  refine h.next hm ?_
  clear h
  have h := Keeps.refl (M := 0x412) a0
  unfold State.signal
  repeat' first
    | with_reducible first
        | assumption | refine Keeps.ite ?_ ?_ | refine State.setBit_keeps (by decide) ?_
        | refine State.sendVector_keeps (by decide) ?_ | dsimp only
    | split

theorem State.raiseIn_keeps {M : Nat} {r : State} {a0 a1 a2 a3 a4 a5 a6} (hm : 0x512 ||| M = M) (h : Keeps M r a0) :
    Keeps M r (State.raiseIn a0 a1 a2 a3 a4 a5 a6) := by
  refine h.next hm ?_
  clear h
  have h := Keeps.refl (M := 0x512) a0
  unfold State.raiseIn
  repeat' first
    | with_reducible first
        | assumption | refine Keeps.ite ?_ ?_ | refine State.signal_keeps (by decide) ?_
        | refine State.queueEvent_keeps (by decide) ?_ | dsimp only
    | split

theorem State.raiseAt_keeps {M : Nat} {r : State} {a0 a1 a2 a3 a4 a5} (hm : 0x512 ||| M = M) (h : Keeps M r a0) :
    Keeps M r (State.raiseAt a0 a1 a2 a3 a4 a5) := by
  refine h.next hm ?_
  clear h
  have h := Keeps.refl (M := 0x512) a0
  unfold State.raiseAt
  repeat' first
    | with_reducible first
        | assumption | refine State.raiseIn_keeps (by decide) ?_ | dsimp only

theorem State.raise_keeps {M : Nat} {r : State} {a0 a1 a2 a3} (hm : 0x512 ||| M = M) (h : Keeps M r a0) :
    Keeps M r (State.raise a0 a1 a2 a3) := by
  refine h.next hm ?_
  clear h
  have h := Keeps.refl (M := 0x512) a0
  unfold State.raise
  repeat' first
    | with_reducible first
        | assumption | refine State.raiseAt_keeps (by decide) ?_ | dsimp only

theorem State.draw_keeps {M : Nat} {r : State} {a0 a1} (hm : 0x4 ||| M = M) (h : Keeps M r a0) :
    Keeps M r (State.draw a0 a1).2 := by
  refine h.next hm ?_
  clear h
  have h := Keeps.refl (M := 0x4) a0
  unfold State.draw
  repeat' first
    | with_reducible first
        | assumption | dsimp only
  all_goals with_reducible refine Keeps.upd ?_
  all_goals (repeat' first
    | with_reducible first
        | assumption | dsimp only)

theorem State.setCond_keeps {M : Nat} {r : State} {a0 a1 a2} (hm : 0x1000 ||| M = M) (h : Keeps M r a0) :
    Keeps M r (State.setCond a0 a1 a2) := by
  refine h.next hm ?_
  clear h
  have h := Keeps.refl (M := 0x1000) a0
  unfold State.setCond
  repeat' first
    | with_reducible first
        | assumption | dsimp only
  all_goals with_reducible refine Keeps.upd ?_
  all_goals (repeat' first
    | with_reducible first
        | assumption | dsimp only)

theorem State.setWork_keeps {M : Nat} {r : State} {a0 a1 a2} (hm : 0x80 ||| M = M) (h : Keeps M r a0) :
    Keeps M r (State.setWork a0 a1 a2) := by
  refine h.next hm ?_
  clear h
  have h := Keeps.refl (M := 0x80) a0
  unfold State.setWork
  repeat' first
    | with_reducible first
        | assumption | dsimp only
  all_goals with_reducible refine Keeps.upd ?_
  all_goals (repeat' first
    | with_reducible first
        | assumption | dsimp only)

theorem State.setExt_keeps {M : Nat} {r : State} {a0 a1 a2} (hm : 0x80 ||| M = M) (h : Keeps M r a0) :
    Keeps M r (State.setExt a0 a1 a2) := by
  refine h.next hm ?_
  clear h
  have h := Keeps.refl (M := 0x80) a0
  unfold State.setExt
  repeat' first
    | with_reducible first
        | assumption | dsimp only
  all_goals with_reducible refine Keeps.upd ?_
  all_goals (repeat' first
    | with_reducible first
        | assumption | dsimp only)

theorem State.setPoint_keeps {M : Nat} {r : State} {a0 a1 a2} (hm : 0x80 ||| M = M) (h : Keeps M r a0) :
    Keeps M r (State.setPoint a0 a1 a2) := by
  refine h.next hm ?_
  clear h
  have h := Keeps.refl (M := 0x80) a0
  unfold State.setPoint
  repeat' first
    | with_reducible first
        | assumption | refine State.setWork_keeps (by decide) ?_ | dsimp only

theorem State.accessError_keeps {M : Nat} {r : State} {a0 a1 a2} (hm : 0x512 ||| M = M) (h : Keeps M r a0) :
    Keeps M r (State.accessError a0 a1 a2) := by
  refine h.next hm ?_
  clear h
  have h := Keeps.refl (M := 0x512) a0
  unfold State.accessError
  repeat' first
    | with_reducible first
        | assumption | refine Keeps.ite ?_ ?_ | refine State.wr_keeps (by decide) ?_ | refine State.count_keeps (by decide) ?_
        | refine State.raise_keeps (by decide) ?_ | dsimp only
    | split

theorem State.rejectWrite_keeps {M : Nat} {r : State} {a0 a1} (hm : 0x512 ||| M = M) (h : Keeps M r a0) :
    Keeps M r (State.rejectWrite a0 a1) := by
  refine h.next hm ?_
  clear h
  have h := Keeps.refl (M := 0x512) a0
  unfold State.rejectWrite
  repeat' first
    | with_reducible first
        | assumption | refine State.raise_keeps (by decide) ?_ | refine State.count_keeps (by decide) ?_ | dsimp only

theorem State.setPub_keeps {M : Nat} {r : State} {a0 a1 a2} (hm : 0x80000080 ||| M = M) (h : Keeps M r a0) :
    Keeps M r (State.setPub a0 a1 a2) := by
  refine h.next hm ?_
  clear h
  have h := Keeps.refl (M := 0x80000080) a0
  unfold State.setPub
  repeat' first
    | with_reducible first
        | assumption | dsimp only
  all_goals with_reducible refine Keeps.upd ?_
  all_goals (repeat' first
    | with_reducible first
        | assumption | dsimp only)

theorem State.setLive_keeps {M : Nat} {r : State} {a0 a1 a2 a3} (hm : 0x80 ||| M = M) (h : Keeps M r a0) :
    Keeps M r (State.setLive a0 a1 a2 a3) := by
  refine h.next hm ?_
  clear h
  have h := Keeps.refl (M := 0x80) a0
  unfold State.setLive
  repeat' first
    | with_reducible first
        | assumption | refine State.setWork_keeps (by decide) ?_ | dsimp only

theorem State.wrPair_keeps {M : Nat} {r : State} {a0 a1 a2 a3 a4} (hm : 0x10 ||| M = M) (h : Keeps M r a0) :
    Keeps M r (State.wrPair a0 a1 a2 a3 a4) := by
  refine h.next hm ?_
  clear h
  have h := Keeps.refl (M := 0x10) a0
  unfold State.wrPair
  repeat' first
    | with_reducible first
        | assumption | refine State.wr_keeps (by decide) ?_ | dsimp only

theorem State.clearFields_keeps {M : Nat} {r : State} {a0 a1} (hm : 0x10 ||| M = M) (h : Keeps M r a0) :
    Keeps M r (State.clearFields a0 a1) := by
  refine h.next hm ?_
  clear h
  have h := Keeps.refl (M := 0x10) a0
  unfold State.clearFields
  repeat' first
    | with_reducible first
        | assumption | dsimp only
  all_goals with_reducible refine Keeps.upd ?_
  all_goals (repeat' first
    | with_reducible first
        | assumption | dsimp only)

theorem State.hostStore_keeps {M : Nat} {r : State} {a0 a1 a2} (hm : 0x400 ||| M = M) (h : Keeps M r a0) :
    Keeps M r (State.hostStore a0 a1 a2) := by
  refine h.next hm ?_
  clear h
  have h := Keeps.refl (M := 0x400) a0
  unfold State.hostStore
  repeat' first
    | with_reducible first
        | assumption | dsimp only
  all_goals with_reducible refine Keeps.upd ?_
  all_goals (repeat' first
    | with_reducible first
        | assumption | dsimp only)

theorem State.pulseCond_keeps {M : Nat} {r : State} {a0 a1 a2} (hm : 0x1000 ||| M = M) (h : Keeps M r a0) :
    Keeps M r (State.pulseCond a0 a1 a2) := by
  refine h.next hm ?_
  clear h
  have h := Keeps.refl (M := 0x1000) a0
  unfold State.pulseCond
  repeat' first
    | with_reducible first
        | assumption | dsimp only
  all_goals with_reducible refine Keeps.upd ?_
  all_goals (repeat' first
    | with_reducible first
        | assumption | dsimp only)

theorem State.setCondData_keeps {M : Nat} {r : State} {a0 a1 a2 a3} (hm : 0x1000 ||| M = M) (h : Keeps M r a0) :
    Keeps M r (State.setCondData a0 a1 a2 a3) := by
  refine h.next hm ?_
  clear h
  have h := Keeps.refl (M := 0x1000) a0
  unfold State.setCondData
  repeat' first
    | with_reducible first
        | assumption | dsimp only
  all_goals with_reducible refine Keeps.upd ?_
  all_goals (repeat' first
    | with_reducible first
        | assumption | dsimp only)

theorem State.setFloat_keeps {M : Nat} {r : State} {a0 a1 a2} (hm : 0x80 ||| M = M) (h : Keeps M r a0) :
    Keeps M r (State.setFloat a0 a1 a2) := by
  refine h.next hm ?_
  clear h
  have h := Keeps.refl (M := 0x80) a0
  unfold State.setFloat
  repeat' first
    | with_reducible first
        | assumption | refine State.setPoint_keeps (by decide) ?_ | dsimp only

end Sys2Proof.Machine
end

