-- ==== Sys2Proof/Laws/KeepsArb.lean ====
section
/-! SUPPORT. What each operation of Machine/Arb.lean keeps (Laws/Keeps.lean). -/

set_option Elab.async false

namespace Sys2Proof.Machine

theorem State.arbAt_keeps {M : Nat} {r : State} {a0 a1} (hm : 0x200000000 ||| M = M) (h : Keeps M r a0) :
    Keeps M r (State.arbAt a0 a1) := by
  refine h.next hm ?_
  clear h
  have h := Keeps.refl (M := 0x200000000) a0
  unfold State.arbAt
  repeat' first
    | with_reducible first
        | assumption | dsimp only
  all_goals with_reducible refine Keeps.upd ?_
  all_goals (repeat' first
    | with_reducible first
        | assumption | dsimp only)

theorem State.arbWaited_keeps {M : Nat} {r : State} {a0 a1 a2} (hm : 0x10 ||| M = M) (h : Keeps M r a0) :
    Keeps M r (State.arbWaited a0 a1 a2) := by
  refine h.next hm ?_
  clear h
  have h := Keeps.refl (M := 0x10) a0
  unfold State.arbWaited
  repeat' first
    | with_reducible first
        | assumption | refine State.wr_keeps (by decide) ?_ | dsimp only
    | split

theorem State.setBank_keeps {M : Nat} {r : State} {a0 a1 a2} (hm : 0x200000000 ||| M = M) (h : Keeps M r a0) :
    Keeps M r (State.setBank a0 a1 a2) := by
  refine h.next hm ?_
  clear h
  have h := Keeps.refl (M := 0x200000000) a0
  unfold State.setBank
  repeat' first
    | with_reducible first
        | assumption | dsimp only
  all_goals with_reducible refine Keeps.upd ?_
  all_goals (repeat' first
    | with_reducible first
        | assumption | dsimp only)

theorem State.arbBegin_keeps {M : Nat} {r : State} {a0 a1 a2} (hm : 0x200000010 ||| M = M) (h : Keeps M r a0) :
    Keeps M r (State.arbBegin a0 a1 a2) := by
  refine h.next hm ?_
  clear h
  have h := Keeps.refl (M := 0x200000010) a0
  unfold State.arbBegin
  repeat' first
    | with_reducible first
        | assumption | refine Keeps.ite ?_ ?_ | refine State.arbWaited_keeps (by decide) ?_
        | refine State.setBank_keeps (by decide) ?_ | refine State.count_keeps (by decide) ?_ | dsimp only
    | split
  all_goals with_reducible refine Keeps.upd ?_
  all_goals (repeat' first
    | with_reducible first
        | assumption | refine Keeps.ite ?_ ?_ | refine State.arbWaited_keeps (by decide) ?_
        | refine State.setBank_keeps (by decide) ?_ | refine State.count_keeps (by decide) ?_ | dsimp only
    | split)

theorem State.arbChoose_keeps {M : Nat} {r : State} {a0 a1 a2} (hm : 0x200000000 ||| M = M) (h : Keeps M r a0) :
    Keeps M r (State.arbChoose a0 a1 a2) := by
  refine h.next hm ?_
  clear h
  have h := Keeps.refl (M := 0x200000000) a0
  unfold State.arbChoose
  repeat' first
    | with_reducible first
        | assumption | refine Keeps.ite ?_ ?_ | refine State.setBank_keeps (by decide) ?_ | dsimp only
    | split

theorem State.arbCycle_keeps {M : Nat} {r : State} {a0 a1} (hm : 0x200000010 ||| M = M) (h : Keeps M r a0) :
    Keeps M r (State.arbCycle a0 a1) := by
  refine h.next hm ?_
  clear h
  have h := Keeps.refl (M := 0x200000010) a0
  unfold State.arbCycle
  repeat' first
    | with_reducible first
        | assumption | refine State.arbChoose_keeps (by decide) ?_ | refine State.arbBegin_keeps (by decide) ?_
        | refine Keeps.foldl ?_ (fun _ _ _ => ?_) | dsimp only

theorem State.arbRun_keeps {M : Nat} {r : State} {a0 a1 a2} (hm : 0x200000010 ||| M = M) (h : Keeps M r a0) :
    Keeps M r (State.arbRun a0 a1 a2) := by
  refine h.next hm ?_
  clear h hm
  induction a2 generalizing a0 a1 with
  | zero =>
    have h := Keeps.refl (M := 0x200000010) a0
    unfold State.arbRun
    repeat' first
      | with_reducible first
          | assumption | refine Keeps.ite ?_ ?_ | refine State.arbAt_keeps (by decide) ?_
          | refine State.arbCycle_keeps (by decide) ?_ | dsimp only | refine Keeps.trans ?_ (ih ..)
      | split
  | succ _ ih =>
    have h := Keeps.refl (M := 0x200000010) a0
    unfold State.arbRun
    repeat' first
      | with_reducible first
          | assumption | refine Keeps.ite ?_ ?_ | refine State.arbAt_keeps (by decide) ?_
          | refine State.arbCycle_keeps (by decide) ?_ | dsimp only | refine Keeps.trans ?_ (ih ..)
      | split

theorem State.arbitrate_keeps {M : Nat} {r : State} {a0} (hm : 0x200000010 ||| M = M) (h : Keeps M r a0) :
    Keeps M r (State.arbitrate a0) := by
  refine h.next hm ?_
  clear h
  have h := Keeps.refl (M := 0x200000010) a0
  unfold State.arbitrate
  repeat' first
    | with_reducible first
        | assumption | refine State.arbRun_keeps (by decide) ?_ | dsimp only

theorem State.withdraw_keeps {M : Nat} {r : State} {a0 a1} (hm : 0x200000000 ||| M = M) (h : Keeps M r a0) :
    Keeps M r (State.withdraw a0 a1) := by
  refine h.next hm ?_
  clear h
  have h := Keeps.refl (M := 0x200000000) a0
  unfold State.withdraw
  repeat' first
    | with_reducible first
        | assumption | dsimp only
  all_goals with_reducible refine Keeps.upd ?_
  all_goals (repeat' first
    | with_reducible first
        | assumption | dsimp only)

theorem State.ask_keeps {M : Nat} {r : State} {a0 a1 a2 a3 a4} (hm : 0x200000000 ||| M = M) (h : Keeps M r a0) :
    Keeps M r (State.ask a0 a1 a2 a3 a4) := by
  refine h.next hm ?_
  clear h
  have h := Keeps.refl (M := 0x200000000) a0
  unfold State.ask
  repeat' first
    | with_reducible first
        | assumption | dsimp only
  all_goals with_reducible refine Keeps.upd ?_
  all_goals (repeat' first
    | with_reducible first
        | assumption | dsimp only)

theorem State.askBench_keeps {M : Nat} {r : State} {a0 a1} (hm : 0x200000000 ||| M = M) (h : Keeps M r a0) :
    Keeps M r (State.askBench a0 a1) := by
  refine h.next hm ?_
  clear h
  have h := Keeps.refl (M := 0x200000000) a0
  unfold State.askBench
  repeat' first
    | with_reducible first
        | assumption | dsimp only
  all_goals with_reducible refine Keeps.upd ?_
  all_goals (repeat' first
    | with_reducible first
        | assumption | dsimp only)

theorem State.askPoints_keeps {M : Nat} {r : State} {a0 a1 a2} (hm : 0x200000000 ||| M = M) (h : Keeps M r a0) :
    Keeps M r (State.askPoints a0 a1 a2) := by
  refine h.next hm ?_
  clear h
  have h := Keeps.refl (M := 0x200000000) a0
  unfold State.askPoints
  repeat' first
    | with_reducible first
        | assumption | refine State.ask_keeps (by decide) ?_ | dsimp only

end Sys2Proof.Machine
end

