-- ==== Sys2Proof/Laws/KeepsArm.lean ====
section
/-! SUPPORT. What each operation of Machine/Arm.lean keeps (Laws/Keeps.lean). -/

set_option Elab.async false

namespace Sys2Proof.Machine

theorem State.modArm_keeps {M : Nat} {r : State} {a0 a1 a2} (hm : 0x4000 ||| M = M) (h : Keeps M r a0) :
    Keeps M r (State.modArm a0 a1 a2) := by
  refine h.next hm ?_
  clear h
  have h := Keeps.refl (M := 0x4000) a0
  unfold State.modArm
  repeat' first
    | with_reducible first
        | assumption | dsimp only
  all_goals with_reducible refine Keeps.upd ?_
  all_goals (repeat' first
    | with_reducible first
        | assumption | dsimp only)

theorem State.modCell_keeps {M : Nat} {r : State} {a0 a1 a2} (hm : 0x8000 ||| M = M) (h : Keeps M r a0) :
    Keeps M r (State.modCell a0 a1 a2) := by
  refine h.next hm ?_
  clear h
  have h := Keeps.refl (M := 0x8000) a0
  unfold State.modCell
  repeat' first
    | with_reducible first
        | assumption | dsimp only
  all_goals with_reducible refine Keeps.upd ?_
  all_goals (repeat' first
    | with_reducible first
        | assumption | dsimp only)

theorem State.modUnit_keeps {M : Nat} {r : State} {a0 a1 a2} (hm : 0x20000 ||| M = M) (h : Keeps M r a0) :
    Keeps M r (State.modUnit a0 a1 a2) := by
  refine h.next hm ?_
  clear h
  have h := Keeps.refl (M := 0x20000) a0
  unfold State.modUnit
  repeat' first
    | with_reducible first
        | assumption | dsimp only
  all_goals with_reducible refine Keeps.upd ?_
  all_goals (repeat' first
    | with_reducible first
        | assumption | dsimp only)

theorem State.armBlockNow_keeps {M : Nat} {r : State} {a0 a1 a2} (hm : 0x24512 ||| M = M) (h : Keeps M r a0) :
    Keeps M r (State.armBlockNow a0 a1 a2) := by
  refine h.next hm ?_
  clear h
  have h := Keeps.refl (M := 0x24512) a0
  unfold State.armBlockNow
  repeat' first
    | with_reducible first
        | assumption | refine Keeps.ite ?_ ?_ | refine State.modUnit_keeps (by decide) ?_
        | refine State.modArm_keeps (by decide) ?_ | refine State.raise_keeps (by decide) ?_
        | refine State.wr_keeps (by decide) ?_ | dsimp only
    | split

theorem State.modLane_keeps {M : Nat} {r : State} {a0 a1 a2} (hm : 0x10000 ||| M = M) (h : Keeps M r a0) :
    Keeps M r (State.modLane a0 a1 a2) := by
  refine h.next hm ?_
  clear h
  have h := Keeps.refl (M := 0x10000) a0
  unfold State.modLane
  repeat' first
    | with_reducible first
        | assumption | dsimp only
  all_goals with_reducible refine Keeps.upd ?_
  all_goals (repeat' first
    | with_reducible first
        | assumption | dsimp only)

theorem State.armHold_keeps {M : Nat} {r : State} {a0 a1} (hm : 0x512 ||| M = M) (h : Keeps M r a0) :
    Keeps M r (State.armHold a0 a1) := by
  refine h.next hm ?_
  clear h
  have h := Keeps.refl (M := 0x512) a0
  unfold State.armHold
  repeat' first
    | with_reducible first
        | assumption | refine Keeps.ite ?_ ?_ | refine State.raise_keeps (by decide) ?_ | refine State.wr_keeps (by decide) ?_
        | dsimp only
    | split

theorem State.armStop_keeps {M : Nat} {r : State} {a0 a1} (hm : 0x512 ||| M = M) (h : Keeps M r a0) :
    Keeps M r (State.armStop a0 a1) := by
  refine h.next hm ?_
  clear h
  have h := Keeps.refl (M := 0x512) a0
  unfold State.armStop
  repeat' first
    | with_reducible first
        | assumption | refine Keeps.ite ?_ ?_ | refine State.raise_keeps (by decide) ?_ | refine State.wr_keeps (by decide) ?_
        | dsimp only
    | split

theorem State.setBoth_keeps {M : Nat} {r : State} {a0 a1 a2} (hm : 0x80000080 ||| M = M) (h : Keeps M r a0) :
    Keeps M r (State.setBoth a0 a1 a2) := by
  refine h.next hm ?_
  clear h
  have h := Keeps.refl (M := 0x80000080) a0
  unfold State.setBoth
  repeat' first
    | with_reducible first
        | assumption | refine State.setWork_keeps (by decide) ?_ | refine State.setPub_keeps (by decide) ?_ | dsimp only

theorem State.cmdOff_keeps {M : Nat} {r : State} {a0 a1 a2 a3} (hm : 0x8000 ||| M = M) (h : Keeps M r a0) :
    Keeps M r (State.cmdOff a0 a1 a2 a3) := by
  refine h.next hm ?_
  clear h
  have h := Keeps.refl (M := 0x8000) a0
  unfold State.cmdOff
  repeat' first
    | with_reducible first
        | assumption | refine State.modCell_keeps (by decide) ?_ | dsimp only

theorem State.cmdPlain_keeps {M : Nat} {r : State} {a0 a1 a2 a3} (hm : 0x8000 ||| M = M) (h : Keeps M r a0) :
    Keeps M r (State.cmdPlain a0 a1 a2 a3) := by
  refine h.next hm ?_
  clear h
  have h := Keeps.refl (M := 0x8000) a0
  unfold State.cmdPlain
  repeat' first
    | with_reducible first
        | assumption | refine State.modCell_keeps (by decide) ?_ | dsimp only

theorem State.cmdKeep_keeps {M : Nat} {r : State} {a0 a1 a2 a3} (hm : 0x8000 ||| M = M) (h : Keeps M r a0) :
    Keeps M r (State.cmdKeep a0 a1 a2 a3) := by
  refine h.next hm ?_
  clear h
  have h := Keeps.refl (M := 0x8000) a0
  unfold State.cmdKeep
  repeat' first
    | with_reducible first
        | assumption | refine State.modCell_keeps (by decide) ?_ | dsimp only

theorem State.cmdSet_keeps {M : Nat} {r : State} {a0 a1 a2 a3 a4 a5} (hm : 0x8000 ||| M = M) (h : Keeps M r a0) :
    Keeps M r (State.cmdSet a0 a1 a2 a3 a4 a5) := by
  refine h.next hm ?_
  clear h
  have h := Keeps.refl (M := 0x8000) a0
  unfold State.cmdSet
  repeat' first
    | with_reducible first
        | assumption | refine Keeps.ite ?_ ?_ | refine State.modCell_keeps (by decide) ?_ | dsimp only
    | split

theorem State.hostRetired_keeps {M : Nat} {r : State} {a0 a1} (hm : 0x4010 ||| M = M) (h : Keeps M r a0) :
    Keeps M r (State.hostRetired a0 a1) := by
  refine h.next hm ?_
  clear h
  have h := Keeps.refl (M := 0x4010) a0
  unfold State.hostRetired
  repeat' first
    | with_reducible first
        | assumption | refine State.wr_keeps (by decide) ?_ | refine State.modArm_keeps (by decide) ?_ | dsimp only

theorem State.takeWindow_keeps {M : Nat} {r : State} {a0 a1 a2 a3} (hm : 0x4512 ||| M = M) (h : Keeps M r a0) :
    Keeps M r (State.takeWindow a0 a1 a2 a3) := by
  refine h.next hm ?_
  clear h
  have h := Keeps.refl (M := 0x4512) a0
  unfold State.takeWindow
  repeat' first
    | with_reducible first
        | assumption | refine Keeps.ite ?_ ?_ | refine State.modArm_keeps (by decide) ?_
        | refine State.raise_keeps (by decide) ?_ | dsimp only
    | split

theorem State.armWindow_keeps {M : Nat} {r : State} {a0 a1} (hm : 0x4512 ||| M = M) (h : Keeps M r a0) :
    Keeps M r (State.armWindow a0 a1) := by
  refine h.next hm ?_
  clear h
  have h := Keeps.refl (M := 0x4512) a0
  unfold State.armWindow
  repeat' first
    | with_reducible first
        | assumption | refine State.takeWindow_keeps (by decide) ?_ | dsimp only

theorem State.advanceGrid_keeps {M : Nat} {r : State} {a0 a1} (hm : 0x4000 ||| M = M) (h : Keeps M r a0) :
    Keeps M r (State.advanceGrid a0 a1) := by
  refine h.next hm ?_
  clear h
  have h := Keeps.refl (M := 0x4000) a0
  unfold State.advanceGrid
  repeat' first
    | with_reducible first
        | assumption | refine Keeps.ite ?_ ?_ | refine State.modArm_keeps (by decide) ?_ | dsimp only
    | split

theorem State.bump_keeps {M : Nat} {r : State} {a0 a1 a2} (hm : 0x40 ||| M = M) (h : Keeps M r a0) :
    Keeps M r (State.bump a0 a1 a2) := by
  refine h.next hm ?_
  clear h
  have h := Keeps.refl (M := 0x40) a0
  unfold State.bump
  repeat' first
    | with_reducible first
        | assumption | dsimp only
  all_goals with_reducible refine Keeps.upd ?_
  all_goals (repeat' first
    | with_reducible first
        | assumption | dsimp only)

theorem State.armBlock_keeps {M : Nat} {r : State} {a0 a1 a2} (hm : 0x4010 ||| M = M) (h : Keeps M r a0) :
    Keeps M r (State.armBlock a0 a1 a2) := by
  refine h.next hm ?_
  clear h
  have h := Keeps.refl (M := 0x4010) a0
  unfold State.armBlock
  repeat' first
    | with_reducible first
        | assumption | refine Keeps.ite ?_ ?_ | refine State.modArm_keeps (by decide) ?_
        | refine State.wr_keeps (by decide) ?_ | dsimp only
    | split

theorem State.rebaseCarrier_keeps {M : Nat} {r : State} {a0 a1} (hm : 0x4000 ||| M = M) (h : Keeps M r a0) :
    Keeps M r (State.rebaseCarrier a0 a1) := by
  refine h.next hm ?_
  clear h
  have h := Keeps.refl (M := 0x4000) a0
  unfold State.rebaseCarrier
  repeat' first
    | with_reducible first
        | assumption | refine Keeps.ite ?_ ?_ | refine State.modArm_keeps (by decide) ?_ | dsimp only
    | split

theorem State.armCommits_keeps {M : Nat} {r : State} {a0 a1 a2 a3} (hm : 0x4512 ||| M = M) (h : Keeps M r a0) :
    Keeps M r (State.armCommits a0 a1 a2 a3) := by
  refine h.next hm ?_
  clear h
  have h := Keeps.refl (M := 0x4512) a0
  unfold State.armCommits
  repeat' first
    | with_reducible first
        | assumption | refine Keeps.ite ?_ ?_ | refine State.takeWindow_keeps (by decide) ?_
        | refine State.rebaseCarrier_keeps (by decide) ?_ | refine State.wr_keeps (by decide) ?_
        | refine State.modArm_keeps (by decide) ?_ | refine Keeps.foldl ?_ (fun _ _ _ => ?_)
        | refine Keeps.foldl_fst ?_ (fun _ _ _ => ?_) | refine Keeps.foldl_snd ?_ (fun _ _ _ => ?_) | dsimp only
    | split

theorem State.startCarrier_keeps {M : Nat} {r : State} {a0 a1} (hm : 0x4000 ||| M = M) (h : Keeps M r a0) :
    Keeps M r (State.startCarrier a0 a1) := by
  refine h.next hm ?_
  clear h
  have h := Keeps.refl (M := 0x4000) a0
  unfold State.startCarrier
  repeat' first
    | with_reducible first
        | assumption | refine State.modArm_keeps (by decide) ?_ | dsimp only

theorem State.armDeblock_keeps {M : Nat} {r : State} {a0 a1} (hm : 0x4010 ||| M = M) (h : Keeps M r a0) :
    Keeps M r (State.armDeblock a0 a1) := by
  refine h.next hm ?_
  clear h
  have h := Keeps.refl (M := 0x4010) a0
  unfold State.armDeblock
  repeat' first
    | with_reducible first
        | assumption | refine Keeps.ite ?_ ?_ | refine State.wr_keeps (by decide) ?_
        | refine State.modArm_keeps (by decide) ?_ | refine State.startCarrier_keeps (by decide) ?_ | dsimp only
    | split

theorem State.armGoal_keeps {M : Nat} {r : State} {a0 a1} (hm : 0x4512 ||| M = M) (h : Keeps M r a0) :
    Keeps M r (State.armGoal a0 a1) := by
  refine h.next hm ?_
  clear h
  have h := Keeps.refl (M := 0x4512) a0
  unfold State.armGoal
  repeat' first
    | with_reducible first
        | assumption | refine Keeps.ite ?_ ?_ | refine State.modArm_keeps (by decide) ?_
        | refine State.raise_keeps (by decide) ?_ | refine State.wr_keeps (by decide) ?_ | dsimp only
    | split

theorem State.cellKey_keeps {M : Nat} {r : State} {a0 a1 a2 a3 a4} (hm : 0x80008080 ||| M = M) (h : Keeps M r a0) :
    Keeps M r (State.cellKey a0 a1 a2 a3 a4).1 := by
  refine h.next hm ?_
  clear h
  have h := Keeps.refl (M := 0x80008080) a0
  unfold State.cellKey
  repeat' first
    | with_reducible first
        | assumption | refine Keeps.ite ?_ ?_ | refine Keeps.ite_fst ?_ ?_ | refine Keeps.ite_snd ?_ ?_
        | refine State.modCell_keeps (by decide) ?_ | refine State.setBoth_keeps (by decide) ?_ | dsimp only
    | split

theorem State.armKeys_keeps {M : Nat} {r : State} {a0 a1 a2 a3 a4 a5} (hm : 0x80008080 ||| M = M) (h : Keeps M r a0) :
    Keeps M r (State.armKeys a0 a1 a2 a3 a4 a5).1 := by
  refine h.next hm ?_
  clear h hm
  induction a4 generalizing a0 a1 a2 a3 a5 with
  | nil =>
    have h := Keeps.refl (M := 0x80008080) a0
    unfold State.armKeys
    repeat' first
      | with_reducible assumption
      | split
  | cons _ _ ih =>
    have h := Keeps.refl (M := 0x80008080) a0
    unfold State.armKeys
    repeat' first
      | with_reducible first
          | assumption | refine Keeps.ite ?_ ?_ | refine Keeps.ite_fst ?_ ?_ | refine Keeps.ite_snd ?_ ?_
          | refine State.cellKey_keeps (by decide) ?_ | dsimp only | refine Keeps.trans ?_ (ih ..)
      | split
      | (cases ‹_ :: _ = _ :: _›; with_reducible refine Keeps.trans ?_ (ih ..))

theorem State.armMode_keeps {M : Nat} {r : State} {a0 a1} (hm : 0x4010 ||| M = M) (h : Keeps M r a0) :
    Keeps M r (State.armMode a0 a1) := by
  refine h.next hm ?_
  clear h
  have h := Keeps.refl (M := 0x4010) a0
  unfold State.armMode
  repeat' first
    | with_reducible first
        | assumption | refine Keeps.ite ?_ ?_ | refine State.modArm_keeps (by decide) ?_
        | refine State.wr_keeps (by decide) ?_ | refine State.armBlock_keeps (by decide) ?_
        | refine State.startCarrier_keeps (by decide) ?_ | dsimp only
    | split

theorem State.deblockRequest_keeps {M : Nat} {r : State} {a0 a1 a2} (hm : 0x4512 ||| M = M) (h : Keeps M r a0) :
    Keeps M r (State.deblockRequest a0 a1 a2) := by
  refine h.next hm ?_
  clear h
  have h := Keeps.refl (M := 0x4512) a0
  unfold State.deblockRequest
  repeat' first
    | with_reducible first
        | assumption | refine Keeps.ite ?_ ?_ | refine State.armDeblock_keeps (by decide) ?_
        | refine State.raise_keeps (by decide) ?_ | refine State.wr_keeps (by decide) ?_ | dsimp only
    | split

theorem State.armRequests_keeps {M : Nat} {r : State} {a0 a1 a2} (hm : 0x4512 ||| M = M) (h : Keeps M r a0) :
    Keeps M r (State.armRequests a0 a1 a2) := by
  refine h.next hm ?_
  clear h
  have h := Keeps.refl (M := 0x4512) a0
  unfold State.armRequests
  repeat' first
    | with_reducible first
        | assumption | refine Keeps.ite ?_ ?_ | refine State.modArm_keeps (by decide) ?_
        | refine State.armBlock_keeps (by decide) ?_ | refine State.raise_keeps (by decide) ?_
        | refine State.wr_keeps (by decide) ?_ | refine State.deblockRequest_keeps (by decide) ?_ | dsimp only
    | split

theorem State.retireCell_keeps {M : Nat} {r : State} {a0 a1 a2 a3} (hm : 0x8592 ||| M = M) (h : Keeps M r a0) :
    Keeps M r (State.retireCell a0 a1 a2 a3) := by
  refine h.next hm ?_
  clear h
  have h := Keeps.refl (M := 0x8592) a0
  unfold State.retireCell
  repeat' first
    | with_reducible first
        | assumption | refine Keeps.ite ?_ ?_ | refine State.modCell_keeps (by decide) ?_
        | refine State.setExt_keeps (by decide) ?_ | refine State.raise_keeps (by decide) ?_ | dsimp only
    | split

theorem State.retireOne_keeps {M : Nat} {r : State} {a0 a1 a2} (hm : 0xc592 ||| M = M) (h : Keeps M r a0) :
    Keeps M r (State.retireOne a0 a1 a2) := by
  refine h.next hm ?_
  clear h
  have h := Keeps.refl (M := 0xc592) a0
  unfold State.retireOne
  repeat' first
    | with_reducible first
        | assumption | refine Keeps.ite ?_ ?_ | refine State.retireCell_keeps (by decide) ?_
        | refine State.hostRetired_keeps (by decide) ?_ | refine State.modArm_keeps (by decide) ?_ | dsimp only
    | split

theorem State.armRetire_keeps {M : Nat} {r : State} {a0 a1} (hm : 0xc592 ||| M = M) (h : Keeps M r a0) :
    Keeps M r (State.armRetire a0 a1) := by
  refine h.next hm ?_
  clear h
  have h := Keeps.refl (M := 0xc592) a0
  unfold State.armRetire
  repeat' first
    | with_reducible first
        | assumption | refine State.retireOne_keeps (by decide) ?_ | refine State.modArm_keeps (by decide) ?_
        | refine Keeps.foldl ?_ (fun _ _ _ => ?_) | dsimp only

theorem State.armSpares_keeps {M : Nat} {r : State} {a0 a1} (hm : 0x512 ||| M = M) (h : Keeps M r a0) :
    Keeps M r (State.armSpares a0 a1) := by
  refine h.next hm ?_
  clear h
  have h := Keeps.refl (M := 0x512) a0
  unfold State.armSpares
  repeat' first
    | with_reducible first
        | assumption | refine Keeps.ite ?_ ?_ | refine State.wr_keeps (by decide) ?_ | refine State.raise_keeps (by decide) ?_
        | dsimp only
    | split

theorem State.setBothFloat_keeps {M : Nat} {r : State} {a0 a1 a2} (hm : 0x80000080 ||| M = M) (h : Keeps M r a0) :
    Keeps M r (State.setBothFloat a0 a1 a2) := by
  refine h.next hm ?_
  clear h
  have h := Keeps.refl (M := 0x80000080) a0
  unfold State.setBothFloat
  repeat' first
    | with_reducible first
        | assumption | refine State.setBoth_keeps (by decide) ?_ | dsimp only

theorem State.armSums_keeps {M : Nat} {r : State} {a0 a1} (hm : 0x80000592 ||| M = M) (h : Keeps M r a0) :
    Keeps M r (State.armSums a0 a1) := by
  refine h.next hm ?_
  clear h
  have h := Keeps.refl (M := 0x80000592) a0
  unfold State.armSums
  repeat' first
    | with_reducible first
        | assumption | refine Keeps.ite ?_ ?_ | refine State.raise_keeps (by decide) ?_ | refine State.wr_keeps (by decide) ?_
        | refine State.armSpares_keeps (by decide) ?_ | refine State.setBothFloat_keeps (by decide) ?_
        | refine Keeps.foldl ?_ (fun _ _ _ => ?_) | refine Keeps.foldl_fst ?_ (fun _ _ _ => ?_)
        | refine Keeps.foldl_snd ?_ (fun _ _ _ => ?_) | dsimp only
    | split

theorem State.cellApplied_keeps {M : Nat} {r : State} {a0 a1 a2} (hm : 0x8512 ||| M = M) (h : Keeps M r a0) :
    Keeps M r (State.cellApplied a0 a1 a2) := by
  refine h.next hm ?_
  clear h
  have h := Keeps.refl (M := 0x8512) a0
  unfold State.cellApplied
  repeat' first
    | with_reducible first
        | assumption | refine Keeps.ite ?_ ?_ | refine State.modCell_keeps (by decide) ?_
        | refine State.raise_keeps (by decide) ?_ | refine State.wr_keeps (by decide) ?_ | dsimp only
    | split

theorem State.modBoth_keeps {M : Nat} {r : State} {a0 a1 a2} (hm : 0x80000080 ||| M = M) (h : Keeps M r a0) :
    Keeps M r (State.modBoth a0 a1 a2) := by
  refine h.next hm ?_
  clear h
  have h := Keeps.refl (M := 0x80000080) a0
  unfold State.modBoth
  repeat' first
    | with_reducible first
        | assumption | refine State.setWork_keeps (by decide) ?_ | refine State.setPub_keeps (by decide) ?_ | dsimp only

theorem State.cellExclusion_keeps {M : Nat} {r : State} {a0 a1 a2 a3} (hm : 0x80008592 ||| M = M) (h : Keeps M r a0) :
    Keeps M r (State.cellExclusion a0 a1 a2 a3) := by
  refine h.next hm ?_
  clear h
  have h := Keeps.refl (M := 0x80008592) a0
  unfold State.cellExclusion
  repeat' first
    | with_reducible first
        | assumption | refine Keeps.ite ?_ ?_ | refine State.modCell_keeps (by decide) ?_
        | refine State.modBoth_keeps (by decide) ?_ | refine State.raise_keeps (by decide) ?_ | dsimp only
    | split

theorem State.cellFlags_keeps {M : Nat} {r : State} {a0 a1} (hm : 0x800000c0 ||| M = M) (h : Keeps M r a0) :
    Keeps M r (State.cellFlags a0 a1) := by
  refine h.next hm ?_
  clear h
  have h := Keeps.refl (M := 0x800000c0) a0
  unfold State.cellFlags
  repeat' first
    | with_reducible first
        | assumption | refine Keeps.ite ?_ ?_ | refine State.bump_keeps (by decide) ?_
        | refine State.modBoth_keeps (by decide) ?_ | refine State.setWork_keeps (by decide) ?_ | dsimp only
    | split

theorem State.armSeam_keeps {M : Nat} {r : State} {a0 a1 a2 a3} (hm : 0x8000c5d2 ||| M = M) (h : Keeps M r a0) :
    Keeps M r (State.armSeam a0 a1 a2 a3) := by
  refine h.next hm ?_
  clear h
  have h := Keeps.refl (M := 0x8000c5d2) a0
  unfold State.armSeam
  repeat' first
    | with_reducible first
        | assumption | refine Keeps.ite ?_ ?_ | refine State.armGoal_keeps (by decide) ?_
        | refine State.advanceGrid_keeps (by decide) ?_ | refine State.armCommits_keeps (by decide) ?_
        | refine State.armRetire_keeps (by decide) ?_ | refine State.cellFlags_keeps (by decide) ?_
        | refine State.cellApplied_keeps (by decide) ?_ | refine State.cellExclusion_keeps (by decide) ?_
        | refine State.armKeys_keeps (by decide) ?_ | refine State.raise_keeps (by decide) ?_
        | refine State.armSums_keeps (by decide) ?_ | refine State.armMode_keeps (by decide) ?_
        | refine State.armRequests_keeps (by decide) ?_ | refine Keeps.foldl ?_ (fun _ _ _ => ?_)
        | refine Keeps.foldl_fst ?_ (fun _ _ _ => ?_) | refine Keeps.foldl_snd ?_ (fun _ _ _ => ?_) | dsimp only
    | split

theorem State.queueRetire_keeps {M : Nat} {r : State} {a0 a1 a2 a3 a4} (hm : 0x4000 ||| M = M) (h : Keeps M r a0) :
    Keeps M r (State.queueRetire a0 a1 a2 a3 a4) := by
  refine h.next hm ?_
  clear h
  have h := Keeps.refl (M := 0x4000) a0
  unfold State.queueRetire
  repeat' first
    | with_reducible first
        | assumption | refine Keeps.ite ?_ ?_ | refine State.modArm_keeps (by decide) ?_ | dsimp only
    | split

theorem State.retireByReaction_keeps {M : Nat} {r : State} {a0 a1 a2} (hm : 0x4512 ||| M = M) (h : Keeps M r a0) :
    Keeps M r (State.retireByReaction a0 a1 a2) := by
  refine h.next hm ?_
  clear h
  have h := Keeps.refl (M := 0x4512) a0
  unfold State.retireByReaction
  repeat' first
    | with_reducible first
        | assumption | refine State.queueRetire_keeps (by decide) ?_ | refine State.raise_keeps (by decide) ?_ | dsimp only
    | split

theorem State.retireRefused_keeps {M : Nat} {r : State} {a0 a1 a2 a3} (hm : 0x512 ||| M = M) (h : Keeps M r a0) :
    Keeps M r (State.retireRefused a0 a1 a2 a3) := by
  refine h.next hm ?_
  clear h
  have h := Keeps.refl (M := 0x512) a0
  unfold State.retireRefused
  repeat' first
    | with_reducible first
        | assumption | refine State.raise_keeps (by decide) ?_ | refine State.wr_keeps (by decide) ?_ | dsimp only

theorem execRetireGo_keeps {a0 a1 a2} : KeepsO 0x4512 a2 (execRetireGo a0 a1 a2) := by
  have h := Keeps.refl (M := 0x4512) a2
  unfold execRetireGo
  repeat' first
    | with_reducible first
        | assumption | refine KeepsO.next ?_ | exact KeepsO.refused | refine KeepsO.byHost ?_ | refine KeepsO.ite ?_ ?_
        | refine Keeps.ite ?_ ?_ | refine State.retireRefused_keeps (by decide) ?_ | refine State.wr_keeps (by decide) ?_
        | refine State.queueRetire_keeps (by decide) ?_ | dsimp only
    | split

end Sys2Proof.Machine
end

