-- ==== Sys2Proof/Laws/KeepsLine.lean ====
section
/-! SUPPORT. What each operation of Machine/Line.lean keeps (Laws/Keeps.lean). -/

set_option Elab.async false

namespace Sys2Proof.Machine

theorem State.showDegraded_keeps {M : Nat} {r : State} {a0 a1} (hm : 0x10 ||| M = M) (h : Keeps M r a0) :
    Keeps M r (State.showDegraded a0 a1) := by
  refine h.next hm ?_
  clear h
  have h := Keeps.refl (M := 0x10) a0
  unfold State.showDegraded
  repeat' first
    | with_reducible first
        | assumption | refine State.wr_keeps (by decide) ?_ | dsimp only

theorem State.restriped_keeps {M : Nat} {r : State} {a0 a1} (hm : 0x512 ||| M = M) (h : Keeps M r a0) :
    Keeps M r (State.restriped a0 a1) := by
  refine h.next hm ?_
  clear h
  have h := Keeps.refl (M := 0x512) a0
  unfold State.restriped
  repeat' first
    | with_reducible first
        | assumption | refine Keeps.ite ?_ ?_ | refine State.raise_keeps (by decide) ?_
        | refine State.count_keeps (by decide) ?_ | dsimp only
    | split

theorem State.applyEq_keeps {M : Nat} {r : State} {a0 a1} (hm : 0x10000 ||| M = M) (h : Keeps M r a0) :
    Keeps M r (State.applyEq a0 a1) := by
  refine h.next hm ?_
  clear h
  have h := Keeps.refl (M := 0x10000) a0
  unfold State.applyEq
  repeat' first
    | with_reducible first
        | assumption | refine State.modLane_keeps (by decide) ?_ | dsimp only
    | split

theorem State.sendBlock_keeps {M : Nat} {r : State} {a0 a1 a2 a3} (hm : 0x10002 ||| M = M) (h : Keeps M r a0) :
    Keeps M r (State.sendBlock a0 a1 a2 a3) := by
  refine h.next hm ?_
  clear h
  have h := Keeps.refl (M := 0x10002) a0
  unfold State.sendBlock
  repeat' first
    | with_reducible first
        | assumption | refine State.modLane_keeps (by decide) ?_ | dsimp only
  all_goals with_reducible refine Keeps.upd ?_
  all_goals (repeat' first
    | with_reducible first
        | assumption | refine State.modLane_keeps (by decide) ?_ | dsimp only)

theorem State.sendAlign_keeps {M : Nat} {r : State} {a0 a1 a2 a3 a4 a5} (hm : 0x10002 ||| M = M) (h : Keeps M r a0) :
    Keeps M r (State.sendAlign a0 a1 a2 a3 a4 a5) := by
  refine h.next hm ?_
  clear h
  have h := Keeps.refl (M := 0x10002) a0
  unfold State.sendAlign
  repeat' first
    | with_reducible first
        | assumption | refine Keeps.ite ?_ ?_ | refine State.applyEq_keeps (by decide) ?_
        | refine State.modLane_keeps (by decide) ?_ | refine State.sendBlock_keeps (by decide) ?_ | dsimp only
    | split

theorem State.markerRow_keeps {M : Nat} {r : State} {a0 a1} (hm : 0x10512 ||| M = M) (h : Keeps M r a0) :
    Keeps M r (State.markerRow a0 a1) := by
  refine h.next hm ?_
  clear h
  have h := Keeps.refl (M := 0x10512) a0
  unfold State.markerRow
  repeat' first
    | with_reducible first
        | assumption | refine Keeps.ite ?_ ?_ | refine State.wr_keeps (by decide) ?_
        | refine State.showDegraded_keeps (by decide) ?_ | refine State.restriped_keeps (by decide) ?_
        | refine State.sendAlign_keeps (by decide) ?_ | refine State.modLane_keeps (by decide) ?_
        | refine Keeps.foldl ?_ (fun _ _ _ => ?_) | dsimp only
    | split

theorem State.markerDue_keeps {M : Nat} {r : State} {a0 a1} (hm : 0x10512 ||| M = M) (h : Keeps M r a0) :
    Keeps M r (State.markerDue a0 a1) := by
  refine h.next hm ?_
  clear h
  have h := Keeps.refl (M := 0x10512) a0
  unfold State.markerDue
  repeat' first
    | with_reducible first
        | assumption | refine Keeps.ite ?_ ?_ | refine State.markerRow_keeps (by decide) ?_ | dsimp only
    | split

theorem State.sendRow_keeps {M : Nat} {r : State} {a0 a1 a2} (hm : 0x10002 ||| M = M) (h : Keeps M r a0) :
    Keeps M r (State.sendRow a0 a1 a2) := by
  refine h.next hm ?_
  clear h
  have h := Keeps.refl (M := 0x10002) a0
  unfold State.sendRow
  repeat' first
    | with_reducible first
        | assumption | refine Keeps.ite ?_ ?_ | refine State.sendBlock_keeps (by decide) ?_
        | refine State.modLane_keeps (by decide) ?_ | refine Keeps.foldl ?_ (fun _ _ _ => ?_)
        | refine Keeps.foldl_fst ?_ (fun _ _ _ => ?_) | refine Keeps.foldl_snd ?_ (fun _ _ _ => ?_) | dsimp only
    | split

theorem State.sendNext_keeps {M : Nat} {r : State} {a0 a1 a2} (hm : 0x10512 ||| M = M) (h : Keeps M r a0) :
    Keeps M r (State.sendNext a0 a1 a2) := by
  refine h.next hm ?_
  clear h
  have h := Keeps.refl (M := 0x10512) a0
  unfold State.sendNext
  repeat' first
    | with_reducible first
        | assumption | refine State.markerDue_keeps (by decide) ?_ | refine State.modLane_keeps (by decide) ?_
        | refine State.sendRow_keeps (by decide) ?_ | dsimp only

theorem State.sendIdle_keeps {M : Nat} {r : State} {a0 a1 a2} (hm : 0x10512 ||| M = M) (h : Keeps M r a0) :
    Keeps M r (State.sendIdle a0 a1 a2) := by
  refine h.next hm ?_
  clear h hm
  induction a2 generalizing a0 a1 with
  | zero =>
    have h := Keeps.refl (M := 0x10512) a0
    unfold State.sendIdle
    repeat' first
      | with_reducible first
          | assumption | refine State.sendRow_keeps (by decide) ?_ | refine State.markerDue_keeps (by decide) ?_ | dsimp only
          | refine Keeps.trans ?_ (ih ..)
      | split
  | succ _ ih =>
    have h := Keeps.refl (M := 0x10512) a0
    unfold State.sendIdle
    repeat' first
      | with_reducible first
          | assumption | refine State.sendRow_keeps (by decide) ?_ | refine State.markerDue_keeps (by decide) ?_ | dsimp only
          | refine Keeps.trans ?_ (ih ..)
      | split

theorem State.sendReference_keeps {M : Nat} {r : State} {a0 a1 a2} (hm : 0x10512 ||| M = M) (h : Keeps M r a0) :
    Keeps M r (State.sendReference a0 a1 a2) := by
  refine h.next hm ?_
  clear h
  have h := Keeps.refl (M := 0x10512) a0
  unfold State.sendReference
  repeat' first
    | with_reducible first
        | assumption | refine State.markerDue_keeps (by decide) ?_ | refine State.sendRow_keeps (by decide) ?_ | dsimp only

theorem State.sendStriped_keeps {M : Nat} {r : State} {a0 a1 a2 a3} (hm : 0x10512 ||| M = M) (h : Keeps M r a0) :
    Keeps M r (State.sendStriped a0 a1 a2 a3) := by
  refine h.next hm ?_
  clear h hm
  induction a2 generalizing a0 a1 a3 with
  | zero =>
    have h := Keeps.refl (M := 0x10512) a0
    unfold State.sendStriped
    repeat' first
      | with_reducible first
          | assumption | refine Keeps.ite ?_ ?_ | refine State.markerDue_keeps (by decide) ?_
          | refine State.sendRow_keeps (by decide) ?_ | dsimp only | refine Keeps.trans ?_ (ih ..)
      | split
  | succ _ ih =>
    have h := Keeps.refl (M := 0x10512) a0
    unfold State.sendStriped
    repeat' first
      | with_reducible first
          | assumption | refine Keeps.ite ?_ ?_ | refine State.markerDue_keeps (by decide) ?_
          | refine State.sendRow_keeps (by decide) ?_ | dsimp only | refine Keeps.trans ?_ (ih ..)
      | split

theorem State.sendRows_keeps {M : Nat} {r : State} {a0 a1 a2 a3} (hm : 0x10512 ||| M = M) (h : Keeps M r a0) :
    Keeps M r (State.sendRows a0 a1 a2 a3) := by
  refine h.next hm ?_
  clear h
  have h := Keeps.refl (M := 0x10512) a0
  unfold State.sendRows
  repeat' first
    | with_reducible first
        | assumption | refine State.sendStriped_keeps (by decide) ?_ | refine State.sendReference_keeps (by decide) ?_
        | refine State.modLane_keeps (by decide) ?_ | refine Keeps.foldl ?_ (fun _ _ _ => ?_) | dsimp only

end Sys2Proof.Machine
end

