-- ==== Sys2Proof/Laws/KeepsImage.lean ====
section
/-! SUPPORT. What each operation of Machine/Image.lean keeps (Laws/Keeps.lean). -/

set_option Elab.async false

namespace Sys2Proof.Machine

theorem State.nextMsg_keeps {M : Nat} {r : State} {a0} (hm : 0x800000 ||| M = M) (h : Keeps M r a0) :
    Keeps M r (State.nextMsg a0) := by
  refine h.next hm ?_
  clear h
  have h := Keeps.refl (M := 0x800000) a0
  unfold State.nextMsg
  repeat' first
    | with_reducible first
        | assumption | dsimp only
  all_goals with_reducible refine Keeps.upd ?_
  all_goals (repeat' first
    | with_reducible first
        | assumption | dsimp only)

theorem State.sendMirror_keeps {M : Nat} {r : State} {a0 a1} (hm : 0x800002 ||| M = M) (h : Keeps M r a0) :
    Keeps M r (State.sendMirror a0 a1) := by
  refine h.next hm ?_
  clear h
  have h := Keeps.refl (M := 0x800002) a0
  unfold State.sendMirror
  repeat' first
    | with_reducible first
        | assumption | refine Keeps.ite ?_ ?_ | refine State.nextMsg_keeps (by decide) ?_ | dsimp only
    | split
  all_goals with_reducible refine Keeps.upd ?_
  all_goals (repeat' first
    | with_reducible first
        | assumption | refine Keeps.ite ?_ ?_ | refine State.nextMsg_keeps (by decide) ?_ | dsimp only
    | split)

theorem State.mirrorJob_keeps {M : Nat} {r : State} {a0 a1 a2 a3} (hm : 0x800002 ||| M = M) (h : Keeps M r a1) :
    Keeps M r (State.mirrorJob a0 a1 a2 a3) := by
  refine h.next hm ?_
  clear h
  have h := Keeps.refl (M := 0x800002) a1
  unfold State.mirrorJob
  repeat' first
    | with_reducible first
        | assumption | refine Keeps.ite ?_ ?_ | refine State.sendMirror_keeps (by decide) ?_ | dsimp only
    | split

theorem State.mirrorNote_keeps {M : Nat} {r : State} {a0 a1} (hm : 0x800002 ||| M = M) (h : Keeps M r a0) :
    Keeps M r (State.mirrorNote a0 a1) := by
  refine h.next hm ?_
  clear h
  have h := Keeps.refl (M := 0x800002) a0
  unfold State.mirrorNote
  repeat' first
    | with_reducible first
        | assumption | refine Keeps.ite ?_ ?_ | refine State.sendMirror_keeps (by decide) ?_ | dsimp only
    | split

theorem State.mirrored_keeps {M : Nat} {r : State} {a0 a1} (hm : 0x800002 ||| M = M) (h : Keeps M r a0) :
    Keeps M r (State.mirrored a0 a1) := by
  refine h.next hm ?_
  clear h
  have h := Keeps.refl (M := 0x800002) a0
  unfold State.mirrored
  repeat' first
    | with_reducible first
        | assumption | refine Keeps.ite ?_ ?_ | refine State.sendMirror_keeps (by decide) ?_ | dsimp only
    | split

theorem State.mirrorOf_keeps {M : Nat} {r : State} {a0 a1} (hm : 0x800002 ||| M = M) (h : Keeps M r a1) :
    Keeps M r (State.mirrorOf a0 a1) := by
  refine h.next hm ?_
  clear h
  have h := Keeps.refl (M := 0x800002) a1
  unfold State.mirrorOf
  repeat' first
    | with_reducible first
        | assumption | refine State.mirrored_keeps (by decide) ?_ | dsimp only

end Sys2Proof.Machine
end

