-- ==== Sys2Proof/Laws/KeepsDrv.lean ====
section
/-! SUPPORT. What each operation of Machine/Drv.lean keeps (Laws/Keeps.lean). -/

set_option Elab.async false

namespace Sys2Proof.Machine

theorem State.modDrv_keeps {M : Nat} {r : State} {a0 a1 a2} (hm : 0x40000 ||| M = M) (h : Keeps M r a0) :
    Keeps M r (State.modDrv a0 a1 a2) := by
  refine h.next hm ?_
  clear h
  have h := Keeps.refl (M := 0x40000) a0
  unfold State.modDrv
  repeat' first
    | with_reducible first
        | assumption | dsimp only
  all_goals with_reducible refine Keeps.upd ?_
  all_goals (repeat' first
    | with_reducible first
        | assumption | dsimp only)

theorem State.drvLatch_keeps {M : Nat} {r : State} {a0 a1} (hm : 0x41010 ||| M = M) (h : Keeps M r a0) :
    Keeps M r (State.drvLatch a0 a1) := by
  refine h.next hm ?_
  clear h
  have h := Keeps.refl (M := 0x41010) a0
  unfold State.drvLatch
  repeat' first
    | with_reducible first
        | assumption | refine Keeps.ite ?_ ?_ | refine State.setCond_keeps (by decide) ?_
        | refine State.wr_keeps (by decide) ?_ | refine State.modDrv_keeps (by decide) ?_ | dsimp only
    | split

theorem State.emitEdge_keeps {M : Nat} {r : State} {a0 a1 a2} (hm : 0x2 ||| M = M) (h : Keeps M r a0) :
    Keeps M r (State.emitEdge a0 a1 a2) := by
  refine h.next hm ?_
  clear h
  have h := Keeps.refl (M := 0x2) a0
  unfold State.emitEdge
  repeat' first
    | with_reducible first
        | assumption | dsimp only
  all_goals with_reducible refine Keeps.upd ?_
  all_goals (repeat' first
    | with_reducible first
        | assumption | dsimp only)

theorem State.faultLow_keeps {M : Nat} {r : State} {a0 a1 a2} (hm : 0x4 ||| M = M) (h : Keeps M r a0) :
    Keeps M r (State.faultLow a0 a1 a2).2 := by
  refine h.next hm ?_
  clear h
  have h := Keeps.refl (M := 0x4) a0
  unfold State.faultLow
  repeat' first
    | with_reducible first
        | assumption | refine State.draw_keeps (by decide) ?_ | dsimp only
    | split

theorem State.pinEdge_keeps {M : Nat} {r : State} {a0 a1 a2} (hm : 0x41016 ||| M = M) (h : Keeps M r a0) :
    Keeps M r (State.pinEdge a0 a1 a2) := by
  refine h.next hm ?_
  clear h
  have h := Keeps.refl (M := 0x41016) a0
  unfold State.pinEdge
  repeat' first
    | with_reducible first
        | assumption | refine Keeps.ite ?_ ?_ | refine State.faultLow_keeps (by decide) ?_
        | refine State.emitEdge_keeps (by decide) ?_ | refine State.modDrv_keeps (by decide) ?_
        | refine State.wr_keeps (by decide) ?_ | refine State.setCond_keeps (by decide) ?_ | dsimp only
    | split

theorem State.drvFlush_keeps {M : Nat} {r : State} {a0 a1 a2} (hm : 0x41016 ||| M = M) (h : Keeps M r a0) :
    Keeps M r (State.drvFlush a0 a1 a2) := by
  refine h.next hm ?_
  clear h
  have h := Keeps.refl (M := 0x41016) a0
  unfold State.drvFlush
  repeat' first
    | with_reducible first
        | assumption | refine State.drvLatch_keeps (by decide) ?_ | refine State.pinEdge_keeps (by decide) ?_
        | refine State.modDrv_keeps (by decide) ?_ | refine Keeps.foldl ?_ (fun _ _ _ => ?_) | dsimp only

theorem State.drvLow_keeps {M : Nat} {r : State} {a0 a1 a2} (hm : 0x41016 ||| M = M) (h : Keeps M r a0) :
    Keeps M r (State.drvLow a0 a1 a2) := by
  refine h.next hm ?_
  clear h
  have h := Keeps.refl (M := 0x41016) a0
  unfold State.drvLow
  repeat' first
    | with_reducible first
        | assumption | refine Keeps.ite ?_ ?_ | refine State.modDrv_keeps (by decide) ?_
        | refine State.drvFlush_keeps (by decide) ?_ | refine State.pinEdge_keeps (by decide) ?_ | dsimp only
    | split

theorem State.drvBlock_keeps {M : Nat} {r : State} {a0 a1 a2} (hm : 0x41516 ||| M = M) (h : Keeps M r a0) :
    Keeps M r (State.drvBlock a0 a1 a2) := by
  refine h.next hm ?_
  clear h
  have h := Keeps.refl (M := 0x41516) a0
  unfold State.drvBlock
  repeat' first
    | with_reducible first
        | assumption | refine State.modDrv_keeps (by decide) ?_ | refine State.drvLow_keeps (by decide) ?_
        | refine State.raise_keeps (by decide) ?_ | refine State.wr_keeps (by decide) ?_ | dsimp only

theorem State.drvTakeCtl_keeps {M : Nat} {r : State} {a0 a1} (hm : 0x40000 ||| M = M) (h : Keeps M r a0) :
    Keeps M r (State.drvTakeCtl a0 a1) := by
  refine h.next hm ?_
  clear h
  have h := Keeps.refl (M := 0x40000) a0
  unfold State.drvTakeCtl
  repeat' first
    | with_reducible first
        | assumption | refine Keeps.ite ?_ ?_ | refine State.modDrv_keeps (by decide) ?_ | dsimp only
    | split

theorem State.drvFix_keeps {M : Nat} {r : State} {a0 a1} (hm : 0x40000 ||| M = M) (h : Keeps M r a0) :
    Keeps M r (State.drvFix a0 a1) := by
  refine h.next hm ?_
  clear h
  have h := Keeps.refl (M := 0x40000) a0
  unfold State.drvFix
  repeat' first
    | with_reducible first
        | assumption | refine Keeps.ite ?_ ?_ | refine State.modDrv_keeps (by decide) ?_ | dsimp only
    | split

theorem State.drvPend_keeps {M : Nat} {r : State} {a0 a1 a2} (hm : 0x40512 ||| M = M) (h : Keeps M r a0) :
    Keeps M r (State.drvPend a0 a1 a2) := by
  refine h.next hm ?_
  clear h
  have h := Keeps.refl (M := 0x40512) a0
  unfold State.drvPend
  repeat' first
    | with_reducible first
        | assumption | refine Keeps.ite ?_ ?_ | refine State.wr_keeps (by decide) ?_
        | refine State.modDrv_keeps (by decide) ?_ | refine State.raise_keeps (by decide) ?_ | dsimp only
    | split

theorem State.drvRefuse_keeps {M : Nat} {r : State} {a0 a1 a2} (hm : 0x512 ||| M = M) (h : Keeps M r a0) :
    Keeps M r (State.drvRefuse a0 a1 a2) := by
  refine h.next hm ?_
  clear h
  have h := Keeps.refl (M := 0x512) a0
  unfold State.drvRefuse
  repeat' first
    | with_reducible first
        | assumption | refine State.raise_keeps (by decide) ?_ | refine State.wr_keeps (by decide) ?_ | dsimp only

theorem State.drvSource_keeps {M : Nat} {r : State} {a0 a1} (hm : 0x40512 ||| M = M) (h : Keeps M r a0) :
    Keeps M r (State.drvSource a0 a1) := by
  refine h.next hm ?_
  clear h
  have h := Keeps.refl (M := 0x40512) a0
  unfold State.drvSource
  repeat' first
    | with_reducible first
        | assumption | refine Keeps.ite ?_ ?_ | refine State.modDrv_keeps (by decide) ?_
        | refine State.wr_keeps (by decide) ?_ | refine State.drvPend_keeps (by decide) ?_
        | refine State.drvRefuse_keeps (by decide) ?_ | dsimp only
    | split

theorem State.drvDrop_keeps {M : Nat} {r : State} {a0 a1 a2 a3} (hm : 0x512 ||| M = M) (h : Keeps M r a0) :
    Keeps M r (State.drvDrop a0 a1 a2 a3) := by
  refine h.next hm ?_
  clear h
  have h := Keeps.refl (M := 0x512) a0
  unfold State.drvDrop
  repeat' first
    | with_reducible first
        | assumption | refine State.raise_keeps (by decide) ?_ | refine State.count_keeps (by decide) ?_ | dsimp only

theorem State.drvSchedule_keeps {M : Nat} {r : State} {a0 a1 a2} (hm : 0x40000 ||| M = M) (h : Keeps M r a0) :
    Keeps M r (State.drvSchedule a0 a1 a2) := by
  refine h.next hm ?_
  clear h
  have h := Keeps.refl (M := 0x40000) a0
  unfold State.drvSchedule
  repeat' first
    | with_reducible first
        | assumption | refine Keeps.ite ?_ ?_ | refine State.modDrv_keeps (by decide) ?_ | dsimp only
    | split

theorem State.drvApply_keeps {M : Nat} {r : State} {a0 a1 a2 a3 a4 a5} (hm : 0x41516 ||| M = M) (h : Keeps M r a0) :
    Keeps M r (State.drvApply a0 a1 a2 a3 a4 a5) := by
  refine h.next hm ?_
  clear h
  have h := Keeps.refl (M := 0x41516) a0
  unfold State.drvApply
  repeat' first
    | with_reducible first
        | assumption | refine Keeps.ite ?_ ?_ | refine State.drvFlush_keeps (by decide) ?_
        | refine State.drvDrop_keeps (by decide) ?_ | refine State.modDrv_keeps (by decide) ?_
        | refine State.drvSchedule_keeps (by decide) ?_ | dsimp only
    | split

theorem State.drvStatic_keeps {M : Nat} {r : State} {a0 a1 a2} (hm : 0x41516 ||| M = M) (h : Keeps M r a0) :
    Keeps M r (State.drvStatic a0 a1 a2) := by
  refine h.next hm ?_
  clear h
  have h := Keeps.refl (M := 0x41516) a0
  unfold State.drvStatic
  repeat' first
    | with_reducible first
        | assumption | refine State.drvApply_keeps (by decide) ?_ | refine State.modDrv_keeps (by decide) ?_ | dsimp only

theorem State.drvTakeMode_keeps {M : Nat} {r : State} {a0 a1 a2 a3 a4} (hm : 0x41516 ||| M = M) (h : Keeps M r a0) :
    Keeps M r (State.drvTakeMode a0 a1 a2 a3 a4) := by
  refine h.next hm ?_
  clear h
  have h := Keeps.refl (M := 0x41516) a0
  unfold State.drvTakeMode
  repeat' first
    | with_reducible first
        | assumption | refine Keeps.ite ?_ ?_ | refine State.modDrv_keeps (by decide) ?_
        | refine State.drvRefuse_keeps (by decide) ?_ | refine State.wr_keeps (by decide) ?_
        | refine State.drvTakeCtl_keeps (by decide) ?_ | refine State.drvLow_keeps (by decide) ?_
        | refine State.drvStatic_keeps (by decide) ?_ | dsimp only
    | split

theorem State.drvSeam_keeps {M : Nat} {r : State} {a0 a1} (hm : 0x41516 ||| M = M) (h : Keeps M r a0) :
    Keeps M r (State.drvSeam a0 a1) := by
  refine h.next hm ?_
  clear h
  have h := Keeps.refl (M := 0x41516) a0
  unfold State.drvSeam
  repeat' first
    | with_reducible first
        | assumption | refine Keeps.ite ?_ ?_ | refine State.drvSource_keeps (by decide) ?_
        | refine State.drvFix_keeps (by decide) ?_ | refine State.drvFlush_keeps (by decide) ?_
        | refine State.drvTakeCtl_keeps (by decide) ?_ | refine State.modDrv_keeps (by decide) ?_
        | refine State.drvTakeMode_keeps (by decide) ?_ | refine State.drvStatic_keeps (by decide) ?_ | dsimp only
    | split

theorem State.drvCatchUp_keeps {M : Nat} {r : State} {a0} (hm : 0x41016 ||| M = M) (h : Keeps M r a0) :
    Keeps M r (State.drvCatchUp a0) := by
  refine h.next hm ?_
  clear h
  have h := Keeps.refl (M := 0x41016) a0
  unfold State.drvCatchUp
  repeat' first
    | with_reducible first
        | assumption | refine State.drvFlush_keeps (by decide) ?_ | refine Keeps.foldl ?_ (fun _ _ _ => ?_) | dsimp only

theorem State.drvInstall_keeps {M : Nat} {r : State} {a0 a1} (hm : 0x40000 ||| M = M) (h : Keeps M r a0) :
    Keeps M r (State.drvInstall a0 a1) := by
  refine h.next hm ?_
  clear h
  have h := Keeps.refl (M := 0x40000) a0
  unfold State.drvInstall
  repeat' first
    | with_reducible first
        | assumption | refine Keeps.ite ?_ ?_ | refine State.modDrv_keeps (by decide) ?_ | dsimp only
    | split

theorem State.drvInterlock_keeps {M : Nat} {r : State} {a0 a1 a2} (hm : 0x512 ||| M = M) (h : Keeps M r a0) :
    Keeps M r (State.drvInterlock a0 a1 a2) := by
  refine h.next hm ?_
  clear h
  have h := Keeps.refl (M := 0x512) a0
  unfold State.drvInterlock
  repeat' first
    | with_reducible first
        | assumption | refine State.raise_keeps (by decide) ?_ | refine State.count_keeps (by decide) ?_ | dsimp only

theorem execBootstrapUv_keeps {a0 a1} : KeepsO 0x1512 a1 (execBootstrapUv a0 a1) := by
  have h := Keeps.refl (M := 0x1512) a1
  unfold execBootstrapUv
  repeat' first
    | with_reducible first
        | assumption | refine KeepsO.next ?_ | exact KeepsO.refused | refine KeepsO.ite ?_ ?_
        | refine State.raise_keeps (by decide) ?_ | refine State.setCond_keeps (by decide) ?_
        | refine State.wr_keeps (by decide) ?_ | dsimp only

theorem execDrvCalibrate_keeps {a0 a1} : KeepsO 0xc0512 a1 (execDrvCalibrate a0 a1) := by
  have h := Keeps.refl (M := 0xc0512) a1
  unfold execDrvCalibrate
  repeat' first
    | with_reducible first
        | assumption | refine KeepsO.next ?_ | exact KeepsO.refused | refine KeepsO.ite ?_ ?_ | refine Keeps.ite ?_ ?_
        | refine State.modDrv_keeps (by decide) ?_ | refine State.drvInstall_keeps (by decide) ?_
        | refine State.wr_keeps (by decide) ?_ | refine State.raise_keeps (by decide) ?_ | dsimp only
    | split
  all_goals with_reducible refine Keeps.upd ?_
  all_goals (repeat' first
    | with_reducible first
        | assumption | refine KeepsO.next ?_ | exact KeepsO.refused | refine KeepsO.ite ?_ ?_ | refine Keeps.ite ?_ ?_
        | refine State.modDrv_keeps (by decide) ?_ | refine State.drvInstall_keeps (by decide) ?_
        | refine State.wr_keeps (by decide) ?_ | refine State.raise_keeps (by decide) ?_ | dsimp only
    | split)

theorem execDrvStaticWrite_keeps {a0 a1 a2 a3} : KeepsO 0x40512 a3 (execDrvStaticWrite a0 a1 a2 a3) := by
  have h := Keeps.refl (M := 0x40512) a3
  unfold execDrvStaticWrite
  repeat' first
    | with_reducible first
        | assumption | refine KeepsO.next ?_ | exact KeepsO.refused | refine KeepsO.byHost ?_ | refine KeepsO.ite ?_ ?_
        | refine Keeps.ite ?_ ?_ | refine State.drvRefuse_keeps (by decide) ?_
        | refine State.drvInterlock_keeps (by decide) ?_ | refine State.modDrv_keeps (by decide) ?_
        | refine State.wr_keeps (by decide) ?_ | dsimp only
    | split

theorem execDrvTimedEdge_keeps {a0 a1 a2} : KeepsO 0x41516 a2 (execDrvTimedEdge a0 a1 a2) := by
  have h := Keeps.refl (M := 0x41516) a2
  unfold execDrvTimedEdge
  repeat' first
    | with_reducible first
        | assumption | refine KeepsO.next ?_ | exact KeepsO.refused | refine KeepsO.ite ?_ ?_
        | refine State.drvApply_keeps (by decide) ?_ | refine State.modDrv_keeps (by decide) ?_ | dsimp only
    | split

theorem execDrvTimedState_keeps {a0 a1} : KeepsO 0x840512 a1 (execDrvTimedState a0 a1) := by
  have h := Keeps.refl (M := 0x840512) a1
  unfold execDrvTimedState
  repeat' first
    | with_reducible first
        | assumption | refine KeepsO.next ?_ | exact KeepsO.refused | refine KeepsO.ite ?_ ?_ | refine Keeps.ite ?_ ?_
        | refine State.mirrorOf_keeps (by decide) ?_ | refine State.raise_keeps (by decide) ?_
        | refine State.drvInterlock_keeps (by decide) ?_ | refine State.modDrv_keeps (by decide) ?_ | dsimp only
    | split

theorem execGateFault_keeps {a0 a1} : KeepsO 0x41516 a1 (execGateFault a0 a1) := by
  have h := Keeps.refl (M := 0x41516) a1
  unfold execGateFault
  repeat' first
    | with_reducible first
        | assumption | refine KeepsO.next ?_ | exact KeepsO.refused | refine KeepsO.ite ?_ ?_
        | refine State.modDrv_keeps (by decide) ?_ | refine State.drvFlush_keeps (by decide) ?_
        | refine State.raise_keeps (by decide) ?_ | refine State.setCond_keeps (by decide) ?_
        | refine State.wr_keeps (by decide) ?_ | dsimp only

theorem execGateFaultRepeat_keeps {a0 a1} : KeepsO 0x41516 a1 (execGateFaultRepeat a0 a1) := by
  have h := Keeps.refl (M := 0x41516) a1
  unfold execGateFaultRepeat
  repeat' first
    | with_reducible first
        | assumption | refine KeepsO.next ?_ | exact KeepsO.refused | refine KeepsO.ite ?_ ?_ | refine Keeps.ite ?_ ?_
        | refine State.drvFlush_keeps (by decide) ?_ | refine State.raiseAt_keeps (by decide) ?_ | dsimp only
    | split

theorem execNodeDelayMeasure_keeps {a0 a1 a2 a3} : KeepsO 0x40000 a3 (execNodeDelayMeasure a0 a1 a2 a3) := by
  have h := Keeps.refl (M := 0x40000) a3
  unfold execNodeDelayMeasure
  repeat' first
    | with_reducible first
        | assumption | refine KeepsO.next ?_ | exact KeepsO.refused | refine KeepsO.ite ?_ ?_ | refine Keeps.ite ?_ ?_
        | refine State.modDrv_keeps (by decide) ?_ | dsimp only
    | split

end Sys2Proof.Machine
end

