-- ==== Sys2Proof/Laws/KeepsCond.lean ====
section
/-! SUPPORT. What each operation of Machine/Cond.lean keeps (Laws/Keeps.lean). -/

set_option Elab.async false

namespace Sys2Proof.Machine

theorem State.condData_keeps {M : Nat} {r : State} {a0 a1 a2} (hm : 0x4512 ||| M = M) (h : Keeps M r a0) :
    Keeps M r (State.condData a0 a1 a2) := by
  refine h.next hm ?_
  clear h
  have h := Keeps.refl (M := 0x4512) a0
  unfold State.condData
  repeat' first
    | with_reducible first
        | assumption | refine Keeps.ite ?_ ?_ | refine State.retireByReaction_keeps (by decide) ?_
        | refine State.raise_keeps (by decide) ?_ | refine Keeps.foldl ?_ (fun _ _ _ => ?_) | dsimp only
    | split

theorem State.modCond_keeps {M : Nat} {r : State} {a0 a1 a2} (hm : 0x1000 ||| M = M) (h : Keeps M r a0) :
    Keeps M r (State.modCond a0 a1 a2) := by
  refine h.next hm ?_
  clear h
  have h := Keeps.refl (M := 0x1000) a0
  unfold State.modCond
  repeat' first
    | with_reducible first
        | assumption | dsimp only
  all_goals with_reducible refine Keeps.upd ?_
  all_goals (repeat' first
    | with_reducible first
        | assumption | dsimp only)

theorem State.condChange_keeps {M : Nat} {r : State} {a0 a1 a2} (hm : 0x5512 ||| M = M) (h : Keeps M r a0) :
    Keeps M r (State.condChange a0 a1 a2) := by
  refine h.next hm ?_
  clear h
  have h := Keeps.refl (M := 0x5512) a0
  unfold State.condChange
  repeat' first
    | with_reducible first
        | assumption | refine Keeps.ite ?_ ?_ | refine State.modCond_keeps (by decide) ?_
        | refine State.condData_keeps (by decide) ?_ | dsimp only
    | split

theorem State.condCells_keeps {M : Nat} {r : State} {a0 a1 a2 a3} (hm : 0x5512 ||| M = M) (h : Keeps M r a0) :
    Keeps M r (State.condCells a0 a1 a2 a3) := by
  refine h.next hm ?_
  clear h
  have h := Keeps.refl (M := 0x5512) a0
  unfold State.condCells
  repeat' first
    | with_reducible first
        | assumption | refine Keeps.ite ?_ ?_ | refine State.setCond_keeps (by decide) ?_
        | refine State.condChange_keeps (by decide) ?_ | refine State.modCond_keeps (by decide) ?_
        | refine Keeps.foldl ?_ (fun _ _ _ => ?_) | dsimp only
    | split

end Sys2Proof.Machine
end

