-- ==== Sys2Proof/Laws/KeepsEpo.lean ====
section
/-! SUPPORT. What each operation of Machine/Epo.lean keeps (Laws/Keeps.lean). -/

set_option Elab.async false

namespace Sys2Proof.Machine

theorem State.poisonExt_keeps {M : Nat} {r : State} {a0 a1} (hm : 0x80 ||| M = M) (h : Keeps M r a0) :
    Keeps M r (State.poisonExt a0 a1) := by
  refine h.next hm ?_
  clear h
  have h := Keeps.refl (M := 0x80) a0
  unfold State.poisonExt
  repeat' first
    | with_reducible first
        | assumption | refine State.setExt_keeps (by decide) ?_ | dsimp only

/-- A fence is accepted while fewer than four are outstanding (Table 1.1). -/
theorem State.acceptFence_keeps {M : Nat} {r s : State} {t} (hm : 0x50 ||| M = M) (h : Keeps M r s) (hlt : s.epo.fences.length < 4) :
    Keeps M r (State.acceptFence s t) := by
  refine h.next hm ?_
  unfold State.acceptFence
  refine State.wr_keeps (by decide) (State.wr_keeps (by decide) (Keeps.upd (.refl s) (hStaging := fun hs => ⟨?_, ?_⟩)))
  · have := hs.1
    simp only [List.length_nil, List.map_append, List.map_cons, List.map_nil, List.sum_append, List.sum_cons, List.sum_nil]
    omega
  · simp only [List.length_append, List.length_cons, List.length_nil]
    omega

theorem State.drFreeze_keeps {M : Nat} {r : State} {a0} (hm : 0x10 ||| M = M) (h : Keeps M r a0) :
    Keeps M r (State.drFreeze a0) := by
  refine h.next hm ?_
  clear h
  have h := Keeps.refl (M := 0x10) a0
  unfold State.drFreeze
  repeat' first
    | with_reducible first
        | assumption | refine State.wr_keeps (by decide) ?_ | dsimp only

theorem State.drTrigger_keeps {M : Nat} {r : State} {a0} (hm : 0x712 ||| M = M) (h : Keeps M r a0) :
    Keeps M r (State.drTrigger a0) := by
  refine h.next hm ?_
  clear h
  have h := Keeps.refl (M := 0x712) a0
  unfold State.drTrigger
  repeat' first
    | with_reducible first
        | assumption | refine Keeps.ite ?_ ?_ | refine State.count_keeps (by decide) ?_ | refine State.wr_keeps (by decide) ?_
        | refine State.drFreeze_keeps (by decide) ?_ | refine State.raise_keeps (by decide) ?_ | dsimp only
    | split
  all_goals with_reducible refine Keeps.upd ?_
  all_goals (repeat' first
    | with_reducible first
        | assumption | refine Keeps.ite ?_ ?_ | refine State.count_keeps (by decide) ?_ | refine State.wr_keeps (by decide) ?_
        | refine State.drFreeze_keeps (by decide) ?_ | refine State.raise_keeps (by decide) ?_ | dsimp only
    | split)

theorem State.drSkip_keeps {M : Nat} {r : State} {a0 a1} (hm : 0x200 ||| M = M) (h : Keeps M r a0) :
    Keeps M r (State.drSkip a0 a1) := by
  refine h.next hm ?_
  clear h
  have h := Keeps.refl (M := 0x200) a0
  unfold State.drSkip
  repeat' first
    | with_reducible first
        | assumption | dsimp only
  all_goals with_reducible refine Keeps.upd ?_
  all_goals (repeat' first
    | with_reducible first
        | assumption | dsimp only)

theorem State.drSample_keeps {M : Nat} {r : State} {a0} (hm : 0x200000210 ||| M = M) (h : Keeps M r a0) :
    Keeps M r (State.drSample a0) := by
  refine h.next hm ?_
  clear h
  have h := Keeps.refl (M := 0x200000210) a0
  unfold State.drSample
  repeat' first
    | with_reducible first
        | assumption | refine Keeps.ite ?_ ?_ | refine State.drSkip_keeps (by decide) ?_
        | refine State.askPoints_keeps (by decide) ?_ | refine State.drFreeze_keeps (by decide) ?_ | dsimp only
    | split
  all_goals with_reducible refine Keeps.upd ?_
  all_goals (repeat' first
    | with_reducible first
        | assumption | refine Keeps.ite ?_ ?_ | refine State.drSkip_keeps (by decide) ?_
        | refine State.askPoints_keeps (by decide) ?_ | refine State.drFreeze_keeps (by decide) ?_ | dsimp only
    | split)

theorem State.statResetAt_keeps {M : Nat} {r s : State} {k} (hm : 0xc0 ||| M = M) (h : Keeps M r s) :
    Keeps M r (State.statResetAt s k) := by
  refine h.next hm ?_
  unfold State.statResetAt
  simp only
  refine Keeps.forEach (Keeps.upd (.refl s) (hPoints := fun hs => ⟨hs.1, hs.2.1, hs.2.2.1, by dsimp only; exact tabWf_tabDrop hs.2.2.2⟩))
    (fun _ _ h => ?_)
  exact State.setExt_keeps (by decide) h

theorem State.markReg_keeps {M : Nat} {r : State} {a0 a1 a2 a3} (hm : 0x40 ||| M = M) (h : Keeps M r a0) :
    Keeps M r (State.markReg a0 a1 a2 a3) := by
  refine h.next hm ?_
  clear h
  have h := Keeps.refl (M := 0x40) a0
  unfold State.markReg
  repeat' first
    | with_reducible first
        | assumption | refine Keeps.ite ?_ ?_ | dsimp only
    | split
  all_goals with_reducible refine Keeps.upd ?_
  all_goals (repeat' first
    | with_reducible first
        | assumption | refine Keeps.ite ?_ ?_ | dsimp only
    | split)

theorem State.poisonPub_keeps {M : Nat} {r : State} {a0 a1} (hm : 0x80000080 ||| M = M) (h : Keeps M r a0) :
    Keeps M r (State.poisonPub a0 a1) := by
  refine h.next hm ?_
  clear h
  have h := Keeps.refl (M := 0x80000080) a0
  unfold State.poisonPub
  repeat' first
    | with_reducible first
        | assumption | refine State.setPub_keeps (by decide) ?_ | dsimp only

theorem State.poisonWork_keeps {M : Nat} {r : State} {a0 a1} (hm : 0x80 ||| M = M) (h : Keeps M r a0) :
    Keeps M r (State.poisonWork a0 a1) := by
  refine h.next hm ?_
  clear h
  have h := Keeps.refl (M := 0x80) a0
  unfold State.poisonWork
  repeat' first
    | with_reducible first
        | assumption | refine State.setWork_keeps (by decide) ?_ | dsimp only

theorem State.completeRead_keeps {M : Nat} {r : State} {a0 a1 a2 a3} (hm : 0x400 ||| M = M) (h : Keeps M r a0) :
    Keeps M r (State.completeRead a0 a1 a2 a3) := by
  refine h.next hm ?_
  clear h
  have h := Keeps.refl (M := 0x400) a0
  unfold State.completeRead
  repeat' first
    | with_reducible first
        | assumption | refine Keeps.ite ?_ ?_ | dsimp only
    | split
  all_goals with_reducible refine Keeps.upd ?_
  all_goals (repeat' first
    | with_reducible first
        | assumption | refine Keeps.ite ?_ ?_ | dsimp only
    | split)

theorem State.corrected_keeps {M : Nat} {r s : State} (hm : 0x50 ||| M = M) (h : Keeps M r s) : Keeps M r (State.corrected s) := by
  refine h.next hm ?_
  unfold State.corrected
  exact Keeps.upd (State.count_keeps (by decide) (.refl s)) (hStaging := fun hs => hs)

theorem State.discardOpen_keeps {M : Nat} {r s : State} (hm : 0x50 ||| M = M) (h : Keeps M r s) :
    Keeps M r (State.discardOpen s) := by
  refine h.next hm ?_
  unfold State.discardOpen
  refine Keeps.upd (State.wr_keeps (by decide) (.refl s)) (hStaging := fun hs => ⟨?_, hs.2⟩)
  have : s.epo.opened.length + (s.epo.fences.map (fun f => f.entries.length)).sum ≤ 8192 := hs.1
  simp only [List.length_nil]
  omega

theorem State.evictBench_keeps {M : Nat} {r : State} {a0 a1} (hm : 0xc0 ||| M = M) (h : Keeps M r a0) :
    Keeps M r (State.evictBench a0 a1) := by
  refine h.next hm ?_
  clear h
  have h := Keeps.refl (M := 0xc0) a0
  unfold State.evictBench
  repeat' first
    | with_reducible first
        | assumption | refine Keeps.ite ?_ ?_ | refine State.poisonExt_keeps (by decide) ?_
        | refine Keeps.foldl ?_ (fun _ _ _ => ?_) | dsimp only
    | split
  all_goals with_reducible refine Keeps.upd ?_
  all_goals (repeat' first
    | with_reducible first
        | assumption | refine Keeps.ite ?_ ?_ | refine State.poisonExt_keeps (by decide) ?_
        | refine Keeps.foldl ?_ (fun _ _ _ => ?_) | dsimp only
    | split)

theorem State.noteWrite_keeps {M : Nat} {r : State} {a0 a1 a2} (hm : 0x40 ||| M = M) (h : Keeps M r a0) :
    Keeps M r (State.noteWrite a0 a1 a2) := by
  refine h.next hm ?_
  clear h
  have h := Keeps.refl (M := 0x40) a0
  unfold State.noteWrite
  repeat' first
    | with_reducible first
        | assumption | refine Keeps.ite ?_ ?_ | dsimp only
    | split
  all_goals with_reducible refine Keeps.upd ?_
  all_goals (repeat' first
    | with_reducible first
        | assumption | refine Keeps.ite ?_ ?_ | dsimp only
    | split)

theorem State.touchBench_keeps {M : Nat} {r : State} {a0 a1 a2} (hm : 0xc0 ||| M = M) (h : Keeps M r a0) :
    Keeps M r (State.touchBench a0 a1 a2) := by
  refine h.next hm ?_
  clear h
  have h := Keeps.refl (M := 0xc0) a0
  unfold State.touchBench
  repeat' first
    | with_reducible first
        | assumption | refine Keeps.ite ?_ ?_ | refine State.evictBench_keeps (by decide) ?_ | dsimp only
    | split
  all_goals with_reducible refine Keeps.upd ?_
  all_goals (repeat' first
    | with_reducible first
        | assumption | refine Keeps.ite ?_ ?_ | refine State.evictBench_keeps (by decide) ?_ | dsimp only
    | split)

theorem State.writeExt_keeps {M : Nat} {r : State} {a0 a1} (hm : 0xc0 ||| M = M) (h : Keeps M r a0) :
    Keeps M r (State.writeExt a0 a1) := by
  refine h.next hm ?_
  clear h hm
  induction a1 generalizing a0 with
  | nil =>
    have h := Keeps.refl (M := 0xc0) a0
    unfold State.writeExt
    repeat' first
      | with_reducible assumption
      | split
  | cons _ _ ih =>
    have h := Keeps.refl (M := 0xc0) a0
    unfold State.writeExt
    repeat' first
      | with_reducible first
          | assumption | refine State.noteWrite_keeps (by decide) ?_ | refine State.setExt_keeps (by decide) ?_
          | refine State.touchBench_keeps (by decide) ?_ | dsimp only | refine Keeps.trans ?_ (ih ..)
      | split
      | (cases ‹_ :: _ = _ :: _›; with_reducible refine Keeps.trans ?_ (ih ..))

theorem State.extWrite_keeps {M : Nat} {r : State} {a0 a1 a2 a3 a4} (hm : 0x2000005d2 ||| M = M) (h : Keeps M r a0) :
    Keeps M r (State.extWrite a0 a1 a2 a3 a4) := by
  refine h.next hm ?_
  clear h
  have h := Keeps.refl (M := 0x2000005d2) a0
  unfold State.extWrite
  repeat' first
    | with_reducible first
        | assumption | refine Keeps.ite ?_ ?_ | refine State.rejectWrite_keeps (by decide) ?_
        | refine State.writeExt_keeps (by decide) ?_ | refine State.askPoints_keeps (by decide) ?_ | dsimp only
    | split

theorem State.uncorrectable_keeps {M : Nat} {r : State} {a0 a1 a2} (hm : 0x801512 ||| M = M) (h : Keeps M r a0) :
    Keeps M r (State.uncorrectable a0 a1 a2) := by
  refine h.next hm ?_
  clear h
  have h := Keeps.refl (M := 0x801512) a0
  unfold State.uncorrectable
  repeat' first
    | with_reducible first
        | assumption | refine Keeps.ite ?_ ?_ | refine State.count_keeps (by decide) ?_ | refine State.wr_keeps (by decide) ?_
        | refine State.pulseCond_keeps (by decide) ?_ | refine State.raise_keeps (by decide) ?_ | dsimp only
    | split
  all_goals with_reducible refine Keeps.upd ?_
  all_goals (repeat' first
    | with_reducible first
        | assumption | refine Keeps.ite ?_ ?_ | refine State.count_keeps (by decide) ?_ | refine State.wr_keeps (by decide) ?_
        | refine State.pulseCond_keeps (by decide) ?_ | refine State.raise_keeps (by decide) ?_ | dsimp only
    | split)

theorem State.reportWord_keeps {M : Nat} {r : State} {a0 a1 a2 a3} (hm : 0x801552 ||| M = M) (h : Keeps M r a0) :
    Keeps M r (State.reportWord a0 a1 a2 a3) := by
  refine h.next hm ?_
  clear h
  have h := Keeps.refl (M := 0x801552) a0
  unfold State.reportWord
  repeat' first
    | with_reducible first
        | assumption | refine Keeps.ite ?_ ?_ | refine State.corrected_keeps (by decide) ?_
        | refine State.uncorrectable_keeps (by decide) ?_ | dsimp only
    | split

theorem State.poisonSample_keeps {M : Nat} {r : State} {a0 a1} (hm : 0x200 ||| M = M) (h : Keeps M r a0) :
    Keeps M r (State.poisonSample a0 a1) := by
  refine h.next hm ?_
  clear h
  have h := Keeps.refl (M := 0x200) a0
  unfold State.poisonSample
  repeat' first
    | with_reducible first
        | assumption | refine Keeps.ite ?_ ?_ | dsimp only
    | split
  all_goals with_reducible refine Keeps.upd ?_
  all_goals (repeat' first
    | with_reducible first
        | assumption | refine Keeps.ite ?_ ?_ | dsimp only
    | split)

theorem State.poisonDie_keeps {M : Nat} {r : State} {a0 a1} (hm : 0x2c0 ||| M = M) (h : Keeps M r a0) :
    Keeps M r (State.poisonDie a0 a1) := by
  refine h.next hm ?_
  clear h
  have h := Keeps.refl (M := 0x2c0) a0
  unfold State.poisonDie
  repeat' first
    | with_reducible first
        | assumption | refine Keeps.ite ?_ ?_ | refine State.poisonExt_keeps (by decide) ?_
        | refine State.poisonSample_keeps (by decide) ?_ | dsimp only
    | split
  all_goals with_reducible refine Keeps.upd ?_
  all_goals (repeat' first
    | with_reducible first
        | assumption | refine Keeps.ite ?_ ?_ | refine State.poisonExt_keeps (by decide) ?_
        | refine State.poisonSample_keeps (by decide) ?_ | dsimp only
    | split)

theorem State.poisonRetained_keeps {M : Nat} {r : State} {a0 a1} (hm : 0x2800040 ||| M = M) (h : Keeps M r a0) :
    Keeps M r (State.poisonRetained a0 a1) := by
  refine h.next hm ?_
  clear h
  have h := Keeps.refl (M := 0x2800040) a0
  unfold State.poisonRetained
  repeat' first
    | with_reducible first
        | assumption | refine Keeps.ite ?_ ?_ | refine State.markReg_keeps (by decide) ?_ | dsimp only
    | split
  all_goals with_reducible refine Keeps.upd ?_
  all_goals (repeat' first
    | with_reducible first
        | assumption | refine Keeps.ite ?_ ?_ | refine State.markReg_keeps (by decide) ?_ | dsimp only
    | split)

theorem State.poisonEvent_keeps {M : Nat} {r : State} {a0 a1} (hm : 0x100 ||| M = M) (h : Keeps M r a0) :
    Keeps M r (State.poisonEvent a0 a1) := by
  refine h.next hm ?_
  unfold State.poisonEvent
  exact Keeps.upd (.refl a0) (hEvents := fun hs => by simpa using hs)

theorem State.poisonPin_keeps {M : Nat} {r : State} {a0 a1} (hm : 0x100000080 ||| M = M) (h : Keeps M r a0) :
    Keeps M r (State.poisonPin a0 a1) := by
  refine h.next hm ?_
  clear h
  have h := Keeps.refl (M := 0x100000080) a0
  unfold State.poisonPin
  repeat' first
    | with_reducible first
        | assumption | dsimp only
  all_goals with_reducible refine Keeps.upd ?_
  all_goals (repeat' first
    | with_reducible first
        | assumption | dsimp only)

theorem State.poisonImage_keeps {M : Nat} {r : State} {a0 a1 a2} (hm : 0x180000080 ||| M = M) (h : Keeps M r a0) :
    Keeps M r (State.poisonImage a0 a1 a2) := by
  refine h.next hm ?_
  clear h
  have h := Keeps.refl (M := 0x180000080) a0
  unfold State.poisonImage
  repeat' first
    | with_reducible first
        | assumption | refine Keeps.ite ?_ ?_ | refine State.poisonWork_keeps (by decide) ?_
        | refine State.poisonPub_keeps (by decide) ?_ | refine State.poisonPin_keeps (by decide) ?_ | dsimp only
    | split

theorem State.poisonInner_keeps {M : Nat} {r : State} {a0 a1} (hm : 0x300040 ||| M = M) (h : Keeps M r a0) :
    Keeps M r (State.poisonInner a0 a1) := by
  refine h.next hm ?_
  clear h
  have h := Keeps.refl (M := 0x300040) a0
  unfold State.poisonInner
  repeat' first
    | with_reducible first
        | assumption | refine State.markReg_keeps (by decide) ?_ | dsimp only
    | split
  all_goals with_reducible refine Keeps.upd ?_
  all_goals (repeat' first
    | with_reducible first
        | assumption | refine State.markReg_keeps (by decide) ?_ | dsimp only
    | split)

theorem spoilFences_shape (fs : List Fence) (i : Nat) :
    (spoilFences fs i).map (fun f => f.entries.length) = fs.map (fun f => f.entries.length) := by
  induction fs generalizing i with
  | nil => rfl
  | cons f fs ih => unfold spoilFences; split <;> simp [ih]

theorem State.poisonStaged_keeps {M : Nat} {r : State} {a0 a1} (hm : 0x40 ||| M = M) (h : Keeps M r a0) :
    Keeps M r (State.poisonStaged a0 a1) := by
  refine h.next hm ?_
  unfold State.poisonStaged
  refine Keeps.upd (.refl a0) (hStaging := fun hs => ⟨?_, ?_⟩)
  · have := hs.1
    simp only [spoilFences_shape]
    split <;> simpa using this
  · have h1 := congrArg List.length (spoilFences_shape a0.epo.fences a1)
    have h2 : a0.epo.fences.length ≤ 4 := hs.2
    simp only [List.length_map] at h1
    exact h1 ▸ h2

theorem State.poisonStore_keeps {M : Nat} {r : State} {a0 a1 a2} (hm : 0x1803001c0 ||| M = M) (h : Keeps M r a0) :
    Keeps M r (State.poisonStore a0 a1 a2) := by
  refine h.next hm ?_
  clear h
  have h := Keeps.refl (M := 0x1803001c0) a0
  unfold State.poisonStore
  repeat' first
    | with_reducible first
        | assumption | refine Keeps.ite ?_ ?_ | refine State.poisonImage_keeps (by decide) ?_
        | refine State.poisonExt_keeps (by decide) ?_ | refine State.poisonStaged_keeps (by decide) ?_
        | refine State.poisonEvent_keeps (by decide) ?_ | refine State.poisonInner_keeps (by decide) ?_ | dsimp only
    | split

theorem State.poisonWord_keeps {M : Nat} {r : State} {a0 a1 a2 a3} (hm : 0x182b003c0 ||| M = M) (h : Keeps M r a0) :
    Keeps M r (State.poisonWord a0 a1 a2 a3) := by
  refine h.next hm ?_
  clear h
  have h := Keeps.refl (M := 0x182b003c0) a0
  unfold State.poisonWord
  repeat' first
    | with_reducible first
        | assumption | refine Keeps.ite ?_ ?_ | refine State.poisonStore_keeps (by decide) ?_
        | refine State.poisonRetained_keeps (by decide) ?_ | refine State.poisonDie_keeps (by decide) ?_ | dsimp only
    | split

theorem State.spoilWord_keeps {M : Nat} {r : State} {a0 a1 a2 a3 a4} (hm : 0x182b003c0 ||| M = M) (h : Keeps M r a0) :
    Keeps M r (State.spoilWord a0 a1 a2 a3 a4) := by
  refine h.next hm ?_
  clear h
  have h := Keeps.refl (M := 0x182b003c0) a0
  unfold State.spoilWord
  repeat' first
    | with_reducible first
        | assumption | refine Keeps.ite ?_ ?_ | refine State.poisonWord_keeps (by decide) ?_ | dsimp only
    | split

theorem State.readWord_keeps {M : Nat} {r : State} {a0 a1 a2 a3 a4} (hm : 0x182b017d2 ||| M = M) (h : Keeps M r a0) :
    Keeps M r (State.readWord a0 a1 a2 a3 a4) := by
  refine h.next hm ?_
  clear h
  have h := Keeps.refl (M := 0x182b017d2) a0
  unfold State.readWord
  repeat' first
    | with_reducible first
        | assumption | refine State.reportWord_keeps (by decide) ?_ | refine State.spoilWord_keeps (by decide) ?_ | dsimp only

theorem State.refuseFence_keeps {M : Nat} {r : State} {a0 a1} (hm : 0x552 ||| M = M) (h : Keeps M r a0) :
    Keeps M r (State.refuseFence a0 a1) := by
  refine h.next hm ?_
  clear h
  have h := Keeps.refl (M := 0x552) a0
  unfold State.refuseFence
  repeat' first
    | with_reducible first
        | assumption | refine Keeps.ite ?_ ?_ | refine State.discardOpen_keeps (by decide) ?_
        | refine State.raise_keeps (by decide) ?_ | refine State.count_keeps (by decide) ?_
        | refine State.wr_keeps (by decide) ?_ | dsimp only
    | split

/-- A status of 0 means that fewer than four fences are outstanding. -/
theorem State.fenceStatus_zero {s : State} {n : Bool} {t : Nat} (h : s.fenceStatus n t = 0) : s.epo.fences.length < 4 := by
  unfold State.fenceStatus at h
  split at h
  · simp at h
  · split at h
    · simp at h
    · omega

theorem State.fenceNamed_keeps {M : Nat} {r s : State} (hm : 0x552 ||| M = M) (h : Keeps M r s) :
    Keeps M r (State.fenceNamed s) := by
  refine h.next hm ?_
  unfold State.fenceNamed
  simp only
  split
  · rename_i h0
    exact State.acceptFence_keeps (by decide) (.refl s) (State.fenceStatus_zero h0)
  · exact State.refuseFence_keeps (by decide) (.refl s)

theorem State.fenceNext_keeps {M : Nat} {r s : State} (hm : 0x552 ||| M = M) (h : Keeps M r s) :
    Keeps M r (State.fenceNext s) := by
  refine h.next hm ?_
  unfold State.fenceNext
  simp only
  split
  · exact State.refuseFence_keeps (by decide) (.refl s)
  · rename_i h0
    split
    · exact State.acceptFence_keeps (by decide) (.refl s) (State.fenceStatus_zero (Decidable.not_not.mp h0))
    · exact State.refuseFence_keeps (by decide) (.refl s)

theorem State.foldPoint_keeps {M : Nat} {r : State} {a0 a1 a2} (hm : 0xc0 ||| M = M) (h : Keeps M r a0) :
    Keeps M r (State.foldPoint a0 a1 a2) := by
  refine h.next hm ?_
  clear h
  have h := Keeps.refl (M := 0xc0) a0
  unfold State.foldPoint
  repeat' first
    | with_reducible first
        | assumption | refine Keeps.ite ?_ ?_ | refine State.poisonExt_keeps (by decide) ?_
        | refine State.setExt_keeps (by decide) ?_ | dsimp only
    | split
  all_goals with_reducible refine Keeps.upd ?_
  all_goals (repeat' first
    | with_reducible first
        | assumption | refine Keeps.ite ?_ ?_ | refine State.poisonExt_keeps (by decide) ?_
        | refine State.setExt_keeps (by decide) ?_ | dsimp only
    | split)
  all_goals with_reducible refine Keeps.upd ?_
  all_goals (repeat' first
    | with_reducible first
        | assumption | refine Keeps.ite ?_ ?_ | refine State.poisonExt_keeps (by decide) ?_
        | refine State.setExt_keeps (by decide) ?_ | dsimp only
    | split)

theorem State.readWords_keeps {M : Nat} {r : State} {a0 a1 a2} (hm : 0x182b017d2 ||| M = M) (h : Keeps M r a0) :
    Keeps M r (State.readWords a0 a1 a2) := by
  refine h.next hm ?_
  clear h
  have h := Keeps.refl (M := 0x182b017d2) a0
  unfold State.readWords
  repeat' first
    | with_reducible first
        | assumption | refine Keeps.ite ?_ ?_ | refine State.readWord_keeps (by decide) ?_
        | refine Keeps.foldl ?_ (fun _ _ _ => ?_) | refine Keeps.foldl_fst ?_ (fun _ _ _ => ?_) | dsimp only
    | split

theorem State.ringVector_keeps {M : Nat} {r s : State} {v} (hm : 0x512 ||| M = M) (h : Keeps M r s) :
    Keeps M r (State.ringVector s v) := by
  refine h.next hm ?_
  have hk := State.signal_keeps (M := 0x412) (a1 := v) (by decide) (Keeps.refl s)
  unfold State.ringVector
  exact Keeps.upd (hk.mono (by decide)) (hEvents := fun hs => by rw [hk.evq.get rfl] at hs; exact hs)

theorem State.moderate_keeps {M : Nat} {r : State} {a0} (hm : 0x512 ||| M = M) (h : Keeps M r a0) :
    Keeps M r (State.moderate a0) := by
  refine h.next hm ?_
  clear h
  have h := Keeps.refl (M := 0x512) a0
  unfold State.moderate
  repeat' first
    | with_reducible first
        | assumption | refine Keeps.ite ?_ ?_ | refine State.ringVector_keeps (by decide) ?_ | dsimp only
    | split
  all_goals with_reducible refine Keeps.upd ?_
  all_goals (repeat' first
    | with_reducible first
        | assumption | refine Keeps.ite ?_ ?_ | refine State.ringVector_keeps (by decide) ?_ | dsimp only
    | split)

theorem State.writeRecord_keeps {M : Nat} {r s : State} {e} (hm : 0x512 ||| M = M) (h : Keeps M r s) :
    Keeps M r (State.writeRecord s e) := by
  refine h.next hm ?_
  unfold State.writeRecord
  refine Keeps.ite (Keeps.ite (Keeps.upd ?_) (State.ringVector_keeps (by decide) ?_))
    (Keeps.ite (State.ringVector_keeps (by decide) ?_) (State.moderate_keeps (by decide) ?_)) <;>
  exact State.wr_keeps (by decide) (State.hostStore_keeps (by decide) (.refl s))

theorem State.ringWrite_keeps {M : Nat} {r s : State} {p e} (hm : 0x182b017d2 ||| M = M) (h : Keeps M r s) :
    Keeps M r (State.ringWrite s p e) := by
  refine h.next hm ?_
  clear h hm
  have h := State.readWords_keeps (M := 0x182b017d2) (a1 := fun x => x.memory == 0 && decide (1196032 ≤ x.word) && decide (x.word < 1196036))
    (a2 := e) (by decide) (.refl s)
  unfold State.ringWrite
  refine Keeps.ite (.refl s) ?_
  dsimp only
  split
  · exact h
  · rename_i hb
    refine State.writeRecord_keeps (by decide) (Keeps.upd h (hEvents := fun hs => ?_))
    rw [hb] at hs
    simp only [List.length_append, List.length_cons] at hs ⊢
    split <;> simp <;> omega

theorem State.refuseRead_keeps {M : Nat} {r : State} {a0 a1 a2} (hm : 0x512 ||| M = M) (h : Keeps M r a0) :
    Keeps M r (State.refuseRead a0 a1 a2) := by
  refine h.next hm ?_
  clear h
  have h := Keeps.refl (M := 0x512) a0
  unfold State.refuseRead
  repeat' first
    | with_reducible first
        | assumption | refine State.accessError_keeps (by decide) ?_ | dsimp only
  all_goals with_reducible refine Keeps.upd ?_
  all_goals (repeat' first
    | with_reducible first
        | assumption | refine State.accessError_keeps (by decide) ?_ | dsimp only)

theorem State.readErrors_keeps {M : Nat} {r : State} {a0 a1 a2 a3} (hm : 0x182b017d2 ||| M = M) (h : Keeps M r a0) :
    Keeps M r (State.readErrors a0 a1 a2 a3) := by
  refine h.next hm ?_
  clear h hm
  induction a3 generalizing a0 a1 a2 with
  | nil =>
    have h := Keeps.refl (M := 0x182b017d2) a0
    unfold State.readErrors
    repeat' first
      | with_reducible assumption
      | split
  | cons _ _ ih =>
    have h := Keeps.refl (M := 0x182b017d2) a0
    unfold State.readErrors
    repeat' first
      | with_reducible first
          | assumption | refine State.readWord_keeps (by decide) ?_ | dsimp only | refine Keeps.trans ?_ (ih ..)
      | split
      | (cases ‹_ :: _ = _ :: _›; with_reducible refine Keeps.trans ?_ (ih ..))

theorem State.serveRead_keeps {M : Nat} {r : State} {a0 a1} (hm : 0x440 ||| M = M) (h : Keeps M r a0) :
    Keeps M r (State.serveRead a0 a1) := by
  refine h.next hm ?_
  clear h
  have h := Keeps.refl (M := 0x440) a0
  unfold State.serveRead
  repeat' first
    | with_reducible first
        | assumption | refine Keeps.ite ?_ ?_ | refine State.completeRead_keeps (by decide) ?_ | dsimp only
    | split
  all_goals with_reducible refine Keeps.upd ?_
  all_goals (repeat' first
    | with_reducible first
        | assumption | refine Keeps.ite ?_ ?_ | refine State.completeRead_keeps (by decide) ?_ | dsimp only
    | split)

theorem State.touchPoints_keeps {M : Nat} {r : State} {a0 a1} (hm : 0xc0 ||| M = M) (h : Keeps M r a0) :
    Keeps M r (State.touchPoints a0 a1) := by
  refine h.next hm ?_
  clear h
  have h := Keeps.refl (M := 0xc0) a0
  unfold State.touchPoints
  repeat' first
    | with_reducible first
        | assumption | refine Keeps.ite ?_ ?_ | refine State.touchBench_keeps (by decide) ?_
        | refine Keeps.foldl ?_ (fun _ _ _ => ?_) | dsimp only
    | split

theorem State.windowRead_keeps {M : Nat} {r : State} {a0 a1 a2 a3 a4 a5} (hm : 0x382b017d2 ||| M = M) (h : Keeps M r a0) :
    Keeps M r (State.windowRead a0 a1 a2 a3 a4 a5) := by
  refine h.next hm ?_
  clear h
  have h := Keeps.refl (M := 0x382b017d2) a0
  unfold State.windowRead
  repeat' first
    | with_reducible first
        | assumption | refine Keeps.ite ?_ ?_ | refine State.refuseRead_keeps (by decide) ?_
        | refine State.touchPoints_keeps (by decide) ?_ | refine State.askPoints_keeps (by decide) ?_
        | refine State.readErrors_keeps (by decide) ?_ | refine State.serveRead_keeps (by decide) ?_ | dsimp only
    | split

theorem State.stage_keeps {M : Nat} {r s : State} {a es} (hm : 0x552 ||| M = M) (h : Keeps M r s) :
    Keeps M r (State.stage s a es) := by
  refine h.next hm ?_
  unfold State.stage
  split
  · rename_i hlt
    refine Keeps.upd (.refl s) (hStaging := fun hs => ⟨?_, hs.2⟩)
    unfold State.stagedCount at hlt
    simp only [List.length_append]
    omega
  · exact State.raise_keeps (by decide) (State.wr_keeps (by decide) (.refl s))

theorem State.meetErrors_keeps {M : Nat} {r : State} {a0 a1 a2 a3 a4} (hm : 0x182b017d2 ||| M = M) (h : Keeps M r a0) :
    Keeps M r (State.meetErrors a0 a1 a2 a3 a4) := by
  refine h.next hm ?_
  clear h
  have h := Keeps.refl (M := 0x182b017d2) a0
  unfold State.meetErrors
  repeat' first
    | with_reducible first
        | assumption | refine Keeps.ite ?_ ?_ | refine State.readWord_keeps (by decide) ?_
        | refine Keeps.foldl ?_ (fun _ _ _ => ?_) | refine Keeps.foldl_fst ?_ (fun _ _ _ => ?_)
        | refine Keeps.foldl_snd ?_ (fun _ _ _ => ?_) | dsimp only
    | split

theorem State.releasePin_keeps {M : Nat} {r s : State} (hm : 0x1000000c0 ||| M = M) (h : Keeps M r s) :
    Keeps M r (State.releasePin s) := by
  refine h.next hm ?_
  unfold State.releasePin
  exact Keeps.upd (.refl s) (hPoints := fun hs => ⟨hs.1, hs.2.1, rfl, hs.2.2.2⟩)

theorem State.rewriteExt_keeps {M : Nat} {r : State} {a0 a1} (hm : 0x80 ||| M = M) (h : Keeps M r a0) :
    Keeps M r (State.rewriteExt a0 a1) := by
  refine h.next hm ?_
  clear h
  have h := Keeps.refl (M := 0x80) a0
  unfold State.rewriteExt
  repeat' first
    | with_reducible first
        | assumption | refine Keeps.ite ?_ ?_ | refine State.setExt_keeps (by decide) ?_
        | refine Keeps.foldl ?_ (fun _ _ _ => ?_) | refine Keeps.foldl_fst ?_ (fun _ _ _ => ?_)
        | refine Keeps.foldl_snd ?_ (fun _ _ _ => ?_) | dsimp only
    | split

theorem State.rollBench_keeps {M : Nat} {r : State} {a0 a1} (hm : 0xc0 ||| M = M) (h : Keeps M r a0) :
    Keeps M r (State.rollBench a0 a1) := by
  refine h.next hm ?_
  clear h
  have h := Keeps.refl (M := 0xc0) a0
  unfold State.rollBench
  repeat' first
    | with_reducible first
        | assumption | refine Keeps.ite ?_ ?_ | refine State.touchBench_keeps (by decide) ?_
        | refine State.evictBench_keeps (by decide) ?_ | dsimp only
    | split
  all_goals with_reducible refine Keeps.upd ?_
  all_goals (repeat' first
    | with_reducible first
        | assumption | refine Keeps.ite ?_ ?_ | refine State.touchBench_keeps (by decide) ?_
        | refine State.evictBench_keeps (by decide) ?_ | dsimp only
    | split)

theorem State.rollup_keeps {M : Nat} {r : State} {a0 a1} (hm : 0x182b017d2 ||| M = M) (h : Keeps M r a0) :
    Keeps M r (State.rollup a0 a1) := by
  refine h.next hm ?_
  clear h
  have h := Keeps.refl (M := 0x182b017d2) a0
  unfold State.rollup
  repeat' first
    | with_reducible first
        | assumption | refine State.rollBench_keeps (by decide) ?_ | refine State.meetErrors_keeps (by decide) ?_
        | refine State.foldPoint_keeps (by decide) ?_ | refine State.rewriteExt_keeps (by decide) ?_
        | refine Keeps.foldl ?_ (fun _ _ _ => ?_) | refine Keeps.foldl_fst ?_ (fun _ _ _ => ?_)
        | refine Keeps.foldl_snd ?_ (fun _ _ _ => ?_) | dsimp only
  all_goals with_reducible refine Keeps.upd ?_
  all_goals (repeat' first
    | with_reducible first
        | assumption | refine State.rollBench_keeps (by decide) ?_ | refine State.meetErrors_keeps (by decide) ?_
        | refine State.foldPoint_keeps (by decide) ?_ | refine State.rewriteExt_keeps (by decide) ?_
        | refine Keeps.foldl ?_ (fun _ _ _ => ?_) | refine Keeps.foldl_fst ?_ (fun _ _ _ => ?_)
        | refine Keeps.foldl_snd ?_ (fun _ _ _ => ?_) | dsimp only)

theorem State.serveWaits_keeps {M : Nat} {r : State} {a0 a1} (hm : 0x440 ||| M = M) (h : Keeps M r a0) :
    Keeps M r (State.serveWaits a0 a1) := by
  refine h.next hm ?_
  clear h hm
  induction a1 generalizing a0 with
  | nil =>
    have h := Keeps.refl (M := 0x440) a0
    unfold State.serveWaits
    repeat' first
      | with_reducible assumption
      | split
  | cons _ _ ih =>
    have h := Keeps.refl (M := 0x440) a0
    unfold State.serveWaits
    repeat' first
      | with_reducible first
          | assumption | refine State.serveRead_keeps (by decide) ?_ | dsimp only | refine Keeps.trans ?_ (ih ..)
      | split
      | (cases ‹_ :: _ = _ :: _›; with_reducible refine Keeps.trans ?_ (ih ..))
    all_goals with_reducible refine Keeps.upd ?_
    all_goals (repeat' first
      | with_reducible first
          | assumption | refine State.serveRead_keeps (by decide) ?_ | dsimp only | refine Keeps.trans ?_ (ih ..)
      | split
      | (cases ‹_ :: _ = _ :: _›; with_reducible refine Keeps.trans ?_ (ih ..)))

theorem State.takePin_keeps {M : Nat} {r s : State} (hm : 0x1000000d0 ||| M = M) (h : Keeps M r s) :
    Keeps M r (State.takePin s) := by
  refine h.next hm ?_
  unfold State.takePin
  exact State.wrPair_keeps (by decide) (Keeps.upd (.refl s) (hPoints := fun hs => ⟨hs.1, hs.2.1, hs.2.1, hs.2.2.2⟩))

theorem execBenchLoaded_keeps {a0 a1 a2} : KeepsO 0x382b017d2 a2 (execBenchLoaded a0 a1 a2) := by
  have h := Keeps.refl (M := 0x382b017d2) a2
  unfold execBenchLoaded
  repeat' first
    | with_reducible first
        | assumption | refine KeepsO.next ?_ | exact KeepsO.refused | refine KeepsO.ite ?_ ?_
        | refine State.askBench_keeps (by decide) ?_ | refine State.touchBench_keeps (by decide) ?_
        | refine State.meetErrors_keeps (by decide) ?_ | refine State.serveWaits_keeps (by decide) ?_ | dsimp only
  all_goals with_reducible refine Keeps.upd ?_
  all_goals (repeat' first
    | with_reducible first
        | assumption | refine KeepsO.next ?_ | exact KeepsO.refused | refine KeepsO.ite ?_ ?_
        | refine State.askBench_keeps (by decide) ?_ | refine State.touchBench_keeps (by decide) ?_
        | refine State.meetErrors_keeps (by decide) ?_ | refine State.serveWaits_keeps (by decide) ?_ | dsimp only)

theorem execDrArm_keeps {a0} : KeepsO 0x210 a0 (execDrArm a0) := by
  have h := Keeps.refl (M := 0x210) a0
  unfold execDrArm
  repeat' first
    | with_reducible first
        | assumption | refine KeepsO.next ?_ | exact KeepsO.refused | refine KeepsO.byHost ?_ | refine KeepsO.ite ?_ ?_
        | refine Keeps.ite ?_ ?_ | refine State.wr_keeps (by decide) ?_ | dsimp only
    | split
  all_goals with_reducible refine Keeps.upd ?_
  all_goals (repeat' first
    | with_reducible first
        | assumption | refine KeepsO.next ?_ | exact KeepsO.refused | refine KeepsO.byHost ?_ | refine KeepsO.ite ?_ ?_
        | refine Keeps.ite ?_ ?_ | refine State.wr_keeps (by decide) ?_ | dsimp only
    | split)

theorem execDrDmaStart_keeps {a0} : KeepsO 0x10 a0 (execDrDmaStart a0) := by
  have h := Keeps.refl (M := 0x10) a0
  unfold execDrDmaStart
  repeat' first
    | with_reducible first
        | assumption | refine KeepsO.next ?_ | exact KeepsO.refused | refine KeepsO.byHost ?_ | refine KeepsO.ite ?_ ?_
        | refine Keeps.ite ?_ ?_ | refine State.wr_keeps (by decide) ?_ | dsimp only
    | split

theorem execDrTransferred_keeps {a0 a1} : KeepsO 0x182b017d2 a1 (execDrTransferred a0 a1) := by
  have h := Keeps.refl (M := 0x182b017d2) a1
  unfold execDrTransferred
  repeat' first
    | with_reducible first
        | assumption | refine KeepsO.next ?_ | exact KeepsO.refused | refine KeepsO.ite ?_ ?_ | refine Keeps.ite ?_ ?_
        | refine State.meetErrors_keeps (by decide) ?_ | refine State.hostStore_keeps (by decide) ?_
        | refine State.raise_keeps (by decide) ?_ | refine State.wr_keeps (by decide) ?_ | dsimp only
    | split

theorem execDrTrigger_keeps {a0} : KeepsO 0x712 a0 (execDrTrigger a0) := by
  have h := Keeps.refl (M := 0x712) a0
  unfold execDrTrigger
  repeat' first
    | with_reducible first
        | assumption | refine KeepsO.next ?_ | exact KeepsO.refused | refine KeepsO.byHost ?_ | refine KeepsO.ite ?_ ?_
        | refine State.drTrigger_keeps (by decide) ?_ | dsimp only

theorem execEccCorrected_keeps {a0} : KeepsO 0x552 a0 (execEccCorrected a0) := by
  have h := Keeps.refl (M := 0x552) a0
  unfold execEccCorrected
  repeat' first
    | with_reducible first
        | assumption | refine KeepsO.next ?_ | exact KeepsO.refused | refine KeepsO.ite ?_ ?_ | refine Keeps.ite ?_ ?_
        | refine State.raise_keeps (by decide) ?_ | dsimp only
    | split
  all_goals with_reducible refine Keeps.upd ?_
  all_goals (repeat' first
    | with_reducible first
        | assumption | refine KeepsO.next ?_ | exact KeepsO.refused | refine KeepsO.ite ?_ ?_ | refine Keeps.ite ?_ ?_
        | refine State.raise_keeps (by decide) ?_ | dsimp only
    | split)

theorem execEvqConfigWrite_keeps {a0 a1 a2} : KeepsO 0x512 a2 (execEvqConfigWrite a0 a1 a2) := by
  have h := Keeps.refl (M := 0x512) a2
  unfold execEvqConfigWrite
  repeat' first
    | with_reducible first
        | assumption | refine KeepsO.next ?_ | exact KeepsO.refused | refine KeepsO.byHost ?_ | refine KeepsO.ite ?_ ?_
        | refine Keeps.ite ?_ ?_ | refine State.rejectWrite_keeps (by decide) ?_ | refine State.wr_keeps (by decide) ?_
        | dsimp only
    | split

theorem execEvqTailWrite_keeps {a0 a1} : KeepsO 0x512 a1 (execEvqTailWrite a0 a1) := by
  have h := Keeps.refl (M := 0x512) a1
  unfold execEvqTailWrite
  repeat' first
    | with_reducible first
        | assumption | refine KeepsO.next ?_ | exact KeepsO.refused | refine KeepsO.byHost ?_ | refine KeepsO.ite ?_ ?_
        | refine Keeps.ite ?_ ?_ | refine State.wr_keeps (by decide) ?_ | refine State.rejectWrite_keeps (by decide) ?_
        | dsimp only
    | split

theorem execExtendedPointWrite_keeps {a0 a1 a2 a3 a4} : KeepsO 0x2000005d2 a4 (execExtendedPointWrite a0 a1 a2 a3 a4) := by
  have h := Keeps.refl (M := 0x2000005d2) a4
  unfold execExtendedPointWrite
  repeat' first
    | with_reducible first
        | assumption | refine KeepsO.next ?_ | exact KeepsO.refused | refine KeepsO.byHost ?_ | refine KeepsO.ite ?_ ?_
        | refine State.extWrite_keeps (by decide) ?_ | dsimp only

theorem execFenceNamed_keeps {a0} : KeepsO 0x552 a0 (execFenceNamed a0) := by
  have h := Keeps.refl (M := 0x552) a0
  unfold execFenceNamed
  repeat' first
    | with_reducible first
        | assumption | refine KeepsO.next ?_ | exact KeepsO.refused | refine KeepsO.byHost ?_ | refine KeepsO.ite ?_ ?_
        | refine State.fenceNamed_keeps (by decide) ?_ | dsimp only

theorem execFenceNext_keeps {a0} : KeepsO 0x552 a0 (execFenceNext a0) := by
  have h := Keeps.refl (M := 0x552) a0
  unfold execFenceNext
  repeat' first
    | with_reducible first
        | assumption | refine KeepsO.next ?_ | exact KeepsO.refused | refine KeepsO.byHost ?_ | refine KeepsO.ite ?_ ?_
        | refine State.fenceNext_keeps (by decide) ?_ | dsimp only

theorem execPin_keeps {a0 a1} : KeepsO 0x1000000d0 a1 (execPin a0 a1) := by
  have h := Keeps.refl (M := 0x1000000d0) a1
  unfold execPin
  repeat' first
    | with_reducible first
        | assumption | refine KeepsO.next ?_ | exact KeepsO.refused | refine KeepsO.byHost ?_ | refine KeepsO.ite ?_ ?_
        | refine Keeps.ite ?_ ?_ | refine State.wr_keeps (by decide) ?_ | refine State.takePin_keeps (by decide) ?_
        | dsimp only
    | split

theorem execPinExpired_keeps {a0} : KeepsO 0x1000005d2 a0 (execPinExpired a0) := by
  have h := Keeps.refl (M := 0x1000005d2) a0
  unfold execPinExpired
  repeat' first
    | with_reducible first
        | assumption | refine KeepsO.next ?_ | exact KeepsO.refused | refine KeepsO.ite ?_ ?_ | refine Keeps.ite ?_ ?_
        | refine State.raise_keeps (by decide) ?_ | refine State.wr_keeps (by decide) ?_
        | refine State.releasePin_keeps (by decide) ?_ | dsimp only
    | split

theorem execPinRelease_keeps {a0} : KeepsO 0x1000000c0 a0 (execPinRelease a0) := by
  have h := Keeps.refl (M := 0x1000000c0) a0
  unfold execPinRelease
  repeat' first
    | with_reducible first
        | assumption | refine KeepsO.next ?_ | exact KeepsO.refused | refine KeepsO.byHost ?_ | refine KeepsO.ite ?_ ?_
        | refine State.releasePin_keeps (by decide) ?_ | dsimp only

theorem execPointWindowRead_keeps {a0 a1 a2 a3 a4 a5} : KeepsO 0x382b017d2 a5 (execPointWindowRead a0 a1 a2 a3 a4 a5) := by
  have h := Keeps.refl (M := 0x382b017d2) a5
  unfold execPointWindowRead
  repeat' first
    | with_reducible first
        | assumption | refine KeepsO.next ?_ | exact KeepsO.refused | refine KeepsO.byReader (by decide) ?_
        | refine KeepsO.ite ?_ ?_ | refine State.windowRead_keeps (by decide) ?_ | dsimp only

theorem execRingWrite_keeps {a0 a1 a2} : KeepsO 0x182b017d2 a2 (execRingWrite a0 a1 a2) := by
  have h := Keeps.refl (M := 0x182b017d2) a2
  unfold execRingWrite
  repeat' first
    | with_reducible first
        | assumption | refine KeepsO.next ?_ | exact KeepsO.refused | refine KeepsO.ite ?_ ?_
        | refine State.ringWrite_keeps (by decide) ?_ | dsimp only

theorem execRollupFold_keeps {a0 a1} : KeepsO 0x382b017d2 a1 (execRollupFold a0 a1) := by
  have h := Keeps.refl (M := 0x382b017d2) a1
  unfold execRollupFold
  repeat' first
    | with_reducible first
        | assumption | refine KeepsO.next ?_ | exact KeepsO.refused | refine KeepsO.ite ?_ ?_ | refine Keeps.ite ?_ ?_
        | refine State.askBench_keeps (by decide) ?_ | refine State.rollup_keeps (by decide) ?_ | dsimp only
    | split

theorem execScrub_keeps {a0 a1 a2 a3 a4} : KeepsO 0x382b017d2 a4 (execScrub a0 a1 a2 a3 a4) := by
  have h := Keeps.refl (M := 0x382b017d2) a4
  unfold execScrub
  repeat' first
    | with_reducible first
        | assumption | refine KeepsO.next ?_ | exact KeepsO.refused | refine KeepsO.ite ?_ ?_ | refine Keeps.ite ?_ ?_
        | refine State.readWord_keeps (by decide) ?_ | refine State.ask_keeps (by decide) ?_ | dsimp only
    | split

theorem execStageDiscard_keeps {a0} : KeepsO 0x50 a0 (execStageDiscard a0) := by
  have h := Keeps.refl (M := 0x50) a0
  unfold execStageDiscard
  repeat' first
    | with_reducible first
        | assumption | refine KeepsO.next ?_ | exact KeepsO.refused | refine KeepsO.byHost ?_ | refine KeepsO.ite ?_ ?_
        | refine State.discardOpen_keeps (by decide) ?_ | dsimp only

theorem execStatReset_keeps {a0} : KeepsO 0x40 a0 (execStatReset a0) := by
  have h := Keeps.refl (M := 0x40) a0
  unfold execStatReset
  repeat' first
    | with_reducible first
        | assumption | refine KeepsO.next ?_ | exact KeepsO.refused | refine KeepsO.byHost ?_ | refine KeepsO.ite ?_ ?_
        | dsimp only
  all_goals with_reducible refine Keeps.upd ?_
  all_goals (repeat' first
    | with_reducible first
        | assumption | refine KeepsO.next ?_ | exact KeepsO.refused | refine KeepsO.byHost ?_ | refine KeepsO.ite ?_ ?_
        | dsimp only)

end Sys2Proof.Machine
end

