-- ==== Sys2Proof/Laws/KeepsDecision.lean ====
section
/-! SUPPORT. What each operation of Machine/Decision.lean keeps (Laws/Keeps.lean). -/

set_option Elab.async false

namespace Sys2Proof.Machine

theorem State.commandRemovals_keeps {M : Nat} {r : State} {a0 a1 a2 a3 a4} (hm : 0xc010 ||| M = M) (h : Keeps M r a0) :
    Keeps M r (State.commandRemovals a0 a1 a2 a3 a4) := by
  refine h.next hm ?_
  clear h hm
  induction a4 generalizing a0 a1 a2 a3 with
  | nil => exact .refl a0
  | cons e es ih =>
    rw [State.commandRemovals]
    refine Keeps.trans ?_ (ih ..)
    have hiso : ∀ u : State, Keeps 0xc010 a0 u → Keeps 0xc010 a0 (match u.bs.isoOf e.cell with
        | some i => u.cmdOff i.cell a2 (.block 0)
        | none => u) := fun u hu => by
      split
      · exact State.cmdOff_keeps (by decide) hu
      · exact hu
    have h := Keeps.refl (M := 0xc010) a0
    refine Keeps.ite (Keeps.ite (Keeps.ite (State.hostRetired_keeps (by decide) ?_) ?_) ?_) (Keeps.ite h (Keeps.ite ?_
      (Keeps.ite ?_ h)))
    · exact hiso _ (State.modCell_keeps (by decide) (State.cmdOff_keeps (by decide) h))
    · exact hiso _ (State.modCell_keeps (by decide) (State.cmdOff_keeps (by decide) h))
    · exact State.modCell_keeps (by decide) (State.cmdPlain_keeps (by decide) h)
    · exact hiso _ (State.modCell_keeps (by decide) (State.cmdSet_keeps (by decide) h))
    · exact State.cmdKeep_keeps (by decide) h

theorem State.commonDuty_keeps {M : Nat} {r : State} {a0 a1 a2 a3 a4} (hm : 0x14 ||| M = M) (h : Keeps M r a0) :
    Keeps M r (State.commonDuty a0 a1 a2 a3 a4).2 := by
  refine h.next hm ?_
  clear h
  have h := Keeps.refl (M := 0x14) a0
  unfold State.commonDuty
  repeat' first
    | with_reducible first
        | assumption | refine Keeps.ite ?_ ?_ | refine Keeps.ite_fst ?_ ?_ | refine Keeps.ite_snd ?_ ?_
        | refine State.draw_keeps (by decide) ?_ | refine State.wr_keeps (by decide) ?_ | dsimp only
    | split

theorem State.direction_keeps {M : Nat} {r : State} {a0 a1} (hm : 0x4512 ||| M = M) (h : Keeps M r a0) :
    Keeps M r (State.direction a0 a1).1 := by
  refine h.next hm ?_
  clear h
  have h := Keeps.refl (M := 0x4512) a0
  unfold State.direction
  repeat' first
    | with_reducible first
        | assumption | refine Keeps.ite ?_ ?_ | refine Keeps.ite_fst ?_ ?_ | refine Keeps.ite_snd ?_ ?_
        | refine State.raise_keeps (by decide) ?_ | refine State.modArm_keeps (by decide) ?_ | dsimp only
    | split

theorem State.reference_keeps {M : Nat} {r : State} {a0 a1 a2} (hm : 0x512 ||| M = M) (h : Keeps M r a0) :
    Keeps M r (State.reference a0 a1 a2).1 := by
  refine h.next hm ?_
  clear h
  have h := Keeps.refl (M := 0x512) a0
  unfold State.reference
  repeat' first
    | with_reducible first
        | assumption | refine Keeps.ite ?_ ?_ | refine Keeps.ite_fst ?_ ?_ | refine Keeps.ite_snd ?_ ?_
        | refine State.raise_keeps (by decide) ?_ | refine State.wr_keeps (by decide) ?_ | dsimp only
    | split

theorem State.respread_keeps {M : Nat} {r : State} {a0 a1 a2} (hm : 0x4512 ||| M = M) (h : Keeps M r a0) :
    Keeps M r (State.respread a0 a1 a2) := by
  refine h.next hm ?_
  clear h
  have h := Keeps.refl (M := 0x4512) a0
  unfold State.respread
  repeat' first
    | with_reducible first
        | assumption | refine Keeps.ite ?_ ?_ | refine State.modArm_keeps (by decide) ?_
        | refine State.raise_keeps (by decide) ?_ | dsimp only
    | split

theorem State.cmdCarrier_keeps {M : Nat} {r : State} {a0 a1 a2 a3} (hm : 0x8000 ||| M = M) (h : Keeps M r a0) :
    Keeps M r (State.cmdCarrier a0 a1 a2 a3) := by
  refine h.next hm ?_
  clear h
  have h := Keeps.refl (M := 0x8000) a0
  unfold State.cmdCarrier
  repeat' first
    | with_reducible first
        | assumption | refine State.modCell_keeps (by decide) ?_ | refine State.cmdPlain_keeps (by decide) ?_ | dsimp only

theorem State.sendSets_keeps {M : Nat} {r : State} {a0 a1 a2 a3 a4 a5 a6 a7} (hm : 0x8010 ||| M = M) (h : Keeps M r a0) :
    Keeps M r (State.sendSets a0 a1 a2 a3 a4 a5 a6 a7) := by
  refine h.next hm ?_
  clear h hm
  induction a7 generalizing a0 a1 a2 a3 a4 a5 a6 with
  | nil =>
    have h := Keeps.refl (M := 0x8010) a0
    unfold State.sendSets
    repeat' first
      | with_reducible assumption
      | split
  | cons _ _ ih =>
    have h := Keeps.refl (M := 0x8010) a0
    unfold State.sendSets
    repeat' first
      | with_reducible first
          | assumption | refine Keeps.ite ?_ ?_ | refine State.wr_keeps (by decide) ?_
          | refine State.cmdCarrier_keeps (by decide) ?_ | dsimp only | refine Keeps.trans ?_ (ih ..)
      | split
      | (cases ‹_ :: _ = _ :: _›; with_reducible refine Keeps.trans ?_ (ih ..))

theorem State.decideCarrier_keeps {M : Nat} {r : State} {a0 a1 a2 a3} (hm : 0xc516 ||| M = M) (h : Keeps M r a0) :
    Keeps M r (State.decideCarrier a0 a1 a2 a3) := by
  refine h.next hm ?_
  clear h
  have h := Keeps.refl (M := 0xc516) a0
  unfold State.decideCarrier
  repeat' first
    | with_reducible first
        | assumption | refine Keeps.ite ?_ ?_ | refine State.modCell_keeps (by decide) ?_
        | refine State.cmdKeep_keeps (by decide) ?_ | refine State.reference_keeps (by decide) ?_
        | refine State.direction_keeps (by decide) ?_ | refine State.commonDuty_keeps (by decide) ?_
        | refine State.respread_keeps (by decide) ?_ | refine State.wr_keeps (by decide) ?_
        | refine State.modArm_keeps (by decide) ?_ | refine State.sendSets_keeps (by decide) ?_
        | refine Keeps.foldl ?_ (fun _ _ _ => ?_) | refine Keeps.foldl_fst ?_ (fun _ _ _ => ?_)
        | refine Keeps.foldl_snd ?_ (fun _ _ _ => ?_) | dsimp only
    | split

theorem State.commandCells_keeps {M : Nat} {r : State} {a0 a1 a2 a3 a4 a5} (hm : 0x8000 ||| M = M) (h : Keeps M r a0) :
    Keeps M r (State.commandCells a0 a1 a2 a3 a4 a5) := by
  refine h.next hm ?_
  clear h hm
  induction a5 generalizing a0 a1 a2 a3 a4 with
  | nil =>
    have h := Keeps.refl (M := 0x8000) a0
    unfold State.commandCells
    repeat' first
      | with_reducible assumption
      | split
  | cons _ _ ih =>
    have h := Keeps.refl (M := 0x8000) a0
    unfold State.commandCells
    repeat' first
      | with_reducible first
          | assumption | refine Keeps.ite ?_ ?_ | refine State.cmdSet_keeps (by decide) ?_
          | refine State.cmdKeep_keeps (by decide) ?_ | dsimp only | refine Keeps.trans ?_ (ih ..)
      | split
      | (cases ‹_ :: _ = _ :: _›; with_reducible refine Keeps.trans ?_ (ih ..))

theorem State.clampReport_keeps {M : Nat} {r : State} {a0 a1 a2 a3 a4} (hm : 0x512 ||| M = M) (h : Keeps M r a0) :
    Keeps M r (State.clampReport a0 a1 a2 a3 a4) := by
  refine h.next hm ?_
  clear h
  have h := Keeps.refl (M := 0x512) a0
  unfold State.clampReport
  repeat' first
    | with_reducible first
        | assumption | refine Keeps.ite ?_ ?_ | refine State.raise_keeps (by decide) ?_ | refine State.wr_keeps (by decide) ?_
        | dsimp only
    | split

theorem State.levelIn_keeps {M : Nat} {r : State} {a0 a1 a2} (hm : 0x4 ||| M = M) (h : Keeps M r a0) :
    Keeps M r (State.levelIn a0 a1 a2).2 := by
  refine h.next hm ?_
  clear h
  have h := Keeps.refl (M := 0x4) a0
  unfold State.levelIn
  repeat' first
    | with_reducible first
        | assumption | refine Keeps.ite ?_ ?_ | refine Keeps.ite_fst ?_ ?_ | refine Keeps.ite_snd ?_ ?_
        | refine State.draw_keeps (by decide) ?_ | dsimp only
    | split

theorem State.stepsFor_keeps {M : Nat} {r : State} {a0 a1 a2 a3 a4 a5} (hm : 0x516 ||| M = M) (h : Keeps M r a0) :
    Keeps M r (State.stepsFor a0 a1 a2 a3 a4 a5).1 := by
  refine h.next hm ?_
  clear h
  have h := Keeps.refl (M := 0x516) a0
  unfold State.stepsFor
  repeat' first
    | with_reducible first
        | assumption | refine Keeps.ite ?_ ?_ | refine Keeps.ite_fst ?_ ?_ | refine Keeps.ite_snd ?_ ?_
        | refine State.levelIn_keeps (by decide) ?_ | refine State.clampReport_keeps (by decide) ?_
        | refine State.draw_keeps (by decide) ?_ | refine State.raise_keeps (by decide) ?_
        | refine State.wr_keeps (by decide) ?_ | dsimp only
    | split

theorem State.decideLevel_keeps {M : Nat} {r : State} {a0 a1 a2 a3} (hm : 0xc516 ||| M = M) (h : Keeps M r a0) :
    Keeps M r (State.decideLevel a0 a1 a2 a3) := by
  refine h.next hm ?_
  clear h
  have h := Keeps.refl (M := 0xc516) a0
  unfold State.decideLevel
  repeat' first
    | with_reducible first
        | assumption | refine Keeps.ite ?_ ?_ | refine State.reference_keeps (by decide) ?_
        | refine State.direction_keeps (by decide) ?_ | refine State.stepsFor_keeps (by decide) ?_
        | refine State.modArm_keeps (by decide) ?_ | refine State.modCell_keeps (by decide) ?_
        | refine State.raise_keeps (by decide) ?_ | refine State.commandCells_keeps (by decide) ?_
        | refine Keeps.foldl ?_ (fun _ _ _ => ?_) | refine Keeps.foldl_fst ?_ (fun _ _ _ => ?_)
        | refine Keeps.foldl_snd ?_ (fun _ _ _ => ?_) | dsimp only
    | split

theorem State.leaveCarrier_keeps {M : Nat} {r : State} {a0 a1 a2} (hm : 0xc000 ||| M = M) (h : Keeps M r a0) :
    Keeps M r (State.leaveCarrier a0 a1 a2) := by
  refine h.next hm ?_
  clear h
  have h := Keeps.refl (M := 0xc000) a0
  unfold State.leaveCarrier
  repeat' first
    | with_reducible first
        | assumption | refine Keeps.ite ?_ ?_ | refine State.cmdSet_keeps (by decide) ?_
        | refine State.modArm_keeps (by decide) ?_ | refine Keeps.foldl ?_ (fun _ _ _ => ?_)
        | refine Keeps.foldl_fst ?_ (fun _ _ _ => ?_) | dsimp only
    | split

theorem State.armDecide_keeps {M : Nat} {r : State} {a0 a1} (hm : 0xc516 ||| M = M) (h : Keeps M r a0) :
    Keeps M r (State.armDecide a0 a1) := by
  refine h.next hm ?_
  clear h
  have h := Keeps.refl (M := 0xc516) a0
  unfold State.armDecide
  repeat' first
    | with_reducible first
        | assumption | refine Keeps.ite ?_ ?_ | refine State.commandRemovals_keeps (by decide) ?_
        | refine State.cmdPlain_keeps (by decide) ?_ | refine State.modArm_keeps (by decide) ?_
        | refine State.cmdOff_keeps (by decide) ?_ | refine State.leaveCarrier_keeps (by decide) ?_
        | refine State.decideCarrier_keeps (by decide) ?_ | refine State.decideLevel_keeps (by decide) ?_
        | refine Keeps.foldl ?_ (fun _ _ _ => ?_) | dsimp only
    | split

theorem State.carrierInstant_keeps {M : Nat} {r : State} {a0 a1 a2} (hm : 0x4512 ||| M = M) (h : Keeps M r a0) :
    Keeps M r (State.carrierInstant a0 a1 a2).1 := by
  refine h.next hm ?_
  clear h
  have h := Keeps.refl (M := 0x4512) a0
  unfold State.carrierInstant
  repeat' first
    | with_reducible first
        | assumption | refine Keeps.ite ?_ ?_ | refine Keeps.ite_fst ?_ ?_ | refine Keeps.ite_snd ?_ ?_
        | refine State.modArm_keeps (by decide) ?_ | refine State.wr_keeps (by decide) ?_
        | refine State.raiseIn_keeps (by decide) ?_ | dsimp only
    | split

theorem execArmDecision_keeps {a0 a1 a2} : KeepsO 0x382b0d7d6 a2 (execArmDecision a0 a1 a2) := by
  have h := Keeps.refl (M := 0x382b0d7d6) a2
  unfold execArmDecision
  repeat' first
    | with_reducible first
        | assumption | refine KeepsO.next ?_ | exact KeepsO.refused | refine KeepsO.ite ?_ ?_ | refine Keeps.ite ?_ ?_
        | refine State.readWords_keeps (by decide) ?_ | refine State.mirrorOf_keeps (by decide) ?_
        | refine State.armDecide_keeps (by decide) ?_ | refine State.askPoints_keeps (by decide) ?_ | dsimp only
    | split
  all_goals with_reducible refine Keeps.upd ?_
  all_goals (repeat' first
    | with_reducible first
        | assumption | refine KeepsO.next ?_ | exact KeepsO.refused | refine KeepsO.ite ?_ ?_ | refine Keeps.ite ?_ ?_
        | refine State.readWords_keeps (by decide) ?_ | refine State.mirrorOf_keeps (by decide) ?_
        | refine State.armDecide_keeps (by decide) ?_ | refine State.askPoints_keeps (by decide) ?_ | dsimp only
    | split)

end Sys2Proof.Machine
end

