-- ==== Sys2Proof/Laws/KeepsFabric.lean ====
section
/-! SUPPORT. What each operation of Machine/Fabric.lean keeps (Laws/Keeps.lean). -/

set_option Elab.async false

namespace Sys2Proof.Machine

theorem State.modFab_keeps {M : Nat} {r s : State} {f : Fab → Fab} (hm : 0x100000 ||| M = M) (h : Keeps M r s)
    (hf : Safety.FabricOk s.fab → Safety.FabricOk (f s.fab)) : Keeps M r (State.modFab s f) := by
  refine h.trans ?_
  unfold State.modFab
  exact Keeps.upd (.refl s) (hFabric := hf) (hfab := (KeptAt.mono hm (.inl (by decide) : KeptAt 0x100000 20 _)))

theorem Fab.initOps_ok {f : Fab} {gs keep} (h : Safety.FabricOk f) : Safety.FabricOk (f.initOps gs keep) := by
  have key : ∀ (l : List OpEntry) (g : Fab), Safety.FabricOk g → Safety.FabricOk (l.foldl (fun f o =>
      match o.kind with
      | .zdelay v => { f with zdelay := tabSet Pt.clear f.zdelay o.num ⟨v, false⟩ }
      | .cmp b => { f with cmp := tabSet false f.cmp o.num b }
      | _ => f) g) := by
    intro l
    induction l with
    | nil => exact fun g hg => hg
    | cons o l ih =>
      intro g hg
      refine ih _ ?_
      dsimp only
      split <;> exact hg
  exact key _ _ h

theorem State.modQueue_keeps {M : Nat} {r : State} {a0 a1 a2} (hm : 0x100000 ||| M = M) (h : Keeps M r a0) :
    Keeps M r (State.modQueue a0 a1 a2) := by
  refine h.next hm ?_
  clear h
  have h := Keeps.refl (M := 0x100000) a0
  unfold State.modQueue
  repeat' first
    | with_reducible first
        | assumption
        | refine State.modFab_keeps (by decide) ?_ (by first | exact (fun h => h) | exact Fab.initOps_ok | exact (fun h => ⟨tabWf_tabSet (h.1), h.2⟩) | exact (fun h => ⟨tabWf_tabMod (h.1), h.2⟩) | exact (fun h => ⟨h.1, tabWf_tabSet (h.2.1), h.2.2⟩) | exact (fun h => ⟨h.1, tabWf_tabMod (h.2.1), h.2.2⟩) | exact (fun h => ⟨h.1, h.2.1, tabWf_tabSet (h.2.2.1), h.2.2.2⟩) | exact (fun h => ⟨h.1, h.2.1, tabWf_tabMod (h.2.2.1), h.2.2.2⟩) | exact (fun h => ⟨h.1, h.2.1, h.2.2.1, tabWf_tabSet (h.2.2.2.1), h.2.2.2.2⟩) | exact (fun h => ⟨h.1, h.2.1, h.2.2.1, tabWf_tabMod (h.2.2.2.1), h.2.2.2.2⟩) | exact (fun h => ⟨h.1, h.2.1, h.2.2.1, h.2.2.2.1, tabWf_tabSet (h.2.2.2.2)⟩) | exact (fun h => ⟨h.1, h.2.1, h.2.2.1, h.2.2.2.1, tabWf_tabMod (h.2.2.2.2)⟩) | exact (fun h => ⟨h.1, h.2.1, h.2.2.1, h.2.2.2.1, tabWf_tabMap⟩) | exact (fun h => ⟨h.1, tabWf_tabDrop h.2.1, h.2.2⟩) | exact (fun h => ⟨h.1, h.2.1, rfl, rfl, rfl⟩) | exact (fun _ => ⟨rfl, rfl, rfl, rfl, rfl⟩))
        | dsimp only

theorem State.cancelJob_keeps {M : Nat} {r : State} {a0 a1} (hm : 0x200100010 ||| M = M) (h : Keeps M r a0) :
    Keeps M r (State.cancelJob a0 a1) := by
  refine h.next hm ?_
  clear h
  have h := Keeps.refl (M := 0x200100010) a0
  unfold State.cancelJob
  repeat' first
    | with_reducible first
        | assumption | refine State.withdraw_keeps (by decide) ?_ | refine State.arbitrate_keeps (by decide) ?_
        | refine State.modQueue_keeps (by decide) ?_
        | refine State.modFab_keeps (by decide) ?_ (by first | exact (fun h => h) | exact Fab.initOps_ok | exact (fun h => ⟨tabWf_tabSet (h.1), h.2⟩) | exact (fun h => ⟨tabWf_tabMod (h.1), h.2⟩) | exact (fun h => ⟨h.1, tabWf_tabSet (h.2.1), h.2.2⟩) | exact (fun h => ⟨h.1, tabWf_tabMod (h.2.1), h.2.2⟩) | exact (fun h => ⟨h.1, h.2.1, tabWf_tabSet (h.2.2.1), h.2.2.2⟩) | exact (fun h => ⟨h.1, h.2.1, tabWf_tabMod (h.2.2.1), h.2.2.2⟩) | exact (fun h => ⟨h.1, h.2.1, h.2.2.1, tabWf_tabSet (h.2.2.2.1), h.2.2.2.2⟩) | exact (fun h => ⟨h.1, h.2.1, h.2.2.1, tabWf_tabMod (h.2.2.2.1), h.2.2.2.2⟩) | exact (fun h => ⟨h.1, h.2.1, h.2.2.1, h.2.2.2.1, tabWf_tabSet (h.2.2.2.2)⟩) | exact (fun h => ⟨h.1, h.2.1, h.2.2.1, h.2.2.2.1, tabWf_tabMod (h.2.2.2.2)⟩) | exact (fun h => ⟨h.1, h.2.1, h.2.2.1, h.2.2.2.1, tabWf_tabMap⟩) | exact (fun h => ⟨h.1, tabWf_tabDrop h.2.1, h.2.2⟩) | exact (fun h => ⟨h.1, h.2.1, rfl, rfl, rfl⟩) | exact (fun _ => ⟨rfl, rfl, rfl, rfl, rfl⟩))
        | refine Keeps.foldl ?_ (fun _ _ _ => ?_) | refine Keeps.foldl_snd ?_ (fun _ _ _ => ?_) | dsimp only
    | split

theorem State.releaseAgain_keeps {M : Nat} {r : State} {a0 a1} (hm : 0x100000 ||| M = M) (h : Keeps M r a0) :
    Keeps M r (State.releaseAgain a0 a1) := by
  refine h.next hm ?_
  clear h
  have h := Keeps.refl (M := 0x100000) a0
  unfold State.releaseAgain
  repeat' first
    | with_reducible first
        | assumption | refine Keeps.ite ?_ ?_
        | refine State.modFab_keeps (by decide) ?_ (by first | exact (fun h => h) | exact Fab.initOps_ok | exact (fun h => ⟨tabWf_tabSet (h.1), h.2⟩) | exact (fun h => ⟨tabWf_tabMod (h.1), h.2⟩) | exact (fun h => ⟨h.1, tabWf_tabSet (h.2.1), h.2.2⟩) | exact (fun h => ⟨h.1, tabWf_tabMod (h.2.1), h.2.2⟩) | exact (fun h => ⟨h.1, h.2.1, tabWf_tabSet (h.2.2.1), h.2.2.2⟩) | exact (fun h => ⟨h.1, h.2.1, tabWf_tabMod (h.2.2.1), h.2.2.2⟩) | exact (fun h => ⟨h.1, h.2.1, h.2.2.1, tabWf_tabSet (h.2.2.2.1), h.2.2.2.2⟩) | exact (fun h => ⟨h.1, h.2.1, h.2.2.1, tabWf_tabMod (h.2.2.2.1), h.2.2.2.2⟩) | exact (fun h => ⟨h.1, h.2.1, h.2.2.1, h.2.2.2.1, tabWf_tabSet (h.2.2.2.2)⟩) | exact (fun h => ⟨h.1, h.2.1, h.2.2.1, h.2.2.2.1, tabWf_tabMod (h.2.2.2.2)⟩) | exact (fun h => ⟨h.1, h.2.1, h.2.2.1, h.2.2.2.1, tabWf_tabMap⟩) | exact (fun h => ⟨h.1, tabWf_tabDrop h.2.1, h.2.2⟩) | exact (fun h => ⟨h.1, h.2.1, rfl, rfl, rfl⟩) | exact (fun _ => ⟨rfl, rfl, rfl, rfl, rfl⟩))
        | dsimp only
    | split

theorem State.modFlow_keeps {M : Nat} {r : State} {a0 a1 a2} (hm : 0x100000 ||| M = M) (h : Keeps M r a0) :
    Keeps M r (State.modFlow a0 a1 a2) := by
  refine h.next hm ?_
  clear h
  have h := Keeps.refl (M := 0x100000) a0
  unfold State.modFlow
  repeat' first
    | with_reducible first
        | assumption
        | refine State.modFab_keeps (by decide) ?_ (by first | exact (fun h => h) | exact Fab.initOps_ok | exact (fun h => ⟨tabWf_tabSet (h.1), h.2⟩) | exact (fun h => ⟨tabWf_tabMod (h.1), h.2⟩) | exact (fun h => ⟨h.1, tabWf_tabSet (h.2.1), h.2.2⟩) | exact (fun h => ⟨h.1, tabWf_tabMod (h.2.1), h.2.2⟩) | exact (fun h => ⟨h.1, h.2.1, tabWf_tabSet (h.2.2.1), h.2.2.2⟩) | exact (fun h => ⟨h.1, h.2.1, tabWf_tabMod (h.2.2.1), h.2.2.2⟩) | exact (fun h => ⟨h.1, h.2.1, h.2.2.1, tabWf_tabSet (h.2.2.2.1), h.2.2.2.2⟩) | exact (fun h => ⟨h.1, h.2.1, h.2.2.1, tabWf_tabMod (h.2.2.2.1), h.2.2.2.2⟩) | exact (fun h => ⟨h.1, h.2.1, h.2.2.1, h.2.2.2.1, tabWf_tabSet (h.2.2.2.2)⟩) | exact (fun h => ⟨h.1, h.2.1, h.2.2.1, h.2.2.2.1, tabWf_tabMod (h.2.2.2.2)⟩) | exact (fun h => ⟨h.1, h.2.1, h.2.2.1, h.2.2.2.1, tabWf_tabMap⟩) | exact (fun h => ⟨h.1, tabWf_tabDrop h.2.1, h.2.2⟩) | exact (fun h => ⟨h.1, h.2.1, rfl, rfl, rfl⟩) | exact (fun _ => ⟨rfl, rfl, rfl, rfl, rfl⟩))
        | dsimp only

theorem State.modGraph_keeps {M : Nat} {r : State} {a0 a1 a2} (hm : 0x100000 ||| M = M) (h : Keeps M r a0) :
    Keeps M r (State.modGraph a0 a1 a2) := by
  refine h.next hm ?_
  clear h
  have h := Keeps.refl (M := 0x100000) a0
  unfold State.modGraph
  repeat' first
    | with_reducible first
        | assumption
        | refine State.modFab_keeps (by decide) ?_ (by first | exact (fun h => h) | exact Fab.initOps_ok | exact (fun h => ⟨tabWf_tabSet (h.1), h.2⟩) | exact (fun h => ⟨tabWf_tabMod (h.1), h.2⟩) | exact (fun h => ⟨h.1, tabWf_tabSet (h.2.1), h.2.2⟩) | exact (fun h => ⟨h.1, tabWf_tabMod (h.2.1), h.2.2⟩) | exact (fun h => ⟨h.1, h.2.1, tabWf_tabSet (h.2.2.1), h.2.2.2⟩) | exact (fun h => ⟨h.1, h.2.1, tabWf_tabMod (h.2.2.1), h.2.2.2⟩) | exact (fun h => ⟨h.1, h.2.1, h.2.2.1, tabWf_tabSet (h.2.2.2.1), h.2.2.2.2⟩) | exact (fun h => ⟨h.1, h.2.1, h.2.2.1, tabWf_tabMod (h.2.2.2.1), h.2.2.2.2⟩) | exact (fun h => ⟨h.1, h.2.1, h.2.2.1, h.2.2.2.1, tabWf_tabSet (h.2.2.2.2)⟩) | exact (fun h => ⟨h.1, h.2.1, h.2.2.1, h.2.2.2.1, tabWf_tabMod (h.2.2.2.2)⟩) | exact (fun h => ⟨h.1, h.2.1, h.2.2.1, h.2.2.2.1, tabWf_tabMap⟩) | exact (fun h => ⟨h.1, tabWf_tabDrop h.2.1, h.2.2⟩) | exact (fun h => ⟨h.1, h.2.1, rfl, rfl, rfl⟩) | exact (fun _ => ⟨rfl, rfl, rfl, rfl, rfl⟩))
        | dsimp only

theorem State.showGraph_keeps {M : Nat} {r : State} {a0 a1} (hm : 0x90 ||| M = M) (h : Keeps M r a0) :
    Keeps M r (State.showGraph a0 a1) := by
  refine h.next hm ?_
  clear h
  have h := Keeps.refl (M := 0x90) a0
  unfold State.showGraph
  repeat' first
    | with_reducible first
        | assumption | refine State.setWork_keeps (by decide) ?_ | refine State.wr_keeps (by decide) ?_ | dsimp only

theorem State.markGraph_keeps {M : Nat} {r : State} {a0 a1 a2 a3} (hm : 0x100090 ||| M = M) (h : Keeps M r a0) :
    Keeps M r (State.markGraph a0 a1 a2 a3) := by
  refine h.next hm ?_
  clear h
  have h := Keeps.refl (M := 0x100090) a0
  unfold State.markGraph
  repeat' first
    | with_reducible first
        | assumption | refine Keeps.ite ?_ ?_ | refine State.showGraph_keeps (by decide) ?_
        | refine State.modGraph_keeps (by decide) ?_ | dsimp only
    | split

theorem State.dropRelease_keeps {M : Nat} {r : State} {a0 a1 a2} (hm : 0x100592 ||| M = M) (h : Keeps M r a0) :
    Keeps M r (State.dropRelease a0 a1 a2) := by
  refine h.next hm ?_
  clear h
  have h := Keeps.refl (M := 0x100592) a0
  unfold State.dropRelease
  repeat' first
    | with_reducible first
        | assumption | refine State.count_keeps (by decide) ?_ | refine State.wr_keeps (by decide) ?_
        | refine State.raise_keeps (by decide) ?_ | refine State.markGraph_keeps (by decide) ?_ | dsimp only

theorem State.activate_keeps {M : Nat} {r : State} {a0 a1} (hm : 0x100090 ||| M = M) (h : Keeps M r a0) :
    Keeps M r (State.activate a0 a1) := by
  refine h.next hm ?_
  clear h
  have h := Keeps.refl (M := 0x100090) a0
  unfold State.activate
  repeat' first
    | with_reducible first
        | assumption | refine State.modQueue_keeps (by decide) ?_ | refine State.wr_keeps (by decide) ?_
        | refine State.modFlow_keeps (by decide) ?_ | refine State.markGraph_keeps (by decide) ?_
        | refine State.modFab_keeps (by decide) ?_ (by first | exact (fun h => h) | exact Fab.initOps_ok | exact (fun h => ⟨tabWf_tabSet (h.1), h.2⟩) | exact (fun h => ⟨tabWf_tabMod (h.1), h.2⟩) | exact (fun h => ⟨h.1, tabWf_tabSet (h.2.1), h.2.2⟩) | exact (fun h => ⟨h.1, tabWf_tabMod (h.2.1), h.2.2⟩) | exact (fun h => ⟨h.1, h.2.1, tabWf_tabSet (h.2.2.1), h.2.2.2⟩) | exact (fun h => ⟨h.1, h.2.1, tabWf_tabMod (h.2.2.1), h.2.2.2⟩) | exact (fun h => ⟨h.1, h.2.1, h.2.2.1, tabWf_tabSet (h.2.2.2.1), h.2.2.2.2⟩) | exact (fun h => ⟨h.1, h.2.1, h.2.2.1, tabWf_tabMod (h.2.2.2.1), h.2.2.2.2⟩) | exact (fun h => ⟨h.1, h.2.1, h.2.2.1, h.2.2.2.1, tabWf_tabSet (h.2.2.2.2)⟩) | exact (fun h => ⟨h.1, h.2.1, h.2.2.1, h.2.2.2.1, tabWf_tabMod (h.2.2.2.2)⟩) | exact (fun h => ⟨h.1, h.2.1, h.2.2.1, h.2.2.2.1, tabWf_tabMap⟩) | exact (fun h => ⟨h.1, tabWf_tabDrop h.2.1, h.2.2⟩) | exact (fun h => ⟨h.1, h.2.1, rfl, rfl, rfl⟩) | exact (fun _ => ⟨rfl, rfl, rfl, rfl, rfl⟩))
        | refine Keeps.foldl ?_ (fun _ _ _ => ?_) | dsimp only
    | split

theorem State.showFlow_keeps {M : Nat} {r : State} {a0 a1} (hm : 0x10 ||| M = M) (h : Keeps M r a0) :
    Keeps M r (State.showFlow a0 a1) := by
  refine h.next hm ?_
  clear h
  have h := Keeps.refl (M := 0x10) a0
  unfold State.showFlow
  repeat' first
    | with_reducible first
        | assumption | refine State.wr_keeps (by decide) ?_ | dsimp only

theorem State.waitFlow_keeps {M : Nat} {r : State} {a0 a1 a2} (hm : 0x100592 ||| M = M) (h : Keeps M r a0) :
    Keeps M r (State.waitFlow a0 a1 a2) := by
  refine h.next hm ?_
  clear h
  have h := Keeps.refl (M := 0x100592) a0
  unfold State.waitFlow
  repeat' first
    | with_reducible first
        | assumption | refine Keeps.ite ?_ ?_ | refine State.showFlow_keeps (by decide) ?_
        | refine State.modFlow_keeps (by decide) ?_ | refine State.markGraph_keeps (by decide) ?_
        | refine State.count_keeps (by decide) ?_ | refine State.dropRelease_keeps (by decide) ?_ | dsimp only
    | split

theorem State.tryStart_keeps {M : Nat} {r : State} {a0 a1} (hm : 0x100592 ||| M = M) (h : Keeps M r a0) :
    Keeps M r (State.tryStart a0 a1) := by
  refine h.next hm ?_
  clear h
  have h := Keeps.refl (M := 0x100592) a0
  unfold State.tryStart
  repeat' first
    | with_reducible first
        | assumption | refine Keeps.ite ?_ ?_ | refine State.waitFlow_keeps (by decide) ?_
        | refine State.activate_keeps (by decide) ?_ | refine State.markGraph_keeps (by decide) ?_
        | refine State.modFab_keeps (by decide) ?_ (by first | exact (fun h => h) | exact Fab.initOps_ok | exact (fun h => ⟨tabWf_tabSet (h.1), h.2⟩) | exact (fun h => ⟨tabWf_tabMod (h.1), h.2⟩) | exact (fun h => ⟨h.1, tabWf_tabSet (h.2.1), h.2.2⟩) | exact (fun h => ⟨h.1, tabWf_tabMod (h.2.1), h.2.2⟩) | exact (fun h => ⟨h.1, h.2.1, tabWf_tabSet (h.2.2.1), h.2.2.2⟩) | exact (fun h => ⟨h.1, h.2.1, tabWf_tabMod (h.2.2.1), h.2.2.2⟩) | exact (fun h => ⟨h.1, h.2.1, h.2.2.1, tabWf_tabSet (h.2.2.2.1), h.2.2.2.2⟩) | exact (fun h => ⟨h.1, h.2.1, h.2.2.1, tabWf_tabMod (h.2.2.2.1), h.2.2.2.2⟩) | exact (fun h => ⟨h.1, h.2.1, h.2.2.1, h.2.2.2.1, tabWf_tabSet (h.2.2.2.2)⟩) | exact (fun h => ⟨h.1, h.2.1, h.2.2.1, h.2.2.2.1, tabWf_tabMod (h.2.2.2.2)⟩) | exact (fun h => ⟨h.1, h.2.1, h.2.2.1, h.2.2.2.1, tabWf_tabMap⟩) | exact (fun h => ⟨h.1, tabWf_tabDrop h.2.1, h.2.2⟩) | exact (fun h => ⟨h.1, h.2.1, rfl, rfl, rfl⟩) | exact (fun _ => ⟨rfl, rfl, rfl, rfl, rfl⟩))
        | dsimp only
    | split

theorem State.unavailable_keeps {M : Nat} {r : State} {a0 a1} (hm : 0x100592 ||| M = M) (h : Keeps M r a0) :
    Keeps M r (State.unavailable a0 a1) := by
  refine h.next hm ?_
  clear h
  have h := Keeps.refl (M := 0x100592) a0
  unfold State.unavailable
  repeat' first
    | with_reducible first
        | assumption | refine Keeps.ite ?_ ?_ | refine State.markGraph_keeps (by decide) ?_
        | refine State.modGraph_keeps (by decide) ?_ | refine State.raise_keeps (by decide) ?_ | dsimp only
    | split

theorem State.releaseGraph_keeps {M : Nat} {r : State} {a0 a1 a2} (hm : 0x900592 ||| M = M) (h : Keeps M r a0) :
    Keeps M r (State.releaseGraph a0 a1 a2) := by
  refine h.next hm ?_
  clear h
  have h := Keeps.refl (M := 0x900592) a0
  unfold State.releaseGraph
  repeat' first
    | with_reducible first
        | assumption | refine Keeps.ite ?_ ?_ | refine State.wr_keeps (by decide) ?_
        | refine State.unavailable_keeps (by decide) ?_ | refine State.dropRelease_keeps (by decide) ?_
        | refine State.tryStart_keeps (by decide) ?_ | dsimp only
    | split
  all_goals with_reducible refine Keeps.upd ?_
  all_goals (repeat' first
    | with_reducible first
        | assumption | refine Keeps.ite ?_ ?_ | refine State.wr_keeps (by decide) ?_
        | refine State.unavailable_keeps (by decide) ?_ | refine State.dropRelease_keeps (by decide) ?_
        | refine State.tryStart_keeps (by decide) ?_ | dsimp only
    | split)

theorem State.releaseByItem_keeps {M : Nat} {r : State} {a0 a1} (hm : 0x900592 ||| M = M) (h : Keeps M r a0) :
    Keeps M r (State.releaseByItem a0 a1) := by
  refine h.next hm ?_
  clear h
  have h := Keeps.refl (M := 0x900592) a0
  unfold State.releaseByItem
  repeat' first
    | with_reducible first
        | assumption | refine Keeps.ite ?_ ?_ | refine State.releaseGraph_keeps (by decide) ?_ | dsimp only
    | split

theorem State.serveQueue_keeps {M : Nat} {r : State} {a0 a1 a2} (hm : 0x100090 ||| M = M) (h : Keeps M r a0) :
    Keeps M r (State.serveQueue a0 a1 a2) := by
  refine h.next hm ?_
  clear h hm
  induction a2 generalizing a0 a1 with
  | nil =>
    have h := Keeps.refl (M := 0x100090) a0
    unfold State.serveQueue
    repeat' first
      | with_reducible assumption
      | split
  | cons _ _ ih =>
    have h := Keeps.refl (M := 0x100090) a0
    unfold State.serveQueue
    repeat' first
      | with_reducible first
          | assumption | refine Keeps.ite ?_ ?_ | refine State.showFlow_keeps (by decide) ?_
          | refine State.modFlow_keeps (by decide) ?_ | refine State.activate_keeps (by decide) ?_
          | refine State.markGraph_keeps (by decide) ?_
          | refine State.modFab_keeps (by decide) ?_ (by first | exact (fun h => h) | exact Fab.initOps_ok | exact (fun h => ⟨tabWf_tabSet (h.1), h.2⟩) | exact (fun h => ⟨tabWf_tabMod (h.1), h.2⟩) | exact (fun h => ⟨h.1, tabWf_tabSet (h.2.1), h.2.2⟩) | exact (fun h => ⟨h.1, tabWf_tabMod (h.2.1), h.2.2⟩) | exact (fun h => ⟨h.1, h.2.1, tabWf_tabSet (h.2.2.1), h.2.2.2⟩) | exact (fun h => ⟨h.1, h.2.1, tabWf_tabMod (h.2.2.1), h.2.2.2⟩) | exact (fun h => ⟨h.1, h.2.1, h.2.2.1, tabWf_tabSet (h.2.2.2.1), h.2.2.2.2⟩) | exact (fun h => ⟨h.1, h.2.1, h.2.2.1, tabWf_tabMod (h.2.2.2.1), h.2.2.2.2⟩) | exact (fun h => ⟨h.1, h.2.1, h.2.2.1, h.2.2.2.1, tabWf_tabSet (h.2.2.2.2)⟩) | exact (fun h => ⟨h.1, h.2.1, h.2.2.1, h.2.2.2.1, tabWf_tabMod (h.2.2.2.2)⟩) | exact (fun h => ⟨h.1, h.2.1, h.2.2.1, h.2.2.2.1, tabWf_tabMap⟩) | exact (fun h => ⟨h.1, tabWf_tabDrop h.2.1, h.2.2⟩) | exact (fun h => ⟨h.1, h.2.1, rfl, rfl, rfl⟩) | exact (fun _ => ⟨rfl, rfl, rfl, rfl, rfl⟩))
          | dsimp only | refine Keeps.trans ?_ (ih ..)
      | split
      | (cases ‹_ :: _ = _ :: _›; with_reducible refine Keeps.trans ?_ (ih ..))

theorem State.serveFlow_keeps {M : Nat} {r : State} {a0 a1} (hm : 0x900592 ||| M = M) (h : Keeps M r a0) :
    Keeps M r (State.serveFlow a0 a1) := by
  refine h.next hm ?_
  clear h
  have h := Keeps.refl (M := 0x900592) a0
  unfold State.serveFlow
  repeat' first
    | with_reducible first
        | assumption | refine State.wr_keeps (by decide) ?_ | refine State.modFlow_keeps (by decide) ?_
        | refine State.serveQueue_keeps (by decide) ?_ | refine State.releaseByItem_keeps (by decide) ?_
        | refine Keeps.foldl ?_ (fun _ _ _ => ?_) | dsimp only

theorem State.endJob_keeps {M : Nat} {r : State} {a0 a1} (hm : 0x900592 ||| M = M) (h : Keeps M r a0) :
    Keeps M r (State.endJob a0 a1) := by
  refine h.next hm ?_
  clear h
  have h := Keeps.refl (M := 0x900592) a0
  unfold State.endJob
  repeat' first
    | with_reducible first
        | assumption
        | refine State.modFab_keeps (by decide) ?_ (by first | exact (fun h => h) | exact Fab.initOps_ok | exact (fun h => ⟨tabWf_tabSet (h.1), h.2⟩) | exact (fun h => ⟨tabWf_tabMod (h.1), h.2⟩) | exact (fun h => ⟨h.1, tabWf_tabSet (h.2.1), h.2.2⟩) | exact (fun h => ⟨h.1, tabWf_tabMod (h.2.1), h.2.2⟩) | exact (fun h => ⟨h.1, h.2.1, tabWf_tabSet (h.2.2.1), h.2.2.2⟩) | exact (fun h => ⟨h.1, h.2.1, tabWf_tabMod (h.2.2.1), h.2.2.2⟩) | exact (fun h => ⟨h.1, h.2.1, h.2.2.1, tabWf_tabSet (h.2.2.2.1), h.2.2.2.2⟩) | exact (fun h => ⟨h.1, h.2.1, h.2.2.1, tabWf_tabMod (h.2.2.2.1), h.2.2.2.2⟩) | exact (fun h => ⟨h.1, h.2.1, h.2.2.1, h.2.2.2.1, tabWf_tabSet (h.2.2.2.2)⟩) | exact (fun h => ⟨h.1, h.2.1, h.2.2.1, h.2.2.2.1, tabWf_tabMod (h.2.2.2.2)⟩) | exact (fun h => ⟨h.1, h.2.1, h.2.2.1, h.2.2.2.1, tabWf_tabMap⟩) | exact (fun h => ⟨h.1, tabWf_tabDrop h.2.1, h.2.2⟩) | exact (fun h => ⟨h.1, h.2.1, rfl, rfl, rfl⟩) | exact (fun _ => ⟨rfl, rfl, rfl, rfl, rfl⟩))
        | refine State.releaseAgain_keeps (by decide) ?_ | refine State.serveFlow_keeps (by decide) ?_ | dsimp only
    | split

theorem State.refreshGraphs_keeps {M : Nat} {r : State} {a0} (hm : 0x900592 ||| M = M) (h : Keeps M r a0) :
    Keeps M r (State.refreshGraphs a0) := by
  refine h.next hm ?_
  clear h
  have h := Keeps.refl (M := 0x900592) a0
  unfold State.refreshGraphs
  repeat' first
    | with_reducible first
        | assumption | refine Keeps.ite ?_ ?_ | refine State.unavailable_keeps (by decide) ?_
        | refine State.markGraph_keeps (by decide) ?_ | refine State.modGraph_keeps (by decide) ?_
        | refine State.serveQueue_keeps (by decide) ?_ | refine State.releaseByItem_keeps (by decide) ?_
        | refine Keeps.foldl ?_ (fun _ _ _ => ?_) | dsimp only
    | split

theorem State.modAdc_keeps {M : Nat} {r s : State} {f : Adc → Adc} (hm : 0x400000 ||| M = M) (h : Keeps M r s)
    (hf : Safety.MeasureOk s.adc → Safety.MeasureOk (f s.adc)) : Keeps M r (State.modAdc s f) := by
  refine h.trans ?_
  unfold State.modAdc
  exact Keeps.upd (.refl s) (hMeasure := hf) (hadc := (KeptAt.mono hm (.inl (by decide) : KeptAt 0x400000 22 _)))

theorem State.modCore_keeps {M : Nat} {r : State} {a0 a1 a2} (hm : 0x400000 ||| M = M) (h : Keeps M r a0) :
    Keeps M r (State.modCore a0 a1 a2) := by
  refine h.next hm ?_
  clear h
  have h := Keeps.refl (M := 0x400000) a0
  unfold State.modCore
  repeat' first
    | with_reducible first
        | assumption
        | refine State.modAdc_keeps (by decide) ?_ (by first | exact (fun h => h) | exact (fun h => ⟨tabWf_tabSet (h.1), h.2⟩) | exact (fun h => ⟨tabWf_tabMod (h.1), h.2⟩) | exact (fun h => ⟨h.1, tabWf_tabSet (h.2.1), h.2.2⟩) | exact (fun h => ⟨h.1, tabWf_tabMod (h.2.1), h.2.2⟩) | exact (fun h => ⟨h.1, h.2.1, tabWf_tabSet (h.2.2)⟩) | exact (fun h => ⟨h.1, h.2.1, tabWf_tabMod (h.2.2)⟩) | exact (fun _ => ⟨rfl, rfl, rfl⟩))
        | dsimp only

theorem State.delay_keeps {M : Nat} {r : State} {a0 a1 a2} (hm : 0x100010 ||| M = M) (h : Keeps M r a0) :
    Keeps M r (State.delay a0 a1 a2) := by
  refine h.next hm ?_
  clear h
  have h := Keeps.refl (M := 0x100010) a0
  unfold State.delay
  repeat' first
    | with_reducible first
        | assumption | refine Keeps.ite ?_ ?_
        | refine State.modFab_keeps (by decide) ?_ (by first | exact (fun h => h) | exact Fab.initOps_ok | exact (fun h => ⟨tabWf_tabSet (h.1), h.2⟩) | exact (fun h => ⟨tabWf_tabMod (h.1), h.2⟩) | exact (fun h => ⟨h.1, tabWf_tabSet (h.2.1), h.2.2⟩) | exact (fun h => ⟨h.1, tabWf_tabMod (h.2.1), h.2.2⟩) | exact (fun h => ⟨h.1, h.2.1, tabWf_tabSet (h.2.2.1), h.2.2.2⟩) | exact (fun h => ⟨h.1, h.2.1, tabWf_tabMod (h.2.2.1), h.2.2.2⟩) | exact (fun h => ⟨h.1, h.2.1, h.2.2.1, tabWf_tabSet (h.2.2.2.1), h.2.2.2.2⟩) | exact (fun h => ⟨h.1, h.2.1, h.2.2.1, tabWf_tabMod (h.2.2.2.1), h.2.2.2.2⟩) | exact (fun h => ⟨h.1, h.2.1, h.2.2.1, h.2.2.2.1, tabWf_tabSet (h.2.2.2.2)⟩) | exact (fun h => ⟨h.1, h.2.1, h.2.2.1, h.2.2.2.1, tabWf_tabMod (h.2.2.2.2)⟩) | exact (fun h => ⟨h.1, h.2.1, h.2.2.1, h.2.2.2.1, tabWf_tabMap⟩) | exact (fun h => ⟨h.1, tabWf_tabDrop h.2.1, h.2.2⟩) | exact (fun h => ⟨h.1, h.2.1, rfl, rfl, rfl⟩) | exact (fun _ => ⟨rfl, rfl, rfl, rfl, rfl⟩))
        | refine State.wr_keeps (by decide) ?_ | dsimp only
    | split

theorem State.askRun_keeps {M : Nat} {r : State} {a0 a1 a2} (hm : 0x200000000 ||| M = M) (h : Keeps M r a0) :
    Keeps M r (State.askRun a0 a1 a2) := by
  refine h.next hm ?_
  clear h
  have h := Keeps.refl (M := 0x200000000) a0
  unfold State.askRun
  repeat' first
    | with_reducible first
        | assumption | refine State.ask_keeps (by decide) ?_ | dsimp only
    | split

theorem State.showTables_keeps {M : Nat} {r : State} {a0} (hm : 0x10 ||| M = M) (h : Keeps M r a0) :
    Keeps M r (State.showTables a0) := by
  refine h.next hm ?_
  clear h
  have h := Keeps.refl (M := 0x10) a0
  unfold State.showTables
  repeat' first
    | with_reducible first
        | assumption | refine State.clearFields_keeps (by decide) ?_ | refine State.wr_keeps (by decide) ?_
        | refine Keeps.foldl ?_ (fun _ _ _ => ?_) | refine Keeps.foldl_fst ?_ (fun _ _ _ => ?_)
        | refine Keeps.foldl_snd ?_ (fun _ _ _ => ?_) | dsimp only
    | split

theorem State.fabStart_keeps {M : Nat} {r : State} {a0} (hm : 0x900592 ||| M = M) (h : Keeps M r a0) :
    Keeps M r (State.fabStart a0) := by
  refine h.next hm ?_
  clear h
  have h := Keeps.refl (M := 0x900592) a0
  unfold State.fabStart
  repeat' first
    | with_reducible first
        | assumption
        | refine State.modFab_keeps (by decide) ?_ (by first | exact (fun h => h) | exact Fab.initOps_ok | exact (fun h => ⟨tabWf_tabSet (h.1), h.2⟩) | exact (fun h => ⟨tabWf_tabMod (h.1), h.2⟩) | exact (fun h => ⟨h.1, tabWf_tabSet (h.2.1), h.2.2⟩) | exact (fun h => ⟨h.1, tabWf_tabMod (h.2.1), h.2.2⟩) | exact (fun h => ⟨h.1, h.2.1, tabWf_tabSet (h.2.2.1), h.2.2.2⟩) | exact (fun h => ⟨h.1, h.2.1, tabWf_tabMod (h.2.2.1), h.2.2.2⟩) | exact (fun h => ⟨h.1, h.2.1, h.2.2.1, tabWf_tabSet (h.2.2.2.1), h.2.2.2.2⟩) | exact (fun h => ⟨h.1, h.2.1, h.2.2.1, tabWf_tabMod (h.2.2.2.1), h.2.2.2.2⟩) | exact (fun h => ⟨h.1, h.2.1, h.2.2.1, h.2.2.2.1, tabWf_tabSet (h.2.2.2.2)⟩) | exact (fun h => ⟨h.1, h.2.1, h.2.2.1, h.2.2.2.1, tabWf_tabMod (h.2.2.2.2)⟩) | exact (fun h => ⟨h.1, h.2.1, h.2.2.1, h.2.2.2.1, tabWf_tabMap⟩) | exact (fun h => ⟨h.1, tabWf_tabDrop h.2.1, h.2.2⟩) | exact (fun h => ⟨h.1, h.2.1, rfl, rfl, rfl⟩) | exact (fun _ => ⟨rfl, rfl, rfl, rfl, rfl⟩))
        | refine State.wr_keeps (by decide) ?_ | refine State.showTables_keeps (by decide) ?_
        | refine State.refreshGraphs_keeps (by decide) ?_ | refine State.modGraph_keeps (by decide) ?_
        | refine State.showGraph_keeps (by decide) ?_ | refine Keeps.foldl ?_ (fun _ _ _ => ?_) | dsimp only
  all_goals with_reducible refine Keeps.upd ?_
  all_goals (repeat' first
    | with_reducible first
        | assumption
        | refine State.modFab_keeps (by decide) ?_ (by first | exact (fun h => h) | exact Fab.initOps_ok | exact (fun h => ⟨tabWf_tabSet (h.1), h.2⟩) | exact (fun h => ⟨tabWf_tabMod (h.1), h.2⟩) | exact (fun h => ⟨h.1, tabWf_tabSet (h.2.1), h.2.2⟩) | exact (fun h => ⟨h.1, tabWf_tabMod (h.2.1), h.2.2⟩) | exact (fun h => ⟨h.1, h.2.1, tabWf_tabSet (h.2.2.1), h.2.2.2⟩) | exact (fun h => ⟨h.1, h.2.1, tabWf_tabMod (h.2.2.1), h.2.2.2⟩) | exact (fun h => ⟨h.1, h.2.1, h.2.2.1, tabWf_tabSet (h.2.2.2.1), h.2.2.2.2⟩) | exact (fun h => ⟨h.1, h.2.1, h.2.2.1, tabWf_tabMod (h.2.2.2.1), h.2.2.2.2⟩) | exact (fun h => ⟨h.1, h.2.1, h.2.2.1, h.2.2.2.1, tabWf_tabSet (h.2.2.2.2)⟩) | exact (fun h => ⟨h.1, h.2.1, h.2.2.1, h.2.2.2.1, tabWf_tabMod (h.2.2.2.2)⟩) | exact (fun h => ⟨h.1, h.2.1, h.2.2.1, h.2.2.2.1, tabWf_tabMap⟩) | exact (fun h => ⟨h.1, tabWf_tabDrop h.2.1, h.2.2⟩) | exact (fun h => ⟨h.1, h.2.1, rfl, rfl, rfl⟩) | exact (fun _ => ⟨rfl, rfl, rfl, rfl, rfl⟩))
        | refine State.wr_keeps (by decide) ?_ | refine State.showTables_keeps (by decide) ?_
        | refine State.refreshGraphs_keeps (by decide) ?_ | refine State.modGraph_keeps (by decide) ?_
        | refine State.showGraph_keeps (by decide) ?_ | refine Keeps.foldl ?_ (fun _ _ _ => ?_) | dsimp only)

theorem State.modEngine_keeps {M : Nat} {r : State} {a0 a1 a2} (hm : 0x100000 ||| M = M) (h : Keeps M r a0) :
    Keeps M r (State.modEngine a0 a1 a2) := by
  refine h.next hm ?_
  clear h
  have h := Keeps.refl (M := 0x100000) a0
  unfold State.modEngine
  repeat' first
    | with_reducible first
        | assumption
        | refine State.modFab_keeps (by decide) ?_ (by first | exact (fun h => h) | exact Fab.initOps_ok | exact (fun h => ⟨tabWf_tabSet (h.1), h.2⟩) | exact (fun h => ⟨tabWf_tabMod (h.1), h.2⟩) | exact (fun h => ⟨h.1, tabWf_tabSet (h.2.1), h.2.2⟩) | exact (fun h => ⟨h.1, tabWf_tabMod (h.2.1), h.2.2⟩) | exact (fun h => ⟨h.1, h.2.1, tabWf_tabSet (h.2.2.1), h.2.2.2⟩) | exact (fun h => ⟨h.1, h.2.1, tabWf_tabMod (h.2.2.1), h.2.2.2⟩) | exact (fun h => ⟨h.1, h.2.1, h.2.2.1, tabWf_tabSet (h.2.2.2.1), h.2.2.2.2⟩) | exact (fun h => ⟨h.1, h.2.1, h.2.2.1, tabWf_tabMod (h.2.2.2.1), h.2.2.2.2⟩) | exact (fun h => ⟨h.1, h.2.1, h.2.2.1, h.2.2.2.1, tabWf_tabSet (h.2.2.2.2)⟩) | exact (fun h => ⟨h.1, h.2.1, h.2.2.1, h.2.2.2.1, tabWf_tabMod (h.2.2.2.2)⟩) | exact (fun h => ⟨h.1, h.2.1, h.2.2.1, h.2.2.2.1, tabWf_tabMap⟩) | exact (fun h => ⟨h.1, tabWf_tabDrop h.2.1, h.2.2⟩) | exact (fun h => ⟨h.1, h.2.1, rfl, rfl, rfl⟩) | exact (fun _ => ⟨rfl, rfl, rfl, rfl, rfl⟩))
        | dsimp only

theorem State.catchPoints_keeps {M : Nat} {r : State} {a0 a1} (hm : 0x100000 ||| M = M) (h : Keeps M r a0) :
    Keeps M r (State.catchPoints a0 a1) := by
  refine h.next hm ?_
  clear h
  have h := Keeps.refl (M := 0x100000) a0
  unfold State.catchPoints
  repeat' first
    | with_reducible first
        | assumption | refine Keeps.ite ?_ ?_ | refine State.modEngine_keeps (by decide) ?_
        | refine Keeps.foldl ?_ (fun _ _ _ => ?_) | refine Keeps.foldl_fst ?_ (fun _ _ _ => ?_) | dsimp only
    | split

theorem State.clearAlarms_keeps {M : Nat} {r : State} {a0 a1} (hm : 0x1000 ||| M = M) (h : Keeps M r a0) :
    Keeps M r (State.clearAlarms a0 a1) := by
  refine h.next hm ?_
  clear h
  have h := Keeps.refl (M := 0x1000) a0
  unfold State.clearAlarms
  repeat' first
    | with_reducible first
        | assumption | refine State.setCond_keeps (by decide) ?_ | refine Keeps.foldl ?_ (fun _ _ _ => ?_) | dsimp only
    | split

theorem State.commitSample_keeps {M : Nat} {r : State} {a0 a1 a2 a3 a4} (hm : 0x101512 ||| M = M) (h : Keeps M r a0) :
    Keeps M r (State.commitSample a0 a1 a2 a3 a4) := by
  refine h.next hm ?_
  clear h
  have h := Keeps.refl (M := 0x101512) a0
  unfold State.commitSample
  repeat' first
    | with_reducible first
        | assumption | refine Keeps.ite ?_ ?_
        | refine State.modFab_keeps (by decide) ?_ (by first | exact (fun h => h) | exact Fab.initOps_ok | exact (fun h => ⟨tabWf_tabSet (h.1), h.2⟩) | exact (fun h => ⟨tabWf_tabMod (h.1), h.2⟩) | exact (fun h => ⟨h.1, tabWf_tabSet (h.2.1), h.2.2⟩) | exact (fun h => ⟨h.1, tabWf_tabMod (h.2.1), h.2.2⟩) | exact (fun h => ⟨h.1, h.2.1, tabWf_tabSet (h.2.2.1), h.2.2.2⟩) | exact (fun h => ⟨h.1, h.2.1, tabWf_tabMod (h.2.2.1), h.2.2.2⟩) | exact (fun h => ⟨h.1, h.2.1, h.2.2.1, tabWf_tabSet (h.2.2.2.1), h.2.2.2.2⟩) | exact (fun h => ⟨h.1, h.2.1, h.2.2.1, tabWf_tabMod (h.2.2.2.1), h.2.2.2.2⟩) | exact (fun h => ⟨h.1, h.2.1, h.2.2.1, h.2.2.2.1, tabWf_tabSet (h.2.2.2.2)⟩) | exact (fun h => ⟨h.1, h.2.1, h.2.2.1, h.2.2.2.1, tabWf_tabMod (h.2.2.2.2)⟩) | exact (fun h => ⟨h.1, h.2.1, h.2.2.1, h.2.2.2.1, tabWf_tabMap⟩) | exact (fun h => ⟨h.1, tabWf_tabDrop h.2.1, h.2.2⟩) | exact (fun h => ⟨h.1, h.2.1, rfl, rfl, rfl⟩) | exact (fun _ => ⟨rfl, rfl, rfl, rfl, rfl⟩))
        | refine State.wr_keeps (by decide) ?_ | refine State.setCond_keeps (by decide) ?_
        | refine State.raise_keeps (by decide) ?_ | refine State.count_keeps (by decide) ?_ | dsimp only
    | split

theorem State.signalChange_keeps {M : Nat} {r : State} {a0 a1 a2 a3} (hm : 0x400000 ||| M = M) (h : Keeps M r a0) :
    Keeps M r (State.signalChange a0 a1 a2 a3) := by
  refine h.next hm ?_
  clear h
  have h := Keeps.refl (M := 0x400000) a0
  unfold State.signalChange
  repeat' first
    | with_reducible first
        | assumption | refine Keeps.ite ?_ ?_ | refine State.modCore_keeps (by decide) ?_
        | refine Keeps.foldl ?_ (fun _ _ _ => ?_) | refine Keeps.foldl_fst ?_ (fun _ _ _ => ?_)
        | refine Keeps.foldl_snd ?_ (fun _ _ _ => ?_) | dsimp only
    | split

theorem State.commitEffect_keeps {M : Nat} {r : State} {a0 a1 a2} (hm : 0x505592 ||| M = M) (h : Keeps M r a0) :
    Keeps M r (State.commitEffect a0 a1 a2) := by
  refine h.next hm ?_
  clear h
  have h := Keeps.refl (M := 0x505592) a0
  unfold State.commitEffect
  repeat' first
    | with_reducible first
        | assumption | refine Keeps.ite ?_ ?_ | refine State.setWork_keeps (by decide) ?_
        | refine State.signalChange_keeps (by decide) ?_ | refine State.modQueue_keeps (by decide) ?_
        | refine State.modFab_keeps (by decide) ?_ (by first | exact (fun h => h) | exact Fab.initOps_ok | exact (fun h => ⟨tabWf_tabSet (h.1), h.2⟩) | exact (fun h => ⟨tabWf_tabMod (h.1), h.2⟩) | exact (fun h => ⟨h.1, tabWf_tabSet (h.2.1), h.2.2⟩) | exact (fun h => ⟨h.1, tabWf_tabMod (h.2.1), h.2.2⟩) | exact (fun h => ⟨h.1, h.2.1, tabWf_tabSet (h.2.2.1), h.2.2.2⟩) | exact (fun h => ⟨h.1, h.2.1, tabWf_tabMod (h.2.2.1), h.2.2.2⟩) | exact (fun h => ⟨h.1, h.2.1, h.2.2.1, tabWf_tabSet (h.2.2.2.1), h.2.2.2.2⟩) | exact (fun h => ⟨h.1, h.2.1, h.2.2.1, tabWf_tabMod (h.2.2.2.1), h.2.2.2.2⟩) | exact (fun h => ⟨h.1, h.2.1, h.2.2.1, h.2.2.2.1, tabWf_tabSet (h.2.2.2.2)⟩) | exact (fun h => ⟨h.1, h.2.1, h.2.2.1, h.2.2.2.1, tabWf_tabMod (h.2.2.2.2)⟩) | exact (fun h => ⟨h.1, h.2.1, h.2.2.1, h.2.2.2.1, tabWf_tabMap⟩) | exact (fun h => ⟨h.1, tabWf_tabDrop h.2.1, h.2.2⟩) | exact (fun h => ⟨h.1, h.2.1, rfl, rfl, rfl⟩) | exact (fun _ => ⟨rfl, rfl, rfl, rfl, rfl⟩))
        | refine State.condChange_keeps (by decide) ?_ | refine State.setCond_keeps (by decide) ?_
        | refine State.signal_keeps (by decide) ?_ | refine State.raiseAt_keeps (by decide) ?_
        | refine State.commitSample_keeps (by decide) ?_ | dsimp only
    | split

theorem State.serveItems_keeps {M : Nat} {r : State} {a0 a1} (hm : 0x900592 ||| M = M) (h : Keeps M r a0) :
    Keeps M r (State.serveItems a0 a1) := by
  refine h.next hm ?_
  clear h
  have h := Keeps.refl (M := 0x900592) a0
  unfold State.serveItems
  repeat' first
    | with_reducible first
        | assumption | refine State.releaseByItem_keeps (by decide) ?_ | refine Keeps.foldl ?_ (fun _ _ _ => ?_) | dsimp only

theorem State.commitReleases_keeps {M : Nat} {r : State} {a0 a1 a2} (hm : 0x900592 ||| M = M) (h : Keeps M r a0) :
    Keeps M r (State.commitReleases a0 a1 a2) := by
  refine h.next hm ?_
  clear h hm
  induction a2 generalizing a0 a1 with
  | nil =>
    have h := Keeps.refl (M := 0x900592) a0
    unfold State.commitReleases
    repeat' first
      | with_reducible assumption
      | split
  | cons _ _ ih =>
    have h := Keeps.refl (M := 0x900592) a0
    unfold State.commitReleases
    repeat' first
      | with_reducible first
          | assumption | refine Keeps.ite ?_ ?_ | refine State.releaseGraph_keeps (by decide) ?_
          | refine State.serveItems_keeps (by decide) ?_ | dsimp only | refine Keeps.trans ?_ (ih ..)
      | split
      | (cases ‹_ :: _ = _ :: _›; with_reducible refine Keeps.trans ?_ (ih ..))

theorem State.commitZdelay_keeps {M : Nat} {r : State} {a0 a1} (hm : 0x100000 ||| M = M) (h : Keeps M r a0) :
    Keeps M r (State.commitZdelay a0 a1) := by
  refine h.next hm ?_
  clear h
  have h := Keeps.refl (M := 0x100000) a0
  unfold State.commitZdelay
  repeat' first
    | with_reducible first
        | assumption
        | refine State.modFab_keeps (by decide) ?_ (by first | exact (fun h => h) | exact Fab.initOps_ok | exact (fun h => ⟨tabWf_tabSet (h.1), h.2⟩) | exact (fun h => ⟨tabWf_tabMod (h.1), h.2⟩) | exact (fun h => ⟨h.1, tabWf_tabSet (h.2.1), h.2.2⟩) | exact (fun h => ⟨h.1, tabWf_tabMod (h.2.1), h.2.2⟩) | exact (fun h => ⟨h.1, h.2.1, tabWf_tabSet (h.2.2.1), h.2.2.2⟩) | exact (fun h => ⟨h.1, h.2.1, tabWf_tabMod (h.2.2.1), h.2.2.2⟩) | exact (fun h => ⟨h.1, h.2.1, h.2.2.1, tabWf_tabSet (h.2.2.2.1), h.2.2.2.2⟩) | exact (fun h => ⟨h.1, h.2.1, h.2.2.1, tabWf_tabMod (h.2.2.2.1), h.2.2.2.2⟩) | exact (fun h => ⟨h.1, h.2.1, h.2.2.1, h.2.2.2.1, tabWf_tabSet (h.2.2.2.2)⟩) | exact (fun h => ⟨h.1, h.2.1, h.2.2.1, h.2.2.2.1, tabWf_tabMod (h.2.2.2.2)⟩) | exact (fun h => ⟨h.1, h.2.1, h.2.2.1, h.2.2.2.1, tabWf_tabMap⟩) | exact (fun h => ⟨h.1, tabWf_tabDrop h.2.1, h.2.2⟩) | exact (fun h => ⟨h.1, h.2.1, rfl, rfl, rfl⟩) | exact (fun _ => ⟨rfl, rfl, rfl, rfl, rfl⟩))
        | refine Keeps.foldl ?_ (fun _ _ _ => ?_) | refine Keeps.foldl_fst ?_ (fun _ _ _ => ?_)
        | refine Keeps.foldl_snd ?_ (fun _ _ _ => ?_) | dsimp only
    | split

theorem State.commitJob_keeps {M : Nat} {r : State} {a0 a1} (hm : 0xd05592 ||| M = M) (h : Keeps M r a0) :
    Keeps M r (State.commitJob a0 a1) := by
  refine h.next hm ?_
  clear h
  have h := Keeps.refl (M := 0xd05592) a0
  unfold State.commitJob
  repeat' first
    | with_reducible first
        | assumption | refine State.commitZdelay_keeps (by decide) ?_ | refine State.commitEffect_keeps (by decide) ?_
        | refine State.raise_keeps (by decide) ?_ | refine State.markGraph_keeps (by decide) ?_
        | refine State.count_keeps (by decide) ?_ | refine State.wr_keeps (by decide) ?_
        | refine State.modGraph_keeps (by decide) ?_ | refine State.endJob_keeps (by decide) ?_
        | refine State.commitReleases_keeps (by decide) ?_ | refine Keeps.foldl ?_ (fun _ _ _ => ?_) | dsimp only
    | split

theorem State.dropWaiting_keeps {M : Nat} {r : State} {a0 a1} (hm : 0x100000 ||| M = M) (h : Keeps M r a0) :
    Keeps M r (State.dropWaiting a0 a1) := by
  refine h.next hm ?_
  clear h
  have h := Keeps.refl (M := 0x100000) a0
  unfold State.dropWaiting
  repeat' first
    | with_reducible first
        | assumption
        | refine State.modFab_keeps (by decide) ?_ (by first | exact (fun h => h) | exact Fab.initOps_ok | exact (fun h => ⟨tabWf_tabSet (h.1), h.2⟩) | exact (fun h => ⟨tabWf_tabMod (h.1), h.2⟩) | exact (fun h => ⟨h.1, tabWf_tabSet (h.2.1), h.2.2⟩) | exact (fun h => ⟨h.1, tabWf_tabMod (h.2.1), h.2.2⟩) | exact (fun h => ⟨h.1, h.2.1, tabWf_tabSet (h.2.2.1), h.2.2.2⟩) | exact (fun h => ⟨h.1, h.2.1, tabWf_tabMod (h.2.2.1), h.2.2.2⟩) | exact (fun h => ⟨h.1, h.2.1, h.2.2.1, tabWf_tabSet (h.2.2.2.1), h.2.2.2.2⟩) | exact (fun h => ⟨h.1, h.2.1, h.2.2.1, tabWf_tabMod (h.2.2.2.1), h.2.2.2.2⟩) | exact (fun h => ⟨h.1, h.2.1, h.2.2.1, h.2.2.2.1, tabWf_tabSet (h.2.2.2.2)⟩) | exact (fun h => ⟨h.1, h.2.1, h.2.2.1, h.2.2.2.1, tabWf_tabMod (h.2.2.2.2)⟩) | exact (fun h => ⟨h.1, h.2.1, h.2.2.1, h.2.2.2.1, tabWf_tabMap⟩) | exact (fun h => ⟨h.1, tabWf_tabDrop h.2.1, h.2.2⟩) | exact (fun h => ⟨h.1, h.2.1, rfl, rfl, rfl⟩) | exact (fun _ => ⟨rfl, rfl, rfl, rfl, rfl⟩))
        | dsimp only

theorem State.disableGraph_keeps {M : Nat} {r : State} {a0 a1} (hm : 0x101592 ||| M = M) (h : Keeps M r a0) :
    Keeps M r (State.disableGraph a0 a1) := by
  refine h.next hm ?_
  clear h
  have h := Keeps.refl (M := 0x101592) a0
  unfold State.disableGraph
  repeat' first
    | with_reducible first
        | assumption | refine Keeps.ite ?_ ?_ | refine State.dropWaiting_keeps (by decide) ?_
        | refine State.showFlow_keeps (by decide) ?_ | refine State.dropRelease_keeps (by decide) ?_
        | refine State.clearAlarms_keeps (by decide) ?_ | refine State.markGraph_keeps (by decide) ?_
        | refine State.modGraph_keeps (by decide) ?_ | dsimp only
    | split

theorem State.modJob_keeps {M : Nat} {r : State} {a0 a1 a2} (hm : 0x100000 ||| M = M) (h : Keeps M r a0) :
    Keeps M r (State.modJob a0 a1 a2) := by
  refine h.next hm ?_
  clear h
  have h := Keeps.refl (M := 0x100000) a0
  unfold State.modJob
  repeat' first
    | with_reducible first
        | assumption | refine Keeps.ite ?_ ?_
        | refine State.modFab_keeps (by decide) ?_ (by first | exact (fun h => h) | exact Fab.initOps_ok | exact (fun h => ⟨tabWf_tabSet (h.1), h.2⟩) | exact (fun h => ⟨tabWf_tabMod (h.1), h.2⟩) | exact (fun h => ⟨h.1, tabWf_tabSet (h.2.1), h.2.2⟩) | exact (fun h => ⟨h.1, tabWf_tabMod (h.2.1), h.2.2⟩) | exact (fun h => ⟨h.1, h.2.1, tabWf_tabSet (h.2.2.1), h.2.2.2⟩) | exact (fun h => ⟨h.1, h.2.1, tabWf_tabMod (h.2.2.1), h.2.2.2⟩) | exact (fun h => ⟨h.1, h.2.1, h.2.2.1, tabWf_tabSet (h.2.2.2.1), h.2.2.2.2⟩) | exact (fun h => ⟨h.1, h.2.1, h.2.2.1, tabWf_tabMod (h.2.2.2.1), h.2.2.2.2⟩) | exact (fun h => ⟨h.1, h.2.1, h.2.2.1, h.2.2.2.1, tabWf_tabSet (h.2.2.2.2)⟩) | exact (fun h => ⟨h.1, h.2.1, h.2.2.1, h.2.2.2.1, tabWf_tabMod (h.2.2.2.2)⟩) | exact (fun h => ⟨h.1, h.2.1, h.2.2.1, h.2.2.2.1, tabWf_tabMap⟩) | exact (fun h => ⟨h.1, tabWf_tabDrop h.2.1, h.2.2⟩) | exact (fun h => ⟨h.1, h.2.1, rfl, rfl, rfl⟩) | exact (fun _ => ⟨rfl, rfl, rfl, rfl, rfl⟩))
        | dsimp only
    | split

theorem State.modStream_keeps {M : Nat} {r : State} {a0 a1 a2} (hm : 0x100000 ||| M = M) (h : Keeps M r a0) :
    Keeps M r (State.modStream a0 a1 a2) := by
  refine h.next hm ?_
  clear h
  have h := Keeps.refl (M := 0x100000) a0
  unfold State.modStream
  repeat' first
    | with_reducible first
        | assumption
        | refine State.modFab_keeps (by decide) ?_ (by first | exact (fun h => h) | exact Fab.initOps_ok | exact (fun h => ⟨tabWf_tabSet (h.1), h.2⟩) | exact (fun h => ⟨tabWf_tabMod (h.1), h.2⟩) | exact (fun h => ⟨h.1, tabWf_tabSet (h.2.1), h.2.2⟩) | exact (fun h => ⟨h.1, tabWf_tabMod (h.2.1), h.2.2⟩) | exact (fun h => ⟨h.1, h.2.1, tabWf_tabSet (h.2.2.1), h.2.2.2⟩) | exact (fun h => ⟨h.1, h.2.1, tabWf_tabMod (h.2.2.1), h.2.2.2⟩) | exact (fun h => ⟨h.1, h.2.1, h.2.2.1, tabWf_tabSet (h.2.2.2.1), h.2.2.2.2⟩) | exact (fun h => ⟨h.1, h.2.1, h.2.2.1, tabWf_tabMod (h.2.2.2.1), h.2.2.2.2⟩) | exact (fun h => ⟨h.1, h.2.1, h.2.2.1, h.2.2.2.1, tabWf_tabSet (h.2.2.2.2)⟩) | exact (fun h => ⟨h.1, h.2.1, h.2.2.1, h.2.2.2.1, tabWf_tabMod (h.2.2.2.2)⟩) | exact (fun h => ⟨h.1, h.2.1, h.2.2.1, h.2.2.2.1, tabWf_tabMap⟩) | exact (fun h => ⟨h.1, tabWf_tabDrop h.2.1, h.2.2⟩) | exact (fun h => ⟨h.1, h.2.1, rfl, rfl, rfl⟩) | exact (fun _ => ⟨rfl, rfl, rfl, rfl, rfl⟩))
        | dsimp only

theorem State.showStream_keeps {M : Nat} {r : State} {a0 a1} (hm : 0x100512 ||| M = M) (h : Keeps M r a0) :
    Keeps M r (State.showStream a0 a1) := by
  refine h.next hm ?_
  clear h
  have h := Keeps.refl (M := 0x100512) a0
  unfold State.showStream
  repeat' first
    | with_reducible first
        | assumption | refine Keeps.ite ?_ ?_ | refine State.wr_keeps (by decide) ?_ | refine State.count_keeps (by decide) ?_
        | refine State.raise_keeps (by decide) ?_ | refine State.modStream_keeps (by decide) ?_ | dsimp only
    | split

theorem State.takeItem_keeps {M : Nat} {r : State} {a0 a1 a2} (hm : 0x100512 ||| M = M) (h : Keeps M r a0) :
    Keeps M r (State.takeItem a0 a1 a2).1 := by
  refine h.next hm ?_
  clear h
  have h := Keeps.refl (M := 0x100512) a0
  unfold State.takeItem
  repeat' first
    | with_reducible first
        | assumption | refine State.showStream_keeps (by decide) ?_ | refine State.modStream_keeps (by decide) ?_
        | refine State.modQueue_keeps (by decide) ?_ | dsimp only
    | split

theorem State.dispatch_keeps {M : Nat} {r : State} {a0 a1 a2 a3} (hm : 0x200100512 ||| M = M) (h : Keeps M r a0) :
    Keeps M r (State.dispatch a0 a1 a2 a3) := by
  refine h.next hm ?_
  clear h
  have h := Keeps.refl (M := 0x200100512) a0
  unfold State.dispatch
  repeat' first
    | with_reducible first
        | assumption | refine Keeps.ite ?_ ?_ | refine State.takeItem_keeps (by decide) ?_
        | refine State.modJob_keeps (by decide) ?_ | refine State.askRun_keeps (by decide) ?_
        | refine State.modEngine_keeps (by decide) ?_
        | refine State.modFab_keeps (by decide) ?_ (by first | exact (fun h => h) | exact Fab.initOps_ok | exact (fun h => ⟨tabWf_tabSet (h.1), h.2⟩) | exact (fun h => ⟨tabWf_tabMod (h.1), h.2⟩) | exact (fun h => ⟨h.1, tabWf_tabSet (h.2.1), h.2.2⟩) | exact (fun h => ⟨h.1, tabWf_tabMod (h.2.1), h.2.2⟩) | exact (fun h => ⟨h.1, h.2.1, tabWf_tabSet (h.2.2.1), h.2.2.2⟩) | exact (fun h => ⟨h.1, h.2.1, tabWf_tabMod (h.2.2.1), h.2.2.2⟩) | exact (fun h => ⟨h.1, h.2.1, h.2.2.1, tabWf_tabSet (h.2.2.2.1), h.2.2.2.2⟩) | exact (fun h => ⟨h.1, h.2.1, h.2.2.1, tabWf_tabMod (h.2.2.2.1), h.2.2.2.2⟩) | exact (fun h => ⟨h.1, h.2.1, h.2.2.1, h.2.2.2.1, tabWf_tabSet (h.2.2.2.2)⟩) | exact (fun h => ⟨h.1, h.2.1, h.2.2.1, h.2.2.2.1, tabWf_tabMod (h.2.2.2.2)⟩) | exact (fun h => ⟨h.1, h.2.1, h.2.2.1, h.2.2.2.1, tabWf_tabMap⟩) | exact (fun h => ⟨h.1, tabWf_tabDrop h.2.1, h.2.2⟩) | exact (fun h => ⟨h.1, h.2.1, rfl, rfl, rfl⟩) | exact (fun _ => ⟨rfl, rfl, rfl, rfl, rfl⟩))
        | dsimp only
    | split

theorem State.streamPush_keeps {M : Nat} {r : State} {a0 a1 a2} (hm : 0x900592 ||| M = M) (h : Keeps M r a0) :
    Keeps M r (State.streamPush a0 a1 a2) := by
  refine h.next hm ?_
  clear h
  have h := Keeps.refl (M := 0x900592) a0
  unfold State.streamPush
  repeat' first
    | with_reducible first
        | assumption | refine State.showStream_keeps (by decide) ?_ | refine State.modStream_keeps (by decide) ?_
        | refine State.serveItems_keeps (by decide) ?_ | dsimp only

theorem State.enableGraph_keeps {M : Nat} {r : State} {a0 a1} (hm : 0x900592 ||| M = M) (h : Keeps M r a0) :
    Keeps M r (State.enableGraph a0 a1) := by
  refine h.next hm ?_
  clear h
  have h := Keeps.refl (M := 0x900592) a0
  unfold State.enableGraph
  repeat' first
    | with_reducible first
        | assumption | refine Keeps.ite ?_ ?_ | refine State.wr_keeps (by decide) ?_ | refine State.raise_keeps (by decide) ?_
        | refine State.modGraph_keeps (by decide) ?_ | refine State.releaseByItem_keeps (by decide) ?_
        | refine State.markGraph_keeps (by decide) ?_ | refine State.unavailable_keeps (by decide) ?_ | dsimp only
    | split

theorem State.engineCounts_keeps {M : Nat} {r : State} {a0 a1} (hm : 0x100010 ||| M = M) (h : Keeps M r a0) :
    Keeps M r (State.engineCounts a0 a1) := by
  refine h.next hm ?_
  clear h
  have h := Keeps.refl (M := 0x100010) a0
  unfold State.engineCounts
  repeat' first
    | with_reducible first
        | assumption | refine Keeps.ite ?_ ?_ | refine State.modEngine_keeps (by decide) ?_
        | refine State.wr_keeps (by decide) ?_ | refine Keeps.foldl ?_ (fun _ _ _ => ?_) | dsimp only
    | split

theorem State.evalOp_keeps {M : Nat} {r : State} {a0 a1 a2 a3} (hm : 0x4 ||| M = M) (h : Keeps M r a0) :
    Keeps M r (State.evalOp a0 a1 a2 a3).1 := by
  refine h.next hm ?_
  clear h
  have h := Keeps.refl (M := 0x4) a0
  unfold State.evalOp
  repeat' first
    | with_reducible first
        | assumption | refine Keeps.ite ?_ ?_ | refine Keeps.ite_fst ?_ ?_ | refine Keeps.ite_snd ?_ ?_
        | refine State.draw_keeps (by decide) ?_ | dsimp only
    | split

theorem State.fabEnables_keeps {M : Nat} {r : State} {a0 a1} (hm : 0x901592 ||| M = M) (h : Keeps M r a0) :
    Keeps M r (State.fabEnables a0 a1) := by
  refine h.next hm ?_
  clear h
  have h := Keeps.refl (M := 0x901592) a0
  unfold State.fabEnables
  repeat' first
    | with_reducible first
        | assumption | refine State.disableGraph_keeps (by decide) ?_ | refine State.enableGraph_keeps (by decide) ?_
        | refine Keeps.foldl ?_ (fun _ _ _ => ?_) | dsimp only

theorem State.fabEpoch_keeps {M : Nat} {r : State} {a0} (hm : 0x100592 ||| M = M) (h : Keeps M r a0) :
    Keeps M r (State.fabEpoch a0) := by
  refine h.next hm ?_
  clear h
  have h := Keeps.refl (M := 0x100592) a0
  unfold State.fabEpoch
  repeat' first
    | with_reducible first
        | assumption | refine State.showGraph_keeps (by decide) ?_ | refine State.modGraph_keeps (by decide) ?_
        | refine State.showStream_keeps (by decide) ?_ | refine State.modStream_keeps (by decide) ?_
        | refine Keeps.foldl ?_ (fun _ _ _ => ?_) | refine Keeps.foldl_fst ?_ (fun _ _ _ => ?_) | dsimp only

theorem State.fabReleases_keeps {M : Nat} {r : State} {a0} (hm : 0x900592 ||| M = M) (h : Keeps M r a0) :
    Keeps M r (State.fabReleases a0) := by
  refine h.next hm ?_
  clear h
  have h := Keeps.refl (M := 0x900592) a0
  unfold State.fabReleases
  repeat' first
    | with_reducible first
        | assumption | refine Keeps.ite ?_ ?_ | refine State.releaseGraph_keeps (by decide) ?_
        | refine State.delay_keeps (by decide) ?_ | refine Keeps.foldl ?_ (fun _ _ _ => ?_) | dsimp only
    | split

theorem State.removeGraph_keeps {M : Nat} {r : State} {a0 a1} (hm : 0x101090 ||| M = M) (h : Keeps M r a0) :
    Keeps M r (State.removeGraph a0 a1) := by
  refine h.next hm ?_
  clear h
  have h := Keeps.refl (M := 0x101090) a0
  unfold State.removeGraph
  repeat' first
    | with_reducible first
        | assumption | refine Keeps.ite ?_ ?_ | refine State.wr_keeps (by decide) ?_
        | refine State.clearAlarms_keeps (by decide) ?_ | refine State.markGraph_keeps (by decide) ?_
        | refine State.modGraph_keeps (by decide) ?_ | dsimp only
    | split

theorem State.fabReplace_keeps {M : Nat} {r : State} {a0 a1} (hm : 0x901592 ||| M = M) (h : Keeps M r a0) :
    Keeps M r (State.fabReplace a0 a1) := by
  refine h.next hm ?_
  clear h
  have h := Keeps.refl (M := 0x901592) a0
  unfold State.fabReplace
  repeat' first
    | with_reducible first
        | assumption | refine Keeps.ite ?_ ?_ | refine State.removeGraph_keeps (by decide) ?_
        | refine State.modFab_keeps (by decide) ?_ (by first | exact (fun h => h) | exact Fab.initOps_ok | exact (fun h => ⟨tabWf_tabSet (h.1), h.2⟩) | exact (fun h => ⟨tabWf_tabMod (h.1), h.2⟩) | exact (fun h => ⟨h.1, tabWf_tabSet (h.2.1), h.2.2⟩) | exact (fun h => ⟨h.1, tabWf_tabMod (h.2.1), h.2.2⟩) | exact (fun h => ⟨h.1, h.2.1, tabWf_tabSet (h.2.2.1), h.2.2.2⟩) | exact (fun h => ⟨h.1, h.2.1, tabWf_tabMod (h.2.2.1), h.2.2.2⟩) | exact (fun h => ⟨h.1, h.2.1, h.2.2.1, tabWf_tabSet (h.2.2.2.1), h.2.2.2.2⟩) | exact (fun h => ⟨h.1, h.2.1, h.2.2.1, tabWf_tabMod (h.2.2.2.1), h.2.2.2.2⟩) | exact (fun h => ⟨h.1, h.2.1, h.2.2.1, h.2.2.2.1, tabWf_tabSet (h.2.2.2.2)⟩) | exact (fun h => ⟨h.1, h.2.1, h.2.2.1, h.2.2.2.1, tabWf_tabMod (h.2.2.2.2)⟩) | exact (fun h => ⟨h.1, h.2.1, h.2.2.1, h.2.2.2.1, tabWf_tabMap⟩) | exact (fun h => ⟨h.1, tabWf_tabDrop h.2.1, h.2.2⟩) | exact (fun h => ⟨h.1, h.2.1, rfl, rfl, rfl⟩) | exact (fun _ => ⟨rfl, rfl, rfl, rfl, rfl⟩))
        | refine State.showTables_keeps (by decide) ?_ | refine State.markGraph_keeps (by decide) ?_
        | refine State.modGraph_keeps (by decide) ?_ | refine State.wr_keeps (by decide) ?_
        | refine State.releaseAgain_keeps (by decide) ?_ | refine State.refreshGraphs_keeps (by decide) ?_
        | refine Keeps.foldl ?_ (fun _ _ _ => ?_) | refine Keeps.foldl_fst ?_ (fun _ _ _ => ?_)
        | refine Keeps.foldl_snd ?_ (fun _ _ _ => ?_) | dsimp only
    | split

theorem State.storeError_keeps {M : Nat} {r : State} {a0 a1 a2 a3} (hm : 0x901552 ||| M = M) (h : Keeps M r a0) :
    Keeps M r (State.storeError a0 a1 a2 a3) := by
  refine h.next hm ?_
  clear h
  have h := Keeps.refl (M := 0x901552) a0
  unfold State.storeError
  repeat' first
    | with_reducible first
        | assumption | refine Keeps.ite ?_ ?_
        | refine State.modFab_keeps (by decide) ?_ (by first | exact (fun h => h) | exact Fab.initOps_ok | exact (fun h => ⟨tabWf_tabSet (h.1), h.2⟩) | exact (fun h => ⟨tabWf_tabMod (h.1), h.2⟩) | exact (fun h => ⟨h.1, tabWf_tabSet (h.2.1), h.2.2⟩) | exact (fun h => ⟨h.1, tabWf_tabMod (h.2.1), h.2.2⟩) | exact (fun h => ⟨h.1, h.2.1, tabWf_tabSet (h.2.2.1), h.2.2.2⟩) | exact (fun h => ⟨h.1, h.2.1, tabWf_tabMod (h.2.2.1), h.2.2.2⟩) | exact (fun h => ⟨h.1, h.2.1, h.2.2.1, tabWf_tabSet (h.2.2.2.1), h.2.2.2.2⟩) | exact (fun h => ⟨h.1, h.2.1, h.2.2.1, tabWf_tabMod (h.2.2.2.1), h.2.2.2.2⟩) | exact (fun h => ⟨h.1, h.2.1, h.2.2.1, h.2.2.2.1, tabWf_tabSet (h.2.2.2.2)⟩) | exact (fun h => ⟨h.1, h.2.1, h.2.2.1, h.2.2.2.1, tabWf_tabMod (h.2.2.2.2)⟩) | exact (fun h => ⟨h.1, h.2.1, h.2.2.1, h.2.2.2.1, tabWf_tabMap⟩) | exact (fun h => ⟨h.1, tabWf_tabDrop h.2.1, h.2.2⟩) | exact (fun h => ⟨h.1, h.2.1, rfl, rfl, rfl⟩) | exact (fun _ => ⟨rfl, rfl, rfl, rfl, rfl⟩))
        | refine State.reportWord_keeps (by decide) ?_ | dsimp only
    | split

theorem State.fabricErrors_keeps {M : Nat} {r : State} {a0 a1 a2 a3} (hm : 0x182b017d2 ||| M = M) (h : Keeps M r a0) :
    Keeps M r (State.fabricErrors a0 a1 a2 a3) := by
  refine h.next hm ?_
  clear h
  have h := Keeps.refl (M := 0x182b017d2) a0
  unfold State.fabricErrors
  repeat' first
    | with_reducible first
        | assumption | refine Keeps.ite ?_ ?_ | refine State.readWord_keeps (by decide) ?_
        | refine State.storeError_keeps (by decide) ?_ | refine Keeps.foldl ?_ (fun _ _ _ => ?_)
        | refine Keeps.foldl_fst ?_ (fun _ _ _ => ?_) | refine Keeps.foldl_snd ?_ (fun _ _ _ => ?_) | dsimp only
    | split

theorem State.fabricTouch_keeps {M : Nat} {r : State} {a0 a1} (hm : 0xc0 ||| M = M) (h : Keeps M r a0) :
    Keeps M r (State.fabricTouch a0 a1) := by
  refine h.next hm ?_
  clear h
  have h := Keeps.refl (M := 0xc0) a0
  unfold State.fabricTouch
  repeat' first
    | with_reducible first
        | assumption | refine Keeps.ite ?_ ?_ | refine State.touchBench_keeps (by decide) ?_
        | refine Keeps.foldl ?_ (fun _ _ _ => ?_) | dsimp only
    | split

theorem State.hostRelease_keeps {M : Nat} {r : State} {a0 a1} (hm : 0x900592 ||| M = M) (h : Keeps M r a0) :
    Keeps M r (State.hostRelease a0 a1) := by
  refine h.next hm ?_
  clear h
  have h := Keeps.refl (M := 0x900592) a0
  unfold State.hostRelease
  repeat' first
    | with_reducible first
        | assumption | refine Keeps.ite ?_ ?_ | refine State.releaseGraph_keeps (by decide) ?_
        | refine State.raise_keeps (by decide) ?_ | refine State.count_keeps (by decide) ?_ | dsimp only
    | split

theorem State.lateReleases_keeps {M : Nat} {r : State} {a0} (hm : 0x900592 ||| M = M) (h : Keeps M r a0) :
    Keeps M r (State.lateReleases a0) := by
  refine h.next hm ?_
  clear h
  have h := Keeps.refl (M := 0x900592) a0
  unfold State.lateReleases
  repeat' first
    | with_reducible first
        | assumption
        | refine State.modFab_keeps (by decide) ?_ (by first | exact (fun h => h) | exact Fab.initOps_ok | exact (fun h => ⟨tabWf_tabSet (h.1), h.2⟩) | exact (fun h => ⟨tabWf_tabMod (h.1), h.2⟩) | exact (fun h => ⟨h.1, tabWf_tabSet (h.2.1), h.2.2⟩) | exact (fun h => ⟨h.1, tabWf_tabMod (h.2.1), h.2.2⟩) | exact (fun h => ⟨h.1, h.2.1, tabWf_tabSet (h.2.2.1), h.2.2.2⟩) | exact (fun h => ⟨h.1, h.2.1, tabWf_tabMod (h.2.2.1), h.2.2.2⟩) | exact (fun h => ⟨h.1, h.2.1, h.2.2.1, tabWf_tabSet (h.2.2.2.1), h.2.2.2.2⟩) | exact (fun h => ⟨h.1, h.2.1, h.2.2.1, tabWf_tabMod (h.2.2.2.1), h.2.2.2.2⟩) | exact (fun h => ⟨h.1, h.2.1, h.2.2.1, h.2.2.2.1, tabWf_tabSet (h.2.2.2.2)⟩) | exact (fun h => ⟨h.1, h.2.1, h.2.2.1, h.2.2.2.1, tabWf_tabMod (h.2.2.2.2)⟩) | exact (fun h => ⟨h.1, h.2.1, h.2.2.1, h.2.2.2.1, tabWf_tabMap⟩) | exact (fun h => ⟨h.1, tabWf_tabDrop h.2.1, h.2.2⟩) | exact (fun h => ⟨h.1, h.2.1, rfl, rfl, rfl⟩) | exact (fun _ => ⟨rfl, rfl, rfl, rfl, rfl⟩))
        | refine State.releaseByItem_keeps (by decide) ?_ | refine Keeps.foldl ?_ (fun _ _ _ => ?_)
        | refine Keeps.foldl_fst ?_ (fun _ _ _ => ?_) | refine Keeps.foldl_snd ?_ (fun _ _ _ => ?_) | dsimp only
    | split

theorem State.nextOnEngine_keeps {M : Nat} {r : State} {a0 a1} (hm : 0x200100000 ||| M = M) (h : Keeps M r a0) :
    Keeps M r (State.nextOnEngine a0 a1) := by
  refine h.next hm ?_
  clear h
  have h := Keeps.refl (M := 0x200100000) a0
  unfold State.nextOnEngine
  repeat' first
    | with_reducible first
        | assumption | refine State.modEngine_keeps (by decide) ?_ | refine State.askRun_keeps (by decide) ?_ | dsimp only
    | split

theorem State.noteReady_keeps {M : Nat} {r : State} {a0} (hm : 0x10 ||| M = M) (h : Keeps M r a0) :
    Keeps M r (State.noteReady a0) := by
  refine h.next hm ?_
  clear h
  have h := Keeps.refl (M := 0x10) a0
  unfold State.noteReady
  repeat' first
    | with_reducible first
        | assumption | refine Keeps.ite ?_ ?_ | refine State.wr_keeps (by decide) ?_ | dsimp only
    | split

theorem State.reachCycle_keeps {M : Nat} {r : State} {a0 a1} (hm : 0x9005b2 ||| M = M) (h : Keeps M r a0) :
    Keeps M r (State.reachCycle a0 a1) := by
  refine h.next hm ?_
  clear h
  have h := Keeps.refl (M := 0x9005b2) a0
  unfold State.reachCycle
  repeat' first
    | with_reducible first
        | assumption | refine Keeps.ite ?_ ?_ | refine State.lateReleases_keeps (by decide) ?_ | dsimp only
    | split
  all_goals with_reducible refine Keeps.upd ?_
  all_goals (repeat' first
    | with_reducible first
        | assumption | refine Keeps.ite ?_ ?_ | refine State.lateReleases_keeps (by decide) ?_ | dsimp only
    | split)

theorem State.reachTime_keeps {M : Nat} {r : State} {a0 a1} (hm : 0x9005b2 ||| M = M) (h : Keeps M r a0) :
    Keeps M r (State.reachTime a0 a1) := by
  refine h.next hm ?_
  clear h
  have h := Keeps.refl (M := 0x9005b2) a0
  unfold State.reachTime
  repeat' first
    | with_reducible first
        | assumption | refine State.reachCycle_keeps (by decide) ?_ | dsimp only

theorem State.recordMiss_keeps {M : Nat} {r : State} {a0 a1 a2 a3} (hm : 0x101592 ||| M = M) (h : Keeps M r a0) :
    Keeps M r (State.recordMiss a0 a1 a2 a3) := by
  refine h.next hm ?_
  clear h
  have h := Keeps.refl (M := 0x101592) a0
  unfold State.recordMiss
  repeat' first
    | with_reducible first
        | assumption | refine State.setBit_keeps (by decide) ?_ | refine State.count_keeps (by decide) ?_
        | refine State.wr_keeps (by decide) ?_ | refine State.raise_keeps (by decide) ?_
        | refine State.pulseCond_keeps (by decide) ?_ | refine State.markGraph_keeps (by decide) ?_ | dsimp only

theorem State.trigger_keeps {M : Nat} {r : State} {a0 a1} (hm : 0x900592 ||| M = M) (h : Keeps M r a0) :
    Keeps M r (State.trigger a0 a1) := by
  refine h.next hm ?_
  clear h
  have h := Keeps.refl (M := 0x900592) a0
  unfold State.trigger
  repeat' first
    | with_reducible first
        | assumption | refine State.releaseGraph_keeps (by decide) ?_ | refine Keeps.foldl ?_ (fun _ _ _ => ?_) | dsimp only

theorem execAlarm_keeps {a0} : KeepsO 0x9005b2 a0 (execAlarm a0) := by
  have h := Keeps.refl (M := 0x9005b2) a0
  unfold execAlarm
  repeat' first
    | with_reducible first
        | assumption | refine KeepsO.next ?_ | exact KeepsO.refused | refine KeepsO.ite ?_ ?_ | refine Keeps.ite ?_ ?_
        | refine State.reachCycle_keeps (by decide) ?_ | refine State.reachTime_keeps (by decide) ?_
        | refine State.raise_keeps (by decide) ?_ | refine State.wr_keeps (by decide) ?_
        | refine State.hostRelease_keeps (by decide) ?_ | dsimp only
    | split

theorem execCarrierInstant_keeps {a0 a1 a2} : KeepsO 0x904592 a2 (execCarrierInstant a0 a1 a2) := by
  have h := Keeps.refl (M := 0x904592) a2
  unfold execCarrierInstant
  repeat' first
    | with_reducible first
        | assumption | refine KeepsO.next ?_ | exact KeepsO.refused | refine KeepsO.ite ?_ ?_ | refine Keeps.ite ?_ ?_
        | refine State.carrierInstant_keeps (by decide) ?_ | refine State.mirrorOf_keeps (by decide) ?_
        | refine State.trigger_keeps (by decide) ?_ | dsimp only
    | split

theorem execDeadlineMiss_keeps {a0 a1} : KeepsO 0x2009015b2 a1 (execDeadlineMiss a0 a1) := by
  have h := Keeps.refl (M := 0x2009015b2) a1
  unfold execDeadlineMiss
  repeat' first
    | with_reducible first
        | assumption | refine KeepsO.next ?_ | exact KeepsO.refused | refine KeepsO.ite ?_ ?_
        | refine State.cancelJob_keeps (by decide) ?_ | refine State.reachCycle_keeps (by decide) ?_
        | refine State.mirrorJob_keeps (by decide) ?_ | refine State.endJob_keeps (by decide) ?_
        | refine State.recordMiss_keeps (by decide) ?_ | refine State.dropWaiting_keeps (by decide) ?_
        | refine State.showFlow_keeps (by decide) ?_ | refine State.releaseAgain_keeps (by decide) ?_ | dsimp only
    | split
  all_goals with_reducible refine Keeps.upd ?_
  all_goals (repeat' first
    | with_reducible first
        | assumption | refine KeepsO.next ?_ | exact KeepsO.refused | refine KeepsO.ite ?_ ?_
        | refine State.cancelJob_keeps (by decide) ?_ | refine State.reachCycle_keeps (by decide) ?_
        | refine State.mirrorJob_keeps (by decide) ?_ | refine State.endJob_keeps (by decide) ?_
        | refine State.recordMiss_keeps (by decide) ?_ | refine State.dropWaiting_keeps (by decide) ?_
        | refine State.showFlow_keeps (by decide) ?_ | refine State.releaseAgain_keeps (by decide) ?_ | dsimp only
    | split)

theorem execFabTick_keeps {a0} : KeepsO 0x9005b2 a0 (execFabTick a0) := by
  have h := Keeps.refl (M := 0x9005b2) a0
  unfold execFabTick
  repeat' first
    | with_reducible first
        | assumption | refine KeepsO.next ?_ | exact KeepsO.refused | refine KeepsO.ite ?_ ?_ | refine Keeps.ite ?_ ?_
        | refine State.reachCycle_keeps (by decide) ?_
        | refine State.modFab_keeps (by decide) ?_ (by first | exact (fun h => h) | exact Fab.initOps_ok | exact (fun h => ⟨tabWf_tabSet (h.1), h.2⟩) | exact (fun h => ⟨tabWf_tabMod (h.1), h.2⟩) | exact (fun h => ⟨h.1, tabWf_tabSet (h.2.1), h.2.2⟩) | exact (fun h => ⟨h.1, tabWf_tabMod (h.2.1), h.2.2⟩) | exact (fun h => ⟨h.1, h.2.1, tabWf_tabSet (h.2.2.1), h.2.2.2⟩) | exact (fun h => ⟨h.1, h.2.1, tabWf_tabMod (h.2.2.1), h.2.2.2⟩) | exact (fun h => ⟨h.1, h.2.1, h.2.2.1, tabWf_tabSet (h.2.2.2.1), h.2.2.2.2⟩) | exact (fun h => ⟨h.1, h.2.1, h.2.2.1, tabWf_tabMod (h.2.2.2.1), h.2.2.2.2⟩) | exact (fun h => ⟨h.1, h.2.1, h.2.2.1, h.2.2.2.1, tabWf_tabSet (h.2.2.2.2)⟩) | exact (fun h => ⟨h.1, h.2.1, h.2.2.1, h.2.2.2.1, tabWf_tabMod (h.2.2.2.2)⟩) | exact (fun h => ⟨h.1, h.2.1, h.2.2.1, h.2.2.2.1, tabWf_tabMap⟩) | exact (fun h => ⟨h.1, tabWf_tabDrop h.2.1, h.2.2⟩) | exact (fun h => ⟨h.1, h.2.1, rfl, rfl, rfl⟩) | exact (fun _ => ⟨rfl, rfl, rfl, rfl, rfl⟩))
        | refine State.delay_keeps (by decide) ?_ | refine State.releaseGraph_keeps (by decide) ?_
        | refine State.modJob_keeps (by decide) ?_ | refine Keeps.foldl ?_ (fun _ _ _ => ?_)
        | refine Keeps.foldl_fst ?_ (fun _ _ _ => ?_) | refine Keeps.foldl_snd ?_ (fun _ _ _ => ?_) | dsimp only
    | split

theorem execHostRelease_keeps {a0} : KeepsO 0x900592 a0 (execHostRelease a0) := by
  have h := Keeps.refl (M := 0x900592) a0
  unfold execHostRelease
  repeat' first
    | with_reducible first
        | assumption | refine KeepsO.next ?_ | exact KeepsO.refused | refine KeepsO.byHost ?_ | refine KeepsO.ite ?_ ?_
        | refine State.hostRelease_keeps (by decide) ?_ | dsimp only

theorem execJobCommit_keeps {a0 a1} : KeepsO 0xd05592 a1 (execJobCommit a0 a1) := by
  have h := Keeps.refl (M := 0xd05592) a1
  unfold execJobCommit
  repeat' first
    | with_reducible first
        | assumption | refine KeepsO.next ?_ | exact KeepsO.refused | refine KeepsO.ite ?_ ?_ | refine Keeps.ite ?_ ?_
        | refine State.mirrorJob_keeps (by decide) ?_ | refine State.commitJob_keeps (by decide) ?_ | dsimp only
    | split

theorem execOpComplete_keeps {a0 a1 a2 a3} : KeepsO 0x382b017f6 a3 (execOpComplete a0 a1 a2 a3) := by
  have h := Keeps.refl (M := 0x382b017f6) a3
  unfold execOpComplete
  repeat' first
    | with_reducible first
        | assumption | refine KeepsO.next ?_ | exact KeepsO.refused | refine KeepsO.ite ?_ ?_ | refine Keeps.ite ?_ ?_
        | refine State.reachCycle_keeps (by decide) ?_ | refine State.fabricTouch_keeps (by decide) ?_
        | refine State.fabricErrors_keeps (by decide) ?_ | refine State.evalOp_keeps (by decide) ?_
        | refine State.delay_keeps (by decide) ?_ | refine State.modJob_keeps (by decide) ?_
        | refine State.nextOnEngine_keeps (by decide) ?_ | dsimp only
    | split

theorem execOpDispatch_keeps {a0} : KeepsO 0x200100512 a0 (execOpDispatch a0) := by
  have h := Keeps.refl (M := 0x200100512) a0
  unfold execOpDispatch
  repeat' first
    | with_reducible first
        | assumption | refine KeepsO.next ?_ | exact KeepsO.refused | refine KeepsO.ite ?_ ?_ | refine Keeps.ite ?_ ?_
        | refine State.noteReady_keeps (by decide) ?_ | refine State.dispatch_keeps (by decide) ?_ | dsimp only
    | split

theorem execQueueSpaceRelease_keeps {a0 a1} : KeepsO 0x100592 a1 (execQueueSpaceRelease a0 a1) := by
  have h := Keeps.refl (M := 0x100592) a1
  unfold execQueueSpaceRelease
  repeat' first
    | with_reducible first
        | assumption | refine KeepsO.next ?_ | exact KeepsO.refused | refine KeepsO.ite ?_ ?_ | refine Keeps.ite ?_ ?_
        | refine State.tryStart_keeps (by decide) ?_
        | refine State.modFab_keeps (by decide) ?_ (by first | exact (fun h => h) | exact Fab.initOps_ok | exact (fun h => ⟨tabWf_tabSet (h.1), h.2⟩) | exact (fun h => ⟨tabWf_tabMod (h.1), h.2⟩) | exact (fun h => ⟨h.1, tabWf_tabSet (h.2.1), h.2.2⟩) | exact (fun h => ⟨h.1, tabWf_tabMod (h.2.1), h.2.2⟩) | exact (fun h => ⟨h.1, h.2.1, tabWf_tabSet (h.2.2.1), h.2.2.2⟩) | exact (fun h => ⟨h.1, h.2.1, tabWf_tabMod (h.2.2.1), h.2.2.2⟩) | exact (fun h => ⟨h.1, h.2.1, h.2.2.1, tabWf_tabSet (h.2.2.2.1), h.2.2.2.2⟩) | exact (fun h => ⟨h.1, h.2.1, h.2.2.1, tabWf_tabMod (h.2.2.2.1), h.2.2.2.2⟩) | exact (fun h => ⟨h.1, h.2.1, h.2.2.1, h.2.2.2.1, tabWf_tabSet (h.2.2.2.2)⟩) | exact (fun h => ⟨h.1, h.2.1, h.2.2.1, h.2.2.2.1, tabWf_tabMod (h.2.2.2.2)⟩) | exact (fun h => ⟨h.1, h.2.1, h.2.2.1, h.2.2.2.1, tabWf_tabMap⟩) | exact (fun h => ⟨h.1, tabWf_tabDrop h.2.1, h.2.2⟩) | exact (fun h => ⟨h.1, h.2.1, rfl, rfl, rfl⟩) | exact (fun _ => ⟨rfl, rfl, rfl, rfl, rfl⟩))
        | dsimp only
    | split

end Sys2Proof.Machine
end

