-- ==== Sys2Proof/Laws/KeepsDrvCarrier.lean ====
section
/-! SUPPORT. What each operation of Machine/DrvCarrier.lean keeps (Laws/Keeps.lean). -/

set_option Elab.async false

namespace Sys2Proof.Machine

theorem State.drvApplySet_keeps {M : Nat} {r : State} {a0 a1 a2} (hm : 0x40010 ||| M = M) (h : Keeps M r a0) :
    Keeps M r (State.drvApplySet a0 a1 a2) := by
  refine h.next hm ?_
  clear h
  have h := Keeps.refl (M := 0x40010) a0
  unfold State.drvApplySet
  repeat' first
    | with_reducible first
        | assumption | refine Keeps.ite ?_ ?_ | refine State.modDrv_keeps (by decide) ?_
        | refine State.wr_keeps (by decide) ?_ | dsimp only
    | split

theorem execDrvPeriodStart_keeps {a0 a1 a2} : KeepsO 0x941596 a2 (execDrvPeriodStart a0 a1 a2) := by
  have h := Keeps.refl (M := 0x941596) a2
  unfold execDrvPeriodStart
  repeat' first
    | with_reducible first
        | assumption | refine KeepsO.next ?_ | exact KeepsO.refused | refine KeepsO.ite ?_ ?_ | refine Keeps.ite ?_ ?_
        | refine State.mirrorOf_keeps (by decide) ?_ | refine State.drvFlush_keeps (by decide) ?_
        | refine State.drvDrop_keeps (by decide) ?_ | refine State.drvSchedule_keeps (by decide) ?_
        | refine State.modDrv_keeps (by decide) ?_ | refine State.trigger_keeps (by decide) ?_ | dsimp only
    | split

theorem execDrvReload_keeps {a0 a1} : KeepsO 0x941596 a1 (execDrvReload a0 a1) := by
  have h := Keeps.refl (M := 0x941596) a1
  unfold execDrvReload
  repeat' first
    | with_reducible first
        | assumption | refine KeepsO.next ?_ | exact KeepsO.refused | refine KeepsO.ite ?_ ?_ | refine Keeps.ite ?_ ?_
        | refine State.mirrorOf_keeps (by decide) ?_ | refine State.drvTakeMode_keeps (by decide) ?_
        | refine State.modDrv_keeps (by decide) ?_ | refine State.drvApplySet_keeps (by decide) ?_
        | refine State.drvTakeCtl_keeps (by decide) ?_ | refine State.raiseAt_keeps (by decide) ?_
        | refine State.trigger_keeps (by decide) ?_ | dsimp only
    | split

end Sys2Proof.Machine
end

