-- ==== Sys2Proof/Laws/KeepsOrd.lean ====
section
/-! SUPPORT. What each operation of Machine/Ord.lean keeps (Laws/Keeps.lean). -/

set_option Elab.async false

namespace Sys2Proof.Machine

theorem State.modOrd_keeps {M : Nat} {r s : State} {f : Ord → Ord} (hm : 0x200000 ||| M = M) (h : Keeps M r s)
    (hf : Safety.OrdersOk s.ord → Safety.OrdersOk (f s.ord)) : Keeps M r (State.modOrd s f) := by
  refine h.trans ?_
  unfold State.modOrd
  exact Keeps.upd (.refl s) (hOrders := hf) (hord := (KeptAt.mono hm (.inl (by decide) : KeptAt 0x200000 21 _)))

theorem State.modGen_keeps {M : Nat} {r : State} {a0 a1 a2} (hm : 0x200000 ||| M = M) (h : Keeps M r a0) :
    Keeps M r (State.modGen a0 a1 a2) := by
  refine h.next hm ?_
  clear h
  have h := Keeps.refl (M := 0x200000) a0
  unfold State.modGen
  repeat' first
    | with_reducible first
        | assumption
        | refine State.modOrd_keeps (by decide) ?_ (by first | exact (fun h => h) | exact (fun h => ⟨tabWf_tabSet (h.1), h.2⟩) | exact (fun h => ⟨tabWf_tabMod (h.1), h.2⟩) | exact (fun h => ⟨h.1, tabWf_tabSet (h.2.1), h.2.2⟩) | exact (fun h => ⟨h.1, tabWf_tabMod (h.2.1), h.2.2⟩) | exact (fun h => ⟨h.1, h.2.1, tabWf_tabSet (h.2.2)⟩) | exact (fun h => ⟨h.1, h.2.1, tabWf_tabMod (h.2.2)⟩) | exact (fun _ => ⟨rfl, rfl, rfl⟩))
        | dsimp only

theorem State.modRamp_keeps {M : Nat} {r : State} {a0 a1 a2} (hm : 0x200000 ||| M = M) (h : Keeps M r a0) :
    Keeps M r (State.modRamp a0 a1 a2) := by
  refine h.next hm ?_
  clear h
  have h := Keeps.refl (M := 0x200000) a0
  unfold State.modRamp
  repeat' first
    | with_reducible first
        | assumption
        | refine State.modOrd_keeps (by decide) ?_ (by first | exact (fun h => h) | exact (fun h => ⟨tabWf_tabSet (h.1), h.2⟩) | exact (fun h => ⟨tabWf_tabMod (h.1), h.2⟩) | exact (fun h => ⟨h.1, tabWf_tabSet (h.2.1), h.2.2⟩) | exact (fun h => ⟨h.1, tabWf_tabMod (h.2.1), h.2.2⟩) | exact (fun h => ⟨h.1, h.2.1, tabWf_tabSet (h.2.2)⟩) | exact (fun h => ⟨h.1, h.2.1, tabWf_tabMod (h.2.2)⟩) | exact (fun _ => ⟨rfl, rfl, rfl⟩))
        | dsimp only

theorem State.showResumed_keeps {M : Nat} {r : State} {a0 a1} (hm : 0x80000090 ||| M = M) (h : Keeps M r a0) :
    Keeps M r (State.showResumed a0 a1) := by
  refine h.next hm ?_
  clear h
  have h := Keeps.refl (M := 0x80000090) a0
  unfold State.showResumed
  repeat' first
    | with_reducible first
        | assumption | refine State.setBoth_keeps (by decide) ?_ | refine State.setBit_keeps (by decide) ?_
        | refine Keeps.foldl ?_ (fun _ _ _ => ?_) | refine Keeps.foldl_fst ?_ (fun _ _ _ => ?_)
        | refine Keeps.foldl_snd ?_ (fun _ _ _ => ?_) | dsimp only

theorem State.startGen_keeps {M : Nat} {r : State} {a0 a1 a2 a3} (hm : 0x200000 ||| M = M) (h : Keeps M r a0) :
    Keeps M r (State.startGen a0 a1 a2 a3) := by
  refine h.next hm ?_
  clear h
  have h := Keeps.refl (M := 0x200000) a0
  unfold State.startGen
  repeat' first
    | with_reducible first
        | assumption | refine State.modGen_keeps (by decide) ?_ | dsimp only

theorem State.modInput_keeps {M : Nat} {r : State} {a0 a1 a2} (hm : 0x200000 ||| M = M) (h : Keeps M r a0) :
    Keeps M r (State.modInput a0 a1 a2) := by
  refine h.next hm ?_
  clear h
  have h := Keeps.refl (M := 0x200000) a0
  unfold State.modInput
  repeat' first
    | with_reducible first
        | assumption
        | refine State.modOrd_keeps (by decide) ?_ (by first | exact (fun h => h) | exact (fun h => ⟨tabWf_tabSet (h.1), h.2⟩) | exact (fun h => ⟨tabWf_tabMod (h.1), h.2⟩) | exact (fun h => ⟨h.1, tabWf_tabSet (h.2.1), h.2.2⟩) | exact (fun h => ⟨h.1, tabWf_tabMod (h.2.1), h.2.2⟩) | exact (fun h => ⟨h.1, h.2.1, tabWf_tabSet (h.2.2)⟩) | exact (fun h => ⟨h.1, h.2.1, tabWf_tabMod (h.2.2)⟩) | exact (fun _ => ⟨rfl, rfl, rfl⟩))
        | dsimp only

theorem State.restRamp_keeps {M : Nat} {r : State} {a0 a1} (hm : 0x200000 ||| M = M) (h : Keeps M r a0) :
    Keeps M r (State.restRamp a0 a1) := by
  refine h.next hm ?_
  clear h
  have h := Keeps.refl (M := 0x200000) a0
  unfold State.restRamp
  repeat' first
    | with_reducible first
        | assumption | refine State.modRamp_keeps (by decide) ?_ | dsimp only

theorem State.ordStart_keeps {M : Nat} {r : State} {a0} (hm : 0x80200090 ||| M = M) (h : Keeps M r a0) :
    Keeps M r (State.ordStart a0) := by
  refine h.next hm ?_
  clear h
  have h := Keeps.refl (M := 0x80200090) a0
  unfold State.ordStart
  repeat' first
    | with_reducible first
        | assumption
        | refine State.modOrd_keeps (by decide) ?_ (by first | exact (fun h => h) | exact (fun h => ⟨tabWf_tabSet (h.1), h.2⟩) | exact (fun h => ⟨tabWf_tabMod (h.1), h.2⟩) | exact (fun h => ⟨h.1, tabWf_tabSet (h.2.1), h.2.2⟩) | exact (fun h => ⟨h.1, tabWf_tabMod (h.2.1), h.2.2⟩) | exact (fun h => ⟨h.1, h.2.1, tabWf_tabSet (h.2.2)⟩) | exact (fun h => ⟨h.1, h.2.1, tabWf_tabMod (h.2.2)⟩) | exact (fun _ => ⟨rfl, rfl, rfl⟩))
        | refine State.wr_keeps (by decide) ?_ | refine State.setBoth_keeps (by decide) ?_
        | refine State.modInput_keeps (by decide) ?_ | refine State.restRamp_keeps (by decide) ?_
        | refine State.startGen_keeps (by decide) ?_ | refine Keeps.foldl ?_ (fun _ _ _ => ?_) | dsimp only

theorem State.genFree_keeps {M : Nat} {r : State} {a0 a1} (hm : 0x200516 ||| M = M) (h : Keeps M r a0) :
    Keeps M r (State.genFree a0 a1) := by
  refine h.next hm ?_
  clear h
  have h := Keeps.refl (M := 0x200516) a0
  unfold State.genFree
  repeat' first
    | with_reducible first
        | assumption | refine Keeps.ite ?_ ?_ | refine State.modGen_keeps (by decide) ?_
        | refine State.draw_keeps (by decide) ?_ | refine State.raise_keeps (by decide) ?_ | dsimp only
    | split

theorem State.genMode_keeps {M : Nat} {r : State} {a0 a1} (hm : 0x200010 ||| M = M) (h : Keeps M r a0) :
    Keeps M r (State.genMode a0 a1) := by
  refine h.next hm ?_
  clear h
  have h := Keeps.refl (M := 0x200010) a0
  unfold State.genMode
  repeat' first
    | with_reducible first
        | assumption | refine Keeps.ite ?_ ?_ | refine State.wr_keeps (by decide) ?_
        | refine State.setBit_keeps (by decide) ?_ | refine State.modGen_keeps (by decide) ?_ | dsimp only
    | split

theorem State.setBothPt_keeps {M : Nat} {r : State} {a0 a1 a2} (hm : 0x80000080 ||| M = M) (h : Keeps M r a0) :
    Keeps M r (State.setBothPt a0 a1 a2) := by
  refine h.next hm ?_
  clear h
  have h := Keeps.refl (M := 0x80000080) a0
  unfold State.setBothPt
  repeat' first
    | with_reducible first
        | assumption | refine State.setWork_keeps (by decide) ?_ | refine State.setPub_keeps (by decide) ?_ | dsimp only

theorem State.genOutputs_keeps {M : Nat} {r : State} {a0 a1} (hm : 0x80000080 ||| M = M) (h : Keeps M r a0) :
    Keeps M r (State.genOutputs a0 a1) := by
  refine h.next hm ?_
  clear h
  have h := Keeps.refl (M := 0x80000080) a0
  unfold State.genOutputs
  repeat' first
    | with_reducible first
        | assumption | refine Keeps.ite ?_ ?_ | refine State.setBothPt_keeps (by decide) ?_
        | refine State.setBoth_keeps (by decide) ?_ | dsimp only
    | split

theorem State.genRequest_keeps {M : Nat} {r : State} {a0 a1 a2} (hm : 0x200512 ||| M = M) (h : Keeps M r a0) :
    Keeps M r (State.genRequest a0 a1 a2) := by
  refine h.next hm ?_
  clear h
  have h := Keeps.refl (M := 0x200512) a0
  unfold State.genRequest
  repeat' first
    | with_reducible first
        | assumption | refine Keeps.ite ?_ ?_ | refine State.modGen_keeps (by decide) ?_
        | refine State.raise_keeps (by decide) ?_ | dsimp only
    | split

theorem State.genAdvance_keeps {M : Nat} {r : State} {a0 a1 a2 a3 a4 a5} (hm : 0x200512 ||| M = M) (h : Keeps M r a0) :
    Keeps M r (State.genAdvance a0 a1 a2 a3 a4 a5) := by
  refine h.next hm ?_
  clear h
  have h := Keeps.refl (M := 0x200512) a0
  unfold State.genAdvance
  repeat' first
    | with_reducible first
        | assumption | refine Keeps.ite ?_ ?_ | refine State.setBit_keeps (by decide) ?_
        | refine State.raise_keeps (by decide) ?_ | refine State.count_keeps (by decide) ?_
        | refine State.wr_keeps (by decide) ?_ | refine State.modGen_keeps (by decide) ?_ | dsimp only
    | split

theorem State.genTrack_keeps {M : Nat} {r : State} {a0 a1} (hm : 0x200512 ||| M = M) (h : Keeps M r a0) :
    Keeps M r (State.genTrack a0 a1) := by
  refine h.next hm ?_
  clear h
  have h := Keeps.refl (M := 0x200512) a0
  unfold State.genTrack
  repeat' first
    | with_reducible first
        | assumption | refine Keeps.ite ?_ ?_ | refine State.wr_keeps (by decide) ?_
        | refine State.setBit_keeps (by decide) ?_ | refine State.raise_keeps (by decide) ?_
        | refine State.modGen_keeps (by decide) ?_ | refine State.genAdvance_keeps (by decide) ?_ | dsimp only
    | split

theorem State.showGen_keeps {M : Nat} {r : State} {a0 a1} (hm : 0x80000080 ||| M = M) (h : Keeps M r a0) :
    Keeps M r (State.showGen a0 a1) := by
  refine h.next hm ?_
  clear h
  have h := Keeps.refl (M := 0x80000080) a0
  unfold State.showGen
  repeat' first
    | with_reducible first
        | assumption | refine State.setBoth_keeps (by decide) ?_ | dsimp only

theorem State.genSeam_keeps {M : Nat} {r : State} {a0 a1 a2} (hm : 0x80200596 ||| M = M) (h : Keeps M r a0) :
    Keeps M r (State.genSeam a0 a1 a2) := by
  refine h.next hm ?_
  clear h
  have h := Keeps.refl (M := 0x80200596) a0
  unfold State.genSeam
  repeat' first
    | with_reducible first
        | assumption | refine Keeps.ite ?_ ?_ | refine State.genMode_keeps (by decide) ?_
        | refine State.genRequest_keeps (by decide) ?_ | refine State.genFree_keeps (by decide) ?_
        | refine State.genTrack_keeps (by decide) ?_ | refine State.showGen_keeps (by decide) ?_
        | refine State.genOutputs_keeps (by decide) ?_ | dsimp only
    | split

theorem State.inputSeam_keeps {M : Nat} {r : State} {a0 a1} (hm : 0x80200592 ||| M = M) (h : Keeps M r a0) :
    Keeps M r (State.inputSeam a0 a1) := by
  refine h.next hm ?_
  clear h
  have h := Keeps.refl (M := 0x80200592) a0
  unfold State.inputSeam
  repeat' first
    | with_reducible first
        | assumption | refine Keeps.ite ?_ ?_ | refine State.modInput_keeps (by decide) ?_
        | refine State.setBit_keeps (by decide) ?_ | refine State.wr_keeps (by decide) ?_
        | refine State.raise_keeps (by decide) ?_ | refine State.setBoth_keeps (by decide) ?_
        | refine State.setBothFloat_keeps (by decide) ?_ | dsimp only
    | split

theorem State.rampDefer_keeps {M : Nat} {r : State} {a0 a1 a2} (hm : 0x200010 ||| M = M) (h : Keeps M r a0) :
    Keeps M r (State.rampDefer a0 a1 a2) := by
  refine h.next hm ?_
  clear h
  have h := Keeps.refl (M := 0x200010) a0
  unfold State.rampDefer
  repeat' first
    | with_reducible first
        | assumption | refine State.setBit_keeps (by decide) ?_ | refine State.modRamp_keeps (by decide) ?_ | dsimp only

theorem State.rampCommit_keeps {M : Nat} {r : State} {a0 a1 a2} (hm : 0x200512 ||| M = M) (h : Keeps M r a0) :
    Keeps M r (State.rampCommit a0 a1 a2) := by
  refine h.next hm ?_
  clear h
  have h := Keeps.refl (M := 0x200512) a0
  unfold State.rampCommit
  repeat' first
    | with_reducible first
        | assumption | refine Keeps.ite ?_ ?_ | refine State.raise_keeps (by decide) ?_
        | refine State.setBit_keeps (by decide) ?_ | refine State.modRamp_keeps (by decide) ?_
        | refine State.rampDefer_keeps (by decide) ?_ | dsimp only
    | split

theorem State.rampHalt_keeps {M : Nat} {r : State} {a0 a1} (hm : 0x200000 ||| M = M) (h : Keeps M r a0) :
    Keeps M r (State.rampHalt a0 a1) := by
  refine h.next hm ?_
  clear h
  have h := Keeps.refl (M := 0x200000) a0
  unfold State.rampHalt
  repeat' first
    | with_reducible first
        | assumption | refine Keeps.ite ?_ ?_ | refine State.modRamp_keeps (by decide) ?_ | dsimp only
    | split

theorem State.rampStart_keeps {M : Nat} {r : State} {a0 a1 a2} (hm : 0x200010 ||| M = M) (h : Keeps M r a0) :
    Keeps M r (State.rampStart a0 a1 a2) := by
  refine h.next hm ?_
  clear h
  have h := Keeps.refl (M := 0x200010) a0
  unfold State.rampStart
  repeat' first
    | with_reducible first
        | assumption | refine State.setBit_keeps (by decide) ?_ | refine State.modRamp_keeps (by decide) ?_ | dsimp only

theorem State.refuseRamp_keeps {M : Nat} {r : State} {a0 a1 a2 a3} (hm : 0x200512 ||| M = M) (h : Keeps M r a0) :
    Keeps M r (State.refuseRamp a0 a1 a2 a3) := by
  refine h.next hm ?_
  clear h
  have h := Keeps.refl (M := 0x200512) a0
  unfold State.refuseRamp
  repeat' first
    | with_reducible first
        | assumption | refine State.modRamp_keeps (by decide) ?_ | refine State.raise_keeps (by decide) ?_
        | refine State.setBit_keeps (by decide) ?_ | refine State.count_keeps (by decide) ?_ | dsimp only

theorem State.rampRequest_keeps {M : Nat} {r : State} {a0 a1 a2 a3} (hm : 0x200512 ||| M = M) (h : Keeps M r a0) :
    Keeps M r (State.rampRequest a0 a1 a2 a3) := by
  refine h.next hm ?_
  clear h
  have h := Keeps.refl (M := 0x200512) a0
  unfold State.rampRequest
  repeat' first
    | with_reducible first
        | assumption | refine Keeps.ite ?_ ?_ | refine State.modRamp_keeps (by decide) ?_
        | refine State.refuseRamp_keeps (by decide) ?_ | refine State.rampHalt_keeps (by decide) ?_
        | refine State.rampStart_keeps (by decide) ?_ | dsimp only
    | split

theorem State.showRamp_keeps {M : Nat} {r : State} {a0 a1} (hm : 0x80 ||| M = M) (h : Keeps M r a0) :
    Keeps M r (State.showRamp a0 a1) := by
  refine h.next hm ?_
  clear h
  have h := Keeps.refl (M := 0x80) a0
  unfold State.showRamp
  repeat' first
    | with_reducible first
        | assumption | refine State.setPoint_keeps (by decide) ?_ | refine Keeps.foldl ?_ (fun _ _ _ => ?_)
        | refine Keeps.foldl_fst ?_ (fun _ _ _ => ?_) | refine Keeps.foldl_snd ?_ (fun _ _ _ => ?_) | dsimp only

theorem State.rampSeam_keeps {M : Nat} {r : State} {a0 a1 a2} (hm : 0x200592 ||| M = M) (h : Keeps M r a0) :
    Keeps M r (State.rampSeam a0 a1 a2) := by
  refine h.next hm ?_
  clear h
  have h := Keeps.refl (M := 0x200592) a0
  unfold State.rampSeam
  repeat' first
    | with_reducible first
        | assumption | refine Keeps.ite ?_ ?_ | refine State.rampCommit_keeps (by decide) ?_
        | refine State.rampHalt_keeps (by decide) ?_ | refine State.rampRequest_keeps (by decide) ?_
        | refine State.showRamp_keeps (by decide) ?_ | dsimp only
    | split

theorem State.tableSwaps_keeps {M : Nat} {r : State} {a0} (hm : 0x512 ||| M = M) (h : Keeps M r a0) :
    Keeps M r (State.tableSwaps a0) := by
  refine h.next hm ?_
  clear h
  have h := Keeps.refl (M := 0x512) a0
  unfold State.tableSwaps
  repeat' first
    | with_reducible first
        | assumption | refine Keeps.ite ?_ ?_ | refine State.raise_keeps (by decide) ?_
        | refine State.setBit_keeps (by decide) ?_ | refine Keeps.foldl ?_ (fun _ _ _ => ?_) | dsimp only
    | split

theorem State.ordSeam_keeps {M : Nat} {r : State} {a0 a1} (hm : 0x280200596 ||| M = M) (h : Keeps M r a0) :
    Keeps M r (State.ordSeam a0 a1) := by
  refine h.next hm ?_
  clear h
  have h := Keeps.refl (M := 0x280200596) a0
  unfold State.ordSeam
  repeat' first
    | with_reducible first
        | assumption | refine Keeps.ite ?_ ?_ | refine State.tableSwaps_keeps (by decide) ?_
        | refine State.inputSeam_keeps (by decide) ?_ | refine State.rampSeam_keeps (by decide) ?_
        | refine State.modOrd_keeps (by decide) ?_ (by first | exact (fun h => h) | exact (fun h => ⟨tabWf_tabSet (h.1), h.2⟩) | exact (fun h => ⟨tabWf_tabMod (h.1), h.2⟩) | exact (fun h => ⟨h.1, tabWf_tabSet (h.2.1), h.2.2⟩) | exact (fun h => ⟨h.1, tabWf_tabMod (h.2.1), h.2.2⟩) | exact (fun h => ⟨h.1, h.2.1, tabWf_tabSet (h.2.2)⟩) | exact (fun h => ⟨h.1, h.2.1, tabWf_tabMod (h.2.2)⟩) | exact (fun _ => ⟨rfl, rfl, rfl⟩))
        | refine State.askPoints_keeps (by decide) ?_ | refine State.genSeam_keeps (by decide) ?_
        | refine Keeps.foldl ?_ (fun _ _ _ => ?_) | refine Keeps.forEach ?_ (fun _ _ _ => ?_) | dsimp only
    | split

theorem State.rampRest_keeps {M : Nat} {r : State} {a0 a1} (hm : 0x200010 ||| M = M) (h : Keeps M r a0) :
    Keeps M r (State.rampRest a0 a1) := by
  refine h.next hm ?_
  clear h
  have h := Keeps.refl (M := 0x200010) a0
  unfold State.rampRest
  repeat' first
    | with_reducible first
        | assumption | refine State.setBit_keeps (by decide) ?_ | refine State.rampDefer_keeps (by decide) ?_
        | refine State.modRamp_keeps (by decide) ?_ | dsimp only

theorem State.rampTick_keeps {M : Nat} {r : State} {a0 a1 a2} (hm : 0x200592 ||| M = M) (h : Keeps M r a0) :
    Keeps M r (State.rampTick a0 a1 a2) := by
  refine h.next hm ?_
  clear h
  have h := Keeps.refl (M := 0x200592) a0
  unfold State.rampTick
  repeat' first
    | with_reducible first
        | assumption | refine Keeps.ite ?_ ?_ | refine State.modRamp_keeps (by decide) ?_
        | refine State.rampStart_keeps (by decide) ?_ | refine State.raise_keeps (by decide) ?_
        | refine State.setBit_keeps (by decide) ?_ | refine State.rampRest_keeps (by decide) ?_
        | refine State.showRamp_keeps (by decide) ?_ | dsimp only
    | split

theorem State.tableAccess_keeps {M : Nat} {r : State} {a0 a1 a2 a3} (hm : 0x200512 ||| M = M) (h : Keeps M r a0) :
    Keeps M r (State.tableAccess a0 a1 a2 a3) := by
  refine h.next hm ?_
  clear h
  have h := Keeps.refl (M := 0x200512) a0
  unfold State.tableAccess
  repeat' first
    | with_reducible first
        | assumption | refine Keeps.ite ?_ ?_ | refine State.rejectWrite_keeps (by decide) ?_
        | refine State.modOrd_keeps (by decide) ?_ (by first | exact (fun h => h) | exact (fun h => ⟨tabWf_tabSet (h.1), h.2⟩) | exact (fun h => ⟨tabWf_tabMod (h.1), h.2⟩) | exact (fun h => ⟨h.1, tabWf_tabSet (h.2.1), h.2.2⟩) | exact (fun h => ⟨h.1, tabWf_tabMod (h.2.1), h.2.2⟩) | exact (fun h => ⟨h.1, h.2.1, tabWf_tabSet (h.2.2)⟩) | exact (fun h => ⟨h.1, h.2.1, tabWf_tabMod (h.2.2)⟩) | exact (fun _ => ⟨rfl, rfl, rfl⟩))
        | refine State.wr_keeps (by decide) ?_ | dsimp only
    | split
  all_goals with_reducible refine Keeps.upd ?_
  all_goals (repeat' first
    | with_reducible first
        | assumption | refine Keeps.ite ?_ ?_ | refine State.rejectWrite_keeps (by decide) ?_
        | refine State.modOrd_keeps (by decide) ?_ (by first | exact (fun h => h) | exact (fun h => ⟨tabWf_tabSet (h.1), h.2⟩) | exact (fun h => ⟨tabWf_tabMod (h.1), h.2⟩) | exact (fun h => ⟨h.1, tabWf_tabSet (h.2.1), h.2.2⟩) | exact (fun h => ⟨h.1, tabWf_tabMod (h.2.1), h.2.2⟩) | exact (fun h => ⟨h.1, h.2.1, tabWf_tabSet (h.2.2)⟩) | exact (fun h => ⟨h.1, h.2.1, tabWf_tabMod (h.2.2)⟩) | exact (fun _ => ⟨rfl, rfl, rfl⟩))
        | refine State.wr_keeps (by decide) ?_ | dsimp only
    | split)

theorem execGenHoldover_keeps {a0 a1} : KeepsO 0xb005b2 a1 (execGenHoldover a0 a1) := by
  have h := Keeps.refl (M := 0xb005b2) a1
  unfold execGenHoldover
  repeat' first
    | with_reducible first
        | assumption | refine KeepsO.next ?_ | exact KeepsO.refused | refine KeepsO.ite ?_ ?_ | refine Keeps.ite ?_ ?_
        | refine State.reachTime_keeps (by decide) ?_ | refine State.wr_keeps (by decide) ?_
        | refine State.setBit_keeps (by decide) ?_ | refine State.raise_keeps (by decide) ?_
        | refine State.modGen_keeps (by decide) ?_ | dsimp only
    | split

theorem execInputLoss_keeps {a0 a1} : KeepsO 0xb005b2 a1 (execInputLoss a0 a1) := by
  have h := Keeps.refl (M := 0xb005b2) a1
  unfold execInputLoss
  repeat' first
    | with_reducible first
        | assumption | refine KeepsO.next ?_ | exact KeepsO.refused | refine KeepsO.ite ?_ ?_ | refine Keeps.ite ?_ ?_
        | refine State.reachCycle_keeps (by decide) ?_ | refine State.setBit_keeps (by decide) ?_
        | refine State.wr_keeps (by decide) ?_ | refine State.raise_keeps (by decide) ?_
        | refine State.modInput_keeps (by decide) ?_ | dsimp only
    | split

theorem execOrdInCfgWrite_keeps {a0 a1 a2} : KeepsO 0x200010 a2 (execOrdInCfgWrite a0 a1 a2) := by
  have h := Keeps.refl (M := 0x200010) a2
  unfold execOrdInCfgWrite
  repeat' first
    | with_reducible first
        | assumption | refine KeepsO.next ?_ | exact KeepsO.refused | refine KeepsO.byHost ?_ | refine KeepsO.ite ?_ ?_
        | refine Keeps.ite ?_ ?_ | refine State.wr_keeps (by decide) ?_ | refine State.modInput_keeps (by decide) ?_
        | dsimp only
    | split

theorem execOrdInEdge_keeps {a0 a1 a2} : KeepsO 0x200512 a2 (execOrdInEdge a0 a1 a2) := by
  have h := Keeps.refl (M := 0x200512) a2
  unfold execOrdInEdge
  repeat' first
    | with_reducible first
        | assumption | refine KeepsO.next ?_ | exact KeepsO.refused | refine KeepsO.ite ?_ ?_ | refine Keeps.ite ?_ ?_
        | refine State.setBit_keeps (by decide) ?_ | refine State.wr_keeps (by decide) ?_
        | refine State.raise_keeps (by decide) ?_ | refine State.modInput_keeps (by decide) ?_
        | refine State.count_keeps (by decide) ?_ | dsimp only
    | split

theorem execRampHaltRequest_keeps {a0 a1} : KeepsO 0x200000 a1 (execRampHaltRequest a0 a1) := by
  have h := Keeps.refl (M := 0x200000) a1
  unfold execRampHaltRequest
  repeat' first
    | with_reducible first
        | assumption | refine KeepsO.next ?_ | exact KeepsO.refused | refine KeepsO.byHost ?_ | refine KeepsO.ite ?_ ?_
        | refine State.modOrd_keeps (by decide) ?_ (by first | exact (fun h => h) | exact (fun h => ⟨tabWf_tabSet (h.1), h.2⟩) | exact (fun h => ⟨tabWf_tabMod (h.1), h.2⟩) | exact (fun h => ⟨h.1, tabWf_tabSet (h.2.1), h.2.2⟩) | exact (fun h => ⟨h.1, tabWf_tabMod (h.2.1), h.2.2⟩) | exact (fun h => ⟨h.1, h.2.1, tabWf_tabSet (h.2.2)⟩) | exact (fun h => ⟨h.1, h.2.1, tabWf_tabMod (h.2.2)⟩) | exact (fun _ => ⟨rfl, rfl, rfl⟩))
        | dsimp only

theorem execRampTick_keeps {a0} : KeepsO 0xa00592 a0 (execRampTick a0) := by
  have h := Keeps.refl (M := 0xa00592) a0
  unfold execRampTick
  repeat' first
    | with_reducible first
        | assumption | refine KeepsO.next ?_ | exact KeepsO.refused | refine KeepsO.ite ?_ ?_ | refine Keeps.ite ?_ ?_
        | refine State.mirrorOf_keeps (by decide) ?_ | refine State.rampTick_keeps (by decide) ?_
        | refine State.modOrd_keeps (by decide) ?_ (by first | exact (fun h => h) | exact (fun h => ⟨tabWf_tabSet (h.1), h.2⟩) | exact (fun h => ⟨tabWf_tabMod (h.1), h.2⟩) | exact (fun h => ⟨h.1, tabWf_tabSet (h.2.1), h.2.2⟩) | exact (fun h => ⟨h.1, tabWf_tabMod (h.2.1), h.2.2⟩) | exact (fun h => ⟨h.1, h.2.1, tabWf_tabSet (h.2.2)⟩) | exact (fun h => ⟨h.1, h.2.1, tabWf_tabMod (h.2.2)⟩) | exact (fun _ => ⟨rfl, rfl, rfl⟩))
        | refine Keeps.foldl ?_ (fun _ _ _ => ?_) | refine Keeps.foldl_fst ?_ (fun _ _ _ => ?_) | dsimp only
    | split

theorem execTableDataWrite_keeps {a0 a1 a2 a3} : KeepsO 0x200512 a3 (execTableDataWrite a0 a1 a2 a3) := by
  have h := Keeps.refl (M := 0x200512) a3
  unfold execTableDataWrite
  repeat' first
    | with_reducible first
        | assumption | refine KeepsO.next ?_ | exact KeepsO.refused | refine KeepsO.byHost ?_
        | refine KeepsO.byReader (by decide) ?_ | refine KeepsO.ite ?_ ?_ | refine Keeps.ite ?_ ?_
        | refine State.tableAccess_keeps (by decide) ?_ | dsimp only
    | split

end Sys2Proof.Machine
end

