-- ==== Sys2Proof/Laws/KeepsBuilder.lean ====
section
/-! SUPPORT. What each operation of Machine/Builder.lean keeps (Laws/Keeps.lean). -/

set_option Elab.async false

namespace Sys2Proof.Machine

theorem State.laneBlocked_keeps {M : Nat} {r : State} {a0 a1} (hm : 0x8000 ||| M = M) (h : Keeps M r a0) :
    Keeps M r (State.laneBlocked a0 a1) := by
  refine h.next hm ?_
  clear h
  have h := Keeps.refl (M := 0x8000) a0
  unfold State.laneBlocked
  repeat' first
    | with_reducible first
        | assumption | refine State.modCell_keeps (by decide) ?_ | refine Keeps.foldl ?_ (fun _ _ _ => ?_) | dsimp only

theorem State.insertPrio_keeps {M : Nat} {r : State} {a0 a1 a2 a3} (hm : 0x18512 ||| M = M) (h : Keeps M r a0) :
    Keeps M r (State.insertPrio a0 a1 a2 a3) := by
  refine h.next hm ?_
  clear h
  have h := Keeps.refl (M := 0x18512) a0
  unfold State.insertPrio
  repeat' first
    | with_reducible first
        | assumption | refine Keeps.ite ?_ ?_ | refine State.sendNext_keeps (by decide) ?_
        | refine State.laneBlocked_keeps (by decide) ?_ | dsimp only
    | split

theorem State.checkCommand_keeps {M : Nat} {r : State} {a0 a1 a2 a3 a4 a5 a6} (hm : 0x8552 ||| M = M) (h : Keeps M r a0) :
    Keeps M r (State.checkCommand a0 a1 a2 a3 a4 a5 a6).1 := by
  refine h.next hm ?_
  clear h
  have h := Keeps.refl (M := 0x8552) a0
  unfold State.checkCommand
  repeat' first
    | with_reducible first
        | assumption | refine Keeps.ite ?_ ?_ | refine Keeps.ite_fst ?_ ?_ | refine Keeps.ite_snd ?_ ?_
        | refine State.bump_keeps (by decide) ?_ | refine State.raise_keeps (by decide) ?_
        | refine State.count_keeps (by decide) ?_ | refine State.modCell_keeps (by decide) ?_ | dsimp only
    | split

theorem State.nextSeq_keeps {M : Nat} {r : State} {a0 a1} (hm : 0x8000 ||| M = M) (h : Keeps M r a0) :
    Keeps M r (State.nextSeq a0 a1).2 := by
  refine h.next hm ?_
  clear h
  have h := Keeps.refl (M := 0x8000) a0
  unfold State.nextSeq
  repeat' first
    | with_reducible first
        | assumption | refine State.modCell_keeps (by decide) ?_ | dsimp only

theorem State.encode_keeps {M : Nat} {r : State} {a0 a1 a2 a3 a4 a5 a6} (hm : 0x8000 ||| M = M) (h : Keeps M r a0) :
    Keeps M r (State.encode a0 a1 a2 a3 a4 a5 a6).1 := by
  refine h.next hm ?_
  clear h
  have h := Keeps.refl (M := 0x8000) a0
  unfold State.encode
  repeat' first
    | with_reducible first
        | assumption | refine State.nextSeq_keeps (by decide) ?_ | dsimp only
    | split

theorem State.owe_keeps {M : Nat} {r : State} {a0 a1 a2 a3} (hm : 0x8000 ||| M = M) (h : Keeps M r a0) :
    Keeps M r (State.owe a0 a1 a2 a3) := by
  refine h.next hm ?_
  clear h
  have h := Keeps.refl (M := 0x8000) a0
  unfold State.owe
  repeat' first
    | with_reducible first
        | assumption | refine Keeps.ite ?_ ?_ | refine State.modCell_keeps (by decide) ?_ | dsimp only
    | split

theorem State.sendDead_keeps {M : Nat} {r : State} {a0 a1 a2 a3 a4 a5} (hm : 0x8000 ||| M = M) (h : Keeps M r a0) :
    Keeps M r (State.sendDead a0 a1 a2 a3 a4 a5).1 := by
  refine h.next hm ?_
  clear h
  have h := Keeps.refl (M := 0x8000) a0
  unfold State.sendDead
  repeat' first
    | with_reducible first
        | assumption | refine State.nextSeq_keeps (by decide) ?_ | refine State.modCell_keeps (by decide) ?_ | dsimp only

theorem State.sendWatch_keeps {M : Nat} {r : State} {a0 a1 a2 a3 a4 a5} (hm : 0x8000 ||| M = M) (h : Keeps M r a0) :
    Keeps M r (State.sendWatch a0 a1 a2 a3 a4 a5).1 := by
  refine h.next hm ?_
  clear h
  have h := Keeps.refl (M := 0x8000) a0
  unfold State.sendWatch
  repeat' first
    | with_reducible first
        | assumption | refine State.nextSeq_keeps (by decide) ?_ | refine State.modCell_keeps (by decide) ?_ | dsimp only

theorem State.sendFirst_keeps {M : Nat} {r : State} {a0 a1 a2 a3 a4 a5} (hm : 0x8000 ||| M = M) (h : Keeps M r a0) :
    Keeps M r (State.sendFirst a0 a1 a2 a3 a4 a5).1 := by
  refine h.next hm ?_
  clear h
  have h := Keeps.refl (M := 0x8000) a0
  unfold State.sendFirst
  repeat' first
    | with_reducible first
        | assumption | refine Keeps.ite ?_ ?_ | refine Keeps.ite_fst ?_ ?_ | refine Keeps.ite_snd ?_ ?_
        | refine State.sendDead_keeps (by decide) ?_ | refine State.sendWatch_keeps (by decide) ?_ | dsimp only
    | split

theorem State.sendOwed_keeps {M : Nat} {r : State} {a0 a1 a2 a3 a4 a5} (hm : 0x8000 ||| M = M) (h : Keeps M r a0) :
    Keeps M r (State.sendOwed a0 a1 a2 a3 a4 a5).1 := by
  refine h.next hm ?_
  clear h
  have h := Keeps.refl (M := 0x8000) a0
  unfold State.sendOwed
  repeat' first
    | with_reducible first
        | assumption | refine Keeps.ite ?_ ?_ | refine Keeps.ite_fst ?_ ?_ | refine Keeps.ite_snd ?_ ?_
        | refine State.sendFirst_keeps (by decide) ?_ | refine State.encode_keeps (by decide) ?_ | dsimp only
    | split

theorem State.place_keeps {M : Nat} {r : State} {a0 a1 a2 a3 a4 a5 a6 a7} (hm : 0x8000 ||| M = M) (h : Keeps M r a0) :
    Keeps M r (State.place a0 a1 a2 a3 a4 a5 a6 a7).1 := by
  refine h.next hm ?_
  clear h
  have h := Keeps.refl (M := 0x8000) a0
  unfold State.place
  repeat' first
    | with_reducible first
        | assumption | refine Keeps.ite ?_ ?_ | refine Keeps.ite_fst ?_ ?_ | refine Keeps.ite_snd ?_ ?_
        | refine State.sendOwed_keeps (by decide) ?_ | refine State.encode_keeps (by decide) ?_
        | refine State.sendFirst_keeps (by decide) ?_ | dsimp only
    | split

theorem State.recordCommand_keeps {M : Nat} {r : State} {a0 a1 a2 a3 a4 a5} (hm : 0x8080 ||| M = M) (h : Keeps M r a0) :
    Keeps M r (State.recordCommand a0 a1 a2 a3 a4 a5) := by
  refine h.next hm ?_
  clear h
  have h := Keeps.refl (M := 0x8080) a0
  unfold State.recordCommand
  repeat' first
    | with_reducible first
        | assumption | refine State.modCell_keeps (by decide) ?_ | refine State.setLive_keeps (by decide) ?_ | dsimp only
    | split

theorem State.allot_keeps {M : Nat} {r : State} {a0 a1 a2 a3 a4 a5 a6 a7} (hm : 0x85d2 ||| M = M) (h : Keeps M r a0) :
    Keeps M r (State.allot a0 a1 a2 a3 a4 a5 a6 a7).1 := by
  refine h.next hm ?_
  clear h
  have h := Keeps.refl (M := 0x85d2) a0
  unfold State.allot
  repeat' first
    | with_reducible first
        | assumption | refine Keeps.ite ?_ ?_ | refine Keeps.ite_fst ?_ ?_ | refine Keeps.ite_snd ?_ ?_
        | refine State.encode_keeps (by decide) ?_ | refine State.recordCommand_keeps (by decide) ?_
        | refine State.checkCommand_keeps (by decide) ?_ | refine State.place_keeps (by decide) ?_
        | refine State.owe_keeps (by decide) ?_ | refine State.modCell_keeps (by decide) ?_ | dsimp only
    | split

theorem State.allotments_keeps {M : Nat} {r : State} {a0 a1 a2 a3 a4 a5 a6 a7} (hm : 0x85d2 ||| M = M) (h : Keeps M r a0) :
    Keeps M r (State.allotments a0 a1 a2 a3 a4 a5 a6 a7).1 := by
  refine h.next hm ?_
  clear h hm
  induction a6 generalizing a0 a1 a2 a3 a4 a5 a7 with
  | nil =>
    have h := Keeps.refl (M := 0x85d2) a0
    unfold State.allotments
    repeat' first
      | with_reducible assumption
      | split
  | cons _ _ ih =>
    have h := Keeps.refl (M := 0x85d2) a0
    unfold State.allotments
    repeat' first
      | with_reducible first
          | assumption | refine State.allot_keeps (by decide) ?_ | dsimp only | refine Keeps.trans ?_ (ih ..)
      | split
      | (cases ‹_ :: _ = _ :: _›; with_reducible refine Keeps.trans ?_ (ih ..))

theorem State.checkDelay_keeps {M : Nat} {r : State} {a0 a1} (hm : 0x512 ||| M = M) (h : Keeps M r a0) :
    Keeps M r (State.checkDelay a0 a1) := by
  refine h.next hm ?_
  clear h
  have h := Keeps.refl (M := 0x512) a0
  unfold State.checkDelay
  repeat' first
    | with_reducible first
        | assumption | refine Keeps.ite ?_ ?_ | refine State.wr_keeps (by decide) ?_ | refine State.raise_keeps (by decide) ?_
        | dsimp only
    | split

theorem State.sendFrame_keeps {M : Nat} {r : State} {a0 a1 a2 a3 a4 a5} (hm : 0x185d2 ||| M = M) (h : Keeps M r a0) :
    Keeps M r (State.sendFrame a0 a1 a2 a3 a4 a5) := by
  refine h.next hm ?_
  clear h
  have h := Keeps.refl (M := 0x185d2) a0
  unfold State.sendFrame
  repeat' first
    | with_reducible first
        | assumption | refine Keeps.ite ?_ ?_ | refine State.checkDelay_keeps (by decide) ?_
        | refine State.allotments_keeps (by decide) ?_ | refine State.laneBlocked_keeps (by decide) ?_
        | refine State.sendRows_keeps (by decide) ?_ | refine State.sendIdle_keeps (by decide) ?_
        | refine State.modLane_keeps (by decide) ?_ | refine State.raise_keeps (by decide) ?_
        | refine State.count_keeps (by decide) ?_ | dsimp only
    | split

theorem execDownlinkFrame_keeps {a0 a1 a2 a3 a4 a5} : KeepsO 0x185d2 a5 (execDownlinkFrame a0 a1 a2 a3 a4 a5) := by
  have h := Keeps.refl (M := 0x185d2) a5
  unfold execDownlinkFrame
  repeat' first
    | with_reducible first
        | assumption | refine KeepsO.next ?_ | exact KeepsO.refused | refine KeepsO.ite ?_ ?_ | refine Keeps.ite ?_ ?_
        | refine State.sendFrame_keeps (by decide) ?_ | dsimp only
    | split

end Sys2Proof.Machine
end

