-- ==== Sys2Proof/Laws/KeepsUplink.lean ====
section
/-! SUPPORT. What each operation of Machine/Uplink.lean keeps (Laws/Keeps.lean). -/

set_option Elab.async false

namespace Sys2Proof.Machine

theorem State.checkIdentity_keeps {M : Nat} {r : State} {a0 a1 a2 a3} (hm : 0x512 ||| M = M) (h : Keeps M r a0) :
    Keeps M r (State.checkIdentity a0 a1 a2 a3) := by
  refine h.next hm ?_
  clear h
  have h := Keeps.refl (M := 0x512) a0
  unfold State.checkIdentity
  repeat' first
    | with_reducible first
        | assumption | refine Keeps.ite ?_ ?_ | refine State.raise_keeps (by decide) ?_ | dsimp only
    | split

theorem State.reportSerial_keeps {M : Nat} {r : State} {a0 a1 a2} (hm : 0x512 ||| M = M) (h : Keeps M r a0) :
    Keeps M r (State.reportSerial a0 a1 a2) := by
  refine h.next hm ?_
  clear h
  have h := Keeps.refl (M := 0x512) a0
  unfold State.reportSerial
  repeat' first
    | with_reducible first
        | assumption | refine State.raise_keeps (by decide) ?_ | dsimp only
    | split

theorem State.bindCell_keeps {M : Nat} {r : State} {a0 a1 a2} (hm : 0x8512 ||| M = M) (h : Keeps M r a0) :
    Keeps M r (State.bindCell a0 a1 a2) := by
  refine h.next hm ?_
  clear h
  have h := Keeps.refl (M := 0x8512) a0
  unfold State.bindCell
  repeat' first
    | with_reducible first
        | assumption | refine Keeps.ite ?_ ?_ | refine State.checkIdentity_keeps (by decide) ?_
        | refine State.modCell_keeps (by decide) ?_ | refine State.reportSerial_keeps (by decide) ?_ | dsimp only
    | split

theorem State.bumpBy_keeps {M : Nat} {r : State} {a0 a1 a2 a3} (hm : 0x40 ||| M = M) (h : Keeps M r a0) :
    Keeps M r (State.bumpBy a0 a1 a2 a3) := by
  refine h.next hm ?_
  clear h
  have h := Keeps.refl (M := 0x40) a0
  unfold State.bumpBy
  repeat' first
    | with_reducible first
        | assumption | dsimp only
  all_goals with_reducible refine Keeps.upd ?_
  all_goals (repeat' first
    | with_reducible first
        | assumption | dsimp only)

theorem State.bumpEnergy_keeps {M : Nat} {r : State} {a0 a1 a2 a3} (hm : 0x40 ||| M = M) (h : Keeps M r a0) :
    Keeps M r (State.bumpEnergy a0 a1 a2 a3) := by
  refine h.next hm ?_
  clear h
  have h := Keeps.refl (M := 0x40) a0
  unfold State.bumpEnergy
  repeat' first
    | with_reducible first
        | assumption | dsimp only
  all_goals with_reducible refine Keeps.upd ?_
  all_goals (repeat' first
    | with_reducible first
        | assumption | dsimp only)

theorem State.bumpRange_keeps {M : Nat} {r : State} {a0 a1 a2 a3} (hm : 0x40 ||| M = M) (h : Keeps M r a0) :
    Keeps M r (State.bumpRange a0 a1 a2 a3) := by
  refine h.next hm ?_
  clear h
  have h := Keeps.refl (M := 0x40) a0
  unfold State.bumpRange
  repeat' first
    | with_reducible first
        | assumption | refine Keeps.ite ?_ ?_ | dsimp only
    | split
  all_goals with_reducible refine Keeps.upd ?_
  all_goals (repeat' first
    | with_reducible first
        | assumption | refine Keeps.ite ?_ ?_ | dsimp only
    | split)

theorem State.claimSeen_keeps {M : Nat} {r : State} {a0 a1 a2} (hm : 0x810512 ||| M = M) (h : Keeps M r a0) :
    Keeps M r (State.claimSeen a0 a1 a2) := by
  refine h.next hm ?_
  clear h
  have h := Keeps.refl (M := 0x810512) a0
  unfold State.claimSeen
  repeat' first
    | with_reducible first
        | assumption | refine Keeps.ite ?_ ?_ | refine State.modLane_keeps (by decide) ?_
        | refine State.wr_keeps (by decide) ?_ | refine State.raise_keeps (by decide) ?_ | dsimp only
    | split
  all_goals with_reducible refine Keeps.upd ?_
  all_goals (repeat' first
    | with_reducible first
        | assumption | refine Keeps.ite ?_ ?_ | refine State.modLane_keeps (by decide) ?_
        | refine State.wr_keeps (by decide) ?_ | refine State.raise_keeps (by decide) ?_ | dsimp only
    | split)

theorem State.countBadBlock_keeps {M : Nat} {r : State} {a0 a1 a2} (hm : 0xc0 ||| M = M) (h : Keeps M r a0) :
    Keeps M r (State.countBadBlock a0 a1 a2) := by
  refine h.next hm ?_
  clear h
  have h := Keeps.refl (M := 0xc0) a0
  unfold State.countBadBlock
  repeat' first
    | with_reducible first
        | assumption | refine Keeps.ite ?_ ?_ | refine State.setLive_keeps (by decide) ?_
        | refine State.bump_keeps (by decide) ?_ | dsimp only
    | split

theorem State.countHeaders_keeps {M : Nat} {r : State} {a0 a1 a2} (hm : 0x10 ||| M = M) (h : Keeps M r a0) :
    Keeps M r (State.countHeaders a0 a1 a2) := by
  refine h.next hm ?_
  clear h
  have h := Keeps.refl (M := 0x10) a0
  unfold State.countHeaders
  repeat' first
    | with_reducible first
        | assumption | refine Keeps.ite ?_ ?_ | refine State.add_keeps (by decide) ?_
        | refine Keeps.foldl ?_ (fun _ _ _ => ?_) | refine Keeps.foldl_fst ?_ (fun _ _ _ => ?_) | dsimp only
    | split

theorem State.discardFrame_keeps {M : Nat} {r : State} {a0 a1 a2 a3} (hm : 0x512 ||| M = M) (h : Keeps M r a0) :
    Keeps M r (State.discardFrame a0 a1 a2 a3) := by
  refine h.next hm ?_
  clear h
  have h := Keeps.refl (M := 0x512) a0
  unfold State.discardFrame
  repeat' first
    | with_reducible first
        | assumption | refine State.raise_keeps (by decide) ?_ | refine State.count_keeps (by decide) ?_ | dsimp only

theorem State.setHeldMap_keeps {M : Nat} {r : State} {a0 a1 a2} (hm : 0x10 ||| M = M) (h : Keeps M r a0) :
    Keeps M r (State.setHeldMap a0 a1 a2) := by
  refine h.next hm ?_
  clear h
  have h := Keeps.refl (M := 0x10) a0
  unfold State.setHeldMap
  repeat' first
    | with_reducible first
        | assumption | refine Keeps.ite ?_ ?_ | refine State.setBit_keeps (by decide) ?_ | dsimp only
    | split

theorem State.laneHold_keeps {M : Nat} {r : State} {a0 a1 a2} (hm : 0x10512 ||| M = M) (h : Keeps M r a0) :
    Keeps M r (State.laneHold a0 a1 a2) := by
  refine h.next hm ?_
  clear h
  have h := Keeps.refl (M := 0x10512) a0
  unfold State.laneHold
  repeat' first
    | with_reducible first
        | assumption | refine State.setHeldMap_keeps (by decide) ?_ | refine State.wr_keeps (by decide) ?_
        | refine State.raise_keeps (by decide) ?_ | refine State.modLane_keeps (by decide) ?_ | dsimp only

theorem State.trackTrip_keeps {M : Nat} {r : State} {a0 a1 a2} (hm : 0x10512 ||| M = M) (h : Keeps M r a0) :
    Keeps M r (State.trackTrip a0 a1 a2) := by
  refine h.next hm ?_
  clear h
  have h := Keeps.refl (M := 0x10512) a0
  unfold State.trackTrip
  repeat' first
    | with_reducible first
        | assumption | refine Keeps.ite ?_ ?_ | refine State.modLane_keeps (by decide) ?_
        | refine State.raise_keeps (by decide) ?_ | refine State.wr_keeps (by decide) ?_
        | refine State.count_keeps (by decide) ?_ | refine State.laneHold_keeps (by decide) ?_ | dsimp only
    | split

theorem State.echo_keeps {M : Nat} {r : State} {a0 a1 a2 a3} (hm : 0x10512 ||| M = M) (h : Keeps M r a0) :
    Keeps M r (State.echo a0 a1 a2 a3) := by
  refine h.next hm ?_
  clear h
  have h := Keeps.refl (M := 0x10512) a0
  unfold State.echo
  repeat' first
    | with_reducible first
        | assumption | refine Keeps.ite ?_ ?_ | refine State.raise_keeps (by decide) ?_ | refine State.wr_keeps (by decide) ?_
        | refine State.checkDelay_keeps (by decide) ?_ | refine State.trackTrip_keeps (by decide) ?_ | dsimp only
    | split

theorem State.recheckCell_keeps {M : Nat} {r : State} {a0 a1 a2} (hm : 0x512 ||| M = M) (h : Keeps M r a0) :
    Keeps M r (State.recheckCell a0 a1 a2) := by
  refine h.next hm ?_
  clear h
  have h := Keeps.refl (M := 0x512) a0
  unfold State.recheckCell
  repeat' first
    | with_reducible first
        | assumption | refine Keeps.ite ?_ ?_ | refine State.checkIdentity_keeps (by decide) ?_
        | refine State.reportSerial_keeps (by decide) ?_ | dsimp only
    | split

theorem State.identities_keeps {M : Nat} {r : State} {a0 a1 a2} (hm : 0x18512 ||| M = M) (h : Keeps M r a0) :
    Keeps M r (State.identities a0 a1 a2) := by
  refine h.next hm ?_
  clear h
  have h := Keeps.refl (M := 0x18512) a0
  unfold State.identities
  repeat' first
    | with_reducible first
        | assumption | refine Keeps.ite ?_ ?_ | refine State.raise_keeps (by decide) ?_
        | refine State.recheckCell_keeps (by decide) ?_ | refine State.bindCell_keeps (by decide) ?_
        | refine State.modLane_keeps (by decide) ?_ | refine Keeps.foldl ?_ (fun _ _ _ => ?_) | dsimp only
    | split

theorem State.keepLast_keeps {M : Nat} {r : State} {a0 a1 a2 a3} (hm : 0x40 ||| M = M) (h : Keeps M r a0) :
    Keeps M r (State.keepLast a0 a1 a2 a3) := by
  refine h.next hm ?_
  clear h
  have h := Keeps.refl (M := 0x40) a0
  unfold State.keepLast
  repeat' first
    | with_reducible first
        | assumption | dsimp only
  all_goals with_reducible refine Keeps.upd ?_
  all_goals (repeat' first
    | with_reducible first
        | assumption | dsimp only)

theorem State.reportStats_keeps {M : Nat} {r : State} {a0 a1 a2 a3 a4 a5 a6} (hm : 0x40 ||| M = M) (h : Keeps M r a0) :
    Keeps M r (State.reportStats a0 a1 a2 a3 a4 a5 a6) := by
  refine h.next hm ?_
  clear h
  have h := Keeps.refl (M := 0x40) a0
  unfold State.reportStats
  repeat' first
    | with_reducible first
        | assumption | refine Keeps.ite ?_ ?_ | refine State.bump_keeps (by decide) ?_
        | refine State.bumpRange_keeps (by decide) ?_ | dsimp only
    | split

theorem State.report1_keeps {M : Nat} {r : State} {a0 a1 a2 a3} (hm : 0x85d2 ||| M = M) (h : Keeps M r a0) :
    Keeps M r (State.report1 a0 a1 a2 a3) := by
  refine h.next hm ?_
  clear h
  have h := Keeps.refl (M := 0x85d2) a0
  unfold State.report1
  repeat' first
    | with_reducible first
        | assumption | refine Keeps.ite ?_ ?_ | refine State.bumpEnergy_keeps (by decide) ?_
        | refine State.setLive_keeps (by decide) ?_ | refine State.modCell_keeps (by decide) ?_
        | refine State.reportStats_keeps (by decide) ?_ | refine State.raise_keeps (by decide) ?_ | dsimp only
    | split

theorem State.report2_keeps {M : Nat} {r : State} {a0 a1 a2 a3} (hm : 0x80c0 ||| M = M) (h : Keeps M r a0) :
    Keeps M r (State.report2 a0 a1 a2 a3) := by
  refine h.next hm ?_
  clear h
  have h := Keeps.refl (M := 0x80c0) a0
  unfold State.report2
  repeat' first
    | with_reducible first
        | assumption | refine State.setLive_keeps (by decide) ?_ | refine State.modCell_keeps (by decide) ?_
        | refine State.bumpBy_keeps (by decide) ?_ | dsimp only

theorem State.reportFlags_keeps {M : Nat} {r : State} {a0 a1 a2 a3} (hm : 0x8552 ||| M = M) (h : Keeps M r a0) :
    Keeps M r (State.reportFlags a0 a1 a2 a3) := by
  refine h.next hm ?_
  clear h
  have h := Keeps.refl (M := 0x8552) a0
  unfold State.reportFlags
  repeat' first
    | with_reducible first
        | assumption | refine Keeps.ite ?_ ?_ | refine State.raise_keeps (by decide) ?_
        | refine State.bump_keeps (by decide) ?_ | refine State.modCell_keeps (by decide) ?_
        | refine State.count_keeps (by decide) ?_ | refine State.keepLast_keeps (by decide) ?_ | dsimp only
    | split

theorem State.tempStats_keeps {M : Nat} {r : State} {a0 a1} (hm : 0x40 ||| M = M) (h : Keeps M r a0) :
    Keeps M r (State.tempStats a0 a1) := by
  refine h.next hm ?_
  clear h
  have h := Keeps.refl (M := 0x40) a0
  unfold State.tempStats
  repeat' first
    | with_reducible first
        | assumption | refine Keeps.ite ?_ ?_ | refine State.bumpRange_keeps (by decide) ?_
        | refine State.bump_keeps (by decide) ?_ | dsimp only
    | split

theorem State.takeReports_keeps {M : Nat} {r : State} {a0 a1 a2 a3} (hm : 0x85d2 ||| M = M) (h : Keeps M r a0) :
    Keeps M r (State.takeReports a0 a1 a2 a3) := by
  refine h.next hm ?_
  clear h hm
  induction a3 generalizing a0 a1 a2 with
  | nil =>
    have h := Keeps.refl (M := 0x85d2) a0
    unfold State.takeReports
    repeat' first
      | with_reducible assumption
      | split
  | cons _ _ ih =>
    have h := Keeps.refl (M := 0x85d2) a0
    unfold State.takeReports
    repeat' first
      | with_reducible first
          | assumption | refine Keeps.ite ?_ ?_ | refine State.report2_keeps (by decide) ?_
          | refine State.reportFlags_keeps (by decide) ?_ | refine State.tempStats_keeps (by decide) ?_
          | refine State.report1_keeps (by decide) ?_ | dsimp only | refine Keeps.trans ?_ (ih ..)
      | split
      | (cases ‹_ :: _ = _ :: _›; with_reducible refine Keeps.trans ?_ (ih ..))

theorem State.uplink_keeps {M : Nat} {r : State} {a0 a1 a2 a3 a4} (hm : 0x8185d2 ||| M = M) (h : Keeps M r a0) :
    Keeps M r (State.uplink a0 a1 a2 a3 a4) := by
  refine h.next hm ?_
  clear h
  have h := Keeps.refl (M := 0x8185d2) a0
  unfold State.uplink
  repeat' first
    | with_reducible first
        | assumption | refine Keeps.ite ?_ ?_ | refine State.countHeaders_keeps (by decide) ?_
        | refine State.discardFrame_keeps (by decide) ?_ | refine State.echo_keeps (by decide) ?_
        | refine State.claimSeen_keeps (by decide) ?_ | refine State.countBadBlock_keeps (by decide) ?_
        | refine State.bump_keeps (by decide) ?_ | refine State.takeReports_keeps (by decide) ?_
        | refine State.identities_keeps (by decide) ?_ | refine Keeps.foldl ?_ (fun _ _ _ => ?_)
        | refine Keeps.foldl_fst ?_ (fun _ _ _ => ?_) | refine Keeps.foldl_snd ?_ (fun _ _ _ => ?_) | dsimp only
    | split

theorem execDelayAccept_keeps {a0 a1} : KeepsO 0x512 a1 (execDelayAccept a0 a1) := by
  have h := Keeps.refl (M := 0x512) a1
  unfold execDelayAccept
  repeat' first
    | with_reducible first
        | assumption | refine KeepsO.next ?_ | exact KeepsO.refused | refine KeepsO.byHost ?_ | refine KeepsO.ite ?_ ?_
        | refine Keeps.ite ?_ ?_ | refine State.wr_keeps (by decide) ?_ | refine State.setHeldMap_keeps (by decide) ?_
        | refine State.raise_keeps (by decide) ?_ | refine State.checkDelay_keeps (by decide) ?_ | dsimp only
    | split

theorem execLaneReacquire_keeps {a0} : KeepsO 0x10512 a0 (execLaneReacquire a0) := by
  have h := Keeps.refl (M := 0x10512) a0
  unfold execLaneReacquire
  repeat' first
    | with_reducible first
        | assumption | refine KeepsO.next ?_ | exact KeepsO.refused | refine KeepsO.byHost ?_ | refine KeepsO.ite ?_ ?_
        | refine State.modLane_keeps (by decide) ?_ | refine State.wr_keeps (by decide) ?_
        | refine State.setHeldMap_keeps (by decide) ?_ | refine State.checkDelay_keeps (by decide) ?_ | dsimp only
    | split

end Sys2Proof.Machine
end

