-- ==== Sys2Proof/Laws/KeepsLane.lean ====
section
/-! SUPPORT. What each operation of Machine/Lane.lean keeps (Laws/Keeps.lean). -/

set_option Elab.async false

namespace Sys2Proof.Machine

theorem State.endEye_keeps {M : Nat} {r : State} {a0 a1 a2 a3} (hm : 0x512 ||| M = M) (h : Keeps M r a0) :
    Keeps M r (State.endEye a0 a1 a2 a3) := by
  refine h.next hm ?_
  clear h
  have h := Keeps.refl (M := 0x512) a0
  unfold State.endEye
  repeat' first
    | with_reducible first
        | assumption | refine Keeps.ite ?_ ?_ | refine State.wr_keeps (by decide) ?_ | refine State.raise_keeps (by decide) ?_
        | dsimp only
    | split

theorem State.showLane_keeps {M : Nat} {r : State} {a0 a1} (hm : 0x10 ||| M = M) (h : Keeps M r a0) :
    Keeps M r (State.showLane a0 a1) := by
  refine h.next hm ?_
  clear h
  have h := Keeps.refl (M := 0x10) a0
  unfold State.showLane
  repeat' first
    | with_reducible first
        | assumption | refine State.wr_keeps (by decide) ?_ | dsimp only

theorem State.setLaneUp_keeps {M : Nat} {r : State} {a0 a1 a2} (hm : 0x1010 ||| M = M) (h : Keeps M r a0) :
    Keeps M r (State.setLaneUp a0 a1 a2) := by
  refine h.next hm ?_
  clear h
  have h := Keeps.refl (M := 0x1010) a0
  unfold State.setLaneUp
  repeat' first
    | with_reducible first
        | assumption | refine State.setCond_keeps (by decide) ?_ | refine State.showLane_keeps (by decide) ?_
        | refine State.wr_keeps (by decide) ?_ | refine Keeps.foldl ?_ (fun _ _ _ => ?_) | dsimp only

theorem State.refreshGroup_keeps {M : Nat} {r : State} {a0 a1} (hm : 0x1512 ||| M = M) (h : Keeps M r a0) :
    Keeps M r (State.refreshGroup a0 a1) := by
  refine h.next hm ?_
  clear h
  have h := Keeps.refl (M := 0x1512) a0
  unfold State.refreshGroup
  repeat' first
    | with_reducible first
        | assumption | refine Keeps.ite ?_ ?_ | refine State.wr_keeps (by decide) ?_
        | refine State.showDegraded_keeps (by decide) ?_ | refine State.setLaneUp_keeps (by decide) ?_
        | refine State.raise_keeps (by decide) ?_ | dsimp only
    | split

theorem State.loseLock_keeps {M : Nat} {r : State} {a0 a1 a2} (hm : 0x1516 ||| M = M) (h : Keeps M r a0) :
    Keeps M r (State.loseLock a0 a1 a2) := by
  refine h.next hm ?_
  clear h
  have h := Keeps.refl (M := 0x1516) a0
  unfold State.loseLock
  repeat' first
    | with_reducible first
        | assumption | refine Keeps.ite ?_ ?_ | refine State.wr_keeps (by decide) ?_ | refine State.raise_keeps (by decide) ?_
        | refine State.count_keeps (by decide) ?_ | refine State.draw_keeps (by decide) ?_
        | refine State.endEye_keeps (by decide) ?_ | refine State.refreshGroup_keeps (by decide) ?_ | dsimp only
    | split

theorem State.bipErrors_keeps {M : Nat} {r : State} {a0 a1 a2} (hm : 0x10512 ||| M = M) (h : Keeps M r a0) :
    Keeps M r (State.bipErrors a0 a1 a2) := by
  refine h.next hm ?_
  clear h
  have h := Keeps.refl (M := 0x10512) a0
  unfold State.bipErrors
  repeat' first
    | with_reducible first
        | assumption | refine Keeps.ite ?_ ?_ | refine State.modLane_keeps (by decide) ?_
        | refine State.add_keeps (by decide) ?_ | refine State.raise_keeps (by decide) ?_ | dsimp only
    | split

theorem State.laneSeam_keeps {M : Nat} {r : State} {a0} (hm : 0x18512 ||| M = M) (h : Keeps M r a0) :
    Keeps M r (State.laneSeam a0) := by
  refine h.next hm ?_
  clear h
  have h := Keeps.refl (M := 0x18512) a0
  unfold State.laneSeam
  repeat' first
    | with_reducible first
        | assumption | refine Keeps.ite ?_ ?_ | refine State.insertPrio_keeps (by decide) ?_
        | refine Keeps.foldl ?_ (fun _ _ _ => ?_) | refine Keeps.foldl_fst ?_ (fun _ _ _ => ?_)
        | refine Keeps.foldl_snd ?_ (fun _ _ _ => ?_) | dsimp only
    | split

theorem State.checkBip_keeps {M : Nat} {r : State} {a0 a1 a2 a3} (hm : 0x10512 ||| M = M) (h : Keeps M r a0) :
    Keeps M r (State.checkBip a0 a1 a2 a3) := by
  refine h.next hm ?_
  clear h
  have h := Keeps.refl (M := 0x10512) a0
  unfold State.checkBip
  repeat' first
    | with_reducible first
        | assumption | refine Keeps.ite ?_ ?_ | refine State.bipErrors_keeps (by decide) ?_
        | refine State.modLane_keeps (by decide) ?_ | refine Keeps.foldl ?_ (fun _ _ _ => ?_) | dsimp only
    | split

theorem State.disableRx_keeps {M : Nat} {r : State} {a0 a1} (hm : 0x1516 ||| M = M) (h : Keeps M r a0) :
    Keeps M r (State.disableRx a0 a1) := by
  refine h.next hm ?_
  clear h
  have h := Keeps.refl (M := 0x1516) a0
  unfold State.disableRx
  repeat' first
    | with_reducible first
        | assumption | refine State.showLane_keeps (by decide) ?_ | refine State.loseLock_keeps (by decide) ?_
        | refine State.wr_keeps (by decide) ?_ | dsimp only

theorem State.startIdent_keeps {M : Nat} {r : State} {a0 a1} (hm : 0x10000 ||| M = M) (h : Keeps M r a0) :
    Keeps M r (State.startIdent a0 a1) := by
  refine h.next hm ?_
  clear h
  have h := Keeps.refl (M := 0x10000) a0
  unfold State.startIdent
  repeat' first
    | with_reducible first
        | assumption | refine State.modLane_keeps (by decide) ?_ | dsimp only

theorem State.gainLock_keeps {M : Nat} {r : State} {a0 a1} (hm : 0x11512 ||| M = M) (h : Keeps M r a0) :
    Keeps M r (State.gainLock a0 a1) := by
  refine h.next hm ?_
  clear h
  have h := Keeps.refl (M := 0x11512) a0
  unfold State.gainLock
  repeat' first
    | with_reducible first
        | assumption | refine Keeps.ite ?_ ?_ | refine State.raise_keeps (by decide) ?_ | refine State.wr_keeps (by decide) ?_
        | refine State.modLane_keeps (by decide) ?_ | refine State.refreshGroup_keeps (by decide) ?_
        | refine State.startIdent_keeps (by decide) ?_ | dsimp only
    | split

theorem State.quadTimed_keeps {M : Nat} {r : State} {a0 a1} (hm : 0x4000010 ||| M = M) (h : Keeps M r a0) :
    Keeps M r (State.quadTimed a0 a1) := by
  refine h.next hm ?_
  clear h
  have h := Keeps.refl (M := 0x4000010) a0
  unfold State.quadTimed
  repeat' first
    | with_reducible first
        | assumption | refine Keeps.ite ?_ ?_ | refine State.wr_keeps (by decide) ?_ | dsimp only
    | split
  all_goals with_reducible refine Keeps.upd ?_
  all_goals (repeat' first
    | with_reducible first
        | assumption | refine Keeps.ite ?_ ?_ | refine State.wr_keeps (by decide) ?_ | dsimp only
    | split)

theorem State.receiveAlign_keeps {M : Nat} {r : State} {a0 a1 a2 a3 a4} (hm : 0x11512 ||| M = M) (h : Keeps M r a0) :
    Keeps M r (State.receiveAlign a0 a1 a2 a3 a4) := by
  refine h.next hm ?_
  clear h
  have h := Keeps.refl (M := 0x11512) a0
  unfold State.receiveAlign
  repeat' first
    | with_reducible first
        | assumption | refine Keeps.ite ?_ ?_ | refine State.modLane_keeps (by decide) ?_
        | refine State.wr_keeps (by decide) ?_ | refine State.refreshGroup_keeps (by decide) ?_
        | refine State.raise_keeps (by decide) ?_ | refine State.restriped_keeps (by decide) ?_ | dsimp only
    | split

theorem State.startEye_keeps {M : Nat} {r : State} {a0 a1 a2} (hm : 0x10512 ||| M = M) (h : Keeps M r a0) :
    Keeps M r (State.startEye a0 a1 a2) := by
  refine h.next hm ?_
  clear h
  have h := Keeps.refl (M := 0x10512) a0
  unfold State.startEye
  repeat' first
    | with_reducible first
        | assumption | refine Keeps.ite ?_ ?_ | refine State.rejectWrite_keeps (by decide) ?_
        | refine State.wr_keeps (by decide) ?_ | refine State.modLane_keeps (by decide) ?_ | dsimp only
    | split

theorem State.writeEq_keeps {M : Nat} {r : State} {a0 a1 a2} (hm : 0x10512 ||| M = M) (h : Keeps M r a0) :
    Keeps M r (State.writeEq a0 a1 a2) := by
  refine h.next hm ?_
  clear h
  have h := Keeps.refl (M := 0x10512) a0
  unfold State.writeEq
  repeat' first
    | with_reducible first
        | assumption | refine Keeps.ite ?_ ?_ | refine State.rejectWrite_keeps (by decide) ?_
        | refine State.wr_keeps (by decide) ?_ | refine State.modLane_keeps (by decide) ?_ | dsimp only
    | split

theorem execAlignSend_keeps {a0 a1} : KeepsO 0x10512 a1 (execAlignSend a0 a1) := by
  have h := Keeps.refl (M := 0x10512) a1
  unfold execAlignSend
  repeat' first
    | with_reducible first
        | assumption | refine KeepsO.next ?_ | exact KeepsO.refused | refine KeepsO.ite ?_ ?_
        | refine State.markerRow_keeps (by decide) ?_ | refine State.sendIdle_keeps (by decide) ?_ | dsimp only
    | split

theorem execEqWrite_keeps {a0 a1 a2} : KeepsO 0x10512 a2 (execEqWrite a0 a1 a2) := by
  have h := Keeps.refl (M := 0x10512) a2
  unfold execEqWrite
  repeat' first
    | with_reducible first
        | assumption | refine KeepsO.next ?_ | exact KeepsO.refused | refine KeepsO.byHost ?_ | refine KeepsO.ite ?_ ?_
        | refine State.writeEq_keeps (by decide) ?_ | dsimp only

theorem execEyeDone_keeps {a0 a1 a2} : KeepsO 0x512 a2 (execEyeDone a0 a1 a2) := by
  have h := Keeps.refl (M := 0x512) a2
  unfold execEyeDone
  repeat' first
    | with_reducible first
        | assumption | refine KeepsO.next ?_ | exact KeepsO.refused | refine KeepsO.ite ?_ ?_ | refine Keeps.ite ?_ ?_
        | refine State.endEye_keeps (by decide) ?_ | dsimp only
    | split

theorem execEyeScanStart_keeps {a0 a1 a2} : KeepsO 0x10512 a2 (execEyeScanStart a0 a1 a2) := by
  have h := Keeps.refl (M := 0x10512) a2
  unfold execEyeScanStart
  repeat' first
    | with_reducible first
        | assumption | refine KeepsO.next ?_ | exact KeepsO.refused | refine KeepsO.byHost ?_ | refine KeepsO.ite ?_ ?_
        | refine State.startEye_keeps (by decide) ?_ | dsimp only

theorem execIdentRequest_keeps {a0 a1} : KeepsO 0x10000 a1 (execIdentRequest a0 a1) := by
  have h := Keeps.refl (M := 0x10000) a1
  unfold execIdentRequest
  repeat' first
    | with_reducible first
        | assumption | refine KeepsO.next ?_ | exact KeepsO.refused | refine KeepsO.byHost ?_ | refine KeepsO.ite ?_ ?_
        | refine State.startIdent_keeps (by decide) ?_ | dsimp only
    | split

theorem execLockGained_keeps {a0 a1 a2 a3} : KeepsO 0x4011512 a3 (execLockGained a0 a1 a2 a3) := by
  have h := Keeps.refl (M := 0x4011512) a3
  unfold execLockGained
  repeat' first
    | with_reducible first
        | assumption | refine KeepsO.next ?_ | exact KeepsO.refused | refine KeepsO.ite ?_ ?_ | refine Keeps.ite ?_ ?_
        | refine State.quadTimed_keeps (by decide) ?_ | refine State.gainLock_keeps (by decide) ?_ | dsimp only
    | split

end Sys2Proof.Machine
end

