-- ==== Sys2Proof/Laws/KeepsSst.lean ====
section
/-! SUPPORT. What each operation of Machine/Sst.lean keeps (Laws/Keeps.lean). -/

set_option Elab.async false

namespace Sys2Proof.Machine

theorem State.showLv_keeps {M : Nat} {r : State} {a0 a1} (hm : 0x80 ||| M = M) (h : Keeps M r a0) :
    Keeps M r (State.showLv a0 a1) := by
  refine h.next hm ?_
  clear h
  have h := Keeps.refl (M := 0x80) a0
  unfold State.showLv
  repeat' first
    | with_reducible first
        | assumption | refine State.setPoint_keeps (by decide) ?_ | dsimp only

theorem State.blockChannel_keeps {M : Nat} {r : State} {a0 a1 a2} (hm : 0x61596 ||| M = M) (h : Keeps M r a0) :
    Keeps M r (State.blockChannel a0 a1 a2) := by
  refine h.next hm ?_
  clear h
  have h := Keeps.refl (M := 0x61596) a0
  unfold State.blockChannel
  repeat' first
    | with_reducible first
        | assumption | refine Keeps.ite ?_ ?_ | refine State.drvBlock_keeps (by decide) ?_
        | refine State.modUnit_keeps (by decide) ?_ | refine State.showLv_keeps (by decide) ?_
        | refine State.raise_keeps (by decide) ?_ | dsimp only
    | split

theorem State.showUnit_keeps {M : Nat} {r : State} {a0 a1} (hm : 0x80 ||| M = M) (h : Keeps M r a0) :
    Keeps M r (State.showUnit a0 a1) := by
  refine h.next hm ?_
  clear h
  have h := Keeps.refl (M := 0x80) a0
  unfold State.showUnit
  repeat' first
    | with_reducible first
        | assumption | refine State.setPoint_keeps (by decide) ?_ | dsimp only

theorem State.unitState_keeps {M : Nat} {r : State} {a0 a1 a2} (hm : 0x20592 ||| M = M) (h : Keeps M r a0) :
    Keeps M r (State.unitState a0 a1 a2) := by
  refine h.next hm ?_
  clear h
  have h := Keeps.refl (M := 0x20592) a0
  unfold State.unitState
  repeat' first
    | with_reducible first
        | assumption | refine Keeps.ite ?_ ?_ | refine State.showUnit_keeps (by decide) ?_
        | refine State.modUnit_keeps (by decide) ?_ | refine State.raise_keeps (by decide) ?_ | dsimp only
    | split

theorem State.unitEnd_keeps {M : Nat} {r : State} {a0 a1 a2} (hm : 0x20592 ||| M = M) (h : Keeps M r a0) :
    Keeps M r (State.unitEnd a0 a1 a2) := by
  refine h.next hm ?_
  clear h
  have h := Keeps.refl (M := 0x20592) a0
  unfold State.unitEnd
  repeat' first
    | with_reducible first
        | assumption | refine Keeps.ite ?_ ?_ | refine State.unitState_keeps (by decide) ?_
        | refine State.modUnit_keeps (by decide) ?_ | dsimp only
    | split

theorem State.unitStopped_keeps {M : Nat} {r : State} {a0 a1} (hm : 0x20592 ||| M = M) (h : Keeps M r a0) :
    Keeps M r (State.unitStopped a0 a1) := by
  refine h.next hm ?_
  clear h
  have h := Keeps.refl (M := 0x20592) a0
  unfold State.unitStopped
  repeat' first
    | with_reducible first
        | assumption | refine Keeps.ite ?_ ?_ | refine State.unitEnd_keeps (by decide) ?_ | dsimp only
    | split

theorem State.unitStop_keeps {M : Nat} {r : State} {a0 a1} (hm : 0x20592 ||| M = M) (h : Keeps M r a0) :
    Keeps M r (State.unitStop a0 a1) := by
  refine h.next hm ?_
  clear h
  have h := Keeps.refl (M := 0x20592) a0
  unfold State.unitStop
  repeat' first
    | with_reducible first
        | assumption | refine Keeps.ite ?_ ?_ | refine State.unitState_keeps (by decide) ?_
        | refine State.modUnit_keeps (by decide) ?_ | dsimp only
    | split

theorem State.lvStopAll_keeps {M : Nat} {r : State} {a0 a1} (hm : 0x41516 ||| M = M) (h : Keeps M r a0) :
    Keeps M r (State.lvStopAll a0 a1) := by
  refine h.next hm ?_
  clear h
  have h := Keeps.refl (M := 0x41516) a0
  unfold State.lvStopAll
  repeat' first
    | with_reducible first
        | assumption | refine State.draw_keeps (by decide) ?_ | refine State.drvBlock_keeps (by decide) ?_
        | refine Keeps.foldl ?_ (fun _ _ _ => ?_) | refine Keeps.foldl_fst ?_ (fun _ _ _ => ?_)
        | refine Keeps.foldl_snd ?_ (fun _ _ _ => ?_) | dsimp only

theorem State.unitFollow_keeps {M : Nat} {r : State} {a0 a1} (hm : 0x61596 ||| M = M) (h : Keeps M r a0) :
    Keeps M r (State.unitFollow a0 a1) := by
  refine h.next hm ?_
  clear h
  have h := Keeps.refl (M := 0x61596) a0
  unfold State.unitFollow
  repeat' first
    | with_reducible first
        | assumption | refine Keeps.ite ?_ ?_ | refine State.unitState_keeps (by decide) ?_
        | refine State.modUnit_keeps (by decide) ?_ | refine State.lvStopAll_keeps (by decide) ?_
        | refine State.unitStopped_keeps (by decide) ?_ | refine State.unitEnd_keeps (by decide) ?_ | dsimp only
    | split

theorem State.refuseUnit_keeps {M : Nat} {r : State} {a0 a1 a2 a3 a4} (hm : 0x20512 ||| M = M) (h : Keeps M r a0) :
    Keeps M r (State.refuseUnit a0 a1 a2 a3 a4) := by
  refine h.next hm ?_
  clear h
  have h := Keeps.refl (M := 0x20512) a0
  unfold State.refuseUnit
  repeat' first
    | with_reducible first
        | assumption | refine State.raise_keeps (by decide) ?_ | refine State.modUnit_keeps (by decide) ?_ | dsimp only

theorem State.lvStart_keeps {M : Nat} {r : State} {a0 a1 a2} (hm : 0x40512 ||| M = M) (h : Keeps M r a0) :
    Keeps M r (State.lvStart a0 a1 a2) := by
  refine h.next hm ?_
  clear h
  have h := Keeps.refl (M := 0x40512) a0
  unfold State.lvStart
  repeat' first
    | with_reducible first
        | assumption | refine State.wr_keeps (by decide) ?_ | refine State.drvPend_keeps (by decide) ?_
        | refine State.modDrv_keeps (by decide) ?_ | dsimp only

theorem State.lvStartAll_keeps {M : Nat} {r : State} {a0 a1} (hm : 0x40512 ||| M = M) (h : Keeps M r a0) :
    Keeps M r (State.lvStartAll a0 a1) := by
  refine h.next hm ?_
  clear h
  have h := Keeps.refl (M := 0x40512) a0
  unfold State.lvStartAll
  repeat' first
    | with_reducible first
        | assumption | refine State.lvStart_keeps (by decide) ?_ | refine Keeps.foldl ?_ (fun _ _ _ => ?_)
        | refine Keeps.foldl_fst ?_ (fun _ _ _ => ?_) | dsimp only

theorem State.unitBlockStrings_keeps {M : Nat} {r : State} {a0 a1} (hm : 0x24010 ||| M = M) (h : Keeps M r a0) :
    Keeps M r (State.unitBlockStrings a0 a1) := by
  refine h.next hm ?_
  clear h
  have h := Keeps.refl (M := 0x24010) a0
  unfold State.unitBlockStrings
  repeat' first
    | with_reducible first
        | assumption | refine State.modUnit_keeps (by decide) ?_ | refine State.armBlock_keeps (by decide) ?_
        | refine Keeps.foldl ?_ (fun _ _ _ => ?_) | refine Keeps.foldl_snd ?_ (fun _ _ _ => ?_) | dsimp only

theorem State.unitHalt_keeps {M : Nat} {r : State} {a0 a1 a2} (hm : 0x24592 ||| M = M) (h : Keeps M r a0) :
    Keeps M r (State.unitHalt a0 a1 a2) := by
  refine h.next hm ?_
  clear h
  have h := Keeps.refl (M := 0x24592) a0
  unfold State.unitHalt
  repeat' first
    | with_reducible first
        | assumption | refine Keeps.ite ?_ ?_ | refine State.unitBlockStrings_keeps (by decide) ?_
        | refine State.unitEnd_keeps (by decide) ?_ | refine State.unitState_keeps (by decide) ?_
        | refine State.modUnit_keeps (by decide) ?_ | dsimp only
    | split

theorem State.unitOwe_keeps {M : Nat} {r : State} {a0 a1} (hm : 0x8000 ||| M = M) (h : Keeps M r a0) :
    Keeps M r (State.unitOwe a0 a1) := by
  refine h.next hm ?_
  clear h
  have h := Keeps.refl (M := 0x8000) a0
  unfold State.unitOwe
  repeat' first
    | with_reducible first
        | assumption | refine State.modCell_keeps (by decide) ?_ | refine Keeps.foldl ?_ (fun _ _ _ => ?_)
        | refine Keeps.foldl_snd ?_ (fun _ _ _ => ?_) | dsimp only

theorem State.unitAct_keeps {M : Nat} {r : State} {a0 a1 a2} (hm : 0x6c592 ||| M = M) (h : Keeps M r a0) :
    Keeps M r (State.unitAct a0 a1 a2) := by
  refine h.next hm ?_
  clear h
  have h := Keeps.refl (M := 0x6c592) a0
  unfold State.unitAct
  repeat' first
    | with_reducible first
        | assumption | refine Keeps.ite ?_ ?_ | refine State.modUnit_keeps (by decide) ?_
        | refine State.refuseUnit_keeps (by decide) ?_ | refine State.unitState_keeps (by decide) ?_
        | refine State.unitOwe_keeps (by decide) ?_ | refine State.lvStartAll_keeps (by decide) ?_
        | refine State.armDeblock_keeps (by decide) ?_ | refine State.unitHalt_keeps (by decide) ?_
        | refine Keeps.foldl ?_ (fun _ _ _ => ?_) | refine Keeps.foldl_snd ?_ (fun _ _ _ => ?_) | dsimp only
    | split

theorem State.unitRequests_keeps {M : Nat} {r : State} {a0 a1 a2} (hm : 0x6c592 ||| M = M) (h : Keeps M r a0) :
    Keeps M r (State.unitRequests a0 a1 a2) := by
  refine h.next hm ?_
  clear h
  have h := Keeps.refl (M := 0x6c592) a0
  unfold State.unitRequests
  repeat' first
    | with_reducible first
        | assumption | refine Keeps.ite ?_ ?_ | refine State.refuseUnit_keeps (by decide) ?_
        | refine State.unitAct_keeps (by decide) ?_ | refine State.modUnit_keeps (by decide) ?_
        | refine Keeps.foldl ?_ (fun _ _ _ => ?_) | dsimp only
    | split

theorem State.unitSeam_keeps {M : Nat} {r : State} {a0 a1 a2} (hm : 0x8006d5d6 ||| M = M) (h : Keeps M r a0) :
    Keeps M r (State.unitSeam a0 a1 a2) := by
  refine h.next hm ?_
  clear h
  have h := Keeps.refl (M := 0x8006d5d6) a0
  unfold State.unitSeam
  repeat' first
    | with_reducible first
        | assumption | refine State.cellFlags_keeps (by decide) ?_ | refine State.modUnit_keeps (by decide) ?_
        | refine State.showLv_keeps (by decide) ?_ | refine State.showUnit_keeps (by decide) ?_
        | refine State.unitRequests_keeps (by decide) ?_ | refine State.unitFollow_keeps (by decide) ?_
        | refine Keeps.foldl ?_ (fun _ _ _ => ?_) | refine Keeps.foldl_snd ?_ (fun _ _ _ => ?_) | dsimp only

theorem State.isoCommands_keeps {M : Nat} {r : State} {a0 a1 a2 a3 a4 a5} (hm : 0x8000 ||| M = M) (h : Keeps M r a0) :
    Keeps M r (State.isoCommands a0 a1 a2 a3 a4 a5) := by
  refine h.next hm ?_
  clear h
  have h := Keeps.refl (M := 0x8000) a0
  unfold State.isoCommands
  repeat' first
    | with_reducible first
        | assumption | refine Keeps.ite ?_ ?_ | refine State.cmdPlain_keeps (by decide) ?_
        | refine State.modCell_keeps (by decide) ?_ | refine State.cmdOff_keeps (by decide) ?_
        | refine Keeps.foldl ?_ (fun _ _ _ => ?_) | refine Keeps.foldl_fst ?_ (fun _ _ _ => ?_)
        | refine Keeps.foldl_snd ?_ (fun _ _ _ => ?_) | dsimp only
    | split

theorem State.shiftTarget_keeps {M : Nat} {r s : State} {e d x mean} (hm : 0x4 ||| M = M) (h : Keeps M r s) :
    Keeps M r (State.shiftTarget s e d x mean).2.2 := by
  unfold State.shiftTarget
  dsimp only
  split
  · exact State.draw_keeps (a1 := 25) hm h
  · exact h

theorem State.shiftCells_keeps {M : Nat} {r s : State} {e i d mean xs n} (hm : 0x8004 ||| M = M) (h : Keeps M r s) :
    Keeps M r (State.shiftCells s e i d mean xs n).1 := by
  refine h.next hm ?_
  unfold State.shiftCells
  exact Keeps.foldl_fst (.refl s) (fun t x ht => State.modCell_keeps (by decide) (State.shiftTarget_keeps (by decide) ht))

theorem State.shiftRoll_keeps {M : Nat} {r : State} {a0 a1 a2} (hm : 0x8000 ||| M = M) (h : Keeps M r a0) :
    Keeps M r (State.shiftRoll a0 a1 a2) := by
  refine h.next hm ?_
  clear h
  have h := Keeps.refl (M := 0x8000) a0
  unfold State.shiftRoll
  repeat' first
    | with_reducible first
        | assumption | refine Keeps.ite ?_ ?_ | refine State.modCell_keeps (by decide) ?_ | dsimp only
    | split

theorem State.shiftString_keeps {M : Nat} {r : State} {a0 a1 a2 a3 a4 a5} (hm : 0x8084 ||| M = M) (h : Keeps M r a0) :
    Keeps M r (State.shiftString a0 a1 a2 a3 a4 a5).1 := by
  refine h.next hm ?_
  clear h
  have h := Keeps.refl (M := 0x8084) a0
  unfold State.shiftString
  repeat' first
    | with_reducible first
        | assumption | refine Keeps.ite ?_ ?_ | refine Keeps.ite_fst ?_ ?_ | refine Keeps.ite_snd ?_ ?_
        | refine State.shiftRoll_keeps (by decide) ?_ | refine State.modCell_keeps (by decide) ?_
        | refine State.shiftCells_keeps (by decide) ?_ | refine State.draw_keeps (by decide) ?_
        | refine State.setFloat_keeps (by decide) ?_ | refine Keeps.foldl ?_ (fun _ _ _ => ?_)
        | refine Keeps.foldl_fst ?_ (fun _ _ _ => ?_) | refine Keeps.foldl_snd ?_ (fun _ _ _ => ?_) | dsimp only
    | split

theorem execSstShiftDecision_keeps {a0 a1} : KeepsO 0x828596 a1 (execSstShiftDecision a0 a1) := by
  have h := Keeps.refl (M := 0x828596) a1
  unfold execSstShiftDecision
  repeat' first
    | with_reducible first
        | assumption | refine KeepsO.next ?_ | exact KeepsO.refused | refine KeepsO.ite ?_ ?_ | refine Keeps.ite ?_ ?_
        | refine State.mirrorOf_keeps (by decide) ?_ | refine State.raise_keeps (by decide) ?_
        | refine State.shiftString_keeps (by decide) ?_ | refine State.modUnit_keeps (by decide) ?_
        | refine State.showLv_keeps (by decide) ?_ | refine State.showUnit_keeps (by decide) ?_
        | refine State.setPoint_keeps (by decide) ?_ | refine State.isoCommands_keeps (by decide) ?_
        | refine Keeps.foldl ?_ (fun _ _ _ => ?_) | refine Keeps.foldl_fst ?_ (fun _ _ _ => ?_)
        | refine Keeps.foldl_snd ?_ (fun _ _ _ => ?_) | dsimp only
    | split

end Sys2Proof.Machine
end

