-- ==== Sys2Proof/Laws/KeepsSaf.lean ====
section
/-! SUPPORT. What each operation of Machine/Saf.lean keeps (Laws/Keeps.lean). -/

set_option Elab.async false

namespace Sys2Proof.Machine

theorem State.soutUpdate_keeps {M : Nat} {r s : State} (hm : 0x12 ||| M = M) (h : Keeps M r s) :
    Keeps M r (State.soutUpdate s) := by
  refine h.next hm ?_
  unfold State.soutUpdate
  refine Keeps.foldl (.refl s) (fun t n ht => Keeps.ite ht ?_)
  exact Keeps.upd (State.setBit_keeps (by decide) ht) (hwire := List.prefix_append t.wire _)

theorem State.blockLanes_keeps {M : Nat} {r : State} {a0 a1} (hm : 0x18512 ||| M = M) (h : Keeps M r a0) :
    Keeps M r (State.blockLanes a0 a1) := by
  refine h.next hm ?_
  clear h
  have h := Keeps.refl (M := 0x18512) a0
  unfold State.blockLanes
  repeat' first
    | with_reducible first
        | assumption | refine Keeps.ite ?_ ?_ | refine State.modLane_keeps (by decide) ?_
        | refine State.insertPrio_keeps (by decide) ?_ | refine Keeps.foldl ?_ (fun _ _ _ => ?_) | dsimp only
    | split

theorem State.modSaf_keeps {M : Nat} {r s : State} {f : Saf → Saf} (hm : 0x1000000 ||| M = M) (h : Keeps M r s)
    (hf : Safety.SafetyOk s.saf → Safety.SafetyOk (f s.saf)) : Keeps M r (State.modSaf s f) := by
  refine h.trans ?_
  unfold State.modSaf
  exact Keeps.upd (.refl s) (hSafe := hf) (hsaf := (KeptAt.mono hm (.inl (by decide) : KeptAt 0x1000000 24 _)))

theorem State.setTarget_keeps {M : Nat} {r : State} {a0 a1 a2 a3} (hm : 0x512 ||| M = M) (h : Keeps M r a0) :
    Keeps M r (State.setTarget a0 a1 a2 a3) := by
  refine h.next hm ?_
  clear h
  have h := Keeps.refl (M := 0x512) a0
  unfold State.setTarget
  repeat' first
    | with_reducible first
        | assumption | refine State.wr_keeps (by decide) ?_ | refine State.setBit_keeps (by decide) ?_
        | refine State.soutUpdate_keeps (by decide) ?_ | refine State.raise_keeps (by decide) ?_ | dsimp only

theorem State.safeBlock_keeps {M : Nat} {r : State} {a0 a1 a2} (hm : 0x103c592 ||| M = M) (h : Keeps M r a0) :
    Keeps M r (State.safeBlock a0 a1 a2) := by
  refine h.next hm ?_
  clear h
  have h := Keeps.refl (M := 0x103c592) a0
  unfold State.safeBlock
  repeat' first
    | with_reducible first
        | assumption | refine Keeps.ite ?_ ?_
        | refine State.modSaf_keeps (by decide) ?_ (by first | exact (fun h => h) | exact (fun h => ⟨tabWf_filter h.1, tabWf_filter h.2⟩) | exact (fun h => ⟨tabWf_filter h.1, rfl⟩) | exact (fun h => ⟨tabWf_tabSet (h.1), h.2⟩) | exact (fun h => ⟨tabWf_tabMod (h.1), h.2⟩) | exact (fun h => ⟨h.1, tabWf_tabSet (h.2)⟩) | exact (fun h => ⟨h.1, tabWf_tabMod (h.2)⟩) | exact (fun _ => ⟨rfl, rfl⟩))
        | refine State.armHold_keeps (by decide) ?_ | refine State.blockLanes_keeps (by decide) ?_
        | refine State.armBlockNow_keeps (by decide) ?_ | refine State.setTarget_keeps (by decide) ?_
        | refine State.unitStopped_keeps (by decide) ?_ | refine Keeps.foldl ?_ (fun _ _ _ => ?_)
        | refine Keeps.foldl_fst ?_ (fun _ _ _ => ?_) | dsimp only
    | split

theorem State.safeStop_keeps {M : Nat} {r : State} {a0 a1 a2} (hm : 0x1020592 ||| M = M) (h : Keeps M r a0) :
    Keeps M r (State.safeStop a0 a1 a2) := by
  refine h.next hm ?_
  clear h
  have h := Keeps.refl (M := 0x1020592) a0
  unfold State.safeStop
  repeat' first
    | with_reducible first
        | assumption | refine Keeps.ite ?_ ?_
        | refine State.modSaf_keeps (by decide) ?_ (by first | exact (fun h => h) | exact (fun h => ⟨tabWf_filter h.1, tabWf_filter h.2⟩) | exact (fun h => ⟨tabWf_filter h.1, rfl⟩) | exact (fun h => ⟨tabWf_tabSet (h.1), h.2⟩) | exact (fun h => ⟨tabWf_tabMod (h.1), h.2⟩) | exact (fun h => ⟨h.1, tabWf_tabSet (h.2)⟩) | exact (fun h => ⟨h.1, tabWf_tabMod (h.2)⟩) | exact (fun _ => ⟨rfl, rfl⟩))
        | refine State.setTarget_keeps (by decide) ?_ | refine State.armStop_keeps (by decide) ?_
        | refine State.unitStop_keeps (by decide) ?_ | refine Keeps.foldl ?_ (fun _ _ _ => ?_)
        | refine Keeps.foldl_fst ?_ (fun _ _ _ => ?_) | dsimp only
    | split

theorem State.safRequest_keeps {M : Nat} {r : State} {a0 a1 a2 a3} (hm : 0x103c592 ||| M = M) (h : Keeps M r a0) :
    Keeps M r (State.safRequest a0 a1 a2 a3) := by
  refine h.next hm ?_
  clear h
  have h := Keeps.refl (M := 0x103c592) a0
  unfold State.safRequest
  repeat' first
    | with_reducible first
        | assumption | refine Keeps.ite ?_ ?_ | refine State.safeStop_keeps (by decide) ?_
        | refine State.safeBlock_keeps (by decide) ?_ | refine Keeps.foldl ?_ (fun _ _ _ => ?_) | dsimp only
    | split

theorem State.safReq_keeps {M : Nat} {r : State} {a0 a1 a2} (hm : 0x103c592 ||| M = M) (h : Keeps M r a0) :
    Keeps M r (State.safReq a0 a1 a2) := by
  refine h.next hm ?_
  clear h
  have h := Keeps.refl (M := 0x103c592) a0
  unfold State.safReq
  repeat' first
    | with_reducible first
        | assumption | refine Keeps.ite ?_ ?_ | refine State.setBit_keeps (by decide) ?_
        | refine State.safRequest_keeps (by decide) ?_ | dsimp only
    | split

theorem State.blockArms_keeps {M : Nat} {r : State} {a0 a1} (hm : 0x24592 ||| M = M) (h : Keeps M r a0) :
    Keeps M r (State.blockArms a0 a1) := by
  refine h.next hm ?_
  clear h
  have h := Keeps.refl (M := 0x24592) a0
  unfold State.blockArms
  repeat' first
    | with_reducible first
        | assumption | refine Keeps.ite ?_ ?_ | refine State.armHold_keeps (by decide) ?_
        | refine State.armBlockNow_keeps (by decide) ?_ | refine State.unitStopped_keeps (by decide) ?_
        | refine Keeps.foldl ?_ (fun _ _ _ => ?_) | dsimp only
    | split

theorem State.laneBits_keeps {M : Nat} {r : State} {a0} (hm : 0x10000 ||| M = M) (h : Keeps M r a0) :
    Keeps M r (State.laneBits a0) := by
  refine h.next hm ?_
  clear h
  have h := Keeps.refl (M := 0x10000) a0
  unfold State.laneBits
  repeat' first
    | with_reducible first
        | assumption | refine State.modLane_keeps (by decide) ?_ | refine Keeps.foldl ?_ (fun _ _ _ => ?_) | dsimp only

theorem State.safTakeover_keeps {M : Nat} {r : State} {a0} (hm : 0x34592 ||| M = M) (h : Keeps M r a0) :
    Keeps M r (State.safTakeover a0) := by
  refine h.next hm ?_
  clear h
  have h := Keeps.refl (M := 0x34592) a0
  unfold State.safTakeover
  repeat' first
    | with_reducible first
        | assumption | refine Keeps.ite ?_ ?_ | refine State.laneBits_keeps (by decide) ?_
        | refine State.blockArms_keeps (by decide) ?_ | refine State.setTarget_keeps (by decide) ?_
        | refine State.armStop_keeps (by decide) ?_ | refine Keeps.foldl ?_ (fun _ _ _ => ?_) | dsimp only
    | split

theorem State.setViolation_keeps {M : Nat} {r : State} {a0 a1 a2} (hm : 0x10 ||| M = M) (h : Keeps M r a0) :
    Keeps M r (State.setViolation a0 a1 a2) := by
  refine h.next hm ?_
  clear h
  have h := Keeps.refl (M := 0x10) a0
  unfold State.setViolation
  repeat' first
    | with_reducible first
        | assumption | refine State.setBit_keeps (by decide) ?_ | refine State.wr_keeps (by decide) ?_ | dsimp only

theorem State.pchStart_keeps {M : Nat} {r : State} {a0 a1} (hm : 0x10 ||| M = M) (h : Keeps M r a0) :
    Keeps M r (State.pchStart a0 a1) := by
  refine h.next hm ?_
  clear h
  have h := Keeps.refl (M := 0x10) a0
  unfold State.pchStart
  repeat' first
    | with_reducible first
        | assumption | refine State.setViolation_keeps (by decide) ?_ | refine State.wr_keeps (by decide) ?_ | dsimp only

theorem State.showLevel_keeps {M : Nat} {r : State} {a0 a1 a2 a3} (hm : 0x10 ||| M = M) (h : Keeps M r a0) :
    Keeps M r (State.showLevel a0 a1 a2 a3) := by
  refine h.next hm ?_
  clear h
  have h := Keeps.refl (M := 0x10) a0
  unfold State.showLevel
  repeat' first
    | with_reducible first
        | assumption | refine Keeps.ite ?_ ?_ | refine State.wr_keeps (by decide) ?_ | dsimp only
    | split

theorem State.showSafety_keeps {M : Nat} {r : State} {a0 a1} (hm : 0x10 ||| M = M) (h : Keeps M r a0) :
    Keeps M r (State.showSafety a0 a1) := by
  refine h.next hm ?_
  clear h
  have h := Keeps.refl (M := 0x10) a0
  unfold State.showSafety
  repeat' first
    | with_reducible first
        | assumption | refine State.clearFields_keeps (by decide) ?_ | refine State.wr_keeps (by decide) ?_
        | refine Keeps.foldl ?_ (fun _ _ _ => ?_) | dsimp only

theorem State.targetStart_keeps {M : Nat} {r : State} {a0 a1} (hm : 0x512 ||| M = M) (h : Keeps M r a0) :
    Keeps M r (State.targetStart a0 a1) := by
  refine h.next hm ?_
  clear h
  have h := Keeps.refl (M := 0x512) a0
  unfold State.targetStart
  repeat' first
    | with_reducible first
        | assumption | refine Keeps.ite ?_ ?_ | refine State.wr_keeps (by decide) ?_
        | refine State.setTarget_keeps (by decide) ?_ | refine Keeps.foldl ?_ (fun _ _ _ => ?_) | dsimp only
    | split

theorem State.safStart_keeps {M : Nat} {r : State} {a0 a1} (hm : 0x1010512 ||| M = M) (h : Keeps M r a0) :
    Keeps M r (State.safStart a0 a1) := by
  refine h.next hm ?_
  clear h
  have h := Keeps.refl (M := 0x1010512) a0
  unfold State.safStart
  repeat' first
    | with_reducible first
        | assumption | refine Keeps.ite ?_ ?_
        | refine State.modSaf_keeps (by decide) ?_ (by first | exact (fun h => h) | exact (fun h => ⟨tabWf_filter h.1, tabWf_filter h.2⟩) | exact (fun h => ⟨tabWf_filter h.1, rfl⟩) | exact (fun h => ⟨tabWf_tabSet (h.1), h.2⟩) | exact (fun h => ⟨tabWf_tabMod (h.1), h.2⟩) | exact (fun h => ⟨h.1, tabWf_tabSet (h.2)⟩) | exact (fun h => ⟨h.1, tabWf_tabMod (h.2)⟩) | exact (fun _ => ⟨rfl, rfl⟩))
        | refine State.wr_keeps (by decide) ?_ | refine State.setBit_keeps (by decide) ?_
        | refine State.setViolation_keeps (by decide) ?_ | refine State.pchStart_keeps (by decide) ?_
        | refine State.showSafety_keeps (by decide) ?_ | refine State.showLevel_keeps (by decide) ?_
        | refine State.soutUpdate_keeps (by decide) ?_ | refine State.laneBits_keeps (by decide) ?_
        | refine State.targetStart_keeps (by decide) ?_ | refine Keeps.foldl ?_ (fun _ _ _ => ?_)
        | refine Keeps.forEach ?_ (fun _ _ _ => ?_) | refine Keeps.foldl_fst ?_ (fun _ _ _ => ?_)
        | refine Keeps.foldl_snd ?_ (fun _ _ _ => ?_) | dsimp only
    | split
  all_goals with_reducible refine Keeps.upd ?_
  all_goals (repeat' first
    | with_reducible first
        | assumption | refine Keeps.ite ?_ ?_
        | refine State.modSaf_keeps (by decide) ?_ (by first | exact (fun h => h) | exact (fun h => ⟨tabWf_filter h.1, tabWf_filter h.2⟩) | exact (fun h => ⟨tabWf_filter h.1, rfl⟩) | exact (fun h => ⟨tabWf_tabSet (h.1), h.2⟩) | exact (fun h => ⟨tabWf_tabMod (h.1), h.2⟩) | exact (fun h => ⟨h.1, tabWf_tabSet (h.2)⟩) | exact (fun h => ⟨h.1, tabWf_tabMod (h.2)⟩) | exact (fun _ => ⟨rfl, rfl⟩))
        | refine State.wr_keeps (by decide) ?_ | refine State.setBit_keeps (by decide) ?_
        | refine State.setViolation_keeps (by decide) ?_ | refine State.pchStart_keeps (by decide) ?_
        | refine State.showSafety_keeps (by decide) ?_ | refine State.showLevel_keeps (by decide) ?_
        | refine State.soutUpdate_keeps (by decide) ?_ | refine State.laneBits_keeps (by decide) ?_
        | refine State.targetStart_keeps (by decide) ?_ | refine Keeps.foldl ?_ (fun _ _ _ => ?_)
        | refine Keeps.forEach ?_ (fun _ _ _ => ?_) | refine Keeps.foldl_fst ?_ (fun _ _ _ => ?_)
        | refine Keeps.foldl_snd ?_ (fun _ _ _ => ?_) | dsimp only
    | split)

theorem State.safSeam_keeps {M : Nat} {r : State} {a0} (hm : 0x80000080 ||| M = M) (h : Keeps M r a0) :
    Keeps M r (State.safSeam a0) := by
  refine h.next hm ?_
  clear h
  have h := Keeps.refl (M := 0x80000080) a0
  unfold State.safSeam
  repeat' first
    | with_reducible first
        | assumption | refine State.setBothFloat_keeps (by decide) ?_ | refine Keeps.foldl ?_ (fun _ _ _ => ?_)
        | refine Keeps.foldl_fst ?_ (fun _ _ _ => ?_) | refine Keeps.foldl_snd ?_ (fun _ _ _ => ?_) | dsimp only
    | split

theorem State.degrade_keeps {M : Nat} {r : State} {a0 a1} (hm : 0x1000512 ||| M = M) (h : Keeps M r a0) :
    Keeps M r (State.degrade a0 a1) := by
  refine h.next hm ?_
  clear h
  have h := Keeps.refl (M := 0x1000512) a0
  unfold State.degrade
  repeat' first
    | with_reducible first
        | assumption | refine Keeps.ite ?_ ?_
        | refine State.modSaf_keeps (by decide) ?_ (by first | exact (fun h => h) | exact (fun h => ⟨tabWf_filter h.1, tabWf_filter h.2⟩) | exact (fun h => ⟨tabWf_filter h.1, rfl⟩) | exact (fun h => ⟨tabWf_tabSet (h.1), h.2⟩) | exact (fun h => ⟨tabWf_tabMod (h.1), h.2⟩) | exact (fun h => ⟨h.1, tabWf_tabSet (h.2)⟩) | exact (fun h => ⟨h.1, tabWf_tabMod (h.2)⟩) | exact (fun _ => ⟨rfl, rfl⟩))
        | refine State.wr_keeps (by decide) ?_ | refine State.raise_keeps (by decide) ?_ | dsimp only
    | split

theorem State.modPch_keeps {M : Nat} {r : State} {a0 a1 a2} (hm : 0x1000000 ||| M = M) (h : Keeps M r a0) :
    Keeps M r (State.modPch a0 a1 a2) := by
  refine h.next hm ?_
  clear h
  have h := Keeps.refl (M := 0x1000000) a0
  unfold State.modPch
  repeat' first
    | with_reducible first
        | assumption
        | refine State.modSaf_keeps (by decide) ?_ (by first | exact (fun h => h) | exact (fun h => ⟨tabWf_filter h.1, tabWf_filter h.2⟩) | exact (fun h => ⟨tabWf_filter h.1, rfl⟩) | exact (fun h => ⟨tabWf_tabSet (h.1), h.2⟩) | exact (fun h => ⟨tabWf_tabMod (h.1), h.2⟩) | exact (fun h => ⟨h.1, tabWf_tabSet (h.2)⟩) | exact (fun h => ⟨h.1, tabWf_tabMod (h.2)⟩) | exact (fun _ => ⟨rfl, rfl⟩))
        | dsimp only

theorem State.pchEvaluate_keeps {M : Nat} {r : State} {a0 a1} (hm : 0x10 ||| M = M) (h : Keeps M r a0) :
    Keeps M r (State.pchEvaluate a0 a1) := by
  refine h.next hm ?_
  clear h
  have h := Keeps.refl (M := 0x10) a0
  unfold State.pchEvaluate
  repeat' first
    | with_reducible first
        | assumption | refine Keeps.ite ?_ ?_ | refine State.wr_keeps (by decide) ?_
        | refine State.setViolation_keeps (by decide) ?_ | dsimp only
    | split

theorem State.pchSample_keeps {M : Nat} {r : State} {a0 a1 a2} (hm : 0x1000010 ||| M = M) (h : Keeps M r a0) :
    Keeps M r (State.pchSample a0 a1 a2) := by
  refine h.next hm ?_
  clear h
  have h := Keeps.refl (M := 0x1000010) a0
  unfold State.pchSample
  repeat' first
    | with_reducible first
        | assumption | refine Keeps.ite ?_ ?_ | refine State.modPch_keeps (by decide) ?_
        | refine State.wr_keeps (by decide) ?_ | refine State.pchEvaluate_keeps (by decide) ?_
        | refine Keeps.foldl ?_ (fun _ _ _ => ?_) | dsimp only
    | split

theorem State.expire_keeps {M : Nat} {r : State} {a0} (hm : 0x103c592 ||| M = M) (h : Keeps M r a0) :
    Keeps M r (State.expire a0) := by
  refine h.next hm ?_
  clear h
  have h := Keeps.refl (M := 0x103c592) a0
  unfold State.expire
  repeat' first
    | with_reducible first
        | assumption | refine Keeps.ite ?_ ?_ | refine State.wr_keeps (by decide) ?_ | refine State.raise_keeps (by decide) ?_
        | refine State.modSaf_keeps (by decide) ?_ (by first | exact (fun h => h) | exact (fun h => ⟨tabWf_filter h.1, tabWf_filter h.2⟩) | exact (fun h => ⟨tabWf_filter h.1, rfl⟩) | exact (fun h => ⟨tabWf_tabSet (h.1), h.2⟩) | exact (fun h => ⟨tabWf_tabMod (h.1), h.2⟩) | exact (fun h => ⟨h.1, tabWf_tabSet (h.2)⟩) | exact (fun h => ⟨h.1, tabWf_tabMod (h.2)⟩) | exact (fun _ => ⟨rfl, rfl⟩))
        | refine State.soutUpdate_keeps (by decide) ?_ | refine State.safRequest_keeps (by decide) ?_ | dsimp only
    | split

theorem State.modPair_keeps {M : Nat} {r : State} {a0 a1 a2} (hm : 0x1000000 ||| M = M) (h : Keeps M r a0) :
    Keeps M r (State.modPair a0 a1 a2) := by
  refine h.next hm ?_
  clear h
  have h := Keeps.refl (M := 0x1000000) a0
  unfold State.modPair
  repeat' first
    | with_reducible first
        | assumption
        | refine State.modSaf_keeps (by decide) ?_ (by first | exact (fun h => h) | exact (fun h => ⟨tabWf_filter h.1, tabWf_filter h.2⟩) | exact (fun h => ⟨tabWf_filter h.1, rfl⟩) | exact (fun h => ⟨tabWf_tabSet (h.1), h.2⟩) | exact (fun h => ⟨tabWf_tabMod (h.1), h.2⟩) | exact (fun h => ⟨h.1, tabWf_tabSet (h.2)⟩) | exact (fun h => ⟨h.1, tabWf_tabMod (h.2)⟩) | exact (fun _ => ⟨rfl, rfl⟩))
        | dsimp only

theorem State.pairUpdate_keeps {M : Nat} {r : State} {a0 a1} (hm : 0x103c592 ||| M = M) (h : Keeps M r a0) :
    Keeps M r (State.pairUpdate a0 a1) := by
  refine h.next hm ?_
  clear h
  have h := Keeps.refl (M := 0x103c592) a0
  unfold State.pairUpdate
  repeat' first
    | with_reducible first
        | assumption | refine Keeps.ite ?_ ?_ | refine State.wr_keeps (by decide) ?_
        | refine State.setBit_keeps (by decide) ?_ | refine State.count_keeps (by decide) ?_
        | refine State.raise_keeps (by decide) ?_ | refine State.safRequest_keeps (by decide) ?_ | dsimp only
    | split

theorem State.failTest_keeps {M : Nat} {r : State} {a0 a1 a2 a3} (hm : 0x103c592 ||| M = M) (h : Keeps M r a0) :
    Keeps M r (State.failTest a0 a1 a2 a3) := by
  refine h.next hm ?_
  clear h
  have h := Keeps.refl (M := 0x103c592) a0
  unfold State.failTest
  repeat' first
    | with_reducible first
        | assumption | refine Keeps.ite ?_ ?_ | refine State.modPair_keeps (by decide) ?_
        | refine State.count_keeps (by decide) ?_ | refine State.setBit_keeps (by decide) ?_
        | refine State.degrade_keeps (by decide) ?_ | refine State.raise_keeps (by decide) ?_
        | refine State.pairUpdate_keeps (by decide) ?_ | refine State.expire_keeps (by decide) ?_ | dsimp only
    | split

theorem State.lockAgain_keeps {M : Nat} {r : State} {a0} (hm : 0x1000000 ||| M = M) (h : Keeps M r a0) :
    Keeps M r (State.lockAgain a0) := by
  refine h.next hm ?_
  clear h
  have h := Keeps.refl (M := 0x1000000) a0
  unfold State.lockAgain
  repeat' first
    | with_reducible first
        | assumption
        | refine State.modSaf_keeps (by decide) ?_ (by first | exact (fun h => h) | exact (fun h => ⟨tabWf_filter h.1, tabWf_filter h.2⟩) | exact (fun h => ⟨tabWf_filter h.1, rfl⟩) | exact (fun h => ⟨tabWf_tabSet (h.1), h.2⟩) | exact (fun h => ⟨tabWf_tabMod (h.1), h.2⟩) | exact (fun h => ⟨h.1, tabWf_tabSet (h.2)⟩) | exact (fun h => ⟨h.1, tabWf_tabMod (h.2)⟩) | exact (fun _ => ⟨rfl, rfl⟩))
        | dsimp only

theorem State.prioChanged_keeps {M : Nat} {r : State} {a0 a1 a2} (hm : 0x18512 ||| M = M) (h : Keeps M r a0) :
    Keeps M r (State.prioChanged a0 a1 a2) := by
  refine h.next hm ?_
  clear h
  have h := Keeps.refl (M := 0x18512) a0
  unfold State.prioChanged
  repeat' first
    | with_reducible first
        | assumption | refine Keeps.ite ?_ ?_ | refine State.insertPrio_keeps (by decide) ?_ | dsimp only
    | split

theorem State.pulseFrom_keeps {M : Nat} {r : State} {a0 a1 a2} (hm : 0x1000000 ||| M = M) (h : Keeps M r a0) :
    Keeps M r (State.pulseFrom a0 a1 a2) := by
  refine h.next hm ?_
  clear h
  have h := Keeps.refl (M := 0x1000000) a0
  unfold State.pulseFrom
  repeat' first
    | with_reducible first
        | assumption
        | refine State.modSaf_keeps (by decide) ?_ (by first | exact (fun h => h) | exact (fun h => ⟨tabWf_filter h.1, tabWf_filter h.2⟩) | exact (fun h => ⟨tabWf_filter h.1, rfl⟩) | exact (fun h => ⟨tabWf_tabSet (h.1), h.2⟩) | exact (fun h => ⟨tabWf_tabMod (h.1), h.2⟩) | exact (fun h => ⟨h.1, tabWf_tabSet (h.2)⟩) | exact (fun h => ⟨h.1, tabWf_tabMod (h.2)⟩) | exact (fun _ => ⟨rfl, rfl⟩))
        | dsimp only

theorem State.trustAgain_keeps {M : Nat} {r : State} {a0 a1} (hm : 0x103c592 ||| M = M) (h : Keeps M r a0) :
    Keeps M r (State.trustAgain a0 a1) := by
  refine h.next hm ?_
  clear h
  have h := Keeps.refl (M := 0x103c592) a0
  unfold State.trustAgain
  repeat' first
    | with_reducible first
        | assumption | refine Keeps.ite ?_ ?_ | refine State.pairUpdate_keeps (by decide) ?_
        | refine State.modPair_keeps (by decide) ?_ | refine Keeps.foldl ?_ (fun _ _ _ => ?_) | dsimp only
    | split

theorem State.safRelease_keeps {M : Nat} {r : State} {a0 a1} (hm : 0x103c592 ||| M = M) (h : Keeps M r a0) :
    Keeps M r (State.safRelease a0 a1) := by
  refine h.next hm ?_
  clear h
  have h := Keeps.refl (M := 0x103c592) a0
  unfold State.safRelease
  repeat' first
    | with_reducible first
        | assumption | refine Keeps.ite ?_ ?_ | refine State.trustAgain_keeps (by decide) ?_
        | refine State.setTarget_keeps (by decide) ?_ | refine State.wr_keeps (by decide) ?_
        | refine State.prioChanged_keeps (by decide) ?_ | refine State.modLane_keeps (by decide) ?_
        | refine Keeps.foldl ?_ (fun _ _ _ => ?_) | refine Keeps.foldl_fst ?_ (fun _ _ _ => ?_)
        | refine Keeps.foldl_snd ?_ (fun _ _ _ => ?_) | dsimp only
    | split

theorem State.safStatus_keeps {M : Nat} {r : State} {a0 a1 a2} (hm : 0x512 ||| M = M) (h : Keeps M r a0) :
    Keeps M r (State.safStatus a0 a1 a2) := by
  refine h.next hm ?_
  clear h
  have h := Keeps.refl (M := 0x512) a0
  unfold State.safStatus
  repeat' first
    | with_reducible first
        | assumption | refine Keeps.ite ?_ ?_ | refine State.wr_keeps (by decide) ?_ | refine State.raise_keeps (by decide) ?_
        | dsimp only
    | split

theorem State.testPulse_keeps {M : Nat} {r : State} {a0 a1 a2} (hm : 0x103c592 ||| M = M) (h : Keeps M r a0) :
    Keeps M r (State.testPulse a0 a1 a2) := by
  refine h.next hm ?_
  clear h
  have h := Keeps.refl (M := 0x103c592) a0
  unfold State.testPulse
  repeat' first
    | with_reducible first
        | assumption | refine Keeps.ite ?_ ?_ | refine State.pulseFrom_keeps (by decide) ?_
        | refine State.modPair_keeps (by decide) ?_
        | refine State.modSaf_keeps (by decide) ?_ (by first | exact (fun h => h) | exact (fun h => ⟨tabWf_filter h.1, tabWf_filter h.2⟩) | exact (fun h => ⟨tabWf_filter h.1, rfl⟩) | exact (fun h => ⟨tabWf_tabSet (h.1), h.2⟩) | exact (fun h => ⟨tabWf_tabMod (h.1), h.2⟩) | exact (fun h => ⟨h.1, tabWf_tabSet (h.2)⟩) | exact (fun h => ⟨h.1, tabWf_tabMod (h.2)⟩) | exact (fun _ => ⟨rfl, rfl⟩))
        | refine State.setBit_keeps (by decide) ?_ | refine State.failTest_keeps (by decide) ?_
        | refine State.raise_keeps (by decide) ?_ | refine Keeps.foldl ?_ (fun _ _ _ => ?_)
        | refine Keeps.foldl_fst ?_ (fun _ _ _ => ?_) | refine Keeps.foldl_snd ?_ (fun _ _ _ => ?_) | dsimp only
    | split
  all_goals with_reducible refine Keeps.upd ?_
  all_goals (repeat' first
    | with_reducible first
        | assumption | refine Keeps.ite ?_ ?_ | refine State.pulseFrom_keeps (by decide) ?_
        | refine State.modPair_keeps (by decide) ?_
        | refine State.modSaf_keeps (by decide) ?_ (by first | exact (fun h => h) | exact (fun h => ⟨tabWf_filter h.1, tabWf_filter h.2⟩) | exact (fun h => ⟨tabWf_filter h.1, rfl⟩) | exact (fun h => ⟨tabWf_tabSet (h.1), h.2⟩) | exact (fun h => ⟨tabWf_tabMod (h.1), h.2⟩) | exact (fun h => ⟨h.1, tabWf_tabSet (h.2)⟩) | exact (fun h => ⟨h.1, tabWf_tabMod (h.2)⟩) | exact (fun _ => ⟨rfl, rfl⟩))
        | refine State.setBit_keeps (by decide) ?_ | refine State.failTest_keeps (by decide) ?_
        | refine State.raise_keeps (by decide) ?_ | refine Keeps.foldl ?_ (fun _ _ _ => ?_)
        | refine Keeps.foldl_fst ?_ (fun _ _ _ => ?_) | refine Keeps.foldl_snd ?_ (fun _ _ _ => ?_) | dsimp only
    | split)

theorem State.violate_keeps {M : Nat} {r : State} {a0 a1} (hm : 0x103c592 ||| M = M) (h : Keeps M r a0) :
    Keeps M r (State.violate a0 a1) := by
  refine h.next hm ?_
  clear h
  have h := Keeps.refl (M := 0x103c592) a0
  unfold State.violate
  repeat' first
    | with_reducible first
        | assumption | refine State.count_keeps (by decide) ?_ | refine State.setViolation_keeps (by decide) ?_
        | refine State.safRequest_keeps (by decide) ?_ | refine State.raise_keeps (by decide) ?_ | dsimp only

theorem execEnvelopeViolation_keeps {a0 a1} : KeepsO 0x183c592 a1 (execEnvelopeViolation a0 a1) := by
  have h := Keeps.refl (M := 0x183c592) a1
  unfold execEnvelopeViolation
  repeat' first
    | with_reducible first
        | assumption | refine KeepsO.next ?_ | exact KeepsO.refused | refine KeepsO.ite ?_ ?_ | refine Keeps.ite ?_ ?_
        | refine State.mirrorOf_keeps (by decide) ?_ | refine State.safeBlock_keeps (by decide) ?_ | dsimp only
    | split

theorem execExpired_keeps {a0} : KeepsO 0x183c592 a0 (execExpired a0) := by
  have h := Keeps.refl (M := 0x183c592) a0
  unfold execExpired
  repeat' first
    | with_reducible first
        | assumption | refine KeepsO.next ?_ | exact KeepsO.refused | refine KeepsO.ite ?_ ?_ | refine Keeps.ite ?_ ?_
        | refine State.mirrorOf_keeps (by decide) ?_ | refine State.expire_keeps (by decide) ?_ | dsimp only
    | split

theorem execLimitViolation_keeps {a0 a1} : KeepsO 0x183c592 a1 (execLimitViolation a0 a1) := by
  have h := Keeps.refl (M := 0x183c592) a1
  unfold execLimitViolation
  repeat' first
    | with_reducible first
        | assumption | refine KeepsO.next ?_ | exact KeepsO.refused | refine KeepsO.ite ?_ ?_ | refine Keeps.ite ?_ ?_
        | refine State.mirrorOf_keeps (by decide) ?_ | refine State.violate_keeps (by decide) ?_ | dsimp only
    | split

theorem execMeasDiscrepancy_keeps {a0 a1 a2 a3} : KeepsO 0x183c592 a3 (execMeasDiscrepancy a0 a1 a2 a3) := by
  have h := Keeps.refl (M := 0x183c592) a3
  unfold execMeasDiscrepancy
  repeat' first
    | with_reducible first
        | assumption | refine KeepsO.next ?_ | exact KeepsO.refused | refine KeepsO.ite ?_ ?_ | refine Keeps.ite ?_ ?_
        | refine State.mirrorOf_keeps (by decide) ?_ | refine State.modPch_keeps (by decide) ?_
        | refine State.wr_keeps (by decide) ?_ | refine State.setBit_keeps (by decide) ?_
        | refine State.degrade_keeps (by decide) ?_ | refine State.raise_keeps (by decide) ?_
        | refine State.expire_keeps (by decide) ?_ | refine State.violate_keeps (by decide) ?_ | dsimp only
    | split

theorem execPairDemand_keeps {a0 a1 a2} : KeepsO 0x183c592 a2 (execPairDemand a0 a1 a2) := by
  have h := Keeps.refl (M := 0x183c592) a2
  unfold execPairDemand
  repeat' first
    | with_reducible first
        | assumption | refine KeepsO.next ?_ | exact KeepsO.refused | refine KeepsO.ite ?_ ?_
        | refine State.mirrorOf_keeps (by decide) ?_ | refine State.showLevel_keeps (by decide) ?_
        | refine State.pairUpdate_keeps (by decide) ?_ | refine State.modPair_keeps (by decide) ?_ | dsimp only
    | split

theorem execPairDemandEnd_keeps {a0 a1} : KeepsO 0x103c592 a1 (execPairDemandEnd a0 a1) := by
  have h := Keeps.refl (M := 0x103c592) a1
  unfold execPairDemandEnd
  repeat' first
    | with_reducible first
        | assumption | refine KeepsO.next ?_ | exact KeepsO.refused | refine KeepsO.ite ?_ ?_
        | refine State.showLevel_keeps (by decide) ?_ | refine State.pairUpdate_keeps (by decide) ?_
        | refine State.modPair_keeps (by decide) ?_ | dsimp only
    | split

theorem execPairDiscrepancy_keeps {a0 a1 a2 a3} : KeepsO 0x1800512 a3 (execPairDiscrepancy a0 a1 a2 a3) := by
  have h := Keeps.refl (M := 0x1800512) a3
  unfold execPairDiscrepancy
  repeat' first
    | with_reducible first
        | assumption | refine KeepsO.next ?_ | exact KeepsO.refused | refine KeepsO.ite ?_ ?_ | refine Keeps.ite ?_ ?_
        | refine State.mirrorOf_keeps (by decide) ?_ | refine State.wr_keeps (by decide) ?_
        | refine State.modPair_keeps (by decide) ?_ | refine State.raise_keeps (by decide) ?_
        | refine State.setBit_keeps (by decide) ?_ | dsimp only
    | split

theorem execSafClockWindow_keeps {a0 a1} : KeepsO 0x183c592 a1 (execSafClockWindow a0 a1) := by
  have h := Keeps.refl (M := 0x183c592) a1
  unfold execSafClockWindow
  repeat' first
    | with_reducible first
        | assumption | refine KeepsO.next ?_ | exact KeepsO.refused | refine KeepsO.ite ?_ ?_ | refine Keeps.ite ?_ ?_
        | refine State.wr_keeps (by decide) ?_ | refine State.mirrorOf_keeps (by decide) ?_
        | refine State.modSaf_keeps (by decide) ?_ (by first | exact (fun h => h) | exact (fun h => ⟨tabWf_filter h.1, tabWf_filter h.2⟩) | exact (fun h => ⟨tabWf_filter h.1, rfl⟩) | exact (fun h => ⟨tabWf_tabSet (h.1), h.2⟩) | exact (fun h => ⟨tabWf_tabMod (h.1), h.2⟩) | exact (fun h => ⟨h.1, tabWf_tabSet (h.2)⟩) | exact (fun h => ⟨h.1, tabWf_tabMod (h.2)⟩) | exact (fun _ => ⟨rfl, rfl⟩))
        | refine State.expire_keeps (by decide) ?_ | refine State.raise_keeps (by decide) ?_ | dsimp only
    | split

theorem execSafCmdBlock_keeps {a0 a1} : KeepsO 0x183c592 a1 (execSafCmdBlock a0 a1) := by
  have h := Keeps.refl (M := 0x183c592) a1
  unfold execSafCmdBlock
  repeat' first
    | with_reducible first
        | assumption | refine KeepsO.next ?_ | exact KeepsO.refused | refine KeepsO.byHost ?_ | refine KeepsO.ite ?_ ?_
        | refine State.mirrorOf_keeps (by decide) ?_ | refine State.safStatus_keeps (by decide) ?_
        | refine State.safRequest_keeps (by decide) ?_ | refine State.lockAgain_keeps (by decide) ?_ | dsimp only

theorem execSafCmdClear_keeps {a0 a1} : KeepsO 0x1000512 a1 (execSafCmdClear a0 a1) := by
  have h := Keeps.refl (M := 0x1000512) a1
  unfold execSafCmdClear
  repeat' first
    | with_reducible first
        | assumption | refine KeepsO.next ?_ | exact KeepsO.refused | refine KeepsO.byHost ?_ | refine KeepsO.ite ?_ ?_
        | refine Keeps.ite ?_ ?_ | refine State.safStatus_keeps (by decide) ?_ | refine State.lockAgain_keeps (by decide) ?_
        | refine State.wr_keeps (by decide) ?_ | refine State.soutUpdate_keeps (by decide) ?_
        | refine State.modSaf_keeps (by decide) ?_ (by first | exact (fun h => h) | exact (fun h => ⟨tabWf_filter h.1, tabWf_filter h.2⟩) | exact (fun h => ⟨tabWf_filter h.1, rfl⟩) | exact (fun h => ⟨tabWf_tabSet (h.1), h.2⟩) | exact (fun h => ⟨tabWf_tabMod (h.1), h.2⟩) | exact (fun h => ⟨h.1, tabWf_tabSet (h.2)⟩) | exact (fun h => ⟨h.1, tabWf_tabMod (h.2)⟩) | exact (fun _ => ⟨rfl, rfl⟩))
        | dsimp only
    | split

theorem execSafCmdRelease_keeps {a0 a1} : KeepsO 0x183c592 a1 (execSafCmdRelease a0 a1) := by
  have h := Keeps.refl (M := 0x183c592) a1
  unfold execSafCmdRelease
  repeat' first
    | with_reducible first
        | assumption | refine KeepsO.next ?_ | exact KeepsO.refused | refine KeepsO.byHost ?_ | refine KeepsO.ite ?_ ?_
        | refine Keeps.ite ?_ ?_ | refine State.mirrorOf_keeps (by decide) ?_ | refine State.safStatus_keeps (by decide) ?_
        | refine State.lockAgain_keeps (by decide) ?_ | refine State.safRelease_keeps (by decide) ?_
        | refine Keeps.foldl ?_ (fun _ _ _ => ?_) | refine Keeps.foldl_fst ?_ (fun _ _ _ => ?_) | dsimp only
    | split

theorem execSafCmdStop_keeps {a0 a1} : KeepsO 0x183c592 a1 (execSafCmdStop a0 a1) := by
  have h := Keeps.refl (M := 0x183c592) a1
  unfold execSafCmdStop
  repeat' first
    | with_reducible first
        | assumption | refine KeepsO.next ?_ | exact KeepsO.refused | refine KeepsO.byHost ?_ | refine KeepsO.ite ?_ ?_
        | refine State.mirrorOf_keeps (by decide) ?_ | refine State.safStatus_keeps (by decide) ?_
        | refine State.safRequest_keeps (by decide) ?_ | refine State.lockAgain_keeps (by decide) ?_ | dsimp only

theorem execSafCmdTestNow_keeps {a0} : KeepsO 0x103c592 a0 (execSafCmdTestNow a0) := by
  have h := Keeps.refl (M := 0x103c592) a0
  unfold execSafCmdTestNow
  repeat' first
    | with_reducible first
        | assumption | refine KeepsO.next ?_ | exact KeepsO.refused | refine KeepsO.byHost ?_ | refine KeepsO.ite ?_ ?_
        | refine Keeps.ite ?_ ?_ | refine State.safStatus_keeps (by decide) ?_ | refine State.lockAgain_keeps (by decide) ?_
        | refine State.pulseFrom_keeps (by decide) ?_ | refine State.testPulse_keeps (by decide) ?_
        | refine Keeps.foldl ?_ (fun _ _ _ => ?_) | refine Keeps.foldl_fst ?_ (fun _ _ _ => ?_) | dsimp only
    | split

theorem execSafUnlock_keeps {a0 a1} : KeepsO 0x1000000 a1 (execSafUnlock a0 a1) := by
  have h := Keeps.refl (M := 0x1000000) a1
  unfold execSafUnlock
  repeat' first
    | with_reducible first
        | assumption | refine KeepsO.next ?_ | exact KeepsO.refused | refine KeepsO.byHost ?_ | refine KeepsO.ite ?_ ?_
        | refine Keeps.ite ?_ ?_
        | refine State.modSaf_keeps (by decide) ?_ (by first | exact (fun h => h) | exact (fun h => ⟨tabWf_filter h.1, tabWf_filter h.2⟩) | exact (fun h => ⟨tabWf_filter h.1, rfl⟩) | exact (fun h => ⟨tabWf_tabSet (h.1), h.2⟩) | exact (fun h => ⟨tabWf_tabMod (h.1), h.2⟩) | exact (fun h => ⟨h.1, tabWf_tabSet (h.2)⟩) | exact (fun h => ⟨h.1, tabWf_tabMod (h.2)⟩) | exact (fun _ => ⟨rfl, rfl⟩))
        | dsimp only
    | split

theorem execSelfCheck_keeps {a0 a1 a2 a3} : KeepsO 0x183c592 a3 (execSelfCheck a0 a1 a2 a3) := by
  have h := Keeps.refl (M := 0x183c592) a3
  unfold execSelfCheck
  repeat' first
    | with_reducible first
        | assumption | refine KeepsO.next ?_ | exact KeepsO.refused | refine KeepsO.ite ?_ ?_ | refine Keeps.ite ?_ ?_
        | refine State.wr_keeps (by decide) ?_ | refine State.mirrorOf_keeps (by decide) ?_
        | refine State.modSaf_keeps (by decide) ?_ (by first | exact (fun h => h) | exact (fun h => ⟨tabWf_filter h.1, tabWf_filter h.2⟩) | exact (fun h => ⟨tabWf_filter h.1, rfl⟩) | exact (fun h => ⟨tabWf_tabSet (h.1), h.2⟩) | exact (fun h => ⟨tabWf_tabMod (h.1), h.2⟩) | exact (fun h => ⟨h.1, tabWf_tabSet (h.2)⟩) | exact (fun h => ⟨h.1, tabWf_tabMod (h.2)⟩) | exact (fun _ => ⟨rfl, rfl⟩))
        | refine State.expire_keeps (by decide) ?_ | refine State.degrade_keeps (by decide) ?_ | dsimp only
    | split

theorem execSoutReadback_keeps {a0 a1 a2} : KeepsO 0x1000512 a2 (execSoutReadback a0 a1 a2) := by
  have h := Keeps.refl (M := 0x1000512) a2
  unfold execSoutReadback
  repeat' first
    | with_reducible first
        | assumption | refine KeepsO.next ?_ | exact KeepsO.refused | refine KeepsO.ite ?_ ?_ | refine Keeps.ite ?_ ?_
        | refine State.wr_keeps (by decide) ?_ | refine State.setBit_keeps (by decide) ?_
        | refine State.modSaf_keeps (by decide) ?_ (by first | exact (fun h => h) | exact (fun h => ⟨tabWf_filter h.1, tabWf_filter h.2⟩) | exact (fun h => ⟨tabWf_filter h.1, rfl⟩) | exact (fun h => ⟨tabWf_tabSet (h.1), h.2⟩) | exact (fun h => ⟨tabWf_tabMod (h.1), h.2⟩) | exact (fun h => ⟨h.1, tabWf_tabSet (h.2)⟩) | exact (fun h => ⟨h.1, tabWf_tabMod (h.2)⟩) | exact (fun _ => ⟨rfl, rfl⟩))
        | refine State.degrade_keeps (by decide) ?_ | refine State.raise_keeps (by decide) ?_ | dsimp only
    | split

theorem execSoutTest_keeps {a0 a1 a2} : KeepsO 0x1000002 a2 (execSoutTest a0 a1 a2) := by
  have h := Keeps.refl (M := 0x1000002) a2
  unfold execSoutTest
  repeat' first
    | with_reducible first
        | assumption | refine KeepsO.next ?_ | exact KeepsO.refused | refine KeepsO.ite ?_ ?_ | refine Keeps.ite ?_ ?_
        | refine State.modSaf_keeps (by decide) ?_ (by first | exact (fun h => h) | exact (fun h => ⟨tabWf_filter h.1, tabWf_filter h.2⟩) | exact (fun h => ⟨tabWf_filter h.1, rfl⟩) | exact (fun h => ⟨tabWf_tabSet (h.1), h.2⟩) | exact (fun h => ⟨tabWf_tabMod (h.1), h.2⟩) | exact (fun h => ⟨h.1, tabWf_tabSet (h.2)⟩) | exact (fun h => ⟨h.1, tabWf_tabMod (h.2)⟩) | exact (fun _ => ⟨rfl, rfl⟩))
        | dsimp only
    | split
  all_goals with_reducible refine Keeps.upd ?_
  all_goals (repeat' first
    | with_reducible first
        | assumption | refine KeepsO.next ?_ | exact KeepsO.refused | refine KeepsO.ite ?_ ?_ | refine Keeps.ite ?_ ?_
        | refine State.modSaf_keeps (by decide) ?_ (by first | exact (fun h => h) | exact (fun h => ⟨tabWf_filter h.1, tabWf_filter h.2⟩) | exact (fun h => ⟨tabWf_filter h.1, rfl⟩) | exact (fun h => ⟨tabWf_tabSet (h.1), h.2⟩) | exact (fun h => ⟨tabWf_tabMod (h.1), h.2⟩) | exact (fun h => ⟨h.1, tabWf_tabSet (h.2)⟩) | exact (fun h => ⟨h.1, tabWf_tabMod (h.2)⟩) | exact (fun _ => ⟨rfl, rfl⟩))
        | dsimp only
    | split)

theorem execStopTimeout_keeps {a0 a1} : KeepsO 0x183c592 a1 (execStopTimeout a0 a1) := by
  have h := Keeps.refl (M := 0x183c592) a1
  unfold execStopTimeout
  repeat' first
    | with_reducible first
        | assumption | refine KeepsO.next ?_ | exact KeepsO.refused | refine KeepsO.ite ?_ ?_ | refine Keeps.ite ?_ ?_
        | refine State.mirrorOf_keeps (by decide) ?_ | refine State.safeBlock_keeps (by decide) ?_ | dsimp only
    | split

theorem execTestFailed_keeps {a0 a1 a2} : KeepsO 0x183c592 a2 (execTestFailed a0 a1 a2) := by
  have h := Keeps.refl (M := 0x183c592) a2
  unfold execTestFailed
  repeat' first
    | with_reducible first
        | assumption | refine KeepsO.next ?_ | exact KeepsO.refused | refine KeepsO.ite ?_ ?_
        | refine State.mirrorOf_keeps (by decide) ?_ | refine State.failTest_keeps (by decide) ?_ | dsimp only
    | split

theorem execTestPulse_keeps {a0 a1 a2} : KeepsO 0x183c592 a2 (execTestPulse a0 a1 a2) := by
  have h := Keeps.refl (M := 0x183c592) a2
  unfold execTestPulse
  repeat' first
    | with_reducible first
        | assumption | refine KeepsO.next ?_ | exact KeepsO.refused | refine KeepsO.ite ?_ ?_ | refine Keeps.ite ?_ ?_
        | refine State.mirrorOf_keeps (by decide) ?_ | refine State.testPulse_keeps (by decide) ?_ | dsimp only
    | split

theorem execUnlockExpired_keeps {a0} : KeepsO 0x1000000 a0 (execUnlockExpired a0) := by
  have h := Keeps.refl (M := 0x1000000) a0
  unfold execUnlockExpired
  repeat' first
    | with_reducible first
        | assumption | refine KeepsO.next ?_ | exact KeepsO.refused | refine KeepsO.ite ?_ ?_
        | refine State.modSaf_keeps (by decide) ?_ (by first | exact (fun h => h) | exact (fun h => ⟨tabWf_filter h.1, tabWf_filter h.2⟩) | exact (fun h => ⟨tabWf_filter h.1, rfl⟩) | exact (fun h => ⟨tabWf_tabSet (h.1), h.2⟩) | exact (fun h => ⟨tabWf_tabMod (h.1), h.2⟩) | exact (fun h => ⟨h.1, tabWf_tabSet (h.2)⟩) | exact (fun h => ⟨h.1, tabWf_tabMod (h.2)⟩) | exact (fun _ => ⟨rfl, rfl⟩))
        | dsimp only

end Sys2Proof.Machine
end

