-- ==== Sys2Proof/Laws/KeepsAdc.lean ====
section
/-! SUPPORT. What each operation of Machine/Adc.lean keeps (Laws/Keeps.lean). -/

set_option Elab.async false

namespace Sys2Proof.Machine

theorem State.startRun_keeps {M : Nat} {r : State} {a0 a1} (hm : 0x400000 ||| M = M) (h : Keeps M r a0) :
    Keeps M r (State.startRun a0 a1) := by
  refine h.next hm ?_
  clear h
  have h := Keeps.refl (M := 0x400000) a0
  unfold State.startRun
  repeat' first
    | with_reducible first
        | assumption | refine Keeps.ite ?_ ?_ | refine State.modCore_keeps (by decide) ?_ | dsimp only
    | split

theorem State.nextEntry_keeps {M : Nat} {r : State} {a0 a1} (hm : 0x400000 ||| M = M) (h : Keeps M r a0) :
    Keeps M r (State.nextEntry a0 a1) := by
  refine h.next hm ?_
  clear h
  have h := Keeps.refl (M := 0x400000) a0
  unfold State.nextEntry
  repeat' first
    | with_reducible first
        | assumption | refine Keeps.ite ?_ ?_ | refine State.modCore_keeps (by decide) ?_
        | refine State.startRun_keeps (by decide) ?_ | dsimp only
    | split

theorem State.roundEnd_keeps {M : Nat} {r : State} {a0 a1} (hm : 0x400010 ||| M = M) (h : Keeps M r a0) :
    Keeps M r (State.roundEnd a0 a1) := by
  refine h.next hm ?_
  clear h
  have h := Keeps.refl (M := 0x400010) a0
  unfold State.roundEnd
  repeat' first
    | with_reducible first
        | assumption | refine Keeps.ite ?_ ?_ | refine State.modCore_keeps (by decide) ?_
        | refine State.count_keeps (by decide) ?_ | refine State.nextEntry_keeps (by decide) ?_ | dsimp only
    | split

theorem State.serveInjected_keeps {M : Nat} {r : State} {a0 a1 a2} (hm : 0x400010 ||| M = M) (h : Keeps M r a0) :
    Keeps M r (State.serveInjected a0 a1 a2) := by
  refine h.next hm ?_
  clear h
  have h := Keeps.refl (M := 0x400010) a0
  unfold State.serveInjected
  repeat' first
    | with_reducible first
        | assumption | refine State.modCore_keeps (by decide) ?_ | refine State.wr_keeps (by decide) ?_ | dsimp only
    | split

theorem State.showCore_keeps {M : Nat} {r : State} {a0 a1} (hm : 0x10 ||| M = M) (h : Keeps M r a0) :
    Keeps M r (State.showCore a0 a1) := by
  refine h.next hm ?_
  clear h
  have h := Keeps.refl (M := 0x10) a0
  unfold State.showCore
  repeat' first
    | with_reducible first
        | assumption | refine State.setBit_keeps (by decide) ?_ | refine State.wr_keeps (by decide) ?_ | dsimp only
    | split

theorem State.boundary_keeps {M : Nat} {r : State} {a0 a1} (hm : 0x400010 ||| M = M) (h : Keeps M r a0) :
    Keeps M r (State.boundary a0 a1) := by
  refine h.next hm ?_
  clear h
  have h := Keeps.refl (M := 0x400010) a0
  unfold State.boundary
  repeat' first
    | with_reducible first
        | assumption | refine State.showCore_keeps (by decide) ?_ | refine State.modCore_keeps (by decide) ?_
        | refine State.serveInjected_keeps (by decide) ?_ | refine State.roundEnd_keeps (by decide) ?_ | dsimp only

theorem State.rounds_keeps {M : Nat} {r : State} {a0 a1 a2 a3} (hm : 0x400010 ||| M = M) (h : Keeps M r a0) :
    Keeps M r (State.rounds a0 a1 a2 a3) := by
  refine h.next hm ?_
  clear h hm
  induction a3 generalizing a0 a1 a2 with
  | zero =>
    have h := Keeps.refl (M := 0x400010) a0
    unfold State.rounds
    repeat' first
      | with_reducible first
          | assumption | refine Keeps.ite ?_ ?_ | refine State.boundary_keeps (by decide) ?_ | dsimp only
          | refine Keeps.trans ?_ (ih ..)
      | split
  | succ _ ih =>
    have h := Keeps.refl (M := 0x400010) a0
    unfold State.rounds
    repeat' first
      | with_reducible first
          | assumption | refine Keeps.ite ?_ ?_ | refine State.boundary_keeps (by decide) ?_ | dsimp only
          | refine Keeps.trans ?_ (ih ..)
      | split

theorem State.coreAdvance_keeps {M : Nat} {r : State} {a0 a1 a2} (hm : 0x400010 ||| M = M) (h : Keeps M r a0) :
    Keeps M r (State.coreAdvance a0 a1 a2) := by
  refine h.next hm ?_
  clear h
  have h := Keeps.refl (M := 0x400010) a0
  unfold State.coreAdvance
  repeat' first
    | with_reducible first
        | assumption | refine Keeps.ite ?_ ?_ | refine State.rounds_keeps (by decide) ?_
        | refine State.modCore_keeps (by decide) ?_ | dsimp only
    | split

theorem State.adcAdvance_keeps {M : Nat} {r : State} {a0 a1} (hm : 0x400010 ||| M = M) (h : Keeps M r a0) :
    Keeps M r (State.adcAdvance a0 a1) := by
  refine h.next hm ?_
  clear h
  have h := Keeps.refl (M := 0x400010) a0
  unfold State.adcAdvance
  repeat' first
    | with_reducible first
        | assumption | refine State.coreAdvance_keeps (by decide) ?_ | refine Keeps.forEach ?_ (fun _ _ _ => ?_) | dsimp only

theorem State.coreHeld_keeps {M : Nat} {r s t : State} {c} (hm : 0x512 ||| M = M) (ht : State.coreHeld s c = some t)
    (h : Keeps M r s) : Keeps M r t := by
  refine h.next hm ?_
  clear h hm
  revert t
  show KeepsP 0x512 s _
  unfold State.coreHeld
  cases s.heldBy 3 c with
  | none => exact KeepsP.none
  | some h => exact KeepsP.some (State.raise_keeps (by decide) (State.wr_keeps (by decide) (.refl s)))

theorem State.calLost_keeps {M : Nat} {r : State} {a0 a1} (hm : 0x512 ||| M = M) (h : Keeps M r a0) :
    Keeps M r (State.calLost a0 a1) := by
  refine h.next hm ?_
  clear h
  have h := Keeps.refl (M := 0x512) a0
  unfold State.calLost
  repeat' first
    | with_reducible first
        | assumption | refine Keeps.ite ?_ ?_ | refine State.raise_keeps (by decide) ?_
        | refine State.setBit_keeps (by decide) ?_ | refine State.wr_keeps (by decide) ?_ | dsimp only
    | split

theorem State.coreMode_keeps {M : Nat} {r : State} {a0 a1} (hm : 0x400512 ||| M = M) (h : Keeps M r a0) :
    Keeps M r (State.coreMode a0 a1) := by
  refine h.next hm ?_
  clear h
  have h := Keeps.refl (M := 0x400512) a0
  unfold State.coreMode
  repeat' first
    | with_reducible first
        | assumption | refine Keeps.ite ?_ ?_ | refine State.modCore_keeps (by decide) ?_
        | refine State.add_keeps (by decide) ?_ | refine State.setBit_keeps (by decide) ?_
        | refine State.calLost_keeps (by decide) ?_ | refine State.startRun_keeps (by decide) ?_
        | refine State.showCore_keeps (by decide) ?_ | dsimp only
    | split

theorem State.coreSeam_keeps {M : Nat} {r : State} {a0 a1} (hm : 0x400512 ||| M = M) (h : Keeps M r a0) :
    Keeps M r (State.coreSeam a0 a1) := by
  refine h.next hm ?_
  clear h
  have h := Keeps.refl (M := 0x400512) a0
  unfold State.coreSeam
  repeat' first
    | with_reducible first
        | assumption | refine Keeps.ite ?_ ?_ | refine State.raise_keeps (by decide) ?_
        | refine State.modCore_keeps (by decide) ?_ | refine State.coreMode_keeps (by decide) ?_ | dsimp only
    | split

theorem State.modAin_keeps {M : Nat} {r : State} {a0 a1 a2} (hm : 0x400000 ||| M = M) (h : Keeps M r a0) :
    Keeps M r (State.modAin a0 a1 a2) := by
  refine h.next hm ?_
  clear h
  have h := Keeps.refl (M := 0x400000) a0
  unfold State.modAin
  repeat' first
    | with_reducible first
        | assumption
        | refine State.modAdc_keeps (by decide) ?_ (by first | exact (fun h => h) | exact (fun h => ⟨tabWf_tabSet (h.1), h.2⟩) | exact (fun h => ⟨tabWf_tabMod (h.1), h.2⟩) | exact (fun h => ⟨h.1, tabWf_tabSet (h.2.1), h.2.2⟩) | exact (fun h => ⟨h.1, tabWf_tabMod (h.2.1), h.2.2⟩) | exact (fun h => ⟨h.1, h.2.1, tabWf_tabSet (h.2.2)⟩) | exact (fun h => ⟨h.1, h.2.1, tabWf_tabMod (h.2.2)⟩) | exact (fun _ => ⟨rfl, rfl, rfl⟩))
        | dsimp only

theorem State.inputEpoch_keeps {M : Nat} {r : State} {a0 a1} (hm : 0x400080 ||| M = M) (h : Keeps M r a0) :
    Keeps M r (State.inputEpoch a0 a1) := by
  refine h.next hm ?_
  clear h
  have h := Keeps.refl (M := 0x400080) a0
  unfold State.inputEpoch
  repeat' first
    | with_reducible first
        | assumption | refine State.setPoint_keeps (by decide) ?_ | refine State.modAin_keeps (by decide) ?_ | dsimp only

theorem State.modSub_keeps {M : Nat} {r : State} {a0 a1 a2} (hm : 0x400000 ||| M = M) (h : Keeps M r a0) :
    Keeps M r (State.modSub a0 a1 a2) := by
  refine h.next hm ?_
  clear h
  have h := Keeps.refl (M := 0x400000) a0
  unfold State.modSub
  repeat' first
    | with_reducible first
        | assumption
        | refine State.modAdc_keeps (by decide) ?_ (by first | exact (fun h => h) | exact (fun h => ⟨tabWf_tabSet (h.1), h.2⟩) | exact (fun h => ⟨tabWf_tabMod (h.1), h.2⟩) | exact (fun h => ⟨h.1, tabWf_tabSet (h.2.1), h.2.2⟩) | exact (fun h => ⟨h.1, tabWf_tabMod (h.2.1), h.2.2⟩) | exact (fun h => ⟨h.1, h.2.1, tabWf_tabSet (h.2.2)⟩) | exact (fun h => ⟨h.1, h.2.1, tabWf_tabMod (h.2.2)⟩) | exact (fun _ => ⟨rfl, rfl, rfl⟩))
        | dsimp only

theorem State.showSub_keeps {M : Nat} {r : State} {a0 a1 a2} (hm : 0x80 ||| M = M) (h : Keeps M r a0) :
    Keeps M r (State.showSub a0 a1 a2) := by
  refine h.next hm ?_
  clear h
  have h := Keeps.refl (M := 0x80) a0
  unfold State.showSub
  repeat' first
    | with_reducible first
        | assumption | refine State.setPoint_keeps (by decide) ?_ | dsimp only

theorem State.adcSeam_keeps {M : Nat} {r : State} {a0} (hm : 0x400592 ||| M = M) (h : Keeps M r a0) :
    Keeps M r (State.adcSeam a0) := by
  refine h.next hm ?_
  clear h
  have h := Keeps.refl (M := 0x400592) a0
  unfold State.adcSeam
  repeat' first
    | with_reducible first
        | assumption | refine Keeps.ite ?_ ?_ | refine State.coreSeam_keeps (by decide) ?_
        | refine State.inputEpoch_keeps (by decide) ?_ | refine State.showSub_keeps (by decide) ?_
        | refine State.modSub_keeps (by decide) ?_ | refine Keeps.foldl ?_ (fun _ _ _ => ?_)
        | refine Keeps.forEach ?_ (fun _ _ _ => ?_) | dsimp only
    | split

theorem State.loadSeq_keeps {M : Nat} {r : State} {a0 a1 a2 a3 a4} (hm : 0x10 ||| M = M) (h : Keeps M r a0) :
    Keeps M r (State.loadSeq a0 a1 a2 a3 a4) := by
  refine h.next hm ?_
  clear h
  have h := Keeps.refl (M := 0x10) a0
  unfold State.loadSeq
  repeat' first
    | with_reducible first
        | assumption | refine Keeps.ite ?_ ?_ | refine State.wr_keeps (by decide) ?_ | dsimp only
    | split

theorem State.loadSeqs_keeps {M : Nat} {r : State} {a0 a1 a2 a3 a4} (hm : 0x10 ||| M = M) (h : Keeps M r a0) :
    Keeps M r (State.loadSeqs a0 a1 a2 a3 a4) := by
  refine h.next hm ?_
  clear h hm
  induction a4 generalizing a0 a1 a2 a3 with
  | nil =>
    have h := Keeps.refl (M := 0x10) a0
    unfold State.loadSeqs
    repeat' first
      | with_reducible assumption
      | split
  | cons _ _ ih =>
    have h := Keeps.refl (M := 0x10) a0
    unfold State.loadSeqs
    repeat' first
      | with_reducible first
          | assumption | refine State.loadSeq_keeps (by decide) ?_ | dsimp only | refine Keeps.trans ?_ (ih ..)
      | split
      | (cases ‹_ :: _ = _ :: _›; with_reducible refine Keeps.trans ?_ (ih ..))

theorem State.adcStart_keeps {M : Nat} {r : State} {a0} (hm : 0x80400592 ||| M = M) (h : Keeps M r a0) :
    Keeps M r (State.adcStart a0) := by
  refine h.next hm ?_
  clear h
  have h := Keeps.refl (M := 0x80400592) a0
  unfold State.adcStart
  repeat' first
    | with_reducible first
        | assumption | refine State.wr_keeps (by decide) ?_
        | refine State.modAdc_keeps (by decide) ?_ (by first | exact (fun h => h) | exact (fun h => ⟨tabWf_tabSet (h.1), h.2⟩) | exact (fun h => ⟨tabWf_tabMod (h.1), h.2⟩) | exact (fun h => ⟨h.1, tabWf_tabSet (h.2.1), h.2.2⟩) | exact (fun h => ⟨h.1, tabWf_tabMod (h.2.1), h.2.2⟩) | exact (fun h => ⟨h.1, h.2.1, tabWf_tabSet (h.2.2)⟩) | exact (fun h => ⟨h.1, h.2.1, tabWf_tabMod (h.2.2)⟩) | exact (fun _ => ⟨rfl, rfl, rfl⟩))
        | refine State.setBoth_keeps (by decide) ?_ | refine State.loadSeqs_keeps (by decide) ?_
        | refine State.coreMode_keeps (by decide) ?_ | refine State.modSub_keeps (by decide) ?_
        | refine Keeps.foldl ?_ (fun _ _ _ => ?_) | refine Keeps.foldl_fst ?_ (fun _ _ _ => ?_)
        | refine Keeps.foldl_snd ?_ (fun _ _ _ => ?_) | dsimp only

theorem State.calSample_keeps {M : Nat} {r : State} {a0 a1 a2 a3} (hm : 0x400512 ||| M = M) (h : Keeps M r a0) :
    Keeps M r (State.calSample a0 a1 a2 a3) := by
  refine h.next hm ?_
  clear h
  have h := Keeps.refl (M := 0x400512) a0
  unfold State.calSample
  repeat' first
    | with_reducible first
        | assumption | refine Keeps.ite ?_ ?_ | refine State.raise_keeps (by decide) ?_ | refine State.wr_keeps (by decide) ?_
        | refine State.modAdc_keeps (by decide) ?_ (by first | exact (fun h => h) | exact (fun h => ⟨tabWf_tabSet (h.1), h.2⟩) | exact (fun h => ⟨tabWf_tabMod (h.1), h.2⟩) | exact (fun h => ⟨h.1, tabWf_tabSet (h.2.1), h.2.2⟩) | exact (fun h => ⟨h.1, tabWf_tabMod (h.2.1), h.2.2⟩) | exact (fun h => ⟨h.1, h.2.1, tabWf_tabSet (h.2.2)⟩) | exact (fun h => ⟨h.1, h.2.1, tabWf_tabMod (h.2.2)⟩) | exact (fun _ => ⟨rfl, rfl, rfl⟩))
        | dsimp only
    | split

theorem State.clipped_keeps {M : Nat} {r : State} {a0 a1} (hm : 0x400512 ||| M = M) (h : Keeps M r a0) :
    Keeps M r (State.clipped a0 a1) := by
  refine h.next hm ?_
  clear h
  have h := Keeps.refl (M := 0x400512) a0
  unfold State.clipped
  repeat' first
    | with_reducible first
        | assumption | refine Keeps.ite ?_ ?_ | refine State.modAin_keeps (by decide) ?_
        | refine State.setBit_keeps (by decide) ?_ | refine State.raise_keeps (by decide) ?_ | dsimp only
    | split

theorem State.showInput_keeps {M : Nat} {r : State} {a0 a1} (hm : 0x80 ||| M = M) (h : Keeps M r a0) :
    Keeps M r (State.showInput a0 a1) := by
  refine h.next hm ?_
  clear h
  have h := Keeps.refl (M := 0x80) a0
  unfold State.showInput
  repeat' first
    | with_reducible first
        | assumption | refine State.setPoint_keeps (by decide) ?_ | dsimp only

theorem State.compare_keeps {M : Nat} {r : State} {a0 a1 a2} (hm : 0x401080 ||| M = M) (h : Keeps M r a0) :
    Keeps M r (State.compare a0 a1 a2) := by
  refine h.next hm ?_
  clear h
  have h := Keeps.refl (M := 0x401080) a0
  unfold State.compare
  repeat' first
    | with_reducible first
        | assumption | refine State.modAin_keeps (by decide) ?_ | refine State.showInput_keeps (by decide) ?_
        | refine State.setCond_keeps (by decide) ?_ | dsimp only

theorem State.dsOutput_keeps {M : Nat} {r : State} {a0 a1 a2} (hm : 0x4 ||| M = M) (h : Keeps M r a0) :
    Keeps M r (State.dsOutput a0 a1 a2).2 := by
  refine h.next hm ?_
  clear h
  have h := Keeps.refl (M := 0x4) a0
  unfold State.dsOutput
  repeat' first
    | with_reducible first
        | assumption | refine State.draw_keeps (by decide) ?_ | dsimp only
    | split

theorem State.streamItem_keeps {M : Nat} {r : State} {a0 a1 a2 a3 a4} (hm : 0xd00592 ||| M = M) (h : Keeps M r a0) :
    Keeps M r (State.streamItem a0 a1 a2 a3 a4) := by
  refine h.next hm ?_
  clear h
  have h := Keeps.refl (M := 0xd00592) a0
  unfold State.streamItem
  repeat' first
    | with_reducible first
        | assumption | refine Keeps.ite ?_ ?_ | refine State.count_keeps (by decide) ?_
        | refine State.raise_keeps (by decide) ?_
        | refine State.modAdc_keeps (by decide) ?_ (by first | exact (fun h => h) | exact (fun h => ⟨tabWf_tabSet (h.1), h.2⟩) | exact (fun h => ⟨tabWf_tabMod (h.1), h.2⟩) | exact (fun h => ⟨h.1, tabWf_tabSet (h.2.1), h.2.2⟩) | exact (fun h => ⟨h.1, tabWf_tabMod (h.2.1), h.2.2⟩) | exact (fun h => ⟨h.1, h.2.1, tabWf_tabSet (h.2.2)⟩) | exact (fun h => ⟨h.1, h.2.1, tabWf_tabMod (h.2.2)⟩) | exact (fun _ => ⟨rfl, rfl, rfl⟩))
        | refine State.streamPush_keeps (by decide) ?_ | dsimp only
    | split

theorem State.recordSample_keeps {M : Nat} {r : State} {a0 a1 a2 a3 a4} (hm : 0x201d00592 ||| M = M) (h : Keeps M r a0) :
    Keeps M r (State.recordSample a0 a1 a2 a3 a4) := by
  refine h.next hm ?_
  clear h
  have h := Keeps.refl (M := 0x201d00592) a0
  unfold State.recordSample
  repeat' first
    | with_reducible first
        | assumption | refine Keeps.ite ?_ ?_ | refine State.askPoints_keeps (by decide) ?_
        | refine State.count_keeps (by decide) ?_ | refine State.clipped_keeps (by decide) ?_
        | refine State.setPoint_keeps (by decide) ?_ | refine State.setWork_keeps (by decide) ?_
        | refine State.modAin_keeps (by decide) ?_ | refine State.showInput_keeps (by decide) ?_
        | refine State.pchSample_keeps (by decide) ?_ | refine State.streamItem_keeps (by decide) ?_
        | refine State.calSample_keeps (by decide) ?_ | dsimp only
    | split

theorem State.dsRecord_keeps {M : Nat} {r : State} {a0 a1 a2 a3 a4 a5} (hm : 0x201d00592 ||| M = M) (h : Keeps M r a0) :
    Keeps M r (State.dsRecord a0 a1 a2 a3 a4 a5) := by
  refine h.next hm ?_
  clear h
  have h := Keeps.refl (M := 0x201d00592) a0
  unfold State.dsRecord
  repeat' first
    | with_reducible first
        | assumption | refine State.recordSample_keeps (by decide) ?_ | dsimp only

theorem State.svEnable_keeps {M : Nat} {r : State} {a0 a1 a2} (hm : 0x400010 ||| M = M) (h : Keeps M r a0) :
    Keeps M r (State.svEnable a0 a1 a2) := by
  refine h.next hm ?_
  clear h
  have h := Keeps.refl (M := 0x400010) a0
  unfold State.svEnable
  repeat' first
    | with_reducible first
        | assumption | refine Keeps.ite ?_ ?_ | refine State.wr_keeps (by decide) ?_
        | refine State.modSub_keeps (by decide) ?_ | dsimp only
    | split

theorem State.injRequest_keeps {M : Nat} {r : State} {a0 a1 a2 a3} (hm : 0x400010 ||| M = M) (h : Keeps M r a0) :
    Keeps M r (State.injRequest a0 a1 a2 a3) := by
  refine h.next hm ?_
  clear h
  have h := Keeps.refl (M := 0x400010) a0
  unfold State.injRequest
  repeat' first
    | with_reducible first
        | assumption | refine Keeps.ite ?_ ?_ | refine State.coreAdvance_keeps (by decide) ?_
        | refine State.modCore_keeps (by decide) ?_ | refine State.showCore_keeps (by decide) ?_
        | refine State.count_keeps (by decide) ?_ | dsimp only
    | split

theorem State.interleaved_keeps {M : Nat} {r : State} {a0 a1 a2 a3} (hm : 0x201d00592 ||| M = M) (h : Keeps M r a0) :
    Keeps M r (State.interleaved a0 a1 a2 a3) := by
  refine h.next hm ?_
  clear h
  have h := Keeps.refl (M := 0x201d00592) a0
  unfold State.interleaved
  repeat' first
    | with_reducible first
        | assumption | refine State.recordSample_keeps (by decide) ?_ | refine Keeps.foldl ?_ (fun _ _ _ => ?_) | dsimp only

theorem State.refuseCal_keeps {M : Nat} {r : State} {a0 a1 a2} (hm : 0x512 ||| M = M) (h : Keeps M r a0) :
    Keeps M r (State.refuseCal a0 a1 a2) := by
  refine h.next hm ?_
  clear h
  have h := Keeps.refl (M := 0x512) a0
  unfold State.refuseCal
  repeat' first
    | with_reducible first
        | assumption | refine State.raise_keeps (by decide) ?_ | refine State.wr_keeps (by decide) ?_ | dsimp only

theorem State.regTrigger_keeps {M : Nat} {r : State} {a0 a1 a2} (hm : 0x400512 ||| M = M) (h : Keeps M r a0) :
    Keeps M r (State.regTrigger a0 a1 a2) := by
  refine h.next hm ?_
  clear h
  have h := Keeps.refl (M := 0x400512) a0
  unfold State.regTrigger
  repeat' first
    | with_reducible first
        | assumption | refine Keeps.ite ?_ ?_ | refine State.coreAdvance_keeps (by decide) ?_
        | refine State.count_keeps (by decide) ?_ | refine State.raise_keeps (by decide) ?_
        | refine State.modCore_keeps (by decide) ?_ | refine State.showCore_keeps (by decide) ?_
        | refine State.startRun_keeps (by decide) ?_ | dsimp only
    | split

theorem State.svChannels_keeps {M : Nat} {r : State} {a0 a1 a2 a3 a4 a5 a6 a7} (hm : 0xd00592 ||| M = M) (h : Keeps M r a0) :
    Keeps M r (State.svChannels a0 a1 a2 a3 a4 a5 a6 a7) := by
  refine h.next hm ?_
  clear h hm
  induction a6 generalizing a0 a1 a2 a3 a4 a5 a7 with
  | nil =>
    have h := Keeps.refl (M := 0xd00592) a0
    unfold State.svChannels
    repeat' first
      | with_reducible assumption
      | split
  | cons _ _ ih =>
    have h := Keeps.refl (M := 0xd00592) a0
    unfold State.svChannels
    repeat' first
      | with_reducible first
          | assumption | refine State.setPoint_keeps (by decide) ?_ | refine State.streamItem_keeps (by decide) ?_
          | dsimp only | refine Keeps.trans ?_ (ih ..)
      | split
      | (cases ‹_ :: _ = _ :: _›; with_reducible refine Keeps.trans ?_ (ih ..))

theorem State.svAsdu_keeps {M : Nat} {r : State} {a0 a1 a2 a3 a4} (hm : 0x200d00592 ||| M = M) (h : Keeps M r a0) :
    Keeps M r (State.svAsdu a0 a1 a2 a3 a4) := by
  refine h.next hm ?_
  clear h
  have h := Keeps.refl (M := 0x200d00592) a0
  unfold State.svAsdu
  repeat' first
    | with_reducible first
        | assumption | refine Keeps.ite ?_ ?_ | refine State.modSub_keeps (by decide) ?_
        | refine State.raise_keeps (by decide) ?_ | refine State.wr_keeps (by decide) ?_
        | refine State.add_keeps (by decide) ?_ | refine State.setPoint_keeps (by decide) ?_
        | refine State.showSub_keeps (by decide) ?_ | refine State.ask_keeps (by decide) ?_
        | refine State.svChannels_keeps (by decide) ?_ | dsimp only
    | split

theorem State.svIngest_keeps {M : Nat} {r : State} {a0 a1 a2 a3} (hm : 0x200d00592 ||| M = M) (h : Keeps M r a0) :
    Keeps M r (State.svIngest a0 a1 a2 a3) := by
  refine h.next hm ?_
  clear h
  have h := Keeps.refl (M := 0x200d00592) a0
  unfold State.svIngest
  repeat' first
    | with_reducible first
        | assumption
        | refine State.modFab_keeps (by decide) ?_ (by first | exact (fun h => h) | exact Fab.initOps_ok | exact (fun h => ⟨tabWf_tabSet (h.1), h.2⟩) | exact (fun h => ⟨tabWf_tabMod (h.1), h.2⟩) | exact (fun h => ⟨h.1, tabWf_tabSet (h.2.1), h.2.2⟩) | exact (fun h => ⟨h.1, tabWf_tabMod (h.2.1), h.2.2⟩) | exact (fun h => ⟨h.1, h.2.1, tabWf_tabSet (h.2.2.1), h.2.2.2⟩) | exact (fun h => ⟨h.1, h.2.1, tabWf_tabMod (h.2.2.1), h.2.2.2⟩) | exact (fun h => ⟨h.1, h.2.1, h.2.2.1, tabWf_tabSet (h.2.2.2.1), h.2.2.2.2⟩) | exact (fun h => ⟨h.1, h.2.1, h.2.2.1, tabWf_tabMod (h.2.2.2.1), h.2.2.2.2⟩) | exact (fun h => ⟨h.1, h.2.1, h.2.2.1, h.2.2.2.1, tabWf_tabSet (h.2.2.2.2)⟩) | exact (fun h => ⟨h.1, h.2.1, h.2.2.1, h.2.2.2.1, tabWf_tabMod (h.2.2.2.2)⟩) | exact (fun h => ⟨h.1, h.2.1, h.2.2.1, h.2.2.2.1, tabWf_tabMap⟩) | exact (fun h => ⟨h.1, tabWf_tabDrop h.2.1, h.2.2⟩) | exact (fun h => ⟨h.1, h.2.1, rfl, rfl, rfl⟩) | exact (fun _ => ⟨rfl, rfl, rfl, rfl, rfl⟩))
        | refine State.modAdc_keeps (by decide) ?_ (by first | exact (fun h => h) | exact (fun h => ⟨tabWf_tabSet (h.1), h.2⟩) | exact (fun h => ⟨tabWf_tabMod (h.1), h.2⟩) | exact (fun h => ⟨h.1, tabWf_tabSet (h.2.1), h.2.2⟩) | exact (fun h => ⟨h.1, tabWf_tabMod (h.2.1), h.2.2⟩) | exact (fun h => ⟨h.1, h.2.1, tabWf_tabSet (h.2.2)⟩) | exact (fun h => ⟨h.1, h.2.1, tabWf_tabMod (h.2.2)⟩) | exact (fun _ => ⟨rfl, rfl, rfl⟩))
        | refine State.svAsdu_keeps (by decide) ?_ | refine Keeps.foldl ?_ (fun _ _ _ => ?_) | dsimp only

theorem State.svServed_keeps {M : Nat} {r : State} {a0} (hm : 0x200400010 ||| M = M) (h : Keeps M r a0) :
    Keeps M r (State.svServed a0) := by
  refine h.next hm ?_
  clear h
  have h := Keeps.refl (M := 0x200400010) a0
  unfold State.svServed
  repeat' first
    | with_reducible first
        | assumption | refine State.arbitrate_keeps (by decide) ?_
        | refine State.modAdc_keeps (by decide) ?_ (by first | exact (fun h => h) | exact (fun h => ⟨tabWf_tabSet (h.1), h.2⟩) | exact (fun h => ⟨tabWf_tabMod (h.1), h.2⟩) | exact (fun h => ⟨h.1, tabWf_tabSet (h.2.1), h.2.2⟩) | exact (fun h => ⟨h.1, tabWf_tabMod (h.2.1), h.2.2⟩) | exact (fun h => ⟨h.1, h.2.1, tabWf_tabSet (h.2.2)⟩) | exact (fun h => ⟨h.1, h.2.1, tabWf_tabMod (h.2.2)⟩) | exact (fun _ => ⟨rfl, rfl, rfl⟩))
        | dsimp only

theorem execAdcSample_keeps {a0 a1 a2} : KeepsO 0x201d00592 a2 (execAdcSample a0 a1 a2) := by
  have h := Keeps.refl (M := 0x201d00592) a2
  unfold execAdcSample
  repeat' first
    | with_reducible first
        | assumption | refine KeepsO.next ?_ | exact KeepsO.refused | refine KeepsO.ite ?_ ?_ | refine Keeps.ite ?_ ?_
        | refine State.coreAdvance_keeps (by decide) ?_ | refine State.interleaved_keeps (by decide) ?_
        | refine State.modCore_keeps (by decide) ?_ | dsimp only
    | split

theorem execCalValid_keeps {a0 a1 a2 a3 a4} : KeepsO 0x512 a4 (execCalValid a0 a1 a2 a3 a4) := by
  have h := Keeps.refl (M := 0x512) a4
  unfold execCalValid
  repeat' first
    | with_reducible first
        | assumption | refine KeepsO.next ?_ | exact KeepsO.refused | refine KeepsO.ite ?_ ?_ | refine Keeps.ite ?_ ?_
        | refine State.wr_keeps (by decide) ?_ | refine State.setBit_keeps (by decide) ?_
        | refine State.raise_keeps (by decide) ?_ | dsimp only
    | split

theorem execConversionCompare_keeps {a0 a1 a2 a3} : KeepsO 0x401084 a3 (execConversionCompare a0 a1 a2 a3) := by
  have h := Keeps.refl (M := 0x401084) a3
  unfold execConversionCompare
  repeat' first
    | with_reducible first
        | assumption | refine KeepsO.next ?_ | exact KeepsO.refused | refine KeepsO.ite ?_ ?_ | refine Keeps.ite ?_ ?_
        | refine State.compare_keeps (by decide) ?_ | refine State.modCore_keeps (by decide) ?_
        | refine State.draw_keeps (by decide) ?_ | dsimp only
    | split

theorem execDsSample_keeps {a0 a1 a2} : KeepsO 0x201d00596 a2 (execDsSample a0 a1 a2) := by
  have h := Keeps.refl (M := 0x201d00596) a2
  unfold execDsSample
  repeat' first
    | with_reducible first
        | assumption | refine KeepsO.next ?_ | exact KeepsO.refused | refine KeepsO.ite ?_ ?_ | refine Keeps.ite ?_ ?_
        | refine State.dsOutput_keeps (by decide) ?_ | refine State.dsRecord_keeps (by decide) ?_
        | refine State.modCore_keeps (by decide) ?_ | refine State.showCore_keeps (by decide) ?_
        | refine State.nextEntry_keeps (by decide) ?_ | dsimp only
    | split

theorem execInjRequest_keeps {a0 a1 a2 a3} : KeepsO 0x400010 a3 (execInjRequest a0 a1 a2 a3) := by
  have h := Keeps.refl (M := 0x400010) a3
  unfold execInjRequest
  repeat' first
    | with_reducible first
        | assumption | refine KeepsO.next ?_ | exact KeepsO.refused | refine KeepsO.byHost ?_ | refine KeepsO.ite ?_ ?_
        | refine State.injRequest_keeps (by decide) ?_ | dsimp only
    | split

theorem execInjService_keeps {a0 a1} : KeepsO 0x400010 a1 (execInjService a0 a1) := by
  have h := Keeps.refl (M := 0x400010) a1
  unfold execInjService
  repeat' first
    | with_reducible first
        | assumption | refine KeepsO.next ?_ | exact KeepsO.refused | refine KeepsO.ite ?_ ?_ | refine Keeps.ite ?_ ?_
        | refine State.coreAdvance_keeps (by decide) ?_ | refine State.boundary_keeps (by decide) ?_ | dsimp only
    | split

theorem execRegTrigger_keeps {a0 a1 a2} : KeepsO 0x400512 a2 (execRegTrigger a0 a1 a2) := by
  have h := Keeps.refl (M := 0x400512) a2
  unfold execRegTrigger
  repeat' first
    | with_reducible first
        | assumption | refine KeepsO.next ?_ | exact KeepsO.refused | refine KeepsO.byHost ?_ | refine KeepsO.ite ?_ ?_
        | refine State.coreHeld_keeps (by decide) (by assumption) ?_ | refine State.regTrigger_keeps (by decide) ?_
        | dsimp only
    | split

theorem execSvFrame_keeps {a0 a1 a2} : KeepsO 0x200d00592 a2 (execSvFrame a0 a1 a2) := by
  have h := Keeps.refl (M := 0x200d00592) a2
  unfold execSvFrame
  repeat' first
    | with_reducible first
        | assumption | refine KeepsO.next ?_ | exact KeepsO.refused | refine KeepsO.ite ?_ ?_ | refine Keeps.ite ?_ ?_
        | refine State.svServed_keeps (by decide) ?_ | refine State.count_keeps (by decide) ?_
        | refine State.raise_keeps (by decide) ?_
        | refine State.modAdc_keeps (by decide) ?_ (by first | exact (fun h => h) | exact (fun h => ⟨tabWf_tabSet (h.1), h.2⟩) | exact (fun h => ⟨tabWf_tabMod (h.1), h.2⟩) | exact (fun h => ⟨h.1, tabWf_tabSet (h.2.1), h.2.2⟩) | exact (fun h => ⟨h.1, tabWf_tabMod (h.2.1), h.2.2⟩) | exact (fun h => ⟨h.1, h.2.1, tabWf_tabSet (h.2.2)⟩) | exact (fun h => ⟨h.1, h.2.1, tabWf_tabMod (h.2.2)⟩) | exact (fun _ => ⟨rfl, rfl, rfl⟩))
        | refine State.wr_keeps (by decide) ?_ | refine State.svIngest_keeps (by decide) ?_ | dsimp only
    | split

theorem execSvTimeout_keeps {a0 a1} : KeepsO 0xd005b2 a1 (execSvTimeout a0 a1) := by
  have h := Keeps.refl (M := 0xd005b2) a1
  unfold execSvTimeout
  repeat' first
    | with_reducible first
        | assumption | refine KeepsO.next ?_ | exact KeepsO.refused | refine KeepsO.ite ?_ ?_ | refine Keeps.ite ?_ ?_
        | refine State.reachCycle_keeps (by decide) ?_ | refine State.wr_keeps (by decide) ?_
        | refine State.modSub_keeps (by decide) ?_ | refine State.raise_keeps (by decide) ?_
        | refine State.showSub_keeps (by decide) ?_ | dsimp only
    | split

theorem execSyscalDone_keeps {a0} : KeepsO 0x400512 a0 (execSyscalDone a0) := by
  have h := Keeps.refl (M := 0x400512) a0
  unfold execSyscalDone
  repeat' first
    | with_reducible first
        | assumption | refine KeepsO.next ?_ | exact KeepsO.refused | refine KeepsO.ite ?_ ?_ | refine Keeps.ite ?_ ?_
        | refine State.wr_keeps (by decide) ?_
        | refine State.modAdc_keeps (by decide) ?_ (by first | exact (fun h => h) | exact (fun h => ⟨tabWf_tabSet (h.1), h.2⟩) | exact (fun h => ⟨tabWf_tabMod (h.1), h.2⟩) | exact (fun h => ⟨h.1, tabWf_tabSet (h.2.1), h.2.2⟩) | exact (fun h => ⟨h.1, tabWf_tabMod (h.2.1), h.2.2⟩) | exact (fun h => ⟨h.1, h.2.1, tabWf_tabSet (h.2.2)⟩) | exact (fun h => ⟨h.1, h.2.1, tabWf_tabMod (h.2.2)⟩) | exact (fun _ => ⟨rfl, rfl, rfl⟩))
        | refine State.refuseCal_keeps (by decide) ?_ | refine State.raise_keeps (by decide) ?_ | dsimp only
    | split

theorem execSyscalStep_keeps {a0} : KeepsO 0x400512 a0 (execSyscalStep a0) := by
  have h := Keeps.refl (M := 0x400512) a0
  unfold execSyscalStep
  repeat' first
    | with_reducible first
        | assumption | refine KeepsO.next ?_ | exact KeepsO.refused | refine KeepsO.byHost ?_ | refine KeepsO.ite ?_ ?_
        | refine Keeps.ite ?_ ?_ | refine State.refuseCal_keeps (by decide) ?_
        | refine State.modAdc_keeps (by decide) ?_ (by first | exact (fun h => h) | exact (fun h => ⟨tabWf_tabSet (h.1), h.2⟩) | exact (fun h => ⟨tabWf_tabMod (h.1), h.2⟩) | exact (fun h => ⟨h.1, tabWf_tabSet (h.2.1), h.2.2⟩) | exact (fun h => ⟨h.1, tabWf_tabMod (h.2.1), h.2.2⟩) | exact (fun h => ⟨h.1, h.2.1, tabWf_tabSet (h.2.2)⟩) | exact (fun h => ⟨h.1, h.2.1, tabWf_tabMod (h.2.2)⟩) | exact (fun _ => ⟨rfl, rfl, rfl⟩))
        | refine State.wr_keeps (by decide) ?_ | dsimp only
    | split

end Sys2Proof.Machine
end

