-- ==== Sys2Proof/Laws/KeepsTime.lean ====
section
/-! SUPPORT. What each operation of Machine/Time.lean keeps (Laws/Keeps.lean). -/

set_option Elab.async false

namespace Sys2Proof.Machine

theorem State.dmaError_keeps {M : Nat} {r : State} {a0 a1 a2} (hm : 0x512 ||| M = M) (h : Keeps M r a0) :
    Keeps M r (State.dmaError a0 a1 a2) := by
  refine h.next hm ?_
  clear h
  have h := Keeps.refl (M := 0x512) a0
  unfold State.dmaError
  repeat' first
    | with_reducible first
        | assumption | refine Keeps.ite ?_ ?_ | refine State.wr_keeps (by decide) ?_ | refine State.count_keeps (by decide) ?_
        | refine State.raise_keeps (by decide) ?_ | dsimp only
    | split

theorem State.setPort_keeps {M : Nat} {r : State} {a0 a1 a2} (hm : 0x800 ||| M = M) (h : Keeps M r a0) :
    Keeps M r (State.setPort a0 a1 a2) := by
  refine h.next hm ?_
  clear h
  have h := Keeps.refl (M := 0x800) a0
  unfold State.setPort
  repeat' first
    | with_reducible first
        | assumption | dsimp only
  all_goals with_reducible refine Keeps.upd ?_
  all_goals (repeat' first
    | with_reducible first
        | assumption | dsimp only)

theorem State.ethStore_keeps {M : Nat} {r : State} {a0 a1 a2 a3 a4 a5} (hm : 0xc12 ||| M = M) (h : Keeps M r a0) :
    Keeps M r (State.ethStore a0 a1 a2 a3 a4 a5) := by
  refine h.next hm ?_
  clear h
  have h := Keeps.refl (M := 0xc12) a0
  unfold State.ethStore
  repeat' first
    | with_reducible first
        | assumption | refine Keeps.ite ?_ ?_ | refine State.hostStore_keeps (by decide) ?_
        | refine State.count_keeps (by decide) ?_ | refine State.wr_keeps (by decide) ?_
        | refine State.signal_keeps (by decide) ?_ | refine State.setPort_keeps (by decide) ?_ | dsimp only
    | split

theorem State.setQuality_keeps {M : Nat} {r : State} {a0 a1} (hm : 0x1532 ||| M = M) (h : Keeps M r a0) :
    Keeps M r (State.setQuality a0 a1) := by
  refine h.next hm ?_
  clear h
  have h := Keeps.refl (M := 0x1532) a0
  unfold State.setQuality
  repeat' first
    | with_reducible first
        | assumption | refine Keeps.ite ?_ ?_ | refine State.raise_keeps (by decide) ?_
        | refine State.setCond_keeps (by decide) ?_ | refine State.wr_keeps (by decide) ?_ | dsimp only
    | split
  all_goals with_reducible refine Keeps.upd ?_
  all_goals (repeat' first
    | with_reducible first
        | assumption | refine Keeps.ite ?_ ?_ | refine State.raise_keeps (by decide) ?_
        | refine State.setCond_keeps (by decide) ?_ | refine State.wr_keeps (by decide) ?_ | dsimp only
    | split)

theorem State.ptpMeasure_keeps {M : Nat} {r : State} {a0 a1 a2 a3} (hm : 0x1d32 ||| M = M) (h : Keeps M r a0) :
    Keeps M r (State.ptpMeasure a0 a1 a2 a3) := by
  refine h.next hm ?_
  clear h
  have h := Keeps.refl (M := 0x1d32) a0
  unfold State.ptpMeasure
  repeat' first
    | with_reducible first
        | assumption | refine Keeps.ite ?_ ?_ | refine State.wr_keeps (by decide) ?_
        | refine State.setPort_keeps (by decide) ?_ | refine State.count_keeps (by decide) ?_
        | refine State.setBit_keeps (by decide) ?_ | refine State.raise_keeps (by decide) ?_
        | refine State.setQuality_keeps (by decide) ?_ | dsimp only
    | split

theorem State.ptpTry_keeps {M : Nat} {r : State} {a0 a1} (hm : 0x1d32 ||| M = M) (h : Keeps M r a0) :
    Keeps M r (State.ptpTry a0 a1) := by
  refine h.next hm ?_
  clear h
  have h := Keeps.refl (M := 0x1d32) a0
  unfold State.ptpTry
  repeat' first
    | with_reducible first
        | assumption | refine Keeps.ite ?_ ?_ | refine State.ptpMeasure_keeps (by decide) ?_
        | refine State.setPort_keeps (by decide) ?_ | dsimp only
    | split

theorem State.ptpReceive_keeps {M : Nat} {r : State} {a0 a1 a2 a3} (hm : 0x1d32 ||| M = M) (h : Keeps M r a0) :
    Keeps M r (State.ptpReceive a0 a1 a2 a3) := by
  refine h.next hm ?_
  clear h
  have h := Keeps.refl (M := 0x1d32) a0
  unfold State.ptpReceive
  repeat' first
    | with_reducible first
        | assumption | refine Keeps.ite ?_ ?_ | refine State.ptpTry_keeps (by decide) ?_
        | refine State.setPort_keeps (by decide) ?_ | dsimp only
    | split

theorem State.ethReceive_keeps {M : Nat} {r : State} {a0 a1 a2 a3 a4 a5} (hm : 0x1d32 ||| M = M) (h : Keeps M r a0) :
    Keeps M r (State.ethReceive a0 a1 a2 a3 a4 a5) := by
  refine h.next hm ?_
  clear h
  have h := Keeps.refl (M := 0x1d32) a0
  unfold State.ethReceive
  repeat' first
    | with_reducible first
        | assumption | refine Keeps.ite ?_ ?_ | refine State.count_keeps (by decide) ?_
        | refine State.ptpReceive_keeps (by decide) ?_ | refine State.raise_keeps (by decide) ?_
        | refine State.setPort_keeps (by decide) ?_ | refine State.ethStore_keeps (by decide) ?_ | dsimp only
    | split

theorem State.ethWriteBack_keeps {M : Nat} {r : State} {a0 a1 a2 a3 a4} (hm : 0x412 ||| M = M) (h : Keeps M r a0) :
    Keeps M r (State.ethWriteBack a0 a1 a2 a3 a4) := by
  refine h.next hm ?_
  clear h
  have h := Keeps.refl (M := 0x412) a0
  unfold State.ethWriteBack
  repeat' first
    | with_reducible first
        | assumption | refine Keeps.ite ?_ ?_ | refine State.hostStore_keeps (by decide) ?_
        | refine State.wr_keeps (by decide) ?_ | refine State.signal_keeps (by decide) ?_ | dsimp only
    | split

theorem State.ptpTransmit_keeps {M : Nat} {r : State} {a0 a1 a2 a3} (hm : 0x800 ||| M = M) (h : Keeps M r a0) :
    Keeps M r (State.ptpTransmit a0 a1 a2 a3) := by
  refine h.next hm ?_
  clear h
  have h := Keeps.refl (M := 0x800) a0
  unfold State.ptpTransmit
  repeat' first
    | with_reducible first
        | assumption | refine Keeps.ite ?_ ?_ | refine State.setPort_keeps (by decide) ?_ | dsimp only
    | split

theorem State.ethSend_keeps {M : Nat} {r : State} {a0 a1 a2 a3 a4 a5} (hm : 0xd12 ||| M = M) (h : Keeps M r a0) :
    Keeps M r (State.ethSend a0 a1 a2 a3 a4 a5) := by
  refine h.next hm ?_
  clear h
  have h := Keeps.refl (M := 0xd12) a0
  unfold State.ethSend
  repeat' first
    | with_reducible first
        | assumption | refine Keeps.ite ?_ ?_ | refine State.dmaError_keeps (by decide) ?_
        | refine State.raise_keeps (by decide) ?_ | refine State.ethWriteBack_keeps (by decide) ?_
        | refine State.count_keeps (by decide) ?_ | refine State.ptpTransmit_keeps (by decide) ?_ | dsimp only
    | split
  all_goals with_reducible refine Keeps.upd ?_
  all_goals (repeat' first
    | with_reducible first
        | assumption | refine Keeps.ite ?_ ?_ | refine State.dmaError_keeps (by decide) ?_
        | refine State.raise_keeps (by decide) ?_ | refine State.ethWriteBack_keeps (by decide) ?_
        | refine State.count_keeps (by decide) ?_ | refine State.ptpTransmit_keeps (by decide) ?_ | dsimp only
    | split)

theorem State.ethUnlock_keeps {M : Nat} {r : State} {a0 a1} (hm : 0x512 ||| M = M) (h : Keeps M r a0) :
    Keeps M r (State.ethUnlock a0 a1) := by
  refine h.next hm ?_
  clear h
  have h := Keeps.refl (M := 0x512) a0
  unfold State.ethUnlock
  repeat' first
    | with_reducible first
        | assumption | refine State.raise_keeps (by decide) ?_ | refine State.count_keeps (by decide) ?_
        | refine State.wr_keeps (by decide) ?_ | dsimp only

theorem State.pcsRestart_keeps {M : Nat} {r : State} {a0 a1} (hm : 0x512 ||| M = M) (h : Keeps M r a0) :
    Keeps M r (State.pcsRestart a0 a1) := by
  refine h.next hm ?_
  clear h
  have h := Keeps.refl (M := 0x512) a0
  unfold State.pcsRestart
  repeat' first
    | with_reducible first
        | assumption | refine Keeps.ite ?_ ?_ | refine State.ethUnlock_keeps (by decide) ?_ | dsimp only
    | split

theorem State.setPpsOut_keeps {M : Nat} {r : State} {a0 a1} (hm : 0x22 ||| M = M) (h : Keeps M r a0) :
    Keeps M r (State.setPpsOut a0 a1) := by
  refine h.next hm ?_
  clear h
  have h := Keeps.refl (M := 0x22) a0
  unfold State.setPpsOut
  repeat' first
    | with_reducible first
        | assumption | dsimp only
  all_goals with_reducible refine Keeps.upd ?_
  all_goals (repeat' first
    | with_reducible first
        | assumption | dsimp only)

theorem State.ppsStart_keeps {M : Nat} {r : State} {a0} (hm : 0x22 ||| M = M) (h : Keeps M r a0) :
    Keeps M r (State.ppsStart a0) := by
  refine h.next hm ?_
  clear h
  have h := Keeps.refl (M := 0x22) a0
  unfold State.ppsStart
  repeat' first
    | with_reducible first
        | assumption | refine State.setPpsOut_keeps (by decide) ?_ | dsimp only
  all_goals with_reducible refine Keeps.upd ?_
  all_goals (repeat' first
    | with_reducible first
        | assumption | refine State.setPpsOut_keeps (by decide) ?_ | dsimp only)

theorem State.ppsTake_keeps {M : Nat} {r : State} {a0 a1} (hm : 0x20 ||| M = M) (h : Keeps M r a0) :
    Keeps M r (State.ppsTake a0 a1) := by
  refine h.next hm ?_
  clear h
  have h := Keeps.refl (M := 0x20) a0
  unfold State.ppsTake
  repeat' first
    | with_reducible first
        | assumption | dsimp only
  all_goals with_reducible refine Keeps.upd ?_
  all_goals (repeat' first
    | with_reducible first
        | assumption | dsimp only)

theorem State.qualityCommand_keeps {M : Nat} {r : State} {a0 a1} (hm : 0x1532 ||| M = M) (h : Keeps M r a0) :
    Keeps M r (State.qualityCommand a0 a1) := by
  refine h.next hm ?_
  clear h
  have h := Keeps.refl (M := 0x1532) a0
  unfold State.qualityCommand
  repeat' first
    | with_reducible first
        | assumption | refine Keeps.ite ?_ ?_ | refine State.wr_keeps (by decide) ?_
        | refine State.setQuality_keeps (by decide) ?_ | dsimp only
    | split

theorem execAlarmArm_keeps {a0} : KeepsO 0x30 a0 (execAlarmArm a0) := by
  have h := Keeps.refl (M := 0x30) a0
  unfold execAlarmArm
  repeat' first
    | with_reducible first
        | assumption | refine KeepsO.next ?_ | exact KeepsO.refused | refine KeepsO.byHost ?_ | refine KeepsO.ite ?_ ?_
        | refine State.wr_keeps (by decide) ?_ | dsimp only
  all_goals with_reducible refine Keeps.upd ?_
  all_goals (repeat' first
    | with_reducible first
        | assumption | refine KeepsO.next ?_ | exact KeepsO.refused | refine KeepsO.byHost ?_ | refine KeepsO.ite ?_ ?_
        | refine State.wr_keeps (by decide) ?_ | dsimp only)

theorem execEthLinkChange_keeps {a0 a1 a2} : KeepsO 0x512 a2 (execEthLinkChange a0 a1 a2) := by
  have h := Keeps.refl (M := 0x512) a2
  unfold execEthLinkChange
  repeat' first
    | with_reducible first
        | assumption | refine KeepsO.next ?_ | exact KeepsO.refused | refine KeepsO.ite ?_ ?_
        | refine State.ethUnlock_keeps (by decide) ?_ | refine State.add_keeps (by decide) ?_
        | refine State.raise_keeps (by decide) ?_ | refine State.wr_keeps (by decide) ?_ | dsimp only
    | split

theorem execEthRxFrame_keeps {a0 a1 a2 a3 a4 a5} : KeepsO 0x1d32 a5 (execEthRxFrame a0 a1 a2 a3 a4 a5) := by
  have h := Keeps.refl (M := 0x1d32) a5
  unfold execEthRxFrame
  repeat' first
    | with_reducible first
        | assumption | refine KeepsO.next ?_ | exact KeepsO.refused | refine KeepsO.ite ?_ ?_
        | refine State.ethReceive_keeps (by decide) ?_ | dsimp only

theorem execEthTxFrame_keeps {a0 a1 a2 a3 a4 a5} : KeepsO 0xd12 a5 (execEthTxFrame a0 a1 a2 a3 a4 a5) := by
  have h := Keeps.refl (M := 0xd12) a5
  unfold execEthTxFrame
  repeat' first
    | with_reducible first
        | assumption | refine KeepsO.next ?_ | exact KeepsO.refused | refine KeepsO.ite ?_ ?_
        | refine State.ethSend_keeps (by decide) ?_ | dsimp only

theorem execHoldoverWatch_keeps {a0} : KeepsO 0x9015b2 a0 (execHoldoverWatch a0) := by
  have h := Keeps.refl (M := 0x9015b2) a0
  unfold execHoldoverWatch
  repeat' first
    | with_reducible first
        | assumption | refine KeepsO.next ?_ | exact KeepsO.refused | refine KeepsO.ite ?_ ?_ | refine Keeps.ite ?_ ?_
        | refine State.setQuality_keeps (by decide) ?_ | refine State.reachCycle_keeps (by decide) ?_ | dsimp only
    | split

theorem execMpdAccept_keeps {a0 a1} : KeepsO 0x512 a1 (execMpdAccept a0 a1) := by
  have h := Keeps.refl (M := 0x512) a1
  unfold execMpdAccept
  repeat' first
    | with_reducible first
        | assumption | refine KeepsO.next ?_ | exact KeepsO.refused | refine KeepsO.byHost ?_ | refine KeepsO.ite ?_ ?_
        | refine State.wr_keeps (by decide) ?_ | refine State.setBit_keeps (by decide) ?_
        | refine State.raise_keeps (by decide) ?_ | dsimp only

theorem execPpsInEdge_keeps {a0 a1 a2} : KeepsO 0x532 a2 (execPpsInEdge a0 a1 a2) := by
  have h := Keeps.refl (M := 0x532) a2
  unfold execPpsInEdge
  repeat' first
    | with_reducible first
        | assumption | refine KeepsO.next ?_ | exact KeepsO.refused | refine KeepsO.ite ?_ ?_ | refine Keeps.ite ?_ ?_
        | refine State.wrPair_keeps (by decide) ?_ | refine State.count_keeps (by decide) ?_
        | refine State.wr_keeps (by decide) ?_ | refine State.raise_keeps (by decide) ?_ | dsimp only
    | split
  all_goals with_reducible refine Keeps.upd ?_
  all_goals (repeat' first
    | with_reducible first
        | assumption | refine KeepsO.next ?_ | exact KeepsO.refused | refine KeepsO.ite ?_ ?_ | refine Keeps.ite ?_ ?_
        | refine State.wrPair_keeps (by decide) ?_ | refine State.count_keeps (by decide) ?_
        | refine State.wr_keeps (by decide) ?_ | refine State.raise_keeps (by decide) ?_ | dsimp only
    | split)

theorem execPpsInMissing_keeps {a0} : KeepsO 0x9005b2 a0 (execPpsInMissing a0) := by
  have h := Keeps.refl (M := 0x9005b2) a0
  unfold execPpsInMissing
  repeat' first
    | with_reducible first
        | assumption | refine KeepsO.next ?_ | exact KeepsO.refused | refine KeepsO.ite ?_ ?_ | refine Keeps.ite ?_ ?_
        | refine State.reachCycle_keeps (by decide) ?_ | refine State.count_keeps (by decide) ?_
        | refine State.raise_keeps (by decide) ?_ | dsimp only
    | split
  all_goals with_reducible refine Keeps.upd ?_
  all_goals (repeat' first
    | with_reducible first
        | assumption | refine KeepsO.next ?_ | exact KeepsO.refused | refine KeepsO.ite ?_ ?_ | refine Keeps.ite ?_ ?_
        | refine State.reachCycle_keeps (by decide) ?_ | refine State.count_keeps (by decide) ?_
        | refine State.raise_keeps (by decide) ?_ | dsimp only
    | split)

theorem execPpsOutEnd_keeps {a0} : KeepsO 0x9005b2 a0 (execPpsOutEnd a0) := by
  have h := Keeps.refl (M := 0x9005b2) a0
  unfold execPpsOutEnd
  repeat' first
    | with_reducible first
        | assumption | refine KeepsO.next ?_ | exact KeepsO.refused | refine KeepsO.ite ?_ ?_ | refine Keeps.ite ?_ ?_
        | refine State.setPpsOut_keeps (by decide) ?_ | refine State.reachCycle_keeps (by decide) ?_ | dsimp only
    | split

theorem execPpsOutPulse_keeps {a0} : KeepsO 0x9005b2 a0 (execPpsOutPulse a0) := by
  have h := Keeps.refl (M := 0x9005b2) a0
  unfold execPpsOutPulse
  repeat' first
    | with_reducible first
        | assumption | refine KeepsO.next ?_ | exact KeepsO.refused | refine KeepsO.ite ?_ ?_ | refine Keeps.ite ?_ ?_
        | refine State.ppsTake_keeps (by decide) ?_ | refine State.reachTime_keeps (by decide) ?_
        | refine State.count_keeps (by decide) ?_ | refine State.ppsStart_keeps (by decide) ?_ | dsimp only
    | split

theorem execQualClear_keeps {a0} : KeepsO 0x1532 a0 (execQualClear a0) := by
  have h := Keeps.refl (M := 0x1532) a0
  unfold execQualClear
  repeat' first
    | with_reducible first
        | assumption | refine KeepsO.next ?_ | exact KeepsO.refused | refine KeepsO.byHost ?_ | refine KeepsO.ite ?_ ?_
        | refine Keeps.ite ?_ ?_ | refine State.setQuality_keeps (by decide) ?_ | refine State.wr_keeps (by decide) ?_
        | dsimp only
    | split

theorem execQualFreeRun_keeps {a0} : KeepsO 0x1532 a0 (execQualFreeRun a0) := by
  have h := Keeps.refl (M := 0x1532) a0
  unfold execQualFreeRun
  repeat' first
    | with_reducible first
        | assumption | refine KeepsO.next ?_ | exact KeepsO.refused | refine KeepsO.byHost ?_ | refine KeepsO.ite ?_ ?_
        | refine State.qualityCommand_keeps (by decide) ?_ | dsimp only

theorem execQualHoldover_keeps {a0} : KeepsO 0x1532 a0 (execQualHoldover a0) := by
  have h := Keeps.refl (M := 0x1532) a0
  unfold execQualHoldover
  repeat' first
    | with_reducible first
        | assumption | refine KeepsO.next ?_ | exact KeepsO.refused | refine KeepsO.byHost ?_ | refine KeepsO.ite ?_ ?_
        | refine State.qualityCommand_keeps (by decide) ?_ | dsimp only

theorem execQualLocked_keeps {a0} : KeepsO 0x1532 a0 (execQualLocked a0) := by
  have h := Keeps.refl (M := 0x1532) a0
  unfold execQualLocked
  repeat' first
    | with_reducible first
        | assumption | refine KeepsO.next ?_ | exact KeepsO.refused | refine KeepsO.byHost ?_ | refine KeepsO.ite ?_ ?_
        | refine State.qualityCommand_keeps (by decide) ?_ | dsimp only

theorem execRateWrite_keeps {a0 a1} : KeepsO 0x800532 a1 (execRateWrite a0 a1) := by
  have h := Keeps.refl (M := 0x800532) a1
  unfold execRateWrite
  repeat' first
    | with_reducible first
        | assumption | refine KeepsO.next ?_ | exact KeepsO.refused | refine KeepsO.byHost ?_ | refine KeepsO.ite ?_ ?_
        | refine Keeps.ite ?_ ?_ | refine State.mirrorOf_keeps (by decide) ?_ | refine State.rejectWrite_keeps (by decide) ?_
        | refine State.wr_keeps (by decide) ?_ | refine State.count_keeps (by decide) ?_ | dsimp only
    | split
  all_goals with_reducible refine Keeps.upd ?_
  all_goals (repeat' first
    | with_reducible first
        | assumption | refine KeepsO.next ?_ | exact KeepsO.refused | refine KeepsO.byHost ?_ | refine KeepsO.ite ?_ ?_
        | refine Keeps.ite ?_ ?_ | refine State.mirrorOf_keeps (by decide) ?_ | refine State.rejectWrite_keeps (by decide) ?_
        | refine State.wr_keeps (by decide) ?_ | refine State.count_keeps (by decide) ?_ | dsimp only
    | split)

theorem execRefFallback_keeps {a0} : KeepsO 0x512 a0 (execRefFallback a0) := by
  have h := Keeps.refl (M := 0x512) a0
  unfold execRefFallback
  repeat' first
    | with_reducible first
        | assumption | refine KeepsO.next ?_ | exact KeepsO.refused | refine KeepsO.ite ?_ ?_ | refine Keeps.ite ?_ ?_
        | refine State.raise_keeps (by decide) ?_ | refine State.wr_keeps (by decide) ?_ | dsimp only
    | split

theorem execRefRestored_keeps {a0} : KeepsO 0x10 a0 (execRefRestored a0) := by
  have h := Keeps.refl (M := 0x10) a0
  unfold execRefRestored
  repeat' first
    | with_reducible first
        | assumption | refine KeepsO.next ?_ | exact KeepsO.refused | refine KeepsO.ite ?_ ?_
        | refine State.wr_keeps (by decide) ?_ | dsimp only

theorem execTimSnap_keeps {a0} : KeepsO 0x10 a0 (execTimSnap a0) := by
  have h := Keeps.refl (M := 0x10) a0
  unfold execTimSnap
  repeat' first
    | with_reducible first
        | assumption | refine KeepsO.next ?_ | exact KeepsO.refused | refine KeepsO.byHost ?_ | refine KeepsO.ite ?_ ?_
        | refine State.wrPair_keeps (by decide) ?_ | dsimp only

end Sys2Proof.Machine
end

