-- ==== Sys2Proof/Laws/KeepsHostLink.lean ====
section
/-! SUPPORT. What each operation of Machine/HostLink.lean keeps (Laws/Keeps.lean). -/

set_option Elab.async false

namespace Sys2Proof.Machine

theorem State.flushVectors_keeps {M : Nat} {r : State} {a0} (hm : 0x402 ||| M = M) (h : Keeps M r a0) :
    Keeps M r (State.flushVectors a0) := by
  refine h.next hm ?_
  clear h
  have h := Keeps.refl (M := 0x402) a0
  unfold State.flushVectors
  repeat' first
    | with_reducible first
        | assumption | refine Keeps.ite ?_ ?_ | refine State.sendVector_keeps (by decide) ?_
        | refine Keeps.forEach ?_ (fun _ _ _ => ?_) | dsimp only
    | split
  all_goals with_reducible refine Keeps.upd ?_
  all_goals (repeat' first
    | with_reducible first
        | assumption | refine Keeps.ite ?_ ?_ | refine State.sendVector_keeps (by decide) ?_
        | refine Keeps.forEach ?_ (fun _ _ _ => ?_) | dsimp only
    | split)

theorem State.rst_keeps {M : Nat} {r : State} {a0 a1 a2} (hm : 0x10 ||| M = M) (h : Keeps M r a0) :
    Keeps M r (State.rst a0 a1 a2) := by
  refine h.next hm ?_
  clear h
  have h := Keeps.refl (M := 0x10) a0
  unfold State.rst
  repeat' first
    | with_reducible first
        | assumption | refine State.wr_keeps (by decide) ?_ | dsimp only

theorem State.hostReset_keeps {M : Nat} {r : State} {a0} (hm : 0x410 ||| M = M) (h : Keeps M r a0) :
    Keeps M r (State.hostReset a0) := by
  refine h.next hm ?_
  clear h
  have h := Keeps.refl (M := 0x410) a0
  unfold State.hostReset
  repeat' first
    | with_reducible first
        | assumption | refine State.rst_keeps (by decide) ?_ | refine Keeps.foldl ?_ (fun _ _ _ => ?_) | dsimp only
  all_goals with_reducible refine Keeps.upd ?_
  all_goals (repeat' first
    | with_reducible first
        | assumption | refine State.rst_keeps (by decide) ?_ | refine Keeps.foldl ?_ (fun _ _ _ => ?_) | dsimp only)

theorem State.unmask_keeps {M : Nat} {r s : State} {v} (hm : 0x402 ||| M = M) (h : Keeps M r s) : Keeps M r (State.unmask s v) := by
  refine h.next hm ?_
  unfold State.unmask
  have h0 : Keeps 0x402 s { s with host := { s.host with
      msix := tabMod Msix.reset s.host.msix v (fun e => { e with masked := false }) } } := Keeps.upd (.refl s)
  refine Keeps.ite (State.sendVector_keeps (by decide) ?_) h0
  exact h0.trans (Keeps.upd (.refl _))

theorem execIrqTest_keeps {a0 a1} : KeepsO 0x402 a1 (execIrqTest a0 a1) := by
  have h := Keeps.refl (M := 0x402) a1
  unfold execIrqTest
  repeat' first
    | with_reducible first
        | assumption | refine KeepsO.next ?_ | exact KeepsO.refused | refine KeepsO.byHost ?_ | refine KeepsO.ite ?_ ?_
        | refine Keeps.ite ?_ ?_ | refine State.sendVector_keeps (by decide) ?_ | dsimp only
    | split

theorem execJtagInstruction_keeps {a0 a1} : KeepsO 0x2002 a1 (execJtagInstruction a0 a1) := by
  have h := Keeps.refl (M := 0x2002) a1
  unfold execJtagInstruction
  repeat' first
    | with_reducible first
        | assumption | refine KeepsO.next ?_ | exact KeepsO.refused | refine KeepsO.ite ?_ ?_ | refine Keeps.ite ?_ ?_
        | dsimp only
    | split
  all_goals with_reducible refine Keeps.upd ?_
  all_goals (repeat' first
    | with_reducible first
        | assumption | refine KeepsO.next ?_ | exact KeepsO.refused | refine KeepsO.ite ?_ ?_ | refine Keeps.ite ?_ ?_
        | dsimp only
    | split)

theorem execJtagPortReset_keeps {a0} : KeepsO 0x2000 a0 (execJtagPortReset a0) := by
  have h := Keeps.refl (M := 0x2000) a0
  unfold execJtagPortReset
  repeat' first
    | with_reducible first
        | assumption | refine KeepsO.next ?_ | exact KeepsO.refused | refine KeepsO.ite ?_ ?_ | dsimp only
  all_goals with_reducible refine Keeps.upd ?_
  all_goals (repeat' first
    | with_reducible first
        | assumption | refine KeepsO.next ?_ | exact KeepsO.refused | refine KeepsO.ite ?_ ?_ | dsimp only)

theorem execLinkDown_keeps {a0 a1} : KeepsO 0x512 a1 (execLinkDown a0 a1) := by
  have h := Keeps.refl (M := 0x512) a1
  unfold execLinkDown
  repeat' first
    | with_reducible first
        | assumption | refine KeepsO.next ?_ | exact KeepsO.refused | refine KeepsO.ite ?_ ?_ | refine Keeps.ite ?_ ?_
        | refine State.hostReset_keeps (by decide) ?_ | refine State.rst_keeps (by decide) ?_
        | refine State.count_keeps (by decide) ?_ | refine State.wr_keeps (by decide) ?_
        | refine State.raise_keeps (by decide) ?_ | dsimp only
    | split

theorem execLinkUp_keeps {a0 a1 a2} : KeepsO 0x512 a2 (execLinkUp a0 a1 a2) := by
  have h := Keeps.refl (M := 0x512) a2
  unfold execLinkUp
  repeat' first
    | with_reducible first
        | assumption | refine KeepsO.next ?_ | exact KeepsO.refused | refine KeepsO.ite ?_ ?_
        | refine State.raise_keeps (by decide) ?_ | refine State.wr_keeps (by decide) ?_ | dsimp only

theorem execMasterOff_keeps {a0 a1} : KeepsO 0x512 a1 (execMasterOff a0 a1) := by
  have h := Keeps.refl (M := 0x512) a1
  unfold execMasterOff
  repeat' first
    | with_reducible first
        | assumption | refine KeepsO.next ?_ | exact KeepsO.refused | refine KeepsO.ite ?_ ?_ | refine Keeps.ite ?_ ?_
        | refine State.raise_keeps (by decide) ?_ | refine State.wr_keeps (by decide) ?_
        | refine State.flushVectors_keeps (by decide) ?_ | dsimp only
    | split

theorem execMsixUnmask_keeps {a0 a1} : KeepsO 0x402 a1 (execMsixUnmask a0 a1) := by
  have h := Keeps.refl (M := 0x402) a1
  unfold execMsixUnmask
  repeat' first
    | with_reducible first
        | assumption | refine KeepsO.next ?_ | exact KeepsO.refused | refine KeepsO.byHost ?_ | refine KeepsO.ite ?_ ?_
        | refine State.unmask_keeps (by decide) ?_ | dsimp only

theorem execPowerState_keeps {a0 a1} : KeepsO 0x512 a1 (execPowerState a0 a1) := by
  have h := Keeps.refl (M := 0x512) a1
  unfold execPowerState
  repeat' first
    | with_reducible first
        | assumption | refine KeepsO.next ?_ | exact KeepsO.refused | refine KeepsO.ite ?_ ?_ | refine Keeps.ite ?_ ?_
        | refine State.raise_keeps (by decide) ?_ | refine State.wr_keeps (by decide) ?_
        | refine State.flushVectors_keeps (by decide) ?_ | dsimp only
    | split

theorem execVector0Timeout_keeps {a0} : KeepsO 0x9005b2 a0 (execVector0Timeout a0) := by
  have h := Keeps.refl (M := 0x9005b2) a0
  unfold execVector0Timeout
  repeat' first
    | with_reducible first
        | assumption | refine KeepsO.next ?_ | exact KeepsO.refused | refine KeepsO.ite ?_ ?_ | refine Keeps.ite ?_ ?_
        | refine State.ringVector_keeps (by decide) ?_ | refine State.reachCycle_keeps (by decide) ?_ | dsimp only
    | split

end Sys2Proof.Machine
end

