-- ==== Sys2Proof/Laws/KeepsReaction.lean ====
section
/-! SUPPORT. What each operation of Machine/Reaction.lean keeps (Laws/Keeps.lean). -/

set_option Elab.async false

namespace Sys2Proof.Machine

theorem State.tripClear_keeps {M : Nat} {r : State} {a0 a1} (hm : 0x12 ||| M = M) (h : Keeps M r a0) :
    Keeps M r (State.tripClear a0 a1) := by
  refine h.next hm ?_
  clear h
  have h := Keeps.refl (M := 0x12) a0
  unfold State.tripClear
  repeat' first
    | with_reducible first
        | assumption | refine Keeps.ite ?_ ?_ | refine State.setBit_keeps (by decide) ?_ | dsimp only
    | split
  all_goals with_reducible refine Keeps.upd ?_
  all_goals (repeat' first
    | with_reducible first
        | assumption | refine Keeps.ite ?_ ?_ | refine State.setBit_keeps (by decide) ?_ | dsimp only
    | split)

theorem State.tripSet_keeps {M : Nat} {r : State} {a0 a1 a2} (hm : 0x512 ||| M = M) (h : Keeps M r a0) :
    Keeps M r (State.tripSet a0 a1 a2) := by
  refine h.next hm ?_
  clear h
  have h := Keeps.refl (M := 0x512) a0
  unfold State.tripSet
  repeat' first
    | with_reducible first
        | assumption | refine Keeps.ite ?_ ?_ | refine State.setBit_keeps (by decide) ?_
        | refine State.raise_keeps (by decide) ?_ | dsimp only
    | split
  all_goals with_reducible refine Keeps.upd ?_
  all_goals (repeat' first
    | with_reducible first
        | assumption | refine Keeps.ite ?_ ?_ | refine State.setBit_keeps (by decide) ?_
        | refine State.raise_keeps (by decide) ?_ | dsimp only
    | split)

theorem State.prioSet_keeps {M : Nat} {r : State} {a0 a1 a2} (hm : 0x3c512 ||| M = M) (h : Keeps M r a0) :
    Keeps M r (State.prioSet a0 a1 a2) := by
  refine h.next hm ?_
  clear h
  have h := Keeps.refl (M := 0x3c512) a0
  unfold State.prioSet
  repeat' first
    | with_reducible first
        | assumption | refine Keeps.ite ?_ ?_ | refine State.raise_keeps (by decide) ?_
        | refine State.setBit_keeps (by decide) ?_ | refine State.insertPrio_keeps (by decide) ?_
        | refine State.armBlockNow_keeps (by decide) ?_ | refine Keeps.foldl ?_ (fun _ _ _ => ?_)
        | refine Keeps.foldl_fst ?_ (fun _ _ _ => ?_) | dsimp only
    | split

theorem State.act_keeps {M : Nat} {r : State} {a0 a1 a2} (hm : 0x197d796 ||| M = M) (h : Keeps M r a0) :
    Keeps M r (State.act a0 a1 a2) := by
  refine h.next hm ?_
  clear h
  have h := Keeps.refl (M := 0x197d796) a0
  unfold State.act
  repeat' first
    | with_reducible first
        | assumption | refine State.tripSet_keeps (by decide) ?_ | refine State.prioSet_keeps (by decide) ?_
        | refine State.blockChannel_keeps (by decide) ?_ | refine State.modArm_keeps (by decide) ?_
        | refine State.safReq_keeps (by decide) ?_ | refine State.drTrigger_keeps (by decide) ?_
        | refine State.releaseGraph_keeps (by decide) ?_ | refine Keeps.foldl ?_ (fun _ _ _ => ?_) | dsimp only
    | split

theorem State.actOnce_keeps {M : Nat} {r : State} {a0 a1 a2} (hm : 0x197d796 ||| M = M) (h : Keeps M r a0) :
    Keeps M r (State.actOnce a0 a1 a2) := by
  refine h.next hm ?_
  clear h
  have h := Keeps.refl (M := 0x197d796) a0
  unfold State.actOnce
  repeat' first
    | with_reducible first
        | assumption | refine Keeps.ite ?_ ?_ | refine State.act_keeps (by decide) ?_
        | refine State.modFab_keeps (by decide) ?_ (by first | exact (fun h => h) | exact Fab.initOps_ok | exact (fun h => ⟨tabWf_tabSet (h.1), h.2⟩) | exact (fun h => ⟨tabWf_tabMod (h.1), h.2⟩) | exact (fun h => ⟨h.1, tabWf_tabSet (h.2.1), h.2.2⟩) | exact (fun h => ⟨h.1, tabWf_tabMod (h.2.1), h.2.2⟩) | exact (fun h => ⟨h.1, h.2.1, tabWf_tabSet (h.2.2.1), h.2.2.2⟩) | exact (fun h => ⟨h.1, h.2.1, tabWf_tabMod (h.2.2.1), h.2.2.2⟩) | exact (fun h => ⟨h.1, h.2.1, h.2.2.1, tabWf_tabSet (h.2.2.2.1), h.2.2.2.2⟩) | exact (fun h => ⟨h.1, h.2.1, h.2.2.1, tabWf_tabMod (h.2.2.2.1), h.2.2.2.2⟩) | exact (fun h => ⟨h.1, h.2.1, h.2.2.1, h.2.2.2.1, tabWf_tabSet (h.2.2.2.2)⟩) | exact (fun h => ⟨h.1, h.2.1, h.2.2.1, h.2.2.2.1, tabWf_tabMod (h.2.2.2.2)⟩) | exact (fun h => ⟨h.1, h.2.1, h.2.2.1, h.2.2.2.1, tabWf_tabMap⟩) | exact (fun h => ⟨h.1, tabWf_tabDrop h.2.1, h.2.2⟩) | exact (fun h => ⟨h.1, h.2.1, rfl, rfl, rfl⟩) | exact (fun _ => ⟨rfl, rfl, rfl, rfl, rfl⟩))
        | dsimp only
    | split

theorem State.showReaction_keeps {M : Nat} {r : State} {a0 a1} (hm : 0x10 ||| M = M) (h : Keeps M r a0) :
    Keeps M r (State.showReaction a0 a1) := by
  refine h.next hm ?_
  clear h
  have h := Keeps.refl (M := 0x10) a0
  unfold State.showReaction
  repeat' first
    | with_reducible first
        | assumption | refine State.wr_keeps (by decide) ?_ | refine Keeps.foldl ?_ (fun _ _ _ => ?_)
        | refine Keeps.foldl_fst ?_ (fun _ _ _ => ?_) | refine Keeps.foldl_snd ?_ (fun _ _ _ => ?_) | dsimp only

theorem State.startLevels_keeps {M : Nat} {r : State} {a0} (hm : 0x1000 ||| M = M) (h : Keeps M r a0) :
    Keeps M r (State.startLevels a0) := by
  refine h.next hm ?_
  clear h
  have h := Keeps.refl (M := 0x1000) a0
  unfold State.startLevels
  repeat' first
    | with_reducible first
        | assumption | refine State.setCond_keeps (by decide) ?_ | refine Keeps.foldl ?_ (fun _ _ _ => ?_) | dsimp only

theorem State.reactStart_keeps {M : Nat} {r s : State} (hm : 0x1012 ||| M = M) (h : Keeps M r s) :
    Keeps M r (State.reactStart s) := by
  refine h.next hm ?_
  unfold State.reactStart
  have h0 : Keeps 0x1012 s { s with conds := [] } := Keeps.upd (.refl s)
  have h1 := State.wr_keeps (a1 := Reg.FAB_PRIO_STAT.blocked) (a2 := 0) (a3 := 0) (by decide)
    (State.wr_keeps (a1 := Reg.FAB_TRIP_OUT.latched) (a2 := 0) (a3 := 0) (by decide) h0)
  refine State.startLevels_keeps (by decide) (State.showReaction_keeps (by decide) ?_)
  exact Keeps.upd (State.wr_keeps (by decide) h1) (hwire := List.prefix_append _ _)

theorem State.reblock_keeps {M : Nat} {r : State} {a0 a1 a2} (hm : 0x61596 ||| M = M) (h : Keeps M r a0) :
    Keeps M r (State.reblock a0 a1 a2) := by
  refine h.next hm ?_
  clear h
  have h := Keeps.refl (M := 0x61596) a0
  unfold State.reblock
  repeat' first
    | with_reducible first
        | assumption | refine Keeps.ite ?_ ?_ | refine State.blockChannel_keeps (by decide) ?_
        | refine State.wr_keeps (by decide) ?_ | refine State.modDrv_keeps (by decide) ?_ | dsimp only
    | split

theorem State.keepBlocked_keeps {M : Nat} {r : State} {a0 a1} (hm : 0x61596 ||| M = M) (h : Keeps M r a0) :
    Keeps M r (State.keepBlocked a0 a1) := by
  refine h.next hm ?_
  clear h
  have h := Keeps.refl (M := 0x61596) a0
  unfold State.keepBlocked
  repeat' first
    | with_reducible first
        | assumption | refine State.reblock_keeps (by decide) ?_ | dsimp only
    | split

theorem State.reactSeam_keeps {M : Nat} {r : State} {a0} (hm : 0x197d796 ||| M = M) (h : Keeps M r a0) :
    Keeps M r (State.reactSeam a0) := by
  refine h.next hm ?_
  clear h
  have h := Keeps.refl (M := 0x197d796) a0
  unfold State.reactSeam
  repeat' first
    | with_reducible first
        | assumption | refine Keeps.ite ?_ ?_ | refine State.actOnce_keeps (by decide) ?_
        | refine State.keepBlocked_keeps (by decide) ?_ | refine Keeps.foldl ?_ (fun _ _ _ => ?_) | dsimp only
    | split

theorem State.fire_keeps {M : Nat} {r : State} {a0 a1 a2} (hm : 0x197d796 ||| M = M) (h : Keeps M r a0) :
    Keeps M r (State.fire a0 a1 a2) := by
  refine h.next hm ?_
  clear h
  have h := Keeps.refl (M := 0x197d796) a0
  unfold State.fire
  repeat' first
    | with_reducible first
        | assumption | refine State.count_keeps (by decide) ?_ | refine State.wr_keeps (by decide) ?_
        | refine State.actOnce_keeps (by decide) ?_ | refine State.condData_keeps (by decide) ?_
        | refine Keeps.foldl ?_ (fun _ _ _ => ?_) | dsimp only

theorem State.release_keeps {M : Nat} {r : State} {a0 a1} (hm : 0x103c592 ||| M = M) (h : Keeps M r a0) :
    Keeps M r (State.release a0 a1) := by
  refine h.next hm ?_
  clear h
  have h := Keeps.refl (M := 0x103c592) a0
  unfold State.release
  repeat' first
    | with_reducible first
        | assumption | refine Keeps.ite ?_ ?_ | refine State.tripClear_keeps (by decide) ?_
        | refine State.safReq_keeps (by decide) ?_ | dsimp only
    | split

theorem State.showPrio_keeps {M : Nat} {r : State} {a0} (hm : 0x10 ||| M = M) (h : Keeps M r a0) :
    Keeps M r (State.showPrio a0) := by
  refine h.next hm ?_
  clear h
  have h := Keeps.refl (M := 0x10) a0
  unfold State.showPrio
  repeat' first
    | with_reducible first
        | assumption | refine State.setBit_keeps (by decide) ?_ | refine Keeps.foldl ?_ (fun _ _ _ => ?_) | dsimp only

theorem State.rewire_keeps {M : Nat} {r : State} {a0 a1} (hm : 0x197d796 ||| M = M) (h : Keeps M r a0) :
    Keeps M r (State.rewire a0 a1) := by
  refine h.next hm ?_
  clear h
  have h := Keeps.refl (M := 0x197d796) a0
  unfold State.rewire
  repeat' first
    | with_reducible first
        | assumption | refine Keeps.ite ?_ ?_ | refine State.showReaction_keeps (by decide) ?_
        | refine State.act_keeps (by decide) ?_ | refine State.showPrio_keeps (by decide) ?_
        | refine State.release_keeps (by decide) ?_ | refine Keeps.foldl ?_ (fun _ _ _ => ?_) | dsimp only
    | split

theorem State.releaseAll_keeps {M : Nat} {r : State} {a0 a1} (hm : 0x103c592 ||| M = M) (h : Keeps M r a0) :
    Keeps M r (State.releaseAll a0 a1) := by
  refine h.next hm ?_
  clear h
  have h := Keeps.refl (M := 0x103c592) a0
  unfold State.releaseAll
  repeat' first
    | with_reducible first
        | assumption | refine State.release_keeps (by decide) ?_ | refine Keeps.foldl ?_ (fun _ _ _ => ?_) | dsimp only

theorem State.qualify_keeps {M : Nat} {r : State} {a0 a1} (hm : 0x197d796 ||| M = M) (h : Keeps M r a0) :
    Keeps M r (State.qualify a0 a1) := by
  refine h.next hm ?_
  clear h
  have h := Keeps.refl (M := 0x197d796) a0
  unfold State.qualify
  repeat' first
    | with_reducible first
        | assumption | refine Keeps.ite ?_ ?_ | refine State.modCond_keeps (by decide) ?_
        | refine State.releaseAll_keeps (by decide) ?_ | refine State.fire_keeps (by decide) ?_
        | refine State.showPrio_keeps (by decide) ?_ | refine State.wr_keeps (by decide) ?_
        | refine Keeps.foldl ?_ (fun _ _ _ => ?_) | dsimp only
    | split

theorem State.qualifyAll_keeps {M : Nat} {r : State} {a0 a1} (hm : 0x197d796 ||| M = M) (h : Keeps M r a0) :
    Keeps M r (State.qualifyAll a0 a1) := by
  refine h.next hm ?_
  clear h
  have h := Keeps.refl (M := 0x197d796) a0
  unfold State.qualifyAll
  repeat' first
    | with_reducible first
        | assumption | refine Keeps.ite ?_ ?_ | refine State.safReq_keeps (by decide) ?_
        | refine State.qualify_keeps (by decide) ?_ | refine Keeps.foldl ?_ (fun _ _ _ => ?_) | dsimp only
    | split

theorem execConditionQualified_keeps {a0 a1} : KeepsO 0x197d796 a1 (execConditionQualified a0 a1) := by
  have h := Keeps.refl (M := 0x197d796) a1
  unfold execConditionQualified
  repeat' first
    | with_reducible first
        | assumption | refine KeepsO.next ?_ | exact KeepsO.refused | refine KeepsO.ite ?_ ?_
        | refine State.mirrored_keeps (by decide) ?_ | refine State.qualifyAll_keeps (by decide) ?_ | dsimp only

theorem execConditionUnqualified_keeps {a0 a1} : KeepsO 0x103d592 a1 (execConditionUnqualified a0 a1) := by
  have h := Keeps.refl (M := 0x103d592) a1
  unfold execConditionUnqualified
  repeat' first
    | with_reducible first
        | assumption | refine KeepsO.next ?_ | exact KeepsO.refused | refine KeepsO.ite ?_ ?_ | refine Keeps.ite ?_ ?_
        | refine State.modCond_keeps (by decide) ?_ | refine State.showPrio_keeps (by decide) ?_
        | refine State.releaseAll_keeps (by decide) ?_ | refine State.wr_keeps (by decide) ?_ | dsimp only
    | split

theorem execDrvCommit_keeps {a0 a1 a2} : KeepsO 0x861596 a2 (execDrvCommit a0 a1 a2) := by
  have h := Keeps.refl (M := 0x861596) a2
  unfold execDrvCommit
  repeat' first
    | with_reducible first
        | assumption | refine KeepsO.next ?_ | exact KeepsO.refused | refine KeepsO.byHost ?_ | refine KeepsO.ite ?_ ?_
        | refine Keeps.ite ?_ ?_ | refine State.mirrorOf_keeps (by decide) ?_ | refine State.drvRefuse_keeps (by decide) ?_
        | refine State.wr_keeps (by decide) ?_ | refine State.keepBlocked_keeps (by decide) ?_
        | refine State.drvPend_keeps (by decide) ?_ | dsimp only
    | split

theorem execDrvModeWrite_keeps {a0 a1 a2} : KeepsO 0x861596 a2 (execDrvModeWrite a0 a1 a2) := by
  have h := Keeps.refl (M := 0x861596) a2
  unfold execDrvModeWrite
  repeat' first
    | with_reducible first
        | assumption | refine KeepsO.next ?_ | exact KeepsO.refused | refine KeepsO.byHost ?_ | refine KeepsO.ite ?_ ?_
        | refine Keeps.ite ?_ ?_ | refine State.mirrorOf_keeps (by decide) ?_ | refine State.drvRefuse_keeps (by decide) ?_
        | refine State.keepBlocked_keeps (by decide) ?_ | refine State.modDrv_keeps (by decide) ?_
        | refine State.wr_keeps (by decide) ?_ | dsimp only
    | split

theorem execHostCondition_keeps {a0 a1} : KeepsO 0x1000 a1 (execHostCondition a0 a1) := by
  have h := Keeps.refl (M := 0x1000) a1
  unfold execHostCondition
  repeat' first
    | with_reducible first
        | assumption | refine KeepsO.next ?_ | exact KeepsO.refused | refine KeepsO.byHost ?_ | refine KeepsO.ite ?_ ?_
        | refine State.pulseCond_keeps (by decide) ?_ | dsimp only

theorem execPrioBlockClear_keeps {a0 a1} : KeepsO 0x18512 a1 (execPrioBlockClear a0 a1) := by
  have h := Keeps.refl (M := 0x18512) a1
  unfold execPrioBlockClear
  repeat' first
    | with_reducible first
        | assumption | refine KeepsO.next ?_ | exact KeepsO.refused | refine KeepsO.byHost ?_ | refine KeepsO.ite ?_ ?_
        | refine Keeps.ite ?_ ?_ | refine State.raise_keeps (by decide) ?_ | refine State.setBit_keeps (by decide) ?_
        | refine State.prioChanged_keeps (by decide) ?_ | refine Keeps.foldl ?_ (fun _ _ _ => ?_)
        | refine Keeps.foldl_fst ?_ (fun _ _ _ => ?_) | refine Keeps.foldl_snd ?_ (fun _ _ _ => ?_) | dsimp only
    | split

theorem execTripOutClear_keeps {a0 a1} : KeepsO 0x512 a1 (execTripOutClear a0 a1) := by
  have h := Keeps.refl (M := 0x512) a1
  unfold execTripOutClear
  repeat' first
    | with_reducible first
        | assumption | refine KeepsO.next ?_ | exact KeepsO.refused | refine KeepsO.byHost ?_ | refine KeepsO.ite ?_ ?_
        | refine Keeps.ite ?_ ?_ | refine State.raise_keeps (by decide) ?_ | refine State.tripClear_keeps (by decide) ?_
        | refine State.setBit_keeps (by decide) ?_ | dsimp only
    | split

end Sys2Proof.Machine
end

