-- ==== Sys2Proof/Laws/KeepsRoles.lean ====
section
/-! SUPPORT. What each operation of Machine/Roles.lean keeps (Laws/Keeps.lean). -/

set_option Elab.async false

namespace Sys2Proof.Machine

theorem State.modRed_keeps {M : Nat} {r : State} {a0 a1} (hm : 0x800000 ||| M = M) (h : Keeps M r a0) :
    Keeps M r (State.modRed a0 a1) := by
  refine h.next hm ?_
  clear h
  have h := Keeps.refl (M := 0x800000) a0
  unfold State.modRed
  repeat' first
    | with_reducible first
        | assumption | dsimp only
  all_goals with_reducible refine Keeps.upd ?_
  all_goals (repeat' first
    | with_reducible first
        | assumption | dsimp only)

theorem State.clearEngines_keeps {M : Nat} {r : State} {a0 a1} (hm : 0x10 ||| M = M) (h : Keeps M r a0) :
    Keeps M r (State.clearEngines a0 a1) := by
  refine h.next hm ?_
  clear h
  have h := Keeps.refl (M := 0x10) a0
  unfold State.clearEngines
  repeat' first
    | with_reducible first
        | assumption | refine Keeps.ite ?_ ?_ | refine State.wr_keeps (by decide) ?_ | refine Keeps.foldl ?_ (fun _ _ _ => ?_)
        | dsimp only
    | split

theorem State.disableLock_keeps {M : Nat} {r : State} {a0 a1} (hm : 0x1516 ||| M = M) (h : Keeps M r a0) :
    Keeps M r (State.disableLock a0 a1) := by
  refine h.next hm ?_
  clear h
  have h := Keeps.refl (M := 0x1516) a0
  unfold State.disableLock
  repeat' first
    | with_reducible first
        | assumption | refine State.showLane_keeps (by decide) ?_ | refine State.loseLock_keeps (by decide) ?_ | dsimp only

theorem State.loseHalf_keeps {M : Nat} {r : State} {a0} (hm : 0x200900592 ||| M = M) (h : Keeps M r a0) :
    Keeps M r (State.loseHalf a0) := by
  refine h.next hm ?_
  clear h
  have h := Keeps.refl (M := 0x200900592) a0
  unfold State.loseHalf
  repeat' first
    | with_reducible first
        | assumption | refine Keeps.ite ?_ ?_ | refine State.endJob_keeps (by decide) ?_
        | refine State.cancelJob_keeps (by decide) ?_
        | refine State.modFab_keeps (by decide) ?_ (by first | exact (fun h => h) | exact Fab.initOps_ok | exact (fun h => ⟨tabWf_tabSet (h.1), h.2⟩) | exact (fun h => ⟨tabWf_tabMod (h.1), h.2⟩) | exact (fun h => ⟨h.1, tabWf_tabSet (h.2.1), h.2.2⟩) | exact (fun h => ⟨h.1, tabWf_tabMod (h.2.1), h.2.2⟩) | exact (fun h => ⟨h.1, h.2.1, tabWf_tabSet (h.2.2.1), h.2.2.2⟩) | exact (fun h => ⟨h.1, h.2.1, tabWf_tabMod (h.2.2.1), h.2.2.2⟩) | exact (fun h => ⟨h.1, h.2.1, h.2.2.1, tabWf_tabSet (h.2.2.2.1), h.2.2.2.2⟩) | exact (fun h => ⟨h.1, h.2.1, h.2.2.1, tabWf_tabMod (h.2.2.2.1), h.2.2.2.2⟩) | exact (fun h => ⟨h.1, h.2.1, h.2.2.1, h.2.2.2.1, tabWf_tabSet (h.2.2.2.2)⟩) | exact (fun h => ⟨h.1, h.2.1, h.2.2.1, h.2.2.2.1, tabWf_tabMod (h.2.2.2.2)⟩) | exact (fun h => ⟨h.1, h.2.1, h.2.2.1, h.2.2.2.1, tabWf_tabMap⟩) | exact (fun h => ⟨h.1, tabWf_tabDrop h.2.1, h.2.2⟩) | exact (fun h => ⟨h.1, h.2.1, rfl, rfl, rfl⟩) | exact (fun _ => ⟨rfl, rfl, rfl, rfl, rfl⟩))
        | refine Keeps.foldl ?_ (fun _ _ _ => ?_) | dsimp only
    | split

theorem State.loseOrders_keeps {M : Nat} {r : State} {a0} (hm : 0x200010 ||| M = M) (h : Keeps M r a0) :
    Keeps M r (State.loseOrders a0) := by
  refine h.next hm ?_
  clear h
  have h := Keeps.refl (M := 0x200010) a0
  unfold State.loseOrders
  repeat' first
    | with_reducible first
        | assumption | refine State.wr_keeps (by decide) ?_ | refine Keeps.forEach ?_ (fun _ _ _ => ?_) | dsimp only
  all_goals with_reducible refine Keeps.upd ?_
  all_goals (repeat' first
    | with_reducible first
        | assumption | refine State.wr_keeps (by decide) ?_ | refine Keeps.forEach ?_ (fun _ _ _ => ?_) | dsimp only)

theorem State.disarmDr_keeps {M : Nat} {r : State} {a0} (hm : 0x210 ||| M = M) (h : Keeps M r a0) :
    Keeps M r (State.disarmDr a0) := by
  refine h.next hm ?_
  clear h
  have h := Keeps.refl (M := 0x210) a0
  unfold State.disarmDr
  repeat' first
    | with_reducible first
        | assumption | refine Keeps.ite ?_ ?_ | refine State.wr_keeps (by decide) ?_ | dsimp only
    | split
  all_goals with_reducible refine Keeps.upd ?_
  all_goals (repeat' first
    | with_reducible first
        | assumption | refine Keeps.ite ?_ ?_ | refine State.wr_keeps (by decide) ?_ | dsimp only
    | split)

theorem State.modEpo_keeps {M : Nat} {r s : State} {f : Epo → Epo} (hm : 0x40 ||| M = M) (h : Keeps M r s)
    (hf : Safety.StagingOk s.epo → Safety.StagingOk (f s.epo))
    (hk : (f s.epo).k = s.epo.k ∧ (f s.epo).begun = s.epo.begun := by exact ⟨rfl, rfl⟩) : Keeps M r (State.modEpo s f) := by
  refine h.trans ?_
  unfold State.modEpo
  exact Keeps.upd (.refl s) (hStaging := hf) (hepo := (KeptAt.mono hm (.inl (by decide) : KeptAt 0x40 6 _))) (hepoch := .inr hk)

theorem State.losePoints_keeps {M : Nat} {r s : State} (hm : 0x1800002d0 ||| M = M) (h : Keeps M r s) :
    Keeps M r (State.losePoints s) := by
  refine h.next hm ?_
  unfold State.losePoints
  refine State.disarmDr_keeps (by decide) (State.modEpo_keeps (by decide) (Keeps.foldl ?_ (fun t a ht =>
    State.poisonExt_keeps (by decide) ht)) (fun _ => ⟨Nat.zero_le _, Nat.zero_le _⟩))
  exact Keeps.upd (.refl s) (hPoints := fun hs => ⟨rfl, rfl, rfl, hs.2.2.2⟩)

theorem State.loseStores_keeps {M : Nat} {r : State} {a0} (hm : 0x100000 ||| M = M) (h : Keeps M r a0) :
    Keeps M r (State.loseStores a0) := by
  refine h.next hm ?_
  clear h
  have h := Keeps.refl (M := 0x100000) a0
  unfold State.loseStores
  repeat' first
    | with_reducible first
        | assumption
        | refine State.modFab_keeps (by decide) ?_ (by first | exact (fun h => h) | exact Fab.initOps_ok | exact (fun h => ⟨tabWf_tabSet (h.1), h.2⟩) | exact (fun h => ⟨tabWf_tabMod (h.1), h.2⟩) | exact (fun h => ⟨h.1, tabWf_tabSet (h.2.1), h.2.2⟩) | exact (fun h => ⟨h.1, tabWf_tabMod (h.2.1), h.2.2⟩) | exact (fun h => ⟨h.1, h.2.1, tabWf_tabSet (h.2.2.1), h.2.2.2⟩) | exact (fun h => ⟨h.1, h.2.1, tabWf_tabMod (h.2.2.1), h.2.2.2⟩) | exact (fun h => ⟨h.1, h.2.1, h.2.2.1, tabWf_tabSet (h.2.2.2.1), h.2.2.2.2⟩) | exact (fun h => ⟨h.1, h.2.1, h.2.2.1, tabWf_tabMod (h.2.2.2.1), h.2.2.2.2⟩) | exact (fun h => ⟨h.1, h.2.1, h.2.2.1, h.2.2.2.1, tabWf_tabSet (h.2.2.2.2)⟩) | exact (fun h => ⟨h.1, h.2.1, h.2.2.1, h.2.2.2.1, tabWf_tabMod (h.2.2.2.2)⟩) | exact (fun h => ⟨h.1, h.2.1, h.2.2.1, h.2.2.2.1, tabWf_tabMap⟩) | exact (fun h => ⟨h.1, tabWf_tabDrop h.2.1, h.2.2⟩) | exact (fun h => ⟨h.1, h.2.1, rfl, rfl, rfl⟩) | exact (fun _ => ⟨rfl, rfl, rfl, rfl, rfl⟩))
        | dsimp only

theorem State.stopCores_keeps {M : Nat} {r : State} {a0} (hm : 0x400010 ||| M = M) (h : Keeps M r a0) :
    Keeps M r (State.stopCores a0) := by
  refine h.next hm ?_
  clear h
  have h := Keeps.refl (M := 0x400010) a0
  unfold State.stopCores
  repeat' first
    | with_reducible first
        | assumption | refine State.wr_keeps (by decide) ?_ | refine Keeps.forEach ?_ (fun _ _ _ => ?_) | dsimp only
  all_goals with_reducible refine Keeps.upd ?_
  all_goals (repeat' first
    | with_reducible first
        | assumption | refine State.wr_keeps (by decide) ?_ | refine Keeps.forEach ?_ (fun _ _ _ => ?_) | dsimp only)

theorem State.loseContents_keeps {M : Nat} {r : State} {a0 a1} (hm : 0x380f0d7d6 ||| M = M) (h : Keeps M r a0) :
    Keeps M r (State.loseContents a0 a1) := by
  refine h.next hm ?_
  clear h
  have h := Keeps.refl (M := 0x380f0d7d6) a0
  unfold State.loseContents
  repeat' first
    | with_reducible first
        | assumption | refine Keeps.ite ?_ ?_ | refine State.modArm_keeps (by decide) ?_
        | refine State.modCell_keeps (by decide) ?_ | refine State.wr_keeps (by decide) ?_
        | refine State.clearEngines_keeps (by decide) ?_
        | refine State.modFab_keeps (by decide) ?_ (by first | exact (fun h => h) | exact Fab.initOps_ok | exact (fun h => ⟨tabWf_tabSet (h.1), h.2⟩) | exact (fun h => ⟨tabWf_tabMod (h.1), h.2⟩) | exact (fun h => ⟨h.1, tabWf_tabSet (h.2.1), h.2.2⟩) | exact (fun h => ⟨h.1, tabWf_tabMod (h.2.1), h.2.2⟩) | exact (fun h => ⟨h.1, h.2.1, tabWf_tabSet (h.2.2.1), h.2.2.2⟩) | exact (fun h => ⟨h.1, h.2.1, tabWf_tabMod (h.2.2.1), h.2.2.2⟩) | exact (fun h => ⟨h.1, h.2.1, h.2.2.1, tabWf_tabSet (h.2.2.2.1), h.2.2.2.2⟩) | exact (fun h => ⟨h.1, h.2.1, h.2.2.1, tabWf_tabMod (h.2.2.2.1), h.2.2.2.2⟩) | exact (fun h => ⟨h.1, h.2.1, h.2.2.1, h.2.2.2.1, tabWf_tabSet (h.2.2.2.2)⟩) | exact (fun h => ⟨h.1, h.2.1, h.2.2.1, h.2.2.2.1, tabWf_tabMod (h.2.2.2.2)⟩) | exact (fun h => ⟨h.1, h.2.1, h.2.2.1, h.2.2.2.1, tabWf_tabMap⟩) | exact (fun h => ⟨h.1, tabWf_tabDrop h.2.1, h.2.2⟩) | exact (fun h => ⟨h.1, h.2.1, rfl, rfl, rfl⟩) | exact (fun _ => ⟨rfl, rfl, rfl, rfl, rfl⟩))
        | refine State.loseOrders_keeps (by decide) ?_ | refine State.loseStores_keeps (by decide) ?_
        | refine State.loseHalf_keeps (by decide) ?_ | refine State.stopCores_keeps (by decide) ?_
        | refine State.losePoints_keeps (by decide) ?_ | refine State.disableLock_keeps (by decide) ?_
        | refine State.refreshGraphs_keeps (by decide) ?_ | refine Keeps.foldl ?_ (fun _ _ _ => ?_) | dsimp only
    | split

theorem State.modPwr_keeps {M : Nat} {r : State} {a0 a1} (hm : 0x4000000 ||| M = M) (h : Keeps M r a0) :
    Keeps M r (State.modPwr a0 a1) := by
  refine h.next hm ?_
  clear h
  have h := Keeps.refl (M := 0x4000000) a0
  unfold State.modPwr
  repeat' first
    | with_reducible first
        | assumption | dsimp only
  all_goals with_reducible refine Keeps.upd ?_
  all_goals (repeat' first
    | with_reducible first
        | assumption | dsimp only)

theorem State.setDomain_keeps {M : Nat} {r : State} {a0 a1 a2} (hm : 0x512 ||| M = M) (h : Keeps M r a0) :
    Keeps M r (State.setDomain a0 a1 a2) := by
  refine h.next hm ?_
  clear h
  have h := Keeps.refl (M := 0x512) a0
  unfold State.setDomain
  repeat' first
    | with_reducible first
        | assumption | refine Keeps.ite ?_ ?_ | refine State.wr_keeps (by decide) ?_ | refine State.count_keeps (by decide) ?_
        | refine State.raise_keeps (by decide) ?_ | dsimp only
    | split

theorem State.sleepDomain_keeps {M : Nat} {r : State} {a0 a1 a2} (hm : 0x384f0d7d6 ||| M = M) (h : Keeps M r a0) :
    Keeps M r (State.sleepDomain a0 a1 a2) := by
  refine h.next hm ?_
  clear h
  have h := Keeps.refl (M := 0x384f0d7d6) a0
  unfold State.sleepDomain
  repeat' first
    | with_reducible first
        | assumption | refine Keeps.ite ?_ ?_ | refine State.modPwr_keeps (by decide) ?_
        | refine State.loseContents_keeps (by decide) ?_ | refine State.setDomain_keeps (by decide) ?_ | dsimp only
    | split

theorem State.wakeDomain_keeps {M : Nat} {r : State} {a0 a1} (hm : 0x4000512 ||| M = M) (h : Keeps M r a0) :
    Keeps M r (State.wakeDomain a0 a1) := by
  refine h.next hm ?_
  clear h
  have h := Keeps.refl (M := 0x4000512) a0
  unfold State.wakeDomain
  repeat' first
    | with_reducible first
        | assumption | refine Keeps.ite ?_ ?_ | refine State.modPwr_keeps (by decide) ?_
        | refine State.setDomain_keeps (by decide) ?_ | dsimp only
    | split

theorem State.applyDomains_keeps {M : Nat} {r : State} {a0 a1} (hm : 0x384f0d7d6 ||| M = M) (h : Keeps M r a0) :
    Keeps M r (State.applyDomains a0 a1) := by
  refine h.next hm ?_
  clear h
  have h := Keeps.refl (M := 0x384f0d7d6) a0
  unfold State.applyDomains
  repeat' first
    | with_reducible first
        | assumption | refine Keeps.ite ?_ ?_ | refine State.wakeDomain_keeps (by decide) ?_
        | refine State.sleepDomain_keeps (by decide) ?_ | refine State.wr_keeps (by decide) ?_
        | refine Keeps.foldl ?_ (fun _ _ _ => ?_) | dsimp only
    | split

theorem State.askAll_keeps {M : Nat} {r : State} {a0} (hm : 0x10 ||| M = M) (h : Keeps M r a0) :
    Keeps M r (State.askAll a0) := by
  refine h.next hm ?_
  clear h
  have h := Keeps.refl (M := 0x10) a0
  unfold State.askAll
  repeat' first
    | with_reducible first
        | assumption | refine State.wr_keeps (by decide) ?_ | dsimp only

theorem State.drvQuiet_keeps {M : Nat} {r : State} {a0 a1} (hm : 0x41016 ||| M = M) (h : Keeps M r a0) :
    Keeps M r (State.drvQuiet a0 a1) := by
  refine h.next hm ?_
  clear h
  have h := Keeps.refl (M := 0x41016) a0
  unfold State.drvQuiet
  repeat' first
    | with_reducible first
        | assumption | refine State.wr_keeps (by decide) ?_ | refine State.modDrv_keeps (by decide) ?_
        | refine State.drvLow_keeps (by decide) ?_ | dsimp only

theorem State.quietOutputs_keeps {M : Nat} {r : State} {a0} (hm : 0x41016 ||| M = M) (h : Keeps M r a0) :
    Keeps M r (State.quietOutputs a0) := by
  refine h.next hm ?_
  clear h
  have h := Keeps.refl (M := 0x41016) a0
  unfold State.quietOutputs
  repeat' first
    | with_reducible first
        | assumption | refine State.drvQuiet_keeps (by decide) ?_ | refine State.tripClear_keeps (by decide) ?_
        | refine Keeps.foldl ?_ (fun _ _ _ => ?_) | dsimp only

theorem State.rolePoints_keeps {M : Nat} {r : State} {a0} (hm : 0x80 ||| M = M) (h : Keeps M r a0) :
    Keeps M r (State.rolePoints a0) := by
  refine h.next hm ?_
  clear h
  have h := Keeps.refl (M := 0x80) a0
  unfold State.rolePoints
  repeat' first
    | with_reducible first
        | assumption | refine Keeps.ite ?_ ?_ | refine State.setPoint_keeps (by decide) ?_ | dsimp only
    | split

theorem State.wakePins_keeps {M : Nat} {r : State} {a0} (hm : 0x512 ||| M = M) (h : Keeps M r a0) :
    Keeps M r (State.wakePins a0) := by
  refine h.next hm ?_
  clear h
  have h := Keeps.refl (M := 0x512) a0
  unfold State.wakePins
  repeat' first
    | with_reducible first
        | assumption | refine State.tripSet_keeps (by decide) ?_ | refine Keeps.forEach ?_ (fun _ _ _ => ?_) | dsimp only
    | split

theorem State.setRole_keeps {M : Nat} {r : State} {a0 a1} (hm : 0x384f4d7d6 ||| M = M) (h : Keeps M r a0) :
    Keeps M r (State.setRole a0 a1) := by
  refine h.next hm ?_
  clear h
  have h := Keeps.refl (M := 0x384f4d7d6) a0
  unfold State.setRole
  repeat' first
    | with_reducible first
        | assumption | refine Keeps.ite ?_ ?_ | refine State.raise_keeps (by decide) ?_ | refine State.wr_keeps (by decide) ?_
        | refine State.askAll_keeps (by decide) ?_ | refine State.quietOutputs_keeps (by decide) ?_
        | refine State.wakePins_keeps (by decide) ?_ | refine State.applyDomains_keeps (by decide) ?_
        | refine State.soutUpdate_keeps (by decide) ?_ | refine State.rolePoints_keeps (by decide) ?_
        | refine State.modRed_keeps (by decide) ?_ | dsimp only
    | split

theorem State.becomeActive_keeps {M : Nat} {r : State} {a0 a1} (hm : 0x384f4d7d6 ||| M = M) (h : Keeps M r a0) :
    Keeps M r (State.becomeActive a0 a1) := by
  refine h.next hm ?_
  clear h
  have h := Keeps.refl (M := 0x384f4d7d6) a0
  unfold State.becomeActive
  repeat' first
    | with_reducible first
        | assumption | refine State.modRed_keeps (by decide) ?_ | refine State.wrPair_keeps (by decide) ?_
        | refine State.setRole_keeps (by decide) ?_ | dsimp only

theorem State.wakeOrders_keeps {M : Nat} {r : State} {a0} (hm : 0x200000 ||| M = M) (h : Keeps M r a0) :
    Keeps M r (State.wakeOrders a0) := by
  refine h.next hm ?_
  clear h
  have h := Keeps.refl (M := 0x200000) a0
  unfold State.wakeOrders
  repeat' first
    | with_reducible first
        | assumption | refine Keeps.ite ?_ ?_ | refine State.restRamp_keeps (by decide) ?_
        | refine State.startGen_keeps (by decide) ?_ | refine State.modInput_keeps (by decide) ?_
        | refine Keeps.foldl ?_ (fun _ _ _ => ?_) | refine Keeps.forEach ?_ (fun _ _ _ => ?_) | dsimp only
    | split

theorem State.domainReady_keeps {M : Nat} {r : State} {a0 a1} (hm : 0xb00592 ||| M = M) (h : Keeps M r a0) :
    Keeps M r (State.domainReady a0 a1) := by
  refine h.next hm ?_
  clear h
  have h := Keeps.refl (M := 0xb00592) a0
  unfold State.domainReady
  repeat' first
    | with_reducible first
        | assumption | refine Keeps.ite ?_ ?_ | refine State.setDomain_keeps (by decide) ?_
        | refine State.wakeOrders_keeps (by decide) ?_ | refine State.wr_keeps (by decide) ?_
        | refine State.rolePoints_keeps (by decide) ?_ | refine State.showLane_keeps (by decide) ?_
        | refine State.refreshGraphs_keeps (by decide) ?_ | refine Keeps.foldl ?_ (fun _ _ _ => ?_) | dsimp only
    | split

theorem State.forgetHigher_keeps {M : Nat} {r : State} {a0} (hm : 0x10000 ||| M = M) (h : Keeps M r a0) :
    Keeps M r (State.forgetHigher a0) := by
  refine h.next hm ?_
  clear h
  have h := Keeps.refl (M := 0x10000) a0
  unfold State.forgetHigher
  repeat' first
    | with_reducible first
        | assumption | refine State.modLane_keeps (by decide) ?_ | refine Keeps.foldl ?_ (fun _ _ _ => ?_) | dsimp only

theorem State.takeClaim_keeps {M : Nat} {r s t : State} (hm : 0x818010 ||| M = M) (ht : State.takeClaim s = some t)
    (h : Keeps M r s) : Keeps M r t := by
  refine h.next hm ?_
  clear h hm
  revert t
  show KeepsP 0x818010 s _
  unfold State.takeClaim
  refine KeepsP.ite KeepsP.none (KeepsP.some (State.forgetHigher_keeps (by decide) (State.modRed_keeps (by decide) (Keeps.foldl ?_ (fun u e hu =>
    State.modCell_keeps (by decide) hu)))))
  exact State.wr_keeps (by decide) (State.wr_keeps (by decide) (.refl s))

theorem State.seeTerm_keeps {M : Nat} {r : State} {a0 a1} (hm : 0x10 ||| M = M) (h : Keeps M r a0) :
    Keeps M r (State.seeTerm a0 a1) := by
  refine h.next hm ?_
  clear h
  have h := Keeps.refl (M := 0x10) a0
  unfold State.seeTerm
  repeat' first
    | with_reducible first
        | assumption | refine Keeps.ite ?_ ?_ | refine State.wr_keeps (by decide) ?_ | dsimp only
    | split

theorem State.wakeDone_keeps {M : Nat} {r : State} {a0 a1} (hm : 0x4b00592 ||| M = M) (h : Keeps M r a0) :
    Keeps M r (State.wakeDone a0 a1) := by
  refine h.next hm ?_
  clear h
  have h := Keeps.refl (M := 0x4b00592) a0
  unfold State.wakeDone
  repeat' first
    | with_reducible first
        | assumption | refine Keeps.ite ?_ ?_ | refine State.modPwr_keeps (by decide) ?_
        | refine State.wr_keeps (by decide) ?_ | refine State.domainReady_keeps (by decide) ?_ | dsimp only
    | split

end Sys2Proof.Machine
end

