-- ==== Sys2Proof/Laws/KeepsStart.lean ====
section
/-! SUPPORT. What each operation of Machine/Start.lean keeps (Laws/Keeps.lean). -/

set_option Elab.async false

namespace Sys2Proof.Machine

theorem State.adoptHead_keeps {M : Nat} {r : State} {a0 a1} (hm : 0x30 ||| M = M) (h : Keeps M r a0) :
    Keeps M r (State.adoptHead a0 a1) := by
  refine h.next hm ?_
  clear h
  have h := Keeps.refl (M := 0x30) a0
  unfold State.adoptHead
  repeat' first
    | with_reducible first
        | assumption | refine Keeps.ite ?_ ?_ | refine State.wr_keeps (by decide) ?_ | dsimp only
    | split
  all_goals with_reducible refine Keeps.upd ?_
  all_goals (repeat' first
    | with_reducible first
        | assumption | refine Keeps.ite ?_ ?_ | refine State.wr_keeps (by decide) ?_ | dsimp only
    | split)
  all_goals with_reducible refine Keeps.upd ?_
  all_goals (repeat' first
    | with_reducible first
        | assumption | refine Keeps.ite ?_ ?_ | refine State.wr_keeps (by decide) ?_ | dsimp only
    | split)

theorem State.adoptGrid_keeps {M : Nat} {r s : State} {i} (hm : 0x10000070 ||| M = M) (h : Keeps M r s) :
    Keeps M r (State.adoptGrid s i) := by
  refine h.next hm ?_
  unfold State.adoptGrid
  exact Keeps.upd (State.wr_keeps (by decide) (State.adoptHead_keeps (by decide) (.refl s))) (hStaging := fun hs => hs)

theorem State.resumeRamp_keeps {M : Nat} {r : State} {a0 a1} (hm : 0x80200090 ||| M = M) (h : Keeps M r a0) :
    Keeps M r (State.resumeRamp a0 a1) := by
  refine h.next hm ?_
  clear h
  have h := Keeps.refl (M := 0x80200090) a0
  unfold State.resumeRamp
  repeat' first
    | with_reducible first
        | assumption | refine State.showResumed_keeps (by decide) ?_ | refine State.modRamp_keeps (by decide) ?_ | dsimp only
    | split

theorem State.resumeGen_keeps {M : Nat} {r : State} {a0 a1 a2} (hm : 0x200010 ||| M = M) (h : Keeps M r a0) :
    Keeps M r (State.resumeGen a0 a1 a2) := by
  refine h.next hm ?_
  clear h
  have h := Keeps.refl (M := 0x200010) a0
  unfold State.resumeGen
  repeat' first
    | with_reducible first
        | assumption | refine State.wr_keeps (by decide) ?_ | refine State.setBit_keeps (by decide) ?_
        | refine State.modGen_keeps (by decide) ?_ | refine State.startGen_keeps (by decide) ?_ | dsimp only
    | split

theorem State.resumeGraph_keeps {M : Nat} {r : State} {a0 a1} (hm : 0x100090 ||| M = M) (h : Keeps M r a0) :
    Keeps M r (State.resumeGraph a0 a1) := by
  refine h.next hm ?_
  clear h
  have h := Keeps.refl (M := 0x100090) a0
  unfold State.resumeGraph
  repeat' first
    | with_reducible first
        | assumption | refine Keeps.ite ?_ ?_ | refine State.modGraph_keeps (by decide) ?_
        | refine State.markGraph_keeps (by decide) ?_ | refine State.delay_keeps (by decide) ?_ | dsimp only
    | split

theorem State.armTable_keeps {M : Nat} {r : State} {a0 a1} (hm : 0x10 ||| M = M) (h : Keeps M r a0) :
    Keeps M r (State.armTable a0 a1) := by
  refine h.next hm ?_
  clear h
  have h := Keeps.refl (M := 0x10) a0
  unfold State.armTable
  repeat' first
    | with_reducible first
        | assumption | refine State.wr_keeps (by decide) ?_ | dsimp only

theorem State.armStart_keeps {M : Nat} {r : State} {a0 a1} (hm : 0x4512 ||| M = M) (h : Keeps M r a0) :
    Keeps M r (State.armStart a0 a1) := by
  refine h.next hm ?_
  clear h
  have h := Keeps.refl (M := 0x4512) a0
  unfold State.armStart
  repeat' first
    | with_reducible first
        | assumption | refine Keeps.ite ?_ ?_ | refine State.modArm_keeps (by decide) ?_
        | refine State.armTable_keeps (by decide) ?_ | refine State.wr_keeps (by decide) ?_
        | refine State.armWindow_keeps (by decide) ?_ | dsimp only
    | split

theorem State.drvStart_keeps {M : Nat} {r : State} {a0 a1} (hm : 0x41016 ||| M = M) (h : Keeps M r a0) :
    Keeps M r (State.drvStart a0 a1) := by
  refine h.next hm ?_
  clear h
  have h := Keeps.refl (M := 0x41016) a0
  unfold State.drvStart
  repeat' first
    | with_reducible first
        | assumption | refine State.drvLow_keeps (by decide) ?_ | refine State.wr_keeps (by decide) ?_
        | refine State.drvTakeCtl_keeps (by decide) ?_ | refine State.modDrv_keeps (by decide) ?_ | dsimp only

theorem State.laneTable_keeps {M : Nat} {r : State} {a0 a1} (hm : 0x10010 ||| M = M) (h : Keeps M r a0) :
    Keeps M r (State.laneTable a0 a1) := by
  refine h.next hm ?_
  clear h
  have h := Keeps.refl (M := 0x10010) a0
  unfold State.laneTable
  repeat' first
    | with_reducible first
        | assumption | refine State.wr_keeps (by decide) ?_ | refine State.showLane_keeps (by decide) ?_
        | refine State.modLane_keeps (by decide) ?_ | refine Keeps.foldl ?_ (fun _ _ _ => ?_)
        | refine Keeps.foldl_fst ?_ (fun _ _ _ => ?_) | refine Keeps.foldl_snd ?_ (fun _ _ _ => ?_) | dsimp only
    | split

theorem State.unitStart_keeps {M : Nat} {r : State} {a0 a1} (hm : 0x20080 ||| M = M) (h : Keeps M r a0) :
    Keeps M r (State.unitStart a0 a1) := by
  refine h.next hm ?_
  clear h
  have h := Keeps.refl (M := 0x20080) a0
  unfold State.unitStart
  repeat' first
    | with_reducible first
        | assumption | refine Keeps.ite ?_ ?_ | refine State.showUnit_keeps (by decide) ?_
        | refine State.modUnit_keeps (by decide) ?_ | dsimp only
    | split

theorem State.initial_keeps {M : Nat} {r s : State} (hm : 0x180f7d7d6 ||| M = M) (h : Keeps M r s) :
    Keeps M r (State.initial s) := by
  refine h.next hm ?_
  unfold State.initial
  refine State.adcStart_keeps (by decide) (State.ordStart_keeps (by decide) (State.fabStart_keeps (by decide) ?_))
  refine Keeps.foldl (Keeps.foldl (Keeps.foldl (Keeps.foldl ?_ (fun t m ht => State.armStart_keeps (by decide) ht))
    (fun t e ht => State.laneTable_keeps (by decide) ht)) (fun t c ht => State.drvStart_keeps (by decide) ht))
    (fun t e ht => State.unitStart_keeps (by decide) ht)
  refine State.disarmDr_keeps (by decide) (State.modEpo_keeps (by decide) ?_ (fun _ => ⟨Nat.zero_le _, Nat.zero_le _⟩))
  exact Keeps.upd (State.clearFields_keeps (by decide) (.refl s)) (hPoints := fun hs => ⟨rfl, rfl, rfl, hs.2.2.2⟩)

theorem State.profileTable_keeps {M : Nat} {r : State} {a0} (hm : 0x10 ||| M = M) (h : Keeps M r a0) :
    Keeps M r (State.profileTable a0) := by
  refine h.next hm ?_
  clear h
  have h := Keeps.refl (M := 0x10) a0
  unfold State.profileTable
  repeat' first
    | with_reducible first
        | assumption | refine State.wr_keeps (by decide) ?_ | dsimp only
    | split

theorem State.begin_keeps {M : Nat} {r s : State} (hm : 0x191f7d7d6 ||| M = M) (h : Keeps M r s) :
    Keeps M r (State.begin s) := by
  refine h.next hm ?_
  unfold State.begin
  have h1 : Keeps 0x191f7d7d6 s s.profileTable.initial := State.initial_keeps (by decide) (State.profileTable_keeps (by decide) (.refl s))
  generalize s.profileTable.initial = u at h1 ⊢
  dsimp only
  split
  · refine State.safStart_keeps (by decide) (State.reactStart_keeps (by decide) ?_)
    exact Keeps.upd h1 (hStaging := fun hs => ⟨hs.1, hs.2⟩) (hepo := Or.inl (by decide))
  · refine State.reactStart_keeps (by decide) ?_
    exact Keeps.upd h1 (hStaging := fun hs => ⟨hs.1, hs.2⟩) (hepo := Or.inl (by decide))

theorem State.coldStart_keeps {M : Nat} {r : State} {a0} (hm : 0x180f7d7d6 ||| M = M) (h : Keeps M r a0) :
    Keeps M r (State.coldStart a0) := by
  refine h.next hm ?_
  clear h
  have h := Keeps.refl (M := 0x180f7d7d6) a0
  unfold State.coldStart
  repeat' first
    | with_reducible first
        | assumption | refine Keeps.ite ?_ ?_ | refine State.reactStart_keeps (by decide) ?_
        | refine State.initial_keeps (by decide) ?_ | refine State.modLane_keeps (by decide) ?_
        | refine State.laneBits_keeps (by decide) ?_ | refine State.wr_keeps (by decide) ?_
        | refine Keeps.foldl ?_ (fun _ _ _ => ?_) | dsimp only
    | split

theorem State.loadBinding_keeps {M : Nat} {r : State} {a0} (hm : 0x18000 ||| M = M) (h : Keeps M r a0) :
    Keeps M r (State.loadBinding a0) := by
  refine h.next hm ?_
  clear h
  have h := Keeps.refl (M := 0x18000) a0
  unfold State.loadBinding
  repeat' first
    | with_reducible first
        | assumption | refine Keeps.ite ?_ ?_ | refine State.modCell_keeps (by decide) ?_
        | refine State.modLane_keeps (by decide) ?_ | refine Keeps.foldl ?_ (fun _ _ _ => ?_)
        | refine Keeps.foldl_fst ?_ (fun _ _ _ => ?_) | refine Keeps.foldl_snd ?_ (fun _ _ _ => ?_) | dsimp only
    | split

theorem State.restoreStores_keeps {M : Nat} {r s : State} {i} (hm : 0x100090 ||| M = M) (h : Keeps M r s) :
    Keeps M r (State.restoreStores s i) := by
  refine h.next hm ?_
  unfold State.restoreStores
  refine State.modFab_keeps (by decide) (Keeps.foldl ?_ (fun t x ht => State.setWork_keeps (by decide) ht))
    (fun h => Fab.initOps_ok h)
  exact Keeps.upd (State.clearFields_keeps (by decide) (.refl s)) (hRegs := fun hs => tabWf_foldl hs)

theorem State.loadSlow_keeps {M : Nat} {r s : State} (hm : 0x80 ||| M = M) (h : Keeps M r s) :
    Keeps M r (State.loadSlow s) := by
  refine h.next hm ?_
  unfold State.loadSlow
  exact Keeps.upd (.refl s)
    (hPoints := fun hs => ⟨hs.1, hs.2.1, hs.2.2.1, by dsimp only; exact tabWf_foldl (tabWf_tabDrop hs.2.2.2)⟩)

theorem State.resumeArm_keeps {M : Nat} {r : State} {a0 a1 a2} (hm : 0x4512 ||| M = M) (h : Keeps M r a0) :
    Keeps M r (State.resumeArm a0 a1 a2) := by
  refine h.next hm ?_
  clear h
  have h := Keeps.refl (M := 0x4512) a0
  unfold State.resumeArm
  repeat' first
    | with_reducible first
        | assumption | refine Keeps.ite ?_ ?_ | refine State.wr_keeps (by decide) ?_
        | refine State.modArm_keeps (by decide) ?_ | refine State.armWindow_keeps (by decide) ?_ | dsimp only
    | split

theorem State.resumeCell_keeps {M : Nat} {r : State} {a0 a1 a2} (hm : 0x8000 ||| M = M) (h : Keeps M r a0) :
    Keeps M r (State.resumeCell a0 a1 a2) := by
  refine h.next hm ?_
  clear h
  have h := Keeps.refl (M := 0x8000) a0
  unfold State.resumeCell
  repeat' first
    | with_reducible first
        | assumption | refine State.modCell_keeps (by decide) ?_ | dsimp only
    | split

theorem State.resumeDrive_keeps {M : Nat} {r : State} {a0 a1} (hm : 0x40010 ||| M = M) (h : Keeps M r a0) :
    Keeps M r (State.resumeDrive a0 a1) := by
  refine h.next hm ?_
  clear h
  have h := Keeps.refl (M := 0x40010) a0
  unfold State.resumeDrive
  repeat' first
    | with_reducible first
        | assumption | refine State.wr_keeps (by decide) ?_ | refine State.modDrv_keeps (by decide) ?_ | dsimp only

theorem State.resume_keeps {M : Nat} {r : State} {a0 a1 a2} (hm : 0x8037c5d2 ||| M = M) (h : Keeps M r a0) :
    Keeps M r (State.resume a0 a1 a2) := by
  refine h.next hm ?_
  clear h
  have h := Keeps.refl (M := 0x8037c5d2) a0
  unfold State.resume
  repeat' first
    | with_reducible first
        | assumption | refine State.resumeArm_keeps (by decide) ?_ | refine State.resumeCell_keeps (by decide) ?_
        | refine State.modCell_keeps (by decide) ?_ | refine State.modUnit_keeps (by decide) ?_
        | refine State.showUnit_keeps (by decide) ?_ | refine State.resumeRamp_keeps (by decide) ?_
        | refine State.resumeGen_keeps (by decide) ?_ | refine State.resumeDrive_keeps (by decide) ?_
        | refine State.resumeGraph_keeps (by decide) ?_ | refine State.safTakeover_keeps (by decide) ?_
        | refine State.statResetAt_keeps (by decide) ?_ | refine Keeps.foldl ?_ (fun _ _ _ => ?_)
        | refine Keeps.foldl_fst ?_ (fun _ _ _ => ?_) | refine Keeps.foldl_snd ?_ (fun _ _ _ => ?_) | dsimp only

end Sys2Proof.Machine
end

