-- ==== Sys2Proof/Laws/KeepsRed.lean ====
section
/-! SUPPORT. What each operation of Machine/Red.lean keeps (Laws/Keeps.lean). -/

set_option Elab.async false

namespace Sys2Proof.Machine

theorem State.clearHand_keeps {M : Nat} {r : State} {a0} (hm : 0x800010 ||| M = M) (h : Keeps M r a0) :
    Keeps M r (State.clearHand a0) := by
  refine h.next hm ?_
  clear h
  have h := Keeps.refl (M := 0x800010) a0
  unfold State.clearHand
  repeat' first
    | with_reducible first
        | assumption | refine State.modRed_keeps (by decide) ?_ | refine State.wr_keeps (by decide) ?_ | dsimp only

theorem State.healthDrop_keeps {M : Nat} {r : State} {a0} (hm : 0x800010 ||| M = M) (h : Keeps M r a0) :
    Keeps M r (State.healthDrop a0) := by
  refine h.next hm ?_
  clear h
  have h := Keeps.refl (M := 0x800010) a0
  unfold State.healthDrop
  repeat' first
    | with_reducible first
        | assumption | refine State.modRed_keeps (by decide) ?_ | refine State.wr_keeps (by decide) ?_ | dsimp only

theorem State.sendPartner_keeps {M : Nat} {r : State} {a0 a1 a2 a3} (hm : 0x800002 ||| M = M) (h : Keeps M r a0) :
    Keeps M r (State.sendPartner a0 a1 a2 a3) := by
  refine h.next hm ?_
  clear h
  have h := Keeps.refl (M := 0x800002) a0
  unfold State.sendPartner
  repeat' first
    | with_reducible first
        | assumption | refine State.nextMsg_keeps (by decide) ?_ | dsimp only
  all_goals with_reducible refine Keeps.upd ?_
  all_goals (repeat' first
    | with_reducible first
        | assumption | refine State.nextMsg_keeps (by decide) ?_ | dsimp only)

theorem State.noImage_keeps {M : Nat} {r : State} {a0} (hm : 0x384f4d7d6 ||| M = M) (h : Keeps M r a0) :
    Keeps M r (State.noImage a0) := by
  refine h.next hm ?_
  clear h
  have h := Keeps.refl (M := 0x384f4d7d6) a0
  unfold State.noImage
  repeat' first
    | with_reducible first
        | assumption | refine State.raise_keeps (by decide) ?_ | refine State.wr_keeps (by decide) ?_
        | refine State.setRole_keeps (by decide) ?_ | dsimp only

theorem State.takeOver_keeps {M : Nat} {r : State} {a0 a1} (hm : 0x384f4d7d6 ||| M = M) (h : Keeps M r a0) :
    Keeps M r (State.takeOver a0 a1) := by
  refine h.next hm ?_
  clear h
  have h := Keeps.refl (M := 0x384f4d7d6) a0
  unfold State.takeOver
  repeat' first
    | with_reducible first
        | assumption | refine State.setRole_keeps (by decide) ?_ | refine State.modRed_keeps (by decide) ?_ | dsimp only

theorem State.partnerFailed_keeps {M : Nat} {r : State} {a0} (hm : 0x384f4d7d6 ||| M = M) (h : Keeps M r a0) :
    Keeps M r (State.partnerFailed a0) := by
  refine h.next hm ?_
  clear h
  have h := Keeps.refl (M := 0x384f4d7d6) a0
  unfold State.partnerFailed
  repeat' first
    | with_reducible first
        | assumption | refine Keeps.ite ?_ ?_ | refine State.raise_keeps (by decide) ?_
        | refine State.takeOver_keeps (by decide) ?_ | refine State.noImage_keeps (by decide) ?_ | dsimp only
    | split

theorem State.settle_keeps {M : Nat} {r : State} {a0} (hm : 0x384f4d7d6 ||| M = M) (h : Keeps M r a0) :
    Keeps M r (State.settle a0) := by
  refine h.next hm ?_
  clear h
  have h := Keeps.refl (M := 0x384f4d7d6) a0
  unfold State.settle
  repeat' first
    | with_reducible first
        | assumption | refine Keeps.ite ?_ ?_ | refine State.partnerFailed_keeps (by decide) ?_ | dsimp only
    | split

theorem State.abortHand_keeps {M : Nat} {r : State} {a0 a1 a2} (hm : 0x384f4d7d6 ||| M = M) (h : Keeps M r a0) :
    Keeps M r (State.abortHand a0 a1 a2) := by
  refine h.next hm ?_
  clear h
  have h := Keeps.refl (M := 0x384f4d7d6) a0
  unfold State.abortHand
  repeat' first
    | with_reducible first
        | assumption | refine Keeps.ite ?_ ?_ | refine State.sendPartner_keeps (by decide) ?_
        | refine State.raise_keeps (by decide) ?_ | refine State.wr_keeps (by decide) ?_
        | refine State.clearHand_keeps (by decide) ?_ | refine State.healthDrop_keeps (by decide) ?_
        | refine State.settle_keeps (by decide) ?_ | refine State.setRole_keeps (by decide) ?_ | dsimp only
    | split

theorem State.adoptDrive_keeps {M : Nat} {r : State} {a0 a1} (hm : 0x40010 ||| M = M) (h : Keeps M r a0) :
    Keeps M r (State.adoptDrive a0 a1) := by
  refine h.next hm ?_
  clear h
  have h := Keeps.refl (M := 0x40010) a0
  unfold State.adoptDrive
  repeat' first
    | with_reducible first
        | assumption | refine Keeps.ite ?_ ?_ | refine State.wr_keeps (by decide) ?_
        | refine State.modDrv_keeps (by decide) ?_ | dsimp only
    | split

theorem State.runHeld_keeps {M : Nat} {r : State} {a0 a1} (hm : 0x90c596 ||| M = M) (h : Keeps M r a0) :
    Keeps M r (State.runHeld a0 a1) := by
  refine h.next hm ?_
  clear h
  have h := Keeps.refl (M := 0x90c596) a0
  unfold State.runHeld
  repeat' first
    | with_reducible first
        | assumption | refine State.releaseGraph_keeps (by decide) ?_ | refine State.armDecide_keeps (by decide) ?_
        | dsimp only
    | split

theorem State.freeHeld_keeps {M : Nat} {r : State} {a0 a1} (hm : 0x90c596 ||| M = M) (h : Keeps M r a0) :
    Keeps M r (State.freeHeld a0 a1) := by
  refine h.next hm ?_
  clear h
  have h := Keeps.refl (M := 0x90c596) a0
  unfold State.freeHeld
  repeat' first
    | with_reducible first
        | assumption | refine State.modRed_keeps (by decide) ?_ | refine State.runHeld_keeps (by decide) ?_
        | refine Keeps.foldl ?_ (fun _ _ _ => ?_) | dsimp only
    | split

theorem State.applyMirror_keeps {M : Nat} {r : State} {a0 a1} (hm : 0x80b6c596 ||| M = M) (h : Keeps M r a0) :
    Keeps M r (State.applyMirror a0 a1) := by
  refine h.next hm ?_
  clear h
  have h := Keeps.refl (M := 0x80b6c596) a0
  unfold State.applyMirror
  repeat' first
    | with_reducible first
        | assumption | refine State.setWork_keeps (by decide) ?_
        | refine State.modFab_keeps (by decide) ?_ (by first | exact (fun h => h) | exact Fab.initOps_ok | exact (fun h => ⟨tabWf_tabSet (h.1), h.2⟩) | exact (fun h => ⟨tabWf_tabMod (h.1), h.2⟩) | exact (fun h => ⟨h.1, tabWf_tabSet (h.2.1), h.2.2⟩) | exact (fun h => ⟨h.1, tabWf_tabMod (h.2.1), h.2.2⟩) | exact (fun h => ⟨h.1, h.2.1, tabWf_tabSet (h.2.2.1), h.2.2.2⟩) | exact (fun h => ⟨h.1, h.2.1, tabWf_tabMod (h.2.2.1), h.2.2.2⟩) | exact (fun h => ⟨h.1, h.2.1, h.2.2.1, tabWf_tabSet (h.2.2.2.1), h.2.2.2.2⟩) | exact (fun h => ⟨h.1, h.2.1, h.2.2.1, tabWf_tabMod (h.2.2.2.1), h.2.2.2.2⟩) | exact (fun h => ⟨h.1, h.2.1, h.2.2.1, h.2.2.2.1, tabWf_tabSet (h.2.2.2.2)⟩) | exact (fun h => ⟨h.1, h.2.1, h.2.2.1, h.2.2.2.1, tabWf_tabMod (h.2.2.2.2)⟩) | exact (fun h => ⟨h.1, h.2.1, h.2.2.1, h.2.2.2.1, tabWf_tabMap⟩) | exact (fun h => ⟨h.1, tabWf_tabDrop h.2.1, h.2.2⟩) | exact (fun h => ⟨h.1, h.2.1, rfl, rfl, rfl⟩) | exact (fun _ => ⟨rfl, rfl, rfl, rfl, rfl⟩))
        | refine State.freeHeld_keeps (by decide) ?_ | refine State.modArm_keeps (by decide) ?_
        | refine State.modCell_keeps (by decide) ?_ | refine State.modUnit_keeps (by decide) ?_
        | refine State.showUnit_keeps (by decide) ?_ | refine State.resumeRamp_keeps (by decide) ?_
        | refine State.modGen_keeps (by decide) ?_ | refine State.adoptDrive_keeps (by decide) ?_
        | refine Keeps.foldl ?_ (fun _ _ _ => ?_) | dsimp only
    | split
  all_goals with_reducible refine Keeps.upd ?_
  all_goals (repeat' first
    | with_reducible first
        | assumption | refine State.setWork_keeps (by decide) ?_
        | refine State.modFab_keeps (by decide) ?_ (by first | exact (fun h => h) | exact Fab.initOps_ok | exact (fun h => ⟨tabWf_tabSet (h.1), h.2⟩) | exact (fun h => ⟨tabWf_tabMod (h.1), h.2⟩) | exact (fun h => ⟨h.1, tabWf_tabSet (h.2.1), h.2.2⟩) | exact (fun h => ⟨h.1, tabWf_tabMod (h.2.1), h.2.2⟩) | exact (fun h => ⟨h.1, h.2.1, tabWf_tabSet (h.2.2.1), h.2.2.2⟩) | exact (fun h => ⟨h.1, h.2.1, tabWf_tabMod (h.2.2.1), h.2.2.2⟩) | exact (fun h => ⟨h.1, h.2.1, h.2.2.1, tabWf_tabSet (h.2.2.2.1), h.2.2.2.2⟩) | exact (fun h => ⟨h.1, h.2.1, h.2.2.1, tabWf_tabMod (h.2.2.2.1), h.2.2.2.2⟩) | exact (fun h => ⟨h.1, h.2.1, h.2.2.1, h.2.2.2.1, tabWf_tabSet (h.2.2.2.2)⟩) | exact (fun h => ⟨h.1, h.2.1, h.2.2.1, h.2.2.2.1, tabWf_tabMod (h.2.2.2.2)⟩) | exact (fun h => ⟨h.1, h.2.1, h.2.2.1, h.2.2.2.1, tabWf_tabMap⟩) | exact (fun h => ⟨h.1, tabWf_tabDrop h.2.1, h.2.2⟩) | exact (fun h => ⟨h.1, h.2.1, rfl, rfl, rfl⟩) | exact (fun _ => ⟨rfl, rfl, rfl, rfl, rfl⟩))
        | refine State.freeHeld_keeps (by decide) ?_ | refine State.modArm_keeps (by decide) ?_
        | refine State.modCell_keeps (by decide) ?_ | refine State.modUnit_keeps (by decide) ?_
        | refine State.showUnit_keeps (by decide) ?_ | refine State.resumeRamp_keeps (by decide) ?_
        | refine State.modGen_keeps (by decide) ?_ | refine State.adoptDrive_keeps (by decide) ?_
        | refine Keeps.foldl ?_ (fun _ _ _ => ?_) | dsimp only
    | split)

theorem State.adoptImage_keeps {M : Nat} {r : State} {a0 a1} (hm : 0x80b7c596 ||| M = M) (h : Keeps M r a0) :
    Keeps M r (State.adoptImage a0 a1) := by
  refine h.next hm ?_
  clear h
  have h := Keeps.refl (M := 0x80b7c596) a0
  unfold State.adoptImage
  repeat' first
    | with_reducible first
        | assumption | refine Keeps.ite ?_ ?_ | refine State.wr_keeps (by decide) ?_
        | refine State.armWindow_keeps (by decide) ?_ | refine State.modArm_keeps (by decide) ?_
        | refine State.applyMirror_keeps (by decide) ?_ | refine State.modCell_keeps (by decide) ?_
        | refine State.modUnit_keeps (by decide) ?_ | refine State.resumeRamp_keeps (by decide) ?_
        | refine State.resumeGen_keeps (by decide) ?_ | refine State.adoptDrive_keeps (by decide) ?_
        | refine State.resumeGraph_keeps (by decide) ?_ | refine State.safTakeover_keeps (by decide) ?_
        | refine Keeps.foldl ?_ (fun _ _ _ => ?_) | refine Keeps.foldl_fst ?_ (fun _ _ _ => ?_)
        | refine Keeps.foldl_snd ?_ (fun _ _ _ => ?_) | dsimp only
    | split

theorem State.beginIncoming_keeps {M : Nat} {r : State} {a0} (hm : 0x384f4d7d6 ||| M = M) (h : Keeps M r a0) :
    Keeps M r (State.beginIncoming a0) := by
  refine h.next hm ?_
  clear h
  have h := Keeps.refl (M := 0x384f4d7d6) a0
  unfold State.beginIncoming
  repeat' first
    | with_reducible first
        | assumption | refine State.modRed_keeps (by decide) ?_ | refine State.wr_keeps (by decide) ?_
        | refine State.setRole_keeps (by decide) ?_ | dsimp only

theorem State.beginOutgoing_keeps {M : Nat} {r : State} {a0} (hm : 0x800010 ||| M = M) (h : Keeps M r a0) :
    Keeps M r (State.beginOutgoing a0) := by
  refine h.next hm ?_
  clear h
  have h := Keeps.refl (M := 0x800010) a0
  unfold State.beginOutgoing
  repeat' first
    | with_reducible first
        | assumption | refine State.modRed_keeps (by decide) ?_ | refine State.wr_keeps (by decide) ?_ | dsimp only

theorem State.sendCheckpoint_keeps {M : Nat} {r : State} {a0} (hm : 0x200800012 ||| M = M) (h : Keeps M r a0) :
    Keeps M r (State.sendCheckpoint a0) := by
  refine h.next hm ?_
  clear h
  have h := Keeps.refl (M := 0x200800012) a0
  unfold State.sendCheckpoint
  repeat' first
    | with_reducible first
        | assumption | refine State.modRed_keeps (by decide) ?_ | refine State.askPoints_keeps (by decide) ?_
        | refine State.nextMsg_keeps (by decide) ?_ | refine State.wr_keeps (by decide) ?_
        | refine Keeps.foldl ?_ (fun _ _ _ => ?_) | refine Keeps.foldl_fst ?_ (fun _ _ _ => ?_) | dsimp only
  all_goals with_reducible refine Keeps.upd ?_
  all_goals (repeat' first
    | with_reducible first
        | assumption | refine State.modRed_keeps (by decide) ?_ | refine State.askPoints_keeps (by decide) ?_
        | refine State.nextMsg_keeps (by decide) ?_ | refine State.wr_keeps (by decide) ?_
        | refine Keeps.foldl ?_ (fun _ _ _ => ?_) | refine Keeps.foldl_fst ?_ (fun _ _ _ => ?_) | dsimp only)

theorem State.checkpointSeam_keeps {M : Nat} {r s : State} (hm : 0x200800012 ||| M = M) (h : Keeps M r s) :
    Keeps M r (State.checkpointSeam s) := by
  refine h.next hm ?_
  clear h
  have h := State.modRed_keeps (M := 0x200800012) (a1 := fun r => { r with since := r.since + 1 }) (by decide) (Keeps.refl s)
  unfold State.checkpointSeam
  refine Keeps.ite (.refl s) ?_
  generalize s.modRed (fun r => { r with since := r.since + 1 }) = u at h ⊢
  dsimp only
  have h1 : ∀ v b, Keeps 0x200800012 s v →
      Keeps 0x200800012 s (if v.bindRecord = v.red.bind then v
        else { v.modRed (fun r => { r with bind := v.bindRecord }) with wire := v.wire ++ [Wire.binding (v.ringFrame 3 2 b) v.bindRecord] }.nextMsg) :=
    fun v b hv => Keeps.ite hv (State.nextMsg_keeps (by decide)
      (Keeps.upd (State.modRed_keeps (by decide) hv) (hwire := List.prefix_append v.wire _)))
  refine Keeps.ite (State.modRed_keeps (by decide) (State.wr_keeps (by decide) (h1 _ _ ?_))) (h1 _ _ ?_) <;>
  exact Keeps.ite (State.sendCheckpoint_keeps (by decide) h) (State.modRed_keeps (by decide) h)

theorem State.demote_keeps {M : Nat} {r : State} {a0 a1 a2 a3} (hm : 0x384f4d7d6 ||| M = M) (h : Keeps M r a0) :
    Keeps M r (State.demote a0 a1 a2 a3) := by
  refine h.next hm ?_
  clear h
  have h := Keeps.refl (M := 0x384f4d7d6) a0
  unfold State.demote
  repeat' first
    | with_reducible first
        | assumption | refine State.wr_keeps (by decide) ?_ | refine State.raise_keeps (by decide) ?_
        | refine State.setRole_keeps (by decide) ?_ | refine State.modRed_keeps (by decide) ?_
        | refine State.setCond_keeps (by decide) ?_ | dsimp only

theorem State.followHead_keeps {M : Nat} {r : State} {a0 a1 a2} (hm : 0x30 ||| M = M) (h : Keeps M r a0) :
    Keeps M r (State.followHead a0 a1 a2) := by
  refine h.next hm ?_
  clear h
  have h := Keeps.refl (M := 0x30) a0
  unfold State.followHead
  repeat' first
    | with_reducible first
        | assumption | refine Keeps.ite ?_ ?_ | refine State.adoptHead_keeps (by decide) ?_
        | refine State.wr_keeps (by decide) ?_ | dsimp only
    | split

theorem State.freeAll_keeps {M : Nat} {r : State} {a0} (hm : 0x90c596 ||| M = M) (h : Keeps M r a0) :
    Keeps M r (State.freeAll a0) := by
  refine h.next hm ?_
  clear h
  have h := Keeps.refl (M := 0x90c596) a0
  unfold State.freeAll
  repeat' first
    | with_reducible first
        | assumption | refine Keeps.ite ?_ ?_ | refine State.runHeld_keeps (by decide) ?_
        | refine State.modRed_keeps (by decide) ?_ | refine State.clearHand_keeps (by decide) ?_
        | refine Keeps.foldl ?_ (fun _ _ _ => ?_) | dsimp only
    | split

theorem State.gap_keeps {M : Nat} {r : State} {a0} (hm : 0x4 ||| M = M) (h : Keeps M r a0) :
    Keeps M r (State.gap a0).2 := by
  refine h.next hm ?_
  clear h
  have h := Keeps.refl (M := 0x4) a0
  unfold State.gap
  repeat' first
    | with_reducible first
        | assumption | refine State.draw_keeps (by decide) ?_ | dsimp only
    | split

theorem State.handoverBefore_keeps {M : Nat} {r : State} {a0} (hm : 0x118090 ||| M = M) (h : Keeps M r a0) :
    Keeps M r (State.handoverBefore a0) := by
  refine h.next hm ?_
  clear h
  have h := Keeps.refl (M := 0x118090) a0
  unfold State.handoverBefore
  repeat' first
    | with_reducible first
        | assumption | refine Keeps.ite ?_ ?_ | refine State.loadBinding_keeps (by decide) ?_
        | refine State.restoreStores_keeps (by decide) ?_ | dsimp only
    | split

theorem State.handoverIncoming_keeps {M : Nat} {r : State} {a0} (hm : 0x384f7d7d6 ||| M = M) (h : Keeps M r a0) :
    Keeps M r (State.handoverIncoming a0) := by
  refine h.next hm ?_
  clear h
  have h := Keeps.refl (M := 0x384f7d7d6) a0
  unfold State.handoverIncoming
  repeat' first
    | with_reducible first
        | assumption | refine Keeps.ite ?_ ?_ | refine State.takeClaim_keeps (by decide) (by assumption) ?_
        | refine State.adoptImage_keeps (by decide) ?_ | refine State.raise_keeps (by decide) ?_
        | refine State.clearHand_keeps (by decide) ?_ | refine State.modRed_keeps (by decide) ?_
        | refine State.count_keeps (by decide) ?_ | refine State.becomeActive_keeps (by decide) ?_ | dsimp only
    | split

theorem State.setSlot_keeps {M : Nat} {r : State} {a0 a1 a2} (hm : 0x800010 ||| M = M) (h : Keeps M r a0) :
    Keeps M r (State.setSlot a0 a1 a2) := by
  refine h.next hm ?_
  clear h
  have h := Keeps.refl (M := 0x800010) a0
  unfold State.setSlot
  repeat' first
    | with_reducible first
        | assumption | refine Keeps.ite ?_ ?_ | refine State.modRed_keeps (by decide) ?_
        | refine State.wrPair_keeps (by decide) ?_ | refine State.wr_keeps (by decide) ?_ | dsimp only
    | split

theorem State.handoverOutgoing_keeps {M : Nat} {r : State} {a0} (hm : 0x384f4d7d6 ||| M = M) (h : Keeps M r a0) :
    Keeps M r (State.handoverOutgoing a0) := by
  refine h.next hm ?_
  clear h
  have h := Keeps.refl (M := 0x384f4d7d6) a0
  unfold State.handoverOutgoing
  repeat' first
    | with_reducible first
        | assumption | refine Keeps.ite ?_ ?_ | refine State.modRed_keeps (by decide) ?_
        | refine State.wrPair_keeps (by decide) ?_ | refine State.sendPartner_keeps (by decide) ?_
        | refine State.setSlot_keeps (by decide) ?_ | refine State.sendMirror_keeps (by decide) ?_
        | refine State.raise_keeps (by decide) ?_ | refine State.count_keeps (by decide) ?_
        | refine State.settle_keeps (by decide) ?_ | refine State.setRole_keeps (by decide) ?_
        | refine State.clearHand_keeps (by decide) ?_ | refine State.wr_keeps (by decide) ?_ | dsimp only
    | split

theorem State.tryReady_keeps {M : Nat} {r : State} {a0} (hm : 0x800002 ||| M = M) (h : Keeps M r a0) :
    Keeps M r (State.tryReady a0) := by
  refine h.next hm ?_
  clear h
  have h := Keeps.refl (M := 0x800002) a0
  unfold State.tryReady
  repeat' first
    | with_reducible first
        | assumption | refine Keeps.ite ?_ ?_ | refine State.modRed_keeps (by decide) ?_
        | refine State.sendPartner_keeps (by decide) ?_ | dsimp only
    | split

theorem State.handoverWait_keeps {M : Nat} {r : State} {a0} (hm : 0x384f4d7d6 ||| M = M) (h : Keeps M r a0) :
    Keeps M r (State.handoverWait a0) := by
  refine h.next hm ?_
  clear h
  have h := Keeps.refl (M := 0x384f4d7d6) a0
  unfold State.handoverWait
  repeat' first
    | with_reducible first
        | assumption | refine Keeps.ite ?_ ?_ | refine State.abortHand_keeps (by decide) ?_
        | refine State.tryReady_keeps (by decide) ?_ | refine State.modRed_keeps (by decide) ?_ | dsimp only
    | split

theorem State.healthSeam_keeps {M : Nat} {r : State} {a0} (hm : 0x800010 ||| M = M) (h : Keeps M r a0) :
    Keeps M r (State.healthSeam a0) := by
  refine h.next hm ?_
  clear h
  have h := Keeps.refl (M := 0x800010) a0
  unfold State.healthSeam
  repeat' first
    | with_reducible first
        | assumption | refine Keeps.ite ?_ ?_ | refine State.wr_keeps (by decide) ?_
        | refine State.modRed_keeps (by decide) ?_ | dsimp only
    | split

theorem State.pathGood_keeps {M : Nat} {r : State} {a0 a1} (hm : 0x800512 ||| M = M) (h : Keeps M r a0) :
    Keeps M r (State.pathGood a0 a1) := by
  refine h.next hm ?_
  clear h
  have h := Keeps.refl (M := 0x800512) a0
  unfold State.pathGood
  repeat' first
    | with_reducible first
        | assumption | refine Keeps.ite ?_ ?_ | refine State.modRed_keeps (by decide) ?_
        | refine State.raise_keeps (by decide) ?_ | refine State.wr_keeps (by decide) ?_ | dsimp only
    | split

theorem State.heard_keeps {M : Nat} {r : State} {a0 a1 a2 a3} (hm : 0x384f4d7d6 ||| M = M) (h : Keeps M r a0) :
    Keeps M r (State.heard a0 a1 a2 a3) := by
  refine h.next hm ?_
  clear h
  have h := Keeps.refl (M := 0x384f4d7d6) a0
  unfold State.heard
  repeat' first
    | with_reducible first
        | assumption | refine Keeps.ite ?_ ?_ | refine State.pathGood_keeps (by decide) ?_
        | refine State.seeTerm_keeps (by decide) ?_ | refine State.wr_keeps (by decide) ?_
        | refine State.modRed_keeps (by decide) ?_ | refine State.raise_keeps (by decide) ?_
        | refine State.demote_keeps (by decide) ?_ | refine State.partnerFailed_keeps (by decide) ?_ | dsimp only
    | split

theorem State.laneDown_keeps {M : Nat} {r : State} {a0 a1} (hm : 0x384f4d7d6 ||| M = M) (h : Keeps M r a0) :
    Keeps M r (State.laneDown a0 a1) := by
  refine h.next hm ?_
  clear h
  have h := Keeps.refl (M := 0x384f4d7d6) a0
  unfold State.laneDown
  repeat' first
    | with_reducible first
        | assumption | refine Keeps.ite ?_ ?_ | refine State.abortHand_keeps (by decide) ?_ | dsimp only
    | split

theorem State.imageComplete_keeps {M : Nat} {r : State} {a0 a1} (hm : 0x10800070 ||| M = M) (h : Keeps M r a0) :
    Keeps M r (State.imageComplete a0 a1) := by
  refine h.next hm ?_
  clear h
  have h := Keeps.refl (M := 0x10800070) a0
  unfold State.imageComplete
  repeat' first
    | with_reducible first
        | assumption | refine Keeps.ite ?_ ?_ | refine State.modRed_keeps (by decide) ?_
        | refine State.adoptGrid_keeps (by decide) ?_ | refine Keeps.foldl ?_ (fun _ _ _ => ?_) | dsimp only
    | split

theorem State.stale_keeps {M : Nat} {r : State} {a0 a1 a2} (hm : 0x512 ||| M = M) (h : Keeps M r a0) :
    Keeps M r (State.stale a0 a1 a2) := by
  refine h.next hm ?_
  clear h
  have h := Keeps.refl (M := 0x512) a0
  unfold State.stale
  repeat' first
    | with_reducible first
        | assumption | refine State.raise_keeps (by decide) ?_ | refine State.wr_keeps (by decide) ?_
        | refine State.count_keeps (by decide) ?_ | dsimp only

theorem State.receive_keeps {M : Nat} {r : State} {a0 a1 a2} (hm : 0x800512 ||| M = M) (h : Keeps M r a0) :
    Keeps M r (State.receive a0 a1 a2).1 := by
  refine h.next hm ?_
  clear h
  have h := Keeps.refl (M := 0x800512) a0
  unfold State.receive
  repeat' first
    | with_reducible first
        | assumption | refine Keeps.ite ?_ ?_ | refine Keeps.ite_fst ?_ ?_ | refine Keeps.ite_snd ?_ ?_
        | refine State.add_keeps (by decide) ?_ | refine State.seeTerm_keeps (by decide) ?_
        | refine State.modRed_keeps (by decide) ?_ | refine State.stale_keeps (by decide) ?_ | dsimp only
    | split
  all_goals with_reducible refine Keeps.upd ?_
  all_goals (repeat' first
    | with_reducible first
        | assumption | refine Keeps.ite ?_ ?_ | refine Keeps.ite_fst ?_ ?_ | refine Keeps.ite_snd ?_ ?_
        | refine State.add_keeps (by decide) ?_ | refine State.seeTerm_keeps (by decide) ?_
        | refine State.modRed_keeps (by decide) ?_ | refine State.stale_keeps (by decide) ?_ | dsimp only
    | split)

theorem State.onMessage_keeps {M : Nat} {s : State} {m ty fr} {f : State → State} (hm : 0x800512 ||| M = M)
    (hf : ∀ t, Keeps M s t → Keeps M s (f t)) : KeepsO M s (State.onMessage s m ty fr f) := by
  have h := State.receive_keeps (a1 := m) (a2 := fr) hm (Keeps.refl s)
  unfold State.onMessage
  exact KeepsO.ite (.next (Keeps.ite (hf _ h) h)) .refused

theorem State.redStatus_keeps {M : Nat} {r : State} {a0 a1} (hm : 0x10 ||| M = M) (h : Keeps M r a0) :
    Keeps M r (State.redStatus a0 a1) := by
  refine h.next hm ?_
  clear h
  have h := Keeps.refl (M := 0x10) a0
  unfold State.redStatus
  repeat' first
    | with_reducible first
        | assumption | refine Keeps.ite ?_ ?_ | refine State.wr_keeps (by decide) ?_ | dsimp only
    | split

theorem State.slotInvalid_keeps {M : Nat} {r : State} {a0 a1 a2} (hm : 0x512 ||| M = M) (h : Keeps M r a0) :
    Keeps M r (State.slotInvalid a0 a1 a2) := by
  refine h.next hm ?_
  clear h
  have h := Keeps.refl (M := 0x512) a0
  unfold State.slotInvalid
  repeat' first
    | with_reducible first
        | assumption | refine State.raise_keeps (by decide) ?_ | refine State.wr_keeps (by decide) ?_
        | refine State.count_keeps (by decide) ?_ | dsimp only

theorem State.rereadSlot_keeps {M : Nat} {r : State} {a0 a1 a2} (hm : 0x182b017d2 ||| M = M) (h : Keeps M r a0) :
    Keeps M r (State.rereadSlot a0 a1 a2) := by
  refine h.next hm ?_
  clear h
  have h := Keeps.refl (M := 0x182b017d2) a0
  unfold State.rereadSlot
  repeat' first
    | with_reducible first
        | assumption | refine Keeps.ite ?_ ?_ | refine State.readWords_keeps (by decide) ?_
        | refine State.slotInvalid_keeps (by decide) ?_ | refine State.setSlot_keeps (by decide) ?_ | dsimp only
    | split

theorem State.restoreEnd_keeps {M : Nat} {r : State} {a0 a1} (hm : 0x818512 ||| M = M) (h : Keeps M r a0) :
    Keeps M r (State.restoreEnd a0 a1) := by
  refine h.next hm ?_
  clear h
  have h := Keeps.refl (M := 0x818512) a0
  unfold State.restoreEnd
  repeat' first
    | with_reducible first
        | assumption | refine State.takeClaim_keeps (by decide) (by assumption) ?_ | refine State.modRed_keeps (by decide) ?_
        | refine State.raise_keeps (by decide) ?_ | dsimp only
    | split

theorem State.restoreCold_keeps {M : Nat} {r : State} {a0} (hm : 0x180f7d7d6 ||| M = M) (h : Keeps M r a0) :
    Keeps M r (State.restoreCold a0) := by
  refine h.next hm ?_
  clear h
  have h := Keeps.refl (M := 0x180f7d7d6) a0
  unfold State.restoreCold
  repeat' first
    | with_reducible first
        | assumption | refine State.restoreEnd_keeps (by decide) ?_ | refine State.loadBinding_keeps (by decide) ?_
        | refine State.coldStart_keeps (by decide) ?_ | dsimp only

theorem State.restoreNone_keeps {M : Nat} {r : State} {a0} (hm : 0x384f7d7d6 ||| M = M) (h : Keeps M r a0) :
    Keeps M r (State.restoreNone a0) := by
  refine h.next hm ?_
  clear h
  have h := Keeps.refl (M := 0x384f7d7d6) a0
  unfold State.restoreNone
  repeat' first
    | with_reducible first
        | assumption | refine Keeps.ite ?_ ?_ | refine State.restoreCold_keeps (by decide) ?_
        | refine State.noImage_keeps (by decide) ?_ | dsimp only
    | split

theorem State.restoreSlot_keeps {M : Nat} {r : State} {a0 a1} (hm : 0x109185f2 ||| M = M) (h : Keeps M r a0) :
    Keeps M r (State.restoreSlot a0 a1) := by
  refine h.next hm ?_
  clear h
  have h := Keeps.refl (M := 0x109185f2) a0
  unfold State.restoreSlot
  repeat' first
    | with_reducible first
        | assumption | refine State.restoreEnd_keeps (by decide) ?_ | refine State.modRed_keeps (by decide) ?_
        | refine State.loadSlow_keeps (by decide) ?_ | refine State.loadBinding_keeps (by decide) ?_
        | refine State.restoreStores_keeps (by decide) ?_ | refine State.adoptGrid_keeps (by decide) ?_ | dsimp only

theorem State.ringSeam_keeps {M : Nat} {r : State} {a0 a1} (hm : 0x800012 ||| M = M) (h : Keeps M r a0) :
    Keeps M r (State.ringSeam a0 a1) := by
  refine h.next hm ?_
  clear h
  have h := Keeps.refl (M := 0x800012) a0
  unfold State.ringSeam
  repeat' first
    | with_reducible first
        | assumption | refine Keeps.ite ?_ ?_ | refine State.count_keeps (by decide) ?_
        | refine State.sendPartner_keeps (by decide) ?_ | dsimp only
    | split

theorem State.takeoverSeam_keeps {M : Nat} {r : State} {a0} (hm : 0x384f7d7d6 ||| M = M) (h : Keeps M r a0) :
    Keeps M r (State.takeoverSeam a0) := by
  refine h.next hm ?_
  clear h
  have h := Keeps.refl (M := 0x384f7d7d6) a0
  unfold State.takeoverSeam
  repeat' first
    | with_reducible first
        | assumption | refine Keeps.ite ?_ ?_ | refine State.resume_keeps (by decide) ?_
        | refine State.count_keeps (by decide) ?_ | refine State.becomeActive_keeps (by decide) ?_
        | refine State.gap_keeps (by decide) ?_ | refine State.raise_keeps (by decide) ?_
        | refine State.wr_keeps (by decide) ?_ | refine State.modRed_keeps (by decide) ?_ | dsimp only
    | split

theorem State.strapInvalid_keeps {M : Nat} {r : State} {a0 a1} (hm : 0x384f4d7d6 ||| M = M) (h : Keeps M r a0) :
    Keeps M r (State.strapInvalid a0 a1) := by
  refine h.next hm ?_
  clear h
  have h := Keeps.refl (M := 0x384f4d7d6) a0
  unfold State.strapInvalid
  repeat' first
    | with_reducible first
        | assumption | refine Keeps.ite ?_ ?_ | refine State.raise_keeps (by decide) ?_ | refine State.wr_keeps (by decide) ?_
        | refine State.setRole_keeps (by decide) ?_ | dsimp only
    | split

theorem State.takeBack_keeps {M : Nat} {r : State} {a0} (hm : 0x384f5d7d6 ||| M = M) (h : Keeps M r a0) :
    Keeps M r (State.takeBack a0) := by
  refine h.next hm ?_
  clear h
  have h := Keeps.refl (M := 0x384f5d7d6) a0
  unfold State.takeBack
  repeat' first
    | with_reducible first
        | assumption | refine State.takeClaim_keeps (by decide) (by assumption) ?_ | refine State.modRed_keeps (by decide) ?_
        | refine State.setRole_keeps (by decide) ?_ | refine State.freeAll_keeps (by decide) ?_
        | refine State.clearHand_keeps (by decide) ?_ | refine State.raise_keeps (by decide) ?_ | dsimp only
    | split

theorem State.validateSlot_keeps {M : Nat} {r : State} {a0 a1 a2 a3} (hm : 0x394f4d7f6 ||| M = M) (h : Keeps M r a0) :
    Keeps M r (State.validateSlot a0 a1 a2 a3) := by
  refine h.next hm ?_
  clear h
  have h := Keeps.refl (M := 0x394f4d7f6) a0
  unfold State.validateSlot
  repeat' first
    | with_reducible first
        | assumption | refine Keeps.ite ?_ ?_ | refine State.modRed_keeps (by decide) ?_
        | refine State.wr_keeps (by decide) ?_ | refine State.slotInvalid_keeps (by decide) ?_
        | refine State.raise_keeps (by decide) ?_ | refine State.seeTerm_keeps (by decide) ?_
        | refine State.count_keeps (by decide) ?_ | refine State.setSlot_keeps (by decide) ?_
        | refine State.settle_keeps (by decide) ?_ | refine State.setRole_keeps (by decide) ?_
        | refine State.tryReady_keeps (by decide) ?_ | refine State.imageComplete_keeps (by decide) ?_ | dsimp only
    | split

theorem execAlignReceived_keeps {a0 a1 a2 a3 a4} : KeepsO 0x384f5d7d6 a4 (execAlignReceived a0 a1 a2 a3 a4) := by
  have h := Keeps.refl (M := 0x384f5d7d6) a4
  unfold execAlignReceived
  repeat' first
    | with_reducible first
        | assumption | refine KeepsO.next ?_ | exact KeepsO.refused | refine KeepsO.ite ?_ ?_ | refine Keeps.ite ?_ ?_
        | refine State.checkBip_keeps (by decide) ?_ | refine State.quadTimed_keeps (by decide) ?_
        | refine State.receiveAlign_keeps (by decide) ?_ | refine State.modLane_keeps (by decide) ?_
        | refine State.laneDown_keeps (by decide) ?_ | dsimp only
    | split

theorem execBindSegment_keeps {a0 a1 a2} : KeepsO 0x800512 a2 (execBindSegment a0 a1 a2) := by
  have h := Keeps.refl (M := 0x800512) a2
  unfold execBindSegment
  repeat' first
    | with_reducible first
        | assumption | refine KeepsO.next ?_ | exact KeepsO.refused | refine KeepsO.ite ?_ ?_
        | refine State.onMessage_keeps (by decide) (fun _ _ => ?_) | refine State.modRed_keeps (by decide) ?_ | dsimp only

theorem execCheckpointSent_keeps {a0} : KeepsO 0x800010 a0 (execCheckpointSent a0) := by
  have h := Keeps.refl (M := 0x800010) a0
  unfold execCheckpointSent
  repeat' first
    | with_reducible first
        | assumption | refine KeepsO.next ?_ | exact KeepsO.refused | refine KeepsO.ite ?_ ?_ | refine Keeps.ite ?_ ?_
        | refine State.modRed_keeps (by decide) ?_ | refine State.wr_keeps (by decide) ?_
        | refine State.count_keeps (by decide) ?_ | dsimp only
    | split

theorem execCkptSegment_keeps {a0 a1 a2 a3 a4 a5 a6} : KeepsO 0x394f4d7f6 a6 (execCkptSegment a0 a1 a2 a3 a4 a5 a6) := by
  have h := Keeps.refl (M := 0x394f4d7f6) a6
  unfold execCkptSegment
  repeat' first
    | with_reducible first
        | assumption | refine KeepsO.next ?_ | exact KeepsO.refused | refine KeepsO.ite ?_ ?_
        | refine State.onMessage_keeps (by decide) (fun _ _ => ?_) | refine Keeps.ite ?_ ?_
        | refine State.slotInvalid_keeps (by decide) ?_ | refine State.wr_keeps (by decide) ?_
        | refine State.setSlot_keeps (by decide) ?_ | refine State.modRed_keeps (by decide) ?_
        | refine State.validateSlot_keeps (by decide) ?_ | dsimp only
    | split

theorem execHandoverAbort_keeps {a0 a1 a2} : KeepsO 0x384f4d7d6 a2 (execHandoverAbort a0 a1 a2) := by
  have h := Keeps.refl (M := 0x384f4d7d6) a2
  unfold execHandoverAbort
  repeat' first
    | with_reducible first
        | assumption | refine KeepsO.next ?_ | exact KeepsO.refused | refine KeepsO.ite ?_ ?_
        | refine State.onMessage_keeps (by decide) (fun _ _ => ?_) | refine Keeps.ite ?_ ?_
        | refine State.abortHand_keeps (by decide) ?_ | refine State.draw_keeps (by decide) ?_
        | refine State.stale_keeps (by decide) ?_ | dsimp only
    | split

theorem execHandoverGrant_keeps {a0 a1 a2} : KeepsO 0x384f4d7d6 a2 (execHandoverGrant a0 a1 a2) := by
  have h := Keeps.refl (M := 0x384f4d7d6) a2
  unfold execHandoverGrant
  repeat' first
    | with_reducible first
        | assumption | refine KeepsO.next ?_ | exact KeepsO.refused | refine KeepsO.ite ?_ ?_
        | refine State.onMessage_keeps (by decide) (fun _ _ => ?_) | refine Keeps.ite ?_ ?_
        | refine State.abortHand_keeps (by decide) ?_ | refine State.modRed_keeps (by decide) ?_
        | refine State.wrPair_keeps (by decide) ?_ | dsimp only
    | split

theorem execHandoverReady_keeps {a0 a1} : KeepsO 0x800512 a1 (execHandoverReady a0 a1) := by
  have h := Keeps.refl (M := 0x800512) a1
  unfold execHandoverReady
  repeat' first
    | with_reducible first
        | assumption | refine KeepsO.next ?_ | exact KeepsO.refused | refine KeepsO.ite ?_ ?_
        | refine State.onMessage_keeps (by decide) (fun _ _ => ?_) | refine Keeps.ite ?_ ?_
        | refine State.modRed_keeps (by decide) ?_ | dsimp only
    | split

theorem execHandoverRequest_keeps {a0 a1} : KeepsO 0x384f4d7d6 a1 (execHandoverRequest a0 a1) := by
  have h := Keeps.refl (M := 0x384f4d7d6) a1
  unfold execHandoverRequest
  repeat' first
    | with_reducible first
        | assumption | refine KeepsO.next ?_ | exact KeepsO.refused | refine KeepsO.ite ?_ ?_
        | refine State.onMessage_keeps (by decide) (fun _ _ => ?_) | refine Keeps.ite ?_ ?_
        | refine State.beginOutgoing_keeps (by decide) ?_ | refine State.beginIncoming_keeps (by decide) ?_ | dsimp only
    | split

theorem execHbPathLost_keeps {a0 a1} : KeepsO 0x384f5d7d6 a1 (execHbPathLost a0 a1) := by
  have h := Keeps.refl (M := 0x384f5d7d6) a1
  unfold execHbPathLost
  repeat' first
    | with_reducible first
        | assumption | refine KeepsO.next ?_ | exact KeepsO.refused | refine KeepsO.ite ?_ ?_ | refine Keeps.ite ?_ ?_
        | refine State.count_keeps (by decide) ?_ | refine State.wr_keeps (by decide) ?_
        | refine State.healthDrop_keeps (by decide) ?_ | refine State.raise_keeps (by decide) ?_
        | refine State.settle_keeps (by decide) ?_ | refine State.takeBack_keeps (by decide) ?_
        | refine State.freeAll_keeps (by decide) ?_ | dsimp only
    | split

theorem execHeartbeatSend_keeps {a0} : KeepsO 0x2 a0 (execHeartbeatSend a0) := by
  have h := Keeps.refl (M := 0x2) a0
  unfold execHeartbeatSend
  repeat' first
    | with_reducible first
        | assumption | refine KeepsO.next ?_ | exact KeepsO.refused | refine KeepsO.ite ?_ ?_ | refine Keeps.ite ?_ ?_
        | dsimp only
    | split
  all_goals with_reducible refine Keeps.upd ?_
  all_goals (repeat' first
    | with_reducible first
        | assumption | refine KeepsO.next ?_ | exact KeepsO.refused | refine KeepsO.ite ?_ ?_ | refine Keeps.ite ?_ ?_
        | dsimp only
    | split)

theorem execHeartbeatSymbol_keeps {a0 a1} : KeepsO 0x384f4d7d6 a1 (execHeartbeatSymbol a0 a1) := by
  have h := Keeps.refl (M := 0x384f4d7d6) a1
  unfold execHeartbeatSymbol
  repeat' first
    | with_reducible first
        | assumption | refine KeepsO.next ?_ | exact KeepsO.refused | refine KeepsO.ite ?_ ?_ | refine Keeps.ite ?_ ?_
        | refine State.count_keeps (by decide) ?_ | refine State.wr_keeps (by decide) ?_
        | refine State.strapInvalid_keeps (by decide) ?_ | refine State.heard_keeps (by decide) ?_ | dsimp only
    | split

theorem execListenEnd_keeps {a0} : KeepsO 0x384f7d7d6 a0 (execListenEnd a0) := by
  have h := Keeps.refl (M := 0x384f7d7d6) a0
  unfold execListenEnd
  repeat' first
    | with_reducible first
        | assumption | refine KeepsO.next ?_ | exact KeepsO.refused | refine KeepsO.ite ?_ ?_ | refine Keeps.ite ?_ ?_
        | refine State.settle_keeps (by decide) ?_ | refine State.setRole_keeps (by decide) ?_
        | refine State.takeClaim_keeps (by decide) (by assumption) ?_ | refine State.coldStart_keeps (by decide) ?_
        | refine State.becomeActive_keeps (by decide) ?_ | refine State.raise_keeps (by decide) ?_
        | refine State.noImage_keeps (by decide) ?_ | dsimp only
    | split

theorem execLockLost_keeps {a0 a1 a2} : KeepsO 0x384f4d7d6 a2 (execLockLost a0 a1 a2) := by
  have h := Keeps.refl (M := 0x384f4d7d6) a2
  unfold execLockLost
  repeat' first
    | with_reducible first
        | assumption | refine KeepsO.next ?_ | exact KeepsO.refused | refine KeepsO.ite ?_ ?_ | refine Keeps.ite ?_ ?_
        | refine State.add_keeps (by decide) ?_ | refine State.laneDown_keeps (by decide) ?_
        | refine State.loseLock_keeps (by decide) ?_ | dsimp only
    | split

theorem execMirrorRun_keeps {a0 a1 a2 a3} : KeepsO 0x384f6d7f6 a3 (execMirrorRun a0 a1 a2 a3) := by
  have h := Keeps.refl (M := 0x384f6d7f6) a3
  unfold execMirrorRun
  repeat' first
    | with_reducible first
        | assumption | refine KeepsO.next ?_ | exact KeepsO.refused | refine KeepsO.ite ?_ ?_
        | refine State.onMessage_keeps (by decide) (fun _ _ => ?_) | refine Keeps.ite ?_ ?_
        | refine State.wr_keeps (by decide) ?_ | refine State.abortHand_keeps (by decide) ?_
        | refine State.modRed_keeps (by decide) ?_ | refine State.applyMirror_keeps (by decide) ?_
        | refine State.clearHand_keeps (by decide) ?_ | refine State.tryReady_keeps (by decide) ?_
        | refine State.followHead_keeps (by decide) ?_ | refine Keeps.foldl ?_ (fun _ _ _ => ?_) | dsimp only
    | split

theorem execRedCmdAbort_keeps {a0} : KeepsO 0x384f4d7d6 a0 (execRedCmdAbort a0) := by
  have h := Keeps.refl (M := 0x384f4d7d6) a0
  unfold execRedCmdAbort
  repeat' first
    | with_reducible first
        | assumption | refine KeepsO.next ?_ | exact KeepsO.refused | refine KeepsO.byHost ?_ | refine KeepsO.ite ?_ ?_
        | refine Keeps.ite ?_ ?_ | refine State.redStatus_keeps (by decide) ?_ | refine State.abortHand_keeps (by decide) ?_
        | dsimp only
    | split

theorem execRedCmdActivate_keeps {a0} : KeepsO 0x384f4d7d6 a0 (execRedCmdActivate a0) := by
  have h := Keeps.refl (M := 0x384f4d7d6) a0
  unfold execRedCmdActivate
  repeat' first
    | with_reducible first
        | assumption | refine KeepsO.next ?_ | exact KeepsO.refused | refine KeepsO.byHost ?_ | refine KeepsO.ite ?_ ?_
        | refine Keeps.ite ?_ ?_ | refine State.redStatus_keeps (by decide) ?_ | refine State.takeOver_keeps (by decide) ?_
        | dsimp only
    | split

theorem execRedCmdHandover_keeps {a0} : KeepsO 0x800012 a0 (execRedCmdHandover a0) := by
  have h := Keeps.refl (M := 0x800012) a0
  unfold execRedCmdHandover
  repeat' first
    | with_reducible first
        | assumption | refine KeepsO.next ?_ | exact KeepsO.refused | refine KeepsO.byHost ?_ | refine KeepsO.ite ?_ ?_
        | refine Keeps.ite ?_ ?_ | refine State.redStatus_keeps (by decide) ?_
        | refine State.beginOutgoing_keeps (by decide) ?_ | refine State.sendPartner_keeps (by decide) ?_ | dsimp only
    | split

theorem execRedCmdStandby_keeps {a0} : KeepsO 0x384f4d7d6 a0 (execRedCmdStandby a0) := by
  have h := Keeps.refl (M := 0x384f4d7d6) a0
  unfold execRedCmdStandby
  repeat' first
    | with_reducible first
        | assumption | refine KeepsO.next ?_ | exact KeepsO.refused | refine KeepsO.byHost ?_ | refine KeepsO.ite ?_ ?_
        | refine Keeps.ite ?_ ?_ | refine State.redStatus_keeps (by decide) ?_ | refine State.settle_keeps (by decide) ?_
        | refine State.setRole_keeps (by decide) ?_ | refine State.setCond_keeps (by decide) ?_
        | refine State.modRed_keeps (by decide) ?_ | dsimp only
    | split

theorem execRelock_keeps {a0 a1} : KeepsO 0x384f4d7d6 a1 (execRelock a0 a1) := by
  have h := Keeps.refl (M := 0x384f4d7d6) a1
  unfold execRelock
  repeat' first
    | with_reducible first
        | assumption | refine KeepsO.next ?_ | exact KeepsO.refused | refine KeepsO.byHost ?_ | refine KeepsO.ite ?_ ?_
        | refine State.laneDown_keeps (by decide) ?_ | refine State.loseLock_keeps (by decide) ?_ | dsimp only

theorem execRevertRequested_keeps {a0} : KeepsO 0x384f4d7d6 a0 (execRevertRequested a0) := by
  have h := Keeps.refl (M := 0x384f4d7d6) a0
  unfold execRevertRequested
  repeat' first
    | with_reducible first
        | assumption | refine KeepsO.next ?_ | exact KeepsO.refused | refine KeepsO.ite ?_ ?_ | refine Keeps.ite ?_ ?_
        | refine State.beginIncoming_keeps (by decide) ?_ | refine State.raise_keeps (by decide) ?_
        | refine State.sendPartner_keeps (by decide) ?_ | dsimp only
    | split

theorem execRingHeartbeat_keeps {a0 a1 a2 a3 a4 a5 a6} : KeepsO 0x384f4d7d6 a6 (execRingHeartbeat a0 a1 a2 a3 a4 a5 a6) := by
  have h := Keeps.refl (M := 0x384f4d7d6) a6
  unfold execRingHeartbeat
  repeat' first
    | with_reducible first
        | assumption | refine KeepsO.next ?_ | exact KeepsO.refused | refine KeepsO.ite ?_ ?_
        | refine State.onMessage_keeps (by decide) (fun _ _ => ?_) | refine Keeps.ite ?_ ?_
        | refine State.strapInvalid_keeps (by decide) ?_ | refine State.heard_keeps (by decide) ?_ | dsimp only
    | split

theorem execRingPort_keeps {a0 a1 a2 a3} : KeepsO 0x800512 a3 (execRingPort a0 a1 a2 a3) := by
  have h := Keeps.refl (M := 0x800512) a3
  unfold execRingPort
  repeat' first
    | with_reducible first
        | assumption | refine KeepsO.next ?_ | exact KeepsO.refused | refine KeepsO.ite ?_ ?_ | refine Keeps.ite ?_ ?_
        | refine State.raise_keeps (by decide) ?_ | refine State.wr_keeps (by decide) ?_
        | refine State.healthDrop_keeps (by decide) ?_ | refine State.count_keeps (by decide) ?_ | dsimp only
    | split

theorem execRxDisable_keeps {a0 a1} : KeepsO 0x384f4d7d6 a1 (execRxDisable a0 a1) := by
  have h := Keeps.refl (M := 0x384f4d7d6) a1
  unfold execRxDisable
  repeat' first
    | with_reducible first
        | assumption | refine KeepsO.next ?_ | exact KeepsO.refused | refine KeepsO.byHost ?_ | refine KeepsO.ite ?_ ?_
        | refine State.laneDown_keeps (by decide) ?_ | refine State.disableRx_keeps (by decide) ?_
        | refine State.wr_keeps (by decide) ?_ | dsimp only
    | split

theorem execSlowBench_keeps {a0 a1 a2 a3 a4} : KeepsO 0x800512 a4 (execSlowBench a0 a1 a2 a3 a4) := by
  have h := Keeps.refl (M := 0x800512) a4
  unfold execSlowBench
  repeat' first
    | with_reducible first
        | assumption | refine KeepsO.next ?_ | exact KeepsO.refused | refine KeepsO.ite ?_ ?_
        | refine State.onMessage_keeps (by decide) (fun _ _ => ?_) | refine Keeps.ite ?_ ?_
        | refine State.wr_keeps (by decide) ?_ | refine State.modRed_keeps (by decide) ?_
        | refine State.count_keeps (by decide) ?_ | refine Keeps.foldl ?_ (fun _ _ _ => ?_)
        | refine Keeps.foldl_fst ?_ (fun _ _ _ => ?_) | dsimp only
    | split

theorem execSlowCheckpointSend_keeps {a0 a1} : KeepsO 0x182b017d2 a1 (execSlowCheckpointSend a0 a1) := by
  have h := Keeps.refl (M := 0x182b017d2) a1
  unfold execSlowCheckpointSend
  repeat' first
    | with_reducible first
        | assumption | refine KeepsO.next ?_ | exact KeepsO.refused | refine KeepsO.ite ?_ ?_ | refine Keeps.ite ?_ ?_
        | refine State.readWords_keeps (by decide) ?_ | refine State.sendPartner_keeps (by decide) ?_
        | refine State.modRed_keeps (by decide) ?_ | refine Keeps.foldl ?_ (fun _ _ _ => ?_)
        | refine Keeps.foldl_fst ?_ (fun _ _ _ => ?_) | refine Keeps.foldl_snd ?_ (fun _ _ _ => ?_) | dsimp only
    | split

theorem execTakeoverRestoreDone_keeps {a0 a1} : KeepsO 0x396f7d7f6 a1 (execTakeoverRestoreDone a0 a1) := by
  have h := Keeps.refl (M := 0x396f7d7f6) a1
  unfold execTakeoverRestoreDone
  repeat' first
    | with_reducible first
        | assumption | refine KeepsO.next ?_ | exact KeepsO.refused | refine KeepsO.ite ?_ ?_ | refine Keeps.ite ?_ ?_
        | refine State.wr_keeps (by decide) ?_ | refine State.readWords_keeps (by decide) ?_
        | refine State.restoreCold_keeps (by decide) ?_ | refine State.rereadSlot_keeps (by decide) ?_
        | refine State.restoreSlot_keeps (by decide) ?_ | refine State.restoreNone_keeps (by decide) ?_ | dsimp only
    | split

theorem execTakeoverWakeDone_keeps {a0} : KeepsO 0x4b00592 a0 (execTakeoverWakeDone a0) := by
  have h := Keeps.refl (M := 0x4b00592) a0
  unfold execTakeoverWakeDone
  repeat' first
    | with_reducible first
        | assumption | refine KeepsO.next ?_ | exact KeepsO.refused | refine KeepsO.ite ?_ ?_ | refine Keeps.ite ?_ ?_
        | refine State.wakeDone_keeps (by decide) ?_ | refine State.modRed_keeps (by decide) ?_
        | refine State.wr_keeps (by decide) ?_ | refine Keeps.foldl ?_ (fun _ _ _ => ?_)
        | refine Keeps.foldl_fst ?_ (fun _ _ _ => ?_) | dsimp only
    | split

theorem execUplinkFrame_keeps {a0 a1 a2 a3 a4} : KeepsO 0x384f5d7d6 a4 (execUplinkFrame a0 a1 a2 a3 a4) := by
  have h := Keeps.refl (M := 0x384f5d7d6) a4
  unfold execUplinkFrame
  repeat' first
    | with_reducible first
        | assumption | refine KeepsO.next ?_ | exact KeepsO.refused | refine KeepsO.ite ?_ ?_ | refine Keeps.ite ?_ ?_
        | refine State.askPoints_keeps (by decide) ?_ | refine State.uplink_keeps (by decide) ?_
        | refine State.demote_keeps (by decide) ?_ | dsimp only
    | split

end Sys2Proof.Machine
end

