-- ==== Sys2Proof/Laws/KeepsCfg.lean ====
section
/-! SUPPORT. What each operation of Machine/Cfg.lean keeps (Laws/Keeps.lean). -/

set_option Elab.async false

namespace Sys2Proof.Machine

theorem State.modCfg_keeps {M : Nat} {r s : State} {f : Cfg → Cfg} (hm : 0x2000000 ||| M = M) (h : Keeps M r s)
    (hk : KeptAt M 29 ((f s.cfg).keys = s.cfg.keys)) (hl : KeptAt M 30 ((f s.cfg).flash = s.cfg.flash))
    (hf : tabWf KeySlot.blank s.cfg.keys = true → tabWf KeySlot.blank (f s.cfg).keys = true) : Keeps M r (State.modCfg s f) := by
  refine h.trans ?_
  unfold State.modCfg
  exact Keeps.upd (.refl s) (hcfg := (KeptAt.mono hm (.inl (by decide) : KeptAt 0x2000000 25 _))) (hkeys := hk) (hflash := hl) (hKeyTab := hf)

theorem State.cfgAnswer_keeps {M : Nat} {r : State} {a0 a1} (hm : 0x10 ||| M = M) (h : Keeps M r a0) :
    Keeps M r (State.cfgAnswer a0 a1) := by
  refine h.next hm ?_
  clear h
  have h := Keeps.refl (M := 0x10) a0
  unfold State.cfgAnswer
  repeat' first
    | with_reducible first
        | assumption | refine Keeps.ite ?_ ?_ | refine State.wr_keeps (by decide) ?_ | dsimp only
    | split

theorem State.flashAccess_keeps {M : Nat} {r : State} {a0 a1 a2 a3} (hm : 0x2000410 ||| M = M) (h : Keeps M r a0) :
    Keeps M r (State.flashAccess a0 a1 a2 a3) := by
  refine h.next hm ?_
  clear h
  have h := Keeps.refl (M := 0x2000410) a0
  unfold State.flashAccess
  repeat' first
    | with_reducible first
        | assumption | refine Keeps.ite ?_ ?_
        | refine State.modCfg_keeps (by decide) ?_ (by first | exact .inl (by decide) | exact .inr rfl) (by first | exact .inl (by decide) | exact .inr rfl) (by first | exact (fun h => h) | exact (fun h => tabWf_tabSet h))
        | refine State.wr_keeps (by decide) ?_ | dsimp only
    | split
  all_goals with_reducible refine Keeps.upd ?_
  all_goals (repeat' first
    | with_reducible first
        | assumption | refine Keeps.ite ?_ ?_
        | refine State.modCfg_keeps (by decide) ?_ (by first | exact .inl (by decide) | exact .inr rfl) (by first | exact .inl (by decide) | exact .inr rfl) (by first | exact (fun h => h) | exact (fun h => tabWf_tabSet h))
        | refine State.wr_keeps (by decide) ?_ | dsimp only
    | split)

theorem State.flashEnds_keeps {M : Nat} {r : State} {a0 a1} (hm : 0x10 ||| M = M) (h : Keeps M r a0) :
    Keeps M r (State.flashEnds a0 a1) := by
  refine h.next hm ?_
  clear h
  have h := Keeps.refl (M := 0x10) a0
  unfold State.flashEnds
  repeat' first
    | with_reducible first
        | assumption | refine State.wr_keeps (by decide) ?_ | dsimp only

theorem State.flashCommand_keeps {M : Nat} {r : State} {a0 a1 a2 a3} (hm : 0x2000512 ||| M = M) (h : Keeps M r a0) :
    Keeps M r (State.flashCommand a0 a1 a2 a3) := by
  refine h.next hm ?_
  clear h
  have h := Keeps.refl (M := 0x2000512) a0
  unfold State.flashCommand
  repeat' first
    | with_reducible first
        | assumption | refine Keeps.ite ?_ ?_ | refine State.raise_keeps (by decide) ?_
        | refine State.flashEnds_keeps (by decide) ?_ | refine State.rejectWrite_keeps (by decide) ?_
        | refine State.modCfg_keeps (by decide) ?_ (by first | exact .inl (by decide) | exact .inr rfl) (by first | exact .inl (by decide) | exact .inr rfl) (by first | exact (fun h => h) | exact (fun h => tabWf_tabSet h))
        | refine State.wr_keeps (by decide) ?_ | dsimp only
    | split

theorem State.flashEffect_keeps {M : Nat} {r : State} {a0 a1} (hm : 0x42000000 ||| M = M) (h : Keeps M r a0) :
    Keeps M r (State.flashEffect a0 a1) := by
  refine h.next hm ?_
  clear h
  have h := Keeps.refl (M := 0x42000000) a0
  unfold State.flashEffect
  repeat' first
    | with_reducible first
        | assumption | refine Keeps.ite ?_ ?_
        | refine State.modCfg_keeps (by decide) ?_ (by first | exact .inl (by decide) | exact .inr rfl) (by first | exact .inl (by decide) | exact .inr rfl) (by first | exact (fun h => h) | exact (fun h => tabWf_tabSet h))
        | dsimp only
    | split

theorem State.recordError_keeps {M : Nat} {r : State} {a0 a1} (hm : 0x14 ||| M = M) (h : Keeps M r a0) :
    Keeps M r (State.recordError a0 a1) := by
  refine h.next hm ?_
  clear h
  have h := Keeps.refl (M := 0x14) a0
  unfold State.recordError
  repeat' first
    | with_reducible first
        | assumption | refine Keeps.ite ?_ ?_ | refine State.wr_keeps (by decide) ?_ | refine State.count_keeps (by decide) ?_
        | refine State.draw_keeps (by decide) ?_ | dsimp only
    | split

theorem State.loadFailed_keeps {M : Nat} {r : State} {a0 a1 a2} (hm : 0x516 ||| M = M) (h : Keeps M r a0) :
    Keeps M r (State.loadFailed a0 a1 a2) := by
  refine h.next hm ?_
  clear h
  have h := Keeps.refl (M := 0x516) a0
  unfold State.loadFailed
  repeat' first
    | with_reducible first
        | assumption | refine State.raise_keeps (by decide) ?_ | refine State.recordError_keeps (by decide) ?_ | dsimp only

theorem State.onSlot_keeps {M : Nat} {r s : State} {k f} (hm : 0x512 ||| M = M) (h : Keeps M r s)
    (hf : ∀ t, Keeps M r t → Keeps M r (f t)) : Keeps M r (State.onSlot s k f) := by
  unfold State.onSlot
  exact Keeps.ite (State.rejectWrite_keeps hm h) (hf _ (State.wr_keeps (by
    rw [← hm, ← Nat.or_assoc]; rfl) h))

theorem State.swapShape_keeps {M : Nat} {r : State} {a0 a1 a2} (hm : 0x200512 ||| M = M) (h : Keeps M r a0) :
    Keeps M r (State.swapShape a0 a1 a2) := by
  refine h.next hm ?_
  clear h
  have h := Keeps.refl (M := 0x200512) a0
  unfold State.swapShape
  repeat' first
    | with_reducible first
        | assumption
        | refine State.modOrd_keeps (by decide) ?_ (by first | exact (fun h => h) | exact (fun h => ⟨tabWf_tabSet (h.1), h.2⟩) | exact (fun h => ⟨tabWf_tabMod (h.1), h.2⟩) | exact (fun h => ⟨h.1, tabWf_tabSet (h.2.1), h.2.2⟩) | exact (fun h => ⟨h.1, tabWf_tabMod (h.2.1), h.2.2⟩) | exact (fun h => ⟨h.1, h.2.1, tabWf_tabSet (h.2.2)⟩) | exact (fun h => ⟨h.1, h.2.1, tabWf_tabMod (h.2.2)⟩) | exact (fun _ => ⟨rfl, rfl, rfl⟩))
        | refine State.raise_keeps (by decide) ?_ | refine State.wr_keeps (by decide) ?_
        | refine Keeps.foldl ?_ (fun _ _ _ => ?_) | dsimp only

theorem State.packageSeam_keeps {M : Nat} {r : State} {a0} (hm : 0xbb7d796 ||| M = M) (h : Keeps M r a0) :
    Keeps M r (State.packageSeam a0) := by
  refine h.next hm ?_
  clear h
  have h := Keeps.refl (M := 0xbb7d796) a0
  unfold State.packageSeam
  repeat' first
    | with_reducible first
        | assumption | refine Keeps.ite ?_ ?_ | refine State.raise_keeps (by decide) ?_ | refine State.wr_keeps (by decide) ?_
        | refine State.fabReplace_keeps (by decide) ?_ | refine State.showTables_keeps (by decide) ?_
        | refine State.swapShape_keeps (by decide) ?_ | refine State.rewire_keeps (by decide) ?_
        | refine State.count_keeps (by decide) ?_
        | refine State.modCfg_keeps (by decide) ?_ (by first | exact .inl (by decide) | exact .inr rfl) (by first | exact .inl (by decide) | exact .inr rfl) (by first | exact (fun h => h) | exact (fun h => tabWf_tabSet h))
        | refine Keeps.foldl ?_ (fun _ _ _ => ?_) | dsimp only
    | split
  all_goals with_reducible refine Keeps.upd ?_
  all_goals (repeat' first
    | with_reducible first
        | assumption | refine Keeps.ite ?_ ?_ | refine State.raise_keeps (by decide) ?_ | refine State.wr_keeps (by decide) ?_
        | refine State.fabReplace_keeps (by decide) ?_ | refine State.showTables_keeps (by decide) ?_
        | refine State.swapShape_keeps (by decide) ?_ | refine State.rewire_keeps (by decide) ?_
        | refine State.count_keeps (by decide) ?_
        | refine State.modCfg_keeps (by decide) ?_ (by first | exact .inl (by decide) | exact .inr rfl) (by first | exact .inl (by decide) | exact .inr rfl) (by first | exact (fun h => h) | exact (fun h => tabWf_tabSet h))
        | refine Keeps.foldl ?_ (fun _ _ _ => ?_) | dsimp only
    | split)

theorem State.redStart_keeps {M : Nat} {r : State} {a0} (hm : 0x801010 ||| M = M) (h : Keeps M r a0) :
    Keeps M r (State.redStart a0) := by
  refine h.next hm ?_
  clear h
  have h := Keeps.refl (M := 0x801010) a0
  unfold State.redStart
  repeat' first
    | with_reducible first
        | assumption | refine Keeps.ite ?_ ?_ | refine State.modRed_keeps (by decide) ?_
        | refine State.wr_keeps (by decide) ?_ | refine State.setCond_keeps (by decide) ?_
        | refine State.setSlot_keeps (by decide) ?_ | refine Keeps.foldl ?_ (fun _ _ _ => ?_) | dsimp only
    | split

theorem State.setKey_keeps {M : Nat} {r : State} {a0 a1 a2} (hm : 0x22000000 ||| M = M) (h : Keeps M r a0) :
    Keeps M r (State.setKey a0 a1 a2) := by
  refine h.next hm ?_
  clear h
  have h := Keeps.refl (M := 0x22000000) a0
  unfold State.setKey
  repeat' first
    | with_reducible first
        | assumption
        | refine State.modCfg_keeps (by decide) ?_ (by first | exact .inl (by decide) | exact .inr rfl) (by first | exact .inl (by decide) | exact .inr rfl) (by first | exact (fun h => h) | exact (fun h => tabWf_tabSet h))
        | dsimp only

theorem State.showFile_keeps {M : Nat} {r : State} {a0 a1} (hm : 0x10 ||| M = M) (h : Keeps M r a0) :
    Keeps M r (State.showFile a0 a1) := by
  refine h.next hm ?_
  clear h
  have h := Keeps.refl (M := 0x10) a0
  unfold State.showFile
  repeat' first
    | with_reducible first
        | assumption | refine State.wr_keeps (by decide) ?_ | refine Keeps.foldl ?_ (fun _ _ _ => ?_) | dsimp only

theorem State.startRole_keeps {M : Nat} {r : State} {a0} (hm : 0x384f5d7d6 ||| M = M) (h : Keeps M r a0) :
    Keeps M r (State.startRole a0) := by
  refine h.next hm ?_
  clear h
  have h := Keeps.refl (M := 0x384f5d7d6) a0
  unfold State.startRole
  repeat' first
    | with_reducible first
        | assumption | refine Keeps.ite ?_ ?_ | refine State.takeClaim_keeps (by decide) (by assumption) ?_
        | refine State.becomeActive_keeps (by decide) ?_ | refine State.raise_keeps (by decide) ?_
        | refine State.strapInvalid_keeps (by decide) ?_ | refine State.setRole_keeps (by decide) ?_
        | refine State.applyDomains_keeps (by decide) ?_ | dsimp only
    | split

theorem State.startImage_keeps {M : Nat} {r : State} {a0 a1 a2 a3 a4} (hm : 0x39ff7d7d6 ||| M = M) (h : Keeps M r a0) :
    Keeps M r (State.startImage a0 a1 a2 a3 a4) := by
  refine h.next hm ?_
  clear h
  have h := Keeps.refl (M := 0x39ff7d7d6) a0
  unfold State.startImage
  repeat' first
    | with_reducible first
        | assumption | refine Keeps.ite ?_ ?_
        | refine State.modCfg_keeps (by decide) ?_ (by first | exact .inl (by decide) | exact .inr rfl) (by first | exact .inl (by decide) | exact .inr rfl) (by first | exact (fun h => h) | exact (fun h => tabWf_tabSet h))
        | refine State.wr_keeps (by decide) ?_ | refine State.redStart_keeps (by decide) ?_
        | refine State.begin_keeps (by decide) ?_ | refine State.showFile_keeps (by decide) ?_
        | refine State.raise_keeps (by decide) ?_ | refine State.startRole_keeps (by decide) ?_ | dsimp only
    | split
  all_goals with_reducible refine Keeps.upd ?_
  all_goals (repeat' first
    | with_reducible first
        | assumption | refine Keeps.ite ?_ ?_
        | refine State.modCfg_keeps (by decide) ?_ (by first | exact .inl (by decide) | exact .inr rfl) (by first | exact .inl (by decide) | exact .inr rfl) (by first | exact (fun h => h) | exact (fun h => tabWf_tabSet h))
        | refine State.wr_keeps (by decide) ?_ | refine State.redStart_keeps (by decide) ?_
        | refine State.begin_keeps (by decide) ?_ | refine State.showFile_keeps (by decide) ?_
        | refine State.raise_keeps (by decide) ?_ | refine State.startRole_keeps (by decide) ?_ | dsimp only
    | split)

theorem State.tryImages_keeps {M : Nat} {r : State} {a0 a1 a2 a3 a4} (hm : 0x39ff7d7d6 ||| M = M) (h : Keeps M r a0) :
    Keeps M r (State.tryImages a0 a1 a2 a3 a4).1 := by
  refine h.next hm ?_
  clear h hm
  induction a4 generalizing a0 a1 a2 a3 with
  | nil =>
    have h := Keeps.refl (M := 0x39ff7d7d6) a0
    unfold State.tryImages
    repeat' first
      | with_reducible assumption
      | split
  | cons _ _ ih =>
    have h := Keeps.refl (M := 0x39ff7d7d6) a0
    unfold State.tryImages
    repeat' first
      | with_reducible first
          | assumption | refine Keeps.ite ?_ ?_ | refine Keeps.ite_fst ?_ ?_ | refine Keeps.ite_snd ?_ ?_
          | refine State.cfgAnswer_keeps (by decide) ?_ | refine State.startImage_keeps (by decide) ?_
          | refine State.loadFailed_keeps (by decide) ?_ | refine State.raise_keeps (by decide) ?_ | dsimp only
          | refine Keeps.trans ?_ (ih ..)
      | split
      | (cases ‹_ :: _ = _ :: _›; with_reducible refine Keeps.trans ?_ (ih ..))

theorem execFlashCommandDone_keeps {a0 a1} : KeepsO 0x42000512 a1 (execFlashCommandDone a0 a1) := by
  have h := Keeps.refl (M := 0x42000512) a1
  unfold execFlashCommandDone
  repeat' first
    | with_reducible first
        | assumption | refine KeepsO.next ?_ | exact KeepsO.refused | refine KeepsO.ite ?_ ?_ | refine Keeps.ite ?_ ?_
        | refine State.wr_keeps (by decide) ?_
        | refine State.modCfg_keeps (by decide) ?_ (by first | exact .inl (by decide) | exact .inr rfl) (by first | exact .inl (by decide) | exact .inr rfl) (by first | exact (fun h => h) | exact (fun h => tabWf_tabSet h))
        | refine State.showBoot_keeps (by decide) ?_ | refine State.flashEnds_keeps (by decide) ?_
        | refine State.flashEffect_keeps (by decide) ?_ | refine State.raise_keeps (by decide) ?_ | dsimp only
    | split

theorem execFlashDataAccess_keeps {a0 a1 a2 a3} : KeepsO 0x2000410 a3 (execFlashDataAccess a0 a1 a2 a3) := by
  have h := Keeps.refl (M := 0x2000410) a3
  unfold execFlashDataAccess
  repeat' first
    | with_reducible first
        | assumption | refine KeepsO.next ?_ | exact KeepsO.refused | refine KeepsO.byHost ?_
        | refine KeepsO.byReader (by decide) ?_ | refine KeepsO.ite ?_ ?_ | refine Keeps.ite ?_ ?_
        | refine State.flashAccess_keeps (by decide) ?_ | dsimp only
    | split

theorem execFlashEraseSector_keeps {a0} : KeepsO 0x2000512 a0 (execFlashEraseSector a0) := by
  have h := Keeps.refl (M := 0x2000512) a0
  unfold execFlashEraseSector
  repeat' first
    | with_reducible first
        | assumption | refine KeepsO.next ?_ | exact KeepsO.refused | refine KeepsO.byHost ?_ | refine KeepsO.ite ?_ ?_
        | refine State.flashCommand_keeps (by decide) ?_ | dsimp only

theorem execFlashProgramPage_keeps {a0} : KeepsO 0x2000512 a0 (execFlashProgramPage a0) := by
  have h := Keeps.refl (M := 0x2000512) a0
  unfold execFlashProgramPage
  repeat' first
    | with_reducible first
        | assumption | refine KeepsO.next ?_ | exact KeepsO.refused | refine KeepsO.byHost ?_ | refine KeepsO.ite ?_ ?_
        | refine State.flashCommand_keeps (by decide) ?_ | dsimp only

theorem execFlashReadPage_keeps {a0} : KeepsO 0x2000512 a0 (execFlashReadPage a0) := by
  have h := Keeps.refl (M := 0x2000512) a0
  unfold execFlashReadPage
  repeat' first
    | with_reducible first
        | assumption | refine KeepsO.next ?_ | exact KeepsO.refused | refine KeepsO.byHost ?_ | refine KeepsO.ite ?_ ?_
        | refine State.flashCommand_keeps (by decide) ?_ | dsimp only

theorem execKeyDataWrite_keeps {a0 a1} : KeepsO 0x2000010 a1 (execKeyDataWrite a0 a1) := by
  have h := Keeps.refl (M := 0x2000010) a1
  unfold execKeyDataWrite
  repeat' first
    | with_reducible first
        | assumption | refine KeepsO.next ?_ | exact KeepsO.refused | refine KeepsO.byHost ?_ | refine KeepsO.ite ?_ ?_
        | refine Keeps.ite ?_ ?_ | refine State.wr_keeps (by decide) ?_
        | refine State.modCfg_keeps (by decide) ?_ (by first | exact .inl (by decide) | exact .inr rfl) (by first | exact .inl (by decide) | exact .inr rfl) (by first | exact (fun h => h) | exact (fun h => tabWf_tabSet h))
        | dsimp only
    | split

theorem execKeyProgram_keeps {a0 a1} : KeepsO 0x22000512 a1 (execKeyProgram a0 a1) := by
  have h := Keeps.refl (M := 0x22000512) a1
  unfold execKeyProgram
  repeat' first
    | with_reducible first
        | assumption | refine KeepsO.next ?_ | exact KeepsO.refused | refine KeepsO.byHost ?_ | refine KeepsO.ite ?_ ?_
        | refine Keeps.ite ?_ ?_ | refine State.onSlot_keeps (by decide) ?_ (fun _ _ => ?_)
        | refine State.wr_keeps (by decide) ?_
        | refine State.modCfg_keeps (by decide) ?_ (by first | exact .inl (by decide) | exact .inr rfl) (by first | exact .inl (by decide) | exact .inr rfl) (by first | exact (fun h => h) | exact (fun h => tabWf_tabSet h))
        | refine State.setKey_keeps (by decide) ?_ | refine State.raise_keeps (by decide) ?_ | dsimp only
    | split

theorem execKeyRevoke_keeps {a0 a1} : KeepsO 0x22000512 a1 (execKeyRevoke a0 a1) := by
  have h := Keeps.refl (M := 0x22000512) a1
  unfold execKeyRevoke
  repeat' first
    | with_reducible first
        | assumption | refine KeepsO.next ?_ | exact KeepsO.refused | refine KeepsO.byHost ?_ | refine KeepsO.ite ?_ ?_
        | refine Keeps.ite ?_ ?_ | refine State.onSlot_keeps (by decide) ?_ (fun _ _ => ?_)
        | refine State.wr_keeps (by decide) ?_ | refine State.setKey_keeps (by decide) ?_
        | refine State.raise_keeps (by decide) ?_ | dsimp only
    | split

theorem execLoad_keeps {a0} : KeepsO 0x2000010 a0 (execLoad a0) := by
  have h := Keeps.refl (M := 0x2000010) a0
  unfold execLoad
  repeat' first
    | with_reducible first
        | assumption | refine KeepsO.next ?_ | exact KeepsO.refused | refine KeepsO.byHost ?_ | refine KeepsO.ite ?_ ?_
        | refine Keeps.ite ?_ ?_ | refine State.cfgAnswer_keeps (by decide) ?_
        | refine State.modCfg_keeps (by decide) ?_ (by first | exact .inl (by decide) | exact .inr rfl) (by first | exact .inl (by decide) | exact .inr rfl) (by first | exact (fun h => h) | exact (fun h => tabWf_tabSet h))
        | refine State.wr_keeps (by decide) ?_ | refine State.showBoot_keeps (by decide) ?_ | dsimp only
    | split

theorem execLoadComplete_keeps {a0 a1 a2} : KeepsO 0x39ff7d7d6 a2 (execLoadComplete a0 a1 a2) := by
  have h := Keeps.refl (M := 0x39ff7d7d6) a2
  unfold execLoadComplete
  repeat' first
    | with_reducible first
        | assumption | refine KeepsO.next ?_ | exact KeepsO.refused | refine KeepsO.ite ?_ ?_ | refine Keeps.ite ?_ ?_
        | refine State.modCfg_keeps (by decide) ?_ (by first | exact .inl (by decide) | exact .inr rfl) (by first | exact .inl (by decide) | exact .inr rfl) (by first | exact (fun h => h) | exact (fun h => tabWf_tabSet h))
        | refine State.loadFailed_keeps (by decide) ?_ | refine State.tryImages_keeps (by decide) ?_
        | refine State.wr_keeps (by decide) ?_ | refine State.sleepDomain_keeps (by decide) ?_
        | refine Keeps.foldl ?_ (fun _ _ _ => ?_) | refine Keeps.foldl_fst ?_ (fun _ _ _ => ?_)
        | refine Keeps.foldl_snd ?_ (fun _ _ _ => ?_) | dsimp only
    | split

theorem execLrArm_keeps {a0} : KeepsO 0x2000512 a0 (execLrArm a0) := by
  have h := Keeps.refl (M := 0x2000512) a0
  unfold execLrArm
  repeat' first
    | with_reducible first
        | assumption | refine KeepsO.next ?_ | exact KeepsO.refused | refine KeepsO.byHost ?_ | refine KeepsO.ite ?_ ?_
        | refine Keeps.ite ?_ ?_ | refine State.raise_keeps (by decide) ?_ | refine State.cfgAnswer_keeps (by decide) ?_
        | refine State.modCfg_keeps (by decide) ?_ (by first | exact .inl (by decide) | exact .inr rfl) (by first | exact .inl (by decide) | exact .inr rfl) (by first | exact (fun h => h) | exact (fun h => tabWf_tabSet h))
        | refine State.wr_keeps (by decide) ?_ | dsimp only
    | split

theorem execLrCancel_keeps {a0} : KeepsO 0x512 a0 (execLrCancel a0) := by
  have h := Keeps.refl (M := 0x512) a0
  unfold execLrCancel
  repeat' first
    | with_reducible first
        | assumption | refine KeepsO.next ?_ | exact KeepsO.refused | refine KeepsO.byHost ?_ | refine KeepsO.ite ?_ ?_
        | refine Keeps.ite ?_ ?_ | refine State.raise_keeps (by decide) ?_ | refine State.cfgAnswer_keeps (by decide) ?_
        | refine State.wr_keeps (by decide) ?_ | dsimp only
    | split

theorem execLrDiscard_keeps {a0} : KeepsO 0x2000512 a0 (execLrDiscard a0) := by
  have h := Keeps.refl (M := 0x2000512) a0
  unfold execLrDiscard
  repeat' first
    | with_reducible first
        | assumption | refine KeepsO.next ?_ | exact KeepsO.refused | refine KeepsO.byHost ?_ | refine KeepsO.ite ?_ ?_
        | refine Keeps.ite ?_ ?_ | refine State.raise_keeps (by decide) ?_
        | refine State.modCfg_keeps (by decide) ?_ (by first | exact .inl (by decide) | exact .inr rfl) (by first | exact .inl (by decide) | exact .inr rfl) (by first | exact (fun h => h) | exact (fun h => tabWf_tabSet h))
        | refine State.wr_keeps (by decide) ?_ | refine State.cfgAnswer_keeps (by decide) ?_ | dsimp only
    | split

theorem execLrStage_keeps {a0} : KeepsO 0x2000512 a0 (execLrStage a0) := by
  have h := Keeps.refl (M := 0x2000512) a0
  unfold execLrStage
  repeat' first
    | with_reducible first
        | assumption | refine KeepsO.next ?_ | exact KeepsO.refused | refine KeepsO.byHost ?_ | refine KeepsO.ite ?_ ?_
        | refine Keeps.ite ?_ ?_ | refine State.raise_keeps (by decide) ?_ | refine State.cfgAnswer_keeps (by decide) ?_
        | refine State.modCfg_keeps (by decide) ?_ (by first | exact .inl (by decide) | exact .inr rfl) (by first | exact .inl (by decide) | exact .inr rfl) (by first | exact (fun h => h) | exact (fun h => tabWf_tabSet h))
        | refine State.wr_keeps (by decide) ?_ | dsimp only
    | split

theorem execLrStageComplete_keeps {a0 a1} : KeepsO 0x2000516 a1 (execLrStageComplete a0 a1) := by
  have h := Keeps.refl (M := 0x2000516) a1
  unfold execLrStageComplete
  repeat' first
    | with_reducible first
        | assumption | refine KeepsO.next ?_ | exact KeepsO.refused | refine KeepsO.ite ?_ ?_
        | refine State.raise_keeps (by decide) ?_ | refine State.wr_keeps (by decide) ?_
        | refine State.recordError_keeps (by decide) ?_
        | refine State.modCfg_keeps (by decide) ?_ (by first | exact .inl (by decide) | exact .inr rfl) (by first | exact .inl (by decide) | exact .inr rfl) (by first | exact (fun h => h) | exact (fun h => tabWf_tabSet h))
        | dsimp only
    | split

theorem execVerify_keeps {a0} : KeepsO 0x2000010 a0 (execVerify a0) := by
  have h := Keeps.refl (M := 0x2000010) a0
  unfold execVerify
  repeat' first
    | with_reducible first
        | assumption | refine KeepsO.next ?_ | exact KeepsO.refused | refine KeepsO.byHost ?_ | refine KeepsO.ite ?_ ?_
        | refine Keeps.ite ?_ ?_ | refine State.cfgAnswer_keeps (by decide) ?_
        | refine State.modCfg_keeps (by decide) ?_ (by first | exact .inl (by decide) | exact .inr rfl) (by first | exact .inl (by decide) | exact .inr rfl) (by first | exact (fun h => h) | exact (fun h => tabWf_tabSet h))
        | refine State.showBoot_keeps (by decide) ?_ | dsimp only
    | split

theorem execVerifyComplete_keeps {a0 a1 a2} : KeepsO 0x2000516 a2 (execVerifyComplete a0 a1 a2) := by
  have h := Keeps.refl (M := 0x2000516) a2
  unfold execVerifyComplete
  repeat' first
    | with_reducible first
        | assumption | refine KeepsO.next ?_ | exact KeepsO.refused | refine KeepsO.ite ?_ ?_ | refine Keeps.ite ?_ ?_
        | refine State.modCfg_keeps (by decide) ?_ (by first | exact .inl (by decide) | exact .inr rfl) (by first | exact .inl (by decide) | exact .inr rfl) (by first | exact (fun h => h) | exact (fun h => tabWf_tabSet h))
        | refine State.loadFailed_keeps (by decide) ?_ | refine State.raise_keeps (by decide) ?_ | dsimp only
    | split

end Sys2Proof.Machine
end

