-- ==== Sys2Proof/Laws/KeepsPwr.lean ====
section
/-! SUPPORT. What each operation of Machine/Pwr.lean keeps (Laws/Keeps.lean). -/

set_option Elab.async false

namespace Sys2Proof.Machine

theorem State.powerDown_keeps {M : Nat} {r s : State} {p d} (hm : 0x39fffdff2 ||| M = M) (h : Keeps M r s) :
    Keeps M r (State.powerDown s p d) := by
  refine h.next hm ?_
  unfold State.powerDown
  exact State.wr_keeps (by decide) (Keeps.upd (.refl s) (hPoints := fun _ => ⟨rfl, rfl, rfl, rfl⟩)
    (hStaging := fun _ => ⟨Nat.zero_le _, Nat.zero_le _⟩) (hEvents := fun _ => Nat.zero_le _) (hArbiter := fun _ => rfl))

theorem State.assertReset_keeps {M : Nat} {r : State} {a0 a1} (hm : 0x39fffdff2 ||| M = M) (h : Keeps M r a0) :
    Keeps M r (State.assertReset a0 a1) := by
  refine h.next hm ?_
  clear h
  have h := Keeps.refl (M := 0x39fffdff2) a0
  unfold State.assertReset
  repeat' first
    | with_reducible first
        | assumption | refine Keeps.ite ?_ ?_ | refine State.wr_keeps (by decide) ?_
        | refine State.powerDown_keeps (by decide) ?_ | dsimp only
    | split

theorem State.latchCauses_keeps {M : Nat} {r : State} {a0 a1} (hm : 0x10 ||| M = M) (h : Keeps M r a0) :
    Keeps M r (State.latchCauses a0 a1) := by
  refine h.next hm ?_
  clear h
  have h := Keeps.refl (M := 0x10) a0
  unfold State.latchCauses
  repeat' first
    | with_reducible first
        | assumption | refine Keeps.ite ?_ ?_ | refine State.wr_keeps (by decide) ?_ | dsimp only
    | split

theorem State.boot_keeps {M : Nat} {r : State} {a0 a1} (hm : 0x2000596 ||| M = M) (h : Keeps M r a0) :
    Keeps M r (State.boot a0 a1) := by
  refine h.next hm ?_
  clear h
  have h := Keeps.refl (M := 0x2000596) a0
  unfold State.boot
  repeat' first
    | with_reducible first
        | assumption | refine Keeps.ite ?_ ?_ | refine State.latchCauses_keeps (by decide) ?_
        | refine State.draw_keeps (by decide) ?_ | refine State.wr_keeps (by decide) ?_
        | refine State.setDomain_keeps (by decide) ?_ | refine State.raise_keeps (by decide) ?_
        | refine State.rolePoints_keeps (by decide) ?_
        | refine State.modCfg_keeps (by decide) ?_ (by first | exact .inl (by decide) | exact .inr rfl) (by first | exact .inl (by decide) | exact .inr rfl) (by first | exact (fun h => h) | exact (fun h => tabWf_tabSet h))
        | refine State.showBoot_keeps (by decide) ?_ | refine Keeps.foldl ?_ (fun _ _ _ => ?_)
        | refine Keeps.foldl_fst ?_ (fun _ _ _ => ?_) | refine Keeps.foldl_snd ?_ (fun _ _ _ => ?_) | dsimp only
    | split

theorem State.goDormant_keeps {M : Nat} {r : State} {a0} (hm : 0x182b017d2 ||| M = M) (h : Keeps M r a0) :
    Keeps M r (State.goDormant a0) := by
  refine h.next hm ?_
  clear h
  have h := Keeps.refl (M := 0x182b017d2) a0
  unfold State.goDormant
  repeat' first
    | with_reducible first
        | assumption | refine State.setDomain_keeps (by decide) ?_ | refine State.raise_keeps (by decide) ?_
        | refine State.ringWrite_keeps (by decide) ?_ | refine Keeps.foldl ?_ (fun _ _ _ => ?_)
        | refine Keeps.forEach ?_ (fun _ _ _ => ?_) | dsimp only

theorem State.loseRetention_keeps {M : Nat} {r : State} {a0} (hm : 0x2800010 ||| M = M) (h : Keeps M r a0) :
    Keeps M r (State.loseRetention a0) := by
  refine h.next hm ?_
  clear h
  have h := Keeps.refl (M := 0x2800010) a0
  unfold State.loseRetention
  repeat' first
    | with_reducible first
        | assumption | refine Keeps.ite ?_ ?_
        | refine State.modCfg_keeps (by decide) ?_ (by first | exact .inl (by decide) | exact .inr rfl) (by first | exact .inl (by decide) | exact .inr rfl) (by first | exact (fun h => h) | exact (fun h => tabWf_tabSet h))
        | refine State.setSlot_keeps (by decide) ?_ | refine State.wr_keeps (by decide) ?_
        | refine State.modRed_keeps (by decide) ?_ | dsimp only
    | split

theorem State.powerOn_keeps {M : Nat} {r s : State} (hm : 0x39ffffff2 ||| M = M) (h : Keeps M r s) :
    Keeps M r (State.powerOn s) := by
  refine h.next hm ?_
  unfold State.powerOn
  exact State.wr_keeps (by decide) (Keeps.upd (.refl s) (hRegs := fun _ => by decide) (hPoints := fun _ => ⟨rfl, rfl, rfl, rfl⟩)
    (hStaging := fun _ => ⟨Nat.zero_le _, Nat.zero_le _⟩) (hEvents := fun _ => Nat.zero_le _) (hArbiter := fun _ => rfl))

theorem State.setRequest_keeps {M : Nat} {r : State} {a0 a1 a2} (hm : 0x10 ||| M = M) (h : Keeps M r a0) :
    Keeps M r (State.setRequest a0 a1 a2) := by
  refine h.next hm ?_
  clear h
  have h := Keeps.refl (M := 0x10) a0
  unfold State.setRequest
  repeat' first
    | with_reducible first
        | assumption | refine Keeps.ite ?_ ?_ | refine State.wr_keeps (by decide) ?_
        | refine State.setBit_keeps (by decide) ?_ | dsimp only
    | split

theorem State.request_keeps {M : Nat} {r : State} {a0 a1 a2} (hm : 0x384f0d7d6 ||| M = M) (h : Keeps M r a0) :
    Keeps M r (State.request a0 a1 a2) := by
  refine h.next hm ?_
  clear h
  have h := Keeps.refl (M := 0x384f0d7d6) a0
  unfold State.request
  repeat' first
    | with_reducible first
        | assumption | refine Keeps.ite ?_ ?_ | refine State.setRequest_keeps (by decide) ?_
        | refine State.wakeDomain_keeps (by decide) ?_ | refine State.sleepDomain_keeps (by decide) ?_
        | refine State.count_keeps (by decide) ?_ | refine State.wr_keeps (by decide) ?_
        | refine State.raise_keeps (by decide) ?_ | dsimp only
    | split

theorem State.temperature_keeps {M : Nat} {r : State} {a0 a1} (hm : 0x10 ||| M = M) (h : Keeps M r a0) :
    Keeps M r (State.temperature a0 a1) := by
  refine h.next hm ?_
  clear h
  have h := Keeps.refl (M := 0x10) a0
  unfold State.temperature
  repeat' first
    | with_reducible first
        | assumption | refine Keeps.ite ?_ ?_ | refine State.wr_keeps (by decide) ?_ | dsimp only
    | split

theorem execBrownout_keeps {a0} : KeepsO 0x39fffdff2 a0 (execBrownout a0) := by
  have h := Keeps.refl (M := 0x39fffdff2) a0
  unfold execBrownout
  repeat' first
    | with_reducible first
        | assumption | refine KeepsO.next ?_ | exact KeepsO.refused | refine KeepsO.ite ?_ ?_ | refine Keeps.ite ?_ ?_
        | refine State.setBit_keeps (by decide) ?_ | refine State.count_keeps (by decide) ?_
        | refine State.modPwr_keeps (by decide) ?_ | refine State.assertReset_keeps (by decide) ?_ | dsimp only
    | split

theorem execDomainFault_keeps {a0 a1} : KeepsO 0x384f4d7d6 a1 (execDomainFault a0 a1) := by
  have h := Keeps.refl (M := 0x384f4d7d6) a1
  unfold execDomainFault
  repeat' first
    | with_reducible first
        | assumption | refine KeepsO.next ?_ | exact KeepsO.refused | refine KeepsO.ite ?_ ?_ | refine Keeps.ite ?_ ?_
        | refine State.modPwr_keeps (by decide) ?_ | refine State.raise_keeps (by decide) ?_
        | refine State.setBit_keeps (by decide) ?_ | refine State.setDomain_keeps (by decide) ?_
        | refine State.setRole_keeps (by decide) ?_ | refine State.modRed_keeps (by decide) ?_ | dsimp only
    | split

theorem execDomainRequest_keeps {a0 a1} : KeepsO 0x384f0d7d6 a1 (execDomainRequest a0 a1) := by
  have h := Keeps.refl (M := 0x384f0d7d6) a1
  unfold execDomainRequest
  repeat' first
    | with_reducible first
        | assumption | refine KeepsO.next ?_ | exact KeepsO.refused | refine KeepsO.byHost ?_ | refine KeepsO.ite ?_ ?_
        | refine State.mirrorOf_keeps (by decide) ?_ | refine State.request_keeps (by decide) ?_
        | refine Keeps.foldl ?_ (fun _ _ _ => ?_) | refine Keeps.foldl_fst ?_ (fun _ _ _ => ?_) | dsimp only

theorem execDomainWakeDone_keeps {a0 a1} : KeepsO 0x4b00592 a1 (execDomainWakeDone a0 a1) := by
  have h := Keeps.refl (M := 0x4b00592) a1
  unfold execDomainWakeDone
  repeat' first
    | with_reducible first
        | assumption | refine KeepsO.next ?_ | exact KeepsO.refused | refine KeepsO.ite ?_ ?_ | refine Keeps.ite ?_ ?_
        | refine State.mirrorOf_keeps (by decide) ?_ | refine State.wakeDone_keeps (by decide) ?_ | dsimp only
    | split

theorem execDormantWake_keeps {a0 a1} : KeepsO 0x6000596 a1 (execDormantWake a0 a1) := by
  have h := Keeps.refl (M := 0x6000596) a1
  unfold execDormantWake
  repeat' first
    | with_reducible first
        | assumption | refine KeepsO.next ?_ | exact KeepsO.refused | refine KeepsO.ite ?_ ?_ | refine Keeps.ite ?_ ?_
        | refine State.wr_keeps (by decide) ?_ | refine State.boot_keeps (by decide) ?_
        | refine State.modPwr_keeps (by decide) ?_ | dsimp only
    | split

theorem execPllUnlock_keeps {a0 a1} : KeepsO 0x512 a1 (execPllUnlock a0 a1) := by
  have h := Keeps.refl (M := 0x512) a1
  unfold execPllUnlock
  repeat' first
    | with_reducible first
        | assumption | refine KeepsO.next ?_ | exact KeepsO.refused | refine KeepsO.ite ?_ ?_ | refine Keeps.ite ?_ ?_
        | refine State.raise_keeps (by decide) ?_ | refine State.count_keeps (by decide) ?_
        | refine State.wr_keeps (by decide) ?_ | dsimp only
    | split

theorem execPowerOnReset_keeps {a0} : KeepsO 0x39ffffff2 a0 (execPowerOnReset a0) := by
  have h := Keeps.refl (M := 0x39ffffff2) a0
  unfold execPowerOnReset
  repeat' first
    | with_reducible first
        | assumption | refine KeepsO.next ?_ | exact KeepsO.refused | refine KeepsO.ite ?_ ?_
        | refine State.wr_keeps (by decide) ?_ | refine State.powerOn_keeps (by decide) ?_ | dsimp only

theorem execPwrCmdDormant_keeps {a0 a1} : KeepsO 0x39fffdff2 a1 (execPwrCmdDormant a0 a1) := by
  have h := Keeps.refl (M := 0x39fffdff2) a1
  unfold execPwrCmdDormant
  repeat' first
    | with_reducible first
        | assumption | refine KeepsO.next ?_ | exact KeepsO.refused | refine KeepsO.byHost ?_ | refine KeepsO.ite ?_ ?_
        | refine Keeps.ite ?_ ?_ | refine State.wr_keeps (by decide) ?_ | refine State.goDormant_keeps (by decide) ?_
        | refine State.count_keeps (by decide) ?_ | refine State.powerDown_keeps (by decide) ?_ | dsimp only
    | split

theorem execPwrCmdReset_keeps {a0 a1} : KeepsO 0x39fffdff2 a1 (execPwrCmdReset a0 a1) := by
  have h := Keeps.refl (M := 0x39fffdff2) a1
  unfold execPwrCmdReset
  repeat' first
    | with_reducible first
        | assumption | refine KeepsO.next ?_ | exact KeepsO.refused | refine KeepsO.byHost ?_ | refine KeepsO.ite ?_ ?_
        | refine Keeps.ite ?_ ?_ | refine State.assertReset_keeps (by decide) ?_ | refine State.wr_keeps (by decide) ?_
        | dsimp only
    | split

theorem execResetHold200ms_keeps {a0} : KeepsO 0x4000000 a0 (execResetHold200ms a0) := by
  have h := Keeps.refl (M := 0x4000000) a0
  unfold execResetHold200ms
  repeat' first
    | with_reducible first
        | assumption | refine KeepsO.next ?_ | exact KeepsO.refused | refine KeepsO.ite ?_ ?_ | refine Keeps.ite ?_ ?_
        | refine State.modPwr_keeps (by decide) ?_ | dsimp only
    | split

theorem execResetReleased_keeps {a0 a1} : KeepsO 0x6000596 a1 (execResetReleased a0 a1) := by
  have h := Keeps.refl (M := 0x6000596) a1
  unfold execResetReleased
  repeat' first
    | with_reducible first
        | assumption | refine KeepsO.next ?_ | exact KeepsO.refused | refine KeepsO.ite ?_ ?_ | refine Keeps.ite ?_ ?_
        | refine State.wr_keeps (by decide) ?_ | refine State.modPwr_keeps (by decide) ?_
        | refine State.boot_keeps (by decide) ?_ | dsimp only
    | split

theorem execRetOff_keeps {a0 a1} : KeepsO 0x2800512 a1 (execRetOff a0 a1) := by
  have h := Keeps.refl (M := 0x2800512) a1
  unfold execRetOff
  repeat' first
    | with_reducible first
        | assumption | refine KeepsO.next ?_ | exact KeepsO.refused | refine KeepsO.byHost ?_ | refine KeepsO.ite ?_ ?_
        | refine Keeps.ite ?_ ?_ | refine State.rejectWrite_keeps (by decide) ?_
        | refine State.loseRetention_keeps (by decide) ?_ | refine State.setDomain_keeps (by decide) ?_
        | refine State.wr_keeps (by decide) ?_ | dsimp only
    | split

theorem execRetRefresh_keeps {a0 a1 a2} : KeepsO 0x512 a2 (execRetRefresh a0 a1 a2) := by
  have h := Keeps.refl (M := 0x512) a2
  unfold execRetRefresh
  repeat' first
    | with_reducible first
        | assumption | refine KeepsO.next ?_ | exact KeepsO.refused | refine KeepsO.ite ?_ ?_ | refine Keeps.ite ?_ ?_
        | refine State.temperature_keeps (by decide) ?_ | refine State.count_keeps (by decide) ?_
        | refine State.raise_keeps (by decide) ?_ | refine State.wr_keeps (by decide) ?_ | dsimp only
    | split

theorem execRstNAssert_keeps {a0} : KeepsO 0x39fffdff2 a0 (execRstNAssert a0) := by
  have h := Keeps.refl (M := 0x39fffdff2) a0
  unfold execRstNAssert
  repeat' first
    | with_reducible first
        | assumption | refine KeepsO.next ?_ | exact KeepsO.refused | refine KeepsO.ite ?_ ?_ | refine Keeps.ite ?_ ?_
        | refine State.count_keeps (by decide) ?_ | refine State.assertReset_keeps (by decide) ?_ | dsimp only
    | split

theorem execSupplyOutOfRange_keeps {a0 a1} : KeepsO 0x39ffffff2 a1 (execSupplyOutOfRange a0 a1) := by
  have h := Keeps.refl (M := 0x39ffffff2) a1
  unfold execSupplyOutOfRange
  repeat' first
    | with_reducible first
        | assumption | refine KeepsO.next ?_ | exact KeepsO.refused | refine KeepsO.ite ?_ ?_ | refine Keeps.ite ?_ ?_
        | refine State.modPwr_keeps (by decide) ?_ | refine State.powerOn_keeps (by decide) ?_
        | refine State.setBit_keeps (by decide) ?_ | refine State.wr_keeps (by decide) ?_ | dsimp only
    | split

theorem execTempHigh_keeps {a0 a1} : KeepsO 0x512 a1 (execTempHigh a0 a1) := by
  have h := Keeps.refl (M := 0x512) a1
  unfold execTempHigh
  repeat' first
    | with_reducible first
        | assumption | refine KeepsO.next ?_ | exact KeepsO.refused | refine KeepsO.ite ?_ ?_ | refine Keeps.ite ?_ ?_
        | refine State.temperature_keeps (by decide) ?_ | refine State.raise_keeps (by decide) ?_ | dsimp only
    | split

theorem execTempNormal_keeps {a0 a1} : KeepsO 0x512 a1 (execTempNormal a0 a1) := by
  have h := Keeps.refl (M := 0x512) a1
  unfold execTempNormal
  repeat' first
    | with_reducible first
        | assumption | refine KeepsO.next ?_ | exact KeepsO.refused | refine KeepsO.ite ?_ ?_ | refine Keeps.ite ?_ ?_
        | refine State.temperature_keeps (by decide) ?_ | refine State.raise_keeps (by decide) ?_ | dsimp only
    | split

end Sys2Proof.Machine
end

