-- ==== Sys2Proof/Laws/KeepsView.lean ====
section
/-! SUPPORT. What each operation of Machine/View.lean keeps (Laws/Keeps.lean). -/

set_option Elab.async false

namespace Sys2Proof.Machine

theorem State.fieldRead_keeps {M : Nat} {r : State} {a0 a1 a2} (hm : 0x4 ||| M = M) (h : Keeps M r a0) :
    Keeps M r (State.fieldRead a0 a1 a2).2 := by
  refine h.next hm ?_
  clear h
  have h := Keeps.refl (M := 0x4) a0
  unfold State.fieldRead
  repeat' first
    | with_reducible first
        | assumption | refine Keeps.ite ?_ ?_ | refine Keeps.ite_fst ?_ ?_ | refine Keeps.ite_snd ?_ ?_
        | refine State.draw_keeps (by decide) ?_ | dsimp only
    | split

end Sys2Proof.Machine
end

