-- ==== Sys2Proof/Laws/KeepsAccess.lean ====
section
/-! SUPPORT. What each operation of Machine/Access.lean keeps (Laws/Keeps.lean). -/

set_option Elab.async false

namespace Sys2Proof.Machine

theorem State.adcRefused_keeps {M : Nat} {r s t : State} {a i v} (hm : 0x512 ||| M = M) (ht : State.adcRefused s a i v = some t)
    (h : Keeps M r s) : Keeps M r t := by
  refine h.next hm ?_
  clear h hm
  revert t
  show KeepsP 0x512 s _
  unfold State.adcRefused
  dsimp only
  split
  · split
    · rename_i hu
      exact KeepsP.some (State.coreHeld_keeps (by decide) hu (.refl s))
    · refine KeepsP.ite (KeepsP.some ?_) KeepsP.none
      exact Keeps.ite (State.rejectWrite_keeps (by decide) (State.wr_keeps (by decide) (.refl s))) (State.wr_keeps (by decide) (.refl s))
  · refine KeepsP.ite ?_ KeepsP.none
    cases s.heldBy 4 i with
    | none => exact KeepsP.none
    | some h => exact KeepsP.some (State.raise_keeps (by decide) (.refl s))

theorem State.afterRead_keeps {M : Nat} {r : State} {a0 a1 a2 a3} (hm : 0x10 ||| M = M) (h : Keeps M r a0) :
    Keeps M r (State.afterRead a0 a1 a2 a3) := by
  refine h.next hm ?_
  clear h
  have h := Keeps.refl (M := 0x10) a0
  unfold State.afterRead
  repeat' first
    | with_reducible first
        | assumption | refine Keeps.ite ?_ ?_ | refine State.wr_keeps (by decide) ?_ | dsimp only
    | split

theorem State.answer_keeps {M : Nat} {r : State} {a0 a1 a2 a3} (hm : 0x400 ||| M = M) (h : Keeps M r a0) :
    Keeps M r (State.answer a0 a1 a2 a3) := by
  refine h.next hm ?_
  clear h
  have h := Keeps.refl (M := 0x400) a0
  unfold State.answer
  repeat' first
    | with_reducible first
        | assumption | dsimp only
  all_goals with_reducible refine Keeps.upd ?_
  all_goals (repeat' first
    | with_reducible first
        | assumption | dsimp only)

theorem State.answerReg_keeps {M : Nat} {r : State} {a0 a1 a2 a3 a4} (hm : 0x400 ||| M = M) (h : Keeps M r a0) :
    Keeps M r (State.answerReg a0 a1 a2 a3 a4) := by
  refine h.next hm ?_
  clear h
  have h := Keeps.refl (M := 0x400) a0
  unfold State.answerReg
  repeat' first
    | with_reducible first
        | assumption | refine Keeps.ite ?_ ?_ | dsimp only
    | split
  all_goals with_reducible refine Keeps.upd ?_
  all_goals (repeat' first
    | with_reducible first
        | assumption | refine Keeps.ite ?_ ?_ | dsimp only
    | split)

theorem State.codeRefused_keeps {M : Nat} {r s t : State} {a v} (hm : 0x512 ||| M = M)
    (ht : State.codeRefused s a v = some t) (h : Keeps M r s) : Keeps M r t := by
  refine h.next hm ?_
  clear h hm
  revert t
  show KeepsP 0x512 s _
  unfold State.codeRefused
  dsimp only
  split
  · exact KeepsP.none
  · exact KeepsP.ite (KeepsP.some (State.wr_keeps (by decide) (.refl s)))
      (KeepsP.ite (KeepsP.some (State.rejectWrite_keeps (by decide) (.refl s))) KeepsP.none)

theorem State.drvWriteRefused_keeps {M : Nat} {r s t : State} {a c v} (hm : 0x512 ||| M = M)
    (ht : State.drvWriteRefused s a c v = some t) (h : Keeps M r s) : Keeps M r t := by
  refine h.next hm ?_
  clear h hm
  revert t
  show KeepsP 0x512 s _
  unfold State.drvWriteRefused
  refine KeepsP.ite (KeepsP.ite (KeepsP.some (State.drvRefuse_keeps (by decide) (.refl s))) KeepsP.none)
    (KeepsP.ite ?_ KeepsP.none)
  split
  · exact KeepsP.ite KeepsP.none (KeepsP.some (State.wr_keeps (by decide) (.refl s)))
  · exact KeepsP.none

theorem State.fieldsRead_keeps {M : Nat} {r : State} {a0 a1 a2} (hm : 0x4 ||| M = M) (h : Keeps M r a0) :
    Keeps M r (State.fieldsRead a0 a1 a2).2 := by
  refine h.next hm ?_
  clear h hm
  induction a2 generalizing a0 a1 with
  | nil =>
    have h := Keeps.refl (M := 0x4) a0
    unfold State.fieldsRead
    repeat' first
      | with_reducible assumption
      | split
  | cons _ _ ih =>
    have h := Keeps.refl (M := 0x4) a0
    unfold State.fieldsRead
    repeat' first
      | with_reducible first
          | assumption | refine State.fieldRead_keeps (by decide) ?_ | dsimp only | refine Keeps.trans ?_ (ih ..)
      | split
      | (cases ‹_ :: _ = _ :: _›; with_reducible refine Keeps.trans ?_ (ih ..))

theorem State.wordAt_keeps {M : Nat} {r : State} {a0 a1} (hm : 0x4 ||| M = M) (h : Keeps M r a0) :
    Keeps M r (State.wordAt a0 a1).2 := by
  refine h.next hm ?_
  clear h
  have h := Keeps.refl (M := 0x4) a0
  unfold State.wordAt
  repeat' first
    | with_reducible first
        | assumption | refine State.fieldsRead_keeps (by decide) ?_ | dsimp only

theorem State.readRegister_keeps {M : Nat} {r : State} {a0 a1 a2 a3} (hm : 0x414 ||| M = M) (h : Keeps M r a0) :
    Keeps M r (State.readRegister a0 a1 a2 a3) := by
  refine h.next hm ?_
  clear h
  have h := Keeps.refl (M := 0x414) a0
  unfold State.readRegister
  repeat' first
    | with_reducible first
        | assumption | refine Keeps.ite ?_ ?_ | refine State.answer_keeps (by decide) ?_
        | refine State.wordAt_keeps (by decide) ?_ | refine State.afterRead_keeps (by decide) ?_
        | refine State.answerReg_keeps (by decide) ?_ | refine Keeps.foldl ?_ (fun _ _ _ => ?_)
        | refine Keeps.foldl_fst ?_ (fun _ _ _ => ?_) | refine Keeps.foldl_snd ?_ (fun _ _ _ => ?_) | dsimp only
    | split
  all_goals with_reducible refine Keeps.upd ?_
  all_goals (repeat' first
    | with_reducible first
        | assumption | refine Keeps.ite ?_ ?_ | refine State.answer_keeps (by decide) ?_
        | refine State.wordAt_keeps (by decide) ?_ | refine State.afterRead_keeps (by decide) ?_
        | refine State.answerReg_keeps (by decide) ?_ | refine Keeps.foldl ?_ (fun _ _ _ => ?_)
        | refine Keeps.foldl_fst ?_ (fun _ _ _ => ?_) | refine Keeps.foldl_snd ?_ (fun _ _ _ => ?_) | dsimp only
    | split)

theorem State.hostRead_keeps {M : Nat} {r : State} {a0 a1 a2 a3 a4} (hm : 0x382b417d6 ||| M = M) (h : Keeps M r a0) :
    Keeps M r (State.hostRead a0 a1 a2 a3 a4) := by
  refine h.next hm ?_
  clear h
  have h := Keeps.refl (M := 0x382b417d6) a0
  unfold State.hostRead
  repeat' first
    | with_reducible first
        | assumption | refine Keeps.ite ?_ ?_ | refine State.drvCatchUp_keeps (by decide) ?_
        | refine State.arbitrate_keeps (by decide) ?_ | refine State.windowRead_keeps (by decide) ?_
        | refine State.answer_keeps (by decide) ?_ | refine State.refuseRead_keeps (by decide) ?_
        | refine State.flashAccess_keeps (by decide) ?_ | refine State.readRegister_keeps (by decide) ?_ | dsimp only
    | split

theorem State.msixStore_keeps {M : Nat} {r : State} {a0 a1 a2} (hm : 0x402 ||| M = M) (h : Keeps M r a0) :
    Keeps M r (State.msixStore a0 a1 a2) := by
  refine h.next hm ?_
  clear h
  have h := Keeps.refl (M := 0x402) a0
  unfold State.msixStore
  repeat' first
    | with_reducible first
        | assumption | refine Keeps.ite ?_ ?_ | refine State.unmask_keeps (by decide) ?_ | dsimp only
    | split
  all_goals with_reducible refine Keeps.upd ?_
  all_goals (repeat' first
    | with_reducible first
        | assumption | refine Keeps.ite ?_ ?_ | refine State.unmask_keeps (by decide) ?_ | dsimp only
    | split)

theorem State.stageRegister_keeps {M : Nat} {r : State} {a0 a1 a2} (hm : 0x552 ||| M = M) (h : Keeps M r a0) :
    Keeps M r (State.stageRegister a0 a1 a2) := by
  refine h.next hm ?_
  clear h
  have h := Keeps.refl (M := 0x552) a0
  unfold State.stageRegister
  repeat' first
    | with_reducible first
        | assumption | refine Keeps.ite ?_ ?_ | refine State.stage_keeps (by decide) ?_
        | refine State.rejectWrite_keeps (by decide) ?_ | dsimp only
    | split

theorem State.writeField_keeps {M : Nat} {r : State} {a0 a1 a2 a3 a4} (hm : 0x10 ||| M = M) (h : Keeps M r a0) :
    Keeps M r (State.writeField a0 a1 a2 a3 a4) := by
  refine h.next hm ?_
  clear h
  have h := Keeps.refl (M := 0x10) a0
  unfold State.writeField
  repeat' first
    | with_reducible first
        | assumption | refine State.wr_keeps (by decide) ?_ | dsimp only
    | split

theorem State.missCleared_keeps {M : Nat} {r : State} {a0 a1 a2 a3} (hm : 0x10 ||| M = M) (h : Keeps M r a0) :
    Keeps M r (State.missCleared a0 a1 a2 a3) := by
  refine h.next hm ?_
  clear h
  have h := Keeps.refl (M := 0x10) a0
  unfold State.missCleared
  repeat' first
    | with_reducible first
        | assumption | refine Keeps.ite ?_ ?_ | refine State.setBit_keeps (by decide) ?_
        | refine State.wr_keeps (by decide) ?_ | refine Keeps.forEach ?_ (fun _ _ _ => ?_) | dsimp only
    | split

theorem State.writeFollows_keeps {M : Nat} {r : State} {a0 a1 a2 a3 a4} (hm : 0x384f4dfd6 ||| M = M) (h : Keeps M r a1) :
    Keeps M r (State.writeFollows a0 a1 a2 a3 a4) := by
  refine h.next hm ?_
  clear h
  have h := Keeps.refl (M := 0x384f4dfd6) a1
  unfold State.writeFollows
  repeat' first
    | with_reducible first
        | assumption | refine Keeps.ite ?_ ?_ | refine State.wr_keeps (by decide) ?_
        | refine State.svEnable_keeps (by decide) ?_ | refine State.pcsRestart_keeps (by decide) ?_
        | refine State.setPort_keeps (by decide) ?_ | refine State.laneDown_keeps (by decide) ?_
        | refine State.disableRx_keeps (by decide) ?_ | refine State.showLane_keeps (by decide) ?_
        | refine State.missCleared_keeps (by decide) ?_ | refine State.refreshGraphs_keeps (by decide) ?_
        | refine State.applyDomains_keeps (by decide) ?_ | dsimp only
    | split
  all_goals with_reducible refine Keeps.upd ?_
  all_goals (repeat' first
    | with_reducible first
        | assumption | refine Keeps.ite ?_ ?_ | refine State.wr_keeps (by decide) ?_
        | refine State.svEnable_keeps (by decide) ?_ | refine State.pcsRestart_keeps (by decide) ?_
        | refine State.setPort_keeps (by decide) ?_ | refine State.laneDown_keeps (by decide) ?_
        | refine State.disableRx_keeps (by decide) ?_ | refine State.showLane_keeps (by decide) ?_
        | refine State.missCleared_keeps (by decide) ?_ | refine State.refreshGraphs_keeps (by decide) ?_
        | refine State.applyDomains_keeps (by decide) ?_ | dsimp only
    | split)

theorem State.writeRefused_keeps {M : Nat} {r s t : State} {a i v} (hm : 0x512 ||| M = M)
    (ht : State.writeRefused s a i v = some t) (h : Keeps M r s) : Keeps M r t := by
  refine h.next hm ?_
  clear h hm
  revert t
  show KeepsP 0x512 s _
  unfold State.writeRefused
  refine KeepsP.ite (KeepsP.ite (KeepsP.some (State.rejectWrite_keeps (by decide) (.refl s))) KeepsP.none)
    (KeepsP.ite (fun t ht => State.adcRefused_keeps (by decide) ht (.refl s))
      (KeepsP.ite (fun t ht => State.drvWriteRefused_keeps (by decide) ht (.refl s))
        (KeepsP.ite (KeepsP.ite (KeepsP.some (State.retireRefused_keeps (by decide) (.refl s))) KeepsP.none)
          (KeepsP.ite (KeepsP.ite (KeepsP.some (State.rejectWrite_keeps (by decide) (.refl s))) KeepsP.none) KeepsP.none))))

theorem State.writeAtOnce_keeps {M : Nat} {r : State} {a0 a1 a2 a3} (hm : 0x384f4dfd6 ||| M = M) (h : Keeps M r a0) :
    Keeps M r (State.writeAtOnce a0 a1 a2 a3) := by
  refine h.next hm ?_
  clear h
  have h := Keeps.refl (M := 0x384f4dfd6) a0
  unfold State.writeAtOnce
  repeat' first
    | with_reducible first
        | assumption | refine Keeps.ite ?_ ?_ | refine State.writeRefused_keeps (by decide) (by assumption) ?_
        | refine State.rejectWrite_keeps (by decide) ?_ | refine State.writeFollows_keeps (by decide) ?_
        | refine State.writeField_keeps (by decide) ?_ | refine State.markReg_keeps (by decide) ?_
        | refine Keeps.foldl ?_ (fun _ _ _ => ?_) | dsimp only
    | split

theorem State.hostWrite_keeps {M : Nat} {r : State} {a0 a1 a2 a3 a4 a5} (hm : 0x386f4dfd6 ||| M = M) (h : Keeps M r a0) :
    Keeps M r (State.hostWrite a0 a1 a2 a3 a4 a5) := by
  refine h.next hm ?_
  clear h
  have h := Keeps.refl (M := 0x386f4dfd6) a0
  unfold State.hostWrite
  repeat' first
    | with_reducible first
        | assumption | refine Keeps.ite ?_ ?_ | refine State.rejectWrite_keeps (by decide) ?_
        | refine State.accessError_keeps (by decide) ?_ | refine State.msixStore_keeps (by decide) ?_
        | refine State.flashAccess_keeps (by decide) ?_ | refine State.codeRefused_keeps (by decide) (by assumption) ?_
        | refine State.adcAdvance_keeps (by decide) ?_ | refine State.drvCatchUp_keeps (by decide) ?_
        | refine State.arbitrate_keeps (by decide) ?_ | refine State.stageRegister_keeps (by decide) ?_
        | refine State.writeAtOnce_keeps (by decide) ?_ | refine Keeps.foldl ?_ (fun _ _ _ => ?_) | dsimp only
    | split

theorem State.stagePoints_keeps {M : Nat} {r : State} {a0 a1 a2 a3 a4} (hm : 0x552 ||| M = M) (h : Keeps M r a0) :
    Keeps M r (State.stagePoints a0 a1 a2 a3 a4) := by
  refine h.next hm ?_
  clear h
  have h := Keeps.refl (M := 0x552) a0
  unfold State.stagePoints
  repeat' first
    | with_reducible first
        | assumption | refine Keeps.ite ?_ ?_ | refine State.rejectWrite_keeps (by decide) ?_
        | refine State.stage_keeps (by decide) ?_ | dsimp only
    | split

theorem execLatchingRead_keeps {a0 a1 a2 a3} : KeepsO 0x382b417d6 a3 (execLatchingRead a0 a1 a2 a3) := by
  have h := Keeps.refl (M := 0x382b417d6) a3
  unfold execLatchingRead
  repeat' first
    | with_reducible first
        | assumption | refine KeepsO.next ?_ | exact KeepsO.refused | refine KeepsO.byReader (by decide) ?_
        | refine KeepsO.ite ?_ ?_ | refine State.hostRead_keeps (by decide) ?_ | dsimp only

theorem execRcRead_keeps {a0 a1 a2 a3 a4} : KeepsO 0x382b417d6 a4 (execRcRead a0 a1 a2 a3 a4) := by
  have h := Keeps.refl (M := 0x382b417d6) a4
  unfold execRcRead
  repeat' first
    | with_reducible first
        | assumption | refine KeepsO.next ?_ | exact KeepsO.refused | refine KeepsO.byReader (by decide) ?_
        | refine KeepsO.ite ?_ ?_ | refine State.hostRead_keeps (by decide) ?_ | dsimp only

theorem execRegisterWrite_keeps {a0 a1 a2 a3 a4 a5} : KeepsO 0x386f4dfd6 a5 (execRegisterWrite a0 a1 a2 a3 a4 a5) := by
  have h := Keeps.refl (M := 0x386f4dfd6) a5
  unfold execRegisterWrite
  repeat' first
    | with_reducible first
        | assumption | refine KeepsO.next ?_ | exact KeepsO.refused | refine KeepsO.byHost ?_ | refine KeepsO.ite ?_ ?_
        | refine State.mirrorOf_keeps (by decide) ?_ | refine State.hostWrite_keeps (by decide) ?_ | dsimp only

theorem execStagedWrite_keeps {a0 a1} : KeepsO 0x386f4dfd6 a1 (execStagedWrite a0 a1) := by
  have h := Keeps.refl (M := 0x386f4dfd6) a1
  unfold execStagedWrite
  repeat' first
    | with_reducible first
        | assumption | refine KeepsO.next ?_ | exact KeepsO.refused | refine KeepsO.byHost ?_ | refine KeepsO.ite ?_ ?_
        | refine State.mirrorOf_keeps (by decide) ?_ | refine State.hostWrite_keeps (by decide) ?_
        | refine State.stagePoints_keeps (by decide) ?_ | dsimp only
    | split

theorem execUeAddrRead_keeps {a0 a1} : KeepsO 0x382b417d6 a1 (execUeAddrRead a0 a1) := by
  have h := Keeps.refl (M := 0x382b417d6) a1
  unfold execUeAddrRead
  repeat' first
    | with_reducible first
        | assumption | refine KeepsO.next ?_ | exact KeepsO.refused | refine KeepsO.byReader (by decide) ?_
        | refine KeepsO.ite ?_ ?_ | refine State.hostRead_keeps (by decide) ?_ | dsimp only

end Sys2Proof.Machine
end

