-- ==== Sys2Proof/Laws/KeepsSeam.lean ====
section
/-! SUPPORT. What each operation of Machine/Seam.lean keeps (Laws/Keeps.lean). -/

set_option Elab.async false

namespace Sys2Proof.Machine

theorem State.cellConds_keeps {M : Nat} {r : State} {a0 a1 a2} (hm : 0x5512 ||| M = M) (h : Keeps M r a0) :
    Keeps M r (State.cellConds a0 a1 a2) := by
  refine h.next hm ?_
  clear h
  have h := Keeps.refl (M := 0x5512) a0
  unfold State.cellConds
  repeat' first
    | with_reducible first
        | assumption | refine State.condCells_keeps (by decide) ?_ | dsimp only

theorem State.pinSeam_keeps {M : Nat} {r : State} {a0} (hm : 0x40 ||| M = M) (h : Keeps M r a0) :
    Keeps M r (State.pinSeam a0) := by
  refine h.next hm ?_
  clear h
  have h := Keeps.refl (M := 0x40) a0
  unfold State.pinSeam
  repeat' first
    | with_reducible first
        | assumption | dsimp only
  all_goals with_reducible refine Keeps.upd ?_
  all_goals (repeat' first
    | with_reducible first
        | assumption | dsimp only)

theorem State.redPoints_keeps {M : Nat} {r : State} {a0} (hm : 0x80000080 ||| M = M) (h : Keeps M r a0) :
    Keeps M r (State.redPoints a0) := by
  refine h.next hm ?_
  clear h
  have h := Keeps.refl (M := 0x80000080) a0
  unfold State.redPoints
  repeat' first
    | with_reducible first
        | assumption | refine State.setBoth_keeps (by decide) ?_ | dsimp only

theorem State.timePoints_keeps {M : Nat} {r : State} {a0} (hm : 0x80000080 ||| M = M) (h : Keeps M r a0) :
    Keeps M r (State.timePoints a0) := by
  refine h.next hm ?_
  clear h
  have h := Keeps.refl (M := 0x80000080) a0
  unfold State.timePoints
  repeat' first
    | with_reducible first
        | assumption | refine State.setBoth_keeps (by decide) ?_ | refine State.setBothFloat_keeps (by decide) ?_ | dsimp only

theorem State.blocksSeam_keeps {M : Nat} {r : State} {a0 a1 a2} (hm : 0x281f7d7d6 ||| M = M) (h : Keeps M r a0) :
    Keeps M r (State.blocksSeam a0 a1 a2) := by
  refine h.next hm ?_
  clear h
  have h := Keeps.refl (M := 0x281f7d7d6) a0
  unfold State.blocksSeam
  repeat' first
    | with_reducible first
        | assumption | refine Keeps.ite ?_ ?_ | refine State.statResetAt_keeps (by decide) ?_
        | refine State.pinSeam_keeps (by decide) ?_ | refine State.armSeam_keeps (by decide) ?_
        | refine State.unitSeam_keeps (by decide) ?_ | refine State.drvSeam_keeps (by decide) ?_
        | refine State.cellConds_keeps (by decide) ?_ | refine State.safSeam_keeps (by decide) ?_
        | refine State.reactSeam_keeps (by decide) ?_ | refine State.adcSeam_keeps (by decide) ?_
        | refine State.ordSeam_keeps (by decide) ?_ | refine State.laneSeam_keeps (by decide) ?_
        | refine State.redPoints_keeps (by decide) ?_ | refine State.timePoints_keeps (by decide) ?_
        | refine State.drSample_keeps (by decide) ?_ | refine Keeps.foldl ?_ (fun _ _ _ => ?_)
        | refine Keeps.foldl_fst ?_ (fun _ _ _ => ?_) | refine Keeps.foldl_snd ?_ (fun _ _ _ => ?_) | dsimp only
    | split

theorem State.clearCommands_keeps {M : Nat} {r : State} {a0} (hm : 0x10 ||| M = M) (h : Keeps M r a0) :
    Keeps M r (State.clearCommands a0) := by
  refine h.next hm ?_
  clear h
  have h := Keeps.refl (M := 0x10) a0
  unfold State.clearCommands
  repeat' first
    | with_reducible first
        | assumption | refine State.wr_keeps (by decide) ?_ | refine Keeps.foldl ?_ (fun _ _ _ => ?_) | dsimp only

theorem State.spoilCommit_keeps {M : Nat} {r : State} {a0 a1} (hm : 0x800000c0 ||| M = M) (h : Keeps M r a0) :
    Keeps M r (State.spoilCommit a0 a1) := by
  refine h.next hm ?_
  clear h hm
  induction a1 generalizing a0 with
  | point =>
    have h := Keeps.refl (M := 0x800000c0) a0
    unfold State.spoilCommit
    repeat' first
      | with_reducible first
          | assumption | refine State.poisonWork_keeps (by decide) ?_ | refine State.poisonPub_keeps (by decide) ?_
          | refine State.markReg_keeps (by decide) ?_ | dsimp only | refine Keeps.trans ?_ (ih ..)
      | split
  | reg =>
    have h := Keeps.refl (M := 0x800000c0) a0
    unfold State.spoilCommit
    repeat' first
      | with_reducible first
          | assumption | refine State.poisonWork_keeps (by decide) ?_ | refine State.poisonPub_keeps (by decide) ?_
          | refine State.markReg_keeps (by decide) ?_ | dsimp only | refine Keeps.trans ?_ (ih ..)
      | split
  | bad _ ih =>
    have h := Keeps.refl (M := 0x800000c0) a0
    unfold State.spoilCommit
    repeat' first
      | with_reducible first
          | assumption | refine State.poisonWork_keeps (by decide) ?_ | refine State.poisonPub_keeps (by decide) ?_
          | refine State.markReg_keeps (by decide) ?_ | dsimp only | refine Keeps.trans ?_ (ih ..)
      | split

theorem State.commitEntry_keeps {M : Nat} {r : State} {a0 a1} (hm : 0x800000d0 ||| M = M) (h : Keeps M r a0.1) :
    Keeps M r (State.commitEntry a0 a1).1 := by
  refine h.next hm ?_
  clear h hm
  induction a1 generalizing a0 with
  | point =>
    have h := Keeps.refl (M := 0x800000d0) a0.1
    unfold State.commitEntry
    repeat' first
      | with_reducible first
          | assumption | refine State.setBoth_keeps (by decide) ?_ | refine State.wr_keeps (by decide) ?_
          | refine State.markReg_keeps (by decide) ?_ | refine State.spoilCommit_keeps (by decide) ?_
          | refine Keeps.foldl ?_ (fun _ _ _ => ?_) | refine Keeps.foldl_fst ?_ (fun _ _ _ => ?_)
          | refine Keeps.foldl_snd ?_ (fun _ _ _ => ?_) | dsimp only | refine Keeps.trans ?_ (ih ..)
      | split
  | reg =>
    have h := Keeps.refl (M := 0x800000d0) a0.1
    unfold State.commitEntry
    repeat' first
      | with_reducible first
          | assumption | refine State.setBoth_keeps (by decide) ?_ | refine State.wr_keeps (by decide) ?_
          | refine State.markReg_keeps (by decide) ?_ | refine State.spoilCommit_keeps (by decide) ?_
          | refine Keeps.foldl ?_ (fun _ _ _ => ?_) | refine Keeps.foldl_fst ?_ (fun _ _ _ => ?_)
          | refine Keeps.foldl_snd ?_ (fun _ _ _ => ?_) | dsimp only | refine Keeps.trans ?_ (ih ..)
      | split
  | bad _ ih =>
    have h := Keeps.refl (M := 0x800000d0) a0.1
    unfold State.commitEntry
    repeat' first
      | with_reducible first
          | assumption | refine State.setBoth_keeps (by decide) ?_ | refine State.wr_keeps (by decide) ?_
          | refine State.markReg_keeps (by decide) ?_ | refine State.spoilCommit_keeps (by decide) ?_
          | refine Keeps.foldl ?_ (fun _ _ _ => ?_) | refine Keeps.foldl_fst ?_ (fun _ _ _ => ?_)
          | refine Keeps.foldl_snd ?_ (fun _ _ _ => ?_) | dsimp only | refine Keeps.trans ?_ (ih ..)
      | split

theorem State.commitFence_keeps {M : Nat} {r : State} {a0 a1} (hm : 0x800000d0 ||| M = M) (h : Keeps M r a0.1) :
    Keeps M r (State.commitFence a0 a1).1 := by
  refine h.next hm ?_
  clear h
  have h := Keeps.refl (M := 0x800000d0) a0.1
  unfold State.commitFence
  repeat' first
    | with_reducible first
        | assumption | refine State.commitEntry_keeps (by decide) ?_ | refine State.wr_keeps (by decide) ?_
        | refine State.wrPair_keeps (by decide) ?_ | refine Keeps.foldl ?_ (fun _ _ _ => ?_)
        | refine Keeps.foldl_fst ?_ (fun _ _ _ => ?_) | refine Keeps.foldl_snd ?_ (fun _ _ _ => ?_) | dsimp only

theorem sum_filter_le (l : List Fence) (p : Fence → Bool) :
    ((l.filter p).map (fun f => f.entries.length)).sum ≤ (l.map (fun f => f.entries.length)).sum := by
  induction l with
  | nil => exact Nat.le_refl _
  | cons x l ih =>
    simp only [List.filter_cons]
    split <;> simp only [List.map_cons, List.sum_cons] <;> omega

theorem State.dropDue_keeps {M : Nat} {r s : State} (hm : 0x40 ||| M = M) (h : Keeps M r s) : Keeps M r (State.dropDue s) := by
  refine h.next hm ?_
  unfold State.dropDue
  exact Keeps.upd (.refl s) (hStaging := fun hs =>
    ⟨Nat.le_trans (Nat.add_le_add_left (sum_filter_le _ _) _) hs.1, Nat.le_trans (List.length_filter_le _ _) hs.2⟩)

theorem State.shiftClocks_keeps {M : Nat} {r : State} {a0 a1} (hm : 0x1800000 ||| M = M) (h : Keeps M r a0) :
    Keeps M r (State.shiftClocks a0 a1) := by
  refine h.next hm ?_
  clear h
  have h := Keeps.refl (M := 0x1800000) a0
  unfold State.shiftClocks
  repeat' first
    | with_reducible first
        | assumption | dsimp only
  all_goals with_reducible refine Keeps.upd ?_
  all_goals (repeat' first
    | with_reducible first
        | assumption | dsimp only)

theorem State.stepTime_keeps {M : Nat} {r : State} {a0 a1} (hm : 0x1a5c070 ||| M = M) (h : Keeps M r a0) :
    Keeps M r (State.stepTime a0 a1) := by
  refine h.next hm ?_
  clear h
  have h := Keeps.refl (M := 0x1a5c070) a0
  unfold State.stepTime
  repeat' first
    | with_reducible first
        | assumption | refine Keeps.ite ?_ ?_ | refine State.shiftClocks_keeps (by decide) ?_
        | refine State.wrPair_keeps (by decide) ?_ | refine State.count_keeps (by decide) ?_
        | refine State.wr_keeps (by decide) ?_ | dsimp only
    | split
  all_goals with_reducible refine Keeps.upd ?_
  all_goals (repeat' first
    | with_reducible first
        | assumption | refine Keeps.ite ?_ ?_ | refine State.shiftClocks_keeps (by decide) ?_
        | refine State.wrPair_keeps (by decide) ?_ | refine State.count_keeps (by decide) ?_
        | refine State.wr_keeps (by decide) ?_ | dsimp only
    | split)

theorem State.commitSeam_keeps {M : Nat} {r : State} {a0} (hm : 0x81a5c5f2 ||| M = M) (h : Keeps M r a0) :
    Keeps M r (State.commitSeam a0).1 := by
  refine h.next hm ?_
  clear h
  have h := Keeps.refl (M := 0x81a5c5f2) a0
  unfold State.commitSeam
  repeat' first
    | with_reducible first
        | assumption | refine State.commitFence_keeps (by decide) ?_ | refine State.dropDue_keeps (by decide) ?_
        | refine State.stepTime_keeps (by decide) ?_ | refine State.raiseAt_keeps (by decide) ?_
        | refine Keeps.foldl ?_ (fun _ _ _ => ?_) | refine Keeps.foldl_fst ?_ (fun _ _ _ => ?_)
        | refine Keeps.foldl_snd ?_ (fun _ _ _ => ?_) | dsimp only
    | split

theorem State.enterEpoch_keeps {M : Nat} {r : State} {a0 a1 a2} (hm : 0x10000060 ||| M = M) (h : Keeps M r a0) :
    Keeps M r (State.enterEpoch a0 a1 a2) := by
  refine h.next hm ?_
  clear h
  have h := Keeps.refl (M := 0x10000060) a0
  unfold State.enterEpoch
  repeat' first
    | with_reducible first
        | assumption | dsimp only
  all_goals with_reducible refine Keeps.upd ?_
  all_goals (repeat' first
    | with_reducible first
        | assumption | dsimp only)

theorem State.fabricSeam_keeps {M : Nat} {r : State} {a0 a1} (hm : 0x901592 ||| M = M) (h : Keeps M r a0) :
    Keeps M r (State.fabricSeam a0 a1) := by
  refine h.next hm ?_
  clear h
  have h := Keeps.refl (M := 0x901592) a0
  unfold State.fabricSeam
  repeat' first
    | with_reducible first
        | assumption | refine State.fabEpoch_keeps (by decide) ?_ | refine State.fabEnables_keeps (by decide) ?_ | dsimp only

theorem State.fenceMarker_keeps {M : Nat} {r : State} {a0 a1 a2} (hm : 0x512 ||| M = M) (h : Keeps M r a0) :
    Keeps M r (State.fenceMarker a0 a1 a2) := by
  refine h.next hm ?_
  clear h
  have h := Keeps.refl (M := 0x512) a0
  unfold State.fenceMarker
  repeat' first
    | with_reducible first
        | assumption | refine Keeps.ite ?_ ?_ | refine State.raiseIn_keeps (by decide) ?_ | dsimp only
    | split
  all_goals with_reducible refine Keeps.upd ?_
  all_goals (repeat' first
    | with_reducible first
        | assumption | refine Keeps.ite ?_ ?_ | refine State.raiseIn_keeps (by decide) ?_ | dsimp only
    | split)

theorem State.publish_keeps {M : Nat} {r s : State} (hm : 0x80000080 ||| M = M) (h : Keeps M r s) : Keeps M r (State.publish s) := by
  refine h.next hm ?_
  unfold State.publish
  exact Keeps.upd (.refl s) (hPoints := fun hs => ⟨hs.1, hs.1, hs.2.2.1, hs.2.2.2⟩)

theorem State.publishSeam_keeps {M : Nat} {r : State} {a0} (hm : 0x80000592 ||| M = M) (h : Keeps M r a0) :
    Keeps M r (State.publishSeam a0) := by
  refine h.next hm ?_
  clear h
  have h := Keeps.refl (M := 0x80000592) a0
  unfold State.publishSeam
  repeat' first
    | with_reducible first
        | assumption | refine State.clearCommands_keeps (by decide) ?_ | refine State.fenceMarker_keeps (by decide) ?_
        | refine State.publish_keeps (by decide) ?_ | refine Keeps.foldl ?_ (fun _ _ _ => ?_) | dsimp only

theorem State.publishRead_keeps {M : Nat} {r : State} {a0 a1} (hm : 0x182b017d2 ||| M = M) (h : Keeps M r a0) :
    Keeps M r (State.publishRead a0 a1) := by
  refine h.next hm ?_
  clear h
  have h := Keeps.refl (M := 0x182b017d2) a0
  unfold State.publishRead
  repeat' first
    | with_reducible first
        | assumption | refine State.publishSeam_keeps (by decide) ?_ | refine State.spoilWord_keeps (by decide) ?_
        | refine State.reportWord_keeps (by decide) ?_ | refine Keeps.foldl ?_ (fun _ _ _ => ?_) | dsimp only

theorem State.sleepSeam_keeps {M : Nat} {r : State} {a0} (hm : 0x18512 ||| M = M) (h : Keeps M r a0) :
    Keeps M r (State.sleepSeam a0) := by
  refine h.next hm ?_
  clear h
  have h := Keeps.refl (M := 0x18512) a0
  unfold State.sleepSeam
  repeat' first
    | with_reducible first
        | assumption | refine State.laneSeam_keeps (by decide) ?_ | dsimp only

theorem State.seamStep_keeps {M : Nat} {r : State} {a0 a1} (hm : 0x39ff7d7f6 ||| M = M) (h : Keeps M r a0) :
    Keeps M r (State.seamStep a0 a1) := by
  refine h.next hm ?_
  clear h
  have h := Keeps.refl (M := 0x39ff7d7f6) a0
  unfold State.seamStep
  repeat' first
    | with_reducible first
        | assumption | refine Keeps.ite ?_ ?_ | refine State.modRed_keeps (by decide) ?_
        | refine State.wr_keeps (by decide) ?_ | refine State.adcAdvance_keeps (by decide) ?_
        | refine State.engineCounts_keeps (by decide) ?_ | refine State.catchPoints_keeps (by decide) ?_
        | refine State.lateReleases_keeps (by decide) ?_
        | refine State.modFab_keeps (by decide) ?_ (by first | exact (fun h => h) | exact Fab.initOps_ok | exact (fun h => ⟨tabWf_tabSet (h.1), h.2⟩) | exact (fun h => ⟨tabWf_tabMod (h.1), h.2⟩) | exact (fun h => ⟨h.1, tabWf_tabSet (h.2.1), h.2.2⟩) | exact (fun h => ⟨h.1, tabWf_tabMod (h.2.1), h.2.2⟩) | exact (fun h => ⟨h.1, h.2.1, tabWf_tabSet (h.2.2.1), h.2.2.2⟩) | exact (fun h => ⟨h.1, h.2.1, tabWf_tabMod (h.2.2.1), h.2.2.2⟩) | exact (fun h => ⟨h.1, h.2.1, h.2.2.1, tabWf_tabSet (h.2.2.2.1), h.2.2.2.2⟩) | exact (fun h => ⟨h.1, h.2.1, h.2.2.1, tabWf_tabMod (h.2.2.2.1), h.2.2.2.2⟩) | exact (fun h => ⟨h.1, h.2.1, h.2.2.1, h.2.2.2.1, tabWf_tabSet (h.2.2.2.2)⟩) | exact (fun h => ⟨h.1, h.2.1, h.2.2.1, h.2.2.2.1, tabWf_tabMod (h.2.2.2.2)⟩) | exact (fun h => ⟨h.1, h.2.1, h.2.2.1, h.2.2.2.1, tabWf_tabMap⟩) | exact (fun h => ⟨h.1, tabWf_tabDrop h.2.1, h.2.2⟩) | exact (fun h => ⟨h.1, h.2.1, rfl, rfl, rfl⟩) | exact (fun _ => ⟨rfl, rfl, rfl, rfl, rfl⟩))
        | refine State.enterEpoch_keeps (by decide) ?_ | refine State.handoverBefore_keeps (by decide) ?_
        | refine State.packageSeam_keeps (by decide) ?_ | refine State.publishRead_keeps (by decide) ?_
        | refine State.commitSeam_keeps (by decide) ?_ | refine State.fabricSeam_keeps (by decide) ?_
        | refine State.handoverIncoming_keeps (by decide) ?_ | refine State.takeoverSeam_keeps (by decide) ?_
        | refine State.mirrorOf_keeps (by decide) ?_ | refine State.ringSeam_keeps (by decide) ?_
        | refine State.blocksSeam_keeps (by decide) ?_ | refine State.checkpointSeam_keeps (by decide) ?_
        | refine State.handoverWait_keeps (by decide) ?_ | refine State.fabReleases_keeps (by decide) ?_
        | refine State.handoverOutgoing_keeps (by decide) ?_ | refine State.sleepSeam_keeps (by decide) ?_
        | refine State.dropDue_keeps (by decide) ?_ | refine State.healthSeam_keeps (by decide) ?_
        | refine State.signal_keeps (by decide) ?_ | dsimp only
    | split

theorem execSeam_keeps {a0 a1} : KeepsO 0x39ff7d7f6 a1 (execSeam a0 a1) := by
  have h := Keeps.refl (M := 0x39ff7d7f6) a1
  unfold execSeam
  repeat' first
    | with_reducible first
        | assumption | refine KeepsO.next ?_ | exact KeepsO.refused | refine KeepsO.ite ?_ ?_ | refine Keeps.ite ?_ ?_
        | refine State.seamStep_keeps (by decide) ?_ | dsimp only
    | split

end Sys2Proof.Machine
end

