-- ==== Sys2Proof/Laws/KeepsTick.lean ====
section
/-! SUPPORT. What each operation of Machine/Tick.lean keeps (Laws/Keeps.lean). -/

set_option Elab.async false

namespace Sys2Proof.Machine

theorem State.tick_keeps {M : Nat} {r : State} {a0} (hm : 0x200d415b6 ||| M = M) (h : Keeps M r a0) :
    Keeps M r (State.tick a0) := by
  refine h.next hm ?_
  clear h
  have h := Keeps.refl (M := 0x200d415b6) a0
  unfold State.tick
  repeat' first
    | with_reducible first
        | assumption | refine State.adcAdvance_keeps (by decide) ?_ | refine State.drvInstall_keeps (by decide) ?_
        | refine State.drvFlush_keeps (by decide) ?_ | refine State.lateReleases_keeps (by decide) ?_
        | refine State.arbitrate_keeps (by decide) ?_ | refine Keeps.foldl ?_ (fun _ _ _ => ?_)
        | refine Keeps.foldl_fst ?_ (fun _ _ _ => ?_) | dsimp only
  all_goals with_reducible refine Keeps.upd ?_
  all_goals (repeat' first
    | with_reducible first
        | assumption | refine State.adcAdvance_keeps (by decide) ?_ | refine State.drvInstall_keeps (by decide) ?_
        | refine State.drvFlush_keeps (by decide) ?_ | refine State.lateReleases_keeps (by decide) ?_
        | refine State.arbitrate_keeps (by decide) ?_ | refine Keeps.foldl ?_ (fun _ _ _ => ?_)
        | refine Keeps.foldl_fst ?_ (fun _ _ _ => ?_) | dsimp only)

end Sys2Proof.Machine
end

