-- ==== Sys2Proof/Laws/State.lean ====
section
/-! SUPPORT. One lemma per field per update: what each named update of a state leaves as it was, so that no proof unfolds a record
update. Where an operation decides what it changes (an event, a vector), the lemma comes from what it keeps. -/

set_option Elab.async false

namespace Sys2Proof.Machine

/-! State.wr -/

@[simp] theorem State.wr_pending (s : State) (f : Field) (i v : Nat) : (s.wr f i v).pending = s.pending := rfl
@[simp] theorem State.wr_wire (s : State) (f : Field) (i v : Nat) : (s.wr f i v).wire = s.wire := rfl
@[simp] theorem State.wr_free (s : State) (f : Field) (i v : Nat) : (s.wr f i v).free = s.free := rfl
@[simp] theorem State.wr_serial (s : State) (f : Field) (i v : Nat) : (s.wr f i v).serial = s.serial := rfl
@[simp] theorem State.wr_clk (s : State) (f : Field) (i v : Nat) : (s.wr f i v).clk = s.clk := rfl
@[simp] theorem State.wr_epo (s : State) (f : Field) (i v : Nat) : (s.wr f i v).epo = s.epo := rfl
@[simp] theorem State.wr_pts (s : State) (f : Field) (i v : Nat) : (s.wr f i v).pts = s.pts := rfl
@[simp] theorem State.wr_evq (s : State) (f : Field) (i v : Nat) : (s.wr f i v).evq = s.evq := rfl
@[simp] theorem State.wr_dr (s : State) (f : Field) (i v : Nat) : (s.wr f i v).dr = s.dr := rfl
@[simp] theorem State.wr_host (s : State) (f : Field) (i v : Nat) : (s.wr f i v).host = s.host := rfl
@[simp] theorem State.wr_eth (s : State) (f : Field) (i v : Nat) : (s.wr f i v).eth = s.eth := rfl
@[simp] theorem State.wr_conds (s : State) (f : Field) (i v : Nat) : (s.wr f i v).conds = s.conds := rfl
@[simp] theorem State.wr_jtag (s : State) (f : Field) (i v : Nat) : (s.wr f i v).jtag = s.jtag := rfl
@[simp] theorem State.wr_arms (s : State) (f : Field) (i v : Nat) : (s.wr f i v).arms = s.arms := rfl
@[simp] theorem State.wr_cells (s : State) (f : Field) (i v : Nat) : (s.wr f i v).cells = s.cells := rfl
@[simp] theorem State.wr_lanes (s : State) (f : Field) (i v : Nat) : (s.wr f i v).lanes = s.lanes := rfl
@[simp] theorem State.wr_units (s : State) (f : Field) (i v : Nat) : (s.wr f i v).units = s.units := rfl
@[simp] theorem State.wr_drv (s : State) (f : Field) (i v : Nat) : (s.wr f i v).drv = s.drv := rfl
@[simp] theorem State.wr_cal (s : State) (f : Field) (i v : Nat) : (s.wr f i v).cal = s.cal := rfl
@[simp] theorem State.wr_fab (s : State) (f : Field) (i v : Nat) : (s.wr f i v).fab = s.fab := rfl
@[simp] theorem State.wr_ord (s : State) (f : Field) (i v : Nat) : (s.wr f i v).ord = s.ord := rfl
@[simp] theorem State.wr_adc (s : State) (f : Field) (i v : Nat) : (s.wr f i v).adc = s.adc := rfl
@[simp] theorem State.wr_red (s : State) (f : Field) (i v : Nat) : (s.wr f i v).red = s.red := rfl
@[simp] theorem State.wr_saf (s : State) (f : Field) (i v : Nat) : (s.wr f i v).saf = s.saf := rfl
@[simp] theorem State.wr_cfg (s : State) (f : Field) (i v : Nat) : (s.wr f i v).cfg = s.cfg := rfl
@[simp] theorem State.wr_pwr (s : State) (f : Field) (i v : Nat) : (s.wr f i v).pwr = s.pwr := rfl
@[simp] theorem State.wr_bs (s : State) (f : Field) (i v : Nat) : (s.wr f i v).bs = s.bs := rfl
@[simp] theorem State.wr_arb (s : State) (f : Field) (i v : Nat) : (s.wr f i v).arb = s.arb := rfl

/-! State.add -/

@[simp] theorem State.add_pending (s : State) (f : Field) (i n : Nat) : (s.add f i n).pending = s.pending := rfl
@[simp] theorem State.add_wire (s : State) (f : Field) (i n : Nat) : (s.add f i n).wire = s.wire := rfl
@[simp] theorem State.add_free (s : State) (f : Field) (i n : Nat) : (s.add f i n).free = s.free := rfl
@[simp] theorem State.add_serial (s : State) (f : Field) (i n : Nat) : (s.add f i n).serial = s.serial := rfl
@[simp] theorem State.add_clk (s : State) (f : Field) (i n : Nat) : (s.add f i n).clk = s.clk := rfl
@[simp] theorem State.add_epo (s : State) (f : Field) (i n : Nat) : (s.add f i n).epo = s.epo := rfl
@[simp] theorem State.add_pts (s : State) (f : Field) (i n : Nat) : (s.add f i n).pts = s.pts := rfl
@[simp] theorem State.add_evq (s : State) (f : Field) (i n : Nat) : (s.add f i n).evq = s.evq := rfl
@[simp] theorem State.add_dr (s : State) (f : Field) (i n : Nat) : (s.add f i n).dr = s.dr := rfl
@[simp] theorem State.add_host (s : State) (f : Field) (i n : Nat) : (s.add f i n).host = s.host := rfl
@[simp] theorem State.add_eth (s : State) (f : Field) (i n : Nat) : (s.add f i n).eth = s.eth := rfl
@[simp] theorem State.add_conds (s : State) (f : Field) (i n : Nat) : (s.add f i n).conds = s.conds := rfl
@[simp] theorem State.add_jtag (s : State) (f : Field) (i n : Nat) : (s.add f i n).jtag = s.jtag := rfl
@[simp] theorem State.add_arms (s : State) (f : Field) (i n : Nat) : (s.add f i n).arms = s.arms := rfl
@[simp] theorem State.add_cells (s : State) (f : Field) (i n : Nat) : (s.add f i n).cells = s.cells := rfl
@[simp] theorem State.add_lanes (s : State) (f : Field) (i n : Nat) : (s.add f i n).lanes = s.lanes := rfl
@[simp] theorem State.add_units (s : State) (f : Field) (i n : Nat) : (s.add f i n).units = s.units := rfl
@[simp] theorem State.add_drv (s : State) (f : Field) (i n : Nat) : (s.add f i n).drv = s.drv := rfl
@[simp] theorem State.add_cal (s : State) (f : Field) (i n : Nat) : (s.add f i n).cal = s.cal := rfl
@[simp] theorem State.add_fab (s : State) (f : Field) (i n : Nat) : (s.add f i n).fab = s.fab := rfl
@[simp] theorem State.add_ord (s : State) (f : Field) (i n : Nat) : (s.add f i n).ord = s.ord := rfl
@[simp] theorem State.add_adc (s : State) (f : Field) (i n : Nat) : (s.add f i n).adc = s.adc := rfl
@[simp] theorem State.add_red (s : State) (f : Field) (i n : Nat) : (s.add f i n).red = s.red := rfl
@[simp] theorem State.add_saf (s : State) (f : Field) (i n : Nat) : (s.add f i n).saf = s.saf := rfl
@[simp] theorem State.add_cfg (s : State) (f : Field) (i n : Nat) : (s.add f i n).cfg = s.cfg := rfl
@[simp] theorem State.add_pwr (s : State) (f : Field) (i n : Nat) : (s.add f i n).pwr = s.pwr := rfl
@[simp] theorem State.add_bs (s : State) (f : Field) (i n : Nat) : (s.add f i n).bs = s.bs := rfl
@[simp] theorem State.add_arb (s : State) (f : Field) (i n : Nat) : (s.add f i n).arb = s.arb := rfl

/-! State.count -/

@[simp] theorem State.count_pending (s : State) (f : Field) (i : Nat) : (s.count f i).pending = s.pending := rfl
@[simp] theorem State.count_wire (s : State) (f : Field) (i : Nat) : (s.count f i).wire = s.wire := rfl
@[simp] theorem State.count_free (s : State) (f : Field) (i : Nat) : (s.count f i).free = s.free := rfl
@[simp] theorem State.count_serial (s : State) (f : Field) (i : Nat) : (s.count f i).serial = s.serial := rfl
@[simp] theorem State.count_clk (s : State) (f : Field) (i : Nat) : (s.count f i).clk = s.clk := rfl
@[simp] theorem State.count_epo (s : State) (f : Field) (i : Nat) : (s.count f i).epo = s.epo := rfl
@[simp] theorem State.count_pts (s : State) (f : Field) (i : Nat) : (s.count f i).pts = s.pts := rfl
@[simp] theorem State.count_evq (s : State) (f : Field) (i : Nat) : (s.count f i).evq = s.evq := rfl
@[simp] theorem State.count_dr (s : State) (f : Field) (i : Nat) : (s.count f i).dr = s.dr := rfl
@[simp] theorem State.count_host (s : State) (f : Field) (i : Nat) : (s.count f i).host = s.host := rfl
@[simp] theorem State.count_eth (s : State) (f : Field) (i : Nat) : (s.count f i).eth = s.eth := rfl
@[simp] theorem State.count_conds (s : State) (f : Field) (i : Nat) : (s.count f i).conds = s.conds := rfl
@[simp] theorem State.count_jtag (s : State) (f : Field) (i : Nat) : (s.count f i).jtag = s.jtag := rfl
@[simp] theorem State.count_arms (s : State) (f : Field) (i : Nat) : (s.count f i).arms = s.arms := rfl
@[simp] theorem State.count_cells (s : State) (f : Field) (i : Nat) : (s.count f i).cells = s.cells := rfl
@[simp] theorem State.count_lanes (s : State) (f : Field) (i : Nat) : (s.count f i).lanes = s.lanes := rfl
@[simp] theorem State.count_units (s : State) (f : Field) (i : Nat) : (s.count f i).units = s.units := rfl
@[simp] theorem State.count_drv (s : State) (f : Field) (i : Nat) : (s.count f i).drv = s.drv := rfl
@[simp] theorem State.count_cal (s : State) (f : Field) (i : Nat) : (s.count f i).cal = s.cal := rfl
@[simp] theorem State.count_fab (s : State) (f : Field) (i : Nat) : (s.count f i).fab = s.fab := rfl
@[simp] theorem State.count_ord (s : State) (f : Field) (i : Nat) : (s.count f i).ord = s.ord := rfl
@[simp] theorem State.count_adc (s : State) (f : Field) (i : Nat) : (s.count f i).adc = s.adc := rfl
@[simp] theorem State.count_red (s : State) (f : Field) (i : Nat) : (s.count f i).red = s.red := rfl
@[simp] theorem State.count_saf (s : State) (f : Field) (i : Nat) : (s.count f i).saf = s.saf := rfl
@[simp] theorem State.count_cfg (s : State) (f : Field) (i : Nat) : (s.count f i).cfg = s.cfg := rfl
@[simp] theorem State.count_pwr (s : State) (f : Field) (i : Nat) : (s.count f i).pwr = s.pwr := rfl
@[simp] theorem State.count_bs (s : State) (f : Field) (i : Nat) : (s.count f i).bs = s.bs := rfl
@[simp] theorem State.count_arb (s : State) (f : Field) (i : Nat) : (s.count f i).arb = s.arb := rfl

/-! State.setBit -/

@[simp] theorem State.setBit_pending (s : State) (f : Field) (i b : Nat) (v : Bool) : (s.setBit f i b v).pending = s.pending := rfl
@[simp] theorem State.setBit_wire (s : State) (f : Field) (i b : Nat) (v : Bool) : (s.setBit f i b v).wire = s.wire := rfl
@[simp] theorem State.setBit_free (s : State) (f : Field) (i b : Nat) (v : Bool) : (s.setBit f i b v).free = s.free := rfl
@[simp] theorem State.setBit_serial (s : State) (f : Field) (i b : Nat) (v : Bool) : (s.setBit f i b v).serial = s.serial := rfl
@[simp] theorem State.setBit_clk (s : State) (f : Field) (i b : Nat) (v : Bool) : (s.setBit f i b v).clk = s.clk := rfl
@[simp] theorem State.setBit_epo (s : State) (f : Field) (i b : Nat) (v : Bool) : (s.setBit f i b v).epo = s.epo := rfl
@[simp] theorem State.setBit_pts (s : State) (f : Field) (i b : Nat) (v : Bool) : (s.setBit f i b v).pts = s.pts := rfl
@[simp] theorem State.setBit_evq (s : State) (f : Field) (i b : Nat) (v : Bool) : (s.setBit f i b v).evq = s.evq := rfl
@[simp] theorem State.setBit_dr (s : State) (f : Field) (i b : Nat) (v : Bool) : (s.setBit f i b v).dr = s.dr := rfl
@[simp] theorem State.setBit_host (s : State) (f : Field) (i b : Nat) (v : Bool) : (s.setBit f i b v).host = s.host := rfl
@[simp] theorem State.setBit_eth (s : State) (f : Field) (i b : Nat) (v : Bool) : (s.setBit f i b v).eth = s.eth := rfl
@[simp] theorem State.setBit_conds (s : State) (f : Field) (i b : Nat) (v : Bool) : (s.setBit f i b v).conds = s.conds := rfl
@[simp] theorem State.setBit_jtag (s : State) (f : Field) (i b : Nat) (v : Bool) : (s.setBit f i b v).jtag = s.jtag := rfl
@[simp] theorem State.setBit_arms (s : State) (f : Field) (i b : Nat) (v : Bool) : (s.setBit f i b v).arms = s.arms := rfl
@[simp] theorem State.setBit_cells (s : State) (f : Field) (i b : Nat) (v : Bool) : (s.setBit f i b v).cells = s.cells := rfl
@[simp] theorem State.setBit_lanes (s : State) (f : Field) (i b : Nat) (v : Bool) : (s.setBit f i b v).lanes = s.lanes := rfl
@[simp] theorem State.setBit_units (s : State) (f : Field) (i b : Nat) (v : Bool) : (s.setBit f i b v).units = s.units := rfl
@[simp] theorem State.setBit_drv (s : State) (f : Field) (i b : Nat) (v : Bool) : (s.setBit f i b v).drv = s.drv := rfl
@[simp] theorem State.setBit_cal (s : State) (f : Field) (i b : Nat) (v : Bool) : (s.setBit f i b v).cal = s.cal := rfl
@[simp] theorem State.setBit_fab (s : State) (f : Field) (i b : Nat) (v : Bool) : (s.setBit f i b v).fab = s.fab := rfl
@[simp] theorem State.setBit_ord (s : State) (f : Field) (i b : Nat) (v : Bool) : (s.setBit f i b v).ord = s.ord := rfl
@[simp] theorem State.setBit_adc (s : State) (f : Field) (i b : Nat) (v : Bool) : (s.setBit f i b v).adc = s.adc := rfl
@[simp] theorem State.setBit_red (s : State) (f : Field) (i b : Nat) (v : Bool) : (s.setBit f i b v).red = s.red := rfl
@[simp] theorem State.setBit_saf (s : State) (f : Field) (i b : Nat) (v : Bool) : (s.setBit f i b v).saf = s.saf := rfl
@[simp] theorem State.setBit_cfg (s : State) (f : Field) (i b : Nat) (v : Bool) : (s.setBit f i b v).cfg = s.cfg := rfl
@[simp] theorem State.setBit_pwr (s : State) (f : Field) (i b : Nat) (v : Bool) : (s.setBit f i b v).pwr = s.pwr := rfl
@[simp] theorem State.setBit_bs (s : State) (f : Field) (i b : Nat) (v : Bool) : (s.setBit f i b v).bs = s.bs := rfl
@[simp] theorem State.setBit_arb (s : State) (f : Field) (i b : Nat) (v : Bool) : (s.setBit f i b v).arb = s.arb := rfl

/-! State.wrPair -/

@[simp] theorem State.wrPair_pending (s : State) (lo hi : Field) (i v : Nat) : (s.wrPair lo hi i v).pending = s.pending := rfl
@[simp] theorem State.wrPair_wire (s : State) (lo hi : Field) (i v : Nat) : (s.wrPair lo hi i v).wire = s.wire := rfl
@[simp] theorem State.wrPair_free (s : State) (lo hi : Field) (i v : Nat) : (s.wrPair lo hi i v).free = s.free := rfl
@[simp] theorem State.wrPair_serial (s : State) (lo hi : Field) (i v : Nat) : (s.wrPair lo hi i v).serial = s.serial := rfl
@[simp] theorem State.wrPair_clk (s : State) (lo hi : Field) (i v : Nat) : (s.wrPair lo hi i v).clk = s.clk := rfl
@[simp] theorem State.wrPair_epo (s : State) (lo hi : Field) (i v : Nat) : (s.wrPair lo hi i v).epo = s.epo := rfl
@[simp] theorem State.wrPair_pts (s : State) (lo hi : Field) (i v : Nat) : (s.wrPair lo hi i v).pts = s.pts := rfl
@[simp] theorem State.wrPair_evq (s : State) (lo hi : Field) (i v : Nat) : (s.wrPair lo hi i v).evq = s.evq := rfl
@[simp] theorem State.wrPair_dr (s : State) (lo hi : Field) (i v : Nat) : (s.wrPair lo hi i v).dr = s.dr := rfl
@[simp] theorem State.wrPair_host (s : State) (lo hi : Field) (i v : Nat) : (s.wrPair lo hi i v).host = s.host := rfl
@[simp] theorem State.wrPair_eth (s : State) (lo hi : Field) (i v : Nat) : (s.wrPair lo hi i v).eth = s.eth := rfl
@[simp] theorem State.wrPair_conds (s : State) (lo hi : Field) (i v : Nat) : (s.wrPair lo hi i v).conds = s.conds := rfl
@[simp] theorem State.wrPair_jtag (s : State) (lo hi : Field) (i v : Nat) : (s.wrPair lo hi i v).jtag = s.jtag := rfl
@[simp] theorem State.wrPair_arms (s : State) (lo hi : Field) (i v : Nat) : (s.wrPair lo hi i v).arms = s.arms := rfl
@[simp] theorem State.wrPair_cells (s : State) (lo hi : Field) (i v : Nat) : (s.wrPair lo hi i v).cells = s.cells := rfl
@[simp] theorem State.wrPair_lanes (s : State) (lo hi : Field) (i v : Nat) : (s.wrPair lo hi i v).lanes = s.lanes := rfl
@[simp] theorem State.wrPair_units (s : State) (lo hi : Field) (i v : Nat) : (s.wrPair lo hi i v).units = s.units := rfl
@[simp] theorem State.wrPair_drv (s : State) (lo hi : Field) (i v : Nat) : (s.wrPair lo hi i v).drv = s.drv := rfl
@[simp] theorem State.wrPair_cal (s : State) (lo hi : Field) (i v : Nat) : (s.wrPair lo hi i v).cal = s.cal := rfl
@[simp] theorem State.wrPair_fab (s : State) (lo hi : Field) (i v : Nat) : (s.wrPair lo hi i v).fab = s.fab := rfl
@[simp] theorem State.wrPair_ord (s : State) (lo hi : Field) (i v : Nat) : (s.wrPair lo hi i v).ord = s.ord := rfl
@[simp] theorem State.wrPair_adc (s : State) (lo hi : Field) (i v : Nat) : (s.wrPair lo hi i v).adc = s.adc := rfl
@[simp] theorem State.wrPair_red (s : State) (lo hi : Field) (i v : Nat) : (s.wrPair lo hi i v).red = s.red := rfl
@[simp] theorem State.wrPair_saf (s : State) (lo hi : Field) (i v : Nat) : (s.wrPair lo hi i v).saf = s.saf := rfl
@[simp] theorem State.wrPair_cfg (s : State) (lo hi : Field) (i v : Nat) : (s.wrPair lo hi i v).cfg = s.cfg := rfl
@[simp] theorem State.wrPair_pwr (s : State) (lo hi : Field) (i v : Nat) : (s.wrPair lo hi i v).pwr = s.pwr := rfl
@[simp] theorem State.wrPair_bs (s : State) (lo hi : Field) (i v : Nat) : (s.wrPair lo hi i v).bs = s.bs := rfl
@[simp] theorem State.wrPair_arb (s : State) (lo hi : Field) (i v : Nat) : (s.wrPair lo hi i v).arb = s.arb := rfl

/-! State.setWork -/

@[simp] theorem State.setWork_pending (s : State) (a : Nat) (p : Pt) : (s.setWork a p).pending = s.pending := rfl
@[simp] theorem State.setWork_wire (s : State) (a : Nat) (p : Pt) : (s.setWork a p).wire = s.wire := rfl
@[simp] theorem State.setWork_free (s : State) (a : Nat) (p : Pt) : (s.setWork a p).free = s.free := rfl
@[simp] theorem State.setWork_serial (s : State) (a : Nat) (p : Pt) : (s.setWork a p).serial = s.serial := rfl
@[simp] theorem State.setWork_regs (s : State) (a : Nat) (p : Pt) : (s.setWork a p).regs = s.regs := rfl
@[simp] theorem State.setWork_clk (s : State) (a : Nat) (p : Pt) : (s.setWork a p).clk = s.clk := rfl
@[simp] theorem State.setWork_epo (s : State) (a : Nat) (p : Pt) : (s.setWork a p).epo = s.epo := rfl
@[simp] theorem State.setWork_evq (s : State) (a : Nat) (p : Pt) : (s.setWork a p).evq = s.evq := rfl
@[simp] theorem State.setWork_dr (s : State) (a : Nat) (p : Pt) : (s.setWork a p).dr = s.dr := rfl
@[simp] theorem State.setWork_host (s : State) (a : Nat) (p : Pt) : (s.setWork a p).host = s.host := rfl
@[simp] theorem State.setWork_eth (s : State) (a : Nat) (p : Pt) : (s.setWork a p).eth = s.eth := rfl
@[simp] theorem State.setWork_conds (s : State) (a : Nat) (p : Pt) : (s.setWork a p).conds = s.conds := rfl
@[simp] theorem State.setWork_jtag (s : State) (a : Nat) (p : Pt) : (s.setWork a p).jtag = s.jtag := rfl
@[simp] theorem State.setWork_arms (s : State) (a : Nat) (p : Pt) : (s.setWork a p).arms = s.arms := rfl
@[simp] theorem State.setWork_cells (s : State) (a : Nat) (p : Pt) : (s.setWork a p).cells = s.cells := rfl
@[simp] theorem State.setWork_lanes (s : State) (a : Nat) (p : Pt) : (s.setWork a p).lanes = s.lanes := rfl
@[simp] theorem State.setWork_units (s : State) (a : Nat) (p : Pt) : (s.setWork a p).units = s.units := rfl
@[simp] theorem State.setWork_drv (s : State) (a : Nat) (p : Pt) : (s.setWork a p).drv = s.drv := rfl
@[simp] theorem State.setWork_cal (s : State) (a : Nat) (p : Pt) : (s.setWork a p).cal = s.cal := rfl
@[simp] theorem State.setWork_fab (s : State) (a : Nat) (p : Pt) : (s.setWork a p).fab = s.fab := rfl
@[simp] theorem State.setWork_ord (s : State) (a : Nat) (p : Pt) : (s.setWork a p).ord = s.ord := rfl
@[simp] theorem State.setWork_adc (s : State) (a : Nat) (p : Pt) : (s.setWork a p).adc = s.adc := rfl
@[simp] theorem State.setWork_red (s : State) (a : Nat) (p : Pt) : (s.setWork a p).red = s.red := rfl
@[simp] theorem State.setWork_saf (s : State) (a : Nat) (p : Pt) : (s.setWork a p).saf = s.saf := rfl
@[simp] theorem State.setWork_cfg (s : State) (a : Nat) (p : Pt) : (s.setWork a p).cfg = s.cfg := rfl
@[simp] theorem State.setWork_pwr (s : State) (a : Nat) (p : Pt) : (s.setWork a p).pwr = s.pwr := rfl
@[simp] theorem State.setWork_bs (s : State) (a : Nat) (p : Pt) : (s.setWork a p).bs = s.bs := rfl
@[simp] theorem State.setWork_arb (s : State) (a : Nat) (p : Pt) : (s.setWork a p).arb = s.arb := rfl
@[simp] theorem State.setWork_rd (s : State) (a : Nat) (p : Pt) (g : Field) (j : Nat) : (s.setWork a p).rd g j = s.rd g j := rfl

/-! State.setPub -/

@[simp] theorem State.setPub_pending (s : State) (a : Nat) (p : Pt) : (s.setPub a p).pending = s.pending := rfl
@[simp] theorem State.setPub_wire (s : State) (a : Nat) (p : Pt) : (s.setPub a p).wire = s.wire := rfl
@[simp] theorem State.setPub_free (s : State) (a : Nat) (p : Pt) : (s.setPub a p).free = s.free := rfl
@[simp] theorem State.setPub_serial (s : State) (a : Nat) (p : Pt) : (s.setPub a p).serial = s.serial := rfl
@[simp] theorem State.setPub_regs (s : State) (a : Nat) (p : Pt) : (s.setPub a p).regs = s.regs := rfl
@[simp] theorem State.setPub_clk (s : State) (a : Nat) (p : Pt) : (s.setPub a p).clk = s.clk := rfl
@[simp] theorem State.setPub_epo (s : State) (a : Nat) (p : Pt) : (s.setPub a p).epo = s.epo := rfl
@[simp] theorem State.setPub_evq (s : State) (a : Nat) (p : Pt) : (s.setPub a p).evq = s.evq := rfl
@[simp] theorem State.setPub_dr (s : State) (a : Nat) (p : Pt) : (s.setPub a p).dr = s.dr := rfl
@[simp] theorem State.setPub_host (s : State) (a : Nat) (p : Pt) : (s.setPub a p).host = s.host := rfl
@[simp] theorem State.setPub_eth (s : State) (a : Nat) (p : Pt) : (s.setPub a p).eth = s.eth := rfl
@[simp] theorem State.setPub_conds (s : State) (a : Nat) (p : Pt) : (s.setPub a p).conds = s.conds := rfl
@[simp] theorem State.setPub_jtag (s : State) (a : Nat) (p : Pt) : (s.setPub a p).jtag = s.jtag := rfl
@[simp] theorem State.setPub_arms (s : State) (a : Nat) (p : Pt) : (s.setPub a p).arms = s.arms := rfl
@[simp] theorem State.setPub_cells (s : State) (a : Nat) (p : Pt) : (s.setPub a p).cells = s.cells := rfl
@[simp] theorem State.setPub_lanes (s : State) (a : Nat) (p : Pt) : (s.setPub a p).lanes = s.lanes := rfl
@[simp] theorem State.setPub_units (s : State) (a : Nat) (p : Pt) : (s.setPub a p).units = s.units := rfl
@[simp] theorem State.setPub_drv (s : State) (a : Nat) (p : Pt) : (s.setPub a p).drv = s.drv := rfl
@[simp] theorem State.setPub_cal (s : State) (a : Nat) (p : Pt) : (s.setPub a p).cal = s.cal := rfl
@[simp] theorem State.setPub_fab (s : State) (a : Nat) (p : Pt) : (s.setPub a p).fab = s.fab := rfl
@[simp] theorem State.setPub_ord (s : State) (a : Nat) (p : Pt) : (s.setPub a p).ord = s.ord := rfl
@[simp] theorem State.setPub_adc (s : State) (a : Nat) (p : Pt) : (s.setPub a p).adc = s.adc := rfl
@[simp] theorem State.setPub_red (s : State) (a : Nat) (p : Pt) : (s.setPub a p).red = s.red := rfl
@[simp] theorem State.setPub_saf (s : State) (a : Nat) (p : Pt) : (s.setPub a p).saf = s.saf := rfl
@[simp] theorem State.setPub_cfg (s : State) (a : Nat) (p : Pt) : (s.setPub a p).cfg = s.cfg := rfl
@[simp] theorem State.setPub_pwr (s : State) (a : Nat) (p : Pt) : (s.setPub a p).pwr = s.pwr := rfl
@[simp] theorem State.setPub_bs (s : State) (a : Nat) (p : Pt) : (s.setPub a p).bs = s.bs := rfl
@[simp] theorem State.setPub_arb (s : State) (a : Nat) (p : Pt) : (s.setPub a p).arb = s.arb := rfl
@[simp] theorem State.setPub_rd (s : State) (a : Nat) (p : Pt) (g : Field) (j : Nat) : (s.setPub a p).rd g j = s.rd g j := rfl

/-! State.setExt -/

@[simp] theorem State.setExt_pending (s : State) (a : Nat) (p : Pt) : (s.setExt a p).pending = s.pending := rfl
@[simp] theorem State.setExt_wire (s : State) (a : Nat) (p : Pt) : (s.setExt a p).wire = s.wire := rfl
@[simp] theorem State.setExt_free (s : State) (a : Nat) (p : Pt) : (s.setExt a p).free = s.free := rfl
@[simp] theorem State.setExt_serial (s : State) (a : Nat) (p : Pt) : (s.setExt a p).serial = s.serial := rfl
@[simp] theorem State.setExt_regs (s : State) (a : Nat) (p : Pt) : (s.setExt a p).regs = s.regs := rfl
@[simp] theorem State.setExt_clk (s : State) (a : Nat) (p : Pt) : (s.setExt a p).clk = s.clk := rfl
@[simp] theorem State.setExt_epo (s : State) (a : Nat) (p : Pt) : (s.setExt a p).epo = s.epo := rfl
@[simp] theorem State.setExt_evq (s : State) (a : Nat) (p : Pt) : (s.setExt a p).evq = s.evq := rfl
@[simp] theorem State.setExt_dr (s : State) (a : Nat) (p : Pt) : (s.setExt a p).dr = s.dr := rfl
@[simp] theorem State.setExt_host (s : State) (a : Nat) (p : Pt) : (s.setExt a p).host = s.host := rfl
@[simp] theorem State.setExt_eth (s : State) (a : Nat) (p : Pt) : (s.setExt a p).eth = s.eth := rfl
@[simp] theorem State.setExt_conds (s : State) (a : Nat) (p : Pt) : (s.setExt a p).conds = s.conds := rfl
@[simp] theorem State.setExt_jtag (s : State) (a : Nat) (p : Pt) : (s.setExt a p).jtag = s.jtag := rfl
@[simp] theorem State.setExt_arms (s : State) (a : Nat) (p : Pt) : (s.setExt a p).arms = s.arms := rfl
@[simp] theorem State.setExt_cells (s : State) (a : Nat) (p : Pt) : (s.setExt a p).cells = s.cells := rfl
@[simp] theorem State.setExt_lanes (s : State) (a : Nat) (p : Pt) : (s.setExt a p).lanes = s.lanes := rfl
@[simp] theorem State.setExt_units (s : State) (a : Nat) (p : Pt) : (s.setExt a p).units = s.units := rfl
@[simp] theorem State.setExt_drv (s : State) (a : Nat) (p : Pt) : (s.setExt a p).drv = s.drv := rfl
@[simp] theorem State.setExt_cal (s : State) (a : Nat) (p : Pt) : (s.setExt a p).cal = s.cal := rfl
@[simp] theorem State.setExt_fab (s : State) (a : Nat) (p : Pt) : (s.setExt a p).fab = s.fab := rfl
@[simp] theorem State.setExt_ord (s : State) (a : Nat) (p : Pt) : (s.setExt a p).ord = s.ord := rfl
@[simp] theorem State.setExt_adc (s : State) (a : Nat) (p : Pt) : (s.setExt a p).adc = s.adc := rfl
@[simp] theorem State.setExt_red (s : State) (a : Nat) (p : Pt) : (s.setExt a p).red = s.red := rfl
@[simp] theorem State.setExt_saf (s : State) (a : Nat) (p : Pt) : (s.setExt a p).saf = s.saf := rfl
@[simp] theorem State.setExt_cfg (s : State) (a : Nat) (p : Pt) : (s.setExt a p).cfg = s.cfg := rfl
@[simp] theorem State.setExt_pwr (s : State) (a : Nat) (p : Pt) : (s.setExt a p).pwr = s.pwr := rfl
@[simp] theorem State.setExt_bs (s : State) (a : Nat) (p : Pt) : (s.setExt a p).bs = s.bs := rfl
@[simp] theorem State.setExt_arb (s : State) (a : Nat) (p : Pt) : (s.setExt a p).arb = s.arb := rfl
@[simp] theorem State.setExt_rd (s : State) (a : Nat) (p : Pt) (g : Field) (j : Nat) : (s.setExt a p).rd g j = s.rd g j := rfl

/-! State.setPoint -/

@[simp] theorem State.setPoint_pending (s : State) (a v : Nat) : (s.setPoint a v).pending = s.pending := rfl
@[simp] theorem State.setPoint_wire (s : State) (a v : Nat) : (s.setPoint a v).wire = s.wire := rfl
@[simp] theorem State.setPoint_free (s : State) (a v : Nat) : (s.setPoint a v).free = s.free := rfl
@[simp] theorem State.setPoint_serial (s : State) (a v : Nat) : (s.setPoint a v).serial = s.serial := rfl
@[simp] theorem State.setPoint_regs (s : State) (a v : Nat) : (s.setPoint a v).regs = s.regs := rfl
@[simp] theorem State.setPoint_clk (s : State) (a v : Nat) : (s.setPoint a v).clk = s.clk := rfl
@[simp] theorem State.setPoint_epo (s : State) (a v : Nat) : (s.setPoint a v).epo = s.epo := rfl
@[simp] theorem State.setPoint_evq (s : State) (a v : Nat) : (s.setPoint a v).evq = s.evq := rfl
@[simp] theorem State.setPoint_dr (s : State) (a v : Nat) : (s.setPoint a v).dr = s.dr := rfl
@[simp] theorem State.setPoint_host (s : State) (a v : Nat) : (s.setPoint a v).host = s.host := rfl
@[simp] theorem State.setPoint_eth (s : State) (a v : Nat) : (s.setPoint a v).eth = s.eth := rfl
@[simp] theorem State.setPoint_conds (s : State) (a v : Nat) : (s.setPoint a v).conds = s.conds := rfl
@[simp] theorem State.setPoint_jtag (s : State) (a v : Nat) : (s.setPoint a v).jtag = s.jtag := rfl
@[simp] theorem State.setPoint_arms (s : State) (a v : Nat) : (s.setPoint a v).arms = s.arms := rfl
@[simp] theorem State.setPoint_cells (s : State) (a v : Nat) : (s.setPoint a v).cells = s.cells := rfl
@[simp] theorem State.setPoint_lanes (s : State) (a v : Nat) : (s.setPoint a v).lanes = s.lanes := rfl
@[simp] theorem State.setPoint_units (s : State) (a v : Nat) : (s.setPoint a v).units = s.units := rfl
@[simp] theorem State.setPoint_drv (s : State) (a v : Nat) : (s.setPoint a v).drv = s.drv := rfl
@[simp] theorem State.setPoint_cal (s : State) (a v : Nat) : (s.setPoint a v).cal = s.cal := rfl
@[simp] theorem State.setPoint_fab (s : State) (a v : Nat) : (s.setPoint a v).fab = s.fab := rfl
@[simp] theorem State.setPoint_ord (s : State) (a v : Nat) : (s.setPoint a v).ord = s.ord := rfl
@[simp] theorem State.setPoint_adc (s : State) (a v : Nat) : (s.setPoint a v).adc = s.adc := rfl
@[simp] theorem State.setPoint_red (s : State) (a v : Nat) : (s.setPoint a v).red = s.red := rfl
@[simp] theorem State.setPoint_saf (s : State) (a v : Nat) : (s.setPoint a v).saf = s.saf := rfl
@[simp] theorem State.setPoint_cfg (s : State) (a v : Nat) : (s.setPoint a v).cfg = s.cfg := rfl
@[simp] theorem State.setPoint_pwr (s : State) (a v : Nat) : (s.setPoint a v).pwr = s.pwr := rfl
@[simp] theorem State.setPoint_bs (s : State) (a v : Nat) : (s.setPoint a v).bs = s.bs := rfl
@[simp] theorem State.setPoint_arb (s : State) (a v : Nat) : (s.setPoint a v).arb = s.arb := rfl
@[simp] theorem State.setPoint_rd (s : State) (a v : Nat) (g : Field) (j : Nat) : (s.setPoint a v).rd g j = s.rd g j := rfl

/-! State.setFloat -/

@[simp] theorem State.setFloat_pending (s : State) (a v : Nat) : (s.setFloat a v).pending = s.pending := rfl
@[simp] theorem State.setFloat_wire (s : State) (a v : Nat) : (s.setFloat a v).wire = s.wire := rfl
@[simp] theorem State.setFloat_free (s : State) (a v : Nat) : (s.setFloat a v).free = s.free := rfl
@[simp] theorem State.setFloat_serial (s : State) (a v : Nat) : (s.setFloat a v).serial = s.serial := rfl
@[simp] theorem State.setFloat_regs (s : State) (a v : Nat) : (s.setFloat a v).regs = s.regs := rfl
@[simp] theorem State.setFloat_clk (s : State) (a v : Nat) : (s.setFloat a v).clk = s.clk := rfl
@[simp] theorem State.setFloat_epo (s : State) (a v : Nat) : (s.setFloat a v).epo = s.epo := rfl
@[simp] theorem State.setFloat_evq (s : State) (a v : Nat) : (s.setFloat a v).evq = s.evq := rfl
@[simp] theorem State.setFloat_dr (s : State) (a v : Nat) : (s.setFloat a v).dr = s.dr := rfl
@[simp] theorem State.setFloat_host (s : State) (a v : Nat) : (s.setFloat a v).host = s.host := rfl
@[simp] theorem State.setFloat_eth (s : State) (a v : Nat) : (s.setFloat a v).eth = s.eth := rfl
@[simp] theorem State.setFloat_conds (s : State) (a v : Nat) : (s.setFloat a v).conds = s.conds := rfl
@[simp] theorem State.setFloat_jtag (s : State) (a v : Nat) : (s.setFloat a v).jtag = s.jtag := rfl
@[simp] theorem State.setFloat_arms (s : State) (a v : Nat) : (s.setFloat a v).arms = s.arms := rfl
@[simp] theorem State.setFloat_cells (s : State) (a v : Nat) : (s.setFloat a v).cells = s.cells := rfl
@[simp] theorem State.setFloat_lanes (s : State) (a v : Nat) : (s.setFloat a v).lanes = s.lanes := rfl
@[simp] theorem State.setFloat_units (s : State) (a v : Nat) : (s.setFloat a v).units = s.units := rfl
@[simp] theorem State.setFloat_drv (s : State) (a v : Nat) : (s.setFloat a v).drv = s.drv := rfl
@[simp] theorem State.setFloat_cal (s : State) (a v : Nat) : (s.setFloat a v).cal = s.cal := rfl
@[simp] theorem State.setFloat_fab (s : State) (a v : Nat) : (s.setFloat a v).fab = s.fab := rfl
@[simp] theorem State.setFloat_ord (s : State) (a v : Nat) : (s.setFloat a v).ord = s.ord := rfl
@[simp] theorem State.setFloat_adc (s : State) (a v : Nat) : (s.setFloat a v).adc = s.adc := rfl
@[simp] theorem State.setFloat_red (s : State) (a v : Nat) : (s.setFloat a v).red = s.red := rfl
@[simp] theorem State.setFloat_saf (s : State) (a v : Nat) : (s.setFloat a v).saf = s.saf := rfl
@[simp] theorem State.setFloat_cfg (s : State) (a v : Nat) : (s.setFloat a v).cfg = s.cfg := rfl
@[simp] theorem State.setFloat_pwr (s : State) (a v : Nat) : (s.setFloat a v).pwr = s.pwr := rfl
@[simp] theorem State.setFloat_bs (s : State) (a v : Nat) : (s.setFloat a v).bs = s.bs := rfl
@[simp] theorem State.setFloat_arb (s : State) (a v : Nat) : (s.setFloat a v).arb = s.arb := rfl
@[simp] theorem State.setFloat_rd (s : State) (a v : Nat) (g : Field) (j : Nat) : (s.setFloat a v).rd g j = s.rd g j := rfl

/-! State.setLive -/

@[simp] theorem State.setLive_pending (s : State) (c p v : Nat) : (s.setLive c p v).pending = s.pending := rfl
@[simp] theorem State.setLive_wire (s : State) (c p v : Nat) : (s.setLive c p v).wire = s.wire := rfl
@[simp] theorem State.setLive_free (s : State) (c p v : Nat) : (s.setLive c p v).free = s.free := rfl
@[simp] theorem State.setLive_serial (s : State) (c p v : Nat) : (s.setLive c p v).serial = s.serial := rfl
@[simp] theorem State.setLive_regs (s : State) (c p v : Nat) : (s.setLive c p v).regs = s.regs := rfl
@[simp] theorem State.setLive_clk (s : State) (c p v : Nat) : (s.setLive c p v).clk = s.clk := rfl
@[simp] theorem State.setLive_epo (s : State) (c p v : Nat) : (s.setLive c p v).epo = s.epo := rfl
@[simp] theorem State.setLive_evq (s : State) (c p v : Nat) : (s.setLive c p v).evq = s.evq := rfl
@[simp] theorem State.setLive_dr (s : State) (c p v : Nat) : (s.setLive c p v).dr = s.dr := rfl
@[simp] theorem State.setLive_host (s : State) (c p v : Nat) : (s.setLive c p v).host = s.host := rfl
@[simp] theorem State.setLive_eth (s : State) (c p v : Nat) : (s.setLive c p v).eth = s.eth := rfl
@[simp] theorem State.setLive_conds (s : State) (c p v : Nat) : (s.setLive c p v).conds = s.conds := rfl
@[simp] theorem State.setLive_jtag (s : State) (c p v : Nat) : (s.setLive c p v).jtag = s.jtag := rfl
@[simp] theorem State.setLive_arms (s : State) (c p v : Nat) : (s.setLive c p v).arms = s.arms := rfl
@[simp] theorem State.setLive_cells (s : State) (c p v : Nat) : (s.setLive c p v).cells = s.cells := rfl
@[simp] theorem State.setLive_lanes (s : State) (c p v : Nat) : (s.setLive c p v).lanes = s.lanes := rfl
@[simp] theorem State.setLive_units (s : State) (c p v : Nat) : (s.setLive c p v).units = s.units := rfl
@[simp] theorem State.setLive_drv (s : State) (c p v : Nat) : (s.setLive c p v).drv = s.drv := rfl
@[simp] theorem State.setLive_cal (s : State) (c p v : Nat) : (s.setLive c p v).cal = s.cal := rfl
@[simp] theorem State.setLive_fab (s : State) (c p v : Nat) : (s.setLive c p v).fab = s.fab := rfl
@[simp] theorem State.setLive_ord (s : State) (c p v : Nat) : (s.setLive c p v).ord = s.ord := rfl
@[simp] theorem State.setLive_adc (s : State) (c p v : Nat) : (s.setLive c p v).adc = s.adc := rfl
@[simp] theorem State.setLive_red (s : State) (c p v : Nat) : (s.setLive c p v).red = s.red := rfl
@[simp] theorem State.setLive_saf (s : State) (c p v : Nat) : (s.setLive c p v).saf = s.saf := rfl
@[simp] theorem State.setLive_cfg (s : State) (c p v : Nat) : (s.setLive c p v).cfg = s.cfg := rfl
@[simp] theorem State.setLive_pwr (s : State) (c p v : Nat) : (s.setLive c p v).pwr = s.pwr := rfl
@[simp] theorem State.setLive_bs (s : State) (c p v : Nat) : (s.setLive c p v).bs = s.bs := rfl
@[simp] theorem State.setLive_arb (s : State) (c p v : Nat) : (s.setLive c p v).arb = s.arb := rfl
@[simp] theorem State.setLive_rd (s : State) (c p v : Nat) (g : Field) (j : Nat) : (s.setLive c p v).rd g j = s.rd g j := rfl

/-! State.hostStore -/

@[simp] theorem State.hostStore_pending (s : State) (a : Nat) (b : List Byte) : (s.hostStore a b).pending = s.pending := rfl
@[simp] theorem State.hostStore_wire (s : State) (a : Nat) (b : List Byte) : (s.hostStore a b).wire = s.wire := rfl
@[simp] theorem State.hostStore_free (s : State) (a : Nat) (b : List Byte) : (s.hostStore a b).free = s.free := rfl
@[simp] theorem State.hostStore_serial (s : State) (a : Nat) (b : List Byte) : (s.hostStore a b).serial = s.serial := rfl
@[simp] theorem State.hostStore_regs (s : State) (a : Nat) (b : List Byte) : (s.hostStore a b).regs = s.regs := rfl
@[simp] theorem State.hostStore_clk (s : State) (a : Nat) (b : List Byte) : (s.hostStore a b).clk = s.clk := rfl
@[simp] theorem State.hostStore_epo (s : State) (a : Nat) (b : List Byte) : (s.hostStore a b).epo = s.epo := rfl
@[simp] theorem State.hostStore_pts (s : State) (a : Nat) (b : List Byte) : (s.hostStore a b).pts = s.pts := rfl
@[simp] theorem State.hostStore_evq (s : State) (a : Nat) (b : List Byte) : (s.hostStore a b).evq = s.evq := rfl
@[simp] theorem State.hostStore_dr (s : State) (a : Nat) (b : List Byte) : (s.hostStore a b).dr = s.dr := rfl
@[simp] theorem State.hostStore_eth (s : State) (a : Nat) (b : List Byte) : (s.hostStore a b).eth = s.eth := rfl
@[simp] theorem State.hostStore_conds (s : State) (a : Nat) (b : List Byte) : (s.hostStore a b).conds = s.conds := rfl
@[simp] theorem State.hostStore_jtag (s : State) (a : Nat) (b : List Byte) : (s.hostStore a b).jtag = s.jtag := rfl
@[simp] theorem State.hostStore_arms (s : State) (a : Nat) (b : List Byte) : (s.hostStore a b).arms = s.arms := rfl
@[simp] theorem State.hostStore_cells (s : State) (a : Nat) (b : List Byte) : (s.hostStore a b).cells = s.cells := rfl
@[simp] theorem State.hostStore_lanes (s : State) (a : Nat) (b : List Byte) : (s.hostStore a b).lanes = s.lanes := rfl
@[simp] theorem State.hostStore_units (s : State) (a : Nat) (b : List Byte) : (s.hostStore a b).units = s.units := rfl
@[simp] theorem State.hostStore_drv (s : State) (a : Nat) (b : List Byte) : (s.hostStore a b).drv = s.drv := rfl
@[simp] theorem State.hostStore_cal (s : State) (a : Nat) (b : List Byte) : (s.hostStore a b).cal = s.cal := rfl
@[simp] theorem State.hostStore_fab (s : State) (a : Nat) (b : List Byte) : (s.hostStore a b).fab = s.fab := rfl
@[simp] theorem State.hostStore_ord (s : State) (a : Nat) (b : List Byte) : (s.hostStore a b).ord = s.ord := rfl
@[simp] theorem State.hostStore_adc (s : State) (a : Nat) (b : List Byte) : (s.hostStore a b).adc = s.adc := rfl
@[simp] theorem State.hostStore_red (s : State) (a : Nat) (b : List Byte) : (s.hostStore a b).red = s.red := rfl
@[simp] theorem State.hostStore_saf (s : State) (a : Nat) (b : List Byte) : (s.hostStore a b).saf = s.saf := rfl
@[simp] theorem State.hostStore_cfg (s : State) (a : Nat) (b : List Byte) : (s.hostStore a b).cfg = s.cfg := rfl
@[simp] theorem State.hostStore_pwr (s : State) (a : Nat) (b : List Byte) : (s.hostStore a b).pwr = s.pwr := rfl
@[simp] theorem State.hostStore_bs (s : State) (a : Nat) (b : List Byte) : (s.hostStore a b).bs = s.bs := rfl
@[simp] theorem State.hostStore_arb (s : State) (a : Nat) (b : List Byte) : (s.hostStore a b).arb = s.arb := rfl
@[simp] theorem State.hostStore_rd (s : State) (a : Nat) (b : List Byte) (g : Field) (j : Nat) : (s.hostStore a b).rd g j = s.rd g j := rfl

/-! State.setCond -/

@[simp] theorem State.setCond_pending (s : State) (n : Nat) (l : Bool) : (s.setCond n l).pending = s.pending := rfl
@[simp] theorem State.setCond_wire (s : State) (n : Nat) (l : Bool) : (s.setCond n l).wire = s.wire := rfl
@[simp] theorem State.setCond_free (s : State) (n : Nat) (l : Bool) : (s.setCond n l).free = s.free := rfl
@[simp] theorem State.setCond_serial (s : State) (n : Nat) (l : Bool) : (s.setCond n l).serial = s.serial := rfl
@[simp] theorem State.setCond_regs (s : State) (n : Nat) (l : Bool) : (s.setCond n l).regs = s.regs := rfl
@[simp] theorem State.setCond_clk (s : State) (n : Nat) (l : Bool) : (s.setCond n l).clk = s.clk := rfl
@[simp] theorem State.setCond_epo (s : State) (n : Nat) (l : Bool) : (s.setCond n l).epo = s.epo := rfl
@[simp] theorem State.setCond_pts (s : State) (n : Nat) (l : Bool) : (s.setCond n l).pts = s.pts := rfl
@[simp] theorem State.setCond_evq (s : State) (n : Nat) (l : Bool) : (s.setCond n l).evq = s.evq := rfl
@[simp] theorem State.setCond_dr (s : State) (n : Nat) (l : Bool) : (s.setCond n l).dr = s.dr := rfl
@[simp] theorem State.setCond_host (s : State) (n : Nat) (l : Bool) : (s.setCond n l).host = s.host := rfl
@[simp] theorem State.setCond_eth (s : State) (n : Nat) (l : Bool) : (s.setCond n l).eth = s.eth := rfl
@[simp] theorem State.setCond_jtag (s : State) (n : Nat) (l : Bool) : (s.setCond n l).jtag = s.jtag := rfl
@[simp] theorem State.setCond_arms (s : State) (n : Nat) (l : Bool) : (s.setCond n l).arms = s.arms := rfl
@[simp] theorem State.setCond_cells (s : State) (n : Nat) (l : Bool) : (s.setCond n l).cells = s.cells := rfl
@[simp] theorem State.setCond_lanes (s : State) (n : Nat) (l : Bool) : (s.setCond n l).lanes = s.lanes := rfl
@[simp] theorem State.setCond_units (s : State) (n : Nat) (l : Bool) : (s.setCond n l).units = s.units := rfl
@[simp] theorem State.setCond_drv (s : State) (n : Nat) (l : Bool) : (s.setCond n l).drv = s.drv := rfl
@[simp] theorem State.setCond_cal (s : State) (n : Nat) (l : Bool) : (s.setCond n l).cal = s.cal := rfl
@[simp] theorem State.setCond_fab (s : State) (n : Nat) (l : Bool) : (s.setCond n l).fab = s.fab := rfl
@[simp] theorem State.setCond_ord (s : State) (n : Nat) (l : Bool) : (s.setCond n l).ord = s.ord := rfl
@[simp] theorem State.setCond_adc (s : State) (n : Nat) (l : Bool) : (s.setCond n l).adc = s.adc := rfl
@[simp] theorem State.setCond_red (s : State) (n : Nat) (l : Bool) : (s.setCond n l).red = s.red := rfl
@[simp] theorem State.setCond_saf (s : State) (n : Nat) (l : Bool) : (s.setCond n l).saf = s.saf := rfl
@[simp] theorem State.setCond_cfg (s : State) (n : Nat) (l : Bool) : (s.setCond n l).cfg = s.cfg := rfl
@[simp] theorem State.setCond_pwr (s : State) (n : Nat) (l : Bool) : (s.setCond n l).pwr = s.pwr := rfl
@[simp] theorem State.setCond_bs (s : State) (n : Nat) (l : Bool) : (s.setCond n l).bs = s.bs := rfl
@[simp] theorem State.setCond_arb (s : State) (n : Nat) (l : Bool) : (s.setCond n l).arb = s.arb := rfl
@[simp] theorem State.setCond_rd (s : State) (n : Nat) (l : Bool) (g : Field) (j : Nat) : (s.setCond n l).rd g j = s.rd g j := rfl

/-! State.setCondData -/

@[simp] theorem State.setCondData_pending (s : State) (n : Nat) (l : Bool) (d : Nat) : (s.setCondData n l d).pending = s.pending := rfl
@[simp] theorem State.setCondData_wire (s : State) (n : Nat) (l : Bool) (d : Nat) : (s.setCondData n l d).wire = s.wire := rfl
@[simp] theorem State.setCondData_free (s : State) (n : Nat) (l : Bool) (d : Nat) : (s.setCondData n l d).free = s.free := rfl
@[simp] theorem State.setCondData_serial (s : State) (n : Nat) (l : Bool) (d : Nat) : (s.setCondData n l d).serial = s.serial := rfl
@[simp] theorem State.setCondData_regs (s : State) (n : Nat) (l : Bool) (d : Nat) : (s.setCondData n l d).regs = s.regs := rfl
@[simp] theorem State.setCondData_clk (s : State) (n : Nat) (l : Bool) (d : Nat) : (s.setCondData n l d).clk = s.clk := rfl
@[simp] theorem State.setCondData_epo (s : State) (n : Nat) (l : Bool) (d : Nat) : (s.setCondData n l d).epo = s.epo := rfl
@[simp] theorem State.setCondData_pts (s : State) (n : Nat) (l : Bool) (d : Nat) : (s.setCondData n l d).pts = s.pts := rfl
@[simp] theorem State.setCondData_evq (s : State) (n : Nat) (l : Bool) (d : Nat) : (s.setCondData n l d).evq = s.evq := rfl
@[simp] theorem State.setCondData_dr (s : State) (n : Nat) (l : Bool) (d : Nat) : (s.setCondData n l d).dr = s.dr := rfl
@[simp] theorem State.setCondData_host (s : State) (n : Nat) (l : Bool) (d : Nat) : (s.setCondData n l d).host = s.host := rfl
@[simp] theorem State.setCondData_eth (s : State) (n : Nat) (l : Bool) (d : Nat) : (s.setCondData n l d).eth = s.eth := rfl
@[simp] theorem State.setCondData_jtag (s : State) (n : Nat) (l : Bool) (d : Nat) : (s.setCondData n l d).jtag = s.jtag := rfl
@[simp] theorem State.setCondData_arms (s : State) (n : Nat) (l : Bool) (d : Nat) : (s.setCondData n l d).arms = s.arms := rfl
@[simp] theorem State.setCondData_cells (s : State) (n : Nat) (l : Bool) (d : Nat) : (s.setCondData n l d).cells = s.cells := rfl
@[simp] theorem State.setCondData_lanes (s : State) (n : Nat) (l : Bool) (d : Nat) : (s.setCondData n l d).lanes = s.lanes := rfl
@[simp] theorem State.setCondData_units (s : State) (n : Nat) (l : Bool) (d : Nat) : (s.setCondData n l d).units = s.units := rfl
@[simp] theorem State.setCondData_drv (s : State) (n : Nat) (l : Bool) (d : Nat) : (s.setCondData n l d).drv = s.drv := rfl
@[simp] theorem State.setCondData_cal (s : State) (n : Nat) (l : Bool) (d : Nat) : (s.setCondData n l d).cal = s.cal := rfl
@[simp] theorem State.setCondData_fab (s : State) (n : Nat) (l : Bool) (d : Nat) : (s.setCondData n l d).fab = s.fab := rfl
@[simp] theorem State.setCondData_ord (s : State) (n : Nat) (l : Bool) (d : Nat) : (s.setCondData n l d).ord = s.ord := rfl
@[simp] theorem State.setCondData_adc (s : State) (n : Nat) (l : Bool) (d : Nat) : (s.setCondData n l d).adc = s.adc := rfl
@[simp] theorem State.setCondData_red (s : State) (n : Nat) (l : Bool) (d : Nat) : (s.setCondData n l d).red = s.red := rfl
@[simp] theorem State.setCondData_saf (s : State) (n : Nat) (l : Bool) (d : Nat) : (s.setCondData n l d).saf = s.saf := rfl
@[simp] theorem State.setCondData_cfg (s : State) (n : Nat) (l : Bool) (d : Nat) : (s.setCondData n l d).cfg = s.cfg := rfl
@[simp] theorem State.setCondData_pwr (s : State) (n : Nat) (l : Bool) (d : Nat) : (s.setCondData n l d).pwr = s.pwr := rfl
@[simp] theorem State.setCondData_bs (s : State) (n : Nat) (l : Bool) (d : Nat) : (s.setCondData n l d).bs = s.bs := rfl
@[simp] theorem State.setCondData_arb (s : State) (n : Nat) (l : Bool) (d : Nat) : (s.setCondData n l d).arb = s.arb := rfl
@[simp] theorem State.setCondData_rd (s : State) (n : Nat) (l : Bool) (d : Nat) (g : Field) (j : Nat) : (s.setCondData n l d).rd g j = s.rd g j := rfl

/-! State.pulseCond -/

@[simp] theorem State.pulseCond_pending (s : State) (n d : Nat) : (s.pulseCond n d).pending = s.pending := rfl
@[simp] theorem State.pulseCond_wire (s : State) (n d : Nat) : (s.pulseCond n d).wire = s.wire := rfl
@[simp] theorem State.pulseCond_free (s : State) (n d : Nat) : (s.pulseCond n d).free = s.free := rfl
@[simp] theorem State.pulseCond_serial (s : State) (n d : Nat) : (s.pulseCond n d).serial = s.serial := rfl
@[simp] theorem State.pulseCond_regs (s : State) (n d : Nat) : (s.pulseCond n d).regs = s.regs := rfl
@[simp] theorem State.pulseCond_clk (s : State) (n d : Nat) : (s.pulseCond n d).clk = s.clk := rfl
@[simp] theorem State.pulseCond_epo (s : State) (n d : Nat) : (s.pulseCond n d).epo = s.epo := rfl
@[simp] theorem State.pulseCond_pts (s : State) (n d : Nat) : (s.pulseCond n d).pts = s.pts := rfl
@[simp] theorem State.pulseCond_evq (s : State) (n d : Nat) : (s.pulseCond n d).evq = s.evq := rfl
@[simp] theorem State.pulseCond_dr (s : State) (n d : Nat) : (s.pulseCond n d).dr = s.dr := rfl
@[simp] theorem State.pulseCond_host (s : State) (n d : Nat) : (s.pulseCond n d).host = s.host := rfl
@[simp] theorem State.pulseCond_eth (s : State) (n d : Nat) : (s.pulseCond n d).eth = s.eth := rfl
@[simp] theorem State.pulseCond_jtag (s : State) (n d : Nat) : (s.pulseCond n d).jtag = s.jtag := rfl
@[simp] theorem State.pulseCond_arms (s : State) (n d : Nat) : (s.pulseCond n d).arms = s.arms := rfl
@[simp] theorem State.pulseCond_cells (s : State) (n d : Nat) : (s.pulseCond n d).cells = s.cells := rfl
@[simp] theorem State.pulseCond_lanes (s : State) (n d : Nat) : (s.pulseCond n d).lanes = s.lanes := rfl
@[simp] theorem State.pulseCond_units (s : State) (n d : Nat) : (s.pulseCond n d).units = s.units := rfl
@[simp] theorem State.pulseCond_drv (s : State) (n d : Nat) : (s.pulseCond n d).drv = s.drv := rfl
@[simp] theorem State.pulseCond_cal (s : State) (n d : Nat) : (s.pulseCond n d).cal = s.cal := rfl
@[simp] theorem State.pulseCond_fab (s : State) (n d : Nat) : (s.pulseCond n d).fab = s.fab := rfl
@[simp] theorem State.pulseCond_ord (s : State) (n d : Nat) : (s.pulseCond n d).ord = s.ord := rfl
@[simp] theorem State.pulseCond_adc (s : State) (n d : Nat) : (s.pulseCond n d).adc = s.adc := rfl
@[simp] theorem State.pulseCond_red (s : State) (n d : Nat) : (s.pulseCond n d).red = s.red := rfl
@[simp] theorem State.pulseCond_saf (s : State) (n d : Nat) : (s.pulseCond n d).saf = s.saf := rfl
@[simp] theorem State.pulseCond_cfg (s : State) (n d : Nat) : (s.pulseCond n d).cfg = s.cfg := rfl
@[simp] theorem State.pulseCond_pwr (s : State) (n d : Nat) : (s.pulseCond n d).pwr = s.pwr := rfl
@[simp] theorem State.pulseCond_bs (s : State) (n d : Nat) : (s.pulseCond n d).bs = s.bs := rfl
@[simp] theorem State.pulseCond_arb (s : State) (n d : Nat) : (s.pulseCond n d).arb = s.arb := rfl
@[simp] theorem State.pulseCond_rd (s : State) (n d : Nat) (g : Field) (j : Nat) : (s.pulseCond n d).rd g j = s.rd g j := rfl

/-! State.modCond -/

@[simp] theorem State.modCond_pending (s : State) (n : Nat) (f : Cond → Cond) : (s.modCond n f).pending = s.pending := rfl
@[simp] theorem State.modCond_wire (s : State) (n : Nat) (f : Cond → Cond) : (s.modCond n f).wire = s.wire := rfl
@[simp] theorem State.modCond_free (s : State) (n : Nat) (f : Cond → Cond) : (s.modCond n f).free = s.free := rfl
@[simp] theorem State.modCond_serial (s : State) (n : Nat) (f : Cond → Cond) : (s.modCond n f).serial = s.serial := rfl
@[simp] theorem State.modCond_regs (s : State) (n : Nat) (f : Cond → Cond) : (s.modCond n f).regs = s.regs := rfl
@[simp] theorem State.modCond_clk (s : State) (n : Nat) (f : Cond → Cond) : (s.modCond n f).clk = s.clk := rfl
@[simp] theorem State.modCond_epo (s : State) (n : Nat) (f : Cond → Cond) : (s.modCond n f).epo = s.epo := rfl
@[simp] theorem State.modCond_pts (s : State) (n : Nat) (f : Cond → Cond) : (s.modCond n f).pts = s.pts := rfl
@[simp] theorem State.modCond_evq (s : State) (n : Nat) (f : Cond → Cond) : (s.modCond n f).evq = s.evq := rfl
@[simp] theorem State.modCond_dr (s : State) (n : Nat) (f : Cond → Cond) : (s.modCond n f).dr = s.dr := rfl
@[simp] theorem State.modCond_host (s : State) (n : Nat) (f : Cond → Cond) : (s.modCond n f).host = s.host := rfl
@[simp] theorem State.modCond_eth (s : State) (n : Nat) (f : Cond → Cond) : (s.modCond n f).eth = s.eth := rfl
@[simp] theorem State.modCond_jtag (s : State) (n : Nat) (f : Cond → Cond) : (s.modCond n f).jtag = s.jtag := rfl
@[simp] theorem State.modCond_arms (s : State) (n : Nat) (f : Cond → Cond) : (s.modCond n f).arms = s.arms := rfl
@[simp] theorem State.modCond_cells (s : State) (n : Nat) (f : Cond → Cond) : (s.modCond n f).cells = s.cells := rfl
@[simp] theorem State.modCond_lanes (s : State) (n : Nat) (f : Cond → Cond) : (s.modCond n f).lanes = s.lanes := rfl
@[simp] theorem State.modCond_units (s : State) (n : Nat) (f : Cond → Cond) : (s.modCond n f).units = s.units := rfl
@[simp] theorem State.modCond_drv (s : State) (n : Nat) (f : Cond → Cond) : (s.modCond n f).drv = s.drv := rfl
@[simp] theorem State.modCond_cal (s : State) (n : Nat) (f : Cond → Cond) : (s.modCond n f).cal = s.cal := rfl
@[simp] theorem State.modCond_fab (s : State) (n : Nat) (f : Cond → Cond) : (s.modCond n f).fab = s.fab := rfl
@[simp] theorem State.modCond_ord (s : State) (n : Nat) (f : Cond → Cond) : (s.modCond n f).ord = s.ord := rfl
@[simp] theorem State.modCond_adc (s : State) (n : Nat) (f : Cond → Cond) : (s.modCond n f).adc = s.adc := rfl
@[simp] theorem State.modCond_red (s : State) (n : Nat) (f : Cond → Cond) : (s.modCond n f).red = s.red := rfl
@[simp] theorem State.modCond_saf (s : State) (n : Nat) (f : Cond → Cond) : (s.modCond n f).saf = s.saf := rfl
@[simp] theorem State.modCond_cfg (s : State) (n : Nat) (f : Cond → Cond) : (s.modCond n f).cfg = s.cfg := rfl
@[simp] theorem State.modCond_pwr (s : State) (n : Nat) (f : Cond → Cond) : (s.modCond n f).pwr = s.pwr := rfl
@[simp] theorem State.modCond_bs (s : State) (n : Nat) (f : Cond → Cond) : (s.modCond n f).bs = s.bs := rfl
@[simp] theorem State.modCond_arb (s : State) (n : Nat) (f : Cond → Cond) : (s.modCond n f).arb = s.arb := rfl
@[simp] theorem State.modCond_rd (s : State) (n : Nat) (f : Cond → Cond) (g : Field) (j : Nat) : (s.modCond n f).rd g j = s.rd g j := rfl

/-! State.modArm -/

@[simp] theorem State.modArm_pending (s : State) (n : Nat) (f : ArmRt → ArmRt) : (s.modArm n f).pending = s.pending := rfl
@[simp] theorem State.modArm_wire (s : State) (n : Nat) (f : ArmRt → ArmRt) : (s.modArm n f).wire = s.wire := rfl
@[simp] theorem State.modArm_free (s : State) (n : Nat) (f : ArmRt → ArmRt) : (s.modArm n f).free = s.free := rfl
@[simp] theorem State.modArm_serial (s : State) (n : Nat) (f : ArmRt → ArmRt) : (s.modArm n f).serial = s.serial := rfl
@[simp] theorem State.modArm_regs (s : State) (n : Nat) (f : ArmRt → ArmRt) : (s.modArm n f).regs = s.regs := rfl
@[simp] theorem State.modArm_clk (s : State) (n : Nat) (f : ArmRt → ArmRt) : (s.modArm n f).clk = s.clk := rfl
@[simp] theorem State.modArm_epo (s : State) (n : Nat) (f : ArmRt → ArmRt) : (s.modArm n f).epo = s.epo := rfl
@[simp] theorem State.modArm_pts (s : State) (n : Nat) (f : ArmRt → ArmRt) : (s.modArm n f).pts = s.pts := rfl
@[simp] theorem State.modArm_evq (s : State) (n : Nat) (f : ArmRt → ArmRt) : (s.modArm n f).evq = s.evq := rfl
@[simp] theorem State.modArm_dr (s : State) (n : Nat) (f : ArmRt → ArmRt) : (s.modArm n f).dr = s.dr := rfl
@[simp] theorem State.modArm_host (s : State) (n : Nat) (f : ArmRt → ArmRt) : (s.modArm n f).host = s.host := rfl
@[simp] theorem State.modArm_eth (s : State) (n : Nat) (f : ArmRt → ArmRt) : (s.modArm n f).eth = s.eth := rfl
@[simp] theorem State.modArm_conds (s : State) (n : Nat) (f : ArmRt → ArmRt) : (s.modArm n f).conds = s.conds := rfl
@[simp] theorem State.modArm_jtag (s : State) (n : Nat) (f : ArmRt → ArmRt) : (s.modArm n f).jtag = s.jtag := rfl
@[simp] theorem State.modArm_cells (s : State) (n : Nat) (f : ArmRt → ArmRt) : (s.modArm n f).cells = s.cells := rfl
@[simp] theorem State.modArm_lanes (s : State) (n : Nat) (f : ArmRt → ArmRt) : (s.modArm n f).lanes = s.lanes := rfl
@[simp] theorem State.modArm_units (s : State) (n : Nat) (f : ArmRt → ArmRt) : (s.modArm n f).units = s.units := rfl
@[simp] theorem State.modArm_drv (s : State) (n : Nat) (f : ArmRt → ArmRt) : (s.modArm n f).drv = s.drv := rfl
@[simp] theorem State.modArm_cal (s : State) (n : Nat) (f : ArmRt → ArmRt) : (s.modArm n f).cal = s.cal := rfl
@[simp] theorem State.modArm_fab (s : State) (n : Nat) (f : ArmRt → ArmRt) : (s.modArm n f).fab = s.fab := rfl
@[simp] theorem State.modArm_ord (s : State) (n : Nat) (f : ArmRt → ArmRt) : (s.modArm n f).ord = s.ord := rfl
@[simp] theorem State.modArm_adc (s : State) (n : Nat) (f : ArmRt → ArmRt) : (s.modArm n f).adc = s.adc := rfl
@[simp] theorem State.modArm_red (s : State) (n : Nat) (f : ArmRt → ArmRt) : (s.modArm n f).red = s.red := rfl
@[simp] theorem State.modArm_saf (s : State) (n : Nat) (f : ArmRt → ArmRt) : (s.modArm n f).saf = s.saf := rfl
@[simp] theorem State.modArm_cfg (s : State) (n : Nat) (f : ArmRt → ArmRt) : (s.modArm n f).cfg = s.cfg := rfl
@[simp] theorem State.modArm_pwr (s : State) (n : Nat) (f : ArmRt → ArmRt) : (s.modArm n f).pwr = s.pwr := rfl
@[simp] theorem State.modArm_bs (s : State) (n : Nat) (f : ArmRt → ArmRt) : (s.modArm n f).bs = s.bs := rfl
@[simp] theorem State.modArm_arb (s : State) (n : Nat) (f : ArmRt → ArmRt) : (s.modArm n f).arb = s.arb := rfl
@[simp] theorem State.modArm_rd (s : State) (n : Nat) (f : ArmRt → ArmRt) (g : Field) (j : Nat) : (s.modArm n f).rd g j = s.rd g j := rfl

/-! State.modCell -/

@[simp] theorem State.modCell_pending (s : State) (n : Nat) (f : CellRt → CellRt) : (s.modCell n f).pending = s.pending := rfl
@[simp] theorem State.modCell_wire (s : State) (n : Nat) (f : CellRt → CellRt) : (s.modCell n f).wire = s.wire := rfl
@[simp] theorem State.modCell_free (s : State) (n : Nat) (f : CellRt → CellRt) : (s.modCell n f).free = s.free := rfl
@[simp] theorem State.modCell_serial (s : State) (n : Nat) (f : CellRt → CellRt) : (s.modCell n f).serial = s.serial := rfl
@[simp] theorem State.modCell_regs (s : State) (n : Nat) (f : CellRt → CellRt) : (s.modCell n f).regs = s.regs := rfl
@[simp] theorem State.modCell_clk (s : State) (n : Nat) (f : CellRt → CellRt) : (s.modCell n f).clk = s.clk := rfl
@[simp] theorem State.modCell_epo (s : State) (n : Nat) (f : CellRt → CellRt) : (s.modCell n f).epo = s.epo := rfl
@[simp] theorem State.modCell_pts (s : State) (n : Nat) (f : CellRt → CellRt) : (s.modCell n f).pts = s.pts := rfl
@[simp] theorem State.modCell_evq (s : State) (n : Nat) (f : CellRt → CellRt) : (s.modCell n f).evq = s.evq := rfl
@[simp] theorem State.modCell_dr (s : State) (n : Nat) (f : CellRt → CellRt) : (s.modCell n f).dr = s.dr := rfl
@[simp] theorem State.modCell_host (s : State) (n : Nat) (f : CellRt → CellRt) : (s.modCell n f).host = s.host := rfl
@[simp] theorem State.modCell_eth (s : State) (n : Nat) (f : CellRt → CellRt) : (s.modCell n f).eth = s.eth := rfl
@[simp] theorem State.modCell_conds (s : State) (n : Nat) (f : CellRt → CellRt) : (s.modCell n f).conds = s.conds := rfl
@[simp] theorem State.modCell_jtag (s : State) (n : Nat) (f : CellRt → CellRt) : (s.modCell n f).jtag = s.jtag := rfl
@[simp] theorem State.modCell_arms (s : State) (n : Nat) (f : CellRt → CellRt) : (s.modCell n f).arms = s.arms := rfl
@[simp] theorem State.modCell_lanes (s : State) (n : Nat) (f : CellRt → CellRt) : (s.modCell n f).lanes = s.lanes := rfl
@[simp] theorem State.modCell_units (s : State) (n : Nat) (f : CellRt → CellRt) : (s.modCell n f).units = s.units := rfl
@[simp] theorem State.modCell_drv (s : State) (n : Nat) (f : CellRt → CellRt) : (s.modCell n f).drv = s.drv := rfl
@[simp] theorem State.modCell_cal (s : State) (n : Nat) (f : CellRt → CellRt) : (s.modCell n f).cal = s.cal := rfl
@[simp] theorem State.modCell_fab (s : State) (n : Nat) (f : CellRt → CellRt) : (s.modCell n f).fab = s.fab := rfl
@[simp] theorem State.modCell_ord (s : State) (n : Nat) (f : CellRt → CellRt) : (s.modCell n f).ord = s.ord := rfl
@[simp] theorem State.modCell_adc (s : State) (n : Nat) (f : CellRt → CellRt) : (s.modCell n f).adc = s.adc := rfl
@[simp] theorem State.modCell_red (s : State) (n : Nat) (f : CellRt → CellRt) : (s.modCell n f).red = s.red := rfl
@[simp] theorem State.modCell_saf (s : State) (n : Nat) (f : CellRt → CellRt) : (s.modCell n f).saf = s.saf := rfl
@[simp] theorem State.modCell_cfg (s : State) (n : Nat) (f : CellRt → CellRt) : (s.modCell n f).cfg = s.cfg := rfl
@[simp] theorem State.modCell_pwr (s : State) (n : Nat) (f : CellRt → CellRt) : (s.modCell n f).pwr = s.pwr := rfl
@[simp] theorem State.modCell_bs (s : State) (n : Nat) (f : CellRt → CellRt) : (s.modCell n f).bs = s.bs := rfl
@[simp] theorem State.modCell_arb (s : State) (n : Nat) (f : CellRt → CellRt) : (s.modCell n f).arb = s.arb := rfl
@[simp] theorem State.modCell_rd (s : State) (n : Nat) (f : CellRt → CellRt) (g : Field) (j : Nat) : (s.modCell n f).rd g j = s.rd g j := rfl

/-! State.modLane -/

@[simp] theorem State.modLane_pending (s : State) (n : Nat) (f : LaneRt → LaneRt) : (s.modLane n f).pending = s.pending := rfl
@[simp] theorem State.modLane_wire (s : State) (n : Nat) (f : LaneRt → LaneRt) : (s.modLane n f).wire = s.wire := rfl
@[simp] theorem State.modLane_free (s : State) (n : Nat) (f : LaneRt → LaneRt) : (s.modLane n f).free = s.free := rfl
@[simp] theorem State.modLane_serial (s : State) (n : Nat) (f : LaneRt → LaneRt) : (s.modLane n f).serial = s.serial := rfl
@[simp] theorem State.modLane_regs (s : State) (n : Nat) (f : LaneRt → LaneRt) : (s.modLane n f).regs = s.regs := rfl
@[simp] theorem State.modLane_clk (s : State) (n : Nat) (f : LaneRt → LaneRt) : (s.modLane n f).clk = s.clk := rfl
@[simp] theorem State.modLane_epo (s : State) (n : Nat) (f : LaneRt → LaneRt) : (s.modLane n f).epo = s.epo := rfl
@[simp] theorem State.modLane_pts (s : State) (n : Nat) (f : LaneRt → LaneRt) : (s.modLane n f).pts = s.pts := rfl
@[simp] theorem State.modLane_evq (s : State) (n : Nat) (f : LaneRt → LaneRt) : (s.modLane n f).evq = s.evq := rfl
@[simp] theorem State.modLane_dr (s : State) (n : Nat) (f : LaneRt → LaneRt) : (s.modLane n f).dr = s.dr := rfl
@[simp] theorem State.modLane_host (s : State) (n : Nat) (f : LaneRt → LaneRt) : (s.modLane n f).host = s.host := rfl
@[simp] theorem State.modLane_eth (s : State) (n : Nat) (f : LaneRt → LaneRt) : (s.modLane n f).eth = s.eth := rfl
@[simp] theorem State.modLane_conds (s : State) (n : Nat) (f : LaneRt → LaneRt) : (s.modLane n f).conds = s.conds := rfl
@[simp] theorem State.modLane_jtag (s : State) (n : Nat) (f : LaneRt → LaneRt) : (s.modLane n f).jtag = s.jtag := rfl
@[simp] theorem State.modLane_arms (s : State) (n : Nat) (f : LaneRt → LaneRt) : (s.modLane n f).arms = s.arms := rfl
@[simp] theorem State.modLane_cells (s : State) (n : Nat) (f : LaneRt → LaneRt) : (s.modLane n f).cells = s.cells := rfl
@[simp] theorem State.modLane_units (s : State) (n : Nat) (f : LaneRt → LaneRt) : (s.modLane n f).units = s.units := rfl
@[simp] theorem State.modLane_drv (s : State) (n : Nat) (f : LaneRt → LaneRt) : (s.modLane n f).drv = s.drv := rfl
@[simp] theorem State.modLane_cal (s : State) (n : Nat) (f : LaneRt → LaneRt) : (s.modLane n f).cal = s.cal := rfl
@[simp] theorem State.modLane_fab (s : State) (n : Nat) (f : LaneRt → LaneRt) : (s.modLane n f).fab = s.fab := rfl
@[simp] theorem State.modLane_ord (s : State) (n : Nat) (f : LaneRt → LaneRt) : (s.modLane n f).ord = s.ord := rfl
@[simp] theorem State.modLane_adc (s : State) (n : Nat) (f : LaneRt → LaneRt) : (s.modLane n f).adc = s.adc := rfl
@[simp] theorem State.modLane_red (s : State) (n : Nat) (f : LaneRt → LaneRt) : (s.modLane n f).red = s.red := rfl
@[simp] theorem State.modLane_saf (s : State) (n : Nat) (f : LaneRt → LaneRt) : (s.modLane n f).saf = s.saf := rfl
@[simp] theorem State.modLane_cfg (s : State) (n : Nat) (f : LaneRt → LaneRt) : (s.modLane n f).cfg = s.cfg := rfl
@[simp] theorem State.modLane_pwr (s : State) (n : Nat) (f : LaneRt → LaneRt) : (s.modLane n f).pwr = s.pwr := rfl
@[simp] theorem State.modLane_bs (s : State) (n : Nat) (f : LaneRt → LaneRt) : (s.modLane n f).bs = s.bs := rfl
@[simp] theorem State.modLane_arb (s : State) (n : Nat) (f : LaneRt → LaneRt) : (s.modLane n f).arb = s.arb := rfl
@[simp] theorem State.modLane_rd (s : State) (n : Nat) (f : LaneRt → LaneRt) (g : Field) (j : Nat) : (s.modLane n f).rd g j = s.rd g j := rfl

/-! State.modUnit -/

@[simp] theorem State.modUnit_pending (s : State) (n : Nat) (f : UnitRt → UnitRt) : (s.modUnit n f).pending = s.pending := rfl
@[simp] theorem State.modUnit_wire (s : State) (n : Nat) (f : UnitRt → UnitRt) : (s.modUnit n f).wire = s.wire := rfl
@[simp] theorem State.modUnit_free (s : State) (n : Nat) (f : UnitRt → UnitRt) : (s.modUnit n f).free = s.free := rfl
@[simp] theorem State.modUnit_serial (s : State) (n : Nat) (f : UnitRt → UnitRt) : (s.modUnit n f).serial = s.serial := rfl
@[simp] theorem State.modUnit_regs (s : State) (n : Nat) (f : UnitRt → UnitRt) : (s.modUnit n f).regs = s.regs := rfl
@[simp] theorem State.modUnit_clk (s : State) (n : Nat) (f : UnitRt → UnitRt) : (s.modUnit n f).clk = s.clk := rfl
@[simp] theorem State.modUnit_epo (s : State) (n : Nat) (f : UnitRt → UnitRt) : (s.modUnit n f).epo = s.epo := rfl
@[simp] theorem State.modUnit_pts (s : State) (n : Nat) (f : UnitRt → UnitRt) : (s.modUnit n f).pts = s.pts := rfl
@[simp] theorem State.modUnit_evq (s : State) (n : Nat) (f : UnitRt → UnitRt) : (s.modUnit n f).evq = s.evq := rfl
@[simp] theorem State.modUnit_dr (s : State) (n : Nat) (f : UnitRt → UnitRt) : (s.modUnit n f).dr = s.dr := rfl
@[simp] theorem State.modUnit_host (s : State) (n : Nat) (f : UnitRt → UnitRt) : (s.modUnit n f).host = s.host := rfl
@[simp] theorem State.modUnit_eth (s : State) (n : Nat) (f : UnitRt → UnitRt) : (s.modUnit n f).eth = s.eth := rfl
@[simp] theorem State.modUnit_conds (s : State) (n : Nat) (f : UnitRt → UnitRt) : (s.modUnit n f).conds = s.conds := rfl
@[simp] theorem State.modUnit_jtag (s : State) (n : Nat) (f : UnitRt → UnitRt) : (s.modUnit n f).jtag = s.jtag := rfl
@[simp] theorem State.modUnit_arms (s : State) (n : Nat) (f : UnitRt → UnitRt) : (s.modUnit n f).arms = s.arms := rfl
@[simp] theorem State.modUnit_cells (s : State) (n : Nat) (f : UnitRt → UnitRt) : (s.modUnit n f).cells = s.cells := rfl
@[simp] theorem State.modUnit_lanes (s : State) (n : Nat) (f : UnitRt → UnitRt) : (s.modUnit n f).lanes = s.lanes := rfl
@[simp] theorem State.modUnit_drv (s : State) (n : Nat) (f : UnitRt → UnitRt) : (s.modUnit n f).drv = s.drv := rfl
@[simp] theorem State.modUnit_cal (s : State) (n : Nat) (f : UnitRt → UnitRt) : (s.modUnit n f).cal = s.cal := rfl
@[simp] theorem State.modUnit_fab (s : State) (n : Nat) (f : UnitRt → UnitRt) : (s.modUnit n f).fab = s.fab := rfl
@[simp] theorem State.modUnit_ord (s : State) (n : Nat) (f : UnitRt → UnitRt) : (s.modUnit n f).ord = s.ord := rfl
@[simp] theorem State.modUnit_adc (s : State) (n : Nat) (f : UnitRt → UnitRt) : (s.modUnit n f).adc = s.adc := rfl
@[simp] theorem State.modUnit_red (s : State) (n : Nat) (f : UnitRt → UnitRt) : (s.modUnit n f).red = s.red := rfl
@[simp] theorem State.modUnit_saf (s : State) (n : Nat) (f : UnitRt → UnitRt) : (s.modUnit n f).saf = s.saf := rfl
@[simp] theorem State.modUnit_cfg (s : State) (n : Nat) (f : UnitRt → UnitRt) : (s.modUnit n f).cfg = s.cfg := rfl
@[simp] theorem State.modUnit_pwr (s : State) (n : Nat) (f : UnitRt → UnitRt) : (s.modUnit n f).pwr = s.pwr := rfl
@[simp] theorem State.modUnit_bs (s : State) (n : Nat) (f : UnitRt → UnitRt) : (s.modUnit n f).bs = s.bs := rfl
@[simp] theorem State.modUnit_arb (s : State) (n : Nat) (f : UnitRt → UnitRt) : (s.modUnit n f).arb = s.arb := rfl
@[simp] theorem State.modUnit_rd (s : State) (n : Nat) (f : UnitRt → UnitRt) (g : Field) (j : Nat) : (s.modUnit n f).rd g j = s.rd g j := rfl

/-! State.modDrv -/

@[simp] theorem State.modDrv_pending (s : State) (n : Nat) (f : DrvRt → DrvRt) : (s.modDrv n f).pending = s.pending := rfl
@[simp] theorem State.modDrv_wire (s : State) (n : Nat) (f : DrvRt → DrvRt) : (s.modDrv n f).wire = s.wire := rfl
@[simp] theorem State.modDrv_free (s : State) (n : Nat) (f : DrvRt → DrvRt) : (s.modDrv n f).free = s.free := rfl
@[simp] theorem State.modDrv_serial (s : State) (n : Nat) (f : DrvRt → DrvRt) : (s.modDrv n f).serial = s.serial := rfl
@[simp] theorem State.modDrv_regs (s : State) (n : Nat) (f : DrvRt → DrvRt) : (s.modDrv n f).regs = s.regs := rfl
@[simp] theorem State.modDrv_clk (s : State) (n : Nat) (f : DrvRt → DrvRt) : (s.modDrv n f).clk = s.clk := rfl
@[simp] theorem State.modDrv_epo (s : State) (n : Nat) (f : DrvRt → DrvRt) : (s.modDrv n f).epo = s.epo := rfl
@[simp] theorem State.modDrv_pts (s : State) (n : Nat) (f : DrvRt → DrvRt) : (s.modDrv n f).pts = s.pts := rfl
@[simp] theorem State.modDrv_evq (s : State) (n : Nat) (f : DrvRt → DrvRt) : (s.modDrv n f).evq = s.evq := rfl
@[simp] theorem State.modDrv_dr (s : State) (n : Nat) (f : DrvRt → DrvRt) : (s.modDrv n f).dr = s.dr := rfl
@[simp] theorem State.modDrv_host (s : State) (n : Nat) (f : DrvRt → DrvRt) : (s.modDrv n f).host = s.host := rfl
@[simp] theorem State.modDrv_eth (s : State) (n : Nat) (f : DrvRt → DrvRt) : (s.modDrv n f).eth = s.eth := rfl
@[simp] theorem State.modDrv_conds (s : State) (n : Nat) (f : DrvRt → DrvRt) : (s.modDrv n f).conds = s.conds := rfl
@[simp] theorem State.modDrv_jtag (s : State) (n : Nat) (f : DrvRt → DrvRt) : (s.modDrv n f).jtag = s.jtag := rfl
@[simp] theorem State.modDrv_arms (s : State) (n : Nat) (f : DrvRt → DrvRt) : (s.modDrv n f).arms = s.arms := rfl
@[simp] theorem State.modDrv_cells (s : State) (n : Nat) (f : DrvRt → DrvRt) : (s.modDrv n f).cells = s.cells := rfl
@[simp] theorem State.modDrv_lanes (s : State) (n : Nat) (f : DrvRt → DrvRt) : (s.modDrv n f).lanes = s.lanes := rfl
@[simp] theorem State.modDrv_units (s : State) (n : Nat) (f : DrvRt → DrvRt) : (s.modDrv n f).units = s.units := rfl
@[simp] theorem State.modDrv_cal (s : State) (n : Nat) (f : DrvRt → DrvRt) : (s.modDrv n f).cal = s.cal := rfl
@[simp] theorem State.modDrv_fab (s : State) (n : Nat) (f : DrvRt → DrvRt) : (s.modDrv n f).fab = s.fab := rfl
@[simp] theorem State.modDrv_ord (s : State) (n : Nat) (f : DrvRt → DrvRt) : (s.modDrv n f).ord = s.ord := rfl
@[simp] theorem State.modDrv_adc (s : State) (n : Nat) (f : DrvRt → DrvRt) : (s.modDrv n f).adc = s.adc := rfl
@[simp] theorem State.modDrv_red (s : State) (n : Nat) (f : DrvRt → DrvRt) : (s.modDrv n f).red = s.red := rfl
@[simp] theorem State.modDrv_saf (s : State) (n : Nat) (f : DrvRt → DrvRt) : (s.modDrv n f).saf = s.saf := rfl
@[simp] theorem State.modDrv_cfg (s : State) (n : Nat) (f : DrvRt → DrvRt) : (s.modDrv n f).cfg = s.cfg := rfl
@[simp] theorem State.modDrv_pwr (s : State) (n : Nat) (f : DrvRt → DrvRt) : (s.modDrv n f).pwr = s.pwr := rfl
@[simp] theorem State.modDrv_bs (s : State) (n : Nat) (f : DrvRt → DrvRt) : (s.modDrv n f).bs = s.bs := rfl
@[simp] theorem State.modDrv_arb (s : State) (n : Nat) (f : DrvRt → DrvRt) : (s.modDrv n f).arb = s.arb := rfl
@[simp] theorem State.modDrv_rd (s : State) (n : Nat) (f : DrvRt → DrvRt) (g : Field) (j : Nat) : (s.modDrv n f).rd g j = s.rd g j := rfl

/-! State.modGraph -/

@[simp] theorem State.modGraph_pending (s : State) (n : Nat) (f : GraphRt → GraphRt) : (s.modGraph n f).pending = s.pending := rfl
@[simp] theorem State.modGraph_wire (s : State) (n : Nat) (f : GraphRt → GraphRt) : (s.modGraph n f).wire = s.wire := rfl
@[simp] theorem State.modGraph_free (s : State) (n : Nat) (f : GraphRt → GraphRt) : (s.modGraph n f).free = s.free := rfl
@[simp] theorem State.modGraph_serial (s : State) (n : Nat) (f : GraphRt → GraphRt) : (s.modGraph n f).serial = s.serial := rfl
@[simp] theorem State.modGraph_regs (s : State) (n : Nat) (f : GraphRt → GraphRt) : (s.modGraph n f).regs = s.regs := rfl
@[simp] theorem State.modGraph_clk (s : State) (n : Nat) (f : GraphRt → GraphRt) : (s.modGraph n f).clk = s.clk := rfl
@[simp] theorem State.modGraph_epo (s : State) (n : Nat) (f : GraphRt → GraphRt) : (s.modGraph n f).epo = s.epo := rfl
@[simp] theorem State.modGraph_pts (s : State) (n : Nat) (f : GraphRt → GraphRt) : (s.modGraph n f).pts = s.pts := rfl
@[simp] theorem State.modGraph_evq (s : State) (n : Nat) (f : GraphRt → GraphRt) : (s.modGraph n f).evq = s.evq := rfl
@[simp] theorem State.modGraph_dr (s : State) (n : Nat) (f : GraphRt → GraphRt) : (s.modGraph n f).dr = s.dr := rfl
@[simp] theorem State.modGraph_host (s : State) (n : Nat) (f : GraphRt → GraphRt) : (s.modGraph n f).host = s.host := rfl
@[simp] theorem State.modGraph_eth (s : State) (n : Nat) (f : GraphRt → GraphRt) : (s.modGraph n f).eth = s.eth := rfl
@[simp] theorem State.modGraph_conds (s : State) (n : Nat) (f : GraphRt → GraphRt) : (s.modGraph n f).conds = s.conds := rfl
@[simp] theorem State.modGraph_jtag (s : State) (n : Nat) (f : GraphRt → GraphRt) : (s.modGraph n f).jtag = s.jtag := rfl
@[simp] theorem State.modGraph_arms (s : State) (n : Nat) (f : GraphRt → GraphRt) : (s.modGraph n f).arms = s.arms := rfl
@[simp] theorem State.modGraph_cells (s : State) (n : Nat) (f : GraphRt → GraphRt) : (s.modGraph n f).cells = s.cells := rfl
@[simp] theorem State.modGraph_lanes (s : State) (n : Nat) (f : GraphRt → GraphRt) : (s.modGraph n f).lanes = s.lanes := rfl
@[simp] theorem State.modGraph_units (s : State) (n : Nat) (f : GraphRt → GraphRt) : (s.modGraph n f).units = s.units := rfl
@[simp] theorem State.modGraph_drv (s : State) (n : Nat) (f : GraphRt → GraphRt) : (s.modGraph n f).drv = s.drv := rfl
@[simp] theorem State.modGraph_cal (s : State) (n : Nat) (f : GraphRt → GraphRt) : (s.modGraph n f).cal = s.cal := rfl
@[simp] theorem State.modGraph_ord (s : State) (n : Nat) (f : GraphRt → GraphRt) : (s.modGraph n f).ord = s.ord := rfl
@[simp] theorem State.modGraph_adc (s : State) (n : Nat) (f : GraphRt → GraphRt) : (s.modGraph n f).adc = s.adc := rfl
@[simp] theorem State.modGraph_red (s : State) (n : Nat) (f : GraphRt → GraphRt) : (s.modGraph n f).red = s.red := rfl
@[simp] theorem State.modGraph_saf (s : State) (n : Nat) (f : GraphRt → GraphRt) : (s.modGraph n f).saf = s.saf := rfl
@[simp] theorem State.modGraph_cfg (s : State) (n : Nat) (f : GraphRt → GraphRt) : (s.modGraph n f).cfg = s.cfg := rfl
@[simp] theorem State.modGraph_pwr (s : State) (n : Nat) (f : GraphRt → GraphRt) : (s.modGraph n f).pwr = s.pwr := rfl
@[simp] theorem State.modGraph_bs (s : State) (n : Nat) (f : GraphRt → GraphRt) : (s.modGraph n f).bs = s.bs := rfl
@[simp] theorem State.modGraph_arb (s : State) (n : Nat) (f : GraphRt → GraphRt) : (s.modGraph n f).arb = s.arb := rfl
@[simp] theorem State.modGraph_rd (s : State) (n : Nat) (f : GraphRt → GraphRt) (g : Field) (j : Nat) : (s.modGraph n f).rd g j = s.rd g j := rfl

/-! State.modEngine -/

@[simp] theorem State.modEngine_pending (s : State) (n : Nat) (f : Engine → Engine) : (s.modEngine n f).pending = s.pending := rfl
@[simp] theorem State.modEngine_wire (s : State) (n : Nat) (f : Engine → Engine) : (s.modEngine n f).wire = s.wire := rfl
@[simp] theorem State.modEngine_free (s : State) (n : Nat) (f : Engine → Engine) : (s.modEngine n f).free = s.free := rfl
@[simp] theorem State.modEngine_serial (s : State) (n : Nat) (f : Engine → Engine) : (s.modEngine n f).serial = s.serial := rfl
@[simp] theorem State.modEngine_regs (s : State) (n : Nat) (f : Engine → Engine) : (s.modEngine n f).regs = s.regs := rfl
@[simp] theorem State.modEngine_clk (s : State) (n : Nat) (f : Engine → Engine) : (s.modEngine n f).clk = s.clk := rfl
@[simp] theorem State.modEngine_epo (s : State) (n : Nat) (f : Engine → Engine) : (s.modEngine n f).epo = s.epo := rfl
@[simp] theorem State.modEngine_pts (s : State) (n : Nat) (f : Engine → Engine) : (s.modEngine n f).pts = s.pts := rfl
@[simp] theorem State.modEngine_evq (s : State) (n : Nat) (f : Engine → Engine) : (s.modEngine n f).evq = s.evq := rfl
@[simp] theorem State.modEngine_dr (s : State) (n : Nat) (f : Engine → Engine) : (s.modEngine n f).dr = s.dr := rfl
@[simp] theorem State.modEngine_host (s : State) (n : Nat) (f : Engine → Engine) : (s.modEngine n f).host = s.host := rfl
@[simp] theorem State.modEngine_eth (s : State) (n : Nat) (f : Engine → Engine) : (s.modEngine n f).eth = s.eth := rfl
@[simp] theorem State.modEngine_conds (s : State) (n : Nat) (f : Engine → Engine) : (s.modEngine n f).conds = s.conds := rfl
@[simp] theorem State.modEngine_jtag (s : State) (n : Nat) (f : Engine → Engine) : (s.modEngine n f).jtag = s.jtag := rfl
@[simp] theorem State.modEngine_arms (s : State) (n : Nat) (f : Engine → Engine) : (s.modEngine n f).arms = s.arms := rfl
@[simp] theorem State.modEngine_cells (s : State) (n : Nat) (f : Engine → Engine) : (s.modEngine n f).cells = s.cells := rfl
@[simp] theorem State.modEngine_lanes (s : State) (n : Nat) (f : Engine → Engine) : (s.modEngine n f).lanes = s.lanes := rfl
@[simp] theorem State.modEngine_units (s : State) (n : Nat) (f : Engine → Engine) : (s.modEngine n f).units = s.units := rfl
@[simp] theorem State.modEngine_drv (s : State) (n : Nat) (f : Engine → Engine) : (s.modEngine n f).drv = s.drv := rfl
@[simp] theorem State.modEngine_cal (s : State) (n : Nat) (f : Engine → Engine) : (s.modEngine n f).cal = s.cal := rfl
@[simp] theorem State.modEngine_ord (s : State) (n : Nat) (f : Engine → Engine) : (s.modEngine n f).ord = s.ord := rfl
@[simp] theorem State.modEngine_adc (s : State) (n : Nat) (f : Engine → Engine) : (s.modEngine n f).adc = s.adc := rfl
@[simp] theorem State.modEngine_red (s : State) (n : Nat) (f : Engine → Engine) : (s.modEngine n f).red = s.red := rfl
@[simp] theorem State.modEngine_saf (s : State) (n : Nat) (f : Engine → Engine) : (s.modEngine n f).saf = s.saf := rfl
@[simp] theorem State.modEngine_cfg (s : State) (n : Nat) (f : Engine → Engine) : (s.modEngine n f).cfg = s.cfg := rfl
@[simp] theorem State.modEngine_pwr (s : State) (n : Nat) (f : Engine → Engine) : (s.modEngine n f).pwr = s.pwr := rfl
@[simp] theorem State.modEngine_bs (s : State) (n : Nat) (f : Engine → Engine) : (s.modEngine n f).bs = s.bs := rfl
@[simp] theorem State.modEngine_arb (s : State) (n : Nat) (f : Engine → Engine) : (s.modEngine n f).arb = s.arb := rfl
@[simp] theorem State.modEngine_rd (s : State) (n : Nat) (f : Engine → Engine) (g : Field) (j : Nat) : (s.modEngine n f).rd g j = s.rd g j := rfl

/-! State.modFlow -/

@[simp] theorem State.modFlow_pending (s : State) (n : Nat) (f : FlowRt → FlowRt) : (s.modFlow n f).pending = s.pending := rfl
@[simp] theorem State.modFlow_wire (s : State) (n : Nat) (f : FlowRt → FlowRt) : (s.modFlow n f).wire = s.wire := rfl
@[simp] theorem State.modFlow_free (s : State) (n : Nat) (f : FlowRt → FlowRt) : (s.modFlow n f).free = s.free := rfl
@[simp] theorem State.modFlow_serial (s : State) (n : Nat) (f : FlowRt → FlowRt) : (s.modFlow n f).serial = s.serial := rfl
@[simp] theorem State.modFlow_regs (s : State) (n : Nat) (f : FlowRt → FlowRt) : (s.modFlow n f).regs = s.regs := rfl
@[simp] theorem State.modFlow_clk (s : State) (n : Nat) (f : FlowRt → FlowRt) : (s.modFlow n f).clk = s.clk := rfl
@[simp] theorem State.modFlow_epo (s : State) (n : Nat) (f : FlowRt → FlowRt) : (s.modFlow n f).epo = s.epo := rfl
@[simp] theorem State.modFlow_pts (s : State) (n : Nat) (f : FlowRt → FlowRt) : (s.modFlow n f).pts = s.pts := rfl
@[simp] theorem State.modFlow_evq (s : State) (n : Nat) (f : FlowRt → FlowRt) : (s.modFlow n f).evq = s.evq := rfl
@[simp] theorem State.modFlow_dr (s : State) (n : Nat) (f : FlowRt → FlowRt) : (s.modFlow n f).dr = s.dr := rfl
@[simp] theorem State.modFlow_host (s : State) (n : Nat) (f : FlowRt → FlowRt) : (s.modFlow n f).host = s.host := rfl
@[simp] theorem State.modFlow_eth (s : State) (n : Nat) (f : FlowRt → FlowRt) : (s.modFlow n f).eth = s.eth := rfl
@[simp] theorem State.modFlow_conds (s : State) (n : Nat) (f : FlowRt → FlowRt) : (s.modFlow n f).conds = s.conds := rfl
@[simp] theorem State.modFlow_jtag (s : State) (n : Nat) (f : FlowRt → FlowRt) : (s.modFlow n f).jtag = s.jtag := rfl
@[simp] theorem State.modFlow_arms (s : State) (n : Nat) (f : FlowRt → FlowRt) : (s.modFlow n f).arms = s.arms := rfl
@[simp] theorem State.modFlow_cells (s : State) (n : Nat) (f : FlowRt → FlowRt) : (s.modFlow n f).cells = s.cells := rfl
@[simp] theorem State.modFlow_lanes (s : State) (n : Nat) (f : FlowRt → FlowRt) : (s.modFlow n f).lanes = s.lanes := rfl
@[simp] theorem State.modFlow_units (s : State) (n : Nat) (f : FlowRt → FlowRt) : (s.modFlow n f).units = s.units := rfl
@[simp] theorem State.modFlow_drv (s : State) (n : Nat) (f : FlowRt → FlowRt) : (s.modFlow n f).drv = s.drv := rfl
@[simp] theorem State.modFlow_cal (s : State) (n : Nat) (f : FlowRt → FlowRt) : (s.modFlow n f).cal = s.cal := rfl
@[simp] theorem State.modFlow_ord (s : State) (n : Nat) (f : FlowRt → FlowRt) : (s.modFlow n f).ord = s.ord := rfl
@[simp] theorem State.modFlow_adc (s : State) (n : Nat) (f : FlowRt → FlowRt) : (s.modFlow n f).adc = s.adc := rfl
@[simp] theorem State.modFlow_red (s : State) (n : Nat) (f : FlowRt → FlowRt) : (s.modFlow n f).red = s.red := rfl
@[simp] theorem State.modFlow_saf (s : State) (n : Nat) (f : FlowRt → FlowRt) : (s.modFlow n f).saf = s.saf := rfl
@[simp] theorem State.modFlow_cfg (s : State) (n : Nat) (f : FlowRt → FlowRt) : (s.modFlow n f).cfg = s.cfg := rfl
@[simp] theorem State.modFlow_pwr (s : State) (n : Nat) (f : FlowRt → FlowRt) : (s.modFlow n f).pwr = s.pwr := rfl
@[simp] theorem State.modFlow_bs (s : State) (n : Nat) (f : FlowRt → FlowRt) : (s.modFlow n f).bs = s.bs := rfl
@[simp] theorem State.modFlow_arb (s : State) (n : Nat) (f : FlowRt → FlowRt) : (s.modFlow n f).arb = s.arb := rfl
@[simp] theorem State.modFlow_rd (s : State) (n : Nat) (f : FlowRt → FlowRt) (g : Field) (j : Nat) : (s.modFlow n f).rd g j = s.rd g j := rfl

/-! State.modJob -/

@[simp] theorem State.modJob_pending (s : State) (n : Nat) (f : Job → Job) : (s.modJob n f).pending = s.pending := rfl
@[simp] theorem State.modJob_wire (s : State) (n : Nat) (f : Job → Job) : (s.modJob n f).wire = s.wire := rfl
@[simp] theorem State.modJob_free (s : State) (n : Nat) (f : Job → Job) : (s.modJob n f).free = s.free := rfl
@[simp] theorem State.modJob_serial (s : State) (n : Nat) (f : Job → Job) : (s.modJob n f).serial = s.serial := rfl
@[simp] theorem State.modJob_regs (s : State) (n : Nat) (f : Job → Job) : (s.modJob n f).regs = s.regs := rfl
@[simp] theorem State.modJob_clk (s : State) (n : Nat) (f : Job → Job) : (s.modJob n f).clk = s.clk := rfl
@[simp] theorem State.modJob_epo (s : State) (n : Nat) (f : Job → Job) : (s.modJob n f).epo = s.epo := rfl
@[simp] theorem State.modJob_pts (s : State) (n : Nat) (f : Job → Job) : (s.modJob n f).pts = s.pts := rfl
@[simp] theorem State.modJob_evq (s : State) (n : Nat) (f : Job → Job) : (s.modJob n f).evq = s.evq := rfl
@[simp] theorem State.modJob_dr (s : State) (n : Nat) (f : Job → Job) : (s.modJob n f).dr = s.dr := rfl
@[simp] theorem State.modJob_host (s : State) (n : Nat) (f : Job → Job) : (s.modJob n f).host = s.host := rfl
@[simp] theorem State.modJob_eth (s : State) (n : Nat) (f : Job → Job) : (s.modJob n f).eth = s.eth := rfl
@[simp] theorem State.modJob_conds (s : State) (n : Nat) (f : Job → Job) : (s.modJob n f).conds = s.conds := rfl
@[simp] theorem State.modJob_jtag (s : State) (n : Nat) (f : Job → Job) : (s.modJob n f).jtag = s.jtag := rfl
@[simp] theorem State.modJob_arms (s : State) (n : Nat) (f : Job → Job) : (s.modJob n f).arms = s.arms := rfl
@[simp] theorem State.modJob_cells (s : State) (n : Nat) (f : Job → Job) : (s.modJob n f).cells = s.cells := rfl
@[simp] theorem State.modJob_lanes (s : State) (n : Nat) (f : Job → Job) : (s.modJob n f).lanes = s.lanes := rfl
@[simp] theorem State.modJob_units (s : State) (n : Nat) (f : Job → Job) : (s.modJob n f).units = s.units := rfl
@[simp] theorem State.modJob_drv (s : State) (n : Nat) (f : Job → Job) : (s.modJob n f).drv = s.drv := rfl
@[simp] theorem State.modJob_cal (s : State) (n : Nat) (f : Job → Job) : (s.modJob n f).cal = s.cal := rfl
@[simp] theorem State.modJob_ord (s : State) (n : Nat) (f : Job → Job) : (s.modJob n f).ord = s.ord := rfl
@[simp] theorem State.modJob_adc (s : State) (n : Nat) (f : Job → Job) : (s.modJob n f).adc = s.adc := rfl
@[simp] theorem State.modJob_red (s : State) (n : Nat) (f : Job → Job) : (s.modJob n f).red = s.red := rfl
@[simp] theorem State.modJob_saf (s : State) (n : Nat) (f : Job → Job) : (s.modJob n f).saf = s.saf := rfl
@[simp] theorem State.modJob_cfg (s : State) (n : Nat) (f : Job → Job) : (s.modJob n f).cfg = s.cfg := rfl
@[simp] theorem State.modJob_pwr (s : State) (n : Nat) (f : Job → Job) : (s.modJob n f).pwr = s.pwr := rfl
@[simp] theorem State.modJob_bs (s : State) (n : Nat) (f : Job → Job) : (s.modJob n f).bs = s.bs := rfl
@[simp] theorem State.modJob_arb (s : State) (n : Nat) (f : Job → Job) : (s.modJob n f).arb = s.arb := rfl
@[simp] theorem State.modJob_rd (s : State) (n : Nat) (f : Job → Job) (g : Field) (j : Nat) : (s.modJob n f).rd g j = s.rd g j := rfl

/-! State.modStream -/

@[simp] theorem State.modStream_pending (s : State) (n : Nat) (f : StreamRt → StreamRt) : (s.modStream n f).pending = s.pending := rfl
@[simp] theorem State.modStream_wire (s : State) (n : Nat) (f : StreamRt → StreamRt) : (s.modStream n f).wire = s.wire := rfl
@[simp] theorem State.modStream_free (s : State) (n : Nat) (f : StreamRt → StreamRt) : (s.modStream n f).free = s.free := rfl
@[simp] theorem State.modStream_serial (s : State) (n : Nat) (f : StreamRt → StreamRt) : (s.modStream n f).serial = s.serial := rfl
@[simp] theorem State.modStream_regs (s : State) (n : Nat) (f : StreamRt → StreamRt) : (s.modStream n f).regs = s.regs := rfl
@[simp] theorem State.modStream_clk (s : State) (n : Nat) (f : StreamRt → StreamRt) : (s.modStream n f).clk = s.clk := rfl
@[simp] theorem State.modStream_epo (s : State) (n : Nat) (f : StreamRt → StreamRt) : (s.modStream n f).epo = s.epo := rfl
@[simp] theorem State.modStream_pts (s : State) (n : Nat) (f : StreamRt → StreamRt) : (s.modStream n f).pts = s.pts := rfl
@[simp] theorem State.modStream_evq (s : State) (n : Nat) (f : StreamRt → StreamRt) : (s.modStream n f).evq = s.evq := rfl
@[simp] theorem State.modStream_dr (s : State) (n : Nat) (f : StreamRt → StreamRt) : (s.modStream n f).dr = s.dr := rfl
@[simp] theorem State.modStream_host (s : State) (n : Nat) (f : StreamRt → StreamRt) : (s.modStream n f).host = s.host := rfl
@[simp] theorem State.modStream_eth (s : State) (n : Nat) (f : StreamRt → StreamRt) : (s.modStream n f).eth = s.eth := rfl
@[simp] theorem State.modStream_conds (s : State) (n : Nat) (f : StreamRt → StreamRt) : (s.modStream n f).conds = s.conds := rfl
@[simp] theorem State.modStream_jtag (s : State) (n : Nat) (f : StreamRt → StreamRt) : (s.modStream n f).jtag = s.jtag := rfl
@[simp] theorem State.modStream_arms (s : State) (n : Nat) (f : StreamRt → StreamRt) : (s.modStream n f).arms = s.arms := rfl
@[simp] theorem State.modStream_cells (s : State) (n : Nat) (f : StreamRt → StreamRt) : (s.modStream n f).cells = s.cells := rfl
@[simp] theorem State.modStream_lanes (s : State) (n : Nat) (f : StreamRt → StreamRt) : (s.modStream n f).lanes = s.lanes := rfl
@[simp] theorem State.modStream_units (s : State) (n : Nat) (f : StreamRt → StreamRt) : (s.modStream n f).units = s.units := rfl
@[simp] theorem State.modStream_drv (s : State) (n : Nat) (f : StreamRt → StreamRt) : (s.modStream n f).drv = s.drv := rfl
@[simp] theorem State.modStream_cal (s : State) (n : Nat) (f : StreamRt → StreamRt) : (s.modStream n f).cal = s.cal := rfl
@[simp] theorem State.modStream_ord (s : State) (n : Nat) (f : StreamRt → StreamRt) : (s.modStream n f).ord = s.ord := rfl
@[simp] theorem State.modStream_adc (s : State) (n : Nat) (f : StreamRt → StreamRt) : (s.modStream n f).adc = s.adc := rfl
@[simp] theorem State.modStream_red (s : State) (n : Nat) (f : StreamRt → StreamRt) : (s.modStream n f).red = s.red := rfl
@[simp] theorem State.modStream_saf (s : State) (n : Nat) (f : StreamRt → StreamRt) : (s.modStream n f).saf = s.saf := rfl
@[simp] theorem State.modStream_cfg (s : State) (n : Nat) (f : StreamRt → StreamRt) : (s.modStream n f).cfg = s.cfg := rfl
@[simp] theorem State.modStream_pwr (s : State) (n : Nat) (f : StreamRt → StreamRt) : (s.modStream n f).pwr = s.pwr := rfl
@[simp] theorem State.modStream_bs (s : State) (n : Nat) (f : StreamRt → StreamRt) : (s.modStream n f).bs = s.bs := rfl
@[simp] theorem State.modStream_arb (s : State) (n : Nat) (f : StreamRt → StreamRt) : (s.modStream n f).arb = s.arb := rfl
@[simp] theorem State.modStream_rd (s : State) (n : Nat) (f : StreamRt → StreamRt) (g : Field) (j : Nat) : (s.modStream n f).rd g j = s.rd g j := rfl

/-! State.modQueue -/

@[simp] theorem State.modQueue_pending (s : State) (n : Nat) (f : QueueRt → QueueRt) : (s.modQueue n f).pending = s.pending := rfl
@[simp] theorem State.modQueue_wire (s : State) (n : Nat) (f : QueueRt → QueueRt) : (s.modQueue n f).wire = s.wire := rfl
@[simp] theorem State.modQueue_free (s : State) (n : Nat) (f : QueueRt → QueueRt) : (s.modQueue n f).free = s.free := rfl
@[simp] theorem State.modQueue_serial (s : State) (n : Nat) (f : QueueRt → QueueRt) : (s.modQueue n f).serial = s.serial := rfl
@[simp] theorem State.modQueue_regs (s : State) (n : Nat) (f : QueueRt → QueueRt) : (s.modQueue n f).regs = s.regs := rfl
@[simp] theorem State.modQueue_clk (s : State) (n : Nat) (f : QueueRt → QueueRt) : (s.modQueue n f).clk = s.clk := rfl
@[simp] theorem State.modQueue_epo (s : State) (n : Nat) (f : QueueRt → QueueRt) : (s.modQueue n f).epo = s.epo := rfl
@[simp] theorem State.modQueue_pts (s : State) (n : Nat) (f : QueueRt → QueueRt) : (s.modQueue n f).pts = s.pts := rfl
@[simp] theorem State.modQueue_evq (s : State) (n : Nat) (f : QueueRt → QueueRt) : (s.modQueue n f).evq = s.evq := rfl
@[simp] theorem State.modQueue_dr (s : State) (n : Nat) (f : QueueRt → QueueRt) : (s.modQueue n f).dr = s.dr := rfl
@[simp] theorem State.modQueue_host (s : State) (n : Nat) (f : QueueRt → QueueRt) : (s.modQueue n f).host = s.host := rfl
@[simp] theorem State.modQueue_eth (s : State) (n : Nat) (f : QueueRt → QueueRt) : (s.modQueue n f).eth = s.eth := rfl
@[simp] theorem State.modQueue_conds (s : State) (n : Nat) (f : QueueRt → QueueRt) : (s.modQueue n f).conds = s.conds := rfl
@[simp] theorem State.modQueue_jtag (s : State) (n : Nat) (f : QueueRt → QueueRt) : (s.modQueue n f).jtag = s.jtag := rfl
@[simp] theorem State.modQueue_arms (s : State) (n : Nat) (f : QueueRt → QueueRt) : (s.modQueue n f).arms = s.arms := rfl
@[simp] theorem State.modQueue_cells (s : State) (n : Nat) (f : QueueRt → QueueRt) : (s.modQueue n f).cells = s.cells := rfl
@[simp] theorem State.modQueue_lanes (s : State) (n : Nat) (f : QueueRt → QueueRt) : (s.modQueue n f).lanes = s.lanes := rfl
@[simp] theorem State.modQueue_units (s : State) (n : Nat) (f : QueueRt → QueueRt) : (s.modQueue n f).units = s.units := rfl
@[simp] theorem State.modQueue_drv (s : State) (n : Nat) (f : QueueRt → QueueRt) : (s.modQueue n f).drv = s.drv := rfl
@[simp] theorem State.modQueue_cal (s : State) (n : Nat) (f : QueueRt → QueueRt) : (s.modQueue n f).cal = s.cal := rfl
@[simp] theorem State.modQueue_ord (s : State) (n : Nat) (f : QueueRt → QueueRt) : (s.modQueue n f).ord = s.ord := rfl
@[simp] theorem State.modQueue_adc (s : State) (n : Nat) (f : QueueRt → QueueRt) : (s.modQueue n f).adc = s.adc := rfl
@[simp] theorem State.modQueue_red (s : State) (n : Nat) (f : QueueRt → QueueRt) : (s.modQueue n f).red = s.red := rfl
@[simp] theorem State.modQueue_saf (s : State) (n : Nat) (f : QueueRt → QueueRt) : (s.modQueue n f).saf = s.saf := rfl
@[simp] theorem State.modQueue_cfg (s : State) (n : Nat) (f : QueueRt → QueueRt) : (s.modQueue n f).cfg = s.cfg := rfl
@[simp] theorem State.modQueue_pwr (s : State) (n : Nat) (f : QueueRt → QueueRt) : (s.modQueue n f).pwr = s.pwr := rfl
@[simp] theorem State.modQueue_bs (s : State) (n : Nat) (f : QueueRt → QueueRt) : (s.modQueue n f).bs = s.bs := rfl
@[simp] theorem State.modQueue_arb (s : State) (n : Nat) (f : QueueRt → QueueRt) : (s.modQueue n f).arb = s.arb := rfl
@[simp] theorem State.modQueue_rd (s : State) (n : Nat) (f : QueueRt → QueueRt) (g : Field) (j : Nat) : (s.modQueue n f).rd g j = s.rd g j := rfl

/-! State.modRamp -/

@[simp] theorem State.modRamp_pending (s : State) (n : Nat) (f : RampRt → RampRt) : (s.modRamp n f).pending = s.pending := rfl
@[simp] theorem State.modRamp_wire (s : State) (n : Nat) (f : RampRt → RampRt) : (s.modRamp n f).wire = s.wire := rfl
@[simp] theorem State.modRamp_free (s : State) (n : Nat) (f : RampRt → RampRt) : (s.modRamp n f).free = s.free := rfl
@[simp] theorem State.modRamp_serial (s : State) (n : Nat) (f : RampRt → RampRt) : (s.modRamp n f).serial = s.serial := rfl
@[simp] theorem State.modRamp_regs (s : State) (n : Nat) (f : RampRt → RampRt) : (s.modRamp n f).regs = s.regs := rfl
@[simp] theorem State.modRamp_clk (s : State) (n : Nat) (f : RampRt → RampRt) : (s.modRamp n f).clk = s.clk := rfl
@[simp] theorem State.modRamp_epo (s : State) (n : Nat) (f : RampRt → RampRt) : (s.modRamp n f).epo = s.epo := rfl
@[simp] theorem State.modRamp_pts (s : State) (n : Nat) (f : RampRt → RampRt) : (s.modRamp n f).pts = s.pts := rfl
@[simp] theorem State.modRamp_evq (s : State) (n : Nat) (f : RampRt → RampRt) : (s.modRamp n f).evq = s.evq := rfl
@[simp] theorem State.modRamp_dr (s : State) (n : Nat) (f : RampRt → RampRt) : (s.modRamp n f).dr = s.dr := rfl
@[simp] theorem State.modRamp_host (s : State) (n : Nat) (f : RampRt → RampRt) : (s.modRamp n f).host = s.host := rfl
@[simp] theorem State.modRamp_eth (s : State) (n : Nat) (f : RampRt → RampRt) : (s.modRamp n f).eth = s.eth := rfl
@[simp] theorem State.modRamp_conds (s : State) (n : Nat) (f : RampRt → RampRt) : (s.modRamp n f).conds = s.conds := rfl
@[simp] theorem State.modRamp_jtag (s : State) (n : Nat) (f : RampRt → RampRt) : (s.modRamp n f).jtag = s.jtag := rfl
@[simp] theorem State.modRamp_arms (s : State) (n : Nat) (f : RampRt → RampRt) : (s.modRamp n f).arms = s.arms := rfl
@[simp] theorem State.modRamp_cells (s : State) (n : Nat) (f : RampRt → RampRt) : (s.modRamp n f).cells = s.cells := rfl
@[simp] theorem State.modRamp_lanes (s : State) (n : Nat) (f : RampRt → RampRt) : (s.modRamp n f).lanes = s.lanes := rfl
@[simp] theorem State.modRamp_units (s : State) (n : Nat) (f : RampRt → RampRt) : (s.modRamp n f).units = s.units := rfl
@[simp] theorem State.modRamp_drv (s : State) (n : Nat) (f : RampRt → RampRt) : (s.modRamp n f).drv = s.drv := rfl
@[simp] theorem State.modRamp_cal (s : State) (n : Nat) (f : RampRt → RampRt) : (s.modRamp n f).cal = s.cal := rfl
@[simp] theorem State.modRamp_fab (s : State) (n : Nat) (f : RampRt → RampRt) : (s.modRamp n f).fab = s.fab := rfl
@[simp] theorem State.modRamp_adc (s : State) (n : Nat) (f : RampRt → RampRt) : (s.modRamp n f).adc = s.adc := rfl
@[simp] theorem State.modRamp_red (s : State) (n : Nat) (f : RampRt → RampRt) : (s.modRamp n f).red = s.red := rfl
@[simp] theorem State.modRamp_saf (s : State) (n : Nat) (f : RampRt → RampRt) : (s.modRamp n f).saf = s.saf := rfl
@[simp] theorem State.modRamp_cfg (s : State) (n : Nat) (f : RampRt → RampRt) : (s.modRamp n f).cfg = s.cfg := rfl
@[simp] theorem State.modRamp_pwr (s : State) (n : Nat) (f : RampRt → RampRt) : (s.modRamp n f).pwr = s.pwr := rfl
@[simp] theorem State.modRamp_bs (s : State) (n : Nat) (f : RampRt → RampRt) : (s.modRamp n f).bs = s.bs := rfl
@[simp] theorem State.modRamp_arb (s : State) (n : Nat) (f : RampRt → RampRt) : (s.modRamp n f).arb = s.arb := rfl
@[simp] theorem State.modRamp_rd (s : State) (n : Nat) (f : RampRt → RampRt) (g : Field) (j : Nat) : (s.modRamp n f).rd g j = s.rd g j := rfl

/-! State.modGen -/

@[simp] theorem State.modGen_pending (s : State) (n : Nat) (f : GenRt → GenRt) : (s.modGen n f).pending = s.pending := rfl
@[simp] theorem State.modGen_wire (s : State) (n : Nat) (f : GenRt → GenRt) : (s.modGen n f).wire = s.wire := rfl
@[simp] theorem State.modGen_free (s : State) (n : Nat) (f : GenRt → GenRt) : (s.modGen n f).free = s.free := rfl
@[simp] theorem State.modGen_serial (s : State) (n : Nat) (f : GenRt → GenRt) : (s.modGen n f).serial = s.serial := rfl
@[simp] theorem State.modGen_regs (s : State) (n : Nat) (f : GenRt → GenRt) : (s.modGen n f).regs = s.regs := rfl
@[simp] theorem State.modGen_clk (s : State) (n : Nat) (f : GenRt → GenRt) : (s.modGen n f).clk = s.clk := rfl
@[simp] theorem State.modGen_epo (s : State) (n : Nat) (f : GenRt → GenRt) : (s.modGen n f).epo = s.epo := rfl
@[simp] theorem State.modGen_pts (s : State) (n : Nat) (f : GenRt → GenRt) : (s.modGen n f).pts = s.pts := rfl
@[simp] theorem State.modGen_evq (s : State) (n : Nat) (f : GenRt → GenRt) : (s.modGen n f).evq = s.evq := rfl
@[simp] theorem State.modGen_dr (s : State) (n : Nat) (f : GenRt → GenRt) : (s.modGen n f).dr = s.dr := rfl
@[simp] theorem State.modGen_host (s : State) (n : Nat) (f : GenRt → GenRt) : (s.modGen n f).host = s.host := rfl
@[simp] theorem State.modGen_eth (s : State) (n : Nat) (f : GenRt → GenRt) : (s.modGen n f).eth = s.eth := rfl
@[simp] theorem State.modGen_conds (s : State) (n : Nat) (f : GenRt → GenRt) : (s.modGen n f).conds = s.conds := rfl
@[simp] theorem State.modGen_jtag (s : State) (n : Nat) (f : GenRt → GenRt) : (s.modGen n f).jtag = s.jtag := rfl
@[simp] theorem State.modGen_arms (s : State) (n : Nat) (f : GenRt → GenRt) : (s.modGen n f).arms = s.arms := rfl
@[simp] theorem State.modGen_cells (s : State) (n : Nat) (f : GenRt → GenRt) : (s.modGen n f).cells = s.cells := rfl
@[simp] theorem State.modGen_lanes (s : State) (n : Nat) (f : GenRt → GenRt) : (s.modGen n f).lanes = s.lanes := rfl
@[simp] theorem State.modGen_units (s : State) (n : Nat) (f : GenRt → GenRt) : (s.modGen n f).units = s.units := rfl
@[simp] theorem State.modGen_drv (s : State) (n : Nat) (f : GenRt → GenRt) : (s.modGen n f).drv = s.drv := rfl
@[simp] theorem State.modGen_cal (s : State) (n : Nat) (f : GenRt → GenRt) : (s.modGen n f).cal = s.cal := rfl
@[simp] theorem State.modGen_fab (s : State) (n : Nat) (f : GenRt → GenRt) : (s.modGen n f).fab = s.fab := rfl
@[simp] theorem State.modGen_adc (s : State) (n : Nat) (f : GenRt → GenRt) : (s.modGen n f).adc = s.adc := rfl
@[simp] theorem State.modGen_red (s : State) (n : Nat) (f : GenRt → GenRt) : (s.modGen n f).red = s.red := rfl
@[simp] theorem State.modGen_saf (s : State) (n : Nat) (f : GenRt → GenRt) : (s.modGen n f).saf = s.saf := rfl
@[simp] theorem State.modGen_cfg (s : State) (n : Nat) (f : GenRt → GenRt) : (s.modGen n f).cfg = s.cfg := rfl
@[simp] theorem State.modGen_pwr (s : State) (n : Nat) (f : GenRt → GenRt) : (s.modGen n f).pwr = s.pwr := rfl
@[simp] theorem State.modGen_bs (s : State) (n : Nat) (f : GenRt → GenRt) : (s.modGen n f).bs = s.bs := rfl
@[simp] theorem State.modGen_arb (s : State) (n : Nat) (f : GenRt → GenRt) : (s.modGen n f).arb = s.arb := rfl
@[simp] theorem State.modGen_rd (s : State) (n : Nat) (f : GenRt → GenRt) (g : Field) (j : Nat) : (s.modGen n f).rd g j = s.rd g j := rfl

/-! State.modInput -/

@[simp] theorem State.modInput_pending (s : State) (n : Nat) (f : InputRt → InputRt) : (s.modInput n f).pending = s.pending := rfl
@[simp] theorem State.modInput_wire (s : State) (n : Nat) (f : InputRt → InputRt) : (s.modInput n f).wire = s.wire := rfl
@[simp] theorem State.modInput_free (s : State) (n : Nat) (f : InputRt → InputRt) : (s.modInput n f).free = s.free := rfl
@[simp] theorem State.modInput_serial (s : State) (n : Nat) (f : InputRt → InputRt) : (s.modInput n f).serial = s.serial := rfl
@[simp] theorem State.modInput_regs (s : State) (n : Nat) (f : InputRt → InputRt) : (s.modInput n f).regs = s.regs := rfl
@[simp] theorem State.modInput_clk (s : State) (n : Nat) (f : InputRt → InputRt) : (s.modInput n f).clk = s.clk := rfl
@[simp] theorem State.modInput_epo (s : State) (n : Nat) (f : InputRt → InputRt) : (s.modInput n f).epo = s.epo := rfl
@[simp] theorem State.modInput_pts (s : State) (n : Nat) (f : InputRt → InputRt) : (s.modInput n f).pts = s.pts := rfl
@[simp] theorem State.modInput_evq (s : State) (n : Nat) (f : InputRt → InputRt) : (s.modInput n f).evq = s.evq := rfl
@[simp] theorem State.modInput_dr (s : State) (n : Nat) (f : InputRt → InputRt) : (s.modInput n f).dr = s.dr := rfl
@[simp] theorem State.modInput_host (s : State) (n : Nat) (f : InputRt → InputRt) : (s.modInput n f).host = s.host := rfl
@[simp] theorem State.modInput_eth (s : State) (n : Nat) (f : InputRt → InputRt) : (s.modInput n f).eth = s.eth := rfl
@[simp] theorem State.modInput_conds (s : State) (n : Nat) (f : InputRt → InputRt) : (s.modInput n f).conds = s.conds := rfl
@[simp] theorem State.modInput_jtag (s : State) (n : Nat) (f : InputRt → InputRt) : (s.modInput n f).jtag = s.jtag := rfl
@[simp] theorem State.modInput_arms (s : State) (n : Nat) (f : InputRt → InputRt) : (s.modInput n f).arms = s.arms := rfl
@[simp] theorem State.modInput_cells (s : State) (n : Nat) (f : InputRt → InputRt) : (s.modInput n f).cells = s.cells := rfl
@[simp] theorem State.modInput_lanes (s : State) (n : Nat) (f : InputRt → InputRt) : (s.modInput n f).lanes = s.lanes := rfl
@[simp] theorem State.modInput_units (s : State) (n : Nat) (f : InputRt → InputRt) : (s.modInput n f).units = s.units := rfl
@[simp] theorem State.modInput_drv (s : State) (n : Nat) (f : InputRt → InputRt) : (s.modInput n f).drv = s.drv := rfl
@[simp] theorem State.modInput_cal (s : State) (n : Nat) (f : InputRt → InputRt) : (s.modInput n f).cal = s.cal := rfl
@[simp] theorem State.modInput_fab (s : State) (n : Nat) (f : InputRt → InputRt) : (s.modInput n f).fab = s.fab := rfl
@[simp] theorem State.modInput_adc (s : State) (n : Nat) (f : InputRt → InputRt) : (s.modInput n f).adc = s.adc := rfl
@[simp] theorem State.modInput_red (s : State) (n : Nat) (f : InputRt → InputRt) : (s.modInput n f).red = s.red := rfl
@[simp] theorem State.modInput_saf (s : State) (n : Nat) (f : InputRt → InputRt) : (s.modInput n f).saf = s.saf := rfl
@[simp] theorem State.modInput_cfg (s : State) (n : Nat) (f : InputRt → InputRt) : (s.modInput n f).cfg = s.cfg := rfl
@[simp] theorem State.modInput_pwr (s : State) (n : Nat) (f : InputRt → InputRt) : (s.modInput n f).pwr = s.pwr := rfl
@[simp] theorem State.modInput_bs (s : State) (n : Nat) (f : InputRt → InputRt) : (s.modInput n f).bs = s.bs := rfl
@[simp] theorem State.modInput_arb (s : State) (n : Nat) (f : InputRt → InputRt) : (s.modInput n f).arb = s.arb := rfl
@[simp] theorem State.modInput_rd (s : State) (n : Nat) (f : InputRt → InputRt) (g : Field) (j : Nat) : (s.modInput n f).rd g j = s.rd g j := rfl

/-! State.modCore -/

@[simp] theorem State.modCore_pending (s : State) (n : Nat) (f : CoreRt → CoreRt) : (s.modCore n f).pending = s.pending := rfl
@[simp] theorem State.modCore_wire (s : State) (n : Nat) (f : CoreRt → CoreRt) : (s.modCore n f).wire = s.wire := rfl
@[simp] theorem State.modCore_free (s : State) (n : Nat) (f : CoreRt → CoreRt) : (s.modCore n f).free = s.free := rfl
@[simp] theorem State.modCore_serial (s : State) (n : Nat) (f : CoreRt → CoreRt) : (s.modCore n f).serial = s.serial := rfl
@[simp] theorem State.modCore_regs (s : State) (n : Nat) (f : CoreRt → CoreRt) : (s.modCore n f).regs = s.regs := rfl
@[simp] theorem State.modCore_clk (s : State) (n : Nat) (f : CoreRt → CoreRt) : (s.modCore n f).clk = s.clk := rfl
@[simp] theorem State.modCore_epo (s : State) (n : Nat) (f : CoreRt → CoreRt) : (s.modCore n f).epo = s.epo := rfl
@[simp] theorem State.modCore_pts (s : State) (n : Nat) (f : CoreRt → CoreRt) : (s.modCore n f).pts = s.pts := rfl
@[simp] theorem State.modCore_evq (s : State) (n : Nat) (f : CoreRt → CoreRt) : (s.modCore n f).evq = s.evq := rfl
@[simp] theorem State.modCore_dr (s : State) (n : Nat) (f : CoreRt → CoreRt) : (s.modCore n f).dr = s.dr := rfl
@[simp] theorem State.modCore_host (s : State) (n : Nat) (f : CoreRt → CoreRt) : (s.modCore n f).host = s.host := rfl
@[simp] theorem State.modCore_eth (s : State) (n : Nat) (f : CoreRt → CoreRt) : (s.modCore n f).eth = s.eth := rfl
@[simp] theorem State.modCore_conds (s : State) (n : Nat) (f : CoreRt → CoreRt) : (s.modCore n f).conds = s.conds := rfl
@[simp] theorem State.modCore_jtag (s : State) (n : Nat) (f : CoreRt → CoreRt) : (s.modCore n f).jtag = s.jtag := rfl
@[simp] theorem State.modCore_arms (s : State) (n : Nat) (f : CoreRt → CoreRt) : (s.modCore n f).arms = s.arms := rfl
@[simp] theorem State.modCore_cells (s : State) (n : Nat) (f : CoreRt → CoreRt) : (s.modCore n f).cells = s.cells := rfl
@[simp] theorem State.modCore_lanes (s : State) (n : Nat) (f : CoreRt → CoreRt) : (s.modCore n f).lanes = s.lanes := rfl
@[simp] theorem State.modCore_units (s : State) (n : Nat) (f : CoreRt → CoreRt) : (s.modCore n f).units = s.units := rfl
@[simp] theorem State.modCore_drv (s : State) (n : Nat) (f : CoreRt → CoreRt) : (s.modCore n f).drv = s.drv := rfl
@[simp] theorem State.modCore_cal (s : State) (n : Nat) (f : CoreRt → CoreRt) : (s.modCore n f).cal = s.cal := rfl
@[simp] theorem State.modCore_fab (s : State) (n : Nat) (f : CoreRt → CoreRt) : (s.modCore n f).fab = s.fab := rfl
@[simp] theorem State.modCore_ord (s : State) (n : Nat) (f : CoreRt → CoreRt) : (s.modCore n f).ord = s.ord := rfl
@[simp] theorem State.modCore_red (s : State) (n : Nat) (f : CoreRt → CoreRt) : (s.modCore n f).red = s.red := rfl
@[simp] theorem State.modCore_saf (s : State) (n : Nat) (f : CoreRt → CoreRt) : (s.modCore n f).saf = s.saf := rfl
@[simp] theorem State.modCore_cfg (s : State) (n : Nat) (f : CoreRt → CoreRt) : (s.modCore n f).cfg = s.cfg := rfl
@[simp] theorem State.modCore_pwr (s : State) (n : Nat) (f : CoreRt → CoreRt) : (s.modCore n f).pwr = s.pwr := rfl
@[simp] theorem State.modCore_bs (s : State) (n : Nat) (f : CoreRt → CoreRt) : (s.modCore n f).bs = s.bs := rfl
@[simp] theorem State.modCore_arb (s : State) (n : Nat) (f : CoreRt → CoreRt) : (s.modCore n f).arb = s.arb := rfl
@[simp] theorem State.modCore_rd (s : State) (n : Nat) (f : CoreRt → CoreRt) (g : Field) (j : Nat) : (s.modCore n f).rd g j = s.rd g j := rfl

/-! State.modAin -/

@[simp] theorem State.modAin_pending (s : State) (n : Nat) (f : AinRt → AinRt) : (s.modAin n f).pending = s.pending := rfl
@[simp] theorem State.modAin_wire (s : State) (n : Nat) (f : AinRt → AinRt) : (s.modAin n f).wire = s.wire := rfl
@[simp] theorem State.modAin_free (s : State) (n : Nat) (f : AinRt → AinRt) : (s.modAin n f).free = s.free := rfl
@[simp] theorem State.modAin_serial (s : State) (n : Nat) (f : AinRt → AinRt) : (s.modAin n f).serial = s.serial := rfl
@[simp] theorem State.modAin_regs (s : State) (n : Nat) (f : AinRt → AinRt) : (s.modAin n f).regs = s.regs := rfl
@[simp] theorem State.modAin_clk (s : State) (n : Nat) (f : AinRt → AinRt) : (s.modAin n f).clk = s.clk := rfl
@[simp] theorem State.modAin_epo (s : State) (n : Nat) (f : AinRt → AinRt) : (s.modAin n f).epo = s.epo := rfl
@[simp] theorem State.modAin_pts (s : State) (n : Nat) (f : AinRt → AinRt) : (s.modAin n f).pts = s.pts := rfl
@[simp] theorem State.modAin_evq (s : State) (n : Nat) (f : AinRt → AinRt) : (s.modAin n f).evq = s.evq := rfl
@[simp] theorem State.modAin_dr (s : State) (n : Nat) (f : AinRt → AinRt) : (s.modAin n f).dr = s.dr := rfl
@[simp] theorem State.modAin_host (s : State) (n : Nat) (f : AinRt → AinRt) : (s.modAin n f).host = s.host := rfl
@[simp] theorem State.modAin_eth (s : State) (n : Nat) (f : AinRt → AinRt) : (s.modAin n f).eth = s.eth := rfl
@[simp] theorem State.modAin_conds (s : State) (n : Nat) (f : AinRt → AinRt) : (s.modAin n f).conds = s.conds := rfl
@[simp] theorem State.modAin_jtag (s : State) (n : Nat) (f : AinRt → AinRt) : (s.modAin n f).jtag = s.jtag := rfl
@[simp] theorem State.modAin_arms (s : State) (n : Nat) (f : AinRt → AinRt) : (s.modAin n f).arms = s.arms := rfl
@[simp] theorem State.modAin_cells (s : State) (n : Nat) (f : AinRt → AinRt) : (s.modAin n f).cells = s.cells := rfl
@[simp] theorem State.modAin_lanes (s : State) (n : Nat) (f : AinRt → AinRt) : (s.modAin n f).lanes = s.lanes := rfl
@[simp] theorem State.modAin_units (s : State) (n : Nat) (f : AinRt → AinRt) : (s.modAin n f).units = s.units := rfl
@[simp] theorem State.modAin_drv (s : State) (n : Nat) (f : AinRt → AinRt) : (s.modAin n f).drv = s.drv := rfl
@[simp] theorem State.modAin_cal (s : State) (n : Nat) (f : AinRt → AinRt) : (s.modAin n f).cal = s.cal := rfl
@[simp] theorem State.modAin_fab (s : State) (n : Nat) (f : AinRt → AinRt) : (s.modAin n f).fab = s.fab := rfl
@[simp] theorem State.modAin_ord (s : State) (n : Nat) (f : AinRt → AinRt) : (s.modAin n f).ord = s.ord := rfl
@[simp] theorem State.modAin_red (s : State) (n : Nat) (f : AinRt → AinRt) : (s.modAin n f).red = s.red := rfl
@[simp] theorem State.modAin_saf (s : State) (n : Nat) (f : AinRt → AinRt) : (s.modAin n f).saf = s.saf := rfl
@[simp] theorem State.modAin_cfg (s : State) (n : Nat) (f : AinRt → AinRt) : (s.modAin n f).cfg = s.cfg := rfl
@[simp] theorem State.modAin_pwr (s : State) (n : Nat) (f : AinRt → AinRt) : (s.modAin n f).pwr = s.pwr := rfl
@[simp] theorem State.modAin_bs (s : State) (n : Nat) (f : AinRt → AinRt) : (s.modAin n f).bs = s.bs := rfl
@[simp] theorem State.modAin_arb (s : State) (n : Nat) (f : AinRt → AinRt) : (s.modAin n f).arb = s.arb := rfl
@[simp] theorem State.modAin_rd (s : State) (n : Nat) (f : AinRt → AinRt) (g : Field) (j : Nat) : (s.modAin n f).rd g j = s.rd g j := rfl

/-! State.modSub -/

@[simp] theorem State.modSub_pending (s : State) (n : Nat) (f : SvRt → SvRt) : (s.modSub n f).pending = s.pending := rfl
@[simp] theorem State.modSub_wire (s : State) (n : Nat) (f : SvRt → SvRt) : (s.modSub n f).wire = s.wire := rfl
@[simp] theorem State.modSub_free (s : State) (n : Nat) (f : SvRt → SvRt) : (s.modSub n f).free = s.free := rfl
@[simp] theorem State.modSub_serial (s : State) (n : Nat) (f : SvRt → SvRt) : (s.modSub n f).serial = s.serial := rfl
@[simp] theorem State.modSub_regs (s : State) (n : Nat) (f : SvRt → SvRt) : (s.modSub n f).regs = s.regs := rfl
@[simp] theorem State.modSub_clk (s : State) (n : Nat) (f : SvRt → SvRt) : (s.modSub n f).clk = s.clk := rfl
@[simp] theorem State.modSub_epo (s : State) (n : Nat) (f : SvRt → SvRt) : (s.modSub n f).epo = s.epo := rfl
@[simp] theorem State.modSub_pts (s : State) (n : Nat) (f : SvRt → SvRt) : (s.modSub n f).pts = s.pts := rfl
@[simp] theorem State.modSub_evq (s : State) (n : Nat) (f : SvRt → SvRt) : (s.modSub n f).evq = s.evq := rfl
@[simp] theorem State.modSub_dr (s : State) (n : Nat) (f : SvRt → SvRt) : (s.modSub n f).dr = s.dr := rfl
@[simp] theorem State.modSub_host (s : State) (n : Nat) (f : SvRt → SvRt) : (s.modSub n f).host = s.host := rfl
@[simp] theorem State.modSub_eth (s : State) (n : Nat) (f : SvRt → SvRt) : (s.modSub n f).eth = s.eth := rfl
@[simp] theorem State.modSub_conds (s : State) (n : Nat) (f : SvRt → SvRt) : (s.modSub n f).conds = s.conds := rfl
@[simp] theorem State.modSub_jtag (s : State) (n : Nat) (f : SvRt → SvRt) : (s.modSub n f).jtag = s.jtag := rfl
@[simp] theorem State.modSub_arms (s : State) (n : Nat) (f : SvRt → SvRt) : (s.modSub n f).arms = s.arms := rfl
@[simp] theorem State.modSub_cells (s : State) (n : Nat) (f : SvRt → SvRt) : (s.modSub n f).cells = s.cells := rfl
@[simp] theorem State.modSub_lanes (s : State) (n : Nat) (f : SvRt → SvRt) : (s.modSub n f).lanes = s.lanes := rfl
@[simp] theorem State.modSub_units (s : State) (n : Nat) (f : SvRt → SvRt) : (s.modSub n f).units = s.units := rfl
@[simp] theorem State.modSub_drv (s : State) (n : Nat) (f : SvRt → SvRt) : (s.modSub n f).drv = s.drv := rfl
@[simp] theorem State.modSub_cal (s : State) (n : Nat) (f : SvRt → SvRt) : (s.modSub n f).cal = s.cal := rfl
@[simp] theorem State.modSub_fab (s : State) (n : Nat) (f : SvRt → SvRt) : (s.modSub n f).fab = s.fab := rfl
@[simp] theorem State.modSub_ord (s : State) (n : Nat) (f : SvRt → SvRt) : (s.modSub n f).ord = s.ord := rfl
@[simp] theorem State.modSub_red (s : State) (n : Nat) (f : SvRt → SvRt) : (s.modSub n f).red = s.red := rfl
@[simp] theorem State.modSub_saf (s : State) (n : Nat) (f : SvRt → SvRt) : (s.modSub n f).saf = s.saf := rfl
@[simp] theorem State.modSub_cfg (s : State) (n : Nat) (f : SvRt → SvRt) : (s.modSub n f).cfg = s.cfg := rfl
@[simp] theorem State.modSub_pwr (s : State) (n : Nat) (f : SvRt → SvRt) : (s.modSub n f).pwr = s.pwr := rfl
@[simp] theorem State.modSub_bs (s : State) (n : Nat) (f : SvRt → SvRt) : (s.modSub n f).bs = s.bs := rfl
@[simp] theorem State.modSub_arb (s : State) (n : Nat) (f : SvRt → SvRt) : (s.modSub n f).arb = s.arb := rfl
@[simp] theorem State.modSub_rd (s : State) (n : Nat) (f : SvRt → SvRt) (g : Field) (j : Nat) : (s.modSub n f).rd g j = s.rd g j := rfl

/-! State.modPair -/

@[simp] theorem State.modPair_pending (s : State) (n : Nat) (f : PairRt → PairRt) : (s.modPair n f).pending = s.pending := rfl
@[simp] theorem State.modPair_wire (s : State) (n : Nat) (f : PairRt → PairRt) : (s.modPair n f).wire = s.wire := rfl
@[simp] theorem State.modPair_free (s : State) (n : Nat) (f : PairRt → PairRt) : (s.modPair n f).free = s.free := rfl
@[simp] theorem State.modPair_serial (s : State) (n : Nat) (f : PairRt → PairRt) : (s.modPair n f).serial = s.serial := rfl
@[simp] theorem State.modPair_regs (s : State) (n : Nat) (f : PairRt → PairRt) : (s.modPair n f).regs = s.regs := rfl
@[simp] theorem State.modPair_clk (s : State) (n : Nat) (f : PairRt → PairRt) : (s.modPair n f).clk = s.clk := rfl
@[simp] theorem State.modPair_epo (s : State) (n : Nat) (f : PairRt → PairRt) : (s.modPair n f).epo = s.epo := rfl
@[simp] theorem State.modPair_pts (s : State) (n : Nat) (f : PairRt → PairRt) : (s.modPair n f).pts = s.pts := rfl
@[simp] theorem State.modPair_evq (s : State) (n : Nat) (f : PairRt → PairRt) : (s.modPair n f).evq = s.evq := rfl
@[simp] theorem State.modPair_dr (s : State) (n : Nat) (f : PairRt → PairRt) : (s.modPair n f).dr = s.dr := rfl
@[simp] theorem State.modPair_host (s : State) (n : Nat) (f : PairRt → PairRt) : (s.modPair n f).host = s.host := rfl
@[simp] theorem State.modPair_eth (s : State) (n : Nat) (f : PairRt → PairRt) : (s.modPair n f).eth = s.eth := rfl
@[simp] theorem State.modPair_conds (s : State) (n : Nat) (f : PairRt → PairRt) : (s.modPair n f).conds = s.conds := rfl
@[simp] theorem State.modPair_jtag (s : State) (n : Nat) (f : PairRt → PairRt) : (s.modPair n f).jtag = s.jtag := rfl
@[simp] theorem State.modPair_arms (s : State) (n : Nat) (f : PairRt → PairRt) : (s.modPair n f).arms = s.arms := rfl
@[simp] theorem State.modPair_cells (s : State) (n : Nat) (f : PairRt → PairRt) : (s.modPair n f).cells = s.cells := rfl
@[simp] theorem State.modPair_lanes (s : State) (n : Nat) (f : PairRt → PairRt) : (s.modPair n f).lanes = s.lanes := rfl
@[simp] theorem State.modPair_units (s : State) (n : Nat) (f : PairRt → PairRt) : (s.modPair n f).units = s.units := rfl
@[simp] theorem State.modPair_drv (s : State) (n : Nat) (f : PairRt → PairRt) : (s.modPair n f).drv = s.drv := rfl
@[simp] theorem State.modPair_cal (s : State) (n : Nat) (f : PairRt → PairRt) : (s.modPair n f).cal = s.cal := rfl
@[simp] theorem State.modPair_fab (s : State) (n : Nat) (f : PairRt → PairRt) : (s.modPair n f).fab = s.fab := rfl
@[simp] theorem State.modPair_ord (s : State) (n : Nat) (f : PairRt → PairRt) : (s.modPair n f).ord = s.ord := rfl
@[simp] theorem State.modPair_adc (s : State) (n : Nat) (f : PairRt → PairRt) : (s.modPair n f).adc = s.adc := rfl
@[simp] theorem State.modPair_red (s : State) (n : Nat) (f : PairRt → PairRt) : (s.modPair n f).red = s.red := rfl
@[simp] theorem State.modPair_cfg (s : State) (n : Nat) (f : PairRt → PairRt) : (s.modPair n f).cfg = s.cfg := rfl
@[simp] theorem State.modPair_pwr (s : State) (n : Nat) (f : PairRt → PairRt) : (s.modPair n f).pwr = s.pwr := rfl
@[simp] theorem State.modPair_bs (s : State) (n : Nat) (f : PairRt → PairRt) : (s.modPair n f).bs = s.bs := rfl
@[simp] theorem State.modPair_arb (s : State) (n : Nat) (f : PairRt → PairRt) : (s.modPair n f).arb = s.arb := rfl
@[simp] theorem State.modPair_rd (s : State) (n : Nat) (f : PairRt → PairRt) (g : Field) (j : Nat) : (s.modPair n f).rd g j = s.rd g j := rfl

/-! State.modPch -/

@[simp] theorem State.modPch_pending (s : State) (n : Nat) (f : PchRt → PchRt) : (s.modPch n f).pending = s.pending := rfl
@[simp] theorem State.modPch_wire (s : State) (n : Nat) (f : PchRt → PchRt) : (s.modPch n f).wire = s.wire := rfl
@[simp] theorem State.modPch_free (s : State) (n : Nat) (f : PchRt → PchRt) : (s.modPch n f).free = s.free := rfl
@[simp] theorem State.modPch_serial (s : State) (n : Nat) (f : PchRt → PchRt) : (s.modPch n f).serial = s.serial := rfl
@[simp] theorem State.modPch_regs (s : State) (n : Nat) (f : PchRt → PchRt) : (s.modPch n f).regs = s.regs := rfl
@[simp] theorem State.modPch_clk (s : State) (n : Nat) (f : PchRt → PchRt) : (s.modPch n f).clk = s.clk := rfl
@[simp] theorem State.modPch_epo (s : State) (n : Nat) (f : PchRt → PchRt) : (s.modPch n f).epo = s.epo := rfl
@[simp] theorem State.modPch_pts (s : State) (n : Nat) (f : PchRt → PchRt) : (s.modPch n f).pts = s.pts := rfl
@[simp] theorem State.modPch_evq (s : State) (n : Nat) (f : PchRt → PchRt) : (s.modPch n f).evq = s.evq := rfl
@[simp] theorem State.modPch_dr (s : State) (n : Nat) (f : PchRt → PchRt) : (s.modPch n f).dr = s.dr := rfl
@[simp] theorem State.modPch_host (s : State) (n : Nat) (f : PchRt → PchRt) : (s.modPch n f).host = s.host := rfl
@[simp] theorem State.modPch_eth (s : State) (n : Nat) (f : PchRt → PchRt) : (s.modPch n f).eth = s.eth := rfl
@[simp] theorem State.modPch_conds (s : State) (n : Nat) (f : PchRt → PchRt) : (s.modPch n f).conds = s.conds := rfl
@[simp] theorem State.modPch_jtag (s : State) (n : Nat) (f : PchRt → PchRt) : (s.modPch n f).jtag = s.jtag := rfl
@[simp] theorem State.modPch_arms (s : State) (n : Nat) (f : PchRt → PchRt) : (s.modPch n f).arms = s.arms := rfl
@[simp] theorem State.modPch_cells (s : State) (n : Nat) (f : PchRt → PchRt) : (s.modPch n f).cells = s.cells := rfl
@[simp] theorem State.modPch_lanes (s : State) (n : Nat) (f : PchRt → PchRt) : (s.modPch n f).lanes = s.lanes := rfl
@[simp] theorem State.modPch_units (s : State) (n : Nat) (f : PchRt → PchRt) : (s.modPch n f).units = s.units := rfl
@[simp] theorem State.modPch_drv (s : State) (n : Nat) (f : PchRt → PchRt) : (s.modPch n f).drv = s.drv := rfl
@[simp] theorem State.modPch_cal (s : State) (n : Nat) (f : PchRt → PchRt) : (s.modPch n f).cal = s.cal := rfl
@[simp] theorem State.modPch_fab (s : State) (n : Nat) (f : PchRt → PchRt) : (s.modPch n f).fab = s.fab := rfl
@[simp] theorem State.modPch_ord (s : State) (n : Nat) (f : PchRt → PchRt) : (s.modPch n f).ord = s.ord := rfl
@[simp] theorem State.modPch_adc (s : State) (n : Nat) (f : PchRt → PchRt) : (s.modPch n f).adc = s.adc := rfl
@[simp] theorem State.modPch_red (s : State) (n : Nat) (f : PchRt → PchRt) : (s.modPch n f).red = s.red := rfl
@[simp] theorem State.modPch_cfg (s : State) (n : Nat) (f : PchRt → PchRt) : (s.modPch n f).cfg = s.cfg := rfl
@[simp] theorem State.modPch_pwr (s : State) (n : Nat) (f : PchRt → PchRt) : (s.modPch n f).pwr = s.pwr := rfl
@[simp] theorem State.modPch_bs (s : State) (n : Nat) (f : PchRt → PchRt) : (s.modPch n f).bs = s.bs := rfl
@[simp] theorem State.modPch_arb (s : State) (n : Nat) (f : PchRt → PchRt) : (s.modPch n f).arb = s.arb := rfl
@[simp] theorem State.modPch_rd (s : State) (n : Nat) (f : PchRt → PchRt) (g : Field) (j : Nat) : (s.modPch n f).rd g j = s.rd g j := rfl

/-! State.modFab -/

@[simp] theorem State.modFab_pending (s : State) (f : Fab → Fab) : (s.modFab f).pending = s.pending := rfl
@[simp] theorem State.modFab_wire (s : State) (f : Fab → Fab) : (s.modFab f).wire = s.wire := rfl
@[simp] theorem State.modFab_free (s : State) (f : Fab → Fab) : (s.modFab f).free = s.free := rfl
@[simp] theorem State.modFab_serial (s : State) (f : Fab → Fab) : (s.modFab f).serial = s.serial := rfl
@[simp] theorem State.modFab_regs (s : State) (f : Fab → Fab) : (s.modFab f).regs = s.regs := rfl
@[simp] theorem State.modFab_clk (s : State) (f : Fab → Fab) : (s.modFab f).clk = s.clk := rfl
@[simp] theorem State.modFab_epo (s : State) (f : Fab → Fab) : (s.modFab f).epo = s.epo := rfl
@[simp] theorem State.modFab_pts (s : State) (f : Fab → Fab) : (s.modFab f).pts = s.pts := rfl
@[simp] theorem State.modFab_evq (s : State) (f : Fab → Fab) : (s.modFab f).evq = s.evq := rfl
@[simp] theorem State.modFab_dr (s : State) (f : Fab → Fab) : (s.modFab f).dr = s.dr := rfl
@[simp] theorem State.modFab_host (s : State) (f : Fab → Fab) : (s.modFab f).host = s.host := rfl
@[simp] theorem State.modFab_eth (s : State) (f : Fab → Fab) : (s.modFab f).eth = s.eth := rfl
@[simp] theorem State.modFab_conds (s : State) (f : Fab → Fab) : (s.modFab f).conds = s.conds := rfl
@[simp] theorem State.modFab_jtag (s : State) (f : Fab → Fab) : (s.modFab f).jtag = s.jtag := rfl
@[simp] theorem State.modFab_arms (s : State) (f : Fab → Fab) : (s.modFab f).arms = s.arms := rfl
@[simp] theorem State.modFab_cells (s : State) (f : Fab → Fab) : (s.modFab f).cells = s.cells := rfl
@[simp] theorem State.modFab_lanes (s : State) (f : Fab → Fab) : (s.modFab f).lanes = s.lanes := rfl
@[simp] theorem State.modFab_units (s : State) (f : Fab → Fab) : (s.modFab f).units = s.units := rfl
@[simp] theorem State.modFab_drv (s : State) (f : Fab → Fab) : (s.modFab f).drv = s.drv := rfl
@[simp] theorem State.modFab_cal (s : State) (f : Fab → Fab) : (s.modFab f).cal = s.cal := rfl
@[simp] theorem State.modFab_ord (s : State) (f : Fab → Fab) : (s.modFab f).ord = s.ord := rfl
@[simp] theorem State.modFab_adc (s : State) (f : Fab → Fab) : (s.modFab f).adc = s.adc := rfl
@[simp] theorem State.modFab_red (s : State) (f : Fab → Fab) : (s.modFab f).red = s.red := rfl
@[simp] theorem State.modFab_saf (s : State) (f : Fab → Fab) : (s.modFab f).saf = s.saf := rfl
@[simp] theorem State.modFab_cfg (s : State) (f : Fab → Fab) : (s.modFab f).cfg = s.cfg := rfl
@[simp] theorem State.modFab_pwr (s : State) (f : Fab → Fab) : (s.modFab f).pwr = s.pwr := rfl
@[simp] theorem State.modFab_bs (s : State) (f : Fab → Fab) : (s.modFab f).bs = s.bs := rfl
@[simp] theorem State.modFab_arb (s : State) (f : Fab → Fab) : (s.modFab f).arb = s.arb := rfl
@[simp] theorem State.modFab_rd (s : State) (f : Fab → Fab) (g : Field) (j : Nat) : (s.modFab f).rd g j = s.rd g j := rfl

/-! State.modOrd -/

@[simp] theorem State.modOrd_pending (s : State) (f : Ord → Ord) : (s.modOrd f).pending = s.pending := rfl
@[simp] theorem State.modOrd_wire (s : State) (f : Ord → Ord) : (s.modOrd f).wire = s.wire := rfl
@[simp] theorem State.modOrd_free (s : State) (f : Ord → Ord) : (s.modOrd f).free = s.free := rfl
@[simp] theorem State.modOrd_serial (s : State) (f : Ord → Ord) : (s.modOrd f).serial = s.serial := rfl
@[simp] theorem State.modOrd_regs (s : State) (f : Ord → Ord) : (s.modOrd f).regs = s.regs := rfl
@[simp] theorem State.modOrd_clk (s : State) (f : Ord → Ord) : (s.modOrd f).clk = s.clk := rfl
@[simp] theorem State.modOrd_epo (s : State) (f : Ord → Ord) : (s.modOrd f).epo = s.epo := rfl
@[simp] theorem State.modOrd_pts (s : State) (f : Ord → Ord) : (s.modOrd f).pts = s.pts := rfl
@[simp] theorem State.modOrd_evq (s : State) (f : Ord → Ord) : (s.modOrd f).evq = s.evq := rfl
@[simp] theorem State.modOrd_dr (s : State) (f : Ord → Ord) : (s.modOrd f).dr = s.dr := rfl
@[simp] theorem State.modOrd_host (s : State) (f : Ord → Ord) : (s.modOrd f).host = s.host := rfl
@[simp] theorem State.modOrd_eth (s : State) (f : Ord → Ord) : (s.modOrd f).eth = s.eth := rfl
@[simp] theorem State.modOrd_conds (s : State) (f : Ord → Ord) : (s.modOrd f).conds = s.conds := rfl
@[simp] theorem State.modOrd_jtag (s : State) (f : Ord → Ord) : (s.modOrd f).jtag = s.jtag := rfl
@[simp] theorem State.modOrd_arms (s : State) (f : Ord → Ord) : (s.modOrd f).arms = s.arms := rfl
@[simp] theorem State.modOrd_cells (s : State) (f : Ord → Ord) : (s.modOrd f).cells = s.cells := rfl
@[simp] theorem State.modOrd_lanes (s : State) (f : Ord → Ord) : (s.modOrd f).lanes = s.lanes := rfl
@[simp] theorem State.modOrd_units (s : State) (f : Ord → Ord) : (s.modOrd f).units = s.units := rfl
@[simp] theorem State.modOrd_drv (s : State) (f : Ord → Ord) : (s.modOrd f).drv = s.drv := rfl
@[simp] theorem State.modOrd_cal (s : State) (f : Ord → Ord) : (s.modOrd f).cal = s.cal := rfl
@[simp] theorem State.modOrd_fab (s : State) (f : Ord → Ord) : (s.modOrd f).fab = s.fab := rfl
@[simp] theorem State.modOrd_adc (s : State) (f : Ord → Ord) : (s.modOrd f).adc = s.adc := rfl
@[simp] theorem State.modOrd_red (s : State) (f : Ord → Ord) : (s.modOrd f).red = s.red := rfl
@[simp] theorem State.modOrd_saf (s : State) (f : Ord → Ord) : (s.modOrd f).saf = s.saf := rfl
@[simp] theorem State.modOrd_cfg (s : State) (f : Ord → Ord) : (s.modOrd f).cfg = s.cfg := rfl
@[simp] theorem State.modOrd_pwr (s : State) (f : Ord → Ord) : (s.modOrd f).pwr = s.pwr := rfl
@[simp] theorem State.modOrd_bs (s : State) (f : Ord → Ord) : (s.modOrd f).bs = s.bs := rfl
@[simp] theorem State.modOrd_arb (s : State) (f : Ord → Ord) : (s.modOrd f).arb = s.arb := rfl
@[simp] theorem State.modOrd_rd (s : State) (f : Ord → Ord) (g : Field) (j : Nat) : (s.modOrd f).rd g j = s.rd g j := rfl

/-! State.modAdc -/

@[simp] theorem State.modAdc_pending (s : State) (f : Adc → Adc) : (s.modAdc f).pending = s.pending := rfl
@[simp] theorem State.modAdc_wire (s : State) (f : Adc → Adc) : (s.modAdc f).wire = s.wire := rfl
@[simp] theorem State.modAdc_free (s : State) (f : Adc → Adc) : (s.modAdc f).free = s.free := rfl
@[simp] theorem State.modAdc_serial (s : State) (f : Adc → Adc) : (s.modAdc f).serial = s.serial := rfl
@[simp] theorem State.modAdc_regs (s : State) (f : Adc → Adc) : (s.modAdc f).regs = s.regs := rfl
@[simp] theorem State.modAdc_clk (s : State) (f : Adc → Adc) : (s.modAdc f).clk = s.clk := rfl
@[simp] theorem State.modAdc_epo (s : State) (f : Adc → Adc) : (s.modAdc f).epo = s.epo := rfl
@[simp] theorem State.modAdc_pts (s : State) (f : Adc → Adc) : (s.modAdc f).pts = s.pts := rfl
@[simp] theorem State.modAdc_evq (s : State) (f : Adc → Adc) : (s.modAdc f).evq = s.evq := rfl
@[simp] theorem State.modAdc_dr (s : State) (f : Adc → Adc) : (s.modAdc f).dr = s.dr := rfl
@[simp] theorem State.modAdc_host (s : State) (f : Adc → Adc) : (s.modAdc f).host = s.host := rfl
@[simp] theorem State.modAdc_eth (s : State) (f : Adc → Adc) : (s.modAdc f).eth = s.eth := rfl
@[simp] theorem State.modAdc_conds (s : State) (f : Adc → Adc) : (s.modAdc f).conds = s.conds := rfl
@[simp] theorem State.modAdc_jtag (s : State) (f : Adc → Adc) : (s.modAdc f).jtag = s.jtag := rfl
@[simp] theorem State.modAdc_arms (s : State) (f : Adc → Adc) : (s.modAdc f).arms = s.arms := rfl
@[simp] theorem State.modAdc_cells (s : State) (f : Adc → Adc) : (s.modAdc f).cells = s.cells := rfl
@[simp] theorem State.modAdc_lanes (s : State) (f : Adc → Adc) : (s.modAdc f).lanes = s.lanes := rfl
@[simp] theorem State.modAdc_units (s : State) (f : Adc → Adc) : (s.modAdc f).units = s.units := rfl
@[simp] theorem State.modAdc_drv (s : State) (f : Adc → Adc) : (s.modAdc f).drv = s.drv := rfl
@[simp] theorem State.modAdc_cal (s : State) (f : Adc → Adc) : (s.modAdc f).cal = s.cal := rfl
@[simp] theorem State.modAdc_fab (s : State) (f : Adc → Adc) : (s.modAdc f).fab = s.fab := rfl
@[simp] theorem State.modAdc_ord (s : State) (f : Adc → Adc) : (s.modAdc f).ord = s.ord := rfl
@[simp] theorem State.modAdc_red (s : State) (f : Adc → Adc) : (s.modAdc f).red = s.red := rfl
@[simp] theorem State.modAdc_saf (s : State) (f : Adc → Adc) : (s.modAdc f).saf = s.saf := rfl
@[simp] theorem State.modAdc_cfg (s : State) (f : Adc → Adc) : (s.modAdc f).cfg = s.cfg := rfl
@[simp] theorem State.modAdc_pwr (s : State) (f : Adc → Adc) : (s.modAdc f).pwr = s.pwr := rfl
@[simp] theorem State.modAdc_bs (s : State) (f : Adc → Adc) : (s.modAdc f).bs = s.bs := rfl
@[simp] theorem State.modAdc_arb (s : State) (f : Adc → Adc) : (s.modAdc f).arb = s.arb := rfl
@[simp] theorem State.modAdc_rd (s : State) (f : Adc → Adc) (g : Field) (j : Nat) : (s.modAdc f).rd g j = s.rd g j := rfl

/-! State.modRed -/

@[simp] theorem State.modRed_pending (s : State) (f : Red → Red) : (s.modRed f).pending = s.pending := rfl
@[simp] theorem State.modRed_wire (s : State) (f : Red → Red) : (s.modRed f).wire = s.wire := rfl
@[simp] theorem State.modRed_free (s : State) (f : Red → Red) : (s.modRed f).free = s.free := rfl
@[simp] theorem State.modRed_serial (s : State) (f : Red → Red) : (s.modRed f).serial = s.serial := rfl
@[simp] theorem State.modRed_regs (s : State) (f : Red → Red) : (s.modRed f).regs = s.regs := rfl
@[simp] theorem State.modRed_clk (s : State) (f : Red → Red) : (s.modRed f).clk = s.clk := rfl
@[simp] theorem State.modRed_epo (s : State) (f : Red → Red) : (s.modRed f).epo = s.epo := rfl
@[simp] theorem State.modRed_pts (s : State) (f : Red → Red) : (s.modRed f).pts = s.pts := rfl
@[simp] theorem State.modRed_evq (s : State) (f : Red → Red) : (s.modRed f).evq = s.evq := rfl
@[simp] theorem State.modRed_dr (s : State) (f : Red → Red) : (s.modRed f).dr = s.dr := rfl
@[simp] theorem State.modRed_host (s : State) (f : Red → Red) : (s.modRed f).host = s.host := rfl
@[simp] theorem State.modRed_eth (s : State) (f : Red → Red) : (s.modRed f).eth = s.eth := rfl
@[simp] theorem State.modRed_conds (s : State) (f : Red → Red) : (s.modRed f).conds = s.conds := rfl
@[simp] theorem State.modRed_jtag (s : State) (f : Red → Red) : (s.modRed f).jtag = s.jtag := rfl
@[simp] theorem State.modRed_arms (s : State) (f : Red → Red) : (s.modRed f).arms = s.arms := rfl
@[simp] theorem State.modRed_cells (s : State) (f : Red → Red) : (s.modRed f).cells = s.cells := rfl
@[simp] theorem State.modRed_lanes (s : State) (f : Red → Red) : (s.modRed f).lanes = s.lanes := rfl
@[simp] theorem State.modRed_units (s : State) (f : Red → Red) : (s.modRed f).units = s.units := rfl
@[simp] theorem State.modRed_drv (s : State) (f : Red → Red) : (s.modRed f).drv = s.drv := rfl
@[simp] theorem State.modRed_cal (s : State) (f : Red → Red) : (s.modRed f).cal = s.cal := rfl
@[simp] theorem State.modRed_fab (s : State) (f : Red → Red) : (s.modRed f).fab = s.fab := rfl
@[simp] theorem State.modRed_ord (s : State) (f : Red → Red) : (s.modRed f).ord = s.ord := rfl
@[simp] theorem State.modRed_adc (s : State) (f : Red → Red) : (s.modRed f).adc = s.adc := rfl
@[simp] theorem State.modRed_saf (s : State) (f : Red → Red) : (s.modRed f).saf = s.saf := rfl
@[simp] theorem State.modRed_cfg (s : State) (f : Red → Red) : (s.modRed f).cfg = s.cfg := rfl
@[simp] theorem State.modRed_pwr (s : State) (f : Red → Red) : (s.modRed f).pwr = s.pwr := rfl
@[simp] theorem State.modRed_bs (s : State) (f : Red → Red) : (s.modRed f).bs = s.bs := rfl
@[simp] theorem State.modRed_arb (s : State) (f : Red → Red) : (s.modRed f).arb = s.arb := rfl
@[simp] theorem State.modRed_rd (s : State) (f : Red → Red) (g : Field) (j : Nat) : (s.modRed f).rd g j = s.rd g j := rfl

/-! State.modPwr -/

@[simp] theorem State.modPwr_pending (s : State) (f : Pwr → Pwr) : (s.modPwr f).pending = s.pending := rfl
@[simp] theorem State.modPwr_wire (s : State) (f : Pwr → Pwr) : (s.modPwr f).wire = s.wire := rfl
@[simp] theorem State.modPwr_free (s : State) (f : Pwr → Pwr) : (s.modPwr f).free = s.free := rfl
@[simp] theorem State.modPwr_serial (s : State) (f : Pwr → Pwr) : (s.modPwr f).serial = s.serial := rfl
@[simp] theorem State.modPwr_regs (s : State) (f : Pwr → Pwr) : (s.modPwr f).regs = s.regs := rfl
@[simp] theorem State.modPwr_clk (s : State) (f : Pwr → Pwr) : (s.modPwr f).clk = s.clk := rfl
@[simp] theorem State.modPwr_epo (s : State) (f : Pwr → Pwr) : (s.modPwr f).epo = s.epo := rfl
@[simp] theorem State.modPwr_pts (s : State) (f : Pwr → Pwr) : (s.modPwr f).pts = s.pts := rfl
@[simp] theorem State.modPwr_evq (s : State) (f : Pwr → Pwr) : (s.modPwr f).evq = s.evq := rfl
@[simp] theorem State.modPwr_dr (s : State) (f : Pwr → Pwr) : (s.modPwr f).dr = s.dr := rfl
@[simp] theorem State.modPwr_host (s : State) (f : Pwr → Pwr) : (s.modPwr f).host = s.host := rfl
@[simp] theorem State.modPwr_eth (s : State) (f : Pwr → Pwr) : (s.modPwr f).eth = s.eth := rfl
@[simp] theorem State.modPwr_conds (s : State) (f : Pwr → Pwr) : (s.modPwr f).conds = s.conds := rfl
@[simp] theorem State.modPwr_jtag (s : State) (f : Pwr → Pwr) : (s.modPwr f).jtag = s.jtag := rfl
@[simp] theorem State.modPwr_arms (s : State) (f : Pwr → Pwr) : (s.modPwr f).arms = s.arms := rfl
@[simp] theorem State.modPwr_cells (s : State) (f : Pwr → Pwr) : (s.modPwr f).cells = s.cells := rfl
@[simp] theorem State.modPwr_lanes (s : State) (f : Pwr → Pwr) : (s.modPwr f).lanes = s.lanes := rfl
@[simp] theorem State.modPwr_units (s : State) (f : Pwr → Pwr) : (s.modPwr f).units = s.units := rfl
@[simp] theorem State.modPwr_drv (s : State) (f : Pwr → Pwr) : (s.modPwr f).drv = s.drv := rfl
@[simp] theorem State.modPwr_cal (s : State) (f : Pwr → Pwr) : (s.modPwr f).cal = s.cal := rfl
@[simp] theorem State.modPwr_fab (s : State) (f : Pwr → Pwr) : (s.modPwr f).fab = s.fab := rfl
@[simp] theorem State.modPwr_ord (s : State) (f : Pwr → Pwr) : (s.modPwr f).ord = s.ord := rfl
@[simp] theorem State.modPwr_adc (s : State) (f : Pwr → Pwr) : (s.modPwr f).adc = s.adc := rfl
@[simp] theorem State.modPwr_red (s : State) (f : Pwr → Pwr) : (s.modPwr f).red = s.red := rfl
@[simp] theorem State.modPwr_saf (s : State) (f : Pwr → Pwr) : (s.modPwr f).saf = s.saf := rfl
@[simp] theorem State.modPwr_cfg (s : State) (f : Pwr → Pwr) : (s.modPwr f).cfg = s.cfg := rfl
@[simp] theorem State.modPwr_bs (s : State) (f : Pwr → Pwr) : (s.modPwr f).bs = s.bs := rfl
@[simp] theorem State.modPwr_arb (s : State) (f : Pwr → Pwr) : (s.modPwr f).arb = s.arb := rfl
@[simp] theorem State.modPwr_rd (s : State) (f : Pwr → Pwr) (g : Field) (j : Nat) : (s.modPwr f).rd g j = s.rd g j := rfl

/-! State.modEpo -/

@[simp] theorem State.modEpo_pending (s : State) (f : Epo → Epo) : (s.modEpo f).pending = s.pending := rfl
@[simp] theorem State.modEpo_wire (s : State) (f : Epo → Epo) : (s.modEpo f).wire = s.wire := rfl
@[simp] theorem State.modEpo_free (s : State) (f : Epo → Epo) : (s.modEpo f).free = s.free := rfl
@[simp] theorem State.modEpo_serial (s : State) (f : Epo → Epo) : (s.modEpo f).serial = s.serial := rfl
@[simp] theorem State.modEpo_regs (s : State) (f : Epo → Epo) : (s.modEpo f).regs = s.regs := rfl
@[simp] theorem State.modEpo_clk (s : State) (f : Epo → Epo) : (s.modEpo f).clk = s.clk := rfl
@[simp] theorem State.modEpo_pts (s : State) (f : Epo → Epo) : (s.modEpo f).pts = s.pts := rfl
@[simp] theorem State.modEpo_evq (s : State) (f : Epo → Epo) : (s.modEpo f).evq = s.evq := rfl
@[simp] theorem State.modEpo_dr (s : State) (f : Epo → Epo) : (s.modEpo f).dr = s.dr := rfl
@[simp] theorem State.modEpo_host (s : State) (f : Epo → Epo) : (s.modEpo f).host = s.host := rfl
@[simp] theorem State.modEpo_eth (s : State) (f : Epo → Epo) : (s.modEpo f).eth = s.eth := rfl
@[simp] theorem State.modEpo_conds (s : State) (f : Epo → Epo) : (s.modEpo f).conds = s.conds := rfl
@[simp] theorem State.modEpo_jtag (s : State) (f : Epo → Epo) : (s.modEpo f).jtag = s.jtag := rfl
@[simp] theorem State.modEpo_arms (s : State) (f : Epo → Epo) : (s.modEpo f).arms = s.arms := rfl
@[simp] theorem State.modEpo_cells (s : State) (f : Epo → Epo) : (s.modEpo f).cells = s.cells := rfl
@[simp] theorem State.modEpo_lanes (s : State) (f : Epo → Epo) : (s.modEpo f).lanes = s.lanes := rfl
@[simp] theorem State.modEpo_units (s : State) (f : Epo → Epo) : (s.modEpo f).units = s.units := rfl
@[simp] theorem State.modEpo_drv (s : State) (f : Epo → Epo) : (s.modEpo f).drv = s.drv := rfl
@[simp] theorem State.modEpo_cal (s : State) (f : Epo → Epo) : (s.modEpo f).cal = s.cal := rfl
@[simp] theorem State.modEpo_fab (s : State) (f : Epo → Epo) : (s.modEpo f).fab = s.fab := rfl
@[simp] theorem State.modEpo_ord (s : State) (f : Epo → Epo) : (s.modEpo f).ord = s.ord := rfl
@[simp] theorem State.modEpo_adc (s : State) (f : Epo → Epo) : (s.modEpo f).adc = s.adc := rfl
@[simp] theorem State.modEpo_red (s : State) (f : Epo → Epo) : (s.modEpo f).red = s.red := rfl
@[simp] theorem State.modEpo_saf (s : State) (f : Epo → Epo) : (s.modEpo f).saf = s.saf := rfl
@[simp] theorem State.modEpo_cfg (s : State) (f : Epo → Epo) : (s.modEpo f).cfg = s.cfg := rfl
@[simp] theorem State.modEpo_pwr (s : State) (f : Epo → Epo) : (s.modEpo f).pwr = s.pwr := rfl
@[simp] theorem State.modEpo_bs (s : State) (f : Epo → Epo) : (s.modEpo f).bs = s.bs := rfl
@[simp] theorem State.modEpo_arb (s : State) (f : Epo → Epo) : (s.modEpo f).arb = s.arb := rfl
@[simp] theorem State.modEpo_rd (s : State) (f : Epo → Epo) (g : Field) (j : Nat) : (s.modEpo f).rd g j = s.rd g j := rfl

/-! State.modSaf -/

@[simp] theorem State.modSaf_pending (s : State) (f : Saf → Saf) : (s.modSaf f).pending = s.pending := rfl
@[simp] theorem State.modSaf_wire (s : State) (f : Saf → Saf) : (s.modSaf f).wire = s.wire := rfl
@[simp] theorem State.modSaf_free (s : State) (f : Saf → Saf) : (s.modSaf f).free = s.free := rfl
@[simp] theorem State.modSaf_serial (s : State) (f : Saf → Saf) : (s.modSaf f).serial = s.serial := rfl
@[simp] theorem State.modSaf_regs (s : State) (f : Saf → Saf) : (s.modSaf f).regs = s.regs := rfl
@[simp] theorem State.modSaf_clk (s : State) (f : Saf → Saf) : (s.modSaf f).clk = s.clk := rfl
@[simp] theorem State.modSaf_epo (s : State) (f : Saf → Saf) : (s.modSaf f).epo = s.epo := rfl
@[simp] theorem State.modSaf_pts (s : State) (f : Saf → Saf) : (s.modSaf f).pts = s.pts := rfl
@[simp] theorem State.modSaf_evq (s : State) (f : Saf → Saf) : (s.modSaf f).evq = s.evq := rfl
@[simp] theorem State.modSaf_dr (s : State) (f : Saf → Saf) : (s.modSaf f).dr = s.dr := rfl
@[simp] theorem State.modSaf_host (s : State) (f : Saf → Saf) : (s.modSaf f).host = s.host := rfl
@[simp] theorem State.modSaf_eth (s : State) (f : Saf → Saf) : (s.modSaf f).eth = s.eth := rfl
@[simp] theorem State.modSaf_conds (s : State) (f : Saf → Saf) : (s.modSaf f).conds = s.conds := rfl
@[simp] theorem State.modSaf_jtag (s : State) (f : Saf → Saf) : (s.modSaf f).jtag = s.jtag := rfl
@[simp] theorem State.modSaf_arms (s : State) (f : Saf → Saf) : (s.modSaf f).arms = s.arms := rfl
@[simp] theorem State.modSaf_cells (s : State) (f : Saf → Saf) : (s.modSaf f).cells = s.cells := rfl
@[simp] theorem State.modSaf_lanes (s : State) (f : Saf → Saf) : (s.modSaf f).lanes = s.lanes := rfl
@[simp] theorem State.modSaf_units (s : State) (f : Saf → Saf) : (s.modSaf f).units = s.units := rfl
@[simp] theorem State.modSaf_drv (s : State) (f : Saf → Saf) : (s.modSaf f).drv = s.drv := rfl
@[simp] theorem State.modSaf_cal (s : State) (f : Saf → Saf) : (s.modSaf f).cal = s.cal := rfl
@[simp] theorem State.modSaf_fab (s : State) (f : Saf → Saf) : (s.modSaf f).fab = s.fab := rfl
@[simp] theorem State.modSaf_ord (s : State) (f : Saf → Saf) : (s.modSaf f).ord = s.ord := rfl
@[simp] theorem State.modSaf_adc (s : State) (f : Saf → Saf) : (s.modSaf f).adc = s.adc := rfl
@[simp] theorem State.modSaf_red (s : State) (f : Saf → Saf) : (s.modSaf f).red = s.red := rfl
@[simp] theorem State.modSaf_cfg (s : State) (f : Saf → Saf) : (s.modSaf f).cfg = s.cfg := rfl
@[simp] theorem State.modSaf_pwr (s : State) (f : Saf → Saf) : (s.modSaf f).pwr = s.pwr := rfl
@[simp] theorem State.modSaf_bs (s : State) (f : Saf → Saf) : (s.modSaf f).bs = s.bs := rfl
@[simp] theorem State.modSaf_arb (s : State) (f : Saf → Saf) : (s.modSaf f).arb = s.arb := rfl
@[simp] theorem State.modSaf_rd (s : State) (f : Saf → Saf) (g : Field) (j : Nat) : (s.modSaf f).rd g j = s.rd g j := rfl

/-! State.modCfg -/

@[simp] theorem State.modCfg_pending (s : State) (f : Cfg → Cfg) : (s.modCfg f).pending = s.pending := rfl
@[simp] theorem State.modCfg_wire (s : State) (f : Cfg → Cfg) : (s.modCfg f).wire = s.wire := rfl
@[simp] theorem State.modCfg_free (s : State) (f : Cfg → Cfg) : (s.modCfg f).free = s.free := rfl
@[simp] theorem State.modCfg_serial (s : State) (f : Cfg → Cfg) : (s.modCfg f).serial = s.serial := rfl
@[simp] theorem State.modCfg_regs (s : State) (f : Cfg → Cfg) : (s.modCfg f).regs = s.regs := rfl
@[simp] theorem State.modCfg_clk (s : State) (f : Cfg → Cfg) : (s.modCfg f).clk = s.clk := rfl
@[simp] theorem State.modCfg_epo (s : State) (f : Cfg → Cfg) : (s.modCfg f).epo = s.epo := rfl
@[simp] theorem State.modCfg_pts (s : State) (f : Cfg → Cfg) : (s.modCfg f).pts = s.pts := rfl
@[simp] theorem State.modCfg_evq (s : State) (f : Cfg → Cfg) : (s.modCfg f).evq = s.evq := rfl
@[simp] theorem State.modCfg_dr (s : State) (f : Cfg → Cfg) : (s.modCfg f).dr = s.dr := rfl
@[simp] theorem State.modCfg_host (s : State) (f : Cfg → Cfg) : (s.modCfg f).host = s.host := rfl
@[simp] theorem State.modCfg_eth (s : State) (f : Cfg → Cfg) : (s.modCfg f).eth = s.eth := rfl
@[simp] theorem State.modCfg_conds (s : State) (f : Cfg → Cfg) : (s.modCfg f).conds = s.conds := rfl
@[simp] theorem State.modCfg_jtag (s : State) (f : Cfg → Cfg) : (s.modCfg f).jtag = s.jtag := rfl
@[simp] theorem State.modCfg_arms (s : State) (f : Cfg → Cfg) : (s.modCfg f).arms = s.arms := rfl
@[simp] theorem State.modCfg_cells (s : State) (f : Cfg → Cfg) : (s.modCfg f).cells = s.cells := rfl
@[simp] theorem State.modCfg_lanes (s : State) (f : Cfg → Cfg) : (s.modCfg f).lanes = s.lanes := rfl
@[simp] theorem State.modCfg_units (s : State) (f : Cfg → Cfg) : (s.modCfg f).units = s.units := rfl
@[simp] theorem State.modCfg_drv (s : State) (f : Cfg → Cfg) : (s.modCfg f).drv = s.drv := rfl
@[simp] theorem State.modCfg_cal (s : State) (f : Cfg → Cfg) : (s.modCfg f).cal = s.cal := rfl
@[simp] theorem State.modCfg_fab (s : State) (f : Cfg → Cfg) : (s.modCfg f).fab = s.fab := rfl
@[simp] theorem State.modCfg_ord (s : State) (f : Cfg → Cfg) : (s.modCfg f).ord = s.ord := rfl
@[simp] theorem State.modCfg_adc (s : State) (f : Cfg → Cfg) : (s.modCfg f).adc = s.adc := rfl
@[simp] theorem State.modCfg_red (s : State) (f : Cfg → Cfg) : (s.modCfg f).red = s.red := rfl
@[simp] theorem State.modCfg_saf (s : State) (f : Cfg → Cfg) : (s.modCfg f).saf = s.saf := rfl
@[simp] theorem State.modCfg_pwr (s : State) (f : Cfg → Cfg) : (s.modCfg f).pwr = s.pwr := rfl
@[simp] theorem State.modCfg_bs (s : State) (f : Cfg → Cfg) : (s.modCfg f).bs = s.bs := rfl
@[simp] theorem State.modCfg_arb (s : State) (f : Cfg → Cfg) : (s.modCfg f).arb = s.arb := rfl
@[simp] theorem State.modCfg_rd (s : State) (f : Cfg → Cfg) (g : Field) (j : Nat) : (s.modCfg f).rd g j = s.rd g j := rfl

/-! State.setPort -/

@[simp] theorem State.setPort_pending (s : State) (n : Nat) (e : Eth) : (s.setPort n e).pending = s.pending := rfl
@[simp] theorem State.setPort_wire (s : State) (n : Nat) (e : Eth) : (s.setPort n e).wire = s.wire := rfl
@[simp] theorem State.setPort_free (s : State) (n : Nat) (e : Eth) : (s.setPort n e).free = s.free := rfl
@[simp] theorem State.setPort_serial (s : State) (n : Nat) (e : Eth) : (s.setPort n e).serial = s.serial := rfl
@[simp] theorem State.setPort_regs (s : State) (n : Nat) (e : Eth) : (s.setPort n e).regs = s.regs := rfl
@[simp] theorem State.setPort_clk (s : State) (n : Nat) (e : Eth) : (s.setPort n e).clk = s.clk := rfl
@[simp] theorem State.setPort_epo (s : State) (n : Nat) (e : Eth) : (s.setPort n e).epo = s.epo := rfl
@[simp] theorem State.setPort_pts (s : State) (n : Nat) (e : Eth) : (s.setPort n e).pts = s.pts := rfl
@[simp] theorem State.setPort_evq (s : State) (n : Nat) (e : Eth) : (s.setPort n e).evq = s.evq := rfl
@[simp] theorem State.setPort_dr (s : State) (n : Nat) (e : Eth) : (s.setPort n e).dr = s.dr := rfl
@[simp] theorem State.setPort_host (s : State) (n : Nat) (e : Eth) : (s.setPort n e).host = s.host := rfl
@[simp] theorem State.setPort_conds (s : State) (n : Nat) (e : Eth) : (s.setPort n e).conds = s.conds := rfl
@[simp] theorem State.setPort_jtag (s : State) (n : Nat) (e : Eth) : (s.setPort n e).jtag = s.jtag := rfl
@[simp] theorem State.setPort_arms (s : State) (n : Nat) (e : Eth) : (s.setPort n e).arms = s.arms := rfl
@[simp] theorem State.setPort_cells (s : State) (n : Nat) (e : Eth) : (s.setPort n e).cells = s.cells := rfl
@[simp] theorem State.setPort_lanes (s : State) (n : Nat) (e : Eth) : (s.setPort n e).lanes = s.lanes := rfl
@[simp] theorem State.setPort_units (s : State) (n : Nat) (e : Eth) : (s.setPort n e).units = s.units := rfl
@[simp] theorem State.setPort_drv (s : State) (n : Nat) (e : Eth) : (s.setPort n e).drv = s.drv := rfl
@[simp] theorem State.setPort_cal (s : State) (n : Nat) (e : Eth) : (s.setPort n e).cal = s.cal := rfl
@[simp] theorem State.setPort_fab (s : State) (n : Nat) (e : Eth) : (s.setPort n e).fab = s.fab := rfl
@[simp] theorem State.setPort_ord (s : State) (n : Nat) (e : Eth) : (s.setPort n e).ord = s.ord := rfl
@[simp] theorem State.setPort_adc (s : State) (n : Nat) (e : Eth) : (s.setPort n e).adc = s.adc := rfl
@[simp] theorem State.setPort_red (s : State) (n : Nat) (e : Eth) : (s.setPort n e).red = s.red := rfl
@[simp] theorem State.setPort_saf (s : State) (n : Nat) (e : Eth) : (s.setPort n e).saf = s.saf := rfl
@[simp] theorem State.setPort_cfg (s : State) (n : Nat) (e : Eth) : (s.setPort n e).cfg = s.cfg := rfl
@[simp] theorem State.setPort_pwr (s : State) (n : Nat) (e : Eth) : (s.setPort n e).pwr = s.pwr := rfl
@[simp] theorem State.setPort_bs (s : State) (n : Nat) (e : Eth) : (s.setPort n e).bs = s.bs := rfl
@[simp] theorem State.setPort_arb (s : State) (n : Nat) (e : Eth) : (s.setPort n e).arb = s.arb := rfl
@[simp] theorem State.setPort_rd (s : State) (n : Nat) (e : Eth) (g : Field) (j : Nat) : (s.setPort n e).rd g j = s.rd g j := rfl

/-! State.signal -/

@[simp] theorem State.signal_pending (s : State) (v : Nat) : (s.signal v).pending = s.pending :=
  (State.signal_keeps (M := 0x412) (by decide) (.refl s)).pending
@[simp] theorem State.signal_free (s : State) (v : Nat) : (s.signal v).free = s.free :=
  (State.signal_keeps (M := 0x412) (by decide) (.refl s)).drawn.get (by decide)
@[simp] theorem State.signal_serial (s : State) (v : Nat) : (s.signal v).serial = s.serial :=
  (State.signal_keeps (M := 0x412) (by decide) (.refl s)).serial
@[simp] theorem State.signal_clk (s : State) (v : Nat) : (s.signal v).clk = s.clk :=
  (State.signal_keeps (M := 0x412) (by decide) (.refl s)).clk.get (by decide)
@[simp] theorem State.signal_epo (s : State) (v : Nat) : (s.signal v).epo = s.epo :=
  (State.signal_keeps (M := 0x412) (by decide) (.refl s)).epo.get (by decide)
@[simp] theorem State.signal_pts (s : State) (v : Nat) : (s.signal v).pts = s.pts :=
  (State.signal_keeps (M := 0x412) (by decide) (.refl s)).pts.get (by decide)
@[simp] theorem State.signal_evq (s : State) (v : Nat) : (s.signal v).evq = s.evq :=
  (State.signal_keeps (M := 0x412) (by decide) (.refl s)).evq.get (by decide)
@[simp] theorem State.signal_dr (s : State) (v : Nat) : (s.signal v).dr = s.dr :=
  (State.signal_keeps (M := 0x412) (by decide) (.refl s)).dr.get (by decide)
@[simp] theorem State.signal_eth (s : State) (v : Nat) : (s.signal v).eth = s.eth :=
  (State.signal_keeps (M := 0x412) (by decide) (.refl s)).eth.get (by decide)
@[simp] theorem State.signal_conds (s : State) (v : Nat) : (s.signal v).conds = s.conds :=
  (State.signal_keeps (M := 0x412) (by decide) (.refl s)).conds.get (by decide)
@[simp] theorem State.signal_jtag (s : State) (v : Nat) : (s.signal v).jtag = s.jtag :=
  (State.signal_keeps (M := 0x412) (by decide) (.refl s)).jtag.get (by decide)
@[simp] theorem State.signal_arms (s : State) (v : Nat) : (s.signal v).arms = s.arms :=
  (State.signal_keeps (M := 0x412) (by decide) (.refl s)).arms.get (by decide)
@[simp] theorem State.signal_cells (s : State) (v : Nat) : (s.signal v).cells = s.cells :=
  (State.signal_keeps (M := 0x412) (by decide) (.refl s)).cells.get (by decide)
@[simp] theorem State.signal_lanes (s : State) (v : Nat) : (s.signal v).lanes = s.lanes :=
  (State.signal_keeps (M := 0x412) (by decide) (.refl s)).lanes.get (by decide)
@[simp] theorem State.signal_units (s : State) (v : Nat) : (s.signal v).units = s.units :=
  (State.signal_keeps (M := 0x412) (by decide) (.refl s)).units.get (by decide)
@[simp] theorem State.signal_drv (s : State) (v : Nat) : (s.signal v).drv = s.drv :=
  (State.signal_keeps (M := 0x412) (by decide) (.refl s)).drv.get (by decide)
@[simp] theorem State.signal_cal (s : State) (v : Nat) : (s.signal v).cal = s.cal :=
  (State.signal_keeps (M := 0x412) (by decide) (.refl s)).cal.get (by decide)
@[simp] theorem State.signal_fab (s : State) (v : Nat) : (s.signal v).fab = s.fab :=
  (State.signal_keeps (M := 0x412) (by decide) (.refl s)).fab.get (by decide)
@[simp] theorem State.signal_ord (s : State) (v : Nat) : (s.signal v).ord = s.ord :=
  (State.signal_keeps (M := 0x412) (by decide) (.refl s)).ord.get (by decide)
@[simp] theorem State.signal_adc (s : State) (v : Nat) : (s.signal v).adc = s.adc :=
  (State.signal_keeps (M := 0x412) (by decide) (.refl s)).adc.get (by decide)
@[simp] theorem State.signal_red (s : State) (v : Nat) : (s.signal v).red = s.red :=
  (State.signal_keeps (M := 0x412) (by decide) (.refl s)).red.get (by decide)
@[simp] theorem State.signal_saf (s : State) (v : Nat) : (s.signal v).saf = s.saf :=
  (State.signal_keeps (M := 0x412) (by decide) (.refl s)).saf.get (by decide)
@[simp] theorem State.signal_cfg (s : State) (v : Nat) : (s.signal v).cfg = s.cfg :=
  (State.signal_keeps (M := 0x412) (by decide) (.refl s)).cfg.get (by decide)
@[simp] theorem State.signal_pwr (s : State) (v : Nat) : (s.signal v).pwr = s.pwr :=
  (State.signal_keeps (M := 0x412) (by decide) (.refl s)).pwr.get (by decide)
@[simp] theorem State.signal_bs (s : State) (v : Nat) : (s.signal v).bs = s.bs :=
  (State.signal_keeps (M := 0x412) (by decide) (.refl s)).bs.get (by decide)
@[simp] theorem State.signal_arb (s : State) (v : Nat) : (s.signal v).arb = s.arb :=
  (State.signal_keeps (M := 0x412) (by decide) (.refl s)).arb.get (by decide)

/-! State.raise -/

@[simp] theorem State.raise_pending (s : State) (c i d : Nat) : (s.raise c i d).pending = s.pending :=
  (State.raise_keeps (M := 0x512) (by decide) (.refl s)).pending
@[simp] theorem State.raise_free (s : State) (c i d : Nat) : (s.raise c i d).free = s.free :=
  (State.raise_keeps (M := 0x512) (by decide) (.refl s)).drawn.get (by decide)
@[simp] theorem State.raise_serial (s : State) (c i d : Nat) : (s.raise c i d).serial = s.serial :=
  (State.raise_keeps (M := 0x512) (by decide) (.refl s)).serial
@[simp] theorem State.raise_clk (s : State) (c i d : Nat) : (s.raise c i d).clk = s.clk :=
  (State.raise_keeps (M := 0x512) (by decide) (.refl s)).clk.get (by decide)
@[simp] theorem State.raise_epo (s : State) (c i d : Nat) : (s.raise c i d).epo = s.epo :=
  (State.raise_keeps (M := 0x512) (by decide) (.refl s)).epo.get (by decide)
@[simp] theorem State.raise_pts (s : State) (c i d : Nat) : (s.raise c i d).pts = s.pts :=
  (State.raise_keeps (M := 0x512) (by decide) (.refl s)).pts.get (by decide)
@[simp] theorem State.raise_dr (s : State) (c i d : Nat) : (s.raise c i d).dr = s.dr :=
  (State.raise_keeps (M := 0x512) (by decide) (.refl s)).dr.get (by decide)
@[simp] theorem State.raise_eth (s : State) (c i d : Nat) : (s.raise c i d).eth = s.eth :=
  (State.raise_keeps (M := 0x512) (by decide) (.refl s)).eth.get (by decide)
@[simp] theorem State.raise_conds (s : State) (c i d : Nat) : (s.raise c i d).conds = s.conds :=
  (State.raise_keeps (M := 0x512) (by decide) (.refl s)).conds.get (by decide)
@[simp] theorem State.raise_jtag (s : State) (c i d : Nat) : (s.raise c i d).jtag = s.jtag :=
  (State.raise_keeps (M := 0x512) (by decide) (.refl s)).jtag.get (by decide)
@[simp] theorem State.raise_arms (s : State) (c i d : Nat) : (s.raise c i d).arms = s.arms :=
  (State.raise_keeps (M := 0x512) (by decide) (.refl s)).arms.get (by decide)
@[simp] theorem State.raise_cells (s : State) (c i d : Nat) : (s.raise c i d).cells = s.cells :=
  (State.raise_keeps (M := 0x512) (by decide) (.refl s)).cells.get (by decide)
@[simp] theorem State.raise_lanes (s : State) (c i d : Nat) : (s.raise c i d).lanes = s.lanes :=
  (State.raise_keeps (M := 0x512) (by decide) (.refl s)).lanes.get (by decide)
@[simp] theorem State.raise_units (s : State) (c i d : Nat) : (s.raise c i d).units = s.units :=
  (State.raise_keeps (M := 0x512) (by decide) (.refl s)).units.get (by decide)
@[simp] theorem State.raise_drv (s : State) (c i d : Nat) : (s.raise c i d).drv = s.drv :=
  (State.raise_keeps (M := 0x512) (by decide) (.refl s)).drv.get (by decide)
@[simp] theorem State.raise_cal (s : State) (c i d : Nat) : (s.raise c i d).cal = s.cal :=
  (State.raise_keeps (M := 0x512) (by decide) (.refl s)).cal.get (by decide)
@[simp] theorem State.raise_fab (s : State) (c i d : Nat) : (s.raise c i d).fab = s.fab :=
  (State.raise_keeps (M := 0x512) (by decide) (.refl s)).fab.get (by decide)
@[simp] theorem State.raise_ord (s : State) (c i d : Nat) : (s.raise c i d).ord = s.ord :=
  (State.raise_keeps (M := 0x512) (by decide) (.refl s)).ord.get (by decide)
@[simp] theorem State.raise_adc (s : State) (c i d : Nat) : (s.raise c i d).adc = s.adc :=
  (State.raise_keeps (M := 0x512) (by decide) (.refl s)).adc.get (by decide)
@[simp] theorem State.raise_red (s : State) (c i d : Nat) : (s.raise c i d).red = s.red :=
  (State.raise_keeps (M := 0x512) (by decide) (.refl s)).red.get (by decide)
@[simp] theorem State.raise_saf (s : State) (c i d : Nat) : (s.raise c i d).saf = s.saf :=
  (State.raise_keeps (M := 0x512) (by decide) (.refl s)).saf.get (by decide)
@[simp] theorem State.raise_cfg (s : State) (c i d : Nat) : (s.raise c i d).cfg = s.cfg :=
  (State.raise_keeps (M := 0x512) (by decide) (.refl s)).cfg.get (by decide)
@[simp] theorem State.raise_pwr (s : State) (c i d : Nat) : (s.raise c i d).pwr = s.pwr :=
  (State.raise_keeps (M := 0x512) (by decide) (.refl s)).pwr.get (by decide)
@[simp] theorem State.raise_bs (s : State) (c i d : Nat) : (s.raise c i d).bs = s.bs :=
  (State.raise_keeps (M := 0x512) (by decide) (.refl s)).bs.get (by decide)
@[simp] theorem State.raise_arb (s : State) (c i d : Nat) : (s.raise c i d).arb = s.arb :=
  (State.raise_keeps (M := 0x512) (by decide) (.refl s)).arb.get (by decide)

/-! State.raiseAt -/

@[simp] theorem State.raiseAt_pending (s : State) (c i x t d : Nat) : (s.raiseAt c i x t d).pending = s.pending :=
  (State.raiseAt_keeps (M := 0x512) (by decide) (.refl s)).pending
@[simp] theorem State.raiseAt_free (s : State) (c i x t d : Nat) : (s.raiseAt c i x t d).free = s.free :=
  (State.raiseAt_keeps (M := 0x512) (by decide) (.refl s)).drawn.get (by decide)
@[simp] theorem State.raiseAt_serial (s : State) (c i x t d : Nat) : (s.raiseAt c i x t d).serial = s.serial :=
  (State.raiseAt_keeps (M := 0x512) (by decide) (.refl s)).serial
@[simp] theorem State.raiseAt_clk (s : State) (c i x t d : Nat) : (s.raiseAt c i x t d).clk = s.clk :=
  (State.raiseAt_keeps (M := 0x512) (by decide) (.refl s)).clk.get (by decide)
@[simp] theorem State.raiseAt_epo (s : State) (c i x t d : Nat) : (s.raiseAt c i x t d).epo = s.epo :=
  (State.raiseAt_keeps (M := 0x512) (by decide) (.refl s)).epo.get (by decide)
@[simp] theorem State.raiseAt_pts (s : State) (c i x t d : Nat) : (s.raiseAt c i x t d).pts = s.pts :=
  (State.raiseAt_keeps (M := 0x512) (by decide) (.refl s)).pts.get (by decide)
@[simp] theorem State.raiseAt_dr (s : State) (c i x t d : Nat) : (s.raiseAt c i x t d).dr = s.dr :=
  (State.raiseAt_keeps (M := 0x512) (by decide) (.refl s)).dr.get (by decide)
@[simp] theorem State.raiseAt_eth (s : State) (c i x t d : Nat) : (s.raiseAt c i x t d).eth = s.eth :=
  (State.raiseAt_keeps (M := 0x512) (by decide) (.refl s)).eth.get (by decide)
@[simp] theorem State.raiseAt_conds (s : State) (c i x t d : Nat) : (s.raiseAt c i x t d).conds = s.conds :=
  (State.raiseAt_keeps (M := 0x512) (by decide) (.refl s)).conds.get (by decide)
@[simp] theorem State.raiseAt_jtag (s : State) (c i x t d : Nat) : (s.raiseAt c i x t d).jtag = s.jtag :=
  (State.raiseAt_keeps (M := 0x512) (by decide) (.refl s)).jtag.get (by decide)
@[simp] theorem State.raiseAt_arms (s : State) (c i x t d : Nat) : (s.raiseAt c i x t d).arms = s.arms :=
  (State.raiseAt_keeps (M := 0x512) (by decide) (.refl s)).arms.get (by decide)
@[simp] theorem State.raiseAt_cells (s : State) (c i x t d : Nat) : (s.raiseAt c i x t d).cells = s.cells :=
  (State.raiseAt_keeps (M := 0x512) (by decide) (.refl s)).cells.get (by decide)
@[simp] theorem State.raiseAt_lanes (s : State) (c i x t d : Nat) : (s.raiseAt c i x t d).lanes = s.lanes :=
  (State.raiseAt_keeps (M := 0x512) (by decide) (.refl s)).lanes.get (by decide)
@[simp] theorem State.raiseAt_units (s : State) (c i x t d : Nat) : (s.raiseAt c i x t d).units = s.units :=
  (State.raiseAt_keeps (M := 0x512) (by decide) (.refl s)).units.get (by decide)
@[simp] theorem State.raiseAt_drv (s : State) (c i x t d : Nat) : (s.raiseAt c i x t d).drv = s.drv :=
  (State.raiseAt_keeps (M := 0x512) (by decide) (.refl s)).drv.get (by decide)
@[simp] theorem State.raiseAt_cal (s : State) (c i x t d : Nat) : (s.raiseAt c i x t d).cal = s.cal :=
  (State.raiseAt_keeps (M := 0x512) (by decide) (.refl s)).cal.get (by decide)
@[simp] theorem State.raiseAt_fab (s : State) (c i x t d : Nat) : (s.raiseAt c i x t d).fab = s.fab :=
  (State.raiseAt_keeps (M := 0x512) (by decide) (.refl s)).fab.get (by decide)
@[simp] theorem State.raiseAt_ord (s : State) (c i x t d : Nat) : (s.raiseAt c i x t d).ord = s.ord :=
  (State.raiseAt_keeps (M := 0x512) (by decide) (.refl s)).ord.get (by decide)
@[simp] theorem State.raiseAt_adc (s : State) (c i x t d : Nat) : (s.raiseAt c i x t d).adc = s.adc :=
  (State.raiseAt_keeps (M := 0x512) (by decide) (.refl s)).adc.get (by decide)
@[simp] theorem State.raiseAt_red (s : State) (c i x t d : Nat) : (s.raiseAt c i x t d).red = s.red :=
  (State.raiseAt_keeps (M := 0x512) (by decide) (.refl s)).red.get (by decide)
@[simp] theorem State.raiseAt_saf (s : State) (c i x t d : Nat) : (s.raiseAt c i x t d).saf = s.saf :=
  (State.raiseAt_keeps (M := 0x512) (by decide) (.refl s)).saf.get (by decide)
@[simp] theorem State.raiseAt_cfg (s : State) (c i x t d : Nat) : (s.raiseAt c i x t d).cfg = s.cfg :=
  (State.raiseAt_keeps (M := 0x512) (by decide) (.refl s)).cfg.get (by decide)
@[simp] theorem State.raiseAt_pwr (s : State) (c i x t d : Nat) : (s.raiseAt c i x t d).pwr = s.pwr :=
  (State.raiseAt_keeps (M := 0x512) (by decide) (.refl s)).pwr.get (by decide)
@[simp] theorem State.raiseAt_bs (s : State) (c i x t d : Nat) : (s.raiseAt c i x t d).bs = s.bs :=
  (State.raiseAt_keeps (M := 0x512) (by decide) (.refl s)).bs.get (by decide)
@[simp] theorem State.raiseAt_arb (s : State) (c i x t d : Nat) : (s.raiseAt c i x t d).arb = s.arb :=
  (State.raiseAt_keeps (M := 0x512) (by decide) (.refl s)).arb.get (by decide)

/-! State.rejectWrite -/

@[simp] theorem State.rejectWrite_pending (s : State) (a : Nat) : (s.rejectWrite a).pending = s.pending :=
  (State.rejectWrite_keeps (M := 0x512) (by decide) (.refl s)).pending
@[simp] theorem State.rejectWrite_free (s : State) (a : Nat) : (s.rejectWrite a).free = s.free :=
  (State.rejectWrite_keeps (M := 0x512) (by decide) (.refl s)).drawn.get (by decide)
@[simp] theorem State.rejectWrite_serial (s : State) (a : Nat) : (s.rejectWrite a).serial = s.serial :=
  (State.rejectWrite_keeps (M := 0x512) (by decide) (.refl s)).serial
@[simp] theorem State.rejectWrite_clk (s : State) (a : Nat) : (s.rejectWrite a).clk = s.clk :=
  (State.rejectWrite_keeps (M := 0x512) (by decide) (.refl s)).clk.get (by decide)
@[simp] theorem State.rejectWrite_epo (s : State) (a : Nat) : (s.rejectWrite a).epo = s.epo :=
  (State.rejectWrite_keeps (M := 0x512) (by decide) (.refl s)).epo.get (by decide)
@[simp] theorem State.rejectWrite_pts (s : State) (a : Nat) : (s.rejectWrite a).pts = s.pts :=
  (State.rejectWrite_keeps (M := 0x512) (by decide) (.refl s)).pts.get (by decide)
@[simp] theorem State.rejectWrite_dr (s : State) (a : Nat) : (s.rejectWrite a).dr = s.dr :=
  (State.rejectWrite_keeps (M := 0x512) (by decide) (.refl s)).dr.get (by decide)
@[simp] theorem State.rejectWrite_eth (s : State) (a : Nat) : (s.rejectWrite a).eth = s.eth :=
  (State.rejectWrite_keeps (M := 0x512) (by decide) (.refl s)).eth.get (by decide)
@[simp] theorem State.rejectWrite_conds (s : State) (a : Nat) : (s.rejectWrite a).conds = s.conds :=
  (State.rejectWrite_keeps (M := 0x512) (by decide) (.refl s)).conds.get (by decide)
@[simp] theorem State.rejectWrite_jtag (s : State) (a : Nat) : (s.rejectWrite a).jtag = s.jtag :=
  (State.rejectWrite_keeps (M := 0x512) (by decide) (.refl s)).jtag.get (by decide)
@[simp] theorem State.rejectWrite_arms (s : State) (a : Nat) : (s.rejectWrite a).arms = s.arms :=
  (State.rejectWrite_keeps (M := 0x512) (by decide) (.refl s)).arms.get (by decide)
@[simp] theorem State.rejectWrite_cells (s : State) (a : Nat) : (s.rejectWrite a).cells = s.cells :=
  (State.rejectWrite_keeps (M := 0x512) (by decide) (.refl s)).cells.get (by decide)
@[simp] theorem State.rejectWrite_lanes (s : State) (a : Nat) : (s.rejectWrite a).lanes = s.lanes :=
  (State.rejectWrite_keeps (M := 0x512) (by decide) (.refl s)).lanes.get (by decide)
@[simp] theorem State.rejectWrite_units (s : State) (a : Nat) : (s.rejectWrite a).units = s.units :=
  (State.rejectWrite_keeps (M := 0x512) (by decide) (.refl s)).units.get (by decide)
@[simp] theorem State.rejectWrite_drv (s : State) (a : Nat) : (s.rejectWrite a).drv = s.drv :=
  (State.rejectWrite_keeps (M := 0x512) (by decide) (.refl s)).drv.get (by decide)
@[simp] theorem State.rejectWrite_cal (s : State) (a : Nat) : (s.rejectWrite a).cal = s.cal :=
  (State.rejectWrite_keeps (M := 0x512) (by decide) (.refl s)).cal.get (by decide)
@[simp] theorem State.rejectWrite_fab (s : State) (a : Nat) : (s.rejectWrite a).fab = s.fab :=
  (State.rejectWrite_keeps (M := 0x512) (by decide) (.refl s)).fab.get (by decide)
@[simp] theorem State.rejectWrite_ord (s : State) (a : Nat) : (s.rejectWrite a).ord = s.ord :=
  (State.rejectWrite_keeps (M := 0x512) (by decide) (.refl s)).ord.get (by decide)
@[simp] theorem State.rejectWrite_adc (s : State) (a : Nat) : (s.rejectWrite a).adc = s.adc :=
  (State.rejectWrite_keeps (M := 0x512) (by decide) (.refl s)).adc.get (by decide)
@[simp] theorem State.rejectWrite_red (s : State) (a : Nat) : (s.rejectWrite a).red = s.red :=
  (State.rejectWrite_keeps (M := 0x512) (by decide) (.refl s)).red.get (by decide)
@[simp] theorem State.rejectWrite_saf (s : State) (a : Nat) : (s.rejectWrite a).saf = s.saf :=
  (State.rejectWrite_keeps (M := 0x512) (by decide) (.refl s)).saf.get (by decide)
@[simp] theorem State.rejectWrite_cfg (s : State) (a : Nat) : (s.rejectWrite a).cfg = s.cfg :=
  (State.rejectWrite_keeps (M := 0x512) (by decide) (.refl s)).cfg.get (by decide)
@[simp] theorem State.rejectWrite_pwr (s : State) (a : Nat) : (s.rejectWrite a).pwr = s.pwr :=
  (State.rejectWrite_keeps (M := 0x512) (by decide) (.refl s)).pwr.get (by decide)
@[simp] theorem State.rejectWrite_bs (s : State) (a : Nat) : (s.rejectWrite a).bs = s.bs :=
  (State.rejectWrite_keeps (M := 0x512) (by decide) (.refl s)).bs.get (by decide)
@[simp] theorem State.rejectWrite_arb (s : State) (a : Nat) : (s.rejectWrite a).arb = s.arb :=
  (State.rejectWrite_keeps (M := 0x512) (by decide) (.refl s)).arb.get (by decide)

/-! State.accessError -/

@[simp] theorem State.accessError_pending (s : State) (a : Nat) (w : Bool) : (s.accessError a w).pending = s.pending :=
  (State.accessError_keeps (M := 0x512) (by decide) (.refl s)).pending
@[simp] theorem State.accessError_free (s : State) (a : Nat) (w : Bool) : (s.accessError a w).free = s.free :=
  (State.accessError_keeps (M := 0x512) (by decide) (.refl s)).drawn.get (by decide)
@[simp] theorem State.accessError_serial (s : State) (a : Nat) (w : Bool) : (s.accessError a w).serial = s.serial :=
  (State.accessError_keeps (M := 0x512) (by decide) (.refl s)).serial
@[simp] theorem State.accessError_clk (s : State) (a : Nat) (w : Bool) : (s.accessError a w).clk = s.clk :=
  (State.accessError_keeps (M := 0x512) (by decide) (.refl s)).clk.get (by decide)
@[simp] theorem State.accessError_epo (s : State) (a : Nat) (w : Bool) : (s.accessError a w).epo = s.epo :=
  (State.accessError_keeps (M := 0x512) (by decide) (.refl s)).epo.get (by decide)
@[simp] theorem State.accessError_pts (s : State) (a : Nat) (w : Bool) : (s.accessError a w).pts = s.pts :=
  (State.accessError_keeps (M := 0x512) (by decide) (.refl s)).pts.get (by decide)
@[simp] theorem State.accessError_dr (s : State) (a : Nat) (w : Bool) : (s.accessError a w).dr = s.dr :=
  (State.accessError_keeps (M := 0x512) (by decide) (.refl s)).dr.get (by decide)
@[simp] theorem State.accessError_eth (s : State) (a : Nat) (w : Bool) : (s.accessError a w).eth = s.eth :=
  (State.accessError_keeps (M := 0x512) (by decide) (.refl s)).eth.get (by decide)
@[simp] theorem State.accessError_conds (s : State) (a : Nat) (w : Bool) : (s.accessError a w).conds = s.conds :=
  (State.accessError_keeps (M := 0x512) (by decide) (.refl s)).conds.get (by decide)
@[simp] theorem State.accessError_jtag (s : State) (a : Nat) (w : Bool) : (s.accessError a w).jtag = s.jtag :=
  (State.accessError_keeps (M := 0x512) (by decide) (.refl s)).jtag.get (by decide)
@[simp] theorem State.accessError_arms (s : State) (a : Nat) (w : Bool) : (s.accessError a w).arms = s.arms :=
  (State.accessError_keeps (M := 0x512) (by decide) (.refl s)).arms.get (by decide)
@[simp] theorem State.accessError_cells (s : State) (a : Nat) (w : Bool) : (s.accessError a w).cells = s.cells :=
  (State.accessError_keeps (M := 0x512) (by decide) (.refl s)).cells.get (by decide)
@[simp] theorem State.accessError_lanes (s : State) (a : Nat) (w : Bool) : (s.accessError a w).lanes = s.lanes :=
  (State.accessError_keeps (M := 0x512) (by decide) (.refl s)).lanes.get (by decide)
@[simp] theorem State.accessError_units (s : State) (a : Nat) (w : Bool) : (s.accessError a w).units = s.units :=
  (State.accessError_keeps (M := 0x512) (by decide) (.refl s)).units.get (by decide)
@[simp] theorem State.accessError_drv (s : State) (a : Nat) (w : Bool) : (s.accessError a w).drv = s.drv :=
  (State.accessError_keeps (M := 0x512) (by decide) (.refl s)).drv.get (by decide)
@[simp] theorem State.accessError_cal (s : State) (a : Nat) (w : Bool) : (s.accessError a w).cal = s.cal :=
  (State.accessError_keeps (M := 0x512) (by decide) (.refl s)).cal.get (by decide)
@[simp] theorem State.accessError_fab (s : State) (a : Nat) (w : Bool) : (s.accessError a w).fab = s.fab :=
  (State.accessError_keeps (M := 0x512) (by decide) (.refl s)).fab.get (by decide)
@[simp] theorem State.accessError_ord (s : State) (a : Nat) (w : Bool) : (s.accessError a w).ord = s.ord :=
  (State.accessError_keeps (M := 0x512) (by decide) (.refl s)).ord.get (by decide)
@[simp] theorem State.accessError_adc (s : State) (a : Nat) (w : Bool) : (s.accessError a w).adc = s.adc :=
  (State.accessError_keeps (M := 0x512) (by decide) (.refl s)).adc.get (by decide)
@[simp] theorem State.accessError_red (s : State) (a : Nat) (w : Bool) : (s.accessError a w).red = s.red :=
  (State.accessError_keeps (M := 0x512) (by decide) (.refl s)).red.get (by decide)
@[simp] theorem State.accessError_saf (s : State) (a : Nat) (w : Bool) : (s.accessError a w).saf = s.saf :=
  (State.accessError_keeps (M := 0x512) (by decide) (.refl s)).saf.get (by decide)
@[simp] theorem State.accessError_cfg (s : State) (a : Nat) (w : Bool) : (s.accessError a w).cfg = s.cfg :=
  (State.accessError_keeps (M := 0x512) (by decide) (.refl s)).cfg.get (by decide)
@[simp] theorem State.accessError_pwr (s : State) (a : Nat) (w : Bool) : (s.accessError a w).pwr = s.pwr :=
  (State.accessError_keeps (M := 0x512) (by decide) (.refl s)).pwr.get (by decide)
@[simp] theorem State.accessError_bs (s : State) (a : Nat) (w : Bool) : (s.accessError a w).bs = s.bs :=
  (State.accessError_keeps (M := 0x512) (by decide) (.refl s)).bs.get (by decide)
@[simp] theorem State.accessError_arb (s : State) (a : Nat) (w : Bool) : (s.accessError a w).arb = s.arb :=
  (State.accessError_keeps (M := 0x512) (by decide) (.refl s)).arb.get (by decide)

/-! State.mirrorOf -/

@[simp] theorem State.mirrorOf_pending (s t : State) : (s.mirrorOf t).pending = t.pending :=
  (State.mirrorOf_keeps (M := 0x800002) (a0 := s) (a1 := t) (by decide) (.refl t)).pending
@[simp] theorem State.mirrorOf_free (s t : State) : (s.mirrorOf t).free = t.free :=
  (State.mirrorOf_keeps (M := 0x800002) (a0 := s) (a1 := t) (by decide) (.refl t)).drawn.get (by decide)
@[simp] theorem State.mirrorOf_serial (s t : State) : (s.mirrorOf t).serial = t.serial :=
  (State.mirrorOf_keeps (M := 0x800002) (a0 := s) (a1 := t) (by decide) (.refl t)).serial
@[simp] theorem State.mirrorOf_regs (s t : State) : (s.mirrorOf t).regs = t.regs :=
  (State.mirrorOf_keeps (M := 0x800002) (a0 := s) (a1 := t) (by decide) (.refl t)).regs.get (by decide)
@[simp] theorem State.mirrorOf_clk (s t : State) : (s.mirrorOf t).clk = t.clk :=
  (State.mirrorOf_keeps (M := 0x800002) (a0 := s) (a1 := t) (by decide) (.refl t)).clk.get (by decide)
@[simp] theorem State.mirrorOf_epo (s t : State) : (s.mirrorOf t).epo = t.epo :=
  (State.mirrorOf_keeps (M := 0x800002) (a0 := s) (a1 := t) (by decide) (.refl t)).epo.get (by decide)
@[simp] theorem State.mirrorOf_pts (s t : State) : (s.mirrorOf t).pts = t.pts :=
  (State.mirrorOf_keeps (M := 0x800002) (a0 := s) (a1 := t) (by decide) (.refl t)).pts.get (by decide)
@[simp] theorem State.mirrorOf_evq (s t : State) : (s.mirrorOf t).evq = t.evq :=
  (State.mirrorOf_keeps (M := 0x800002) (a0 := s) (a1 := t) (by decide) (.refl t)).evq.get (by decide)
@[simp] theorem State.mirrorOf_dr (s t : State) : (s.mirrorOf t).dr = t.dr :=
  (State.mirrorOf_keeps (M := 0x800002) (a0 := s) (a1 := t) (by decide) (.refl t)).dr.get (by decide)
@[simp] theorem State.mirrorOf_host (s t : State) : (s.mirrorOf t).host = t.host :=
  (State.mirrorOf_keeps (M := 0x800002) (a0 := s) (a1 := t) (by decide) (.refl t)).host.get (by decide)
@[simp] theorem State.mirrorOf_eth (s t : State) : (s.mirrorOf t).eth = t.eth :=
  (State.mirrorOf_keeps (M := 0x800002) (a0 := s) (a1 := t) (by decide) (.refl t)).eth.get (by decide)
@[simp] theorem State.mirrorOf_conds (s t : State) : (s.mirrorOf t).conds = t.conds :=
  (State.mirrorOf_keeps (M := 0x800002) (a0 := s) (a1 := t) (by decide) (.refl t)).conds.get (by decide)
@[simp] theorem State.mirrorOf_jtag (s t : State) : (s.mirrorOf t).jtag = t.jtag :=
  (State.mirrorOf_keeps (M := 0x800002) (a0 := s) (a1 := t) (by decide) (.refl t)).jtag.get (by decide)
@[simp] theorem State.mirrorOf_arms (s t : State) : (s.mirrorOf t).arms = t.arms :=
  (State.mirrorOf_keeps (M := 0x800002) (a0 := s) (a1 := t) (by decide) (.refl t)).arms.get (by decide)
@[simp] theorem State.mirrorOf_cells (s t : State) : (s.mirrorOf t).cells = t.cells :=
  (State.mirrorOf_keeps (M := 0x800002) (a0 := s) (a1 := t) (by decide) (.refl t)).cells.get (by decide)
@[simp] theorem State.mirrorOf_lanes (s t : State) : (s.mirrorOf t).lanes = t.lanes :=
  (State.mirrorOf_keeps (M := 0x800002) (a0 := s) (a1 := t) (by decide) (.refl t)).lanes.get (by decide)
@[simp] theorem State.mirrorOf_units (s t : State) : (s.mirrorOf t).units = t.units :=
  (State.mirrorOf_keeps (M := 0x800002) (a0 := s) (a1 := t) (by decide) (.refl t)).units.get (by decide)
@[simp] theorem State.mirrorOf_drv (s t : State) : (s.mirrorOf t).drv = t.drv :=
  (State.mirrorOf_keeps (M := 0x800002) (a0 := s) (a1 := t) (by decide) (.refl t)).drv.get (by decide)
@[simp] theorem State.mirrorOf_cal (s t : State) : (s.mirrorOf t).cal = t.cal :=
  (State.mirrorOf_keeps (M := 0x800002) (a0 := s) (a1 := t) (by decide) (.refl t)).cal.get (by decide)
@[simp] theorem State.mirrorOf_fab (s t : State) : (s.mirrorOf t).fab = t.fab :=
  (State.mirrorOf_keeps (M := 0x800002) (a0 := s) (a1 := t) (by decide) (.refl t)).fab.get (by decide)
@[simp] theorem State.mirrorOf_ord (s t : State) : (s.mirrorOf t).ord = t.ord :=
  (State.mirrorOf_keeps (M := 0x800002) (a0 := s) (a1 := t) (by decide) (.refl t)).ord.get (by decide)
@[simp] theorem State.mirrorOf_adc (s t : State) : (s.mirrorOf t).adc = t.adc :=
  (State.mirrorOf_keeps (M := 0x800002) (a0 := s) (a1 := t) (by decide) (.refl t)).adc.get (by decide)
@[simp] theorem State.mirrorOf_saf (s t : State) : (s.mirrorOf t).saf = t.saf :=
  (State.mirrorOf_keeps (M := 0x800002) (a0 := s) (a1 := t) (by decide) (.refl t)).saf.get (by decide)
@[simp] theorem State.mirrorOf_cfg (s t : State) : (s.mirrorOf t).cfg = t.cfg :=
  (State.mirrorOf_keeps (M := 0x800002) (a0 := s) (a1 := t) (by decide) (.refl t)).cfg.get (by decide)
@[simp] theorem State.mirrorOf_pwr (s t : State) : (s.mirrorOf t).pwr = t.pwr :=
  (State.mirrorOf_keeps (M := 0x800002) (a0 := s) (a1 := t) (by decide) (.refl t)).pwr.get (by decide)
@[simp] theorem State.mirrorOf_bs (s t : State) : (s.mirrorOf t).bs = t.bs :=
  (State.mirrorOf_keeps (M := 0x800002) (a0 := s) (a1 := t) (by decide) (.refl t)).bs.get (by decide)
@[simp] theorem State.mirrorOf_arb (s t : State) : (s.mirrorOf t).arb = t.arb :=
  (State.mirrorOf_keeps (M := 0x800002) (a0 := s) (a1 := t) (by decide) (.refl t)).arb.get (by decide)

end Sys2Proof.Machine
end

