-- ==== Sys2Proof/Laws/Ops.lean ====
section
/-! SUPPORT. What the operations on registers and events do, said once: a field reads what was written to it and every other field
as before; an event leaves its record, its vectors and nothing else; and frames compose. -/

set_option Elab.async false

namespace Sys2Proof.Machine

open Sys2Proof.Safety

/-! ### Registers -/

theorem State.regs_wr {s : State} (f : Field) (i v : Nat) (h : tabWf 0 s.regs = true) : tabWf 0 (s.wr f i v).regs = true :=
  tabWf_tabSet h

/-- A field reads what was last written to it, cut to its width. -/
theorem State.rd_wr_self {s : State} (f : Field) (i v : Nat) (h : tabWf 0 s.regs = true) :
    (s.wr f i v).rd f i = v % 2 ^ f.width := by
  unfold State.rd State.wr
  rw [tabGet_tabSet h, if_pos rfl, Nat.xor_assoc, Nat.xor_self, Nat.xor_zero]

/-- A write changes no other field. -/
theorem State.rd_wr_ne {s : State} (f : Field) (i v : Nat) (g : Field) (j : Nat) (h : tabWf 0 s.regs = true)
    (hk : regKey g j ≠ regKey f i) : (s.wr f i v).rd g j = s.rd g j := by
  unfold State.rd State.wr
  rw [tabGet_tabSet h, if_neg hk]

/-- Two fields of the map with units below 8,192 lie apart. -/
theorem regKey_ne {f g : Field} {i j : Nat} (hi : i < 8192) (hj : j < 8192) (h : g.addr * 32 + g.lo ≠ f.addr * 32 + f.lo) :
    regKey g j ≠ regKey f i := by
  unfold regKey; omega

theorem regKey_unit {f : Field} {i j : Nat} (h : j ≠ i) : regKey f j ≠ regKey f i := by
  unfold regKey; omega

/-- A record update that keeps the register store keeps what every field reads. -/
@[simp] theorem State.rd_mk (u : State) pending' wire' free' serial' clk' epo' pts' evq' dr' host' eth' conds' jtag' arms' cells' lanes' units' drv' cal' fab' ord' adc' red' saf' cfg' pwr' bs' arb' (f : Field) (i : Nat) :
    (State.mk pending' wire' free' serial' u.regs clk' epo' pts' evq' dr' host' eth' conds' jtag' arms' cells' lanes' units' drv' cal' fab' ord' adc' red' saf' cfg' pwr' bs' arb').rd f i = u.rd f i := rfl

/-! ### Frames -/

theorem regsBut_refl (l : List (Field × Nat)) (s : State) : RegsBut l s s := fun _ _ _ => rfl

theorem regsBut_trans {l : List (Field × Nat)} {s t u : State} (h : RegsBut l s t) (h' : RegsBut l t u) : RegsBut l s u :=
  fun f i hk => (h' f i hk).trans (h f i hk)

theorem regsBut_mono {l m : List (Field × Nat)} {s t : State} (hl : ∀ p ∈ l, p ∈ m) (h : RegsBut l s t) : RegsBut m s t := by
  intro f i hk
  refine h f i (fun hm => hk ?_)
  obtain ⟨p, hp, hq⟩ := List.mem_map.mp hm
  exact List.mem_map.mpr ⟨p, hl p hp, hq⟩

theorem regsBut_of_regs {l : List (Field × Nat)} {s t : State} (h : t.regs = s.regs) : RegsBut l s t := by
  intro f i _
  unfold State.rd; rw [h]

theorem regsBut_mk {l : List (Field × Nat)} {s u : State} {pending' wire' free' serial' clk' epo' pts' evq' dr' host' eth' conds' jtag' arms' cells' lanes' units' drv' cal' fab' ord' adc' red' saf' cfg' pwr' bs' arb'} (h : RegsBut l s u) :
    RegsBut l s (State.mk pending' wire' free' serial' u.regs clk' epo' pts' evq' dr' host' eth' conds' jtag' arms' cells' lanes' units' drv' cal' fab' ord' adc' red' saf' cfg' pwr' bs' arb') := h

theorem regsBut_wr {l : List (Field × Nat)} {s t : State} {f : Field} {i v : Nat} (hw : tabWf 0 t.regs = true) (hl : (f, i) ∈ l)
    (h : RegsBut l s t) : RegsBut l s (t.wr f i v) := by
  intro g j hk
  refine (State.rd_wr_ne f i v g j hw (fun he => hk ?_)).trans (h g j hk)
  exact List.mem_map.mpr ⟨(f, i), hl, he.symm⟩

theorem State.regs_count {s : State} (f : Field) (i : Nat) (h : tabWf 0 s.regs = true) : tabWf 0 (s.count f i).regs = true :=
  tabWf_tabSet h

theorem regsBut_count {l : List (Field × Nat)} {s t : State} {f : Field} {i : Nat} (hw : tabWf 0 t.regs = true) (hl : (f, i) ∈ l)
    (h : RegsBut l s t) : RegsBut l s (t.count f i) := regsBut_wr hw hl h

/-- A counter goes up by one and stays at its largest value (R7). -/
theorem State.rd_count_self {s : State} (f : Field) (i : Nat) (h : tabWf 0 s.regs = true) :
    (s.count f i).rd f i = min (s.rd f i + 1) (2 ^ f.width - 1) := by
  unfold State.count State.add
  rw [State.rd_wr_self f i _ h]
  apply Nat.mod_eq_of_lt
  have : 0 < 2 ^ f.width := Nat.two_pow_pos f.width
  omega

theorem State.rd_count_ne {s : State} (f : Field) (i : Nat) (g : Field) (j : Nat) (h : tabWf 0 s.regs = true)
    (hk : regKey g j ≠ regKey f i) : (s.count f i).rd g j = s.rd g j := State.rd_wr_ne f i _ g j h hk

theorem only_refl (l : List Part) (s : State) : Only l s s := by
  intro p _; cases p <;> rfl

theorem only_mono {l m : List Part} {s t : State} (hl : ∀ p ∈ l, p ∈ m) (h : Only l s t) : Only m s t :=
  fun p hp => h p (fun hq => hp (hl p hq))

theorem same_trans {p : Part} {s t u : State} (h : p.same s t) (h' : p.same t u) : p.same s u := by
  cases p <;> exact Eq.trans h' h

theorem only_trans {l : List Part} {s t u : State} (h : Only l s t) (h' : Only l t u) : Only l s u :=
  fun p hp => same_trans (h p hp) (h' p hp)

/-- The bit of a part in the masks of Laws/Keeps.lean. -/
def Part.bitNo : Part → Nat
  | .pending => 0 | .wire => 1 | .free => 2 | .serial => 3 | .regs => 4 | .clk => 5 | .epo => 6 | .pts => 7 | .evq => 8 | .dr => 9
  | .host => 10 | .eth => 11 | .conds => 12 | .jtag => 13 | .arms => 14 | .cells => 15 | .lanes => 16 | .units => 17 | .drv => 18
  | .cal => 19 | .fab => 20 | .ord => 21 | .adc => 22 | .red => 23 | .saf => 24 | .cfg => 25 | .pwr => 26 | .bs => 27
  | .arb => 33

def allParts : List Part :=
  [.pending, .wire, .free, .serial, .regs, .clk, .epo, .pts, .evq, .dr, .host, .eth, .conds, .jtag, .arms, .cells, .lanes, .units,
   .drv, .cal, .fab, .ord, .adc, .red, .saf, .cfg, .pwr, .bs, .arb]

/-- What a mask keeps, said of parts. -/
theorem Keeps.only {M : Nat} {l : List Part} {s t : State} (h : Keeps M s t)
    (hl : (allParts.all (fun p => l.contains p || p == .pending || p == .serial || !M.testBit (Part.bitNo p))) = true) :
    Only l s t := by
  have hb : ∀ p : Part, p ∉ l → p ≠ .pending → p ≠ .serial → M.testBit (Part.bitNo p) = false := by
    intro p hp h1 h2
    have := List.all_eq_true.mp hl p (by cases p <;> decide)
    simpa [hp, h1, h2] using this
  intro p hp
  cases p with
  | pending => exact h.pending
  | serial => exact h.serial
  | wire => exact h.sent.get (hb _ hp (by decide) (by decide))
  | free => exact h.drawn.get (hb _ hp (by decide) (by decide))
  | regs => exact h.regs.get (hb _ hp (by decide) (by decide))
  | clk => exact h.clk.get (hb _ hp (by decide) (by decide))
  | epo => exact h.epo.get (hb _ hp (by decide) (by decide))
  | pts => exact h.pts.get (hb _ hp (by decide) (by decide))
  | evq => exact h.evq.get (hb _ hp (by decide) (by decide))
  | dr => exact h.dr.get (hb _ hp (by decide) (by decide))
  | host => exact h.host.get (hb _ hp (by decide) (by decide))
  | eth => exact h.eth.get (hb _ hp (by decide) (by decide))
  | conds => exact h.conds.get (hb _ hp (by decide) (by decide))
  | jtag => exact h.jtag.get (hb _ hp (by decide) (by decide))
  | arms => exact h.arms.get (hb _ hp (by decide) (by decide))
  | cells => exact h.cells.get (hb _ hp (by decide) (by decide))
  | lanes => exact h.lanes.get (hb _ hp (by decide) (by decide))
  | units => exact h.units.get (hb _ hp (by decide) (by decide))
  | drv => exact h.drv.get (hb _ hp (by decide) (by decide))
  | cal => exact h.cal.get (hb _ hp (by decide) (by decide))
  | fab => exact h.fab.get (hb _ hp (by decide) (by decide))
  | ord => exact h.ord.get (hb _ hp (by decide) (by decide))
  | adc => exact h.adc.get (hb _ hp (by decide) (by decide))
  | red => exact h.red.get (hb _ hp (by decide) (by decide))
  | saf => exact h.saf.get (hb _ hp (by decide) (by decide))
  | cfg => exact h.cfg.get (hb _ hp (by decide) (by decide))
  | pwr => exact h.pwr.get (hb _ hp (by decide) (by decide))
  | bs => exact h.bs.get (hb _ hp (by decide) (by decide))
  | arb => exact h.arb.get (hb _ hp (by decide) (by decide))

/-! ### The mirror (R389) -/

@[simp] theorem State.rd_mirrorOf {s t : State} {f : Field} {i : Nat} : (s.mirrorOf t).rd f i = t.rd f i := by
  unfold State.mirrorOf State.mirrored State.sendMirror
  split
  · split <;> rfl
  · rfl

theorem regsBut_mirrorOf {l : List (Field × Nat)} {r s t : State} (h : RegsBut l r t) : RegsBut l r (s.mirrorOf t) :=
  fun f i hk => State.rd_mirrorOf.trans (h f i hk)

/-! ### Events -/

theorem State.regs_signal {s : State} (v : Nat) (h : tabWf 0 s.regs = true) : tabWf 0 (s.signal v).regs = true := by
  have key : ∀ u : State, tabWf 0 u.regs = true → tabWf 0 (if u.vectorEnabled v then u.sendVector v else u).regs = true := by
    intro u hu
    unfold State.sendVector
    split <;> (try split) <;> exact hu
  unfold State.signal
  apply key
  split <;> exact State.regs_wr _ _ _ h

theorem regsBut_signal {s : State} (v : Nat) (h : tabWf 0 s.regs = true) : RegsBut eventRegs s (s.signal v) := by
  have key : ∀ u, RegsBut eventRegs s u → RegsBut eventRegs s (if u.vectorEnabled v then u.sendVector v else u) := by
    intro u hu
    refine regsBut_trans hu (regsBut_of_regs ?_)
    unfold State.sendVector
    split <;> (try split) <;> rfl
  unfold State.signal
  apply key
  split <;> exact regsBut_wr h (by simp [eventRegs]) (regsBut_refl _ _)

@[simp] theorem State.signal_evq' (s : State) (v : Nat) : (s.signal v).evq = s.evq := State.signal_evq s v

theorem State.now_of_clk {s t : State} (h : t.clk = s.clk) : t.now = s.now := by unfold State.now; rw [h]

theorem regsBut_queueEvent {s : State} (e : Event) (h : tabWf 0 s.regs = true) : RegsBut eventRegs s (s.queueEvent e) := by
  unfold State.queueEvent
  split
  · exact regsBut_of_regs rfl
  · exact regsBut_trans (regsBut_wr (v := min (s.rd Reg.EPO_EV_LOST.count 0 + 1) (2 ^ Reg.EPO_EV_LOST.count.width - 1)) h
      (by simp [eventRegs]) (regsBut_refl _ s)) (regsBut_of_regs rfl)

theorem regKey_epoEvMask : ∀ p ∈ eventRegs.map (fun p => regKey p.1 p.2), regKey Reg.EPO_EV_MASK.range_en 0 ≠ p := by decide

/-- Raising an event: its record (R40, R44, R45). -/
theorem State.raise_reports {s : State} (h : tabWf 0 s.regs = true) (code inst data : Nat) (hc : code ≠ 0x010) :
    Reports s (s.raise code inst data) code inst data := by
  have hmask : ∀ u, RegsBut eventRegs s u → u.bitAt Reg.EPO_EV_MASK.range_en 0 (code / 256)
      = s.bitAt Reg.EPO_EV_MASK.range_en 0 (code / 256) := by
    intro u hu
    unfold State.bitAt
    rw [hu Reg.EPO_EV_MASK.range_en 0 (fun hm => regKey_epoEvMask _ hm rfl)]
  unfold State.raise State.raiseAt State.raiseIn Reports
  simp only [hc, false_and, false_or, if_false]
  cases eventVector code with
  | none =>
    dsimp only
    split
    · unfold State.queueEvent
      split <;> simp_all [State.epoch]
    · rfl
  | some v =>
    dsimp only
    rw [hmask _ (regsBut_signal v h)]
    split
    · unfold State.queueEvent
      rw [State.signal_evq]
      split <;> simp_all [State.epoch]
    · exact State.signal_evq s v

/-- The parts other than the registers that a raised event leaves alone come from Laws/State.lean; this is all of them at once. -/
theorem State.raise_only (s : State) (code inst data : Nat) : Only eventParts s (s.raise code inst data) :=
  (State.raise_keeps (M := 0x512) (by decide) (.refl s)).only (by decide)

/-- What raising an event does to the register store. -/
theorem raise_regs {s : State} (h : tabWf 0 s.regs = true) (code inst data : Nat) :
    RegsBut eventRegs s (s.raise code inst data) ∧ tabWf 0 (s.raise code inst data).regs = true := by
  have hsig : ∀ (u : State) v, RegsBut eventRegs s u ∧ tabWf 0 u.regs = true →
      RegsBut eventRegs s (u.signal v) ∧ tabWf 0 (u.signal v).regs = true := fun u v hu =>
    ⟨regsBut_trans hu.1 (regsBut_signal v hu.2), State.regs_signal v hu.2⟩
  have hq : ∀ (u : State) e, RegsBut eventRegs s u ∧ tabWf 0 u.regs = true →
      RegsBut eventRegs s (u.queueEvent e) ∧ tabWf 0 (u.queueEvent e).regs = true := fun u e hu =>
    ⟨regsBut_trans hu.1 (regsBut_queueEvent e hu.2), by
      unfold State.queueEvent
      split
      · exact hu.2
      · exact State.regs_wr _ _ _ hu.2⟩
  have hend : ∀ u e, RegsBut eventRegs s u ∧ tabWf 0 u.regs = true → ∀ (c d : Prop) [Decidable c] [Decidable d],
      RegsBut eventRegs s (if d then (if c then u.signal 2 else u).queueEvent e else if c then u.signal 2 else u) ∧
        tabWf 0 (if d then (if c then u.signal 2 else u).queueEvent e else if c then u.signal 2 else u).regs = true := by
    intro u e hu c d _ _
    have hc : RegsBut eventRegs s (if c then u.signal 2 else u) ∧ tabWf 0 (if c then u.signal 2 else u).regs = true := by
      split
      · exact hsig _ _ hu
      · exact hu
    split
    · exact hq _ _ hc
    · exact hc
  unfold State.raise State.raiseAt State.raiseIn
  cases eventVector code with
  | none => exact hend s _ ⟨regsBut_refl _ _, h⟩ _ _
  | some v => exact hend _ _ (hsig s v ⟨regsBut_refl _ _, h⟩) _ _

theorem regsBut_raise {s : State} (h : tabWf 0 s.regs = true) (code inst data : Nat) :
    RegsBut eventRegs s (s.raise code inst data) := (raise_regs h code inst data).1

theorem State.regs_raise {s : State} (code inst data : Nat) (h : tabWf 0 s.regs = true) :
    tabWf 0 (s.raise code inst data).regs = true := (raise_regs h code inst data).2

/-- An event more: a frame that has room for the event registers still holds. -/
theorem regsBut_raised {l : List (Field × Nat)} {s t : State} {c i d : Nat} (hw : tabWf 0 t.regs = true)
    (hl : ∀ p ∈ eventRegs, p ∈ l) (h : RegsBut l s t) : RegsBut l s (t.raise c i d) :=
  regsBut_trans h (regsBut_mono hl (regsBut_raise hw c i d))

theorem State.signal_mem (s : State) (v : Nat) : (s.signal v).host.mem = s.host.mem := by
  have key : ∀ u : State, (if u.vectorEnabled v then u.sendVector v else u).host.mem = u.host.mem := by
    intro u
    unfold State.sendVector
    split <;> (try split) <;> rfl
  unfold State.signal
  refine (key _).trans ?_
  split <;> rfl

/-- An event changes nothing of host memory: its record waits on the die. -/
theorem State.raise_mem (s : State) (code inst data : Nat) : (s.raise code inst data).host.mem = s.host.mem := by
  have hq : ∀ (u : State) e, (u.queueEvent e).host.mem = u.host.mem := by
    intro u e; unfold State.queueEvent; split <;> rfl
  have hend : ∀ (u : State) e, u.host.mem = s.host.mem → ∀ (c d : Prop) [Decidable c] [Decidable d],
      (if d then (if c then u.signal 2 else u).queueEvent e else if c then u.signal 2 else u).host.mem = s.host.mem := by
    intro u e hu c d _ _
    have hc : (if c then u.signal 2 else u).host.mem = s.host.mem := by
      split
      · rw [State.signal_mem, hu]
      · exact hu
    split
    · rw [hq, hc]
    · exact hc
  unfold State.raise State.raiseAt State.raiseIn
  cases eventVector code with
  | none => exact hend s _ rfl _ _
  | some v => exact hend _ _ (State.signal_mem s v) _ _

/-- A field that no event changes reads as before an event. -/
theorem State.rd_raise {s : State} (h : tabWf 0 s.regs = true) (code inst data : Nat) {f : Field} {i : Nat}
    (hf : regKey f i ∉ eventRegs.map (fun p => regKey p.1 p.2)) : (s.raise code inst data).rd f i = s.rd f i :=
  regsBut_raise h code inst data f i hf

/-- An event after other changes: the record is that of the state the command found, if queue, epoch, clock and mask are still its. -/
theorem reports_raise {s u : State} {code inst data : Nat} (hc : code ≠ 0x010) (hw : tabWf 0 u.regs = true) (he : u.evq = s.evq)
    (hk : u.epo.k = s.epo.k) (ht : u.clk = s.clk)
    (hm : u.rd Reg.EPO_EV_MASK.range_en 0 = s.rd Reg.EPO_EV_MASK.range_en 0) :
    Reports s (u.raise code inst data) code inst data := by
  have h := State.raise_reports hw code inst data hc
  unfold Reports State.bitAt at *
  rw [he, hk, hm, State.now_of_clk ht] at h
  exact h

/-- A change that leaves the event queue alone comes after an event. -/
theorem reports_then {s t u : State} {code inst data : Nat} (h : Reports s t code inst data) (he : u.evq = t.evq) :
    Reports s u code inst data := by
  unfold Reports at *
  rw [he, h]

end Sys2Proof.Machine
end

