-- ==== Sys2Proof/Tests/Slice0.lean ====
section
/-! SUPPORT. Tests of the model: terms that no sender can form, worked examples of the manual, and for every statement with hypotheses
a theorem that shows states and operands that meet them, clause by clause. -/

set_option Elab.async false
set_option linter.unusedVariables false
set_option maxRecDepth 10000
namespace Sys2Proof.Tests
open Sys2Proof Sys2Proof.Machine Sys2Proof.Safety

/-- A check of `Sound` that evaluates. -/
def soundB (s : State) : Bool :=
  tabWf 0 s.regs && decide (PointsOk s.pts) && tabWf 0 s.host.mem && decide (StagingOk s.epo) && decide (s.evq.buf.length ≤ 1024)
    && tabWf ArmRt.clear s.arms && tabWf CellRt.clear s.cells && tabWf LaneRt.clear s.lanes && tabWf UnitRt.clear s.units
    && tabWf DrvRt.clear s.drv && tabWf Eth.reset s.eth && tabWf Cond.clear s.conds && decide (FabricOk s.fab)
    && decide (OrdersOk s.ord) && decide (MeasureOk s.adc) && decide (SafetyOk s.saf) && tabWf KeySlot.blank s.cfg.keys
    && decide (VectorsOk s.host) && tabWf Bank.idle s.arb.banks

theorem sound_of {s : State} (h : soundB s = true) : Sound s := by
  simp only [soundB, Bool.and_eq_true, decide_eq_true_eq] at h
  obtain ⟨⟨⟨⟨⟨⟨⟨⟨⟨⟨⟨⟨⟨⟨⟨⟨⟨⟨a, b⟩, c⟩, d⟩, e⟩, f⟩, g⟩, h⟩, i⟩, j⟩, k⟩, l⟩, m⟩, n⟩, o⟩, p⟩, q⟩, r⟩, u⟩ := h
  exact ⟨a, b, c, d, e, f, g, h, i, j, k, l, m, n, o, p, q, r, u⟩


/-! ### Ill-formed terms are refused (Sys2Proof.WellFormed): one for each check -/

theorem test_illformed_stagedWrite :
    Instr.wellFormed (.stagedWrite (.register (2 ^ 25) 0)) = false ∧ Instr.wellFormed (.stagedWrite (.register 0 (2 ^ 32))) = false := by
  decide

theorem test_illformed_stagedPoints :
    Instr.wellFormed (.stagedWrite (.points (2 ^ 25) 8 true [0])) = false
      ∧ Instr.wellFormed (.stagedWrite (.points 0x100000 4097 true [0])) = false
      ∧ Instr.wellFormed (.stagedWrite (.points 0x100000 8 true [2 ^ 64])) = false := by
  decide

theorem test_illformed_pointWindowRead :
    Instr.wellFormed (.pointWindowRead (2 ^ 16) 0x100000 8 [] 0) = false
      ∧ Instr.wellFormed (.pointWindowRead 0 (2 ^ 25) 8 [] 0) = false
      ∧ Instr.wellFormed (.pointWindowRead 0 0x100000 4097 [] 0) = false := by
  decide

theorem test_illformed_extendedPointWrite :
    Instr.wellFormed (.extendedPointWrite (2 ^ 25) 8 true [0]) = false
      ∧ Instr.wellFormed (.extendedPointWrite 0x800000 4097 true [0]) = false
      ∧ Instr.wellFormed (.extendedPointWrite 0x800000 8 true [2 ^ 64]) = false := by
  decide

theorem test_illformed_reads :
    Instr.wellFormed (.rcRead (2 ^ 16) 0 4 0) = false ∧ Instr.wellFormed (.rcRead 0 (2 ^ 25) 4 0) = false
      ∧ Instr.wellFormed (.rcRead 0 0 4097 0) = false ∧ Instr.wellFormed (.latchingRead (2 ^ 16) 0 4) = false
      ∧ Instr.wellFormed (.latchingRead 0 (2 ^ 25) 4) = false ∧ Instr.wellFormed (.latchingRead 0 0 4097) = false
      ∧ Instr.wellFormed (.ueAddrRead (2 ^ 16)) = false := by
  decide

theorem test_illformed_registerWrite :
    Instr.wellFormed (.registerWrite (2 ^ 25) 4 15 0 0) = false ∧ Instr.wellFormed (.registerWrite 0 4097 15 0 0) = false
      ∧ Instr.wellFormed (.registerWrite 0 4 15 (2 ^ 64) 0) = false := by
  decide

theorem test_illformed_wordWrites :
    Instr.wellFormed (.evqTailWrite (2 ^ 32)) = false ∧ Instr.wellFormed (.evqConfigWrite .size (2 ^ 32)) = false
      ∧ Instr.wellFormed (.retireGo 0 (2 ^ 32)) = false ∧ Instr.wellFormed (.eqWrite 0 (2 ^ 32)) = false
      ∧ Instr.wellFormed (.eyeScanStart 0 (2 ^ 32)) = false ∧ Instr.wellFormed (.rampHaltRequest (2 ^ 32)) = false
      ∧ Instr.wellFormed (.ordInCfgWrite 0 (2 ^ 32)) = false ∧ Instr.wellFormed (.rateWrite (2 ^ 32)) = false := by
  decide

theorem test_illformed_tableAndFlash :
    Instr.wellFormed (.tableDataWrite true (2 ^ 16) 0) = false ∧ Instr.wellFormed (.tableDataWrite true 0 (2 ^ 32)) = false
      ∧ Instr.wellFormed (.flashDataAccess true (2 ^ 16) 0) = false ∧ Instr.wellFormed (.flashDataAccess true 0 (2 ^ 32)) = false
      ∧ Instr.wellFormed (.keyDataWrite (2 ^ 32)) = false ∧ Instr.wellFormed (.domainRequest (2 ^ 32)) = false := by
  decide

theorem test_illformed_safety :
    Instr.wellFormed (.safUnlock (2 ^ 32)) = false ∧ Instr.wellFormed (.safCmdStop (2 ^ 16)) = false
      ∧ Instr.wellFormed (.safCmdBlock (2 ^ 16)) = false ∧ Instr.wellFormed (.safCmdRelease (2 ^ 16)) = false
      ∧ Instr.wellFormed (.safCmdClear (2 ^ 16)) = false := by
  decide

/-- A ring message of a type, term and sequence. -/
def note (type : Fin 8) (term seq : Nat) : RingMsg := ⟨0, [], 1, 2, type, false, 3, term, seq⟩

theorem test_illformed_ringHeader :
    msgFits (note 1 0 0) 0 = false ∧ msgFits (note 0 (2 ^ 28) 0) 0 = false ∧ msgFits (note 0 0 (2 ^ 16)) 0 = false
      ∧ msgFits (note 0 (2 ^ 28 - 1) (2 ^ 16 - 1)) 0 = true ∧ msgFits (note 7 0 0) 0 = true := by
  decide

theorem test_illformed_ringRows (image : CritImage) (record : BindRecord) :
    Instr.wellFormed (.ringHeartbeat (note 1 0 0) 0 0 0 0 0) = false ∧ Instr.wellFormed (.ckptSegment (note 0 0 0) 0 0 [] 0 image) = false
      ∧ Instr.wellFormed (.slowBench (note 0 0 0) 0 0 []) = false ∧ Instr.wellFormed (.bindSegment (note 0 0 0) record) = false
      ∧ Instr.wellFormed (.mirrorRun (note 0 0 0) 0 []) = false ∧ Instr.wellFormed (.handoverRequest (note 0 0 0)) = false
      ∧ Instr.wellFormed (.handoverReady (note 0 0 0)) = false ∧ Instr.wellFormed (.handoverGrant (note 0 0 0) 0) = false
      ∧ Instr.wellFormed (.handoverAbort (note 0 0 0) 0) = false :=
  ⟨rfl, rfl, rfl, rfl, rfl, rfl, rfl, rfl, rfl⟩

/-- A row refuses a message of another type by name. -/
theorem test_refuses_other_type : exec (.handoverRequest (note 0 0 0)) State.reset = .refused .illFormed := by rfl

/-! ### The manual's own examples -/

/-- R195: the CRC-8 of the ASCII string 123456789 is 0xDF. -/
theorem test_crc8 : crc8 [0x31, 0x32, 0x33, 0x34, 0x35, 0x36, 0x37, 0x38, 0x39] = 0xDF := by decide

/-- R196: the CRC-32C of the same string is 0xE306_9283. -/
theorem test_crc32c : crc32c [0x31, 0x32, 0x33, 0x34, 0x35, 0x36, 0x37, 0x38, 0x39] = 0xE3069283 := by decide +kernel

/-- R379: the CRC-64 of the same string is 0x6C40_DF5F_0B49_7347. -/
theorem test_crc64 : crc64 [0x31, 0x32, 0x33, 0x34, 0x35, 0x36, 0x37, 0x38, 0x39] = 0x6C40DF5F0B497347 := by decide +kernel

/-- The example of chapter 2 (R78): u = 2,400 V, v0 = 653,950 V, v1 = 654,040 V, e = 12,800, n_prev = 272: one step (7,111, 273). -/
theorem test_nearest_level : armSteps 0x45160000 0x491FA7E0 0x491FAD80 12800 true 272 (-560) 560 = [(7111, 273)] := by decide +kernel

/-- The example after R114: lo = 1,600 V, hi = 2,800 V; a cell at 2,401.20 V has bucket 2,734. -/
theorem test_bucket : rawBucket 0x44C80000 0x452F0000 0x45161333 = 2734 := by decide +kernel

/-- The example after R88: P = 5,120,000, N = 1, one period has passed at O + 5,120,000; a target at that instant takes reload 1,
and the next epoch's target takes reload 2. -/
theorem test_reload : Grid.reloadFrom ⟨0, 0, 1, 5120000⟩ 5120000 = 1 ∧ Grid.reloadFrom ⟨0, 0, 1, 5120000⟩ 5132800 = 2 := by decide

/-- The example of a SET in chapter 5: slot 0x2E, opcode 1, bits 0001, edge 7,111, dead 34, sequence 0x5C give 2E11_001B_C722_5Cxx. -/
theorem test_set_payload : commandBlock 3 0 0x2E 1 1 7111 34 0x5C / 256 = 0x2E11001BC7225C := by decide

/-- The example of chapter 1 (R53): life_late_reports, point 29, of cell 6,719 is in bench 53, at BAR0 address 0x00B4_7EE8. -/
theorem test_bench : benchOf 6719 29 = 53 ∧ pointAt 0x00B47EE8 = some (.cell 6719 29) := by decide

/-- The example after R66: with 24 channels the recorder holds 161,319 samples. -/
theorem test_recorder_depth : drDepth 24 = 161319 := by decide

/-- The example after R312: 50 Hz is the frequency word 0x000C_9539_B888. -/
theorem test_freq_word : freqWord 0x42480000 = 0x000C9539B888 := by decide +kernel

/-- The example after R331: at OSR = 800 with the FIR on the group delay is 139.9 µs (in core cycles of 2.5 ns). -/
theorem test_ds_delay : dsDelay 800 true = 55950 := by decide


/-! ### Witnesses: the machine as a whole -/

/-- A machine out of reset, with no bit-stream. -/
def up : State := { State.reset with pwr := { State.reset.pwr with inReset := false } }

/-- Engine 5 asks for a burst of four words of bank 3, and engine 6 for one of one word. -/
def ask5 : ArbReq := ⟨5, 3, 4, 0, none⟩
def ask6 : ArbReq := ⟨6, 3, 1, 0, none⟩

/-- A machine whose arbiter has these requests and banks. -/
def asking (reqs : List ArbReq) (banks : List (Nat × Bank)) : State :=
  { up with arb := { up.arb with reqs := reqs, banks := banks } }

/-- Bank 3 with a chosen winner. -/
def won : Bank := { Bank.idle with winner := some ask5 }

theorem witness_IdleStepCounts :
    (∃ s : State, s.pending = [])
      ∧ (∃ (s : State), ∃ (r : ArbReq), ∃ (q : ArbReq), ∃ (x : Bank), s.pending = [] ∧ s.arb.at_ = s.clk.count
        ∧ s.clk.count + 1 < 2 ^ 64 ∧ r.bank < 32 ∧ r.since ≤ s.clk.count ∧ q.bank = r.bank ∧ NothingDue s ∧ s.arb.reqs = [r] ∧ s.arb.banks = [])
      ∧ (∃ (s : State), ∃ (r : ArbReq), ∃ (q : ArbReq), ∃ (x : Bank), s.pending = [] ∧ s.arb.at_ = s.clk.count
        ∧ s.clk.count + 1 < 2 ^ 64 ∧ r.bank < 32 ∧ r.since ≤ s.clk.count ∧ q.bank = r.bank
        ∧ NothingDue s ∧ (s.arb.reqs = [r, q] ∨ s.arb.reqs = [q, r]) ∧ s.arb.banks = [(r.bank, x)] ∧ x.winner = none ∧ x.until_ ≤ s.clk.count + 1
        ∧ (s.arbClass r.who < s.arbClass q.who ∨ s.arbClass r.who = s.arbClass q.who
        ∧ arbDistance (x.turn.getD (s.arbClass r.who) 87) r.who < arbDistance (x.turn.getD (s.arbClass r.who) 87) q.who))
      ∧ (∃ (s : State), ∃ (r : ArbReq), ∃ (q : ArbReq), ∃ (x : Bank), s.pending = [] ∧ s.arb.at_ = s.clk.count
        ∧ s.clk.count + 1 < 2 ^ 64 ∧ r.bank < 32 ∧ r.since ≤ s.clk.count ∧ q.bank = r.bank ∧ NothingDue s ∧ s.arb.reqs = [r]
        ∧ s.arb.banks = [(r.bank, x)] ∧ x.winner = some r)
      ∧ (∃ (s : State), ∃ (r : ArbReq), ∃ (q : ArbReq), ∃ (x : Bank), s.pending = [] ∧ s.arb.at_ = s.clk.count
        ∧ s.clk.count + 1 < 2 ^ 64 ∧ r.bank < 32 ∧ r.since ≤ s.clk.count ∧ q.bank = r.bank ∧ NothingDue s ∧ s.arb.reqs = []
        ∧ s.arb.banks = [(r.bank, x)] ∧ x.winner = some r) :=
  ⟨⟨State.reset, rfl⟩,
    ⟨asking [ask5] [], ask5, ask6, Bank.idle, rfl, rfl, by decide, by decide, by decide, rfl, ⟨rfl, fun _ => ⟨rfl, rfl⟩⟩, rfl, rfl⟩,
    ⟨asking [ask5, ask6] [(3, Bank.idle)], ask5, ask6, Bank.idle, rfl, rfl, by decide, by decide, by decide, rfl,
      ⟨rfl, fun _ => ⟨rfl, rfl⟩⟩, by decide +kernel⟩,
    ⟨asking [ask5] [(3, won)], ask5, ask6, won, rfl, rfl, by decide, by decide, by decide, rfl, ⟨rfl, fun _ => ⟨rfl, rfl⟩⟩, by decide +kernel⟩,
    ⟨asking [] [(3, won)], ask5, ask6, won, rfl, rfl, by decide, by decide, by decide, rfl, ⟨rfl, fun _ => ⟨rfl, rfl⟩⟩, by decide +kernel⟩⟩

theorem witness_StepKeepsSound : ∃ s t : State, Sound s ∧ step s = .next t :=
  ⟨up, up.tick, sound_of (by decide +kernel), rfl⟩

theorem witness_EveryCommandCompletes : ∃ (c : Instr) (_ : State), c.wellFormed = true := ⟨.seam [], up, rfl⟩

/-- R480: a fence marker whose vector has fired at its generation does not fire it again at its ring write. -/
theorem test_marker_fires_once :
    let e : Event := ⟨0x010, 0, 0, 7, 0, 65537⟩
    let told : State := { up with evq := { up.evq with told := [(7, 65537)] } }
    ((told.writeRecord e).bitAt Reg.GLB_IRQ_STAT0.cause 0 2, (up.writeRecord e).bitAt Reg.GLB_IRQ_STAT0.cause 0 2)
      = (false, true) := by decide +kernel

/-- A machine with a key in slot 2 that has been revoked. -/
def keyed : State := { up with cfg := { up.cfg with keys := [(2, ⟨some 5, true⟩)] } }

theorem witness_KeySlotsAreFuses :
    (∃ s t : State, Sound s ∧ step s = .next t ∧ ∃ n, (s.keySlot n).hash.isSome = true)
      ∧ (∃ s t : State, Sound s ∧ step s = .next t ∧ ∃ n, (s.keySlot n).revoked = true)
      ∧ (∃ s t : State, Sound s ∧ step s = .next t
          ∧ ∀ n : Fin 8, s.pending.head? ≠ some (.keyProgram n) ∧ s.pending.head? ≠ some (.keyRevoke n)) :=
  ⟨⟨keyed, keyed.tick, sound_of (by decide +kernel), rfl, 2, by decide +kernel⟩,
    ⟨keyed, keyed.tick, sound_of (by decide +kernel), rfl, 2, by decide +kernel⟩,
    ⟨keyed, keyed.tick, sound_of (by decide +kernel), rfl, fun _ => ⟨nofun, nofun⟩⟩⟩

theorem witness_FlashChangesAtDone :
    ∃ s t : State, step s = .next t ∧ ∀ b, s.pending.head? ≠ some (.flashCommandDone b) :=
  ⟨up, up.tick, rfl, fun _ => nofun⟩

theorem witness_DeafHostWritesDoNothing : ∃ (c : Instr) (s : State), s.deaf = true ∧ hostWrite c = true :=
  ⟨.fenceNamed, State.reset, by decide +kernel, rfl⟩

/-! ### A small station for the witnesses -/

/-- 1.0, 2.0 and 1,000.0 in binary32. -/
def fOne : Nat := 0x3F800000

def fTwo : Nat := 0x40000000

def fBig : Nat := 0x447A0000

/-- An arm of 2,400 V nominal cells, adaptive dead time off. -/
def armE (a : Nat) : ArmEntry := ⟨a, fBig, 0x44160000, 0x44D00000, 0x41A00000, some fOne, 1, 0x4000 + a, 0x4100 + a, 10 + a, 2, 3, 0x3F,
  3200, a == 1, 500000, 0x42480000, 200000, 2000000, 1, 5, fOne, 0x3F733333⟩

/-- A cell of arm `a` on lane `l`, slot `sl`. -/
def cellE (c : Nat) (fb : Bool) (a l sl : Nat) : CellEntry := ⟨c, fb, fOne, some a, none, l, some sl, none, none⟩

/-- A lane on port `p`. -/
def laneE (l p : Nat) (b : Bond) (w : Nat) : LaneEntry := ⟨l, p, 4, 640, 20000, 0, b, w⟩

/-- A graph with one engine group. -/
def gr (g : Nat) (rt : Bool) (t : Trigger) (ops : List OpEntry) (edges : List EdgeEntry) (flow : Option Nat := none) : GraphEntry :=
  ⟨g, rt, t, 900, [0, 1, 2], true, flow, none, ops, edges⟩

/-- A host graph that writes station point 0x4200. -/
def g0 := gr 0 true .host [⟨0, .srcConst 0x3F800000⟩, ⟨1, .neg 1⟩, ⟨2, .snkPoint [(0x4200, true)]⟩] [⟨0,0,1,0⟩,⟨1,0,2,0⟩]

/-- A graph released at every seam. -/
def g1 := gr 1 true (.seam 1 0) [⟨3, .srcConst 5⟩, ⟨4, .snkPoint [(0x4201, false)]⟩] [⟨3,0,4,0⟩]

/-- A graph released by the reaction matrix. -/
def g2 := gr 2 false .reaction [⟨5, .srcConst 7⟩, ⟨6, .event 3⟩] [⟨5,0,6,0⟩]

/-- A graph released by carrier instants. -/
def g3 := gr 3 true (.carrier 0 0) [⟨7, .srcConst 7⟩, ⟨8, .snkQueue 0⟩] [⟨7,0,8,0⟩]

/-- Four small graphs. -/
def fab0 : Fabric := ⟨[g0, g1, g2, g3], [(0, 4)], [(0, 8)], [⟨0, [1, 2, 3], true, true⟩], []⟩

/-- One reaction per kind of target. -/
def rx0 : Reaction := ⟨[⟨8, 0, false, [.tripOut 0]⟩, ⟨9, 2, true, [.release 2]⟩, ⟨577, 0, true, [.prioBlock 0]⟩, ⟨578, 0, true,
  [.safReq 0]⟩, ⟨579, 0, true, [.drTrigger]⟩, ⟨216, 0, true, [.retire]⟩, ⟨580, 0, true, [.event]⟩], [(0, true)]⟩

/-- A ramp engine without a point operand. -/
def ramp0 : RampEntry := ⟨0, none, [0, fOne, fTwo, 0,0, fOne, fOne, fOne, fOne, 0xC47A0000, fBig, 0,0,0,0,0]⟩

/-- A free-running generator. -/
def gen0 : GenEntry := ⟨0, 2, 0, 0, false, none, none, some 0x4300, 1000, 0, 2 ^ 47, 10, 0, [0,0,0,0,0,0,0,0]⟩

/-- An order input. -/
def inp (i m : Nat) (_h : Bool) : InputEntry := ⟨i, m, 4, 2, 0x123, fOne, 0⟩

/-- A sequence entry. -/
def seq (i : Nat) : SeqEntry := ⟨i, 0, 1, false, 0, 0, 0⟩

/-- A converter core with two regular entries and an injected one. -/
def core0 : CoreEntry := ⟨0, [seq 0, seq 1], [seq 2], 0, 0, 0, none⟩

/-- A converter core with one entry. -/
def core1 : CoreEntry := ⟨1, [seq 8], [], 0, 0, 0, none⟩

/-- A sampled-value subscription. -/
def sub0 : SvEntry := ⟨0, 1, 0, 0x4000, [65, 66], 1, 1, 4000, [(fOne, some 0)], 3, false, true, none⟩

/-- Two cores and a subscription. -/
def meas0 : Meas := ⟨true, [(0, fOne, 0), (8, fTwo, 0)], [], [core0, core1], [sub0]⟩

/-- Two input pairs, a monitoring channel and three targets. -/
def saf0 : Machine.Safety := {
  digest := 77
  pairs := [⟨0, 1, 0, 1, 0, 5, 10, 3⟩, ⟨1, 2, 2, 3, 1, 5, 10, 0⟩]
  pchs := [⟨0, 1, 0, 1, 0, false, 0, 4, fTwo, fOne, 10, fOne, 0, fOne, 0⟩]
  targets := [⟨0, [0], 100, 10, some 0⟩, ⟨1, [2], 100, 10, none⟩, ⟨2, [], 100, 10, none⟩]
  reqs := [(0, 4, 0)]
  souts := [⟨0, 3, false⟩]
  tpWidth := 10
  tpPeriod := 100
  expiry := 0
  degWindow := 600
  base := 0x5000 }

/-- A drive channel. -/
def drv (c : Nat) (src : Bool) : DriveEntry := ⟨c, src, 1, 0, 0x4400, 0x4410, 0, c == 1, 50000, 1000, 25000, 100000, 64, false, 0, 0⟩

/-- A small bit-stream: two arms of two cells, two lanes, four graphs, three drive channels. -/
def bs0 : BitStream :=
  { BitStream.empty with
    cells := [cellE 0 false 0 0 0, cellE 1 true 0 0 1, cellE 2 false 1 2 0, cellE 3 false 1 2 1]
    arms := [armE 0, armE 1]
    lanes := [laneE 0 2 .none 1, laneE 2 2 .redundant 2]
    eq := [], laneSets := [(0, [0, 2])]
    drive := [drv 0 false, drv 1 false, drv 2 true]
    fabric := fab0, groups := [(0, fab0)], reaction := rx0
    orders := ⟨[ramp0], [gen0], [inp 0 0 false, inp 1 2 false, inp 2 3 true], []⟩
    meas := meas0, ring := some ⟨1, 2, 3⟩, safety := some saf0
    resources := [⟨9, 0x4800, .host⟩, ⟨9, 0x4801, .host⟩]
    retained := [0x4300] }

/-- Register fields written one after another. -/
def wrs (s : State) (l : List (Field × Nat × Nat)) : State := l.foldl (fun s x => s.wr x.1 x.2.1 x.2.2) s

/-- The small bit-stream running, ACTIVE, rank 1 of a pair, in epoch 10. -/
def base : State :=
  let s := { up with bs := bs0, cfg := { up.cfg with extent := (4096, 8192) } }
  let s := wrs s [(Reg.PWR_DOM_STAT.state, 0, 0xAAAAAA), (Reg.RED_STAT.strap, 0, 1), (Reg.RED_STAT.role, 0, 3),
  (Reg.RED_RING_CFG.address, 0, 1), (Reg.RED_RING_CFG.partner, 0, 2),
    (Reg.CFG_STAT.state, 0, 3), (Reg.EPO_EV_MASK.range_en, 0, 0xFFF), (Reg.RED_CLAIM.claim, 0, 2^28+5), (Reg.RED_TERM_SEEN.term, 0, 5),
  (Reg.PWR_SUPPLY_STAT.in_range, 0, 255), (Reg.GLB_STAT.master_off, 0, 0)]
  { s with epo := { s.epo with k := 10, begun := true, seam := 1000000 }, clk := { s.clk with count := 31250, off := 0 } }

/-- Commands carried out one after another. -/
def ex (s : State) (l : List Instr) : State := l.foldl (fun (s : State) c => match exec c s with | .next t => t | _ => s) s

/-- A unit that hands over. -/
def mirr (s : State) : State := { s with red := { s.red with mirroring := true, hand := .outgoing } }

/-! ### Coherent state -/

namespace Coherent

def fenced (s : State) (d : Nat) : State := ex (wrs s [(Reg.EPO_FENCE_TGT_LO.target_lo, 0,
    s.epo.k + d)]) [.stagedWrite (.points (0x100000 + 8*0x4800) 8 true [7]), .fenceNamed]
def fb := fenced base 2
def fb0 : State := { fb with epo := { fb.epo with k := 12 } }
def full4 := fenced (fenced (fenced (fenced base 1) 2) 3) 4
def pinned := ex (wrs base [(Reg.EPO_PIN_CTRL.route,0,1),(Reg.EPO_PIN_CTRL.hold,0,2)]) [.pin false]
def pin0 : State := { pinned with epo := { pinned.epo with pin := some ⟨9,0⟩ } }
def ringS := ex (wrs base [(Reg.EPO_CTRL.ev_enable,0,1),(Reg.EPO_EVQ_SIZE.log2_entries,0,8),(Reg.EPO_EVQ_BASE_LO.base_lo,0,3),(Reg.EPO_EVQ_BASE_HI.base_hi,0,1),(Reg.EPO_ECC_CTRL.ps_period,0,5),(Reg.EPO_ECC_CTRL.ce_event_thr,0,1),
    (Reg.EPO_CTRL.rollup_enable,0,1)])
  [.fenceNamed, .scrub 0 (786432+7) .published 3, .scrub 0 5 .published 1]
def drs := wrs base [(Reg.EPO_DR_LEN.pre,0,2),(Reg.EPO_DR_LEN.post,0,3),(Reg.EPO_DR_CTRL.channels,0,1)]
def dra := ex drs [.drArm]
def drt := ex dra [.drTrigger]
def drf : State := { (wrs drt [(Reg.EPO_DR_CTRL.arm,0,0),(Reg.EPO_STAT.dr_frozen,0,1),(Reg.EPO_STAT.dr_armed,0,0)]) with dr := { drt.dr with left := 0, post := [⟨1,2,[⟨3,false⟩]⟩] } }
def drb := ex drf [.drDmaStart]
def waiting : State := { base with epo := { base.epo with waits := [⟨5, 0x800000 + 512*1 + 8*16, 8, [none]⟩] } }
def noPts : State := wrs base [(Reg.PWR_DOM_STAT.state,0,0xAAAA2A)]
def latched := ex (ex base [.latchingRead 3 0x300C 4]) []
def badR : State := { base with epo := { base.epo with badRegs := [(0x3058,0),(0x3018,0),(0x58,0),(0x40A0,0)] } }
def stepF : State := { fb with epo := { fb.epo with k := 12, fences := [⟨0, 12, [.reg 16432 0 5]⟩] } }
def benches : State := { base with epo := { base.epo with frames := (List.range 47).map (fun i => ⟨i, i + 80, i % 2 == 0⟩) } }

theorem witness_SeamBeginsNextEpoch :
    (∃ (s : State), Sound s ∧ s.running = false)
      ∧ (∃ (s : State), Sound s ∧ s.running = true ∧ s.domain 3 = 2 ∧ s.red.hand = Hand.none
        ∧ s.red.restoreDone = false)
      ∧ (∃ (s : State), Sound s ∧ s.running = true ∧ s.domain 3 ≠ 2) :=
  ⟨⟨up, sound_of (by decide +kernel), by decide +kernel⟩,
    ⟨badR, sound_of (by decide +kernel), by decide +kernel⟩,
    ⟨noPts, sound_of (by decide +kernel), by decide +kernel⟩⟩

theorem witness_SeamCommitsFence :
    (∃ (s : State), Sound s ∧ s.dueFences = [])
      ∧ (∃ (s : State), Sound s ∧ ∃ (f : Fence), ∃ (a : Nat), ∃ (v : Nat), s.dueFences = [f]
        ∧ f.entries = [Entry.point a v])
      ∧ (∃ (s : State), Sound s ∧ ∃ (f : Fence), ∃ (a : Nat), ∃ (v : Nat), s.dueFences = [f]
        ∧ f.entries = [Entry.point a v] ∧ ∃ (b : Nat), b ≠ a)
      ∧ (∃ (s : State), Sound s ∧ ∃ (f : Fence), ∃ (a : Nat), ∃ (v : Nat),
        s.dueFences = [f] ∧ f.entries = [Entry.point a v] ∧ s.evq.buf.length < 1024)
      ∧ (∃ (s : State), Sound s ∧ ∃ (f : Fence),
        ∃ (v : Nat), s.dueFences = [f] ∧ f.entries = [Entry.reg 16432 0 v] ∧ v % 2 ^ 32 ≠ 0 ∧ s.evq.buf.length < 1024) :=
  ⟨⟨up, sound_of (by decide +kernel), by decide +kernel⟩,
    ⟨fb0, sound_of (by decide +kernel), ⟨0, 12, [.point 0x4800 7]⟩, 18432, 7, by decide +kernel⟩,
    ⟨fb0, sound_of (by decide +kernel), ⟨0, 12, [.point 0x4800 7]⟩, 18432, 7, by decide +kernel, by decide +kernel, 7, by decide +kernel⟩,
    ⟨fb0, sound_of (by decide +kernel), ⟨0, 12, [.point 0x4800 7]⟩, 18432, 7, by decide +kernel⟩,
    ⟨stepF, sound_of (by decide +kernel), ⟨0, 12, [.reg 16432 0 5]⟩, 5, by decide +kernel⟩⟩

theorem witness_FencesClose :
    (∃ (s : State), Sound s ∧ HostUp s ∧ s.targetMeets (s.rdPair Reg.EPO_FENCE_TGT_LO.target_lo Reg.EPO_FENCE_TGT_HI.target_hi 0) = true
        ∧ s.epo.fences.length < 4 ∧ s.lastTarget ≤ s.rdPair Reg.EPO_FENCE_TGT_LO.target_lo Reg.EPO_FENCE_TGT_HI.target_hi 0
        ∧ s.rdPair Reg.EPO_FENCE_TGT_LO.target_lo Reg.EPO_FENCE_TGT_HI.target_hi 0 ≤ s.epo.k + 2 ^ 24 ∧ s.rd Reg.EPO_STAGE_STAT.overflow 0 = 0
        ∧ s.capacityBroken = false)
      ∧ (∃ (s : State), ∃ (j : Nat), Sound s ∧ HostUp s ∧ max s.nextEpoch s.lastTarget ≤ j
        ∧ j < max s.nextEpoch s.lastTarget + 16 ∧ s.targetMeets j = true ∧ (∀ (i : Nat),
        max s.nextEpoch s.lastTarget ≤ i → i < j → s.targetMeets i = false) ∧ s.epo.fences.length < 4 ∧ s.rd Reg.EPO_STAGE_STAT.overflow 0 = 0
        ∧ s.capacityBroken = false) :=
  ⟨⟨fb, sound_of (by decide +kernel), by decide +kernel⟩,
    ⟨wrs base [(Reg.EPO_ECC_CTRL.ps_period,0,0),(Reg.EPO_CTRL.rollup_enable,0,0)], 11, sound_of (by decide +kernel), by decide +kernel,
      by decide +kernel, by decide +kernel, by decide +kernel, fun i a b => absurd b (Nat.not_lt.mpr (Nat.le_trans (by decide +kernel) a)),
      by decide +kernel⟩⟩

theorem witness_FenceRefusalKeepsGeneration :
    (∃ (s : State), Sound s ∧ HostUp s
        ∧ s.fenceStatus true (s.rdPair Reg.EPO_FENCE_TGT_LO.target_lo Reg.EPO_FENCE_TGT_HI.target_hi 0) ≠ 0)
      ∧ (∃ (s : State), Sound s
        ∧ HostUp s ∧ s.fenceStatus false 0 ≠ 0) :=
  ⟨⟨up, sound_of (by decide +kernel), by decide +kernel⟩,
    ⟨full4, sound_of (by decide +kernel), by decide +kernel⟩⟩

theorem witness_StagingArea :
    (∃ (s : State), ∃ (a : Nat), ∃ (n : Nat), ∃ (vals : List Nat), HostUp s ∧ a + n ≤ 65536 ∧ 1 ≤ n ∧ 8 * n ≤ Config.maxPayload
        ∧ vals.length = n ∧ (∀ (i : Nat), i < n → s.bs.hostPoints.contains (a + i) = true) ∧ s.stagedCount + n ≤ 8192)
      ∧ (∃ (s : State),
        Sound s ∧ HostUp s) :=
  ⟨⟨wrs base [(Reg.EPO_ECC_CTRL.ps_period,0,0),(Reg.EPO_CTRL.rollup_enable,0,0)], 18432, 1, [0], by decide +kernel⟩,
    ⟨up, sound_of (by decide +kernel), by decide +kernel⟩⟩

theorem witness_PinLifecycle :
    (∃ (s : State), ∃ (release : Bool), Sound s ∧ HostUp s ∧ (s.epo.pin = none ∨ release = true))
      ∧ (∃ (s : State), ∃ (release : Bool),
        Sound s ∧ HostUp s ∧ s.epo.pin ≠ none ∧ release = false)
      ∧ (∃ (s : State), Sound s ∧ HostUp s)
      ∧ (∃ (s : State), Sound s
        ∧ ∃ (p : Pin), s.epo.pin = some p ∧ p.left = 0)
      ∧ (∃ (s : State), Sound s ∧ ∃ (p : Pin), s.epo.pin = some p ∧ p.left ≠ 0) :=
  ⟨⟨up, true, sound_of (by decide +kernel), by decide +kernel⟩,
    ⟨pinned, false, sound_of (by decide +kernel), by decide +kernel⟩,
    ⟨up, sound_of (by decide +kernel), by decide +kernel⟩,
    ⟨pin0, sound_of (by decide +kernel), { number := 9, left := 0 }, by decide +kernel⟩,
    ⟨pinned, sound_of (by decide +kernel), { number := 10, left := 3 }, by decide +kernel⟩⟩

theorem witness_HostReads :
    (∃ (s : State), ∃ (a : Nat), HostUp s ∧ a < 65536)
      ∧ (∃ (s : State), ∃ (req : Nat), HostUp s
        ∧ tabGet none s.host.latch (latchKey req 12300) = none)
      ∧ (∃ (s : State), ∃ (req : Nat), HostUp s ∧ ∃ (w : Nat),
        tabGet none s.host.latch (latchKey req 12304) = some w)
      ∧ (∃ (s : State), ∃ (req : Nat), Sound s ∧ HostUp s ∧ ∃ (f : Field),
        f ∈ [Reg.EPO_WR_REJECT_CNT.count, Reg.EPO_EV_LOST.count, Reg.EPO_CE_CNT.count, Reg.EPO_UE_CNT.count]
        ∧ tabGet none s.host.latch (latchKey req f.addr) = none)
      ∧ (∃ (s : State), ∃ (req : Nat), Sound s ∧ HostUp s
        ∧ tabGet none s.host.latch (latchKey req 12396) = none) :=
  ⟨⟨up, 65535, by decide +kernel⟩,
    ⟨up, 65535, by decide +kernel⟩,
    ⟨latched, 3, by decide +kernel, 0, by decide +kernel⟩,
    ⟨up, 65535, sound_of (by decide +kernel), by decide +kernel, Reg.EPO_WR_REJECT_CNT.count, by decide +kernel⟩,
    ⟨up, 65535, sound_of (by decide +kernel), by decide +kernel⟩⟩

theorem witness_HostWritesAct :
    (∃ (s : State), Sound s ∧ HostUp s ∧ ∃ (f : Field), f ∈ [Reg.GLB_SEAM_DIV.div, Reg.GLB_IRQ_EN0.en, Reg.GLB_IRQ_EN1.en,
        Reg.GLB_SCRATCH0.data, Reg.PWR_WAKE_TIMER.s, Reg.CFG_FLASH_ADDR.addr, Reg.CFG_LR_ADDR.addr, Reg.EPO_FENCE_TGT_LO.target_lo,
        Reg.EPO_FENCE_TGT_HI.target_hi, Reg.EPO_EV_MASK.range_en, Reg.TIM_ALARM_LO.at_lo, Reg.TIM_ALARM_HI.at_hi, Reg.TIM_ERA_HI.era_hi,
        Reg.TIM_QUAL_WATCH.ms])
      ∧ (∃ (s : State), Sound s ∧ HostUp s)
      ∧ (∃ (s : State), ∃ (v : Nat), Sound s ∧ HostUp s
        ∧ (v % 2 ^ 16 < 400 ∨ 40000 < v % 2 ^ 16))
      ∧ (∃ (s : State), Sound s ∧ HostUp s ∧ ∃ (addr : Nat), ∃ (len : Nat), ∃ (be : Nat),
        addr < 1048576 ∧ (addr < 2048 ∨ 3080 ≤ addr) ∧ (len ≠ 4 ∨ addr % 4 ≠ 0 ∨ be ≠ 15))
      ∧ (∃ (s : State), ∃ (c : Nat), ∃ (p : Nat),
        Sound s ∧ HostUp s ∧ c < 16384 ∧ 16 ≤ p ∧ p < 64 ∧ ∃ (vals : List Nat), vals ≠ [] ∧ vals.length ≤ 32 ∧ p + vals.length ≤ 64
        ∧ ∀ (i : Nat), i < vals.length → extWritable (p + i) = true)
      ∧ (∃ (s : State), ∃ (c : Nat), ∃ (p : Nat), Sound s ∧ HostUp s
        ∧ c < 16384 ∧ 16 ≤ p ∧ p < 64 ∧ extWritable p = false) :=
  ⟨⟨benches, sound_of (by decide +kernel), by decide +kernel, Reg.GLB_SCRATCH0.data, by decide +kernel⟩,
    ⟨up, sound_of (by decide +kernel), by decide +kernel⟩,
    ⟨up, 63, sound_of (by decide +kernel), by decide +kernel⟩,
    ⟨up, sound_of (by decide +kernel), by decide +kernel, 16383, 16383, 16383, by decide +kernel⟩,
    ⟨benches, 0, 60, sound_of (by decide +kernel), by decide +kernel, by decide +kernel, by decide +kernel, by decide +kernel, [5, 6, 7],
      by decide +kernel, by decide +kernel, by decide +kernel, fun i h => (show ∀ i : Fin 3,
      extWritable (60 + i.val) = true by decide +kernel) ⟨i, h⟩⟩,
    ⟨up, 16383, 63, sound_of (by decide +kernel), by decide +kernel⟩⟩

theorem witness_BenchFrames :
    (∃ (s : State), ∃ (c : Nat), ∃ (p : Nat), ∃ (req : Nat), ∃ (b : Fin 192), c < 16384 ∧ 16 ≤ p ∧ p < 63 ∧ ↑b = benchOf c p
        ∧ s.epo.waits = [{ req := req, addr := 8388608 + 512 * c + 8 * p, len := 8, got := [none] : BenchWait }])
      ∧ (∃ (s : State),
        s.flag Reg.EPO_CTRL.rollup_enable 0 = false)
      ∧ (∃ (s : State), s.flag Reg.EPO_CTRL.rollup_enable 0 = true) :=
  ⟨⟨waiting, 1, 16, 5, 0, by decide +kernel⟩,
    ⟨wrs base [(Reg.EPO_ECC_CTRL.ps_period,0,0),(Reg.EPO_CTRL.rollup_enable,0,0)], by decide +kernel⟩,
    ⟨up, by decide +kernel⟩⟩

theorem witness_EventRing :
    (∃ (s : State), Sound s ∧ (s.ringOpen = false ∨ s.evq.buf = []))
      ∧ (∃ (s : State), ∃ (errs : List BadWord), Sound s
        ∧ ∃ (e : Event), ∃ (rest : List Event), s.ringOpen = true ∧ s.evq.buf = e :: rest ∧ ∀ (x : BadWord),
        x ∈ errs → x.memory ≠ 0 ∨ x.word < 1196032 ∨ 1196036 ≤ x.word)
      ∧ (∃ (s : State), ∃ (value : Nat), Sound s ∧ HostUp s
        ∧ value < s.ringSize ∧ value < 2 ^ 16
        ∧ (value + s.ringSize - s.rd Reg.EPO_EVQ_TAIL.tail 0) % s.ringSize ≤ (s.rd Reg.EPO_EVQ_HEAD.head 0 + s.ringSize - s.rd Reg.EPO_EVQ_TAIL.tail
            0) % s.ringSize)
        ∧ (∃ (s : State), ∃ (value : Nat), Sound s ∧ HostUp s ∧ value < s.ringSize ∧ value < 2 ^ 16
        ∧ (s.rd Reg.EPO_EVQ_HEAD.head 0 + s.ringSize - s.rd Reg.EPO_EVQ_TAIL.tail 0) % s.ringSize < (value + s.ringSize - s.rd Reg.EPO_EVQ_TAIL.tail
            0) % s.ringSize)
        ∧ (∃ (s : State), ∃ (value : Nat), Sound s ∧ HostUp s ∧ s.ringSize ≤ value ∧ value < 2 ^ 16)
      ∧ (∃ (s : State), ∃ (value : Nat),
        Sound s ∧ HostUp s ∧ ∃ (which : RingRegister), s.flag Reg.EPO_CTRL.ev_enable 0 = false
        ∧ (RingField which).min ≤ bitsOf value (RingField which).lo (RingField which).width
        ∧ bitsOf value (RingField which).lo (RingField which).width ≤ (RingField which).max)
      ∧ (∃ (s : State), Sound s ∧ HostUp s
        ∧ ∃ (which : RingRegister), s.flag Reg.EPO_CTRL.ev_enable 0 = true) :=
  ⟨⟨badR, sound_of (by decide +kernel), by decide +kernel⟩,
    ⟨ringS, [], sound_of (by decide +kernel), { code := 17, inst := 0, flags := 32, epoch := 10, time := 1000000, data := 1 },
      ringS.evq.buf.drop 1, by decide +kernel⟩,
    ⟨up, 0, sound_of (by decide +kernel), by decide +kernel⟩,
    ⟨up, 256, sound_of (by decide +kernel), by decide +kernel⟩,
    ⟨up, 65535, sound_of (by decide +kernel), by decide +kernel⟩,
    ⟨up, 65535, sound_of (by decide +kernel), by decide +kernel, (RingRegister.baseHi), by decide +kernel⟩,
    ⟨ringS, sound_of (by decide +kernel), by decide +kernel, (RingRegister.size), by decide +kernel⟩⟩

theorem witness_ScrubCorrectsOrPoisons :
    (∃ (s : State), ∃ (a : Nat), Sound s ∧ a < 65536 ∧ s.rd Reg.EPO_ECC_CTRL.ps_period 0 = 0)
      ∧ (∃ (s : State), ∃ (a : Nat),
        ∃ (n : Nat), Sound s ∧ a < 65536 ∧ s.rd Reg.EPO_ECC_CTRL.ps_period 0 ≠ 0 ∧ 1 ≤ n ∧ n ≤ 2)
      ∧ (∃ (s : State), ∃ (a : Nat),
        ∃ (n : Nat), Sound s ∧ a < 65536 ∧ s.rd Reg.EPO_ECC_CTRL.ps_period 0 ≠ 0 ∧ 2 < n)
      ∧ (∃ (s : State), ∃ (a : Nat), Sound s
        ∧ a < 65536) :=
  ⟨⟨wrs base [(Reg.EPO_ECC_CTRL.ps_period,0,0),(Reg.EPO_CTRL.rollup_enable,0,0)], 65535, sound_of (by decide +kernel), by decide +kernel⟩,
    ⟨up, 65535, 2, sound_of (by decide +kernel), by decide +kernel⟩,
    ⟨up, 65535, 65535, sound_of (by decide +kernel), by decide +kernel⟩,
    ⟨up, 65535, sound_of (by decide +kernel), by decide +kernel⟩⟩

theorem witness_RecorderCycle :
    (∃ (s : State), Sound s ∧ HostUp s ∧ s.drBusy = false
        ∧ s.rd Reg.EPO_DR_LEN.pre 0 + s.rd Reg.EPO_DR_LEN.post 0 ≤ (33554432 - 32) / ((2 + s.rd Reg.EPO_DR_CTRL.channels 0) * 8))
        ∧ (∃ (s : State), Sound s ∧ HostUp s ∧ s.drBusy = true)
      ∧ (∃ (s : State), Sound s ∧ HostUp s ∧ s.drArmed = true ∧ s.dr.trig = none
        ∧ s.rd Reg.EPO_DR_LEN.post 0 ≠ 0)
      ∧ (∃ (s : State), Sound s ∧ HostUp s ∧ s.dr.trig ≠ none)
      ∧ (∃ (s : State), Sound s
        ∧ HostUp s ∧ s.drFrozen = true)
      ∧ (∃ (s : State), Sound s ∧ s.drBusy = true ∧ s.drFrozen = true
        ∧ s.flag Reg.GLB_STAT.master_off 0 = false ∧ s.inD3Hot = false) :=
  ⟨⟨up, sound_of (by decide +kernel), by decide +kernel⟩,
    ⟨drb, sound_of (by decide +kernel), by decide +kernel⟩,
    ⟨dra, sound_of (by decide +kernel), by decide +kernel⟩,
    ⟨drt, sound_of (by decide +kernel), by decide +kernel⟩,
    ⟨drf, sound_of (by decide +kernel), by decide +kernel⟩,
    ⟨drb, sound_of (by decide +kernel), by decide +kernel⟩⟩

end Coherent

/-! ### Arms and decisions -/

namespace Decisions

def st (s : State) (a n : Nat) := wrs s [(Reg.ARM_STAT.state, a, n)]
def modA (s : State) (a : Nat) (f : ArmRt → ArmRt) : State := { s with arms := tabMod ArmRt.clear s.arms a f }
def modC (s : State) (a : Nat) (f : CellRt → CellRt) : State := { s with cells := tabMod CellRt.clear s.cells a f }
def ref (s : State) (v : Nat) : State := { s with pts := { s.pts with work := tabSet Pt.clear (tabSet Pt.clear s.pts.work 0x4000 ⟨tagged v 10, false⟩) 0x4001 ⟨tagged v 10, false⟩ } }
def run1 := st (ref base 0x43000000) 0 2
def run2 := modC (st (modA run1 0 (fun r => { r with mode := 2 })) 1 3) 2 (fun c => { c with retired := true })
def go1 := wrs run1 [(Reg.ARM_RETIRE.go, 0, 1)]
def hold : State := { run1 with red := { run1.red with holdArms := [0] } }

theorem witness_DecisionCommandsEveryCell :
    (∃ (s : State), ∃ (arm : Fin 12), ∃ (m : ArmEntry), Sound s ∧ s.red.holdArms.contains ↑arm = false ∧ s.bs.armEntry ↑arm = some m)
        ∧ (∃ (s : State), ∃ (arm : Fin 12), Sound s ∧ s.red.holdArms.contains ↑arm = true) :=
  ⟨⟨base, 1, (armE 1), sound_of (by decide +kernel), by decide +kernel⟩,
    ⟨hold, 0, sound_of (by decide +kernel), by decide +kernel⟩⟩

theorem witness_RetireGoQueues :
    (∃ (s : State), ∃ (arm : Fin 12), ∃ (value : Nat), Sound s ∧ HostUp s ∧ s.flag Reg.ARM_RETIRE.go ↑arm = false
        ∧ s.cellArm (value % 2 ^ 14) = some ↑arm ∧ (s.cell (value % 2 ^ 14)).retired = false)
      ∧ (∃ (s : State), ∃ (arm : Fin 12),
        ∃ (value : Nat), Sound s ∧ HostUp s ∧ s.flag Reg.ARM_RETIRE.go ↑arm = false ∧ s.cellArm (value % 2 ^ 14) ≠ some ↑arm)
        ∧ (∃ (s : State), ∃ (arm : Fin 12), ∃ (value : Nat), Sound s ∧ HostUp s ∧ s.flag Reg.ARM_RETIRE.go ↑arm = false
        ∧ s.cellArm (value % 2 ^ 14) = some ↑arm ∧ (s.cell (value % 2 ^ 14)).retired = true)
      ∧ (∃ (s : State), ∃ (arm : Fin 12), Sound s
        ∧ HostUp s ∧ s.flag Reg.ARM_RETIRE.go ↑arm = true) :=
  ⟨⟨base, 1, 458754, sound_of (by decide +kernel), by decide +kernel⟩,
    ⟨up, 3, 458754, sound_of (by decide +kernel), by decide +kernel⟩,
    ⟨run2, 1, 458754, sound_of (by decide +kernel), by decide +kernel⟩,
    ⟨go1, 0, sound_of (by decide +kernel), by decide +kernel⟩⟩

end Decisions

/-! ### Carrier instants -/

namespace Carrier

def st (s : State) (a n : Nat) := wrs s [(Reg.ARM_STAT.state, a, n)]
def modA (s : State) (a : Nat) (f : ArmRt → ArmRt) : State := { s with arms := tabMod ArmRt.clear s.arms a f }
def ref (s : State) (v : Nat) : State := { s with pts := { s.pts with work := tabSet Pt.clear (tabSet Pt.clear s.pts.work 0x4000 ⟨tagged v 10, false⟩) 0x4001 ⟨tagged v 10, false⟩ } }
def run1 := st (ref base 0x43000000) 0 2
def car := wrs (modA run1 0 (fun r => { r with mode := 3, grid := some ⟨1000000, 0, 2, 3200⟩, phases := [0,1] })) [(Reg.ARM_CAR_CFG.reload_n,0,2)]
def noG (s : State) : State := { s with bs := { s.bs with fabric := { s.bs.fabric with graphs := [g0,g1,g2] } } }
def ie (s : State) (n : Nat) := wrs s [(Reg.ARM_INT_CFG.prescale,0,n),(Reg.ARM_INT_CFG.ring_en,0,n%2),(Reg.ARM_INT_CFG.zero_en,0,1),(Reg.ARM_INT_CFG.period_en,0,1),(Reg.ARM_INT_CFG.cmp0_en,0,1),(Reg.ARM_INT_CFG.cmp0_down,0,1),(Reg.ARM_INT_CMP0.value,0,70)]
def later (s : State) : State := { s with clk := { s.clk with count := s.clk.count + 7001 } }

theorem witness_CarrierInstantPrescaled :
    (∃ (s : State), ∃ (arm : Fin 12), ∃ (kind : Fin 4), ∃ (t0 : Nat), ∃ (g : Grid), Sound s ∧ s.instantOf (↑arm) (↑kind) s.now = some (t0, g)
        ∧ (∀ (e : GraphEntry), e ∈ s.bs.fabric.graphs → e.trigger ≠ Trigger.carrier ↑arm ↑kind) ∧ s.instantEnabled ↑arm ↑kind = true
        ∧ tabGet 0 (s.arm ↑arm).counts ↑kind < s.rd Reg.ARM_INT_CFG.prescale ↑arm)
      ∧ (∃ (s : State), ∃ (arm : Fin 12), ∃ (kind : Fin 4),
        ∃ (t0 : Nat), ∃ (g : Grid), Sound s ∧ s.instantOf (↑arm) (↑kind) s.now = some (t0, g) ∧ (∀ (e : GraphEntry),
        e ∈ s.bs.fabric.graphs → e.trigger ≠ Trigger.carrier ↑arm ↑kind) ∧ s.instantEnabled ↑arm ↑kind = true
        ∧ s.rd Reg.ARM_INT_CFG.prescale ↑arm ≤ tabGet 0 (s.arm ↑arm).counts ↑kind)
      ∧ (∃ (s : State), ∃ (arm : Fin 12), ∃ (kind : Fin 4),
        ∃ (t0 : Nat), ∃ (g : Grid), Sound s ∧ s.instantOf (↑arm) (↑kind) s.now = some (t0, g) ∧ (∀ (e : GraphEntry),
        e ∈ s.bs.fabric.graphs → e.trigger ≠ Trigger.carrier ↑arm ↑kind) ∧ s.instantEnabled ↑arm ↑kind = false) :=
  ⟨⟨later (ie (noG car) 1), 0, 2, 1223930, { t0 := 1000000, r0 := 0, n := 2, p := 3200 }, sound_of (by decide +kernel), by decide +kernel⟩,
    ⟨later (ie (noG car) 0), 0, 2, 1223930, { t0 := 1000000, r0 := 0, n := 2, p := 3200 }, sound_of (by decide +kernel), by decide +kernel⟩,
    ⟨later (noG car), 0, 3, 1224000, { t0 := 1000000, r0 := 0, n := 2, p := 3200 }, sound_of (by decide +kernel), by decide +kernel⟩⟩

end Carrier

/-! ### Local drive channels -/

namespace Drive

def calb := ex base (List.replicate 48 (.drvCalibrate 40))
def sh (c : Nat) := [(Reg.DRV_PERIOD.period,c,5000),(Reg.DRV_PERIOD.reload_n,c,2),(Reg.DRV_DUTY.duty,c,1000),(Reg.DRV_SET.phase,c,0)]
def w0 := wrs calb (sh 0 ++ sh 1 ++ sh 2 ++ sh 3)
def setm (s : State) (c : Nat) (f : DrvRt → DrvRt) : State := s.modDrv c f
def y0 : DrvSet := ⟨5000, 2, 1000000, 0⟩
def y1 : DrvSet := ⟨6000, 3, 1000000, 7⟩
def run1 := setm (setm w0 0 (fun d => { d with mode := 1, on := some y0, next := 77777777, len := 5000, reload := 5, left := 0, pending := some (y1, 0) }))
  3 (fun d => { d with mode := 1, on := some y1, next := 77777777, len := 6000, reload := 5, left := 0, pending := none, lastReload := some 4 })
def run2 := setm (setm w0 0 (fun d => { d with mode := 2, timed := [⟨10, 5, none, true, false⟩] })) 1 (fun d => { d with mode := 2, lo := true, timed := [⟨11, 0, none, true, false⟩, ⟨12, 0, none, true, false⟩] })
def run3 := setm (setm w0 3 (fun d => { d with mode := 3, flt := true, fltEdges := 3 })) 1 (fun d => { d with ctl := { d.ctl with adaptive := true }})
def r4a : State := { run2 with pts := { run2.pts with work := [((run2.driveEntry 0).statePoint, ⟨3,false⟩)] } }
def r4c : State := { run2 with pts := { run2.pts with work := [((run2.driveEntry 0).statePoint, ⟨1,true⟩)] } }
def ft : State := { base with bs := { base.bs with drive := [drv 0 true, drv 1 true] } }
def rxb : Reaction := ⟨[⟨8, 0, false, [.drvBlock [0, 3]]⟩, ⟨9, 0, false, [.drvBlock [0, 1]]⟩], []⟩
def wb (s : State) : State := { s with bs := { s.bs with reaction := rxb }, conds := tabSet Cond.clear s.conds 8 { Cond.clear with qualified := true, level := true } }

theorem witness_DriveSetBecomesPending :
    (∃ (s : State), ∃ (ch : Fin 24), ∃ (phase : Nat), Sound s ∧ HostUp s ∧ s.drvHeld ↑ch = false
        ∧ drvSetOk (s.driveEntry ↑ch) (s.drvWritten ↑ch)
            { period := (s.drvShadow ↑ch).period, n := (s.drvShadow ↑ch).n, duty := (s.drvShadow ↑ch).duty, phase := phase % 2 ^ 24 : DrvSet } = true
        ∧ ∃ (c : Nat), s.blocker ↑ch = some c)
      ∧ (∃ (s : State), ∃ (ch : Fin 24), ∃ (phase : Nat), Sound s ∧ HostUp s
        ∧ s.drvHeld ↑ch = false
        ∧ drvSetOk (s.driveEntry ↑ch) (s.drvWritten ↑ch)
            { period := (s.drvShadow ↑ch).period, n := (s.drvShadow ↑ch).n, duty := (s.drvShadow ↑ch).duty, phase := phase % 2 ^ 24 : DrvSet } = true
        ∧ (s.drvRt ↑ch).mode ≠ 1 ∧ s.blocker ↑ch = none)
      ∧ (∃ (s : State), ∃ (ch : Fin 24), ∃ (phase : Nat), Sound s ∧ HostUp s
        ∧ s.drvHeld ↑ch = false
        ∧ drvSetOk (s.driveEntry ↑ch) (s.drvWritten ↑ch)
            { period := (s.drvShadow ↑ch).period, n := (s.drvShadow ↑ch).n, duty := (s.drvShadow ↑ch).duty, phase := phase % 2 ^ 24 : DrvSet } = false)
        ∧ (∃ (s : State), ∃ (ch : Fin 24), Sound s ∧ HostUp s ∧ s.drvHeld ↑ch = true) :=
  ⟨⟨wb w0, 3, 33, sound_of (by decide +kernel), by decide +kernel, by decide +kernel, by decide +kernel, 8, by decide +kernel⟩,
    ⟨mirr run2, 3, 33, sound_of (by decide +kernel), by decide +kernel⟩,
    ⟨ft, 3, 33, sound_of (by decide +kernel), by decide +kernel⟩,
    ⟨wb w0, 2, sound_of (by decide +kernel), by decide +kernel⟩⟩

theorem witness_DriveReloadAndPeriod :
    (∃ (s : State), ∃ (ch : Fin 24), ∃ (y : DrvSet), Sound s ∧ (s.drvRt ↑ch).mode = 1 ∧ (s.drvRt ↑ch).on = some y ∧ ∃ (x : DrvSet),
        ∃ (at_ : Nat), (s.drvRt ↑ch).left = 0 ∧ (s.drvRt ↑ch).nextMode = none ∧ (s.drvRt ↑ch).pending = some (x, at_)
        ∧ at_ ≤ (s.drvRt ↑ch).reload)
      ∧ (∃ (s : State), ∃ (ch : Fin 24), ∃ (y : DrvSet), Sound s ∧ (s.drvRt ↑ch).mode = 1
        ∧ (s.drvRt ↑ch).on = some y ∧ (s.drvRt ↑ch).left = 0 ∧ (s.drvRt ↑ch).nextMode = none ∧ (s.drvRt ↑ch).pending = none)
        ∧ (∃ (s : State), ∃ (ch : Fin 24), ∃ (y : DrvSet), Sound s ∧ (s.drvRt ↑ch).mode = 1 ∧ (s.drvRt ↑ch).on = some y) :=
  ⟨⟨mirr run1, 0, { period := 5000, n := 2, duty := 1000000, phase := 0 }, sound_of (by decide +kernel), by decide +kernel,
      by decide +kernel, { period := 6000, n := 3, duty := 1000000, phase := 7 }, 0, by decide +kernel⟩,
    ⟨mirr run1, 3, { period := 6000, n := 3, duty := 1000000, phase := 7 }, sound_of (by decide +kernel), by decide +kernel⟩,
    ⟨mirr run1, 3, { period := 6000, n := 3, duty := 1000000, phase := 7 }, sound_of (by decide +kernel), by decide +kernel⟩⟩

theorem witness_DriveModeAndStatic :
    (∃ (s : State), ∃ (ch : Fin 24), ∃ (mode : Fin 4), Sound s ∧ HostUp s ∧ s.drvHeld ↑ch = false ∧ (s.drvRt ↑ch).tables.fst.isSome = true
        ∧ (s.drvRt ↑ch).tables.snd.isSome = true ∧ mode ≠ 0 ∧ ∃ (c : Nat), s.blocker ↑ch = some c)
      ∧ (∃ (s : State), ∃ (ch : Fin 24),
        ∃ (mode : Fin 4), Sound s ∧ HostUp s ∧ s.drvHeld ↑ch = false ∧ (mode = 0 ∨ (s.drvRt ↑ch).tables.fst.isSome = true
        ∧ (s.drvRt ↑ch).tables.snd.isSome = true) ∧ s.blocker ↑ch = none)
      ∧ (∃ (s : State), ∃ (ch : Fin 24), ∃ (mode : Fin 4), Sound s
        ∧ HostUp s ∧ s.drvHeld ↑ch = false ∧ mode ≠ 0 ∧ ((s.drvRt ↑ch).tables.fst = none ∨ (s.drvRt ↑ch).tables.snd = none))
        ∧ (∃ (s : State), ∃ (ch : Fin 24), Sound s ∧ HostUp s ∧ s.drvHeld ↑ch = true)
      ∧ (∃ (s : State), ∃ (ch : Fin 24), ∃ (hi : Bool),
        ∃ (lo : Bool), Sound s ∧ HostUp s ∧ s.drvHeld ↑ch = false ∧ (hi && lo) = false)
      ∧ (∃ (s : State), ∃ (ch : Fin 24), ∃ (hi : Bool),
        ∃ (lo : Bool), Sound s ∧ HostUp s ∧ s.drvHeld ↑ch = false ∧ hi = true ∧ lo = true) :=
  ⟨⟨wb w0, 3, 3, sound_of (by decide +kernel), by decide +kernel, by decide +kernel, by decide +kernel, by decide +kernel,
      by decide +kernel, 8, by decide +kernel⟩,
    ⟨mirr run1, 3, 3, sound_of (by decide +kernel), by decide +kernel⟩,
    ⟨ft, 3, 3, sound_of (by decide +kernel), by decide +kernel⟩,
    ⟨wb w0, 2, sound_of (by decide +kernel), by decide +kernel⟩,
    ⟨wb w0, 3, true, false, sound_of (by decide +kernel), by decide +kernel⟩,
    ⟨wb w0, 3, true, true, sound_of (by decide +kernel), by decide +kernel⟩⟩

theorem witness_DriveTimedStates :
    (∃ (s : State), ∃ (ch : Fin 24), Sound s ∧ (s.drvRt ↑ch).mode = 2 ∧ (s.work (s.driveEntry ↑ch).statePoint).bad = false
        ∧ (s.work (s.driveEntry ↑ch).statePoint).v % 4 ≠ 3)
      ∧ (∃ (s : State), ∃ (ch : Fin 24), Sound s ∧ (s.drvRt ↑ch).mode = 2
        ∧ (s.work (s.driveEntry ↑ch).statePoint).bad = false ∧ (s.work (s.driveEntry ↑ch).statePoint).v % 4 = 3)
      ∧ (∃ (s : State),
        ∃ (ch : Fin 24), Sound s ∧ (s.drvRt ↑ch).mode = 2 ∧ (s.work (s.driveEntry ↑ch).statePoint).bad = true)
      ∧ (∃ (s : State),
        ∃ (ch : Fin 24), Sound s ∧ (s.drvRt ↑ch).mode = 2 ∧ ∃ (x : TimedCmd), ∃ (xs : List TimedCmd), (s.drvRt ↑ch).timed = x :: xs
        ∧ (s.drvRt ↑ch).edges = [] ∧ ¬((s.drvRt ↑ch).hi = x.hi ∧ (s.drvRt ↑ch).lo = x.lo) ∧ ∀ (e1 : Nat),
        (s.drvRt ↑ch).lastEdge = some e1 → (s.drvDead ↑ch !x.lo) + (s.driveEntry ↑ch).minPulse ≤ (s.timedAt x + 2 ^ 64 - e1) % 2 ^ 64) :=
  ⟨⟨mirr run2, 1, sound_of (by decide +kernel), by decide +kernel⟩,
    ⟨r4a, 1, sound_of (by decide +kernel), by decide +kernel⟩,
    ⟨r4c, 1, sound_of (by decide +kernel), by decide +kernel⟩,
    ⟨mirr run2, 1, sound_of (by decide +kernel), by decide +kernel, { target := 11, tau := 0, at_ := none, hi := true, lo := false },
      [{ target := 12, tau := 0, at_ := none, hi := true, lo := false }], by decide +kernel⟩⟩

theorem witness_DriveSupervision :
    (∃ (s : State), Sound s ∧ ∃ (taps : Nat), s.cal % 2 = 0 ∧ 33 ≤ taps ∧ taps ≤ 64)
      ∧ (∃ (s : State), Sound s ∧ ∃ (taps : Nat),
        s.cal % 2 = 0 ∧ (taps < 33 ∨ 64 < taps) ∧ (s.drvRt (s.cal / 2)).failing.fst = false)
      ∧ (∃ (s : State), ∃ (ch : Fin 24), Sound s
        ∧ ∃ (rising : Bool), ∃ (delay : Nat), (s.drvRt ↑ch).ctl.adaptive = true ∧ delay ≤ driveSteps (s.driveEntry ↑ch).dtMax * 16)
        ∧ (∃ (s : State), Sound s)
      ∧ (∃ (s : State), ∃ (ch : Fin 24), Sound s ∧ (s.drvRt ↑ch).flt = true ∧ (∀ (e : PinEdge),
        e ∈ (s.drvRt ↑ch).edges → notAfter e.t s.now = false) ∧ s.bitAt Reg.EPO_EV_MASK.range_en 0 10 = true ∧ s.evq.buf.length < 1024) :=
  ⟨⟨wb w0, sound_of (by decide +kernel), 64, by decide +kernel⟩,
    ⟨wb w0, sound_of (by decide +kernel), 16777215, by decide +kernel⟩,
    ⟨run3, 1, sound_of (by decide +kernel), true, 65, by decide +kernel⟩,
    ⟨wb w0, sound_of (by decide +kernel)⟩,
    ⟨run3, 3, sound_of (by decide +kernel), by decide +kernel⟩⟩

end Drive

/-! ### Lanes, frames and SST shifts -/

namespace Lanes

def al (l w c : Nat) := alignPayload c l w (if l = 3 then 1 else 0) 3 3 5
def laneOn (s : State) (l : Nat) := wrs s [(Reg.LANE_CTRL.rx_en,l,1),(Reg.LANE_CTRL.tx_en,l,1)]
def up0 := ex (laneOn (laneOn (laneOn base 0) 2) 3) [.lockGained 0 64 (al 0 1 1)]
def upA := ex up0 [.lockGained 2 64 (al 2 1 1), .lockGained 3 64 (al 3 1 1)]
def upB := ex upA [.alignReceived 2 (al 2 2 1) [] 3, .alignReceived 3 (al 3 2 1) [] 3, .alignReceived 0 (al 0 1 2) [] 0]
def eye := ex upB [.eyeScanStart 0 (25 * 2^24 + 256 * 3), .registerWrite 0x20000 4 15 3 0]
def un (u : Nat) : UnitEntry := ⟨u, 1, 5000, 2, [0], [0], [1], 0x4600, 0x4700, 9, fOne, 0x3F000000, fOne, fOne, true⟩
def sst : State := { base with bs := { base.bs with units := [un 0, un 1], cells := [⟨0,false,fOne,some 0,none,0,some 0,none,none⟩, ⟨1,false,fOne,some 3,none,0,some 1,none,none⟩, ⟨2,false,fOne,none,some 0,2,some 0,none,none⟩, ⟨3,false,fOne,none,some 1,2,some 1,none,none⟩], arms := [armE 0, armE 3] } }

theorem witness_DownlinkFrameLeaves :
    (∃ (s : State), ∃ (lane : Fin 96), Sound s ∧ ∃ (e : LaneEntry), s.bs.laneEntry ↑lane = some e ∧ s.laneUp ↑lane = true
        ∧ s.transmits e = true ∧ s.frameKind ≠ 0 ∧ (e.bond = Bond.none ∧ e.width = 1 ∨ e.bond ≠ Bond.none ∧ s.activeMembers e ≠ []
        ∧ s.activeSet e = s.rd Reg.LANE_STAT.tx_mask ↑lane))
      ∧ (∃ (s : State), ∃ (lane : Fin 96), Sound s
        ∧ (s.bs.laneEntry ↑lane = none ∨ s.laneUp ↑lane = false ∨ (∀ (e : LaneEntry),
        s.bs.laneEntry ↑lane = some e → s.transmits e = false) ∨ s.frameKind = 0)) :=
  ⟨⟨up0, 0, sound_of (by decide +kernel), (laneE 0 2 .none 1), by decide +kernel⟩,
    ⟨up, 2, sound_of (by decide +kernel), by decide +kernel⟩⟩

theorem witness_LaneLock :
    (∃ (s : State), ∃ (lane : Fin 96), ∃ (e : LaneEntry), Sound s ∧ s.bs.groupOf ↑lane = some e ∧ ∃ (valid : Nat), ∃ (align : Nat),
        valid < 64 ∨ alignValid align = false)
      ∧ (∃ (s : State), ∃ (lane : Fin 96), ∃ (e : LaneEntry), Sound s ∧ s.bs.groupOf ↑lane = some e
        ∧ ∃ (valid : Nat), ∃ (align : Nat), 64 ≤ valid ∧ alignValid align = true ∧ s.flag Reg.LANE_STAT.lock ↑lane = false
        ∧ s.flag Reg.LANE_CTRL.rx_en ↑lane = true ∧ s.lanePowered ↑lane = true)
      ∧ (∃ (s : State), ∃ (lane : Fin 96), ∃ (e : LaneEntry),
        Sound s ∧ s.bs.groupOf ↑lane = some e ∧ ∃ (headers : Nat), headers < 16 ∧ s.red.hand ≠ Hand.incoming)
      ∧ (∃ (s : State),
        ∃ (lane : Fin 96), ∃ (e : LaneEntry), Sound s ∧ s.bs.groupOf ↑lane = some e ∧ ∃ (headers : Nat), 16 ≤ headers
        ∧ s.flag Reg.LANE_STAT.lock ↑lane = true ∧ s.red.hand ≠ Hand.incoming)
      ∧ (∃ (s : State), ∃ (lane : Fin 96), ∃ (e : LaneEntry),
        Sound s ∧ s.bs.groupOf ↑lane = some e ∧ HostUp s ∧ s.flag Reg.LANE_STAT.lock ↑lane = true ∧ s.red.hand ≠ Hand.incoming)
        ∧ (∃ (s : State), ∃ (lane : Fin 96), ∃ (e : LaneEntry), Sound s ∧ s.bs.groupOf ↑lane = some e ∧ HostUp s
        ∧ (s.bs.laneEntry ↑lane).isSome = true) :=
  ⟨⟨laneOn base 0, 3, (laneE 2 2 .redundant 2), sound_of (by decide +kernel), by decide +kernel, 64, 64, by decide +kernel⟩,
    ⟨laneOn base 0, 0, (laneE 0 2 .none 1), sound_of (by decide +kernel), by decide +kernel, 64, al 0 1 1, by decide +kernel⟩,
    ⟨laneOn base 0, 3, (laneE 2 2 .redundant 2), sound_of (by decide +kernel), by decide +kernel, 0, by decide +kernel⟩,
    ⟨up0, 0, (laneE 0 2 .none 1), sound_of (by decide +kernel), by decide +kernel, 64, by decide +kernel⟩,
    ⟨up0, 0, (laneE 0 2 .none 1), sound_of (by decide +kernel), by decide +kernel⟩,
    ⟨laneOn base 0, 2, (laneE 2 2 .redundant 2), sound_of (by decide +kernel), by decide +kernel⟩⟩

theorem witness_AlignmentMarkers :
    (∃ (s : State), ∃ (lane : Fin 96), ∃ (e : LaneEntry), Sound s ∧ s.bs.laneEntry ↑lane = some e)
      ∧ (∃ (s : State), Sound s
        ∧ ∃ (reg : Nat), ∃ (p : Nat), ∃ (i : Nat), reg < 2 ^ 58 ∧ i < 64)
      ∧ (∃ (s : State), Sound s)
      ∧ (∃ (s : State),
        ∃ (lane : Fin 96), ∃ (e : LaneEntry), Sound s ∧ ∃ (payload : Nat), ∃ (between : List Nat), ∃ (skew : Nat), s.bs.groupOf ↑lane = some e
        ∧ s.flag Reg.LANE_STAT.lock ↑lane = true ∧ payload / 2 ^ 56 = 212 ∧ s.red.hand ≠ Hand.incoming ∧ alignValid payload = true)
        ∧ (∃ (s : State), ∃ (lane : Fin 96), ∃ (e : LaneEntry), Sound s ∧ ∃ (payload : Nat), ∃ (between : List Nat), ∃ (skew : Nat),
        s.bs.groupOf ↑lane = some e ∧ s.flag Reg.LANE_STAT.lock ↑lane = true ∧ payload / 2 ^ 56 = 212 ∧ s.red.hand ≠ Hand.incoming
        ∧ alignValid payload = false)
      ∧ (∃ (s : State), ∃ (lane : Fin 96), Sound s ∧ ∃ (payload : Nat), ∃ (between : List Nat),
        ∃ (skew : Nat), s.flag Reg.LANE_STAT.lock ↑lane = false ∨ payload / 2 ^ 56 ≠ 212) :=
  ⟨⟨laneOn base 0, 2, (laneE 2 2 .redundant 2), sound_of (by decide +kernel), by decide +kernel⟩,
    ⟨laneOn base 0, sound_of (by decide +kernel), 0, 0, 0, by decide +kernel⟩,
    ⟨laneOn base 0, sound_of (by decide +kernel)⟩,
    ⟨up0, 0, (laneE 0 2 .none 1), sound_of (by decide +kernel), al 2 2 7, [40, 2034176, 419431168], 0, by decide +kernel⟩,
    ⟨up0, 0, (laneE 0 2 .none 1), sound_of (by decide +kernel), al 2 2 7 + 1, [40, 2034176, 419431168], 0, by decide +kernel⟩,
    ⟨laneOn (laneOn base 0) 2, 3, sound_of (by decide +kernel), 0, [40, 2034176, 419431168], 0, by decide +kernel⟩⟩

theorem witness_EqualisationAndEyeScan :
    (∃ (s : State), ∃ (v : Nat), Sound s ∧ HostUp s ∧ v / 2 ^ 8 % 2 ^ 4 + v / 2 ^ 16 % 2 ^ 5 ≤ 40)
      ∧ (∃ (s : State), ∃ (v : Nat),
        Sound s ∧ HostUp s ∧ 40 < v / 2 ^ 8 % 2 ^ 4 + v / 2 ^ 16 % 2 ^ 5)
      ∧ (∃ (s : State), ∃ (lane : Fin 96), ∃ (v : Nat), Sound s
        ∧ HostUp s ∧ s.flag Reg.LANE_EYE_CTRL.start ↑lane = false ∧ (s.bs.groupOf ↑lane).isSome = true ∧ eyeInRange v = true)
        ∧ (∃ (s : State), ∃ (lane : Fin 96), ∃ (v : Nat), Sound s ∧ HostUp s ∧ s.flag Reg.LANE_EYE_CTRL.start ↑lane = false
        ∧ (s.bs.groupOf ↑lane).isSome = true ∧ eyeInRange v = false)
      ∧ (∃ (s : State), ∃ (lane : Fin 96), Sound s ∧ HostUp s
        ∧ s.flag Reg.LANE_EYE_CTRL.start ↑lane = false ∧ (s.bs.groupOf ↑lane).isSome = false)
      ∧ (∃ (s : State), ∃ (lane : Fin 96), Sound s
        ∧ HostUp s ∧ s.flag Reg.LANE_EYE_CTRL.start ↑lane = true)
      ∧ (∃ (s : State), ∃ (lane : Fin 96), Sound s ∧ ∃ (errors : Nat),
        s.flag Reg.LANE_EYE_CTRL.start ↑lane = true) :=
  ⟨⟨laneOn base 0, 419438592, sound_of (by decide +kernel), by decide +kernel⟩,
    ⟨laneOn base 0, 2034176, sound_of (by decide +kernel), by decide +kernel⟩,
    ⟨laneOn base 0, 3, 419431168, sound_of (by decide +kernel), by decide +kernel⟩,
    ⟨laneOn base 0, 3, 419438592, sound_of (by decide +kernel), by decide +kernel⟩,
    ⟨laneOn base 0, 4, sound_of (by decide +kernel), by decide +kernel⟩,
    ⟨eye, 0, sound_of (by decide +kernel), by decide +kernel⟩,
    ⟨eye, 0, sound_of (by decide +kernel), 419438592, by decide +kernel⟩⟩

theorem witness_ShiftDecisionCommands :
    (∃ (s : State), ∃ (unit : Fin 4), ∃ (e : UnitEntry), Sound s ∧ s.bs.unitEntry ↑unit = some e) :=
  ⟨sst, 1, (un 1), sound_of (by decide +kernel), by decide +kernel⟩

end Lanes

/-! ### Uplink frames -/

namespace Uplink

def al (l w c : Nat) := alignPayload c l w (if l = 3 then 1 else 0) 3 3 5
def laneOn (s : State) (l : Nat) := wrs s [(Reg.LANE_CTRL.rx_en,l,1),(Reg.LANE_CTRL.tx_en,l,1)]
def up0 := ex (laneOn (laneOn (laneOn base 0) 2) 3) [.lockGained 0 64 (al 0 1 1)]
def upA := ex up0 [.lockGained 2 64 (al 2 1 1), .lockGained 3 64 (al 3 1 1)]
def upB := ex upA [.alignReceived 2 (al 2 2 1) [] 3, .alignReceived 3 (al 3 2 1) [] 3, .alignReceived 0 (al 0 1 2) [] 0]
def bnd (s : State) := ((s.modCell 0 (fun r => { r with slot := some 0 })).modCell 1 (fun r => { r with slot := some 1 }))
def dec := ex (bnd upB) [.armDecision 0 [], .armDecision 1 []]
def sof (s : State) := controlBlock 0x17 (s.epo.k % 2^24 * 2^32 + s.laneClaim)
def ech := controlBlock 0x4D 0
def rpt (s : State) (lane st v : Nat) : Nat := let x := (1 * 2^52 + st * 2^48 + v * 2^32); x + blockCrc x lane (s.epo.k % 256)
def upf (s : State) (lane st v : Nat) : List (List (Nat × Nat)) := let ps := [sof s, ech, rpt s lane st v]; [[(2, sof s)],[(2, ech)],[(1,
    rpt s lane st v)],[(2, eofPayload ps)]]

theorem witness_UplinkFrameReports :
    (∃ (s : State), ∃ (lane : Fin 96), ∃ (e : LaneEntry), ∃ (rows : List (List (Nat × Nat))), ∃ (te : Nat), ∃ (tz : Nat), Sound s
        ∧ s.bs.laneEntry ↑lane = some e ∧ s.laneUp ↑lane = false)
      ∧ (∃ (s : State), ∃ (lane : Fin 96), ∃ (e : LaneEntry),
        ∃ (rows : List (List (Nat × Nat))), ∃ (te : Nat), ∃ (tz : Nat), Sound s ∧ s.bs.laneEntry ↑lane = some e ∧ s.laneUp ↑lane = true
        ∧ splitFrame (readRows e (s.rd Reg.LANE_STAT.far_tx ↑lane) rows) = none)
      ∧ (∃ (s : State), ∃ (lane : Fin 96), ∃ (e : LaneEntry),
        ∃ (rows : List (List (Nat × Nat))), ∃ (te : Nat), ∃ (tz : Nat), Sound s ∧ s.bs.laneEntry ↑lane = some e ∧ ∃ (sof : Nat), ∃ (ech : Nat),
        ∃ (b : Nat), ∃ (eof : Nat), ∃ (c : CellEntry), s.laneUp ↑lane = true
        ∧ splitFrame (readRows e (s.rd Reg.LANE_STAT.far_tx ↑lane) rows) = some (sof, ech, [b], eof) ∧ eof / 2 ^ 40 % 2 ^ 16 = 3
        ∧ eof % 2 ^ 32 = framesCrc [sof, ech, b] ∧ sof % 2 ^ 32 = s.laneClaim ∧ sof / 2 ^ 32 % 2 ^ 24 = s.epo.k % 2 ^ 24 ∧ b / 2 ^ 56 = 0
        ∧ b / 2 ^ 52 % 16 = 1 ∧ b % 256 = blockCrc b (↑lane) (s.epo.k % 2 ^ 24 % 256) ∧ s.epo.k % e.detail ≠ 0 % e.detail
        ∧ tz + e.guard < (s.seamAt (s.epo.k + 1)).fst ∧ s.cellAt (↑lane) 0 = some c) :=
  ⟨⟨base, 0, (laneE 0 2 .none 1), [], 1, 1, sound_of (by decide +kernel), by decide +kernel⟩,
    ⟨up0, 0, (laneE 0 2 .none 1), [], 0, 0, sound_of (by decide +kernel), by decide +kernel⟩,
    ⟨dec, 0, (laneE 0 2 .none 1), upf dec 0 5 77, 1, 1, sound_of (by decide +kernel), by decide +kernel, sof dec, ech, rpt dec 0 5 77,
      eofPayload [sof dec, ech, rpt dec 0 5 77], cellE 0 false 0 0 0, by decide +kernel⟩⟩

end Uplink

/-! ### The control fabric -/

namespace FabricJobs

def en (s : State) : State := { wrs s [(Reg.FAB_CTRL.running,0,1),(Reg.EPO_LEN.cycles,0,12500),(Reg.FAB_GRAPH_STAT.state,0,1)] with fab := { s.fab with graphs := [(0, { GraphRt.clear with enabled := true, state := 1 }),(1, { GraphRt.clear with enabled := true, state := 1 }),(2, { GraphRt.clear with enabled := true, state := 1 }),(3, { GraphRt.clear with enabled := true, state := 1 })] } }
def f0 := en base
def sel (s : State) (g : Nat) := wrs s [(Reg.FAB_GRAPH_SEL.graph,0,g)]
def r0 := ex (sel f0 0) [.hostRelease]
def adv (s : State) (n : Nat) : State := { s with clk := { s.clk with count := s.clk.count + n } }
def r1 := ex r0 [.opDispatch]
def r2 := ex (adv r1 5) [.opComplete 0 [] 0, .opComplete 1 [] 0, .opComplete 2 [] 0, .opComplete 3 [] 0]
def r3a := ex (adv r2 300) [.opDispatch]
def r3 := ex (adv r3a 9) [.opComplete 0 [] 0, .opComplete 1 [] 0, .opComplete 2 [] 0, .opComplete 3 [] 0]
def r4a := ex (adv r3 300) [.opDispatch]
def r4 := ex (adv r4a 9) [.opComplete 0 [] 0, .opComplete 1 [] 0, .opComplete 2 [] 0, .opComplete 3 [] 0]
def disp4 : State := { r0 with fab := { r0.fab with dispatched := (r0.clk.count, [1,2,3,4]) } }
def delayd : State := { r0 with fab := { r0.fab with nextTick := 40000, seamCycle := 31250, delays := [(35000, .item 0 0 1 ⟨fOne,false⟩)] } }
def spc : State := { f0 with fab := { f0.fab with space := [⟨g3, 31200, none, false⟩,⟨g0,31201,some 40000,false⟩] } }
def onep : State := { r4 with fab := { r4.fab with jobs := r4.fab.jobs.map (fun j => { j with effs := [.point 0x4200 ⟨fOne,false⟩ false] }) } }
def gx : GraphEntry := gr 0 false .host [⟨0, .srcPoint [.cell 1 20]⟩, ⟨2, .snkPoint [(0x4200, true)]⟩] [⟨0,0,2,0⟩]
def fx : State := { f0 with bs := { f0.bs with fabric := { f0.bs.fabric with graphs := [gx, g1, g2, g3] } } }
def x1 := ex (sel fx 0) [.hostRelease]
def x2 := ex x1 [.opDispatch]
def dl : State := { r2 with arb := { r2.arb with reqs := r2.arb.reqs } }

theorem witness_HostReleaseStartsJob :
    (∃ (s : State), ∃ (e : GraphEntry), Sound s ∧ HostUp s ∧ s.bs.graphEntry (s.rd Reg.FAB_GRAPH_SEL.graph 0) = some e
        ∧ (s.graph (s.rd Reg.FAB_GRAPH_SEL.graph 0)).enabled = true ∧ e.trigger = Trigger.host
        ∧ s.red.holdGraphs.contains (s.rd Reg.FAB_GRAPH_SEL.graph 0) = false ∧ s.graphUsable e = true
        ∧ s.graphBusy (s.rd Reg.FAB_GRAPH_SEL.graph 0) = false ∧ e.flow = none ∧ s.hasSpace e = true)
      ∧ (∃ (s : State), ∃ (e : GraphEntry),
        Sound s ∧ HostUp s ∧ s.bs.graphEntry (s.rd Reg.FAB_GRAPH_SEL.graph 0) = some e ∧ (s.graph (s.rd Reg.FAB_GRAPH_SEL.graph 0)).enabled = true
        ∧ e.trigger = Trigger.host ∧ s.red.holdGraphs.contains (s.rd Reg.FAB_GRAPH_SEL.graph 0) = false ∧ s.graphUsable e = true
        ∧ s.graphBusy (s.rd Reg.FAB_GRAPH_SEL.graph 0) = true)
      ∧ (∃ (s : State), ∃ (e : GraphEntry), Sound s ∧ HostUp s
        ∧ s.bs.graphEntry (s.rd Reg.FAB_GRAPH_SEL.graph 0) = some e ∧ (s.graph (s.rd Reg.FAB_GRAPH_SEL.graph 0)).enabled = true
        ∧ e.trigger ≠ Trigger.host) :=
  ⟨⟨mirr f0, g0, sound_of (by decide +kernel), by decide +kernel⟩,
    ⟨mirr r4, g0, sound_of (by decide +kernel), by decide +kernel⟩,
    ⟨sel f0 1, g1, sound_of (by decide +kernel), by decide +kernel⟩⟩

theorem witness_SchedulerRunsOperations :
    (∃ (s : State), Sound s ∧ ∃ (j : Job), ∃ (o : OpEntry), ∃ (n : Nat), s.choice = some (j, o, n) ∧ ¬(s.fab.dispatched.fst = s.clk.count
        ∧ 4 ≤ s.fab.dispatched.snd.length))
      ∧ (∃ (s : State), Sound s ∧ s.fab.dispatched.fst = s.clk.count
        ∧ 4 ≤ s.fab.dispatched.snd.length)
      ∧ (∃ (s : State), Sound s ∧ ∃ (n : Fin 64), ∃ (r : Run), ∃ (errs : List (Nat × Nat)),
        ∃ (copy : Fin 3), (s.engine n.val).run = some r ∧ s.fab.again = []
        ∧ (r.op.kind.reads.any fun (p : PointKey) => (s.benchMissing p).isSome) = true)
      ∧ (∃ (s : State), Sound s ∧ ∃ (n : Fin 64),
        ∃ (r : Run), ∃ (j : Job), ∃ (copy : Fin 3), (s.engine n.val).run = some r ∧ s.fab.again = [] ∧ s.job r.graph = some j ∧ j.id = r.id
        ∧ (∀ (x : Nat), r.op.kind ≠ OpKind.delay x) ∧ (r.op.kind.reads.any fun (p : PointKey) => (s.benchMissing p).isSome) = false)
        ∧ (∃ (s : State), Sound s ∧ s.fab.nextTick < s.fab.seamCycle + s.rd Reg.EPO_LEN.cycles 0 ∧ s.fab.again = [] ∧ ∀ (d : Nat × Delayed),
        d ∈ s.fab.delays → s.fab.nextTick < d.fst)
      ∧ (∃ (s : State), Sound s ∧ ∃ (w : Nat), ∃ (g : Nat), ∃ (id : Nat), ∃ (op : Nat),
        ∃ (p : Pt), ∃ (j : Job), s.fab.nextTick < s.fab.seamCycle + s.rd Reg.EPO_LEN.cycles 0 ∧ s.fab.delays = [(w, Delayed.item g id op p)]
        ∧ s.fab.again = [] ∧ w ≤ s.fab.nextTick ∧ s.job g = some j ∧ j.id = id) :=
  ⟨⟨mirr r0, sound_of (by decide +kernel),
      { g := g0, id := 0, released := 31250, deadline := some 32150, items := [], begun := [], ended := [], effs := [], taken := 0 },
      { num := 0, kind := OpKind.srcConst 1065353216 }, 0, by decide +kernel⟩,
    ⟨disp4, sound_of (by decide +kernel), by decide +kernel⟩,
    ⟨x2, sound_of (by decide +kernel), 0,
      { graph := 0, id := 0, op := { num := 0, kind := OpKind.srcPoint [PointKey.cell 1 20] }, ins := [], start := 31251, got := none }, [], 2,
      by decide +kernel⟩,
    ⟨r1, sound_of (by decide +kernel), 0, ⟨0, 0, ⟨0, .srcConst 1065353216⟩, [], 31251, none⟩, ⟨g0, 0, 31250, some 32150, [], [0], [], [], 0⟩,
      0, by decide +kernel, by decide +kernel, by decide +kernel, by decide +kernel, (fun _ h => nomatch h), by decide +kernel⟩,
    ⟨x1, sound_of (by decide +kernel), by decide +kernel⟩,
    ⟨delayd, sound_of (by decide +kernel), 35000, 0, 0, 1, { v := 1065353216, bad := false },
      { g := g0, id := 0, released := 31250, deadline := some 32150, items := [], begun := [], ended := [], effs := [], taken := 0 },
      by decide +kernel⟩⟩

theorem witness_JobsCommitOrMiss :
    (∃ (s : State), ∃ (g : Fin 128), Sound s ∧ ∃ (j : Job), ∃ (a : Nat), ∃ (p : Pt), s.job ↑g = some j ∧ j.done = true ∧ (∀ (d : Nat),
        j.deadline = some d → s.clk.count < d) ∧ j.effs = [Effect.point a p false] ∧ p.bad = false ∧ j.g.flow = none ∧ j.g.trigger = Trigger.host
        ∧ a ≠ 8192 + ↑g)
      ∧ (∃ (s : State), ∃ (g : Fin 128), Sound s ∧ ∃ (j : Job), ∃ (d : Nat), s.job ↑g = some j ∧ j.deadline = some d
        ∧ j.g.flow = none ∧ j.g.trigger = Trigger.host ∧ s.fab.again = [])
      ∧ (∃ (s : State), ∃ (g : Fin 128), Sound s ∧ ∃ (w : Waiting),
        List.find? (fun (w : Waiting) => w.graph == ↑g) s.fab.space = some w ∧ s.hasSpace w.g = true ∧ s.graphUsable w.g = true ∧ w.g.flow = none) :=
  ⟨⟨onep, 0, sound_of (by decide +kernel),
      { g := g0, id := 0, released := 31250, deadline := some 32150, items := [], begun := [0, 1, 2], ended := [0, 1, 2], effs := [Effect.point 16896 { v := 1065353216, bad := false } false], taken := 0 },
      16896, { v := 1065353216, bad := false }, by decide +kernel⟩,
    ⟨dl, 0, sound_of (by decide +kernel),
      { g := g0, id := 0, released := 31250, deadline := some 32150, items := [(1, 0, { v := 1065353216, bad := false }, 31255)], begun := [0], ended := [0], effs := [], taken := 0 },
      32150, by decide +kernel⟩,
    ⟨spc, 3, sound_of (by decide +kernel), { g := g3, released := 31200, deadline := none, waited := false }, by decide +kernel⟩⟩

end FabricJobs

/-! ### The reaction matrix -/

namespace Matrix

def rxs : State := { base with bs := { base.bs with reaction := ⟨[⟨8, 0, false, [.tripOut 0]⟩, ⟨9, 2, true, [.tripOut 1]⟩, ⟨577, 0, true, [.prioBlock 0]⟩], [(0, true)]⟩ } }
def lv (s : State) (n : Nat) (l q : Bool) : State := { s with conds := tabMod Cond.clear s.conds n (fun c => { c with level := l, qualified := q }) }
def tr (s : State) (m l : Nat) := wrs s [(Reg.FAB_TRIP_OUT.latched,0,m),(Reg.FAB_TRIP_OUT.state,0,m),(Reg.FAB_TRIP_OUT.latch_mode,0,l)]
def acted (s : State) (l : List (Action × Nat)) (c : Nat) : State := { s with fab := { s.fab with acted := (c, l) } }

theorem witness_ReactionMatrixActs :
    (∃ (s : State), ∃ (n : Fin 1024), ∃ (pin : Fin 8), Sound s ∧ s.reacts = true ∧ reservedCondition n.val = false ∧ oneCycle n.val = false
        ∧ (s.cond n.val).qualified = false ∧ (s.cond n.val).level = true ∧ s.actions n.val = [Action.tripOut ↑pin]
        ∧ s.bitAt Reg.FAB_TRIP_OUT.state 0 ↑pin = false ∧ ∀ (x : Action × Nat),
        x ∈ s.fab.acted.snd → s.fab.acted.fst = s.clk.count → x.fst = Action.tripOut ↑pin → x.snd = n.val)
      ∧ (∃ (s : State),
        ∃ (n : Fin 1024), ∃ (pin : Fin 8), Sound s ∧ ∃ (m : Nat), s.reacts = true ∧ reservedCondition n.val = false ∧ oneCycle n.val = false
        ∧ (s.cond n.val).qualified = false ∧ (s.cond n.val).level = true ∧ s.actions n.val = [Action.tripOut ↑pin] ∧ s.fab.acted.fst = s.clk.count
        ∧ (Action.tripOut ↑pin, m) ∈ s.fab.acted.snd ∧ m ≠ n.val ∧ s.bitAt Reg.FAB_TRIP_OUT.state 0 ↑pin = true)
      ∧ (∃ (s : State), Sound s
        ∧ ∃ (conds : List (Fin 1024)), s.reacts = true ∧ conds.Nodup ∧ ∀ (c : Fin 1024), c ∈ conds → reservedCondition ↑c = false
        ∧ oneCycle ↑c = false ∧ (s.cond ↑c).qualified = false ∧ (s.cond ↑c).level = true ∧ s.actions ↑c = [])
      ∧ (∃ (s : State),
        ∃ (n : Fin 1024), ∃ (pin : Fin 8), Sound s ∧ (s.cond n.val).qualified = true ∧ (s.cond n.val).level = false
        ∧ s.actions n.val = [Action.tripOut ↑pin] ∧ s.bitAt Reg.FAB_TRIP_OUT.latched 0 ↑pin = false ∧ ∀ (e : CondEntry),
        e ∈ s.bs.reaction.conds → e.cond ≠ n.val → (s.cond e.cond).qualified = false)
      ∧ (∃ (s : State), ∃ (pin : Fin 8), Sound s ∧ HostUp s
        ∧ s.bitAt Reg.FAB_TRIP_OUT.latched 0 ↑pin = true ∧ (s.wired fun (a : Action) => a == Action.tripOut ↑pin) = none)
      ∧ (∃ (s : State),
        ∃ (pin : Fin 8), Sound s ∧ ∃ (c : Nat), HostUp s ∧ s.bitAt Reg.FAB_TRIP_OUT.latched 0 ↑pin = true
        ∧ (s.wired fun (a : Action) => a == Action.tripOut ↑pin) = some c)
      ∧ (∃ (s : State), Sound s ∧ ∃ (m : Fin 16), HostUp s
        ∧ s.bitAt Reg.FAB_PRIO_STAT.blocked 0 ↑m = true ∧ (s.wired fun (a : Action) => a == Action.prioBlock ↑m) = none)
      ∧ (∃ (s : State),
        Sound s ∧ ∃ (h : Fin 8), HostUp s) :=
  ⟨⟨lv rxs 8 true false, 8, 0, sound_of (by decide +kernel), by decide +kernel⟩,
    ⟨acted (tr (lv rxs 8 true false) 1 0) [(.tripOut 0, 2)] 31250, 8, 0, sound_of (by decide +kernel), 2, by decide +kernel⟩,
    ⟨lv rxs 8 false true, sound_of (by decide +kernel), [], by decide +kernel⟩,
    ⟨lv rxs 8 false true, 8, 0, sound_of (by decide +kernel), by decide +kernel⟩,
    ⟨tr (lv rxs 9 false true) 3 1, 0, sound_of (by decide +kernel), by decide +kernel⟩,
    ⟨tr (lv rxs 8 true true) 1 0, 0, sound_of (by decide +kernel), 8, by decide +kernel⟩,
    ⟨wrs rxs [(Reg.FAB_PRIO_STAT.blocked,0,1)], sound_of (by decide +kernel), 0, by decide +kernel⟩,
    ⟨acted (lv rxs 8 true false) [(.tripOut 0, 5)] 31250, sound_of (by decide +kernel), 1, by decide +kernel⟩⟩

end Matrix

/-! ### Orders and references -/

namespace Orders

def fm (s : State) : State := { wrs s [(Reg.ORD_CTRL.enable,0,1),(Reg.ORD_CTRL.ramp_div,0,0),(Reg.EPO_LEN.cycles,0,12500)] with ord := { s.ord with lastTick := some 9, ramps := [] } }
def o0 := fm base
def d (n : Nat) : Nat := f32To64 n
def rp (s : State) (f : RampRt → RampRt) : State := { s with ord := { s.ord with ramps := tabMod RampRt.clear s.ord.ramps 0 f } }
def par0 : RampPar := ⟨fBig, 0, 0, fOne, fBig, fBig, fBig, fBig, 0xC47A0000, fBig⟩
def mv := rp o0 (fun r => { r with x := 0, v := d fOne, state := 2, target := fBig, par := par0, vc := fOne, dec1 := fBig, dec2 := fBig })
def near := rp o0 (fun r => { r with x := d 0x3F800000, v := d fBig, state := 3, target := 0x3F800100, par := par0, vstop := fBig, vc := fOne, dec1 := fBig, dec2 := fBig })
def inx (s : State) (i m : Nat) (l : Option Nat) : State := { s with ord := { s.ord with inputs := tabMod InputRt.clear s.ord.inputs i (fun x => { x with mode := m, filt := 3, loss := l, count := 2^64-1, rises := [5,4] }) } }
def gn (s : State) (h : Option Nat) : State := { s with ord := { s.ord with gens := tabMod GenRt.clear s.ord.gens 0 (fun x => { x with mode := 2, holdover := h, prev := some (5,99) }) } }
def tb (s : State) (i b : Nat) := wrs s [(Reg.ORD_TBL_ADDR.index,0,i),(Reg.ORD_TBL_ADDR.auto_inc,0,b),(Reg.ORD_TBL_SEL.table,0,1),(Reg.ORD_TBL_CTRL.bank,0,2*b)]
def stg : State := { tb base 3 1 with cfg := { base.cfg with staged := some ⟨[.shape 1 [1,2]], 0, 0, [], 12, false⟩ } }
def heldI (s : State) : State := { s with bs := { s.bs with resources := [⟨1, 0, .graph 2⟩, ⟨1, 1, .host⟩] } }

theorem witness_RampTickMoves :
    (∃ (s : State), ∃ (e : RampEntry), Sound s ∧ (s.bs.orders.ramps = [e] ∧ e.follow = none ∧ e.ramp < 32 ∧ s.ordRuns = true
        ∧ s.epo.k % (s.rd Reg.ORD_CTRL.ramp_div 0 + 1) = 0 ∧ s.ord.lastTick ≠ some s.epo.k)
        ∧ ((s.ramp e.ramp).state = 0 ∨ (s.ramp e.ramp).state = 5))
      ∧ (∃ (s : State), ∃ (e : RampEntry), Sound s ∧ (s.bs.orders.ramps = [e]
        ∧ e.follow = none ∧ e.ramp < 32 ∧ s.ordRuns = true ∧ s.epo.k % (s.rd Reg.ORD_CTRL.ramp_div 0 + 1) = 0 ∧ s.ord.lastTick ≠ some s.epo.k)
        ∧ (s.ramp e.ramp).state ≠ 0 ∧ (s.ramp e.ramp).state ≠ 5 ∧ ¬(fLt f64 0 ((s.ramp e.ramp).remaining (s.ramp e.ramp).target) = true
        ∧ fLe f64 (signed64 (s.ramp e.ramp).neg (fSub f64 (f32To64 (s.ramp e.ramp).target) (fAdd f64 (s.ramp e.ramp).x (fMul f64 (signed64 (s.ramp
            e.ramp).neg
            ({ x := (s.ramp e.ramp).x, v := (s.ramp e.ramp).v, neg := (s.ramp e.ramp).neg, state := (s.ramp e.ramp).state, target := (s.ramp e.ramp).target, par := (s.ramp e.ramp).par, vstart := (s.ramp e.ramp).vstart, vstop := (s.ramp e.ramp).vstop, vc := (s.ramp e.ramp).vc, dec1 := (s.ramp e.ramp).dec1, dec2 := (s.ramp e.ramp).dec2, deferred := (s.ramp e.ramp).deferred, status := (s.ramp e.ramp).status, tag := (s.ramp e.ramp).tag, refusals := (s.ramp e.ramp).refusals, clamped := false : RampRt }.accelerate s.rampStep ((s.ramp e.ramp).remaining (s.ramp e.ramp).target)).v) s.rampStep)))) 0 = true)
        ∧ ¬(fOrd f64
            ({ x := (s.ramp e.ramp).x, v := (s.ramp e.ramp).v, neg := (s.ramp e.ramp).neg, state := (s.ramp e.ramp).state, target := (s.ramp e.ramp).target, par := (s.ramp e.ramp).par, vstart := (s.ramp e.ramp).vstart, vstop := (s.ramp e.ramp).vstop, vc := (s.ramp e.ramp).vc, dec1 := (s.ramp e.ramp).dec1, dec2 := (s.ramp e.ramp).dec2, deferred := (s.ramp e.ramp).deferred, status := (s.ramp e.ramp).status, tag := (s.ramp e.ramp).tag, refusals := (s.ramp e.ramp).refusals, clamped := false : RampRt }.accelerate s.rampStep ((s.ramp e.ramp).remaining (s.ramp e.ramp).target)).v = fOrd f64 (f32To64 ({ x := (s.ramp e.ramp).x, v := (s.ramp e.ramp).v, neg := (s.ramp e.ramp).neg, state := (s.ramp e.ramp).state, target := (s.ramp e.ramp).target, par := (s.ramp e.ramp).par, vstart := (s.ramp e.ramp).vstart, vstop := (s.ramp e.ramp).vstop, vc := (s.ramp e.ramp).vc, dec1 := (s.ramp e.ramp).dec1, dec2 := (s.ramp e.ramp).dec2, deferred := (s.ramp e.ramp).deferred, status := (s.ramp e.ramp).status, tag := (s.ramp e.ramp).tag, refusals := (s.ramp e.ramp).refusals, clamped := false : RampRt }.accelerate s.rampStep ((s.ramp e.ramp).remaining (s.ramp e.ramp).target)).vstop)
        ∧ (({ x := (s.ramp e.ramp).x, v := (s.ramp e.ramp).v, neg := (s.ramp e.ramp).neg, state := (s.ramp e.ramp).state, target := (s.ramp e.ramp).target, par := (s.ramp e.ramp).par, vstart := (s.ramp e.ramp).vstart, vstop := (s.ramp e.ramp).vstop, vc := (s.ramp e.ramp).vc, dec1 := (s.ramp e.ramp).dec1, dec2 := (s.ramp e.ramp).dec2, deferred := (s.ramp e.ramp).deferred, status := (s.ramp e.ramp).status, tag := (s.ramp e.ramp).tag, refusals := (s.ramp e.ramp).refusals, clamped := false : RampRt }.accelerate s.rampStep ((s.ramp e.ramp).remaining (s.ramp e.ramp).target)).state = 4 ∨ fLe f64 ((s.ramp e.ramp).remaining (s.ramp e.ramp).target) 0 = true)))
        ∧ (∃ (s : State), ∃ (e : RampEntry), Sound s ∧ (s.bs.orders.ramps = [e] ∧ e.follow = none ∧ e.ramp < 32 ∧ s.ordRuns = true
        ∧ s.epo.k % (s.rd Reg.ORD_CTRL.ramp_div 0 + 1) = 0 ∧ s.ord.lastTick ≠ some s.epo.k) ∧ (s.ramp e.ramp).state ≠ 0
        ∧ (s.ramp e.ramp).state ≠ 5 ∧ fLt f64 0 ((s.ramp e.ramp).remaining (s.ramp e.ramp).target) = true
        ∧ fLe f64 (signed64 (s.ramp e.ramp).neg (fSub f64 (f32To64 (s.ramp e.ramp).target) (fAdd f64 (s.ramp e.ramp).x (fMul f64 (signed64 (s.ramp
            e.ramp).neg
            ({ x := (s.ramp e.ramp).x, v := (s.ramp e.ramp).v, neg := (s.ramp e.ramp).neg, state := (s.ramp e.ramp).state, target := (s.ramp e.ramp).target, par := (s.ramp e.ramp).par, vstart := (s.ramp e.ramp).vstart, vstop := (s.ramp e.ramp).vstop, vc := (s.ramp e.ramp).vc, dec1 := (s.ramp e.ramp).dec1, dec2 := (s.ramp e.ramp).dec2, deferred := (s.ramp e.ramp).deferred, status := (s.ramp e.ramp).status, tag := (s.ramp e.ramp).tag, refusals := (s.ramp e.ramp).refusals, clamped := false : RampRt }.accelerate s.rampStep ((s.ramp e.ramp).remaining (s.ramp e.ramp).target)).v) s.rampStep)))) 0 = true)
        ∧ (∃ (s : State), Sound s ∧ (s.ordRuns = false ∨ s.ord.lastTick = some s.epo.k))
      ∧ (∃ (s : State), Sound s ∧ ∃ (engines : Nat),
        HostUp s) :=
  ⟨⟨heldI o0, ramp0, sound_of (by decide +kernel), by decide +kernel⟩,
    ⟨mv, ramp0, sound_of (by decide +kernel), by decide +kernel⟩,
    ⟨near, ramp0, sound_of (by decide +kernel), by decide +kernel⟩,
    ⟨up, sound_of (by decide +kernel), by decide +kernel⟩,
    ⟨heldI o0, sound_of (by decide +kernel), 8, by decide +kernel⟩⟩

theorem witness_OrderInputEdges :
    (∃ (s : State), ∃ (i : Fin 8), Sound s ∧ ∃ (v : Nat), HostUp s ∧ v % 2 ^ 3 ≤ 4 ∧ v / 2 ^ 12 % 2 ^ 8 ≠ 0
        ∧ (v % 2 ^ 3 < 2 ∨ s.heldBy 1 ↑i = none))
      ∧ (∃ (s : State), Sound s ∧ ∃ (v : Nat), HostUp s
        ∧ (4 < v % 2 ^ 3 ∨ v / 2 ^ 12 % 2 ^ 8 = 0))
      ∧ (∃ (s : State), ∃ (i : Fin 8), Sound s ∧ ∃ (v : Nat), HostUp s ∧ 2 ≤ v % 2 ^ 3
        ∧ v % 2 ^ 3 ≤ 4 ∧ v / 2 ^ 12 % 2 ^ 8 ≠ 0 ∧ (s.heldBy 1 ↑i).isSome = true)
      ∧ (∃ (s : State), ∃ (i : Fin 8), Sound s
        ∧ s.ordRuns = true ∧ 2 ≤ (s.input ↑i).mode ∧ (s.input ↑i).mode ≤ 4 ∧ (s.input ↑i).loss = none)
      ∧ (∃ (s : State), ∃ (i : Fin 8),
        Sound s ∧ ∃ (k : Nat), ∃ (rising : Bool), s.ordRuns = true ∧ 2 ≤ (s.input ↑i).mode ∧ (s.input ↑i).mode ≤ 4
        ∧ (s.input ↑i).loss = some k)
      ∧ (∃ (s : State), ∃ (i : Fin 8), Sound s ∧ (s.ordRuns = false ∨ (s.input ↑i).mode < 2))
        ∧ (∃ (s : State), ∃ (i : Fin 8), Sound s ∧ s.ordRuns = true ∧ 2 ≤ (s.input ↑i).mode ∧ (s.input ↑i).mode ≤ 4 ∧ (s.input ↑i).loss = none
        ∧ s.fab.again = []) :=
  ⟨⟨heldI o0, 2, sound_of (by decide +kernel), 20642, by decide +kernel⟩,
    ⟨heldI o0, sound_of (by decide +kernel), 8, by decide +kernel⟩,
    ⟨heldI o0, 0, sound_of (by decide +kernel), 20642, by decide +kernel⟩,
    ⟨inx o0 0 2 none, 0, sound_of (by decide +kernel), by decide +kernel⟩,
    ⟨inx o0 1 3 (some 8), 1, sound_of (by decide +kernel), 8, true, by decide +kernel⟩,
    ⟨heldI o0, 2, sound_of (by decide +kernel), by decide +kernel⟩,
    ⟨inx o0 0 2 none, 0, sound_of (by decide +kernel), by decide +kernel⟩⟩

theorem witness_GeneratorsAndShapeTables :
    (∃ (s : State), ∃ (g : Fin 16), Sound s ∧ ∃ (e : GenEntry), List.find? (fun (e : GenEntry) => e.gen == ↑g) s.bs.orders.gens = some e
        ∧ s.ordRuns = true ∧ (s.gen ↑g).mode = 2 ∧ (s.gen ↑g).holdover = none ∧ s.clk.reached (((s.gen ↑g).since + e.hold) % 2 ^ 64) = true)
        ∧ (∃ (s : State), ∃ (g : Fin 16), Sound s ∧ ∃ (e : GenEntry), List.find? (fun (e : GenEntry) => e.gen == ↑g) s.bs.orders.gens = some e
        ∧ s.ordRuns = true ∧ (s.gen ↑g).mode = 2 ∧ (s.gen ↑g).holdover = none ∧ s.fab.again = [])
      ∧ (∃ (s : State), ∃ (g : Fin 16), Sound s
        ∧ ∃ (e : GenEntry), List.find? (fun (e : GenEntry) => e.gen == ↑g) s.bs.orders.gens = some e ∧ s.ordRuns = true ∧ (s.gen ↑g).mode = 2
        ∧ (s.gen ↑g).holdover = none)
      ∧ (∃ (s : State), Sound s ∧ HostUp s ∧ s.shapeStaged (s.rd Reg.ORD_TBL_SEL.table 0) = false)
        ∧ (∃ (s : State), Sound s ∧ HostUp s)
      ∧ (∃ (s : State), Sound s ∧ HostUp s ∧ s.shapeStaged (s.rd Reg.ORD_TBL_SEL.table 0) = true) :=
  ⟨⟨gn o0 none, 0, sound_of (by decide +kernel), gen0, by decide +kernel⟩,
    ⟨gn o0 none, 0, sound_of (by decide +kernel), gen0, by decide +kernel⟩,
    ⟨gn o0 none, 0, sound_of (by decide +kernel), gen0, by decide +kernel⟩,
    ⟨heldI o0, sound_of (by decide +kernel), by decide +kernel⟩,
    ⟨heldI o0, sound_of (by decide +kernel), by decide +kernel⟩,
    ⟨stg, sound_of (by decide +kernel), by decide +kernel⟩⟩

end Orders

/-! ### Measurement -/

namespace Measuring

def a0 := ex (wrs base [(Reg.ADC_CTRL.enable,0,1),(Reg.ADC_CTRL.bg_cal,0,1),(Reg.ADC_CORE_CTRL.reg_len,0,1),(Reg.ADC_CORE_CTRL.inj_len,0,2),(Reg.ADC_SV_MAP.enable,0,1),(Reg.EPO_LEN.cycles,0,12500)]) []
def co (s : State) (c : Nat) (f : CoreRt → CoreRt) : State := { s with adc := { s.adc with cores := tabMod CoreRt.clear s.adc.cores c f } }
def ca (s : State) (f : SysCal → SysCal) : State := { s with adc := { s.adc with cal := f s.adc.cal } }
def mm (s : State) (m : Nat) := co s 0 (fun x => { x with mode := m })
def sq (i r : Nat) (l : Bool) : SeqEntry := ⟨i, 0, r, l, 0, 0, 0⟩
def runr (m : Nat) (l rl : Bool) (bz : Option (Nat × SeqEntry)) (r : Nat) := co (mm a0 m) 0 (fun x => { x with running := true, entries := [sq 0 r l, sq 1 r l], pos := 0, lead := rl, busy := bz, next := 31250 })
def m1 := mm a0 1
def q4 := co m1 0 (fun x => { x with next := 31250, queue := [(0,4),(1,5),(0,6),(1,7)] })
def calA (stp : Nat) (v0 : Option Nat) (sum n : Nat) := ca (wrs (runr 1 false false none 1) [(Reg.ADC_SYSCAL_REF.x_fs,0,0x41200000)]) (fun c => {c with active := true, want := 2, n := n, sum := sum, step := stp, v0 := v0, gain := 0 })
def f64_ (n : Nat) := f32To64 n
def svf (r : Nat) (c : Nat) : SvFrame := ⟨0x4000 - 0x4000 + 1 - 1 + 0, 0x4000, [65,66], r, false, 777, [⟨c, 2, [(55, 0)]⟩]⟩
def subd (s : State) : State := { s with adc := { s.adc with subs := [(0, { SvRt.clear with last := some 5 })] } }
def trg (s : State) (n p : Nat) : State := co (wrs s [(Reg.ADC_CORE_CTRL.reg_trig,0,n)]) 0 (fun x => { x with param := p })
def itr (s : State) (n : Nat) : State := wrs s [(Reg.ADC_SEQ_ENTRY.trigger,16,n),(Reg.ADC_SEQ_ENTRY.trigger,17,n),(Reg.ADC_SEQ_ENTRY.input,17,1)]
def fo : Forming := ⟨sq 0 1 false, 0, false, false, false, 0, 31210, 1⟩
def frm (l : List Forming) := co m1 0 (fun x => { x with forming := l })
def fullSv : State := { wrs a0 [(Reg.ADC_SV_MAP.enable,0,1)] with adc := { a0.adc with held := List.replicate 64 (0, 9) }, arb := { a0.arb with reqs := [⟨85, 0, 8, 31250, some 9⟩] } }
def dueSv : State := { subd (wrs a0 [(Reg.ADC_SV_MAP.enable,0,1)]) with clk := { base.clk with count := 400000000000 } }

theorem witness_ConversionSequences :
    (∃ (s : State), ∃ (c : Fin 4), Sound s ∧ ∃ (n : Nat), n ≠ ↑c)
      ∧ (∃ (s : State), Sound s)
      ∧ (∃ (s : State), ∃ (c : Fin 4),
        Sound s ∧ ∃ (source : RegSource), (source ≠ RegSource.host ∨ HostUp s ∧ s.heldBy 3 ↑c = none) ∧ s.coreRuns ↑c = true
        ∧ ((s.coreAdvance (↑c) s.clk.count).core ↑c).mode ≠ 0 ∧ (s.coreAdvance (↑c) s.clk.count).regFires (↑c) source = true
        ∧ ((s.coreAdvance (↑c) s.clk.count).core ↑c).running = false)
      ∧ (∃ (s : State), ∃ (c : Fin 4), Sound s ∧ ∃ (source : RegSource),
        (source ≠ RegSource.host ∨ HostUp s ∧ s.heldBy 3 ↑c = none) ∧ s.coreRuns ↑c = true ∧ ((s.coreAdvance (↑c) s.clk.count).core ↑c).mode ≠ 0
        ∧ (s.coreAdvance (↑c) s.clk.count).regFires (↑c) source = true ∧ ((s.coreAdvance (↑c) s.clk.count).core ↑c).running = true)
        ∧ (∃ (s : State), ∃ (c : Fin 4), Sound s ∧ ∃ (source : RegSource), (source ≠ RegSource.host ∨ HostUp s ∧ s.heldBy 3 ↑c = none)
        ∧ (s.coreRuns ↑c = false ∨ ((s.coreAdvance (↑c) s.clk.count).core ↑c).mode = 0 ∨ (s.coreAdvance (↑c) s.clk.count).regFires (↑c) source = false))
        ∧ (∃ (s : State), ∃ (c : Fin 4), Sound s ∧ ∃ (e : Fin 4), ∃ (source : InjSource), (source ≠ InjSource.host ∨ HostUp s)
        ∧ s.coreRuns ↑c = true ∧ ((s.coreAdvance (↑c) s.clk.count).core ↑c).mode = 1 ∧ ↑e < s.rd Reg.ADC_CORE_CTRL.inj_len ↑c
        ∧ (s.coreAdvance (↑c) s.clk.count).injFires (↑c) (↑e) source = true ∧ ((s.coreAdvance (↑c) s.clk.count).core ↑c).queue.length < 4)
        ∧ (∃ (s : State), ∃ (c : Fin 4), Sound s ∧ ∃ (e : Fin 4), ∃ (source : InjSource), (source ≠ InjSource.host ∨ HostUp s)
        ∧ s.coreRuns ↑c = true ∧ ((s.coreAdvance (↑c) s.clk.count).core ↑c).mode = 1 ∧ ↑e < s.rd Reg.ADC_CORE_CTRL.inj_len ↑c
        ∧ (s.coreAdvance (↑c) s.clk.count).injFires (↑c) (↑e) source = true ∧ 4 ≤ ((s.coreAdvance (↑c) s.clk.count).core ↑c).queue.length)
        ∧ (∃ (s : State), ∃ (c : Fin 4), Sound s ∧ ∃ (e : Nat), ∃ (at_ : Nat), ∃ (q : List (Nat × Nat)), s.coreRuns ↑c = true
        ∧ ((s.coreAdvance (↑c) s.clk.count).core ↑c).mode = 1 ∧ ((s.coreAdvance (↑c) s.clk.count).core ↑c).next = s.clk.count
        ∧ ((s.coreAdvance (↑c) s.clk.count).core ↑c).queue = (e, at_) :: q ∧ ((s.coreAdvance (↑c) s.clk.count).core ↑c).busy = none)
        ∧ (∃ (s : State), Sound s ∧ ∃ (i : Fin 32), ∃ (code : Nat), ∃ (bits : List Bool), ∃ (x : Int), s.coreRuns (↑i / 8) = true
        ∧ ((s.core (↑i / 8)).mode = 1 ∧ x = signedOf 16 code ∨ (s.core (↑i / 8)).mode = 2 ∧ 16 ≤ bits.length
        ∧ Option.any (fun (y : Nat × SeqEntry × Bool) => y.snd.fst.input == ↑i % 8) (s.core (↑i / 8)).current = true
        ∧ sinc3 (List.take 46 ((List.take 16 bits).reverse ++ (s.core (↑i / 8)).fast)) = some x)) :=
  ⟨⟨up, 2, sound_of (by decide +kernel), 4652007308841189376, by decide +kernel⟩,
    ⟨up, sound_of (by decide +kernel)⟩,
    ⟨trg m1 5 0, 0, sound_of (by decide +kernel), .host, by decide +kernel⟩,
    ⟨trg (runr 1 false false none 1) 5 0, 0, sound_of (by decide +kernel), .host, by decide +kernel⟩,
    ⟨up, 2, sound_of (by decide +kernel), .host, by decide +kernel⟩,
    ⟨itr m1 4, 0, sound_of (by decide +kernel), 1, .host, by decide +kernel⟩,
    ⟨itr q4 4, 0, sound_of (by decide +kernel), 1, .host, by decide +kernel⟩,
    ⟨q4, 0, sound_of (by decide +kernel), 0, 4, [(1,5),(0,6),(1,7)], by decide +kernel⟩,
    ⟨m1, sound_of (by decide +kernel), 2, 0, [], 0, by decide +kernel⟩⟩

theorem witness_SamplesReachPoints :
    (∃ (s : State), ∃ (c : Fin 4), Sound s ∧ s.coreRuns ↑c = true ∧ ∃ (x : Forming), ∃ (l : List Forming), ∃ (codes : List Nat),
        ((s.coreAdvance (↑c) s.clk.count).core ↑c).forming = x :: l ∧ x.due ≤ s.clk.count ∧ x.entry.input < 8 ∧ codes.length = 8 * x.rounds)
        ∧ (∃ (s : State), ∃ (c : Fin 4), Sound s ∧ s.coreRuns ↑c = true ∧ ∃ (x : SeqEntry), ∃ (bits : List Bool), x.input < 8
        ∧ (s.core ↑c).mode = 2 ∧ (s.core ↑c).tail = none ∧ (s.core ↑c).running = true ∧ (s.core ↑c).entries[(s.core ↑c).pos]? = some x
        ∧ (s.core ↑c).ds.osr ≤ bits.length ∧ (s.core ↑c).taken + 1 < x.rounds) :=
  ⟨⟨frm [fo], 0, sound_of (by decide +kernel), by decide +kernel, fo, [], (List.range 8), by decide +kernel⟩,
    ⟨runr 2 false false none 3, 0, sound_of (by decide +kernel), by decide +kernel, sq 0 3 false, List.replicate 50 true, by decide +kernel⟩⟩

theorem witness_CalibrationAndSampledValues :
    (∃ (s : State), Sound s ∧ ∃ (c : Fin 4), ∃ (o : Nat), ∃ (g : Nat), ∃ (k : Nat), s.domain 10 = 2
        ∧ s.flag Reg.ADC_CTRL.bg_cal 0 = true)
      ∧ (∃ (s : State), Sound s ∧ HostUp s ∧ s.adc.cal.active = true)
      ∧ (∃ (s : State),
        Sound s ∧ HostUp s ∧ s.adc.cal.active = false
        ∧ ((s.core (s.rd Reg.ADC_SYSCAL_CTRL.input 0 / 8)).running && (s.core (s.rd Reg.ADC_SYSCAL_CTRL.input 0 / 8)).entries.any fun (e : SeqEntry)
            => e.input == s.rd Reg.ADC_SYSCAL_CTRL.input 0 % 8) = false)
        ∧ (∃ (s : State), Sound s ∧ HostUp s ∧ s.adc.cal.active = false
        ∧ ((s.core (s.rd Reg.ADC_SYSCAL_CTRL.input 0 / 8)).running && (s.core (s.rd Reg.ADC_SYSCAL_CTRL.input 0 / 8)).entries.any fun (e : SeqEntry)
            => e.input == s.rd Reg.ADC_SYSCAL_CTRL.input 0 % 8) = true)
        ∧ (∃ (s : State), Sound s ∧ s.adc.cal.active = true ∧ s.adc.cal.want ≤ s.adc.cal.n ∧ s.adc.cal.step = 0)
      ∧ (∃ (s : State), Sound s
        ∧ s.adc.cal.active = true ∧ s.adc.cal.want ≤ s.adc.cal.n ∧ ∃ (v0 : Nat), s.adc.cal.step ≠ 0 ∧ s.adc.cal.v0 = some v0
        ∧ spanLow v0 (fDiv f64 s.adc.cal.sum (fOfInt f64 ↑s.adc.cal.n)) s.adc.cal.gain = false)
      ∧ (∃ (s : State), Sound s
        ∧ s.adc.cal.active = true ∧ s.adc.cal.want ≤ s.adc.cal.n ∧ ∃ (v0 : Nat), s.adc.cal.step ≠ 0 ∧ s.adc.cal.v0 = some v0
        ∧ spanLow v0 (fDiv f64 s.adc.cal.sum (fOfInt f64 ↑s.adc.cal.n)) s.adc.cal.gain = true)
      ∧ (∃ (s : State), Sound s ∧ ∃ (p : Fin 2),
        ∃ (f : SvFrame), ∃ (e : SvEntry), s.flag Reg.ADC_CTRL.enable 0 = true
        ∧ List.find? (fun (e : SvEntry) => s.flag Reg.ADC_SV_MAP.enable e.sub && e.takes (↑p) f) s.bs.meas.subs = some e)
      ∧ (∃ (s : State),
        Sound s ∧ ∃ (p : Fin 2), ∃ (f : SvFrame), ∃ (e : SvEntry), s.flag Reg.ADC_CTRL.enable 0 = true
        ∧ List.find? (fun (e : SvEntry) => s.flag Reg.ADC_SV_MAP.enable e.sub && e.takes (↑p) f) s.bs.meas.subs = some e ∧ ∃ (x : Nat × Nat),
        x ∈ s.svServed.adc.held)
      ∧ (∃ (s : State), Sound s ∧ ∃ (p : Fin 2), ∃ (f : SvFrame), ∃ (e : SvEntry),
        s.flag Reg.ADC_CTRL.enable 0 = true
        ∧ List.find? (fun (e : SvEntry) => s.flag Reg.ADC_SV_MAP.enable e.sub && e.takes (↑p) f) s.bs.meas.subs = some e
        ∧ decide (64 ≤ (List.filter (fun (x : Nat × Nat) => x.fst == ↑p) s.svServed.adc.held).length) = true)
      ∧ (∃ (s : State), Sound s
        ∧ ∃ (p : Fin 2), ∃ (f : SvFrame), ∃ (e : SvEntry), s.flag Reg.ADC_CTRL.enable 0 = true
        ∧ List.find? (fun (e : SvEntry) => s.flag Reg.ADC_SV_MAP.enable e.sub && e.takes (↑p) f) s.bs.meas.subs = some e
        ∧ decide (64 ≤ (List.filter (fun (x : Nat × Nat) => x.fst == ↑p) s.svServed.adc.held).length) = false ∧ f.confRev ≠ e.confRev)
        ∧ (∃ (s : State), Sound s ∧ ∃ (p : Fin 2), ∃ (f : SvFrame), ∃ (e : SvEntry), s.flag Reg.ADC_CTRL.enable 0 = true
        ∧ List.find? (fun (e : SvEntry) => s.flag Reg.ADC_SV_MAP.enable e.sub && e.takes (↑p) f) s.bs.meas.subs = some e ∧ ∃ (a : SvAsdu),
        decide (64 ≤ (List.filter (fun (x : Nat × Nat) => x.fst == ↑p) s.svServed.adc.held).length) = false ∧ f.confRev = e.confRev
        ∧ f.simulate = false ∧ f.asdus = [a] ∧ 1 ≤ e.asdus ∧ (s.sub e.sub).last ≠ some (a.smpCnt % 65536))
      ∧ (∃ (s : State), Sound s
        ∧ ∃ (n : Fin 16), ∃ (e : SvEntry), List.find? (fun (e : SvEntry) => e.sub == n.val) s.bs.meas.subs = some e
        ∧ (s.sub n.val).timeout = false ∧ s.flag Reg.ADC_SV_MAP.enable n.val = true
        ∧ (s.sub n.val).since + e.timeout * 400000000 / max e.rate 1 ≤ s.clk.count)
      ∧ (∃ (s : State), Sound s ∧ ∃ (n : Fin 16),
        ∃ (e : SvEntry), List.find? (fun (e : SvEntry) => e.sub == n.val) s.bs.meas.subs = some e ∧ (s.sub n.val).timeout = false
        ∧ s.flag Reg.ADC_SV_MAP.enable n.val = true ∧ s.fab.again = [])
      ∧ (∃ (s : State), Sound s ∧ ∃ (n : Fin 16), ∃ (e : SvEntry),
        List.find? (fun (e : SvEntry) => e.sub == n.val) s.bs.meas.subs = some e ∧ (s.sub n.val).timeout = false
        ∧ s.flag Reg.ADC_SV_MAP.enable n.val = true) :=
  ⟨⟨base, sound_of (by decide +kernel), 2, 4652007308841189376, 4652007308841189376, 4652007308841189376, by decide +kernel⟩,
    ⟨calA 0 none (f64_ fBig) 2, sound_of (by decide +kernel), by decide +kernel⟩,
    ⟨up, sound_of (by decide +kernel), by decide +kernel⟩,
    ⟨runr 1 false false none 1, sound_of (by decide +kernel), by decide +kernel⟩,
    ⟨calA 0 none (f64_ fBig) 2, sound_of (by decide +kernel), by decide +kernel⟩,
    ⟨calA 1 (some 0) (f64_ fBig) 2, sound_of (by decide +kernel), by decide +kernel, by decide +kernel, 0, by decide +kernel⟩,
    ⟨calA 1 (some (f64_ 0x43FA0000)) (f64_ fBig) 2, sound_of (by decide +kernel), by decide +kernel, by decide +kernel, 4647503709213818880,
      by decide +kernel⟩,
    ⟨fullSv, sound_of (by decide +kernel), 0, (svf 7 65540), sub0, by decide +kernel⟩,
    ⟨fullSv, sound_of (by decide +kernel), 0, (svf 7 65540), sub0, by decide +kernel, by decide +kernel, (0,9), by decide +kernel⟩,
    ⟨fullSv, sound_of (by decide +kernel), 0, (svf 7 65540), sub0, by decide +kernel⟩,
    ⟨dueSv, sound_of (by decide +kernel), 0, (svf 7 65540), sub0, by decide +kernel⟩,
    ⟨dueSv, sound_of (by decide +kernel), 0, (svf 1 65540), sub0, by decide +kernel, by decide +kernel,
      { smpCnt := 65540, synch := 2, vals := [(55, 0)] }, by decide +kernel⟩,
    ⟨dueSv, sound_of (by decide +kernel), 0, sub0, by decide +kernel⟩,
    ⟨fullSv, sound_of (by decide +kernel), 0, sub0, by decide +kernel⟩,
    ⟨a0, sound_of (by decide +kernel), 0, sub0, by decide +kernel⟩⟩

end Measuring

/-! ### Time and Ethernet -/

namespace TimeBase

def alm (r g : Nat) := wrs base [(Reg.TIM_ALARM_CTRL.arm,0,1),(Reg.TIM_ALARM_CTRL.rel_en,0,r),(Reg.TIM_ALARM_CTRL.graph,0,g)]
def en (s : State) : State := { s with fab := { s.fab with graphs := [(0, { GraphRt.clear with enabled := true, state := 1 }),(2, { GraphRt.clear with enabled := true, state := 1 })] } }
def eb (m : Nat) : State := let s := wrs base [(Reg.ETH_CTRL.enable,0,1),(Reg.ETH_CTRL.rx_en,0,m%2),(Reg.ETH_CTRL.tx_en,0,1),(Reg.ETH_CTRL.ptp_en,0,m/2),(Reg.ETH_CTRL.mech,0,1),(Reg.ETH_RXR_TAIL.tail,0,3),(Reg.ETH_TXR_TAIL.tail,0,3),(Reg.ETH_RXR_SIZE.log2,0,4),(Reg.ETH_TXR_SIZE.log2,0,4),(Reg.ETH_RXR_BASE_LO.base_lo,0,9),(Reg.ETH_TXR_BASE_LO.base_lo,0,19),(Reg.ETH_CTRL.promisc,0,m%2),(Reg.ETH_LAT.rx,0,65530),(Reg.ETH_PTP_CFG.peer_port,0,0)]
  { s with eth := [(0, { Eth.reset with delay := { PtpMatch.clear with seq := 0, t1 := some 900000 } })] }
def held (l : Nat) := wrs base [(Reg.TIM_LANE_STAT.state,l,2),(Reg.TIM_LANE_STAT.run,l,3),(Reg.TIM_LANE_REJ.rt_cand,l,7777),(Reg.TIM_LANE_REJ.taken,l,1),(Reg.LANE_DELAY.held,l,1),(Reg.TIM_LANE_SEL.lane,0,l)]

theorem witness_StationTimeBase :
    (∃ (s : State), Sound s ∧ s.fab.again = [])
      ∧ (∃ (s : State), Sound s ∧ ∃ (v : Nat), HostUp s
        ∧ 319936 * 2 ^ 48 ≤ (v % 2 ^ 32 * 2 ^ 32 + s.rd Reg.TIM_INC_LO.frac_lo 0) * 10000
        ∧ (v % 2 ^ 32 * 2 ^ 32 + s.rd Reg.TIM_INC_LO.frac_lo 0) * 10000 ≤ 320064 * 2 ^ 48)
      ∧ (∃ (s : State), Sound s ∧ ∃ (v : Nat), HostUp s
        ∧ ((v % 2 ^ 32 * 2 ^ 32 + s.rd Reg.TIM_INC_LO.frac_lo 0) * 10000 < 319936 * 2 ^ 48 ∨ 320064 * 2 ^ 48 < (v % 2 ^ 32 * 2 ^ 32 + s.rd
            Reg.TIM_INC_LO.frac_lo 0) * 10000))
        ∧ (∃ (s : State), Sound s ∧ s.flag Reg.TIM_STAT.ref_lost 0 = false)
      ∧ (∃ (s : State), Sound s
        ∧ s.flag Reg.TIM_STAT.ref_lost 0 = true)
      ∧ (∃ (s : State), Sound s)
      ∧ (∃ (s : State), Sound s ∧ HostUp s)
        ∧ (∃ (s : State), Sound s ∧ s.flag Reg.TIM_ALARM_CTRL.arm 0 = true ∧ s.flag Reg.TIM_ALARM_CTRL.rel_en 0 = false)
      ∧ (∃ (s : State),
        Sound s ∧ ∃ (e : GraphEntry), s.flag Reg.TIM_ALARM_CTRL.arm 0 = true ∧ s.flag Reg.TIM_ALARM_CTRL.rel_en 0 = true ∧ s.fab.again = []
        ∧ s.bs.graphEntry (s.rd Reg.TIM_ALARM_CTRL.graph 0) = some e ∧ (s.graph (s.rd Reg.TIM_ALARM_CTRL.graph 0)).enabled = true
        ∧ e.trigger = Trigger.host ∧ s.red.holdGraphs.contains (s.rd Reg.TIM_ALARM_CTRL.graph 0) = false ∧ s.graphUsable e = true
        ∧ s.graphBusy (s.rd Reg.TIM_ALARM_CTRL.graph 0) = false ∧ e.flow = none ∧ s.hasSpace e = true)
      ∧ (∃ (s : State), Sound s
        ∧ s.flag Reg.TIM_ALARM_CTRL.arm 0 = false) :=
  ⟨⟨up, sound_of (by decide +kernel), by decide +kernel⟩,
    ⟨up, sound_of (by decide +kernel), 2097152, by decide +kernel⟩,
    ⟨up, sound_of (by decide +kernel), 900000, by decide +kernel⟩,
    ⟨up, sound_of (by decide +kernel), by decide +kernel⟩,
    ⟨wrs base [(Reg.TIM_STAT.ref_lost,0,1)], sound_of (by decide +kernel), by decide +kernel⟩,
    ⟨up, sound_of (by decide +kernel)⟩,
    ⟨up, sound_of (by decide +kernel), by decide +kernel⟩,
    ⟨alm 0 0, sound_of (by decide +kernel), by decide +kernel⟩,
    ⟨en (alm 1 0), sound_of (by decide +kernel), g0, by decide +kernel⟩,
    ⟨up, sound_of (by decide +kernel), by decide +kernel⟩⟩

theorem witness_EthernetFrames :
    (∃ (s : State), ∃ (port : Fin 2), Sound s ∧ ∃ (buffer : Nat), s.flag Reg.ETH_CTRL.enable ↑port = true)
      ∧ (∃ (s : State),
        ∃ (port : Fin 2), ∃ (bytes : List (BitVec 8)), Sound s ∧ ∃ (buffer : Nat), s.flag Reg.ETH_CTRL.enable ↑port = true
        ∧ s.flag Reg.ETH_CTRL.rx_en ↑port = true ∧ ptpPayload (s.flag Reg.ETH_CTRL.transport ↑port) bytes = none
        ∧ s.ethPasses (↑port) bytes = true ∧ s.mayRequest = true ∧ s.rd Reg.ETH_RXR_HEAD.head ↑port ≠ s.rd Reg.ETH_RXR_TAIL.tail ↑port)
        ∧ (∃ (s : State), ∃ (port : Fin 2), ∃ (bytes : List (BitVec 8)), Sound s ∧ ∃ (stampRequested : Bool),
        s.flag Reg.ETH_CTRL.enable ↑port = true ∧ s.flag Reg.ETH_CTRL.tx_en ↑port = true
        ∧ ptpPayload (s.flag Reg.ETH_CTRL.transport ↑port) bytes = none ∧ s.mayRequest = true
        ∧ s.rd Reg.ETH_TXR_HEAD.head ↑port ≠ s.rd Reg.ETH_TXR_TAIL.tail ↑port ∧ 14 ≤ bytes.length ∧ bytes.length ≤ 1514)
      ∧ (∃ (s : State),
        ∃ (port : Fin 2), Sound s ∧ ∃ (stampRequested : Bool), ∃ (err : Fin 4),
        s.flag Reg.ETH_CTRL.enable ↑port = false ∨ s.flag Reg.ETH_CTRL.tx_en ↑port = false ∨ s.mayRequest = false ∨ s.rd Reg.ETH_TXR_HEAD.head ↑port
            = s.rd Reg.ETH_TXR_TAIL.tail ↑port)
        ∧ (∃ (s : State), Sound s) :=
  ⟨⟨eb 0, 0, sound_of (by decide +kernel), 900000, by decide +kernel⟩,
    ⟨eb 1, 0, [0xff#8, 0xff#8, 0xff#8, 0xff#8, 0xff#8, 0xff#8, 0xff#8, 0xff#8, 0xff#8, 0xff#8, 0xff#8, 0xff#8, 0x81#8, 0x00#8, 0x00#8,
      0x01#8, 0x02#8, 0x03#8, 0x07#8, 0x07#8, 0x07#8, 0x07#8, 0x07#8, 0x07#8, 0x07#8, 0x07#8, 0x07#8, 0x07#8, 0x07#8, 0x07#8, 0x07#8, 0x07#8,
      0x07#8, 0x07#8, 0x07#8, 0x07#8, 0x07#8, 0x07#8, 0x07#8, 0x07#8, 0x07#8, 0x07#8, 0x07#8, 0x07#8, 0x07#8, 0x07#8, 0x07#8, 0x07#8],
      sound_of (by decide +kernel), 900000, by decide +kernel⟩,
    ⟨eb 0, 0, [0xff#8, 0xff#8, 0xff#8, 0xff#8, 0xff#8, 0xff#8, 0xff#8, 0xff#8, 0xff#8, 0xff#8, 0xff#8, 0xff#8, 0x81#8, 0x00#8, 0x00#8,
      0x01#8, 0x02#8, 0x03#8, 0x07#8, 0x07#8, 0x07#8, 0x07#8, 0x07#8, 0x07#8, 0x07#8, 0x07#8, 0x07#8, 0x07#8, 0x07#8, 0x07#8, 0x07#8, 0x07#8,
      0x07#8, 0x07#8, 0x07#8, 0x07#8, 0x07#8, 0x07#8, 0x07#8, 0x07#8, 0x07#8, 0x07#8, 0x07#8, 0x07#8, 0x07#8, 0x07#8, 0x07#8, 0x07#8],
      sound_of (by decide +kernel), true, by decide +kernel⟩,
    ⟨up, 1, sound_of (by decide +kernel), true, 3, by decide +kernel⟩,
    ⟨up, sound_of (by decide +kernel)⟩⟩

theorem witness_MeasuredDelays :
    (∃ (s : State), Sound s ∧ ∃ (lane : Fin 96), HostUp s ∧ s.rd Reg.TIM_LANE_STAT.state ↑lane = 2
        ∧ s.rd Reg.TIM_LANE_REJ.taken ↑lane ≠ 0)
      ∧ (∃ (s : State), Sound s ∧ ∃ (lane : Fin 96),
        s.rd Reg.TIM_LANE_STAT.state ↑lane ≠ 2 ∨ s.rd Reg.TIM_LANE_REJ.taken ↑lane = 0)
      ∧ (∃ (s : State), Sound s ∧ ∃ (lane : Fin 96),
        HostUp s ∧ s.rd Reg.TIM_LANE_SEL.lane 0 = ↑lane)
      ∧ (∃ (s : State), Sound s ∧ ∃ (port : Fin 2), HostUp s)
      ∧ (∃ (s : State),
        Sound s ∧ ∃ (port : Fin 2), ∃ (bytes : List (BitVec 8)), ∃ (phi : Fin 32), ∃ (buffer : Nat), ∃ (msg : List (BitVec 8)), ∃ (t1 : Nat),
        s.flag Reg.ETH_CTRL.enable ↑port = true ∧ s.flag Reg.ETH_CTRL.rx_en ↑port = false ∧ s.flag Reg.ETH_CTRL.ptp_en ↑port = true
        ∧ s.flag Reg.ETH_CTRL.mech ↑port = true ∧ ptpPayload (s.flag Reg.ETH_CTRL.transport ↑port) bytes = some msg
        ∧ s.ptpFromPeer (↑port) msg = true ∧ ptpType msg = 3 ∧ ptpTwoStep msg = false ∧ ptpSeq msg = (s.port ↑port).delay.seq
        ∧ (s.port ↑port).delay.t1 = some t1 ∧ (s.port ↑port).seen = false) :=
  ⟨⟨held 0, sound_of (by decide +kernel), 0, by decide +kernel⟩,
    ⟨up, sound_of (by decide +kernel), 31, by decide +kernel⟩,
    ⟨up, sound_of (by decide +kernel), 0, by decide +kernel⟩,
    ⟨up, sound_of (by decide +kernel), 1, by decide +kernel⟩,
    ⟨eb 2, sound_of (by decide +kernel), 0, [0x00#8, 0x00#8, 0x00#8, 0x00#8, 0x00#8, 0x00#8, 0x00#8, 0x00#8, 0x00#8, 0x00#8, 0x00#8, 0x00#8,
      0x88#8, 0xf7#8, 0x03#8, 0x02#8, 0x00#8, 0x36#8, 0x00#8, 0x00#8, 0x00#8, 0x00#8, 0x00#8, 0x00#8, 0x00#8, 0x00#8, 0x00#8, 0x00#8, 0x00#8,
      0x00#8, 0x00#8, 0x00#8, 0x00#8, 0x00#8, 0x00#8, 0x00#8, 0x00#8, 0x00#8, 0x00#8, 0x00#8, 0x00#8, 0x00#8, 0x00#8, 0x00#8, 0x00#8, 0x00#8,
      0x00#8, 0x00#8, 0x00#8, 0x00#8, 0x00#8, 0x00#8, 0x00#8, 0x00#8, 0x00#8, 0x00#8, 0x00#8, 0x00#8, 0x00#8, 0x00#8, 0x00#8, 0x00#8, 0x00#8,
      0x00#8, 0x00#8, 0x00#8, 0x00#8, 0x00#8], 31, 900000, [0x03#8, 0x02#8, 0x00#8, 0x36#8, 0x00#8, 0x00#8, 0x00#8, 0x00#8, 0x00#8, 0x00#8,
      0x00#8, 0x00#8, 0x00#8, 0x00#8, 0x00#8, 0x00#8, 0x00#8, 0x00#8, 0x00#8, 0x00#8, 0x00#8, 0x00#8, 0x00#8, 0x00#8, 0x00#8, 0x00#8, 0x00#8,
      0x00#8, 0x00#8, 0x00#8, 0x00#8, 0x00#8, 0x00#8, 0x00#8, 0x00#8, 0x00#8, 0x00#8, 0x00#8, 0x00#8, 0x00#8, 0x00#8, 0x00#8, 0x00#8, 0x00#8,
      0x00#8, 0x00#8, 0x00#8, 0x00#8, 0x00#8, 0x00#8, 0x00#8, 0x00#8, 0x00#8, 0x00#8], 900000, by decide +kernel⟩⟩

end TimeBase

/-! ### Time quality and pulses -/

namespace Quality

def tq (q h w : Nat) : State := wrs base [(Reg.TIM_STAT.quality,0,q),(Reg.TIM_STAT.ptp_held,0,h),(Reg.TIM_QUAL_WATCH.ms,0,w)]
def pps (i o g m l q : Nat) : State := let s := wrs base [(Reg.TIM_CTRL.pps_in_en,0,i),(Reg.TIM_CTRL.pps_out_en,0,o),(Reg.TIM_CTRL.pps_out_gate,0,g),(Reg.TIM_STAT.quality,0,q)]; { s with clk := { s.clk with ppsMissing := m == 1, ppsOut := l == 1, ppsAt := some 7, count := 440000007 } }

theorem witness_TimeQualityAndPps :
    (∃ (s : State), Sound s ∧ HostUp s ∧ s.rd Reg.TIM_STAT.quality 0 ≠ 4)
      ∧ (∃ (s : State), Sound s ∧ HostUp s
        ∧ s.rd Reg.TIM_STAT.quality 0 = 4)
      ∧ (∃ (s : State), Sound s ∧ HostUp s ∧ s.rd Reg.TIM_STAT.quality 0 = 4
        ∧ s.rd Reg.TIM_STAT.ptp_held 0 = 0)
      ∧ (∃ (s : State), Sound s ∧ HostUp s ∧ s.rd Reg.TIM_STAT.ptp_held 0 ≠ 0)
        ∧ (∃ (s : State), Sound s ∧ s.rd Reg.TIM_STAT.quality 0 = 2 ∧ s.rd Reg.TIM_QUAL_WATCH.ms 0 ≠ 0
        ∧ max s.clk.lastCorr s.clk.lockedAt + s.rd Reg.TIM_QUAL_WATCH.ms 0 * 400000 ≤ s.clk.count)
      ∧ (∃ (s : State), Sound s
        ∧ s.rd Reg.TIM_STAT.quality 0 = 2 ∧ s.rd Reg.TIM_QUAL_WATCH.ms 0 ≠ 0 ∧ s.fab.again = [])
      ∧ (∃ (s : State), Sound s
        ∧ s.rd Reg.TIM_STAT.quality 0 = 2 ∧ s.rd Reg.TIM_QUAL_WATCH.ms 0 ≠ 0)
      ∧ (∃ (s : State), Sound s
        ∧ (s.rd Reg.TIM_STAT.quality 0 ≠ 2 ∨ s.rd Reg.TIM_QUAL_WATCH.ms 0 = 0))
      ∧ (∃ (s : State), ∃ (rising : Bool), Sound s
        ∧ (s.flag Reg.TIM_CTRL.pps_in_en 0 = true ∧ rising = !s.flag Reg.TIM_CTRL.pps_in_edge 0) ∧ s.clk.ppsMissing = false)
        ∧ (∃ (s : State), ∃ (rising : Bool), Sound s ∧ (s.flag Reg.TIM_CTRL.pps_in_en 0 = true ∧ rising = !s.flag Reg.TIM_CTRL.pps_in_edge 0)
        ∧ s.clk.ppsMissing = true)
      ∧ (∃ (s : State), ∃ (rising : Bool), Sound s ∧ ¬(s.flag Reg.TIM_CTRL.pps_in_en 0 = true
        ∧ rising = !s.flag Reg.TIM_CTRL.pps_in_edge 0))
      ∧ (∃ (s : State), Sound s ∧ ∃ (c : Nat), s.flag Reg.TIM_CTRL.pps_in_en 0 = true
        ∧ s.clk.ppsAt = some c ∧ s.clk.ppsMissing = false ∧ c + 440000000 ≤ s.clk.count)
      ∧ (∃ (s : State), Sound s ∧ ∃ (c : Nat),
        s.flag Reg.TIM_CTRL.pps_in_en 0 = true ∧ s.clk.ppsAt = some c ∧ s.clk.ppsMissing = false ∧ s.fab.again = [])
      ∧ (∃ (s : State),
        Sound s ∧ ∃ (c : Nat), s.flag Reg.TIM_CTRL.pps_in_en 0 = true ∧ s.clk.ppsAt = some c ∧ s.clk.ppsMissing = false)
      ∧ (∃ (s : State),
        Sound s ∧ (s.flag Reg.TIM_CTRL.pps_in_en 0 = false ∨ s.clk.ppsAt = none ∨ s.clk.ppsMissing = true))
      ∧ (∃ (s : State), Sound s
        ∧ 12800000000 ≤ s.now ∧ s.now + 25600000000 < 2 ^ 64)
      ∧ (∃ (s : State), Sound s ∧ s.fab.again = [])
      ∧ (∃ (s : State), Sound s
        ∧ s.flag Reg.TIM_CTRL.pps_out_en 0 = true ∧ s.clk.ppsOut = false
        ∧ (s.flag Reg.TIM_CTRL.pps_out_gate 0 = true → s.rd Reg.TIM_STAT.quality 0 = 2))
      ∧ (∃ (s : State), Sound s
        ∧ s.flag Reg.TIM_CTRL.pps_out_en 0 = true ∧ s.clk.ppsOut = false ∧ s.flag Reg.TIM_CTRL.pps_out_gate 0 = true
        ∧ s.rd Reg.TIM_STAT.quality 0 ≠ 2)
      ∧ (∃ (s : State), Sound s ∧ s.flag Reg.TIM_CTRL.pps_out_en 0 = true ∧ s.clk.ppsOut = true)
        ∧ (∃ (s : State), Sound s ∧ s.flag Reg.TIM_CTRL.pps_out_en 0 = false)
      ∧ (∃ (s : State), Sound s ∧ s.clk.ppsOut = true)
        ∧ (∃ (s : State), Sound s ∧ s.clk.ppsOut = false) :=
  ⟨⟨base, sound_of (by decide +kernel), by decide +kernel⟩,
    ⟨tq 4 0 0, sound_of (by decide +kernel), by decide +kernel⟩,
    ⟨tq 4 0 0, sound_of (by decide +kernel), by decide +kernel⟩,
    ⟨tq 4 1 0, sound_of (by decide +kernel), by decide +kernel⟩,
    ⟨{ tq 2 0 5 with clk := { base.clk with count := 2000000 } }, sound_of (by decide +kernel), by decide +kernel⟩,
    ⟨tq 2 0 5, sound_of (by decide +kernel), by decide +kernel⟩,
    ⟨tq 2 0 5, sound_of (by decide +kernel), by decide +kernel⟩,
    ⟨base, sound_of (by decide +kernel), by decide +kernel⟩,
    ⟨pps 1 0 0 0 0 2, true, sound_of (by decide +kernel), by decide +kernel⟩,
    ⟨pps 1 0 0 1 0 2, true, sound_of (by decide +kernel), by decide +kernel⟩,
    ⟨tq 2 0 5, true, sound_of (by decide +kernel), by decide +kernel⟩,
    ⟨pps 1 0 0 0 0 2, sound_of (by decide +kernel), 7, by decide +kernel⟩,
    ⟨pps 1 0 0 0 0 2, sound_of (by decide +kernel), 7, by decide +kernel⟩,
    ⟨pps 1 0 0 0 0 2, sound_of (by decide +kernel), 7, by decide +kernel⟩,
    ⟨tq 2 0 5, sound_of (by decide +kernel), by decide +kernel⟩,
    ⟨pps 1 0 0 0 0 2, sound_of (by decide +kernel), by decide +kernel⟩,
    ⟨tq 2 0 5, sound_of (by decide +kernel), by decide +kernel⟩,
    ⟨pps 0 1 1 0 0 2, sound_of (by decide +kernel), by decide +kernel⟩,
    ⟨pps 0 1 1 0 0 4, sound_of (by decide +kernel), by decide +kernel⟩,
    ⟨pps 0 1 1 0 1 2, sound_of (by decide +kernel), by decide +kernel⟩,
    ⟨tq 2 0 5, sound_of (by decide +kernel), by decide +kernel⟩,
    ⟨pps 0 1 1 0 1 2, sound_of (by decide +kernel), by decide +kernel⟩,
    ⟨tq 2 0 5, sound_of (by decide +kernel), by decide +kernel⟩⟩

end Quality

/-! ### Redundancy -/

namespace Pair

def mk (t : Fin 8) (role : Fin 4) (seq : Nat) : RingMsg := ⟨0, [], 1, 2, t, false, role, 6, seq⟩
def sealed (m : RingMsg) (fr : List (List Nat)) : RingMsg := { m with eofs := msgSealed m fr }
def role (s : State) (r : Nat) := wrs s [(Reg.RED_STAT.role,0,r)]
def rd' (s : State) (f : Red → Red) : State := { s with red := f s.red }
def act := wrs base [(Reg.RED_STAT.line_ok,0,1),(Reg.RED_STAT.ring_ok,0,1)]
def stb := wrs (role base 1) [(Reg.RED_RING_CFG.address,0,1)]
def stbOk := wrs stb [(Reg.RED_STAT.line_ok,0,1),(Reg.RED_STAT.partner_code,0,3)]
def ig : CritImage := { CritImage.empty with digest := 5, seq := 3, epoch := 9 }
def slotted (s : State) (v : Bool) := rd' s (fun r => { r with slot0 := ⟨v, 3, ig, 0, false⟩ })
def outg (h : Option Nat) := rd' act (fun r => { r with hand := .outgoing, h := h })
def inc (h : Option Nat) (i : Option CritImage) (rdy : Bool) := rd' (role base 4) (fun r => { r with hand := .incoming, h := h, image := i, ready := rdy, runIn := 5 })
def rxs (n : Nat) (sl : Nat) (s : State) := rd' (role s 1) (fun r => { r with rx := some ⟨sl, 9, (List.range n).map (fun i => (i, [BitVec.ofNat 8 i]))⟩ })
def symb (c r t : Nat) : BitVec 32 := let b := c * 2^20 + r * 2^16 + t; BitVec.ofNat 32 (b * 256 + crc8 [b / 2 ^ 16, b / 2 ^ 8, b])
def rankd (s : State) (n : Nat) := wrs s [(Reg.RED_STAT.strap,0,n)]
def badsl : State := rd' (slotted (role base 2) true) (fun r => { r with restoring := 4, slot0 := { r.slot0 with bad := true } })

theorem witness_HeartbeatPaths :
    (∃ (s : State), Sound s ∧ (s.pwr.inReset = false ∨ s.pwr.dormant = true ∨ s.pwr.held200 = true))
      ∧ (∃ (s : State), Sound s
        ∧ s.pwr.inReset = true ∧ s.pwr.dormant = false ∧ s.pwr.held200 = false)
      ∧ (∃ (s : State), ∃ (sym : BitVec 32), Sound s
        ∧ s.pwr.inReset = false ∧ s.pwr.dormant = false ∧ ¬sym.toNat % 2 ^ 8 = crc8 [sym.toNat / 2 ^ 8 / 2 ^ 16, sym.toNat / 2 ^ 8 / 2 ^ 8,
        sym.toNat / 2 ^ 8])
      ∧ (∃ (s : State), ∃ (sym : BitVec 32), Sound s ∧ s.pwr.inReset = false ∧ s.pwr.dormant = false
        ∧ sym.toNat % 2 ^ 8 = crc8 [sym.toNat / 2 ^ 8 / 2 ^ 16, sym.toNat / 2 ^ 8 / 2 ^ 8, sym.toNat / 2 ^ 8] ∧ s.paired = false)
        ∧ (∃ (s : State), ∃ (sym : BitVec 32), Sound s ∧ s.pwr.inReset = false ∧ s.pwr.dormant = false
        ∧ sym.toNat % 2 ^ 8 = crc8 [sym.toNat / 2 ^ 8 / 2 ^ 16, sym.toNat / 2 ^ 8 / 2 ^ 8, sym.toNat / 2 ^ 8] ∧ s.paired = true
        ∧ sym.toNat / 2 ^ 24 % 16 + s.rank = 3 ∧ s.role = 1 ∧ sym.toNat / 2 ^ 28 = 3)
      ∧ (∃ (s : State), ∃ (sym : BitVec 32), Sound s
        ∧ s.pwr.inReset = false ∧ s.pwr.dormant = false ∧ sym.toNat % 2 ^ 8 = crc8 [sym.toNat / 2 ^ 8 / 2 ^ 16, sym.toNat / 2 ^ 8 / 2 ^ 8,
        sym.toNat / 2 ^ 8] ∧ s.paired = true ∧ sym.toNat / 2 ^ 24 % 16 + s.rank = 3 ∧ s.role = 3 ∧ sym.toNat / 2 ^ 28 = 7
        ∧ s.rd Reg.RED_STAT.partner_code 0 ≠ 7 ∧ s.flag Reg.RED_STAT.line_ok 0 = true)
      ∧ (∃ (s : State), Sound s ∧ ∃ (m : RingMsg),
        ∃ (rk : Fin 16), ∃ (claim : BitVec 32), ∃ (epoch : Nat), ∃ (ckptSeq : Nat), RingOk m 0 [[3 * 2 ^ 60 + ↑rk * 2 ^ 56 + claim.toNat, epoch,
        ckptSeq]] s ∧ s.paired = true ∧ ↑m.src = s.rd Reg.RED_RING_CFG.partner 0 ∧ ↑rk + s.rank = 3 ∧ s.role = 1)
      ∧ (∃ (s : State), Sound s
        ∧ ∃ (m : RingMsg), ∃ (code : Fin 16), ∃ (rk : Fin 16), ∃ (claim : BitVec 32), ∃ (epoch : Nat), ∃ (ckptSeq : Nat),
        (s.pwr.inReset = true ∨ s.pwr.dormant = true ∨ s.domain 2 ≠ 2) ∧ m.type = 0 ∧ m.term < 2 ^ 28 ∧ m.seq < 2 ^ 16)
      ∧ (∃ (s : State),
        Sound s ∧ ∃ (path : Fin 2), s.flag (if path = 1 then Reg.RED_STAT.ring_ok else Reg.RED_STAT.line_ok) 0 = true
        ∧ s.flag (if path = 1 then Reg.RED_STAT.line_ok else Reg.RED_STAT.ring_ok) 0 = true)
      ∧ (∃ (s : State), Sound s ∧ ∃ (path : Fin 2),
        s.flag (if path = 1 then Reg.RED_STAT.ring_ok else Reg.RED_STAT.line_ok) 0 = false)
      ∧ (∃ (s : State), Sound s ∧ ∃ (port : Fin 2),
        ∃ (at_ : Fin 8), s.flag (if port = 0 then Reg.RED_RING_STAT.east_up else Reg.RED_RING_STAT.west_up) 0 = true)
      ∧ (∃ (s : State),
        Sound s) :=
  ⟨⟨up, sound_of (by decide +kernel), by decide +kernel⟩,
    ⟨{ base with pwr := { base.pwr with inReset := true } }, sound_of (by decide +kernel), by decide +kernel⟩,
    ⟨up, 0x12345678#32, sound_of (by decide +kernel), by decide +kernel⟩,
    ⟨up, symb 3 2 5, sound_of (by decide +kernel), by decide +kernel⟩,
    ⟨stb, symb 3 2 5, sound_of (by decide +kernel), by decide +kernel⟩,
    ⟨act, 0x720005e7#32, sound_of (by decide +kernel), by decide +kernel⟩,
    ⟨stb, sound_of (by decide +kernel), sealed { mk 0 2 8 with term := 2 } [[3*2^60+2*2^56+7,0,1]], 2, 7, 0, 1, by decide +kernel⟩,
    ⟨up, sound_of (by decide +kernel),
      { port := 1, eofs := [], dst := 1, src := 2, type := 0, broadcast := false, role := 1, term := 6, seq := 8 }, 15, 15, 0x12345678#32, 20,
      20, by decide +kernel⟩,
    ⟨act, sound_of (by decide +kernel), 1, by decide +kernel⟩,
    ⟨up, sound_of (by decide +kernel), 1, by decide +kernel⟩,
    ⟨wrs act [(Reg.RED_RING_STAT.east_up,0,1)], sound_of (by decide +kernel), 0, 7, by decide +kernel⟩,
    ⟨up, sound_of (by decide +kernel)⟩⟩

theorem witness_HandoverMessages :
    (∃ (s : State), ∃ (m : RingMsg), Sound s ∧ RingOk m 5 [[1 * 2 ^ 60]] s ∧ s.paired = true ∧ s.red.hand = Hand.none ∧ s.role = 3)
        ∧ (∃ (s : State), ∃ (m : RingMsg), Sound s ∧ RingOk m 5 [[2 * 2 ^ 60]] s ∧ s.red.hand = Hand.outgoing)
      ∧ (∃ (s : State),
        ∃ (m : RingMsg), Sound s ∧ ∃ (h : Nat), RingOk m 5 [[3 * 2 ^ 60, h]] s ∧ s.red.hand = Hand.incoming ∧ s.role = 4 ∧ s.epo.k + 1 < h)
        ∧ (∃ (s : State), ∃ (m : RingMsg), Sound s ∧ ∃ (reason : Fin 16), RingOk m 5 [[4 * 2 ^ 60 + ↑reason * 2 ^ 56]] s
        ∧ s.red.hand = Hand.outgoing ∧ ∀ (h : Nat), s.red.h = some h → s.epo.k + 1 < h)
      ∧ (∃ (s : State), ∃ (m : RingMsg), Sound s
        ∧ ∃ (ws : List MirrorWrite), RingOk m 4 [Config.mirrorWords s.red.runIn ws] s ∧ s.red.hand = Hand.incoming ∧ s.role ≠ 3
        ∧ s.red.image = none)
      ∧ (∃ (s : State), ∃ (m : RingMsg), Sound s ∧ ∃ (ws : List MirrorWrite), ∃ (i : CritImage),
        RingOk m 4 [Config.mirrorWords s.red.runIn ws] s ∧ s.red.hand = Hand.incoming ∧ s.role ≠ 3 ∧ s.red.image = some i ∧ s.red.ready = true
        ∧ ∀ (n v : Nat), MirrorWrite.head n v ∈ ws → n < 2 ∨ 4 < n)
      ∧ (∃ (s : State), Sound s ∧ HostUp s ∧ s.role = 3 ∧ s.paired = true
        ∧ s.red.hand = Hand.none)
      ∧ (∃ (s : State), Sound s ∧ HostUp s ∧ s.red.hand = Hand.outgoing ∧ ∀ (h : Nat),
        s.red.h = some h → s.epo.k + 1 < h)
      ∧ (∃ (s : State), Sound s ∧ ∃ (c : Instr), HostUp s ∧ (c = Instr.redCmdHandover
        ∧ (s.role ≠ 3 ∨ s.paired = false ∨ s.red.hand ≠ Hand.none) ∨ c = Instr.redCmdAbort ∧ (s.red.hand = Hand.none ∨ ∃ (h : Nat),
        s.red.h = some h ∧ h ≤ s.epo.k + 1)))
      ∧ (∃ (s : State), ∃ (m : RingMsg), Sound s ∧ m.type = 5 ∧ m.term < 2 ^ 28 ∧ m.seq < 2 ^ 16
        ∧ m.eofs = msgSealed m [[1 * 2 ^ 60]] ∧ s.ringBypassed = false ∧ ↑m.src ≠ s.rd Reg.RED_RING_CFG.address 0
        ∧ (m.broadcast = true ∨ ↑m.dst = s.rd Reg.RED_RING_CFG.address 0) ∧ s.red.seen.contains (↑m.src, m.seq) = false ∧ m.role = 1 ∧ s.role ≠ 3) :=
  ⟨⟨base, sealed (mk 5 1 7) [[1*2^60]], sound_of (by decide +kernel), by decide +kernel⟩,
    ⟨outg none, sealed (mk 5 1 7) [[2*2^60]], sound_of (by decide +kernel), by decide +kernel⟩,
    ⟨inc none none false, sealed (mk 5 2 7) [[3*2^60,20]], sound_of (by decide +kernel), 20, by decide +kernel⟩,
    ⟨outg none, sealed (mk 5 1 7) [[4*2^60+3*2^56]], sound_of (by decide +kernel), 3, by decide +kernel⟩,
    ⟨inc none none false, sealed (mk 4 2 7) [Config.mirrorWords 5 []], sound_of (by decide +kernel), [], ⟨by decide +kernel,
      by decide +kernel, by decide +kernel, rfl, by decide +kernel, by decide +kernel, by decide +kernel, by decide +kernel, by decide +kernel,
      by decide +kernel, by decide +kernel⟩, by decide +kernel⟩,
    ⟨inc (some 20) (some ig) true, sealed (mk 4 2 7) [Config.mirrorWords 5 []], sound_of (by decide +kernel), [], ig, ⟨by decide +kernel,
      by decide +kernel, by decide +kernel, rfl, by decide +kernel, by decide +kernel, by decide +kernel, by decide +kernel, by decide +kernel,
      by decide +kernel, by decide +kernel⟩, by decide +kernel, by decide +kernel, by decide +kernel, by decide +kernel, fun _ _ h => nomatch h⟩,
    ⟨base, sound_of (by decide +kernel), by decide +kernel⟩,
    ⟨outg none, sound_of (by decide +kernel), by decide +kernel⟩,
    ⟨up, sound_of (by decide +kernel), (Instr.redCmdAbort), by decide +kernel⟩,
    ⟨stb, sealed { mk 5 1 8 with term := 2 } [[1*2^60]], sound_of (by decide +kernel), by decide +kernel⟩⟩

theorem witness_CheckpointTransfers :
    (∃ (s : State), ∃ (m : RingMsg), Sound s ∧ ∃ (x : CkptRx), ∃ (n : Fin 16), ∃ (bytes : List Byte), ∃ (crc : BitVec 64),
        ∃ (image : CritImage), RingOk m 1 [ckptFrame x.seq (n.val) bytes] s ∧ s.paired = true ∧ (s.role = 1 ∨ s.role = 4 ∨ s.role = 6)
        ∧ s.red.rx = some x ∧ ((n.val, bytes) :: List.filter (fun (p : Nat × List (BitVec 8)) => p.fst != n.val) x.parts).length < 16)
        ∧ (∃ (s : State), ∃ (m : RingMsg), Sound s ∧ ∃ (seq : Nat), ∃ (n : Fin 16), ∃ (bytes : List Byte), ∃ (crc : BitVec 64),
        ∃ (image : CritImage), RingOk m 1 [ckptFrame seq (n.val) bytes] s ∧ s.paired = true ∧ (s.role = 1 ∨ s.role = 4 ∨ s.role = 6)
        ∧ s.red.rx = none)
      ∧ (∃ (s : State), ∃ (m : RingMsg), Sound s ∧ ∃ (x : CkptRx), ∃ (n : Fin 16), ∃ (bytes : List Byte),
        ∃ (crc : BitVec 64), ∃ (image : CritImage), RingOk m 1 [ckptFrame x.seq (n.val) bytes] s ∧ s.paired = true ∧ s.role = 1
        ∧ s.red.rx = some x ∧ x.slot < 2 ∧ ((n.val, bytes) :: List.filter (fun (p : Nat × List (BitVec 8)) => p.fst != n.val) x.parts).length = 16
        ∧ crc64 (List.map (fun (n_1 : Nat) => (Option.map (fun (x : Nat × List (BitVec 8)) => x.snd) (List.find? (fun (p : Nat × List (BitVec 8)) =>
            p.fst == n_1) ((n.val,
        bytes) :: List.filter (fun (p : Nat × List (BitVec 8)) => p.fst != n.val) x.parts))).getD []) (List.range 16)).flatten = crc.toNat
        ∧ s.ownDigest image.digest = true)
      ∧ (∃ (s : State), ∃ (m : RingMsg), Sound s ∧ ∃ (x : CkptRx), ∃ (n : Fin 16),
        ∃ (bytes : List Byte), ∃ (crc : BitVec 64), ∃ (image : CritImage), RingOk m 1 [ckptFrame x.seq (n.val) bytes] s ∧ s.paired = true
        ∧ s.role = 1 ∧ s.red.rx = some x ∧ x.slot < 2 ∧ ((n.val,
        bytes) :: List.filter (fun (p : Nat × List (BitVec 8)) => p.fst != n.val) x.parts).length = 16
        ∧ crc64 (List.map (fun (n_1 : Nat) => (Option.map (fun (x : Nat × List (BitVec 8)) => x.snd) (List.find? (fun (p : Nat × List (BitVec 8)) =>
            p.fst == n_1) ((n.val,
        bytes) :: List.filter (fun (p : Nat × List (BitVec 8)) => p.fst != n.val) x.parts))).getD []) (List.range 16)).flatten ≠ crc.toNat)
        ∧ (∃ (s : State), ∃ (m : RingMsg), Sound s ∧ ∃ (bench : Fin 80), ∃ (sweep : Nat), ∃ (words : List Pt),
        RingOk m 2 (slowFrames (↑bench) sweep words) s)
      ∧ (∃ (s : State), ∃ (m : RingMsg), Sound s ∧ ∃ (rec_ : BindRecord),
        RingOk m 3 [Config.bindWords rec_] s)
      ∧ (∃ (s : State), Sound s ∧ s.role = 3 ∧ s.paired = true
        ∧ s.flag Reg.RED_CTRL.slow_en 0 = true)
      ∧ (∃ (s : State), Sound s ∧ ∃ (errs : List BadWord), s.role = 3 ∧ s.paired = true
        ∧ s.flag Reg.RED_CTRL.slow_en 0 = true)
      ∧ (∃ (s : State), Sound s ∧ ∃ (errs : List BadWord),
        s.role ≠ 3 ∨ s.paired = false ∨ s.flag Reg.RED_CTRL.slow_en 0 = false)
      ∧ (∃ (s : State), Sound s ∧ s.red.tx ≠ none)
        ∧ (∃ (s : State), Sound s ∧ s.red.tx = none)
      ∧ (∃ (s : State), Sound s ∧ s.role = 2 ∧ s.red.restoreDone = false
        ∧ s.red.restoring = 0) :=
  ⟨⟨rxs 3 0 base, sealed (mk 1 0 7) [ckptFrame 9 15 [BitVec.ofNat 8 15]], sound_of (by decide +kernel), ⟨0, 9,
      (List.range 3).map (fun i => (i, [BitVec.ofNat 8 i]))⟩, 15, [BitVec.ofNat 8 15], 0, ig, by decide +kernel⟩,
    ⟨stb, sealed (mk 1 0 7) [ckptFrame 9 15 [BitVec.ofNat 8 15]], sound_of (by decide +kernel), 9, 15, [BitVec.ofNat 8 15], 0, ig,
      by decide +kernel⟩,
    ⟨rxs 15 0 base, sealed (mk 1 0 7) [ckptFrame 9 15 [BitVec.ofNat 8 15]], sound_of (by decide +kernel), ⟨0, 9,
      (List.range 15).map (fun i => (i, [BitVec.ofNat 8 i]))⟩, 15, [BitVec.ofNat 8 15],
      BitVec.ofNat 64 (crc64 ((List.range 16).map (BitVec.ofNat 8))), CritImage.empty, by decide +kernel⟩,
    ⟨rxs 15 0 base, sealed (mk 1 0 7) [ckptFrame 9 15 [BitVec.ofNat 8 15]], sound_of (by decide +kernel), ⟨0, 9,
      (List.range 15).map (fun i => (i, [BitVec.ofNat 8 i]))⟩, 15, [BitVec.ofNat 8 15], 0, ig, by decide +kernel⟩,
    ⟨stb, sealed (mk 2 2 7) (slowFrames 79 0 []), sound_of (by decide +kernel), 79, 0, [], by decide +kernel⟩,
    ⟨stb, sealed (mk 3 2 7) [Config.bindWords ⟨[(0,some 1,true)],[(0,5)]⟩], sound_of (by decide +kernel), ⟨[(0,some 1,true)],[(0,5)]⟩,
      by decide +kernel, by decide +kernel, by decide +kernel, rfl, by decide +kernel⟩,
    ⟨base, sound_of (by decide +kernel), by decide +kernel⟩,
    ⟨base, sound_of (by decide +kernel), [], by decide +kernel⟩,
    ⟨up, sound_of (by decide +kernel), [], by decide +kernel⟩,
    ⟨rd' act (fun r => { r with tx := some ig }), sound_of (by decide +kernel), by decide +kernel⟩,
    ⟨up, sound_of (by decide +kernel), by decide +kernel⟩,
    ⟨role base 2, sound_of (by decide +kernel), by decide +kernel⟩⟩

theorem witness_RoleChanges :
    (∃ (s : State), Sound s ∧ s.role = 0 ∧ s.running = true ∧ s.paired = true ∧ s.red.heard.contains 3 = true
        ∧ (s.flag Reg.RED_STAT.line_ok 0 = true ∨ s.flag Reg.RED_STAT.ring_ok 0 = true ∨ s.rd Reg.RED_STAT.partner_code 0 ≠ 3))
        ∧ (∃ (s : State), Sound s ∧ (s.role = 0 ∧ s.running = true ∧ s.paired = true ∧ s.red.heard.contains 3 = false
        ∧ (s.red.heard.contains 0 = false ∨ s.rank = 2)) ∧ ¬(s.rank = 2 ∨ s.flag Reg.RED_CTRL.cold_start_permit 0 = true))
        ∧ (∃ (s : State), Sound s ∧ (s.role = 0 ∧ s.running = true ∧ s.paired = true ∧ s.red.heard.contains 3 = false
        ∧ (s.red.heard.contains 0 = false ∨ s.rank = 2)) ∧ (s.rank = 2 ∨ s.flag Reg.RED_CTRL.cold_start_permit 0 = true)
        ∧ s.rd Reg.RED_TERM_SEEN.term 0 ≠ 268435455)
      ∧ (∃ (s : State), Sound s ∧ (s.role ≠ 0 ∨ s.running = false ∨ s.paired = false))
        ∧ (∃ (s : State), Sound s ∧ ∃ (path : Fin 2), s.role = 1 ∧ s.rd Reg.RED_STAT.partner_code 0 = 3 ∧ s.newestSlot ≠ none
        ∧ s.flag (if path = 1 then Reg.RED_STAT.ring_ok else Reg.RED_STAT.line_ok) 0 = true
        ∧ s.flag (if path = 1 then Reg.RED_STAT.line_ok else Reg.RED_STAT.ring_ok) 0 = false)
      ∧ (∃ (s : State), Sound s ∧ HostUp s
        ∧ s.role = 5 ∧ (s.flag Reg.RED_STAT.line_ok 0 = true ∨ s.flag Reg.RED_STAT.ring_ok 0 = true ∨ s.rd Reg.RED_STAT.partner_code 0 ≠ 3))
        ∧ (∃ (s : State), Sound s ∧ HostUp s ∧ s.role = 6)
      ∧ (∃ (s : State), Sound s ∧ ∃ (c : Instr), HostUp s ∧ (c = Instr.redCmdStandby
        ∧ s.role ≠ 5 ∨ c = Instr.redCmdActivate ∧ s.role ≠ 6))
      ∧ (∃ (s : State), Sound s ∧ s.role = 2 ∧ s.red.restoreDone = false
        ∧ s.red.restoring ≠ 0 ∧ s.red.cold = false ∧ ∃ (n : Nat), s.newestSlot = some n ∧ (s.slot n).valid = true ∧ (s.slot n).bad = false
        ∧ s.rd Reg.RED_TERM_SEEN.term 0 ≠ 268435455 ∧ ∀ (x : Nat × Nat), x ∈ (s.slot n).image.regs → ∀ (f : Field), f ∈ [Reg.RED_TERM_SEEN.term,
        Reg.RED_STAT.role, Reg.RED_STAT.strap] → x.fst ≠ regKey f 0)
      ∧ (∃ (s : State), Sound s ∧ s.role = 2 ∧ s.red.restoreDone = false
        ∧ s.red.restoring ≠ 0 ∧ s.red.cold = false ∧ ∃ (n : Nat), s.newestSlot = some n ∧ n < 2 ∧ (s.slot n).bad = true
        ∧ (s.slot (1 - n)).valid = false ∧ s.flag Reg.RED_CTRL.cold_start_permit 0 = false)
      ∧ (∃ (s : State), Sound s
        ∧ ∃ (errs : List BadWord), s.role ≠ 2 ∨ s.red.restoreDone = true ∨ s.red.restoring = 0)
      ∧ (∃ (s : State), Sound s ∧ s.role = 1
        ∧ s.paired = true ∧ s.rank = 2 ∧ s.flag Reg.RED_CTRL.revert_en 0 = true ∧ s.healthyNow = true ∧ ∃ (since : Nat),
        s.red.healthyAt = some since ∧ s.rd Reg.RED_REVERT_CFG.holdoff 0 * 12800000000 ≤ (s.now + 2 ^ 64 - since) % 2 ^ 64)
        ∧ (∃ (s : State), Sound s ∧ s.red.healthyAt = none) :=
  ⟨⟨rd' (role base 0) (fun r => { r with heard := [3] }), sound_of (by decide +kernel), by decide +kernel⟩,
    ⟨role base 0, sound_of (by decide +kernel), by decide +kernel⟩,
    ⟨rankd (role base 0) 2, sound_of (by decide +kernel), by decide +kernel⟩,
    ⟨up, sound_of (by decide +kernel), by decide +kernel⟩,
    ⟨slotted stbOk true, sound_of (by decide +kernel), 0, by decide +kernel⟩,
    ⟨role base 5, sound_of (by decide +kernel), by decide +kernel⟩,
    ⟨role base 6, sound_of (by decide +kernel), by decide +kernel⟩,
    ⟨up, sound_of (by decide +kernel), (Instr.redCmdActivate), by decide +kernel⟩,
    ⟨rd' (slotted (role base 2) true) (fun r => { r with restoring := 4 }), sound_of (by decide +kernel), by decide +kernel,
      by decide +kernel, by decide +kernel, by decide +kernel, 0, by decide +kernel⟩,
    ⟨badsl, sound_of (by decide +kernel), by decide +kernel, by decide +kernel, by decide +kernel, by decide +kernel, 0, by decide +kernel⟩,
    ⟨up, sound_of (by decide +kernel), [], by decide +kernel⟩,
    ⟨wrs (rd' (slotted (rankd stb 2) true) (fun r => { r with healthyAt := some 0 })) [(Reg.RED_CTRL.revert_en,0,1),(Reg.RED_STAT.line_ok,0,1),(Reg.RED_STAT.ring_ok,0,1),(Reg.RED_RING_STAT.east_up,0,1),(Reg.RED_RING_STAT.west_up,0,1),(Reg.RED_CKPT_CFG.period,0,5),(Reg.RED_REVERT_CFG.holdoff,0,0),(Reg.RED_PEER_DIGEST.digest,0,0),(Reg.CFG_DIGEST.digest,0,0)],
      sound_of (by decide +kernel), by decide +kernel, by decide +kernel, by decide +kernel, by decide +kernel, by decide +kernel, 0,
      by decide +kernel⟩,
    ⟨up, sound_of (by decide +kernel), by decide +kernel⟩⟩

end Pair

/-! ### Safety -/

namespace Supervision

def tg (s : State) (l : List (Nat × Nat)) := wrs s (l.map (fun x => (Reg.SAF_TGT.state, x.1, x.2)))
def sf (s : State) (f : Saf → Saf) : State := { s with saf := f s.saf }
def s0 := tg (wrs base [(Reg.SAF_STAT.state,0,0),(Reg.SAF_STAT.chan_a_ok,0,1),(Reg.SAF_STAT.chan_b_ok,0,1),(Reg.SAF_STAT.clk_ok,0,1)]) [(0,1),(1,1),(2,1)]
def s1 := tg s0 [(0,2),(1,3),(2,1)]
def s2 := sf (tg s0 [(0,3),(1,2),(2,3)]) (fun x => { x with unlock := some 999999 })
def s3 := sf s2 (fun x => { x with expiryHold := 1, pairs := [(0, { PairRt.clear with a := ⟨true,false,3⟩ })], pchs := [(0, { PchRt.clear with xa := fBig, staleA := true })] })
def s4 := wrs s3 [(Reg.SAF_STAT.state,0,1),(Reg.SAF_DEMAND.pair,0,1),(Reg.SAF_PCH_VAL.x,0,fBig),(Reg.SAF_SOUT_STAT.on,0,1)]
def s5 := sf (wrs s1 [(Reg.SAF_STAT.state,0,1),(Reg.SAF_PCH_VAL.x,0,fBig)]) (fun x => { x with clkBad := 1, pairs := [(0, { PairRt.clear with a := ⟨false,true,3⟩ })] })
def xs (f : Machine.Safety → Machine.Safety) (s : State) : State := { s with bs := { s.bs with safety := some (f saf0) } }
def e1 := xs (fun x => { x with expiry := 1 }) (tg (wrs s1 [(Reg.SAF_STAT.state,0,1)]) [(0,1),(1,2)])
def exs := xs (fun x => { x with targets := [⟨0, [0], 100, 10, some 0⟩] }) s1
def xsaf : Machine.Safety := { saf0 with targets := [⟨0, [0], 100, 10, some 0⟩] }
def pch0 : PchEntry := saf0.pchs.head (by decide)
def env (v : Nat) : State := sf (wrs exs [(Reg.SAF_TGT.state,0,2),(Reg.SAF_PCH_VAL.x,0,v)]) (fun x => { x with stopAt := [(0, 0, 0)] })

theorem witness_StopTargets :
    (∃ (s : State), Sound s ∧ ∃ (mask : Nat), HostUp s)
      ∧ (∃ (s : State), Sound s ∧ ∃ (n : Fin 16), s.target n.val = 2
        ∧ ∃ (x : Machine.Safety), ∃ (e : TgtEntry), s.bs.safety = some x
        ∧ List.find? (fun (e : TgtEntry) => e.target == n.val) x.targets = some e)
      ∧ (∃ (s : State), Sound s ∧ ∃ (n : Fin 16),
        s.target n.val ≠ 2)
      ∧ (∃ (s : State), Sound s ∧ ∃ (n : Fin 16), ∃ (x : Machine.Safety), ∃ (e : TgtEntry), ∃ (m : Nat),
        ∃ (c : PchEntry), ∃ (since : Nat), ∃ (src : Nat), s.bs.safety = some x
        ∧ List.find? (fun (e : TgtEntry) => e.target == n.val) x.targets = some e ∧ e.mon = some m
        ∧ List.find? (fun (c : PchEntry) => c.chan == m && c.func != 0) x.pchs = some c ∧ s.target n.val = 2 ∧ e.target = n.val
        ∧ List.find? (fun (y : Nat × Nat × Nat) => y.fst == n.val) s.saf.stopAt = some (n.val, since, src)
        ∧ fVal f32 c.limit * ↑(max (e.ramp * 12800000) 1 - min ((s.now + 2 ^ 64 - since) % 2 ^ 64) (max (e.ramp * 12800000) 1)) < (↑(fVal f32 (s.rd
            Reg.SAF_PCH_VAL.x c.chan)).natAbs - fVal f32 c.tol) * ↑(max (e.ramp * 12800000) 1))
        ∧ (∃ (s : State), Sound s ∧ ∃ (n : Fin 16), ∃ (x : Machine.Safety), ∃ (e : TgtEntry), ∃ (m : Nat), ∃ (c : PchEntry), ∃ (since : Nat),
        ∃ (src : Nat), s.bs.safety = some x ∧ List.find? (fun (e : TgtEntry) => e.target == n.val) x.targets = some e ∧ e.mon = some m
        ∧ List.find? (fun (c : PchEntry) => c.chan == m && c.func != 0) x.pchs = some c ∧ s.target n.val = 2 ∧ e.target = n.val
        ∧ List.find? (fun (y : Nat × Nat × Nat) => y.fst == n.val) s.saf.stopAt = some (n.val, since, src)
        ∧ ¬fVal f32 c.limit * ↑(max (e.ramp * 12800000) 1 - min ((s.now + 2 ^ 64 - since) % 2 ^ 64) (max (e.ramp * 12800000) 1)) < (↑(fVal f32 (s.rd
            Reg.SAF_PCH_VAL.x c.chan)).natAbs - fVal f32 c.tol) * ↑(max (e.ramp * 12800000) 1))
        ∧ (∃ (s : State), Sound s ∧ ∃ (mask : Nat), HostUp s ∧ s.saf.unlock = none)
      ∧ (∃ (s : State), Sound s ∧ ∃ (n : Fin 16), HostUp s
        ∧ s.saf.unlock ≠ none ∧ s.target n.val ≠ 3)
      ∧ (∃ (s : State), Sound s ∧ ∃ (n : Fin 16), ∃ (x : Machine.Safety), HostUp s
        ∧ s.saf.unlock ≠ none ∧ s.bs.safety = some x ∧ s.target n.val = 3 ∧ s.targetDemand n.val = false ∧ s.saf.expiryHold / 2 ^ n.val % 2 = 0
        ∧ ∀ (e : PairEntry), e ∈ x.pairs → e.mode ≠ 0 → e.targets / 2 ^ n.val % 2 = 1 → (s.pair e.pair).demands = false
        ∧ (s.pair e.pair).a.fail = false ∧ (s.pair e.pair).b.fail = false)
      ∧ (∃ (s : State), Sound s ∧ ∃ (key : Nat), HostUp s
        ∧ key % 65536 = 23294)
      ∧ (∃ (s : State), Sound s ∧ ∃ (key : Nat), key % 65536 ≠ 23294)
      ∧ (∃ (s : State), Sound s) :=
  ⟨⟨up, sound_of (by decide +kernel), 4301, by decide +kernel⟩,
    ⟨s1, sound_of (by decide +kernel), 0, by decide +kernel, saf0, { target := 0, lanes := [0], ramp := 100, margin := 10, mon := some 0 },
      by decide +kernel⟩,
    ⟨up, sound_of (by decide +kernel), 4, by decide +kernel⟩,
    ⟨env fBig, sound_of (by decide +kernel), 0, xsaf, { target := 0, lanes := [0], ramp := 100, margin := 10, mon := some 0 }, 0, pch0, 0, 0,
      by decide +kernel⟩,
    ⟨env 0, sound_of (by decide +kernel), 0, xsaf, { target := 0, lanes := [0], ramp := 100, margin := 10, mon := some 0 }, 0, pch0, 0, 0,
      by decide +kernel⟩,
    ⟨up, sound_of (by decide +kernel), 4301, by decide +kernel⟩,
    ⟨s2, sound_of (by decide +kernel), 4, by decide +kernel⟩,
    ⟨s2, sound_of (by decide +kernel), 2, saf0, by decide +kernel⟩,
    ⟨up, sound_of (by decide +kernel), 88830, by decide +kernel⟩,
    ⟨up, sound_of (by decide +kernel), 4301, by decide +kernel⟩,
    ⟨up, sound_of (by decide +kernel)⟩⟩

theorem witness_SafetyInputs :
    (∃ (s : State), ∃ (x : Machine.Safety), Sound s ∧ s.bs.safety = some x ∧ ∃ (p : Fin 8), ∃ (c : Fin 2), ∃ (e : PairEntry),
        List.find? (fun (e : PairEntry) => e.pair == ↑p && e.mode != 0) x.pairs = some e ∧ ((s.pair ↑p).chan ↑c).fail = false
        ∧ s.bitAt Reg.SAF_DEMAND.pair 0 ↑p = false)
      ∧ (∃ (s : State), ∃ (x : Machine.Safety), Sound s ∧ s.bs.safety = some x
        ∧ ∃ (p : Fin 8), ∃ (e : PairEntry), List.find? (fun (e : PairEntry) => e.pair == ↑p && e.mode != 0) x.pairs = some e ∧ e.pair = ↑p
        ∧ ((s.pair ↑p).a.fail = false ∨ (s.pair ↑p).b.fail = false))
      ∧ (∃ (s : State), ∃ (x : Machine.Safety), Sound s
        ∧ s.bs.safety = some x ∧ ∃ (p : Fin 8), ∃ (a : Bool), ∃ (b : Bool), ∃ (e : PairEntry),
        List.find? (fun (e : PairEntry) => e.pair == ↑p && e.mode != 0) x.pairs = some e ∧ e.mode ≠ 3)
      ∧ (∃ (s : State),
        ∃ (x : Machine.Safety), Sound s ∧ s.bs.safety = some x ∧ ∃ (p : Fin 8), ∃ (c : Fin 2), ∃ (e : PairEntry), ∃ (n : Nat),
        List.find? (fun (e : PairEntry) => e.pair == ↑p && e.mode != 0) x.pairs = some e ∧ e.pair = ↑p
        ∧ (if ↑c = 0 then some e.stpA else if e.mode = 2 then none else some e.stpB) = some n ∧ ((s.pair ↑p).chan (1 - ↑c)).fail = false
        ∧ ((s.pair ↑p).chan (1 - ↑c)).demand = false)
      ∧ (∃ (s : State), ∃ (x : Machine.Safety), Sound s ∧ s.bs.safety = some x
        ∧ ∃ (n : Fin 4), ∃ (e : PchEntry), List.find? (fun (e : PchEntry) => e.chan == n.val && e.func != 0) x.pchs = some e ∧ e.chan = n.val
        ∧ s.flag Reg.SAF_PCH_STAT.violation n.val = false ∧ s.pchExceeds e (s.rd Reg.SAF_PCH_VAL.x n.val) = true)
      ∧ (∃ (s : State),
        ∃ (x : Machine.Safety), Sound s ∧ s.bs.safety = some x ∧ ∃ (n : Fin 4), ∃ (e : PchEntry),
        List.find? (fun (e : PchEntry) => e.chan == n.val && e.func != 0) x.pchs = some e
        ∧ s.pchExceeds e (s.rd Reg.SAF_PCH_VAL.x n.val) = false)
      ∧ (∃ (s : State), ∃ (x : Machine.Safety), Sound s ∧ s.bs.safety = some x
        ∧ ∃ (n : Fin 4), ∃ (sa : Bool), ∃ (sb : Bool), ∃ (e : PchEntry),
        List.find? (fun (e : PchEntry) => e.chan == n.val && e.func != 0) x.pchs = some e ∧ e.chan = n.val
        ∧ (e.apart
            { xa := (s.pch n.val).xa, xb := (s.pch n.val).xb, staleA := (s.pch n.val).staleA || sa, staleB := (s.pch n.val).staleB || sb, disc := (s.pch n.val).disc : PchRt } = true ∨ { xa := (s.pch n.val).xa, xb := (s.pch n.val).xb, staleA := (s.pch n.val).staleA || sa, staleB := (s.pch n.val).staleB || sb, disc := (s.pch n.val).disc : PchRt }.staleA = true ∨ { xa := (s.pch n.val).xa, xb := (s.pch n.val).xb, staleA := (s.pch n.val).staleA || sa, staleB := (s.pch n.val).staleB || sb, disc := (s.pch n.val).disc : PchRt }.staleB = true)
        ∧ ({ xa := (s.pch n.val).xa, xb := (s.pch n.val).xb, staleA := (s.pch n.val).staleA || sa, staleB := (s.pch n.val).staleB || sb, disc := (s.pch n.val).disc : PchRt }.staleA = false ∨ { xa := (s.pch n.val).xa, xb := (s.pch n.val).xb, staleA := (s.pch n.val).staleA || sa, staleB := (s.pch n.val).staleB || sb, disc := (s.pch n.val).disc : PchRt }.staleB = false)) :=
  ⟨⟨base, saf0, sound_of (by decide +kernel), by decide +kernel, 1, 1,
      { pair := 1, mode := 2, stpA := 2, stpB := 3, kind := 1, filter := 5, disc := 10, targets := 0 }, by decide +kernel⟩,
    ⟨base, saf0, sound_of (by decide +kernel), by decide +kernel, 1,
      { pair := 1, mode := 2, stpA := 2, stpB := 3, kind := 1, filter := 5, disc := 10, targets := 0 }, by decide +kernel⟩,
    ⟨base, saf0, sound_of (by decide +kernel), by decide +kernel, 1, true, true,
      { pair := 1, mode := 2, stpA := 2, stpB := 3, kind := 1, filter := 5, disc := 10, targets := 0 }, by decide +kernel⟩,
    ⟨base, saf0, sound_of (by decide +kernel), by decide +kernel, 1, 0,
      { pair := 1, mode := 2, stpA := 2, stpB := 3, kind := 1, filter := 5, disc := 10, targets := 0 }, 2, by decide +kernel⟩,
    ⟨s4, saf0, sound_of (by decide +kernel), by decide +kernel, 0, pch0, by decide +kernel⟩,
    ⟨base, saf0, sound_of (by decide +kernel), by decide +kernel, 0, pch0, by decide +kernel⟩,
    ⟨base, saf0, sound_of (by decide +kernel), by decide +kernel, 0, true, false, pch0, by decide +kernel⟩⟩

theorem witness_SafetySupervision :
    (∃ (s : State), ∃ (x : Machine.Safety), Sound s ∧ s.bs.safety = some x)
      ∧ (∃ (s : State), ∃ (x : Machine.Safety), Sound s
        ∧ s.bs.safety = some x ∧ ∃ (n : Fin 4), s.fedBy n.val = [])
      ∧ (∃ (s : State), ∃ (x : Machine.Safety), Sound s ∧ s.bs.safety = some x
        ∧ HostUp s)
      ∧ (∃ (s : State), ∃ (x : Machine.Safety), Sound s ∧ s.bs.safety = some x ∧ ∃ (n : Fin 4),
        s.bitAt Reg.SAF_SOUT_STAT.on 0 n.val = true)
      ∧ (∃ (s : State), ∃ (x : Machine.Safety), Sound s ∧ s.bs.safety = some x
        ∧ ∃ (n : Fin 4), ∃ (agrees : Bool), s.bitAt Reg.SAF_SOUT_STAT.on 0 n.val = false)
      ∧ (∃ (s : State), ∃ (x : Machine.Safety), Sound s
        ∧ s.bs.safety = some x ∧ s.rd Reg.SAF_STAT.state 0 = 1 ∧ x.expiry = 0)
      ∧ (∃ (s : State), ∃ (x : Machine.Safety), Sound s
        ∧ s.bs.safety = some x ∧ s.rd Reg.SAF_STAT.state 0 = 1 ∧ (x.expiry = 1 ∨ x.expiry = 2 ∨ x.expiry = 3) ∧ ∀ (e : TgtEntry),
        e ∈ x.targets → e.target < 16)
      ∧ (∃ (s : State), ∃ (x : Machine.Safety), Sound s ∧ s.bs.safety = some x
        ∧ s.rd Reg.SAF_STAT.state 0 ≠ 1)
      ∧ (∃ (s : State), ∃ (x : Machine.Safety), Sound s ∧ s.bs.safety = some x ∧ ∃ (count : Nat),
        3700 ≤ count ∧ count ≤ 4300)
      ∧ (∃ (s : State), ∃ (x : Machine.Safety), Sound s ∧ s.bs.safety = some x ∧ ∃ (count : Nat),
        (count < 3700 ∨ 4300 < count) ∧ s.saf.clkBad = 1 ∧ s.rd Reg.SAF_STAT.state 0 ≠ 2 ∧ x.expiry = 0)
      ∧ (∃ (s : State),
        ∃ (x : Machine.Safety), Sound s ∧ s.bs.safety = some x ∧ ∃ (a : Bool), ∃ (b : Bool), ∃ (agree : Bool), (a && b && agree) = false
        ∧ (a || b) = true)
      ∧ (∃ (s : State), ∃ (x : Machine.Safety), Sound s ∧ s.bs.safety = some x ∧ ∃ (mask : Nat), HostUp s
        ∧ s.saf.unlock ≠ none ∧ s.causeRemains = false)
      ∧ (∃ (s : State), ∃ (x : Machine.Safety), Sound s ∧ s.bs.safety = some x
        ∧ ∃ (mask : Nat), HostUp s ∧ s.saf.unlock ≠ none ∧ s.causeRemains = true) :=
  ⟨⟨base, saf0, sound_of (by decide +kernel), by decide +kernel⟩,
    ⟨base, saf0, sound_of (by decide +kernel), by decide +kernel, 3, by decide +kernel⟩,
    ⟨base, saf0, sound_of (by decide +kernel), by decide +kernel⟩,
    ⟨s4, saf0, sound_of (by decide +kernel), by decide +kernel, 0, by decide +kernel⟩,
    ⟨base, saf0, sound_of (by decide +kernel), by decide +kernel, 3, true, by decide +kernel⟩,
    ⟨s4, saf0, sound_of (by decide +kernel), by decide +kernel⟩,
    ⟨e1,
      { digest := 77, pairs := [{ pair := 0, mode := 1, stpA := 0, stpB := 1, kind := 0, filter := 5, disc := 10, targets := 3 }, { pair := 1, mode := 2, stpA := 2, stpB := 3, kind := 1, filter := 5, disc := 10, targets := 0 }], pchs := [pch0], targets := [{ target := 0, lanes := [0], ramp := 100, margin := 10, mon := some 0 }, { target := 1, lanes := [2], ramp := 100, margin := 10, mon := none }, { target := 2, lanes := [], ramp := 100, margin := 10, mon := none }], reqs := [(0, 4, 0)], souts := [{ out := 0, targets := 3, standbyOn := false }], tpWidth := 10, tpPeriod := 100, expiry := 1, degWindow := 600, base := 20480 },
      sound_of (by decide +kernel), by decide +kernel⟩,
    ⟨base, saf0, sound_of (by decide +kernel), by decide +kernel⟩,
    ⟨base, saf0, sound_of (by decide +kernel), by decide +kernel, 4300, by decide +kernel⟩,
    ⟨s5, saf0, sound_of (by decide +kernel), by decide +kernel, 4301, by decide +kernel⟩,
    ⟨base, saf0, sound_of (by decide +kernel), by decide +kernel, true, true, false, by decide +kernel⟩,
    ⟨s2, saf0, sound_of (by decide +kernel), by decide +kernel, 4301, by decide +kernel⟩,
    ⟨s3, saf0, sound_of (by decide +kernel), by decide +kernel, 4301, by decide +kernel⟩⟩

end Supervision

/-! ### Keys and flash -/

namespace Flash

def cf (s : State) (f : Cfg → Cfg) : State := { s with cfg := f s.cfg }
def blank (s : State) : State := cf s (fun c => { c with extent := (0,0) })
def key (n : Nat) (k : KeySlot) (s : State) : State := cf s (fun c => { c with keys := tabSet KeySlot.blank c.keys n k })
def wd (n : Nat) (s : State) : State := cf s (fun c => { c with words := List.replicate n 7 })
def fa (n : Nat) (wp : Nat) := wrs base [(Reg.CFG_FLASH_ADDR.addr,0,n),(Reg.CFG_CTRL.flash_wp,0,wp)]
def opd (c a : Nat) := cf base (fun x => { x with op := some ⟨c, a⟩, page := [(0,3),(255,9)], flash := [(a,1),(a+255,6),(a+4095,3)] })

theorem witness_KeysAndFlash :
    (∃ (s : State), Sound s ∧ ∃ (v : Nat), HostUp s ∧ s.cfg.words.length < 12)
      ∧ (∃ (s : State), Sound s ∧ ∃ (n : Fin 8), HostUp s
        ∧ n.val ≤ 5 ∧ (s.keySlot n.val).hash = none ∧ s.cfg.words.length = 12)
      ∧ (∃ (s : State), Sound s ∧ ∃ (n : Fin 8), HostUp s
        ∧ n.val ≤ 5 ∧ ∃ (h : Nat), (s.keySlot n.val).hash = some h)
      ∧ (∃ (s : State), Sound s ∧ ∃ (n : Fin 8), HostUp s ∧ n.val ≤ 5
        ∧ (s.keySlot n.val).hash = none ∧ s.cfg.words.length < 12)
      ∧ (∃ (s : State), Sound s ∧ ∃ (n : Fin 8), HostUp s ∧ n.val ≤ 5
        ∧ ∃ (m : Nat), ∃ (h : Nat), m ≠ n.val ∧ (if n.val < 4 then m < 4 else m = 4 ∨ m = 5)
        ∧ s.keySlot m = { hash := some h, revoked := false : KeySlot } ∧ (s.keySlot n.val).revoked = false)
      ∧ (∃ (s : State), Sound s
        ∧ ∃ (n : Fin 8), HostUp s ∧ n.val ≤ 5 ∧ ∀ (m h : Nat),
        m ≠ n.val → (if n.val < 4 then m < 4 else m = 4 ∨ m = 5) → s.keySlot m ≠ { hash := some h, revoked := false : KeySlot })
        ∧ (∃ (s : State), Sound s ∧ ∃ (n : Fin 8), HostUp s ∧ 5 < n.val ∧ ∃ (c : Instr), c = Instr.keyProgram n ∨ c = Instr.keyRevoke n)
        ∧ (∃ (s : State), Sound s ∧ HostUp s ∧ s.cfg.op = none ∧ s.rd Reg.CFG_FLASH_ADDR.addr 0 % 256 = 0
        ∧ s.rd Reg.CFG_FLASH_ADDR.addr 0 < Config.flashBytes ∧ (false = true → s.flashInUse (s.rd Reg.CFG_FLASH_ADDR.addr 0) 256 = false
        ∧ s.flag Reg.CFG_CTRL.flash_wp 0 = false))
      ∧ (∃ (s : State), Sound s ∧ HostUp s ∧ s.cfg.op = none
        ∧ (s.rd Reg.CFG_FLASH_ADDR.addr 0 % 256 ≠ 0 ∨ Config.flashBytes ≤ s.rd Reg.CFG_FLASH_ADDR.addr 0))
      ∧ (∃ (s : State), Sound s
        ∧ HostUp s ∧ s.cfg.op = none ∧ s.rd Reg.CFG_FLASH_ADDR.addr 0 % 256 = 0 ∧ s.rd Reg.CFG_FLASH_ADDR.addr 0 < Config.flashBytes
        ∧ (true = true → s.flashInUse (s.rd Reg.CFG_FLASH_ADDR.addr 0) 256 = false ∧ s.flag Reg.CFG_CTRL.flash_wp 0 = false))
        ∧ (∃ (s : State), Sound s ∧ HostUp s ∧ s.cfg.op = none ∧ s.rd Reg.CFG_FLASH_ADDR.addr 0 % 256 = 0
        ∧ s.rd Reg.CFG_FLASH_ADDR.addr 0 < Config.flashBytes
        ∧ (s.flashInUse (s.rd Reg.CFG_FLASH_ADDR.addr 0) 256 = true ∨ s.flag Reg.CFG_CTRL.flash_wp 0 = true))
      ∧ (∃ (s : State), Sound s
        ∧ HostUp s ∧ s.cfg.op = none ∧ s.rd Reg.CFG_FLASH_ADDR.addr 0 % 4096 = 0 ∧ s.rd Reg.CFG_FLASH_ADDR.addr 0 < Config.flashBytes
        ∧ (true = true → s.flashInUse (s.rd Reg.CFG_FLASH_ADDR.addr 0) 4096 = false ∧ s.flag Reg.CFG_CTRL.flash_wp 0 = false))
        ∧ (∃ (s : State), Sound s ∧ HostUp s ∧ s.cfg.op = none
        ∧ (s.rd Reg.CFG_FLASH_ADDR.addr 0 % 4096 ≠ 0 ∨ Config.flashBytes ≤ s.rd Reg.CFG_FLASH_ADDR.addr 0))
      ∧ (∃ (s : State), Sound s
        ∧ HostUp s ∧ s.cfg.op = none ∧ s.rd Reg.CFG_FLASH_ADDR.addr 0 % 4096 = 0 ∧ s.rd Reg.CFG_FLASH_ADDR.addr 0 < Config.flashBytes
        ∧ (s.flashInUse (s.rd Reg.CFG_FLASH_ADDR.addr 0) 4096 = true ∨ s.flag Reg.CFG_CTRL.flash_wp 0 = true))
      ∧ (∃ (s : State), Sound s
        ∧ ∃ (o : FlashOp), s.cfg.op = some o ∧ o.cmd = 1)
      ∧ (∃ (s : State), Sound s ∧ ∃ (o : FlashOp), s.cfg.op = some o ∧ o.cmd = 2)
        ∧ (∃ (s : State), Sound s ∧ ∃ (o : FlashOp), s.cfg.op = some o ∧ o.cmd = 3)
      ∧ (∃ (s : State), Sound s ∧ ∃ (o : FlashOp),
        s.cfg.op = some o)
      ∧ (∃ (s : State), Sound s ∧ s.cfg.op = none)
      ∧ (∃ (s : State), Sound s ∧ ∃ (req : Nat), ∃ (v : Nat),
        HostUp s) :=
  ⟨⟨up, sound_of (by decide +kernel), 4294967299, by decide +kernel⟩,
    ⟨wd 12 base, sound_of (by decide +kernel), 5, by decide +kernel⟩,
    ⟨key 0 ⟨some 5,false⟩ (key 1 ⟨some 6,false⟩ (wd 12 base)), sound_of (by decide +kernel), 1, by decide +kernel, by decide +kernel, 6,
      by decide +kernel⟩,
    ⟨up, sound_of (by decide +kernel), 5, by decide +kernel⟩,
    ⟨key 0 ⟨some 5,false⟩ (key 1 ⟨some 6,false⟩ (wd 12 base)), sound_of (by decide +kernel), 3, by decide +kernel, by decide +kernel, 1, 6,
      by decide +kernel⟩,
    ⟨up, sound_of (by decide +kernel), 5, by decide +kernel, by decide +kernel,
      (fun m h _ _ e => nomatch congrArg KeySlot.hash (show KeySlot.blank = _ from e))⟩,
    ⟨up, sound_of (by decide +kernel), 7, by decide +kernel, by decide +kernel, (Instr.keyRevoke 7), by decide +kernel⟩,
    ⟨up, sound_of (by decide +kernel), by decide +kernel⟩,
    ⟨fa 0x20004 0, sound_of (by decide +kernel), by decide +kernel⟩,
    ⟨fa 0 0, sound_of (by decide +kernel), by decide +kernel⟩,
    ⟨up, sound_of (by decide +kernel), by decide +kernel⟩,
    ⟨fa 0 0, sound_of (by decide +kernel), by decide +kernel⟩,
    ⟨fa 0x20004 0, sound_of (by decide +kernel), by decide +kernel⟩,
    ⟨up, sound_of (by decide +kernel), by decide +kernel⟩,
    ⟨opd 1 0x20000, sound_of (by decide +kernel), { cmd := 1, addr := 131072 }, by decide +kernel⟩,
    ⟨opd 2 0x20000, sound_of (by decide +kernel), { cmd := 2, addr := 131072 }, by decide +kernel⟩,
    ⟨opd 3 0x20000, sound_of (by decide +kernel), { cmd := 3, addr := 131072 }, by decide +kernel⟩,
    ⟨opd 1 0x20000, sound_of (by decide +kernel), { cmd := 1, addr := 131072 }, by decide +kernel⟩,
    ⟨up, sound_of (by decide +kernel), by decide +kernel⟩,
    ⟨up, sound_of (by decide +kernel), 4294967299, 4294967299, by decide +kernel⟩⟩

end Flash

/-! ### Bit-stream loads and live packages -/

namespace Loading

def cf (s : State) (f : Cfg → Cfg) : State := { s with cfg := f s.cfg }
def lr (n t : Nat) := wrs base [(Reg.CFG_LR_STAT.state,0,n),(Reg.CFG_LR_TGT_LO.target_lo,0,t)]
/-- A load and a verification under way, of an image at 64 where flash is erased. -/
def bootl (s : State) : State := cf s (fun c => { c with loading := true, verifying := true, order := [(0, 64)] })
def armed (n : Nat) : State := cf (lr 3 0) (fun c => { c with staged := some ⟨[], 4096, 0, [], n, false⟩ })

/-- Every clause but the three that need a correctly signed image (a load that succeeds, a verification that succeeds, a package that
checks out): one scalar multiplication of the signature check takes the kernel too long. Their premises were met outside the package on
a signed image (notes/assumptions/40.md). -/
theorem witness_LoadsAndPackages :
    (∃ (s : State), Sound s ∧ HostUp s ∧ s.armsRunning = true)
      ∧ (∃ (s : State), Sound s ∧ HostUp s ∧ s.armsRunning = false
        ∧ (∀ (x : Nat × Nat), s.loadOrder.head? = some x → s.safetyHeld x.snd = false) ∧ s.cfgBusy = false
        ∧ s.rd Reg.CFG_LR_STAT.state 0 ≠ 3)
      ∧ (∃ (s : State), ∃ (a : BitStream), ∃ (b : BitStream), Sound s ∧ ∃ (i : Nat), ∃ (base : Nat),
        ∃ (e : LoadError), s.cfg.loading = true ∧ s.running = true ∧ s.cfg.order = [(i, base)]
        ∧ s.streamError base (if i = 0 then a else b) = some e)
      ∧ (∃ (s : State), Sound s ∧ s.cfg.loading = false)
      ∧ (∃ (s : State),
        Sound s ∧ HostUp s ∧ s.cfgBusy = false)
      ∧ (∃ (s : State), Sound s ∧ HostUp s ∧ s.cfgBusy = true)
      ∧ (∃ (s : State),
        ∃ (a : BitStream), ∃ (b : BitStream), Sound s ∧ ∃ (i : Nat), ∃ (base : Nat), s.cfg.verifying = true ∧ s.cfg.order.head? = some (i, base)
        ∧ ∃ (e : LoadError), s.streamError base (if i = 0 then a else b) = some e)
      ∧ (∃ (s : State), Sound s
        ∧ s.cfg.verifying = false)
      ∧ (∃ (s : State), Sound s ∧ HostUp s ∧ s.cfgBusy = false ∧ s.rd Reg.CFG_LR_STAT.state 0 ≠ 2
        ∧ s.rd Reg.CFG_LR_STAT.state 0 ≠ 3)
      ∧ (∃ (s : State), Sound s ∧ HostUp s
        ∧ (s.cfgBusy = true ∨ s.rd Reg.CFG_LR_STAT.state 0 = 2 ∨ s.rd Reg.CFG_LR_STAT.state 0 = 3))
      ∧ (∃ (s : State),
        ∃ (parts : List LrPart), Sound s ∧ ∃ (p : Staged), s.cfg.staged = some p ∧ s.rd Reg.CFG_LR_STAT.state 0 = 1 ∧ ∃ (e : LoadError),
        s.packageError p.base (s.packageParts p.base parts) = some e)
      ∧ (∃ (s : State), Sound s ∧ HostUp s
        ∧ s.rd Reg.CFG_LR_STAT.state 0 = 2 ∧ s.epo.k + 2 ≤ s.rd Reg.CFG_LR_TGT_LO.target_lo 0 + 2 ^ 32 * s.rd Reg.CFG_LR_TGT_HI.target_hi 0
        ∧ s.rd Reg.CFG_LR_TGT_LO.target_lo 0 + 2 ^ 32 * s.rd Reg.CFG_LR_TGT_HI.target_hi 0 ≤ s.epo.k + 2 ^ 24
        ∧ s.flag Reg.RED_STAT.handover 0 = false)
      ∧ (∃ (s : State), Sound s ∧ HostUp s ∧ s.rd Reg.CFG_LR_STAT.state 0 ≠ 2)
        ∧ (∃ (s : State), Sound s ∧ HostUp s ∧ s.rd Reg.CFG_LR_STAT.state 0 = 2
        ∧ s.rd Reg.CFG_LR_TGT_LO.target_lo 0 + 2 ^ 32 * s.rd Reg.CFG_LR_TGT_HI.target_hi 0 < s.epo.k + 2)
      ∧ (∃ (s : State), Sound s
        ∧ HostUp s ∧ s.rd Reg.CFG_LR_STAT.state 0 = 2
        ∧ s.epo.k + 2 ^ 24 < s.rd Reg.CFG_LR_TGT_LO.target_lo 0 + 2 ^ 32 * s.rd Reg.CFG_LR_TGT_HI.target_hi 0)
      ∧ (∃ (s : State), Sound s
        ∧ HostUp s ∧ s.rd Reg.CFG_LR_STAT.state 0 = 2
        ∧ s.epo.k + 2 ≤ s.rd Reg.CFG_LR_TGT_LO.target_lo 0 + 2 ^ 32 * s.rd Reg.CFG_LR_TGT_HI.target_hi 0
        ∧ s.rd Reg.CFG_LR_TGT_LO.target_lo 0 + 2 ^ 32 * s.rd Reg.CFG_LR_TGT_HI.target_hi 0 ≤ s.epo.k + 2 ^ 24
        ∧ s.flag Reg.RED_STAT.handover 0 = true)
      ∧ (∃ (s : State), Sound s ∧ HostUp s ∧ s.rd Reg.CFG_LR_STAT.state 0 = 3
        ∧ s.epo.k + 1 < (Option.map (fun (x : Staged) => x.target) s.cfg.staged).getD 0)
      ∧ (∃ (s : State), Sound s ∧ HostUp s
        ∧ s.rd Reg.CFG_LR_STAT.state 0 ≠ 3)
      ∧ (∃ (s : State), Sound s ∧ HostUp s ∧ s.rd Reg.CFG_LR_STAT.state 0 = 3
        ∧ (Option.map (fun (x : Staged) => x.target) s.cfg.staged).getD 0 ≤ s.epo.k + 1)
      ∧ (∃ (s : State), Sound s ∧ HostUp s
        ∧ (s.rd Reg.CFG_LR_STAT.state 0 = 2 ∨ s.rd Reg.CFG_LR_STAT.state 0 = 5))
      ∧ (∃ (s : State), Sound s ∧ HostUp s
        ∧ s.rd Reg.CFG_LR_STAT.state 0 ≠ 2 ∧ s.rd Reg.CFG_LR_STAT.state 0 ≠ 5) :=
  ⟨⟨wrs base [(Reg.ARM_STAT.state,0,2)], sound_of (by decide +kernel), by decide +kernel⟩,
    ⟨up, sound_of (by decide +kernel), by decide +kernel, by decide +kernel,
      (fun x h => by rw [show up.loadOrder = [] by decide +kernel] at h; cases h), by decide +kernel⟩,
    ⟨bootl base, BitStream.empty, BitStream.empty, sound_of (by decide +kernel), 0, 64, ⟨1, 0, 0, 0, 0, 0, 0, 0, some 0⟩, by decide +kernel⟩,
    ⟨up, sound_of (by decide +kernel), by decide +kernel⟩,
    ⟨up, sound_of (by decide +kernel), by decide +kernel⟩,
    ⟨cf base (fun c => { c with loading := true }), sound_of (by decide +kernel), by decide +kernel⟩,
    ⟨bootl up, BitStream.empty, BitStream.empty, sound_of (by decide +kernel), 0, 64, by decide +kernel, by decide +kernel, ⟨1, 0, 0, 0, 0,
      0, 0, 0, some 0⟩, by decide +kernel⟩,
    ⟨up, sound_of (by decide +kernel), by decide +kernel⟩,
    ⟨up, sound_of (by decide +kernel), by decide +kernel⟩,
    ⟨cf base (fun c => { c with loading := true }), sound_of (by decide +kernel), by decide +kernel⟩,
    ⟨cf (lr 1 0) (fun c => { c with staged := some ⟨[], 4096, 0, [], 0, false⟩ }), [], sound_of (by decide +kernel), ⟨[], 4096, 0, [], 0,
      false⟩, by decide +kernel, by decide +kernel, ⟨1, 0, 0, 0, 0, 0, 0, 0, some 0⟩, by decide +kernel⟩,
    ⟨lr 2 12, sound_of (by decide +kernel), by decide +kernel⟩,
    ⟨up, sound_of (by decide +kernel), by decide +kernel⟩,
    ⟨lr 2 11, sound_of (by decide +kernel), by decide +kernel⟩,
    ⟨lr 2 (2^24+11), sound_of (by decide +kernel), by decide +kernel⟩,
    ⟨wrs (lr 2 12) [(Reg.RED_STAT.handover,0,1)], sound_of (by decide +kernel), by decide +kernel⟩,
    ⟨armed 15, sound_of (by decide +kernel), by decide +kernel⟩,
    ⟨up, sound_of (by decide +kernel), by decide +kernel⟩,
    ⟨lr 3 11, sound_of (by decide +kernel), by decide +kernel⟩,
    ⟨lr 2 11, sound_of (by decide +kernel), by decide +kernel⟩,
    ⟨up, sound_of (by decide +kernel), by decide +kernel⟩⟩

end Loading

/-! ### Power, clocks and reset -/

namespace Power

def pw (s : State) (f : Pwr → Pwr) : State := { s with pwr := f s.pwr }
def role (s : State) (r : Nat) := wrs s [(Reg.RED_STAT.role,0,r)]
def askAll (s : State) := wrs s [(Reg.PWR_DOM_REQ.fab_w,0,1),(Reg.PWR_DOM_REQ.fab_e,0,1),(Reg.PWR_DOM_REQ.lq,0,15),(Reg.PWR_DOM_REQ.ana,0,1)]
def d10 (n : Nat) (s : State) := s.setDomain 10 n
def dorm (s : State) := wrs (pw s (fun p => { p with dormant := true })) [(Reg.PWR_WAKE_CFG.timer_en,0,1),(Reg.PWR_WAKE_CFG.hb_loss,0,1)]
def waking (d old : Nat) (s : State) := pw (s.setDomain d 3) (fun p => { p with waking := [(d, 31000, old)] })

theorem witness_DomainsAndRetention :
    (∃ (s : State), Sound s ∧ ∃ (v : Nat), HostUp s ∧ (s.role = 1 ∨ s.role = 6))
      ∧ (∃ (s : State), Sound s ∧ ∃ (v : Nat), HostUp s
        ∧ s.running = true ∧ s.role = 3 ∧ (∀ (d : Nat), 4 ≤ d → d ≤ 10 → s.domainAsked d = true ∧ (d = 4 ∨ s.domain d = 2 ∨ s.domain d = 3))
        ∧ v % 2 ^ 7 = 126 ∧ ∃ (a : Nat), a < 6 ∧ s.armActs a = true)
      ∧ (∃ (s : State), Sound s ∧ ∃ (v : Nat), HostUp s ∧ s.running = true
        ∧ s.role = 3 ∧ (∀ (d : Nat), 4 ≤ d → d ≤ 9 → s.domainAsked d = true ∧ (s.domain d = 2 ∨ s.domain d = 3)) ∧ s.domain 10 = 1
        ∧ v % 2 ^ 7 = 127)
      ∧ (∃ (s : State), Sound s ∧ ∃ (d : Fin 12), ∃ (at_ : Nat), ∃ (old : Nat), s.domain ↑d = 3
        ∧ List.find? (fun (x : Nat × Nat × Nat) => x.fst == ↑d) s.pwr.waking = some (↑d, at_, old))
      ∧ (∃ (s : State), Sound s
        ∧ ∃ (d : Fin 12), s.domain ↑d ≠ 3)
      ∧ (∃ (s : State), Sound s ∧ ∃ (d : Fin 12), ∃ (at_ : Nat), ∃ (old : Nat), s.role ≠ 2
        ∧ List.find? (fun (x : Nat × Nat × Nat) => x.fst == ↑d) s.pwr.waking = some (↑d, at_, old) ∧ old < 4 ∧ old ≠ 2)
      ∧ (∃ (s : State),
        Sound s ∧ ∃ (pll : Fin 26),
        if ↑pll = 0 then s.flag Reg.PWR_STAT.core_pll 0 = true else s.domain (if ↑pll = 1 then 2 else 6 + (↑pll - 2) / 6) = 2)
        ∧ (∃ (s : State), Sound s ∧ ∃ (tj : Nat), s.flag Reg.PWR_CTRL.temp_ev 0 = true
        ∧ signedOf 16 (s.rd Reg.PWR_TEMP_LIMIT.high 0) < signedOf 16 tj)
      ∧ (∃ (s : State), Sound s ∧ ∃ (tj : Nat),
        s.flag Reg.PWR_CTRL.temp_ev 0 = true ∧ signedOf 16 tj < signedOf 16 (s.rd Reg.PWR_TEMP_LIMIT.low 0))
      ∧ (∃ (s : State), Sound s
        ∧ ∃ (tj : Nat), ∃ (c : Instr), s.flag Reg.PWR_CTRL.temp_ev 0 = false ∧ (c = Instr.tempHigh tj ∨ c = Instr.tempNormal tj))
        ∧ (∃ (s : State), Sound s ∧ ∃ (tj : Nat), s.flag Reg.PWR_RET_CTRL.off 0 = false)
      ∧ (∃ (s : State), Sound s ∧ HostUp s
        ∧ s.rd Reg.RED_STAT.strap 0 = 0)
      ∧ (∃ (s : State), Sound s ∧ ∃ (off : Bool), HostUp s ∧ s.rd Reg.RED_STAT.strap 0 ≠ 0) :=
  ⟨⟨role base 1, sound_of (by decide +kernel), 50, by decide +kernel⟩,
    ⟨wrs (askAll base) [(Reg.ARM_STAT.state,0,2)], sound_of (by decide +kernel), 126, by decide +kernel, by decide +kernel,
      by decide +kernel, fun d a b => (show ∀ d : Fin 11, 4 ≤ d.val → ((wrs (askAll base) [(Reg.ARM_STAT.state,0,2)]).domainAsked d = true
      ∧ (d.val = 4 ∨ (wrs (askAll base) [(Reg.ARM_STAT.state,0,2)]).domain d = 2 ∨ (wrs (askAll base) [(Reg.ARM_STAT.state,0,2)]).domain d = 3)) by
          decide +kernel) ⟨d,
      by omega⟩ a, by decide +kernel, 0, by decide +kernel⟩,
    ⟨wrs (d10 1 (askAll base)) [(Reg.PWR_DOM_REQ.ana,0,0)], sound_of (by decide +kernel), 127, by decide +kernel, by decide +kernel,
      by decide +kernel, fun d a b => (show ∀ d : Fin 10,
      4 ≤ d.val → ((wrs (d10 1 (askAll base)) [(Reg.PWR_DOM_REQ.ana,0,0)]).domainAsked d = true
      ∧ ((wrs (d10 1 (askAll base)) [(Reg.PWR_DOM_REQ.ana,0,0)]).domain d = 2 ∨ (wrs (d10 1 (askAll base)) [(Reg.PWR_DOM_REQ.ana,0,0)]).domain d =
          3)) by decide +kernel) ⟨d,
      by omega⟩ a, by decide +kernel⟩,
    ⟨waking 10 1 base, sound_of (by decide +kernel), 10, 31000, 1, by decide +kernel⟩,
    ⟨up, sound_of (by decide +kernel), 11, by decide +kernel⟩,
    ⟨waking 10 1 base, sound_of (by decide +kernel), 10, 31000, 1, by decide +kernel⟩,
    ⟨base, sound_of (by decide +kernel), 11, by decide +kernel⟩,
    ⟨up, sound_of (by decide +kernel), 31000, by decide +kernel⟩,
    ⟨up, sound_of (by decide +kernel), 50, by decide +kernel⟩,
    ⟨wrs base [(Reg.PWR_CTRL.temp_ev,0,0)], sound_of (by decide +kernel), 35, (Instr.tempNormal 35), by decide +kernel⟩,
    ⟨up, sound_of (by decide +kernel), 50, by decide +kernel⟩,
    ⟨up, sound_of (by decide +kernel), by decide +kernel⟩,
    ⟨base, sound_of (by decide +kernel), true, by decide +kernel⟩⟩

theorem witness_ResetAndDormant :
    (∃ (s : State), Sound s ∧ s.pwr.inReset = false ∧ s.pwr.dormant = false)
      ∧ (∃ (s : State), Sound s ∧ s.pwr.inReset = true)
        ∧ (∃ (s : State), Sound s ∧ HostUp s)
      ∧ (∃ (s : State), Sound s ∧ ∃ (key : BitVec 8), HostUp s ∧ key ≠ 165 ∧ ∃ (c : Instr),
        c = Instr.pwrCmdReset key ∨ c = Instr.pwrCmdDormant key)
      ∧ (∃ (s : State), Sound s)
      ∧ (∃ (s : State), Sound s
        ∧ ∃ (n : Fin 8), n ≠ 1)
      ∧ (∃ (s : State), Sound s ∧ ∃ (straps : Fin 4), s.pwr.inReset = true ∧ s.pwr.por = false ∧ straps ≠ 3)
        ∧ (∃ (s : State), Sound s ∧ ∃ (straps : Fin 4), s.pwr.inReset = false ∨ s.pwr.por = true)
      ∧ (∃ (s : State), Sound s ∧ HostUp s
        ∧ s.running = true ∧ s.role ≠ 1 ∧ s.role ≠ 6)
      ∧ (∃ (s : State), Sound s ∧ HostUp s
        ∧ (s.running = false ∨ s.role = 1 ∨ s.role = 6))
      ∧ (∃ (s : State), Sound s ∧ ∃ (w : Fin 3), s.pwr.dormant = true
        ∧ s.flag (if w = 0 then Reg.PWR_WAKE_CFG.timer_en else if w = 1 then Reg.PWR_WAKE_CFG.hb_loss else Reg.PWR_WAKE_CFG.hb_state) 0 = true
        ∧ s.rd Reg.RED_STAT.strap 0 ≠ 3)
      ∧ (∃ (s : State), Sound s ∧ ∃ (w : Fin 3),
        s.pwr.dormant = false ∨ s.flag (if w = 0 then Reg.PWR_WAKE_CFG.timer_en else if w = 1 then Reg.PWR_WAKE_CFG.hb_loss else
            Reg.PWR_WAKE_CFG.hb_state) 0 = false) :=
  ⟨⟨up, sound_of (by decide +kernel), by decide +kernel⟩,
    ⟨State.reset, sound_of (by decide +kernel), by decide +kernel⟩,
    ⟨up, sound_of (by decide +kernel), by decide +kernel⟩,
    ⟨up, sound_of (by decide +kernel), 0x00#8, by decide +kernel, by decide +kernel, (Instr.pwrCmdDormant 0x00#8), by decide +kernel⟩,
    ⟨up, sound_of (by decide +kernel)⟩,
    ⟨up, sound_of (by decide +kernel), 7, by decide +kernel⟩,
    ⟨State.reset, sound_of (by decide +kernel), 2, by decide +kernel⟩,
    ⟨up, sound_of (by decide +kernel), 3, by decide +kernel⟩,
    ⟨base, sound_of (by decide +kernel), by decide +kernel⟩,
    ⟨up, sound_of (by decide +kernel), by decide +kernel⟩,
    ⟨dorm base, sound_of (by decide +kernel), 2, by decide +kernel⟩,
    ⟨up, sound_of (by decide +kernel), 2, by decide +kernel⟩⟩

end Power

/-! ### Host link and vectors -/

namespace Link

def hs (s : State) (f : HostIf → HostIf) : State := { s with host := f s.host }
def vec (s : State) := wrs (hs s (fun h => { h with msix := [(0, ⟨4096, 7, false⟩),(1, ⟨4096, 8, false⟩),(3,⟨4096,9,true⟩)], pba := [(1,true),(3,true)], mem := [(5,3)], latch := [(5, some 3)] })) [(Reg.GLB_IRQ_EN0.en,0,0xFFFFFFFF),(Reg.EPO_CTRL.ev_enable,0,1),(Reg.GLB_CTRL.acc_ev,0,1)]
def v0 := vec base
def wr_ (s : State) : State := { s with evq := { s.evq with written := 3 } }

theorem witness_LinkAndVectors :
    (∃ (s : State), Sound s ∧ ∃ (cause : LinkCause), ∃ (n : Nat), cause = LinkCause.linkDown ∧ n = 1 ∨ cause = LinkCause.hotReset
        ∧ n = 2 ∨ cause = LinkCause.linkDisable ∧ n = 3)
      ∧ (∃ (s : State), Sound s)
      ∧ (∃ (s : State), Sound s ∧ s.evq.written ≠ 0
        ∧ s.fab.again = [])
      ∧ (∃ (s : State), Sound s ∧ s.evq.written = 0)
      ∧ (∃ (s : State), Sound s ∧ ∃ (v : Fin 64), HostUp s)
        ∧ (∃ (s : State), Sound s ∧ ∃ (v : Fin 64), HostUp s ∧ s.vectorEnabled ↑v = true ∧ ¬(13 ≤ ↑v ∧ ↑v ≤ 15))
      ∧ (∃ (s : State), Sound s
        ∧ ∃ (v : Fin 64), s.vectorEnabled ↑v = false ∨ 13 ≤ ↑v ∧ ↑v ≤ 15)
      ∧ (∃ (s : State), Sound s ∧ ∃ (code : BitVec 8), s.running = true
        ∧ code.toNat ∈ [0, 3, 4, 5, 6])
      ∧ (∃ (s : State), Sound s ∧ ∃ (code : BitVec 8), s.running = false ∨ ¬code.toNat ∈ [0, 3, 4, 5, 6]) :=
  ⟨⟨up, sound_of (by decide +kernel), (LinkCause.linkDisable), 3, by decide +kernel⟩,
    ⟨up, sound_of (by decide +kernel)⟩,
    ⟨wr_ v0, sound_of (by decide +kernel), by decide +kernel⟩,
    ⟨up, sound_of (by decide +kernel), by decide +kernel⟩,
    ⟨up, sound_of (by decide +kernel), 63, by decide +kernel⟩,
    ⟨v0, sound_of (by decide +kernel), 16, by decide +kernel⟩,
    ⟨up, sound_of (by decide +kernel), 63, by decide +kernel⟩,
    ⟨base, sound_of (by decide +kernel), 0x06#8, by decide +kernel⟩,
    ⟨up, sound_of (by decide +kernel), 0xff#8, by decide +kernel⟩⟩

end Link

end Sys2Proof.Tests
end

/-! ## Refused fences and the pinned image (R25 to R28, R32, R35)

The effect of a refusal and of the three pin commands, one lemma per observation, and the two statements assembled from them. -/

namespace Sys2Proof.Machine

open Sys2Proof.Safety

/-! ### Host access and pairs of fields -/

/-- A host access has its effect while the host reaches the registers. -/
theorem exec_of_byHost {c : Instr} {s : State} {f : State → Host.Outcome State Fault Refusal} (hc : exec c s = byHost f s)
    (hup : HostUp s) : exec c s = f s := by
  rw [hc]
  unfold byHost
  rw [hup]
  exact if_neg Bool.false_ne_true

/-- The low field of a pair holds the low bits of what is written. -/
theorem State.rd_wrPair_lo {s : State} {lo hi : Field} {i : Nat} (v : Nat) (h : tabWf 0 s.regs = true)
    (hne : regKey lo i ≠ regKey hi i) : (s.wrPair lo hi i v).rd lo i = v % 2 ^ lo.width := by
  unfold State.wrPair
  rw [State.rd_wr_ne _ _ _ _ _ (State.regs_wr _ _ _ h) hne, State.rd_wr_self _ _ _ h]

/-- The high field of a pair holds the bits above those of the low one. -/
theorem State.rd_wrPair_hi {s : State} (lo hi : Field) (i v : Nat) (h : tabWf 0 s.regs = true) :
    (s.wrPair lo hi i v).rd hi i = v / 2 ^ lo.width % 2 ^ hi.width :=
  State.rd_wr_self _ _ _ (State.regs_wr _ _ _ h)

theorem regsBut_wrPair {s t : State} {lo hi : Field} {i v : Nat} (hw : tabWf 0 t.regs = true)
    (h : RegsBut [(lo, i), (hi, i)] s t) : RegsBut [(lo, i), (hi, i)] s (t.wrPair lo hi i v) :=
  regsBut_wr (State.regs_wr _ _ _ hw) (by simp) (regsBut_wr hw (by simp) h)

/-! ### Discarding the open generation (R32) -/

/-- What a refusal does to the staging area: OVERFLOW (status 5) discards the open generation, every other status leaves it
(R32, R35). -/
def State.discardIfOverflow (s : State) (status : Nat) : State := if status = 5 then s.discardOpen else s

theorem State.discardIfOverflow_epo (s : State) (st : Nat) :
    (s.discardIfOverflow st).epo = { s.epo with opened := if st = 5 then [] else s.epo.opened } := by
  unfold State.discardIfOverflow
  split <;> rfl

theorem State.discardIfOverflow_evq (s : State) (st : Nat) : (s.discardIfOverflow st).evq = s.evq := by
  unfold State.discardIfOverflow
  split <;> rfl

theorem State.discardIfOverflow_clk (s : State) (st : Nat) : (s.discardIfOverflow st).clk = s.clk := by
  unfold State.discardIfOverflow
  split <;> rfl

theorem State.regs_discardIfOverflow {s : State} (st : Nat) (h : tabWf 0 s.regs = true) :
    tabWf 0 (s.discardIfOverflow st).regs = true := by
  unfold State.discardIfOverflow
  split
  · exact State.regs_wr _ _ _ h
  · exact h

theorem State.rd_discardIfOverflow_overflow {s : State} (st : Nat) (h : tabWf 0 s.regs = true) :
    (s.discardIfOverflow st).rd Reg.EPO_STAGE_STAT.overflow 0
      = if st = 5 then 0 else s.rd Reg.EPO_STAGE_STAT.overflow 0 := by
  unfold State.discardIfOverflow
  split
  · exact State.rd_wr_self _ _ _ h
  · rfl

theorem regsBut_discardIfOverflow {s : State} (st : Nat) (h : tabWf 0 s.regs = true) :
    RegsBut [(Reg.EPO_STAGE_STAT.overflow, 0)] s (s.discardIfOverflow st) := by
  unfold State.discardIfOverflow
  split
  · exact regsBut_wr h (by simp) (regsBut_refl _ s)
  · exact regsBut_refl _ s

/-! ### A refused fence (R35) -/

/-- The statuses of Table 1.1 fit EPO_FENCE_STAT.status. -/
theorem State.fenceStatus_le (s : State) (named : Bool) (target : Nat) : s.fenceStatus named target ≤ 6 := by
  unfold State.fenceStatus
  repeat' split
  all_goals omega

/-- The register part of a refusal, before its event. -/
def State.recordRefusal (s : State) (status : Nat) : State :=
  ((s.discardIfOverflow status).wr Reg.EPO_FENCE_STAT.status 0 status).count Reg.EPO_FENCE_STAT.refused_cnt 0

/-- A refusal is recorded in the registers, then reported with event 0x011. -/
theorem State.refuseFence_eq (s : State) (st : Nat) : s.refuseFence st = (s.recordRefusal st).raise 0x011 0 st := rfl

theorem State.recordRefusal_epo (s : State) (st : Nat) :
    (s.recordRefusal st).epo = { s.epo with opened := if st = 5 then [] else s.epo.opened } := s.discardIfOverflow_epo st

section Recorded

variable {s : State} (st : Nat) (hw : tabWf 0 s.regs = true)
include hw

theorem State.regs_recordRefusal : tabWf 0 (s.recordRefusal st).regs = true :=
  State.regs_count _ _ (State.regs_wr _ _ _ (State.regs_discardIfOverflow st hw))

theorem regsBut_recordRefusal :
    RegsBut [(Reg.EPO_FENCE_STAT.status, 0), (Reg.EPO_FENCE_STAT.refused_cnt, 0), (Reg.EPO_STAGE_STAT.overflow, 0)] s
      (s.recordRefusal st) := by
  have hd := State.regs_discardIfOverflow st hw
  exact regsBut_count (State.regs_wr _ _ _ hd) (by simp)
    (regsBut_wr hd (by simp) (regsBut_mono (by simp) (regsBut_discardIfOverflow st hw)))

theorem State.rd_recordRefusal_status (hst : st ≤ 6) : (s.recordRefusal st).rd Reg.EPO_FENCE_STAT.status 0 = st := by
  have hd := State.regs_discardIfOverflow st hw
  unfold State.recordRefusal
  rw [State.rd_count_ne _ _ _ _ (State.regs_wr _ _ _ hd) (by decide), State.rd_wr_self _ _ _ hd]
  exact Nat.mod_eq_of_lt (Nat.lt_of_le_of_lt hst (by decide))

theorem State.rd_recordRefusal_overflow :
    (s.recordRefusal st).rd Reg.EPO_STAGE_STAT.overflow 0 = if st = 5 then 0 else s.rd Reg.EPO_STAGE_STAT.overflow 0 := by
  have hd := State.regs_discardIfOverflow st hw
  unfold State.recordRefusal
  rw [State.rd_count_ne _ _ _ _ (State.regs_wr _ _ _ hd) (by decide), State.rd_wr_ne _ _ _ _ _ hd (by decide),
    State.rd_discardIfOverflow_overflow st hw]

theorem State.rd_recordRefusal_refusedCnt :
    (s.recordRefusal st).rd Reg.EPO_FENCE_STAT.refused_cnt 0
      = min (s.rd Reg.EPO_FENCE_STAT.refused_cnt 0 + 1) (2 ^ Reg.EPO_FENCE_STAT.refused_cnt.width - 1) := by
  have hd := State.regs_discardIfOverflow st hw
  unfold State.recordRefusal
  rw [State.rd_count_self _ _ (State.regs_wr _ _ _ hd), State.rd_wr_ne _ _ _ _ _ hd (by decide),
    regsBut_discardIfOverflow st hw _ _ (by decide)]

end Recorded

/-- A refusal is reported as an event of the state that the command found. -/
theorem State.refuseFence_reports {s : State} (st : Nat) (hw : tabWf 0 s.regs = true) :
    Reports s (s.refuseFence st) 0x011 0 st := by
  have hk : (s.recordRefusal st).epo.k = s.epo.k := by rw [State.recordRefusal_epo]
  exact reports_raise (by decide) (State.regs_recordRefusal st hw) (s.discardIfOverflow_evq st) hk (s.discardIfOverflow_clk st)
    (regsBut_recordRefusal st hw _ _ (by decide))

/-- A field that no event changes reads after a refusal as the refusal recorded it. -/
theorem State.rd_refuseFence {s : State} {st : Nat} {f : Field} (hw : tabWf 0 s.regs = true)
    (hf : regKey f 0 ∉ eventRegs.map (fun p => regKey p.1 p.2)) : (s.refuseFence st).rd f 0 = (s.recordRefusal st).rd f 0 :=
  State.rd_raise (State.regs_recordRefusal st hw) _ _ _ hf

theorem regsBut_refuseFence {s : State} (st : Nat) (hw : tabWf 0 s.regs = true) :
    RegsBut ([(Reg.EPO_FENCE_STAT.status, 0), (Reg.EPO_FENCE_STAT.refused_cnt, 0), (Reg.EPO_STAGE_STAT.overflow, 0)] ++ eventRegs) s
      (s.refuseFence st) :=
  regsBut_raised (State.regs_recordRefusal st hw) (fun _ => List.mem_append_right _)
    (regsBut_mono (fun _ => List.mem_append_left _) (regsBut_recordRefusal st hw))

theorem State.refuseFence_epo (s : State) (st : Nat) :
    (s.refuseFence st).epo = { s.epo with opened := if st = 5 then [] else s.epo.opened } := by
  rw [State.refuseFence_eq, State.raise_epo, State.recordRefusal_epo]

/-- All that a refusal with one of Table 1.1's statuses does (R35). -/
theorem State.refuseFence_effect {s : State} {st : Nat} (hw : tabWf 0 s.regs = true) (hst : st ≤ 6) :
    (s.refuseFence st).epo.fences = s.epo.fences ∧ (s.refuseFence st).epo.opened = (if st = 5 then [] else s.epo.opened)
      ∧ (s.refuseFence st).rd Reg.EPO_FENCE_STAT.status 0 = st
      ∧ (s.refuseFence st).rd Reg.EPO_STAGE_STAT.overflow 0 = (if st = 5 then 0 else s.rd Reg.EPO_STAGE_STAT.overflow 0)
      ∧ (s.refuseFence st).rd Reg.EPO_FENCE_STAT.refused_cnt 0
          = min (s.rd Reg.EPO_FENCE_STAT.refused_cnt 0 + 1) (2 ^ Reg.EPO_FENCE_STAT.refused_cnt.width - 1)
      ∧ Reports s (s.refuseFence st) 0x011 0 st
      ∧ Only [.regs, .epo, .evq, .host, .wire] s (s.refuseFence st)
      ∧ RegsBut ([(Reg.EPO_FENCE_STAT.status, 0), (Reg.EPO_FENCE_STAT.refused_cnt, 0), (Reg.EPO_STAGE_STAT.overflow, 0)] ++ eventRegs)
          s (s.refuseFence st) := by
  refine ⟨?fences, ?opened, ?status, ?overflow, ?counted, State.refuseFence_reports st hw, ?only, regsBut_refuseFence st hw⟩
  case fences => rw [State.refuseFence_epo]
  case opened => rw [State.refuseFence_epo]
  case status => rw [State.rd_refuseFence hw (by decide), State.rd_recordRefusal_status st hw hst]
  case overflow => rw [State.rd_refuseFence hw (by decide), State.rd_recordRefusal_overflow st hw]
  case counted => rw [State.rd_refuseFence hw (by decide), State.rd_recordRefusal_refusedCnt st hw]
  case only => exact (State.refuseFence_keeps (M := 0x552) (by decide) (.refl s)).only (by decide)

theorem exec_fenceNamed {s : State} (hup : HostUp s) : exec .fenceNamed s = .next s.fenceNamed :=
  exec_of_byHost (f := fun s => .next s.fenceNamed) rfl hup

theorem exec_fenceNext {s : State} (hup : HostUp s) : exec .fenceNext s = .next s.fenceNext :=
  exec_of_byHost (f := fun s => .next s.fenceNext) rfl hup

/-- FENCE_NAMED with a status other than 0 is a refusal with that status. -/
theorem State.fenceNamed_refused {s : State}
    (h : s.fenceStatus true (s.rdPair Reg.EPO_FENCE_TGT_LO.target_lo Reg.EPO_FENCE_TGT_HI.target_hi 0) ≠ 0) :
    s.fenceNamed
      = s.refuseFence (s.fenceStatus true (s.rdPair Reg.EPO_FENCE_TGT_LO.target_lo Reg.EPO_FENCE_TGT_HI.target_hi 0)) := if_neg h

/-- FENCE_NEXT with a status other than 0 is a refusal with that status. -/
theorem State.fenceNext_refused {s : State} (h : s.fenceStatus false 0 ≠ 0) :
    s.fenceNext = s.refuseFence (s.fenceStatus false 0) := if_pos h

/-! ### The pinned image (R25 to R28) -/

theorem exec_pin {s : State} (release : Bool) (hup : HostUp s) :
    exec (.pin release) s
      = .next (if s.epo.pin.isSome && !release then s.wr Reg.EPO_PIN_STAT.refused 0 1 else s.takePin) :=
  exec_of_byHost (f := fun s =>
    .next (if s.epo.pin.isSome && !release then s.wr Reg.EPO_PIN_STAT.refused 0 1 else s.takePin)) rfl hup

/-- PIN where no pin holds, or with release, takes a pin (R25, R28). -/
theorem exec_pin_taken {s : State} {release : Bool} (hup : HostUp s) (h : s.epo.pin = none ∨ release = true) :
    exec (.pin release) s = .next s.takePin := by
  have hfree : ¬ (s.epo.pin.isSome && !release) = true := by
    rcases h with h | h <;> simp [h]
  rw [exec_pin release hup, if_neg hfree]

/-- PIN without release while a pin holds is refused (R28). -/
theorem exec_pin_refused {s : State} {release : Bool} (hup : HostUp s) (h : s.epo.pin ≠ none) (hr : release = false) :
    exec (.pin release) s = .next (s.wr Reg.EPO_PIN_STAT.refused 0 1) := by
  have hholds : (s.epo.pin.isSome && !release) = true := by
    simpa [hr] using Option.isSome_iff_ne_none.mpr h
  rw [exec_pin release hup, if_pos hholds]

theorem exec_pinRelease {s : State} (hup : HostUp s) : exec .pinRelease s = .next s.releasePin :=
  exec_of_byHost (f := fun s => .next s.releasePin) rfl hup

/-- A pin runs out: it is released, flagged and reported (R27). -/
def State.expirePin (s : State) (number : Nat) : State :=
  (s.releasePin.wr Reg.EPO_PIN_STAT.expired 0 1).raise 0x014 0 number

theorem exec_pinExpired_due {s : State} {p : Pin} (hp : s.epo.pin = some p) (h : p.left = 0) :
    exec .pinExpired s = .next (s.expirePin p.number) := by
  show execPinExpired s = _
  unfold execPinExpired
  rw [hp]
  exact congrArg _ (if_pos h)

theorem exec_pinExpired_early {s : State} {p : Pin} (hp : s.epo.pin = some p) (h : p.left ≠ 0) :
    exec .pinExpired s = .next s := by
  show execPinExpired s = _
  unfold execPinExpired
  rw [hp]
  exact congrArg _ (if_neg h)

theorem State.rd_takePin_lo {s : State} (hw : tabWf 0 s.regs = true) :
    s.takePin.rd Reg.EPO_PIN_EPOCH_LO.pin_epoch_lo 0 = s.epo.k % 2 ^ 32 :=
  State.rd_wrPair_lo s.epo.k hw (by decide)

theorem State.rd_takePin_hi {s : State} (hw : tabWf 0 s.regs = true) :
    s.takePin.rd Reg.EPO_PIN_EPOCH_HI.pin_epoch_hi 0 = s.epo.k / 2 ^ 32 % 2 ^ 32 :=
  State.rd_wrPair_hi _ _ 0 s.epo.k hw

theorem regsBut_takePin {s : State} (hw : tabWf 0 s.regs = true) :
    RegsBut [(Reg.EPO_PIN_EPOCH_LO.pin_epoch_lo, 0), (Reg.EPO_PIN_EPOCH_HI.pin_epoch_hi, 0)] s s.takePin :=
  regsBut_wrPair hw (regsBut_of_regs rfl)

theorem State.takePin_only (s : State) : Only [.regs, .epo, .pts] s s.takePin :=
  (State.takePin_keeps (M := 0x1000000d0) (by decide) (.refl s)).only (by decide)

theorem State.releasePin_only (s : State) : Only [.epo, .pts] s s.releasePin :=
  (State.releasePin_keeps (M := 0x1000000c0) (by decide) (.refl s)).only (by decide)

/-- PIN_EXPIRED of a pin that has run out: all that the release, EPO_PIN_STAT.expired and event 0x014 do (R27). -/
theorem State.expirePin_effect {s : State} (number : Nat) (hw : tabWf 0 s.regs = true) :
    (s.expirePin number).epo.pin = none ∧ (s.expirePin number).pts.pub = s.pts.pub ∧ (s.expirePin number).pts.work = s.pts.work
      ∧ (s.expirePin number).rd Reg.EPO_PIN_STAT.expired 0 = 1 ∧ Reports s (s.expirePin number) 0x014 0 number
      ∧ Only ([.epo, .pts] ++ eventParts) s (s.expirePin number)
      ∧ RegsBut ([(Reg.EPO_PIN_STAT.expired, 0)] ++ eventRegs) s (s.expirePin number) := by
  have hu : tabWf 0 (s.releasePin.wr Reg.EPO_PIN_STAT.expired 0 1).regs = true := State.regs_wr _ _ _ hw
  have hregs : RegsBut [(Reg.EPO_PIN_STAT.expired, 0)] s (s.releasePin.wr Reg.EPO_PIN_STAT.expired 0 1) :=
    regsBut_wr hw (by simp) (regsBut_of_regs rfl)
  unfold State.expirePin
  refine ⟨?pin, ?pub, ?work, ?expired, ?reports, ?only, ?regs⟩
  case pin => rw [State.raise_epo]; rfl
  case pub => rw [State.raise_pts]; rfl
  case work => rw [State.raise_pts]; rfl
  case expired => rw [State.rd_raise hu _ _ _ (by decide)]; exact State.rd_wr_self _ _ _ hw
  case reports => exact reports_raise (by decide) hu rfl rfl rfl (hregs _ _ (by decide))
  case only =>
    have hkeeps : Keeps 0x1000005d2 s ((s.releasePin.wr Reg.EPO_PIN_STAT.expired 0 1).raise 0x014 0 number) :=
      State.raise_keeps (by decide) (State.wr_keeps (by decide) (State.releasePin_keeps (by decide) (.refl s)))
    exact hkeeps.only (by decide)
  case regs => exact regsBut_raised hu (fun _ => List.mem_append_right _) (regsBut_mono (fun _ => List.mem_append_left _) hregs)

end Sys2Proof.Machine

namespace Sys2Proof.Proofs

open Sys2Proof Sys2Proof.Machine Sys2Proof.Safety

/-- Settles O12: both commands come to `refuseFence` with a status of Table 1.1, whose effect is said once. -/
theorem fenceRefusalKeepsGeneration : Obligations.FenceRefusalKeepsGeneration := by
  intro s hs hup target refused
  refine ⟨fun h => ⟨_, exec_fenceNamed hup, ?_⟩, fun h => ⟨_, exec_fenceNext hup, ?_⟩⟩
  · rw [State.fenceNamed_refused h]
    exact State.refuseFence_effect hs.regs (s.fenceStatus_le _ _)
  · rw [State.fenceNext_refused h]
    exact State.refuseFence_effect hs.regs (s.fenceStatus_le _ _)

/-- Settles O14: one command that pins, one that is refused, one that releases and one that expires, each with its lemmas. -/
theorem pinLifecycle : Obligations.PinLifecycle := by
  refine ⟨fun s release hs hup => ⟨fun h => ?pins, fun h hr => ?refused⟩,
    fun s hs => ⟨fun hup => ?releases, fun p hp hleft => ?expires, fun p hp hleft => exec_pinExpired_early hp hleft⟩⟩
  case pins =>
    exact ⟨_, exec_pin_taken hup h, rfl, rfl, rfl, rfl, rfl, rfl, State.rd_takePin_lo hs.regs, State.rd_takePin_hi hs.regs,
      s.takePin_only, regsBut_takePin hs.regs⟩
  case refused =>
    exact ⟨_, exec_pin_refused hup h hr, State.rd_wr_self _ _ _ hs.regs,
      (State.wr_keeps (M := 0x10) (by decide) (.refl s)).only (by decide), regsBut_wr hs.regs (by simp) (regsBut_refl _ s)⟩
  case releases =>
    exact ⟨_, exec_pinRelease hup, rfl, rfl, rfl, s.releasePin_only⟩
  case expires =>
    exact ⟨_, exec_pinExpired_due hp hleft, State.expirePin_effect p.number hs.regs⟩

end Sys2Proof.Proofs

/-! ## The host ring of event records (R30, R43, R44, R480 to R483)

A record is written in two parts: `storeRecord` puts it at the head and advances the head, `announceRecord` fires the vectors of Table 16.3.
Each part has its effect said once; the statement about the ring is assembled from them. -/

namespace Sys2Proof.Machine

open Sys2Proof.Safety

/-! ### Runs of consecutive keys and host memory -/

section Runs

variable {α : Type} [DecidableEq α] {d : α} {t : List (Nat × α)} {k : Nat}

/-- A write of consecutive keys changes no key outside their run. -/
theorem tabGet_tabSetList_outside {b : Nat} {vs : List α} (h : tabWf d t = true) (hb : b < k ∨ k + vs.length ≤ b) :
    tabGet d (tabSetList d t k vs) b = tabGet d t b := by
  induction vs generalizing t k with
  | nil => rfl
  | cons v vs ih =>
    rw [List.length_cons] at hb
    have hne : b ≠ k := by omega
    rw [tabSetList, ih (tabWf_tabSet h) (by omega), tabGet_tabSet h, if_neg hne]

/-- Consecutive keys read what was written to them. -/
theorem tabGetList_tabSetList_self (vs : List α) (h : tabWf d t = true) :
    tabGetList d (tabSetList d t k vs) k vs.length = vs := by
  induction vs generalizing t k with
  | nil => rfl
  | cons v vs ih =>
    have hfirst : tabGet d (tabSetList d (tabSet d t k v) (k + 1) vs) k = v := by
      rw [tabGet_tabSetList_outside (tabWf_tabSet h) (.inl k.lt_succ_self), tabGet_tabSet h, if_pos rfl]
    rw [tabSetList, List.length_cons, tabGetList, hfirst, ih (tabWf_tabSet h)]

end Runs

theorem State.hostStore_mem (s : State) (a : Nat) (bs : List Byte) : (s.hostStore a bs).host.mem = tabSetList 0 s.host.mem a bs := rfl

theorem State.regs_hostStore {s : State} (a : Nat) (bs : List Byte) (hw : tabWf 0 s.regs = true) :
    tabWf 0 (s.hostStore a bs).regs = true := hw

@[simp] theorem State.ringSize_hostStore (s : State) (a : Nat) (bs : List Byte) : (s.hostStore a bs).ringSize = s.ringSize := by
  unfold State.ringSize
  rw [State.hostStore_rd]

theorem eventBytes_length (e : Event) : (eventBytes e).length = 32 := by
  simp [eventBytes, bytesLE]

/-! ### A read without wrong bits -/

/-- A command that reads none of the words with wrong bits meets no error (R58). -/
theorem State.readWords_of_none_read {s : State} {reads : BadWord → Bool} {errs : List BadWord}
    (h : ∀ x ∈ errs, reads x = false) : s.readWords reads errs = s := by
  unfold State.readWords
  induction errs with
  | nil => rfl
  | cons x errs ih =>
    rw [List.foldl_cons, h x List.mem_cons_self, if_neg Bool.false_ne_true]
    exact ih (fun y hy => h y (List.mem_cons_of_mem x hy))

/-! ### Announcing a record (R480, R482) -/

/-- What announcing a record may do: fire vectors, and keep account of them in the event queue beside the records. -/
structure Announced (s t : State) : Prop where
  mem : t.host.mem = s.host.mem
  buf : t.evq.buf = s.evq.buf
  dropped : t.evq.dropped = s.evq.dropped
  regs : RegsBut eventRegs s t

theorem Announced.trans {s t u : State} (h : Announced s t) (h' : Announced t u) : Announced s u where
  mem := h'.mem.trans h.mem
  buf := h'.buf.trans h.buf
  dropped := h'.dropped.trans h.dropped
  regs := regsBut_trans h.regs h'.regs

/-- The account of what was announced stands apart from the records. -/
theorem announced_of_evq {s : State} {q : Evq} (hb : q.buf = s.evq.buf) (hd : q.dropped = s.evq.dropped) :
    Announced s { s with evq := q } :=
  ⟨rfl, hb, hd, regsBut_of_regs rfl⟩

theorem announced_ringVector {s : State} (v : Nat) (hw : tabWf 0 s.regs = true) : Announced s (s.ringVector v) := by
  have hsignal : Announced s (s.signal v) :=
    ⟨s.signal_mem v, by rw [State.signal_evq], by rw [State.signal_evq], regsBut_signal v hw⟩
  exact hsignal.trans (announced_of_evq (by rw [State.signal_evq]) (by rw [State.signal_evq]))

/-- A record more for the moderation of vector 0, whose time runs from the first (R482). -/
def State.countForModeration (s : State) : State :=
  { s with evq := { s.evq with
    written := s.evq.written + 1, oldest := if s.evq.written = 0 then s.clk.count else s.evq.oldest } }

theorem State.moderate_eq (s : State) :
    s.moderate = if s.rd Reg.GLB_EVQ_MOD.count 0 ≤ s.evq.written + 1 then s.countForModeration.ringVector 0
      else s.countForModeration := rfl

theorem announced_moderate {s : State} (hw : tabWf 0 s.regs = true) : Announced s s.moderate := by
  have hcounted : Announced s s.countForModeration := announced_of_evq rfl rfl
  rw [State.moderate_eq]
  split
  · exact hcounted.trans (announced_ringVector 0 hw)
  · exact hcounted

/-- The vector of Table 16.3 that a record belongs to, unless it is a marker whose vector has fired (R480). -/
def State.announceRecord (s : State) (e : Event) : State :=
  if e.code = 0x010 then
    if s.evq.told.contains (e.epoch, e.data) then { s with evq := { s.evq with told := s.evq.told.erase (e.epoch, e.data) } }
    else s.ringVector 2
  else if severity e.code = 3 ∨ e.flags / 16 % 2 = 1 ∨ e.flags / 2 % 2 = 1 then s.ringVector 1
  else s.moderate

theorem announced_announceRecord {s : State} (e : Event) (hw : tabWf 0 s.regs = true) : Announced s (s.announceRecord e) := by
  unfold State.announceRecord
  split
  · split
    · exact announced_of_evq rfl rfl
    · exact announced_ringVector 2 hw
  · split
    · exact announced_ringVector 1 hw
    · exact announced_moderate hw

/-! ### Writing a record at the head (R43) -/

/-- The host address of the record at the head. -/
def State.headAddr (s : State) : Nat :=
  s.rd Reg.EPO_EVQ_BASE_LO.base_lo 0 * 4096 + s.rd Reg.EPO_EVQ_BASE_HI.base_hi 0 * 2 ^ 32 + s.rd Reg.EPO_EVQ_HEAD.head 0 * 32

/-- The record in host memory, and the head behind it: the record is written before the head moves (R43), so the ring size is read of
the state that holds the record. -/
def State.storeRecord (s : State) (e : Event) : State :=
  (s.hostStore s.headAddr (eventBytes e)).wr Reg.EPO_EVQ_HEAD.head 0
    ((s.rd Reg.EPO_EVQ_HEAD.head 0 + 1) % (s.hostStore s.headAddr (eventBytes e)).ringSize)

theorem State.storeRecord_mem (s : State) (e : Event) :
    (s.storeRecord e).host.mem = tabSetList 0 s.host.mem s.headAddr (eventBytes e) := by
  unfold State.storeRecord
  rw [State.wr_host, State.hostStore_mem]

theorem State.storeRecord_evq (s : State) (e : Event) : (s.storeRecord e).evq = s.evq := by
  unfold State.storeRecord
  rw [State.wr_evq, State.hostStore_evq]

theorem State.writeRecord_eq (s : State) (e : Event) : s.writeRecord e = (s.storeRecord e).announceRecord e := by
  unfold State.writeRecord State.announceRecord State.storeRecord State.headAddr
  with_reducible rfl

section Written

variable {s : State} (e : Event)

theorem State.writeRecord_only : Only eventParts s (s.writeRecord e) :=
  (State.writeRecord_keeps (M := 0x512) (by decide) (.refl s)).only (by decide)

section Registers

variable (hw : tabWf 0 s.regs = true)
include hw

theorem State.regs_storeRecord : tabWf 0 (s.storeRecord e).regs = true := by
  unfold State.storeRecord
  exact State.regs_wr _ _ _ (State.regs_hostStore _ _ hw)

theorem announced_writeRecord : Announced (s.storeRecord e) (s.writeRecord e) := by
  rw [State.writeRecord_eq]
  exact announced_announceRecord e (State.regs_storeRecord e hw)

theorem State.writeRecord_buf : (s.writeRecord e).evq.buf = s.evq.buf := by
  rw [(announced_writeRecord e hw).buf, State.storeRecord_evq]

theorem State.writeRecord_dropped : (s.writeRecord e).evq.dropped = s.evq.dropped := by
  rw [(announced_writeRecord e hw).dropped, State.storeRecord_evq]

theorem State.rd_writeRecord_head :
    (s.writeRecord e).rd Reg.EPO_EVQ_HEAD.head 0 = (s.rd Reg.EPO_EVQ_HEAD.head 0 + 1) % s.ringSize % 2 ^ 16 := by
  rw [(announced_writeRecord e hw).regs _ _ (by decide)]
  unfold State.storeRecord
  rw [State.rd_wr_self _ _ _ (State.regs_hostStore _ _ hw), State.ringSize_hostStore]
  rfl

theorem regsBut_writeRecord : RegsBut ((Reg.EPO_EVQ_HEAD.head, 0) :: eventRegs) s (s.writeRecord e) := by
  have hstored : RegsBut ((Reg.EPO_EVQ_HEAD.head, 0) :: eventRegs) s (s.storeRecord e) := by
    unfold State.storeRecord
    exact regsBut_wr (State.regs_hostStore _ _ hw) List.mem_cons_self (regsBut_of_regs (State.hostStore_regs ..))
  exact regsBut_trans hstored (regsBut_mono (fun _ => List.mem_cons_of_mem _) (announced_writeRecord e hw).regs)

theorem State.writeRecord_mem : (s.writeRecord e).host.mem = tabSetList 0 s.host.mem s.headAddr (eventBytes e) := by
  rw [(announced_writeRecord e hw).mem, State.storeRecord_mem]

/-- The host finds the record where the head stood. -/
theorem State.hostLoad_writeRecord (hm : tabWf 0 s.host.mem = true) :
    (s.writeRecord e).hostLoad s.headAddr 32 = eventBytes e := by
  unfold State.hostLoad
  rw [State.writeRecord_mem e hw, ← eventBytes_length e]
  exact tabGetList_tabSetList_self _ hm

/-- The 32 bytes at the head are all of host memory that a record changes. -/
theorem State.writeRecord_mem_outside (hm : tabWf 0 s.host.mem = true) {b : Nat} (hb : b < s.headAddr ∨ s.headAddr + 32 ≤ b) :
    tabGet 0 (s.writeRecord e).host.mem b = tabGet 0 s.host.mem b := by
  rw [State.writeRecord_mem e hw]
  exact tabGet_tabSetList_outside hm (by rwa [eventBytes_length])

end Registers

end Written

/-! ### RING_WRITE (R43, R44) -/

theorem exec_ringWrite (persist : Bool) (errs : List BadWord) (s : State) :
    exec (.ringWrite persist errs) s = .next (s.ringWrite persist errs) := rfl

/-- A ring that takes no record, or no record that waits: nothing happens. -/
theorem State.ringWrite_idle {s : State} (persist : Bool) (errs : List BadWord) (h : s.ringOpen = false ∨ s.evq.buf = []) :
    s.ringWrite persist errs = s := by
  refine if_pos ?_
  rcases h with h | h <;> simp [h]

/-- The record as it is written: with PERSIST while its condition is still present (Table 1.4). -/
def markPersist (persist : Bool) (e : Event) : Event :=
  { e with flags := if persist ∧ e.flags / 8 % 2 = 0 then e.flags + 8 else e.flags }

/-- The oldest record leaves the buffer; a loss record joins it behind those that wait when records have been dropped (R44). -/
def State.takeOldest (s : State) (rest : List Event) : State :=
  { s with evq := { s.evq with buf := rest ++ (if s.evq.dropped = 0 then [] else [s.lossRecord]), dropped := 0 } }

theorem State.takeOldest_only (s : State) (rest : List Event) : Only eventParts s (s.takeOldest rest) := by
  intro p hp
  cases p with
  | evq => exact absurd (by decide) hp
  | _ => rfl

/-- RING_WRITE of a ring that takes a record: the oldest record is taken from the buffer and written. -/
theorem State.ringWrite_open {s : State} {e : Event} {rest : List Event} (persist : Bool) {errs : List BadWord}
    (hopen : s.ringOpen = true) (hbuf : s.evq.buf = e :: rest)
    (herrs : ∀ x ∈ errs, x.memory ≠ 0 ∨ x.word < 1196032 ∨ 1196036 ≤ x.word) :
    s.ringWrite persist errs = (s.takeOldest rest).writeRecord (markPersist persist e) := by
  have hgo : ¬ (!s.ringOpen || s.evq.buf.isEmpty) = true := by simp [hopen, hbuf]
  have hclean : ∀ x ∈ errs, (x.memory == 0 && decide (1196032 ≤ x.word) && decide (x.word < 1196036)) = false := by
    intro x hx
    have := herrs x hx
    simp only [Bool.and_eq_false_iff, beq_eq_false_iff_ne, decide_eq_false_iff_not]
    omega
  have hmark : (if persist = true ∧ e.flags / 8 % 2 = 0 then { e with flags := e.flags + 8 } else e) = markPersist persist e := by
    unfold markPersist
    split <;> rfl
  unfold State.ringWrite
  rw [if_neg hgo, State.readWords_of_none_read hclean]
  simp only [hbuf]
  rw [hmark]
  rfl

/-! ### A discarded write (R30) -/

/-- All that a discarded write does. -/
theorem State.rejectWrite_effect {s : State} (addr : Nat) (hw : tabWf 0 s.regs = true) :
    (s.rejectWrite addr).rd Reg.EPO_WR_REJECT_CNT.count 0 = min (s.rd Reg.EPO_WR_REJECT_CNT.count 0 + 1) (2 ^ 32 - 1)
      ∧ Reports s (s.rejectWrite addr) 0x013 0 addr ∧ Only eventParts s (s.rejectWrite addr)
      ∧ RegsBut ([(Reg.EPO_WR_REJECT_CNT.count, 0)] ++ eventRegs) s (s.rejectWrite addr) := by
  have hu : tabWf 0 (s.count Reg.EPO_WR_REJECT_CNT.count 0).regs = true := State.regs_count _ _ hw
  have hcount : RegsBut [(Reg.EPO_WR_REJECT_CNT.count, 0)] s (s.count Reg.EPO_WR_REJECT_CNT.count 0) :=
    regsBut_count hw List.mem_cons_self (regsBut_refl _ s)
  refine ⟨?counted, ?reports, ?only, ?regs⟩
  case counted => exact (State.rd_raise hu _ _ _ (by decide)).trans (State.rd_count_self _ _ hw)
  case reports => exact reports_raise (by decide) hu rfl rfl rfl (hcount _ _ (by decide))
  case only => exact (State.rejectWrite_keeps (M := 0x512) (by decide) (.refl s)).only (by decide)
  case regs => exact regsBut_raised hu (fun _ => List.mem_append_right _) (regsBut_mono (fun _ => List.mem_append_left _) hcount)

/-! ### EVQ_TAIL_WRITE and EVQ_CONFIG_WRITE (R483) -/

/-- A value from the present tail up to and including the head, in ring order. -/
abbrev State.TailFits (s : State) (v : Nat) : Prop :=
  v < s.ringSize ∧ (v + s.ringSize - s.rd Reg.EPO_EVQ_TAIL.tail 0) % s.ringSize
    ≤ (s.rd Reg.EPO_EVQ_HEAD.head 0 + s.ringSize - s.rd Reg.EPO_EVQ_TAIL.tail 0) % s.ringSize

/-- A tail within the ring is taken, another is discarded. -/
def State.takeTail (s : State) (v : Nat) : State :=
  if s.TailFits v then s.wr Reg.EPO_EVQ_TAIL.tail 0 v else s.rejectWrite 0x3054

theorem exec_evqTailWrite {s : State} {value : Nat} (hup : HostUp s) (hv : value < 2 ^ 16) :
    exec (.evqTailWrite value) s = .next (s.takeTail value) := by
  have hcut : exec (.evqTailWrite value) s = .next (s.takeTail (value % 2 ^ 16)) :=
    exec_of_byHost (f := fun s => .next (s.takeTail (value % 2 ^ 16))) rfl hup
  rwa [Nat.mod_eq_of_lt hv] at hcut

theorem State.takeTail_accepted {s : State} {v : Nat} (h : s.TailFits v) : s.takeTail v = s.wr Reg.EPO_EVQ_TAIL.tail 0 v := if_pos h

theorem State.takeTail_discarded {s : State} {v : Nat} (h : ¬ s.TailFits v) : s.takeTail v = s.rejectWrite 0x3054 := if_neg h

/-- A ring descriptor register takes a value, and the ring is empty. -/
def State.describeRing (s : State) (f : Field) (v : Nat) : State :=
  ((s.wr f 0 v).wr Reg.EPO_EVQ_HEAD.head 0 0).wr Reg.EPO_EVQ_TAIL.tail 0 0

/-- A ring descriptor is taken while ev_enable is 0, and a value outside the field's range is discarded. -/
def State.takeRingField (s : State) (f : Field) (v : Nat) : State :=
  if s.flag Reg.EPO_CTRL.ev_enable 0 ∨ v < f.min ∨ f.max < v then s.rejectWrite f.addr else s.describeRing f v

theorem exec_evqConfigWrite {s : State} (which : RingRegister) (value : Nat) (hup : HostUp s) :
    exec (.evqConfigWrite which value) s
      = .next (s.takeRingField (RingField which) (bitsOf value (RingField which).lo (RingField which).width)) :=
  exec_of_byHost
    (f := fun s => .next (s.takeRingField (RingField which) (bitsOf value (RingField which).lo (RingField which).width))) rfl hup

theorem State.takeRingField_enabled {s : State} (f : Field) (v : Nat) (h : s.flag Reg.EPO_CTRL.ev_enable 0 = true) :
    s.takeRingField f v = s.rejectWrite f.addr := if_pos (.inl h)

theorem State.takeRingField_accepted {s : State} {f : Field} {v : Nat} (h : s.flag Reg.EPO_CTRL.ev_enable 0 = false)
    (hmin : f.min ≤ v) (hmax : v ≤ f.max) : s.takeRingField f v = s.describeRing f v := by
  refine if_neg ?_
  rintro (hen | hlow | hhigh)
  · rw [h] at hen; exact Bool.false_ne_true hen
  · exact absurd hmin (Nat.not_le.mpr hlow)
  · exact absurd hmax (Nat.not_le.mpr hhigh)

/-- The ring descriptor registers lie apart from the head and the tail. -/
theorem regKey_ringField (which : RingRegister) :
    regKey (RingField which) 0 ≠ regKey Reg.EPO_EVQ_HEAD.head 0 ∧ regKey (RingField which) 0 ≠ regKey Reg.EPO_EVQ_TAIL.tail 0 := by
  cases which <;> decide

section Described

variable {s : State} (f : Field) (v : Nat)

theorem State.describeRing_only : Only [.regs] s (s.describeRing f v) :=
  (State.wr_keeps (M := 0x10) (by decide) (State.wr_keeps (by decide) (State.wr_keeps (by decide) (.refl s)))).only (by decide)

section Registers

variable (hw : tabWf 0 s.regs = true)
include hw

theorem State.rd_describeRing_tail : (s.describeRing f v).rd Reg.EPO_EVQ_TAIL.tail 0 = 0 :=
  State.rd_wr_self _ _ _ (State.regs_wr _ _ _ (State.regs_wr _ _ _ hw))

theorem State.rd_describeRing_head : (s.describeRing f v).rd Reg.EPO_EVQ_HEAD.head 0 = 0 := by
  unfold State.describeRing
  rw [State.rd_wr_ne _ _ _ _ _ (State.regs_wr _ _ _ (State.regs_wr _ _ _ hw)) (by decide),
    State.rd_wr_self _ _ _ (State.regs_wr _ _ _ hw), Nat.zero_mod]

theorem State.rd_describeRing_self (hf : regKey f 0 ≠ regKey Reg.EPO_EVQ_HEAD.head 0 ∧ regKey f 0 ≠ regKey Reg.EPO_EVQ_TAIL.tail 0)
    (hv : v < 2 ^ f.width) : (s.describeRing f v).rd f 0 = v := by
  unfold State.describeRing
  rw [State.rd_wr_ne _ _ _ _ _ (State.regs_wr _ _ _ (State.regs_wr _ _ _ hw)) hf.2,
    State.rd_wr_ne _ _ _ _ _ (State.regs_wr _ _ _ hw) hf.1, State.rd_wr_self _ _ _ hw, Nat.mod_eq_of_lt hv]

theorem regsBut_describeRing :
    RegsBut [(f, 0), (Reg.EPO_EVQ_HEAD.head, 0), (Reg.EPO_EVQ_TAIL.tail, 0)] s (s.describeRing f v) :=
  regsBut_wr (State.regs_wr _ _ _ (State.regs_wr _ _ _ hw)) (by simp)
    (regsBut_wr (State.regs_wr _ _ _ hw) (by simp) (regsBut_wr hw (by simp) (regsBut_refl _ s)))

end Registers

end Described

end Sys2Proof.Machine

namespace Sys2Proof.Proofs

open Sys2Proof Sys2Proof.Machine Sys2Proof.Safety

/-- Settles O18: RING_WRITE is `takeOldest` and then `writeRecord`, and each host write is one register change or one discarded write. -/
theorem eventRing : Obligations.EventRing := by
  refine ⟨fun s persist errs hs => ⟨fun h => ?idle, fun e rest hopen hbuf herrs => ?writes⟩,
    fun s value hs hup => ⟨fun hn hv hle => ?tail, fun hn hv hlt => ?beyond, fun hn hv => ?outside,
      fun which hen hmin hmax => ?config, fun which hen => ?enabled⟩⟩
  case idle =>
    rw [exec_ringWrite, State.ringWrite_idle persist errs h]
  case writes =>
    have hw : tabWf 0 (s.takeOldest rest).regs = true := hs.regs
    have hm : tabWf 0 (s.takeOldest rest).host.mem = true := hs.memory
    rw [exec_ringWrite, State.ringWrite_open persist hopen hbuf herrs]
    exact ⟨_, rfl, State.rd_writeRecord_head _ hw,
      State.hostLoad_writeRecord _ hw hm, fun _ => State.writeRecord_mem_outside _ hw hm, State.writeRecord_buf _ hw,
      State.writeRecord_dropped _ hw, only_trans (s.takeOldest_only rest) (State.writeRecord_only _), regsBut_writeRecord _ hw⟩
  case tail =>
    rw [exec_evqTailWrite hup hv, State.takeTail_accepted ⟨hn, hle⟩]
    exact ⟨_, rfl, (State.rd_wr_self _ _ _ hs.regs).trans (Nat.mod_eq_of_lt hv),
      (State.wr_keeps (M := 0x10) (by decide) (.refl s)).only (by decide), regsBut_wr hs.regs List.mem_cons_self (regsBut_refl _ s)⟩
  case beyond =>
    rw [exec_evqTailWrite hup hv, State.takeTail_discarded (fun h => absurd h.2 (Nat.not_le.mpr hlt))]
    exact ⟨_, rfl, State.rejectWrite_effect _ hs.regs⟩
  case outside =>
    rw [exec_evqTailWrite hup hv, State.takeTail_discarded (fun h => absurd h.1 (Nat.not_lt.mpr hn))]
    exact ⟨_, rfl, State.rejectWrite_effect _ hs.regs⟩
  case config =>
    rw [exec_evqConfigWrite which value hup, State.takeRingField_accepted hen hmin hmax]
    exact ⟨_, rfl, State.rd_describeRing_self _ _ hs.regs (regKey_ringField which) (Nat.mod_lt _ (Nat.two_pow_pos _)),
      State.rd_describeRing_head _ _ hs.regs, State.rd_describeRing_tail _ _ hs.regs, State.describeRing_only _ _,
      regsBut_describeRing _ _ hs.regs⟩
  case enabled =>
    rw [exec_evqConfigWrite which value hup, State.takeRingField_enabled _ _ hen]
    exact ⟨_, rfl, State.rejectWrite_effect _ hs.regs⟩

end Sys2Proof.Proofs

/-! ## The machine as a whole: every command completes, and what every step keeps

`exec_keeps` says once, for every command, what its meaning keeps of the machine; `exec_completes` that every command a sender can form
answers a next state. The statements about the whole machine are short uses of the two. -/

namespace Sys2Proof.Machine

open Sys2Proof.Safety

/-- What a command may change, as a mask of Laws/Keeps.lean: the key slots (bit 29) with KEY_PROGRAM and KEY_REVOKE alone, the flash
contents (bit 30) with FLASH_COMMAND_DONE alone. -/
def Instr.mask : Instr → Nat
  | .keyProgram _ | .keyRevoke _ => 0x3bfffffff
  | .flashCommandDone _ => 0x3dfffffff
  | _ => 0x39fffffff

/-- What every command keeps of the machine. -/
theorem exec_keeps (c : Instr) (s : State) : KeepsO (Instr.mask c) s (exec c s) := by
  cases c with
  | seam => exact execSeam_keeps.mono (M := 0x39fffffff) rfl
  | fenceNamed => exact execFenceNamed_keeps.mono (M := 0x39fffffff) rfl
  | fenceNext => exact execFenceNext_keeps.mono (M := 0x39fffffff) rfl
  | stagedWrite => exact execStagedWrite_keeps.mono (M := 0x39fffffff) rfl
  | stageDiscard => exact execStageDiscard_keeps.mono (M := 0x39fffffff) rfl
  | statReset => exact execStatReset_keeps.mono (M := 0x39fffffff) rfl
  | pin => exact execPin_keeps.mono (M := 0x39fffffff) rfl
  | pinRelease => exact execPinRelease_keeps.mono (M := 0x39fffffff) rfl
  | pinExpired => exact execPinExpired_keeps.mono (M := 0x39fffffff) rfl
  | pointWindowRead => exact execPointWindowRead_keeps.mono (M := 0x39fffffff) rfl
  | benchLoaded => exact execBenchLoaded_keeps.mono (M := 0x39fffffff) rfl
  | extendedPointWrite => exact execExtendedPointWrite_keeps.mono (M := 0x39fffffff) rfl
  | ringWrite => exact execRingWrite_keeps.mono (M := 0x39fffffff) rfl
  | evqTailWrite => exact execEvqTailWrite_keeps.mono (M := 0x39fffffff) rfl
  | evqConfigWrite => exact execEvqConfigWrite_keeps.mono (M := 0x39fffffff) rfl
  | rollupFold => exact execRollupFold_keeps.mono (M := 0x39fffffff) rfl
  | scrub => exact execScrub_keeps.mono (M := 0x39fffffff) rfl
  | eccCorrected => exact execEccCorrected_keeps.mono (M := 0x39fffffff) rfl
  | ueAddrRead => exact execUeAddrRead_keeps.mono (M := 0x39fffffff) rfl
  | rcRead => exact execRcRead_keeps.mono (M := 0x39fffffff) rfl
  | registerWrite => exact execRegisterWrite_keeps.mono (M := 0x39fffffff) rfl
  | drArm => exact execDrArm_keeps.mono (M := 0x39fffffff) rfl
  | drTrigger => exact execDrTrigger_keeps.mono (M := 0x39fffffff) rfl
  | drDmaStart => exact execDrDmaStart_keeps.mono (M := 0x39fffffff) rfl
  | drTransferred => exact execDrTransferred_keeps.mono (M := 0x39fffffff) rfl
  | armDecision => exact execArmDecision_keeps.mono (M := 0x39fffffff) rfl
  | retireGo => exact execRetireGo_keeps.mono (M := 0x39fffffff) rfl
  | carrierInstant => exact execCarrierInstant_keeps.mono (M := 0x39fffffff) rfl
  | downlinkFrame => exact execDownlinkFrame_keeps.mono (M := 0x39fffffff) rfl
  | uplinkFrame => exact execUplinkFrame_keeps.mono (M := 0x39fffffff) rfl
  | identRequest => exact execIdentRequest_keeps.mono (M := 0x39fffffff) rfl
  | lockGained => exact execLockGained_keeps.mono (M := 0x39fffffff) rfl
  | lockLost => exact execLockLost_keeps.mono (M := 0x39fffffff) rfl
  | relock => exact execRelock_keeps.mono (M := 0x39fffffff) rfl
  | rxDisable => exact execRxDisable_keeps.mono (M := 0x39fffffff) rfl
  | alignSend => exact execAlignSend_keeps.mono (M := 0x39fffffff) rfl
  | alignReceived => exact execAlignReceived_keeps.mono (M := 0x39fffffff) rfl
  | eqWrite => exact execEqWrite_keeps.mono (M := 0x39fffffff) rfl
  | eyeScanStart => exact execEyeScanStart_keeps.mono (M := 0x39fffffff) rfl
  | eyeDone => exact execEyeDone_keeps.mono (M := 0x39fffffff) rfl
  | sstShiftDecision => exact execSstShiftDecision_keeps.mono (M := 0x39fffffff) rfl
  | drvCommit => exact execDrvCommit_keeps.mono (M := 0x39fffffff) rfl
  | drvReload => exact execDrvReload_keeps.mono (M := 0x39fffffff) rfl
  | drvPeriodStart => exact execDrvPeriodStart_keeps.mono (M := 0x39fffffff) rfl
  | drvModeWrite => exact execDrvModeWrite_keeps.mono (M := 0x39fffffff) rfl
  | drvStaticWrite => exact execDrvStaticWrite_keeps.mono (M := 0x39fffffff) rfl
  | drvTimedState => exact execDrvTimedState_keeps.mono (M := 0x39fffffff) rfl
  | drvTimedEdge => exact execDrvTimedEdge_keeps.mono (M := 0x39fffffff) rfl
  | drvCalibrate => exact execDrvCalibrate_keeps.mono (M := 0x39fffffff) rfl
  | nodeDelayMeasure => exact execNodeDelayMeasure_keeps.mono (M := 0x39fffffff) rfl
  | gateFault => exact execGateFault_keeps.mono (M := 0x39fffffff) rfl
  | gateFaultRepeat => exact execGateFaultRepeat_keeps.mono (M := 0x39fffffff) rfl
  | bootstrapUv => exact execBootstrapUv_keeps.mono (M := 0x39fffffff) rfl
  | hostRelease => exact execHostRelease_keeps.mono (M := 0x39fffffff) rfl
  | fabTick => exact execFabTick_keeps.mono (M := 0x39fffffff) rfl
  | opDispatch => exact execOpDispatch_keeps.mono (M := 0x39fffffff) rfl
  | opComplete => exact execOpComplete_keeps.mono (M := 0x39fffffff) rfl
  | jobCommit => exact execJobCommit_keeps.mono (M := 0x39fffffff) rfl
  | queueSpaceRelease => exact execQueueSpaceRelease_keeps.mono (M := 0x39fffffff) rfl
  | deadlineMiss => exact execDeadlineMiss_keeps.mono (M := 0x39fffffff) rfl
  | conditionQualified => exact execConditionQualified_keeps.mono (M := 0x39fffffff) rfl
  | conditionUnqualified => exact execConditionUnqualified_keeps.mono (M := 0x39fffffff) rfl
  | tripOutClear => exact execTripOutClear_keeps.mono (M := 0x39fffffff) rfl
  | prioBlockClear => exact execPrioBlockClear_keeps.mono (M := 0x39fffffff) rfl
  | hostCondition => exact execHostCondition_keeps.mono (M := 0x39fffffff) rfl
  | rampTick => exact execRampTick_keeps.mono (M := 0x39fffffff) rfl
  | rampHaltRequest => exact execRampHaltRequest_keeps.mono (M := 0x39fffffff) rfl
  | ordInEdge => exact execOrdInEdge_keeps.mono (M := 0x39fffffff) rfl
  | inputLoss => exact execInputLoss_keeps.mono (M := 0x39fffffff) rfl
  | ordInCfgWrite => exact execOrdInCfgWrite_keeps.mono (M := 0x39fffffff) rfl
  | genHoldover => exact execGenHoldover_keeps.mono (M := 0x39fffffff) rfl
  | tableDataWrite => exact execTableDataWrite_keeps.mono (M := 0x39fffffff) rfl
  | regTrigger => exact execRegTrigger_keeps.mono (M := 0x39fffffff) rfl
  | injRequest => exact execInjRequest_keeps.mono (M := 0x39fffffff) rfl
  | injService => exact execInjService_keeps.mono (M := 0x39fffffff) rfl
  | adcSample => exact execAdcSample_keeps.mono (M := 0x39fffffff) rfl
  | conversionCompare => exact execConversionCompare_keeps.mono (M := 0x39fffffff) rfl
  | dsSample => exact execDsSample_keeps.mono (M := 0x39fffffff) rfl
  | calValid => exact execCalValid_keeps.mono (M := 0x39fffffff) rfl
  | syscalStep => exact execSyscalStep_keeps.mono (M := 0x39fffffff) rfl
  | syscalDone => exact execSyscalDone_keeps.mono (M := 0x39fffffff) rfl
  | svFrame => exact execSvFrame_keeps.mono (M := 0x39fffffff) rfl
  | svTimeout => exact execSvTimeout_keeps.mono (M := 0x39fffffff) rfl
  | rateWrite => exact execRateWrite_keeps.mono (M := 0x39fffffff) rfl
  | refFallback => exact execRefFallback_keeps.mono (M := 0x39fffffff) rfl
  | refRestored => exact execRefRestored_keeps.mono (M := 0x39fffffff) rfl
  | delayAccept => exact execDelayAccept_keeps.mono (M := 0x39fffffff) rfl
  | laneReacquire => exact execLaneReacquire_keeps.mono (M := 0x39fffffff) rfl
  | ethRxFrame => exact execEthRxFrame_keeps.mono (M := 0x39fffffff) rfl
  | ethTxFrame => exact execEthTxFrame_keeps.mono (M := 0x39fffffff) rfl
  | mpdAccept => exact execMpdAccept_keeps.mono (M := 0x39fffffff) rfl
  | ethLinkChange => exact execEthLinkChange_keeps.mono (M := 0x39fffffff) rfl
  | ppsInEdge => exact execPpsInEdge_keeps.mono (M := 0x39fffffff) rfl
  | ppsInMissing => exact execPpsInMissing_keeps.mono (M := 0x39fffffff) rfl
  | ppsOutPulse => exact execPpsOutPulse_keeps.mono (M := 0x39fffffff) rfl
  | ppsOutEnd => exact execPpsOutEnd_keeps.mono (M := 0x39fffffff) rfl
  | qualFreeRun => exact execQualFreeRun_keeps.mono (M := 0x39fffffff) rfl
  | qualLocked => exact execQualLocked_keeps.mono (M := 0x39fffffff) rfl
  | qualHoldover => exact execQualHoldover_keeps.mono (M := 0x39fffffff) rfl
  | qualClear => exact execQualClear_keeps.mono (M := 0x39fffffff) rfl
  | holdoverWatch => exact execHoldoverWatch_keeps.mono (M := 0x39fffffff) rfl
  | timSnap => exact execTimSnap_keeps.mono (M := 0x39fffffff) rfl
  | alarmArm => exact execAlarmArm_keeps.mono (M := 0x39fffffff) rfl
  | alarm => exact execAlarm_keeps.mono (M := 0x39fffffff) rfl
  | heartbeatSend => exact execHeartbeatSend_keeps.mono (M := 0x39fffffff) rfl
  | heartbeatSymbol => exact execHeartbeatSymbol_keeps.mono (M := 0x39fffffff) rfl
  | hbPathLost => exact execHbPathLost_keeps.mono (M := 0x39fffffff) rfl
  | listenEnd => exact execListenEnd_keeps.mono (M := 0x39fffffff) rfl
  | ringHeartbeat => exact execRingHeartbeat_keeps.mono (M := 0x39fffffff) rfl
  | ckptSegment => exact execCkptSegment_keeps.mono (M := 0x39fffffff) rfl
  | slowBench => exact execSlowBench_keeps.mono (M := 0x39fffffff) rfl
  | bindSegment => exact execBindSegment_keeps.mono (M := 0x39fffffff) rfl
  | mirrorRun => exact execMirrorRun_keeps.mono (M := 0x39fffffff) rfl
  | handoverRequest => exact execHandoverRequest_keeps.mono (M := 0x39fffffff) rfl
  | handoverReady => exact execHandoverReady_keeps.mono (M := 0x39fffffff) rfl
  | handoverGrant => exact execHandoverGrant_keeps.mono (M := 0x39fffffff) rfl
  | handoverAbort => exact execHandoverAbort_keeps.mono (M := 0x39fffffff) rfl
  | slowCheckpointSend => exact execSlowCheckpointSend_keeps.mono (M := 0x39fffffff) rfl
  | takeoverWakeDone => exact execTakeoverWakeDone_keeps.mono (M := 0x39fffffff) rfl
  | takeoverRestoreDone => exact execTakeoverRestoreDone_keeps.mono (M := 0x39fffffff) rfl
  | revertRequested => exact execRevertRequested_keeps.mono (M := 0x39fffffff) rfl
  | redCmdStandby => exact execRedCmdStandby_keeps.mono (M := 0x39fffffff) rfl
  | redCmdActivate => exact execRedCmdActivate_keeps.mono (M := 0x39fffffff) rfl
  | redCmdHandover => exact execRedCmdHandover_keeps.mono (M := 0x39fffffff) rfl
  | redCmdAbort => exact execRedCmdAbort_keeps.mono (M := 0x39fffffff) rfl
  | ringPort => exact execRingPort_keeps.mono (M := 0x39fffffff) rfl
  | pairDemand => exact execPairDemand_keeps.mono (M := 0x39fffffff) rfl
  | pairDiscrepancy => exact execPairDiscrepancy_keeps.mono (M := 0x39fffffff) rfl
  | testPulse => exact execTestPulse_keeps.mono (M := 0x39fffffff) rfl
  | testFailed => exact execTestFailed_keeps.mono (M := 0x39fffffff) rfl
  | limitViolation => exact execLimitViolation_keeps.mono (M := 0x39fffffff) rfl
  | measDiscrepancy => exact execMeasDiscrepancy_keeps.mono (M := 0x39fffffff) rfl
  | envelopeViolation => exact execEnvelopeViolation_keeps.mono (M := 0x39fffffff) rfl
  | stopTimeout => exact execStopTimeout_keeps.mono (M := 0x39fffffff) rfl
  | safUnlock => exact execSafUnlock_keeps.mono (M := 0x39fffffff) rfl
  | unlockExpired => exact execUnlockExpired_keeps.mono (M := 0x39fffffff) rfl
  | safCmdStop => exact execSafCmdStop_keeps.mono (M := 0x39fffffff) rfl
  | safCmdBlock => exact execSafCmdBlock_keeps.mono (M := 0x39fffffff) rfl
  | safCmdRelease => exact execSafCmdRelease_keeps.mono (M := 0x39fffffff) rfl
  | safCmdClear => exact execSafCmdClear_keeps.mono (M := 0x39fffffff) rfl
  | safCmdTestNow => exact execSafCmdTestNow_keeps.mono (M := 0x39fffffff) rfl
  | soutTest => exact execSoutTest_keeps.mono (M := 0x39fffffff) rfl
  | soutReadback => exact execSoutReadback_keeps.mono (M := 0x39fffffff) rfl
  | expired => exact execExpired_keeps.mono (M := 0x39fffffff) rfl
  | safClockWindow => exact execSafClockWindow_keeps.mono (M := 0x39fffffff) rfl
  | selfCheck => exact execSelfCheck_keeps.mono (M := 0x39fffffff) rfl
  | load => exact execLoad_keeps.mono (M := 0x39fffffff) rfl
  | loadComplete => exact execLoadComplete_keeps.mono (M := 0x39fffffff) rfl
  | verify => exact execVerify_keeps.mono (M := 0x39fffffff) rfl
  | verifyComplete => exact execVerifyComplete_keeps.mono (M := 0x39fffffff) rfl
  | lrStage => exact execLrStage_keeps.mono (M := 0x39fffffff) rfl
  | lrStageComplete => exact execLrStageComplete_keeps.mono (M := 0x39fffffff) rfl
  | lrArm => exact execLrArm_keeps.mono (M := 0x39fffffff) rfl
  | lrCancel => exact execLrCancel_keeps.mono (M := 0x39fffffff) rfl
  | lrDiscard => exact execLrDiscard_keeps.mono (M := 0x39fffffff) rfl
  | keyProgram => exact execKeyProgram_keeps.mono (M := 0x3bfffffff) rfl
  | keyRevoke => exact execKeyRevoke_keeps.mono (M := 0x3bfffffff) rfl
  | keyDataWrite => exact execKeyDataWrite_keeps.mono (M := 0x39fffffff) rfl
  | flashReadPage => exact execFlashReadPage_keeps.mono (M := 0x39fffffff) rfl
  | flashProgramPage => exact execFlashProgramPage_keeps.mono (M := 0x39fffffff) rfl
  | flashEraseSector => exact execFlashEraseSector_keeps.mono (M := 0x39fffffff) rfl
  | flashCommandDone => exact execFlashCommandDone_keeps.mono (M := 0x3dfffffff) rfl
  | flashDataAccess => exact execFlashDataAccess_keeps.mono (M := 0x39fffffff) rfl
  | domainRequest => exact execDomainRequest_keeps.mono (M := 0x39fffffff) rfl
  | domainWakeDone => exact execDomainWakeDone_keeps.mono (M := 0x39fffffff) rfl
  | domainFault => exact execDomainFault_keeps.mono (M := 0x39fffffff) rfl
  | pllUnlock => exact execPllUnlock_keeps.mono (M := 0x39fffffff) rfl
  | tempHigh => exact execTempHigh_keeps.mono (M := 0x39fffffff) rfl
  | tempNormal => exact execTempNormal_keeps.mono (M := 0x39fffffff) rfl
  | retRefresh => exact execRetRefresh_keeps.mono (M := 0x39fffffff) rfl
  | powerOnReset => exact execPowerOnReset_keeps.mono (M := 0x39fffffff) rfl
  | brownout => exact execBrownout_keeps.mono (M := 0x39fffffff) rfl
  | rstNAssert => exact execRstNAssert_keeps.mono (M := 0x39fffffff) rfl
  | resetHold200ms => exact execResetHold200ms_keeps.mono (M := 0x39fffffff) rfl
  | resetReleased => exact execResetReleased_keeps.mono (M := 0x39fffffff) rfl
  | pwrCmdReset => exact execPwrCmdReset_keeps.mono (M := 0x39fffffff) rfl
  | pwrCmdDormant => exact execPwrCmdDormant_keeps.mono (M := 0x39fffffff) rfl
  | dormantWake => exact execDormantWake_keeps.mono (M := 0x39fffffff) rfl
  | retOff => exact execRetOff_keeps.mono (M := 0x39fffffff) rfl
  | linkDown => exact execLinkDown_keeps.mono (M := 0x39fffffff) rfl
  | linkUp => exact execLinkUp_keeps.mono (M := 0x39fffffff) rfl
  | masterOff => exact execMasterOff_keeps.mono (M := 0x39fffffff) rfl
  | powerState => exact execPowerState_keeps.mono (M := 0x39fffffff) rfl
  | vector0Timeout => exact execVector0Timeout_keeps.mono (M := 0x39fffffff) rfl
  | msixUnmask => exact execMsixUnmask_keeps.mono (M := 0x39fffffff) rfl
  | irqTest => exact execIrqTest_keeps.mono (M := 0x39fffffff) rfl
  | pairDemandEnd => exact execPairDemandEnd_keeps.mono (M := 0x39fffffff) rfl
  | supplyOutOfRange => exact execSupplyOutOfRange_keeps.mono (M := 0x39fffffff) rfl
  | checkpointSent => exact execCheckpointSent_keeps.mono (M := 0x39fffffff) rfl
  | latchingRead => exact execLatchingRead_keeps.mono (M := 0x39fffffff) rfl
  | jtagInstruction => exact execJtagInstruction_keeps.mono (M := 0x39fffffff) rfl
  | jtagPortReset => exact execJtagPortReset_keeps.mono (M := 0x39fffffff) rfl

/-- A meaning answers a next state. -/
def Completes (o : Host.Outcome State Fault Refusal) : Prop := ∃ t, o = .next t

/-- The same as a flag, which the kernel reads off a meaning without building the state that it answers. -/
def isNext : Host.Outcome State Fault Refusal → Bool
  | .next _ => true
  | .fault _ | .refused _ => false

theorem completes_of_isNext {o : Host.Outcome State Fault Refusal} (h : isNext o = true) : Completes o := by
  cases o with
  | next t => exact ⟨t, rfl⟩
  | fault => cases h
  | refused => cases h

theorem completes_ite {p : Prop} [Decidable p] {a b : Host.Outcome State Fault Refusal} (ha : Completes a) (hb : Completes b) :
    Completes (if p then a else b) := by
  split <;> assumption

/-- A host write (`byHost`) completes where its meaning does. -/
theorem completes_host {p : Prop} [Decidable p] {s : State} {o : Host.Outcome State Fault Refusal} (h : isNext o = true) :
    Completes (if p then .next s else o) :=
  completes_ite ⟨s, rfl⟩ (completes_of_isNext h)

/-- A host read (`byReader`) completes where its meaning does. -/
theorem completes_reader {p q : Prop} [Decidable p] [Decidable q] {s u : State} {o : Host.Outcome State Fault Refusal}
    (h : isNext o = true) : Completes (if p then .next s else if q then .next u else o) :=
  completes_ite ⟨s, rfl⟩ (completes_host h)

/-- A ring message completes where it is of its row. -/
theorem completes_pos {p : Prop} [Decidable p] {a b : Host.Outcome State Fault Refusal} (hp : p) (ha : isNext a = true) :
    Completes (if p then a else b) := by
  rw [if_pos hp]
  exact completes_of_isNext ha

/-- A conversion's host trigger is refused or taken, and completes either way. -/
theorem execRegTrigger_completes (core : Fin 4) (source : RegSource) (s : State) : Completes (execRegTrigger core source s) := by
  unfold execRegTrigger
  split
  · refine completes_ite ⟨s, rfl⟩ ?_
    dsimp only
    split <;> exact completes_of_isNext rfl
  all_goals exact completes_of_isNext rfl

/-- Every command that a sender can form completes. -/
theorem exec_completes {c : Instr} (s : State) (hc : c.wellFormed = true) : Completes (exec c s) := by
  cases c with
  | seam => exact completes_of_isNext rfl
  | fenceNamed => exact completes_host (by rfl)
  | fenceNext => exact completes_host (by rfl)
  | stagedWrite => exact completes_host (by rfl)
  | stageDiscard => exact completes_host (by rfl)
  | statReset => exact completes_host (by rfl)
  | pin => exact completes_host (by rfl)
  | pinRelease => exact completes_host (by rfl)
  | pinExpired => exact completes_of_isNext rfl
  | pointWindowRead => exact completes_reader (by rfl)
  | benchLoaded => exact completes_of_isNext rfl
  | extendedPointWrite => exact completes_host (by rfl)
  | ringWrite => exact completes_of_isNext rfl
  | evqTailWrite => exact completes_host (by rfl)
  | evqConfigWrite => exact completes_host (by rfl)
  | rollupFold => exact completes_of_isNext rfl
  | scrub => exact completes_of_isNext rfl
  | eccCorrected => exact completes_of_isNext rfl
  | ueAddrRead => exact completes_reader (by rfl)
  | rcRead => exact completes_reader (by rfl)
  | registerWrite => exact completes_host (by rfl)
  | drArm => exact completes_host (by rfl)
  | drTrigger => exact completes_host (by rfl)
  | drDmaStart => exact completes_host (by rfl)
  | drTransferred => exact completes_of_isNext rfl
  | armDecision => exact completes_of_isNext rfl
  | retireGo =>
    exact completes_ite ⟨s, rfl⟩ (completes_ite (completes_of_isNext (by rfl)) (completes_of_isNext (by rfl)))
  | carrierInstant => exact completes_of_isNext rfl
  | downlinkFrame => exact completes_of_isNext rfl
  | uplinkFrame => exact completes_of_isNext rfl
  | identRequest => exact completes_host (by rfl)
  | lockGained => exact completes_of_isNext rfl
  | lockLost => exact completes_of_isNext rfl
  | relock => exact completes_host (by rfl)
  | rxDisable => exact completes_host (by rfl)
  | alignSend => exact completes_of_isNext rfl
  | alignReceived => exact completes_of_isNext rfl
  | eqWrite => exact completes_host (by rfl)
  | eyeScanStart => exact completes_host (by rfl)
  | eyeDone => exact completes_of_isNext rfl
  | sstShiftDecision => exact completes_of_isNext rfl
  | drvCommit => exact completes_host (by rfl)
  | drvReload => exact completes_of_isNext rfl
  | drvPeriodStart => exact completes_of_isNext rfl
  | drvModeWrite => exact completes_host (by rfl)
  | drvStaticWrite => exact completes_host (by rfl)
  | drvTimedState => exact completes_of_isNext rfl
  | drvTimedEdge => exact completes_of_isNext rfl
  | drvCalibrate => exact completes_of_isNext rfl
  | nodeDelayMeasure => exact completes_of_isNext rfl
  | gateFault => exact completes_of_isNext rfl
  | gateFaultRepeat => exact completes_of_isNext rfl
  | bootstrapUv => exact completes_of_isNext rfl
  | hostRelease => exact completes_host (by rfl)
  | fabTick => exact completes_of_isNext rfl
  | opDispatch => exact completes_of_isNext rfl
  | opComplete => exact completes_of_isNext rfl
  | jobCommit => exact completes_of_isNext rfl
  | queueSpaceRelease => exact completes_of_isNext rfl
  | deadlineMiss => exact completes_of_isNext rfl
  | conditionQualified => exact completes_of_isNext rfl
  | conditionUnqualified => exact completes_of_isNext rfl
  | tripOutClear => exact completes_host (by rfl)
  | prioBlockClear => exact completes_host (by rfl)
  | hostCondition => exact completes_host (by rfl)
  | rampTick => exact completes_of_isNext rfl
  | rampHaltRequest => exact completes_host (by rfl)
  | ordInEdge => exact completes_of_isNext rfl
  | inputLoss => exact completes_of_isNext rfl
  | ordInCfgWrite => exact completes_host (by rfl)
  | genHoldover => exact completes_of_isNext rfl
  | tableDataWrite write =>
    cases write with
    | true => exact completes_host (by rfl)
    | false => exact completes_reader (by rfl)
  | regTrigger => exact execRegTrigger_completes ..
  | injRequest core entry source =>
    cases source with
    | host => exact completes_host (by rfl)
    | _ => exact completes_of_isNext rfl
  | injService => exact completes_of_isNext rfl
  | adcSample => exact completes_of_isNext rfl
  | conversionCompare => exact completes_of_isNext rfl
  | dsSample => exact completes_of_isNext rfl
  | calValid => exact completes_of_isNext rfl
  | syscalStep => exact completes_host (by rfl)
  | syscalDone => exact completes_of_isNext rfl
  | svFrame => exact completes_of_isNext rfl
  | svTimeout => exact completes_of_isNext rfl
  | rateWrite => exact completes_host (by rfl)
  | refFallback => exact completes_of_isNext rfl
  | refRestored => exact completes_of_isNext rfl
  | delayAccept => exact completes_host (by rfl)
  | laneReacquire => exact completes_host (by rfl)
  | ethRxFrame => exact completes_of_isNext rfl
  | ethTxFrame => exact completes_of_isNext rfl
  | mpdAccept => exact completes_host (by rfl)
  | ethLinkChange => exact completes_of_isNext rfl
  | ppsInEdge => exact completes_of_isNext rfl
  | ppsInMissing => exact completes_of_isNext rfl
  | ppsOutPulse => exact completes_of_isNext rfl
  | ppsOutEnd => exact completes_of_isNext rfl
  | qualFreeRun => exact completes_host (by rfl)
  | qualLocked => exact completes_host (by rfl)
  | qualHoldover => exact completes_host (by rfl)
  | qualClear => exact completes_host (by rfl)
  | holdoverWatch => exact completes_of_isNext rfl
  | timSnap => exact completes_host (by rfl)
  | alarmArm => exact completes_host (by rfl)
  | alarm => exact completes_of_isNext rfl
  | heartbeatSend => exact completes_of_isNext rfl
  | heartbeatSymbol => exact completes_of_isNext rfl
  | hbPathLost => exact completes_of_isNext rfl
  | listenEnd => exact completes_of_isNext rfl
  | ringHeartbeat => exact completes_pos (by exact hc) (by rfl)
  | ckptSegment => exact completes_pos (by exact hc) (by rfl)
  | slowBench => exact completes_pos (by exact hc) (by rfl)
  | bindSegment => exact completes_pos (by exact hc) (by rfl)
  | mirrorRun => exact completes_pos (by exact hc) (by rfl)
  | handoverRequest => exact completes_pos (by exact hc) (by rfl)
  | handoverReady => exact completes_pos (by exact hc) (by rfl)
  | handoverGrant => exact completes_pos (by exact hc) (by rfl)
  | handoverAbort => exact completes_pos (by exact hc) (by rfl)
  | slowCheckpointSend => exact completes_of_isNext rfl
  | takeoverWakeDone => exact completes_of_isNext rfl
  | takeoverRestoreDone => exact completes_of_isNext rfl
  | revertRequested => exact completes_of_isNext rfl
  | redCmdStandby => exact completes_host (by rfl)
  | redCmdActivate => exact completes_host (by rfl)
  | redCmdHandover => exact completes_host (by rfl)
  | redCmdAbort => exact completes_host (by rfl)
  | ringPort => exact completes_of_isNext rfl
  | pairDemand => exact completes_of_isNext rfl
  | pairDiscrepancy => exact completes_of_isNext rfl
  | testPulse => exact completes_of_isNext rfl
  | testFailed => exact completes_of_isNext rfl
  | limitViolation => exact completes_of_isNext rfl
  | measDiscrepancy => exact completes_of_isNext rfl
  | envelopeViolation => exact completes_of_isNext rfl
  | stopTimeout => exact completes_of_isNext rfl
  | safUnlock => exact completes_host (by rfl)
  | unlockExpired => exact completes_of_isNext rfl
  | safCmdStop => exact completes_host (by rfl)
  | safCmdBlock => exact completes_host (by rfl)
  | safCmdRelease => exact completes_host (by rfl)
  | safCmdClear => exact completes_host (by rfl)
  | safCmdTestNow => exact completes_host (by rfl)
  | soutTest => exact completes_of_isNext rfl
  | soutReadback => exact completes_of_isNext rfl
  | expired => exact completes_of_isNext rfl
  | safClockWindow => exact completes_of_isNext rfl
  | selfCheck => exact completes_of_isNext rfl
  | load => exact completes_host (by rfl)
  | loadComplete => exact completes_of_isNext rfl
  | verify => exact completes_host (by rfl)
  | verifyComplete => exact completes_of_isNext rfl
  | lrStage => exact completes_host (by rfl)
  | lrStageComplete => exact completes_of_isNext rfl
  | lrArm => exact completes_host (by rfl)
  | lrCancel => exact completes_host (by rfl)
  | lrDiscard => exact completes_host (by rfl)
  | keyProgram => exact completes_host (by rfl)
  | keyRevoke => exact completes_host (by rfl)
  | keyDataWrite => exact completes_host (by rfl)
  | flashReadPage => exact completes_host (by rfl)
  | flashProgramPage => exact completes_host (by rfl)
  | flashEraseSector => exact completes_host (by rfl)
  | flashCommandDone => exact completes_of_isNext rfl
  | flashDataAccess write =>
    cases write with
    | true => exact completes_host (by rfl)
    | false => exact completes_reader (by rfl)
  | domainRequest => exact completes_host (by rfl)
  | domainWakeDone => exact completes_of_isNext rfl
  | domainFault => exact completes_of_isNext rfl
  | pllUnlock => exact completes_of_isNext rfl
  | tempHigh => exact completes_of_isNext rfl
  | tempNormal => exact completes_of_isNext rfl
  | retRefresh => exact completes_of_isNext rfl
  | powerOnReset => exact completes_of_isNext rfl
  | brownout => exact completes_of_isNext rfl
  | rstNAssert => exact completes_of_isNext rfl
  | resetHold200ms => exact completes_of_isNext rfl
  | resetReleased => exact completes_of_isNext rfl
  | pwrCmdReset => exact completes_host (by rfl)
  | pwrCmdDormant => exact completes_host (by rfl)
  | dormantWake => exact completes_of_isNext rfl
  | retOff => exact completes_host (by rfl)
  | linkDown => exact completes_of_isNext rfl
  | linkUp => exact completes_of_isNext rfl
  | masterOff => exact completes_of_isNext rfl
  | powerState => exact completes_of_isNext rfl
  | vector0Timeout => exact completes_of_isNext rfl
  | msixUnmask => exact completes_host (by rfl)
  | irqTest => exact completes_host (by rfl)
  | pairDemandEnd => exact completes_of_isNext rfl
  | supplyOutOfRange => exact completes_of_isNext rfl
  | checkpointSent => exact completes_of_isNext rfl
  | latchingRead => exact completes_reader (by rfl)
  | jtagInstruction => exact completes_of_isNext rfl
  | jtagPortReset => exact completes_of_isNext rfl

/-- Every host write goes through `byHost`, which leaves the state as it is where the host does not reach the device
(R462, R466, R473). -/
theorem exec_deaf {c : Instr} {s : State} (h : s.deaf = true) (hc : hostWrite c = true) : exec c s = .next s := by
  cases c with
  | fenceNamed => exact if_pos h
  | fenceNext => exact if_pos h
  | stagedWrite => exact if_pos h
  | stageDiscard => exact if_pos h
  | statReset => exact if_pos h
  | pin => exact if_pos h
  | pinRelease => exact if_pos h
  | extendedPointWrite => exact if_pos h
  | evqTailWrite => exact if_pos h
  | evqConfigWrite => exact if_pos h
  | registerWrite => exact if_pos h
  | drArm => exact if_pos h
  | drTrigger => exact if_pos h
  | drDmaStart => exact if_pos h
  | retireGo => exact if_pos h
  | identRequest => exact if_pos h
  | relock => exact if_pos h
  | rxDisable => exact if_pos h
  | eqWrite => exact if_pos h
  | eyeScanStart => exact if_pos h
  | drvCommit => exact if_pos h
  | drvModeWrite => exact if_pos h
  | drvStaticWrite => exact if_pos h
  | hostRelease => exact if_pos h
  | tripOutClear => exact if_pos h
  | prioBlockClear => exact if_pos h
  | hostCondition => exact if_pos h
  | rampHaltRequest => exact if_pos h
  | ordInCfgWrite => exact if_pos h
  | tableDataWrite write =>
    cases write with
    | true => exact if_pos h
    | false => cases hc
  | regTrigger core source =>
    cases source with
    | host => exact if_pos h
    | _ => cases hc
  | injRequest core entry source =>
    cases source with
    | host => exact if_pos h
    | _ => cases hc
  | syscalStep => exact if_pos h
  | rateWrite => exact if_pos h
  | delayAccept => exact if_pos h
  | laneReacquire => exact if_pos h
  | mpdAccept => exact if_pos h
  | qualFreeRun => exact if_pos h
  | qualLocked => exact if_pos h
  | qualHoldover => exact if_pos h
  | qualClear => exact if_pos h
  | timSnap => exact if_pos h
  | alarmArm => exact if_pos h
  | redCmdStandby => exact if_pos h
  | redCmdActivate => exact if_pos h
  | redCmdHandover => exact if_pos h
  | redCmdAbort => exact if_pos h
  | safUnlock => exact if_pos h
  | safCmdStop => exact if_pos h
  | safCmdBlock => exact if_pos h
  | safCmdRelease => exact if_pos h
  | safCmdClear => exact if_pos h
  | safCmdTestNow => exact if_pos h
  | load => exact if_pos h
  | verify => exact if_pos h
  | lrStage => exact if_pos h
  | lrArm => exact if_pos h
  | lrCancel => exact if_pos h
  | lrDiscard => exact if_pos h
  | keyProgram => exact if_pos h
  | keyRevoke => exact if_pos h
  | keyDataWrite => exact if_pos h
  | flashReadPage => exact if_pos h
  | flashProgramPage => exact if_pos h
  | flashEraseSector => exact if_pos h
  | flashDataAccess write =>
    cases write with
    | true => exact if_pos h
    | false => cases hc
  | domainRequest => exact if_pos h
  | pwrCmdReset => exact if_pos h
  | pwrCmdDormant => exact if_pos h
  | retOff => exact if_pos h
  | msixUnmask => exact if_pos h
  | irqTest => exact if_pos h
  | _ => cases hc

/-! ### What a step is -/

/-- A step is a core cycle, or the command at the front of the queue with the queue's rest. -/
theorem step_cases {s t : State} (h : step s = .next t) :
    (s.pending = [] ∧ t = s.tick) ∨ ∃ c rest, s.pending = c :: rest ∧ exec c { s with pending := rest } = .next t := by
  unfold step at h
  split at h
  case h_1 hp =>
    cases h
    exact .inl ⟨hp, rfl⟩
  case h_2 c rest hp => exact .inr ⟨c, rest, hp, h⟩

/-- The queue has no part in what makes a state sound. -/
theorem sound_pending {s : State} {l : List Instr} (h : Sound s) : Sound { s with pending := l } :=
  ⟨h.regs, h.points, h.memory, h.staging, h.events, h.arms, h.cells, h.lanes, h.units, h.drv, h.eth, h.conds, h.fabric, h.orders,
    h.measure, h.safety, h.keys, h.vectors, h.arbiter⟩

/-! ### Key slots (R432, R434) -/

/-- A write that names a slot changes the configuration as the slot's command does, or not at all (R30). -/
theorem State.onSlot_keys (s : State) (slot : Fin 8) (f : State → State) :
    (s.onSlot slot f).cfg.keys = s.cfg.keys ∨ (s.onSlot slot f).cfg.keys = (f (s.wr Reg.CFG_KEY_CTRL.slot 0 slot)).cfg.keys := by
  unfold State.onSlot
  split
  · exact .inl (congrArg Cfg.keys (s.rejectWrite_cfg _))
  · exact .inr rfl

/-- KEY_PROGRAM leaves the slots, or gives a hash to one that has none. -/
theorem exec_keyProgram_keys {s t : State} {slot : Fin 8} (h : exec (.keyProgram slot) s = .next t) :
    t.cfg.keys = s.cfg.keys ∨ (s.keySlot slot).hash.isSome = false
      ∧ ∃ x, t.cfg.keys = tabSet KeySlot.blank s.cfg.keys slot { s.keySlot slot with hash := some x } := by
  change execKeyProgram slot s = .next t at h
  unfold execKeyProgram byHost at h
  split at h
  · cases h; exact .inl rfl
  · cases h
    rcases s.onSlot_keys slot _ with hk | hk
    · exact .inl hk
    · rw [hk]
      dsimp only
      split
      · exact .inl rfl
      · rename_i hnone
        split
        · exact .inl rfl
        · rw [State.raise_cfg]
          exact .inr ⟨Bool.eq_false_iff.mpr hnone, _, rfl⟩

/-- KEY_REVOKE leaves the slots, or revokes one. -/
theorem exec_keyRevoke_keys {s t : State} {slot : Fin 8} (h : exec (.keyRevoke slot) s = .next t) :
    t.cfg.keys = s.cfg.keys
      ∨ t.cfg.keys = tabSet KeySlot.blank s.cfg.keys slot { s.keySlot slot with revoked := true } := by
  change execKeyRevoke slot s = .next t at h
  unfold execKeyRevoke byHost at h
  split at h
  · cases h; exact .inl rfl
  · cases h
    rcases s.onSlot_keys slot _ with hk | hk
    · exact .inl hk
    · rw [hk]
      refine iteInduction (motive := fun u : State => u.cfg.keys = s.cfg.keys ∨ u.cfg.keys
        = tabSet KeySlot.blank s.cfg.keys slot { s.keySlot slot with revoked := true }) (fun _ => .inr ?_) (fun _ => .inl rfl)
      refine iteInduction (motive := fun u : State => u.cfg.keys
        = tabSet KeySlot.blank s.cfg.keys slot { s.keySlot slot with revoked := true }) (fun _ => rfl) (fun _ => ?_)
      rw [State.raise_cfg]
      rfl

/-- A slot as a fuse: a hash stays and a revocation stays. -/
def KeySlot.Fused (k k' : KeySlot) : Prop := (k.hash.isSome = true → k'.hash = k.hash) ∧ (k.revoked = true → k'.revoked = true)

theorem KeySlot.fused_refl (k : KeySlot) : KeySlot.Fused k k := ⟨fun _ => rfl, id⟩

/-- A change of one slot that keeps it as a fuse keeps every slot as one. -/
theorem keySlot_fused_of_set {s t : State} {slot : Nat} {k : KeySlot} (hw : tabWf KeySlot.blank s.cfg.keys = true)
    (ht : t.cfg.keys = tabSet KeySlot.blank s.cfg.keys slot k) (hk : KeySlot.Fused (s.keySlot slot) k) (n : Nat) :
    KeySlot.Fused (s.keySlot n) (t.keySlot n) := by
  have hread : t.keySlot n = if n = slot then k else s.keySlot n := by
    unfold State.keySlot
    rw [ht, tabGet_tabSet hw]
  rw [hread]
  split
  · rename_i hn
    rw [hn]
    exact hk
  · exact KeySlot.fused_refl _

theorem keySlot_fused_of_eq {s t : State} (ht : t.cfg.keys = s.cfg.keys) (n : Nat) : KeySlot.Fused (s.keySlot n) (t.keySlot n) := by
  have hread : t.keySlot n = s.keySlot n := congrArg (tabGet KeySlot.blank · n) ht
  rw [hread]
  exact KeySlot.fused_refl _

/-- A command other than KEY_PROGRAM and KEY_REVOKE leaves the key slots. -/
theorem exec_keys {c : Instr} {s t : State} (h : exec c s = .next t) (hp : ∀ n, c ≠ .keyProgram n) (hr : ∀ n, c ≠ .keyRevoke n) :
    t.cfg.keys = s.cfg.keys := by
  refine (exec_keeps c s t h).keys.get ?_
  have hdone : Nat.testBit 0x3dfffffff 29 = false := by decide
  have hrest : Nat.testBit 0x39fffffff 29 = false := by decide
  cases c with
  | keyProgram n => exact absurd rfl (hp n)
  | keyRevoke n => exact absurd rfl (hr n)
  | flashCommandDone => exact hdone
  | _ => exact hrest

/-- Whatever command runs, every slot stays a fuse. -/
theorem exec_fused {c : Instr} {s t : State} (hs : Sound s) (h : exec c s = .next t) (n : Nat) :
    KeySlot.Fused (s.keySlot n) (t.keySlot n) := by
  by_cases hp : ∃ m, c = .keyProgram m
  · obtain ⟨m, rfl⟩ := hp
    rcases exec_keyProgram_keys h with hk | ⟨hnone, x, hk⟩
    · exact keySlot_fused_of_eq hk n
    · exact keySlot_fused_of_set hs.keys hk ⟨fun hsome => absurd hsome (by simp [hnone]), id⟩ n
  by_cases hr : ∃ m, c = .keyRevoke m
  · obtain ⟨m, rfl⟩ := hr
    rcases exec_keyRevoke_keys h with hk | hk
    · exact keySlot_fused_of_eq hk n
    · exact keySlot_fused_of_set hs.keys hk ⟨fun _ => rfl, fun _ => rfl⟩ n
  · exact keySlot_fused_of_eq (exec_keys h (fun m e => hp ⟨m, e⟩) (fun m e => hr ⟨m, e⟩)) n

theorem State.tick_keys (s : State) : s.tick.cfg.keys = s.cfg.keys :=
  (State.tick_keeps (M := 0x200d415b6) (by decide) (.refl s)).keys.get (by decide)

/-- A command other than FLASH_COMMAND_DONE leaves the flash contents. -/
theorem exec_flash {c : Instr} {s t : State} (h : exec c s = .next t) (hd : ∀ ok, c ≠ .flashCommandDone ok) :
    t.cfg.flash = s.cfg.flash := by
  refine (exec_keeps c s t h).flash.get ?_
  have hkey : Nat.testBit 0x3bfffffff 30 = false := by decide
  have hrest : Nat.testBit 0x39fffffff 30 = false := by decide
  cases c with
  | keyProgram => exact hkey
  | keyRevoke => exact hkey
  | flashCommandDone ok => exact absurd rfl (hd ok)
  | _ => exact hrest

end Sys2Proof.Machine

namespace Sys2Proof.Proofs

open Sys2Proof Sys2Proof.Machine Sys2Proof.Safety

/-- Settles O1: `step` is defined by the front of the queue. -/
theorem stepRunsFront : Obligations.StepRunsFront := fun _ _ _ => rfl

/-- Settles O3: every store is empty but the register store, which lists one field. -/
theorem resetIsSound : Obligations.ResetIsSound := by
  constructor <;> decide

/-- Settles O4: a core cycle and every command keep a sound state sound. -/
theorem stepKeepsSound : Obligations.StepKeepsSound := by
  intro s t hs h
  rcases step_cases h with ⟨_, rfl⟩ | ⟨c, rest, _, hexec⟩
  · exact (State.tick_keeps (M := 0x200d415b6) (by decide) (.refl s)).sound hs
  · exact (exec_keeps c _ t hexec).sound (sound_pending hs)

/-- Settles O5: `exec_completes` for the next state, `exec_keeps` for what it keeps. -/
theorem everyCommandCompletes : Obligations.EveryCommandCompletes := by
  intro c s hc
  obtain ⟨t, ht⟩ := exec_completes s hc
  have hkeeps := exec_keeps c s t ht
  exact ⟨t, ht, hkeeps.pending, hkeeps.serial, hkeeps.wire⟩

/-- Settles O6: KEY_PROGRAM writes a slot without a hash, KEY_REVOKE sets a bit, and nothing else touches the slots. -/
theorem keySlotsAreFuses : Obligations.KeySlotsAreFuses := by
  intro s t hs h
  rcases step_cases h with ⟨_, rfl⟩ | ⟨c, rest, hp, hexec⟩
  · exact ⟨keySlot_fused_of_eq s.tick_keys, fun _ => s.tick_keys⟩
  · have hfused := exec_fused (sound_pending hs) hexec
    refine ⟨hfused, fun hfront => ?_⟩
    have hkeys := exec_keys hexec (fun n hn => (hfront n).1 (by rw [hp, hn]; rfl)) (fun n hn => (hfront n).2 (by rw [hp, hn]; rfl))
    exact hkeys

/-- Settles O7: no other command and no core cycle writes the flash contents. -/
theorem flashChangesAtDone : Obligations.FlashChangesAtDone := by
  intro s t h hfront
  rcases step_cases h with ⟨_, rfl⟩ | ⟨c, rest, hp, hexec⟩
  · exact (State.tick_keeps (M := 0x200d415b6) (by decide) (.refl s)).flash.get (by decide)
  · have hflash := exec_flash hexec (fun ok hok => hfront ok (by rw [hp, hok]; rfl))
    exact hflash

/-- Settles O8: every host write goes through `byHost`. -/
theorem deafHostWritesDoNothing : Obligations.DeafHostWritesDoNothing := fun _ _ h hc => exec_deaf h hc

end Sys2Proof.Proofs

/-! ## Register frames

`Wrote l s t` says of the registers what `Only` says of the parts: on the way from `s` to `t` the register store stays canonical and no field
outside `l` changes. One rule per operation builds it along a chain of operations; `Wrote.rd` reads a field that the chain leaves alone. -/

namespace Sys2Proof.Machine

open Sys2Proof.Safety

/-! ### Fields apart -/

/-- The place of a field in the register map, without the unit. -/
abbrev Field.place (f : Field) : Nat := f.addr * 32 + f.lo

/-- The field lies apart from every field of the list, and the units of both are units of the map. -/
structure Apart (f : Field) (i : Nat) (l : List (Field × Nat)) : Prop where
  place : l.all (fun p => p.1.place != f.place) = true
  unit : i < 8192
  units : ∀ p ∈ l, p.2 < 8192

theorem Apart.notMem {f : Field} {i : Nat} {l : List (Field × Nat)} (h : Apart f i l) :
    regKey f i ∉ l.map (fun p => regKey p.1 p.2) := by
  intro hm
  obtain ⟨p, hp, hk⟩ := List.mem_map.mp hm
  have hplace : p.1.place ≠ f.place := bne_iff_ne.mp (List.all_eq_true.mp h.place p hp)
  exact regKey_ne (f := f) (g := p.1) h.unit (h.units p hp) hplace hk

/-- A write of one field of a unit leaves the unit's other fields. -/
theorem State.rd_wr_off {s : State} (f : Field) (i v : Nat) (g : Field) (h : tabWf 0 s.regs = true) (hk : f.place ≠ g.place) :
    (s.wr f i v).rd g i = s.rd g i := by
  refine State.rd_wr_ne f i v g i h ?_
  unfold Field.place at hk
  unfold regKey
  omega

/-- A write of one field leaves the other fields of every unit. -/
theorem State.rd_wr_far {s : State} (f : Field) (i v : Nat) (g : Field) (j : Nat) (h : tabWf 0 s.regs = true)
    (hk : f.place ≠ g.place) (hi : i < 8192) (hj : j < 8192) : (s.wr f i v).rd g j = s.rd g j :=
  State.rd_wr_ne f i v g j h (regKey_ne hi hj (Ne.symm hk))

/-- A write of one unit leaves the field of the others. -/
theorem State.rd_wr_unit {s : State} (f : Field) (i v j : Nat) (h : tabWf 0 s.regs = true) (hij : j ≠ i) :
    (s.wr f i v).rd f j = s.rd f j :=
  State.rd_wr_ne f i v f j h (regKey_unit hij)

/-! ### Frames along a chain of operations -/

/-- From `s` to `t` the register store stays canonical and only the fields of `l` change. -/
structure Wrote (l : List (Field × Nat)) (s t : State) : Prop where
  wf : tabWf 0 t.regs = true
  but : RegsBut l s t

namespace Wrote

variable {l m : List (Field × Nat)} {s t u : State}

theorem refl (hw : tabWf 0 s.regs = true) : Wrote l s s := ⟨hw, regsBut_refl l s⟩

theorem trans (h : Wrote l s t) (h' : Wrote l t u) : Wrote l s u := ⟨h'.wf, regsBut_trans h.but h'.but⟩

theorem mono (h : Wrote l s t) (hl : ∀ p ∈ l, p ∈ m) : Wrote m s t := ⟨h.wf, regsBut_mono hl h.but⟩

/-- A change of other parts. -/
theorem same (h : Wrote l s t) (hu : u.regs = t.regs) : Wrote l s u :=
  ⟨by rw [hu]; exact h.wf, regsBut_trans h.but (regsBut_of_regs hu)⟩

theorem wr (h : Wrote l s t) {f : Field} {i : Nat} (v : Nat) (hl : (f, i) ∈ l) : Wrote l s (t.wr f i v) :=
  ⟨State.regs_wr f i v h.wf, regsBut_wr h.wf hl h.but⟩

theorem add (h : Wrote l s t) {f : Field} {i : Nat} (n : Nat) (hl : (f, i) ∈ l) : Wrote l s (t.add f i n) := h.wr _ hl

theorem count (h : Wrote l s t) {f : Field} {i : Nat} (hl : (f, i) ∈ l) : Wrote l s (t.count f i) := h.wr _ hl

theorem setBit (h : Wrote l s t) {f : Field} {i : Nat} (b : Nat) (v : Bool) (hl : (f, i) ∈ l) : Wrote l s (t.setBit f i b v) := h.wr _ hl

theorem wrPair (h : Wrote l s t) {lo hi : Field} {i : Nat} (v : Nat) (hlo : (lo, i) ∈ l) (hhi : (hi, i) ∈ l) :
    Wrote l s (t.wrPair lo hi i v) := (h.wr _ hlo).wr _ hhi

theorem raise (h : Wrote l s t) (code inst data : Nat) (hl : ∀ p ∈ eventRegs, p ∈ l) : Wrote l s (t.raise code inst data) :=
  ⟨State.regs_raise code inst data h.wf, regsBut_raised h.wf hl h.but⟩

theorem mirrorOf (h : Wrote l s t) (r : State) : Wrote l s (r.mirrorOf t) :=
  h.same (r.mirrorOf_regs t)

/-- A field apart from those written reads as before. -/
theorem rd (h : Wrote l s t) {f : Field} {i : Nat} (hf : Apart f i l) : t.rd f i = s.rd f i := h.but f i hf.notMem

theorem ite {c : Prop} [Decidable c] (ht : Wrote l s t) (hu : Wrote l s u) : Wrote l s (if c then t else u) := by
  split <;> assumption

end Wrote

/-! ### Events of one core cycle -/

/-- The mask of event codes is apart from what an event writes. -/
theorem State.bitAt_evMask {s t : State} (h : t.rd Reg.EPO_EV_MASK.range_en 0 = s.rd Reg.EPO_EV_MASK.range_en 0) (b : Nat) :
    t.bitAt Reg.EPO_EV_MASK.range_en 0 b = s.bitAt Reg.EPO_EV_MASK.range_en 0 b := by
  unfold State.bitAt
  rw [h]

/-- What an event of any epoch and time does to the event queue (R44, R45). -/
theorem State.raiseIn_evq {s : State} (h : tabWf 0 s.regs = true) {code : Nat} (hc : code ≠ 0x010) (inst extra epoch time data : Nat) :
    (s.raiseIn code inst extra epoch time data).evq =
      if s.bitAt Reg.EPO_EV_MASK.range_en 0 (code / 256) then
        if s.evq.buf.length < 1024 then
          { s.evq with buf := s.evq.buf ++ [⟨code, inst, eventFlags code extra, epoch, time, data % 2 ^ 64⟩] }
        else { s.evq with dropped := s.evq.dropped + 1 }
      else s.evq := by
  have hqueue : ∀ (u : State) (e : Event), u.evq = s.evq →
      (u.queueEvent e).evq = if s.evq.buf.length < 1024 then { s.evq with buf := s.evq.buf ++ [e] }
        else { s.evq with dropped := s.evq.dropped + 1 } := by
    intro u e hu
    unfold State.queueEvent
    rw [hu]
    split
    · rfl
    · rfl
  unfold State.raiseIn
  simp only [hc, false_and, false_or, if_false]
  cases eventVector code with
  | none =>
    dsimp only
    split
    · exact hqueue s _ rfl
    · rfl
  | some v =>
    dsimp only
    rw [State.bitAt_evMask (regsBut_signal v h _ _ (by decide))]
    split
    · exact hqueue _ _ (State.signal_evq s v)
    · exact State.signal_evq s v

theorem Wrote.queueEvent {l : List (Field × Nat)} {s t : State} (h : Wrote l s t) (e : Event) (hl : ∀ p ∈ eventRegs, p ∈ l) :
    Wrote l s (t.queueEvent e) := by
  refine ⟨?_, regsBut_trans h.but (regsBut_mono hl (regsBut_queueEvent e h.wf))⟩
  unfold State.queueEvent
  split
  · exact h.wf
  · exact State.regs_count _ _ h.wf

theorem Wrote.signal {l : List (Field × Nat)} {s t : State} (h : Wrote l s t) (v : Nat) (hl : ∀ p ∈ eventRegs, p ∈ l) :
    Wrote l s (t.signal v) :=
  ⟨State.regs_signal v h.wf, regsBut_trans h.but (regsBut_mono hl (regsBut_signal v h.wf))⟩

theorem Wrote.raiseIn {l : List (Field × Nat)} {s t : State} (h : Wrote l s t) (code inst extra epoch time data : Nat)
    (hl : ∀ p ∈ eventRegs, p ∈ l) : Wrote l s (t.raiseIn code inst extra epoch time data) := by
  have hmarker : ∀ u, Wrote l s u → ∀ (c : Prop) [Decidable c], Wrote l s (if c then u.signal 2 else u) :=
    fun u hu c _ => .ite (hu.signal 2 hl) hu
  unfold State.raiseIn
  cases eventVector code with
  | none => exact .ite ((hmarker t h _).queueEvent _ hl) (hmarker t h _)
  | some v => exact .ite ((hmarker _ (h.signal v hl) _).queueEvent _ hl) (hmarker _ (h.signal v hl) _)

theorem Wrote.raiseAt {l : List (Field × Nat)} {s t : State} (h : Wrote l s t) (code inst extra time data : Nat)
    (hl : ∀ p ∈ eventRegs, p ∈ l) : Wrote l s (t.raiseAt code inst extra time data) := h.raiseIn _ _ _ _ _ _ hl

/-- An event after other changes, where queue, epoch, clock and mask are still those that the command found. -/
theorem Wrote.reports {l : List (Field × Nat)} {s t : State} (h : Wrote l s t) {code : Nat} (inst data : Nat) (hc : code ≠ 0x010)
    (hl : Apart Reg.EPO_EV_MASK.range_en 0 l) (he : t.evq = s.evq) (hk : t.epo.k = s.epo.k) (ht : t.clk = s.clk) :
    Reports s (t.raise code inst data) code inst data :=
  reports_raise hc h.wf he hk ht (h.rd hl)

end Sys2Proof.Machine

/-! ## Fences that are accepted, and the staging area (R29 to R36, R50)

The effect of `acceptFence` is said once; both fence commands come to it. A staged write of points is one list of staging entries. -/

namespace Sys2Proof.Machine

open Sys2Proof.Safety

/-! ### An accepted fence (R36) -/

/-- None of the conditions of Table 1.1 on the state itself holds. -/
structure State.FenceOpen (s : State) : Prop where
  room : s.epo.fences.length < 4
  overflow : s.rd Reg.EPO_STAGE_STAT.overflow 0 = 0
  capacity : s.capacityBroken = false

/-- FENCE_NAMED meets Table 1.1 with a target that meets the lead and lies in its range. -/
theorem State.fenceStatus_named {s : State} {target : Nat} (h : s.FenceOpen) (hmeets : s.targetMeets target = true)
    (hlow : s.lastTarget ≤ target) (hhigh : target ≤ s.epo.k + 2 ^ 24) : s.fenceStatus true target = 0 := by
  have hflag : s.flag Reg.EPO_STAGE_STAT.overflow 0 = false := by unfold State.flag; rw [h.overflow]; rfl
  unfold State.fenceStatus
  rw [if_neg (by simp [hmeets]), if_neg (Nat.not_le.mpr h.room), if_neg (by simpa using hlow), if_neg (by simpa using hhigh),
    if_neg (by simp [hflag]), if_neg (by simp [h.capacity])]

theorem State.fenceStatus_next {s : State} (h : s.FenceOpen) : s.fenceStatus false 0 = 0 := by
  have hflag : s.flag Reg.EPO_STAGE_STAT.overflow 0 = false := by unfold State.flag; rw [h.overflow]; rfl
  unfold State.fenceStatus
  simp [Nat.not_le.mpr h.room, hflag, h.capacity]

/-- The search finds the first candidate that meets the lead. -/
theorem State.firstTarget_eq {s : State} {j : Nat} : ∀ (n first : Nat), first ≤ j → j < first + n → s.targetMeets j = true →
    (∀ i, first ≤ i → i < j → s.targetMeets i = false) → s.firstTarget n first = some j := by
  intro n
  induction n with
  | zero => intro first hle hlt; omega
  | succ n ih =>
    intro first hle hlt hmeets hbefore
    unfold State.firstTarget
    rcases Nat.eq_or_lt_of_le hle with heq | hlater
    · rw [heq, if_pos hmeets]
    · rw [if_neg (by simp [hbefore first (Nat.le_refl _) hlater])]
      exact ih (first + 1) hlater (by omega) hmeets fun i hi => hbefore i (by omega)

/-- All that an accepted fence does (R34, R36). -/
theorem State.acceptFence_effect {s : State} (target : Nat) (hw : tabWf 0 s.regs = true) (hroom : s.epo.fences.length < 4) :
    let id := (s.rd Reg.EPO_FENCE_STAT.last_id 0 + 1) % 256
    let t := s.acceptFence target
    t.epo.fences = s.epo.fences ++ [⟨id, target, s.epo.opened⟩] ∧ t.epo.opened = [] ∧ t.epo.k = s.epo.k ∧ t.epo.pin = s.epo.pin
      ∧ t.rd Reg.EPO_FENCE_STAT.status 0 = 0 ∧ t.rd Reg.EPO_FENCE_STAT.last_id 0 = id
      ∧ Only [.regs, .epo] s t ∧ RegsBut [(Reg.EPO_FENCE_STAT.status, 0), (Reg.EPO_FENCE_STAT.last_id, 0)] s t := by
  intro id t
  have hclosed : ∀ e : Epo, Wrote [] s { s with epo := e } := fun e => (Wrote.refl hw).same rfl
  have hstatus := fun e => ((hclosed e).mono (m := [(Reg.EPO_FENCE_STAT.status, 0), (Reg.EPO_FENCE_STAT.last_id, 0)])
    (fun _ hp => absurd hp List.not_mem_nil)).wr (f := Reg.EPO_FENCE_STAT.status) (i := 0) 0 (by simp)
  refine ⟨rfl, rfl, rfl, rfl, ?status, ?lastId, ?only, ?regs⟩
  case status =>
    exact (State.rd_wr_off Reg.EPO_FENCE_STAT.last_id 0 id _ (hstatus _).wf (by decide)).trans (State.rd_wr_self _ _ _ hw)
  case lastId => exact (State.rd_wr_self _ _ _ (hstatus _).wf).trans (Nat.mod_eq_of_lt (Nat.mod_lt _ (by decide)))
  case only => exact (State.acceptFence_keeps (M := 0x50) (by decide) (.refl s) hroom).only (by decide)
  case regs => exact ((hstatus _).wr _ (by simp)).but

/-! ### The staging area (R29 to R32) -/

/-- Whole aligned points with every byte enable, within the largest payload, are a point write (R30). -/
theorem pointWriteShaped_whole {addr n : Nat} (haligned : addr % 8 = 0) (hpos : 1 ≤ n) (hmax : 8 * n ≤ Config.maxPayload) :
    pointWriteShaped addr (8 * n) true = true := by
  have hmin : 8 ≤ 8 * n := by omega
  simp [pointWriteShaped, haligned, hmin, hmax]

/-- A run of station points is the points from its address on. -/
theorem pointRun_station : ∀ (n a : Nat), a + n ≤ 0x10000 →
    pointRun (0x100000 + 8 * a) n = some ((List.range' a n).map .station) := by
  intro n
  induction n with
  | zero => intro a _; rfl
  | succ n ih =>
    intro a h
    have hat : pointAt (0x100000 + 8 * a) = some (.station a) := by
      unfold pointAt
      rw [if_pos (by omega)]
      congr 2
      omega
    have hnext : 0x100000 + 8 * a + 8 = 0x100000 + 8 * (a + 1) := by omega
    unfold pointRun
    rw [hat, hnext, ih (a + 1) (by omega)]
    rfl

/-- What holds of each station address of a run holds of all points of the run. -/
theorem all_range'_station {a n : Nat} {ok : Nat → Bool} (h : ∀ i, i < n → ok (a + i) = true) :
    ((List.range' a n).map PointKey.station).all (fun p => match p with | .station b => ok b | .cell _ _ => false) = true := by
  rw [List.all_map, List.all_eq_true]
  intro b hb
  obtain ⟨hle, hlt⟩ := List.mem_range'_1.mp hb
  obtain ⟨i, rfl⟩ := Nat.exists_eq_add_of_le hle
  exact h i (by omega)

/-- The staging entry of a value for a point; a cell point has none. -/
def stagedEntry (x : PointKey × Nat) : Option Entry :=
  match x.1 with
  | .station a => some (Entry.point a (x.2 % 2 ^ 64))
  | .cell _ _ => none

/-- The staging entries of a run of station points, in ascending address order. -/
theorem stagedEntries_station (vals : List Nat) (a : Nat) :
    (((List.range' a vals.length).map PointKey.station).zip vals).filterMap stagedEntry
      = vals.zipIdx.map (fun x => .point (a + x.2) (x.1 % 2 ^ 64)) := by
  suffices h : ∀ i : Nat, (((List.range' (a + i) vals.length).map PointKey.station).zip vals).filterMap stagedEntry
      = (vals.zipIdx i).map (fun x => .point (a + x.2) (x.1 % 2 ^ 64)) from h 0
  induction vals with
  | nil => intros; rfl
  | cons v vs ih =>
    intro i
    simp only [List.length_cons, List.range'_succ, List.map_cons, List.zip_cons_cons, List.zipIdx_cons]
    rw [← ih (i + 1)]
    rfl

/-- A staged write of host-writable station points with room for all of them (R29, R30, R32). -/
theorem State.stagePoints_station {s : State} {a n : Nat} {vals : List Nat} (hin : a + n ≤ 0x10000) (hpos : 1 ≤ n)
    (hmax : 8 * n ≤ Config.maxPayload) (hlen : vals.length = n) (hhost : ∀ i, i < n → s.bs.hostPoints.contains (a + i) = true)
    (hroom : s.stagedCount + n ≤ 8192) :
    s.stagePoints (0x100000 + 8 * a) (8 * n) true vals
      = { s with epo := { s.epo with opened := s.epo.opened ++ vals.zipIdx.map (fun x => .point (a + x.2) (x.1 % 2 ^ 64)) } } := by
  have hshape : pointWriteShaped (0x100000 + 8 * a) (8 * n) true = true := pointWriteShaped_whole (by omega) hpos hmax
  subst hlen
  unfold State.stagePoints
  rw [hshape, if_neg (by decide), Nat.mul_div_cancel_left _ (by decide), pointRun_station _ a hin]
  dsimp only
  refine (if_pos (all_range'_station hhost)).trans ?_
  refine (congrArg (s.stage _) (stagedEntries_station vals a)).trans ?_
  unfold State.stage
  exact if_pos (by simpa using hroom)

theorem exec_stagedWrite_points {s : State} (addr len : Nat) (allEnabled : Bool) (vals : List Nat) (hup : HostUp s) :
    exec (.stagedWrite (.points addr len allEnabled vals)) s = .next (s.stagePoints addr len allEnabled vals) :=
  exec_of_byHost (f := fun s => .next (match StagedWrite.points addr len allEnabled vals with
    | .register addr value => s.mirrorOf (s.hostWrite addr 4 15 value 0)
    | .points addr len allEnabled vals => s.stagePoints addr len allEnabled vals)) rfl hup

theorem exec_stageDiscard {s : State} (hup : HostUp s) : exec .stageDiscard s = .next s.discardOpen :=
  exec_of_byHost (f := fun s => .next s.discardOpen) rfl hup

theorem exec_statReset {s : State} (hup : HostUp s) :
    exec .statReset s = .next { s with epo := { s.epo with statReset := true } } :=
  exec_of_byHost (f := fun s => .next { s with epo := { s.epo with statReset := true } }) rfl hup

/-- A change of the epoch part alone. -/
theorem only_epo (s : State) (e : Epo) : Only [.epo] s { s with epo := e } := by
  intro p hp
  cases p with
  | epo => exact absurd (by decide) hp
  | _ => rfl

end Sys2Proof.Machine

namespace Sys2Proof.Proofs

open Sys2Proof Sys2Proof.Machine Sys2Proof.Safety

/-- Settles O11: both commands come to `acceptFence`, FENCE_NEXT with the first candidate that meets the lead. -/
theorem fencesClose : Obligations.FencesClose := by
  refine ⟨fun s hs hup => ?named, fun s j hs hup => ?next⟩
  case named =>
    intro target id hmeets hroom hlow hhigh hover hcap
    have hst : s.fenceStatus true target = 0 := State.fenceStatus_named ⟨hroom, hover, hcap⟩ hmeets hlow hhigh
    have hnamed : s.fenceNamed = s.acceptFence target := if_pos hst
    exact ⟨_, exec_fenceNamed hup, hnamed ▸ State.acceptFence_effect target hs.regs hroom⟩
  case next =>
    intro first id hle hlt hmeets hbefore hroom hover hcap
    have hnext : s.fenceNext = s.acceptFence j := by
      unfold State.fenceNext
      refine (if_neg (not_not.mpr (State.fenceStatus_next ⟨hroom, hover, hcap⟩))).trans ?_
      rw [State.firstTarget_eq 16 first hle hlt hmeets hbefore]
    exact ⟨_, exec_fenceNext hup, hnext ▸ State.acceptFence_effect j hs.regs hroom⟩

/-- Settles O13: what is staged is `stagePoints_station`; the other two commands are one update each. -/
theorem stagingArea : Obligations.StagingArea := by
  refine ⟨fun s a n vals hup hin hpos hmax hlen hhost hroom => ?points, fun s hs hup => ⟨?discard, ?reset⟩⟩
  case points =>
    refine ⟨_, (exec_stagedWrite_points _ _ _ _ hup).trans (congrArg _ (State.stagePoints_station hin hpos hmax hlen hhost hroom)), ?_⟩
    exact ⟨rfl, rfl, rfl, rfl, only_epo s _⟩
  case discard =>
    refine ⟨_, exec_stageDiscard hup, rfl, rfl, rfl, State.rd_wr_self _ _ _ hs.regs, ?only, ?regs⟩
    case only => exact (State.discardOpen_keeps (M := 0x50) (by decide) (.refl s)).only (by decide)
    case regs => exact (((Wrote.refl hs.regs).wr 0 List.mem_cons_self).same rfl).but
  case reset => exact ⟨_, exec_statReset hup, rfl, rfl, rfl, only_epo s _⟩

end Sys2Proof.Proofs

/-! ## Words with wrong bits: the scrubber and corrected words (R58 to R62) -/

namespace Sys2Proof.Machine

open Sys2Proof.Safety

/-- An event after changes that leave queue, epoch, clock and mask alone. -/
theorem reports_of {r s t : State} {code inst data : Nat} (h : Reports s t code inst data) (he : s.evq = r.evq)
    (hk : s.epo.k = r.epo.k) (ht : s.clk = r.clk) (hm : s.rd Reg.EPO_EV_MASK.range_en 0 = r.rd Reg.EPO_EV_MASK.range_en 0) :
    Reports r t code inst data := by
  unfold Reports at *
  rw [h, he, hk, State.now_of_clk ht, State.bitAt_evMask hm]

/-! ### A word that cannot be corrected (R60) -/

/-- The address of an uncorrectable word is latched while none is (R60). -/
def State.latchUeAddr (s : State) (memory word : Nat) : State :=
  if s.rd Reg.EPO_UE_ADDR.memory 0 = 0xF then
    (s.wr Reg.EPO_UE_ADDR.memory 0 memory).wr Reg.EPO_UE_ADDR.word 0 word
  else s

/-- The register part of an uncorrectable word, before its event. -/
def State.countUe (s : State) (memory word : Nat) : State := (s.count Reg.EPO_UE_CNT.count 0).latchUeAddr memory word

/-- The fields in which an uncorrectable word shows. -/
abbrev ueRegs : List (Field × Nat) := [(Reg.EPO_UE_CNT.count, 0), (Reg.EPO_UE_ADDR.memory, 0), (Reg.EPO_UE_ADDR.word, 0)]

/-- An uncorrectable word as it is counted and reported. -/
def State.reportUe (s : State) (memory word : Nat) : State := (s.countUe memory word).raise 0x021 0 (memory * 2 ^ 28 + word)

theorem State.uncorrectable_regs (s : State) (memory word : Nat) : (s.uncorrectable memory word).regs = (s.reportUe memory word).regs :=
  State.pulseCond_regs (s.reportUe memory word) 242 0

theorem State.uncorrectable_evq (s : State) (memory word : Nat) : (s.uncorrectable memory word).evq = (s.reportUe memory word).evq :=
  State.pulseCond_evq (s.reportUe memory word) 242 0

section Counted

variable {s : State} (memory word : Nat)

theorem State.latchUeAddr_wrote {r : State} (h : Wrote ueRegs r s) : Wrote ueRegs r (s.latchUeAddr memory word) :=
  .ite ((h.wr memory (by simp)).wr word (by simp)) h

theorem State.latchUeAddr_evq : (s.latchUeAddr memory word).evq = s.evq := by unfold State.latchUeAddr; split <;> rfl

theorem State.latchUeAddr_epo : (s.latchUeAddr memory word).epo = s.epo := by unfold State.latchUeAddr; split <;> rfl

theorem State.latchUeAddr_clk : (s.latchUeAddr memory word).clk = s.clk := by unfold State.latchUeAddr; split <;> rfl

section Registers

variable (hw : tabWf 0 s.regs = true)
include hw

theorem State.countUe_wrote : Wrote ueRegs s (s.countUe memory word) :=
  State.latchUeAddr_wrote _ _ ((Wrote.refl hw).count (by simp))

theorem State.uncorrectable_wrote : Wrote (ueRegs ++ eventRegs) s (s.uncorrectable memory word) := by
  exact (((State.countUe_wrote memory word hw).mono (fun _ => List.mem_append_left _)).raise _ _ _
    (fun _ => List.mem_append_right _)).same (s.uncorrectable_regs memory word)

/-- The event of an uncorrectable word, with its address. -/
theorem State.uncorrectable_reports : Reports s (s.uncorrectable memory word) 0x021 0 (memory * 2 ^ 28 + word) := by
  refine reports_then ((State.countUe_wrote memory word hw).reports 0 (memory * 2 ^ 28 + word) (by decide)
    ⟨rfl, by decide, by decide⟩ ?_ ?_ ?_) (s.uncorrectable_evq memory word)
  · exact State.latchUeAddr_evq ..
  · rw [State.countUe, State.latchUeAddr_epo]; rfl
  · exact State.latchUeAddr_clk ..

/-- A field that neither the event nor the condition changes. -/
theorem State.rd_uncorrectable {f : Field} (hf : Apart f 0 eventRegs) :
    (s.uncorrectable memory word).rd f 0 = (s.countUe memory word).rd f 0 := by
  exact (((Wrote.refl (State.countUe_wrote memory word hw).wf).raise _ _ _ (fun _ hp => hp)).same (s.uncorrectable_regs memory word)).rd hf

theorem State.rd_uncorrectable_count :
    (s.uncorrectable memory word).rd Reg.EPO_UE_CNT.count 0 = min (s.rd Reg.EPO_UE_CNT.count 0 + 1) (2 ^ 32 - 1) := by
  have hcount : tabWf 0 (s.count Reg.EPO_UE_CNT.count 0).regs = true := State.regs_count _ _ hw
  have hlatch : ((s.count Reg.EPO_UE_CNT.count 0).latchUeAddr memory word).rd Reg.EPO_UE_CNT.count 0
      = (s.count Reg.EPO_UE_CNT.count 0).rd Reg.EPO_UE_CNT.count 0 := by
    unfold State.latchUeAddr
    split
    · rw [State.rd_wr_off _ _ _ _ (State.regs_wr _ _ _ hcount) (by decide), State.rd_wr_off _ _ _ _ hcount (by decide)]
    · rfl
  rw [State.rd_uncorrectable memory word hw ⟨rfl, by decide, by decide⟩]
  exact hlatch.trans (State.rd_count_self _ _ hw)

/-- The first uncorrectable word leaves its address. -/
theorem State.rd_uncorrectable_latched (hm : memory < 16) (hd : word < 2 ^ 28) (hfree : s.rd Reg.EPO_UE_ADDR.memory 0 = 0xF) :
    (s.uncorrectable memory word).rd Reg.EPO_UE_ADDR.memory 0 = memory
      ∧ (s.uncorrectable memory word).rd Reg.EPO_UE_ADDR.word 0 = word := by
  have hcount : tabWf 0 (s.count Reg.EPO_UE_CNT.count 0).regs = true := State.regs_count _ _ hw
  have hfree' : (s.count Reg.EPO_UE_CNT.count 0).rd Reg.EPO_UE_ADDR.memory 0 = 0xF :=
    (State.rd_wr_off _ _ _ _ hw (by decide)).trans hfree
  rw [State.rd_uncorrectable memory word hw ⟨rfl, by decide, by decide⟩,
    State.rd_uncorrectable memory word hw ⟨rfl, by decide, by decide⟩, State.countUe, State.latchUeAddr, if_pos hfree']
  constructor
  · rw [State.rd_wr_off _ _ _ _ (State.regs_wr _ _ _ hcount) (by decide), State.rd_wr_self _ _ _ hcount]
    exact Nat.mod_eq_of_lt hm
  · rw [State.rd_wr_self _ _ _ (State.regs_wr _ _ _ hcount)]
    exact Nat.mod_eq_of_lt hd

/-- A later one leaves the latched address. -/
theorem State.rd_uncorrectable_kept (hheld : s.rd Reg.EPO_UE_ADDR.memory 0 ≠ 0xF) :
    (s.uncorrectable memory word).rd Reg.EPO_UE_ADDR.memory 0 = s.rd Reg.EPO_UE_ADDR.memory 0
      ∧ (s.uncorrectable memory word).rd Reg.EPO_UE_ADDR.word 0 = s.rd Reg.EPO_UE_ADDR.word 0 := by
  have hheld' : (s.count Reg.EPO_UE_CNT.count 0).rd Reg.EPO_UE_ADDR.memory 0 ≠ 0xF := by
    rwa [State.count, State.add, State.rd_wr_off _ _ _ _ hw (by decide)]
  rw [State.rd_uncorrectable memory word hw ⟨rfl, by decide, by decide⟩,
    State.rd_uncorrectable memory word hw ⟨rfl, by decide, by decide⟩, State.countUe, State.latchUeAddr, if_neg hheld']
  exact ⟨State.rd_wr_off _ _ _ _ hw (by decide), State.rd_wr_off _ _ _ _ hw (by decide)⟩

end Registers

theorem State.uncorrectable_pts : (s.uncorrectable memory word).pts = s.pts := by
  refine (State.pulseCond_pts (s.reportUe memory word) 242 0).trans ?_
  rw [State.reportUe, State.raise_pts]
  unfold State.countUe State.latchUeAddr
  split <;> rfl

end Counted

/-! ### A word of the published image (Table 1.13) -/

/-- The scrubber presents its word to the arbiter (R281). -/
abbrev State.askScrub (s : State) (word : Nat) : State := s.ask 83 none s.clk.count [word % 32]

theorem exec_scrub_off {s : State} (word : Nat) (image : ImageRole) (n : Nat) (h : s.rd Reg.EPO_ECC_CTRL.ps_period 0 = 0) :
    exec (.scrub 0 word image n) s = .next s := by
  have hoff : s.scrubbing 0 = false := by unfold State.scrubbing; rw [if_pos rfl, h]; rfl
  change execScrub 0 word image n s = _
  unfold execScrub
  exact congrArg _ (if_pos (by rw [show ((0 : Fin 3) : Nat) = 0 from rfl, hoff]; rfl))

theorem exec_scrub_on {s : State} (word : Nat) (image : ImageRole) (n : Nat) (h : s.rd Reg.EPO_ECC_CTRL.ps_period 0 ≠ 0) :
    exec (.scrub 0 word image n) s = .next ((s.askScrub word).readWord 0 word image n) := by
  have hon : s.scrubbing 0 = true := by unfold State.scrubbing; rw [if_pos rfl]; exact bne_iff_ne.mpr h
  change execScrub 0 word image n s = _
  unfold execScrub
  refine congrArg _ ((if_neg ?_).trans (if_pos rfl))
  rw [show ((0 : Fin 3) : Nat) = 0 from rfl, hon]
  exact Bool.false_ne_true

/-- Two wrong bits or fewer are corrected and counted (R58, R62). -/
theorem State.readWord_few (s : State) (memory word : Nat) (image : ImageRole) {n : Nat} (hpos : 1 ≤ n) (hn : n ≤ 2) :
    s.readWord memory word image n = s.corrected := by
  unfold State.readWord State.spoilWord State.reportWord
  rw [if_pos hn, if_neg (Nat.ne_of_gt hpos), if_pos hn]

/-- More are uncorrectable, and the word is poisoned (R60). -/
theorem State.readWord_many (s : State) (memory word : Nat) (image : ImageRole) {n : Nat} (hn : 2 < n) :
    s.readWord memory word image n = (s.poisonWord memory word image).uncorrectable memory word := by
  unfold State.readWord State.spoilWord State.reportWord
  rw [if_neg (Nat.not_le.mpr hn), if_neg (by omega), if_neg (Nat.not_le.mpr hn)]

/-- A word of the first physical copy of the station points, as it serves the published image. -/
theorem State.poisonWord_published (s : State) {a : Nat} (ha : a < 0x10000) :
    s.poisonWord 0 (786432 + a) .published = s.poisonPub a := by
  unfold State.poisonWord State.poisonStore
  rw [if_pos rfl, if_neg (by omega), if_pos (by omega), show (786432 + a - 786432) % 65536 = a by omega]
  rfl

section Poisoned

variable {s : State} {a : Nat} (hp : tabWf Pt.clear s.pts.pub = true)
include hp

/-- A poisoned published point keeps its value (R61). -/
theorem State.pub_poisonPub_self : (s.poisonPub a).pub a = ⟨(s.pub a).v, true⟩ := by
  change tabGet Pt.clear (tabSet Pt.clear s.pts.pub a _) a = _
  rw [tabGet_tabSet hp, if_pos rfl]

theorem State.pub_poisonPub_ne {b : Nat} (hb : b ≠ a) : (s.poisonPub a).pub b = s.pub b := by
  change tabGet Pt.clear (tabSet Pt.clear s.pts.pub a _) b = _
  rw [tabGet_tabSet hp, if_neg hb]
  rfl

end Poisoned

/-! ### A second of corrected words (R62) -/

/-- The next second begins with no corrected word. -/
def State.openSecond (s : State) : State := { s with epo := { s.epo with ceSecond := 0 } }

theorem State.openSecond_only (s : State) : Only [.epo] s s.openSecond := only_epo s _

theorem exec_eccCorrected_reported {s : State}
    (h : s.rd Reg.EPO_ECC_CTRL.ce_event_thr 0 ≠ 0 ∧ s.rd Reg.EPO_ECC_CTRL.ce_event_thr 0 ≤ s.epo.ceSecond) :
    exec .eccCorrected s = .next (s.openSecond.raise 0x020 0 s.epo.ceSecond) := by
  change execEccCorrected s = _
  exact congrArg _ (if_pos h)

theorem exec_eccCorrected_below {s : State}
    (h : ¬ (s.rd Reg.EPO_ECC_CTRL.ce_event_thr 0 ≠ 0 ∧ s.rd Reg.EPO_ECC_CTRL.ce_event_thr 0 ≤ s.epo.ceSecond)) :
    exec .eccCorrected s = .next s.openSecond := by
  change execEccCorrected s = _
  exact congrArg _ (if_neg h)

end Sys2Proof.Machine

namespace Sys2Proof.Proofs

open Sys2Proof Sys2Proof.Machine Sys2Proof.Safety

/-- Settles O19: a scrubbed word is corrected, or poisoned in the published image and reported by `uncorrectable`. -/
theorem scrubCorrectsOrPoisons : Obligations.ScrubCorrectsOrPoisons := by
  intro s a n hs ha
  refine ⟨exec_scrub_off _ _ _, fun hon hpos hn => ?few, fun hon hn => ?many, ?second⟩
  case few =>
    refine ⟨_, (exec_scrub_on _ _ _ hon).trans (congrArg _ (State.readWord_few _ _ _ _ hpos hn)), rfl, rfl, ?_, ?only, ?regs⟩
    · exact State.rd_count_self (s := s.askScrub (786432 + a)) Reg.EPO_CE_CNT.count 0 hs.regs
    case only =>
      exact (State.corrected_keeps (M := 0x200000050) (by decide) (State.ask_keeps (by decide) (.refl s))).only (by decide)
    case regs =>
      have hask : Wrote [(Reg.EPO_CE_CNT.count, 0)] s (s.askScrub (786432 + a)) := (Wrote.refl hs.regs).same rfl
      exact ((hask.count List.mem_cons_self).same rfl).but
  case many =>
    have hexec : exec (.scrub 0 (786432 + a) .published n) s
        = .next (((s.askScrub (786432 + a)).poisonPub a).uncorrectable 0 (786432 + a)) := by
      rw [exec_scrub_on _ _ _ hon, State.readWord_many _ _ _ _ hn, State.poisonWord_published _ ha]
    have hw : tabWf 0 ((s.askScrub (786432 + a)).poisonPub a).regs = true := hs.regs
    have hp : tabWf Pt.clear (s.askScrub (786432 + a)).pts.pub = true := hs.points.2.1
    have hpts := State.uncorrectable_pts (s := (s.askScrub (786432 + a)).poisonPub a) 0 (786432 + a)
    have hrd : ∀ f, ((s.askScrub (786432 + a)).poisonPub a).rd f 0 = s.rd f 0 := fun _ => rfl
    refine ⟨_, hexec, ?self, fun b hb => ?others, ?work, ?pin, ?ext, ?count, fun hfree => ?latched, fun hheld => ?kept,
      ?reports, ?only, ?regs⟩
    case count => rw [State.rd_uncorrectable_count _ _ hw, hrd]
    case latched => exact State.rd_uncorrectable_latched 0 _ hw (by decide) (by omega) ((hrd _).trans hfree)
    case kept =>
      have hkept := State.rd_uncorrectable_kept 0 (786432 + a) hw (by rwa [hrd])
      rwa [hrd, hrd] at hkept
    case self => rw [State.pub, hpts]; exact State.pub_poisonPub_self hp
    case others => rw [State.pub, hpts]; exact State.pub_poisonPub_ne hp hb
    case work => rw [hpts]; rfl
    case pin => rw [hpts]; rfl
    case ext => rw [hpts]; rfl
    case reports =>
      have hreported := State.uncorrectable_reports 0 (786432 + a) hw
      rw [Nat.zero_mul, Nat.zero_add] at hreported
      exact reports_of hreported rfl rfl rfl (hrd _)
    case only =>
      exact (State.uncorrectable_keeps (M := 0x280801592) (by decide) (State.poisonPub_keeps (by decide)
        (State.ask_keeps (by decide) (.refl s)))).only (by decide)
    case regs => exact (State.uncorrectable_wrote 0 (786432 + a) hw).but
  case second =>
    intro thr
    by_cases hthr : thr ≠ 0 ∧ thr ≤ s.epo.ceSecond
    · have hopen : Wrote eventRegs s s.openSecond := (Wrote.refl hs.regs).same rfl
      have hepo := State.raise_epo s.openSecond 0x020 0 s.epo.ceSecond
      refine ⟨_, exec_eccCorrected_reported hthr, by rw [hepo]; rfl, (if_pos hthr).symm ▸ ?reported, by rw [hepo]; rfl, by rw [hepo]; rfl,
        ?only, (hopen.raise _ _ _ (fun _ hp => hp)).but⟩
      case reported => exact reports_raise (by decide) hs.regs rfl rfl rfl rfl
      case only =>
        exact only_trans (only_mono (by simp) s.openSecond_only) (only_mono (fun _ => List.mem_append_right _) (State.raise_only _ _ _ _))
    · exact ⟨_, exec_eccCorrected_below hthr, rfl, (if_neg hthr).symm ▸ rfl, rfl, rfl, only_mono (by simp) s.openSecond_only,
        regsBut_of_regs rfl⟩

end Sys2Proof.Proofs

/-! ## The disturbance recorder (R63 to R66) -/

namespace Sys2Proof.Machine

open Sys2Proof.Safety

/-- A change of the recorder part alone. -/
theorem only_dr (s : State) (d : Dr) : Only [.dr] s { s with dr := d } := by
  intro p hp
  cases p with
  | dr => exact absurd (by decide) hp
  | _ => rfl

theorem State.wr_only (s : State) (f : Field) (i v : Nat) : Only [.regs] s (s.wr f i v) :=
  (State.wr_keeps (M := 0x10) (by decide) (.refl s)).only (by decide)

theorem State.count_only (s : State) (f : Field) (i : Nat) : Only [.regs] s (s.count f i) := s.wr_only f i _

/-! ### DR_ARM (R64) -/

/-- The recorder as DR_ARM leaves it: empty, with the channels and the decimation of the registers. -/
def State.emptyDr (s : State) : State :=
  { s with dr := { s.dr with
      skip := 0, pre := [], post := [], trig := none, left := 0, n := s.rd Reg.EPO_DR_CTRL.channels 0
      dec := s.rd Reg.EPO_DR_CTRL.decimation 0, short := false } }

/-- DR_ARM of a recorder that is not copying, for a record that fits. -/
def State.armDr (s : State) : State :=
  (((s.emptyDr.wr Reg.EPO_DR_CTRL.arm 0 1).wr Reg.EPO_STAT.dr_armed 0 1).wr Reg.EPO_STAT.dr_frozen 0 0).wr
    Reg.EPO_DR_STAT.extra_triggers 0 0

theorem exec_drArm {s : State} (hup : HostUp s) :
    exec .drArm s = .next (if s.drBusy ∨ drDepth (s.rd Reg.EPO_DR_CTRL.channels 0)
        < s.rd Reg.EPO_DR_LEN.pre 0 + s.rd Reg.EPO_DR_LEN.post 0 then
      s.wr Reg.EPO_DR_STAT.arm_refused 0 1 else s.armDr) :=
  exec_of_byHost (f := fun s => .next (if s.drBusy ∨ drDepth (s.rd Reg.EPO_DR_CTRL.channels 0)
        < s.rd Reg.EPO_DR_LEN.pre 0 + s.rd Reg.EPO_DR_LEN.post 0 then
      s.wr Reg.EPO_DR_STAT.arm_refused 0 1 else s.armDr)) rfl hup

/-- The fields that DR_ARM sets. -/
abbrev drArmRegs : List (Field × Nat) :=
  [(Reg.EPO_DR_CTRL.arm, 0), (Reg.EPO_STAT.dr_armed, 0), (Reg.EPO_STAT.dr_frozen, 0), (Reg.EPO_DR_STAT.extra_triggers, 0)]

theorem State.armDr_effect {s : State} (hw : tabWf 0 s.regs = true) :
    s.armDr.rd Reg.EPO_DR_CTRL.arm 0 = 1 ∧ s.armDr.rd Reg.EPO_STAT.dr_armed 0 = 1 ∧ s.armDr.rd Reg.EPO_STAT.dr_frozen 0 = 0
      ∧ s.armDr.rd Reg.EPO_DR_STAT.extra_triggers 0 = 0 ∧ Only [.regs, .dr] s s.armDr ∧ RegsBut drArmRegs s s.armDr := by
  have h0 : Wrote drArmRegs s s.emptyDr := (Wrote.refl hw).same rfl
  have h1 := h0.wr (f := Reg.EPO_DR_CTRL.arm) (i := 0) 1 (by simp)
  have h2 := h1.wr (f := Reg.EPO_STAT.dr_armed) (i := 0) 1 (by simp)
  have h3 := h2.wr (f := Reg.EPO_STAT.dr_frozen) (i := 0) 0 (by simp)
  have hlast := fun {f : Field} => State.rd_wr_off Reg.EPO_DR_STAT.extra_triggers 0 0 f h3.wf
  refine ⟨?arm, ?armed, ?frozen, ?extra, ?only, (h3.wr 0 (by simp)).but⟩
  case arm => exact (hlast (by decide)).trans ((State.rd_wr_off _ _ _ _ h2.wf (by decide)).trans
    ((State.rd_wr_off _ _ _ _ h1.wf (by decide)).trans (State.rd_wr_self _ _ _ h0.wf)))
  case armed => exact (hlast (by decide)).trans ((State.rd_wr_off _ _ _ _ h2.wf (by decide)).trans (State.rd_wr_self _ _ _ h1.wf))
  case frozen => exact (hlast (by decide)).trans (State.rd_wr_self _ _ _ h2.wf)
  case extra => exact State.rd_wr_self _ _ _ h3.wf
  case only =>
    have hwr : ∀ u f v, Only [.regs, .dr] s u → Only [.regs, .dr] s (State.wr u f 0 v) :=
      fun u f v h => only_trans h (only_mono (by simp) (u.wr_only f 0 v))
    exact hwr _ _ _ (hwr _ _ _ (hwr _ _ _ (hwr _ _ _ (only_mono (by simp) (only_dr s _)))))

/-! ### DR_TRIGGER (R65) -/

/-- The record is cut short when fewer samples than `pre` stand before the trigger. -/
def State.markShort (s : State) : State :=
  if s.dr.pre.length < s.rd Reg.EPO_DR_LEN.pre 0 then s.wr Reg.EPO_DR_STAT.short 0 1 else s

/-- The first trigger starts the post-trigger count. -/
def State.startPost (s : State) : State :=
  { s.markShort with dr := { s.dr with
      trig := some (s.epo.k, s.now), left := s.rd Reg.EPO_DR_LEN.post 0
      short := decide (s.dr.pre.length < s.rd Reg.EPO_DR_LEN.pre 0) } }

theorem exec_drTrigger {s : State} (hup : HostUp s) : exec .drTrigger s = .next s.drTrigger :=
  exec_of_byHost (f := fun s => .next s.drTrigger) rfl hup

theorem State.drTrigger_again {s : State} (h : s.dr.trig ≠ none) :
    s.drTrigger = s.count Reg.EPO_DR_STAT.extra_triggers 0 := if_pos (Option.isSome_iff_ne_none.mpr h)

section FirstTrigger

variable {s : State}

theorem State.markShort_parts : s.markShort.epo = s.epo ∧ s.markShort.clk = s.clk ∧ s.markShort.evq = s.evq ∧ s.markShort.dr = s.dr := by
  unfold State.markShort
  split <;> exact ⟨rfl, rfl, rfl, rfl⟩

variable (hw : tabWf 0 s.regs = true)
include hw

theorem State.markShort_wrote : Wrote [(Reg.EPO_DR_STAT.short, 0)] s s.markShort :=
  .ite ((Wrote.refl hw).wr 1 (by simp)) (.refl hw)

theorem State.startPost_wrote : Wrote [(Reg.EPO_DR_STAT.short, 0)] s s.startPost := (State.markShort_wrote hw).same rfl

/-- DR_TRIGGER of an armed recorder with a post-trigger count: the count starts, and event 0x030 reports it. -/
theorem State.drTrigger_first (harm : s.drArmed = true) (hno : s.dr.trig = none) (hpost : s.rd Reg.EPO_DR_LEN.post 0 ≠ 0) :
    s.drTrigger = s.startPost.raise 0x030 0 s.epo.k := by
  obtain ⟨hepo, hclk, hevq, hdr⟩ := s.markShort_parts
  have hpost' : s.markShort.rd Reg.EPO_DR_LEN.post 0 = s.rd Reg.EPO_DR_LEN.post 0 :=
    (State.markShort_wrote hw).rd ⟨rfl, by decide, by decide⟩
  have hstart : ({ s.markShort with dr := { s.markShort.dr with
      trig := some (s.markShort.epoch, s.markShort.now), left := s.markShort.rd Reg.EPO_DR_LEN.post 0
      short := decide (s.dr.pre.length < s.rd Reg.EPO_DR_LEN.pre 0) } } : State) = s.startPost := by
    unfold State.startPost
    rw [hpost', hdr, State.now_of_clk hclk, State.epoch, hepo]
  have hleft : s.startPost.rd Reg.EPO_DR_LEN.post 0 ≠ 0 := by
    rwa [(State.startPost_wrote hw).rd ⟨rfl, by decide, by decide⟩]
  have hk : s.startPost.epoch = s.epo.k := congrArg Epo.k hepo
  unfold State.drTrigger
  rw [if_neg (by simp [hno]), if_neg (by simp [harm])]
  simp only [decide_eq_true_eq]
  change (if State.rd _ Reg.EPO_DR_LEN.post 0 = 0 then _ else _ : State).raise 0x030 0 _ = _
  rw [show (if s.dr.pre.length < s.rd Reg.EPO_DR_LEN.pre 0 then s.wr Reg.EPO_DR_STAT.short 0 1 else s) = s.markShort from rfl, hstart,
    if_neg hleft, hk]

theorem State.drTrigger_first_effect (harm : s.drArmed = true) :
    let t := s.startPost.raise 0x030 0 s.epo.k
    t.dr.trig = some (s.epo.k, s.now) ∧ t.dr.left = s.rd Reg.EPO_DR_LEN.post 0
      ∧ t.dr.pre = s.dr.pre ∧ t.drArmed = true
      ∧ (s.dr.pre.length < s.rd Reg.EPO_DR_LEN.pre 0 → t.rd Reg.EPO_DR_STAT.short 0 = 1) ∧ Reports s t 0x030 0 s.epo.k
      ∧ Only ([.dr] ++ eventParts) s t ∧ RegsBut ([(Reg.EPO_DR_STAT.short, 0)] ++ eventRegs) s t := by
  intro t
  obtain ⟨hepo, hclk, hevq, -⟩ := s.markShort_parts
  have hstart := State.startPost_wrote hw
  have ht : Wrote ([(Reg.EPO_DR_STAT.short, 0)] ++ eventRegs) s t :=
    (hstart.mono (fun _ => List.mem_append_left _)).raise _ _ _ (fun _ => List.mem_append_right _)
  have hdr : t.dr = s.startPost.dr := State.raise_dr ..
  refine ⟨by rw [hdr]; rfl, by rw [hdr]; rfl, by rw [hdr]; rfl, ?armed, fun hshort => ?short, ?reports, ?only, ht.but⟩
  case armed =>
    unfold State.drArmed State.flag at *
    rwa [ht.rd ⟨rfl, by decide, by decide⟩]
  case short =>
    have hmark : s.markShort = s.wr Reg.EPO_DR_STAT.short 0 1 := if_pos hshort
    refine (State.rd_raise hstart.wf _ _ _ (by decide)).trans ?_
    change s.markShort.rd Reg.EPO_DR_STAT.short 0 = 1
    rw [hmark]
    exact State.rd_wr_self Reg.EPO_DR_STAT.short 0 1 hw
  case reports => exact hstart.reports _ _ (by decide) ⟨rfl, by decide, by decide⟩ hevq (congrArg Epo.k hepo) hclk
  case only =>
    have hmark : Only [.regs] s s.markShort := by
      unfold State.markShort
      split
      · exact s.wr_only _ _ _
      · exact only_refl _ _
    exact only_trans (only_mono (by decide) hmark)
      (only_trans (only_mono (by simp) (only_dr s.markShort _)) (only_mono (fun _ => List.mem_append_right _) (State.raise_only _ _ _ _)))

end FirstTrigger

/-! ### The copy (R66) -/

/-- DR_DMA_START of a frozen record. -/
def State.startCopy (s : State) : State := (s.wr Reg.EPO_DR_CTRL.dma_start 0 1).wr Reg.EPO_STAT.dr_dma_busy 0 1

theorem exec_drDmaStart {s : State} (hup : HostUp s) (h : s.drFrozen = true) : exec .drDmaStart s = .next s.startCopy :=
  (exec_of_byHost (f := fun s => .next (if s.drFrozen then s.startCopy else s)) rfl hup).trans (congrArg _ (if_pos h))

/-- Where the copy goes: the 64-byte-aligned address of EPO_DR_DMA. -/
def State.drAddr (s : State) : Nat := s.rd Reg.EPO_DR_DMA_LO.addr_lo 0 * 64 + s.rd Reg.EPO_DR_DMA_HI.addr_hi 0 * 2 ^ 32

/-- The record in host memory, and the recorder ready for the next copy. -/
def State.endCopy (s : State) : State :=
  ((s.hostStore s.drAddr s.drBytes).wr Reg.EPO_DR_CTRL.dma_start 0 0).wr Reg.EPO_STAT.dr_dma_busy 0 0

theorem exec_drTransferred {s : State} (hbusy : s.drBusy = true) (hfrozen : s.drFrozen = true)
    (hmaster : s.flag Reg.GLB_STAT.master_off 0 = false) (hd3 : s.inD3Hot = false) :
    exec (.drTransferred []) s = .next (s.endCopy.raise 0x031 0 s.drBytes.length) := by
  change execDrTransferred [] s = _
  unfold execDrTransferred
  exact congrArg _ (if_pos ⟨hbusy, hfrozen, by simp [hmaster], by simp [hd3]⟩)

/-- What the copy's end does to the registers. -/
theorem State.endCopy_wrote {s : State} (hw : tabWf 0 s.regs = true) :
    Wrote [(Reg.EPO_DR_CTRL.dma_start, 0), (Reg.EPO_STAT.dr_dma_busy, 0)] s s.endCopy :=
  ((((Wrote.refl hw).same (State.hostStore_regs s _ _)).wr 0 (by simp)).wr 0 (by simp))

theorem State.endCopy_effect {s : State} (hw : tabWf 0 s.regs = true) (hm : tabWf 0 s.host.mem = true) :
    let t := s.endCopy.raise 0x031 0 s.drBytes.length
    t.hostLoad s.drAddr s.drBytes.length = s.drBytes
      ∧ (∀ b, b < s.drAddr ∨ s.drAddr + s.drBytes.length ≤ b → tabGet 0 t.host.mem b = tabGet 0 s.host.mem b)
      ∧ t.drBusy = false ∧ t.rd Reg.EPO_STAT.dr_dma_busy 0 = 0 ∧ Reports s t 0x031 0 s.drBytes.length ∧ t.dr = s.dr
      ∧ Only eventParts s t ∧ RegsBut ([(Reg.EPO_DR_CTRL.dma_start, 0), (Reg.EPO_STAT.dr_dma_busy, 0)] ++ eventRegs) s t := by
  intro t
  have hend := State.endCopy_wrote hw
  have hstored : tabWf 0 (s.hostStore s.drAddr s.drBytes).regs = true := State.regs_hostStore _ _ hw
  have hmem : t.host.mem = tabSetList 0 s.host.mem s.drAddr s.drBytes :=
    (State.raise_mem ..).trans (by simp [State.endCopy, State.hostStore_mem])
  have hrd : ∀ {f : Field}, Apart f 0 eventRegs → t.rd f 0 = s.endCopy.rd f 0 := fun hf =>
    ((Wrote.refl hend.wf).raise _ _ _ (fun _ hp => hp)).rd hf
  refine ⟨?load, fun b hb => ?outside, ?busy, ?dma, ?reports, ?dr, ?only, ?regs⟩
  case load => rw [State.hostLoad, hmem]; exact tabGetList_tabSetList_self _ hm
  case outside => rw [hmem]; exact tabGet_tabSetList_outside hm hb
  case busy =>
    have hzero : s.endCopy.rd Reg.EPO_DR_CTRL.dma_start 0 = 0 :=
      (State.rd_wr_off _ _ _ _ (State.regs_wr _ _ _ hstored) (by decide)).trans (State.rd_wr_self _ _ _ hstored)
    rw [State.drBusy, State.flag, hrd ⟨rfl, by decide, by decide⟩, hzero]
    rfl
  case dma => exact (hrd ⟨rfl, by decide, by decide⟩).trans (State.rd_wr_self _ _ _ (State.regs_wr _ _ _ hstored))
  case reports =>
    exact hend.reports _ _ (by decide) ⟨rfl, by decide, by decide⟩ (by simp [State.endCopy])
      (by simp [State.endCopy]) (by simp [State.endCopy])
  case dr => exact (State.raise_dr ..).trans (by simp [State.endCopy])
  case only =>
    exact (State.raise_keeps (M := 0x512) (by decide) (State.wr_keeps (by decide) (State.wr_keeps (by decide)
      (State.hostStore_keeps (by decide) (.refl s))))).only (by decide)
  case regs => exact ((hend.mono (fun _ => List.mem_append_left _)).raise _ _ _ (fun _ => List.mem_append_right _)).but

end Sys2Proof.Machine

namespace Sys2Proof.Proofs

open Sys2Proof Sys2Proof.Machine Sys2Proof.Safety

/-- Settles O20: arm, trigger and copy, each with the lemma that says what it does. -/
theorem recorderCycle : Obligations.RecorderCycle := by
  intro s hs
  refine ⟨fun hup hidle hfits => ?arm, fun hup hbusy => ?busy, fun hup harm hno hpost => ?first, fun hup htrig => ?again,
    fun hup hfrozen => ?start, fun hbusy hfrozen hmaster hd3 => ?transferred⟩
  case arm =>
    have hgo : ¬ (s.drBusy ∨ drDepth (s.rd Reg.EPO_DR_CTRL.channels 0) < s.rd Reg.EPO_DR_LEN.pre 0 + s.rd Reg.EPO_DR_LEN.post 0) := by
      simpa [hidle, drDepth] using hfits
    obtain ⟨harm, harmed, hfrozen, hextra, honly, hregs⟩ := State.armDr_effect hs.regs
    exact ⟨_, (exec_drArm hup).trans (congrArg _ (if_neg hgo)), harm, harmed, hfrozen, hextra, rfl, rfl, rfl, honly, hregs⟩
  case busy =>
    exact ⟨_, (exec_drArm hup).trans (congrArg _ (if_pos (.inl hbusy))), State.rd_wr_self _ _ _ hs.regs, s.wr_only _ _ _,
      ((Wrote.refl hs.regs).wr _ List.mem_cons_self).but⟩
  case first =>
    exact ⟨_, (exec_drTrigger hup).trans (congrArg _ (State.drTrigger_first hs.regs harm hno hpost)),
      State.drTrigger_first_effect hs.regs harm⟩
  case again =>
    exact ⟨_, (exec_drTrigger hup).trans (congrArg _ (State.drTrigger_again htrig)), State.rd_count_self _ _ hs.regs, s.count_only _ _,
      ((Wrote.refl hs.regs).count List.mem_cons_self).but⟩
  case start =>
    have hw1 : tabWf 0 (s.wr Reg.EPO_DR_CTRL.dma_start 0 1).regs = true := State.regs_wr _ _ _ hs.regs
    refine ⟨_, exec_drDmaStart hup hfrozen, ?_, State.rd_wr_self _ _ _ hw1, only_trans (s.wr_only _ _ _) (State.wr_only _ _ _ _),
      (((Wrote.refl hs.regs).wr _ (by simp)).wr _ (by simp)).but⟩
    exact (State.rd_wr_off _ _ _ _ hw1 (by decide)).trans (State.rd_wr_self _ _ _ hs.regs)
  case transferred =>
    exact ⟨_, exec_drTransferred hbusy hfrozen hmaster hd3, State.endCopy_effect hs.regs hs.memory⟩

end Sys2Proof.Proofs

/-! ## Host reads (R14, R19, R24, R26, R61, R68) -/

namespace Sys2Proof.Machine

open Sys2Proof.Safety

/-- A host read has its effect while the host reaches the device. -/
theorem byReader_up {s : State} (req addr : Nat) (f : State → Host.Outcome State Fault Refusal) (hup : HostUp s) :
    byReader req addr f s = f s := by
  unfold HostUp State.deaf at hup
  obtain ⟨⟨hd3, hreset⟩, hdormant⟩ : (s.inD3Hot = false ∧ s.pwr.inReset = false) ∧ s.pwr.dormant = false := by
    simpa using hup
  unfold byReader
  rw [hreset, hdormant, hd3]
  rfl

/-- A change of the host interface alone. -/
theorem only_host (s : State) (h : HostIf) : Only [.host] s { s with host := h } := by
  intro p hp
  cases p with
  | host => exact absurd (by decide) hp
  | _ => rfl

/-! ### One station point (R24, R26, R61) -/

/-- The point of a station address as the host reads it. -/
theorem State.windowRead_station {s : State} (req : Nat) {a : Nat} (copy : Nat) (ha : a < 0x10000) :
    s.windowRead req (0x100000 + 8 * a) 8 [] copy
      = (s.askPoints 80 [.station a]).completeRead req (0x100000 + 8 * a) [s.hostPoint (.station a)] := by
  have hrun : pointRun (0x100000 + 8 * a) 1 = some [.station a] := pointRun_station 1 a (by omega)
  unfold State.windowRead
  rw [if_neg (by simp only [Config.maxReadRequest]; omega), hrun]
  rfl

theorem exec_pointWindowRead {s : State} (req addr len : Nat) (errs : List (Nat × Nat)) (copy : Fin 3) (hup : HostUp s) :
    exec (.pointWindowRead req addr len errs copy) s = .next (s.windowRead req addr len errs copy) := by
  change byReader req addr (fun s => .next (s.windowRead req addr len errs copy)) s = _
  exact byReader_up _ _ _ hup

/-! ### Registers (R14, R19, R68) -/

theorem exec_rcRead {s : State} (req addr len inc : Nat) (hup : HostUp s) :
    exec (.rcRead req addr len inc) s = .next (s.hostRead req addr len inc) := by
  change byReader req addr (fun s => .next (s.hostRead req addr len inc)) s = _
  exact byReader_up _ _ _ hup

theorem exec_latchingRead {s : State} (req addr len : Nat) (hup : HostUp s) :
    exec (.latchingRead req addr len) s = .next (s.hostRead req addr len 0) := by
  change byReader req addr (fun s => .next (s.hostRead req addr len 0)) s = _
  exact byReader_up _ _ _ hup

theorem exec_ueAddrRead {s : State} (req : Nat) (hup : HostUp s) :
    exec (.ueAddrRead req) s = .next (s.hostRead req 0x306C 4 0) := by
  change byReader req Reg.EPO_UE_ADDR.word.addr (fun s => .next (s.hostRead req Reg.EPO_UE_ADDR.word.addr 4 0)) s = _
  exact byReader_up _ _ _ hup

/-- A read of an EPO register is a read of the register itself. -/
theorem State.hostRead_epo {s : State} (req a inc : Nat) (hlow : 0x3000 ≤ a) (hhigh : a < 0x4000) (ha : a % 4 = 0) :
    s.hostRead req a 4 inc = s.readRegister req a inc := by
  have hcut : a % 2 ^ 25 = a := Nat.mod_eq_of_lt (by omega)
  have hfab : ¬ inFabric a = true := by
    simp only [inFabric, Bool.and_eq_true, decide_eq_true_eq]
    omega
  have hpoint : pointAt a = none := by
    unfold pointAt
    rw [if_neg (by omega), if_neg (by omega)]
  have hmsix : inMsix a = false := by
    simp only [inMsix, Bool.and_eq_false_iff, decide_eq_false_iff_not]
    omega
  have hshape : accessShaped a 4 = true := by
    unfold accessShaped
    rw [hmsix, ha]
    rfl
  have hdrv : ¬ (0x9000 ≤ a ∧ a < 0xA000) := by omega
  have hreg : ¬ 0x100000 ≤ a := by omega
  have hflash : a ≠ Reg.CFG_FLASH_DATA.data.addr := by simp only [Reg.CFG_FLASH_DATA.data]; omega
  unfold State.hostRead
  rw [hcut]
  simp [hfab, hdrv, inWindow, hpoint, hreg, hshape, hmsix, hflash]

/-- A latched word answers the read of the high register, and the latch is free again (R19). -/
theorem State.readRegister_latched {s : State} {req a w : Nat} (inc : Nat) (h : tabGet none s.host.latch (latchKey req a) = some w) :
    s.readRegister req a inc = { s.answer req a [w] with host := { (s.answer req a [w]).host with
      latch := tabSet none s.host.latch (latchKey req a) none } } := by
  unfold State.readRegister
  rw [h]

/-- A register that latches no other and holds no latched word: its word, and what the read does to its fields. -/
theorem State.readRegister_plain {s : State} {req a : Nat} (inc : Nat) (h : tabGet none s.host.latch (latchKey req a) = none)
    (ha : latchingLo.contains a = false) :
    s.readRegister req a inc
      = ((fieldsAt a).foldl (fun (s : State) f => s.afterRead a inc f) (s.wordAt a).2).answerReg req a (s.regBad a) (s.wordAt a).1 := by
  unfold State.readRegister
  rw [h]
  simp only [ha, Bool.false_eq_true, if_false]

/-- A register of one field that the register store holds. -/
theorem State.wordAt_single {s : State} {a : Nat} {f : Field} (hf : fieldsAt a = [f]) (hi : s.instOf f a = 0)
    (hread : s.fieldRead f 0 = (s.rd f 0 % 2 ^ f.width, s)) (hlo : f.lo = 0) : s.wordAt a = (s.rd f 0 % 2 ^ f.width, s) := by
  unfold State.wordAt
  rw [hf, State.fieldsRead, hi, hread, hlo, State.fieldsRead]
  simp

/-- RC_READ of a counter that is the only field of its register (R14). -/
theorem State.readRegister_counter {s : State} {req inc : Nat} {f : Field} (hf : fieldsAt f.addr = [f]) (hi : s.instOf f f.addr = 0)
    (hread : s.fieldRead f 0 = (s.rd f 0 % 2 ^ f.width, s)) (hlo : f.lo = 0) (hacc : f.acc = .rc) (hreset : f.reset = 0)
    (h : tabGet none s.host.latch (latchKey req f.addr) = none) (ha : latchingLo.contains f.addr = false) :
    s.readRegister req f.addr inc
      = (s.wr f 0 (inc % 2)).answerReg req f.addr (s.regBad f.addr) (s.rd f 0 % 2 ^ f.width) := by
  rw [State.readRegister_plain inc h ha, State.wordAt_single hf hi hread hlo, hf]
  simp only [List.foldl_cons, List.foldl_nil, State.afterRead, if_pos hacc, hi, hreset, hlo]
  simp

/-- LATCHING_READ of EPO_EPOCH_LO: the low word of k, and the high one in the requester's latch (R19). -/
theorem State.readRegister_epoch {s : State} {req : Nat} (h : tabGet none s.host.latch (latchKey req 0x300C) = none) :
    s.readRegister req 0x300C 0
      = { s.answerReg req 0x300C (s.regBad 0x300C) (s.epo.k % 2 ^ 32) with
          host := { (s.answerReg req 0x300C (s.regBad 0x300C) (s.epo.k % 2 ^ 32)).host with
            latch := tabSet none s.host.latch (latchKey req 0x3010) (some (s.epo.k / 2 ^ 32 % 2 ^ 32)) } } := by
  have hfieldsLo : fieldsAt 0x300C = [Reg.EPO_EPOCH_LO.epoch_lo] := by decide
  have hfieldsHi : fieldsAt (0x300C + 4) = [Reg.EPO_EPOCH_HI.epoch_hi] := by decide
  have hlo : s.wordAt 0x300C = (s.epo.k % 2 ^ 32, s) := by
    unfold State.wordAt
    rw [hfieldsLo]
    change ((s.epo.k % 2 ^ 32) % 2 ^ 32 * 2 ^ 0 + 0, s) = _
    simp
  have hhi : ∀ u : State, u.epo = s.epo → u.wordAt (0x300C + 4) = (s.epo.k / 2 ^ 32 % 2 ^ 32, u) := by
    intro u hu
    unfold State.wordAt
    rw [hfieldsHi]
    change ((u.epo.k / 2 ^ 32 % 2 ^ 32) % 2 ^ 32 * 2 ^ 0 + 0, u) = _
    simp [hu]
  have hkeep : (fieldsAt 0x300C).foldl (fun (s : State) f => s.afterRead 0x300C 0 f) s = s := by rw [hfieldsLo]; rfl
  unfold State.readRegister
  rw [h]
  simp only [hlo, hkeep]
  rw [if_pos (by decide), hhi (s.answerReg req 0x300C (s.regBad 0x300C) (s.epo.k % 2 ^ 32)) rfl]
  rfl

/-- What UE_ADDR_READ does: the latched address is answered and both fields are as after reset (R68). -/
theorem State.readRegister_ueAddr {s : State} {req : Nat} (h : tabGet none s.host.latch (latchKey req 0x306C) = none) :
    s.readRegister req 0x306C 0
      = ((s.wr Reg.EPO_UE_ADDR.memory 0 0xF).wr Reg.EPO_UE_ADDR.word 0 0xFFFFFFF).answerReg req 0x306C (s.regBad 0x306C)
          (s.rd Reg.EPO_UE_ADDR.word 0 % 2 ^ 28 + s.rd Reg.EPO_UE_ADDR.memory 0 % 2 ^ 4 * 2 ^ 28) := by
  have hfields : fieldsAt 0x306C = [Reg.EPO_UE_ADDR.memory, Reg.EPO_UE_ADDR.word] := by decide
  have hword : s.wordAt 0x306C
      = (s.rd Reg.EPO_UE_ADDR.word 0 % 2 ^ 28 + s.rd Reg.EPO_UE_ADDR.memory 0 % 2 ^ 4 * 2 ^ 28, s) := by
    unfold State.wordAt
    rw [hfields]
    change (s.rd Reg.EPO_UE_ADDR.memory 0 % 2 ^ 4 * 2 ^ 28 + (s.rd Reg.EPO_UE_ADDR.word 0 % 2 ^ 28 * 2 ^ 0 + 0), s) = _
    rw [Nat.add_comm]
    simp
  rw [State.readRegister_plain 0 h (by decide), hword, hfields]
  rfl

end Sys2Proof.Machine

namespace Sys2Proof.Proofs

open Sys2Proof Sys2Proof.Machine Sys2Proof.Safety

/-- Settles O15: each kind of read comes to one answer, with the latch or the counter that it touches. -/
theorem hostReads : Obligations.HostReads := by
  refine ⟨fun s req a copy hup ha => ?point, fun s req hup => ⟨fun hfree => ?latch, fun w hw => ?latched⟩,
    fun s req inc hs hup f hf hfree => ?counter, fun s req hs hup hfree => ?ueAddr⟩
  case point =>
    intro p
    refine ⟨_, (exec_pointWindowRead req _ 8 [] copy hup).trans (congrArg _ (State.windowRead_station req copy ha)),
      ?answer, rfl, rfl, rfl, rfl, ?only⟩
    case answer =>
      change some _ = some _
      simp [State.hostPoint, p]
    case only =>
      exact (State.completeRead_keeps (M := 0x200000400) (by decide) (State.askPoints_keeps (by decide) (.refl s))).only (by decide)
  case latch =>
    have hread := (State.hostRead_epo (s := s) req 0x300C 0 (by decide) (by decide) (by decide)).trans (State.readRegister_epoch hfree)
    exact ⟨_, (exec_latchingRead _ _ _ hup).trans (congrArg _ hread), rfl, rfl, rfl, rfl, rfl, only_host s _⟩
  case latched =>
    have hread := (State.hostRead_epo (s := s) req 0x3010 0 (by decide) (by decide) (by decide)).trans (State.readRegister_latched 0 hw)
    exact ⟨_, (exec_rcRead _ _ _ _ hup).trans (congrArg _ hread), rfl, rfl, rfl, rfl, rfl, only_host s _⟩
  case counter =>
    have hread : f.width = 32 ∧ s.hostRead req f.addr 4 inc
        = (s.wr f 0 (inc % 2)).answerReg req f.addr (s.regBad f.addr) (s.rd f 0 % 2 ^ 32) := by
      simp only [List.mem_cons, List.not_mem_nil, or_false] at hf
      rcases hf with rfl | rfl | rfl | rfl
      all_goals
        refine ⟨rfl, (State.hostRead_epo req _ inc (by decide) (by decide) (by decide)).trans ?_⟩
        refine State.readRegister_counter ?_ rfl rfl rfl rfl rfl hfree (by decide)
        decide
    obtain ⟨hwidth, hread⟩ := hread
    refine ⟨_, (exec_rcRead _ _ _ _ hup).trans (congrArg _ hread), rfl, (State.rd_wr_self _ _ _ hs.regs).trans ?_, rfl, rfl,
      only_trans (only_mono (by simp) (s.wr_only f 0 _)) (only_mono (by simp) (only_host _ _)),
      (((Wrote.refl hs.regs).wr _ List.mem_cons_self).same rfl).but⟩
    exact Nat.mod_eq_of_lt (by rw [hwidth]; omega)
  case ueAddr =>
    have hread := (State.hostRead_epo (s := s) req 0x306C 0 (by decide) (by decide) (by decide)).trans (State.readRegister_ueAddr hfree)
    have hw1 : tabWf 0 (s.wr Reg.EPO_UE_ADDR.memory 0 0xF).regs = true := State.regs_wr _ _ _ hs.regs
    refine ⟨_, (exec_ueAddrRead _ hup).trans (congrArg _ hread), rfl, ?memory, State.rd_wr_self _ _ _ hw1, rfl, ?only, ?regs⟩
    case memory => exact (State.rd_wr_off _ _ _ _ hw1 (by decide)).trans (State.rd_wr_self _ _ _ hs.regs)
    case only =>
      exact only_trans (only_mono (by simp) (s.wr_only _ 0 _)) (only_trans (only_mono (by simp) (State.wr_only _ _ 0 _))
        (only_mono (by simp) (only_host _ _)))
    case regs => exact ((((Wrote.refl hs.regs).wr _ (by simp)).wr _ (by simp)).same rfl).but

end Sys2Proof.Proofs

/-! ## Register writes (R12, R13, R30, R476)

A write of a register whose fields act at once, one that lies outside its field's range, and one of the wrong shape. -/

namespace Sys2Proof.Machine

open Sys2Proof.Safety

theorem exec_registerWrite {s u : State} {addr len be value hw : Nat} (hup : HostUp s) (h : s.hostWrite addr len be value hw = u) :
    exec (.registerWrite addr len be value hw) s = .next (s.mirrorOf u) := by
  rw [← h]
  exact exec_of_byHost (f := fun s => .next (s.mirrorOf (s.hostWrite addr len be value hw))) rfl hup

/-- What a command does to the parts outside the mirror, the mirror leaves. -/
theorem State.mirrorOf_only {l : List Part} {r s t : State} (h : Only l s t) : Only (l ++ mirrorParts) s (r.mirrorOf t) :=
  only_trans (only_mono (fun _ => List.mem_append_left _) h)
    (only_mono (fun _ => List.mem_append_right _) ((State.mirrorOf_keeps (M := 0x800002) (by decide) (.refl t)).only (by decide)))

/-! ### Addresses -/

/-- An address of register space that no block treats on its own: outside the windows and the MSI-X structures, aligned, with no command
code, and of no block that catches up before a write. -/
def plainAddr (a : Nat) : Bool :=
  decide (a < 0x5000) && a % 4 == 0 && !inMsix a && a != 0x2058 + 4 && a != Reg.CFG_FLASH_DATA.data.addr
    && (commandCodes.find? (fun x => x.1 == a)).isNone && a != 0x3078 && a != 0x307C && a != 0x3080

theorem pointAt_register {a : Nat} (h : a < 0x100000) : pointAt a = none := by
  unfold pointAt
  rw [if_neg (by omega), if_neg (by omega)]

/-- A write of the wrong shape is an access error (R476). -/
theorem State.hostWrite_misshaped {s : State} {a len be : Nat} (value hw : Nat) (ha : a < 0x100000) (hmsix : inMsix a = false)
    (h : len ≠ 4 ∨ a % 4 ≠ 0 ∨ be ≠ 15) : s.hostWrite a len be value hw = s.accessError a true := by
  have hcut : a % 2 ^ 25 = a := Nat.mod_eq_of_lt (by omega)
  have hshape : 0x100000 ≤ a ∨ (!accessShaped a len) = true ∨ be ≠ 2 ^ len - 1 := by
    unfold accessShaped
    rw [hmsix]
    by_cases hlen : len = 4
    · subst hlen
      rcases h with h | h | h
      · exact absurd rfl h
      · simp [h]
      · exact .inr (.inr (by simpa using h))
    · simp [hlen]
  unfold State.hostWrite
  rw [hcut]
  simp only [inWindow, pointAt_register ha, Option.isSome_none, Bool.false_eq_true, if_false]
  rw [if_pos hshape]

/-- An aligned word write of a register that no block treats on its own: what acts at once, and what is staged. -/
theorem State.hostWrite_plain {s : State} {a : Nat} (value hw : Nat) (h : plainAddr a = true) (hf : (fieldsAt a).isEmpty = false) :
    s.hostWrite a 4 15 value hw = (s.writeAtOnce a value hw).stageRegister a value := by
  simp only [plainAddr, Bool.and_eq_true, decide_eq_true_eq, beq_iff_eq, bne_iff_ne, Bool.not_eq_true', Option.isNone_iff_eq_none] at h
  obtain ⟨⟨⟨⟨⟨⟨⟨⟨hlow, halign⟩, hmsix⟩, -⟩, hflash⟩, hcode⟩, -⟩, -⟩, -⟩ := h
  have hcut : a % 2 ^ 25 = a := Nat.mod_eq_of_lt (by omega)
  have hshape : accessShaped a 4 = true := by
    unfold accessShaped
    rw [hmsix, halign]
    rfl
  have hcodes : s.codeRefused a value = none := by unfold State.codeRefused; rw [hcode]
  have hadc : ¬ (0x7000 ≤ a ∧ a < 0x8000) := by omega
  have hdrv : ¬ (0x9000 ≤ a ∧ a < 0xA000) := by omega
  have hfab : inFabric a = false := by
    simp only [inFabric, Bool.and_eq_false_iff, decide_eq_false_iff_not]
    omega
  have hspace : ¬ 0x100000 ≤ a := by omega
  unfold State.hostWrite
  rw [hcut]
  simp [inWindow, pointAt_register (a := a) (by omega), hspace, hshape, hmsix, hf, hflash, hcodes, hadc, hdrv, hfab]

/-- No rule of such a register turns its write away. -/
theorem State.writeRefused_plain {s : State} {a : Nat} (i value : Nat) (h : plainAddr a = true) : s.writeRefused a i value = none := by
  simp only [plainAddr, Bool.and_eq_true, decide_eq_true_eq, beq_iff_eq, bne_iff_ne, Bool.not_eq_true', Option.isNone_iff_eq_none] at h
  obtain ⟨⟨⟨⟨⟨⟨⟨⟨hlow, -⟩, -⟩, -⟩, -⟩, -⟩, hctrl⟩, hlen⟩, hchan⟩ := h
  unfold State.writeRefused
  rw [if_neg (by omega), if_neg (by omega), if_neg (by omega), if_neg (by omega), if_neg (by omega)]

/-- Nothing follows a write of such a register. -/
theorem State.writeFollows_plain {old s : State} {a : Nat} (i value : Nat) (h : plainAddr a = true) : old.writeFollows s a i value = s := by
  simp only [plainAddr, Bool.and_eq_true, decide_eq_true_eq, beq_iff_eq, bne_iff_ne, Bool.not_eq_true', Option.isNone_iff_eq_none] at h
  obtain ⟨⟨⟨⟨⟨⟨⟨⟨hlow, -⟩, -⟩, -⟩, -⟩, -⟩, -⟩, -⟩, hchan⟩ := h
  unfold State.writeFollows
  rw [if_neg hchan, if_neg (by omega), if_neg (by omega), if_neg (by omega), if_neg (by omega), if_neg (by omega), if_neg (by omega),
    if_neg (by omega)]

/-! ### Fields that act at once -/

/-- A field that the prose gives no range beside the map's (R83, R112, R240, R315). -/
def mapRanged (f : Field) : Bool := decide (f.addr < 0x5000)

/-- A value within the map's range is taken. -/
theorem State.fieldTakes_map {s : State} {f : Field} {i v : Nat} (h : mapRanged f = true) (hmin : f.min ≤ v) (hmax : v ≤ f.max) :
    s.fieldTakes f i v = true := by
  have hne : ∀ g : Field, ¬ mapRanged g = true → f ≠ g := fun g hg he => hg (he ▸ h)
  unfold State.fieldTakes
  rw [decide_eq_true hmin, decide_eq_true hmax, if_neg (hne _ (by decide)), if_neg (hne _ (by decide)),
    if_neg (not_or.mpr ⟨hne _ (by decide), hne _ (by decide)⟩), if_neg (hne _ (by decide)), if_neg (hne _ (by decide)),
    if_neg (hne _ (by decide)), if_neg (hne _ (by decide))]
  rfl

/-- A value above the map's range, or below it, is not taken. -/
theorem State.fieldTakes_outside {s : State} {f : Field} {i v : Nat} (h : v < f.min ∨ f.max < v) : s.fieldTakes f i v = false := by
  unfold State.fieldTakes
  rcases h with h | h
  · rw [decide_eq_false (Nat.not_le.mpr h)]; simp
  · rw [decide_eq_false (Nat.not_le.mpr h)]; simp

/-- A register whose fields all act at once and take every value: each field is written, and the word is whole again (R61). -/
theorem State.hostWrite_writable {s : State} {a : Nat} {f : Field} {fs : List Field} (value hw : Nat) (ha : plainAddr a = true)
    (hl : (fieldsAt a).filter writableField = f :: fs) (hst : (fieldsAt a).filter (fun f => f.acc == .st) = [])
    (hi : s.instOf f a = 0) (htakes : ∀ g ∈ f :: fs, s.fieldTakes g 0 (g.of value) = true) :
    s.hostWrite a 4 15 value hw = (f :: fs).foldl (fun (s : State) f => s.writeField f 0 value hw) (s.markReg a 0 false) := by
  have hsome : (fieldsAt a).isEmpty = false := by
    cases hfields : fieldsAt a with
    | nil => rw [hfields] at hl; exact absurd hl (by simp)
    | cons => rfl
  have hstaged : ∀ u : State, u.stageRegister a value = u := by
    intro u
    unfold State.stageRegister
    rw [hst]
    rfl
  rw [State.hostWrite_plain value hw ha hsome, hstaged]
  unfold State.writeAtOnce
  simp only [hl, List.head?_cons, hi, State.writeRefused_plain _ _ ha]
  rw [if_neg (by simp only [Bool.not_eq_true', Bool.not_eq_false]; exact List.all_eq_true.mpr htakes), State.writeFollows_plain _ _ ha]

/-- What makes a register one RW field that takes every value. -/
structure OneRw (f : Field) : Prop where
  plain : plainAddr f.addr = true
  writable : (fieldsAt f.addr).filter writableField = [f]
  unstaged : (fieldsAt f.addr).filter (fun f => f.acc == .st) = []
  single : f.sel = .one
  ranged : mapRanged f = true
  rw : f.acc = .rw
  lo : f.lo = 0
  min : f.min = 0
  max : 2 ^ f.width ≤ f.max + 1

/-- A write of such a register: the field takes the value at once (R12). -/
theorem State.hostWrite_oneRw {s : State} {f : Field} (value hw : Nat) (h : OneRw f) :
    s.hostWrite f.addr 4 15 value hw = (s.markReg f.addr 0 false).wr f 0 (value % 2 ^ f.width) := by
  have hof : f.of value = value % 2 ^ f.width := by
    unfold Field.of bitsOf
    rw [h.lo, Nat.pow_zero, Nat.div_one]
  have hi : s.instOf f f.addr = 0 := by unfold State.instOf; rw [h.single]
  have htakes : ∀ g ∈ [f], s.fieldTakes g 0 (g.of value) = true := by
    intro g hg
    rw [List.mem_singleton.mp hg, hof]
    have hlt := Nat.mod_lt value (Nat.two_pow_pos f.width)
    exact State.fieldTakes_map h.ranged (by rw [h.min]; exact Nat.zero_le _) (by have := h.max; omega)
  rw [State.hostWrite_writable value hw h.plain h.writable h.unstaged hi htakes, ← hof]
  simp [State.writeField, h.rw]

/-- The word at an address of the map is whole. -/
theorem State.markReg_epo (s : State) (a i : Nat) :
    (s.markReg a i false).epo = { s.epo with badRegs := s.epo.badRegs.filter (fun x => x != (a, i)) } := rfl

/-- All that such a write does. -/
theorem State.registerWrite_oneRw {s : State} {f : Field} (value hw : Nat) (h : OneRw f) (hup : HostUp s) (hs : tabWf 0 s.regs = true) :
    ∃ t, exec (.registerWrite f.addr 4 15 value hw) s = .next t ∧ t.rd f 0 = value % 2 ^ f.width
      ∧ t.epo = { s.epo with badRegs := s.epo.badRegs.filter (fun x => x != (f.addr, 0)) }
      ∧ Only ([.regs, .epo] ++ mirrorParts) s t ∧ RegsBut [(f, 0)] s t := by
  refine ⟨_, exec_registerWrite hup (State.hostWrite_oneRw value hw h), ?read, ?whole, State.mirrorOf_only ?only, ?regs⟩
  case read =>
    rw [State.rd_mirrorOf, State.rd_wr_self (s := s.markReg f.addr 0 false) _ _ _ hs, Nat.mod_mod]
  case whole => rw [State.mirrorOf_epo]; rfl
  case only => exact only_trans (only_mono (by simp) (only_epo s _)) (only_mono (by simp) (State.wr_only _ f 0 _))
  case regs => exact regsBut_mirrorOf ((((Wrote.refl hs).same (u := s.markReg f.addr 0 false) rfl).wr _ List.mem_cons_self).but)

/-! ### Access errors (R476) -/

/-- The fields in which a refused access shows. -/
abbrev accessRegs : List (Field × Nat) := [(Reg.GLB_ACC_ERR_CNT.count, 0), (Reg.GLB_ACC_ERR_ADDR.addr, 0), (Reg.GLB_ACC_ERR_ADDR.write, 0)]

/-- A refused write is counted and its address latched. -/
def State.latchWrite (s : State) (a : Nat) : State :=
  ((s.count Reg.GLB_ACC_ERR_CNT.count 0).wr Reg.GLB_ACC_ERR_ADDR.addr 0 a).wr Reg.GLB_ACC_ERR_ADDR.write 0 1

section Latched

variable {s : State} (a : Nat) (hw : tabWf 0 s.regs = true)
include hw

theorem State.latchWrite_wrote : Wrote accessRegs s (s.latchWrite a) :=
  (((Wrote.refl hw).count (by simp)).wr a (by simp)).wr 1 (by simp)

theorem State.latchWrite_effect :
    (s.latchWrite a).rd Reg.GLB_ACC_ERR_CNT.count 0
        = min (s.rd Reg.GLB_ACC_ERR_CNT.count 0 + 1) (2 ^ Reg.GLB_ACC_ERR_CNT.count.width - 1)
      ∧ (s.latchWrite a).rd Reg.GLB_ACC_ERR_ADDR.addr 0 = a % 2 ^ Reg.GLB_ACC_ERR_ADDR.addr.width
      ∧ (s.latchWrite a).rd Reg.GLB_ACC_ERR_ADDR.write 0 = 1 := by
  have h1 : tabWf 0 (s.count Reg.GLB_ACC_ERR_CNT.count 0).regs = true := State.regs_count _ _ hw
  have h2 := State.regs_wr Reg.GLB_ACC_ERR_ADDR.addr 0 a h1
  refine ⟨?count, ?addr, State.rd_wr_self _ _ _ h2⟩
  case count =>
    exact (State.rd_wr_off _ _ _ _ h2 (by decide)).trans ((State.rd_wr_off _ _ _ _ h1 (by decide)).trans (State.rd_count_self _ _ hw))
  case addr => exact (State.rd_wr_off _ _ _ _ h2 (by decide)).trans (State.rd_wr_self _ _ _ h1)

/-- The event of a refused write is raised while acc_ev is 1. -/
theorem State.accessError_write :
    s.accessError a true = if s.flag Reg.GLB_CTRL.acc_ev 0 then (s.latchWrite a).raise 0x002 0 (a % 2 ^ 25 + 2 ^ 31)
      else s.latchWrite a := by
  have hflag : (s.latchWrite a).flag Reg.GLB_CTRL.acc_ev 0 = s.flag Reg.GLB_CTRL.acc_ev 0 := by
    unfold State.flag
    rw [(State.latchWrite_wrote a hw).rd ⟨rfl, by decide, by decide⟩]
  rw [← hflag]
  rfl

end Latched

/-- All that a write of the wrong shape does. -/
theorem State.registerWrite_misshaped {s : State} {a len be : Nat} (value hw : Nat) (hup : HostUp s) (hs : tabWf 0 s.regs = true)
    (ha : a < 0x100000) (hmsix : inMsix a = false) (h : len ≠ 4 ∨ a % 4 ≠ 0 ∨ be ≠ 15) :
    ∃ t, exec (.registerWrite a len be value hw) s = .next t ∧ t.epo = s.epo
      ∧ t.rd Reg.GLB_ACC_ERR_CNT.count 0 = min (s.rd Reg.GLB_ACC_ERR_CNT.count 0 + 1) (2 ^ Reg.GLB_ACC_ERR_CNT.count.width - 1)
      ∧ t.rd Reg.GLB_ACC_ERR_ADDR.addr 0 = a % 2 ^ Reg.GLB_ACC_ERR_ADDR.addr.width ∧ t.rd Reg.GLB_ACC_ERR_ADDR.write 0 = 1
      ∧ (s.flag Reg.GLB_CTRL.acc_ev 0 = true → Reports s t 0x002 0 (a + 2 ^ 31))
      ∧ (s.flag Reg.GLB_CTRL.acc_ev 0 = false → t.evq = s.evq) ∧ Only (eventParts ++ mirrorParts) s t
      ∧ RegsBut (accessRegs ++ eventRegs) s t := by
  have hexec := exec_registerWrite hup (State.hostWrite_misshaped value hw ha hmsix h)
  have hlatch := State.latchWrite_wrote a hs
  obtain ⟨hcount, haddr, hwrite⟩ := State.latchWrite_effect a hs
  have honly : Only (eventParts ++ mirrorParts) s (s.mirrorOf (s.accessError a true)) :=
    State.mirrorOf_only ((State.accessError_keeps (M := 0x512) (by decide) (.refl s)).only (by decide))
  have hregs : RegsBut (accessRegs ++ eventRegs) s (s.mirrorOf (s.accessError a true)) := by
    rw [State.accessError_write a hs]
    refine regsBut_mirrorOf (Wrote.ite ?_ ?_).but
    · exact (hlatch.mono (fun _ => List.mem_append_left _)).raise _ _ _ (fun _ => List.mem_append_right _)
    · exact hlatch.mono (fun _ => List.mem_append_left _)
  have hrd : ∀ {f : Field}, Apart f 0 eventRegs → (s.mirrorOf (s.accessError a true)).rd f 0 = (s.latchWrite a).rd f 0 := by
    intro f hf
    rw [State.rd_mirrorOf, State.accessError_write a hs]
    split
    · exact ((Wrote.refl hlatch.wf).raise _ _ _ (fun _ hp => hp)).rd hf
    · rfl
  refine ⟨_, hexec, ?epo, (hrd ⟨rfl, by decide, by decide⟩).trans hcount, (hrd ⟨rfl, by decide, by decide⟩).trans haddr,
    (hrd ⟨rfl, by decide, by decide⟩).trans hwrite, fun hon => ?reports, fun hoff => ?silent, honly, hregs⟩
  case epo => rw [State.mirrorOf_epo, State.accessError_epo]
  case reports =>
    have hdata : a % 2 ^ 25 + 2 ^ 31 = a + 2 ^ 31 := by rw [Nat.mod_eq_of_lt (by omega)]
    rw [State.accessError_write a hs, if_pos hon, hdata]
    exact reports_then (hlatch.reports 0 (a + 2 ^ 31) (by decide) ⟨rfl, by decide, by decide⟩ rfl rfl rfl) (State.mirrorOf_evq s _)
  case silent =>
    rw [State.mirrorOf_evq, State.accessError_write a hs, hoff]
    rfl

/-! ### W1C bits, and a value outside its range (R13, R30) -/

/-- A W1C field: a 1 clears a bit, and a bit that the hardware sets in the same cycle stays set (R13). -/
theorem State.writeField_w1c {s : State} {f : Field} {i value hw : Nat} (h : f.acc = .w1c) :
    s.writeField f i value hw = s.wr f i ((s.rd f i &&& (2 ^ f.width - 1 - f.of value)) ||| f.of hw) := by
  unfold State.writeField
  rw [h]

/-- EPO_PIN_STAT: each of the two bits is cleared by a 1, unless the hardware sets it in the same cycle. -/
def State.clearPinStat (s : State) (v hw : Nat) : State :=
  ((s.markReg 0x3018 0 false).wr Reg.EPO_PIN_STAT.expired 0 ((s.rd Reg.EPO_PIN_STAT.expired 0 &&& (1 - v % 2)) ||| hw % 2)).wr
    Reg.EPO_PIN_STAT.refused 0 ((s.rd Reg.EPO_PIN_STAT.refused 0 &&& (1 - v / 2 % 2)) ||| hw / 2 % 2)

theorem State.hostWrite_pinStat {s : State} (v hw : Nat) (hs : tabWf 0 s.regs = true) :
    s.hostWrite 0x3018 4 15 v hw = s.clearPinStat v hw := by
  have hbit : ∀ x, x / 2 ^ 0 % 2 ^ 1 = x % 2 := fun x => by rw [Nat.pow_zero, Nat.div_one, Nat.pow_one]
  have htakes : ∀ g ∈ [Reg.EPO_PIN_STAT.expired, Reg.EPO_PIN_STAT.refused], s.fieldTakes g 0 (g.of v) = true := by
    intro g hg
    simp only [List.mem_cons, List.not_mem_nil, or_false] at hg
    rcases hg with rfl | rfl
    · exact State.fieldTakes_map (by decide) (Nat.zero_le _) (Nat.le_of_lt_succ (Nat.mod_lt _ (by decide)))
    · exact State.fieldTakes_map (by decide) (Nat.zero_le _) (Nat.le_of_lt_succ (Nat.mod_lt _ (by decide)))
  rw [State.hostWrite_writable v hw (by decide) (by decide) (by decide) rfl htakes]
  have hkept : ∀ x, ((s.markReg 0x3018 0 false).wr Reg.EPO_PIN_STAT.expired 0 x).rd Reg.EPO_PIN_STAT.refused 0
      = s.rd Reg.EPO_PIN_STAT.refused 0 :=
    fun x => State.rd_wr_off (s := s.markReg 0x3018 0 false) _ _ _ _ hs (by decide)
  rw [List.foldl_cons, List.foldl_cons, List.foldl_nil, State.writeField_w1c rfl, State.writeField_w1c rfl, hkept]
  unfold State.clearPinStat
  rw [← hbit v, ← hbit hw]
  rfl

/-- A staged value outside its field's range is discarded (R30). -/
theorem State.hostWrite_epoLen {s : State} {v : Nat} (hw : Nat) (h : v % 2 ^ 16 < 400 ∨ 40000 < v % 2 ^ 16) :
    s.hostWrite 0x3008 4 15 v hw = s.rejectWrite 0x3008 := by
  have hat : s.writeAtOnce 0x3008 v hw = s := by
    unfold State.writeAtOnce
    rw [show (fieldsAt 0x3008).filter writableField = [] by decide]
    rfl
  have hof : Reg.EPO_LEN.cycles.of v = v % 2 ^ 16 := by
    change v / 2 ^ 0 % 2 ^ 16 = _
    rw [Nat.pow_zero, Nat.div_one]
  have htakes : s.fieldTakes Reg.EPO_LEN.cycles (s.instOf Reg.EPO_LEN.cycles 0x3008) (Reg.EPO_LEN.cycles.of v) = false :=
    State.fieldTakes_outside (hof.symm ▸ h)
  rw [State.hostWrite_plain v hw (by decide) (by decide), hat]
  unfold State.stageRegister
  rw [show (fieldsAt 0x3008).filter (fun f => f.acc == .st) = [Reg.EPO_LEN.cycles] by decide]
  simp [htakes]

end Sys2Proof.Machine

/-! ## Benches in frames and extended points (R51, R54, R56)

What bringing a bench into a frame does to the extended points, and what a run of written points leaves. A bench that must make room can
poison points (R60), but only points of its own, and none while it is dirty. -/

namespace Sys2Proof.Machine

open Sys2Proof.Safety

/-! ### What paging leaves alone -/

/-- Images, staging area, epoch and the roll-up's place and fold epochs are the same in both states. -/
structure Paged (s t : State) : Prop where
  work : t.pts.work = s.pts.work
  pub : t.pts.pub = s.pts.pub
  pin : t.pts.pin = s.pts.pin
  opened : t.epo.opened = s.epo.opened
  fences : t.epo.fences = s.epo.fences
  k : t.epo.k = s.epo.k
  rollNext : t.epo.rollNext = s.epo.rollNext
  folds : t.epo.folds = s.epo.folds

namespace Paged

theorem refl (s : State) : Paged s s := ⟨rfl, rfl, rfl, rfl, rfl, rfl, rfl, rfl⟩

theorem trans {s t u : State} (h : Paged s t) (h' : Paged t u) : Paged s u :=
  ⟨h'.work.trans h.work, h'.pub.trans h.pub, h'.pin.trans h.pin, h'.opened.trans h.opened, h'.fences.trans h.fences, h'.k.trans h.k,
    h'.rollNext.trans h.rollNext, h'.folds.trans h.folds⟩

theorem foldl {α : Type} {f : State → α → State} (hf : ∀ s x, Paged s (f s x)) : ∀ (l : List α) (s : State), Paged s (l.foldl f s)
  | [], s => refl s
  | x :: l, s => (hf s x).trans (foldl hf l (f s x))

end Paged

theorem State.setExt_paged (s : State) (a : Nat) (x : Pt) : Paged s (s.setExt a x) := ⟨rfl, rfl, rfl, rfl, rfl, rfl, rfl, rfl⟩

theorem State.ext_setExt {s : State} {a : Nat} {x : Pt} (b : Nat) (h : tabWf Pt.clear s.pts.ext = true) :
    (s.setExt a x).ext b = if b = a then x else s.ext b := tabGet_tabSet h

/-! ### A bench that leaves its frame (R54) -/

/-- A value other than the default is found under its key, whatever the form of the list. -/
theorem tabGet_tabSet_value {α : Type} [DecidableEq α] {d v : α} (hv : v ≠ d) (k k' : Nat) : ∀ t : List (Nat × α),
    tabGet d (tabSet d t k v) k' = if k' = k then v else tabGet d t k'
  | [] => by
    unfold tabSet
    rw [if_neg hv]
    unfold tabGet
    split
    · rfl
    · simp [tabGet]
  | (j, w) :: t => by
    have ih := tabGet_tabSet_value hv k k' t
    unfold tabSet
    rw [if_neg hv, if_neg hv]
    split
    · next hkj =>
      subst hkj
      simp only [tabGet]
      split <;> rfl
    · split
      · next hne hlt =>
        by_cases hk : k' = k
        · simp [tabGet, hk]
        · by_cases hless : k' < k
          · simp [tabGet, hk, hless, show k' ≠ j by omega, show k' < j by omega]
          · simp [tabGet, hk, hless]
      · next hne hlt =>
        simp only [tabGet, ih]
        by_cases hk : k' = k
        · simp [hk, hne, hlt]
        · simp [hk]

/-- A poisoned point keeps its value, and no other changes. -/
theorem State.ext_poisonExt (s : State) (a b : Nat) : (s.poisonExt a).ext b = if b = a then ⟨(s.ext a).v, true⟩ else s.ext b :=
  tabGet_tabSet_value (fun h => Bool.noConfusion (congrArg Pt.bad h)) a b s.pts.ext

/-- Poisoning a list of extended points: each keeps its value, and no other changes. -/
theorem State.ext_poisonExts (b : Nat) : ∀ (l : List Nat) (s : State),
    (l.foldl (fun (s : State) a => s.poisonExt a) s).ext b = if b ∈ l then ⟨(s.ext b).v, true⟩ else s.ext b
  | [], s => rfl
  | a :: l, s => by
    rw [List.foldl_cons, State.ext_poisonExts b l, State.ext_poisonExt]
    by_cases ha : b = a
    · subst ha
      simp
    · simp [ha]

theorem State.epo_poisonExts : ∀ (l : List Nat) (s : State), (l.foldl (fun (s : State) a => s.poisonExt a) s).epo = s.epo
  | [], _ => rfl
  | a :: l, s => State.epo_poisonExts l (s.poisonExt a)

section Evicted

variable (s : State) (f : Frame)

/-- The words of the bench that went bad on the die are forgotten there. -/
def State.forgetBad (s : State) (f : Frame) : State :=
  { s with epo := { s.epo with dieBad := s.epo.dieBad.filter (fun a => !inBench f.bench a) } }

theorem State.evictBench_eq : s.evictBench f = if f.dirty then s.forgetBad f
    else (s.epo.dieBad.filter (inBench f.bench)).foldl (fun (s : State) a => s.poisonExt a) (s.forgetBad f) := rfl

theorem State.evictBench_paged : Paged s (s.evictBench f) := by
  have hforget : Paged s (s.forgetBad f) := ⟨rfl, rfl, rfl, rfl, rfl, rfl, rfl, rfl⟩
  rw [State.evictBench_eq]
  split
  · exact hforget
  · exact hforget.trans (Paged.foldl (fun s a => s.setExt_paged a _) _ _)

theorem State.evictBench_frames : (s.evictBench f).epo.frames = s.epo.frames ∧ (s.evictBench f).epo.rollFrame = s.epo.rollFrame := by
  rw [State.evictBench_eq]
  split
  · exact ⟨rfl, rfl⟩
  · rw [State.epo_poisonExts]
    exact ⟨rfl, rfl⟩

variable {s f}

theorem State.ext_evictBench_v (a : Nat) : ((s.evictBench f).ext a).v = (s.ext a).v := by
  rw [State.evictBench_eq]
  split
  · rfl
  · rw [State.ext_poisonExts a _ (s.forgetBad f)]
    split <;> rfl

/-- A dirty bench is written back, and a clean one poisons its own points only. -/
theorem State.ext_evictBench {a : Nat} (ha : f.dirty = true ∨ inBench f.bench a = false) : (s.evictBench f).ext a = s.ext a := by
  rw [State.evictBench_eq]
  split
  · rfl
  · next hclean =>
    have hout : inBench f.bench a = false := ha.resolve_left hclean
    rw [State.ext_poisonExts a _ (s.forgetBad f), if_neg (by simp [hout])]
    rfl

end Evicted

/-! ### A bench that comes into a frame (R54) -/

/-- Frames that hold these benches, least recently used first. -/
def State.withFrames (s : State) (fs : List Frame) : State := { s with epo := { s.epo with frames := fs } }

theorem State.withFrames_paged (s : State) (fs : List Frame) : Paged s (s.withFrames fs) := ⟨rfl, rfl, rfl, rfl, rfl, rfl, rfl, rfl⟩

/-- Everything `touchBench` can do: the bench moves to the end, is the roll-up's, takes a free frame, or the least recently used one. -/
inductive Touched (s : State) (b : Nat) (d : Bool) : State → Prop where
  | moved (f : Frame) (hf : f ∈ s.epo.frames) (hb : f.bench = b) :
      Touched s b d (s.withFrames ((s.epo.frames.filter (fun g => g.bench != b)) ++ [⟨f.frame, b, f.dirty || d⟩]))
  | rolled (hno : ∀ f ∈ s.epo.frames, f.bench ≠ b) (hroll : (s.frameOf b).isSome = true) :
      Touched s b d { s with epo := { s.epo with rollFrame := s.epo.rollFrame.map (fun f => ⟨f.frame, f.bench, f.dirty || d⟩) } }
  | free (i : Nat) (hno : ∀ f ∈ s.epo.frames, f.bench ≠ b) (hfree : freeFrame s.epo.frames = some i) :
      Touched s b d (s.withFrames (s.epo.frames ++ [⟨i, b, d⟩]))
  | evicted (f : Frame) (fs : List Frame) (hno : ∀ f ∈ s.epo.frames, f.bench ≠ b) (habsent : (s.frameOf b).isSome = false)
      (hfull : freeFrame s.epo.frames = none) (hfs : s.epo.frames = f :: fs) :
      Touched s b d ((s.evictBench f).withFrames (fs ++ [⟨f.frame, b, d⟩]))

theorem State.touchBench_touched (s : State) (b : Nat) (d : Bool) : Touched s b d (s.touchBench b d) := by
  unfold State.touchBench
  split
  · next f hf => exact .moved f (List.mem_of_find?_eq_some hf) (by simpa using List.find?_some hf)
  · next hnone =>
    have hno : ∀ f ∈ s.epo.frames, f.bench ≠ b := fun f hf => by simpa using List.find?_eq_none.mp hnone f hf
    split
    · next hroll => exact .rolled hno hroll
    · next habsent =>
      split
      · next fs i hfree => exact .free i hno hfree
      · next f fs hfull hfs => exact .evicted f fs hno (by simpa using habsent) hfull hfs
      · next hfull hnil =>
        rw [hnil] at hfull
        exact absurd hfull (by decide)

/-- With fewer than 47 benches a frame is free. -/
theorem freeFrame_isSome {fs : List Frame} (h : fs.length < 47) : freeFrame fs ≠ none := by
  intro hnone
  have hall : ∀ i ∈ List.range 47, i ∈ fs.map (·.frame) := by
    intro i hi
    have htaken : fs.any (fun f => f.frame == i) = true := by
      simpa only [Bool.not_eq_true', Bool.not_eq_false] using List.find?_eq_none.mp hnone i hi
    obtain ⟨f, hf, hi⟩ := List.any_eq_true.mp htaken
    exact List.mem_map.mpr ⟨f, hf, beq_iff_eq.mp hi⟩
  have hle := (List.nodup_range.subperm hall).length_le
  rw [List.length_range, List.length_map] at hle
  omega

theorem Touched.paged {s t : State} {b : Nat} {d : Bool} (h : Touched s b d t) : Paged s t := by
  cases h with
  | moved => exact s.withFrames_paged _
  | rolled => exact ⟨rfl, rfl, rfl, rfl, rfl, rfl, rfl, rfl⟩
  | free => exact s.withFrames_paged _
  | evicted => exact (s.evictBench_paged _).trans (State.withFrames_paged _ _)

/-- No value of an extended point changes. -/
theorem Touched.ext_v {s t : State} {b : Nat} {d : Bool} (h : Touched s b d t) (a : Nat) :
    (t.ext a).v = (s.ext a).v := by
  cases h with
  | evicted f fs => exact State.ext_evictBench_v a
  | moved => rfl
  | rolled => rfl
  | free => rfl

/-- Points of a bench that is dirty wherever it stands, or that is the one that comes, do not change. -/
theorem Touched.ext {s t : State} {b b' : Nat} {d : Bool} (h : Touched s b d t) {a : Nat}
    (ha : ∀ x, inBench x a = true → x = b') (hheld : b' = b ∨ ∀ f ∈ s.epo.frames, f.bench = b' → f.dirty = true) :
    t.ext a = s.ext a := by
  cases h with
  | evicted f fs hno habsent hfull hfs =>
    have hf : f ∈ s.epo.frames := by rw [hfs]; exact List.mem_cons_self
    refine State.ext_evictBench ?_
    by_cases hin : inBench f.bench a = true
    · have hb := ha _ hin
      rcases hheld with heq | hdirty
      · exact absurd (hb.trans heq) (hno f hf)
      · exact .inl (hdirty f hf hb)
    · exact .inr (by simpa using hin)
  | moved => rfl
  | rolled => rfl
  | free => rfl

/-- The bench stands in a frame now. -/
theorem Touched.resident {s t : State} {b : Nat} {d : Bool} (h : Touched s b d t) : (t.frameOf b).isSome = true := by
  have hlast : ∀ (u : State) (fs : List Frame) (x : Frame), x.bench = b → ((u.withFrames (fs ++ [x])).frameOf b).isSome = true := by
    intro u fs x hx
    have hfound : ((fs ++ [x]).find? (fun f => f.bench == b)).isSome = true :=
      List.find?_isSome.mpr ⟨x, List.mem_append_right _ List.mem_cons_self, by simp [hx]⟩
    obtain ⟨f, hf⟩ := Option.isSome_iff_exists.mp hfound
    unfold State.frameOf
    change (match (fs ++ [x]).find? (fun f => f.bench == b) with | some f => some f | none => _ : Option Frame).isSome = true
    rw [hf]
    rfl
  cases h with
  | moved f => exact hlast _ _ _ rfl
  | free i => exact hlast _ _ _ rfl
  | evicted f fs => exact hlast _ _ _ rfl
  | rolled hno hroll =>
    have hnone : s.epo.frames.find? (fun f => f.bench == b) = none := List.find?_eq_none.mpr fun f hf => by simpa using hno f hf
    unfold State.frameOf at hroll ⊢
    rw [hnone] at hroll ⊢
    cases hr : s.epo.rollFrame with
    | none => rw [hr] at hroll; exact absurd hroll (by simp)
    | some f =>
      rw [hr] at hroll
      simp only [Option.map_some] at hroll ⊢
      split at hroll
      · next hb => rw [if_pos hb]; rfl
      · exact absurd hroll (by simp)

/-- A bench that is resident, or for which a frame is free, comes without another having to leave. -/
def State.Roomy (s : State) (b : Nat) : Prop := (s.frameOf b).isSome = true ∨ s.epo.frames.length < 47

/-- Residents of either kind of frame. -/
theorem State.frameOf_isSome {s : State} {b : Nat} :
    (s.frameOf b).isSome = true ↔ (∃ f ∈ s.epo.frames, f.bench = b) ∨ (∃ f, s.epo.rollFrame = some f ∧ f.bench = b) := by
  unfold State.frameOf
  cases hfind : s.epo.frames.find? (fun f => f.bench == b) with
  | some f => exact ⟨fun _ => .inl ⟨f, List.mem_of_find?_eq_some hfind, by simpa using List.find?_some hfind⟩, fun _ => rfl⟩
  | none =>
    have hno : ¬ ∃ f ∈ s.epo.frames, f.bench = b := fun ⟨f, hf, hb⟩ => List.find?_eq_none.mp hfind f hf (by simpa using hb)
    cases hroll : s.epo.rollFrame with
    | none => simp only [Option.isSome_none, Bool.false_eq_true, false_iff]; rintro (h | ⟨f, h, -⟩); exacts [hno h, nomatch h]
    | some f =>
      by_cases hb : f.bench = b
      · simp [hb]
      · simp only [if_neg hb, Option.isSome_none, Bool.false_eq_true, false_iff]
        rintro (h | ⟨g, hg, hgb⟩)
        · exact hno h
        · exact hb (Option.some.inj hg ▸ hgb)

/-- Where there is room, no other bench leaves, no point changes, and at most one frame more is taken. -/
theorem Touched.roomy {s t : State} {b : Nat} {d : Bool} (h : Touched s b d t) (hroom : s.Roomy b) :
    t.pts = s.pts ∧ (∀ x, (s.frameOf x).isSome = true → (t.frameOf x).isSome = true)
      ∧ t.epo.frames.length ≤ s.epo.frames.length + 1 := by
  have hres := h.resident
  cases h with
  | moved f hf hb =>
    refine ⟨rfl, fun x hx => ?_, ?_⟩
    · by_cases hxb : x = b
      · exact hxb ▸ hres
      · rcases State.frameOf_isSome.mp hx with ⟨g, hg, hgx⟩ | hroll
        · exact State.frameOf_isSome.mpr (.inl ⟨g, List.mem_append_left _ (List.mem_filter.mpr ⟨hg, by simpa [hgx] using hxb⟩), hgx⟩)
        · exact State.frameOf_isSome.mpr (.inr hroll)
    · have := List.length_filter_le (fun g : Frame => g.bench != b) s.epo.frames
      simpa [State.withFrames] using this
  | rolled =>
    refine ⟨rfl, fun x hx => State.frameOf_isSome.mpr ?_, Nat.le_succ _⟩
    rcases State.frameOf_isSome.mp hx with hg | ⟨g, hg, hgx⟩
    · exact .inl hg
    · exact .inr ⟨⟨g.frame, g.bench, g.dirty || d⟩, by simp [hg], hgx⟩
  | free i =>
    refine ⟨rfl, fun x hx => State.frameOf_isSome.mpr ?_, by simp [State.withFrames]⟩
    rcases State.frameOf_isSome.mp hx with ⟨g, hg, hgx⟩ | hroll
    · exact .inl ⟨g, List.mem_append_left _ hg, hgx⟩
    · exact .inr hroll
  | evicted f fs hno habsent hfull hfs =>
    rcases hroom with hthere | hlt
    · rw [habsent] at hthere; exact absurd hthere Bool.false_ne_true
    · exact absurd hfull (freeFrame_isSome hlt)

/-- A touch for a write leaves every bench dirty that was, and the one that it brings. -/
theorem Touched.dirty {s t : State} {b : Nat} (h : Touched s b true t) (x : Nat)
    (hx : x = b ∨ ∀ f ∈ s.epo.frames, f.bench = x → f.dirty = true) : ∀ f ∈ t.epo.frames, f.bench = x → f.dirty = true := by
  have hkeep : ∀ fs : List Frame, (∀ f ∈ fs, f ∈ s.epo.frames) → (∀ f ∈ fs, f.bench ≠ b) → ∀ (y : Frame), y.dirty = true →
      ∀ f ∈ fs ++ [y], f.bench = x → f.dirty = true := by
    intro fs hsub hfree y hy f hf hfx
    rcases List.mem_append.mp hf with hf | hf
    · rcases hx with rfl | hx
      · exact absurd hfx (hfree f hf)
      · exact hx f (hsub f hf) hfx
    · rw [List.mem_singleton.mp hf]; exact hy
  cases h with
  | moved f hf hb =>
    exact hkeep _ (fun g hg => List.mem_of_mem_filter hg) (fun g hg => by simpa using (List.mem_filter.mp hg).2) _ (by simp)
  | rolled hno =>
    intro f hf hfx
    rcases hx with rfl | hx
    · exact absurd hfx (hno f hf)
    · exact hx f hf hfx
  | free i hno => exact hkeep _ (fun _ hg => hg) hno _ rfl
  | evicted f fs hno habsent hfull hfs =>
    have hsub : ∀ g ∈ fs, g ∈ s.epo.frames := fun g hg => by rw [hfs]; exact List.mem_cons_of_mem _ hg
    exact hkeep fs hsub (fun g hg => hno g (hsub g hg)) _ rfl

/-! ### Written points (R51) -/

/-- One extended point is written: its bench comes into a frame, dirty, the point takes the value, and the write is noted. -/
def State.writePoint (s : State) (c q v : Nat) : State :=
  ((s.touchBench (benchOf c q) true).setExt (extPos c q) ⟨v % 2 ^ 64, false⟩).noteWrite (extPos c q) (v % 2 ^ 64)

theorem State.writeExt_cons (s : State) (c q v : Nat) (l : List (PointKey × Nat)) :
    s.writeExt ((.cell c q, v) :: l) = (s.writePoint c q v).writeExt l := rfl

/-- An extended point lies in one bench (R53). -/
theorem inBench_extPos {c q x : Nat} (hq : q < 64) : inBench x (extPos c q) = true ↔ x = benchOf c q := by
  have hlo : (c * 64 + q) % 64 = q := by omega
  have hhi : (c * 64 + q) / 64 = c := by omega
  unfold inBench extPos benchOf
  rw [hlo, hhi, beq_iff_eq, eq_comm]

section WritePoint

variable {s : State} {c q : Nat} (v : Nat)

theorem State.writePoint_paged : Paged s (s.writePoint c q v) :=
  (s.touchBench_touched (benchOf c q) true).paged.trans ⟨rfl, rfl, rfl, rfl, rfl, rfl, rfl, rfl⟩

theorem State.writePoint_keeps : Keeps 0xc0 s (s.writePoint c q v) :=
  State.noteWrite_keeps (by decide) (State.setExt_keeps (by decide) (State.touchBench_keeps (by decide) (.refl s)))

/-- The bench of a written point is dirty wherever it stands, and so is every bench that was. -/
theorem State.writePoint_dirty (x : Nat) (hx : x = benchOf c q ∨ ∀ f ∈ s.epo.frames, f.bench = x → f.dirty = true) :
    ∀ f ∈ (s.writePoint c q v).epo.frames, f.bench = x → f.dirty = true :=
  (s.touchBench_touched (benchOf c q) true).dirty x hx

theorem State.writePoint_roomy (hroom : s.Roomy (benchOf c q)) :
    ((s.writePoint c q v).frameOf (benchOf c q)).isSome = true
      ∧ (∀ x, (s.frameOf x).isSome = true → ((s.writePoint c q v).frameOf x).isSome = true)
      ∧ (s.writePoint c q v).epo.frames.length ≤ s.epo.frames.length + 1 := by
  have htouch := s.touchBench_touched (benchOf c q) true
  obtain ⟨-, hres, hlen⟩ := htouch.roomy hroom
  exact ⟨htouch.resident, hres, hlen⟩

variable (hs : Sound s)
include hs

theorem State.touchBench_ext_wf (b : Nat) (d : Bool) : tabWf Pt.clear (s.touchBench b d).pts.ext = true :=
  ((State.touchBench_keeps (M := 0xc0) (by decide) (.refl s)).sound hs).points.2.2.2

theorem State.ext_writePoint (a : Nat) : (s.writePoint c q v).ext a
    = if a = extPos c q then ⟨v % 2 ^ 64, false⟩ else (s.touchBench (benchOf c q) true).ext a :=
  State.ext_setExt a (State.touchBench_ext_wf hs _ _)

/-- A point of a bench that is dirty wherever it stands is not changed by the write of another. -/
theorem State.ext_writePoint_dirty {p : Nat} (hp : p < 64) (hne : p ≠ q)
    (hheld : ∀ f ∈ s.epo.frames, f.bench = benchOf c p → f.dirty = true) :
    (s.writePoint c q v).ext (extPos c p) = s.ext (extPos c p) := by
  have hpos : extPos c p ≠ extPos c q := by unfold extPos; omega
  rw [State.ext_writePoint v hs, if_neg hpos]
  exact (s.touchBench_touched _ _).ext (fun x hx => (inBench_extPos hp).mp hx) (.inr hheld)

theorem State.ext_writePoint_v {a : Nat} (ha : a ≠ extPos c q) : ((s.writePoint c q v).ext a).v = (s.ext a).v := by
  rw [State.ext_writePoint v hs, if_neg ha]
  exact (s.touchBench_touched _ _).ext_v a

theorem State.ext_writePoint_roomy {a : Nat} (ha : a ≠ extPos c q) (hroom : s.Roomy (benchOf c q)) :
    (s.writePoint c q v).ext a = s.ext a := by
  rw [State.ext_writePoint v hs, if_neg ha, State.ext, ((s.touchBench_touched _ _).roomy hroom).1]
  rfl

end WritePoint

/-- The points of a cell from `p` on with their values. -/
def cellRun (c p : Nat) (vals : List Nat) : List (PointKey × Nat) := ((List.range' p vals.length).map (PointKey.cell c)).zip vals

theorem cellRun_cons (c p v : Nat) (vals : List Nat) : cellRun c p (v :: vals) = (.cell c p, v) :: cellRun c (p + 1) vals := by
  unfold cellRun
  simp [List.range'_succ]

/-- The frames hold or have room for the benches of a run. -/
def State.RoomFor (s : State) (c p n : Nat) : Prop :=
  s.epo.frames.length + n ≤ 47 ∨ ∀ i, i < n → (s.frameOf (benchOf c (p + i))).isSome = true

/-- What a run of written points of one cell leaves. -/
structure RunWritten (c p : Nat) (vals : List Nat) (s t : State) : Prop where
  paged : Paged s t
  written : ∀ i, i < vals.length → t.ext (extPos c (p + i)) = ⟨vals.getD i 0 % 2 ^ 64, false⟩
  values : ∀ a, (∀ i, i < vals.length → a ≠ extPos c (p + i)) → (t.ext a).v = (s.ext a).v
  before : ∀ q, q < p → (∀ f ∈ s.epo.frames, f.bench = benchOf c q → f.dirty = true) → t.ext (extPos c q) = s.ext (extPos c q)
  roomy : s.RoomFor c p vals.length →
    (∀ a, (∀ i, i < vals.length → a ≠ extPos c (p + i)) → t.ext a = s.ext a)
      ∧ (∀ x, (s.frameOf x).isSome = true → (t.frameOf x).isSome = true)
      ∧ ∀ i, i < vals.length → (t.frameOf (benchOf c (p + i))).isSome = true

theorem State.writeExt_run {c : Nat} : ∀ (vals : List Nat) (p : Nat) (s : State), Sound s → p + vals.length ≤ 64 →
    RunWritten c p vals s (s.writeExt (cellRun c p vals)) := by
  intro vals
  induction vals with
  | nil =>
    intro p s hs hp
    exact ⟨.refl s, fun i hi => absurd hi (Nat.not_lt_zero i), fun _ _ => rfl, fun _ _ _ => rfl,
      fun _ => ⟨fun _ _ => rfl, fun _ hx => hx, fun i hi => absurd hi (Nat.not_lt_zero i)⟩⟩
  | cons v vs ih =>
    intro p s hs hp
    rw [List.length_cons] at hp
    have hnext := ih (p + 1) (s.writePoint c p v) ((State.writePoint_keeps v).sound hs) (by omega)
    have hdirty := State.writePoint_dirty (s := s) (c := c) (q := p) v
    rw [cellRun_cons, State.writeExt_cons]
    have hrest : ∀ {a : Nat}, (∀ i, i < (v :: vs).length → a ≠ extPos c (p + i)) →
        a ≠ extPos c p ∧ ∀ i, i < vs.length → a ≠ extPos c (p + 1 + i) := by
      intro a ha
      refine ⟨ha 0 (Nat.zero_lt_succ _), fun i hi => ?_⟩
      rw [Nat.add_assoc, Nat.add_comm 1 i]
      exact ha (i + 1) (Nat.succ_lt_succ hi)
    refine ⟨(State.writePoint_paged v).trans hnext.paged, ?written, ?values, ?before, ?roomy⟩
    case written =>
      intro i hi
      cases i with
      | zero =>
        refine (hnext.before p (Nat.lt_succ_self p) (hdirty _ (.inl rfl))).trans ?_
        exact (State.ext_writePoint v hs _).trans (if_pos rfl)
      | succ i =>
        rw [← Nat.add_assoc, Nat.add_right_comm]
        exact hnext.written i (Nat.lt_of_succ_lt_succ hi)
    case values =>
      intro a ha
      obtain ⟨hfirst, hothers⟩ := hrest ha
      rw [hnext.values a hothers, State.ext_writePoint_v v hs hfirst]
    case before =>
      intro q hq hheld
      rw [hnext.before q (by omega) (hdirty _ (.inr hheld)), State.ext_writePoint_dirty v hs (by omega) (by omega) hheld]
    case roomy =>
      intro hroom
      have hfirst : s.Roomy (benchOf c p) := by
        rcases hroom with hlen | hres
        · exact .inr (by rw [List.length_cons] at hlen; omega)
        · exact .inl (hres 0 (Nat.zero_lt_succ _))
      obtain ⟨hthere, hkept, hlen⟩ := State.writePoint_roomy v hfirst
      have hroom' : (s.writePoint c p v).RoomFor c (p + 1) vs.length := by
        rcases hroom with h | hres
        · exact .inl (by rw [List.length_cons] at h; omega)
        · refine .inr fun i hi => hkept _ ?_
          rw [Nat.add_assoc, Nat.add_comm 1 i]
          exact hres (i + 1) (Nat.succ_lt_succ hi)
      obtain ⟨hothers, hkept', hthere'⟩ := hnext.roomy hroom'
      refine ⟨fun a ha => ?_, fun x hx => hkept' x (hkept x hx), fun i hi => ?_⟩
      · obtain ⟨hne, hne'⟩ := hrest ha
        rw [hothers a hne', State.ext_writePoint_roomy v hs hne hfirst]
      · cases i with
        | zero => exact hkept' _ hthere
        | succ i =>
          rw [← Nat.add_assoc, Nat.add_right_comm]
          exact hthere' i (Nat.lt_of_succ_lt_succ hi)

/-! ### EXTENDED_POINT_WRITE (R51) -/

theorem pointAt_cell {c p : Nat} (hc : c < 16384) (hp : p < 64) : pointAt (0x800000 + 512 * c + 8 * p) = some (.cell c p) := by
  have hcell : (0x800000 + 512 * c + 8 * p - 0x800000) / 512 = c := by omega
  have hpoint : (0x800000 + 512 * c + 8 * p - 0x800000) / 8 % 64 = p := by omega
  unfold pointAt
  rw [if_neg (by omega), if_pos (by omega), hcell, hpoint]

/-- A run of points of one cell. -/
theorem pointRun_cell {c : Nat} (hc : c < 16384) : ∀ (n p : Nat), p + n ≤ 64 →
    pointRun (0x800000 + 512 * c + 8 * p) n = some ((List.range' p n).map (.cell c)) := by
  intro n
  induction n with
  | zero => intro p _; rfl
  | succ n ih =>
    intro p h
    have hnext : 0x800000 + 512 * c + 8 * p + 8 = 0x800000 + 512 * c + 8 * (p + 1) := by omega
    unfold pointRun
    rw [pointAt_cell hc (by omega), hnext, ih (p + 1) (by omega)]
    rfl

/-- What holds of each point number of a run holds of all points of the run. -/
theorem all_range'_cell {c p n : Nat} {ok : Nat → Bool} (h : ∀ i, i < n → ok (p + i) = true) :
    ((List.range' p n).map (PointKey.cell c)).all (fun x => match x with | .cell _ q => ok q | .station _ => false) = true := by
  rw [List.all_map, List.all_eq_true]
  intro q hq
  obtain ⟨hle, hlt⟩ := List.mem_range'_1.mp hq
  obtain ⟨i, rfl⟩ := Nat.exists_eq_add_of_le hle
  exact h i (by omega)

theorem exec_extendedPointWrite {s u : State} {addr len : Nat} {allEnabled : Bool} {vals : List Nat} (hup : HostUp s)
    (h : s.extWrite addr len allEnabled vals = u) : exec (.extendedPointWrite addr len allEnabled vals) s = .next u := by
  rw [← h]
  exact exec_of_byHost (f := fun s => .next (s.extWrite addr len allEnabled vals)) rfl hup

/-- The run's words are asked for, then written. -/
theorem State.extWrite_run {s : State} {c p : Nat} {vals : List Nat} (hc : c < 16384) (hp : p + vals.length ≤ 64) (hne : vals ≠ [])
    (hlen : vals.length ≤ 32) (hok : ∀ i, i < vals.length → extWritable (p + i) = true) :
    s.extWrite (0x800000 + 512 * c + 8 * p) (8 * vals.length) true vals
      = (s.askPoints 80 ((List.range' p vals.length).map (.cell c))).writeExt (cellRun c p vals) := by
  have hpos : 1 ≤ vals.length := List.length_pos_iff.mpr hne
  have hshape : pointWriteShaped (0x800000 + 512 * c + 8 * p) (8 * vals.length) true = true :=
    pointWriteShaped_whole (by omega) hpos (by simp only [Config.maxPayload]; omega)
  unfold State.extWrite
  rw [hshape, if_neg (by decide), Nat.mul_div_cancel_left _ (by decide), pointRun_cell hc _ _ hp]
  dsimp only
  exact if_pos (all_range'_cell hok)

/-- A point that may not be written is discarded (R30). -/
theorem State.extWrite_refused {s : State} {c p v : Nat} (hc : c < 16384) (hp : p < 64) (hno : extWritable p = false) :
    s.extWrite (0x800000 + 512 * c + 8 * p) 8 true [v] = s.rejectWrite (0x800000 + 512 * c + 8 * p) := by
  have hshape : pointWriteShaped (0x800000 + 512 * c + 8 * p) 8 true = true :=
    pointWriteShaped_whole (n := 1) (by omega) (by decide) (by decide)
  unfold State.extWrite
  rw [hshape, if_neg (by decide), show 8 / 8 = 1 from rfl, pointRun_cell hc 1 p (by omega)]
  dsimp only
  refine if_neg ?_
  simp [List.range'_succ, hno]

end Sys2Proof.Machine

namespace Sys2Proof.Proofs

open Sys2Proof Sys2Proof.Machine Sys2Proof.Safety

/-- Settles O16: a register write comes to the fields that it changes, a discarded one to its report, and a run of extended points to
`writeExt_run`. -/
theorem hostWritesAct : Obligations.HostWritesAct := by
  refine ⟨fun s v hw hs hup => ?registers, fun s c p v hs hup hc hlow hp => ?points⟩
  case registers =>
    intro whole
    refine ⟨fun f hf => ?rw, ?w1c, fun hrange => ?outside, fun addr len be haddr hmsix hshape => ?shape⟩
    case rw =>
      have hone : OneRw f := by
        simp only [List.mem_cons, List.not_mem_nil, or_false] at hf
        rcases hf with rfl | rfl | rfl | rfl | rfl | rfl | rfl | rfl | rfl | rfl | rfl | rfl | rfl | rfl <;> constructor <;> decide
      exact State.registerWrite_oneRw v hw hone hup hs.regs
    case w1c =>
      have h1 : tabWf 0 ((s.markReg 0x3018 0 false).wr Reg.EPO_PIN_STAT.expired 0
          ((s.rd Reg.EPO_PIN_STAT.expired 0 &&& (1 - v % 2)) ||| hw % 2)).regs = true :=
        State.regs_wr (s := s.markReg 0x3018 0 false) _ _ _ hs.regs
      have hwrote : Wrote [(Reg.EPO_PIN_STAT.expired, 0), (Reg.EPO_PIN_STAT.refused, 0)] s (s.clearPinStat v hw) :=
        (((Wrote.refl hs.regs).same (u := s.markReg 0x3018 0 false) rfl).wr _ (by simp)).wr _ (by simp)
      refine ⟨_, exec_registerWrite hup (State.hostWrite_pinStat v hw hs.regs), ?_, ?_, State.mirrorOf_epo s _, State.mirrorOf_only ?_,
        regsBut_mirrorOf hwrote.but⟩
      · exact State.rd_mirrorOf.trans ((State.rd_wr_off _ _ _ _ h1 (by decide)).trans
          (State.rd_wr_self (s := s.markReg 0x3018 0 false) _ _ _ hs.regs))
      · exact State.rd_mirrorOf.trans (State.rd_wr_self _ _ _ h1)
      · exact only_trans (only_mono (by simp) (only_epo s _)) (only_mono (by simp) (only_trans (State.wr_only _ _ _ _)
          (State.wr_only _ _ _ _)))
    case outside =>
      obtain ⟨hcount, hreports, honly, hregs⟩ := State.rejectWrite_effect 0x3008 hs.regs
      exact ⟨_, exec_registerWrite hup (State.hostWrite_epoLen hw hrange), (State.mirrorOf_epo s _).trans (State.rejectWrite_epo ..),
        State.rd_mirrorOf.trans hcount, reports_then hreports (State.mirrorOf_evq s _), State.mirrorOf_only honly, regsBut_mirrorOf hregs⟩
    case shape =>
      have hout : inMsix addr = false := by
        simp only [inMsix, Bool.and_eq_false_iff, decide_eq_false_iff_not]
        omega
      exact State.registerWrite_misshaped v hw hup hs.regs haddr hout hshape
  case points =>
    intro addr
    refine ⟨fun vals hne hlen hin hok => ?written, fun hno => ?refused⟩
    case written =>
      have hask : Keeps 0x200000000 s (s.askPoints 80 ((List.range' p vals.length).map (.cell c))) :=
        State.askPoints_keeps (by decide) (.refl s)
      have hrun := State.writeExt_run (c := c) vals p (s.askPoints 80 ((List.range' p vals.length).map (.cell c))) (hask.sound hs) hin
      refine ⟨_, exec_extendedPointWrite hup (State.extWrite_run hc hin hne hlen hok), hrun.written, fun a ha => ?values, hrun.paged.work,
        hrun.paged.pub, hrun.paged.pin, hrun.paged.opened, hrun.paged.fences, ?only, fun hroom => ?roomy⟩
      case values =>
        by_cases hin : ∃ i, i < vals.length ∧ a = extPos c (p + i)
        · exact .inr hin
        · exact .inl (hrun.values a fun i hi he => hin ⟨i, hi, he⟩)
      case only =>
        exact (State.writeExt_keeps (M := 0x2000000c0) (by decide) (State.askPoints_keeps (by decide) (.refl s))).only (by decide)
      case roomy =>
        have hroom' : (s.askPoints 80 ((List.range' p vals.length).map (.cell c))).RoomFor c p vals.length := hroom
        obtain ⟨hothers, -, hthere⟩ := hrun.roomy hroom'
        exact ⟨hothers, hthere⟩
    case refused =>
      exact ⟨_, exec_extendedPointWrite hup (State.extWrite_refused hc hp hno), State.rejectWrite_effect _ hs.regs⟩

end Sys2Proof.Proofs

/-! ## BENCH_LOADED and ROLLUP_FOLD (R54 to R57) -/

namespace Sys2Proof.Machine

open Sys2Proof.Safety

/-! ### A read that waited for its bench (R54) -/

/-- A bench that the memory die delivers whole stands in a frame. -/
abbrev State.loadBench (s : State) (b : Nat) : State := (s.touchBench b false).askBench 84

/-- No read waits. -/
def State.dropWaits (s : State) : State := { s with epo := { s.epo with waits := [] } }

theorem exec_benchLoaded (s : State) (b : Fin 192) :
    exec (.benchLoaded b []) s = .next ((s.loadBench b.val).dropWaits.serveWaits (s.loadBench b.val).epo.waits) := rfl

/-- Paging leaves the reads that wait. -/
theorem Touched.waits {s t : State} {b : Nat} {d : Bool} (h : Touched s b d t) : t.epo.waits = s.epo.waits := by
  cases h with
  | moved => rfl
  | rolled => rfl
  | free => rfl
  | evicted f fs =>
    change (s.evictBench f).epo.waits = s.epo.waits
    rw [State.evictBench_eq]
    split
    · rfl
    · rw [State.epo_poisonExts]
      rfl

/-- A read of one extended point whose bench stands in a frame completes with the point. -/
theorem State.serveWaits_resident {s : State} {req c p : Nat} (hc : c < 16384) (hlow : 16 ≤ p) (hhigh : p < 63)
    (hres : (s.frameOf (benchOf c p)).isSome = true) :
    s.serveWaits [⟨req, 0x800000 + 512 * c + 8 * p, 8, [none]⟩]
      = s.completeRead req (0x800000 + 512 * c + 8 * p) [s.ext (extPos c p)] := by
  have hrun : pointRun (0x800000 + 512 * c + 8 * p) (8 / 8) = some [.cell c p] := pointRun_cell hc 1 p (by omega)
  have hhere : s.benchMissing (.cell c p) = none := by
    unfold State.benchMissing
    dsimp only
    rw [if_neg (Nat.not_lt.mpr hlow), if_pos hres]
  have hpoint : s.hostPoint (.cell c p) = s.ext (extPos c p) := by
    unfold State.hostPoint
    dsimp only
    rw [if_neg (by omega), if_neg (by omega)]
  have htake : s.takeRead [.cell c p] [none] = [some (s.ext (extPos c p))] := by
    simp [State.takeRead, hhere, hpoint]
  unfold State.serveWaits
  simp only [hrun, htake]
  rfl

/-! ### The roll-up (R56) -/

/-- A fold touches extended points and accumulators: what paging leaves alone, and the frames. -/
structure Folded (s t : State) : Prop where
  paged : Paged s t
  frames : t.epo.frames = s.epo.frames
  rollFrame : t.epo.rollFrame = s.epo.rollFrame

namespace Folded

theorem refl (s : State) : Folded s s := ⟨.refl s, rfl, rfl⟩

theorem trans {s t u : State} (h : Folded s t) (h' : Folded t u) : Folded s u :=
  ⟨h.paged.trans h'.paged, h'.frames.trans h.frames, h'.rollFrame.trans h.rollFrame⟩

theorem foldl {α : Type} {f : State → α → State} (hf : ∀ s x, Folded s (f s x)) : ∀ (l : List α) (s : State), Folded s (l.foldl f s)
  | [], s => refl s
  | x :: l, s => (hf s x).trans (foldl hf l (f s x))

theorem ite {s t u : State} {c : Prop} [Decidable c] (ht : Folded s t) (hu : Folded s u) : Folded s (if c then t else u) := by
  split <;> assumption

/-- A state that differs in extended points, accumulators and means alone. -/
theorem upd (s : State) (ext : List (Nat × Pt)) (accs : List (Nat × Acc)) (means : List (Nat × Mean)) :
    Folded s { s with pts := { s.pts with ext := ext }, epo := { s.epo with accs := accs, means := means } } :=
  ⟨⟨rfl, rfl, rfl, rfl, rfl, rfl, rfl, rfl⟩, rfl, rfl⟩

end Folded

theorem State.foldPoint_folded (s : State) (c p : Nat) : Folded s (s.foldPoint c p) := by
  unfold State.foldPoint
  dsimp only
  repeat' first
    | with_reducible refine Folded.ite ?_ ?_
    | split
  all_goals exact Folded.upd s _ _ _

theorem State.rewriteExt_folded (s : State) (b : Nat) : Folded s (s.rewriteExt b) := by
  unfold State.rewriteExt
  split
  · refine Folded.foldl (fun u x => ?_) _ _
    split
    · exact Folded.upd u _ _ _
    · exact .refl u
  · exact .refl s

theorem State.frameOf_folded {s t : State} (h : Folded s t) (b : Nat) : t.frameOf b = s.frameOf b := by
  unfold State.frameOf
  rw [h.frames, h.rollFrame]

/-- The bench that is folded stands in a frame. -/
theorem State.rollBench_effect (s : State) (b : Nat) : Paged s (s.rollBench b) ∧ ((s.rollBench b).frameOf b).isSome = true := by
  unfold State.rollBench
  split
  · have h := s.touchBench_touched b true
    exact ⟨h.paged, h.resident⟩
  · refine ⟨?_, State.frameOf_isSome.mpr (.inr ⟨⟨47, b, true⟩, rfl, rfl⟩)⟩
    have hroll : ∀ u : State, Paged u { u with epo := { u.epo with rollFrame := some ⟨47, b, true⟩ } } :=
      fun u => ⟨rfl, rfl, rfl, rfl, rfl, rfl, rfl, rfl⟩
    cases s.epo.rollFrame with
    | none => exact hroll s
    | some f =>
      dsimp only
      split
      · exact hroll s
      · exact (s.evictBench_paged f).trans (hroll _)

/-- The bench folded, before the fold epoch shows. -/
def State.foldBench (s : State) : State :=
  (((s.rollBench s.epo.rollNext).configuredCells.filter (fun c => c / 4096 == s.epo.rollNext % 4)).foldl
    (fun u c => u.foldPoint c (16 + s.epo.rollNext / 4)) (s.rollBench s.epo.rollNext)).rewriteExt s.epo.rollNext

theorem State.rollup_eq (s : State) : s.rollup [] = { s.foldBench with epo := { s.foldBench.epo with
    folds := tabSet 0 s.foldBench.epo.folds s.epo.rollNext (s.foldBench.epo.k % 2 ^ 24)
    rollNext := (s.epo.rollNext + 1) % 192 } } := rfl

theorem State.foldBench_only (s : State) : Only [.free, .epo, .pts] s s.foldBench :=
  (State.rewriteExt_keeps (M := 0xc4) (by decide) (Keeps.foldl (State.rollBench_keeps (by decide) (.refl s))
    (fun _ _ h => State.foldPoint_keeps (by decide) h))).only (by decide)

theorem exec_rollupFold_off {s : State} (h : s.flag Reg.EPO_CTRL.rollup_enable 0 = false) : exec (.rollupFold []) s = .next s := by
  change execRollupFold [] s = _
  unfold execRollupFold
  exact congrArg _ (if_neg (by simp [h]))

theorem exec_rollupFold_on {s : State} (h : s.flag Reg.EPO_CTRL.rollup_enable 0 = true) :
    exec (.rollupFold []) s = .next ((s.rollup []).askBench 82) := by
  change execRollupFold [] s = _
  unfold execRollupFold
  exact congrArg _ (if_pos h)

end Sys2Proof.Machine

namespace Sys2Proof.Proofs

open Sys2Proof Sys2Proof.Machine Sys2Proof.Safety

/-- Settles O17: a loaded bench is resident, so the read completes; a fold keeps what `Folded` says on top of the bench's frame. -/
theorem benchFrames : Obligations.BenchFrames := by
  refine ⟨fun s c p req b hc hlow hhigh hb hwaits => ?loaded, fun s => ⟨exec_rollupFold_off, fun hon => ?fold⟩⟩
  case loaded =>
    have htouch := s.touchBench_touched b.val false
    have hsame : ∀ x, inBench x (extPos c p) = true → x = b.val := fun x hx => ((inBench_extPos (by omega)).mp hx).trans hb.symm
    have hext : (s.loadBench b.val).ext (extPos c p) = s.ext (extPos c p) := htouch.ext hsame (.inl rfl)
    have hwait : (s.loadBench b.val).epo.waits = s.epo.waits := htouch.waits
    have hexec : exec (.benchLoaded b []) s = .next ((s.loadBench b.val).dropWaits.completeRead req (0x800000 + 512 * c + 8 * p)
        [s.ext (extPos c p)]) := by
      rw [exec_benchLoaded, hwait, hwaits]
      refine congrArg _ ((State.serveWaits_resident (s := (s.loadBench b.val).dropWaits) hc hlow hhigh ?_).trans ?_)
      · rw [← hb]; exact htouch.resident
      · rw [← hext]; rfl
    refine ⟨_, hexec, htouch.resident, rfl, ?answer, ?only⟩
    case answer =>
      change some _ = some _
      simp
    case only =>
      have hdrop : Only [.epo] (s.loadBench b.val) (s.loadBench b.val).dropWaits := only_epo _ _
      exact only_trans (only_mono (by simp) ((State.askBench_keeps (M := 0x2000000c0) (by decide) (State.touchBench_keeps (by decide)
        (.refl s))).only (l := [.epo, .pts, .arb]) (by decide))) (only_trans (only_mono (by simp) hdrop)
        ((State.completeRead_keeps (M := 0x400) (by decide) (.refl _)).only (by decide)))
  case fold =>
    obtain ⟨hpaged, hres⟩ := s.rollBench_effect s.epo.rollNext
    have hfold : Folded (s.rollBench s.epo.rollNext) s.foldBench :=
      (Folded.foldl (fun u c => u.foldPoint_folded c _) _ _).trans (State.rewriteExt_folded _ _)
    have hall := hpaged.trans hfold.paged
    have hthere : (s.foldBench.frameOf s.epo.rollNext).isSome = true := by rw [State.frameOf_folded hfold]; exact hres
    refine ⟨_, (exec_rollupFold_on hon).trans (congrArg (fun u => Host.Outcome.next (State.askBench u 82)) s.rollup_eq), rfl, ?folds, hthere,
      hall.k, hall.fences, hall.opened, hall.work, hall.pub, hall.pin, ?only⟩
    case folds =>
      change tabSet 0 s.foldBench.epo.folds s.epo.rollNext (s.foldBench.epo.k % 2 ^ 24) = _
      rw [hall.folds, hall.k]
    case only => exact only_trans (only_mono (by simp) s.foldBench_only) (only_trans (only_mono (by simp) (only_epo _ _))
       ((State.askBench_keeps (M := 0x200000000) (by decide) (.refl _)).only (by decide)))

end Sys2Proof.Proofs

/-! ## The seam (R37, R351) -/

namespace Sys2Proof.Machine

open Sys2Proof.Safety

/-! ### Registers along loops -/

theorem Wrote.foldl {α : Type} {l : List (Field × Nat)} {s : State} {f : State → α → State} {xs : List α}
    (hf : ∀ x ∈ xs, ∀ t, Wrote l s t → Wrote l s (f t x)) : ∀ {t : State}, Wrote l s t → Wrote l s (xs.foldl f t) := by
  induction xs with
  | nil => exact fun h => h
  | cons x xs ih =>
    intro t h
    exact ih (fun y hy => hf y (List.mem_cons_of_mem _ hy)) (hf x List.mem_cons_self t h)

theorem Wrote.forEach {l : List (Field × Nat)} {s : State} {n : Nat} {f : Nat → State → State}
    (hf : ∀ i, i < n → ∀ t, Wrote l s t → Wrote l s (f i t)) {t : State} (h : Wrote l s t) : Wrote l s (State.forEach n f t) :=
  Wrote.foldl (fun i hi => hf i (List.mem_range.mp hi)) h

/-! ### Registers of the converter cores' rounds (R318, R324) -/

/-- The fields in which the rounds of a core show. -/
abbrev coreRegs (c : Nat) : List (Field × Nat) :=
  [(Reg.ADC_SPOIL_CORE.served, c), (Reg.ADC_INJ_DELAY.last, c), (Reg.ADC_INJ_DELAY.max, c), (Reg.ADC_CORE_STAT.running, c),
   (Reg.ADC_STAT.running, 0), (Reg.ADC_CORE_STAT.inj_queue, c), (Reg.ADC_CORE_STAT.inj_busy, c), (Reg.ADC_CORE_STAT.entry, c)]

/-- Those of the four cores. -/
abbrev adcRegs : List (Field × Nat) := coreRegs 0 ++ (coreRegs 1 ++ (coreRegs 2 ++ coreRegs 3))

section Core

variable {l : List (Field × Nat)} {s t : State} {c : Nat}

theorem Wrote.modCore (h : Wrote l s t) (f : CoreRt → CoreRt) : Wrote l s (t.modCore c f) := h.same rfl

theorem Wrote.nextEntry (h : Wrote l s t) : Wrote l s (t.nextEntry c) := by
  unfold State.nextEntry
  exact .ite (h.modCore _) (.ite (h.modCore _) (h.modCore _))

variable (hl : ∀ p ∈ coreRegs c, p ∈ l)
include hl

theorem Wrote.showCore (h : Wrote l s t) : Wrote l s (t.showCore c) := by
  unfold State.showCore
  exact ((((h.wr _ (hl _ (by simp))).setBit _ _ (hl _ (by simp))).wr _ (hl _ (by simp))).wr _ (hl _ (by simp))).wr _ (hl _ (by simp))

theorem Wrote.roundEnd (h : Wrote l s t) : Wrote l s (t.roundEnd c) := by
  unfold State.roundEnd
  dsimp only
  split
  · refine .ite (h.modCore _) (.ite (h.modCore _) (.ite ?_ (h.modCore _).nextEntry))
    exact ((h.modCore _).count (hl _ (by simp))).modCore _
  · exact h

theorem Wrote.serveInjected (h : Wrote l s t) (b : Nat) : Wrote l s (t.serveInjected c b) := by
  unfold State.serveInjected
  dsimp only
  split
  · exact ((h.modCore _).wr _ (hl _ (by simp))).wr _ (hl _ (by simp))
  · exact h

theorem Wrote.boundary (h : Wrote l s t) : Wrote l s (t.boundary c) :=
  ((((h.roundEnd hl).serveInjected hl _).modCore _)).showCore hl

theorem Wrote.rounds (n : Nat) : ∀ (fuel : Nat) {t : State}, Wrote l s t → Wrote l s (t.rounds c n fuel)
  | 0, _, h => h
  | fuel + 1, _, h => .ite h (Wrote.rounds n fuel (h.boundary hl))

theorem Wrote.coreAdvance (h : Wrote l s t) (n : Nat) : Wrote l s (t.coreAdvance c n) :=
  .ite h (.ite (h.rounds hl n _) (h.modCore _))

end Core

/-- The cores' rounds change their own registers only. -/
theorem Wrote.adcAdvance {l : List (Field × Nat)} {s t : State} (hl : ∀ p ∈ adcRegs, p ∈ l) (h : Wrote l s t) (n : Nat) :
    Wrote l s (t.adcAdvance n) := by
  refine Wrote.forEach (fun c hc u hu => hu.coreAdvance (fun p hp => hl p ?_) n) h
  rcases (by omega : c = 0 ∨ c = 1 ∨ c = 2 ∨ c = 3) with rfl | rfl | rfl | rfl
  · exact List.mem_append_left _ hp
  · exact List.mem_append_right _ (List.mem_append_left _ hp)
  · exact List.mem_append_right _ (List.mem_append_right _ (List.mem_append_left _ hp))
  · exact List.mem_append_right _ (List.mem_append_right _ (List.mem_append_right _ hp))

/-! ### The epoch that begins -/

/-- What every seam does first: what calls for an early checkpoint, and the mirror's count of the epoch that ends. -/
def State.openSeam (s : State) : State :=
  let sig := s.earlySig
  let s := s.modRed (fun r => { r with
    early := r.early || (!r.sig.isEmpty && r.sig != sig), sig := sig, demoteNow := false })
  (s.wr Reg.RED_MIRROR_STAT.words 0 (min s.red.mirrorCount 65535)).modRed (fun r => { r with mirrorCount := 0 })

/-- The core cycle of the seam to come. -/
def State.seamCycle (s : State) : Nat := (s.clk.count + s.clk.cyclesTo s.comingSeam.2) % 2 ^ 64

/-- Epoch `k` begins at station time `t` and core cycle `c`. -/
def State.enterAt (s : State) (k t c : Nat) : State := (s.enterEpoch k t).modFab (fun f => { f with seamCycle := c, nextTick := c })

theorem State.enterAt_regs (s : State) (k t c : Nat) : (s.enterAt k t c).regs = s.regs := by
  unfold State.enterAt State.enterEpoch State.modFab
  rfl

theorem State.enterAt_epo (s : State) (k t c : Nat) : (s.enterAt k t c).epo = { s.epo with k := k, begun := true, seam := t } := by
  unfold State.enterAt State.enterEpoch State.modFab
  rfl

theorem State.enterAt_again (s : State) (k t c : Nat) : (s.enterAt k t c).fab.again = s.fab.again := by
  unfold State.enterAt State.enterEpoch State.modFab
  rfl

theorem State.enterAt_keeps {M : Nat} {r s : State} {k t c : Nat} (hm : 0x10100060 ||| M = M) (h : Keeps M r s) :
    Keeps M r (s.enterAt k t c) := by
  refine h.next hm ?_
  unfold State.enterAt
  exact State.modFab_keeps (by decide) (State.enterEpoch_keeps (by decide) (.refl s)) (fun h => h)

/-- The epoch begins: the engines and cores up to its cycle, then k and S(k). -/
def State.beginEpoch (s : State) : State :=
  (((if s.openSeam.domain 3 == 2 then (s.openSeam.catchPoints s.openSeam.seamCycle).engineCounts s.openSeam.seamCycle
      else s.openSeam).adcAdvance s.openSeam.seamCycle).enterEpoch s.openSeam.comingSeam.1 s.openSeam.comingSeam.2).modFab
    (fun f => { f with seamCycle := s.openSeam.seamCycle, nextTick := s.openSeam.seamCycle })

theorem State.beginEpoch_epoch (s : State) : s.beginEpoch.epo.k = s.nextEpoch ∧ s.beginEpoch.epo.begun = true := by
  unfold State.beginEpoch State.enterEpoch State.modFab
  exact ⟨rfl, rfl⟩

/-- The commits and the blocks of a unit whose point store is powered; `before` is the state that the seam found, `old` the one before P(k)
was formed. -/
def State.poweredSeam (s before old : State) (last : Nat) : State :=
  let r := s.commitSeam
  let s := ((r.1.takeoverSeam).handoverIncoming).fabricSeam r.2
  let t := before.mirrorOf ((s.blocksSeam old r.2).ringSeam last)
  let s := t.handoverOutgoing.fabReleases.handoverWait.checkpointSeam
  t.mirrorOf (if r.2.regs.isEmpty then s else s.modRed (fun r => { r with early := true }))

/-- Health and the seam's vector, which end every seam. -/
def State.closeSeam (s : State) : State :=
  if s.healthSeam.epo.k % (s.healthSeam.rd Reg.GLB_SEAM_DIV.div 0 + 1) = 0 then s.healthSeam.signal 3 else s.healthSeam

/-- P(k) is formed, and an armed package takes effect. -/
def State.formImage (s : State) (errs : List BadWord) : State := (s.publishRead (errs.filter s.seamReads)).packageSeam

/-- A seam by its parts, with or without power for the point store. -/
def State.seamWith (s : State) (errs : List BadWord) (awake : Bool) : State :=
  let old := if awake then s.beginEpoch.lateReleases.handoverBefore else s.beginEpoch.lateReleases
  let w := (if awake then old.publishRead (errs.filter old.seamReads) else old).packageSeam
  State.closeSeam (if awake then w.poweredSeam s old s.openSeam.epo.seam else w.dropDue.sleepSeam.ringSeam s.openSeam.epo.seam)

theorem State.seamStep_eq (s : State) (errs : List BadWord) : s.seamStep errs = s.seamWith errs (s.openSeam.domain 3 == 2) := rfl

theorem State.seamStep_asleep {s : State} (errs : List BadWord) (h : s.openSeam.domain 3 ≠ 2) :
    s.seamStep errs = (s.beginEpoch.lateReleases.packageSeam.dropDue.sleepSeam.ringSeam s.openSeam.epo.seam).closeSeam := by
  rw [State.seamStep_eq, beq_eq_false_iff_ne.mpr h]
  unfold State.seamWith
  simp only [Bool.false_eq_true, if_false]

theorem State.seamStep_powered {s : State} (errs : List BadWord) (h : s.openSeam.domain 3 = 2) :
    s.seamStep errs = ((s.beginEpoch.lateReleases.handoverBefore.formImage errs).poweredSeam s s.beginEpoch.lateReleases.handoverBefore
      s.openSeam.epo.seam).closeSeam := by
  rw [State.seamStep_eq, beq_iff_eq.mpr h]
  unfold State.seamWith State.formImage
  simp only [if_true]

/-! ### What the parts keep -/

section Parts

variable {r s : State}

theorem State.closeSeam_keeps {M : Nat} (hm : 0x800412 ||| M = M) (h : Keeps M r s) : Keeps M r s.closeSeam := by
  refine h.next hm (.ite ?_ ?_)
  · exact State.signal_keeps (by decide) (State.healthSeam_keeps (by decide) (.refl s))
  · exact State.healthSeam_keeps (by decide) (.refl s)

theorem State.formImage_keeps (errs : List BadWord) (h : Keeps 0x38ff7d7f6 r s) : Keeps 0x38ff7d7f6 r (s.formImage errs) :=
  State.packageSeam_keeps (by decide) (State.publishRead_keeps (by decide) h)

theorem State.poweredSeam_keeps (before old : State) (last : Nat) (h : Keeps 0x38ff7d7f6 r s) :
    Keeps 0x38ff7d7f6 r (s.poweredSeam before old last) := by
  have hblocks : Keeps 0x38ff7d7f6 r (before.mirrorOf (((((s.commitSeam.1.takeoverSeam).handoverIncoming).fabricSeam s.commitSeam.2).blocksSeam
      old s.commitSeam.2).ringSeam last)) :=
    State.mirrorOf_keeps (by decide) (State.ringSeam_keeps (by decide) (State.blocksSeam_keeps (by decide) (State.fabricSeam_keeps (by decide)
      (State.handoverIncoming_keeps (by decide) (State.takeoverSeam_keeps (by decide) (State.commitSeam_keeps (by decide) h))))))
  have hafter := State.checkpointSeam_keeps (by decide) (State.handoverWait_keeps (by decide) (State.fabReleases_keeps (by decide)
    (State.handoverOutgoing_keeps (by decide) hblocks)))
  exact State.mirrorOf_keeps (by decide) (.ite hafter (State.modRed_keeps (by decide) hafter))

end Parts

/-- The epoch that the seam began is not changed by what follows in it. -/
theorem State.seamStep_epoch (s : State) (errs : List BadWord) :
    (s.seamStep errs).epo.k = s.nextEpoch ∧ (s.seamStep errs).epo.begun = true := by
  suffices h : Keeps 0x38ff7d7f6 s.beginEpoch (s.seamStep errs) from h.epoch.get (by decide)
  have hbegun := State.lateReleases_keeps (M := 0x38ff7d7f6) (by decide) (Keeps.refl s.beginEpoch)
  by_cases hawake : s.openSeam.domain 3 = 2
  · rw [State.seamStep_powered errs hawake]
    exact State.closeSeam_keeps (by decide) (State.poweredSeam_keeps _ _ _ (State.formImage_keeps errs (State.handoverBefore_keeps (by decide)
      hbegun)))
  · rw [State.seamStep_asleep errs hawake]
    exact State.closeSeam_keeps (by decide) (State.ringSeam_keeps (by decide) (State.sleepSeam_keeps (by decide) (State.dropDue_keeps (by decide)
      (State.packageSeam_keeps (by decide) hbegun))))

/-! ### A seam without power for the point store -/

/-- A field above every field written reads as before, whatever its unit. -/
theorem Wrote.rd_above {l : List (Field × Nat)} {s t : State} (h : Wrote l s t) {f : Field} (i : Nat)
    (hl : l.all (fun p => decide (p.1.place < f.place) && decide (p.2 < 8192)) = true) : t.rd f i = s.rd f i := by
  refine h.but f i fun hm => ?_
  obtain ⟨p, hp, hk⟩ := List.mem_map.mp hm
  have hbelow := List.all_eq_true.mp hl p hp
  simp only [Bool.and_eq_true, decide_eq_true_eq, Field.place] at hbelow
  unfold regKey at hk
  omega

theorem State.openSeam_wrote {s : State} (h : tabWf 0 s.regs = true) : Wrote [(Reg.RED_MIRROR_STAT.words, 0)] s s.openSeam :=
  (((Wrote.refl h).same rfl).wr _ List.mem_cons_self).same rfl

/-- The fields that change before the epoch begins. -/
abbrev beginRegs : List (Field × Nat) := (Reg.RED_MIRROR_STAT.words, 0) :: adcRegs

section Asleep

variable {s : State} (hw : tabWf 0 s.regs = true) (hasleep : s.domain 3 ≠ 2)
include hw hasleep

theorem State.openSeam_asleep : s.openSeam.domain 3 ≠ 2 := by
  unfold State.domain at *
  rwa [(State.openSeam_wrote hw).rd ⟨rfl, by decide, by decide⟩]

theorem State.beginEpoch_asleep : s.beginEpoch
    = (s.openSeam.adcAdvance s.openSeam.seamCycle).enterAt s.openSeam.comingSeam.1 s.openSeam.comingSeam.2 s.openSeam.seamCycle := by
  unfold State.beginEpoch State.enterAt
  rw [beq_eq_false_iff_ne.mpr (State.openSeam_asleep hw hasleep)]
  simp only [Bool.false_eq_true, if_false]

/-- Only the converter cores' registers change besides the mirror's count. -/
theorem State.beginEpoch_wrote : Wrote beginRegs s s.beginEpoch := by
  rw [State.beginEpoch_asleep hw hasleep]
  exact (((State.openSeam_wrote hw).mono (by simp)).adcAdvance (fun _ => List.mem_cons_of_mem _) _).same (State.enterAt_regs ..)

/-- The new epoch stands at S(k) as R351 puts it; the rest of the staging area is as it was. -/
theorem State.beginEpoch_epo : s.beginEpoch.epo = { s.epo with
    k := s.nextEpoch, begun := true, seam := if s.epo.begun then (s.seamAt s.nextEpoch).1 else s.epo.seam } := by
  have hadc : (s.openSeam.adcAdvance s.openSeam.seamCycle).epo = s.epo :=
    (State.adcAdvance_keeps (M := 0x400010) (by decide) (.refl s.openSeam)).epo.get (by decide)
  have hlen : s.openSeam.rd Reg.EPO_LEN.cycles 0 = s.rd Reg.EPO_LEN.cycles 0 :=
    (State.openSeam_wrote hw).rd ⟨rfl, by decide, by decide⟩
  have hseam : s.openSeam.comingSeam = (s.nextEpoch, if s.epo.begun then (s.seamAt s.nextEpoch).1 else s.epo.seam) := by
    unfold State.comingSeam State.seamAt State.seamUncut
    rw [hlen]
    rfl
  rw [State.beginEpoch_asleep hw hasleep, hseam, State.enterAt_epo, hadc]

/-- Cores, fabric and clock apart, the parts of the machine are as they were. -/
theorem State.beginEpoch_keeps : Keeps 0x10d00070 s s.beginEpoch := by
  have hopen : Keeps 0x10d00070 s s.openSeam := by
    unfold State.openSeam
    exact State.modRed_keeps (by decide) (State.wr_keeps (by decide) (State.modRed_keeps (by decide) (.refl s)))
  rw [State.beginEpoch_asleep hw hasleep]
  exact State.enterAt_keeps (by decide) (State.adcAdvance_keeps (by decide) hopen)

theorem State.beginEpoch_again : s.beginEpoch.fab.again = s.fab.again := by
  have hadc : (s.openSeam.adcAdvance s.openSeam.seamCycle).fab = s.fab :=
    (State.adcAdvance_keeps (M := 0x400010) (by decide) (.refl s.openSeam)).fab.get (by decide)
  rw [State.beginEpoch_asleep hw hasleep, State.enterAt_again, hadc]

end Asleep

/-- No graph waits for an item: nothing is released late. -/
theorem State.lateReleases_idle {s : State} (h : s.fab.again = []) : s.lateReleases = s.modFab (fun f => { f with again := [] }) := by
  unfold State.lateReleases
  simp only [h, List.filter_nil, List.foldl_nil]
  unfold State.modFab
  simp only [h, List.filter_nil]

theorem State.dropDue_regs (s : State) : s.dropDue.regs = s.regs := rfl

theorem State.dropDue_epo (s : State) :
    s.dropDue.epo = { s.epo with fences := s.epo.fences.filter (fun f => !decide (f.target ≤ s.epo.k)) } := rfl

/-- No package takes effect at this seam (R443). -/
theorem State.packageSeam_idle {s : State} (h : ∀ p, s.cfg.staged = some p → s.rd Reg.CFG_LR_STAT.state 0 ≠ 3 ∨ s.epo.k < p.target) :
    s.packageSeam = s := by
  unfold State.packageSeam
  split
  · rfl
  · next p hp => exact if_pos (h p hp)

theorem foldl_of_fixed {α β : Type} {f : β → α → β} {b : β} {l : List α} (h : ∀ x ∈ l, f b x = b) : l.foldl f b = b := by
  induction l with
  | nil => rfl
  | cons x l ih =>
    rw [List.foldl_cons, h x List.mem_cons_self]
    exact ih fun y hy => h y (List.mem_cons_of_mem _ hy)

/-- No lane has to carry its PRIO (R220). -/
theorem State.laneSeam_idle {s : State} (h : ∀ e ∈ s.bs.lanes, s.laneUp e.lane = true ∨ s.transmits e = false) : s.laneSeam = s := by
  refine foldl_of_fixed fun e he => if_pos ?_
  rcases h e he with hup | hoff
  · simp [hup]
  · simp [hoff]

/-- A lane is up, and its transmitter runs, as before. -/
theorem Wrote.laneUp {s t : State} (h : Wrote beginRegs s t) (l : Nat) : t.laneUp l = s.laneUp l := by
  unfold State.laneUp State.flag
  rw [h.rd_above l (by decide)]

theorem Wrote.transmits {s t : State} (h : Wrote beginRegs s t) (hbs : t.bs = s.bs) (e : LaneEntry) : t.transmits e = s.transmits e := by
  have hruns : ∀ l, t.txRuns l = s.txRuns l := by
    intro l
    unfold State.txRuns State.lanePowered State.domain State.flag
    rw [h.rd_above l (by decide), h.rd (f := Reg.PWR_DOM_STAT.state) ⟨rfl, by decide, by decide⟩, hbs]
  unfold State.transmits
  rw [funext hruns]

theorem State.noneAgain_keeps {M : Nat} {r s : State} (hm : 0x100000 ||| M = M) (h : Keeps M r s) :
    Keeps M r (s.modFab (fun f => { f with again := [] })) := State.modFab_keeps hm h (fun h => h)

/-- What stands where no package takes effect and no graph waits for an item, before the lanes are looked at. -/
theorem State.beginEpoch_drops {s : State} (hw : tabWf 0 s.regs = true) (hasleep : s.domain 3 ≠ 2)
    (hpackage : ∀ p, s.cfg.staged = some p → s.rd Reg.CFG_LR_STAT.state 0 ≠ 3 ∨ s.nextEpoch < p.target) (hagain : s.fab.again = []) :
    s.beginEpoch.lateReleases.packageSeam.dropDue = (s.beginEpoch.modFab (fun f => { f with again := [] })).dropDue := by
  have hkeeps := State.beginEpoch_keeps hw hasleep
  rw [State.lateReleases_idle ((State.beginEpoch_again hw hasleep).trans hagain), State.packageSeam_idle]
  intro p hp
  rw [State.modFab_cfg, hkeeps.cfg.get (by decide)] at hp
  rw [State.modFab_rd, State.modFab_epo, State.beginEpoch_epo hw hasleep, (State.beginEpoch_wrote hw hasleep).rd ⟨rfl, by decide, by decide⟩]
  exact hpackage p hp

/-- A seam without power, a package to take or a graph to release keeps what the point store and the arms hold (R351). -/
theorem State.seamStep_sleeps {s : State} (hw : tabWf 0 s.regs = true) (hasleep : s.domain 3 ≠ 2) (errs : List BadWord)
    (hpackage : ∀ p, s.cfg.staged = some p → s.rd Reg.CFG_LR_STAT.state 0 ≠ 3 ∨ s.nextEpoch < p.target) (hagain : s.fab.again = []) :
    (s.seamStep errs).pts = s.pts ∧ (s.seamStep errs).arms = s.arms ∧ (s.seamStep errs).drv = s.drv ∧ (s.seamStep errs).saf = s.saf
      ∧ ((∀ e ∈ s.bs.lanes, s.laneUp e.lane = true ∨ s.transmits e = false) → (s.seamStep errs).cells = s.cells)
      ∧ ((∀ e ∈ s.bs.lanes, s.laneUp e.lane = true ∨ s.transmits e = false) → (s.seamStep errs).lanes = s.lanes) := by
  have hstep : s.seamStep errs
      = ((((s.beginEpoch.modFab (fun f => { f with again := [] })).dropDue.sleepSeam).ringSeam s.openSeam.epo.seam)).closeSeam := by
    rw [State.seamStep_asleep errs (State.openSeam_asleep hw hasleep), State.beginEpoch_drops hw hasleep hpackage hagain]
  have hdrop : Keeps 0x10d00070 s (s.beginEpoch.modFab (fun f => { f with again := [] })).dropDue :=
    State.dropDue_keeps (by decide) (State.noneAgain_keeps (by decide) (State.beginEpoch_keeps hw hasleep))
  have hend : Keeps 0x10d18572 s (s.seamStep errs) := by
    rw [hstep]
    exact State.closeSeam_keeps (by decide) (State.ringSeam_keeps (by decide) (State.sleepSeam_keeps (by decide) (hdrop.mono (by decide))))
  have hidle : (∀ e ∈ s.bs.lanes, s.laneUp e.lane = true ∨ s.transmits e = false) → Keeps 0x10d00572 s (s.seamStep errs) := by
    intro hlanes
    have hwrote : Wrote beginRegs s (s.beginEpoch.modFab (fun f => { f with again := [] })).dropDue :=
      ((State.beginEpoch_wrote hw hasleep).same (State.modFab_regs ..)).same (State.dropDue_regs _)
    rw [hstep, State.sleepSeam, State.laneSeam_idle ?quiet]
    · exact State.closeSeam_keeps (by decide) (State.ringSeam_keeps (by decide) (hdrop.mono (by decide)))
    case quiet =>
      rw [hdrop.bs.get (by decide)]
      intro e he
      refine (hlanes e he).imp (fun hup => ?_) (fun hoff => ?_)
      · rwa [hwrote.laneUp]
      · rwa [hwrote.transmits (hdrop.bs.get (by decide))]
  exact ⟨hend.pts.get (by decide), hend.arms.get (by decide), hend.drv.get (by decide), hend.saf.get (by decide),
    fun h => (hidle h).cells.get (by decide), fun h => (hidle h).lanes.get (by decide)⟩

end Sys2Proof.Machine

namespace Sys2Proof.Proofs

open Sys2Proof Sys2Proof.Machine Sys2Proof.Safety

/-- Settles O9: the epoch is that of `seamStep_epoch`, and a seam without power for the point store is followed part by part. -/
theorem seamBeginsNextEpoch : Obligations.SeamBeginsNextEpoch := by
  intro s errs hs
  have hexec : s.running = true → exec (.seam errs) s = .next (s.seamStep errs) := fun h => congrArg _ (if_pos h)
  have hkeeps : Keeps 0x39ff7d7f6 s (s.seamStep errs) := State.seamStep_keeps (by decide) (.refl s)
  refine ⟨fun hrun => congrArg _ (if_neg (by simp [hrun])), fun hrun hdom hhand hrest => ?powered, fun hrun hasleep => ?asleep⟩
  case powered =>
    obtain ⟨hk, hbegun⟩ := s.seamStep_epoch errs
    exact ⟨_, hexec hrun, hk, hbegun, hkeeps.pending, hkeeps.wire, hkeeps.keys.get (by decide), hkeeps.flash.get (by decide),
      hkeeps.eth.get (by decide), hkeeps.jtag.get (by decide), hkeeps.cal.get (by decide)⟩
  case asleep =>
    have hbegin := State.beginEpoch_keeps hs.regs hasleep
    have hwrote := State.beginEpoch_wrote hs.regs hasleep
    have hepo := State.beginEpoch_epo hs.regs hasleep
    have hform : Keeps 0xbb7d796 s.beginEpoch s.beginEpoch.lateReleases.packageSeam :=
      State.packageSeam_keeps (by decide) (State.lateReleases_keeps (by decide) (.refl _))
    have hafter : ∀ u : State, Keeps 0x818512 u ((u.sleepSeam.ringSeam s.openSeam.epo.seam).closeSeam) := fun u =>
      State.closeSeam_keeps (by decide) (State.ringSeam_keeps (by decide) (State.sleepSeam_keeps (by decide) (.refl u)))
    have hend : (s.seamStep errs).epo = s.beginEpoch.lateReleases.packageSeam.dropDue.epo := by
      rw [State.seamStep_asleep errs (State.openSeam_asleep hs.regs hasleep)]
      exact (hafter _).epo.get (by decide)
    have hdrop : (s.seamStep errs).epo = s.beginEpoch.dropDue.epo := by
      rw [hend, State.dropDue_epo, hform.epo.get (by decide), State.dropDue_epo]
    rw [State.dropDue_epo, hepo] at hdrop
    refine ⟨_, hexec hrun, ?number, ?begun, ?start, ?fences, ?open_, fun hpackage hagain => ?parts⟩
    case number => simp only [hdrop]
    case begun => simp only [hdrop]
    case start => simp only [hdrop]
    case open_ => simp only [hdrop]
    case fences =>
      simp only [hdrop]
      exact List.filter_congr fun f _ => by
        rw [← decide_not]
        exact decide_eq_decide.mpr Nat.not_le
    case parts =>
      obtain ⟨hpts, harms, hdrv, hsaf, hcells, hlanes⟩ := State.seamStep_sleeps hs.regs hasleep errs hpackage hagain
      exact ⟨hpts, harms, hdrv, hsaf, fun h => ⟨hcells h, hlanes h⟩⟩

end Sys2Proof.Proofs

/-! ## Retirements and carrier instants (R90, R91, R99, R100) -/

namespace Sys2Proof.Machine

open Sys2Proof.Safety

/-- A host command reaches a unit that is up. -/
theorem byHost_up {s : State} (hup : HostUp s) (f : State → Host.Outcome State Fault Refusal) : byHost f s = f s := if_neg (by simp [hup])

/-! ### RETIRE_GO (R99, R100) -/

/-- The cell and the reason that RETIRE_GO takes from the written word. -/
def State.nameRetire (s : State) (a value : Nat) : State :=
  (s.wr Reg.ARM_RETIRE.cell a (value % 2 ^ 14)).wr Reg.ARM_RETIRE.reason a (value / 2 ^ 16)

theorem exec_retireGo {s : State} (hup : HostUp s) (arm : Fin 12) (value : Nat) :
    exec (.retireGo arm value) s = .next (if s.flag Reg.ARM_RETIRE.go arm then s.retireRefused arm (value % 2 ^ 14) 4
      else if s.cellArm (value % 2 ^ 14) ≠ some arm.val then (s.nameRetire arm value).retireRefused arm (value % 2 ^ 14) 2
      else if (s.cell (value % 2 ^ 14)).retired then (s.nameRetire arm value).retireRefused arm (value % 2 ^ 14) 3
      else ((s.nameRetire arm value).wr Reg.ARM_RETIRE.go arm 1).queueRetire arm (value % 2 ^ 14)
        ((s.nameRetire arm value).rd Reg.ARM_RETIRE.reason arm) true) := by
  change execRetireGo arm value s = _
  unfold execRetireGo
  rw [byHost_up hup]
  exact (apply_ite Host.Outcome.next _ _ _).symm

/-- The event registers end most frames. -/
theorem eventRegs_end (l : List (Field × Nat)) : ∀ p ∈ eventRegs, p ∈ l ++ eventRegs := fun _ => List.mem_append_right l

/-- A field of a unit of the map that no event changes. -/
theorem apart_eventRegs (f : Field) {i : Nat} (hi : i < 8192) (h : eventRegs.all (fun p => p.1.place != f.place) = true) :
    Apart f i eventRegs := ⟨h, hi, by decide⟩

theorem Apart.append {f : Field} {i : Nat} {l m : List (Field × Nat)} (h : Apart f i l) (h' : Apart f i m) : Apart f i (l ++ m) :=
  ⟨by rw [List.all_append, h.place, h'.place, Bool.and_true], h.unit,
    fun p hp => (List.mem_append.mp hp).elim (h.units p) (h'.units p)⟩

/-- A field apart from the fields of one unit. -/
theorem apart_fields {f : Field} {i j : Nat} (fs : List Field) (hi : i < 8192) (hj : j < 8192)
    (h : fs.all (fun g => g.place != f.place) = true) : Apart f i (fs.map (fun g => (g, j))) := by
  refine ⟨by rw [List.all_map]; exact h, hi, fun p hp => ?_⟩
  obtain ⟨g, -, rfl⟩ := List.mem_map.mp hp
  exact hj

/-- Another field of the same unit. -/
theorem apart_unit (f g : Field) {i : Nat} (hi : i < 8192) (h : (g.place != f.place) = true) : Apart f i [(g, i)] :=
  apart_fields [g] hi hi (by rw [List.all_cons, h]; rfl)

/-- The fields of a refused RETIRE_GO. -/
abbrev retireRegs (a : Nat) : List (Field × Nat) :=
  [(Reg.ARM_RETIRE.cell, a), (Reg.ARM_RETIRE.reason, a), (Reg.ARM_RETIRE.status, a)] ++ eventRegs

theorem State.nameRetire_effect {s : State} (hw : tabWf 0 s.regs = true) (a value : Nat) :
    (s.nameRetire a value).rd Reg.ARM_RETIRE.cell a = value % 2 ^ 14
      ∧ (s.nameRetire a value).rd Reg.ARM_RETIRE.reason a = value / 2 ^ 16 % 2 ^ 8
      ∧ Wrote [(Reg.ARM_RETIRE.cell, a), (Reg.ARM_RETIRE.reason, a)] s (s.nameRetire a value) := by
  have hcell := State.regs_wr Reg.ARM_RETIRE.cell a (value % 2 ^ 14) hw
  refine ⟨?_, State.rd_wr_self _ _ _ hcell, ((Wrote.refl hw).wr _ (by simp)).wr _ (by simp)⟩
  exact (State.rd_wr_off _ _ _ _ hcell (by decide)).trans ((State.rd_wr_self _ _ _ hw).trans (Nat.mod_mod _ _))

/-- A refusal shows its status and reports it; nothing else changes. -/
theorem State.retireRefused_effect {s u : State} {a c st : Nat} (h : Wrote [(Reg.ARM_RETIRE.cell, a), (Reg.ARM_RETIRE.reason, a)] s u)
    (ha : a < 12) (hu : Keeps 0x10 s u) (hst : st < 8) :
    (u.retireRefused a c st).rd Reg.ARM_RETIRE.status a = st ∧ (u.retireRefused a c st).arms = s.arms
      ∧ Reports s (u.retireRefused a c st) 0x108 a (c + 2 ^ 16 * st) ∧ Only eventParts s (u.retireRefused a c st)
      ∧ RegsBut (retireRegs a) s (u.retireRefused a c st)
      ∧ (∀ f, Apart f a [(Reg.ARM_RETIRE.status, a)] → Apart f a eventRegs → (u.retireRefused a c st).rd f a = u.rd f a) := by
  have hwr : Wrote (retireRegs a) s (u.wr Reg.ARM_RETIRE.status a st) := (h.mono (by simp)).wr st (by simp)
  have hkeeps : Keeps 0x512 s (u.retireRefused a c st) := State.raise_keeps (by decide) (State.wr_keeps (by decide) (hu.mono (by decide)))
  have hunit : a < 8192 := by omega
  refine ⟨?status, hkeeps.arms.get (by decide), ?event, hkeeps.only (by decide), (hwr.raise _ _ _ (eventRegs_end _)).but, fun f hstatus hevent => ?other⟩
  case status =>
    unfold State.retireRefused
    rw [State.rd_raise hwr.wf _ _ _ (apart_eventRegs Reg.ARM_RETIRE.status hunit rfl).notMem, State.rd_wr_self _ _ _ h.wf]
    exact Nat.mod_eq_of_lt hst
  case event =>
    have hmask : Apart Reg.EPO_EV_MASK.range_en 0 (retireRegs a) :=
      .append (apart_fields [Reg.ARM_RETIRE.cell, Reg.ARM_RETIRE.reason, Reg.ARM_RETIRE.status] (by decide) hunit rfl)
        (apart_eventRegs _ (by decide) rfl)
    exact hwr.reports a _ (by decide) hmask (hu.evq.get (by decide)) (congrArg Epo.k (hu.epo.get (by decide))) (hu.clk.get (by decide))
  case other =>
    unfold State.retireRefused
    exact (State.rd_raise hwr.wf _ _ _ hevent.notMem).trans (((Wrote.refl h.wf).wr st (by simp)).rd hstatus)

theorem State.cellArm_of_bs {s t : State} (h : t.bs = s.bs) (c : Nat) : t.cellArm c = s.cellArm c := by
  unfold State.cellArm
  rw [h]

theorem State.arm_modArm {s : State} (h : tabWf ArmRt.clear s.arms = true) (a : Nat) (f : ArmRt → ArmRt) (b : Nat) :
    (s.modArm a f).arm b = if b = a then f (s.arm a) else s.arm b := tabGet_tabSet h

end Sys2Proof.Machine

namespace Sys2Proof.Proofs

open Sys2Proof Sys2Proof.Machine Sys2Proof.Safety

/-- Settles O22: each clause is one branch of `exec_retireGo`. -/
theorem retireGoQueues : Obligations.RetireGoQueues := by
  intro s arm value hs hup
  have hexec := exec_retireGo hup arm value
  obtain ⟨hcell, hreason, hnamed⟩ := State.nameRetire_effect hs.regs arm.val value
  have harm : arm.val < 8192 := by omega
  have hkeeps : Keeps 0x10 s (s.nameRetire arm value) := State.wr_keeps (by decide) (State.wr_keeps (by decide) (.refl s))
  have hrefused : ∀ st, st < 8 →
      let t := (s.nameRetire arm value).retireRefused arm (value % 2 ^ 14) st
      (t.rd Reg.ARM_RETIRE.cell arm = value % 2 ^ 14 ∧ t.rd Reg.ARM_RETIRE.reason arm = value / 2 ^ 16 % 2 ^ 8)
        ∧ (t.rd Reg.ARM_RETIRE.status arm = st ∧ t.arms = s.arms ∧ Reports s t 0x108 arm (value % 2 ^ 14 + 2 ^ 16 * st) ∧ Only eventParts s t)
        ∧ RegsBut (retireRegs arm) s t := by
    intro st hst
    obtain ⟨hstatus, harms, hevent, honly, hregs, hother⟩ :=
      State.retireRefused_effect (c := value % 2 ^ 14) hnamed arm.isLt hkeeps hst
    refine ⟨⟨?_, ?_⟩, ⟨hstatus, harms, hevent, honly⟩, hregs⟩
    · exact (hother _ (apart_unit _ _ harm rfl) (apart_eventRegs _ harm rfl)).trans hcell
    · exact (hother _ (apart_unit _ _ harm rfl) (apart_eventRegs _ harm rfl)).trans hreason
  refine ⟨fun hgo hof hin => ?queued, fun hgo hnot => ?other, fun hgo hof hin => ?retired, fun hgo => ?busy⟩
  case other =>
    rw [if_neg (by simp [hgo]), if_pos hnot] at hexec
    exact ⟨_, hexec, hrefused 2 (by decide)⟩
  case retired =>
    rw [if_neg (by simp [hgo]), if_neg (not_not_intro hof), if_pos hin] at hexec
    exact ⟨_, hexec, hrefused 3 (by decide)⟩
  case busy =>
    rw [if_pos hgo] at hexec
    obtain ⟨hstatus, harms, hevent, honly, hregs, -⟩ :=
      State.retireRefused_effect (a := arm.val) (c := value % 2 ^ 14) (.refl hs.regs) arm.isLt (.refl s) (st := 4) (by decide)
    exact ⟨_, hexec, ⟨hstatus, harms, hevent, honly⟩, hregs⟩
  case queued =>
    rw [if_neg (by simp [hgo]), if_neg (not_not_intro hof), if_neg (Bool.eq_false_iff.mp hin)] at hexec
    have hsame : Keeps 0x10 s ((s.nameRetire arm value).wr Reg.ARM_RETIRE.go arm 1) := State.wr_keeps (by decide) hkeeps
    have hwrote : Wrote [(Reg.ARM_RETIRE.cell, arm.val), (Reg.ARM_RETIRE.reason, arm.val), (Reg.ARM_RETIRE.go, arm.val)] s
        ((s.nameRetire arm value).wr Reg.ARM_RETIRE.go arm 1) := (hnamed.mono (by simp)).wr 1 (by simp)
    have hqueue : ∀ (u : State) (r : Nat), u.queueRetire arm (value % 2 ^ 14) r true
        = u.modArm arm (fun x => x.enqueue u.clk.count (value % 2 ^ 14) r true) := fun u r => if_neg (by simp)
    rw [hqueue, hreason] at hexec
    refine ⟨_, hexec, ⟨?_, ?_⟩, ?_, ?_, ?_, ?_, ?_⟩
    · exact (State.rd_wr_off _ _ _ _ hnamed.wf (by decide)).trans hcell
    · exact (State.rd_wr_off _ _ _ _ hnamed.wf (by decide)).trans hreason
    · exact State.rd_wr_self _ _ _ hnamed.wf
    · have hframe : tabWf ArmRt.clear ((s.nameRetire arm value).wr Reg.ARM_RETIRE.go arm 1).arms = true := hs.arms
      rw [State.arm_modArm hframe, if_pos rfl]
      rfl
    · exact hsame.cells.get (by decide)
    · exact (State.modArm_keeps (M := 0x4010) (by decide) (hsame.mono (by decide))).only (by decide)
    · exact hwrote.but

end Sys2Proof.Proofs

/-! ### A carrier across the wrap of station time (R91, R345) -/

namespace Sys2Proof.Machine

open Sys2Proof.Safety

/-- The grid of a carrier whose last start lies 5 units before station time wraps to 0. -/
def wrapGrid : Grid := ⟨2 ^ 64 - 5, 0, 1, 100⟩

/-- Arm 0 runs on it at station time 2, in epoch 5, which began at 1; the ZERO instants of the arm are enabled and reported. -/
def wrapState : State :=
  let s := State.reset
  let s := { s with
    clk := { s.clk with off := 2 * 2 ^ 48 }, epo := { s.epo with k := 5, begun := true, seam := 1 }
    arms := [(0, { ArmRt.clear with grid := some wrapGrid })] }
  (s.wr Reg.ARM_INT_CFG.zero_en 0 1).wr Reg.ARM_INT_CFG.ring_en 0 1

theorem wrapState_sound : Sound wrapState := by
  have hreset := Proofs.resetIsSound
  unfold Obligations.ResetIsSound at hreset
  exact { hreset with
    regs := State.regs_wr _ _ _ (State.regs_wr _ _ _ hreset.regs)
    staging := hreset.staging
    arms := by decide }

/-- The instant before the wrap belongs to the epoch before the one that began after it. -/
theorem wrapState_instant : ∃ t, exec (.carrierInstant 0 0) wrapState = .next t ∧ t.evq.buf.map (·.epoch) = [4] := ⟨_, rfl, by decide⟩

end Sys2Proof.Machine

namespace Sys2Proof.Proofs

open Sys2Proof Sys2Proof.Machine Sys2Proof.Safety

/-- Refutes O23: where station time has wrapped since the instant, the statement's comparison of the instant with S(k) is not the serial one of
R345, and the record carries the epoch before. -/
theorem not_carrierInstantPrescaled : ¬ Obligations.CarrierInstantPrescaled := by
  intro h
  obtain ⟨t, hexec, hepoch⟩ := wrapState_instant
  obtain ⟨-, hdue, -⟩ := h wrapState 0 0 (2 ^ 64 - 5) wrapGrid wrapState_sound (by decide) (fun e he => nomatch he)
  obtain ⟨u, hnext, -, -, hring, -⟩ := hdue (by decide) (by decide)
  obtain rfl : t = u := Host.Outcome.next.inj (hexec.symm.trans hnext)
  rw [hring (by decide) (by decide) (by decide)] at hepoch
  exact absurd hepoch (by decide)

end Sys2Proof.Proofs

/-! ## Drive channels (R155 to R170)

Each statement about the drive channels fails in a state that a run may reach; the states below show where. -/

namespace Sys2Proof.Machine

open Sys2Proof.Safety

theorem reset_sound : Sound State.reset := Proofs.resetIsSound

/-- The reset is over: the host reaches the unit. -/
def upState : State := { State.reset with pwr := { State.reset.pwr with inReset := false } }

theorem upState_sound : Sound upState := { reset_sound with }

/-- Channel 0 takes its sets from a fabric graph: its entry names no other holder (R161, R165). -/
def sourcedState : State :=
  { upState with bs := { upState.bs with drive := [{ DriveEntry.unlisted 0 with src := true }] } }

theorem sourcedState_sound : Sound sourcedState := { upState_sound with }

/-- The holder that event 0xA05 names is the fabric (1), where the entry's holder field reads 0. -/
theorem sourcedState_commit :
    ∃ t, exec (.drvCommit 0 0) sourcedState = .next t ∧ t.evq.buf.map (·.data) = [4 + 16] := ⟨_, rfl, by decide⟩

theorem sourcedState_mode :
    ∃ t, exec (.drvModeWrite 0 0) sourcedState = .next t ∧ t.evq.buf.map (·.data) = [4 + 16] := ⟨_, rfl, by decide⟩

/-- Channel 0 runs in carrier mode at a reload; one set is pending and another waits behind it (R155). -/
def queuedSets : DrvRt :=
  { DrvRt.clear with mode := 1, on := some ⟨1280, 1, 0, 0⟩, pending := some (⟨1280, 1, 0, 0⟩, 0), later := some (⟨2560, 1, 0, 0⟩, 1) }

def queuedState : State := { State.reset with drv := [(0, queuedSets)] }

theorem queuedState_sound : Sound queuedState := { reset_sound with drv := by decide }

/-- The set that waited is pending once the first is in effect. -/
theorem queuedState_reload : ∃ t, exec (.drvReload 0) queuedState = .next t ∧ (t.drvRt 0).pending = some (⟨2560, 1, 0, 0⟩, 1) :=
  ⟨_, rfl, by decide⟩

/-- Channel 0 runs in mode 2; a state waits for an instant that lies before the last edge (R174). -/
def lateEdge : DrvRt := { DrvRt.clear with mode := 2, timed := [⟨0, 0, some 0, true, false⟩], lastEdge := some 1 }

def lateState : State := { State.reset with drv := [(0, lateEdge)] }

theorem lateState_sound : Sound lateState := { reset_sound with drv := by decide }

/-- The edge is dropped. -/
theorem lateState_edge : ∃ t, exec (.drvTimedEdge 0 false) lateState = .next t ∧ (t.drvRt 0).edges = [] := ⟨_, rfl, by decide⟩

/-- An edge at station time 0 cleared the fault latch of channel 0, which is to set again; that core cycle is over (R169). -/
def latchingFault : DrvRt := { DrvRt.clear with flt := true, again := some 0 }

def latchingState : State := { State.reset with clk := { State.reset.clk with off := 1000 * 2 ^ 48 }, drv := [(0, latchingFault)] }

theorem latchingState_sound : Sound latchingState := { reset_sound with drv := by decide }

/-- The latch sets again first. -/
theorem latchingState_repeat : ∃ t, exec (.gateFaultRepeat 0) latchingState = .next t ∧ (t.drvRt 0).again = none := ⟨_, rfl, by decide⟩

end Sys2Proof.Machine

namespace Sys2Proof.Proofs

open Sys2Proof Sys2Proof.Machine Sys2Proof.Safety

/-- The one next state of a command. -/
theorem next_inj {c : Instr} {s t u : State} (ht : exec c s = .next t) (hu : exec c s = .next u) : u = t :=
  Host.Outcome.next.inj (hu.symm.trans ht)

/-- Refutes O24: a channel with src = 1 is held by the fabric, which event 0xA05 reports as holder 1; the entry's own holder field is 0. -/
theorem not_driveSetBecomesPending : ¬ Obligations.DriveSetBecomesPending := by
  intro h
  obtain ⟨t, hexec, hdata⟩ := sourcedState_commit
  obtain ⟨-, -, -, hheld⟩ := h sourcedState 0 0 sourcedState_sound (by decide)
  obtain ⟨u, hnext, ⟨-, -, hreport, -, -⟩, -⟩ := hheld (by decide)
  rw [next_inj hexec hnext] at hreport
  rw [hreport] at hdata
  exact absurd hdata (by decide)

/-- Refutes O26: as O24, for the modes and the static bits of a channel that a fabric graph holds. -/
theorem not_driveModeAndStatic : ¬ Obligations.DriveModeAndStatic := by
  intro h
  obtain ⟨t, hexec, hdata⟩ := sourcedState_mode
  obtain ⟨-, -, -, hheld, -, -⟩ := h sourcedState 0 0 false false sourcedState_sound (by decide)
  obtain ⟨⟨u, hnext, -, -, hreport, -, -⟩, -⟩ := hheld (by decide)
  rw [next_inj hexec hnext] at hreport
  rw [hreport] at hdata
  exact absurd hdata (by decide)

/-- Refutes O25: a set that waits behind the pending one becomes pending at the reload, where the statement asks for none. -/
theorem not_driveReloadAndPeriod : ¬ Obligations.DriveReloadAndPeriod := by
  intro h
  obtain ⟨t, hexec, hpending⟩ := queuedState_reload
  obtain ⟨hreload, -, -⟩ := h queuedState 0 false ⟨1280, 1, 0, 0⟩ queuedState_sound (by decide) (by decide)
  obtain ⟨u, hnext, -, hnone, -⟩ := hreload ⟨1280, 1, 0, 0⟩ 0 (by decide) (by decide) (by decide) (by decide)
  rw [next_inj hexec hnext] at hnone
  exact absurd (hpending.symm.trans hnone) (by decide)

/-- Refutes O27: an instant before the last edge is as far from it, counted modulo 2^64, as the statement asks for; the edge is dropped all
the same (R174). -/
theorem not_driveTimedStates : ¬ Obligations.DriveTimedStates := by
  intro h
  obtain ⟨t, hexec, hdropped⟩ := lateState_edge
  obtain ⟨-, -, -, hedge⟩ := h lateState 0 false lateState_sound (by decide)
  obtain ⟨u, hnext, -, hedges, -⟩ := hedge ⟨0, 0, some 0, true, false⟩ [] (by decide) (by decide) (by decide)
    (fun e1 he => by cases he; decide)
  rw [next_inj hexec hnext] at hedges
  exact absurd (hdropped.symm.trans hedges) (by decide)

/-- Refutes O28: a fault latch that an edge cleared sets again before GATE_FAULT_REPEAT reports, so the channel does not stay as it is. -/
theorem not_driveSupervision : ¬ Obligations.DriveSupervision := by
  intro h
  obtain ⟨t, hexec, hlatched⟩ := latchingState_repeat
  obtain ⟨-, -, -, -, hrepeat, -⟩ := h latchingState 0 latchingState_sound
  obtain ⟨u, hnext, -, honly, -⟩ := hrepeat (by decide) (by decide) (by decide) (by decide)
  rw [next_inj hexec hnext] at honly
  have hdrv : t.drv = latchingState.drv := honly .drv (by decide)
  rw [State.drvRt, hdrv] at hlatched
  exact absurd hlatched (by decide)

end Sys2Proof.Proofs

/-! ## Cell lanes (R175 to R240) -/

namespace Sys2Proof.Machine

open Sys2Proof.Safety

/-! ### Lane table entries at the edge of what the statements allow -/

theorem wr_sound {s : State} (f : Field) (i v : Nat) (h : Sound s) : Sound (s.wr f i v) :=
  (State.wr_keeps (M := 0x10) (by decide) (.refl s)).sound h

/-- Lanes 0 and 1, bonded. -/
def bondedLane : LaneEntry := ⟨0, 1, 1, 0, 0, 0, .redundant, 2⟩

/-- The number of an arm whose interlock count falls on the place of the lane's tx_mask: nothing bounds the numbers of the arm table. -/
def farArm : Nat := regKey Reg.LANE_STAT.tx_mask 0 - regKey Reg.ARM_INTERLOCK_CNT.count 0

/-- One cell of that arm is bound on lane 0. -/
def farArmTables : BitStream :=
  { State.reset.bs with
    lanes := [bondedLane], cells := [⟨0, false, 0, some farArm, none, 0, some 0, none, none⟩]
    arms := [⟨farArm, 0, 0, 0, 0, none, 0, 0, 0, 0, 0, 0, 0, 0, false, 0, 0, 0, 0, 0, 0, 0, 0⟩] }

/-- Both members of the group send, the group is up, and the unit is ACTIVE. -/
def farArmState : State :=
  let s := { upState with bs := farArmTables, cells := [(0, { CellRt.clear with slot := some 0 })] }
  (((((((s.wr Reg.RED_STAT.role 0 3).wr Reg.LANE_STAT.up 0 1).wr Reg.LANE_CTRL.tx_en 0 1).wr Reg.LANE_CTRL.tx_en 1 1).wr
    Reg.LANE_STAT.far_rx 0 3).wr Reg.LANE_STAT.tx_mask 0 3).wr Reg.PWR_DOM_STAT.state 0 (2 * 4 ^ 6))

theorem farArmState_sound : Sound farArmState :=
  wr_sound _ _ _ (wr_sound _ _ _ (wr_sound _ _ _ (wr_sound _ _ _ (wr_sound _ _ _ (wr_sound _ _ _ (wr_sound _ _ _
    { upState_sound with cells := by decide }))))))

/-- A refused command (both switches of a leg) counts, the active set changes with it, and only the frame's head leaves. -/
theorem farArmState_frame : ∃ t, exec (.downlinkFrame 0 0 0 0 [(0, .set 3 0)]) farArmState = .next t
    ∧ ((blocks t.wire).filter (fun b => !between b)).length = 3 := ⟨_, rfl, by decide +kernel⟩

/-- Lane 0 with a width of 0: it is no member of its own entry. -/
def emptyLane : LaneEntry := ⟨0, 1, 1, 0, 0, 0, .none, 0⟩

def emptyLaneState : State := { upState with bs := { upState.bs with lanes := [emptyLane] } }

theorem emptyLaneState_sound : Sound emptyLaneState := { upState_sound with }

/-- An entry that spans many lanes: nothing bounds the width of the lane table. -/
def wideLane (width : Nat) : LaneEntry := ⟨0, 1, 1, 0, 0, 0, .none, width⟩

theorem wideLane_members (n : Nat) : (wideLane (n + 1)).members = (wideLane n).members ++ [n] := by
  unfold LaneEntry.members wideLane
  rw [List.range_succ, List.map_append]
  simp only [List.map_cons, List.map_nil, Nat.zero_add]

/-! ### Lock (R218) -/

theorem State.setLaneUp_last (s : State) (n : Nat) : s.setLaneUp (wideLane (n + 1)) true
    = (((s.setLaneUp (wideLane n) true).wr Reg.LANE_STAT.up n 1).showLane n).setCond (120 + n) false := by
  unfold State.setLaneUp
  rw [wideLane_members, List.foldl_append]
  rfl

/-- Member 8,193 of a wide entry shows whether it is up in the place where lane 1 shows its deskew. -/
theorem regKey_up_far : regKey Reg.LANE_STAT.up 8193 = regKey Reg.LANE_STAT.deskewed 1 := by decide

theorem State.setLaneUp_wide {s : State} (h : Sound s) : (s.setLaneUp (wideLane (8193 + 1)) true).rd Reg.LANE_STAT.deskewed 1 = 1 := by
  have hinit : Sound (s.setLaneUp (wideLane 8193) true) := (State.setLaneUp_keeps (M := 0x1010) (by decide) (.refl s)).sound h
  have hlast := State.setLaneUp_last s 8193
  have hup := State.rd_wr_self Reg.LANE_STAT.up 8193 1 hinit.regs
  have hstate : ∀ u : State, tabWf 0 u.regs = true → (u.showLane 8193).rd Reg.LANE_STAT.deskewed 1 = u.rd Reg.LANE_STAT.deskewed 1 :=
    fun u hu => State.rd_wr_ne _ _ _ _ _ hu (by decide)
  rw [hlast, State.setCond_rd, hstate _ (State.regs_wr _ _ _ hinit.regs)]
  unfold State.rd at hup ⊢
  rw [← regKey_up_far]
  exact hup

/-- A group whose base lane is locked shows all its members as up. -/
theorem State.refreshGroup_wide {s : State} (h : Sound s) (hlock : s.flag Reg.LANE_STAT.lock 0 = true) :
    (s.refreshGroup (wideLane (8193 + 1))).rd Reg.LANE_STAT.deskewed 1 = 1 := by
  have hmask : ∀ v, Sound (s.wr Reg.LANE_STAT.rx_mask 0 v) := fun v => wr_sound _ _ _ h
  have hgroup : ∀ v, (s.wr Reg.LANE_STAT.rx_mask 0 v).groupUp (wideLane (8193 + 1)) = true := by
    intro v
    have hread : (s.wr Reg.LANE_STAT.rx_mask 0 v).flag Reg.LANE_STAT.lock 0 = true := by
      unfold State.flag at hlock ⊢
      rwa [State.rd_wr_off _ _ _ _ h.regs (by decide)]
    exact hread
  have hshow : ∀ u : State, tabWf 0 u.regs = true →
      (u.showDegraded (wideLane (8193 + 1))).rd Reg.LANE_STAT.deskewed 1 = u.rd Reg.LANE_STAT.deskewed 1 :=
    fun u hu => State.rd_wr_ne _ _ _ _ _ hu (by decide)
  unfold State.refreshGroup
  dsimp only
  rw [if_pos (.inl rfl)]
  change (((s.wr Reg.LANE_STAT.rx_mask 0 (s.receiveSet (wideLane (8193 + 1)))).setLaneUp (wideLane (8193 + 1))
    ((s.wr Reg.LANE_STAT.rx_mask 0 (s.receiveSet (wideLane (8193 + 1)))).groupUp (wideLane (8193 + 1)))).showDegraded (wideLane (8193 + 1))).rd _ 1 = 1
  rw [hgroup, hshow _ ((State.setLaneUp_keeps (M := 0x1010) (by decide) (.refl _)).sound (hmask _)).regs]
  exact State.setLaneUp_wide (hmask _)

/-- Lanes 0 and 1 of a wide entry are locked. -/
def wideState : State :=
  (({ upState with bs := { upState.bs with lanes := [wideLane (8193 + 1)] } }).wr Reg.LANE_STAT.lock 0 1).wr Reg.LANE_STAT.lock 1 1

theorem wideState_sound : Sound wideState := wr_sound _ _ _ (wr_sound _ _ _ { upState_sound with })

/-- Lane 1 as a loss of lock leaves it, before its group is looked at again. -/
def State.unlock (s : State) (l cause : Nat) : State :=
  (((s.wr Reg.LANE_STAT.lock l 0).wr Reg.LANE_STAT.deskewed l 0).count Reg.LANE_LOCK_CNT.lock_losses l).raise 0x200 l cause

theorem State.loseLock_locked {s : State} {l : Nat} {e : LaneEntry} (cause : Nat) (hgroup : s.bs.groupOf l = some e)
    (hlock : s.flag Reg.LANE_STAT.lock l = true) (heye : (s.unlock l cause).flag Reg.LANE_EYE_CTRL.start l = false) :
    s.loseLock l cause = (s.unlock l cause).refreshGroup e := by
  unfold State.loseLock
  rw [hgroup]
  dsimp only
  rw [hlock]
  simp only [Bool.not_true, Bool.false_eq_true, if_false]
  change State.refreshGroup (if (s.unlock l cause).flag Reg.LANE_EYE_CTRL.start l then _ else s.unlock l cause) e = _
  rw [heye]
  rfl

theorem exec_lockLost {s : State} {lane : Fin 96} {headers : Nat} (hgroup : (s.bs.groupOf lane).isSome = true) (h : 16 ≤ headers) :
    exec (.lockLost lane headers) s = .next (((s.add Reg.LANE_ERR_CNT.hdr_err lane headers).loseLock lane 0).laneDown s) := by
  change execLockLost lane headers s = _
  unfold execLockLost
  rw [if_pos hgroup]
  dsimp only
  rw [if_pos h]

/-! ### Received frames (R188) -/

/-- A row of `n` blocks with invalid headers. -/
def invalidRow (n : Nat) : List (Nat × Nat) := List.replicate n (0, 0)

/-- Blocks with invalid headers are no frame. -/
theorem splitFrame_invalid {bs : List (Nat × Nat)} (h : ∀ x ∈ bs, x = (0, 0)) : splitFrame bs = none := by
  match bs with
  | [] => rfl
  | x :: bs =>
    rw [h x List.mem_cons_self]
    rfl

theorem readRows_invalid (e : LaneEntry) (mask n : Nat) : ∀ x ∈ readRows e mask [invalidRow n], x = (0, 0) := by
  have hrow : ∀ x ∈ invalidRow n, x = (0, 0) := fun x hx => List.eq_of_mem_replicate hx
  intro x hx
  unfold readRows at hx
  split at hx
  · exact absurd hx (by simp [readRows])
  · simp only [readRows, List.append_nil, List.mem_map, List.mem_filter] at hx
    obtain ⟨p, ⟨hp, -⟩, rfl⟩ := hx
    exact hrow _ (List.of_mem_zip hp).2

/-- The headers of a wide entry's row are counted on each member in turn. -/
theorem State.countHeaders_last (s : State) {n m : Nat} (h : n < m) : s.countHeaders (wideLane (n + 1)) [invalidRow m]
    = (s.countHeaders (wideLane n) [invalidRow m]).add Reg.LANE_ERR_CNT.hdr_err n 1 := by
  have hblock : (invalidRow m)[n - 0]? = some (0, 0) := by
    rw [Nat.sub_zero]
    exact List.getElem?_replicate_of_lt h
  have hfold : ∀ u : State, [n].foldl (fun (s : State) l =>
      let k := ([invalidRow m].filter (fun row => match row[l - 0]? with
        | some x => x.1 % 3 == 0
        | none => false)).length
      if k = 0 then s else s.add Reg.LANE_ERR_CNT.hdr_err l k) u = u.add Reg.LANE_ERR_CNT.hdr_err n 1 := by
    intro u
    simp only [List.foldl_cons, List.foldl_nil, List.filter_cons, hblock]
    rfl
  unfold State.countHeaders
  rw [wideLane_members, List.foldl_append]
  exact hfold _

/-- The number of a member whose count of invalid headers stands in the place of lane 0's count of discarded frames. -/
def farMember : Nat := regKey Reg.LANE_FRAME_CNT.up_discard 0 - regKey Reg.LANE_ERR_CNT.hdr_err 0

theorem regKey_header_far : regKey Reg.LANE_ERR_CNT.hdr_err farMember = regKey Reg.LANE_FRAME_CNT.up_discard 0 := by decide

/-- A unit with one wide entry. -/
def wideUnit (n : Nat) : State := { upState with bs := { upState.bs with lanes := [wideLane (n + 1)] } }

theorem wideUnit_sound (n : Nat) : Sound (wideUnit n) := { upState_sound with }

/-- Its lane 0 is up. -/
def wideUpState (n : Nat) : State := (wideUnit n).wr Reg.LANE_STAT.up 0 1

theorem wideUpState_sound (n : Nat) : Sound (wideUpState n) := wr_sound _ _ _ (wideUnit_sound n)

theorem wideUpState_entry (n : Nat) : (wideUpState n).bs.laneEntry 0 = some (wideLane (n + 1)) := rfl

theorem wideUpState_up (n : Nat) : (wideUpState n).laneUp 0 = true := by
  unfold State.laneUp State.flag wideUpState
  rw [State.rd_wr_self _ _ _ (wideUnit_sound n).regs]
  rfl

/-- The row of invalid headers has been counted. -/
def wideCounted (n : Nat) : State := (wideUpState n).countHeaders (wideLane (n + 1)) [invalidRow (n + 1)]

theorem wideCounted_keeps (n : Nat) : Keeps 0x10 (wideUpState n) (wideCounted n) := State.countHeaders_keeps (by decide) (.refl _)

/-- The last member has counted its header. -/
theorem wideCounted_last (n : Nat) : 1 ≤ (wideCounted n).rd Reg.LANE_ERR_CNT.hdr_err n := by
  have hprev : Keeps 0x10 (wideUpState n) ((wideUpState n).countHeaders (wideLane n) [invalidRow (n + 1)]) :=
    State.countHeaders_keeps (by decide) (.refl _)
  have hself := State.rd_wr_self Reg.LANE_ERR_CNT.hdr_err n
    (min (((wideUpState n).countHeaders (wideLane n) [invalidRow (n + 1)]).rd Reg.LANE_ERR_CNT.hdr_err n + 1)
      (2 ^ Reg.LANE_ERR_CNT.hdr_err.width - 1)) (hprev.sound (wideUpState_sound n)).regs
  unfold wideCounted
  rw [State.countHeaders_last _ (Nat.lt_succ_self _)]
  unfold State.add
  rw [hself]
  have hwidth : (2 : Nat) ^ Reg.LANE_ERR_CNT.hdr_err.width = 65536 := rfl
  rw [hwidth]
  omega

/-- A field that stands in the place of another reads as it, where both have one reset value. -/
theorem State.rd_of_regKey (s : State) {f g : Field} {i j : Nat} (hk : regKey f i = regKey g j) (hr : f.reset = g.reset) :
    s.rd f i = s.rd g j := by
  unfold State.rd
  rw [hk, hr]

/-- A frame that is none is discarded; its headers are counted first. -/
theorem State.uplink_none {s : State} {e : LaneEntry} {rows : List (List (Nat × Nat))} (te tz : Nat)
    (h : splitFrame (readRows e ((s.countHeaders e rows).rd Reg.LANE_STAT.far_tx e.lane) rows) = none) :
    s.uplink e rows te tz = (s.countHeaders e rows).discardFrame e.lane 4
      (((readRows e ((s.countHeaders e rows).rd Reg.LANE_STAT.far_tx e.lane) rows).headD (2, 0)).2 / 2 ^ 32 % 2 ^ 24) := by
  unfold State.uplink
  dsimp only
  rw [h]

/-- A frame that leaves the lanes as they are changes no role. -/
theorem exec_uplinkFrame {s : State} {lane : Fin 96} {e : LaneEntry} (rows : List (List (Nat × Nat))) (te tz : Nat)
    (he : s.bs.laneEntry lane = some e) (hup : s.laneUp lane = true) (hlanes : (s.uplink e rows te tz).lanes = s.lanes) :
    exec (.uplinkFrame lane rows te tz) s = .next ((s.uplink e rows te tz).askPoints (76 + lane / 24)
      ((s.boundCells lane).map (fun x => .cell x.2.cell 0))) := by
  change execUplinkFrame lane rows te tz s = _
  unfold execUplinkFrame
  rw [he]
  dsimp only
  rw [if_neg (by simp [hup])]
  refine congrArg _ (if_neg ?_)
  rintro ⟨-, -, -, -, hhigher⟩
  have hlane : ∀ (u : State) (w : Nat) (ps : List PointKey), (u.askPoints w ps).lane lane = u.lane lane := fun u w ps => rfl
  rw [hlane, State.lane, State.lane, hlanes] at hhigher
  exact absurd hhigher (Nat.lt_irrefl _)

/-- The frame is discarded, and one more is counted. -/
theorem wideUpState_frame (n : Nat) : ∃ t, exec (.uplinkFrame 0 [invalidRow (n + 1)] 0 0) (wideUpState n) = .next t
    ∧ t.rd Reg.LANE_FRAME_CNT.up_discard 0 = min ((wideCounted n).rd Reg.LANE_FRAME_CNT.up_discard 0 + 1) (2 ^ 16 - 1) := by
  have huplink : (wideUpState n).uplink (wideLane (n + 1)) [invalidRow (n + 1)] 0 0 = (wideCounted n).discardFrame 0 4 _ :=
    State.uplink_none 0 0 (splitFrame_invalid (readRows_invalid _ _ _))
  have hkeeps : Keeps 0x512 (wideUpState n) ((wideUpState n).uplink (wideLane (n + 1)) [invalidRow (n + 1)] 0 0) := by
    rw [huplink]
    exact State.discardFrame_keeps (by decide) ((wideCounted_keeps n).mono (by decide))
  have hstep := exec_uplinkFrame (lane := 0) [invalidRow (n + 1)] 0 0 (wideUpState_entry n) (wideUpState_up n) (hkeeps.lanes.get (by decide))
  have hask : ∀ (u : State) (w : Nat) (ps : List PointKey) (f : Field), (u.askPoints w ps).rd f 0 = u.rd f 0 := fun _ _ _ _ => rfl
  have hregs := ((wideCounted_keeps n).sound (wideUpState_sound n)).regs
  refine ⟨_, hstep, ?_⟩
  rw [hask, huplink]
  exact (State.rd_raise (State.regs_count _ _ hregs) _ _ _ (apart_eventRegs Reg.LANE_FRAME_CNT.up_discard (by decide) rfl).notMem).trans
    (State.rd_count_self _ _ hregs)

/-- Lane 1 after 16 invalid headers. -/
def wideLost : State := (wideState.add Reg.LANE_ERR_CNT.hdr_err 1 16).unlock 1 0

theorem wideLost_sound : Sound wideLost := by
  have hkeeps : Keeps 0x512 (wideState.add Reg.LANE_ERR_CNT.hdr_err 1 16) wideLost := by
    unfold wideLost State.unlock
    exact State.raise_keeps (by decide) (State.count_keeps (by decide) (State.wr_keeps (by decide) (State.wr_keeps (by decide) (.refl _))))
  exact hkeeps.sound (wr_sound _ _ _ wideState_sound)

end Sys2Proof.Machine

namespace Sys2Proof.Proofs

open Sys2Proof Sys2Proof.Machine Sys2Proof.Safety

/-- Refutes O29: the interlock count of an arm of the arm table may fall on the place of the lane's active set, and the frame's blocks after its
head then go to no member. -/
theorem not_downlinkFrameLeaves : ¬ Obligations.DownlinkFrameLeaves := by
  intro h
  obtain ⟨t, hexec, hcount⟩ := farArmState_frame
  obtain ⟨hframe, -⟩ := h farArmState 0 0 0 0 [(0, .set 3 0)] farArmState_sound
  obtain ⟨u, ps, hnext, -, hblocks, hlength, -⟩ :=
    hframe bondedLane (by decide) (by decide) (by decide) (by decide) (.inr ⟨by decide, by decide, by decide⟩)
  rw [next_inj hexec hnext] at hblocks
  have hstart : (blocks farArmState.wire).length = 0 := by decide
  have hlen := congrArg List.length hblocks
  rw [hstart, List.drop_zero, List.length_map, hcount] at hlen
  simp only [List.length_append, List.length_map, List.length_take, List.length_drop, List.length_singleton] at hlen
  omega

/-- Refutes O30: the invalid headers of a member of high number are counted in the place of the lane's discarded frames, which then are two. -/
theorem not_uplinkFrameReports : ¬ Obligations.UplinkFrameReports := by
  intro h
  have hcount : ∀ n, ∃ t, exec (.uplinkFrame 0 [invalidRow (n + 1)] 0 0) (wideUpState n) = .next t
      ∧ t.rd Reg.LANE_FRAME_CNT.up_discard 0 = min ((wideUpState n).rd Reg.LANE_FRAME_CNT.up_discard 0 + 1) 65535 := by
    intro n
    obtain ⟨-, hbad, -⟩ := h (wideUpState n) 0 (wideLane (n + 1)) [invalidRow (n + 1)] 0 0 (wideUpState_sound n) (wideUpState_entry n)
    obtain ⟨t, hnext, hone, -⟩ := hbad (wideUpState_up n) (splitFrame_invalid (readRows_invalid _ _ _))
    exact ⟨t, hnext, hone⟩
  obtain ⟨t, hnext, hone⟩ := hcount farMember
  obtain ⟨u, hexec, htwo⟩ := wideUpState_frame farMember
  rw [next_inj hnext hexec] at htwo
  have hnone : (wideUpState farMember).rd Reg.LANE_FRAME_CNT.up_discard 0 = 0 :=
    (State.rd_wr_off _ _ _ _ upState_sound.regs (by decide)).trans (by decide)
  have hmember := wideCounted_last farMember
  rw [State.rd_of_regKey _ regKey_header_far rfl] at hmember
  rw [hone, hnone] at htwo
  omega

/-- Refutes O31: in a group without bound on its width a member of high number shows that it is up in the place of another lane's deskew. -/
theorem not_laneLock : ¬ Obligations.LaneLock := by
  intro h
  obtain ⟨-, -, -, hlose, -⟩ := h wideState 1 (wideLane (8193 + 1)) wideState_sound (by decide +kernel)
  obtain ⟨t, hnext, ⟨-, hdeskewed, -⟩, -⟩ := hlose 16 (by decide) (by decide +kernel) (by decide)
  have hstep := exec_lockLost (s := wideState) (lane := 1) (headers := 16) (by decide +kernel) (by decide)
  have hloss : (wideState.add Reg.LANE_ERR_CNT.hdr_err ((1 : Fin 96) : Nat) 16).loseLock ((1 : Fin 96) : Nat) 0 = wideLost.refreshGroup (wideLane (8193 + 1)) :=
    State.loseLock_locked 0 (by decide +kernel) (by decide +kernel) (by decide +kernel)
  have hkeeps : Keeps 0x1512 wideLost (wideLost.refreshGroup (wideLane (8193 + 1))) := State.refreshGroup_keeps (by decide) (.refl _)
  have hhand : (wideLost.refreshGroup (wideLane (8193 + 1))).red.hand = .none := by
    rw [hkeeps.red.get (by decide)]
    decide +kernel
  have hend : (wideLost.refreshGroup (wideLane (8193 + 1))).laneDown wideState = wideLost.refreshGroup (wideLane (8193 + 1)) :=
    if_neg (fun hdown => absurd (hhand.symm.trans hdown.1) (by decide))
  rw [next_inj hstep hnext, hloss, hend] at hdeskewed
  exact absurd (hdeskewed.symm.trans (State.refreshGroup_wide wideLost_sound (by decide +kernel))) (by decide)

/-- Refutes O32: the marker row counts on the base lane, which is no member of an entry of width 0. -/
theorem not_alignmentMarkers : ¬ Obligations.AlignmentMarkers := by
  intro h
  obtain ⟨hsend, -⟩ := h emptyLaneState 0 emptyLane emptyLaneState_sound
  obtain ⟨t, -, hmarker, -, -, -, hothers, -⟩ := hsend (by decide)
  rw [hothers ((0 : Fin 96) : Nat) (by decide)] at hmarker
  exact absurd hmarker (by decide)

end Sys2Proof.Proofs

/-! ## Equalisation, the eye scan and the isolation stage (R233 to R250) -/

namespace Sys2Proof.Machine

open Sys2Proof.Safety

/-! ### Units of a table -/

theorem State.cell_modCell {s : State} (h : tabWf CellRt.clear s.cells = true) (c : Nat) (f : CellRt → CellRt) (b : Nat) :
    (s.modCell c f).cell b = if b = c then f (s.cell c) else s.cell b := tabGet_tabSet h

theorem State.lane_modLane {s : State} (h : tabWf LaneRt.clear s.lanes = true) (l : Nat) (f : LaneRt → LaneRt) (m : Nat) :
    (s.modLane l f).lane m = if m = l then f (s.lane l) else s.lane m := tabGet_tabSet h

theorem State.unit_modUnit {s : State} (h : tabWf UnitRt.clear s.units = true) (u : Nat) (f : UnitRt → UnitRt) (v : Nat) :
    (s.modUnit u f).unit v = if v = u then f (s.unit u) else s.unit v := tabGet_tabSet h

/-! ### EQ_WRITE (R233, R234) -/

/-- The registers of a stored LANE_EQ word. -/
def State.storeEq (s : State) (l v : Nat) : State :=
  ((((s.wr Reg.LANE_EQ.preset l v).wr Reg.LANE_EQ.override l (v / 2 ^ 4)).wr Reg.LANE_EQ.tx_pre l (v / 2 ^ 8)).wr Reg.LANE_EQ.tx_post l
    (v / 2 ^ 16)).wr Reg.LANE_EQ.rx_ctle l (v / 2 ^ 24)

theorem exec_eqWrite {s : State} (hup : HostUp s) (lane : Fin 96) (v : Nat) : exec (.eqWrite lane v) s = .next (s.writeEq lane v) := by
  change execEqWrite lane v s = _
  unfold execEqWrite
  rw [byHost_up hup]

theorem exec_eyeScanStart {s : State} (hup : HostUp s) (lane : Fin 96) (v : Nat) :
    exec (.eyeScanStart lane v) s = .next (s.startEye lane v) := by
  change execEyeScanStart lane v s = _
  unfold execEyeScanStart
  rw [byHost_up hup]

/-- The fields of LANE_EQ. -/
abbrev eqFields : List Field := [Reg.LANE_EQ.preset, Reg.LANE_EQ.override, Reg.LANE_EQ.tx_pre, Reg.LANE_EQ.tx_post, Reg.LANE_EQ.rx_ctle]

abbrev eqRegs (l : Nat) : List (Field × Nat) := eqFields.map (fun f => (f, l))

theorem State.storeEq_effect {s : State} (h : tabWf 0 s.regs = true) (l v : Nat) :
    (s.storeEq l v).rd Reg.LANE_EQ.preset l = v % 2 ^ 4 ∧ (s.storeEq l v).rd Reg.LANE_EQ.override l = v / 2 ^ 4 % 2
      ∧ (s.storeEq l v).rd Reg.LANE_EQ.tx_pre l = v / 2 ^ 8 % 2 ^ 4 ∧ (s.storeEq l v).rd Reg.LANE_EQ.tx_post l = v / 2 ^ 16 % 2 ^ 5
      ∧ (s.storeEq l v).rd Reg.LANE_EQ.rx_ctle l = v / 2 ^ 24 % 2 ^ 4 ∧ Wrote (eqRegs l) s (s.storeEq l v) := by
  have w1 : Wrote (eqRegs l) s _ := (Wrote.refl h).wr (f := Reg.LANE_EQ.preset) (i := l) v (by simp)
  have w2 := w1.wr (f := Reg.LANE_EQ.override) (i := l) (v / 2 ^ 4) (by simp)
  have w3 := w2.wr (f := Reg.LANE_EQ.tx_pre) (i := l) (v / 2 ^ 8) (by simp)
  have w4 := w3.wr (f := Reg.LANE_EQ.tx_post) (i := l) (v / 2 ^ 16) (by simp)
  have w5 := w4.wr (f := Reg.LANE_EQ.rx_ctle) (i := l) (v / 2 ^ 24) (by simp)
  have off5 := fun {f : Field} hf => State.rd_wr_off Reg.LANE_EQ.rx_ctle l (v / 2 ^ 24) f w4.wf hf
  have off4 := fun {f : Field} hf => State.rd_wr_off Reg.LANE_EQ.tx_post l (v / 2 ^ 16) f w3.wf hf
  have off3 := fun {f : Field} hf => State.rd_wr_off Reg.LANE_EQ.tx_pre l (v / 2 ^ 8) f w2.wf hf
  refine ⟨?_, ?_, ?_, ?_, State.rd_wr_self _ _ _ w4.wf, w5⟩
  · exact (off5 (by decide)).trans ((off4 (by decide)).trans ((off3 (by decide)).trans
      ((State.rd_wr_off _ _ _ _ w1.wf (by decide)).trans (State.rd_wr_self _ _ _ h))))
  · exact (off5 (by decide)).trans ((off4 (by decide)).trans ((off3 (by decide)).trans (State.rd_wr_self _ _ _ w1.wf)))
  · exact (off5 (by decide)).trans ((off4 (by decide)).trans (State.rd_wr_self _ _ _ w2.wf))
  · exact (off5 (by decide)).trans (State.rd_wr_self _ _ _ w3.wf)

theorem State.writeEq_stored {s : State} {l v : Nat} (h : v / 2 ^ 8 % 2 ^ 4 + v / 2 ^ 16 % 2 ^ 5 ≤ 40) :
    s.writeEq l v = (s.storeEq l v).modLane l (fun r => { r with
      eqPending := some (((s.storeEq l v).eqAsked l).1, ((s.storeEq l v).eqAsked l).2.1), eqRx := ((s.storeEq l v).eqAsked l).2.2 }) :=
  if_neg (Nat.not_lt.mpr h)

/-- The equalisation that the written word asks for. -/
theorem State.eqAsked_stored {s : State} (h : tabWf 0 s.regs = true) (l v : Nat) :
    (s.storeEq l v).eqAsked l = if v / 2 ^ 4 % 2 = 1 then (v / 2 ^ 8 % 2 ^ 4, v / 2 ^ 16 % 2 ^ 5, v / 2 ^ 24 % 2 ^ 4)
      else eqPreset (v % 2 ^ 4) := by
  obtain ⟨hpreset, hover, hpre, hpost, hctle, -⟩ := State.storeEq_effect h l v
  unfold State.eqAsked State.flag
  rw [hover, hpre, hpost, hctle, hpreset]
  rcases Nat.mod_two_eq_zero_or_one (v / 2 ^ 4) with hzero | hone
  · rw [hzero]
    rfl
  · rw [hone]
    rfl

/-! ### The eye scan (R236) -/

/-- The registers of a scan that starts. -/
def State.storeEye (s : State) (l value : Nat) : State :=
  ((((s.wr Reg.LANE_EYE_CTRL.v l (value / 2 ^ 8)).wr Reg.LANE_EYE_CTRL.ph l (value / 2 ^ 16)).wr Reg.LANE_EYE_CTRL.dwell l
    (value / 2 ^ 24)).wr Reg.LANE_EYE_CTRL.start l 1).wr Reg.LANE_EYE_STAT.invalid l 0

abbrev eyeFields : List Field :=
  [Reg.LANE_EYE_CTRL.start, Reg.LANE_EYE_CTRL.v, Reg.LANE_EYE_CTRL.ph, Reg.LANE_EYE_CTRL.dwell, Reg.LANE_EYE_STAT.invalid]

abbrev eyeRegs (l : Nat) : List (Field × Nat) := eyeFields.map (fun f => (f, l))

theorem State.storeEye_effect {s : State} (h : tabWf 0 s.regs = true) (l v : Nat) :
    (s.storeEye l v).rd Reg.LANE_EYE_CTRL.start l = 1 ∧ (s.storeEye l v).rd Reg.LANE_EYE_CTRL.v l = v / 2 ^ 8 % 2 ^ 6
      ∧ (s.storeEye l v).rd Reg.LANE_EYE_CTRL.ph l = v / 2 ^ 16 % 2 ^ 8 ∧ (s.storeEye l v).rd Reg.LANE_EYE_CTRL.dwell l = v / 2 ^ 24 % 2 ^ 6
      ∧ (s.storeEye l v).rd Reg.LANE_EYE_STAT.invalid l = 0 ∧ Wrote (eyeRegs l) s (s.storeEye l v) := by
  have w1 : Wrote (eyeRegs l) s _ := (Wrote.refl h).wr (f := Reg.LANE_EYE_CTRL.v) (i := l) (v / 2 ^ 8) (by simp)
  have w2 := w1.wr (f := Reg.LANE_EYE_CTRL.ph) (i := l) (v / 2 ^ 16) (by simp)
  have w3 := w2.wr (f := Reg.LANE_EYE_CTRL.dwell) (i := l) (v / 2 ^ 24) (by simp)
  have w4 := w3.wr (f := Reg.LANE_EYE_CTRL.start) (i := l) 1 (by simp)
  have w5 := w4.wr (f := Reg.LANE_EYE_STAT.invalid) (i := l) 0 (by simp)
  have off5 := fun {f : Field} hf => State.rd_wr_off Reg.LANE_EYE_STAT.invalid l 0 f w4.wf hf
  have off4 := fun {f : Field} hf => State.rd_wr_off Reg.LANE_EYE_CTRL.start l 1 f w3.wf hf
  have off3 := fun {f : Field} hf => State.rd_wr_off Reg.LANE_EYE_CTRL.dwell l (v / 2 ^ 24) f w2.wf hf
  refine ⟨?_, ?_, ?_, ?_, State.rd_wr_self _ _ _ w4.wf, w5⟩
  · exact (off5 (by decide)).trans (State.rd_wr_self _ _ _ w3.wf)
  · exact (off5 (by decide)).trans ((off4 (by decide)).trans ((off3 (by decide)).trans
      ((State.rd_wr_off _ _ _ _ w1.wf (by decide)).trans (State.rd_wr_self _ _ _ h))))
  · exact (off5 (by decide)).trans ((off4 (by decide)).trans ((off3 (by decide)).trans (State.rd_wr_self _ _ _ w1.wf)))
  · exact (off5 (by decide)).trans ((off4 (by decide)).trans (State.rd_wr_self _ _ _ w2.wf))

theorem State.startEye_busy {s : State} {l : Nat} (value : Nat) (h : s.flag Reg.LANE_EYE_CTRL.start l = true) :
    s.startEye l value = s.rejectWrite (0x20030 + 256 * l) := by
  unfold State.startEye
  rw [if_pos h]
  rfl

section Idle

variable {s : State} {l : Nat} (value : Nat) (h : s.flag Reg.LANE_EYE_CTRL.start l = false)
include h

theorem State.startEye_unused (hgroup : (s.bs.groupOf l).isSome = false) : s.startEye l value = s := by
  unfold State.startEye
  rw [if_neg (by simp [h]), if_pos (by simpa using hgroup)]

theorem State.startEye_outside (hgroup : (s.bs.groupOf l).isSome = true) (hrange : eyeInRange value = false) :
    s.startEye l value = s.rejectWrite (0x20030 + 256 * l) := by
  unfold State.startEye
  rw [if_neg (by simp [h]), if_neg (by simpa [Option.isSome_iff_ne_none] using hgroup), if_pos (by simp [hrange])]
  rfl

theorem State.startEye_stored (hgroup : (s.bs.groupOf l).isSome = true) (hrange : eyeInRange value = true) :
    s.startEye l value = (s.storeEye l value).modLane l (fun r => { r with
      eyeBad := !(s.storeEye l value).flag Reg.LANE_STAT.lock l }) := by
  unfold State.startEye
  rw [if_neg (by simp [h]), if_neg (by simpa [Option.isSome_iff_ne_none] using hgroup), if_neg (by simp [hrange])]
  rfl

end Idle

/-- The registers of a scan that ends. -/
def State.storeEyeEnd (s : State) (l n : Nat) (invalid : Bool) : State :=
  ((s.wr Reg.LANE_EYE_CTRL.start l 0).wr Reg.LANE_EYE_STAT.errors l n).wr Reg.LANE_EYE_STAT.invalid l (bit invalid)

abbrev eyeEndFields : List Field := [Reg.LANE_EYE_CTRL.start, Reg.LANE_EYE_STAT.errors, Reg.LANE_EYE_STAT.invalid]

abbrev eyeEndRegs (l : Nat) : List (Field × Nat) := eyeEndFields.map (fun f => (f, l))

theorem State.storeEyeEnd_effect {s : State} (h : tabWf 0 s.regs = true) (l : Nat) {n : Nat} (hn : n < 2 ^ 31) (invalid : Bool) :
    (s.storeEyeEnd l n invalid).rd Reg.LANE_EYE_CTRL.start l = 0 ∧ (s.storeEyeEnd l n invalid).rd Reg.LANE_EYE_STAT.errors l = n
      ∧ (s.storeEyeEnd l n invalid).rd Reg.LANE_EYE_STAT.invalid l = bit invalid ∧ Wrote (eyeEndRegs l) s (s.storeEyeEnd l n invalid) := by
  have w1 : Wrote (eyeEndRegs l) s _ := (Wrote.refl h).wr (f := Reg.LANE_EYE_CTRL.start) (i := l) 0 (by simp)
  have w2 := w1.wr (f := Reg.LANE_EYE_STAT.errors) (i := l) n (by simp)
  have w3 := w2.wr (f := Reg.LANE_EYE_STAT.invalid) (i := l) (bit invalid) (by simp)
  have off3 := fun {f : Field} hf => State.rd_wr_off Reg.LANE_EYE_STAT.invalid l (bit invalid) f w2.wf hf
  refine ⟨?_, ?_, ?_, w3⟩
  · exact (off3 (by decide)).trans ((State.rd_wr_off _ _ _ _ w1.wf (by decide)).trans (State.rd_wr_self _ _ _ h))
  · exact (off3 (by decide)).trans ((State.rd_wr_self _ _ _ w1.wf).trans (Nat.mod_eq_of_lt hn))
  · exact (State.rd_wr_self _ _ _ w2.wf).trans (by cases invalid <;> rfl)

/-- The end of a scan, with its event while the lane reports it. -/
theorem State.endEye_effect {s : State} (h : tabWf 0 s.regs = true) {l : Nat} (hl : l < 8192) (errors : Nat) (invalid : Bool) :
    (s.endEye l errors invalid).rd Reg.LANE_EYE_CTRL.start l = 0
      ∧ (s.endEye l errors invalid).rd Reg.LANE_EYE_STAT.errors l = min errors (2 ^ 31 - 1)
      ∧ (s.endEye l errors invalid).rd Reg.LANE_EYE_STAT.invalid l = bit invalid
      ∧ (s.flag Reg.LANE_CTRL.eye_ev l = false → (s.endEye l errors invalid).evq = s.evq)
      ∧ (s.flag Reg.LANE_CTRL.eye_ev l = true →
          Reports s (s.endEye l errors invalid) 0x209 l (min errors (2 ^ 31 - 1) + 2 ^ 31 * bit invalid))
      ∧ Only eventParts s (s.endEye l errors invalid)
      ∧ RegsBut (eyeEndRegs l ++ eventRegs) s (s.endEye l errors invalid) := by
  obtain ⟨hstart, herrors, hinvalid, hstore⟩ := State.storeEyeEnd_effect h l (n := min errors (2 ^ 31 - 1)) (by omega) invalid
  have hkeeps : Keeps 0x10 s (s.storeEyeEnd l (min errors (2 ^ 31 - 1)) invalid) :=
    State.wr_keeps (by decide) (State.wr_keeps (by decide) (State.wr_keeps (by decide) (.refl s)))
  have hread : (s.storeEyeEnd l (min errors (2 ^ 31 - 1)) invalid).flag Reg.LANE_CTRL.eye_ev l = s.flag Reg.LANE_CTRL.eye_ev l := by
    unfold State.flag
    rw [hstore.rd (apart_fields eyeEndFields hl hl rfl)]
  have hend : s.endEye l errors invalid = if s.flag Reg.LANE_CTRL.eye_ev l then
      (s.storeEyeEnd l (min errors (2 ^ 31 - 1)) invalid).raise 0x209 l (min errors (2 ^ 31 - 1) + 2 ^ 31 * bit invalid)
      else s.storeEyeEnd l (min errors (2 ^ 31 - 1)) invalid := by
    rw [← hread]
    rfl
  cases hev : s.flag Reg.LANE_CTRL.eye_ev l with
  | false =>
    rw [hend, hev]
    exact ⟨hstart, herrors, hinvalid, fun _ => hkeeps.evq.get (by decide), nofun, (hkeeps.mono (M := 0x512) (by decide)).only (by decide),
      (hstore.mono (fun p hp => List.mem_append_left _ hp)).but⟩
  | true =>
    rw [hend, hev]
    have hmask : Apart Reg.EPO_EV_MASK.range_en 0 (eyeEndRegs l) := apart_fields eyeEndFields (by decide) hl rfl
    have hraise := fun f hf => State.rd_raise hstore.wf 0x209 l (min errors (2 ^ 31 - 1) + 2 ^ 31 * bit invalid)
      (apart_eventRegs f hl hf).notMem
    refine ⟨(hraise _ rfl).trans hstart, (hraise _ rfl).trans herrors, (hraise _ rfl).trans hinvalid, nofun, fun _ => ?_, ?_, ?_⟩
    · exact hstore.reports l _ (by decide) hmask (hkeeps.evq.get (by decide)) (congrArg Epo.k (hkeeps.epo.get (by decide)))
        (hkeeps.clk.get (by decide))
    · exact (State.raise_keeps (M := 0x512) (by decide) (hkeeps.mono (by decide))).only (by decide)
    · exact ((hstore.mono (fun p hp => List.mem_append_left _ hp)).raise _ _ _ (eventRegs_end _)).but

end Sys2Proof.Machine

namespace Sys2Proof.Proofs

open Sys2Proof Sys2Proof.Machine Sys2Proof.Safety

/-- Settles O33: the writes by what they store (`storeEq_effect`, `storeEye_effect`), the end of a scan by `storeEyeEnd_effect`. -/
theorem equalisationAndEyeScan : Obligations.EqualisationAndEyeScan := by
  intro s lane v hs
  have hlane : (lane : Nat) < 8192 := by omega
  refine ⟨fun hup hsum => ?stored, fun hup hsum => ?refused, fun hup hidle hgroup hrange => ?starts, fun hup hidle hgroup hrange => ?outside,
    fun hup hidle hgroup => ?unused, fun hup hbusy => ?busy, fun errors hbusy => ?done⟩
  case stored =>
    obtain ⟨hpreset, hover, hpre, hpost, hctle, hwrote⟩ := State.storeEq_effect hs.regs lane v
    have hlanes : tabWf LaneRt.clear (s.storeEq lane v).lanes = true := hs.lanes
    have hasked := State.eqAsked_stored hs.regs lane v
    refine ⟨_, (exec_eqWrite hup lane v).trans (congrArg _ (State.writeEq_stored hsum)), hpreset, hover, hpre, hpost, hctle, ?_, ?_, ?_,
      fun m hm => ?_, ?_, hwrote.but⟩
    · rw [State.lane_modLane hlanes, if_pos rfl, hasked]
      by_cases hbit : v / 2 ^ 4 % 2 = 1
      · simp only [if_pos hbit]
      · simp only [if_neg hbit]
    · rw [State.lane_modLane hlanes, if_pos rfl, hasked]
      by_cases hbit : v / 2 ^ 4 % 2 = 1
      · simp only [if_pos hbit]
      · simp only [if_neg hbit]
        rfl
    · rw [State.lane_modLane hlanes, if_pos rfl]
      rfl
    · rw [State.lane_modLane hlanes, if_neg hm]
      rfl
    · have hstore : Keeps 0x10 s (s.storeEq lane v) :=
        State.wr_keeps (by decide) (State.wr_keeps (by decide) (State.wr_keeps (by decide) (State.wr_keeps (by decide)
          (State.wr_keeps (by decide) (.refl s)))))
      exact (State.modLane_keeps (M := 0x10010) (by decide) (hstore.mono (by decide))).only (by decide)
  case refused =>
    exact ⟨_, (exec_eqWrite hup lane v).trans (congrArg _ (if_pos hsum)), State.rejectWrite_effect _ hs.regs⟩
  case starts =>
    obtain ⟨hstart, hv, hph, hdwell, hinvalid, hwrote⟩ := State.storeEye_effect hs.regs lane v
    have hlanes : tabWf LaneRt.clear (s.storeEye lane v).lanes = true := hs.lanes
    refine ⟨_, (exec_eyeScanStart hup lane v).trans (congrArg _ (State.startEye_stored v hidle hgroup hrange)), hstart, hv, hph, hdwell,
      hinvalid, ?_, fun m hm => ?_, ?_, hwrote.but⟩
    · rw [State.lane_modLane hlanes, if_pos rfl]
      unfold State.flag
      rw [hwrote.rd (apart_fields eyeFields hlane hlane rfl)]
    · rw [State.lane_modLane hlanes, if_neg hm]
      rfl
    · have hstore : Keeps 0x10 s (s.storeEye lane v) :=
        State.wr_keeps (by decide) (State.wr_keeps (by decide) (State.wr_keeps (by decide) (State.wr_keeps (by decide)
          (State.wr_keeps (by decide) (.refl s)))))
      exact (State.modLane_keeps (M := 0x10010) (by decide) (hstore.mono (by decide))).only (by decide)
  case outside =>
    exact ⟨_, (exec_eyeScanStart hup lane v).trans (congrArg _ (State.startEye_outside v hidle hgroup hrange)),
      State.rejectWrite_effect _ hs.regs⟩
  case unused => exact (exec_eyeScanStart hup lane v).trans (congrArg _ (State.startEye_unused v hidle hgroup))
  case busy =>
    exact ⟨_, (exec_eyeScanStart hup lane v).trans (congrArg _ (State.startEye_busy v hbusy)), State.rejectWrite_effect _ hs.regs⟩
  case done =>
    have hexec : exec (.eyeDone lane errors) s
        = .next (s.endEye lane errors ((s.lane lane).eyeBad || !s.flag Reg.LANE_STAT.lock lane)) := congrArg _ (if_pos hbusy)
    obtain ⟨hstart, herrors, hinvalid, hlast⟩ := State.endEye_effect hs.regs hlane errors ((s.lane lane).eyeBad || !s.flag Reg.LANE_STAT.lock lane)
    exact ⟨_, hexec, hstart, herrors, hinvalid, hlast⟩

end Sys2Proof.Proofs

/-! ## The decision of the isolation stage (R247 to R250) -/

namespace Sys2Proof.Machine

open Sys2Proof.Safety

/-! ### Loops over the cells -/

/-- What each step of a loop establishes for the cells of its element, and keeps for the others, holds of all in the end. -/
theorem foldl_establishes {α : Type} {f : State → α → State} {Q : State → Prop} {P : State → Nat → Prop} {K : α → Nat → Prop}
    (hstep : ∀ s x, Q s → Q (f s x) ∧ (∀ c, K x c → P (f s x) c) ∧ ∀ c, P s c → P (f s x) c) (l : List α) :
    ∀ {s : State}, Q s → Q (l.foldl f s) ∧ (∀ x ∈ l, ∀ c, K x c → P (l.foldl f s) c) ∧ ∀ c, P s c → P (l.foldl f s) c := by
  induction l with
  | nil => exact fun hq => ⟨hq, nofun, fun _ h => h⟩
  | cons y l ih =>
    intro s hq
    obtain ⟨hqy, hy, hkeep⟩ := hstep s y hq
    obtain ⟨hend, hall, hkept⟩ := ih hqy
    refine ⟨hend, fun x hx c hc => ?_, fun c hc => hkept c (hkeep c hc)⟩
    rcases List.mem_cons.mp hx with rfl | hx
    · exact hkept _ (hy c hc)
    · exact hall x hx c hc

/-! ### The commands of the isolation entries -/

/-- The command of one isolation entry for epoch `t` (R247, R250). -/
def State.isoCommand (u : UnitRt) (t r period : Nat) (phase0 : Int) (cd : Option Nat) (s : State) (x : CellEntry × CellEntry) : State :=
  if u.state = 0 then s.cmdPlain x.2.cell t .nop
  else if u.state = 1 ∨ u.toBlocked ∨ !(s.cell x.1.cell).available then
    (s.cmdOff x.2.cell t (.block 0)).modCell x.2.cell (fun r => { r with sigma := 0, sigmaOld := 0, carrier := false })
  else s.cmdPlain x.2.cell t (.carrier 8192 r period (((phase0 - (s.cell x.2.cell).sigma) % (period : Int)).toNat) cd)

/-- The countdown of the commands for epoch `t` (R192). -/
def State.isoCountdown (s : State) (e : UnitEntry) (t r : Nat) : Option Nat :=
  if notAfter (s.seamAt (t + 1)).1 ((s.isoGrid e).time r) then none else some (timeSince (s.seamAt t).1 ((s.isoGrid e).time r))

theorem State.isoCommands_eq (s : State) (e : UnitEntry) (t r i a : Nat) : s.isoCommands e t r i a
    = (s.isoCells a (fun _ => true)).foldl (State.isoCommand (s.unit e.unit) t r e.isoPeriod (e.isoPhase.getD i 0) (s.isoCountdown e t r)) s :=
  rfl

/-- The cell has its command for epoch `t`. -/
def CellRt.commanded (t : Nat) (x : CellRt) : Prop := (x.cmds.head?).map (·.1) = some t

/-- The cell is blocked for epoch `t`, without a shift. -/
def CellRt.blockedFor (t : Nat) (x : CellRt) : Prop := x.cmds.head? = some (t, .block 0) ∧ x.sigma = 0

theorem State.modCell_wf {s : State} (h : tabWf CellRt.clear s.cells = true) (c : Nat) (f : CellRt → CellRt) :
    tabWf CellRt.clear (s.modCell c f).cells = true := tabWf_tabMod h

/-- A change of one cell that establishes a property keeps it of every other cell. -/
theorem State.modCell_establishes {s : State} {p : CellRt → Prop} {c : Nat} {f : CellRt → CellRt} (h : tabWf CellRt.clear s.cells = true)
    (hf : p (f (s.cell c))) :
    tabWf CellRt.clear (s.modCell c f).cells = true ∧ p ((s.modCell c f).cell c) ∧ ∀ b, p (s.cell b) → p ((s.modCell c f).cell b) := by
  refine ⟨tabWf_tabMod h, by rwa [State.cell_modCell h, if_pos rfl], fun b hb => ?_⟩
  rw [State.cell_modCell h]
  split
  · exact hf
  · exact hb

section Commands

variable {u : UnitRt} {t r period : Nat} {phase0 : Int} {cd : Option Nat} {s : State}

theorem State.isoCommand_commanded (h : tabWf CellRt.clear s.cells = true) (x : CellEntry × CellEntry) :
    let w := State.isoCommand u t r period phase0 cd s x
    tabWf CellRt.clear w.cells = true ∧ (w.cell x.2.cell).commanded t ∧ ∀ c, (s.cell c).commanded t → (w.cell c).commanded t := by
  unfold State.isoCommand
  dsimp only
  split
  · exact State.modCell_establishes h rfl
  · split
    · obtain ⟨hw, hself, hkeep⟩ := State.modCell_establishes (p := CellRt.commanded t) (c := x.2.cell) (f := fun r => { r with
        bits := 0, contrib := 0, hist := ((t, 0) :: r.hist).take 4
        cmds := ((t, CellCmd.block 0) :: r.cmds.filter (fun x => x.1 != t)).take 4 }) h rfl
      obtain ⟨hw', hself', hkeep'⟩ := State.modCell_establishes (p := CellRt.commanded t) (c := x.2.cell)
        (f := fun r => { r with sigma := 0, sigmaOld := 0, carrier := false }) hw hself
      exact ⟨hw', hself', fun c hc => hkeep' c (hkeep c hc)⟩
    · exact State.modCell_establishes h rfl

theorem State.isoCommand_blocked (hu : u.state = 1) (h : tabWf CellRt.clear s.cells = true) (x : CellEntry × CellEntry) :
    let w := State.isoCommand u t r period phase0 cd s x
    tabWf CellRt.clear w.cells = true ∧ (w.cell x.2.cell).blockedFor t ∧ ∀ c, (s.cell c).blockedFor t → (w.cell c).blockedFor t := by
  have hw : tabWf CellRt.clear (s.cmdOff x.2.cell t (.block 0)).cells = true := by
    unfold State.cmdOff
    exact State.modCell_wf h _ _
  have hblock : ((s.cmdOff x.2.cell t (.block 0)).cell x.2.cell).cmds.head? = some (t, .block 0) := by
    unfold State.cmdOff
    rw [State.cell_modCell h, if_pos rfl]
    rfl
  have hother : ∀ c, (s.cell c).blockedFor t → c ≠ x.2.cell → ((s.cmdOff x.2.cell t (.block 0)).cell c).blockedFor t := by
    intro c hc hne
    unfold State.cmdOff
    rwa [State.cell_modCell h, if_neg hne]
  unfold State.isoCommand
  dsimp only
  rw [if_neg (by simp [hu]), if_pos (.inl hu)]
  obtain ⟨hw', hself, -⟩ := State.modCell_establishes (p := CellRt.blockedFor t) (c := x.2.cell)
    (f := fun r => { r with sigma := 0, sigmaOld := 0, carrier := false }) hw ⟨hblock, rfl⟩
  refine ⟨hw', hself, fun c hc => ?_⟩
  by_cases hc' : c = x.2.cell
  · exact hc' ▸ hself
  · rw [State.cell_modCell hw, if_neg hc']
    exact hother c hc hc'

end Commands

/-- The commands of all strings of a unit. -/
def State.unitCommands (s : State) (e : UnitEntry) (t r : Nat) : State := e.arms.foldl (fun s x => s.isoCommands e t r x.1 x.2) s

/-- What the command of each isolation entry establishes of its cell holds, after all strings, of every entry of the unit. -/
theorem State.unitCommands_establishes {p : CellRt → Prop} {s : State} (hs : Sound s) (e : UnitEntry) (t r : Nat)
    (hp : ∀ (period : Nat) (phase0 : Int) (cd : Option Nat) (w : State) (x : CellEntry × CellEntry), tabWf CellRt.clear w.cells = true →
      let w' := State.isoCommand (s.unit e.unit) t r period phase0 cd w x
      tabWf CellRt.clear w'.cells = true ∧ p (w'.cell x.2.cell) ∧ ∀ c, p (w.cell c) → p (w'.cell c)) :
    ∀ x ∈ e.arms, ∀ y ∈ s.isoCells x.2 (fun _ => true), p ((s.unitCommands e t r).cell y.2.cell) := by
  have hstring : ∀ (w : State) (x : Nat × Nat), Keeps 0x8000 s w →
      Keeps 0x8000 s (w.isoCommands e t r x.1 x.2)
        ∧ (∀ c, (∃ y ∈ s.isoCells x.2 (fun _ => true), c = y.2.cell) → p ((w.isoCommands e t r x.1 x.2).cell c))
        ∧ ∀ c, p (w.cell c) → p ((w.isoCommands e t r x.1 x.2).cell c) := by
    intro w x hw
    have hunit : w.unit e.unit = s.unit e.unit := by
      unfold State.unit
      rw [hw.units.get (by decide)]
    have hcells : w.isoCells x.2 (fun _ => true) = s.isoCells x.2 (fun _ => true) := by
      unfold State.isoCells State.armCells
      rw [hw.bs.get (by decide)]
    obtain ⟨-, hall, hkeep⟩ := foldl_establishes (P := fun w c => p (w.cell c)) (K := fun (y : CellEntry × CellEntry) c => c = y.2.cell)
      (f := State.isoCommand (s.unit e.unit) t r e.isoPeriod (e.isoPhase.getD x.1 0) (w.isoCountdown e t r))
      (Q := fun w => tabWf CellRt.clear w.cells = true) (fun w y hw => by
        obtain ⟨hwf, hself, hkeep⟩ := hp e.isoPeriod (e.isoPhase.getD x.1 0) _ w y hw
        exact ⟨hwf, fun c hc => hc ▸ hself, hkeep⟩) (s.isoCells x.2 (fun _ => true)) (hw.sound hs).cells
    refine ⟨State.isoCommands_keeps (by decide) hw, ?_, ?_⟩
    · rw [State.isoCommands_eq, hunit, hcells]
      exact fun c ⟨y, hy, hc⟩ => hall y hy c hc
    · rw [State.isoCommands_eq, hunit, hcells]
      exact hkeep
  intro x hx y hy
  exact (foldl_establishes (P := fun w c => p (w.cell c)) hstring e.arms (.refl s)).2.1 x hx _ ⟨y, hy, rfl⟩

/-! ### The shifts of a running unit (R248) -/

/-- The strings of a unit decide their shifts, one after another. -/
def State.shiftStrings (s : State) (e : UnitEntry) (fresh : Bool) : State × ShiftNote :=
  e.arms.foldl (fun (s, n) (i, a) => s.shiftString e fresh n i a) (s, ⟨0, 0, false, 0⟩)

theorem State.shiftStrings_keeps {s : State} (e : UnitEntry) (fresh : Bool) : Keeps 0x8084 s (s.shiftStrings e fresh).1 := by
  have hall : ∀ (l : List (Nat × Nat)) (x : State × ShiftNote), Keeps 0x8084 s x.1 →
      Keeps 0x8084 s (l.foldl (fun (x : State × ShiftNote) (y : Nat × Nat) => x.1.shiftString e fresh x.2 y.1 y.2) x).1 := by
    intro l
    induction l with
    | nil => exact fun _ h => h
    | cons y l ih => exact fun x h => ih _ (State.shiftString_keeps (by decide) h)
  exact hall e.arms _ (.refl s)

/-- What the decision of a running unit notes of its reload. -/
def State.setShift (s : State) (e : UnitEntry) (r : Nat) (n : ShiftNote) : State :=
  s.modUnit e.unit (fun y => { y with clamped := n.clamped != 0, reload := r })

def State.reportBad (s : State) (e : UnitEntry) (n : ShiftNote) : State :=
  if n.bad = 0 then s else s.raise 0x123 e.unit (n.bad + 16 * bit n.inf)

def State.reportClamped (s : State) (e : UnitEntry) (n : ShiftNote) : State :=
  if n.clamped = 0 then s else s.raise 0x124 e.unit n.clamped

/-- Limited cells are reported once per reload. -/
def State.reportSlew (s : State) (e : UnitEntry) (r : Nat) (n : ShiftNote) : State :=
  if n.limited = 0 ∨ (s.unit e.unit).slewAt = r + 1 then s
  else (s.modUnit e.unit (fun y => { y with slewAt := r + 1 })).raise 0x125 e.unit (n.limited % 128 + 2 ^ 16 * (r % 2 ^ 32))

def State.showShift (s : State) (e : UnitEntry) (r : Nat) : State := ((s.setPoint (e.pointBase + 5) r).showUnit e).showLv e

/-- What the decision of a running unit notes and reports, after its strings. -/
def State.noteShift (s : State) (e : UnitEntry) (r : Nat) (n : ShiftNote) : State :=
  ((((s.setShift e r n).reportBad e n).reportClamped e n).reportSlew e r n).showShift e r

/-- A running unit's part of the decision. -/
def State.shiftUnit (s : State) (e : UnitEntry) (r : Nat) : State :=
  let s' := if s.graphMissed e.shiftGraph then s.raise 0x122 e.unit s.epoch else s
  let x := s'.shiftStrings e (decide ((s.unit e.unit).reload ≠ r))
  x.1.noteShift e r x.2

theorem exec_sstShiftDecision {s : State} {unit : Fin 4} {e : UnitEntry} (he : s.bs.unitEntry unit = some e) :
    exec (.sstShiftDecision unit) s = .next (s.mirrorOf ((if 2 ≤ (s.unit e.unit).state then
      s.shiftUnit e (s.isoReload e (s.seamAt (s.epo.k + s.lead)).1) else s).unitCommands e (s.epo.k + s.lead)
        (s.isoReload e (s.seamAt (s.epo.k + s.lead)).1))) := by
  change execSstShiftDecision unit s = _
  unfold execSstShiftDecision
  rw [he]
  dsimp only
  by_cases hruns : 2 ≤ (s.unit e.unit).state
  · rw [if_neg (by simp [hruns]), if_pos hruns]
    rfl
  · rw [if_pos (by simp [hruns]), if_neg hruns]
    rfl

/-! ### What the decision of a running unit leaves alone -/

theorem State.setFloat_ext (s : State) (a v : Nat) : (s.setFloat a v).pts.ext = s.pts.ext := rfl

theorem State.setPoint_ext (s : State) (a v : Nat) : (s.setPoint a v).pts.ext = s.pts.ext := rfl

theorem State.shiftString_ext (s : State) (e : UnitEntry) (fresh : Bool) (n : ShiftNote) (i a : Nat) :
    (s.shiftString e fresh n i a).1.pts.ext = s.pts.ext := by
  unfold State.shiftString
  dsimp only
  rw [State.setFloat_ext]
  have hroll : ∀ l : List (CellEntry × CellEntry), Keeps 0x8004 s (l.foldl (fun s x => s.shiftRoll x.2.cell fresh) s) :=
    fun _ => Keeps.foldl (.refl s) (fun _ _ h => State.shiftRoll_keeps (by decide) h)
  refine congrArg Pts.ext (KeptAt.get (Keeps.pts (M := 0x8004) ?_) (by decide))
  refine Keeps.ite_snd (State.draw_keeps (by decide) ?_) ?_
  all_goals
    refine Keeps.ite_fst ?_ ?_
    · exact Keeps.foldl (hroll _) (fun _ _ h => State.modCell_keeps (by decide) h)
    · exact State.shiftCells_keeps (by decide) (hroll _)

theorem State.shiftStrings_ext (s : State) (e : UnitEntry) (fresh : Bool) : (s.shiftStrings e fresh).1.pts.ext = s.pts.ext := by
  have hall : ∀ (l : List (Nat × Nat)) (x : State × ShiftNote), x.1.pts.ext = s.pts.ext →
      (l.foldl (fun (x : State × ShiftNote) (y : Nat × Nat) => x.1.shiftString e fresh x.2 y.1 y.2) x).1.pts.ext = s.pts.ext := by
    intro l
    induction l with
    | nil => exact fun _ h => h
    | cons y l ih => exact fun x h => ih _ ((State.shiftString_ext x.1 e fresh x.2 y.1 y.2).trans h)
  exact hall e.arms _ rfl

/-- A state that differs from another as the decision of a running unit leaves it: registers of events, and none of the extended points. -/
structure ShiftFrame (e : UnitEntry) (r : Nat) (s t : State) : Prop where
  keeps : Keeps 0x28596 s t
  wrote : Wrote eventRegs s t
  ext : t.pts.ext = s.pts.ext
  state : (t.unit e.unit).state = (s.unit e.unit).state
  reload : (t.unit e.unit).reload = r

section Note

variable {e : UnitEntry} {r : Nat} {s t : State} (h : ShiftFrame e r s t)
include h

theorem ShiftFrame.unit_of {u : State} (hu : Keeps 0x28596 t u) (hw : Wrote eventRegs s u) (hext : u.pts.ext = t.pts.ext)
    (hunit : u.units = t.units) : ShiftFrame e r s u := by
  have hsame : u.unit e.unit = t.unit e.unit := by
    unfold State.unit
    rw [hunit]
  exact ⟨h.keeps.trans hu, hw, hext.trans h.ext, by rw [hsame, h.state], by rw [hsame, h.reload]⟩

theorem ShiftFrame.raise (c i d : Nat) : ShiftFrame e r s (t.raise c i d) :=
  h.unit_of (State.raise_keeps (by decide) (.refl t)) (h.wrote.raise c i d fun _ hp => hp) (by rw [State.raise_pts]) (State.raise_units ..)

theorem ShiftFrame.setPoint (a v : Nat) : ShiftFrame e r s (t.setPoint a v) :=
  h.unit_of (State.setPoint_keeps (by decide) (.refl t)) (h.wrote.same rfl) rfl rfl

theorem ShiftFrame.modUnit (hs : Sound s) {f : UnitRt → UnitRt} (hst : ∀ x, (f x).state = x.state) (hr : ∀ x, x.reload = r → (f x).reload = r) :
    ShiftFrame e r s (t.modUnit e.unit f) := by
  have hunit : (t.modUnit e.unit f).unit e.unit = f (t.unit e.unit) := by
    rw [State.unit_modUnit (h.keeps.sound hs).units, if_pos rfl]
  exact ⟨State.modUnit_keeps (by decide) h.keeps, h.wrote.same rfl, h.ext, by rw [hunit, hst, h.state], by rw [hunit, hr _ h.reload]⟩

end Note

section Notes

variable {e : UnitEntry} {r : Nat} {s t : State}

theorem State.setShift_frame (hs : Sound s) (n : ShiftNote) (hk : Keeps 0x28596 s t) (hw : Wrote eventRegs s t)
    (hext : t.pts.ext = s.pts.ext) (hunits : t.units = s.units) : ShiftFrame e r s (t.setShift e r n) := by
  have hunit : (t.setShift e r n).unit e.unit = { t.unit e.unit with clamped := n.clamped != 0, reload := r } :=
    (State.unit_modUnit (hk.sound hs).units _ _ _).trans (if_pos rfl)
  have hst : (t.unit e.unit).state = (s.unit e.unit).state := congrArg (fun x => (tabGet UnitRt.clear x e.unit).state) hunits
  exact ⟨State.modUnit_keeps (by decide) hk, hw.same rfl, hext, by rw [hunit, ← hst], by rw [hunit]⟩

theorem ShiftFrame.reportBad (h : ShiftFrame e r s t) (n : ShiftNote) : ShiftFrame e r s (t.reportBad e n) := by
  unfold State.reportBad
  split
  · exact h
  · exact h.raise ..

theorem ShiftFrame.reportClamped (h : ShiftFrame e r s t) (n : ShiftNote) : ShiftFrame e r s (t.reportClamped e n) := by
  unfold State.reportClamped
  split
  · exact h
  · exact h.raise ..

theorem ShiftFrame.reportSlew (h : ShiftFrame e r s t) (hs : Sound s) (n : ShiftNote) : ShiftFrame e r s (t.reportSlew e r n) := by
  unfold State.reportSlew
  split
  · exact h
  · exact (h.modUnit (f := fun y => { y with slewAt := r + 1 }) hs (fun _ => rfl) (fun _ hx => hx)).raise ..

theorem ShiftFrame.showUnit (h : ShiftFrame e r s t) : ShiftFrame e r s (t.showUnit e) := by
  unfold State.showUnit
  exact h.setPoint _ _

theorem ShiftFrame.showLv (h : ShiftFrame e r s t) : ShiftFrame e r s (t.showLv e) := by
  unfold State.showLv
  exact h.setPoint _ _

theorem ShiftFrame.showShift (h : ShiftFrame e r s t) : ShiftFrame e r s (t.showShift e r) := by
  unfold State.showShift
  exact (h.setPoint _ _).showUnit.showLv

end Notes

theorem State.shiftUnit_frame {s : State} (hs : Sound s) (e : UnitEntry) (r : Nat) : ShiftFrame e r s (s.shiftUnit e r) := by
  have hmissed : ∀ (c : Prop) [Decidable c], let u := if c then s.raise 0x122 e.unit s.epoch else s
      Keeps 0x28596 s u ∧ Wrote eventRegs s u ∧ u.pts.ext = s.pts.ext ∧ u.units = s.units := by
    intro c _
    dsimp only
    split
    · exact ⟨State.raise_keeps (by decide) (.refl s), (Wrote.refl hs.regs).raise _ _ _ (fun _ hp => hp), by rw [State.raise_pts],
        State.raise_units ..⟩
    · exact ⟨.refl s, .refl hs.regs, rfl, rfl⟩
  obtain ⟨hk, hw, hext, hunits⟩ := hmissed (s.graphMissed e.shiftGraph = true)
  have hstrings := State.shiftStrings_keeps (s := if s.graphMissed e.shiftGraph then s.raise 0x122 e.unit s.epoch else s) e
    (decide ((s.unit e.unit).reload ≠ r))
  have hnote := State.setShift_frame (e := e) (r := r) hs
    (State.shiftStrings (if s.graphMissed e.shiftGraph then s.raise 0x122 e.unit s.epoch else s) e (decide ((s.unit e.unit).reload ≠ r))).2
    (hk.trans (hstrings.mono (by decide))) (hw.same (hstrings.regs.get (by decide))) ((State.shiftStrings_ext _ e _).trans hext)
    ((hstrings.units.get (by decide)).trans hunits)
  exact (((hnote.reportBad _).reportClamped _).reportSlew hs _).showShift

end Sys2Proof.Machine

namespace Sys2Proof.Proofs

open Sys2Proof Sys2Proof.Machine Sys2Proof.Safety

/-- Settles O34: what each command establishes of its cell (`unitCommands_establishes`), after the shifts of a running unit. -/
theorem shiftDecisionCommands : Obligations.ShiftDecisionCommands := by
  intro s unit e hs he
  have hnum : e.unit = unit.val := by simpa using List.find?_some he
  obtain ⟨v, hv, hframe, hunit⟩ : ∃ v, v = (if 2 ≤ (s.unit e.unit).state then
      s.shiftUnit e (s.isoReload e (s.seamAt (s.epo.k + s.lead)).1) else s)
      ∧ (Keeps 0x28596 s v ∧ Wrote eventRegs s v ∧ v.pts.ext = s.pts.ext ∧ (v.unit e.unit).state = (s.unit e.unit).state)
      ∧ (2 ≤ (s.unit e.unit).state → (v.unit e.unit).reload = s.isoReload e (s.seamAt (s.epo.k + s.lead)).1) := by
    refine ⟨_, rfl, ?_⟩
    split
    · obtain ⟨hk, hw, hext, hst, hreload⟩ := State.shiftUnit_frame hs e (s.isoReload e (s.seamAt (s.epo.k + s.lead)).1)
      exact ⟨⟨hk, hw, hext, hst⟩, fun _ => hreload⟩
    · exact ⟨⟨.refl s, .refl hs.regs, rfl, rfl⟩, fun h => absurd h ‹_›⟩
  obtain ⟨hk, hw, hext, hst⟩ := hframe
  have hexec := exec_sstShiftDecision he
  rw [← hv] at hexec
  have hcommands : Keeps 0x8000 v (v.unitCommands e (s.epo.k + s.lead) (s.isoReload e (s.seamAt (s.epo.k + s.lead)).1)) :=
    Keeps.foldl (.refl v) (fun _ _ h => State.isoCommands_keeps (by decide) h)
  have hiso : ∀ a, v.isoCells a (fun _ => true) = s.isoCells a (fun _ => true) := by
    intro a
    unfold State.isoCells State.armCells
    rw [hk.bs.get (by decide)]
  have hv' := hk.sound hs
  refine ⟨_, hexec, ?commanded, fun hblocked => ?blocked, fun hruns => ?reload, ?state, ?pub, ?ext, ?parts, ?regs⟩
  case commanded =>
    have h := State.unitCommands_establishes (p := CellRt.commanded (s.epo.k + s.lead)) hv' e (s.epo.k + s.lead)
      (s.isoReload e (s.seamAt (s.epo.k + s.lead)).1) (fun _ _ _ _ x hwf => State.isoCommand_commanded hwf x)
    intro x hx y hy
    rw [State.cell, State.mirrorOf_cells]
    exact h x hx y (by rwa [hiso])
  case blocked =>
    have h := State.unitCommands_establishes (p := CellRt.blockedFor (s.epo.k + s.lead)) hv' e (s.epo.k + s.lead)
      (s.isoReload e (s.seamAt (s.epo.k + s.lead)).1)
      (fun _ _ _ _ x hwf => State.isoCommand_blocked (hst.trans (hnum ▸ hblocked)) hwf x)
    intro x hx y hy
    rw [State.cell, State.mirrorOf_cells]
    exact h x hx y (by rwa [hiso])
  case reload =>
    rw [State.unit, State.mirrorOf_units, hcommands.units.get (by decide), ← hnum]
    exact hunit (hnum ▸ hruns)
  case state =>
    rw [State.unit, State.mirrorOf_units, hcommands.units.get (by decide), ← hnum]
    exact hst
  case pub =>
    rw [State.mirrorOf_pts, hcommands.published.get (by decide)]
    exact hk.published.get (by decide)
  case ext =>
    rw [State.mirrorOf_pts, hcommands.pts.get (by decide)]
    exact hext
  case parts =>
    have hall : Keeps 0x828596 s (s.mirrorOf (v.unitCommands e (s.epo.k + s.lead) (s.isoReload e (s.seamAt (s.epo.k + s.lead)).1))) :=
      State.mirrorOf_keeps (by decide) ((hk.mono (by decide)).trans (hcommands.mono (by decide)))
    exact hall.only (by decide)
  case regs => exact ((hw.same (hcommands.regs.get (by decide))).mirrorOf s).but

end Sys2Proof.Proofs

/-! ## The control fabric (R258 to R284, R510) -/

namespace Sys2Proof.Machine

open Sys2Proof.Safety

/-! ### A graph's state in its register and its status point (R262) -/

/-- A field below every field written reads as before, whatever the units written. -/
theorem Wrote.rd_below {l : List (Field × Nat)} {s t : State} (h : Wrote l s t) {f : Field} {i : Nat} (hi : i < 8192)
    (hl : ∀ p ∈ l, f.place < p.1.place) : t.rd f i = s.rd f i := by
  refine h.but f i fun hm => ?_
  obtain ⟨p, hp, hk⟩ := List.mem_map.mp hm
  have hbelow := hl p hp
  unfold Field.place at hbelow
  unfold regKey at hk
  omega

theorem State.graph_modGraph {s : State} (h : tabWf GraphRt.clear s.fab.graphs = true) (g : Nat) (f : GraphRt → GraphRt) (n : Nat) :
    (s.modGraph g f).graph n = if n = g then f (s.graph g) else s.graph n := tabGet_tabSet h

/-- A graph's runtime state after a change of state. -/
def GraphRt.mark (r : GraphRt) (state flags : Nat) : GraphRt :=
  { r with state := if r.enabled then state else 0, flags := r.flags ||| flags }

/-- The parts that a change of a graph's state touches. -/
theorem State.markGraph_effect {s : State} (hw : tabWf 0 s.regs = true) (hg : tabWf GraphRt.clear s.fab.graphs = true)
    (hp : tabWf Pt.clear s.pts.work = true) (g state flags : Nat) :
    let t := s.markGraph g state flags
    t.graph g = (s.graph g).mark state flags ∧ (∀ n, n ≠ g → t.graph n = s.graph n)
      ∧ t.rd Reg.FAB_GRAPH_STAT.state g = ((s.graph g).mark state flags).state % 2 ^ 3
      ∧ (∀ a, a ≠ 0x2000 + g → t.work a = s.work a) ∧ t.pts.pub = s.pts.pub ∧ t.fab = { s.fab with graphs := t.fab.graphs }
      ∧ Wrote [(Reg.FAB_GRAPH_STAT.state, g)] s t := by
  intro t
  have hgraph : t.graph g = (s.graph g).mark state flags := (State.graph_modGraph hg g _ g).trans (if_pos rfl)
  refine ⟨hgraph, fun n hn => (State.graph_modGraph hg g _ n).trans (if_neg hn), ?state, fun a ha => ?work, rfl, rfl, ?wrote⟩
  case state =>
    rw [← hgraph]
    exact State.rd_wr_self _ _ _ (s := s.modGraph g fun r => r.mark state flags) hw
  case work => exact (tabGet_tabSet hp).trans (if_neg ha)
  case wrote => exact (((Wrote.refl hw).same rfl).wr _ (by simp)).same rfl

/-! ### Releases (R261, R273, R274) -/

theorem BitStream.graphEntry_graph {b : BitStream} {g : Nat} {e : GraphEntry} (h : b.graphEntry g = some e) : e.graph = g :=
  beq_iff_eq.mp (List.find?_some (p := fun x : GraphEntry => x.graph == g) h)

section Release

variable {s : State} {g : Nat} {e : GraphEntry}

/-- A release that no mirror holds, of a graph with an engine. -/
theorem State.releaseGraph_usable (hentry : s.bs.graphEntry g = some e) (hon : (s.graph g).enabled = true)
    (hheld : s.red.holdGraphs.contains g = false) (husable : s.graphUsable e = true) (c : Nat) :
    s.releaseGraph g c = if s.graphBusy g then (if e.trigger.stays then s else s.dropRelease g e.trigger.code)
      else s.tryStart ⟨e, c, if e.rt then some (c + e.cycles (s.rd Reg.EPO_LEN.cycles 0)) else none, false⟩ := by
  unfold State.releaseGraph
  rw [hentry]
  dsimp only
  rw [if_neg (by simp [hon]), if_neg (Bool.eq_false_iff.mp hheld), if_neg (by simp [husable])]

theorem State.hostRelease_host (hentry : s.bs.graphEntry g = some e) (hon : (s.graph g).enabled = true) (htrigger : e.trigger = .host) :
    s.hostRelease g = s.releaseGraph g s.clk.count := by
  unfold State.hostRelease
  rw [hentry]
  dsimp only
  rw [if_neg (by simp [hon]), if_pos htrigger]
  rfl

theorem State.hostRelease_other (hentry : s.bs.graphEntry g = some e) (hon : (s.graph g).enabled = true) (htrigger : e.trigger ≠ .host) :
    s.hostRelease g = (s.count Reg.FAB_GRAPH_MISS_CNT.overruns g).raise 0x301 g 24 := by
  unfold State.hostRelease
  rw [hentry]
  dsimp only
  rw [if_neg (by simp [hon]), if_neg htrigger]

end Release

/-- A release of a graph outside every flow, with room in its queues. -/
theorem State.tryStart_free {s : State} {w : Waiting} (hflow : w.g.flow = none) (hspace : s.hasSpace w.g = true) :
    s.tryStart w = s.activate w := by
  unfold State.tryStart
  rw [hflow]
  exact if_pos hspace

/-- The reservations of a job change the queues alone. -/
theorem State.reserve_eq (l : List Nat) : ∀ s : State, ∃ qs, l.foldl (fun s q => s.modQueue q (fun x => { x with reserved := x.reserved + 1 })) s
    = { s with fab := { s.fab with queues := qs } } := by
  induction l with
  | nil => exact fun s => ⟨s.fab.queues, rfl⟩
  | cons q l ih =>
    intro s
    obtain ⟨qs, h⟩ := ih (s.modQueue q (fun x => { x with reserved := x.reserved + 1 }))
    exact ⟨qs, h⟩

/-- The job that a release begins. -/
def Waiting.begin (w : Waiting) (id : Nat) : Job := ⟨w.g, id, w.released, w.deadline, [], [], [], [], 0⟩

/-- A job that begins outside every flow: its reservations, its place in the list, and the state of its graph. -/
theorem State.activate_free (s : State) {w : Waiting} (hflow : w.g.flow = none) : ∃ qs,
    s.activate w = State.markGraph { s with fab := { s.fab with
      queues := qs, jobs := s.fab.jobs ++ [w.begin s.fab.nextId], nextId := s.fab.nextId + 1 } } w.g.graph 3 1 := by
  obtain ⟨qs, h⟩ := State.reserve_eq w.g.sinks s
  refine ⟨qs, ?_⟩
  unfold State.activate
  dsimp only
  rw [hflow, h]
  rfl

/-- What a job that begins outside every flow changes. -/
theorem State.activate_effect {s : State} (hs : Sound s) {w : Waiting} (hflow : w.g.flow = none) :
    let g := w.g.graph
    let t := s.activate w
    t.fab.jobs = s.fab.jobs ++ [w.begin s.fab.nextId] ∧ t.fab.nextId = s.fab.nextId + 1 ∧ t.graph g = (s.graph g).mark 3 1
      ∧ t.rd Reg.FAB_GRAPH_STAT.state g = ((s.graph g).mark 3 1).state % 2 ^ 3 ∧ (∀ n, n ≠ g → t.graph n = s.graph n)
      ∧ (∀ a, a ≠ 0x2000 + g → t.work a = s.work a) ∧ t.pts.pub = s.pts.pub ∧ t.fab.space = s.fab.space
      ∧ t.fab.stores = s.fab.stores ∧ t.fab.engines = s.fab.engines ∧ Only [.regs, .pts, .fab] s t
      ∧ RegsBut [(Reg.FAB_GRAPH_STAT.state, g)] s t := by
  intro g t
  have honly : Only [.regs, .pts, .fab] s t := (State.activate_keeps (M := 0x100090) (by decide) (.refl s)).only (by decide)
  obtain ⟨qs, hstart⟩ := s.activate_free hflow
  obtain ⟨hgraph, hgraphs, hstate, hwork, hpub, hfab, hwrote⟩ := State.markGraph_effect
    (s := { s with fab := { s.fab with queues := qs, jobs := s.fab.jobs ++ [w.begin s.fab.nextId], nextId := s.fab.nextId + 1 } })
    hs.regs hs.fabric.1 hs.points.1 g 3 1
  rw [← hstart] at hgraph hgraphs hstate hwork hpub hfab hwrote
  refine ⟨congrArg Fab.jobs hfab, congrArg Fab.nextId hfab, hgraph, hstate, hgraphs, hwork, hpub, (congrArg Fab.space hfab :),
    (congrArg Fab.stores hfab :), (congrArg Fab.engines hfab :), honly, hwrote.but⟩

/-- The fields of a release that is dropped. -/
abbrev dropFields : List Field := [Reg.FAB_GRAPH_STAT.overrun, Reg.FAB_GRAPH_MISS_CNT.overruns, Reg.FAB_GRAPH_STAT.state]

abbrev dropRegs (g : Nat) : List (Field × Nat) := dropFields.map (fun f => (f, g))

theorem dropRegs_below {f : Field} (g : Nat) (h : dropFields.all (fun x => decide (f.place < x.place)) = true) :
    ∀ p ∈ dropRegs g, f.place < p.1.place := by
  intro p hp
  obtain ⟨x, hx, rfl⟩ := List.mem_map.mp hp
  exact of_decide_eq_true (List.all_eq_true.mp h x hx)

/-- A field of the fabric reads as before when an event is raised, whatever its unit. -/
theorem State.rd_raise_above {s : State} (h : tabWf 0 s.regs = true) (code inst data : Nat) (f : Field) (i : Nat)
    (hf : eventRegs.all (fun p => decide (p.1.place < f.place) && decide (p.2 < 8192)) = true) :
    (s.raise code inst data).rd f i = s.rd f i := ((Wrote.refl h).raise code inst data fun _ hp => hp).rd_above i hf

/-- What a dropped release changes (R261). -/
theorem State.dropRelease_effect {s : State} (hs : Sound s) (g trigger : Nat) :
    let t := s.dropRelease g trigger
    t.fab.jobs = s.fab.jobs ∧ t.rd Reg.FAB_GRAPH_STAT.overrun g = 1
      ∧ t.rd Reg.FAB_GRAPH_MISS_CNT.overruns g = min (s.rd Reg.FAB_GRAPH_MISS_CNT.overruns g + 1) (2 ^ Reg.FAB_GRAPH_MISS_CNT.overruns.width - 1)
      ∧ Reports s t 0x301 g trigger ∧ Only ([.pts, .fab] ++ eventParts) s t ∧ RegsBut (dropRegs g ++ eventRegs) s t := by
  intro t
  have w1 : Wrote (dropRegs g) s (s.wr Reg.FAB_GRAPH_STAT.overrun g 1) := (Wrote.refl hs.regs).wr 1 (by simp)
  have w2 : Wrote (dropRegs g) s ((s.wr Reg.FAB_GRAPH_STAT.overrun g 1).count Reg.FAB_GRAPH_MISS_CNT.overruns g) := w1.count (by simp)
  generalize hu : (s.wr Reg.FAB_GRAPH_STAT.overrun g 1).count Reg.FAB_GRAPH_MISS_CNT.overruns g = u at w2
  have hkeeps : Keeps 0x10 s u := by
    rw [← hu]
    exact State.count_keeps (by decide) (State.wr_keeps (by decide) (.refl s))
  have hgraphs : tabWf GraphRt.clear u.fab.graphs = true := by rw [hkeeps.fab.get (by decide)]; exact hs.fabric.1
  have hpoints : tabWf Pt.clear u.pts.work = true := by rw [hkeeps.pts.get (by decide)]; exact hs.points.1
  obtain ⟨-, -, -, -, -, hfab, hmark⟩ := State.markGraph_effect w2.wf hgraphs hpoints g (u.graph g).state 8
  have hdrop : t = (u.markGraph g (u.graph g).state 8).raise 0x301 g trigger := by rw [← hu]; rfl
  have hmarked : Keeps 0x100090 s (u.markGraph g (u.graph g).state 8) := State.markGraph_keeps (by decide) (hkeeps.mono (by decide))
  have hwrote : Wrote (dropRegs g) s (u.markGraph g (u.graph g).state 8) := w2.trans (hmark.mono (by simp))
  have hover : u.rd Reg.FAB_GRAPH_STAT.overrun g = 1 := by
    rw [← hu]
    exact (State.rd_wr_off _ _ _ _ w1.wf (by decide)).trans (State.rd_wr_self _ _ _ hs.regs)
  have hcount : u.rd Reg.FAB_GRAPH_MISS_CNT.overruns g
      = min (s.rd Reg.FAB_GRAPH_MISS_CNT.overruns g + 1) (2 ^ Reg.FAB_GRAPH_MISS_CNT.overruns.width - 1) := by
    rw [← hu, State.rd_count_self _ _ w1.wf, State.rd_wr_off _ _ _ _ hs.regs (by decide)]
  have hsame : ∀ f : Field, f.place ≠ Reg.FAB_GRAPH_STAT.state.place →
      eventRegs.all (fun p => decide (p.1.place < f.place) && decide (p.2 < 8192)) = true → t.rd f g = u.rd f g := by
    intro f hf hevent
    rw [hdrop, State.rd_raise_above hwrote.wf _ _ _ _ _ hevent]
    refine hmark.but f g fun hm => hf ?_
    have hk : regKey f g = regKey Reg.FAB_GRAPH_STAT.state g := List.mem_singleton.mp hm
    unfold regKey at hk
    unfold Field.place
    omega
  refine ⟨?jobs, (hsame _ (by decide) (by decide)).trans hover, (hsame _ (by decide) (by decide)).trans hcount, ?event, ?only, ?regs⟩
  case jobs =>
    have hjobs : u.fab.jobs = s.fab.jobs := congrArg Fab.jobs (hkeeps.fab.get (by decide))
    rw [hdrop, State.raise_fab, hfab]
    exact hjobs
  case event =>
    rw [hdrop]
    exact reports_raise (by decide) hwrote.wf (hmarked.evq.get (by decide)) (congrArg Epo.k (hmarked.epo.get (by decide)))
      (hmarked.clk.get (by decide)) (hwrote.rd_below (by decide) (dropRegs_below g (by decide)))
  case only =>
    rw [hdrop]
    exact (State.raise_keeps (M := 0x100592) (by decide) (hmarked.mono (by decide))).only (by decide)
  case regs =>
    rw [hdrop]
    exact ((hwrote.mono (fun p hp => List.mem_append_left _ hp)).raise _ _ _ (eventRegs_end _)).but

theorem exec_hostRelease {s : State} (hup : HostUp s) :
    exec .hostRelease s = .next (s.hostRelease (s.rd Reg.FAB_GRAPH_SEL.graph 0)) := by
  change execHostRelease s = _
  unfold execHostRelease
  rw [byHost_up hup]

end Sys2Proof.Machine

namespace Sys2Proof.Proofs

open Sys2Proof Sys2Proof.Machine Sys2Proof.Safety

/-- Settles O35: a release starts a job (`activate_effect`), is dropped (`dropRelease_effect`) or finds another trigger. -/
theorem hostReleaseStartsJob : Obligations.HostReleaseStartsJob := by
  intro s e hs hup g hentry hon
  have hgraph : g = e.graph := (BitStream.graphEntry_graph hentry).symm
  have hexec : exec .hostRelease s = .next (s.hostRelease g) := exec_hostRelease hup
  clear_value g
  subst hgraph
  refine ⟨fun htrigger hheld husable hidle hflow hspace => ?starts, fun htrigger hheld husable hbusy => ?dropped, fun htrigger => ?other⟩
  case starts =>
    rw [State.hostRelease_host hentry hon htrigger, State.releaseGraph_usable hentry hon hheld husable,
      if_neg (Bool.eq_false_iff.mp hidle), State.tryStart_free hflow hspace] at hexec
    obtain ⟨hjobs, hid, hgraph, hstate, hgraphs, hwork, hpub, -, hstores, hengines, honly, hregs⟩ :=
      State.activate_effect hs (w := ⟨e, s.clk.count, if e.rt then some (s.clk.count + e.cycles (s.rd Reg.EPO_LEN.cycles 0)) else none, false⟩) hflow
    have hrun : ((s.graph e.graph).mark 3 1).state = 3 := if_pos hon
    exact ⟨_, hexec, hjobs, hid, (congrArg GraphRt.state hgraph).trans hrun, hstate.trans (congrArg (· % 2 ^ 3) hrun), hgraphs, hwork, hpub, hstores,
      hengines, honly, hregs⟩
  case dropped =>
    rw [State.hostRelease_host hentry hon htrigger, State.releaseGraph_usable hentry hon hheld husable, if_pos hbusy, htrigger] at hexec
    exact ⟨_, hexec, State.dropRelease_effect hs e.graph 8⟩
  case other =>
    rw [State.hostRelease_other hentry hon htrigger] at hexec
    have hcounted : Wrote [(Reg.FAB_GRAPH_MISS_CNT.overruns, e.graph)] s (s.count Reg.FAB_GRAPH_MISS_CNT.overruns e.graph) :=
      (Wrote.refl hs.regs).count (by simp)
    have hkeeps : Keeps 0x10 s (s.count Reg.FAB_GRAPH_MISS_CNT.overruns e.graph) := State.count_keeps (by decide) (.refl s)
    refine ⟨_, hexec, State.raise_fab .., ?_, ?_, ?_, ?_⟩
    · rw [State.rd_raise_above hcounted.wf _ _ _ _ _ (by decide)]
      exact State.rd_count_self _ _ hs.regs
    · exact reports_raise (by decide) hcounted.wf rfl rfl rfl (hcounted.rd_below (by decide) (by simp; decide))
    · exact (State.raise_keeps (M := 0x512) (by decide) (hkeeps.mono (by decide))).only (by decide)
    · exact ((hcounted.mono (m := (Reg.FAB_GRAPH_MISS_CNT.overruns, e.graph) :: eventRegs) (by simp)).raise _ _ _
        (fun p hp => List.mem_cons_of_mem _ hp)).but

end Sys2Proof.Proofs

/-! ## Streams, signal points and markers that a fabric command reaches (R221, R275, R323)

Each statement refuted here names what a command leaves unchanged, and misses a part that the command reaches in the state shown. -/

namespace Sys2Proof.Machine

open Sys2Proof.Safety

/-! ### A stream of a converter core (R275, Table 10.10) -/

def streamGraph : GraphEntry := ⟨0, false, .stream 0, 0, [0], true, none, none, [⟨0, .srcStream⟩], []⟩

def streamJob : Job := ⟨streamGraph, 0, 0, none, [], [], [], [], 0⟩

/-- Graph 0 has a job that takes the only item of stream 0, which is full; engine 0 is free. -/
def streamState : State :=
  (({ upState with
      bs := { upState.bs with fabric := { upState.bs.fabric with streams := [(0, 1)] } }
      fab := { upState.fab with jobs := [streamJob], streams := [(0, { StreamRt.empty with items := [⟨[], 0⟩], stalled := true })] } }.wr
    Reg.PWR_DOM_STAT.state 0 (2 * 4 ^ 4)).wr Reg.FAB_STREAM_STAT.stalled 0 1).wr Reg.ADC_CORE_STAT.stalled 0 1

theorem streamState_sound : Sound streamState :=
  wr_sound _ _ _ (wr_sound _ _ _ (wr_sound _ _ _ { upState_sound with fabric := by decide }))

/-- The converter core shows that its stream has room again. -/
theorem streamState_dispatch :
    ∃ t, exec .opDispatch streamState = .next t ∧ t.rd Reg.ADC_CORE_STAT.stalled 0 = 0 := ⟨_, rfl, by decide +kernel⟩

/-! ### A signal point that a converter core waits for (R323) -/

def signalJob : Job := ⟨⟨0, false, .host, 0, [], true, none, none, [], []⟩, 0, 0, none, [], [], [], [.point 0x3000 ⟨1, false⟩ false], 0⟩

/-- A job writes point 0x3000, the signal of input 0; entry 0 of the injected list of core 0, in mode 1, waits for its change. -/
def signalState : State :=
  ((((({ upState with
      bs := { upState.bs with meas := { upState.bs.meas with signals := [(0, 0x3000)] } }
      fab := { upState.fab with jobs := [signalJob] }
      adc := { upState.adc with cores := [(0, { CoreRt.clear with mode := 1 })] } }.wr
    Reg.PWR_DOM_STAT.state 0 (2 * 4 ^ 10)).wr Reg.ADC_CTRL.enable 0 1).wr Reg.ADC_CORE_CTRL.inj_len 0 1).wr Reg.ADC_SEQ_ENTRY.trigger 16 3).wr
    Reg.ADC_SEQ_ENTRY.input 16 0)

theorem signalState_sound : Sound signalState :=
  wr_sound _ _ _ (wr_sound _ _ _ (wr_sound _ _ _ (wr_sound _ _ _ (wr_sound _ _ _ { upState_sound with measure := by decide }))))

/-- The entry may place a request. -/
theorem signalState_commit :
    ∃ t, exec (.jobCommit 0) signalState = .next t ∧ (t.core 0).changed = [0] := ⟨_, rfl, by decide +kernel⟩

/-! ### A marker that is due before a PRIO block (R221) -/

/-- An ACTIVE unit's lane set 0 is blocked; its lane is not up, and 4,095 blocks have left on it since its last marker. -/
def markedState : State :=
  ({ upState with
      bs := { upState.bs with lanes := [⟨0, 1, 1, 0, 0, 0, .none, 1⟩], laneSets := [(0, [0])] }
      lanes := [(0, { LaneRt.clear with safBlock := false, since := 4095 })] }.wr Reg.RED_STAT.role 0 3).wr Reg.FAB_PRIO_STAT.blocked 0 1

theorem markedState_sound : Sound markedState := wr_sound _ _ _ (wr_sound _ _ _ { upState_sound with lanes := by decide })

/-- The marker forms the active set anew. -/
theorem markedState_clear :
    ∃ t, exec (.prioBlockClear 0) markedState = .next t ∧ t.rd Reg.LANE_STAT.tx_mask 0 = 1 := ⟨_, rfl, by decide +kernel⟩

end Sys2Proof.Machine

namespace Sys2Proof.Proofs

open Sys2Proof Sys2Proof.Machine Sys2Proof.Safety

/-- Refutes O36: where the job takes an item of a converter core's stream, ADC_CORE_STAT.stalled follows the stream (Table 10.10), which the
statement's list of registers leaves out. -/
theorem not_schedulerRunsOperations : ¬ Obligations.SchedulerRunsOperations := by
  intro h
  obtain ⟨t, hexec, hstalled⟩ := streamState_dispatch
  obtain ⟨hdispatch, -⟩ := h streamState streamState_sound
  obtain ⟨u, hnext, -, -, -, -, -, hregs⟩ := hdispatch streamJob ⟨0, .srcStream⟩ 0 (by decide +kernel) (by decide)
  rw [next_inj hexec hnext] at hregs
  exact absurd (hstalled.symm.trans (hregs Reg.ADC_CORE_STAT.stalled 0 (by decide))) (by decide)

/-- Refutes O37: a commit that changes a signal point reaches the converter core that waits for it (R323), which the statement leaves out. -/
theorem not_jobsCommitOrMiss : ¬ Obligations.JobsCommitOrMiss := by
  intro h
  obtain ⟨t, hexec, hchanged⟩ := signalState_commit
  obtain ⟨hcommit, -⟩ := h signalState 0 signalState_sound
  obtain ⟨u, hnext, -, -, -, -, -, -, -, -, honly, -⟩ := hcommit signalJob 0x3000 ⟨1, false⟩ (by decide) (by decide) (fun d hd => nomatch hd)
    rfl rfl rfl rfl (by decide)
  rw [next_inj hexec hnext] at honly
  have hadc : t.adc = signalState.adc := honly .adc (by decide)
  rw [State.core, hadc] at hchanged
  exact absurd hchanged (by decide)

/-- Refutes O38: a marker that falls due before the PRIO block (R221) forms the lane's active set anew, which the statement leaves out. -/
theorem not_reactionMatrixActs : ¬ Obligations.ReactionMatrixActs := by
  intro h
  obtain ⟨t, hexec, hmask⟩ := markedState_clear
  obtain ⟨-, -, -, -, -, -, hclear, -⟩ := h markedState 0 0 markedState_sound
  obtain ⟨u, hnext, -, -, -, hregs⟩ := hclear 0 (by decide) (by decide) (by decide)
  rw [next_inj hexec hnext] at hregs
  exact absurd (hmask.symm.trans (hregs Reg.LANE_STAT.tx_mask 0 (by decide))) (by decide)

end Sys2Proof.Proofs

/-! ## Sampled values, transfers to the standby, roles and stop targets (R335 to R419)

Nothing bounds the numbers that the tables of a bit-stream and the lists of a state name. Where such a number is large, the register of its unit
falls on the place of another register. -/

namespace Sys2Proof.Machine

open Sys2Proof.Safety

/-! ### A sampled-value subscription (R337) -/

/-- The number of a subscription whose `valid` falls on the place where stream 0 shows back-pressure. -/
def farSub : Nat := regKey Reg.FAB_STREAM_STAT.stalled 0 - regKey Reg.ADC_SV_STAT.valid 0

/-- Its one channel goes to stream 0. -/
def farSubEntry : SvEntry := ⟨farSub, 3, 0, 0, [], 0, 1, 4000, [(0, some 0)], 0, false, true, none⟩

def svFrameOne : SvFrame := ⟨0, 0, [], 0, false, 0, [⟨0, 0, [(0, 0)]⟩]⟩

/-- The subscription is enabled, and stream 0 takes two items. -/
def farSubState : State :=
  (({ upState with
      bs := { upState.bs with
        meas := { upState.bs.meas with subs := [farSubEntry] }
        fabric := { upState.bs.fabric with streams := [(0, 2)] } } }.wr
    Reg.ADC_SV_MAP.enable farSub 1).wr Reg.ADC_CTRL.enable 0 1).wr Reg.ADC_CTRL.stream_en 0 1

theorem farSubState_sound : Sound farSubState := wr_sound _ _ _ (wr_sound _ _ _ (wr_sound _ _ _ { upState_sound with }))

/-- The stream that takes the channel's item shows no back-pressure. -/
theorem farSubState_frame : ∃ t, exec (.svFrame 0 svFrameOne) farSubState = .next t ∧ t.rd Reg.ADC_SV_STAT.valid farSub = 0 :=
  ⟨_, rfl, by decide +kernel⟩

/-! ### The highest term seen (R373) -/

/-- A cold start of rank 2 with a term that the register's 28 bits do not hold: nothing bounds what is stored. -/
def wideTermState : State :=
  (({ upState with
      cfg := { upState.cfg with extent := (0, 1) }
      regs := [(regKey Reg.RED_TERM_SEEN.term 0, 2 ^ 28)] }).wr Reg.RED_STAT.strap 0 2)

theorem wideTermState_sound : Sound wideTermState := wr_sound _ _ _ { upState_sound with regs := by decide }

theorem wideTermState_listen : ∃ t, exec .listenEnd wideTermState = .next t ∧ t.rd Reg.RED_TERM_SEEN.term 0 = 1 := ⟨_, rfl, by decide +kernel⟩

/-! ### Domains that wake (R453) -/

/-- The number of a domain whose count of transitions to ON falls on the place of the role. -/
def farDomain : Nat := regKey Reg.RED_STAT.role 0 - regKey Reg.PWR_DOM_CNT.on_cnt 0

/-- A unit in TAKEOVER (2) whose domain `d` wakes. -/
def wakingState (d : Nat) : State := { upState with pwr := { upState.pwr with waking := [(d, 0, 0)] } }.wr Reg.RED_STAT.role 0 2

theorem wakingState_sound (d : Nat) : Sound (wakingState d) := wr_sound _ _ _ { upState_sound with }

/-- The transition to ON counts in the register of the role. -/
theorem State.setDomain_far {s : State} {d : Nat} (h : Sound s) (hk : regKey Reg.PWR_DOM_CNT.on_cnt d = regKey Reg.RED_STAT.role 0)
    (hd : d ≠ 3) (hoff : s.domain d = 0) : (s.setDomain d 2).rd Reg.RED_STAT.role 0 = min (s.rd Reg.RED_STAT.role 0 + 1) 65535 := by
  have hrole : ∀ u : State, u.rd Reg.RED_STAT.role 0 = u.rd Reg.PWR_DOM_CNT.on_cnt d := fun u => State.rd_of_regKey u hk.symm rfl
  unfold State.setDomain
  dsimp only
  rw [hoff, if_neg (by decide), if_pos rfl, if_neg hd]
  generalize hu : s.wr Reg.PWR_DOM_STAT.state 0 _ = u
  have hw : tabWf 0 u.regs = true := hu ▸ State.regs_wr _ _ _ h.regs
  have hsame : u.rd Reg.RED_STAT.role 0 = s.rd Reg.RED_STAT.role 0 := hu ▸ State.rd_wr_off _ _ _ _ h.regs (by decide)
  have hcount := State.rd_count_self Reg.PWR_DOM_CNT.on_cnt d hw
  have hevent : ∀ v : State, tabWf 0 v.regs = true → ∀ data,
      (if v.flag Reg.PWR_CTRL.dom_ev 0 = true then v.raise 0x900 d data else v).rd Reg.RED_STAT.role 0 = v.rd Reg.RED_STAT.role 0 :=
    fun v hv data => (((Wrote.refl hv).raise 0x900 d data (fun _ hp => hp)).ite (.refl hv)).rd (apart_eventRegs Reg.RED_STAT.role (by decide) rfl)
  have hwf : tabWf 0 (u.count Reg.PWR_DOM_CNT.on_cnt d).regs = true := State.regs_wr _ _ _ hw
  rw [hevent _ hwf, hrole, hcount, ← hrole, hsame]
  rfl

/-- A domain that the map does not have brings nothing else where no graph is. -/
theorem State.domainReady_far {s : State} {d : Nat} (hd : 10 < d) (hg : (s.setDomain d 2).bs.fabric.graphs = []) :
    s.domainReady d = s.setDomain d 2 := by
  unfold State.domainReady
  dsimp only
  rw [if_neg (show d ≠ 4 by omega), if_neg (show ¬ ((d = 4 ∨ d = 5) ∧ _) by omega), if_neg (show d ≠ 3 by omega),
    if_neg (show ¬ (6 ≤ d ∧ d < 10) by omega)]
  unfold State.refreshGraphs
  rw [hg]
  rfl

/-- The state of a domain above the register's contents. -/
theorem State.domain_above {s : State} {d : Nat} (h : s.rd Reg.PWR_DOM_STAT.state 0 < 4 ^ 20) (hd : 20 ≤ d) : s.domain d = 0 := by
  unfold State.domain
  rw [Nat.div_eq_of_lt (Nat.lt_of_lt_of_le h (Nat.pow_le_pow_right (by decide) hd))]

theorem State.wakeDone_only {s : State} {d : Nat} (h : s.pwr.waking = [(d, 0, 0)]) : s.wakeDone d
    = ((s.modPwr (fun p => { p with waking := p.waking.filter (fun y => y.1 != d) })).wr Reg.PWR_STAT.core_pll 0 1).domainReady d := by
  have hfind : s.pwr.waking.find? (fun x => x.1 == d) = some (d, 0, 0) := by
    rw [h]
    exact List.find?_cons_of_pos (beq_self_eq_true d)
  unfold State.wakeDone
  rw [hfind]
  dsimp only
  rw [if_neg (by decide)]

/-- A domain that the map does not have and that shows 0 takes the role one up as it wakes. -/
theorem State.wakeDone_far {s : State} {d : Nat} (hs : Sound s) (hk : regKey Reg.PWR_DOM_CNT.on_cnt d = regKey Reg.RED_STAT.role 0)
    (hd : 20 ≤ d) (h : s.pwr.waking = [(d, 0, 0)]) (hoff : s.rd Reg.PWR_DOM_STAT.state 0 < 4 ^ 20) (hg : s.bs.fabric.graphs = []) :
    (s.wakeDone d).rd Reg.RED_STAT.role 0 = min (s.rd Reg.RED_STAT.role 0 + 1) 65535 := by
  rw [State.wakeDone_only h]
  generalize hp : s.modPwr _ = p
  have hsound : Sound p := hp ▸ { hs with }
  have hregs : p.regs = s.regs := hp ▸ rfl
  have hbs : p.bs = s.bs := hp ▸ rfl
  have hdom : (p.wr Reg.PWR_STAT.core_pll 0 1).rd Reg.PWR_DOM_STAT.state 0 = s.rd Reg.PWR_DOM_STAT.state 0 := by
    rw [State.rd_wr_off _ _ _ _ hsound.regs (by decide)]
    unfold State.rd
    rw [hregs]
  have hrole : (p.wr Reg.PWR_STAT.core_pll 0 1).rd Reg.RED_STAT.role 0 = s.rd Reg.RED_STAT.role 0 := by
    rw [State.rd_wr_off _ _ _ _ hsound.regs (by decide)]
    unfold State.rd
    rw [hregs]
  have hgraphs : ((p.wr Reg.PWR_STAT.core_pll 0 1).setDomain d 2).bs.fabric.graphs = [] := by
    rw [(State.setDomain_keeps (M := 0x512) (by decide) (.refl _)).bs.get (by decide), State.wr_bs, hbs, hg]
  rw [State.domainReady_far (by omega) hgraphs, State.setDomain_far (wr_sound _ _ _ hsound) hk (by omega) (State.domain_above (hdom.trans_lt hoff) hd),
    hrole]

theorem exec_takeoverWakeDone {s : State} (hr : s.role = 2) (hd : s.red.restoreDone = false) (hz : s.red.restoring = 0) :
    exec .takeoverWakeDone s = .next
      (let s := s.pwr.waking.foldl (fun (s : State) x => s.wakeDone x.1) s
       (s.wr Reg.RED_WAKE_TIME.wake 0 (min ((s.cycle - s.red.declared) / 4) 65535)).modRed (fun r => { r with restoring := max s.cycle 1 })) := by
  change execTakeoverWakeDone s = _
  unfold execTakeoverWakeDone
  rw [if_neg (by simp [hr, hd, hz])]

/-- The role reads 3 once the domain is ON. -/
theorem wakingState_done {d : Nat} (hk : regKey Reg.PWR_DOM_CNT.on_cnt d = regKey Reg.RED_STAT.role 0) (hd : 20 ≤ d) :
    ∃ t, exec .takeoverWakeDone (wakingState d) = .next t ∧ t.rd Reg.RED_STAT.role 0 = 3 := by
  have hsound := wakingState_sound d
  have hdom : (wakingState d).rd Reg.PWR_DOM_STAT.state 0 < 4 ^ 20 :=
    (State.rd_wr_off Reg.RED_STAT.role 0 2 Reg.PWR_DOM_STAT.state upState_sound.regs (by decide)).trans_lt (by decide)
  have hrole : (wakingState d).rd Reg.RED_STAT.role 0 = 2 := State.rd_wr_self Reg.RED_STAT.role 0 2 upState_sound.regs
  have hwaking : (wakingState d).pwr.waking = [(d, 0, 0)] := rfl
  have hdone := State.wakeDone_far hsound hk hd hwaking hdom rfl
  rw [hrole] at hdone
  have hwake : Sound ((wakingState d).wakeDone d) :=
    (State.wakeDone_keeps (M := 0x4b00592) (by decide) (.refl (wakingState d))).sound hsound
  refine ⟨_, exec_takeoverWakeDone hrole rfl rfl, ?_⟩
  rw [hwaking]
  change (State.wr ((wakingState d).wakeDone d) Reg.RED_WAKE_TIME.wake 0 _).rd Reg.RED_STAT.role 0 = 3
  rw [State.rd_wr_off _ _ _ _ hwake.regs (by decide), hdone]
  rfl

/-! ### Stop targets (R419) -/

/-- An input pair that names target 0 only. -/
def pairNo (p : Nat) : PairEntry := ⟨p, 1, 0, 0, 0, 0, 0, 1⟩

/-- The number of a pair whose demand falls on the place where target 0 shows its state. -/
def farPair : Nat := regKey Reg.SAF_TGT.state 0 - regKey Reg.SAF_PAIR_STAT.demand 0

def pairSafety (p : Nat) : Safety := ⟨0, [pairNo p], [], [], [], [], 0, 0, 0, 0, 0⟩

/-- A pair without demand shows so. -/
theorem State.pairUpdate_quiet {s : State} {p : Nat} (h : Sound s) (hd : (s.pair p).demands = false) :
    (s.pairUpdate (pairNo p)).rd Reg.SAF_PAIR_STAT.demand p = 0 := by
  have hquiet : s.pairUpdate (pairNo p) = (((s.setBit Reg.SAF_DEMAND.pair 0 p false).wr Reg.SAF_PAIR_STAT.demand p 0).wr
      Reg.SAF_PAIR_STAT.single p (bit ((s.pair p).a.fail || (s.pair p).b.fail))).wr
      Reg.SAF_PAIR_STAT.test_fail p (bit (s.pair p).a.fail + 2 * bit (s.pair p).b.fail) := by
    unfold State.pairUpdate
    dsimp only [pairNo]
    rw [hd]
    rfl
  have hset : tabWf 0 (s.setBit Reg.SAF_DEMAND.pair 0 p false).regs = true := State.regs_wr _ _ _ h.regs
  have hdemand := State.regs_wr Reg.SAF_PAIR_STAT.demand p 0 hset
  rw [hquiet, State.rd_wr_off _ _ _ _ (State.regs_wr _ _ _ hdemand) (by decide), State.rd_wr_off _ _ _ _ hdemand (by decide),
    State.rd_wr_self _ _ _ hset]
  rfl

theorem State.pair_modPair {s : State} (h : tabWf PairRt.clear s.saf.pairs = true) (p : Nat) (f : PairRt → PairRt) (q : Nat) :
    (s.modPair p f).pair q = if q = p then f (s.pair p) else s.pair q := tabGet_tabSet h

/-- A channel is trusted again after two tests that it passed (R413). -/
def ChanRt.retested (c : ChanRt) : ChanRt := if c.fail && decide (2 ≤ c.passed) then { c with fail := false } else c

def PairRt.retested (r : PairRt) : PairRt := { r with a := r.a.retested, b := r.b.retested }

/-- A pair that has not failed a test stays as it is when its target is released. -/
theorem State.trustAgain_quiet {s : State} {p : Nat} (h : Sound s) (hx : s.bs.safety = some (pairSafety p)) (hp : s.pair p = PairRt.clear) :
    (s.trustAgain 0).rd Reg.SAF_PAIR_STAT.demand p = 0 := by
  have htrust : s.trustAgain 0 = (s.modPair p PairRt.retested).pairUpdate (pairNo p) := by
    have hnamed : (pairSafety p).pairs.filter (fun e => e.mode != 0 && e.targets / 2 ^ 0 % 2 == 1) = [pairNo p] :=
      List.filter_cons_of_pos (by simp [pairNo])
    unfold State.trustAgain
    rw [hx]
    dsimp only
    rw [hnamed]
    rfl
  have hpair : (s.modPair p PairRt.retested).pair p = PairRt.clear := by
    rw [State.pair_modPair h.safety.1, if_pos rfl, hp]
    rfl
  have hsound : Sound (s.modPair p PairRt.retested) := (State.modPair_keeps (M := 0x1000000) (by decide) (.refl s)).sound h
  rw [htrust]
  exact State.pairUpdate_quiet hsound (by rw [hpair]; rfl)

/-- Target 0 is BLOCKED without demand, and the unlock is open. -/
def releaseState (p : Nat) : State :=
  { upState with bs := { upState.bs with safety := some (pairSafety p) }, saf := { upState.saf with unlock := some 0 } }.wr Reg.SAF_TGT.state 0 3

theorem releaseState_sound (p : Nat) : Sound (releaseState p) := wr_sound _ _ _ { upState_sound with }

theorem releaseState_target (p : Nat) : (releaseState p).target 0 = 3 := State.rd_wr_self Reg.SAF_TGT.state 0 3 upState_sound.regs

/-- No pair, pin or channel shows a demand. -/
theorem State.targetDemand_none {s : State} {p : Nat} (hx : s.bs.safety = some (pairSafety p)) (hreg : s.rd Reg.SAF_DEMAND.pair 0 = 0) :
    s.targetDemand 0 = false := by
  have hbit : s.bitAt Reg.SAF_DEMAND.pair 0 p = false := by
    unfold State.bitAt
    rw [hreg, Nat.zero_div]
    rfl
  unfold State.targetDemand
  rw [hx]
  change ((s.bitAt Reg.SAF_DEMAND.pair 0 p && _) || false || false || false) = false
  rw [hbit]
  rfl

theorem releaseState_quiet (p : Nat) : (releaseState p).rd Reg.SAF_DEMAND.pair 0 = 0 :=
  (State.rd_wr_off Reg.SAF_TGT.state 0 3 Reg.SAF_DEMAND.pair upState_sound.regs (by decide)).trans (by decide)

theorem releaseState_up (p : Nat) : HostUp (releaseState p) := by
  have hd3 : (releaseState p).rd Reg.GLB_STAT.d3 0 = 0 :=
    (State.rd_wr_off Reg.SAF_TGT.state 0 3 Reg.GLB_STAT.d3 upState_sound.regs (by decide)).trans (by decide)
  change ((releaseState p).rd Reg.GLB_STAT.d3 0 != 0 || false || false) = false
  rw [hd3]
  rfl

theorem releaseState_hold (p : Nat) : (releaseState p).saf.expiryHold / 2 ^ (0 : Fin 16).val % 2 = 0 := by
  have hzero : (releaseState p).saf.expiryHold = 0 := rfl
  rw [hzero]
  decide

/-- The release of a target that no table entry describes: its state, and its arm's hold. -/
theorem State.safRelease_far {s : State} {p : Nat} (h : Sound s) (hk : regKey Reg.SAF_PAIR_STAT.demand p = regKey Reg.SAF_TGT.state 0)
    (hx : s.bs.safety = some (pairSafety p)) (hp : s.pair p = PairRt.clear) : (s.safRelease 0).rd Reg.SAF_TGT.state 0 = 0 := by
  have hset := State.setTarget_keeps (M := 0x512) (by decide) (.refl s) (a1 := 0) (a2 := 1) (a3 := 3)
  have hquiet := State.trustAgain_quiet (p := p) (hset.sound h) (by rw [hset.bs.get (by decide), hx])
    (by unfold State.pair; rw [hset.saf.get (by decide)]; exact hp)
  have htrust : Sound ((s.setTarget 0 1 3).trustAgain 0) :=
    (State.trustAgain_keeps (M := 0x103c592) (by decide) (.refl _)).sound (hset.sound h)
  have hwords : s.bs.safety.bind (·.target 0) = none := by
    rw [hx]
    rfl
  unfold State.safRelease
  rw [hwords]
  dsimp only [Option.map, Option.getD, List.foldl]
  generalize hu : (s.setTarget 0 1 3).trustAgain 0 = u at hquiet htrust
  have harms : u.targetArms 0 = [0] := rfl
  rw [harms]
  dsimp only [List.foldl]
  rw [State.rd_of_regKey _ hk rfl] at hquiet
  have hhold : ∀ c : Prop, [Decidable c] → Wrote [(Reg.ARM_STAT.saf_hold, 0)] u (if c then u else u.wr Reg.ARM_STAT.saf_hold 0 0) :=
    fun c _ => (Wrote.refl htrust.regs).ite ((Wrote.refl htrust.regs).wr 0 (List.mem_singleton.mpr rfl))
  rw [(hhold _).rd ⟨by decide, by decide, by decide⟩]
  exact hquiet

theorem maskBits_first : maskBits (2 ^ (0 : Fin 16).val) = [0] := by decide

theorem State.rd_lockAgain (s : State) (f : Field) (i : Nat) : s.lockAgain.rd f i = s.rd f i := rfl

theorem exec_safCmdRelease {s : State} (hup : HostUp s) (hlock : s.saf.unlock.isNone = false) (hbits : s.lockAgain.releaseRefusal 0 = 0) :
    exec (.safCmdRelease (2 ^ (0 : Fin 16).val)) s = .next (s.mirrorOf ((s.lockAgain.safRelease 0).safStatus 1 0)) := by
  have hbad : [0].filter (fun t => s.lockAgain.releaseRefusal t != 0) = [] := List.filter_cons_of_neg (by simp [hbits])
  have hgood : [0].filter (fun t => s.lockAgain.releaseRefusal t == 0) = [0] := List.filter_cons_of_pos (by simp [hbits])
  change execSafCmdRelease _ s = _
  unfold execSafCmdRelease
  rw [byHost_up hup, hlock, maskBits_first]
  dsimp only
  rw [hbad, hgood]
  rfl

/-- Target 0 reads UNUSED after its release. -/
theorem releaseState_release {p : Nat} (hk : regKey Reg.SAF_PAIR_STAT.demand p = regKey Reg.SAF_TGT.state 0) :
    ∃ t, exec (.safCmdRelease (2 ^ (0 : Fin 16).val)) (releaseState p) = .next t ∧ t.target 0 = 0 := by
  have hblocked : (releaseState p).lockAgain.target 0 = 3 :=
    (State.rd_lockAgain _ _ _).trans (releaseState_target p)
  have hquiet : (releaseState p).lockAgain.rd Reg.SAF_DEMAND.pair 0 = 0 := (State.rd_lockAgain _ _ _).trans (releaseState_quiet p)
  have hdemand : (releaseState p).lockAgain.targetDemand 0 = false := State.targetDemand_none rfl hquiet
  have hhold : ¬ (releaseState p).lockAgain.saf.expiryHold / 2 ^ 0 % 2 = 1 := ne_of_eq_of_ne (releaseState_hold p) Nat.zero_ne_one
  have hfree : (releaseState p).lockAgain.releaseRefusal 0 = 0 := by
    unfold State.releaseRefusal
    rw [if_neg (not_not_intro hblocked), hdemand, if_neg Bool.false_ne_true, if_neg hhold]
  have hsound : Sound (releaseState p).lockAgain := 
    (State.lockAgain_keeps (M := 0x1000000) (by decide) (.refl (releaseState p))).sound (releaseState_sound p)
  have hpair : (releaseState p).lockAgain.pair p = PairRt.clear := rfl
  have hrelease := State.safRelease_far hsound hk rfl hpair
  have hregs := ((State.safRelease_keeps (M := 0x103c592) (a1 := 0) (by decide) (.refl (releaseState p).lockAgain)).sound hsound).regs
  refine ⟨_, exec_safCmdRelease (releaseState_up p) rfl hfree, ?_⟩
  generalize (releaseState p).lockAgain.safRelease 0 = u at hrelease hregs
  have hstatus : Wrote [(Reg.SAF_CMD_STAT.status, 0), (Reg.SAF_CMD_STAT.refused, 0)] u (u.safStatus 1 0) := by
    unfold State.safStatus
    dsimp only
    rw [if_pos rfl]
    exact ((Wrote.refl hregs).wr 1 (by simp)).wr 0 (by simp)
  exact ((hstatus.mirrorOf _).rd ⟨by decide, by decide, by decide⟩).trans hrelease

end Sys2Proof.Machine

namespace Sys2Proof.Proofs

open Sys2Proof Sys2Proof.Machine Sys2Proof.Safety

/-- Refutes O44: the `valid` of a subscription whose number falls on the place of a stream's register does not stand. -/
theorem not_calibrationAndSampledValues : ¬ Obligations.CalibrationAndSampledValues := by
  intro h
  obtain ⟨t, hexec, hvalid⟩ := farSubState_frame
  obtain ⟨-, -, -, hframe, -⟩ := h farSubState farSubState_sound
  obtain ⟨-, -, -, htaken⟩ := hframe 0 svFrameOne farSubEntry (by decide +kernel) (by decide +kernel)
  obtain ⟨u, hnext, -, -, -, -, hshown, -⟩ := htaken ⟨0, 0, [(0, 0)]⟩ (by decide +kernel) rfl rfl rfl (by decide) (by decide +kernel)
  rw [next_inj hexec hnext] at hshown
  exact absurd (hvalid.symm.trans hshown) (by decide)

/-- Refutes O51: where a domain that wakes has a number that falls on the place of the role, its count of transitions to ON changes the role. -/
theorem not_checkpointTransfers : ¬ Obligations.CheckpointTransfers := by
  intro h
  have hk : regKey Reg.PWR_DOM_CNT.on_cnt farDomain = regKey Reg.RED_STAT.role 0 := by decide
  have hd : 20 ≤ farDomain := by decide
  generalize farDomain = d at hk hd
  obtain ⟨t, hexec, hthree⟩ := wakingState_done hk hd
  obtain ⟨-, -, -, -, -, -, -, -, -, -, hwake⟩ := h (wakingState d) ⟨0, [], 0, 0, 0, false, 0, 0, 0⟩ (wakingState_sound d)
  obtain ⟨u, hnext, -, -, hrole, -⟩ := hwake (State.rd_wr_self Reg.RED_STAT.role 0 2 upState_sound.regs) rfl rfl
  rw [next_inj hexec hnext] at hrole
  exact absurd (hthree.symm.trans hrole) (by decide)

/-- Refutes O52: a term that the register's 28 bits do not hold is no longer the highest seen after the claim. -/
theorem not_roleChanges : ¬ Obligations.RoleChanges := by
  intro h
  obtain ⟨t, hexec, hterm⟩ := wideTermState_listen
  obtain ⟨-, -, hcold, -⟩ := h wideTermState wideTermState_sound
  obtain ⟨u, hnext, -, -, hseen⟩ := hcold ⟨by decide, by decide, by decide, by decide, .inl (by decide)⟩ (.inl (by decide)) (by decide)
  rw [next_inj hexec hnext] at hseen
  exact absurd (hterm.symm.trans hseen) (by decide)

/-- Refutes O53: a pair whose demand falls on the place of the target's state leaves the target UNUSED instead of FREE. -/
theorem not_stopTargets : ¬ Obligations.StopTargets := by
  intro h
  have hk : regKey Reg.SAF_PAIR_STAT.demand farPair = regKey Reg.SAF_TGT.state 0 := by decide
  generalize farPair = p at hk
  obtain ⟨t, hexec, hunused⟩ := releaseState_release hk
  obtain ⟨-, -, -, -, -, -, -, hrelease, -⟩ := h (releaseState p) (releaseState_sound p)
  have hpairs : ∀ e ∈ (pairSafety p).pairs, e.mode ≠ 0 → e.targets / 2 ^ (0 : Fin 16).val % 2 = 1 →
      ((releaseState p).pair e.pair).demands = false ∧ ((releaseState p).pair e.pair).a.fail = false
        ∧ ((releaseState p).pair e.pair).b.fail = false := fun _ _ _ _ => ⟨rfl, rfl, rfl⟩
  obtain ⟨u, hnext, -, hfree, -⟩ := hrelease 0 (pairSafety p) (releaseState_up p) (Option.some_ne_none 0) rfl (releaseState_target p)
    (State.targetDemand_none rfl (releaseState_quiet p)) (releaseState_hold p) hpairs
  rw [next_inj hexec hnext] at hfree
  exact absurd (hunused.symm.trans hfree) (by decide)

end Sys2Proof.Proofs

/-! ## The idle step, the decision of a blocked arm and domain requests (R74, R282, R450) -/

namespace Sys2Proof.Machine

open Sys2Proof.Safety

/-! ### A register store out of canonical form -/

/-- The only request, and the winner of bank 0. -/
def soleRequest : ArbReq := ⟨0, 0, 1, 0, none⟩

/-- The statement asks for no canonical store: here the longest wait of class 0 is listed twice, with 256 in front, which its 8 bits do not
hold. -/
def doubledState : State :=
  { State.reset with
    regs := [(regKey Reg.FAB_ARB_WAIT.class0 0, 256), (regKey Reg.FAB_ARB_WAIT.class0 0, 5)]
    arb := ⟨0, [soleRequest], [(0, ⟨some soleRequest, 0, 0, [87, 87, 87, 87]⟩)]⟩ }

/-- The write of 0 uncovers the second entry. -/
theorem doubledState_step : ∃ t, step doubledState = .next t ∧ t.rd Reg.FAB_ARB_WAIT.class0 0 = 5 := ⟨_, rfl, by decide +kernel⟩

/-! ### A blocked arm with an excluded cell (R95, R121) -/

/-- Arm 0 is BLOCKED and has power; its one cell is excluded. -/
def excludedState : State :=
  ({ upState with
    bs := { upState.bs with
      arms := [⟨0, 0, 0, 0, 0, none, 0, 0, 0, 0, 0, 0, 0, 0, false, 0, 0, 0, 0, 0, 0, 0, 0⟩]
      cells := [⟨0, false, 0, some 0, none, 0, none, none, none⟩] }
    cells := [(0, { CellRt.clear with excluded := true })] }.wr Reg.PWR_DOM_STAT.state 0 (2 * 4 ^ 4)).wr Reg.ARM_STAT.state 0 0

theorem excludedState_sound : Sound excludedState := wr_sound _ _ _ (wr_sound _ _ _ { upState_sound with cells := by decide })

/-- The excluded cell keeps its bypass. -/
theorem excludedState_decision :
    ∃ t, exec (.armDecision 0 []) excludedState = .next t ∧ ((t.cell 0).cmds.head?).map (·.2) = some .hold := ⟨_, rfl, by decide +kernel⟩

/-! ### A request for a domain that is asked for (R450) -/

/-- An ACTIVE unit with every domain ON and arm 0 acting; the bit that asks for FAB_E reads 3, which one bit does not hold. -/
def askedState : State :=
  (((({ upState with
      cfg := { upState.cfg with extent := (0, 1) }
      bs := { upState.bs with arms := [⟨0, 0, 0, 0, 0, none, 0, 0, 0, 0, 0, 0, 0, 0, false, 0, 0, 0, 0, 0, 0, 0, 0⟩] }
      regs := [(regKey Reg.PWR_DOM_REQ.fab_e 0, 2)] }.wr
    Reg.RED_STAT.role 0 3).wr Reg.PWR_DOM_STAT.state 0 0xAAAAAA).wr Reg.ARM_STAT.state 0 1).wr Reg.PWR_DOM_REQ.fab_w 0 1)

theorem askedState_sound : Sound askedState :=
  wr_sound _ _ _ (wr_sound _ _ _ (wr_sound _ _ _ (wr_sound _ _ _ { upState_sound with regs := by decide })))

/-- The bit reads 1 after the request. -/
theorem askedState_request : ∃ t, exec (.domainRequest 0x7E) askedState = .next t ∧ t.rd Reg.PWR_DOM_REQ.fab_e 0 = 1 :=
  ⟨_, rfl, by decide +kernel⟩

end Sys2Proof.Machine

namespace Sys2Proof.Proofs

open Sys2Proof Sys2Proof.Machine Sys2Proof.Safety

/-- Refutes O2: without a canonical register store a write need not be what is read. -/
theorem not_idleStepCounts : ¬ Obligations.IdleStepCounts := by
  intro h
  obtain ⟨t, hstep, hwait⟩ := doubledState_step
  obtain ⟨-, hbank⟩ := h
  obtain ⟨-, -, hbegins, -⟩ := hbank doubledState soleRequest soleRequest ⟨some soleRequest, 0, 0, [87, 87, 87, 87]⟩ rfl rfl (by decide)
    (by decide) (by decide) rfl ⟨rfl, fun _ => ⟨rfl, rfl⟩⟩
  obtain ⟨u, hnext, -, -, hlongest, -⟩ := hbegins rfl rfl rfl
  have heq : t = u := Host.Outcome.next.inj (hstep.symm.trans hnext)
  rw [← heq] at hlongest
  exact absurd (hwait.symm.trans hlongest) (by decide +kernel)

/-- Refutes O21: a cell that is excluded keeps its bypass in a BLOCKED arm too, so that its command is HOLD. -/
theorem not_decisionCommandsEveryCell : ¬ Obligations.DecisionCommandsEveryCell := by
  intro h
  obtain ⟨t, hexec, hhold⟩ := excludedState_decision
  obtain ⟨hdecides, -⟩ := h excludedState 0 ⟨0, 0, 0, 0, 0, none, 0, 0, 0, 0, 0, 0, 0, 0, false, 0, 0, 0, 0, 0, 0, 0, 0⟩ [] excludedState_sound
  obtain ⟨u, hnext, -, hblocked, -⟩ := hdecides (by decide) (by decide)
  obtain ⟨hblock, -⟩ := hblocked (.inl (by decide)) ⟨0, false, 0, some 0, none, 0, none, none, none⟩ (by decide) (by decide)
  rw [next_inj hexec hnext] at hblock
  rw [hblock] at hhold
  exact absurd hhold (by decide)

/-- Refutes O58: the request writes the bits of the domains that it asks for again, so that one whose register reads more than a bit changes. -/
theorem not_domainsAndRetention : ¬ Obligations.DomainsAndRetention := by
  intro h
  obtain ⟨t, hexec, hone⟩ := askedState_request
  obtain ⟨-, hrefused, -⟩ := h askedState askedState_sound
  obtain ⟨u, hnext, -, -, -, -, -, hregs⟩ := hrefused 0x7E (by decide) (by decide) (by decide) (by decide +kernel) (by decide)
    ⟨0, by decide, by decide +kernel⟩
  rw [next_inj hexec hnext] at hregs
  exact absurd (hone.symm.trans (hregs Reg.PWR_DOM_REQ.fab_e 0 (by decide))) (by decide)

end Sys2Proof.Proofs

/-! ## Several fields written one after another -/

namespace Sys2Proof.Machine

open Sys2Proof.Safety

/-! ### A list of writes -/

/-- Fields of units written in order: (field, unit, value). -/
def State.wrAll (s : State) (l : List (Field × Nat × Nat)) : State := l.foldl (fun s x => s.wr x.1 x.2.1 x.2.2) s

/-- What a list of writes changes. -/
abbrev writtenRegs (l : List (Field × Nat × Nat)) : List (Field × Nat) := l.map (fun x => (x.1, x.2.1))

/-- No two fields of the list share a place. -/
def fieldsApart : List Field → Bool
  | [] => true
  | f :: l => l.all (fun g => f.place != g.place) && fieldsApart l

theorem Wrote.wrAll {m : List (Field × Nat)} {l : List (Field × Nat × Nat)} : ∀ {s t : State}, Wrote m s t → (∀ p ∈ writtenRegs l, p ∈ m) →
    Wrote m s (t.wrAll l) := by
  induction l with
  | nil => exact fun h _ => h
  | cons x l ih =>
    intro s t h hl
    exact ih (h.wr _ (hl _ List.mem_cons_self)) (fun p hp => hl p (List.mem_cons_of_mem _ hp))

theorem State.wrAll_wrote {s : State} (h : tabWf 0 s.regs = true) (l : List (Field × Nat × Nat)) : Wrote (writtenRegs l) s (s.wrAll l) :=
  (Wrote.refl h).wrAll fun _ hp => hp

theorem State.wrAll_keeps {M : Nat} {r : State} (hm : 0x10 ||| M = M) (l : List (Field × Nat × Nat)) : ∀ {s : State}, Keeps M r s →
    Keeps M r (s.wrAll l) := by
  induction l with
  | nil => exact id
  | cons x l ih => exact fun h => ih (State.wr_keeps hm h)

/-- A field whose place is apart from those of the list. -/
theorem apart_written {f : Field} {i : Nat} {l : List (Field × Nat × Nat)} (hunits : ∀ x ∈ l, x.2.1 < 8192) (hi : i < 8192)
    (h : ∀ x ∈ l, x.1.place ≠ f.place) : Apart f i (writtenRegs l) := by
  refine ⟨?_, hi, fun p hp => ?_⟩
  · rw [List.all_map]
    exact List.all_eq_true.mpr fun x hx => bne_iff_ne.mpr (h x hx)
  · obtain ⟨x, hx, rfl⟩ := List.mem_map.mp hp
    exact hunits x hx

/-- The values written, each cut to its field's width. -/
theorem State.rd_wrAll (fs : List Field) {l : List (Field × Nat × Nat)} (hfs : l.map (·.1) = fs) (hapart : fieldsApart fs = true) :
    ∀ {s : State}, tabWf 0 s.regs = true → (∀ x ∈ l, x.2.1 < 8192) → ∀ x ∈ l, (s.wrAll l).rd x.1 x.2.1 = x.2.2 % 2 ^ x.1.width := by
  subst hfs
  induction l with
  | nil => exact fun _ _ x hx => absurd hx List.not_mem_nil
  | cons y l ih =>
    intro s hw hunits x hx
    obtain ⟨hfirst, hrest⟩ := Bool.and_eq_true_iff.mp hapart
    have hlater : ∀ z ∈ l, z.2.1 < 8192 := fun z hz => hunits z (List.mem_cons_of_mem _ hz)
    have hy : tabWf 0 (s.wr y.1 y.2.1 y.2.2).regs = true := State.regs_wr _ _ _ hw
    rcases List.mem_cons.mp hx with rfl | hx
    · have hothers : ∀ z ∈ l, z.1.place ≠ x.1.place := fun z hz =>
        Ne.symm (bne_iff_ne.mp (List.all_eq_true.mp hfirst z.1 (List.mem_map_of_mem hz)))
      exact ((State.wrAll_wrote hy l).rd (apart_written hlater (hunits x List.mem_cons_self) hothers)).trans (State.rd_wr_self _ _ _ hw)
    · exact ih hrest hy hlater x hx

theorem regs_append {l l' : List (Field × Nat)} (h : ∀ p ∈ l, p ∈ l') (m : List (Field × Nat)) : ∀ p ∈ l ++ m, p ∈ l' ++ m :=
  fun p hp => (List.mem_append.mp hp).elim (fun hl => List.mem_append_left m (h p hl)) (fun hm => List.mem_append_right l' hm)

theorem apart_sole (f g : Field) {i j : Nat} (hi : i < 8192) (hj : j < 8192) (h : (g.place != f.place) = true) : Apart f i [(g, j)] :=
  ⟨by rw [List.all_cons, h]; rfl, hi, fun p hp => by rw [List.mem_singleton.mp hp]; exact hj⟩

/-! ### An event after a list of writes -/

/-- No two fields share a place, and none is the place of a field that an event writes or of the mask of events. -/
def fieldsFree (fs : List Field) : Bool :=
  fieldsApart fs && fs.all (fun f => eventRegs.all (fun p => p.1.place != f.place) && f.place != Reg.EPO_EV_MASK.range_en.place)

/-- Writes, changes of parts beside registers, events, epoch and clock, and then an event. -/
theorem State.raise_after (fs : List Field) {l : List (Field × Nat × Nat)} (hfs : l.map (·.1) = fs) (hfree : fieldsFree fs = true) {s u : State}
    (hw : tabWf 0 s.regs = true) (hunits : ∀ x ∈ l, x.2.1 < 8192) (hregs : u.regs = (s.wrAll l).regs) (hevq : u.evq = s.evq)
    (hk : u.epo.k = s.epo.k) (hclk : u.clk = s.clk) {code : Nat} (hc : code ≠ 0x010) (inst data : Nat) :
    Reports s (u.raise code inst data) code inst data ∧ Wrote (writtenRegs l ++ eventRegs) s (u.raise code inst data)
      ∧ ∀ x ∈ l, (u.raise code inst data).rd x.1 x.2.1 = x.2.2 % 2 ^ x.1.width := by
  obtain ⟨hapart, hevents⟩ := Bool.and_eq_true_iff.mp hfree
  have hfield : ∀ x ∈ l, eventRegs.all (fun p => p.1.place != x.1.place) = true ∧ x.1.place ≠ Reg.EPO_EV_MASK.range_en.place := by
    intro x hx
    obtain ⟨hplace, hmask⟩ := Bool.and_eq_true_iff.mp (List.all_eq_true.mp hevents x.1 (hfs ▸ List.mem_map_of_mem hx))
    exact ⟨hplace, bne_iff_ne.mp hmask⟩
  have hwrote : Wrote (writtenRegs l) s u := (State.wrAll_wrote hw l).same hregs
  refine ⟨hwrote.reports inst data hc (apart_written hunits (by decide) fun x hx => (hfield x hx).2) hevq hk hclk,
    (hwrote.mono fun p hp => List.mem_append_left _ hp).raise _ _ _ (eventRegs_end _), fun x hx => ?_⟩
  have hread : u.rd x.1 x.2.1 = (s.wrAll l).rd x.1 x.2.1 := by
    unfold State.rd
    rw [hregs]
  rw [State.rd_raise hwrote.wf code inst data (apart_eventRegs x.1 (hunits x hx) (hfield x hx).1).notMem, hread]
  exact State.rd_wrAll fs hfs hapart hw hunits x hx

/-! ### One bit of a field -/

/-- A number with bit `b` as `v`. -/
def bitSet (x b : Nat) (v : Bool) : Nat :=
  let low := if x / 2 ^ b % 2 = 1 then x - 2 ^ b else x
  if v then low + 2 ^ b else low

theorem State.setBit_eq (s : State) (f : Field) (i b : Nat) (v : Bool) : s.setBit f i b v = s.wr f i (bitSet (s.rd f i) b v) := rfl

theorem bitSet_at (x b : Nat) (v : Bool) : bitSet x b v / 2 ^ b % 2 = bit v := by
  have hpos : 0 < 2 ^ b := Nat.two_pow_pos b
  have hlow : (if x / 2 ^ b % 2 = 1 then x - 2 ^ b else x) / 2 ^ b % 2 = 0 := by
    split
    case isTrue h =>
      have hdiv : (x - 2 ^ b) / 2 ^ b = x / 2 ^ b - 1 := by
        have hmul := Nat.sub_mul_div x (2 ^ b) 1
        rwa [Nat.mul_one] at hmul
      rw [hdiv]
      generalize x / 2 ^ b = q at h
      omega
    case isFalse h => exact Nat.mod_two_ne_one.mp h
  unfold bitSet
  dsimp only
  cases v with
  | false => exact hlow
  | true =>
    rw [if_pos rfl, Nat.add_div_right _ hpos]
    exact Nat.succ_mod_two_eq_one_iff.mpr hlow

/-- The bit that a write sets or clears, of a field that holds it. -/
theorem State.bitAt_of_rd {t : State} {f : Field} {i b x : Nat} {v : Bool} (h : t.rd f i = bitSet x b v % 2 ^ f.width) (hb : b < f.width) :
    t.bitAt f i b = v := by
  have hbit : bitSet x b v % 2 ^ f.width / 2 ^ b % 2 = bitSet x b v / 2 ^ b % 2 := by
    have hsplit : 2 ^ f.width = 2 ^ b * 2 ^ (f.width - b) := by
      rw [← Nat.pow_add]
      congr 1
      omega
    rw [hsplit, Nat.mod_mul_right_div_self]
    exact Nat.mod_mod_of_dvd _ (dvd_pow_self 2 (by omega))
  unfold State.bitAt
  rw [h, hbit, bitSet_at]
  cases v <;> rfl

theorem State.bitAt_setBit {s : State} (h : tabWf 0 s.regs = true) (f : Field) (i : Nat) {b : Nat} (hb : b < f.width) (v : Bool) :
    (s.setBit f i b v).bitAt f i b = v := State.bitAt_of_rd (State.rd_wr_self _ _ _ h) hb

end Sys2Proof.Machine

/-! ## Order inputs (R296 to R298, R315) -/

namespace Sys2Proof.Machine

open Sys2Proof.Safety

theorem State.input_modInput {s : State} (h : tabWf InputRt.clear s.ord.inputs = true) (i : Nat) (f : InputRt → InputRt) (n : Nat) :
    (s.modInput i f).input n = if n = i then f (s.input i) else s.input n := tabGet_tabSet h

theorem State.rd_congr {s t : State} (h : t.regs = s.regs) (f : Field) (i : Nat) : t.rd f i = s.rd f i := by
  unfold State.rd
  rw [h]

theorem State.bitAt_congr {s t : State} (h : t.regs = s.regs) (f : Field) (i b : Nat) : t.bitAt f i b = s.bitAt f i b := by
  unfold State.bitAt
  rw [State.rd_congr h]

theorem State.input_of_ord {s t : State} (h : t.ord = s.ord) (i : Nat) : t.input i = s.input i := by
  unfold State.input
  rw [h]

/-! ### ORD_IN_CFG_WRITE -/

/-- The registers that an allowed configuration writes. -/
def inCfgWrites (i v : Nat) : List (Field × Nat × Nat) :=
  [(Reg.ORD_IN_CFG.mode, i, bitsOf v 0 3), (Reg.ORD_IN_CFG.filt, i, bitsOf v 4 8), (Reg.ORD_IN_CFG.gate, i, bitsOf v 12 8),
   (Reg.ORD_IN_CFG.src_point, i, bitsOf v 20 12), (Reg.ORD_IN_STAT.status, i, 1)]

theorem bitsOf_low (v w : Nat) : bitsOf v 0 w = v % 2 ^ w := by
  unfold bitsOf
  rw [Nat.pow_zero, Nat.div_one]

/-- The fields of an allowed configuration. -/
abbrev inCfgFields : List Field :=
  [Reg.ORD_IN_CFG.mode, Reg.ORD_IN_CFG.filt, Reg.ORD_IN_CFG.gate, Reg.ORD_IN_CFG.src_point, Reg.ORD_IN_STAT.status]

/-- The status of a configuration (R298, R315): 1 allowed, 2 a pin of another holder, 3 out of range. -/
def State.inCfgStatus (s : State) (i v : Nat) : Nat :=
  if 4 < bitsOf v 0 3 ∨ bitsOf v 12 8 = 0 then 3 else if 2 ≤ bitsOf v 0 3 ∧ (s.heldBy 1 i).isSome then 2 else 1

theorem exec_ordInCfgWrite_stored {s : State} (hup : HostUp s) {i : Fin 8} {v : Nat} (h : s.inCfgStatus i v = 1) :
    exec (.ordInCfgWrite i v) s = .next ((s.wrAll (inCfgWrites i v)).modInput i (fun x => { x with written := true })) := by
  change execOrdInCfgWrite i v s = _
  unfold execOrdInCfgWrite
  unfold State.inCfgStatus at h
  rw [byHost_up hup]
  dsimp only
  by_cases hrange : 4 < bitsOf v 0 3 ∨ bitsOf v 12 8 = 0
  · rw [if_pos hrange] at h
    exact absurd h (by decide)
  · by_cases hpin : 2 ≤ bitsOf v 0 3 ∧ (s.heldBy 1 i).isSome = true
    · rw [if_neg hrange, if_pos hpin] at h
      exact absurd h (by decide)
    · rw [if_neg hrange, if_neg hpin]
      rfl

theorem exec_ordInCfgWrite_refused {s : State} (hup : HostUp s) {i : Fin 8} {v : Nat} (h : s.inCfgStatus i v ≠ 1) :
    exec (.ordInCfgWrite i v) s = .next (s.wr Reg.ORD_IN_STAT.status i (s.inCfgStatus i v)) := by
  change execOrdInCfgWrite i v s = _
  unfold execOrdInCfgWrite
  unfold State.inCfgStatus at h ⊢
  rw [byHost_up hup]
  dsimp only
  by_cases hrange : 4 < bitsOf v 0 3 ∨ bitsOf v 12 8 = 0
  · rw [if_pos hrange, if_pos hrange]
  · by_cases hpin : 2 ≤ bitsOf v 0 3 ∧ (s.heldBy 1 i).isSome = true
    · rw [if_neg hrange, if_pos hpin, if_neg hrange, if_pos hpin]
    · rw [if_neg hrange, if_neg hpin] at h
      exact absurd rfl h

/-- A refused configuration shows its status only. -/
theorem exec_ordInCfgWrite_status {s : State} (hs : Sound s) (hup : HostUp s) {i : Fin 8} {v n : Nat} (h : s.inCfgStatus i v = n) (hn : 1 < n)
    (hn' : n < 8) : ∃ t, exec (.ordInCfgWrite i v) s = .next t ∧ t.rd Reg.ORD_IN_STAT.status i = n ∧ Only [.regs] s t
      ∧ RegsBut [(Reg.ORD_IN_STAT.status, i.val)] s t := by
  have hexec := exec_ordInCfgWrite_refused hup (i := i) (v := v) (by omega)
  rw [h] at hexec
  exact ⟨_, hexec, (State.rd_wr_self _ _ _ hs.regs).trans (Nat.mod_eq_of_lt hn'), (State.wr_keeps (M := 0x10) (by decide) (.refl s)).only (by decide),
    ((Wrote.refl hs.regs).wr n (List.mem_singleton.mpr rfl)).but⟩

/-! ### ORD_IN_EDGE -/

/-- The registers at the end of a loss. -/
def State.lossWrites (s : State) (i : Nat) : List (Field × Nat × Nat) :=
  [(Reg.ORD_IN_STAT.loss, i, 0),
   (Reg.ORD_IN_LOSS.loss, 0, bitSet ((s.wr Reg.ORD_IN_STAT.loss i 0).rd Reg.ORD_IN_LOSS.loss 0) i false)]

/-- A loss ends with an edge. -/
def State.endLoss (s : State) (i k : Nat) : State :=
  ((s.wrAll (s.lossWrites i)).modInput i (fun x => { x with loss := none })).raise 0xB21 i (s.epoch - k)

/-- The measurement of a duty cycle that a rising edge in cycle `c` completes. -/
def InputRt.dutyAt (x : InputRt) (c : Nat) : List (Nat × Nat × Nat) :=
  match x.rises.head?, x.fall with
  | some a, some b => if a ≤ b then (c, b - a, c - a) :: x.duty.take 1 else x.duty
  | _, _ => x.duty

/-- A rising edge in cycle `c` of an input that read `x` before the command. -/
def InputRt.rise (x y : InputRt) (c : Nat) : InputRt :=
  { y with since := c, count := (y.count + 1) % 2 ^ 64, rises := keepRises (y.gate * 4000) c (c :: y.rises), duty := x.dutyAt c, fall := none }

/-- What an edge in cycle `c` at time `t` does to an input that read `x` before the command. -/
def State.takeEdge (s : State) (i : Nat) (rising : Bool) (x : InputRt) (c t : Nat) : State :=
  let s := s.modInput i (fun x => { x with lastTime := t })
  if rising then (s.count Reg.ORD_IN_EDGES.edges i).modInput i (fun y => x.rise y c) else s.modInput i (fun x => { x with fall := some c })

/-- The input runs in a pin mode. -/
def State.onPin (s : State) (i : Nat) : Prop := s.ordRuns = true ∧ 2 ≤ (s.input i).mode ∧ (s.input i).mode ≤ 4

theorem exec_ordInEdge {s : State} {i : Fin 8} (h : s.onPin i) (rising : Bool) : exec (.ordInEdge i rising) s = .next
    ((match (s.input i).loss with
      | some k => s.endLoss i k
      | none => s).takeEdge i rising (s.input i) (s.clk.count - (s.input i).filt)
        ({ s.clk with count := s.clk.count - (s.input i).filt } : Clk).time) := by
  obtain ⟨hruns, hlow, hhigh⟩ := h
  change execOrdInEdge i rising s = _
  unfold execOrdInEdge
  dsimp only
  rw [if_neg (by rw [hruns]; simp; omega)]
  rfl

theorem exec_ord_idle {s : State} {i : Fin 8} (h : s.ordRuns = false ∨ (s.input i).mode < 2) :
    (∀ rising, exec (.ordInEdge i rising) s = .next s) ∧ exec (.inputLoss i) s = .next s := by
  have hidle : !s.ordRuns ∨ (s.input i).mode < 2 := h.imp (by simp) id
  constructor
  · intro rising
    change execOrdInEdge i rising s = _
    unfold execOrdInEdge
    dsimp only
    rw [if_pos (hidle.imp id .inl)]
  · change execInputLoss i s = _
    unfold execInputLoss
    dsimp only
    rw [if_pos (hidle.imp id .inl)]

/-- Other inputs, and the engines and generators, are as before. -/
def OnlyInput (i : Nat) (s t : State) : Prop := (∀ n, n ≠ i → t.input n = s.input n) ∧ t.ord.ramps = s.ord.ramps ∧ t.ord.gens = s.ord.gens

theorem OnlyInput.trans {i : Nat} {s t u : State} (h : OnlyInput i s t) (h' : OnlyInput i t u) : OnlyInput i s u :=
  ⟨fun n hn => (h'.1 n hn).trans (h.1 n hn), h'.2.1.trans h.2.1, h'.2.2.trans h.2.2⟩

theorem OnlyInput.of_ord {i : Nat} {s t : State} (h : t.ord = s.ord) : OnlyInput i s t := by
  refine ⟨fun n _ => ?_, by rw [h], by rw [h]⟩
  unfold State.input
  rw [h]

theorem State.modInput_only {s : State} (h : tabWf InputRt.clear s.ord.inputs = true) (i : Nat) (f : InputRt → InputRt) :
    OnlyInput i s (s.modInput i f) :=
  ⟨fun n hn => (State.input_modInput h i f n).trans (if_neg hn), rfl, rfl⟩

/-- A rising edge. -/
theorem State.takeEdge_rise {s : State} (hs : Sound s) (i : Nat) (x : InputRt) (c t : Nat) :
    (s.takeEdge i true x c t).input i = x.rise { s.input i with lastTime := t } c ∧ OnlyInput i s (s.takeEdge i true x c t)
      ∧ (s.takeEdge i true x c t).rd Reg.ORD_IN_EDGES.edges i = min (s.rd Reg.ORD_IN_EDGES.edges i + 1) (2 ^ 32 - 1)
      ∧ Wrote [(Reg.ORD_IN_EDGES.edges, i)] s (s.takeEdge i true x c t) ∧ Keeps 0x200010 s (s.takeEdge i true x c t) := by
  have hfirst := hs.orders.2.2
  have hkeep : Keeps 0x200010 s (s.modInput i (fun x => { x with lastTime := t })) := State.modInput_keeps (by decide) (.refl s)
  have hsecond : tabWf InputRt.clear ((s.modInput i (fun x => { x with lastTime := t })).count Reg.ORD_IN_EDGES.edges i).ord.inputs = true :=
    (hkeep.sound hs).orders.2.2
  have htake : s.takeEdge i true x c t
      = ((s.modInput i (fun x => { x with lastTime := t })).count Reg.ORD_IN_EDGES.edges i).modInput i (fun y => x.rise y c) := rfl
  rw [htake]
  refine ⟨?_, ?_, ?_, ?_, ?_⟩
  · rw [State.input_modInput hsecond, if_pos rfl]
    exact congrArg (x.rise · c) ((State.input_modInput hfirst _ _ _).trans (if_pos rfl))
  · exact ((State.modInput_only hfirst i _).trans (.of_ord rfl)).trans (State.modInput_only hsecond i _)
  · exact State.rd_count_self _ _ hs.regs
  · exact (((Wrote.refl hs.regs).same rfl).count (List.mem_singleton.mpr rfl)).same rfl
  · exact State.modInput_keeps (by decide) (State.count_keeps (by decide) hkeep)

/-- A falling edge. -/
theorem State.takeEdge_fall {s : State} (hs : Sound s) (i : Nat) (x : InputRt) (c t : Nat) :
    (s.takeEdge i false x c t).input i = { s.input i with lastTime := t, fall := some c } ∧ OnlyInput i s (s.takeEdge i false x c t)
      ∧ (s.takeEdge i false x c t).regs = s.regs ∧ Keeps 0x200000 s (s.takeEdge i false x c t) := by
  have hfirst := hs.orders.2.2
  have hkeep : Keeps 0x200000 s (s.modInput i (fun x => { x with lastTime := t })) := State.modInput_keeps (by decide) (.refl s)
  have hsecond := (hkeep.sound hs).orders.2.2
  have htake : s.takeEdge i false x c t
      = (s.modInput i (fun x => { x with lastTime := t })).modInput i (fun x => { x with fall := some c }) := rfl
  rw [htake]
  refine ⟨?_, ?_, rfl, State.modInput_keeps (by decide) hkeep⟩
  · rw [State.input_modInput hsecond, if_pos rfl, State.input_modInput hfirst, if_pos rfl]
  · exact (State.modInput_only hfirst i _).trans (State.modInput_only hsecond i _)

theorem keepRises_head (g c : Nat) (l : List Nat) : (keepRises g c (c :: l)).head? = some c := rfl

/-- The end of a loss: its registers, its event, and what it leaves. -/
theorem State.endLoss_effect {s : State} (hs : Sound s) {i : Nat} (hi : i < 8) (k : Nat) :
    let t := s.endLoss i k
    t.input i = { s.input i with loss := none } ∧ OnlyInput i s t ∧ t.rd Reg.ORD_IN_STAT.loss i = 0 ∧ t.bitAt Reg.ORD_IN_LOSS.loss 0 i = false
      ∧ Reports s t 0xB21 i (s.epo.k - k) ∧ Wrote ([(Reg.ORD_IN_STAT.loss, i), (Reg.ORD_IN_LOSS.loss, 0)] ++ eventRegs) s t
      ∧ Keeps 0x200512 s t := by
  intro t
  have hunits : ∀ x ∈ s.lossWrites i, x.2.1 < 8192 := by
    unfold State.lossWrites
    simp
    omega
  obtain ⟨hreports, hwrote, hread⟩ := State.raise_after [Reg.ORD_IN_STAT.loss, Reg.ORD_IN_LOSS.loss] (l := s.lossWrites i)
    (u := (s.wrAll (s.lossWrites i)).modInput i (fun x => { x with loss := none })) (code := 0xB21) rfl (by decide) hs.regs hunits rfl rfl rfl rfl
    (by decide) i (s.epoch - k)
  have hinputs : tabWf InputRt.clear (s.wrAll (s.lossWrites i)).ord.inputs = true := hs.orders.2.2
  have hkeeps : Keeps 0x200512 s t := State.raise_keeps (by decide) (State.modInput_keeps (by decide)
    (State.wr_keeps (by decide) (State.wr_keeps (by decide) (.refl s))))
  have hord : t.ord = ((s.wrAll (s.lossWrites i)).modInput i (fun x => { x with loss := none })).ord := State.raise_ord _ _ _ _
  have hstat := hread (Reg.ORD_IN_STAT.loss, i, 0) List.mem_cons_self
  have hloss := hread (Reg.ORD_IN_LOSS.loss, 0, _) (List.mem_cons_of_mem _ List.mem_cons_self)
  refine ⟨?_, ?_, hstat, State.bitAt_of_rd hloss ?_, hreports, hwrote, hkeeps⟩
  · exact (State.input_of_ord hord i).trans ((State.input_modInput hinputs i _ i).trans (if_pos rfl))
  · exact (State.modInput_only hinputs i _).trans (.of_ord hord)
  · exact Nat.lt_of_lt_of_le hi (by decide)

/-! ### INPUT_LOSS -/

theorem Fab.again_nil {f : Fab} (h : f.again = []) : { f with again := [] } = f := by
  rw [← h]

theorem State.lateReleases_none {s : State} (h : s.fab.again = []) : s.lateReleases = s := by
  rw [State.lateReleases_idle h]
  unfold State.modFab
  dsimp only
  rw [Fab.again_nil h]

/-- Nothing waits for the cycle that the counter moves on to. -/
theorem State.reachCycle_idle {s : State} (h : s.fab.again = []) (c : Nat) :
    s.reachCycle c = { s with clk := { s.clk with count := if s.clk.count < c then c % 2 ^ 64 else s.clk.count } } := by
  unfold State.reachCycle
  by_cases hlt : s.clk.count < c
  · rw [if_pos hlt, if_pos hlt]
    exact State.lateReleases_none h
  · rw [if_neg hlt, if_neg hlt]

/-- The registers at the start of a loss. -/
def State.lostWrites (s : State) (i : Nat) : List (Field × Nat × Nat) :=
  let a := s.wr Reg.ORD_IN_STAT.loss i 1
  [(Reg.ORD_IN_STAT.loss, i, 1), (Reg.ORD_IN_LOSS.loss, 0, bitSet (a.rd Reg.ORD_IN_LOSS.loss 0) i true),
   (Reg.ORD_IN_LOSS.lost, 0, bitSet ((a.setBit Reg.ORD_IN_LOSS.loss 0 i true).rd Reg.ORD_IN_LOSS.lost 0) i true)]

/-- A loss starts. -/
def State.startLoss (s : State) (i time : Nat) : State :=
  ((s.wrAll (s.lostWrites i)).modInput i (fun x => { x with loss := some s.epoch })).raise 0xB20 i time

theorem exec_inputLoss {s : State} {i : Fin 8} (h : s.onPin i) (hloss : (s.input i).loss = none) : exec (.inputLoss i) s
    = .next ((s.reachCycle ((s.input i).since + 16 * (s.input i).gate * 4000)).startLoss i (s.input i).lastTime) := by
  obtain ⟨hruns, hlow, hhigh⟩ := h
  change execInputLoss i s = _
  unfold execInputLoss
  dsimp only
  rw [if_neg (by rw [hruns, hloss]; simp; omega)]
  rfl

theorem State.startLoss_effect {s : State} (hs : Sound s) {i : Nat} (hi : i < 8) (time : Nat) :
    let t := s.startLoss i time
    t.input i = { s.input i with loss := some s.epo.k } ∧ OnlyInput i s t ∧ t.rd Reg.ORD_IN_STAT.loss i = 1
      ∧ t.bitAt Reg.ORD_IN_LOSS.loss 0 i = true ∧ t.bitAt Reg.ORD_IN_LOSS.lost 0 i = true ∧ Reports s t 0xB20 i time
      ∧ Wrote ([(Reg.ORD_IN_STAT.loss, i), (Reg.ORD_IN_LOSS.loss, 0), (Reg.ORD_IN_LOSS.lost, 0)] ++ eventRegs) s t ∧ Keeps 0x200512 s t := by
  intro t
  have hunits : ∀ x ∈ s.lostWrites i, x.2.1 < 8192 := by
    unfold State.lostWrites
    simp
    omega
  obtain ⟨hreports, hwrote, hread⟩ := State.raise_after [Reg.ORD_IN_STAT.loss, Reg.ORD_IN_LOSS.loss, Reg.ORD_IN_LOSS.lost] (l := s.lostWrites i)
    (u := (s.wrAll (s.lostWrites i)).modInput i (fun x => { x with loss := some s.epoch })) (code := 0xB20) rfl (by decide) hs.regs hunits
    rfl rfl rfl rfl (by decide) i time
  have hinputs : tabWf InputRt.clear (s.wrAll (s.lostWrites i)).ord.inputs = true := hs.orders.2.2
  have hkeeps : Keeps 0x200512 s t := State.raise_keeps (by decide) (State.modInput_keeps (by decide) (State.wrAll_keeps (by decide) _ (.refl s)))
  have hord : t.ord = ((s.wrAll (s.lostWrites i)).modInput i (fun x => { x with loss := some s.epoch })).ord := State.raise_ord _ _ _ _
  have hstat := hread (Reg.ORD_IN_STAT.loss, i, 1) List.mem_cons_self
  have hnow := hread (Reg.ORD_IN_LOSS.loss, 0, _) (List.mem_cons_of_mem _ List.mem_cons_self)
  have hever := hread (Reg.ORD_IN_LOSS.lost, 0, _) (List.mem_cons_of_mem _ (List.mem_cons_of_mem _ List.mem_cons_self))
  refine ⟨?_, ?_, hstat, State.bitAt_of_rd hnow hi, State.bitAt_of_rd hever hi, hreports, hwrote, hkeeps⟩
  · exact (State.input_of_ord hord i).trans ((State.input_modInput hinputs i _ i).trans (if_pos rfl))
  · exact (State.modInput_only hinputs i _).trans (.of_ord hord)

end Sys2Proof.Machine

namespace Sys2Proof.Proofs

open Sys2Proof Sys2Proof.Machine Sys2Proof.Safety

/-- Settles O40: a configuration by its status (`State.inCfgStatus`), an edge by the end of a loss and what the edge itself does
(`State.endLoss_effect`, `State.takeEdge_rise`, `State.takeEdge_fall`), a loss by `State.startLoss_effect`. -/
theorem orderInputEdges : Obligations.OrderInputEdges := by
  intro s i hs
  have hi : (i : Nat) < 8192 := by omega
  refine ⟨fun v hup hmode hgate hpin => ?stored, fun v hup hrange => ?range, fun v hup hlow hhigh hgate hheld => ?held,
    fun hruns hlow hhigh hloss => ?rise, fun hruns hlow hhigh hloss => ?fall, fun k rising hruns hlow hhigh hloss => ?ends, exec_ord_idle,
    fun hruns hlow hhigh hloss => ?lost⟩
  case stored =>
    have hstatus : s.inCfgStatus i v = 1 := by
      unfold State.inCfgStatus
      rw [bitsOf_low, if_neg (not_or.mpr ⟨Nat.not_lt.mpr hmode, show bitsOf v 12 8 ≠ 0 from hgate⟩), if_neg]
      rintro ⟨hlow, hheld⟩
      rcases hpin with hpin | hpin
      · exact absurd hpin (Nat.not_lt.mpr hlow)
      · rw [hpin] at hheld
        exact absurd hheld Bool.false_ne_true
    have hunits : ∀ x ∈ inCfgWrites i v, x.2.1 < 8192 := by
      unfold inCfgWrites
      simp
      omega
    have hread := State.rd_wrAll inCfgFields (l := inCfgWrites i v) rfl (by decide) hs.regs hunits
    have hmodeReg := hread (Reg.ORD_IN_CFG.mode, i, bitsOf v 0 3) List.mem_cons_self
    rw [bitsOf_low] at hmodeReg
    have hinputs : tabWf InputRt.clear (s.wrAll (inCfgWrites i v)).ord.inputs = true := hs.orders.2.2
    refine ⟨_, exec_ordInCfgWrite_stored hup hstatus, hmodeReg.trans (Nat.mod_mod _ _), ?_, ?_, ?_, ?_, ?_,
      State.modInput_only hinputs i _, ?_, ?_⟩
    · exact (hread (Reg.ORD_IN_CFG.filt, i, bitsOf v 4 8) (by simp [inCfgWrites])).trans (Nat.mod_mod _ _)
    · exact (hread (Reg.ORD_IN_CFG.gate, i, bitsOf v 12 8) (by simp [inCfgWrites])).trans (Nat.mod_mod _ _)
    · exact (hread (Reg.ORD_IN_CFG.src_point, i, bitsOf v 20 12) (by simp [inCfgWrites])).trans (Nat.mod_mod _ _)
    · exact hread (Reg.ORD_IN_STAT.status, i, 1) (by simp [inCfgWrites])
    · exact (State.input_modInput hinputs i _ i).trans (if_pos rfl)
    · exact (State.modInput_keeps (M := 0x200010) (by decide) (State.wrAll_keeps (by decide) _ (.refl s))).only (by decide)
    · exact ((State.wrAll_wrote hs.regs (inCfgWrites i v)).same rfl).but
  case range =>
    refine exec_ordInCfgWrite_status hs hup (n := 3) (if_pos ?_) (by decide) (by decide)
    rwa [bitsOf_low]
  case held =>
    refine exec_ordInCfgWrite_status hs hup (n := 2) ?_ (by decide) (by decide)
    unfold State.inCfgStatus
    rw [bitsOf_low, if_neg (not_or.mpr ⟨Nat.not_lt.mpr hhigh, show bitsOf v 12 8 ≠ 0 from hgate⟩), if_pos ⟨hlow, hheld⟩]
  case rise =>
    obtain ⟨hinput, hothers, hedges, hwrote, hkeeps⟩ := State.takeEdge_rise hs i (s.input i) (s.clk.count - (s.input i).filt)
      ({ s.clk with count := s.clk.count - (s.input i).filt } : Clk).time
    have hexec := exec_ordInEdge ⟨hruns, hlow, hhigh⟩ true
    rw [hloss] at hexec
    refine ⟨_, hexec, ?_, ?_, ?_, ?_, hedges, hothers, hkeeps.only (by decide), hwrote.but⟩
    all_goals rw [hinput]; rfl
  case fall =>
    obtain ⟨hinput, hothers, -, hkeeps⟩ := State.takeEdge_fall hs i (s.input i) (s.clk.count - (s.input i).filt)
      ({ s.clk with count := s.clk.count - (s.input i).filt } : Clk).time
    have hexec := exec_ordInEdge ⟨hruns, hlow, hhigh⟩ false
    rw [hloss] at hexec
    refine ⟨_, hexec, ?_, ?_, ?_, hothers, hkeeps.only (by decide)⟩
    all_goals rw [hinput]
  case ends =>
    have hexec := exec_ordInEdge ⟨hruns, hlow, hhigh⟩ rising
    rw [hloss] at hexec
    dsimp only at hexec
    obtain ⟨hinput, hothers, hstat, hbit, hreports, hwrote, hkeeps⟩ := State.endLoss_effect hs i.isLt k
    have hsound := hkeeps.sound hs
    generalize s.endLoss i k = u at hinput hothers hstat hbit hreports hwrote hkeeps hsound hexec
    cases rising with
    | false =>
      obtain ⟨hedge, hlater, hregs, hkept⟩ := State.takeEdge_fall hsound i (s.input i) (s.clk.count - (s.input i).filt)
        ({ s.clk with count := s.clk.count - (s.input i).filt } : Clk).time
      refine ⟨_, hexec, ?_, (State.rd_congr hregs _ _).trans hstat, (State.bitAt_congr hregs _ _ _).trans hbit,
        (hkept.evq.get (by decide)).trans hreports, hothers.trans hlater, ?_, ?_⟩
      · rw [hedge, hinput]
      · exact (hkeeps.trans (hkept.mono (by decide))).only (by decide)
      · exact ((hwrote.same hregs).mono (regs_append (by simp) _)).but
    | true =>
      obtain ⟨hedge, hlater, -, hcount, hkept⟩ := State.takeEdge_rise hsound i (s.input i) (s.clk.count - (s.input i).filt)
        ({ s.clk with count := s.clk.count - (s.input i).filt } : Clk).time
      have hstat' := hcount.rd (apart_unit Reg.ORD_IN_STAT.loss Reg.ORD_IN_EDGES.edges hi (by decide))
      have hbit' := hcount.rd (f := Reg.ORD_IN_LOSS.loss) (i := 0) (apart_sole _ _ (by decide) hi (by decide))
      refine ⟨_, hexec, ?_, hstat'.trans hstat, ?_,
        (hkept.evq.get (by decide)).trans hreports, hothers.trans hlater, ?_, ?_⟩
      · rw [hedge, hinput]
        rfl
      · unfold State.bitAt at hbit ⊢
        rwa [hbit']
      · exact (hkeeps.trans (hkept.mono (by decide))).only (by decide)
      · exact ((hwrote.mono (regs_append (by simp) _)).trans (hcount.mono (by simp))).but
  case lost =>
    have hreach : Keeps 0x9005b2 s (s.reachCycle ((s.input i).since + 16 * (s.input i).gate * 4000)) := State.reachCycle_keeps (by decide) (.refl s)
    have hinput := State.input_of_ord (hreach.ord.get (by decide)) i
    have hk := congrArg Epo.k (hreach.epo.get (by decide))
    refine ⟨fun hagain => State.reachCycle_idle hagain _, ?_⟩
    have hexec := exec_inputLoss ⟨hruns, hlow, hhigh⟩ hloss
    have hu := hreach.sound hs
    have hord := OnlyInput.of_ord (i := i) (hreach.ord.get (by decide))
    dsimp only
    generalize s.reachCycle _ = u at hinput hk hexec hu hord
    obtain ⟨hlost, hothers, hstat, hnow, hever, hreports, hwrote, hkeeps⟩ := State.startLoss_effect hu i.isLt (s.input i).lastTime
    refine ⟨_, hexec, ?_, hstat, hnow, hever, hreports, hord.trans hothers, hkeeps.only (by decide), hwrote.but⟩
    rw [hlost, hinput, hk]

end Sys2Proof.Proofs

/-! ## Generators and shape tables (R309, R311) -/

namespace Sys2Proof.Machine

open Sys2Proof.Safety

/-! ### GEN_HOLDOVER -/

/-- The registers of a holdover. -/
def State.heldWrites (s : State) (g : Nat) : List (Field × Nat × Nat) :=
  [(Reg.ORD_GEN_HOLD.holdover, 0, bitSet (s.rd Reg.ORD_GEN_HOLD.holdover 0) g true), (Reg.ORD_GEN_STAT.holdover, g, 1)]

/-- A holdover starts. -/
def State.holdGen (s : State) (g time : Nat) : State :=
  ((s.wrAll (s.heldWrites g)).modGen g (fun x => { x with holdover := some s.epoch })).raise 0xB11 g time

theorem State.gen_modGen {s : State} (h : tabWf GenRt.clear s.ord.gens = true) (g : Nat) (f : GenRt → GenRt) (n : Nat) :
    (s.modGen g f).gen n = if n = g then f (s.gen g) else s.gen n := tabGet_tabSet h

theorem State.gen_of_ord {s t : State} (h : t.ord = s.ord) (g : Nat) : t.gen g = s.gen g := by
  unfold State.gen
  rw [h]

theorem State.holdGen_eq (s : State) (g time : Nat) : s.holdGen g time
    = (((s.setBit Reg.ORD_GEN_HOLD.holdover 0 g true).wr Reg.ORD_GEN_STAT.holdover g 1).modGen g
        (fun x => { x with holdover := some ((s.setBit Reg.ORD_GEN_HOLD.holdover 0 g true).wr Reg.ORD_GEN_STAT.holdover g 1).epoch })).raise
          0xB11 g time := rfl

theorem exec_genHoldover {s : State} {g : Fin 16} {e : GenEntry} (hentry : s.bs.orders.gens.find? (fun e => e.gen == g.val) = some e)
    (hruns : s.ordRuns = true) (hmode : (s.gen g).mode = 2) (hheld : (s.gen g).holdover = none) :
    exec (.genHoldover g) s
      = .next ((s.reachTime (((s.gen g).since + e.hold) % 2 ^ 64)).holdGen g (((s.gen g).prev.map (·.2)).getD 0)) := by
  change execGenHoldover g s = _
  unfold execGenHoldover
  dsimp only
  rw [hentry]
  dsimp only
  rw [if_neg (by rw [hruns, hheld, hmode]; simp), State.holdGen_eq]

theorem State.holdGen_effect {s : State} (hs : Sound s) {g : Nat} (hg : g < 16) (time : Nat) :
    let t := s.holdGen g time
    t.gen g = { s.gen g with holdover := some s.epo.k } ∧ (∀ m, m ≠ g → t.gen m = s.gen m) ∧ t.ord.ramps = s.ord.ramps
      ∧ t.bitAt Reg.ORD_GEN_HOLD.holdover 0 g = true ∧ t.rd Reg.ORD_GEN_STAT.holdover g = 1 ∧ Reports s t 0xB11 g time
      ∧ Wrote ([(Reg.ORD_GEN_HOLD.holdover, 0), (Reg.ORD_GEN_STAT.holdover, g)] ++ eventRegs) s t ∧ Keeps 0x200512 s t := by
  intro t
  have hunits : ∀ x ∈ s.heldWrites g, x.2.1 < 8192 := by
    unfold State.heldWrites
    simp
    omega
  obtain ⟨hreports, hwrote, hread⟩ := State.raise_after [Reg.ORD_GEN_HOLD.holdover, Reg.ORD_GEN_STAT.holdover] (l := s.heldWrites g)
    (u := (s.wrAll (s.heldWrites g)).modGen g (fun x => { x with holdover := some s.epoch })) (code := 0xB11) rfl (by decide) hs.regs hunits
    rfl rfl rfl rfl (by decide) g time
  have hgens : tabWf GenRt.clear (s.wrAll (s.heldWrites g)).ord.gens = true := hs.orders.2.1
  have hord : t.ord = ((s.wrAll (s.heldWrites g)).modGen g (fun x => { x with holdover := some s.epoch })).ord := State.raise_ord _ _ _ _
  have hbit := hread (Reg.ORD_GEN_HOLD.holdover, 0, _) List.mem_cons_self
  have hstat := hread (Reg.ORD_GEN_STAT.holdover, g, 1) (List.mem_cons_of_mem _ List.mem_cons_self)
  refine ⟨?_, fun m hm => ?_, (congrArg Ord.ramps hord :), State.bitAt_of_rd hbit hg, hstat, hreports, hwrote,
    State.raise_keeps (by decide) (State.modGen_keeps (by decide) (State.wrAll_keeps (by decide) _ (.refl s)))⟩
  · exact (State.gen_of_ord hord g).trans ((State.gen_modGen hgens g _ g).trans (if_pos rfl))
  · exact (State.gen_of_ord hord m).trans ((State.gen_modGen hgens g _ m).trans (if_neg hm))

/-- A time that has been reached moves no counter. -/
theorem State.reachTime_reached {s : State} {due : Nat} (h : s.clk.reached due = true) : s.reachTime due = s := by
  unfold State.reachTime State.reachCycle Clk.cyclesTo
  rw [if_pos h, Nat.add_zero, if_neg (Nat.lt_irrefl _)]

/-- The clock alone. -/
theorem State.only_clk (s : State) (c : Clk) : Only [.clk] s { s with clk := c } := by
  intro p hp
  cases p with
  | clk => exact absurd List.mem_cons_self hp
  | _ => rfl

theorem State.reachTime_clk {s : State} (h : s.fab.again = []) (due : Nat) : Only [.clk] s (s.reachTime due) := by
  unfold State.reachTime
  rw [State.reachCycle_idle h]
  exact State.only_clk s _

/-! ### ORD_TBL_DATA -/

/-- The index after an access. -/
def State.nextIndex (s : State) : Nat :=
  if s.flag Reg.ORD_TBL_ADDR.auto_inc 0 then (s.rd Reg.ORD_TBL_ADDR.index 0 + 1) % 1536 else s.rd Reg.ORD_TBL_ADDR.index 0

/-- The index moves on behind an access. -/
def State.moveIndex (s : State) : State :=
  if s.flag Reg.ORD_TBL_ADDR.auto_inc 0 then s.wr Reg.ORD_TBL_ADDR.index 0 ((s.rd Reg.ORD_TBL_ADDR.index 0 + 1) % 1536) else s

theorem State.moveIndex_effect {s : State} (h : tabWf 0 s.regs = true) :
    s.moveIndex.rd Reg.ORD_TBL_ADDR.index 0 = s.nextIndex ∧ RegsBut [(Reg.ORD_TBL_ADDR.index, 0)] s s.moveIndex
      ∧ Keeps 0x10 s s.moveIndex := by
  unfold State.moveIndex State.nextIndex
  by_cases hinc : s.flag Reg.ORD_TBL_ADDR.auto_inc 0 = true
  · rw [if_pos hinc, if_pos hinc]
    refine ⟨(State.rd_wr_self _ _ _ h).trans (Nat.mod_eq_of_lt ?_), ((Wrote.refl h).wr _ List.mem_cons_self).but,
      State.wr_keeps (by decide) (.refl s)⟩
    exact (Nat.mod_lt _ (by decide)).trans (by decide)
  · rw [if_neg hinc, if_neg hinc]
    exact ⟨rfl, (Wrote.refl h).but, .refl s⟩

/-- The entry of the shadow bank at the index. -/
def State.shadowPos (s : State) : Nat :=
  let n := s.rd Reg.ORD_TBL_SEL.table 0
  shapePos (1 - s.rd Reg.ORD_TBL_CTRL.bank 0 / 2 ^ n % 2) n (s.rd Reg.ORD_TBL_ADDR.index 0)

/-- The entry of the shadow bank is answered. -/
def State.answerEntry (s : State) (req : Nat) : State :=
  let p := tabGet Pt.clear s.ord.tables s.shadowPos
  { s with host := { s.host with rdata := some ⟨req, 0x8038, if p.bad then .poisoned else .ok, [p.v]⟩ } }

/-- The entry of the shadow bank is written. -/
def State.writeEntry (s : State) (value : Nat) : State :=
  s.modOrd (fun o => { o with tables := tabSet Pt.clear o.tables s.shadowPos ⟨value % 2 ^ 32, false⟩ })

theorem exec_tableRead {s : State} (hup : HostUp s) (req value : Nat) :
    exec (.tableDataWrite false req value) s = .next (s.answerEntry req).moveIndex :=
  byReader_up req Reg.ORD_TBL_DATA.data.addr (fun s => .next (s.tableAccess false req value)) hup

theorem exec_tableWrite {s : State} (hup : HostUp s) (req value : Nat) (h : s.shapeStaged (s.rd Reg.ORD_TBL_SEL.table 0) = false) :
    exec (.tableDataWrite true req value) s = .next (s.writeEntry value).moveIndex := by
  refine (byHost_up (f := fun s => .next (s.tableAccess true req value)) hup).trans (congrArg Host.Outcome.next ?_)
  unfold State.tableAccess
  dsimp only
  rw [if_neg (by rw [h]; simp)]
  rfl

theorem exec_tableWrite_staged {s : State} (hup : HostUp s) (req value : Nat) (h : s.shapeStaged (s.rd Reg.ORD_TBL_SEL.table 0) = true) :
    exec (.tableDataWrite true req value) s = .next (s.rejectWrite 0x8038) := by
  refine (byHost_up (f := fun s => .next (s.tableAccess true req value)) hup).trans (congrArg Host.Outcome.next ?_)
  unfold State.tableAccess
  dsimp only
  rw [if_pos (by rw [h]; rfl)]
  rfl

end Sys2Proof.Machine

namespace Sys2Proof.Proofs

open Sys2Proof Sys2Proof.Machine Sys2Proof.Safety

/-- Settles O41: a holdover by `State.holdGen_effect` on the state that the counter reaches, a table access by the entry at
`State.shadowPos` and `State.moveIndex_effect`. -/
theorem generatorsAndShapeTables : Obligations.GeneratorsAndShapeTables := by
  intro s g req value hs
  refine ⟨fun e hentry hruns hmode hheld => ?held, fun hup hfree => ?write, fun hup => ?read, fun hup hstaged => ?staged⟩
  case held =>
    refine ⟨State.reachTime_reached, fun hagain => State.reachTime_clk hagain _, ?_⟩
    have hexec := exec_genHoldover hentry hruns hmode hheld
    have hreach : Keeps 0x9005b2 s (s.reachTime (((s.gen g).since + e.hold) % 2 ^ 64)) := State.reachTime_keeps (by decide) (.refl s)
    dsimp only
    generalize s.reachTime _ = u at hexec hreach
    have hord : u.ord = s.ord := hreach.ord.get (by decide)
    obtain ⟨hgen, hothers, hramps, hbit, hstat, hreports, hwrote, hkeeps⟩ :=
      State.holdGen_effect (hreach.sound hs) g.isLt (((s.gen g).prev.map (·.2)).getD 0)
    refine ⟨_, hexec, ?_, hbit, hstat, hreports, fun m hm => (hothers m hm).trans (State.gen_of_ord hord m),
      hramps.trans (congrArg Ord.ramps hord), hkeeps.only (by decide), hwrote.but⟩
    rw [hgen, State.gen_of_ord hord, congrArg Epo.k (hreach.epo.get (by decide))]
  case write =>
    have hw : tabWf 0 (s.writeEntry value).regs = true := hs.regs
    obtain ⟨hindex, hregs, hkeeps⟩ := State.moveIndex_effect hw
    have hentry : Keeps 0x200000 s (s.writeEntry value) := State.modOrd_keeps (by decide) (.refl s) id
    exact ⟨_, exec_tableWrite hup req value hfree, hkeeps.ord.get (by decide), ⟨hindex, hregs⟩,
      ((hentry.mono (M := 0x200010) (by decide)).trans (hkeeps.mono (by decide))).only (by decide)⟩
  case read =>
    have hw : tabWf 0 (s.answerEntry req).regs = true := hs.regs
    obtain ⟨hindex, hregs, hkeeps⟩ := State.moveIndex_effect hw
    have hhost : (s.answerEntry req).moveIndex.host = (s.answerEntry req).host := hkeeps.host.get (by decide)
    have hanswer : Keeps 0x400 s (s.answerEntry req) := Keeps.upd (.refl s)
    exact ⟨_, exec_tableRead hup req value, congrArg HostIf.rdata hhost, hkeeps.ord.get (by decide), (congrArg HostIf.mem hhost :),
      (congrArg HostIf.latch hhost :), ⟨hindex, hregs⟩,
      ((hanswer.mono (M := 0x410) (by decide)).trans (hkeeps.mono (by decide))).only (by decide)⟩
  case staged =>
    exact ⟨_, exec_tableWrite_staged hup req value hstaged, (State.rejectWrite_keeps (M := 0x512) (by decide) (.refl s)).ord.get (by decide),
      State.rejectWrite_effect _ hs.regs⟩

end Sys2Proof.Proofs

/-! ## Ramp engines (R299 to R303) -/

namespace Sys2Proof.Machine

open Sys2Proof.Safety

theorem State.ramp_modRamp {s : State} (h : tabWf RampRt.clear s.ord.ramps = true) (r : Nat) (f : RampRt → RampRt) (n : Nat) :
    (s.modRamp r f).ramp n = if n = r then f (s.ramp r) else s.ramp n := tabGet_tabSet h

theorem State.ramp_of_ord {s t : State} (h : t.ord = s.ord) (r : Nat) : t.ramp r = s.ramp r := by
  unfold State.ramp
  rw [h]

/-- Other engines, the generators, the inputs and the shape tables are as before. -/
def OnlyRamp (r : Nat) (s t : State) : Prop :=
  (∀ n, n ≠ r → t.ramp n = s.ramp n) ∧ t.ord.gens = s.ord.gens ∧ t.ord.inputs = s.ord.inputs ∧ t.ord.tables = s.ord.tables

theorem OnlyRamp.trans {r : Nat} {s t u : State} (h : OnlyRamp r s t) (h' : OnlyRamp r t u) : OnlyRamp r s u :=
  ⟨fun n hn => (h'.1 n hn).trans (h.1 n hn), h'.2.1.trans h.2.1, h'.2.2.1.trans h.2.2.1, h'.2.2.2.trans h.2.2.2⟩

theorem OnlyRamp.of_ord {r : Nat} {s t : State} (h : t.ord = s.ord) : OnlyRamp r s t :=
  ⟨fun n _ => State.ramp_of_ord h n, by rw [h], by rw [h], by rw [h]⟩

theorem State.modRamp_only {s : State} (h : tabWf RampRt.clear s.ord.ramps = true) (r : Nat) (f : RampRt → RampRt) :
    OnlyRamp r s (s.modRamp r f) :=
  ⟨fun n hn => (State.ramp_modRamp h r f n).trans (if_neg hn), rfl, rfl, rfl⟩

/-! ### The points of an engine -/

theorem State.work_setPoint {s : State} (h : tabWf Pt.clear s.pts.work = true) (a v b : Nat) :
    (s.setPoint a v).work b = if b = a then ⟨v % 2 ^ 64, false⟩ else s.work b := tabGet_tabSet h

/-- Points +10 and +13 show position and target; no point outside +10 to +13 changes. -/
theorem State.showRamp_effect {s : State} (hs : Sound s) (e : RampEntry) :
    let t := s.showRamp e
    t.work (rampPoint e.ramp 10) = ⟨tagged (f64To32 (s.ramp e.ramp).x) s.epo.k % 2 ^ 64, false⟩
      ∧ t.work (rampPoint e.ramp 13) = ⟨tagged (s.ramp e.ramp).target s.epo.k % 2 ^ 64, false⟩
      ∧ ∀ a, a < rampPoint e.ramp 10 ∨ rampPoint e.ramp 13 < a → t.work a = s.work a := by
  obtain ⟨v11, v12, hshow⟩ : ∃ v11 v12, s.showRamp e
      = (((s.setPoint (rampPoint e.ramp 10) (tagged (f64To32 (s.ramp e.ramp).x) s.epoch)).setPoint (rampPoint e.ramp 11) v11).setPoint
          (rampPoint e.ramp 12) v12).setPoint (rampPoint e.ramp 13) (tagged (s.ramp e.ramp).target s.epoch) := ⟨_, _, rfl⟩
  have hplace : ∀ i, rampPoint e.ramp i = 0x1000 + 16 * e.ramp + i := fun _ => rfl
  have h10 := hs.points.1
  have hfirst : Keeps 0x80 s (s.setPoint (rampPoint e.ramp 10) (tagged (f64To32 (s.ramp e.ramp).x) s.epoch)) :=
    State.setPoint_keeps (by decide) (.refl s)
  have hsecond := State.setPoint_keeps (a1 := rampPoint e.ramp 11) (a2 := v11) (by decide) hfirst
  have hthird := State.setPoint_keeps (a1 := rampPoint e.ramp 12) (a2 := v12) (by decide) hsecond
  have h11 := (hfirst.sound hs).points.1
  have h12 := (hsecond.sound hs).points.1
  have h13 := (hthird.sound hs).points.1
  have hread : ∀ a, (s.showRamp e).work a = _ := fun a => by
    rw [hshow, State.work_setPoint h13, State.work_setPoint h12, State.work_setPoint h11, State.work_setPoint h10]
  refine ⟨?_, ?_, fun a ha => ?_⟩
  · rw [hread, if_neg (by rw [hplace, hplace]; omega), if_neg (by rw [hplace, hplace]; omega), if_neg (by rw [hplace, hplace]; omega), if_pos rfl]
    rfl
  · rw [hread, if_pos rfl]
    rfl
  · rw [hplace, hplace] at ha
    rw [hread, if_neg (by rw [hplace]; omega), if_neg (by rw [hplace]; omega), if_neg (by rw [hplace]; omega), if_neg (by rw [hplace]; omega)]

/-! ### One engine at a tick -/

/-- The registers of the engines. -/
abbrev rampRegs : List (Field × Nat) := [(Reg.ORD_RAMP_RUN.run, 0), (Reg.ORD_RAMP_DEFER.deferred, 0), (Reg.ORD_RAMP_DONE.done, 0)]

/-- What a tick changes before the engine's points are shown. -/
structure RampMoved (r : Nat) (s m : State) : Prop where
  others : OnlyRamp r s m
  ticked : m.ord.lastTick = some s.epo.k
  regs : Wrote (rampRegs ++ eventRegs) s m
  keeps : Keeps 0x200512 s m

/-- The state after a tick that moved the engine: its points, and what stays. -/
theorem RampMoved.shown {s m : State} {e : RampEntry} (h : RampMoved e.ramp s m) (hs : Sound s) {t : State} (ht : t = s.mirrorOf (m.showRamp e)) :
    (t.work (rampPoint e.ramp 10) = ⟨tagged (f64To32 (t.ramp e.ramp).x) s.epo.k % 2 ^ 64, false⟩
      ∧ t.work (rampPoint e.ramp 13) = ⟨tagged (t.ramp e.ramp).target s.epo.k % 2 ^ 64, false⟩
      ∧ t.ord.lastTick = some s.epo.k ∧ (∀ n, n ≠ e.ramp → t.ramp n = s.ramp n) ∧ t.ord.gens = s.ord.gens ∧ t.ord.inputs = s.ord.inputs
      ∧ t.ord.tables = s.ord.tables ∧ t.pts.pub = s.pts.pub
      ∧ (∀ a, a < rampPoint e.ramp 10 ∨ rampPoint e.ramp 13 < a → t.work a = s.work a)
      ∧ Only ([.pts, .ord] ++ eventParts ++ mirrorParts) s t ∧ RegsBut (rampRegs ++ eventRegs) s t)
      ∧ t.ord = m.ord ∧ t.evq = m.evq ∧ t.regs = m.regs := by
  subst ht
  have hshow : Keeps 0x80 m (m.showRamp e) := State.showRamp_keeps (by decide) (.refl m)
  have hmirror : Keeps 0x800002 (m.showRamp e) (s.mirrorOf (m.showRamp e)) := State.mirrorOf_keeps (by decide) (.refl _)
  have hall : Keeps 0xa00592 s (s.mirrorOf (m.showRamp e)) :=
    ((h.keeps.mono (by decide)).trans (hshow.mono (by decide))).trans (hmirror.mono (by decide))
  have hlater : Keeps 0x800082 m (s.mirrorOf (m.showRamp e)) := (hshow.mono (by decide)).trans (hmirror.mono (by decide))
  have hord : (s.mirrorOf (m.showRamp e)).ord = m.ord := hlater.ord.get (by decide)
  have hregs : (s.mirrorOf (m.showRamp e)).regs = m.regs := hlater.regs.get (by decide)
  have hwork : ∀ a, (s.mirrorOf (m.showRamp e)).work a = (m.showRamp e).work a := fun a => by
    unfold State.work
    rw [State.mirrorOf_pts]
  have hpts : m.pts = s.pts := h.keeps.pts.get (by decide)
  have hk : m.epo.k = s.epo.k := congrArg Epo.k (h.keeps.epo.get (by decide))
  obtain ⟨hx, htarget, hother⟩ := State.showRamp_effect (h.keeps.sound hs) e
  obtain ⟨hramps, hgens, hinputs, htables⟩ := h.others.trans (OnlyRamp.of_ord (r := e.ramp) hord)
  refine ⟨⟨?_, ?_, (congrArg Ord.lastTick hord).trans h.ticked, hramps, hgens, hinputs, htables, hall.published.get (by decide), fun a ha => ?_,
    hall.only (by decide), (h.regs.same hregs).but⟩, hord, hlater.evq.get (by decide), hregs⟩
  · rw [hwork, hx, State.ramp_of_ord hord, hk]
  · rw [hwork, htarget, State.ramp_of_ord hord, hk]
  · rw [hwork, hother a ha]
    unfold State.work
    rw [hpts]

/-- A tick gives an engine a rate and a state, and leaves its position, direction and target. -/
theorem RampRt.accelerate_eq (x : RampRt) (dt rem : Nat) : ∃ v state, x.accelerate dt rem = { x with v := v, state := state } := by
  have hsame : ∃ v state, x = { x with v := v, state := state } := ⟨x.v, x.state, rfl⟩
  unfold RampRt.accelerate
  dsimp only
  split
  · exact ⟨_, _, rfl⟩
  · split
    · exact ⟨_, x.state, rfl⟩
    · split
      · exact hsame
      · split
        · exact ⟨_, _, rfl⟩
        · exact ⟨x.v, _, rfl⟩

/-- The engines that have ticked, with the clamp of a follow input taken off engine r. -/
def State.tickBegun (s : State) (r : Nat) : State :=
  (s.modOrd (fun o => { o with lastTick := some s.epo.k })).modRamp r (fun x => { x with clamped := false })

theorem State.tickBegun_moved {s : State} (hs : Sound s) (r : Nat) : RampMoved r s (s.tickBegun r) := by
  have hkeeps : Keeps 0x200000 s (s.tickBegun r) := State.modRamp_keeps (by decide) (State.modOrd_keeps (by decide) (.refl s) id)
  have hothers : OnlyRamp r (s.modOrd (fun o => { o with lastTick := some s.epo.k })) (s.tickBegun r) := State.modRamp_only hs.orders.1 r _
  exact ⟨hothers, rfl, (Wrote.refl hs.regs).same rfl, hkeeps.mono (by decide)⟩

theorem RampMoved.modRamp {r : Nat} {s m : State} (h : RampMoved r s m) (hs : Sound s) (f : RampRt → RampRt) : RampMoved r s (m.modRamp r f) :=
  ⟨h.others.trans (State.modRamp_only (h.keeps.sound hs).orders.1 r f), h.ticked, h.regs.same rfl, State.modRamp_keeps (by decide) h.keeps⟩

theorem State.tickBegun_ramp {s : State} (hs : Sound s) (r : Nat) : (s.tickBegun r).ramp r = { s.ramp r with clamped := false } :=
  (State.ramp_modRamp (s := s.modOrd (fun o => { o with lastTick := some s.epo.k })) hs.orders.1 r _ r).trans (if_pos rfl)

/-- An engine in motion at a tick. -/
def State.rampMove (s : State) (r tgt dt : Nat) : State :=
  let x := s.ramp r
  let rem := x.remaining tgt
  let y := x.accelerate dt rem
  let xn := fAdd f64 y.x (fMul f64 (signed64 y.neg y.v) dt)
  if fLt f64 0 rem ∧ fLe f64 (signed64 y.neg (fSub f64 (f32To64 tgt) xn)) 0 then
    let s := s.modRamp r (fun _ => { y with x := f32To64 tgt, v := 0, state := 0 })
    ((s.rampRest r).setBit Reg.ORD_RAMP_DONE.done 0 r true).raise 0xB00 r tgt
  else if fOrd f64 y.v = fOrd f64 (f32To64 y.vstop) ∧ (y.state = 4 ∨ fLe f64 rem 0) then
    let held := y.state = 4
    let s := (s.modRamp r (fun _ => { y with x := xn, v := 0, state := if held then 5 else 0 })).rampRest r
    if held then s.raise 0xB02 r (f64To32 xn) else s
  else s.modRamp r (fun _ => { y with x := xn })

theorem RampRt.accelerate_x (x : RampRt) (dt rem : Nat) : (x.accelerate dt rem).x = x.x := by
  obtain ⟨v, state, h⟩ := x.accelerate_eq dt rem
  rw [h]

theorem RampRt.accelerate_neg (x : RampRt) (dt rem : Nat) : (x.accelerate dt rem).neg = x.neg := by
  obtain ⟨v, state, h⟩ := x.accelerate_eq dt rem
  rw [h]

/-- An engine stops at its target (R303). -/
def State.rampArrive (s : State) (r tgt : Nat) (y : RampRt) : State :=
  let s := s.modRamp r (fun _ => { y with x := f32To64 tgt, v := 0, state := 0 })
  ((s.rampRest r).setBit Reg.ORD_RAMP_DONE.done 0 r true).raise 0xB00 r tgt

section Move

variable {s : State} {r tgt dt : Nat} {x : RampRt}

/-- An engine with rate `y.v` reaches its target, or passes it, in one tick (R303). -/
def RampRt.arrives (y : RampRt) (tgt dt rem : Nat) : Prop :=
  fLt f64 0 rem = true ∧ fLe f64 (signed64 y.neg (fSub f64 (f32To64 tgt) (fAdd f64 y.x (fMul f64 (signed64 y.neg y.v) dt)))) 0 = true

theorem State.rampMove_arrives (hx : s.ramp r = x) (h : (x.accelerate dt (x.remaining tgt)).arrives tgt dt (x.remaining tgt)) :
    s.rampMove r tgt dt = s.rampArrive r tgt (x.accelerate dt (x.remaining tgt)) := by
  subst hx
  unfold RampRt.arrives at h
  unfold State.rampMove
  dsimp only
  rw [if_pos h]
  rfl

theorem State.rampMove_on (hx : s.ramp r = x) (h : ¬ (x.accelerate dt (x.remaining tgt)).arrives tgt dt (x.remaining tgt))
    (hgo : ¬ (fOrd f64 (x.accelerate dt (x.remaining tgt)).v = fOrd f64 (f32To64 (x.accelerate dt (x.remaining tgt)).vstop)
      ∧ ((x.accelerate dt (x.remaining tgt)).state = 4 ∨ fLe f64 (x.remaining tgt) 0 = true))) :
    s.rampMove r tgt dt = s.modRamp r (fun _ => { x.accelerate dt (x.remaining tgt) with
      x := fAdd f64 x.x (fMul f64 (signed64 x.neg (x.accelerate dt (x.remaining tgt)).v) dt) }) := by
  subst hx
  unfold RampRt.arrives at h
  unfold State.rampMove
  dsimp only
  rw [if_neg h, if_neg hgo, RampRt.accelerate_x, RampRt.accelerate_neg]

end Move

theorem exec_rampHaltRequest {s : State} (hup : HostUp s) (engines : Nat) :
    exec (.rampHaltRequest engines) s = .next (s.modOrd (fun o => { o with halt := o.halt ||| engines % 2 ^ 32 })) := by
  change execRampHaltRequest engines s = _
  unfold execRampHaltRequest
  rw [byHost_up hup]

theorem State.rampTick_plain {s : State} {e : RampEntry} (dt : Nat) (h : e.follow = none) :
    s.rampTick dt e
      = (if ((s.modRamp e.ramp (fun x => { x with target := (s.ramp e.ramp).target, clamped := false })).ramp e.ramp).state = 0
            ∨ ((s.modRamp e.ramp (fun x => { x with target := (s.ramp e.ramp).target, clamped := false })).ramp e.ramp).state = 5
          then s.modRamp e.ramp (fun x => { x with target := (s.ramp e.ramp).target, clamped := false })
          else (s.modRamp e.ramp (fun x => { x with target := (s.ramp e.ramp).target, clamped := false })).rampMove e.ramp
            (s.ramp e.ramp).target dt).showRamp e := by
  have htarget : s.rampTarget e = ((s.ramp e.ramp).target, false) := by
    unfold State.rampTarget
    rw [h]
  unfold State.rampTick State.rampMove
  dsimp only
  rw [htarget, h]
  dsimp only
  rw [if_neg (c := _ ∧ (none : Option Nat).isSome = true ∧ _) (by simp)]

/-- The tick of the only engine, which follows no input, is due (R299). -/
structure TickDue (s : State) (e : RampEntry) : Prop where
  alone : s.bs.orders.ramps = [e]
  free : e.follow = none
  index : e.ramp < 32
  runs : s.ordRuns = true
  seam : s.epo.k % (s.rd Reg.ORD_CTRL.ramp_div 0 + 1) = 0
  new : s.ord.lastTick ≠ some s.epo.k

theorem exec_rampTick_due {s : State} {e : RampEntry} (hs : Sound s) (h : TickDue s e) :
    exec .rampTick s = .next (s.mirrorOf ((if (s.ramp e.ramp).state = 0 ∨ (s.ramp e.ramp).state = 5 then s.tickBegun e.ramp
      else (s.tickBegun e.ramp).rampMove e.ramp (s.ramp e.ramp).target s.rampStep).showRamp e)) := by
  have hstate : ((s.tickBegun e.ramp).ramp e.ramp).state = (s.ramp e.ramp).state := by rw [State.tickBegun_ramp hs]
  change execRampTick s = _
  unfold execRampTick
  rw [if_neg (by simp [h.runs, h.seam, h.new]), h.alone]
  dsimp only [List.foldl_cons, List.foldl_nil]
  rw [State.rampTick_plain _ h.free, ← hstate]
  rfl

theorem exec_rampTick_idle {s : State} (h : s.ordRuns = false ∨ s.ord.lastTick = some s.epo.k) : exec .rampTick s = .next (s.mirrorOf s) := by
  change execRampTick s = _
  unfold execRampTick
  rw [if_pos]
  rcases h with h | h <;> simp [h]

/-- The registers of an engine that has arrived. -/
def State.arriveWrites (s : State) (r : Nat) : List (Field × Nat × Nat) :=
  let a := s.setBit Reg.ORD_RAMP_RUN.run 0 r false
  let b := a.setBit Reg.ORD_RAMP_DEFER.deferred 0 r false
  [(Reg.ORD_RAMP_RUN.run, 0, bitSet (s.rd Reg.ORD_RAMP_RUN.run 0) r false),
   (Reg.ORD_RAMP_DEFER.deferred, 0, bitSet (a.rd Reg.ORD_RAMP_DEFER.deferred 0) r false),
   (Reg.ORD_RAMP_DONE.done, 0, bitSet (b.rd Reg.ORD_RAMP_DONE.done 0) r true)]

theorem State.rampArrive_effect {s : State} (hs : Sound s) {r : Nat} (hr : r < 32) (tgt : Nat) (y : RampRt) :
    let t := s.rampArrive r tgt y
    (t.ramp r).x = f32To64 tgt ∧ (t.ramp r).v = 0 ∧ (t.ramp r).state = 0 ∧ OnlyRamp r s t ∧ t.ord.lastTick = s.ord.lastTick
      ∧ t.bitAt Reg.ORD_RAMP_DONE.done 0 r = true ∧ t.bitAt Reg.ORD_RAMP_RUN.run 0 r = false ∧ Reports s t 0xB00 r tgt
      ∧ Wrote (rampRegs ++ eventRegs) s t ∧ Keeps 0x200512 s t := by
  intro t
  let rest := (s.modRamp r (fun _ => { y with x := f32To64 tgt, v := 0, state := 0 })).rampRest r
  have hunits : ∀ x ∈ s.arriveWrites r, x.2.1 < 8192 := by
    unfold State.arriveWrites
    simp
  obtain ⟨hreports, hwrote, hread⟩ := State.raise_after [Reg.ORD_RAMP_RUN.run, Reg.ORD_RAMP_DEFER.deferred, Reg.ORD_RAMP_DONE.done]
    (l := s.arriveWrites r) (u := rest.setBit Reg.ORD_RAMP_DONE.done 0 r true) (code := 0xB00) rfl (by decide) hs.regs hunits
    rfl rfl rfl rfl (by decide) r tgt
  have hrun := hread (Reg.ORD_RAMP_RUN.run, 0, _) List.mem_cons_self
  have hdone := hread (Reg.ORD_RAMP_DONE.done, 0, _) (List.mem_cons_of_mem _ (List.mem_cons_of_mem _ List.mem_cons_self))
  have hfirst : Keeps 0x200512 s (s.modRamp r (fun _ => { y with x := f32To64 tgt, v := 0, state := 0 })) :=
    State.modRamp_keeps (by decide) (.refl s)
  have hkeeps : Keeps 0x200512 s t := State.raise_keeps (by decide) (State.setBit_keeps (by decide) (State.rampRest_keeps (by decide) hfirst))
  have hord : t.ord = rest.ord := State.raise_ord _ _ _ _
  have hramps := hs.orders.1
  have hramps1 := (hfirst.sound hs).orders.1
  have hramps2 := (State.modRamp_keeps (a1 := r) (a2 := fun x => { x with dec1 := x.par.dec1, dec2 := x.par.dec2 }) (by decide) hfirst |>.sound hs).orders.1
  have hothers : OnlyRamp r s t := (((State.modRamp_only hramps r _).trans (State.modRamp_only hramps1 r _)).trans
    (State.modRamp_only hramps2 r _)).trans (.of_ord hord)
  have hramp : t.ramp r = { { y with x := f32To64 tgt, v := 0, state := 0 } with dec1 := y.par.dec1, dec2 := y.par.dec2, deferred := false } := by
    rw [State.ramp_of_ord hord]
    refine (State.ramp_modRamp hramps2 r _ r).trans ((if_pos rfl).trans ?_)
    rw [State.ramp_modRamp hramps1, if_pos rfl, State.ramp_modRamp hramps, if_pos rfl]
  exact ⟨by rw [hramp], by rw [hramp], by rw [hramp], hothers, (congrArg Ord.lastTick hord :), State.bitAt_of_rd hdone hr, State.bitAt_of_rd hrun hr,
    hreports, hwrote, hkeeps⟩

end Sys2Proof.Machine

namespace Sys2Proof.Proofs

open Sys2Proof Sys2Proof.Machine Sys2Proof.Safety

/-- Settles O39: the engine's own step (`State.tickBegun_moved`, `State.rampArrive_effect`), then its points (`RampMoved.shown`). -/
theorem rampTickMoves : Obligations.RampTickMoves := by
  intro s e hs r x dt rem y xn arrives shown due
  have hdue : due → TickDue s e := fun ⟨h1, h2, h3, h4, h5, h6⟩ => ⟨h1, h2, h3, h4, h5, h6⟩
  have hbegun := State.tickBegun_moved hs r
  have hx := State.tickBegun_ramp hs r
  have hsound := hbegun.keeps.sound hs
  have harrives : y.arrives x.target dt rem = arrives := by
    unfold RampRt.arrives
    rw [RampRt.accelerate_x, RampRt.accelerate_neg]
  refine ⟨fun hd hrest => ?rest, fun hd h0 h5 hfar hgo => ?moves, fun hd h0 h5 harrive => ?arrives, fun hidle => ?idle, fun engines hup => ?halt⟩
  case rest =>
    have hexec := exec_rampTick_due hs (hdue hd)
    rw [if_pos hrest] at hexec
    obtain ⟨hshown, hord, -, -⟩ := hbegun.shown hs rfl
    have hramp := (State.ramp_of_ord hord r).trans hx
    exact ⟨_, hexec, hshown, by rw [hramp], by rw [hramp], by rw [hramp]⟩
  case moves =>
    have hexec := exec_rampTick_due hs (hdue hd)
    have hmove : (s.tickBegun r).rampMove r x.target dt = (s.tickBegun r).modRamp r (fun _ => { y with x := xn }) :=
      State.rampMove_on hx (harrives ▸ hfar) hgo
    rw [if_neg (not_or.mpr ⟨h0, h5⟩), hmove] at hexec
    have hmoved := hbegun.modRamp hs (fun _ => { y with x := xn })
    obtain ⟨hshown, hord, -, -⟩ := hmoved.shown hs rfl
    have hramp := (State.ramp_of_ord hord r).trans ((State.ramp_modRamp hsound.orders.1 r _ r).trans (if_pos rfl))
    exact ⟨_, hexec, hshown, by rw [hramp], by rw [hramp], by rw [hramp]⟩
  case arrives =>
    have hexec := exec_rampTick_due hs (hdue hd)
    have hmove : (s.tickBegun r).rampMove r x.target dt = (s.tickBegun r).rampArrive r x.target y :=
      State.rampMove_arrives hx (harrives ▸ harrive)
    rw [if_neg (not_or.mpr ⟨h0, h5⟩), hmove] at hexec
    obtain ⟨hpos, hv, hstate, hothers, htick, hdone, hrun, hreports, hwrote, hkeeps⟩ := State.rampArrive_effect hsound (hdue hd).index x.target y
    have hmoved : RampMoved r s ((s.tickBegun r).rampArrive r x.target y) :=
      ⟨hbegun.others.trans hothers, htick.trans hbegun.ticked, (hbegun.regs.trans hwrote), hbegun.keeps.trans hkeeps⟩
    obtain ⟨hshown, hord, hevq, hregs⟩ := hmoved.shown hs rfl
    have hramp := State.ramp_of_ord hord r
    exact ⟨_, hexec, hshown, by rw [hramp, hpos], by rw [hramp, hv], by rw [hramp, hstate], (State.bitAt_congr hregs _ _ _).trans hdone,
      (State.bitAt_congr hregs _ _ _).trans hrun, hevq.trans hreports⟩
  case idle =>
    refine ⟨_, exec_rampTick_idle hidle, State.mirrorOf_ord _ _, ?_⟩
    exact (State.mirrorOf_keeps (M := 0x800002) (by decide) (.refl s)).only (by decide)
  case halt =>
    refine ⟨_, exec_rampHaltRequest hup engines, rfl, ?_⟩
    exact (State.modOrd_keeps (M := 0x200000) (by decide) (.refl s) id).only (by decide)

end Sys2Proof.Proofs

/-! ## The link, the interrupt vectors and the JTAG port (R471 to R482, R496, R497) -/

namespace Sys2Proof.Machine

open Sys2Proof.Safety

/-! ### Events without a vector -/

/-- An event that no vector belongs to reaches the event buffer alone. -/
theorem State.raise_unheard {M : Nat} {r s : State} {code : Nat} (hm : 0x110 ||| M = M) (hv : eventVector code = none) (hc : code ≠ 0x010)
    (inst data : Nat) (h : Keeps M r s) : Keeps M r (s.raise code inst data) := by
  unfold State.raise State.raiseAt State.raiseIn
  rw [hv]
  dsimp only
  rw [if_neg (c := code = 0x010 ∧ _) (fun hmarker => hc hmarker.1)]
  by_cases hmask : code = 0x010 ∨ s.bitAt Reg.EPO_EV_MASK.range_en 0 (code / 256) = true
  · rw [if_pos hmask]
    exact State.queueEvent_keeps hm h
  · rwa [if_neg hmask]

/-! ### Places apart -/

/-- No field of `m` shares a place with one of `l`. -/
def regsApart (m l : List (Field × Nat)) : Bool :=
  m.all (fun q => decide (q.2 < 8192) && l.all (fun p => p.1.place != q.1.place) && l.all (fun p => decide (p.2 < 8192)))

theorem regsApart.get {m l : List (Field × Nat)} (h : regsApart m l = true) {f : Field} {i : Nat} (hf : (f, i) ∈ m) : Apart f i l := by
  obtain ⟨hboth, hunits⟩ := Bool.and_eq_true_iff.mp (List.all_eq_true.mp h (f, i) hf)
  obtain ⟨hunit, hplace⟩ := Bool.and_eq_true_iff.mp hboth
  exact ⟨hplace, of_decide_eq_true hunit, fun p hp => of_decide_eq_true (List.all_eq_true.mp hunits p hp)⟩

/-- No two registers of the list have the same key. -/
def keysApart : List (Field × Nat) → Bool
  | [] => true
  | p :: l => l.all (fun q => regKey p.1 p.2 != regKey q.1 q.2) && keysApart l

/-- The values written to different registers, each cut to its field's width. -/
theorem State.rd_wrAll_keys (ks : List (Field × Nat)) {l : List (Field × Nat × Nat)} (hks : writtenRegs l = ks) (hapart : keysApart ks = true) :
    ∀ {s : State}, tabWf 0 s.regs = true → ∀ x ∈ l, (s.wrAll l).rd x.1 x.2.1 = x.2.2 % 2 ^ x.1.width := by
  subst hks
  induction l with
  | nil => exact fun _ x hx => absurd hx List.not_mem_nil
  | cons y l ih =>
    intro s hw x hx
    obtain ⟨hfirst, hrest⟩ := Bool.and_eq_true_iff.mp hapart
    have hy : tabWf 0 (s.wr y.1 y.2.1 y.2.2).regs = true := State.regs_wr _ _ _ hw
    rcases List.mem_cons.mp hx with rfl | hx
    · have hother : regKey x.1 x.2.1 ∉ (writtenRegs l).map (fun p => regKey p.1 p.2) := by
        intro hm
        obtain ⟨q, hq, hkey⟩ := List.mem_map.mp hm
        exact bne_iff_ne.mp (List.all_eq_true.mp hfirst q hq) hkey.symm
      exact ((State.wrAll_wrote hy l).but _ _ hother).trans (State.rd_wr_self _ _ _ hw)
    · exact ih hrest hy x hx

/-! ### The reset of the host interface (R472) -/

/-- The fields of the host interface that a link reset gives their reset values. -/
abbrev linkFields : List Field :=
  [Reg.GLB_CTRL.acc_ev, Reg.GLB_CTRL.dma_ev, Reg.GLB_EVQ_MOD.count, Reg.GLB_EVQ_MOD.time, Reg.GLB_IRQ_EN0.en,
   Reg.GLB_IRQ_EN1.en, Reg.GLB_IRQ_STAT0.cause, Reg.GLB_IRQ_STAT1.cause, Reg.EPO_CTRL.ev_enable,
   Reg.EPO_DR_CTRL.dma_start, Reg.EPO_STAT.dr_dma_busy, Reg.GLB_STAT.master_off, Reg.GLB_STAT.d3, Reg.GLB_LINK_STAT.dstate]

/-- Those that an event leaves, too. -/
abbrev quietFields : List Field :=
  [Reg.GLB_CTRL.acc_ev, Reg.GLB_CTRL.dma_ev, Reg.GLB_EVQ_MOD.count, Reg.GLB_EVQ_MOD.time, Reg.GLB_IRQ_EN0.en,
   Reg.GLB_IRQ_EN1.en, Reg.EPO_CTRL.ev_enable, Reg.EPO_DR_CTRL.dma_start, Reg.EPO_STAT.dr_dma_busy, Reg.GLB_STAT.master_off,
   Reg.GLB_STAT.d3, Reg.GLB_LINK_STAT.dstate]

/-- The enables of the Ethernet ports. -/
abbrev portRegs : List (Field × Nat) :=
  [(Reg.ETH_CTRL.rx_en, 0), (Reg.ETH_CTRL.rx_en, 1), (Reg.ETH_CTRL.tx_en, 0), (Reg.ETH_CTRL.tx_en, 1)]

/-- What a link reset writes. -/
abbrev linkRegs : List (Field × Nat) := linkFields.map (fun f => (f, 0)) ++ portRegs

def linkWrites : List (Field × Nat × Nat) := linkRegs.map (fun p => (p.1, p.2, p.1.reset))

/-- The host interface without vectors, latch and answer. -/
def State.dropHost (s : State) : State := { s with host := { s.host with msix := [], pba := [], latch := [], rdata := none } }

theorem State.hostReset_eq (s : State) : s.hostReset = s.dropHost.wrAll linkWrites := by
  unfold State.wrAll linkWrites
  rw [List.foldl_map, List.foldl_append, List.foldl_map]
  rfl

theorem linkWrites_regs : writtenRegs linkWrites = linkRegs := by
  unfold writtenRegs linkWrites
  rw [List.map_map]
  exact List.map_id _

theorem State.hostReset_effect {s : State} (h : tabWf 0 s.regs = true) :
    (∀ p ∈ linkRegs, s.hostReset.rd p.1 p.2 = p.1.reset) ∧ s.hostReset.host = s.dropHost.host ∧ Wrote linkRegs s s.hostReset := by
  have hdrop : tabWf 0 s.dropHost.regs = true := h
  have hwrote := State.wrAll_wrote hdrop linkWrites
  rw [linkWrites_regs] at hwrote
  rw [State.hostReset_eq]
  refine ⟨fun p hp => ?_, (State.wrAll_keeps (M := 0x10) (by decide) linkWrites (.refl s.dropHost)).host.get (by decide),
    ((Wrote.refl h).same (u := s.dropHost) rfl).trans hwrote⟩
  have hwidth : ∀ p ∈ linkRegs, p.1.reset % 2 ^ p.1.width = p.1.reset := by decide
  exact (State.rd_wrAll_keys linkRegs linkWrites_regs (by decide) hdrop _ (List.mem_map_of_mem hp)).trans (hwidth p hp)

/-- What a link reset leaves of the host interface at its reset values (R472). -/
abbrev quietRegs : List (Field × Nat) := quietFields.map (fun f => (f, 0)) ++ portRegs

/-- A link reset, further writes `l` of registers, and then the event. -/
theorem State.hostReset_raise (fs : List Field) {s : State} {l : List (Field × Nat × Nat)} (hs : tabWf 0 s.regs = true)
    (hfs : l.map (·.1) = fs) (hunits : ∀ x ∈ l, x.2.1 < 8192) (hfree : fieldsFree fs = true)
    (hquiet : quietRegs.all (fun q => fs.all (fun f => f.place != q.1.place)) = true) (n : Nat) :
    let t := (s.hostReset.wrAll l).raise 0x000 0 n
    (∀ p ∈ quietRegs, t.rd p.1 p.2 = p.1.reset) ∧ t.host = s.dropHost.host ∧ Only [.regs, .evq, .host] s t ∧ Reports s t 0x000 0 n
      ∧ Wrote (writtenRegs l ++ (linkRegs ++ eventRegs)) s t ∧ ∀ x ∈ l, t.rd x.1 x.2.1 = x.2.2 % 2 ^ x.1.width := by
  intro t
  obtain ⟨hreset, hhost, hwrote⟩ := State.hostReset_effect hs
  have hkept : Keeps 0x410 s s.hostReset := State.hostReset_keeps (by decide) (.refl s)
  have hlater : Keeps 0x110 s.hostReset t :=
    State.raise_unheard (by decide) (by decide) (by decide) 0 n (State.wrAll_keeps (by decide) l (.refl _))
  obtain ⟨-, -, hread⟩ := State.raise_after fs (l := l) (u := s.hostReset.wrAll l) (code := 0x000) hfs hfree hwrote.wf hunits rfl
    ((State.wrAll_keeps (M := 0x10) (by decide) l (.refl _)).evq.get (by decide))
    (congrArg Epo.k ((State.wrAll_keeps (M := 0x10) (by decide) l (.refl s.hostReset)).epo.get (by decide)))
    ((State.wrAll_keeps (M := 0x10) (by decide) l (.refl _)).clk.get (by decide)) (by decide) 0 n
  have hall : Wrote (writtenRegs l ++ (linkRegs ++ eventRegs)) s (s.hostReset.wrAll l) :=
    (hwrote.mono fun p hp => List.mem_append_right _ (List.mem_append_left _ hp)).wrAll fun p hp => List.mem_append_left _ hp
  have hupto : Keeps 0x410 s (s.hostReset.wrAll l) := State.wrAll_keeps (by decide) l hkept
  have hplaces : ∀ x ∈ l, x.1 ∈ fs := fun x hx => hfs ▸ List.mem_map_of_mem hx
  have hmask : Apart Reg.EPO_EV_MASK.range_en 0 (writtenRegs l ++ (linkRegs ++ eventRegs)) := by
    obtain ⟨-, hevents⟩ := Bool.and_eq_true_iff.mp hfree
    refine (apart_written hunits (by decide) fun x hx => ?_).append ⟨by decide, by decide, by decide⟩
    exact bne_iff_ne.mp (Bool.and_eq_true_iff.mp (List.all_eq_true.mp hevents x.1 (hplaces x hx))).2
  refine ⟨fun p hp => ?_, (hlater.host.get (by decide)).trans hhost,
    ((hkept.mono (M := 0x510) (by decide)).trans (hlater.mono (by decide))).only (by decide),
    hall.reports 0 n (by decide) hmask (hupto.evq.get (by decide)) (congrArg Epo.k (hupto.epo.get (by decide))) (hupto.clk.get (by decide)),
    hall.raise _ _ _ (fun p hp => List.mem_append_right _ (List.mem_append_right _ hp)), hread⟩
  have hunit : ∀ p ∈ quietRegs, p.2 < 8192 ∧ eventRegs.all (fun q => q.1.place != p.1.place) = true ∧ p ∈ linkRegs := by decide
  obtain ⟨hp2, hevents, hlink⟩ := hunit p hp
  have hapart : Apart p.1 p.2 (writtenRegs l) :=
    apart_written hunits hp2 fun x hx => bne_iff_ne.mp (List.all_eq_true.mp (List.all_eq_true.mp hquiet p hp) x.1 (hplaces x hx))
  calc t.rd p.1 p.2 = (s.hostReset.wrAll l).rd p.1 p.2 := State.rd_raise hall.wf _ _ _ (apart_eventRegs _ hp2 hevents).notMem
    _ = s.hostReset.rd p.1 p.2 := (State.wrAll_wrote hwrote.wf l).rd hapart
    _ = p.1.reset := hreset p hlink

/-! ### Pending vectors (R473, R479) -/

/-- One pending vector is sent while it may be. -/
def State.flushOne (s : State) (v : Nat) : State :=
  if tabGet false s.host.pba v && !(tabGet Msix.reset s.host.msix v).masked && s.mayRequest then
    State.sendVector { s with host := { s.host with pba := tabSet false s.host.pba v false } } v
  else s

theorem State.flushVectors_eq (s : State) : s.flushVectors = (List.range 64).foldl State.flushOne s := rfl

theorem State.mayRequest_congr {s t : State} (h : t.regs = s.regs) : t.mayRequest = s.mayRequest := by
  unfold State.mayRequest State.inD3Hot State.flag State.rd
  rw [h]

/-- What a vector that may be sent does: it leaves. -/
theorem State.sendVector_free {s : State} {v : Nat} (hmask : (tabGet Msix.reset s.host.msix v).masked = false) (hfree : s.mayRequest = true) :
    s.sendVector v = { s with wire := s.wire ++ [.msix v] } := by
  obtain ⟨hoff, hd3⟩ := Bool.and_eq_true_iff.mp hfree
  unfold State.inD3Hot at hd3
  unfold State.sendVector
  rw [if_neg]
  rw [hmask, (Bool.not_eq_true' _).mp hoff, (Bool.not_eq_true' _).mp hd3]
  exact Bool.false_ne_true

/-- One that may not be sent stays pending. -/
theorem State.sendVector_held {s : State} {v : Nat} (h : (tabGet Msix.reset s.host.msix v).masked = true ∨ ¬ s.mayRequest = true) :
    s.sendVector v = { s with host := { s.host with pba := tabSet false s.host.pba v true } } := by
  unfold State.sendVector
  rw [if_pos]
  unfold State.mayRequest State.inD3Hot at h
  revert h
  cases (tabGet Msix.reset s.host.msix v).masked <;> cases s.flag Reg.GLB_STAT.master_off 0 <;> cases s.flag Reg.GLB_STAT.d3 0 <;> simp

/-- The state that the loop over the pending vectors keeps, and that requests may be made. -/
def FlushKept (s t : State) : Prop :=
  t.regs = s.regs ∧ t.host.msix = s.host.msix ∧ t.host.mem = s.host.mem ∧ tabWf false t.host.pba = true

theorem State.flushOne_effect {s t : State} (h : FlushKept s t) (v : Nat) :
    FlushKept s (t.flushOne v)
      ∧ (s.mayRequest = true → (tabGet Msix.reset s.host.msix v).masked = false → tabGet false (t.flushOne v).host.pba v = false)
      ∧ ∀ n, tabGet false t.host.pba n = false → tabGet false (t.flushOne v).host.pba n = false := by
  obtain ⟨hregs, hmsix, hmem, hpba⟩ := h
  have hmay : t.mayRequest = s.mayRequest := State.mayRequest_congr hregs
  unfold State.flushOne
  rw [hmay, hmsix]
  by_cases hgo : (tabGet false t.host.pba v && !(tabGet Msix.reset s.host.msix v).masked && s.mayRequest) = true
  · obtain ⟨hpend, hfree⟩ := Bool.and_eq_true_iff.mp hgo
    have hmask := (Bool.not_eq_true' _).mp (Bool.and_eq_true_iff.mp hpend).2
    rw [← hmsix] at hmask
    rw [if_pos hgo, State.sendVector_free (s := { t with host := { t.host with pba := tabSet false t.host.pba v false } }) hmask (hmay.trans hfree)]
    refine ⟨⟨hregs, hmsix, hmem, tabWf_tabSet hpba⟩, fun _ _ => (tabGet_tabSet hpba).trans (if_pos rfl), fun n hn => ?_⟩
    refine (tabGet_tabSet hpba).trans ?_
    split
    · rfl
    · exact hn
  · rw [if_neg hgo]
    refine ⟨⟨hregs, hmsix, hmem, hpba⟩, fun hfree hmask => ?_, fun n hn => hn⟩
    rw [hmask, hfree] at hgo
    simpa using hgo

/-- With requests allowed, no unmasked vector stays pending. -/
theorem State.flushVectors_effect {s : State} (h : VectorsOk s.host) :
    s.flushVectors.host.msix = s.host.msix ∧ s.flushVectors.host.mem = s.host.mem ∧ (s.mayRequest = true →
      ∀ v, v < 64 → (tabGet Msix.reset s.host.msix v).masked = false → tabGet false s.flushVectors.host.pba v = false) := by
  obtain ⟨hkept, hall, -⟩ := foldl_establishes (f := State.flushOne) (Q := FlushKept s) (P := fun t n => tabGet false t.host.pba n = false)
    (K := fun v n => n = v ∧ s.mayRequest = true ∧ (tabGet Msix.reset s.host.msix v).masked = false)
    (fun t v ht => by
      obtain ⟨hnext, hsent, hothers⟩ := State.flushOne_effect ht v
      refine ⟨hnext, ?_, hothers⟩
      rintro n ⟨rfl, hfree, hmask⟩
      exact hsent hfree hmask)
    (List.range 64) (s := s) ⟨rfl, rfl, rfl, h.2⟩
  rw [← State.flushVectors_eq] at hkept hall
  exact ⟨hkept.2.1, hkept.2.2.1, fun hfree v hv hmask => hall v (List.mem_range.mpr hv) v ⟨rfl, hfree, hmask⟩⟩

/-- Vector v is sent on the way from s to t if it may be, and pending there otherwise. -/
def VectorSent (s t : State) (v : Nat) : Prop :=
  ((tabGet Msix.reset s.host.msix v).masked = false → s.mayRequest = true → t.wire = s.wire ++ [.msix v])
    ∧ ((tabGet Msix.reset s.host.msix v).masked = true ∨ ¬ s.mayRequest = true → t.wire = s.wire ∧ tabGet false t.host.pba v = true)

theorem State.sendVector_effect {s : State} (h : tabWf false s.host.pba = true) (v : Nat) :
    VectorSent s (s.sendVector v) v ∧ (∀ n, n ≠ v → tabGet false (s.sendVector v).host.pba n = tabGet false s.host.pba n)
      ∧ (s.sendVector v).host.msix = s.host.msix ∧ (s.sendVector v).host.mem = s.host.mem := by
  by_cases hgo : (tabGet Msix.reset s.host.msix v).masked = false ∧ s.mayRequest = true
  · rw [State.sendVector_free hgo.1 hgo.2]
    refine ⟨⟨fun _ _ => rfl, fun hheld => ?_⟩, fun _ _ => rfl, rfl, rfl⟩
    rcases hheld with hmask | hoff
    · exact absurd (hgo.1.symm.trans hmask) Bool.false_ne_true
    · exact absurd hgo.2 hoff
  · have hheld : (tabGet Msix.reset s.host.msix v).masked = true ∨ ¬ s.mayRequest = true := by
      rcases not_and_or.mp hgo with hmask | hoff
      · exact .inl (Bool.not_eq_false _ ▸ hmask)
      · exact .inr hoff
    rw [State.sendVector_held hheld]
    exact ⟨⟨fun hmask hfree => absurd ⟨hmask, hfree⟩ hgo, fun _ => ⟨rfl, (tabGet_tabSet h).trans (if_pos rfl)⟩⟩,
      fun n hn => (tabGet_tabSet h).trans (if_neg hn), rfl, rfl⟩

/-- The cause of vector 0 is latched. -/
def State.latchVector (s : State) : State := s.setBit Reg.GLB_IRQ_STAT0.cause 0 0 true

theorem State.ringVector_zero (s : State) : s.ringVector 0
    = { (if s.latchVector.vectorEnabled 0 then s.latchVector.sendVector 0 else s.latchVector) with evq := { s.evq with written := 0 } } := by
  unfold State.ringVector State.signal
  rfl

/-- VECTOR0_TIMEOUT (R482) in the cycle that it names. -/
theorem State.ringVector_effect {s : State} (hs : Sound s) :
    let t := s.ringVector 0
    t.evq = { s.evq with written := 0 } ∧ t.bitAt Reg.GLB_IRQ_STAT0.cause 0 0 = true ∧ t.clk = s.clk
      ∧ (s.bitAt Reg.GLB_IRQ_EN0.en 0 0 = true → VectorSent s t 0) ∧ (s.bitAt Reg.GLB_IRQ_EN0.en 0 0 = false → t.wire = s.wire)
      ∧ RegsBut [(Reg.GLB_IRQ_STAT0.cause, 0)] s t := by
  intro t
  have hlatch : Wrote [(Reg.GLB_IRQ_STAT0.cause, 0)] s s.latchVector := (Wrote.refl hs.regs).setBit _ _ List.mem_cons_self
  have hbit : s.latchVector.bitAt Reg.GLB_IRQ_STAT0.cause 0 0 = true := State.bitAt_setBit hs.regs _ _ (by decide) _
  have henabled : s.latchVector.vectorEnabled 0 = s.bitAt Reg.GLB_IRQ_EN0.en 0 0 := by
    unfold State.vectorEnabled State.bitAt
    rw [if_pos (by decide), hlatch.rd ⟨by decide, by decide, by decide⟩]
  have hmay : s.latchVector.mayRequest = s.mayRequest := by
    unfold State.mayRequest State.inD3Hot State.flag
    rw [hlatch.rd ⟨by decide, by decide, by decide⟩, hlatch.rd ⟨by decide, by decide, by decide⟩]
  have ht : t = _ := State.ringVector_zero s
  rw [henabled] at ht
  rw [ht]
  by_cases hen : s.bitAt Reg.GLB_IRQ_EN0.en 0 0 = true
  · rw [if_pos hen]
    have hkeeps : Keeps 0x402 s.latchVector (s.latchVector.sendVector 0) := State.sendVector_keeps (by decide) (.refl _)
    obtain ⟨hsent, -, -, -⟩ := State.sendVector_effect (s := s.latchVector) hs.vectors.2 0
    unfold VectorSent at hsent
    rw [hmay] at hsent
    have hregs := hkeeps.regs.get (by decide)
    refine ⟨rfl, (State.bitAt_congr hregs _ _ _).trans hbit, hkeeps.clk.get (by decide), fun _ => hsent, fun hoff => ?_,
      (hlatch.same hregs).but⟩
    exact absurd (hen.symm.trans hoff) Bool.false_ne_true.symm
  · rw [if_neg hen]
    exact ⟨rfl, hbit, rfl, fun hon => absurd hon hen, fun _ => rfl, (hlatch.same rfl).but⟩

/-! ### The commands -/

theorem exec_vector0Timeout {s : State} (h : s.evq.written ≠ 0) :
    exec .vector0Timeout s = .next ((s.reachCycle (s.evq.oldest + s.rd Reg.GLB_EVQ_MOD.time 0 * 400)).ringVector 0) := by
  change execVector0Timeout s = _
  unfold execVector0Timeout
  rw [if_neg h]

theorem exec_vector0Timeout_none {s : State} (h : s.evq.written = 0) : exec .vector0Timeout s = .next s := by
  change execVector0Timeout s = _
  unfold execVector0Timeout
  rw [if_pos h]

theorem exec_msixUnmask {s : State} (hup : HostUp s) (v : Fin 64) : exec (.msixUnmask v) s = .next (s.unmask v) := by
  change execMsixUnmask v s = _
  unfold execMsixUnmask
  rw [byHost_up hup]

theorem exec_irqTest {s : State} (hup : HostUp s) {v : Fin 64} (hen : s.vectorEnabled v = true) (hv : ¬ (13 ≤ v.val ∧ v.val ≤ 15)) :
    exec (.irqTest v) s = .next (s.sendVector v) := by
  change execIrqTest v s = _
  unfold execIrqTest
  rw [byHost_up hup, if_pos ⟨hen, hv⟩]

theorem exec_irqTest_none {s : State} {v : Fin 64} (h : s.vectorEnabled v = false ∨ (13 ≤ v.val ∧ v.val ≤ 15)) :
    exec (.irqTest v) s = .next s := by
  change execIrqTest v s = _
  have hno : ¬ (s.vectorEnabled v = true ∧ ¬ (13 ≤ v.val ∧ v.val ≤ 15)) := by
    rintro ⟨hen, hv⟩
    rcases h with hoff | hnever
    · exact Bool.false_ne_true (hoff.symm.trans hen)
    · exact hv hnever
  unfold execIrqTest byHost
  dsimp only
  rw [if_neg hno, ite_self]

/-- A pending vector leaves when it is unmasked and requests may be made. -/
theorem State.unmask_effect {s : State} (h : VectorsOk s.host) (v : Nat) :
    let t := s.unmask v
    tabGet Msix.reset t.host.msix v = { tabGet Msix.reset s.host.msix v with masked := false }
      ∧ (∀ n, n ≠ v → tabGet Msix.reset t.host.msix n = tabGet Msix.reset s.host.msix n
        ∧ tabGet false t.host.pba n = tabGet false s.host.pba n)
      ∧ (tabGet false s.host.pba v = true → s.mayRequest = true → t.wire = s.wire ++ [.msix v] ∧ tabGet false t.host.pba v = false)
      ∧ (tabGet false s.host.pba v = false ∨ ¬ s.mayRequest = true → t.wire = s.wire ∧ tabGet false t.host.pba v = tabGet false s.host.pba v)
      ∧ t.host.mem = s.host.mem := by
  intro t
  have hmsix : ∀ n, tabGet Msix.reset (tabMod Msix.reset s.host.msix v (fun e => { e with masked := false })) n
      = if n = v then { tabGet Msix.reset s.host.msix v with masked := false } else tabGet Msix.reset s.host.msix n :=
    fun n => tabGet_tabSet h.1
  by_cases hpend : tabGet false s.host.pba v = true
  · let u : State := { s with host := { s.host with
      msix := tabMod Msix.reset s.host.msix v (fun e => { e with masked := false }), pba := tabSet false s.host.pba v false } }
    have ht : t = u.sendVector v := if_pos hpend
    have hpba : tabWf false u.host.pba = true := tabWf_tabSet h.2
    obtain ⟨⟨hsent, hheld⟩, hothers, htable, hmem⟩ := State.sendVector_effect hpba v
    have hunmasked : (tabGet Msix.reset u.host.msix v).masked = false := by rw [hmsix, if_pos rfl]
    have hown : tabGet false u.host.pba v = false := (tabGet_tabSet h.2).trans (if_pos rfl)
    rw [ht, htable]
    refine ⟨(hmsix v).trans (if_pos rfl), fun n hn => ⟨(hmsix n).trans (if_neg hn), (hothers n hn).trans ((tabGet_tabSet h.2).trans (if_neg hn))⟩,
      fun _ hfree => ⟨hsent hunmasked hfree, ?_⟩, fun hno => ?_, hmem⟩
    · rw [State.sendVector_free hunmasked hfree]
      exact hown
    · rcases hno with hclear | hoff
      · exact absurd (hpend.symm.trans hclear) Bool.false_ne_true.symm
      · obtain ⟨hwire, hstill⟩ := hheld (.inr hoff)
        exact ⟨hwire, hstill.trans hpend.symm⟩
  · have ht : t = { s with host := { s.host with msix := tabMod Msix.reset s.host.msix v (fun e => { e with masked := false }) } } := if_neg hpend
    rw [ht]
    exact ⟨(hmsix v).trans (if_pos rfl), fun n hn => ⟨(hmsix n).trans (if_neg hn), rfl⟩, fun hset => absurd hset hpend, fun _ => ⟨rfl, rfl⟩, rfl⟩

/-- The registers that a lost link writes behind the reset of the host interface. -/
def State.downWrites (s : State) : List (Field × Nat × Nat) :=
  [(Reg.GLB_LINK_CNT.downs, 0, min (s.hostReset.rd Reg.GLB_LINK_CNT.downs 0 + 1) (2 ^ 16 - 1)), (Reg.GLB_LINK_STAT.speed, 0, 0),
   (Reg.GLB_LINK_STAT.width, 0, 0)]

/-- Those that a function level reset writes. -/
def State.flrWrites (s : State) : List (Field × Nat × Nat) :=
  [(Reg.GLB_LINK_CNT.flr, 0, min (s.hostReset.rd Reg.GLB_LINK_CNT.flr 0 + 1) (2 ^ 16 - 1)), (Reg.GLB_SCRATCH0.data, 0, 0),
   (Reg.GLB_SCRATCH1.data, 0, 0)]

theorem exec_linkDown {s : State} {cause : LinkCause} (h : cause ≠ .flr) :
    exec (.linkDown cause) s = .next ((s.hostReset.wrAll s.downWrites).raise 0x000 0 (linkCauseCode cause)) := by
  change execLinkDown cause s = _
  unfold execLinkDown
  dsimp only
  rw [if_neg h]
  rfl

theorem exec_linkDown_flr (s : State) : exec (.linkDown .flr) s = .next ((s.hostReset.wrAll s.flrWrites).raise 0x000 0 4) := rfl

/-- The fields that `cleared` of the statement names, with the reset values that a link reset gives them, and the vectors, latch and answer. -/
theorem State.hostReset_restored {s t : State} (hq : ∀ p ∈ quietRegs, t.rd p.1 p.2 = p.1.reset) (hhost : t.host = s.dropHost.host)
    (honly : Only [.regs, .evq, .host] s t) :
    (∀ f ∈ quietFields, t.rd f 0 = f.reset) ∧ (∀ p, p < 2 → t.rd Reg.ETH_CTRL.rx_en p = 0 ∧ t.rd Reg.ETH_CTRL.tx_en p = 0)
      ∧ t.host.msix = [] ∧ t.host.pba = [] ∧ t.host.latch = [] ∧ t.host.mem = s.host.mem ∧ Only [.regs, .evq, .host] s t := by
  refine ⟨fun f hf => hq (f, 0) (List.mem_append_left _ (List.mem_map_of_mem hf)), fun p hp => ?_, by rw [hhost]; rfl, by rw [hhost]; rfl,
    by rw [hhost]; rfl, by rw [hhost]; rfl, honly⟩
  interval_cases p
  · exact ⟨hq (Reg.ETH_CTRL.rx_en, 0) (by decide), hq (Reg.ETH_CTRL.tx_en, 0) (by decide)⟩
  · exact ⟨hq (Reg.ETH_CTRL.rx_en, 1) (by decide), hq (Reg.ETH_CTRL.tx_en, 1) (by decide)⟩

/-- A counter of 16 bits that a link reset leaves, as it is written. -/
theorem State.linkCount {s : State} (h : tabWf 0 s.regs = true) {f : Field} (hf : linkRegs.all (fun p => p.1.place != f.place) = true)
    (hw : f.width = 16) : min (s.hostReset.rd f 0 + 1) (2 ^ 16 - 1) % 2 ^ f.width = min (s.rd f 0 + 1) (2 ^ f.width - 1) := by
  obtain ⟨-, -, hwrote⟩ := State.hostReset_effect h
  rw [hwrote.rd ⟨hf, by decide, by decide⟩, hw]
  exact Nat.mod_eq_of_lt (by omega)

/-- What a lost link may change. -/
abbrev downRegs : List (Field × Nat) :=
  [(Reg.ETH_CTRL.rx_en, 0), (Reg.ETH_CTRL.rx_en, 1), (Reg.ETH_CTRL.tx_en, 0), (Reg.ETH_CTRL.tx_en, 1),
   (Reg.GLB_LINK_CNT.downs, 0), (Reg.GLB_LINK_STAT.speed, 0), (Reg.GLB_LINK_STAT.width, 0)] ++ quietFields.map (fun f => (f, 0)) ++ eventRegs

theorem linkRegs_down : ∀ p ∈ linkRegs ++ eventRegs, p ∈ downRegs := by decide

theorem State.linkDown_effect {s : State} (hs : tabWf 0 s.regs = true) (n : Nat) :
    let t := (s.hostReset.wrAll s.downWrites).raise 0x000 0 n
    ((∀ f ∈ quietFields, t.rd f 0 = f.reset) ∧ (∀ p, p < 2 → t.rd Reg.ETH_CTRL.rx_en p = 0 ∧ t.rd Reg.ETH_CTRL.tx_en p = 0)
      ∧ t.host.msix = [] ∧ t.host.pba = [] ∧ t.host.latch = [] ∧ t.host.mem = s.host.mem ∧ Only [.regs, .evq, .host] s t)
      ∧ t.rd Reg.GLB_LINK_CNT.downs 0 = min (s.rd Reg.GLB_LINK_CNT.downs 0 + 1) (2 ^ Reg.GLB_LINK_CNT.downs.width - 1)
      ∧ t.rd Reg.GLB_LINK_STAT.speed 0 = 0 ∧ t.rd Reg.GLB_LINK_STAT.width 0 = 0 ∧ Reports s t 0x000 0 n ∧ RegsBut downRegs s t := by
  intro t
  have hunits : ∀ x ∈ s.downWrites, x.2.1 < 8192 := by simp [State.downWrites]
  obtain ⟨hq, hhost, honly, hreports, hwrote, hread⟩ := State.hostReset_raise
    [Reg.GLB_LINK_CNT.downs, Reg.GLB_LINK_STAT.speed, Reg.GLB_LINK_STAT.width] (l := s.downWrites) hs rfl hunits (by decide) (by decide) n
  have hdowns := hread (Reg.GLB_LINK_CNT.downs, 0, min (s.hostReset.rd Reg.GLB_LINK_CNT.downs 0 + 1) (2 ^ 16 - 1)) List.mem_cons_self
  have hspeed := hread (Reg.GLB_LINK_STAT.speed, 0, 0) (List.mem_cons_of_mem _ List.mem_cons_self)
  have hwidth := hread (Reg.GLB_LINK_STAT.width, 0, 0) (List.mem_cons_of_mem _ (List.mem_cons_of_mem _ List.mem_cons_self))
  have hown : ∀ p ∈ [(Reg.GLB_LINK_CNT.downs, 0), (Reg.GLB_LINK_STAT.speed, 0), (Reg.GLB_LINK_STAT.width, 0)], p ∈ downRegs := by decide
  have hlist : ∀ p ∈ [(Reg.GLB_LINK_CNT.downs, 0), (Reg.GLB_LINK_STAT.speed, 0), (Reg.GLB_LINK_STAT.width, 0)] ++ (linkRegs ++ eventRegs),
      p ∈ downRegs := fun p hp => (List.mem_append.mp hp).elim (hown p) (linkRegs_down p)
  exact ⟨State.hostReset_restored hq hhost honly, hdowns.trans (State.linkCount hs (by decide) rfl), hspeed, hwidth, hreports,
    (hwrote.mono hlist).but⟩

theorem State.linkDown_flr_effect {s : State} (hs : tabWf 0 s.regs = true) :
    let t := (s.hostReset.wrAll s.flrWrites).raise 0x000 0 4
    ((∀ f ∈ quietFields, t.rd f 0 = f.reset) ∧ (∀ p, p < 2 → t.rd Reg.ETH_CTRL.rx_en p = 0 ∧ t.rd Reg.ETH_CTRL.tx_en p = 0)
      ∧ t.host.msix = [] ∧ t.host.pba = [] ∧ t.host.latch = [] ∧ t.host.mem = s.host.mem ∧ Only [.regs, .evq, .host] s t)
      ∧ t.rd Reg.GLB_LINK_CNT.flr 0 = min (s.rd Reg.GLB_LINK_CNT.flr 0 + 1) (2 ^ Reg.GLB_LINK_CNT.flr.width - 1)
      ∧ t.rd Reg.GLB_SCRATCH0.data 0 = 0 ∧ t.rd Reg.GLB_SCRATCH1.data 0 = 0 ∧ Reports s t 0x000 0 4
      ∧ RegsBut ([(Reg.GLB_LINK_CNT.flr, 0), (Reg.GLB_SCRATCH0.data, 0), (Reg.GLB_SCRATCH1.data, 0)] ++ downRegs) s t := by
  intro t
  have hunits : ∀ x ∈ s.flrWrites, x.2.1 < 8192 := by simp [State.flrWrites]
  obtain ⟨hq, hhost, honly, hreports, hwrote, hread⟩ := State.hostReset_raise
    [Reg.GLB_LINK_CNT.flr, Reg.GLB_SCRATCH0.data, Reg.GLB_SCRATCH1.data] (l := s.flrWrites) hs rfl hunits (by decide) (by decide) 4
  have hflr := hread (Reg.GLB_LINK_CNT.flr, 0, min (s.hostReset.rd Reg.GLB_LINK_CNT.flr 0 + 1) (2 ^ 16 - 1)) List.mem_cons_self
  have hfirst := hread (Reg.GLB_SCRATCH0.data, 0, 0) (List.mem_cons_of_mem _ List.mem_cons_self)
  have hsecond := hread (Reg.GLB_SCRATCH1.data, 0, 0) (List.mem_cons_of_mem _ (List.mem_cons_of_mem _ List.mem_cons_self))
  have hlist : ∀ p ∈ [(Reg.GLB_LINK_CNT.flr, 0), (Reg.GLB_SCRATCH0.data, 0), (Reg.GLB_SCRATCH1.data, 0)] ++ (linkRegs ++ eventRegs),
      p ∈ [(Reg.GLB_LINK_CNT.flr, 0), (Reg.GLB_SCRATCH0.data, 0), (Reg.GLB_SCRATCH1.data, 0)] ++ downRegs :=
    fun p hp => (List.mem_append.mp hp).elim (List.mem_append_left _) (fun h => List.mem_append_right _ (linkRegs_down p h))
  exact ⟨State.hostReset_restored hq hhost honly, hflr.trans (State.linkCount hs (by decide) rfl), hfirst, hsecond, hreports,
    (hwrote.mono hlist).but⟩

/-- Registers `l` are written, an event without a vector is raised, and then vectors that wait are sent if `go`. -/
theorem State.showThenFlush (fs : List Field) {s : State} (hs : Sound s) {l : List (Field × Nat × Nat)} (hfs : l.map (·.1) = fs)
    (hfree : fieldsFree fs = true) (hunits : ∀ x ∈ l, x.2.1 < 8192) {code : Nat} (hc : code ≠ 0x010) (hv : eventVector code = none)
    (inst data : Nat) (go : Bool) :
    let u := (s.wrAll l).raise code inst data
    let t := if go then u.flushVectors else u
    (∀ x ∈ l, t.rd x.1 x.2.1 = x.2.2 % 2 ^ x.1.width) ∧ Reports s t code inst data
      ∧ (go = true → t.mayRequest = true → ∀ v, v < 64 → (tabGet Msix.reset s.host.msix v).masked = false → tabGet false t.host.pba v = false)
      ∧ t.host.msix = s.host.msix ∧ t.host.mem = s.host.mem ∧ Only eventParts s t ∧ RegsBut (writtenRegs l ++ eventRegs) s t := by
  intro u t
  obtain ⟨hreports, hwrote, hread⟩ := State.raise_after fs (l := l) (u := s.wrAll l) (code := code) hfs hfree hs.regs hunits rfl
    ((State.wrAll_keeps (M := 0x10) (by decide) l (.refl _)).evq.get (by decide))
    (congrArg Epo.k ((State.wrAll_keeps (M := 0x10) (by decide) l (.refl s)).epo.get (by decide)))
    ((State.wrAll_keeps (M := 0x10) (by decide) l (.refl _)).clk.get (by decide)) hc inst data
  have hu : Keeps 0x110 s u := State.raise_unheard (by decide) hv hc inst data (State.wrAll_keeps (by decide) l (.refl s))
  have hhost : u.host = s.host := hu.host.get (by decide)
  cases go with
  | false =>
    exact ⟨hread, hreports, fun hgo => absurd hgo Bool.false_ne_true, congrArg HostIf.msix hhost, congrArg HostIf.mem hhost, hu.only (by decide),
      hwrote.but⟩
  | true =>
    have hflush : Keeps 0x402 u u.flushVectors := State.flushVectors_keeps (by decide) (.refl u)
    have hregs : u.flushVectors.regs = u.regs := hflush.regs.get (by decide)
    have hvectors : VectorsOk u.host := (hu.sound hs).vectors
    have ht : t = u.flushVectors := if_pos rfl
    rw [ht]
    obtain ⟨hmsix, hmem, hsent⟩ := State.flushVectors_effect hvectors
    refine ⟨fun x hx => (State.rd_congr hregs _ _).trans (hread x hx), (hflush.evq.get (by decide)).trans hreports, fun _ hmay v hv hmask => ?_,
      hmsix.trans (congrArg HostIf.msix hhost), hmem.trans (congrArg HostIf.mem hhost),
      ((hu.mono (M := 0x512) (by decide)).trans (hflush.mono (by decide))).only (by decide), (hwrote.same hregs).but⟩
    rw [← hhost] at hmask
    exact hsent ((State.mayRequest_congr hregs).symm.trans hmay) v hv hmask

theorem State.mayRequest_of {s : State} (hoff : s.rd Reg.GLB_STAT.master_off 0 = 0) (hd3 : s.rd Reg.GLB_STAT.d3 0 = 0) : s.mayRequest = true := by
  unfold State.mayRequest State.inD3Hot State.flag
  rw [hoff, hd3]
  rfl

theorem exec_masterOff (off : Bool) (s : State) : exec (.masterOff off) s
    = .next (if (!off) = true then ((s.wrAll [(Reg.GLB_STAT.master_off, 0, bit off)]).raise 0x004 0 (bit off)).flushVectors
        else (s.wrAll [(Reg.GLB_STAT.master_off, 0, bit off)]).raise 0x004 0 (bit off)) := by
  change execMasterOff off s = _
  unfold execMasterOff
  dsimp only
  cases off with
  | false =>
    rw [if_neg Bool.false_ne_true, if_pos (c := (!false) = true) rfl]
    rfl
  | true =>
    rw [if_pos rfl, if_neg (by decide)]
    rfl

theorem exec_powerState (d3 : Bool) (s : State) : exec (.powerState d3) s
    = .next (if (!d3) = true then ((s.wrAll [(Reg.GLB_STAT.d3, 0, bit d3), (Reg.GLB_LINK_STAT.dstate, 0, 3 * bit d3)]).raise 0x005 0
          (3 * bit d3)).flushVectors
        else (s.wrAll [(Reg.GLB_STAT.d3, 0, bit d3), (Reg.GLB_LINK_STAT.dstate, 0, 3 * bit d3)]).raise 0x005 0 (3 * bit d3)) := by
  change execPowerState d3 s = _
  unfold execPowerState
  dsimp only
  cases d3 with
  | false =>
    rw [if_neg Bool.false_ne_true, if_pos (c := (!false) = true) rfl, if_neg Bool.false_ne_true]
    rfl
  | true =>
    rw [if_pos rfl, if_pos rfl, if_neg (by decide)]
    rfl

theorem jtagDrives_iff (n : Nat) : jtagDrives n = true ↔ n ∈ [0, 3, 4, 5, 6] := by
  unfold jtagDrives
  simp [or_assoc]

theorem exec_jtagInstruction (code : BitVec 8) (s : State) : exec (.jtagInstruction code) s
    = .next { s with
        wire := s.wire ++ [.jtag s.jtag.capture]
        jtag := if s.running = true ∧ jtagDrives code.toNat = true then ⟨0xFF, 0x3D⟩ else ⟨jtagMeaning code.toNat, 0x01⟩ } := by
  change execJtagInstruction code s = _
  unfold execJtagInstruction
  dsimp only
  by_cases h : s.running = true ∧ jtagDrives code.toNat = true
  · rw [if_pos h]
    exact congrArg Host.Outcome.next (if_pos h)
  · rw [if_neg h]
    exact congrArg Host.Outcome.next (if_neg h)

end Sys2Proof.Machine

namespace Sys2Proof.Proofs

open Sys2Proof Sys2Proof.Machine Sys2Proof.Safety

/-- Settles O60: the link by `State.hostReset_raise` and `State.raise_after`, the vectors by `State.sendVector_effect`,
`State.ringVector_effect`, `State.unmask_effect` and `State.flushVectors_effect`. -/
theorem linkAndVectors : Obligations.LinkAndVectors := by
  intro s hs up pend masked free sent cleared link restored
  refine ⟨fun cause n hcause => ?down, ⟨_, exec_linkDown_flr s, State.linkDown_flr_effect hs.regs⟩, fun speed width => ?up, fun off => ?master,
    fun d3 => ?power, fun hwritten hagain => ?timeout, exec_vector0Timeout_none, fun v hup => ?unmask, fun v hup hen hv => ?test,
    fun v => exec_irqTest_none, fun code => ⟨fun hrun hdrives => ?bypass, fun hfree => ?other⟩, ⟨_, rfl, rfl, ?port⟩⟩
  case down =>
    rcases hcause with ⟨rfl, rfl⟩ | ⟨rfl, rfl⟩ | ⟨rfl, rfl⟩
    · exact ⟨_, exec_linkDown (by decide), State.linkDown_effect hs.regs 1⟩
    · exact ⟨_, exec_linkDown (by decide), State.linkDown_effect hs.regs 2⟩
    · exact ⟨_, exec_linkDown (by decide), State.linkDown_effect hs.regs 3⟩
  case up =>
    obtain ⟨hread, hreports, -, -, -, honly, hregs⟩ := State.showThenFlush [Reg.GLB_LINK_STAT.speed, Reg.GLB_LINK_STAT.width] hs
      (l := [(Reg.GLB_LINK_STAT.speed, 0, speed.val), (Reg.GLB_LINK_STAT.width, 0, width.val)]) rfl (by decide) (by simp) (code := 0x001) (by decide)
      (by decide) 0 (speed + 16 * width) false
    have hspeed := hread (Reg.GLB_LINK_STAT.speed, 0, speed.val) List.mem_cons_self
    have hwidth := hread (Reg.GLB_LINK_STAT.width, 0, width.val) (List.mem_cons_of_mem _ List.mem_cons_self)
    have hfit : ∀ n : Fin 5, n.val % 2 ^ 3 = n.val := by decide
    refine ⟨_, rfl, ?_, ?_, hreports, honly, hregs⟩
    · exact hspeed.trans (Nat.mod_eq_of_lt (Nat.lt_trans speed.isLt (show 5 < 2 ^ 4 by decide)))
    · exact hwidth.trans (Nat.mod_eq_of_lt (Nat.lt_trans width.isLt (show 5 < 2 ^ 5 by decide)))
  case master =>
    obtain ⟨hread, hreports, hflushed, htable, hmem, honly, hregs⟩ := State.showThenFlush [Reg.GLB_STAT.master_off] hs
      (l := [(Reg.GLB_STAT.master_off, 0, bit off)]) rfl (by decide) (by simp) (code := 0x004) (by decide) (by decide) 0 (bit off) (!off)
    have hothers : RegsBut ((Reg.GLB_STAT.master_off, 0) :: eventRegs) s _ := hregs
    have hoff := (hread (Reg.GLB_STAT.master_off, 0, bit off) List.mem_cons_self).trans (Nat.mod_eq_of_lt (by cases off <;> decide))
    refine ⟨_, exec_masterOff off s, hoff, hreports, fun hon hd3 v hv hmask => hflushed (by rw [hon]; rfl) ?_ v hv hmask, htable, hmem, honly, hregs⟩
    refine State.mayRequest_of (hoff.trans (by rw [hon]; rfl)) ((hothers _ _ (by decide)).trans ?_)
    exact bne_eq_false_iff_eq.mp hd3
  case power =>
    obtain ⟨hread, hreports, hflushed, htable, hmem, honly, hregs⟩ := State.showThenFlush [Reg.GLB_STAT.d3, Reg.GLB_LINK_STAT.dstate] hs
      (l := [(Reg.GLB_STAT.d3, 0, bit d3), (Reg.GLB_LINK_STAT.dstate, 0, 3 * bit d3)]) rfl (by decide) (by simp) (code := 0x005) (by decide)
      (by decide) 0 (3 * bit d3) (!d3)
    have hothers : RegsBut ([(Reg.GLB_STAT.d3, 0), (Reg.GLB_LINK_STAT.dstate, 0)] ++ eventRegs) s _ := hregs
    have hstate := (hread (Reg.GLB_STAT.d3, 0, bit d3) List.mem_cons_self).trans (Nat.mod_eq_of_lt (by cases d3 <;> decide))
    have hshown := (hread (Reg.GLB_LINK_STAT.dstate, 0, 3 * bit d3) (List.mem_cons_of_mem _ List.mem_cons_self)).trans
      (Nat.mod_eq_of_lt (by cases d3 <;> decide))
    refine ⟨_, exec_powerState d3 s, hstate, hshown, hreports, fun hon hoff v hv hmask => hflushed (by rw [hon]; rfl) ?_ v hv hmask, htable,
      hmem, honly, hregs⟩
    refine State.mayRequest_of ((hothers _ _ (by decide)).trans ?_) (hstate.trans (by rw [hon]; rfl))
    exact bne_eq_false_iff_eq.mp hoff
  case timeout =>
    have hexec := exec_vector0Timeout hwritten
    have hidle := State.reachCycle_idle hagain (s.evq.oldest + s.rd Reg.GLB_EVQ_MOD.time 0 * 400)
    have hreach : Keeps 0x9005b2 s (s.reachCycle (s.evq.oldest + s.rd Reg.GLB_EVQ_MOD.time 0 * 400)) := State.reachCycle_keeps (by decide) (.refl s)
    generalize s.reachCycle _ = u at hexec hidle hreach
    generalize Clk.mk _ _ _ _ _ _ _ _ _ _ _ _ = c at hidle
    subst hidle
    obtain ⟨hevq, hbit, hclk, hsent, hquiet, hregs⟩ := State.ringVector_effect (hreach.sound hs)
    have hring : Keeps 0x512 { s with clk := c } (State.ringVector { s with clk := c } 0) := State.ringVector_keeps (by decide) (.refl _)
    refine ⟨_, hexec, hclk, hevq, hbit, hsent, hquiet, ?_, hregs⟩
    exact only_trans (only_mono (by simp) (State.only_clk s c)) (only_mono (fun _ => List.mem_cons_of_mem _) (hring.only (l := eventParts) (by decide)))
  case unmask => 
    obtain ⟨htable, hothers, hpending, hquiet, hmem⟩ := State.unmask_effect hs.vectors v
    exact ⟨_, exec_msixUnmask hup v, htable, hothers, hpending, hquiet, hmem, (State.unmask_keeps (M := 0x402) (by decide) (.refl s)).only (by decide)⟩
  case test =>
    obtain ⟨hsent, hothers, htable, hmem⟩ := State.sendVector_effect hs.vectors.2 v
    exact ⟨_, exec_irqTest hup hen hv, hsent, hothers, htable, hmem, (State.sendVector_keeps (M := 0x402) (by decide) (.refl s)).only (by decide)⟩
  case bypass =>
    refine ⟨_, exec_jtagInstruction code s, if_pos ⟨hrun, (jtagDrives_iff _).mpr hdrives⟩, rfl, ?_⟩
    exact Keeps.only (M := 0x2002) (.upd (.refl s)) (by decide)
  case other =>
    refine ⟨_, exec_jtagInstruction code s, if_neg ?_, rfl, ?_⟩
    · rintro ⟨hrun, hdrives⟩
      rcases hfree with hstopped | hno
      · exact Bool.false_ne_true (hstopped.symm.trans hrun)
      · exact hno ((jtagDrives_iff _).mp hdrives)
    · exact Keeps.only (M := 0x2002) (.upd (.refl s)) (by decide)
  case port => exact Keeps.only (M := 0x2000) (.upd (.refl s)) (by decide)

end Sys2Proof.Proofs

/-! ## Key slots and flash (R434, R436, R446) -/

namespace Sys2Proof.Machine

open Sys2Proof.Safety

/-- The configuration block alone. -/
theorem State.only_cfg (s : State) (f : Cfg → Cfg) : Only [.cfg] s (s.modCfg f) := by
  intro p hp
  cases p with
  | cfg => exact absurd List.mem_cons_self hp
  | _ => rfl

/-- Registers that are written behind a change of the configuration block. -/
theorem State.modCfg_wrAll {s : State} (hs : tabWf 0 s.regs = true) (f : Cfg → Cfg) (l : List (Field × Nat × Nat)) :
    ((s.modCfg f).wrAll l).cfg = f s.cfg ∧ Only [.regs, .cfg] s ((s.modCfg f).wrAll l) ∧ Wrote (writtenRegs l) s ((s.modCfg f).wrAll l) := by
  have hregs : tabWf 0 (s.modCfg f).regs = true := hs
  have hkeeps : Keeps 0x10 (s.modCfg f) ((s.modCfg f).wrAll l) := State.wrAll_keeps (by decide) l (.refl _)
  exact ⟨hkeeps.cfg.get (by decide), only_trans (only_mono (by simp) (State.only_cfg s f)) (hkeeps.only (by decide)),
    ((Wrote.refl hs).same (u := s.modCfg f) rfl).trans (State.wrAll_wrote hregs l)⟩

theorem State.keySlot_setKey {s : State} (h : tabWf KeySlot.blank s.cfg.keys = true) (n : Nat) (k : KeySlot) (m : Nat) :
    (s.setKey n k).keySlot m = if m = n then k else s.keySlot m := tabGet_tabSet h

theorem State.keySlot_congr {s t : State} (h : t.cfg.keys = s.cfg.keys) (n : Nat) : t.keySlot n = s.keySlot n := by
  unfold State.keySlot
  rw [h]

/-! ### Key slots -/

/-- The fields of CFG_KEY_CTRL that a command shows, and an event. -/
abbrev keyRegs : List (Field × Nat) := [(Reg.CFG_KEY_CTRL.slot, 0), (Reg.CFG_KEY_CTRL.status, 0), (Reg.CFG_KEY_CTRL.index, 0)] ++ eventRegs

theorem exec_keyDataWrite {s : State} (hup : HostUp s) (v : Nat) (h : s.cfg.words.length < 12) : exec (.keyDataWrite v) s
    = .next ((s.modCfg (fun c => { c with words := c.words ++ [v % 2 ^ 32] })).wrAll [(Reg.CFG_KEY_CTRL.index, 0, s.cfg.words.length + 1)]) := by
  change execKeyDataWrite v s = _
  unfold execKeyDataWrite
  rw [byHost_up hup, if_neg (Nat.not_le.mpr h)]
  rfl

section Slot

variable {s : State} {n : Fin 8}

/-- A key is taken into a slot. -/
def State.takeKey (s : State) (n : Nat) : State :=
  let h := wordLE (s.cfg.words.flatMap (bytesLE 4))
  let s := (s.setKey n { s.keySlot n with hash := some h }).modCfg (fun c => { c with words := [] })
  ((s.wr Reg.CFG_KEY_CTRL.index 0 0).wr Reg.CFG_KEY_CTRL.status 0 1).raise 0x807 0 n

theorem exec_keyProgram_taken (hup : HostUp s) (hn : n.val ≤ 5) (hfree : (s.keySlot n).hash = none) (hwords : s.cfg.words.length = 12) :
    exec (.keyProgram n) s = .next ((s.wr Reg.CFG_KEY_CTRL.slot 0 n).takeKey n) := by
  change execKeyProgram n s = _
  unfold execKeyProgram State.onSlot
  rw [byHost_up hup, if_neg (Nat.not_lt.mpr hn)]
  dsimp only
  have hslot : (s.wr Reg.CFG_KEY_CTRL.slot 0 n).keySlot n = s.keySlot n := rfl
  have hlen : ¬ (s.wr Reg.CFG_KEY_CTRL.slot 0 n).cfg.words.length < 12 := fun h => absurd hwords (Nat.ne_of_lt h)
  rw [if_neg (show ¬ ((s.wr Reg.CFG_KEY_CTRL.slot 0 n).keySlot n).hash.isSome = true by rw [hslot, hfree]; simp), if_neg hlen]
  rfl

theorem exec_keyProgram_used (hup : HostUp s) (hn : n.val ≤ 5) {h : Nat} (hused : (s.keySlot n).hash = some h) :
    exec (.keyProgram n) s = .next (s.wrAll [(Reg.CFG_KEY_CTRL.slot, 0, n.val), (Reg.CFG_KEY_CTRL.status, 0, 2)]) := by
  change execKeyProgram n s = _
  unfold execKeyProgram State.onSlot
  have hslot : (s.wr Reg.CFG_KEY_CTRL.slot 0 n).keySlot n = s.keySlot n := rfl
  rw [byHost_up hup, if_neg (Nat.not_lt.mpr hn)]
  dsimp only
  rw [hslot, hused, if_pos (by simp)]
  rfl

theorem exec_keyProgram_few (hup : HostUp s) (hn : n.val ≤ 5) (hfree : (s.keySlot n).hash = none) (hwords : s.cfg.words.length < 12) :
    exec (.keyProgram n) s = .next (s.wrAll [(Reg.CFG_KEY_CTRL.slot, 0, n.val), (Reg.CFG_KEY_CTRL.status, 0, 3)]) := by
  change execKeyProgram n s = _
  unfold execKeyProgram State.onSlot
  have hslot : (s.wr Reg.CFG_KEY_CTRL.slot 0 n).keySlot n = s.keySlot n := rfl
  rw [byHost_up hup, if_neg (Nat.not_lt.mpr hn)]
  dsimp only
  rw [hslot, hfree, if_neg (by simp), if_pos (show (s.wr Reg.CFG_KEY_CTRL.slot 0 n).cfg.words.length < 12 from hwords)]
  rfl

/-- Another usable slot of the same use remains (R434). -/
def State.peerLeft (s : State) (n : Nat) : Bool :=
  (if n < 4 then [0, 1, 2, 3] else [4, 5]).any (fun m => m != n && (s.keySlot m).hash.isSome && !(s.keySlot m).revoked)

theorem State.peerLeft_iff (s : State) (n : Nat) :
    s.peerLeft n = true ↔ ∃ m h, m ≠ n ∧ (if n < 4 then m < 4 else m = 4 ∨ m = 5) ∧ s.keySlot m = ⟨some h, false⟩ := by
  have husable : ∀ m, (s.keySlot m).hash.isSome = true ∧ (!(s.keySlot m).revoked) = true ↔ ∃ h, s.keySlot m = ⟨some h, false⟩ := by
    intro m
    obtain ⟨hash, revoked⟩ := s.keySlot m
    cases hash <;> cases revoked <;> simp
  have huse : ∀ m, m ∈ (if n < 4 then [0, 1, 2, 3] else [4, 5]) ↔ (if n < 4 then m < 4 else m = 4 ∨ m = 5) := by
    intro m
    split
    · simp
      omega
    · simp
  unfold State.peerLeft
  rw [List.any_eq_true]
  constructor
  · rintro ⟨m, hm, hok⟩
    obtain ⟨hboth, hkept⟩ := Bool.and_eq_true_iff.mp hok
    obtain ⟨hother, hsome⟩ := Bool.and_eq_true_iff.mp hboth
    obtain ⟨h, hslot⟩ := (husable m).mp ⟨hsome, hkept⟩
    exact ⟨m, h, bne_iff_ne.mp hother, (huse m).mp hm, hslot⟩
  · rintro ⟨m, h, hother, hm, hslot⟩
    obtain ⟨hsome, hkept⟩ := (husable m).mpr ⟨h, hslot⟩
    exact ⟨m, (huse m).mpr hm, Bool.and_eq_true_iff.mpr ⟨Bool.and_eq_true_iff.mpr ⟨bne_iff_ne.mpr hother, hsome⟩, hkept⟩⟩

/-- A slot is revoked. -/
def State.dropKey (s : State) (n : Nat) : State :=
  ((s.setKey n { s.keySlot n with revoked := true }).wr Reg.CFG_KEY_CTRL.status 0 1).raise 0x807 0 (n + 8)

theorem exec_keyRevoke_done (hup : HostUp s) (hn : n.val ≤ 5) (hpeer : s.peerLeft n = true) (hnew : (s.keySlot n).revoked = false) :
    exec (.keyRevoke n) s = .next ((s.wr Reg.CFG_KEY_CTRL.slot 0 n).dropKey n) := by
  change execKeyRevoke n s = _
  unfold execKeyRevoke State.onSlot
  rw [byHost_up hup, if_neg (Nat.not_lt.mpr hn)]
  have hslot : (s.wr Reg.CFG_KEY_CTRL.slot 0 n).keySlot n = s.keySlot n := rfl
  dsimp only
  exact congrArg Host.Outcome.next ((if_pos hpeer).trans (if_neg (by rw [hslot, hnew]; exact Bool.false_ne_true)))

theorem exec_keyRevoke_last (hup : HostUp s) (hn : n.val ≤ 5) (hpeer : ¬ s.peerLeft n = true) :
    exec (.keyRevoke n) s = .next (s.wrAll [(Reg.CFG_KEY_CTRL.slot, 0, n.val), (Reg.CFG_KEY_CTRL.status, 0, 4)]) := by
  change execKeyRevoke n s = _
  unfold execKeyRevoke State.onSlot
  rw [byHost_up hup, if_neg (Nat.not_lt.mpr hn)]
  exact congrArg Host.Outcome.next (if_neg hpeer)

theorem exec_key_outside (hup : HostUp s) (hn : 5 < n.val) {c : Instr} (hc : c = .keyProgram n ∨ c = .keyRevoke n) :
    exec c s = .next (s.rejectWrite 0x2050) := by
  rcases hc with rfl | rfl
  · change execKeyProgram n s = _
    unfold execKeyProgram State.onSlot
    rw [byHost_up hup, if_pos hn]
    rfl
  · change execKeyRevoke n s = _
    unfold execKeyRevoke State.onSlot
    rw [byHost_up hup, if_pos hn]
    rfl

/-- Slot and status alone. -/
theorem State.keyStatus_effect (hs : tabWf 0 s.regs = true) (n v : Nat) (hv : v < 8) :
    let t := s.wrAll [(Reg.CFG_KEY_CTRL.slot, 0, n), (Reg.CFG_KEY_CTRL.status, 0, v)]
    t.rd Reg.CFG_KEY_CTRL.status 0 = v ∧ Only [.regs] s t ∧ RegsBut keyRegs s t := by
  have hread := State.rd_wrAll [Reg.CFG_KEY_CTRL.slot, Reg.CFG_KEY_CTRL.status]
    (l := [(Reg.CFG_KEY_CTRL.slot, 0, n), (Reg.CFG_KEY_CTRL.status, 0, v)]) rfl (by decide) hs (by simp)
    (Reg.CFG_KEY_CTRL.status, 0, v) (List.mem_cons_of_mem _ List.mem_cons_self)
  refine ⟨hread.trans (Nat.mod_eq_of_lt hv), (State.wrAll_keeps (M := 0x10) (by decide) _ (.refl s)).only (by decide),
    (Wrote.mono (State.wrAll_wrote hs _) ?_).but⟩
  simp [keyRegs]

end Slot

theorem State.takeKey_effect {s : State} (hs : Sound s) (n : Nat) :
    let t := (s.wr Reg.CFG_KEY_CTRL.slot 0 n).takeKey n
    t.keySlot n = { s.keySlot n with hash := some (wordLE (s.cfg.words.flatMap (bytesLE 4))) } ∧ (∀ m, m ≠ n → t.keySlot m = s.keySlot m)
      ∧ t.cfg.flash = s.cfg.flash ∧ t.cfg.page = s.cfg.page ∧ t.cfg.words = [] ∧ t.rd Reg.CFG_KEY_CTRL.status 0 = 1
      ∧ t.rd Reg.CFG_KEY_CTRL.index 0 = 0 ∧ Reports s t 0x807 0 n ∧ Only (.cfg :: eventParts) s t ∧ RegsBut keyRegs s t := by
  intro t
  let l : List (Field × Nat × Nat) := [(Reg.CFG_KEY_CTRL.slot, 0, n), (Reg.CFG_KEY_CTRL.index, 0, 0), (Reg.CFG_KEY_CTRL.status, 0, 1)]
  let u : State := ((((s.wr Reg.CFG_KEY_CTRL.slot 0 n).setKey n
    { s.keySlot n with hash := some (wordLE (s.cfg.words.flatMap (bytesLE 4))) }).modCfg (fun c => { c with words := [] })).wr
      Reg.CFG_KEY_CTRL.index 0 0).wr Reg.CFG_KEY_CTRL.status 0 1
  have ht : t = u.raise 0x807 0 n := rfl
  obtain ⟨hreports, hwrote, hread⟩ := State.raise_after [Reg.CFG_KEY_CTRL.slot, Reg.CFG_KEY_CTRL.index, Reg.CFG_KEY_CTRL.status] (l := l)
    (u := u) (code := 0x807) rfl (by decide) hs.regs (by simp [l]) rfl rfl rfl rfl (by decide) 0 n
  have hstatus := hread (Reg.CFG_KEY_CTRL.status, 0, 1) (by simp [l])
  have hindex := hread (Reg.CFG_KEY_CTRL.index, 0, 0) (by simp [l])
  have hu : Keeps 0x22000010 s u := State.wr_keeps (by decide) (State.wr_keeps (by decide) (State.modCfg_keeps (by decide)
    (State.setKey_keeps (by decide) (State.wr_keeps (by decide) (.refl s))) (.inr rfl) (.inr rfl) id))
  have hraise : Keeps 0x512 u t := State.raise_keeps (by decide) (.refl u)
  have hcfg : t.cfg = u.cfg := hraise.cfg.get (by decide)
  have hkey : ∀ m, t.keySlot m = _ := fun m =>
    (State.keySlot_congr (congrArg Cfg.keys hcfg) m).trans (State.keySlot_setKey (s := s.wr Reg.CFG_KEY_CTRL.slot 0 n) hs.keys n _ m)
  refine ⟨(hkey n).trans (if_pos rfl), fun m hm => (hkey m).trans (if_neg hm), (congrArg Cfg.flash hcfg :), (congrArg Cfg.page hcfg :),
    (congrArg Cfg.words hcfg :), hstatus, hindex, hreports, ?_, (hwrote.mono ?_).but⟩
  · exact ((hu.mono (M := 0x22000512) (by decide)).trans (hraise.mono (by decide))).only (by decide)
  · exact regs_append (by simp [l]) eventRegs

theorem State.dropKey_effect {s : State} (hs : Sound s) (n : Nat) :
    let t := (s.wr Reg.CFG_KEY_CTRL.slot 0 n).dropKey n
    t.keySlot n = { s.keySlot n with revoked := true } ∧ (∀ m, m ≠ n → t.keySlot m = s.keySlot m) ∧ t.cfg.flash = s.cfg.flash
      ∧ t.cfg.page = s.cfg.page ∧ t.rd Reg.CFG_KEY_CTRL.status 0 = 1 ∧ Reports s t 0x807 0 (n + 8) ∧ Only (.cfg :: eventParts) s t
      ∧ RegsBut keyRegs s t := by
  intro t
  let l : List (Field × Nat × Nat) := [(Reg.CFG_KEY_CTRL.slot, 0, n), (Reg.CFG_KEY_CTRL.status, 0, 1)]
  let u : State := ((s.wr Reg.CFG_KEY_CTRL.slot 0 n).setKey n { s.keySlot n with revoked := true }).wr Reg.CFG_KEY_CTRL.status 0 1
  have ht : t = u.raise 0x807 0 (n + 8) := rfl
  obtain ⟨hreports, hwrote, hread⟩ := State.raise_after [Reg.CFG_KEY_CTRL.slot, Reg.CFG_KEY_CTRL.status] (l := l)
    (u := u) (code := 0x807) rfl (by decide) hs.regs (by simp [l]) rfl rfl rfl rfl (by decide) 0 (n + 8)
  have hstatus := hread (Reg.CFG_KEY_CTRL.status, 0, 1) (by simp [l])
  have hu : Keeps 0x22000010 s u := State.wr_keeps (by decide) (State.setKey_keeps (by decide) (State.wr_keeps (by decide) (.refl s)))
  have hraise : Keeps 0x512 u t := State.raise_keeps (by decide) (.refl u)
  have hcfg : t.cfg = u.cfg := hraise.cfg.get (by decide)
  have hkey : ∀ m, t.keySlot m = _ := fun m =>
    (State.keySlot_congr (congrArg Cfg.keys hcfg) m).trans (State.keySlot_setKey (s := s.wr Reg.CFG_KEY_CTRL.slot 0 n) hs.keys n _ m)
  refine ⟨(hkey n).trans (if_pos rfl), fun m hm => (hkey m).trans (if_neg hm), (congrArg Cfg.flash hcfg :), (congrArg Cfg.page hcfg :),
    hstatus, hreports, ?_, (hwrote.mono ?_).but⟩
  · exact ((hu.mono (M := 0x22000512) (by decide)).trans (hraise.mono (by decide))).only (by decide)
  · exact regs_append (by simp [l]) eventRegs

/-! ### Flash commands -/

section Start

variable {s : State} {cmd n : Nat} {changes : Bool}

theorem State.flashCommand_starts (hidle : s.cfg.op = none) (halign : s.rd Reg.CFG_FLASH_ADDR.addr 0 % n = 0)
    (hrange : s.rd Reg.CFG_FLASH_ADDR.addr 0 < Config.flashBytes)
    (hfree : changes = true → s.flashInUse (s.rd Reg.CFG_FLASH_ADDR.addr 0) n = false ∧ s.flag Reg.CFG_CTRL.flash_wp 0 = false) :
    s.flashCommand cmd n changes = (s.modCfg (fun c => { c with op := some ⟨cmd, s.rd Reg.CFG_FLASH_ADDR.addr 0⟩ })).wrAll
      [(Reg.CFG_FLASH_CMD.status, 0, 0), (Reg.CFG_FLASH_CMD.busy, 0, 1)] := by
  have hopen : ¬ (changes && s.flashInUse (s.rd Reg.CFG_FLASH_ADDR.addr 0) n) = true
      ∧ ¬ (changes && s.flag Reg.CFG_CTRL.flash_wp 0) = true := by
    cases changes with
    | false => exact ⟨Bool.false_ne_true, Bool.false_ne_true⟩
    | true =>
      obtain ⟨huse, hwp⟩ := hfree rfl
      rw [huse, hwp]
      exact ⟨Bool.false_ne_true, Bool.false_ne_true⟩
  unfold State.flashCommand
  dsimp only
  rw [if_neg (by rw [hidle]; exact Bool.false_ne_true), if_neg (not_or.mpr ⟨not_not_intro halign, Nat.not_le.mpr hrange⟩), if_neg hopen.1,
    if_neg hopen.2]
  rfl

theorem State.flashCommand_outside (hidle : s.cfg.op = none)
    (h : s.rd Reg.CFG_FLASH_ADDR.addr 0 % n ≠ 0 ∨ Config.flashBytes ≤ s.rd Reg.CFG_FLASH_ADDR.addr 0) :
    s.flashCommand cmd n changes = s.wr Reg.CFG_FLASH_CMD.status 0 4 := by
  unfold State.flashCommand
  dsimp only
  rw [if_neg (by rw [hidle]; exact Bool.false_ne_true), if_pos h]
  rfl

/-- The status of a change that is refused: 2 for a place in use, 3 for the write protection. -/
theorem State.flashCommand_refused (hidle : s.cfg.op = none) (halign : s.rd Reg.CFG_FLASH_ADDR.addr 0 % n = 0)
    (hrange : s.rd Reg.CFG_FLASH_ADDR.addr 0 < Config.flashBytes)
    (h : s.flashInUse (s.rd Reg.CFG_FLASH_ADDR.addr 0) n = true ∨ s.flag Reg.CFG_CTRL.flash_wp 0 = true) :
    s.flashCommand cmd n true
      = (s.wrAll [(Reg.CFG_FLASH_CMD.status, 0, if s.flashInUse (s.rd Reg.CFG_FLASH_ADDR.addr 0) n = true then 2 else 3)]).raise 0x808 0
          ((if s.flashInUse (s.rd Reg.CFG_FLASH_ADDR.addr 0) n = true then 2 else 3) + 2 ^ 32 * s.rd Reg.CFG_FLASH_ADDR.addr 0) := by
  unfold State.flashCommand
  dsimp only
  rw [if_neg (by rw [hidle]; exact Bool.false_ne_true), if_neg (not_or.mpr ⟨not_not_intro halign, Nat.not_le.mpr hrange⟩), Bool.true_and,
    Bool.true_and]
  by_cases huse : s.flashInUse (s.rd Reg.CFG_FLASH_ADDR.addr 0) n = true
  · rw [if_pos huse, if_pos huse]
    rfl
  · rw [if_neg huse, if_neg huse, if_pos (h.resolve_left huse)]
    rfl

end Start

/-- The writes that show the boot record. -/
def State.bootWrites (s : State) : List (Field × Nat × Nat) :=
  let r := s.bootRecord.getD ⟨0, 0, 0, 0, 0, 0⟩
  [(Reg.CFG_BOOT_A.base, 0, r.baseA), (Reg.CFG_BOOT_B.base, 0, r.baseB), (Reg.CFG_BOOT_GEN.gen_a, 0, r.genA), (Reg.CFG_BOOT_GEN.gen_b, 0, r.genB)]

theorem State.showBoot_eq (s : State) : s.showBoot = s.wrAll s.bootWrites := rfl

/-- What a command that succeeded leaves in the configuration block (R436), with the bytes of the page buffer. -/
def Cfg.flashDone (c : Cfg) (o : FlashOp) (bytes : List Nat) : Cfg :=
  if o.cmd = 1 then { c with op := none, page := tabSetList 0 c.page 0 (tabGetList 0xFF c.flash o.addr 256) }
  else if o.cmd = 2 then { c with op := none, flash := tabSetList 0xFF c.flash o.addr bytes }
  else { c with op := none, flash := tabDrop (fun a => decide (o.addr ≤ a) && decide (a < o.addr + 4096)) c.flash }

/-- A flash command has ended with a status. -/
def State.flashStatus (s : State) (f : Cfg → Cfg) (status : Nat) : State :=
  (s.modCfg f).wrAll [(Reg.CFG_FLASH_CMD.busy, 0, 0), (Reg.CFG_FLASH_CMD.status, 0, status)]

theorem State.flashStatus_eq (s : State) (f : Cfg → Cfg) (status : Nat) : s.flashStatus f status
    = ((s.modCfg f).wr Reg.CFG_FLASH_CMD.busy 0 0).wr Reg.CFG_FLASH_CMD.status 0 status := rfl

theorem State.modCfg_wr_modCfg (s : State) (f g : Cfg → Cfg) (x : Field) (v : Nat) :
    ((s.modCfg f).wr x 0 v).modCfg g = (s.modCfg (fun c => g (f c))).wr x 0 v := rfl

/-- What a command does to flash or page buffer, said of the configuration block. -/
theorem State.flashEffect_eq (s : State) (o : FlashOp) (x : Field) (v : Nat) :
    ((s.modCfg (fun c => { c with op := none })).wr x 0 v).flashEffect o = (s.modCfg (·.flashDone o s.pageBytes)).wr x 0 v := by
  have hpage : ((s.modCfg (fun c => { c with op := none })).wr x 0 v).pageBytes = s.pageBytes := congrArg (tabGetList 0 · 0 256) rfl
  unfold State.flashEffect Cfg.flashDone
  by_cases h1 : o.cmd = 1
  · simp only [if_pos h1, State.modCfg_wr_modCfg]
  · by_cases h2 : o.cmd = 2
    · simp only [if_neg h1, if_pos h2, hpage, State.modCfg_wr_modCfg]
    · simp only [if_neg h1, if_neg h2, State.modCfg_wr_modCfg]

theorem exec_flashDone {s : State} {o : FlashOp} (h : s.cfg.op = some o) : exec (.flashCommandDone true) s
    = .next ((s.flashStatus (·.flashDone o s.pageBytes) 1).wrAll (s.flashStatus (·.flashDone o s.pageBytes) 1).bootWrites) := by
  change execFlashCommandDone true s = _
  unfold execFlashCommandDone
  rw [h]
  dsimp only
  rw [if_pos rfl, State.flashEffect_eq, State.flashStatus_eq, ← State.showBoot_eq]
  rfl

theorem exec_flashFailed {s : State} {o : FlashOp} (h : s.cfg.op = some o) : exec (.flashCommandDone false) s
    = .next ((s.flashStatus (fun c => { c with op := none }) 5).raise 0x809 0 (2 ^ 32 * o.addr)) := by
  change execFlashCommandDone false s = _
  unfold execFlashCommandDone
  rw [h]
  dsimp only
  rw [if_neg Bool.false_ne_true]
  rfl

theorem exec_flashDone_idle {s : State} (h : s.cfg.op = none) (ok : Bool) : exec (.flashCommandDone ok) s = .next s := by
  change execFlashCommandDone ok s = _
  unfold execFlashCommandDone
  rw [h]

/-- The registers of a flash command, and those that show the boot record. -/
abbrev flashRegs : List (Field × Nat) := [(Reg.CFG_FLASH_CMD.busy, 0), (Reg.CFG_FLASH_CMD.status, 0)]
  ++ [(Reg.CFG_BOOT_A.base, 0), (Reg.CFG_BOOT_B.base, 0), (Reg.CFG_BOOT_GEN.gen_a, 0), (Reg.CFG_BOOT_GEN.gen_b, 0)] ++ eventRegs

theorem State.flashDone_effect {s : State} (hs : tabWf 0 s.regs = true) (f : Cfg → Cfg) :
    let t := (s.flashStatus f 1).wrAll (s.flashStatus f 1).bootWrites
    t.cfg = f s.cfg ∧ t.rd Reg.CFG_FLASH_CMD.busy 0 = 0 ∧ t.rd Reg.CFG_FLASH_CMD.status 0 = 1 ∧ Only [.regs, .cfg] s t ∧ RegsBut flashRegs s t := by
  intro t
  have ht : t = (s.modCfg f).wrAll ([(Reg.CFG_FLASH_CMD.busy, 0, 0), (Reg.CFG_FLASH_CMD.status, 0, 1)] ++ (s.flashStatus f 1).bootWrites) := by
    unfold State.wrAll
    rw [List.foldl_append]
    rfl
  have hregs : tabWf 0 (s.modCfg f).regs = true := hs
  rw [ht]
  obtain ⟨hcfg, honly, hwrote⟩ := State.modCfg_wrAll hs f
    ([(Reg.CFG_FLASH_CMD.busy, 0, 0), (Reg.CFG_FLASH_CMD.status, 0, 1)] ++ (s.flashStatus f 1).bootWrites)
  have hread := State.rd_wrAll [Reg.CFG_FLASH_CMD.busy, Reg.CFG_FLASH_CMD.status, Reg.CFG_BOOT_A.base, Reg.CFG_BOOT_B.base,
    Reg.CFG_BOOT_GEN.gen_a, Reg.CFG_BOOT_GEN.gen_b]
    (l := [(Reg.CFG_FLASH_CMD.busy, 0, 0), (Reg.CFG_FLASH_CMD.status, 0, 1)] ++ (s.flashStatus f 1).bootWrites) rfl (by decide) hregs
    (by simp [State.bootWrites])
  exact ⟨hcfg, hread (Reg.CFG_FLASH_CMD.busy, 0, 0) (by simp), hread (Reg.CFG_FLASH_CMD.status, 0, 1) (by simp), honly,
    (hwrote.mono (fun p hp => List.mem_append_left _ hp)).but⟩

theorem State.flashFailed_effect {s : State} (hs : Sound s) (o : FlashOp) :
    let t := (s.flashStatus (fun c => { c with op := none }) 5).raise 0x809 0 (2 ^ 32 * o.addr)
    t.cfg = { s.cfg with op := none } ∧ t.rd Reg.CFG_FLASH_CMD.busy 0 = 0 ∧ t.rd Reg.CFG_FLASH_CMD.status 0 = 5
      ∧ Reports s t 0x809 0 (2 ^ 32 * o.addr) ∧ Only (.cfg :: eventParts) s t ∧ RegsBut flashRegs s t := by
  intro t
  obtain ⟨hcfg, honly, -⟩ := State.modCfg_wrAll hs.regs (fun c => { c with op := none })
    [(Reg.CFG_FLASH_CMD.busy, 0, 0), (Reg.CFG_FLASH_CMD.status, 0, 5)]
  obtain ⟨hreports, hwrote, hread⟩ := State.raise_after [Reg.CFG_FLASH_CMD.busy, Reg.CFG_FLASH_CMD.status]
    (l := [(Reg.CFG_FLASH_CMD.busy, 0, 0), (Reg.CFG_FLASH_CMD.status, 0, 5)]) (u := s.flashStatus (fun c => { c with op := none }) 5) (code := 0x809)
    rfl (by decide) hs.regs (by simp) rfl rfl rfl rfl (by decide) 0 (2 ^ 32 * o.addr)
  have hraise : Keeps 0x512 (s.flashStatus (fun c => { c with op := none }) 5) t := State.raise_keeps (by decide) (.refl _)
  refine ⟨(hraise.cfg.get (by decide)).trans hcfg, hread (Reg.CFG_FLASH_CMD.busy, 0, 0) (by simp), hread (Reg.CFG_FLASH_CMD.status, 0, 5) (by simp),
    hreports, only_trans (only_mono ?_ honly) (only_mono (fun _ => List.mem_cons_of_mem _) (hraise.only (l := eventParts) (by decide))),
    (hwrote.mono ?_).but⟩
  · simp [eventParts]
  · exact regs_append (fun p hp => List.mem_append_left _ hp) eventRegs

/-! ### CFG_FLASH_DATA -/

theorem exec_flashWrite {s : State} (hup : HostUp s) (req v : Nat) : exec (.flashDataAccess true req v) s
    = .next ((s.modCfg (fun c => { c with
        page := tabSetList 0 c.page (s.rd Reg.CFG_FLASH_ADDR.addr 0 % 256 / 4 * 4) ((bytesLE 4 v).map (·.toNat)) })).wrAll
          [(Reg.CFG_FLASH_ADDR.addr, 0, s.rd Reg.CFG_FLASH_ADDR.addr 0 + 4)]) :=
  byHost_up hup (fun s => .next (s.flashAccess true req v))

/-- The word of the page buffer is answered. -/
def State.answerPage (s : State) (req : Nat) : State :=
  { s with host := { s.host with rdata := some ⟨req, 0x205C, .ok,
    [wordLE ((tabGetList 0 s.cfg.page (s.rd Reg.CFG_FLASH_ADDR.addr 0 % 256 / 4 * 4) 4).map (BitVec.ofNat 8))]⟩ } }

theorem exec_flashRead {s : State} (hup : HostUp s) (req v : Nat) : exec (.flashDataAccess false req v) s
    = .next ((s.answerPage req).wr Reg.CFG_FLASH_ADDR.addr 0 (s.rd Reg.CFG_FLASH_ADDR.addr 0 + 4)) :=
  byReader_up req Reg.CFG_FLASH_DATA.data.addr (fun s => .next (s.flashAccess false req v)) hup

end Sys2Proof.Machine

namespace Sys2Proof.Proofs

open Sys2Proof Sys2Proof.Machine Sys2Proof.Safety

theorem flash_starts {s : State} (hs : Sound s) {c : Instr} {code n : Nat} {changes : Bool}
    (hexec : HostUp s → exec c s = .next (s.flashCommand code n changes)) :
    (HostUp s → s.cfg.op = none → s.rd Reg.CFG_FLASH_ADDR.addr 0 % n = 0 → s.rd Reg.CFG_FLASH_ADDR.addr 0 < Config.flashBytes →
      (changes = true → s.flashInUse (s.rd Reg.CFG_FLASH_ADDR.addr 0) n = false ∧ s.flag Reg.CFG_CTRL.flash_wp 0 = false) →
      ∃ t, exec c s = .next t ∧ t.cfg = { s.cfg with op := some ⟨code, s.rd Reg.CFG_FLASH_ADDR.addr 0⟩ } ∧ t.rd Reg.CFG_FLASH_CMD.busy 0 = 1
        ∧ t.rd Reg.CFG_FLASH_CMD.status 0 = 0 ∧ Only [.regs, .cfg] s t
        ∧ RegsBut [(Reg.CFG_FLASH_CMD.busy, 0), (Reg.CFG_FLASH_CMD.status, 0)] s t)
    ∧ (HostUp s → s.cfg.op = none → s.rd Reg.CFG_FLASH_ADDR.addr 0 % n ≠ 0 ∨ Config.flashBytes ≤ s.rd Reg.CFG_FLASH_ADDR.addr 0 →
      ∃ t, exec c s = .next t ∧ t.rd Reg.CFG_FLASH_CMD.status 0 = 4 ∧ Only [.regs] s t ∧ RegsBut [(Reg.CFG_FLASH_CMD.status, 0)] s t) := by
  refine ⟨fun hup hidle halign hrange hfree => ?_, fun hup hidle hout => ?_⟩
  · obtain ⟨hcfg, honly, hwrote⟩ := State.modCfg_wrAll hs.regs (fun c => { c with op := some ⟨code, s.rd Reg.CFG_FLASH_ADDR.addr 0⟩ })
      [(Reg.CFG_FLASH_CMD.status, 0, 0), (Reg.CFG_FLASH_CMD.busy, 0, 1)]
    have hread := State.rd_wrAll [Reg.CFG_FLASH_CMD.status, Reg.CFG_FLASH_CMD.busy]
      (l := [(Reg.CFG_FLASH_CMD.status, 0, 0), (Reg.CFG_FLASH_CMD.busy, 0, 1)]) rfl (by decide)
      (s := s.modCfg (fun c => { c with op := some ⟨code, s.rd Reg.CFG_FLASH_ADDR.addr 0⟩ })) hs.regs (by simp)
    exact ⟨_, (hexec hup).trans (congrArg _ (State.flashCommand_starts hidle halign hrange hfree)), hcfg,
      hread (Reg.CFG_FLASH_CMD.busy, 0, 1) (by simp), hread (Reg.CFG_FLASH_CMD.status, 0, 0) (by simp), honly, (hwrote.mono (by simp)).but⟩
  · exact ⟨_, (hexec hup).trans (congrArg _ (State.flashCommand_outside hidle hout)), State.rd_wr_self _ _ _ hs.regs, State.wr_only _ _ _ _,
      ((Wrote.refl hs.regs).wr _ List.mem_cons_self).but⟩

theorem flash_refused {s : State} (hs : Sound s) {c : Instr} {code n : Nat} (hexec : HostUp s → exec c s = .next (s.flashCommand code n true)) :
    HostUp s → s.cfg.op = none → s.rd Reg.CFG_FLASH_ADDR.addr 0 % n = 0 → s.rd Reg.CFG_FLASH_ADDR.addr 0 < Config.flashBytes →
      s.flashInUse (s.rd Reg.CFG_FLASH_ADDR.addr 0) n = true ∨ s.flag Reg.CFG_CTRL.flash_wp 0 = true →
      let status := if s.flashInUse (s.rd Reg.CFG_FLASH_ADDR.addr 0) n then 2 else 3
      ∃ t, exec c s = .next t ∧ t.rd Reg.CFG_FLASH_CMD.status 0 = status
        ∧ Reports s t 0x808 0 (status + 2 ^ 32 * s.rd Reg.CFG_FLASH_ADDR.addr 0) ∧ Only eventParts s t
        ∧ RegsBut ((Reg.CFG_FLASH_CMD.status, 0) :: eventRegs) s t := by
  intro hup hidle halign hrange hcause status
  have hlow : status < 2 ^ 3 := by
    change (if _ then 2 else 3) < 2 ^ 3
    split <;> decide
  have hrefused : s.flashCommand code n true
      = (s.wrAll [(Reg.CFG_FLASH_CMD.status, 0, status)]).raise 0x808 0 (status + 2 ^ 32 * s.rd Reg.CFG_FLASH_ADDR.addr 0) :=
    State.flashCommand_refused hidle halign hrange hcause
  clear_value status
  obtain ⟨hreports, hwrote, hread⟩ := State.raise_after [Reg.CFG_FLASH_CMD.status] (l := [(Reg.CFG_FLASH_CMD.status, 0, status)])
    (u := s.wrAll [(Reg.CFG_FLASH_CMD.status, 0, status)]) (code := 0x808) rfl (by decide) hs.regs (by simp) rfl rfl rfl rfl (by decide) 0
    (status + 2 ^ 32 * s.rd Reg.CFG_FLASH_ADDR.addr 0)
  exact ⟨_, (hexec hup).trans (congrArg _ hrefused), (hread (Reg.CFG_FLASH_CMD.status, 0, status) List.mem_cons_self).trans (Nat.mod_eq_of_lt hlow),
    hreports, (State.raise_keeps (M := 0x512) (by decide) (State.wrAll_keeps (by decide) _ (.refl s))).only (by decide), hwrote.but⟩

theorem exec_flashReadPage {s : State} (hup : HostUp s) : exec .flashReadPage s = .next (s.flashCommand 1 256 false) :=
  byHost_up hup (fun s => .next (s.flashCommand 1 256 false))

theorem exec_flashProgramPage {s : State} (hup : HostUp s) : exec .flashProgramPage s = .next (s.flashCommand 2 256 true) :=
  byHost_up hup (fun s => .next (s.flashCommand 2 256 true))

theorem exec_flashEraseSector {s : State} (hup : HostUp s) : exec .flashEraseSector s = .next (s.flashCommand 3 4096 true) :=
  byHost_up hup (fun s => .next (s.flashCommand 3 4096 true))

/-- Settles O57: the key slots by `State.takeKey_effect` and `State.dropKey_effect`, a flash command by `flash_starts` and `flash_refused`,
its end by `State.flashDone_effect` and `State.flashFailed_effect`. -/
theorem keysAndFlash : Obligations.KeysAndFlash := by
  intro s hs at_ i ctrl boot other starts refusedAt ended
  refine ⟨fun v hup hlen => ?word, fun n hup hn => ⟨fun hfree hwords => ?taken, fun h hused => ?used, fun hfree hwords => ?few,
      fun m h hother huse hslot hnew => ?revoked, fun hnone => ?last⟩, fun n hup hn c hc => ?outside, flash_starts hs exec_flashReadPage,
    flash_starts hs exec_flashProgramPage, flash_refused hs exec_flashProgramPage, flash_starts hs exec_flashEraseSector,
    flash_refused hs exec_flashEraseSector, fun o ho => ⟨fun h1 => ?page, fun h2 => ?program, fun h3 => ?erase, ?failed⟩, exec_flashDone_idle,
    fun req v hup => ?dataWrite, fun req v hup => ?dataRead⟩
  case word =>
    obtain ⟨hcfg, honly, hwrote⟩ := State.modCfg_wrAll hs.regs (fun c => { c with words := c.words ++ [v % 2 ^ 32] })
      [(Reg.CFG_KEY_CTRL.index, 0, s.cfg.words.length + 1)]
    refine ⟨_, exec_keyDataWrite hup v hlen, hcfg, ?_, honly, hwrote.but⟩
    exact (State.rd_wr_self (s := s.modCfg _) _ _ _ hs.regs).trans (Nat.mod_eq_of_lt (show s.cfg.words.length + 1 < 2 ^ 4 by omega))
  case taken =>
    obtain ⟨hkey, hkeys, hflash, hpage, hrest⟩ := State.takeKey_effect hs n
    exact ⟨_, exec_keyProgram_taken hup hn hfree hwords, hkey, ⟨hkeys, hflash, hpage⟩, hrest⟩
  case used => exact ⟨_, exec_keyProgram_used hup hn hused, State.keyStatus_effect hs.regs n 2 (by decide)⟩
  case few => exact ⟨_, exec_keyProgram_few hup hn hfree hwords, State.keyStatus_effect hs.regs n 3 (by decide)⟩
  case revoked =>
    obtain ⟨hkey, hkeys, hflash, hpage, hrest⟩ := State.dropKey_effect hs n
    exact ⟨_, exec_keyRevoke_done hup hn ((s.peerLeft_iff n).mpr ⟨m, h, hother, huse, hslot⟩) hnew, hkey, ⟨hkeys, hflash, hpage⟩, hrest⟩
  case last =>
    have hpeer : ¬ s.peerLeft n = true := fun hleft => by
      obtain ⟨m, h, hother, huse, hslot⟩ := (s.peerLeft_iff n).mp hleft
      exact hnone m h hother huse hslot
    exact ⟨_, exec_keyRevoke_last hup hn hpeer, State.keyStatus_effect hs.regs n 4 (by decide)⟩
  case outside =>
    obtain ⟨-, hreports, honly, hregs⟩ := State.rejectWrite_effect 0x2050 hs.regs
    exact ⟨_, exec_key_outside hup hn hc, hreports, (State.rejectWrite_keeps (M := 0x512) (by decide) (.refl s)).cfg.get (by decide), honly, hregs⟩
  case page =>
    obtain ⟨hcfg, hbusy, hstatus, honly, hregs⟩ := State.flashDone_effect hs.regs (·.flashDone o s.pageBytes)
    have hdone : s.cfg.flashDone o s.pageBytes = _ := if_pos h1
    rw [hdone] at hcfg
    exact ⟨_, exec_flashDone ho, ⟨hbusy, hstatus, by rw [hcfg], hregs⟩, by rw [hcfg], by rw [hcfg], by rw [hcfg], honly⟩
  case program =>
    obtain ⟨hcfg, hbusy, hstatus, honly, hregs⟩ := State.flashDone_effect hs.regs (·.flashDone o s.pageBytes)
    have hdone : s.cfg.flashDone o s.pageBytes = _ := (if_neg (by omega)).trans (if_pos h2)
    rw [hdone] at hcfg
    exact ⟨_, exec_flashDone ho, ⟨hbusy, hstatus, by rw [hcfg], hregs⟩, by rw [hcfg], by rw [hcfg], by rw [hcfg, State.pageBytes], honly⟩
  case erase =>
    obtain ⟨hcfg, hbusy, hstatus, honly, hregs⟩ := State.flashDone_effect hs.regs (·.flashDone o s.pageBytes)
    have hdone : s.cfg.flashDone o s.pageBytes = _ := (if_neg (by omega)).trans (if_neg (by omega))
    rw [hdone] at hcfg
    exact ⟨_, exec_flashDone ho, ⟨hbusy, hstatus, by rw [hcfg], hregs⟩, by rw [hcfg], by rw [hcfg], by rw [hcfg], honly⟩
  case failed =>
    obtain ⟨hcfg, hbusy, hstatus, hreports, honly, hregs⟩ := State.flashFailed_effect hs o
    exact ⟨_, exec_flashFailed ho, ⟨hbusy, hstatus, by rw [hcfg], hregs⟩, hcfg, hreports, honly⟩
  case dataWrite =>
    obtain ⟨hcfg, honly, hwrote⟩ := State.modCfg_wrAll hs.regs (fun c => { c with page := tabSetList 0 c.page i ((bytesLE 4 v).map (·.toNat)) })
      [(Reg.CFG_FLASH_ADDR.addr, 0, at_ + 4)]
    exact ⟨_, exec_flashWrite hup req v, hcfg, State.rd_wr_self (s := s.modCfg _) _ _ _ hs.regs, honly, hwrote.but⟩
  case dataRead =>
    have hanswer : Keeps 0x410 s ((s.answerPage req).wr Reg.CFG_FLASH_ADDR.addr 0 (at_ + 4)) :=
      State.wr_keeps (by decide) (Keeps.upd (.refl s))
    exact ⟨_, exec_flashRead hup req v, rfl, State.rd_wr_self (s := s.answerPage req) _ _ _ hs.regs, hanswer.only (by decide),
      (((Wrote.refl hs.regs).same (u := s.answerPage req) rfl).wr _ List.mem_cons_self).but⟩

end Sys2Proof.Proofs

/-! ## The registers that releases write (R261, R271, R273, R274) -/

namespace Sys2Proof.Machine

open Sys2Proof.Safety

/-- The fields below the fabric's that a release may write. -/
abbrev releaseRegs : List (Field × Nat) := (Reg.RED_MIRROR_STAT.waited, 0) :: eventRegs

/-- A field of the fabric, or one of `releaseRegs`. -/
def ByRelease (p : Field × Nat) : Prop := 0x30000 * 32 ≤ p.1.place ∨ p ∈ releaseRegs

/-- Nothing but fields of the fabric and `releaseRegs` is written on the way from s to t. -/
def FabricWrote (s t : State) : Prop := ∃ l, (∀ p ∈ l, ByRelease p) ∧ Wrote l s t

namespace FabricWrote

variable {s t u : State}

theorem refl (h : tabWf 0 s.regs = true) : FabricWrote s s := ⟨[], nofun, .refl h⟩

theorem of {l : List (Field × Nat)} (h : Wrote l s t) (hl : ∀ p ∈ l, ByRelease p) : FabricWrote s t := ⟨l, hl, h⟩

theorem wf (h : FabricWrote s t) : tabWf 0 t.regs = true := by
  obtain ⟨l, -, hw⟩ := h
  exact hw.wf

theorem trans (h : FabricWrote s t) (h' : FabricWrote t u) : FabricWrote s u := by
  obtain ⟨l, hl, hw⟩ := h
  obtain ⟨l', hl', hw'⟩ := h'
  exact ⟨l ++ l', fun p hp => (List.mem_append.mp hp).elim (hl p) (hl' p),
    (hw.mono fun p hp => List.mem_append_left _ hp).trans (hw'.mono fun p hp => List.mem_append_right _ hp)⟩

theorem same (h : FabricWrote s t) (hregs : u.regs = t.regs) : FabricWrote s u := by
  obtain ⟨l, hl, hw⟩ := h
  exact ⟨l, hl, hw.same hregs⟩

theorem wr (h : FabricWrote s t) (f : Field) (i v : Nat) (hf : 0x30000 * 32 ≤ f.place) : FabricWrote s (t.wr f i v) :=
  h.trans (.of (l := [(f, i)]) ((Wrote.refl h.wf).wr v List.mem_cons_self) fun _ hp => .inl (List.mem_singleton.mp hp ▸ hf))

theorem count (h : FabricWrote s t) (f : Field) (i : Nat) (hf : 0x30000 * 32 ≤ f.place) : FabricWrote s (t.count f i) :=
  h.trans (.of (l := [(f, i)]) ((Wrote.refl h.wf).count List.mem_cons_self) fun _ hp => .inl (List.mem_singleton.mp hp ▸ hf))

theorem raise (h : FabricWrote s t) (code inst data : Nat) : FabricWrote s (t.raise code inst data) :=
  h.trans (.of ((Wrote.refl h.wf).raise code inst data fun _ hp => hp) fun _ hp => .inr (List.mem_cons_of_mem _ hp))

theorem foldl {α : Type} {f : State → α → State} (hf : ∀ x t, FabricWrote s t → FabricWrote s (f t x)) (l : List α) :
    ∀ {t : State}, FabricWrote s t → FabricWrote s (l.foldl f t) := by
  induction l with
  | nil => exact fun h => h
  | cons x l ih => exact fun h => ih (hf x _ h)

/-- What lies below the fabric and is not of `releaseRegs` reads as before. -/
theorem rd (h : FabricWrote s t) {f : Field} {i : Nat} (hi : i < 8192) (hf : f.place < 0x30000 * 32)
    (hother : regKey f i ∉ releaseRegs.map (fun p => regKey p.1 p.2)) : t.rd f i = s.rd f i := by
  obtain ⟨l, hl, hw⟩ := h
  refine hw.but f i fun hm => ?_
  obtain ⟨p, hp, hk⟩ := List.mem_map.mp hm
  rcases hl p hp with habove | hlow
  · unfold Field.place at hf habove
    unfold regKey at hk
    omega
  · exact hother (List.mem_map.mpr ⟨p, hlow, hk⟩)

/-! ### Releases -/

theorem modFab (h : FabricWrote s t) (f : Fab → Fab) : FabricWrote s (t.modFab f) := h.same rfl

theorem markGraph (h : FabricWrote s t) (g state flags : Nat) : FabricWrote s (t.markGraph g state flags) :=
  ((h.same (u := t.modGraph g fun r => r.mark state flags) rfl).wr Reg.FAB_GRAPH_STAT.state g _ (by decide)).same rfl

theorem dropRelease (h : FabricWrote s t) (g trigger : Nat) : FabricWrote s (t.dropRelease g trigger) :=
  (((h.wr _ g 1 (by decide)).count _ g (by decide)).markGraph g _ 8).raise 0x301 g trigger

theorem unavailable (h : FabricWrote s t) (g : Nat) : FabricWrote s (t.unavailable g) := by
  have hmark := (h.same (u := t.modGraph g (fun r => { r with unavailable := true })) rfl).markGraph g 4 0
  unfold State.unavailable
  dsimp only
  split
  · exact hmark
  · exact hmark.raise _ _ _

theorem activate (h : FabricWrote s t) (w : Waiting) : FabricWrote s (t.activate w) := by
  have hreserve := h.foldl (f := fun s q => s.modQueue q (fun x => { x with reserved := x.reserved + 1 })) (fun q t ht => ht.same rfl) w.g.sinks
  unfold State.activate
  dsimp only
  refine (FabricWrote.modFab ?_ _).markGraph _ _ _
  split
  · exact (hreserve.modFab _).wr Reg.FAB_FLOW_STAT.busy _ 1 (by decide)
  · exact hreserve

theorem waitFlow (h : FabricWrote s t) (f : Nat) (w : Waiting) : FabricWrote s (t.waitFlow f w) := by
  unfold State.waitFlow State.showFlow
  dsimp only
  by_cases hroom : (t.flow f).queue.length < 16
  · rw [if_pos hroom]
    have hqueued := (h.same (u := t.modFlow f (fun x => { x with queue := insertWaiting { w with waited := true } x.queue })) rfl).wr
      Reg.FAB_FLOW_STAT.queued f ((t.modFlow f (fun x => { x with queue := insertWaiting { w with waited := true } x.queue })).flow f).queue.length
      (by decide)
    by_cases hwaited : w.waited = true
    · rw [if_pos hwaited]
      exact hqueued.markGraph _ _ _
    · rw [if_neg hwaited]
      exact (hqueued.count Reg.FAB_FLOW_STAT.waits f (by decide)).markGraph _ _ _
  · rw [if_neg hroom]
    have hmark := h.markGraph w.graph (t.restState w.g) 0
    split
    · exact hmark
    · exact hmark.dropRelease _ _

theorem tryStart (h : FabricWrote s t) (w : Waiting) : FabricWrote s (t.tryStart w) := by
  unfold State.tryStart
  split
  · exact h.waitFlow _ w
  · split
    · exact h.activate w
    · exact (h.modFab _).markGraph _ _ _

theorem releaseGraph (h : FabricWrote s t) (g c : Nat) : FabricWrote s (t.releaseGraph g c) := by
  unfold State.releaseGraph
  split
  · exact h
  · dsimp only
    by_cases hoff : (!(t.graph g).enabled) = true
    · rwa [if_pos hoff]
    rw [if_neg hoff]
    by_cases hheld : t.red.holdGraphs.contains g = true
    · rw [if_pos hheld]
      exact (h.trans (.of (l := [(Reg.RED_MIRROR_STAT.waited, 0)]) ((Wrote.refl h.wf).wr 1 List.mem_cons_self)
        fun _ hp => .inr (List.mem_singleton.mp hp ▸ List.mem_cons_self))).same rfl
    rw [if_neg hheld]
    split
    · exact h.unavailable g
    · split
      · split
        · exact h
        · exact h.dropRelease _ _
      · exact h.tryStart _

theorem releaseByItem (h : FabricWrote s t) (e : GraphEntry) : FabricWrote s (t.releaseByItem e) := by
  unfold State.releaseByItem
  split
  · split
    · exact h
    · exact h.releaseGraph _ _
  · exact h

theorem hostRelease (h : FabricWrote s t) (g : Nat) : FabricWrote s (t.hostRelease g) := by
  unfold State.hostRelease
  split
  · exact h
  · split
    · exact h
    · split
      · exact h.releaseGraph _ _
      · exact (h.count Reg.FAB_GRAPH_MISS_CNT.overruns g (by decide)).raise _ _ _

theorem lateReleases (h : FabricWrote s t) : FabricWrote s t.lateReleases := by
  unfold State.lateReleases
  refine FabricWrote.foldl (fun x u hu => ?_) _ (h.same rfl)
  split
  · exact hu.releaseByItem _
  · exact hu

theorem reachCycle (h : FabricWrote s t) (c : Nat) : FabricWrote s (t.reachCycle c) := by
  unfold State.reachCycle
  split
  · exact FabricWrote.lateReleases (h.same rfl)
  · exact h

theorem reachTime (h : FabricWrote s t) (c : Nat) : FabricWrote s (t.reachTime c) := h.reachCycle _

end FabricWrote

end Sys2Proof.Machine

/-! ## The time base, the snapshot and the alarm (R344, R346, R366, R454) -/

namespace Sys2Proof.Machine

open Sys2Proof.Safety

/-- An event on a state whose queue, epoch, clock and mask are those of s is reported from s. -/
theorem reports_from {s u t : State} {code inst data : Nat} (h : Reports u t code inst data) (hevq : u.evq = s.evq) (hk : u.epo.k = s.epo.k)
    (hclk : u.clk = s.clk) (hmask : u.rd Reg.EPO_EV_MASK.range_en 0 = s.rd Reg.EPO_EV_MASK.range_en 0) : Reports s t code inst data := by
  unfold Reports State.now State.bitAt at *
  rwa [hevq, hk, hclk, hmask] at h

/-! ### RATE_WRITE (R346) -/

/-- The offset that keeps a sum the same modulo n when the product in it changes from `a` to `p`. -/
theorem rebase_mod (n a p : Nat) (hn : 0 < n) : ((a + n * (p / n + 1) - p) % n + p) % n = a % n := by
  have hle : p ≤ a + n * (p / n + 1) := (Nat.lt_mul_div_succ p hn).le.trans (Nat.le_add_left _ _)
  rw [Nat.mod_add_mod, Nat.sub_add_cancel hle, Nat.add_mul_mod_self_left]

/-- T(C) depends on the sum of offset and counted increments modulo 2^112 alone (R345). -/
theorem Clk.time_congr {c d : Clk} (h : (c.off + c.count * c.inc) % 2 ^ 112 = (d.off + d.count * d.inc) % 2 ^ 112) : c.time = d.time := by
  have htime : ∀ x : Nat, x / 2 ^ 48 % 2 ^ 64 = x % 2 ^ 112 / 2 ^ 48 := fun x => (Nat.mod_mul_right_div_self x (2 ^ 48) (2 ^ 64)).symm
  unfold Clk.time
  rw [htime, htime, h]

/-- The clock with an increment that takes effect, T(C) as before. -/
def Clk.rebase (c : Clk) (inc : Nat) : Clk :=
  { c with inc := inc, off := (c.off + c.count * c.inc + 2 ^ 112 * (c.count * inc / 2 ^ 112 + 1) - c.count * inc) % 2 ^ 112, lastCorr := c.count }

theorem Clk.rebase_time (c : Clk) (inc : Nat) : (c.rebase inc).time = c.time :=
  Clk.time_congr (rebase_mod (2 ^ 112) (c.off + c.count * c.inc) (c.count * inc) (by decide))

/-- The registers that show a rate. -/
def rateWrites (v : Nat) : List (Field × Nat × Nat) :=
  [(Reg.TIM_INC_HI.frac_hi, 0, v % 2 ^ 32), (Reg.TIM_INC_HI.int, 0, v % 2 ^ 32 / 2 ^ 16)]

/-- The registers show a rate, and the write is counted. -/
def State.showRate (s : State) (v : Nat) : State := (s.wrAll (rateWrites v)).count Reg.TIM_CORR_CNT.rate_writes 0

/-- What RATE_WRITE names as the increment. -/
def State.rateAsked (s : State) (v : Nat) : Nat := v % 2 ^ 32 * 2 ^ 32 + s.rd Reg.TIM_INC_LO.frac_lo 0

theorem exec_rateWrite {s : State} (hup : HostUp s) (v : Nat) (hlow : 319936 * 2 ^ 48 ≤ s.rateAsked v * 10000)
    (hhigh : s.rateAsked v * 10000 ≤ 320064 * 2 ^ 48) :
    exec (.rateWrite v) s = .next (s.mirrorOf (({ s with clk := s.clk.rebase (s.rateAsked v) } : State).showRate v)) := by
  unfold State.rateAsked at *
  change execRateWrite v s = _
  unfold execRateWrite
  rw [byHost_up hup]
  dsimp only
  rw [if_neg (not_or.mpr ⟨Nat.not_lt.mpr hlow, Nat.not_lt.mpr hhigh⟩)]
  rfl

theorem exec_rateWrite_outside {s : State} (hup : HostUp s) (v : Nat)
    (h : s.rateAsked v * 10000 < 319936 * 2 ^ 48 ∨ 320064 * 2 ^ 48 < s.rateAsked v * 10000) :
    exec (.rateWrite v) s = .next (s.mirrorOf ((s.wr Reg.TIM_INC_LO.frac_lo 0 s.clk.inc).rejectWrite 0x401C)) := by
  unfold State.rateAsked at *
  change execRateWrite v s = _
  unfold execRateWrite
  rw [byHost_up hup]
  dsimp only
  rw [if_pos h]
  rfl

theorem State.showRate_effect {s : State} (hs : tabWf 0 s.regs = true) (v : Nat) :
    let t := s.showRate v
    t.rd Reg.TIM_INC_HI.frac_hi 0 = v % 2 ^ 16 ∧ t.rd Reg.TIM_INC_HI.int 0 = v / 2 ^ 16 % 2 ^ 16
      ∧ t.rd Reg.TIM_CORR_CNT.rate_writes 0 = min (s.rd Reg.TIM_CORR_CNT.rate_writes 0 + 1) 65535
      ∧ Wrote [(Reg.TIM_INC_HI.frac_hi, 0), (Reg.TIM_INC_HI.int, 0), (Reg.TIM_CORR_CNT.rate_writes, 0)] s t ∧ Keeps 0x10 s t := by
  intro t
  have hwrote := State.wrAll_wrote hs (rateWrites v)
  have hread := State.rd_wrAll [Reg.TIM_INC_HI.frac_hi, Reg.TIM_INC_HI.int] (l := rateWrites v) rfl (by decide) hs (by simp [rateWrites])
  have hfrac := hread (Reg.TIM_INC_HI.frac_hi, 0, v % 2 ^ 32) (by simp [rateWrites])
  have hint := hread (Reg.TIM_INC_HI.int, 0, v % 2 ^ 32 / 2 ^ 16) (by simp [rateWrites])
  have hcount : Wrote [(Reg.TIM_CORR_CNT.rate_writes, 0)] (s.wrAll (rateWrites v)) t := (Wrote.refl hwrote.wf).count List.mem_cons_self
  refine ⟨(hcount.rd ⟨by decide, by decide, by decide⟩).trans (hfrac.trans (Nat.mod_mod_of_dvd _ (show (2 : Nat) ^ 16 ∣ 2 ^ 32 by decide))),
    (hcount.rd ⟨by decide, by decide, by decide⟩).trans (hint.trans ?_), (State.rd_count_self _ _ hwrote.wf).trans ?_,
    (hwrote.mono (m := _) ?_).trans (hcount.mono (by simp)), State.count_keeps (by decide) (State.wrAll_keeps (by decide) _ (.refl s))⟩
  · change v % 2 ^ 32 / 2 ^ 16 % 2 ^ 16 = v / 2 ^ 16 % 2 ^ 16
    omega
  · have hkept : Wrote [(Reg.TIM_INC_HI.frac_hi, 0), (Reg.TIM_INC_HI.int, 0)] s (s.wrAll (rateWrites v)) := hwrote
    rw [hkept.rd (f := Reg.TIM_CORR_CNT.rate_writes) (i := 0) ⟨by decide, by decide, by decide⟩]
    rfl
  · intro p hp
    exact List.mem_append_left [(Reg.TIM_CORR_CNT.rate_writes, 0)] hp

/-! ### The reference clock and the snapshot -/

theorem exec_refFallback {s : State} (h : s.flag Reg.TIM_STAT.ref_lost 0 = false) : exec .refFallback s
    = .next ((s.wrAll [(Reg.TIM_STAT.ref_lost, 0, 1), (Reg.PWR_CLK_STAT.ref_present, 0, 0), (Reg.PWR_CLK_STAT.fallback, 0, 1)]).raise
        0x509 0 s.clk.count) := by
  change execRefFallback s = _
  unfold execRefFallback
  rw [if_neg (by rw [h]; exact Bool.false_ne_true)]
  rfl

theorem exec_refFallback_known {s : State} (h : s.flag Reg.TIM_STAT.ref_lost 0 = true) : exec .refFallback s = .next s := by
  change execRefFallback s = _
  unfold execRefFallback
  rw [if_pos h]

/-- The registers that show a reference. -/
def presentWrites : List (Field × Nat × Nat) :=
  [(Reg.TIM_STAT.ref_lost, 0, 0), (Reg.PWR_CLK_STAT.ref_present, 0, 1), (Reg.PWR_CLK_STAT.fallback, 0, 0)]

theorem exec_refRestored (s : State) : exec .refRestored s = .next (s.wrAll presentWrites) := rfl

/-- The registers of a snapshot of C and T. -/
def snapWrites (c x : Nat) : List (Field × Nat × Nat) :=
  [(Reg.TIM_SNAP_CNT_LO.c_lo, 0, c), (Reg.TIM_SNAP_CNT_HI.c_hi, 0, c / 2 ^ 32), (Reg.TIM_SNAP_TIME_LO.t_lo, 0, x),
   (Reg.TIM_SNAP_TIME_HI.t_hi, 0, x / 2 ^ 32)]

theorem exec_timSnap {s : State} (hup : HostUp s) : exec .timSnap s = .next (s.wrAll (snapWrites s.clk.count s.now)) := by
  change execTimSnap s = _
  unfold execTimSnap
  rw [byHost_up hup]
  generalize s.now = x
  generalize s.clk.count = c
  rfl

/-! ### The alarm (R366) -/

theorem exec_alarmArm {s : State} (hup : HostUp s) : exec .alarmArm s
    = .next { s.wr Reg.TIM_ALARM_CTRL.arm 0 1 with clk := { s.clk with armedAt := s.clk.count } } := by
  change execAlarmArm s = _
  unfold execAlarmArm
  rw [byHost_up hup]

/-- The time that TIM_ALARM holds. -/
def State.alarmTime (s : State) : Nat := s.rdPair Reg.TIM_ALARM_LO.at_lo Reg.TIM_ALARM_HI.at_hi 0

/-- The first cycle that reaches TIM_ALARM and comes after the arming. -/
def State.alarmDue (s : State) : State := (s.reachTime s.alarmTime).reachCycle (s.clk.armedAt + 1)

/-- The alarm disarms and is reported. -/
def State.alarmRaise (s : State) (x : Nat) : State := (s.wr Reg.TIM_ALARM_CTRL.arm 0 0).raise 0x508 0 x

theorem exec_alarm_idle {s : State} (h : s.flag Reg.TIM_ALARM_CTRL.arm 0 = false) : exec .alarm s = .next s := by
  change execAlarm s = _
  unfold execAlarm
  rw [if_pos (by rw [h]; rfl)]

/-- What the alarm's registers hold, a release leaves. -/
theorem FabricWrote.alarmTime {s t : State} (h : FabricWrote s t) : t.alarmTime = s.alarmTime := by
  unfold State.alarmTime State.rdPair
  rw [h.rd (by decide) (by decide) (by decide), h.rd (by decide) (by decide) (by decide)]

theorem State.alarmRaise_effect {s : State} (hs : Sound s) (x : Nat) :
    let t := s.alarmRaise x
    t.rd Reg.TIM_ALARM_CTRL.arm 0 = 0 ∧ Reports s t 0x508 0 x ∧ Only eventParts s t
      ∧ Wrote ((Reg.TIM_ALARM_CTRL.arm, 0) :: eventRegs) s t ∧ Keeps 0x512 s t := by
  intro t
  obtain ⟨hreports, hwrote, hread⟩ := State.raise_after [Reg.TIM_ALARM_CTRL.arm] (l := [(Reg.TIM_ALARM_CTRL.arm, 0, 0)])
    (u := s.wr Reg.TIM_ALARM_CTRL.arm 0 0) (code := 0x508) rfl (by decide) hs.regs (by simp) rfl rfl rfl rfl (by decide) 0 x
  have hkeeps : Keeps 0x512 s t := State.raise_keeps (by decide) (State.wr_keeps (by decide) (.refl s))
  exact ⟨hread (Reg.TIM_ALARM_CTRL.arm, 0, 0) List.mem_cons_self, hreports, hkeeps.only (by decide), hwrote, hkeeps⟩

theorem State.alarmDue_wrote {s : State} (hs : tabWf 0 s.regs = true) : FabricWrote s s.alarmDue :=
  ((FabricWrote.refl hs).reachTime _).reachCycle _

theorem State.alarmDue_keeps (s : State) : Keeps 0x9005b2 s s.alarmDue :=
  State.reachCycle_keeps (by decide) (State.reachTime_keeps (by decide) (.refl s))

theorem State.alarmDue_idle {s : State} (h : s.fab.again = []) : ∃ c, s.alarmDue = { s with clk := c } := by
  unfold State.alarmDue State.reachTime
  rw [State.reachCycle_idle h]
  generalize Clk.mk _ _ _ _ _ _ _ _ _ _ _ _ = c
  rw [State.reachCycle_idle (s := { s with clk := c }) h]
  exact ⟨_, rfl⟩

theorem exec_alarm {s : State} (hs : tabWf 0 s.regs = true) (h : s.flag Reg.TIM_ALARM_CTRL.arm 0 = true) :
    exec .alarm s = .next (if (s.alarmDue.alarmRaise s.alarmTime).flag Reg.TIM_ALARM_CTRL.rel_en 0 = true then
      (s.alarmDue.alarmRaise s.alarmTime).hostRelease ((s.alarmDue.alarmRaise s.alarmTime).rd Reg.TIM_ALARM_CTRL.graph 0)
      else s.alarmDue.alarmRaise s.alarmTime) := by
  have htime := (State.alarmDue_wrote hs).alarmTime
  change execAlarm s = _
  unfold execAlarm
  rw [if_neg (by rw [h]; exact Bool.false_ne_true)]
  rw [← htime]
  unfold State.alarmRaise State.alarmDue State.alarmTime
  rfl

end Sys2Proof.Machine

namespace Sys2Proof.Proofs

open Sys2Proof Sys2Proof.Machine Sys2Proof.Safety

/-- Settles O45: the rate by `Clk.rebase_time` and `State.showRate_effect`, the alarm by `State.alarmRaise_effect` and what a release may
write (`FabricWrote`). -/
theorem stationTimeBase : Obligations.StationTimeBase := by
  intro s hs lo at_ due
  have hdue : due = s.alarmDue := rfl
  have hwrote := State.alarmDue_wrote hs.regs
  have hkeeps := State.alarmDue_keeps s
  refine ⟨fun hagain => ?clock, fun v hup hlow hhigh => ?rate, fun v hup hout => ?outside, fun hfound => ?lost, fun hknown => exec_refFallback_known hknown,
    ?restored, fun hup => ?snap, fun hup => ?arm, fun harm hoff => ?alarm, fun e harm hon hagain hentry hen htrigger hheld huse hidle hflow hroom =>
      ?release, exec_alarm_idle⟩
  case clock =>
    obtain ⟨c, hc⟩ := State.alarmDue_idle hagain
    rw [hdue, hc]
    exact State.only_clk s c
  case rate =>
    have hexec := exec_rateWrite hup v hlow hhigh
    have htime := s.clk.rebase_time (s.rateAsked v)
    have hoff : (s.clk.rebase (s.rateAsked v)).off < 2 ^ 112 := Nat.mod_lt _ (by decide)
    have hinc : (s.clk.rebase (s.rateAsked v)).inc = s.rateAsked v := rfl
    have hcount : (s.clk.rebase (s.rateAsked v)).count = s.clk.count := rfl
    have hgrid : (s.clk.rebase (s.rateAsked v)).grid = s.clk.grid := rfl
    generalize s.clk.rebase (s.rateAsked v) = c at *
    obtain ⟨hfrac, hint, hwrites, hregs, hkept⟩ := State.showRate_effect (s := { s with clk := c }) hs.regs v
    have hclk : (State.showRate { s with clk := c } v).clk = c := hkept.clk.get (by decide)
    generalize State.showRate { s with clk := c } v = u at *
    have honly : Only [.regs, .clk] s u := only_trans (only_mono (by simp) (State.only_clk s c)) (hkept.only (by decide))
    have hmirror : (s.mirrorOf u).clk = c := (State.mirrorOf_clk s u).trans hclk
    refine ⟨_, hexec, ?_, ?_, ?_, ?_, ?_, State.rd_mirrorOf.trans hfrac, State.rd_mirrorOf.trans hint, State.rd_mirrorOf.trans hwrites,
      State.mirrorOf_only honly, regsBut_mirrorOf (hregs.but)⟩
    · rw [hmirror, hinc]
      rfl
    · unfold State.now
      rw [hmirror, htime]
    · rw [hmirror, hcount]
    · rw [hmirror, hgrid]
    · rw [hmirror]
      exact hoff
  case outside =>
    have hexec := exec_rateWrite_outside hup v hout
    have hlo : Wrote [(Reg.TIM_INC_LO.frac_lo, 0)] s (s.wr Reg.TIM_INC_LO.frac_lo 0 s.clk.inc) := (Wrote.refl hs.regs).wr _ List.mem_cons_self
    obtain ⟨hcount, hreports, honly, hregs⟩ := State.rejectWrite_effect 0x401C hlo.wf
    have hread : (s.wr Reg.TIM_INC_LO.frac_lo 0 s.clk.inc).rd Reg.TIM_INC_LO.frac_lo 0 = s.clk.inc % 2 ^ 32 := State.rd_wr_self _ _ _ hs.regs
    have hreject : Keeps 0x512 s ((s.wr Reg.TIM_INC_LO.frac_lo 0 s.clk.inc).rejectWrite 0x401C) :=
      State.rejectWrite_keeps (by decide) (State.wr_keeps (by decide) (.refl s))
    refine ⟨_, hexec, (State.mirrorOf_clk s _).trans (hreject.clk.get (by decide)), ?_, ?_, ?_, State.mirrorOf_only (hreject.only (by decide)),
      regsBut_mirrorOf (regsBut_trans (regsBut_mono (by simp) hlo.but) (regsBut_mono (fun p hp => List.mem_cons_of_mem _ hp) hregs))⟩
    · exact State.rd_mirrorOf.trans ((hregs _ _ (by decide)).trans hread)
    · rw [State.rd_mirrorOf, hcount, hlo.rd ⟨by decide, by decide, by decide⟩]
    · exact reports_then (reports_from hreports rfl rfl rfl (hlo.rd ⟨by decide, by decide, by decide⟩)) (State.mirrorOf_evq s _)
  case lost =>
    obtain ⟨hreports, hall, hread⟩ := State.raise_after [Reg.TIM_STAT.ref_lost, Reg.PWR_CLK_STAT.ref_present, Reg.PWR_CLK_STAT.fallback]
      (l := [(Reg.TIM_STAT.ref_lost, 0, 1), (Reg.PWR_CLK_STAT.ref_present, 0, 0), (Reg.PWR_CLK_STAT.fallback, 0, 1)])
      (u := s.wrAll [(Reg.TIM_STAT.ref_lost, 0, 1), (Reg.PWR_CLK_STAT.ref_present, 0, 0), (Reg.PWR_CLK_STAT.fallback, 0, 1)]) (code := 0x509)
      rfl (by decide) hs.regs (by simp) rfl rfl rfl rfl (by decide) 0 s.clk.count
    exact ⟨_, exec_refFallback hfound, hread (Reg.TIM_STAT.ref_lost, 0, 1) (by simp), hread (Reg.PWR_CLK_STAT.ref_present, 0, 0) (by simp),
      hread (Reg.PWR_CLK_STAT.fallback, 0, 1) (by simp), hreports,
      (State.raise_keeps (M := 0x512) (by decide) (State.wrAll_keeps (by decide) _ (.refl s))).only (by decide), hall.but⟩
  case restored =>
    have hread := State.rd_wrAll [Reg.TIM_STAT.ref_lost, Reg.PWR_CLK_STAT.ref_present, Reg.PWR_CLK_STAT.fallback]
      (l := presentWrites) rfl (by decide) hs.regs (by simp [presentWrites])
    exact ⟨_, exec_refRestored s, hread (Reg.TIM_STAT.ref_lost, 0, 0) (by simp [presentWrites]),
      hread (Reg.PWR_CLK_STAT.ref_present, 0, 1) (by simp [presentWrites]), hread (Reg.PWR_CLK_STAT.fallback, 0, 0) (by simp [presentWrites]),
      (State.wrAll_keeps (M := 0x10) (by decide) presentWrites (.refl s)).only (by decide), (State.wrAll_wrote hs.regs presentWrites).but⟩
  case snap =>
    have hexec := exec_timSnap hup
    generalize s.now = x at *
    generalize s.clk.count = c at *
    have hread := State.rd_wrAll [Reg.TIM_SNAP_CNT_LO.c_lo, Reg.TIM_SNAP_CNT_HI.c_hi, Reg.TIM_SNAP_TIME_LO.t_lo, Reg.TIM_SNAP_TIME_HI.t_hi]
      (l := snapWrites c x) rfl (by decide) hs.regs (by simp [snapWrites])
    exact ⟨_, hexec, hread (Reg.TIM_SNAP_CNT_LO.c_lo, 0, c) (by simp [snapWrites]),
      hread (Reg.TIM_SNAP_CNT_HI.c_hi, 0, c / 2 ^ 32) (by simp [snapWrites]), hread (Reg.TIM_SNAP_TIME_LO.t_lo, 0, x) (by simp [snapWrites]),
      hread (Reg.TIM_SNAP_TIME_HI.t_hi, 0, x / 2 ^ 32) (by simp [snapWrites]),
      (State.wrAll_keeps (M := 0x10) (by decide) _ (.refl s)).only (by decide), (State.wrAll_wrote hs.regs (snapWrites c x)).but⟩
  case arm =>
    refine ⟨_, exec_alarmArm hup, State.rd_wr_self (s := s) _ _ _ hs.regs, rfl, ?_, ((Wrote.refl hs.regs).wr 1 List.mem_cons_self).but⟩
    exact only_trans (only_mono (by simp) (State.wr_only s Reg.TIM_ALARM_CTRL.arm 0 1)) (only_mono (by simp) (State.only_clk _ _))
  case alarm =>
    have hexec := exec_alarm hs.regs harm
    obtain ⟨hdisarmed, hreports, honly, hraised, -⟩ := State.alarmRaise_effect (hkeeps.sound hs) s.alarmTime
    have hrel : (s.alarmDue.alarmRaise s.alarmTime).flag Reg.TIM_ALARM_CTRL.rel_en 0 = false := by
      unfold State.flag at hoff ⊢
      rw [hraised.rd ⟨by decide, by decide, by decide⟩, hwrote.rd (by decide) (by decide) (by decide)]
      exact hoff
    rw [if_neg (by rw [hrel]; exact Bool.false_ne_true)] at hexec
    exact ⟨_, hexec, hdisarmed, hreports, honly, hraised.but⟩
  case release =>
    have hexec := exec_alarm hs.regs harm
    obtain ⟨c, hc⟩ := State.alarmDue_idle hagain
    rw [hdue]
    obtain ⟨hdisarmed, hreports, honly, hraised, hkept⟩ := State.alarmRaise_effect (hkeeps.sound hs) s.alarmTime
    have hsound := hkept.sound (hkeeps.sound hs)
    have hfab : (s.alarmDue.alarmRaise s.alarmTime).fab = s.fab := (hkept.fab.get (by decide)).trans (by rw [hc])
    have hbs : (s.alarmDue.alarmRaise s.alarmTime).bs = s.bs := (hkept.bs.get (by decide)).trans (by rw [hc])
    have hred : (s.alarmDue.alarmRaise s.alarmTime).red = s.red := (hkept.red.get (by decide)).trans (by rw [hc])
    have hfrom : Wrote ((Reg.TIM_ALARM_CTRL.arm, 0) :: eventRegs) s (s.alarmDue.alarmRaise s.alarmTime) :=
      Wrote.trans ((Wrote.refl hs.regs).same (by rw [hc])) hraised
    have hflag : (s.alarmDue.alarmRaise s.alarmTime).flag Reg.TIM_ALARM_CTRL.rel_en 0 = true := by
      unfold State.flag at hon ⊢
      rwa [hfrom.rd ⟨by decide, by decide, by decide⟩]
    rw [if_pos hflag, hfrom.rd (f := Reg.TIM_ALARM_CTRL.graph) (i := 0) ⟨by decide, by decide, by decide⟩] at hexec
    have hgraph := BitStream.graphEntry_graph hentry
    have hdone : ∀ n, (s.alarmDue.alarmRaise s.alarmTime).graph n = s.graph n := fun n => by unfold State.graph; rw [hfab]
    have husable : (s.alarmDue.alarmRaise s.alarmTime).graphUsable e = true := by
      have hengine : ∀ n, (s.alarmDue.alarmRaise s.alarmTime).engineUsable n = s.engineUsable n := fun n => by
        unfold State.engineUsable State.domain State.flag
        rw [hfrom.rd ⟨by decide, by decide, by decide⟩, hfrom.rd_above (f := Reg.FAB_ENG_CTRL.park) n (by decide)]
      unfold State.graphUsable at huse ⊢
      rwa [funext hengine]
    have hspace : (s.alarmDue.alarmRaise s.alarmTime).hasSpace e = true := by
      unfold State.hasSpace State.queue at hroom ⊢
      rwa [hfab, hbs]
    have hfree : (s.alarmDue.alarmRaise s.alarmTime).graphBusy (s.rd Reg.TIM_ALARM_CTRL.graph 0) = false := by
      unfold State.graphBusy State.job State.waiting at hidle ⊢
      rwa [hfab]
    generalize s.alarmDue.alarmRaise s.alarmTime = w at *
    rw [← hbs] at hentry
    rw [← hdone] at hen
    rw [← hred] at hheld
    rw [State.hostRelease_host hentry hen htrigger, State.releaseGraph_usable hentry hen hheld husable, if_neg (Bool.eq_false_iff.mp hfree),
      State.tryStart_free hflow hspace] at hexec
    obtain ⟨hjobs, -, hstarted, -, hgraphs, -, hpub, -, -, -, hstart, hregs⟩ := State.activate_effect hsound
      (w := ⟨e, w.clk.count, if e.rt then some (w.clk.count + e.cycles (w.rd Reg.EPO_LEN.cycles 0)) else none, false⟩) hflow
    have hactive := (FabricWrote.refl hsound.regs).activate
      ⟨e, w.clk.count, if e.rt then some (w.clk.count + e.cycles (w.rd Reg.EPO_LEN.cycles 0)) else none, false⟩
    generalize w.activate _ = t at *
    dsimp only at hjobs hstarted hgraphs hregs
    rw [hgraph] at hstarted hgraphs hregs
    refine ⟨t, hexec, (hactive.rd (by decide) (by decide) (by decide)).trans hdisarmed, ?_, ?_, ?_, fun n hn => (hgraphs n hn).trans (hdone n), ?_,
      ?_, ?_⟩
    · exact reports_then hreports (hstart .evq (by decide))
    · rw [hjobs, List.length_append, hfab]
      rfl
    · exact (congrArg GraphRt.state hstarted).trans (if_pos hen)
    · have hpts : w.pts = s.pts := (hkept.pts.get (by decide)).trans (by rw [hc])
      rw [hpub, hpts]
    · exact only_trans (only_mono (fun _ => List.mem_append_right _) honly) (only_mono (by simp [eventParts]) hstart)
    · refine regsBut_trans (regsBut_mono ?_ hfrom.but) (regsBut_mono ?_ hregs)
      · intro p hp
        rcases List.mem_cons.mp hp with rfl | hp
        · exact List.mem_cons_self
        · exact List.mem_cons_of_mem _ (List.mem_cons_of_mem _ hp)
      · intro p hp
        rw [List.mem_singleton.mp hp]
        exact List.mem_cons_of_mem _ List.mem_cons_self

end Sys2Proof.Proofs

/-! ## Time quality and PPS (R361 to R364) -/

namespace Sys2Proof.Machine

open Sys2Proof.Safety

/-! ### The quality (R364) -/

/-- What a change to quality n shows (R364). -/
def QualityBecomes (s t : State) (n : Nat) : Prop :=
  t.rd Reg.TIM_STAT.quality 0 = n
    ∧ (s.rd Reg.TIM_STAT.quality 0 ≠ n →
      (tabGet Cond.clear t.conds 240).level = false ∧ Reports s t 0x500 0 (n + 16 * s.rd Reg.TIM_STAT.quality 0))
    ∧ (s.rd Reg.TIM_STAT.quality 0 = n → t.evq = s.evq ∧ t.conds = s.conds)
    ∧ (∀ c, c ≠ 240 → tabGet Cond.clear t.conds c = tabGet Cond.clear s.conds c)
    ∧ t.clk = { s.clk with lockedAt := if n = 2 ∧ s.rd Reg.TIM_STAT.quality 0 ≠ 2 then s.clk.count else s.clk.lockedAt }
    ∧ Only ([.conds, .clk] ++ eventParts) s t

/-- An event on a state whose queue, epoch, time and mask are those of s is reported from s. -/
theorem reports_at {s u t : State} {code inst data : Nat} (h : Reports u t code inst data) (hevq : u.evq = s.evq) (hk : u.epo.k = s.epo.k)
    (hnow : u.now = s.now) (hmask : u.rd Reg.EPO_EV_MASK.range_en 0 = s.rd Reg.EPO_EV_MASK.range_en 0) : Reports s t code inst data := by
  unfold Reports State.bitAt at *
  rwa [hevq, hk, hnow, hmask] at h

/-- The quality is written, condition 240 follows, and the event is raised. -/
def State.showQuality (s : State) (n old : Nat) : State :=
  ((s.wrAll [(Reg.TIM_STAT.quality, 0, n)]).setCond 240 (n == 4)).raise 0x500 0 (n + 16 * old)

theorem State.showQuality_effect {s : State} (hs : Sound s) {n : Nat} (hn : n < 4) (old : Nat) :
    let t := s.showQuality n old
    t.rd Reg.TIM_STAT.quality 0 = n ∧ (tabGet Cond.clear t.conds 240).level = false ∧ Reports s t 0x500 0 (n + 16 * old)
      ∧ (∀ c, c ≠ 240 → tabGet Cond.clear t.conds c = tabGet Cond.clear s.conds c) ∧ t.clk = s.clk ∧ Only (.conds :: eventParts) s t
      ∧ Wrote ((Reg.TIM_STAT.quality, 0) :: eventRegs) s t := by
  intro t
  obtain ⟨hreports, hwrote, hread⟩ := State.raise_after [Reg.TIM_STAT.quality] (l := [(Reg.TIM_STAT.quality, 0, n)])
    (u := (s.wrAll [(Reg.TIM_STAT.quality, 0, n)]).setCond 240 (n == 4)) (code := 0x500) rfl (by decide) hs.regs (by simp) rfl rfl rfl rfl
    (by decide) 0 (n + 16 * old)
  have hkeeps : Keeps 0x1512 s t := State.raise_keeps (by decide) (State.setCond_keeps (by decide) (State.wrAll_keeps (by decide) _ (.refl s)))
  have hconds : t.conds = tabMod Cond.clear s.conds 240 (fun c => { c with level := n == 4 }) := State.raise_conds _ _ _ _
  have hcond : ∀ c, tabGet Cond.clear t.conds c = _ := fun c => (congrArg (tabGet Cond.clear · c) hconds).trans (tabGet_tabSet hs.conds)
  refine ⟨(hread (Reg.TIM_STAT.quality, 0, n) List.mem_cons_self).trans (Nat.mod_eq_of_lt (Nat.lt_of_lt_of_le hn (show 4 ≤ 2 ^ 3 by decide))), ?_, hreports,
    fun c hc => (hcond c).trans (if_neg hc), hkeeps.clk.get (by decide), hkeeps.only (by decide), hwrote⟩
  rw [hcond, if_pos rfl]
  exact beq_false_of_ne (Nat.ne_of_lt hn)

theorem State.setQuality_effect {s : State} (hs : Sound s) {n : Nat} (hn : n < 4) :
    QualityBecomes s (s.setQuality n) n ∧ Wrote ((Reg.TIM_STAT.quality, 0) :: eventRegs) s (s.setQuality n) := by
  have hsame : s.rd Reg.TIM_STAT.quality 0 = n → s.setQuality n = s := fun h => if_pos h.symm
  have hlocked : s.rd Reg.TIM_STAT.quality 0 ≠ n → s.setQuality n
      = (if n = 2 then { s with clk := { s.clk with lockedAt := s.clk.count } } else s).showQuality n (s.rd Reg.TIM_STAT.quality 0) := by
    intro h
    unfold State.setQuality
    dsimp only
    rw [if_neg (Ne.symm h)]
    rfl
  by_cases hq : s.rd Reg.TIM_STAT.quality 0 = n
  · rw [hsame hq]
    refine ⟨⟨hq, fun h => absurd hq h, fun _ => ⟨rfl, rfl⟩, fun _ _ => rfl, ?_, only_refl _ _⟩, .refl hs.regs⟩
    rw [if_neg (fun h => h.2 (hq.trans h.1))]
  · rw [hlocked hq]
    generalize hold : s.rd Reg.TIM_STAT.quality 0 = old at hq
    by_cases h2 : n = 2
    · rw [if_pos h2]
      obtain ⟨hread, hlevel, hreports, hconds, hclk, honly, hwrote⟩ :=
        State.showQuality_effect (s := { s with clk := { s.clk with lockedAt := s.clk.count } }) { hs with } hn old
      refine ⟨⟨hread, fun _ => ⟨hlevel, ?_⟩, fun h => absurd (hold.symm.trans h) hq, hconds, ?_, ?_⟩, ((Wrote.refl hs.regs).same (u := { s with clk := { s.clk with lockedAt := s.clk.count } }) rfl).trans hwrote⟩
      · rw [hold]
        exact reports_at hreports rfl rfl rfl rfl
      · rw [hclk, hold, if_pos ⟨h2, fun h => hq (h.trans h2.symm)⟩]
      · exact only_trans (only_mono (by simp) (State.only_clk s _)) (only_mono (by simp [eventParts]) honly)
    · rw [if_neg h2]
      obtain ⟨hread, hlevel, hreports, hconds, hclk, honly, hwrote⟩ := State.showQuality_effect hs hn old
      refine ⟨⟨hread, fun _ => ⟨hlevel, ?_⟩, fun h => absurd (hold.symm.trans h) hq, hconds, ?_, only_mono (by simp [eventParts]) honly⟩, hwrote⟩
      · rw [hold]
        exact hreports
      · rw [hclk, if_neg (fun h => h2 h.1)]

/-- A command that is accepted: the quality, behind its status. -/
theorem State.quality_accepted {s : State} (hs : Sound s) {n : Nat} (hn : n < 4) :
    let t := (s.wr Reg.TIM_STAT.cmd_status 0 1).setQuality n
    QualityBecomes s t n ∧ t.rd Reg.TIM_STAT.cmd_status 0 = 1
      ∧ RegsBut ([(Reg.TIM_STAT.quality, 0), (Reg.TIM_STAT.cmd_status, 0)] ++ eventRegs) s t := by
  intro t
  have hstatus : Wrote [(Reg.TIM_STAT.cmd_status, 0)] s (s.wr Reg.TIM_STAT.cmd_status 0 1) := (Wrote.refl hs.regs).wr _ List.mem_cons_self
  have hkeeps : Keeps 0x10 s (s.wr Reg.TIM_STAT.cmd_status 0 1) := State.wr_keeps (by decide) (.refl s)
  obtain ⟨⟨hread, hchange, hstays, hconds, hclk, honly⟩, hwrote⟩ := State.setQuality_effect (hkeeps.sound hs) hn
  have hquality : (s.wr Reg.TIM_STAT.cmd_status 0 1).rd Reg.TIM_STAT.quality 0 = s.rd Reg.TIM_STAT.quality 0 :=
    hstatus.rd ⟨by decide, by decide, by decide⟩
  rw [hquality] at hchange hstays hclk
  refine ⟨⟨hread, fun h => ⟨(hchange h).1, ?_⟩, hstays, hconds, hclk, ?_⟩, ?_, ?_⟩
  · exact reports_at (hchange h).2 rfl rfl rfl (hstatus.rd ⟨by decide, by decide, by decide⟩)
  · exact only_trans (only_mono (by simp [eventParts]) (State.wr_only s Reg.TIM_STAT.cmd_status 0 1)) honly
  · exact (hwrote.rd ⟨by decide, by decide, by decide⟩).trans (State.rd_wr_self _ _ _ hs.regs)
  · refine regsBut_trans (regsBut_mono (by simp) hstatus.but) (regsBut_mono (fun p hp => ?_) hwrote.but)
    rcases List.mem_cons.mp hp with rfl | hp
    · exact List.mem_cons_self
    · exact List.mem_cons_of_mem _ (List.mem_cons_of_mem _ hp)

/-- A command that is refused. -/
theorem State.quality_refused {s : State} (hs : Sound s) :
    let t := s.wr Reg.TIM_STAT.cmd_status 0 2
    t.rd Reg.TIM_STAT.cmd_status 0 = 2 ∧ Only [.regs] s t ∧ RegsBut [(Reg.TIM_STAT.cmd_status, 0)] s t :=
  ⟨State.rd_wr_self _ _ _ hs.regs, State.wr_only s Reg.TIM_STAT.cmd_status 0 2, ((Wrote.refl hs.regs).wr _ List.mem_cons_self).but⟩

theorem State.qualityCommand_taken {s : State} (h : s.rd Reg.TIM_STAT.quality 0 ≠ 4) (n : Nat) :
    s.qualityCommand n = (s.wr Reg.TIM_STAT.cmd_status 0 1).setQuality n := if_neg h

theorem State.qualityCommand_suspect {s : State} (h : s.rd Reg.TIM_STAT.quality 0 = 4) (n : Nat) :
    s.qualityCommand n = s.wr Reg.TIM_STAT.cmd_status 0 2 := if_pos h

theorem exec_qualFreeRun {s : State} (hup : HostUp s) : exec .qualFreeRun s = .next (s.qualityCommand 1) :=
  byHost_up hup (fun s => .next (s.qualityCommand 1))

theorem exec_qualLocked {s : State} (hup : HostUp s) : exec .qualLocked s = .next (s.qualityCommand 2) :=
  byHost_up hup (fun s => .next (s.qualityCommand 2))

theorem exec_qualHoldover {s : State} (hup : HostUp s) : exec .qualHoldover s = .next (s.qualityCommand 3) :=
  byHost_up hup (fun s => .next (s.qualityCommand 3))

theorem exec_qualClear {s : State} (hup : HostUp s) (hq : s.rd Reg.TIM_STAT.quality 0 = 4) (hheld : s.rd Reg.TIM_STAT.ptp_held 0 = 0) :
    exec .qualClear s = .next ((s.wr Reg.TIM_STAT.cmd_status 0 1).setQuality 3) := by
  change execQualClear s = _
  unfold execQualClear
  rw [byHost_up hup, if_pos ⟨hq, hheld⟩]

theorem exec_qualClear_refused {s : State} (hup : HostUp s) (h : ¬ (s.rd Reg.TIM_STAT.quality 0 = 4 ∧ s.rd Reg.TIM_STAT.ptp_held 0 = 0)) :
    exec .qualClear s = .next (s.wr Reg.TIM_STAT.cmd_status 0 2) := by
  change execQualClear s = _
  unfold execQualClear
  rw [byHost_up hup, if_neg h]

theorem exec_holdoverWatch {s : State} (hq : s.rd Reg.TIM_STAT.quality 0 = 2) (hms : s.rd Reg.TIM_QUAL_WATCH.ms 0 ≠ 0) :
    exec .holdoverWatch s
      = .next ((s.reachCycle (max s.clk.lastCorr s.clk.lockedAt + s.rd Reg.TIM_QUAL_WATCH.ms 0 * 400000)).setQuality 3) := by
  change execHoldoverWatch s = _
  unfold execHoldoverWatch
  rw [if_pos ⟨hq, hms⟩]

theorem exec_holdoverWatch_idle {s : State} (h : s.rd Reg.TIM_STAT.quality 0 ≠ 2 ∨ s.rd Reg.TIM_QUAL_WATCH.ms 0 = 0) :
    exec .holdoverWatch s = .next s := by
  change execHoldoverWatch s = _
  unfold execHoldoverWatch
  rw [if_neg]
  rintro ⟨hq, hms⟩
  exact h.elim (fun h => h hq) (fun h => hms h)

/-- A cycle that has come moves no counter. -/
theorem State.reachCycle_come {s : State} {c : Nat} (h : c ≤ s.clk.count) : s.reachCycle c = s := if_neg (Nat.not_lt.mpr h)

theorem State.reachCycle_clk {s : State} (h : s.fab.again = []) (c : Nat) : Only [.clk] s (s.reachCycle c) := by
  rw [State.reachCycle_idle h]
  exact State.only_clk s _

/-- A cycle that is reached moves the counter alone of the clock. -/
theorem State.reachCycle_counter (s : State) (c : Nat) : ∃ n, (s.reachCycle c).clk = { s.clk with count := n } := by
  unfold State.reachCycle
  split
  · have hkeeps : Keeps 0x900592 { s with clk := { s.clk with count := c % 2 ^ 64 } }
        ({ s with clk := { s.clk with count := c % 2 ^ 64 } } : State).lateReleases := State.lateReleases_keeps (by decide) (.refl _)
    exact ⟨c % 2 ^ 64, hkeeps.clk.get (by decide)⟩
  · exact ⟨s.clk.count, rfl⟩

/-! ### PPS input (R361) -/

/-- The registers that show the edge stamped `x`. -/
def ppsWrites (x edges : Nat) : List (Field × Nat × Nat) :=
  [(Reg.TIM_PPS_IN_LO.stamp_lo, 0, x), (Reg.TIM_PPS_IN_HI.stamp_hi, 0, x / 2 ^ 32), (Reg.TIM_PPS_IN_ERR.err, 0, wrapInt 32 (secondError x)),
   (Reg.TIM_PPS_CNT.edges, 0, edges)]

/-- The fields of `ppsWrites`. -/
abbrev ppsFields : List Field :=
  [Reg.TIM_PPS_IN_LO.stamp_lo, Reg.TIM_PPS_IN_HI.stamp_hi, Reg.TIM_PPS_IN_ERR.err, Reg.TIM_PPS_CNT.edges]

/-- The stamp of an edge at `phi`. -/
def State.ppsStamp (s : State) (phi : Nat) : Nat := timePlus (s.stamp phi) (signedOf 16 (s.rd Reg.TIM_PPS_ADJ.inp 0))

/-- The clock after an edge. -/
def Clk.ppsSeen (c : Clk) : Clk := { c with ppsMissing := false, ppsAt := some c.count }

/-- What an edge stamped `x` shows. -/
def State.ppsShow (s : State) (x : Nat) : State :=
  ({ s with clk := s.clk.ppsSeen } : State).wrAll (ppsWrites x (min (s.rd Reg.TIM_PPS_CNT.edges 0 + 1) 4095))

/-- The registers of an edge's stamp. -/
def ppsStamps (x : Nat) : List (Field × Nat × Nat) :=
  [(Reg.TIM_PPS_IN_LO.stamp_lo, 0, x), (Reg.TIM_PPS_IN_HI.stamp_hi, 0, x / 2 ^ 32), (Reg.TIM_PPS_IN_ERR.err, 0, wrapInt 32 (secondError x))]

/-- The registers of `ppsWrites`. -/
abbrev ppsRegs : List (Field × Nat) := [(Reg.TIM_PPS_IN_LO.stamp_lo, 0), (Reg.TIM_PPS_IN_HI.stamp_hi, 0), (Reg.TIM_PPS_IN_ERR.err, 0),
  (Reg.TIM_PPS_CNT.edges, 0)]

theorem State.ppsShow_wrote {s : State} (hw : tabWf 0 s.regs = true) (x : Nat) : Wrote ppsRegs s (s.ppsShow x) :=
  ((Wrote.refl hw).same (u := { s with clk := s.clk.ppsSeen }) rfl).wrAll fun _ hp => hp

theorem State.wrAll_count (s : State) (l : List (Field × Nat × Nat)) (f : Field) (i : Nat) (h : (s.wrAll l).rd f i = s.rd f i) :
    (s.wrAll l).count f i = s.wrAll (l ++ [(f, i, min (s.rd f i + 1) (2 ^ f.width - 1))]) := by
  unfold State.count State.add
  rw [h]
  unfold State.wrAll
  rw [List.foldl_append]
  rfl

theorem timePlus_lt (t : Nat) (d : Int) : timePlus t d < 2 ^ 64 := by
  unfold timePlus wrapInt
  omega

theorem ppsStamp_eq (s : State) (phi : Nat) : s.ppsStamp phi
    = ((((s.now + phi * s.clk.inc / 2 ^ 53 : Nat) : Int) + signedOf 16 (s.rd Reg.TIM_PPS_ADJ.inp 0)).emod (2 ^ 64)).toNat := by
  unfold State.ppsStamp timePlus wrapInt State.stamp
  generalize s.now + phi * s.clk.inc / 2 ^ 53 = a
  generalize signedOf 16 (s.rd Reg.TIM_PPS_ADJ.inp 0) = d
  change _ = ((↑a + d) % (2 ^ 64 : Int)).toNat
  omega

theorem wrapInt_secondError (x : Nat) : ((wrapInt 32 (secondError x) % 2 ^ 32 : Nat) : Int)
    = (if 2 * (x % 12800000000) < 12800000000 then ((x % 12800000000 : Nat) : Int) else ((x % 12800000000 : Nat) : Int) - 12800000000).emod (2 ^ 32) := by
  unfold secondError secondUnits wrapInt
  dsimp only
  generalize x % 12800000000 = r
  change _ = (if 2 * r < 12800000000 then (r : Int) else (r : Int) - 12800000000) % (2 ^ 32 : Int)
  generalize (if 2 * r < 12800000000 then (r : Int) else (r : Int) - 12800000000) = e
  omega

theorem exec_ppsInEdge {s : State} (hw : tabWf 0 s.regs = true) {rising : Bool} (phi : Fin 32) (hen : s.flag Reg.TIM_CTRL.pps_in_en 0 = true)
    (hedge : rising = !s.flag Reg.TIM_CTRL.pps_in_edge 0) :
    exec (.ppsInEdge rising phi) s = .next (if s.clk.ppsMissing then (s.ppsShow (s.ppsStamp phi)).raise 0x505 0 (s.rd Reg.TIM_PPS_CNT.missing 0)
      else s.ppsShow (s.ppsStamp phi)) := by
  change execPpsInEdge rising phi s = _
  unfold execPpsInEdge
  rw [if_neg (by rw [hen, hedge]; cases s.flag Reg.TIM_CTRL.pps_in_edge 0 <;> decide)]
  change Host.Outcome.next (let u : State := { ((s.wrAll (ppsStamps (s.ppsStamp phi))).count Reg.TIM_PPS_CNT.edges 0) with clk := s.clk.ppsSeen }
    if s.clk.ppsMissing then u.raise 0x505 0 (u.rd Reg.TIM_PPS_CNT.missing 0) else u) = _
  generalize s.ppsStamp phi = x
  have hthree : Wrote [(Reg.TIM_PPS_IN_LO.stamp_lo, 0), (Reg.TIM_PPS_IN_HI.stamp_hi, 0), (Reg.TIM_PPS_IN_ERR.err, 0)] s (s.wrAll (ppsStamps x)) :=
    State.wrAll_wrote hw (ppsStamps x)
  have hshow : ({ ((s.wrAll (ppsStamps x)).count Reg.TIM_PPS_CNT.edges 0) with clk := s.clk.ppsSeen } : State) = s.ppsShow x := by
    rw [State.wrAll_count s _ _ _ (hthree.rd ⟨by decide, by decide, by decide⟩)]
    rfl
  have hmissing : (s.ppsShow x).rd Reg.TIM_PPS_CNT.missing 0 = s.rd Reg.TIM_PPS_CNT.missing 0 := (State.ppsShow_wrote hw x).rd ⟨by decide, by decide, by decide⟩
  dsimp only
  rw [hshow, hmissing]

theorem exec_ppsInEdge_other {s : State} {rising : Bool} (phi : Fin 32)
    (h : ¬ (s.flag Reg.TIM_CTRL.pps_in_en 0 = true ∧ rising = !s.flag Reg.TIM_CTRL.pps_in_edge 0)) : exec (.ppsInEdge rising phi) s = .next s := by
  change execPpsInEdge rising phi s = _
  unfold execPpsInEdge
  rw [if_pos]
  cases hen : s.flag Reg.TIM_CTRL.pps_in_en 0 with
  | false => rfl
  | true =>
    cases hedge : s.flag Reg.TIM_CTRL.pps_in_edge 0 <;> cases rising <;> simp_all

/-- What is seen of an edge stamped `x`. -/
def PpsSeen (s t : State) (x : Nat) : Prop :=
  t.rd Reg.TIM_PPS_IN_LO.stamp_lo 0 = x % 2 ^ 32 ∧ t.rd Reg.TIM_PPS_IN_HI.stamp_hi 0 = x / 2 ^ 32
    ∧ (t.rd Reg.TIM_PPS_IN_ERR.err 0 : Int)
      = (if 2 * (x % 12800000000) < 12800000000 then ((x % 12800000000 : Nat) : Int) else ((x % 12800000000 : Nat) : Int) - 12800000000).emod (2 ^ 32)
    ∧ t.rd Reg.TIM_PPS_CNT.edges 0 = min (s.rd Reg.TIM_PPS_CNT.edges 0 + 1) 4095
    ∧ RegsBut (ppsRegs ++ eventRegs) s t

theorem ppsSeen_of {s t : State} {x : Nat} (hx : x < 2 ^ 64) (hbut : RegsBut (ppsRegs ++ eventRegs) s t)
    (hread : ∀ p ∈ ppsWrites x (min (s.rd Reg.TIM_PPS_CNT.edges 0 + 1) 4095), t.rd p.1 p.2.1 = p.2.2 % 2 ^ p.1.width) : PpsSeen s t x := by
  have hlo := hread (Reg.TIM_PPS_IN_LO.stamp_lo, 0, x) (by simp [ppsWrites])
  have hhi := hread (Reg.TIM_PPS_IN_HI.stamp_hi, 0, x / 2 ^ 32) (by simp [ppsWrites])
  have herr := hread (Reg.TIM_PPS_IN_ERR.err, 0, wrapInt 32 (secondError x)) (by simp [ppsWrites])
  have hedges := hread (Reg.TIM_PPS_CNT.edges, 0, min (s.rd Reg.TIM_PPS_CNT.edges 0 + 1) 4095) (by simp [ppsWrites])
  refine ⟨hlo, hhi.trans (Nat.mod_eq_of_lt (show x / 2 ^ 32 < 2 ^ 32 by omega)), (congrArg Int.ofNat herr).trans (wrapInt_secondError x), hedges.trans ?_, hbut⟩
  exact Nat.mod_eq_of_lt (Nat.lt_of_le_of_lt (Nat.min_le_right _ _) (show 4095 < 2 ^ 12 by decide))

theorem State.ppsShow_effect {s : State} (hw : tabWf 0 s.regs = true) {x : Nat} (hx : x < 2 ^ 64) :
    PpsSeen s (s.ppsShow x) x ∧ (s.ppsShow x).clk = s.clk.ppsSeen ∧ (s.ppsShow x).evq = s.evq ∧ Only [.regs, .clk] s (s.ppsShow x) := by
  have hkeeps : Keeps 0x10 { s with clk := s.clk.ppsSeen } (s.ppsShow x) := State.wrAll_keeps (by decide) _ (.refl _)
  refine ⟨ppsSeen_of hx (regsBut_mono (fun p hp => List.mem_append_left _ hp) (State.ppsShow_wrote hw x).but) ?_, hkeeps.clk.get (by decide),
    hkeeps.evq.get (by decide), only_trans (only_mono (by simp) (State.only_clk s s.clk.ppsSeen)) (hkeeps.only (by decide))⟩
  exact State.rd_wrAll ppsFields rfl (by decide) (s := { s with clk := s.clk.ppsSeen }) hw (by simp [ppsWrites])

theorem State.ppsShow_raise {s : State} (hw : tabWf 0 s.regs = true) {x : Nat} (hx : x < 2 ^ 64) (n : Nat) :
    let t := (s.ppsShow x).raise 0x505 0 n
    PpsSeen s t x ∧ t.clk = s.clk.ppsSeen ∧ Reports s t 0x505 0 n ∧ Only (.clk :: eventParts) s t := by
  intro t
  have hkeeps : Keeps 0x512 { s with clk := s.clk.ppsSeen } t := State.raise_keeps (by decide) (State.wrAll_keeps (by decide) _ (.refl _))
  obtain ⟨hreports, hwrote, hread⟩ := State.raise_after ppsFields (l := ppsWrites x (min (s.rd Reg.TIM_PPS_CNT.edges 0 + 1) 4095))
    (s := { s with clk := s.clk.ppsSeen }) (u := s.ppsShow x) (code := 0x505) rfl (by decide) hw (by simp [ppsWrites]) rfl rfl rfl rfl (by decide) 0 n
  have hbut : RegsBut (ppsRegs ++ eventRegs) s t := regsBut_trans (regsBut_of_regs rfl) hwrote.but
  exact ⟨ppsSeen_of hx hbut hread, hkeeps.clk.get (by decide), reports_at hreports rfl rfl rfl rfl,
    only_trans (only_mono (by simp) (State.only_clk s s.clk.ppsSeen)) (hkeeps.only (by decide))⟩

/-! ### PPS input missing -/

/-- The edge is counted as missing. -/
def State.ppsCount (s : State) : State := { s.count Reg.TIM_PPS_CNT.missing 0 with clk := { s.clk with ppsMissing := true } }

theorem exec_ppsInMissing {s : State} {c : Nat} (hen : s.flag Reg.TIM_CTRL.pps_in_en 0 = true) (hat : s.clk.ppsAt = some c)
    (hmissing : s.clk.ppsMissing = false) : exec .ppsInMissing s
      = .next ((s.reachCycle (c + 440000000)).ppsCount.raise 0x504 0
          ((s.reachCycle (c + 440000000)).ppsCount.rdPair Reg.TIM_PPS_IN_LO.stamp_lo Reg.TIM_PPS_IN_HI.stamp_hi 0)) := by
  change execPpsInMissing s = _
  unfold execPpsInMissing
  rw [hat]
  dsimp only
  rw [if_neg (by rw [hen, hmissing]; decide)]
  rfl

theorem exec_ppsInMissing_idle {s : State} (h : s.flag Reg.TIM_CTRL.pps_in_en 0 = false ∨ s.clk.ppsAt = none ∨ s.clk.ppsMissing = true) :
    exec .ppsInMissing s = .next s := by
  change execPpsInMissing s = _
  unfold execPpsInMissing
  cases hat : s.clk.ppsAt with
  | none => rfl
  | some c =>
    dsimp only
    rw [if_pos]
    rcases h with h | h | h
    · rw [h]
      rfl
    · rw [hat] at h
      cases h
    · rw [h]
      exact Bool.or_true _

theorem State.ppsCount_effect {s : State} (hw : tabWf 0 s.regs = true) :
    let t := s.ppsCount.raise 0x504 0 (s.ppsCount.rdPair Reg.TIM_PPS_IN_LO.stamp_lo Reg.TIM_PPS_IN_HI.stamp_hi 0)
    t.clk = { s.clk with ppsMissing := true } ∧ t.rd Reg.TIM_PPS_CNT.missing 0 = min (s.rd Reg.TIM_PPS_CNT.missing 0 + 1) 4095
      ∧ Reports s t 0x504 0 (s.rd Reg.TIM_PPS_IN_LO.stamp_lo 0 + 2 ^ 32 * s.rd Reg.TIM_PPS_IN_HI.stamp_hi 0)
      ∧ Only (.clk :: eventParts) s t ∧ RegsBut ((Reg.TIM_PPS_CNT.missing, 0) :: eventRegs) s t := by
  intro t
  have hcount : Wrote [(Reg.TIM_PPS_CNT.missing, 0)] s s.ppsCount := ((Wrote.refl hw).count List.mem_cons_self).same rfl
  have hread : s.ppsCount.rd Reg.TIM_PPS_CNT.missing 0 = min (s.rd Reg.TIM_PPS_CNT.missing 0 + 1) 4095 := State.rd_count_self _ _ hw
  have hdata : s.ppsCount.rdPair Reg.TIM_PPS_IN_LO.stamp_lo Reg.TIM_PPS_IN_HI.stamp_hi 0
      = s.rd Reg.TIM_PPS_IN_LO.stamp_lo 0 + 2 ^ 32 * s.rd Reg.TIM_PPS_IN_HI.stamp_hi 0 := by
    unfold State.rdPair
    rw [hcount.rd ⟨by decide, by decide, by decide⟩, hcount.rd ⟨by decide, by decide, by decide⟩]
    rfl
  have ht : t = s.ppsCount.raise 0x504 0 (s.rd Reg.TIM_PPS_IN_LO.stamp_lo 0 + 2 ^ 32 * s.rd Reg.TIM_PPS_IN_HI.stamp_hi 0) := by rw [← hdata]
  rw [ht]
  generalize s.rd Reg.TIM_PPS_IN_LO.stamp_lo 0 + 2 ^ 32 * s.rd Reg.TIM_PPS_IN_HI.stamp_hi 0 = n
  have hreports : Reports s.ppsCount (s.ppsCount.raise 0x504 0 n) 0x504 0 n := (Wrote.refl (l := []) hcount.wf).reports 0 n (by decide) ⟨by decide, by decide, by decide⟩ rfl rfl rfl
  have hkeeps : Keeps 0x512 s.ppsCount (s.ppsCount.raise 0x504 0 n) := State.raise_keeps (by decide) (.refl _)
  refine ⟨hkeeps.clk.get (by decide), (State.rd_raise hcount.wf _ _ _ (by decide)).trans hread,
    reports_at hreports rfl rfl rfl (hcount.rd ⟨by decide, by decide, by decide⟩), ?_, ?_⟩
  · refine only_trans (only_trans (only_mono ?_ (State.count_only s Reg.TIM_PPS_CNT.missing 0)) (only_mono (by simp) (State.only_clk _ _)))
      (hkeeps.only (by decide))
    simp [eventParts]
  · exact ((hcount.mono (by simp)).raise _ _ _ fun p hp => List.mem_cons_of_mem _ hp).but

/-! ### PPS output (R362, R363) -/

/-- The clock and the pins. -/
theorem State.only_clk_wire (s : State) (c : Clk) (w : List Wire) : Only [.clk, .wire] s { s with clk := c, wire := w } := by
  intro p hp
  cases p with
  | clk => exact absurd List.mem_cons_self hp
  | wire => exact absurd (List.mem_cons_of_mem _ List.mem_cons_self) hp
  | _ => rfl

theorem exec_ppsOutPulse_off {s : State} (h : s.flag Reg.TIM_CTRL.pps_out_en 0 = false) : exec .ppsOutPulse s = .next s := by
  change execPpsOutPulse s = _
  unfold execPpsOutPulse
  rw [if_pos (by rw [h]; rfl)]

/-- What the output does at a boundary that has come. -/
def State.ppsPulse (s : State) : State :=
  if s.clk.ppsOut then s.count Reg.TIM_PPS_CNT.skipped 0
  else if s.flag Reg.TIM_CTRL.pps_out_gate 0 ∧ s.rd Reg.TIM_STAT.quality 0 ≠ 2 then s
  else s.ppsStart

theorem State.ppsPulse_skipped {s : State} (h : s.clk.ppsOut = true) : s.ppsPulse = s.count Reg.TIM_PPS_CNT.skipped 0 := by
  unfold State.ppsPulse
  rw [if_pos h]

theorem State.ppsPulse_gated {s : State} (h : s.clk.ppsOut = false) (hgate : s.flag Reg.TIM_CTRL.pps_out_gate 0 = true)
    (hq : s.rd Reg.TIM_STAT.quality 0 ≠ 2) : s.ppsPulse = s := by
  unfold State.ppsPulse
  rw [if_neg (by rw [h]; decide), if_pos ⟨hgate, hq⟩]

theorem State.ppsPulse_start {s : State} (h : s.clk.ppsOut = false)
    (hgate : s.flag Reg.TIM_CTRL.pps_out_gate 0 = true → s.rd Reg.TIM_STAT.quality 0 = 2) : s.ppsPulse = s.ppsStart := by
  unfold State.ppsPulse
  rw [if_neg (by rw [h]; decide), if_neg fun hg => hg.2 (hgate hg.1)]

/-- The clock of a pulse of w milliseconds. -/
def Clk.ppsRise (c : Clk) (w : Nat) : Clk := { c with ppsOut := true, ppsEnd := c.count + w * 400000 }

theorem State.setPpsOut_eq (s : State) (c : Clk) (level : Bool) :
    State.setPpsOut { s with clk := c } level = { s with clk := { c with ppsOut := level }, wire := s.wire ++ [.ppsOut level] } := rfl

theorem State.ppsStart_eq (s : State) :
    s.ppsStart = { s with clk := s.clk.ppsRise (s.rd Reg.TIM_PPS_CTRL.width 0), wire := s.wire ++ [.ppsOut true] } := s.setPpsOut_eq _ true

theorem State.ppsStart_effect (s : State) :
    s.ppsStart.wire = s.wire ++ [.ppsOut true] ∧ Only [.clk, .wire] s s.ppsStart
      ∧ s.ppsStart.clk = s.clk.ppsRise (s.rd Reg.TIM_PPS_CTRL.width 0) := by
  rw [State.ppsStart_eq]
  exact ⟨rfl, s.only_clk_wire _ _, rfl⟩

theorem exec_ppsOutPulse {s : State} (h : s.flag Reg.TIM_CTRL.pps_out_en 0 = true) :
    exec .ppsOutPulse s = .next ((s.reachTime s.ppsBoundary).ppsTake s.ppsBoundary).ppsPulse := by
  change execPpsOutPulse s = _
  unfold execPpsOutPulse State.ppsPulse
  rw [if_neg (by rw [h]; decide)]

theorem exec_ppsOutEnd {s : State} (h : s.clk.ppsOut = true) : exec .ppsOutEnd s = .next ((s.reachCycle s.clk.ppsEnd).setPpsOut false) := by
  change execPpsOutEnd s = _
  unfold execPpsOutEnd
  rw [if_pos h]

theorem exec_ppsOutEnd_low {s : State} (h : s.clk.ppsOut = false) : exec .ppsOutEnd s = .next s := by
  change execPpsOutEnd s = _
  unfold execPpsOutEnd
  rw [if_neg (by rw [h]; decide)]

theorem State.ppsTake_clk (s : State) (b : Nat) : (s.ppsTake b).clk = { s.clk with ppsLast := some b } := rfl

theorem FabricWrote.ppsTake {s t : State} (h : FabricWrote s t) (b : Nat) : FabricWrote s (t.ppsTake b) := h.same rfl

theorem State.ppsTake_only {s t : State} (h : Only [.clk] s t) (b : Nat) : Only [.clk] s (t.ppsTake b) := only_trans h (State.only_clk _ _)

theorem State.reachTime_counter (s : State) (x : Nat) : ∃ n, (s.reachTime x).clk = { s.clk with count := n } := State.reachCycle_counter s _

/-- The boundary lies on the seconds, moved by TIM_PPS_ADJ.out. -/
theorem State.ppsBoundary_second {s : State} (hlow : 12800000000 ≤ s.now) (hhigh : s.now + 25600000000 < 2 ^ 64) :
    ((s.ppsBoundary : Int) - signedOf 16 (s.rd Reg.TIM_PPS_ADJ.out 0)) % 12800000000 = 0 := by
  have hbefore : ∀ b, b = timePlus s.now (-(((s.now : Int) - signedOf 16 (s.rd Reg.TIM_PPS_ADJ.out 0)) % (secondUnits : Int))) →
      ((b : Int) - signedOf 16 (s.rd Reg.TIM_PPS_ADJ.out 0)) % 12800000000 = 0
      ∧ ((timePlus b secondUnits : Nat) - signedOf 16 (s.rd Reg.TIM_PPS_ADJ.out 0) : Int) % 12800000000 = 0 := by
    intro b hb
    generalize s.now = n at *
    generalize signedOf 16 (s.rd Reg.TIM_PPS_ADJ.out 0) = d at *
    unfold timePlus wrapInt secondUnits at *
    omega
  unfold State.ppsBoundary
  dsimp only
  split
  · exact (hbefore _ rfl).1
  · exact (hbefore _ rfl).2

end Sys2Proof.Machine

namespace Sys2Proof.Proofs

open Sys2Proof Sys2Proof.Machine Sys2Proof.Safety

/-- Settles O46: the quality by `State.setQuality_effect`, the edges by `State.ppsShow_effect`, and what a release may write
(`FabricWrote`) for what comes at a cycle or a second. -/
theorem timeQualityAndPps : Obligations.TimeQualityAndPps := by
  refine ⟨fun s hs => ?quality, fun s rising phi hs => ?pps⟩
  case quality =>
    intro q becomes status accepted refused
    have haccepted : ∀ c n, n < 4 → exec c s = .next ((s.wr Reg.TIM_STAT.cmd_status 0 1).setQuality n) → accepted c n :=
      fun c n hn hexec => ⟨_, hexec, State.quality_accepted hs hn⟩
    have hrefused : ∀ c, exec c s = .next (s.wr Reg.TIM_STAT.cmd_status 0 2) → refused c := fun c hexec => ⟨_, hexec, State.quality_refused hs⟩
    refine ⟨fun hup hq => ⟨haccepted .qualFreeRun 1 (by decide) ?_, haccepted .qualLocked 2 (by decide) ?_, haccepted .qualHoldover 3 (by decide) ?_,
        hrefused .qualClear (exec_qualClear_refused hup fun h => hq h.1)⟩,
      fun hup hq => ⟨hrefused .qualFreeRun ?_, hrefused .qualLocked ?_, hrefused .qualHoldover ?_⟩, fun hup hq hheld => haccepted .qualClear 3 (by decide) (exec_qualClear hup hq hheld),
      fun hup hheld => hrefused .qualClear (exec_qualClear_refused hup fun h => hheld h.2), fun hq hms => ?watch, exec_holdoverWatch_idle⟩
    · rw [exec_qualFreeRun hup, State.qualityCommand_taken hq]
    · rw [exec_qualLocked hup, State.qualityCommand_taken hq]
    · rw [exec_qualHoldover hup, State.qualityCommand_taken hq]
    · rw [exec_qualFreeRun hup, State.qualityCommand_suspect hq]
    · rw [exec_qualLocked hup, State.qualityCommand_suspect hq]
    · rw [exec_qualHoldover hup, State.qualityCommand_suspect hq]
    case watch =>
      intro since due
      have hkeeps : Keeps 0x9005b2 s due := State.reachCycle_keeps (by decide) (.refl s)
      have hquality : due.rd Reg.TIM_STAT.quality 0 = s.rd Reg.TIM_STAT.quality 0 :=
        ((FabricWrote.refl hs.regs).reachCycle since).rd (by decide) (by decide) (by decide)
      obtain ⟨hbecomes, hwrote⟩ := State.setQuality_effect (hkeeps.sound hs) (n := 3) (by decide)
      refine ⟨State.reachCycle_come, fun hagain => State.reachCycle_clk hagain _, _, exec_holdoverWatch hq hms, ?_, hwrote.but⟩
      unfold QualityBecomes at hbecomes
      rw [hquality] at hbecomes
      exact hbecomes
  case pps =>
    intro adj stamp r err seen edge since boundary out
    have hstamp : s.ppsStamp phi = stamp := ppsStamp_eq s phi
    have hlt : stamp < 2 ^ 64 := hstamp ▸ timePlus_lt _ _
    obtain ⟨n, hn⟩ := State.reachTime_counter s boundary
    have hclk : out.clk = { s.clk with count := n, ppsLast := some boundary } := by rw [State.ppsTake_clk, hn]
    have hwrote : FabricWrote s out := FabricWrote.ppsTake (.reachTime (.refl hs.regs) boundary) boundary
    have hqualread : out.rd Reg.TIM_STAT.quality 0 = s.rd Reg.TIM_STAT.quality 0 := hwrote.rd (by decide) (by decide) (by decide)
    have hgateread : out.flag Reg.TIM_CTRL.pps_out_gate 0 = s.flag Reg.TIM_CTRL.pps_out_gate 0 :=
      congrArg (· != 0) (hwrote.rd (by decide) (by decide) (by decide))
    have hpulse : s.flag Reg.TIM_CTRL.pps_out_en 0 = true → exec .ppsOutPulse s = .next out.ppsPulse := exec_ppsOutPulse
    have hidle : s.fab.again = [] → Only [.clk] s out := fun hagain => State.ppsTake_only (State.reachTime_clk hagain boundary) boundary
    clear_value out
    refine ⟨fun hedge hmissing => ?edge, fun hedge hmissing => ?back, exec_ppsInEdge_other phi, fun c hen hat hmissing => ?missing,
      exec_ppsInMissing_idle, State.ppsBoundary_second, hidle, fun hen hlow hgate => ?pulse, fun hen hlow hgate hq => ?gated,
      fun hen hhigh => ?skipped, exec_ppsOutPulse_off, fun hhigh => ?ending, exec_ppsOutEnd_low⟩
    case edge =>
      have hexec := exec_ppsInEdge hs.regs phi hedge.1 hedge.2
      rw [hmissing, if_neg Bool.false_ne_true, hstamp] at hexec
      exact ⟨_, hexec, State.ppsShow_effect hs.regs hlt⟩
    case back =>
      have hexec := exec_ppsInEdge hs.regs phi hedge.1 hedge.2
      rw [hmissing, if_pos rfl, hstamp] at hexec
      exact ⟨_, hexec, State.ppsShow_raise hs.regs hlt _⟩
    case missing =>
      intro due
      have hwrote : FabricWrote s due := FabricWrote.reachCycle (.refl hs.regs) _
      obtain ⟨hclk, hcount, hreports, honly, hbut⟩ := State.ppsCount_effect hwrote.wf
      rw [hwrote.rd (by decide) (by decide) (by decide)] at hcount
      rw [hwrote.rd (by decide) (by decide) (by decide), hwrote.rd (by decide) (by decide) (by decide)] at hreports
      exact ⟨State.reachCycle_come, fun hagain => State.reachCycle_clk hagain _, _, exec_ppsInMissing hen hat hmissing, hclk, hcount, hreports,
        honly, hbut⟩
    case pulse =>
      have hexec := hpulse hen
      obtain ⟨hwire, honly, hstart⟩ := out.ppsStart_effect
      refine ⟨out.ppsStart, hexec.trans (congrArg Host.Outcome.next (State.ppsPulse_start ?_ ?_)), hwire, honly, ?_⟩
      · rw [hclk]
        exact hlow
      · rw [hgateread, hqualread]
        exact hgate
      · rw [hstart, hwrote.rd (by decide) (by decide) (by decide), Clk.ppsRise]
    case gated =>
      refine (hpulse hen).trans (congrArg Host.Outcome.next (State.ppsPulse_gated ?_ ?_ ?_))
      · rw [hclk]
        exact hlow
      · rw [hgateread]
        exact hgate
      · rw [hqualread]
        exact hq
    case skipped =>
      have hcount : (out.count Reg.TIM_PPS_CNT.skipped 0).rd Reg.TIM_PPS_CNT.skipped 0 = _ := State.rd_count_self _ _ hwrote.wf
      refine ⟨out.count Reg.TIM_PPS_CNT.skipped 0, (hpulse hen).trans (congrArg Host.Outcome.next (State.ppsPulse_skipped ?_)), ?_,
        State.count_only _ _ _, ((Wrote.refl hwrote.wf).count List.mem_cons_self).but⟩
      · rw [hclk]
        exact hhigh
      · rw [hcount, hwrote.rd (by decide) (by decide) (by decide)]
        rfl
    case ending =>
      intro due
      exact ⟨_, exec_ppsOutEnd hhigh, rfl, rfl, State.only_clk_wire due _ _⟩

end Sys2Proof.Proofs

/-! ## Heartbeats, ring messages and handovers (R374 to R397) -/

namespace Sys2Proof.Machine

open Sys2Proof.Safety

/-! ### The highest term seen (R373) -/

theorem State.seeTerm_eq (s : State) (t : Nat) :
    s.seeTerm t = if s.rd Reg.RED_TERM_SEEN.term 0 < t then s.wr Reg.RED_TERM_SEEN.term 0 t else s := rfl

theorem Wrote.seeTerm {l : List (Field × Nat)} {s t : State} (h : Wrote l s t) (x : Nat) (hl : (Reg.RED_TERM_SEEN.term, 0) ∈ l) :
    Wrote l s (t.seeTerm x) := .ite (h.wr _ hl) h

theorem State.rd_seeTerm {s : State} (hw : tabWf 0 s.regs = true) {t : Nat} (ht : t < 2 ^ 28) :
    (s.seeTerm t).rd Reg.RED_TERM_SEEN.term 0 = max (s.rd Reg.RED_TERM_SEEN.term 0) t := by
  rw [State.seeTerm_eq]
  by_cases hlt : s.rd Reg.RED_TERM_SEEN.term 0 < t
  · rw [if_pos hlt, State.rd_wr_self _ _ _ hw, Nat.max_eq_right hlt.le]
    exact Nat.mod_eq_of_lt ht
  · rw [if_neg hlt, Nat.max_eq_left (Nat.not_lt.mp hlt)]

/-! ### A received message (R394 to R396) -/

/-- A message passes on, and its sequence is kept. -/
def State.joined (s : State) (m : RingMsg) : State :=
  { s with wire := s.wire ++ [Wire.forward (1 - m.port.val) m.src.val m.seq], red := { s.red with seen := seenAfter s m } }

/-- A message that reaches this unit for the first time: its term counts, too. -/
def State.taken (s : State) (m : RingMsg) : State := (s.seeTerm m.term).joined m

/-- What holds of a message that reaches this unit, before R396 decides. -/
structure Reaches (s : State) (m : RingMsg) (frames : List (List Nat)) : Prop where
  term : m.term < 2 ^ 28
  seq : m.seq < 2 ^ 16
  sealed : m.eofs = msgSealed m frames
  joins : s.ringBypassed = false
  other : m.src.val ≠ s.rd Reg.RED_RING_CFG.address 0
  here : m.broadcast = true ∨ m.dst.val = s.rd Reg.RED_RING_CFG.address 0
  first : s.red.seen.contains (m.src.val, m.seq) = false

/-- What a taken message changes. -/
structure Taken (s : State) (m : RingMsg) (t : State) : Prop where
  red : t.red = { s.red with seen := seenAfter s m }
  wire : t.wire = s.wire ++ [.forward (1 - m.port.val) m.src.val m.seq]
  term : t.rd Reg.RED_TERM_SEEN.term 0 = max (s.rd Reg.RED_TERM_SEEN.term 0) m.term
  wrote : Wrote [(Reg.RED_TERM_SEEN.term, 0)] s t
  only : Only [.wire, .regs, .red] s t

/-- Ring output and redundancy alone. -/
theorem State.only_red (s : State) (w : List Wire) (r : Red) : Only [.wire, .red] s { s with wire := w, red := r } := by
  intro p hp
  cases p with
  | wire => exact absurd List.mem_cons_self hp
  | red => exact absurd (List.mem_cons_of_mem _ List.mem_cons_self) hp
  | _ => rfl

theorem State.joined_only (s : State) (m : RingMsg) : Only [.wire, .red] s (s.joined m) := s.only_red _ _

theorem State.taken_taken {s : State} (hw : tabWf 0 s.regs = true) (m : RingMsg) (ht : m.term < 2 ^ 28) : Taken s m (s.taken m) := by
  have hkeeps : Keeps 0x10 s (s.seeTerm m.term) := State.seeTerm_keeps (by decide) (.refl s)
  have hred : (s.seeTerm m.term).red = s.red := hkeeps.red.get (by decide)
  have hwire : (s.seeTerm m.term).wire = s.wire := by rw [State.seeTerm_eq]; split <;> rfl
  have hwrote : Wrote [(Reg.RED_TERM_SEEN.term, 0)] s (s.seeTerm m.term) := (Wrote.refl hw).seeTerm _ List.mem_cons_self
  have hterm := State.rd_seeTerm hw ht
  have honly : Only [.regs] s (s.seeTerm m.term) := hkeeps.only (by decide)
  unfold State.taken
  generalize s.seeTerm m.term = u at *
  refine ⟨?_, congrArg (· ++ _) hwire, hterm, hwrote.same rfl, only_trans (only_mono (by simp) honly) (only_mono (by simp) (u.joined_only m))⟩
  unfold State.joined seenAfter
  rw [hred]

/-- What R396 decides of a message taken. -/
theorem State.receive_reaches {s : State} (hw : tabWf 0 s.regs = true) {m : RingMsg} {frames : List (List Nat)} (h : Reaches s m frames)
    (htype : m.type.val < 6) :
    s.receive m frames =
      if (s.taken m).mirrorPasses m then (s.taken m, true)
      else if m.role = 1 ∧ (s.taken m).role ≠ 3 then ((s.taken m).stale m 0, false)
      else if m.role = 2 ∧ (s.taken m).role ≠ 1 ∧ (s.taken m).role ≠ 4 ∧ (s.taken m).role ≠ 6 then ((s.taken m).stale m 0, false)
      else if m.type.val ≠ 0 ∧ m.term < (s.taken m).rd Reg.RED_TERM_SEEN.term 0 then ((s.taken m).stale m 1, false)
      else (s.taken m, true) := by
  have hkeeps : Keeps 0x10 s (s.seeTerm m.term) := State.seeTerm_keeps (by decide) (.refl s)
  have hred : (s.seeTerm m.term).red = s.red := hkeeps.red.get (by decide)
  have haddress : (s.seeTerm m.term).rd Reg.RED_RING_CFG.address 0 = s.rd Reg.RED_RING_CFG.address 0 :=
    ((Wrote.refl hw).seeTerm (l := [(Reg.RED_TERM_SEEN.term, 0)]) _ List.mem_cons_self).rd ⟨by decide, by decide, by decide⟩
  have hsound : ¬ msgBad m frames ≠ 0 := fun hne => hne (if_pos h.sealed)
  have hhere : ¬ ((!m.broadcast && m.dst.val != (s.seeTerm m.term).rd Reg.RED_RING_CFG.address 0) = true) := by
    rw [haddress]
    rcases h.here with hb | hd
    · rw [hb]
      exact Bool.false_ne_true
    · rw [hd, bne_self_eq_false, Bool.and_false]
      exact Bool.false_ne_true
  unfold State.receive
  rw [if_neg (by rw [h.joins]; exact Bool.false_ne_true), if_neg hsound]
  dsimp only
  rw [if_neg (by rw [haddress]; exact h.other), if_neg hhere]
  rw [if_neg (by rw [hred, h.first]; exact Bool.false_ne_true)]
  rw [if_neg (Nat.not_le.mpr htype)]
  rfl

theorem Reaches.of_ok {s : State} {m : RingMsg} {type : Nat} {frames : List (List Nat)} (h : RingOk m type frames s) : Reaches s m frames := by
  obtain ⟨-, hterm, hseq, hsealed, hjoins, hother, hhere, hfirst, -⟩ := h
  exact ⟨hterm, hseq, hsealed, hjoins, hother, hhere, hfirst⟩

/-- A message that R396 lets pass. -/
theorem State.receive_ok {s : State} (hw : tabWf 0 s.regs = true) {m : RingMsg} {type : Nat} {frames : List (List Nat)} (h : RingOk m type frames s)
    (htype : type < 6) : s.receive m frames = (s.taken m, true) := by
  have hreaches : Reaches s m frames := .of_ok h
  obtain ⟨rfl, hterm, -, -, -, -, -, -, hone, htwo, hnew⟩ := h
  have ht := State.taken_taken hw m hterm
  have hrole : (s.taken m).role = s.role := ht.wrote.rd ⟨by decide, by decide, by decide⟩
  rw [State.receive_reaches hw hreaches htype, hrole, ht.term]
  split
  · rfl
  · rw [if_neg fun h => h.2 (hone h.1), if_neg fun h => (htwo h.1).elim h.2.1 fun h' => h'.elim h.2.2.1 h.2.2.2, if_neg]
    rintro ⟨hne, hlt⟩
    have hle := hnew.resolve_left hne
    rw [Nat.max_eq_right hle] at hlt
    exact Nat.lt_irrefl _ hlt

theorem State.onMessage_ok {s : State} (hw : tabWf 0 s.regs = true) {m : RingMsg} {type : Nat} {frames : List (List Nat)} (h : RingOk m type frames s)
    (htype : type < 6) (f : State → State) : s.onMessage m type frames f = .next (f (s.taken m)) := by
  have hfits : msgFits m type = true := by
    unfold msgFits
    rw [h.1, beq_self_eq_true, decide_eq_true h.2.1, decide_eq_true h.2.2.1]
    rfl
  unfold State.onMessage
  rw [if_pos hfits, State.receive_ok hw h htype]
  rfl

/-- A message that belongs to another role (R396). -/
theorem State.onMessage_stale {s : State} (hw : tabWf 0 s.regs = true) {m : RingMsg} {type : Nat} {frames : List (List Nat)}
    (h : Reaches s m frames) (htype : m.type.val = type) (hlow : type < 6) (hmirror : type ≠ 4) (hone : m.role = 1) (hrole : s.role ≠ 3)
    (f : State → State) : s.onMessage m type frames f = .next ((s.taken m).stale m 0) := by
  subst htype
  have hfits : msgFits m m.type.val = true := by
    unfold msgFits
    rw [beq_self_eq_true, decide_eq_true h.term, decide_eq_true h.seq]
    rfl
  have hrole' : (s.taken m).role = s.role := (State.taken_taken hw m h.term).wrote.rd ⟨by decide, by decide, by decide⟩
  have hpasses : ¬ (s.taken m).mirrorPasses m = true := by
    unfold State.mirrorPasses
    rw [beq_false_of_ne (fun h4 => hmirror (congrArg Fin.val h4))]
    exact Bool.false_ne_true
  unfold State.onMessage
  rw [if_pos hfits, State.receive_reaches hw h hlow, if_neg hpasses, if_pos ⟨hone, by rw [hrole']; exact hrole⟩]
  rfl

theorem Taken.heard {s t u : State} {m : RingMsg} (h : Taken s m t) (hwire : t.wire <+: u.wire)
    (hterm : u.rd Reg.RED_TERM_SEEN.term 0 = t.rd Reg.RED_TERM_SEEN.term 0) : Heard s m u :=
  ⟨h.wire ▸ hwire, hterm.trans h.term⟩

theorem State.paired_of_rd {s t : State} (h : t.rd Reg.RED_STAT.strap 0 = s.rd Reg.RED_STAT.strap 0) : t.paired = s.paired := by
  unfold State.paired
  rw [h]

/-- What a message that is taken leaves: role, pairing and image. -/
theorem Taken.role {s t : State} {m : RingMsg} (h : Taken s m t) : t.role = s.role := h.wrote.rd ⟨by decide, by decide, by decide⟩

theorem Taken.paired {s t : State} {m : RingMsg} (h : Taken s m t) : t.paired = s.paired :=
  State.paired_of_rd (h.wrote.rd ⟨by decide, by decide, by decide⟩)

theorem Taken.epo {s t : State} {m : RingMsg} (h : Taken s m t) : t.epo = s.epo := h.only .epo (by decide)

/-! ### Handover: its ends (R388, R392) -/

/-- The redundancy of a unit that begins to give. -/
def Red.giving (r : Red) : Red :=
  { r with hand := .outgoing, h := none, ready := false, mirroring := false, runOut := 0, termSeen := false, due := true }

/-- The redundancy after a handover that ends. -/
def Red.ended (r : Red) : Red :=
  { r with hand := .none, h := none, ready := false, mirroring := false, image := none, buffer := [], termSeen := false, arrived := []
           healthyAt := none }

theorem State.beginOutgoing_effect {s : State} (hw : tabWf 0 s.regs = true) :
    let t := s.beginOutgoing
    t.red = s.red.giving ∧ t.rd Reg.RED_STAT.handover 0 = 1 ∧ t.wire = s.wire ∧ Only [.regs, .red] s t ∧ Wrote [(Reg.RED_STAT.handover, 0)] s t :=
  ⟨rfl, State.rd_wr_self (s := s) _ _ _ hw, rfl, (State.beginOutgoing_keeps (M := 0x800010) (by decide) (.refl s)).only (by decide),
    ((Wrote.refl hw).wr 1 List.mem_cons_self).same rfl⟩

/-- The registers of a handover that ends for a reason. -/
def endWrites (reason : Nat) : List (Field × Nat × Nat) :=
  [(Reg.RED_STAT.handover, 0, 0), (Reg.RED_MIRROR_STAT.active, 0, 0), (Reg.RED_REVERT_STAT.last_abort, 0, reason)]

/-- The registers that the end of a handover changes. -/
abbrev endRegs : List (Field × Nat) := [(Reg.RED_STAT.handover, 0), (Reg.RED_MIRROR_STAT.active, 0), (Reg.RED_REVERT_STAT.last_abort, 0),
  (Reg.RED_REVERT_STAT.healthy_s, 0)] ++ eventRegs

/-- The handover is over, with its reason. -/
def State.showEnd (s : State) (reason : Nat) : State := s.clearHand.wr Reg.RED_REVERT_STAT.last_abort 0 reason

/-- A unit that gives ends the handover without effect (R392). -/
theorem State.abortHand_giving {s : State} (hhand : s.red.hand = .outgoing) (reason : Nat) :
    s.abortHand reason false = ((s.showEnd reason).raise 0x60B 0 reason).healthDrop := by
  unfold State.abortHand
  rw [hhand]
  rfl

theorem State.abortHand_told (s : State) (hhand : s.red.hand = .outgoing) (reason : Nat) :
    s.abortHand reason true = (s.sendPartner 5 0 [4 * 2 ^ 60 + reason * 2 ^ 56]).abortHand reason false := by
  have hhand' : (s.sendPartner 5 0 [4 * 2 ^ 60 + reason * 2 ^ 56]).red.hand = .outgoing := hhand
  unfold State.abortHand
  rw [hhand, hhand']
  rfl

/-- What the end of a handover for a reason shows. -/
structure HandEnded (s t : State) (reason : Nat) : Prop where
  red : t.red = s.red.ended
  hand : t.rd Reg.RED_STAT.handover 0 = 0
  mirror : t.rd Reg.RED_MIRROR_STAT.active 0 = 0
  healthy : t.rd Reg.RED_REVERT_STAT.healthy_s 0 = 0
  cause : t.rd Reg.RED_REVERT_STAT.last_abort 0 = reason % 2 ^ Reg.RED_REVERT_STAT.last_abort.width
  reports : Reports s t 0x60B 0 reason
  keeps : Keeps 0x800512 s t
  wrote : Wrote endRegs s t

theorem State.abortHand_effect {s : State} (hw : tabWf 0 s.regs = true) (hhand : s.red.hand = .outgoing) (reason : Nat) :
    HandEnded s (s.abortHand reason false) reason := by
  rw [State.abortHand_giving hhand]
  obtain ⟨hreports, hwrote, hread⟩ := State.raise_after [Reg.RED_STAT.handover, Reg.RED_MIRROR_STAT.active, Reg.RED_REVERT_STAT.last_abort]
    (l := endWrites reason) (u := s.showEnd reason) (code := 0x60B) rfl (by decide) hw (by simp [endWrites]) rfl rfl rfl rfl (by decide) 0 reason
  have hred : ((s.showEnd reason).raise 0x60B 0 reason).red = { s.red.ended with healthyAt := s.red.healthyAt } := State.raise_red ..
  have hkeeps : Keeps 0x800512 s ((s.showEnd reason).raise 0x60B 0 reason) :=
    State.raise_keeps (by decide) (State.wr_keeps (by decide) (State.clearHand_keeps (by decide) (.refl s)))
  have hwithin : ∀ p ∈ [(Reg.RED_STAT.handover, 0), (Reg.RED_MIRROR_STAT.active, 0), (Reg.RED_REVERT_STAT.last_abort, 0)] ++ eventRegs,
      p ∈ endRegs := by decide
  have hall : Wrote endRegs s ((s.showEnd reason).raise 0x60B 0 reason) := hwrote.mono hwithin
  generalize (s.showEnd reason).raise 0x60B 0 reason = u at *
  have hdrop : Wrote [(Reg.RED_REVERT_STAT.healthy_s, 0)] u u.healthDrop := ((Wrote.refl hwrote.wf).wr 0 List.mem_cons_self).same rfl
  exact {
    red := by
      change { u.red with healthyAt := none } = s.red.ended
      rw [hred]
      rfl
    hand := (hdrop.rd ⟨by decide, by decide, by decide⟩).trans (hread (Reg.RED_STAT.handover, 0, 0) (by simp [endWrites]))
    mirror := (hdrop.rd ⟨by decide, by decide, by decide⟩).trans (hread (Reg.RED_MIRROR_STAT.active, 0, 0) (by simp [endWrites]))
    healthy := State.rd_wr_self (s := u) _ _ _ hwrote.wf
    cause := (hdrop.rd ⟨by decide, by decide, by decide⟩).trans (hread (Reg.RED_REVERT_STAT.last_abort, 0, reason) (by simp [endWrites]))
    reports := reports_then hreports rfl
    keeps := State.healthDrop_keeps (by decide) hkeeps
    wrote := hall.trans (hdrop.mono (by simp)) }

/-- A message discarded as stale is counted and reported (R396). -/
theorem State.stale_effect {s : State} (hw : tabWf 0 s.regs = true) (m : RingMsg) (cause : Nat) :
    let t := s.stale m cause
    t.rd Reg.RED_STALE_MSG.count 0 = min (s.rd Reg.RED_STALE_MSG.count 0 + 1) (2 ^ 32 - 1) ∧ t.rd Reg.RED_FLAGS.stale 0 = 1
      ∧ Reports s t 0x608 0 (m.type + 16 * m.role + 64 * cause) ∧ Keeps 0x512 s t
      ∧ Wrote ([(Reg.RED_STALE_MSG.count, 0), (Reg.RED_FLAGS.stale, 0)] ++ eventRegs) s t := by
  intro t
  have hcount : Wrote [(Reg.RED_STALE_MSG.count, 0), (Reg.RED_FLAGS.stale, 0)] s (s.count Reg.RED_STALE_MSG.count 0) :=
    (Wrote.refl hw).count List.mem_cons_self
  have hflag := hcount.wr (f := Reg.RED_FLAGS.stale) (i := 0) 1 (List.mem_cons_of_mem _ List.mem_cons_self)
  refine ⟨?_, ?_, hflag.reports _ _ (by decide) ⟨by decide, by decide, by decide⟩ rfl rfl rfl, State.stale_keeps (by decide) (.refl s),
    (hflag.mono fun p hp => List.mem_append_left _ hp).raise _ _ _ fun p hp => List.mem_append_right _ hp⟩
  · refine (State.rd_raise hflag.wf _ _ _ (by decide)).trans ((State.rd_wr_off _ _ _ _ hcount.wf (by decide)).trans ?_)
    exact State.rd_count_self _ _ hw
  · exact (State.rd_raise hflag.wf _ _ _ (by decide)).trans (State.rd_wr_self _ _ _ hcount.wf)

/-! ### Mirror runs (R389) -/

theorem any_headWrite_none {ws : List MirrorWrite} (h : ∀ n v, .head n v ∈ ws → n < 2 ∨ 4 < n) {p : MirrorWrite → Bool} {k : Nat}
    (hlow : 2 ≤ k) (hhigh : k ≤ 4) (hp : ∀ w, p w = true → ∃ v, w = .head k v) : ¬ ws.any p = true := by
  intro hany
  obtain ⟨w, hw, hpw⟩ := List.any_eq_true.mp hany
  obtain ⟨v, rfl⟩ := hp w hpw
  have hrange := h k v hw
  omega

/-- A run without the header's I, Z and EPO_LEN leaves the grid. -/
theorem State.followHead_none (s : State) (i : CritImage) {ws : List MirrorWrite} (h : ∀ n v, .head n v ∈ ws → n < 2 ∨ 4 < n) :
    s.followHead i ws = s := by
  have hp : ∀ k w, (match w with | MirrorWrite.head m _ => m == k | _ => false) = true → ∃ v, w = .head k v := by
    intro k w hw
    cases w with
    | head m v => exact ⟨v, congrArg (MirrorWrite.head · v) (eq_of_beq hw)⟩
    | _ => exact absurd hw Bool.false_ne_true
  unfold State.followHead
  refine (if_neg (any_headWrite_none h (by decide) (by decide) (hp 2))).trans (if_neg fun hany => ?_)
  exact (Bool.or_eq_true_iff.mp hany).elim (any_headWrite_none h (by decide) (by decide) (hp 3))
    (any_headWrite_none h (by decide) (by decide) (hp 4))

theorem State.tryReady_ready {s : State} (h : s.red.ready = true) : s.tryReady = s := by
  unfold State.tryReady
  rw [if_neg]
  rintro ⟨-, -, hr, -⟩
  rw [h] at hr
  exact absurd hr (by decide)

/-! ### The messages of a handover -/

theorem exec_handoverRequest {s : State} (hw : tabWf 0 s.regs = true) {m : RingMsg} (h : RingOk m 5 [[1 * 2 ^ 60]] s) (hp : s.paired = true)
    (hhand : s.red.hand = .none) (hrole : s.role = 3) : exec (.handoverRequest m) s = .next (s.taken m).beginOutgoing := by
  have ht := State.taken_taken hw m h.2.1
  change execHandoverRequest m s = _
  unfold execHandoverRequest
  rw [State.onMessage_ok hw (show RingOk m 5 [handoverFrame 1 0] s from h) (by decide)]
  refine congrArg Host.Outcome.next ?_
  rw [ht.paired, hp, ht.red, hhand, ht.role, hrole]
  rfl

theorem exec_handoverRequest_stale {s : State} (hw : tabWf 0 s.regs = true) {m : RingMsg} (h : Reaches s m [[1 * 2 ^ 60]]) (htype : m.type.val = 5)
    (hone : m.role = 1) (hrole : s.role ≠ 3) : exec (.handoverRequest m) s = .next ((s.taken m).stale m 0) := by
  change execHandoverRequest m s = _
  unfold execHandoverRequest
  exact State.onMessage_stale hw (show Reaches s m [handoverFrame 1 0] from h) htype (by decide) (by decide) hone hrole _

theorem exec_handoverReady {s : State} (hw : tabWf 0 s.regs = true) {m : RingMsg} (h : RingOk m 5 [[2 * 2 ^ 60]] s)
    (hhand : s.red.hand = .outgoing) :
    exec (.handoverReady m) s = .next ((s.taken m).modRed (fun r => { r with ready := true })) := by
  have ht := State.taken_taken hw m h.2.1
  change execHandoverReady m s = _
  unfold execHandoverReady
  rw [State.onMessage_ok hw (show RingOk m 5 [handoverFrame 2 0] s from h) (by decide)]
  refine congrArg Host.Outcome.next ?_
  rw [if_pos]
  rw [ht.red]
  exact hhand

theorem exec_handoverGrant {s : State} (hw : tabWf 0 s.regs = true) {m : RingMsg} {h : Nat} (hok : RingOk m 5 [[3 * 2 ^ 60, h]] s)
    (hhand : s.red.hand = .incoming) (hrole : s.role = 4) (hahead : s.epo.k + 1 < h) : exec (.handoverGrant m h) s
      = .next (((s.taken m).wrPair Reg.RED_HANDOVER_LO.h_lo Reg.RED_HANDOVER_HI.h_hi 0 h).modRed (fun r => { r with h := some h })) := by
  have ht := State.taken_taken hw m hok.2.1
  change execHandoverGrant m h s = _
  unfold execHandoverGrant
  rw [State.onMessage_ok hw (show RingOk m 5 [handoverFrame 3 0 ++ [h]] s from hok) (by decide)]
  refine congrArg Host.Outcome.next ?_
  rw [if_neg, if_neg]
  · rw [ht.epo]
    exact Nat.not_le.mpr hahead
  · rw [ht.red, ht.role]
    exact fun h => h.elim (fun h => h hhand) (fun h => h hrole)

theorem State.mayAbort_of {s t : State} (hh : t.red.h = s.red.h) (hepo : t.epo = s.epo) (h : ∀ h, s.red.h = some h → s.epo.k + 1 < h) :
    t.mayAbort = true := by
  unfold State.mayAbort
  rw [hh, hepo]
  cases hg : s.red.h with
  | none => rfl
  | some x => exact decide_eq_true (h x hg)

theorem exec_handoverAbort {s : State} (hw : tabWf 0 s.regs = true) {m : RingMsg} {reason : Fin 16}
    (hok : RingOk m 5 [[4 * 2 ^ 60 + reason.val * 2 ^ 56]] s) (hhand : s.red.hand = .outgoing)
    (hahead : ∀ h, s.red.h = some h → s.epo.k + 1 < h) : exec (.handoverAbort m reason) s = .next ((s.taken m).abortHand 5 false) := by
  have ht := State.taken_taken hw m hok.2.1
  change execHandoverAbort m reason s = _
  unfold execHandoverAbort
  rw [State.onMessage_ok hw (show RingOk m 5 [handoverFrame 4 reason] s from hok) (by decide)]
  refine congrArg Host.Outcome.next ?_
  dsimp only
  rw [if_pos]
  refine ⟨?_, State.mayAbort_of (by rw [ht.red]) ht.epo hahead⟩
  rw [ht.red]
  change ¬ s.red.hand = .none
  rw [hhand]
  decide

theorem exec_mirrorRun {s : State} (hw : tabWf 0 s.regs = true) {m : RingMsg} {ws : List MirrorWrite}
    (hok : RingOk m 4 [Config.mirrorWords s.red.runIn ws] s) (hhand : s.red.hand = .incoming) (hrole : s.role ≠ 3) :
    exec (.mirrorRun m s.red.runIn ws) s = .next (
      let u := (s.taken m).modRed (fun r => { r with runIn := (r.runIn + 1) % 2 ^ 16 })
      match s.red.image with
      | some i => ((u.modRed (fun r => { r with image := some (ws.foldl CritImage.apply i) })).followHead (ws.foldl CritImage.apply i) ws).tryReady
      | none => u.modRed (fun r => { r with buffer := r.buffer ++ ws })) := by
  have ht := State.taken_taken hw m hok.2.1
  have hred := ht.red
  change execMirrorRun m s.red.runIn ws s = _
  unfold execMirrorRun
  rw [State.onMessage_ok hw hok (by decide)]
  refine congrArg Host.Outcome.next ?_
  dsimp only
  have hrole' : (s.taken m).role ≠ 3 := by
    rw [ht.role]
    exact hrole
  generalize s.taken m = u at *
  have hhand' : ¬ u.red.hand ≠ .incoming := by
    rw [hred]
    exact fun h => h hhand
  have hrun : ¬ s.red.runIn ≠ u.red.runIn := by
    rw [hred]
    exact fun h => h rfl
  have himage : (u.modRed (fun r => { r with runIn := (r.runIn + 1) % 2 ^ 16 })).red.image = s.red.image := by
    change u.red.image = _
    rw [hred]
  rw [if_neg hhand', if_neg hrun]
  rw [if_neg (show ¬ (u.modRed (fun r => { r with runIn := (r.runIn + 1) % 2 ^ 16 })).role = 3 from hrole'), himage] <;> rfl

/-! ### The commands of a handover -/

theorem exec_redCmdHandover {s : State} (hup : HostUp s) (hrole : s.role = 3) (hp : s.paired = true) (hhand : s.red.hand = .none) :
    exec .redCmdHandover s = .next (((s.sendPartner 5 0 [1 * 2 ^ 60]).beginOutgoing).redStatus true) := by
  change execRedCmdHandover s = _
  unfold execRedCmdHandover
  rw [byHost_up hup, if_neg]
  rintro (h | h | h)
  · exact h hrole
  · rw [hp] at h
    exact absurd h (by decide)
  · exact h hhand

theorem exec_redCmdAbort {s : State} (hup : HostUp s) (hhand : s.red.hand = .outgoing) (hahead : ∀ h, s.red.h = some h → s.epo.k + 1 < h) :
    exec .redCmdAbort s = .next ((s.abortHand 4 true).redStatus true) := by
  change execRedCmdAbort s = _
  unfold execRedCmdAbort
  rw [byHost_up hup, if_neg]
  rintro (h | h)
  · rw [hhand] at h
    cases h
  · rw [State.mayAbort_of rfl rfl hahead] at h
    exact absurd h (by decide)

theorem exec_redCmd_refused {s : State} (hup : HostUp s) {c : Instr}
    (h : (c = .redCmdHandover ∧ (s.role ≠ 3 ∨ s.paired = false ∨ s.red.hand ≠ .none))
      ∨ (c = .redCmdAbort ∧ (s.red.hand = .none ∨ ∃ h, s.red.h = some h ∧ h ≤ s.epo.k + 1))) : exec c s = .next (s.redStatus false) := by
  rcases h with ⟨rfl, h⟩ | ⟨rfl, h⟩
  · change execRedCmdHandover s = _
    unfold execRedCmdHandover
    rw [byHost_up hup, if_pos]
    rcases h with h | h | h
    · exact .inl h
    · exact .inr (.inl (by rw [h]; rfl))
    · exact .inr (.inr h)
  · change execRedCmdAbort s = _
    unfold execRedCmdAbort
    rw [byHost_up hup, if_pos]
    rcases h with h | ⟨x, hx, hle⟩
    · exact .inl h
    · refine .inr ?_
      unfold State.mayAbort
      rw [hx]
      have : decide (s.epo.k + 1 < x) = false := decide_eq_false (Nat.not_lt.mpr hle)
      change (!decide (s.epo.k + 1 < x)) = true
      rw [this]
      rfl

end Sys2Proof.Machine

namespace Sys2Proof.Proofs

open Sys2Proof Sys2Proof.Machine Sys2Proof.Safety

/-- Settles O50: each message is taken (`State.onMessage_ok`), and what follows is that of the unit's own part in the handover. -/
theorem handoverMessages : Obligations.HandoverMessages := by
  intro s m hs none_ out term ended quiet sent counted
  have htaken : ∀ {type frames}, RingOk m type frames s → Taken s m (s.taken m) := fun h => State.taken_taken hs.regs m h.2.1
  have honly : ∀ {u t : State} {l : List Part}, Taken s m u → (∀ p ∈ [Part.wire, .regs, .red], p ∈ l) → Only l u t → Only l s t :=
    fun ht hl h => only_trans (only_mono hl ht.only) h
  refine ⟨fun hok hp hhand hrole => ?request, fun hok hhand => ?ready, fun h hok hhand hrole hahead => ?grant, fun reason hok hhand hahead => ?abort,
    fun ws hok hhand hrole himage => ?waits, fun ws i hok hhand hrole himage hready hhead => ?joins, fun hup hrole hp hhand => ?give,
    fun hup hhand hahead => ?stop, fun c hup h => ?refused, fun htype hterm hseq hsealed hjoins hother hhere hfirst hone hrole => ?stale⟩
  case request =>
    have ht := htaken hok
    have hexec := exec_handoverRequest hs.regs hok hp hhand hrole
    generalize s.taken m = u at *
    obtain ⟨hred, hshown, hwire, hkept, hwrote⟩ := State.beginOutgoing_effect ht.wrote.wf
    refine ⟨_, hexec, ?_, hshown, ht.heard (hwire ▸ List.prefix_refl _) (hwrote.rd ⟨by decide, by decide, by decide⟩),
      honly ht (fun _ h => h) (only_mono (by simp) hkept), ((ht.wrote.mono (by simp [term])).trans (hwrote.mono (by simp [term]))).but⟩
    rw [hred, ht.red]
    rfl
  case ready =>
    have ht := htaken hok
    have hexec := exec_handoverReady hs.regs hok hhand
    generalize s.taken m = u at *
    refine ⟨_, hexec, ?_, ht.heard (List.prefix_refl _) rfl, honly ht (fun _ h => h) (only_mono (by simp) (u.only_red _ _)),
      (ht.wrote.same rfl).but⟩
    change { u.red with ready := true } = _
    rw [ht.red]
  case grant =>
    have ht := htaken hok
    have hexec := exec_handoverGrant hs.regs hok hhand hrole hahead
    generalize s.taken m = u at *
    have hlow : Wrote [(Reg.RED_HANDOVER_LO.h_lo, 0)] u (u.wr Reg.RED_HANDOVER_LO.h_lo 0 h) := (Wrote.refl ht.wrote.wf).wr h List.mem_cons_self
    have hboth : Wrote [(Reg.RED_HANDOVER_LO.h_lo, 0), (Reg.RED_HANDOVER_HI.h_hi, 0)] u (u.wrPair Reg.RED_HANDOVER_LO.h_lo Reg.RED_HANDOVER_HI.h_hi 0 h) :=
      (Wrote.refl ht.wrote.wf).wrPair h (by simp) (by simp)
    have hkept : Keeps 0x800010 u ((u.wrPair Reg.RED_HANDOVER_LO.h_lo Reg.RED_HANDOVER_HI.h_hi 0 h).modRed (fun r => { r with h := some h })) :=
      State.modRed_keeps (by decide) (State.wrPair_keeps (by decide) (.refl u))
    refine ⟨_, hexec, ?_, ?_, State.rd_wr_self _ _ _ hlow.wf, ht.heard hkept.wire (hboth.rd ⟨by decide, by decide, by decide⟩),
      honly ht (fun _ h => h) (hkept.only (by decide)), ((ht.wrote.mono (by simp [term])).trans (hboth.mono (by simp))).but⟩
    · change { u.red with h := some h } = _
      rw [ht.red]
    · exact (State.rd_wr_off _ _ _ _ hlow.wf (by decide)).trans (State.rd_wr_self _ _ _ ht.wrote.wf)
  case abort =>
    have ht := htaken hok
    have hexec := exec_handoverAbort hs.regs hok hhand hahead
    generalize s.taken m = u at *
    have he := State.abortHand_effect ht.wrote.wf (show u.red.hand = .outgoing by rw [ht.red]; exact hhand) 5
    refine ⟨_, hexec, ?_, ⟨he.hand, he.mirror, he.healthy⟩, he.cause, ?_, ht.heard he.keeps.wire (he.wrote.rd ⟨by decide, by decide, by decide⟩),
      honly ht (by simp [eventParts]) (he.keeps.only (by decide)), ((ht.wrote.mono (by simp [term])).trans (he.wrote.mono (by simp +contextual [ended]))).but⟩
    · rw [he.red, ht.red]
      rfl
    · exact reports_from he.reports (ht.only .evq (by decide)) (congrArg Epo.k ht.epo) (ht.only .clk (by decide))
        (ht.wrote.rd ⟨by decide, by decide, by decide⟩)
  case waits =>
    have ht := htaken hok
    have hexec := exec_mirrorRun hs.regs hok hhand hrole
    rw [himage] at hexec
    generalize s.taken m = u at *
    refine ⟨_, hexec, ht.heard (List.prefix_refl _) rfl, ?_, honly ht (fun _ h => h) (only_mono (by simp) (u.only_red _ _)), (ht.wrote.same rfl).but⟩
    change { u.red with runIn := (u.red.runIn + 1) % 2 ^ 16, buffer := u.red.buffer ++ ws } = _
    rw [ht.red]
  case joins =>
    have ht := htaken hok
    have hexec := exec_mirrorRun hs.regs hok hhand hrole
    rw [himage] at hexec
    generalize s.taken m = u at *
    dsimp only at hexec
    rw [State.followHead_none _ _ hhead, State.tryReady_ready (by change u.red.ready = true; rw [ht.red]; exact hready)] at hexec
    refine ⟨_, hexec, ht.heard (List.prefix_refl _) rfl, ?_, honly ht (fun _ h => h) (only_mono (by simp) (u.only_red _ _)), (ht.wrote.same rfl).but⟩
    change { u.red with runIn := (u.red.runIn + 1) % 2 ^ 16, image := some (ws.foldl CritImage.apply i) } = _
    rw [ht.red]
  case give =>
    have hexec := exec_redCmdHandover hup hrole hp hhand
    have hsent : (s.sendPartner 5 0 [1 * 2 ^ 60]).red = { s.red with msgSeq := counted } := rfl
    have hwire : (s.sendPartner 5 0 [1 * 2 ^ 60]).wire = s.wire ++ [sent [1 * 2 ^ 60]] := rfl
    have hregs : Wrote [] s (s.sendPartner 5 0 [1 * 2 ^ 60]) := (Wrote.refl hs.regs).same rfl
    have hmsg : Keeps 0x800002 s (s.sendPartner 5 0 [1 * 2 ^ 60]) := State.sendPartner_keeps (by decide) (.refl s)
    generalize s.sendPartner 5 0 [1 * 2 ^ 60] = u at *
    obtain ⟨hred, hshown, hkeptwire, hkept, hwrote⟩ := State.beginOutgoing_effect hregs.wf
    have hstatus : Wrote [(Reg.RED_STAT.cmd_status, 0)] u.beginOutgoing (u.beginOutgoing.redStatus true) := (Wrote.refl hwrote.wf).wr 1 List.mem_cons_self
    refine ⟨_, hexec, ?_, hkeptwire.trans hwire, (hstatus.rd ⟨by decide, by decide, by decide⟩).trans hshown, State.rd_wr_self _ _ _ hwrote.wf, ?_,
      ((hregs.mono (by simp)).trans ((hwrote.mono (by simp)).trans (hstatus.mono (by simp)))).but⟩
    · change u.beginOutgoing.red = _
      rw [hred, hsent]
      rfl
    · exact only_trans (hmsg.only (by decide)) (only_trans (only_mono (by simp) hkept) (only_mono (by simp) (State.wr_only _ Reg.RED_STAT.cmd_status 0 1)))
  case stop =>
    have hexec := exec_redCmdAbort hup hhand hahead
    rw [State.abortHand_told s hhand] at hexec
    have hsent : (s.sendPartner 5 0 [4 * 2 ^ 60 + 4 * 2 ^ 56]).red = { s.red with msgSeq := counted } := rfl
    have hwire : (s.sendPartner 5 0 [4 * 2 ^ 60 + 4 * 2 ^ 56]).wire = s.wire ++ [sent [4 * 2 ^ 60 + 4 * 2 ^ 56]] := rfl
    have hregs : Wrote [] s (s.sendPartner 5 0 [4 * 2 ^ 60 + 4 * 2 ^ 56]) := (Wrote.refl hs.regs).same rfl
    have hmsg : Keeps 0x800002 s (s.sendPartner 5 0 [4 * 2 ^ 60 + 4 * 2 ^ 56]) := State.sendPartner_keeps (by decide) (.refl s)
    generalize s.sendPartner 5 0 [4 * 2 ^ 60 + 4 * 2 ^ 56] = u at *
    have he := State.abortHand_effect hregs.wf (show u.red.hand = .outgoing by rw [hsent]; exact hhand) 4
    generalize u.abortHand 4 false = v at *
    have hstatus : Wrote [(Reg.RED_STAT.cmd_status, 0)] v (v.redStatus true) := (Wrote.refl he.wrote.wf).wr 1 List.mem_cons_self
    have hkept : Keeps 0x800512 s (v.redStatus true) := State.redStatus_keeps (by decide) ((hmsg.mono (by decide)).trans he.keeps)
    have hread : ∀ {f : Field}, Apart f 0 [(Reg.RED_STAT.cmd_status, 0)] → (v.redStatus true).rd f 0 = v.rd f 0 := fun hf => hstatus.rd hf
    refine ⟨_, hexec, ?_, hwire ▸ he.keeps.wire, ⟨?_, ?_, ?_⟩, ?_, State.rd_wr_self _ _ _ he.wrote.wf, ?_, hkept.only (by decide),
      ((hregs.mono (by simp)).trans ((he.wrote.mono (by simp +contextual [ended])).trans (hstatus.mono (by simp)))).but⟩
    · change v.red = _
      rw [he.red, hsent]
      rfl
    · exact (hread ⟨by decide, by decide, by decide⟩).trans he.hand
    · exact (hread ⟨by decide, by decide, by decide⟩).trans he.mirror
    · exact (hread ⟨by decide, by decide, by decide⟩).trans he.healthy
    · exact (hread ⟨by decide, by decide, by decide⟩).trans he.cause
    · exact reports_then (reports_from he.reports (hmsg.evq.get (by decide)) (congrArg Epo.k (hmsg.epo.get (by decide))) (hmsg.clk.get (by decide))
        (hregs.rd ⟨by decide, by decide, by decide⟩)) rfl
  case refused =>
    exact ⟨_, exec_redCmd_refused hup h, State.rd_wr_self _ _ _ hs.regs, State.wr_only s Reg.RED_STAT.cmd_status 0 2,
      ((Wrote.refl hs.regs).wr 2 List.mem_cons_self).but⟩
  case stale =>
    have ht := State.taken_taken hs.regs m hterm
    have hexec := exec_handoverRequest_stale hs.regs ⟨hterm, hseq, hsealed, hjoins, hother, hhere, hfirst⟩ (congrArg Fin.val htype) hone hrole
    generalize s.taken m = u at *
    obtain ⟨hcount, hflag, hreports, hkept, hwrote⟩ := State.stale_effect ht.wrote.wf m 0
    have hdata : (m.type : Nat) + 16 * (m.role : Nat) + 64 * 0 = 5 + 16 * 1 := by rw [htype, hone]; rfl
    rw [hdata] at hreports
    refine ⟨_, hexec, (hkept.red.get (by decide)).trans ht.red, ?_, ?_, hflag, honly ht (by simp [eventParts]) (hkept.only (by decide)),
      ((ht.wrote.mono (by simp [term])).trans (hwrote.mono (by simp +contextual))).but⟩
    · exact reports_from hreports (ht.only .evq (by decide)) (congrArg Epo.k ht.epo) (ht.only .clk (by decide))
        (ht.wrote.rd ⟨by decide, by decide, by decide⟩)
    · rw [hcount, ht.wrote.rd ⟨by decide, by decide, by decide⟩]

end Sys2Proof.Proofs

/-! ## Heartbeats and their paths (R374 to R376, R393, R397) -/

namespace Sys2Proof.Machine

open Sys2Proof.Safety

/-! ### HEARTBEAT_SEND (R374) -/

theorem exec_heartbeatSend_none {s : State} (hreset : s.pwr.inReset = true) (hdormant : s.pwr.dormant = false) (hheld : s.pwr.held200 = false) :
    exec .heartbeatSend s = .next s := by
  change execHeartbeatSend s = _
  unfold execHeartbeatSend
  rw [if_pos (by rw [hreset, hdormant, hheld]; rfl)]

/-- The symbol's 24 bits before its CRC-8. -/
def State.heartbeatBody (s : State) : Nat :=
  let own : Bool := !s.pwr.inReset && !s.pwr.dormant
  (if s.pwr.dormant then 8 else if s.pwr.inReset then 7 else s.role) % 16 * 2 ^ 20 + (if own then s.rank else s.pwr.hbRank) % 16 * 2 ^ 16
    + (if own then s.rd Reg.RED_CLAIM.claim 0 % 2 ^ 28 else s.pwr.hbTerm) % 2 ^ 16

/-- A symbol of 24 bits and their CRC-8. -/
def symbolOf (body : Nat) : Nat := body * 256 + crc8 [body / 2 ^ 16, body / 2 ^ 8, body]

theorem exec_heartbeatSend {s : State} (h : s.pwr.inReset = false ∨ s.pwr.dormant = true ∨ s.pwr.held200 = true) :
    exec .heartbeatSend s = .next { s with wire := s.wire ++ [.heartbeat (symbolOf s.heartbeatBody)] } := by
  change execHeartbeatSend s = _
  unfold execHeartbeatSend
  rw [if_neg]
  · rfl
  · rcases h with h | h | h
    · rw [h]
      exact Bool.false_ne_true
    · rw [h, Bool.not_true, Bool.and_false]
      exact Bool.false_ne_true
    · rw [h, Bool.not_true, Bool.and_false]
      exact Bool.false_ne_true

/-- What leaves the pins and links, alone. -/
theorem State.only_wire (s : State) (w : List Wire) : Only [.wire] s { s with wire := w } := by
  intro p hp
  cases p with
  | wire => exact absurd List.mem_cons_self hp
  | _ => rfl

/-! ### A path is good (R376) -/

/-- The field that shows a path. -/
def pathField (ring : Bool) : Field := if ring then Reg.RED_STAT.ring_ok else Reg.RED_STAT.line_ok

/-- The redundancy when a path is heard. -/
def Red.pathAt (r : Red) (ring : Bool) (now : Nat) : Red := if ring then { r with ringAt := some now } else { r with lineAt := some now }

theorem State.pathGood_eq (s : State) (ring : Bool) :
    s.pathGood ring = if s.flag (pathField ring) 0 then s.modRed (·.pathAt ring s.now)
      else ((s.modRed (·.pathAt ring s.now)).wr (pathField ring) 0 1).raise 0x602 0 (bit ring) := rfl

theorem pathField_apart (ring : Bool) {f : Field} (h : regKey f 0 ∉ ((Reg.RED_STAT.ring_ok, 0) :: (Reg.RED_STAT.line_ok, 0) :: eventRegs).map
    (fun p => regKey p.1 p.2)) : regKey f 0 ∉ ((pathField ring, 0) :: eventRegs).map (fun p => regKey p.1 p.2) := by
  cases ring
  · exact fun hm => h (List.mem_cons_of_mem _ hm)
  · exact fun hm => h ((List.mem_cons.mp hm).elim (fun h => h ▸ List.mem_cons_self) fun h => List.mem_cons_of_mem _ (List.mem_cons_of_mem _ h))

/-- What is heard of a path. -/
structure PathHeard (s t : State) (ring : Bool) : Prop where
  red : t.red = s.red.pathAt ring s.now
  good : t.rd (pathField ring) 0 ≠ 0
  back : s.flag (pathField ring) 0 = false → Reports s t 0x602 0 (bit ring)
  stays : s.flag (pathField ring) 0 = true → t.evq = s.evq
  keeps : Keeps 0x800512 s t
  wrote : Wrote ((pathField ring, 0) :: eventRegs) s t

theorem State.pathGood_effect {s : State} (hw : tabWf 0 s.regs = true) (ring : Bool) : PathHeard s (s.pathGood ring) ring := by
  have hkeeps : Keeps 0x800512 s (s.pathGood ring) := State.pathGood_keeps (by decide) (.refl s)
  rw [State.pathGood_eq] at *
  by_cases hf : s.flag (pathField ring) 0 = true
  · rw [if_pos hf] at *
    exact {
      red := rfl
      good := by
        unfold State.flag at hf
        exact bne_iff_ne.mp hf
      back := fun h => by
        rw [hf] at h
        cases h
      stays := fun _ => rfl
      keeps := hkeeps
      wrote := (Wrote.refl hw).same rfl }
  · rw [if_neg hf] at *
    have hplace : Apart Reg.EPO_EV_MASK.range_en 0 [(pathField ring, 0)] := by cases ring <;> exact ⟨by decide, by decide, by decide⟩
    have hevents : regKey (pathField ring) 0 ∉ eventRegs.map (fun p => regKey p.1 p.2) := by cases ring <;> decide
    have hone : 1 % 2 ^ (pathField ring).width ≠ 0 := by cases ring <;> decide
    have hwrote : Wrote [(pathField ring, 0)] s ((s.modRed (·.pathAt ring s.now)).wr (pathField ring) 0 1) :=
      ((Wrote.refl hw).same (u := s.modRed (·.pathAt ring s.now)) rfl).wr 1 List.mem_cons_self
    exact {
      red := State.raise_red ..
      good := by
        rw [State.rd_raise hwrote.wf _ _ _ hevents, State.rd_wr_self (s := s.modRed (·.pathAt ring s.now)) _ _ _ hw]
        exact hone
      back := fun _ => hwrote.reports _ _ (by decide) hplace rfl rfl rfl
      stays := fun h => absurd h hf
      keeps := hkeeps
      wrote := (hwrote.mono (by simp)).raise _ _ _ fun p hp => List.mem_cons_of_mem _ hp }

/-! ### The partner is heard (R376, R387, R391) -/

/-- What a heartbeat shows of the partner. -/
def State.heardShown (s : State) (code claim : Nat) : State :=
  (s.wrAll [(Reg.RED_STAT.partner_code, 0, code), (Reg.RED_PEER_CLAIM.claim, 0, claim)]).seeTerm (claim % 2 ^ 28)

/-- The redundancy once a code is heard. -/
def Red.heardCode (r : Red) (ring : Bool) (code role now : Nat) : Red :=
  let plain := code == 3 || code == 4 || code == 0 || code == 8
  { r with
    activeAt := if code = 3 then some now else r.activeAt
    heard := if role = 0 then code :: r.heard.filter (· != code) else r.heard
    wasActive := if code = 3 then true else if plain then false else r.wasActive
    lineOther := if plain then 0 else if ring then r.lineOther else r.lineOther + 1
    ringOther := if plain then 0 else if ring then r.ringOther + 1 else r.ringOther }

/-- An ACTIVE unit begins to hear code 7. -/
def State.heardReset (s : State) (before code : Nat) : State :=
  if s.role = 3 ∧ code = 7 ∧ before ≠ 7 then (s.wr Reg.RED_FLAGS.partner_reset 0 1).raise 0x60F 0 0 else s

/-- The outgoing unit of a handover hears its partner's new term. -/
def State.heardTerm (s : State) (code claim : Nat) : State :=
  if s.red.hand = .outgoing ∧ code = 3 ∧ claim % 2 ^ 28 = s.rd Reg.RED_CLAIM.claim 0 % 2 ^ 28 + 1 then
    s.modRed (fun r => { r with termSeen := true })
  else s

/-- What the codes heard mean for the role; `own` is the unit's claim. -/
def State.heardRole (s : State) (own code claim : Nat) : State :=
  if s.role = 3 ∧ s.red.hand = .none ∧ code = 3 ∧ claimBelow own claim then s.demote 0 claim true
  else if (s.role = 1 ∨ s.role = 6) ∧ s.red.wasActive ∧ 4 ≤ s.red.lineOther ∧ 4 ≤ s.red.ringOther then
    (s.modRed (fun r => { r with wasActive := false })).partnerFailed
  else s

theorem State.heard_eq (s : State) (ring : Bool) (code claim : Nat) : s.heard ring code claim =
    let v := (s.pathGood ring).heardShown code claim
    let w := (v.modRed (·.heardCode ring code v.role v.now)).heardReset ((s.pathGood ring).rd Reg.RED_STAT.partner_code 0) code
    (w.heardTerm code claim).heardRole (w.rd Reg.RED_CLAIM.claim 0) code claim := rfl

theorem State.heardReset_other (s : State) (before : Nat) {code : Nat} (h : code ≠ 7) : s.heardReset before code = s := if_neg fun hr => h hr.2.1

theorem State.heardReset_begins {s : State} (hrole : s.role = 3) {before : Nat} (h : before ≠ 7) :
    s.heardReset before 7 = (s.wr Reg.RED_FLAGS.partner_reset 0 1).raise 0x60F 0 0 := if_pos ⟨hrole, rfl, h⟩

theorem State.heardTerm_other (s : State) {code : Nat} (h : code ≠ 3) (claim : Nat) : s.heardTerm code claim = s := if_neg fun ht => h ht.2.1

theorem State.heardTerm_of (s : State) (code claim : Nat) :
    ∃ b, s.heardTerm code claim = s.modRed (fun r => { r with termSeen := b }) ∧ (s.red.hand ≠ .outgoing → b = s.red.termSeen) := by
  unfold State.heardTerm
  split
  case isTrue h => exact ⟨true, rfl, fun hne => absurd h.1 hne⟩
  case isFalse h => exact ⟨s.red.termSeen, rfl, fun _ => rfl⟩

theorem State.heardRole_standby {s : State} (hrole : s.role = 1) (hline : s.red.lineOther = 0) (own code claim : Nat) :
    s.heardRole own code claim = s := by
  unfold State.heardRole
  rw [if_neg, if_neg]
  · rw [hline]
    exact fun h => absurd h.2.2.1 (by decide)
  · rw [hrole]
    exact fun h => absurd h.1 (by decide)

theorem State.heardRole_active {s : State} (hrole : s.role = 3) {code : Nat} (h : code ≠ 3) (own claim : Nat) : s.heardRole own code claim = s := by
  unfold State.heardRole
  rw [if_neg (fun hd => h hd.2.2.1), if_neg]
  rw [hrole]
  exact fun h => absurd h.1 (by decide)

/-- What a heartbeat shows. -/
structure CodeShown (s t : State) (code claim : Nat) : Prop where
  shows : t.rd Reg.RED_STAT.partner_code 0 = code
  claims : t.rd Reg.RED_PEER_CLAIM.claim 0 = claim
  term : t.rd Reg.RED_TERM_SEEN.term 0 = max (s.rd Reg.RED_TERM_SEEN.term 0) (claim % 2 ^ 28)
  keeps : Keeps 0x10 s t
  evq : t.evq = s.evq
  wrote : Wrote [(Reg.RED_STAT.partner_code, 0), (Reg.RED_PEER_CLAIM.claim, 0), (Reg.RED_TERM_SEEN.term, 0)] s t

theorem State.heardShown_effect {s : State} (hw : tabWf 0 s.regs = true) {code claim : Nat} (hcode : code < 16) (hclaim : claim < 2 ^ 32) :
    CodeShown s (s.heardShown code claim) code claim := by
  have hread := State.rd_wrAll [Reg.RED_STAT.partner_code, Reg.RED_PEER_CLAIM.claim]
    (l := [(Reg.RED_STAT.partner_code, 0, code), (Reg.RED_PEER_CLAIM.claim, 0, claim)]) rfl (by decide) hw (by simp)
  have hcodes := hread (Reg.RED_STAT.partner_code, 0, code) (by simp)
  have hclaims := hread (Reg.RED_PEER_CLAIM.claim, 0, claim) (by simp)
  have hwrote : Wrote [(Reg.RED_STAT.partner_code, 0), (Reg.RED_PEER_CLAIM.claim, 0)] s
      (s.wrAll [(Reg.RED_STAT.partner_code, 0, code), (Reg.RED_PEER_CLAIM.claim, 0, claim)]) :=
    State.wrAll_wrote hw [(Reg.RED_STAT.partner_code, 0, code), (Reg.RED_PEER_CLAIM.claim, 0, claim)]
  have hkeeps : Keeps 0x10 s (s.heardShown code claim) := State.seeTerm_keeps (by decide) (State.wrAll_keeps (by decide) _ (.refl s))
  unfold State.heardShown at *
  generalize s.wrAll [(Reg.RED_STAT.partner_code, 0, code), (Reg.RED_PEER_CLAIM.claim, 0, claim)] = u at *
  have hsee : Wrote [(Reg.RED_TERM_SEEN.term, 0)] u (u.seeTerm (claim % 2 ^ 28)) := (Wrote.refl hwrote.wf).seeTerm _ List.mem_cons_self
  exact {
    shows := (hsee.rd ⟨by decide, by decide, by decide⟩).trans (hcodes.trans (Nat.mod_eq_of_lt hcode))
    claims := (hsee.rd ⟨by decide, by decide, by decide⟩).trans (hclaims.trans (Nat.mod_eq_of_lt hclaim))
    term := by
      rw [State.rd_seeTerm hwrote.wf (Nat.mod_lt _ (by decide)), hwrote.rd ⟨by decide, by decide, by decide⟩]
    keeps := hkeeps
    evq := hkeeps.evq.get (by decide)
    wrote := (hwrote.mono (by simp)).trans (hsee.mono (by simp)) }

/-- What a standby hears of an ACTIVE partner. -/
structure StandbyHears (s t : State) (ring : Bool) (claim : Nat) : Prop where
  shows : t.rd Reg.RED_STAT.partner_code 0 = 3
  claims : t.rd Reg.RED_PEER_CLAIM.claim 0 = claim
  term : t.rd Reg.RED_TERM_SEEN.term 0 = max (s.rd Reg.RED_TERM_SEEN.term 0) (claim % 2 ^ 28)
  good : t.rd (pathField ring) 0 ≠ 0
  back : s.flag (pathField ring) 0 = false → Reports s t 0x602 0 (bit ring)
  stays : s.flag (pathField ring) 0 = true → t.evq = s.evq
  red : t.red = { s.red.pathAt ring s.now with activeAt := some s.now, wasActive := true, lineOther := 0, ringOther := 0, termSeen := t.red.termSeen }
  seen : s.red.hand ≠ .outgoing → t.red.termSeen = s.red.termSeen
  keeps : Keeps 0x800512 s t
  wrote : Wrote ([(pathField ring, 0), (Reg.RED_STAT.partner_code, 0), (Reg.RED_PEER_CLAIM.claim, 0), (Reg.RED_TERM_SEEN.term, 0)] ++ eventRegs) s t

theorem State.heard_standby {s : State} (hw : tabWf 0 s.regs = true) (hrole : s.role = 1) (ring : Bool) {claim : Nat} (hclaim : claim < 2 ^ 32) :
    StandbyHears s (s.heard ring 3 claim) ring claim := by
  have hp := State.pathGood_effect hw ring
  have hc := State.heardShown_effect hp.wrote.wf (code := 3) (by decide) hclaim
  rw [State.heard_eq]
  dsimp only
  generalize s.pathGood ring = u at *
  generalize u.heardShown 3 claim = v at *
  have hrole' : v.role = s.role := (hc.wrote.rd ⟨by decide, by decide, by decide⟩).trans (hp.wrote.but _ _ (pathField_apart ring (by decide)))
  have hclk : v.clk = s.clk := (hc.keeps.clk.get (by decide)).trans (hp.keeps.clk.get (by decide))
  have hnow : v.now = s.now := congrArg Clk.time hclk
  have hred : v.red = s.red.pathAt ring s.now := (hc.keeps.red.get (by decide)).trans hp.red
  rw [hrole', hnow, hrole, State.heardReset_other _ _ (by decide)]
  obtain ⟨b, hb, hseen⟩ := (v.modRed (·.heardCode ring 3 1 s.now)).heardTerm_of 3 claim
  have hkeeps : Keeps 0x800512 s ((v.modRed (·.heardCode ring 3 1 s.now)).modRed (fun r => { r with termSeen := b })) :=
    State.modRed_keeps (by decide) (State.modRed_keeps (by decide) (hp.keeps.trans (hc.keeps.mono (by decide))))
  have hstays := State.heardRole_standby (s := (v.modRed (·.heardCode ring 3 1 s.now)).modRed (fun r => { r with termSeen := b }))
    (hrole'.trans hrole) rfl
  rw [hb, hstays]
  have hterm : u.rd Reg.RED_TERM_SEEN.term 0 = s.rd Reg.RED_TERM_SEEN.term 0 := hp.wrote.but _ _ (pathField_apart ring (by decide))
  have hgood : v.rd (pathField ring) 0 = u.rd (pathField ring) 0 := by
    refine hc.wrote.but _ _ ?_
    cases ring <;> decide
  exact {
    shows := hc.shows
    claims := hc.claims
    term := hc.term.trans (by rw [hterm])
    good := fun h => hp.good (hgood.symm.trans h)
    back := fun h => reports_then (hp.back h) hc.evq
    stays := fun h => hc.evq.trans (hp.stays h)
    red := by
      change { v.red.heardCode ring 3 1 s.now with termSeen := b } = _
      rw [hred]
      cases ring <;> rfl
    seen := fun h => by
      have hhand : (v.modRed (·.heardCode ring 3 1 s.now)).red.hand = s.red.hand := by
        change v.red.hand = _
        rw [hred]
        cases ring <;> rfl
      refine (hseen (by rw [hhand]; exact h)).trans ?_
      change v.red.termSeen = _
      rw [hred]
      cases ring <;> rfl
    keeps := hkeeps
    wrote := ((hp.wrote.mono (by simp +contextual)).trans (hc.wrote.mono (by simp +contextual))).same rfl }

/-- What an ACTIVE unit hears of a partner that begins a reset, on a path that was good. -/
structure ResetHears (s t : State) (ring : Bool) : Prop where
  shows : t.rd Reg.RED_STAT.partner_code 0 = 7
  flag : t.rd Reg.RED_FLAGS.partner_reset 0 = 1
  reports : Reports s t 0x60F 0 0
  red : t.red = (s.red.pathAt ring s.now).heardCode ring 7 3 s.now
  keeps : Keeps 0x800512 s t
  wrote : Wrote ([(Reg.RED_FLAGS.partner_reset, 0), (Reg.RED_STAT.partner_code, 0), (Reg.RED_PEER_CLAIM.claim, 0), (Reg.RED_TERM_SEEN.term, 0)]
    ++ eventRegs) s t

theorem State.heard_reset {s : State} (hw : tabWf 0 s.regs = true) (hrole : s.role = 3) {ring : Bool} (hpath : s.flag (pathField ring) 0 = true)
    (hbefore : s.rd Reg.RED_STAT.partner_code 0 ≠ 7) {claim : Nat} (hclaim : claim < 2 ^ 32) : ResetHears s (s.heard ring 7 claim) ring := by
  have hgood : s.pathGood ring = s.modRed (·.pathAt ring s.now) := by
    rw [State.pathGood_eq, if_pos hpath]
  have hwf : tabWf 0 (s.modRed (·.pathAt ring s.now)).regs = true := hw
  have hc := State.heardShown_effect hwf (code := 7) (by decide) hclaim
  rw [State.heard_eq, hgood]
  dsimp only
  have hstart : Keeps 0x800000 s (s.modRed (·.pathAt ring s.now)) := State.modRed_keeps (by decide) (.refl s)
  have hpart : (s.modRed (·.pathAt ring s.now)).rd Reg.RED_STAT.partner_code 0 ≠ 7 := hbefore
  have hred : (s.modRed (·.pathAt ring s.now)).red = s.red.pathAt ring s.now := rfl
  have hregs : Wrote [] s (s.modRed (·.pathAt ring s.now)) := (Wrote.refl hw).same rfl
  generalize s.modRed (·.pathAt ring s.now) = u at *
  generalize u.heardShown 7 claim = v at *
  have hall : Wrote [(Reg.RED_STAT.partner_code, 0), (Reg.RED_PEER_CLAIM.claim, 0), (Reg.RED_TERM_SEEN.term, 0)] s v :=
    (hregs.mono (by simp)).trans hc.wrote
  have hrole' : v.role = 3 := (hall.rd ⟨by decide, by decide, by decide⟩).trans hrole
  have hclk : v.clk = s.clk := (hc.keeps.clk.get (by decide)).trans (hstart.clk.get (by decide))
  have hnow : v.now = s.now := congrArg Clk.time hclk
  have hv : v.red = s.red.pathAt ring s.now := (hc.keeps.red.get (by decide)).trans hred
  rw [hrole', hnow, State.heardReset_begins (s := v.modRed (·.heardCode ring 7 3 s.now)) hrole' hpart]
  have hflag : Wrote [(Reg.RED_FLAGS.partner_reset, 0), (Reg.RED_STAT.partner_code, 0), (Reg.RED_PEER_CLAIM.claim, 0), (Reg.RED_TERM_SEEN.term, 0)] s
      ((v.modRed (·.heardCode ring 7 3 s.now)).wr Reg.RED_FLAGS.partner_reset 0 1) :=
    ((hall.mono (by simp)).same (u := v.modRed (·.heardCode ring 7 3 s.now)) rfl).wr 1 List.mem_cons_self
  have hreports : Reports s (((v.modRed (·.heardCode ring 7 3 s.now)).wr Reg.RED_FLAGS.partner_reset 0 1).raise 0x60F 0 0) 0x60F 0 0 :=
    hflag.reports 0 0 (by decide) ⟨by decide, by decide, by decide⟩ (hc.evq.trans (hstart.evq.get (by decide)))
      (congrArg Epo.k ((hc.keeps.epo.get (by decide)).trans (hstart.epo.get (by decide)))) hclk
  have hkeeps : Keeps 0x800512 s (((v.modRed (·.heardCode ring 7 3 s.now)).wr Reg.RED_FLAGS.partner_reset 0 1).raise 0x60F 0 0) :=
    State.raise_keeps (by decide) (State.wr_keeps (by decide) (State.modRed_keeps (by decide) ((hstart.mono (by decide)).trans (hc.keeps.mono (by decide)))))
  have hred' : (((v.modRed (·.heardCode ring 7 3 s.now)).wr Reg.RED_FLAGS.partner_reset 0 1).raise 0x60F 0 0).red = v.red.heardCode ring 7 3 s.now :=
    State.raise_red ..
  have hshown : ((v.modRed (·.heardCode ring 7 3 s.now)).wr Reg.RED_FLAGS.partner_reset 0 1).rd Reg.RED_FLAGS.partner_reset 0 = 1 :=
    State.rd_wr_self (s := v.modRed (·.heardCode ring 7 3 s.now)) _ _ _ hall.wf
  have hcode : ((v.modRed (·.heardCode ring 7 3 s.now)).wr Reg.RED_FLAGS.partner_reset 0 1).rd Reg.RED_STAT.partner_code 0 = 7 :=
    (State.rd_wr_off (s := v.modRed (·.heardCode ring 7 3 s.now)) _ _ _ _ hall.wf (by decide)).trans hc.shows
  generalize (v.modRed (·.heardCode ring 7 3 s.now)).wr Reg.RED_FLAGS.partner_reset 0 1 = x at *
  have hfinal : (x.raise 0x60F 0 0).role = 3 := (State.rd_raise hflag.wf _ _ _ (by decide)).trans ((hflag.rd ⟨by decide, by decide, by decide⟩).trans hrole)
  rw [State.heardTerm_other _ (by decide), State.heardRole_active hfinal (by decide)]
  exact {
    shows := (State.rd_raise hflag.wf _ _ _ (by decide)).trans hcode
    flag := (State.rd_raise hflag.wf _ _ _ (by decide)).trans hshown
    reports := hreports
    red := hred'.trans (by rw [hv])
    keeps := hkeeps
    wrote := (hflag.mono fun p hp => List.mem_append_left _ hp).raise _ _ _ fun p hp => List.mem_append_right _ hp }

/-! ### HEARTBEAT_SYMBOL and RING_HEARTBEAT -/

/-- What a symbol shows of itself. -/
def symbolWrites (v : Nat) : List (Field × Nat × Nat) :=
  [(Reg.RED_PEER_HB.code, 0, v / 2 ^ 28), (Reg.RED_PEER_HB.rank, 0, v / 2 ^ 24 % 16), (Reg.RED_PEER_HB.term, 0, v / 2 ^ 8 % 2 ^ 16)]

/-- The registers of `symbolWrites`. -/
abbrev symbolRegs : List (Field × Nat) := [(Reg.RED_PEER_HB.code, 0), (Reg.RED_PEER_HB.rank, 0), (Reg.RED_PEER_HB.term, 0)]

/-- The CRC-8 of a symbol is the one of its other bits. -/
def SymbolGood (v : Nat) : Prop := v % 2 ^ 8 = crc8 [v / 2 ^ 8 / 2 ^ 16, v / 2 ^ 8 / 2 ^ 8, v / 2 ^ 8]

theorem exec_heartbeatSymbol_bad {s : State} {sym : BitVec 32} (hreset : s.pwr.inReset = false) (hdormant : s.pwr.dormant = false)
    (hbad : ¬ SymbolGood sym.toNat) : exec (.heartbeatSymbol sym) s = .next (s.count Reg.RED_HB_CNT.line_bad 0) := by
  change execHeartbeatSymbol sym s = _
  unfold execHeartbeatSymbol
  dsimp only
  rw [if_neg (by rw [hreset, hdormant]; exact Bool.false_ne_true)]
  exact congrArg Host.Outcome.next (if_pos hbad)

theorem State.symbol_wrote {s : State} (hw : tabWf 0 s.regs = true) (v : Nat) : Wrote symbolRegs s (s.wrAll (symbolWrites v)) :=
  State.wrAll_wrote hw (symbolWrites v)

theorem State.rank_of_rd {s t : State} (h : t.rd Reg.RED_STAT.strap 0 = s.rd Reg.RED_STAT.strap 0) : t.rank = s.rank := by
  unfold State.rank
  rw [h]

theorem State.fullTerm_of_rd {s t : State} (h : t.rd Reg.RED_TERM_SEEN.term 0 = s.rd Reg.RED_TERM_SEEN.term 0) (low : Nat) :
    t.fullTerm low = s.fullTerm low := by
  unfold State.fullTerm
  rw [h]

theorem State.fullTerm_lt (s : State) (low : Nat) : s.fullTerm low < 2 ^ 28 := Nat.mod_lt _ (by decide)

/-- A good symbol is shown, and acts on a unit with a partner. -/
theorem exec_heartbeatSymbol {s : State} {sym : BitVec 32} (hreset : s.pwr.inReset = false) (hdormant : s.pwr.dormant = false)
    (hgood : SymbolGood sym.toNat) : exec (.heartbeatSymbol sym) s = .next (
      let u := s.wrAll (symbolWrites sym.toNat)
      if !u.paired then u
      else if sym.toNat / 2 ^ 24 % 16 = u.rank then u.strapInvalid true
      else if sym.toNat / 2 ^ 24 % 16 + u.rank ≠ 3 then u
      else u.heard false (sym.toNat / 2 ^ 28) (sym.toNat / 2 ^ 24 % 16 * 2 ^ 28 + u.fullTerm (sym.toNat / 2 ^ 8 % 2 ^ 16))) := by
  change execHeartbeatSymbol sym s = _
  unfold execHeartbeatSymbol
  dsimp only
  rw [if_neg (by rw [hreset, hdormant]; exact Bool.false_ne_true)]
  exact congrArg Host.Outcome.next (if_neg (not_not_intro hgood))

theorem exec_heartbeatSymbol_alone {s : State} (hw : tabWf 0 s.regs = true) {sym : BitVec 32} (hreset : s.pwr.inReset = false)
    (hdormant : s.pwr.dormant = false) (hgood : SymbolGood sym.toNat) (hp : s.paired = false) :
    exec (.heartbeatSymbol sym) s = .next (s.wrAll (symbolWrites sym.toNat)) := by
  have hp' : (s.wrAll (symbolWrites sym.toNat)).paired = false :=
    (State.paired_of_rd ((State.symbol_wrote hw sym.toNat).rd ⟨by decide, by decide, by decide⟩)).trans hp
  rw [exec_heartbeatSymbol hreset hdormant hgood]
  dsimp only
  rw [if_pos (by rw [hp']; rfl)]

/-- The claim that a symbol gives its sender. -/
def State.symbolClaim (s : State) (v : Nat) : Nat := v / 2 ^ 24 % 16 * 2 ^ 28 + s.fullTerm (v / 2 ^ 8 % 2 ^ 16)

theorem exec_heartbeatSymbol_heard {s : State} (hw : tabWf 0 s.regs = true) {sym : BitVec 32} (hreset : s.pwr.inReset = false)
    (hdormant : s.pwr.dormant = false) (hgood : SymbolGood sym.toNat) (hp : s.paired = true) (hrank : sym.toNat / 2 ^ 24 % 16 + s.rank = 3) :
    exec (.heartbeatSymbol sym) s
      = .next ((s.wrAll (symbolWrites sym.toNat)).heard false (sym.toNat / 2 ^ 28) (s.symbolClaim sym.toNat)) := by
  have hwrote := State.symbol_wrote hw sym.toNat
  have hp' := State.paired_of_rd (hwrote.rd (f := Reg.RED_STAT.strap) (i := 0) ⟨by decide, by decide, by decide⟩)
  have hr' := State.rank_of_rd (hwrote.rd (f := Reg.RED_STAT.strap) (i := 0) ⟨by decide, by decide, by decide⟩)
  have hf' := State.fullTerm_of_rd (hwrote.rd (f := Reg.RED_TERM_SEEN.term) (i := 0) ⟨by decide, by decide, by decide⟩)
  rw [exec_heartbeatSymbol hreset hdormant hgood]
  dsimp only
  rw [hp', hr', hf', hp, if_neg (by decide), if_neg (by omega), if_neg (not_not_intro hrank)]
  rfl

theorem exec_ringHeartbeat {s : State} (hw : tabWf 0 s.regs = true) {m : RingMsg} {rk : Fin 16} {claim : BitVec 32} {epoch ckptSeq : Nat}
    (hok : RingOk m 0 [[3 * 2 ^ 60 + rk.val * 2 ^ 56 + claim.toNat, epoch, ckptSeq]] s) (hp : s.paired = true)
    (hpartner : m.src.val = s.rd Reg.RED_RING_CFG.partner 0) (hrank : rk.val + s.rank = 3) :
    exec (.ringHeartbeat m 3 rk claim epoch ckptSeq) s = .next ((s.taken m).heard true 3 claim.toNat) := by
  have ht := State.taken_taken hw m hok.2.1
  change execRingHeartbeat m 3 rk claim epoch ckptSeq s = _
  unfold execRingHeartbeat
  rw [State.onMessage_ok hw (show RingOk m 0 [[heartbeatWord ((3 : Fin 16) : Nat) rk claim.toNat, epoch, ckptSeq]] s from hok) (by decide)]
  have hpartner' : (s.taken m).rd Reg.RED_RING_CFG.partner 0 = s.rd Reg.RED_RING_CFG.partner 0 := ht.wrote.rd ⟨by decide, by decide, by decide⟩
  have hrank' : (s.taken m).rank = s.rank := State.rank_of_rd (ht.wrote.rd ⟨by decide, by decide, by decide⟩)
  rw [ht.paired, hp, hpartner', ← hpartner, hrank', bne_self_eq_false, if_neg (by decide), if_neg (by omega), if_neg (not_not_intro hrank)]
  rfl

theorem exec_ringHeartbeat_bypassed {s : State} {m : RingMsg} (h : s.pwr.inReset = true ∨ s.pwr.dormant = true ∨ s.domain 2 ≠ 2) (htype : m.type = 0)
    (hterm : m.term < 2 ^ 28) (hseq : m.seq < 2 ^ 16) (code rk : Fin 16) (claim : BitVec 32) (epoch ckptSeq : Nat) :
    exec (.ringHeartbeat m code rk claim epoch ckptSeq) s = .next { s with wire := s.wire ++ [.bypass (1 - m.port.val) m] } := by
  have hfits : msgFits m 0 = true := by
    unfold msgFits
    rw [htype, decide_eq_true hterm, decide_eq_true hseq]
    rfl
  have hbypassed : s.ringBypassed = true := by
    unfold State.ringBypassed
    rcases h with h | h | h
    · rw [h]
      rfl
    · rw [h, Bool.or_true]
      rfl
    · rw [bne_iff_ne.mpr h, Bool.or_true]
  change execRingHeartbeat m code rk claim epoch ckptSeq s = _
  unfold execRingHeartbeat State.onMessage State.receive
  rw [if_pos hfits, if_pos hbypassed]
  rfl

/-! ### HB_PATH_LOST (R376) -/

/-- The count of a path's losses. -/
def lossField (ring : Bool) : Field := if ring then Reg.RED_HB_LOST.ring_losses else Reg.RED_HB_LOST.line_losses

theorem State.rd_healthDrop {s : State} (hw : tabWf 0 s.regs = true) {f : Field} (hf : f.place ≠ Reg.RED_REVERT_STAT.healthy_s.place) :
    s.healthDrop.rd f 0 = s.rd f 0 := State.rd_wr_off (s := s) Reg.RED_REVERT_STAT.healthy_s 0 0 f hw hf.symm

/-- The loss of a path is counted and reported. -/
def State.losePath (s : State) (ring : Bool) : State :=
  (((s.wr (pathField ring) 0 0).count (lossField ring) 0).raise 0x601 0 (bit ring)).healthDrop

/-- What the loss of a path, or of a port, changes. -/
structure Lost (s t : State) (own losses : Field) (code data : Nat) : Prop where
  off : t.rd own 0 = 0
  counted : t.rd losses 0 = min (s.rd losses 0 + 1) 65535
  reports : Reports s t code 0 data
  red : t.red = { s.red with healthyAt := none }
  keeps : Keeps 0x800512 s t
  wrote : Wrote ([(own, 0), (losses, 0), (Reg.RED_REVERT_STAT.healthy_s, 0)] ++ eventRegs) s t

theorem State.losePath_effect {s : State} (hw : tabWf 0 s.regs = true) (ring : Bool) :
    Lost s (s.losePath ring) (pathField ring) (lossField ring) 0x601 (bit ring) := by
  have hfields : Apart (pathField ring) 0 [(lossField ring, 0)] ∧ Apart (lossField ring) 0 [(pathField ring, 0)]
      ∧ Apart Reg.EPO_EV_MASK.range_en 0 [(pathField ring, 0), (lossField ring, 0)] := by
    cases ring <;> exact ⟨⟨by decide, by decide, by decide⟩, ⟨by decide, by decide, by decide⟩, ⟨by decide, by decide, by decide⟩⟩
  have hevents : regKey (pathField ring) 0 ∉ eventRegs.map (fun p => regKey p.1 p.2) ∧ regKey (lossField ring) 0 ∉ eventRegs.map (fun p => regKey p.1 p.2) := by
    cases ring <;> exact ⟨by decide, by decide⟩
  have hhealth : (pathField ring).place ≠ Reg.RED_REVERT_STAT.healthy_s.place ∧ (lossField ring).place ≠ Reg.RED_REVERT_STAT.healthy_s.place := by
    cases ring <;> exact ⟨by decide, by decide⟩
  have hwidth : 2 ^ (lossField ring).width - 1 = 65535 := by cases ring <;> rfl
  obtain ⟨hown, hloss, hmask⟩ := hfields
  have hoff : Wrote [(pathField ring, 0)] s (s.wr (pathField ring) 0 0) := (Wrote.refl hw).wr 0 List.mem_cons_self
  have hcount : Wrote [(lossField ring, 0)] (s.wr (pathField ring) 0 0) ((s.wr (pathField ring) 0 0).count (lossField ring) 0) :=
    (Wrote.refl hoff.wf).count List.mem_cons_self
  have hboth : Wrote [(pathField ring, 0), (lossField ring, 0)] s ((s.wr (pathField ring) 0 0).count (lossField ring) 0) :=
    (hoff.mono (by simp)).trans (hcount.mono (by simp))
  have hreports := hboth.reports (code := 0x601) 0 (bit ring) (by decide) hmask rfl rfl rfl
  have hzero := (hcount.rd hown).trans (State.rd_wr_self (pathField ring) 0 0 hw)
  have hone := State.rd_count_self (lossField ring) 0 hoff.wf
  rw [hoff.rd hloss, hwidth] at hone
  have hkeeps : Keeps 0x800512 s (s.losePath ring) :=
    State.healthDrop_keeps (by decide) (State.raise_keeps (by decide) (State.count_keeps (by decide) (State.wr_keeps (by decide) (.refl s))))
  have hred : (((s.wr (pathField ring) 0 0).count (lossField ring) 0).raise 0x601 0 (bit ring)).red = s.red := State.raise_red ..
  unfold State.losePath at *
  generalize (s.wr (pathField ring) 0 0).count (lossField ring) 0 = u at *
  have hraised : Wrote eventRegs u (u.raise 0x601 0 (bit ring)) := (Wrote.refl hboth.wf).raise _ _ _ fun _ hp => hp
  have hread : ∀ {f : Field}, f.place ≠ Reg.RED_REVERT_STAT.healthy_s.place → regKey f 0 ∉ eventRegs.map (fun p => regKey p.1 p.2) →
      (u.raise 0x601 0 (bit ring)).healthDrop.rd f 0 = u.rd f 0 := fun hf he =>
    (State.rd_healthDrop hraised.wf hf).trans (hraised.but _ _ he)
  exact {
    off := (hread hhealth.1 hevents.1).trans (hzero.trans (Nat.zero_mod _))
    counted := (hread hhealth.2 hevents.2).trans hone
    reports := reports_then hreports rfl
    red := by
      change { (u.raise 0x601 0 (bit ring)).red with healthyAt := none } = _
      rw [hred]
    keeps := hkeeps
    wrote := (hboth.mono (by simp)).trans ((hraised.mono (by simp +contextual)).trans
      (((Wrote.refl hraised.wf).wr (f := Reg.RED_REVERT_STAT.healthy_s) (i := 0) 0 (by simp)).same rfl)) }

theorem exec_hbPathLost {s : State} (hw : tabWf 0 s.regs = true) (path : Fin 2) (hown : s.flag (pathField (path == 1)) 0 = true)
    (hother : s.flag (pathField (!(path == 1))) 0 = true) : exec (.hbPathLost path) s = .next (s.losePath (path == 1)) := by
  change execHbPathLost path s = _
  unfold execHbPathLost
  generalize (path == 1) = ring at *
  have hgood : (s.losePath ring).flag (pathField (!ring)) 0 = true := by
    have hread : (s.losePath ring).rd (pathField (!ring)) 0 = s.rd (pathField (!ring)) 0 := by
      refine (State.losePath_effect hw ring).wrote.rd ?_
      cases ring <;> exact ⟨by decide, by decide, by decide⟩
    unfold State.flag at *
    rw [hread]
    exact hother
  have hsome : ((s.losePath ring).flag Reg.RED_STAT.line_ok 0 || (s.losePath ring).flag Reg.RED_STAT.ring_ok 0) = true := by
    cases ring
    · exact Bool.or_eq_true_iff.mpr (.inr hgood)
    · exact Bool.or_eq_true_iff.mpr (.inl hgood)
  refine congrArg Host.Outcome.next ((if_neg ?_).trans (if_pos hsome))
  have hown' : s.flag (if ring = true then Reg.RED_STAT.ring_ok else Reg.RED_STAT.line_ok) 0 = true := hown
  rw [hown']
  decide

theorem exec_hbPathLost_known {s : State} (path : Fin 2) (h : s.flag (pathField (path == 1)) 0 = false) : exec (.hbPathLost path) s = .next s := by
  change execHbPathLost path s = _
  unfold execHbPathLost
  refine congrArg Host.Outcome.next (if_pos ?_)
  have h' : s.flag (if (path == 1) = true then Reg.RED_STAT.ring_ok else Reg.RED_STAT.line_ok) 0 = false := h
  rw [h']
  rfl

/-! ### RING_PORT (R393) -/

/-- The fields of a port, east or west. -/
def portUp (east : Bool) : Field := if east then Reg.RED_RING_STAT.east_up else Reg.RED_RING_STAT.west_up
def portLosses (east : Bool) : Field := if east then Reg.RED_RING_ERR_E.lock_losses else Reg.RED_RING_ERR_W.lock_losses
def portAddr (east : Bool) : Field := if east then Reg.RED_RING_STAT.east_addr else Reg.RED_RING_STAT.west_addr
def portBypassed (east : Bool) : Field := if east then Reg.RED_RING_STAT.east_bypassed else Reg.RED_RING_STAT.west_bypassed

/-- A port that goes down is reported and counted. -/
def State.losePort (s : State) (port : Fin 2) : State :=
  (((s.wr (portUp (port == 0)) 0 0).raise 0x60C 0 port).count (portLosses (port == 0)) 0).healthDrop

theorem exec_ringPort_down {s : State} (port : Fin 2) (seen : Fin 8) (h : s.flag (portUp (port == 0)) 0 = true) :
    exec (.ringPort port false seen) s = .next (s.losePort port) := by
  change execRingPort port false seen s = _
  unfold execRingPort
  have h' : s.flag (if (port == 0) = true then Reg.RED_RING_STAT.east_up else Reg.RED_RING_STAT.west_up) 0 = true := h
  dsimp only
  rw [if_pos (show (!false) = true from rfl), h', if_neg (by decide)]
  rfl

theorem State.losePort_effect {s : State} (hw : tabWf 0 s.regs = true) (port : Fin 2) :
    Lost s (s.losePort port) (portUp (port == 0)) (portLosses (port == 0)) 0x60C port := by
  unfold State.losePort
  generalize (port == 0) = east at *
  generalize (port : Nat) = n at *
  have hfields : Apart (portUp east) 0 [(portLosses east, 0)] ∧ Apart (portLosses east) 0 ((portUp east, 0) :: eventRegs)
      ∧ Apart Reg.EPO_EV_MASK.range_en 0 [(portUp east, 0)] := by
    cases east <;> exact ⟨⟨by decide, by decide, by decide⟩, ⟨by decide, by decide, by decide⟩, ⟨by decide, by decide, by decide⟩⟩
  have hevents : regKey (portUp east) 0 ∉ eventRegs.map (fun p => regKey p.1 p.2) := by cases east <;> decide
  have hhealth : (portUp east).place ≠ Reg.RED_REVERT_STAT.healthy_s.place ∧ (portLosses east).place ≠ Reg.RED_REVERT_STAT.healthy_s.place := by
    cases east <;> exact ⟨by decide, by decide⟩
  have hwidth : 2 ^ (portLosses east).width - 1 = 65535 := by cases east <;> rfl
  obtain ⟨hown, hloss, hmask⟩ := hfields
  have hoff : Wrote [(portUp east, 0)] s (s.wr (portUp east) 0 0) := (Wrote.refl hw).wr 0 List.mem_cons_self
  have hreports := hoff.reports (code := 0x60C) 0 n (by decide) hmask rfl rfl rfl
  have hzero := (State.rd_raise hoff.wf 0x60C 0 n hevents).trans (State.rd_wr_self (portUp east) 0 0 hw)
  have hraised : Wrote ((portUp east, 0) :: eventRegs) s ((s.wr (portUp east) 0 0).raise 0x60C 0 n) :=
    (hoff.mono (by simp)).raise _ _ _ fun p hp => List.mem_cons_of_mem _ hp
  have hkeeps : Keeps 0x800512 s ((((s.wr (portUp east) 0 0).raise 0x60C 0 n).count (portLosses east) 0).healthDrop) :=
    State.healthDrop_keeps (by decide) (State.count_keeps (by decide) (State.raise_keeps (by decide) (State.wr_keeps (by decide) (.refl s))))
  have hred : ((s.wr (portUp east) 0 0).raise 0x60C 0 n).red = s.red := State.raise_red ..
  generalize (s.wr (portUp east) 0 0).raise 0x60C 0 n = u at *
  have hcount : Wrote [(portLosses east, 0)] u (u.count (portLosses east) 0) := (Wrote.refl hraised.wf).count List.mem_cons_self
  have hone := State.rd_count_self (portLosses east) 0 hraised.wf
  rw [hraised.rd hloss, hwidth] at hone
  exact {
    off := (State.rd_healthDrop hcount.wf hhealth.1).trans ((hcount.rd hown).trans (hzero.trans (Nat.zero_mod _)))
    counted := (State.rd_healthDrop hcount.wf hhealth.2).trans hone
    reports := reports_then hreports rfl
    red := by
      change { u.red with healthyAt := none } = _
      rw [hred]
    keeps := hkeeps
    wrote := (hraised.mono (by simp +contextual)).trans ((hcount.mono (by simp)).trans
      (((Wrote.refl hcount.wf).wr (f := Reg.RED_REVERT_STAT.healthy_s) (i := 0) 0 (by simp)).same rfl)) }

/-- A port shows the address that it sees, and how many units its bypasses span. -/
def State.showPort (s : State) (east : Bool) (seen : Nat) : State :=
  let s := s.wr (portAddr east) 0 seen
  if s.rd (portBypassed east) 0 = s.bypassedAt east seen then s
  else
    let s := s.wr (portBypassed east) 0 (s.bypassedAt east seen)
    s.raise 0x60D 0 (s.rd Reg.RED_RING_STAT.east_bypassed 0 + 4 * s.rd Reg.RED_RING_STAT.west_bypassed 0)

/-- A port that goes up, where it was down, is reported. -/
def State.raisePort (s : State) (port : Fin 2) : State :=
  if s.flag (portUp (port == 0)) 0 = true then s else (s.wr (portUp (port == 0)) 0 1).raise 0x60C 0 (port.val + 2 * bit true)

theorem exec_ringPort_up (s : State) (port : Fin 2) (seen : Fin 8) :
    exec (.ringPort port true seen) s = .next ((s.raisePort port).showPort (port == 0) seen) := rfl

theorem State.raisePort_effect {s : State} (hw : tabWf 0 s.regs = true) (port : Fin 2) :
    let t := s.raisePort port
    t.rd (portUp (port == 0)) 0 ≠ 0 ∧ Keeps 0x512 s t ∧ Wrote ((portUp (port == 0), 0) :: eventRegs) s t := by
  intro t
  have ht : t = s.raisePort port := rfl
  unfold State.raisePort at ht
  rw [ht]
  generalize (port == 0) = east at *
  have hevents : regKey (portUp east) 0 ∉ eventRegs.map (fun p => regKey p.1 p.2) := by cases east <;> decide
  have hone : 1 % 2 ^ (portUp east).width ≠ 0 := by cases east <;> decide
  split
  case isTrue h => exact ⟨bne_iff_ne.mp h, .refl s, .refl hw⟩
  case isFalse h =>
    have hup : Wrote [(portUp east, 0)] s (s.wr (portUp east) 0 1) := (Wrote.refl hw).wr 1 List.mem_cons_self
    refine ⟨?_, State.raise_keeps (by decide) (State.wr_keeps (by decide) (.refl s)), (hup.mono (by simp)).raise _ _ _ fun p hp => List.mem_cons_of_mem _ hp⟩
    rw [State.rd_raise hup.wf _ _ _ hevents, State.rd_wr_self _ _ _ hw]
    exact hone

theorem State.showPort_effect {s : State} (hw : tabWf 0 s.regs = true) (east : Bool) {seen : Nat} (hseen : seen < 8) :
    let t := s.showPort east seen
    t.rd (portAddr east) 0 = seen ∧ t.rd (portUp east) 0 = s.rd (portUp east) 0 ∧ Keeps 0x512 s t
      ∧ Wrote ([(portAddr east, 0), (portBypassed east, 0)] ++ eventRegs) s t := by
  intro t
  have ht : t = s.showPort east seen := rfl
  unfold State.showPort at ht
  dsimp only at ht
  have hapart : Apart (portAddr east) 0 ((portBypassed east, 0) :: eventRegs) ∧ Apart (portUp east) 0 ([(portAddr east, 0), (portBypassed east, 0)] ++ eventRegs) := by
    cases east <;> exact ⟨⟨by decide, by decide, by decide⟩, ⟨by decide, by decide, by decide⟩⟩
  have hwidth : seen % 2 ^ (portAddr east).width = seen := by
    cases east <;> exact Nat.mod_eq_of_lt hseen
  have haddr : Wrote [(portAddr east, 0)] s (s.wr (portAddr east) 0 seen) := (Wrote.refl hw).wr _ List.mem_cons_self
  have hread := State.rd_wr_self (portAddr east) 0 seen hw
  rw [hwidth] at hread
  have hkept : Keeps 0x512 s (s.wr (portAddr east) 0 seen) := State.wr_keeps (by decide) (.refl s)
  generalize s.wr (portAddr east) 0 seen = u at *
  have hrest : Keeps 0x512 u t ∧ Wrote ((portBypassed east, 0) :: eventRegs) u t := by
    rw [ht]
    split
    · exact ⟨.refl u, .refl haddr.wf⟩
    · exact ⟨State.raise_keeps (by decide) (State.wr_keeps (by decide) (.refl u)),
        ((Wrote.refl haddr.wf).wr _ List.mem_cons_self).raise _ _ _ fun p hp => List.mem_cons_of_mem _ hp⟩
  have hall : Wrote ([(portAddr east, 0), (portBypassed east, 0)] ++ eventRegs) s t :=
    (haddr.mono (by simp)).trans (hrest.2.mono (by simp +contextual))
  exact ⟨(hrest.2.rd hapart.1).trans hread, hall.rd hapart.2, hkept.trans hrest.1, hall⟩

end Sys2Proof.Machine

namespace Sys2Proof.Proofs

open Sys2Proof Sys2Proof.Machine Sys2Proof.Safety

/-- Settles O49: a symbol and a ring message by `State.heard_standby` and `State.heard_reset`, paths and ports by `State.losePath_effect`,
`State.losePort_effect` and `State.showPort_effect`. -/
theorem heartbeatPaths : Obligations.HeartbeatPaths := by
  intro s sym hs own sends body b good code rank full seen shown heard symbol rest
  have hsym : sym.toNat < 2 ^ 32 := sym.isLt
  have hcode : code < 16 := by omega
  have hwrote := State.symbol_wrote hs.regs sym.toNat
  have hclaim : s.symbolClaim sym.toNat < 2 ^ 32 := by
    have hfull := s.fullTerm_lt (sym.toNat / 2 ^ 8 % 2 ^ 16)
    unfold State.symbolClaim
    omega
  have hterm : s.symbolClaim sym.toNat % 2 ^ 28 = full := by
    have hfull := s.fullTerm_lt (sym.toNat / 2 ^ 8 % 2 ^ 16)
    unfold State.symbolClaim
    change _ = s.fullTerm (sym.toNat / 2 ^ 8 % 2 ^ 16)
    omega
  refine ⟨fun h => ⟨_, exec_heartbeatSend h, rfl, ?send⟩, exec_heartbeatSend_none, fun hreset hdormant hbad => ?bad,
    fun hreset hdormant hgood hp => ?alone, fun hreset hdormant hgood hp hrank => ⟨fun hrole hcode3 => ?standby, fun hrole hcode7 hbefore hpath => ?active⟩,
    fun m rk claim epoch ckptSeq hok hp hpartner hrank hrole => ?ring, fun m c rk claim epoch ckptSeq h htype hmterm hseq => ?bypass,
    fun path => ?path, fun port at_ => ?down, fun port at_ => ?up⟩
  case send => exact s.only_wire _
  case bad =>
    exact ⟨_, exec_heartbeatSymbol_bad hreset hdormant hbad, State.rd_count_self _ _ hs.regs, State.count_only _ _ _,
      ((Wrote.refl hs.regs).count List.mem_cons_self).but⟩
  case alone =>
    have hread := State.rd_wrAll [Reg.RED_PEER_HB.code, Reg.RED_PEER_HB.rank, Reg.RED_PEER_HB.term] (l := symbolWrites sym.toNat) rfl (by decide)
      hs.regs (by simp [symbolWrites])
    have hc := hread (Reg.RED_PEER_HB.code, 0, sym.toNat / 2 ^ 28) (by simp [symbolWrites])
    have hr := hread (Reg.RED_PEER_HB.rank, 0, sym.toNat / 2 ^ 24 % 16) (by simp [symbolWrites])
    have ht := hread (Reg.RED_PEER_HB.term, 0, sym.toNat / 2 ^ 8 % 2 ^ 16) (by simp [symbolWrites])
    exact ⟨_, exec_heartbeatSymbol_alone hs.regs hreset hdormant hgood hp, hc.trans (Nat.mod_eq_of_lt hcode),
      hr.trans (Nat.mod_mod _ 16), ht.trans (Nat.mod_mod _ (2 ^ 16)), (State.wrAll_keeps (M := 0x10) (by decide) _ (.refl s)).only (by decide), hwrote.but⟩
  case standby =>
    have hexec := exec_heartbeatSymbol_heard hs.regs hreset hdormant hgood hp hrank
    rw [show sym.toNat / 2 ^ 28 = 3 from hcode3] at hexec
    have hrole' : (s.wrAll (symbolWrites sym.toNat)).role = 1 := (hwrote.rd ⟨by decide, by decide, by decide⟩).trans hrole
    have hh := State.heard_standby hwrote.wf hrole' false hclaim
    have hstart : Keeps 0x10 s (s.wrAll (symbolWrites sym.toNat)) := State.wrAll_keeps (by decide) _ (.refl s)
    generalize s.wrAll (symbolWrites sym.toNat) = u at *
    generalize u.heard false 3 (s.symbolClaim sym.toNat) = t at *
    have hflag : u.flag Reg.RED_STAT.line_ok 0 = s.flag Reg.RED_STAT.line_ok 0 := congrArg (· != 0) (hwrote.rd ⟨by decide, by decide, by decide⟩)
    have hnow : u.now = s.now := congrArg Clk.time (hstart.clk.get (by decide))
    refine ⟨t, hexec, ⟨hh.shows.trans hcode3.symm, hh.claims, hh.good, fun h => ?_, fun h => (hh.stays (hflag.trans h)).trans (hstart.evq.get (by decide))⟩,
      ?_, ?_, fun h => ?_, ((hstart.mono (by decide)).trans hh.keeps).only (by decide), ?_⟩
    · exact reports_from (hh.back (hflag.trans h)) (hstart.evq.get (by decide)) (congrArg Epo.k (hstart.epo.get (by decide))) (hstart.clk.get (by decide))
        (hwrote.rd ⟨by decide, by decide, by decide⟩)
    · rw [hh.term, hterm, hwrote.rd ⟨by decide, by decide, by decide⟩]
    · rw [← hnow, ← (hstart.red.get (by decide) : u.red = s.red)]
      exact hh.red
    · rw [← (hstart.red.get (by decide) : u.red = s.red)] at h ⊢
      exact hh.seen h
    · exact ((hwrote.mono (by simp [symbol])).trans (hh.wrote.mono (by simp +contextual [heard, pathField]))).but
  case active =>
    have hexec := exec_heartbeatSymbol_heard hs.regs hreset hdormant hgood hp hrank
    rw [show sym.toNat / 2 ^ 28 = 7 from hcode7] at hexec
    have hrole' : (s.wrAll (symbolWrites sym.toNat)).role = 3 := (hwrote.rd ⟨by decide, by decide, by decide⟩).trans hrole
    have hflag : (s.wrAll (symbolWrites sym.toNat)).flag Reg.RED_STAT.line_ok 0 = true :=
      (congrArg (· != 0) (hwrote.rd ⟨by decide, by decide, by decide⟩)).trans hpath
    have hbefore' : (s.wrAll (symbolWrites sym.toNat)).rd Reg.RED_STAT.partner_code 0 ≠ 7 := by
      rw [hwrote.rd ⟨by decide, by decide, by decide⟩]
      exact hbefore
    have hh := State.heard_reset hwrote.wf hrole' (ring := false) hflag hbefore' hclaim
    have hstart : Keeps 0x10 s (s.wrAll (symbolWrites sym.toNat)) := State.wrAll_keeps (by decide) _ (.refl s)
    generalize s.wrAll (symbolWrites sym.toNat) = u at *
    generalize u.heard false 7 (s.symbolClaim sym.toNat) = t at *
    have hnow : u.now = s.now := congrArg Clk.time (hstart.clk.get (by decide))
    refine ⟨t, hexec, hh.shows, hh.flag, ?_, ?_, ((hstart.mono (by decide)).trans hh.keeps).only (by decide), ?_⟩
    · exact reports_from hh.reports (hstart.evq.get (by decide)) (congrArg Epo.k (hstart.epo.get (by decide))) (hstart.clk.get (by decide))
        (hwrote.rd ⟨by decide, by decide, by decide⟩)
    · rw [hh.red, hnow, (hstart.red.get (by decide) : u.red = s.red)]
      rfl
    · exact ((hwrote.mono (by simp [symbol])).trans (hh.wrote.mono (by simp +contextual [heard]))).but
  case ring =>
    have ht := State.taken_taken hs.regs m hok.2.1
    have hexec := exec_ringHeartbeat hs.regs hok hp hpartner hrank
    generalize s.taken m = u at *
    have hh := State.heard_standby ht.wrote.wf (ht.role.trans hrole) true claim.isLt
    generalize u.heard true 3 claim.toNat = t at *
    have hflag : u.flag Reg.RED_STAT.ring_ok 0 = s.flag Reg.RED_STAT.ring_ok 0 := congrArg (· != 0) (ht.wrote.rd ⟨by decide, by decide, by decide⟩)
    have hclk : u.clk = s.clk := ht.only .clk (by decide)
    have hevq : u.evq = s.evq := ht.only .evq (by decide)
    refine ⟨t, hexec, ⟨hh.shows, hh.claims, hh.good, fun h => ?_, fun h => (hh.stays (hflag.trans h)).trans hevq⟩,
      ?_, fun h => ?_, ht.wire ▸ hh.keeps.wire, only_trans (only_mono (by simp [eventParts]) ht.only) (hh.keeps.only (by decide)), ?_⟩
    · exact reports_from (hh.back (hflag.trans h)) hevq (congrArg Epo.k ht.epo) hclk (ht.wrote.rd ⟨by decide, by decide, by decide⟩)
    · have hnow : u.now = s.now := congrArg Clk.time hclk
      rw [← hnow]
      refine hh.red.trans ?_
      rw [ht.red]
      rfl
    · refine (hh.seen ?_).trans ?_
      · rw [ht.red]
        exact h
      · rw [ht.red]
    · exact ((ht.wrote.mono (by simp [heard])).trans (hh.wrote.mono (by simp +contextual [heard, pathField]))).but
  case bypass =>
    exact ⟨_, exec_ringHeartbeat_bypassed h htype hmterm hseq c rk claim epoch ckptSeq, rfl, s.only_wire _⟩
  case path =>
    intro own other losses
    have hown : own = pathField (path == 1) := by fin_cases path <;> rfl
    have hother : other = pathField (!(path == 1)) := by fin_cases path <;> rfl
    have hlosses : losses = lossField (path == 1) := by fin_cases path <;> rfl
    have hbit : bit (path == 1) = path.val := by fin_cases path <;> rfl
    rw [hown, hother, hlosses]
    refine ⟨fun hgood hgood' => ?_, exec_hbPathLost_known path⟩
    have hl := State.losePath_effect hs.regs (path == 1)
    exact ⟨_, exec_hbPathLost hs.regs path hgood hgood', hl.off, hl.counted, hbit ▸ hl.reports, hl.red, hl.keeps.only (by decide), hl.wrote.but⟩
  case down =>
    intro up losses hup
    have hl := State.losePort_effect hs.regs port
    have hfields : up = portUp (port == 0) ∧ losses = portLosses (port == 0) := by fin_cases port <;> exact ⟨rfl, rfl⟩
    rw [hfields.1] at hup ⊢
    rw [hfields.2]
    exact ⟨_, exec_ringPort_down port at_ hup, hl.off, hl.counted, hl.reports, hl.red, hl.keeps.only (by decide), hl.wrote.but⟩
  case up =>
    intro up addr bypassed
    have hfields : up = portUp (port == 0) ∧ addr = portAddr (port == 0) ∧ bypassed = portBypassed (port == 0) := by fin_cases port <;> exact ⟨rfl, rfl, rfl⟩
    obtain ⟨hup, haddr, hbypassed⟩ := hfields
    rw [hup, haddr, hbypassed]
    obtain ⟨hon, hraised, hfirst⟩ := State.raisePort_effect hs.regs port
    obtain ⟨hseen, hstays, hshown, hsecond⟩ := State.showPort_effect hfirst.wf (port == 0) at_.isLt
    refine ⟨_, exec_ringPort_up s port at_, ?_, hseen, (hraised.trans hshown).only (by decide), ?_⟩
    · unfold State.flag
      rw [hstays]
      exact bne_iff_ne.mpr hon
    · exact ((hfirst.mono (by simp +contextual)).trans (hsecond.mono (by simp +contextual))).but

end Sys2Proof.Proofs

/-! ## What a request on stop targets writes

A request of the safety domain reaches arms, lanes and units. `AboveWrote b low` says of the registers that a chain of operations wrote fields
from address `b` on and fields of `low` alone; the arms, lanes and units lie above the domain's own registers. -/

namespace Sys2Proof.Machine

open Sys2Proof.Safety

/-- Nothing but fields from address `b` on and fields of `low` is written on the way from s to t. -/
def AboveWrote (b : Nat) (low : List (Field × Nat)) (s t : State) : Prop :=
  ∃ l, (∀ p ∈ l, b * 32 ≤ p.1.place ∨ p ∈ low) ∧ Wrote l s t

namespace AboveWrote

variable {b : Nat} {low : List (Field × Nat)} {s t u : State}

theorem refl (h : tabWf 0 s.regs = true) : AboveWrote b low s s := ⟨[], nofun, .refl h⟩

theorem of {l : List (Field × Nat)} (h : Wrote l s t) (hl : ∀ p ∈ l, p ∈ low) : AboveWrote b low s t := ⟨l, fun p hp => .inr (hl p hp), h⟩

theorem wf (h : AboveWrote b low s t) : tabWf 0 t.regs = true := by
  obtain ⟨l, -, hw⟩ := h
  exact hw.wf

theorem trans (h : AboveWrote b low s t) (h' : AboveWrote b low t u) : AboveWrote b low s u := by
  obtain ⟨l, hl, hw⟩ := h
  obtain ⟨l', hl', hw'⟩ := h'
  exact ⟨l ++ l', fun p hp => (List.mem_append.mp hp).elim (hl p) (hl' p),
    (hw.mono fun p hp => List.mem_append_left _ hp).trans (hw'.mono fun p hp => List.mem_append_right _ hp)⟩

theorem mono {low' : List (Field × Nat)} (h : AboveWrote b low s t) (hl : ∀ p ∈ low, p ∈ low') : AboveWrote b low' s t := by
  obtain ⟨l, hp, hw⟩ := h
  exact ⟨l, fun p hm => (hp p hm).imp_right (hl p), hw⟩

theorem same (h : AboveWrote b low s t) (hregs : u.regs = t.regs) : AboveWrote b low s u := by
  obtain ⟨l, hl, hw⟩ := h
  exact ⟨l, hl, hw.same hregs⟩

/-- An operation that leaves the registers. -/
theorem keeps {M : Nat} (h : AboveWrote b low s t) (hk : Keeps M t u) (hm : M.testBit 4 = false) : AboveWrote b low s u :=
  h.same (hk.regs.resolve_left (by rw [hm]; exact Bool.false_ne_true))

theorem wr (h : AboveWrote b low s t) (f : Field) (i v : Nat) (hf : b * 32 ≤ f.place) : AboveWrote b low s (t.wr f i v) :=
  h.trans ⟨[(f, i)], fun _ hp => .inl (List.mem_singleton.mp hp ▸ hf), (Wrote.refl h.wf).wr v List.mem_cons_self⟩

theorem count (h : AboveWrote b low s t) (f : Field) (i : Nat) (hf : b * 32 ≤ f.place) : AboveWrote b low s (t.count f i) := h.wr f i _ hf

theorem wrLow (h : AboveWrote b low s t) {f : Field} {i : Nat} (v : Nat) (hf : (f, i) ∈ low) : AboveWrote b low s (t.wr f i v) :=
  h.trans (.of (l := [(f, i)]) ((Wrote.refl h.wf).wr v List.mem_cons_self) fun _ hp => List.mem_singleton.mp hp ▸ hf)

theorem setBit (h : AboveWrote b low s t) {f : Field} {i : Nat} (n : Nat) (v : Bool) (hf : (f, i) ∈ low) : AboveWrote b low s (t.setBit f i n v) :=
  h.wrLow _ hf

theorem raise (h : AboveWrote b low s t) (hev : ∀ p ∈ eventRegs, p ∈ low) (code inst data : Nat) : AboveWrote b low s (t.raise code inst data) :=
  h.trans (.of ((Wrote.refl h.wf).raise code inst data fun _ hp => hp) hev)

theorem ite {c : Prop} [Decidable c] (ht : AboveWrote b low s t) (hu : AboveWrote b low s u) : AboveWrote b low s (if c then t else u) := by
  split <;> assumption

theorem foldl {α : Type} {f : State → α → State} (l : List α) (hf : ∀ x ∈ l, ∀ t, AboveWrote b low s t → AboveWrote b low s (f t x)) :
    ∀ {t : State}, AboveWrote b low s t → AboveWrote b low s (l.foldl f t) := by
  induction l with
  | nil => exact fun h => h
  | cons x l ih =>
    exact fun h => ih (fun y hy => hf y (List.mem_cons_of_mem _ hy)) (hf x List.mem_cons_self _ h)

/-- What lies below and is not of `low` reads as before. -/
theorem rd (h : AboveWrote b low s t) {f : Field} {i : Nat} (hi : i < 8192) (hf : f.place < b * 32)
    (hother : regKey f i ∉ low.map (fun p => regKey p.1 p.2)) : t.rd f i = s.rd f i := by
  obtain ⟨l, hl, hw⟩ := h
  refine hw.but f i fun hm => ?_
  obtain ⟨p, hp, hk⟩ := List.mem_map.mp hm
  rcases hl p hp with habove | hlow
  · unfold Field.place at hf habove
    unfold regKey at hk
    omega
  · exact hother (List.mem_map.mpr ⟨p, hlow, hk⟩)

end AboveWrote

/-! ### Arms, lanes and units -/

/-- The arms, the lanes and the points lie from here on. -/
abbrev armBase : Nat := 0x10000

section Reach

variable {low : List (Field × Nat)} {s t : State} (hev : ∀ p ∈ eventRegs, p ∈ low)
include hev

theorem AboveWrote.armHold (h : AboveWrote armBase low s t) (a : Nat) : AboveWrote armBase low s (t.armHold a) :=
  .ite h (.ite ((h.wr Reg.ARM_STAT.saf_hold a 1 (by decide)).raise hev _ _ _) (h.wr Reg.ARM_STAT.saf_hold a 1 (by decide)))

theorem AboveWrote.armStop (h : AboveWrote armBase low s t) (a : Nat) : AboveWrote armBase low s (t.armStop a) := by
  have hheld := (h.wr Reg.ARM_STAT.saf_hold a 1 (by decide)).raise hev 0x10E a t.epoch
  exact .ite (hheld.wr Reg.ARM_STAT.state a 4 (by decide)) hheld

theorem AboveWrote.armBlockNow (h : AboveWrote armBase low s t) (a cause : Nat) : AboveWrote armBase low s (t.armBlockNow a cause) := by
  unfold State.armBlockNow
  have hunit : AboveWrote armBase low s (if t.bs.profile.sst then t.modUnit (a / 3) (fun r => { r with follow := true }) else t) :=
    .ite (h.same rfl) h
  exact .ite h (((hunit.same (u := State.modArm _ a _) rfl).wr Reg.ARM_STAT.state a _ (by decide)).raise hev _ _ _)

theorem AboveWrote.restriped (h : AboveWrote armBase low s t) (e : LaneEntry) : AboveWrote armBase low s (t.restriped e) :=
  .ite ((h.count Reg.LANE_LOCK_CNT.restripes e.lane (by decide)).raise hev _ _ _) h

theorem AboveWrote.markerRow (h : AboveWrote armBase low s t) (e : LaneEntry) : AboveWrote armBase low s (t.markerRow e) := by
  have hmask := h.wr Reg.LANE_STAT.tx_mask e.lane (t.activeSet e) (by decide)
  unfold State.markerRow
  dsimp only
  refine .same (AboveWrote.foldl _ (fun l _ u hu => ?_) (.ite hmask ((hmask.restriped hev e).wr Reg.LANE_STAT.degraded e.lane _ (by decide)))) rfl
  exact .ite (hu.same rfl) hu

theorem AboveWrote.sendNext (h : AboveWrote armBase low s t) (e : LaneEntry) (payload : Nat) :
    AboveWrote armBase low s (t.sendNext e payload) := by
  have hmarker : AboveWrote armBase low s (t.markerDue e) := .ite (h.markerRow hev e) h
  unfold State.sendNext
  dsimp only
  exact (hmarker.keeps (State.sendRow_keeps (M := 0x10002) (by decide) (.refl _)) (by decide)).same rfl

theorem AboveWrote.insertPrio (h : AboveWrote armBase low s t) (l : Nat) (safety block : Bool) :
    AboveWrote armBase low s (t.insertPrio l safety block) := by
  have hblocked : ∀ u, AboveWrote armBase low s u → AboveWrote armBase low s (if block then u.laneBlocked l else u) := fun u hu =>
    .ite (hu.keeps (State.laneBlocked_keeps (M := 0x8000) (by decide) (.refl u)) (by decide)) hu
  unfold State.insertPrio
  cases t.bs.laneEntry l with
  | none => exact hblocked _ h
  | some e => exact hblocked _ (h.sendNext hev e _)

theorem AboveWrote.blockLanes (h : AboveWrote armBase low s t) (e : TgtEntry) : AboveWrote armBase low s (t.blockLanes e) := by
  refine AboveWrote.foldl _ (fun l _ u hu => ?_) h
  have hlane := hu.same (u := u.modLane l (fun r => { r with safBlock := true, safAt := some u.cycle })) rfl
  exact .ite (hlane.insertPrio hev l true true) hlane

theorem AboveWrote.unitState (h : AboveWrote armBase low s t) (e : UnitEntry) (st : Nat) : AboveWrote armBase low s (t.unitState e st) := by
  unfold State.unitState
  dsimp only
  have hshown := (h.same (u := t.modUnit e.unit (fun r => { r with state := st })) rfl).keeps
    (State.showUnit_keeps (M := 0x80) (a1 := e) (by decide) (.refl _)) (by decide)
  exact .ite h (hshown.raise hev _ _ _)

theorem AboveWrote.unitStop (h : AboveWrote armBase low s t) (u : Nat) : AboveWrote armBase low s (t.unitStop u) := by
  unfold State.unitStop
  cases t.bs.unitEntry u with
  | none => exact h
  | some e => exact .ite ((h.same (u := t.modUnit u (fun r => { r with safety := true })) rfl).unitState hev e 4) h

theorem AboveWrote.unitStopped (h : AboveWrote armBase low s t) (u : Nat) : AboveWrote armBase low s (t.unitStopped u) := by
  unfold State.unitStopped
  cases t.bs.unitEntry u with
  | none => exact h
  | some e => exact .ite ((h.same (u := t.modUnit e.unit (fun r => { r with toBlocked := false, safety := false })) rfl).unitState hev e 1) h

/-! ### Stop targets (R416 to R421) -/

/-- What a change of the targets `ts` shows, beside the lost records and the causes of interrupts. -/
def targetRegs (ts : List Nat) : List (Field × Nat) :=
  ts.map (fun t => (Reg.SAF_TGT.state, t)) ++ [(Reg.SAF_STOP_STAT.stopping, 0), (Reg.SAF_STOP_STAT.blocked, 0), (Reg.SAF_HOLD.saf_hold, 0),
    (Reg.SAF_SOUT_STAT.on, 0)] ++ eventRegs

omit hev in
theorem targetRegs_events (ts : List Nat) : ∀ p ∈ eventRegs, p ∈ targetRegs ts := fun _ hp => List.mem_append_right _ hp

omit hev in
theorem targetRegs_state {ts : List Nat} {n : Nat} (hn : n ∈ ts) : (Reg.SAF_TGT.state, n) ∈ targetRegs ts :=
  List.mem_append_left _ (List.mem_append_left _ (List.mem_map_of_mem hn))

omit hev in
theorem targetRegs_shown {ts : List Nat} {p : Field × Nat} (hp : p ∈ [(Reg.SAF_STOP_STAT.stopping, 0), (Reg.SAF_STOP_STAT.blocked, 0),
    (Reg.SAF_HOLD.saf_hold, 0), (Reg.SAF_SOUT_STAT.on, 0)]) : p ∈ targetRegs ts := List.mem_append_left _ (List.mem_append_right _ hp)

end Reach

section Targets

variable {s t : State} {ts : List Nat}

theorem AboveWrote.soutUpdate (h : AboveWrote armBase (targetRegs ts) s t) : AboveWrote armBase (targetRegs ts) s t.soutUpdate := by
  refine AboveWrote.foldl _ (fun n _ u hu => ?_) h
  exact .ite hu ((hu.setBit n _ (targetRegs_shown (by simp))).same rfl)

theorem AboveWrote.setTarget (h : AboveWrote armBase (targetRegs ts) s t) {n : Nat} (hn : n ∈ ts) (st src : Nat) :
    AboveWrote armBase (targetRegs ts) s (t.setTarget n st src) := by
  have hstate := h.wrLow st (targetRegs_state hn)
  have hstop := (hstate.setBit n (st == 2) (targetRegs_shown (p := (Reg.SAF_STOP_STAT.stopping, 0)) (by simp))).setBit n (st == 3)
    (targetRegs_shown (p := (Reg.SAF_STOP_STAT.blocked, 0)) (by simp))
  exact ((hstop.setBit n (decide (2 ≤ st)) (targetRegs_shown (p := (Reg.SAF_HOLD.saf_hold, 0)) (by simp))).raise (targetRegs_events ts) _ _ _).soutUpdate

theorem AboveWrote.safeBlock (h : AboveWrote armBase (targetRegs ts) s t) {n : Nat} (hn : n ∈ ts) (src : Nat) :
    AboveWrote armBase (targetRegs ts) s (t.safeBlock n src) := by
  unfold State.safeBlock
  cases t.bs.safety.bind (·.target n) with
  | none => exact h
  | some e =>
    dsimp only
    have hev := targetRegs_events ts
    have hstart := h.same (u := t.modSaf (fun a => { a with stopAt := a.stopAt.filter (fun x => x.1 != n) })) rfl
    have hheld := fun l => AboveWrote.foldl l (fun a _ u hu => AboveWrote.armHold hev hu a) hstart
    have harms := fun l l' => AboveWrote.foldl l (fun a _ u hu =>
      AboveWrote.ite (c := u.armState a = 1 ∨ u.armState a = 2 ∨ u.armState a = 4) (AboveWrote.armBlockNow hev hu a 3) hu) ((hheld l').blockLanes hev e)
    exact .ite h (((harms _ _).setTarget hn 3 src).unitStopped hev _)

theorem AboveWrote.safeStop (h : AboveWrote armBase (targetRegs ts) s t) {n : Nat} (hn : n ∈ ts) (src : Nat) :
    AboveWrote armBase (targetRegs ts) s (t.safeStop n src) := by
  unfold State.safeStop
  cases t.bs.safety.bind (·.target n) with
  | none => exact h
  | some e =>
    dsimp only
    have hev := targetRegs_events ts
    have hstart := h.same (u := t.modSaf (fun a => { a with stopAt := (n, t.now, src) :: a.stopAt.filter (fun x => x.1 != n) })) rfl
    have hstop := fun l => (AboveWrote.foldl l (fun a _ u hu => AboveWrote.armStop hev hu a) hstart).setTarget hn 2 src
    exact .ite h (.ite (hstop _) ((hstop _).unitStop hev _))

theorem AboveWrote.safRequest (h : AboveWrote armBase (targetRegs ts) s t) {mask : Nat} (hm : ∀ n ∈ maskBits mask, n ∈ ts) (kind src : Nat) :
    AboveWrote armBase (targetRegs ts) s (t.safRequest mask kind src) :=
  AboveWrote.foldl _ (fun n hn _ hu => .ite (hu.safeStop (hm n hn) src) (hu.safeBlock (hm n hn) src)) h

end Targets

/-! ### Masks -/

theorem nodup_eraseDups : ∀ l : List Nat, l.eraseDups.Nodup
  | [] => List.nodup_nil
  | a :: l => by
    rw [List.eraseDups_cons]
    refine List.nodup_cons.mpr ⟨fun h => ?_, nodup_eraseDups _⟩
    have hne := (List.mem_filter.mp (List.mem_eraseDups.mp h)).2
    rw [beq_self_eq_true] at hne
    exact absurd hne (by decide)
  termination_by l => l.length
  decreasing_by exact Nat.lt_succ_of_le (List.length_filter_le _ _)

/-- A clear bit that is set: the others stay. -/
theorem bit_add_two_pow {m i : Nat} (h : m / 2 ^ i % 2 = 0) (n : Nat) : (m + 2 ^ i) / 2 ^ n % 2 = if n = i then 1 else m / 2 ^ n % 2 := by
  have hpos : ∀ k, 0 < 2 ^ k := Nat.two_pow_pos
  rcases Nat.lt_trichotomy n i with hlt | rfl | hgt
  · obtain ⟨k, rfl⟩ : ∃ k, i = n + (k + 1) := ⟨i - n - 1, by omega⟩
    rw [if_neg (by omega), Nat.pow_add, Nat.add_mul_div_left _ _ (hpos n), Nat.pow_succ, Nat.add_mul_mod_self_right]
  · rw [if_pos rfl, Nat.add_div_right _ (hpos n)]
    omega
  · obtain ⟨k, rfl⟩ : ∃ k, n = i + (1 + k) := ⟨n - i - 1, by omega⟩
    rw [if_neg (by omega), Nat.pow_add, Nat.pow_add, Nat.pow_one, ← Nat.div_div_eq_div_mul, ← Nat.div_div_eq_div_mul, ← Nat.div_div_eq_div_mul,
      ← Nat.div_div_eq_div_mul, Nat.add_div_right _ (hpos i)]
    have hhalf : (m / 2 ^ i).succ / 2 = m / 2 ^ i / 2 := by omega
    rw [hhalf]

theorem bit_foldl_two_pow {n : Nat} : ∀ {l : List Nat} {m : Nat}, l.Nodup → (∀ i ∈ l, m / 2 ^ i % 2 = 0) → (n ∈ l ∨ m / 2 ^ n % 2 = 1) →
    l.foldl (fun m i => m + 2 ^ i) m / 2 ^ n % 2 = 1
  | [], _, _, _, h => h.resolve_left List.not_mem_nil
  | i :: l, m, hnodup, hclear, h => by
    obtain ⟨hfirst, hrest⟩ := List.nodup_cons.mp hnodup
    have hi := hclear i List.mem_cons_self
    refine bit_foldl_two_pow (l := l) (m := m + 2 ^ i) hrest (fun j hj => ?_) ?_
    · rw [bit_add_two_pow hi, if_neg (fun hji : j = i => hfirst (hji ▸ hj))]
      exact hclear j (List.mem_cons_of_mem _ hj)
    · rcases h with hmem | hset
      · rcases List.mem_cons.mp hmem with rfl | hmem
        · exact .inr (by rw [bit_add_two_pow hi, if_pos rfl])
        · exact .inl hmem
      · have hne : n ≠ i := fun hni => by
          rw [hni, hi] at hset
          exact absurd hset (by decide)
        exact .inr (by rw [bit_add_two_pow hi, if_neg hne]; exact hset)

/-- A target of a list is one of its mask. -/
theorem mem_maskBits_bitsMask {l : List Nat} {n : Nat} (h : n ∈ l) (hn : n < 16) : n ∈ maskBits (bitsMask l) := by
  refine List.mem_filter.mpr ⟨List.mem_range.mpr hn, beq_iff_eq.mpr ?_⟩
  exact bit_foldl_two_pow (nodup_eraseDups l) (fun i _ => by rw [Nat.zero_div]) (.inl (List.mem_eraseDups.mpr h))

theorem maskBits_nodup (m : Nat) : (maskBits m).Nodup := List.nodup_range.filter _

theorem mem_maskBits {m n : Nat} (h : n ∈ maskBits m) : n < 16 ∧ m / 2 ^ n % 2 = 1 :=
  ⟨List.mem_range.mp (List.mem_of_mem_filter h), eq_of_beq (List.mem_filter.mp h).2⟩

/-! ### What a request leaves of the domain, and what it makes of a target -/

/-- Nothing of the safety domain changes but the stops in progress. -/
def StopsAlone (s t : State) : Prop := ∃ l, t.saf = { s.saf with stopAt := l }

theorem StopsAlone.refl (s : State) : StopsAlone s s := ⟨s.saf.stopAt, rfl⟩

theorem StopsAlone.trans {s t u : State} (h : StopsAlone s t) (h' : StopsAlone t u) : StopsAlone s u := by
  obtain ⟨l, hl⟩ := h
  obtain ⟨l', hl'⟩ := h'
  exact ⟨l', by rw [hl', hl]⟩

/-- The stop in progress of a target ends. -/
def State.endStop (s : State) (n : Nat) : State := s.modSaf (fun a => { a with stopAt := a.stopAt.filter (fun x => x.1 != n) })

/-- A stop of a target begins. -/
def State.beginStop (s : State) (n src : Nat) : State :=
  s.modSaf (fun a => { a with stopAt := (n, s.now, src) :: a.stopAt.filter (fun x => x.1 != n) })

/-- The arms and the lanes of a target are held, and those that act are blocked. -/
def State.holdTarget (s : State) (e : TgtEntry) (n : Nat) : State :=
  let s := ((s.targetArms n).foldl (fun s a => s.armHold a) s).blockLanes e
  (s.targetArms n).foldl (fun s a => if s.armState a = 1 ∨ s.armState a = 2 ∨ s.armState a = 4 then s.armBlockNow a 3 else s) s

/-- The unit of a target. -/
def unitOf (n : Nat) : Nat := if n < 12 then n / 3 else n - 12

theorem State.safeBlock_acts {s : State} {n : Nat} {e : TgtEntry} (he : s.bs.safety.bind (·.target n) = some e) (h : s.target n = 1 ∨ s.target n = 2)
    (src : Nat) : s.safeBlock n src = (((s.endStop n).holdTarget e n).setTarget n 3 src).unitStopped (unitOf n) := by
  unfold State.safeBlock
  rw [he]
  dsimp only
  rw [if_neg (fun hne => h.elim hne.1 hne.2)]
  rfl

theorem State.safeBlock_stays {s : State} {n : Nat} (h : s.bs.safety.bind (·.target n) = none ∨ (s.target n ≠ 1 ∧ s.target n ≠ 2)) (src : Nat) :
    s.safeBlock n src = s := by
  unfold State.safeBlock
  cases he : s.bs.safety.bind (·.target n) with
  | none => rfl
  | some e =>
    rw [he] at h
    exact if_pos (h.resolve_left (Option.some_ne_none e))

/-- The arms of a target stop. -/
def State.stopArms (s : State) (n : Nat) : State := (s.targetArms n).foldl (fun s a => s.armStop a) s

/-- A unit of a unit target stops. -/
def State.stopUnit (s : State) (n : Nat) : State := if n < 12 then s else s.unitStop (n - 12)

theorem State.safeStop_acts {s : State} {n : Nat} {e : TgtEntry} (he : s.bs.safety.bind (·.target n) = some e) (h : s.target n = 1)
    (src : Nat) : s.safeStop n src = (((s.beginStop n src).stopArms n).setTarget n 2 src).stopUnit n := by
  unfold State.safeStop
  rw [he]
  dsimp only
  rw [if_neg (not_not_intro h)]
  rfl

theorem State.safeStop_stays {s : State} {n : Nat} (h : s.bs.safety.bind (·.target n) = none ∨ s.target n ≠ 1) (src : Nat) :
    s.safeStop n src = s := by
  unfold State.safeStop
  cases he : s.bs.safety.bind (·.target n) with
  | none => rfl
  | some e =>
    rw [he] at h
    exact if_pos (h.resolve_left (Option.some_ne_none e))

theorem State.holdTarget_keeps (s : State) (e : TgtEntry) (n : Nat) : Keeps 0x3c512 s (s.holdTarget e n) := by
  unfold State.holdTarget
  dsimp only
  exact Keeps.foldl (State.blockLanes_keeps (by decide) (Keeps.foldl (.refl s) fun _ _ h => State.armHold_keeps (by decide) h))
    fun _ _ h => .ite (State.armBlockNow_keeps (by decide) h) h

/-- What acts on a target, but for the stops in progress, keeps the domain. -/
theorem State.safeBlock_saf (s : State) (n src : Nat) : StopsAlone s (s.safeBlock n src) := by
  cases he : s.bs.safety.bind (·.target n) with
  | none => rw [State.safeBlock_stays (.inl he)]; exact .refl s
  | some e =>
    by_cases hn : s.target n = 1 ∨ s.target n = 2
    · rw [State.safeBlock_acts he hn]
      have hkeeps : Keeps 0x3c592 (s.endStop n) ((((s.endStop n).holdTarget e n).setTarget n 3 src).unitStopped (unitOf n)) :=
        State.unitStopped_keeps (by decide) (State.setTarget_keeps (by decide) ((State.holdTarget_keeps _ e n).mono (by decide)))
      exact ⟨_, hkeeps.saf.get (by decide)⟩
    · rw [State.safeBlock_stays (.inr (not_or.mp hn))]; exact .refl s

theorem State.safeStop_saf (s : State) (n src : Nat) : StopsAlone s (s.safeStop n src) := by
  cases he : s.bs.safety.bind (·.target n) with
  | none => rw [State.safeStop_stays (.inl he)]; exact .refl s
  | some e =>
    by_cases hn : s.target n = 1
    · rw [State.safeStop_acts he hn]
      have hstop : Keeps 0x20592 (s.beginStop n src) (((s.beginStop n src).stopArms n).setTarget n 2 src) :=
        State.setTarget_keeps (by decide) (Keeps.foldl (.refl _) fun _ _ h => State.armStop_keeps (by decide) h)
      have hkeeps : Keeps 0x20592 (s.beginStop n src) ((((s.beginStop n src).stopArms n).setTarget n 2 src).stopUnit n) :=
        .ite hstop (State.unitStop_keeps (by decide) hstop)
      exact ⟨_, hkeeps.saf.get (by decide)⟩
    · rw [State.safeStop_stays (.inr hn)]; exact .refl s

theorem State.safRequest_saf (s : State) (mask kind src : Nat) : StopsAlone s (s.safRequest mask kind src) := by
  have hstep : ∀ (l : List Nat) (t : State), StopsAlone s t →
      StopsAlone s (l.foldl (fun s t => if kind = 0 then s.safeStop t src else s.safeBlock t src) t) := by
    intro l
    induction l with
    | nil => exact fun t h => h
    | cons n l ih =>
      intro t h
      refine ih _ ?_
      split
      · exact h.trans (t.safeStop_saf n src)
      · exact h.trans (t.safeBlock_saf n src)
  exact hstep _ s (.refl s)

/-- A target shows its state. -/
theorem State.target_setTarget {s : State} (hw : tabWf 0 s.regs = true) {n : Nat} (hn : n < 16) (st src : Nat) :
    (s.setTarget n st src).target n = st % 2 ^ Reg.SAF_TGT.state.width := by
  have hfirst : tabWf 0 (s.wr Reg.SAF_TGT.state n st).regs = true := State.regs_wr _ _ _ hw
  have hbits : AboveWrote armBase (targetRegs []) (s.wr Reg.SAF_TGT.state n st) ((((s.wr Reg.SAF_TGT.state n st).setBit
      Reg.SAF_STOP_STAT.stopping 0 n (st == 2)).setBit Reg.SAF_STOP_STAT.blocked 0 n (st == 3)).setBit Reg.SAF_HOLD.saf_hold 0 n (decide (2 ≤ st))) :=
    (((AboveWrote.refl hfirst).setBit (f := Reg.SAF_STOP_STAT.stopping) n _ (targetRegs_shown (by simp))).setBit (f := Reg.SAF_STOP_STAT.blocked) n _
      (targetRegs_shown (by simp))).setBit (f := Reg.SAF_HOLD.saf_hold) n _ (targetRegs_shown (by simp))
  have hrest : AboveWrote armBase (targetRegs []) (s.wr Reg.SAF_TGT.state n st) (s.setTarget n st src) :=
    (hbits.raise (targetRegs_events []) _ _ _).soutUpdate
  refine (hrest.rd (Nat.lt_trans hn (by decide)) (by decide) ?_).trans (State.rd_wr_self _ _ _ hw)
  exact Apart.notMem ⟨by decide, Nat.lt_trans hn (by decide), by decide⟩

/-- A target of a mask that other targets' requests leave alone. -/
theorem AboveWrote.target {ts : List Nat} {s t : State} (h : AboveWrote armBase (targetRegs ts) s t) {n : Nat} (hn : n < 16)
    (hmem : n ∉ ts) : t.target n = s.target n := by
  refine h.rd (Nat.lt_trans hn (by decide)) (by decide) fun hm => ?_
  obtain ⟨p, hp, hk⟩ := List.mem_map.mp hm
  rcases List.mem_append.mp hp with hp | hp
  · rcases List.mem_append.mp hp with hp | hp
    · obtain ⟨m, hm, rfl⟩ := List.mem_map.mp hp
      have hmn : m = n := by
        change (Reg.SAF_TGT.state.addr * 32 + Reg.SAF_TGT.state.lo) * 8192 + m = (Reg.SAF_TGT.state.addr * 32 + Reg.SAF_TGT.state.lo) * 8192 + n at hk
        exact Nat.add_left_cancel hk
      exact hmem (hmn ▸ hm)
    · have hfar : Apart Reg.SAF_TGT.state n [(Reg.SAF_STOP_STAT.stopping, 0), (Reg.SAF_STOP_STAT.blocked, 0), (Reg.SAF_HOLD.saf_hold, 0),
        (Reg.SAF_SOUT_STAT.on, 0)] := ⟨by decide, Nat.lt_trans hn (by decide), by decide⟩
      exact hfar.notMem (List.mem_map.mpr ⟨p, hp, hk⟩)
  · have hfar : Apart Reg.SAF_TGT.state n eventRegs := ⟨by decide, Nat.lt_trans hn (by decide), by decide⟩
    exact hfar.notMem (List.mem_map.mpr ⟨p, hp, hk⟩)

theorem State.target_safeBlock {s : State} (hw : tabWf 0 s.regs = true) {n : Nat} (hn : n < 16) {e : TgtEntry}
    (he : s.bs.safety.bind (·.target n) = some e) (h : s.target n = 1) (src : Nat) : (s.safeBlock n src).target n = 3 := by
  rw [State.safeBlock_acts he (.inl h)]
  have hheld : AboveWrote armBase (targetRegs []) s ((s.endStop n).holdTarget e n) := by
    have hev := targetRegs_events []
    have hstart : AboveWrote armBase (targetRegs []) s (s.endStop n) := (AboveWrote.refl hw).same rfl
    unfold State.holdTarget
    dsimp only
    exact AboveWrote.foldl _ (fun a _ u hu => .ite (hu.armBlockNow hev a 3) hu)
      ((AboveWrote.foldl _ (fun a _ u hu => AboveWrote.armHold hev hu a) hstart).blockLanes hev e)
  have hset := State.target_setTarget hheld.wf hn 3 src
  have hwf := (hheld.mono (low' := targetRegs [n]) (by simp +contextual [targetRegs])).setTarget List.mem_cons_self 3 src
  have hend := (AboveWrote.refl (b := armBase) (low := targetRegs []) hwf.wf).unitStopped (targetRegs_events []) (unitOf n)
  exact (hend.target hn List.not_mem_nil).trans hset

theorem State.target_safeStop {s : State} (hw : tabWf 0 s.regs = true) {n : Nat} (hn : n < 16) {e : TgtEntry}
    (he : s.bs.safety.bind (·.target n) = some e) (h : s.target n = 1) (src : Nat) : (s.safeStop n src).target n = 2 := by
  rw [State.safeStop_acts he h]
  have hheld : AboveWrote armBase (targetRegs []) s ((s.beginStop n src).stopArms n) :=
    AboveWrote.foldl _ (fun a _ u hu => AboveWrote.armStop (targetRegs_events []) hu a) ((AboveWrote.refl hw).same rfl)
  have hset := State.target_setTarget hheld.wf hn 2 src
  have hwf := (hheld.mono (low' := targetRegs [n]) (by simp +contextual [targetRegs])).setTarget List.mem_cons_self 2 src
  have hstart := AboveWrote.refl (b := armBase) (low := targetRegs []) hwf.wf
  have hend : AboveWrote armBase (targetRegs []) _ ((((s.beginStop n src).stopArms n).setTarget n 2 src).stopUnit n) :=
    .ite hstart (hstart.unitStop (targetRegs_events []) (n - 12))
  exact (hend.target hn List.not_mem_nil).trans hset

/-- A request makes each FREE target of its mask STOPPING (kind 0) or BLOCKED. -/
theorem State.target_safRequest {s : State} (hs : Sound s) {x : Machine.Safety} (hx : s.bs.safety = some x) {mask kind src n : Nat}
    (hn : n ∈ maskBits mask) (hused : (x.target n).isSome = true) (hfree : s.target n = 1) :
    (s.safRequest mask kind src).target n = if kind = 0 then 2 else 3 := by
  obtain ⟨e, he⟩ := Option.isSome_iff_exists.mp hused
  have hn16 := (mem_maskBits hn).1
  have hstep : ∀ l : List Nat, l.Nodup → (∀ m ∈ l, m < 16) → ∀ t : State, Keeps 0x103c592 s t →
      t.target n = (if n ∈ l then 1 else if kind = 0 then 2 else 3) →
      (l.foldl (fun s t => if kind = 0 then s.safeStop t src else s.safeBlock t src) t).target n = if kind = 0 then 2 else 3 := by
    intro l
    induction l with
    | nil => exact fun _ _ t _ h => h
    | cons m l ih =>
      intro hnodup hlow t ht h
      obtain ⟨hfirst, hrest⟩ := List.nodup_cons.mp hnodup
      have hbind : t.bs.safety.bind (·.target n) = some e := by
        rw [ht.bs.get (by decide), hx]
        exact he
      refine ih hrest (fun k hk => hlow k (List.mem_cons_of_mem _ hk)) _ (.ite (State.safeStop_keeps (by decide) ht) (State.safeBlock_keeps (by decide) ht)) ?_
      by_cases hmn : n = m
      · subst hmn
        rw [if_pos List.mem_cons_self] at h
        rw [if_neg hfirst]
        split
        · exact State.target_safeStop (ht.sound hs).regs hn16 hbind h src
        · exact State.target_safeBlock (ht.sound hs).regs hn16 hbind h src
      · have hmem : n ∈ m :: l ↔ n ∈ l := ⟨fun h => (List.mem_cons.mp h).resolve_left hmn, List.mem_cons_of_mem m⟩
        rw [← if_congr hmem rfl rfl, ← h]
        have hstart := AboveWrote.refl (b := armBase) (low := targetRegs [m]) (ht.sound hs).regs
        refine AboveWrote.target (ts := [m]) (s := t) (.ite (hstart.safeStop List.mem_cons_self src) (hstart.safeBlock List.mem_cons_self src))
          hn16 (fun h => hmn (List.mem_singleton.mp h))
  exact hstep _ (maskBits_nodup mask) (fun m hm => (mem_maskBits hm).1) s (.refl s) (by rw [if_pos hn]; exact hfree)

/-- A request leaves the targets that it does not name. -/
theorem State.target_safRequest_other {s : State} (hw : tabWf 0 s.regs = true) {mask kind src n : Nat} (hn : n < 16) (h : mask / 2 ^ n % 2 = 0) :
    (s.safRequest mask kind src).target n = s.target n := by
  refine AboveWrote.target ((AboveWrote.refl hw).safRequest (ts := maskBits mask) (fun _ hm => hm) kind src) hn fun hm => ?_
  rw [(mem_maskBits hm).2] at h
  exact absurd h (by decide)

/-- The fields that a request shows, beside the targets'. -/
abbrev requestRegs : List (Field × Nat) := [(Reg.SAF_TGT.state, 0), (Reg.SAF_STOP_STAT.stopping, 0), (Reg.SAF_STOP_STAT.blocked, 0),
  (Reg.SAF_HOLD.saf_hold, 0), (Reg.SAF_SOUT_STAT.on, 0)] ++ eventRegs

/-- A request leaves the other fields below the arms'. -/
theorem State.rd_safRequest {s : State} (hw : tabWf 0 s.regs = true) (mask kind src : Nat) {f : Field} {i : Nat} (hf : f.place < armBase * 32)
    (hi : i < 8192) (hfree : (requestRegs.all fun p => p.1.place != f.place) = true) : (s.safRequest mask kind src).rd f i = s.rd f i := by
  have hplace : ∀ p ∈ requestRegs, p.1.place ≠ f.place := fun p hp => bne_iff_ne.mp (List.all_eq_true.mp hfree p hp)
  refine ((AboveWrote.refl hw).safRequest (ts := maskBits mask) (fun _ hm => hm) kind src).rd hi hf fun hm => ?_
  obtain ⟨p, hp, hk⟩ := List.mem_map.mp hm
  have hother : ∀ q : Field × Nat, q.1.place ≠ f.place → q.2 < 8192 → regKey q.1 q.2 ≠ regKey f i := fun q hq hu h =>
    regKey_ne hu hi (Ne.symm hq) h.symm
  rcases List.mem_append.mp hp with hp | hp
  · rcases List.mem_append.mp hp with hp | hp
    · obtain ⟨m, hm, rfl⟩ := List.mem_map.mp hp
      exact hother (Reg.SAF_TGT.state, m) (hplace (Reg.SAF_TGT.state, 0) (by simp)) (Nat.lt_trans (mem_maskBits hm).1 (by decide)) hk
    · have hunit : p.2 = 0 := by
        simp only [List.mem_cons, List.not_mem_nil, or_false] at hp
        rcases hp with rfl | rfl | rfl | rfl <;> rfl
      exact hother p (hplace p (by simp only [List.mem_cons, List.mem_append]; exact .inl (.inr (by simpa using hp)))) (hunit ▸ by decide) hk
  · have hunit : p.2 = 0 := by
      simp only [eventRegs, List.mem_cons, List.not_mem_nil, or_false] at hp
      rcases hp with rfl | rfl | rfl <;> rfl
    exact hother p (hplace p (List.mem_append_right _ hp)) (hunit ▸ by decide) hk

end Sys2Proof.Machine

/-! ## Self-supervision of the safety domain (R402, R403, R411, R422 to R425, R428) -/

namespace Sys2Proof.Machine

open Sys2Proof.Safety

/-- The safety domain alone. -/
theorem State.only_saf (s : State) (a : Saf) : Only [.saf] s { s with saf := a } := by
  intro p hp
  cases p with
  | saf => exact absurd List.mem_cons_self hp
  | _ => rfl

theorem State.only_wire_saf (s : State) (w : List Wire) (a : Saf) : Only [.wire, .saf] s { s with wire := w, saf := a } := by
  intro p hp
  cases p with
  | wire => exact absurd List.mem_cons_self hp
  | saf => exact absurd (List.mem_cons_of_mem _ List.mem_cons_self) hp
  | _ => rfl

/-! ### Degraded mode and expiry (R423 to R425) -/

/-- The registers of degraded mode. -/
abbrev windowRegs : List (Field × Nat) := [(Reg.SAF_STAT.state, 0), (Reg.SAF_DEG_STAT.cause, 0), (Reg.SAF_DEG_STAT.remaining, 0)]

/-- What the start of degraded mode shows. -/
def degradeWrites (window cause : Nat) : List (Field × Nat × Nat) :=
  [(Reg.SAF_STAT.state, 0, 1), (Reg.SAF_DEG_STAT.remaining, 0, window), (Reg.SAF_DEG_STAT.cause, 0, cause)]

/-- What a cause of degraded mode does. -/
structure Degrades (s t : State) (window cause : Nat) : Prop where
  starts : s.rd Reg.SAF_STAT.state 0 = 0 → t.rd Reg.SAF_STAT.state 0 = 1 ∧ t.rd Reg.SAF_DEG_STAT.cause 0 = cause
    ∧ t.rd Reg.SAF_DEG_STAT.remaining 0 = window % 2 ^ 10 ∧ t.saf.degAt = s.now
  stays : s.rd Reg.SAF_STAT.state 0 ≠ 0 → t = s
  saf : ∃ n, t.saf = { s.saf with degAt := n }
  keeps : Keeps 0x1000512 s t
  wrote : Wrote (windowRegs ++ eventRegs) s t

theorem State.degrade_starts {s : State} {x : Machine.Safety} (hx : s.bs.safety = some x) (h : s.rd Reg.SAF_STAT.state 0 = 0) (cause : Nat) :
    s.degrade cause = ({ s.wrAll (degradeWrites x.degWindow cause) with saf := { s.saf with degAt := s.now } } : State).raise 0x708 0 cause := by
  unfold State.degrade
  rw [hx]
  dsimp only
  rw [if_neg (not_not_intro h)]
  rfl

theorem State.degrade_stays {s : State} {x : Machine.Safety} (hx : s.bs.safety = some x) (h : s.rd Reg.SAF_STAT.state 0 ≠ 0) (cause : Nat) :
    s.degrade cause = s := by
  unfold State.degrade
  rw [hx]
  exact if_pos h

theorem State.degrade_effect {s : State} (hw : tabWf 0 s.regs = true) {x : Machine.Safety} (hx : s.bs.safety = some x) {cause : Nat} (hc : cause < 16) :
    Degrades s (s.degrade cause) x.degWindow cause := by
  have hkeeps : Keeps 0x1000512 s (s.degrade cause) := State.degrade_keeps (by decide) (.refl s)
  by_cases h : s.rd Reg.SAF_STAT.state 0 = 0
  · rw [State.degrade_starts hx h] at *
    obtain ⟨-, hwrote, hread⟩ := State.raise_after [Reg.SAF_STAT.state, Reg.SAF_DEG_STAT.remaining, Reg.SAF_DEG_STAT.cause]
      (l := degradeWrites x.degWindow cause) (u := { s.wrAll (degradeWrites x.degWindow cause) with saf := { s.saf with degAt := s.now } }) (code := 0x708)
      rfl (by decide) hw (by simp [degradeWrites]) rfl rfl rfl rfl (by decide) 0 cause
    have hsaf : (({ s.wrAll (degradeWrites x.degWindow cause) with saf := { s.saf with degAt := s.now } } : State).raise 0x708 0 cause).saf
        = { s.saf with degAt := s.now } := State.raise_saf ..
    have hwithin : ∀ p ∈ [(Reg.SAF_STAT.state, 0), (Reg.SAF_DEG_STAT.remaining, 0), (Reg.SAF_DEG_STAT.cause, 0)] ++ eventRegs,
        p ∈ windowRegs ++ eventRegs := by decide
    exact {
      starts := fun _ => ⟨hread (Reg.SAF_STAT.state, 0, 1) (by simp [degradeWrites]),
        (hread (Reg.SAF_DEG_STAT.cause, 0, cause) (by simp [degradeWrites])).trans (Nat.mod_eq_of_lt hc),
        hread (Reg.SAF_DEG_STAT.remaining, 0, x.degWindow) (by simp [degradeWrites]), by rw [hsaf]⟩
      stays := fun hne => absurd h hne
      saf := ⟨s.now, hsaf⟩
      keeps := hkeeps
      wrote := hwrote.mono hwithin }
  · rw [State.degrade_stays hx h] at *
    exact { starts := fun h0 => absurd h0 h, stays := fun _ => rfl, saf := ⟨s.saf.degAt, rfl⟩, keeps := hkeeps, wrote := .refl hw }

/-- What the end of the window shows. -/
def expireWrites : List (Field × Nat × Nat) := [(Reg.SAF_STAT.state, 0, 2), (Reg.SAF_DEG_STAT.remaining, 0, 0)]

/-- Expiry is shown and reported. -/
def State.showExpiry (s : State) (action : Nat) : State := (s.wrAll expireWrites).raise 0x709 0 action

theorem State.expire_reported {s : State} {x : Machine.Safety} (hx : s.bs.safety = some x) (hstate : s.rd Reg.SAF_STAT.state 0 ≠ 2)
    (hexpiry : x.expiry = 0) : s.expire = s.showExpiry 0 := by
  unfold State.expire
  rw [hx]
  dsimp only
  rw [if_neg hstate, if_pos hexpiry, hexpiry]
  rfl

theorem State.expire_acts {s : State} {x : Machine.Safety} (hx : s.bs.safety = some x) (hstate : s.rd Reg.SAF_STAT.state 0 ≠ 2)
    (hexpiry : x.expiry ≠ 0) : s.expire = ((((s.showExpiry x.expiry).modSaf (fun a =>
      { a with expiryHold := bitsMask x.used, outputsOff := decide (x.expiry = 3) })).safRequest (bitsMask x.used)
        (if x.expiry = 1 then 0 else 1) 4).soutUpdate) := by
  unfold State.expire
  rw [hx]
  dsimp only
  rw [if_neg hstate, if_neg hexpiry]
  rfl

theorem State.showExpiry_effect {s : State} (hw : tabWf 0 s.regs = true) (action : Nat) :
    let t := s.showExpiry action
    t.rd Reg.SAF_STAT.state 0 = 2 ∧ t.rd Reg.SAF_DEG_STAT.remaining 0 = 0 ∧ Reports s t 0x709 0 action ∧ Keeps 0x512 s t
      ∧ Wrote (windowRegs ++ eventRegs) s t := by
  intro t
  obtain ⟨hreports, hwrote, hread⟩ := State.raise_after [Reg.SAF_STAT.state, Reg.SAF_DEG_STAT.remaining] (l := expireWrites)
    (u := s.wrAll expireWrites) (code := 0x709) rfl (by decide) hw (by simp [expireWrites]) rfl rfl rfl rfl (by decide) 0 action
  have hwithin : ∀ p ∈ [(Reg.SAF_STAT.state, 0), (Reg.SAF_DEG_STAT.remaining, 0)] ++ eventRegs, p ∈ windowRegs ++ eventRegs := by decide
  exact ⟨hread (Reg.SAF_STAT.state, 0, 2) (by simp [expireWrites]), hread (Reg.SAF_DEG_STAT.remaining, 0, 0) (by simp [expireWrites]), hreports,
    State.raise_keeps (by decide) (State.wrAll_keeps (by decide) _ (.refl s)), hwrote.mono hwithin⟩

/-! ### Commands -/

/-- The registers that answer a command. -/
abbrev replyRegs : List (Field × Nat) := [(Reg.SAF_CMD_STAT.status, 0), (Reg.SAF_CMD_STAT.refused, 0)]

theorem State.safStatus_done {s : State} (hw : tabWf 0 s.regs = true) :
    let t := s.safStatus 1 0
    t.rd Reg.SAF_CMD_STAT.status 0 = 1 ∧ t.rd Reg.SAF_CMD_STAT.refused 0 = 0 ∧ Keeps 0x10 s t ∧ t.wire = s.wire ∧ Wrote replyRegs s t := by
  intro t
  have ht : t = s.wrAll [(Reg.SAF_CMD_STAT.status, 0, 1), (Reg.SAF_CMD_STAT.refused, 0, 0)] := by
    change s.safStatus 1 0 = _
    unfold State.safStatus
    rw [if_pos rfl]
    rfl
  have hread := State.rd_wrAll [Reg.SAF_CMD_STAT.status, Reg.SAF_CMD_STAT.refused]
    (l := [(Reg.SAF_CMD_STAT.status, 0, 1), (Reg.SAF_CMD_STAT.refused, 0, 0)]) rfl (by decide) hw (by simp)
  rw [ht]
  exact ⟨hread (Reg.SAF_CMD_STAT.status, 0, 1) (by simp), hread (Reg.SAF_CMD_STAT.refused, 0, 0) (by simp), State.wrAll_keeps (by decide) _ (.refl s), rfl,
    State.wrAll_wrote hw [(Reg.SAF_CMD_STAT.status, 0, 1), (Reg.SAF_CMD_STAT.refused, 0, 0)]⟩

theorem State.safStatus_refused {s : State} (hw : tabWf 0 s.regs = true) {status : Nat} (h1 : status ≠ 1) (hwidth : status < 8) (refused : Nat) :
    let t := s.safStatus status refused
    t.rd Reg.SAF_CMD_STAT.status 0 = status ∧ t.rd Reg.SAF_CMD_STAT.refused 0 = refused % 2 ^ 16
      ∧ Reports s t 0x70B 0 (status + 2 ^ 16 * (refused % 2 ^ 16)) ∧ Keeps 0x512 s t ∧ Wrote (replyRegs ++ eventRegs) s t := by
  intro t
  have ht : t = (s.wrAll [(Reg.SAF_CMD_STAT.status, 0, status), (Reg.SAF_CMD_STAT.refused, 0, refused)]).raise 0x70B 0
      (status + 2 ^ 16 * (refused % 2 ^ 16)) := by
    change s.safStatus status refused = _
    unfold State.safStatus
    rw [if_neg h1]
    rfl
  obtain ⟨hreports, hwrote, hread⟩ := State.raise_after [Reg.SAF_CMD_STAT.status, Reg.SAF_CMD_STAT.refused]
    (l := [(Reg.SAF_CMD_STAT.status, 0, status), (Reg.SAF_CMD_STAT.refused, 0, refused)])
    (u := s.wrAll [(Reg.SAF_CMD_STAT.status, 0, status), (Reg.SAF_CMD_STAT.refused, 0, refused)]) (code := 0x70B) rfl (by decide) hw (by simp) rfl rfl rfl rfl
    (by decide) 0 (status + 2 ^ 16 * (refused % 2 ^ 16))
  rw [ht]
  exact ⟨(hread (Reg.SAF_CMD_STAT.status, 0, status) (by simp)).trans (Nat.mod_eq_of_lt hwidth), hread (Reg.SAF_CMD_STAT.refused, 0, refused) (by simp),
    hreports, State.raise_keeps (by decide) (State.wrAll_keeps (by decide) _ (.refl s)), hwrote⟩

/-! ### A cause of degraded mode behind an event -/

/-- The fields that the start of degraded mode writes. -/
abbrev windowFields : List Field := [Reg.SAF_STAT.state, Reg.SAF_DEG_STAT.cause, Reg.SAF_DEG_STAT.remaining]

/-- What writes, an event and a cause of degraded mode give together. -/
structure DegradesAfter (s u t : State) (l : List (Field × Nat × Nat)) (window cause code inst data : Nat) : Prop where
  starts : s.rd Reg.SAF_STAT.state 0 = 0 → t.rd Reg.SAF_STAT.state 0 = 1 ∧ t.rd Reg.SAF_DEG_STAT.cause 0 = cause
    ∧ t.rd Reg.SAF_DEG_STAT.remaining 0 = window % 2 ^ 10 ∧ t.saf.degAt = s.now
  reports : s.rd Reg.SAF_STAT.state 0 ≠ 0 → Reports s t code inst data
  saf : ∃ n, t.saf = { u.saf with degAt := n }
  keeps : Keeps 0x1000512 u t
  wrote : Wrote (writtenRegs l ++ windowRegs ++ eventRegs) s t
  shows : ∀ x ∈ l, t.rd x.1 x.2.1 = x.2.2 % 2 ^ x.1.width

theorem State.degrade_after (fs : List Field) {l : List (Field × Nat × Nat)} (hfs : l.map (·.1) = fs) (hfree : fieldsFree fs = true)
    (hwindow : fs.all (fun f => windowFields.all (fun g => g.place != f.place)) = true) {s u : State} (hw : tabWf 0 s.regs = true)
    (hunits : ∀ x ∈ l, x.2.1 < 8192) (hregs : u.regs = (s.wrAll l).regs) (hevq : u.evq = s.evq) (hk : u.epo.k = s.epo.k) (hclk : u.clk = s.clk)
    {x : Machine.Safety} (hx : u.bs.safety = some x) {code : Nat} (hc : code ≠ 0x010) {cause : Nat} (hcause : cause < 16) (inst data : Nat) :
    DegradesAfter s u ((u.raise code inst data).degrade cause) l x.degWindow cause code inst data := by
  obtain ⟨hreports, hwrote, hread⟩ := State.raise_after fs hfs hfree hw hunits hregs hevq hk hclk hc inst data
  have hplace : ∀ y ∈ l, ∀ g ∈ windowFields, g.place ≠ y.1.place := fun y hy g hg =>
    bne_iff_ne.mp (List.all_eq_true.mp (List.all_eq_true.mp hwindow y.1 (hfs ▸ List.mem_map_of_mem hy)) g hg)
  have hstate : (u.raise code inst data).rd Reg.SAF_STAT.state 0 = s.rd Reg.SAF_STAT.state 0 := by
    have hearlier : Wrote (writtenRegs l) s u := (State.wrAll_wrote hw l).same hregs
    have hfar : Apart Reg.SAF_STAT.state 0 eventRegs := ⟨by decide, by decide, by decide⟩
    rw [State.rd_raise hearlier.wf code inst data hfar.notMem]
    exact hearlier.rd (apart_written hunits (by decide) fun y hy h => hplace y hy _ List.mem_cons_self h.symm)
  have hbs : (u.raise code inst data).bs.safety = some x := by rw [State.raise_bs]; exact hx
  have hnow : (u.raise code inst data).now = s.now := by
    unfold State.now
    rw [State.raise_clk, hclk]
  have hd : Degrades (u.raise code inst data) ((u.raise code inst data).degrade cause) x.degWindow cause :=
    State.degrade_effect hwrote.wf hbs hcause
  exact {
    starts := fun h => hnow ▸ hd.starts (hstate.trans h)
    reports := fun h => by rw [hd.stays (hstate ▸ h)]; exact hreports
    saf := by
      obtain ⟨n, hn⟩ := hd.saf
      exact ⟨n, by rw [hn, State.raise_saf]⟩
    keeps := ((State.raise_keeps (M := 0x512) (by decide) (.refl u)).mono (by decide)).trans hd.keeps
    wrote := (hwrote.mono (regs_append (fun _ hp => List.mem_append_left windowRegs hp) eventRegs)).trans
      (hd.wrote.mono (regs_append (fun _ hp => List.mem_append_right (writtenRegs l) hp) eventRegs))
    shows := fun y hy => by
      have hunit := hunits y hy
      have hevents : eventRegs.all (fun p => p.1.place != y.1.place) = true := by
        obtain ⟨-, hevents⟩ := Bool.and_eq_true_iff.mp hfree
        exact (Bool.and_eq_true_iff.mp (List.all_eq_true.mp hevents y.1 (hfs ▸ List.mem_map_of_mem hy))).1
      have hregs0 : (windowRegs ++ eventRegs).all (fun p => p.1.place != y.1.place) = true := by
        rw [List.all_append, hevents, Bool.and_true]
        simpa using hplace y hy
      rw [hd.wrote.rd ⟨hregs0, hunit, by decide⟩]
      exact hread y hy }

/-! ### Test pulses (R411, R413) -/

/-- An STP output has been low once. -/
def State.pulsed (s : State) (n : Nat) : State :=
  { s with wire := s.wire ++ [Wire.stp n false, Wire.stp n true] }.pulseFrom n s.cycle

/-- The readback of a pulse agrees, or does not. -/
def State.readBack (s : State) (n : Nat) (agrees : Bool) : State :=
  let others := s.saf.stpBad.filter (· != n)
  (s.pulsed n).modSaf (fun a => { a with stpBad := if agrees then others else n :: others })

/-- A channel has passed a test. -/
def PairRt.pass (r : PairRt) (c : Nat) : PairRt := r.setChan c { r.chan c with passed := (r.chan c).passed + 1 }

/-- The channels of a list have passed a test each. -/
def State.countPassed (s : State) (l : List (PairEntry × Nat)) : State := l.foldl (fun s x => s.modPair x.1.pair (fun r => r.pass x.2)) s

theorem State.testPulse_agrees (s : State) (n : Nat) : s.testPulse n true = (s.readBack n true).countPassed (s.fedBy n) := rfl

theorem State.testPulse_differs {s : State} {n : Nat} (h : s.fedBy n = []) :
    s.testPulse n false = ((s.readBack n false).setBit Reg.SAF_STP_STAT.fault 0 n true).raise 0x703 n 0 := by
  have hfold : s.testPulse n false = (s.fedBy n).foldl (fun s x => s.failTest x.1 x.2 n)
      (((s.readBack n false).setBit Reg.SAF_STP_STAT.fault 0 n true).raise 0x703 n 0) := rfl
  rw [hfold, h]
  rfl

theorem PairRt.pass_marks (r : PairRt) (c : Nat) : (r.pass c).a.fail = r.a.fail ∧ (r.pass c).b.fail = r.b.fail ∧ (r.pass c).a.demand = r.a.demand
    ∧ (r.pass c).b.demand = r.b.demand := by
  unfold PairRt.pass PairRt.setChan PairRt.chan
  split <;> exact ⟨rfl, rfl, rfl, rfl⟩

theorem PairRt.pass_passed (r : PairRt) (c : Nat) : (r.pass c).a.passed = r.a.passed + if c = 0 then 1 else 0 := by
  unfold PairRt.pass PairRt.setChan PairRt.chan
  split <;> rfl

/-- What counting tests does: the marks of the pairs stay, and every pass of a first channel is counted. -/
structure Passes (s t : State) (l : List (PairEntry × Nat)) : Prop where
  saf : ∃ ps, t = { s with saf := { s.saf with pairs := ps } }
  marks : ∀ p, (t.pair p).a.fail = (s.pair p).a.fail ∧ (t.pair p).b.fail = (s.pair p).b.fail ∧ (t.pair p).a.demand = (s.pair p).a.demand
    ∧ (t.pair p).b.demand = (s.pair p).b.demand
  passed : ∀ p, (t.pair p).a.passed = (s.pair p).a.passed + l.countP (fun x => x.1.pair == p && x.2 == 0)

theorem State.countPassed_effect : ∀ (l : List (PairEntry × Nat)) {s : State}, tabWf PairRt.clear s.saf.pairs = true → Passes s (s.countPassed l) l := by
  intro l
  induction l with
  | nil => exact fun _ => { saf := ⟨_, rfl⟩, marks := fun _ => ⟨rfl, rfl, rfl, rfl⟩, passed := fun _ => rfl }
  | cons x l ih =>
    intro s hw
    have hrest := ih (s := s.modPair x.1.pair (fun r => r.pass x.2)) (tabWf_tabSet hw)
    have hpair : ∀ p, (s.modPair x.1.pair (fun r => r.pass x.2)).pair p = if p = x.1.pair then (s.pair x.1.pair).pass x.2 else s.pair p :=
      State.pair_modPair hw x.1.pair (fun r => r.pass x.2)
    refine { saf := ?_, marks := fun p => ?_, passed := fun p => ?_ }
    · obtain ⟨ps, hps⟩ := hrest.saf
      exact ⟨ps, hps⟩
    · obtain ⟨h1, h2, h3, h4⟩ := hrest.marks p
      rw [hpair p] at h1 h2 h3 h4
      by_cases h : p = x.1.pair
      · subst h
        obtain ⟨g1, g2, g3, g4⟩ := (s.pair x.1.pair).pass_marks x.2
        rw [if_pos rfl] at h1 h2 h3 h4
        exact ⟨h1.trans g1, h2.trans g2, h3.trans g3, h4.trans g4⟩
      · rw [if_neg h] at h1 h2 h3 h4
        exact ⟨h1, h2, h3, h4⟩
    · have h := hrest.passed p
      rw [hpair p] at h
      refine h.trans ?_
      rw [List.countP_cons]
      by_cases hp : p = x.1.pair
      · subst hp
        rw [if_pos rfl, PairRt.pass_passed]
        simp only [beq_self_eq_true, Bool.true_and, beq_iff_eq]
        omega
      · rw [if_neg hp]
        simp [Ne.symm hp]

/-- A station whose section has one pair counts one pass of its first channel at each pulse of the output that feeds it. -/
theorem State.fedBy_sole {s : State} {x : Machine.Safety} (hx : s.bs.safety = some x) {e : PairEntry} (he : x.pairs = [e]) (hmode : e.mode ≠ 0) {n : Nat}
    (hn : e.stpA = n) : (s.fedBy n).countP (fun y => y.1.pair == e.pair && y.2 == 0) = 1 := by
  have hfirst : (e.stp 0 == some n) = true := by simp [PairEntry.stp, hn]
  have hfed : s.fedBy n = ([0, 1].filter (fun c => e.stp c == some n)).map (fun c => (e, c)) := by
    unfold State.fedBy
    rw [hx]
    simp [he, hmode]
  rw [hfed]
  simp only [List.filter, hfirst]
  cases e.stp 1 == some n <;> simp

/-- What pulses leave: only pins and the safety domain change. -/
def Pulses (s t : State) (w : List Wire) : Prop :=
  ∃ ps l b, t = { s with wire := s.wire ++ w, saf := { s.saf with pairs := ps, pulses := l, stpBad := b } }

theorem Pulses.refl (s : State) : Pulses s s [] := ⟨s.saf.pairs, s.saf.pulses, s.saf.stpBad, by rw [List.append_nil]⟩

theorem Pulses.trans {s t u : State} {v w : List Wire} (h : Pulses s t v) (h' : Pulses t u w) : Pulses s u (v ++ w) := by
  obtain ⟨_, _, _, rfl⟩ := h
  obtain ⟨ps, l, b, rfl⟩ := h'
  exact ⟨ps, l, b, by rw [← List.append_assoc]⟩

/-- A pulse whose readback agrees. -/
theorem State.countPassed_pulses (s : State) : ∀ l : List (PairEntry × Nat), Pulses s (s.countPassed l) [] := by
  intro l
  induction l generalizing s with
  | nil => exact .refl s
  | cons x l ih =>
    have hfirst : Pulses s (s.modPair x.1.pair (fun r => r.pass x.2)) [] :=
      ⟨_, s.saf.pulses, s.saf.stpBad, by rw [List.append_nil]; rfl⟩
    exact hfirst.trans (ih _)

/-- A pulse of TEST_NOW, shown as long as its stagger says. -/
def State.staggered (s : State) (n : Nat) : State :=
  (s.testPulse n true).pulseFrom n (s.cycle + n * s.rd Reg.SAF_TP_CFG.period 0 * 100000)

theorem State.staggered_pulses (s : State) (n : Nat) : Pulses s (s.staggered n) [Wire.stp n false, Wire.stp n true] := by
  have hback : Pulses s (s.readBack n true) [Wire.stp n false, Wire.stp n true] := ⟨_, _, _, rfl⟩
  have hlast : ∀ (t : State) (c : Nat), Pulses t (t.pulseFrom n c) [] := fun t c => ⟨_, _, _, by rw [List.append_nil]; rfl⟩
  unfold State.staggered
  rw [State.testPulse_agrees]
  exact (hback.trans (State.countPassed_pulses _ _)).trans (hlast _ _)

/-- TEST_NOW's four pulses. -/
def State.pulseAll (s : State) : State := (((s.staggered 0).staggered 1).staggered 2).staggered 3

theorem State.pulseAll_pulses (s : State) : Pulses s s.pulseAll
    [.stp 0 false, .stp 0 true, .stp 1 false, .stp 1 true, .stp 2 false, .stp 2 true, .stp 3 false, .stp 3 true] :=
  (((s.staggered_pulses 0).trans (State.staggered_pulses _ 1)).trans (State.staggered_pulses _ 2)).trans (State.staggered_pulses _ 3)

theorem exec_safCmdTestNow {s : State} (hup : HostUp s) {x : Machine.Safety} (hx : s.bs.safety = some x) :
    exec .safCmdTestNow s = .next (s.lockAgain.pulseAll.safStatus 1 0) := by
  change execSafCmdTestNow s = _
  unfold execSafCmdTestNow
  rw [byHost_up hup, if_neg (by simp [hx])]
  rfl

/-! ### Outputs and their readback (R421, R422) -/

theorem State.soutUpdate_wrote {s : State} (hw : tabWf 0 s.regs = true) : Wrote [(Reg.SAF_SOUT_STAT.on, 0)] s s.soutUpdate :=
  by
  unfold State.soutUpdate
  refine Wrote.foldl (fun n _ t ht => ?_) (.refl hw)
  exact Wrote.ite ht ((ht.setBit n _ List.mem_cons_self).same rfl)

/-- A pin disagrees with its command. -/
def State.readbackOff (s : State) (n : Nat) : State :=
  ((s.setBit Reg.SAF_SOUT_STAT.readback 0 n true).wr Reg.SAF_FAULT.readback 0 1).modSaf
    (fun a => { a with soutBad := n :: a.soutBad.filter (· != n) })

theorem exec_soutReadback {s : State} {x : Machine.Safety} (hx : s.bs.safety = some x) (n : Fin 4) (c : Fin 2) :
    exec (.soutReadback n c) s = .next (((s.readbackOff n).raise 0x707 n c).degrade 3) := by
  change execSoutReadback n c s = _
  unfold execSoutReadback
  rw [if_neg (by simp [hx])]
  rfl

/-! ### Clock windows and self-checks (R402, R403, R425) -/

/-- The count of a clock window is shown. -/
def State.showWindow (s : State) (count : Nat) : State := s.wr Reg.SAF_CLK_MON.count 0 (min count 65535)

theorem exec_safClockWindow_good {s : State} {count : Nat} (h : 3700 ≤ count ∧ count ≤ 4300) :
    exec (.safClockWindow count) s
      = .next ((s.showWindow count).mirrorOf (((s.showWindow count).modSaf (fun a => { a with clkBad := 0 })).wr Reg.SAF_STAT.clk_ok 0 1)) := by
  change execSafClockWindow count s = _
  unfold execSafClockWindow
  dsimp only
  rw [if_pos h]
  rfl

/-- The writes of a second window out of range. -/
def windowBad (count : Nat) : List (Field × Nat × Nat) :=
  [(Reg.SAF_CLK_MON.count, 0, min count 65535), (Reg.SAF_STAT.clk_ok, 0, 0), (Reg.SAF_FAULT.clock, 0, 1)]

/-- A second window is out of range. -/
def State.clockBad (s : State) (count : Nat) : State := { s.wrAll (windowBad count) with saf := { s.saf with clkBad := 2 } }

/-- A window out of range after `old` of them, the `n`th in a row. -/
def State.windowMissed (s : State) (old n count : Nat) : State :=
  let s := s.modSaf (fun a => { a with clkBad := n })
  if 2 ≤ n ∧ old < 2 then (((s.wr Reg.SAF_STAT.clk_ok 0 0).wr Reg.SAF_FAULT.clock 0 1).raise 0x70A 0 count).expire else s

theorem State.windowMissed_second (s : State) (count : Nat) : (s.showWindow count).windowMissed 1 2 count = ((s.clockBad count).raise 0x70A 0 count).expire := by
  unfold State.windowMissed
  exact if_pos (by decide)

theorem exec_safClockWindow_missed {s : State} {count : Nat} (h : count < 3700 ∨ 4300 < count) :
    exec (.safClockWindow count) s = .next ((s.showWindow count).mirrorOf
      ((s.showWindow count).windowMissed s.saf.clkBad (if count = 0 then 2 else s.saf.clkBad + 1) count)) := by
  change execSafClockWindow count s = _
  unfold execSafClockWindow
  dsimp only
  rw [if_neg (by omega)]
  rfl

theorem exec_safClockWindow_bad {s : State} {count : Nat} (h : count < 3700 ∨ 4300 < count) (hbad : s.saf.clkBad = 1) :
    exec (.safClockWindow count) s = .next ((s.showWindow count).mirrorOf ((s.clockBad count).raise 0x70A 0 count).expire) := by
  have hn : (if count = 0 then 2 else 1 + 1) = 2 := ite_self 2
  rw [exec_safClockWindow_missed h, hbad, hn, State.windowMissed_second]

/-- Both results of a self-check. -/
def State.showChecks (s : State) (a b : Bool) : State := (s.wr Reg.SAF_STAT.chan_a_ok 0 (bit a)).wr Reg.SAF_STAT.chan_b_ok 0 (bit b)

theorem exec_selfCheck_good (s : State) :
    exec (.selfCheck true true true) s = .next ((s.showChecks true true).mirrorOf ((s.showChecks true true).modSaf (fun x => { x with internal := false }))) :=
  rfl

/-- The writes of a self-check that fails. -/
def checkBad (a b : Bool) : List (Field × Nat × Nat) :=
  [(Reg.SAF_STAT.chan_a_ok, 0, bit a), (Reg.SAF_STAT.chan_b_ok, 0, bit b), (Reg.SAF_FAULT.internal, 0, 1)]

/-- A self-check fails. -/
def State.checkFailed (s : State) (a b : Bool) : State := { s.wrAll (checkBad a b) with saf := { s.saf with internal := true } }

theorem exec_selfCheck_bad {a b agree : Bool} (h : (a && b && agree) = false) (hone : (a || b) = true) (s : State) :
    exec (.selfCheck a b agree) s = .next ((s.showChecks a b).mirrorOf ((s.checkFailed a b).degrade 4)) := by
  have hsome : (!a && !b) = false := by
    cases a <;> cases b <;> simp_all
  change execSelfCheck a b agree s = _
  unfold execSelfCheck
  dsimp only
  rw [if_neg (by simp [h]), hsome]
  rfl

/-! ### SAF_CMD CLEAR (R424, R428) -/

/-- The state NORMAL, unless the domain is in fault. -/
def State.stateCleared (s : State) : State := if s.rd Reg.SAF_STAT.state 0 = 4 then s else s.wr Reg.SAF_STAT.state 0 0

/-- What ends with the window. -/
def closeWrites : List (Field × Nat × Nat) := [(Reg.SAF_DEG_STAT.remaining, 0, 0), (Reg.SAF_DEG_STAT.cause, 0, 0)]

/-- The window and the holds of expiry end. -/
def State.windowClosed (s : State) : State := { s.wrAll closeWrites with saf := { s.saf with expiryHold := 0, outputsOff := false } }

theorem State.stateCleared_effect {s : State} (hw : tabWf 0 s.regs = true) : Keeps 0x10 s s.stateCleared ∧ Wrote [(Reg.SAF_STAT.state, 0)] s s.stateCleared
    ∧ (s.rd Reg.SAF_STAT.state 0 ≠ 4 → s.stateCleared.rd Reg.SAF_STAT.state 0 = 0) := by
  refine ⟨.ite (.refl s) (State.wr_keeps (by decide) (.refl s)), .ite (.refl hw) ((Wrote.refl hw).wr _ List.mem_cons_self), fun h => ?_⟩
  unfold State.stateCleared
  rw [if_neg h]
  exact State.rd_wr_self _ _ _ hw

theorem exec_safCmdClear_done {s : State} (hup : HostUp s) (hlock : s.saf.unlock ≠ none) (h : s.causeRemains = false) (mask : Nat) :
    exec (.safCmdClear mask) s = .next (s.lockAgain.stateCleared.windowClosed.soutUpdate.safStatus 1 0) := by
  have hcause : s.lockAgain.causeRemains = false := h
  change execSafCmdClear mask s = _
  unfold execSafCmdClear
  rw [byHost_up hup, if_neg (by simpa [Option.isNone_iff_eq_none] using hlock)]
  dsimp only
  rw [if_neg (by simp [hcause])]
  rfl

theorem exec_safCmdClear_refused {s : State} (hup : HostUp s) (hlock : s.saf.unlock ≠ none) (h : s.causeRemains = true) (mask : Nat) :
    exec (.safCmdClear mask) s = .next (s.lockAgain.safStatus 5 mask) := by
  have hcause : s.lockAgain.causeRemains = true := h
  change execSafCmdClear mask s = _
  unfold execSafCmdClear
  rw [byHost_up hup, if_neg (by simpa [Option.isNone_iff_eq_none] using hlock)]
  dsimp only
  rw [if_pos hcause]

end Sys2Proof.Machine

namespace Sys2Proof.Proofs

open Sys2Proof.Machine Sys2Proof.Safety

variable {s : State} {x : Machine.Safety}

theorem testPulse_effect (hs : Sound s) (hx : s.bs.safety = some x) (n : Fin 4) :
    ∃ t, exec (.testPulse n true) s = .next t ∧ (s.wire ++ [.stp n false, .stp n true]) <+: t.wire ∧ n.val ∉ t.saf.stpBad
      ∧ t.saf.pulses = (n.val, s.cycle) :: s.saf.pulses.filter (fun y => y.1 != n.val)
      ∧ (∀ p, (t.pair p).a.fail = (s.pair p).a.fail ∧ (t.pair p).b.fail = (s.pair p).b.fail ∧ (t.pair p).a.demand = (s.pair p).a.demand
          ∧ (t.pair p).b.demand = (s.pair p).b.demand ∧ (s.pair p).a.passed ≤ (t.pair p).a.passed)
      ∧ (∀ e, x.pairs = [e] → e.mode ≠ 0 → e.stpA = n.val → (t.pair e.pair).a.passed = (s.pair e.pair).a.passed + 1)
      ∧ t.saf.pchs = s.saf.pchs ∧ Only (.saf :: mirrorParts) s t := by
  have hexec : exec (.testPulse n true) s = .next (s.mirrorOf ((s.readBack n true).countPassed (s.fedBy n))) := by
    change execTestPulse n true s = _
    unfold execTestPulse
    rw [if_neg (by simp [hx])]
    rfl
  have hcount := State.countPassed_effect (s.fedBy n) (s := s.readBack n true) hs.safety.1
  obtain ⟨ps, hps⟩ := hcount.saf
  generalize hm : (s.readBack n true).countPassed (s.fedBy n) = m at *
  have hsaf : (s.mirrorOf m).saf = { (s.readBack n true).saf with pairs := ps } := by rw [State.mirrorOf_saf, hps]
  have hpair : ∀ p, (s.mirrorOf m).pair p = m.pair p := fun p => by
    unfold State.pair
    rw [State.mirrorOf_saf]
  refine ⟨_, hexec, ?wire, ?bad, ?pulses, ?marks, ?counted, ?pchs, ?only⟩
  case wire =>
    have hwire : s.wire ++ [Wire.stp n false, Wire.stp n true] = m.wire := by rw [hps]; rfl
    rw [hwire]
    exact (State.mirrorOf_keeps (M := 0x800002) (by decide) (.refl m)).wire
  case bad =>
    rw [hsaf]
    change n.val ∉ s.saf.stpBad.filter (· != n.val)
    simp
  case pulses => rw [hsaf]; rfl
  case marks =>
    intro p
    rw [hpair]
    obtain ⟨h1, h2, h3, h4⟩ := hcount.marks p
    exact ⟨h1, h2, h3, h4, by rw [hcount.passed p]; exact Nat.le_add_right _ _⟩
  case counted =>
    intro e he hmode hn
    rw [hpair, hcount.passed, State.fedBy_sole hx he hmode hn]
    rfl
  case pchs => rw [hsaf]; rfl
  case only =>
    have honly : Only [.wire, .saf] s m := by
      rw [hps]
      exact State.only_wire_saf s _ _
    exact only_mono (by decide) (State.mirrorOf_only honly)

theorem testPulse_fault (hs : Sound s) (hx : s.bs.safety = some x) (n : Fin 4) (hfed : s.fedBy n = []) :
    ∃ t, exec (.testPulse n false) s = .next t ∧ t.saf = { s.saf with
          stpBad := n.val :: s.saf.stpBad.filter (· != n.val), pulses := (n.val, s.cycle) :: s.saf.pulses.filter (fun y => y.1 != n.val) }
      ∧ t.bitAt Reg.SAF_STP_STAT.fault 0 n = true ∧ Reports s t 0x703 n 0 ∧ Only (.saf :: eventParts ++ mirrorParts) s t
      ∧ RegsBut ((Reg.SAF_STP_STAT.fault, 0) :: eventRegs) s t := by
  have hexec : exec (.testPulse n false) s
      = .next (s.mirrorOf (((s.readBack n false).setBit Reg.SAF_STP_STAT.fault 0 n true).raise 0x703 n 0)) := by
    change execTestPulse n false s = _
    unfold execTestPulse
    rw [if_neg (by simp [hx]), State.testPulse_differs hfed]
  obtain ⟨hreports, hwrote, hread⟩ := State.raise_after [Reg.SAF_STP_STAT.fault]
    (l := [(Reg.SAF_STP_STAT.fault, 0, bitSet (s.rd Reg.SAF_STP_STAT.fault 0) n true)])
    (u := (s.readBack n false).setBit Reg.SAF_STP_STAT.fault 0 n true) (code := 0x703) rfl (by decide) hs.regs (by simp) rfl rfl rfl rfl (by decide) n 0
  refine ⟨_, hexec, ?saf, ?fault, reports_then hreports (State.mirrorOf_evq _ _), ?only, regsBut_mirrorOf hwrote.but⟩
  case saf =>
    rw [State.mirrorOf_saf, State.raise_saf]
    rfl
  case fault =>
    have hbit := hread (Reg.SAF_STP_STAT.fault, 0, _) List.mem_cons_self
    refine (State.bitAt_congr (State.mirrorOf_regs _ _) _ _ _).trans (State.bitAt_of_rd hbit ?_)
    exact Nat.lt_of_lt_of_le n.isLt (by decide)
  case only =>
    have hback : Only [.wire, .saf] s (s.readBack n false) := State.only_wire_saf s _ _
    have hraise : Keeps 0x512 (s.readBack n false) (((s.readBack n false).setBit Reg.SAF_STP_STAT.fault 0 n true).raise 0x703 n 0) :=
      State.raise_keeps (by decide) (State.setBit_keeps (by decide) (.refl _))
    exact only_mono (by decide) (State.mirrorOf_only (l := .wire :: .saf :: eventParts)
      (only_trans (only_mono (by decide) hback) (hraise.only (by decide))))

theorem testNow_effect (hs : Sound s) (hx : s.bs.safety = some x) (hup : HostUp s) :
    ∃ t, exec .safCmdTestNow s = .next t ∧ t.rd Reg.SAF_CMD_STAT.status 0 = 1 ∧ t.rd Reg.SAF_CMD_STAT.refused 0 = 0 ∧ t.saf.unlock = none
      ∧ t.saf.pchs = s.saf.pchs
      ∧ t.wire = s.wire ++ [.stp 0 false, .stp 0 true, .stp 1 false, .stp 1 true, .stp 2 false, .stp 2 true, .stp 3 false, .stp 3 true]
      ∧ Only [.wire, .regs, .saf] s t ∧ RegsBut replyRegs s t := by
  obtain ⟨ps, l, b, hpulses⟩ := s.lockAgain.pulseAll_pulses
  have hregs : s.lockAgain.pulseAll.regs = s.regs := by rw [hpulses]; rfl
  obtain ⟨hstatus, hrefused, hkeeps, hwire, hwrote⟩ := State.safStatus_done (s := s.lockAgain.pulseAll) (hregs ▸ hs.regs)
  have hsaf := hkeeps.saf.get (by decide)
  refine ⟨_, exec_safCmdTestNow hup hx, hstatus, hrefused, ?_, ?_, ?_, ?_, ?_⟩
  · rw [hsaf, hpulses]; rfl
  · rw [hsaf, hpulses]; rfl
  · rw [hwire, hpulses]; rfl
  · have honly : Only [.wire, .saf] s s.lockAgain.pulseAll := by
      rw [hpulses]
      exact State.only_wire_saf s _ _
    exact only_trans (only_mono (by decide) honly) (hkeeps.only (by decide))
  · exact regsBut_trans (regsBut_of_regs hregs) hwrote.but

theorem soutTest_effect (n : Fin 4) (hon : s.bitAt Reg.SAF_SOUT_STAT.on 0 n = true) :
    ∃ t, exec (.soutTest n true) s = .next t ∧ t.saf = { s.saf with soutBad := s.saf.soutBad.filter (· != n.val) }
      ∧ t.wire = s.wire ++ [.sout n false true, .sout n true true, .sout n true false, .sout n true true] ∧ Only [.wire, .saf] s t := by
  have hexec : exec (.soutTest n true) s = .next { s with
      wire := s.wire ++ [.sout n false true, .sout n true true, .sout n true false, .sout n true true],
      saf := { s.saf with soutBad := s.saf.soutBad.filter (· != n.val) } } := by
    change execSoutTest n true s = _
    unfold execSoutTest
    rw [hon]
    rfl
  exact ⟨_, hexec, rfl, rfl, State.only_wire_saf s _ _⟩

theorem soutTest_off (n : Fin 4) (agrees : Bool) (h : s.bitAt Reg.SAF_SOUT_STAT.on 0 n = false) : exec (.soutTest n agrees) s = .next s := by
  change execSoutTest n agrees s = _
  unfold execSoutTest
  rw [h]
  rfl

theorem soutReadback_effect (hs : Sound s) (hx : s.bs.safety = some x) (n : Fin 4) (c : Fin 2) :
    let state := s.rd Reg.SAF_STAT.state 0
    ∃ t, exec (.soutReadback n c) s = .next t ∧ t.bitAt Reg.SAF_SOUT_STAT.readback 0 n = true ∧ t.rd Reg.SAF_FAULT.readback 0 = 1
      ∧ t.saf.soutBad = n.val :: s.saf.soutBad.filter (· != n.val)
      ∧ (state = 0 → t.rd Reg.SAF_STAT.state 0 = 1 ∧ t.rd Reg.SAF_DEG_STAT.cause 0 = 3
          ∧ t.rd Reg.SAF_DEG_STAT.remaining 0 = x.degWindow % 2 ^ 10 ∧ t.saf.degAt = s.now)
      ∧ (state ≠ 0 → Reports s t 0x707 n c)
      ∧ t.saf.pairs = s.saf.pairs ∧ t.saf.pchs = s.saf.pchs ∧ Only (.saf :: eventParts) s t
      ∧ RegsBut ([(Reg.SAF_SOUT_STAT.readback, 0), (Reg.SAF_FAULT.readback, 0)] ++ windowRegs ++ eventRegs) s t := by
  intro state
  have hd := State.degrade_after [Reg.SAF_SOUT_STAT.readback, Reg.SAF_FAULT.readback]
    (l := [(Reg.SAF_SOUT_STAT.readback, 0, bitSet (s.rd Reg.SAF_SOUT_STAT.readback 0) n true), (Reg.SAF_FAULT.readback, 0, 1)])
    (u := s.readbackOff n) (code := 0x707) (cause := 3) rfl (by decide) (by decide) hs.regs (by simp) rfl rfl rfl rfl hx (by decide) (by decide) n c
  obtain ⟨d, hsaf⟩ := hd.saf
  refine ⟨_, exec_soutReadback hx n c, ?_, ?_, ?_, hd.starts, hd.reports, ?_, ?_, ?_, hd.wrote.but⟩
  · have hbit := hd.shows (Reg.SAF_SOUT_STAT.readback, 0, _) List.mem_cons_self
    refine State.bitAt_of_rd hbit ?_
    exact Nat.lt_of_lt_of_le n.isLt (by decide)
  · exact hd.shows (Reg.SAF_FAULT.readback, 0, 1) (by simp)
  · rw [hsaf]; rfl
  · rw [hsaf]; rfl
  · rw [hsaf]; rfl
  · have hoff : Keeps 0x1000010 s (s.readbackOff n) :=
      State.modSaf_keeps (by decide) (State.wr_keeps (by decide) (State.setBit_keeps (by decide) (.refl s))) id
    exact ((hoff.mono (by decide)).trans hd.keeps).only (by decide)

theorem expired_reported (hs : Sound s) (hx : s.bs.safety = some x) (hstate : s.rd Reg.SAF_STAT.state 0 = 1) (hexpiry : x.expiry = 0) :
    ∃ t, exec .expired s = .next t ∧ t.rd Reg.SAF_STAT.state 0 = 2 ∧ t.rd Reg.SAF_DEG_STAT.remaining 0 = 0 ∧ Reports s t 0x709 0 0
      ∧ t.saf = s.saf ∧ Only (eventParts ++ mirrorParts) s t ∧ RegsBut (windowRegs ++ eventRegs) s t := by
  have hexec : exec .expired s = .next (s.mirrorOf (s.showExpiry 0)) := by
    change execExpired s = _
    unfold execExpired
    rw [if_pos hstate, State.expire_reported hx (by rw [hstate]; decide) hexpiry]
  obtain ⟨hshown, hleft, hreports, hkeeps, hwrote⟩ := State.showExpiry_effect hs.regs 0
  exact ⟨_, hexec, State.rd_mirrorOf.trans hshown, State.rd_mirrorOf.trans hleft, reports_then hreports (State.mirrorOf_evq _ _),
    (State.mirrorOf_saf _ _).trans (hkeeps.saf.get (by decide)), State.mirrorOf_only (hkeeps.only (by decide)), regsBut_mirrorOf hwrote.but⟩

/-- The action at expiry, on the targets of the section. -/
theorem expired_acts (hs : Sound s) (hx : s.bs.safety = some x) (hstate : s.rd Reg.SAF_STAT.state 0 = 1)
    (hexpiry : x.expiry = 1 ∨ x.expiry = 2 ∨ x.expiry = 3) (htargets : ∀ e ∈ x.targets, e.target < 16) :
    ∃ t, exec .expired s = .next t ∧ t.rd Reg.SAF_STAT.state 0 = 2 ∧ t.saf.outputsOff = decide (x.expiry = 3)
      ∧ (∀ e ∈ x.targets, s.target e.target = 1 → t.target e.target = if x.expiry = 1 then 2 else 3)
      ∧ Only ([.pts, .arms, .cells, .lanes, .units, .red, .saf] ++ eventParts) s t := by
  have hexec : exec .expired s = .next (s.mirrorOf s.expire) := by
    change execExpired s = _
    unfold execExpired
    rw [if_pos hstate]
  have hne : s.rd Reg.SAF_STAT.state 0 ≠ 2 := by rw [hstate]; decide
  have hkeeps : Keeps 0x103c592 s s.expire := State.expire_keeps (by decide) (.refl s)
  obtain ⟨hshown, -, -, hshow, hwrote⟩ := State.showExpiry_effect hs.regs x.expiry
  let v := (s.showExpiry x.expiry).modSaf (fun a => { a with expiryHold := bitsMask x.used, outputsOff := decide (x.expiry = 3) })
  have hv : Keeps 0x1000512 s v := State.modSaf_keeps (by decide) (hshow.mono (by decide)) id
  have hsound := hv.sound hs
  have hacts : s.expire = (v.safRequest (bitsMask x.used) (if x.expiry = 1 then 0 else 1) 4).soutUpdate := State.expire_acts hx hne (by omega)
  have hout := State.soutUpdate_wrote (s := v.safRequest (bitsMask x.used) (if x.expiry = 1 then 0 else 1) 4)
    ((State.safRequest_keeps (M := 0x103c592) (by decide) (.refl v)).sound hsound).regs
  refine ⟨_, hexec, ?state, ?off, ?targets, ?only⟩
  case state =>
    rw [State.rd_mirrorOf, hacts, hout.rd ⟨by decide, by decide, by decide⟩, State.rd_safRequest hsound.regs _ _ _ (by decide) (by decide) (by decide)]
    exact hshown
  case off =>
    have hsout := (State.soutUpdate_keeps (M := 0x12) (by decide)
      (.refl (v.safRequest (bitsMask x.used) (if x.expiry = 1 then 0 else 1) 4))).saf.get (by decide)
    obtain ⟨l, hl⟩ := v.safRequest_saf (bitsMask x.used) (if x.expiry = 1 then 0 else 1) 4
    rw [State.mirrorOf_saf, hacts, hsout, hl]
    rfl
  case targets =>
    intro e he hfree
    have hn := htargets e he
    have hmem : e.target ∈ maskBits (bitsMask x.used) := mem_maskBits_bitsMask (List.mem_map_of_mem he) hn
    have hused : (x.target e.target).isSome = true := List.find?_isSome.mpr ⟨e, he, beq_self_eq_true _⟩
    have hstill : v.target e.target = 1 := by
      have hfar : Apart Reg.SAF_TGT.state e.target (windowRegs ++ eventRegs) := ⟨by decide, Nat.lt_trans hn (by decide), by decide⟩
      exact (hwrote.rd hfar).trans hfree
    have hbs : v.bs.safety = some x := by rw [hv.bs.get (by decide), hx]
    have hdone := State.target_safRequest hsound hbs (kind := if x.expiry = 1 then 0 else 1) (src := 4) hmem hused hstill
    have hfar : Apart Reg.SAF_TGT.state e.target [(Reg.SAF_SOUT_STAT.on, 0)] := ⟨by decide, Nat.lt_trans hn (by decide), by decide⟩
    change (s.mirrorOf s.expire).rd Reg.SAF_TGT.state e.target = _
    rw [State.rd_mirrorOf, hacts, hout.rd hfar]
    refine hdone.trans ?_
    by_cases h : x.expiry = 1 <;> simp [h]
  case only => exact only_mono (by decide) (State.mirrorOf_only (hkeeps.only (l := [.pts, .arms, .cells, .lanes, .units, .saf] ++ eventParts) (by decide)))

theorem expired_else (hstate : s.rd Reg.SAF_STAT.state 0 ≠ 1) : ∃ t, exec .expired s = .next t ∧ Only mirrorParts s t := by
  refine ⟨s.mirrorOf s, ?_, (State.mirrorOf_keeps (M := 0x800002) (by decide) (.refl s)).only (by decide)⟩
  change execExpired s = _
  unfold execExpired
  rw [if_neg hstate]

theorem clockWindow_good (hs : Sound s) {count : Nat} (hlow : 3700 ≤ count) (hhigh : count ≤ 4300) :
    ∃ t, exec (.safClockWindow count) s = .next t ∧ t.rd Reg.SAF_CLK_MON.count 0 = count ∧ t.rd Reg.SAF_STAT.clk_ok 0 = 1
      ∧ t.saf = { s.saf with clkBad := 0 } ∧ Only ([.regs, .saf] ++ mirrorParts) s t
      ∧ RegsBut [(Reg.SAF_CLK_MON.count, 0), (Reg.SAF_STAT.clk_ok, 0)] s t := by
  have hcount : Wrote [(Reg.SAF_CLK_MON.count, 0)] s (s.showWindow count) := (Wrote.refl hs.regs).wr _ List.mem_cons_self
  have hok : Wrote [(Reg.SAF_STAT.clk_ok, 0)] (s.showWindow count) (((s.showWindow count).modSaf (fun a => { a with clkBad := 0 })).wr Reg.SAF_STAT.clk_ok 0 1) :=
    ((Wrote.refl hcount.wf).same (u := (s.showWindow count).modSaf (fun a => { a with clkBad := 0 })) rfl).wr 1 List.mem_cons_self
  have hkeeps : Keeps 0x1000010 s (((s.showWindow count).modSaf (fun a => { a with clkBad := 0 })).wr Reg.SAF_STAT.clk_ok 0 1) :=
    State.wr_keeps (by decide) (State.modSaf_keeps (by decide) (State.wr_keeps (by decide) (.refl s)) id)
  refine ⟨_, exec_safClockWindow_good ⟨hlow, hhigh⟩, State.rd_mirrorOf.trans ?_, State.rd_mirrorOf.trans (State.rd_wr_self _ _ _ hcount.wf), ?_, ?_, ?_⟩
  · refine (hok.rd ⟨by decide, by decide, by decide⟩).trans ((State.rd_wr_self _ _ _ hs.regs).trans ?_)
    change min count 65535 % 2 ^ 16 = count
    omega
  · rw [State.mirrorOf_saf]
    rfl
  · exact State.mirrorOf_only (hkeeps.only (by decide))
  · exact regsBut_mirrorOf (Wrote.trans (hcount.mono (by simp +contextual)) (hok.mono (by simp +contextual))).but

/-- The registers of the clock monitor. -/
abbrev clockRegs : List (Field × Nat) := [(Reg.SAF_CLK_MON.count, 0), (Reg.SAF_STAT.clk_ok, 0), (Reg.SAF_FAULT.clock, 0)]

theorem clockWindow_bad (hs : Sound s) (hx : s.bs.safety = some x) {count : Nat} (hcount : count < 3700 ∨ 4300 < count) (hbad : s.saf.clkBad = 1)
    (hstate : s.rd Reg.SAF_STAT.state 0 ≠ 2) (hexpiry : x.expiry = 0) :
    ∃ t, exec (.safClockWindow count) s = .next t ∧ t.rd Reg.SAF_STAT.clk_ok 0 = 0 ∧ t.rd Reg.SAF_FAULT.clock 0 = 1
      ∧ t.rd Reg.SAF_STAT.state 0 = 2 ∧ t.saf = { s.saf with clkBad := 2 } ∧ Only (.saf :: eventParts ++ mirrorParts) s t
      ∧ RegsBut (clockRegs ++ windowRegs ++ eventRegs) s t := by
  obtain ⟨-, hwrote, hread⟩ := State.raise_after [Reg.SAF_CLK_MON.count, Reg.SAF_STAT.clk_ok, Reg.SAF_FAULT.clock] (l := windowBad count)
    (u := s.clockBad count) (code := 0x70A) rfl (by decide) hs.regs (by simp [windowBad]) rfl rfl rfl rfl (by decide) 0 count
  generalize hm : (s.clockBad count).raise 0x70A 0 count = m at *
  have hbs : m.bs.safety = some x := by rw [← hm, State.raise_bs]; exact hx
  have hfar : Apart Reg.SAF_STAT.state 0 (clockRegs ++ eventRegs) := ⟨by decide, by decide, by decide⟩
  have hne : m.rd Reg.SAF_STAT.state 0 ≠ 2 := by rw [hwrote.rd hfar]; exact hstate
  obtain ⟨hshown, -, -, hkeeps, hexpire⟩ := State.showExpiry_effect hwrote.wf 0
  rw [exec_safClockWindow_bad hcount hbad, hm, State.expire_reported hbs hne hexpiry]
  have hlater : ∀ p ∈ windowRegs ++ eventRegs, p ∈ clockRegs ++ windowRegs ++ eventRegs := by decide
  have hfirst : ∀ p ∈ clockRegs ++ eventRegs, p ∈ clockRegs ++ windowRegs ++ eventRegs := by decide
  have hok : Apart Reg.SAF_STAT.clk_ok 0 (windowRegs ++ eventRegs) := ⟨by decide, by decide, by decide⟩
  have hfault : Apart Reg.SAF_FAULT.clock 0 (windowRegs ++ eventRegs) := ⟨by decide, by decide, by decide⟩
  refine ⟨_, rfl, State.rd_mirrorOf.trans ((hexpire.rd hok).trans (hread (Reg.SAF_STAT.clk_ok, 0, 0) (by simp [windowBad]))),
    State.rd_mirrorOf.trans ((hexpire.rd hfault).trans (hread (Reg.SAF_FAULT.clock, 0, 1) (by simp [windowBad]))),
    State.rd_mirrorOf.trans hshown, ?saf, ?only,
    regsBut_mirrorOf ((hwrote.mono hfirst).trans (hexpire.mono hlater)).but⟩
  case saf =>
    rw [State.mirrorOf_saf, hkeeps.saf.get (by decide), ← hm, State.raise_saf]
    rfl
  case only =>
    have hclock : Only [.regs, .saf] s (s.clockBad count) :=
      only_trans (only_mono (by decide) ((State.wrAll_keeps (M := 0x10) (by decide) (windowBad count) (.refl s)).only (l := [.regs]) (by decide)))
        (only_mono (by decide) (State.only_saf _ _))
    have hraise : Keeps 0x512 (s.clockBad count) (m.showExpiry 0) :=
      Keeps.trans (by rw [← hm]; exact State.raise_keeps (by decide) (.refl _)) hkeeps
    exact only_mono (by decide) (State.mirrorOf_only (l := .saf :: eventParts) (only_trans (only_mono (by decide) hclock) (hraise.only (by decide))))

theorem selfCheck_good (hs : Sound s) :
    ∃ t, exec (.selfCheck true true true) s = .next t ∧ t.rd Reg.SAF_STAT.chan_a_ok 0 = 1 ∧ t.rd Reg.SAF_STAT.chan_b_ok 0 = 1
      ∧ t.saf = { s.saf with internal := false } ∧ Only ([.regs, .saf] ++ mirrorParts) s t
      ∧ RegsBut [(Reg.SAF_STAT.chan_a_ok, 0), (Reg.SAF_STAT.chan_b_ok, 0)] s t := by
  have ha : Wrote [(Reg.SAF_STAT.chan_a_ok, 0)] s (s.wr Reg.SAF_STAT.chan_a_ok 0 1) := (Wrote.refl hs.regs).wr _ List.mem_cons_self
  have hb : Wrote [(Reg.SAF_STAT.chan_b_ok, 0)] (s.wr Reg.SAF_STAT.chan_a_ok 0 1) (s.showChecks true true) := (Wrote.refl ha.wf).wr _ List.mem_cons_self
  have hkeeps : Keeps 0x1000010 s ((s.showChecks true true).modSaf (fun x => { x with internal := false })) :=
    State.modSaf_keeps (by decide) (State.wr_keeps (by decide) (State.wr_keeps (by decide) (.refl s))) id
  refine ⟨_, exec_selfCheck_good s, State.rd_mirrorOf.trans ?_, State.rd_mirrorOf.trans (State.rd_wr_self _ _ _ ha.wf), ?_, ?_, ?_⟩
  · exact (hb.rd ⟨by decide, by decide, by decide⟩).trans (State.rd_wr_self _ _ _ hs.regs)
  · rw [State.mirrorOf_saf]
    rfl
  · exact State.mirrorOf_only (hkeeps.only (by decide))
  · exact regsBut_mirrorOf (Wrote.trans (ha.mono (by simp +contextual)) (hb.mono (by simp +contextual))).but

/-- The registers of a self-check. -/
abbrev checkRegs : List (Field × Nat) := [(Reg.SAF_STAT.chan_a_ok, 0), (Reg.SAF_STAT.chan_b_ok, 0), (Reg.SAF_FAULT.internal, 0)]

theorem selfCheck_bad (hs : Sound s) (hx : s.bs.safety = some x) {a b agree : Bool} (h : (a && b && agree) = false) (hone : (a || b) = true) :
    let state := s.rd Reg.SAF_STAT.state 0
    ∃ t, exec (.selfCheck a b agree) s = .next t ∧ t.rd Reg.SAF_FAULT.internal 0 = 1 ∧ t.rd Reg.SAF_STAT.chan_a_ok 0 = bit a
      ∧ t.rd Reg.SAF_STAT.chan_b_ok 0 = bit b ∧ t.saf.internal = true
      ∧ (state = 0 → t.rd Reg.SAF_STAT.state 0 = 1 ∧ t.rd Reg.SAF_DEG_STAT.cause 0 = 4
          ∧ t.rd Reg.SAF_DEG_STAT.remaining 0 = x.degWindow % 2 ^ 10 ∧ t.saf.degAt = s.now)
      ∧ Only (.saf :: eventParts ++ mirrorParts) s t ∧ RegsBut (checkRegs ++ windowRegs ++ eventRegs) s t := by
  intro state
  have hwrote : Wrote checkRegs s (s.checkFailed a b) := (State.wrAll_wrote hs.regs (checkBad a b)).same rfl
  have hread := State.rd_wrAll [Reg.SAF_STAT.chan_a_ok, Reg.SAF_STAT.chan_b_ok, Reg.SAF_FAULT.internal] (l := checkBad a b) rfl (by decide) hs.regs
    (by simp [checkBad])
  have hd : Degrades (s.checkFailed a b) ((s.checkFailed a b).degrade 4) x.degWindow 4 := State.degrade_effect hwrote.wf hx (by decide)
  have hstate : (s.checkFailed a b).rd Reg.SAF_STAT.state 0 = state := hwrote.rd ⟨by decide, by decide, by decide⟩
  have hbit : ∀ c : Bool, bit c % 2 ^ 1 = bit c := by decide
  have ha : Apart Reg.SAF_STAT.chan_a_ok 0 (windowRegs ++ eventRegs) := ⟨by decide, by decide, by decide⟩
  have hb : Apart Reg.SAF_STAT.chan_b_ok 0 (windowRegs ++ eventRegs) := ⟨by decide, by decide, by decide⟩
  have hi : Apart Reg.SAF_FAULT.internal 0 (windowRegs ++ eventRegs) := ⟨by decide, by decide, by decide⟩
  have hlater : ∀ p ∈ windowRegs ++ eventRegs, p ∈ checkRegs ++ windowRegs ++ eventRegs := by decide
  have hfirst : ∀ p ∈ checkRegs, p ∈ checkRegs ++ windowRegs ++ eventRegs := by decide
  refine ⟨_, exec_selfCheck_bad h hone s, State.rd_mirrorOf.trans ((hd.wrote.rd hi).trans (hread (Reg.SAF_FAULT.internal, 0, 1) (by simp [checkBad]))),
    State.rd_mirrorOf.trans ((hd.wrote.rd ha).trans ((hread (Reg.SAF_STAT.chan_a_ok, 0, bit a) (by simp [checkBad])).trans (hbit a))),
    State.rd_mirrorOf.trans ((hd.wrote.rd hb).trans ((hread (Reg.SAF_STAT.chan_b_ok, 0, bit b) (by simp [checkBad])).trans (hbit b))),
    ?internal, ?starts, ?only, regsBut_mirrorOf ((hwrote.mono hfirst).trans (hd.wrote.mono hlater)).but⟩
  case internal =>
    obtain ⟨n, hn⟩ := hd.saf
    rw [State.mirrorOf_saf, hn]
    rfl
  case starts =>
    intro h0
    obtain ⟨h1, h2, h3, h4⟩ := hd.starts (hstate.trans h0)
    exact ⟨State.rd_mirrorOf.trans h1, State.rd_mirrorOf.trans h2, State.rd_mirrorOf.trans h3, (congrArg Saf.degAt (State.mirrorOf_saf _ _)).trans h4⟩
  case only =>
    have hfailed : Only [.regs, .saf] s (s.checkFailed a b) :=
      only_trans (only_mono (by decide) ((State.wrAll_keeps (M := 0x10) (by decide) (checkBad a b) (.refl s)).only (l := [.regs]) (by decide)))
        (only_mono (by decide) (State.only_saf _ _))
    exact only_mono (by decide) (State.mirrorOf_only (l := .saf :: eventParts) (only_trans (only_mono (by decide) hfailed) (hd.keeps.only (by decide))))

theorem safClear_done (hs : Sound s) (hup : HostUp s) (hlock : s.saf.unlock ≠ none) (hcause : s.causeRemains = false) (mask : Nat) :
    ∃ t, exec (.safCmdClear mask) s = .next t ∧ t.rd Reg.SAF_CMD_STAT.status 0 = 1 ∧ t.rd Reg.SAF_CMD_STAT.refused 0 = 0
      ∧ (s.rd Reg.SAF_STAT.state 0 ≠ 4 → t.rd Reg.SAF_STAT.state 0 = 0) ∧ t.rd Reg.SAF_DEG_STAT.remaining 0 = 0 ∧ t.rd Reg.SAF_DEG_STAT.cause 0 = 0
      ∧ t.saf = { s.saf with unlock := none, expiryHold := 0, outputsOff := false } ∧ t.evq = s.evq ∧ Only [.wire, .regs, .saf] s t
      ∧ RegsBut ((Reg.SAF_SOUT_STAT.on, 0) :: replyRegs ++ windowRegs) s t := by
  obtain ⟨hkc, hwc, hopen⟩ := State.stateCleared_effect (s := s.lockAgain) hs.regs
  generalize hc : s.lockAgain.stateCleared = c at *
  have hsafc : c.saf = s.lockAgain.saf := hkc.saf.get (by decide)
  have hclosed : Wrote (writtenRegs closeWrites) c c.windowClosed := (State.wrAll_wrote hwc.wf closeWrites).same rfl
  have hread := State.rd_wrAll [Reg.SAF_DEG_STAT.remaining, Reg.SAF_DEG_STAT.cause] (l := closeWrites) rfl (by decide) hwc.wf (by simp [closeWrites])
  have hout := State.soutUpdate_wrote hclosed.wf
  have hkout : Keeps 0x12 c.windowClosed c.windowClosed.soutUpdate := State.soutUpdate_keeps (by decide) (.refl _)
  obtain ⟨hstatus, hrefused, hkeeps, -, hreply⟩ := State.safStatus_done hout.wf
  have hlater : Wrote ((Reg.SAF_SOUT_STAT.on, 0) :: replyRegs) c.windowClosed (c.windowClosed.soutUpdate.safStatus 1 0) :=
    (hout.mono (by decide)).trans (hreply.mono (by decide))
  refine ⟨_, hc ▸ exec_safCmdClear_done hup hlock hcause mask, hstatus, hrefused, fun h => ?_, ?_, ?_, ?_, ?_, ?_, ?_⟩
  · exact (hlater.rd ⟨by decide, by decide, by decide⟩).trans ((hclosed.rd ⟨by decide, by decide, by decide⟩).trans (hopen h))
  · exact (hlater.rd ⟨by decide, by decide, by decide⟩).trans (hread (Reg.SAF_DEG_STAT.remaining, 0, 0) (by simp [closeWrites]))
  · exact (hlater.rd ⟨by decide, by decide, by decide⟩).trans (hread (Reg.SAF_DEG_STAT.cause, 0, 0) (by simp [closeWrites]))
  · rw [hkeeps.saf.get (by decide), hkout.saf.get (by decide)]
    change ({ c.saf with expiryHold := 0, outputsOff := false } : Saf) = _
    rw [hsafc]
    rfl
  · rw [hkeeps.evq.get (by decide), hkout.evq.get (by decide)]
    exact hkc.evq.get (by decide)
  · have hfirst : Only [.regs, .saf] s c := only_trans (only_mono (by decide) (State.only_saf s _)) (hkc.only (by decide))
    have hclose : Only [.regs, .saf] c c.windowClosed := only_trans
      (only_mono (by decide) ((State.wrAll_keeps (M := 0x10) (by decide) closeWrites (.refl c)).only (l := [.regs]) (by decide)))
      (only_mono (by decide) (State.only_saf _ _))
    exact only_trans (only_mono (by decide) (only_trans hfirst hclose)) ((hkout.trans (hkeeps.mono (by decide))).only (by decide))
  · have hwindow : ∀ p ∈ writtenRegs closeWrites, p ∈ (Reg.SAF_SOUT_STAT.on, 0) :: replyRegs ++ windowRegs := by decide
    have hreplies : ∀ p ∈ (Reg.SAF_SOUT_STAT.on, 0) :: replyRegs, p ∈ (Reg.SAF_SOUT_STAT.on, 0) :: replyRegs ++ windowRegs := by decide
    have hstates : ∀ p ∈ [(Reg.SAF_STAT.state, 0)], p ∈ (Reg.SAF_SOUT_STAT.on, 0) :: replyRegs ++ windowRegs := by decide
    exact regsBut_trans (regsBut_of_regs rfl) (((hwc.mono hstates).trans (hclosed.mono hwindow)).trans (hlater.mono hreplies)).but

theorem safClear_refused (hs : Sound s) (hup : HostUp s) (hlock : s.saf.unlock ≠ none) (hcause : s.causeRemains = true) (mask : Nat) :
    ∃ t, exec (.safCmdClear mask) s = .next t ∧ t.rd Reg.SAF_CMD_STAT.status 0 = 5 ∧ t.rd Reg.SAF_CMD_STAT.refused 0 = mask % 2 ^ 16
      ∧ Reports s t 0x70B 0 (5 + 2 ^ 16 * (mask % 2 ^ 16)) ∧ t.saf = { s.saf with unlock := none } ∧ Only (.saf :: eventParts) s t
      ∧ RegsBut (replyRegs ++ eventRegs) s t := by
  obtain ⟨hstatus, hrefused, hreports, hkeeps, hwrote⟩ := State.safStatus_refused (s := s.lockAgain) hs.regs (status := 5) (by decide) (by decide) mask
  refine ⟨_, exec_safCmdClear_refused hup hlock hcause mask, hstatus, hrefused, hreports, hkeeps.saf.get (by decide), ?_, ?_⟩
  · exact only_trans (only_mono (by decide) (State.only_saf s _)) (hkeeps.only (by decide))
  · exact regsBut_trans (regsBut_of_regs rfl) hwrote.but

/-- Settles O55: the domain's supervision shows what it finds; degraded mode, expiry and CLEAR act as their lemmas say. -/
theorem safetySupervision : Obligations.SafetySupervision := by
  unfold Obligations.SafetySupervision
  intro s x hs hx state degraded window acts answers reply
  refine ⟨testPulse_effect hs hx, testPulse_fault hs hx, fun hup => ?_, soutTest_effect, soutTest_off, soutReadback_effect hs hx,
    expired_reported hs hx, expired_acts hs hx, expired_else, fun _ => clockWindow_good hs, fun _ => clockWindow_bad hs hx, selfCheck_good hs,
    fun _ _ _ => selfCheck_bad hs hx, fun mask hup hlock hcause => ?_, fun mask hup hlock hcause => ?_⟩
  · obtain ⟨t, hexec, hstatus, hrefused, hunlock, hrest⟩ := testNow_effect hs hx hup
    exact ⟨t, hexec, ⟨hstatus, hrefused, hunlock⟩, hrest⟩
  · obtain ⟨t, hexec, hstatus, hrefused, hopen, hremaining, hzero, hsaf, hrest⟩ := safClear_done hs hup hlock hcause mask
    exact ⟨t, hexec, ⟨hstatus, hrefused, by rw [hsaf]⟩, hopen, hremaining, hzero, hsaf, hrest⟩
  · obtain ⟨t, hexec, hstatus, hrefused, hreports, hsaf, hrest⟩ := safClear_refused hs hup hlock hcause mask
    exact ⟨t, hexec, ⟨hstatus, hrefused, by rw [hsaf]⟩, hreports, hsaf, hrest⟩

end Sys2Proof.Proofs

/-! ## Safety inputs (R409 to R415) -/

namespace Sys2Proof.Machine

open Sys2Proof.Safety

/-! ### A request behind an event -/

/-- No field is one that a request on targets shows, and all lie below the arms'. -/
def fieldsCalm (fs : List Field) : Bool :=
  fs.all (fun f => decide (f.place < armBase * 32) && requestRegs.all (fun p => p.1.place != f.place))

/-- Writes, an event and a request on targets: the writes stand, targets that the request does not name stay. -/
theorem State.request_after (fs : List Field) {l : List (Field × Nat × Nat)} (hfs : l.map (·.1) = fs) (hfree : fieldsFree fs = true)
    (hcalm : fieldsCalm fs = true) {s u : State} (hw : tabWf 0 s.regs = true) (hunits : ∀ x ∈ l, x.2.1 < 8192) (hregs : u.regs = (s.wrAll l).regs)
    (hevq : u.evq = s.evq) (hk : u.epo.k = s.epo.k) (hclk : u.clk = s.clk) {code : Nat} (hc : code ≠ 0x010) (inst data mask kind src : Nat) :
    let t := (u.raise code inst data).safRequest mask kind src
    (∀ x ∈ l, t.rd x.1 x.2.1 = x.2.2 % 2 ^ x.1.width) ∧ (∀ n, n < 16 → mask / 2 ^ n % 2 = 0 → t.target n = s.target n) ∧ StopsAlone u t := by
  intro t
  obtain ⟨-, hwrote, hread⟩ := State.raise_after fs hfs hfree hw hunits hregs hevq hk hclk hc inst data
  have hfield : ∀ x ∈ l, x.1.place < armBase * 32 ∧ requestRegs.all (fun p => p.1.place != x.1.place) = true := fun x hx => by
    obtain ⟨hplace, hother⟩ := Bool.and_eq_true_iff.mp (List.all_eq_true.mp hcalm x.1 (hfs ▸ List.mem_map_of_mem hx))
    exact ⟨of_decide_eq_true hplace, hother⟩
  refine ⟨fun x hx => ?_, fun n hn hmask => ?_, ?_⟩
  · obtain ⟨hlow, hother⟩ := hfield x hx
    exact (State.rd_safRequest hwrote.wf mask kind src hlow (hunits x hx) hother).trans (hread x hx)
  · refine (State.target_safRequest_other hwrote.wf hn hmask).trans (hwrote.rd (f := Reg.SAF_TGT.state) (i := n) ⟨?_, Nat.lt_trans hn (by decide), ?_⟩)
    · rw [List.all_append, Bool.and_eq_true]
      refine ⟨List.all_eq_true.mpr fun p hp => ?_, by decide⟩
      obtain ⟨x, hx, rfl⟩ := List.mem_map.mp hp
      have h := List.all_eq_true.mp (hfield x hx).2 (Reg.SAF_TGT.state, 0) List.mem_cons_self
      exact bne_iff_ne.mpr (Ne.symm (bne_iff_ne.mp h))
    · intro p hp
      rcases List.mem_append.mp hp with hp | hp
      · obtain ⟨x, hx, rfl⟩ := List.mem_map.mp hp
        exact hunits x hx
      · exact (show ∀ p ∈ eventRegs, p.2 < 8192 by decide) p hp
  · obtain ⟨m, hm⟩ := (u.raise code inst data).safRequest_saf mask kind src
    exact ⟨m, by rw [hm, State.raise_saf]⟩

theorem StopsAlone.pairs {s t : State} (h : StopsAlone s t) : t.saf.pairs = s.saf.pairs := by
  obtain ⟨l, hl⟩ := h
  rw [hl]

theorem StopsAlone.pchs {s t : State} (h : StopsAlone s t) : t.saf.pchs = s.saf.pchs := by
  obtain ⟨l, hl⟩ := h
  rw [hl]

/-! ### Pairs (R410, R413) -/

theorem State.pairOf_some {s : State} {x : Machine.Safety} (hx : s.bs.safety = some x) {p : Nat} {e : PairEntry}
    (he : x.pairs.find? (fun e => e.pair == p && e.mode != 0) = some e) : s.bs.safety.bind (·.pairOf p) = some e ∧ e.pair = p := by
  refine ⟨by rw [hx]; exact he, ?_⟩
  have hfound := List.find?_some he
  simp only [Bool.and_eq_true, beq_iff_eq] at hfound
  exact hfound.1

theorem State.showLevel_wrote {s : State} (hw : tabWf 0 s.regs = true) (e : PairEntry) (c : Nat) (demand : Bool) :
    Wrote [(Reg.SAF_PAIR_STAT.ch_a, e.pair), (Reg.SAF_PAIR_STAT.ch_b, e.pair)] s (s.showLevel e c demand) :=
  .ite ((Wrote.refl hw).wr _ (by simp)) ((Wrote.refl hw).wr _ (by simp))

/-- What a pair's evaluation shows. -/
def State.pairWrites (s : State) (p : Nat) : List (Field × Nat × Nat) :=
  let r := s.pair p
  [(Reg.SAF_DEMAND.pair, 0, bitSet (s.rd Reg.SAF_DEMAND.pair 0) p r.demands), (Reg.SAF_PAIR_STAT.demand, p, bit r.demands),
    (Reg.SAF_PAIR_STAT.single, p, bit (r.a.fail || r.b.fail)), (Reg.SAF_PAIR_STAT.test_fail, p, bit r.a.fail + 2 * bit r.b.fail)]

/-- The fields that a pair's evaluation shows. -/
abbrev pairFields : List Field := [Reg.SAF_DEMAND.pair, Reg.SAF_PAIR_STAT.demand, Reg.SAF_PAIR_STAT.single, Reg.SAF_PAIR_STAT.test_fail]

theorem State.pairWrites_units {s : State} {p : Nat} (hp : p < 8) : ∀ x ∈ s.pairWrites p, x.2.1 < 8192 := by
  have h : p < 8192 := Nat.lt_trans hp (by decide)
  simp [State.pairWrites, h]

theorem State.pairUpdate_undemanded {s : State} {e : PairEntry} (h : (s.pair e.pair).demands = false) : s.pairUpdate e = s.wrAll (s.pairWrites e.pair) := by
  unfold State.pairUpdate
  dsimp only
  rw [if_neg (by simp [h])]
  rfl

/-- A pair that demands for the first time is counted. -/
def State.pairDemanded (s : State) (p : Nat) : State := ((s.wrAll (s.pairWrites p)).wr Reg.SAF_PAIR_STAT.demanded p 1).count Reg.SAF_CNT.demands 0

theorem State.pairUpdate_new {s : State} {e : PairEntry} (h : (s.pair e.pair).demands = true) (hwas : s.bitAt Reg.SAF_DEMAND.pair 0 e.pair = false) :
    s.pairUpdate e = ((s.pairDemanded e.pair).raise 0x700 e.pair
      (bit (s.pair e.pair).a.demand + 2 * bit (s.pair e.pair).b.demand + 2 ^ 16 * (e.targets % 2 ^ 16))).safRequest e.targets e.kind 0 := by
  unfold State.pairUpdate
  dsimp only
  rw [if_pos (by simp [h, hwas])]
  rfl

/-- What the end of a demand shows. -/
theorem State.pairUpdate_calm {s : State} (hw : tabWf 0 s.regs = true) {e : PairEntry} (hp : e.pair < 8) (h : (s.pair e.pair).demands = false) :
    let t := s.pairUpdate e
    t.bitAt Reg.SAF_DEMAND.pair 0 e.pair = false ∧ t.rd Reg.SAF_PAIR_STAT.demand e.pair = 0
      ∧ t.rd Reg.SAF_PAIR_STAT.single e.pair = bit ((s.pair e.pair).a.fail || (s.pair e.pair).b.fail) ∧ Keeps 0x10 s t
      ∧ Wrote (writtenRegs (s.pairWrites e.pair)) s t := by
  intro t
  have ht : t = s.wrAll (s.pairWrites e.pair) := State.pairUpdate_undemanded h
  have hread := State.rd_wrAll pairFields (l := s.pairWrites e.pair) rfl (by decide) hw (State.pairWrites_units hp)
  have hbit := hread (Reg.SAF_DEMAND.pair, 0, _) List.mem_cons_self
  have hdemand := hread (Reg.SAF_PAIR_STAT.demand, e.pair, _) (List.mem_cons_of_mem _ List.mem_cons_self)
  have hsingle := hread (Reg.SAF_PAIR_STAT.single, e.pair, _) (List.mem_cons_of_mem _ (List.mem_cons_of_mem _ List.mem_cons_self))
  have hsmall : ∀ c : Bool, bit c % 2 ^ 1 = bit c := by decide
  rw [ht]
  refine ⟨(State.bitAt_of_rd hbit ?_).trans h, hdemand.trans (by rw [h]; rfl), hsingle.trans (hsmall _), State.wrAll_keeps (by decide) _ (.refl s),
    State.wrAll_wrote hw _⟩
  exact hp

/-- What a new demand shows. -/
theorem State.pairUpdate_demands {s : State} (hw : tabWf 0 s.regs = true) {e : PairEntry} (hp : e.pair < 8) (h : (s.pair e.pair).demands = true)
    (hwas : s.bitAt Reg.SAF_DEMAND.pair 0 e.pair = false) :
    let t := s.pairUpdate e
    t.bitAt Reg.SAF_DEMAND.pair 0 e.pair = true ∧ t.rd Reg.SAF_PAIR_STAT.demand e.pair = 1 ∧ t.rd Reg.SAF_PAIR_STAT.demanded e.pair = 1
      ∧ t.rd Reg.SAF_CNT.demands 0 = min (s.rd Reg.SAF_CNT.demands 0 + 1) 65535
      ∧ (∀ n, n < 16 → e.targets / 2 ^ n % 2 = 0 → t.target n = s.target n) ∧ StopsAlone s t := by
  intro t
  have ht : t = _ := State.pairUpdate_new h hwas
  have hunits := State.pairWrites_units (s := s) hp
  have hunit : e.pair < 8192 := Nat.lt_trans hp (by decide)
  let l := s.pairWrites e.pair ++ [(Reg.SAF_PAIR_STAT.demanded, e.pair, 1)]
  have hl : ∀ y ∈ l, y.2.1 < 8192 := fun y hy => (List.mem_append.mp hy).elim (hunits y) (fun hm => by rw [List.mem_singleton.mp hm]; exact hunit)
  have hfar : ∀ f ∈ pairFields ++ [Reg.SAF_PAIR_STAT.demanded], f.place ≠ Reg.SAF_CNT.demands.place := by decide
  have hcnt : (s.wrAll l).rd Reg.SAF_CNT.demands 0 = s.rd Reg.SAF_CNT.demands 0 :=
    (State.wrAll_wrote hw l).rd (apart_written hl (by decide) fun y hy => hfar y.1 (List.mem_map_of_mem (f := fun x => x.1) hy))
  have hdemanded : s.pairDemanded e.pair = s.wrAll (l ++ [(Reg.SAF_CNT.demands, 0, min (s.rd Reg.SAF_CNT.demands 0 + 1) 65535)]) := by
    have hall : s.wrAll l = (s.wrAll (s.pairWrites e.pair)).wr Reg.SAF_PAIR_STAT.demanded e.pair 1 := rfl
    unfold State.pairDemanded
    rw [← hall]
    exact State.wrAll_count s l _ _ hcnt
  obtain ⟨hread, htargets, hstops⟩ := State.request_after (pairFields ++ [Reg.SAF_PAIR_STAT.demanded, Reg.SAF_CNT.demands])
    (l := l ++ [(Reg.SAF_CNT.demands, 0, min (s.rd Reg.SAF_CNT.demands 0 + 1) 65535)]) (u := s.pairDemanded e.pair) (code := 0x700) rfl (by decide) (by decide)
    hw (fun y hy => (List.mem_append.mp hy).elim (hl y) (fun hm => by rw [List.mem_singleton.mp hm]; exact (by decide : 0 < 8192)))
    (by rw [hdemanded]) rfl rfl rfl (by decide) e.pair
    (bit (s.pair e.pair).a.demand + 2 * bit (s.pair e.pair).b.demand + 2 ^ 16 * (e.targets % 2 ^ 16)) e.targets e.kind 0
  have hbit := hread (Reg.SAF_DEMAND.pair, 0, _) List.mem_cons_self
  have hdemand := hread (Reg.SAF_PAIR_STAT.demand, e.pair, _) (List.mem_cons_of_mem _ List.mem_cons_self)
  rw [ht]
  refine ⟨(State.bitAt_of_rd hbit ?_).trans h, hdemand.trans (by rw [h]; rfl), hread (Reg.SAF_PAIR_STAT.demanded, e.pair, 1) (by simp [l]), ?_,
    htargets, hstops⟩
  · exact hp
  · refine (hread (Reg.SAF_CNT.demands, 0, _) (List.mem_append_right _ List.mem_cons_self)).trans ?_
    change min (s.rd Reg.SAF_CNT.demands 0 + 1) 65535 % 2 ^ 16 = _
    omega

/-- A channel shows its demand level. -/
def PairRt.demandOn (r : PairRt) (c : Nat) : PairRt := r.setChan c { r.chan c with demand := true }

theorem PairRt.demandOn_demands {r : PairRt} {c : Nat} (h : (r.chan c).fail = false) : (r.demandOn c).demands = true := by
  unfold PairRt.chan at h
  unfold PairRt.demandOn PairRt.setChan PairRt.chan PairRt.demands
  split
  · rw [if_pos ‹_›] at h
    simp [h]
  · rw [if_neg ‹_›] at h
    simp [h]

/-- Neither channel shows demand. -/
def PairRt.demandOff (r : PairRt) : PairRt := { r with a := { r.a with demand := false }, b := { r.b with demand := false }, disc := false }

theorem PairRt.demandOff_demands {r : PairRt} (h : r.a.fail = false ∨ r.b.fail = false) : r.demandOff.demands = false := by
  unfold PairRt.demandOff PairRt.demands
  rcases h with h | h <;> simp [h]

/-- A channel fails its test. -/
def PairRt.failed (r : PairRt) (c : Nat) : PairRt := r.setChan c { r.chan c with fail := true, passed := 0 }

theorem PairRt.failed_demands {r : PairRt} {c : Nat} (hc : c < 2) (hfail : (r.chan (1 - c)).fail = false) (hdemand : (r.chan (1 - c)).demand = false) :
    (r.failed c).demands = false ∧ ((r.failed c).a.fail || (r.failed c).b.fail) = true ∧ ((r.failed c).a.fail && (r.failed c).b.fail) = false := by
  unfold PairRt.chan at hfail hdemand
  unfold PairRt.failed PairRt.setChan PairRt.chan PairRt.demands
  obtain rfl | rfl : c = 0 ∨ c = 1 := by omega
  · rw [if_neg (by decide)] at hfail hdemand
    simp [hfail, hdemand]
  · rw [if_pos (by decide)] at hfail hdemand
    simp [hfail, hdemand]

theorem State.modPair_saf (s : State) (p : Nat) (f : PairRt → PairRt) :
    (s.modPair p f).saf = { s.saf with pairs := tabMod PairRt.clear s.saf.pairs p f } := rfl

/-- A pair's state changes; the others stay. -/
theorem State.pair_changed {s : State} (hs : Sound s) (p : Nat) (f : PairRt → PairRt) {t : State} (ht : t.saf.pairs = (s.modPair p f).saf.pairs) :
    t.pair p = f (s.pair p) ∧ ∀ n, n ≠ p → t.pair n = s.pair n := by
  have hpair : ∀ n, t.pair n = (s.modPair p f).pair n := fun n => by
    unfold State.pair
    rw [ht]
  exact ⟨(hpair p).trans ((State.pair_modPair hs.safety.1 p f p).trans (if_pos rfl)),
    fun n hn => (hpair n).trans ((State.pair_modPair hs.safety.1 p f n).trans (if_neg hn))⟩

end Sys2Proof.Machine

namespace Sys2Proof.Proofs

open Sys2Proof.Machine Sys2Proof.Safety

variable {s : State} {x : Machine.Safety}

theorem pairDemand_effect (hs : Sound s) (hx : s.bs.safety = some x) (p : Fin 8) (c : Fin 2) (e : PairEntry)
    (he : x.pairs.find? (fun e => e.pair == p.val && e.mode != 0) = some e) (hfail : ((s.pair p).chan c).fail = false)
    (hwas : s.bitAt Reg.SAF_DEMAND.pair 0 p = false) :
    ∃ t, exec (.pairDemand p c) s = .next t ∧ t.bitAt Reg.SAF_DEMAND.pair 0 p = true ∧ t.rd Reg.SAF_PAIR_STAT.demand p = 1
      ∧ t.rd Reg.SAF_PAIR_STAT.demanded p = 1 ∧ t.rd Reg.SAF_CNT.demands 0 = min (s.rd Reg.SAF_CNT.demands 0 + 1) 65535
      ∧ t.pair p = (s.pair p).setChan c { (s.pair p).chan c with demand := true } ∧ (∀ n, n ≠ p.val → t.pair n = s.pair n) ∧ t.saf.pchs = s.saf.pchs
      ∧ (∀ n, n < 16 → e.targets / 2 ^ n % 2 = 0 → t.target n = s.target n)
      ∧ Only ([.pts, .arms, .cells, .lanes, .units, .red, .saf] ++ eventParts) s t := by
  obtain ⟨hof, hpair⟩ := State.pairOf_some hx he
  let u := s.showLevel e c true
  let v := u.modPair p (fun r => r.demandOn c)
  have hexec : exec (.pairDemand p c) s = .next (s.mirrorOf (v.pairUpdate e)) := by
    change execPairDemand p c s = _
    unfold execPairDemand
    rw [hof]
    rfl
  have hlevel : Wrote [(Reg.SAF_PAIR_STAT.ch_a, e.pair), (Reg.SAF_PAIR_STAT.ch_b, e.pair)] s u := State.showLevel_wrote hs.regs e c true
  have hkeeps : Keeps 0x10 s u := State.showLevel_keeps (by decide) (.refl s)
  have hsafu : u.saf = s.saf := hkeeps.saf.get (by decide)
  have hsv : Sound v := (State.modPair_keeps (M := 0x1000010) (by decide) (hkeeps.mono (by decide))).sound hs
  have hp : e.pair < 8 := hpair ▸ p.isLt
  have hunits : ∀ q ∈ [(Reg.SAF_PAIR_STAT.ch_a, e.pair), (Reg.SAF_PAIR_STAT.ch_b, e.pair)], q.2 < 8192 := by
    have hunit : e.pair < 8192 := Nat.lt_trans hp (by decide)
    simp [hunit]
  have hrd : ∀ {f : Field} {i : Nat}, i < 8192 → Reg.SAF_PAIR_STAT.ch_a.place ≠ f.place → Reg.SAF_PAIR_STAT.ch_b.place ≠ f.place → v.rd f i = s.rd f i :=
    fun hi ha hb => hlevel.rd ⟨by simp [ha, hb], hi, hunits⟩
  have hvp : v.pair p = (s.pair p).demandOn c := by
    have h := (State.pair_changed (s := u) (hkeeps.sound hs) p (fun r => r.demandOn c) (t := v) rfl).1
    rw [h]
    unfold State.pair
    rw [hsafu]
  have hdemands : (v.pair e.pair).demands = true := by
    rw [hpair, hvp]
    exact PairRt.demandOn_demands hfail
  have hquiet : v.bitAt Reg.SAF_DEMAND.pair 0 e.pair = false := by
    unfold State.bitAt
    rw [hrd (by decide) (by decide) (by decide), hpair]
    exact hwas
  obtain ⟨hbit, hdemand, hdemanded, hcount, htargets, hstops⟩ := State.pairUpdate_demands hsv.regs hp hdemands hquiet
  have hsaf : (s.mirrorOf (v.pairUpdate e)).saf.pairs = (s.modPair p (fun r => r.demandOn c)).saf.pairs := by
    rw [State.mirrorOf_saf, hstops.pairs]
    rw [State.modPair_saf, State.modPair_saf, hsafu]
  obtain ⟨hthis, hothers⟩ := State.pair_changed hs p _ hsaf
  rw [hpair] at hbit hdemand hdemanded
  refine ⟨_, hexec, ?_, State.rd_mirrorOf.trans hdemand, State.rd_mirrorOf.trans hdemanded, ?_, hthis, hothers, ?_, fun n hn hmask => ?_, ?_⟩
  · exact (State.bitAt_congr (State.mirrorOf_regs _ _) _ _ _).trans hbit
  · rw [State.rd_mirrorOf, hcount, hrd (by decide) (by decide) (by decide)]
  · rw [State.mirrorOf_saf, hstops.pchs]
    change u.saf.pchs = _
    rw [hsafu]
  · change (s.mirrorOf (v.pairUpdate e)).rd _ _ = _
    rw [State.rd_mirrorOf]
    exact (htargets n hn hmask).trans (hrd (Nat.lt_trans hn (by decide)) (by decide) (by decide))
  · have hall : Keeps 0x183c592 s (s.mirrorOf (v.pairUpdate e)) := by
      exact State.mirrorOf_keeps (by decide) (State.pairUpdate_keeps (by decide) (State.modPair_keeps (by decide) (hkeeps.mono (by decide))))
    exact hall.only (by decide)

/-- The fields of a pair's status that an evaluation may change. -/
abbrev pairRegs (p : Nat) : List (Field × Nat) := [(Reg.SAF_DEMAND.pair, 0), (Reg.SAF_PAIR_STAT.demand, p), (Reg.SAF_PAIR_STAT.single, p),
  (Reg.SAF_PAIR_STAT.test_fail, p), (Reg.SAF_PAIR_STAT.ch_a, p), (Reg.SAF_PAIR_STAT.ch_b, p)]

theorem pairDemandEnd_effect (hs : Sound s) (hx : s.bs.safety = some x) (p : Fin 8) (e : PairEntry)
    (he : x.pairs.find? (fun e => e.pair == p.val && e.mode != 0) = some e) (hfail : (s.pair p).a.fail = false ∨ (s.pair p).b.fail = false) :
    ∃ t, exec (.pairDemandEnd p) s = .next t ∧ t.bitAt Reg.SAF_DEMAND.pair 0 p = false ∧ t.rd Reg.SAF_PAIR_STAT.demand p = 0
      ∧ t.pair p = (s.pair p).demandOff ∧ (∀ n, n ≠ p.val → t.pair n = s.pair n)
      ∧ t.saf.pchs = s.saf.pchs ∧ t.saf.unlock = s.saf.unlock ∧ Only [.regs, .saf] s t ∧ RegsBut (pairRegs p) s t := by
  obtain ⟨hof, hpair⟩ := State.pairOf_some hx he
  let u := (s.showLevel e 0 false).showLevel e 1 false
  let v := u.modPair p PairRt.demandOff
  have hexec : exec (.pairDemandEnd p) s = .next (v.pairUpdate e) := by
    change execPairDemandEnd p s = _
    unfold execPairDemandEnd
    rw [hof]
    rfl
  have hfirst := State.showLevel_wrote hs.regs e 0 false
  have hlevel : Wrote [(Reg.SAF_PAIR_STAT.ch_a, e.pair), (Reg.SAF_PAIR_STAT.ch_b, e.pair)] s u := hfirst.trans (State.showLevel_wrote hfirst.wf e 1 false)
  have hkeeps : Keeps 0x10 s u := State.showLevel_keeps (by decide) (State.showLevel_keeps (by decide) (.refl s))
  have hsafu : u.saf = s.saf := hkeeps.saf.get (by decide)
  have hsv : Sound v := (State.modPair_keeps (M := 0x1000010) (by decide) (hkeeps.mono (by decide))).sound hs
  have hp : e.pair < 8 := hpair ▸ p.isLt
  have hdemands : (v.pair e.pair).demands = false := by
    have h := (State.pair_changed (s := u) (hkeeps.sound hs) p PairRt.demandOff (t := v) rfl).1
    have hpairu : u.pair p = s.pair p := by
      unfold State.pair
      rw [hsafu]
    rw [hpair, h, hpairu]
    exact PairRt.demandOff_demands hfail
  obtain ⟨hbit, hdemand, -, hupdate, hwrote⟩ := State.pairUpdate_calm hsv.regs hp hdemands
  have hsaf : (v.pairUpdate e).saf = (s.modPair p PairRt.demandOff).saf := by
    rw [hupdate.saf.get (by decide)]
    rw [State.modPair_saf, State.modPair_saf, hsafu]
  obtain ⟨hthis, hothers⟩ := State.pair_changed hs p _ (congrArg Saf.pairs hsaf)
  rw [hpair] at hbit hdemand hlevel hwrote
  refine ⟨_, hexec, hbit, hdemand, hthis, hothers, (congrArg Saf.pchs hsaf :), (congrArg Saf.unlock hsaf :), ?_, ?_⟩
  · have hall : Keeps 0x1000010 s (v.pairUpdate e) := (State.modPair_keeps (by decide) (hkeeps.mono (by decide))).trans (hupdate.mono (by decide))
    exact hall.only (by decide)
  · have hlater : Wrote (writtenRegs (v.pairWrites p)) u (v.pairUpdate e) := ((Wrote.refl (hkeeps.sound hs).regs).same (u := v) rfl).trans hwrote
    exact (Wrote.trans (hlevel.mono (by simp)) (hlater.mono (by simp [State.pairWrites]))).but

theorem pairDiscrepancy_effect (hs : Sound s) (hx : s.bs.safety = some x) (p : Fin 8) (a b : Bool) (e : PairEntry)
    (he : x.pairs.find? (fun e => e.pair == p.val && e.mode != 0) = some e) (hmode : e.mode ≠ 3) :
    ∃ t, exec (.pairDiscrepancy p a b) s = .next t ∧ t.pair p = { s.pair p with disc := true } ∧ t.rd Reg.SAF_PAIR_STAT.disc p = 1
      ∧ t.bitAt Reg.SAF_FAULT.pair_disc 0 p = true ∧ Reports s t 0x702 p (bit a + 2 * bit b) ∧ (∀ n, n ≠ p.val → t.pair n = s.pair n)
      ∧ Only (.saf :: eventParts ++ mirrorParts) s t
      ∧ RegsBut ([(Reg.SAF_PAIR_STAT.disc, p.val), (Reg.SAF_FAULT.pair_disc, 0)] ++ eventRegs) s t := by
  obtain ⟨hof, -⟩ := State.pairOf_some hx he
  let l : List (Field × Nat × Nat) := [(Reg.SAF_PAIR_STAT.disc, p.val, 1),
    (Reg.SAF_FAULT.pair_disc, 0, bitSet ((s.wr Reg.SAF_PAIR_STAT.disc p 1).rd Reg.SAF_FAULT.pair_disc 0) p true)]
  have hp : p.val < 8192 := Nat.lt_trans p.isLt (by decide)
  let v := ((s.modPair p (fun r => { r with disc := true })).wr Reg.SAF_PAIR_STAT.disc p 1).setBit Reg.SAF_FAULT.pair_disc 0 p true
  have hexec : exec (.pairDiscrepancy p a b) s = .next (s.mirrorOf (v.raise 0x702 p (bit a + 2 * bit b))) := by
    change execPairDiscrepancy p a b s = _
    unfold execPairDiscrepancy
    rw [hof]
    dsimp only
    rw [if_neg hmode]
  obtain ⟨hreports, hwrote, hread⟩ := State.raise_after [Reg.SAF_PAIR_STAT.disc, Reg.SAF_FAULT.pair_disc] (l := l) (u := v) (code := 0x702) rfl (by decide)
    hs.regs (by simp [l, hp]) rfl rfl rfl rfl (by decide) p (bit a + 2 * bit b)
  have hsaf : (s.mirrorOf (v.raise 0x702 p (bit a + 2 * bit b))).saf = (s.modPair p (fun r => { r with disc := true })).saf := by
    rw [State.mirrorOf_saf, State.raise_saf]
    rfl
  obtain ⟨hthis, hothers⟩ := State.pair_changed hs p _ (congrArg Saf.pairs hsaf)
  have hbit := hread (Reg.SAF_FAULT.pair_disc, 0, _) (List.mem_cons_of_mem _ List.mem_cons_self)
  refine ⟨_, hexec, hthis, State.rd_mirrorOf.trans (hread (Reg.SAF_PAIR_STAT.disc, p.val, 1) List.mem_cons_self), ?_,
    reports_then hreports (State.mirrorOf_evq _ _), hothers, ?_, regsBut_mirrorOf hwrote.but⟩
  · refine (State.bitAt_congr (State.mirrorOf_regs _ _) _ _ _).trans (State.bitAt_of_rd hbit ?_)
    exact p.isLt
  · have hall : Keeps 0x1000512 s (v.raise 0x702 p (bit a + 2 * bit b)) := by
      exact State.raise_keeps (by decide) (State.setBit_keeps (by decide) (State.wr_keeps (by decide) (State.modPair_keeps (by decide) (.refl s))))
    exact only_mono (by decide) (State.mirrorOf_only (hall.only (l := .saf :: eventParts) (by decide)))

/-- A saturating count of 16 bits fits its field. -/
theorem saturated_mod (n : Nat) : min n 65535 % 2 ^ 16 = min n 65535 := by omega

/-- A channel that fails its test is counted. -/
def testWrites (s : State) (p : Nat) : List (Field × Nat × Nat) :=
  [(Reg.SAF_FAULT.test_fail, 0, bitSet (s.rd Reg.SAF_FAULT.test_fail 0) p true), (Reg.SAF_CNT.tests_failed, 0, min (s.rd Reg.SAF_CNT.tests_failed 0 + 1) 65535)]

/-- The pair with the channel that fails its test. -/
def testCounted (s : State) (p c : Nat) : State :=
  ((s.modPair p (fun r => r.failed c)).setBit Reg.SAF_FAULT.test_fail 0 p true).count Reg.SAF_CNT.tests_failed 0

theorem testCounted_regs (hs : Sound s) (p c : Nat) : (testCounted s p c).regs = (s.wrAll (testWrites s p)).regs := by
  have hfirst : Wrote [(Reg.SAF_FAULT.test_fail, 0)] s ((s.modPair p (fun r => r.failed c)).setBit Reg.SAF_FAULT.test_fail 0 p true) :=
    ((Wrote.refl hs.regs).same (u := s.modPair p (fun r => r.failed c)) rfl).setBit _ _ List.mem_cons_self
  unfold testCounted State.count State.add
  rw [hfirst.rd (apart_sole Reg.SAF_CNT.tests_failed Reg.SAF_FAULT.test_fail (by decide) (by decide) (by decide))]
  rfl

theorem State.failTest_eq (s : State) (e : PairEntry) (c n : Nat) : s.failTest e c n =
    let t := (((testCounted s e.pair c).raise 0x701 e.pair (c + 16 * n)).degrade 1).pairUpdate e
    if (t.pair e.pair).a.fail && (t.pair e.pair).b.fail then t.expire else t := rfl

theorem testFailed_effect (hs : Sound s) (hx : s.bs.safety = some x) (p : Fin 8) (c : Fin 2) (e : PairEntry) (n : Nat)
    (he : x.pairs.find? (fun e => e.pair == p.val && e.mode != 0) = some e)
    (hn : (if c.val = 0 then some e.stpA else if e.mode = 2 then none else some e.stpB) = some n)
    (hfail : ((s.pair p).chan (1 - c.val)).fail = false) (hdemand : ((s.pair p).chan (1 - c.val)).demand = false) :
    ∃ t, exec (.testFailed p c) s = .next t ∧ t.pair p = (s.pair p).failed c ∧ (∀ n, n ≠ p.val → t.pair n = s.pair n)
      ∧ t.bitAt Reg.SAF_FAULT.test_fail 0 p = true ∧ t.rd Reg.SAF_CNT.tests_failed 0 = min (s.rd Reg.SAF_CNT.tests_failed 0 + 1) 65535
      ∧ t.rd Reg.SAF_PAIR_STAT.single p = 1 ∧ t.bitAt Reg.SAF_DEMAND.pair 0 p = false
      ∧ (s.rd Reg.SAF_STAT.state 0 = 0 → t.rd Reg.SAF_STAT.state 0 = 1 ∧ t.rd Reg.SAF_DEG_STAT.cause 0 = 1
          ∧ t.rd Reg.SAF_DEG_STAT.remaining 0 = x.degWindow % 2 ^ 10 ∧ t.saf.degAt = s.now)
      ∧ (s.rd Reg.SAF_STAT.state 0 ≠ 0 → Reports s t 0x701 p (c + 16 * n)) ∧ Only (.saf :: eventParts ++ mirrorParts) s t
      ∧ RegsBut ([(Reg.SAF_FAULT.test_fail, 0), (Reg.SAF_CNT.tests_failed, 0)] ++ windowRegs ++ pairRegs p ++ eventRegs) s t := by
  obtain ⟨hof, hpair⟩ := State.pairOf_some hx he
  have hp : e.pair < 8 := hpair ▸ p.isLt
  let u := testCounted s e.pair c
  have hd : DegradesAfter s u ((u.raise 0x701 e.pair (c + 16 * n)).degrade 1) (testWrites s e.pair) x.degWindow 1 0x701 e.pair (c + 16 * n) :=
    State.degrade_after [Reg.SAF_FAULT.test_fail, Reg.SAF_CNT.tests_failed] rfl (by decide) (by decide) hs.regs (by simp [testWrites])
      (testCounted_regs hs _ _) rfl rfl rfl hx (by decide) (by decide) _ _
  generalize hm : (u.raise 0x701 e.pair (c + 16 * n)).degrade 1 = m at *
  have hku : Keeps 0x1000010 s u := State.count_keeps (by decide) (State.setBit_keeps (by decide) (State.modPair_keeps (by decide) (.refl s)))
  have hkm : Keeps 0x1000512 s m := (hku.mono (by decide)).trans hd.keeps
  obtain ⟨d, hsafm⟩ := hd.saf
  have hmpairs : m.saf.pairs = (s.modPair e.pair (fun r => r.failed c)).saf.pairs := by rw [hsafm]; rfl
  obtain ⟨hmp, -⟩ := State.pair_changed hs e.pair _ hmpairs
  rw [hpair] at hmp
  obtain ⟨hcalm, hone, hboth⟩ := PairRt.failed_demands c.isLt hfail hdemand
  obtain ⟨hbit, -, hsingle, hupdate, hwrote⟩ := State.pairUpdate_calm (hkm.sound hs).regs hp (by rw [hpair, hmp]; exact hcalm)
  have htsaf : (m.pairUpdate e).saf = m.saf := hupdate.saf.get (by decide)
  have htp : (m.pairUpdate e).pair p = (s.pair p).failed c := by
    rw [← hmp]
    unfold State.pair
    rw [htsaf]
  have hexec : exec (.testFailed p c) s = .next (s.mirrorOf (m.pairUpdate e)) := by
    have hstp : e.stp c = some n := hn
    have htest : s.failTest e c n = m.pairUpdate e := by
      rw [State.failTest_eq]
      dsimp only
      rw [hm, hpair, htp, hboth]
      rfl
    change execTestFailed p c s = _
    unfold execTestFailed
    rw [hof]
    dsimp only
    rw [hstp]
    dsimp only
    rw [htest]
  have hpairs : (s.mirrorOf (m.pairUpdate e)).saf.pairs = (s.modPair e.pair (fun r => r.failed c)).saf.pairs := by
    rw [State.mirrorOf_saf, htsaf, hmpairs]
  obtain ⟨hthis, hothers⟩ := State.pair_changed hs e.pair _ hpairs
  have hunit : e.pair < 8192 := Nat.lt_trans hp (by decide)
  have hthrough : ∀ {f : Field} {i : Nat}, i < 8192 → (∀ g ∈ pairFields, g.place ≠ f.place) → (m.pairUpdate e).rd f i = m.rd f i := fun hi hf =>
    hwrote.rd (apart_written (State.pairWrites_units hp) hi fun y hy => hf y.1 (List.mem_map_of_mem (f := fun x => x.1) hy))
  have hfault := hd.shows (Reg.SAF_FAULT.test_fail, 0, _) List.mem_cons_self
  have hcount : m.rd Reg.SAF_CNT.tests_failed 0 = min (s.rd Reg.SAF_CNT.tests_failed 0 + 1) 65535 % 2 ^ Reg.SAF_CNT.tests_failed.width :=
    hd.shows (Reg.SAF_CNT.tests_failed, 0, _) (List.mem_cons_of_mem _ List.mem_cons_self)
  have hwidth : Reg.SAF_CNT.tests_failed.width = 16 := rfl
  rw [hpair] at hbit hsingle hthis hothers
  refine ⟨_, hexec, hthis, hothers, ?fault, State.rd_mirrorOf.trans ((hthrough (by decide) (by decide)).trans (hcount.trans ?count)),
    State.rd_mirrorOf.trans (hsingle.trans (by rw [hmp, hone]; rfl)), (State.bitAt_congr (State.mirrorOf_regs _ _) _ _ _).trans hbit,
    fun h0 => ?starts, fun h0 => ?reports, ?only, regsBut_mirrorOf ?regs⟩
  case fault =>
    refine (State.bitAt_congr (State.mirrorOf_regs _ _) _ _ _).trans (State.bitAt_of_rd ((hthrough (by decide) (by decide)).trans (hpair ▸ hfault)) ?_)
    exact p.isLt
  case count =>
    rw [hwidth]
    exact saturated_mod _
  case starts =>
    obtain ⟨h1, h2, h3, h4⟩ := hd.starts h0
    exact ⟨State.rd_mirrorOf.trans ((hthrough (by decide) (by decide)).trans h1), State.rd_mirrorOf.trans ((hthrough (by decide) (by decide)).trans h2),
      State.rd_mirrorOf.trans ((hthrough (by decide) (by decide)).trans h3), by rw [State.mirrorOf_saf, htsaf]; exact h4⟩
  case reports =>
    exact reports_then (reports_then (hpair ▸ hd.reports h0) (hupdate.evq.get (by decide))) (State.mirrorOf_evq _ _)
  case only =>
    have hall : Keeps 0x1000512 s (m.pairUpdate e) := hkm.trans (hupdate.mono (by decide))
    exact only_mono (by decide) (State.mirrorOf_only (hall.only (l := .saf :: eventParts) (by decide)))
  case regs =>
    rw [hpair] at hwrote
    refine (Wrote.trans (hd.wrote.mono ?_) (hwrote.mono ?_)).but
    · simp +contextual [testWrites]
    · simp [State.pairWrites]

/-! ### Privileged channels (R414, R415) -/

theorem pchOf_some {n : Nat} {e : PchEntry} (hx : s.bs.safety = some x) (he : x.pchs.find? (fun e => e.chan == n && e.func != 0) = some e) :
    s.bs.safety.bind (·.pchOf n) = some e := by
  rw [hx]
  exact he

/-- What a violation shows. -/
def violateWrites (s : State) (n : Nat) : List (Field × Nat × Nat) :=
  [(Reg.SAF_PCH_STAT.violation, n, 1),
    (Reg.SAF_DEMAND.pch, 0, bitSet ((s.wr Reg.SAF_PCH_STAT.violation n 1).rd Reg.SAF_DEMAND.pch 0) n true)]

theorem limitViolation_effect (hs : Sound s) (hx : s.bs.safety = some x) (n : Fin 4) (e : PchEntry)
    (he : x.pchs.find? (fun e => e.chan == n.val && e.func != 0) = some e) (hchan : e.chan = n.val)
    (hnot : s.flag Reg.SAF_PCH_STAT.violation n = false) (hover : s.pchExceeds e (s.rd Reg.SAF_PCH_VAL.x n) = true) :
    ∃ t, exec (.limitViolation n) s = .next t ∧ t.rd Reg.SAF_PCH_STAT.violation n = 1 ∧ t.bitAt Reg.SAF_DEMAND.pch 0 n = true
      ∧ t.rd Reg.SAF_PCH_STAT.violations n = min (s.rd Reg.SAF_PCH_STAT.violations n + 1) (2 ^ Reg.SAF_PCH_STAT.violations.width - 1)
      ∧ t.saf.pairs = s.saf.pairs ∧ t.saf.pchs = s.saf.pchs
      ∧ (∀ m, m < 16 → e.targets / 2 ^ m % 2 = 0 → t.target m = s.target m)
      ∧ Only ([.pts, .arms, .cells, .lanes, .units, .red, .saf] ++ eventParts) s t := by
  have hn : n.val < 8192 := Nat.lt_trans n.isLt (by decide)
  let u := (s.setViolation n true).count Reg.SAF_PCH_STAT.violations n
  let data := u.rd Reg.SAF_PCH_VAL.x n
  have hexec : exec (.limitViolation n) s = .next (s.mirrorOf ((u.raise 0x704 n data).safRequest e.targets e.kind 2)) := by
    change execLimitViolation n s = _
    unfold execLimitViolation
    rw [pchOf_some hx he]
    dsimp only
    rw [if_neg (by simp [hnot, hover])]
    unfold State.violate
    rw [hchan]
  have hunits : ∀ y ∈ violateWrites s n, y.2.1 < 8192 := by simp [violateWrites, hn]
  have hfar : ∀ f ∈ [Reg.SAF_PCH_STAT.violation, Reg.SAF_DEMAND.pch], f.place ≠ Reg.SAF_PCH_STAT.violations.place := by decide
  have hcount : (s.wrAll (violateWrites s n)).rd Reg.SAF_PCH_STAT.violations n = s.rd Reg.SAF_PCH_STAT.violations n :=
    (State.wrAll_wrote hs.regs _).rd (apart_written hunits hn fun y hy => hfar y.1 (List.mem_map_of_mem (f := fun x => x.1) hy))
  have hall : u = s.wrAll (violateWrites s n ++ [(Reg.SAF_PCH_STAT.violations, n.val,
      min (s.rd Reg.SAF_PCH_STAT.violations n + 1) (2 ^ Reg.SAF_PCH_STAT.violations.width - 1))]) :=
    State.wrAll_count s (violateWrites s n) _ _ hcount
  obtain ⟨hread, htargets, hstops⟩ := State.request_after [Reg.SAF_PCH_STAT.violation, Reg.SAF_DEMAND.pch, Reg.SAF_PCH_STAT.violations]
    (l := violateWrites s n ++ [(Reg.SAF_PCH_STAT.violations, n.val, min (s.rd Reg.SAF_PCH_STAT.violations n + 1)
      (2 ^ Reg.SAF_PCH_STAT.violations.width - 1))]) (u := u) (code := 0x704) rfl (by decide) (by decide) hs.regs
    (fun y hy => (List.mem_append.mp hy).elim (hunits y) (fun hm => by rw [List.mem_singleton.mp hm]; exact hn))
    (by rw [hall]) rfl rfl rfl (by decide) n data e.targets e.kind 2
  have hbit := hread (Reg.SAF_DEMAND.pch, 0, _) (List.mem_cons_of_mem _ List.mem_cons_self)
  have hcounted := hread (Reg.SAF_PCH_STAT.violations, n.val, _) (List.mem_append_right _ List.mem_cons_self)
  refine ⟨_, hexec, State.rd_mirrorOf.trans (hread (Reg.SAF_PCH_STAT.violation, n.val, 1) List.mem_cons_self), ?bit,
    State.rd_mirrorOf.trans (hcounted.trans (Nat.mod_eq_of_lt ?count)), ?pairs, ?pchs, fun m hm hmask => ?target, ?only⟩
  case bit =>
    refine (State.bitAt_congr (State.mirrorOf_regs _ _) _ _ _).trans (State.bitAt_of_rd hbit ?_)
    exact n.isLt
  case count => exact Nat.lt_of_le_of_lt (Nat.min_le_right _ _) (Nat.sub_lt (Nat.two_pow_pos _) (by decide))
  case pairs => rw [State.mirrorOf_saf, hstops.pairs]; rfl
  case pchs => rw [State.mirrorOf_saf, hstops.pchs]; rfl
  case target => exact State.rd_mirrorOf.trans (htargets m hm hmask)
  case only =>
    have hkeeps : Keeps 0x183c592 s (s.mirrorOf ((u.raise 0x704 n data).safRequest e.targets e.kind 2)) := by
      exact State.mirrorOf_keeps (by decide) (State.safRequest_keeps (by decide) (State.raise_keeps (by decide)
        (State.count_keeps (by decide) (State.setViolation_keeps (by decide) (.refl s)))))
    exact hkeeps.only (by decide)

theorem limitViolation_none (hx : s.bs.safety = some x) (n : Fin 4) (e : PchEntry)
    (he : x.pchs.find? (fun e => e.chan == n.val && e.func != 0) = some e) (hunder : s.pchExceeds e (s.rd Reg.SAF_PCH_VAL.x n) = false) :
    ∃ t, exec (.limitViolation n) s = .next t ∧ Only mirrorParts s t := by
  refine ⟨s.mirrorOf s, ?_, (State.mirrorOf_keeps (M := 0x800002) (by decide) (.refl s)).only (by decide)⟩
  change execLimitViolation n s = _
  unfold execLimitViolation
  rw [pchOf_some hx he]
  dsimp only
  rw [if_pos (by simp [hunder])]

/-- A channel's readings with those that are stale now. -/
def stale (r : PchRt) (a b : Bool) : PchRt := { r with staleA := r.staleA || a, staleB := r.staleB || b }

/-- What a discrepancy of two readings writes. -/
def discWrites (n : Nat) (r : PchRt) (value faults : Nat) : List (Field × Nat × Nat) :=
  [(Reg.SAF_PCH_STAT.disc, n, 1), (Reg.SAF_PCH_STAT.stale_a, n, bit r.staleA), (Reg.SAF_PCH_STAT.stale_b, n, bit r.staleB),
    (Reg.SAF_PCH_VAL.x, n, value), (Reg.SAF_FAULT.meas_disc, 0, bitSet faults n true)]

/-- The channel with its stale readings. -/
def staled (s : State) (n : Nat) (a b : Bool) : State := s.modPch n (fun r => stale r a b)

/-- The channel shows the discrepancy. -/
def discShown (s : State) (e : PchEntry) (n : Nat) (r : PchRt) : State :=
  let s := (s.modPch n (fun r' => { r' with disc := e.apart r })).wr Reg.SAF_PCH_STAT.disc n 1
  let s := (s.wr Reg.SAF_PCH_STAT.stale_a n (bit r.staleA)).wr Reg.SAF_PCH_STAT.stale_b n (bit r.staleB)
  (s.wr Reg.SAF_PCH_VAL.x n (s.pchValue e)).setBit Reg.SAF_FAULT.meas_disc 0 n true

/-- The discrepancy is reported. -/
def discReported (s : State) (e : PchEntry) (n : Nat) (r : PchRt) : State :=
  ((discShown s e n r).raise 0x705 n (bit r.staleA + 2 * bit r.staleB + 4 * bit (e.apart r))).degrade 2

/-- The value that the channel shows after its marks. -/
def discValue (s : State) (e : PchEntry) (n : Nat) (r : PchRt) : Nat :=
  (((((s.modPch n (fun r' => { r' with disc := e.apart r })).wr Reg.SAF_PCH_STAT.disc n 1).wr Reg.SAF_PCH_STAT.stale_a n (bit r.staleA)).wr
    Reg.SAF_PCH_STAT.stale_b n (bit r.staleB))).pchValue e

/-- The faults before the discrepancy. -/
def discFaults (s : State) (e : PchEntry) (n : Nat) (r : PchRt) : Nat :=
  (((((s.modPch n (fun r' => { r' with disc := e.apart r })).wr Reg.SAF_PCH_STAT.disc n 1).wr Reg.SAF_PCH_STAT.stale_a n (bit r.staleA)).wr
    Reg.SAF_PCH_STAT.stale_b n (bit r.staleB)).wr Reg.SAF_PCH_VAL.x n (discValue s e n r)).rd Reg.SAF_FAULT.meas_disc 0

theorem discShown_regs (s : State) (e : PchEntry) (n : Nat) (r : PchRt) :
    (discShown s e n r).regs = (s.wrAll (discWrites n r (discValue s e n r) (discFaults s e n r))).regs := rfl

theorem wrAll_regs_congr {t : State} (h : t.regs = s.regs) (l : List (Field × Nat × Nat)) : (t.wrAll l).regs = (s.wrAll l).regs := by
  induction l generalizing s t with
  | nil => exact h
  | cons y l ih =>
    refine ih (s := s.wr y.1 y.2.1 y.2.2) (t := t.wr y.1 y.2.1 y.2.2) ?_
    unfold State.wr
    rw [h]

/-- A channel whose readings differ, or with a stale one. -/
def measured (s : State) (e : PchEntry) (n : Nat) (r : PchRt) : State :=
  if !e.apart r && !r.staleA && !r.staleB then s
  else if r.blind then
    (if (discReported s e n r).flag Reg.SAF_PCH_STAT.violation n then discReported s e n r else (discReported s e n r).violate e).expire
  else discReported s e n r

theorem exec_measured (hx : s.bs.safety = some x) (n : Fin 4) (a b : Bool) (e : PchEntry)
    (he : x.pchs.find? (fun e => e.chan == n.val && e.func != 0) = some e) :
    exec (.measDiscrepancy n a b) s = .next (s.mirrorOf (measured (staled s n a b) e n ((staled s n a b).pch n))) := by
  change execMeasDiscrepancy n a b s = _
  unfold execMeasDiscrepancy
  rw [pchOf_some hx he]
  rfl

theorem pch_changed {t : State} (hs : Sound s) (n : Nat) (f : PchRt → PchRt) (ht : t.saf.pchs = (s.modPch n f).saf.pchs) :
    t.pch n = f (s.pch n) ∧ ∀ m, m ≠ n → t.pch m = s.pch m := by
  have hpch : ∀ m, t.pch m = (s.modPch n f).pch m := fun m => by
    unfold State.pch
    rw [ht]
  have hget : ∀ m, (s.modPch n f).pch m = if m = n then f (s.pch n) else s.pch m := fun m => tabGet_tabSet hs.safety.2
  exact ⟨(hpch n).trans ((hget n).trans (if_pos rfl)), fun m hm => (hpch m).trans ((hget m).trans (if_neg hm))⟩

theorem measured_shown {e : PchEntry} {r : PchRt} (hfault : e.apart r = true ∨ r.staleA = true ∨ r.staleB = true)
    (hone : r.staleA = false ∨ r.staleB = false) (n : Nat) : measured s e n r = discReported s e n r := by
  have hseen : (!e.apart r && !r.staleA && !r.staleB) = false := by
    rcases hfault with h | h | h <;> simp [h]
  have hblind : r.blind = false := by
    unfold PchRt.blind
    rcases hone with h | h <;> simp [h]
  unfold measured
  rw [if_neg (by simp [hseen]), if_neg (by simp [hblind])]

theorem measDiscrepancy_effect (hs : Sound s) (hx : s.bs.safety = some x) (n : Fin 4) (a b : Bool) (e : PchEntry)
    (he : x.pchs.find? (fun e => e.chan == n.val && e.func != 0) = some e) :
    let r := stale (s.pch n) a b
    (e.apart r = true ∨ r.staleA = true ∨ r.staleB = true) → (r.staleA = false ∨ r.staleB = false) →
    ∃ t, exec (.measDiscrepancy n a b) s = .next t ∧ t.pch n = { r with disc := e.apart r } ∧ t.rd Reg.SAF_PCH_STAT.disc n = 1
      ∧ t.rd Reg.SAF_PCH_STAT.stale_a n = bit r.staleA ∧ t.rd Reg.SAF_PCH_STAT.stale_b n = bit r.staleB
      ∧ t.bitAt Reg.SAF_FAULT.meas_disc 0 n = true
      ∧ (s.rd Reg.SAF_STAT.state 0 = 0 → t.rd Reg.SAF_STAT.state 0 = 1 ∧ t.rd Reg.SAF_DEG_STAT.cause 0 = 2
          ∧ t.rd Reg.SAF_DEG_STAT.remaining 0 = x.degWindow % 2 ^ 10 ∧ t.saf.degAt = s.now)
      ∧ (s.rd Reg.SAF_STAT.state 0 ≠ 0 → Reports s t 0x705 n (bit r.staleA + 2 * bit r.staleB + 4 * bit (e.apart r)))
      ∧ (∀ m, m ≠ n.val → t.pch m = s.pch m) ∧ t.saf.pairs = s.saf.pairs ∧ Only (.saf :: eventParts ++ mirrorParts) s t
      ∧ RegsBut ([(Reg.SAF_PCH_STAT.disc, n.val), (Reg.SAF_PCH_STAT.stale_a, n.val), (Reg.SAF_PCH_STAT.stale_b, n.val),
          (Reg.SAF_PCH_VAL.x, n.val), (Reg.SAF_FAULT.meas_disc, 0)] ++ windowRegs ++ eventRegs) s t := by
  intro r hfault hone
  have hn : n.val < 8192 := Nat.lt_trans n.isLt (by decide)
  have hr : (staled s n a b).pch n = r := (pch_changed hs n (fun r => stale r a b) (t := staled s n a b) rfl).1
  have hsound : Sound (staled s n a b) := (State.modPch_keeps (M := 0x1000000) (by decide) (.refl s)).sound hs
  have hexec : exec (.measDiscrepancy n a b) s = .next (s.mirrorOf (discReported (staled s n a b) e n r)) := by
    rw [exec_measured hx n a b e he, hr, measured_shown hfault hone]
  have hregs := (discShown_regs (staled s n a b) e n r).trans (wrAll_regs_congr (s := s) (t := staled s n a b) rfl _)
  have hku : Keeps 0x1000010 s (discShown (staled s n a b) e n r) := by
    exact State.setBit_keeps (by decide) (State.wr_keeps (by decide) (State.wr_keeps (by decide) (State.wr_keeps (by decide) (State.wr_keeps (by decide)
      (State.modPch_keeps (by decide) (State.modPch_keeps (by decide) (.refl s)))))))
  have hpchs : (discShown (staled s n a b) e n r).saf.pchs = ((staled s n a b).modPch n (fun r' => { r' with disc := e.apart r })).saf.pchs := rfl
  have hpairs : (discShown (staled s n a b) e n r).saf.pairs = s.saf.pairs := rfl
  unfold discReported at hexec
  generalize discShown (staled s n a b) e n r = u at *
  generalize discValue (staled s n a b) e n r = value, discFaults (staled s n a b) e n r = faults at *
  have hd := State.degrade_after [Reg.SAF_PCH_STAT.disc, Reg.SAF_PCH_STAT.stale_a, Reg.SAF_PCH_STAT.stale_b, Reg.SAF_PCH_VAL.x, Reg.SAF_FAULT.meas_disc]
    rfl (by decide) (by decide) hs.regs (by simp [discWrites, hn]) hregs (hku.evq.get (by decide)) (by rw [hku.epo.get (by decide)]) (hku.clk.get (by decide))
    (by rw [hku.bs.get (by decide), hx]) (code := 0x705) (by decide) (cause := 2) (by decide) n (bit r.staleA + 2 * bit r.staleB + 4 * bit (e.apart r))
  obtain ⟨d, hsaf⟩ := hd.saf
  generalize (u.raise 0x705 n (bit r.staleA + 2 * bit r.staleB + 4 * bit (e.apart r))).degrade 2 = m at *
  have hpchs' : (s.mirrorOf m).saf.pchs = ((staled s n a b).modPch n (fun r' => { r' with disc := e.apart r })).saf.pchs := by
    rw [State.mirrorOf_saf, hsaf]
    exact hpchs
  obtain ⟨hthis, hothers⟩ := pch_changed hsound n _ hpchs'
  rw [hr] at hthis
  have hstart := (pch_changed hs n (fun r => stale r a b) (t := staled s n a b) rfl).2
  have hsmall : ∀ c : Bool, bit c % 2 ^ 1 = bit c := by decide
  have hbit := hd.shows (Reg.SAF_FAULT.meas_disc, 0, bitSet faults n true) (by simp [discWrites])
  refine ⟨_, hexec, hthis, State.rd_mirrorOf.trans (hd.shows (Reg.SAF_PCH_STAT.disc, n.val, 1) (by simp [discWrites])),
    State.rd_mirrorOf.trans ((hd.shows (Reg.SAF_PCH_STAT.stale_a, n.val, bit r.staleA) (by simp [discWrites])).trans (hsmall _)),
    State.rd_mirrorOf.trans ((hd.shows (Reg.SAF_PCH_STAT.stale_b, n.val, bit r.staleB) (by simp [discWrites])).trans (hsmall _)), ?bit,
    fun h0 => ?starts, fun h0 => reports_then (hd.reports h0) (State.mirrorOf_evq _ _), fun k hk => (hothers k hk).trans (hstart k hk), ?pairs, ?only,
    regsBut_mirrorOf hd.wrote.but⟩
  case bit =>
    refine (State.bitAt_congr (State.mirrorOf_regs _ _) _ _ _).trans (State.bitAt_of_rd hbit ?_)
    exact n.isLt
  case starts =>
    obtain ⟨h1, h2, h3, h4⟩ := hd.starts h0
    exact ⟨State.rd_mirrorOf.trans h1, State.rd_mirrorOf.trans h2, State.rd_mirrorOf.trans h3, by rw [State.mirrorOf_saf]; exact h4⟩
  case pairs => rw [State.mirrorOf_saf, hsaf]; exact hpairs
  case only =>
    exact only_mono (by decide) (State.mirrorOf_only (((hku.mono (by decide)).trans hd.keeps).only (l := .saf :: eventParts) (by decide)))

/-- Settles O54: each input command shows what its pair or channel reads, and a demand acts only on the targets that its entry names. -/
theorem safetyInputs : Obligations.SafetyInputs := by
  unfold Obligations.SafetyInputs
  intro s x hs hx acts other degraded window pairFields
  refine ⟨fun p c e he => pairDemand_effect hs hx p c e he, fun p e he _ => pairDemandEnd_effect hs hx p e he,
    fun p a b e he => pairDiscrepancy_effect hs hx p a b e he, fun p c e n he _ hn => testFailed_effect hs hx p c e n he hn,
    fun n e he hchan => limitViolation_effect hs hx n e he hchan, fun n e he => limitViolation_none hx n e he,
    fun n a b e he _ => measDiscrepancy_effect hs hx n a b e he⟩

end Sys2Proof.Proofs

/-! ## Reset, DORMANT and supplies (R458 to R467) -/

namespace Sys2Proof.Machine

open Sys2Proof.Safety

/-! ### Tables with entries dropped -/

/-- A table that keeps the entries of some keys. -/
theorem tabGet_filter {α : Type} [DecidableEq α] {d : α} (p : Nat → Bool) (k : Nat) : ∀ {t : List (Nat × α)} {b : Nat}, tabWfFrom d b t = true →
    tabGet d (t.filter (fun x => p x.1)) k = if p k then tabGet d t k else d := by
  intro t
  induction t with
  | nil => exact fun _ => (ite_self d).symm
  | cons e t ih =>
    intro b h
    obtain ⟨j, v⟩ := e
    simp only [tabWfFrom, Bool.and_eq_true, decide_eq_true_eq] at h
    obtain ⟨-, hlater⟩ := h
    by_cases hp : p j = true
    · rw [List.filter_cons_of_pos (p := fun x : Nat × α => p x.1) (a := (j, v)) hp]
      simp only [tabGet]
      by_cases hkj : k = j
      · subst hkj
        rw [if_pos rfl, if_pos rfl, if_pos hp]
      · rw [if_neg hkj, if_neg hkj]
        by_cases hlt : k < j
        · rw [if_pos hlt, if_pos hlt, ite_self]
        · rw [if_neg hlt, if_neg hlt]
          exact ih hlater
    · rw [List.filter_cons_of_neg (p := fun x : Nat × α => p x.1) (a := (j, v)) hp, ih hlater]
      simp only [tabGet]
      by_cases hkj : k = j
      · subst hkj
        rw [if_neg hp, if_neg hp]
      · rw [if_neg hkj]
        by_cases hlt : k < j
        · rw [if_pos hlt, tabGet_below hlater (by omega)]
        · rw [if_neg hlt]

/-! ### Domains (R449) -/

theorem digit_below {d e : Nat} (h : e < d) (m r : Nat) : (4 ^ d * m + r) / 4 ^ e % 4 = r / 4 ^ e % 4 := by
  obtain ⟨k, rfl⟩ : ∃ k, d = e + 1 + k := ⟨d - e - 1, by omega⟩
  have hpow : 4 ^ (e + 1 + k) * m = 4 ^ e * (4 * (4 ^ k * m)) := by
    rw [Nat.pow_add, Nat.pow_succ]
    simp only [Nat.mul_assoc]
  rw [hpow, Nat.mul_add_div (Nat.pow_pos (by decide)), Nat.mul_add_mod]

theorem digit_above {d e : Nat} (h : d < e) {q w r : Nat} (hw : w < 4) (hr : r < 4 ^ d) : (4 ^ d * (4 * q + w) + r) / 4 ^ e = q / 4 ^ (e - d - 1) := by
  obtain ⟨k, rfl⟩ : ∃ k, e = d + 1 + k := ⟨e - d - 1, by omega⟩
  have hk : d + 1 + k - d - 1 = k := by omega
  rw [hk, Nat.pow_add, Nat.pow_succ, ← Nat.div_div_eq_div_mul, ← Nat.div_div_eq_div_mul, Nat.mul_add_div (Nat.pow_pos (by decide)), Nat.div_eq_of_lt hr]
  congr 1
  omega

/-- One base-4 digit of a number replaced: digit `d` is the new one, the others stay. -/
theorem digit_replaced (x d e v : Nat) (hv : v < 4) :
    (x - x / 4 ^ d % 4 * 4 ^ d + v * 4 ^ d) / 4 ^ e % 4 = if e = d then v else x / 4 ^ e % 4 := by
  have hpos : 0 < 4 ^ d := Nat.pow_pos (by decide)
  obtain ⟨q, w, r, hw, hr, hx⟩ : ∃ q w r, w < 4 ∧ r < 4 ^ d ∧ x = 4 ^ d * (4 * q + w) + r :=
    ⟨x / 4 ^ d / 4, x / 4 ^ d % 4, x % 4 ^ d, Nat.mod_lt _ (by decide), Nat.mod_lt _ hpos, by rw [Nat.div_add_mod, Nat.div_add_mod]⟩
  have hdigit : x / 4 ^ d % 4 = w := by
    rw [hx, Nat.mul_add_div hpos, Nat.div_eq_of_lt hr]
    omega
  have hnew : x - x / 4 ^ d % 4 * 4 ^ d + v * 4 ^ d = 4 ^ d * (4 * q + v) + r := by
    rw [hdigit, hx, Nat.mul_add, Nat.mul_add, Nat.mul_comm w, Nat.mul_comm v]
    omega
  rw [hnew]
  rcases Nat.lt_trichotomy e d with hlt | rfl | hgt
  · rw [if_neg (Nat.ne_of_lt hlt), hx, digit_below hlt, digit_below hlt]
  · rw [if_pos rfl, Nat.mul_add_div hpos, Nat.div_eq_of_lt hr]
    omega
  · rw [if_neg (Nat.ne_of_gt hgt), hx, digit_above hgt hv hr, digit_above hgt hw hr]

/-- The fields that a change of a domain's state writes. -/
abbrev domainRegs (d : Nat) : List (Field × Nat) :=
  [(Reg.PWR_DOM_STAT.state, 0), (Reg.PWR_DOM_CNT.on_cnt, d), (Reg.PWR_STAT.mem_sr, 0)] ++ eventRegs

/-- A domain's state is shown. -/
def State.showDomain (s : State) (d v : Nat) : State :=
  s.wr Reg.PWR_DOM_STAT.state 0 (s.rd Reg.PWR_DOM_STAT.state 0 - s.rd Reg.PWR_DOM_STAT.state 0 / 4 ^ d % 4 * 4 ^ d + v * 4 ^ d)

/-- What follows a change of a domain's state. -/
def State.domainChanged (s : State) (d v old : Nat) : State :=
  let s := if v = 2 then s.count Reg.PWR_DOM_CNT.on_cnt d else s
  let s := if d = 3 then s.wr Reg.PWR_STAT.mem_sr 0 (bit (v == 1)) else s
  if s.flag Reg.PWR_CTRL.dom_ev 0 then s.raise 0x900 d (v + 16 * old) else s

theorem State.setDomain_eq (s : State) (d v : Nat) :
    s.setDomain d v = if s.domain d = v then s else (s.showDomain d v).domainChanged d v (s.domain d) := rfl

theorem State.domainChanged_wrote {s : State} (hw : tabWf 0 s.regs = true) (d v old : Nat) :
    Wrote ([(Reg.PWR_DOM_CNT.on_cnt, d), (Reg.PWR_STAT.mem_sr, 0)] ++ eventRegs) s (s.domainChanged d v old) := by
  unfold State.domainChanged
  have hcount : Wrote ([(Reg.PWR_DOM_CNT.on_cnt, d), (Reg.PWR_STAT.mem_sr, 0)] ++ eventRegs) s (if v = 2 then s.count Reg.PWR_DOM_CNT.on_cnt d else s) :=
    .ite ((Wrote.refl hw).count (by simp)) (.refl hw)
  have hmem := Wrote.ite (c := d = 3) (hcount.wr (f := Reg.PWR_STAT.mem_sr) (i := 0) (bit (v == 1)) (by simp)) hcount
  exact Wrote.ite (hmem.raise _ _ _ (eventRegs_end _)) hmem

theorem Wrote.setDomain {l : List (Field × Nat)} {s t : State} (h : Wrote l s t) (d v : Nat) (hl : ∀ p ∈ domainRegs d, p ∈ l) :
    Wrote l s (t.setDomain d v) := by
  rw [State.setDomain_eq]
  have hshow : Wrote l s (t.showDomain d v) := h.wr _ (hl _ (by simp))
  exact .ite h (hshow.trans ((State.domainChanged_wrote hshow.wf d v _).mono fun p hp => hl p (List.mem_cons_of_mem _ hp)))

/-- A domain's state after a change of one domain. -/
theorem State.domain_setDomain {s : State} (hw : tabWf 0 s.regs = true) {d v e : Nat} (hd : d < 12) (he : e < 12) (hv : v < 4) :
    (s.setDomain d v).domain e = if e = d then v else s.domain e := by
  rw [State.setDomain_eq]
  by_cases hold : s.domain d = v
  · rw [if_pos hold]
    split
    case isTrue h => rw [h, hold]
    case isFalse => rfl
  · rw [if_neg hold]
    have hshow : Wrote [(Reg.PWR_DOM_STAT.state, 0)] s (s.showDomain d v) := (Wrote.refl hw).wr _ List.mem_cons_self
    have hfar : Apart Reg.PWR_DOM_STAT.state 0 ([(Reg.PWR_DOM_CNT.on_cnt, d), (Reg.PWR_STAT.mem_sr, 0)] ++ eventRegs) :=
      Apart.append ⟨by simp only [List.all_cons, List.all_nil, Bool.and_true]; decide, by decide, by
        have hunit : d < 8192 := Nat.lt_trans hd (by decide)
        simp [hunit]⟩ ⟨by decide, by decide, by decide⟩
    have hread := (State.domainChanged_wrote hshow.wf d v (s.domain d)).rd hfar
    have hself : (s.showDomain d v).rd Reg.PWR_DOM_STAT.state 0 = _ := State.rd_wr_self _ _ _ hw
    have hwidth : 2 ^ Reg.PWR_DOM_STAT.state.width = 4 ^ e * 4 * 4 ^ (11 - e) := by
      have hexp : 12 = e + 1 + (11 - e) := by omega
      rw [← Nat.pow_succ, ← Nat.pow_add, ← hexp]
      decide
    have hcut : ∀ y, y % 2 ^ Reg.PWR_DOM_STAT.state.width / 4 ^ e % 4 = y / 4 ^ e % 4 := fun y => by
      rw [hwidth, Nat.mul_assoc, Nat.mod_mul_right_div_self, Nat.mod_mul_right_mod]
    unfold State.domain at *
    rw [hread, hself, hcut]
    exact digit_replaced _ d e v hv

/-! ### The release of reset (R465) -/

/-- The domains that the boot brings up. -/
abbrev bootDomains : List Nat := [2, 3, 11, 4, 5, 10]

/-- Clocks and domains at the release. -/
def State.bootClocks (s : State) : State :=
  let a := s.draw 16
  let b := a.2.draw 16
  let s := (b.2.wr Reg.PWR_PLL_TIME.core_lock 0 a.1).wr Reg.PWR_PLL_TIME.link_lock 0 b.1
  let s := (s.wr Reg.PWR_STAT.core_pll 0 1).wr Reg.PWR_STAT.link_pll 0 1
  s.wr Reg.PWR_CLK_STAT.ref_present 0 (bit (!s.flag Reg.PWR_CLK_STAT.fallback 0))

/-- The domains at the release. -/
def State.bootPower (s : State) : State := bootDomains.foldl (fun (s : State) d => s.setDomain d 2) s

/-- The events of a release. -/
def State.bootEvents (s : State) (causes : Nat) : State :=
  let s := if causes / 4 % 2 = 1 then s.raise 0x905 0 0 else s
  let s := s.raise 0x904 0 (s.causeBits + 2 ^ 32 * s.rd Reg.PWR_RST_HOLD.ms 0)
  if causes / 16 % 2 = 1 then s.raise 0x908 0 (s.rd Reg.PWR_WAKE_STAT.source 0) else s

/-- The load is shown. -/
def State.bootShown (s : State) : State := (s.showBoot.wr Reg.PWR_BOOT_STAT.step 0 4).wr Reg.CFG_STAT.state 0 1

/-- The load begins. -/
def State.bootLoad (s : State) (order : List (Nat × Nat)) : State := s.modCfg (fun c => { c with loading := true, order := order })

/-- A strap that names no rank is an error; then the load begins. -/
def State.bootRole (s : State) : State :=
  let s := if s.rd Reg.RED_STAT.strap 0 = 3 then
      ((((s.wr Reg.RED_STAT.role 0 15).wr Reg.RED_FLAGS.strap 0 1).raise 0x600 0 15).rolePoints).raise 0x610 0 3
    else s
  s.bootShown.bootLoad s.loadOrder

theorem State.boot_eq (s : State) (causes : Nat) : s.boot causes = ((((s.latchCauses causes).bootClocks).bootPower).bootEvents causes).bootRole := by
  rfl

theorem State.bootRole_paired {s : State} (h : s.rd Reg.RED_STAT.strap 0 ≠ 3) : s.bootRole = s.bootShown.bootLoad s.loadOrder := by
  unfold State.bootRole
  rw [if_neg h]

/-- The flags of the causes of a reset. -/
abbrev causeRegs : List (Field × Nat) := [(Reg.PWR_RESET_CAUSE.por, 0), (Reg.PWR_RESET_CAUSE.rst_n, 0), (Reg.PWR_RESET_CAUSE.brownout, 0),
  (Reg.PWR_RESET_CAUSE.software, 0), (Reg.PWR_RESET_CAUSE.dormant_wake, 0)]

/-- What the boot writes behind the causes. -/
abbrev bootRegs : List (Field × Nat) := [(Reg.PWR_PLL_TIME.core_lock, 0), (Reg.PWR_PLL_TIME.link_lock, 0), (Reg.PWR_STAT.core_pll, 0),
  (Reg.PWR_STAT.link_pll, 0), (Reg.PWR_CLK_STAT.ref_present, 0), (Reg.PWR_DOM_STAT.state, 0), (Reg.PWR_DOM_CNT.on_cnt, 2), (Reg.PWR_DOM_CNT.on_cnt, 3),
  (Reg.PWR_DOM_CNT.on_cnt, 11), (Reg.PWR_DOM_CNT.on_cnt, 4), (Reg.PWR_DOM_CNT.on_cnt, 5), (Reg.PWR_DOM_CNT.on_cnt, 10), (Reg.PWR_STAT.mem_sr, 0)]
  ++ eventRegs

/-- What the load shows at its start. -/
abbrev loadRegs : List (Field × Nat) := [(Reg.CFG_BOOT_A.base, 0), (Reg.CFG_BOOT_B.base, 0), (Reg.CFG_BOOT_GEN.gen_a, 0), (Reg.CFG_BOOT_GEN.gen_b, 0),
  (Reg.PWR_BOOT_STAT.step, 0), (Reg.CFG_STAT.state, 0)]

theorem State.bootClocks_wrote {s : State} (hw : tabWf 0 s.regs = true) : Wrote bootRegs s s.bootClocks := by
  have hdraw : Wrote bootRegs s ((s.draw 16).2.draw 16).2 := (Wrote.refl hw).same rfl
  unfold State.bootClocks
  exact ((((hdraw.wr _ (by simp)).wr _ (by simp)).wr _ (by simp)).wr _ (by simp)).wr _ (by simp)

theorem State.bootClocks_keeps (s : State) : Keeps 0x14 s s.bootClocks := by
  unfold State.bootClocks
  exact State.wr_keeps (by decide) (State.wr_keeps (by decide) (State.wr_keeps (by decide) (State.wr_keeps (by decide) (State.wr_keeps (by decide)
    (State.draw_keeps (by decide) (State.draw_keeps (by decide) (.refl s)))))))

theorem State.bootPower_wrote {s : State} (hw : tabWf 0 s.regs = true) : Wrote bootRegs s s.bootPower := by
  have hd : ∀ d ∈ bootDomains, ∀ p ∈ domainRegs d, p ∈ bootRegs := by decide
  exact Wrote.foldl (fun d hmem t ht => ht.setDomain d 2 (hd d hmem)) (.refl hw)

theorem State.bootPower_keeps (s : State) : Keeps 0x512 s s.bootPower :=
  Keeps.foldl (.refl s) (fun _ _ ht => State.setDomain_keeps (by decide) ht)

/-- Every domain of the list is ON. -/
theorem State.domain_switched : ∀ (l : List Nat) {s : State}, tabWf 0 s.regs = true → (∀ d ∈ l, d < 12) → ∀ e, e < 12 →
    (l.foldl (fun (s : State) d => s.setDomain d 2) s).domain e = if e ∈ l then 2 else s.domain e := by
  intro l
  induction l with
  | nil => exact fun _ _ e _ => (if_neg List.not_mem_nil).symm
  | cons d l ih =>
    intro s hw hl e he
    have hset := State.domain_setDomain hw (hl d List.mem_cons_self) he (v := 2) (by decide)
    have hwf : Wrote (domainRegs d) s (s.setDomain d 2) := (Wrote.refl hw).setDomain d 2 fun _ hp => hp
    refine (ih hwf.wf (fun x hx => hl x (List.mem_cons_of_mem _ hx)) e he).trans ?_
    rw [hset]
    by_cases hmem : e ∈ l
    · rw [if_pos hmem, if_pos (List.mem_cons_of_mem _ hmem)]
    · rw [if_neg hmem]
      by_cases hed : e = d
      · rw [if_pos hed, if_pos (hed ▸ List.mem_cons_self)]
      · rw [if_neg hed, if_neg (by simp [hed, hmem])]

theorem State.bootEvents_wrote {s : State} (hw : tabWf 0 s.regs = true) (causes : Nat) : Wrote eventRegs s (s.bootEvents causes) := by
  have hraise : ∀ {t : State} (code data : Nat), Wrote eventRegs s t → Wrote eventRegs s (t.raise code 0 data) := fun code data ht =>
    ht.raise code 0 data fun _ hp => hp
  have hfirst : Wrote eventRegs s (if causes / 4 % 2 = 1 then s.raise 0x905 0 0 else s) := .ite (hraise _ _ (.refl hw)) (.refl hw)
  unfold State.bootEvents
  exact Wrote.ite (hraise _ _ (hraise _ _ hfirst)) (hraise _ _ hfirst)

theorem State.bootEvents_keeps (s : State) (causes : Nat) : Keeps 0x512 s (s.bootEvents causes) := by
  unfold State.bootEvents
  have hfirst : Keeps 0x512 s (if causes / 4 % 2 = 1 then s.raise 0x905 0 0 else s) := .ite (State.raise_keeps (by decide) (.refl s)) (.refl s)
  exact .ite (State.raise_keeps (by decide) (State.raise_keeps (by decide) hfirst)) (State.raise_keeps (by decide) hfirst)

theorem State.bootShown_wrote {s : State} (hw : tabWf 0 s.regs = true) : Wrote loadRegs s s.bootShown := by
  unfold State.bootShown State.showBoot
  exact ((((((Wrote.refl hw).wr _ (by simp)).wr _ (by simp)).wr _ (by simp)).wr _ (by simp)).wr _ (by simp)).wr _ (by simp)

theorem State.bootShown_keeps (s : State) : Keeps 0x10 s s.bootShown := by
  unfold State.bootShown State.showBoot
  exact State.wr_keeps (by decide) (State.wr_keeps (by decide) (State.wr_keeps (by decide) (State.wr_keeps (by decide) (State.wr_keeps (by decide)
    (State.wr_keeps (by decide) (.refl s))))))

theorem State.showBoot_wf {s : State} (hw : tabWf 0 s.regs = true) : tabWf 0 s.showBoot.regs = true := by
  unfold State.showBoot
  exact State.regs_wr _ _ _ (State.regs_wr _ _ _ (State.regs_wr _ _ _ (State.regs_wr _ _ _ hw)))

/-- The order of images is that of the flash and of the host's choice. -/
theorem State.loadOrder_congr {s t : State} (hcfg : t.cfg = s.cfg) (hsrc : t.rd Reg.CFG_CTRL.load_src 0 = s.rd Reg.CFG_CTRL.load_src 0) :
    t.loadOrder = s.loadOrder := by
  have hboot : t.bootRecord = s.bootRecord := by
    unfold State.bootRecord State.bootCopy State.flashWord State.flashBytes
    rw [hcfg]
  unfold State.loadOrder
  rw [hboot, hsrc]

/-- One cause is latched. -/
def State.latch (s : State) (c : Nat) (f : Field) (b : Nat) : State := if c / 2 ^ b % 2 = 1 then s.wr f 0 1 else s

theorem State.latchCauses_eq (s : State) (c : Nat) : s.latchCauses c =
    ((((s.latch c Reg.PWR_RESET_CAUSE.por 0).latch c Reg.PWR_RESET_CAUSE.rst_n 1).latch c Reg.PWR_RESET_CAUSE.brownout 2).latch c
      Reg.PWR_RESET_CAUSE.software 3).latch c Reg.PWR_RESET_CAUSE.dormant_wake 4 := rfl

theorem Wrote.latch {l : List (Field × Nat)} {s t : State} (h : Wrote l s t) (c : Nat) {f : Field} (b : Nat) (hf : (f, 0) ∈ l) :
    Wrote l s (t.latch c f b) := .ite (h.wr _ hf) h

theorem State.rd_latch {s : State} (hw : tabWf 0 s.regs = true) {c b : Nat} (h : c / 2 ^ b % 2 = 1) (f : Field) : (s.latch c f b).rd f 0 = 1 % 2 ^ f.width := by
  unfold State.latch
  rw [if_pos h]
  exact State.rd_wr_self _ _ _ hw

/-- A cause that stands in the mask reads 1 after the latch. -/
theorem State.latchCauses_shows {s : State} (hw : tabWf 0 s.regs = true) (c : Nat) : Wrote causeRegs s (s.latchCauses c)
    ∧ (c / 2 % 2 = 1 → (s.latchCauses c).rd Reg.PWR_RESET_CAUSE.rst_n 0 = 1) ∧ (c / 4 % 2 = 1 → (s.latchCauses c).rd Reg.PWR_RESET_CAUSE.brownout 0 = 1)
    ∧ (c / 8 % 2 = 1 → (s.latchCauses c).rd Reg.PWR_RESET_CAUSE.software 0 = 1)
    ∧ (c / 16 % 2 = 1 → (s.latchCauses c).rd Reg.PWR_RESET_CAUSE.dormant_wake 0 = 1) := by
  rw [State.latchCauses_eq]
  have h0 : Wrote causeRegs s (s.latch c Reg.PWR_RESET_CAUSE.por 0) := (Wrote.refl hw).latch c 0 (by simp)
  have h1 := h0.latch c (f := Reg.PWR_RESET_CAUSE.rst_n) 1 (by simp)
  have h2 := h1.latch c (f := Reg.PWR_RESET_CAUSE.brownout) 2 (by simp)
  have h3 := h2.latch c (f := Reg.PWR_RESET_CAUSE.software) 3 (by simp)
  have h4 := h3.latch c (f := Reg.PWR_RESET_CAUSE.dormant_wake) 4 (by simp)
  have hlast : ∀ {t : State}, tabWf 0 t.regs = true → ∀ {g : Field} (f : Field) (b : Nat), f.place ≠ g.place → (t.latch c f b).rd g 0 = t.rd g 0 :=
    fun ht _ f b hf => ((Wrote.refl (l := [(f, 0)]) ht).latch c b List.mem_cons_self).rd
      (apart_sole _ _ (by decide) (by decide) (bne_iff_ne.mpr hf))
  refine ⟨h4, fun h => ?_, fun h => ?_, fun h => ?_, fun h => State.rd_latch h3.wf h _⟩
  · rw [hlast h3.wf _ _ (by decide), hlast h2.wf _ _ (by decide), hlast h1.wf _ _ (by decide)]
    exact State.rd_latch h0.wf h _
  · rw [hlast h3.wf _ _ (by decide), hlast h2.wf _ _ (by decide)]
    exact State.rd_latch h1.wf h _
  · rw [hlast h3.wf _ _ (by decide)]
    exact State.rd_latch h2.wf h _

/-- What the boot of a unit whose straps name a rank does. -/
structure Boots (s t : State) (causes : Nat) : Prop where
  cfg : t.cfg = { s.cfg with loading := true, order := s.loadOrder }
  state : t.rd Reg.CFG_STAT.state 0 = 1
  step : t.rd Reg.PWR_BOOT_STAT.step 0 = 4
  domains : ∀ d, d ∈ [2, 3, 4, 5, 10, 11] → t.domain d = 2
  keeps : Keeps 0x2000516 s t
  wrote : Wrote (causeRegs ++ bootRegs ++ loadRegs) s t
  pin : causes / 2 % 2 = 1 → t.rd Reg.PWR_RESET_CAUSE.rst_n 0 = 1
  supply : causes / 4 % 2 = 1 → t.rd Reg.PWR_RESET_CAUSE.brownout 0 = 1
  command : causes / 8 % 2 = 1 → t.rd Reg.PWR_RESET_CAUSE.software 0 = 1
  wake : causes / 16 % 2 = 1 → t.rd Reg.PWR_RESET_CAUSE.dormant_wake 0 = 1

theorem State.boot_effect {s : State} (hw : tabWf 0 s.regs = true) (hstrap : s.rd Reg.RED_STAT.strap 0 ≠ 3) (causes : Nat) :
    Boots s (s.boot causes) causes := by
  obtain ⟨hlatch, hpin, hsupply, hcommand, hwake⟩ := State.latchCauses_shows hw causes
  have hklatch : Keeps 0x516 s (s.latchCauses causes) := State.latchCauses_keeps (by decide) (.refl s)
  rw [State.boot_eq]
  generalize s.latchCauses causes = a at *
  have hclocks := State.bootClocks_wrote hlatch.wf
  have hpower := State.bootPower_wrote hclocks.wf
  have hevents := State.bootEvents_wrote hpower.wf causes
  have hdomains : ∀ e, e < 12 → a.bootClocks.bootPower.domain e = if e ∈ bootDomains then 2 else a.bootClocks.domain e :=
    State.domain_switched bootDomains hclocks.wf (by decide)
  have hk : Keeps 0x516 s (a.bootClocks.bootPower.bootEvents causes) :=
    hklatch.trans ((a.bootClocks_keeps.mono (by decide)).trans ((State.bootPower_keeps _).mono (by decide) |>.trans
      ((State.bootEvents_keeps _ causes).mono (by decide))))
  have hboot : Wrote bootRegs a (a.bootClocks.bootPower.bootEvents causes) := (hclocks.trans hpower).trans (hevents.mono (by decide))
  have hon : ∀ d, d ∈ [2, 3, 4, 5, 10, 11] → (a.bootClocks.bootPower.bootEvents causes).domain d = 2 := fun d hd => by
    have hsame : (a.bootClocks.bootPower.bootEvents causes).domain d = a.bootClocks.bootPower.domain d := by
      unfold State.domain
      rw [hevents.rd ⟨by decide, by decide, by decide⟩]
    have hsmall : ∀ e ∈ [2, 3, 4, 5, 10, 11], e < 12 ∧ e ∈ bootDomains := by decide
    rw [hsame, hdomains d (hsmall d hd).1, if_pos (hsmall d hd).2]
  generalize a.bootClocks.bootPower.bootEvents causes = b at *
  have hrole : b.rd Reg.RED_STAT.strap 0 ≠ 3 := by
    rw [hboot.rd ⟨by decide, by decide, by decide⟩, hlatch.rd ⟨by decide, by decide, by decide⟩]
    exact hstrap
  rw [State.bootRole_paired hrole]
  have hshown := State.bootShown_wrote hboot.wf
  have hload : Wrote loadRegs b (b.bootShown.bootLoad b.loadOrder) := hshown.same rfl
  have hkeeps : Keeps 0x2000516 s (b.bootShown.bootLoad b.loadOrder) :=
    State.modCfg_keeps (by decide) ((hk.mono (by decide)).trans ((State.bootShown_keeps b).mono (by decide))) (.inr rfl) (.inr rfl) (fun h => h)
  have hthrough : ∀ {f : Field}, Apart f 0 (bootRegs ++ loadRegs) → (b.bootShown.bootLoad b.loadOrder).rd f 0 = a.rd f 0 := fun hf => by
    have hall : Wrote (bootRegs ++ loadRegs) a (b.bootShown.bootLoad b.loadOrder) :=
      (hboot.mono fun _ hp => List.mem_append_left _ hp).trans (hload.mono fun _ hp => List.mem_append_right _ hp)
    exact hall.rd hf
  have horder : b.loadOrder = s.loadOrder := State.loadOrder_congr (hk.cfg.get (by decide))
    ((hboot.rd ⟨by decide, by decide, by decide⟩).trans (hlatch.rd ⟨by decide, by decide, by decide⟩))
  exact {
    cfg := by
      have hcfg : b.bootShown.cfg = s.cfg := ((State.bootShown_keeps b).cfg.get (by decide)).trans (hk.cfg.get (by decide))
      change ({ b.bootShown.cfg with loading := true, order := b.loadOrder } : Cfg) = _
      rw [hcfg, horder]
    state := State.rd_wr_self _ _ _ (State.regs_wr _ _ _ (State.showBoot_wf hboot.wf))
    step := (State.rd_wr_off _ _ _ _ (State.regs_wr _ _ _ (State.showBoot_wf hboot.wf)) (by decide)).trans
      (State.rd_wr_self _ _ _ (State.showBoot_wf hboot.wf))
    domains := fun d hd => by
      have hsame : (b.bootShown.bootLoad b.loadOrder).domain d = b.domain d := by
        unfold State.domain
        rw [hload.rd ⟨by decide, by decide, by decide⟩]
      rw [hsame, hon d hd]
    keeps := hkeeps
    wrote := (hlatch.mono (by decide)).trans ((hboot.mono (by decide)).trans (hload.mono (by decide)))
    pin := fun h => (hthrough ⟨by decide, by decide, by decide⟩).trans (hpin h)
    supply := fun h => (hthrough ⟨by decide, by decide, by decide⟩).trans (hsupply h)
    command := fun h => (hthrough ⟨by decide, by decide, by decide⟩).trans (hcommand h)
    wake := fun h => (hthrough ⟨by decide, by decide, by decide⟩).trans (hwake h) }

/-! ### Reset (R462) -/

/-- A unit without power outside the always-on domain: `s` before, `p` its state of power. -/
def ClearedTo (s t : State) (p : Pwr) : Prop :=
  let z := State.reset
  t.pwr = p ∧ t.epo = z.epo ∧ t.pts = z.pts ∧ t.evq = z.evq ∧ t.bs = z.bs ∧ t.arms = z.arms
    ∧ t.cells = z.cells ∧ t.lanes = z.lanes ∧ t.fab = z.fab ∧ t.ord = z.ord ∧ t.adc = z.adc ∧ t.saf = z.saf ∧ t.drv = z.drv
    ∧ t.cfg = { z.cfg with flash := s.cfg.flash, keys := s.cfg.keys } ∧ t.host = { z.host with mem := t.host.mem }
    ∧ t.serial = s.serial ∧ t.pending = s.pending
    ∧ (∀ f i, i < 8192 → alwaysOnKeys.contains (f.addr * 32 + f.lo) = false → regKey f i ≠ regKey Reg.PWR_DOM_STAT.state 0 →
        regKey f i ≠ regKey Reg.PWR_SUPPLY_STAT.dropped 0 → regKey f i ≠ regKey Reg.RED_STAT.strap 0 → t.rd f i = f.reset)

/-- The fields that a reset leaves or sets. -/
abbrev resetLeaves (l : List (Field × Nat)) : Bool :=
  l.all (fun p => decide (p.2 = 0) && (alwaysOnKeys.contains (p.1.addr * 32 + p.1.lo)
    || [Reg.PWR_DOM_STAT.state, Reg.PWR_SUPPLY_STAT.dropped, Reg.RED_STAT.strap].any (fun f => regKey p.1 0 == regKey f 0)))

/-- Writes of such fields after a reset. -/
theorem ClearedTo.wrote {s t u : State} {p : Pwr} (h : ClearedTo s t p) {l : List (Field × Nat)} (hw : Wrote l t u) (hk : Keeps 0x10 t u)
    (hl : resetLeaves l = true) : ClearedTo s u p := by
  obtain ⟨hpwr, hepo, hpts, hevq, hbs, harms, hcells, hlanes, hfab, hord, hadc, hsaf, hdrv, hcfg, hhost, hserial, hpending, hregs⟩ := h
  have hsame : u.host = t.host := hk.host.get (by decide)
  refine ⟨(hk.pwr.get (by decide)).trans hpwr, (hk.epo.get (by decide)).trans hepo, (hk.pts.get (by decide)).trans hpts,
    (hk.evq.get (by decide)).trans hevq, (hk.bs.get (by decide)).trans hbs, (hk.arms.get (by decide)).trans harms, (hk.cells.get (by decide)).trans hcells,
    (hk.lanes.get (by decide)).trans hlanes, (hk.fab.get (by decide)).trans hfab, (hk.ord.get (by decide)).trans hord, (hk.adc.get (by decide)).trans hadc,
    (hk.saf.get (by decide)).trans hsaf, (hk.drv.get (by decide)).trans hdrv, (hk.cfg.get (by decide)).trans hcfg, by rw [hsame]; exact hhost,
    hk.serial.trans hserial, hk.pending.trans hpending, fun f i hi hoff hdom hdropped hstrap => ?_⟩
  refine (hw.but f i fun hm => ?_).trans (hregs f i hi hoff hdom hdropped hstrap)
  obtain ⟨q, hq, hkey⟩ := List.mem_map.mp hm
  have hleft := List.all_eq_true.mp hl q hq
  simp only [Bool.and_eq_true, decide_eq_true_eq, Bool.or_eq_true, List.any_cons, List.any_nil, Bool.or_false, beq_iff_eq] at hleft
  obtain ⟨hunit, hplace⟩ := hleft
  rw [hunit] at hkey
  rcases hplace with hon | hexcept | hexcept | hexcept
  · have hsameplace : q.1.addr * 32 + q.1.lo = f.addr * 32 + f.lo := by
      unfold regKey at hkey
      omega
    rw [hsameplace, hoff] at hon
    exact absurd hon (by decide)
  · exact hdom (hkey.symm.trans hexcept)
  · exact hdropped (hkey.symm.trans hexcept)
  · exact hstrap (hkey.symm.trans hexcept)

/-- The unit before it lost power counts only for what a reset keeps. -/
theorem ClearedTo.of {s s' t : State} {p : Pwr} (h : ClearedTo s' t p) (hflash : s'.cfg.flash = s.cfg.flash) (hkeys : s'.cfg.keys = s.cfg.keys)
    (hserial' : s'.serial = s.serial) (hpending' : s'.pending = s.pending) : ClearedTo s t p := by
  obtain ⟨hpwr, hepo, hpts, hevq, hbs, harms, hcells, hlanes, hfab, hord, hadc, hsaf, hdrv, hcfg, hhost, hserial, hpending, hregs⟩ := h
  exact ⟨hpwr, hepo, hpts, hevq, hbs, harms, hcells, hlanes, hfab, hord, hadc, hsaf, hdrv, by rw [hcfg, hflash, hkeys], hhost, hserial.trans hserial',
    hpending.trans hpending', hregs⟩

theorem ClearedTo.modPwr {s t : State} {p : Pwr} (h : ClearedTo s t p) (f : Pwr → Pwr) : ClearedTo s (t.modPwr f) (f p) := by
  obtain ⟨hpwr, hepo, hpts, hevq, hbs, harms, hcells, hlanes, hfab, hord, hadc, hsaf, hdrv, hcfg, hhost, hserial, hpending, hregs⟩ := h
  exact ⟨congrArg f hpwr, hepo, hpts, hevq, hbs, harms, hcells, hlanes, hfab, hord, hadc, hsaf, hdrv, hcfg, hhost, hserial, hpending, hregs⟩

/-- The register store that a reset leaves, before the domains are shown. -/
def State.aonRegs (s : State) : List (Nat × Nat) := s.regs.filter (fun x => alwaysOnKeys.contains (x.1 / 8192))

theorem State.powerDown_regs (s : State) (p : Pwr) (red : Red) :
    (s.powerDown p red).regs = (({ s with regs := s.aonRegs } : State).wr Reg.PWR_DOM_STAT.state 0 10).regs := rfl

/-- What reads of a unit without power answer. -/
theorem State.rd_powerDown {s : State} (hw : tabWf 0 s.regs = true) (p : Pwr) (red : Red) {f : Field} {i : Nat} (hi : i < 8192)
    (hdom : regKey f i ≠ regKey Reg.PWR_DOM_STAT.state 0) :
    (s.powerDown p red).rd f i = if alwaysOnKeys.contains (f.addr * 32 + f.lo) then s.rd f i else f.reset := by
  have hplace : regKey f i / 8192 = f.addr * 32 + f.lo := by
    unfold regKey
    omega
  rw [State.rd_congr (State.powerDown_regs s p red), State.rd_wr_ne _ _ _ _ _ (tabWf_filter hw) hdom]
  change tabGet 0 (s.regs.filter (fun x => alwaysOnKeys.contains (x.1 / 8192))) (regKey f i) ^^^ f.reset = _
  rw [tabGet_filter (fun k => alwaysOnKeys.contains (k / 8192)) (regKey f i) hw, hplace]
  by_cases h : alwaysOnKeys.contains (f.addr * 32 + f.lo) = true
  · rw [if_pos h, if_pos h]
    rfl
  · rw [if_neg h, if_neg h, Nat.zero_xor]

theorem State.powerDown_wf {s : State} (hw : tabWf 0 s.regs = true) (p : Pwr) (red : Red) : tabWf 0 (s.powerDown p red).regs = true := by
  rw [State.powerDown_regs]
  exact State.regs_wr _ _ _ (tabWf_filter hw)

theorem clearedTo_powerDown {s : State} (hw : tabWf 0 s.regs = true) (p : Pwr) (red : Red) : ClearedTo s (s.powerDown p red) p :=
  ⟨rfl, rfl, rfl, rfl, rfl, rfl, rfl, rfl, rfl, rfl, rfl, rfl, rfl, rfl, rfl, rfl, rfl, fun f i hi hoff hdom _ _ => by
    rw [State.rd_powerDown hw p red hi hdom, hoff]
    rfl⟩

theorem tabSet_sole {α : Type} [DecidableEq α] {d v : α} (k : Nat) (h : v ≠ d) : tabSet d [(k, v)] k v = [(k, v)] := by
  unfold tabSet
  rw [if_pos rfl, if_neg h]

theorem reset_regs : State.reset.regs = [(regKey Reg.PWR_DOM_STAT.state 0, 10)] := by
  unfold State.reset regKey
  rfl

theorem State.powerOn_regs (s : State) : s.powerOn.regs = State.reset.regs := by
  have hvalue : (10 % 2 ^ Reg.PWR_DOM_STAT.state.width) ^^^ Reg.PWR_DOM_STAT.state.reset = 10 := by decide
  have hset : s.powerOn.regs = tabSet 0 State.reset.regs (regKey Reg.PWR_DOM_STAT.state 0)
      ((10 % 2 ^ Reg.PWR_DOM_STAT.state.width) ^^^ Reg.PWR_DOM_STAT.state.reset) := by
    unfold State.powerOn State.wr
    with_reducible rfl
  rw [hset, hvalue, reset_regs]
  exact tabSet_sole _ (by decide)

theorem clearedTo_powerOn (s : State) : ClearedTo s s.powerOn State.reset.pwr :=
  ⟨rfl, rfl, rfl, rfl, rfl, rfl, rfl, rfl, rfl, rfl, rfl, rfl, rfl, rfl, rfl, rfl, rfl, fun f i hi hoff hdom _ _ => by
    have hget : tabGet 0 State.reset.regs (regKey f i) = 0 := by
      rw [reset_regs]
      simp [tabGet, hdom]
    rw [State.rd_congr (State.powerOn_regs s)]
    unfold State.rd
    rw [hget, Nat.zero_xor]⟩

/-! ### DORMANT (R466) -/

/-- What writing a record to the host ring writes. -/
abbrev ringRegs : List (Field × Nat) := (Reg.EPO_EVQ_HEAD.head, 0) :: eventRegs

theorem Wrote.ringVector {l : List (Field × Nat)} {s t : State} (h : Wrote l s t) (v : Nat) (hl : ∀ p ∈ eventRegs, p ∈ l) : Wrote l s (t.ringVector v) :=
  (h.signal v hl).same rfl

theorem State.announceRecord_wrote {s : State} (hw : tabWf 0 s.regs = true) (e : Event) : Wrote eventRegs s (s.announceRecord e) := by
  have hall : ∀ p ∈ eventRegs, p ∈ eventRegs := fun _ hp => hp
  have hmoderate : Wrote eventRegs s s.moderate := by
    rw [State.moderate_eq]
    have hcounted : Wrote eventRegs s s.countForModeration := (Wrote.refl hw).same rfl
    exact .ite (hcounted.ringVector 0 hall) hcounted
  unfold State.announceRecord
  refine Wrote.ite (Wrote.ite ?_ ?_) (Wrote.ite ?_ hmoderate)
  · exact (Wrote.refl hw).same (u := { s with evq := { s.evq with told := s.evq.told.erase (e.epoch, e.data) } }) rfl
  · exact (Wrote.refl hw).ringVector 2 hall
  · exact (Wrote.refl hw).ringVector 1 hall

theorem State.writeRecord_wrote {s : State} (hw : tabWf 0 s.regs = true) (e : Event) : Wrote ringRegs s (s.writeRecord e) := by
  have hstore : Wrote ringRegs s (s.storeRecord e) := by
    have hmem : Wrote ringRegs s (s.hostStore s.headAddr (eventBytes e)) := (Wrote.refl hw).same (State.hostStore_regs _ _ _)
    unfold State.storeRecord
    exact hmem.wr _ List.mem_cons_self
  rw [State.writeRecord_eq]
  exact hstore.trans ((State.announceRecord_wrote hstore.wf e).mono fun _ hp => List.mem_cons_of_mem _ hp)

/-- A record goes to the ring without a word read wrong: the ring and the vectors move, nothing else. -/
theorem State.ringWrite_clean {s : State} (hw : tabWf 0 s.regs = true) : Wrote ringRegs s (s.ringWrite false []) ∧ Keeps 0x512 s (s.ringWrite false []) := by
  have hopen : s.ringWrite false [] = if !s.ringOpen || s.evq.buf.isEmpty then s else
      match s.evq.buf with
      | [] => s
      | e :: r => State.writeRecord { s with evq := { s.evq with buf := r ++ (if s.evq.dropped = 0 then [] else [s.lossRecord]), dropped := 0 } } e := rfl
  rw [hopen]
  by_cases hclosed : (!s.ringOpen || s.evq.buf.isEmpty) = true
  · rw [if_pos hclosed]
    exact ⟨.refl hw, .refl s⟩
  rw [if_neg hclosed]
  cases hb : s.evq.buf with
  | nil => exact ⟨.refl hw, .refl s⟩
  | cons e r =>
    dsimp only
    let q : Evq := { s.evq with buf := r ++ (if s.evq.dropped = 0 then [] else [s.lossRecord]), dropped := 0 }
    refine ⟨((Wrote.refl hw).same (u := { s with evq := q }) rfl).trans (State.writeRecord_wrote (s := { s with evq := q }) hw e), State.writeRecord_keeps (by decide) (Keeps.upd (.refl s) (hEvents := fun hs => ?_))⟩
    rw [hb] at hs
    simp only [List.length_append, List.length_cons] at hs ⊢
    split <;> simp <;> omega

/-- The fields that going to sleep writes. -/
abbrev sleepRegs : List (Field × Nat) := [(Reg.PWR_DOM_STAT.state, 0), (Reg.PWR_DOM_CNT.on_cnt, 3), (Reg.PWR_DOM_CNT.on_cnt, 4), (Reg.PWR_DOM_CNT.on_cnt, 5),
  (Reg.PWR_DOM_CNT.on_cnt, 6), (Reg.PWR_DOM_CNT.on_cnt, 7), (Reg.PWR_DOM_CNT.on_cnt, 8), (Reg.PWR_DOM_CNT.on_cnt, 9), (Reg.PWR_DOM_CNT.on_cnt, 10),
  (Reg.PWR_DOM_CNT.on_cnt, 11), (Reg.PWR_STAT.mem_sr, 0), (Reg.EPO_EVQ_HEAD.head, 0)] ++ eventRegs

theorem State.goDormant_effect {s : State} (hs : Sound s) : Wrote sleepRegs s s.goDormant ∧ Keeps 0x512 s s.goDormant := by
  let off := [3, 4, 5, 6, 7, 8, 9, 10, 11].foldl (fun (s : State) d => s.setDomain d 0) s
  have hoff : Wrote sleepRegs s off ∧ Keeps 0x512 s off := by
    have hd : ∀ d ∈ [3, 4, 5, 6, 7, 8, 9, 10, 11], ∀ p ∈ domainRegs d, p ∈ sleepRegs := by decide
    exact ⟨Wrote.foldl (fun d hmem t ht => ht.setDomain d 0 (hd d hmem)) (.refl hs.regs),
      Keeps.foldl (.refl s) (fun _ _ ht => State.setDomain_keeps (by decide) ht)⟩
  have hraise : Wrote sleepRegs s (off.raise 0x909 0 0) ∧ Keeps 0x512 s (off.raise 0x909 0 0) :=
    ⟨hoff.1.raise _ _ _ (eventRegs_end _), State.raise_keeps (by decide) hoff.2⟩
  have hring : ∀ p ∈ ringRegs, p ∈ sleepRegs := by decide
  have hloop : ∀ (l : List Nat) (t : State), Wrote sleepRegs s t ∧ Keeps 0x512 s t →
      Wrote sleepRegs s (l.foldl (fun t _ => t.ringWrite false []) t) ∧ Keeps 0x512 s (l.foldl (fun t _ => t.ringWrite false []) t) := by
    intro l
    induction l with
    | nil => exact fun _ h => h
    | cons n l ih =>
      intro t ⟨hwt, hkt⟩
      obtain ⟨hwrote, hkeeps⟩ := State.ringWrite_clean hwt.wf
      exact ih _ ⟨hwt.trans (hwrote.mono hring), hkt.trans hkeeps⟩
  exact hloop (List.range (off.raise 0x909 0 0).evq.buf.length) (off.raise 0x909 0 0) hraise

end Sys2Proof.Machine

namespace Sys2Proof.Proofs

open Sys2Proof.Machine Sys2Proof.Safety

variable {s : State}

/-- The count of one more, as far as the field goes. -/
abbrev countUp (s : State) (f : Field) : Nat := min (s.rd f 0 + 1) (2 ^ f.width - 1)

/-- The state of power that a reset by `causes` gives a unit that was not DORMANT. -/
abbrev heldBy (s : State) (causes : Nat) : Pwr :=
  { State.reset.pwr with hbRank := s.rank, hbTerm := s.rd Reg.RED_CLAIM.claim 0 % 2 ^ 28, causes := causes, assertedAt := s.cycle }

/-- What a reset leaves of the time base, the host's memory and the retention store. -/
abbrev Ticks (s t : State) : Prop := t.clk = { s.clk with ppsOut := false, ppsMissing := false, ppsAt := none } ∧ t.host.mem = s.host.mem
  ∧ t.red = { State.reset.red with slow := s.red.slow, sweep := s.red.sweep }

theorem assertReset_eq (hd : s.pwr.dormant = false) (cause : Nat) :
    s.assertReset cause = (s.powerDown (heldBy s cause) s.red.kept).wr Reg.PWR_RST_HOLD.ms 0 0 := by
  unfold State.assertReset
  rw [hd]
  rfl

theorem assertReset_effect (hs : Sound s) (hd : s.pwr.dormant = false) (cause : Nat) :
    ClearedTo s (s.assertReset cause) (heldBy s cause) ∧ Ticks s (s.assertReset cause) ∧ tabWf 0 (s.assertReset cause).regs = true
      ∧ ∀ f, f.place ≠ Reg.PWR_RST_HOLD.ms.place → alwaysOnKeys.contains (f.addr * 32 + f.lo) = true → regKey f 0 ≠ regKey Reg.PWR_DOM_STAT.state 0 →
          (s.assertReset cause).rd f 0 = s.rd f 0 := by
  rw [assertReset_eq hd]
  have hwf := State.powerDown_wf hs.regs (heldBy s cause) s.red.kept
  have hhold : Wrote [(Reg.PWR_RST_HOLD.ms, 0)] (s.powerDown (heldBy s cause) s.red.kept)
      ((s.powerDown (heldBy s cause) s.red.kept).wr Reg.PWR_RST_HOLD.ms 0 0) := (Wrote.refl hwf).wr _ List.mem_cons_self
  refine ⟨(clearedTo_powerDown hs.regs _ _).wrote hhold (State.wr_keeps (by decide) (.refl _)) (by decide), ⟨rfl, rfl, rfl⟩, hhold.wf,
    fun f hf hon hdom => ?_⟩
  rw [hhold.rd (apart_sole _ _ (by decide) (by decide) (bne_iff_ne.mpr hf.symm)), State.rd_powerDown hs.regs _ _ (by decide) hdom, hon]
  rfl

theorem rstNAssert_effect (hs : Sound s) (hreset : s.pwr.inReset = false) (hd : s.pwr.dormant = false) :
    ∃ t, exec .rstNAssert s = .next t ∧ ClearedTo s t (heldBy s 2) ∧ Ticks s t ∧ t.rd Reg.PWR_RESET_CNT.rst_n 0 = countUp s Reg.PWR_RESET_CNT.rst_n := by
  obtain ⟨hcleared, hticks, hwf, hread⟩ := assertReset_effect hs hd 2
  have hexec : exec .rstNAssert s = .next ((s.assertReset 2).count Reg.PWR_RESET_CNT.rst_n 0) := by
    change execRstNAssert s = _
    unfold execRstNAssert
    rw [hreset]
    rfl
  have hcount : Wrote [(Reg.PWR_RESET_CNT.rst_n, 0)] (s.assertReset 2) ((s.assertReset 2).count Reg.PWR_RESET_CNT.rst_n 0) :=
    (Wrote.refl hwf).count List.mem_cons_self
  refine ⟨_, hexec, hcleared.wrote hcount (State.count_keeps (by decide) (.refl _)) (by decide), hticks, ?_⟩
  rw [State.rd_count_self _ _ hwf, hread _ (by decide) (by decide) (by decide)]

theorem rstNAssert_held (h : s.pwr.inReset = true) : exec .rstNAssert s = .next s := by
  change execRstNAssert s = _
  unfold execRstNAssert
  rw [h]
  rfl

theorem brownout_effect (hs : Sound s) (hreset : s.pwr.inReset = false) (hd : s.pwr.dormant = false) :
    ∃ t, exec .brownout s = .next t ∧ ClearedTo s t (heldBy s 4) ∧ Ticks s t ∧ t.rd Reg.PWR_RESET_CNT.brownouts 0 = countUp s Reg.PWR_RESET_CNT.brownouts
      ∧ t.bitAt Reg.PWR_SUPPLY_STAT.in_range 0 0 = false ∧ t.bitAt Reg.PWR_SUPPLY_STAT.dropped 0 0 = true := by
  let c := s.count Reg.PWR_RESET_CNT.brownouts 0
  let u := c.setBit Reg.PWR_SUPPLY_STAT.in_range 0 0 false
  have hcount : Wrote [(Reg.PWR_RESET_CNT.brownouts, 0)] s c := (Wrote.refl hs.regs).count List.mem_cons_self
  have hrange : Wrote [(Reg.PWR_SUPPLY_STAT.in_range, 0)] c u := (Wrote.refl hcount.wf).setBit _ _ List.mem_cons_self
  have hku : Keeps 0x10 s u := State.setBit_keeps (by decide) (State.count_keeps (by decide) (.refl s))
  have hstrap : u.rd Reg.RED_STAT.strap 0 = s.rd Reg.RED_STAT.strap 0 :=
    (hrange.rd ⟨by decide, by decide, by decide⟩).trans (hcount.rd ⟨by decide, by decide, by decide⟩)
  have hclaim : u.rd Reg.RED_CLAIM.claim 0 = s.rd Reg.RED_CLAIM.claim 0 :=
    (hrange.rd ⟨by decide, by decide, by decide⟩).trans (hcount.rd ⟨by decide, by decide, by decide⟩)
  have hheld : heldBy u 4 = heldBy s 4 := by
    have hrank : u.rank = s.rank := by
      unfold State.rank
      rw [hstrap]
    have hcycle : u.cycle = s.cycle := rfl
    unfold heldBy
    rw [hrank, hclaim, hcycle]
  obtain ⟨hcleared, hticks, hwf, hread⟩ := assertReset_effect (s := u) (hku.sound hs) hd 4
  have hexec : exec .brownout s = .next ((u.assertReset 4).setBit Reg.PWR_SUPPLY_STAT.dropped 0 0 true) := by
    change execBrownout s = _
    unfold execBrownout
    dsimp only
    rw [if_neg (show ¬ u.pwr.inReset = true from by rw [show u.pwr = s.pwr from rfl, hreset]; decide)]
  have hdropped : Wrote [(Reg.PWR_SUPPLY_STAT.dropped, 0)] (u.assertReset 4) ((u.assertReset 4).setBit Reg.PWR_SUPPLY_STAT.dropped 0 0 true) :=
    (Wrote.refl hwf).setBit _ _ List.mem_cons_self
  have hthrough : ∀ {f : Field}, Reg.PWR_SUPPLY_STAT.dropped.place ≠ f.place → f.place ≠ Reg.PWR_RST_HOLD.ms.place →
      alwaysOnKeys.contains (f.addr * 32 + f.lo) = true → regKey f 0 ≠ regKey Reg.PWR_DOM_STAT.state 0 →
      ((u.assertReset 4).setBit Reg.PWR_SUPPLY_STAT.dropped 0 0 true).rd f 0 = u.rd f 0 := fun h1 h2 h3 h4 =>
    (hdropped.rd (apart_sole _ _ (by decide) (by decide) (bne_iff_ne.mpr h1))).trans (hread _ h2 h3 h4)
  refine ⟨_, hexec, ?_, hticks, ?_, ?_, State.bitAt_setBit hwf _ _ (by decide) _⟩
  · rw [← hheld]
    exact (hcleared.of rfl rfl rfl rfl).wrote hdropped (State.setBit_keeps (by decide) (.refl _)) (by decide)
  · rw [hthrough (by decide) (by decide) (by decide) (by decide), hrange.rd ⟨by decide, by decide, by decide⟩]
    exact State.rd_count_self _ _ hs.regs
  · have hbit : u.bitAt Reg.PWR_SUPPLY_STAT.in_range 0 0 = false := State.bitAt_setBit hcount.wf _ _ (by decide) _
    unfold State.bitAt at *
    rw [hthrough (by decide) (by decide) (by decide) (by decide)]
    exact hbit

theorem hostUp_parts (hup : HostUp s) : s.pwr.inReset = false ∧ s.pwr.dormant = false := by
  unfold HostUp State.deaf at hup
  simp only [Bool.or_eq_false_iff] at hup
  obtain ⟨⟨-, hreset⟩, hd⟩ := hup
  exact ⟨hreset, hd⟩

theorem pwrCmdReset_effect (hs : Sound s) (hup : HostUp s) :
    ∃ t, exec (.pwrCmdReset 0xA5) s = .next t ∧ ClearedTo s t (heldBy s 8) ∧ Ticks s t := by
  obtain ⟨hcleared, hticks, -, -⟩ := assertReset_effect hs (hostUp_parts hup).2 8
  refine ⟨_, ?_, hcleared, hticks⟩
  change execPwrCmdReset 0xA5 s = _
  unfold execPwrCmdReset
  rw [byHost_up hup, if_pos (by decide)]

/-- A command that is refused with its status alone. -/
theorem pwrStatus_effect (hs : Sound s) {status : Nat} (hstatus : status < 2 ^ Reg.PWR_CMD_STAT.status.width) :
    (s.wr Reg.PWR_CMD_STAT.status 0 status).rd Reg.PWR_CMD_STAT.status 0 = status ∧ Only [.regs] s (s.wr Reg.PWR_CMD_STAT.status 0 status)
      ∧ RegsBut [(Reg.PWR_CMD_STAT.status, 0)] s (s.wr Reg.PWR_CMD_STAT.status 0 status) :=
  ⟨(State.rd_wr_self _ _ _ hs.regs).trans (Nat.mod_eq_of_lt hstatus), State.wr_only s _ _ _, ((Wrote.refl hs.regs).wr _ List.mem_cons_self).but⟩

theorem pwrKey_refused (hs : Sound s) (key : BitVec 8) (hup : HostUp s) (hkey : key ≠ 0xA5) (c : Instr) (hc : c = .pwrCmdReset key ∨ c = .pwrCmdDormant key) :
    ∃ t, exec c s = .next t ∧ t.rd Reg.PWR_CMD_STAT.status 0 = 2 ∧ Only [.regs] s t ∧ RegsBut [(Reg.PWR_CMD_STAT.status, 0)] s t := by
  have hne : key.toNat ≠ 0xA5 := fun h => hkey (BitVec.eq_of_toNat_eq h)
  refine ⟨_, ?_, pwrStatus_effect hs (by decide)⟩
  rcases hc with rfl | rfl
  · change execPwrCmdReset key s = _
    unfold execPwrCmdReset
    rw [byHost_up hup, if_neg hne]
  · change execPwrCmdDormant key s = _
    unfold execPwrCmdDormant
    rw [byHost_up hup, if_pos hne]

/-! ### Supplies (R458, R460) -/

theorem powerOn_wf (s : State) : tabWf 0 s.powerOn.regs = true := by
  rw [State.powerOn_regs]
  decide

theorem powerOnReset_effect (s : State) :
    ∃ t, exec .powerOnReset s = .next t ∧ ClearedTo s t State.reset.pwr ∧ t.clk = State.reset.clk ∧ t.red = State.reset.red ∧ t.host.mem = s.host.mem
      ∧ t.rd Reg.PWR_SUPPLY_STAT.in_range 0 = 255 ∧ t.rd Reg.PWR_RESET_CNT.rst_n 0 = 0 := by
  have hwf := powerOn_wf s
  have hrange : Wrote [(Reg.PWR_SUPPLY_STAT.in_range, 0)] s.powerOn (s.powerOn.wr Reg.PWR_SUPPLY_STAT.in_range 0 255) :=
    (Wrote.refl hwf).wr _ List.mem_cons_self
  refine ⟨s.powerOn.wr Reg.PWR_SUPPLY_STAT.in_range 0 255, rfl,
    (clearedTo_powerOn s).wrote hrange (State.wr_keeps (by decide) (.refl _)) (by decide), rfl, rfl, rfl, State.rd_wr_self _ _ _ hwf, ?_⟩
  rw [hrange.rd ⟨by decide, by decide, by decide⟩, State.rd_congr (State.powerOn_regs s)]
  decide

/-- Supply `n` leaves its range. -/
def supplyLost (s : State) (range dropped n : Nat) : State :=
  ((s.wr Reg.PWR_SUPPLY_STAT.in_range 0 range).wr Reg.PWR_SUPPLY_STAT.dropped 0 dropped).setBit Reg.PWR_SUPPLY_STAT.in_range 0 n false
    |>.setBit Reg.PWR_SUPPLY_STAT.dropped 0 n true

theorem supplyLost_effect (hw : tabWf 0 s.regs = true) (range dropped : Nat) {n : Nat} (hn : n < 8) :
    let t := supplyLost s range dropped n
    t.bitAt Reg.PWR_SUPPLY_STAT.in_range 0 n = false ∧ t.bitAt Reg.PWR_SUPPLY_STAT.dropped 0 n = true ∧ Keeps 0x10 s t
      ∧ Wrote [(Reg.PWR_SUPPLY_STAT.in_range, 0), (Reg.PWR_SUPPLY_STAT.dropped, 0)] s t := by
  intro t
  have h1 : Wrote [(Reg.PWR_SUPPLY_STAT.in_range, 0), (Reg.PWR_SUPPLY_STAT.dropped, 0)] s
      ((s.wr Reg.PWR_SUPPLY_STAT.in_range 0 range).wr Reg.PWR_SUPPLY_STAT.dropped 0 dropped) := ((Wrote.refl hw).wr _ (by simp)).wr _ (by simp)
  have h2 := h1.setBit (f := Reg.PWR_SUPPLY_STAT.in_range) (i := 0) n false (by simp)
  have h3 : Wrote [(Reg.PWR_SUPPLY_STAT.dropped, 0)] _ t := (Wrote.refl h2.wf).setBit n true List.mem_cons_self
  have hbit := State.bitAt_setBit h1.wf Reg.PWR_SUPPLY_STAT.in_range 0 (b := n) hn false
  refine ⟨?_, State.bitAt_setBit h2.wf Reg.PWR_SUPPLY_STAT.dropped 0 (b := n) hn true, ?_, h2.trans (h3.mono (by simp))⟩
  · unfold State.bitAt at *
    rw [h3.rd ⟨by decide, by decide, by decide⟩]
    exact hbit
  · exact State.setBit_keeps (by decide) (State.setBit_keeps (by decide) (State.wr_keeps (by decide) (State.wr_keeps (by decide) (.refl s))))

theorem supplyOutOfRange_effect (hs : Sound s) (n : Fin 8) (hn : n ≠ 1) :
    ∃ t, exec (.supplyOutOfRange n) s = .next t ∧ t.bitAt Reg.PWR_SUPPLY_STAT.in_range 0 n = false ∧ t.bitAt Reg.PWR_SUPPLY_STAT.dropped 0 n = true
      ∧ Only [.regs] s t ∧ RegsBut [(Reg.PWR_SUPPLY_STAT.in_range, 0), (Reg.PWR_SUPPLY_STAT.dropped, 0)] s t := by
  obtain ⟨hrange, hdropped, hkeeps, hwrote⟩ :=
    supplyLost_effect hs.regs (s.rd Reg.PWR_SUPPLY_STAT.in_range 0) (s.rd Reg.PWR_SUPPLY_STAT.dropped 0) n.isLt
  refine ⟨_, ?_, hrange, hdropped, hkeeps.only (by decide), hwrote.but⟩
  change execSupplyOutOfRange n s = _
  unfold execSupplyOutOfRange
  dsimp only
  rw [if_neg (show ¬ n.val = 1 from fun h => hn (Fin.ext h))]
  rfl

theorem supplyOutOfRange_aon (s : State) :
    ∃ t, exec (.supplyOutOfRange 1) s = .next t ∧ ClearedTo s t { State.reset.pwr with por := true } ∧ t.clk = State.reset.clk ∧ t.red = State.reset.red
      ∧ t.host.mem = s.host.mem ∧ t.bitAt Reg.PWR_SUPPLY_STAT.in_range 0 1 = false ∧ t.bitAt Reg.PWR_SUPPLY_STAT.dropped 0 1 = true := by
  let u := s.powerOn.modPwr (fun p => { p with por := true })
  have hu : ClearedTo s u { State.reset.pwr with por := true } := (clearedTo_powerOn s).modPwr _
  have huregs : u.regs = State.reset.regs := (State.modPwr_regs s.powerOn _).trans (State.powerOn_regs s)
  have huwf : tabWf 0 u.regs = true := by
    rw [huregs]
    decide
  obtain ⟨hrange, hdropped, hkeeps, hwrote⟩ := supplyLost_effect huwf (s.rd Reg.PWR_SUPPLY_STAT.in_range 0)
    (s.rd Reg.PWR_SUPPLY_STAT.dropped 0) (n := 1) (by decide)
  exact ⟨supplyLost u (s.rd Reg.PWR_SUPPLY_STAT.in_range 0) (s.rd Reg.PWR_SUPPLY_STAT.dropped 0) 1, rfl, hu.wrote hwrote hkeeps (by decide), rfl, rfl, rfl,
    hrange, hdropped⟩

/-! ### Release (R463, R465) -/

theorem resetHold_effect (h : s.pwr.inReset = true) :
    ∃ t, exec .resetHold200ms s = .next t ∧ t.pwr = { s.pwr with held200 := true } ∧ Only [.pwr] s t := by
  refine ⟨s.modPwr (fun p => { p with held200 := true }), ?_, rfl, ?_⟩
  · change execResetHold200ms s = _
    unfold execResetHold200ms
    rw [h]
    rfl
  · exact (State.modPwr_keeps (M := 0x4000000) (by decide) (.refl s)).only (by decide)

/-- The load that a release begins. -/
abbrev Begun (s t : State) : Prop := t.cfg = { s.cfg with loading := true, order := s.loadOrder } ∧ t.rd Reg.CFG_STAT.state 0 = 1
  ∧ t.rd Reg.PWR_BOOT_STAT.step 0 = 4 ∧ (∀ d, d ∈ [2, 3, 4, 5, 10, 11] → t.domain d = 2) ∧ Only ([.free, .cfg, .pwr] ++ eventParts) s t

/-- What the release shows before the boot. -/
def releaseShown (s : State) (straps : Nat) : State :=
  let s := s.wr Reg.PWR_SUPPLY_STAT.in_range 0 255
  let s := s.wr Reg.PWR_RST_HOLD.ms 0 (min ((s.cycle - s.pwr.assertedAt) / 400000) (2 ^ 32 - 1))
  let s := if s.pwr.causes / 16 % 2 = 1 then s.wr Reg.PWR_WAKE_STAT.source 0 4 else s
  (s.modPwr (fun p => { p with inReset := false, held200 := false, causes := 0, releasedAt := s.cycle })).wr Reg.RED_STAT.strap 0 straps

/-- The fields of the release. -/
abbrev releaseRegs : List (Field × Nat) := [(Reg.PWR_SUPPLY_STAT.in_range, 0), (Reg.PWR_RST_HOLD.ms, 0), (Reg.PWR_WAKE_STAT.source, 0), (Reg.RED_STAT.strap, 0)]

theorem releaseShown_effect (hs : Sound s) (straps : Nat) :
    let t := releaseShown s straps
    t.rd Reg.RED_STAT.strap 0 = straps % 2 ^ Reg.RED_STAT.strap.width ∧ t.rd Reg.PWR_SUPPLY_STAT.in_range 0 = 255
      ∧ t.pwr = { s.pwr with inReset := false, held200 := false, causes := 0, releasedAt := s.cycle } ∧ Keeps 0x4000010 s t ∧ Wrote releaseRegs s t := by
  intro t
  let a := s.wr Reg.PWR_SUPPLY_STAT.in_range 0 255
  let b := a.wr Reg.PWR_RST_HOLD.ms 0 (min ((a.cycle - a.pwr.assertedAt) / 400000) (2 ^ 32 - 1))
  let c := if b.pwr.causes / 16 % 2 = 1 then b.wr Reg.PWR_WAKE_STAT.source 0 4 else b
  let d := c.modPwr (fun p => { p with inReset := false, held200 := false, causes := 0, releasedAt := c.cycle })
  have ha : Wrote releaseRegs s a := (Wrote.refl hs.regs).wr _ (by simp)
  have hb : Wrote [(Reg.PWR_RST_HOLD.ms, 0), (Reg.PWR_WAKE_STAT.source, 0), (Reg.RED_STAT.strap, 0)] a b := (Wrote.refl ha.wf).wr _ (by simp)
  have hc : Wrote [(Reg.PWR_RST_HOLD.ms, 0), (Reg.PWR_WAKE_STAT.source, 0), (Reg.RED_STAT.strap, 0)] a c := .ite (hb.wr _ (by simp)) hb
  have hd : Wrote [(Reg.PWR_RST_HOLD.ms, 0), (Reg.PWR_WAKE_STAT.source, 0), (Reg.RED_STAT.strap, 0)] a d := hc.same rfl
  have ht : Wrote [(Reg.PWR_RST_HOLD.ms, 0), (Reg.PWR_WAKE_STAT.source, 0), (Reg.RED_STAT.strap, 0)] a t := hd.wr _ (by simp)
  have hkc : Keeps 0x10 s c := .ite (State.wr_keeps (by decide) (State.wr_keeps (by decide) (State.wr_keeps (by decide) (.refl s))))
    (State.wr_keeps (by decide) (State.wr_keeps (by decide) (.refl s)))
  refine ⟨State.rd_wr_self _ _ _ hd.wf, ?_, ?_, ?_, ha.trans (ht.mono (by simp +contextual))⟩
  · exact (ht.rd ⟨by decide, by decide, by decide⟩).trans (State.rd_wr_self _ _ _ hs.regs)
  · have hpwr : c.pwr = s.pwr := hkc.pwr.get (by decide)
    have hclk : c.clk = s.clk := hkc.clk.get (by decide)
    change ({ c.pwr with inReset := false, held200 := false, causes := 0, releasedAt := c.clk.count } : Pwr) = _
    rw [hpwr, hclk]
    rfl
  · exact State.wr_keeps (by decide) (State.modPwr_keeps (by decide) (hkc.mono (by decide)))

theorem resetReleased_effect (hs : Sound s) (straps : Fin 4) (hreset : s.pwr.inReset = true) (hpor : s.pwr.por = false) (hstraps : straps ≠ 3) :
    ∃ t, exec (.resetReleased straps) s = .next t ∧ Begun s t ∧ t.rd Reg.RED_STAT.strap 0 = straps ∧ t.rd Reg.PWR_SUPPLY_STAT.in_range 0 = 255
      ∧ t.pwr = { s.pwr with inReset := false, held200 := false, causes := 0, releasedAt := s.cycle }
      ∧ (s.pwr.causes / 2 % 2 = 1 → t.rd Reg.PWR_RESET_CAUSE.rst_n 0 = 1)
      ∧ (s.pwr.causes / 4 % 2 = 1 → t.rd Reg.PWR_RESET_CAUSE.brownout 0 = 1)
      ∧ (s.pwr.causes / 8 % 2 = 1 → t.rd Reg.PWR_RESET_CAUSE.software 0 = 1) := by
  obtain ⟨hstrap, hrange, hpwr, hkeeps, hwrote⟩ := releaseShown_effect hs straps
  have hexec : exec (.resetReleased straps) s = .next ((releaseShown s straps).boot s.pwr.causes) := by
    change execResetReleased straps s = _
    unfold execResetReleased
    rw [if_neg (by simp [hreset, hpor])]
    rfl
  have hsmall : straps.val % 2 ^ Reg.RED_STAT.strap.width = straps.val := Nat.mod_eq_of_lt straps.isLt
  rw [hsmall] at hstrap
  have hne : (releaseShown s straps).rd Reg.RED_STAT.strap 0 ≠ 3 := by
    rw [hstrap]
    exact fun h => hstraps (Fin.ext h)
  have hboot := State.boot_effect hwrote.wf hne s.pwr.causes
  have horder : (releaseShown s straps).loadOrder = s.loadOrder :=
    State.loadOrder_congr (hkeeps.cfg.get (by decide)) (hwrote.rd ⟨by decide, by decide, by decide⟩)
  have honly : Keeps 0x6000516 s ((releaseShown s straps).boot s.pwr.causes) := (hkeeps.mono (by decide)).trans (hboot.keeps.mono (by decide))
  refine ⟨_, hexec, ⟨?_, hboot.state, hboot.step, hboot.domains, honly.only (by decide)⟩, ?_, ?_, (hboot.keeps.pwr.get (by decide)).trans hpwr, hboot.pin,
    hboot.supply, hboot.command⟩
  · rw [hboot.cfg, hkeeps.cfg.get (by decide), horder]
  · exact (hboot.wrote.rd ⟨by decide, by decide, by decide⟩).trans hstrap
  · exact (hboot.wrote.rd ⟨by decide, by decide, by decide⟩).trans hrange

theorem resetReleased_ignored (straps : Fin 4) (h : s.pwr.inReset = false ∨ s.pwr.por = true) : exec (.resetReleased straps) s = .next s := by
  change execResetReleased straps s = _
  unfold execResetReleased
  rw [if_pos (by rcases h with h | h <;> simp [h])]

/-! ### DORMANT (R466, R467) -/

theorem dormant_refused (hs : Sound s) (hup : HostUp s) (hrun : s.running = true) (h1 : s.role ≠ 1) (h6 : s.role ≠ 6) :
    ∃ t, exec (.pwrCmdDormant 0xA5) s = .next t ∧ t.rd Reg.PWR_CMD_STAT.status 0 = 3 ∧ Only [.regs] s t
      ∧ RegsBut [(Reg.PWR_CMD_STAT.status, 0)] s t := by
  refine ⟨_, ?_, pwrStatus_effect hs (by decide)⟩
  change execPwrCmdDormant 0xA5 s = _
  unfold execPwrCmdDormant
  rw [byHost_up hup, if_neg (by decide), if_pos (by simp [hrun, sleepsIn, h1, h6])]

/-- The unit as it goes to sleep. -/
def asleep (s : State) : State := ((s.wr Reg.PWR_CMD_STAT.status 0 1).count Reg.PWR_WAKE_STAT.dormant_cnt 0).goDormant

/-- The state of power of a unit that sleeps. -/
abbrev sleepPwr (s : State) : Pwr :=
  { State.reset.pwr with inReset := false, dormant := true, hbRank := s.rank, hbTerm := s.rd Reg.RED_CLAIM.claim 0 % 2 ^ 28, causes := 0 }

theorem exec_dormant (hup : HostUp s) (h : s.running = false ∨ s.role = 1 ∨ s.role = 6) : exec (.pwrCmdDormant 0xA5) s
    = .next (((asleep s).powerDown (sleepPwr (asleep s)) { (asleep s).red.kept with bind := (asleep s).red.bind }).wr Reg.RED_STAT.strap 0
        ((asleep s).rd Reg.RED_STAT.strap 0)) := by
  have hsleeps : (s.running && !sleepsIn s.role) = false := by
    rcases h with h | h | h <;> simp [h, sleepsIn]
  change execPwrCmdDormant 0xA5 s = _
  unfold execPwrCmdDormant
  rw [byHost_up hup, if_neg (by decide), hsleeps]
  rfl

theorem dormant_effect (hs : Sound s) (hup : HostUp s) (h : s.running = false ∨ s.role = 1 ∨ s.role = 6) :
    ∃ t, exec (.pwrCmdDormant 0xA5) s = .next t ∧ ClearedTo s t (sleepPwr s)
      ∧ t.rd Reg.RED_STAT.strap 0 = s.rd Reg.RED_STAT.strap 0 % 2 ^ Reg.RED_STAT.strap.width
      ∧ t.rd Reg.PWR_WAKE_STAT.dormant_cnt 0 = countUp s Reg.PWR_WAKE_STAT.dormant_cnt
      ∧ t.red = { State.reset.red with slow := s.red.slow, sweep := s.red.sweep, bind := s.red.bind } := by
  let a := s.wr Reg.PWR_CMD_STAT.status 0 1
  let b := a.count Reg.PWR_WAKE_STAT.dormant_cnt 0
  have ha : Wrote [(Reg.PWR_CMD_STAT.status, 0)] s a := (Wrote.refl hs.regs).wr _ List.mem_cons_self
  have hb : Wrote [(Reg.PWR_WAKE_STAT.dormant_cnt, 0)] a b := (Wrote.refl ha.wf).count List.mem_cons_self
  have hkb : Keeps 0x10 s b := State.count_keeps (by decide) (State.wr_keeps (by decide) (.refl s))
  obtain ⟨hsleep, hksleep⟩ := State.goDormant_effect (hkb.sound hs)
  have hk : Keeps 0x512 s (asleep s) := (hkb.mono (by decide)).trans hksleep
  have hread : ∀ {f : Field}, Apart f 0 sleepRegs → Apart f 0 [(Reg.PWR_WAKE_STAT.dormant_cnt, 0)] → Apart f 0 [(Reg.PWR_CMD_STAT.status, 0)] →
      (asleep s).rd f 0 = s.rd f 0 := fun h1 h2 h3 => (hsleep.rd h1).trans ((hb.rd h2).trans (ha.rd h3))
  have hstrap : (asleep s).rd Reg.RED_STAT.strap 0 = s.rd Reg.RED_STAT.strap 0 :=
    hread ⟨by decide, by decide, by decide⟩ ⟨by decide, by decide, by decide⟩ ⟨by decide, by decide, by decide⟩
  have hclaim : (asleep s).rd Reg.RED_CLAIM.claim 0 = s.rd Reg.RED_CLAIM.claim 0 :=
    hread ⟨by decide, by decide, by decide⟩ ⟨by decide, by decide, by decide⟩ ⟨by decide, by decide, by decide⟩
  have hcount : (asleep s).rd Reg.PWR_WAKE_STAT.dormant_cnt 0 = countUp s Reg.PWR_WAKE_STAT.dormant_cnt := by
    have hsame : a.rd Reg.PWR_WAKE_STAT.dormant_cnt 0 = s.rd Reg.PWR_WAKE_STAT.dormant_cnt 0 := ha.rd ⟨by decide, by decide, by decide⟩
    refine (hsleep.rd ⟨by decide, by decide, by decide⟩).trans ((State.rd_count_self _ _ ha.wf).trans ?_)
    rw [hsame]
  have hpwr : sleepPwr (asleep s) = sleepPwr s := by
    have hrank : (asleep s).rank = s.rank := by
      unfold State.rank
      rw [hstrap]
    unfold sleepPwr
    rw [hrank, hclaim]
  have hred : (asleep s).red = s.red := hk.red.get (by decide)
  have hcfg : (asleep s).cfg = s.cfg := hk.cfg.get (by decide)
  have hwf : tabWf 0 (asleep s).regs = true := hsleep.wf
  have hexec := exec_dormant hup h
  have hdown := clearedTo_powerDown hwf (sleepPwr (asleep s)) { (asleep s).red.kept with bind := (asleep s).red.bind }
  have hdownwf := State.powerDown_wf hwf (sleepPwr (asleep s)) { (asleep s).red.kept with bind := (asleep s).red.bind }
  have hdownrd := fun {f : Field} => State.rd_powerDown hwf (sleepPwr (asleep s)) { (asleep s).red.kept with bind := (asleep s).red.bind } (f := f) (i := 0) (by decide)
  have hdownred : ((asleep s).powerDown (sleepPwr (asleep s)) { (asleep s).red.kept with bind := (asleep s).red.bind }).red
      = { (asleep s).red.kept with bind := (asleep s).red.bind } := rfl
  rw [hpwr, hred] at hexec hdown hdownwf hdownrd hdownred
  generalize (asleep s).powerDown (sleepPwr s) { s.red.kept with bind := s.red.bind } = d at *
  have hlast : Wrote [(Reg.RED_STAT.strap, 0)] d (d.wr Reg.RED_STAT.strap 0 ((asleep s).rd Reg.RED_STAT.strap 0)) := (Wrote.refl hdownwf).wr _ List.mem_cons_self
  refine ⟨_, hexec, (hdown.of (by rw [hcfg]) (by rw [hcfg]) hk.serial hk.pending).wrote hlast (State.wr_keeps (by decide) (.refl d)) (by decide), ?_, ?_, hdownred⟩
  · rw [State.rd_wr_self _ _ _ hdownwf, hstrap]
  · rw [hlast.rd ⟨by decide, by decide, by decide⟩, hdownrd (by decide), if_pos (by decide), hcount]

/-- The source that wakes the unit is shown. -/
def wakeShown (s : State) (w : Nat) : State :=
  (s.wr Reg.PWR_WAKE_STAT.source 0 (w + 1)).modPwr (fun p => { p with dormant := false, releasedAt := s.cycle })

/-- The enable of a source. -/
abbrev wakeEnable (w : Fin 3) : Field := if w = 0 then Reg.PWR_WAKE_CFG.timer_en else if w = 1 then Reg.PWR_WAKE_CFG.hb_loss else Reg.PWR_WAKE_CFG.hb_state

theorem exec_dormantWake (w : Fin 3) : exec (.dormantWake w) s = .next (if !s.pwr.dormant || !s.flag (wakeEnable w) 0 then s
    else (wakeShown s w).boot 16) := by
  have hon : (if w = 0 then s.flag Reg.PWR_WAKE_CFG.timer_en 0 else if w = 1 then s.flag Reg.PWR_WAKE_CFG.hb_loss 0 else s.flag Reg.PWR_WAKE_CFG.hb_state 0)
      = s.flag (wakeEnable w) 0 := by
    unfold wakeEnable
    split
    · rfl
    · split <;> rfl
  rw [← hon]
  rfl

theorem dormantWake_effect (hs : Sound s) (w : Fin 3) (hd : s.pwr.dormant = true) (hon : s.flag (wakeEnable w) 0 = true)
    (hstrap : s.rd Reg.RED_STAT.strap 0 ≠ 3) :
    ∃ t, exec (.dormantWake w) s = .next t ∧ Begun s t ∧ t.rd Reg.PWR_WAKE_STAT.source 0 = w.val + 1
      ∧ t.rd Reg.PWR_RESET_CAUSE.dormant_wake 0 = 1 ∧ t.pwr = { s.pwr with dormant := false, releasedAt := s.cycle } := by
  have hshown : Wrote [(Reg.PWR_WAKE_STAT.source, 0)] s (wakeShown s w) := ((Wrote.refl hs.regs).wr (w.val + 1) List.mem_cons_self).same rfl
  have hkeeps : Keeps 0x4000010 s (wakeShown s w) := State.modPwr_keeps (by decide) (State.wr_keeps (by decide) (.refl s))
  have hne : (wakeShown s w).rd Reg.RED_STAT.strap 0 ≠ 3 := by
    rw [hshown.rd ⟨by decide, by decide, by decide⟩]
    exact hstrap
  have hboot := State.boot_effect hshown.wf hne 16
  have horder : (wakeShown s w).loadOrder = s.loadOrder :=
    State.loadOrder_congr (hkeeps.cfg.get (by decide)) (hshown.rd ⟨by decide, by decide, by decide⟩)
  have honly : Keeps 0x6000516 s ((wakeShown s w).boot 16) := (hkeeps.mono (by decide)).trans (hboot.keeps.mono (by decide))
  refine ⟨(wakeShown s w).boot 16, ?_, ⟨?_, hboot.state, hboot.step, hboot.domains, honly.only (by decide)⟩, ?_, hboot.wake (by decide),
    hboot.keeps.pwr.get (by decide)⟩
  · rw [exec_dormantWake, if_neg (by simp [hd, hon])]
  · rw [hboot.cfg, hkeeps.cfg.get (by decide), horder]
  · refine (hboot.wrote.rd ⟨by decide, by decide, by decide⟩).trans ((State.rd_wr_self _ _ _ hs.regs).trans (Nat.mod_eq_of_lt ?_))
    exact Nat.lt_of_le_of_lt (Nat.succ_le_of_lt w.isLt) (by decide)

theorem dormantWake_ignored (w : Fin 3) (h : s.pwr.dormant = false ∨ s.flag (wakeEnable w) 0 = false) : exec (.dormantWake w) s = .next s := by
  rw [exec_dormantWake, if_pos (by rcases h with h | h <;> simp [h])]

/-- Settles O59: a reset keeps the store of the always-on domain alone, and each release ends in the boot. -/
theorem resetAndDormant : Obligations.ResetAndDormant := by
  unfold Obligations.ResetAndDormant
  intro s hs z up cleared ticks held begun
  exact ⟨rstNAssert_effect hs, rstNAssert_held, brownout_effect hs, pwrCmdReset_effect hs, pwrKey_refused hs, powerOnReset_effect s,
    supplyOutOfRange_effect hs, supplyOutOfRange_aon s, resetHold_effect, resetReleased_effect hs, fun straps => resetReleased_ignored straps,
    dormant_refused hs, dormant_effect hs, fun w => ⟨dormantWake_effect hs w, dormantWake_ignored w⟩⟩

end Sys2Proof.Proofs

/-! ## Measured delays (R354 to R356, R360) -/

namespace Sys2Proof.Machine

open Sys2Proof.Safety

/-! ### The delay of a lane (R354) -/

/-- What showing a lane's delay writes. -/
abbrev delayRegs (l : Nat) : List (Field × Nat) := [(Reg.LANE_DELAY.h, l), (Reg.LANE_DELAY.overLimit, l)] ++ eventRegs

theorem State.checkDelay_effect {s : State} (hw : tabWf 0 s.regs = true) {e : LaneEntry} (hl : e.lane < 8192) :
    let t := s.checkDelay e
    t.rd Reg.LANE_DELAY.h e.lane = s.laneDelay e % 2 ^ 24 ∧ Wrote (delayRegs e.lane) s t ∧ Keeps 0x512 s t
      ∧ (s.laneDelay e ≤ e.dmax ∨ s.flag Reg.LANE_DELAY.overLimit e.lane = true → t.evq = s.evq) := by
  intro t
  let l := [(Reg.LANE_DELAY.h, e.lane, s.laneDelay e), (Reg.LANE_DELAY.overLimit, e.lane, bit (decide (e.dmax < s.laneDelay e)))]
  have ht : t = if decide (e.dmax < s.laneDelay e) && !s.flag Reg.LANE_DELAY.overLimit e.lane then (s.wrAll l).raise 0x208 e.lane (s.laneDelay e)
    else s.wrAll l := rfl
  have hunits : ∀ x ∈ l, x.2.1 < 8192 := by simp [l, hl]
  have hshown := State.wrAll_wrote hw l
  have hread := State.rd_wrAll [Reg.LANE_DELAY.h, Reg.LANE_DELAY.overLimit] (l := l) rfl (by decide) hw hunits
  have hfirst := hread (Reg.LANE_DELAY.h, e.lane, s.laneDelay e) List.mem_cons_self
  have hfar : Apart Reg.LANE_DELAY.h e.lane eventRegs := ⟨by decide, hl, by decide⟩
  have hraised := State.rd_raise hshown.wf 0x208 e.lane (s.laneDelay e) hfar.notMem
  have hwrote : Wrote (delayRegs e.lane) s (s.wrAll l) := hshown.mono fun _ hp => List.mem_append_left _ hp
  have hkeeps : Keeps 0x512 s (s.wrAll l) := State.wrAll_keeps (by decide) l (.refl s)
  rw [ht]
  refine ⟨?_, .ite (hwrote.raise _ _ _ (eventRegs_end _)) hwrote, .ite (State.raise_keeps (by decide) hkeeps) hkeeps, fun h => ?_⟩
  · split
    · exact hraised.trans hfirst
    · exact hfirst
  · rw [if_neg]
    · exact (State.wrAll_keeps (M := 0x10) (by decide) l (.refl s)).evq.get (by decide)
    · rcases h with h | h
      · simp [Nat.not_lt.mpr h]
      · simp [h]

/-- The maps of held lanes. -/
abbrev heldMaps : List (Field × Nat) := [(Reg.TIM_HELD_MAP0.held, 0), (Reg.TIM_HELD_MAP1.held, 0), (Reg.TIM_HELD_MAP2.held, 0)]

theorem Wrote.setHeldMap {m : List (Field × Nat)} {s t : State} (h : Wrote m s t) (l : Nat) (v : Bool) (hm : ∀ p ∈ heldMaps, p ∈ m) :
    Wrote m s (t.setHeldMap l v) :=
  .ite (h.setBit _ _ (hm _ (by simp))) (.ite (h.setBit _ _ (hm _ (by simp))) (h.setBit _ _ (hm _ (by simp))))

theorem State.setHeldMap_keeps10 (s : State) (l : Nat) (v : Bool) : Keeps 0x10 s (s.setHeldMap l v) :=
  .ite (State.setBit_keeps (by decide) (.refl s)) (.ite (State.setBit_keeps (by decide) (.refl s)) (State.setBit_keeps (by decide) (.refl s)))

/-- The fields of a lane's tracker. -/
abbrev trackRegs (l : Nat) : List (Field × Nat) :=
  [(Reg.TIM_LANE_STAT.state, l), (Reg.TIM_LANE_STAT.run, l), (Reg.LANE_DELAY.held, l)] ++ heldMaps

/-! ### DELAY_ACCEPT (R356) -/

/-- The lane tracks again, with the delay that was measured. -/
def State.delayTaken (s : State) (l v : Nat) : State :=
  ((((s.wr Reg.TIM_LANE_ACC.rt_acc l v).wr Reg.TIM_LANE_STAT.state l 1).wr Reg.LANE_DELAY.held l 0).setHeldMap l false).wr Reg.TIM_LANE_STAT.run l 0

/-- The fields that accepting a delay writes. -/
abbrev takenRegs (l : Nat) : List (Field × Nat) := (Reg.TIM_LANE_ACC.rt_acc, l) :: trackRegs l

theorem State.delayTaken_effect {s : State} (hw : tabWf 0 s.regs = true) {l : Nat} (hl : l < 8192) (v : Nat) :
    let t := s.delayTaken l v
    t.rd Reg.TIM_LANE_ACC.rt_acc l = v % 2 ^ 24 ∧ t.rd Reg.TIM_LANE_STAT.state l = 1 ∧ t.rd Reg.TIM_LANE_STAT.run l = 0 ∧ t.rd Reg.LANE_DELAY.held l = 0
      ∧ Keeps 0x10 s t ∧ Wrote (takenRegs l) s t := by
  intro t
  let m := [(Reg.TIM_LANE_ACC.rt_acc, l, v), (Reg.TIM_LANE_STAT.state, l, 1), (Reg.LANE_DELAY.held, l, 0)]
  have hread := State.rd_wrAll [Reg.TIM_LANE_ACC.rt_acc, Reg.TIM_LANE_STAT.state, Reg.LANE_DELAY.held] (l := m) rfl (by decide) hw (by simp [m, hl])
  have hm := State.wrAll_wrote hw m
  have hmap : Wrote heldMaps (s.wrAll m) ((s.wrAll m).setHeldMap l false) := (Wrote.refl hm.wf).setHeldMap l false fun _ hp => hp
  have hrun : Wrote [(Reg.TIM_LANE_STAT.run, l)] ((s.wrAll m).setHeldMap l false) t := (Wrote.refl hmap.wf).wr 0 List.mem_cons_self
  have hthrough : ∀ {f : Field}, (heldMaps.all fun p => p.1.place != f.place) = true → (Reg.TIM_LANE_STAT.run.place != f.place) = true →
      t.rd f l = (s.wrAll m).rd f l := fun hf hg => (hrun.rd (apart_sole _ _ hl hl hg)).trans (hmap.rd ⟨hf, hl, by decide⟩)
  refine ⟨(hthrough (by decide) (by decide)).trans (hread (Reg.TIM_LANE_ACC.rt_acc, l, v) (by simp [m])),
    (hthrough (by decide) (by decide)).trans (hread (Reg.TIM_LANE_STAT.state, l, 1) (by simp [m])), State.rd_wr_self _ _ _ hmap.wf,
    (hthrough (by decide) (by decide)).trans (hread (Reg.LANE_DELAY.held, l, 0) (by simp [m])), ?_, ?_⟩
  · exact State.wr_keeps (by decide) ((State.wrAll_keeps (by decide) m (.refl s)).trans (State.setHeldMap_keeps10 _ l false))
  · exact ((hm.mono (by simp [m])).trans (hmap.mono (by simp +contextual))).trans (hrun.mono (by simp))

theorem apart_takenRegs {f : Field} {i l : Nat} (hi : i < 8192) (hl : l < 8192)
    (hf : ((takenRegs 0).map (·.1)).all (fun g => g.place != f.place) = true) : Apart f i (takenRegs l) := by
  refine ⟨?_, hi, ?_⟩
  · simpa only [List.map_cons, List.map_append, List.map_nil, List.cons_append, List.nil_append, List.all_cons, List.all_nil, Bool.and_true] using hf
  · simp [hl]

theorem BitStream.laneEntry_lane {b : BitStream} {l : Nat} {e : LaneEntry} (h : b.laneEntry l = some e) : e.lane = l := by
  have hfound := List.find?_some h
  exact beq_iff_eq.mp hfound

theorem exec_delayAccept {s : State} (hup : HostUp s) {lane : Fin 96} (hheld : s.rd Reg.TIM_LANE_STAT.state lane = 2)
    (htaken : s.rd Reg.TIM_LANE_REJ.taken lane ≠ 0) :
    let u := s.delayTaken lane (s.rd Reg.TIM_LANE_REJ.rt_cand lane)
    let r := u.raise 0x503 lane (s.rd Reg.TIM_LANE_REJ.rt_cand lane + 2 ^ 32 * u.rd Reg.LANE_CORR.asym lane)
    exec (.delayAccept lane) s = .next (match r.bs.laneEntry lane with | some e => r.checkDelay e | none => r) := by
  intro u r
  change execDelayAccept lane s = _
  unfold execDelayAccept
  rw [byHost_up hup]
  dsimp only
  rw [if_neg (by simp [hheld, htaken])]
  rfl

/-- A lane that is ACQUIRING again. -/
def State.delayDropped (s : State) (l : Nat) : State :=
  ((((s.wr Reg.TIM_LANE_STAT.state l 0).wr Reg.TIM_LANE_STAT.run l 0).modLane l (fun r => { r with trips := [] })).wr Reg.LANE_DELAY.held l 0).setHeldMap l false

theorem State.delayDropped_effect {s : State} (hw : tabWf 0 s.regs = true) {l : Nat} (hl : l < 8192) :
    let t := s.delayDropped l
    t.rd Reg.TIM_LANE_STAT.state l = 0 ∧ t.rd Reg.TIM_LANE_STAT.run l = 0 ∧ t.rd Reg.LANE_DELAY.held l = 0 ∧ Keeps 0x10010 s t ∧ Wrote (trackRegs l) s t
      ∧ t.lanes = (s.modLane l (fun r => { r with trips := [] })).lanes := by
  intro t
  let m := [(Reg.TIM_LANE_STAT.state, l, 0), (Reg.TIM_LANE_STAT.run, l, 0), (Reg.LANE_DELAY.held, l, 0)]
  let u := (((s.wr Reg.TIM_LANE_STAT.state l 0).wr Reg.TIM_LANE_STAT.run l 0).modLane l (fun r => { r with trips := [] })).wr Reg.LANE_DELAY.held l 0
  have hregs : u.regs = (s.wrAll m).regs := Proofs.wrAll_regs_congr (s := (s.wr Reg.TIM_LANE_STAT.state l 0).wr Reg.TIM_LANE_STAT.run l 0)
    (t := ((s.wr Reg.TIM_LANE_STAT.state l 0).wr Reg.TIM_LANE_STAT.run l 0).modLane l (fun r => { r with trips := [] })) rfl [(Reg.LANE_DELAY.held, l, 0)]
  have hread := State.rd_wrAll [Reg.TIM_LANE_STAT.state, Reg.TIM_LANE_STAT.run, Reg.LANE_DELAY.held] (l := m) rfl (by decide) hw (by simp [m, hl])
  have hu : Wrote (writtenRegs m) s u := (State.wrAll_wrote hw m).same hregs
  have hmap : Wrote heldMaps u t := (Wrote.refl hu.wf).setHeldMap l false fun _ hp => hp
  have hthrough : ∀ {f : Field}, (heldMaps.all fun p => p.1.place != f.place) = true → t.rd f l = (s.wrAll m).rd f l := fun hf =>
    (hmap.rd ⟨hf, hl, by decide⟩).trans (State.rd_congr hregs _ _)
  refine ⟨(hthrough (by decide)).trans (hread (Reg.TIM_LANE_STAT.state, l, 0) (by simp [m])),
    (hthrough (by decide)).trans (hread (Reg.TIM_LANE_STAT.run, l, 0) (by simp [m])),
    (hthrough (by decide)).trans (hread (Reg.LANE_DELAY.held, l, 0) (by simp [m])), ?_, ?_, ?_⟩
  · exact Keeps.trans (State.wr_keeps (by decide) (State.modLane_keeps (by decide) (State.wr_keeps (by decide) (State.wr_keeps (by decide) (.refl s)))))
      ((State.setHeldMap_keeps10 u l false).mono (by decide))
  · exact (hu.mono (by simp [m])).trans (hmap.mono (by simp +contextual))
  · exact (State.setHeldMap_keeps10 u l false).lanes.get (by decide)

theorem exec_laneReacquire {s : State} (hup : HostUp s) : exec .laneReacquire s = .next
    (match (s.delayDropped (s.rd Reg.TIM_LANE_SEL.lane 0)).bs.laneEntry (s.rd Reg.TIM_LANE_SEL.lane 0) with
      | some e => (s.delayDropped (s.rd Reg.TIM_LANE_SEL.lane 0)).checkDelay e
      | none => s.delayDropped (s.rd Reg.TIM_LANE_SEL.lane 0)) := by
  change execLaneReacquire s = _
  unfold execLaneReacquire
  rw [byHost_up hup]
  rfl

/-! ### The first peer delay (R360) -/

theorem State.port_setPort {s : State} (hw : tabWf Eth.reset s.eth = true) (p : Nat) (e : Eth) (n : Nat) :
    (s.setPort p e).port n = if n = p then e else s.port n := tabGet_tabSet hw

/-- The port once its first m has been taken. -/
def Eth.measured (e : Eth) : Eth := { e with delay := PtpMatch.clear, seen := true }

/-- What taking the first m of a port writes. -/
abbrev firstWrites (p : Nat) (m : Int) (seq : Nat) : List (Field × Nat × Nat) :=
  [(Reg.ETH_MPD_MEAS.m, p, wrapInt 32 m), (Reg.ETH_MPD_STAT.seq, p, seq), (Reg.ETH_MPD_ACC.m_acc, p, wrapInt 32 m),
    (Reg.ETH_STAT.mpd_valid, p, 1), (Reg.ETH_MPD_STAT.run, p, 0)]

theorem State.ptpMeasure_first {s : State} {p : Nat} (hseen : (s.port p).seen = false) (m : Int) (seq : Nat) :
    s.ptpMeasure p m seq = (s.wrAll (firstWrites p m seq)).setPort p { s.port p with seen := true } := by
  unfold State.ptpMeasure
  dsimp only
  rw [if_pos]
  · rfl
  · change (!(s.port p).seen) = true
    rw [hseen]
    rfl

/-- The port as a one-step Pdelay_Resp with body `b` and stamp `t` leaves it before m is formed. -/
def State.answered (s : State) (p : Nat) (b : List (BitVec 8)) (t : Nat) : Eth :=
  let d := (s.port p).delay
  { s.port p with delay := { d with t2 := some (s.ptpTime b 34), t3 := some (s.ptpTime b 34), t4 := some t, corr := d.corr + ptpCorr b } }

theorem State.ptpReceive_answer {s : State} {p : Nat} {b : List (BitVec 8)} (t : Nat) {t1 : Nat} (hen : s.flag Reg.ETH_CTRL.ptp_en p = true)
    (hpeer : s.ptpFromPeer p b = true) (htype : ptpType b = 3) (hone : ptpTwoStep b = false) (hseq : ptpSeq b = (s.port p).delay.seq)
    (ht1 : (s.port p).delay.t1 = some t1) : s.ptpReceive p b t = (s.setPort p (s.answered p b t)).ptpTry p := by
  unfold State.ptpReceive State.answered
  simp [hen, hpeer, htype, hone, hseq, ht1]

theorem State.ptpTry_answered {s : State} (hw : tabWf Eth.reset s.eth = true) {p : Nat} {b : List (BitVec 8)} (t : Nat) {t1 : Nat}
    (hmech : s.flag Reg.ETH_CTRL.mech p = true) (ht1 : (s.port p).delay.t1 = some t1) (hseen : (s.port p).seen = false) :
    let u := s.setPort p (s.answered p b t)
    let v := u.setPort p { s.answered p b t with delay := PtpMatch.clear }
    let m := Int.fdiv ((t : Int) - t1 - ((s.port p).delay.corr + ptpCorr b)) 2
    u.ptpTry p = (v.wrAll (firstWrites p m (s.port p).delay.seq)).setPort p (s.port p).measured := by
  intro u v m
  have hu : u.port p = s.answered p b t := (State.port_setPort hw p _ p).trans (if_pos rfl)
  have hv : v.port p = { s.answered p b t with delay := PtpMatch.clear } := (State.port_setPort (tabWf_tabSet hw) p _ p).trans (if_pos rfl)
  have hflag : u.flag Reg.ETH_CTRL.mech p = true := hmech
  have htry : u.ptpTry p = v.ptpMeasure p m (s.port p).delay.seq := by
    unfold State.ptpTry
    dsimp only
    rw [if_pos hflag, hu]
    unfold State.answered
    rw [ht1]
    dsimp only
    rw [Int.sub_self, Int.sub_zero]
    rfl
  have hunseen : (v.port p).seen = false := by
    rw [hv]
    exact hseen
  rw [htry, State.ptpMeasure_first hunseen, hv]
  rfl

theorem State.ethReceive_event {s : State} {p : Nat} {bytes : List (BitVec 8)} {phi buffer : Nat} {b : List (BitVec 8)}
    (henable : s.flag Reg.ETH_CTRL.enable p = true) (hmsg : ptpPayload (s.flag Reg.ETH_CTRL.transport p) bytes = some b)
    (hevent : ptpIsEvent b = true) :
    let t := (s.count Reg.ETH_TS_CNT.rx_event p).ptpReceive p b (timePlus (s.stamp phi) (signedOf 16 (s.rd Reg.ETH_LAT.rx p)))
    t.flag Reg.ETH_CTRL.rx_en p = false → s.ethReceive p bytes true phi buffer = t := by
  intro t hrx
  unfold State.ethReceive
  dsimp only
  rw [if_neg (by simp [henable]), if_neg (by decide), hmsg]
  dsimp only
  rw [if_pos hevent]
  exact if_pos (by rw [hrx]; rfl)

/-- The fields that a first m writes. -/
abbrev measuredRegs (p : Nat) : List (Field × Nat) := [(Reg.ETH_MPD_MEAS.m, p), (Reg.ETH_MPD_ACC.m_acc, p), (Reg.ETH_MPD_STAT.run, p),
  (Reg.ETH_MPD_STAT.seq, p), (Reg.ETH_STAT.mpd_valid, p), (Reg.ETH_TS_CNT.rx_event, p)]

theorem apart_measuredRegs {f : Field} {p : Nat} (hp : p < 8192)
    (hf : ((measuredRegs 0).map (·.1)).all (fun g => g.place != f.place) = true) : Apart f p (measuredRegs p) := by
  refine ⟨?_, hp, by simp [hp]⟩
  simpa only [List.map_cons, List.map_nil, List.all_cons, List.all_nil, Bool.and_true] using hf

/-- What taking the first m leaves: its fields, the port, and everything else. -/
theorem State.firstDelay_effect {s u : State} {p : Nat} (hp : p < 8192)
    (hu : Wrote [(Reg.ETH_TS_CNT.rx_event, p)] s u) (honly : Only [.regs, .eth] s u) (hport : tabWf Eth.reset u.eth = true)
    (hothers : ∀ n, n ≠ p → u.port n = s.port n) (m : Int) (seq : Nat) (e : Eth) :
    let t := (u.wrAll (firstWrites p m seq)).setPort p e
    t.rd Reg.ETH_MPD_MEAS.m p = wrapInt 32 m % 2 ^ 32 ∧ t.rd Reg.ETH_MPD_ACC.m_acc p = wrapInt 32 m % 2 ^ 32 ∧ t.rd Reg.ETH_MPD_STAT.run p = 0
      ∧ t.rd Reg.ETH_STAT.mpd_valid p = 1 ∧ t.rd Reg.ETH_MPD_STAT.seq p = seq % 2 ^ 16 ∧ t.port p = e ∧ (∀ n, n ≠ p → t.port n = s.port n)
      ∧ Only [.regs, .eth] s t ∧ Wrote (measuredRegs p) s t := by
  intro t
  have hwritten := State.wrAll_wrote hu.wf (firstWrites p m seq)
  have hread := State.rd_wrAll [Reg.ETH_MPD_MEAS.m, Reg.ETH_MPD_STAT.seq, Reg.ETH_MPD_ACC.m_acc, Reg.ETH_STAT.mpd_valid, Reg.ETH_MPD_STAT.run]
    (l := firstWrites p m seq) rfl (by decide) hu.wf (by simp [hp])
  have hkeeps : Keeps 0x810 u t := State.setPort_keeps (by decide) (State.wrAll_keeps (by decide) _ (.refl u))
  have hget : ∀ n, t.port n = if n = p then e else u.port n := fun n =>
    (State.port_setPort (s := u.wrAll (firstWrites p m seq)) (by rw [(State.wrAll_keeps (M := 0x10) (by decide) _ (.refl u)).eth.get (by decide)]; exact hport) p e n).trans
      (by unfold State.port; rw [(State.wrAll_keeps (M := 0x10) (by decide) _ (.refl u)).eth.get (by decide)])
  refine ⟨hread (Reg.ETH_MPD_MEAS.m, p, wrapInt 32 m) (by simp), hread (Reg.ETH_MPD_ACC.m_acc, p, wrapInt 32 m) (by simp),
    hread (Reg.ETH_MPD_STAT.run, p, 0) (by simp), hread (Reg.ETH_STAT.mpd_valid, p, 1) (by simp), hread (Reg.ETH_MPD_STAT.seq, p, seq) (by simp),
    (hget p).trans (if_pos rfl), fun n hn => ((hget n).trans (if_neg hn)).trans (hothers n hn), only_trans honly (hkeeps.only (by decide)), ?_⟩
  exact (hu.mono (by simp)).trans ((hwritten.mono (by simp)).same rfl)

end Sys2Proof.Machine

namespace Sys2Proof.Proofs

open Sys2Proof.Machine Sys2Proof.Safety

variable {s : State}

/-- The fields of a lane whose delay is taken or dropped. -/
abbrev laneRegs (l : Nat) : List (Field × Nat) := [(Reg.TIM_LANE_STAT.state, l), (Reg.TIM_LANE_STAT.run, l), (Reg.LANE_DELAY.held, l),
  (Reg.TIM_HELD_MAP0.held, 0), (Reg.TIM_HELD_MAP1.held, 0), (Reg.TIM_HELD_MAP2.held, 0), (Reg.LANE_DELAY.h, l),
  (Reg.LANE_DELAY.overLimit, l)] ++ eventRegs

/-- A field of a lane's tracker through the delay check. -/
theorem rd_checkDelay {t : State} {l : Nat} (hl : l < 8192) (ht : Wrote (delayRegs l) s t) {f : Field}
    (hf : ([Reg.LANE_DELAY.h, Reg.LANE_DELAY.overLimit] ++ eventRegs.map (·.1)).all (fun g => g.place != f.place) = true) : t.rd f l = s.rd f l := by
  refine ht.rd ⟨?_, hl, ?_⟩
  · have hmap : (delayRegs l).all (fun p => p.1.place != f.place) = ((delayRegs l).map (·.1)).all (fun g => g.place != f.place) := by
      rw [List.all_map]
      rfl
    rw [hmap]
    exact hf
  · intro p hp
    have hevents : ∀ p ∈ eventRegs, p.2 < 8192 := by decide
    rcases List.mem_append.mp hp with hp | hp
    · simp only [List.mem_cons, List.not_mem_nil, or_false] at hp
      rcases hp with rfl | rfl <;> exact hl
    · exact hevents p hp

theorem delayAccept_effect (hs : Sound s) (lane : Fin 96) (hup : HostUp s) (hheld : s.rd Reg.TIM_LANE_STAT.state lane = 2)
    (htaken : s.rd Reg.TIM_LANE_REJ.taken lane ≠ 0) :
    let l : Nat := lane
    let v := s.rd Reg.TIM_LANE_REJ.rt_cand l
    let asym := s.rd Reg.LANE_CORR.asym l
    let h := (Int.fdiv ((v % 2 ^ 24 : Nat) + signedOf 16 asym) 2).toNat
    ∃ t, exec (.delayAccept lane) s = .next t ∧ t.rd Reg.TIM_LANE_ACC.rt_acc l = v % 2 ^ 24 ∧ t.rd Reg.TIM_LANE_STAT.state l = 1
      ∧ t.rd Reg.TIM_LANE_STAT.run l = 0 ∧ t.rd Reg.LANE_DELAY.held l = 0
      ∧ (s.bs.laneEntry l = none → Reports s t 0x503 l (v + 2 ^ 32 * asym))
      ∧ (∀ e, s.bs.laneEntry l = some e → t.rd Reg.LANE_DELAY.h l = h % 2 ^ 24
          ∧ (h ≤ e.dmax ∨ s.flag Reg.LANE_DELAY.overLimit l = true → Reports s t 0x503 l (v + 2 ^ 32 * asym)))
      ∧ Only eventParts s t ∧ RegsBut ((Reg.TIM_LANE_ACC.rt_acc, l) :: laneRegs l) s t := by
  intro l v asym h
  have hl : l < 8192 := Nat.lt_trans lane.isLt (by decide)
  have hexec := exec_delayAccept hup hheld htaken
  obtain ⟨hacc, hstate, hrun, hnone, hku, hu⟩ := State.delayTaken_effect hs.regs hl v
  have hasym : (s.delayTaken l v).rd Reg.LANE_CORR.asym l = asym := hu.rd (apart_takenRegs hl hl (by decide))
  dsimp only at hexec
  rw [hasym] at hexec
  have hreports : Reports s ((s.delayTaken l v).raise 0x503 l (v + 2 ^ 32 * asym)) 0x503 l (v + 2 ^ 32 * asym) :=
    hu.reports _ _ (by decide) (apart_takenRegs (by decide) hl (by decide)) (hku.evq.get (by decide)) (by rw [hku.epo.get (by decide)]) (hku.clk.get (by decide))
  have hr : Wrote (takenRegs l ++ eventRegs) s ((s.delayTaken l v).raise 0x503 l (v + 2 ^ 32 * asym)) :=
    (hu.mono fun _ hp => List.mem_append_left _ hp).raise _ _ _ (eventRegs_end _)
  have hkr : Keeps 0x512 s ((s.delayTaken l v).raise 0x503 l (v + 2 ^ 32 * asym)) := State.raise_keeps (by decide) (hku.mono (by decide))
  have hthrough : ∀ {f : Field}, (eventRegs.all fun p => p.1.place != f.place) = true →
      ((s.delayTaken l v).raise 0x503 l (v + 2 ^ 32 * asym)).rd f l = (s.delayTaken l v).rd f l := fun hf =>
    State.rd_raise hu.wf _ _ _ (apart_eventRegs _ hl hf).notMem
  have haccr := (hthrough (by decide)).trans hacc
  have hstater := (hthrough (by decide)).trans hstate
  have hrunr := (hthrough (by decide)).trans hrun
  have hnoner := (hthrough (by decide)).trans hnone
  have hasymr : ((s.delayTaken l v).raise 0x503 l (v + 2 ^ 32 * asym)).rd Reg.LANE_CORR.asym l = asym := (hthrough (by decide)).trans hasym
  have hoverr : ((s.delayTaken l v).raise 0x503 l (v + 2 ^ 32 * asym)).flag Reg.LANE_DELAY.overLimit l = s.flag Reg.LANE_DELAY.overLimit l := by
    unfold State.flag
    rw [hthrough (by decide), hu.rd (apart_takenRegs hl hl (by decide))]
  generalize (s.delayTaken l v).raise 0x503 l (v + 2 ^ 32 * asym) = r at *
  have hbs : r.bs = s.bs := hkr.bs.get (by decide)
  cases hentry : s.bs.laneEntry l with
  | none =>
    have hend : exec (.delayAccept lane) s = .next r := by
      rw [hexec, hbs, hentry]
    exact ⟨r, hend, haccr, hstater, hrunr, hnoner, fun _ => hreports, fun e he => absurd he nofun, hkr.only (by decide),
      (hr.mono (by simp +contextual)).but⟩
  | some e =>
    have hlane : e.lane = l := BitStream.laneEntry_lane hentry
    have hend : exec (.delayAccept lane) s = .next (r.checkDelay e) := by
      rw [hexec, hbs, hentry]
    have hdelay : r.laneDelay e = h := by
      unfold State.laneDelay
      rw [hlane, hstater, if_neg (by decide), haccr, hasymr]
    obtain ⟨hshown, hwrote, hkeeps, hquiet⟩ := State.checkDelay_effect hr.wf (e := e) (hlane ▸ hl)
    rw [hlane] at hshown hwrote hquiet
    rw [hdelay] at hshown hquiet
    refine ⟨_, hend, (rd_checkDelay hl hwrote (by decide)).trans haccr, (rd_checkDelay hl hwrote (by decide)).trans hstater,
      (rd_checkDelay hl hwrote (by decide)).trans hrunr, (rd_checkDelay hl hwrote (by decide)).trans hnoner, fun he => absurd he nofun, fun e' he => ?_,
      (hkr.trans hkeeps).only (by decide), (Wrote.trans (hr.mono (by simp +contextual)) (hwrote.mono (by simp +contextual))).but⟩
    obtain rfl := Option.some.inj he
    exact ⟨hshown, fun hcalm => reports_then hreports (hquiet (hcalm.imp id (hoverr.trans ·)))⟩

theorem delayAccept_else (lane : Fin 96) (h : s.rd Reg.TIM_LANE_STAT.state lane ≠ 2 ∨ s.rd Reg.TIM_LANE_REJ.taken lane = 0) :
    exec (.delayAccept lane) s = .next s := by
  change execDelayAccept lane s = _
  unfold execDelayAccept byHost
  dsimp only
  rw [if_pos h, ite_self]

theorem laneReacquire_effect (hs : Sound s) (lane : Fin 96) (hup : HostUp s) (hsel : s.rd Reg.TIM_LANE_SEL.lane 0 = lane.val) :
    let l : Nat := lane
    ∃ t, exec .laneReacquire s = .next t ∧ t.rd Reg.TIM_LANE_STAT.state l = 0 ∧ t.rd Reg.TIM_LANE_STAT.run l = 0
      ∧ t.rd Reg.LANE_DELAY.held l = 0 ∧ (∀ e, s.bs.laneEntry l = some e → t.rd Reg.LANE_DELAY.h l = e.dmax % 2 ^ 24)
      ∧ t.lane l = { s.lane l with trips := [] } ∧ (∀ n, n ≠ l → t.lane n = s.lane n)
      ∧ Only (.lanes :: eventParts) s t ∧ RegsBut (laneRegs l) s t := by
  intro l
  have hl : l < 8192 := Nat.lt_trans lane.isLt (by decide)
  have hexec := exec_laneReacquire hup
  rw [hsel] at hexec
  obtain ⟨hstate, hrun, hnone, hku, hu, hlanes⟩ := State.delayDropped_effect hs.regs hl
  have htable : ∀ {t : State}, t.lanes = (s.delayDropped l).lanes → t.lane l = { s.lane l with trips := [] } ∧ ∀ n, n ≠ l → t.lane n = s.lane n :=
    fun {t} ht => by
    have hlane : ∀ n, t.lane n = (s.modLane l (fun r => { r with trips := [] })).lane n := fun n => by
      unfold State.lane
      rw [ht, hlanes]
    have hget : ∀ n, (s.modLane l (fun r => { r with trips := [] })).lane n = if n = l then { s.lane l with trips := [] } else s.lane n := fun n =>
      tabGet_tabSet hs.lanes
    exact ⟨(hlane l).trans ((hget l).trans (if_pos rfl)), fun n hn => (hlane n).trans ((hget n).trans (if_neg hn))⟩
  change exec .laneReacquire s = .next (match (s.delayDropped l).bs.laneEntry l with
    | some e => (s.delayDropped l).checkDelay e
    | none => s.delayDropped l) at hexec
  generalize s.delayDropped l = u at *
  have hbs : u.bs = s.bs := hku.bs.get (by decide)
  cases hentry : s.bs.laneEntry l with
  | none =>
    have hend : exec .laneReacquire s = .next u := by
      rw [hexec, hbs, hentry]
    obtain ⟨hthis, hothers⟩ := htable (t := u) rfl
    exact ⟨u, hend, hstate, hrun, hnone, fun e he => absurd he nofun, hthis, hothers, hku.only (by decide), (hu.mono (by simp +contextual)).but⟩
  | some e =>
    have hlane : e.lane = l := BitStream.laneEntry_lane hentry
    have hend : exec .laneReacquire s = .next (u.checkDelay e) := by
      rw [hexec, hbs, hentry]
    have hdelay : u.laneDelay e = e.dmax := by
      unfold State.laneDelay
      rw [hlane, hstate, if_pos rfl]
    obtain ⟨hshown, hwrote, hkeeps, -⟩ := State.checkDelay_effect hu.wf (e := e) (hlane ▸ hl)
    rw [hlane] at hshown hwrote
    rw [hdelay] at hshown
    obtain ⟨hthis, hothers⟩ := htable (hkeeps.lanes.get (by decide))
    have hall : Keeps 0x10512 s (u.checkDelay e) := (hku.mono (by decide)).trans (hkeeps.mono (by decide))
    refine ⟨_, hend, (rd_checkDelay hl hwrote (by decide)).trans hstate, (rd_checkDelay hl hwrote (by decide)).trans hrun,
      (rd_checkDelay hl hwrote (by decide)).trans hnone, fun e' he => ?_, hthis, hothers, hall.only (by decide),
      (Wrote.trans (hu.mono (by simp +contextual)) (hwrote.mono (by simp +contextual))).but⟩
    obtain rfl := Option.some.inj he
    exact hshown

/-- What MPD_ACCEPT writes. -/
abbrev acceptWrites (s : State) (p : Nat) : List (Field × Nat × Nat) :=
  [(Reg.ETH_MPD_ACC.m_acc, p, s.rd Reg.ETH_MPD_MEAS.m p), (Reg.ETH_STAT.mpd_valid, p, 1), (Reg.ETH_STAT.held, p, 0), (Reg.ETH_MPD_STAT.run, p, 0),
    (Reg.TIM_STAT.ptp_held, 0, bitSet (s.rd Reg.TIM_STAT.ptp_held 0) p false)]

theorem mpdAccept_effect (hs : Sound s) (port : Fin 2) (hup : HostUp s) :
    let m := s.rd Reg.ETH_MPD_MEAS.m port
    ∃ t, exec (.mpdAccept port) s = .next t ∧ t.rd Reg.ETH_MPD_ACC.m_acc port = m % 2 ^ 32 ∧ t.rd Reg.ETH_STAT.mpd_valid port = 1
      ∧ t.rd Reg.ETH_STAT.held port = 0 ∧ t.rd Reg.ETH_MPD_STAT.run port = 0 ∧ t.bitAt Reg.TIM_STAT.ptp_held 0 port = false
      ∧ Reports s t 0x507 port m ∧ Only eventParts s t
      ∧ RegsBut ([(Reg.ETH_MPD_ACC.m_acc, port.val), (Reg.ETH_STAT.mpd_valid, port.val), (Reg.ETH_STAT.held, port.val),
          (Reg.ETH_MPD_STAT.run, port.val), (Reg.TIM_STAT.ptp_held, 0)] ++ eventRegs) s t := by
  intro m
  have hp : port.val < 8192 := Nat.lt_trans port.isLt (by decide)
  let l := acceptWrites s port
  have hunits : ∀ x ∈ l, x.2.1 < 8192 := by simp [l, hp]
  have hfour := State.wrAll_wrote hs.regs (l.take 4)
  have hheld : (s.wrAll (l.take 4)).rd Reg.TIM_STAT.ptp_held 0 = s.rd Reg.TIM_STAT.ptp_held 0 :=
    hfour.rd ⟨by simp only [l, List.take, List.map_cons, List.map_nil, List.all_cons, List.all_nil, Bool.and_true]; decide, by decide,
      by simp [l, hp]⟩
  have hset : (s.wrAll (l.take 4)).setBit Reg.TIM_STAT.ptp_held 0 port false = s.wrAll l := by
    rw [State.setBit_eq, hheld]
    rfl
  have hexec : exec (.mpdAccept port) s = .next ((s.wrAll l).raise 0x507 port m) := by
    rw [← hset]
    change execMpdAccept port s = _
    unfold execMpdAccept
    rw [byHost_up hup]
    rfl
  have hkeeps : Keeps 0x10 s (s.wrAll l) := State.wrAll_keeps (by decide) l (.refl s)
  obtain ⟨hreports, hwrote, hread⟩ := State.raise_after
    [Reg.ETH_MPD_ACC.m_acc, Reg.ETH_STAT.mpd_valid, Reg.ETH_STAT.held, Reg.ETH_MPD_STAT.run, Reg.TIM_STAT.ptp_held] (l := l) (u := s.wrAll l)
    (code := 0x507) rfl (by decide) hs.regs hunits rfl (hkeeps.evq.get (by decide)) (congrArg Epo.k (hkeeps.epo.get (by decide)))
    (hkeeps.clk.get (by decide)) (by decide) port m
  have hbit := hread (Reg.TIM_STAT.ptp_held, 0, bitSet (s.rd Reg.TIM_STAT.ptp_held 0) port false) (by simp [l])
  have hall : Keeps 0x512 s ((s.wrAll l).raise 0x507 port m) := State.raise_keeps (by decide) (hkeeps.mono (by decide))
  refine ⟨_, hexec, hread (Reg.ETH_MPD_ACC.m_acc, port.val, m) (by simp [l, m]), hread (Reg.ETH_STAT.mpd_valid, port.val, 1) (by simp [l]),
    hread (Reg.ETH_STAT.held, port.val, 0) (by simp [l]), hread (Reg.ETH_MPD_STAT.run, port.val, 0) (by simp [l]), State.bitAt_of_rd hbit ?_, hreports,
    hall.only (by decide), hwrote.but⟩
  exact Nat.lt_of_lt_of_le port.isLt (by decide)

theorem wrapInt_mod (m : Int) : wrapInt 32 m % 2 ^ 32 = (m.emod (2 ^ 32)).toNat := by
  have hnonneg := Int.emod_nonneg m (show (2 ^ 32 : Int) ≠ 0 by decide)
  have hlt := Int.emod_lt_of_pos m (show (0 : Int) < 2 ^ 32 by decide)
  have hwrap : wrapInt 32 m = (m.emod (2 ^ 32)).toNat := rfl
  rw [hwrap]
  exact Nat.mod_eq_of_lt ((Int.toNat_lt hnonneg).mpr hlt)

theorem firstDelay_effect (hs : Sound s) (port : Fin 2) (bytes : List (BitVec 8)) (phi : Fin 32) (buffer : Nat) (msg : List (BitVec 8)) (t1 : Nat)
    (henable : s.flag Reg.ETH_CTRL.enable port = true) (hrx : s.flag Reg.ETH_CTRL.rx_en port = false)
    (hen : s.flag Reg.ETH_CTRL.ptp_en port = true) (hmech : s.flag Reg.ETH_CTRL.mech port = true)
    (hmsg : ptpPayload (s.flag Reg.ETH_CTRL.transport port) bytes = some msg) (hpeer : s.ptpFromPeer port msg = true) (htype : ptpType msg = 3)
    (hone : ptpTwoStep msg = false) (hseq : ptpSeq msg = (s.port port).delay.seq) (ht1 : (s.port port).delay.t1 = some t1)
    (hseen : (s.port port).seen = false) :
    let p : Nat := port
    let t4 := timePlus (s.stamp phi) (signedOf 16 (s.rd Reg.ETH_LAT.rx p))
    let m := Int.fdiv ((t4 : Int) - t1 - ((s.port p).delay.corr + ptpCorr msg)) 2
    ∃ t, exec (.ethRxFrame port bytes true phi buffer) s = .next t ∧ t.rd Reg.ETH_MPD_MEAS.m p = (m.emod (2 ^ 32)).toNat
      ∧ t.rd Reg.ETH_MPD_ACC.m_acc p = (m.emod (2 ^ 32)).toNat ∧ t.rd Reg.ETH_MPD_STAT.run p = 0
      ∧ t.rd Reg.ETH_STAT.mpd_valid p = 1 ∧ t.rd Reg.ETH_MPD_STAT.seq p = ptpSeq msg % 2 ^ 16 ∧ (t.port p).seen = true
      ∧ (t.port p).delay = PtpMatch.clear ∧ (t.port p).sync = (s.port p).sync ∧ (∀ n, n ≠ p → t.port n = s.port n)
      ∧ Only [.regs, .eth] s t ∧ RegsBut (measuredRegs p) s t := by
  intro p t4 m
  have hp : p < 8192 := Nat.lt_trans port.isLt (by decide)
  let c := s.count Reg.ETH_TS_CNT.rx_event p
  have hc : Wrote [(Reg.ETH_TS_CNT.rx_event, p)] s c := (Wrote.refl hs.regs).count List.mem_cons_self
  have hread : ∀ {f : Field}, (Reg.ETH_TS_CNT.rx_event.place != f.place) = true → c.rd f p = s.rd f p := fun hf => hc.rd (apart_sole _ _ hp hp hf)
  have hflag : ∀ {f : Field}, (Reg.ETH_TS_CNT.rx_event.place != f.place) = true → c.flag f p = s.flag f p := fun hf => by
    unfold State.flag
    rw [hread hf]
  have hpeerc : c.ptpFromPeer p msg = true := by
    unfold State.ptpFromPeer at hpeer ⊢
    rw [hread (by decide), hread (by decide), hread (by decide), hread (by decide)]
    exact hpeer
  let u := (c.setPort p (c.answered p msg t4)).setPort p { c.answered p msg t4 with delay := PtpMatch.clear }
  have hreceive : c.ptpReceive p msg t4 = (u.wrAll (firstWrites p m (s.port p).delay.seq)).setPort p (s.port p).measured := by
    rw [State.ptpReceive_answer t4 ((hflag (by decide)).trans hen) hpeerc htype hone hseq ht1]
    exact State.ptpTry_answered (s := c) hs.eth t4 ((hflag (by decide)).trans hmech) ht1 hseen
  have hu : Wrote [(Reg.ETH_TS_CNT.rx_event, p)] s u := hc.same rfl
  have honly : Only [.regs, .eth] s u :=
    (State.setPort_keeps (M := 0x810) (by decide) (State.setPort_keeps (by decide) (State.count_keeps (by decide) (.refl s)))).only (by decide)
  have hothers : ∀ n, n ≠ p → u.port n = s.port n := fun n hn =>
    ((State.port_setPort (s := c.setPort p (c.answered p msg t4)) (tabWf_tabSet hs.eth) p _ n).trans (if_neg hn)).trans
      ((State.port_setPort (s := c) hs.eth p _ n).trans (if_neg hn))
  obtain ⟨hmeas, hacc, hrun, hvalid, hshown, hport, hrest, hpart, hwrote⟩ := State.firstDelay_effect hp hu honly
    (tabWf_tabSet (tabWf_tabSet hs.eth)) hothers m (s.port p).delay.seq (s.port p).measured
  have hevent : ptpIsEvent msg = true := by
    unfold ptpIsEvent
    rw [htype]
    rfl
  have hend := State.ethReceive_event (buffer := buffer) (phi := phi) henable hmsg hevent
  change _ → _ = c.ptpReceive p msg t4 at hend
  rw [hreceive] at hend
  have hexec : exec (.ethRxFrame port bytes true phi buffer) s = .next (s.ethReceive p bytes true phi buffer) := rfl
  generalize (u.wrAll (firstWrites p m (s.port p).delay.seq)).setPort p (s.port p).measured = t at *
  have hoff : t.flag Reg.ETH_CTRL.rx_en p = false := by
    unfold State.flag
    rw [hwrote.rd (apart_measuredRegs hp (by decide))]
    exact hrx
  rw [hend hoff] at hexec
  refine ⟨t, hexec, hmeas.trans (wrapInt_mod m), hacc.trans (wrapInt_mod m), hrun, hvalid, hseq ▸ hshown, ?_, ?_, ?_, hrest, hpart, hwrote.but⟩
  · rw [hport]
    rfl
  · rw [hport]
    rfl
  · rw [hport]
    rfl

/-- Settles O48: a tracker that takes or drops its delay writes its own fields, and the delay shown is read back behind the event; the first
m of a port is formed from one answer. -/
theorem measuredDelays : Obligations.MeasuredDelays := by
  unfold Obligations.MeasuredDelays
  intro s hs
  refine ⟨fun lane => ⟨delayAccept_effect hs lane, delayAccept_else lane, laneReacquire_effect hs lane⟩, fun port => mpdAccept_effect hs port, ?_⟩
  intro port bytes phi buffer msg t1 p d t4 m henable hrx hen hmech hmsg hpeer htype hone hseq ht1 hseen
  exact firstDelay_effect hs port bytes phi buffer msg t1 henable hrx hen hmech hmsg hpeer htype hone hseq ht1 hseen

end Sys2Proof.Proofs

/-! ## Ethernet frames (R358, R359, R369) -/

namespace Sys2Proof.Machine

open Sys2Proof.Safety

/-! ### Causes of the low register (R480) -/

theorem Wrote.sendVector {m : List (Field × Nat)} {s t : State} (h : Wrote m s t) (v : Nat) : Wrote m s (t.sendVector v) :=
  .ite (h.same rfl) (h.same rfl)

theorem Wrote.signalLow {m : List (Field × Nat)} {s t : State} (h : Wrote m s t) {v : Nat} (hv : v < 32) (hm : (Reg.GLB_IRQ_STAT0.cause, 0) ∈ m) :
    Wrote m s (t.signal v) := by
  have hbit : Wrote m s (if v < 32 then t.setBit Reg.GLB_IRQ_STAT0.cause 0 v true else t.setBit Reg.GLB_IRQ_STAT1.cause 0 (v - 32) true) := by
    rw [if_pos hv]
    exact h.setBit v true hm
  exact .ite (hbit.sendVector v) hbit

/-- A field beside fields of one unit. -/
theorem apart_sameUnit {f : Field} {i p : Nat} (hi : i < 8192) (hp : p < 8192) (fs : List Field) (hf : (fs.all fun g => g.place != f.place) = true) :
    Apart f i (fs.map (fun g => (g, p))) := by
  refine ⟨by rwa [List.all_map], hi, fun x hx => ?_⟩
  obtain ⟨g, -, rfl⟩ := List.mem_map.mp hx
  exact hp

/-! ### Station times with a correction -/

theorem timePlus_eq (t : Nat) (d : Int) : timePlus t d = (((t : Int) + d).emod (2 ^ 64)).toNat := rfl

/-! ### The receive ring (R359) -/

/-- The state with a received frame and its descriptor in host memory. -/
def State.frameWritten (s : State) (p : Nat) (bs : List (BitVec 8)) (t buffer flags : Nat) : State :=
  (s.hostStore buffer bs).hostStore
    (s.rd Reg.ETH_RXR_BASE_LO.base_lo p * 4096 + s.rd Reg.ETH_RXR_BASE_HI.base_hi p * 2 ^ 32 + s.rd Reg.ETH_RXR_HEAD.head p * 16)
    (bytesLE 8 t ++ bytesLE 2 bs.length ++ bytesLE 1 flags ++ bytesLE 5 0)

theorem State.frameWritten_keeps (s : State) (p : Nat) (bs : List (BitVec 8)) (t buffer flags : Nat) : Keeps 0x400 s (s.frameWritten p bs t buffer flags) :=
  State.hostStore_keeps (by decide) (State.hostStore_keeps (by decide) (.refl s))

theorem State.frameWritten_regs (s : State) (p : Nat) (bs : List (BitVec 8)) (t buffer flags : Nat) : (s.frameWritten p bs t buffer flags).regs = s.regs :=
  (s.frameWritten_keeps p bs t buffer flags).regs.get (by decide)

/-- The head moved on and the frame counted. -/
theorem State.received_effect {s u : State} (hw : tabWf 0 s.regs = true) (hu : u.regs = s.regs) {p : Nat} (hp : p < 8192) (h : Nat) :
    let t := (u.wr Reg.ETH_RXR_HEAD.head p h).count Reg.ETH_RX_CNT.frames p
    t.rd Reg.ETH_IRQ_CTRL.rx_coalesce p = s.rd Reg.ETH_IRQ_CTRL.rx_coalesce p ∧ t.rd Reg.ETH_RXR_HEAD.head p = h % 2 ^ 12
      ∧ t.rd Reg.ETH_RX_CNT.frames p = min (s.rd Reg.ETH_RX_CNT.frames p + 1) (2 ^ Reg.ETH_RX_CNT.frames.width - 1)
      ∧ Wrote [(Reg.ETH_RXR_HEAD.head, p), (Reg.ETH_RX_CNT.frames, p)] s t := by
  intro t
  have hsame : Wrote [] s u := (Wrote.refl hw).same hu
  have hhead : Wrote [(Reg.ETH_RXR_HEAD.head, p)] s (u.wr Reg.ETH_RXR_HEAD.head p h) := (hsame.mono nofun).wr h List.mem_cons_self
  have hcount : Wrote [(Reg.ETH_RX_CNT.frames, p)] (u.wr Reg.ETH_RXR_HEAD.head p h) t := (Wrote.refl hhead.wf).count List.mem_cons_self
  have hall : Wrote [(Reg.ETH_RXR_HEAD.head, p), (Reg.ETH_RX_CNT.frames, p)] s t := (hhead.mono (by simp)).trans (hcount.mono (by simp))
  refine ⟨hall.rd (apart_sameUnit hp hp [Reg.ETH_RXR_HEAD.head, Reg.ETH_RX_CNT.frames] (by decide)), ?_, ?_, hall⟩
  · exact (hcount.rd (apart_sole _ _ hp hp (by decide))).trans (State.rd_wr_self _ _ _ hsame.wf)
  · have hsaturated := State.rd_count_self (s := u.wr Reg.ETH_RXR_HEAD.head p h) Reg.ETH_RX_CNT.frames p hhead.wf
    rw [hhead.rd (apart_sole _ _ hp hp (by decide))] at hsaturated
    exact hsaturated

/-- What the port does once a frame stands in its ring (ETH_IRQ_CTRL). -/
def State.ringMoved (s : State) (p : Nat) : State :=
  let e := s.port p
  if s.rd Reg.ETH_IRQ_CTRL.rx_coalesce p ≤ e.rxSince + 1 then (s.setPort p { e with rxSince := 0, ringFull := false }).signal (6 + 2 * p)
  else s.setPort p { e with rxSince := e.rxSince + 1, ringFull := false }

theorem State.frameWritten_mem (s : State) (p : Nat) (bs : List (BitVec 8)) (t buffer flags : Nat) : (s.frameWritten p bs t buffer flags).host.mem
    = tabSetList 0 (tabSetList 0 s.host.mem buffer bs)
      (s.rd Reg.ETH_RXR_BASE_LO.base_lo p * 4096 + s.rd Reg.ETH_RXR_BASE_HI.base_hi p * 2 ^ 32 + s.rd Reg.ETH_RXR_HEAD.head p * 16)
      (bytesLE 8 t ++ bytesLE 2 bs.length ++ bytesLE 1 flags ++ bytesLE 5 0) := by
  unfold State.frameWritten State.hostStore
  dsimp only

theorem State.frameWritten_rd (s : State) (p : Nat) (bs : List (BitVec 8)) (t buffer flags : Nat) (f : Field) (i : Nat) :
    (s.frameWritten p bs t buffer flags).rd f i = s.rd f i := by
  unfold State.rd
  rw [State.frameWritten_regs]

theorem State.ethStore_eq (s : State) (p : Nat) (bs : List (BitVec 8)) (t buffer flags : Nat) : s.ethStore p bs t buffer flags =
    (((s.frameWritten p bs t buffer flags).wr Reg.ETH_RXR_HEAD.head p
      ((s.rd Reg.ETH_RXR_HEAD.head p + 1) % 2 ^ s.rd Reg.ETH_RXR_SIZE.log2 p)).count Reg.ETH_RX_CNT.frames p).ringMoved p := by
  rw [← State.frameWritten_rd s p bs t buffer flags Reg.ETH_RXR_SIZE.log2 p]
  unfold State.ethStore State.frameWritten State.ringMoved
  rfl

theorem State.ringMoved_effect {s : State} (hw : tabWf 0 s.regs = true) (heth : tabWf Eth.reset s.eth = true) {p : Nat} (hp : p < 2) :
    let u := s.ringMoved p
    u.host.mem = s.host.mem ∧ (∃ n, u.port p = { s.port p with rxSince := n, ringFull := false }) ∧ (∀ n, n ≠ p → u.port n = s.port n)
      ∧ Keeps 0xc12 s u ∧ Wrote [(Reg.GLB_IRQ_STAT0.cause, 0)] s u := by
  have hport : ∀ (e : Eth) n, (s.setPort p e).port n = if n = p then e else s.port n := State.port_setPort heth p
  have hset : ∀ e : Eth, Wrote [(Reg.GLB_IRQ_STAT0.cause, 0)] s (s.setPort p e) := fun e => (Wrote.refl hw).same rfl
  have hkept : ∀ e : Eth, Keeps 0xc12 s (s.setPort p e) := fun e => State.setPort_keeps (by decide) (.refl s)
  unfold State.ringMoved
  dsimp only
  split
  case isTrue =>
    have hports : ∀ (u : State) n, (u.signal (6 + 2 * p)).port n = u.port n := fun u n => by
      unfold State.port
      rw [State.signal_eth]
    exact ⟨State.signal_mem _ _, ⟨0, (hports _ p).trans ((hport _ p).trans (if_pos rfl))⟩,
      fun n hn => (hports _ n).trans ((hport _ n).trans (if_neg hn)), State.signal_keeps (by decide) (hkept _),
      (hset _).signalLow (v := 6 + 2 * p) (by omega) List.mem_cons_self⟩
  case isFalse => exact ⟨rfl, ⟨_, (hport _ p).trans (if_pos rfl)⟩, fun n hn => (hport _ n).trans (if_neg hn), hkept _, hset _⟩

/-- The registers that a frame of the receive ring shows. -/
abbrev receivedRegs (p : Nat) : List (Field × Nat) := [(Reg.ETH_RXR_HEAD.head, p), (Reg.ETH_RX_CNT.frames, p), (Reg.GLB_IRQ_STAT0.cause, 0)]

theorem apart_receivedRegs {f : Field} {i p : Nat} (hi : i < 8192) (hp : p < 8192)
    (hf : ((receivedRegs 0).map (·.1)).all (fun g => g.place != f.place) = true) : Apart f i (receivedRegs p) := by
  refine ⟨?_, hi, by simp [hp]⟩
  simpa only [List.map_cons, List.map_nil, List.all_cons, List.all_nil, Bool.and_true] using hf

theorem State.ethStore_effect {s : State} (hw : tabWf 0 s.regs = true) (heth : tabWf Eth.reset s.eth = true) {p : Nat} (hp : p < 2)
    (bs : List (BitVec 8)) (t buffer flags : Nat) :
    let u := s.ethStore p bs t buffer flags
    u.host.mem = (s.frameWritten p bs t buffer flags).host.mem
      ∧ u.rd Reg.ETH_RXR_HEAD.head p = (s.rd Reg.ETH_RXR_HEAD.head p + 1) % 2 ^ s.rd Reg.ETH_RXR_SIZE.log2 p % 2 ^ 12
      ∧ u.rd Reg.ETH_RX_CNT.frames p = min (s.rd Reg.ETH_RX_CNT.frames p + 1) (2 ^ Reg.ETH_RX_CNT.frames.width - 1)
      ∧ (∃ n, u.port p = { s.port p with rxSince := n, ringFull := false }) ∧ (∀ n, n ≠ p → u.port n = s.port n)
      ∧ Keeps 0xc12 s u ∧ Wrote (receivedRegs p) s u := by
  have hp' : p < 8192 := Nat.lt_trans hp (by decide)
  rw [State.ethStore_eq]
  generalize hh : (s.rd Reg.ETH_RXR_HEAD.head p + 1) % 2 ^ s.rd Reg.ETH_RXR_SIZE.log2 p = h
  have hkeeps : Keeps 0x410 s (((s.frameWritten p bs t buffer flags).wr Reg.ETH_RXR_HEAD.head p h).count Reg.ETH_RX_CNT.frames p) :=
    State.count_keeps (by decide) (State.wr_keeps (by decide) ((State.frameWritten_keeps s p bs t buffer flags).mono (by decide)))
  obtain ⟨-, hhead, hcount, hwrote⟩ := State.received_effect hw (State.frameWritten_regs s p bs t buffer flags) hp' h
  have hmem : (((s.frameWritten p bs t buffer flags).wr Reg.ETH_RXR_HEAD.head p h).count Reg.ETH_RX_CNT.frames p).host.mem
      = (s.frameWritten p bs t buffer flags).host.mem := rfl
  generalize ((s.frameWritten p bs t buffer flags).wr Reg.ETH_RXR_HEAD.head p h).count Reg.ETH_RX_CNT.frames p = u at *
  have heq : u.eth = s.eth := hkeeps.eth.get (by decide)
  have hports : u.port = s.port := by
    unfold State.port
    rw [heq]
  obtain ⟨hmoved, hport, hothers, hkept, hcause⟩ := State.ringMoved_effect hwrote.wf (heq ▸ heth) hp
  rw [hports] at hport hothers
  refine ⟨hmoved.trans hmem, (hcause.rd (apart_sole _ _ hp' (by decide) (by decide))).trans hhead,
    (hcause.rd (apart_sole _ _ hp' (by decide) (by decide))).trans hcount, hport, hothers, (hkeeps.mono (by decide)).trans hkept, ?_⟩
  exact (hwrote.mono (by simp +contextual)).trans (hcause.mono (by simp))

theorem exec_ethRxFrame_plain {s : State} {port : Fin 2} {bytes : List (BitVec 8)} {phi : Fin 32} {buffer : Nat}
    (henable : s.flag Reg.ETH_CTRL.enable port = true) (hrx : s.flag Reg.ETH_CTRL.rx_en port = true)
    (hplain : ptpPayload (s.flag Reg.ETH_CTRL.transport port) bytes = none) (hpass : s.ethPasses port bytes = true)
    (hmay : s.mayRequest = true) (hroom : s.rd Reg.ETH_RXR_HEAD.head port ≠ s.rd Reg.ETH_RXR_TAIL.tail port) :
    exec (.ethRxFrame port bytes true phi buffer) s = .next (s.ethStore port bytes (timePlus (s.stamp phi) (signedOf 16 (s.rd Reg.ETH_LAT.rx port)))
      buffer (1 + 4 * bit (beNat bytes 12 2 == 0x8100))) := by
  have hexec : exec (.ethRxFrame port bytes true phi buffer) s = .next (s.ethReceive port bytes true phi buffer) := rfl
  rw [hexec]
  unfold State.ethReceive
  simp [henable, hrx, hplain, hpass, hmay, hroom, bit]

/-! ### The transmit ring (R358) -/

/-- The state with the descriptor at the head of the transmit ring written back. -/
def State.descriptorWritten (s : State) (p stamp len flags : Nat) : State :=
  s.hostStore (s.rd Reg.ETH_TXR_BASE_LO.base_lo p * 4096 + s.rd Reg.ETH_TXR_BASE_HI.base_hi p * 2 ^ 32 + s.rd Reg.ETH_TXR_HEAD.head p * 16)
    (bytesLE 8 stamp ++ bytesLE 2 len ++ bytesLE 1 flags ++ bytesLE 5 0)

theorem State.ethWriteBack_eq (s : State) (p stamp len flags : Nat) : s.ethWriteBack p stamp len flags =
    let u := (s.descriptorWritten p stamp len flags).wr Reg.ETH_TXR_HEAD.head p
      ((s.rd Reg.ETH_TXR_HEAD.head p + 1) % 2 ^ s.rd Reg.ETH_TXR_SIZE.log2 p)
    if u.flag Reg.ETH_IRQ_CTRL.tx_wb_sig p then u.signal (7 + 2 * p) else u := by
  have hsize : (s.descriptorWritten p stamp len flags).rd Reg.ETH_TXR_SIZE.log2 p = s.rd Reg.ETH_TXR_SIZE.log2 p := State.hostStore_rd _ _ _ _ _
  rw [← hsize]
  unfold State.ethWriteBack State.descriptorWritten
  rfl

theorem State.ethWriteBack_effect {s : State} (hw : tabWf 0 s.regs = true) {p : Nat} (hp : p < 2) (stamp len flags : Nat) :
    let u := s.ethWriteBack p stamp len flags
    u.host.mem = (s.descriptorWritten p stamp len flags).host.mem
      ∧ u.rd Reg.ETH_TXR_HEAD.head p = (s.rd Reg.ETH_TXR_HEAD.head p + 1) % 2 ^ s.rd Reg.ETH_TXR_SIZE.log2 p % 2 ^ 12
      ∧ Keeps 0x412 s u ∧ Wrote [(Reg.ETH_TXR_HEAD.head, p), (Reg.GLB_IRQ_STAT0.cause, 0)] s u := by
  have hp' : p < 8192 := Nat.lt_trans hp (by decide)
  rw [State.ethWriteBack_eq]
  generalize (s.rd Reg.ETH_TXR_HEAD.head p + 1) % 2 ^ s.rd Reg.ETH_TXR_SIZE.log2 p = h
  have hstored : Wrote [(Reg.ETH_TXR_HEAD.head, p)] s (s.descriptorWritten p stamp len flags) := (Wrote.refl hw).same rfl
  have hmoved : Wrote [(Reg.ETH_TXR_HEAD.head, p)] s ((s.descriptorWritten p stamp len flags).wr Reg.ETH_TXR_HEAD.head p h) :=
    hstored.wr h List.mem_cons_self
  have hhead : ((s.descriptorWritten p stamp len flags).wr Reg.ETH_TXR_HEAD.head p h).rd Reg.ETH_TXR_HEAD.head p = h % 2 ^ 12 :=
    State.rd_wr_self _ _ _ hstored.wf
  have hkeeps : Keeps 0x412 s ((s.descriptorWritten p stamp len flags).wr Reg.ETH_TXR_HEAD.head p h) :=
    State.wr_keeps (by decide) (State.hostStore_keeps (by decide) (.refl s))
  have hmem : ((s.descriptorWritten p stamp len flags).wr Reg.ETH_TXR_HEAD.head p h).host.mem = (s.descriptorWritten p stamp len flags).host.mem := rfl
  dsimp only
  generalize (s.descriptorWritten p stamp len flags).wr Reg.ETH_TXR_HEAD.head p h = u at *
  split
  case isTrue =>
    have hsignal : Wrote [(Reg.GLB_IRQ_STAT0.cause, 0)] u (u.signal (7 + 2 * p)) :=
      (Wrote.refl hmoved.wf).signalLow (v := 7 + 2 * p) (by omega) List.mem_cons_self
    exact ⟨(State.signal_mem _ _).trans hmem, (hsignal.rd (apart_sole _ _ hp' (by decide) (by decide))).trans hhead,
      State.signal_keeps (by decide) hkeeps, (hmoved.mono (by simp)).trans (hsignal.mono (by simp))⟩
  case isFalse => exact ⟨hmem, hhead, hkeeps, hmoved.mono (by simp)⟩

/-- The state with a frame sent and counted. -/
def State.frameSent (s : State) (p : Nat) (bs : List (BitVec 8)) (tsReq : Bool) : State :=
  let padded := bs ++ List.replicate (60 - bs.length) 0
  let s := { s with wire := s.wire ++ [Wire.ethernet p (padded ++ bytesLE 4 (crc32Eth padded))] }
  let s := s.count Reg.ETH_TX_CNT.frames p
  if tsReq then s.count Reg.ETH_TS_CNT.tx_stamped p else s

/-- The registers that a frame of the transmit ring shows. -/
abbrev sentRegs (p : Nat) : List (Field × Nat) :=
  [(Reg.ETH_TXR_HEAD.head, p), (Reg.ETH_TX_CNT.frames, p), (Reg.ETH_TS_CNT.tx_stamped, p), (Reg.GLB_IRQ_STAT0.cause, 0)]

theorem State.frameSent_effect {s : State} (hw : tabWf 0 s.regs = true) {p : Nat} (hp : p < 8192) (bs : List (BitVec 8)) (tsReq : Bool) :
    let padded := bs ++ List.replicate (60 - bs.length) 0
    let u := s.frameSent p bs tsReq
    u.wire = s.wire ++ [Wire.ethernet p (padded ++ bytesLE 4 (crc32Eth padded))]
      ∧ u.rd Reg.ETH_TX_CNT.frames p = min (s.rd Reg.ETH_TX_CNT.frames p + 1) (2 ^ Reg.ETH_TX_CNT.frames.width - 1)
      ∧ Keeps 0x12 s u ∧ Wrote [(Reg.ETH_TX_CNT.frames, p), (Reg.ETH_TS_CNT.tx_stamped, p)] s u := by
  unfold State.frameSent
  dsimp only
  generalize hx : s.wire ++ [Wire.ethernet p (bs ++ List.replicate (60 - bs.length) 0
    ++ bytesLE 4 (crc32Eth (bs ++ List.replicate (60 - bs.length) 0)))] = w
  have hcount : Wrote [(Reg.ETH_TX_CNT.frames, p)] s ({ s with wire := w }.count Reg.ETH_TX_CNT.frames p) :=
    ((Wrote.refl hw).same (u := { s with wire := w }) rfl).count List.mem_cons_self
  have hcounted := State.rd_count_self (s := { s with wire := w }) Reg.ETH_TX_CNT.frames p hw
  have hprefix : s.wire <+: w := hx ▸ List.prefix_append s.wire _
  have hkeeps : Keeps 0x12 s ({ s with wire := w }.count Reg.ETH_TX_CNT.frames p) :=
    State.count_keeps (by decide) (Keeps.upd (.refl s) (hwire := hprefix))
  have hwire : ({ s with wire := w }.count Reg.ETH_TX_CNT.frames p).wire = w := rfl
  generalize { s with wire := w }.count Reg.ETH_TX_CNT.frames p = u at *
  cases tsReq with
  | false => exact ⟨hwire, hcounted, hkeeps, hcount.mono (by simp)⟩
  | true =>
    have hstamped : Wrote [(Reg.ETH_TS_CNT.tx_stamped, p)] u (u.count Reg.ETH_TS_CNT.tx_stamped p) := (Wrote.refl hcount.wf).count List.mem_cons_self
    exact ⟨hwire, (hstamped.rd (apart_sole _ _ hp hp (by decide))).trans hcounted, State.count_keeps (by decide) hkeeps,
      (hcount.mono (by simp)).trans (hstamped.mono (by simp))⟩

theorem exec_ethTxFrame_plain {s : State} {port : Fin 2} {bytes : List (BitVec 8)} {phi : Fin 32} (tsReq : Bool)
    (henable : s.flag Reg.ETH_CTRL.enable port = true) (htx : s.flag Reg.ETH_CTRL.tx_en port = true)
    (hplain : ptpPayload ((s.frameSent port bytes tsReq).flag Reg.ETH_CTRL.transport port) bytes = none)
    (hmay : s.mayRequest = true) (hroom : s.rd Reg.ETH_TXR_HEAD.head port ≠ s.rd Reg.ETH_TXR_TAIL.tail port)
    (hmin : 14 ≤ bytes.length) (hmax : bytes.length ≤ 1514) :
    exec (.ethTxFrame port bytes tsReq phi 0) s = .next ((s.frameSent port bytes tsReq).ethWriteBack port
      (if tsReq then timePlus (s.stamp phi) (signedOf 16 (s.rd Reg.ETH_LAT.tx port)) else 0) bytes.length (1 + 2 * bit tsReq)) := by
  have hexec : exec (.ethTxFrame port bytes tsReq phi 0) s = .next (s.ethSend port bytes tsReq phi 0) := rfl
  rw [hexec]
  unfold State.ethSend
  rw [if_neg (by simp [henable, htx, hmay, hroom]), if_neg (by decide), if_neg (by omega)]
  change Host.Outcome.next (State.ethWriteBack (match ptpPayload ((s.frameSent port bytes tsReq).flag Reg.ETH_CTRL.transport port) bytes with
    | some m => if tsReq then (s.frameSent port bytes tsReq).ptpTransmit port m (timePlus (s.stamp phi) (signedOf 16 (s.rd Reg.ETH_LAT.tx port)))
      else s.frameSent port bytes tsReq
    | none => s.frameSent port bytes tsReq) port _ bytes.length (1 + 2 * bit tsReq)) = _
  rw [hplain]

theorem exec_ethTxFrame_idle {s : State} {port : Fin 2} (bytes : List (BitVec 8)) (phi : Fin 32) (tsReq : Bool) (err : Fin 4)
    (h : s.flag Reg.ETH_CTRL.enable port = false ∨ s.flag Reg.ETH_CTRL.tx_en port = false ∨ s.mayRequest = false
      ∨ s.rd Reg.ETH_TXR_HEAD.head port = s.rd Reg.ETH_TXR_TAIL.tail port) : exec (.ethTxFrame port bytes tsReq phi err) s = .next s := by
  have hexec : exec (.ethTxFrame port bytes tsReq phi err) s = .next (s.ethSend port bytes tsReq phi err) := rfl
  rw [hexec]
  unfold State.ethSend
  rw [if_pos]
  rcases h with h | h | h | h <;> simp [h]

end Sys2Proof.Machine

namespace Sys2Proof.Proofs

open Sys2Proof.Machine Sys2Proof.Safety

variable {s : State}

theorem receiveBad_effect (hs : Sound s) (port : Fin 2) (bytes : List (BitVec 8)) (phi : Fin 32) (buffer : Nat)
    (henable : s.flag Reg.ETH_CTRL.enable port = true) :
    ∃ t, exec (.ethRxFrame port bytes false phi buffer) s = .next t
      ∧ t.rd Reg.ETH_RX_DROP.fcs port = min (s.rd Reg.ETH_RX_DROP.fcs port + 1) (2 ^ Reg.ETH_RX_DROP.fcs.width - 1)
      ∧ Only [.regs] s t ∧ RegsBut [(Reg.ETH_RX_DROP.fcs, port.val)] s t := by
  have hexec : exec (.ethRxFrame port bytes false phi buffer) s = .next (s.ethReceive port bytes false phi buffer) := rfl
  have hdrop : s.ethReceive port bytes false phi buffer = s.count Reg.ETH_RX_DROP.fcs port := by
    unfold State.ethReceive
    rw [if_neg (by simp [henable])]
    exact if_pos rfl
  rw [hdrop] at hexec
  exact ⟨_, hexec, State.rd_count_self _ _ hs.regs, State.count_only _ _ _, ((Wrote.refl hs.regs).count List.mem_cons_self).but⟩

theorem receiveGood_effect (hs : Sound s) (port : Fin 2) (bytes : List (BitVec 8)) (phi : Fin 32) (buffer : Nat)
    (henable : s.flag Reg.ETH_CTRL.enable port = true) (hrx : s.flag Reg.ETH_CTRL.rx_en port = true)
    (hplain : ptpPayload (s.flag Reg.ETH_CTRL.transport port) bytes = none) (hpass : s.ethPasses port bytes = true)
    (hmay : s.mayRequest = true) (hroom : s.rd Reg.ETH_RXR_HEAD.head port ≠ s.rd Reg.ETH_RXR_TAIL.tail port) :
    let p : Nat := port
    ∃ t, exec (.ethRxFrame port bytes true phi buffer) s = .next t
      ∧ t.host.mem = tabSetList 0 (tabSetList 0 s.host.mem buffer bytes)
          (s.rd Reg.ETH_RXR_BASE_LO.base_lo p * 4096 + s.rd Reg.ETH_RXR_BASE_HI.base_hi p * 2 ^ 32 + s.rd Reg.ETH_RXR_HEAD.head p * 16)
          (bytesLE 8 ((((s.stamp phi : Nat) : Int) + signedOf 16 (s.rd Reg.ETH_LAT.rx p)).emod (2 ^ 64)).toNat ++ bytesLE 2 bytes.length
            ++ bytesLE 1 (1 + 4 * bit (beNat bytes 12 2 == 0x8100)) ++ bytesLE 5 0)
      ∧ t.rd Reg.ETH_RXR_HEAD.head p = (s.rd Reg.ETH_RXR_HEAD.head p + 1) % 2 ^ s.rd Reg.ETH_RXR_SIZE.log2 p % 2 ^ 12
      ∧ t.rd Reg.ETH_RX_CNT.frames p = min (s.rd Reg.ETH_RX_CNT.frames p + 1) (2 ^ Reg.ETH_RX_CNT.frames.width - 1)
      ∧ (t.port p).sync = (s.port p).sync ∧ (t.port p).delay = (s.port p).delay ∧ (∀ n, n ≠ p → t.port n = s.port n) ∧ t.evq = s.evq
      ∧ Only [.regs, .eth, .host, .wire] s t
      ∧ RegsBut ([(Reg.ETH_RXR_HEAD.head, p), (Reg.ETH_RX_CNT.frames, p)] ++ [(Reg.GLB_IRQ_STAT0.cause, 0)]) s t := by
  intro p
  have hexec := exec_ethRxFrame_plain (phi := phi) (buffer := buffer) henable hrx hplain hpass hmay hroom
  obtain ⟨hmem, hhead, hcount, ⟨n, hport⟩, hothers, hkeeps, hwrote⟩ := State.ethStore_effect hs.regs hs.eth port.isLt bytes
    (timePlus (s.stamp phi) (signedOf 16 (s.rd Reg.ETH_LAT.rx port))) buffer (1 + 4 * bit (beNat bytes 12 2 == 0x8100))
  have hstored : (s.frameWritten p bytes (timePlus (s.stamp phi) (signedOf 16 (s.rd Reg.ETH_LAT.rx port))) buffer
      (1 + 4 * bit (beNat bytes 12 2 == 0x8100))).host.mem = _ := State.frameWritten_mem _ _ _ _ _ _
  rw [timePlus_eq] at hstored
  refine ⟨_, hexec, hmem.trans hstored, hhead, hcount, ?_, ?_, hothers, hkeeps.evq.get (by decide), hkeeps.only (by decide), hwrote.but⟩
  · rw [hport]
  · rw [hport]

theorem apart_sentRegs {f : Field} {i p : Nat} (hi : i < 8192) (hp : p < 8192)
    (hf : [Reg.ETH_TX_CNT.frames, Reg.ETH_TS_CNT.tx_stamped].all (fun g => g.place != f.place) = true) :
    Apart f i [(Reg.ETH_TX_CNT.frames, p), (Reg.ETH_TS_CNT.tx_stamped, p)] :=
  apart_sameUnit hi hp [Reg.ETH_TX_CNT.frames, Reg.ETH_TS_CNT.tx_stamped] hf

theorem transmit_effect (hs : Sound s) (port : Fin 2) (bytes : List (BitVec 8)) (phi : Fin 32) (tsReq : Bool)
    (henable : s.flag Reg.ETH_CTRL.enable port = true) (htx : s.flag Reg.ETH_CTRL.tx_en port = true)
    (hplain : ptpPayload (s.flag Reg.ETH_CTRL.transport port) bytes = none)
    (hmay : s.mayRequest = true) (hroom : s.rd Reg.ETH_TXR_HEAD.head port ≠ s.rd Reg.ETH_TXR_TAIL.tail port)
    (hmin : 14 ≤ bytes.length) (hmax : bytes.length ≤ 1514) :
    let p : Nat := port
    let padded := bytes ++ List.replicate (60 - bytes.length) 0
    ∃ t, exec (.ethTxFrame port bytes tsReq phi 0) s = .next t
      ∧ (s.wire ++ [.ethernet p (padded ++ bytesLE 4 (crc32Eth padded))]) <+: t.wire
      ∧ t.host.mem = tabSetList 0 s.host.mem
          (s.rd Reg.ETH_TXR_BASE_LO.base_lo p * 4096 + s.rd Reg.ETH_TXR_BASE_HI.base_hi p * 2 ^ 32 + s.rd Reg.ETH_TXR_HEAD.head p * 16)
          (bytesLE 8 (if tsReq then (((s.stamp phi : Nat) : Int) + signedOf 16 (s.rd Reg.ETH_LAT.tx p)).emod (2 ^ 64) |>.toNat else 0)
            ++ bytesLE 2 bytes.length ++ bytesLE 1 (1 + 2 * bit tsReq) ++ bytesLE 5 0)
      ∧ t.rd Reg.ETH_TXR_HEAD.head p = (s.rd Reg.ETH_TXR_HEAD.head p + 1) % 2 ^ s.rd Reg.ETH_TXR_SIZE.log2 p % 2 ^ 12
      ∧ t.rd Reg.ETH_TX_CNT.frames p = min (s.rd Reg.ETH_TX_CNT.frames p + 1) (2 ^ Reg.ETH_TX_CNT.frames.width - 1)
      ∧ Only [.regs, .host, .wire] s t ∧ RegsBut (sentRegs p) s t := by
  intro p padded
  have hp : p < 8192 := Nat.lt_trans port.isLt (by decide)
  obtain ⟨hwire, hcount, hkeeps, hwrote⟩ := State.frameSent_effect hs.regs hp bytes tsReq
  have hread : ∀ {f : Field}, [Reg.ETH_TX_CNT.frames, Reg.ETH_TS_CNT.tx_stamped].all (fun g => g.place != f.place) = true →
      (s.frameSent p bytes tsReq).rd f p = s.rd f p := fun hf => hwrote.rd (apart_sentRegs hp hp hf)
  have hexec := exec_ethTxFrame_plain (phi := phi) tsReq henable htx (by unfold State.flag at hplain ⊢; rw [hread (by decide)]; exact hplain) hmay hroom
    hmin hmax
  have hhost : (s.frameSent p bytes tsReq).host = s.host := hkeeps.host.get (by decide)
  obtain ⟨hmem, hhead, hkept, hback⟩ := State.ethWriteBack_effect hwrote.wf (p := p) port.isLt
    (if tsReq then timePlus (s.stamp phi) (signedOf 16 (s.rd Reg.ETH_LAT.tx port)) else 0) bytes.length (1 + 2 * bit tsReq)
  change exec (.ethTxFrame port bytes tsReq phi 0) s = .next ((s.frameSent p bytes tsReq).ethWriteBack p _ bytes.length (1 + 2 * bit tsReq)) at hexec
  unfold State.descriptorWritten State.hostStore at hmem
  rw [hread (by decide), hread (by decide), hread (by decide), hhost, timePlus_eq] at hmem
  rw [hread (by decide), hread (by decide)] at hhead
  have hall : Keeps 0x412 s ((s.frameSent p bytes tsReq).ethWriteBack p
      (if tsReq then timePlus (s.stamp phi) (signedOf 16 (s.rd Reg.ETH_LAT.tx port)) else 0) bytes.length (1 + 2 * bit tsReq)) :=
    (hkeeps.mono (by decide)).trans hkept
  refine ⟨_, hexec, hwire ▸ hkept.wire, hmem, hhead, (hback.rd ?_).trans hcount, hall.only (by decide), ?_⟩
  · exact ⟨by simp only [List.all_cons, List.all_nil, Bool.and_true]; decide, hp, by simp [hp]⟩
  · have hfirst : Wrote (sentRegs p) s (s.frameSent p bytes tsReq) := hwrote.mono (by simp)
    exact (hfirst.trans (hback.mono (by simp))).but

/-- The registers of a link. -/
abbrev linkRegs (p : Nat) : List (Field × Nat) := [(Reg.ETH_STAT.link, p), (Reg.ETH_STAT.local_fault, p), (Reg.ETH_STAT.remote_fault, p)]

/-- Writes that an event follows. -/
theorem wrAll_reported (hs : Sound s) (fs : List Field) {l : List (Field × Nat × Nat)} (hfs : l.map (·.1) = fs) (hfree : fieldsFree fs = true)
    (hunits : ∀ x ∈ l, x.2.1 < 8192) {code : Nat} (hc : code ≠ 0x010) (inst data : Nat) :
    let t := (s.wrAll l).raise code inst data
    Reports s t code inst data ∧ Only eventParts s t ∧ Wrote (writtenRegs l ++ eventRegs) s t ∧ ∀ x ∈ l, t.rd x.1 x.2.1 = x.2.2 % 2 ^ x.1.width := by
  have hkeeps : Keeps 0x10 s (s.wrAll l) := State.wrAll_keeps (by decide) l (.refl s)
  obtain ⟨hreports, hwrote, hread⟩ := State.raise_after fs (u := s.wrAll l) hfs hfree hs.regs hunits rfl (hkeeps.evq.get (by decide))
    (congrArg Epo.k (hkeeps.epo.get (by decide))) (hkeeps.clk.get (by decide)) hc inst data
  have hall : Keeps 0x512 s ((s.wrAll l).raise code inst data) := State.raise_keeps (by decide) (hkeeps.mono (by decide))
  exact ⟨hreports, hall.only (by decide), hwrote, hread⟩

theorem linkLost_effect (hs : Sound s) (port : Fin 2) : let p : Nat := port
    ∃ t, exec (.ethLinkChange port .lockLost) s = .next t ∧ t.rd Reg.ETH_STAT.link p = 0 ∧ t.rd Reg.ETH_STAT.local_fault p = 1
      ∧ t.rd Reg.ETH_PCS_CNT.lock_losses p = min (s.rd Reg.ETH_PCS_CNT.lock_losses p + 1) (2 ^ Reg.ETH_PCS_CNT.lock_losses.width - 1)
      ∧ Reports s t 0x510 p 1 ∧ Only eventParts s t ∧ RegsBut ((Reg.ETH_PCS_CNT.lock_losses, p) :: linkRegs p ++ eventRegs) s t := by
  intro p
  have hp : p < 8192 := Nat.lt_trans port.isLt (by decide)
  let l := [(Reg.ETH_STAT.link, p, 0), (Reg.ETH_STAT.local_fault, p, 1)]
  have hl := State.wrAll_wrote hs.regs l
  have hcount := State.wrAll_count s l Reg.ETH_PCS_CNT.lock_losses p
    (hl.rd (apart_sameUnit hp hp [Reg.ETH_STAT.link, Reg.ETH_STAT.local_fault] (by decide)))
  generalize hn : min (s.rd Reg.ETH_PCS_CNT.lock_losses p + 1) (2 ^ Reg.ETH_PCS_CNT.lock_losses.width - 1) = n at *
  have hfit : n < 2 ^ Reg.ETH_PCS_CNT.lock_losses.width := hn ▸ Nat.lt_of_le_of_lt (Nat.min_le_right _ _) (by decide)
  have hexec : exec (.ethLinkChange port .lockLost) s
      = .next ((s.wrAll (l ++ [(Reg.ETH_PCS_CNT.lock_losses, p, n)])).raise 0x510 p 1) := by
    rw [← hcount]
    rfl
  obtain ⟨hreports, honly, hwrote, hread⟩ := wrAll_reported hs [Reg.ETH_STAT.link, Reg.ETH_STAT.local_fault, Reg.ETH_PCS_CNT.lock_losses]
    (l := l ++ [(Reg.ETH_PCS_CNT.lock_losses, p, n)]) rfl (by decide) (by simp [l, hp]) (code := 0x510) (by decide) p 1
  exact ⟨_, hexec, hread (Reg.ETH_STAT.link, p, 0) (by simp [l]), hread (Reg.ETH_STAT.local_fault, p, 1) (by simp [l]),
    (hread (Reg.ETH_PCS_CNT.lock_losses, p, n) (by simp [l])).trans (Nat.mod_eq_of_lt hfit), hreports, honly,
    (hwrote.mono (by simp +contextual [l])).but⟩

theorem linkFault_effect (hs : Sound s) (port : Fin 2) : let p : Nat := port
    ∃ t, exec (.ethLinkChange port .remoteFault) s = .next t ∧ t.rd Reg.ETH_STAT.link p = 0 ∧ t.rd Reg.ETH_STAT.remote_fault p = 1
      ∧ Reports s t 0x510 p 2 ∧ Only eventParts s t ∧ RegsBut (linkRegs p ++ eventRegs) s t := by
  intro p
  have hp : p < 8192 := Nat.lt_trans port.isLt (by decide)
  let l := [(Reg.ETH_STAT.link, p, 0), (Reg.ETH_STAT.remote_fault, p, 1)]
  have hexec : exec (.ethLinkChange port .remoteFault) s = .next ((s.wrAll l).raise 0x510 p 2) := rfl
  obtain ⟨hreports, honly, hwrote, hread⟩ := wrAll_reported hs [Reg.ETH_STAT.link, Reg.ETH_STAT.remote_fault] (l := l) rfl (by decide)
    (by simp [l, hp]) (code := 0x510) (by decide) p 2
  exact ⟨_, hexec, hread (Reg.ETH_STAT.link, p, 0) (by simp [l]), hread (Reg.ETH_STAT.remote_fault, p, 1) (by simp [l]), hreports, honly,
    (hwrote.mono (by simp +contextual [l])).but⟩

theorem linkUp_effect (hs : Sound s) (port : Fin 2) : let p : Nat := port
    ∃ t, exec (.ethLinkChange port .up) s = .next t ∧ t.rd Reg.ETH_STAT.link p = 1 ∧ t.rd Reg.ETH_STAT.local_fault p = 0
      ∧ t.rd Reg.ETH_STAT.remote_fault p = 0 ∧ Reports s t 0x511 p s.epo.k ∧ Only eventParts s t ∧ RegsBut (linkRegs p ++ eventRegs) s t := by
  intro p
  have hp : p < 8192 := Nat.lt_trans port.isLt (by decide)
  let l := [(Reg.ETH_STAT.link, p, 1), (Reg.ETH_STAT.local_fault, p, 0), (Reg.ETH_STAT.remote_fault, p, 0)]
  have hexec : exec (.ethLinkChange port .up) s = .next ((s.wrAll l).raise 0x511 p s.epo.k) := rfl
  obtain ⟨hreports, honly, hwrote, hread⟩ := wrAll_reported hs [Reg.ETH_STAT.link, Reg.ETH_STAT.local_fault, Reg.ETH_STAT.remote_fault] (l := l) rfl
    (by decide) (by simp [l, hp]) (code := 0x511) (by decide) p s.epo.k
  exact ⟨_, hexec, hread (Reg.ETH_STAT.link, p, 1) (by simp [l]), hread (Reg.ETH_STAT.local_fault, p, 0) (by simp [l]),
    hread (Reg.ETH_STAT.remote_fault, p, 0) (by simp [l]), hreports, honly, hwrote.but⟩

theorem headersCounted (hs : Sound s) (port : Fin 2) (n : Nat) :
    ∃ t, exec (.ethLinkChange port (.headers n)) s = .next t
      ∧ t.rd Reg.ETH_PCS_CNT.hdr_err port = min (s.rd Reg.ETH_PCS_CNT.hdr_err port + n) (2 ^ Reg.ETH_PCS_CNT.hdr_err.width - 1)
      ∧ Only [.regs] s t ∧ RegsBut [(Reg.ETH_PCS_CNT.hdr_err, port.val)] s t := by
  have hexec : exec (.ethLinkChange port (.headers n)) s = .next (s.add Reg.ETH_PCS_CNT.hdr_err port n) := rfl
  refine ⟨_, hexec, ?_, State.wr_only _ _ _ _, ((Wrote.refl hs.regs).add n List.mem_cons_self).but⟩
  exact (State.rd_wr_self _ _ _ hs.regs).trans (Nat.mod_eq_of_lt (Nat.lt_of_le_of_lt (Nat.min_le_right _ _) (by decide)))

/-- Settles O47: a frame that carries no PTP message touches its ring, its buffer and its counters alone. -/
theorem ethernetFrames : Obligations.EthernetFrames := by
  unfold Obligations.EthernetFrames
  intro s port bytes phi hs p up stamp rhead rdesc thead tdesc padded plain causes link
  refine ⟨fun buffer => receiveBad_effect hs port bytes phi buffer, fun buffer => receiveGood_effect hs port bytes phi buffer,
    fun tsReq => transmit_effect hs port bytes phi tsReq, fun tsReq err => exec_ethTxFrame_idle bytes phi tsReq err, linkLost_effect hs port,
    headersCounted hs port, linkFault_effect hs port, linkUp_effect hs port⟩

end Sys2Proof.Proofs

/-! ## Conversion sequences (R322 to R324)

A run takes its entries from ADC_SEQ_ENTRY as the registers stand once the rounds of the core have been made up to this cycle, and the
statement reads them before those rounds. Within the length that the register can hold the two agree: no round writes an entry. `Sound` does
not bound what the store holds, though, and a length beyond the register's four bits reaches past the table, to the count of served
requests, which a round advances. -/

namespace Sys2Proof.Machine

open Sys2Proof.Safety

theorem State.core_modCore {s : State} (hw : tabWf CoreRt.clear s.adc.cores = true) (c : Nat) (f : CoreRt → CoreRt) :
    (s.modCore c f).core c = f (s.core c) := (tabGet_tabSet hw).trans (if_pos rfl)

theorem State.modCore_cores {s : State} (hw : tabWf CoreRt.clear s.adc.cores = true) (c : Nat) (f : CoreRt → CoreRt) :
    tabWf CoreRt.clear (s.modCore c f).adc.cores = true := tabWf_tabMod hw

theorem State.core_showCore (s : State) (c n : Nat) : (s.showCore c).core n = s.core n := rfl

/-- The entries of a run that starts are those that the registers hold after the core's rounds. -/
theorem State.regTrigger_entries {s : State} {c : Nat} {source : RegSource} (hw : tabWf CoreRt.clear (s.coreAdvance c s.cycle).adc.cores = true)
    (hruns : (s.coreAdvance c s.cycle).coreRuns c = true) (hmode : ((s.coreAdvance c s.cycle).core c).mode ≠ 0)
    (hfires : (s.coreAdvance c s.cycle).regFires c source = true) (hidle : ((s.coreAdvance c s.cycle).core c).running = false) :
    let u := s.coreAdvance c s.cycle
    ((s.regTrigger c source).core c).entries = (List.range (u.rd Reg.ADC_CORE_CTRL.reg_len c + 1)).map (fun i => u.seqEntry c false i) := by
  intro u
  have hstart : s.regTrigger c source
      = (((u.modCore c (fun r => r.awake u.cycle)).startRun c).modCore c (fun r => { r with overrun := false })).showCore c := by
    unfold State.regTrigger
    dsimp only
    rw [if_neg (by simp [hruns, hmode, hfires]), if_neg (by simp [hidle])]
  have hawake : tabWf CoreRt.clear (u.modCore c (fun r => r.awake u.cycle)).adc.cores = true := State.modCore_cores hw _ _
  rw [hstart, State.core_showCore]
  have hrun : tabWf CoreRt.clear ((u.modCore c (fun r => r.awake u.cycle)).startRun c).adc.cores = true := by
    unfold State.startRun
    exact State.modCore_cores hawake _ _
  rw [State.core_modCore hrun]
  unfold State.startRun
  dsimp only
  rw [State.core_modCore hawake]
  rfl

end Sys2Proof.Machine

namespace Sys2Proof.Proofs

open Sys2Proof.Machine Sys2Proof.Safety

theorem coreRegs_length : ∀ c : Fin 4, Apart Reg.ADC_CORE_CTRL.reg_len c (coreRegs c)
  | 0 => ⟨by decide, by decide, by decide⟩
  | 1 => ⟨by decide, by decide, by decide⟩
  | 2 => ⟨by decide, by decide, by decide⟩
  | 3 => ⟨by decide, by decide, by decide⟩

/-- What the statement says of the entries that a run takes. -/
theorem entries_agree (h : Obligations.ConversionSequences) {s : State} (hs : Sound s) {c : Fin 4} (hruns : s.coreRuns c = true)
    (hready : (s.coreAdvance c s.cycle).coreRuns c = true) (hmode : ((s.coreAdvance c s.cycle).core c).mode ≠ 0)
    (hfires : (s.coreAdvance c s.cycle).regFires c .continuous = true) (hidle : ((s.coreAdvance c s.cycle).core c).running = false) {i : Nat}
    (hi : i ≤ s.rd Reg.ADC_CORE_CTRL.reg_len c) : (s.coreAdvance c s.cycle).seqEntry c false i = s.seqEntry c false i := by
  obtain ⟨-, hstart, -⟩ := h s c hs
  obtain ⟨t, hnext, -, -, -, hentries, -⟩ := hstart .continuous (.inl nofun) hruns hmode hfires hidle
  have hexec : exec (.regTrigger c .continuous) s = .next (s.regTrigger c .continuous) := rfl
  have hcores := ((State.coreAdvance_keeps (M := 0x400010) (a1 := c) (a2 := s.cycle) (by decide) (.refl s)).sound hs).measure.1
  have htaken := State.regTrigger_entries hcores hready hmode hfires hidle
  have hlength : (s.coreAdvance c s.cycle).rd Reg.ADC_CORE_CTRL.reg_len c = s.rd Reg.ADC_CORE_CTRL.reg_len c := by
    have hwrote : Wrote (coreRegs c) s (s.coreAdvance c s.cycle) := (Wrote.refl hs.regs).coreAdvance (fun _ hp => hp) _
    exact hwrote.rd (coreRegs_length c)
  dsimp only at htaken
  rw [next_inj hexec hnext, htaken, hlength] at hentries
  exact List.map_inj_left.mp hentries i (List.mem_range.mpr (Nat.lt_succ_of_le hi))

/-- The entry of core 0 that lies on its count of served requests. -/
abbrev farEntry : Nat := 60817408

/-- The converters run; core 0 starts its regular list continuously. -/
def convertingState : State :=
  ((upState.wr Reg.ADC_CTRL.enable 0 1).wr Reg.ADC_CORE_CTRL.reg_trig 0 1).wr Reg.PWR_DOM_STAT.state 0 (2 * 4 ^ 10)

theorem convertingState_sound : Sound convertingState := wr_sound _ _ _ (wr_sound _ _ _ (wr_sound _ _ _ upState_sound))

/-- A state with other registers, another count and another converter block. -/
def withMeasure (s : State) (regs : List (Nat × Nat)) (c : Clk) (a : Adc) : State := { s with regs := regs, clk := c, adc := a }

theorem withMeasure_sound {s : State} (hs : Sound s) {regs : List (Nat × Nat)} (hw : tabWf 0 regs = true) (c : Clk) {a : Adc} (ha : MeasureOk a) :
    Sound (withMeasure s regs c a) := { hs with regs := hw, measure := ha }

/-- The registers with a list longer than its register can say. -/
def longListRegs : List (Nat × Nat) := tabSet 0 convertingState.regs (regKey Reg.ADC_CORE_CTRL.reg_len 0) farEntry

/-- Core 0 serves an injected entry whose round is over. -/
def servingCores : Adc :=
  { convertingState.adc with cores := [(0, { CoreRt.clear with mode := 1, round := true, busy := some (0, ⟨0, 0, 1, false, 0, 0, 0⟩) })] }

/-- Both. -/
def longListState : State := withMeasure convertingState longListRegs { convertingState.clk with count := 1 } servingCores

theorem longListState_sound : Sound longListState := withMeasure_sound convertingState_sound (by decide +kernel) _ (by decide +kernel)

/-- The rounds of core 0 up to this cycle. -/
def longListRounds : State := longListState.coreAdvance 0 longListState.cycle

theorem longListState_runs : longListState.coreRuns 0 = true ∧ longListState.rd Reg.ADC_CORE_CTRL.reg_len 0 = farEntry := by decide +kernel

theorem longListRounds_ready : longListRounds.coreRuns 0 = true ∧ (longListRounds.core 0).mode ≠ 0
    ∧ longListRounds.regFires 0 .continuous = true ∧ (longListRounds.core 0).running = false := by decide +kernel

/-- The round that ends counts the request that it has served. -/
theorem longListRounds_served :
    (longListState.seqEntry 0 false farEntry).offset = 0 ∧ (longListRounds.seqEntry 0 false farEntry).offset = 1 := by decide +kernel

/-- Refutes O42: a list longer than its register can say ends on the count of served requests, which the round that ends before the run begins
moves on. -/
theorem not_conversionSequences : ¬ Obligations.ConversionSequences := by
  intro h
  obtain ⟨hruns, hlength⟩ := longListState_runs
  obtain ⟨hready, hmode, hfires, hidle⟩ := longListRounds_ready
  obtain ⟨hbefore, hafter⟩ := longListRounds_served
  have hsame : longListRounds.seqEntry 0 false farEntry = longListState.seqEntry 0 false farEntry :=
    entries_agree h longListState_sound (c := 0) hruns hready hmode hfires hidle (Nat.le_of_eq hlength.symm)
  rw [hsame, hbefore] at hafter
  exact absurd hafter (by decide)

end Sys2Proof.Proofs

/-! ## Samples (R316 to R318, R324, R330, R331) -/

namespace Sys2Proof.Machine

open Sys2Proof.Safety

/-! ### The working image below the status points of the graphs -/

theorem State.work_setWork {s : State} (h : tabWf Pt.clear s.pts.work = true) (a : Nat) (p : Pt) (b : Nat) :
    (s.setWork a p).work b = if b = a then p else s.work b := tabGet_tabSet h

theorem State.setWork_wf {s : State} (h : tabWf Pt.clear s.pts.work = true) (a : Nat) (p : Pt) : tabWf Pt.clear (s.setWork a p).pts.work = true :=
  tabWf_tabSet h

/-- The working image below the status points of the graphs is as before. -/
structure LowWork (s t : State) : Prop where
  wf : tabWf Pt.clear t.pts.work = true
  same : ∀ a, a < 0x2000 → t.work a = s.work a

namespace LowWork

variable {s t u : State}

theorem refl (h : tabWf Pt.clear s.pts.work = true) : LowWork s s := ⟨h, fun _ _ => rfl⟩

theorem pts (h : LowWork s t) (hu : u.pts = t.pts) : LowWork s u := by
  refine ⟨hu ▸ h.wf, fun a ha => ?_⟩
  unfold State.work
  rw [hu]
  exact h.same a ha

theorem setWork (h : LowWork s t) {a : Nat} (ha : 0x2000 ≤ a) (p : Pt) : LowWork s (t.setWork a p) := by
  refine ⟨State.setWork_wf h.wf a p, fun b hb => ?_⟩
  rw [State.work_setWork h.wf, if_neg (Nat.ne_of_lt (Nat.lt_of_lt_of_le hb ha))]
  exact h.same b hb

theorem foldl {α : Type} {f : State → α → State} (hf : ∀ x t, LowWork s t → LowWork s (f t x)) (l : List α) :
    ∀ {t : State}, LowWork s t → LowWork s (l.foldl f t) := by
  induction l with
  | nil => exact fun h => h
  | cons x l ih => exact fun h => ih (hf x _ h)

/-! ### Releases -/

theorem markGraph (h : LowWork s t) (g state flags : Nat) : LowWork s (t.markGraph g state flags) :=
  (h.pts (u := (t.modGraph g fun r => r.mark state flags).wr Reg.FAB_GRAPH_STAT.state g
    ((t.modGraph g fun r => r.mark state flags).graph g).state) rfl).setWork (Nat.le_add_right _ g) _

theorem dropRelease (h : LowWork s t) (g trigger : Nat) : LowWork s (t.dropRelease g trigger) :=
  ((h.pts (u := (t.wr Reg.FAB_GRAPH_STAT.overrun g 1).count Reg.FAB_GRAPH_MISS_CNT.overruns g) rfl).markGraph g _ 8).pts (State.raise_pts ..)

theorem unavailable (h : LowWork s t) (g : Nat) : LowWork s (t.unavailable g) := by
  have hmark := (h.pts (u := t.modGraph g (fun r => { r with unavailable := true })) rfl).markGraph g 4 0
  unfold State.unavailable
  dsimp only
  split
  · exact hmark
  · exact hmark.pts (State.raise_pts ..)

theorem activate (h : LowWork s t) (w : Waiting) : LowWork s (t.activate w) := by
  have hreserve := h.foldl (f := fun s q => s.modQueue q (fun x => { x with reserved := x.reserved + 1 })) (fun q t ht => ht.pts rfl) w.g.sinks
  unfold State.activate
  dsimp only
  refine LowWork.markGraph ?_ _ _ _
  split
  · exact hreserve.pts rfl
  · exact hreserve.pts rfl

theorem waitFlow (h : LowWork s t) (f : Nat) (w : Waiting) : LowWork s (t.waitFlow f w) := by
  unfold State.waitFlow State.showFlow
  dsimp only
  split
  · split
    · exact LowWork.markGraph (h.pts (by rfl)) _ _ _
    · exact LowWork.markGraph (h.pts (by rfl)) _ _ _
  · have hmark := h.markGraph w.graph (t.restState w.g) 0
    split
    · exact hmark
    · exact hmark.dropRelease _ _

theorem tryStart (h : LowWork s t) (w : Waiting) : LowWork s (t.tryStart w) := by
  unfold State.tryStart
  split
  · exact h.waitFlow _ w
  · split
    · exact h.activate w
    · exact LowWork.markGraph (h.pts (by rfl)) _ _ _

theorem releaseGraph (h : LowWork s t) (g c : Nat) : LowWork s (t.releaseGraph g c) := by
  unfold State.releaseGraph
  split
  · exact h
  · dsimp only
    split
    · exact h
    · split
      · exact h.pts rfl
      · split
        · exact h.unavailable g
        · split
          · split
            · exact h
            · exact h.dropRelease _ _
          · exact h.tryStart _

theorem releaseByItem (h : LowWork s t) (e : GraphEntry) : LowWork s (t.releaseByItem e) := by
  unfold State.releaseByItem
  split
  · split
    · exact h
    · exact h.releaseGraph _ _
  · exact h

theorem streamPush (h : LowWork s t) (n : Nat) (vals : List Pt) : LowWork s (t.streamPush n vals) := by
  have hshown : ((t.modStream n (fun r => { r with items := r.items ++ [⟨vals, t.cycle⟩] })).showStream n).pts = t.pts :=
    (State.showStream_keeps (M := 0x100512) (by decide) (.refl _)).pts.get (by decide)
  exact LowWork.foldl (fun e u hu => hu.releaseByItem e) _ (h.pts hshown)

/-- An item that a full stream drops, reported once per episode. -/
theorem streamDropped (h : LowWork s t) (n : Nat) : LowWork s (if t.adc.dropping.contains n then t
    else (t.modAdc (fun a => { a with dropping := n :: a.dropping })).raise 0x405 n t.epoch) := by
  split
  · exact h
  · exact h.pts (State.raise_pts ..)

theorem streamItem (h : LowWork s t) (core : Option Nat) (n : Nat) (word : Pt) (time : Nat) : LowWork s (t.streamItem core n word time) := by
  unfold State.streamItem
  split
  · exact h
  · split
    · cases core with
      | some c => exact (h.pts (u := t.count Reg.ADC_CORE_CNT.stream_drop c) rfl).streamDropped n
      | none => exact h.streamDropped n
    · exact (h.pts (u := t.modAdc (fun a => { a with dropping := a.dropping.filter (· != n) })) rfl).streamPush _ _

end LowWork

/-! ### The tables of the converter block -/

/-- One input has `k` samples more, the other inputs, the cores and the subscriptions are as before. -/
structure InputMoved (i k : Nat) (s t : State) : Prop where
  wf : tabWf AinRt.clear t.adc.ains = true
  counted : (t.ain i).n = (s.ain i).n + k
  others : ∀ n, n ≠ i → t.ain n = s.ain n
  cores : t.adc.cores = s.adc.cores
  subs : t.adc.subs = s.adc.subs

namespace InputMoved

variable {i k : Nat} {s t u : State}

theorem refl (h : tabWf AinRt.clear s.adc.ains = true) : InputMoved i 0 s s := ⟨h, rfl, fun _ _ => rfl, rfl, rfl⟩

theorem tables (h : InputMoved i k s t) (hains : u.adc.ains = t.adc.ains) (hcores : u.adc.cores = t.adc.cores) (hsubs : u.adc.subs = t.adc.subs) :
    InputMoved i k s u := by
  have hain : u.ain = t.ain := by
    unfold State.ain
    rw [hains]
  exact ⟨hains ▸ h.wf, hain ▸ h.counted, hain ▸ h.others, hcores.trans h.cores, hsubs.trans h.subs⟩

theorem adc (h : InputMoved i k s t) (hu : u.adc = t.adc) : InputMoved i k s u := h.tables (by rw [hu]) (by rw [hu]) (by rw [hu])

theorem modAin (h : InputMoved i k s t) {f : AinRt → AinRt} {d : Nat} (hf : ∀ r, (f r).n = r.n + d) : InputMoved i (k + d) s (t.modAin i f) := by
  have hget : ∀ n, (t.modAin i f).ain n = if n = i then f (t.ain i) else t.ain n := fun n => tabGet_tabSet h.wf
  refine ⟨tabWf_tabMod h.wf, ?_, fun n hn => ?_, h.cores, h.subs⟩
  · rw [hget, if_pos rfl, hf, h.counted, Nat.add_assoc]
  · rw [hget, if_neg hn]
    exact h.others n hn

theorem clipped (h : InputMoved i k s t) : InputMoved i k s (t.clipped i) := by
  have hset : InputMoved i k s ((t.setBit Reg.ADC_CLIP.clip 0 i true).modAin i (fun r => { r with clip := true, clipOpen := true })) :=
    (h.adc (u := t.setBit Reg.ADC_CLIP.clip 0 i true) rfl).modAin (d := 0) fun _ => rfl
  unfold State.clipped
  dsimp only
  split
  · exact hset.adc (State.raise_adc ..)
  · exact hset

theorem calSample (h : InputMoved i k s t) (m : SampleInfo) (v gain : Nat) : InputMoved i k s (t.calSample m v gain) := by
  unfold State.calSample
  dsimp only
  split
  · exact h
  · split
    · exact (h.tables (u := (t.modAdc (fun a => { a with cal := { t.adc.cal with active := false } })).wr Reg.ADC_SYSCAL_STAT.status 0 2)
        rfl rfl rfl).adc (State.raise_adc ..)
    · split
      · exact h
      · exact h.tables rfl rfl rfl

theorem streamDropped (h : InputMoved i k s t) (n : Nat) : InputMoved i k s (if t.adc.dropping.contains n then t
    else (t.modAdc (fun a => { a with dropping := n :: a.dropping })).raise 0x405 n t.epoch) := by
  split
  · exact h
  · exact (h.tables (u := t.modAdc (fun a => { a with dropping := n :: a.dropping })) rfl rfl rfl).adc (State.raise_adc ..)

theorem streamItem (h : InputMoved i k s t) (core : Option Nat) (n : Nat) (word : Pt) (time : Nat) :
    InputMoved i k s (t.streamItem core n word time) := by
  unfold State.streamItem
  split
  · exact h
  · split
    · cases core with
      | some c => exact (h.adc (u := t.count Reg.ADC_CORE_CNT.stream_drop c) rfl).streamDropped n
      | none => exact h.streamDropped n
    · have hmod : InputMoved i k s (t.modAdc (fun a => { a with dropping := a.dropping.filter (· != n) })) := h.tables rfl rfl rfl
      exact hmod.adc ((State.streamPush_keeps (M := 0x900592) (by decide) (.refl _)).adc.get (by decide))

end InputMoved

/-! ### A sample is recorded (R318, R320) -/

/-- What precedes the points of a sample: the requests at the arbiter, the count of settling samples, a clipped conversion. -/
def State.sampleNoted (s : State) (m : SampleInfo) : State :=
  let s := s.askPoints 85 ([0, 1, 4, 7].map (fun o => .station (inPoint m.input o)))
  let s := if m.flags % 2 = 1 then s.count Reg.ADC_SETTLE_CNT.count 0 else s
  if m.flags / 2 % 2 = 1 then s.clipped m.input else s

/-- The points of a sample: its word and its time, the range of the epoch and the state of the input. -/
def State.samplePoints (s : State) (i base : Nat) (word : Pt) (time x : Nat) (range : Option (Nat × Nat)) (bad : Bool) : State :=
  let s := (s.setWork (inPoint i base) word).setPoint (inPoint i (base + 1)) time
  let s := s.modAin i (fun r => { r with n := r.n + 1, range := some (widen r.range x) })
  (s.setWork (inPoint i 4) ⟨(widen range x).1 + 2 ^ 32 * (widen range x).2, bad⟩).showInput i

/-- The word of a sample (Table 10.4). -/
def State.sampleWord (s : State) (m : SampleInfo) (v : Nat) : Pt :=
  let r := s.ain m.input
  let flags := m.flags + 4 * bit (!s.flag Reg.ADC_CORE_STAT.cal_valid m.core) + 32 * bit r.above + 64 * bit r.below
  let y := s.sampleValue m.input v
  ⟨y.v + 2 ^ 32 * flags + 2 ^ 40 * m.delay + 2 ^ 50 * m.input + 2 ^ 55 * bit m.injected + 2 ^ 56 * m.entry, y.bad⟩

theorem State.askPoints_sampleValue (s : State) (who : Nat) (l : List PointKey) (i v : Nat) :
    (s.askPoints who l).sampleValue i v = s.sampleValue i v := rfl

theorem State.recordSample_eq (s : State) (m : SampleInfo) (v gain time : Nat) : s.recordSample m v gain time =
    let y := s.sampleValue m.input v
    let u := (s.sampleNoted m).samplePoints m.input (if m.injected then 2 else 0) (s.sampleWord m v) time y.v (s.ain m.input).range y.bad
    let u := if m.injected || m.flags / 8 % 2 = 1 then u else u.pchSample m.input v
    (u.calSample m v gain).streamItem (some m.core) m.input (s.sampleWord m v) time := by
  unfold State.recordSample State.sampleNoted State.samplePoints State.sampleWord
  simp only [State.askPoints_sampleValue]

theorem State.sampleNoted_keeps (s : State) (m : SampleInfo) : Keeps 0x200400512 s (s.sampleNoted m) := by
  have hasked : Keeps 0x200400512 s (s.askPoints 85 ([0, 1, 4, 7].map (fun o => .station (inPoint m.input o)))) :=
    State.askPoints_keeps (by decide) (.refl s)
  have hsettled := Keeps.ite (c := m.flags % 2 = 1) (State.count_keeps (a1 := Reg.ADC_SETTLE_CNT.count) (a2 := 0) (by decide) hasked) hasked
  exact .ite (State.clipped_keeps (by decide) hsettled) hsettled

theorem State.sampleNoted_input {s : State} (h : tabWf AinRt.clear s.adc.ains = true) (m : SampleInfo) :
    InputMoved m.input 0 s (s.sampleNoted m) := by
  have hasked : InputMoved m.input 0 s (s.askPoints 85 ([0, 1, 4, 7].map (fun o => .station (inPoint m.input o)))) :=
    (InputMoved.refl h).adc rfl
  have hsettled : InputMoved m.input 0 s (if m.flags % 2 = 1 then
      (s.askPoints 85 ([0, 1, 4, 7].map (fun o => .station (inPoint m.input o)))).count Reg.ADC_SETTLE_CNT.count 0
      else s.askPoints 85 ([0, 1, 4, 7].map (fun o => .station (inPoint m.input o)))) := by
    split
    · exact hasked.adc rfl
    · exact hasked
  unfold State.sampleNoted
  dsimp only
  split
  · exact hsettled.clipped
  · exact hsettled

theorem State.samplePoints_input {s u : State} {i k : Nat} (h : InputMoved i k s u) (base : Nat) (word : Pt) (time x : Nat)
    (range : Option (Nat × Nat)) (bad : Bool) : InputMoved i (k + 1) s (u.samplePoints i base word time x range bad) := by
  have hpoints : InputMoved i k s ((u.setWork (inPoint i base) word).setPoint (inPoint i (base + 1)) time) := h.adc rfl
  have hcounted := hpoints.modAin (f := fun r => { r with n := r.n + 1, range := some (widen r.range x) }) (d := 1) fun _ => rfl
  exact hcounted.adc rfl

theorem State.samplePoints_keeps (s : State) (i base : Nat) (word : Pt) (time x : Nat) (range : Option (Nat × Nat)) (bad : Bool) :
    Keeps 0x400080 s (s.samplePoints i base word time x range bad) :=
  State.showInput_keeps (by decide) (State.setWork_keeps (by decide) (State.modAin_keeps (by decide) (State.setPoint_keeps (by decide)
    (State.setWork_keeps (by decide) (.refl s)))))

/-- The word and the time of a sample stand in its points. -/
theorem State.samplePoints_work {s : State} (h : tabWf Pt.clear s.pts.work = true) (i : Nat) {base : Nat} (hbase : base = 0 ∨ base = 2) (word : Pt)
    (time x : Nat) (range : Option (Nat × Nat)) (bad : Bool) :
    let t := s.samplePoints i base word time x range bad
    t.work (inPoint i base) = word ∧ t.work (inPoint i (base + 1)) = ⟨time % 2 ^ 64, false⟩ := by
  intro t
  have hfirst := State.setWork_wf h (inPoint i base) word
  have hsecond : tabWf Pt.clear ((s.setWork (inPoint i base) word).setPoint (inPoint i (base + 1)) time).pts.work = true := tabWf_tabSet hfirst
  let u := ((s.setWork (inPoint i base) word).setPoint (inPoint i (base + 1)) time).modAin i
    (fun r => { r with n := r.n + 1, range := some (widen r.range x) })
  let w := u.setWork (inPoint i 4) ⟨(widen range x).1 + 2 ^ 32 * (widen range x).2, bad⟩
  have hread : ∀ a, a ≠ inPoint i 4 → a ≠ inPoint i 7 → t.work a = ((s.setWork (inPoint i base) word).setPoint (inPoint i (base + 1)) time).work a :=
    fun a hrange hstate => ((State.work_setPoint (s := w) (tabWf_tabSet hsecond) (inPoint i 7) _ a).trans (if_neg hstate)).trans
      ((State.work_setWork (s := u) hsecond (inPoint i 4) _ a).trans (if_neg hrange))
  have hplace : ∀ a b, inPoint i a = inPoint i b → a = b := fun a b hab => by
    unfold inPoint at hab
    omega
  constructor
  · rw [hread _ (fun he => by have := hplace _ _ he; omega) (fun he => by have := hplace _ _ he; omega), State.work_setPoint hfirst,
      if_neg (fun he => by have := hplace _ _ he; omega), State.work_setWork h, if_pos rfl]
  · rw [hread _ (fun he => by have := hplace _ _ he; omega) (fun he => by have := hplace _ _ he; omega), State.work_setPoint hfirst, if_pos rfl]

/-- A sample that is recorded: its word and its time in the points of its input, one more sample of the input. -/
theorem State.recordSample_effect {s : State} (hs : Sound s) (m : SampleInfo) (hi : m.input < 32) (v gain time : Nat) :
    let t := s.recordSample m v gain time
    let base := if m.injected then 2 else 0
    t.work (inPoint m.input base) = s.sampleWord m v ∧ t.work (inPoint m.input (base + 1)) = ⟨time % 2 ^ 64, false⟩
      ∧ InputMoved m.input 1 s t := by
  rw [State.recordSample_eq]
  dsimp only
  have hbase : (if m.injected then 2 else 0) = 0 ∨ (if m.injected then 2 else 0) = 2 := by
    cases m.injected
    · exact .inl rfl
    · exact .inr rfl
  generalize (if m.injected then 2 else 0) = base at *
  have hkeeps := s.sampleNoted_keeps m
  have hinput := State.sampleNoted_input hs.measure.2.1 m
  have hpts : tabWf Pt.clear (s.sampleNoted m).pts.work = true := by
    rw [hkeeps.pts.get (by decide)]
    exact hs.points.1
  generalize s.sampleNoted m = u at *
  obtain ⟨hword, htime⟩ := State.samplePoints_work hpts m.input hbase (s.sampleWord m v) time (s.sampleValue m.input v).v (s.ain m.input).range
    (s.sampleValue m.input v).bad
  have hmoved := State.samplePoints_input hinput base (s.sampleWord m v) time (s.sampleValue m.input v).v (s.ain m.input).range
    (s.sampleValue m.input v).bad
  have hwf : tabWf Pt.clear (u.samplePoints m.input base (s.sampleWord m v) time (s.sampleValue m.input v).v (s.ain m.input).range
    (s.sampleValue m.input v).bad).pts.work = true := tabWf_tabSet (tabWf_tabSet (tabWf_tabSet (tabWf_tabSet hpts)))
  generalize u.samplePoints m.input base (s.sampleWord m v) time (s.sampleValue m.input v).v (s.ain m.input).range (s.sampleValue m.input v).bad = w at *
  have hpch : Keeps 0x1000010 w (if m.injected || m.flags / 8 % 2 = 1 then w else w.pchSample m.input v) :=
    .ite (.refl w) (State.pchSample_keeps (by decide) (.refl w))
  generalize (if m.injected || m.flags / 8 % 2 = 1 then w else w.pchSample m.input v) = p at *
  have hcal : Keeps 0x400512 p (p.calSample m v gain) := State.calSample_keeps (by decide) (.refl p)
  have hlow : LowWork w ((p.calSample m v gain).streamItem (some m.core) m.input (s.sampleWord m v) time) :=
    (((LowWork.refl hwf).pts (hpch.pts.get (by decide))).pts (hcal.pts.get (by decide))).streamItem _ _ _ _
  have hbelow : ∀ b, b < 8 → inPoint m.input b < 0x2000 := fun b hb => by
    unfold inPoint
    omega
  refine ⟨(hlow.same _ (hbelow _ (by omega))).trans hword, (hlow.same _ (hbelow _ (by omega))).trans htime, ?_⟩
  exact ((hmoved.adc (hpch.adc.get (by decide))).calSample m v gain).streamItem _ _ _ _

/-! ### The rounds of one core -/

/-- One core moved on; the other cores, the inputs and the subscriptions are as before. -/
structure CoreMoved (c : Nat) (s t : State) : Prop where
  wf : tabWf CoreRt.clear t.adc.cores = true
  others : ∀ n, n ≠ c → t.core n = s.core n
  ains : t.adc.ains = s.adc.ains
  subs : t.adc.subs = s.adc.subs

namespace CoreMoved

variable {c : Nat} {s t u : State}

theorem refl (h : tabWf CoreRt.clear s.adc.cores = true) : CoreMoved c s s := ⟨h, fun _ _ => rfl, rfl, rfl⟩

theorem adc (h : CoreMoved c s t) (hu : u.adc = t.adc) : CoreMoved c s u := by
  have hcore : u.core = t.core := by
    unfold State.core
    rw [hu]
  exact ⟨hu ▸ h.wf, hcore ▸ h.others, hu ▸ h.ains, hu ▸ h.subs⟩

theorem modCore (h : CoreMoved c s t) (f : CoreRt → CoreRt) : CoreMoved c s (t.modCore c f) :=
  ⟨State.modCore_cores h.wf c f, fun n hn => ((tabGet_tabSet h.wf).trans (if_neg hn)).trans (h.others n hn), h.ains, h.subs⟩

theorem startRun (h : CoreMoved c s t) : CoreMoved c s (t.startRun c) := h.modCore _

theorem nextEntry (h : CoreMoved c s t) : CoreMoved c s (t.nextEntry c) := by
  unfold State.nextEntry
  dsimp only
  split
  · exact h.modCore _
  · split
    · exact h.startRun
    · exact h.modCore _

theorem showCore (h : CoreMoved c s t) : CoreMoved c s (t.showCore c) := h.adc rfl

theorem roundEnd (h : CoreMoved c s t) : CoreMoved c s (t.roundEnd c) := by
  unfold State.roundEnd
  dsimp only
  split
  · split
    · exact h.modCore _
    · split
      · exact h.modCore _
      · split
        · exact ((h.modCore _).adc (u := State.count _ Reg.ADC_SPOIL_CORE.served c) rfl).modCore _
        · exact (h.modCore _).nextEntry
  · exact h

theorem serveInjected (h : CoreMoved c s t) (b : Nat) : CoreMoved c s (t.serveInjected c b) := by
  unfold State.serveInjected
  dsimp only
  split
  · exact (h.modCore _).adc rfl
  · exact h

theorem boundary (h : CoreMoved c s t) : CoreMoved c s (t.boundary c) := ((h.roundEnd.serveInjected _).modCore _).showCore

theorem rounds (now : Nat) : ∀ (fuel : Nat) {t : State}, CoreMoved c s t → CoreMoved c s (t.rounds c now fuel)
  | 0, _, h => h
  | fuel + 1, t, h => by
    unfold State.rounds
    split
    · exact h
    · exact CoreMoved.rounds now fuel h.boundary

theorem coreAdvance (h : CoreMoved c s t) (now : Nat) : CoreMoved c s (t.coreAdvance c now) := by
  unfold State.coreAdvance
  dsimp only
  split
  · exact h
  · split
    · exact h.rounds now _
    · exact h.modCore _

end CoreMoved

theorem apart_coreRegs {f : Field} {i : Nat} (c : Fin 4) (hi : i < 8192)
    (hf : ((coreRegs 0).map (·.1)).all (fun g => g.place != f.place) = true) : Apart f i (coreRegs c) := by
  have hc : c.val < 8192 := Nat.lt_trans c.isLt (by decide)
  refine ⟨?_, hi, by simp [hc]⟩
  simpa only [List.map_cons, List.map_nil, List.all_cons, List.all_nil, Bool.and_true] using hf

/-- Whether a core converts does not turn on what the rounds of one show. -/
theorem State.coreRuns_wrote {s t : State} {c : Fin 4} (hw : Wrote (coreRegs c) s t) (hk : Keeps 0x400010 s t) (n : Nat) :
    t.coreRuns n = s.coreRuns n := by
  unfold State.coreRuns State.adcRuns State.running State.role State.domain State.flag
  rw [hw.rd (apart_coreRegs c (by decide) (by decide)), hw.rd (apart_coreRegs c (by decide) (by decide)),
    hw.rd (apart_coreRegs c (by decide) (by decide)), hk.cfg.get (by decide), hk.bs.get (by decide)]

/-- The value of a sample rests on gain and offset in the published image. -/
theorem State.sampleValue_congr {s t : State} (h : t.pts.pub = s.pts.pub) (i v : Nat) : t.sampleValue i v = s.sampleValue i v := by
  unfold State.sampleValue State.pub
  rw [h]

theorem State.sampleWord_value (s : State) (m : SampleInfo) (v : Nat) :
    (s.sampleWord m v).v % 2 ^ 32 = (s.sampleValue m.input v).v % 2 ^ 32 ∧ (s.sampleWord m v).bad = (s.sampleValue m.input v).bad := by
  unfold State.sampleWord
  refine ⟨?_, rfl⟩
  dsimp only
  omega

/-! ### Samples of rounds (R318) -/

/-- Station time of a core cycle. -/
def Clk.timeAt (c : Clk) (n : Nat) : Nat := ({ c with count := n } : Clk).time

/-- What ADC_SAMPLE records of the oldest sample. -/
def Forming.info (x : Forming) (c : Nat) (codes : List Nat) : SampleInfo :=
  ⟨c, 8 * c + x.entry.input, x.num, bit x.settle + 2 * bit (anyClip codes) + 16 * bit x.lead, x.injected, x.delay⟩

theorem exec_adcSample {s : State} {c : Fin 4} {x : Forming} {l : List Forming} {codes : List Nat}
    (hruns : (s.coreAdvance c s.clk.count).coreRuns c = true) (hforming : ((s.coreAdvance c s.clk.count).core c).forming = x :: l)
    (hdue : x.due ≤ (s.coreAdvance c s.clk.count).clk.count) (hcodes : codes.length = 8 * x.rounds) :
    let w := (s.coreAdvance c s.clk.count).modCore c (fun r => { r with forming := l })
    exec (.adcSample c codes) s = .next (w.recordSample (x.info c codes)
      (codeVolts (codes.foldl (fun z y => z + signedOf 16 y) 0) codes.length x.entry.gain 32768) x.entry.gain
      (w.clk.timeAt (x.first + (codes.length - 1)))) := by
  intro w
  change execAdcSample c codes s = _
  unfold execAdcSample
  dsimp only
  unfold State.cycle at *
  rw [hforming]
  dsimp only
  rw [if_neg (by simp [hruns, hdue, hcodes]), List.take_of_length_le (Nat.le_of_eq hcodes)]
  rfl

/-! ### Output samples of the delta-sigma mode (R330) -/

theorem State.dsOutput_bits (s : State) (d : DsRt) (bits : List Bool) : (s.dsOutput d bits).1.2.bits = (bits.reverse ++ d.bits).take 4000 := by
  unfold State.dsOutput
  dsimp only
  split <;> rfl

theorem exec_dsSample {s : State} {c : Fin 4} {bits : List Bool} {x : SeqEntry}
    (hruns : s.coreRuns c = true) (hmode : (s.core c).mode = 2) (htail : (s.core c).tail = none) (hrun : (s.core c).running = true)
    (hentry : (s.core c).entries[(s.core c).pos]? = some x) (hbits : (s.core c).ds.osr ≤ bits.length) (hmore : (s.core c).taken + 1 < x.rounds) :
    let r := s.core c
    let o := s.dsOutput r.ds (bits.take r.ds.osr)
    let v := o.2.modCore c (fun r => { r with ds := o.1.2 })
    let w := v.modCore c (fun q => { q with last := some (x.input, x.gain), ds := { q.ds with settle := r.unsettled x - 1 }, taken := q.taken + 1 })
    exec (.dsSample c bits) s = .next (w.dsRecord c r.pos x { r.ds with settle := r.unsettled x } o.1.1) := by
  intro r o v w
  change execDsSample c bits s = _
  unfold execDsSample
  dsimp only
  rw [if_neg (by simp [hruns]), htail]
  dsimp only
  rw [if_neg (by simp [hmode, hbits]), hrun, hentry]
  dsimp only
  rw [if_pos hmore]

end Sys2Proof.Machine

namespace Sys2Proof.Proofs

open Sys2Proof.Machine Sys2Proof.Safety

variable {s : State}

/-- The parts that a recorded sample changes. -/
abbrev sampleParts : List Part := [.pts, .fab, .adc, .red, .saf, .arb] ++ eventParts

theorem adcSample_effect (hs : Sound s) (c : Fin 4) (hruns : s.coreRuns c = true) {x : Forming} {l : List Forming} {codes : List Nat}
    (hforming : ((s.coreAdvance c s.clk.count).core c).forming = x :: l) (hdue : x.due ≤ s.clk.count) (hinput : x.entry.input < 8)
    (hcodes : codes.length = 8 * x.rounds) :
    let u := s.coreAdvance c s.clk.count
    let i := 8 * c.val + x.entry.input
    let base := if x.injected then 2 else 0
    let v := codeVolts (codes.foldl (fun z y => z + signedOf 16 y) 0) codes.length x.entry.gain 32768
    ∃ t, exec (.adcSample c codes) s = .next t
      ∧ (t.work (inPoint i base)).v % 2 ^ 32 = (s.sampleValue i v).v % 2 ^ 32
      ∧ (t.work (inPoint i base)).bad = (s.sampleValue i v).bad
      ∧ t.work (inPoint i (base + 1)) = ⟨({ s.clk with count := x.first + (8 * x.rounds - 1) } : Clk).time % 2 ^ 64, false⟩
      ∧ (t.ain i).n = (s.ain i).n + 1 ∧ t.core c = { u.core c with forming := l }
      ∧ (∀ n, n ≠ c.val → t.core n = s.core n) ∧ (∀ n, n ≠ i → t.ain n = s.ain n) ∧ t.adc.subs = s.adc.subs ∧ t.pts.pub = s.pts.pub
      ∧ Only sampleParts s t := by
  intro u i base v
  have hi : i < 32 := by
    have := c.isLt
    omega
  have hku : Keeps 0x400010 s u := State.coreAdvance_keeps (by decide) (.refl s)
  have hwu : Wrote (coreRegs c) s u := (Wrote.refl hs.regs).coreAdvance (fun _ hp => hp) _
  have hmu : CoreMoved c s u := (CoreMoved.refl hs.measure.1).coreAdvance _
  have hclk : u.clk = s.clk := hku.clk.get (by decide)
  have hexec := exec_adcSample ((State.coreRuns_wrote hwu hku c).trans hruns) hforming (hclk.symm ▸ hdue) hcodes
  dsimp only at hexec
  change exec (.adcSample c codes) s = .next (State.recordSample (u.modCore c (fun r => { r with forming := l })) _ v _ _) at hexec
  have hkw : Keeps 0x400010 s (u.modCore c (fun r => { r with forming := l })) := State.modCore_keeps (by decide) hku
  have hmw := hmu.modCore (fun r => { r with forming := l })
  have hcore := State.core_modCore hmu.wf c (fun r => { r with forming := l })
  generalize u.modCore c (fun r => { r with forming := l }) = w at *
  obtain ⟨hword, htime, hmoved⟩ := State.recordSample_effect (hkw.sound hs) (x.info c codes) hi v x.entry.gain
    (w.clk.timeAt (x.first + (codes.length - 1)))
  obtain ⟨hvalue, hbad⟩ := State.sampleWord_value w (x.info c codes) v
  have hkt : Keeps 0x201d00592 s (w.recordSample (x.info c codes) v x.entry.gain (w.clk.timeAt (x.first + (codes.length - 1)))) :=
    State.recordSample_keeps (by decide) (hkw.mono (by decide))
  have hsample : w.sampleValue i v = s.sampleValue i v := State.sampleValue_congr (congrArg Pts.pub (hkw.pts.get (by decide))) i v
  rw [hkw.clk.get (by decide)] at hexec hword htime hmoved hkt
  have hlast : s.clk.timeAt (x.first + (codes.length - 1)) = s.clk.timeAt (x.first + (8 * x.rounds - 1)) := by rw [hcodes]
  have hains : ∀ n, w.ain n = s.ain n := fun n => by
    unfold State.ain
    rw [hmw.ains]
  have hcores : ∀ {t : State} n, t.adc.cores = w.adc.cores → t.core n = w.core n := fun n h => by
    unfold State.core
    rw [h]
  refine ⟨_, hexec, ?_, ?_, htime.trans (congrArg (fun t => Pt.mk (t % 2 ^ 64) false) hlast), ?_, (hcores c hmoved.cores).trans hcore, fun n hn => (hcores n hmoved.cores).trans (hmw.others n hn),
    fun n hn => (hmoved.others n hn).trans (hains n), hmoved.subs.trans hmw.subs, hkt.published.get (by decide), hkt.only (by decide)⟩
  · exact ((congrArg (·.v % 2 ^ 32) hword).trans hvalue).trans (congrArg (·.v % 2 ^ 32) hsample)
  · exact ((congrArg Pt.bad hword).trans hbad).trans (congrArg Pt.bad hsample)
  · rw [← hains]
    exact hmoved.counted

theorem dsSample_effect (hs : Sound s) (c : Fin 4) (hruns : s.coreRuns c = true) {x : SeqEntry} {bits : List Bool} (hinput : x.input < 8)
    (hmode : (s.core c).mode = 2) (htail : (s.core c).tail = none) (hrun : (s.core c).running = true)
    (hentry : (s.core c).entries[(s.core c).pos]? = some x) (hbits : (s.core c).ds.osr ≤ bits.length) (hmore : (s.core c).taken + 1 < x.rounds) :
    let r := s.core c
    let i := 8 * c.val + x.input
    ∃ t, exec (.dsSample c bits) s = .next t ∧ (t.core c).taken = r.taken + 1 ∧ (t.core c).pos = r.pos
      ∧ (t.core c).ds.bits = ((bits.take r.ds.osr).reverse ++ r.ds.bits).take 4000
      ∧ t.work (inPoint i 1) = ⟨({ s.clk with count := s.clk.count - dsDelay r.ds.osr r.ds.fir } : Clk).time % 2 ^ 64, false⟩
      ∧ (t.ain i).n = (s.ain i).n + 1 ∧ (∀ n, n ≠ c.val → t.core n = s.core n) ∧ t.pts.pub = s.pts.pub
      ∧ Only (.free :: sampleParts) s t := by
  intro r i
  have hi : i < 32 := by
    have := c.isLt
    omega
  have hexec := exec_dsSample hruns hmode htail hrun hentry hbits hmore
  dsimp only at hexec
  have hob := State.dsOutput_bits s r.ds (bits.take r.ds.osr)
  have hko : Keeps 0x4 s (s.dsOutput r.ds (bits.take r.ds.osr)).2 := State.dsOutput_keeps (by decide) (.refl s)
  change exec (.dsSample c bits) s = .next (State.dsRecord (State.modCore ((s.dsOutput r.ds (bits.take r.ds.osr)).2.modCore c
    (fun q => { q with ds := (s.dsOutput r.ds (bits.take r.ds.osr)).1.2 })) c (fun q => { q with
      last := some (x.input, x.gain), ds := { q.ds with settle := r.unsettled x - 1 }, taken := q.taken + 1 })) c r.pos x _
    (s.dsOutput r.ds (bits.take r.ds.osr)).1.1) at hexec
  generalize s.dsOutput r.ds (bits.take r.ds.osr) = o at *
  have hmo : CoreMoved c s o.2 := (CoreMoved.refl hs.measure.1).adc (hko.adc.get (by decide))
  have hmv := hmo.modCore (fun q => { q with ds := o.1.2 })
  have hkw : Keeps 0x400004 s (State.modCore (o.2.modCore c (fun q => { q with ds := o.1.2 })) c (fun q => { q with
      last := some (x.input, x.gain), ds := { q.ds with settle := r.unsettled x - 1 }, taken := q.taken + 1 })) :=
    State.modCore_keeps (by decide) (State.modCore_keeps (by decide) (hko.mono (by decide)))
  have hmw := hmv.modCore (fun q => { q with last := some (x.input, x.gain), ds := { q.ds with settle := r.unsettled x - 1 }, taken := q.taken + 1 })
  have hcore := State.core_modCore hmv.wf c (fun q => { q with
    last := some (x.input, x.gain), ds := { q.ds with settle := r.unsettled x - 1 }, taken := q.taken + 1 })
  have hbefore : (o.2.modCore c (fun q => { q with ds := o.1.2 })).core c = { r with ds := o.1.2 } := by
    rw [State.core_modCore hmo.wf]
    unfold State.core
    rw [hko.adc.get (by decide)]
    rfl
  rw [hbefore] at hcore
  generalize State.modCore (o.2.modCore c (fun q => { q with ds := o.1.2 })) c (fun q => { q with
      last := some (x.input, x.gain), ds := { q.ds with settle := r.unsettled x - 1 }, taken := q.taken + 1 }) = w at *
  change exec (.dsSample c bits) s = .next (w.recordSample
    ⟨c, 8 * c + x.input, r.pos, bit (r.unsettled x != 0) + 2 * bit (o.1.1 == 8388607 || o.1.1 == -8388608) + 8, false, 0⟩
    (codeVolts o.1.1 1 x.gain 8388608) x.gain (w.clk.timeAt (w.clk.count - dsDelay r.ds.osr r.ds.fir))) at hexec
  generalize hm : (⟨c, 8 * c + x.input, r.pos, bit (r.unsettled x != 0) + 2 * bit (o.1.1 == 8388607 || o.1.1 == -8388608) + 8, false, 0⟩ :
    SampleInfo) = m at *
  have hmi : m.input = i := by rw [← hm]
  have hinj : m.injected = false := by rw [← hm]
  obtain ⟨-, htime, hmoved⟩ := State.recordSample_effect (hkw.sound hs) m (hmi ▸ hi) (codeVolts o.1.1 1 x.gain 8388608) x.gain
    (w.clk.timeAt (w.clk.count - dsDelay r.ds.osr r.ds.fir))
  have hkt : Keeps 0x201d00596 s (w.recordSample m (codeVolts o.1.1 1 x.gain 8388608) x.gain
      (w.clk.timeAt (w.clk.count - dsDelay r.ds.osr r.ds.fir))) := State.recordSample_keeps (by decide) (hkw.mono (by decide))
  rw [hmi, hinj] at htime
  rw [hmi] at hmoved
  rw [hkw.clk.get (by decide)] at hexec htime hmoved hkt
  have hcores : ∀ {t : State} n, t.adc.cores = w.adc.cores → t.core n = w.core n := fun n h => by
    unfold State.core
    rw [h]
  have hthis := (hcores c hmoved.cores).trans hcore
  refine ⟨_, hexec, ?_, ?_, ?_, htime, ?_, fun n hn => (hcores n hmoved.cores).trans (hmw.others n hn), hkt.published.get (by decide),
    hkt.only (by decide)⟩
  · rw [hthis]
  · rw [hthis]
  · rw [hthis]
    exact hob
  · rw [hmoved.counted]
    unfold State.ain
    rw [hmw.ains]

/-- Settles O43: behind the points of the sample nothing writes the working image below the status points of the graphs. -/
theorem samplesReachPoints : Obligations.SamplesReachPoints := by
  unfold Obligations.SamplesReachPoints
  intro s c hs hruns u
  refine ⟨fun x l codes hforming hdue hinput hcodes => adcSample_effect hs c hruns hforming hdue hinput hcodes, ?_⟩
  intro x bits r i hinput hmode htail hrun hentry hbits hmore
  exact dsSample_effect hs c hruns hinput hmode htail hrun hentry hbits hmore

end Sys2Proof.Proofs

/-! ## The image shown while a bit-stream starts

The start of a bit-stream goes through every block of the device. `ImageShown s t` says that on the way from `s` to `t` the register store stays
canonical and CFG_STAT keeps its state, its image and its fallback: every field that the start writes lies past them in the register map, or is a
field of GLB or PWR of a unit of the map. -/

namespace Sys2Proof.Machine

open Sys2Proof.Safety

-- Each of the many short proofs below decides closed facts in the kernel, which waits for the declarations before it: one after another.
set_option Elab.async false

/-- The fields of CFG_STAT that show which image runs. -/
abbrev imageFields : List Field := [Reg.CFG_STAT.state, Reg.CFG_STAT.image, Reg.CFG_STAT.fallback]

/-- The first place past them. -/
abbrev imageEnd : Nat := 0x2008 * 32 + 5

/-- Every part of the state but the registers. -/
abbrev allButRegs : Nat := 0x3FFFFFFEF

def ImageShown (s t : State) : Prop := tabWf 0 s.regs = true → tabWf 0 t.regs = true ∧ ∀ f ∈ imageFields, t.rd f 0 = s.rd f 0

theorem imageFields_place {f : Field} (hf : f ∈ imageFields) : 0x2008 * 32 ≤ f.place ∧ f.place < imageEnd := by
  have hall : imageFields.all (fun f => decide (0x2008 * 32 ≤ f.place) && decide (f.place < imageEnd)) = true := by decide
  have hplace := List.all_eq_true.mp hall f hf
  simpa only [Bool.and_eq_true, decide_eq_true_eq] using hplace

theorem State.clearFields_regs (s : State) (l : List Field) :
    (s.clearFields l).regs = tabDrop (fun k => (l.map (fun f => f.addr * 32 + f.lo)).contains (k / 8192)) s.regs := rfl

namespace ImageShown

variable {s t u : State}

theorem refl (s : State) : ImageShown s s := fun hw => ⟨hw, fun _ _ => rfl⟩

theorem trans (h : ImageShown s t) (h' : ImageShown t u) : ImageShown s u := fun hw =>
  have ⟨hwt, ht⟩ := h hw
  have ⟨hwu, hu⟩ := h' hwt
  ⟨hwu, fun f hf => (hu f hf).trans (ht f hf)⟩

theorem same (h : ImageShown s t) (hregs : u.regs = t.regs := by rfl) : ImageShown s u :=
  h.trans fun hw => ⟨by rw [hregs]; exact hw, fun f _ => by unfold State.rd; rw [hregs]⟩

/-- An operation that leaves the registers. -/
theorem keeps (h : ImageShown s t) (hk : Keeps allButRegs t u) : ImageShown s u := h.same (hk.regs.get (by decide))

/-- A field past the image's, of any unit. -/
theorem wr {f : Field} {i v : Nat} (h : ImageShown s t) (hf : imageEnd ≤ f.place := by decide) : ImageShown s (t.wr f i v) :=
  h.trans fun hw => ⟨State.regs_wr f i v hw, fun g hg => State.rd_wr_ne f i v g 0 hw (by
    have hplace := imageFields_place hg
    unfold Field.place at hf hplace
    unfold regKey
    omega)⟩

/-- A field before the image's, of a unit of the map. -/
theorem wrLow {f : Field} {i v : Nat} (h : ImageShown s t) (hi : i < 8192) (hf : f.place < 0x2008 * 32 := by decide) : ImageShown s (t.wr f i v) :=
  h.trans fun hw => ⟨State.regs_wr f i v hw, fun g hg => State.rd_wr_ne f i v g 0 hw (by
    have hplace := imageFields_place hg
    unfold Field.place at hf hplace
    unfold regKey
    omega)⟩

theorem add {f : Field} {i n : Nat} (h : ImageShown s t) (hf : imageEnd ≤ f.place := by decide) : ImageShown s (t.add f i n) := h.wr hf

theorem count {f : Field} {i : Nat} (h : ImageShown s t) (hf : imageEnd ≤ f.place := by decide) : ImageShown s (t.count f i) := h.wr hf

theorem setBit {f : Field} {i n : Nat} {v : Bool} (h : ImageShown s t) (hf : imageEnd ≤ f.place := by decide) :
    ImageShown s (t.setBit f i n v) := h.wr hf

theorem wrPair {lo hi : Field} {i v : Nat} (h : ImageShown s t) (hlo : imageEnd ≤ lo.place := by decide)
    (hhi : imageEnd ≤ hi.place := by decide) : ImageShown s (t.wrPair lo hi i v) := (h.wr hlo).wr hhi

/-- What writes listed fields alone. -/
theorem wrote {l : List (Field × Nat)} (h : ImageShown s t) (hw : tabWf 0 t.regs = true → Wrote l t u)
    (hl : ∀ f ∈ imageFields, regKey f 0 ∉ l.map (fun p => regKey p.1 p.2)) : ImageShown s u :=
  h.trans fun hwf => ⟨(hw hwf).wf, fun f hf => (hw hwf).but f 0 (hl f hf)⟩

/-- What writes fields of arms, lanes and units, and listed ones. -/
theorem above {l : List (Field × Nat)} (h : ImageShown s t) (hw : tabWf 0 t.regs = true → AboveWrote armBase l t u)
    (hl : ∀ f ∈ imageFields, regKey f 0 ∉ l.map (fun p => regKey p.1 p.2)) : ImageShown s u :=
  h.trans fun hwf => ⟨(hw hwf).wf, fun f hf =>
    (hw hwf).rd (by decide) (Nat.lt_of_lt_of_le (imageFields_place hf).2 (by decide)) (hl f hf)⟩

/-- What a release writes. -/
theorem fabric (h : ImageShown s t) (hw : tabWf 0 t.regs = true → FabricWrote t u) : ImageShown s u :=
  h.trans fun hwf => ⟨(hw hwf).wf, fun f hf =>
    (hw hwf).rd (by decide) (Nat.lt_of_lt_of_le (imageFields_place hf).2 (by decide))
      ((by decide : ∀ f ∈ imageFields, regKey f 0 ∉ releaseRegs.map (fun p => regKey p.1 p.2)) f hf)⟩

theorem events_apart : ∀ f ∈ imageFields, regKey f 0 ∉ eventRegs.map (fun p => regKey p.1 p.2) := by decide

theorem raise {code inst data : Nat} (h : ImageShown s t) : ImageShown s (t.raise code inst data) :=
  h.wrote (fun hw => (Wrote.refl hw).raise code inst data fun _ hp => hp) events_apart

theorem ite {c : Prop} [Decidable c] (ht : ImageShown s t) (hu : ImageShown s u) : ImageShown s (if c then t else u) := by
  split <;> assumption

/-- An operation that happens in one case alone. -/
theorem andThen {c : Prop} [Decidable c] (h : ImageShown s t) (hu : ImageShown t u) : ImageShown s (if c then u else t) := .ite (h.trans hu) h

theorem orElse {c : Prop} [Decidable c] (h : ImageShown s t) (hu : ImageShown t u) : ImageShown s (if c then t else u) := .ite h (h.trans hu)

theorem foldl {α : Type} {f : State → α → State} {l : List α} (h : ImageShown s t)
    (hf : ∀ x ∈ l, ∀ u, ImageShown s u → ImageShown s (f u x)) : ImageShown s (l.foldl f t) := by
  induction l generalizing t with
  | nil => exact h
  | cons x l ih =>
    exact ih (hf x List.mem_cons_self _ h) fun y hy => hf y (List.mem_cons_of_mem _ hy)

theorem forEach {n : Nat} {f : Nat → State → State} (h : ImageShown s t) (hf : ∀ i u, ImageShown s u → ImageShown s (f i u)) :
    ImageShown s (State.forEach n f t) := h.foldl fun i _ u => hf i u

/-- Fields that go back to their reset value. -/
theorem clearFields {l : List Field} (h : ImageShown s t) (hl : l.all (fun f => decide (imageEnd ≤ f.place)) = true) :
    ImageShown s (t.clearFields l) :=
  h.trans fun hw => ⟨by rw [State.clearFields_regs]; exact tabWf_tabDrop hw, fun f hf => by
    have hplace := imageFields_place hf
    have hkey : regKey f 0 / 8192 = f.place := by unfold regKey Field.place; omega
    have hclear : (l.map (fun f => f.addr * 32 + f.lo)).contains f.place = false := by
      refine Bool.eq_false_iff.mpr fun hc => ?_
      obtain ⟨g, hg, heq⟩ := List.mem_map.mp (List.contains_iff_mem.mp hc)
      have hpast := of_decide_eq_true (List.all_eq_true.mp hl g hg)
      unfold Field.place at hpast hplace heq
      omega
    unfold State.rd
    rw [State.clearFields_regs]
    unfold tabDrop
    rw [tabGet_filter (fun k => !(l.map (fun f => f.addr * 32 + f.lo)).contains (k / 8192)) (regKey f 0) hw, hkey, hclear]
    rfl⟩

/-! ### The other parts -/

theorem modArm {a : Nat} {f : ArmRt → ArmRt} (h : ImageShown s t) : ImageShown s (t.modArm a f) := h.same

theorem modCell {c : Nat} {f : CellRt → CellRt} (h : ImageShown s t) : ImageShown s (t.modCell c f) := h.same

theorem modLane {l : Nat} {f : LaneRt → LaneRt} (h : ImageShown s t) : ImageShown s (t.modLane l f) := h.same

theorem modDrv {ch : Nat} {f : DrvRt → DrvRt} (h : ImageShown s t) : ImageShown s (t.modDrv ch f) := h.same

theorem modCore {c : Nat} {f : CoreRt → CoreRt} (h : ImageShown s t) : ImageShown s (t.modCore c f) := h.same

theorem modFab {f : Fab → Fab} (h : ImageShown s t) : ImageShown s (t.modFab f) := h.same

theorem modGraph {g : Nat} {f : GraphRt → GraphRt} (h : ImageShown s t) : ImageShown s (t.modGraph g f) := h.same

theorem modFlow {n : Nat} {f : FlowRt → FlowRt} (h : ImageShown s t) : ImageShown s (t.modFlow n f) := h.same

theorem modRed {f : Red → Red} (h : ImageShown s t) : ImageShown s (t.modRed f) := h.same

theorem modPwr {f : Pwr → Pwr} (h : ImageShown s t) : ImageShown s (t.modPwr f) := h.same

theorem modSaf {f : Saf → Saf} (h : ImageShown s t) : ImageShown s (t.modSaf f) := h.same

theorem modOrd {f : Ord → Ord} (h : ImageShown s t) : ImageShown s (t.modOrd f) := h.same

theorem modInput {i : Nat} {f : InputRt → InputRt} (h : ImageShown s t) : ImageShown s (t.modInput i f) := h.same

theorem modAdc {f : Adc → Adc} (h : ImageShown s t) : ImageShown s (t.modAdc f) := h.same

theorem modSub {n : Nat} {f : SvRt → SvRt} (h : ImageShown s t) : ImageShown s (t.modSub n f) := h.same

theorem modEpo {f : Epo → Epo} (h : ImageShown s t) : ImageShown s (t.modEpo f) := h.same

theorem withWire {w : List Wire} (h : ImageShown s t) : ImageShown s { t with wire := w } := h.same

theorem setCond {c : Nat} {v : Bool} (h : ImageShown s t) : ImageShown s (t.setCond c v) := h.same

theorem setBoth {a v : Nat} (h : ImageShown s t) : ImageShown s (t.setBoth a v) := h.same

/-! ### Arms and lanes -/

theorem armTable (h : ImageShown s t) (m : ArmEntry) : ImageShown s (t.armTable m) := by
  unfold State.armTable
  exact h.wr.wr.wr.wr.wr.wr.wr.wr.wr.wr.wr.wr.wr.wr

theorem armWindow (h : ImageShown s t) (a : Nat) : ImageShown s (t.armWindow a) := by
  unfold State.armWindow State.takeWindow
  exact .ite h.same h.raise

theorem armStart (h : ImageShown s t) (m : ArmEntry) : ImageShown s (t.armStart m) := by
  unfold State.armStart
  exact (ImageShown.armWindow (h.armTable m).same _).wr

theorem showLane (h : ImageShown s t) (l : Nat) : ImageShown s (t.showLane l) := h.wr

theorem laneTable (h : ImageShown s t) (e : LaneEntry) : ImageShown s (t.laneTable e) := by
  unfold State.laneTable
  refine ImageShown.foldl h.wr.wr.wr.wr fun l _ u hu => .showLane (.modLane ?_) l
  split
  · exact hu.wr.wr.wr.wr.wr.wr.wr.wr.wr.wr.wr.wr
  · exact hu.wr.wr.wr.wr.wr.wr.wr

/-! ### Drive channels -/

theorem pinEdge (h : ImageShown s t) (ch : Nat) (e : PinEdge) : ImageShown s (t.pinEdge ch e) := by
  have hedge : ∀ d, ImageShown s d → ImageShown s (match e.dead with
      | some n => d.wr Reg.DRV_DUTY.dead_applied ch (n / 16)
      | none => d) := fun d hd => by
    split
    · exact hd.wr
    · exact hd
  have hpin : ∀ f, ImageShown s (((t.faultLow (t.drvRt ch).flt e.low).2.modDrv ch f).emitEdge ch e) := fun f =>
    (h.keeps (State.faultLow_keeps (by decide) (.refl _))).same
  unfold State.pinEdge
  exact .ite (ImageShown.wr (hedge _ (hpin _))).setCond (hedge _ (hpin _))

theorem drvLatch (h : ImageShown s t) (ch : Nat) : ImageShown s (t.drvLatch ch) := by
  unfold State.drvLatch
  split
  · exact .ite h.modDrv.wr.setCond h
  · exact h

theorem drvLow (h : ImageShown s t) (ch x : Nat) : ImageShown s (t.drvLow ch x) := by
  have hflush : ImageShown s (t.drvFlush ch x) := by
    unfold State.drvFlush
    exact (ImageShown.foldl h.modDrv fun e _ _ hu => hu.pinEdge ch e).drvLatch ch
  unfold State.drvLow
  exact .ite (hflush.modDrv.pinEdge ch _).modDrv hflush.modDrv

theorem drvTakeCtl (h : ImageShown s t) (ch : Nat) : ImageShown s (t.drvTakeCtl ch) :=
  h.keeps (State.drvTakeCtl_keeps (by decide) (.refl _))

theorem drvStart (h : ImageShown s t) (ch : Nat) : ImageShown s (t.drvStart ch) := by
  unfold State.drvStart
  exact (h.drvLow ch _).wr.wr.wr.wr.wr.wr.wr.wr.modDrv.drvTakeCtl ch

/-! ### The fabric -/

theorem markGraph (h : ImageShown s t) (g state flags : Nat) : ImageShown s (t.markGraph g state flags) :=
  h.fabric fun hw => (FabricWrote.refl hw).markGraph g state flags

theorem unavailable (h : ImageShown s t) (g : Nat) : ImageShown s (t.unavailable g) := h.fabric fun hw => (FabricWrote.refl hw).unavailable g

theorem activate (h : ImageShown s t) (w : Waiting) : ImageShown s (t.activate w) := h.fabric fun hw => (FabricWrote.refl hw).activate w

theorem releaseByItem (h : ImageShown s t) (e : GraphEntry) : ImageShown s (t.releaseByItem e) :=
  h.fabric fun hw => (FabricWrote.refl hw).releaseByItem e

theorem showFlow (h : ImageShown s t) (f : Nat) : ImageShown s (t.showFlow f) := h.wr

theorem showGraph (h : ImageShown s t) (g : Nat) : ImageShown s (t.showGraph g) := (ImageShown.wr (f := Reg.FAB_GRAPH_STAT.state) h).same

theorem serveQueue (f : Nat) : ∀ (l : List Waiting) {t : State}, ImageShown s t → ImageShown s (t.serveQueue f l)
  | [], _, h => h
  | w :: l, t, h => by
    have hout : ∀ g, ImageShown s ((t.modFlow f g).showFlow f) := fun g => h.modFlow.showFlow f
    unfold State.serveQueue
    exact .ite (serveQueue f l h) (.ite ((hout _).activate w) (serveQueue f l ((hout _).modFab.markGraph _ 2 0)))

theorem refreshGraphs (h : ImageShown s t) : ImageShown s t.refreshGraphs := by
  unfold State.refreshGraphs
  refine h.foldl fun e _ u hu => .ite hu (.ite (.ite hu (hu.unavailable _)) (.ite (.releaseByItem ?_ e) hu))
  have hmark := fun n => hu.modGraph (g := e.graph) (f := fun r => { r with unavailable := false }) |>.markGraph e.graph n 0
  split
  · exact .ite (hmark _) (serveQueue _ _ (hmark _))
  · exact hmark _

theorem showTables (h : ImageShown s t) : ImageShown s t.showTables := by
  unfold State.showTables
  exact .foldl (.foldl (.foldl (h.clearFields (by decide)).wr.wr.wr fun _ _ _ hu => hu.wr.wr.wr.wr) fun _ _ _ hu => hu.wr)
    fun _ _ _ hu => hu.wr

theorem fabStart (h : ImageShown s t) : ImageShown s t.fabStart := by
  have hreset : ∀ f, ImageShown s { t with fab := f } := fun _ => h.same
  unfold State.fabStart
  exact .refreshGraphs (.foldl (hreset _).modFab.showTables.wr fun e _ _ hu => hu.wr.modGraph.showGraph e.graph)

/-! ### Orders and converters -/

theorem restRamp (h : ImageShown s t) (e : RampEntry) : ImageShown s (t.restRamp e) := h.same

theorem startGen (h : ImageShown s t) (e : GenEntry) (mode x : Nat) : ImageShown s (t.startGen e mode x) := h.same

theorem ordStart (h : ImageShown s t) : ImageShown s t.ordStart := by
  unfold State.ordStart
  refine .foldl (.foldl (.foldl h.modOrd.wr.wr.wr.wr fun e _ u hu => ?_) fun e _ u hu => ?_) fun e _ u hu => ?_
  · exact hu.wr.wr.wr.wr.setBoth.setBoth.modInput
  · exact (hu.foldl fun _ _ _ hv => hv.setBoth).restRamp e
  · exact (ImageShown.foldl hu.wr.wr.wr.wr.wr.wr fun _ _ _ hv => hv.setBoth).startGen e _ _

theorem loadSeqs (c : Nat) (inj : Bool) : ∀ (l : List SeqEntry) (i : Nat) {t : State}, ImageShown s t → ImageShown s (t.loadSeqs c inj i l)
  | [], _, _, h => h
  | e :: l, i, t, h => by
    have hseq : ImageShown s (t.loadSeq c inj i e) := by
      unfold State.loadSeq
      exact h.wr.wr.wr.wr.wr.wr.wr
    unfold State.loadSeqs
    exact loadSeqs c inj l (i + 1) hseq

theorem calLost (h : ImageShown s t) (c : Nat) : ImageShown s (t.calLost c) := by
  unfold State.calLost
  exact .ite h.wr.setBit.raise h

theorem startRun (h : ImageShown s t) (c : Nat) : ImageShown s (t.startRun c) := h.keeps (State.startRun_keeps (by decide) (.refl _))

theorem showCore (h : ImageShown s t) (c : Nat) : ImageShown s (t.showCore c) := by
  unfold State.showCore
  exact h.wr.setBit.wr.wr.wr

theorem coreMode (h : ImageShown s t) (c : Nat) : ImageShown s (t.coreMode c) := by
  have hleft : ∀ n f v, ImageShown s ((((t.add Reg.ADC_SPOIL_CORE.spoiled c n).modCore c f).calLost c).setBit Reg.ADC_STAT.ds 0 c v) :=
    fun n f v => (h.add.modCore.calLost c).setBit
  unfold State.coreMode
  exact .ite h (.showCore (.ite ((hleft _ _ _).startRun c) (hleft _ _ _)) c)

theorem adcStart (h : ImageShown s t) : ImageShown s t.adcStart := by
  unfold State.adcStart
  refine .foldl (.foldl (.foldl (.foldl h.modAdc.wr fun e _ u hu => ?_) fun e _ u hu => ?_) fun c _ u hu => ?_) fun e _ u hu => ?_
  · exact hu.setBoth.setBoth
  · exact (loadSeqs _ _ _ _ (loadSeqs _ _ _ _ hu)).wr.wr.wr.wr.wr.wr
  · exact hu.wr.coreMode c
  · exact hu.wr.wr.wr.wr.modSub.wr.wr

/-! ### The initial state -/

theorem disarmDr (h : ImageShown s t) : ImageShown s t.disarmDr := by
  have harm : ImageShown s ((t.wr Reg.EPO_DR_CTRL.arm 0 0).wr Reg.EPO_STAT.dr_armed 0 0) := h.wr.wr
  unfold State.disarmDr
  exact .ite h harm.same

theorem unitStart (h : ImageShown s t) (e : UnitEntry) : ImageShown s (t.unitStart e) := h.keeps (State.unitStart_keeps (by decide) (.refl _))

theorem initial (h : ImageShown s t) : ImageShown s t.initial := by
  have hcleared : ImageShown s (t.clearFields (runFields ++ tableFields)) := h.clearFields (by decide)
  have hempty : ∀ p, ImageShown s { t.clearFields (runFields ++ tableFields) with pts := p, arms := [], cells := [], lanes := [], units := [] } :=
    fun _ => hcleared.same
  unfold State.initial
  refine .adcStart (.ordStart (.fabStart (.foldl (.foldl (.foldl (.foldl (hempty _).modEpo.disarmDr fun m _ u hu => ?_) fun e _ u hu => ?_)
    fun ch _ u hu => ?_) fun e _ u hu => ?_)))
  · exact hu.armStart m
  · exact hu.laneTable e
  · exact hu.drvStart ch
  · exact hu.unitStart e

/-! ### Conditions and the safety domain -/

theorem showReaction (h : ImageShown s t) (old : List CondEntry) : ImageShown s (t.showReaction old) := by
  unfold State.showReaction
  exact .foldl (.foldl h.wr fun _ _ _ hu => hu.wr.wr.wr) fun _ _ _ hu => hu.wr.wr.wr

theorem startLevels (h : ImageShown s t) : ImageShown s t.startLevels := h.keeps (State.startLevels_keeps (by decide) (.refl _))

theorem reactStart (h : ImageShown s t) : ImageShown s t.reactStart := by
  have hclear : ImageShown s { t with conds := [] } := h.same
  unfold State.reactStart
  exact (hclear.wr.wr.wr.wr.withWire.showReaction []).startLevels

theorem soutUpdate (h : ImageShown s t) : ImageShown s t.soutUpdate := by
  unfold State.soutUpdate
  exact h.foldl fun n _ u hu => .ite hu hu.setBit.withWire

theorem setTarget (h : ImageShown s t) (n st src : Nat) : ImageShown s (t.setTarget n st src) := by
  unfold State.setTarget
  exact h.wr.setBit.setBit.setBit.raise.soutUpdate

theorem targetStart (h : ImageShown s t) (e : TgtEntry) : ImageShown s (t.targetStart e) := by
  unfold State.targetStart
  exact .ite ((ImageShown.foldl h fun _ _ _ hu => hu.wr).setTarget _ 3 0) (h.setTarget _ 1 0)

theorem setViolation (h : ImageShown s t) (n : Nat) (v : Bool) : ImageShown s (t.setViolation n v) := by
  unfold State.setViolation
  exact h.wr.setBit

theorem pchStart (h : ImageShown s t) (e : PchEntry) : ImageShown s (t.pchStart e) := by
  unfold State.pchStart
  exact h.wr.setViolation e.chan _

theorem showLevel (h : ImageShown s t) (e : PairEntry) (c : Nat) (demand : Bool) : ImageShown s (t.showLevel e c demand) := by
  unfold State.showLevel
  exact .ite h.wr h.wr

theorem showSafety (h : ImageShown s t) (x : Safety) : ImageShown s (t.showSafety x) := by
  unfold State.showSafety
  refine .foldl (.foldl (.foldl (h.clearFields (by decide)).wr.wr.wr.wr.wr.wr.wr.wr.wr fun _ _ _ hu => ?_) fun _ _ _ hu => ?_) fun _ _ _ hu => ?_
  · exact hu.wr.wr.wr.wr.wr.wr.wr
  · exact hu.wr.wr.wr.wr.wr.wr.wr.wr.wr
  · exact hu.wr.wr.wr.wr

theorem laneBits (h : ImageShown s t) : ImageShown s t.laneBits := h.keeps (State.laneBits_keeps (by decide) (.refl _))

theorem safStart (h : ImageShown s t) (x : Safety) : ImageShown s (t.safStart x) := by
  unfold State.safStart
  refine (ImageShown.foldl (.foldl (.foldl (.showSafety (.wr (.foldl (.forEach (.foldl h.withWire.modSaf.wr fun n _ u hu => ?_) fun n u hu => ?_)
    fun e _ u hu => ?_)) x) fun p _ u hu => ?_) fun e _ u hu => ?_) fun e _ u hu => ?_).laneBits.soutUpdate
  · exact .ite hu hu.wr.setBit.setBit
  · exact .ite hu (hu.setViolation n false).wr.wr.wr
  · exact hu.pchStart e
  · exact hu.wr.wr.wr
  · exact (hu.showLevel e 0 _).showLevel e 1 _
  · exact hu.targetStart e

/-! ### Jobs of a domain that loses its contents -/

theorem arbWaited (h : ImageShown s t) (c n : Nat) : ImageShown s (t.arbWaited c n) := by
  unfold State.arbWaited
  exact h.wr (by split <;> decide)

theorem arbBegin (h : ImageShown s t) (b n : Nat) : ImageShown s (t.arbBegin b n) := by
  have hserved : ∀ a x, ImageShown s ({ t with arb := a }.setBank b x) := fun _ _ => h.same
  have hgone : ∀ x, ImageShown s (t.setBank b x) := fun _ => h.same
  unfold State.arbBegin
  dsimp only
  split
  · exact h
  · exact .ite ((hserved _ _).arbWaited _ _) (hgone _).count

theorem arbCycle (h : ImageShown s t) (n : Nat) : ImageShown s (t.arbCycle n) := by
  unfold State.arbCycle
  exact h.foldl fun b _ u hu => (hu.arbBegin b n).keeps (State.arbChoose_keeps (by decide) (.refl _))

theorem arbAt (h : ImageShown s t) (n : Nat) : ImageShown s (t.arbAt n) := h.keeps (State.arbAt_keeps (by decide) (.refl _))

theorem arbRun (n : Nat) : ∀ (fuel : Nat) {t : State}, ImageShown s t → ImageShown s (t.arbRun n fuel)
  | 0, _, h => h.arbAt n
  | fuel + 1, t, h => by
    unfold State.arbRun
    split
    · exact h.arbAt n
    · exact .ite (h.arbAt n) (arbRun n fuel ((h.arbCycle _).arbAt _))

theorem cancelJob (h : ImageShown s t) (j : Job) : ImageShown s (t.cancelJob j) := by
  have hwithdrawn : ImageShown s (t.arbitrate.withdraw j.id) := (arbRun _ _ h).keeps (State.withdraw_keeps (by decide) (.refl _))
  unfold State.cancelJob
  exact (ImageShown.foldl hwithdrawn fun _ _ _ hu => hu.same).modFab

theorem serveFlow (h : ImageShown s t) (f : Nat) : ImageShown s (t.serveFlow f) := by
  unfold State.serveFlow
  exact .foldl (serveQueue f _ h.modFlow.wr) fun e _ _ hu => hu.releaseByItem e

theorem releaseAgain (h : ImageShown s t) (e : GraphEntry) : ImageShown s (t.releaseAgain e) :=
  h.keeps (State.releaseAgain_keeps (by decide) (.refl _))

theorem endJob (h : ImageShown s t) (j : Job) : ImageShown s (t.endJob j) := by
  have hagain : ∀ u, ImageShown s u → ImageShown s (match u.bs.graphEntry j.g.graph with
      | some e => u.releaseAgain e
      | none => u) := fun u hu => by
    split
    · exact hu.releaseAgain _
    · exact hu
  unfold State.endJob
  dsimp only
  cases j.g.flow with
  | none => exact hagain _ h.modFab
  | some f => exact (hagain _ h.modFab).serveFlow f

theorem loseHalf (h : ImageShown s t) : ImageShown s t.loseHalf := by
  unfold State.loseHalf
  exact (ImageShown.foldl h fun j _ _ hu => (hu.cancelJob j).endJob j).modFab

/-! ### Domains -/

theorem setDomain (h : ImageShown s t) {d : Nat} (hd : d < 8192) (v : Nat) : ImageShown s (t.setDomain d v) := by
  have hshown : ∀ n, ImageShown s (t.wr Reg.PWR_DOM_STAT.state 0 n) := fun _ => h.wrLow (by decide)
  have hcounted : ∀ u, ImageShown u (u.count Reg.PWR_DOM_CNT.on_cnt d) := fun u => (refl u).wrLow hd
  have hrefreshed : ∀ u, ImageShown u (u.wr Reg.PWR_STAT.mem_sr 0 (bit (v == 1))) := fun u => (refl u).wrLow (by decide)
  unfold State.setDomain
  exact .ite h (.andThen (.andThen (.andThen (hshown _) (hcounted _)) (hrefreshed _)) (refl _).raise)

theorem endEye (h : ImageShown s t) (l errors : Nat) (invalid : Bool) : ImageShown s (t.endEye l errors invalid) := by
  unfold State.endEye
  exact .andThen h.wr.wr.wr (refl _).raise

theorem setLaneUp (h : ImageShown s t) (e : LaneEntry) (up : Bool) : ImageShown s (t.setLaneUp e up) := by
  unfold State.setLaneUp
  exact h.foldl fun l _ u hu => (hu.wr.showLane l).setCond

theorem showDegraded (h : ImageShown s t) (e : LaneEntry) : ImageShown s (t.showDegraded e) := h.wr

theorem refreshGroup (h : ImageShown s t) (e : LaneEntry) : ImageShown s (t.refreshGroup e) := by
  unfold State.refreshGroup
  exact .orElse ((h.wr.setLaneUp e _).showDegraded e) (refl _).raise

theorem loseLock (h : ImageShown s t) (l cause : Nat) : ImageShown s (t.loseLock l cause) := by
  have hdrawn : ∀ u, ImageShown u (u.draw 31).2 := fun u => (refl u).keeps (State.draw_keeps (by decide) (.refl _))
  unfold State.loseLock
  split
  · exact h
  · exact .ite h (.refreshGroup (.andThen h.wr.wr.count.raise ((hdrawn _).endEye l _ true)) _)

theorem disableLock (h : ImageShown s t) (l : Nat) : ImageShown s (t.disableLock l) := (h.loseLock l 1).showLane l

theorem clearEngines (h : ImageShown s t) (d : Nat) : ImageShown s (t.clearEngines d) := by
  unfold State.clearEngines
  exact .andThen (h.foldl fun _ _ _ hu => hu.wr.wr) (refl _).wr.wr.wr

theorem loseOrders (h : ImageShown s t) : ImageShown s t.loseOrders := by
  have hempty : ∀ o, ImageShown s { t with ord := o } := fun _ => h.same
  unfold State.loseOrders
  exact .forEach (.forEach (hempty _).wr.wr.wr.wr fun _ _ hu => hu.wr) fun _ _ hu => hu.wr

theorem stopCores (h : ImageShown s t) : ImageShown s t.stopCores := by
  have hstopped : ∀ a, ImageShown s { t with adc := a } := fun _ => h.same
  unfold State.stopCores
  exact .forEach (hstopped _).wr fun _ _ hu => hu.wr.wr.wr.wr

theorem losePoints (h : ImageShown s t) : ImageShown s t.losePoints := by
  have hempty : ∀ p, ImageShown s { t with pts := p } := fun _ => h.same
  unfold State.losePoints
  exact (ImageShown.foldl (hempty _) fun _ _ _ hu => hu.keeps (State.poisonExt_keeps (by decide) (.refl _))).modEpo.disarmDr

theorem loseStores (h : ImageShown s t) : ImageShown s t.loseStores := h.keeps (State.loseStores_keeps (by decide) (.refl _))

theorem loseContents (h : ImageShown s t) (d : Nat) : ImageShown s (t.loseContents d) := by
  unfold State.loseContents
  refine .refreshGraphs (.andThen (.andThen (.andThen (.andThen (.andThen (.orElse (.foldl h fun a _ u hu => ?_)
    ((refl _).modFab.clearEngines d)) (refl _).loseOrders) ?_) (refl _).stopCores) (refl _).losePoints) (.foldl (refl _) fun l _ u hu => ?_))
  · exact .orElse (hu.modArm.foldl fun _ _ _ hv => hv.modCell) (refl _).wr
  · exact .ite (refl _).loseStores (refl _).loseHalf
  · exact .ite (hu.disableLock l) hu

theorem sleepDomain (h : ImageShown s t) {d : Nat} (hd : d < 8192) (v : Nat) : ImageShown s (t.sleepDomain d v) := by
  unfold State.sleepDomain
  exact .ite h ((h.setDomain hd v).loseContents d).modPwr

theorem wakeDomain (h : ImageShown s t) {d : Nat} (hd : d < 8192) : ImageShown s (t.wakeDomain d) := by
  unfold State.wakeDomain
  exact .ite h (h.setDomain hd 3).modPwr

theorem applyDomains (h : ImageShown s t) (role : Nat) : ImageShown s (t.applyDomains role) := by
  have hdomains : ∀ d ∈ [3, 4, 5, 6, 7, 8, 9, 10], d < 8192 := by decide
  have hpll : ∀ u n, ImageShown u (u.wr Reg.PWR_STAT.core_pll 0 n) := fun u _ => (refl u).wrLow (by decide)
  unfold State.applyDomains
  refine .wrLow (.ite (.trans ?_ (hpll _ 0)) (.andThen ?_ (hpll _ 1))) (by decide)
  all_goals exact h.foldl fun d hd u hu => .ite (hu.wakeDomain (hdomains d hd)) (hu.sleepDomain (hdomains d hd) 1)

/-! ### Roles -/

theorem askAll (h : ImageShown s t) : ImageShown s t.askAll :=
  (((h.wrLow (by decide)).wrLow (by decide)).wrLow (by decide)).wrLow (by decide)

theorem tripClear (h : ImageShown s t) (pin : Nat) : ImageShown s (t.tripClear pin) := by
  unfold State.tripClear
  exact .ite h h.setBit.withWire

theorem drvQuiet (h : ImageShown s t) (ch : Nat) : ImageShown s (t.drvQuiet ch) := by
  unfold State.drvQuiet
  exact (h.drvLow ch _).modDrv.wr.wr

theorem quietOutputs (h : ImageShown s t) : ImageShown s t.quietOutputs := by
  unfold State.quietOutputs
  exact .foldl (h.foldl fun ch _ _ hu => hu.drvQuiet ch) fun p _ _ hu => hu.tripClear p

theorem tripSet (h : ImageShown s t) (pin cond : Nat) : ImageShown s (t.tripSet pin cond) := by
  unfold State.tripSet
  exact .ite h (.orElse (.andThen h (refl _).setBit) (refl _).setBit.withWire.raise)

theorem wakePins (h : ImageShown s t) : ImageShown s t.wakePins := by
  unfold State.wakePins
  refine h.forEach fun p u hu => ?_
  split
  · exact hu.tripSet p _
  · exact hu

theorem rolePoints (h : ImageShown s t) : ImageShown s t.rolePoints := h.keeps (State.rolePoints_keeps (by decide) (.refl _))

theorem setRole (h : ImageShown s t) (r : Nat) : ImageShown s (t.setRole r) := by
  have hquiet : ∀ u, ImageShown u u.quietOutputs := fun u => (refl u).quietOutputs
  have hasked : ImageShown s (if r = 2 ∨ r = 4 then ((t.wr Reg.RED_STAT.role 0 r).raise 0x600 0 (r + 16 * t.role)).askAll
      else (t.wr Reg.RED_STAT.role 0 r).raise 0x600 0 (r + 16 * t.role)) := .andThen h.wr.raise (refl _).askAll
  unfold State.setRole
  exact .ite h (.soutUpdate (.rolePoints (.modRed (.applyDomains (.ite hasked.quietOutputs (.andThen hasked (refl _).wakePins)) r))))

theorem becomeActive (h : ImageShown s t) (j : Nat) : ImageShown s (t.becomeActive j) := by
  unfold State.becomeActive
  exact (h.setRole 3).wrPair.modRed

theorem strapInvalid (h : ImageShown s t) (equal : Bool) : ImageShown s (t.strapInvalid equal) := by
  unfold State.strapInvalid
  exact .ite h (h.setRole 15).wr.raise

theorem takeClaim (h : ImageShown s t) (hu : t.takeClaim = some u) : ImageShown s u := by
  unfold State.takeClaim at hu
  dsimp only at hu
  split at hu
  · exact nomatch hu
  · rw [← Option.some.inj hu]
    exact (ImageShown.foldl h.wr.wr fun _ _ _ hv => hv.modCell).modRed.keeps (State.forgetHigher_keeps (by decide) (.refl _))

theorem startRole (h : ImageShown s t) : ImageShown s t.startRole := by
  have hclaim : ImageShown s (match t.takeClaim with
      | some u => u.becomeActive t.epo.k
      | none => t.raise 0x611 0 0) := by
    split
    · next u hu => exact (h.takeClaim hu).becomeActive _
    · exact h.raise
  unfold State.startRole
  exact .applyDomains (.ite hclaim (.ite (h.strapInvalid false) (h.setRole 0))) _

theorem setSlot (h : ImageShown s t) (n : Nat) (x : Slot) : ImageShown s (t.setSlot n x) := by
  unfold State.setSlot
  exact (ImageShown.ite h.modRed.wr.wr.wrPair h.modRed.wr.wr.wrPair).wr.wr

theorem redStart (h : ImageShown s t) : ImageShown s t.redStart := by
  unfold State.redStart
  exact .foldl h.modRed.wr.wr.wr.wr.setCond fun n _ u hu => .andThen hu ((refl u).setSlot n _)

/-! ### The start -/

theorem profileTable (h : ImageShown s t) : ImageShown s t.profileTable := by
  unfold State.profileTable
  refine .wr ?_
  split
  · exact h.wr.wr.wr.wr.wr.wr.wr.wr.wr.wr.wr.wr.wr
  · exact h.wr.wr.wr.wr.wr.wr.wr.wr.wr.wr.wr.wr.wr

theorem begin (h : ImageShown s t) : ImageShown s t.begin := by
  have hepoch : ∀ u e, ImageShown u { u with epo := e } := fun u _ => (refl u).same
  have hreact : ∀ e, ImageShown s ({ t.profileTable.initial with epo := e }).reactStart := fun e =>
    (h.profileTable.initial.trans (hepoch _ e)).reactStart
  unfold State.begin
  dsimp only
  split
  · exact (hreact _).safStart _
  · exact hreact _

theorem showFile (h : ImageShown s t) (base : Nat) : ImageShown s (t.showFile base) := by
  unfold State.showFile
  exact (ImageShown.foldl h.wr.wr.wr fun _ _ _ hu => hu.wr).wr.wr.wr.wr.wr.wr.wr.wr.wr.wr.wr.wr.wr

end ImageShown

end Sys2Proof.Machine

/-! ## Loads, verifies and live replacement (R437 to R442) -/

namespace Sys2Proof.Machine

open Sys2Proof.Safety

set_option Elab.async false

/-! ### Answers -/

/-- The fields that answer a command. -/
abbrev answerRegs : List (Field × Nat) := [(Reg.CFG_STAT.cmd_status, 0), (Reg.CFG_STAT.reason, 0)]

/-- What an answer writes: 1 for accepted, 2 with the reason for refused. -/
abbrev answerWrites (r : Nat) : List (Field × Nat × Nat) := [(Reg.CFG_STAT.cmd_status, 0, if r = 0 then 1 else 2), (Reg.CFG_STAT.reason, 0, r)]

theorem State.cfgAnswer_eq (s : State) (r : Nat) : s.cfgAnswer r = s.wrAll (answerWrites r) := rfl

/-- A refusal that only answers. -/
theorem State.cfgAnswer_refused {s : State} (hw : tabWf 0 s.regs = true) {r : Nat} (hpos : 0 < r) (hr : r < 16) :
    ((s.cfgAnswer r).rd Reg.CFG_STAT.cmd_status 0 = 2 ∧ (s.cfgAnswer r).rd Reg.CFG_STAT.reason 0 = r) ∧ Only [.regs] s (s.cfgAnswer r)
      ∧ RegsBut answerRegs s (s.cfgAnswer r) := by
  have hread := State.rd_wrAll [Reg.CFG_STAT.cmd_status, Reg.CFG_STAT.reason] (l := answerWrites r) rfl (by decide) hw (by simp)
  have hstatus := hread (Reg.CFG_STAT.cmd_status, 0, if r = 0 then 1 else 2) List.mem_cons_self
  rw [if_neg (Nat.ne_of_gt hpos)] at hstatus
  have hwrote : Wrote answerRegs s (s.cfgAnswer r) := State.wrAll_wrote hw (answerWrites r)
  have hkeeps : Keeps 0x10 s (s.cfgAnswer r) := State.cfgAnswer_keeps (by decide) (.refl s)
  exact ⟨⟨hstatus, (hread (Reg.CFG_STAT.reason, 0, r) (List.mem_cons_of_mem _ List.mem_cons_self)).trans (Nat.mod_eq_of_lt hr)⟩,
    hkeeps.only (by decide), hwrote.but⟩

/-- A refusal with event 0x804. -/
theorem State.cfgAnswer_reported {s : State} (hw : tabWf 0 s.regs = true) {r : Nat} (hpos : 0 < r) (hr : r < 16) :
    let t := (s.cfgAnswer r).raise 0x804 0 r
    (t.rd Reg.CFG_STAT.cmd_status 0 = 2 ∧ t.rd Reg.CFG_STAT.reason 0 = r) ∧ Reports s t 0x804 0 r ∧ t.cfg = s.cfg ∧ Only eventParts s t
      ∧ RegsBut (answerRegs ++ eventRegs) s t := by
  intro t
  obtain ⟨hreports, hwrote, hread⟩ := State.raise_after [Reg.CFG_STAT.cmd_status, Reg.CFG_STAT.reason] (l := answerWrites r) (u := s.cfgAnswer r)
    (code := 0x804) rfl (by decide) hw (by simp) rfl rfl rfl rfl (by decide) 0 r
  have hstatus := hread (Reg.CFG_STAT.cmd_status, 0, if r = 0 then 1 else 2) List.mem_cons_self
  rw [if_neg (Nat.ne_of_gt hpos)] at hstatus
  have hkeeps : Keeps 0x512 s t := State.raise_keeps (by decide) (State.cfgAnswer_keeps (by decide) (.refl s))
  exact ⟨⟨hstatus, (hread (Reg.CFG_STAT.reason, 0, r) (List.mem_cons_of_mem _ List.mem_cons_self)).trans (Nat.mod_eq_of_lt hr)⟩, hreports,
    hkeeps.cfg.get (by decide), hkeeps.only (by decide), hwrote.but⟩

/-- An accepted command that changes the configuration block and shows more of itself. -/
theorem State.accepted_effect {s : State} (hw : tabWf 0 s.regs = true) (f : Cfg → Cfg) (fs : List Field) {l : List (Field × Nat × Nat)}
    (hfs : l.map (·.1) = fs) (hapart : fieldsApart ([Reg.CFG_STAT.cmd_status, Reg.CFG_STAT.reason] ++ fs) = true)
    (hunits : ∀ x ∈ l, x.2.1 < 8192) :
    let t := (s.modCfg f).wrAll (answerWrites 0 ++ l)
    (t.rd Reg.CFG_STAT.cmd_status 0 = 1 ∧ t.rd Reg.CFG_STAT.reason 0 = 0) ∧ (∀ x ∈ l, t.rd x.1 x.2.1 = x.2.2 % 2 ^ x.1.width)
      ∧ t.cfg = f s.cfg ∧ Only [.regs, .cfg] s t ∧ RegsBut (answerRegs ++ writtenRegs l) s t := by
  intro t
  obtain ⟨hcfg, honly, hwrote⟩ := State.modCfg_wrAll hw f (answerWrites 0 ++ l)
  have hread := State.rd_wrAll ([Reg.CFG_STAT.cmd_status, Reg.CFG_STAT.reason] ++ fs) (l := answerWrites 0 ++ l) (s := s.modCfg f)
    (by rw [List.map_append, hfs]; rfl) hapart hw (fun x hx => (List.mem_append.mp hx).elim (fun hm => by
      rcases List.mem_pair.mp hm with rfl | rfl <;> decide) (hunits x))
  refine ⟨⟨hread (Reg.CFG_STAT.cmd_status, 0, 1) (by simp), hread (Reg.CFG_STAT.reason, 0, 0) (by simp)⟩,
    fun x hx => hread x (List.mem_append_right _ hx), hcfg, honly, ?_⟩
  rw [writtenRegs, List.map_append] at hwrote
  exact hwrote.but

/-- An accepted command with an event. -/
theorem State.accepted_reported {s : State} (hw : tabWf 0 s.regs = true) (f : Cfg → Cfg) {v code data : Nat} (hv : v < 8) (hc : code ≠ 0x010) :
    let t := ((s.modCfg f).wrAll (answerWrites 0 ++ [(Reg.CFG_LR_STAT.state, 0, v)])).raise code 0 data
    (t.rd Reg.CFG_STAT.cmd_status 0 = 1 ∧ t.rd Reg.CFG_STAT.reason 0 = 0) ∧ t.rd Reg.CFG_LR_STAT.state 0 = v ∧ t.cfg = f s.cfg
      ∧ Reports s t code 0 data ∧ Keeps 0x512 (s.modCfg f) t ∧ RegsBut ((Reg.CFG_LR_STAT.state, 0) :: answerRegs ++ eventRegs) s t := by
  intro t
  obtain ⟨hreports, hwrote, hread⟩ := State.raise_after [Reg.CFG_STAT.cmd_status, Reg.CFG_STAT.reason, Reg.CFG_LR_STAT.state]
    (l := answerWrites 0 ++ [(Reg.CFG_LR_STAT.state, 0, v)]) (u := (s.modCfg f).wrAll (answerWrites 0 ++ [(Reg.CFG_LR_STAT.state, 0, v)]))
    rfl (by decide) hw (by simp) rfl rfl rfl rfl hc 0 data
  have hkeeps : Keeps 0x512 (s.modCfg f) t := State.raise_keeps (by decide) (State.wrAll_keeps (by decide) _ (.refl _))
  refine ⟨⟨hread (Reg.CFG_STAT.cmd_status, 0, 1) (by simp), hread (Reg.CFG_STAT.reason, 0, 0) (by simp)⟩,
    (hread (Reg.CFG_LR_STAT.state, 0, v) (by simp)).trans (Nat.mod_eq_of_lt hv), hkeeps.cfg.get (by decide), hreports, hkeeps,
    (hwrote.mono ?_).but⟩
  exact regs_append (by simp) eventRegs

/-! ### Recorded errors -/

/-- The fields of an error; those of a conflict of resources are among them for code 0x0B alone. -/
def errorFields (conflict : Bool) : List Field :=
  [Reg.CFG_ERR_CODE.code, Reg.CFG_ERR_CODE.type, Reg.CFG_ERR_CODE.inst, Reg.CFG_ERR_CODE.failures, Reg.CFG_ERR_ITEM.item]
    ++ (if conflict then [Reg.CFG_ERR_RES.resource, Reg.CFG_ERR_RES.kind, Reg.CFG_ERR_HOLD.first, Reg.CFG_ERR_HOLD.second] else [])
    ++ [Reg.CFG_ERR_OFFSET.offset]

/-- What the record of an error writes, with the value that CFG_ERR_OFFSET takes. -/
def State.errorWrites (s : State) (e : LoadError) (o : Nat) : List (Field × Nat × Nat) :=
  [(Reg.CFG_ERR_CODE.code, 0, e.code), (Reg.CFG_ERR_CODE.type, 0, e.type), (Reg.CFG_ERR_CODE.inst, 0, e.inst),
    (Reg.CFG_ERR_CODE.failures, 0, min (s.rd Reg.CFG_ERR_CODE.failures 0 + 1) 255), (Reg.CFG_ERR_ITEM.item, 0, e.item)]
  ++ (if e.code = 0x0B then [(Reg.CFG_ERR_RES.resource, 0, e.res), (Reg.CFG_ERR_RES.kind, 0, e.kind), (Reg.CFG_ERR_HOLD.first, 0, e.first),
    (Reg.CFG_ERR_HOLD.second, 0, e.second)] else [])
  ++ [(Reg.CFG_ERR_OFFSET.offset, 0, o)]

theorem State.errorWrites_fields (s : State) (e : LoadError) (o : Nat) : (s.errorWrites e o).map (·.1) = errorFields (e.code == 0x0B) := by
  unfold State.errorWrites errorFields
  by_cases h : e.code = 0x0B
  · rw [if_pos h, if_pos (beq_iff_eq.mpr h)]
    rfl
  · rw [if_neg h, if_neg (fun hb => h (beq_iff_eq.mp hb))]
    rfl

theorem State.errorWrites_units (s : State) (e : LoadError) (o : Nat) : ∀ x ∈ s.errorWrites e o, x.2.1 = 0 := by
  unfold State.errorWrites
  split <;> simp

/-- The fields of a recorded error. -/
abbrev errorRegs : List (Field × Nat) := [(Reg.CFG_ERR_CODE.code, 0), (Reg.CFG_ERR_CODE.type, 0), (Reg.CFG_ERR_CODE.inst, 0),
  (Reg.CFG_ERR_CODE.failures, 0), (Reg.CFG_ERR_ITEM.item, 0), (Reg.CFG_ERR_RES.resource, 0), (Reg.CFG_ERR_RES.kind, 0),
  (Reg.CFG_ERR_HOLD.first, 0), (Reg.CFG_ERR_HOLD.second, 0), (Reg.CFG_ERR_OFFSET.offset, 0)]

theorem State.errorWrites_regs (s : State) (e : LoadError) (o : Nat) : ∀ p ∈ writtenRegs (s.errorWrites e o), p ∈ errorRegs := by
  unfold State.errorWrites
  split <;> simp

theorem State.wrAll_append (s : State) (l m : List (Field × Nat × Nat)) : s.wrAll (l ++ m) = (s.wrAll l).wrAll m := List.foldl_append

theorem State.wrAll_regs {l : List (Field × Nat × Nat)} : ∀ {s t : State}, s.regs = t.regs → (s.wrAll l).regs = (t.wrAll l).regs := by
  induction l with
  | nil => exact id
  | cons x l ih =>
    intro s t h
    exact ih (congrArg (fun r => tabSet 0 r (regKey x.1 x.2.1) ((x.2.2 % 2 ^ x.1.width) ^^^ x.1.reset)) h)

/-- An error is recorded by a list of writes (R437); an offset that the manual leaves open is drawn. -/
theorem State.recordError_regs {s : State} (hw : tabWf 0 s.regs = true) (e : LoadError) :
    ∃ o, (s.recordError e).regs = (s.wrAll (s.errorWrites e o)).regs := by
  have hcount : (((s.wr Reg.CFG_ERR_CODE.code 0 e.code).wr Reg.CFG_ERR_CODE.type 0 e.type).wr Reg.CFG_ERR_CODE.inst 0 e.inst).count
      Reg.CFG_ERR_CODE.failures 0 = (((s.wr Reg.CFG_ERR_CODE.code 0 e.code).wr Reg.CFG_ERR_CODE.type 0 e.type).wr Reg.CFG_ERR_CODE.inst 0 e.inst).wr
        Reg.CFG_ERR_CODE.failures 0 (min (s.rd Reg.CFG_ERR_CODE.failures 0 + 1) 255) := by
    have hfailures := (State.wrAll_wrote hw [(Reg.CFG_ERR_CODE.code, 0, e.code), (Reg.CFG_ERR_CODE.type, 0, e.type),
      (Reg.CFG_ERR_CODE.inst, 0, e.inst)]).rd (f := Reg.CFG_ERR_CODE.failures) (i := 0) (apart_sameUnit (p := 0) (by decide) (by decide)
        [Reg.CFG_ERR_CODE.code, Reg.CFG_ERR_CODE.type, Reg.CFG_ERR_CODE.inst] (by decide))
    unfold State.count State.add
    exact congrArg (fun n => State.wr _ _ _ (min (n + 1) 255)) hfailures
  unfold State.recordError State.errorWrites
  dsimp only
  rw [hcount]
  by_cases h : e.code = 0x0B
  · rw [if_neg (not_not_intro h), if_pos h]
    cases e.offset with
    | none => exact ⟨_, rfl⟩
    | some o => exact ⟨o, rfl⟩
  · rw [if_pos h, if_neg h]
    cases e.offset with
    | none => exact ⟨_, rfl⟩
    | some o => exact ⟨o, rfl⟩

/-- The error is shown, and one more failure is counted. -/
def Recorded (s t : State) (e : LoadError) : Prop :=
  t.rd Reg.CFG_ERR_CODE.code 0 = e.code % 2 ^ 8 ∧ t.rd Reg.CFG_ERR_CODE.type 0 = e.type % 2 ^ 8
    ∧ t.rd Reg.CFG_ERR_CODE.inst 0 = e.inst % 2 ^ 8 ∧ t.rd Reg.CFG_ERR_ITEM.item 0 = e.item % 2 ^ 32
    ∧ t.rd Reg.CFG_ERR_CODE.failures 0 = min (s.rd Reg.CFG_ERR_CODE.failures 0 + 1) 255

/-- An error that is recorded behind a change of other parts, and reported after more writes. -/
theorem State.error_after {s u v : State} (hw : tabWf 0 s.regs = true) (e : LoadError) (fs : List Field) {l : List (Field × Nat × Nat)}
    (hfs : l.map (·.1) = fs) (hfree : ∀ b, fieldsFree (errorFields b ++ fs) = true) (hunits : ∀ x ∈ l, x.2.1 = 0) (hv : v.regs = s.regs)
    (hregs : u.regs = ((v.recordError e).wrAll l).regs) (hevq : u.evq = s.evq) (hk : u.epo.k = s.epo.k) (hclk : u.clk = s.clk)
    {code : Nat} (hc : code ≠ 0x010) (data : Nat) :
    Reports s (u.raise code 0 data) code 0 data ∧ Recorded s (u.raise code 0 data) e
      ∧ (∀ x ∈ l, (u.raise code 0 data).rd x.1 0 = x.2.2 % 2 ^ x.1.width)
      ∧ Wrote (writtenRegs l ++ errorRegs ++ eventRegs) s (u.raise code 0 data) := by
  obtain ⟨o, ho⟩ := State.recordError_regs (s := v) (by rw [hv]; exact hw) e
  have hsame : v.errorWrites e o = s.errorWrites e o := by
    unfold State.errorWrites State.rd
    rw [hv]
  have hu : u.regs = (s.wrAll (s.errorWrites e o ++ l)).regs := by
    rw [hregs, State.wrAll_append]
    exact State.wrAll_regs (ho.trans (by rw [hsame]; exact State.wrAll_regs hv))
  have hzero : ∀ x ∈ s.errorWrites e o ++ l, x.2.1 = 0 := fun x hx =>
    (List.mem_append.mp hx).elim (s.errorWrites_units e o x) (hunits x)
  obtain ⟨hreports, hwrote, hread⟩ := State.raise_after (errorFields (e.code == 0x0B) ++ fs) (l := s.errorWrites e o ++ l)
    (by rw [List.map_append, State.errorWrites_fields, hfs]) (hfree _) hw (fun x hx => by rw [hzero x hx]; decide) hu hevq hk hclk hc 0 data
  have herror : ∀ x ∈ s.errorWrites e o, (u.raise code 0 data).rd x.1 0 = x.2.2 % 2 ^ x.1.width := fun x hx => by
    have hvalue := hread x (List.mem_append_left _ hx)
    rwa [s.errorWrites_units e o x hx] at hvalue
  refine ⟨hreports, ⟨herror (Reg.CFG_ERR_CODE.code, 0, e.code) (by simp [State.errorWrites]),
    herror (Reg.CFG_ERR_CODE.type, 0, e.type) (by simp [State.errorWrites]), herror (Reg.CFG_ERR_CODE.inst, 0, e.inst) (by simp [State.errorWrites]),
    herror (Reg.CFG_ERR_ITEM.item, 0, e.item) (by simp [State.errorWrites]), ?_⟩, fun x hx => ?_, hwrote.mono ?_⟩
  · refine (herror (Reg.CFG_ERR_CODE.failures, 0, min (s.rd Reg.CFG_ERR_CODE.failures 0 + 1) 255) (by simp [State.errorWrites])).trans ?_
    exact Nat.mod_eq_of_lt (Nat.lt_succ_of_le (Nat.min_le_right _ 255))
  · have hvalue := hread x (List.mem_append_right _ hx)
    rwa [hunits x hx] at hvalue
  · refine regs_append (fun p hp => ?_) eventRegs
    rw [writtenRegs, List.map_append] at hp
    exact (List.mem_append.mp hp).elim (fun h => List.mem_append_right _ (s.errorWrites_regs e o p h)) (fun h => List.mem_append_left _ h)

theorem State.loadFailed_effect {s v : State} (hw : tabWf 0 s.regs = true) (hv : v.regs = s.regs) (hevq : v.evq = s.evq)
    (hk : v.epo.k = s.epo.k) (hclk : v.clk = s.clk) (e : LoadError) (verify : Bool) :
    let t := v.loadFailed e verify
    Reports s t 0x801 0 (e.code + 2 ^ 8 * (e.type % 2 ^ 16) + 2 ^ 24 * (e.inst % 2 ^ 16) + 2 ^ 63 * bit verify) ∧ Recorded s t e
      ∧ Wrote (errorRegs ++ eventRegs) s t := by
  have hrecord : Keeps 0x14 v (v.recordError e) := State.recordError_keeps (by decide) (.refl v)
  obtain ⟨hreports, hrecorded, -, hwrote⟩ := State.error_after (u := v.recordError e) (code := 0x801) hw e [] (l := []) rfl (by decide) nofun hv
    rfl
    ((hrecord.evq.get (by decide)).trans hevq) ((congrArg Epo.k (hrecord.epo.get (by decide))).trans hk) ((hrecord.clk.get (by decide)).trans hclk)
    (by decide) (e.code + 2 ^ 8 * (e.type % 2 ^ 16) + 2 ^ 24 * (e.inst % 2 ^ 16) + 2 ^ 63 * bit verify)
  exact ⟨hreports, hrecorded, hwrote⟩

/-! ### Loads and verifies -/

/-- The registers that show the boot record. -/
abbrev bootRecordRegs : List (Field × Nat) :=
  [(Reg.CFG_BOOT_A.base, 0), (Reg.CFG_BOOT_B.base, 0), (Reg.CFG_BOOT_GEN.gen_a, 0), (Reg.CFG_BOOT_GEN.gen_b, 0)]

section Load

variable {s : State} {a b : BitStream}

theorem exec_load_running (hup : HostUp s) (h : s.armsRunning = true) : exec .load s = .next (s.cfgAnswer 1) := by
  change execLoad s = _
  unfold execLoad
  rw [byHost_up hup, if_pos h]

theorem exec_load_accepted (hup : HostUp s) (harms : s.armsRunning = false) (hsafe : ∀ x, s.loadOrder.head? = some x → s.safetyHeld x.2 = false)
    (hidle : s.cfgBusy = false) (harmed : s.rd Reg.CFG_LR_STAT.state 0 ≠ 3) :
    exec .load s = .next ((s.modCfg (fun c => { c with loading := true, order := s.loadOrder })).wrAll
      (answerWrites 0 ++ ((s.cfgAnswer 0).bootWrites ++ [(Reg.CFG_STAT.state, 0, 1)]))) := by
  have hfree : ¬ (s.loadOrder.head?.any (fun x => s.safetyHeld x.2)) = true := by
    cases h : s.loadOrder.head? with
    | none => exact Bool.false_ne_true
    | some x =>
      rw [Option.any_some, hsafe x h]
      exact Bool.false_ne_true
  change execLoad s = _
  unfold execLoad
  rw [byHost_up hup, if_neg (by rw [harms]; exact Bool.false_ne_true), if_neg hfree, if_neg (by rw [hidle]; exact Bool.false_ne_true),
    if_neg harmed]
  rfl

theorem exec_verify_busy (hup : HostUp s) (h : s.cfgBusy = true) : exec .verify s = .next (s.cfgAnswer 3) := by
  change execVerify s = _
  unfold execVerify
  rw [byHost_up hup, if_pos h]

theorem exec_verify_accepted (hup : HostUp s) (h : s.cfgBusy = false) :
    exec .verify s = .next ((s.modCfg (fun c => { c with verifying := true, order := s.loadOrder })).wrAll
      (answerWrites 0 ++ (s.cfgAnswer 0).bootWrites)) := by
  change execVerify s = _
  unfold execVerify
  rw [byHost_up hup, if_neg (by rw [h]; exact Bool.false_ne_true)]
  rfl

/-- The state in which the images of a load are tried. -/
def State.loadEnds (s : State) : State := s.modCfg (fun c => { c with loading := false, order := [] })

/-- The state in which an image is verified. -/
def State.verifyEnds (s : State) : State := s.modCfg (fun c => { c with verifying := false, order := [] })

theorem exec_loadComplete_idle (h : s.cfg.loading = false) : exec (.loadComplete a b) s = .next s := by
  change execLoadComplete a b s = _
  unfold execLoadComplete
  rw [h]
  rfl

theorem exec_verifyComplete_idle (h : s.cfg.verifying = false) : exec (.verifyComplete a b) s = .next s := by
  change execVerifyComplete a b s = _
  unfold execVerifyComplete
  rw [h]
  rfl

/-- What the checks read of the state stays when a load or a verify ends. -/
theorem State.streamError_loadEnds (s : State) (base : Nat) (c : BitStream) : s.loadEnds.streamError base c = s.streamError base c := rfl

theorem State.streamError_verifyEnds (s : State) (base : Nat) (c : BitStream) : s.verifyEnds.streamError base c = s.streamError base c := rfl

theorem State.fileHashes_verifyEnds (s : State) (base : Nat) : s.verifyEnds.fileHashes base = s.fileHashes base := rfl

theorem State.safetyHeld_loadEnds (s : State) (base : Nat) : s.loadEnds.safetyHeld base = s.safetyHeld base := rfl

theorem State.contents_loadEnds (s : State) (base : Nat) (c : BitStream) : s.loadEnds.contents base c = s.contents base c := rfl

variable {i base : Nat}

/-- What a load ends with, once the images have been tried. -/
def State.loadTried (s : State) (r : State × Bool) : State :=
  if r.2 then r.1
  else if s.running then (r.1.wr Reg.CFG_STAT.state 0 3).wr Reg.CFG_STAT.fallback 0 0
  else [4, 5, 6, 7, 8, 9, 10].foldl (fun s d => s.sleepDomain d 0) ((r.1.wr Reg.CFG_STAT.state 0 4).wr Reg.PWR_BOOT_STAT.step 0 7)

theorem exec_loadComplete_one (hload : s.cfg.loading = true) (horder : s.cfg.order = [(i, base)]) :
    exec (.loadComplete a b) s = .next (s.loadEnds.loadTried (s.loadEnds.tryImages a b false [(i, base)])) := by
  change execLoadComplete a b s = _
  unfold execLoadComplete
  rw [hload, horder]
  rfl

theorem exec_loadComplete_failed (hload : s.cfg.loading = true) (hrun : s.running = true) (horder : s.cfg.order = [(i, base)]) {e : LoadError}
    (he : s.streamError base (if i = 0 then a else b) = some e) :
    exec (.loadComplete a b) s = .next (((s.loadEnds.loadFailed e false).wr Reg.CFG_STAT.state 0 3).wr Reg.CFG_STAT.fallback 0 0) := by
  have htry : s.loadEnds.tryImages a b false [(i, base)] = (s.loadEnds.loadFailed e false, false) := by
    unfold State.tryImages
    dsimp only
    rw [State.streamError_loadEnds, he]
    rfl
  have hrunning : s.loadEnds.running = true := hrun
  rw [exec_loadComplete_one hload horder, htry]
  unfold State.loadTried
  rw [if_neg Bool.false_ne_true, if_pos hrunning]

theorem exec_loadComplete_started (hload : s.cfg.loading = true) (horder : s.cfg.order = [(i, base)])
    (he : s.streamError base (if i = 0 then a else b) = none) (hsafe : s.safetyHeld base = false) :
    exec (.loadComplete a b) s = .next (s.loadEnds.startImage i base (s.contents base (if i = 0 then a else b)) false) := by
  have htry : s.loadEnds.tryImages a b false [(i, base)]
      = (s.loadEnds.startImage i base (s.contents base (if i = 0 then a else b)) false, true) := by
    unfold State.tryImages
    dsimp only
    rw [State.streamError_loadEnds, he, State.safetyHeld_loadEnds, hsafe, State.contents_loadEnds]
    rfl
  rw [exec_loadComplete_one hload horder, htry]
  rfl

/-- What a verify ends with, once an image has been checked. -/
def State.verifyTried (s : State) (i base : Nat) : Option LoadError → State
  | some e => s.loadFailed e true
  | none => s.raise 0x800 0 (compositeDigest (s.fileHashes base) + 2 ^ 32 * i + 2 ^ 63)

theorem exec_verifyComplete_one (hverify : s.cfg.verifying = true) (horder : s.cfg.order.head? = some (i, base)) :
    exec (.verifyComplete a b) s = .next (s.verifyEnds.verifyTried i base (s.streamError base (if i = 0 then a else b))) := by
  change execVerifyComplete a b s = _
  unfold execVerifyComplete
  dsimp only
  rw [hverify, horder, ← State.streamError_verifyEnds]
  rfl

theorem exec_verifyComplete_failed (hverify : s.cfg.verifying = true) (horder : s.cfg.order.head? = some (i, base)) {e : LoadError}
    (he : s.streamError base (if i = 0 then a else b) = some e) :
    exec (.verifyComplete a b) s = .next (s.verifyEnds.loadFailed e true) := by
  rw [exec_verifyComplete_one hverify horder, he]
  rfl

theorem exec_verifyComplete_passed (hverify : s.cfg.verifying = true) (horder : s.cfg.order.head? = some (i, base))
    (he : s.streamError base (if i = 0 then a else b) = none) :
    exec (.verifyComplete a b) s = .next (s.verifyEnds.raise 0x800 0 (compositeDigest (s.fileHashes base) + 2 ^ 32 * i + 2 ^ 63)) := by
  rw [exec_verifyComplete_one hverify horder, he, ← State.fileHashes_verifyEnds]
  rfl

end Load

/-! ### The start of an image -/

/-- The state that shows an image before its tables take effect. -/
def State.imageTaken (s : State) (image base : Nat) (b : BitStream) : State :=
  let s := { s with bs := b }.modCfg (fun c => { c with
    extent := (base, s.flashWord (base + 8) 4), staged := none, hashes := sortHashes (s.fileHashes base) })
  ((s.wr Reg.CFG_STAT.state 0 3).wr Reg.CFG_STAT.image 0 image).wr Reg.CFG_STAT.fallback 0 (bit false)

/-- The boot that ends with a start. -/
def State.bootEnds (s : State) (booting : Bool) : State :=
  if booting then (s.wr Reg.PWR_BOOT_TIME.us 0 ((s.cycle - s.pwr.releasedAt) / 400)).wr Reg.PWR_BOOT_STAT.step 0 6 else s

theorem State.startImage_eq (s : State) (image base : Nat) (b : BitStream) : s.startImage image base b false =
    let u := ((((s.imageTaken image base b).showFile base).begin).redStart.bootEnds (s.rd Reg.PWR_BOOT_STAT.step 0 != 6)).startRole
    u.raise 0x800 0 ((((((s.imageTaken image base b).showFile base).begin).redStart.bootEnds (s.rd Reg.PWR_BOOT_STAT.step 0 != 6))).rd
      Reg.CFG_DIGEST.digest 0 + 2 ^ 32 * image) := by
  unfold State.startImage State.imageTaken State.bootEnds
  dsimp only

theorem State.imageTaken_shows {s : State} (hw : tabWf 0 s.regs = true) (image base : Nat) (b : BitStream) :
    (s.imageTaken image base b).rd Reg.CFG_STAT.state 0 = 3 ∧ (s.imageTaken image base b).rd Reg.CFG_STAT.image 0 = image % 2
      ∧ (s.imageTaken image base b).rd Reg.CFG_STAT.fallback 0 = 0 := by
  let l : List (Field × Nat × Nat) := [(Reg.CFG_STAT.state, 0, 3), (Reg.CFG_STAT.image, 0, image), (Reg.CFG_STAT.fallback, 0, bit false)]
  have hread := State.rd_wrAll imageFields (l := l) rfl (by decide) hw (by simp [l])
  have hregs : (s.imageTaken image base b).regs = (s.wrAll l).regs := rfl
  have hshown : ∀ f, (s.imageTaken image base b).rd f 0 = (s.wrAll l).rd f 0 := fun f => by
    unfold State.rd
    rw [hregs]
  exact ⟨(hshown _).trans (hread (Reg.CFG_STAT.state, 0, 3) (by simp [l])), (hshown _).trans (hread (Reg.CFG_STAT.image, 0, image) (by simp [l])),
    (hshown _).trans (hread (Reg.CFG_STAT.fallback, 0, bit false) (by simp [l]))⟩

theorem ImageShown.bootEnds {s t : State} (h : ImageShown s t) (booting : Bool) : ImageShown s (t.bootEnds booting) := by
  unfold State.bootEnds
  exact .andThen h (((refl _).wrLow (by decide)).wrLow (by decide))

theorem State.bootEnds_keeps {M : Nat} {r s : State} (hm : 0x10 ||| M = M) (h : Keeps M r s) (booting : Bool) : Keeps M r (s.bootEnds booting) :=
  .ite (State.wr_keeps hm (State.wr_keeps hm h)) h

/-- What the start of an image leaves: its contents, its place and its sign in CFG_STAT (R438). -/
theorem State.startImage_effect {s : State} (hw : tabWf 0 s.regs = true) (image base : Nat) (b : BitStream) :
    let t := s.startImage image base b false
    t.bs = b ∧ t.cfg = (s.imageTaken image base b).cfg ∧ t.rd Reg.CFG_STAT.state 0 = 3 ∧ t.rd Reg.CFG_STAT.image 0 = image % 2
      ∧ t.rd Reg.CFG_STAT.fallback 0 = 0 := by
  intro t
  have hkeeps : Keeps 0x395f7d7d6 (s.imageTaken image base b) t := by
    rw [show t = _ from State.startImage_eq s image base b]
    exact State.raise_keeps (by decide) (State.startRole_keeps (by decide) (State.bootEnds_keeps (by decide) (State.redStart_keeps (by decide)
      (State.begin_keeps (by decide) (State.showFile_keeps (by decide) (.refl _)))) _))
  have hshown : ImageShown (s.imageTaken image base b) t := by
    rw [show t = _ from State.startImage_eq s image base b]
    exact ((((ImageShown.refl _).showFile base).begin.redStart.bootEnds _).startRole).raise
  obtain ⟨hstate, himage, hfallback⟩ := State.imageTaken_shows hw image base b
  obtain ⟨-, hread⟩ := hshown (State.regs_wr _ _ _ (State.regs_wr _ _ _ (State.regs_wr _ _ _ hw)))
  exact ⟨hkeeps.bs.get (by decide), hkeeps.cfg.get (by decide), (hread _ (by simp)).trans hstate, (hread _ (by simp)).trans himage,
    (hread _ (by simp)).trans hfallback⟩

/-! ### Live replacement -/

section Replace

variable {s : State}

theorem exec_lrStage_busy (hup : HostUp s) (h : s.cfgBusy = true ∨ s.rd Reg.CFG_LR_STAT.state 0 = 2 ∨ s.rd Reg.CFG_LR_STAT.state 0 = 3) :
    exec .lrStage s = .next ((s.cfgAnswer 3).raise 0x804 0 3) := by
  change execLrStage s = _
  unfold execLrStage
  rw [byHost_up hup, if_pos h]

theorem exec_lrStage_accepted (hup : HostUp s) (hidle : s.cfgBusy = false) (h2 : s.rd Reg.CFG_LR_STAT.state 0 ≠ 2)
    (h3 : s.rd Reg.CFG_LR_STAT.state 0 ≠ 3) :
    exec .lrStage s = .next ((s.modCfg (fun c => { c with staged := some ⟨[], s.rd Reg.CFG_LR_ADDR.addr 0, 0, [], 0, false⟩ })).wrAll
      (answerWrites 0 ++ [(Reg.CFG_LR_STAT.state, 0, 1), (Reg.CFG_LR_STAT.code, 0, 0)])) := by
  change execLrStage s = _
  unfold execLrStage
  rw [byHost_up hup, if_neg (by rw [hidle]; exact not_or.mpr ⟨Bool.false_ne_true, not_or.mpr ⟨h2, h3⟩⟩)]
  rfl

/-- What a check of the staged package ends with. -/
def State.packageChecked (s : State) (p : Staged) (listed : List LrPart) : Option LoadError → State
  | some e => (((s.recordError e).wr Reg.CFG_LR_STAT.state 0 5).wr Reg.CFG_LR_STAT.code 0 e.code).raise 0x804 0 e.code
  | none =>
    let s := s.modCfg (fun c => { c with
      staged := some ⟨listed, p.base, s.flashWord (p.base + 8) 4, s.fileHashes p.base, 0, p.bad⟩ })
    ((s.wr Reg.CFG_LR_STAT.state 0 2).wr Reg.CFG_LR_STAT.sections 0 (s.flashWord (p.base + 12) 2)).raise 0x803 0 (s.flashWord (p.base + 16) 4)

theorem exec_lrStageComplete {p : Staged} (hp : s.cfg.staged = some p) (h : s.rd Reg.CFG_LR_STAT.state 0 = 1) (parts : List LrPart) :
    exec (.lrStageComplete parts) s = .next (s.packageChecked p (s.packageParts p.base parts)
      (s.packageError p.base (s.packageParts p.base parts))) := by
  change execLrStageComplete parts s = _
  unfold execLrStageComplete
  rw [hp, h]
  rfl

theorem State.lrTarget_eq (s : State) : s.lrTarget = s.rd Reg.CFG_LR_TGT_LO.target_lo 0 + 2 ^ 32 * s.rd Reg.CFG_LR_TGT_HI.target_hi 0 := rfl

theorem exec_lrArm_other (hup : HostUp s) (h : s.rd Reg.CFG_LR_STAT.state 0 ≠ 2) : exec .lrArm s = .next ((s.cfgAnswer 8).raise 0x804 0 8) := by
  change execLrArm s = _
  unfold execLrArm
  rw [byHost_up hup]
  dsimp only
  rw [if_pos h]

theorem exec_lrArm_early (hup : HostUp s) (h : s.rd Reg.CFG_LR_STAT.state 0 = 2) (hearly : s.lrTarget < s.epo.k + 2) :
    exec .lrArm s = .next ((s.cfgAnswer 5).raise 0x804 0 5) := by
  change execLrArm s = _
  unfold execLrArm
  rw [byHost_up hup]
  dsimp only
  rw [if_neg (not_not_intro h), if_pos hearly]

theorem exec_lrArm_late (hup : HostUp s) (h : s.rd Reg.CFG_LR_STAT.state 0 = 2) (hlate : s.epo.k + 2 ^ 24 < s.lrTarget) :
    exec .lrArm s = .next ((s.cfgAnswer 6).raise 0x804 0 6) := by
  change execLrArm s = _
  unfold execLrArm
  rw [byHost_up hup]
  dsimp only
  rw [if_neg (not_not_intro h), if_neg (by omega), if_pos hlate]

theorem exec_lrArm_handover (hup : HostUp s) (h : s.rd Reg.CFG_LR_STAT.state 0 = 2) (hearly : s.epo.k + 2 ≤ s.lrTarget)
    (hlate : s.lrTarget ≤ s.epo.k + 2 ^ 24) (hover : s.flag Reg.RED_STAT.handover 0 = true) :
    exec .lrArm s = .next ((s.cfgAnswer 7).raise 0x804 0 7) := by
  change execLrArm s = _
  unfold execLrArm
  rw [byHost_up hup]
  dsimp only
  rw [if_neg (not_not_intro h), if_neg (Nat.not_lt.mpr hearly), if_neg (Nat.not_lt.mpr hlate), if_pos hover]

theorem exec_lrArm_accepted (hup : HostUp s) (h : s.rd Reg.CFG_LR_STAT.state 0 = 2) (hearly : s.epo.k + 2 ≤ s.lrTarget)
    (hlate : s.lrTarget ≤ s.epo.k + 2 ^ 24) (hover : s.flag Reg.RED_STAT.handover 0 = false) :
    exec .lrArm s = .next ((s.modCfg (fun c => { c with staged := c.staged.map (fun p => { p with target := s.lrTarget }) })).wrAll
      (answerWrites 0 ++ [(Reg.CFG_LR_STAT.state, 0, 3)])) := by
  change execLrArm s = _
  unfold execLrArm
  rw [byHost_up hup]
  dsimp only
  rw [if_neg (not_not_intro h), if_neg (Nat.not_lt.mpr hearly), if_neg (Nat.not_lt.mpr hlate),
    if_neg (by rw [hover]; exact Bool.false_ne_true)]
  rfl

theorem exec_lrCancel_other (hup : HostUp s) (h : s.rd Reg.CFG_LR_STAT.state 0 ≠ 3) :
    exec .lrCancel s = .next ((s.cfgAnswer 8).raise 0x804 0 8) := by
  change execLrCancel s = _
  unfold execLrCancel
  rw [byHost_up hup]
  dsimp only
  rw [if_pos h]

theorem exec_lrCancel_late (hup : HostUp s) (h : s.rd Reg.CFG_LR_STAT.state 0 = 3) (hlate : s.armedFor ≤ s.epo.k + 1) :
    exec .lrCancel s = .next ((s.cfgAnswer 5).raise 0x804 0 5) := by
  change execLrCancel s = _
  unfold execLrCancel
  rw [byHost_up hup]
  dsimp only
  rw [if_neg (not_not_intro h), if_pos hlate]

theorem exec_lrCancel_accepted (hup : HostUp s) (h : s.rd Reg.CFG_LR_STAT.state 0 = 3) (hlate : s.epo.k + 1 < s.armedFor) :
    exec .lrCancel s = .next (((s.modCfg id).wrAll (answerWrites 0 ++ [(Reg.CFG_LR_STAT.state, 0, 2)])).raise 0x806 0 0) := by
  change execLrCancel s = _
  unfold execLrCancel
  rw [byHost_up hup]
  dsimp only
  rw [if_neg (not_not_intro h), if_neg (Nat.not_le.mpr hlate)]
  rfl

theorem exec_lrDiscard_accepted (hup : HostUp s) (h : s.rd Reg.CFG_LR_STAT.state 0 = 2 ∨ s.rd Reg.CFG_LR_STAT.state 0 = 5) :
    exec .lrDiscard s = .next (((s.modCfg (fun c => { c with staged := none })).wrAll
      (answerWrites 0 ++ [(Reg.CFG_LR_STAT.state, 0, 0)])).raise 0x806 0 1) := by
  change execLrDiscard s = _
  unfold execLrDiscard
  rw [byHost_up hup]
  exact congrArg Host.Outcome.next (if_pos h)

theorem exec_lrDiscard_other (hup : HostUp s) (h2 : s.rd Reg.CFG_LR_STAT.state 0 ≠ 2) (h5 : s.rd Reg.CFG_LR_STAT.state 0 ≠ 5) :
    exec .lrDiscard s = .next ((s.cfgAnswer 8).raise 0x804 0 8) := by
  change execLrDiscard s = _
  unfold execLrDiscard
  rw [byHost_up hup]
  exact congrArg Host.Outcome.next (if_neg (not_or.mpr ⟨h2, h5⟩))

end Replace

end Sys2Proof.Machine

namespace Sys2Proof.Proofs

open Sys2Proof Sys2Proof.Machine Sys2Proof.Safety

set_option Elab.async false

variable {s : State} {a b : BitStream}

/-! ### LOAD and VERIFY -/

theorem load_accepted (hs : Sound s) (hup : HostUp s) (harms : s.armsRunning = false)
    (hsafe : ∀ x, s.loadOrder.head? = some x → s.safetyHeld x.2 = false) (hidle : s.cfgBusy = false)
    (harmed : s.rd Reg.CFG_LR_STAT.state 0 ≠ 3) :
    ∃ t, exec .load s = .next t ∧ (t.rd Reg.CFG_STAT.cmd_status 0 = 1 ∧ t.rd Reg.CFG_STAT.reason 0 = 0) ∧ t.rd Reg.CFG_STAT.state 0 = 1
      ∧ t.cfg = { s.cfg with loading := true, order := s.loadOrder } ∧ Only [.regs, .cfg] s t
      ∧ RegsBut ((Reg.CFG_STAT.state, 0) :: answerRegs ++ bootRecordRegs) s t := by
  obtain ⟨hanswer, hread, hcfg, honly, hbut⟩ := State.accepted_effect hs.regs (fun c => { c with loading := true, order := s.loadOrder })
    [Reg.CFG_BOOT_A.base, Reg.CFG_BOOT_B.base, Reg.CFG_BOOT_GEN.gen_a, Reg.CFG_BOOT_GEN.gen_b, Reg.CFG_STAT.state]
    (l := (s.cfgAnswer 0).bootWrites ++ [(Reg.CFG_STAT.state, 0, 1)]) rfl (by decide) (by simp [State.bootWrites])
  exact ⟨_, exec_load_accepted hup harms hsafe hidle harmed, hanswer, hread (Reg.CFG_STAT.state, 0, 1) (by simp), hcfg, honly,
    regsBut_mono (by simp [State.bootWrites]) hbut⟩

theorem verify_accepted (hs : Sound s) (hup : HostUp s) (hidle : s.cfgBusy = false) :
    ∃ t, exec .verify s = .next t ∧ (t.rd Reg.CFG_STAT.cmd_status 0 = 1 ∧ t.rd Reg.CFG_STAT.reason 0 = 0)
      ∧ t.cfg = { s.cfg with verifying := true, order := s.loadOrder } ∧ Only [.regs, .cfg] s t
      ∧ RegsBut (answerRegs ++ bootRecordRegs) s t := by
  obtain ⟨hanswer, -, hcfg, honly, hbut⟩ := State.accepted_effect hs.regs (fun c => { c with verifying := true, order := s.loadOrder })
    [Reg.CFG_BOOT_A.base, Reg.CFG_BOOT_B.base, Reg.CFG_BOOT_GEN.gen_a, Reg.CFG_BOOT_GEN.gen_b] (l := (s.cfgAnswer 0).bootWrites) rfl (by decide)
    (by simp [State.bootWrites])
  exact ⟨_, exec_verify_accepted hup hidle, hanswer, hcfg, honly, hbut⟩

/-- A change of the configuration block, and then an operation that keeps it. -/
theorem only_cfg_then {s : State} {l : List Part} {M : Nat} {f : Cfg → Cfg} {t : State} (hk : Keeps M (s.modCfg f) t) (hl : Part.cfg ∈ l)
    (hM : (allParts.all fun p => l.contains p || p == Part.pending || p == Part.serial || !M.testBit (Part.bitNo p)) = true) : Only l s t :=
  only_trans (only_mono (fun _ hp => List.mem_singleton.mp hp ▸ hl) (State.only_cfg s f)) (hk.only hM)

theorem loadComplete_failed (hs : Sound s) (i base : Nat) (e : LoadError) (hload : s.cfg.loading = true) (hrun : s.running = true)
    (horder : s.cfg.order = [(i, base)]) (he : s.streamError base (if i = 0 then a else b) = some e) :
    ∃ t, exec (.loadComplete a b) s = .next t ∧ t.bs = s.bs ∧ t.cfg = { s.cfg with loading := false, order := [] }
      ∧ t.rd Reg.CFG_STAT.state 0 = 3 ∧ Recorded s t e
      ∧ Reports s t 0x801 0 (e.code + 2 ^ 8 * (e.type % 2 ^ 16) + 2 ^ 24 * (e.inst % 2 ^ 16) + 2 ^ 63 * 0) ∧ Only ([.free, .cfg] ++ eventParts) s t
      ∧ RegsBut ([(Reg.CFG_STAT.state, 0), (Reg.CFG_STAT.fallback, 0)] ++ errorRegs ++ eventRegs) s t := by
  obtain ⟨hreports, hrecorded, hwrote⟩ := State.loadFailed_effect (v := s.loadEnds) hs.regs rfl rfl rfl rfl e false
  let u : State := s.loadEnds.loadFailed e false
  let l : List (Field × Nat × Nat) := [(Reg.CFG_STAT.state, 0, 3), (Reg.CFG_STAT.fallback, 0, 0)]
  have hkeeps : Keeps 0x516 s.loadEnds (u.wrAll l) :=
    State.wrAll_keeps (by decide) l (State.loadFailed_keeps (by decide) (.refl s.loadEnds))
  have hshown := State.wrAll_wrote (s := u) hwrote.wf l
  have hread := State.rd_wrAll [Reg.CFG_STAT.state, Reg.CFG_STAT.fallback] (l := l) rfl (by decide) (s := u) hwrote.wf (by simp [l])
  have hkept : ∀ f : Field, [Reg.CFG_STAT.state, Reg.CFG_STAT.fallback].all (fun g => g.place != f.place) = true →
      (u.wrAll l).rd f 0 = u.rd f 0 := fun f hf =>
    hshown.rd (apart_sameUnit (p := 0) (by decide) (by decide) [Reg.CFG_STAT.state, Reg.CFG_STAT.fallback] hf)
  obtain ⟨hcode, htype, hinst, hitem, hfailures⟩ := hrecorded
  refine ⟨_, exec_loadComplete_failed hload hrun horder he, hkeeps.bs.get (by decide), hkeeps.cfg.get (by decide),
    hread (Reg.CFG_STAT.state, 0, 3) (by simp [l]), ⟨(hkept _ (by decide)).trans hcode, (hkept _ (by decide)).trans htype,
      (hkept _ (by decide)).trans hinst, (hkept _ (by decide)).trans hitem, (hkept _ (by decide)).trans hfailures⟩, hreports,
    only_cfg_then hkeeps (by decide) (by decide), Wrote.but (t := u.wrAll l) ((hwrote.mono ?_).trans (hshown.mono (by simp [l])))⟩
  exact regs_append (fun p hp => List.mem_append_right _ hp) eventRegs

theorem loadComplete_started (hs : Sound s) (i base : Nat) (hload : s.cfg.loading = true) (horder : s.cfg.order = [(i, base)])
    (he : s.streamError base (if i = 0 then a else b) = none) (hsafe : s.safetyHeld base = false) :
    ∃ t, exec (.loadComplete a b) s = .next t ∧ t.bs = s.contents base (if i = 0 then a else b) ∧ t.cfg.loading = false ∧ t.cfg.staged = none
      ∧ t.cfg.extent = (base, s.flashWord (base + 8) 4) ∧ t.cfg.flash = s.cfg.flash ∧ t.cfg.keys = s.cfg.keys
      ∧ t.rd Reg.CFG_STAT.state 0 = 3 ∧ t.rd Reg.CFG_STAT.image 0 = i % 2 ∧ t.rd Reg.CFG_STAT.fallback 0 = 0 := by
  have hw : tabWf 0 s.loadEnds.regs = true := hs.regs
  obtain ⟨hbs, hcfg, hstate, himage, hfallback⟩ := State.startImage_effect hw i base (s.contents base (if i = 0 then a else b))
  refine ⟨_, exec_loadComplete_started hload horder he hsafe, hbs, ?_, ?_, ?_, ?_, ?_, hstate, himage, hfallback⟩
  all_goals exact (congrArg _ hcfg).trans rfl

theorem verifyComplete_failed (hs : Sound s) (i base : Nat) (hverify : s.cfg.verifying = true) (horder : s.cfg.order.head? = some (i, base))
    (e : LoadError) (he : s.streamError base (if i = 0 then a else b) = some e) :
    ∃ t, exec (.verifyComplete a b) s = .next t ∧ t.cfg = { s.cfg with verifying := false, order := [] } ∧ Recorded s t e
      ∧ Reports s t 0x801 0 (e.code + 2 ^ 8 * (e.type % 2 ^ 16) + 2 ^ 24 * (e.inst % 2 ^ 16) + 2 ^ 63 * 1)
      ∧ Only ([.free, .cfg] ++ eventParts) s t ∧ RegsBut (errorRegs ++ eventRegs) s t := by
  obtain ⟨hreports, hrecorded, hwrote⟩ := State.loadFailed_effect (v := s.verifyEnds) hs.regs rfl rfl rfl rfl e true
  have hkeeps : Keeps 0x516 s.verifyEnds (s.verifyEnds.loadFailed e true) := State.loadFailed_keeps (by decide) (.refl _)
  exact ⟨_, exec_verifyComplete_failed hverify horder he, hkeeps.cfg.get (by decide), hrecorded, hreports,
    only_cfg_then hkeeps (by decide) (by decide), hwrote.but⟩

theorem verifyComplete_passed (hs : Sound s) (i base : Nat) (hverify : s.cfg.verifying = true) (horder : s.cfg.order.head? = some (i, base))
    (he : s.streamError base (if i = 0 then a else b) = none) :
    ∃ t, exec (.verifyComplete a b) s = .next t ∧ t.cfg = { s.cfg with verifying := false, order := [] }
      ∧ Reports s t 0x800 0 (compositeDigest (s.fileHashes base) + 2 ^ 32 * i + 2 ^ 63) ∧ Only (.cfg :: eventParts) s t
      ∧ RegsBut eventRegs s t := by
  have hsame : Wrote [] s s.verifyEnds := (Wrote.refl hs.regs).same rfl
  have hreports := hsame.reports 0 (compositeDigest (s.fileHashes base) + 2 ^ 32 * i + 2 ^ 63) (code := 0x800) (by decide)
    ⟨rfl, by decide, nofun⟩ rfl rfl rfl
  have hkeeps : Keeps 0x512 s.verifyEnds
      (s.verifyEnds.raise 0x800 0 (compositeDigest (s.fileHashes base) + 2 ^ 32 * i + 2 ^ 63)) := State.raise_keeps (by decide) (.refl _)
  exact ⟨_, exec_verifyComplete_passed hverify horder he, hkeeps.cfg.get (by decide), hreports, only_cfg_then hkeeps (by decide) (by decide),
    ((hsame.mono nofun).raise _ _ _ fun _ hp => hp).but⟩

/-! ### Live replacement -/

/-- A command that is refused with event 0x804. -/
theorem package_refused (hs : Sound s) {c : Instr} {r : Nat} (hpos : 0 < r) (hr : r < 16)
    (hexec : exec c s = .next ((s.cfgAnswer r).raise 0x804 0 r)) :
    ∃ t, exec c s = .next t ∧ (t.rd Reg.CFG_STAT.cmd_status 0 = 2 ∧ t.rd Reg.CFG_STAT.reason 0 = r) ∧ Reports s t 0x804 0 r ∧ t.cfg = s.cfg
      ∧ Only eventParts s t ∧ RegsBut (answerRegs ++ eventRegs) s t :=
  ⟨_, hexec, State.cfgAnswer_reported hs.regs hpos hr⟩

theorem lrStage_accepted (hs : Sound s) (hup : HostUp s) (hidle : s.cfgBusy = false) (h2 : s.rd Reg.CFG_LR_STAT.state 0 ≠ 2)
    (h3 : s.rd Reg.CFG_LR_STAT.state 0 ≠ 3) :
    ∃ t, exec .lrStage s = .next t ∧ (t.rd Reg.CFG_STAT.cmd_status 0 = 1 ∧ t.rd Reg.CFG_STAT.reason 0 = 0) ∧ t.rd Reg.CFG_LR_STAT.state 0 = 1
      ∧ t.rd Reg.CFG_LR_STAT.code 0 = 0 ∧ t.cfg = { s.cfg with staged := some ⟨[], s.rd Reg.CFG_LR_ADDR.addr 0, 0, [], 0, false⟩ }
      ∧ Only [.regs, .cfg] s t ∧ RegsBut ([(Reg.CFG_LR_STAT.state, 0), (Reg.CFG_LR_STAT.code, 0)] ++ answerRegs) s t := by
  obtain ⟨hanswer, hread, hcfg, honly, hbut⟩ := State.accepted_effect hs.regs
    (fun c => { c with staged := some ⟨[], s.rd Reg.CFG_LR_ADDR.addr 0, 0, [], 0, false⟩ }) [Reg.CFG_LR_STAT.state, Reg.CFG_LR_STAT.code]
    (l := [(Reg.CFG_LR_STAT.state, 0, 1), (Reg.CFG_LR_STAT.code, 0, 0)]) rfl (by decide) (by simp)
  exact ⟨_, exec_lrStage_accepted hup hidle h2 h3, hanswer, hread (Reg.CFG_LR_STAT.state, 0, 1) (by simp),
    hread (Reg.CFG_LR_STAT.code, 0, 0) (by simp), hcfg, honly, regsBut_mono (by simp) hbut⟩

theorem lrArm_accepted (hs : Sound s) (hup : HostUp s) (h : s.rd Reg.CFG_LR_STAT.state 0 = 2) (hearly : s.epo.k + 2 ≤ s.lrTarget)
    (hlate : s.lrTarget ≤ s.epo.k + 2 ^ 24) (hover : s.flag Reg.RED_STAT.handover 0 = false) :
    ∃ t, exec .lrArm s = .next t ∧ (t.rd Reg.CFG_STAT.cmd_status 0 = 1 ∧ t.rd Reg.CFG_STAT.reason 0 = 0) ∧ t.rd Reg.CFG_LR_STAT.state 0 = 3
      ∧ t.cfg = { s.cfg with staged := s.cfg.staged.map (fun p => { p with target := s.lrTarget }) } ∧ Only [.regs, .cfg] s t
      ∧ RegsBut ((Reg.CFG_LR_STAT.state, 0) :: answerRegs) s t := by
  obtain ⟨hanswer, hread, hcfg, honly, hbut⟩ := State.accepted_effect hs.regs
    (fun c => { c with staged := c.staged.map (fun p => { p with target := s.lrTarget }) }) [Reg.CFG_LR_STAT.state]
    (l := [(Reg.CFG_LR_STAT.state, 0, 3)]) rfl (by decide) (by simp)
  exact ⟨_, exec_lrArm_accepted hup h hearly hlate hover, hanswer, hread (Reg.CFG_LR_STAT.state, 0, 3) (by simp), hcfg, honly,
    regsBut_mono (by simp) hbut⟩

theorem lrCancel_accepted (hs : Sound s) (hup : HostUp s) (h : s.rd Reg.CFG_LR_STAT.state 0 = 3) (hlate : s.epo.k + 1 < s.armedFor) :
    ∃ t, exec .lrCancel s = .next t ∧ (t.rd Reg.CFG_STAT.cmd_status 0 = 1 ∧ t.rd Reg.CFG_STAT.reason 0 = 0) ∧ t.rd Reg.CFG_LR_STAT.state 0 = 2
      ∧ Reports s t 0x806 0 0 ∧ Only eventParts s t ∧ RegsBut ((Reg.CFG_LR_STAT.state, 0) :: answerRegs ++ eventRegs) s t := by
  obtain ⟨hanswer, hstate, -, hreports, hkeeps, hbut⟩ := State.accepted_reported hs.regs id (v := 2) (code := 0x806) (data := 0)
    (by decide) (by decide)
  exact ⟨_, exec_lrCancel_accepted hup h hlate, hanswer, hstate, hreports, hkeeps.only (by decide), hbut⟩

theorem lrDiscard_accepted (hs : Sound s) (hup : HostUp s) (h : s.rd Reg.CFG_LR_STAT.state 0 = 2 ∨ s.rd Reg.CFG_LR_STAT.state 0 = 5) :
    ∃ t, exec .lrDiscard s = .next t ∧ (t.rd Reg.CFG_STAT.cmd_status 0 = 1 ∧ t.rd Reg.CFG_STAT.reason 0 = 0)
      ∧ t.rd Reg.CFG_LR_STAT.state 0 = 0 ∧ t.cfg = { s.cfg with staged := none } ∧ Reports s t 0x806 0 1 ∧ Only (.cfg :: eventParts) s t
      ∧ RegsBut ((Reg.CFG_LR_STAT.state, 0) :: answerRegs ++ eventRegs) s t := by
  obtain ⟨hanswer, hstate, hcfg, hreports, hkeeps, hbut⟩ := State.accepted_reported hs.regs (fun c => { c with staged := none }) (v := 0)
    (code := 0x806) (data := 1) (by decide) (by decide)
  exact ⟨_, exec_lrDiscard_accepted hup h, hanswer, hstate, hcfg, hreports, only_cfg_then hkeeps (by decide) (by decide), hbut⟩

theorem package_failed (hs : Sound s) (p : Staged) (listed : List LrPart) (e : LoadError) :
    let t := s.packageChecked p listed (some e)
    t.rd Reg.CFG_LR_STAT.state 0 = 5 ∧ t.rd Reg.CFG_LR_STAT.code 0 = e.code % 2 ^ 8 ∧ Recorded s t e
      ∧ Reports s t 0x804 0 e.code ∧ t.cfg = s.cfg
      ∧ Only (.free :: eventParts) s t ∧ RegsBut ([(Reg.CFG_LR_STAT.state, 0), (Reg.CFG_LR_STAT.code, 0)] ++ errorRegs ++ eventRegs) s t := by
  intro t
  let l : List (Field × Nat × Nat) := [(Reg.CFG_LR_STAT.state, 0, 5), (Reg.CFG_LR_STAT.code, 0, e.code)]
  have hrecord : Keeps 0x14 s ((s.recordError e).wrAll l) := State.wrAll_keeps (by decide) l (State.recordError_keeps (by decide) (.refl s))
  obtain ⟨hreports, hrecorded, hread, hwrote⟩ := State.error_after (u := (s.recordError e).wrAll l) (code := 0x804) hs.regs e
    [Reg.CFG_LR_STAT.state, Reg.CFG_LR_STAT.code] (l := l) rfl (by decide) (by simp [l]) rfl rfl (hrecord.evq.get (by decide))
    (congrArg Epo.k (hrecord.epo.get (by decide))) (hrecord.clk.get (by decide)) (by decide) e.code
  have hkeeps : Keeps 0x516 s t := State.raise_keeps (by decide) (hrecord.mono (by decide))
  exact ⟨hread (Reg.CFG_LR_STAT.state, 0, 5) (by simp [l]), hread (Reg.CFG_LR_STAT.code, 0, e.code) (by simp [l]), hrecorded, hreports,
    hkeeps.cfg.get (by decide), hkeeps.only (by decide), hwrote.but⟩

theorem package_passed (hs : Sound s) (p : Staged) (listed : List LrPart) :
    let t := s.packageChecked p listed none
    t.rd Reg.CFG_LR_STAT.state 0 = 2 ∧ t.rd Reg.CFG_LR_STAT.sections 0 = s.flashWord (p.base + 12) 2 % 2 ^ 8
      ∧ t.cfg = { s.cfg with staged := some ⟨listed, p.base, s.flashWord (p.base + 8) 4, s.fileHashes p.base, 0, p.bad⟩ }
      ∧ Reports s t 0x803 0 (s.flashWord (p.base + 16) 4) ∧ Only (.cfg :: eventParts) s t
      ∧ RegsBut ([(Reg.CFG_LR_STAT.state, 0), (Reg.CFG_LR_STAT.sections, 0)] ++ eventRegs) s t := by
  intro t
  let l : List (Field × Nat × Nat) := [(Reg.CFG_LR_STAT.state, 0, 2), (Reg.CFG_LR_STAT.sections, 0, s.flashWord (p.base + 12) 2)]
  let v : State := s.modCfg (fun c => { c with
    staged := some ⟨listed, p.base, s.flashWord (p.base + 8) 4, s.fileHashes p.base, 0, p.bad⟩ })
  obtain ⟨hreports, hwrote, hread⟩ := State.raise_after [Reg.CFG_LR_STAT.state, Reg.CFG_LR_STAT.sections] (l := l) (u := v.wrAll l)
    (code := 0x803) rfl (by decide) hs.regs (by simp [l]) rfl rfl rfl rfl (by decide) 0 (s.flashWord (p.base + 16) 4)
  have hkeeps : Keeps 0x512 v t := State.raise_keeps (by decide) (State.wrAll_keeps (by decide) l (.refl v))
  exact ⟨hread (Reg.CFG_LR_STAT.state, 0, 2) (by simp [l]), hread (Reg.CFG_LR_STAT.sections, 0, s.flashWord (p.base + 12) 2) (by simp [l]),
    hkeeps.cfg.get (by decide), hreports, only_cfg_then hkeeps (by decide) (by decide), hwrote.but⟩

/-- Settles O56: each command answers, changes its part of the configuration block and reports; a started image shows in CFG_STAT whatever the
start of its bit-stream writes (`ImageShown`). -/
theorem loadsAndPackages : Obligations.LoadsAndPackages := by
  unfold Obligations.LoadsAndPackages
  intro s a b parts hs lr target k armed answer boot error accepted refused refuses recorded data
  refine ⟨fun hup h => ⟨_, exec_load_running hup h, State.cfgAnswer_refused hs.regs (by decide) (by decide)⟩, load_accepted hs,
    loadComplete_failed hs, loadComplete_started hs, exec_loadComplete_idle, verify_accepted hs,
    fun hup h => ⟨_, exec_verify_busy hup h, State.cfgAnswer_refused hs.regs (by decide) (by decide)⟩,
    fun i base hverify horder => ⟨verifyComplete_failed hs i base hverify horder, verifyComplete_passed hs i base hverify horder⟩,
    exec_verifyComplete_idle, lrStage_accepted hs, fun hup h => package_refused hs (by decide) (by decide) (exec_lrStage_busy hup h),
    fun p hp h => ⟨fun e he => ?_, fun he => ?_⟩, lrArm_accepted hs, fun hup => ⟨?_, ?_, ?_, ?_⟩, lrCancel_accepted hs,
    fun hup => ⟨?_, ?_⟩,    lrDiscard_accepted hs, fun hup h2 h5 => package_refused hs (by decide) (by decide) (exec_lrDiscard_other hup h2 h5)⟩
  · exact ⟨_, (exec_lrStageComplete hp h parts).trans (by rw [he]), package_failed hs p _ e⟩
  · exact ⟨_, (exec_lrStageComplete hp h parts).trans (by rw [he]), package_passed hs p _⟩
  · exact fun h => package_refused hs (by decide) (by decide) (exec_lrArm_other hup h)
  · exact fun h hearly => package_refused hs (by decide) (by decide) (exec_lrArm_early hup h hearly)
  · exact fun h hlate => package_refused hs (by decide) (by decide) (exec_lrArm_late hup h hlate)
  · exact fun h hearly hlate hover => package_refused hs (by decide) (by decide) (exec_lrArm_handover hup h hearly hlate hover)
  · exact fun h => package_refused hs (by decide) (by decide) (exec_lrCancel_other hup h)
  · exact fun h hlate => package_refused hs (by decide) (by decide) (exec_lrCancel_late hup h hlate)

end Sys2Proof.Proofs
